-- ==== Sys2Proof/Word.lean ====
section
/-! DEFINITION. The word types of the TK7 model: bytes, 32-bit register words and 64-byte descriptors (R5, R238). -/

namespace Sys2Proof

/-- One byte. -/
abbrev Byte := BitVec 8

/-- A word is 32 bits (R5). -/
abbrev Word := BitVec 32

/-- A run of bytes, the byte at the lowest address first (R4). -/
abbrev Bytes := List Byte

/-- A 64 B structure (a descriptor, a doorbell record, a consumer line) as one number: bit `8 * o + i` is
bit `i` of byte `o` (R4, R5). -/
abbrev Line64 := BitVec 512

/-- A 32 B structure (a link packet's first payload unit: LINK_CTRL, SYNC, NOTICE, ACK). -/
abbrev Line32 := BitVec 256

/-- A 16 B structure (a packet header, a window sub-header). -/
abbrev Line16 := BitVec 128

end Sys2Proof
end

