-- ==== Sys2Proof/Operand.lean ====
section
/-! DEFINITION. The types of the commands' operands: who a descriptor comes from, what a host read was for, what a
storage upset hits, and the outside world's answers. Every one is plain data. -/

namespace Sys2Proof

/-- Logical core number (R17): bits [10:8] plinth, bits [7:0] position. -/
abbrev CoreNo := Fin 2048
/-- Submission ring number (R230). -/
abbrev RingNo := Fin 4096
/-- Stream number (R196). -/
abbrev StreamNo := Fin 32768
/-- Function or gallery number; function n serves gallery n (R230). -/
abbrev GalNo := Fin 64
/-- Plinth number (R15). -/
abbrev PlinthNo := Fin 8
/-- Breosh port number (R342). -/
abbrev PortNo := Fin 32

/-- Where an operation comes from: descriptor `index` of a submission ring (R238), or the running lane group
`group` of a step program (R213). -/
inductive Origin where
  | ring (r : RingNo) (index : Word)
  | step (group : Nat)
  deriving DecidableEq, Repr

/-- One fetched ring entry: its 64 B, and the bytes the device read for it from a T2 reference copy where its
command reads one at acceptance (a PROG_LOAD's image, R211, R321). -/
structure Fetched where
  d   : Line64
  aux : Bytes
  deriving DecidableEq, Repr

/-- A separate summary word read at GSUM (R237, R246). -/
structure SepSummary where
  gal  : GalNo
  word : BitVec 64
  deriving DecidableEq, Repr

/-- Whose consumer line a read returned (R257, R407). -/
inductive ConsLine where
  | stream (k : StreamNo)
  | incident
  deriving DecidableEq, Repr

/-- What a device read of host memory was for (R262, R286, R423). -/
inductive HostRead where
  | summary
  | sepSummary (g : GalNo)
  | doorbell (r : RingNo)
  | descriptor (r : RingNo)
  | consumer (c : ConsLine)
  | appendTokens (r : RingNo) (index : Word)
  | dmaUnit (channel : Nat)
  | mapImage (r : RingNo) (index : Word)
  | moverPanel (obj panel : Nat)
  | reference (obj panel : Nat)
  deriving DecidableEq, Repr

/-- A disturbance of stored data, taken before the step that meets it (R400). It is the environment's: the manual
says how each is detected and reported, and names no step in which it arises. -/
inductive Upset where
  /-- XOR pattern over the 72 stored symbols of one channel burst, symbol 0 in bits [7:0] (R310). -/
  | burst (core : CoreNo) (addr : Nat) (xor : BitVec 576)
  /-- One or two bit errors in an 8-byte scratchpad word (R84). -/
  | scratch (core : CoreNo) (word : Nat) (double : Bool)
  /-- One or two bit errors in word 0 to 7 of a line that the core's stream cache slice holds (R84). -/
  | cache (core : CoreNo) (line : Nat) (word : Fin 8) (double : Bool)
  /-- One or two bit errors in an 8-byte hall-buffer word (R400). -/
  | hall (word : Nat) (double : Bool)
  /-- A changed accumulator entry, its residue left as it was (R112). -/
  | acc (core : CoreNo) (bank : Bool) (entry : Nat) (xor : Word)
  /-- A Curator table line that reads uncorrectable (`ue`) or inconsistent (R402). -/
  | tableLine (line : Nat) (ue : Bool)
  /-- A stream context that reads uncorrectable (`ue`) or inconsistent (R402). -/
  | context (k : StreamNo) (ue : Bool)
  deriving DecidableEq, Repr

/-- Residue mismatches an ATTN meets at its drain: the unit charged (R411) and where (R164). -/
inductive AttnFault where
  | score (group : Fin 16) (row col : Nat)
  | value (col : Fin 32) (row : Nat)
  deriving DecidableEq, Repr

/-- A token write a step makes (R187): the key record, value record and scale bytes that go to the page of one
slot of one stream. -/
structure TokenWrite where
  stream : StreamNo
  slot   : Nat
  keys   : Bytes
  values : Bytes
  scales : Bytes
  deriving DecidableEq, Repr

/-- The client of a channel request (R296). -/
inductive Client where
  | expander | score | dma | curator | token | scrub | repair | debug | mover
  deriving DecidableEq, Repr

/-- The placement hint a read through the stream cache carries (R301). -/
inductive Hint where
  | normal | stream | keep | discard
  deriving DecidableEq, Repr

/-- What a channel request does when it is served. -/
inductive ReqKind where
  | read
  | write (data : Bytes)
  | debugRead
  deriving DecidableEq, Repr

/-- A channel request: a run of bursts in one row and one direction (R296). `cls` is the class of R297, `gal` the
gallery a regulator charges (R304), none for unregulated traffic, and `group` the group it is marked for, 0 for none. -/
structure ChanReq where
  client : Client
  cls    : Fin 4
  gal    : Option GalNo
  addr   : Nat
  len    : Nat
  kind   : ReqKind
  group  : Nat
  deriving DecidableEq, Repr

/-- One 1 µs sample of a plinth: hottest junction sensor and hottest DRAM die, in units of 0.25 °C (R313). -/
structure ThermSample where
  junction : Nat
  dram     : Nat
  deriving DecidableEq, Repr

/-- What the bring-up of one plinth found (R478). -/
structure PlinthTraining where
  /-- Physical channels that did not train, or that sparing could not clear. -/
  badChannels : List (Fin 264)
  /-- Rows spared: physical channel, bank 0 to 31, row. -/
  rows : List (Fin 264 × Fin 32 × Nat)
  /-- Column slices spared: physical channel, bank 0 to 31, slice 0 to 127. -/
  cols : List (Fin 264 × Fin 32 × Nat)
  deriving DecidableEq, Repr

/-- A unit of a core that self-test or a residue fault names (R411, R482). -/
inductive CoreUnit where
  | pop
  | score (g : Fin 16)
  | valcol (k : Fin 32)
  deriving DecidableEq, Repr

/-- A core unit that failed self-test twice (R482). -/
structure SelfTestFail where
  core : CoreNo
  unit : CoreUnit
  deriving DecidableEq, Repr

/-- How a received packet or frame failed its checks (R345, R354, R362, R365). -/
inductive DiscardReason where
  | crc | fcs | etherType | header | macsec | proto
  deriving DecidableEq, Repr

/-- Why an UP port failed (R349). -/
inductive PortFail where
  | replay | fec | lock
  deriving DecidableEq, Repr

/-- How lock was lost (R369): the order is the one DETAIL2 of BEAT_LOSS counts (R406). -/
inductive BeatLossCause where
  | noCandidate | theta | beatDiffers | rootChanges | lateQuiesce
  deriving DecidableEq, Repr

/-- Where a SYNC or NOTICE arrived, or is sent: a cabinet port or an uplink peer (R366, R374). -/
inductive Neighbour where
  | port (p : Fin 24)
  | uplink (k : Fin 2)
  deriving DecidableEq, Repr

/-- How a boot image check ended, in the order of R432: it passed, or the numbered step that failed. -/
inductive ImageCheck where
  | pass | fail (step : Fin 6)
  deriving DecidableEq, Repr

/-- A firmware image as its header gives it (R431), and how it fares under R432. -/
structure ImageInfo where
  kidx   : Fin 4
  revoke : BitVec 4
  svn    : Word
  digest : BitVec 256
  /-- Steps 1, 3, 5 and 6 of R432 hold: layout, ROM digest, signature, body digest. -/
  layoutOk : Bool
  keyOk    : Bool
  sigOk    : Bool
  bodyOk   : Bool
  deriving DecidableEq, Repr

/-- The state of the helper data region (R435). -/
inductive HelperState where
  | validMatch | validMismatch | blank | other
  deriving DecidableEq, Repr

/-- The transports a management or SPDM message comes over (R439). -/
inductive Transport where
  | doe | smbus | vdm
  deriving DecidableEq, Repr

end Sys2Proof
end

