-- ==== Sys2Proof/Syntax.lean ====
section
/-! DEFINITION. The commands of the TK7: one constructor per row of spec/opcode_table.json, in the table's order.
A command is one whole and indivisible step of the part (95_what_each_step_holds.md). Its operands are what the
outside world decides about it: which object it names, what a read returned, what a sensor showed. -/

namespace Sys2Proof

/-- The commands. -/
inductive Instr where
  -- The beat, ticks and windows.
  | beatBoundary
  | collDeadline (group : Nat) (beat : Nat)
  | traceBeatTrigger
  | watchdogExpiry (source : BitVec 16) (identity : BitVec 64)
  | localTick
  | refreshSlot
  | refreshOpportunistic (core : CoreNo)
  | scrubRead (core : CoreNo) (ups : List Upset)
  | incidentRateWindowEnd
  | fenceWindowEnd
  | ringInterruptIntervalEnd (ring : RingNo)
  | incidentInterruptIntervalEnd
  | carmineRecordRelease (cgroup : Fin 256)
  -- The poll.
  | summaryReadDone (lines : List (BitVec 64)) (sep : List SepSummary)
  | doorbellReadDone (ring : RingNo) (record : Line64)
  | descriptorReadDone (ring : RingNo) (ds : List Fetched)
  | consumerLineReadDone (which : ConsLine) (line : Line64)
  | hostReadFault (what : HostRead) (completerAbort : Bool)
  | hostReadTimeout (what : HostRead)
  | ringEnable (func : GalNo) (ring : RingNo) (word : Word)
  | ringDisable (func : GalNo) (ring : RingNo) (word : Word)
  -- Descriptors, accepted.
  | nop (o : Origin) (d : Line64)
  | fence (o : Origin) (d : Line64)
  | copy (o : Origin) (d : Line64)
  | fill (o : Origin) (d : Line64)
  | compare (o : Origin) (d : Line64)
  | gather (o : Origin) (d : Line64)
  | spStrided (o : Origin) (d : Line64)
  | spTranspose (o : Origin) (d : Line64)
  | t24Convert (o : Origin) (d : Line64)
  | dmaStop (o : Origin) (d : Line64)
  | streamAdmit (o : Origin) (d : Line64)
  | append (o : Origin) (d : Line64)
  | policy (o : Origin) (d : Line64)
  | fork (o : Origin) (d : Line64)
  | cancel (o : Origin) (d : Line64)
  | release (o : Origin) (d : Line64)
  | progLoad (o : Origin) (d : Line64) (image : Bytes)
  | coreBind (o : Origin) (d : Line64)
  | coreUnbind (o : Origin) (d : Line64)
  | tile (o : Origin) (d : Line64)
  | tileBs (o : Origin) (d : Line64)
  | attn (o : Origin) (d : Line64)
  | pageMove (o : Origin) (d : Line64)
  | objCreate (o : Origin) (d : Line64)
  | accession (o : Origin) (d : Line64)
  | objMap (o : Origin) (d : Line64)
  | objRelease (o : Origin) (d : Line64)
  | migrate (o : Origin) (d : Line64)
  | objPin (o : Origin) (d : Line64)
  | objQuery (o : Origin) (d : Line64)
  | winOpen (o : Origin) (d : Line64)
  | winClose (o : Origin) (d : Line64)
  | winPut (o : Origin) (d : Line64)
  | winGet (o : Origin) (d : Line64)
  | coll (o : Origin) (d : Line64)
  | quiesce (o : Origin) (d : Line64)
  | carLoad (o : Origin) (d : Line64)
  -- Hub operations of a step program (R389).
  | addnorm (o : Origin) (d : Line64)
  | convert (o : Origin) (d : Line64)
  | bcast (o : Origin) (d : Line64)
  | merge (o : Origin) (d : Line64)
  | psum (o : Origin) (d : Line64)
  | sample (o : Origin) (d : Line64)
  -- Cores and annex.
  | coreIssue (core : CoreNo)
  | chunkLoadDone (core : CoreNo) (ups : List Upset)
  | broadcastChunkSend (plinth : PlinthNo)
  | tileComplete (core : CoreNo) (ups : List Upset)
  | accumulatorDrainDone (core : CoreNo) (bank : Bool) (ups : List Upset)
  | annexTileStart
  | annexTileComplete (ups : List Upset)
  | attnComplete (core : CoreNo) (ups : List Upset) (faults : List AttnFault)
  | handleDrained (core : CoreNo) (entry : Fin 64)
  -- Steps and the Curator.
  | stepOpIssue (group : Nat) (writes : List TokenWrite)
  | cowCopyComplete (stream : StreamNo) (slot : Nat)
  | stepComplete (group : Nat)
  | endRecordWrite (stream : StreamNo)
  | appendTokensReadDone (ring : RingNo) (index : Word) (tokens : List Word)
  | forkComplete (child : StreamNo)
  | releaseExecute (stream : StreamNo)
  | pageCopyMake (page : Word)
  | pageMoveComplete (page : Word)
  -- DMA.
  | dmaChannelAcquire
  | dmaUnitReadDone (channel : Fin 256) (data : Bytes) (ups : List Upset)
  | dmaUnitWriteDone (channel : Fin 256) (ups : List Upset)
  | dmaOpComplete (channel : Fin 256)
  -- Stack memory.
  | channelRequestServe (core : CoreNo) (arrivals : List ChanReq) (ups : List Upset)
  | readRaw (func : GalNo) (plinth : PlinthNo) (word : Word)
  | writeRaw (func : GalNo) (plinth : PlinthNo) (word : Word)
  | rowSpare (func : GalNo) (plinth : PlinthNo) (word : Word)
  | colSpare (func : GalNo) (plinth : PlinthNo) (word : Word)
  | chSpare (func : GalNo) (plinth : PlinthNo) (word : Word)
  | mapRead (func : GalNo) (plinth : PlinthNo) (word : Word)
  | repairCommandDone (plinth : PlinthNo)
  | channelSpareCopy (plinth : PlinthNo) (bursts : Nat) (ups : List Upset)
  | coreSpareSwitch (core : CoreNo)
  | repairRecordWrite
  -- Migration and repair of shared weights.
  | moverPanelStart (ups : List Upset)
  | panelSwitch (obj : Fin 16384) (panel : Nat) (data : Bytes)
  | repairStart (obj : Fin 16384) (panel : Nat)
  | referenceReadDone (obj : Fin 16384) (panel : Nat) (data : Bytes)
  | referenceReadRetry (obj : Fin 16384) (panel : Nat) (linkDown : Bool)
  | panelRewriteDone (obj : Fin 16384) (panel : Nat)
  | readbackDone (obj : Fin 16384) (panel : Nat) (ups : List Upset)
  -- Incidents and fences.
  | incidentRecordWrite
  | incidentRingEnable (func : GalNo) (word : Word)
  | fencePop (func : GalNo) (word : Word)
  | fenceClear (func : GalNo) (word : Word)
  | sourceClear (func : GalNo) (word : Word)
  -- Registers, commit and device state.
  | registerWrite (func : GalNo) (offset : Nat) (data : Bytes) (allEnabled : Bool)
  | counterPairRead (func : GalNo) (offset : Nat) (len : Nat)
  | configurationCommit (func : GalNo) (word : Word)
  | commitCheckDone
  | orderlyHold (func : GalNo) (word : Word)
  | holdEntry
  | beatUnitStart (func : GalNo) (word : Word)
  | beatUnitStop (func : GalNo) (word : Word)
  -- Catalogue.
  | snapshot (func : GalNo) (word : Word)
  | snapshotDone (func : GalNo)
  | dump (func : GalNo) (word : Word)
  | dumpDone
  | freeze (func : GalNo) (word : Word)
  | thaw (func : GalNo) (word : Word)
  | mark (func : GalNo) (word : Word)
  | arm (func : GalNo) (word : Word)
  | traceStop (func : GalNo) (word : Word)
  | trigger (func : GalNo) (word : Word)
  | traceRecordWrite
  | traceRecordDrop (fifo : Fin 9)
  | traceCaptureEnd
  -- Firmware and debug.
  | commit (func : GalNo) (word : Word)
  | revert (func : GalNo) (word : Word)
  | debugApertureAccess (offset : Nat) (len : Nat) (write : Option Bytes)
  -- Links.
  | linkCtrlReceive (port : PortNo) (hdr : Line16) (payload : Line32)
  | linkCtrlSend (port : PortNo)
  | dataForward (port : PortNo) (hdr : Line16) (payload : Bytes)
  | syncReceive (from_ : Neighbour) (hdr : Line16) (payload : Line32) (rx16 : Nat)
  | noticeReceive (from_ : Neighbour) (hdr : Line16) (payload : Line32)
  | noticePairExpiry
  -- Remote windows.
  | put (port : PortNo) (hdr : Line16) (sub : Line16) (data : Bytes)
  | getReq (port : PortNo) (hdr : Line16) (sub : Line16) (len : Word) (outside : Bytes) (ups : List Upset)
  | getData (port : PortNo) (hdr : Line16) (sub : Line16) (data : Bytes)
  | ack (port : PortNo) (hdr : Line16) (payload : Line32)
  | ackTimer (win : Fin 1024) (src : BitVec 17) (opid : BitVec 16)
  | windowOpTimeout (opid : BitVec 16)
  | windowOpComplete (opid : BitVec 16)
  | winCloseComplete (win : Fin 1024)
  -- Collectives.
  | collDataReceive (port : PortNo) (hdr : Line16) (sub : Line16) (data : Bytes)
  | hole (port : PortNo) (hdr : Line16) (sub : Line16)
  | collComplete (group : Nat) (beat : Nat)
  | carouselSlotStart (slot : Fin 64)
  -- Ports.
  | portTrainingDone (port : PortNo)
  | portTrainingTimeout (port : PortNo)
  | portFailure (port : PortNo) (cause : PortFail)
  | linkIdleTimeout (port : PortNo)
  | portRetrainTimer (port : PortNo)
  | beatLoss (cause : BeatLossCause)
  -- Reset and start-up.
  | deviceReset (perst : Bool) (helper : HelperState) (rpmcTagsOk : Bool) (strapPos : BitVec 7) (strapSmba : BitVec 3)
  | bootImageVerified (slotA slotB : ImageInfo)
  | channelTrainingDone (plinths : List PlinthTraining)
  | selfTestDone (fails : List SelfTestFail) (annexFailed : Bool)
  | pwrgdFall
  | vfFunctionLevelReset (vf : GalNo)
  | vfResetComplete (vf : GalNo)
  | pfResetOrLinkLoss
  | thermalSample (samples : List ThermSample)
  | sysclkLoss
  | brlclkLoss
  -- Management and security.
  | mctpMessage (transport : Transport) (sensor : Nat)
  | pldmFirmwareUpdate (transport : Transport) (session : Nat) (chunk : Option (Nat × Bytes))
  | activateFirmware (session : Nat) (image : ImageInfo)
  | getVersion (transport : Transport)
  | getCapabilities (transport : Transport)
  | negotiateAlgorithms (transport : Transport)
  | getDigests (transport : Transport)
  | getCertificate (transport : Transport) (slot : Fin 8) (offset length : Nat)
  | challenge (transport : Transport) (slot : Fin 8) (nonce : Bytes)
  | getMeasurements (transport : Transport) (index : Nat)
  | keyExchange (transport : Transport) (exchange : Bytes)
  | finish (session : Fin 4) (verified : Bool)
  | keyUpdate (session : Fin 4)
  | heartbeat (session : Fin 4)
  | endSession (session : Fin 4)
  | setCertificate (session : Fin 4) (slot : Fin 8) (chain : Bytes)
  | debugUnlock (session : Fin 4) (nonce : Bytes) (kidx : Fin 4) (identityOk sigOk : Bool)
  | macsecKeyInstall (session : Fin 4) (plane : Fin 8) (assoc : Bool) (key : BitVec 256) (effect : Option (BitVec 64))
  | ideKm (session : Fin 4) (stream : Fin 5) (key : BitVec 256) (vfs : List GalNo)
  | ideIntegrityFailure (stream : Fin 5)
  | lockInterface (vf : GalNo)
  | startInterface (vf : GalNo)
  | stopInterface (vf : GalNo)
  -- The remaining steps, as the table ends.
  | packetDiscard (port : PortNo) (reason : DiscardReason)
  | bindZeroFillDone (core : CoreNo) (entry : Fin 64)
  | hubOperationComplete (op : Nat)
  | mapImageReadDone (ring : RingNo) (index : Word) (image : Bytes)
  | pcieLinkTrained (width : Nat) (rate : Nat) (flit : Bool)
  deriving DecidableEq, Repr

end Sys2Proof
end

