-- ==== Sys2Proof/Decode.lean ====
section
/-! DEFINITION. Commands from words. No row of the table of commands gives bits: the commands of the TK7 are its own
steps and events, and none is spelled by a word. -/

namespace Sys2Proof

/-- The command a word of `nbits` bits spells: none, for no row of the table has bits. -/
def decodeTableWord (_nbits _w : Nat) : Option Instr := none

end Sys2Proof
end

