-- ==== Sys2Proof/Machine/Codes.lean ====
section
/-! DEFINITION. Bits, bytes, check codes and signed fields, as the manual numbers them (R4, R5, R239, R309, R485). -/

namespace Sys2Proof.Machine

/-- Bits [hi:lo] of a number (R4). -/
def bits (n hi lo : Nat) : Nat := n / 2 ^ lo % 2 ^ (hi + 1 - lo)

/-- Bit i of a number. -/
def bit (n i : Nat) : Bool := n / 2 ^ i % 2 == 1

/-- Replace bits [hi:lo] of a number. -/
def setBits (n hi lo v : Nat) : Nat :=
  n - bits n hi lo * 2 ^ lo + v % 2 ^ (hi + 1 - lo) * 2 ^ lo

/-- The field at byte offset `o`, bits [hi:lo] of the little-endian field that starts there (R4, R5). -/
def fld {w : Nat} (d : BitVec w) (o hi lo : Nat) : Nat := bits d.toNat (8 * o + hi) (8 * o + lo)

/-- One bit of the little-endian field at byte offset `o`. -/
def fbit {w : Nat} (d : BitVec w) (o i : Nat) : Bool := bit d.toNat (8 * o + i)

/-- A number as the field [hi:lo] at byte `o` of a structure. -/
def putF (o lo v : Nat) : Nat := v * 2 ^ (8 * o + lo)

/-- A number as `n` little-endian bytes (R5). -/
def toLE : Nat → Nat → Bytes
  | 0, _ => []
  | n + 1, v => BitVec.ofNat 8 v :: toLE n (v / 256)

/-- Little-endian bytes as a number (R5). -/
def ofLE : Bytes → Nat
  | [] => 0
  | b :: t => b.toNat + 256 * ofLE t

/-- The 64 B of a line as bytes, and back (R4). -/
def lineBytes {w : Nat} (d : BitVec w) : Bytes := toLE (w / 8) d.toNat
def bytesLine (w : Nat) (b : Bytes) : BitVec w := BitVec.ofNat w (ofLE b)

/-- `n` bytes from position `o` of a run; positions past its end read as zero. -/
def slice (b : Bytes) (o n : Nat) : Bytes :=
  let t := (b.drop o).take n
  t ++ List.replicate (n - t.length) 0

/-- The n-bit two's complement value of a number. -/
def signed (n v : Nat) : Int :=
  let v := v % 2 ^ n
  if 2 ^ (n - 1) ≤ v then (v : Int) - (2 ^ n : Nat) else v

/-- An integer as n-bit two's complement. -/
def twos (n : Nat) (v : Int) : Nat := (v % ((2 ^ n : Nat) : Int)).toNat

/-- ceil(a / b). -/
def cdiv (a b : Nat) : Nat := (a + b - 1) / b

/-- `a` rounded up to a multiple of `b`. -/
def alignUp (a b : Nat) : Nat := cdiv a b * b

/-- floor(log₂ n), 0 for 0. -/
def log2 (n : Nat) : Nat := n.log2

/-- Arithmetic shift by `n` places: left for n ≥ 0, right otherwise, rounding toward minus infinity (R150). -/
def ashift (v : Int) (n : Int) : Int :=
  if 0 ≤ n then v * ((2 ^ n.toNat : Nat) : Int) else v / ((2 ^ (-n).toNat : Nat) : Int)

/-- Values of a list at the positions of another list of switches. -/
def selectBy {α : Type} : List Bool → List α → List α
  | true :: bs, a :: as => a :: selectBy bs as
  | false :: bs, _ :: as => selectBy bs as
  | _, _ => []

/-- Cut a list into runs of `n`, the last one the remainder; `fuel` bounds the runs. -/
def runsOf {α : Type} (n : Nat) : Nat → List α → List (List α)
  | 0, _ => []
  | _, [] => []
  | f + 1, l => l.take n :: runsOf n f (l.drop n)

/-- The positions 0 to n − 1 at which a predicate holds. -/
def positions (n : Nat) (p : Nat → Bool) : List Nat := (List.range n).filter p

/-- One step of CRC-16 with polynomial 0x1021, most significant bit first (R239). -/
def crc16Bit (c : Nat) : Nat → Nat
  | 0 => c
  | n + 1 => crc16Bit (if 32768 ≤ c then (c * 2 % 65536) ^^^ 0x1021 else c * 2) n

/-- The CRC of R239: polynomial 0x1021, initial value 0xFFFF, no reflection, no final inversion. -/
def crc16 (b : Bytes) : Nat := b.foldl (fun c x => crc16Bit (c ^^^ (x.toNat * 256)) 8) 0xFFFF

/-- One step of the reflected CRC-32C. -/
def crc32cBit (c : Nat) : Nat → Nat
  | 0 => c
  | n + 1 => crc32cBit (if c % 2 = 1 then c / 2 ^^^ 0x82F63B78 else c / 2) n

/-- The CRC-32C of R485. -/
def crc32c (b : Bytes) : Nat :=
  b.foldl (fun c x => crc32cBit (c ^^^ x.toNat) 8) 0xFFFFFFFF ^^^ 0xFFFFFFFF

/-- The entry with the greatest key, the first of equals. -/
def maxBy {α : Type} (f : α → Nat) : List α → Option α
  | [] => none
  | a :: t => match maxBy f t with
    | none => some a
    | some b => if f b ≤ f a then some a else some b

/-- The entry with the least key, the first of equals. -/
def minBy {α : Type} (f : α → Nat) : List α → Option α
  | [] => none
  | a :: t => match minBy f t with
    | none => some a
    | some b => if f a ≤ f b then some a else some b

/-- Insert into a list ordered by key, after equals. -/
def insertBy {α : Type} (f : α → Nat) (x : α) : List α → List α
  | [] => [x]
  | a :: t => if f x < f a then x :: a :: t else a :: insertBy f x t

/-- Order a list by key, keeping the order of equals. -/
def sortBy {α : Type} (f : α → Nat) (l : List α) : List α := l.foldl (fun acc x => insertBy f x acc) []

/-- Keep the first of equal numbers. -/
def distinct : List Nat → List Nat
  | [] => []
  | a :: t => a :: (distinct t).filter (fun b => b != a)

/-- floor(2^(64 + 2^−k)) for k = 1 to 32: the binary roots of two that powers of two are taken with. -/
def rootTwo : List Nat :=
  [26087635650665564424, 21936999301089678046, 20116317054877281741, 19263451207323153961, 18850675170876015534,
   18647615946650685158, 18546908069882975960, 18496758270674070881, 18471734244850835105, 18459234930309000272,
   18452988445124272033, 18449865995240371898, 18448304968436414829, 18447524504564044945, 18447134285009651015,
   18446939178327825412, 18446841625760745902, 18446792849670663276, 18446768461673986097, 18446756267687738521,
   18446750170697637485, 18446747122203342655, 18446745597956384161, 18446744835832952145, 18446744454771247944,
   18446744264240398796, 18446744168974974960, 18446744121342263226, 18446744097525907405, 18446744085617729507,
   18446744079663640560, 18446744076686596088]

/-- 2^(u / 2^n) × 2^64, rounded down at each step, u from 0 to 2^n − 1 and n up to 32: the top bit of u takes the square
root of two. -/
def powFrac (n u : Nat) : Nat :=
  (rootTwo.zip (List.range n)).foldl
    (fun p c => if bit u (n - 1 - c.2) then p * c.1 / 2 ^ 64 else p) (2 ^ 64)

/-- 2^(u / 1,024) × 2^64, rounded down, u from 0 to 1,023 (R153, R56). -/
def powTwo (u : Nat) : Nat := powFrac 10 u

end Sys2Proof.Machine
end

