-- ==== Sys2Proof/Machine/State.lean ====
section
/-! DEFINITION. The state of one TK7: everything the manual gives the device, as plain data. Every field's default
value is its value right after a device reset (R501); State.reset takes them all. Keyed tables list only the
entries that differ from the value an unlisted key holds. -/

namespace Sys2Proof.Machine

/-- A table keyed by number, in one canonical form: keys strictly rising, no entry equal to the unlisted value. -/
abbrev Tbl (α : Type) := List (Nat × α)

/-- The status codes of R11. -/
inductive Status where
  | ok | okSubstituted | badDescriptor | badHandle | quotaExceeded | precisionMismatch | budgetExceeded
  | genInUse | lockedField | blockShort | blockLong | sparseDensity | operandBound | codeRange
  | weightUeRetry | arrayUe | residueFault | remoteWindowClosed | linkDown | slotMissed | beatLost
  | stopped | internal
  deriving DecidableEq, Repr

/-- An accepted operation: its place in the order of acceptance, where it came from, its 64 B (a step program's
template with the fields the Docent fills in), the gallery it acts for and its service class (R235, R270). -/
structure Op where
  id     : Nat
  org    : Origin
  opcode : Nat
  d      : Line64
  gal    : Nat
  cls    : Nat
  beat   : Nat
  /-- Page entries the Docent built for an ATTN of a step program: PADDR, SADDR, TPOS and TCOUNT of each (R186, R213). -/
  pages  : Option (List (Nat × Nat × Nat × Nat)) := none
  /-- Number of a step program's operation within its step (R459). -/
  num    : Nat := 0
  deriving DecidableEq, Repr

/-! ### Outside the device -/

/-- What the device sends out of itself, in order: posted writes to host memory, interrupt messages, pins, packets,
management events and answers. Host memory and the links' far ends lie outside the device. -/
inductive Out where
  /-- Posted write to the memory of a function (R254, R259, R407, R275). -/
  | hostWrite (func : Nat) (addr : Nat) (data : Bytes)
  /-- A read of host memory the device issues (R246, R258, R203). -/
  | hostRead (func : Nat) (what : HostRead) (addr len : Nat)
  /-- MSI-X message (R260, R261, R409). -/
  | msix (func vector : Nat)
  /-- A read completion: register or debug-aperture bytes; `poisoned` is the EP bit (R498, R506). -/
  | readData (func : Nat) (data : Bytes) (poisoned : Bool)
  /-- Completion with Unsupported Request (R498). -/
  | unsupported (func : Nat)
  /-- A Breosh packet leaves on a port: header and payload, less the CRC trailer (R344, R354). -/
  | packet (port : Nat) (hdr : Line16) (payload : Bytes)
  /-- An Ethernet frame leaves on an uplink: its MAC header, tag and EtherType, the MACsec association that protects it, if one does,
  and the Breosh packet less its CRC trailer (R354, R362). -/
  | frame (port : Nat) (eth : Bytes) (assoc : Option Bool) (hdr : Line16) (payload : Bytes)
  /-- PLDM PlatformEventMessage of a sensor and threshold (R510), or one naming a clock or the thermal hold. -/
  | pldmThreshold (sensor : Nat) (critical : Bool)
  | pldmClock (brlclk : Bool)
  | pldmThermalHold (plinth : Nat)
  /-- An answer of the management controller or the SPDM responder: request, and the plain content given. -/
  | answer (transport : Transport) (code : Nat) (data : Bytes)
  deriving DecidableEq, Repr

/-! ### Sliver cores -/

/-- States of a handle entry (R88). -/
inductive HandleSt where
  | free | bound | draining
  deriving DecidableEq, Repr

/-- A handle-table entry (R88): at reset FREE with generation 0. `bindOp` is a CORE_BIND whose lines are still being
zero-filled (R446), `unbindOp` the CORE_UNBIND that waits for the entry to drain (R91). `prod`, `cons` and `slots`
are the chunk ring of a RING handle: chunks sent into it, chunks whose credit came back, and which chunk of which
broadcast pass each sent chunk is (R87). -/
structure Handle where
  st       : HandleSt := .free
  base     : Nat := 0
  lines    : Nat := 0
  fmt      : Nat := 0
  typed    : Bool := false
  order    : Bool := false
  ring     : Bool := false
  gal      : Nat := 0
  gen      : BitVec 8 := 0
  count    : Nat := 0
  bindOp   : Option Op := none
  unbindOp : Option Op := none
  prod     : Nat := 0
  cons     : Nat := 0
  slots    : List Nat := []
  deriving DecidableEq, Repr

/-- A scoreboard entry (R94). -/
structure SbEntry where
  first : Nat
  last  : Nat
  write : Bool
  op    : Nat
  deriving DecidableEq, Repr

/-- Bank states (R107). -/
inductive BankSt where
  | free | filling | held | draining
  deriving DecidableEq, Repr

/-- The weight kinds of a bank's tag (R129). -/
inductive WKind where
  | ternary | t24Sparse | t24Dense | btn | annex
  deriving DecidableEq, Repr

/-- The tag a HELD or FILLING bank carries (R108, R129). -/
structure BankTag where
  afmt  : Nat := 0
  kind  : WKind := .ternary
  ahdl  : Nat := 0
  lanes : Nat := 0
  rows  : Nat := 0
  chid  : Nat := 0
  deriving DecidableEq, Repr

/-- An accumulator entry: its INT32 value, its residue mod 7, and whether it saturated (R106, R34, R111). -/
structure AccEntry where
  val : Word := 0
  res : Nat := 0
  sat : Bool := false
  deriving DecidableEq, Repr

/-- An accumulator bank (R106, R107): `chain` holds the tiles of the chain from its opening one (R420), `erefs` the
E_max of each lane of the vector it reads, as its header held them (R48, R49). -/
structure Bank where
  st     : BankSt := .free
  tag    : BankTag := {}
  ents   : Tbl AccEntry := []
  op     : Option Op := none
  chain  : List Op := []
  status : Status := .ok
  erefs  : List Nat := []
  deriving DecidableEq, Repr

/-- What the expander holds of a slice: its header's N and W, its codebook entries, whether the header is invalid (R62) or an
uncorrectable burst makes the slice unreadable (R71), and the panel in repair, object and number, that its header or codebook
lies in (R420). -/
structure SliceInfo where
  n      : Nat := 0
  w      : Nat := 0
  book   : List Nat := []
  bad    : Bool := false
  lost   : Bool := false
  quar   : Option (Nat × Nat) := none
  deriving DecidableEq, Repr

/-- A plane reference (R119). -/
structure PlaneRef where
  slice  : Nat
  first  : Nat
  seq    : Nat
  stride : Nat
  deriving DecidableEq, Repr

/-- An issued tile (R115): its lane count, its plane references and what the expander holds of each slice, plane 0
first (R72, R119), the bank it fills once it runs, the header of the vector it reads (R48), and the chunk slots the
chunk loader has copied so far, in pass order; the last two stand in the chunk buffer's halves (R103). A block-sparse tile
holds its column-block indices and its block list, RB, CB and OFFSET of each entry, as scanned at issue (R137). -/
structure TileRun where
  op      : Op
  lanes   : Nat := 64
  tag     : BankTag := {}
  refs    : List PlaneRef := []
  slices  : List SliceInfo := []
  started : Bool := false
  bank    : Bool := false
  loaded  : List Bytes := []
  erefs   : List Nat := []
  status  : Status := .ok
  bsIdx   : List Nat := []
  bsList  : List (Nat × Nat × Nat) := []
  deriving DecidableEq, Repr

/-- An issued ATTN: the path it began on, sepia mode (R164, R165), whether every score group was fenced (R413), its page
entries as scanned at issue (R146), and the status the scan met. -/
structure AttnRun where
  op      : Op
  sepia   : Bool
  noScore : Bool
  pages   : List (Nat × Nat × Nat × Nat) := []
  status  : Status := .ok
  deriving DecidableEq, Repr

/-- A codebook register of the expander: the slice it holds and the issued tiles that name it (R72). `scratch` is
set for a slice read from the scratchpad. -/
structure CodebookReg where
  slice   : Nat
  scratch : Bool
  info    : SliceInfo
  users   : List Nat
  deriving DecidableEq, Repr

/-- A stream-cache line: its number, its 64 B, the hint it was installed under (R100, R300, R301), and its words in error,
0 to 7, each with whether the error is a double-bit one (R84). -/
structure CacheLine where
  line : Nat
  hint : Hint
  data : Bytes
  errs : Tbl Bool := []
  deriving DecidableEq, Repr

/-- One logical core (R17): the pairing of physical sliver core `phys` with physical channel `chan` of its plinth
(R18); the unlisted core p is paired with physical core and channel p. -/
structure Core where
  phys     : Nat
  chan     : Nat
  handles  : Tbl Handle := []
  /-- Last gallery, plus 1, that bound each scratchpad line; 0 = no tag (R446). -/
  tags     : Tbl Nat := []
  scoreboard : List SbEntry := []
  /-- Operations that wait at the issue point, in arrival order (R96). -/
  waiting  : List Op := []
  /-- Tiles issued, the running one first (R115). -/
  tiles    : List TileRun := []
  /-- ATTNs issued, the running one first. -/
  attns    : List AttnRun := []
  bank0    : Bank := {}
  bank1    : Bank := {}
  codebooks : List CodebookReg := []
  /-- Stream cache slice, by set, most recently used first (R100, R300). -/
  cache    : Tbl (List CacheLine) := []
  /-- Carmine credit in hundredths of a clk (R220). -/
  credit   : Int := 0
  fencePop : Bool := false
  fenceScore : BitVec 16 := 0
  fenceVal : BitVec 32 := 0
  sparePend : Bool := false
  noSpare  : Bool := false
  /-- Spare physical core claimed (R415). -/
  claim    : Option Nat := none
  /-- A spare switch under way since boundary Q + 1 (R415). -/
  switching : Bool := false
  /-- The spare core and the spare channel it switches to, as they stood at Q + 1 (R415, R417). -/
  switchTo  : Option Nat := none
  switchCh  : Option Nat := none
  /-- Its generators (R114): the beat of their sequence numbers, and the next one of each generator 0 to 3. -/
  genBeat  : Nat := 0
  genSeq   : List Nat := [0, 0, 0, 0]
  /-- Residue faults in the current fence window, by unit: 0 POP, 1 + g SCORE g, 17 + k VALCOL k (R412). -/
  faults   : Tbl Nat := []
  deriving DecidableEq, Repr

/-! ### Channels and plinths -/

/-- One channel controller with its refresh and scrub state, by logical core. -/
structure Chan where
  /-- Requests held, oldest first, at most 64 (R297). -/
  queue   : List ChanReq := []
  /-- Requests a regulator holds outside the queue until the next window (R303). -/
  held    : List ChanReq := []
  /-- Requests of clients that the controller has not yet accepted: it is full or not enabled (R297, R305). -/
  calling : List ChanReq := []
  /-- Direction, bank and row of the request served last (R295, R297). -/
  last    : Option (Bool × Nat × Nat) := none
  /-- Refresh operations done since reset: banks and rows come in rotation, and with its plinth's accrual they give the
  refresh debt (R306). -/
  rfDone  : Nat := 0
  /-- Group whose requests are being served, 0 for none (R296). -/
  group   : Nat := 0
  /-- Bursts gallery n has used of its budget in this window (R303). -/
  used    : Tbl Nat := []
  /-- Next burst of the scrub, and scrub reads made in this beat (R312). -/
  scrub   : Nat := 0
  scrubUsed : Nat := 0
  deriving DecidableEq, Repr

/-- One repair-map entry in the fields of R480. -/
structure RepEntry where
  kind   : Nat
  plinth : Nat
  phys   : Nat
  die    : Nat
  bank   : Nat
  row    : Nat
  spare  : Nat
  deriving DecidableEq, Repr

/-- A CH_SPARE under way (R417): the failing and the spare physical channel, and the next address to copy. -/
structure ChSpare where
  pch    : Nat
  spare  : Nat
  copied : Nat
  deriving DecidableEq, Repr

/-- A broadcast in progress on one plinth (R87): its operation, the vector's place and shape, the ring handle, and
the next chunk to send. -/
structure Broadcast where
  op     : Op
  src    : Nat
  fmt    : Nat
  lanes  : Nat
  elems  : Nat
  pitch  : Nat
  ahdl   : Nat
  next   : Nat
  total  : Nat
  /-- E_max of each lane as the arrival converter took it from the header, sent ahead of chunk 0 (R48). -/
  emax   : List Nat := []
  deriving DecidableEq, Repr

/-- A trace record on its way to the buffer: the 16 B event record of R457 with the fields of R464. -/
structure TraceRec where
  rec16 : Line16
  unit  : Nat
  beatHi : Nat
  fine  : Nat
  /-- It matches a filter that records, and one that triggers. -/
  keep  : Bool
  trig  : Bool
  deriving DecidableEq, Repr

/-- One plinth. Temperatures are in units of 0.25 °C (R313). -/
structure Plinth where
  /-- Latest 1 µs samples. -/
  junction : Nat := 0
  dram     : Nat := 0
  /-- Hottest samples since the last evaluation (R313). -/
  jMax     : Nat := 0
  dMax     : Nat := 0
  /-- PLNn_TSTAT.PMAX and DMAX, and PLNn_RFSTAT.DMAX. -/
  tPmax    : Nat := 0
  tDmax    : Nat := 0
  rfDmax   : Nat := 0
  /-- Refresh that has fallen due on each of its channels, in units of 1/1,024 operation, and the largest whole debt of
  this beat so far (R306). -/
  accrued  : Nat := 0
  rfPeak   : Nat := 0
  /-- Throttle level (R314) and hot state (R308). -/
  level    : Nat := 0
  hot      : Bool := false
  /-- Whether the latest sample stands at a limit of R315. -/
  atLimit  : Bool := false
  /-- Thresholds of R510 a sample has risen to and has not fallen 2 °C below: warn and crit of plinth and DRAM. -/
  firedPW  : Bool := false
  firedPC  : Bool := false
  firedDW  : Bool := false
  firedDC  : Bool := false
  /-- The status the running repair command ends with, BUSY while there is one; its PCH; STATUS of the last (R317). -/
  rprRun   : Option Status := none
  rprPch   : Nat := 0
  rprStatus : Status := .ok
  repairMap : List RepEntry := []
  chSpares : List ChSpare := []
  broadcasts : List Broadcast := []
  /-- Physical cores out of service until reset (R415). -/
  deadCores : List Nat := []
  /-- Physical channels out of service (R316, R478). -/
  deadChans : List Nat := []
  deriving DecidableEq, Repr

/-- One scale block a finisher assembles: the output base, lane and block, with the entries that have drained by row of
the block (R142). An entry is an INT32 word with its exponent, or an FP32 word. -/
structure FinBlock where
  dest  : Nat
  lane  : Nat
  block : Int
  vals  : List (Nat × Word × Option Int)
  deriving DecidableEq, Repr

/-- One finisher (R19): blocks being assembled (R142), the TOPK list of each lane (R143), and the sum of squares of each
lane of the output it finishes (R141). -/
structure Finisher where
  blocks : List FinBlock := []
  topk   : Tbl (List (Word × Nat)) := []
  sumsq  : Tbl Word := []
  deriving DecidableEq, Repr

/-! ### Annex (R122) -/

/-- An annex bank: FP32 entries under the tag rules of R108, for one chain of one core. -/
structure AnnexBank where
  st   : BankSt := .free
  core : Nat := 0
  tag  : BankTag := {}
  ents : Tbl Word := []
  chain : List Op := []
  deriving DecidableEq, Repr

/-- The annex: waiting tiles in hub arrival order, the running one, its two banks, and its failed flag (R507). -/
structure Annex where
  queue   : List TileRun := []
  running : Option TileRun := none
  bank0   : AnnexBank := {}
  bank1   : AnnexBank := {}
  fail    : Bool := false
  deriving DecidableEq, Repr

/-! ### Streams -/

/-- Stream states (R196). -/
inductive StreamSt where
  | free | idle | prefill | decode | releasing
  deriving DecidableEq, Repr

/-- A stream's 512 B context (R196) and what the Docent keeps beside it. -/
structure Ctx where
  st        : StreamSt := .free
  cls       : Nat := 0
  inStep    : Bool := false
  cancelPend : Bool := false
  override  : Bool := false
  gal       : Nat := 0
  prog      : Nat := 0
  period    : Nat := 0
  cgroup    : Nat := 0
  root      : Word := 0
  pending   : Nat := 0
  due       : Nat := 0
  last      : Nat := 0
  generated : Nat := 0
  maxTok    : Nat := 0
  lastTok   : BitVec 24 := 0
  pqHead    : Word := 0
  temp      : Word := 0
  topP      : Word := 0
  topK      : Nat := 0
  nStop     : Nat := 0
  stops     : List (BitVec 24) := []
  gkey      : BitVec 64 := 0
  gctr      : BitVec 64 := 0
  ring      : Nat := 0
  rlog2     : Nat := 0
  msix      : Nat := 0
  prod      : Word := 0
  cons      : Word := 0
  /-- PRIV, 256 B private to the step program. -/
  priv      : Tbl Byte := []
  /-- The held flag in the device-reserved bytes (R402). -/
  held      : Bool := false
  /-- Pending prompt tokens, the first one first (R203). -/
  prompt    : List (BitVec 24) := []
  /-- END record that waits for room: its status (R259). -/
  endWait   : Option Status := none
  /-- Commands whose completion follows the waiting END record (R206, R259). -/
  afterEnd  : List Op := []
  /-- The RELEASE accepted owes an END record when it cancels the stream (R206, R207). -/
  relEnd    : Bool := false
  /-- Beat in which the previous step's records were issued (R22); none before the first step. -/
  issuedAt  : Option Nat := none
  /-- The last lane-group denial was reported and the run is unbroken (R185). -/
  denied    : Bool := false
  deriving DecidableEq, Repr

/-- An APPEND in flight (R203): tokens still to be stepped; none until its array has been read. -/
structure AppendRec where
  op     : Op
  stream : Nat
  go     : Bool
  count  : Nat
  /-- VOCAB of the program that commands accepted earlier leave the stream with (R201, R203). -/
  vocab  : Nat := 0
  /-- The array's tokens once read, kept until earlier APPENDs of the stream have been read too. -/
  data   : Option (List (BitVec 24)) := none
  /-- Tokens still to be stepped, once they stand in the prompt. -/
  left   : Option Nat := none
  deriving DecidableEq, Repr

/-- A stream command whose effect is still pending (POLICY, CANCEL, RELEASE), in order of acceptance (R201). -/
structure StreamCmd where
  op     : Op
  stream : Nat
  /-- The generator key a POLICY leased at acceptance (R228). -/
  key    : Option (BitVec 64) := none
  deriving DecidableEq, Repr

/-- A loaded step program (R211 to R213). -/
structure Prog where
  awidth  : Nat := 4
  topkMax : Nat := 1
  vocab   : Nat := 0
  slots   : Nat := 1
  kfmt    : Nat := 4
  vfmt    : Nat := 4
  hdim    : Nat := 4
  place   : Nat := 0
  wstep   : Nat := 0
  wsb     : Nat := 0
  wpre    : Nat := 0
  tlong   : Nat := 0
  dec     : List Line64 := []
  pre     : List Line64 := []
  /-- Gallery that loaded it, and the object whose image it is, pinned while loaded (R332). -/
  gal     : Nat := 0
  obj     : Nat := 0
  /-- The image's bytes, which measurement 5 covers (R440). -/
  image   : Bytes := []
  deriving DecidableEq, Repr

/-- A token the sampler chose for one member (R226). -/
structure Sampled where
  token : BitVec 24
  prob  : BitVec 16
  rank  : Nat
  deriving DecidableEq, Repr

/-- A member stream of a running lane group: tokens it steps, frames reserved for it (core, frame), its sampled
token and the highest status its step's operations met (R387, R403). -/
structure Member where
  stream  : Nat
  tokens  : Nat := 1
  frames  : List (Nat × Nat) := []
  sampled : Option Sampled := none
  status  : Status := .ok
  /-- Tokens written in this step, by slot (R187). -/
  wrote   : Tbl Nat := []
  deriving DecidableEq, Repr

/-- A running lane group (R215): its step's beat, program, body, next operation, instances still to issue of the
current operation, and operations issued and not completed. -/
structure LaneGroup where
  id      : Nat
  cls     : Nat
  prog    : Nat
  prefill : Bool
  beat    : Nat
  members : List Member
  next    : Nat := 0
  outstanding : List Nat := []
  cgroup  : Option Nat := none
  /-- Conditions of R224 this step broke, by number in the order R224 lists them. -/
  broke   : List Nat := []
  deriving DecidableEq, Repr

/-- A record held for release (R223): stream, and the TOKEN it carries, with the END status that follows. -/
structure HeldRecord where
  stream : Nat
  notice : Option Status
  token  : Option (Sampled × Nat)
  endSt  : Option Status
  deriving DecidableEq, Repr

/-- A Carmine group (R219). -/
structure CGroup where
  gal     : Nat
  prog    : Nat
  period  : Nat
  d0      : Nat
  members : List Nat
  held    : List HeldRecord := []
  heldDue : Nat := 0
  deriving DecidableEq, Repr

/-! ### Curator -/

/-- Page states (R177). -/
inductive PageSt where
  | free | live | copy
  deriving DecidableEq, Repr

/-- A page-table entry (R177). `copies` is the LINK chain of a LIVE page: its copies, the first one first. -/
structure Page where
  st     : PageSt := .free
  frame  : Nat := 0
  core   : Nat := 0
  refs   : Nat := 0
  full   : Bool := false
  gal    : Nat := 0
  copies : List Nat := []
  deriving DecidableEq, Repr

/-- A frame-table byte (R176); at the first enable after a reset every frame is FREE and clean (R180). -/
structure Frame where
  free    : Bool := true
  clean   : Bool := true
  lastGal : Nat := 0
  retired : Bool := false
  deriving DecidableEq, Repr

/-- A row block (R182): its first table line, its fill and its page numbers by slot. -/
structure Row where
  line  : Nat
  fill  : Nat
  pages : List Nat
  deriving DecidableEq, Repr

/-- A stream's map (R181). -/
structure KvMap where
  tokens  : Nat := 0
  slots   : Nat := 0
  kfmt    : Nat := 4
  vfmt    : Nat := 4
  hdim    : Nat := 4
  ptok    : Nat := 0
  pbase   : Nat := 0
  rowstep : Nat := 0
  place   : Nat := 0
  rows    : List Row := []
  forking : Nat := 0
  deriving DecidableEq, Repr

/-- A frame in limbo, or a row block of `lines` table lines from line `frame`, with the beat it was vacated (R179). -/
structure Limbo where
  core  : Nat := 0
  frame : Nat
  lines : Nat := 0
  beat  : Nat
  deriving DecidableEq, Repr

/-- A copy-on-write copy in progress (R187): the frame it reads, and the page that replaces its source's. -/
structure Cow where
  group  : Nat
  stream : Nat
  slot   : Nat
  pos    : Nat
  srcCore  : Nat
  srcFrame : Nat
  dst    : Nat
  write  : TokenWrite
  /-- The copy is complete; the step's ATTNs go on reading the source (R187). -/
  done   : Bool := false
  deriving DecidableEq, Repr

/-- A source page of a step's copies in the Curator's part of the staging buffer: data page and scale page (R188). -/
structure StagedPage where
  group  : Nat
  core   : Nat
  frame  : Nat
  data   : Bytes
  scales : Bytes
  poisoned : Bool
  deriving DecidableEq, Repr

/-- A FORK in progress (R190): T as taken at acceptance, and the tokens' source. -/
structure ForkRec where
  op     : Op
  child  : Nat
  parent : Nat
  t      : Nat
  /-- The key the FORK names for the child, leased at acceptance (R205, R228). -/
  key    : Option (BitVec 64) := none
  deriving DecidableEq, Repr

/-- A PAGE_MOVE in progress (R194). -/
structure MoveRec where
  op    : Op
  page  : Nat
  core  : Nat
  frame : Nat
  deriving DecidableEq, Repr

/-- The Curator. -/
structure Curator where
  pages   : Tbl Page := []
  frames  : Tbl Frame := []
  maps    : Tbl KvMap := []
  limbo   : List Limbo := []
  cows    : List Cow := []
  forks   : List ForkRec := []
  moves   : List MoveRec := []
  /-- Table lines that read lost, with whether by a storage error (R402). -/
  lost    : Tbl Bool := []
  lostCtx : Tbl Bool := []
  /-- Retired page numbers (R402). -/
  retired : List Nat := []
  /-- Source pages that copies of running steps still need (R188). -/
  staged  : List StagedPage := []
  /-- The list of FREE page numbers: those freed again, next one first, then all from `fresh` on (R177). -/
  freed   : List Nat := []
  fresh   : Nat := 0
  deriving DecidableEq, Repr

/-- The Docent. -/
structure Docent where
  ctxs    : Tbl Ctx := []
  appends : List AppendRec := []
  policies : List StreamCmd := []
  cancels : List StreamCmd := []
  releases : List StreamCmd := []
  progs   : Tbl Prog := []
  groups  : List LaneGroup := []
  cgroups : Tbl CGroup := []
  nextGroup : Nat := 0
  overcommit : Bool := false
  suspended : Bool := false
  /-- Streams whose step a thermal hold abandoned: INTERNAL NOTICEs owed on return (R474). -/
  owedNotices : List Nat := []
  deriving DecidableEq, Repr

/-! ### Host interface -/

/-- A submission ring's counts and flags (R235, R236, R246 to R251). -/
structure Ring where
  copyA   : Bool := false
  first   : Bool := false
  reflag  : Bool := false
  p0      : Word := 0
  c0      : Word := 0
  cw      : Word := 0
  fidx    : Word := 0
  halt    : Bool := false
  hcause  : Nat := 0
  /-- Consecutive polls that found the next entry's phase wrong (R251). -/
  phaseBad : Nat := 0
  /-- This poll's doorbell was torn once (R247). -/
  torn    : Bool := false
  /-- Illegal counts already reported (R248). -/
  badP    : List Word := []
  badC    : List Word := []
  /-- Ring interrupts: beats left in the coalescing interval, and records written in it (R260). -/
  intLeft : Nat := 0
  intPend : Bool := false
  /-- The interval has ended with records written in it: they are announced now (R260). -/
  intEnd  : Bool := false
  deriving DecidableEq, Repr

/-- A descriptor fetched in the running poll and not yet checked (steps 4 and 5 of R246). `late`: its phase was wrong at the fourth
poll (R251). -/
structure PollEntry where
  ring  : RingNo
  index : Word
  entry : Fetched
  late  : Bool
  deriving DecidableEq, Repr

/-- The poll that runs (R246): reads still awaited and what this poll has fetched. -/
structure Poll where
  summary   : Bool := false
  sep       : List Nat := []
  doorbells : List Nat := []
  descriptors : List (Nat × Nat) := []
  fetched   : List PollEntry := []
  pmax      : Nat := 0
  rmax      : Nat := 0
  consumers : List Nat := []
  incident  : Bool := false
  beat      : Nat := 0
  deriving DecidableEq, Repr

/-- The host interface: rings, the poll, the link and MSI-X. -/
structure HostIf where
  rings    : Tbl Ring := []
  /-- Descriptors fetched and not completed (R249), in order of acceptance. -/
  inflight : List Op := []
  /-- Accepted FENCEs that wait for earlier descriptors of their ring (R253). -/
  fences   : List Op := []
  poll     : Option Poll := none
  /-- Stream number at which the consumer-line reads resume (R258). -/
  consNext : Nat := 0
  linkWidth : Nat := 0
  linkRate : Nat := 0
  linkFlit : Bool := false
  /-- MSI-X table words that differ from their reset, by func * 2^20 + byte offset; pending bits likewise. -/
  msixTable : Tbl Word := []
  msixPend  : Tbl Bool := []
  /-- Answer-ring vectors that records of this beat name: func * 65536 + vector; their messages go out when the beat ends
  (R261). -/
  owedVecs  : List Nat := []
  /-- Galleries whose function-level reset runs (R263). -/
  inReset   : List Nat := []
  /-- Records owed at the first poll after a thermal hold (R474). -/
  owed      : List Op := []
  deriving DecidableEq, Repr

/-! ### DMA and objects -/

/-- One conversion or transfer unit in the staging buffer: its position in the output and its bytes. -/
structure Staged where
  ofs   : Nat
  data  : Bytes
  deriving DecidableEq, Repr

/-- A page record of a GATHER in flight: its number in walk order, how much of it is read, and the logical core and frame its page
was resolved to as the walk reached it (R192, R278). -/
structure GatherPage where
  ix    : Nat
  rd    : Nat := 0
  place : Option (Nat × Nat) := none
  deriving DecidableEq, Repr

/-- An accepted DMA operation (R267, R268). Window operations hold a DMA channel too (R392). -/
structure DmaOp where
  op      : Op
  /-- Beat in which it began (R179, R288). -/
  began   : Option Nat := none
  /-- GATHER: page records drawn, and those in flight (R278). -/
  drawn   : Nat := 0
  records : List GatherPage := []
  chan    : Option Nat := none
  /-- Its scratchpad ranges stand in the scoreboard, or need not (R289). -/
  issued  : Bool := false
  begun   : Bool := false
  /-- Next position to read, units staged oldest first, next position to write: a byte of the output, or a conversion
  unit of a T24_CONVERT (R268). -/
  rd      : Nat := 0
  staged  : List Staged := []
  wr      : Nat := 0
  /-- Key format, HDIM and page length of the stream a GATHER reads, as at its acceptance (R279). -/
  layout  : Nat × Nat × Nat := (4, 4, 0)
  /-- Vector bytes that wait in the arrival converter for the rest of their vector (R86). -/
  conv    : List Staged := []
  /-- No further unit will be read (R275, R283, R286). -/
  noMore  : Bool := false
  bytes   : Nat := 0
  zeroAt  : Option Nat := none
  status  : Status := .ok
  result  : BitVec 64 := 0
  /-- Window operations: OPID, packets or requests unanswered (offset, length, beat injected), bytes
  acknowledged, and runs received (R392, R395). -/
  opid    : Nat := 0
  flight  : List (Nat × Nat × Nat) := []
  acked   : Nat := 0
  got     : List (Nat × Nat) := []
  deriving DecidableEq, Repr

/-- A DMA_STOP that waits for the operations in its scope (R288). -/
structure StopRec where
  op    : Op
  scope : List Nat
  count : Nat
  deriving DecidableEq, Repr

/-- The DMA unit. -/
structure Dma where
  ops   : List DmaOp := []
  stops : List StopRec := []
  nextOpid : Nat := 0
  /-- Per class, the channel served last by the read and write engines (R270). -/
  lastRd : Tbl Nat := []
  lastWr : Tbl Nat := []
  /-- Channels whose units the four read engines and the four write engines have started (R270). -/
  rdEng  : List Nat := []
  wrEng  : List Nat := []
  deriving DecidableEq, Repr

/-- A device object (R324, R326, R328). -/
structure Obj where
  accessioned : Bool
  gal     : Nat
  panels  : Nat
  placed  : Bool
  cbase   : Nat
  ppc     : Nat
  t1ofs   : Nat
  pkind   : Nat := 0
  window  : Nat := 0
  device  : Nat := 0
  paddr   : Nat := 0
  gmask   : BitVec 64 := 0
  pins    : Nat := 0
  deriving DecidableEq, Repr

/-- Where a panel's home or resident copy lies, and what is under way with it (R335 to R339). `busy` is MOVING or
FETCHING with the target tier and frame. -/
structure Panel where
  tier    : Nat := 2
  frame   : Nat := 0
  busy    : Option (Nat × Nat) := none
  quar    : Bool := false
  failed  : Bool := false
  deriving DecidableEq, Repr

/-- A mapping of an object in a gallery's device address space (R324); `release` is the OBJ_RELEASE pending. -/
structure Mapping where
  gal     : Nat
  daddr   : Nat
  panels  : Nat
  obj     : Nat
  release : Option Op := none
  deriving DecidableEq, Repr

/-- A MIGRATE in progress, or the fill of an ACCESSION with FETCH (R333, R328). -/
structure Mig where
  op     : Op
  obj    : Nat
  first  : Nat
  count  : Nat
  target : Nat
  frames : List Nat
  /-- Panels not yet taken, panels moved, and the status so far. -/
  left   : List Nat := []
  moved  : Nat := 0
  status : Status := .ok
  deriving DecidableEq, Repr

/-- Stages of a repair (R421). -/
inductive RepairStage where
  | waiting | queued | reading | rewriting | readback | failed
  deriving DecidableEq, Repr

/-- A panel under repair by the Conservator (R421 to R424). -/
structure Repair where
  obj    : Nat
  panel  : Nat
  stage  : RepairStage
  tries  : Nat := 0
  data   : Bytes := []
  rows   : Nat := 0
  cols   : Nat := 0
  /-- Step-program chains to re-issue when the quarantine lifts (R420). -/
  retry  : List Op := []
  deriving DecidableEq, Repr

/-- What an object operation does once it has a channel (R325): complete with a result, move panels, or wait for a release. -/
inductive ObjKind where
  | done (result : Nat)
  | mig
  | release
  deriving DecidableEq, Repr

/-- An accepted object operation that waits for a channel. -/
structure ObjJob where
  op   : Op
  kind : ObjKind
  deriving DecidableEq, Repr

/-- Objects, tiers, the mover and the Conservator. -/
structure Tiers where
  objs    : Tbl Obj := []
  panels  : Tbl Panel := []
  maps    : List Mapping := []
  migs    : List Mig := []
  /-- Panels the mover has in flight: object, panel, operation (R340). -/
  moving  : List (Nat × Nat × Nat) := []
  /-- T0 frames in use: frame and the gallery charged. -/
  t0used  : List (Nat × Nat) := []
  repairs : List Repair := []
  /-- Write units that wait for a moving panel, in arrival order: object, panel, and the key of the writer, twice an operation's
  number or twice a window's plus 1 (R337). -/
  writeQ  : List (Nat × Nat × Nat) := []
  /-- Object operations that hold one of the four channels kept for them, and those that wait for one (R325). -/
  objRun  : List Nat := []
  objWait : List ObjJob := []
  deriving DecidableEq, Repr

/-! ### Fabric -/

/-- Port states (R349, R363). -/
inductive PortSt where
  | disabled | training | check | standby | up | down | miswired
  deriving DecidableEq, Repr

/-- A packet kept for replay (R347). -/
structure SentPacket where
  seq     : Nat
  hdr     : Line16
  payload : Bytes
  tries   : Nat
  deriving DecidableEq, Repr

/-- One Breosh port (R342 to R349). -/
structure Port where
  st       : PortSt := .disabled
  txSeq    : BitVec 12 := 0
  rxSeq    : BitVec 12 := 0xFFF
  nak      : Bool := false
  retry    : List SentPacket := []
  /-- Packets that wait for credits, oldest first. -/
  queue    : List (Line16 × Bytes) := []
  /-- Send credits per VL, in units of 32 B, and credits to return per VL (R347). -/
  credits  : List Nat := [128, 1024, 1024, 1024]
  owed     : List Nat := [0, 0, 0, 0]
  peerPort : Nat := 0
  peerId   : Nat := 0
  downFor  : Nat := 0
  /-- A LINK_RETURN has been raised for it (R352). -/
  returning : Option Nat := none
  deriving DecidableEq, Repr

/-- Beat unit states (R369). -/
inductive BeatSt where
  | off | root | seek | locked
  deriving DecidableEq, Repr

/-- What the beat unit keeps of one neighbour's sync words (R367, R368). -/
structure Peer where
  seen    : Bool := false
  beat    : Nat := 0
  atBeat  : Nat := 0
  stratum : Nat := 15
  parent  : Nat := 0
  root    : Nat := 0
  mapGen  : Nat := 0
  qDelta  : Nat := 0
  qMapGen : Nat := 0
  rx16    : Option Nat := none
  /-- Times of the last two sync words sent to it (R367). -/
  tx16    : Nat := 0
  txPrev  : Nat := 0
  theta   : Int := 0
  streak  : Nat := 0
  better  : Nat := 0
  deriving DecidableEq, Repr

/-- The beat unit (R369, R398). `cnt` is the number of the current beat while the unit runs, and of the next boundary
while it is OFF (R489). -/
structure BeatUnit where
  st      : BeatSt := .off
  cnt     : Nat := 0
  stratum : Nat := 15
  parent  : Nat := 63
  theta   : Int := 0
  rootId  : Nat := 0
  peers   : Tbl Peer := []
  /-- Beats since the parent's last sync word, while LOCKED (R369). -/
  silent  : Nat := 0
  /-- Move of the next boundary, in 1/16 ns (R370). -/
  steer   : Int := 0
  /-- Count the next boundary takes, once lock has been found (R369). -/
  next    : Option Nat := none
  /-- Lock has been lost, and why (R369). -/
  lossDue : Option BeatLossCause := none
  /-- First boundary taken since the unit started (R489). -/
  started : Bool := false
  deriving DecidableEq, Repr

/-- A notice waiting for its EFFECT beat (R375). -/
structure PendNotice where
  kind   : Nat
  origin : Nat
  effect : Nat
  port   : Nat
  planes : BitVec 8
  deriving DecidableEq, Repr

/-- A pending quiesce (R376) and the QUIESCE commands that complete at Q + 1 (R378). -/
structure PendQuiesce where
  q      : Nat
  mapGen : Nat
  ops    : List Op
  deriving DecidableEq, Repr

/-- A slot of a carousel map (R379). -/
structure CarSlot where
  start : Nat
  len   : Nat
  gidx  : Nat
  cap   : Nat
  deriving DecidableEq, Repr

/-- A group entry of a carousel map (R379). -/
structure CarGroup where
  group   : Nat
  g       : Nat
  rank    : Nat
  rarea   : Nat
  rcap    : Nat
  members : List Nat
  deriving DecidableEq, Repr

/-- A carousel map with its image, which measurement 6 covers (R379, R440). -/
structure CarMap where
  gen    : Nat
  slots  : List CarSlot
  groups : List CarGroup
  image  : Bytes
  deriving DecidableEq, Repr

/-- What has arrived of one rank's contribution to one occurrence of a group (R383, R384): byte runs with the order in
which each landed, whether a HOLE came, and whether the deadline passed. -/
structure Arrival where
  group : Nat
  beat  : Nat
  rank  : Nat
  runs  : List (Nat × Nat × Nat) := []
  hole  : Bool := false
  late  : Bool := false
  deriving DecidableEq, Repr

/-- A registered collective with its group entry (R381, R382). `own` is what went out for it: none before its slot, some true the
contribution, some false a hole. -/
structure CollRec where
  op    : Op
  group : CarGroup
  beat  : Nat
  own   : Option Bool := none
  noRoute : Bool := false
  unlocked : Bool := false
  deriving DecidableEq, Repr

/-- Window states (R390, R396). -/
inductive WinSt where
  | free | opened | closing
  deriving DecidableEq, Repr

/-- What the owner keeps of one remote operation (R394): packets and bytes accepted since its last ACK. -/
structure WinPeerOp where
  src   : Nat
  opid  : Nat
  packets : Nat
  bytes : Nat
  flow  : Nat
  deriving DecidableEq, Repr

/-- An accepted packet whose write waits for a scoreboard conflict or a moving panel (R391): its sender, operation, offset
and data. -/
structure HeldPut where
  src  : Nat
  opid : Nat
  flow : Nat
  ofs  : Nat
  data : Bytes
  deriving DecidableEq, Repr

/-- A remote window (R390). -/
structure Window where
  st      : WinSt := .free
  gen     : BitVec 16 := 0
  gal     : Nat := 0
  endpoint : Line16 := 0
  size    : Nat := 0
  perm    : Nat := 0
  peers   : List Word := []
  written : Nat := 0
  closeOp : Option Op := none
  closeBeat : Nat := 0
  acks    : List WinPeerOp := []
  held    : List HeldPut := []
  deriving DecidableEq, Repr

/-- Links, notices, carousel and windows. -/
structure Fabric where
  ports   : Tbl Port := []
  beat    : BeatUnit := {}
  /-- UP cabinet links in the link-state table: slot * 32 + port (R358). -/
  links   : Tbl Bool := []
  /-- Plane table: UP planes by device ID (R360). -/
  planes  : Tbl (BitVec 8) := []
  /-- Notices seen: origin, serial, beats it is still remembered (R374). -/
  seen    : List (Nat × Nat × Nat) := []
  serial  : Nat := 0
  pendNotices : List PendNotice := []
  quiesces : List PendQuiesce := []
  /-- MACsec: installed associations by plane * 2 + assoc; sending association per plane (R362). -/
  macsec  : Tbl (BitVec 256) := []
  macSend : Tbl Bool := []
  /-- Own ACTIVE and UP planes last announced (R375). -/
  announced : BitVec 8 := 0
  carMap  : Option CarMap := none
  carPend : Option CarMap := none
  /-- CAR_LOADs whose image is being read (R379). -/
  carLoads : List Op := []
  /-- No map of the parent's generation is loaded (R372). -/
  carWait : Option Nat := none
  colls   : List CollRec := []
  arrivals : List Arrival := []
  arrOrder : Nat := 0
  /-- Contribution of each group and beat sent, or holed (R382): group, beat, contribution sent. -/
  sentSlots : List (Nat × Nat × Bool) := []
  windows : Tbl Window := []
  deriving DecidableEq, Repr

/-! ### Incidents and the Catalogue -/

/-- An incident record in the fields of R404. -/
structure Incident where
  cls     : Nat := 0
  event   : Nat := 0
  status  : Status := .ok
  first   : Bool := false
  late    : Bool := false
  source  : Nat := 0
  count   : Nat := 0
  beat    : Nat := 0
  detail  : BitVec 64 := 0
  detail2 : Word := 0
  deriving DecidableEq, Repr

/-- Marks of a pending source (R408). -/
inductive PendMark where
  | none_ | rate | queue
  deriving DecidableEq, Repr

/-- One incident source's registers (R408). `window` is the window in which it was marked or last queued, `queued`
its records queued in that window. -/
structure Source where
  count  : Nat := 0
  first  : Option Incident := none
  last   : Option Incident := none
  firstWaits : Bool := false
  mark   : PendMark := .none_
  window : Nat := 0
  queued : Nat := 0
  markWindow : Nat := 0
  deriving DecidableEq, Repr

/-- The incident queue and ring (R407, R409, R410). -/
structure Ras where
  sources : Tbl Source := []
  queue   : List Incident := []
  w       : Word := 0
  cons    : Word := 0
  ovf     : Nat := 0
  intLeft : Nat := 0
  intPend : Bool := false
  intEnd  : Bool := false
  deriving DecidableEq, Repr

/-- One event ring (R456, R463): records oldest first, at most 64. -/
structure EvRing where
  widx : Nat := 0
  lost : Nat := 0
  recs : List Line16 := []
  deriving DecidableEq, Repr

/-- One function's snapshot (R453, R455): `latched` the counters taken at the boundary. -/
structure Snap where
  busy    : Bool := false
  wanted  : Bool := false
  seq     : BitVec 16 := 0
  beat    : Nat := 0
  latched : Option (Tbl Nat) := none
  deriving DecidableEq, Repr

/-- Trace states (R467). -/
inductive TraceSt where
  | idle | armed | triggered | stopped
  deriving DecidableEq, Repr

/-- The trace buffer's control (R467, R468, R471) and the records on their way to it, by FIFO: plinths 0 to 7,
hub 8 (R465). -/
structure Trace where
  st       : TraceSt := .idle
  wptr     : Nat := 0
  wrap     : Bool := false
  fullstop : Bool := false
  trigIdx  : Nat := 0
  drop     : Nat := 0
  retrig   : Nat := 0
  after    : Nat := 0
  gap      : Nat := 0
  fifos    : Tbl (List TraceRec) := []
  deriving DecidableEq, Repr

/-- A wait under way (R460): its unit, its cause and its operation's identity, and how many clk it lasts. -/
structure Wait where
  unit  : Nat
  cause : Nat
  ident : Nat
  clk   : Nat
  deriving DecidableEq, Repr

/-- An operation under way: the unit that runs it, its identity of R459, and the beat it started in (R458, R462). -/
structure Started where
  op       : Nat
  unit     : Nat
  identity : Nat
  beat     : Nat
  deriving DecidableEq, Repr

/-- The Catalogue (R451 to R471). -/
structure Catalogue where
  /-- Every counter of the Catalogue, by name, scope index and condition (Machine/Counters). -/
  counters : Tbl Nat := []
  rings    : Tbl EvRing := []
  waits    : List Wait := []
  /-- Operations under way, in the order they started (R462). -/
  started  : List Started := []
  frozen   : Bool := false
  fcause   : Nat := 0
  dumpBusy : Bool := false
  dumpFroze : Bool := false
  wdQuiet  : Bool := false
  /-- Beat the windows of R408 and R412 stand at: a boundary's number, one more at each local tick (R531); and the fence window
  the cores' fault counts belong to. -/
  wbeat    : Nat := 0
  fenceWin : Nat := 0
  snaps    : Tbl Snap := []
  trace    : Trace := {}
  deriving DecidableEq, Repr

/-! ### Security and management -/

/-- A directory copy in flash (R430). -/
structure DirCopy where
  valid  : Bool := true
  seq    : Word := 0
  active : Bool := false
  trial  : Bool := false
  tries  : Bool := false
  deriving DecidableEq, Repr

/-- A repair-record copy in flash (R479). -/
structure RepairRec where
  valid   : Bool := false
  seq     : Word := 0
  entries : List RepEntry := []
  deriving DecidableEq, Repr

/-- The boot flash as far as the device writes it (R429). It keeps its contents across every reset. -/
structure Flash where
  dir0    : DirCopy := {}
  dir1    : DirCopy := { valid := false }
  rep0    : RepairRec := {}
  rep1    : RepairRec := {}
  /-- RPMC counters 0 to 4, and whether its root key is programmed. -/
  rpmc    : List Nat := [0, 0, 0, 0, 0]
  rpmcKey : Bool := false
  /-- Owner certificate chain of slot 1 (R439). -/
  cert1   : Bytes := []
  /-- Bytes written to the firmware slots, by flash offset. -/
  slots   : List Host.Cell := []
  deriving DecidableEq, Repr

/-- Security states (R450). -/
inductive SecSt where
  | boot | run | fail
  deriving DecidableEq, Repr

/-- TDI states (R442). -/
inductive TdiSt where
  | unlocked | locked | run | error
  deriving DecidableEq, Repr

/-- An SPDM session (R439): whether it is open and its handshake complete, its transport, keys updated, and the unspent
nonce the device issued in it (R448). -/
structure Session where
  open_    : Bool := false
  secure   : Bool := false
  transport : Transport := .doe
  updates  : Nat := 0
  nonce    : Option Bytes := none
  deriving DecidableEq, Repr

/-- An IDE stream: 0 the link stream, 1 to 4 selective (R441). -/
structure IdeStream where
  keyed    : Bool := false
  insecure : Bool := false
  key      : BitVec 256 := 0
  vfs      : List Nat := []
  deriving DecidableEq, Repr

/-- The security processor and the management controller. -/
structure Security where
  st       : SecSt := .boot
  cause    : Nat := 0
  slot     : Bool := false
  trial    : Bool := false
  debug    : Bool := false
  image    : Option ImageInfo := none
  /-- The seed has been reconstructed and step 2 of start-up has ended (R434). -/
  seeded   : Bool := false
  /-- Key of the cores' generators, derived at start-up (R114). -/
  genKey   : Nat := 0
  tdis     : Tbl TdiSt := []
  sessions : Tbl Session := []
  /-- Per transport: version agreed, capabilities exchanged, algorithms negotiated. -/
  spdm     : Tbl Nat := []
  ides     : Tbl IdeStream := []
  /-- Commit string that last passed, for measurement 4 (R485). -/
  measured : List Word := []
  /-- PLDM update session: its number and transport (R436). -/
  update   : Option (Nat × Transport) := none
  /-- PLDM events that wait to be read: SMB_ALERT# (R526). -/
  events   : Nat := 0
  eid      : Nat := 0
  flash    : Flash := {}
  deriving DecidableEq, Repr

/-! ### The device -/

/-- Device states (R472). -/
inductive DevSt where
  | boot | train | test | hold | run
  deriving DecidableEq, Repr

/-- Whether the device is powered and clocked, held in reset by PWRGD (R519), or stopped by a lost SYSCLK (R524). -/
inductive PowerSt where
  | on | held | stopped
  deriving DecidableEq, Repr

/-- The first refused write held for a function (R10, R496, R503). -/
structure Werr where
  status : Status := .ok
  valid  : Bool := false
  ovf    : Bool := false
  func   : Nat := 0
  addr   : Nat := 0
  deriving DecidableEq, Repr

/-- Device control (R472 to R496). -/
structure Control where
  st       : DevSt := .boot
  power    : PowerSt := .on
  hcause   : Nat := 0
  /-- Committed values of the commit set (R484); none from reset until a commit passes. -/
  committed : Option (List Word) := none
  cLast    : BitVec 16 := 0
  cCause   : Nat := 0
  cBusy    : Bool := false
  cSeq     : BitVec 16 := 0
  cErr     : Nat := 0
  werr     : Tbl Werr := []
  bootStep : Nat := 0
  short    : BitVec 8 := 0
  cores    : Nat := 0
  channels : Nat := 0
  repRows  : Nat := 0
  repCols  : Nat := 0
  repSkip  : Nat := 0
  /-- A hold begins at the next boundary, or is under way, with its cause (R495, R488). -/
  holdReq  : Option Nat := none
  holding  : Option Nat := none
  /-- Latches of running register pairs, by function * 4 + pair (R500). -/
  latches  : Tbl (Option Word) := []
  strapPos : BitVec 7 := 0
  strapSmba : BitVec 3 := 0
  thermTrip : Bool := false
  /-- The carousel map or core pairings changed and the repair record is out of date (R481). -/
  repDirty : Bool := false
  deriving DecidableEq, Repr

/-- The whole machine. -/
structure State where
  /-- Commands that wait, first in first out. -/
  pending : List Instr := []
  /-- Register words as last written or set, by PF BAR0 byte offset; an unlisted offset holds its reset value. -/
  regs    : Tbl Word := []
  /-- RWS fields in force, where they differ from the written word (R8, R9). -/
  inForce : Tbl Word := []
  /-- VF snapshot address registers, by func * 2^20 + offset (R455, R502). -/
  vfRegs  : Tbl Word := []
  /-- Device memory: physical channels, scratchpads and hall buffer in one byte space (Machine/Memory). -/
  mem     : List Host.Cell := []
  /-- Stored check symbols of a channel burst, XOR the check symbols of its stored data, by burst (R309, R298). -/
  chk     : Tbl (BitVec 64) := []
  /-- SRAM words that hold a single-bit (false) or double-bit (true) error, by word (R84, R400). -/
  bad     : Tbl Bool := []
  ctl     : Control := {}
  hif     : HostIf := {}
  dma     : Dma := {}
  doc     : Docent := {}
  cur     : Curator := {}
  tiers   : Tiers := {}
  cores   : Tbl Core := []
  chans   : Tbl Chan := []
  plinths : Tbl Plinth := []
  fins    : Tbl Finisher := []
  /-- ROWID of the first tile of each output, by lane group plus 1 (0 for ring tiles) and DEST (R142). -/
  outBases : List (Nat × Nat × Nat) := []
  annex   : Annex := {}
  fab     : Fabric := {}
  ras     : Ras := {}
  cat     : Catalogue := {}
  sec     : Security := {}
  /-- Hub operations issued and not completed (R389). -/
  hubOps  : List Op := []
  /-- Number the next accepted operation takes. -/
  nextOp  : Nat := 0
  /-- The model's own field, not the manual's: how many free values have been drawn. -/
  free    : Nat := 0
  /-- What the device has sent out, oldest first. -/
  out     : List Out := []
  deriving DecidableEq, Repr

/-- The machine right after a device reset (R501): every field at the default written beside it. -/
def State.reset : State := {}

/-- Faults of the model: the manual leaves no step of the TK7 without an effect and names no access that stops the
device for good, so no meaning raises one. -/
inductive Fault where
  /-- Never raised; it stands so that the type is not empty. Safe. -/
  | unreachable
  deriving DecidableEq, Repr

/-- Refusals of the model. -/
inductive Refusal where
  /-- A command that has no meaning yet, by its mnemonic. Raised by Dispatch alone. Safe. -/
  | notModelled (mnemonic : String)
  deriving DecidableEq, Repr

end Sys2Proof.Machine
end

