-- ==== Sys2Proof/Machine/Flags.lean ====
section
/-! DEFINITION. Status codes and how they combine (R11, R12, R70, R533), saturation (R34) and mod-7 residues (R111). -/

namespace Sys2Proof.Machine

/-- The 8-bit code of a status (R11). -/
def Status.code : Status → Nat
  | .ok => 0x00 | .okSubstituted => 0x01
  | .badDescriptor => 0x10 | .badHandle => 0x11 | .quotaExceeded => 0x12 | .precisionMismatch => 0x13
  | .budgetExceeded => 0x14 | .genInUse => 0x15 | .lockedField => 0x16
  | .blockShort => 0x20 | .blockLong => 0x21 | .sparseDensity => 0x22 | .operandBound => 0x23 | .codeRange => 0x24
  | .weightUeRetry => 0x30 | .arrayUe => 0x31 | .residueFault => 0x32
  | .remoteWindowClosed => 0x40 | .linkDown => 0x41 | .slotMissed => 0x42 | .beatLost => 0x43
  | .stopped => 0x50 | .internal => 0x7F

/-- The higher-numbered of two statuses (R70). -/
def Status.max (a b : Status) : Status := if a.code ≤ b.code then b else a

/-- The highest-numbered of several statuses (R70). -/
def worst (l : List Status) : Status := l.foldl Status.max .ok

/-- A status, or OK where a condition does not hold. -/
def statusIf (c : Bool) (s : Status) : Status := if c then s else .ok

/-- Several refusals met by one request: BAD_DESCRIPTOR if any is, else the highest-numbered (R533). -/
def refusal (l : List Status) : Option Status :=
  if l.contains .badDescriptor then some .badDescriptor
  else match l.filter (fun s => s != .ok) with
    | [] => none
    | l => some (worst l)

/-- One refusal a check may give. -/
def check (bad : Bool) (s : Status) : List Status := if bad then [s] else []

/-- An integer held to the INT32 range (R34). -/
def sat32 (v : Int) : Int :=
  if v < -2147483648 then -2147483648 else if 2147483647 < v then 2147483647 else v

/-- Whether an integer lies outside the INT32 range (R34). -/
def over32 (v : Int) : Bool := decide (v < -2147483648) || decide (2147483647 < v)

/-- The residue of an integer mod 7, in 0 to 6 (R111). -/
def res7 (v : Int) : Nat := (v % 7).toNat

/-- The INT32 value of an accumulator entry. -/
def AccEntry.int (e : AccEntry) : Int := e.val.toInt

/-- Add to an accumulator entry: it saturates and never wraps, a saturated entry stays at its limit, and its residue
follows the exact value (R34, R111). -/
def AccEntry.add (e : AccEntry) (v : Int) : AccEntry :=
  if e.sat then e
  else
    let t := e.int + v
    { val := BitVec.ofInt 32 (sat32 t), res := (e.res + res7 v) % 7, sat := over32 t }

/-- The ×3 step (acc << 1) + acc of an entry (R104, R111). -/
def AccEntry.triple (e : AccEntry) : AccEntry :=
  if e.sat then e
  else { val := BitVec.ofInt 32 (sat32 (e.int * 3)), res := e.res * 3 % 7, sat := over32 (e.int * 3) }

/-- Whether the residue checker finds an entry faulty at drain: saturated entries are not compared (R112). -/
def AccEntry.faulty (e : AccEntry) : Bool := !e.sat && res7 e.int != e.res

end Sys2Proof.Machine
end

