-- ==== Sys2Proof/Machine/Expander.lean ====
section
/-! DEFINITION. The expander: slice headers, codebooks, block headers, T1.6, TVQ and T24 payloads, and what it does
with data that does not match its headers (chapter 3). A source of bytes answers none for a byte of a burst that
reads uncorrectable. -/

namespace Sys2Proof.Machine

/-- The eight or five trits of a base-3 value, trit 0 first (R26). -/
def tritsOf : Nat → Nat → List Int
  | 0, _ => []
  | n + 1, v => (if v % 3 = 1 then 1 else if v % 3 = 2 then -1 else 0) :: tritsOf n (v / 3)

/-- The five trits of a T1.6 byte, and whether it is in range (R27). -/
def t16Byte (v : Nat) : List Int × Bool := if v ≤ 242 then (tritsOf 5 v, true) else (List.replicate 5 0, false)

/-- The eight trits of an escape value, and whether it is in range (R28). -/
def escapeTrits (v : Nat) : List Int × Bool := if v ≤ 6560 then (tritsOf 8 v, true) else (List.replicate 8 0, false)

/-- The eight trits of a codebook entry, and whether no trit has both mask bits set (R28). -/
def entryTrits (e : Nat) : List Int × Bool :=
  ((List.range 8).map (fun i =>
      if bit e i && bit e (8 + i) then 0 else if bit e i then 1 else if bit e (8 + i) then -1 else 0),
    bits e 7 0 &&& bits e 15 8 == 0)

/-- The four weights of a T24 group, or none for an invalid group (R29, R30). -/
def t24Group (g : Nat) : Option (List Int) :=
  let trit (v : Nat) : Option Int := match v with | 0 => some 0 | 1 => some 1 | 3 => some (-1) | _ => none
  let at2 (i j : Nat) (a b : Int) : List Int :=
    (List.range 4).map (fun k => if k = i then a else if k = j then b else 0)
  match trit (bits g 4 3), trit (bits g 6 5) with
  | some a, some b =>
    match bits g 2 0 with
    | 0 => some (at2 0 1 a b) | 1 => some (at2 0 2 a b) | 2 => some (at2 0 3 a b)
    | 3 => some (at2 1 2 a b) | 4 => some (at2 1 3 a b) | 5 => some (at2 2 3 a b)
    | _ => none
  | _, _ => none

/-- The 32 weights of one 7 B T24 unit and how many groups were substituted (R29, R134); a group with a bit in a lost
byte is zero, as the trits of a lost T1.6 byte are (R71). -/
def t24Unit (u : Nat) (lost : List Nat) : List Int × Nat :=
  (List.range 8).foldl (fun acc g =>
    if lost.any (fun l => decide (7 * g / 8 ≤ l) && decide (l ≤ (7 * g + 6) / 8)) then (acc.1 ++ [0, 0, 0, 0], acc.2)
    else match t24Group (bits u (7 * g + 6) (7 * g)) with
      | some l => (acc.1 ++ l, acc.2)
      | none => (acc.1 ++ [0, 0, 0, 0], acc.2 + 1)) ([], 0)

/-- How a range of weight bytes stands to the repair of panels (R419, R420): free to read; in a panel, object and number,
that is quarantined; or with an uncorrectable burst in a panel that is quarantined for it. -/
inductive Reach where
  | free
  | shut (obj panel : Nat)
  | hurt (obj panel : Nat)
  deriving DecidableEq, Repr

/-- What one walk over blocks has met: counts of R70, the bursts that were uncorrectable, the first block with a
condition, as its header's address and the highest status it gave, and the panel in repair at which it broke off. -/
structure ExpCount where
  codeRange : Nat := 0
  short   : Nat := 0
  long    : Nat := 0
  blocks  : Nat := 0
  escapes : Nat := 0
  subst   : Nat := 0
  ue      : List Nat := []
  first   : Option (Nat × Status) := none
  cut     : Option (Nat × Nat) := none
  deriving DecidableEq, Repr

/-- Counts of two walks, one after the other. -/
def ExpCount.join (a b : ExpCount) : ExpCount :=
  { codeRange := a.codeRange + b.codeRange, short := a.short + b.short, long := a.long + b.long
    blocks := a.blocks + b.blocks, escapes := a.escapes + b.escapes, subst := a.subst + b.subst
    ue := a.ue ++ b.ue, first := match a.first with | none => b.first | some x => some x
    cut := match a.cut with | none => b.cut | some x => some x }

/-- The status of R70 that counts give: `ueSt` is the one uncorrectable bursts give (R71). -/
def ExpCount.status (c : ExpCount) (ueSt : Status) : Status :=
  worst [statusIf (c.codeRange != 0) .codeRange, statusIf (c.short != 0) .blockShort,
    statusIf (c.long != 0) .blockLong, statusIf (c.subst != 0) .okSubstituted, statusIf (!c.ue.isEmpty) ueSt]

/-- A run of bytes from a source: those read, or none with the addresses of lost bytes. -/
def readRun (rd : Nat → Option Byte) (a n : Nat) : Option Bytes :=
  (List.range n).foldr (fun i acc => match rd (a + i), acc with
    | some b, some t => some (b :: t)
    | _, _ => none) (some [])

/-- The first lost byte of a run. -/
def firstLost (rd : Nat → Option Byte) (a n : Nat) : Option Nat :=
  (List.range n).find? (fun i => (rd (a + i)).isNone)

/-- A run of bytes with lost ones as zero. -/
def readZ (rd : Nat → Option Byte) (a n : Nat) : Bytes := (List.range n).map (fun i => (rd (a + i)).getD 0)

/-- Load of a slice header and codebook (R60 to R62, R71, R72). -/
def loadSlice (rd : Nat → Option Byte) (a : Nat) : SliceInfo :=
  match readRun rd a 8 with
  | none => { lost := true }
  | some h =>
    let v := ofLE h
    let n := bits v 8 0
    let w := bits v 12 9
    if bits v 63 13 != 0 || 256 < n || (n != 0 && (w < 2 || 9 < w)) || (n != 0 && 2 ^ w - 1 < n) || (n == 0 && w != 0)
    then { bad := true }
    else match readRun rd (a + 8) (2 * n) with
      | none => { n := n, w := w, lost := true }
      | some b => { n := n, w := w, book := (List.range n).map (fun i => ofLE (slice b (2 * i) 2)) }

/-- Bytes a load of a slice reads: its header and codebook (R61, R73), the header alone of a slice whose header is invalid or
lost, and nothing of one in a quarantined panel (R420). -/
def SliceInfo.size (i : SliceInfo) : Nat :=
  if i.quar.isSome && !i.lost then 0 else if i.bad || i.n = 0 && i.lost then 8 else alignUp (8 + 2 * i.n) 8

/-- Load of a slice that may lie in a panel under repair (R71, R420). -/
def loadSliceAt (q : Nat → Nat → Reach) (rd : Nat → Option Byte) (a : Nat) : SliceInfo :=
  match q a 8 with
  | .shut o p => { quar := some (o, p) }
  | .hurt o p => { lost := true, quar := some (o, p) }
  | .free =>
    let i := loadSlice rd a
    if i.bad || i.n = 0 then i
    else match q a (alignUp (8 + 2 * i.n) 8) with
      | .shut o p => { quar := some (o, p) }
      | .hurt o p => { i with lost := true, quar := some (o, p) }
      | .free => i

/-- Lost bursts of a run that hold none of its first `n` bytes: an uncorrectable burst counts although no trit depends on it
(R71). -/
def lostBeyond (rd : Nat → Option Byte) (a n len : Nat) : List Nat :=
  match (List.range len).find? (fun i => decide (n ≤ i) && (rd (a + i)).isNone) with
  | none => []
  | some i => [a + i]

/-- TVQ decoding of a payload held as the number `p` with `tot` bits, of which those from `lim` on are lost
(R67, R69, R71): `k` vectors from bit `pos`. Vectors come last first; the last two results are the bit reached and
whether the walk stopped for want of bits (1) or at lost ones (2). DESIGN CHOICE: an escape code whose value the end of the
payload cuts off is not counted among the escapes (log 97). -/
def tvqVectors (i : SliceInfo) (p tot lim : Nat) : Nat → Nat → List (List Int) → ExpCount →
    List (List Int) × ExpCount × Nat × Nat
  | 0, pos, acc, c => (acc, c, pos, 0)
  | k + 1, pos, acc, c =>
    if lim < pos + i.w then (acc, c, pos, 2)
    else if tot < pos + i.w then (acc, c, pos, 1)
    else
      let code := bits p (pos + i.w - 1) pos
      if code = 2 ^ i.w - 1 then
        let pos' := pos + i.w + 13
        if lim < pos' then (acc, c, pos, 2)
        else if tot < pos' then (acc, c, pos, 1)
        else
          let e := escapeTrits (bits p (pos' - 1) (pos + i.w))
          tvqVectors i p tot lim k pos' (e.1 :: acc)
            { c with escapes := c.escapes + 1, codeRange := c.codeRange + (if e.2 then 0 else 1) }
      else if i.n ≤ code then
        tvqVectors i p tot lim k (pos + i.w) (List.replicate 8 0 :: acc) { c with codeRange := c.codeRange + 1 }
      else
        let e := entryTrits (i.book.getD code 0)
        tvqVectors i p tot lim k (pos + i.w) (e.1 :: acc)
          { c with codeRange := c.codeRange + (if e.2 then 0 else 1) }

/-- Trits of a TVQ payload of `len` bytes at `a` (R67, R69, R71). -/
def tvqBlock (i : SliceInfo) (rd : Nat → Option Byte) (a len elems : Nat) : List Int × ExpCount :=
  let p := ofLE (readZ rd a len)
  let lost := firstLost rd a len
  let lim := match lost with | none => 8 * len + 1000 | some l => 8 * l
  let r := tvqVectors i p (8 * len) lim (elems / 8) 0 [] {}
  let got := r.1.reverse.flatten
  let trits := got ++ List.replicate (elems - got.length) 0
  let c := r.2.1
  match r.2.2.2 with
  | 1 => (trits, { c with short := 1 })
  | 2 => (trits, { c with ue := match lost with | some l => [a + l] | none => [] })
  | _ =>
    let ue := match lost with | some l => [a + l] | none => []
    (trits, { c with long := if cdiv r.2.2.1 8 < len then 1 else 0, ue := ue })

/-- Trits of a T1.6 payload (R68, R69, R71). -/
def t16Block (rd : Nat → Option Byte) (a len elems : Nat) : List Int × ExpCount :=
  let r := (List.range len).foldl (fun (acc : List (List Int) × ExpCount) m =>
    match rd (a + m) with
    | none => (List.replicate 5 0 :: acc.1, { acc.2 with ue := acc.2.ue ++ [a + m] })
    | some b =>
      let t := t16Byte b.toNat
      (t.1 :: acc.1, { acc.2 with codeRange := acc.2.codeRange + (if t.2 then 0 else 1) })) ([], {})
  let got := (r.1.reverse.flatten).take elems
  let short := decide (got.length < elems)
  (got ++ List.replicate (elems - got.length) 0, { r.2 with short := if short then 1 else 0 })

/-- A block header in the fields of R64. -/
structure BlockHdr where
  elems : Nat
  fmt   : Nat
  plane : Nat
  len   : Nat
  seq   : Nat
  resv  : Bool
  deriving DecidableEq, Repr

/-- The fields of a block header (R64). -/
def blockHdr (v : Nat) : BlockHdr :=
  { elems := bits v 14 0, fmt := bits v 20 16, plane := bits v 26 24, len := bits v 47 32, seq := bits v 63 48
    resv := bit v 15 || bits v 23 21 != 0 || bits v 31 27 != 0 }

/-- Whether a block header is valid for a block expected to hold `elems` trits of plane `plane` under number `seq`, in
a tile whose descriptor's format allows TVQ blocks or not (R66). -/
def BlockHdr.valid (h : BlockHdr) (i : SliceInfo) (elems plane seq : Nat) (tvq : Bool) : Bool :=
  !h.resv && h.elems == elems && decide (h.fmt ≤ 1) && !(h.fmt == 1 && (i.n == 0 || !tvq)) && h.plane == plane &&
    decide (h.len ≤ cdiv h.elems 5) && h.seq == seq % 65536

/-- What the expander makes of one block: its trits, its counts, the bytes read from its header on, and whether the walk
goes on behind it. -/
structure BlockRead where
  trits : List Int
  count : ExpCount
  len   : Nat
  go    : Bool
  deriving DecidableEq, Repr

/-- Read one block of `n` trits whose header stands at `pos` (R64 to R71): an invalid or lost header ends the slice, and so does
a panel in repair (R420). -/
def readBlock (i : SliceInfo) (q : Nat → Nat → Reach) (rd : Nat → Option Byte) (plane : Nat) (tvq : Bool) (n pos seq : Nat) :
    BlockRead :=
  let none_ (c : ExpCount) (len : Nat) : BlockRead := { trits := List.replicate n 0, count := c, len := len, go := false }
  match q pos 8 with
  | .shut o p => none_ { cut := some (o, p) } 0
  | .hurt o p => none_ { cut := some (o, p), ue := [pos], blocks := 1 } 8
  | .free => match readRun rd pos 8 with
    | none => none_ { ue := [pos], blocks := 1 } 8
    | some hb =>
      let h := blockHdr (ofLE hb)
      let len := alignUp (8 + h.len) 8
      if !h.valid i n plane seq tvq then none_ { codeRange := 1, first := some (pos, .codeRange) } 8
      else match q pos len with
        | .shut o p => none_ { cut := some (o, p) } 8
        | .hurt o p => none_ { cut := some (o, p), ue := [pos], blocks := 1 } len
        | .free =>
          let b := if h.fmt = 1 then tvqBlock i rd (pos + 8) h.len n else t16Block rd (pos + 8) h.len n
          let c := { b.2 with blocks := 1, ue := b.2.ue ++ lostBeyond rd pos (8 + h.len) len }
          let st := worst [statusIf (c.codeRange != 0) .codeRange, statusIf (c.short != 0) .blockShort,
            statusIf (c.long != 0) .blockLong]
          { trits := b.1, count := { c with first := if st = Status.ok then none else some (pos, st) }, len := len, go := true }

/-- Walk over consecutive blocks of a slice, `sizes` giving the trits of each, `pos` its header's address: the trits
of each block, the counts, and the address ranges read (R65 to R71). Once a header is invalid or lost every later
block is zero; those behind a lost one count as blocks (log 87). -/
def walkBlocks (i : SliceInfo) (q : Nat → Nat → Reach) (rd : Nat → Option Byte) (plane : Nat) (tvq : Bool) :
    List Nat → Nat → Nat → List (List Int) × ExpCount × List (Nat × Nat)
  | [], _, _ => ([], {}, [])
  | n :: rest, pos, seq =>
    let b := readBlock i q rd plane tvq n pos seq
    if b.go then
      let t := walkBlocks i q rd plane tvq rest (pos + b.len) (seq + 1)
      (b.trits :: t.1, b.count.join t.2.1, (pos, b.len) :: t.2.2)
    else
      let more := if b.count.cut.isNone && !b.count.ue.isEmpty then rest.length else 0
      (b.trits :: rest.map (fun m => List.replicate m (0 : Int)), { b.count with blocks := b.count.blocks + more },
        if b.len = 0 then [] else [(pos, b.len)])

/-- Trits of the blocks the row of a tile takes: 16,384 to a block, the last one the remainder (R63). -/
def blockSizes (k : Nat) : List Nat :=
  List.replicate (k / 16384) 16384 ++ (if k % 16384 = 0 then [] else [k % 16384])

/-- What a slice that cannot be read gives in place of its blocks (R62, R71, R420): none if its blocks can be read. -/
def SliceInfo.instead (i : SliceInfo) (sliceAddr blocks : Nat) : Option ExpCount :=
  if i.quar.isSome then some { cut := i.quar }
  else if i.bad then some { codeRange := 1, first := some (sliceAddr, .codeRange) }
  else if i.lost then some { ue := [sliceAddr], blocks := blocks }
  else none

/-- What the expander gives for one plane of a blocked tile: per row its trits from k0 to k1 (R121). -/
def planeTrits (i : SliceInfo) (q : Nat → Nat → Reach) (rd : Nat → Option Byte) (sliceAddr first seq plane rows k : Nat)
    (tvq : Bool) : List (List Int) × ExpCount × List (Nat × Nat) :=
  let per := blockSizes k
  match i.instead sliceAddr (rows * per.length) with
  | some c => (List.replicate rows (List.replicate k 0), c, [])
  | none =>
    let r := walkBlocks i q rd plane tvq (List.replicate rows per).flatten first seq
    ((runsOf per.length rows r.1).map List.flatten, r.2.1, r.2.2)

/-- One row of T24 units from `a` on (R78, R121, R134): its weights, its counts and the bytes read, broken off at a panel in
repair (R420). -/
def t24Row (q : Nat → Nat → Reach) (rd : Nat → Option Byte) (a klen : Nat) : List Int × ExpCount × Nat :=
  (List.range klen).foldl (fun (acc : List Int × ExpCount × Nat) u =>
    let p := a + 7 * u
    let none_ (c : ExpCount) (n : Nat) : List Int × ExpCount × Nat :=
      (acc.1 ++ List.replicate 32 0, acc.2.1.join c, acc.2.2 + n)
    if acc.2.1.cut.isSome then none_ {} 0
    else match q p 7 with
      | .shut o n => none_ { cut := some (o, n) } 0
      | .hurt o n => none_ { cut := some (o, n), ue := [p] } 7
      | .free =>
        let lost := positions 7 (fun i => (rd (p + i)).isNone)
        let t := t24Unit (ofLE (readZ rd p 7)) lost
        (acc.1 ++ t.1, acc.2.1.join { subst := t.2, ue := lost.map (fun l => p + l) }, acc.2.2 + 7)) ([], {}, 0)

/-- T24 rows: row r at FIRST + 8 × STRIDE × r, from unit k0 / 32 on (R78, R121, R134); no row is read behind one that broke
off. -/
def t24Trits (q : Nat → Nat → Reach) (rd : Nat → Option Byte) (first stride rows k0 klen : Nat) :
    List (List Int) × ExpCount × List (Nat × Nat) :=
  (List.range rows).foldl (fun (acc : List (List Int) × ExpCount × List (Nat × Nat)) r =>
    let a := first + 8 * stride * r + 7 * (k0 / 32)
    if acc.2.1.cut.isSome then (acc.1 ++ [List.replicate (32 * klen) 0], acc.2.1, acc.2.2)
    else
      let w := t24Row q rd a klen
      (acc.1 ++ [w.1], acc.2.1.join w.2.1, acc.2.2 ++ (if w.2.2 = 0 then [] else [(a, w.2.2)]))) ([], {}, [])

/-- Bits set of a number, `n` bits. -/
def popcount : Nat → Nat → Nat
  | 0, _ => 0
  | n + 1, v => v % 2 + popcount n (v / 2)

/-- Plus and minus masks of a run of trits, trit i in bit i (R105). -/
def maskOf (p : Int → Bool) (t : List Int) : Nat := t.foldr (fun x acc => (if p x then 1 else 0) + 2 * acc) 0
def plusMask (t : List Int) : Nat := maskOf (fun x => x == 1) t
def minusMask (t : List Int) : Nat := maskOf (fun x => x == -1) t

/-- The 40 B mask record of one row and chunk (R105). -/
def maskRecord (t : List Int) : Bytes := toLE 20 (plusMask t) ++ toLE 20 (minusMask t)

end Sys2Proof.Machine
end

