-- ==== Sys2Proof/Config.lean ====
section
/-! DEFINITION. What the manual leaves free, and the published functions it names without giving their bodies. Each is
a constant without a body: nothing can be proved about its values, so every claim holds for all of them. -/

namespace Sys2Proof.Config

/-- The n-th free value drawn (State.free counts them): stochastic-rounding bits (R55) and every choice the manual leaves
open among several. -/
opaque freeNat : Nat → Nat

/-- The 64 bits of a core's generator: a keyed function of the device's key and of the counter formed from beat number,
logical core, generator and sequence number (R114). -/
opaque coreGenerator : Nat → Nat → Nat → Nat → Nat → BitVec 64

/-- The value the part takes within the bound R141 gives f of ACT and GLU, FARG 2 to 4, on an FP32 word. -/
opaque actFn : Nat → Word → Word

/-- The value the part takes within the bound R226 gives the sampler's exp2 of an FP32 word. -/
opaque exp2 : Word → Word

/-- The value the part takes within the bound R166 gives 2^(log / 1,024) of a sepia-mode log. -/
opaque sepiaLinear : Int → Word

/-- Whether RECOMPUTE takes the BF16 neighbour beyond the exact value, of y, μ and ℓ: no rounding is stated (R162). -/
opaque recomputeUp : Int → Int → Word → Bool

/-- The round function of the Feistel permutation F(K, GCTR), by round and key: it is not given (R227). -/
opaque feistelRound : Nat → BitVec 70 → BitVec 32 → BitVec 32

/-- SHA3-256, named by R432 and R440. -/
opaque sha3 : Bytes → BitVec 256

/-- A certificate chain, digest, signature, key exchange or capability block of the SPDM responder: the published
standard's content, by request and input (R439). -/
opaque spdmContent : Nat → Bytes → Bytes

/-- The vendor certificate chain of slot 0, installed at manufacturing (R439). -/
opaque vendorChain : Bytes

/-- SHA3-256 of the boot ROM, measurement 1 (R440): the manual prints no ROM. -/
opaque romDigest : BitVec 256

/-- A PLDM sensor answer other than the readings the state holds: voltages and currents (R526). -/
opaque sensorReading : Nat → Nat → Nat

end Sys2Proof.Config
end

