-- ==== Sys2Proof/Machine/Floats.lean ====
section
/-! DEFINITION. Floating-point values, exact arithmetic on them, and the rounding of results into FP32, BF16, FP16 and
the narrow formats (R35, R36, R37, R47, R52 to R56). -/

namespace Sys2Proof.Machine

/-- A floating-point value: NaN, an infinity, or ± m × 2^e held exactly. -/
inductive FVal where
  | nan
  | inf (neg : Bool)
  | num (neg : Bool) (m : Nat) (e : Int)
  deriving DecidableEq, Repr

/-- Zero. -/
def FVal.zero : FVal := .num false 0 0

/-- m × 2^e of a signed m. -/
def FVal.ofInt (m : Int) (e : Int) : FVal := .num (decide (m < 0)) m.natAbs e

/-- Whether a value is finite and not zero. -/
def FVal.nonzero : FVal → Bool
  | .num _ m _ => m != 0
  | _ => false

/-- The value times 2^k, exact. -/
def FVal.scale (v : FVal) (k : Int) : FVal :=
  match v with
  | .num n m e => .num n m (e + k)
  | v => v

/-- The value with its sign changed. -/
def FVal.neg : FVal → FVal
  | .nan => .nan
  | .inf n => .inf !n
  | .num n m e => .num (!n) m e

/-- The signed significand of a finite value at exponent `q ≤ e`. -/
def FVal.at_ (neg : Bool) (m : Nat) (e q : Int) : Int :=
  let k : Int := ((m * 2 ^ (e - q).toNat : Nat) : Int)
  if neg then -k else k

/-- m / 2^k rounded to nearest, ties to even (R36). -/
def rneShift (m k : Nat) : Nat :=
  let q := m / 2 ^ k
  let r := m % 2 ^ k
  if 2 * r < 2 ^ k then q else if 2 ^ k < 2 * r then q + 1 else if q % 2 = 1 then q + 1 else q

/-- m × 2^e as a multiple of 2^q, rounded to nearest even. -/
def rneAt (m : Nat) (e q : Int) : Nat :=
  if q ≤ e then m * 2 ^ (e - q).toNat else rneShift m (q - e).toNat

/-- Bits of an IEEE format of `eb` exponent and `mb` mantissa bits, less the sign, of m × 2^e rounded to nearest even;
a magnitude past the range gives the infinity (R36). -/
def packMag (eb mb : Nat) (m : Nat) (e : Int) : Nat :=
  if m = 0 then 0 else
    let bias : Int := (2 ^ (eb - 1) - 1 : Nat)
    let top := max (e + (log2 m : Int)) (1 - bias)
    let v := (top + bias - 1).toNat * 2 ^ mb + rneAt m e (top - mb)
    min v ((2 ^ eb - 1) * 2 ^ mb)

/-- A value in an IEEE format, every NaN as the quiet NaN (R36). -/
def packF (eb mb : Nat) (v : FVal) : Nat :=
  let infBits := (2 ^ eb - 1) * 2 ^ mb
  match v with
  | .nan => infBits + 2 ^ (mb - 1)
  | .inf n => (if n then 2 ^ (eb + mb) else 0) + infBits
  | .num n m e => (if n then 2 ^ (eb + mb) else 0) + packMag eb mb m e

/-- The value of the bits of an IEEE format. -/
def unpackF (eb mb : Nat) (b : Nat) : FVal :=
  let neg := bit b (eb + mb)
  let x := bits b (eb + mb - 1) mb
  let f := bits b (mb - 1) 0
  let bias : Int := (2 ^ (eb - 1) - 1 : Nat)
  if x = 2 ^ eb - 1 then (if f = 0 then .inf neg else .nan)
  else if x = 0 then .num neg f (1 - bias - mb)
  else .num neg (2 ^ mb + f) ((x : Int) - bias - mb)

/-- FP32, BF16 and FP16 (R36). -/
def f32 (v : FVal) : Word := BitVec.ofNat 32 (packF 8 23 v)
def ofF32 (w : Word) : FVal := unpackF 8 23 w.toNat
def bf16 (v : FVal) : BitVec 16 := BitVec.ofNat 16 (packF 8 7 v)
def ofBF16 (w : BitVec 16) : FVal := unpackF 8 7 w.toNat
def f16 (v : FVal) : BitVec 16 := BitVec.ofNat 16 (packF 5 10 v)
def ofF16 (w : BitVec 16) : FVal := unpackF 5 10 w.toNat

/-- The exact sum of two values; opposite infinities give NaN, and an exact zero is positive unless both are
negative. -/
def FVal.add (a b : FVal) : FVal :=
  match a, b with
  | .nan, _ | _, .nan => .nan
  | .inf x, .inf y => if x = y then .inf x else .nan
  | .inf x, _ => .inf x
  | _, .inf y => .inf y
  | .num n m e, .num n' m' e' =>
    let q := min e e'
    let s := FVal.at_ n m e q + FVal.at_ n' m' e' q
    .num (if s = 0 then n && n' else decide (s < 0)) s.natAbs q

/-- The exact product of two values. -/
def FVal.mul (a b : FVal) : FVal :=
  match a, b with
  | .nan, _ | _, .nan => .nan
  | .inf x, .inf y => .inf (x != y)
  | .inf x, .num n m _ => if m = 0 then .nan else .inf (x != n)
  | .num n m _, .inf y => if m = 0 then .nan else .inf (n != y)
  | .num n m e, .num n' m' e' => .num (n != n') (m * m') (e + e')

/-- The quotient of two values, held to 64 bits and a sticky bit, so that one rounding of it to 24 bits or fewer is
the correct rounding (R161). -/
def FVal.div (a b : FVal) : FVal :=
  match a, b with
  | .nan, _ | _, .nan => .nan
  | .inf _, .inf _ => .nan
  | .inf x, .num n _ _ => .inf (x != n)
  | .num n _ _, .inf y => .num (n != y) 0 0
  | .num n m e, .num n' m' e' =>
    if m' = 0 then (if m = 0 then .nan else .inf (n != n'))
    else
      let k := 64 + log2 m' - min (log2 m) (64 + log2 m')
      let q := m * 2 ^ k / m'
      let r := if m * 2 ^ k % m' = 0 then 0 else 1
      .num (n != n') (2 * q + r) (e - e' - k - 1)

/-- The square root of a number, rounded down, bit by bit from bit `n`. -/
def isqrt (v : Nat) : Nat → Nat → Nat
  | 0, r => if (r + 1) * (r + 1) ≤ v then r + 1 else r
  | n + 1, r =>
    let t := r + 2 ^ (n + 1)
    isqrt v n (if t * t ≤ v then t else r)

/-- The square root of a value, to 60 bits and a sticky bit; NaN below zero. -/
def FVal.sqrt (a : FVal) : FVal :=
  match a with
  | .nan => .nan
  | .inf n => if n then .nan else .inf false
  | .num n m e =>
    if m = 0 then .num n 0 0
    else if n then .nan
    else
      let k := 120 - min (log2 m) 120
      let k := if (e - k) % 2 = 0 then k else k + 1
      let v := m * 2 ^ k
      let r := isqrt v (log2 v / 2 + 1) 0
      .num false (2 * r + (if r * r = v then 0 else 1)) ((e - k) / 2 - 1)

/-- Sums, products and quotients rounded to FP32 (R36). -/
def f32add (a b : Word) : Word := f32 (FVal.add (ofF32 a) (ofF32 b))
def f32mul (a b : Word) : Word := f32 (FVal.mul (ofF32 a) (ofF32 b))
def f32div (a b : Word) : Word := f32 (FVal.div (ofF32 a) (ofF32 b))

/-- a ≤ b of finite values or infinities; false if either is NaN. -/
def FVal.le (a b : FVal) : Bool :=
  match a, b with
  | .nan, _ | _, .nan => false
  | .inf x, .inf y => x || !y
  | .inf x, _ => x
  | _, .inf y => !y
  | .num n m e, .num n' m' e' =>
    decide (FVal.at_ n m e (min e e') ≤ FVal.at_ n' m' e' (min e e'))

/-- a < b. -/
def FVal.lt (a b : FVal) : Bool := FVal.le a b && !FVal.le b a

/-- The magnitude of a value. -/
def FVal.abs : FVal → FVal
  | .nan => .nan
  | .inf _ => .inf false
  | .num _ m e => .num false m e

/-! ### Elements of the narrow formats -/

/-- Doubled value of an FP4 code: 0, ±1, ±2, ±3, ±4, ±6, ±8 or ±12 (R35). -/
def fp4Doubled (c : Nat) : Int :=
  let m := [0, 1, 2, 3, 4, 6, 8, 12].getD (c % 8) 0
  if bit c 3 then -(m : Int) else m

/-- T[f] of the fraction table (R44). -/
def fracTable : List Nat :=
  [2048, 2139, 2233, 2332, 2435, 2543, 2656, 2774, 2896, 3025, 3158, 3298, 3444, 3597, 3756, 3922]

/-- A log of L sixteenths of an octave in linear form, T[f] × 2^(i − 11), with its sign (R44). -/
def lnsLinear (neg : Bool) (l : Int) : FVal := .num neg (fracTable.getD (l % 16).toNat 0) (l / 16 - 11)

/-- round(16 log₂ (m × 2^e)) of m ≠ 0, to nearest; no tie can arise (R43). -/
def logSixteenths (m : Nat) (e : Int) : Int := 16 * e + ((log2 (m ^ 32) + 1) / 2 : Nat)

/-- LNS8 magnitude code of an integer: 15 + round(16 log₂ |v|), 0 for 0 (R43). -/
def lns8Mag (v : Int) : Nat := if v = 0 then 0 else 15 + (log2 (v.natAbs ^ 32) + 1) / 2

/-- Value of an element of the format of code `fmt` (R25, R32, R35, R40 to R42), before any block scale. DEDUCED: a
logarithmic element is read in the linear form R44 gives its log (log 92). -/
def elemVal (fmt c : Nat) : FVal :=
  match fmt with
  | 0x04 => .ofInt (signed 4 c) 0
  | 0x05 => .ofInt (signed 8 c) 0
  | 0x06 => .ofInt (signed 16 c) 0
  | 0x07 => .num (bit c 3) (fp4Doubled (c % 8)).natAbs (-1)
  | 0x08 =>
    if c % 128 = 127 then .nan
    else if bits c 6 3 = 0 then .num (bit c 7) (c % 8) (-9)
    else .num (bit c 7) (8 + c % 8) ((bits c 6 3 : Int) - 10)
  | 0x09 => unpackF 5 2 c
  | 0x0A => .ofInt (signed 32 c) 0
  | 0x0B => unpackF 5 10 c
  | 0x0C => unpackF 8 7 c
  | 0x0D => unpackF 8 23 c
  | 0x0F => if c % 16 = 0 then .zero else lnsLinear false (8 * ((c % 16 : Nat) - 15))
  | 0x10 => if c % 128 = 0 then .zero else lnsLinear (bit c 7) ((c % 128 : Nat) - 15)
  | 0x11 => if c % 2 ^ 15 = 0x4000 then .zero else lnsLinear (bit c 15) (signed 15 c)
  | _ => .zero

/-- Bits of one element of a format; 0 for a format without a fixed width (R25). -/
def elemBits (fmt : Nat) : Nat :=
  match fmt with
  | 0x04 | 0x07 | 0x0F => 4
  | 0x05 | 0x08 | 0x09 | 0x0E | 0x10 => 8
  | 0x06 | 0x0B | 0x0C | 0x11 => 16
  | 0x0A | 0x0D => 32
  | _ => 0

/-- Whether elements of a format carry UE8 block scales when a finisher, the reduction engine or a page writes them. -/
def scaledFmt (fmt : Nat) : Bool := [0x04, 0x05, 0x06, 0x07, 0x08, 0x09].contains fmt

/-- M of R53 as a value. DESIGN CHOICE: R53 gives no M for INT16 and R52 no rounding to it; M is 32,767 and the rounding is
to nearest, ties to even (log 93). -/
def fmtMax (fmt : Nat) : FVal :=
  match fmt with
  | 0x04 => .ofInt 7 0
  | 0x05 => .ofInt 127 0
  | 0x06 => .ofInt 32767 0
  | 0x07 => .ofInt 6 0
  | 0x08 => .ofInt 448 0
  | _ => .ofInt 57344 0

/-- The code of ±M of a format. -/
def fmtMaxCode (fmt : Nat) (neg : Bool) : Nat :=
  match fmt with
  | 0x04 => if neg then 9 else 7
  | 0x05 => if neg then 0x81 else 0x7F
  | 0x06 => if neg then 0x8001 else 0x7FFF
  | 0x07 => if neg then 15 else 7
  | 0x08 => if neg then 0xFE else 0x7E
  | _ => if neg then 0xFB else 0x7B

/-- Smallest integer s with |v| ≤ M × 2^s, for finite v ≠ 0 (R53). -/
def leastShift (fmt : Nat) (v : FVal) : Int :=
  match v, fmtMax fmt with
  | .num _ m e, .num _ mm me =>
    let s : Int := e + log2 m - (me + log2 mm) - 1
    if FVal.le v.abs (.num false mm (me + s)) then s
    else if FVal.le v.abs (.num false mm (me + s + 1)) then s + 1
    else s + 2
  | _, _ => 0

/-- Stochastic rounding of ± m × 2^e to a multiple of 2^q with the random number `rnd` (R54): the number used is as
wide as the discarded fraction, up to 32 bits. -/
def stochasticAt (neg : Bool) (m : Nat) (e q : Int) (rnd : Nat) : Int :=
  if q ≤ e then FVal.at_ neg m e q
  else
    let k := (q - e).toNat
    let v : Int := FVal.at_ neg m e e
    let lo := v / ((2 ^ k : Nat) : Int)
    let frac := (v % ((2 ^ k : Nat) : Int)).toNat
    let w := min k 32
    if rnd % 2 ^ w < frac / 2 ^ (k - w) then lo + 1 else lo

/-- An integer of −12 to 12 on the doubled FP4 grid as its code. -/
def fp4Code (d : Int) : Nat :=
  let m := ([0, 1, 2, 3, 4, 4, 5, 5, 6, 6, 6, 6, 7].getD d.natAbs 7)
  if d < 0 then 8 + m else m

/-- One element of a narrow format of x, already divided by its scale, with the random number `rnd` for the formats
that round stochastically (R52 to R54, R37). A magnitude past M clamps to ±M. -/
def narrowElem (fmt : Nat) (x : FVal) (rnd : Nat) : Nat :=
  match x with
  | .nan => 0
  | .inf n => fmtMaxCode fmt n
  | .num n m e =>
    if !FVal.le x.abs (fmtMax fmt) then fmtMaxCode fmt n
    else match fmt with
      | 0x04 => twos 4 (stochasticAt n m e 0 rnd)
      | 0x05 => twos 8 (let k : Int := rneAt m e 0; if n then -k else k)
      | 0x06 => twos 16 (let k : Int := rneAt m e 0; if n then -k else k)
      | 0x07 =>
        let a := FVal.num false m (e + 1)
        let q : Int := if FVal.le a (.ofInt 4 0) then 0 else if FVal.le a (.ofInt 8 0) then 1 else 2
        fp4Code (stochasticAt n m (e + 1) q rnd * ((2 ^ q.toNat : Nat) : Int))
      | 0x08 =>
        let top := max (e + (log2 m : Int)) (-6)
        let v := if m = 0 then 0 else (top + 6).toNat * 8 + rneAt m e (top - 3)
        (if n then 128 else 0) + min v 0x7E
      | _ => (if n then 128 else 0) + min (packMag 5 2 m e) 0x7B

/-- Whether a narrow code is a zero element. -/
def zeroCode (fmt c : Nat) : Bool := (elemVal fmt c) == .num false 0 0 || match elemVal fmt c with
  | .num _ m _ => m == 0
  | _ => false

/-- What narrowing a block gives: its scale, its codes, scale clamps and non-finite elements counted (R37, R53). -/
structure Narrowed where
  scale : Nat
  codes : List Nat
  clamps : Nat
  nonfinite : Nat
  deriving DecidableEq, Repr

/-- s + E_src of R53 over the values a scope covers. -/
def narrowShift (fmt : Nat) (esrc : Int) (xs : List FVal) : Int :=
  match xs.filter FVal.nonzero with
  | [] => esrc
  | x :: t => t.foldl (fun s y => max s (leastShift fmt y)) (leastShift fmt x)

/-- Narrow one block at the shift its scope chose (R53); element k rounds with free value `fr + k`. DESIGN CHOICE: a clamp
of the scale counts although the block is then written with 0xFF (log 94). -/
def narrowBlock (fmt : Nat) (s : Int) (xs : List FVal) (fr : Nat) : Narrowed :=
  let e0 := 127 + s
  let e : Int := if 254 < e0 then 254 else if e0 < 0 then 0 else e0
  let codes := (xs.zip (List.range xs.length)).map
    (fun p => narrowElem fmt (p.1.scale (127 - e)) (Config.freeNat (fr + p.2)))
  let zero := codes.all (zeroCode fmt)
  { scale := if zero then 0xFF else e.toNat
    codes := codes
    clamps := if e0 = e then 0 else 1
    nonfinite := (xs.filter (fun x => match x with | .num _ _ _ => false | _ => true)).length }

/-! ### Logarithmic formats (R40 to R43, R56) -/

/-- The value of LNS4 code c times 2^80, 0 for code 0 (R40). -/
def lns4Scaled (c : Nat) : Nat :=
  if c = 0 then 0 else if c % 2 = 1 then 2 ^ (80 - (15 - c) / 2) else powTwo 512 * 2 ^ 16 / 2 ^ ((16 - c) / 2)

/-- A probability p × 2^−80 as LNS4: one of its two neighbours, drawn with a 32-bit number (R54, R56). -/
def lns4Draw (p rnd : Nat) : Nat :=
  let c := ((List.range 15).filter (fun c => decide (lns4Scaled (c + 1) ≤ p))).length
  let a := lns4Scaled c
  if p = a ∨ 15 ≤ c then c
  else if rnd % 2 ^ 32 * (lns4Scaled (c + 1) - a) < (p - a) * 2 ^ 32 then c + 1 else c

/-- A logarithmic format (R40 to R42). -/
def lnsFmt (fmt : Nat) : Bool := decide (0x0F ≤ fmt) && decide (fmt ≤ 0x11)

/-- The code of a value in a logarithmic format: LNS4 is drawn (R56), LNS8 and LNS16 take the nearest log (R43); NaN gives
0 and an infinity the largest magnitude (R37). DESIGN CHOICE: no rule states the code of a value outside [0, 1] in LNS4 or
of a magnitude outside its codes in LNS8; there the code is a free value, and an LNS4 infinity has no sign (log 92). -/
def lnsCode (fmt : Nat) (x : FVal) (rnd : Nat) : Nat :=
  match fmt, x with
  | 0x0F, .nan => 0
  | 0x0F, .inf _ => 15
  | 0x0F, .num n m e =>
    if m = 0 then 0
    else if n || !FVal.le (.num false m e) (.num false 1 0) then rnd % 16
    else lns4Draw (if 0 ≤ e + 80 then m * 2 ^ (e + 80).toNat else m / 2 ^ (-(e + 80)).toNat) rnd
  | 0x10, .nan => 0
  | 0x10, .inf n => (if n then 128 else 0) + 127
  | 0x10, .num n m e =>
    let l := 15 + logSixteenths m e
    if m = 0 then 0 else if 1 ≤ l ∧ l ≤ 127 then (if n then 128 else 0) + l.toNat else rnd % 256
  | _, .nan => 0x4000
  | _, .inf n => (if n then 2 ^ 15 else 0) + 0x3FFF
  | _, .num n m e =>
    let l := logSixteenths m e
    if m = 0 then 0x4000 else if l.natAbs < 2 ^ 14 then (if n then 2 ^ 15 else 0) + twos 15 l else rnd % 65536

/-! ### Functions given to within a bound (R141, R162, R166, R226) -/

/-- 2^x of a value, rounded down at 2^−32 of an octave. -/
def FVal.exp2 (x : FVal) : FVal :=
  match x with
  | .nan => .nan
  | .inf n => if n then .zero else .inf false
  | .num n m e =>
    if m ≠ 0 ∧ 12 < e + (log2 m : Int) then (if n then .zero else .inf false)
    else
      let k : Int := if 0 ≤ e + 32 then ((m * 2 ^ (e + 32).toNat : Nat) : Int) else ((m / 2 ^ (-(e + 32)).toNat : Nat) : Int)
      let f : Int := if n then -k else k
      .num false (powFrac 32 (f % (2 ^ 32 : Nat)).toNat) (f / ((2 ^ 32 : Nat) : Int) - 64)

/-- A word within a relative 2^−k of a reference: the one proposed if it lies there, else the reference rounded. -/
def withinOf (k : Nat) (ref : FVal) (w : Word) : Word :=
  if FVal.le (FVal.add (ofF32 w) ref.neg).abs (ref.abs.scale (-(k : Int))) then w else f32 ref

/-- log₂ e, 2 √(2/π) log₂ e and the 0.044715 of the tanh form, each × 2^96. -/
def log2e : FVal := .num false 114302077158074026402637675936 (-96)
def geluSlope : FVal := .num false 182399725264250245718049872408 (-96)
def geluCube : FVal := .num false 3542687286825329855495317739 (-96)

/-- x / (1 + 2^−t): SiLU with t = x log₂ e, GELU in its tanh form with t = 2 √(2/π) (x + 0.044715 x³) log₂ e (R141). -/
def gated (x t : FVal) : FVal :=
  if x = .inf true then .zero else FVal.div x (FVal.add (.num false 1 0) (FVal.exp2 t.neg))

/-- The exact f of ACT and GLU, FARG 2 to 4, that its FP32 value lies within 2⁻¹⁶ of (R141). -/
def actExact (farg : Nat) (x : FVal) : FVal :=
  match farg with
  | 2 => match x with
    | .num true _ _ => .zero
    | .inf true => .zero
    | x => FVal.mul x x
  | 3 => gated x (FVal.mul x log2e)
  | _ => gated x (FVal.mul geluSlope (FVal.add x (FVal.mul geluCube (FVal.mul x (FVal.mul x x)))))

/-- Pack codes of a format, element 0 in the lowest bits (R32). -/
def packElems (fmt : Nat) : List Nat → Bytes
  | [] => []
  | c :: t =>
    match elemBits fmt with
    | 4 => match t with
      | [] => [BitVec.ofNat 8 (c % 16)]
      | c' :: t' => BitVec.ofNat 8 (c % 16 + 16 * (c' % 16)) :: packElems fmt t'
    | w => toLE (w / 8) c ++ packElems fmt t

/-- Code of element `k` of packed elements (R32). -/
def elemAt (fmt : Nat) (b : Bytes) (k : Nat) : Nat :=
  match elemBits fmt with
  | 4 => bits ((b.getD (k / 2) 0).toNat) (4 * (k % 2) + 3) (4 * (k % 2))
  | w => ofLE (slice b (k * (w / 8)) (w / 8))

/-- Value of element `k` under a UE8 scale byte: 0xFF reads as zero (R38). -/
def scaledVal (fmt : Nat) (b : Bytes) (k scale : Nat) : FVal :=
  if scale = 255 then .zero else (elemVal fmt (elemAt fmt b k)).scale ((scale : Int) - 127)

end Sys2Proof.Machine
end

