-- ==== Sys2Proof/Machine/Tbl.lean ====
section
/-! DEFINITION. Reading and writing keyed tables in their canonical form: keys strictly rising, and no entry equal to
what an unlisted key holds. -/

namespace Sys2Proof.Machine

variable {α : Type}

/-- The entry listed under a key. -/
def Tbl.find : Tbl α → Nat → Option α
  | [], _ => none
  | (k', v) :: t, k => if k' = k then some v else Tbl.find t k

/-- The value under a key: the listed one, or `d` for an unlisted key. -/
def Tbl.look (t : Tbl α) (k : Nat) (d : α) : α := (t.find k).getD d

/-- Put a value under a key, in key order, replacing what is listed there. -/
def Tbl.insert : Tbl α → Nat → α → Tbl α
  | [], k, v => [(k, v)]
  | (k', v') :: t, k, v =>
    if k < k' then (k, v) :: (k', v') :: t
    else if k = k' then (k, v) :: t
    else (k', v') :: Tbl.insert t k v

/-- Drop a key. -/
def Tbl.erase (t : Tbl α) (k : Nat) : Tbl α := t.filter (fun e => decide (e.1 ≠ k))

/-- Write a value under a key: writing what an unlisted key holds removes the entry. -/
def Tbl.put [DecidableEq α] (t : Tbl α) (k : Nat) (v d : α) : Tbl α :=
  if v = d then t.erase k else t.insert k v

/-- Every key of the table lies above `n` and keys rise strictly. -/
def Tbl.above : Tbl α → Nat → Bool
  | [], _ => true
  | (k, _) :: t, n => decide (n < k) && Tbl.above t k

/-- Keys rise strictly. -/
def Tbl.sorted : Tbl α → Bool
  | [] => true
  | (k, _) :: t => Tbl.above t k

/-- The canonical form over an unlisted value that may depend on the key. -/
def Tbl.wf [DecidableEq α] (d : Nat → α) (t : Tbl α) : Bool :=
  Tbl.sorted t && t.all fun e => decide (e.2 ≠ d e.1)

end Sys2Proof.Machine
end

