-- ==== Sys2Proof/Machine/Array.lean ====
section
/-! DEFINITION. Activations in operand form, the popcount array's sums, block-sparse sums and the annex's sums
(R45 to R50, R85, R101 to R104, R122 to R125, R135 to R138). -/

namespace Sys2Proof.Machine

/-! ### Operand form -/

/-- Lanes of a tile and operand planes of an activation format of the cores (R45). -/
def laneCount (fmt : Nat) : Nat := if fmt = 4 ∨ fmt = 7 then 128 else 64
def planeCount (fmt : Nat) : Nat := match fmt with | 4 => 4 | 7 => 5 | 6 => 16 | _ => 8

/-- Bytes of a chunk slot in operand form (R85). -/
def slotBytes (fmt : Nat) : Nat := 20 * planeCount fmt * laneCount fmt + 5 * laneCount fmt

/-- Whether a format is one the cores take as activations (R45). -/
def coreAct (fmt : Nat) : Bool := decide (4 ≤ fmt) && decide (fmt ≤ 9)

/-- Bytes of a vector of K positions in operand form with its header (R86). -/
def operandBytes (fmt k : Nat) : Nat := 256 + cdiv k 160 * slotBytes fmt

/-- Significand, exponent and sign of an FP8 element, or none for NaN and Inf (R47). -/
def fp8Parts (fmt c : Nat) : Option (Bool × Nat × Int) :=
  if fmt = 8 then
    if c % 128 = 127 then none
    else
      let x := bits c 6 3
      some (bit c 7, if x = 0 then c % 8 else 8 + c % 8, (max x 1 : Int) - 10)
  else
    let x := bits c 6 2
    if x = 31 then none
    else some (bit c 7, if x = 0 then c % 4 else 4 + c % 4, (max x 1 : Int) - 17)

/-- A block in operand form: its operands, its exponent (none for a zero block) and the non-finite elements that
entered as 0 (R37, R46, R47). -/
structure OpBlock where
  c   : List Int
  e   : Option Int
  nonfinite : Nat
  deriving DecidableEq, Repr

/-- Conversion of one block on arrival (R46, R47). -/
def toOperand (fmt : Nat) (codes : List Nat) (scale : Nat) : OpBlock :=
  if scale = 255 then { c := codes.map (fun _ => 0), e := none, nonfinite := 0 }
  else match fmt with
    | 4 => { c := codes.map (signed 4), e := some (scale - 127), nonfinite := 0 }
    | 5 => { c := codes.map (signed 8), e := some (scale - 127), nonfinite := 0 }
    | 6 => { c := codes.map (signed 16), e := some (scale - 127), nonfinite := 0 }
    | 7 => { c := codes.map fp4Doubled, e := some (scale - 128), nonfinite := 0 }
    | _ =>
      let ps := codes.map (fp8Parts fmt)
      let gs := ps.filterMap (fun p => p.map (fun q => q.2.2))
      let nf := (ps.filter Option.isNone).length
      match gs with
      | [] => { c := codes.map (fun _ => 0), e := none, nonfinite := nf }
      | g :: t =>
        let big := t.foldl max g
        let h : Int := if fmt = 8 then 3 else 4
        { c := ps.map (fun p => match p with
            | none => 0
            | some q =>
              let m : Int := ashift q.2.1 (q.2.2 - big + h)
              if q.1 then -m else m)
          e := some (big - h + scale - 127), nonfinite := nf }

/-- The exponent offset byte of a block against its lane's E_max, and whether it clamped to a zero block (R85). -/
def offsetByte (emax : Int) (e : Option Int) : Nat × Bool :=
  match e with
  | none => (255, false)
  | some e => if emax - e < 0 ∨ 254 < emax - e then (255, true) else ((emax - e).toNat, false)

/-- E_max of a lane as its header bytes hold it (R48): none for 0x8000. -/
def laneEmax (raw : Nat) : Option Int := if raw = 0x8000 then none else some (signed 16 raw)

/-- One chunk slot in operand form from its lanes, five blocks each, and the header's E_max values (R85): the slot's
bytes, and blocks clamped. -/
def buildSlot (fmt : Nat) (lanes : List (List OpBlock)) (emax : List Nat) : Bytes × Nat :=
  let b := planeCount fmt
  let plane (p : Nat) (l : List OpBlock) : Bytes :=
    toLE 20 (((l.map (fun k => k.c)).flatten).foldr (fun c acc => twos b c / 2 ^ p % 2 + 2 * acc) 0)
  let offs := (lanes.zip emax).map (fun le => le.1.map (fun k => offsetByte ((laneEmax le.2).getD (-32768)) k.e))
  (((List.range b).map (fun p => (lanes.map (plane p)).flatten)).flatten ++
      ((offs.flatten).map (fun o => BitVec.ofNat 8 o.1)),
    ((offs.flatten).filter Prod.snd).length)

/-- A chunk slot as the array reads it: plane p of lane l at p × L + l, and each lane's five offsets (R85). -/
structure Slot where
  planes : List Nat
  offs   : List (List Nat)
  deriving DecidableEq, Repr

/-- Read a slot's bytes (R85). -/
def parseSlot (fmt : Nat) (b : Bytes) : Slot :=
  let n := planeCount fmt * laneCount fmt
  { planes := (runsOf 20 n b).map ofLE
    offs := (runsOf 5 (laneCount fmt) (b.drop (20 * n))).map (fun r => r.map BitVec.toNat) }

/-! ### Sums of one row and lane -/

/-- Partial sum of block `j` of a pass over the operand planes, plane b − 1 counting negative (R33, R102). -/
def blockSum (plus minus j : Nat) (planes : List Nat) : Int :=
  let at_ (m : Nat) := bits m (32 * j + 31) (32 * j)
  let top := planes.length - 1
  (planes.zip (List.range planes.length)).foldl (fun acc pi =>
    let d : Int := (popcount 32 (at_ plus &&& at_ pi.1) : Int) - (popcount 32 (at_ minus &&& at_ pi.1) : Int)
    let t := d * ((2 ^ pi.2 : Nat) : Int)
    if pi.2 = top then acc - t else acc + t) 0

/-- The block sums of one pass brought to E_ref and added together (R50): each with its offset δ from E_max; zero blocks
are left out. An FP4 or FP8 tile combines them at the pass exponent first. -/
def alignPass (fp : Bool) (live : List (Int × Nat)) : Int :=
  if fp then
    match live with
    | [] => 0
    | b :: t =>
      let least := t.foldl (fun m x => min m x.2) b.2
      let ep : Int := -(least : Int) - 6
      ashift ((live.map (fun x => ashift x.1 (-(x.2 : Int) - ep))).foldl (· + ·) 0) (ep + 6)
  else (live.map (fun x => ashift x.1 (-(x.2 : Int)))).foldl (· + ·) 0

/-- Whether an activation format is aligned as FP4 or FP8 (R50). -/
def fpAct (fmt : Nat) : Bool := decide (7 ≤ fmt)

/-- What one pass adds to the entry of one row and lane (R102, R124): the slots of the pass (one dense, two sparse), the
row's masks over the same positions, and the first position of the pass. Blocks outside [k0, k1) take no part. -/
def passTerm (fmt lane : Nat) (slots : List Slot) (plus minus base k0 k1 : Nat) (emax : Nat) : Int :=
  if emax = 0x8000 then 0
  else
    let l := laneCount fmt
    let b := planeCount fmt
    let blks := (slots.zip (List.range slots.length)).map (fun si =>
      let planes := (List.range b).map (fun p => si.1.planes.getD (p * l + lane) 0)
      let offs := si.1.offs.getD lane []
      (List.range 5).map (fun j =>
        let g := 5 * si.2 + j
        let pos := base + 32 * g
        (blockSum (bits plus (160 * si.2 + 159) (160 * si.2)) (bits minus (160 * si.2 + 159) (160 * si.2)) j planes,
          if k0 ≤ pos ∧ pos < k1 then offs.getD j 255 else 255)))
    alignPass (fpAct fmt) (blks.flatten.filter (fun b => b.2 != 255))

/-- Trit of a position from its plus and minus masks. -/
def maskTrit (m : Nat × Nat) (i : Nat) : Int := (m.1 / 2 ^ i % 2 : Nat) - (m.2 / 2 ^ i % 2 : Nat)

/-- Masks of a row for each pass of `width` positions from the pass that holds k0 to the one that holds k1 − 1
(R124): positions outside the range take zero weights. -/
def rowMasks (width k0 k1 : Nat) (trits : List Int) : List (Nat × Nat) :=
  let padded := List.replicate (k0 % width) 0 ++ trits
  (runsOf width (cdiv k1 width - k0 / width) padded).map (fun t => (plusMask t, minusMask t))

/-- Passes of a tile over one plane: `cd` or `cs` of R126. -/
def passCount (sparse : Bool) (k0 k1 : Nat) : Nat :=
  let w := if sparse then 320 else 160
  cdiv k1 w - k0 / w

/-- Add one plane's passes into an entry, ascending (R102, R125). -/
def addPasses (fmt lane : Nat) (sparse : Bool) (k0 k1 emax : Nat) (masks : List (Nat × Nat)) (slots : List (List Slot))
    (e : AccEntry) : AccEntry :=
  let w := if sparse then 320 else 160
  ((masks.zip slots).zip (List.range masks.length)).foldl (fun acc ms =>
    acc.add (passTerm fmt lane ms.1.2 ms.1.1.1 ms.1.1.2 (w * (k0 / w + ms.2)) k0 k1 emax)) e

/-- Entries of a bank under a function of row and lane, in canonical form. -/
def bankOf (rows lanes : Nat) (old : Tbl AccEntry) (f : Nat → Nat → AccEntry → AccEntry) : Tbl AccEntry :=
  ((List.range (rows * lanes)).map (fun i => (i, f (i / lanes) (i % lanes) (old.look i {})))).filter
    (fun p => p.2 != {})

/-- Entries that saturated where they had not been. -/
def newlySat (old new : Tbl AccEntry) : Nat :=
  (new.filter (fun p => p.2.sat && !(old.look p.1 {}).sat)).length

/-- Sums of a blocked or T24 tile into its bank (R102, R104, R125): weight planes top first, a ×3 sweep before each
plane below the top one. `masks` gives the masks of each plane's rows, pass by pass, top plane first; `slots` the chunk slots in
the order they were loaded, one list per plane pass. -/
def tileSums (fmt rows k0 k1 : Nat) (sparse : Bool) (masks : List (List (List (Nat × Nat)))) (slots : List (List (List Slot)))
    (emax : List Nat) (old : Tbl AccEntry) : Tbl AccEntry :=
  bankOf rows (laneCount fmt) old (fun r l e =>
    ((masks.zip slots).zip (List.range masks.length)).foldl (fun acc ms =>
      addPasses fmt l sparse k0 k1 (emax.getD l 0x8000) (ms.1.1.getD r []) ms.1.2
        (if ms.2 = 0 then acc else acc.triple)) e)

/-! ### Block-sparse tiles -/

/-- Slot bytes of a block-sparse activation slot (R136). -/
def bsSlotBytes (fmt : Nat) : Nat := 8 * planeCount fmt * laneCount fmt + 4 * laneCount fmt

/-- The two block exponents of lane `l` of a block-sparse slot, 0x8000 for a zero block (R136). -/
def bsExps (fmt l : Nat) (slot : Bytes) : List (Option Int) :=
  (List.range 2).map (fun j =>
    laneEmax (ofLE (slice slot (8 * planeCount fmt * laneCount fmt + 4 * l + 2 * j) 2)))

/-- E_max of a lane over the held slots of a block-sparse vector (R49). -/
def bsEmax (fmt l : Nat) (slots : List Bytes) : Option Int :=
  ((slots.map (bsExps fmt l)).flatten).foldl (fun m e => match m, e with
    | none, e => e
    | m, none => m
    | some a, some b => some (max a b)) none

/-- What one row of a hit, given by its masks, adds to the entry of one lane: its two blocks combined at E_p, each shifted by its whole offset
from the lane's E_max, which is the largest exponent of the held slots (R49, R50, R125, R138). -/
def bsTerm (fmt l : Nat) (slot : Bytes) (emax : Option Int) (plus minus : Nat) : Int :=
  match emax with
  | none => 0
  | some em =>
    let lc := laneCount fmt
    let planes := (List.range (planeCount fmt)).map (fun p => ofLE (slice slot ((p * lc + l) * 8) 8))
    alignPass (fpAct fmt) (((bsExps fmt l slot).zip (List.range 2)).filterMap (fun ej =>
      ej.1.map (fun e => (blockSum plus minus ej.2 planes, (em - e).toNat))))

/-- Sums of a block-sparse tile: hits in list order, each with its row-block, slot and the masks of its 64 rows (R138). -/
def bsSums (fmt rows : Nat) (slots : List Bytes) (hits : List (Nat × Nat × List (Nat × Nat))) (old : Tbl AccEntry) :
    Tbl AccEntry :=
  bankOf rows (laneCount fmt) old (fun r l e =>
    let em := bsEmax fmt l slots
    hits.foldl (fun acc h =>
      let m := h.2.2.getD (r % 64) (0, 0)
      if h.1 = r / 64 then acc.add (bsTerm fmt l (slots.getD h.2.1 []) em m.1 m.2) else acc) e)

/-! ### Annex -/

/-- The value an activation has as FP32 in the annex, from its operand form (R122). -/
def operandF32 (c : Int) (e : Option Int) : Word :=
  match e with
  | none => 0
  | some e => f32 (.ofInt c e)

/-- One annex entry after a tile: within each 32-element block products in ascending K, then blocks in ascending K,
each addition in FP32 (R125). DESIGN CHOICE: a zero weight makes the product +0 whatever the activation holds, a NaN or an
infinity too; the manual does not say (log 95). -/
def annexSum (ws : List Int) (xs : List Word) (e : Word) : Word :=
  let prods := (ws.zip xs).map (fun p => if p.1 = 0 then (0 : Word) else f32 (FVal.mul (.ofInt p.1 0) (ofF32 p.2)))
  (runsOf 32 (cdiv prods.length 32) prods).foldl (fun acc blk =>
    f32add acc (match blk with | [] => 0 | p :: t => t.foldl f32add p)) e

/-- A BT-n weight from its planes' trits at one position, plane 0 first (R31). -/
def btWeight (ts : List Int) : Int := ts.foldr (fun t acc => t + 3 * acc) 0

end Sys2Proof.Machine
end

