-- ==== Sys2Proof/Machine/Counters.lean ====
section
/-! DEFINITION. The counters of the Catalogue: their names, scopes and values (R70, R164, R195, R214, R265, R292, R319, R341,
R399, R451, R454). -/

namespace Sys2Proof.Machine

/-- The counters by name, scope by scope: core, channel, plinth, port, gallery, carousel group, device. -/
inductive Ctr where
  | expCodeRange | expBlkShort | expBlkLong | expBlocks | expEscapes | expStall | expCbLoad | expCbWait
  | spConflict | spCe | spUe | sbWait | chunkWait | accWait | accSat | nonfiniteIn | t24Subst | bsHit | bsMiss
  | attSat | attTokenDrop | attEmptyRow | attSepiaClk | stkConflict | stkTurn | stkRmw | stkRfOpp | stkRfForced
  | stkCe | stkUe | stkScrubFix | bcastStall | finWait | stkThrottle | brlAged | brlBadHdr | brlCrcFail
  | brlCreditStall | brlDetour | brlDropLink | brlMiswire | brlReplay | brlSecDrop | hifDbTorn | hifDbBad
  | hifPhaseWait | hifCrcFail | hifCqFull | hifConsBad | hifNoticeDrop | hifHostFault | hifDbgDeny | dmaChWait
  | dmaBytesRd | dmaBytesWr | dmaSrcUe | dmaStopped | dmaT24Units | migPanels | migNoop | migWait | migRefRead
  | winStale | winDeny | stkBwHold | carLate | carMissed | carPartial | carMapgen | nonfiniteOut | scaleClamp
  | anxTile | attHeadMissing | hifPollSkip | curCow | curForkEntry | curScrub | placeFallback | pageDenyQuota
  | pageDenyFrame | pageDenyTable | curCopy | curCopyDeny | curMove | curLimbo | docRingFull | promiseVoid
  | rasRetryTile | syncPeriod | beatLoss | beatJump | noteRx | noteEvict | fabBadProto | quiesceDrop | tileOverrun
  deriving DecidableEq, Repr

/-- Every counter with its printed name and its scope code (R454). -/
def ctrTable : List (Ctr × String × Nat) :=
  [(.expCodeRange, "EXP_CODE_RANGE", 0), (.expBlkShort, "EXP_BLK_SHORT", 0),
    (.expBlkLong, "EXP_BLK_LONG", 0), (.expBlocks, "EXP_BLOCKS", 0), (.expEscapes, "EXP_ESCAPES", 0),
    (.expStall, "EXP_STALL", 0), (.expCbLoad, "EXP_CB_LOAD", 0), (.expCbWait, "EXP_CB_WAIT", 0),
    (.spConflict, "SP_CONFLICT", 0), (.spCe, "SP_CE", 0), (.spUe, "SP_UE", 0), (.sbWait, "SB_WAIT", 0),
    (.chunkWait, "CHUNK_WAIT", 0), (.accWait, "ACC_WAIT", 0), (.accSat, "ACC_SAT", 0),
    (.nonfiniteIn, "NONFINITE_IN", 0), (.t24Subst, "T24_SUBST", 0), (.bsHit, "BS_HIT", 0),
    (.bsMiss, "BS_MISS", 0), (.attSat, "ATT_SAT", 0), (.attTokenDrop, "ATT_TOKEN_DROP", 0),
    (.attEmptyRow, "ATT_EMPTY_ROW", 0), (.attSepiaClk, "ATT_SEPIA_CLK", 0)]
  ++ [(.stkConflict, "STK_CONFLICT", 1), (.stkTurn, "STK_TURN", 1), (.stkRmw, "STK_RMW", 1),
    (.stkRfOpp, "STK_RF_OPP", 1), (.stkRfForced, "STK_RF_FORCED", 1), (.stkCe, "STK_CE", 1),
    (.stkUe, "STK_UE", 1), (.stkScrubFix, "STK_SCRUB_FIX", 1)]
  ++ [(.bcastStall, "BCAST_STALL", 2), (.finWait, "FIN_WAIT", 2), (.stkThrottle, "STK_THROTTLE", 2)]
  ++ [(.brlAged, "BRL_AGED", 3), (.brlBadHdr, "BRL_BAD_HDR", 3), (.brlCrcFail, "BRL_CRC_FAIL", 3),
    (.brlCreditStall, "BRL_CREDIT_STALL", 3),
    (.brlDropLink, "BRL_DROP_LINK", 3), (.brlMiswire, "BRL_MISWIRE", 3), (.brlReplay, "BRL_REPLAY", 3),
    (.brlSecDrop, "BRL_SEC_DROP", 3)]
  ++ [(.hifDbTorn, "HIF_DB_TORN", 4), (.hifDbBad, "HIF_DB_BAD", 4), (.hifPhaseWait, "HIF_PHASE_WAIT", 4),
    (.hifCrcFail, "HIF_CRC_FAIL", 4), (.hifCqFull, "HIF_CQ_FULL", 4), (.hifConsBad, "HIF_CONS_BAD", 4),
    (.hifNoticeDrop, "HIF_NOTICE_DROP", 4), (.hifHostFault, "HIF_HOST_FAULT", 4),
    (.hifDbgDeny, "HIF_DBG_DENY", 4), (.dmaChWait, "DMA_CH_WAIT", 4), (.dmaBytesRd, "DMA_BYTES_RD", 4),
    (.dmaBytesWr, "DMA_BYTES_WR", 4), (.dmaSrcUe, "DMA_SRC_UE", 4), (.dmaStopped, "DMA_STOPPED", 4),
    (.dmaT24Units, "DMA_T24_UNITS", 4), (.migPanels, "MIG_PANELS", 4), (.migNoop, "MIG_NOOP", 4),
    (.migWait, "MIG_WAIT", 4), (.migRefRead, "MIG_REF_READ", 4), (.winStale, "WIN_STALE", 4),
    (.winDeny, "WIN_DENY", 4), (.stkBwHold, "STK_BW_HOLD", 4)]
  ++ [(.carLate, "CAR_LATE", 5), (.carMissed, "CAR_MISSED", 5), (.carPartial, "CAR_PARTIAL", 5),
    (.carMapgen, "CAR_MAPGEN", 5)]
  ++ [(.nonfiniteOut, "NONFINITE_OUT", 6), (.scaleClamp, "SCALE_CLAMP", 6), (.anxTile, "ANX_TILE", 6),
    (.brlDetour, "BRL_DETOUR", 6),
    (.attHeadMissing, "ATT_HEAD_MISSING", 6), (.hifPollSkip, "HIF_POLL_SKIP", 6), (.curCow, "CUR_COW", 6),
    (.curForkEntry, "CUR_FORK_ENTRY", 6), (.curScrub, "CUR_SCRUB", 6), (.placeFallback, "PLACE_FALLBACK", 6),
    (.pageDenyQuota, "PAGE_DENY_QUOTA", 6), (.pageDenyFrame, "PAGE_DENY_FRAME", 6),
    (.pageDenyTable, "PAGE_DENY_TABLE", 6), (.curCopy, "CUR_COPY", 6), (.curCopyDeny, "CUR_COPY_DENY", 6),
    (.curMove, "CUR_MOVE", 6), (.curLimbo, "CUR_LIMBO", 6), (.docRingFull, "DOC_RING_FULL", 6),
    (.promiseVoid, "PROMISE_VOID", 6), (.rasRetryTile, "RAS_RETRY_TILE", 6), (.syncPeriod, "SYNC_PERIOD", 6),
    (.beatLoss, "BEAT_LOSS", 6), (.beatJump, "BEAT_JUMP", 6), (.noteRx, "NOTE_RX", 6),
    (.noteEvict, "NOTE_EVICT", 6), (.fabBadProto, "FAB_BAD_PROTO", 6), (.quiesceDrop, "QUIESCE_DROP", 6), (.tileOverrun, "TILE_OVERRUN", 6)]

/-- Place of a counter in the table. -/
def Ctr.index (c : Ctr) : Nat := ctrTable.findIdx (fun x => x.1 == c)

/-- Scope of a counter (R451, R454). -/
def Ctr.scope (c : Ctr) : Nat := ((ctrTable.find? (fun x => x.1 == c)).map (fun x => x.2.2)).getD 6

/-- Whether a counter is a level counter (R451). -/
def Ctr.level (c : Ctr) : Bool := c == .curLimbo

/-- Instances of a counter within one scope instance: PROMISE_VOID counts together with the condition (R224, R451). -/
def Ctr.sub (c : Ctr) : Nat := if c = .promiseVoid then 8 else 1

/-- Scope instances of a scope code (R3, R454). -/
def scopeCount (scope : Nat) : Nat := [2048, 2048, 8, 32, 64, 256, 1].getD scope 1

/-- Slots the value area gives each scope instance (R455). -/
def scopeSlots (scope : Nat) : Nat := [64, 32, 32, 16, 128, 4, 256].getD scope 1

/-- Where a counter's value stands in the table of counters. -/
def Ctr.key (c : Ctr) (inst sub : Nat) : Nat := c.index * 2 ^ 20 + inst * 16 + sub

/-- Value of a counter. -/
def State.counter (s : State) (c : Ctr) (inst sub : Nat) : Nat := Tbl.look s.cat.counters (c.key inst sub) 0

/-- Add to an event counter, which saturates at 2^64 − 1 and never wraps (R451). -/
def State.countSub (s : State) (c : Ctr) (inst sub n : Nat) : State :=
  let v := min (s.counter c inst sub + n) (2 ^ 64 - 1)
  { s with cat := { s.cat with counters := Tbl.put s.cat.counters (c.key inst sub) v 0 } }

/-- Add to an event counter of one instance per scope. -/
def State.count (s : State) (c : Ctr) (inst n : Nat) : State := s.countSub c inst 0 n

/-- Add one to an event counter where a condition holds. -/
def State.countIf (s : State) (b : Bool) (c : Ctr) (inst : Nat) : State := if b then s.count c inst 1 else s

/-- Set a level counter (R451). -/
def State.setLevel (s : State) (c : Ctr) (n : Nat) : State :=
  { s with cat := { s.cat with counters := Tbl.put s.cat.counters (c.key 0 0) n 0 } }

/-- Clear the gallery-scoped counters of a gallery (R452). -/
def State.clearGalleryCounters (s : State) (g : Nat) : State :=
  let gone := (ctrTable.filter (fun x => x.2.2 == 4)).map (fun x => x.1.key g 0)
  { s with cat := { s.cat with counters := s.cat.counters.filter (fun e => !gone.contains e.1) } }

end Sys2Proof.Machine
end

