-- ==== Sys2Proof/Machine/Memory.lean ====
section
/-! DEFINITION. The device's memory as one byte space: physical channels, physical scratchpads and the hall buffer; the
Reed–Solomon code of the channels and the error bits of the SRAMs (R82, R84, R294, R298, R309 to R311, R400). An
unlisted byte reads as 0. -/

namespace Sys2Proof.Machine

/-- The stored bytes: cells by address, strictly rising, none of them 0. -/
abbrev Memory := List Host.Cell

/-- What a byte that nothing has written reads as: start-up zeroes every channel (R478). -/
def Memory.unlisted : Byte := 0

/-- The canonical form. -/
def Memory.wf (m : Memory) : Bool := Tbl.wf (fun _ => Memory.unlisted) m

/-- One byte. -/
def Memory.get (m : Memory) (a : Nat) : Byte := Tbl.look m a Memory.unlisted

/-- Bytes `a` to `a + n − 1` from cells that start at `a` or later. -/
def Memory.walk : Memory → Nat → Nat → Bytes
  | _, _, 0 => []
  | [], a, n + 1 => Memory.unlisted :: Memory.walk [] (a + 1) n
  | (k, v) :: t, a, n + 1 =>
    if k = a then v :: Memory.walk t (a + 1) n else Memory.unlisted :: Memory.walk ((k, v) :: t) (a + 1) n

/-- Bytes `a` to `a + n − 1`. -/
def Memory.read (m : Memory) (a n : Nat) : Bytes :=
  Memory.walk (m.filter (fun c => decide (a ≤ c.1))) a n

/-- The cells of a run of bytes. -/
def Memory.cells : Nat → Bytes → Memory
  | _, [] => []
  | a, b :: t => if b = Memory.unlisted then Memory.cells (a + 1) t else (a, b) :: Memory.cells (a + 1) t

/-- Write a run of bytes at `a`. -/
def Memory.store (m : Memory) (a : Nat) (b : Bytes) : Memory :=
  m.filter (fun c => decide (c.1 < a)) ++ Memory.cells a b ++ m.filter (fun c => decide (a + b.length ≤ c.1))

/-! ### Where things lie -/

/-- First byte of physical channel `p` (plinth × 264 + index), of 2^28 bytes (R293). -/
def chanBase (p : Nat) : Nat := p * 2 ^ 28
/-- First byte of the scratchpad of physical core `p` (plinth × 264 + index), of 2^18 bytes (R82). -/
def scratchBase (p : Nat) : Nat := 2 ^ 40 + p * 2 ^ 18
/-- First byte of the hall buffer, of 2^28 bytes (R3). -/
def hallBase : Nat := 2 ^ 41

/-! ### Reed–Solomon (R309) -/

/-- Two rows of symbols added. -/
def xorRow (a b : List Nat) : List Nat := (a.zip b).map (fun (p : Nat × Nat) => p.1 ^^^ p.2)

/-- Multiply by α in GF(2⁸) with field polynomial 0x11D. -/
def gfDouble (a : Nat) : Nat := if 128 ≤ a then (2 * a) ^^^ 0x11D else 2 * a

/-- Product in GF(2⁸), over the bits of `b`. -/
def gfMulBits : Nat → Nat → Nat → Nat
  | 0, _, _ => 0
  | n + 1, a, b => (if b % 2 = 1 then a else 0) ^^^ gfMulBits n (gfDouble a) (b / 2)

/-- Product in GF(2⁸). -/
def gfMul (a b : Nat) : Nat := gfMulBits 8 a b

/-- α^n. -/
def gfExp : Nat → Nat
  | 0 => 1
  | n + 1 => gfDouble (gfExp n)

/-- Square `n` times over a product: a^(2^n − 1) × … gives the inverse a^254. -/
def gfInv (a : Nat) : Nat :=
  let sq (x : Nat) := gfMul x x
  let a2 := sq a
  let a3 := gfMul a2 a
  let a6 := sq a3
  let a7 := gfMul a6 a
  let a14 := sq a7
  let a15 := gfMul a14 a
  let a30 := sq a15
  let a31 := gfMul a30 a
  let a62 := sq a31
  let a63 := gfMul a62 a
  let a126 := sq a63
  let a127 := gfMul a126 a
  sq a127

/-- A polynomial, constant term first, at a point. -/
def gfEval (p : List Nat) (x : Nat) : Nat := p.foldr (fun c acc => c ^^^ gfMul acc x) 0

/-- Product of polynomials by x − α^k, coefficients with the constant term first. -/
def gfTimesRoot (p : List Nat) (k : Nat) : List Nat :=
  let r := gfExp k
  xorRow (p.map (gfMul r) ++ [0]) (0 :: p)

/-- The generator g(x), constant term first (R309). -/
def rsGenerator : List Nat := (List.range 8).foldl gfTimesRoot [1]

/-- Check symbols c₆₄ to c₇₁ of 64 data bytes: the remainder of the data polynomial × x⁸ (R309). -/
def rsChecks (data : List Nat) : List Nat :=
  let g := (rsGenerator.take 8).reverse
  data.foldl (fun r d =>
    let f := d ^^^ r.headD 0
    xorRow (r.drop 1 ++ [0]) (g.map (gfMul f))) (List.replicate 8 0)

/-- The eight syndromes of 72 received symbols, c₀ first. -/
def rsSyndromes (w : List Nat) : List Nat :=
  (List.range 8).map (fun k => w.foldl (fun acc c => gfMul acc (gfExp k) ^^^ c) 0)

/-- The error locator by Berlekamp–Massey: step `n` of 8 over the syndromes, with the locator, the saved one, its length,
the saved discrepancy's inverse and the distance since. -/
def rsLocator (syn : List Nat) : Nat → Nat → List Nat → List Nat → Nat → Nat → Nat → List Nat × Nat
  | 0, _, c, _, l, _, _ => (c, l)
  | k + 1, n, c, b, l, m, binv =>
    let d := (List.range (l + 1)).foldl (fun acc i => acc ^^^ gfMul (c.getD i 0) (syn.getD (n - i) 0)) 0
    if d = 0 then rsLocator syn k (n + 1) c b l (m + 1) binv
    else
      let f := gfMul d binv
      let shifted := List.replicate m 0 ++ b.map (gfMul f)
      let len := max c.length shifted.length
      let c' := (List.range len).map (fun i => c.getD i 0 ^^^ shifted.getD i 0)
      if 2 * l ≤ n then rsLocator syn k (n + 1) c' c (n + 1 - l) 1 (gfInv d)
      else rsLocator syn k (n + 1) c' b l (m + 1) binv

/-- The error pattern of at most four symbols that 72 received symbols decode by, as 72 symbols; none if the decoder
finds no codeword within four symbols (R311). -/
def rsErrors (w : List Nat) : Option (List Nat) :=
  let syn := rsSyndromes w
  if syn.all (fun s => s == 0) then some (List.replicate 72 0)
  else
    let loc := rsLocator syn 8 0 [1] [1] 0 1 1
    if 4 < loc.2 then none
    else
      -- symbol i stands at x^(71 − i); its locator root is α^−(71 − i)
      let pos := positions 72 (fun i => gfEval loc.1 (gfInv (gfExp (71 - i))) == 0)
      if pos.length ≠ loc.2 then none
      else
        -- error evaluator Ω = S·Λ mod x⁸ and Forney's formula
        let omega := (List.range 8).map (fun n => (List.range (n + 1)).foldl
          (fun acc i => acc ^^^ gfMul (loc.1.getD i 0) (syn.getD (n - i) 0)) 0)
        let deriv := (List.range loc.1.length).map (fun i => if i % 2 = 0 then loc.1.getD (i + 1) 0 else 0)
        let err := (List.range 72).map (fun i =>
          if pos.contains i then
            let x := gfExp (71 - i)
            let xi := gfInv x
            gfMul x (gfMul (gfEval omega xi) (gfInv (gfEval deriv xi)))
          else 0)
        if (rsSyndromes (xorRow w err)).all (fun s => s == 0) then some err else none

/-- The poison mark: 0xFF added to check symbols 64 and 65 (R298). -/
def poisonChk : BitVec 64 := 0xFFFF

/-- How a burst whose stored check symbols differ from its data's by `chk` decodes: the pattern to add to its data, or
none for an uncorrectable error (R311). A pattern with both poison symbols reads uncorrectable (R298). -/
def burstError (chk : BitVec 64) : Option (List Nat) :=
  if chk = 0 then some (List.replicate 64 0)
  else match rsErrors (List.replicate 64 0 ++ (toLE 8 chk.toNat).map BitVec.toNat) with
    | none => none
    | some e => if e.getD 64 0 = 0xFF ∧ e.getD 65 0 = 0xFF then none else some (e.take 64)

/-- How one byte of a stored burst reads: its correction, or lost. -/
def State.chanByte (s : State) (phys a : Nat) : Option Byte :=
  let g := chanBase phys + a
  match Tbl.find s.chk (g / 64) with
  | none => some (Memory.get s.mem g)
  | some c => (burstError c).map (fun e => Memory.get s.mem g ^^^ BitVec.ofNat 8 (e.getD (g % 64) 0))

/-- Bursts of a channel range that read corrected (false) or uncorrectable (true), by channel byte address. -/
def State.chanErrors (s : State) (phys a n : Nat) : List (Nat × Bool) :=
  let lo := (chanBase phys + a) / 64
  let hi := (chanBase phys + a + n - 1) / 64
  if n = 0 then [] else
  (s.chk.filter (fun c => decide (lo ≤ c.1) && decide (c.1 ≤ hi))).map (fun c =>
    (64 * c.1 - chanBase phys, (burstError c.2).isNone))

/-- A run of channel bytes with lost ones as zero. -/
def State.chanRead (s : State) (phys a n : Nat) : Bytes :=
  if (s.chanErrors phys a n).isEmpty then Memory.read s.mem (chanBase phys + a) n
  else (List.range n).map (fun i => (s.chanByte phys (a + i)).getD 0)

/-- Write whole or part bursts of a channel with fresh check symbols; a part of a burst that reads uncorrectable leaves
the burst poisoned (R298). Answers the state, partial-burst writes and the bursts poisoned. -/
def State.chanWrite (s : State) (phys a : Nat) (b : Bytes) : State × Nat × List Nat :=
  let g := chanBase phys + a
  let n := b.length
  if n = 0 then (s, 0, []) else
  let lo := g / 64
  let hi := (g + n - 1) / 64
  let part (k : Nat) : Bool := decide (64 * k < g) || decide (g + n < 64 * (k + 1))
  let edges := distinct ([lo, hi].filter part)
  let bad := edges.filter (fun k => match Tbl.find s.chk k with
    | none => false
    | some c => (burstError c).isNone)
  -- a corrected burst is merged into its corrected data
  let fixed := (edges.filter (fun k => !bad.contains k)).foldl (fun m k => match Tbl.find s.chk k with
    | none => m
    | some c => match burstError c with
      | none => m
      | some e => Memory.store m (64 * k) ((xorRow ((Memory.read m (64 * k) 64).map BitVec.toNat) e).map
          (BitVec.ofNat 8))) s.mem
  let chk := s.chk.filter (fun c => !(decide (lo ≤ c.1) && decide (c.1 ≤ hi)))
  ({ s with
      mem := Memory.store fixed g b
      chk := bad.foldl (fun t k => Tbl.put t k poisonChk 0) chk },
    edges.length, bad.map (fun k => 64 * k - chanBase phys))

/-- Store 72 symbols as a burst, c₀ first (R317 WRITE_RAW). -/
def State.burstRaw (s : State) (phys a : Nat) (sym : List Nat) : State :=
  let g := (chanBase phys + a) / 64
  let data := sym.take 64
  let diff := (xorRow (rsChecks data) (sym.drop 64)).map (BitVec.ofNat 8)
  { s with mem := Memory.store s.mem (64 * g) (data.map (BitVec.ofNat 8))
           chk := Tbl.put s.chk g (BitVec.ofNat 64 (ofLE diff)) 0 }

/-- The 72 symbols stored for a burst (R317 READ_RAW). -/
def State.burstSymbols (s : State) (phys a : Nat) : List Nat :=
  let g := (chanBase phys + a) / 64
  let data := (Memory.read s.mem (64 * g) 64).map BitVec.toNat
  data ++ xorRow (rsChecks data) ((toLE 8 (Tbl.look s.chk g 0).toNat).map BitVec.toNat)

/-- A disturbed burst: an XOR pattern over its 72 symbols (R310). -/
def State.burstUpset (s : State) (phys a : Nat) (x : BitVec 576) : State :=
  let pat := (toLE 72 x.toNat).map BitVec.toNat
  s.burstRaw phys a (xorRow (s.burstSymbols phys a) pat)

/-! ### SRAM words (R84, R400) -/

/-- Words of a run that hold a single-bit (false) or double-bit (true) error, by word number. -/
def State.badWords (s : State) (g n : Nat) : List (Nat × Bool) :=
  if n = 0 then [] else
  s.bad.filter (fun w => decide (g / 8 ≤ w.1) && decide (w.1 ≤ (g + n - 1) / 8))

/-- A run of SRAM bytes: a word with a double-bit error returns zero (R84). -/
def State.sramRead (s : State) (g n : Nat) : Bytes :=
  let dbl := (s.badWords g n).filter Prod.snd
  if dbl.isEmpty then Memory.read s.mem g n
  else ((Memory.read s.mem g n).zip (List.range n)).map (fun bi =>
    if dbl.any (fun w => w.1 == (g + bi.2) / 8) then 0 else bi.1)

/-- Whether a write of `n` bytes at `g` covers all 8 bytes of a word. -/
def wholeWord (g n w : Nat) : Bool := decide (g ≤ 8 * w) && decide (8 * w + 8 ≤ g + n)

/-- Words in error that a write covers in part only, and so reads before it writes them (R84). -/
def State.mergedWords (s : State) (g n : Nat) : List (Nat × Bool) := (s.badWords g n).filter (fun w => !wholeWord g n w.1)

/-- Write SRAM bytes: a write of all 8 bytes of a word ends its error, a narrower one leaves a double-bit error in place (R84). -/
def State.sramWrite (s : State) (g : Nat) (b : Bytes) : State :=
  let touched := s.badWords g b.length
  { s with
    mem := Memory.store s.mem g b
    bad := s.bad.filter (fun w => !(touched.any (fun t => t.1 == w.1) && (wholeWord g b.length w.1 || !w.2))) }

end Sys2Proof.Machine
end

