-- ==== Sys2Proof/Machine/RegMap.lean ====
section
/-! DEFINITION. The register map: every register of PF BAR0 with its place, its fields, their access codes, reset
values, ranges and owning units (R8, R497, and the field maps R497 points to). -/

namespace Sys2Proof.Machine

/-- The registers, by name. -/
inductive Reg where
  | glbId | glbWerr | glbWerrAddr | glbState | glbCommitCrc | glbCommit | glbCstat | glbCerr | glbCmd | glbBoot
  | glbBootRep | glbDbgSel | glbBw | glbMemCtrl | glbT1Base | glbT1Limit | glbT0Base | glbT0Count | glbT0Q
  | hifCtrl | hifPollCfg | hifSumLo | hifSumHi | hifAckLo | hifAckHi | hifCto | hifLink | hifGal | hifGsumLo
  | hifGsumHi | hifSqLo | hifSqHi | hifCqLo | hifCqHi | hifDbLo | hifDbHi | hifRcfg | hifRstat | hifFidx | dmaCtrl
  | dmaCresv | dmaActive | dmaGal | docCtrl | docCres | docWgt | docStatus | docGal | docGalC | docGalQ | docGalS
  | curKvBase | curKvFrames | curScBase | curTblBase | curTblLines | curCtrl | curGal | curGalR | brlCtrl | brlId
  | brlMachine | brlEtype | brlUpCfg | brlMacsec | brlPos | brlPortCtrl | brlPortStat | beatCtrl | beatCfg
  | beatCntLo | beatCntHi | beatUpPeer | beatStat | beatOfs | beatMap | beatQLo | beatQHi | beatGal | stkCtrl
  | schint | keepLo | keepHi | rfCfg | rfSlot | rfStat | scrubCfg | tStat | rprCmd | rprAddr | rprStat | rprSpares
  | rprData | secStat | secSvn | secFloor | secRevoke | secFwCmd | secHallB | secHallS | secTdi | catSnapLo
  | catSnapHi | catSnapCmd | catSnapStat | catSnapLen | catRdLo | catRdHi | catRdCmd | catRdStat | catWdog
  | catMark | catTrBase | catTrSize | catTrCtrl | catTrPost | catTrCmd | catTrStat | catTrWptr | catTrTrig
  | catTrDrop | catTrRetrig | catTrBeatLo | catTrBeatHi | catPsamp | catFltUnit | catFltEvt | catFltCtl | rasCtrl
  | rasIringLo | rasIringHi | rasIcfg | rasRate | rasQstat | rasOvf | rasFenceCfg | rasFenceCmd | rasConsCfg
  | rasConsStat | rasSrcSel | rasSrcClr | rasSrcData | rasFenceA | rasFenceB | anxCtrl | anxStat | mgtCtrl | mgtSmb
  | mgtEid | mgtPthr | mgtDthr | mgtPwr
  deriving DecidableEq, Repr

/-- The access codes of R8. -/
inductive Acc where
  | ro | rw | wo | w1c | rws | rwl
  deriving DecidableEq, Repr

/-- The unit that owns a register's RWL fields (R8, R10). -/
inductive Lock where
  | none | memctrl | hif | galRings | ring | dma | doc | cur | brl | beat | stk | tdi | trace | ras | mgt
  deriving DecidableEq, Repr

/-- A field: its bits, access code, reset value, stated range, and whether it belongs to the commit set (R483). -/
structure Field where
  hi : Nat
  lo : Nat
  acc : Acc
  rst : Nat
  range : Option (Nat × Nat)
  commit : Bool
  deriving DecidableEq, Repr

/-- A register: its offset in PF BAR0, its array dimensions as counts and strides, its owning unit and its fields. -/
structure RegSpec where
  reg : Reg
  base : Nat
  dims : List (Nat × Nat)
  lock : Lock
  fields : List Field
  deriving DecidableEq, Repr

/-- GLB block (R2, R305, R322, R496, R504). -/
def regsGlb : List RegSpec :=
  [⟨.glbId, 0x0000000, [], .none, [
      ⟨31, 16, .ro, 0x0, none, false⟩,
      ⟨15, 8, .ro, 0x0, none, false⟩,
      ⟨7, 0, .ro, 0x0, none, false⟩]⟩,
   ⟨.glbWerr, 0x0000004, [], .none, [
      ⟨7, 0, .ro, 0x0, none, false⟩,
      ⟨8, 8, .w1c, 0x0, none, false⟩,
      ⟨9, 9, .w1c, 0x0, none, false⟩,
      ⟨21, 16, .ro, 0x0, none, false⟩]⟩,
   ⟨.glbWerrAddr, 0x0000008, [], .none, [⟨25, 0, .ro, 0x0, none, false⟩]⟩,
   ⟨.glbState, 0x0000010, [], .none, [
      ⟨2, 0, .ro, 0x0, none, false⟩,
      ⟨6, 4, .ro, 0x0, none, false⟩,
      ⟨8, 8, .ro, 0x0, none, false⟩,
      ⟨9, 9, .ro, 0x0, none, false⟩,
      ⟨10, 10, .ro, 0x0, none, false⟩]⟩,
   ⟨.glbCommitCrc, 0x0000014, [], .none, [⟨31, 0, .rw, 0x0, none, false⟩]⟩,
   ⟨.glbCommit, 0x0000018, [], .none, [⟨15, 0, .wo, 0x0, none, false⟩]⟩,
   ⟨.glbCstat, 0x000001C, [], .none, [
      ⟨15, 0, .ro, 0x0, none, false⟩,
      ⟨23, 16, .ro, 0x0, none, false⟩,
      ⟨24, 24, .ro, 0x0, none, false⟩]⟩,
   ⟨.glbCerr, 0x0000020, [], .none, [⟨31, 0, .ro, 0x0, none, false⟩]⟩,
   ⟨.glbCmd, 0x0000024, [], .none, [⟨1, 0, .wo, 0x0, none, false⟩]⟩,
   ⟨.glbBoot, 0x0000028, [], .none, [
      ⟨3, 0, .ro, 0x0, none, false⟩,
      ⟨15, 8, .ro, 0x0, none, false⟩,
      ⟨23, 16, .ro, 0x0, none, false⟩,
      ⟨31, 24, .ro, 0x0, none, false⟩]⟩,
   ⟨.glbBootRep, 0x000002C, [], .none, [
      ⟨15, 0, .ro, 0x0, none, false⟩,
      ⟨23, 16, .ro, 0x0, none, false⟩,
      ⟨31, 24, .ro, 0x0, none, false⟩]⟩,
   ⟨.glbDbgSel, 0x0000030, [], .none, [⟨3, 0, .rw, 0x0, none, false⟩]⟩,
   ⟨.glbBw, 0x0001000, [(64, 0x4)], .none, [⟨6, 0, .rws, 0x64, some (1, 100), false⟩]⟩,
   ⟨.glbMemCtrl, 0x0002000, [], .none, [⟨0, 0, .rw, 0x0, none, false⟩]⟩,
   ⟨.glbT1Base, 0x0002004, [], .memctrl, [⟨27, 18, .rwl, 0x0, none, true⟩]⟩,
   ⟨.glbT1Limit, 0x0002008, [], .memctrl, [⟨28, 18, .rwl, 0x0, some (0, 1024), true⟩]⟩,
   ⟨.glbT0Base, 0x000200C, [], .memctrl, [⟨27, 18, .rwl, 0x0, none, true⟩]⟩,
   ⟨.glbT0Count, 0x0002010, [], .memctrl, [⟨10, 0, .rwl, 0x0, some (0, 1024), true⟩]⟩,
   ⟨.glbT0Q, 0x0002100, [(64, 0x4)], .none, [⟨10, 0, .rw, 0x0, none, false⟩]⟩]

/-- HIF block (R233 to R235). -/
def regsHif : List RegSpec :=
  [⟨.hifCtrl, 0x0100000, [], .none, [⟨0, 0, .rw, 0x0, none, false⟩]⟩,
   ⟨.hifPollCfg, 0x0100004, [], .none, [
      ⟨10, 0, .rw, 0x400, some (1, 1024), false⟩,
      ⟨22, 16, .rw, 0x40, some (1, 64), false⟩]⟩,
   ⟨.hifSumLo, 0x0100008, [], .hif, [⟨31, 9, .rwl, 0x0, none, true⟩]⟩,
   ⟨.hifSumHi, 0x010000C, [], .hif, [⟨31, 0, .rwl, 0x0, none, true⟩]⟩,
   ⟨.hifAckLo, 0x0100010, [], .hif, [⟨31, 9, .rwl, 0x0, none, true⟩]⟩,
   ⟨.hifAckHi, 0x0100014, [], .hif, [⟨31, 0, .rwl, 0x0, none, true⟩]⟩,
   ⟨.hifCto, 0x0100018, [], .none, [⟨15, 0, .rw, 0x32, some (1, 1000), false⟩]⟩,
   ⟨.hifLink, 0x010001C, [], .none, [
      ⟨4, 0, .ro, 0x0, none, false⟩,
      ⟨10, 8, .ro, 0x0, none, false⟩,
      ⟨11, 11, .ro, 0x0, none, false⟩]⟩,
   ⟨.hifGal, 0x0100100, [(64, 0x10)], .galRings, [
      ⟨6, 0, .rw, 0x0, some (0, 64), false⟩,
      ⟨20, 8, .rw, 0x40, some (1, 4096), false⟩,
      ⟨31, 31, .rwl, 0x0, none, false⟩]⟩,
   ⟨.hifGsumLo, 0x0100104, [(64, 0x10)], .galRings, [⟨31, 4, .rwl, 0x0, none, false⟩]⟩,
   ⟨.hifGsumHi, 0x0100108, [(64, 0x10)], .galRings, [⟨31, 0, .rwl, 0x0, none, false⟩]⟩,
   ⟨.hifSqLo, 0x0110000, [(4096, 0x20)], .ring, [⟨31, 12, .rwl, 0x0, none, false⟩]⟩,
   ⟨.hifSqHi, 0x0110004, [(4096, 0x20)], .ring, [⟨31, 0, .rwl, 0x0, none, false⟩]⟩,
   ⟨.hifCqLo, 0x0110008, [(4096, 0x20)], .ring, [⟨31, 12, .rwl, 0x0, none, false⟩]⟩,
   ⟨.hifCqHi, 0x011000C, [(4096, 0x20)], .ring, [⟨31, 0, .rwl, 0x0, none, false⟩]⟩,
   ⟨.hifDbLo, 0x0110010, [(4096, 0x20)], .ring, [⟨31, 6, .rwl, 0x0, none, false⟩]⟩,
   ⟨.hifDbHi, 0x0110014, [(4096, 0x20)], .ring, [⟨31, 0, .rwl, 0x0, none, false⟩]⟩,
   ⟨.hifRcfg, 0x0110018, [(4096, 0x20)], .ring, [
      ⟨0, 0, .rw, 0x0, none, false⟩,
      ⟨5, 1, .rwl, 0x6, none, false⟩,
      ⟨7, 6, .rwl, 0x1, none, false⟩,
      ⟨18, 8, .rwl, 0x0, none, false⟩,
      ⟨19, 19, .rwl, 0x0, none, false⟩,
      ⟨23, 20, .rwl, 0x0, none, false⟩]⟩,
   ⟨.hifRstat, 0x011001C, [(4096, 0x20)], .none, [
      ⟨0, 0, .ro, 0x0, none, false⟩,
      ⟨1, 1, .ro, 0x0, none, false⟩,
      ⟨3, 2, .ro, 0x0, none, false⟩]⟩,
   ⟨.hifFidx, 0x0130000, [(4096, 0x4)], .none, [⟨31, 0, .ro, 0x0, none, false⟩]⟩]

/-- DMA block (R291). -/
def regsDma : List RegSpec :=
  [⟨.dmaCtrl, 0x0200000, [], .none, [⟨0, 0, .rw, 0x0, none, false⟩]⟩,
   ⟨.dmaCresv, 0x0200004, [], .dma, [⟨7, 0, .rwl, 0x20, some (0, 128), true⟩]⟩,
   ⟨.dmaActive, 0x0200008, [], .none, [⟨8, 0, .ro, 0x0, none, false⟩]⟩,
   ⟨.dmaGal, 0x0200100, [(64, 0x4)], .none, [⟨8, 0, .rw, 0x10, some (1, 256), false⟩]⟩]

/-- DOC block (R198). -/
def regsDoc : List RegSpec :=
  [⟨.docCtrl, 0x0400000, [], .none, [⟨0, 0, .rw, 0x0, none, false⟩]⟩,
   ⟨.docCres, 0x0400004, [], .none, [⟨6, 0, .rws, 0x0, some (0, 60), false⟩]⟩,
   ⟨.docWgt, 0x0400008, [], .none, [⟨7, 0, .rws, 0x3, none, false⟩, ⟨15, 8, .rws, 0x1, none, false⟩]⟩,
   ⟨.docStatus, 0x040000C, [], .none, [
      ⟨0, 0, .ro, 0x0, none, false⟩,
      ⟨1, 1, .ro, 0x0, none, false⟩,
      ⟨25, 16, .ro, 0x0, none, false⟩]⟩,
   ⟨.docGal, 0x0400100, [(64, 0x10)], .doc, [⟨14, 0, .rwl, 0x0, none, true⟩]⟩,
   ⟨.docGalC, 0x0400104, [(64, 0x10)], .doc, [⟨15, 0, .rwl, 0x0, none, true⟩]⟩,
   ⟨.docGalQ, 0x0400108, [(64, 0x10)], .none, [⟨15, 0, .rw, 0x0, none, false⟩]⟩,
   ⟨.docGalS, 0x040010C, [(64, 0x10)], .none, [⟨6, 0, .rw, 0x0, none, false⟩]⟩]

/-- CUR block (R174). -/
def regsCur : List RegSpec :=
  [⟨.curKvBase, 0x0600000, [], .cur, [⟨27, 14, .rwl, 0x0, none, true⟩]⟩,
   ⟨.curKvFrames, 0x0600004, [], .cur, [⟨14, 0, .rwl, 0x0, some (0, 16384), true⟩]⟩,
   ⟨.curScBase, 0x0600008, [], .cur, [⟨27, 10, .rwl, 0x0, none, true⟩]⟩,
   ⟨.curTblBase, 0x060000C, [], .cur, [⟨27, 16, .rwl, 0x0, none, true⟩]⟩,
   ⟨.curTblLines, 0x0600010, [], .cur, [⟨21, 0, .rwl, 0x0, none, true⟩]⟩,
   ⟨.curCtrl, 0x0600014, [], .none, [⟨0, 0, .rw, 0x0, none, false⟩, ⟨1, 1, .rw, 0x0, none, false⟩]⟩,
   ⟨.curGal, 0x0600100, [(64, 0x8)], .none, [⟨25, 0, .rw, 0x0, none, false⟩]⟩,
   ⟨.curGalR, 0x0600104, [(64, 0x8)], .none, [⟨7, 0, .rw, 0x0, none, false⟩, ⟨11, 8, .rw, 0x0, some (0, 15), false⟩]⟩]

/-- BRL block (R363). -/
def regsBrl : List RegSpec :=
  [⟨.brlCtrl, 0x0800000, [], .none, [⟨0, 0, .rw, 0x0, none, false⟩]⟩,
   ⟨.brlId, 0x0800004, [], .brl, [⟨16, 0, .rwl, 0x0, none, true⟩]⟩,
   ⟨.brlMachine, 0x0800008, [], .brl, [⟨7, 0, .rwl, 0x0, none, true⟩]⟩,
   ⟨.brlEtype, 0x080000C, [], .brl, [⟨15, 0, .rwl, 0x88B5, none, true⟩]⟩,
   ⟨.brlUpCfg, 0x0800010, [], .brl, [
      ⟨7, 0, .rws, 0x7F, none, false⟩,
      ⟨14, 12, .rwl, 0x5, none, true⟩,
      ⟨18, 16, .rwl, 0x7, none, true⟩]⟩,
   ⟨.brlMacsec, 0x0800014, [], .brl, [⟨7, 0, .rwl, 0x0, none, true⟩]⟩,
   ⟨.brlPos, 0x0800018, [], .none, [⟨6, 0, .ro, 0x0, none, false⟩]⟩,
   ⟨.brlPortCtrl, 0x0800100, [(32, 0x10)], .none, [⟨0, 0, .rw, 0x0, none, false⟩]⟩,
   ⟨.brlPortStat, 0x0800104, [(32, 0x10)], .none, [
      ⟨2, 0, .ro, 0x0, none, false⟩,
      ⟨7, 3, .ro, 0x0, none, false⟩,
      ⟨24, 8, .ro, 0x0, none, false⟩]⟩]

/-- BEAT block (R398). -/
def regsBeat : List RegSpec :=
  [⟨.beatCtrl, 0x0A00000, [], .beat, [⟨0, 0, .rw, 0x0, none, false⟩, ⟨1, 1, .rwl, 0x0, none, true⟩]⟩,
   ⟨.beatCfg, 0x0A00004, [], .beat, [⟨4, 0, .rwl, 0x7, some (1, 31), true⟩]⟩,
   ⟨.beatCntLo, 0x0A00008, [], .beat, [⟨31, 0, .rwl, 0x0, none, false⟩]⟩,
   ⟨.beatCntHi, 0x0A0000C, [], .beat, [⟨31, 0, .rwl, 0x0, none, false⟩]⟩,
   ⟨.beatUpPeer, 0x0A00010, [(2, 0x4)], .beat, [
      ⟨16, 0, .rwl, 0x0, none, true⟩,
      ⟨19, 17, .rwl, 0x0, none, true⟩,
      ⟨31, 31, .rwl, 0x0, none, true⟩]⟩,
   ⟨.beatStat, 0x0A00020, [], .none, [
      ⟨2, 0, .ro, 0x0, none, false⟩,
      ⟨7, 4, .ro, 0x0, none, false⟩,
      ⟨13, 8, .ro, 0x0, none, false⟩]⟩,
   ⟨.beatOfs, 0x0A00024, [], .none, [⟨31, 0, .ro, 0x0, none, false⟩]⟩,
   ⟨.beatMap, 0x0A00028, [], .none, [⟨15, 0, .ro, 0x0, none, false⟩, ⟨31, 16, .ro, 0x0, none, false⟩]⟩,
   ⟨.beatQLo, 0x0A0002C, [], .none, [⟨31, 0, .ro, 0x0, none, false⟩]⟩,
   ⟨.beatQHi, 0x0A00030, [], .none, [⟨31, 0, .ro, 0x0, none, false⟩]⟩,
   ⟨.beatGal, 0x0A00100, [(64, 0x4)], .none, [⟨10, 0, .rw, 0x10, some (0, 1024), false⟩]⟩]

/-- PLN block (R305, R317). -/
def regsPln : List RegSpec :=
  [⟨.stkCtrl, 0x1000000, [(8, 0x100000)], .none, [⟨0, 0, .rw, 0x0, none, false⟩]⟩,
   ⟨.schint, 0x1000004, [(8, 0x100000)], .none, [⟨1, 0, .rws, 0x1, none, false⟩, ⟨3, 2, .rws, 0x0, none, false⟩]⟩,
   ⟨.keepLo, 0x1000010, [(8, 0x100000), (4, 0x8)], .none, [⟨27, 10, .rws, 0x0, none, false⟩]⟩,
   ⟨.keepHi, 0x1000014, [(8, 0x100000), (4, 0x8)], .none, [⟨27, 10, .rws, 0x0, none, false⟩]⟩,
   ⟨.rfCfg, 0x1000040, [(8, 0x100000)], .stk, [⟨10, 0, .rwl, 0x380, none, true⟩, ⟨26, 16, .rwl, 0x340, none, true⟩]⟩,
   ⟨.rfSlot, 0x1000044, [(8, 0x100000)], .none, [⟨4, 0, .rws, 0x0, none, false⟩]⟩,
   ⟨.rfStat, 0x1000048, [(8, 0x100000)], .none, [⟨10, 0, .ro, 0x0, none, false⟩, ⟨16, 16, .ro, 0x0, none, false⟩]⟩,
   ⟨.scrubCfg, 0x100004C, [(8, 0x100000)], .none, [⟨7, 0, .rw, 0x1, none, false⟩]⟩,
   ⟨.tStat, 0x1000060, [(8, 0x100000)], .none, [
      ⟨9, 0, .ro, 0x0, none, false⟩,
      ⟨25, 16, .ro, 0x0, none, false⟩,
      ⟨29, 28, .ro, 0x0, none, false⟩]⟩,
   ⟨.rprCmd, 0x1000100, [(8, 0x100000)], .none, [⟨3, 0, .wo, 0x0, none, false⟩, ⟨12, 4, .wo, 0x0, none, false⟩]⟩,
   ⟨.rprAddr, 0x1000104, [(8, 0x100000)], .none, [⟨27, 0, .rw, 0x0, none, false⟩]⟩,
   ⟨.rprStat, 0x1000108, [(8, 0x100000)], .none, [⟨0, 0, .ro, 0x0, none, false⟩, ⟨15, 8, .ro, 0x0, none, false⟩]⟩,
   ⟨.rprSpares, 0x100010C, [(8, 0x100000)], .none, [
      ⟨7, 0, .ro, 0x0, none, false⟩,
      ⟨10, 8, .ro, 0x0, none, false⟩,
      ⟨19, 16, .ro, 0x0, none, false⟩]⟩,
   ⟨.rprData, 0x1000120, [(8, 0x100000), (18, 0x4)], .none, [⟨31, 0, .rw, 0x0, none, false⟩]⟩]

/-- SEC block (R450). -/
def regsSec : List RegSpec :=
  [⟨.secStat, 0x2000000, [], .none, [
      ⟨1, 0, .ro, 0x0, none, false⟩,
      ⟨7, 4, .ro, 0x0, none, false⟩,
      ⟨8, 8, .ro, 0x0, none, false⟩,
      ⟨9, 9, .ro, 0x0, none, false⟩,
      ⟨10, 10, .ro, 0x0, none, false⟩,
      ⟨13, 12, .ro, 0x0, none, false⟩]⟩,
   ⟨.secSvn, 0x2000004, [], .none, [⟨31, 0, .ro, 0x0, none, false⟩]⟩,
   ⟨.secFloor, 0x2000008, [], .none, [⟨31, 0, .ro, 0x0, none, false⟩]⟩,
   ⟨.secRevoke, 0x200000C, [], .none, [⟨3, 0, .ro, 0x0, none, false⟩]⟩,
   ⟨.secFwCmd, 0x2000010, [], .none, [⟨1, 0, .wo, 0x0, none, false⟩]⟩,
   ⟨.secHallB, 0x2000100, [(64, 0x8)], .tdi, [⟨27, 16, .rwl, 0x0, none, false⟩]⟩,
   ⟨.secHallS, 0x2000104, [(64, 0x8)], .tdi, [⟨12, 0, .rwl, 0x0, some (0, 4096), false⟩]⟩,
   ⟨.secTdi, 0x2000400, [(64, 0x4)], .none, [⟨1, 0, .ro, 0x0, none, false⟩]⟩]

/-- CAT block (R471). -/
def regsCat : List RegSpec :=
  [⟨.catSnapLo, 0x2100000, [], .none, [⟨31, 12, .rw, 0x0, none, false⟩]⟩,
   ⟨.catSnapHi, 0x2100004, [], .none, [⟨31, 0, .rw, 0x0, none, false⟩]⟩,
   ⟨.catSnapCmd, 0x2100008, [], .none, [⟨0, 0, .wo, 0x0, none, false⟩]⟩,
   ⟨.catSnapStat, 0x210000C, [], .none, [⟨15, 0, .ro, 0x0, none, false⟩, ⟨16, 16, .ro, 0x0, none, false⟩]⟩,
   ⟨.catSnapLen, 0x2100010, [], .none, [⟨31, 0, .ro, 0x0, none, false⟩]⟩,
   ⟨.catRdLo, 0x2100020, [], .none, [⟨31, 12, .rw, 0x0, none, false⟩]⟩,
   ⟨.catRdHi, 0x2100024, [], .none, [⟨31, 0, .rw, 0x0, none, false⟩]⟩,
   ⟨.catRdCmd, 0x2100028, [], .none, [⟨2, 0, .wo, 0x0, none, false⟩]⟩,
   ⟨.catRdStat, 0x210002C, [], .none, [
      ⟨0, 0, .ro, 0x0, none, false⟩,
      ⟨1, 1, .ro, 0x0, none, false⟩,
      ⟨3, 2, .ro, 0x0, none, false⟩]⟩,
   ⟨.catWdog, 0x2100030, [], .none, [⟨15, 0, .rw, 0x0, none, false⟩]⟩,
   ⟨.catMark, 0x2100034, [], .none, [⟨31, 0, .wo, 0x0, none, false⟩]⟩,
   ⟨.catTrBase, 0x2100040, [], .trace, [⟨27, 16, .rwl, 0x0, none, true⟩]⟩,
   ⟨.catTrSize, 0x2100044, [], .trace, [⟨10, 0, .rwl, 0x0, some (0, 1024), true⟩]⟩,
   ⟨.catTrCtrl, 0x2100048, [], .trace, [⟨0, 0, .rwl, 0x0, none, false⟩, ⟨1, 1, .rwl, 0x0, none, false⟩]⟩,
   ⟨.catTrPost, 0x210004C, [], .trace, [⟨21, 0, .rwl, 0x0, none, false⟩]⟩,
   ⟨.catTrCmd, 0x2100050, [], .none, [⟨1, 0, .wo, 0x0, none, false⟩]⟩,
   ⟨.catTrStat, 0x2100054, [], .none, [
      ⟨1, 0, .ro, 0x0, none, false⟩,
      ⟨2, 2, .ro, 0x0, none, false⟩,
      ⟨3, 3, .ro, 0x0, none, false⟩]⟩,
   ⟨.catTrWptr, 0x2100058, [], .none, [⟨21, 0, .ro, 0x0, none, false⟩]⟩,
   ⟨.catTrTrig, 0x210005C, [], .none, [⟨21, 0, .ro, 0x0, none, false⟩]⟩,
   ⟨.catTrDrop, 0x2100060, [], .none, [⟨31, 0, .ro, 0x0, none, false⟩]⟩,
   ⟨.catTrRetrig, 0x2100064, [], .none, [⟨31, 0, .ro, 0x0, none, false⟩]⟩,
   ⟨.catTrBeatLo, 0x2100068, [], .trace, [⟨31, 0, .rwl, 0x0, none, false⟩]⟩,
   ⟨.catTrBeatHi, 0x210006C, [], .trace, [⟨31, 0, .rwl, 0x0, none, false⟩]⟩,
   ⟨.catPsamp, 0x2100070, [], .trace, [⟨4, 0, .rwl, 0x10, some (0, 31), false⟩]⟩,
   ⟨.catFltUnit, 0x2100080, [(4, 0x10)], .trace, [
      ⟨11, 0, .rwl, 0x0, none, false⟩,
      ⟨15, 12, .rwl, 0x0, some (0, 4), false⟩,
      ⟨27, 16, .rwl, 0x0, none, false⟩]⟩,
   ⟨.catFltEvt, 0x2100084, [(4, 0x10)], .trace, [⟨31, 0, .rwl, 0x0, none, false⟩]⟩,
   ⟨.catFltCtl, 0x2100088, [(4, 0x10)], .trace, [
      ⟨0, 0, .rwl, 0x0, none, false⟩,
      ⟨1, 1, .rwl, 0x0, none, false⟩,
      ⟨15, 8, .rwl, 0x0, none, false⟩]⟩]

/-- RAS block (R410). -/
def regsRas : List RegSpec :=
  [⟨.rasCtrl, 0x2200000, [], .none, [⟨0, 0, .rw, 0x0, none, false⟩]⟩,
   ⟨.rasIringLo, 0x2200004, [], .ras, [⟨31, 12, .rwl, 0x0, none, false⟩]⟩,
   ⟨.rasIringHi, 0x2200008, [], .ras, [⟨31, 0, .rwl, 0x0, none, false⟩]⟩,
   ⟨.rasIcfg, 0x220000C, [], .ras, [
      ⟨4, 0, .rwl, 0x6, some (6, 16), false⟩,
      ⟨15, 5, .rwl, 0x0, none, false⟩,
      ⟨16, 16, .rwl, 0x0, none, false⟩,
      ⟨20, 17, .rw, 0x1, some (1, 15), false⟩]⟩,
   ⟨.rasRate, 0x2200010, [], .none, [⟨7, 0, .rw, 0x4, some (1, 255), false⟩, ⟨11, 8, .rw, 0xA, none, false⟩]⟩,
   ⟨.rasQstat, 0x2200014, [], .none, [⟨10, 0, .ro, 0x0, none, false⟩, ⟨16, 16, .ro, 0x0, none, false⟩]⟩,
   ⟨.rasOvf, 0x2200018, [], .none, [⟨31, 0, .ro, 0x0, none, false⟩]⟩,
   ⟨.rasFenceCfg, 0x220001C, [], .none, [
      ⟨3, 0, .rw, 0x3, some (1, 15), false⟩,
      ⟨12, 8, .rw, 0x10, some (8, 24), false⟩]⟩,
   ⟨.rasFenceCmd, 0x2200020, [], .none, [⟨10, 0, .wo, 0x0, none, false⟩, ⟨13, 12, .wo, 0x0, none, false⟩]⟩,
   ⟨.rasConsCfg, 0x2200024, [], .none, [⟨3, 0, .rw, 0x3, some (1, 15), false⟩]⟩,
   ⟨.rasConsStat, 0x2200028, [], .none, [⟨6, 0, .ro, 0x0, none, false⟩, ⟨24, 16, .ro, 0x0, none, false⟩]⟩,
   ⟨.rasSrcSel, 0x2200030, [], .none, [⟨15, 0, .rw, 0x0, none, false⟩]⟩,
   ⟨.rasSrcClr, 0x2200034, [], .none, [⟨0, 0, .wo, 0x0, none, false⟩]⟩,
   ⟨.rasSrcData, 0x2200040, [(16, 0x4)], .none, [⟨31, 0, .ro, 0x0, none, false⟩]⟩,
   ⟨.rasFenceA, 0x2210000, [(2048, 0x8)], .none, [
      ⟨15, 0, .ro, 0x0, none, false⟩,
      ⟨16, 16, .ro, 0x0, none, false⟩,
      ⟨17, 17, .ro, 0x0, none, false⟩,
      ⟨18, 18, .ro, 0x0, none, false⟩]⟩,
   ⟨.rasFenceB, 0x2210004, [(2048, 0x8)], .none, [⟨31, 0, .ro, 0x0, none, false⟩]⟩]

/-- ANX block (R507). -/
def regsAnx : List RegSpec :=
  [⟨.anxCtrl, 0x2300000, [], .none, [⟨0, 0, .rw, 0x1, none, false⟩]⟩,
   ⟨.anxStat, 0x2300004, [], .none, [
      ⟨9, 0, .ro, 0x0, none, false⟩,
      ⟨16, 16, .ro, 0x0, none, false⟩,
      ⟨17, 17, .ro, 0x0, none, false⟩]⟩]

/-- MGT block (R509). -/
def regsMgt : List RegSpec :=
  [⟨.mgtCtrl, 0x2400000, [], .none, [⟨0, 0, .rw, 0x1, none, false⟩, ⟨1, 1, .rw, 0x1, none, false⟩]⟩,
   ⟨.mgtSmb, 0x2400004, [], .mgt, [⟨6, 0, .ro, 0x0, none, false⟩, ⟨9, 8, .rwl, 0x1, some (0, 2), false⟩]⟩,
   ⟨.mgtEid, 0x2400008, [], .none, [⟨7, 0, .ro, 0x0, none, false⟩]⟩,
   ⟨.mgtPthr, 0x240000C, [], .none, [⟨9, 0, .rw, 0x170, none, false⟩, ⟨25, 16, .rw, 0x184, none, false⟩]⟩,
   ⟨.mgtDthr, 0x2400010, [], .none, [⟨9, 0, .rw, 0x15C, none, false⟩, ⟨25, 16, .rw, 0x170, none, false⟩]⟩,
   ⟨.mgtPwr, 0x2400014, [], .none, [⟨10, 0, .ro, 0x0, none, false⟩]⟩]

/-- Every register, in ascending order of its block (R497). -/
def regTable : List RegSpec :=
  regsGlb ++ regsHif ++ regsDma ++ regsDoc ++ regsCur ++ regsBrl ++ regsBeat ++ regsPln ++ regsSec ++ regsCat ++ regsRas ++ regsAnx ++ regsMgt

/-- The specification of a register, by its name. -/
def regSpec (r : Reg) : RegSpec := (regTable.find? (fun x => x.reg == r)).getD ⟨r, 0, [], .none, []⟩

/-- Index of an offset above a register's base in its array, or none where no element stands. -/
def dimIndex : List (Nat × Nat) → Nat → Option (List Nat)
  | [], d => if d = 0 then some [] else none
  | (n, st) :: t, d => if d / st < n then (dimIndex t (d % st)).map (fun l => d / st :: l) else none

/-- The register at an offset of PF BAR0, with its array indices (R497); none where no register stands (R7). -/
def regAt (off : Nat) : Option (RegSpec × List Nat) :=
  regTable.findSome? (fun x => if x.base ≤ off then (dimIndex x.dims (off - x.base)).map (fun l => (x, l)) else none)

/-- Offset of an element of a register. -/
def regOff (r : Reg) (idx : List Nat) : Nat :=
  let x := regSpec r
  x.base + ((x.dims.zip idx).map (fun p => p.1.2 * p.2)).foldl (· + ·) 0

/-- Reset value of the writable fields of a register (R501). -/
def RegSpec.resetWord (x : RegSpec) : Word :=
  BitVec.ofNat 32 ((x.fields.map (fun f => match f.acc with
    | .rw | .rws | .rwl => f.rst * 2 ^ f.lo
    | _ => 0)).foldl (· + ·) 0)

/-- Word mask of a field. -/
def Field.mask (f : Field) : Nat := (2 ^ (f.hi + 1 - f.lo) - 1) * 2 ^ f.lo

/-- Word mask of the fields of a register with an access code. -/
def RegSpec.maskOf (x : RegSpec) (p : Field → Bool) : Nat := ((x.fields.filter p).map Field.mask).foldl (· + ·) 0

/-- The registers of the commit set with their elements, in ascending BAR0 offset (R483). -/
def commitSet : List (RegSpec × List Nat) :=
  let one (r : Reg) : List (RegSpec × List Nat) := [(regSpec r, [])]
  one .glbT1Base ++ one .glbT1Limit ++ one .glbT0Base ++ one .glbT0Count ++
  one .hifSumLo ++ one .hifSumHi ++ one .hifAckLo ++ one .hifAckHi ++ one .dmaCresv ++
  ((List.range 64).map (fun n => [(regSpec .docGal, [n]), (regSpec .docGalC, [n])])).flatten ++
  one .curKvBase ++ one .curKvFrames ++ one .curScBase ++ one .curTblBase ++ one .curTblLines ++
  one .brlId ++ one .brlMachine ++ one .brlEtype ++ one .brlUpCfg ++ one .brlMacsec ++
  one .beatCtrl ++ one .beatCfg ++ (List.range 2).map (fun k => (regSpec .beatUpPeer, [k])) ++
  (List.range 8).map (fun n => (regSpec .rfCfg, [n])) ++ one .catTrBase ++ one .catTrSize

/-- The word last written or accepted at an element of a register, its writable fields alone (R8). -/
def State.written (s : State) (r : Reg) (idx : List Nat) : Nat :=
  (Tbl.look s.regs (regOff r idx) (regSpec r).resetWord).toNat

/-- The value of a field as last written or accepted (R8). -/
def State.field (s : State) (r : Reg) (idx : List Nat) (hi lo : Nat) : Nat := bits (s.written r idx) hi lo

/-- The value of an RWS field in force (R8, R9). -/
def State.inEffect (s : State) (r : Reg) (idx : List Nat) (hi lo : Nat) : Nat :=
  match Tbl.find s.inForce (regOff r idx) with
  | some w => bits w.toNat hi lo
  | none => s.field r idx hi lo

/-- One bit of a field as a switch. -/
def State.flag (s : State) (r : Reg) (idx : List Nat) (i : Nat) : Bool := s.field r idx i i == 1

/-- Set a field. -/
def State.setField (s : State) (r : Reg) (idx : List Nat) (hi lo v : Nat) : State :=
  let w := BitVec.ofNat 32 (setBits (s.written r idx) hi lo v)
  { s with regs := Tbl.put s.regs (regOff r idx) w (regSpec r).resetWord }

end Sys2Proof.Machine
end

