-- ==== Sys2Proof/Machine/Ops.lean ====
section
/-! DEFINITION. The named operations over the state that every family of commands uses: its parts by number, what goes
out of the device, event rings and trace, incidents, completion records, acceptance of descriptors, and reads and
writes of device memory with their error accounting. -/

namespace Sys2Proof.Machine

/-! ### Parts of the state by number -/

/-- Physical core or channel that logical core `c` has at reset, as plinth × 264 + index (R18). -/
def resetPhys (c : Nat) : Nat := c / 256 * 264 + c % 256

/-- Logical core `c` at reset. -/
def resetCore (c : Nat) : Core := { phys := resetPhys c, chan := resetPhys c }

/-- Logical core `c`. -/
def State.core (s : State) (c : Nat) : Core := Tbl.look s.cores c (resetCore c)
def State.setCore (s : State) (c : Nat) (k : Core) : State := { s with cores := Tbl.put s.cores c k (resetCore c) }

/-- Handle entry `e` of a core. -/
def Core.handle (k : Core) (e : Nat) : Handle := Tbl.look k.handles e {}
def Core.setHandle (k : Core) (e : Nat) (h : Handle) : Core := { k with handles := Tbl.put k.handles e h {} }

/-- An accumulator bank of a core; `true` names bank 1. -/
def Core.bank (k : Core) (b : Bool) : Bank := if b then k.bank1 else k.bank0
def Core.setBank (k : Core) (b : Bool) (x : Bank) : Core := if b then { k with bank1 := x } else { k with bank0 := x }

/-- The channel controller of a logical core. -/
def State.chan (s : State) (c : Nat) : Chan := Tbl.look s.chans c {}
def State.setChan (s : State) (c : Nat) (x : Chan) : State := { s with chans := Tbl.put s.chans c x {} }

/-- Plinth `p`. -/
def State.plinth (s : State) (p : Nat) : Plinth := Tbl.look s.plinths p {}
def State.setPlinth (s : State) (p : Nat) (x : Plinth) : State := { s with plinths := Tbl.put s.plinths p x {} }

/-- Refresh debt of a core's channel in units of 1/1,024 operation (R306). -/
def State.debt (s : State) (c : Nat) : Nat := (s.plinth (c / 256)).accrued - 1024 * (s.chan c).rfDone

/-- Finisher of logical core `c` (R19). -/
def finisherOf (c : Nat) : Nat := c / 64
def State.fin (s : State) (f : Nat) : Finisher := Tbl.look s.fins f {}
def State.setFin (s : State) (f : Nat) (x : Finisher) : State := { s with fins := Tbl.put s.fins f x {} }

/-- Stream context `k`. -/
def State.ctx (s : State) (k : Nat) : Ctx := Tbl.look s.doc.ctxs k {}
def State.setCtx (s : State) (k : Nat) (x : Ctx) : State :=
  { s with doc := { s.doc with ctxs := Tbl.put s.doc.ctxs k x {} } }

/-- Submission ring `r`. -/
def State.ring (s : State) (r : Nat) : Ring := Tbl.look s.hif.rings r {}
def State.setRing (s : State) (r : Nat) (x : Ring) : State :=
  { s with hif := { s.hif with rings := Tbl.put s.hif.rings r x {} } }

/-- Page-table entry `n`. -/
def State.page (s : State) (n : Nat) : Page := Tbl.look s.cur.pages n {}
def State.setPage (s : State) (n : Nat) (x : Page) : State :=
  { s with cur := { s.cur with pages := Tbl.put s.cur.pages n x {} } }

/-- Frame `f` of logical core `c`. -/
def State.frame (s : State) (c f : Nat) : Frame := Tbl.look s.cur.frames (c * 16384 + f) {}
def State.setFrame (s : State) (c f : Nat) (x : Frame) : State :=
  { s with cur := { s.cur with frames := Tbl.put s.cur.frames (c * 16384 + f) x {} } }

/-- Map of stream `k`. -/
def State.kvMap (s : State) (k : Nat) : KvMap := Tbl.look s.cur.maps k {}
def State.setKvMap (s : State) (k : Nat) (x : KvMap) : State :=
  { s with cur := { s.cur with maps := Tbl.put s.cur.maps k x {} } }

/-- Breosh port `p`. -/
def State.port (s : State) (p : Nat) : Port := Tbl.look s.fab.ports p {}
def State.setPort (s : State) (p : Nat) (x : Port) : State :=
  { s with fab := { s.fab with ports := Tbl.put s.fab.ports p x {} } }

/-- Remote window `w`. -/
def State.window (s : State) (w : Nat) : Window := Tbl.look s.fab.windows w {}
def State.setWindow (s : State) (w : Nat) (x : Window) : State :=
  { s with fab := { s.fab with windows := Tbl.put s.fab.windows w x {} } }

/-- TDI of VF `n`. -/
def State.tdi (s : State) (n : Nat) : TdiSt := Tbl.look s.sec.tdis n .unlocked
def State.setTdi (s : State) (n : Nat) (x : TdiSt) : State :=
  { s with sec := { s.sec with tdis := Tbl.put s.sec.tdis n x .unlocked } }

/-! ### Time and running -/

/-- The number of the current beat (R398, R489). -/
def State.beat (s : State) : Nat := s.fab.beat.cnt

/-- Whether the beat unit is OFF (R369, R531). -/
def State.beatOff (s : State) : Bool := s.fab.beat.st == .off

/-- Whether the device is locked to the beat or its root (R490). -/
def State.locked (s : State) : Bool := s.fab.beat.st == .root || s.fab.beat.st == .locked

/-- The beat in which something now issued is issued; none while the unit is OFF, for that is before the next boundary
(R22, R489). -/
def State.issueBeat (s : State) : Option Nat := if s.beatOff then none else some s.beat

/-- The beat in µs (R398). -/
def State.beatUs (s : State) : Nat := s.field .beatCfg [] 4 0 + 1

/-- Whether the device is powered and clocked, and past the secure boot (R450, R519, R524). -/
def State.alive (s : State) : Bool := s.ctl.power == .on && s.sec.st != .fail

/-- Whether the device does its work: state RUN (R472, R473). -/
def State.running (s : State) : Bool := s.alive && s.ctl.st == .run

/-- Whether the device is in HOLD (R473). -/
def State.inHold (s : State) : Bool := s.alive && s.ctl.st == .hold

/-- Whether BAR0 is served in full: the device is up and step 3 of start-up has ended (R477, R501). -/
def State.barUp (s : State) : Bool := s.alive && decide (3 ≤ s.ctl.bootStep)

/-- Draw `n` free values. -/
def State.draw (s : State) (n : Nat) : State := { s with free := s.free + n }

/-! ### Out of the device -/

/-- Send something out. -/
def State.emit (s : State) (o : Out) : State := { s with out := s.out ++ [o] }

/-- Whether a reset that runs keeps a function's memory from being used (R263). -/
def State.cutOff (s : State) (func : Nat) : Bool := s.hif.inReset.contains func

/-- Posted write to the memory of a function; none while a reset of it runs (R263). -/
def State.hostWrite (s : State) (func addr : Nat) (b : Bytes) : State :=
  if s.cutOff func then s else s.emit (.hostWrite func addr b)

/-- Issue a read of host memory; none while a reset of the function runs (R263). -/
def State.hostRead (s : State) (func : Nat) (what : HostRead) (addr len : Nat) : State :=
  if s.cutOff func then s else s.emit (.hostRead func what addr len)

/-- Word `k` of MSI-X table entry `v` of a function; the vector-control word resets with its mask set (R231). -/
def State.msixWord (s : State) (func v k : Nat) : Word :=
  Tbl.look s.hif.msixTable (func * 2 ^ 20 + 16 * v + 4 * k) (if k = 3 then 1 else 0)

/-- Send an MSI-X message, or set its pending bit while it is masked (R261). -/
def State.msix (s : State) (func v : Nat) : State :=
  if s.cutOff func then s
  else if (s.msixWord func v 3).toNat % 2 = 1 then
    { s with hif := { s.hif with msixPend := Tbl.put s.hif.msixPend (func * 2048 + v) true false } }
  else s.emit (.msix func v)

/-! ### Event rings and trace (R456 to R466) -/

/-- SOURCE values (R405). -/
def srcCore (c : Nat) : Nat := c
def srcChan (c : Nat) : Nat := 0x1000 + c
def srcPlinth (p : Nat) : Nat := 0x2000 + p
def srcHub (u : Nat) : Nat := 0x3000 + u
def srcPort (p : Nat) : Nat := 0x4000 + p
def srcRing (r : Nat) : Nat := 0x5000 + r

/-- Hub units of R405. -/
def hubHost : Nat := 0
def hubDma : Nat := 1
def hubDocent : Nat := 2
def hubCurator : Nat := 3
def hubConservator : Nat := 4
def hubHall : Nat := 5
def hubReduction : Nat := 6
def hubAnnex : Nat := 7
def hubBeat : Nat := 8
def hubCarousel : Nat := 9
def hubSecurity : Nat := 10
def hubConfig : Nat := 11

/-- The FIFO by which a unit's trace records reach the hub: its plinth's, or 8 for units on the hub (R465). -/
def traceFifo (unit : Nat) : Nat :=
  match unit / 4096 with
  | 0 | 1 => unit % 4096 / 256
  | 2 => unit % 4096
  | _ => 8

/-- Whether filter k matches a record of a unit (R465). -/
def State.filterHit (s : State) (k unit event status : Nat) : Bool :=
  unit / 4096 == s.field .catFltUnit [k] 15 12 &&
    decide (s.field .catFltUnit [k] 11 0 ≤ unit % 4096) && decide (unit % 4096 ≤ s.field .catFltUnit [k] 27 16) &&
    decide (event < 32) && bit (s.written .catFltEvt [k]) event && decide (s.field .catFltCtl [k] 15 8 ≤ status)

/-- Offer a record to the trace (R465, R466): a triggering record that finds its FIFO full takes the youngest one's
place, any other is dropped there. -/
def State.traceOffer (s : State) (unit event status fine : Nat) (rec16 : Line16) : State :=
  let t := s.cat.trace
  let live := t.st == .armed || t.st == .triggered
  let rec_ := (List.range 4).any (fun k => s.flag .catFltCtl [k] 0 && s.filterHit k unit event status)
  let trig := (List.range 4).any (fun k => s.flag .catFltCtl [k] 1 && s.filterHit k unit event status)
  if !live || !(rec_ || trig) then s
  else
    let f := traceFifo unit
    let q := Tbl.look t.fifos f []
    let r : TraceRec := { rec16 := rec16, unit := unit, beatHi := bits s.beat 47 16, fine := fine, keep := rec_, trig := trig }
    let full := decide (f < 8) && decide (256 ≤ q.length)
    let trigNow := trig && t.st == .armed
    if full && !trigNow then
      { s with cat := { s.cat with trace := { t with drop := min (t.drop + 1) (2 ^ 32 - 1), gap := t.gap + 1 } } }
    else
      let q' := if full then q.dropLast ++ [r] else q ++ [r]
      let lost := if full then 1 else 0
      { s with cat := { s.cat with trace := { t with
          fifos := Tbl.put t.fifos f q' [], drop := min (t.drop + lost) (2 ^ 32 - 1), gap := t.gap + lost } } }

/-- Record an event in a unit's ring (R456, R457, R461): the record and its FINE time as well. CLK, and FINE of a packet,
are times the model takes as free values. -/
def State.eventRec (s : State) (unit code status arg0 arg1 : Nat) : State × Line16 × Nat :=
  let clk := Config.freeNat s.free % (1000 * s.beatUs)
  let fine := if code = 8 ∨ code = 9 then Config.freeNat (s.free + 1) % (16000 * s.beatUs) else 0
  let s := s.draw 2
  let rec16 : Line16 := BitVec.ofNat 128 (clk % 32768 + bits s.beat 15 0 * 2 ^ 16 + code % 256 * 2 ^ 32 +
    status % 256 * 2 ^ 40 + arg0 % 65536 * 2 ^ 48 + arg1 % 2 ^ 64 * 2 ^ 64)
  let u := if 5 ≤ unit / 4096 then srcHub hubHost else unit
  let r := Tbl.look s.cat.rings u {}
  let r' : EvRing := if s.cat.frozen then { r with lost := (r.lost + 1) % 2 ^ 32 }
    else { r with widx := (r.widx + 1) % 2 ^ 32, recs := (r.recs ++ [rec16]).drop (r.recs.length + 1 - 64) }
  ({ s with cat := { s.cat with rings := Tbl.put s.cat.rings u r' {} } }, rec16, fine)

/-- Record an event and offer it to the trace (R465). -/
def State.event (s : State) (unit code status arg0 arg1 : Nat) : State :=
  let r := s.eventRec unit code status arg0 arg1
  r.1.traceOffer (if 5 ≤ unit / 4096 then srcHub hubHost else unit) code status r.2.2 r.2.1

/-- Freeze every ring (R461). -/
def State.freezeRings (s : State) (cause : Nat) : State :=
  if s.cat.frozen then s else { s with cat := { s.cat with frozen := true, fcause := cause } }

/-- An operation's identity (R459). -/
def Op.identity (o : Op) : Nat :=
  let ring := match o.org with | .ring r _ => r.val | .step _ => 0xFFF
  let idx := match o.org with | .ring _ i => i.toNat | .step _ => o.num % 2 ^ 32
  o.opcode % 256 + o.cls % 4 * 2 ^ 8 + ring * 2 ^ 10 + idx * 2 ^ 22

/-- Host's tag of an operation, 0 for one of a step program (R458). -/
def Op.tag (o : Op) : Nat := match o.org with | .ring _ _ => fld o.d 2 15 0 | .step _ => 0

/-- Keep the operations under way: one starts with its START record and ends with its COMPLETE record (R458, R462). -/
def State.noteStart (s : State) (unit code : Nat) (o : Op) : State :=
  let others := s.cat.started.filter (fun x => x.op != o.id)
  let l := if code = 2 then others ++ [{ op := o.id, unit := unit, identity := o.identity, beat := s.beat }]
    else if code = 3 then others else s.cat.started
  { s with cat := { s.cat with started := l } }

/-- ISSUE, START, COMPLETE and REFUSE records of an operation (R458). -/
def State.opEvent (s : State) (unit code : Nat) (o : Op) (st : Status) : State :=
  (s.event unit code st.code o.tag o.identity).noteStart unit code o

/-- Every status of R11. -/
def statusList : List Status :=
  [.ok, .okSubstituted, .badDescriptor, .badHandle, .quotaExceeded, .precisionMismatch, .budgetExceeded, .genInUse,
    .lockedField, .blockShort, .blockLong, .sparseDensity, .operandBound, .codeRange, .weightUeRetry, .arrayUe,
    .residueFault, .remoteWindowClosed, .linkDown, .slotMissed, .beatLost, .stopped, .internal]

/-! ### Waits (R460)

The model has no clk: how long a wait lasts is a free value. A wait that an attempt meets begins at the attempt and ends when
its operation goes on; one that a step holds within itself begins and ends there. -/

/-- Whether a wait under way is the one named. -/
def Wait.is (w : Wait) (unit cause ident : Nat) : Bool := w.unit == unit && w.cause == cause && w.ident == ident

/-- A wait begins, unless it is under way: one of 64 clk or more writes a WAIT record (R460). -/
def State.waitBegin (s : State) (unit cause ident : Nat) : State :=
  if s.cat.waits.any (fun w => w.is unit cause ident) then s
  else
    let n := 1 + Config.freeNat s.free
    let s1 := State.draw { s with cat := { s.cat with
      waits := s.cat.waits ++ [{ unit := unit, cause := cause, ident := ident, clk := n }] } } 1
    if 64 ≤ n then s1.event unit 0x04 0 cause ident else s1

/-- A wait ends: its clk count in a counter, where it has one, and one of 64 clk or more writes a RESUME record (R460). -/
def State.waitEnd (s : State) (unit cause ident : Nat) (c : Option (Ctr × Nat)) : State :=
  match s.cat.waits.find? (fun w => w.is unit cause ident) with
  | none => s
  | some w =>
    let s1 : State := { s with cat := { s.cat with waits := s.cat.waits.filter (fun x => !x.is unit cause ident) } }
    let s2 := match c with | none => s1 | some x => s1.count x.1 x.2 w.clk
    if 64 ≤ w.clk then s2.event unit 0x05 0 cause ident else s2

/-- A wait of a free number of clk, none among them, that begins and ends within a step (R460). -/
def State.waitFree (s : State) (unit cause ident : Nat) (c : Option (Ctr × Nat)) : State :=
  let n := Config.freeNat s.free
  let s1 := s.draw 1
  let s2 := match c with | none => s1 | some x => s1.count x.1 x.2 n
  if 64 ≤ n then (s2.event unit 0x04 0 cause ident).event unit 0x05 0 cause ident else s2

/-- The waits of an operation that has been dropped are over. -/
def State.waitsDrop (s : State) (ident : Nat → Bool) : State :=
  { s with cat := { s.cat with waits := s.cat.waits.filter (fun w => !ident w.ident) } }

/-! ### Incidents (R404 to R408) -/

/-- Incident classes of R400. -/
def clsCorrected : Nat := 0
def clsUe : Nat := 1
def clsResidue : Nat := 2
def clsControl : Nat := 3
def clsLink : Nat := 4
def clsThermal : Nat := 5

/-- Window number of a window of 2^k beats or local ticks (R408, R412, R531). -/
def State.windowNo (s : State) (k : Nat) : Nat := s.cat.wbeat / 2 ^ k

/-- Put a record at the end of the queue for its source. -/
def State.queueIncident (s : State) (r : Incident) : State := { s with ras := { s.ras with queue := s.ras.queue ++ [r] } }

/-- A source's registers. -/
def State.source (s : State) (n : Nat) : Source := Tbl.look s.ras.sources n {}
def State.setSource (s : State) (n : Nat) (x : Source) : State :=
  { s with ras := { s.ras with sources := Tbl.put s.ras.sources n x {} } }

/-- Records a source has queued in the current rate window. -/
def State.queuedNow (s : State) (x : Source) : Nat :=
  if x.window = s.windowNo (s.field .rasRate [] 11 8) then x.queued else 0

/-- Count one record of a source as queued in the current window. -/
def State.markQueued (s : State) (x : Source) : Source :=
  { x with queued := s.queuedNow x + 1, window := s.windowNo (s.field .rasRate [] 11 8) }

/-- One occurrence of an incident (R408). -/
def State.incident (s : State) (cls event : Nat) (st : Status) (src : Nat) (detail detail2 : Nat) : State :=
  let x := s.source src
  let first := x.first.isNone
  let r : Incident := { cls := cls, event := event, status := st, first := first, source := src
                        count := min (x.count + 1) (2 ^ 32 - 1), beat := s.beat % 2 ^ 32
                        detail := BitVec.ofNat 64 detail, detail2 := BitVec.ofNat 32 detail2 }
  let room := decide (s.ras.queue.length < 1024)
  let rate := decide (s.queuedNow x < s.field .rasRate [] 7 0)
  let lost := if x.mark == .none_ then 0 else 1
  let s1 : State := { s with ras := { s.ras with ovf := min (s.ras.ovf + lost) (2 ^ 32 - 1) } }
  let x1 : Source := { x with count := r.count, last := some r, first := if first then some r else x.first }
  let s2 := if rate && room then (s1.setSource src { s1.markQueued x1 with mark := .none_ }).queueIncident r
    else if first then s1.setSource src { x1 with firstWaits := true, mark := .none_ }
    else s1.setSource src { x1 with mark := if rate then .queue else .rate
                                    markWindow := s1.windowNo (s1.field .rasRate [] 11 8) }
  s2.event src 0x0C 0 event detail

/-- Step 1 of filling free entries: waiting FIRST records in ascending source number (R408). -/
def State.fillFirsts : List Nat → State → State
  | [], s => s
  | n :: t, s =>
    let x := s.source n
    if x.firstWaits && decide (s.ras.queue.length < 1024) then
      State.fillFirsts t (match x.first with
        | none => s
        | some r => (s.setSource n { x with firstWaits := false }).queueIncident r)
    else State.fillFirsts t s

/-- Step 2: pending LAST records in one pass, each with LATE = 1 (R408). -/
def State.fillLates : List Nat → State → State
  | [], s => s
  | n :: t, s =>
    let x := s.source n
    let w := s.windowNo (s.field .rasRate [] 11 8)
    if decide (1024 ≤ s.ras.queue.length) then s
    else
      let late (y : Source) : State := match x.last with
        | none => s
        | some r => (s.setSource n { y with mark := .none_ }).queueIncident { r with late := true, first := false }
      State.fillLates t (match x.mark with
        | .none_ => s
        | .queue => if s.queuedNow x < s.field .rasRate [] 7 0 then late (s.markQueued x)
            else s.setSource n { x with mark := .rate, markWindow := w }
        | .rate => if x.markWindow != w then late x else s)

/-- Fill free queue entries (R408). -/
def State.fillQueue (s : State) : State :=
  let ns := s.ras.sources.map Prod.fst
  State.fillLates ns (State.fillFirsts ns s)

/-! ### Completion records (R254) -/

/-- Base address of a ring's structure from its LO and HI registers. -/
def State.ringAddr (s : State) (lo hi : Reg) (r : Nat) : Nat := s.written lo [r] + s.written hi [r] * 2 ^ 32

/-- Number of entries of a ring (R235). -/
def State.ringSize (s : State) (r : Nat) : Nat := 2 ^ s.field .hifRcfg [r] 5 1

/-- Difference of two free-running 32-bit counts (R237). -/
def cdiff (a b : Word) : Nat := (a - b).toNat

/-- Descriptors of a ring in flight (R249). -/
def State.inflightOf (s : State) (r : Nat) : List Op :=
  s.hif.inflight.filter (fun o => match o.org with | .ring q _ => q.val == r | .step _ => false)

/-- Whether a ring is active (R235). -/
def State.ringActive (s : State) (r : Nat) : Bool :=
  s.flag .hifRcfg [r] 0 || !(s.inflightOf r).isEmpty ||
    (match s.hif.poll with | none => false | some p => p.fetched.any (fun e => e.ring.val == r))

/-- Append R239's CRC and a phase byte to the first 28 bytes of a 32 B record (R254, R404). -/
def sealRecord (b : Bytes) (phase : Nat) : Bytes :=
  let tail : Bytes := [BitVec.ofNat 8 phase, 0]
  b ++ toLE 2 (crc16 (b ++ tail)) ++ tail

/-- A record of a completion ring is owed a message: after the records of its beat, or at the end of the interval in which it is
written (R260). -/
def State.ringInterrupt (s : State) (r : Nat) : State :=
  if s.flag .hifRcfg [r] 19 then s.setRing r { s.ring r with intPend := true } else s

/-- Announce a ring's records: its message, and an interval of ICOAL beats begins (R260). -/
def State.ringMessage (s : State) (r : Nat) : State :=
  (s.setRing r { s.ring r with intLeft := s.field .hifRcfg [r] 23 20 + 1, intPend := false, intEnd := false }).msix (r / 64)
    (s.field .hifRcfg [r] 18 8)

/-- The messages of the ended beat: one for each ring that wrote records and is in no interval (R260). -/
def State.ringMessages (s : State) : State :=
  (s.hif.rings.filter (fun e => e.2.intPend && decide (e.2.intLeft = 0))).foldl (fun s e => s.ringMessage e.1) s

/-- Write the next record of a completion ring (R254, R255). -/
def State.ringRecord (s : State) (r tag opcode status cause off result index : Nat) : State :=
  let x := s.ring r
  let w := x.cw.toNat
  let body := toLE 2 tag ++ toLE 2 r ++ toLE 1 opcode ++ toLE 1 status ++ toLE 1 cause ++ toLE 1 off ++
    toLE 8 result ++ toLE 4 index ++ toLE 4 x.fidx.toNat ++ toLE 4 s.beat
  let phase := (w / s.ringSize r + 1) % 2
  ((s.hostWrite (r / 64) (s.ringAddr .hifCqLo .hifCqHi r + 32 * (w % s.ringSize r)) (sealRecord body phase)).setRing r
    { x with cw := x.cw + 1 }).ringInterrupt r

/-- What a completed operation leaves: its status, the cause and offending byte of a refusal, and its result. -/
structure Done where
  st     : Status
  cause  : Nat := 0
  off    : Nat := 0
  result : Nat := 0
  deriving DecidableEq, Repr

/-- The record of one descriptor, if it is still in flight; a discarded one gets none (R255, R263). -/
def State.recordOp (s : State) (r : Nat) (index : Nat) (o : Op) (x : Done) : State :=
  if s.hif.inflight.any (fun p => p.id == o.id) then
    let s1 : State := { s with hif := { s.hif with inflight := s.hif.inflight.filter (fun p => p.id != o.id) } }
    s1.ringRecord r (fld o.d 2 15 0) o.opcode x.st.code x.cause x.off x.result index
  else s

/-- Complete the FENCE of a ring once no earlier descriptor of it is in flight (R253). -/
def State.settleFence (s : State) (r : Nat) : State :=
  match s.hif.fences.find? (fun f => (match f.org with | .ring q _ => q.val == r | .step _ => false) &&
      (s.inflightOf r).all (fun p => decide (f.id ≤ p.id))) with
  | none => s
  | some f =>
    let s1 : State := { s with hif := { s.hif with fences := s.hif.fences.filter (fun p => p.id != f.id) } }
    let idx := match f.org with | .ring _ i => i.toNat | .step _ => 0
    (s1.opEvent (srcHub hubHost) 3 f .ok).recordOp r idx f { st := .ok }

/-- The status a step-program operation leaves with its lane group: every member meets it (R403), and an uncorrectable
error or a residue fault breaks a condition of R224 (R427). -/
def LaneGroup.note (g : LaneGroup) (id : Nat) (st : Status) : LaneGroup :=
  { g with
    outstanding := g.outstanding.filter (fun n => n != id)
    broke := g.broke ++ (if st == .arrayUe || st == .weightUeRetry then [1] else if st == .residueFault then [2] else [])
    members := if st == .ok || st == .okSubstituted then g.members
      else g.members.map (fun m => { m with status := m.status.max st }) }

/-- Declared cost of an operation of a step program (R213). -/
def Op.tcost (o : Op) : Nat := match o.org with | .ring _ _ => 0 | .step _ => fld o.d 4 23 0

/-- Count an instance of a step program's tile or ATTN that ran longer than its TCOST: its clk are a free value (R214). -/
def State.countOverrun (s : State) (o : Op) : State :=
  match o.org with
  | .ring _ _ => s
  | .step _ =>
    if decide (0x62 ≤ o.opcode) && decide (o.opcode ≤ 0x64) then
      (s.draw 1).countIf (decide (o.tcost < Config.freeNat s.free)) .tileOverrun 0
    else s

/-- Complete an operation: its record on its ring (R254), or its place in its lane group's step (R213, R403). -/
def State.complete (s : State) (unit : Nat) (o : Op) (x : Done) : State :=
  let refused := decide (0x10 ≤ x.st.code) && decide (x.st.code < 0x20)
  let s := (if refused then s else s.countOverrun o).opEvent unit (if refused then 6 else 3) o x.st
  match o.org with
  | .ring r i => (s.recordOp r.val i.toNat o x).settleFence r.val
  | .step g =>
    { s with doc := { s.doc with groups := s.doc.groups.map (fun l => if l.id = g then l.note o.id x.st else l) } }

/-! ### Acceptance of descriptors (R242, R532, R533) -/

/-- One refusal a check gives: its status and, for BAD_DESCRIPTOR, the offending byte. -/
structure Bad where
  st  : Status
  off : Nat := 0
  deriving DecidableEq, Repr

/-- A check: the refusal it gives where `bad` holds. -/
def need (bad : Bool) (st : Status) (off : Nat) : List Bad := if bad then [{ st := st, off := off }] else []

/-- A BAD_DESCRIPTOR check of the field at byte `off`. -/
def needOk (ok : Bool) (off : Nat) : List Bad := need (!ok) .badDescriptor off

/-- Bytes that must be zero: each one that is not is an offending byte (R6). -/
def needZero (d : Line64) (bytes : List Nat) : List Bad :=
  bytes.flatMap (fun o => need (fld d o 7 0 != 0) .badDescriptor o)

/-- Bits [hi:lo] of the field at byte `o` must be zero (R6): the byte that holds the lowest set bit is the offender. -/
def needBits (d : Line64) (o hi lo : Nat) : List Bad :=
  match (List.range (hi + 1 - lo)).find? (fun k => fbit d o (lo + k)) with
  | none => []
  | some k => [{ st := .badDescriptor, off := o + (lo + k) / 8 }]

/-- Byte offsets from `a` to `b`. -/
def byteRange (a b : Nat) : List Nat := (List.range (b + 1 - a)).map (fun i => a + i)

/-- What the checks of one step give together (R533): BAD_DESCRIPTOR with the first offending byte, or the
highest-numbered refusal. -/
def verdict (l : List Bad) (cause : Nat) : Option Done :=
  match minBy (fun (b : Bad) => b.off) (l.filter (fun b => b.st == .badDescriptor)) with
  | some b => some { st := .badDescriptor, cause := cause, off := b.off }
  | none => match l with
    | [] => none
    | l => some { st := worst (l.map (fun b => b.st)) }

/-- The first step whose checks fail decides (R242), but a BAD_DESCRIPTOR of a later step outranks any other refusal
(R533): `steps` pairs each step's checks with its cause code. -/
def firstVerdict (steps : List (List Bad × Nat)) : Option Done :=
  match steps.findSome? (fun p => match verdict p.1 p.2 with
      | some x => if x.st == .badDescriptor then some x else none
      | none => none) with
  | some x => some x
  | none => verdict ((steps.map Prod.fst).flatten) 5

/-- Whether an opcode fails step 4 of R242 on a ring of function `func`: PROG_LOAD (R211), ACCESSION (R325), COLL (R381),
QUIESCE (R378) and CAR_LOAD (R379) belong to the physical function, as do ATTN and a tile with WSRC = 0 (R447), and a hub
operation comes on no ring (R389). -/
def functionBad (d : Line64) (opcode func : Nat) : Bool :=
  opcode == 0x78 || (func != 0 && ([0x46, 0x6A, 0x74, 0x75, 0x76, 0x64].contains opcode ||
    ((opcode == 0x62 || opcode == 0x63) && !fbit d 11 5)))

/-- Whether the unit an opcode needs is disabled (R532). -/
def State.unitOff (s : State) (opcode : Nat) : Bool :=
  if decide (0x20 ≤ opcode) && decide (opcode ≤ 0x27) then !s.flag .dmaCtrl [] 0
  else if decide (0x40 ≤ opcode) && decide (opcode ≤ 0x45) then !s.flag .docCtrl [] 0 || !s.flag .curCtrl [] 0
  else if opcode = 0x46 then !s.flag .docCtrl [] 0 || !s.flag .glbMemCtrl [] 0
  else if opcode = 0x68 then !s.flag .curCtrl [] 0
  else if decide (0x69 ≤ opcode) && decide (opcode ≤ 0x6F) then !s.flag .glbMemCtrl [] 0
  else false

/-- Steps 4 and 5 of R242 and R532, common to every operation: each step's checks with its cause code. -/
def State.commonChecks (s : State) (o : Op) : List (List Bad × Nat) :=
  let d := o.d
  let stream := decide (0x40 ≤ o.opcode) && decide (o.opcode ≤ 0x45)
  let cls := o.opcode == 0x40 || o.opcode == 0x42
  let off := (need (s.unitOff o.opcode) .badDescriptor 0, 5)
  match o.org with
  | .ring r _ =>
    [(need (functionBad d o.opcode (r.val / 64)) .badDescriptor 0, 6),
     ((if cls then [] else needZero d [4]) ++ (if stream then needBits d 5 23 15 else needZero d [5, 6, 7]) ++
        needBits d 62 7 1 ++ needZero d [63], 4), off]
  | .step _ => [off]

/-- Gallery and class an origin acts for (R235, R238, R270). -/
def State.originGal (s : State) (o : Origin) : Nat :=
  match o with
  | .ring r _ => r.val / 64
  | .step g => match s.doc.groups.find? (fun l => l.id == g) with
    | none => 0
    | some l => (Tbl.look s.doc.progs l.prog {}).gal

def State.originCls (s : State) (o : Origin) : Nat :=
  match o with
  | .ring r _ => s.field .hifRcfg [r.val] 7 6
  | .step g => match s.doc.groups.find? (fun l => l.id == g) with | none => 3 | some l => l.cls

/-- Number within its step of the operation a lane group issues next (R459). -/
def State.originNum (s : State) (o : Origin) : Nat :=
  match o with
  | .ring _ _ => 0
  | .step g => ((s.doc.groups.find? (fun l => l.id == g)).map (fun l => l.next)).getD 0

/-- Take a descriptor or step operation in: a numbered operation, in flight if it came from a ring (R249). -/
def State.take (s : State) (o : Origin) (d : Line64) (opcode : Nat) : State × Op :=
  let op : Op := { id := s.nextOp, org := o, opcode := opcode, d := d, gal := s.originGal o, cls := s.originCls o
                   beat := s.beat, num := s.originNum o }
  let s := { s with nextOp := s.nextOp + 1 }
  match o with
  | .ring _ _ => ({ s with hif := { s.hif with inflight := s.hif.inflight ++ [op] } }, op)
  | .step g => ({ s with doc := { s.doc with groups := s.doc.groups.map (fun l =>
      if l.id = g then { l with outstanding := l.outstanding ++ [op.id] } else l) } }, op)

/-- Accept a descriptor or a step operation: refuse it with one status and nothing else done (R12, R242, R533), or give
it its effect. `checks` are the opcode's own, `effect` what acceptance does. A device that is not in RUN accepts
nothing (R473). -/
def State.accept (s : State) (unit : Nat) (o : Origin) (d : Line64) (opcode : Nat)
    (checks : State → Op → List Bad) (effect : State → Op → State) : State :=
  if !s.running then s
  else
    let t := s.take o d opcode
    match firstVerdict (t.1.commonChecks t.2 ++ [(checks t.1 t.2, 5)]) with
    | some x => t.1.complete unit t.2 x
    | none => effect t.1 t.2

/-! ### Device memory with its error accounting -/

/-- Drop the stream-cache lines a write to a channel overlaps (R100, R299). -/
def State.dropLines (s : State) (c a n : Nat) : State :=
  if n = 0 then s else
  let k := s.core c
  let kept := (k.cache.map (fun st =>
    (st.1, st.2.filter (fun l => !(decide (a / 64 ≤ l.line) && decide (l.line ≤ (a + n - 1) / 64)))))).filter
      (fun st => !st.2.isEmpty)
  s.setCore c { k with cache := kept }

/-- A gallery's budget of bursts in a channel and beat: floor(PCT × 19.2 × T_b / 6,400) (R303). -/
def State.bwBudget (s : State) (g : Nat) : Nat := 3 * s.inEffect .glbBw [g] 6 0 * s.beatUs

/-- Whether a channel's controller takes no request of a client: it is not enabled, or the client's gallery has spent its budget
(R303, R305). -/
def State.chanOff (s : State) (c : Nat) : Bool := !s.flag .stkCtrl [c / 256] 0
def State.bwSpent (s : State) (c : Nat) (gal : Option Nat) : Bool :=
  match gal with
  | none => false
  | some g => decide (s.bwBudget g ≤ Tbl.look (s.chan c).used g 0)
def State.chanShut (s : State) (c : Nat) (gal : Option Nat) : Bool := s.chanOff c || s.bwSpent c gal

/-- The gallery a regulator charges for an operation's channel traffic: that of a ring's own (R304). -/
def Op.charged (o : Op) : Option Nat := match o.org with | .ring _ _ => some o.gal | .step _ => none

/-- Note the traffic of one run of an operation on a channel (R295, R303, R319): a turn-round, the wait for a bank's row cycle as a
free value of up to 27 ck where it opens a row, and the bursts charged. DESIGN CHOICE: an operation's run is charged whole when the
budget is not yet spent, and what passes the budget counts in the next window (log 111). -/
def State.traffic (s : State) (c : Nat) (gal : Option Nat) (write : Bool) (a bursts : Nat) : State :=
  if bursts = 0 then s
  else
    let x := s.chan c
    let here := (write, bits a 14 10, bits a 27 15)
    let turn := match x.last with | none => false | some l => l.1 != here.1
    let same := match x.last with | none => false | some l => l.2 == here.2
    let wait := if same then 0 else Config.freeNat s.free % 28
    let s1 := ((s.draw 1).countIf turn .stkTurn c).count .stkConflict c wait
    let used := match gal with
      | none => x.used
      | some g => Tbl.put x.used g (Tbl.look x.used g 0 + bursts) 0
    s1.setChan c { x with last := some here, used := used }

/-- An operation finds its budget spent and waits for the next window (R303, R460). -/
def State.bwHold (s : State) (unit c ident : Nat) (gal : Option Nat) : State :=
  match gal with
  | none => s
  | some g =>
    if !s.bwSpent c gal || s.cat.waits.any (fun w => w.is unit 8 ident) then s
    else (s.waitBegin unit 8 ident).count .stkBwHold g 1

/-- Bursts a run of bytes touches, and those it touches in part. -/
def burstSpan (a n : Nat) : Nat := if n = 0 then 0 else (a + n - 1) / 64 + 1 - a / 64
def burstEdges (a n : Nat) : List Nat :=
  if n = 0 then [] else distinct ((if a % 64 = 0 && 64 ≤ n then [] else [a / 64]) ++
    (if (a + n) % 64 = 0 then [] else [(a + n - 1) / 64]))

/-- Write bytes to the channel of a logical core: partial bursts merge (R298), the corrected ones counted (R311), cache lines drop (R299), and while its
channel is being copied to a spare a write to an address already copied goes to both (R417). Answers the state and
whether a burst was poisoned. -/
def State.writeChan (s : State) (c a : Nat) (b : Bytes) : State × Bool :=
  let phys := (s.core c).chan
  let w := s.chanWrite phys a b
  let fixed := (s.chanErrors phys a b.length).filter (fun e => !e.2 && (burstEdges a b.length).contains (e.1 / 64))
  let s1 := ((w.1.count .stkRmw c w.2.1).count .stkCe c fixed.length).dropLines c a b.length
  let s2 := w.2.2.foldl (fun s x => (s.count .stkUe c 1).incident clsUe 0x05 .arrayUe (srcChan c) x 0) s1
  let p := s2.plinth (c / 256)
  let s3 := match p.chSpares.find? (fun x => x.pch == phys % 264) with
    | none => s2
    | some x => if a < x.copied then (s2.chanWrite (phys / 264 * 264 + x.spare) a (b.take (x.copied - a))).1 else s2
  (s3, !w.2.2.isEmpty)

/-- First byte of a logical core's scratchpad. -/
def State.scratch (s : State) (c : Nat) : Nat := scratchBase (s.core c).phys

/-- Count and record the SRAM errors of scratchpad words that were read, each a word with whether its error is a double-bit one
(R84, R406); whether one was. -/
def State.noteScratchWords (s : State) (c : Nat) (ws : List (Nat × Bool)) : State × Bool :=
  (ws.foldl (fun s w =>
    let at_ := 8 * w.1 - s.scratch c
    if w.2 then (s.count .spUe c 1).incident clsUe 0x04 .arrayUe (srcCore c) at_ 0
    else (s.count .spCe c 1).incident clsCorrected 0x02 .ok (srcCore c) at_ 0) s, ws.any Prod.snd)

/-- The words of a scratchpad range that a reader met. -/
def State.noteScratch (s : State) (c a n : Nat) : State × Bool := s.noteScratchWords c (s.badWords (s.scratch c + a) n)

/-- Read a run of scratchpad bytes. -/
def State.readScratch (s : State) (c a n : Nat) : Bytes := s.sramRead (s.scratch c + a) n

/-- Write a run of scratchpad bytes: words written in part are read first (R84). Whether such a read met a double-bit error. -/
def State.writeScratch (s : State) (c a : Nat) (b : Bytes) : State × Bool :=
  let g := s.scratch c + a
  let r := s.noteScratchWords c (s.mergedWords g b.length)
  (r.1.sramWrite g b, r.2)

/-- Read, note and write the hall buffer, whose words follow R84 as the scratchpad's do (R400, R418). -/
def State.readHall (s : State) (a n : Nat) : Bytes := s.sramRead (hallBase + a) n
def State.noteHallWords (s : State) (ws : List (Nat × Bool)) : State × Bool :=
  (ws.foldl (fun s w =>
    let at_ := 8 * w.1 - hallBase
    if w.2 then s.incident clsUe 0x04 .arrayUe (srcHub hubHall) at_ 0
    else s.incident clsCorrected 0x02 .ok (srcHub hubHall) at_ 0) s, ws.any Prod.snd)
def State.noteHall (s : State) (a n : Nat) : State × Bool := s.noteHallWords (s.badWords (hallBase + a) n)
def State.putHall (s : State) (a : Nat) (b : Bytes) : State × Bool :=
  let g := hallBase + a
  let r := s.noteHallWords (s.mergedWords g b.length)
  (r.1.sramWrite g b, r.2)
def State.writeHall (s : State) (a : Nat) (b : Bytes) : State := (s.putHall a b).1

/-- One disturbance of stored data (R400). -/
def State.upset (s : State) (u : Upset) : State :=
  match u with
  | .burst c a x => s.burstUpset (s.core c.val).chan a x
  | .scratch c w dbl =>
    { s with bad := Tbl.put s.bad (s.scratch c.val / 8 + w % 32768) dbl (!dbl) }
  | .cache c l w dbl =>
    let k := s.core c.val
    s.setCore c.val { k with cache := (k.cache.map (fun st => (st.1, st.2.map (fun x =>
      if x.line = l then { x with errs := Tbl.put x.errs w.val dbl (!dbl) } else x)))) }
  | .hall w dbl => { s with bad := Tbl.put s.bad (hallBase / 8 + w % 2 ^ 25) dbl (!dbl) }
  | .acc c b e x =>
    let k := s.core c.val
    let bk := k.bank b
    let v := Tbl.look bk.ents e {}
    s.setCore c.val (k.setBank b { bk with ents := Tbl.put bk.ents e { v with val := v.val ^^^ x } {} })
  | .tableLine l ue => { s with cur := { s.cur with lost := Tbl.insert s.cur.lost l ue } }
  | .context k ue => { s with cur := { s.cur with lostCtx := Tbl.insert s.cur.lostCtx k.val ue } }

/-- Disturbances, in order. -/
def State.upsets (s : State) (l : List Upset) : State := l.foldl State.upset s

end Sys2Proof.Machine
end

