-- ==== Sys2Proof/Machine/Operands.lean ====
section
/-! DEFINITION. The operand forms descriptors share: endpoints, handle references, device addresses, format codes and
plane references, with the checks each one carries. -/

namespace Sys2Proof.Machine

/-! ### Who asks -/

/-- Whether an operation came on a ring of a virtual function (R230). -/
def Op.vf (o : Op) : Bool := match o.org with | .ring r _ => decide (64 ≤ r.val) | .step _ => false

/-- Whether an operation came on a ring. -/
def Op.ringed (o : Op) : Bool := match o.org with | .ring _ _ => true | .step _ => false

/-- FLAGS of a descriptor; a step program's operation has none (R213, R238). -/
def Op.flags (o : Op) : Nat := if o.ringed then fld o.d 1 7 0 else 0

/-- FLAGS that the opcode does not define are reserved (R238); byte 1 of a step-program operation is its BARRIER and
PERSTREAM (R213). -/
def Op.flagsZero (o : Op) (mask : Nat) : List Bad :=
  (List.range 8).flatMap (fun i => need (bit o.flags i && !bit mask i) .badDescriptor 1)

/-! ### Formats (R25) -/

/-- A field that names a number format holds no code above 0x11 (R25). -/
def fmtOk (code : Nat) : Bool := decide (code ≤ 0x11)

/-! ### Handles (R89, R92) -/

/-- Entry and generation of a handle reference (R89). -/
def refIndex (r : Nat) : Nat := r % 64
def refGen (r : Nat) : Nat := bits r 15 8

/-- The reserved bits of a handle reference at byte `at_` (R89, R6). -/
def refForm (d : Line64) (at_ : Nat) : List Bad := needBits d at_ 7 6

/-- The handle a reference names on a core. -/
def State.href (s : State) (core ref : Nat) : Handle := (s.core core).handle (refIndex ref)

/-- Bytes of a handle's range. -/
def Handle.size (h : Handle) : Nat := 64 * h.lines

/-- Whether a reference fails R92: its entry not BOUND, or bound by a CORE_BIND that has not completed, its generation
stale, or its gallery another's. -/
def State.hrefBad (s : State) (core ref gal : Nat) : Bool :=
  let h := s.href core ref
  h.st != .bound || h.bindOp.isSome || h.gen.toNat != refGen ref || h.gal != gal

/-- Whether a use of a handle fails R92: the reference itself, or a range that leaves it. -/
def State.huseBad (s : State) (core ref gal off len : Nat) : Bool :=
  s.hrefBad core ref gal || decide ((s.href core ref).size < off + len)

/-- Scale blocks of 32 positions in a vector of `len` bytes in the form of R48 at its packed pitch, an incomplete one among them, and
whether the length is that of a header and whole blocks. -/
def vectorUnit (fmt : Nat) : Nat := laneCount fmt * (4 * elemBits fmt + 1)
def vectorBlocks (fmt len : Nat) : Nat := cdiv (len - 256) (vectorUnit fmt)
def vectorWhole (fmt len : Nat) : Bool := decide (256 < len) && (len - 256) % vectorUnit fmt == 0

/-- Whether bytes written through a handle pass the arrival converter (R86): the handle is TYPED in an activation format and no
ring. -/
def Handle.converts (h : Handle) : Bool := h.typed && coreAct h.fmt && !h.ring

/-- Bytes a write of `len` transferred bytes needs in a handle's range: operand form behind the header where the converter stands
between (R86). -/
def Handle.needs (h : Handle) (len : Nat) : Nat :=
  if !h.converts then len else if len ≤ 256 then len else operandBytes h.fmt (32 * vectorBlocks h.fmt len)

/-- Count one more or one fewer issued operation on a handle (R88, R91). -/
def State.useHandle (s : State) (core ref : Nat) (up : Bool) : State :=
  let k := s.core core
  let h := k.handle (refIndex ref)
  s.setCore core (k.setHandle (refIndex ref) { h with count := if up then h.count + 1 else h.count - 1 })

/-- Lines that `len` bytes from byte `off` of a handle touch: first and last (R94). -/
def Handle.span (h : Handle) (off len : Nat) : Nat × Nat := (h.base + off / 64, h.base + (off + len - 1) / 64)

/-! ### Endpoints (R271) -/

/-- A 16 B endpoint. -/
structure Ep where
  space : Nat
  core  : Nat
  href  : Nat
  addr  : Nat
  deriving DecidableEq, Repr

/-- The endpoint at byte `at_` of a descriptor. -/
def Ep.of (d : Line64) (at_ : Nat) : Ep :=
  { space := fld d at_ 3 0, core := fld d at_ 26 16, href := fld d (at_ + 4) 15 0, addr := fld d (at_ + 8) 63 0 }

def Ep.host (e : Ep) : Bool := e.space == 0
def Ep.device (e : Ep) : Bool := e.space == 1
def Ep.channel (e : Ep) : Bool := e.space == 2
def Ep.scratch (e : Ep) : Bool := e.space == 3
def Ep.hall (e : Ep) : Bool := e.space == 4

/-- Checks of an endpoint's form and range that refuse with BAD_DESCRIPTOR (R271, R272): reserved bits, an invalid
SPACE, a range past its space, and CHANNEL or HALL from a virtual function's ring. -/
def epForm (o : Op) (at_ len : Nat) : List Bad :=
  let e := Ep.of o.d at_
  needBits o.d at_ 15 4 ++ needBits o.d (at_ + 2) 15 11 ++ needBits o.d (at_ + 6) 15 0 ++
  needOk (decide (e.space ≤ 4)) at_ ++
  (if e.channel || e.scratch then [] else needBits o.d (at_ + 2) 10 0) ++
  (if e.scratch then refForm o.d (at_ + 4) else needBits o.d (at_ + 4) 15 0) ++
  (if e.device then needBits o.d (at_ + 8) 63 48 ++ needOk (decide (e.addr + len ≤ 2 ^ 48)) (at_ + 8) else []) ++
  (if e.host then needOk (decide (e.addr + len ≤ 2 ^ 64)) (at_ + 8) else []) ++
  (if e.channel || e.hall then
    needOk (decide (e.addr + len ≤ 2 ^ 28)) (at_ + 8) ++ needOk (!o.vf) at_ else [])

/-! ### Device addresses (R320, R327) -/

/-- The mapping of a gallery that holds an address; `live` leaves out those whose release is pending (R331). -/
def State.mappingAt (s : State) (gal addr : Nat) (live : Bool) : Option Mapping :=
  s.tiers.maps.find? (fun m => m.gal == gal && decide (m.daddr ≤ addr) && decide (addr < m.daddr + m.panels * 2 ^ 18) &&
    !(live && m.release.isSome))

/-- Whether a range lies within the mapped objects of a gallery (R320); `fuel` bounds the mappings crossed. -/
def State.mapped (s : State) (gal : Nat) : Nat → Nat → Nat → Bool
  | 0, _, _ => false
  | fuel + 1, addr, len =>
    match s.mappingAt gal addr true with
    | none => false
    | some m =>
      let room := m.daddr + m.panels * 2 ^ 18 - addr
      if len ≤ room then true else s.mapped gal fuel (addr + room) (len - room)

/-- Whether a device range resolves (R320). -/
def State.resolves (s : State) (gal addr len : Nat) : Bool := s.mapped gal (s.tiers.maps.length + 1) addr len

/-- Whether any object of a device range is accessioned, and so read-only (R324). -/
def State.touchesReadOnly (s : State) (gal addr len : Nat) : Bool :=
  s.tiers.maps.any (fun m => m.gal == gal && decide (m.daddr < addr + len) &&
    decide (addr < m.daddr + m.panels * 2 ^ 18) && (match Tbl.find s.tiers.objs m.obj with
      | none => false
      | some x => x.accessioned))

/-- Object and panel numbers of a device address. -/
def State.panelAt (s : State) (gal addr : Nat) : Option (Nat × Nat) :=
  (s.mappingAt gal addr false).map (fun m => (m.obj, (addr - m.daddr) / 2 ^ 18))

/-- A panel's record. -/
def panelKey (obj panel : Nat) : Nat := obj * 2 ^ 20 + panel
def State.panel (s : State) (obj panel : Nat) : Panel := Tbl.look s.tiers.panels (panelKey obj panel) {}
def State.setPanel (s : State) (obj panel : Nat) (p : Panel) : State :=
  { s with tiers := { s.tiers with panels := Tbl.put s.tiers.panels (panelKey obj panel) p {} } }

/-- Core and channel address of a panel's place (R327). -/
def Obj.place (x : Obj) (panel : Nat) : Nat × Nat := ((x.cbase + panel / x.ppc) % 2048, x.t1ofs + 262144 * (panel % x.ppc))

/-- Where a panel's bytes lie now (R321, R335, R338): a hall-buffer offset, a core's channel address, or the reference
copy at an address of the PF's memory or a peer's window. -/
inductive Loc where
  | t0 (hall : Nat)
  | t1 (core addr : Nat)
  | t2 (peer : Bool) (addr : Nat)
  deriving DecidableEq, Repr

/-- Location of byte 0 of a panel. -/
def State.locate (s : State) (obj panel : Nat) : Loc :=
  let x := (Tbl.find s.tiers.objs obj).getD
    { accessioned := false, gal := 0, panels := 0, placed := false, cbase := 0, ppc := 1, t1ofs := 0 }
  let p := s.panel obj panel
  match p.tier with
  | 0 => .t0 ((s.field .glbT0Base [] 27 18 + p.frame) * 2 ^ 18)
  | 1 => .t1 (x.place panel).1 (x.place panel).2
  | _ => .t2 (x.pkind == 1) (x.paddr + 262144 * panel)

/-- The accessioned object and panel whose resident copy holds a channel address, if one does (R311, R419). -/
def State.panelOfChannel (s : State) (core addr : Nat) : Option (Nat × Nat) :=
  s.tiers.objs.findSome? (fun e =>
    let x := e.2
    if !x.placed || addr < x.t1ofs then none
    else
      let k := (addr - x.t1ofs) / 262144
      let i := (core + 2048 - x.cbase) % 2048 * x.ppc + k
      if k < x.ppc ∧ i < x.panels ∧ (s.panel e.1 i).tier = 1 then some (e.1, i) else none)

/-- Whether an accessioned object's panel stands at a channel address. -/
def State.accessionedAt (s : State) (core addr : Nat) : Option (Nat × Nat) :=
  match s.panelOfChannel core addr with
  | none => none
  | some p => match Tbl.find s.tiers.objs p.1 with
    | none => none
    | some x => if x.accessioned then some p else none

/-- Checks of an endpoint that refuse with BAD_HANDLE (R272, R92, R320): `write` where it is a destination. A
read-only object takes no write (R324). -/
def State.epUse (s : State) (o : Op) (at_ len : Nat) (write : Bool) : List Bad :=
  let e := Ep.of o.d at_
  if e.scratch then
    let h := s.href e.core e.href
    need (s.huseBad e.core e.href o.gal e.addr (if write then h.needs len else len)) .badHandle at_
  else if e.device then
    need (!s.resolves o.gal e.addr len || write && s.touchesReadOnly o.gal e.addr len) .badHandle at_
  else []

/-! ### Scoreboard (R94 to R97) -/

/-- Scoreboard entries an operation enters for a run of bytes of a handle: none through an unordered one (R97). -/
def State.sbRange (s : State) (core ref off len : Nat) (write : Bool) (id : Nat) : List SbEntry :=
  let h := s.href core ref
  if h.order || len == 0 then [] else [{ first := (h.span off len).1, last := (h.span off len).2, write := write, op := id }]

/-- Whether two entries conflict (R95). -/
def SbEntry.clash (a b : SbEntry) : Bool :=
  (a.write || b.write) && decide (a.first ≤ b.last) && decide (b.first ≤ a.last)

/-- Whether new entries find room and meet no conflict in a core's scoreboard (R95). -/
def Core.sbFree (k : Core) (es : List SbEntry) : Bool :=
  decide (k.scoreboard.length + es.length ≤ 32) && es.all (fun e => k.scoreboard.all (fun x => !e.clash x))

/-- Take an operation's entries out of a core's scoreboard (R94). -/
def State.sbLeave (s : State) (core id : Nat) : State :=
  let k := s.core core
  s.setCore core { k with scoreboard := k.scoreboard.filter (fun e => e.op != id) }

/-! ### Arrival conversion (R86) -/

/-- Codes of one lane's elements from the bytes of a vector's body. -/
def laneCodes (fmt : Nat) (b : Bytes) (start n : Nat) : List Nat :=
  let v := ofLE (slice b start (cdiv (n * elemBits fmt) 8))
  (List.range n).map (fun i => bits v (elemBits fmt * i + elemBits fmt - 1) (elemBits fmt * i))

/-- The blocks of one lane in operand form: `elems` and `scales` are the byte positions of its elements and scales,
`n` its blocks of 32 positions. -/
def laneBlocks (fmt : Nat) (b : Bytes) (elems scales n : Nat) : List OpBlock :=
  let codes := laneCodes fmt b elems (32 * n)
  (List.range n).map (fun j => toOperand fmt ((codes.drop (32 * j)).take 32) (b.getD (scales + j) 0xFF).toNat)

/-- E_max of each of the 128 lanes as a vector's header holds it (R48). -/
def headerEmax (b : Bytes) : List Nat := (List.range 128).map (fun l => ofLE (slice b (2 * l) 2))

/-- Vector bytes in the form of R48 to operand form with its header (R85, R86): `n` blocks a lane, lane pitch `pitch`
bytes. The result's other parts are the non-finite elements and the blocks clamped. -/
def convertVector (fmt n pitch : Nat) (b : Bytes) : Bytes × Nat × Nat :=
  let lanes := laneCount fmt
  let blocks := (List.range lanes).map (fun l =>
    laneBlocks fmt b (256 + l * pitch) (256 + lanes * pitch + l * n) n)
  let emax := headerEmax b
  let slots := (List.range (cdiv (32 * n) 160)).map (fun c => buildSlot fmt (blocks.map (fun l =>
    let part := (l.drop (5 * c)).take 5
    part ++ List.replicate (5 - part.length) (toOperand fmt (List.replicate 32 0) 255))) emax)
  (b.take 256 ++ (slots.map Prod.fst).flatten, ((blocks.flatten).map (fun k => k.nonfinite)).foldl (· + ·) 0,
    (slots.map Prod.snd).foldl (· + ·) 0)

end Sys2Proof.Machine
end

