-- ==== Sys2Proof/Machine/Tables.lean ====
section
/-! DEFINITION. The Curator's layout and the bytes of its tables: page table, frame table, map headers and row blocks as they
stand in the table region (R170, R174, R176, R177, R181, R182). -/

namespace Sys2Proof.Machine

/-! ### Layout (R170, R174, R176) -/

/-- Bytes of a key record (R170). -/
def keyBytes (kfmt hdim : Nat) : Nat := if kfmt = 5 then 32 * hdim else 16 * hdim

/-- Whether a layout is one R170 allows. -/
def layoutOk (kfmt vfmt hdim : Nat) : Bool :=
  ((kfmt == 4 || kfmt == 7) && vfmt == 4 || kfmt == 5 && vfmt == 5) && hdim != 0 && keyBytes kfmt hdim % 64 == 0 &&
    decide (keyBytes kfmt hdim ≤ 8192)

/-- Token capacity P of a page (R170). -/
def pageTokens (kfmt hdim : Nat) : Nat := min (if kfmt = 5 then 64 else 128) (8192 / keyBytes kfmt hdim)

/-- F, frames per channel. -/
def State.framesPer (s : State) : Nat := s.field .curKvFrames [] 14 0

/-- Channel addresses of a frame's data page and scale page (R174). -/
def State.kvAddr (s : State) (f : Nat) : Nat := s.field .curKvBase [] 27 14 * 16384 + 16384 * f
def State.scAddr (s : State) (f : Nat) : Nat := s.field .curScBase [] 27 10 * 1024 + 1024 * f

/-- First table line of the frame table, of the map headers and of the row blocks (R176). -/
def State.frameLine0 (s : State) : Nat := 512 * s.framesPer
def State.headerLine (s : State) (k : Nat) : Nat := 544 * s.framesPer + k
def State.rowLine0 (s : State) : Nat := 544 * s.framesPer + 32768

/-- Table lines of all channels. -/
def State.tableLines (s : State) : Nat := 2048 * s.field .curTblLines [] 21 0

/-- Core and channel address of a table line (R176). -/
def State.tableAddr (s : State) (line : Nat) : Nat × Nat :=
  (line % 2048, s.field .curTblBase [] 27 16 * 65536 + 64 * (line / 2048))

/-- Lines of a row block (R182). -/
def rowBlockLines (slots : Nat) : Nat := cdiv (64 + 4 * slots) 64

/-! ### The bytes of the tables (R176, R177, R181, R182) -/

/-- The null line or page number. -/
def nullLine : Nat := 0xFFFFFFFF

/-- The FREE page number that follows `n` in the list of free ones (R177). -/
def Curator.nextFree (x : Curator) (count n : Nat) : Nat :=
  match x.freed.dropWhile (fun q => q != n) with
  | _ :: q :: _ => q
  | [_] => if x.fresh < count then x.fresh else nullLine
  | [] => if n + 1 < count then n + 1 else nullLine

/-- LINK of a page number: the next free one, the first copy, or the next copy (R177). -/
def Curator.link (x : Curator) (count n : Nat) (p : Page) : Nat :=
  match p.st with
  | .free => x.nextFree count n
  | .live => p.copies.headD nullLine
  | .copy => match x.pages.find? (fun e => e.2.copies.contains n) with
    | none => nullLine
    | some e => (e.2.copies.dropWhile (fun q => q != n)).getD 1 nullLine

/-- The 16 B of a page-table entry (R177). -/
def Curator.pageBytes (x : Curator) (count n : Nat) : Bytes :=
  let p := Tbl.look x.pages n {}
  let st := match p.st with | .free => 0 | .live => 1 | .copy => 2
  toLE 16 (putF 0 0 (p.frame % 2 ^ 14) + putF 0 14 (p.core % 2 ^ 11) + putF 4 0 (p.refs % 2 ^ 16) + putF 8 0 st +
    putF 8 2 (if p.full then 1 else 0) + putF 9 0 (p.gal % 64) + putF 12 0 (x.link count n p))

/-- The byte of a frame-table entry: a clean frame holds FREE and LIMBO both (R176). -/
def Curator.frameByte (x : Curator) (c f : Nat) : Byte :=
  let y := Tbl.look x.frames (c * 16384 + f) {}
  let limbo := x.limbo.any (fun l => l.lines == 0 && l.core == c && l.frame == f)
  BitVec.ofNat 8 (if y.free && y.clean then 0xC0
    else y.lastGal % 64 + (if y.free then 0x40 else 0) + (if limbo then 0x80 else 0))

/-- The 64 B of a map's header (R181). -/
def KvMap.header (m : KvMap) : Bytes :=
  toLE 64 (putF 0 0 ((m.rows.head?.map (fun r => r.line)).getD nullLine) +
    putF 4 0 ((m.rows.getLast?.map (fun r => r.line)).getD nullLine) + putF 8 0 (m.tokens % 2 ^ 32) + putF 12 0 (m.slots % 2 ^ 13) +
    putF 14 0 (m.kfmt % 32) + putF 15 0 (m.vfmt % 32) + putF 16 0 (m.hdim % 16) + putF 17 0 (m.ptok % 256) +
    putF 18 0 (m.pbase % 2 ^ 11) + putF 20 0 (m.rowstep % 2 ^ 11) + putF 22 0 (m.rows.length % 2 ^ 13) +
    putF 24 0 (m.place % 2 ^ 32) + putF 28 0 (if 0 < m.forking then 1 else 0))

/-- Byte `i` of row block `k` of a map: its header, then a page number for each slot (R182). -/
def KvMap.blockByte (m : KvMap) (k i : Nat) : Byte :=
  let r := m.rows.getD k { line := 0, fill := 0, pages := [] }
  let next := ((m.rows[k + 1]?).map (fun y => y.line)).getD nullLine
  if i < 64 then
    (toLE 64 (putF 0 0 next + putF 4 0 (k * m.ptok % 2 ^ 32) + putF 8 0 (r.fill % 256))).getD i 0
  else if i < 64 + 4 * m.slots then (toLE 4 (r.pages.getD ((i - 64) / 4) 0)).getD (i % 4) 0
  else 0

/-- Whether the Curator keeps tables: it is enabled, or has been since the last reset (R180). -/
def State.tablesKept (s : State) : Bool :=
  s.flag .curCtrl [] 0 || !s.cur.pages.isEmpty || !s.cur.frames.isEmpty || !s.cur.maps.isEmpty

/-- Byte `i` of a table line as the Curator keeps it; none where the line holds none of its tables, and for the map of a stream that
has none. -/
def State.tableByte (s : State) (line i : Nat) : Option Byte :=
  let x := s.cur
  if line < s.frameLine0 then some ((x.pageBytes (2048 * s.framesPer) (4 * line + i / 16)).getD (i % 16) 0)
  else if line < s.headerLine 0 then
    let b := 64 * (line - s.frameLine0) + i
    some (x.frameByte (b / s.framesPer) (b % s.framesPer))
  else if line < s.rowLine0 then
    (Tbl.find x.maps (line - s.headerLine 0)).map (fun m => m.header.getD i 0)
  else x.maps.findSome? (fun e => (List.range e.2.rows.length).findSome? (fun k =>
    let r := e.2.rows.getD k { line := 0, fill := 0, pages := [] }
    if r.line ≤ line ∧ line < r.line + rowBlockLines e.2.slots then some (e.2.blockByte k (64 * (line - r.line) + i)) else none))

/-- A range of a core's channel as reads from outside the core see it: the Curator's tables stand in its table region (R176).
DESIGN CHOICE: the tables are what the Curator keeps, and a write of software into their bytes changes none (log 113). -/
def State.chanView (s : State) (c a n : Nat) : Bytes :=
  let b := s.chanRead (s.core c).chan a n
  let t := s.field .curTblBase [] 27 16 * 65536
  let top := t + 64 * s.field .curTblLines [] 21 0
  if !s.tablesKept || decide (top ≤ a) || decide (a + n ≤ t) then b
  else (List.range n).map (fun i =>
    let at_ := a + i
    let own := b.getD i 0
    if at_ < t ∨ top ≤ at_ then own else (s.tableByte ((at_ - t) / 64 * 2048 + c) ((at_ - t) % 64)).getD own)

end Sys2Proof.Machine
end

