-- ==== Sys2Proof/Machine/Faults.lean ====
section
/-! DEFINITION. Faults: the accounting of storage errors with their quarantine (R400, R406, R419), residue faults, fences
and the claim of spares (R411 to R416), and the commands of the RAS block. -/

namespace Sys2Proof.Machine

/-! ### A free choice -/

/-- Choose one of several where the manual leaves the choice open: a free value picks. -/
def State.pick {α : Type} (s : State) (l : List α) : State × Option α :=
  match l with
  | [] => (s, none)
  | [a] => (s, some a)
  | a :: t => (s.draw 1, some (((a :: t)[Config.freeNat s.free % (a :: t).length]?).getD a))

/-- The piece of work that goes next where classes compete (R217, R218, R270): Carmine first, then Ochre or Umber, then Smalt. DESIGN
CHOICE: between Ochre and Umber the deficits are not modelled, and a free value decides; one of weight 0 waits for the other
(log 108). -/
def State.classPick {α : Type} (s : State) (cls : α → Nat) (l : List α) : State × Option α :=
  let of_ (n : Nat) : Option α := l.find? (fun x => cls x == n)
  match of_ 0 with
  | some x => (s, some x)
  | none =>
    let w1 := s.inEffect .docWgt [] 7 0
    let w2 := s.inEffect .docWgt [] 15 8
    match of_ 1, of_ 2 with
    | some a, some b =>
      if w1 = 0 ∧ w2 ≠ 0 then (s, some b) else if w2 = 0 ∧ w1 ≠ 0 then (s, some a) else s.pick [a, b]
    | some a, none => (s, some a)
    | none, some b => (s, some b)
    | none, none => (s, of_ 3)

/-! ### Quarantine (R419, R424) -/

/-- Readers of R406. -/
def rdExpander : Nat := 0
def rdScore : Nat := 1
def rdDma : Nat := 2
def rdWindow : Nat := 3
def rdCurator : Nat := 4
def rdScrub : Nat := 5
def rdMover : Nat := 6
def rdConservator : Nat := 7

/-- DETAIL and DETAIL2 of a QUARANTINE, REPAIRED or REPAIR_FAIL record (R406). DESIGN CHOICE: a place in no channel has channel
address 0 (log 123). -/
def panelDetail (obj panel : Nat) : Nat := panel % 2 ^ 20 + obj % 2 ^ 14 * 2 ^ 32
def State.panelDetail2 (s : State) (obj panel : Nat) : Nat :=
  match s.locate obj panel with
  | .t1 _ a => a % 2 ^ 28 + 1 * 2 ^ 28
  | .t0 _ => 0
  | .t2 _ _ => 2 * 2 ^ 28

/-- Panels in repair, and panels waiting for the Conservator (R410, R424). -/
def Repair.active (r : Repair) : Bool := r.stage != .waiting && r.stage != .failed
def Repair.waits (r : Repair) : Bool := r.stage == .waiting
def State.repairsActive (s : State) : Nat := (s.tiers.repairs.filter Repair.active).length
def State.repairsWaiting (s : State) : Nat := (s.tiers.repairs.filter Repair.waits).length

/-- Quarantine a panel of an accessioned object: a second error of one already quarantined changes nothing (R425), and a
full waiting list leaves it out with INTERNAL recorded (R424). -/
def State.quarantine (s : State) (obj panel : Nat) : State :=
  let p := s.panel obj panel
  if p.quar then s
  else if 64 ≤ s.repairsActive ∧ 256 ≤ s.repairsWaiting then
    s.incident clsUe 0x7F .internal (srcHub hubConservator) (panelDetail obj panel) 0
  else
    let stage := if s.repairsActive < 64 then RepairStage.queued else RepairStage.waiting
    let s1 := s.setPanel obj panel { p with quar := true }
    let s2 : State := { s1 with tiers := { s1.tiers with
      repairs := s1.tiers.repairs ++ [{ obj := obj, panel := panel, stage := stage }] } }
    s2.incident clsUe 0x18 .ok (srcHub hubConservator) (panelDetail obj panel) (s2.panelDetail2 obj panel)

/-- The accessioned object and panel whose T0 copy holds a hall-buffer byte. -/
def State.accessionedHall (s : State) (a : Nat) : Option (Nat × Nat) :=
  s.tiers.panels.findSome? (fun e =>
    let obj := e.1 / 2 ^ 20
    let panel := e.1 % 2 ^ 20
    if e.2.tier = 0 ∧ (s.field .glbT0Base [] 27 18 + e.2.frame) = a / 2 ^ 18 then
      match Tbl.find s.tiers.objs obj with
      | none => none
      | some x => if x.accessioned then some (obj, panel) else none
    else none)

/-- Symbols of a channel burst that its stored check symbols show in error. -/
def State.symbolsWrong (s : State) (core addr : Nat) : Nat :=
  match Tbl.find s.chk ((chanBase (s.core core).chan + addr) / 64) with
  | none => 0
  | some k => match rsErrors (List.replicate 64 0 ++ (toLE 8 k.toNat).map BitVec.toNat) with
    | none => 0
    | some p => (p.filter (fun x => x != 0)).length

/-- Count and record one burst error a reader met, and quarantine the panel it lies in (R311, R400, R406, R419):
`uncorrectable` tells the kinds apart. `told` is whether an operation is given the status. -/
def State.noteBurst (s : State) (c reader : Nat) (told : Bool) (addr : Nat) (uncorrectable : Bool) : State :=
  if uncorrectable then
    let acc := s.accessionedAt c addr
    let st := if !told then Status.ok else if acc.isSome then .weightUeRetry else .arrayUe
    let obj := match s.panelOfChannel c addr with | none => 0x3FFF | some p => p.1
    let s1 := (s.count .stkUe c 1).incident clsUe 0x03 st (srcChan c) (addr % 2 ^ 28 + reader * 2 ^ 56) obj
    match acc with
    | none => s1
    | some p => s1.quarantine p.1 p.2
  else (s.count .stkCe c 1).incident clsCorrected 0x01 .ok (srcChan c) (addr % 2 ^ 28) (s.symbolsWrong c addr)

/-- The errors of a channel range a reader met, in address order. -/
def State.noteChan (s : State) (c reader : Nat) (told : Bool) (errs : List (Nat × Bool)) : State :=
  errs.foldl (fun s e => s.noteBurst c reader told e.1 e.2) s

/-- The status an uncorrectable burst gives the operation that read it (R71, R286). -/
def State.ueStatus (s : State) (c addr : Nat) : Status :=
  if (s.accessionedAt c addr).isSome then .weightUeRetry else .arrayUe

/-- Read a run of channel bytes of a logical core for a reader: the bytes with lost bursts as zero, the offset each
lost burst begins to read as zero, and the statuses they give. -/
def State.readChan (s : State) (c a n reader : Nat) : State × Bytes × List Nat × List Status :=
  let phys := (s.core c).chan
  let errs := s.chanErrors phys a n
  let lost := (errs.filter Prod.snd).map Prod.fst
  (s.noteChan c reader true errs, s.chanView c a n, lost.map (fun x => x - a), lost.map (s.ueStatus c))

/-- Errors of a hall-buffer range a reader met (R400, R418, R419), the offsets its zero words stand at, and the status
they give. -/
def State.noteHallUse (s : State) (a n : Nat) : State × List Nat × List Status :=
  let dbl := (s.badWords (hallBase + a) n).filter Prod.snd
  let r := s.noteHall a n
  let s1 := dbl.foldl (fun s w => match s.accessionedHall (8 * w.1 - hallBase) with
    | none => s
    | some p => s.quarantine p.1 p.2) r.1
  (s1, dbl.map (fun w => 8 * w.1 - hallBase - a), dbl.map (fun w =>
    if (s.accessionedHall (8 * w.1 - hallBase)).isSome then Status.weightUeRetry else .arrayUe))

/-! ### Fences and spares (R411 to R416) -/

/-- Number of a unit among a core's fault counts: 0 POP, 1 + g SCORE g, 17 + k VALCOL k. -/
def unitPop : Nat := 0
def unitScore (g : Nat) : Nat := 1 + g
def unitVal (k : Nat) : Nat := 17 + k

/-- Unit code and group or column of a unit, as [6:0] of DETAIL shows them (R406, R411). -/
def unitDetail (u : Nat) : Nat := if u = 0 then 0 else if u ≤ 16 then 1 + (u - 1) * 4 else 2 + (u - 17) * 4

/-- Whether a unit of a core is fenced. -/
def Core.fenced (k : Core) (u : Nat) : Bool :=
  if u = 0 then k.fencePop else if u ≤ 16 then k.fenceScore.getLsbD (u - 1) else k.fenceVal.getLsbD (u - 17)

/-- Fence a unit. -/
def Core.fence (k : Core) (u : Nat) : Core :=
  if u = 0 then { k with fencePop := true }
  else if u ≤ 16 then { k with fenceScore := k.fenceScore ||| BitVec.ofNat 16 (2 ^ (u - 1)) }
  else { k with fenceVal := k.fenceVal ||| BitVec.ofNat 32 (2 ^ (u - 17)) }

/-- Whether any unit of a core is fenced (R427). -/
def Core.anyFence (k : Core) : Bool := k.fencePop || k.fenceScore != 0 || k.fenceVal != 0

/-- Logical cores of a plinth. -/
def plinthCores (p : Nat) : List Nat := (List.range 256).map (fun i => p * 256 + i)

/-- Spare physical cores of a plinth that no logical core has or claims and that are in service (R18, R415). -/
def State.spareCores (s : State) (p : Nat) : List Nat :=
  let used := (plinthCores p).flatMap (fun c => (s.core c).phys :: (s.core c).claim.toList)
  ((List.range 264).map (fun i => p * 264 + i)).filter (fun x =>
    !used.contains x && !(s.plinth p).deadCores.contains (x % 264))

/-- A fence of a core that holds no claim claims a spare of its plinth, or writes NO_SPARE (R415, R416). -/
def State.claimSpare (s : State) (c : Nat) : State :=
  let k := s.core c
  if k.claim.isSome then s
  else match s.pick (s.spareCores (c / 256)) with
    | (s1, some x) => s1.setCore c { k with claim := some x, sparePend := true }
    | (s1, none) => (s1.setCore c { k with noSpare := true }).incident clsResidue 0x13 .ok (srcCore c) (k.phys % 264) 0

/-- A fence window that has ended takes every unit's count of faults with it (R412). -/
def State.rollFences (s : State) : State :=
  let w := s.windowNo (s.field .rasFenceCfg [] 12 8)
  if w = s.cat.fenceWin then s
  else { s with
      cat := { s.cat with fenceWin := w }
      cores := (s.cores.map (fun e => (e.1, { e.2 with faults := [] }))).filter (fun e => e.2 != resetCore e.1) }

/-- Fence a unit of a core: a FENCE record and the claim of a spare (R412, R415). A unit already fenced stays so. -/
def State.fenceUnit (s : State) (c u : Nat) : State :=
  let s := s.rollFences
  let k := s.core c
  if k.fenced u then s
  else ((s.setCore c (k.fence u)).incident clsResidue 0x11 .ok (srcCore c) (unitDetail u)
    (Tbl.look k.faults u 0)).claimSpare c

/-- One residue fault: its record, its charge to the unit, and the unit's fence once the faults of the window reach the
count (R406, R411, R412). -/
def State.residueFault (s : State) (c u : Nat) (bank : Bool) (row lane opcode : Nat) : State :=
  let s := s.rollFences
  let k := s.core c
  let n := Tbl.look k.faults u 0 + 1
  let s1 := (s.setCore c { k with faults := Tbl.put k.faults u n 0 }).incident clsResidue 0x10 .residueFault (srcCore c)
    (unitDetail u + (if bank then 256 else 0) + row % 256 * 2 ^ 9 + lane % 128 * 2 ^ 17) (opcode % 256)
  if s1.field .rasFenceCfg [] 3 0 ≤ n then s1.fenceUnit c u else s1

/-- Whether a function's register write reaches a PF register block: BAR0 is served and the function is the PF
(R231, R477). -/
def State.pfWrite (s : State) (func : GalNo) : Bool := s.barUp && func.val == 0

/-- FENCE_POP: RAS_FENCECMD with OP = 1 fences the POP path of the core it names (R412). -/
def execFencePop (func : GalNo) (word : Word) (s : State) : Host.Outcome State Fault Refusal :=
  .next (if s.pfWrite func && decide (bits word.toNat 13 12 = 1) then s.fenceUnit (bits word.toNat 10 0) unitPop else s)

/-- Clear every fence of a core, with its SPAREPEND or NOSPARE and any spare it has claimed (R416). -/
def Core.clearFences (k : Core) : Core :=
  { k with fencePop := false, fenceScore := 0, fenceVal := 0, sparePend := false, noSpare := false, claim := none }

/-- FENCE_CLEAR: RAS_FENCECMD with OP = 2 (R416). -/
def execFenceClear (func : GalNo) (word : Word) (s : State) : Host.Outcome State Fault Refusal :=
  .next (if s.pfWrite func && decide (bits word.toNat 13 12 = 2) then
    s.setCore (bits word.toNat 10 0) (s.core (bits word.toNat 10 0)).clearFences else s)

/-- FENCE_WINDOW_END: at the end of a window of 2^WLOG2 beats or local ticks each unit's count restarts (R412). -/
def execFenceWindowEnd (s : State) : Host.Outcome State Fault Refusal := .next (if s.alive then s.rollFences else s)

/-! ### The incident queue (R407 to R409) -/

/-- INCIDENT_RATE_WINDOW_END: rate-pending sources of a window that has ended are queued, in the order of R408. -/
def execIncidentRateWindowEnd (s : State) : Host.Outcome State Fault Refusal :=
  .next (if s.alive then s.fillQueue else s)

/-- An incident as its 28 bytes ahead of the CRC (R404). -/
def Incident.bytes (r : Incident) : Bytes :=
  toLE 1 r.cls ++ toLE 1 r.event ++ toLE 1 r.status.code ++
  toLE 1 ((if r.first then 1 else 0) + (if r.late then 2 else 0)) ++ toLE 2 r.source ++ toLE 2 0 ++ toLE 4 r.count ++
  toLE 4 r.beat ++ toLE 8 r.detail.toNat ++ toLE 4 r.detail2.toNat

/-- Entries of the incident ring. -/
def State.incidentSize (s : State) : Nat := 2 ^ s.field .rasIcfg [] 4 0

/-- Whether the incident ring is full (R407). -/
def State.incidentFull (s : State) : Bool := decide (s.incidentSize ≤ cdiff s.ras.w s.ras.cons)

/-- An incident record is owed a message: after the records of its beat, or at the end of the interval in which it is written
(R409). -/
def State.incidentInterrupt (s : State) : State :=
  if s.flag .rasIcfg [] 16 then { s with ras := { s.ras with intPend := true } } else s

/-- Announce incident records, and begin an interval of ICOAL beats (R409). -/
def State.incidentMessage (s : State) : State :=
  State.msix { s with ras := { s.ras with intLeft := s.field .rasIcfg [] 20 17, intPend := false, intEnd := false } } 0
    (s.field .rasIcfg [] 15 5)

/-- The message of the ended beat, unless an interval runs. -/
def State.incidentBeat (s : State) : State :=
  if s.ras.intPend && decide (s.ras.intLeft = 0) then s.incidentMessage else s

/-- INCIDENT_RECORD_WRITE: the oldest record goes to the incident ring while it has room, and free entries are filled
(R407, R408). -/
def execIncidentRecordWrite (s : State) : Host.Outcome State Fault Refusal :=
  match s.ras.queue with
  | [] => .next s
  | r :: t =>
    if !s.alive || !s.flag .rasCtrl [] 0 || s.incidentFull then .next s
    else
      let w := s.ras.w.toNat
      let n := s.incidentSize
      let a := s.written .rasIringLo [] + s.written .rasIringHi [] * 2 ^ 32 + 32 * (w % n)
      let s1 := s.hostWrite 0 a (sealRecord r.bytes ((w / n + 1) % 2))
      let s2 : State := { s1 with ras := { s1.ras with queue := t, w := s1.ras.w + 1 } }
      .next (s2.fillQueue.incidentInterrupt)

/-- Take effect of RAS_CTRL.EN rising: the next record goes to index 0 and CONS is 0 (R407). -/
def State.incidentEnable (s : State) (word : Word) : State :=
  let was := s.flag .rasCtrl [] 0
  let now := word.getLsbD 0
  let s1 := s.setField .rasCtrl [] 0 0 (if now then 1 else 0)
  if now && !was then { s1 with ras := { s1.ras with w := 0, cons := 0 } } else s1

/-- INCIDENT_RING_ENABLE: a write of RAS_CTRL (R407). -/
def execIncidentRingEnable (func : GalNo) (word : Word) (s : State) : Host.Outcome State Fault Refusal :=
  .next (if s.pfWrite func then s.incidentEnable word else s)

/-- INCIDENT_INTERRUPT_INTERVAL_END: records written during the interval are announced (R409). -/
def execIncidentInterruptIntervalEnd (s : State) : Host.Outcome State Fault Refusal :=
  .next (if s.alive && s.ras.intEnd then s.incidentMessage else s)

/-- Clear FIRST and COUNT of the selected source; a FIRST still waiting is discarded (R408, R410). -/
def State.clearSource (s : State) : State :=
  let n := s.field .rasSrcSel [] 15 0
  s.setSource n { s.source n with count := 0, first := none, firstWaits := false }

/-- SOURCE_CLEAR: a write of RAS_SRCCLR with CLR = 1 (R408, R410). -/
def execSourceClear (func : GalNo) (word : Word) (s : State) : Host.Outcome State Fault Refusal :=
  .next (if s.pfWrite func && word.getLsbD 0 then s.clearSource else s)

end Sys2Proof.Machine
end

