-- ==== Sys2Proof/Machine/Cores.lean ====
section
/-! DEFINITION. The sliver core's handles and stream cache: CORE_BIND and CORE_UNBIND with the zero-fill of lines
(R88 to R93, R446), and reads of the channel through the stream cache slice (R100, R300 to R302). -/

namespace Sys2Proof.Machine

/-! ### Binding handles -/

/-- Whether TYPED, FORMAT and RING agree (R90). -/
def bindFormat (d : Line64) : Bool :=
  let f := fld d 16 4 0
  let typed := fbit d 16 5
  let ring := fbit d 16 7
  (if typed then fmtOk f else f == 0) && (!ring || typed && coreAct f)

/-- Whether two line ranges meet. -/
def linesMeet (a n b m : Nat) : Bool := decide (a < b + m) && decide (b < a + n)

/-- Checks of CORE_BIND (R90, R92). -/
def bindChecks (s : State) (o : Op) : List Bad :=
  let d := o.d
  let base := fld d 12 11 0
  let n := fld d 14 12 0
  let k := s.core (fld d 8 10 0)
  o.flagsZero 0 ++ needBits d 8 15 11 ++ needBits d 10 15 6 ++ needBits d 12 15 12 ++ needBits d 14 15 13 ++
  needZero d (byteRange 17 59) ++ needOk (n != 0 && decide (base + n ≤ 4096)) 14 ++ needOk (bindFormat d) 16 ++
  need ((k.handle (fld d 10 5 0)).st != .free) .badHandle 10 ++
  need (k.handles.any (fun e => e.2.st != .free && e.2.gal != o.gal && linesMeet base n e.2.base e.2.lines)) .badHandle 12

/-- Lines of a range whose tag is absent or names another gallery (R446). -/
def Core.staleLines (k : Core) (base n gal : Nat) : List Nat :=
  ((List.range n).map (fun i => base + i)).filter (fun l => Tbl.look k.tags l 0 != gal + 1)

/-- The handle reference of an entry (R89). -/
def Handle.reference (h : Handle) (e : Nat) : Nat := e + h.gen.toNat * 256

/-- A CORE_BIND completes: its entry is BOUND and RESULT holds the reference (R90). -/
def State.bindDone (s : State) (c e : Nat) (o : Op) : State :=
  let k := s.core c
  let h := k.handle e
  (s.setCore c (k.setHandle e { h with bindOp := none })).complete (srcCore c) o { st := .ok, result := h.reference e }

/-- Acceptance of a CORE_BIND: the entry is taken; lines of other galleries are zeroed before it completes (R446). -/
def State.bindStart (s : State) (o : Op) : State :=
  let d := o.d
  let c := fld d 8 10 0
  let e := fld d 10 5 0
  let k := s.core c
  let h : Handle := { k.handle e with
    st := .bound, base := fld d 12 11 0, lines := fld d 14 12 0, fmt := fld d 16 4 0, typed := fbit d 16 5
    order := fbit d 16 6, ring := fbit d 16 7, gal := o.gal, count := 0, bindOp := some o, prod := 0, cons := 0
    slots := [] }
  let s1 := s.setCore c (k.setHandle e h)
  if (k.staleLines h.base h.lines o.gal).isEmpty then s1.bindDone c e o else s1

/-- CORE_BIND (R90). -/
def State.acceptBind (s : State) (o : Origin) (d : Line64) : State :=
  s.accept (srcCore (fld d 8 10 0)) o d 0x60 bindChecks State.bindStart
def execCoreBind (o : Origin) (d : Line64) (s : State) : Host.Outcome State Fault Refusal := .next (s.acceptBind o d)

/-- BIND_ZERO_FILL_DONE: the lines another gallery held, or none did, are zero and retagged, and the CORE_BIND completes
(R446). -/
def execBindZeroFillDone (core : CoreNo) (entry : Fin 64) (s : State) : Host.Outcome State Fault Refusal :=
  let k := s.core core.val
  let h := k.handle entry.val
  match h.bindOp with
  | none => .next s
  | some o =>
    if !s.running then .next s
    else
      let stale := k.staleLines h.base h.lines h.gal
      let s1 := stale.foldl (fun s l => (s.writeScratch core.val (64 * l) (List.replicate 64 0)).1) s
      let tags := stale.foldl (fun t l => Tbl.put t l (h.gal + 1) 0) k.tags
      let s2 := s1.setCore core.val { s1.core core.val with tags := tags }
      .next (s2.bindDone core.val entry.val o)

/-- Checks of CORE_UNBIND (R91, R92). -/
def unbindChecks (s : State) (o : Op) : List Bad :=
  o.flagsZero 0 ++ needBits o.d 8 15 11 ++ refForm o.d 10 ++ needZero o.d (byteRange 12 59) ++
  need (s.hrefBad (fld o.d 8 10 0) (fld o.d 10 15 0) o.gal) .badHandle 10

/-- Acceptance of a CORE_UNBIND: the entry drains under its next generation (R91). -/
def State.unbindStart (s : State) (o : Op) : State :=
  let c := fld o.d 8 10 0
  let e := refIndex (fld o.d 10 15 0)
  let k := s.core c
  let h := k.handle e
  s.setCore c (k.setHandle e { h with st := .draining, gen := h.gen + 1, unbindOp := some o })

/-- CORE_UNBIND (R91). -/
def State.acceptUnbind (s : State) (o : Origin) (d : Line64) : State :=
  s.accept (srcCore (fld d 8 10 0)) o d 0x61 unbindChecks State.unbindStart
def execCoreUnbind (o : Origin) (d : Line64) (s : State) : Host.Outcome State Fault Refusal := .next (s.acceptUnbind o d)

/-- HANDLE_DRAINED: a DRAINING entry that no issued operation names becomes FREE, and its UNBIND completes (R91). -/
def execHandleDrained (core : CoreNo) (entry : Fin 64) (s : State) : Host.Outcome State Fault Refusal :=
  let k := s.core core.val
  let h := k.handle entry.val
  if !s.alive || h.st != .draining || h.count != 0 || (h.unbindOp.isSome && !s.running) then .next s
  else
    let s1 := s.setCore core.val (k.setHandle entry.val { gen := h.gen })
    match h.unbindOp with
    | none => .next s1
    | some o => .next (s1.complete (srcCore core.val) o { st := .ok })

/-! ### Stream cache slice (R300 to R302) -/

/-- Set of a line. -/
def cacheSet (line : Nat) : Nat := line % 64

/-- The line a core's slice holds, if it holds it. -/
def Core.cached (k : Core) (line : Nat) : Option CacheLine :=
  (Tbl.look k.cache (cacheSet line) []).find? (fun l => l.line == line)

/-- Hint a read of a channel address carries: KEEP within a KEEP range of its plinth, else its client's default
(R302). -/
def State.hintOf (s : State) (c : Nat) (client : Client) (a : Nat) : Hint :=
  let p := c / 256
  let keep := (List.range 4).any (fun k =>
    decide (1024 * s.inEffect .keepLo [p, k] 27 10 ≤ a) && decide (a < 1024 * s.inEffect .keepHi [p, k] 27 10))
  if keep then .keep
  else match (if client == .score then s.inEffect .schint [p] 3 2 else s.inEffect .schint [p] 1 0) with
    | 0 => .normal | 1 => .stream | 2 => .keep | _ => .discard

/-- Demote the oldest KEEP line of a set beyond four (R301). -/
def demoteKeep (l : List CacheLine) : List CacheLine :=
  let keeps := (l.filter (fun x => x.hint == .keep)).drop 4
  l.map (fun x => if keeps.any (fun k => k.line == x.line) then { x with hint := .normal } else x)

/-- Drop the least recently used line that KEEP does not protect from a set of more than eight (R300, R301). -/
def evictLine (l : List CacheLine) : List CacheLine :=
  if l.length ≤ 8 then l
  else match (l.reverse.find? (fun x => x.hint != .keep)) with
    | none => l.dropLast
    | some v => l.filter (fun x => x.line != v.line)

/-- Install a line under its hint (R301). -/
def installLine (l : List CacheLine) (x : CacheLine) : List CacheLine :=
  match x.hint with
  | .discard => l
  | .stream =>
    -- room is made before the line takes the least recently used place
    (if l.length < 8 then l else (match l.reverse.find? (fun y => y.hint != .keep) with
      | none => l.dropLast
      | some v => l.filter (fun y => y.line != v.line))) ++ [x]
  | _ => demoteKeep (evictLine (x :: l))

/-- Touch a line that hit: most recently used, or invalidated by a DISCARD read (R300, R301). -/
def touchLine (l : List CacheLine) (line : Nat) (h : Hint) : List CacheLine :=
  match l.find? (fun x => x.line == line) with
  | none => l
  | some x =>
    let rest := l.filter (fun y => y.line != line)
    if h == .discard then rest else x :: rest

/-- Words of cached lines of a range that hold an error, by word number of the channel, with whether it is a double-bit one
(R84). -/
def Core.cacheErrors (k : Core) (a n : Nat) : List (Nat × Bool) :=
  if n = 0 then [] else
  (k.cache.flatMap (fun st => st.2.flatMap (fun l => l.errs.map (fun e => (8 * l.line + e.1, e.2))))).filter
    (fun e => decide (a / 8 ≤ e.1) && decide (e.1 ≤ (a + n - 1) / 8))

/-- Count and record the words in error that a read of cached bytes met (R84, R406): the unit's byte address of a word of the
slice is not stated. -/
def State.noteCacheWords (s : State) (c : Nat) (ws : List (Nat × Bool)) : State :=
  ws.foldl (fun s w =>
    let at_ := Config.freeNat s.free % 2 ^ 32
    if w.2 then ((s.draw 1).count .spUe c 1).incident clsUe 0x04 .arrayUe (srcCore c) at_ 0
    else ((s.draw 1).count .spCe c 1).incident clsCorrected 0x02 .ok (srcCore c) at_ 0) s

/-- One byte as a core reads it through its slice: none where its burst reads uncorrectable, zero in a cached word with a
double-bit error (R84). An address past the channel has no stated byte. -/
def State.cacheByte (s : State) (c a : Nat) : Option Byte :=
  let k := s.core c
  if 2 ^ 28 ≤ a then some (BitVec.ofNat 8 (Config.freeNat (s.free + a)))
  else match k.cached (a / 64) with
    | some l => some (if Tbl.look l.errs (a % 64 / 8) false then 0 else l.data.getD (a % 64) 0)
    | none => s.chanByte k.chan a

/-- Whether a read of a channel range meets a cached word with a double-bit error (R84). -/
def State.cacheDouble (s : State) (c a n : Nat) : Bool := ((s.core c).cacheErrors a n).any Prod.snd

/-- Note one line's read: a hit touches it and meets its words' errors; a miss meets the burst's errors and installs the line
unless its burst is lost. -/
def State.readLine (s : State) (c : Nat) (client : Client) (reader line : Nat) : State :=
  let k := s.core c
  let h := s.hintOf c client (64 * line)
  let set := Tbl.look k.cache (cacheSet line) []
  match set.find? (fun x => x.line == line) with
  | some _ =>
    let s1 := s.noteCacheWords c (k.cacheErrors (64 * line) 64)
    s1.setCore c { s1.core c with cache := Tbl.put k.cache (cacheSet line) (touchLine set line h) [] }
  | none =>
    let errs := s.chanErrors k.chan (64 * line) 64
    let s1 := s.noteChan c reader true errs
    if errs.any Prod.snd then s1
    else
      let k1 := s1.core c
      let x : CacheLine := { line := line, hint := h, data := s.chanRead k.chan (64 * line) 64 }
      s1.setCore c { k1 with cache := Tbl.put k1.cache (cacheSet line) (installLine set x) [] }

/-- Note the channel traffic of a read through the slice: the lines it does not hold (R300, R303). -/
def State.missTraffic (s : State) (c : Nat) (gal : Option Nat) (a n : Nat) : State :=
  if n = 0 ∨ 2 ^ 28 ≤ a then s
  else
    let lines := (List.range (min (burstSpan a n) (2 ^ 22 - a / 64))).filter (fun i => ((s.core c).cached (a / 64 + i)).isNone)
    s.traffic c gal false a lines.length

/-- Note a read of a channel range through the slice. -/
def State.readLines (s : State) (c : Nat) (client : Client) (reader a n : Nat) : State :=
  if n = 0 ∨ 2 ^ 28 ≤ a then s
  else
    let lo := a / 64
    let hi := min ((a + n - 1) / 64) (2 ^ 22 - 1)
    ((List.range (hi + 1 - lo)).map (fun i => lo + i)).foldl (fun s l => s.readLine c client reader l) s

end Sys2Proof.Machine
end

