-- ==== Sys2Proof/Machine/Channels.lean ====
section
/-! DEFINITION. The channel controllers: requests, regulators, refresh and scrubbing, and the plinths' thermal evaluation
(R295 to R299, R303, R304, R306 to R308, R312 to R314, R510). -/

namespace Sys2Proof.Machine

/-! ### Requests (R296, R297) -/

/-- Whether a request writes. -/
def reqWrites (r : ChanReq) : Bool := match r.kind with | .write _ => true | _ => false

/-- Whether the byte ranges of two requests overlap. -/
def reqMeets (a b : ChanReq) : Bool := decide (a.addr < b.addr + b.len) && decide (b.addr < a.addr + a.len)

/-- Cut a request at an address. -/
def reqCut (r : ChanReq) (a : Nat) : ChanReq × ChanReq :=
  let n := a - r.addr
  let part (k : Bytes → Bytes) : ReqKind := match r.kind with | .write b => .write (k b) | x => x
  ({ r with len := n, kind := part (fun b => b.take n) }, { r with addr := a, len := r.len - n, kind := part (fun b => b.drop n) })

/-- A transfer as requests within one 1 KiB row each (R296). -/
def reqSplit : Nat → ChanReq → List ChanReq
  | 0, r => [r]
  | fuel + 1, r =>
    let stop := (r.addr / 1024 + 1) * 1024
    if r.len = 0 then [] else if r.addr + r.len ≤ stop then [r]
    else let p := reqCut r stop; p.1 :: reqSplit fuel p.2

/-- The group a request joins: the one it is marked for, while that has fewer than 16 requests, all of its direction and the last of
them the queue's last, and none older overlaps it (R296, R297); else none. -/
def groupOf (queue : List ChanReq) (r : ChanReq) : Nat :=
  let mine := queue.filter (fun y => y.group == r.group)
  let follows := mine.isEmpty || (queue.getLast?).any (fun y => y.group == r.group)
  if r.group != 0 && decide (mine.length < 16) && mine.all (fun y => reqWrites y == reqWrites r) && follows &&
      !(queue.any (fun y => y.group != r.group && reqMeets y r)) then r.group else 0

/-- Take a request into the controller's queue: a write drops the cache lines it overlaps (R299). -/
def State.arriveReq (s : State) (c : Nat) (r : ChanReq) : State :=
  let x := s.chan c
  let s1 := s.setChan c { x with queue := x.queue ++ [{ r with group := groupOf x.queue r }] }
  if reqWrites r then s1.dropLines c r.addr r.len else s1

/-- The controller accepts the requests that call, oldest first, while it is enabled and holds fewer than 64 (R297, R305). -/
def State.acceptReqs (s : State) (c : Nat) : Nat → State
  | 0 => s
  | fuel + 1 =>
    let x := s.chan c
    match x.calling with
    | [] => s
    | r :: t => if s.chanOff c || decide (64 ≤ x.queue.length) then s
        else ((s.setChan c { x with calling := t }).arriveReq c r).acceptReqs c fuel

/-- The first request of a list that overlaps no earlier one and satisfies a condition. -/
def firstFree (p : ChanReq → Bool) : List ChanReq → List ChanReq → Option ChanReq
  | _, [] => none
  | seen, r :: t => if p r && !seen.any (reqMeets r) then some r else firstFree p (seen ++ [r]) t

/-- The request the controller starts next: the next of the group being served, else the oldest Carmine one that no older
request overlaps, else the oldest of those (R296, R297). A request that a regulator holds is older than those in the queue. -/
def Chan.nextReq (x : Chan) : Option ChanReq :=
  match (if x.group = 0 then none else x.queue.find? (fun r => r.group == x.group)) with
  | some r => some r
  | none => match firstFree (fun r => r.cls == 0) x.held x.queue with
    | some r => some r
    | none => firstFree (fun _ => true) x.held x.queue

/-- Bursts of a request, first and last. -/
def reqBursts (r : ChanReq) : List Nat := (List.range ((r.addr + r.len - 1) / 64 + 1 - r.addr / 64)).map (fun i => r.addr / 64 + i)

/-- Bursts one burst of a request is charged as: both of a partial-burst write (R303). -/
def reqCost (r : ChanReq) (b : Nat) : Nat :=
  if reqWrites r && (decide (64 * b < r.addr) || decide (r.addr + r.len < 64 * (b + 1))) then 2 else 1

/-- How many bursts of a request issue before a budget is spent, and what is charged then. -/
def issueUpTo (budget : Nat) : Nat → List Nat → Nat × Nat
  | used, [] => (0, used)
  | used, c :: t => if budget ≤ used then (0, used) else let r := issueUpTo budget (used + c) t; (r.1 + 1, r.2)

/-- Reader code of R406 of a client. -/
def readerOf (k : Client) : Nat :=
  match k with
  | .expander => rdExpander
  | .score => rdScore
  | .curator => rdCurator
  | .scrub => rdScrub
  | .repair => rdConservator
  | _ => rdDma

/-- Serve one request or the part of it a regulator lets through (R295, R298, R311): its traffic, the errors a read meets, and its
write. -/
def State.serveReq (s : State) (c : Nat) (r : ChanReq) : State :=
  let s1 := s.traffic c none (reqWrites r) r.addr (burstSpan r.addr r.len)
  let s2 := if r.group = 0 || (s.chan c).group != r.group then (s1.event (srcChan c) 2 0 0 (Config.freeNat s1.free)).draw 1 else s1
  match r.kind with
  | .write b => (s2.writeChan c r.addr b).1
  | _ => s2.noteChan c (readerOf r.client) true (s2.chanErrors (s2.core c).chan r.addr r.len)

/-- Take a request out of the queue and hold what is left of it, with its group, until the next window (R303). -/
def State.holdReq (s : State) (c : Nat) (r rest : ChanReq) : State :=
  let x := s.chan c
  let mine (y : ChanReq) : Bool := r.group != 0 && y.group == r.group
  let later := (x.queue.erase r).filter mine
  (s.setChan c { x with queue := (x.queue.erase r).filter (fun y => !mine y), held := x.held ++ rest :: later, group := 0 }).count
    .stkBwHold ((r.gal.map (fun g => g.val)).getD 0) (later.length + 1)

/-- Start the next request: those a spent budget holds step aside first; `fuel` bounds the queue. -/
def State.serveNext (s : State) (c : Nat) : Nat → State
  | 0 => s
  | fuel + 1 =>
    let x := s.chan c
    match x.nextReq with
    | none => s
    | some r =>
      let done (s : State) (q : ChanReq) : State :=
        let s1 := s.serveReq c q
        let y := s1.chan c
        let left := y.queue.erase r
        s1.setChan c { y with queue := left, group := if left.any (fun z => r.group != 0 && z.group == r.group) then r.group else 0 }
      match r.gal with
      | none => done s r
      | some g =>
        let used := Tbl.look x.used g.val 0
        let n := issueUpTo (s.bwBudget g.val) used ((reqBursts r).map (reqCost r))
        let s1 := s.setChan c { x with used := Tbl.put x.used g.val n.2 0 }
        if n.1 = 0 then (s.holdReq c r r).serveNext c fuel
        else if (reqBursts r).length ≤ n.1 then done s1 r
        else
          let p := reqCut r (64 * (r.addr / 64 + n.1))
          (s1.serveReq c p.1).holdReq c r p.2

/-- CHANNEL_REQUEST_SERVE: clients present requests to a channel's controller, split at row boundaries; it accepts what it has room
for while it is enabled, and starts the next one (R296, R297, R305). -/
def execChannelRequestServe (core : CoreNo) (arrivals : List ChanReq) (ups : List Upset) (s : State) :
    Host.Outcome State Fault Refusal :=
  let s := s.upsets ups
  let c := core.val
  if !s.alive then .next s
  else
    let x := s.chan c
    let s0 := s.setChan c { x with calling := x.calling ++ arrivals.flatMap (fun r => reqSplit (r.len / 1024 + 2) r) }
    let s1 := s0.acceptReqs c (s0.chan c).calling.length
    .next (s1.serveNext c ((s1.chan c).queue.length + 1))

/-- Serve what is queued at a controller, so that an access presented now comes behind it (R297, R299). -/
def State.drain (s : State) (c : Nat) : State :=
  (List.range (s.chan c).queue.length).foldl (fun s _ => s.serveNext c ((s.chan c).queue.length + 1)) s

/-- Runs of an operation on channels, each a core, an address and a length, behind what is queued there (R297, R303). -/
def State.enterRuns (s : State) (gal : Option Nat) (write : Bool) (runs : List (Nat × Nat × Nat)) : State :=
  runs.foldl (fun s r => (s.drain r.1).traffic r.1 gal write r.2.1
    (burstSpan r.2.1 r.2.2 + (if write then (burstEdges r.2.1 r.2.2).length else 0))) s

/-- Whether one of these runs may not be presented now (R303, R305). -/
def State.runsShut (s : State) (gal : Option Nat) (runs : List (Nat × Nat × Nat)) : Bool := runs.any (fun r => s.chanShut r.1 gal)

/-- The operation waits for the next window where a budget is what holds it (R303, R460). -/
def State.runsHold (s : State) (unit ident : Nat) (gal : Option Nat) (runs : List (Nat × Nat × Nat)) : State :=
  runs.foldl (fun s r => s.bwHold unit r.1 ident gal) s

/-- At a boundary every window opens anew: budgets and scrub reads are restored, and held requests re-enter ahead of the queue, as
far as it has room (R303, R312). Bursts charged past a budget count in the window that opens. -/
def State.openWindows (s : State) : State :=
  s.chans.foldl (fun s e =>
    let x := e.2
    let room := 64 - x.queue.length
    let used := (x.used.map (fun u => (u.1, u.2 - s.bwBudget u.1))).filter (fun u => u.2 != 0)
    s.setChan e.1 { x with queue := x.held.take room ++ x.queue, held := x.held.drop room, used := used, scrubUsed := 0 }) s

/-! ### Refresh (R306, R307) -/

/-- Largest whole debt of a plinth's channels. -/
def State.debtPeak (s : State) (p : Nat) : Nat := (plinthCores p).foldl (fun m c => max m (s.debt c / 1024)) 0

/-- REFRESH_DEBT_ACCRUAL: D rises by T_b / 976.5625 ns on every channel, twice that in the hot state; 1/1,024 of an
operation is its resolution, and how the rest is rounded is a free value (R306). -/
def State.accrueDebt (s : State) : State :=
  let extra := Config.freeNat s.free % 2
  (List.range 8).foldl (fun s p =>
    let x := s.plinth p
    let n := 1048576 * s.beatUs * (if x.hot then 2 else 1)
    let s1 := s.setPlinth p { x with accrued := x.accrued + n / 1000 + (if n % 1000 = 0 then 0 else extra), rfDmax := x.rfPeak }
    s1.setPlinth p { s1.plinth p with rfPeak := s1.debtPeak p }) (s.draw 1)

/-- Run n refresh operations on a core's channel. -/
def State.refresh (s : State) (c n : Nat) : State :=
  let x := s.chan c
  s.setChan c { x with rfDone := x.rfDone + n }

/-- REFRESH_SLOT: every channel whose debt exceeds RFHI refreshes until it is at or below RFLO (R307). -/
def execRefreshSlot (s : State) : Host.Outcome State Fault Refusal :=
  if !s.alive then .next s
  else .next ((List.range 2048).foldl (fun s c =>
    let hi := 1024 * s.field .rfCfg [c / 256] 10 0
    let lo := 1024 * s.field .rfCfg [c / 256] 26 16
    if s.debt c ≤ hi then s
    else
      let n := cdiv (s.debt c - lo) 1024
      let s1 := ((s.refresh c n).count .stkRfForced c n).event (srcChan c) 2 0 0 (Config.freeNat s.free)
      if (s.chan c).queue.isEmpty then s1 else (s1.draw 1).waitFree (srcChan c) 12 0 none) s)

/-- REFRESH_OPPORTUNISTIC: a channel with an empty queue and a debt of at least 1 refreshes once (R306). -/
def execRefreshOpportunistic (core : CoreNo) (s : State) : Host.Outcome State Fault Refusal :=
  let c := core.val
  if !s.alive || !(s.chan c).queue.isEmpty || s.debt c < 1024 then .next s
  else .next ((s.refresh c 1).count .stkRfOpp c 1)

/-- SCRUB_READ: the next burst of a channel's scrub is read: a correctable one is rewritten corrected, an uncorrectable one
is recorded (R312). Scrubbing stops in HOLD (R473). -/
def execScrubRead (core : CoreNo) (ups : List Upset) (s : State) : Host.Outcome State Fault Refusal :=
  let s := s.upsets ups
  let c := core.val
  let x := s.chan c
  if !s.running || !x.queue.isEmpty || 1024 ≤ s.debt c || s.field .scrubCfg [c / 256] 7 0 ≤ x.scrubUsed then .next s
  else
    let a := 64 * x.scrub
    let phys := (s.core c).chan
    let errs := s.chanErrors phys a 64
    let s1 := s.setChan c { x with scrub := (x.scrub + 1) % 2 ^ 22, scrubUsed := x.scrubUsed + 1 }
    let s2 := s1.noteChan c rdScrub false errs
    if errs.any (fun e => !e.2) then
      .next (((s2.writeChan c a (s.chanRead phys a 64)).1).count .stkScrubFix c 1)
    else .next s2

/-! ### Thermal evaluation (R308, R313, R314, R510) -/

/-- The hot state after a beat whose hottest die read d: above 85 °C enters it, at or below 83 °C leaves it. -/
def hotNext (hot : Bool) (d : Nat) : Bool := if 340 < d then true else if d ≤ 332 then false else hot

/-- The throttle level after a beat of hottest junction p and die d (R314). -/
def levelNext (level p d : Nat) : Nat :=
  if 392 ≤ p ∨ 372 ≤ d then 2
  else match level with
    | 0 => if 376 ≤ p ∨ 356 ≤ d then 1 else 0
    | 1 => if p ≤ 364 ∧ d ≤ 344 then 0 else 1
    | _ => if p ≤ 380 ∧ d ≤ 360 then 1 else 2

/-- One threshold of R510: its new state, and whether it reports. -/
def thresholdNext (fired : Bool) (v thr : Nat) : Bool × Bool :=
  if fired then (!decide (v + 8 ≤ thr), false) else (decide (thr ≤ v), decide (thr ≤ v))

/-- Report a crossed threshold by a PLDM event, which waits to be read (R510, R526). -/
def State.reportThreshold (s : State) (crossed : Bool) (sensor : Nat) (critical : Bool) : State :=
  if crossed then
    State.emit { s with sec := { s.sec with events := s.sec.events + 1 } } (.pldmThreshold sensor critical)
  else s

/-- The hottest samples since the previous evaluation (R308, R313); with none since, the sensors read as they last did. -/
def Plinth.hottest (x : Plinth) : Plinth :=
  if x.jMax = 0 ∧ x.dMax = 0 then { x with jMax := x.junction, dMax := x.dram } else x

/-- Evaluate one plinth. -/
def State.evalPlinth (s : State) (boundary : Bool) (p : Nat) : State :=
  let x := (s.plinth p).hottest
  let lv := levelNext x.level x.jMax x.dMax
  let pw := thresholdNext x.firedPW x.jMax (s.field .mgtPthr [] 9 0)
  let pc := thresholdNext x.firedPC x.jMax (s.field .mgtPthr [] 25 16)
  let dw := thresholdNext x.firedDW x.dMax (s.field .mgtDthr [] 9 0)
  let dc := thresholdNext x.firedDC x.dMax (s.field .mgtDthr [] 25 16)
  let s1 := s.setPlinth p { x with
    hot := hotNext x.hot x.dMax, level := lv, tPmax := x.jMax, tDmax := x.dMax, jMax := 0, dMax := 0
    firedPW := pw.1, firedPC := pc.1, firedDW := dw.1, firedDC := dc.1 }
  let s2 := (((s1.reportThreshold pw.2 (p + 1) false).reportThreshold pc.2 (p + 1) true).reportThreshold dw.2 (p + 9)
    false).reportThreshold dc.2 (p + 9) true
  let s3 := s2.countIf (boundary && decide (0 < lv)) .stkThrottle p
  if lv = x.level then s3
  else s3.incident clsThermal 0x40 .ok (srcPlinth p) (lv + x.jMax % 1024 * 2 ^ 16 + x.dMax % 1024 * 2 ^ 32) 0

/-- HOT_STATE_EVALUATE, THROTTLE_EVALUATE and THRESHOLD_EVENT of every plinth, at a boundary or a local tick. -/
def State.evalThermal (s : State) (boundary : Bool) : State := (List.range 8).foldl (fun s p => s.evalPlinth boundary p) s

end Sys2Proof.Machine
end

