-- ==== Sys2Proof/Machine/Objects.lean ====
section
/-! DEFINITION. Objects, their places, mappings and T0 frames, and how a mapping and its object end (R322 to R332). -/

namespace Sys2Proof.Machine

/-- An object by number. -/
def State.obj? (s : State) (n : Nat) : Option Obj := Tbl.find s.tiers.objs n
def State.putObj (s : State) (n : Nat) (x : Obj) : State :=
  { s with tiers := { s.tiers with objs := Tbl.insert s.tiers.objs n x } }

/-- The lowest number no object holds (R326). -/
def State.freeObj (s : State) : Option Nat := (List.range 16384).find? (fun n => (s.obj? n).isNone)

/-- Mappings of a gallery, pending releases among them (R324, R331). -/
def State.mapsOf (s : State) (g : Nat) : List Mapping := s.tiers.maps.filter (fun m => m.gal == g)

/-- Whether a range of panels would overlap a mapping of a gallery (R326, R330). -/
def State.mapOverlaps (s : State) (g daddr panels : Nat) : Bool :=
  (s.mapsOf g).any (fun m => decide (m.daddr < daddr + panels * 2 ^ 18) && decide (daddr < m.daddr + m.panels * 2 ^ 18))

/-- The place ranges of an object: core, first channel byte, end (R327). -/
def Obj.spans (x : Obj) : List (Nat × Nat × Nat) :=
  if !x.placed then []
  else (List.range (cdiv x.panels x.ppc)).map (fun q =>
    ((x.cbase + q) % 2048, x.t1ofs, x.t1ofs + 262144 * min x.ppc (x.panels - q * x.ppc)))

/-- Whether an object's places leave the place region, or meet a place of another object or one of its own (R326). -/
def State.placesBad (s : State) (x : Obj) : Bool :=
  let lo := 262144 * s.field .glbT1Base [] 27 18
  let hi := 262144 * s.field .glbT1Limit [] 28 18
  let mine := x.spans
  x.placed && (decide (2048 < mine.length) || mine.any (fun a => decide (a.2.1 < lo) || decide (hi < a.2.2)) ||
    s.tiers.objs.any (fun e => e.2.spans.any (fun b =>
      mine.any (fun a => a.1 == b.1 && decide (a.2.1 < b.2.2) && decide (b.2.1 < a.2.2)))))

/-! ### T0 frames (R321, R322) -/

def State.t0Total (s : State) : Nat := s.field .glbT0Count [] 10 0
def State.t0Free (s : State) : List Nat := (List.range s.t0Total).filter (fun f => !s.tiers.t0used.any (fun u => u.1 == f))
def State.t0Of (s : State) (g : Nat) : Nat := (s.tiers.t0used.filter (fun u => u.2 == g)).length

/-- Whether a gallery cannot take n more T0 frames (R326, R333). -/
def State.t0Lacks (s : State) (g n : Nat) : Bool :=
  n != 0 && (decide (s.t0Free.length < n) || decide (s.field .glbT0Q [g] 10 0 < s.t0Of g + n))

/-- Take n T0 frames for a gallery; which ones is a free value. -/
def State.takeT0 (s : State) (g : Nat) : Nat → State × List Nat
  | 0 => (s, [])
  | n + 1 => match s.pick s.t0Free with
    | (s1, none) => (s1, [])
    | (s1, some f) =>
      let r := State.takeT0 { s1 with tiers := { s1.tiers with t0used := s1.tiers.t0used ++ [(f, g)] } } g n
      (r.1, f :: r.2)

/-- Give T0 frames back. -/
def State.giveT0 (s : State) (fs : List Nat) : State :=
  { s with tiers := { s.tiers with t0used := s.tiers.t0used.filter (fun u => !fs.contains u.1) } }

/-- Hall-buffer offset of a T0 frame. -/
def State.t0Addr (s : State) (f : Nat) : Nat := (s.field .glbT0Base [] 27 18 + f) * 2 ^ 18

/-! ### The end of a mapping (R331) -/

/-- Panels of an object that differ from a panel in T2. -/
def State.panelsOf (s : State) (obj : Nat) : List (Nat × Panel) :=
  (s.tiers.panels.filter (fun e => e.1 / 2 ^ 20 == obj)).map (fun e => (e.1 % 2 ^ 20, e.2))

/-- End an object: its T0 frames, panels, repairs and provenance entry go. -/
def State.endObject (s : State) (obj : Nat) : State :=
  let frames := ((s.panelsOf obj).filter (fun p => p.2.tier == 0)).map (fun p => p.2.frame)
  let s1 := s.giveT0 frames
  { s1 with tiers := { s1.tiers with
      objs := s1.tiers.objs.erase obj
      panels := s1.tiers.panels.filter (fun e => e.1 / 2 ^ 20 != obj)
      repairs := s1.tiers.repairs.filter (fun r => r.obj != obj) } }

/-- Drop a mapping; a writable object ends with it, an accessioned one with its last (R331). -/
def State.endMapping (s : State) (m : Mapping) : State :=
  let s1 : State := { s with tiers := { s.tiers with maps := s.tiers.maps.erase m } }
  let shared := match s1.obj? m.obj with | none => false | some x => x.accessioned
  if shared && s1.tiers.maps.any (fun y => y.obj == m.obj) then s1 else s1.endObject m.obj

/-- Whether a mapping's release must wait for a migration through it, or for a repair of the object that ends with it (R331, R425). -/
def State.releaseHeld (s : State) (m : Mapping) : Bool :=
  s.tiers.migs.any (fun g => g.obj == m.obj && g.op.gal == m.gal && decide (m.daddr ≤ fld g.op.d 8 47 0) &&
    decide (fld g.op.d 8 47 0 < m.daddr + m.panels * 2 ^ 18)) ||
    (!s.tiers.maps.any (fun y => y.obj == m.obj && y != m) &&
      s.tiers.repairs.any (fun r => r.obj == m.obj && r.stage != .failed))

/-- Whether an object holds as many pins as R332 allows. -/
def State.pinsFull (s : State) (n : Nat) : Bool := match s.obj? n with | none => false | some x => decide (65535 ≤ x.pins)

/-- Add to and subtract from an object's pins (R332). -/
def State.pinObj (s : State) (n : Nat) (up : Bool) : State :=
  match s.obj? n with
  | none => s
  | some x => s.putObj n { x with pins := if up then x.pins + 1 else x.pins - 1 }

end Sys2Proof.Machine
end

