-- ==== Sys2Proof/Machine/Rings.lean ====
section
/-! DEFINITION. Refused register writes, ring enables, the poll of summary, doorbells and consumer lines, ring notices
and ring interrupts (R10, R235 to R260). -/

namespace Sys2Proof.Machine

/-! ### Refused register writes (R10, R496, R503) -/

/-- Offer a refusal to one function's record. -/
def State.holdRefusal (s : State) (key func off : Nat) (st : Status) : State :=
  let w := Tbl.look s.ctl.werr key {}
  let w' : Werr := if w.valid then { w with ovf := true } else { status := st, valid := true, func := func, addr := off }
  { s with ctl := { s.ctl with werr := Tbl.put s.ctl.werr key w' {} } }

/-- Record a refused register write: in GLB_WERR, and for a VF in its own VF_WERR too (R503). -/
def State.refuseWrite (s : State) (func off : Nat) (st : Status) : State :=
  let s1 := if func = 0 then s else s.holdRefusal func func off st
  s1.holdRefusal 0 func off st

/-- Record the one status a write's refusals give, if any (R530, R533). -/
def State.refuseAll (s : State) (func off : Nat) (l : List Status) : State :=
  match refusal l with
  | none => s
  | some st => s.refuseWrite func off st

/-- Whether the TDI of a gallery locks its configuration against the PF (R443). -/
def State.tdiLocked (s : State) (g : Nat) : Bool := g != 0 && s.tdi g != .unlocked

/-! ### Ring enable and disable (R235, R236) -/

/-- Rings of a gallery. -/
def galleryRings (g : Nat) : List Nat := (List.range 64).map (fun j => 64 * g + j)

/-- Rings of a gallery that are enabled. -/
def State.enabledRings (s : State) (g : Nat) : List Nat := (galleryRings g).filter (fun r => s.flag .hifRcfg [r] 0)

/-- The refusals an enable meets (R236); `w` is the register as it would stand. -/
def State.enableBad (s : State) (r w : Nat) : List Status :=
  check (bits w 5 1 < 6 || 16 < bits w 5 1) .badDescriptor ++
  check (bits w 7 6 == 0) .budgetExceeded ++
  check (decide (s.field .hifGal [r / 64] 6 0 ≤ (s.enabledRings (r / 64)).length)) .quotaExceeded ++
  check (s.ringActive r) .lockedField

/-- An accepted enable (R236). -/
def State.enableRing (s : State) (r : Nat) : State :=
  let x := s.ring r
  (s.setField .hifRcfg [r] 0 0 1).setRing r { copyA := x.copyA, first := true, intLeft := x.intLeft, intPend := x.intPend, intEnd := x.intEnd }

/-- A write of HIF_RCFGr by a function at offset `off` of its BAR0: its locked fields, then its EN bit (R8, R10, R235,
R236, R443). -/
def State.writeRcfg (s : State) (func r off : Nat) (word : Word) : State :=
  let w := word.toNat
  let old := s.written .hifRcfg [r]
  let tdi := func == 0 && s.tdiLocked (r / 64) && bits w 23 0 != old
  let enables := bit w 0 && !bit old 0
  if tdi then s.refuseAll func off (.lockedField :: (if enables then s.enableBad r w else []))
  else
    let locked := s.ringActive r && !s.inHold && bits w 23 1 != bits old 23 1
    let s1 := if locked then s else s.setField .hifRcfg [r] 23 1 (bits w 23 1)
    if enables then
      let bad := s1.enableBad r (s1.written .hifRcfg [r])
      if bad.isEmpty && !locked then s1.enableRing r
      else s1.refuseAll func off (check locked .lockedField ++ bad)
    else (if bit w 0 then s1 else s1.setField .hifRcfg [r] 0 0 0).refuseAll func off (check locked .lockedField)

/-- Whether a function reaches a ring's registers (R231, R502). -/
def reachesRing (func ring : Nat) : Bool := func == 0 || func == ring / 64

/-- Offset of HIF_RCFG of a ring in a function's BAR0 (R502). -/
def rcfgOffset (func ring : Nat) : Nat :=
  if func = 0 then regOff .hifRcfg [ring] else 0x10018 + 32 * (ring % 64)

/-- RING_ENABLE: a write of HIF_RCFGr with EN = 1 (R236). -/
def execRingEnable (func : GalNo) (ring : RingNo) (word : Word) (s : State) : Host.Outcome State Fault Refusal :=
  .next (if s.barUp && reachesRing func.val ring.val && word.getLsbD 0 then
    s.writeRcfg func.val ring.val (rcfgOffset func.val ring.val) word else s)

/-- RING_DISABLE: a write of HIF_RCFGr with EN = 0 (R236). -/
def execRingDisable (func : GalNo) (ring : RingNo) (word : Word) (s : State) : Host.Outcome State Fault Refusal :=
  .next (if s.barUp && reachesRing func.val ring.val && !word.getLsbD 0 then
    s.writeRcfg func.val ring.val (rcfgOffset func.val ring.val) word else s)

/-! ### Ring interrupts (R260) -/

/-- RING_INTERRUPT_INTERVAL_END: records written during the interval are announced (R260). -/
def execRingInterruptIntervalEnd (ring : RingNo) (s : State) : Host.Outcome State Fault Refusal :=
  .next (if s.alive && (s.ring ring.val).intEnd then s.ringMessage ring.val else s)

/-- One beat off a ring's interval; one that ends with records written in it announces them. -/
def Ring.tick (x : Ring) : Ring :=
  { x with intLeft := x.intLeft - 1, intEnd := x.intEnd || (x.intPend && decide (x.intLeft = 1)) }

/-- One beat or local tick off every coalescing interval (R260, R409, R531). -/
def State.tickInterrupts (s : State) : State :=
  { s with
      hif := { s.hif with
        rings := (s.hif.rings.map (fun e => (e.1, e.2.tick))).filter (fun e => e.2 != {}) }
      ras := { s.ras with
        intLeft := s.ras.intLeft - 1, intEnd := s.ras.intEnd || (s.ras.intPend && decide (s.ras.intLeft = 1)) } }

/-! ### The poll (R246 to R252) -/

/-- Rings that are enabled and not halted. -/
def State.liveRings (s : State) : List Nat :=
  (List.range 64).flatMap (fun g => (s.enabledRings g).filter (fun r => !(s.ring r).halt))

/-- Whether a gallery's summary word lies apart (R234). -/
def State.sumSep (s : State) (g : Nat) : Bool := s.flag .hifGal [g] 31

/-- Address of a gallery's separate summary word. -/
def State.gsum (s : State) (g : Nat) : Nat := s.written .hifGsumLo [g] + s.written .hifGsumHi [g] * 2 ^ 32

/-- Room in a stream's answer ring (R258). -/
def Ctx.room (x : Ctx) : Nat := 2 ^ x.rlog2 - cdiff x.prod x.cons

/-- Streams whose consumer line this poll reads (R258): due and without room for two records, or with END waiting; up
to 512 in number order from where the last poll stopped. -/
def State.consWanted (s : State) : List Nat :=
  let all := (s.doc.ctxs.filter (fun e => e.2.endWait.isSome ||
    ((e.2.st == .prefill || e.2.st == .decode) && decide (e.2.due ≤ s.beat) && decide (e.2.room < 2)))).map Prod.fst
  (all.filter (fun k => decide (s.hif.consNext ≤ k)) ++ all.filter (fun k => decide (k < s.hif.consNext))).take 512

/-- Whether the incident ring's consumer line is read: records wait for room (R407). -/
def State.incidentLineWanted (s : State) : Bool := s.flag .rasCtrl [] 0 && !s.ras.queue.isEmpty && s.incidentFull

/-- Consumer-line address of a stream (R257). -/
def Ctx.lineAddr (x : Ctx) : Nat := x.ring + 16 * 2 ^ x.rlog2

/-- End the poll once nothing it awaits is left. -/
def State.pollSettle (s : State) : State :=
  match s.hif.poll with
  | none => s
  | some p =>
    if !p.summary && p.sep.isEmpty && p.doorbells.isEmpty && p.descriptors.isEmpty && p.consumers.isEmpty && !p.incident
    then { s with hif := { s.hif with poll := none } }
    else s

/-- The poll stops: a ring whose doorbell it still awaits is flagged at the next one, so that no notification is lost (R246). -/
def State.dropPoll (s : State) : State :=
  match s.hif.poll with
  | none => s
  | some p =>
    let s1 := p.doorbells.foldl (fun s r => s.setRing r { s.ring r with reflag := true, torn := false }) s
    { s1 with hif := { s1.hif with poll := none } }

/-- Put back the poll as it now stands. -/
def State.setPoll (s : State) (p : Poll) : State := { s with hif := { s.hif with poll := some p } }

/-- What one ring may still fetch in this poll (R249): what was published, RMAX and the room in its completion ring. -/
structure Want where
  ring : Nat
  want : Nat
  got  : Nat := 0
  deriving DecidableEq, Repr

/-- How many descriptors the completion ring lets a ring fetch while F + (CW − C₀) ≤ N − 2 holds before each (R249): the last
entry stays free for a notice. -/
def State.fetchRoom (s : State) (r : Nat) : Nat :=
  s.ringSize r - 1 - ((s.inflightOf r).length + cdiff (s.ring r).cw (s.ring r).c0)

/-- Descriptors of a gallery in flight. -/
def State.inflightGal (s : State) (g : Nat) : Nat := (s.hif.inflight.filter (fun o => o.gal == g)).length

/-- Whether a ring holds an uncompleted FENCE (R249, R253). -/
def State.fenced (s : State) (r : Nat) : Bool :=
  s.hif.fences.any (fun f => match f.org with | .ring q _ => q.val == r | .step _ => false)

/-- Hand out one descriptor to each ring in turn, ascending, while slots are left (R249): `gal` counts what each gallery
may still take, `left` what the device and PMAX still allow. -/
def handOut : List Want → Tbl Nat → Nat → List Want × Tbl Nat × Nat
  | [], gal, left => ([], gal, left)
  | w :: t, gal, left =>
    let g := w.ring / 64
    let room := Tbl.look gal g 0
    if w.got < w.want ∧ 0 < room ∧ 0 < left then
      let r := handOut t (Tbl.put gal g (room - 1) 0) (left - 1)
      ({ w with got := w.got + 1 } :: r.1, r.2)
    else
      let r := handOut t gal left
      (w :: r.1, r.2)

/-- Rounds of handing out, until none is given. -/
def handRounds : Nat → List Want → Tbl Nat → Nat → List Want
  | 0, ws, _, _ => ws
  | n + 1, ws, gal, left =>
    let r := handOut ws gal left
    if r.2.2 = left then ws else handRounds n r.1 r.2.1 r.2.2

/-- Read `n` entries of a submission ring from descriptor `i` on: a run that passes the ring's end goes on at entry 0 (R237). -/
def State.readEntries (s : State) (r i n : Nat) : State :=
  let size := s.ringSize r
  let base := s.ringAddr .hifSqLo .hifSqHi r
  let here := min n (size - i % size)
  let s1 := s.hostRead (r / 64) (.descriptor (Fin.ofNat 4096 r)) (base + 64 * (i % size)) (64 * here)
  if here < n then s1.hostRead (r / 64) (.descriptor (Fin.ofNat 4096 r)) base (64 * (n - here)) else s1

/-- Step 4 of R246: fetch from the flagged rings and from every ring whose FIDX differs from its P₀ (R249). -/
def State.planFetch (s : State) : State :=
  match s.hif.poll with
  | none => s
  | some p =>
    let rings := s.liveRings.filter (fun r => (s.ring r).fidx != (s.ring r).p0 && !s.fenced r)
    let avail (r : Nat) : Nat := min (cdiff (s.ring r).p0 (s.ring r).fidx) p.rmax
    let wants := rings.map (fun r => ({ ring := r, want := min (avail r) (s.fetchRoom r) } : Want))
    let gals := distinct (rings.map (fun r => r / 64))
    let room := gals.foldl (fun t g => Tbl.put t g (s.field .hifGal [g] 20 8 - s.inflightGal g) 0) []
    let ws := handRounds 1024 wants room (min p.pmax (4096 - s.hif.inflight.length))
    let got := ws.filter (fun w => decide (0 < w.got))
    let full := ws.filter (fun w => decide (w.got = s.fetchRoom w.ring) && decide (w.got < avail w.ring))
    let s1 := full.foldl (fun s w => s.count .hifCqFull (w.ring / 64) 1) s
    let s2 := got.foldl (fun s w => s.readEntries w.ring (s.ring w.ring).fidx.toNat w.got) s1
    (s2.setPoll { p with descriptors := got.map (fun w => (w.ring, w.got)), fetched := [] }).pollSettle

/-- Issue the doorbell reads of the flagged rings, or go on to fetching where there are none (R246 step 3). -/
def State.readDoorbells (s : State) (p : Poll) (flagged : List Nat) : State :=
  let s1 := s.setPoll { p with summary := false, sep := [], doorbells := flagged }
  if flagged.isEmpty then s1.planFetch
  else flagged.foldl (fun s r => s.hostRead (r / 64) (.doorbell (Fin.ofNat 4096 r)) (s.ringAddr .hifDbLo .hifDbHi r) 64) s1

/-- Start the poll of this beat, or count a skip while the last one runs (R246 step 1, R252, R258). -/
def State.startPoll (s : State) : State :=
  if !s.running || !s.flag .hifCtrl [] 0 then s
  else match s.hif.poll with
  | some _ => s.count .hifPollSkip 0 1
  | none =>
    let gals := (List.range 64).filter (fun g => !(s.enabledRings g).isEmpty)
    let sep := gals.filter s.sumSep
    let lines := gals.any (fun g => !s.sumSep g)
    let cons := s.consWanted
    let inc := s.incidentLineWanted
    let p : Poll := { summary := lines, sep := sep, consumers := cons, incident := inc, beat := s.beat
                      pmax := s.field .hifPollCfg [] 10 0, rmax := s.field .hifPollCfg [] 22 16 }
    let s1 := if lines then s.hostRead 0 .summary (s.written .hifSumLo [] + s.written .hifSumHi [] * 2 ^ 32) 512 else s
    let s2 := sep.foldl (fun s g => s.hostRead g (.sepSummary (Fin.ofNat 64 g)) (s.gsum g) 8) s1
    let s3 := cons.foldl (fun s k => s.hostRead (s.ctx k).gal (.consumer (.stream (Fin.ofNat 32768 k)))
      (s.ctx k).lineAddr 64) s2
    let s4 := if inc then s3.hostRead 0 (.consumer .incident)
      (s3.written .rasIringLo [] + s3.written .rasIringHi [] * 2 ^ 32 + 32 * s3.incidentSize) 64 else s3
    let s5 : State := { s4 with hif := { s4.hif with consNext := match cons.getLast? with
      | none => s4.hif.consNext
      | some k => k + 1 } }
    let s6 := s5.setPoll p
    if lines || !sep.isEmpty then s6 else s6.readDoorbells p []

/-- Bits of a gallery's acknowledge word: the device's copies of A (R237). -/
def State.ackWord (s : State) (g : Nat) : Nat :=
  (List.range 64).foldl (fun v j => if (s.ring (64 * g + j)).copyA then v + 2 ^ j else v) 0

/-- Post a gallery's acknowledge word (R237, R246). -/
def State.postAck (s : State) (g : Nat) : State :=
  if s.sumSep g then s.hostWrite g (s.gsum g + 8) (toLE 8 (s.ackWord g))
  else s.hostWrite 0 (s.written .hifAckLo [] + s.written .hifAckHi [] * 2 ^ 32 + 8 * g) (toLE 8 (s.ackWord g))

/-- Flag one ring by its summary bit (R246 step 2). -/
def State.flagRing (s : State) (r : Nat) (bitS : Bool) : State × Bool :=
  let x := s.ring r
  if x.first || x.reflag || bitS != x.copyA then
    (s.setRing r { x with copyA := bitS, first := false, reflag := false }, true)
  else (s, false)

/-- Flag the rings of one gallery from its summary word, and post its acknowledge word if it changed. -/
def State.flagGallery (s : State) (g : Nat) (word : BitVec 64) : State × List Nat :=
  let rings := (s.enabledRings g).filter (fun r => !(s.ring r).halt)
  let before := s.ackWord g
  let r := rings.foldl (fun (acc : State × List Nat) r =>
    let f := acc.1.flagRing r (word.getLsbD (r % 64))
    (f.1, if f.2 then acc.2 ++ [r] else acc.2)) (s, [])
  (if r.1.ackWord g = before then r.1 else r.1.postAck g, r.2)

/-- SUMMARY_READ_DONE: the summary lines and separate summary words are back; the flagged doorbells are read (R246).
`lines` gives the 64 words at SUMBASE, `sep` the separate words. -/
def execSummaryReadDone (lines : List (BitVec 64)) (sep : List SepSummary) (s : State) :
    Host.Outcome State Fault Refusal :=
  match s.hif.poll with
  | none => .next s
  | some p =>
    if !s.running || !(p.summary || !p.sep.isEmpty) then .next s
    else
      let words := (List.range 64).filterMap (fun g =>
        if s.sumSep g then
          if p.sep.contains g then (sep.find? (fun x => x.gal.val == g)).map (fun x => (g, x.word)) else none
        else if p.summary then some (g, lines.getD g 0) else none)
      let r := words.foldl (fun (acc : State × List Nat) gw =>
        let f := acc.1.flagGallery gw.1 gw.2
        (f.1, acc.2 ++ f.2)) (s, [])
      .next (r.1.readDoorbells p r.2)

/-- A ring notice of cause `cause`, if R249's spare entry is free for it (R256). -/
def State.ringNotice (s : State) (r cause result : Nat) : State × Bool :=
  let x := s.ring r
  if (s.inflightOf r).length + cdiff x.cw x.c0 ≤ s.ringSize r - 1 then
    (s.ringRecord r 0xFFFF 0 0x10 cause 0 result x.fidx.toNat, true)
  else (s.count .hifNoticeDrop (r / 64) 1, false)

/-- Report one illegal count of a doorbell, once for each value (R248). -/
def State.reportCount (s : State) (r cause : Nat) (v v2 : Word) (told : List Word) (mark : Ring → Ring) : State :=
  if told.contains v then s
  else
    let n := s.ringNotice r cause (v.toNat + v2.toNat * 2 ^ 32)
    if n.2 then n.1.setRing r (mark (n.1.ring r)) else n.1

/-- A whole doorbell: taken if both its counts are legal, else ignored and reported (R248). -/
def State.takeDoorbell (s : State) (r : Nat) (pidx cidx : Word) : State :=
  let x := s.ring r
  let okP := decide (cdiff x.p0 x.fidx ≤ cdiff pidx x.fidx) && decide (cdiff pidx x.fidx ≤ s.ringSize r)
  let okC := decide (cdiff cidx x.c0 ≤ cdiff x.cw x.c0)
  if okP && okC then s.setRing r { x with p0 := pidx, c0 := cidx, torn := false }
  else
    let s1 := (s.setRing r { x with torn := false }).count .hifDbBad (r / 64) 1
    let s2 := if okP then s1 else
      s1.reportCount r 0x10 pidx pidx x.badP (fun y => { y with badP := y.badP ++ [pidx] })
    if okC then s2 else s2.reportCount r 0x11 cidx cidx x.badC (fun y => { y with badC := y.badC ++ [cidx] })

/-- The poll no longer awaits a ring's doorbell; fetching follows the last one (R246 step 4). -/
def State.doorbellGone (s : State) (r : Nat) : State :=
  match s.hif.poll with
  | none => s
  | some p =>
    let rest := p.doorbells.filter (fun q => q != r)
    let s1 := s.setPoll { p with doorbells := rest }
    if rest.isEmpty then s1.planFetch else s1

/-- DOORBELL_READ_DONE: a doorbell is checked for tearing and legality (R247, R248). -/
def execDoorbellReadDone (ring : RingNo) (record : Line64) (s : State) : Host.Outcome State Fault Refusal :=
  match s.hif.poll with
  | none => .next s
  | some p =>
    let r := ring.val
    if !s.running || !p.doorbells.contains r then .next s
    else
      let pidx := BitVec.ofNat 32 (fld record 0 31 0)
      let cidx := BitVec.ofNat 32 (fld record 4 31 0)
      let whole := pidx.toNat == fld record 60 31 0 && cidx.toNat == fld record 56 31 0
      if whole then .next ((s.takeDoorbell r pidx cidx).doorbellGone r)
      else
        let x := s.ring r
        let s1 := s.count .hifDbTorn (r / 64) 1
        if x.torn then .next ((s1.setRing r { x with torn := false, reflag := true }).doorbellGone r)
        else .next ((s1.setRing r { x with torn := true }).hostRead (r / 64) (.doorbell ring)
          (s.ringAddr .hifDbLo .hifDbHi r) 64)

/-- A consumer line's count, unless the line is torn (R257, R258). -/
def lineCons (line : Line64) : Option Word :=
  if fld line 0 31 0 = fld line 60 31 0 then some (BitVec.ofNat 32 (fld line 0 31 0)) else none

/-- The poll no longer awaits a consumer line. -/
def State.lineGone (s : State) (c : ConsLine) : State :=
  match s.hif.poll with
  | none => s
  | some p => (s.setPoll (match c with
      | .stream k => { p with consumers := p.consumers.filter (fun q => q != k.val) }
      | .incident => { p with incident := false })).pollSettle

/-- Whether the poll awaits a consumer line. -/
def Poll.awaits (p : Poll) (c : ConsLine) : Bool :=
  match c with
  | .stream k => p.consumers.contains k.val
  | .incident => p.incident

/-- Take a stream's or the incident ring's consumer count: one that moves backward or passes PROD is ignored and counted
(R258). -/
def State.takeCons (s : State) (c : ConsLine) (v : Word) : State :=
  match c with
  | .stream k =>
    let x := s.ctx k.val
    if cdiff v x.cons ≤ cdiff x.prod x.cons then s.setCtx k.val { x with cons := v }
    else s.count .hifConsBad x.gal 1
  | .incident =>
    if cdiff v s.ras.cons ≤ cdiff s.ras.w s.ras.cons then { s with ras := { s.ras with cons := v } }
    else s.count .hifConsBad 0 1

/-- CONSUMER_LINE_READ_DONE: a torn line is ignored until the next poll (R258, R407). -/
def execConsumerLineReadDone (which : ConsLine) (line : Line64) (s : State) : Host.Outcome State Fault Refusal :=
  match s.hif.poll with
  | none => .next s
  | some p =>
    if !s.running || !p.awaits which then .next s
    else
      let s1 := match lineCons line with
        | none => s
        | some v => s.takeCons which v
      .next (s1.lineGone which)

end Sys2Proof.Machine
end

