-- ==== Sys2Proof/Machine/Curator.lean ====
section
/-! DEFINITION. The Curator: frames and page numbers, reservations, token writes and copy-on-write, forks, page copies
and moves, limbo, and lost tables (R170 to R195, R402). -/

namespace Sys2Proof.Machine

/-! ### Placement (R181, R183) -/

/-- The placement entry of a slot: its core offset (R181). -/
def State.placeEntry (s : State) (place slot : Nat) : State × Nat :=
  let a := s.tableAddr (place + slot / 32)
  let r := s.readChan a.1 (a.2 + 2 * (slot % 32)) 2 rdCurator
  (r.1, ofLE r.2.1 % 2048)

/-- Home core of slot s in row k (R183). -/
def State.homeCore (s : State) (m : KvMap) (slot row : Nat) : State × Nat :=
  let e := s.placeEntry m.place slot
  (e.1, (m.pbase + e.2 + m.rowstep * row) % 2048)

/-! ### Frames (R179, R180) -/

/-- Whether frame f of core c is free to allocate. -/
def State.frameFree (s : State) (c f : Nat) : Bool := (s.frame c f).free && !(s.frame c f).retired

/-- Free frames of a core. -/
def State.freeFrames (s : State) (c : Nat) : List Nat := positions s.framesPer (s.frameFree c)

/-- How many frames of a core are free: the table lists every frame that is not free and clean. -/
def State.freeCount (s : State) (c : Nat) : Nat :=
  s.framesPer - (s.cur.frames.filter (fun e => e.1 / 16384 == c && (!e.2.free || e.2.retired))).length

/-- The cores of a list with most free frames, none if every one is full (R180). -/
def State.roomiest (s : State) (cs : List Nat) : List Nat :=
  match maxBy s.freeCount cs with
  | none => []
  | some c => if s.freeCount c = 0 then [] else cs.filter (fun x => s.freeCount x == s.freeCount c)

/-- A frame for a gallery on a requested core, in the order of R180: the core and frame, and the state with a fall-back
counted. The frame is taken from the free ones and not yet used. -/
def State.chooseFrame (s : State) (core gal : Nat) : State × Option (Nat × Nat) :=
  let on (s : State) (c : Nat) : State × Option (Nat × Nat) :=
    let free := s.freeFrames c
    let own := free.filter (fun f => (s.frame c f).clean || (s.frame c f).lastGal == gal)
    let r := s.pick (if own.isEmpty then free else own)
    match r.2 with
    | none => (r.1, none)
    | some f => (r.1.setFrame c f { r.1.frame c f with free := false }, some (c, f))
  if 0 < s.freeCount core then on s core
  else
    let near := s.roomiest (plinthCores (core / 256))
    let r := s.pick (if near.isEmpty then s.roomiest (List.range 2048) else near)
    match r.2 with
    | none => (r.1, none)
    | some c => on (r.1.count .placeFallback 0 1) c

/-- Give back a frame taken and not used. -/
def State.returnFrame (s : State) (c f : Nat) : State := s.setFrame c f { s.frame c f with free := true }

/-- First use of a taken frame by a gallery: zero-filled where R180 asks for it, and no longer clean. -/
def State.useFrame (s : State) (c f gal : Nat) : State :=
  let x := s.frame c f
  let fill := s.flag .curCtrl [] 1 || !(x.clean || x.lastGal == gal)
  let s1 := s.setFrame c f { x with free := false, clean := false, lastGal := gal }
  if fill then
    ((s1.count .curScrub 0 1).writeChan c (s.kvAddr f) (List.replicate 16384 0)).1.writeChan c (s.scAddr f)
      (List.replicate 1024 0) |>.1
  else s1

/-- Frames now in limbo, as CUR_LIMBO shows. -/
def State.showLimbo (s : State) : State :=
  s.setLevel .curLimbo (s.cur.limbo.filter (fun l => l.lines == 0)).length

/-- Vacate a frame into limbo (R179). -/
def State.vacate (s : State) (c f : Nat) : State :=
  State.showLimbo { s with cur := { s.cur with limbo := s.cur.limbo ++ [({ core := c, frame := f, beat := s.beat } : Limbo)] } }

/-- Whether anything that began at or before beat n still runs: a lane group or a DMA gather (R179). -/
def State.oldWork (s : State) (n : Nat) : Bool :=
  s.doc.groups.any (fun g => decide (g.beat ≤ n)) ||
    s.dma.ops.any (fun o => o.op.opcode == 0x23 && o.began.any (fun b => decide (b ≤ n)))

/-- LIMBO_RETURN: what was vacated before this boundary and is no longer in use goes back to the free lists (R179). -/
def State.limboReturn (s : State) : State :=
  let stay := s.cur.limbo.filter (fun l => decide (s.beat ≤ l.beat) || s.oldWork l.beat)
  let go := s.cur.limbo.filter (fun l => !(decide (s.beat ≤ l.beat) || s.oldWork l.beat))
  let s1 := go.foldl (fun s l => if l.lines = 0 then s.setFrame l.core l.frame { s.frame l.core l.frame with free := true }
    else s) { s with cur := { s.cur with limbo := stay } }
  if go.isEmpty then s else s1.showLimbo

/-! ### Page numbers (R177, R178) -/

/-- Page numbers of the device. -/
def State.pageCount (s : State) : Nat := 2048 * s.framesPer

/-- First free page number at or after n, going round; `fuel` bounds the pages in use. -/
def State.freePageFrom (s : State) : Nat → Nat → Option Nat
  | 0, _ => none
  | fuel + 1, n =>
    if (s.page n).st == .free && !s.cur.retired.contains n then some n
    else s.freePageFrom fuel ((n + 1) % s.pageCount)

/-- The next free page number: the first of those freed again, else the first from `fresh` on (R177). DESIGN CHOICE: the list begins in
ascending order, and where a freed number enters it is a free value (log 112). -/
def State.freePage (s : State) : State × Option Nat :=
  match s.cur.freed.find? (fun n => (s.page n).st == .free && !s.cur.retired.contains n) with
  | some n => ({ s with cur := { s.cur with freed := s.cur.freed.filter (fun q => q != n) } }, some n)
  | none =>
    if s.pageCount ≤ s.cur.fresh then (s, none)
    else match s.freePageFrom (min s.pageCount (s.cur.pages.length + s.cur.retired.length + 1)) s.cur.fresh with
      | none => (s, none)
      | some n => ({ s with cur := { s.cur with fresh := max s.cur.fresh (n + 1) } }, some n)

/-- A page number returns to the free list. -/
def State.listFree (s : State) (n : Nat) : State :=
  let i := Config.freeNat s.free % (s.cur.freed.length + 1)
  { s.draw 1 with cur := { s.cur with freed := s.cur.freed.take i ++ n :: s.cur.freed.drop i } }

/-- Pages and reserved frames a gallery's quota counts (R195). -/
def State.pageUse (s : State) (g : Nat) : Nat :=
  (s.cur.pages.filter (fun e => e.2.gal == g && e.2.st != .free)).length +
    ((s.doc.groups.flatMap (fun l => l.members)).filter (fun m => (s.ctx m.stream).gal == g)).foldl
      (fun n m => n + m.frames.length) 0

/-- PQUOTA of a gallery. -/
def State.pageQuota (s : State) (g : Nat) : Nat := s.field .curGal [g] 25 0

/-- Free a page and all its copies; their frames enter limbo (R178). -/
def State.freePageNo (s : State) (n : Nat) : State :=
  (n :: (s.page n).copies).foldl (fun s q => ((s.vacate (s.page q).core (s.page q).frame).setPage q {}).listFree q) s

/-- Remove the highest copies while the sharers no longer call for them (R193). -/
def State.trimCopies (s : State) (n : Nat) : Nat → State
  | 0 => s
  | fuel + 1 =>
    let p := s.page n
    let share := s.field .curGalR [p.gal] 7 0
    match p.copies.getLast? with
    | none => s
    | some q =>
      if p.refs ≤ share * (p.copies.length - 1) then
        ((((s.vacate (s.page q).core (s.page q).frame).setPage q {}).listFree q).setPage n
          { p with copies := p.copies.dropLast }).trimCopies n fuel
      else s

/-- One stream map fewer names a page (R178). -/
def State.dropRef (s : State) (n : Nat) : State :=
  let p := s.page n
  if p.st != .live then s
  else if p.refs ≤ 1 then s.freePageNo n
  else (s.setPage n { p with refs := p.refs - 1 }).trimCopies n 16

/-! ### Row blocks (R176, R182) -/

/-- Table lines that row blocks and limbo occupy: first line and count. -/
def State.rowSpans (s : State) : List (Nat × Nat) :=
  (s.cur.maps.flatMap (fun e => e.2.rows.map (fun r => (r.line, rowBlockLines e.2.slots)))) ++
    (s.cur.limbo.filter (fun l => l.lines != 0)).map (fun l => (l.frame, l.lines))

/-- Whether n lines from line a are free row-block lines. -/
def State.rowFits (s : State) (a n : Nat) : Bool :=
  decide (s.rowLine0 ≤ a) && decide (a + n ≤ s.tableLines) &&
    s.rowSpans.all (fun x => decide (x.1 + x.2 ≤ a) || decide (a + n ≤ x.1))

/-- Lines for a row block, if the table region has them; where among the free ones is a free value. -/
def State.rowLines (s : State) (n : Nat) : State × Option Nat :=
  let starts := (s.rowLine0 :: s.rowSpans.map (fun x => x.1 + x.2)).filter (fun a => s.rowFits a n)
  s.pick starts

/-! ### Lost tables (R402) -/

/-- Write a record to a stream's answer ring without regard to room (R209, R259). -/
def State.writeAnswer (s : State) (k kind token pos : Nat) (st : Status) (prob rank : Nat) : State :=
  let x := s.ctx k
  let w := x.prod.toNat
  let phase := (w / 2 ^ x.rlog2 + 1) % 2
  let rec16 := toLE 4 (token % 2 ^ 24 + kind * 2 ^ 24) ++ toLE 4 pos ++ toLE 4 (st.code + s.beat % 2 ^ 24 * 256) ++
    toLE 2 prob ++ toLE 2 (rank % 64 + phase * 2 ^ 15)
  let s1 := (s.hostWrite x.gal (x.ring + 16 * (w % 2 ^ x.rlog2)) rec16).setCtx k { x with prod := x.prod + 1 }
  let v := x.gal * 65536 + x.msix
  if x.msix = 0xFFFF ∨ 2047 < x.msix ∨ s1.hif.owedVecs.contains v then s1
  else { s1 with hif := { s1.hif with owedVecs := s1.hif.owedVecs ++ [v] } }

/-- The one message of each vector that records of the ended beat name (R261; DESIGN CHOICE: the next boundary or local tick is
when no record of the beat can follow). -/
def State.sendOwed (s : State) : State :=
  s.hif.owedVecs.foldl (fun s v => s.msix (v / 65536) (v % 65536)) { s with hif := { s.hif with owedVecs := [] } }

/-- A NOTICE record, dropped and counted without room (R209, R259). -/
def State.notice (s : State) (k : Nat) (st : Status) : State :=
  if 0 < (s.ctx k).room then s.writeAnswer k 2 0 (s.kvMap k).tokens st 0 0
  else s.count .hifNoticeDrop (s.ctx k).gal 1

/-- Hold a stream whose tables or context are lost (R402). `line` is the table line, or 0xFFFF_FFFF for a context. -/
def State.holdStream (s : State) (k line : Nat) (ue : Bool) : State :=
  let st := if ue then Status.arrayUe else .internal
  let unit := if line = 0xFFFFFFFF then srcHub hubDocent else srcHub hubCurator
  let x := s.ctx k
  if x.held then s
  else ((s.setCtx k { x with held := true }).notice k st).incident clsControl 0x22 st unit line k

/-- Retire the page numbers of a lost page-table line, or the frames of a lost frame-table line (R402). -/
def State.retireLine (s : State) (line : Nat) : State :=
  if line < s.frameLine0 then
    { s with cur := { s.cur with retired := s.cur.retired ++
        (((List.range 4).map (fun i => 4 * line + i)).filter (fun n => !s.cur.retired.contains n)) } }
  else if line < s.headerLine 0 then
    (List.range 64).foldl (fun s i =>
      let b := 64 * (line - s.frameLine0) + i
      let c := b / s.framesPer
      let f := b % s.framesPer
      s.setFrame c f { s.frame c f with retired := true }) s
  else s

/-- The table lines a read of a stream's map touches: its header, the blocks of some of its rows and the page-table lines
of the pages they name. -/
def State.mapLines (s : State) (k : Nat) (rows : List Row) : List Nat :=
  let m := s.kvMap k
  s.headerLine k :: rows.flatMap (fun r =>
    (List.range (rowBlockLines m.slots)).map (fun i => r.line + i) ++ distinct (r.pages.map (fun n => n / 4)))

/-- STREAM_HOLD: a lost line or context met in reading a stream's context and map holds the stream (R402). Answers
whether the stream is held. -/
def State.checkTables (s : State) (k : Nat) (rows : List Row) : State × Bool :=
  match Tbl.find s.cur.lostCtx k with
  | some ue => (s.holdStream k 0xFFFFFFFF ue, true)
  | none =>
    if s.cur.lost.isEmpty then (s, (s.ctx k).held)
    else
      let lines := s.mapLines k rows
      match s.cur.lost.find? (fun e => lines.contains e.1) with
      | none => (s, (s.ctx k).held)
      | some e => ((s.holdStream k e.1 e.2).retireLine e.1, true)

/-! ### Reservation (R185) -/

/-- What a stream needs to write n tokens: new rows, new pages, and the slots of its last row whose page is shared. -/
def KvMap.newRows (m : KvMap) (n : Nat) : Nat := cdiv (m.tokens + n) m.ptok - m.rows.length

/-- Slots of the last existing row whose page a step would copy (R185). -/
def State.sharedSlots (s : State) (m : KvMap) : List Nat :=
  match m.rows.getLast? with
  | none => []
  | some r => if m.ptok ≤ r.fill then [] else positions r.pages.length (fun i => decide (1 < (s.page (r.pages.getD i 0)).refs))

/-- A new page on a home core for a gallery. -/
def State.newPage (s : State) (core gal : Nat) : State × Option Nat :=
  match s.chooseFrame core gal with
  | (s1, none) => (s1, none)
  | (s1, some cf) => match s1.freePage with
    | (s2, none) => (s2.returnFrame cf.1 cf.2, none)
    | (s2, some n) => ((s2.useFrame cf.1 cf.2 gal).setPage n
        { st := .live, frame := cf.2, core := cf.1, refs := 1, full := false, gal := gal, copies := [] }, some n)

/-- One new row of a stream's map: its block and a page for every slot. -/
def State.newRow (s : State) (k : Nat) : State × Bool :=
  let m := s.kvMap k
  let row := m.rows.length
  match s.rowLines (rowBlockLines m.slots) with
  | (s1, none) => (s1, false)
  | (s1, some line) =>
    let r := (List.range m.slots).foldl (fun (acc : State × List Nat × Bool) slot =>
      let h := acc.1.homeCore m slot row
      match h.1.newPage h.2 (s.ctx k).gal with
      | (s2, some n) => (s2, acc.2.1 ++ [n], acc.2.2)
      | (s2, none) => (s2, acc.2.1, false)) (s1, [], true)
    (r.1.setKvMap k { m with rows := m.rows ++ [{ line := line, fill := 0, pages := r.2.1 }] }, r.2.2)

/-- Row blocks the table region can still take, up to n, each of `lines` lines. -/
def State.rowRoom (s : State) (lines : Nat) : Nat → Bool
  | 0 => true
  | n + 1 => match s.rowLines lines with
    | (_, none) => false
    | (_, some a) =>
      let used : Limbo := { frame := a, lines := lines, beat := 0 }
      State.rowRoom { s with cur := { s.cur with limbo := s.cur.limbo ++ [used] } } lines n

/-- CURATOR_RESERVATION: pages for a stream's new rows and frames for its copies, or the causes of its denial
(R185). Answers the frames reserved. -/
def State.reserve (s : State) (k n : Nat) : State × Option (List (Nat × Nat)) :=
  let m := s.kvMap k
  let g := (s.ctx k).gal
  let rows := m.newRows n
  let shared := s.sharedSlots m
  let want := rows * m.slots + shared.length
  let free := (List.range 2048).foldl (fun t c => t + s.freeCount c) 0
  let noQuota := want != 0 && decide (s.pageQuota g < s.pageUse g + want)
  let noFrame := decide (free < want)
  let noTable := decide (4096 < m.rows.length + rows) || !s.rowRoom (rowBlockLines m.slots) rows
  if noQuota || noFrame || noTable then
    (((s.countIf noQuota .pageDenyQuota 0).countIf noFrame .pageDenyFrame 0).countIf noTable .pageDenyTable 0, none)
  else
    let s1 := (List.range rows).foldl (fun s _ => (s.newRow k).1) s
    let last := m.rows.length - 1
    let r := shared.foldl (fun (acc : State × List (Nat × Nat)) slot =>
      let h := acc.1.homeCore m slot last
      match h.1.chooseFrame h.2 g with
      | (s2, some cf) => (s2, acc.2 ++ [cf])
      | (s2, none) => (s2, acc.2)) (s1, [])
    (r.1, some r.2)

/-! ### Token writes (R171, R173, R187) -/

/-- Client traffic of the Curator on a channel, uncharged (R296, R304). -/
def State.curTraffic (s : State) (c : Nat) (write : Bool) (a n : Nat) : State := s.enterRuns none write [(c, a, n)]

/-- Write one token's records into a page at position f (R171, R173); whether a burst was poisoned (R298). -/
def State.writeToken (s : State) (p : Page) (kr hdim f : Nat) (w : TokenWrite) : State × Bool :=
  let put (acc : State × Bool) (a : Nat) (b : Bytes) : State × Bool :=
    let r := (acc.1.curTraffic p.core true a b.length).writeChan p.core a b
    (r.1, acc.2 || r.2)
  put (put (put (s, false) (s.kvAddr p.frame + kr * f) (slice w.keys 0 kr)) (s.kvAddr p.frame + 8192 + kr * f)
    (slice w.values 0 kr)) (s.scAddr p.frame + 2 * hdim * f) (slice w.scales 0 (2 * hdim))

/-- A write of a step over lost data: every stream of its lane group meets ARRAY_UE (R298, R403). -/
def State.stepUe (s : State) (group : Nat) (bad : Bool) : State :=
  if !bad then s
  else { s with doc := { s.doc with groups := s.doc.groups.map (fun g => if g.id = group then g.note (s.nextOp) .arrayUe else g) } }

/-- Set FULL once the last token of a page is written (R187). -/
def State.markFull (s : State) (n f ptok : Nat) : State :=
  if f + 1 = ptok then s.setPage n { s.page n with full := true } else s

/-- A reserved frame for a copy: one on the home core if there is one (R187). -/
def takeReserved (home : Nat) (l : List (Nat × Nat)) : Option ((Nat × Nat) × List (Nat × Nat)) :=
  match l.find? (fun x => x.1 == home) with
  | some x => some (x, l.erase x)
  | none => match l with
    | [] => none
    | x :: t => some (x, t)

/-- Replace the page of a slot in a row of a map. -/
def KvMap.setSlot (m : KvMap) (row slot n : Nat) : KvMap :=
  { m with rows := m.rows.modify row (fun r => { r with pages := r.pages.set slot n }) }

/-- A frame for a copy on write: a reserved one, else, where a FORK has shared the page since the reservation, one taken now in the
order of R180 (R185, R187). -/
def State.cowFrame (s : State) (home gal : Nat) (frames : List (Nat × Nat)) : State × Option ((Nat × Nat) × List (Nat × Nat)) :=
  match takeReserved home frames with
  | some x => (s, some x)
  | none => let r := s.chooseFrame home gal; (r.1, r.2.map (fun cf => (cf, [])))

/-- TOKEN_WRITE: the token at the next position of a slot is written in place, or a copy of the shared page begins
(R187). `pos` is the token's position in its stream and `frames` the frames reserved for the stream. DESIGN CHOICE: with no frame
left on the device for a page shared since the reservation the token is not written (log 114). -/
def State.tokenWrite (s : State) (group pos : Nat) (frames : List (Nat × Nat)) (w : TokenWrite) :
    State × List (Nat × Nat) :=
  let k := w.stream.val
  let m := s.kvMap k
  let row := pos / m.ptok
  let f := pos % m.ptok
  match (m.rows[row]?).bind (fun r => r.pages[w.slot]?) with
  | none => (s, frames)
  | some n =>
    let p := s.page n
    let kr := keyBytes m.kfmt m.hdim
    if p.refs ≤ 1 then
      if s.cur.cows.any (fun c => c.dst == n && c.pos == f) then (s, frames)
      else
        let r := s.writeToken p kr m.hdim f w
        ((r.1.stepUe group r.2).markFull n f m.ptok, frames)
    else
      let h := s.homeCore m w.slot row
      match h.1.cowFrame h.2 (s.ctx k).gal frames with
      | (s1, none) => (s1, frames)
      | (s1, some (cf, rest)) => match s1.freePage with
        | (s2, none) => (s2, frames)
        | (s2, some n') =>
          let g := (s.ctx k).gal
          let s3 := ((s2.useFrame cf.1 cf.2 g).count .curCow 0 1).setPage n'
            { st := .live, frame := cf.2, core := cf.1, refs := 1, full := false, gal := g, copies := [] }
          let s4 := (s3.setKvMap k (m.setSlot row w.slot n')).dropRef n
          ({ s4 with cur := { s4.cur with cows := s4.cur.cows ++
              [{ group := group, stream := k, slot := w.slot, pos := f, srcCore := p.core, srcFrame := p.frame, dst := n'
                 write := w }] } }, rest)

/-- Copy n bytes of a channel range to another through the Curator's part of the staging buffer (R188). -/
def State.curatorCopy (s : State) (c a c' a' n : Nat) : State :=
  let r := (s.curTraffic c false a n).readChan c a n rdCurator
  ((r.1.curTraffic c' true a' n).writeChan c' a' r.2.1).1

/-- Source pages the Curator's 2 MiB of the staging buffer holds, each a data page and a scale page (R188, R266). -/
def stagingPages : Nat := 2 ^ 21 / (16384 + 1024)

/-- A copy's source page in staging, read there the first time the step needs it; none while it finds no room (R188). -/
def State.stagePage (s : State) (c : Cow) : State × Option StagedPage :=
  let mine (x : StagedPage) : Bool := x.group == c.group && x.core == c.srcCore && x.frame == c.srcFrame
  match s.cur.staged.find? mine with
  | some x => (s, some x)
  | none =>
    if stagingPages ≤ s.cur.staged.length then (s, none)
    else
      let a := (s.curTraffic c.srcCore false (s.kvAddr c.srcFrame) 16384).readChan c.srcCore (s.kvAddr c.srcFrame) 16384 rdCurator
      let b := a.1.readChan c.srcCore (s.scAddr c.srcFrame) 1024 rdCurator
      let x : StagedPage := { group := c.group, core := c.srcCore, frame := c.srcFrame, data := a.2.1, scales := b.2.1
                              poisoned := !a.2.2.1.isEmpty || !b.2.2.1.isEmpty }
      ({ b.1 with cur := { b.1.cur with staged := b.1.cur.staged ++ [x] } }, some x)

/-- A source page leaves the staging buffer once every copy taken from it in the step is written (R188). -/
def State.unstage (s : State) : State :=
  { s with cur := { s.cur with staged := s.cur.staged.filter (fun x =>
      s.cur.cows.any (fun c => !c.done && c.group == x.group && c.srcCore == x.core && c.srcFrame == x.frame)) } }

/-- The copies of a step that has ended are forgotten: no ATTN of it reads their sources any more (R187). -/
def State.dropCows (s : State) (group : Nat) : State :=
  State.unstage { s with cur := { s.cur with cows := s.cur.cows.filter (fun c => c.group != group) } }

/-- COW_COPY_COMPLETE: the tokens below the written one are copied from the staged source page, and the token itself is written
(R187, R188). -/
def execCowCopyComplete (stream : StreamNo) (slot : Nat) (s : State) : Host.Outcome State Fault Refusal :=
  match s.cur.cows.find? (fun c => c.stream == stream.val && c.slot == slot && !c.done) with
  | none => .next s
  | some c =>
    match s.stagePage c with
    | (_, none) => .next s
    | (s0, some x) =>
      let m := s.kvMap c.stream
      let p := s.page c.dst
      let kr := keyBytes m.kfmt m.hdim
      let put (s : State) (a : Nat) (b : Bytes) : State := ((s.curTraffic p.core true a b.length).writeChan p.core a b).1
      let s1 := put s0 (s.kvAddr p.frame) (slice x.data 0 (kr * c.pos))
      let s2 := put s1 (s.kvAddr p.frame + 8192) (slice x.data 8192 (kr * c.pos))
      let s3 := put s2 (s.scAddr p.frame) (slice x.scales 0 (2 * m.hdim * c.pos))
      let r := s3.writeToken p kr m.hdim c.pos c.write
      let s4 := (r.1.stepUe c.group r.2).markFull c.dst c.pos m.ptok
      .next (State.unstage { s4 with cur := { s4.cur with cows := s4.cur.cows.map (fun y =>
        if y = c then { y with done := true } else y) } })

/-! ### Copies and moves (R193, R194) -/

/-- Copies a page's sharers call for (R193). -/
def State.copiesDue (s : State) (p : Page) : Nat :=
  let share := s.field .curGalR [p.gal] 7 0
  if share = 0 then 0 else min (s.field .curGalR [p.gal] 11 8) ((p.refs - 1) / share)

/-- Copy both pages of a frame to another frame. -/
def State.copyFrame (s : State) (c f c' f' : Nat) : State :=
  (s.curatorCopy c (s.kvAddr f) c' (s.kvAddr f') 16384).curatorCopy c (s.scAddr f) c' (s.scAddr f') 1024

/-- PAGE_COPY_MAKE: the next copy of a FULL page its sharers call for, or its denial (R193). -/
def execPageCopyMake (page : Word) (s : State) : Host.Outcome State Fault Refusal :=
  let n := page.toNat
  let p := s.page n
  let i := p.copies.length + 1
  if !s.running || !s.flag .curCtrl [] 0 || p.st != .live || !p.full || s.copiesDue p < i then .next s
  else if s.pageQuota p.gal < s.pageUse p.gal + 1 then .next (s.count .curCopyDeny 0 1)
  else match s.chooseFrame ((p.core + 128 * i) % 2048) p.gal with
    | (s1, none) => .next (s1.count .curCopyDeny 0 1)
    | (s1, some cf) => match s1.freePage with
      | (s2, none) => .next ((s2.returnFrame cf.1 cf.2).count .curCopyDeny 0 1)
      | (s2, some q) =>
        let s3 := ((s2.useFrame cf.1 cf.2 p.gal).copyFrame p.core p.frame cf.1 cf.2).setPage q
          { st := .copy, frame := cf.2, core := cf.1, refs := 0, full := true, gal := p.gal, copies := [] }
        .next ((s3.setPage n { p with copies := p.copies ++ [q] }).count .curCopy 0 1)

/-- Checks of PAGE_MOVE (R194). -/
def pageMoveChecks (s : State) (o : Op) : List Bad :=
  let n := fld o.d 8 31 0
  let p := s.page n
  o.flagsZero 0 ++ needBits o.d 12 15 11 ++ needZero o.d (byteRange 14 59) ++
  need (decide (s.pageCount ≤ n) || p.st == .free || !p.full || p.gal != o.gal) .badHandle 8 ++
  need (decide (s.freeCount (fld o.d 12 10 0) = 0)) .quotaExceeded 12

/-- Acceptance of a PAGE_MOVE: a frame of the target core is taken for it (R194). -/
def State.pageMoveStart (s : State) (o : Op) : State :=
  match s.chooseFrame (fld o.d 12 10 0) o.gal with
  | (s1, none) => s1.complete (srcHub hubCurator) o { st := .quotaExceeded }
  | (s1, some cf) => State.opEvent { s1 with cur := { s1.cur with moves := s1.cur.moves ++
      [{ op := o, page := fld o.d 8 31 0, core := cf.1, frame := cf.2 }] } } (srcHub hubCurator) 2 o .ok

/-- PAGE_MOVE (R194). -/
def State.acceptPageMove (s : State) (o : Origin) (d : Line64) : State :=
  s.accept (srcHub hubCurator) o d 0x68 pageMoveChecks State.pageMoveStart
def execPageMove (o : Origin) (d : Line64) (s : State) : Host.Outcome State Fault Refusal := .next (s.acceptPageMove o d)

/-- PAGE_MOVE_COMPLETE: the page's frame is switched in one operation and the old one enters limbo (R194). A page freed
meanwhile leaves the new frame unused. -/
def execPageMoveComplete (page : Word) (s : State) : Host.Outcome State Fault Refusal :=
  match s.cur.moves.find? (fun m => m.page == page.toNat) with
  | none => .next s
  | some m =>
    if !s.running then .next s
    else
      let p := s.page m.page
      let s1 : State := { s with cur := { s.cur with moves := s.cur.moves.erase m } }
      if p.st == .free || !p.full || p.gal != m.op.gal then
        .next ((s1.returnFrame m.core m.frame).complete (srcHub hubCurator) m.op { st := .ok })
      else
        let s2 := (s1.useFrame m.core m.frame p.gal).copyFrame p.core p.frame m.core m.frame
        let s3 := ((s2.setPage m.page { p with core := m.core, frame := m.frame }).vacate p.core p.frame).count .curMove 0 1
        .next (s3.complete (srcHub hubCurator) m.op { st := .ok })

/-! ### Fork and release (R189 to R191) -/

/-- Rows a child takes of a parent of T tokens, with table lines for each. -/
def State.forkRows (s : State) (child parent t : Nat) : State :=
  let pm := s.kvMap parent
  (List.range (cdiv t pm.ptok)).foldl (fun s _ =>
    match s.rowLines (rowBlockLines pm.slots) with
    | (s1, none) => s1
    | (s1, some line) =>
      let m := s1.kvMap child
      s1.setKvMap child { m with rows := m.rows ++ [{ line := line, fill := 0, pages := [] }] }) s

/-- Acceptance of a FORK of a parent of T tokens: the child's layout and row blocks, and FORKING on both maps (R189, R190). -/
def State.forkStart (s : State) (o : Op) (child parent t : Nat) (key : Option (BitVec 64)) : State :=
  let pm := s.kvMap parent
  let cm := s.kvMap child
  let s1 := s.setKvMap child { cm with slots := pm.slots, kfmt := pm.kfmt, vfmt := pm.vfmt, hdim := pm.hdim
                                       ptok := pm.ptok, place := pm.place, forking := cm.forking + 1 }
  let s2 := s1.forkRows child parent t
  let s3 := s2.setKvMap parent { s2.kvMap parent with forking := (s2.kvMap parent).forking + 1 }
  { s3 with cur := { s3.cur with forks := s3.cur.forks ++ [{ op := o, child := child, parent := parent, t := t, key := key }] } }

/-- Copy the parent's entries of one row into the child's, each with its REFS incremented (R190). -/
def State.forkRow (s : State) (f : ForkRec) (row : Nat) : State :=
  let pages := (((s.kvMap f.parent).rows[row]?).map (fun r => r.pages)).getD []
  let s1 := pages.foldl (fun s n => s.setPage n { s.page n with refs := (s.page n).refs + 1 }) s
  let m := s1.kvMap f.child
  (s1.setKvMap f.child { m with rows := m.rows.modify row (fun r =>
    { r with fill := min m.ptok (f.t - row * m.ptok), pages := pages }) }).count .curForkEntry 0 pages.length

/-- Whether a command accepted before a FORK must take effect first: a POLICY or CANCEL of the child, or a FORK that gives the
parent its tokens (R201). -/
def State.forkWaits (s : State) (f : ForkRec) : Bool :=
  (s.doc.policies ++ s.doc.cancels).any (fun c => c.stream == f.child && decide (c.op.id < f.op.id)) ||
    s.cur.forks.any (fun e => e.child == f.parent && decide (e.op.id < f.op.id))

/-- FORK_COMPLETE: the child names every page of the parent's first T tokens and takes its new key, and the FORK completes (R190,
R205, R228). -/
def execForkComplete (child : StreamNo) (s : State) : Host.Outcome State Fault Refusal :=
  match s.cur.forks.find? (fun f => f.child == child.val) with
  | none => .next s
  | some f =>
    if !s.running || s.forkWaits f then .next s
    else
      let rows := cdiv f.t (s.kvMap f.child).ptok
      let s1 := (List.range rows).foldl (fun s r => s.forkRow f r) s
      let cm := s1.kvMap f.child
      let s2 := s1.setKvMap f.child { cm with tokens := f.t, forking := cm.forking - 1 }
      let pm := s2.kvMap f.parent
      let s3 := s2.setKvMap f.parent { pm with forking := pm.forking - 1 }
      let s3 := match f.key with
        | some key => s3.setCtx f.child { s3.ctx f.child with gkey := key, gctr := 0 }
        | none => s3
      let s4 : State := { s3 with cur := { s3.cur with forks := s3.cur.forks.erase f } }
      .next (s4.complete (srcHub hubCurator) f.op { st := .ok })

/-- Give up a stream's map: every readable page's REFS falls, and its row blocks and its header's line
enter limbo (R191, R402). -/
def State.releaseMap (s : State) (k : Nat) : State :=
  let m := s.kvMap k
  let lost (l : Nat) : Bool := (Tbl.find s.cur.lost l).isSome
  let blockLost (r : Row) : Bool := (List.range (rowBlockLines m.slots)).any (fun i => lost (r.line + i))
  let pages := (m.rows.filter (fun r => !blockLost r)).flatMap (fun r => r.pages.filter (fun n => !lost (n / 4)))
  let s1 := pages.foldl (fun s n => s.dropRef n) s
  let s2 := s1.setKvMap k {}
  { s2 with cur := { s2.cur with limbo := s2.cur.limbo ++ m.rows.map (fun r =>
      ({ frame := r.line, lines := rowBlockLines m.slots, beat := s.beat } : Limbo)) ++
      [{ frame := s.headerLine k, lines := 1, beat := s.beat }] } }

end Sys2Proof.Machine
end

