-- ==== Sys2Proof/Machine/Streams.lean ====
section
/-! DEFINITION. Streams and the Docent: generator leases, the Carmine load, the stream commands, what they do at their
boundary, answer records, and the forming of lane groups (R196 to R228). -/

namespace Sys2Proof.Machine

/-! ### Streams of a gallery -/

/-- Whether a gallery owns a stream number (R197). -/
def State.ownsStream (s : State) (g k : Nat) : Bool :=
  decide (s.field .docGal [g] 14 0 ≤ k) && decide (k < s.field .docGal [g] 14 0 + s.field .docGalC [g] 15 0)

/-- Streams of a gallery that are not FREE. -/
def State.streamsOf (s : State) (g : Nat) : List (Nat × Ctx) := s.doc.ctxs.filter (fun e => e.2.gal == g && e.2.st != .free)

/-- The program in a slot; none while the slot is empty. -/
def State.prog? (s : State) (slot : Nat) : Option Prog := Tbl.find s.doc.progs slot
def State.prog (s : State) (slot : Nat) : Prog := (s.prog? slot).getD {}

/-- Lanes of a lane group (R215). -/
def Prog.lanes (p : Prog) : Nat := if p.awidth = 4 then 128 else 64

/-- Tokens a stream can hold (R184). -/
def KvMap.limit (m : KvMap) : Nat := 4096 * m.ptok

/-- APPENDs of a stream accepted and not completed. -/
def State.appendsOf (s : State) (k : Nat) : List AppendRec := s.doc.appends.filter (fun a => a.stream == k)

/-- The last CANCEL of a stream that awaits its effect. -/
def State.lastCancel (s : State) (k : Nat) : Option Op :=
  ((s.doc.cancels.filter (fun c => c.stream == k)).getLast?).map (fun c => c.op)

/-- The state of a stream as its accepted commands leave it, pending ones included (R201). -/
def State.effState (s : State) (k : Nat) : StreamSt :=
  let x := s.ctx k
  match x.st with
  | .free => .free
  | .releasing => .releasing
  | st =>
    let kept := match s.lastCancel k with
      | none => s.appendsOf k
      | some c => (s.appendsOf k).filter (fun a => decide (c.id < a.op.id))
    match s.lastCancel k with
    | some _ => if kept.isEmpty then .idle else .prefill
    | none => if st == .idle && !kept.isEmpty then .prefill else st

/-- Whether a command other than ADMIT may name a stream: it is the gallery's, accepts commands and is not held (R197,
R208, R402). -/
def State.streamBad (s : State) (g k : Nat) (allowed : List StreamSt) : Bool :=
  !s.ownsStream g k || !allowed.contains (s.effState k) || (s.ctx k).held

/-! ### Generator leases (R228) -/

/-- Keys that commands accepted for a stream and still pending have leased to it, with the numbers of their operations. -/
def State.pendingKeys (s : State) (k : Nat) : List (Nat × BitVec 64) :=
  (s.doc.policies.filter (fun c => c.stream == k)).filterMap (fun c => c.key.map (fun y => (c.op.id, y))) ++
    (s.cur.forks.filter (fun f => f.child == k)).filterMap (fun f => f.key.map (fun y => (f.op.id, y)))

/-- The key a stream will hold once its pending commands have taken effect (R201, R228). -/
def State.effKey (s : State) (k : Nat) : BitVec 64 :=
  match (sortBy (fun (e : Nat × BitVec 64) => e.1) (s.pendingKeys k)).getLast? with
  | some e => e.2
  | none => (s.ctx k).gkey

/-- Keys leased to a stream. -/
def State.keysOf (s : State) (k : Nat) : List (BitVec 64) := (s.ctx k).gkey :: (s.pendingKeys k).map Prod.snd

/-- Keys leased to streams of a gallery other than k. -/
def State.leasedKeys (s : State) (g k : Nat) : List (BitVec 64) :=
  ((s.streamsOf g).filter (fun e => e.1 != k)).flatMap (fun e => s.keysOf e.1)

/-- Whether a GKEY request is malformed: non-zero with bit [63] set. -/
def keyForm (d : Line64) : List Bad := needOk (!(fbit d 24 63)) 24

/-- Whether a request names a key leased to another stream of the gallery. -/
def State.keyTaken (s : State) (g k : Nat) (key : BitVec 64) : Bool := key != 0 && (s.leasedKeys g k).contains key

/-- First key with bit [63] set at or after n that is not leased; `fuel` bounds the leases. -/
def freshFrom (leased : List (BitVec 64)) : Nat → Nat → BitVec 64
  | 0, n => BitVec.ofNat 64 (n % 2 ^ 63 + 2 ^ 63)
  | fuel + 1, n =>
    let k := BitVec.ofNat 64 (n % 2 ^ 63 + 2 ^ 63)
    if leased.contains k then freshFrom leased fuel (n + 1) else k

/-- The key a request leases: the key it names, or a fresh one the device chooses, a free value (R228). -/
def State.leaseKey (s : State) (g k : Nat) (key : BitVec 64) : State × BitVec 64 :=
  if key = 0 then
    let l := s.leasedKeys g k ++ s.keysOf k
    (s.draw 1, freshFrom l (l.length + 1) (Config.freeNat s.free))
  else (s, key)

/-! ### The Carmine load (R219 to R222) -/

/-- T_b and H in clk (R221). -/
def State.beatClk (s : State) : Nat := 1000 * s.beatUs
def State.tlongMax (s : State) : Nat := s.doc.progs.foldl (fun m e => max m e.2.tlong) 0
def State.hClk (s : State) : Nat := s.tlongMax + s.beatClk / 4

/-- C_g, a group's declared cost at the hot refresh rate (R221). -/
def costOf (wsb : Nat) : Nat := cdiv (1000 * wsb) 938

/-- A load as a fraction. -/
structure Load where
  num : Nat
  den : Nat
  deriving DecidableEq, Repr

/-- Sum of C_g / ((P_g − 1) T_b − H) over groups whose denominator is positive (R221). -/
def State.loadOf (s : State) (h : Nat) (gs : List CGroup) : Load :=
  gs.foldl (fun l g =>
    let d := (g.period - 1) * s.beatClk - h
    if d = 0 then l else { num := l.num * d + costOf (s.prog g.prog).wsb * l.den, den := l.den * d }) { num := 0, den := 1 }

/-- Whether a load is at most n percent. -/
def Load.within (l : Load) (pct : Nat) : Bool := decide (100 * l.num ≤ pct * l.den)

/-- The Carmine reservation in percent. -/
def State.reservePct (s : State) : Nat := min (s.inEffect .docCres [] 6 0) (s.field .docCres [] 6 0)

/-- Whether groups meet R221 under H. -/
def State.carmineFits (s : State) (h : Nat) (gs : List CGroup) : Bool :=
  gs.all (fun g => decide (h < (g.period - 1) * s.beatClk)) && (s.loadOf h gs).within s.reservePct &&
    (distinct (gs.map (fun g => g.gal))).all (fun n =>
      (s.loadOf h (gs.filter (fun g => g.gal == n))).within (s.field .docGalS [n] 6 0))

/-- The Carmine groups. -/
def State.groups (s : State) : List CGroup := s.doc.cgroups.map Prod.snd

/-- A group's share of the Carmine load: its term of the sum, scaled by DOC_CRES.PCT / (100 × load) while a forced load stands
(R221, R222). Nothing the spec describes reads it: a core's credit gains PCT% whatever the shares (R220; DEDUCED, log 116). -/
def State.shareOf (s : State) (g : CGroup) : Load :=
  let l := s.loadOf s.hClk s.groups
  let x := s.loadOf s.hClk [g]
  if s.doc.overcommit then { num := x.num * s.reservePct * l.den, den := x.den * 100 * l.num } else x

/-- DOC_STATUS.CLOAD: the admitted load in units of 0.1% (R198, R221). -/
def State.cload (s : State) : Nat :=
  let l := s.loadOf s.hClk s.groups
  1000 * l.num / l.den

/-- Whether a group takes one more stream of a gallery, program and period (R219). -/
def State.groupTakes (s : State) (gal prog period : Nat) (g : CGroup) : Bool :=
  g.gal == gal && g.prog == prog && g.period == period && decide (g.members.length < (s.prog prog).lanes)

/-- Take a stream out of a group list, dropping a group left without members (R219). -/
def leaveGroups (k : Nat) (keep : CGroup → Bool) (t : Tbl CGroup) : Tbl CGroup :=
  (t.map (fun e => (e.1, if keep e.2 then e.2 else { e.2 with members := e.2.members.filter (fun m => m != k) }))).filter
    (fun e => !e.2.members.isEmpty || !e.2.held.isEmpty)

/-- The number of the group a stream is a member of under a program and period. -/
def State.groupOf (s : State) (k prog period : Nat) : Option Nat :=
  (s.doc.cgroups.find? (fun e => e.2.members.contains k && e.2.prog == prog && e.2.period == period)).map Prod.fst

/-- Enter a stream into a Carmine group of its gallery, program and period: one it is a member of still, one with a free lane, or a
new one (R219). -/
def State.joinGroup (s : State) (k gal prog period : Nat) : State :=
  if (s.groupOf k prog period).isSome then s
  else match s.doc.cgroups.find? (fun e => s.groupTakes gal prog period e.2) with
  | some e =>
    let g : CGroup := { e.2 with members := e.2.members ++ [k] }
    { s with doc := { s.doc with cgroups := Tbl.insert s.doc.cgroups e.1 g } }
  | none =>
    let r := s.pick ((List.range 256).filter (fun i => (Tbl.find s.doc.cgroups i).isNone))
    match r.2 with
    | none => r.1
    | some i =>
      let g : CGroup := { gal := gal, prog := prog, period := period, members := [k]
                          d0 := if s.beatOff then s.beat else s.beat + 1 }
      { r.1 with doc := { r.1.doc with cgroups := Tbl.insert r.1.doc.cgroups i g } }

/-- Whether entering a stream into Carmine would break R221, or no group is left for it (R222). -/
def State.carmineBad (s : State) (k gal prog period : Nat) : Bool :=
  let base := leaveGroups k (fun _ => false) s.doc.cgroups
  let kept := base.map Prod.snd
  if kept.any (s.groupTakes gal prog period) then false
  else decide (256 ≤ kept.length) ||
    !s.carmineFits s.hClk (kept ++ [{ gal := gal, prog := prog, period := period, d0 := 0, members := [k] }])

/-- Beat at which a group is next due, at or after the next boundary (R219). -/
def CGroup.nextDue (g : CGroup) (beat : Nat) : Nat :=
  if beat < g.d0 then g.d0 else g.d0 + (cdiv (beat + 1 - g.d0) g.period) * g.period

/-! ### ADMIT (R202) -/

def admitChecks (s : State) (o : Op) : List Bad :=
  let d := o.d
  let k := fld d 5 14 0
  let key := BitVec.ofNat 64 (fld d 24 63 0)
  let p := fld d 8 7 0
  o.flagsZero 0 ++ needOk (decide (fld d 4 7 0 ≤ 3)) 4 ++ needOk (s.prog? p).isSome 8 ++
  needBits d 9 7 5 ++ needOk (decide (6 ≤ fld d 9 4 0) && decide (fld d 9 4 0 ≤ 16)) 9 ++
  needOk (fld d 10 15 0 != 0) 10 ++ needBits d 12 15 11 ++ needBits d 14 15 11 ++
  needOk (decide (fld d 16 63 0 % 4096 = 0)) 16 ++ keyForm d ++
  needOk (decide (fld d 36 15 0 ≤ 2047) || fld d 36 15 0 == 0xFFFF) 36 ++ needZero d (byteRange 38 59) ++
  need (!s.ownsStream o.gal k || (s.ctx k).st != .free) .badHandle 5 ++
  need (decide (s.field .docGalQ [o.gal] 15 0 ≤ (s.streamsOf o.gal).length)) .quotaExceeded 5 ++
  need (s.keyTaken o.gal k key) .genInUse 24 ++
  need (fld d 4 7 0 == 0 && s.carmineBad k o.gal p (fld d 10 15 0)) .budgetExceeded 4

/-- A map header as a program's header gives it (R181, R202). -/
def Prog.mapOf (p : Prog) (pbase rowstep : Nat) : KvMap :=
  { slots := p.slots, kfmt := p.kfmt, vfmt := p.vfmt, hdim := p.hdim, ptok := pageTokens p.kfmt p.hdim
    pbase := pbase, rowstep := rowstep, place := p.place }

def State.admitStart (s : State) (o : Op) : State :=
  let d := o.d
  let k := fld d 5 14 0
  let p := s.prog (fld d 8 7 0)
  let r := s.leaseKey o.gal k (BitVec.ofNat 64 (fld d 24 63 0))
  let x : Ctx :=
    { st := .idle, cls := fld d 4 1 0, gal := o.gal, prog := fld d 8 7 0, period := fld d 10 15 0
      root := BitVec.ofNat 32 (s.headerLine k), maxTok := fld d 32 31 0, topP := 0x3F800000, topK := p.topkMax
      gkey := r.2, ring := fld d 16 63 0, rlog2 := fld d 9 4 0, msix := fld d 36 15 0 }
  let s1 := (r.1.setCtx k x).setKvMap k (p.mapOf (fld d 12 10 0) (fld d 14 10 0))
  let s2 := if x.cls = 0 then
      let s2 := s1.joinGroup k o.gal x.prog x.period
      s2.setCtx k { x with cgroup := (s2.groupOf k x.prog x.period).getD 0 }
    else s1
  s2.complete (srcHub hubDocent) o { st := .ok }

def State.acceptAdmit (s : State) (o : Origin) (d : Line64) : State :=
  s.accept (srcHub hubDocent) o d 0x40 admitChecks State.admitStart
/-- STREAM_ADMIT (R202). -/
def execStreamAdmit (o : Origin) (d : Line64) (s : State) : Host.Outcome State Fault Refusal := .next (s.acceptAdmit o d)

/-! ### Answer records (R209, R259) -/

/-- Complete commands that waited for a record. -/
def State.completeAll (s : State) (ops : List Op) : State :=
  ops.foldl (fun s o => s.complete (srcHub hubDocent) o { st := .ok }) s

/-- An END record and the commands whose completion follows it: at once with room, else both wait (R206, R259). -/
def State.endRecord (s : State) (k : Nat) (st : Status) (ops : List Op) : State :=
  if 0 < (s.ctx k).room && (s.ctx k).endWait.isNone then (s.writeAnswer k 1 0 (s.kvMap k).tokens st 0 0).completeAll ops
  else s.setCtx k { s.ctx k with endWait := some st, afterEnd := (s.ctx k).afterEnd ++ ops }

/-- END_RECORD_WRITE: a waiting END record finds room (R259). -/
def execEndRecordWrite (stream : StreamNo) (s : State) : Host.Outcome State Fault Refusal :=
  let k := stream.val
  let x := s.ctx k
  match x.endWait with
  | none => .next s
  | some st =>
    if !s.running || x.room = 0 then .next s
    else .next (((s.setCtx k { x with endWait := none, afterEnd := [] }).writeAnswer k 1 0 (s.kvMap k).tokens st 0 0).completeAll
      x.afterEnd)

/-! ### APPEND (R203) -/

/-- Program, class and period a stream will have once its pending POLICYs have taken effect (R201). -/
def State.effPolicy (s : State) (k : Nat) : Nat × Nat × Nat :=
  let x := s.ctx k
  (s.doc.policies.filter (fun p => p.stream == k)).foldl (fun (acc : Nat × Nat × Nat) p =>
    (if fbit p.op.d 1 2 then fld p.op.d 8 7 0 else acc.1, if fbit p.op.d 1 0 then fld p.op.d 4 1 0 else acc.2.1,
      if fbit p.op.d 1 1 then fld p.op.d 10 15 0 else acc.2.2)) (x.prog, x.cls, x.period)

/-- Tokens of APPENDs accepted for a stream and not yet in its prompt. -/
def State.unread (s : State) (k : Nat) : Nat :=
  ((s.appendsOf k).filter (fun a => a.left.isNone)).foldl (fun n a => n + a.count) 0

/-- Tokens a stream's map holds once the FORKs to it have completed (R190, R201). -/
def State.mapTokens (s : State) (k : Nat) : Nat :=
  (s.cur.forks.filter (fun f => f.child == k)).foldl (fun n f => n + f.t) (s.kvMap k).tokens

/-- Tokens a stream's context and prompt hold once its accepted commands have taken effect: a CANCEL that waits discards
what was accepted before it, but not what the running step takes (R201, R206). -/
def State.effTokens (s : State) (k : Nat) : Nat :=
  let t := s.mapTokens k
  match s.lastCancel k with
  | none => t + (s.ctx k).pending + s.unread k
  | some c =>
    let kept := (s.appendsOf k).filter (fun a => decide (c.id < a.op.id))
    let stepping := (s.doc.groups.flatMap (fun g => g.members)).filter (fun m => m.stream == k)
    kept.foldl (fun n a => n + a.count) (stepping.foldl (fun n m => n + m.tokens) t)

/-- Tokens the prompt store holds or is owed. -/
def State.promptUsed (s : State) : Nat :=
  s.doc.ctxs.foldl (fun n e => n + e.2.pending) 0 +
    (s.doc.appends.filter (fun a => a.left.isNone)).foldl (fun n a => n + a.count) 0

def appendChecks (s : State) (o : Op) : List Bad :=
  let d := o.d
  let k := fld d 5 14 0
  let n := fld d 16 14 0
  o.flagsZero 1 ++ needOk (decide (fld d 8 63 0 % 4 = 0)) 8 ++ needOk (decide (1 ≤ n) && decide (n ≤ 16384)) 16 ++
  needBits d 16 15 15 ++ needZero d (byteRange 18 59) ++
  need (s.streamBad o.gal k [.idle, .prefill]) .badHandle 5 ++
  need (decide (4194304 < s.promptUsed + n) ||
    decide ((s.kvMap k).limit < s.effTokens k + n)) .quotaExceeded 16

def State.appendStart (s : State) (o : Op) : State :=
  let d := o.d
  let what : HostRead := match o.org with
    | .ring r i => .appendTokens r i
    | .step _ => .appendTokens 0 0
  let rec_ : AppendRec := { op := o, stream := fld d 5 14 0, go := fbit d 1 0, count := fld d 16 14 0
                            vocab := (s.prog (s.effPolicy (fld d 5 14 0)).1).vocab }
  State.hostRead { s with doc := { s.doc with appends := s.doc.appends ++ [rec_] } } o.gal what (fld d 8 63 0)
    (4 * fld d 16 14 0)

def State.acceptAppend (s : State) (o : Origin) (d : Line64) : State :=
  s.accept (srcHub hubDocent) o d 0x41 appendChecks State.appendStart
/-- APPEND (R203). -/
def execAppend (o : Origin) (d : Line64) (s : State) : Host.Outcome State Fault Refusal := .next (s.acceptAppend o d)

/-- Forget an APPEND. -/
def State.dropAppend (s : State) (id : Nat) : State :=
  { s with doc := { s.doc with appends := s.doc.appends.filter (fun a => a.op.id != id) } }

/-- Move tokens that have been read into the prompt, in the order of the stream's APPENDs (R201, R203): the stream
becomes PREFILL. A CANCEL or RELEASE that awaits its effect keeps later ones back. -/
def State.flushAppends (s : State) (k : Nat) : Nat → State
  | 0 => s
  | fuel + 1 =>
    match (s.appendsOf k).find? (fun a => a.left.isNone) with
    | none => s
    | some a =>
      let x := s.ctx k
      let held := match s.lastCancel k with | none => false | some c => decide (c.id < a.op.id)
      match a.data with
      | none => s
      | some ts =>
        if held || !(x.st == .idle || x.st == .prefill) then s
        else
          let upd (b : AppendRec) : AppendRec := if b.op.id = a.op.id then { b with left := some ts.length } else b
          let s1 : State := { s with doc := { s.doc with appends := s.doc.appends.map upd } }
          let first := x.pending = 0
          let s2 := if first then s1.draw 1 else s1
          (s2.setCtx k { x with
            st := .prefill, prompt := x.prompt ++ ts, pending := x.pending + ts.length
            pqHead := if first then BitVec.ofNat 32 (Config.freeNat s.free % 4194304) else x.pqHead }).flushAppends k fuel

/-- APPEND_TOKENS_READ_DONE: the token array is back (R203): refused whole if a token is at or above VOCAB. -/
def execAppendTokensReadDone (ring : RingNo) (index : Word) (tokens : List Word) (s : State) :
    Host.Outcome State Fault Refusal :=
  match s.doc.appends.find? (fun a => decide (a.op.org = .ring ring index) && a.data.isNone) with
  | none => .next s
  | some a =>
    let ts := tokens.take a.count
    if !s.running || ts.length < a.count then .next s
    else
      if ts.any (fun t => decide (a.vocab ≤ t.toNat)) then
        .next (((s.dropAppend a.op.id).complete (srcHub hubDocent) a.op { st := .badDescriptor, cause := 5, off := 8 }).flushAppends
          a.stream (s.doc.appends.length + 1))
      else
        let upd (b : AppendRec) : AppendRec :=
          if b.op.id = a.op.id then { b with data := some (ts.map (fun t => t.setWidth 24)) } else b
        .next (State.flushAppends { s with doc := { s.doc with appends := s.doc.appends.map upd } } a.stream
          (s.doc.appends.length + 1))

/-- Complete APPENDs of a stream with STOPPED and forget their tokens (R206). -/
def State.discardAppends (s : State) (k : Nat) (before : Nat) : State :=
  let gone := (s.appendsOf k).filter (fun a => decide (a.op.id < before))
  let n := gone.foldl (fun n a => n + a.left.getD 0) 0
  let x := s.ctx k
  let s1 := s.setCtx k { x with prompt := x.prompt.drop n, pending := x.pending - n }
  gone.foldl (fun s a => (s.dropAppend a.op.id).complete (srcHub hubDocent) a.op { st := .stopped }) s1

/-! ### CANCEL and RELEASE (R206, R207) -/

/-- A CANCEL takes effect: pending tokens accepted before it go, END with STOPPED is written unless the stream was IDLE,
and the stream becomes IDLE (R206). -/
def State.cancelEffect (s : State) (c : StreamCmd) : State :=
  let k := c.stream
  let idle := (s.ctx k).st == .idle && (s.appendsOf k).all (fun a => decide (c.op.id < a.op.id))
  let s1 := s.discardAppends k c.op.id
  let s2 : State := { s1 with doc := { s1.doc with cancels := s1.doc.cancels.filter (fun e => e.op.id != c.op.id) } }
  let x := s2.ctx k
  let s3 := s2.setCtx k { x with st := if x.st == .releasing then .releasing else .idle
                                 cancelPend := (s2.lastCancel k).isSome || x.relEnd }
  let s4 := if idle then s3.completeAll [c.op] else s3.endRecord k .stopped [c.op]
  s4.flushAppends k (s4.doc.appends.length + 1)

/-- The cancelling a RELEASE does: every pending token goes and END with STOPPED is written unless the stream was IDLE
(R207). -/
def State.releaseCancel (s : State) (k : Nat) : State :=
  let s1 := s.discardAppends k s.nextOp
  (s1.setCtx k { s1.ctx k with relEnd := false, cancelPend := false }).endRecord k .stopped []

/-- Whether a FORK that names a stream was accepted before an operation and is not complete (R201). -/
def State.forkBefore (s : State) (k id : Nat) : Bool :=
  s.cur.forks.any (fun f => decide (f.op.id < id) && (f.child == k || f.parent == k))

/-- CANCEL_TAKE_EFFECT: the first CANCEL of a stream that is outside a step and waits for no END record; `fuel` bounds
its CANCELs. A POLICY or FORK accepted earlier takes effect first (R201). -/
def State.takeCancels (s : State) (k : Nat) : Nat → State
  | 0 => s
  | fuel + 1 =>
    let x := s.ctx k
    if x.inStep || x.endWait.isSome then s
    else match s.doc.cancels.find? (fun c => c.stream == k) with
      | some c =>
        if s.doc.policies.any (fun p => p.stream == k && decide (p.op.id < c.op.id)) || s.forkBefore k c.op.id then s
        else (s.cancelEffect c).takeCancels k fuel
      | none => if x.relEnd && (s.kvMap k).forking == 0 then s.releaseCancel k else s

def cancelChecks (s : State) (o : Op) : List Bad :=
  o.flagsZero 0 ++ needZero o.d (byteRange 8 59) ++
  need (s.streamBad o.gal (fld o.d 5 14 0) [.idle, .prefill, .decode]) .badHandle 5

def State.cancelStart (s : State) (o : Op) : State :=
  let k := fld o.d 5 14 0
  if s.effState k == .idle && !s.forkBefore k o.id then s.complete (srcHub hubDocent) o { st := .ok }
  else
    let s1 : State := { s with doc := { s.doc with cancels := s.doc.cancels ++ [{ op := o, stream := k }] } }
    s1.setCtx k { s1.ctx k with cancelPend := true }

def State.acceptCancel (s : State) (o : Origin) (d : Line64) : State :=
  s.accept (srcHub hubDocent) o d 0x44 cancelChecks State.cancelStart
/-- CANCEL (R206). -/
def execCancel (o : Origin) (d : Line64) (s : State) : Host.Outcome State Fault Refusal := .next (s.acceptCancel o d)

/-- RELEASE is accepted of a held stream too (R402). -/
def releaseChecks (s : State) (o : Op) : List Bad :=
  let k := fld o.d 5 14 0
  o.flagsZero 0 ++ needZero o.d (byteRange 8 59) ++
  need (!s.ownsStream o.gal k || !([StreamSt.idle, .prefill, .decode] : List StreamSt).contains (s.effState k)) .badHandle 5

/-- A stream becomes RELEASING (R207, R263). -/
def State.startRelease (s : State) (k : Nat) : State :=
  let owes := s.effState k != .idle
  s.setCtx k { s.ctx k with st := .releasing, relEnd := owes, cancelPend := (s.ctx k).cancelPend || owes }

def State.releaseStart (s : State) (o : Op) : State :=
  let k := fld o.d 5 14 0
  let s1 := s.startRelease k
  { s1 with doc := { s1.doc with releases := s1.doc.releases ++ [{ op := o, stream := k }] } }

def State.acceptRelease (s : State) (o : Origin) (d : Line64) : State :=
  s.accept (srcHub hubDocent) o d 0x45 releaseChecks State.releaseStart
/-- RELEASE (R207). -/
def execRelease (o : Origin) (d : Line64) (s : State) : Host.Outcome State Fault Refusal := .next (s.acceptRelease o d)

/-- Whether a RELEASING stream is ready to be released (R191, R207). -/
def State.releaseReady (s : State) (k : Nat) : Bool :=
  let x := s.ctx k
  x.st == .releasing && !x.inStep && !x.relEnd && x.endWait.isNone && (s.kvMap k).forking == 0 &&
    !s.doc.cancels.any (fun c => c.stream == k) && !s.doc.policies.any (fun c => c.stream == k) &&
    (s.appendsOf k).isEmpty

/-- RELEASE_EXECUTE: the map is given up, the lease freed, the context cleared and the RELEASE completed (R191, R207). The
streams of a gallery in reset are released in HOLD too (R263; DEDUCED). -/
def execReleaseExecute (stream : StreamNo) (s : State) : Host.Outcome State Fault Refusal :=
  let k := stream.val
  if !(s.running || s.alive && s.hif.inReset.contains (s.ctx k).gal) || !s.releaseReady k then .next s
  else
    let s1 := (s.checkTables k (s.kvMap k).rows).1.releaseMap k
    let s2 : State := { s1 with doc := { s1.doc with cgroups := leaveGroups k (fun _ => false) s1.doc.cgroups } }
    let s3 := s2.setCtx k {}
    match s3.doc.releases.find? (fun c => c.stream == k) with
    | none => .next s3
    | some c => .next (State.complete { s3 with doc := { s3.doc with
        releases := s3.doc.releases.filter (fun e => e.stream != k) } } (srcHub hubDocent) c.op { st := .ok })

/-! ### POLICY (R204, R222) -/

/-- What a POLICY would leave of program, class and period. -/
def State.policyWants (s : State) (o : Op) (k : Nat) : Nat × Nat × Nat :=
  let e := s.effPolicy k
  (if fbit o.d 1 2 then fld o.d 8 7 0 else e.1, if fbit o.d 1 0 then fld o.d 4 1 0 else e.2.1,
    if fbit o.d 1 1 then fld o.d 10 15 0 else e.2.2)

/-- Whether two programs agree in the fields of R204. -/
def Prog.sameLayout (a b : Prog) : Bool :=
  a.slots == b.slots && a.kfmt == b.kfmt && a.vfmt == b.vfmt && a.hdim == b.hdim && a.place == b.place

/-- Whether a program's layout is that of a map (R204). -/
def Prog.fitsMap (p : Prog) (m : KvMap) : Bool :=
  p.slots == m.slots && p.kfmt == m.kfmt && p.vfmt == m.vfmt && p.hdim == m.hdim && p.place == m.place

/-- Payload bytes no set flag of a POLICY selects, and the bits its fields leave (R204). -/
def policyForm (d : Line64) : List Bad :=
  let f (i : Nat) : Bool := fbit d 1 i
  (if f 0 then needOk (decide (fld d 4 7 0 ≤ 3)) 4 else needZero d [4]) ++
  (if f 2 then [] else needZero d [8]) ++ needZero d [9] ++
  (if f 1 then needOk (fld d 10 15 0 != 0) 10 else needZero d [10, 11]) ++
  (if f 3 then
    needOk (match ofF32 (BitVec.ofNat 32 (fld d 12 31 0)) with | .num n m _ => !(n && m != 0) | _ => false) 12 ++
    needOk (match ofF32 (BitVec.ofNat 32 (fld d 16 31 0)) with
      | .num n m e => !n && m != 0 && FVal.le (.num n m e) (.ofInt 1 0)
      | _ => false) 16 ++ needBits d 20 7 7
   else needZero d (byteRange 12 20)) ++
  (if f 7 then needBits d 21 7 3 ++ needOk (decide (fld d 21 2 0 ≤ 4)) 21 ++ needZero d [39, 43, 47, 51]
   else needZero d [21] ++ needZero d (byteRange 36 51)) ++ needZero d [22, 23] ++
  (if f 4 then keyForm d else needZero d (byteRange 24 31)) ++ (if f 5 then [] else needZero d (byteRange 32 35)) ++
  needZero d (byteRange 52 59)

def policyChecks (s : State) (o : Op) : List Bad :=
  let d := o.d
  let k := fld d 5 14 0
  let w := s.policyWants o k
  let p := s.prog w.1
  let key := BitVec.ofNat 64 (fld d 24 63 0)
  policyForm d ++
  (if fbit d 1 2 then needOk (s.prog? w.1).isSome 8 else []) ++
  (if fbit d 1 3 then needOk (decide (1 ≤ fld d 20 6 0) && decide (fld d 20 6 0 ≤ p.topkMax)) 20 else []) ++
  (if fbit d 1 7 then ((List.range (min 4 (fld d 21 2 0))).flatMap (fun i =>
    needOk (decide (fld d (36 + 4 * i) 23 0 < p.vocab)) (36 + 4 * i))) else []) ++
  need (s.streamBad o.gal k [.idle, .prefill, .decode]) .badHandle 5 ++
  (if fbit d 1 2 then need (!(s.kvMap k).rows.isEmpty && !p.fitsMap (s.kvMap k)) .badHandle 8 else []) ++
  (if fbit d 1 4 then need (key != s.effKey k && s.keyTaken o.gal k key) .genInUse 24 else []) ++
  need (w.2.1 == 0 && w != s.effPolicy k && !fbit d 1 6 && s.carmineBad k o.gal w.1 w.2.2) .budgetExceeded 4

/-- Acceptance of a POLICY: a new key is leased, and a stream that enters Carmine or changes its group joins the new one
(R204, R219, R222, R228). -/
def State.policyStart (s : State) (o : Op) : State :=
  let d := o.d
  let k := fld d 5 14 0
  let w := s.policyWants o k
  let key := BitVec.ofNat 64 (fld d 24 63 0)
  let r : State × Option (BitVec 64) := if fbit d 1 4 && key != s.effKey k then
      let r := s.leaseKey o.gal k key
      (r.1, some r.2)
    else (s, none)
  let s1 := r.1
  let enters := w.2.1 == 0 && w != s.effPolicy k
  let tooMuch := enters && s1.carmineBad k o.gal w.1 w.2.2
  let s2 := if enters then s1.joinGroup k o.gal w.1 w.2.2 else s1
  { s2 with doc := { s2.doc with
      policies := s2.doc.policies ++ [{ op := o, stream := k, key := r.2 }]
      overcommit := s2.doc.overcommit || tooMuch
      suspended := s2.doc.suspended || tooMuch } }

def State.acceptPolicy (s : State) (o : Origin) (d : Line64) : State :=
  s.accept (srcHub hubDocent) o d 0x42 policyChecks State.policyStart
/-- POLICY (R204). -/
def execPolicy (o : Origin) (d : Line64) (s : State) : Host.Outcome State Fault Refusal := .next (s.acceptPolicy o d)

/-- The fields a POLICY's flags select, written to a context (R204). -/
def Ctx.policy (x : Ctx) (d : Line64) : Ctx :=
  let f (i : Nat) : Bool := fbit d 1 i
  let x := if f 0 then { x with cls := fld d 4 1 0 } else x
  let x := if f 1 then { x with period := fld d 10 15 0 } else x
  let x := if f 2 then { x with prog := fld d 8 7 0 } else x
  let x := if f 3 then { x with temp := BitVec.ofNat 32 (fld d 12 31 0), topP := BitVec.ofNat 32 (fld d 16 31 0)
                                topK := fld d 20 6 0 } else x
  let x := if f 5 then { x with maxTok := fld d 32 31 0 } else x
  let x := if f 7 then { x with nStop := fld d 21 2 0
                                stops := (List.range 4).map (fun i => BitVec.ofNat 24 (fld d (36 + 4 * i) 23 0)) } else x
  { x with override := f 6 }

/-- A stream's generator takes a key leased for it: GCTR restarts at 0 (R228). -/
def Ctx.takeKey (x : Ctx) : Option (BitVec 64) → Ctx
  | some key => { x with gkey := key, gctr := 0 }
  | none => x

/-- A POLICY takes effect and completes (R204): the stream leaves Carmine groups that no longer fit it. -/
def State.policyEffect (s : State) (c : StreamCmd) : State :=
  let k := c.stream
  let x := ((s.ctx k).policy c.op.d).takeKey c.key
  let s0 : State := { s with doc := { s.doc with policies := s.doc.policies.filter (fun e => e.op.id != c.op.id) } }
  let still := s0.effPolicy k
  let fits (g : CGroup) : Bool :=
    (x.cls == 0 && g.prog == x.prog && g.period == x.period) ||
      (still.2.1 == 0 && g.prog == still.1 && g.period == still.2.2 && s0.doc.policies.any (fun p => p.stream == k))
  let s1 : State := { s0 with doc := { s0.doc with cgroups := leaveGroups k fits s0.doc.cgroups } }
  let s2 := s1.setCtx k { x with cgroup := if x.cls = 0 then (s1.groupOf k x.prog x.period).getD x.cgroup else x.cgroup }
  let m := s2.kvMap k
  let s3 := if fbit c.op.d 1 2 && m.rows.isEmpty then
      s2.setKvMap k { (s2.prog x.prog).mapOf m.pbase m.rowstep with forking := m.forking }
    else s2
  s3.complete (srcHub hubDocent) c.op { st := .ok }

/-- POLICY_TAKE_EFFECT: POLICYs of streams outside a step, in order of acceptance, unless an earlier CANCEL or FORK of the
stream still waits (R201, R204). -/
def State.takePolicies (s : State) : State :=
  s.doc.policies.foldl (fun s c =>
    if (s.ctx c.stream).inStep || s.forkBefore c.stream c.op.id || s.doc.cancels.any (fun e => e.stream == c.stream && decide (e.op.id < c.op.id)) then s
    else s.policyEffect c) s

/-! ### FORK (R205) -/

def forkChecks (s : State) (o : Op) : List Bad :=
  let d := o.d
  let c := fld d 5 14 0
  let p := fld d 8 14 0
  let key := BitVec.ofNat 64 (fld d 24 63 0)
  let pm := s.kvMap p
  o.flagsZero 0 ++ needBits d 8 15 15 ++ needZero d (byteRange 10 23) ++ keyForm d ++ needZero d (byteRange 32 59) ++
  need (s.streamBad o.gal c [.idle] || decide (0 < s.effTokens c) || !(s.kvMap c).rows.isEmpty) .badHandle 5 ++
  need (s.streamBad o.gal p [.idle, .prefill, .decode] ||
    !(s.prog (s.effPolicy c).1).sameLayout (s.prog (s.effPolicy p).1)) .badHandle 8 ++
  need (key != 0 && key != s.effKey c && s.keyTaken o.gal c key) .genInUse 24 ++
  need (!s.rowRoom (rowBlockLines pm.slots) (cdiv (s.mapTokens p) pm.ptok)) .quotaExceeded 8

def State.forkAccepted (s : State) (o : Op) : State :=
  let d := o.d
  let c := fld d 5 14 0
  let p := fld d 8 14 0
  let key := BitVec.ofNat 64 (fld d 24 63 0)
  (s.setCtx c { s.ctx c with lastTok := (s.ctx p).lastTok }).forkStart o c p (s.mapTokens p)
    (if key != 0 && key != s.effKey c then some key else none)

def State.acceptFork (s : State) (o : Origin) (d : Line64) : State :=
  s.accept (srcHub hubDocent) o d 0x43 forkChecks State.forkAccepted
/-- FORK (R205). -/
def execFork (o : Origin) (d : Line64) (s : State) : Host.Outcome State Fault Refusal := .next (s.acceptFork o d)

/-! ### Lane groups (R215, R216, R219) -/

/-- Conditions of R224, in the order it lists them. -/
def voidBeat : Nat := 0
def voidUe : Nat := 1
def voidResidue : Nat := 2
def voidFence : Nat := 3
def voidReroute : Nat := 4
def voidThrottle : Nat := 5
def voidRing : Nat := 6
def voidSuspended : Nat := 7

/-- Whether a stream is due, available and free to join a step (R215, R22, R190, R402). -/
def State.streamDue (s : State) (k : Nat) : Bool :=
  let x := s.ctx k
  (x.st == .prefill || x.st == .decode) && !x.inStep && decide (x.due ≤ s.beat) && !x.held && !x.cancelPend &&
    (match x.issuedAt with | none => true | some b => decide (b < s.beat)) && x.endWait.isNone &&
    !s.cur.forks.any (fun f => f.child == k)

/-- Change one running lane group. -/
def State.updGroup (s : State) (id : Nat) (f : LaneGroup → LaneGroup) : State :=
  { s with doc := { s.doc with groups := s.doc.groups.map (fun g => if g.id = id then f g else g) } }

/-- A due stream joins a lane group with n tokens, if its ring has room and its reservation is granted (R185, R215):
its step begins. -/
def State.joinStream (s : State) (gid k n : Nat) : State :=
  let c := s.checkTables k (((s.kvMap k).rows.getLast?).toList)
  if c.2 then c.1
  else if (c.1.ctx k).room < 2 then c.1.count .docRingFull 0 1
  else match c.1.reserve k n with
    | (s1, none) =>
      let x := s1.ctx k
      let s2 := s1.setCtx k { x with denied := true }
      if x.denied then s2 else s2.notice k .quotaExceeded
    | (s1, some frames) =>
      let x := s1.ctx k
      (s1.setCtx k { x with inStep := true, last := s1.beat, due := s1.beat + x.period, denied := false }).updGroup gid
        (fun g => { g with members := g.members ++ [{ stream := k, tokens := n, frames := frames }] })

/-- Open a lane group. -/
def State.openGroup (s : State) (cls prog : Nat) (prefill : Bool) (cgroup : Option Nat) : State :=
  { s with doc := { s.doc with
      groups := s.doc.groups ++ [{ id := s.doc.nextGroup, cls := cls, prog := prog, prefill := prefill, beat := s.beat
                                   members := [], cgroup := cgroup }]
      nextGroup := s.doc.nextGroup + 1 } }

/-- Drop lane groups no stream joined. -/
def State.dropEmpty (s : State) : State :=
  { s with doc := { s.doc with groups := s.doc.groups.filter (fun g => !g.members.isEmpty) } }

/-- Start every Carmine group due at this boundary (R219). A step no member joins for want of ring room breaks that condition too
(R224). -/
def State.startCarmine (s : State) : State :=
  s.doc.cgroups.foldl (fun s e =>
    let g := e.2
    if decide (g.d0 ≤ s.beat) && decide ((s.beat - g.d0) % g.period = 0) then
      let due := g.members.filter (fun k => s.streamDue k && (s.ctx k).st == .decode && (s.ctx k).cls == 0 &&
        (s.ctx k).prog == g.prog && (s.ctx k).period == g.period)
      let full := g.members.any (fun k => (s.ctx k).st == .decode && decide ((s.ctx k).room < 2))
      let gid := s.doc.nextGroup
      let s1 := due.foldl (fun s k => s.joinStream gid k 1) (s.openGroup 0 g.prog false (some e.1))
      if !full then s1
      else if s1.doc.groups.any (fun l => l.id == gid && !l.members.isEmpty) then s1.updGroup gid (fun l => { l with broke := [voidRing] })
      else s1.countSub .promiseVoid 0 voidRing 1
    else s) s |>.dropEmpty

/-- Lanes a running group still has free. -/
def State.lanesLeft (s : State) (g : LaneGroup) : Nat :=
  (s.prog g.prog).lanes - g.members.foldl (fun n m => n + m.tokens) 0

/-- One due stream of a lower class joins a group of its class, program and body formed at this boundary, or opens one
while fewer than 16 run (R215, R216). `from_` is the first group number of this boundary. -/
def State.placeStream (s : State) (from_ cls k : Nat) : State :=
  let x := s.ctx k
  let pre := x.st == .prefill
  let open_ := s.doc.groups.find? (fun g => decide (from_ ≤ g.id) && g.cls == cls && g.prog == x.prog && g.prefill == pre &&
    g.cgroup.isNone && decide (0 < s.lanesLeft g))
  let s1 := if open_.isNone && decide (s.doc.groups.length < 16) then s.openGroup cls x.prog pre none else s
  match (match open_ with | some g => some g | none => if s.doc.groups.length < 16 then s1.doc.groups.getLast? else none) with
  | none => s
  | some g => (s1.joinStream g.id k (if pre then min x.pending (s1.lanesLeft g) else 1)).dropEmpty

/-- Due streams of a lower class in ascending DUE, then stream number; a Carmine stream's prefill runs at Ochre (R215,
R216). -/
def State.dueOf (s : State) (cls : Nat) : List Nat :=
  let mine := s.doc.ctxs.filter (fun e => s.streamDue e.1 &&
    ((e.2.cls == cls && !(cls == 0)) || (cls == 1 && e.2.cls == 0 && e.2.st == .prefill)))
  (sortBy (fun (e : Nat × Ctx) => e.2.due) mine).map Prod.fst

/-- LANE_GROUP_FORM: step 3 of R21 (R215). -/
def State.formGroups (s : State) : State :=
  if !s.running || !s.flag .docCtrl [] 0 || s.ctl.holding.isSome then s
  else
    let s1 := s.startCarmine
    let from_ := s1.doc.nextGroup
    [1, 2, 3].foldl (fun s c => (s.dueOf c).foldl (fun s k => s.placeStream from_ c k) s) s1

/-- The promise resumes at the first boundary at which the load meets R221 again (R222). -/
def State.resumePromise (s : State) : State :=
  if s.doc.suspended && s.carmineFits s.hClk s.groups then
    { s with doc := { s.doc with suspended := false, overcommit := false } }
  else s

/-- CARMINE_CREDIT_ACCRUAL: each core's credit gains its share of the beat up to its ceiling (R220), in hundredths of a
clk. -/
def State.accrueCredit (s : State) : State :=
  let pct := s.inEffect .docCres [] 6 0
  if pct = 0 then s.cores.foldl (fun s e => s.setCore e.1 { e.2 with credit := min e.2.credit 0 }) s
  else (List.range 2048).foldl (fun s c =>
    let k := s.core c
    s.setCore c { k with credit := min (k.credit + pct * s.beatClk) (pct * (s.beatClk + s.hClk)) }) s

/-- Streams with commands that take effect at a boundary or at a step's end. -/
def State.cancelStreams (s : State) : List Nat :=
  distinct (s.doc.cancels.map (fun c => c.stream) ++ (s.doc.ctxs.filter (fun e => e.2.relEnd)).map Prod.fst)

/-- Cancels and policies at a boundary, before lane groups form (R204, R206). -/
def State.takeCommands (s : State) : State :=
  let s1 := s.takePolicies
  let s2 := s1.cancelStreams.foldl (fun s k => s.takeCancels k (s.doc.cancels.length + 1)) s1
  s2.takePolicies

/-- Conditions of R224 in force now. -/
def State.voidNow (s : State) : List Nat :=
  (if s.locked then [] else [voidBeat]) ++
  (if s.cores.any (fun e => e.2.anyFence) then [voidFence] else []) ++
  (if s.plinths.any (fun e => decide (0 < e.2.level)) then [voidThrottle] else []) ++
  (if s.doc.suspended then [voidSuspended] else [])

/-- Note conditions against every running Carmine step (R224, R427). -/
def State.voidSteps (s : State) (cs : List Nat) : State :=
  { s with doc := { s.doc with groups := s.doc.groups.map (fun g =>
      if g.cgroup.isSome then { g with broke := distinct (g.broke ++ cs) } else g) } }

end Sys2Proof.Machine
end

