-- ==== Sys2Proof/Machine/Packets.lean ====
section
/-! DEFINITION. Packets of the Breosh fabric and how this device sends them: headers, wiring, routing, the link layer's sending side,
and the requests that read a reference copy in a peer's window (R329, R342 to R361, R392). -/

namespace Sys2Proof.Machine

/-! ### Packets (R344) -/

namespace Pkt
def type (h : Line16) : Nat := fld h 0 3 0
def vl (h : Line16) : Nat := fld h 0 5 4
def hops (h : Line16) : Nat := fld h 0 7 6
def seq (h : Line16) : Nat := fld h 2 11 0
def ackSeq (h : Line16) : Nat := fld h 4 11 0
def nak (h : Line16) : Bool := fbit h 4 15
def ibeat (h : Line16) : Nat := fld h 6 7 0
def proto (h : Line16) : Nat := fld h 7 7 0
def dst (h : Line16) : Nat := fld h 8 16 0
def via1 (h : Line16) : Nat := fld h 8 23 17
def via2 (h : Line16) : Nat := fld h 8 30 24
def src (h : Line16) : Nat := fld h 12 16 0
def flow (h : Line16) : Nat := fld h 12 31 24
/-- Payload units of 32 B: five bits on ports 0 to 23, eight on uplinks (R344, R354). -/
def len (uplink : Bool) (h : Line16) : Nat := if uplink then fld h 1 7 0 else fld h 1 4 0
end Pkt

/-- Packet types of R344 and protocols of R365. -/
def tyData : Nat := 0
def tyLinkCtrl : Nat := 1
def tySync : Nat := 2
def tyNotice : Nat := 3
def prPut : Nat := 1
def prAck : Nat := 2
def prGetReq : Nat := 3
def prGetData : Nat := 4
def prColl : Nat := 5
def prHole : Nat := 6

/-- A header, its SEQ, ACKSEQ and NAK still zero: `vias` are the intermediate slots (R358). -/
def pktHdr (type hops len ibeat proto dst src flow : Nat) (vias : List Nat) : Line16 :=
  let vl := if type = tyData then hops + 1 else 0
  let via (k : Nat) : Nat := match vias[k]? with | none => 0 | some v => 64 + v % 64
  BitVec.ofNat 128 (putF 0 0 type + putF 0 4 vl + putF 0 6 hops + putF 1 0 len + putF 6 0 (ibeat % 256) + putF 7 0 proto +
    putF 8 0 (dst % 2 ^ 17) + putF 8 17 (via 0) + putF 8 24 (via 1) + putF 12 0 (src % 2 ^ 17) + putF 12 24 (flow % 256))

/-- A header with its link-layer fields (R347). -/
def withSeq (h : Line16) (seq ack : Nat) (nak : Bool) : Line16 :=
  BitVec.ofNat 128 (setBits (setBits (setBits h.toNat 27 16 seq) 43 32 ack) 47 47 (if nak then 1 else 0))

/-- Whether a header breaks R344: an invalid TYPE, a reserved bit set, or more payload than a packet holds. -/
def hdrBad (uplink : Bool) (h : Line16) : Bool :=
  decide (3 < Pkt.type h) || (!uplink && fld h 1 7 5 != 0) || decide ((if uplink then 128 else 16) < Pkt.len uplink h) ||
    fld h 2 15 12 != 0 || fld h 4 14 12 != 0 || fbit h 8 31 || fld h 12 23 17 != 0

/-! ### Addresses and wiring (R350, R353) -/

/-- This device's ID, slot and cabinet (R353). -/
def State.devId (s : State) : Nat := s.field .brlId [] 16 0
def slotOf (id : Nat) : Nat := id % 64
def cabOf (id : Nat) : Nat := id / 64

/-- Slot and port at the far end of a cabinet port (R350). -/
def wired (slot p : Nat) : Nat × Nat :=
  let h := slot / 16
  let i := slot % 16
  if p < 15 then
    let j := (i + p + 1) % 16
    (h * 16 + j, (i + 15 - j) % 16)
  else
    let h' := (h + (p - 15) / 3 + 1) % 4
    (h' * 16 + i, 15 + 3 * ((h + 3 - h') % 4) + (p - 15) % 3)

/-- Mesh port of position i towards position j, and the cross ports of shelf h towards shelf h'. -/
def meshPort (i j : Nat) : Nat := (j + 15 - i) % 16
def crossPorts (h h' : Nat) : List Nat := (List.range 3).map (fun m => 15 + 3 * ((h' + 3 - h) % 4) + m)

/-- A link in the link-state table: the lesser of its two ends. -/
def linkKey (slot p : Nat) : Nat := min (slot * 32 + p) ((wired slot p).1 * 32 + (wired slot p).2)

/-- Whether a cabinet link is UP: by its port for a link of this device, else by the link-state table (R358). -/
def State.linkUp (s : State) (slot p : Nat) : Bool :=
  let own := slotOf s.devId
  if slot = own then (s.port p).st == .up
  else if (wired slot p).1 = own then (s.port (wired slot p).2).st == .up
  else Tbl.look s.fab.links (linkKey slot p) false

/-! ### Routes (R358 to R361) -/

/-- Ports of slot `a` that lead to slot `b` and are UP, in ascending order. -/
def State.hopPorts (s : State) (a b : Nat) : List Nat :=
  (if a / 16 = b / 16 then [meshPort (a % 16) (b % 16)]
   else if a % 16 = b % 16 then crossPorts (a / 16) (b / 16) else []).filter (s.linkUp a)

/-- The routes of R358 in order, each the slots it goes to. -/
def cabinetRoutes (a b : Nat) : List (List Nat) :=
  let h := a / 16
  let i := a % 16
  let h' := b / 16
  let j := b % 16
  let ks := ((List.range 15).map (fun n => (j + 1 + n) % 16)).filter (fun k => k != i && k != j)
  if h = h' then
    [[b]] ++ ks.map (fun k => [h * 16 + k, b]) ++
      ([1, 2, 3].map (fun n => (h + n) % 4)).map (fun g => [g * 16 + i, g * 16 + j, b])
  else if i = j then [[b]] ++ ks.map (fun k => [h * 16 + k, h' * 16 + k, b])
  else [[h' * 16 + i, b], [h * 16 + j, b]] ++ ks.map (fun k => [h * 16 + k, h' * 16 + k, b])

/-- Whether every link of a route is UP. -/
def State.routeUp (s : State) : Nat → List Nat → Bool
  | _, [] => true
  | a, b :: t => !(s.hopPorts a b).isEmpty && State.routeUp s b t

/-- The first route to a slot of the own cabinet whose links are all UP, and whether it is a detour (R358). -/
def State.routeTo (s : State) (b : Nat) : Option (List Nat × Bool) :=
  let a := slotOf s.devId
  if a = b then none
  else
    let l := cabinetRoutes a b
    (l.find? (s.routeUp a)).map (fun r => (r, l.head? != some r))

/-- One of several, by FLOW (R359, R360). -/
def byFlow (l : List Nat) (flow : Nat) : Option Nat := l[flow % l.length]?

/-- Planes that lead to a device of another cabinet (R360). -/
def State.planesTo (s : State) (dst : Nat) : List Nat :=
  (List.range 8).filter (fun p => bit (s.inEffect .brlUpCfg [] 7 0) p && (s.port (24 + p)).st == .up &&
    (Tbl.look s.fab.planes dst 0).getLsbD p)

/-- Port and route by which a DATA packet to a device leaves (R358 to R360); none where there is none (R361). -/
def State.wayTo (s : State) (dst flow : Nat) : Option (Nat × List Nat × Bool) :=
  if cabOf dst = cabOf s.devId then
    match s.routeTo (slotOf dst) with
    | none => none
    | some (r, detour) => match r with
      | [] => none
      | b :: _ => (byFlow (s.hopPorts (slotOf s.devId) b) flow).map (fun p => (p, r.dropLast, detour))
  else (byFlow (s.planesTo dst) flow).map (fun p => (24 + p, [], false))

/-- Data bytes one DATA packet carries on the way to a device behind its 16 B sub-header (R382). -/
def State.dataRoom (s : State) (dst : Nat) : Nat := if cabOf dst = cabOf s.devId then 496 else 4080

/-! ### Ports: records and states -/

/-- Code of a port state (R363). -/
def PortSt.code : PortSt → Nat
  | .disabled => 0 | .training => 1 | .check => 2 | .standby => 3 | .up => 4 | .down => 5 | .miswired => 6

/-- A port's new state, recorded as an event (R349, R458). -/
def State.setPortSt (s : State) (p : Nat) (st : PortSt) : State :=
  let x := s.port p
  if x.st = st then s
  else (s.setPort p { x with st := st }).event (srcPort p) 7 0 (st.code + 256 * x.st.code) 0

/-- Whether a port records a packet: its SEND and RECEIVE events pass a filter, and it is a SYNC or a sampled DATA packet
(R470). -/
def State.samples (s : State) (p code : Nat) (h : Line16) (crc : Nat) : Bool :=
  (List.range 4).any (fun k => (s.flag .catFltCtl [k] 0 || s.flag .catFltCtl [k] 1) && s.filterHit k (srcPort p) code 0) &&
    (Pkt.type h == tySync || Pkt.type h == tyData && decide (crc % 2 ^ s.field .catPsamp [] 4 0 = 0))

/-- Record a packet at a port where R470 calls for it. -/
def State.notePacket (s : State) (p code : Nat) (h : Line16) (payload : Bytes) : State :=
  let crc := crc32c (lineBytes h ++ payload)
  if s.samples p code h crc then
    s.event (srcPort p) code 0 (Pkt.type h + 16 * Pkt.proto h) (crc + 2 ^ 32 * (if code = 8 then Pkt.dst h else Pkt.src h))
  else s

/-! ### The link layer's sending side (R347) -/

/-- Units of 32 B a packet takes in a receive buffer: its whole length (R347). -/
def pktUnits (payload : Bytes) : Nat := cdiv (20 + payload.length) 32

/-- Bytes a port holds for replay. -/
def Port.heldBytes (x : Port) : Nat := (x.retry.map (fun r => 20 + r.payload.length)).foldl (· + ·) 0

/-- Whether a port holds the credits a packet needs. -/
def Port.hasCredit (x : Port) (h : Line16) (payload : Bytes) : Bool :=
  decide (pktUnits payload ≤ x.credits.getD (Pkt.vl h) 0)

/-- Whether a port may send a packet now. -/
def Port.maySend (x : Port) (h : Line16) (payload : Bytes) : Bool :=
  x.hasCredit h payload && decide (x.retry.length < 2048) && decide (x.heldBytes + 20 + payload.length ≤ 131072)

/-- Send a packet on a cabinet port: it takes the next SEQ and its credits, and is kept for replay. -/
def State.portEmit (s : State) (p : Nat) (h : Line16) (payload : Bytes) : State :=
  let x := s.port p
  let h' := withSeq h x.txSeq.toNat x.rxSeq.toNat x.nak
  let v := Pkt.vl h
  let y : Port := { x with
    txSeq := x.txSeq + 1, nak := false
    retry := x.retry ++ [{ seq := x.txSeq.toNat, hdr := h', payload := payload, tries := 1 }]
    credits := x.credits.set v (x.credits.getD v 0 - pktUnits payload) }
  ((s.setPort p y).notePacket p 8 h' payload).emit (.packet p h' payload)

/-- A MAC address: 0x02, BRL_MACHINE.ID and (ID << 3) | plane, in network byte order (R354). -/
def State.macAddr (s : State) (dev plane : Nat) : Bytes :=
  (toLE 6 (2 * 2 ^ 40 + s.field .brlMachine [] 7 0 * 2 ^ 32 + (dev * 8 + plane) % 2 ^ 32)).reverse

/-- What a frame opens with: both MAC addresses, the 802.1Q tag and the EtherType (R354). PRESUMED: the tag's other fields are zero
(log 122). -/
def State.frameHead (s : State) (plane type dst : Nat) : Bytes :=
  let pcp := if type = tyData then s.field .brlUpCfg [] 14 12 else s.field .brlUpCfg [] 18 16
  s.macAddr dst plane ++ s.macAddr s.devId plane ++ (toLE 2 0x8100).reverse ++ (toLE 2 (pcp * 2 ^ 13)).reverse ++
    (toLE 2 (s.field .brlEtype [] 15 0)).reverse

/-- Send a packet as a frame of its plane, under the association in force for sending where MACsec is on (R354, R362). -/
def State.frameSend (s : State) (p : Nat) (h : Line16) (payload : Bytes) : State :=
  let plane := p - 24
  let assoc := if bit (s.field .brlMacsec [] 7 0) plane then some (Tbl.look s.fab.macSend plane false) else none
  (s.notePacket p 8 h payload).emit (.frame p (s.frameHead plane (Pkt.type h) (Pkt.dst h)) assoc h payload)

/-- Whether a packet waits for the lock: a device that is not locked sends no DATA (R348). -/
def State.unsendable (s : State) (h : Line16) : Bool := Pkt.type h == tyData && !s.locked

/-- Hand a packet to a port: an uplink sends it as a frame (R354); a cabinet port sends it, or holds it for credits, in
order within its virtual lane, counting BRL_CREDIT_STALL where credits are what it lacks (R347). -/
def State.portSend (s : State) (p : Nat) (h : Line16) (payload : Bytes) : State :=
  if 24 ≤ p then s.frameSend p h payload
  else
    let x := s.port p
    if x.queue.all (fun q => Pkt.vl q.1 != Pkt.vl h) && x.maySend h payload then s.portEmit p h payload
    else (s.setPort p { x with queue := x.queue ++ [(h, payload)] }).countIf (!x.hasCredit h payload) .brlCreditStall p

/-- The first held packet that may go, with the rest: those of one virtual lane keep their order (R346, R347). -/
def nextHeld (may : Line16 → Bytes → Bool) :
    List (Line16 × Bytes) → List Nat → Option ((Line16 × Bytes) × List (Line16 × Bytes))
  | [], _ => none
  | q :: t, shut =>
    if !shut.contains (Pkt.vl q.1) && may q.1 q.2 then some (q, t)
    else (nextHeld may t (Pkt.vl q.1 :: shut)).map (fun r => (r.1, q :: r.2))

/-- Send what a port holds, as far as it may (R347). -/
def State.portPump (s : State) (p : Nat) : Nat → State
  | 0 => s
  | fuel + 1 =>
    let x := s.port p
    match nextHeld (fun h b => x.maySend h b && !s.unsendable h) x.queue [] with
    | none => s
    | some (q, t) => ((s.setPort p { x with queue := t }).portEmit p q.1 q.2).portPump p fuel

/-- Send again every unacknowledged packet, in order, and count it (R347). -/
def State.replay (s : State) (p : Nat) : State :=
  let x := s.port p
  let again := x.retry.map (fun r => { r with tries := r.tries + 1 })
  if again.isEmpty then s
  else again.foldl (fun s r => s.emit (.packet p r.hdr r.payload)) ((s.setPort p { x with retry := again }).count .brlReplay p 1)

/-- Count detoured or dropped packets: running Carmine steps fall outside the promise (R224, R427). -/
def State.rerouted (s : State) (c : Ctr) (p n : Nat) : State := if n = 0 then s else (s.count c p n).voidSteps [voidReroute]

/-- Send a DATA packet of this device, nothing while it is not locked; whether it found a way (R348, R358 to R361). -/
def State.sendData (s : State) (dst proto flow : Nat) (payload : Bytes) : State × Bool :=
  if !s.locked then (s, true)
  else match s.wayTo dst flow with
  | none => (s, false)
  | some (p, vias, detour) =>
    let b := slice payload 0 (alignUp payload.length 32)
    let h := pktHdr tyData 0 (b.length / 32) s.beat proto dst s.devId flow vias
    ((s.rerouted .brlDetour 0 (if detour then 1 else 0)).portSend p h b, true)

/-! ### Window requests (R329, R392) -/

def opWinPut : Nat := 0x72
def opWinGet : Nat := 0x73

/-- The 16 B sub-header of a window packet (R392). -/
def winSub (win gen opid bytes ofs gal : Nat) : Bytes :=
  toLE 16 (putF 0 0 (win % 1024) + putF 2 0 (gen % 65536) + putF 4 0 (opid % 65536) + putF 6 0 (bytes % 8192) +
    putF 8 0 (ofs % 2 ^ 32) + putF 12 0 (gal % 64))

/-- Operation numbers running operations hold. -/
def State.opids (s : State) : List Nat :=
  (s.dma.ops.filter (fun x => x.op.opcode == opWinPut || x.op.opcode == opWinGet)).map (fun x => x.opid)

/-- The next free operation number from the last one given on. -/
def State.newOpid (s : State) : Nat :=
  ((List.range (s.opids.length + 1)).map (fun i => (s.dma.nextOpid + i) % 65536)).find? (fun n => !s.opids.contains n) |>.getD 0

/-- Ask a peer for part of a reference copy: one GETREQ of its window (R328, R329, R392). DESIGN CHOICE: the spec names neither the
generation nor the flow of such a request, and both are free values (log 118). A device that is not locked sends nothing. -/
def State.peerRead (s : State) (x : Obj) (ofs n : Nat) : State :=
  if !s.locked then s
  else
    let id := s.newOpid
    let gen := Config.freeNat s.free
    let flow := Config.freeNat (s.free + 1) % 256
    let s1 : State := { s.draw 2 with dma := { s.dma with nextOpid := (id + 1) % 65536 } }
    (s1.sendData x.device prGetReq flow (winSub x.window gen id 0 ofs 0 ++ toLE 16 n)).1

end Sys2Proof.Machine
end

