-- ==== Sys2Proof/Machine/Dma.lean ====
section
/-! DEFINITION. The DMA engines (chapter 10), with NOP and FENCE of the host interface: acceptance of the DMA opcodes,
channels, transfer units, faults during a transfer, DMA_STOP and completion. -/

namespace Sys2Proof.Machine

/-! ### NOP and FENCE (R253) -/

/-- A descriptor with no payload. -/
def emptyChecks (_ : State) (o : Op) : List Bad := o.flagsZero 0 ++ needZero o.d (byteRange 8 59)

/-- NOP completes with OK at acceptance (R253). -/
def State.acceptNop (s : State) (o : Origin) (d : Line64) : State :=
  s.accept (srcHub hubHost) o d 0x01 emptyChecks (fun s op => s.complete (srcHub hubHost) op { st := .ok })
def execNop (o : Origin) (d : Line64) (s : State) : Host.Outcome State Fault Refusal := .next (s.acceptNop o d)

/-- FENCE waits for every earlier descriptor of its ring (R253). -/
def State.acceptFence (s : State) (o : Origin) (d : Line64) : State :=
  s.accept (srcHub hubHost) o d 0x02 emptyChecks (fun s op =>
    let s1 : State := { s with hif := { s.hif with fences := s.hif.fences ++ [op] } }
    match op.org with
    | .ring r _ => s1.settleFence r.val
    | .step _ => s1)
def execFence (o : Origin) (d : Line64) (s : State) : Host.Outcome State Fault Refusal := .next (s.acceptFence o d)

/-! ### What an operation covers -/

/-- Opcodes of R273. -/
def opCopy : Nat := 0x20
def opFill : Nat := 0x21
def opCompare : Nat := 0x22
def opGather : Nat := 0x23
def opStrided : Nat := 0x24
def opTranspose : Nat := 0x25
def opT24 : Nat := 0x26

/-- Bytes of an element of a transposing read, times 8 (R281). -/
def transposeBits (d : Line64) : Nat := 4 * 2 ^ fld d 40 1 0

/-- Bytes of `n` tokens' page record with its padding (R279): `kr` a token's key record, `hd` HDIM. -/
def gatherRecord (kr hd n : Nat) : Nat := alignUp (n * (2 * kr + 2 * hd)) 64

/-- The page records of a walk in walk order: row, slot, first token within the row and tokens (R192). -/
def gatherWalk (ptok s0 s1 t0 t1 : Nat) : List (Nat × Nat × Nat × Nat) :=
  if ptok = 0 then [] else
  ((List.range (cdiv t1 ptok)).filter (fun r => decide (t0 / ptok ≤ r))).flatMap (fun r =>
    let lo := max t0 (r * ptok)
    let hi := min t1 ((r + 1) * ptok)
    (List.range (s1 - s0)).map (fun k => (r, s0 + k, lo - r * ptok, hi - lo)))

/-- A page record of a gather: row, slot, first token within the row, tokens, and its place in the output. -/
structure GatherRec where
  row   : Nat
  slot  : Nat
  first : Nat
  n     : Nat
  ofs   : Nat
  len   : Nat
  deriving DecidableEq, Repr

/-- Page records with their places in the output. -/
def gatherPlaces (kr hd : Nat) : Nat → List (Nat × Nat × Nat × Nat) → List GatherRec
  | _, [] => []
  | o, (r, k, f, n) :: t =>
    { row := r, slot := k, first := f, n := n, ofs := o, len := gatherRecord kr hd n } ::
      gatherPlaces kr hd (o + gatherRecord kr hd n) t

/-- The page records of a GATHER over the layout of a map. -/
def gatherRecs (d : Line64) (kfmt hdim ptok : Nat) : List GatherRec :=
  gatherPlaces (keyBytes kfmt hdim) hdim 0
    (gatherWalk ptok (fld d 10 12 0) (fld d 12 12 0) (fld d 16 31 0) (fld d 20 31 0))

/-- Output bytes of page records. -/
def gatherLen (l : List GatherRec) : Nat := (l.map (fun g => g.len)).foldl (· + ·) 0

/-- Output bytes of a GATHER by its counts alone, whatever the walk would reach (R277, R279): whole rows between its first and its
last. -/
def gatherBytes (d : Line64) (kfmt hdim ptok : Nat) : Nat :=
  let rec_ (n : Nat) : Nat := gatherRecord (keyBytes kfmt hdim) hdim n
  let t0 := fld d 16 31 0
  let t1 := fld d 20 31 0
  let a := t0 / ptok
  let b := (t1 - 1) / ptok
  (fld d 12 12 0 - fld d 10 12 0) * (if t1 ≤ t0 then 0 else if a = b then rec_ (t1 - t0)
    else rec_ (ptok - t0 % ptok) + (b - a - 1) * rec_ ptok + rec_ ((t1 - 1) % ptok + 1))

/-- Trits per row of a T24_CONVERT, and its conversion units per row (R282, R283). -/
def t24K (d : Line64) : Nat := 32 * fld d 42 15 0
def t24PerRow (d : Line64) : Nat := cdiv (t24K d) 16384

/-- Positions an operation passes through: bytes of its output, or conversion units (R268, R283). -/
def Op.dmaTotal (o : Op) (recs : List GatherRec) : Nat :=
  match o.opcode with
  | 0x23 => gatherLen recs
  | 0x24 => fld o.d 44 31 0 * 2 ^ fld o.d 40 2 0
  | 0x25 => cdiv (fld o.d 42 15 0 * fld o.d 44 15 0 * transposeBits o.d) 8
  | 0x26 => fld o.d 40 15 0 * t24PerRow o.d
  | _ => fld o.d 40 31 0

/-- Bytes an operation's destination spans from its ADDR. -/
def Op.dmaDstLen (o : Op) (recs : List GatherRec) : Nat :=
  if o.opcode = opT24 then 8 * fld o.d 48 15 0 * (fld o.d 40 15 0 - 1) + 7 * fld o.d 42 15 0 else o.dmaTotal recs

/-- Bytes an operation's source spans from its ADDR: strided and transposing reads, dense rows, or the length. -/
def Op.dmaSrcLen (o : Op) : Nat :=
  match o.opcode with
  | 0x24 => (fld o.d 44 31 0 - 1) * fld o.d 48 31 0 + 2 ^ fld o.d 40 2 0
  | 0x25 => (fld o.d 42 15 0 - 1) * fld o.d 46 15 0 + cdiv (fld o.d 44 15 0 * transposeBits o.d) 8
  | 0x26 => (fld o.d 40 15 0 - 1) * fld o.d 44 31 0 + cdiv (t24K o.d) 5
  | _ => fld o.d 40 31 0

/-- Offsets of an operation's endpoints in its descriptor, with whether each is a destination. -/
def Op.dmaEps (o : Op) : List (Nat × Bool) :=
  match o.opcode with
  | 0x21 => [(24, true)]
  | 0x22 => [(8, false), (24, false)]
  | 0x23 => [(24, true)]
  | 0x72 => [(8, false)]
  | 0x73 => [(8, true)]
  | _ => [(8, false), (24, true)]

/-- An operation's destination endpoint. -/
def Op.dmaDst (o : Op) : Ep := Ep.of o.d (if o.opcode = 0x73 then 8 else 24)

/-- Key format, HDIM and page length of a stream's map. -/
def KvMap.layout (m : KvMap) : Nat × Nat × Nat := (m.kfmt, m.hdim, m.ptok)

/-- Page records of a GATHER: under the layout it was accepted with, else under its stream's now. -/
def State.gatherOf (s : State) (o : Op) : List GatherRec :=
  if o.opcode = opGather then
    let l := match s.dma.ops.find? (fun x => x.op.id == o.id) with
      | some x => x.layout
      | none => (s.kvMap (fld o.d 8 14 0)).layout
    gatherRecs o.d l.1 l.2.1 l.2.2
  else []

/-! ### Acceptance (R272 to R282) -/

/-- Endpoint checks of an operation: form, SCRATCH on one core, ranges and handles (R92, R272). -/
def State.dmaEndpoints (s : State) (o : Op) : List Bad :=
  let recs := s.gatherOf o
  let len (p : Nat × Bool) : Nat := if p.2 then o.dmaDstLen recs else if o.opcode = opCompare then fld o.d 40 31 0 else o.dmaSrcLen
  let formLen (p : Nat × Bool) : Nat := if o.opcode = opGather then fld o.d 40 31 0 else len p
  let a := Ep.of o.d 8
  let b := Ep.of o.d 24
  o.dmaEps.flatMap (fun p => epForm o p.1 (formLen p)) ++
  need (decide (1 < o.dmaEps.length) && a.scratch && b.scratch && a.core != b.core) .badDescriptor 24 ++
  o.dmaEps.flatMap (fun p => s.epUse o p.1 (len p) p.2)

/-- First line and bytes of a SCRATCH endpoint in its core's scratchpad, else the address itself. -/
def State.epPlace (s : State) (e : Ep) : Nat := if e.scratch then 64 * (s.href e.core e.href).base + e.addr else e.addr

/-- Whether the source and destination of a COPY overlap within one space (R272); handles that R92 refuses are not
compared. -/
def State.copyOverlaps (s : State) (o : Op) : Bool :=
  let a := Ep.of o.d 8
  let b := Ep.of o.d 24
  let n := fld o.d 40 31 0
  let m := if b.scratch then (s.href b.core b.href).needs n else n
  a.space == b.space && a.core == b.core &&
    !(a.scratch && (s.hrefBad a.core a.href o.gal || s.hrefBad b.core b.href o.gal)) &&
    decide (s.epPlace a < s.epPlace b + m) && decide (s.epPlace b < s.epPlace a + n)

/-- Checks of COPY (R272, R274). -/
def copyChecks (s : State) (o : Op) : List Bad :=
  o.flagsZero 0 ++ needOk (fld o.d 40 31 0 != 0) 40 ++ needZero o.d (byteRange 44 59) ++ s.dmaEndpoints o ++
  need (s.copyOverlaps o) .badDescriptor 24

/-- Checks of FILL (R274). -/
def fillChecks (s : State) (o : Op) : List Bad :=
  o.flagsZero 0 ++ needZero o.d (byteRange 8 23) ++ needOk (fld o.d 40 31 0 != 0) 40 ++
  needZero o.d (byteRange 44 47 ++ byteRange 56 59) ++ s.dmaEndpoints o

/-- Checks of COMPARE (R274). -/
def compareChecks (s : State) (o : Op) : List Bad :=
  o.flagsZero 0 ++ needOk (fld o.d 40 31 0 != 0) 40 ++ needZero o.d (byteRange 44 59) ++ s.dmaEndpoints o

/-- Checks of GATHER (R276, R277). -/
def gatherChecks (s : State) (o : Op) : List Bad :=
  let k := fld o.d 8 14 0
  let m := s.kvMap k
  let there := s.ownsStream o.gal k && (s.ctx k).st != .free
  o.flagsZero 0 ++ needBits o.d 8 15 15 ++ needBits o.d 10 15 13 ++ needBits o.d 12 15 13 ++ needZero o.d [14, 15] ++
  needOk (decide (fld o.d 10 12 0 < fld o.d 12 12 0)) 10 ++ needOk (!there || decide (fld o.d 12 12 0 ≤ m.slots)) 12 ++
  needOk (decide (fld o.d 16 31 0 < fld o.d 20 31 0)) 16 ++ needZero o.d (byteRange 44 59) ++
  need (!there || decide (m.tokens < fld o.d 20 31 0)) .badHandle 8 ++
  needOk (!there || decide (gatherBytes o.d m.kfmt m.hdim m.ptok ≤ fld o.d 40 31 0)) 40 ++
  (if there && decide (fld o.d 20 31 0 ≤ m.tokens) then s.dmaEndpoints o else epForm o 24 (fld o.d 40 31 0))

/-- Checks of SP_STRIDED (R280). -/
def stridedChecks (s : State) (o : Op) : List Bad :=
  let lg := fld o.d 40 2 0
  o.flagsZero 0 ++ needBits o.d 40 7 3 ++ needZero o.d (byteRange 41 43) ++ needOk (lg != 7) 40 ++
  needOk (fld o.d 44 31 0 != 0) 44 ++ needOk (decide (fld o.d 48 31 0 % 2 ^ lg = 0)) 48 ++
  needZero o.d (byteRange 52 59) ++ needOk (Ep.of o.d 8).scratch 8 ++ s.dmaEndpoints o

/-- Checks of SP_TRANSPOSE (R281). -/
def transposeChecks (s : State) (o : Op) : List Bad :=
  let p := fld o.d 46 15 0
  o.flagsZero 0 ++ needBits o.d 40 7 2 ++ needZero o.d [41] ++ needOk (fld o.d 40 1 0 != 3) 40 ++
  needOk (fld o.d 42 15 0 != 0) 42 ++ needOk (fld o.d 44 15 0 != 0) 44 ++
  needOk (decide (p % 64 = 0) && decide (cdiv (fld o.d 44 15 0 * transposeBits o.d) 8 ≤ p)) 46 ++
  needZero o.d (byteRange 48 59) ++ needOk (Ep.of o.d 8).scratch 8 ++
  needOk (decide ((Ep.of o.d 8).addr % 64 = 0)) 16 ++ s.dmaEndpoints o

/-- Checks of T24_CONVERT (R282). -/
def t24Checks (s : State) (o : Op) : List Bad :=
  o.flagsZero 0 ++ needOk (fld o.d 40 15 0 != 0) 40 ++ needOk (fld o.d 42 15 0 != 0) 42 ++
  needOk (decide (cdiv (t24K o.d) 5 ≤ fld o.d 44 31 0)) 44 ++
  needOk (decide (cdiv (7 * fld o.d 42 15 0) 8 ≤ fld o.d 48 15 0)) 48 ++ needZero o.d (byteRange 50 59) ++
  s.dmaEndpoints o

/-! ### Leaving -/

/-- The SCRATCH endpoints of an operation. -/
def Op.scratchEps (o : Op) : List Ep := (o.dmaEps.map (fun p => Ep.of o.d p.1)).filter Ep.scratch

/-- An operation that issues, or leaves, counts on its handles (R88). -/
def State.dmaHandles (s : State) (o : Op) (up : Bool) : State := o.scratchEps.foldl (fun s e => s.useHandle e.core e.href up) s

/-- Drop an operation's handle counts, scoreboard entries, place at an issue point, waits and channel (R88, R267, R289). -/
def State.dmaLeave (s : State) (o : Op) : State :=
  let counted := s.dma.ops.any (fun x => x.op.id == o.id && x.issued)
  let s0 := if counted then s.dmaHandles o false else s
  let s1 := o.scratchEps.foldl (fun s e =>
    let s := s.sbLeave e.core o.id
    let k := s.core e.core
    s.setCore e.core { k with waiting := k.waiting.filter (fun p => p.id != o.id) }) s0
  State.waitsDrop { s1 with dma := { s1.dma with ops := s1.dma.ops.filter (fun x => x.op.id != o.id) }
                            tiers := { s1.tiers with writeQ := s1.tiers.writeQ.filter (fun q => q.2.2 != 2 * o.id) } }
    (fun n => n == o.identity)

/-- Whether a DMA or window operation accepted earlier uses a mapping's range (R331). -/
def State.mappingUsed (s : State) (m : Mapping) : Bool :=
  s.dma.ops.any (fun x => x.op.gal == m.gal && x.op.dmaEps.any (fun p =>
    let e := Ep.of x.op.d p.1
    let n := if p.2 then x.op.dmaDstLen (s.gatherOf x.op) else if x.op.opcode = opCompare then fld x.op.d 40 31 0 else x.op.dmaSrcLen
    e.device && decide (e.addr < m.daddr + m.panels * 2 ^ 18) && decide (m.daddr < e.addr + n)))

/-! ### Object operations (R325) -/

/-- The channel of an object operation is free again. -/
def State.objFree (s : State) (id : Nat) : State :=
  { s with tiers := { s.tiers with objRun := s.tiers.objRun.filter (fun n => n != id) } }

/-- Complete the OBJ_RELEASEs that hold a channel and whose accesses have all ended (R331). -/
def State.endReleases (s : State) : State :=
  s.tiers.maps.foldl (fun s m => match m.release with
    | none => s
    | some o => if !s.tiers.objRun.contains o.id || s.mappingUsed m || s.releaseHeld m then s
        else ((s.endMapping m).objFree o.id).complete (srcHub hubDma) o { st := .ok }) s

/-- End a migration that has no panel left to take or in flight: its unused frames return, and its record is written
(R333, R328). -/
def State.migEnd (s : State) (id : Nat) : State :=
  match s.tiers.migs.find? (fun g => g.op.id == id) with
  | none => s
  | some g =>
    if !g.left.isEmpty || s.tiers.moving.any (fun m => m.2.2 == id) then s
    else
      let s1 : State := { s with tiers := { s.tiers with migs := s.tiers.migs.filter (fun x => x.op.id != id) } }
      ((s1.giveT0 g.frames).objFree id).complete (srcHub hubDma) g.op
        { st := g.status, result := if g.op.opcode = 0x6A then g.obj else g.moved }

/-- An object operation takes a channel: a short one ends on it at once. -/
def State.objStart (s : State) (j : ObjJob) : State :=
  let runs (s : State) : State :=
    State.opEvent { s with tiers := { s.tiers with objRun := s.tiers.objRun ++ [j.op.id] } } (srcHub hubDma) 2 j.op .ok
  match j.kind with
  | .done r => s.complete (srcHub hubDma) j.op { st := .ok, result := r }
  | .mig => (runs s).migEnd j.op.id
  | .release => runs s

/-- Let releases end and waiting operations take free channels, in order of acceptance; `fuel` bounds those that wait. -/
def State.objSettle (s : State) : Nat → State
  | 0 => s.endReleases
  | fuel + 1 =>
    let s1 := s.endReleases
    match s1.tiers.objWait with
    | [] => s1
    | j :: t =>
      if 4 ≤ s1.tiers.objRun.length then s1
      else (State.objStart { s1 with tiers := { s1.tiers with objWait := t } } j).objSettle fuel

/-- What the end of some work brings about among the object operations (R325, R331). -/
def State.settleObjects (s : State) : State := s.objSettle s.tiers.objWait.length

/-- An accepted object operation runs on one of the four channels kept for them, at once if one is free (R325). -/
def State.objSubmit (s : State) (o : Op) (k : ObjKind) : State :=
  State.settleObjects (State.opEvent { s with tiers := { s.tiers with objWait := s.tiers.objWait ++ [{ op := o, kind := k }] } }
    (srcHub hubDma) 1 o .ok)

/-- Complete the DMA_STOPs whose scope has emptied (R288). -/
def State.settleStops (s : State) (id : Nat) : State :=
  let recs := s.dma.stops.map (fun r => { r with scope := r.scope.filter (fun n => n != id) })
  let s1 : State := { s with dma := { s.dma with stops := recs.filter (fun r => !r.scope.isEmpty) } }
  ((recs.filter (fun r => r.scope.isEmpty)).foldl (fun s r =>
    s.complete (srcHub hubDma) r.op { st := .ok, result := r.count }) s1).settleObjects

/-! ### Channels (R267, R289) -/

/-- Operations that hold a channel. -/
def State.dmaHeld (s : State) : List Nat := s.dma.ops.filterMap (fun x => x.chan)

/-- The lowest-numbered free channel an operation may use (R267). -/
def State.freeChannel (s : State) (o : Op) : Option Nat :=
  let held := s.dmaHeld
  let used := (s.dma.ops.filter (fun x => x.chan.isSome && x.op.ringed && x.op.gal == o.gal)).length
  if o.ringed && decide (s.field .dmaGal [o.gal] 8 0 ≤ used) then none
  else
    let lo := if !o.ringed && o.cls == 0 then 0 else s.field .dmaCresv [] 7 0
    (List.range 256).find? (fun c => decide (lo ≤ c) && !held.contains c)

/-- Change the record of one operation. -/
def State.updDma (s : State) (id : Nat) (f : DmaOp → DmaOp) : State :=
  { s with dma := { s.dma with ops := s.dma.ops.map (fun x => if x.op.id = id then f x else x) } }

/-- Whether an endpoint takes part in the scoreboard: SCRATCH through a handle with ORDER = 0 (R289). -/
def State.epOrdered (s : State) (e : Ep) : Bool := e.scratch && !(s.href e.core e.href).order

/-- Scoreboard entries an operation enters, with the core they stand on (R94, R289). A converted vector's range is that
of its operand form (R86). -/
def State.dmaEntries (s : State) (o : Op) : List (Nat × SbEntry) :=
  let recs := s.gatherOf o
  o.dmaEps.flatMap (fun p =>
    let e := Ep.of o.d p.1
    if s.epOrdered e then
      let len := if p.2 then (s.href e.core e.href).needs (o.dmaDstLen recs)
        else if o.opcode = opCompare then fld o.d 40 31 0 else o.dmaSrcLen
      (s.sbRange e.core e.href e.addr len p.2 o.id).map (fun x => (e.core, x))
    else [])

/-- Core whose issue point an operation passes, if any (R272, R289). -/
def State.dmaCore (s : State) (o : Op) : Option Nat := ((s.dmaEntries o).map Prod.fst).head?

/-- Issue an operation: its handles count it. A reference that has lost its binding since acceptance is refused here (R88, R91,
R92). -/
def State.dmaIssue (s : State) (o : Op) : State :=
  if o.scratchEps.any (fun e => s.hrefBad e.core e.href o.gal) then
    ((s.dmaLeave o).complete (srcHub hubDma) o { st := .badHandle }).settleStops o.id
  else (s.dmaHandles o true).updDma o.id (fun x => { x with issued := true })

/-- Give an operation its channel: one with an ORDER = 0 endpoint waits at its core's issue point with it, any other may
begin (R289). -/
def State.giveChannel (s : State) (o : Op) (c : Nat) : State :=
  let s1 := (s.updDma o.id (fun x => { x with chan := some c })).waitEnd (srcHub hubDma) 9 o.identity (some (.dmaChWait, o.gal))
  match s1.dmaCore o with
  | none => s1.dmaIssue o
  | some core =>
    let k := s1.core core
    s1.setCore core { k with waiting := k.waiting ++ [o] }

/-- Operations that wait and may take a channel now, oldest first. DESIGN CHOICE: one that no channel may serve, for CHMAX or the
reserved channels, is passed by the later ones of its class (log 107). -/
def State.channelReady (s : State) : List DmaOp :=
  s.dma.ops.filter (fun x => x.chan.isNone && (s.freeChannel x.op).isSome)

/-- Acceptance of an operation that moves data: it takes a channel, or waits for one behind those of its class that may take one
(R267). -/
def State.dmaStart (s : State) (o : Op) : State :=
  let s2 : State := { s with dma := { s.dma with ops := s.dma.ops ++ [{ op := o, layout := (s.kvMap (fld o.d 8 14 0)).layout }] } }
  let s3 := s2.opEvent (srcHub hubDma) 1 o .ok
  match s3.freeChannel o with
  | some c => if s.channelReady.any (fun x => x.op.cls == o.cls) then s3.waitBegin (srcHub hubDma) 9 o.identity
      else s3.giveChannel o c
  | none => s3.waitBegin (srcHub hubDma) 9 o.identity

/-- COPY, FILL, COMPARE, GATHER, SP_STRIDED, SP_TRANSPOSE and T24_CONVERT at acceptance. -/
def State.acceptCopy (s : State) (o : Origin) (d : Line64) : State :=
  s.accept (srcHub hubDma) o d opCopy copyChecks State.dmaStart
def State.acceptFill (s : State) (o : Origin) (d : Line64) : State :=
  s.accept (srcHub hubDma) o d opFill fillChecks State.dmaStart
def State.acceptCompare (s : State) (o : Origin) (d : Line64) : State :=
  s.accept (srcHub hubDma) o d opCompare compareChecks State.dmaStart
def State.acceptGather (s : State) (o : Origin) (d : Line64) : State :=
  s.accept (srcHub hubDma) o d opGather gatherChecks State.dmaStart
def State.acceptStrided (s : State) (o : Origin) (d : Line64) : State :=
  s.accept (srcHub hubDma) o d opStrided stridedChecks State.dmaStart
def State.acceptTranspose (s : State) (o : Origin) (d : Line64) : State :=
  s.accept (srcHub hubDma) o d opTranspose transposeChecks State.dmaStart
def State.acceptT24 (s : State) (o : Origin) (d : Line64) : State :=
  s.accept (srcHub hubDma) o d opT24 t24Checks State.dmaStart

def execCopy (o : Origin) (d : Line64) (s : State) : Host.Outcome State Fault Refusal := .next (s.acceptCopy o d)
def execFill (o : Origin) (d : Line64) (s : State) : Host.Outcome State Fault Refusal := .next (s.acceptFill o d)
def execCompare (o : Origin) (d : Line64) (s : State) : Host.Outcome State Fault Refusal := .next (s.acceptCompare o d)
def execGather (o : Origin) (d : Line64) (s : State) : Host.Outcome State Fault Refusal := .next (s.acceptGather o d)
def execSpStrided (o : Origin) (d : Line64) (s : State) : Host.Outcome State Fault Refusal := .next (s.acceptStrided o d)
def execSpTranspose (o : Origin) (d : Line64) (s : State) : Host.Outcome State Fault Refusal :=
  .next (s.acceptTranspose o d)
def execT24Convert (o : Origin) (d : Line64) (s : State) : Host.Outcome State Fault Refusal := .next (s.acceptT24 o d)

/-- DMA_CHANNEL_ACQUIRE: the oldest waiting operation of its class that may use a free channel takes the lowest one, the classes in
the order of R218 (R267). -/
def execDmaChannelAcquire (s : State) : Host.Outcome State Fault Refusal :=
  let ready := s.channelReady
  if !s.running then .next s
  else match s.classPick (fun x => x.op.cls) ready with
    | (s1, none) => .next s1
    | (s1, some x) => match s1.freeChannel x.op with
      | none => .next s1
      | some c => .next (s1.giveChannel x.op c)

/-! ### Transfer units (R268, R336) -/

/-- The next multiple of `n` above `a`. -/
def nextMul (a n : Nat) : Nat := (a / n + 1) * n

/-- Where the unit of an operation that starts at a position ends: the next multiple of 4 KiB, of its page record for a
GATHER, a panel boundary of a DEVICE endpoint, or the operation's end (R268, R336). -/
def State.unitEnd (s : State) (o : Op) (pos : Nat) : Nat :=
  let recs := s.gatherOf o
  if o.opcode = opT24 then pos + 1
  else
    let cuts := (o.dmaEps.map (fun p => Ep.of o.d p.1)).filterMap (fun e =>
      if e.device then some (nextMul (e.addr + pos) 262144 - e.addr) else none)
    let stop := match recs.find? (fun g => decide (g.ofs ≤ pos) && decide (pos < g.ofs + g.len)) with
      | some g => min (g.ofs + nextMul (pos - g.ofs) 4096) (g.ofs + g.len)
      | none => nextMul pos 4096
    (stop :: cuts).foldl min (o.dmaTotal recs)

/-- The channel runs of a range of an endpoint: core, address and length (R296, R336). -/
def State.epRuns (s : State) (gal : Nat) (e : Ep) (pos n : Nat) : List (Nat × Nat × Nat) :=
  if n = 0 then []
  else if e.channel then [(e.core, e.addr + pos, n)]
  else if !e.device then []
  else
    let a := e.addr + pos
    (List.range (cdiv (a % 262144 + n) 262144)).filterMap (fun i =>
      let lo := if i = 0 then a else (a / 262144 + i) * 262144
      let hi := min (a + n) ((a / 262144 + i + 1) * 262144)
      (s.panelAt gal lo).bind (fun p => match s.locate p.1 p.2 with
        | .t1 c x => some (c, x + lo % 262144, hi - lo)
        | _ => none))

/-! ### Reading sources -/

/-- What a read of one unit gives: its bytes, the offsets at which bytes were delivered as zero, and statuses. -/
structure Got where
  data : Bytes
  zero : List Nat := []
  sts  : List Status := []
  deriving DecidableEq, Repr

/-- Offsets of the double-bit words of a scratchpad range, and its read (R84). -/
def State.takeScratch (s : State) (c a n : Nat) : State × Got :=
  let dbl := (s.badWords (s.scratch c + a) n).filter Prod.snd
  let r := s.noteScratch c a n
  (r.1, { data := s.readScratch c a n, zero := dbl.map (fun w => 8 * w.1 - s.scratch c - a)
          sts := statusIf r.2 .arrayUe :: [] })

/-- A read of a channel range for a DMA operation of gallery `g` (R286). -/
def State.takeChan (s : State) (g c a n reader : Nat) : State × Got :=
  let r := s.readChan c a n reader
  (r.1.count .dmaSrcUe g (if reader = rdDma then r.2.2.1.length else 0), { data := r.2.1, zero := r.2.2.1, sts := r.2.2.2 })

/-- A read of a hall-buffer range. -/
def State.takeHall (s : State) (a n : Nat) : State × Got :=
  let r := s.noteHallUse a n
  (r.1, { data := s.readHall a n, zero := r.2.1, sts := r.2.2 })

/-- Panels a range through a device address touches, first to last (R336). -/
def State.rangePanels (s : State) (gal : Nat) (e : Ep) (pos n : Nat) : List (Nat × Nat) :=
  if !e.device || n == 0 then []
  else
    let a := e.addr + pos
    (List.range (cdiv (a % 262144 + n) 262144)).filterMap (fun i => s.panelAt gal (if i = 0 then a else (a / 262144 + i) * 262144))

/-- Whether a source range waits: a panel of it is quarantined (R286, R339). -/
def State.srcWaits (s : State) (gal : Nat) (e : Ep) (pos n : Nat) : Bool :=
  (s.rangePanels gal e pos n).any (fun p => (s.panel p.1 p.2).quar)

/-- Whether the bytes of a source range come from outside the device: host memory, or a reference copy (R321). -/
def State.srcOutside (s : State) (gal : Nat) (e : Ep) (pos : Nat) : Bool :=
  e.host || e.device && (match s.panelAt gal (e.addr + pos) with
    | none => true
    | some p => match s.locate p.1 p.2 with | .t2 _ _ => true | _ => false)

/-- Read one unit's range of a source endpoint: `data` is what stands outside the device. A unit of a reference copy
read while its panel is being fetched counts as MIG_REF_READ (R338). -/
def State.takeEp (s : State) (gal : Nat) (e : Ep) (chan pos n reader : Nat) (data : Bytes) : State × Got :=
  let a := e.addr + pos
  if e.host then (s.hostRead gal (.dmaUnit chan) a n, { data := slice data 0 n })
  else if e.channel then s.takeChan gal e.core a n reader
  else if e.scratch then s.takeScratch e.core (64 * (s.href e.core e.href).base + a) n
  else if e.hall then s.takeHall a n
  else match s.panelAt gal a with
    | none => (s, { data := slice data 0 n })
    | some p =>
      let b := a % 262144
      match s.locate p.1 p.2 with
      | .t0 h => s.takeHall (h + b) n
      | .t1 c x => s.takeChan gal c (x + b) n reader
      | .t2 peer x =>
        let s1 := s.countIf (s.panel p.1 p.2).busy.isSome .migRefRead gal
        (match peer, s.obj? p.1 with
          | true, some o => s1.peerRead o (x + b) n
          | true, none => s1
          | false, _ => s1.hostRead 0 (.dmaUnit chan) (x + b) n, { data := slice data 0 n })

/-- Read scattered bytes of a scratchpad: each word they lie in is read once. -/
def State.takeScattered (s : State) (c : Nat) (as : List Nat) : State × List (Nat × Byte) × List Nat × List Status :=
  let words := distinct (as.map (fun a => a / 8))
  let r := words.foldl (fun (acc : State × Bool) w =>
    let t := acc.1.noteScratch c (8 * w) 8
    (t.1, acc.2 || t.2)) (s, false)
  let dbl := words.filter (fun w => (s.badWords (s.scratch c + 8 * w) 8).any Prod.snd)
  (r.1, as.map (fun a => (a, (s.readScratch c a 1).headD 0)),
    positions as.length (fun i => dbl.contains (as.getD i 0 / 8)), [statusIf r.2 .arrayUe])

/-- Source byte of each output byte of a strided read (R98, R280). -/
def stridedBytes (d : Line64) (pos n : Nat) : List Nat :=
  let e := 2 ^ fld d 40 2 0
  (List.range n).map (fun i => (pos + i) / e * fld d 48 31 0 + (pos + i) % e)

/-- Source bytes of an output byte of a transposing read: one byte of 8 or 16 bits, or two codes of 4 bits with the
nibble of each (R99, R281). -/
def transposeSource (d : Line64) (i : Nat) : List (Nat × Bool) :=
  let rows := fld d 42 15 0
  let pitch := fld d 46 15 0
  let at_ (k : Nat) : Nat × Nat := (k % rows, k / rows)
  match fld d 40 1 0 with
  | 0 => ((List.range 2).filter (fun j => decide (2 * i + j < rows * fld d 44 15 0))).map (fun j =>
      let rc := at_ (2 * i + j)
      (rc.1 * pitch + rc.2 / 2, rc.2 % 2 == 1))
  | 1 => let rc := at_ i; [(rc.1 * pitch + rc.2, false)]
  | _ => let rc := at_ (i / 2); [(rc.1 * pitch + 2 * rc.2 + i % 2, false)]

/-- Read one unit of a strided or transposing read. -/
def State.takeSpread (s : State) (o : Op) (pos n : Nat) : State × Got :=
  let e := Ep.of o.d 8
  let base := 64 * (s.href e.core e.href).base + e.addr
  if o.opcode = opStrided then
    let r := s.takeScattered e.core ((stridedBytes o.d pos n).map (fun a => base + a))
    (r.1, { data := r.2.1.map Prod.snd, zero := r.2.2.1, sts := r.2.2.2 })
  else
    let src := (List.range n).map (fun i => transposeSource o.d (pos + i))
    let r := s.takeScattered e.core ((src.flatten).map (fun x => base + x.1))
    let byteAt (a : Nat) : Nat := ((r.2.1.find? (fun x => x.1 == base + a)).map (fun x => x.2.toNat)).getD 0
    let out := src.map (fun l =>
      if fld o.d 40 1 0 = 0 then
        BitVec.ofNat 8 ((l.zip [1, 16]).foldl (fun acc x =>
          acc + (if x.1.2 then byteAt x.1.1 / 16 else byteAt x.1.1 % 16) * x.2) 0)
      else BitVec.ofNat 8 (byteAt ((l.headD (0, false)).1)))
    (r.1, { data := out, sts := r.2.2.2, zero := r.2.2.1 })

/-- `n` bytes no rule states a value for. -/
def State.freeBytes (s : State) (n : Nat) : State × Bytes :=
  (s.draw n, (List.range n).map (fun i => BitVec.ofNat 8 (Config.freeNat (s.free + i))))

/-- A range of channel bytes of a page record that a unit covers. -/
def State.takePart (s : State) (gal core addr lo hi start len : Nat) : State × Got :=
  -- the unit's bytes [lo, hi) of a record, of which [start, start + len) stand at `addr`
  let a := max lo start
  let b := min hi (start + len)
  if b ≤ a then (s, { data := [] }) else s.takeChan gal core (addr + (a - start)) (b - a) rdDma

/-- One unit of a gather: bytes [lo, lo + n) of a page record whose page was resolved to `place` (R192, R279). A page that was gone
when the walk reached it has no stated bytes. -/
def State.takeGather (s : State) (x : DmaOp) (g : GatherRec) (place : Option (Nat × Nat)) (lo n : Nat) : State × Got :=
  match place with
  | none => let f := s.freeBytes n; (f.1, { data := f.2 })
  | some p =>
    let kr := keyBytes x.layout.1 x.layout.2.1
    let hd := x.layout.2.1
    let a := s.takePart x.op.gal p.1 (s.kvAddr p.2 + kr * g.first) lo (lo + n) 0 (kr * g.n)
    let b := a.1.takePart x.op.gal p.1 (s.kvAddr p.2 + 8192 + kr * g.first) lo (lo + n) (kr * g.n) (kr * g.n)
    let c := b.1.takePart x.op.gal p.1 (s.scAddr p.2 + 2 * hd * g.first) lo (lo + n) (2 * kr * g.n) (2 * hd * g.n)
    (c.1, { data := slice (a.2.data ++ b.2.data ++ c.2.data) 0 n, sts := a.2.sts ++ b.2.sts ++ c.2.sts })

/-- Bytes of a page record that a unit of a gather reads: its bytes without the padding (R279). -/
def DmaOp.gatherRead (x : DmaOp) (g : GatherRec) (lo n : Nat) : Nat :=
  min n (g.n * (2 * keyBytes x.layout.1 x.layout.2.1 + 2 * x.layout.2.1) - lo)

/-- Draw page records in walk order, up to 16 of them on distinct cores, each page resolved as the walk reaches it (R192, R278). -/
def State.drawRecords (s : State) (recs : List GatherRec) : Nat → DmaOp → DmaOp
  | 0, x => x
  | fuel + 1, x =>
    match recs[x.drawn]? with
    | none => x
    | some g =>
      let page := ((s.kvMap (fld x.op.d 8 14 0)).rows[g.row]?).bind (fun r => r.pages[g.slot]?)
      let place := page.map (fun n => ((s.page n).core, (s.page n).frame))
      if 16 ≤ x.records.length || x.records.any (fun r => r.place.map Prod.fst == place.map Prod.fst) then x
      else s.drawRecords recs fuel { x with drawn := x.drawn + 1, records := x.records ++ [{ ix := x.drawn, place := place }] }

/-! ### T24 conversion (R282 to R284) -/

/-- Code of a trit (R29). -/
def tritCode (t : Int) : Nat := if t = 1 then 1 else if t = -1 then 3 else 0

/-- The 7-bit group of four trits, or none for three or four non-zero ones (R284). -/
def t24Encode (t : List Int) : Option Nat :=
  let at_ (i : Nat) : Nat := tritCode (t.getD i 0)
  let g (pair a b : Nat) : Option Nat := some (pair + a * 8 + b * 32)
  match positions 4 (fun i => t.getD i 0 != 0) with
  | [] => some 0
  | [0] => g 0 (at_ 0) 0
  | [1] => g 0 0 (at_ 1)
  | [2] => g 1 0 (at_ 2)
  | [3] => g 2 0 (at_ 3)
  | [0, 1] => g 0 (at_ 0) (at_ 1)
  | [0, 2] => g 1 (at_ 0) (at_ 2)
  | [0, 3] => g 2 (at_ 0) (at_ 3)
  | [1, 2] => g 3 (at_ 1) (at_ 2)
  | [1, 3] => g 4 (at_ 1) (at_ 3)
  | [2, 3] => g 5 (at_ 2) (at_ 3)
  | _ => none

/-- A conversion unit's groups of four. -/
def groupsOf (t : List Int) : List (Option Nat) := (runsOf 4 t.length t).map t24Encode

/-- Bytes of a conversion unit's groups: eight groups fill 7 B (R29, R283). -/
def t24Bytes (gs : List Nat) : Bytes :=
  ((runsOf 8 gs.length gs).map (fun l => toLE 7 (l.foldr (fun g acc => g + 128 * acc) 0))).flatten

/-- The source bytes of conversion unit `u`: its offset from SRC, its length, the first trit within it and its trits. -/
def t24Source (d : Line64) (u : Nat) : Nat × Nat × Nat × Nat :=
  let row := u / t24PerRow d
  let k0 := 16384 * (u % t24PerRow d)
  let n := min 16384 (t24K d - k0)
  (row * fld d 44 31 0 + k0 / 5, (k0 + n - 1) / 5 - k0 / 5 + 1, k0 % 5, n)

/-- Offset from DEST of conversion unit `u` (R283). -/
def t24Dest (d : Line64) (u : Nat) : Nat :=
  8 * fld d 48 15 0 * (u / t24PerRow d) + 7 * (16384 * (u % t24PerRow d) / 32)

/-- End of the part of an access through an endpoint that begins at `pos`, `n` bytes at most: a multiple of 4 KiB of its offset or a
panel boundary of a device address (R336). -/
def Ep.part (e : Ep) (pos n : Nat) : Nat :=
  if e.device then min n (min (nextMul pos 4096 - pos) (nextMul (e.addr + pos) 262144 - (e.addr + pos))) else n

/-- A source read in the parts of R336. -/
def State.takeLong (s : State) (gal : Nat) (e : Ep) (chan reader : Nat) : Nat → Nat → Nat → Bytes → State × Got
  | 0, _, _, _ => (s, { data := [] })
  | fuel + 1, pos, n, data =>
    let step := e.part pos n
    let r := s.takeEp gal e chan pos step reader data
    if n ≤ step then r
    else
      let rest := if s.srcOutside gal e pos then data.drop step else data
      let t := State.takeLong r.1 gal e chan reader fuel (pos + step) (n - step) rest
      (t.1, { data := r.2.data ++ t.2.data, zero := r.2.zero ++ t.2.zero.map (fun z => z + step), sts := r.2.sts ++ t.2.sts })

/-- Parts R336 may cut `n` bytes into. -/
def partFuel (n : Nat) : Nat := n / 4096 + n / 262144 + 4

/-! ### DMA_UNIT_READ_DONE -/

/-- Take the bytes of a unit in: staged for the write engine, with what faults left behind (R268, R286). -/
def DmaOp.stage (x : DmaOp) (pos n : Nat) (g : Got) : DmaOp :=
  { x with
    begun := true
    rd := x.rd + n
    staged := x.staged ++ [{ ofs := pos, data := g.data }]
    status := x.status.max (worst g.sts)
    zeroAt := match x.zeroAt, g.zero with
      | some z, _ => some z
      | none, [] => none
      | none, z :: _ => some (pos + z) }

/-- COMPARE of one unit: stops at a fault, or at the first difference (R275, R286). -/
def DmaOp.compareUnit (x : DmaOp) (pos next : Nat) (a b : Got) : DmaOp :=
  let st := (worst (a.sts ++ b.sts))
  let y := { x with begun := true, rd := next, status := x.status.max st }
  if st != .ok then { y with noMore := true }
  else match positions (next - pos) (fun i => a.data.getD i 0 != b.data.getD i 0) with
    | [] => y
    | i :: _ => { y with noMore := true, result := BitVec.ofNat 64 (2 ^ 32 + pos + i) }

/-- T24 conversion of one unit's source (R282, R283). -/
def DmaOp.convertUnit (x : DmaOp) (u : Nat) (g : Got) : DmaOp :=
  let src := t24Source x.op.d u
  let bytes := g.data.map (fun b => t16Byte b.toNat)
  let trits := (((bytes.map Prod.fst).flatten).drop src.2.2.1).take src.2.2.2
  let st := (worst (statusIf (bytes.any (fun b => !b.2)) .codeRange :: g.sts))
  let y := { x with begun := true, rd := u + 1, status := x.status.max st }
  let gs := groupsOf trits
  match positions gs.length (fun i => (gs.getD i (some 0)).isNone) with
  | [] => { y with staged := y.staged ++ [{ ofs := u, data := t24Bytes (gs.map (fun v => v.getD 0)) }] }
  | i :: _ => { y with noMore := true, status := y.status.max .sparseDensity
                       result := BitVec.ofNat 64 (2 ^ 63 + i * 2 ^ 32) }

/-- Read one unit of a GATHER: of a page record in flight, whichever the engine has read first, a free choice (R268, R278). -/
def State.gatherUnit (s : State) (x : DmaOp) : State :=
  let recs := s.gatherOf x.op
  let y := s.drawRecords recs 16 x
  match s.pick y.records with
  | (s1, none) => s1
  | (s1, some r) =>
    let g := recs.getD r.ix { row := 0, slot := 0, first := 0, n := 0, ofs := 0, len := 0 }
    let n := min (nextMul r.rd 4096) g.len - r.rd
    let s2 := match r.place with
      | none => s1
      | some p => s1.enterRuns x.op.charged false [(p.1, s.kvAddr p.2, n)]
    let t := s2.takeGather x g r.place r.rd n
    let left := y.records.filterMap (fun q =>
      if q.ix != r.ix then some q else if g.len ≤ r.rd + n then none else some { q with rd := r.rd + n })
    (t.1.count .dmaBytesRd x.op.gal (x.gatherRead g r.rd n)).updDma x.op.id (fun z =>
      DmaOp.stage { z with drawn := y.drawn, records := left } (g.ofs + r.rd) n t.2)

/-- Offset from its source and length of the unit an operation reads next. -/
def State.unitSource (s : State) (x : DmaOp) : Nat × Nat :=
  if x.op.opcode = opT24 then let t := t24Source x.op.d x.rd; (t.1, t.2.1) else (x.rd, s.unitEnd x.op x.rd - x.rd)

/-- Read one unit of a DMA operation. -/
def State.dmaRead (s : State) (x : DmaOp) (c : Nat) (data : Bytes) : State :=
  let o := x.op
  let pos := x.rd
  let next := s.unitEnd o pos
  let n := next - pos
  let a := Ep.of o.d 8
  let b := Ep.of o.d 24
  if o.opcode = opGather then s.gatherUnit x
  else if o.opcode = opCompare then
    let ra := s.takeEp o.gal a c pos n rdDma data
    let rb := ra.1.takeEp o.gal b c pos n rdDma (if s.srcOutside o.gal a pos then data.drop n else data)
    (rb.1.count .dmaBytesRd o.gal (2 * n)).updDma o.id (fun y => y.compareUnit pos next ra.2 rb.2)
  else if o.opcode = opT24 then
    let src := t24Source o.d pos
    let r := s.takeLong o.gal a c rdDma (partFuel src.2.1) src.1 src.2.1 data
    (r.1.count .dmaBytesRd o.gal src.2.1).updDma o.id (fun y => y.convertUnit pos r.2)
  else
    let r := if o.opcode = opStrided || o.opcode = opTranspose then s.takeSpread o pos n
      else s.takeEp o.gal a c pos n rdDma data
    (r.1.count .dmaBytesRd o.gal n).updDma o.id (fun y => y.stage pos n r.2)

/-- Whether a DMA operation of R273 may read its next unit, quarantined panels apart. -/
def State.wantsRead (s : State) (x : DmaOp) : Bool :=
  let o := x.op
  decide (opCopy ≤ o.opcode) && decide (o.opcode ≤ opT24) && o.opcode != opFill && x.issued && !x.noMore &&
    decide (x.staged.length < 24) && decide (x.rd < o.dmaTotal (s.gatherOf o))

/-- Whether it waits for a quarantined panel (R286, R339). -/
def State.readShut (s : State) (x : DmaOp) : Bool :=
  let u := s.unitSource x
  (x.op.dmaEps.filter (fun p => !p.2)).any (fun p => s.srcWaits x.op.gal (Ep.of x.op.d p.1) u.1 u.2)

/-- The channel runs a unit is read from: those of its sources, or of the page records a GATHER has in flight. -/
def State.readRuns (s : State) (x : DmaOp) : List (Nat × Nat × Nat) :=
  if x.op.opcode = opGather then
    (s.drawRecords (s.gatherOf x.op) 16 x).records.filterMap (fun r => r.place.map (fun p => (p.1, s.kvAddr p.2, 0)))
  else
    let u := s.unitSource x
    (x.op.dmaEps.filter (fun p => !p.2)).flatMap (fun p => s.epRuns x.op.gal (Ep.of x.op.d p.1) u.1 u.2)

/-- Whether a DMA operation of R273 may read its next unit. -/
def State.mayRead (s : State) (x : DmaOp) : Bool :=
  s.wantsRead x && !s.readShut x && !s.runsShut x.op.charged (s.readRuns x)

/-- Note the beat in which an operation began, with its START record (R179, R458). -/
def State.noteBegun (s : State) (id : Nat) : State :=
  match s.dma.ops.find? (fun x => x.op.id == id && x.begun && x.began.isNone) with
  | none => s
  | some x => (s.updDma id (fun y => { y with began := some s.beat })).opEvent (srcHub hubDma) 2 x.op .ok

/-- The unit that a channel's operation of R273 reads next stands in its slice (R268). `data` holds the bytes that came
from outside the device, a COMPARE's first operand first. -/
def State.dmaUnitRead (s : State) (x : DmaOp) (channel : Nat) (data : Bytes) : State :=
  let s0 := if x.op.opcode = opGather then s else s.enterRuns x.op.charged false (s.readRuns x)
  let u := s.unitSource x
  let outside := (x.op.dmaEps.filter (fun p => !p.2)).any (fun p => (Ep.of x.op.d p.1).host && u.2 != 0)
  let s1 := if outside then s0.waitFree (srcHub hubDma) 15 x.op.identity none else s0
  (((s1.dmaRead x channel data).noteBegun x.op.id).waitEnd (srcHub hubDma) 11 x.op.identity none).waitEnd (srcHub hubDma) 8
    x.op.identity none

/-! ### Engines (R270) -/

/-- Of the channels of one class, the one after the channel served last, in round robin. -/
def roundRobin (last : Option Nat) (l : List Nat) : Option Nat :=
  match last.bind (fun c => minBy id (l.filter (fun x => decide (c < x)))) with
  | some x => some x
  | none => minBy id l

/-- The channel an engine that is free serves next among those with a unit ready (R270). -/
def State.engineNext (s : State) (last : Tbl Nat) (l : List DmaOp) : State × Option DmaOp :=
  let heads := (List.range 4).filterMap (fun c =>
    let ones := l.filter (fun x => x.op.cls == c)
    (roundRobin (Tbl.find last c) (ones.filterMap (fun x => x.chan))).bind (fun ch => ones.find? (fun x => x.chan == some ch)))
  s.classPick (fun x => x.op.cls) heads

/-- Free read engines start units: `ready` are the operations with a unit to read (R270). -/
def State.readEngines (s : State) (ready : State → DmaOp → Bool) : Nat → State
  | 0 => s
  | fuel + 1 =>
    let busy := s.dma.rdEng.filter (fun c => s.dma.ops.any (fun x => x.chan == some c))
    let s0 : State := { s with dma := { s.dma with rdEng := busy } }
    if 4 ≤ busy.length then s0
    else match s0.engineNext s0.dma.lastRd (s0.dma.ops.filter (fun x =>
        x.chan.any (fun c => !busy.contains c) && ready s0 x)) with
      | (_, none) => s0
      | (s1, some x) =>
        let c := x.chan.getD 0
        State.readEngines { s1 with dma := { s1.dma with
          rdEng := busy ++ [c], lastRd := Tbl.insert s1.dma.lastRd x.op.cls c } } ready fuel

/-- Free write engines start units (R270). -/
def State.writeEngines (s : State) (ready : State → DmaOp → Bool) : Nat → State
  | 0 => s
  | fuel + 1 =>
    let busy := s.dma.wrEng.filter (fun c => s.dma.ops.any (fun x => x.chan == some c))
    let s0 : State := { s with dma := { s.dma with wrEng := busy } }
    if 4 ≤ busy.length then s0
    else match s0.engineNext s0.dma.lastWr (s0.dma.ops.filter (fun x =>
        x.chan.any (fun c => !busy.contains c) && ready s0 x)) with
      | (_, none) => s0
      | (s1, some x) =>
        let c := x.chan.getD 0
        State.writeEngines { s1 with dma := { s1.dma with
          wrEng := busy ++ [c], lastWr := Tbl.insert s1.dma.lastWr x.op.cls c } } ready fuel

/-- An engine has done with a channel's unit. -/
def State.readFree (s : State) (c : Nat) : State := { s with dma := { s.dma with rdEng := s.dma.rdEng.erase c } }
def State.writeFree (s : State) (c : Nat) : State := { s with dma := { s.dma with wrEng := s.dma.wrEng.erase c } }

/-! ### DMA_UNIT_WRITE_DONE -/

/-- Whether a destination range waits: for a panel that is moving, or behind a write that came to the panel earlier (R337). -/
def State.dstWaits (s : State) (gal : Nat) (e : Ep) (pos n key : Nat) : Bool :=
  (s.rangePanels gal e pos n).any (fun p => (s.panel p.1 p.2).busy.isSome ||
    (s.tiers.writeQ.find? (fun q => q.1 == p.1 && q.2.1 == p.2)).any (fun q => q.2.2 != key))

/-- A write that waits takes its place behind the others of its panels (R337). -/
def State.queueWrite (s : State) (gal : Nat) (e : Ep) (pos n key : Nat) : State :=
  { s with tiers := { s.tiers with writeQ := (s.rangePanels gal e pos n).foldl (fun l p =>
      if l.contains (p.1, p.2, key) then l else l ++ [(p.1, p.2, key)]) s.tiers.writeQ } }
def State.leaveQueue (s : State) (key : Nat) : State :=
  { s with tiers := { s.tiers with writeQ := s.tiers.writeQ.filter (fun q => q.2.2 != key) } }

/-- Write bytes at an offset of a destination endpoint: the statuses that narrow writes over lost data give (R84,
R298). -/
def State.putEp (s : State) (gal : Nat) (e : Ep) (pos : Nat) (b : Bytes) : State × Status :=
  let a := e.addr + pos
  if e.host then (s.hostWrite gal a b, .ok)
  else if e.channel then
    let r := s.writeChan e.core a b
    (r.1, statusIf r.2 .arrayUe)
  else if e.scratch then
    let r := s.writeScratch e.core (64 * (s.href e.core e.href).base + a) b
    (r.1, statusIf r.2 .arrayUe)
  else if e.hall then
    let r := s.putHall a b
    (r.1, statusIf r.2 .arrayUe)
  else match s.panelAt gal a with
    | none => (s, .ok)
    | some p =>
      match s.locate p.1 p.2 with
      | .t0 h =>
        let r := s.putHall (h + a % 262144) b
        (r.1, statusIf r.2 .arrayUe)
      | .t1 c x =>
        let r := s.writeChan c (x + a % 262144) b
        (r.1, statusIf r.2 .arrayUe)
      | .t2 _ _ => (s, .ok)

/-- Write bytes in the parts of R336. -/
def State.putLong (s : State) (gal : Nat) (e : Ep) : Nat → Nat → Bytes → State × Status
  | 0, _, _ => (s, .ok)
  | fuel + 1, pos, b =>
    let step := e.part pos b.length
    let r := s.putEp gal e pos (b.take step)
    if b.length ≤ step then r
    else
      let t := State.putLong r.1 gal e fuel (pos + step) (b.drop step)
      (t.1, r.2.max t.2)

/-- Write `b` at an offset of a handle's range through the arrival converter (R85, R86): a whole vector lands in operand form. DESIGN
CHOICE: how many positions bytes stand for that are no whole vector is not stated; they take the operand form of the next whole
vector, of which the header is as written and the rest free (log 71). -/
def State.putVector (s : State) (gal : Nat) (e : Ep) (pos : Nat) (b : Bytes) : State × Status :=
  let h := s.href e.core e.href
  let n := vectorBlocks h.fmt b.length
  if vectorWhole h.fmt b.length then
    let v := convertVector h.fmt n (4 * elemBits h.fmt * n) b
    let s1 := (s.count .nonfiniteIn e.core v.2.1).count .scaleClamp 0 v.2.2
    s1.putEp gal e pos v.1
  else
    let f := s.freeBytes (h.needs b.length - 256)
    f.1.putEp gal e pos (slice (b ++ List.replicate 256 0) 0 (min 256 (h.needs b.length)) ++ f.2)

/-- Write the next unit of an operation to its destination, through the arrival converter where the handle calls for
it. -/
def State.dmaPut (s : State) (x : DmaOp) (pos : Nat) (b : Bytes) : State :=
  let o := x.op
  let e := o.dmaDst
  let total := o.dmaDstLen (s.gatherOf o)
  let conv := o.opcode != opT24 && e.scratch && (s.href e.core e.href).converts
  let at_ := if o.opcode = opT24 then t24Dest o.d pos else pos
  let next := if o.opcode = opT24 then pos + 1 else pos + b.length
  let held := if conv then x.conv ++ [{ ofs := pos, data := b }] else []
  let whole := ((sortBy (fun (u : Staged) => u.ofs) held).map (fun u => u.data)).flatten
  let r := if conv then (if total ≤ whole.length then s.putVector o.gal e 0 whole else (s, .ok))
    else s.putLong o.gal e (partFuel b.length) at_ b
  let s1 := (r.1.count .dmaBytesWr o.gal b.length).count .dmaT24Units o.gal (if o.opcode = opT24 then 1 else 0)
  s1.updDma o.id (fun y => { y with begun := true, wr := next, conv := held, bytes := y.bytes + b.length
                                    staged := y.staged.drop 1, status := y.status.max r.2 })

/-- Bytes FILL writes from a position on (R275). -/
def fillBytes (d : Line64) (pos n : Nat) : Bytes :=
  (List.range n).map (fun i => BitVec.ofNat 8 (fld d (48 + (pos + i) % 8) 7 0))

/-- Bytes of the next unit an operation writes, with its position, if one is ready. -/
def State.nextPut (s : State) (x : DmaOp) : Option (Nat × Bytes) :=
  if x.op.opcode = opFill then
    if x.wr < x.op.dmaTotal [] then some (x.wr, fillBytes x.op.d x.wr (s.unitEnd x.op x.wr - x.wr)) else none
  else x.staged.head?.map (fun u => (u.ofs, u.data))

/-- Whether a channel's operation has a unit for a write engine. -/
def State.wantsWrite (s : State) (x : DmaOp) : Bool :=
  (decide (opCopy ≤ x.op.opcode) && decide (x.op.opcode ≤ opT24) && x.op.opcode != opCompare || x.op.opcode == 0x73) &&
    x.issued && (s.nextPut x).isSome

/-- Offset from its destination and length of the unit an operation writes next. -/
def State.unitDest (s : State) (x : DmaOp) : Nat × Nat :=
  match s.nextPut x with
  | none => (0, 0)
  | some u => (if x.op.opcode = opT24 then t24Dest x.op.d u.1 else u.1, u.2.length)

/-- Whether that unit waits for a moving panel (R337). -/
def State.writeShut (s : State) (x : DmaOp) : Bool :=
  let u := s.unitDest x
  s.dstWaits x.op.gal x.op.dmaDst u.1 u.2 (2 * x.op.id)

/-- The channel runs that unit is written to. -/
def State.writeRuns (s : State) (x : DmaOp) : List (Nat × Nat × Nat) :=
  let u := s.unitDest x
  s.epRuns x.op.gal x.op.dmaDst u.1 u.2

/-- Whether a write engine may take the unit up. -/
def State.unitWritable (s : State) (x : DmaOp) : Bool :=
  s.wantsWrite x && !s.writeShut x && !s.runsShut x.op.charged (s.writeRuns x)

/-- A unit that waits for a moving panel waits in arrival order (R337, R460). -/
def State.writeWaits (s : State) (x : DmaOp) : State :=
  let u := s.unitDest x
  (s.queueWrite x.op.gal x.op.dmaDst u.1 u.2 (2 * x.op.id)).waitBegin (srcHub hubDma) 10 x.op.identity

/-- Write the unit a channel's operation writes next. -/
def State.dmaUnitWrite (s : State) (x : DmaOp) : State :=
  match s.nextPut x with
  | none => s
  | some u =>
    let s1 := s.enterRuns x.op.charged true (s.writeRuns x)
    ((((s1.dmaPut x u.1 u.2).noteBegun x.op.id).leaveQueue (2 * x.op.id)).waitEnd (srcHub hubDma) 10 x.op.identity
      (some (.migWait, x.op.gal))).waitEnd (srcHub hubDma) 8 x.op.identity none

/-- DMA_UNIT_WRITE_DONE: the unit that the channel's operation writes next stands at its destination (R268), if a write engine took
it up (R270). -/
def execDmaUnitWriteDone (channel : Fin 256) (ups : List Upset) (s : State) : Host.Outcome State Fault Refusal :=
  let s := s.upsets ups
  match s.dma.ops.find? (fun x => x.chan == some channel.val) with
  | none => .next s
  | some x =>
    if !s.running || !s.wantsWrite x then .next s
    else if s.writeShut x then .next (s.writeWaits x)
    else
      let s0 := s.runsHold (srcHub hubDma) x.op.identity x.op.charged (s.writeRuns x)
      let s1 := s0.writeEngines State.unitWritable 4
      if s1.dma.wrEng.contains channel.val then .next ((s1.dmaUnitWrite x).writeFree channel.val) else .next s1

/-! ### Completion and DMA_STOP -/

/-- Whether an operation of R273 has done all it will do. -/
def State.dmaEnded (s : State) (x : DmaOp) : Bool :=
  let o := x.op
  let total := o.dmaTotal (s.gatherOf o)
  decide (opCopy ≤ o.opcode) && decide (o.opcode ≤ opT24) && x.issued && (
    if o.opcode = opFill then decide (total ≤ x.wr)
    else x.staged.isEmpty && (x.noMore || decide (total ≤ x.rd)))

/-- RESULT of an operation (R275, R279, R285). -/
def DmaOp.answer (x : DmaOp) : Nat :=
  match x.op.opcode with
  | 0x20 | 0x21 => x.bytes % 2 ^ 32 + (x.zeroAt.getD 0xFFFFFFFF) % 2 ^ 32 * 2 ^ 32
  | 0x22 => x.result.toNat
  | 0x23 => x.bytes % 2 ^ 32
  | 0x26 => x.wr % 2 ^ 32 + x.result.toNat
  | _ => 0

/-- End an operation: it leaves, its record is written, and DMA_STOPs that waited for it go on. -/
def State.dmaEnd (s : State) (x : DmaOp) : State :=
  (((s.dmaLeave x.op).complete (srcHub hubDma) x.op { st := x.status, result := x.answer })).settleStops x.op.id

/-- DMA_OP_COMPLETE: the last write is visible and the completion record is written (R290). -/
def execDmaOpComplete (channel : Fin 256) (s : State) : Host.Outcome State Fault Refusal :=
  match s.dma.ops.find? (fun x => x.chan == some channel.val) with
  | none => .next s
  | some x => if s.running && s.dmaEnded x then .next (s.dmaEnd x) else .next s

/-- Checks of DMA_STOP (R287). -/
def dmaStopChecks (_ : State) (o : Op) : List Bad :=
  let sc := fld o.d 8 1 0
  o.flagsZero 0 ++ needBits o.d 8 7 2 ++ needZero o.d [9] ++ needOk (sc != 3) 8 ++ needBits o.d 10 15 12 ++
  (if sc = 2 then needBits o.d 10 11 0 else []) ++ (if sc = 0 then [] else needZero o.d (byteRange 12 15)) ++
  needZero o.d (byteRange 16 59) ++ need (decide (sc < 2) && fld o.d 10 11 0 / 64 != o.gal) .badHandle 10

/-- Whether an operation stands in the scope of a DMA_STOP (R288). -/
def DmaOp.inScope (x : DmaOp) (o : Op) : Bool :=
  match x.op.org with
  | .step _ => false
  | .ring r i => decide (opCopy ≤ x.op.opcode) && decide (x.op.opcode ≤ opT24) && x.op.gal == o.gal &&
    (match fld o.d 8 1 0 with
      | 0 => r.val == fld o.d 10 11 0 && i.toNat == fld o.d 12 31 0
      | 1 => r.val == fld o.d 10 11 0
      | _ => true)

/-- Acceptance of a DMA_STOP: operations not yet begun complete with STOPPED, the others are waited for (R288). -/
def State.dmaStopStart (s : State) (o : Op) : State :=
  let scope := s.dma.ops.filter (fun x => x.inScope o)
  let fresh := scope.filter (fun x => !x.begun)
  let run := (scope.filter (fun x => x.begun)).map (fun x => x.op.id)
  let s1 := fresh.foldl (fun s x =>
    ((((s.dmaLeave x.op).count .dmaStopped x.op.gal 1).complete (srcHub hubDma) x.op { st := .stopped })).settleStops
      x.op.id) s
  if run.isEmpty then s1.complete (srcHub hubDma) o { st := .ok, result := fresh.length }
  else { s1 with dma := { s1.dma with stops := s1.dma.stops ++ [{ op := o, scope := run, count := fresh.length }] } }

/-- DMA_STOP (R287, R288). -/
def State.acceptDmaStop (s : State) (o : Origin) (d : Line64) : State :=
  s.accept (srcHub hubDma) o d 0x27 dmaStopChecks State.dmaStopStart
def execDmaStop (o : Origin) (d : Line64) (s : State) : Host.Outcome State Fault Refusal := .next (s.acceptDmaStop o d)

/-- A failed read of host memory by a channel's operation: no further unit is read, and units written stand (R262,
R286). A window operation ends its reading in the same way. -/
def State.dmaHostFail (s : State) (chan : Nat) : State :=
  match s.dma.ops.find? (fun x => x.chan == some chan) with
  | none => s
  | some x => s.updDma x.op.id (fun y => { y with begun := true, noMore := true, status := y.status.max .internal })

end Sys2Proof.Machine
end

