-- ==== Sys2Proof/Machine/Finish.lean ====
section
/-! DEFINITION. The finishers' arithmetic: finisher operations, scale blocks and candidate lists (R141 to R143). -/

namespace Sys2Proof.Machine

/-- f of ACT and GLU on an FP32 word (R141): identity and ReLU are exact, the others lie within 2⁻¹⁶ of the exact function. -/
def actApply (farg : Nat) (w : Word) : Word :=
  match farg with
  | 0 => w
  | 1 => match ofF32 w with
    | .num true _ _ => 0
    | .inf true => 0
    | _ => w
  | n => withinOf 16 (actExact n (ofF32 w)) (Config.actFn n w)

/-- Whether FOP, OFMT and FARG are ones R141 allows; GLU also takes an even ROWS and ROWID. -/
def fopValid (fop ofmt farg rows rowid : Nat) : Bool :=
  let narrow := [0x04, 0x05, 0x07, 0x08, 0x09].contains ofmt
  match fop with
  | 0 => ofmt == 0x0C && farg == 0
  | 1 => ofmt == 0x0D && farg == 0
  | 2 => narrow && farg == 0
  | 3 => (narrow || ofmt == 0x0C) && decide (farg ≤ 4)
  | 4 => (narrow || ofmt == 0x0C) && decide (farg ≤ 4) && rows % 2 == 0 && rowid % 2 == 0
  | 5 => ofmt == 0x0C && farg == 0
  | 6 => ofmt == 0x0D && decide (1 ≤ farg % 128) && decide (farg % 128 ≤ 64)
  | 7 => ofmt == 0x0A && farg == 0
  | _ => false

/-- Rank of a candidate before another: the larger value first, the lower row on a tie (R143). NaN ranks last. -/
def candBefore (a b : Word × Nat) : Bool :=
  let x := ofF32 a.1
  let y := ofF32 b.1
  if FVal.lt y x then true
  else if FVal.lt x y then false
  else if x = .nan && y != .nan then false
  else if y = .nan && x != .nan then true
  else decide (a.2 < b.2)

/-- Put a candidate into its place of a ranked list. -/
def candInsert (c : Word × Nat) : List (Word × Nat) → List (Word × Nat)
  | [] => [c]
  | a :: t => if candBefore c a then c :: a :: t else a :: candInsert c t

/-- Merge candidates into a ranked list of at most `k` (R143). -/
def candMerge (k : Nat) (l cs : List (Word × Nat)) : List (Word × Nat) :=
  (cs.foldl (fun acc c => candInsert c acc) l).take k

/-- A candidate's 8 B record: FP32 value, then its global row (R143). -/
def candBytes (c : Word × Nat) : Bytes := toLE 4 c.1.toNat ++ toLE 4 c.2

/-- Hall-buffer places of R142: element (lane, row) and the scale of a block, the rows and blocks counted from the output's
first row. A row below that one lies below DEST. -/
def elemPos (dest epitch lane : Nat) (rel : Int) (width : Nat) : Int :=
  ((dest + 64 * epitch * lane : Nat) : Int) + rel * width / 8
def scalePos (dest epitch spitch lanes lane : Nat) (block : Int) : Int :=
  ((dest + 64 * epitch * lanes + 8 * spitch * lane : Nat) : Int) + block

/-- First output row of a tile, `rel` rows behind its output's first, and the rows it writes (R141, R142). -/
def outRow (fop : Nat) (rel : Int) : Int := if fop = 4 then rel / 2 else rel
def outRows (fop rows : Nat) : Nat := if fop = 4 then rows / 2 else rows

/-- Begin and end of a tile's output (R142): its elements, and its scales for a scaled format; TOPK writes `k` records of 8 B
for each lane. -/
def outputSpan (fop ofmt farg dest epitch spitch lanes : Nat) (rel : Int) (rows : Nat) : Int × Int :=
  let first := outRow fop rel
  let last := first + outRows fop rows
  let w := elemBits ofmt
  if fop = 6 then (dest, elemPos dest epitch (lanes - 1) 0 8 + 8 * (farg % 128 : Nat))
  else
    let b := elemPos dest epitch 0 first w
    let e := elemPos dest epitch (lanes - 1) (last * w / 8 + (if last * w % 8 = 0 then 0 else 1)) 8
    if scaledFmt ofmt then
      (min b (scalePos dest epitch spitch lanes 0 (first / 32)),
        max e (scalePos dest epitch spitch lanes (lanes - 1) ((last - 1) / 32) + 1))
    else (b, e)

end Sys2Proof.Machine
end

