-- ==== Sys2Proof/Machine/Tiles.lean ====
section
/-! DEFINITION. Matrix tiles (chapters 3 to 5): TILE and TILE_BS with their checks, the core's issue point, chunk loads,
the tile's end, and the drain of a bank through its finisher. -/

namespace Sys2Proof.Machine

/-! ### Fields of a tile (R118, R135) -/

def opTile : Nat := 0x62
def opTileBs : Nat := 0x63
def opAttn : Nat := 0x64

/-- Whether an operation is a tile or an ATTN, the operations of a core's sequencer. -/
def Op.tileLike (o : Op) : Bool := o.opcode == opTile || o.opcode == opTileBs || o.opcode == opAttn
def Op.bs (o : Op) : Bool := o.opcode == opTileBs

def Op.core (o : Op) : Nat := fld o.d 8 10 0
def Op.wfmt (o : Op) : Nat := fld o.d 10 4 0
def Op.btn (o : Op) : Nat := fld o.d 10 7 5
def Op.afmt (o : Op) : Nat := fld o.d 11 4 0
def Op.wsrc (o : Op) : Bool := fbit o.d 11 5
def Op.chain (o : Op) : Nat := fld o.d 11 7 6
def Op.ahdl (o : Op) : Nat := fld o.d 12 15 0
def Op.mhdl (o : Op) : Nat := fld o.d 14 15 0
def Op.whdl (o : Op) : Nat := fld o.d 16 15 0
def Op.fop (o : Op) : Nat := fld o.d 24 3 0
def Op.ofmt (o : Op) : Nat := fld o.d 25 4 0
def Op.farg (o : Op) : Nat := fld o.d 26 7 0
def Op.chid (o : Op) : Nat := fld o.d 27 7 0
def Op.dest (o : Op) : Nat := fld o.d 28 31 0
def Op.rowid (o : Op) : Nat := fld o.d 32 31 0
def Op.epitch (o : Op) : Nat := fld o.d 36 15 0
def Op.spitch (o : Op) : Nat := fld o.d 38 15 0
def Op.lhdl (o : Op) : Nat := fld o.d 56 15 0
/-- Rows of a tile; 64 × RBLKS for a block-sparse one. -/
def Op.rows (o : Op) : Nat := if o.bs then 64 * fld o.d 18 2 0 else fld o.d 18 8 0
/-- Held activation blocks and list entries of a block-sparse tile. -/
def Op.nact (o : Op) : Nat := if fld o.d 19 7 0 = 0 then 128 else fld o.d 19 7 0
def Op.nlist (o : Op) : Nat := fld o.d 22 12 0
/-- k0 and k1 of a tile (R120). -/
def Op.k0 (o : Op) : Nat := 32 * fld o.d 20 15 0
def Op.k1 (o : Op) : Nat := o.k0 + 32 * fld o.d 22 15 0
/-- Whether a tile continues or closes a chain, and whether it ends one. -/
def Op.joins (o : Op) : Bool := decide (2 ≤ o.chain)
def Op.closes (o : Op) : Bool := o.chain == 0 || o.chain == 3
/-- T24 sparse mode (R132). -/
def Op.sparse (o : Op) : Bool := !o.bs && o.wfmt == 2 && o.wsrc
/-- Whether a tile's format sends it to the annex (R122). -/
def Op.annexFmt (o : Op) : Bool := !o.bs && (decide (0x0B ≤ o.afmt) || o.wfmt == 2 && o.afmt == 6)
/-- Planes of a tile's weights. -/
def Op.planes (o : Op) : Nat := if !o.bs && o.wfmt == 3 then o.btn else 1

/-- Lanes of a vector in a core format; for the annex's own formats that of its vector, taken as the most it can be. -/
def tileLanes (afmt : Nat) : Nat := laneCount afmt

/-- Whether AFMT is one the array or the annex takes (R120, R135). -/
def Op.afmtOk (o : Op) : Bool := coreAct o.afmt || (!o.bs && decide (0x0B ≤ o.afmt) && decide (o.afmt ≤ 0x0D))

/-! ### Checks at acceptance (R120, R141, R447) -/

/-- Key of a lane group among output bases. -/
def Op.baseKey (o : Op) : Nat := match o.org with | .ring _ _ => 0 | .step g => g + 1

/-- g₀ of R142 for a tile: the ROWID of the first tile of its output, its own if it is that tile. -/
def State.outBase (s : State) (o : Op) : Nat :=
  match s.outBases.find? (fun b => b.1 == o.baseKey && b.2.1 == o.dest) with
  | some b => b.2.2
  | none => o.rowid

/-- Rows of a tile behind its output's first row. -/
def State.outRel (s : State) (o : Op) : Int := (o.rowid : Int) - (s.outBase o : Int)

/-- Enter an issued closing tile's ROWID as its output's first, if it is (R142). -/
def State.noteBase (s : State) (o : Op) : State :=
  if !o.closes || s.outBases.any (fun b => b.1 == o.baseKey && b.2.1 == o.dest) then s
  else { s with outBases := s.outBases ++ [(o.baseKey, o.dest, o.rowid)] }

/-- Begin and end of a tile's output in the hall buffer. -/
def State.tileSpan (s : State) (o : Op) (lanes : Nat) : Int × Int :=
  outputSpan o.fop o.ofmt o.farg o.dest o.epitch o.spitch lanes (s.outRel o) o.rows

/-- Whether a hall-buffer range lies in a gallery's hall window (R447). -/
def State.inHall (s : State) (g : Nat) (x : Int × Int) : Bool :=
  let b := 65536 * s.field .secHallB [g] 27 16
  decide ((b : Int) ≤ x.1) && decide (x.2 ≤ ((b + 65536 * s.field .secHallS [g] 12 0 : Nat) : Int))

/-- Refusals of a closing tile for where its output lies: past the hall buffer, or outside a virtual function's hall window
(R120, R447). -/
def State.spanChecks (s : State) (o : Op) (lanes : Nat) : List Bad :=
  if !o.closes then []
  else
    let x := s.tileSpan o lanes
    needOk (decide (0 ≤ x.1) && decide (x.2 ≤ 2 ^ 28)) 28 ++ needOk (!o.vf || s.inHall o.gal x) 28

/-- Checks of the finisher fields, common to TILE and TILE_BS. -/
def State.finChecks (s : State) (o : Op) : List Bad :=
  let lanes := tileLanes o.afmt
  needBits o.d 24 7 4 ++ needBits o.d 25 7 5 ++ needOk (decide (o.dest % 64 = 0)) 28 ++
  (if o.closes then
    needOk (fopValid o.fop o.ofmt o.farg o.rows o.rowid) 24 ++
    (if scaledFmt o.ofmt then [] else needBits o.d 38 15 0) ++
    s.spanChecks o lanes
  else needBits o.d 24 3 0 ++ needOk (fmtOk o.ofmt) 25)

/-- Checks of a plane reference in the descriptor or a plane table (R119, R120): `at_` its place. -/
def refChecks (r : PlaneRef) (o : Op) (at_ : Nat → Nat) : List Bad :=
  let t24 := !o.bs && o.wfmt == 2
  needOk (decide (r.slice % 8 = 0) && (!t24 || r.slice == 0) && (o.wsrc || decide (r.slice < 2 ^ 28))) (at_ 0) ++
  (if o.bs then [] else
    needOk (decide (r.first % 8 = 0) && decide (r.slice ≤ r.first) && (o.wsrc || decide (r.first < 2 ^ 28))) (at_ 4)) ++
  needOk (!t24 || r.seq == 0) (at_ 8) ++
  needOk (if t24 then decide (7 * (o.k1 - o.k0) ≤ 8 * 32 * r.stride) else r.stride == 0) (at_ 10)

/-- The plane reference at byte `o` of a run of bytes. -/
def planeRef (b : Bytes) (o : Nat) : PlaneRef :=
  { slice := ofLE (slice b o 4), first := ofLE (slice b (o + 4) 4), seq := ofLE (slice b (o + 8) 2)
    stride := ofLE (slice b (o + 10) 2) }

/-- Checks of a TILE at acceptance: all of R120 that its bytes alone decide. -/
def tileChecks (s : State) (o : Op) : List Bad :=
  let d := o.d
  let lanes := tileLanes o.afmt
  o.flagsZero 0 ++ needBits d 8 15 11 ++ needOk (decide (o.wfmt ≤ 3)) 10 ++
  needOk (if o.wfmt = 3 then decide (2 ≤ o.btn) && decide (o.btn ≤ 6) else o.btn == 0) 10 ++ needOk o.afmtOk 11 ++
  refForm d 12 ++ (if o.sparse then [] else refForm d 14) ++ (if o.wsrc then refForm d 16 else []) ++
  needBits d 18 15 9 ++ needOk (o.rows != 0 && decide (o.rows ≤ if lanes = 128 then 128 else 256)) 18 ++
  needOk (o.wfmt == 2 || decide (o.k0 % 16384 = 0)) 20 ++ needOk (decide (o.k0 < o.k1)) 22 ++
  needOk (o.wfmt != 3 || o.chain == 0) 11 ++ s.finChecks o ++
  (if o.wfmt = 3 then
    needOk (decide (fld d 40 31 0 % 64 = 0) && decide (fld d 40 31 0 + 16 * o.btn ≤ 2 ^ 28)) 40 ++
      needZero d (byteRange 44 55)
  else refChecks (planeRef (lineBytes d) 40) o (fun k => 40 + k) ++ needZero d (byteRange 52 55)) ++
  needZero d (byteRange 56 59)

/-- Checks of a TILE_BS at acceptance (R120, R135). -/
def tileBsChecks (s : State) (o : Op) : List Bad :=
  let d := o.d
  let rb := fld d 18 2 0
  o.flagsZero 0 ++ needBits d 8 15 11 ++ needOk (decide (o.wfmt ≤ 1)) 10 ++ needBits d 10 7 5 ++ needOk o.afmtOk 11 ++
  refForm d 12 ++ refForm d 14 ++ (if o.wsrc then refForm d 16 else []) ++ needBits d 18 7 3 ++
  needOk (rb != 0 && decide (rb ≤ if tileLanes o.afmt = 128 then 2 else 4)) 18 ++ needOk (decide (o.nact ≤ 128)) 19 ++
  needOk (fld d 20 15 0 != 0) 20 ++ needBits d 22 15 13 ++ needOk (o.nlist != 0 && decide (o.nlist ≤ 4096)) 22 ++
  s.finChecks o ++ refChecks (planeRef (lineBytes d) 40) o (fun k => 40 + k) ++ needZero d (byteRange 52 55) ++
  refForm d 56 ++ needZero d [58, 59]

/-- Acceptance of a tile: it waits at its core's issue point (R96). -/
def State.tileStart (s : State) (o : Op) : State :=
  let k := s.core o.core
  s.setCore o.core { k with waiting := k.waiting ++ [o] }

/-- TILE and TILE_BS. -/
def State.acceptTile (s : State) (o : Origin) (d : Line64) : State :=
  s.accept (srcCore (fld d 8 10 0)) o d opTile tileChecks State.tileStart
def State.acceptTileBs (s : State) (o : Origin) (d : Line64) : State :=
  s.accept (srcCore (fld d 8 10 0)) o d opTileBs tileBsChecks State.tileStart
def execTile (o : Origin) (d : Line64) (s : State) : Host.Outcome State Fault Refusal := .next (s.acceptTile o d)
def execTileBs (o : Origin) (d : Line64) (s : State) : Host.Outcome State Fault Refusal := .next (s.acceptTileBs o d)

/-! ### Reading weights and vectors -/

/-- One byte of a tile's weight source: the channel through the slice, or the scratchpad range WHDL, past whose end no
byte is stated. -/
def State.weightByte (s : State) (o : Op) (a : Nat) : Option Byte :=
  if o.wsrc then
    let h := s.href o.core o.whdl
    if h.size ≤ a then some (BitVec.ofNat 8 (Config.freeNat (s.free + a)))
    else some ((s.readScratch o.core (64 * h.base + a) 1).headD 0)
  else s.cacheByte o.core a

/-- The accessioned panels, object and number, that a range of a core's channel meets. -/
def State.panelsIn (s : State) (c a n : Nat) : List (Nat × Nat) :=
  if s.tiers.objs.isEmpty then []
  else (List.range (cdiv (n + a % 262144) 262144)).filterMap (fun i =>
    s.accessionedAt c (if i = 0 then a else (a / 262144 + i) * 262144))

/-- How a range of a core's channel stands to the repair of panels (R419, R420, R424). -/
def State.chanReach (s : State) (c a n : Nat) : Reach :=
  let ps := s.panelsIn c a n
  match ps.find? (fun p => (s.panel p.1 p.2).quar) with
  | some p => .shut p.1 p.2
  | none =>
    if ps.isEmpty || decide (64 ≤ s.repairsActive) && decide (256 ≤ s.repairsWaiting) then .free
    else match (firstLost (s.cacheByte c) a n).bind (fun i => s.accessionedAt c (a + i)) with
      | some p => .hurt p.1 p.2
      | none => .free

/-- How a range of a tile's weights stands to the repair of panels. -/
def State.reach (s : State) (o : Op) (a n : Nat) : Reach := if o.wsrc then .free else s.chanReach o.core a n

/-- Note reads of weight ranges: channel lines, or scratchpad words with their errors; whether a word of the core's memories
had a double-bit error. -/
def State.noteWeights (s : State) (o : Op) (ranges : List (Nat × Nat)) : State × Bool :=
  ranges.foldl (fun acc r =>
    if o.wsrc then
      let h := s.href o.core o.whdl
      let t := acc.1.noteScratch o.core (64 * h.base + r.1) (min r.2 (h.size - r.1))
      (t.1, acc.2 || t.2)
    else ((acc.1.missTraffic o.core o.charged r.1 r.2).readLines o.core .expander rdExpander r.1 r.2, acc.2 || acc.1.cacheDouble o.core r.1 r.2)) (s, false)

/-- Bytes of a range through a handle, those past it as zero. -/
def State.handleBytes (s : State) (c ref off n : Nat) : Bytes :=
  let h := s.href c ref
  slice (s.readScratch c (64 * h.base + off) (min n (h.size - off))) 0 n

/-- Lanes of the vector a tile reads. DESIGN CHOICE: the manual does not say how the lane count of a vector in one of the
annex's own formats is told; it is 64 where lanes 64 to 127 of its header all hold 0x8000, else 128 (R48, R122; log 98). -/
def State.lanesOf (s : State) (o : Op) : Nat :=
  if coreAct o.afmt then laneCount o.afmt
  else if ((headerEmax (s.handleBytes o.core o.ahdl 0 256)).drop 64).all (fun e => e == 0x8000) then 64 else 128

/-- Bytes of a chunk slot of a tile's vector: operand form, or the elements of 160 positions of each lane in an annex
format (R85, R48). -/
def vectorSlot (afmt lanes : Nat) : Nat := if coreAct afmt then slotBytes afmt else lanes * 160 * elemBits afmt / 8

/-- Chunks an activation vector must hold for a tile, and the chunk passes over it: `cd` or `cs` of R126. -/
def Op.passes (o : Op) : Nat := passCount o.sparse o.k0 o.k1
def Op.firstChunk (o : Op) : Nat := if o.sparse then 2 * (o.k0 / 320) else o.k0 / 160

/-- Bytes a tile reads of its activations (R85, R136). -/
def Op.vectorSpan (o : Op) (lanes : Nat) : Nat :=
  if o.bs then alignUp (2 * o.nact) 256 + o.nact * bsSlotBytes o.afmt
  else 256 + cdiv o.k1 160 * vectorSlot o.afmt lanes

/-- Bytes of one buffer of a tile's mask area (R105, R135). -/
def Op.maskBuffer (o : Op) : Nat := if o.bs then 64 * 40 else cdiv (o.k1 - o.k0) 160 * o.rows * 40

/-- Slots of a ring handle (R87). -/
def Handle.ringSlots (h : Handle) (slot : Nat) : Nat := if slot = 0 then 0 else (h.size - 256) / slot

/-- How the plane table of a BT-n tile stands to the repair of panels. -/
def State.tableReach (s : State) (o : Op) : Reach :=
  if !o.bs && o.wfmt == 3 then s.chanReach o.core (fld o.d 40 31 0) (16 * o.btn) else .free

/-- Plane references of a tile: the descriptor's, or its plane table read through the slice at issue (R119). Answers
whether the table was readable. -/
def State.planeRefs (s : State) (o : Op) : List PlaneRef × Bool :=
  if !o.bs && o.wfmt == 3 then
    let rd := s.cacheByte o.core
    let a := fld o.d 40 31 0
    let shut := match s.tableReach o with | .shut _ _ => true | _ => false
    ((List.range o.btn).map (fun j => planeRef (readZ rd (a + 16 * j) 16) 0), (firstLost rd a (16 * o.btn)).isNone && !shut)
  else ([planeRef (lineBytes o.d) 40], true)

/-! ### Issue (R115, R217) -/

/-- Handle references a tile's checks take, each with the bytes it uses of the range and the format it names (R92). -/
def State.tileHandles (s : State) (o : Op) (lanes : Nat) : List (Nat × Nat × Option Nat) :=
  let ah := s.href o.core o.ahdl
  let vec := if !o.bs && ah.ring then 256 + vectorSlot o.afmt lanes else o.vectorSpan lanes
  let r := planeRef (lineBytes o.d) 40
  let w := if !o.bs && o.wfmt == 2 then r.first + 8 * r.stride * (o.rows - 1) + 7 * (o.k1 / 32)
    else if o.bs then r.slice + 8
    else ((s.planeRefs o).1.map (fun r => max r.slice r.first + 8)).foldl max 8
  (o.ahdl, vec, some o.afmt) ::
    ((if o.sparse then [] else [(o.mhdl, 2 * o.maskBuffer, none)]) ++
      (if o.wsrc then [(o.whdl, w, some o.wfmt)] else []) ++ (if o.bs then [(o.lhdl, 8 * o.nlist, none)] else []))

/-- Whether one handle use of a tile fails R92. -/
def State.tileHandleBad (s : State) (o : Op) (x : Nat × Nat × Option Nat) : Bool :=
  s.huseBad o.core x.1 o.gal 0 x.2.1 || (match x.2.2 with
    | none => false
    | some f => (s.href o.core x.1).typed && (s.href o.core x.1).fmt != f)

/-- The scoreboard entry of a tile: the bounding range of what it reads through scoreboarded handles, its mask area left out
(R94, R95, R97). DESIGN CHOICE: the extent of its weight blocks is not stated at issue, so the entry takes the whole range of
WHDL, and the whole range of a ring; one tile has one entry, so the entry bounds the ranges of all its handles (log 99). -/
def State.tileEntries (s : State) (o : Op) (lanes : Nat) : List SbEntry :=
  let uses := (s.tileHandles o lanes).filter (fun x =>
    (x.1 != o.mhdl || x.2.2.isSome) && !(s.href o.core x.1).order)
  let spans := uses.map (fun x =>
    let h := s.href o.core x.1
    if x.1 == o.whdl && o.wsrc || h.ring then (h.base, h.base + h.lines - 1) else h.span 0 x.2.1)
  match spans with
  | [] => []
  | a :: t => [{ first := t.foldl (fun m x => min m x.1) a.1, last := t.foldl (fun m x => max m x.2) a.2
                 write := false, op := o.id }]

/-- The weight kind of a tile's tag (R129). -/
def Op.kind (o : Op) (annex : Bool) : WKind :=
  if annex then .annex
  else if !o.bs && o.wfmt == 2 then (if o.wsrc then .t24Sparse else .t24Dense)
  else if !o.bs && o.wfmt == 3 then .btn else .ternary

/-- The bank of a core or of the annex that a chain number holds, in a given state of R107: `none` for no such bank. -/
def Core.bankOfChain (k : Core) (chid : Nat) (st : BankSt) : Option Bool :=
  [false, true].find? (fun b => (k.bank b).st == st && (k.bank b).tag.chid == chid)
def Annex.bank (x : Annex) (b : Bool) : AnnexBank := if b then x.bank1 else x.bank0
def Annex.setBank (x : Annex) (b : Bool) (v : AnnexBank) : Annex := if b then { x with bank1 := v } else { x with bank0 := v }
def Annex.bankOfChain (x : Annex) (core chid : Nat) (st : BankSt) : Option Bool :=
  [false, true].find? (fun b => (x.bank b).st == st && (x.bank b).core == core && (x.bank b).tag.chid == chid)

/-- Tag of the HELD bank of a chain, on the core or in the annex. -/
def State.heldTag (s : State) (c chid : Nat) : Option BankTag :=
  match (s.core c).bankOfChain chid .held with
  | some b => some ((s.core c).bank b).tag
  | none => (s.annex.bankOfChain c chid .held).map (fun b => (s.annex.bank b).tag)

/-- Tiles of a core that are issued and not complete, in the core and in the annex. -/
def State.issuedTiles (s : State) (c : Nat) : List TileRun :=
  (s.core c).tiles ++ (s.annex.running.toList ++ s.annex.queue).filter (fun t => t.op.core == c)

/-- Tag under which a chain will be HELD when a tile that issues now starts: tiles run in issue order, so the chain's last
issued tile decides, and without one the bank that is HELD (R108, R115, R120). DEDUCED: a tile that continues a chain issues
ahead of the tile before it (log 100). -/
def State.chainTag (s : State) (c chid : Nat) : Option BankTag :=
  match ((s.issuedTiles c).filter (fun t => t.op.chid == chid)).getLast? with
  | some t => if t.op.closes then none else some t.tag
  | none => s.heldTag c chid

/-- Whether a tile goes to the annex: by its format, by the chain it joins, or by a fence of its core's POP path that
stood when its chain opened (R122, R413, R414). DESIGN CHOICE: R123 and R413 speak of tiles, and a block-sparse tile of a fenced
core, whose form the annex has no meaning for, stays on its core (log 101). -/
def State.toAnnex (s : State) (o : Op) : Bool :=
  if o.bs then false
  else if o.joins then (match s.chainTag o.core o.chid with | some t => t.kind == .annex | none => false)
  else o.annexFmt || (s.core o.core).fencePop

/-- What the issue point makes of an operation: it issues, waits for a cause of R460, 0 for none of them, or is refused. -/
inductive Verdict where
  | go | wait (cause : Nat) | refuse (x : Done)
  deriving DecidableEq, Repr

/-- Refusals of R120 that the core's state, the output's first row or a plane table decides. -/
def State.chainBad (s : State) (o : Op) (lanes : Nat) : List Bad :=
  let open_ := (s.chainTag o.core o.chid).isSome
  let filling := ((s.core o.core).bankOfChain o.chid .filling).isSome || (s.annex.bankOfChain o.core o.chid .filling).isSome
  let refs := s.planeRefs o
  need (o.joins && !open_) .badDescriptor 11 ++ need (!o.joins && (open_ || filling)) .badDescriptor 27 ++
  s.spanChecks o lanes ++ needOk (lanes != 128 || decide (o.rows ≤ 128)) 18 ++
  (if !o.bs && o.wfmt == 3 && refs.2 then
    refs.1.flatMap (fun r => refChecks r o (fun _ => 40)) ++
      need ((List.range o.btn).any (fun j => ofLE (readZ (s.cacheByte o.core) (fld o.d 40 31 0 + 16 * j + 12) 4) != 0))
        .badDescriptor 40
  else [])

/-- The tag of a tile (R129). -/
def State.tileTag (s : State) (o : Op) : BankTag :=
  { afmt := o.afmt, kind := o.kind (s.toAnnex o), ahdl := o.ahdl, lanes := s.lanesOf o, rows := o.rows, chid := o.chid }

/-- Slices a tile needs codebook registers for that no register holds (R72). T24 weights have no slice, and a plane table that
cannot be read names none. -/
def State.newSlices (s : State) (o : Op) : List (Nat × SliceInfo) :=
  let refs := s.planeRefs o
  if !o.bs && o.wfmt == 2 || !refs.2 then []
  else
    let base := if o.wsrc then 64 * (s.href o.core o.whdl).base else 0
    (refs.1.map (fun r => r.slice)).foldl (fun acc a =>
      if (s.core o.core).codebooks.any (fun x => x.slice == base + a && x.scratch == o.wsrc) ||
        acc.any (fun x => x.1 == base + a) then acc
      else acc ++ [(base + a, loadSliceAt (s.reach o) (s.weightByte o) a)]) []

/-- Whether a slice takes a codebook register: it holds a codebook that could be read (R62, R73). -/
def SliceInfo.takesReg (i : SliceInfo) : Bool := !i.bad && !i.lost && i.quar.isNone && i.n != 0

/-- Whether a tile's chain waits for the repair of a panel that an earlier tile of it met (R420). -/
def State.chainInRepair (s : State) (o : Op) : Bool :=
  s.tiers.repairs.any (fun r => r.retry.any (fun p => p.core == o.core && p.chid == o.chid && p.org == o.org))

/-- Whether a core has a chain open whose bank is HELD between its tiles, or will be once an issued tile of it ends (R107,
R109). -/
def State.chainHeld (s : State) (c : Nat) : Bool :=
  let k := s.core c
  k.bank0.st == .held || k.bank1.st == .held || k.tiles.any (fun t => !t.op.closes)

/-- What the issue point makes of a tile: R120 first, then the five checks of R115 in order. A header that decides the lane
count is read once no issued write to it is under way (R94, R95). -/
def State.tileVerdict (s : State) (o : Op) : Verdict :=
  let k := s.core o.core
  if s.chainInRepair o || decide (8 < (k.tiles).length) then .wait 0
  else if k.switching && !o.joins then .wait 0
  else if !coreAct o.afmt && !k.sbFree (s.sbRange o.core o.ahdl 0 256 false o.id) then .wait 1
  else
    let lanes := s.lanesOf o
    match verdict (s.chainBad o lanes) 5 with
    | some x => .refuse x
    | none =>
      let badH := (s.tileHandles o lanes).any (s.tileHandleBad o)
      let badT := o.joins && s.chainTag o.core o.chid != some (s.tileTag o)
      if badT then .refuse { st := .precisionMismatch }
      else if badH then .refuse { st := .badHandle }
      else if !k.sbFree (s.tileEntries o lanes) then .wait 1
      else if o.chain == 1 && o.cls != 0 && s.chainHeld o.core && !s.toAnnex o then .wait 3
      else if 8 < k.codebooks.length + ((s.newSlices o).filter (fun x => x.2.takesReg)).length then .wait 2
      else .go

/-- What the expander holds of a slice when the plane table that should name it cannot be read (R71, R420). DESIGN CHOICE: R71
names no such case; every slice of the tile is unreadable and no codebook is loaded (log 102). -/
def tableLost (r : Reach) : SliceInfo :=
  match r with
  | .shut o p => { quar := some (o, p) }
  | .hurt o p => { lost := true, quar := some (o, p) }
  | .free => { lost := true }

/-- Load the codebooks an issued tile names: new ones into free registers, held ones shared (R72). Answers what the
expander holds of each slice, plane 0 first, and whether a word it read had a double-bit error (R84). -/
def State.loadCodebooks (s : State) (o : Op) : State × List SliceInfo × Bool :=
  if !o.bs && o.wfmt == 2 then (s, [{}], false)
  else
    let base := if o.wsrc then 64 * (s.href o.core o.whdl).base else 0
    let refs := s.planeRefs o
    let table := s.tableReach o
    let fresh := s.newSlices o
    let t := (fld o.d 40 31 0, 16 * o.btn)
    let shut := match table with | .shut _ _ => true | _ => false
    let s0 := if !o.bs && o.wfmt == 3 && !shut then s.readLines o.core .expander rdExpander t.1 t.2 else s
    let dbl := !o.bs && o.wfmt == 3 && s.cacheDouble o.core t.1 t.2
    let n := s0.noteWeights o ((fresh.map (fun x => (x.1 - base, x.2.size))).filter (fun r => r.2 != 0))
    let k := n.1.core o.core
    let regs := k.codebooks ++ (fresh.filter (fun x => x.2.takesReg)).map (fun x =>
      ({ slice := x.1, scratch := o.wsrc, info := x.2, users := [] } : CodebookReg))
    let mine (x : CodebookReg) : Bool := refs.2 && x.scratch == o.wsrc && refs.1.any (fun r => base + r.slice == x.slice)
    let regs' := regs.map (fun x => if mine x then { x with users := x.users ++ [o.id] } else x)
    let infos := refs.1.map (fun r =>
      if !refs.2 then tableLost table
      else match regs.find? (fun x => x.slice == base + r.slice && x.scratch == o.wsrc) with
        | some x => x.info
        | none => ((fresh.find? (fun x => x.1 == base + r.slice)).map Prod.snd).getD {})
    ((n.1.setCore o.core { k with codebooks := regs' }).count .expCbLoad o.core
      (fresh.filter (fun x => x.2.takesReg)).length, infos, n.2 || dbl)

/-- Clear the registers no issued tile names (R72). -/
def State.freeCodebooks (s : State) (c id : Nat) : State :=
  let k := s.core c
  s.setCore c { k with codebooks :=
    ((k.codebooks.map (fun x => { x with users := x.users.filter (fun n => n != id) })).filter (fun x => !x.users.isEmpty)) }

/-- Start the first issued tile of a core if its bank is to be had: a chain's own HELD bank, or a FREE one (R107,
R108); else it waits for a drain (R110). -/
def State.startTile (s : State) (c : Nat) : State :=
  let k := s.core c
  match k.tiles with
  | [] => s
  | t :: rest =>
    if t.started then s
    else
      let bank := if t.op.joins then k.bankOfChain t.op.chid .held
        else [false, true].find? (fun b => (k.bank b).st == .free)
      match bank with
      | none => s.waitBegin (srcCore c) 5 t.op.identity
      | some b =>
        let old := k.bank b
        let x : Bank := if t.op.joins then { old with st := .filling, op := some t.op, chain := old.chain ++ [t.op] }
          else { st := .filling, tag := t.tag, op := some t.op, chain := [t.op] }
        ((s.setCore c { k.setBank b x with tiles := { t with started := true, bank := b } :: rest }).waitEnd (srcCore c) 5
          t.op.identity (some (.accWait, c))).opEvent (srcCore c) 2 t.op .ok

/-- Scan of a block-sparse tile's index array and block list, read at issue (R136, R137). -/
def State.bsIndices (s : State) (o : Op) : List Nat :=
  (List.range o.nact).map (fun i => ofLE (s.handleBytes o.core o.ahdl (2 * i) 2))
def State.bsList (s : State) (o : Op) : List (Nat × Nat × Nat) :=
  (List.range o.nlist).map (fun i =>
    let v := ofLE (s.handleBytes o.core o.lhdl (8 * i) 8)
    (bits v 15 0, bits v 31 16, bits v 63 32))

/-- Note the scratchpad words that scan reads; whether one had a double-bit error (R84). -/
def State.noteLists (s : State) (o : Op) : State × Bool :=
  if !o.bs then (s, false)
  else
    let a := s.noteScratch o.core (64 * (s.href o.core o.ahdl).base) (2 * o.nact)
    let b := a.1.noteScratch o.core (64 * (a.1.href o.core o.lhdl).base) (8 * o.nlist)
    (b.1, a.2 || b.2)

/-- Waits at the issue point that end as an operation issues (R460). -/
def State.issueWaits (s : State) (o : Op) : State :=
  let c := o.core
  ((s.waitEnd (srcCore c) 1 o.identity (some (.sbWait, c))).waitEnd (srcCore c) 2 o.identity (some (.expCbWait, c))).waitEnd
    (srcCore c) 3 o.identity none

/-- Issue a tile: its handles count it, its entry stands in the scoreboard, its codebooks and lists load, and it runs in issue
order (R88, R94, R115, R137); or it goes to the annex, in hub arrival order (R122). The first closing tile of an output sets
its first row (R142). While the annex is disabled the tile completes there with INTERNAL (R508). -/
def State.issueTile (s : State) (o : Op) : State :=
  let lanes := s.lanesOf o
  let tag := s.tileTag o
  let annex := s.toAnnex o
  let k := s.core o.core
  let s0 := ((s.setCore o.core { k with waiting := k.waiting.filter (fun p => p.id != o.id) }).issueWaits o).opEvent
    (srcCore o.core) 1 o .ok
  if annex && !s.flag .anxCtrl [] 0 then
    (s0.incident clsControl 0x7F .internal (srcHub hubAnnex) o.identity 0).complete (srcHub hubAnnex) o { st := .internal }
  else
    let s1 := ((s0.tileHandles o lanes).map (fun x => x.1)).foldl (fun s r => s.useHandle o.core r true) (s0.noteBase o)
    let k1 := s1.core o.core
    let s2 := s1.setCore o.core { k1 with scoreboard := k1.scoreboard ++ s1.tileEntries o lanes }
    let cb := s2.loadCodebooks o
    let ls := cb.1.noteLists o
    let refs := (s.planeRefs o).1.map (fun r => if (s.planeRefs o).2 then r else { r with slice := fld o.d 40 31 0 })
    let run : TileRun := { op := o, lanes := lanes, tag := tag, refs := refs, slices := cb.2.1
                           status := statusIf (cb.2.2 || ls.2) .arrayUe
                           bsIdx := if o.bs then s.bsIndices o else [], bsList := if o.bs then s.bsList o else [] }
    if annex then { ls.1 with annex := { ls.1.annex with queue := ls.1.annex.queue ++ [run] } }
    else
      let k2 := ls.1.core o.core
      (ls.1.setCore o.core { k2 with tiles := k2.tiles ++ [run] }).startTile o.core

/-- Whether an operation that is not Carmine may be issued ahead: work issued and not started stays within a quarter of a
beat of declared TCOST (R217). -/
def State.mayQueue (s : State) (o : Op) : Bool :=
  let k := s.core o.core
  let idle := (k.tiles.filter (fun t => !t.started)).map (fun t => t.op) ++ (k.attns.drop 1).map (fun a => a.op)
  let ahead := ((idle.filter (fun p => p.cls != 0)).map Op.tcost).foldl (· + ·) 0
  o.cls == 0 || (k.tiles.isEmpty && k.attns.isEmpty) || decide (4 * (ahead + o.tcost) ≤ 1000 * s.beatUs)

/-- The tile that goes in place of one that waits to open a chain: the next tile of the chain that is open (R109). -/
def State.heldChainTile (s : State) (o : Op) : Option Op :=
  let k := s.core o.core
  if o.chain == 1 && o.cls != 0 then
    k.waiting.find? (fun p => p.tileLike && p.opcode != opAttn && p.joins && (s.chainTag o.core p.chid).isSome)
  else none

/-- Whether a DMA operation may pass its core's issue point (R289, R415). -/
def State.dmaMayIssue (s : State) (c : Nat) (o : Op) : Bool :=
  !(s.core c).switching && (s.core c).sbFree ((s.dmaEntries o).map Prod.snd)

/-- Issue a DMA operation: its entries stand in the scoreboard (R289). -/
def State.issueDma (s : State) (c : Nat) (o : Op) : State :=
  let k := s.core c
  (((s.setCore c { k with waiting := k.waiting.filter (fun p => p.id != o.id)
                          scoreboard := k.scoreboard ++ (s.dmaEntries o).map Prod.snd }).waitEnd (srcCore c) 1 o.identity
    (some (.sbWait, c))).opEvent (srcCore c) 1 o .ok).dmaIssue o

/-- Whether an index, a CB or an RB of a block-sparse tile is out of bounds (R137). -/
def TileRun.bsBound (t : TileRun) : Bool :=
  let kb := fld t.op.d 20 15 0
  t.bsIdx.any (fun i => decide (kb ≤ i)) || t.bsList.any (fun e => decide (kb ≤ e.2.1) || decide (fld t.op.d 18 2 0 ≤ e.1))

/-! ### Chunk loads (R87, R103) -/

/-- Chunk loads a tile makes in all: one for each pass over each weight plane. -/
def Op.loads (o : Op) : Nat := if o.bs then 0 else o.planes * o.passes

/-- Chunk slots one load takes: two in T24 sparse mode (R103). -/
def Op.slotsPerLoad (o : Op) : Nat := if o.sparse then 2 else 1

/-- First chunk of load `n` of a tile. -/
def Op.loadChunk (o : Op) (n : Nat) : Nat := o.firstChunk + o.slotsPerLoad * (n % o.passes)

/-- Position of a chunk among a ring's slots that are sent and not credited, and the ring slot it stands in. -/
def Handle.ringFind (h : Handle) (slots chunk : Nat) : Option (Nat × Nat) :=
  if slots = 0 then none
  else match (List.range h.slots.length).find? (fun i => h.slots.getD i 0 == chunk) with
    | none => none
    | some i => some (i, (h.cons + i) % slots)

/-- Whether the chunk loader may still need a chunk for the tile that follows in its chain: the chunks of a pass two tiles of
a K-split chain share (R124). -/
def Op.sharesLast (o : Op) (chunk : Nat) : Bool :=
  let w := 160 * o.slotsPerLoad
  !o.closes && decide (o.k1 % w ≠ 0) && decide (o.slotsPerLoad * (o.k1 / w) ≤ chunk)

/-- Whether load `n` of a tile is the last time it copies its chunks: the pass over its last plane (R87, R104). -/
def Op.lastPass (o : Op) (n : Nat) : Bool := decide (o.loads ≤ n + o.passes)

/-- Return the credits of a ring's slots up to and with position `i`, that slot only where `last` says so (R87). -/
def State.creditRing (s : State) (c ref i : Nat) (last : Bool) : State :=
  let k := s.core c
  let h := k.handle (refIndex ref)
  let n := if last then i + 1 else i
  s.setCore c (k.setHandle (refIndex ref) { h with cons := h.cons + n, slots := h.slots.drop n })

/-- Read a slot of a vector: its bytes and whether a double-bit error zeroed a word (R84). -/
def State.readSlot (s : State) (c ref off n : Nat) : State × Bytes × Bool :=
  let h := s.href c ref
  let len := min n (h.size - off)
  let t := s.noteScratch c (64 * h.base + off) len
  (t.1, s.handleBytes c ref off n, t.2)

/-- One chunk of a tile's vector, from a ring or from a vector that stands whole in its range: none while the ring does
not hold it. A ring slot's credit goes back when the tile copies it for the last time (R87). A chunk past the tile's range reads
as zero. -/
def State.loadChunk (s : State) (t : TileRun) (chunk : Nat) : Option (State × Bytes × Bool) :=
  let o := t.op
  let slot := vectorSlot o.afmt t.lanes
  let h := s.href o.core o.ahdl
  if cdiv o.k1 160 ≤ chunk then some (s, List.replicate slot 0, false)
  else if h.ring then
    match h.ringFind (h.ringSlots slot) chunk with
    | none => none
    | some (i, at_) =>
      let r := s.readSlot o.core o.ahdl (256 + at_ * slot) slot
      some (if o.lastPass t.loaded.length then r.1.creditRing o.core o.ahdl i (!o.sharesLast chunk) else r.1, r.2.1, r.2.2)
  else some (s.readSlot o.core o.ahdl (256 + chunk * slot) slot)

/-- The chunks of one load, one after the other. -/
def State.loadChunks (s : State) (t : TileRun) : List Nat → Option (State × Bytes × Bool)
  | [] => some (s, [], false)
  | c :: rest => match s.loadChunk t c with
    | none => none
    | some r => (State.loadChunks r.1 t rest).map (fun q => (q.1, r.2.1 ++ q.2.1, r.2.2 || q.2.2))

/-- The next load of a running tile; the first one brings the vector's header too (R48, R103). -/
def State.nextLoad (s : State) (t : TileRun) : Option (State × TileRun) :=
  let o := t.op
  let n := t.loaded.length
  if o.loads ≤ n then none
  else
    let chunks := (List.range o.slotsPerLoad).map (fun j => o.loadChunk n + j)
    match s.loadChunks t chunks with
    | none => none
    | some (s1, b, dbl) =>
      let hd := if n = 0 then s1.readSlot o.core o.ahdl 0 256 else (s1, [], false)
      some (hd.1, { t with
        loaded := t.loaded ++ [b]
        erefs := if n = 0 then headerEmax hd.2.1 else t.erefs
        status := t.status.max (statusIf (dbl || hd.2.2) .arrayUe) })

/-- CHUNK_LOAD_DONE: the chunk loader has copied the next chunk of the core's running tile, or of the core's tile that
runs in the annex (R103). During the copy to a spare nothing uses the core, and it returns no credits (R415). -/
def execChunkLoadDone (core : CoreNo) (ups : List Upset) (s : State) : Host.Outcome State Fault Refusal :=
  let s := s.upsets ups
  let k := s.core core.val
  if !s.running then .next s
  else match k.tiles.head? with
    | some t =>
      if t.started && decide (t.loaded.length < t.op.loads) then
        match s.nextLoad t with
        | none => .next (s.waitBegin (srcCore core.val) 6 t.op.identity)
        | some (s1, t') =>
          let k1 := s1.core core.val
          .next ((s1.setCore core.val { k1 with tiles := t' :: k1.tiles.drop 1 }).waitEnd (srcCore core.val) 6 t.op.identity
            (some (.chunkWait, core.val)))
      else .next s
    | none => match s.annex.running with
      | none => .next s
      | some t =>
        if t.op.core != core.val then .next s
        else match s.nextLoad t with
          | none => .next (s.waitBegin (srcCore core.val) 6 t.op.identity)
          | some (s1, t') => .next (State.waitEnd { s1 with annex := { s1.annex with running := some t' } } (srcCore core.val) 6
              t.op.identity (some (.chunkWait, core.val)))

/-! ### Decoding a tile's weights -/

/-- The rows of trits of every plane of a tile, plane 0 first, with the counts and the ranges read (R121, R132): the planes are
read from the top one down (R79), and none behind one that broke off at a panel in repair (R420). -/
def State.tileTrits (s : State) (t : TileRun) : List (List (List Int)) × ExpCount × List (Nat × Nat) :=
  let o := t.op
  let rd := s.weightByte o
  let k := o.k1 - o.k0
  (((t.refs.zip t.slices).zip (List.range t.refs.length)).reverse).foldl
    (fun (acc : List (List (List Int)) × ExpCount × List (Nat × Nat)) x =>
      let r := x.1.1
      if acc.2.1.cut.isSome then (List.replicate o.rows (List.replicate k 0) :: acc.1, acc.2.1, acc.2.2)
      else
        let w := if o.wfmt = 2 then t24Trits (s.reach o) rd r.first r.stride o.rows o.k0 (k / 32)
          else planeTrits x.1.2 (s.reach o) rd r.slice r.first r.seq x.2 o.rows k (o.wfmt == 1 || o.wfmt == 3)
        (w.1 :: acc.1, acc.2.1.join w.2.1, acc.2.2 ++ w.2.2)) ([], {}, [])

/-- What the look-up of a block-sparse tile's list has met so far: hits with row-block, slot and the block's 64 rows of 64
trits, counts, ranges read, misses, and whether the slice can still be read. -/
structure BsWalk where
  hits   : List (Nat × Nat × List (List Int)) := []
  count  : ExpCount := {}
  ranges : List (Nat × Nat) := []
  misses : Nat := 0
  dead   : Bool := false
  deriving DecidableEq, Repr

/-- One list entry looked up (R136, R138): each listed block is read at its own place; behind an invalid or lost header every
later block of the slice is zero and not read (R66, R71), and so is every block behind a panel in repair (R420). -/
def State.bsStep (s : State) (t : TileRun) (x : BsWalk) (e : (Nat × Nat × Nat) × Nat) : BsWalk :=
  let o := t.op
  let r := t.refs.headD { slice := 0, first := 0, seq := 0, stride := 0 }
  match (List.range t.bsIdx.length).find? (fun j => t.bsIdx.getD j 0 == e.1.2.1) with
  | none => { x with misses := x.misses + 1 }
  | some j =>
    if x.dead then
      { x with hits := x.hits ++ [(e.1.1, j, List.replicate 64 (List.replicate 64 0))]
               count := if x.count.cut.isNone && !x.count.ue.isEmpty then { x.count with blocks := x.count.blocks + 1 } else x.count }
    else
      let a := r.slice + 8 * e.1.2.2
      let b := readBlock (t.slices.headD {}) (s.reach o) (s.weightByte o) 0 (o.wfmt == 1) 4096 a (r.seq + e.2)
      { x with hits := x.hits ++ [(e.1.1, j, runsOf 64 64 b.trits)], count := x.count.join b.count
               ranges := if b.len = 0 then x.ranges else x.ranges ++ [(a, b.len)], dead := !b.go }

/-- The hits of a block-sparse tile in list order (R136 to R138). -/
def State.bsHits (s : State) (t : TileRun) : BsWalk :=
  let r := t.refs.headD { slice := 0, first := 0, seq := 0, stride := 0 }
  let start : BsWalk := match (t.slices.headD {}).instead r.slice 0 with
    | none => {}
    | some c => { count := c, dead := true }
  (t.bsList.zip (List.range t.bsList.length)).foldl (s.bsStep t) start

/-- The expander's counters (R70). -/
def State.countExpander (s : State) (c : Nat) (x : ExpCount) : State :=
  (((((s.count .expCodeRange c x.codeRange).count .expBlkShort c x.short).count .expBlkLong c x.long).count .expBlocks c
    x.blocks).count .expEscapes c x.escapes).count .t24Subst c x.subst

/-- The BLOCK_CHECK record of a tile: its first affected block (R406). A slice that is invalid names the tile's first
block. -/
def State.blockCheck (s : State) (t : TileRun) (x : ExpCount) : State :=
  match x.first with
  | none => s
  | some (a, st) =>
    let o := t.op
    let slice := t.refs.find? (fun r => r.slice == a && r.first != a)
    let at_ := match slice with | some r => r.first | none => a
    let seq := match slice with
      | some r => r.seq
      | none => (blockHdr (ofLE (readZ (s.weightByte o) a 8))).seq
    s.incident clsControl 0x20 st (srcCore o.core) (at_ + seq * 2 ^ 32) o.rowid

/-- Take an issued tile's traces off its core: handle counts, scoreboard entry, codebook registers (R72, R88, R94). -/
def State.tileLeave (s : State) (t : TileRun) : State :=
  let o := t.op
  let s1 := ((s.tileHandles o t.lanes).map (fun x => x.1)).foldl (fun s r => s.useHandle o.core r false) s
  (s1.sbLeave o.core o.id).freeCodebooks o.core o.id

/-- A tile that met a quarantined panel completes with WEIGHT_UE_RETRY: a ring tile reports it; a step program's chain
waits to be re-issued when the panel's repair ends, unless the repair has failed (R420, R423). -/
def State.retryTile (s : State) (o : Op) (chain : List Op) (panel : Nat × Nat) : State :=
  let waits := s.tiers.repairs.any (fun r => r.obj == panel.1 && r.panel == panel.2 && r.stage != .failed)
  if o.ringed || !waits then s.complete (srcCore o.core) o { st := .weightUeRetry }
  else
    let s1 : State := { s with tiers := { s.tiers with repairs := s.tiers.repairs.map (fun r =>
      if r.obj = panel.1 ∧ r.panel = panel.2 then { r with retry := r.retry ++ chain } else r) } }
    match o.org with
    | .ring _ _ => s1
    | .step g => { s1 with doc := { s1.doc with groups := s1.doc.groups.map (fun l =>
        if l.id = g then { l with broke := l.broke ++ [1] } else l) } }

/-- One use of a mask-area buffer (R105): the expander writes the records of plus and minus masks, disturbances of the core's
scratchpad happen, and the array reads the records back. A record past the end of the range stands nowhere but in the expander.
Answers the records read and whether a word had a double-bit error (R84). -/
def State.maskPass (s : State) (o : Op) (buf : Nat) (ups : List Upset) (recs : List (Nat × Nat)) :
    State × List (Nat × Nat) × Bool :=
  let h := s.href o.core o.mhdl
  let off := buf % 2 * o.maskBuffer
  let a := 64 * h.base + off
  let fit := min (40 * recs.length) (h.size - off)
  let s1 := (s.writeScratch o.core a (((recs.map (fun r => toLE 20 r.1 ++ toLE 20 r.2)).flatten).take fit)).1
  let s2 := s1.upsets (ups.filter (fun u => match u with | .scratch c _ _ => c.val == o.core | _ => false))
  let n := s2.noteScratch o.core a fit
  let b := s2.readScratch o.core a fit
  (n.1, (recs.zip (List.range recs.length)).map (fun x =>
    if 40 * (x.2 + 1) ≤ fit then (ofLE (slice b (40 * x.2) 20), ofLE (slice b (40 * x.2 + 20) 20)) else x.1), n.2)

/-- Masks of each row and pass of a tile as the array reads them, top plane first: through the two buffers of the mask area in
turn (R105), or straight from the units of a sparse T24 tile (R132). Which buffer comes first is a free choice. -/
def State.tileMasks (s : State) (t : TileRun) (ups : List Upset) (planes : List (List (List Int))) :
    State × List (List (List (Nat × Nat))) × Bool :=
  let o := t.op
  if o.sparse then (s, planes.reverse.map (fun p => p.map (rowMasks 320 o.k0 o.k1)), false)
  else
    let buf := Config.freeNat s.free
    (planes.reverse.zip (List.range planes.length)).foldl
      (fun (acc : State × List (List (List (Nat × Nat))) × Bool) p =>
        let rows := p.1.map (rowMasks 160 o.k0 o.k1)
        let recs := ((List.range o.passes).map (fun c => rows.map (fun r => r.getD c (0, 0)))).flatten
        let m := acc.1.maskPass o (buf + p.2) ups recs
        (m.1, acc.2.1 ++ [(List.range o.rows).map (fun r => (List.range o.passes).map (fun c => m.2.1.getD (c * o.rows + r) (0, 0)))],
          acc.2.2 || m.2.2)) (s.draw 1, [], false)

/-- The blocks of a block-sparse tile's hits as the array reads them from the mask area: a record for each of a block's 64 rows,
the two buffers in turn (R105, R135). -/
def State.bsMasks (s : State) (t : TileRun) (ups : List Upset) (hits : List (Nat × Nat × List (List Int))) :
    State × List (Nat × Nat × List (Nat × Nat)) × Bool :=
  let buf := Config.freeNat s.free
  (hits.zip (List.range hits.length)).foldl
    (fun (acc : State × List (Nat × Nat × List (Nat × Nat)) × Bool) h =>
      let m := acc.1.maskPass t.op (buf + h.2) ups (h.1.2.2.map (fun r => (plusMask r, minusMask r)))
      (m.1, acc.2.1 ++ [(h.1.1, h.1.2.1, m.2.1)], acc.2.2 || m.2.2)) (s.draw 1, [], false)

/-- The slots of each plane pass of a tile as the array reads them. -/
def TileRun.slotLists (t : TileRun) : List (List (List Slot)) :=
  let o := t.op
  runsOf o.passes o.planes (t.loaded.map (fun b => (runsOf (slotBytes o.afmt) o.slotsPerLoad b).map (parseSlot o.afmt)))

/-- Carmine credit a tile is charged: its clk, a time the model takes as a free value (R220). -/
def State.chargeTile (s : State) (o : Op) : State :=
  if o.cls != 0 then s
  else
    let k := s.core o.core
    (s.draw 1).setCore o.core { k with credit := k.credit - 100 * (Config.freeNat s.free : Int) }

/-- The bank after a tile: HELD under its tag, or DRAINING with the tile that closes it (R107). -/
def Bank.after (b : Bank) (o : Op) (ents : Tbl AccEntry) (st : Status) (erefs : List Nat) : Bank :=
  { b with st := if o.closes then .draining else .held, ents := ents, status := st, erefs := erefs }

/-- End a tile of a core: its sums stand in its bank, its status is decided, and the bank moves on (R107, R127). -/
def State.tileEndAt (s : State) (t : TileRun) (ents : Tbl AccEntry) (erefs : List Nat) (st : Status) : State :=
  let o := t.op
  let s1 := (s.tileLeave t).chargeTile o
  let k := s1.core o.core
  let b := k.bank t.bank
  let s2 := (s1.setCore o.core { k.setBank t.bank (b.after o ents st erefs) with tiles := k.tiles.drop 1 }).count .accSat
    o.core (newlySat b.ents ents)
  let s3 := if o.closes then s2 else s2.complete (srcCore o.core) o { st := st }
  s3.startTile o.core

/-- Issued tiles that would continue a chain that has ended go back to the issue point, ahead of the operations there (R420). -/
def State.unissue (s : State) (c chid : Nat) : State :=
  let gone (t : TileRun) : Bool := !t.started && t.op.joins && t.op.chid == chid && t.op.core == c
  let back := (s.issuedTiles c).filter gone
  let s1 := back.foldl (fun s t => s.tileLeave t) s
  let k := s1.core c
  State.setCore { s1 with annex := { s1.annex with queue := s1.annex.queue.filter (fun t => !gone t) } } c
    { k with tiles := k.tiles.filter (fun t => !gone t), waiting := back.map (fun t => t.op) ++ k.waiting }

/-- Break a tile off at a quarantined panel: its bank drains nothing and becomes FREE, and its chain ends (R420). -/
def State.tileBreak (s : State) (t : TileRun) (panel : Nat × Nat) : State :=
  let o := t.op
  let k0 := s.core o.core
  let chain := (k0.bank t.bank).chain
  let s1 := (s.tileLeave t).chargeTile o
  let k := s1.core o.core
  (((s1.setCore o.core { k.setBank t.bank {} with tiles := k.tiles.drop 1 }).unissue o.core o.chid).retryTile o chain
    panel).startTile o.core

/-- Whether a running tile has all its chunks. -/
def TileRun.ready (t : TileRun) : Bool := t.started && decide (t.op.loads ≤ t.loaded.length)

/-- Statuses uncorrectable bursts give a tile that reads weights from the channel (R71). -/
def State.weightStatus (s : State) (o : Op) (x : ExpCount) : Status :=
  worst (x.ue.map (fun a => s.ueStatus o.core a))

/-- What the expander met in a tile stands in the counters and the incident record, and the bursts it read are noted (R70, R71,
R406); whether a word of the core's memories had a double-bit error. -/
def State.expanderDone (s : State) (t : TileRun) (x : ExpCount) (ranges : List (Nat × Nat)) : State × Bool :=
  let n := s.noteWeights t.op ranges
  ((n.1.countExpander t.op.core x).blockCheck t x, n.2)

/-- TILE_COMPLETE of a dense, T24 or BT-n tile. -/
def State.endDense (s : State) (t : TileRun) (ups : List Upset) : State :=
  let o := t.op
  let w := s.tileTrits t
  let n := s.expanderDone t w.2.1 w.2.2
  match w.2.1.cut with
  | some p => n.1.tileBreak t p
  | none =>
    let m := n.1.tileMasks t ups w.1
    let b := (m.1.core o.core).bank t.bank
    let ents := tileSums o.afmt o.rows o.k0 o.k1 o.sparse m.2.1 t.slotLists t.erefs (if o.joins then b.ents else [])
    let st := worst [t.status, w.2.1.status (s.weightStatus o w.2.1), statusIf (n.2 || m.2.2) .arrayUe]
    m.1.tileEndAt t ents t.erefs st

/-- TILE_COMPLETE of a block-sparse tile: a list out of bounds contributes nothing, though its slice may be invalid (R62, R70,
R137, R138). -/
def State.endBs (s : State) (t : TileRun) (ups : List Upset) : State :=
  let o := t.op
  let old := ((s.core o.core).bank t.bank)
  let start := if o.joins then old.ents else []
  let w := if t.bsBound then { s.bsHits { t with bsList := [] } with misses := 0 } else s.bsHits t
  let n := s.expanderDone t w.count w.ranges
  let st := worst [t.status, w.count.status (s.weightStatus o w.count)]
  match w.count.cut with
  | some p => n.1.tileBreak t p
  | none =>
    if t.bsBound then n.1.tileEndAt t start old.erefs (worst [st, .operandBound])
    else
      let z := bsSlotBytes o.afmt
      let at_ := alignUp (2 * o.nact) 256
      let h := n.1.href o.core o.ahdl
      let v := n.1.noteScratch o.core (64 * h.base + at_) (o.nact * z)
      let slots := (List.range o.nact).map (fun i => n.1.handleBytes o.core o.ahdl (at_ + i * z) z)
      let emax := (List.range (laneCount o.afmt)).map (fun l => match bsEmax o.afmt l slots with
        | none => 0x8000
        | some e => twos 16 e)
      let m := ((v.1.count .bsHit o.core w.hits.length).count .bsMiss o.core w.misses).bsMasks t ups w.hits
      m.1.tileEndAt t (bsSums o.afmt o.rows slots m.2.1 start) emax (worst [st, statusIf (n.2 || v.2 || m.2.2) .arrayUe])

/-- Whether a tile's weights stand in a channel that takes no request of it now (R303, R305). -/
def State.weightsShut (s : State) (o : Op) : Bool := !o.wsrc && s.chanShut o.core o.charged

/-- TILE_COMPLETE: the last block of the core's running tile is done (R127). -/
def execTileComplete (core : CoreNo) (ups : List Upset) (s : State) : Host.Outcome State Fault Refusal :=
  let s := s.upsets ups
  match (s.core core.val).tiles.head? with
  | none => .next s
  | some t =>
    if !s.running || !t.ready then .next s
    else if s.weightsShut t.op then .next (s.bwHold (srcCore core.val) core.val t.op.identity t.op.charged)
    else
      let s1 := (s.drain core.val).waitEnd (srcCore core.val) 8 t.op.identity none
      .next (if t.op.bs then s1.endBs t ups else s1.endDense t ups)

/-! ### Drains and finishers (R110, R112, R141 to R143) -/

/-- E_ref of a lane as its header's E_max gives it (R49): none for a lane of zeros. -/
def laneRef (afmt raw : Nat) : Option Int := (laneEmax raw).map (fun e => if fpAct afmt then e - 6 else e)

/-- A drained entry: an INT32 word with its exponent, or an FP32 word. -/
abbrev Drained := Word × Option Int

/-- Its value. -/
def Drained.val (x : Drained) : FVal := match x.2 with | some e => .ofInt x.1.toInt e | none => ofF32 x.1

/-- A finished element ahead of narrowing: FOP REQ narrows the entry itself; ACT applies f in FP32; GLU gates a row with
its neighbour (R141). Answers the values by output row. -/
def fopValues (o : Op) (rows : List Drained) : List Drained :=
  match o.fop with
  | 3 => rows.map (fun x => (actApply o.farg (f32 x.val), none))
  | 4 => (List.range (rows.length / 2)).map (fun i =>
      let a := rows.getD (2 * i) (0, none)
      let b := rows.getD (2 * i + 1) (0, none)
      (f32mul (actApply o.farg (f32 a.val)) (f32 b.val), none))
  | _ => rows

/-- INT32 form of an entry for PARTIAL: the word itself, or an FP32 entry in units of its lane's E_ref. -/
def partialWord (x : Drained) (eref : Option Int) : Word :=
  match x.2 with
  | some _ => x.1
  | none => match (ofF32 x.1).scale (-(eref.getD 0)) with
    | .num n m e => let v : Int := rneAt m e 0; BitVec.ofInt 32 (sat32 (if n then -v else v))
    | _ => 0

/-- Put values into the scale blocks a finisher assembles (R142). -/
def joinBlock (bs : List FinBlock) (dest lane : Nat) (block : Int) (row : Nat) (x : Drained) : List FinBlock :=
  match bs.find? (fun b => b.dest == dest && b.lane == lane && b.block == block) with
  | none => bs ++ [{ dest := dest, lane := lane, block := block, vals := [(row, x)] }]
  | some _ => bs.map (fun b =>
      if b.dest = dest ∧ b.lane = lane ∧ b.block = block then
        { b with vals := b.vals.filter (fun v => v.1 != row) ++ [(row, x)] } else b)

/-- Runs of bytes written to the hall buffer, one after the other; whether one met a double-bit error (R84). -/
def State.putRuns (s : State) (l : List (Nat × Bytes)) : State × Bool :=
  l.foldl (fun acc x => let r := acc.1.putHall x.1 x.2; (r.1, acc.2 || r.2)) (s, false)

/-- Write a whole scale block: 32 elements and its scale (R53, R142). -/
def State.writeBlock (s : State) (o : Op) (lanes : Nat) (b : FinBlock) : State × Bool :=
  let xs := (sortBy (fun (v : Nat × Word × Option Int) => v.1) b.vals).map (fun v => Drained.val v.2)
  let nb := narrowBlock o.ofmt (narrowShift o.ofmt 0 xs) xs s.free
  let w := elemBits o.ofmt
  let r := (s.draw 32).putRuns [((elemPos o.dest o.epitch b.lane (32 * b.block) w).toNat, packElems o.ofmt nb.codes),
    ((scalePos o.dest o.epitch o.spitch lanes b.lane b.block).toNat, [BitVec.ofNat 8 nb.scale])]
  ((r.1.count .scaleClamp 0 nb.clamps).count .nonfiniteOut 0 nb.nonfinite, r.2)

/-- Records of a flushed candidate list: `k` of 8 B, the list's first (R143). What stands in a record past the list is not stated:
free bytes. -/
def candRecords (k fr : Nat) (l : List (Word × Nat)) : Bytes :=
  (l.map candBytes).flatten ++ (List.range (8 * (k - l.length))).map (fun i => BitVec.ofNat 8 (Config.freeNat (fr + i)))

/-- Sum of squares of a lane's BF16 values on top of what a sum holds (R141). -/
def sumSquares (old : Word) (halves : List Nat) : Word :=
  halves.foldl (fun acc h => f32add acc (f32mul (f32 (ofBF16 (BitVec.ofNat 16 h))) (f32 (ofBF16 (BitVec.ofNat 16 h))))) old

/-- One lane of a drain through FOP (R141 to R143): `rel` is the tile's first row from the output's first. DESIGN CHOICE: the sum
of squares of SUMSQ covers a lane's rows of one output and starts again with the tile that writes its first row; the manual
names no place it is delivered to, and the finisher keeps it (log 103). -/
def State.finishLane (s : State) (f : Nat) (o : Op) (lanes : Nat) (rel : Int) (lane : Nat) (eref : Option Int)
    (rows : List Drained) : State × Bool :=
  let first := outRow o.fop rel
  let vals := fopValues o rows
  let at_ (w : Nat) : Nat := (elemPos o.dest o.epitch lane first w).toNat
  let x := s.fin f
  let halves := vals.map (fun v => (bf16 (Drained.val v)).toNat)
  if o.fop = 6 then
    let k := o.farg % 128
    let cs := (rows.zip (List.range rows.length)).map (fun v => (f32 (Drained.val v.1), o.rowid + v.2))
    let list := candMerge k (Tbl.look x.topk lane []) cs
    if bit o.farg 7 then
      let r := (s.draw (8 * (k - list.length))).putHall (elemPos o.dest o.epitch lane 0 8).toNat (candRecords k s.free list)
      (r.1.setFin f { x with topk := Tbl.erase x.topk lane }, r.2)
    else (s.setFin f { x with topk := Tbl.put x.topk lane list [] }, false)
  else if o.fop = 7 then s.putHall (at_ 32) ((rows.map (fun v => toLE 4 (partialWord v eref).toNat)).flatten)
  else if o.fop = 1 then s.putHall (at_ 32) ((vals.map (fun v => toLE 4 (f32 (Drained.val v)).toNat)).flatten)
  else if o.fop = 5 then
    let sq := sumSquares (if rel = 0 then 0 else Tbl.look x.sumsq lane 0) halves
    let r := s.putHall (at_ 16) ((halves.map (toLE 2)).flatten)
    (r.1.setFin f { x with sumsq := Tbl.put x.sumsq lane sq 0 }, r.2)
  else if !scaledFmt o.ofmt then s.putHall (at_ 16) ((halves.map (toLE 2)).flatten)
  else
    let bs := (vals.zip (List.range vals.length)).foldl (fun bs v =>
      let g := first + (v.2 : Int)
      joinBlock bs o.dest lane (g / 32) (g % 32).toNat v.1) x.blocks
    let full := bs.filter (fun b => b.dest == o.dest && b.lane == lane && decide (32 ≤ b.vals.length))
    let s1 := s.setFin f { x with blocks := bs.filter (fun b => !full.contains b) }
    full.foldl (fun acc b => let r := acc.1.writeBlock o lanes b; (r.1, acc.2 || r.2)) (s1, false)

/-- A drain through the finisher of its core: every lane's rows. Whether a write met a double-bit error (R84). -/
def State.finish (s : State) (o : Op) (lanes : Nat) (eref : Nat → Option Int) (entry : Nat → Nat → Drained) : State × Bool :=
  let rel := s.outRel o
  (List.range lanes).foldl (fun acc l =>
    let r := acc.1.finishLane (finisherOf o.core) o lanes rel l (eref l) ((List.range o.rows).map (fun r => entry r l))
    (r.1, acc.2 || r.2)) (s, false)

/-- ACCUMULATOR_DRAIN_DONE: the last entry of a draining bank leaves; entries whose residue is wrong are reported and pass
on, the finisher applies FOP, the bank is FREE and its tile completes (R110, R112, R142). -/
def execAccumulatorDrainDone (core : CoreNo) (bank : Bool) (ups : List Upset) (s : State) :
    Host.Outcome State Fault Refusal :=
  let s := s.upsets ups
  let k := s.core core.val
  let b := k.bank bank
  match b.op with
  | none => .next s
  | some o =>
    if !s.running || b.st != .draining then .next s
    else
      let lanes := b.tag.lanes
      let bad := b.ents.filter (fun e => e.2.faulty)
      let s1 := bad.foldl (fun s e => s.residueFault core.val unitPop bank (e.1 / lanes) (e.1 % lanes) o.opcode) s
      let eref (l : Nat) : Option Int := laneRef o.afmt (b.erefs.getD l 0x8000)
      let s2 := s1.finish o lanes eref (fun r l =>
        match eref l with
        | none => (0, some 0)
        | some e => ((Tbl.look b.ents (r * lanes + l) {}).val, some e))
      let k2 := s2.1.core core.val
      let st := (b.status.max (statusIf s2.2 .arrayUe)).max (statusIf (!bad.isEmpty) .residueFault)
      .next ((((s2.1.setCore core.val (k2.setBank bank {})).waitFree (srcPlinth (core.val / 256)) 14 o.identity
        (some (.finWait, core.val / 256))).complete (srcCore core.val) o { st := st }).startTile core.val)

end Sys2Proof.Machine
end

