-- ==== Sys2Proof/Machine/Annex.lean ====
section
/-! DEFINITION. The annex: tiles of its own formats and tiles of fenced cores, one at a time over the whole device, summed
in FP32 and finished by the annex itself (R122, R125, R413, R508). -/

namespace Sys2Proof.Machine

/-! ### Start -/

/-- The annex bank a tile takes: its own chain's HELD one, or a FREE one (R108, R122). -/
def Annex.bankFor (x : Annex) (o : Op) : Option Bool :=
  if o.joins then x.bankOfChain o.core o.chid .held else [false, true].find? (fun b => (x.bank b).st == .free)

/-- ANNEX_TILE_START: the oldest waiting tile starts once the annex is idle and a bank is to be had (R122). -/
def execAnnexTileStart (s : State) : Host.Outcome State Fault Refusal :=
  match s.annex.running, s.annex.queue with
  | none, t :: rest =>
    if !s.running then .next s
    else match s.annex.bankFor t.op with
      | none => .next s
      | some b =>
        let old := s.annex.bank b
        let x : AnnexBank := if t.op.joins then { old with st := .filling, chain := old.chain ++ [t.op] }
          else { st := .filling, core := t.op.core, tag := t.tag, chain := [t.op] }
        let a := s.annex.setBank b x
        .next (State.opEvent { s with annex := { s.annex with
            queue := rest, running := some { t with started := true, bank := b }, bank0 := a.bank0, bank1 := a.bank1 } }
          (srcHub hubAnnex) 2 t.op .ok)
  | _, _ => .next s

/-! ### Values -/

/-- One lane's activations of one chunk slot as FP32 (R122): operand form through its planes and offsets, or the elements
of an annex format, 160 of each lane in turn. A lane whose E_max is 0x8000 reads as zero (R48). -/
def slotF32 (afmt lane : Nat) (emax : Nat) (b : Bytes) : List Word :=
  if coreAct afmt then
    let n := planeCount afmt
    let l := laneCount afmt
    let x := parseSlot afmt b
    let planes := (List.range n).map (fun p => x.planes.getD (p * l + lane) 0)
    let offs := x.offs.getD lane []
    (List.range 160).map (fun k =>
      let c := signed n (planes.foldr (fun p acc => p / 2 ^ k % 2 + 2 * acc) 0)
      let d := offs.getD (k / 32) 255
      operandF32 c (if d = 255 then none else (laneEmax emax).map (fun e => e - (d : Int))))
  else if (laneEmax emax).isNone then List.replicate 160 0
  else
    let w := elemBits afmt / 8
    (List.range 160).map (fun k => f32 (elemVal afmt (ofLE (slice b ((lane * 160 + k) * w) w))))

/-- One lane's activations over [k0, k1) of a tile, from the chunks of its first plane pass. -/
def TileRun.laneF32 (t : TileRun) (lane : Nat) : List Word :=
  let o := t.op
  let slot := vectorSlot o.afmt t.lanes
  let xs := ((t.loaded.take o.passes).map (fun b =>
    ((List.range o.slotsPerLoad).map (fun j => slotF32 o.afmt lane (t.erefs.getD lane 0x8000) (slice b (j * slot) slot))).flatten)).flatten
  (xs.drop (o.k0 % (160 * o.slotsPerLoad))).take (o.k1 - o.k0)

/-- A tile's weights by row: trits, or the wide weights of a BT-n tile (R31). -/
def rowWeights (rows k : Nat) (planes : List (List (List Int))) : List (List Int) :=
  match planes with
  | [p] => p
  | ps => (List.range rows).map (fun r => (List.range k).map (fun i => btWeight (ps.map (fun p => (p.getD r []).getD i 0))))

/-- The annex bank after a tile's sums (R125). -/
def annexSums (rows lanes : Nat) (weights : List (List Int)) (xs : List (List Word)) (old : Tbl Word) : Tbl Word :=
  ((List.range (rows * lanes)).map (fun i =>
    (i, annexSum (weights.getD (i / lanes) []) (xs.getD (i % lanes) []) (old.look i 0)))).filter (fun p => p.2 != 0)

/-! ### End -/

/-- End the running tile: the annex turns idle. -/
def State.annexIdle (s : State) : State := { s with annex := { s.annex with running := none } }
def State.setAnnexBank (s : State) (b : Bool) (x : AnnexBank) : State := { s with annex := s.annex.setBank b x }

/-- Weights of a row over [k0, k1) as the masks of its passes spell them (R122). -/
def maskRow (k0 k1 : Nat) (ms : List (Nat × Nat)) : List Int :=
  (((ms.map (fun m => (List.range 160).map (maskTrit m))).flatten).drop (k0 % 160)).take (k1 - k0)

/-- A tile's planes of weights as their masks reach the annex, plane 0 first (R105, R122); whether a word of the mask area had a
double-bit error. -/
def State.annexPlanes (s : State) (t : TileRun) (ups : List Upset) (planes : List (List (List Int))) :
    State × List (List (List Int)) × Bool :=
  let o := t.op
  let m := s.tileMasks t ups planes
  (m.1, if o.sparse then planes else m.2.1.reverse.map (fun p => p.map (maskRow o.k0 o.k1)), m.2.2)

/-- End of the annex's running tile (R122, R125): decoded weights times activations, then HELD, or FOP and the tile's
completion; a quarantined panel breaks its chain off (R420). DESIGN CHOICE: the manual has the annex apply FOP itself and names
no place for its candidate lists and scale blocks; they stand in the finisher of the tile's core (log 104). -/
def State.endAnnex (s : State) (t : TileRun) (ups : List Upset) : State :=
  let o := t.op
  let w := s.tileTrits t
  let n := s.expanderDone t w.2.1 w.2.2
  let s1 := (((n.1.tileLeave t).annexIdle).chargeTile o).count .anxTile 0 1
  let b := s1.annex.bank t.bank
  match w.2.1.cut with
  | some p => ((s1.setAnnexBank t.bank {}).unissue o.core o.chid).retryTile o b.chain p
  | none =>
    let m := s1.annexPlanes t ups w.1
    let ents := annexSums o.rows t.lanes (rowWeights o.rows (o.k1 - o.k0) m.2.1)
      ((List.range t.lanes).map t.laneF32) (if o.joins then b.ents else [])
    let st := worst [t.status, w.2.1.status (s.weightStatus o w.2.1), statusIf (n.2 || m.2.2) .arrayUe]
    if !o.closes then
      (m.1.setAnnexBank t.bank { b with st := .held, ents := ents }).complete (srcHub hubAnnex) o { st := st }
    else
      let s3 := m.1.finish o t.lanes (fun l => laneRef o.afmt (t.erefs.getD l 0x8000)) (fun r l =>
        (ents.look (r * t.lanes + l) 0, none))
      (s3.1.setAnnexBank t.bank {}).complete (srcHub hubAnnex) o { st := worst [st, statusIf s3.2 .arrayUe] }

/-- ANNEX_TILE_COMPLETE: every lane of the running tile is summed (R122). -/
def execAnnexTileComplete (ups : List Upset) (s : State) : Host.Outcome State Fault Refusal :=
  let s := s.upsets ups
  match s.annex.running with
  | none => .next s
  | some t =>
    if !s.running || !t.ready then .next s
    else if s.weightsShut t.op then .next (s.bwHold (srcHub hubAnnex) t.op.core t.op.identity t.op.charged)
    else .next (((s.drain t.op.core).waitEnd (srcHub hubAnnex) 8 t.op.identity none).endAnnex t ups)

end Sys2Proof.Machine
end

