-- ==== Sys2Proof/Machine/Attend.lean ====
section
/-! DEFINITION. The arithmetic of one ATTN: scores, log weights, LNS4 probabilities, value sums on the linear path and
in sepia mode, and the output rows (chapter 6). -/

namespace Sys2Proof.Machine

/-- θ(u) of R153: its formula, and the tabulated 56,049 at u = 448. -/
def theta (u : Nat) : Nat :=
  if u = 448 then 56049
  else
    let d := powTwo 512 - 2 ^ 64
    (2 * 65536 * (powTwo u - 2 ^ 64) + d) / (2 * d)

/-- round(65,536 × 2^((x' + 7,168) / 1,024)) for x' below −7,168, a half upward (R153). -/
def lowThreshold (x : Int) : Nat :=
  let t := x + 7168
  let n := (-(t / 1024)).toNat
  let p := powTwo (t % 1024).toNat * 65536
  (2 * p + 2 ^ (64 + n)) / (2 * 2 ^ (64 + n))

/-- The LNS4 code of x' with the 16-bit random number ρ (R153). -/
def lns4Code (x : Int) (rho : Nat) : Nat :=
  let u := (x % 512).toNat
  if x - u ≥ -7168 then
    let c := (15 + (x - u) / 512).toNat
    if u ≠ 0 ∧ rho < theta u then c + 1 else c
  else if rho < lowThreshold x then 1 else 0

/-- One token as the core reads it: its position, whether its data can be trusted, its key and value elements and
scales, block by block. -/
structure AToken where
  pos    : Int
  lost   : Bool
  keys   : List (List Nat)
  kscale : List Nat
  vals   : List (List Nat)
  vscale : List Nat
  deriving DecidableEq, Repr

/-- The fields of an ATTN that its arithmetic uses (R144). -/
structure AParams where
  qfmt : Nat
  kfmt : Nat
  vfmt : Nat
  hdim : Nat
  rows : Nat
  mask : Bool
  gqa  : Nat
  qpos : Nat
  cexp : Int
  cterms : List Nat
  sepia : Bool
  deriving DecidableEq, Repr

/-- Query codes and scales of one row, block by block. -/
structure AQuery where
  codes : List (List Nat)
  scales : List Nat
  deriving DecidableEq, Repr

/-- Operand value of a query or key code: doubled for FP4, signed otherwise (R147, R148). -/
def scoreVal (fmt c : Nat) : Int := if fmt = 7 then fp4Doubled c else if fmt = 5 then signed 8 c else signed 4 c

/-- Block product of 32 codes (R147, R148): exact for INT8 keys too. -/
def blockProduct (qf kf : Nat) (q k : List Nat) : Int :=
  (q.zip k).foldl (fun acc p => acc + scoreVal qf p.1 * scoreVal kf p.2) 0

/-- The score s and its exponent E_s of one query row against one token (R149). -/
def scoreOf (p : AParams) (q : AQuery) (t : AToken) : Int × Int :=
  let dq : Int := if p.qfmt = 7 then 1 else 0
  let dk : Int := if p.kfmt = 7 then 1 else 0
  let blks := (List.range p.hdim).filterMap (fun j =>
    let eq := q.scales.getD j 255
    let ek := t.kscale.getD j 255
    if eq = 255 ∨ ek = 255 then none
    else some (blockProduct p.qfmt p.kfmt (q.codes.getD j []) (t.keys.getD j []),
      ((eq : Int) - 127 - dq) + ((ek : Int) - 127 - dk)))
  match blks with
  | [] => (0, 0)
  | b :: r =>
    let es := r.foldl (fun m x => max m x.2) b.2
    ((blks.map (fun x => ashift x.1 (x.2 - es))).foldl (· + ·) 0, es)

/-- The log weight y and whether it saturated (R150). -/
def logWeight (p : AParams) (s es : Int) : Int × Bool :=
  let y := (p.cterms.filter (fun c => bit c 7)).foldl (fun acc c =>
    let v := ashift s (es + p.cexp - (bits c 4 0 : Int) + 12)
    if bit c 5 then acc - v else acc + v) 0
  if y < -2147483647 then (-2147483647, true) else if 2147483647 < y then (2147483647, true) else (y, false)

/-- Whether a token is valid for a row (R151). -/
def tokenValid (p : AParams) (row : Nat) (t : AToken) : Bool :=
  !t.lost && (p.mask || decide (t.pos ≤ (p.qpos : Int) + (row / p.gqa : Nat)))

/-- What the core keeps for one query row (R152, R155, R156, R165): μ, ℓ and the value sums, element by element; in sepia
mode a positive and a negative log for each element, and a positive one for ℓ, none while zero. -/
structure ARow where
  mu   : Int := -2147483648
  ell  : Int := 0
  acc  : List Int := []
  pos  : List (Option Int) := []
  neg  : List (Option Int) := []
  ellL : Option Int := none
  deriving DecidableEq, Repr

/-- The sepia table g, with g[32] = 6 (R166). -/
def sepiaTable : List Nat :=
  [1024, 902, 790, 689, 599, 518, 447, 385, 330, 282, 240, 205, 174, 148, 125, 106, 90, 76, 64, 54, 45, 38, 32, 27, 23,
   19, 16, 14, 11, 10, 8, 7, 6]

/-- G(D) in units of 2^−10 octave (R166). -/
def sepiaG (d : Nat) : Int :=
  if d < 8192 then
    let g (i : Nat) : Int := (sepiaTable.getD i 0 : Nat)
    let i := d / 256
    g i + (g (i + 1) - g i) * (d % 256 : Nat) / 256
  else ((6 / 2 ^ (d / 1024 - 8) : Nat) : Int)

/-- Add a term to a sepia accumulator (R165). -/
def sepiaAdd (a : Option Int) (t : Int) : Option Int :=
  match a with
  | none => some t
  | some a => some (max a t + sepiaG (a - t).natAbs)

/-- Bring a row to a new maximum (R152, R165). -/
def ARow.raise (r : ARow) (mu : Int) : ARow :=
  let k := mu - r.mu
  let drop (o : Option Int) : Option Int := o.map (fun l => l - 1024 * k)
  { mu := mu, ell := ashift r.ell (-k), acc := r.acc.map (fun a => ashift a (-k)), pos := r.pos.map drop
    neg := r.neg.map drop, ellL := drop r.ellL }

/-- One value term on the linear path: sign, log sum L and the shift below E_o (R154, R155). -/
def valueTerm (neg : Bool) (l : Int) (below : Int) : Int :=
  let t := ashift ((fracTable.getD (l % 16).toNat 0 : Nat) : Int) (l / 16 + 7 - below)
  if neg then -t else t

/-- Add one token with probability code `c` to a row: ℓ and every value element (R154 to R156, R165). `eo` gives E_o of
each block. -/
def ARow.addToken (r : ARow) (p : AParams) (eo : List Nat) (t : AToken) (c : Nat) : ARow :=
  if c = 0 then r
  else
    let lp : Int := 8 * ((c : Int) - 15)
    let ellTerm := ashift ((fracTable.getD (lp % 16).toNat 0 : Nat) : Int) (lp / 16 + 7)
    let width := if p.vfmt = 5 then 8 else 4
    let elems : List (Int × Nat × Nat) := ((List.range p.hdim).map (fun j =>
      (t.vals.getD j []).map (fun v => (signed width v, t.vscale.getD j 255, eo.getD j 0)))).flatten
    if p.sepia then
      let term (x : Int × Nat × Nat) : Option Int :=
        if x.2.1 = 255 ∨ x.1 = 0 then none
        else some (64 * (lp + ((lns8Mag x.1 : Int) - 15)) + 1024 * ((x.2.1 : Int) - 127))
      let add (want : Bool) (l : List (Option Int)) : List (Option Int) :=
        (elems.zip (l ++ List.replicate (elems.length - l.length) none)).map (fun (xa : (Int × Nat × Nat) × Option Int) =>
          if decide (xa.1.1 < (0 : Int)) == want then
            match term xa.1 with | none => xa.2 | some v => sepiaAdd xa.2 v
          else xa.2)
      { r with ell := r.ell + ellTerm, ellL := sepiaAdd r.ellL (64 * lp), pos := add false r.pos, neg := add true r.neg }
    else
      { r with
        ell := r.ell + ellTerm
        acc := (elems.zip (r.acc ++ List.replicate (elems.length - r.acc.length) 0)).map (fun (xa : (Int × Nat × Nat) × Int) =>
          if xa.1.2.1 = 255 ∨ xa.1.1 = 0 then xa.2
          else xa.2 + valueTerm (decide (xa.1.1 < 0)) (lp + ((lns8Mag xa.1.1 : Int) - 15))
            ((xa.1.2.2 : Int) - (xa.1.2.1 : Int))) }

/-- A unit of work: the current token or one page (R157). For every row it scores the tokens, raises μ, quantises and
adds. `rho` gives the 16 bits of each probability by its number; `n` is how many tokens came before. Answers the rows and the
saturated log weights counted. -/
def attendUnit (p : AParams) (qs : List AQuery) (rho : Nat → Nat) (toks : List AToken) (n : Nat) (eo eo' : List Nat)
    (rows : List ARow) : List ARow × Nat :=
  let shifted := rows.map (fun r =>
    { r with acc := (r.acc.zip (List.range r.acc.length)).map (fun a =>
        ashift a.1 (-(((eo'.getD (a.2 / 32) 0 : Nat) : Int) - (eo.getD (a.2 / 32) 0 : Nat)))) })
  let out := ((shifted.zip qs).zip (List.range p.rows)).map (fun rq =>
    let valid := toks.map (tokenValid p rq.2)
    let ys := toks.map (fun t => let s := scoreOf p rq.1.2 t; logWeight p s.1 s.2)
    let vys := selectBy valid ys
    match vys.map Prod.fst with
    | [] => (rq.1.1, 0)
    | y :: rest =>
      let top := -((-(rest.foldl max y)) / 4096)
      let mu := max rq.1.1.mu top
      let r1 := if rq.1.1.mu < mu then rq.1.1.raise mu else rq.1.1
      let r2 := ((toks.zip ys).zip (List.range toks.length)).foldl (fun acc ty =>
        if tokenValid p rq.2 ty.1.1 then
          let x := (ty.1.2.1 - 4096 * mu) / 4
          acc.addToken p eo' ty.1.1 (lns4Code x (rho ((n + ty.2) * p.rows + rq.2)))
        else acc) r1
      (r2, (vys.filter Prod.snd).length))
  (out.map Prod.fst, (out.map Prod.snd).foldl (· + ·) 0)

/-- E_o of each block after a unit's tokens (R155): the largest value scale seen, 255 not counted. -/
def raiseScales (hdim : Nat) (toks : List AToken) (eo : List Nat) : List Nat :=
  (List.range hdim).map (fun j => toks.foldl (fun m t =>
    let e := t.vscale.getD j 255
    if e = 255 then m else max m e) (eo.getD j 0))

/-- Rows after every unit in order, the current token first (R157), with E_o and the count of saturated weights. -/
def attendAll (p : AParams) (qs : List AQuery) (rho : Nat → Nat) :
    List (List AToken) → Nat → List Nat → List ARow → Nat → List ARow × List Nat × Nat
  | [], _, eo, rows, sat => (rows, eo, sat)
  | u :: rest, n, eo, rows, sat =>
    let eo' := raiseScales p.hdim u eo
    let r := attendUnit p qs rho u n eo eo' rows
    attendAll p qs rho rest (n + u.length) eo' r.1 (sat + r.2)

/-- A sepia log as FP32, within 2⁻¹⁶ of 2^(log / 1,024) (R166). -/
def sepiaLinear (l : Int) : Word :=
  withinOf 16 (.num false (powTwo (l % 1024).toNat) (l / 1024 - 64)) (Config.sepiaLinear l)

/-- The FP32 value of an element's sum and of ℓ (R161, R165): the linear sum acc × 2^(E_o − 145) and ℓ × 2^−18; in sepia
mode the positive less the negative log's linear form, at the same scale. -/
def ARow.elem (r : ARow) (p : AParams) (eo : List Nat) (k : Nat) : Word :=
  if p.sepia then
    let lin (o : Option Int) : Word := match o with | none => 0 | some l => sepiaLinear l
    f32add (lin (r.pos.getD k none)) (f32 ((ofF32 (lin (r.neg.getD k none))).neg))
  else f32 (.ofInt (r.acc.getD k 0) (((eo.getD (k / 32) 0 : Nat) : Int) - 145))

/-- ℓ as FP32 (R161). -/
def ARow.ellF (r : ARow) (p : AParams) : Word :=
  if p.sepia then (match r.ellL with | none => 0 | some l => sepiaLinear l) else f32 (.ofInt r.ell (-18))

/-- A FINAL element: acc / ℓ by FP32 division of the converted sums, then the exact scaling by 2^(E_o − 127) (R161). -/
def ARow.final (r : ARow) (p : AParams) (eo : List Nat) (k : Nat) : FVal :=
  if p.sepia then ofF32 (f32div (r.elem p eo k) (r.ellF p))
  else
    let q := f32div (f32 (.ofInt (r.acc.getD k 0) 0)) (f32 (.ofInt r.ell 0))
    (ofF32 q).scale (((eo.getD (k / 32) 0 : Nat) : Int) - 127)

/-- Whether a row is empty: ℓ = 0 (R161). -/
def ARow.empty (r : ARow) (p : AParams) : Bool := if p.sepia then r.ellL.isNone else r.ell == 0

/-- Bytes of one FINAL row (R159, R161): elements in OFMT, then the scales of a narrow one; clamps and non-finite
elements counted. -/
def finalRow (r : ARow) (p : AParams) (eo : List Nat) (ofmt fr : Nat) : Bytes × Nat × Nat :=
  let n := 32 * p.hdim
  if ofmt = 0x0C then
    (((List.range n).map (fun k => toLE 2 (if r.empty p then 0 else (bf16 (r.final p eo k)).toNat))).flatten, 0, 0)
  else if r.empty p then
    (packElems ofmt (List.replicate n 0) ++ List.replicate p.hdim 255, 0, 0)
  else
    let blks := (List.range p.hdim).map (fun j =>
      let xs := (List.range 32).map (fun k => r.final p eo (32 * j + k))
      narrowBlock ofmt (narrowShift ofmt 0 xs) xs (fr + 32 * j))
    ((blks.map (fun b => packElems ofmt b.codes)).flatten ++ blks.map (fun b => BitVec.ofNat 8 b.scale),
      (blks.map (fun b => b.clamps)).foldl (· + ·) 0, (blks.map (fun b => b.nonfinite)).foldl (· + ·) 0)

/-- Bytes of one PARTIAL row (R159, R161). -/
def partialRow (r : ARow) (p : AParams) (eo : List Nat) : Bytes :=
  toLE 4 (twos 32 r.mu) ++ toLE 4 (r.ellF p).toNat ++
    ((List.range (32 * p.hdim)).map (fun k => toLE 4 (r.elem p eo k).toNat)).flatten

/-- RECOMPUTE's 2^((y − 4,096 μ) / 4,096) / ℓ in BF16: one of the two neighbours of the exact value (R162). -/
def recomputeElem (y mu : Int) (ell : Word) : BitVec 16 :=
  let t := y - 4096 * mu
  let v := FVal.div (.num false (powFrac 12 (t % 4096).toNat) (max (t / 4096) (-1000) - 64)) (ofF32 ell)
  let r := bf16 v
  let up := Config.recomputeUp y mu ell
  if FVal.lt (ofBF16 r) v && up then r + 1 else if FVal.lt v (ofBF16 r) && !up then r - 1 else r

/-- Bytes of one RECOMPUTE row from its stored μ and ℓ (R159, R162). -/
def recomputeRow (p : AParams) (q : AQuery) (row : Nat) (mu : Int) (ell : Word) (toks : List AToken) : Bytes :=
  (toks.map (fun t =>
    if tokenValid p row t then
      let s := scoreOf p q t
      toLE 2 (recomputeElem (logWeight p s.1 s.2).1 mu ell).toNat
    else [0, 0])).flatten

/-- Least row bytes of the output (R159). -/
def attnRowBytes (omode ofmt hdim tokens : Nat) : Nat :=
  match omode with
  | 0 => 32 * hdim * elemBits ofmt / 8 + (if scaledFmt ofmt then hdim else 0)
  | 1 => 8 + 128 * hdim
  | _ => 2 * tokens

/-- Key or value record bytes of one token (R170): elements of 32 × HDIM in the format, at least one 64 B line. -/
def keyRecord (fmt hdim : Nat) : Nat := alignUp (32 * hdim * elemBits fmt / 8) 64

end Sys2Proof.Machine
end

