-- ==== Sys2Proof/Machine/Attn.lean ====
section
/-! DEFINITION. ATTN: its checks, what it reads, its issue and its end (R144 to R146, R151, R157 to R165). The arithmetic
stands in Machine/Attend. -/

namespace Sys2Proof.Machine

/-! ### Fields (R144) -/

namespace AttnF
def qfmt (o : Op) : Nat := fld o.d 10 4 0
def kfmt (o : Op) : Nat := fld o.d 11 4 0
def vfmt (o : Op) : Nat := fld o.d 12 4 0
def xtok (o : Op) : Bool := fbit o.d 12 5
def hdim (o : Op) : Nat := fld o.d 13 3 0
def rows (o : Op) : Nat := fld o.d 14 6 0
def gqa (o : Op) : Nat := fld o.d 15 6 0
def qhdl (o : Op) : Nat := fld o.d 16 15 0
def phdl (o : Op) : Nat := fld o.d 18 15 0
def xhdl (o : Op) : Nat := fld o.d 20 15 0
def npage (o : Op) : Nat := fld o.d 22 12 0
def qpos (o : Op) : Nat := fld o.d 24 31 0
def omode (o : Op) : Nat := fld o.d 28 1 0
def stats (o : Op) : Bool := fbit o.d 28 2
def ofmt (o : Op) : Nat := fld o.d 29 4 0
def pitch (o : Op) : Nat := 64 * fld o.d 38 15 0
def dest (o : Op) : Nat := fld o.d 40 31 0
def sdest (o : Op) : Nat := fld o.d 44 31 0
def whdl (o : Op) : Nat := fld o.d 48 15 0
def terms (o : Op) : List Nat := (List.range 6).map (fun i => fld o.d (32 + i) 7 0)
/-- The parameters of its arithmetic, on the linear path or in sepia mode. -/
def params (o : Op) (sepia : Bool) : AParams :=
  { qfmt := qfmt o, kfmt := kfmt o, vfmt := vfmt o, hdim := hdim o, rows := rows o, mask := fbit o.d 14 7, gqa := gqa o
    qpos := qpos o, cexp := signed 8 (fld o.d 30 7 0), cterms := terms o, sepia := sepia }
end AttnF

/-- End of the output when each row has `row` bytes (R159). -/
def attnEnd (o : Op) (row : Nat) : Nat := AttnF.dest o + AttnF.pitch o * (AttnF.rows o - 1) + row

/-- Checks of an ATTN that its bytes alone decide (R146). -/
def attnChecks (_ : State) (o : Op) : List Bad :=
  let d := o.d
  let h := AttnF.hdim o
  let r := AttnF.rows o
  let ofmts := match AttnF.omode o with | 0 => [0x04, 0x05, 0x07, 0x0C] | 1 => [0x0D] | _ => [0x0C]
  o.flagsZero 0 ++ needBits d 8 15 11 ++ needOk ([4, 7].contains (AttnF.qfmt o)) 10 ++ needBits d 10 7 5 ++
  needOk ([4, 5, 7].contains (AttnF.kfmt o) && (AttnF.kfmt o != 5 || AttnF.qfmt o == 4)) 11 ++ needBits d 11 7 5 ++
  needOk ([4, 5].contains (AttnF.vfmt o) && (AttnF.vfmt o == 5) == (AttnF.kfmt o == 5)) 12 ++ needBits d 12 7 6 ++
  needOk (decide (1 ≤ h) && decide (h ≤ 8)) 13 ++ needBits d 13 7 4 ++
  needOk (decide (1 ≤ r) && decide (r * h ≤ 64)) 14 ++
  needOk (AttnF.gqa o != 0 && r % AttnF.gqa o == 0) 15 ++ needBits d 15 7 7 ++
  refForm d 16 ++ refForm d 18 ++ (if AttnF.xtok o then refForm d 20 else []) ++
  needOk (decide (AttnF.npage o ≤ 4096) && (AttnF.xtok o || AttnF.npage o != 0)) 22 ++ needBits d 22 15 13 ++
  needOk (AttnF.omode o != 3) 28 ++ needBits d 28 7 3 ++ needOk (ofmts.contains (AttnF.ofmt o)) 29 ++ needBits d 29 7 5 ++
  needZero d [31] ++ ((List.range 6).flatMap (fun i => needBits d (32 + i) 6 6)) ++
  needOk ((AttnF.terms o).any (fun c => bit c 7)) 32 ++
  needOk (layoutOk (AttnF.kfmt o) (AttnF.vfmt o) h) 13 ++
  needOk (AttnF.dest o % 64 == 0 &&
    decide (attnEnd o (if AttnF.omode o = 2 then 0 else attnRowBytes (AttnF.omode o) (AttnF.ofmt o) h 0) ≤ 2 ^ 28)) 40 ++
  needOk (AttnF.sdest o % 8 == 0 && (!AttnF.stats o || decide (AttnF.sdest o + 8 * r ≤ 2 ^ 28))) 44 ++
  refForm d 48 ++ needZero d (byteRange 50 59)

/-- Acceptance: the ATTN waits at its core's issue point, with the page entries the Docent built for it, if it did. -/
def State.attnStart (pages : Option (List (Nat × Nat × Nat × Nat))) (s : State) (o : Op) : State :=
  let k := s.core o.core
  s.setCore o.core { k with waiting := k.waiting ++ [{ o with pages := pages }] }

def State.acceptAttn (s : State) (o : Origin) (d : Line64) : State :=
  s.accept (srcCore (fld d 8 10 0)) o d opAttn attnChecks (State.attnStart none)
/-- An ATTN of a step program whose page list the Docent builds (R186, R213). -/
def State.acceptAttnPages (s : State) (o : Origin) (d : Line64) (pages : List (Nat × Nat × Nat × Nat)) : State :=
  s.accept (srcCore (fld d 8 10 0)) o d opAttn attnChecks (State.attnStart (some pages))
/-- ATTN (R144). -/
def execAttn (o : Origin) (d : Line64) (s : State) : Host.Outcome State Fault Refusal := .next (s.acceptAttn o d)

/-! ### Issue (R115, R145, R146) -/

/-- Places of the parts of the current token in XHDL, and its bytes (R145): key elements, key scales, value elements,
value scales, each from an 8-byte boundary. -/
def tokenParts (o : Op) : Nat × Nat × Nat × Nat × Nat :=
  let kr := keyBytes (AttnF.kfmt o) (AttnF.hdim o)
  let h := AttnF.hdim o
  let a := alignUp kr 8
  let b := a + alignUp h 8
  let c := b + alignUp kr 8
  (0, a, b, c, c + h)

/-- Handles an ATTN uses with the bytes it uses of each (R145). -/
def attnHandles (o : Op) : List (Nat × Nat) :=
  (AttnF.qhdl o, 17 * AttnF.rows o * AttnF.hdim o) ::
    ((if o.pages.isSome then [] else [(AttnF.phdl o, 16 * AttnF.npage o)]) ++
      (if AttnF.xtok o then [(AttnF.xhdl o, (tokenParts o).2.2.2.2)] else []) ++ [(AttnF.whdl o, AttnF.rows o * 1152)])

/-- Page entries: PADDR, SADDR, TPOS, TCOUNT (R145). -/
def State.pageEntries (s : State) (o : Op) : List (Nat × Nat × Nat × Nat) :=
  match o.pages with
  | some l => l
  | none => (List.range (AttnF.npage o)).map (fun i =>
      let b := s.handleBytes o.core (AttnF.phdl o) (16 * i) 16
      (ofLE (slice b 0 4), ofLE (slice b 4 4), ofLE (slice b 8 4), ofLE (slice b 12 4)))

/-- Whether the page scan refuses an entry; reserved bits stand above TCOUNT (R146). -/
def pageBad (o : Op) (e : Nat × Nat × Nat × Nat) : Bool :=
  !(decide (e.1 < 2 ^ 28) && e.1 % 16384 == 0 && decide (e.2.1 < 2 ^ 28) && e.2.1 % 1024 == 0 &&
    decide (1 ≤ e.2.2.2) && decide (e.2.2.2 ≤ pageTokens (AttnF.kfmt o) (AttnF.hdim o)))

/-- Tokens an ATTN reads. -/
def State.attnTokens (s : State) (o : Op) : Nat :=
  (if AttnF.xtok o then 1 else 0) + ((s.pageEntries o).map (fun e => e.2.2.2)).foldl (· + ·) 0

/-- Scoreboard entries: reads of queries, page list and current token, and the work area as a write (R94, R145). DESIGN CHOICE:
the manual gives no number of entries for an ATTN; it enters one for each of its handles (log 105). -/
def State.attnEntries (s : State) (o : Op) : List SbEntry :=
  ((attnHandles o).filter (fun x => x.2 != 0)).flatMap (fun x =>
    s.sbRange o.core x.1 0 x.2 (x.1 == AttnF.whdl o) o.id)

/-- Refusals of an ATTN that do not rest on its page list (R92, R146, R533): a handle that is bad or too small and a pitch below
the row; an output that would leave the hall buffer outranks them. -/
def State.attnRefusal (s : State) (o : Op) : Option Done :=
  let row := attnRowBytes (AttnF.omode o) (AttnF.ofmt o) (AttnF.hdim o) 0
  verdict
    (needOk (decide (attnEnd o row ≤ 2 ^ 28)) 40 ++
      need ((attnHandles o).any (fun x => s.huseBad o.core x.1 o.gal 0 x.2)) .badHandle 16 ++
      need (decide (AttnF.pitch o < row)) .badHandle 38) 5

/-- Refusals of an ATTN by its page list, scanned as it issues (R146): what the scan finds, and a RECOMPUTE whose rows, as long as
the pages make them (R162), pass the pitch or the hall buffer. -/
def State.attnScanRefusal (s : State) (o : Op) : Option Done :=
  let row := attnRowBytes (AttnF.omode o) (AttnF.ofmt o) (AttnF.hdim o) (s.attnTokens o)
  verdict
    (needOk (!(s.pageEntries o).any (pageBad o)) 18 ++ needOk (decide (attnEnd o row ≤ 2 ^ 28)) 40 ++
      need (decide (AttnF.pitch o < row)) .badHandle 38) 5

/-- What the issue point makes of an ATTN: its page list is read only once no earlier write overlaps it (R95, R146). -/
def State.attnVerdict (s : State) (o : Op) : Verdict :=
  if (s.core o.core).switching then .wait 0
  else match s.attnRefusal o with
    | some x => .refuse x
    | none =>
      if !(s.core o.core).sbFree (s.attnEntries o) then .wait 1
      else match s.attnScanRefusal o with
        | some x => .refuse x
        | none => .go

/-- The scan of an ATTN's page list (R146), with the words in error it meets; none where the Docent built the list. Whether one had
a double-bit error (R84). -/
def State.scanPages (s : State) (o : Op) : State × Bool :=
  if o.pages.isSome then (s, false)
  else s.noteScratch o.core (64 * (s.href o.core (AttnF.phdl o)).base) (16 * AttnF.npage o)

/-- Issue of an ATTN: its handles count it, its ranges stand in the scoreboard, its page list is scanned, and the path it takes is
settled (R146, R164, R413). -/
def State.issueAttn (s : State) (o : Op) : State :=
  let es := s.attnEntries o
  let sc := s.scanPages o
  let s1 := ((attnHandles o).map Prod.fst).foldl (fun s r => s.useHandle o.core r true) sc.1
  let k := s1.core o.core
  let run : AttnRun := { op := o, sepia := k.fenceVal != 0, noScore := k.fenceScore == BitVec.allOnes 16
                         pages := s.pageEntries o, status := statusIf sc.2 .arrayUe }
  let s2 := ((s1.setCore o.core { k with waiting := k.waiting.filter (fun p => p.id != o.id)
                                         scoreboard := k.scoreboard ++ es
                                         attns := k.attns ++ [run] }).issueWaits o).opEvent (srcCore o.core) 1 o .ok
  if k.attns.isEmpty then s2.opEvent (srcCore o.core) 2 o .ok else s2

/-! ### What it reads -/

/-- Blocks of 32 codes of a record. -/
def recordBlocks (fmt hdim : Nat) (b : Bytes) : List (List Nat) :=
  (List.range hdim).map (fun j => laneCodes fmt b (4 * elemBits fmt * j) 32)

/-- The query of each row (R145). -/
def attnQueries (o : Op) (b : Bytes) : List AQuery :=
  let h := AttnF.hdim o
  let r := AttnF.rows o
  (List.range r).map (fun i =>
    { codes := (List.range h).map (fun j => laneCodes 4 b (16 * (i * h + j)) 32)
      scales := (List.range h).map (fun j => (b.getD (16 * r * h + i * h + j) 0).toNat) })

/-- The current token of XHDL, at the last query token's position (R145, R151). -/
def attnCurrent (o : Op) (b : Bytes) : AToken :=
  let p := tokenParts o
  let h := AttnF.hdim o
  { pos := ((AttnF.qpos o : Nat) : Int) + (AttnF.rows o / AttnF.gqa o : Nat) - 1, lost := false
    keys := recordBlocks (AttnF.kfmt o) h (b.drop p.1), kscale := (slice b p.2.1 h).map BitVec.toNat
    vals := recordBlocks (AttnF.vfmt o) h (b.drop p.2.2.1), vscale := (slice b p.2.2.2.1 h).map BitVec.toNat }

/-- The tokens of one page (R171). A lost scale burst loses every token of the page, a lost key or value burst the token
it holds (R163); RECOMPUTE reads no values (R162). -/
def attnPage (rd : Nat → Option Byte) (o : Op) (e : Nat × Nat × Nat × Nat) : List AToken :=
  let h := AttnF.hdim o
  let kr := keyBytes (AttnF.kfmt o) h
  let scaleLost := (firstLost rd e.2.1 (2 * h * e.2.2.2)).isSome
  let values := AttnF.omode o != 2
  (List.range e.2.2.2).map (fun t =>
    let ka := e.1 + kr * t
    let va := e.1 + 8192 + kr * t
    let sc := (readZ rd (e.2.1 + 2 * h * t) (2 * h)).map BitVec.toNat
    { pos := ((e.2.2.1 + t : Nat) : Int)
      lost := scaleLost || (firstLost rd ka kr).isSome || (values && (firstLost rd va kr).isSome)
      keys := recordBlocks (AttnF.kfmt o) h (readZ rd ka kr), kscale := sc.take h
      vals := if values then recordBlocks (AttnF.vfmt o) h (readZ rd va kr) else [], vscale := sc.drop h })

/-- The channel ranges of one page in the order they are read (R157, R158). -/
def attnRanges (o : Op) (e : Nat × Nat × Nat × Nat) : List (Nat × Nat) :=
  let h := AttnF.hdim o
  let kr := keyBytes (AttnF.kfmt o) h
  [(e.2.1, 2 * h * e.2.2.2), (e.1, kr * e.2.2.2)] ++
    (if AttnF.omode o = 2 then [] else [(e.1 + 8192, kr * e.2.2.2)])

/-! ### End -/

/-- Take an ATTN off its core: handle counts, scoreboard, Carmine credit but for a RECOMPUTE (R162); the next one starts. -/
def State.attnLeave (s : State) (o : Op) : State :=
  let s1 := ((attnHandles o).map Prod.fst).foldl (fun s r => s.useHandle o.core r false) s
  let s2 := s1.sbLeave o.core o.id
  let s2 := if AttnF.omode o = 2 then s2 else s2.chargeTile o
  let k := s2.core o.core
  let s3 := s2.setCore o.core { k with attns := k.attns.drop 1 }
  match (k.attns.drop 1).head? with
  | none => s3
  | some a => s3.opEvent (srcCore o.core) 2 a.op .ok

/-- Core unit and place of a residue mismatch (R164, R411). -/
def State.attnFault (s : State) (o : Op) (f : AttnFault) : State :=
  match f with
  | .score g row col => s.residueFault o.core (unitScore g.val) false row col o.opcode
  | .value col row => s.residueFault o.core (unitVal col.val) false row col.val o.opcode

/-- Row statistics at SDEST: μ and ℓ (R159). -/
def rowStats (rows : List ARow) (p : AParams) : Bytes :=
  (rows.map (fun r => toLE 4 (twos 32 r.mu) ++ toLE 4 (r.ellF p).toNat)).flatten

/-- Write rows at the output's pitch. -/
def State.writeRows (s : State) (dest pitch : Nat) (rows : List Bytes) : State × Bool :=
  s.putRuns ((rows.zip (List.range rows.length)).map (fun x => (dest + pitch * x.2, x.1)))

/-- Hall-buffer bytes, those past its end as free values. -/
def State.hallBytes (s : State) (a n : Nat) : Bytes :=
  (List.range n).map (fun i =>
    if 2 ^ 28 ≤ a + i then BitVec.ofNat 8 (Config.freeNat (s.free + i)) else (s.readHall (a + i) 1).headD 0)

/-- Clk of value terms in sepia mode, four times R158's value time, on the score groups not fenced (R158, R166, R413). -/
def sepiaClk (p : AParams) (groups : Nat) (counts : List Nat) : Nat :=
  (counts.map (fun t => cdiv (4 * 16 * cdiv (p.rows * t * p.hdim) 16) groups)).foldl (· + ·) 0

/-- What the forward pass of an ATTN comes to: its output rows and statistics, how many free values it draws and probabilities
it quantises, and what its counters count. -/
structure AttnOut where
  rows : List Bytes
  stats : Bytes
  drawn : Nat
  probs : Nat
  saturated : Nat
  empties : Nat
  clamped : Nat
  nonfinite : Nat
  deriving DecidableEq, Repr

/-- Sequence number a generator of a core stands at in the current beat, 0 when the beat is new (R114). -/
def State.genSeq (s : State) (core g : Nat) : Nat :=
  let k := s.core core
  if k.genBeat = s.beat then k.genSeq.getD g 0 else 0

/-- The 16 bits of probability `i` of an ATTN: generators 0 and 1 of its core in alternation (R114, R153). DESIGN CHOICE: a
generator's 64 bits serve four probabilities, lowest bits first, and every pair of a token and a row takes one probability,
row by row within a token (log 96). -/
def State.rhoAt (s : State) (core i : Nat) : Nat :=
  let j := i / 2
  bits (Config.coreGenerator s.sec.genKey s.beat core (i % 2) (s.genSeq core (i % 2) + j / 4)).toNat
    (16 * (j % 4) + 15) (16 * (j % 4))

/-- Generators 0 and 1 of a core have supplied `n` probabilities (R114, R153). -/
def State.genTaken (s : State) (core n : Nat) : State :=
  let w (g : Nat) : Nat := s.genSeq core g + (if g < 2 then cdiv (cdiv n 2) 4 else 0)
  s.setCore core { s.core core with genBeat := s.beat, genSeq := (List.range 4).map w }

/-- The rows of a forward pass, with the free values that follow the state's. -/
def State.attnRows (s : State) (o : Op) (p : AParams) (qs : List AQuery) (units : List (List AToken)) : AttnOut :=
  let fr := s.free
  let tokens := (units.map List.length).foldl (· + ·) 0
  let zero : ARow := { acc := List.replicate (32 * p.hdim) 0, pos := List.replicate (32 * p.hdim) none
                       neg := List.replicate (32 * p.hdim) none }
  let r := attendAll p qs (s.rhoAt o.core) units 0 (List.replicate p.hdim 0) (List.replicate p.rows zero) 0
  let outs := (r.1.zip (List.range p.rows)).map (fun x =>
    if AttnF.omode o = 0 then finalRow x.1 p r.2.1 (AttnF.ofmt o) (fr + 32 * p.hdim * x.2)
    else (partialRow x.1 p r.2.1, 0, 0))
  { rows := outs.map Prod.fst, stats := rowStats r.1 p, drawn := 32 * p.hdim * p.rows, probs := tokens * p.rows
    saturated := r.2.2, empties := if AttnF.omode o = 0 then (r.1.filter (fun x => x.empty p)).length else 0
    clamped := (outs.map (fun x => x.2.1)).foldl (· + ·) 0, nonfinite := (outs.map (fun x => x.2.2)).foldl (· + ·) 0 }

/-- The output of a forward ATTN: rows, statistics and counts (R159, R161). Answers whether a write met a double-bit error. -/
def State.attnForward (s : State) (o : Op) (p : AParams) (qs : List AQuery) (units : List (List AToken)) : State × Bool :=
  let r := s.attnRows o p qs units
  let s1 := (((s.draw r.drawn).genTaken o.core r.probs).count .attSat o.core r.saturated).count .attEmptyRow o.core r.empties
  let s2 := (s1.count .scaleClamp 0 r.clamped).count .nonfiniteOut 0 r.nonfinite
  let groups := 16 - popcount 16 (s.core o.core).fenceScore.toNat
  let s3 := if p.sepia then s2.count .attSepiaClk o.core (sepiaClk p groups (units.map List.length)) else s2
  let s4 := s3.writeRows (AttnF.dest o) (AttnF.pitch o) r.rows
  if AttnF.stats o then
    let s5 := s4.1.putHall (AttnF.sdest o) r.stats
    (s5.1, s4.2 || s5.2)
  else s4

/-- The output of RECOMPUTE, from the stored statistics (R162). Answers whether a statistic read as zero for an error, or a write
met one. -/
def State.attnRecompute (s : State) (o : Op) (p : AParams) (qs : List AQuery) (units : List (List AToken)) : State × Bool :=
  let toks := units.flatten
  let n := s.noteHall (AttnF.sdest o) (8 * p.rows)
  let b := s.hallBytes (AttnF.sdest o) (8 * p.rows)
  let rows := (qs.zip (List.range p.rows)).map (fun x =>
    recomputeRow p x.1 x.2 (signed 32 (ofLE (slice b (8 * x.2) 4))) (BitVec.ofNat 32 (ofLE (slice b (8 * x.2 + 4) 4))) toks)
  let sat := ((qs.zip (List.range p.rows)).map (fun x => (toks.filter (fun t =>
    tokenValid p x.2 t && (let sc := scoreOf p x.1 t; (logWeight p sc.1 sc.2).2))).length)).foldl (· + ·) 0
  let w := ((n.1.draw (8 * p.rows)).count .attSat o.core sat).writeRows (AttnF.dest o) (AttnF.pitch o) rows
  (w.1, n.2 || w.2)

/-- The reads of an ATTN's pages through the slice; whether a cached word had a double-bit error (R84). -/
def State.readPages (s : State) (core : Nat) (gal : Option Nat) (ranges : List (Nat × Nat)) : State × Bool :=
  ranges.foldl (fun (acc : State × Bool) x =>
    ((acc.1.missTraffic core gal x.1 x.2).readLines core .score rdScore x.1 x.2, acc.2 || acc.1.cacheDouble core x.1 x.2)) (s, false)

/-- End of an ATTN (R157 to R165): it reads its queries, current token and pages, writes its output, and leaves its work
area with bytes the manual does not state. With every score group fenced it reads nothing (R413). -/
def State.endAttn (s : State) (a : AttnRun) (faults : List AttnFault) : State :=
  let o := a.op
  if a.noScore then (s.attnLeave o).complete (srcCore o.core) o { st := .residueFault }
  else
    let p := AttnF.params o a.sepia
    let note (s : State) (ref n : Nat) : State × Bool := s.noteScratch o.core (64 * (s.href o.core ref).base) n
    let nq := 17 * p.rows * p.hdim
    let r1 := note s (AttnF.qhdl o) nq
    let r2 := if AttnF.xtok o then note r1.1 (AttnF.xhdl o) (tokenParts o).2.2.2.2 else (r1.1, false)
    let qs := attnQueries o (s.handleBytes o.core (AttnF.qhdl o) 0 nq)
    let cur := if AttnF.xtok o then
        [[attnCurrent o (s.handleBytes o.core (AttnF.xhdl o) 0 (tokenParts o).2.2.2.2)]] else []
    let es := a.pages
    let pages := es.map (attnPage (s.cacheByte o.core) o)
    let units := cur ++ pages
    let lost := ((units.flatten).filter (fun t => t.lost)).length
    let r3 := r2.1.readPages o.core o.charged (es.flatMap (attnRanges o))
    let s4 := r3.1.count .attTokenDrop o.core lost
    let r5 := if AttnF.omode o = 2 then s4.attnRecompute o p qs units else s4.attnForward o p qs units
    let w := r5.1.freeBytes (p.rows * 1152)
    let s6 := (w.1.writeScratch o.core (64 * (s.href o.core (AttnF.whdl o)).base) w.2).1
    let mism := faults.filter (fun f => match f with
      | .score _ row _ => decide (row < p.rows)
      | .value _ row => decide (row < p.rows))
    let s7 := mism.foldl (fun s f => s.attnFault o f) s6
    let st := worst [a.status, statusIf (lost != 0 || r1.2 || r2.2 || r3.2 || r5.2) .arrayUe, statusIf (!mism.isEmpty) .residueFault]
    (s7.attnLeave o).complete (srcCore o.core) o { st := st }

/-- ATTN_COMPLETE: the core's running ATTN ends (R157, R164). -/
def execAttnComplete (core : CoreNo) (ups : List Upset) (faults : List AttnFault) (s : State) :
    Host.Outcome State Fault Refusal :=
  let s := s.upsets ups
  match (s.core core.val).attns.head? with
  | none => .next s
  | some a =>
    if !s.running then .next s
    else if !a.pages.isEmpty && s.chanShut core.val a.op.charged then
      .next (s.bwHold (srcCore core.val) core.val a.op.identity a.op.charged)
    else .next (((s.drain core.val).waitEnd (srcCore core.val) 8 a.op.identity none).endAttn a faults)

/-! ### The issue point (R96, R109, R115, R217, R289, R415) -/

/-- What the issue point makes of a tile or an ATTN. -/
def State.tileLikeVerdict (s : State) (o : Op) : Verdict :=
  if o.opcode == opAttn then s.attnVerdict o else s.tileVerdict o
def State.issueTileLike (s : State) (o : Op) : State := if o.opcode == opAttn then s.issueAttn o else s.issueTile o

/-- Refuse an operation at its core's issue point: an ATTN that its page list refuses has had it scanned (R146). -/
def State.refuseAtIssue (s : State) (o : Op) (x : Done) : State :=
  let k := s.core o.core
  let s1 := (s.setCore o.core { k with waiting := k.waiting.filter (fun p => p.id != o.id) }).issueWaits o
  let s2 := if o.opcode == opAttn && (s.attnRefusal o).isNone then (s1.scanPages o).1 else s1
  s2.complete (srcCore o.core) o x

/-- Whether a tile or ATTN may leave the issue point now: it issues, or it is refused. -/
def State.tileReady (s : State) (o : Op) : Bool :=
  match s.tileLikeVerdict o with
  | .wait _ => false
  | .refuse _ => true
  | .go => s.mayQueue o

/-- The tiles at a core's issue point that would go on with an open chain. -/
def State.joining (s : State) (c : Nat) : List Op :=
  (s.core c).waiting.filter (fun p => p.tileLike && p.opcode != opAttn && p.joins && (s.chainTag c p.chid).isSome)

/-- The tile at the head of each class (R217): the Carmine one of the earliest beat while the core's credit is positive, the oldest
one of any other class; with the tile of the chain that keeps one waiting behind it (R109). -/
def State.issueHeads (s : State) (c : Nat) : List (Op × Option Op) :=
  let k := s.core c
  let ts := k.waiting.filter Op.tileLike
  let carmine := if 0 < k.credit then minBy (fun (o : Op) => o.beat) (ts.filter (fun o => o.cls == 0)) else none
  ((carmine :: [1, 2, 3].map (fun n => ts.find? (fun o => o.cls == n))).filterMap id).map (fun o => (o, s.heldChainTile o))

/-- The tile an issue point turns to (R217): the next one of a Carmine chain that is open, so that no other comes between, else that
of the classes whose head is ready; while the core switches to a spare, one that goes on with an open chain (R415). -/
def State.nextTile (s : State) (c : Nat) : State × Option Op :=
  match (s.joining c).find? (fun o => o.cls == 0) with
  | some o => (s, if s.tileReady o then some o else none)
  | none =>
    if (s.core c).switching then (s, (s.joining c).find? s.tileReady)
    else
      let r := s.classPick (fun (x : Op × Op) => x.1.cls) ((s.issueHeads c).filterMap (fun x =>
        if s.tileReady x.1 then some (x.1, x.1) else (x.2.filter s.tileReady).map (fun p => (x.1, p))))
      (r.1, r.2.map Prod.snd)

/-- The waits of R460 that an attempt at a core's issue point meets: a tile or ATTN by its verdict, a DMA operation by the
scoreboard. -/
def State.beginWaits (s : State) (c : Nat) (tiles : List Op) : State :=
  let s1 := tiles.foldl (fun s o => match s.tileLikeVerdict o with
    | .wait cause => if cause = 0 then s else s.waitBegin (srcCore c) cause o.identity
    | _ => s) s
  ((s.core c).waiting.filter (fun o => !o.tileLike && !(s.core c).sbFree ((s.dmaEntries o).map Prod.snd))).foldl (fun s o =>
    s.waitBegin (srcCore c) 1 o.identity) s1

/-- CORE_ISSUE: the tile that R217 names issues or is refused; a DMA operation issues when there is none, or when it arrived before
that one (R96, R115, R289). -/
def execCoreIssue (core : CoreNo) (s : State) : Host.Outcome State Fault Refusal :=
  let c := core.val
  if !s.running then .next s
  else
    let s0 := s.beginWaits c (s.joining c ++ (s.issueHeads c).map Prod.fst)
    let r := s0.nextTile c
    let s1 := r.1
    let k := s1.core c
    let dma := k.waiting.find? (fun o => !o.tileLike && s1.dmaMayIssue c o)
    let pos (o : Op) : Nat := k.waiting.findIdx (fun p => p.id == o.id)
    let go (o : Op) : State := match s1.tileLikeVerdict o with
      | .refuse x => s1.refuseAtIssue o x
      | _ => s1.issueTileLike o
    match r.2, dma with
    | none, none => .next s1
    | some o, none => .next (go o)
    | none, some q => .next (s1.issueDma c q)
    | some o, some q => .next (if pos q < pos o then s1.issueDma c q else go o)

end Sys2Proof.Machine
end

