-- ==== Sys2Proof/Machine/Catalogue.lean ====
section
/-! DEFINITION. The Catalogue: snapshots, ring dumps, freezing, marks, the watchdog and the trace buffer (R451 to R471); and
the committed values that some writes ask for (R484). -/

namespace Sys2Proof.Machine

/-! ### Committed values (R483, R484) -/

/-- Bits of a register that belong to the commit set. -/
def commitMask (x : RegSpec) : Nat := x.maskOf (fun f => f.commit)

/-- The words of the commit string (R483). -/
def State.commitWords (s : State) : List Word :=
  commitSet.map (fun e => BitVec.ofNat 32 (s.written e.1.reg e.2 &&& commitMask e.1))

/-- Whether a field of a register for which `p` holds is uncommitted (R484). -/
def State.uncommitted (s : State) (p : Reg → List Nat → Bool) : Bool :=
  match s.ctl.committed with
  | none => true
  | some ws => ((commitSet.zip ws).zip s.commitWords).any (fun x => p x.1.1.1.reg x.1.1.2 && x.1.2 != x.2)

/-! ### Snapshots (R453 to R455) -/

/-- Counters a function's snapshot holds. -/
def snapCounters (func : Nat) : List (Ctr × String × Nat) :=
  if func = 0 then ctrTable else ctrTable.filter (fun x => x.2.2 == 4)

/-- Scope instances and value slots of a scope in a function's snapshot: a VF's holds its own gallery alone. -/
def snapInst (func scope : Nat) : Nat := if func = 0 then scopeCount scope else 1

/-- First value byte of a scope's area (R455). -/
def scopeBase (func scope : Nat) : Nat :=
  if func = 0 then ((List.range scope).map (fun k => 8 * scopeCount k * scopeSlots k)).foldl (· + ·) 0 else 0

/-- Bytes of the value area. -/
def valueBytes (func : Nat) : Nat := if func = 0 then scopeBase 0 7 else 8 * scopeSlots 4

/-- OFFSET of a counter: behind the counters of its scope that the directory lists before it (R454). -/
def ctrOffset (func : Nat) (c : Ctr) : Nat :=
  let before := ((snapCounters func).takeWhile (fun x => x.1 != c)).filter (fun x => x.2.2 == c.scope)
  scopeBase func c.scope + 8 * snapInst func c.scope * (before.map (fun x => x.1.sub)).foldl (· + ·) 0

/-- CAT_SNAPLEN of a function (R471). -/
def snapLen (func : Nat) : Nat := 64 + 24 * (snapCounters func).length + valueBytes func + 8

/-- A directory entry (R454). -/
def dirEntry (func : Nat) (x : Ctr × String × Nat) : Bytes :=
  slice (x.2.1.toList.map (fun c => BitVec.ofNat 8 c.toNat)) 0 16 ++
    toLE 1 (x.2.2 + if x.1.level then 16 else 0) ++ toLE 1 x.1.sub ++ toLE 2 0 ++ toLE 4 (ctrOffset func x.1)

/-- The values of a scope's slots: `at_` gives the value of a counter, instance and sub-instance. -/
def scopeValues (func scope : Nat) (at_ : Ctr → Nat → Nat → Nat) : Bytes :=
  let n := snapInst func scope
  let used := ((snapCounters func).filter (fun x => x.2.2 == scope)).flatMap (fun x =>
    (List.range n).flatMap (fun i => (List.range x.1.sub).flatMap (fun j => toLE 8 (at_ x.1 i j))))
  slice used 0 (8 * n * scopeSlots scope)

/-- A snapshot's bytes: SEQ is the number it takes as it completes; slots of groups absent from the map in force read
zero. -/
def snapshotBytes (func seq beat groups : Nat) (counters : Tbl Nat) : Bytes :=
  let dir := snapCounters func
  let value (c : Ctr) (i j : Nat) : Nat :=
    if c.scope = 5 ∧ groups ≤ i then 0 else Tbl.look counters (c.key (if func = 0 then i else func) j) 0
  let scopes := if func = 0 then List.range 7 else [4]
  toLE 4 seq ++ toLE 4 (snapLen func) ++ toLE 8 beat ++ toLE 2 dir.length ++ toLE 1 (if func = 0 then 0x3F else func) ++
    toLE 1 0 ++ toLE 4 (64 + 24 * dir.length) ++ List.replicate 40 0 ++ (dir.map (dirEntry func)).flatten ++
    (scopes.map (fun k => scopeValues func k value)).flatten ++ toLE 4 seq ++ toLE 4 0

/-- A function's snapshot state. -/
def State.snap (s : State) (func : Nat) : Snap := Tbl.look s.cat.snaps func {}
def State.setSnap (s : State) (func : Nat) (x : Snap) : State :=
  { s with cat := { s.cat with snaps := Tbl.put s.cat.snaps func x {} } }

/-- SNAPSHOT_LATCH: the counters of every snapshot asked for latch, before any other action of a boundary (R453). -/
def State.latchSnaps (s : State) : State :=
  { s with cat := { s.cat with snaps := s.cat.snaps.map (fun e =>
      if e.2.wanted then (e.1, { e.2 with wanted := false, latched := some s.cat.counters, beat := s.beat }) else e) } }

/-- Address of a function's snapshot buffer. -/
def State.snapAddr (s : State) (func : Nat) : Nat :=
  if func = 0 then s.written .catSnapLo [] + s.written .catSnapHi [] * 2 ^ 32
  else (Tbl.look s.vfRegs (func * 2 ^ 20 + 0x40000) 0).toNat + (Tbl.look s.vfRegs (func * 2 ^ 20 + 0x40004) 0).toNat * 2 ^ 32

/-- A write of CAT_SNAPCMD.GO by a function: refused while BUSY (R453). With the beat unit OFF no boundary comes, and the
counters latch at once. -/
def State.takeSnapshot (s : State) (func : Nat) : State :=
  let x := s.snap func
  if x.busy then s.refuseWrite func (if func = 0 then regOff .catSnapCmd [] else 0x40008) .lockedField
  else
    let s1 := s.setSnap func { x with busy := true, wanted := true }
    if s1.beatOff then s1.latchSnaps else s1

/-- SNAPSHOT (R453). -/
def execSnapshot (func : GalNo) (word : Word) (s : State) : Host.Outcome State Fault Refusal :=
  .next (if s.barUp && word.getLsbD 0 then s.takeSnapshot func.val else s)

/-- SNAPSHOT_DONE: the snapshot is written to the host; SEQ increments and BUSY clears (R453). -/
def execSnapshotDone (func : GalNo) (s : State) : Host.Outcome State Fault Refusal :=
  let x := s.snap func.val
  match x.latched with
  | none => .next s
  | some c =>
    if !s.alive || !x.busy then .next s
    else
      let groups := (s.fab.carMap.map (fun m => m.groups.length)).getD 0
      let b := snapshotBytes func.val (x.seq + 1).toNat x.beat groups c
      .next ((s.hostWrite func.val (s.snapAddr func.val) b).setSnap func.val { x with busy := false, latched := none, seq := x.seq + 1 })

/-! ### Event rings (R461 to R463) -/

/-- Release the rings; the watchdog wakes (R461, R462). -/
def State.thawRings (s : State) : State := { s with cat := { s.cat with frozen := false, wdQuiet := false } }

/-- Rings that are to be dumped freeze at a boundary unless they are frozen (R463). -/
def State.freezeForDump (s : State) : State :=
  if s.cat.dumpBusy && !s.cat.frozen then
    let s1 := s.freezeRings 0
    { s1 with cat := { s1.cat with dumpFroze := true } }
  else s

/-- The SOURCE values of the rings in ascending order (R405, R456). -/
def ringUnits : List Nat :=
  (List.range 2048).map srcCore ++ (List.range 2048).map srcChan ++ (List.range 8).map srcPlinth ++
    (List.range 12).map srcHub ++ (List.range 32).map srcPort

/-- One ring of a dump: 1,040 B (R463). -/
def ringBytes (unit : Nat) (r : EvRing) : Bytes :=
  toLE 2 unit ++ toLE 2 0 ++ toLE 4 r.widx ++ toLE 4 r.lost ++ toLE 4 0 ++ slice ((r.recs.map lineBytes).flatten) 0 1024

/-- A write of CAT_RDCMD (R461, R463, R471): OP 1 dumps, refused while BUSY; 2 freezes and 4 thaws. -/
def State.readCommand (s : State) (func op : Nat) : State :=
  match op with
  | 1 =>
    if s.cat.dumpBusy then s.refuseWrite func (regOff .catRdCmd []) .lockedField
    else
      let s1 : State := { s with cat := { s.cat with dumpBusy := true, dumpFroze := false } }
      if s1.beatOff then s1.freezeForDump else s1
  | 2 => s.freezeRings 0
  | 4 => s.thawRings
  | _ => s

/-- A write of CAT_RDCMD with a given OP. -/
def State.readCommandIs (s : State) (func : GalNo) (word : Word) (op : Nat) : State :=
  if s.pfWrite func && bits word.toNat 2 0 == op then s.readCommand func.val op else s

/-- DUMP (R463). -/
def execDump (func : GalNo) (word : Word) (s : State) : Host.Outcome State Fault Refusal := .next (s.readCommandIs func word 1)
/-- FREEZE (R461). -/
def execFreeze (func : GalNo) (word : Word) (s : State) : Host.Outcome State Fault Refusal := .next (s.readCommandIs func word 2)
/-- THAW (R461). -/
def execThaw (func : GalNo) (word : Word) (s : State) : Host.Outcome State Fault Refusal := .next (s.readCommandIs func word 4)

/-- DUMP_DONE: every ring has been written; rings that froze for it thaw (R463). -/
def execDumpDone (s : State) : Host.Outcome State Fault Refusal :=
  if !s.alive || !s.cat.dumpBusy || !s.cat.frozen then .next s
  else
    let b := (ringUnits.map (fun u => ringBytes u (Tbl.look s.cat.rings u {}))).flatten
    let s1 := s.hostWrite 0 (s.written .catRdLo [] + s.written .catRdHi [] * 2 ^ 32) b
    let s2 := if s1.cat.dumpFroze then s1.thawRings else s1
    .next { s2 with cat := { s2.cat with dumpBusy := false, dumpFroze := false } }

/-- A write of CAT_MARK: a MARK record of the host interface unit (R458). -/
def State.mark (s : State) (word : Word) : State := s.event (srcHub hubHost) 0x0A 0 0 word.toNat

/-- MARK (R458). -/
def execMark (func : GalNo) (word : Word) (s : State) : Host.Outcome State Fault Refusal :=
  .next (if s.pfWrite func then s.mark word else s)

/-- Whether a unit's oldest started operation is the one of this identity and has passed BEATS boundaries (R462). -/
def State.watchdogDue (s : State) (unit identity : Nat) : Bool :=
  let n := s.field .catWdog [] 15 0
  n != 0 && !s.cat.wdQuiet && (match s.cat.started.find? (fun x => x.unit == unit) with
    | none => false
    | some x => x.identity == identity && decide (x.beat + n ≤ s.beat))

/-- WATCHDOG_EXPIRY: every ring freezes, an incident names the unit and its operation, and the watchdog stays quiet until
the rings are thawed (R462). -/
def execWatchdogExpiry (source : BitVec 16) (identity : BitVec 64) (s : State) : Host.Outcome State Fault Refusal :=
  if !s.running || !s.watchdogDue source.toNat identity.toNat then .next s
  else
    let s1 := (s.freezeRings 2).incident clsControl 0x7F .ok source.toNat identity.toNat 0
    .next { s1 with cat := { s1.cat with wdQuiet := true } }

/-! ### The trace buffer (R464 to R468) -/

/-- Records the buffer holds. -/
def State.traceSize (s : State) : Nat := 2048 * s.field .catTrSize [] 10 0

/-- A trace record's bytes (R464). -/
def traceBytes (r : TraceRec) : Bytes :=
  lineBytes r.rec16 ++ toLE 2 r.unit ++ toLE 2 0 ++ toLE 4 r.beatHi ++ toLE 4 r.fine ++ toLE 4 0

/-- Put one record into the buffer at WPTR. -/
def State.putTrace (s : State) (r : TraceRec) : State :=
  let t := s.cat.trace
  let s1 := s.writeHall (s.field .catTrBase [] 27 16 * 65536 + 32 * t.wptr) (traceBytes r)
  let last := decide (s.traceSize ≤ t.wptr + 1)
  { s1 with cat := { s1.cat with trace := { t with
      wptr := if last then 0 else t.wptr + 1, wrap := t.wrap || last, after := if t.st == .triggered then t.after + 1 else t.after } } }

/-- Stop the trace; what waits in its FIFOs is neither written nor counted (R467). -/
def State.stopTrace (s : State) (full : Bool) : State :=
  { s with cat := { s.cat with trace := { s.cat.trace with st := .stopped, fullstop := s.cat.trace.fullstop || full, fifos := [], gap := 0 } } }

/-- Whether the buffer is written circularly. -/
def State.circular (s : State) : Bool := !s.flag .catTrCtrl [] 0

/-- End a START capture that has its records, or whose buffer is full (R468). -/
def State.settleTrace (s : State) : State :=
  let t := s.cat.trace
  let post := s.field .catTrPost [] 21 0
  if t.st == .triggered && !s.circular && (if post = 0 then t.wrap else decide (post ≤ t.after)) then s.stopTrace false else s

/-- Write a record that follows the trigger, or any of a circular trace: one that would reach the triggering record stops
the trace (R468). -/
def State.followTrace (s : State) (r : TraceRec) : State :=
  let t := s.cat.trace
  if t.st == .stopped then s
  else if t.st == .triggered && s.circular && t.wptr == t.trigIdx && decide (0 < t.after) then s.stopTrace true
  else (s.putTrace r).settleTrace

/-- The trigger takes effect with its record, if it has one (R466, R468). -/
def State.fireTrigger (s : State) (r : Option TraceRec) : State :=
  let t := s.cat.trace
  let s1 : State := { s with cat := { s.cat with trace := { t with trigIdx := t.wptr } } }
  let s2 := match r with | none => s1 | some r => s1.putTrace r
  let s3 : State := { s2 with cat := { s2.cat with trace := { s2.cat.trace with st := .triggered, after := 0 } } }
  (if s3.flag .catTrCtrl [] 1 then s3.freezeRings 1 else s3).settleTrace

/-- A trigger met while TRIGGERED (R467). -/
def State.retrigger (s : State) : State :=
  { s with cat := { s.cat with trace := { s.cat.trace with retrig := (s.cat.trace.retrig + 1) % 2 ^ 32 } } }

/-- The GAP record that precedes the next record written after a run of drops (R465). -/
def State.writeGap (s : State) (r : TraceRec) : State :=
  let n := s.cat.trace.gap
  if n = 0 then s
  else
    let g : TraceRec := { r with rec16 := BitVec.ofNat 128 (bits r.rec16.toNat 31 0 + 0x0B * 2 ^ 32 + n * 2 ^ 64), fine := 0 }
    State.followTrace { s with cat := { s.cat with trace := { s.cat.trace with gap := 0 } } } g

/-- The hub takes in one record (R465, R466, R468). -/
def State.takeTrace (s : State) (r : TraceRec) : State :=
  match s.cat.trace.st with
  | .armed =>
    if r.trig then
      let s1 := if s.circular then s.writeGap r else s
      s1.fireTrigger (some r)
    else if s.circular then (s.writeGap r).followTrace r
    else s
  | .triggered =>
    let s1 := if r.trig then s.retrigger else s
    if r.keep then (s1.writeGap r).followTrace r else s1
  | _ => s

/-- TRACE_RECORD_WRITE: the hub takes the oldest record of one FIFO; which FIFO is a free value (R465). -/
def execTraceRecordWrite (s : State) : Host.Outcome State Fault Refusal :=
  let p := s.pick ((s.cat.trace.fifos.filter (fun e => !e.2.isEmpty)).map Prod.fst)
  match p.2 with
  | none => .next s
  | some f =>
    if !s.alive then .next s
    else match Tbl.look s.cat.trace.fifos f [] with
      | [] => .next s
      | r :: rest =>
        let s1 : State := { p.1 with cat := { p.1.cat with trace := { p.1.cat.trace with fifos := Tbl.put p.1.cat.trace.fifos f rest [] } } }
        .next (s1.takeTrace r)

/-- TRACE_RECORD_DROP: the oldest record of a FIFO has waited 2 µs; a triggering one is never dropped (R465, R466). -/
def execTraceRecordDrop (fifo : Fin 9) (s : State) : Host.Outcome State Fault Refusal :=
  let t := s.cat.trace
  match Tbl.look t.fifos fifo.val [] with
  | [] => .next s
  | r :: rest =>
    if !s.alive || (r.trig && t.st == .armed) then .next s
    else .next { s with cat := { s.cat with trace := { t with
      fifos := Tbl.put t.fifos fifo.val rest [], drop := min (t.drop + 1) (2 ^ 32 - 1), gap := t.gap + 1 } } }

/-- TRACE_CAPTURE_END: POST records have followed the triggering one and 2 µs have passed since its event (R468). -/
def execTraceCaptureEnd (s : State) : Host.Outcome State Fault Refusal :=
  let t := s.cat.trace
  if s.alive && t.st == .triggered && s.circular && decide (s.field .catTrPost [] 21 0 ≤ t.after) then .next (s.stopTrace false)
  else .next s

/-- A write of CAT_TRCMD (R466, R467, R484): OP 1 arms, 2 stops, 3 triggers. -/
def State.traceCommand (s : State) (func op : Nat) : State :=
  let t := s.cat.trace
  match op, t.st with
  | 1, .idle | 1, .stopped =>
    if s.uncommitted (fun r _ => r == .catTrBase || r == .catTrSize) || decide (s.traceSize < s.field .catTrPost [] 21 0 + 64) then
      s.refuseWrite func (regOff .catTrCmd []) .lockedField
    else { s with cat := { s.cat with trace := { t with st := .armed, wptr := 0, wrap := false, fullstop := false, after := 0, gap := 0, fifos := [] } } }
  | 2, .armed | 2, .triggered => s.stopTrace false
  | 3, .armed => s.fireTrigger none
  | 3, .triggered => s.retrigger
  | _, _ => s

/-- A write of CAT_TRCMD with a given OP. -/
def State.traceCommandIs (s : State) (func : GalNo) (word : Word) (op : Nat) : State :=
  if s.pfWrite func && bits word.toNat 1 0 == op then s.traceCommand func.val op else s

/-- ARM (R467). -/
def execArm (func : GalNo) (word : Word) (s : State) : Host.Outcome State Fault Refusal := .next (s.traceCommandIs func word 1)
/-- STOP (R467). -/
def execTraceStop (func : GalNo) (word : Word) (s : State) : Host.Outcome State Fault Refusal := .next (s.traceCommandIs func word 2)
/-- TRIGGER (R466). -/
def execTrigger (func : GalNo) (word : Word) (s : State) : Host.Outcome State Fault Refusal := .next (s.traceCommandIs func word 3)

/-- TRACE_BEAT_TRIGGER: the boundary of beat CAT_TRBEAT writes a MARK record of the beat unit as the triggering record
(R466). -/
def execTraceBeatTrigger (s : State) : Host.Outcome State Fault Refusal :=
  let b := s.written .catTrBeatLo [] + s.written .catTrBeatHi [] * 2 ^ 32
  if !s.alive || s.beatOff || b = 0 || b != s.beat then .next s
  else match s.cat.trace.st with
    | .armed =>
      let r := s.eventRec (srcHub hubBeat) 0x0A 0 0 0
      let x : TraceRec := { rec16 := r.2.1, unit := srcHub hubBeat, beatHi := bits s.beat 47 16, fine := 0, keep := true, trig := true }
      .next (r.1.takeTrace x)
    | .triggered => .next s.retrigger
    | _ => .next s

end Sys2Proof.Machine
end

