-- ==== Sys2Proof/Machine/Tiers.lean ====
section
/-! DEFINITION. Memory tiers (chapter 12): creating, accessioning, mapping, releasing, pinning, querying and migrating
objects, and the mover. -/

namespace Sys2Proof.Machine

/-! ### Fields of the object operations (R325 to R334) -/

/-- A first device address of `panels` panels at byte `at_`: bits [17:0] and [63:48] zero, its end within the space. -/
def daddrForm (d : Line64) (at_ panels : Nat) : List Bad :=
  needBits d at_ 63 48 ++ needBits d at_ 17 0 ++ needOk (decide (fld d at_ 47 0 + panels * 2 ^ 18 ≤ 2 ^ 48)) at_

/-- CBASE, PPC and T1OFS at bytes 24 to 31 (R326). -/
def placeForm (d : Line64) : List Bad :=
  needBits d 24 15 11 ++ needBits d 26 15 11 ++ needOk (decide (1 ≤ fld d 26 10 0) && decide (fld d 26 10 0 ≤ 1024)) 26 ++
  needBits d 28 31 28 ++ needBits d 28 17 0

/-- PANELS at byte 16. -/
def objPanels (d : Line64) : Nat := fld d 16 19 0

/-- A mapping by any address inside it, for the gallery of an operation (R332, R334). -/
def State.objMapping (s : State) (o : Op) : Option Mapping := s.mappingAt o.gal (fld o.d 8 47 0) false

/-- Limits of R324 on a new object and on a new mapping. -/
def State.limits (s : State) (gal : Nat) (object : Bool) : List Bad :=
  need (object && s.freeObj.isNone) .quotaExceeded 0 ++ need (decide (1024 ≤ (s.mapsOf gal).length)) .quotaExceeded 0

/-- Add a mapping. -/
def State.addMapping (s : State) (gal daddr panels obj : Nat) : State :=
  { s with tiers := { s.tiers with maps := s.tiers.maps ++ [{ gal := gal, daddr := daddr, panels := panels, obj := obj }] } }

/-! ### OBJ_CREATE (R326) -/

/-- The writable object an OBJ_CREATE describes. -/
def createdObj (o : Op) : Obj :=
  { accessioned := false, gal := o.gal, panels := objPanels o.d, placed := true, cbase := fld o.d 24 10 0
    ppc := fld o.d 26 10 0, t1ofs := fld o.d 28 27 0 }

/-- Checks of OBJ_CREATE. -/
def objCreateChecks (s : State) (o : Op) : List Bad :=
  let d := o.d
  let form := o.flagsZero 0 ++ daddrForm d 8 (objPanels d) ++ needBits d 16 31 20 ++ needOk (objPanels d != 0) 16 ++
    needBits d 20 7 1 ++ needZero d (byteRange 21 23) ++ placeForm d ++ needZero d (byteRange 32 59)
  form ++ need (s.mapOverlaps o.gal (fld d 8 47 0) (objPanels d)) .badHandle 8 ++
  (if form.isEmpty then need (s.placesBad (createdObj o)) .badHandle 24 else []) ++
  need (fld d 20 1 0 == 0 && s.t0Lacks o.gal (objPanels d)) .quotaExceeded 0 ++ s.limits o.gal true

/-- Zero-fill a panel's home and make it so (R326): `frame` names its T0 frame. -/
def State.homePanel (s : State) (obj panel : Nat) (frame : Option Nat) : State :=
  let zero : Bytes := List.replicate 262144 0
  match frame with
  | some f => (s.writeHall (s.t0Addr f) zero).setPanel obj panel { tier := 0, frame := f }
  | none => match s.obj? obj with
    | none => s
    | some x => (s.writeChan (x.place panel).1 (x.place panel).2 zero).1.setPanel obj panel { tier := 1 }

/-- OBJ_CREATE: homes are zero-filled, the object is mapped, and RESULT is its number. -/
def State.acceptObjCreate (s : State) (o : Origin) (d : Line64) : State :=
  s.accept (srcHub hubDma) o d 0x69 objCreateChecks (fun s op =>
    let n := s.freeObj.getD 0
    let panels := objPanels op.d
    let s1 := s.putObj n (createdObj op)
    let t := if fld op.d 20 1 0 = 0 then s1.takeT0 op.gal panels else (s1, [])
    let s2 := (List.range panels).foldl (fun s i => s.homePanel n i t.2[i]?) t.1
    (s2.addMapping op.gal (fld op.d 8 47 0) panels n).objSubmit op (.done n))
def execObjCreate (o : Origin) (d : Line64) (s : State) : Host.Outcome State Fault Refusal := .next (s.acceptObjCreate o d)

/-! ### Migrations -/

/-- End a migration if it is over, and what waits for it. -/
def State.migSettle (s : State) (id : Nat) : State := (s.migEnd id).settleObjects

/-- Start a migration. -/
def State.migStart (s : State) (g : Mig) : State :=
  State.objSubmit { s with tiers := { s.tiers with migs := s.tiers.migs ++ [g] } } g.op .mig

/-! ### ACCESSION (R328) -/

/-- The object an ACCESSION registers. -/
def accessionedObj (o : Op) : Obj :=
  let placed := fbit o.d 20 0
  { accessioned := true, gal := 0, panels := objPanels o.d, placed := placed
    cbase := if placed then fld o.d 24 10 0 else 0, ppc := if placed then fld o.d 26 10 0 else 1
    t1ofs := if placed then fld o.d 28 27 0 else 0, pkind := fld o.d 32 0 0, window := fld o.d 34 9 0
    device := fld o.d 36 16 0, paddr := fld o.d 40 63 0, gmask := BitVec.ofNat 64 (fld o.d 48 63 0) }

/-- Checks of ACCESSION. -/
def accessionChecks (s : State) (o : Op) : List Bad :=
  let d := o.d
  let host := !fbit d 32 0
  let form := o.flagsZero 0 ++ daddrForm d 8 (objPanels d) ++ needBits d 16 31 20 ++ needOk (objPanels d != 0) 16 ++
    needBits d 20 7 2 ++ needOk (!fbit d 20 1 || fbit d 20 0) 20 ++ needZero d (byteRange 21 23) ++
    (if fbit d 20 0 then placeForm d else needZero d (byteRange 24 31)) ++ needBits d 32 7 1 ++ needZero d [33] ++
    (if host then needZero d (byteRange 34 39) ++ needBits d 40 11 0
      else needBits d 34 15 10 ++ needBits d 36 31 17) ++ needZero d (byteRange 56 59)
  form ++ need (s.mapOverlaps o.gal (fld d 8 47 0) (objPanels d)) .badHandle 8 ++
  (if form.isEmpty then need (s.placesBad (accessionedObj o)) .badHandle 24 else []) ++ s.limits o.gal true

/-- ACCESSION: the object and its provenance are registered and mapped into gallery 0; with FETCH every place is filled
before completion. -/
def State.acceptAccession (s : State) (o : Origin) (d : Line64) : State :=
  s.accept (srcHub hubDma) o d 0x6A accessionChecks (fun s op =>
    let n := s.freeObj.getD 0
    let panels := objPanels op.d
    let s1 := (s.putObj n (accessionedObj op)).addMapping 0 (fld op.d 8 47 0) panels n
    if fbit op.d 20 1 then
      s1.migStart { op := op, obj := n, first := 0, count := panels, target := 1, frames := [], left := List.range panels }
    else s1.objSubmit op (.done n))
def execAccession (o : Origin) (d : Line64) (s : State) : Host.Outcome State Fault Refusal := .next (s.acceptAccession o d)

/-! ### OBJ_MAP, OBJ_RELEASE, OBJ_PIN, OBJ_QUERY (R330 to R334) -/

/-- Checks of OBJ_MAP. -/
def objMapChecks (s : State) (o : Op) : List Bad :=
  let d := o.d
  let x := s.obj? (fld d 8 13 0)
  let panels := (x.map (fun y => y.panels)).getD 0
  let may := match x with | none => false | some y => y.accessioned && y.gmask.getLsbD o.gal
  o.flagsZero 0 ++ needBits d 8 15 14 ++ needZero d (byteRange 10 15) ++ daddrForm d 16 panels ++
  needZero d (byteRange 24 59) ++ need (!may) .badHandle 8 ++
  need (s.mapOverlaps o.gal (fld d 16 47 0) panels) .badHandle 16 ++ s.limits o.gal false

/-- OBJ_MAP. -/
def State.acceptObjMap (s : State) (o : Origin) (d : Line64) : State :=
  s.accept (srcHub hubDma) o d 0x6B objMapChecks (fun s op =>
    let n := fld op.d 8 13 0
    let panels := ((s.obj? n).map (fun y => y.panels)).getD 0
    (s.addMapping op.gal (fld op.d 16 47 0) panels n).objSubmit op (.done 0))
def execObjMap (o : Origin) (d : Line64) (s : State) : Host.Outcome State Fault Refusal := .next (s.acceptObjMap o d)

/-- The mapping of a gallery that begins at an address (R331). -/
def State.mappingFrom (s : State) (gal daddr : Nat) : Option Mapping :=
  s.tiers.maps.find? (fun m => m.gal == gal && m.daddr == daddr)

/-- Checks of OBJ_RELEASE. -/
def objReleaseChecks (s : State) (o : Op) : List Bad :=
  let refused := match s.mappingFrom o.gal (fld o.d 8 47 0) with
    | none => true
    | some m => m.release.isSome || (match s.obj? m.obj with
        | none => true
        | some x => x.pins != 0 || x.accessioned && o.gal == 0 && s.doc.progs.any (fun p => p.2.obj == m.obj))
  o.flagsZero 0 ++ needBits o.d 8 63 48 ++ needZero o.d (byteRange 16 59) ++ need refused .badHandle 8

/-- OBJ_RELEASE: the range resolves no new access, and completion follows the accesses within it. -/
def State.acceptObjRelease (s : State) (o : Origin) (d : Line64) : State :=
  s.accept (srcHub hubDma) o d 0x6C objReleaseChecks (fun s op =>
    let a := fld op.d 8 47 0
    let s1 : State := { s with tiers := { s.tiers with maps := s.tiers.maps.map (fun m =>
      if m.gal = op.gal ∧ m.daddr = a then { m with release := some op } else m) } }
    s1.objSubmit op .release)
def execObjRelease (o : Origin) (d : Line64) (s : State) : Host.Outcome State Fault Refusal := .next (s.acceptObjRelease o d)

/-- Checks of OBJ_PIN: FLAGS bit 0 unpins. -/
def objPinChecks (s : State) (o : Op) : List Bad :=
  let down := bit o.flags 0
  let pins := (s.objMapping o).bind (fun m => (s.obj? m.obj).map (fun x => x.pins))
  o.flagsZero 1 ++ needBits o.d 8 63 48 ++ needZero o.d (byteRange 16 59) ++
  need (pins.isNone || down && pins == some 0) .badHandle 8 ++ need (!down && (match s.objMapping o with | none => false | some m => s.pinsFull m.obj)) .quotaExceeded 0

/-- OBJ_PIN. -/
def State.acceptObjPin (s : State) (o : Origin) (d : Line64) : State :=
  s.accept (srcHub hubDma) o d 0x6E objPinChecks (fun s op =>
    let s1 := match s.objMapping op with
      | none => s
      | some m => s.pinObj m.obj (!bit op.flags 0)
    s1.objSubmit op (.done 0))
def execObjPin (o : Origin) (d : Line64) (s : State) : Host.Outcome State Fault Refusal := .next (s.acceptObjPin o d)

/-- Checks of OBJ_QUERY. -/
def objQueryChecks (s : State) (o : Op) : List Bad :=
  o.flagsZero 0 ++ needBits o.d 8 63 48 ++ needZero o.d (byteRange 16 59) ++
  need (s.objMapping o).isNone .badHandle 8

/-- RESULT of OBJ_QUERY (R334). -/
def State.queryResult (s : State) (o : Op) : Nat :=
  match s.panelAt o.gal (fld o.d 8 47 0) with
  | none => 0
  | some p =>
    let x := s.panel p.1 p.2
    let y := s.obj? p.1
    x.tier + (if x.busy.isSome then 4 else 0) + (if x.quar then 8 else 0) +
      (if (y.map (fun z => z.accessioned)).getD false then 16 else 0) +
      (y.map (fun z => z.pins)).getD 0 * 2 ^ 16 + p.1 * 2 ^ 32

/-- OBJ_QUERY. -/
def State.acceptObjQuery (s : State) (o : Origin) (d : Line64) : State :=
  s.accept (srcHub hubDma) o d 0x6F objQueryChecks (fun s op =>
    s.objSubmit op (.done (s.queryResult op)))
def execObjQuery (o : Origin) (d : Line64) (s : State) : Host.Outcome State Fault Refusal := .next (s.acceptObjQuery o d)

/-! ### MIGRATE (R333) -/

/-- The panels of its object a MIGRATE names. -/
def State.migPanels (s : State) (o : Op) : List Nat :=
  match s.mappingAt o.gal (fld o.d 8 47 0) true with
  | none => []
  | some m => (List.range (objPanels o.d)).map (fun i => (fld o.d 8 47 0 - m.daddr) / 2 ^ 18 + i)

/-- Panels for which a MIGRATE to T0 reserves a frame: those not in T0, or that a pending migration takes out of it. -/
def State.migNeeds (s : State) (obj : Nat) (l : List Nat) : Nat :=
  (l.filter (fun p => (s.panel obj p).tier != 0 ||
    s.tiers.migs.any (fun g => g.obj == obj && g.target != 0 &&
      (g.left.contains p || s.tiers.moving.any (fun m => m.1 == obj && m.2.1 == p))))).length

/-- Checks of MIGRATE. -/
def migrateChecks (s : State) (o : Op) : List Bad :=
  let d := o.d
  let t := fld d 20 1 0
  let m := s.mappingAt o.gal (fld d 8 47 0) true
  let x := m.bind (fun y => s.obj? y.obj)
  let inside := match m with
    | none => false
    | some y => decide (fld d 8 47 0 + objPanels d * 2 ^ 18 ≤ y.daddr + y.panels * 2 ^ 18)
  let targetBad := match x with
    | none => t == 3
    | some y => t == 3 || (if y.accessioned then t == 1 && !y.placed else t == 2)
  let held := match x with
    | none => true
    | some y => y.pins != 0 || y.accessioned && o.gal != 0
  o.flagsZero 0 ++ needBits d 8 63 48 ++ needBits d 8 17 0 ++ needBits d 16 31 20 ++ needBits d 20 7 2 ++
  needOk (!targetBad) 20 ++ needZero d (byteRange 21 59) ++ need (!inside || held) .badHandle 8 ++
  (match m with
    | none => []
    | some y => need (t == 0 && inside && s.t0Lacks o.gal (s.migNeeds y.obj (s.migPanels o))) .quotaExceeded 0)

/-- MIGRATE: frames are reserved, and the mover takes the panels (R333). -/
def State.acceptMigrate (s : State) (o : Origin) (d : Line64) : State :=
  s.accept (srcHub hubDma) o d 0x6D migrateChecks (fun s op =>
    match s.mappingAt op.gal (fld op.d 8 47 0) true with
    | none => s
    | some m =>
      let l := s.migPanels op
      let t := if fld op.d 20 1 0 = 0 then s.takeT0 op.gal (s.migNeeds m.obj l) else (s, [])
      t.1.migStart { op := op, obj := m.obj, first := l.headD 0, count := objPanels op.d, target := fld op.d 20 1 0
                     frames := t.2, left := l })
def execMigrate (o : Origin) (d : Line64) (s : State) : Host.Outcome State Fault Refusal := .next (s.acceptMigrate o d)

/-! ### The mover (R336 to R340) -/

/-- What the mover does with a panel: it is in its target tier already, it is dropped to T2, or its copy starts. -/
inductive MoverAct where
  | noop | drop | start
  deriving DecidableEq, Repr

/-- Core of a panel's place, if its object has places. -/
def State.panelCore (s : State) (obj panel : Nat) : Option Nat :=
  (s.obj? obj).bind (fun x => if x.placed then some (x.place panel).1 else none)

/-- Whether a panel in flight occupies the core of another (R340). -/
def State.moverCoreBusy (s : State) (obj panel : Nat) : Bool :=
  match s.panelCore obj panel with
  | none => false
  | some c => s.tiers.moving.any (fun m => s.panelCore m.1 m.2.1 == some c)

/-- Whether a panel's repair has failed (R423). -/
def State.repairFailed (s : State) (obj panel : Nat) : Bool :=
  s.tiers.repairs.any (fun r => r.obj == obj && r.panel == panel && r.stage == .failed)

/-- The next panel of a migration, in ascending order: a quarantined one holds the migration up (R339), unless its
repair failed and it is dropped (R423); one in flight, or whose core has one, is passed over (R340). -/
def State.moverNext (s : State) (g : Mig) : List Nat → Option (Nat × MoverAct)
  | [] => none
  | p :: t =>
    let x := s.panel g.obj p
    if x.quar && !(g.target == 2 && s.repairFailed g.obj p) then none
    else if x.busy.isSome then s.moverNext g t
    else if x.tier = g.target then some (p, .noop)
    else if g.target = 2 then some (p, .drop)
    else if 16 ≤ s.tiers.moving.length || s.moverCoreBusy g.obj p then s.moverNext g t
    else some (p, .start)

/-- Change the record of one migration. -/
def State.updMig (s : State) (id : Nat) (f : Mig → Mig) : State :=
  { s with tiers := { s.tiers with migs := s.tiers.migs.map (fun g => if g.op.id = id then f g else g) } }

/-- Leave a tier: a T0 frame goes back (R337). -/
def State.leaveTier (s : State) (p : Panel) : State := if p.tier = 0 then s.giveT0 [p.frame] else s

/-- Drop a resident copy: the panel is served from T2, and a failed repair's quarantine lifts (R338, R423). -/
def State.dropPanel (s : State) (obj panel : Nat) : State :=
  let s1 := (s.leaveTier (s.panel obj panel)).setPanel obj panel {}
  { s1 with tiers := { s1.tiers with repairs := s1.tiers.repairs.filter (fun r => !(r.obj == obj && r.panel == panel)) } }

/-- The errors the mover meets in a panel it reads (R406, R418, R419), and whether it met an uncorrectable one. -/
def State.moverReads (s : State) (obj panel : Nat) : State × Bool :=
  match s.locate obj panel with
  | .t0 h => let r := s.noteHallUse h 262144; (r.1, !r.2.1.isEmpty)
  | .t1 c a =>
    let errs := s.chanErrors (s.core c).chan a 262144
    (s.noteChan c rdMover true errs, errs.any Prod.snd)
  | .t2 _ _ => (s, false)

/-- The frames a migration holds, one more where a panel has left T0 since acceptance and none was reserved for it. DESIGN CHOICE: such
a frame is taken when the panel is reached, and the panel waits while the gallery can have none (R333, R422; log 119). -/
def State.frameFor (s : State) (g : Mig) : State × List Nat :=
  if g.target = 0 ∧ g.frames = [] ∧ s.t0Lacks g.op.gal 1 = false then s.takeT0 g.op.gal 1 else (s, g.frames)

/-- Start the copy of a panel: an accessioned source that is quarantined by the read is not moved (R339, R419); a
writable one's lost bursts are copied as zero, and the operation completes with ARRAY_UE (R418). -/
def State.moverStart (s : State) (g : Mig) (p : Nat) : State :=
  let r := s.moverReads g.obj p
  let s1 := r.1
  let x := s1.panel g.obj p
  let t := s1.frameFor g
  if x.quar || g.target == 0 && t.2.isEmpty then s1
  else
    let frame := t.2.headD 0
    let s2 := (t.1.setPanel g.obj p { x with busy := some (g.target, frame) }).updMig g.op.id (fun m =>
      { m with left := m.left.filter (fun q => q != p), frames := t.2.drop 1
               status := m.status.max (statusIf r.2 .arrayUe) })
    let s3 : State := { s2 with tiers := { s2.tiers with moving := s2.tiers.moving ++ [(g.obj, p, g.op.id)] } }
    match s3.locate g.obj p with
    | .t2 false a => s3.hostRead 0 (.moverPanel g.obj p) a 262144
    | .t2 true a => match s3.obj? g.obj with | none => s3 | some o => s3.peerRead o a 262144
    | _ => s3

/-- Do the mover's next act for a migration. -/
def State.moverAct (s : State) (g : Mig) (p : Nat) (a : MoverAct) : State :=
  let took (m : Mig) : Mig := { m with left := m.left.filter (fun q => q != p) }
  match a with
  | .noop => ((s.count .migNoop g.op.gal 1).updMig g.op.id took).migSettle g.op.id
  | .drop => (((s.dropPanel g.obj p).count .migPanels g.op.gal 1).updMig g.op.id (fun m =>
      { took m with moved := m.moved + 1 })).migSettle g.op.id
  | .start => s.moverStart g p

/-- MOVER_PANEL_START: the oldest migration with panels left takes its lowest one that can go on; a later one waits for it
(R337, R340). -/
def execMoverPanelStart (ups : List Upset) (s : State) : Host.Outcome State Fault Refusal :=
  let s := s.upsets ups
  match (s.tiers.migs.find? (fun g => !g.left.isEmpty && s.tiers.objRun.contains g.op.id)).bind (fun g =>
      (s.moverNext g g.left).map (fun x => (g, x))) with
  | none => .next s
  | some (g, p, a) => if s.running then .next (s.moverAct g p a) else .next s

/-- The bytes a panel in flight is copied from: `data` where they come from outside the device. -/
def State.panelBytes (s : State) (obj panel : Nat) (data : Bytes) : Bytes :=
  match s.locate obj panel with
  | .t0 h => s.readHall h 262144
  | .t1 c a => s.chanRead (s.core c).chan a 262144
  | .t2 _ _ => slice data 0 262144

/-- Write a panel to a tier: its T0 frame, or its place. -/
def State.writePanel (s : State) (obj panel tier frame : Nat) (b : Bytes) : State :=
  if tier = 0 then s.writeHall (s.t0Addr frame) b
  else match s.obj? obj with
    | none => s
    | some x => (s.writeChan (x.place panel).1 (x.place panel).2 b).1

/-- PANEL_SWITCH: the copy has ended, and the panel's home or resident copy is the target from now on (R337, R338). -/
def State.panelSwitch (s : State) (obj panel : Nat) (data : Bytes) (to_ : Nat × Nat) (id : Nat) : State :=
  let old := s.panel obj panel
  let gal := ((s.tiers.migs.find? (fun g => g.op.id == id)).map (fun g => g.op.gal)).getD 0
  let s1 := s.writePanel obj panel to_.1 to_.2 (s.panelBytes obj panel data)
  let s2 := (s1.leaveTier old).setPanel obj panel { old with tier := to_.1, frame := to_.2, busy := none }
  let s3 : State := { s2 with tiers := { s2.tiers with
    moving := s2.tiers.moving.filter (fun m => !(m.1 == obj && m.2.1 == panel)) } }
  ((s3.count .migPanels gal 1).updMig id (fun m => { m with moved := m.moved + 1 })).migSettle id

def execPanelSwitch (obj : Fin 16384) (panel : Nat) (data : Bytes) (s : State) : Host.Outcome State Fault Refusal :=
  match (s.panel obj.val panel).busy, s.tiers.moving.find? (fun m => m.1 == obj.val && m.2.1 == panel) with
  | some t, some m => if s.running then .next (s.panelSwitch obj.val panel data t m.2.2) else .next s
  | _, _ => .next s

end Sys2Proof.Machine
end

