-- ==== Sys2Proof/Machine/Repair.lean ====
section
/-! DEFINITION. Repair: the plinths' repair commands and repair map (R316 to R318, R480, R481), core and channel sparing
(R415 to R417), and the Conservator (R419 to R425). -/

namespace Sys2Proof.Machine

/-! ### Repair map (R480) -/

/-- A repair-map entry as its 64 bits. -/
def RepEntry.word (e : RepEntry) : Nat :=
  let low := e.kind % 8 + e.plinth % 8 * 2 ^ 3 + e.phys % 512 * 2 ^ 6 + e.die % 16 * 2 ^ 15 + e.bank % 2 * 2 ^ 19 +
    e.row % 8192 * 2 ^ 20 + e.spare % 512 * 2 ^ 33
  low + crc16 (toLE 6 low) * 2 ^ 48

/-- Whether an entry spares a row (kind 1) or column (kind 2) of one bank, 0 to 31, of a physical channel. -/
def RepEntry.ofBank (e : RepEntry) (kind pch bank : Nat) : Bool :=
  e.kind == kind && e.phys == pch && 2 * e.die + e.bank == bank

/-- Spare rows of a bank no entry uses, and spare column groups (R316). -/
def Plinth.freeRows (p : Plinth) (pch bank : Nat) : List Nat :=
  (List.range 160).filter (fun k => !p.repairMap.any (fun e => e.ofBank 1 pch bank && e.spare == k))
def Plinth.freeCols (p : Plinth) (pch bank : Nat) : List Nat :=
  (List.range 4).filter (fun k => !p.repairMap.any (fun e => e.ofBank 2 pch bank && e.spare == k))

/-- Spare channels of a plinth: paired with no core, in service, and not already taken as a spare (R18, R316). -/
def State.spareChans (s : State) (p : Nat) : List Nat :=
  let x := s.plinth p
  let paired := (plinthCores p).map (fun c => (s.core c).chan % 264)
  (List.range 264).filter (fun i => !paired.contains i && !x.deadChans.contains i &&
    !x.chSpares.any (fun y => y.pch == i || y.spare == i))

/-- Add an entry to a plinth's repair map; the repair record is out of date (R481). -/
def State.addRepair (s : State) (e : RepEntry) : State :=
  let x := s.plinth e.plinth
  let s1 := s.setPlinth e.plinth { x with repairMap := x.repairMap ++ [e] }
  { s1 with ctl := { s1.ctl with repDirty := s1.ctl.repDirty || e.kind != 4 } }

/-- Logical core paired with a physical channel, if one is (R18). -/
def State.coreOfChan (s : State) (p pch : Nat) : Option Nat :=
  (plinthCores p).find? (fun c => (s.core c).chan == p * 264 + pch)

/-! ### Copying a row or column slice with correction (R318) -/

/-- Merge the correction of a burst into its stored data. -/
def mergeBurst (m : Memory) (g : Nat) (e : List Nat) : Memory :=
  Memory.store m (64 * g) ((xorRow ((Memory.read m (64 * g) 64).map BitVec.toNat) e).map (BitVec.ofNat 8))

/-- Move bursts of a physical channel to fresh cells: each is read with correction and written with fresh check symbols,
or poisoned where it is uncorrectable (R298). `pick` names the bursts, by channel byte address. -/
def State.moveBursts (s : State) (p pch : Nat) (pick : Nat → Bool) : State × Status :=
  let base := chanBase (p * 264 + pch)
  let mine := s.chk.filter (fun e => decide (base ≤ 64 * e.1) && decide (64 * e.1 < base + 2 ^ 28) && pick (64 * e.1 - base))
  let note (s : State) (e : Nat × BitVec 64) : State :=
    let a := 64 * e.1 - base
    match burstError e.2, s.coreOfChan p pch with
    | none, none => { s with chk := Tbl.put s.chk e.1 poisonChk 0 }
    | none, some c =>
      let s1 : State := { s with chk := Tbl.put s.chk e.1 poisonChk 0 }
      (s1.count .stkUe c 1).incident clsUe 0x05 .arrayUe (srcChan c) a 0
    | some x, none => { s with mem := mergeBurst s.mem e.1 x, chk := s.chk.erase e.1 }
    | some x, some c =>
      let s1 := s.noteBurst c rdConservator false a false
      { s1 with mem := mergeBurst s1.mem e.1 x, chk := s1.chk.erase e.1 }
  (mine.foldl note s, statusIf (mine.any (fun e => (burstError e.2).isNone)) .arrayUe)

/-- Bank and row of a channel byte address (R294). -/
def dramBank (a : Nat) : Nat := bits a 14 10
def dramRow (a : Nat) : Nat := bits a 27 15

/-- ROW_SPARE of the row of an address (R318). -/
def State.rowSpare (s : State) (p pch a : Nat) : State × Status :=
  match s.pick ((s.plinth p).freeRows pch (dramBank a)) with
  | (s1, none) => (s1, .quotaExceeded)
  | (s1, some k) =>
    let r := s1.moveBursts p pch (fun x => dramBank x == dramBank a && dramRow x == dramRow a)
    (r.1.addRepair { kind := 1, plinth := p, phys := pch, die := dramBank a / 2, bank := dramBank a % 2, row := dramRow a
                     spare := k }, r.2)

/-- COL_SPARE of the column slice of an address (R317). -/
def State.colSpare (s : State) (p pch a : Nat) : State × Status :=
  match s.pick ((s.plinth p).freeCols pch (dramBank a)) with
  | (s1, none) => (s1, .quotaExceeded)
  | (s1, some k) =>
    let r := s1.moveBursts p pch (fun x => dramBank x == dramBank a && bits x 9 6 == bits a 9 6)
    (r.1.addRepair { kind := 2, plinth := p, phys := pch, die := dramBank a / 2, bank := dramBank a % 2
                     row := bits a 9 3, spare := k }, r.2)

/-- CH_SPARE: the channel is marked, and its copy to a spare channel begins (R317, R417). -/
def State.chSpare (s : State) (p pch : Nat) : State × Status :=
  if (s.plinth p).chSpares.any (fun y => y.pch == pch) then (s, .ok)
  else match s.pick ((s.spareChans p).filter (fun i => i != pch)) with
    | (s1, none) => (s1, .quotaExceeded)
    | (s1, some k) =>
      let x := s1.plinth p
      ((s1.setPlinth p { x with chSpares := x.chSpares ++ [{ pch := pch, spare := k, copied := 0 }] }).addRepair
        { kind := 3, plinth := p, phys := pch, die := 0, bank := 0, row := 0, spare := k }, .ok)

/-! ### The repair commands (R317) -/

/-- Words DATA0 to DATA17 of a plinth, and their write. -/
def State.rprData (s : State) (p : Nat) : Nat :=
  (List.range 18).foldr (fun i acc => s.written .rprData [p, i] + 2 ^ 32 * acc) 0
def State.setRprData (s : State) (p words v : Nat) : State :=
  (List.range words).foldl (fun s i => s.setField .rprData [p, i] 31 0 (bits v (32 * i + 31) (32 * i))) s

/-- What a repair command does, and the status it ends with. -/
def State.repairAction (s : State) (p op pch : Nat) : State × Status :=
  let a := s.written .rprAddr [p]
  let phys := p * 264 + pch
  if 263 < pch then (s, .badDescriptor)
  else match op with
    | 1 => (s.setRprData p 18 (ofLE ((s.burstSymbols phys a).map (BitVec.ofNat 8))), .ok)
    | 2 =>
      let free := (s.spareChans p).contains pch || !s.flag .stkCtrl [p] 0
      if !free then (s, .lockedField)
      else
        let s1 := s.burstRaw phys a ((toLE 72 (s.rprData p)).map BitVec.toNat)
        (match s1.coreOfChan p pch with
          | none => s1
          | some c => s1.dropLines c (a / 64 * 64) 64, .ok)
    | 3 => s.rowSpare p pch a
    | 4 => s.colSpare p pch a
    | 5 => s.chSpare p pch
    | _ => match (s.plinth p).repairMap[a]? with
      | none => (s, .badDescriptor)
      | some e => (s.setRprData p 2 e.word, .ok)

/-- A write of PLNn_RPR_CMD whose OP is `op`: refused while BUSY, else the command runs (R317). -/
def State.repairCommand (s : State) (func : GalNo) (p op : Nat) (word : Word) : State :=
  if !s.pfWrite func || bits word.toNat 3 0 != op then s
  else if (s.plinth p).rprRun.isSome then s.refuseWrite func.val (regOff .rprCmd [p]) .lockedField
  else
    let pch := bits word.toNat 12 4
    let r := s.repairAction p op pch
    r.1.setPlinth p { r.1.plinth p with rprRun := some r.2, rprPch := pch }

def execReadRaw (func : GalNo) (plinth : PlinthNo) (word : Word) (s : State) : Host.Outcome State Fault Refusal :=
  .next (s.repairCommand func plinth.val 1 word)
def execWriteRaw (func : GalNo) (plinth : PlinthNo) (word : Word) (s : State) : Host.Outcome State Fault Refusal :=
  .next (s.repairCommand func plinth.val 2 word)
def execRowSpare (func : GalNo) (plinth : PlinthNo) (word : Word) (s : State) : Host.Outcome State Fault Refusal :=
  .next (s.repairCommand func plinth.val 3 word)
def execColSpare (func : GalNo) (plinth : PlinthNo) (word : Word) (s : State) : Host.Outcome State Fault Refusal :=
  .next (s.repairCommand func plinth.val 4 word)
def execChSpare (func : GalNo) (plinth : PlinthNo) (word : Word) (s : State) : Host.Outcome State Fault Refusal :=
  .next (s.repairCommand func plinth.val 5 word)
def execMapRead (func : GalNo) (plinth : PlinthNo) (word : Word) (s : State) : Host.Outcome State Fault Refusal :=
  .next (s.repairCommand func plinth.val 6 word)

/-- REPAIR_COMMAND_DONE: BUSY clears and STATUS is set (R317). -/
def execRepairCommandDone (plinth : PlinthNo) (s : State) : Host.Outcome State Fault Refusal :=
  let x := s.plinth plinth.val
  match x.rprRun with
  | none => .next s
  | some st => .next (if s.alive then s.setPlinth plinth.val { x with rprRun := none, rprStatus := st } else s)

/-- Bits of a repair record: its entries in order, without those of core pairings (R479, R480). -/
def State.recordEntries (s : State) : List RepEntry :=
  ((List.range 8).flatMap (fun p => ((s.plinth p).repairMap).filter (fun e => e.kind != 4))).take 13304

/-- Which copy of the repair record is in use: the valid one with the higher SEQ (R479). -/
def Flash.recordInUse (f : Flash) : Option Bool :=
  match f.rep0.valid, f.rep1.valid with
  | false, false => none
  | true, false => some false
  | false, true => some true
  | true, true => some (decide (f.rep0.seq.toNat < f.rep1.seq.toNat))

/-- REPAIR_RECORD_WRITE: the whole repair map goes to the copy not in use, with SEQ incremented (R481). -/
def execRepairRecordWrite (s : State) : Host.Outcome State Fault Refusal :=
  if !s.alive || !s.ctl.repDirty then .next s
  else
    let f := s.sec.flash
    let old := match f.recordInUse with
      | none => (0 : Word)
      | some b => if b then f.rep1.seq else f.rep0.seq
    let t := match f.recordInUse with
      | some b => (s, !b)
      | none => (s.draw 1, Config.freeNat s.free % 2 == 1)
    let r : RepairRec := { valid := true, seq := old + 1, entries := s.recordEntries }
    let s1 := t.1
    .next { s1 with
      sec := { s1.sec with flash := { s1.sec.flash with
        rep0 := if t.2 then f.rep0 else r, rep1 := if t.2 then r else f.rep1 } }
      ctl := { s1.ctl with repDirty := false } }

/-! ### Core and channel sparing (R415 to R417) -/

/-- The copy of a channel that is complete and awaits the switch. -/
def State.copyDone (s : State) (c : Nat) : Option ChSpare :=
  (s.plinth (c / 256)).chSpares.find? (fun x => x.pch == (s.core c).chan % 264 && decide (2 ^ 28 ≤ x.copied))

/-- At boundary Q + 1 of a quiesce each core with a claim, or whose channel's copy is complete, begins to empty
(R415, R417). A copy of an unpaired channel ends with nothing to switch. -/
def State.beginSwitches (s : State) : State :=
  let s1 := (List.range 2048).foldl (fun s c =>
    let y := (s.copyDone c).map (fun x => x.spare)
    if (s.core c).claim.isSome || y.isSome then
      s.setCore c { s.core c with switching := true, switchTo := (s.core c).claim, switchCh := y }
    else s) s
  (List.range 8).foldl (fun s p =>
    let x := s.plinth p
    let keep := x.chSpares.filter (fun y => decide (y.copied < 2 ^ 28) || (s.coreOfChan p y.pch).isSome)
    s.setPlinth p { x with chSpares := keep }) s1

/-- Whether an operation still uses a core: a tile or ATTN issued, a bank not FREE, or a DMA operation begun on its
scratchpad or channel (R415). -/
def State.coreInUse (s : State) (c : Nat) : Bool :=
  let k := s.core c
  !k.tiles.isEmpty || !k.attns.isEmpty || k.bank0.st != .free || k.bank1.st != .free ||
  s.dma.ops.any (fun x => x.issued && (x.op.dmaEps.map (fun e => Ep.of x.op.d e.1)).any (fun e =>
    (e.scratch || e.channel) && e.core == c))

/-- Whether a repair touches a place of a core (R425). -/
def State.repairTouches (s : State) (c : Nat) : Bool :=
  s.tiers.repairs.any (fun r => r.stage != .failed && s.panelCore r.obj r.panel == some c)

/-- Move a logical core's scratchpad to its spare physical core, clear its fences and pair the spare (R415). -/
def State.switchCore (s : State) (c new : Nat) : State :=
  let old := (s.core c).phys
  let s1 := (s.noteScratch c 0 262144).1
  let bytes := s1.readScratch c 0 262144
  let s2 := s1.sramWrite (scratchBase new) bytes
  let s3 := s2.setCore c { (s2.core c).clearFences with phys := new, faults := [] }
  let x := s3.plinth (c / 256)
  let s4 := s3.setPlinth (c / 256) { x with deadCores := x.deadCores ++ [old % 264] }
  (s4.addRepair { kind := 4, plinth := c / 256, phys := old % 264, die := 0, bank := 0, row := 0, spare := new % 264 }).incident
    clsResidue 0x12 .ok (srcCore c) (old % 264 + new % 264 * 2 ^ 16) (s.beat % 2 ^ 32)

/-- Pair a logical core with the spare channel its own was copied to (R417). -/
def State.switchChan (s : State) (c : Nat) (y : ChSpare) : State :=
  let p := c / 256
  let s1 := s.setCore c { s.core c with chan := p * 264 + y.spare }
  let x := s1.plinth p
  (s1.setPlinth p { x with chSpares := x.chSpares.filter (fun z => z.pch != y.pch), deadChans := x.deadChans ++ [y.pch] }).incident
    clsResidue 0x12 .ok (srcChan c) (y.pch + y.spare * 2 ^ 16) (s.beat % 2 ^ 32)

/-- CORE_SPARE_SWITCH: an emptied core moves to the spare it had claimed at Q + 1, and the copy of its channel that was complete then
takes over (R415, R417). -/
def execCoreSpareSwitch (core : CoreNo) (s : State) : Host.Outcome State Fault Refusal :=
  let c := core.val
  let k := s.core c
  if !s.running || !k.switching || s.coreInUse c || s.repairTouches c then .next s
  else
    let s1 := match k.switchTo with | none => s | some n => s.switchCore c n
    let s2 := match (s.copyDone c).filter (fun y => k.switchCh == some y.spare) with | none => s1 | some y => s1.switchChan c y
    .next (s2.setCore c { s2.core c with switching := false, switchTo := none, switchCh := none })

/-- Copy a run of a channel to its spare: corrected bursts as corrected, uncorrectable ones poisoned (R298, R417). -/
def State.copyChan (s : State) (p : Nat) (y : ChSpare) (n : Nat) : State :=
  let from_ := p * 264 + y.pch
  let to_ := p * 264 + y.spare
  let core := s.coreOfChan p y.pch
  let errs := s.chanErrors from_ y.copied n
  let data := s.chanRead from_ y.copied n
  let raw (a : Nat) : Bytes := Memory.read s.mem (chanBase from_ + a) 64
  let s1 := (s.chanWrite to_ y.copied data).1
  errs.foldl (fun s e =>
    if e.2 then
      let s2 := (s.chanWrite to_ e.1 (raw e.1)).1
      let s3 : State := { s2 with chk := Tbl.put s2.chk ((chanBase to_ + e.1) / 64) poisonChk 0 }
      match core with
      | none => s3
      | some c => (s3.count .stkUe c 1).incident clsUe 0x05 .arrayUe (srcChan c) e.1 0
    else match core with
      | none => s
      | some c => s.noteBurst c rdConservator false e.1 false) s1

/-- CHANNEL_SPARE_COPY: the next bursts of a failing channel go to its spare while its queue is empty and its refresh
debt is below 1 (R417). -/
def execChannelSpareCopy (plinth : PlinthNo) (bursts : Nat) (ups : List Upset) (s : State) :
    Host.Outcome State Fault Refusal :=
  let s := s.upsets ups
  let x := s.plinth plinth.val
  match x.chSpares.find? (fun y => decide (y.copied < 2 ^ 28)) with
  | none => .next s
  | some y =>
    let idle := match s.coreOfChan plinth.val y.pch with
      | none => true
      | some c => (s.chan c).queue.isEmpty && decide (s.debt c < 1024)
    if !s.alive || !idle then .next s
    else
      let n := min (64 * bursts) (2 ^ 28 - y.copied)
      let s1 := s.copyChan plinth.val y n
      let x1 := s1.plinth plinth.val
      .next (s1.setPlinth plinth.val { x1 with chSpares := x1.chSpares.map (fun z =>
        if z.pch = y.pch then { z with copied := z.copied + n } else z) })

/-! ### The Conservator (R419 to R425) -/

/-- Change the record of one repair. -/
def State.updRepair (s : State) (obj panel : Nat) (f : Repair → Repair) : State :=
  { s with tiers := { s.tiers with repairs := s.tiers.repairs.map (fun r =>
      if r.obj = obj ∧ r.panel = panel then f r else r) } }

/-- The repair of a panel at a stage. -/
def State.repairAt (s : State) (obj panel : Nat) (stage : RepairStage) : Option Repair :=
  s.tiers.repairs.find? (fun r => r.obj == obj && r.panel == panel && r.stage == stage)

/-- Repairs that hold a panel region of the staging buffer (R421). -/
def State.regionsUsed (s : State) : Nat :=
  (s.tiers.repairs.filter (fun r => r.stage == .reading || r.stage == .rewriting || r.stage == .readback)).length

/-- Ask for a panel's reference copy: 64 host reads of 4 KiB where it stands in host memory, else a request of the peer's window
(R329, R421). -/
def State.askReference (s : State) (obj panel : Nat) : State :=
  match s.obj? obj with
  | none => s
  | some x =>
    if x.pkind = 1 then s.peerRead x (x.paddr + 262144 * panel) 262144
    else (List.range 64).foldl (fun s i =>
      s.hostRead 0 (.reference obj panel) (x.paddr + 262144 * panel + 4096 * i) 4096) s

/-- Whether an issued tile reads a panel: its walk breaks off there, or a codebook it holds was loaded from it (R74, R421). -/
def State.tileReads (s : State) (t : TileRun) (obj panel : Nat) : Bool :=
  let cut := if t.op.bs then (s.bsHits t).count.cut else (s.tileTrits t).2.1.cut
  let held := match s.locate obj panel with
    | .t1 c a => c == t.op.core && !t.op.wsrc && (t.refs.zip t.slices).any (fun x =>
        decide (a < x.1.slice + max 8 x.2.size) && decide (x.1.slice < a + 262144))
    | _ => false
  cut == some (obj, panel) || held

/-- Whether an issued tile, on its core or at the annex, still reads a panel (R74, R421). -/
def State.panelRead (s : State) (obj panel : Nat) : Bool :=
  match s.locate obj panel with
  | .t1 c _ => ((s.core c).tiles ++ s.annex.running.toList ++ s.annex.queue).any (fun t =>
      t.op.core == c && s.tileReads t obj panel)
  | _ => false

/-- REPAIR_START: a queued panel that is not in flight and that no issued tile reads takes a free region, and its reference copy is
read (R74, R421). -/
def execRepairStart (obj : Fin 16384) (panel : Nat) (s : State) : Host.Outcome State Fault Refusal :=
  match s.repairAt obj.val panel .queued with
  | none => .next s
  | some _ =>
    if !s.running || (s.panel obj.val panel).busy.isSome || s.panelRead obj.val panel || decide (8 ≤ s.regionsUsed) then .next s
    else .next ((s.updRepair obj.val panel (fun r => { r with stage := .reading, tries := 1 })).askReference obj.val panel)

/-- REFERENCE_READ_DONE: the reference copy stands in staging, and the panel is rewritten whole (R421). -/
def execReferenceReadDone (obj : Fin 16384) (panel : Nat) (data : Bytes) (s : State) : Host.Outcome State Fault Refusal :=
  match s.repairAt obj.val panel .reading with
  | none => .next s
  | some _ =>
    if !s.running then .next s
    else
      let b := slice data 0 262144
      let p := s.panel obj.val panel
      .next ((s.writePanel obj.val panel p.tier p.frame b).updRepair obj.val panel (fun r =>
        { r with stage := .rewriting, data := b }))

/-- A freed place lets the longest waiting panel into repair (R424). -/
def State.nextRepair (s : State) : State :=
  if 64 ≤ s.repairsActive then s
  else match s.tiers.repairs.find? Repair.waits with
    | none => s
    | some r => s.updRepair r.obj r.panel (fun x => { x with stage := .queued })

/-- Complete with WEIGHT_UE_RETRY the step-program tiles whose chains wait for a repair that failed (R423). -/
def State.failChains (s : State) (l : List Op) : State :=
  l.foldl (fun s o => match o.org with
    | .ring _ _ => s
    | .step g => if s.doc.groups.any (fun x => x.id == g && x.outstanding.contains o.id)
      then s.complete (srcCore o.core) o { st := .weightUeRetry } else s) s

/-- Drop the codebook registers loaded from a range of a core's channel (R74, R421). -/
def State.dropCodebooks (s : State) (c a n : Nat) : State :=
  let k := s.core c
  s.setCore c { k with codebooks := k.codebooks.filter (fun b =>
    b.scratch || decide (b.slice + max 8 b.info.size ≤ a) || decide (a + n ≤ b.slice)) }

/-- Drop the codebook registers loaded from a panel that has been rewritten (R74). -/
def State.dropPanelBooks (s : State) (obj panel : Nat) : State :=
  match s.locate obj panel with
  | .t1 c a => s.dropCodebooks c a 262144
  | _ => s

/-- A repair fails: the panel stays quarantined, and REPAIR_FAIL names the status met (R423). -/
def State.repairFails (s : State) (r : Repair) (code : Nat) : State :=
  let s := if r.data.isEmpty then s else s.dropPanelBooks r.obj r.panel
  let p := s.panel r.obj r.panel
  let s1 := (s.updRepair r.obj r.panel (fun x => { x with stage := .failed, data := [], retry := [] })).setPanel r.obj
    r.panel { p with failed := true }
  (((s1.incident clsUe 0x1A .ok (srcHub hubConservator) (panelDetail r.obj r.panel) code).failChains r.retry).nextRepair).settleObjects

/-- Issue again the chains that waited for a repair, at the front of their cores' issue points (R420). -/
def State.reissue (s : State) (l : List Op) : State :=
  let s1 := l.foldr (fun o s => s.setCore o.core { s.core o.core with waiting := o :: (s.core o.core).waiting }) s
  s1.count .rasRetryTile 0 (l.filter (fun o => !o.joins)).length

/-- A repair ends: codebooks go, the quarantine lifts, chains are issued again and REPAIRED is written (R421). -/
def State.repairDone (s : State) (r : Repair) (detail2 : Nat) : State :=
  let s1 := s.dropPanelBooks r.obj r.panel
  let s2 := s1.setPanel r.obj r.panel { s1.panel r.obj r.panel with quar := false, failed := false }
  let s3 : State := { s2 with tiers := { s2.tiers with
    repairs := s2.tiers.repairs.filter (fun x => !(x.obj == r.obj && x.panel == r.panel)) } }
  (((s3.reissue r.retry).incident clsUe 0x19 .ok (srcHub hubConservator) (panelDetail r.obj r.panel) detail2).nextRepair).settleObjects

/-- REFERENCE_READ_RETRY: a failed reference read is made again, or the repair fails after RETRY attempts (R423). -/
def State.referenceRetry (s : State) (obj panel : Nat) (linkDown : Bool) : State :=
  match s.repairAt obj panel .reading with
  | none => s
  | some r =>
    if !s.running then s
    else if r.tries < s.field .rasConsCfg [] 3 0 then
      (s.updRepair obj panel (fun x => { x with tries := x.tries + 1 })).askReference obj panel
    else s.repairFails r (if !linkDown then Status.internal else if s.locked then .linkDown else .beatLost).code

def execReferenceReadRetry (obj : Fin 16384) (panel : Nat) (linkDown : Bool) (s : State) :
    Host.Outcome State Fault Refusal := .next (s.referenceRetry obj.val panel linkDown)

/-- PANEL_REWRITE_DONE: the rewritten panel is read back (R421). -/
def execPanelRewriteDone (obj : Fin 16384) (panel : Nat) (s : State) : Host.Outcome State Fault Refusal :=
  match s.repairAt obj.val panel .rewriting with
  | none => .next s
  | some _ =>
    if !s.running then .next s
    else .next (s.updRepair obj.val panel (fun r => { r with stage := .readback }))

/-- Column slices of a row in which what stands differs from the staging copy, as slice addresses. -/
def State.badSlices (s : State) (phys row : Nat) (good : Bytes) : List Nat :=
  let have_ := Memory.read s.mem (chanBase phys + row) 1024
  (positions 128 (fun i => slice have_ (8 * i) 8 != slice good (8 * i) 8)).map (fun i => row + 8 * i)

/-- Spare one failing row, or its failing column slices where no spare row is left, and rewrite it from the staging copy:
whether a command was refused or the panel's limits of 4 rows and 4 column groups are spent, and which (R422). The commands run
through the plinth's repair command, whose STATUS they leave (R317). -/
def State.spareRow (s : State) (r : Repair) (core row ofs : Nat) : State × Option Status :=
  let phys := (s.core core).chan
  let p := phys / 264
  let good := slice r.data ofs 1024
  let rewrite (s : State) : State := (s.writeChan core row good).1
  let ended (t : State × Status) : State :=
    t.1.setPlinth p { t.1.plinth p with rprStatus := t.2, rprPch := phys % 264 }
  if !((s.plinth p).freeRows (phys % 264) (dramBank row)).isEmpty then
    if 4 ≤ r.rows then (s, some .internal)
    else
      let t := s.rowSpare p (phys % 264) row
      ((rewrite (ended t)).updRepair r.obj r.panel (fun x => { x with rows := x.rows + 1 }), none)
  else
    let cols := s.badSlices phys row good
    if 4 < r.cols + cols.length then (s, some .internal)
    else
      let t := cols.foldl (fun (acc : State × Status) a =>
        let u := acc.1.colSpare p (phys % 264) a
        (u.1, if u.2 == .quotaExceeded then u.2 else acc.2)) (s, Status.ok)
      if t.2 == .quotaExceeded then (ended t, some .quotaExceeded)
      else ((rewrite (ended t)).updRepair r.obj r.panel (fun x => { x with cols := x.cols + cols.length }), none)

/-- Spare the failing rows of a panel one after the other. -/
def State.spareRows (s : State) (obj panel core base : Nat) : List Nat → State × Option Status
  | [] => (s, none)
  | row :: t => match s.repairAt obj panel .readback with
    | none => (s, none)
    | some r => match s.spareRow r core row (row - base) with
      | (s1, some st) => (s1, some st)
      | (s1, none) => s1.spareRows obj panel core base t

/-- READBACK_DONE: a clean panel ends its repair; failing rows are spared, rewritten and read back again; a T0 frame that
fails is given up (R421, R422). Which of R11's statuses a repair meets whose sparing limits are spent is a free choice. -/
def State.readback (s : State) (r : Repair) : State :=
  match s.locate r.obj r.panel with
  | .t0 h =>
    if (s.badWords (hallBase + h) 262144).isEmpty then s.repairDone r (r.rows + r.cols * 16)
    else
      let s1 := (s.noteHall h 262144).1
      let p := s1.panel r.obj r.panel
      ((s1.leaveTier p).setPanel r.obj r.panel { p with tier := 2, frame := 0 }).repairDone r (2 * 2 ^ 28)
  | .t1 c a =>
    let errs := s.chanErrors (s.core c).chan a 262144
    if errs.isEmpty then s.repairDone r (r.rows + r.cols * 16)
    else
      let s1 := s.noteChan c rdConservator false errs
      match s1.spareRows r.obj r.panel c a (distinct (errs.map (fun e => e.1 / 1024 * 1024))) with
      | (s2, none) => s2
      | (s2, some .internal) =>
        let t := s2.pick (statusList.drop 2)
        t.1.repairFails r ((t.2.getD .internal).code)
      | (s2, some st) => s2.repairFails r st.code
  | .t2 _ _ => s.repairDone r (2 * 2 ^ 28)

def execReadbackDone (obj : Fin 16384) (panel : Nat) (ups : List Upset) (s : State) : Host.Outcome State Fault Refusal :=
  let s := s.upsets ups
  match s.repairAt obj.val panel .readback with
  | none => .next s
  | some r =>
    let busy := match s.locate obj.val panel with
      | .t1 c _ => (s.plinth (c / 256)).rprRun.isSome
      | _ => false
    if !s.running || busy then .next s else .next (s.readback r)

end Sys2Proof.Machine
end

