-- ==== Sys2Proof/Machine/Hub.lean ====
section
/-! DEFINITION. Hub operations of step programs (R389): residual addition and normalisation, conversion, broadcast, the merge
of attention parts, sums of grains, and sampling (R140, R161, R225 to R227); and the plinths' broadcast units (R87). -/

namespace Sys2Proof.Machine

/-! ### Fields (R389) -/

def opHub : Nat := 0x78

namespace HubF
def func (o : Op) : Nat := fld o.d 8 2 0
def uniform (o : Op) : Bool := fbit o.d 8 3
def ifmt (o : Op) : Nat := fld o.d 9 4 0
def ofmt (o : Op) : Nat := fld o.d 10 4 0
def lanes (o : Op) : Nat := fld o.d 11 7 0
def elems (o : Op) : Nat := fld o.d 12 31 0
def srca (o : Op) : Nat := fld o.d 16 31 0
def srcb (o : Op) : Nat := fld o.d 20 31 0
def dest (o : Op) : Nat := fld o.d 24 31 0
def normw (o : Op) : Nat := fld o.d 28 31 0
def eps (o : Op) : Word := BitVec.ofNat 32 (fld o.d 32 31 0)
def apitch (o : Op) : Nat := 64 * fld o.d 36 15 0
def opitch (o : Op) : Nat := 64 * fld o.d 38 15 0
def ahdl (o : Op) : Nat := fld o.d 40 15 0
def pmask (o : Op) : Nat := fld o.d 42 7 0
def parts (o : Op) : Nat := fld o.d 43 6 0
def ppitch (o : Op) : Nat := fld o.d 44 31 0
end HubF

/-- Checks of a hub operation of function `f` (R389). -/
def hubChecks (f : Nat) (_ : State) (o : Op) : List Bad :=
  let d := o.d
  needOk (HubF.func o == f) 8 ++ needBits d 8 7 4 ++ needOk (fmtOk (HubF.ifmt o)) 9 ++ needOk (fmtOk (HubF.ofmt o)) 10 ++
  needOk (decide (1 ≤ HubF.lanes o) && decide (HubF.lanes o ≤ 128)) 11 ++
  (if f = 2 then refForm d 40 else []) ++
  (if f = 3 ∨ f = 4 then needOk (decide (2 ≤ HubF.parts o) && decide (HubF.parts o ≤ 64)) 43 else []) ++
  needBits d 43 7 7 ++ needZero d (byteRange 48 59)

/-- Hub unit that serves an operation: the sampler, else the reduction engine. -/
def hubUnit (o : Op) : Nat := if HubF.func o = 5 then hubDocent else hubReduction

/-- Whether two operations stand in line for the same unit; a broadcast stands in those of its plinths instead. -/
def hubSame (o p : Op) : Bool := HubF.func o != 2 && HubF.func p != 2 && hubUnit o == hubUnit p

/-- The operation a unit serves, among those in line for the unit of `o`. -/
def hubHead (l : List Op) (o : Op) : Option Op := l.find? (hubSame o)

/-- Put an operation in line for its unit: a Carmine one ahead of those of other classes that have not started (R218). DEDUCED: a
unit serves one operation at a time (log 110). -/
def hubQueue (o : Op) (l : List Op) : List Op :=
  let started := hubHead l o
  let ahead (p : Op) : Bool := o.cls != 0 || !hubSame o p || p.cls == 0 || started == some p
  l.takeWhile ahead ++ o :: l.dropWhile ahead

/-- Acceptance: the operation is with its hub unit, and starts if the unit is free. -/
def State.hubStart (s : State) (o : Op) : State :=
  let s1 : State := { s with hubOps := hubQueue o s.hubOps }
  if (hubHead s.hubOps o).isNone then s1.opEvent (srcHub hubReduction) 2 o .ok else s1

/-! ### Operands in the hall buffer -/

/-- Bytes from a hall-buffer offset on, those past its end left out of a write. -/
def State.hallPut (s : State) (l : List (Nat × Bytes)) : State × List Status :=
  let r := s.putRuns (l.map (fun x => (x.1, x.2.take (2 ^ 28 - x.1))))
  (r.1, [statusIf r.2 .arrayUe])

/-- A noted read of the hall buffer. -/
def State.hallTake (s : State) (a n : Nat) : State × Bytes × List Status :=
  let r := s.noteHallUse a (min n (2 ^ 28 - a))
  (r.1, s.hallBytes a n, r.2.2)

/-- Bytes of `elems` elements of a lane laid out as R142 writes them. -/
def laneBytes (fmt elems : Nat) : Nat := cdiv (elems * elemBits fmt) 8

/-- Scale pitch of an operand whose operation names none: the least of R142 that holds a lane's scales. -/
def leastSpitch (elems : Nat) : Nat := 8 * cdiv (cdiv elems 32) 8

/-- One lane of an operand in the layout of R142 as FP32 values (R52): elements at the lane pitch, scales behind all
lanes. A format that has no values here gives values no rule states. -/
def State.laneValues (s : State) (fmt base pitch lanes elems l : Nat) : State × List Word × List Status :=
  let r := s.hallTake (base + pitch * l) (laneBytes fmt elems)
  if scaledFmt fmt then
    let q := r.1.hallTake (base + pitch * lanes + leastSpitch elems * l) (cdiv elems 32)
    (q.1, (List.range elems).map (fun k => f32 (scaledVal fmt r.2.1 k (q.2.1.getD (k / 32) 0).toNat)), r.2.2 ++ q.2.2)
  else if decide (0x0A ≤ fmt) && decide (fmt ≤ 0x0D) || lnsFmt fmt then
    (r.1, (List.range elems).map (fun k => f32 (elemVal fmt (elemAt fmt r.2.1 k))), r.2.2)
  else (r.1.draw elems, (List.range elems).map (fun k => BitVec.ofNat 32 (Config.freeNat (r.1.free + k))), r.2.2)

/-- A lane of results narrowed or rounded to a format (R52, R53): its element bytes, its scale bytes, its largest operand
exponent with a format of the cores (R49), and the clamps and non-finite elements counted. -/
structure LaneOut where
  elems : Bytes
  scales : Bytes
  emax : Nat
  clamps : Nat
  nonfinite : Nat
  deriving DecidableEq, Repr

/-- E_max of a lane from the operand form of its blocks, 0x8000 when all are zero blocks (R48, R49). -/
def laneOutEmax (fmt : Nat) (blks : List Narrowed) : Nat :=
  match blks.filterMap (fun b => (toOperand fmt b.codes b.scale).e) with
  | [] => 0x8000
  | e :: t => twos 16 (t.foldl max e)

/-- E_max of a lane in a format no core takes: no rule states it, but it is not the 0x8000 of a lane of zeros (R48, R49). -/
def notZeroLane (v : Nat) : Nat := let e := v % 65535; if e < 0x8000 then e else e + 1

/-- Narrow or round a lane (R37, R43, R52, R53, R56); `fr` numbers its free values, one for each element. -/
def laneOut (fmt : Nat) (uniform : Bool) (xs : List Word) (fr : Nat) : LaneOut :=
  if scaledFmt fmt then
    let n := cdiv xs.length 32
    let vs := xs.map ofF32 ++ List.replicate (32 * n - xs.length) .zero
    let blks := ((runsOf 32 n vs).zip (List.range n)).map (fun b =>
      narrowBlock fmt (if uniform then narrowShift fmt 0 vs else narrowShift fmt 0 b.1) b.1 (fr + 32 * b.2))
    { elems := (packElems fmt ((blks.map (fun b => b.codes)).flatten)).take (laneBytes fmt (32 * n))
      scales := blks.map (fun b => BitVec.ofNat 8 b.scale), emax := laneOutEmax fmt blks
      clamps := (blks.map (fun b => b.clamps)).foldl (· + ·) 0
      nonfinite := (blks.map (fun b => b.nonfinite)).foldl (· + ·) 0 }
  else
    let code (x : Word × Nat) : Nat := match fmt with
      | 0x0B => (f16 (ofF32 x.1)).toNat
      | 0x0C => (bf16 (ofF32 x.1)).toNat
      | 0x0D => x.1.toNat
      | _ => if lnsFmt fmt then lnsCode fmt (ofF32 x.1) (Config.freeNat (fr + x.2)) else Config.freeNat (fr + x.2)
    let lost := xs.filter (fun x => match ofF32 x with | .num _ _ _ => false | _ => lnsFmt fmt)
    { elems := packElems fmt ((xs.zip (List.range xs.length)).map code), scales := []
      emax := notZeroLane (Config.freeNat (fr + xs.length)), clamps := 0, nonfinite := lost.length }

/-- Count a lane's clamps and non-finite elements (R37, R53). -/
def State.countLane (s : State) (x : LaneOut) : State :=
  (s.count .scaleClamp 0 x.clamps).count .nonfiniteOut 0 x.nonfinite

/-- Write one lane of an activation vector (R48): elements behind the header at the lane pitch, scales behind all lanes. DESIGN
CHOICE: a pitch field of 0 is a pitch of 0 and not the packed one (log 106). -/
def State.putVectorLane (s : State) (o : Op) (l : Nat) (x : LaneOut) : State × List Status :=
  let d := HubF.dest o
  let nb := cdiv (HubF.elems o) 32
  let r := s.hallPut [(d + 2 * l, toLE 2 x.emax), (d + 256 + l * HubF.opitch o, x.elems),
    (d + 256 + HubF.lanes o * HubF.opitch o + l * nb, x.scales)]
  (r.1.countLane x, r.2)

/-- Lanes past a vector's lane count hold 0x8000 in its header (R48). -/
def State.putHeaderRest (s : State) (o : Op) : State × List Status :=
  s.hallPut [(HubF.dest o + 2 * HubF.lanes o, (List.replicate (128 - HubF.lanes o) (toLE 2 0x8000)).flatten)]

/-! ### ADDNORM and CONVERT -/

/-- Values in an order the manual leaves to the bridges (R389): a free value picks the next of those left. -/
def arrivalOrder (fr : Nat) : Nat → List Word → List Word
  | 0, _ => []
  | n + 1, xs =>
    let i := Config.freeNat (fr + n) % xs.length
    (xs[i]?).toList ++ arrivalOrder fr n (xs.eraseIdx i)

/-- y of ADDNORM from one lane's sums r and the norm weights (R389). -/
def normLane (ws : Option (List Word)) (eps : Word) (fr : Nat) (r : List Word) : List Word :=
  match ws with
  | none => r
  | some ws =>
    let sum := (arrivalOrder fr r.length (r.map (fun x => f32mul x x))).foldl f32add 0
    let root := f32 (FVal.sqrt (ofF32 (f32add (f32div sum (f32 (.ofInt r.length 0))) eps)))
    (r.zip ws).map (fun x => f32div (f32mul x.1 x.2) root)

/-- One lane of ADDNORM. -/
def State.addnormLane (s : State) (o : Op) (ws : Option (List Word)) (l : Nat) : State × List Status :=
  let n := HubF.elems o
  let a := s.laneValues 0x0C (HubF.srca o) (HubF.apitch o) (HubF.lanes o) n l
  let b := a.1.laneValues (HubF.ifmt o) (HubF.srcb o) (HubF.apitch o) (HubF.lanes o) n l
  let r := (a.2.1.zip b.2.1).map (fun x => bf16 (ofF32 (f32add x.1 x.2)))
  let s1 := b.1.hallPut [(HubF.srca o + HubF.apitch o * l, (r.map (fun x => toLE 2 x.toNat)).flatten)]
  let y := normLane ws (HubF.eps o) s1.1.free (r.map (fun x => f32 (ofBF16 x)))
  let s2 := s1.1.draw n
  let s3 := (s2.draw (n + 32)).putVectorLane o l (laneOut (HubF.ofmt o) (HubF.uniform o) y s2.free)
  (s3.1, a.2.2 ++ b.2.2 ++ s1.2 ++ s3.2)

/-- Lanes of an operation one after the other, with the statuses they met. -/
def State.eachLane (s : State) (o : Op) (f : State → Nat → State × List Status) : State × List Status :=
  (List.range (HubF.lanes o)).foldl (fun acc l => let r := f acc.1 l; (r.1, acc.2 ++ r.2)) (s, [])

def State.hubAddnorm (s : State) (o : Op) : State × List Status :=
  let w := if HubF.normw o = 0xFFFFFFFF then (s, none, [])
    else
      let r := s.laneValues 0x0C (HubF.normw o) 0 1 (HubF.elems o) 0
      (r.1, some r.2.1, r.2.2)
  let x := w.1.eachLane o (fun s l => s.addnormLane o w.2.1 l)
  let h := x.1.putHeaderRest o
  (h.1, w.2.2 ++ x.2 ++ h.2)

def State.hubConvert (s : State) (o : Op) : State × List Status :=
  let x := s.eachLane o (fun s l =>
    let a := s.laneValues (HubF.ifmt o) (HubF.srca o) (HubF.apitch o) (HubF.lanes o) (HubF.elems o) l
    let r := (a.1.draw (HubF.elems o + 32)).putVectorLane o l (laneOut (HubF.ofmt o) (HubF.uniform o) a.2.1 a.1.free)
    (r.1, a.2.2 ++ r.2))
  let h := x.1.putHeaderRest o
  (h.1, x.2 ++ h.2)

/-! ### MERGE and PSUM -/

/-- Bytes at a lane's or row's place in the layout of R142 or R159. -/
def State.putRow (s : State) (o : Op) (x : LaneOut) (elems scales : Nat) : State × List Status :=
  let r := s.hallPut [(HubF.dest o + elems, x.elems), (HubF.dest o + scales, x.scales)]
  (r.1.countLane x, r.2)

/-- Blocks of 32 elements in a PARTIAL row of a pitch (R159). -/
def partialBlocks (pitch : Nat) : Nat := (pitch - 8) / 128

/-- MERGE: parts in ascending order brought exactly to the largest μ, added, divided and narrowed (R161). A part 2^1,000 below the
largest adds what one further below does: less than half the last place of any FP32 sum. -/
def State.mergeRow (s : State) (o : Op) (row : Nat) : State × List Status :=
  let h := partialBlocks (HubF.apitch o)
  let parts := (List.range (HubF.parts o)).map (fun p => HubF.srca o + p * HubF.ppitch o + row * HubF.apitch o)
  let rd := parts.foldl (fun (acc : State × List Bytes × List Status) a =>
    let r := acc.1.hallTake a (8 + 128 * h)
    (r.1, acc.2.1 ++ [r.2.1], acc.2.2 ++ r.2.2)) (s, [], [])
  let mus := rd.2.1.map (fun b => signed 32 (ofLE (slice b 0 4)))
  let top := mus.foldl max (mus.headD 0)
  let part (b : Bytes) (k : Nat) (mu : Int) : FVal :=
    (ofF32 (BitVec.ofNat 32 (ofLE (slice b (4 + 4 * k) 4)))).scale (max (mu - top) (-1000))
  let total (k : Nat) : Word := match (rd.2.1.zip mus).map (fun x => part x.1 k x.2) with
    | [] => 0
    | a :: t => t.foldl (fun acc x => f32 (FVal.add (ofF32 acc) x)) (f32 a)
  let ell := total 0
  let ys := (List.range (32 * h)).map (fun k => f32div (total (k + 1)) ell)
  let x := laneOut (HubF.ofmt o) (HubF.uniform o) ys rd.1.free
  let at_ := HubF.opitch o * row
  let w := (rd.1.draw (32 * h)).putRow o x at_ (at_ + x.elems.length)
  (w.1, rd.2.2 ++ w.2)

def State.hubMerge (s : State) (o : Op) : State × List Status :=
  (List.range (HubF.elems o)).foldl (fun acc r => let x := acc.1.mergeRow o r; (x.1, acc.2 ++ x.2)) (s, [])

/-- PSUM: the INT32 parts of each row and lane added in FP32 in ascending order (R140). -/
def State.hubPsum (s : State) (o : Op) : State × List Status :=
  s.eachLane o (fun s l =>
    let rd := (List.range (HubF.parts o)).foldl (fun (acc : State × List (List Word) × List Status) p =>
      let r := acc.1.laneValues 0x0A (HubF.srca o + p * HubF.ppitch o) (HubF.apitch o) (HubF.lanes o) (HubF.elems o) l
      (r.1, acc.2.1 ++ [r.2.1], acc.2.2 ++ r.2.2)) (s, [], [])
    let ys := (List.range (HubF.elems o)).map (fun k => match rd.2.1.map (fun p => p.getD k 0) with
      | [] => 0
      | a :: t => t.foldl f32add a)
    let w := (rd.1.draw (HubF.elems o + 32)).putRow o (laneOut (HubF.ofmt o) (HubF.uniform o) ys rd.1.free) (HubF.opitch o * l)
      (HubF.opitch o * HubF.lanes o + leastSpitch (HubF.elems o) * l)
    (w.1, rd.2.2 ++ w.2))

/-! ### SAMPLE (R225 to R227) -/

/-- The 32 candidate lists of a lane (R225): finisher f's list of ELEMS records of 8 B stands PPITCH × f behind SRCA. -/
def State.laneCandidates (s : State) (o : Op) (lane : Nat) : State × List (Word × Nat) × List Status :=
  (List.range 32).foldl (fun (acc : State × List (Word × Nat) × List Status) f =>
    let r := acc.1.hallTake (HubF.srca o + HubF.ppitch o * f + HubF.apitch o * lane) (8 * HubF.elems o)
    (r.1, acc.2.1 ++ (List.range (HubF.elems o)).map (fun i =>
      (BitVec.ofNat 32 (ofLE (slice r.2.1 (8 * i) 4)), ofLE (slice r.2.1 (8 * i + 4) 4))), acc.2.2 ++ r.2.2)) (s, [], [])

/-- exp2 of the sampler, within a relative 2⁻²² of the exact value (R226). -/
def samplerExp2 (x : Word) : Word := withinOf 22 (FVal.exp2 (ofF32 x)) (Config.exp2 x)

/-- The candidate a stream's sampler chooses of a merged list, with whether it drew (R226): `draw` is the generator's
number, `pick` chooses where rounding leaves no candidate above the draw. -/
def sampleFrom (topK : Nat) (temp topP draw pick : Nat) (cs : List (Word × Nat)) : Option (Sampled × Bool) :=
  let l := (cs.foldl (fun acc c => candInsert c acc) []).take topK
  match l with
  | [] => none
  | c0 :: rest =>
    if temp % 2 ^ 31 = 0 then some ({ token := BitVec.ofNat 24 c0.2, prob := 0x3F80, rank := 0 }, false)
    else
      let t32 : Word := BitVec.ofNat 32 temp
      let w : List Word := 0x3F800000 :: rest.map (fun c =>
        samplerExp2 (f32div (f32mul (f32 (FVal.add (ofF32 c.1) (ofF32 c0.1).neg)) 0x3FB8AA3B) t32))
      let sums : List Word := w.foldl (fun (acc : List Word) x => acc ++ [f32add (acc.getLast?.getD 0) x]) [0]
      let sAt (j : Nat) : Word := sums.getD j 0
      let n := w.length
      let want := f32mul (BitVec.ofNat 32 topP) (sAt n)
      let m := ((List.range n).find? (fun j => FVal.le (ofF32 want) (ofF32 (sAt (j + 1))))).map (· + 1) |>.getD n
      let t := f32mul (f32 ((ofF32 (f32 (.ofInt (draw % 2 ^ 32) 0))).scale (-32))) (sAt m)
      let j := ((List.range m).find? (fun i => FVal.lt (ofF32 t) (ofF32 (sAt (i + 1))))).getD (pick % m)
      some ({ token := BitVec.ofNat 24 ((l.getD j c0).2), prob := bf16 (ofF32 (f32div (w.getD j 0) (sAt m))), rank := j },
        true)

/-- F of R227: a Feistel permutation of 12 rounds over 64-bit counters. DESIGN CHOICE: its halves are of 32 bits, the upper one first;
the round function is not given (log 109). -/
def feistel (key : BitVec 70) (n : BitVec 64) : BitVec 64 :=
  let r := (List.range 12).foldl (fun (x : BitVec 32 × BitVec 32) i => (x.2, x.1 ^^^ Config.feistelRound i key x.2))
    (n.extractLsb' 32 32, n.extractLsb' 0 32)
  r.1 ++ r.2

/-- K of R227: the gallery's six bits over the key. -/
def generatorKey (gal : Nat) (key : BitVec 64) : BitVec 70 := BitVec.ofNat 70 (gal * 2 ^ 64 + key.toNat)

/-- Whether the step of a member gives a token: a decode step, or a prefill that steps the last pending token of a GO
APPEND (R210, R216). -/
def State.givesToken (s : State) (g : LaneGroup) (m : Member) : Bool :=
  let x := s.ctx m.stream
  if g.prefill then decide (x.pending ≤ m.tokens) && (match (s.appendsOf m.stream).filter (fun a => a.left.isSome) with
      | [] => false
      | l => (l.getLast?.map (fun a => a.go)).getD false)
  else true

/-- Sample for one member whose last lane is `lane`. -/
def State.sampleMember (s : State) (o : Op) (gid lane : Nat) (m : Member) : State × List Status :=
  let r := s.laneCandidates o lane
  let x := r.1.ctx m.stream
  let num := (feistel (generatorKey x.gal x.gkey) x.gctr).toNat % 2 ^ 32
  match sampleFrom x.topK x.temp.toNat x.topP.toNat num (Config.freeNat r.1.free) r.2.1 with
  | none => (r.1, r.2.2)
  | some (v, drew) =>
    let s1 := (r.1.draw 1).setCtx m.stream (if drew then { x with gctr := x.gctr + 1 } else x)
    (s1.updGroup gid (fun g => { g with members := g.members.map (fun k =>
      if k.stream = m.stream then { k with sampled := some v } else k) }), r.2.2)

def State.hubSample (s : State) (o : Op) : State × List Status :=
  match o.org with
  | .ring _ _ => (s, [])
  | .step gid => match s.doc.groups.find? (fun g => g.id == gid) with
    | none => (s, [])
    | some g =>
      let r := g.members.foldl (fun (acc : State × Nat × List Status) m =>
        let last := acc.2.1 + m.tokens
        if acc.1.givesToken g m then
          let q := acc.1.sampleMember o gid (last - 1) m
          (q.1, last, acc.2.2 ++ q.2)
        else (acc.1, last, acc.2.2)) (s, 0, [])
      (r.1, r.2.2)

/-! ### Broadcasts (R48, R87, R389) -/

/-- Logical cores of the plinths a broadcast addresses. -/
def maskCores (mask : Nat) : List Nat := ((List.range 8).filter (fun p => bit mask p)).flatMap plinthCores

/-- Start a broadcast: a core whose entry fails R92 or is no ring fails it with BAD_HANDLE; otherwise it waits its turn on
each plinth, a Carmine one ahead of others not begun (R218). -/
def State.bcastStart (s : State) (o : Op) : State :=
  let cores := maskCores (HubF.pmask o)
  let ref := HubF.ahdl o
  if cores.any (fun c => s.hrefBad c ref o.gal || !(s.href c ref).ring) then
    s.complete (srcHub hubReduction) o { st := .badHandle }
  else
    let b : Broadcast := { op := o, src := HubF.srca o, fmt := HubF.ifmt o, lanes := HubF.lanes o, elems := HubF.elems o
                           pitch := HubF.apitch o, ahdl := ref, next := 0, total := cdiv (HubF.elems o) 160 }
    let s1 := if b.total = 0 then s else cores.foldl (fun s c => s.useHandle c ref true) s
    let s2 := if b.total = 0 then s1 else ((List.range 8).filter (fun p => bit (HubF.pmask o) p)).foldl (fun s p =>
      let x := s.plinth p
      let ahead := fun (y : Broadcast) => decide (0 < y.next) || y.op.cls == 0 || o.cls != 0
      s.setPlinth p { x with broadcasts := x.broadcasts.takeWhile ahead ++ b :: x.broadcasts.dropWhile ahead }) s1
    s2.hubStart o

/-- Lanes a broadcast's vector has in its ring. -/
def Broadcast.ringLanes (b : Broadcast) : Nat := if coreAct b.fmt then laneCount b.fmt else if b.lanes ≤ 64 then 64 else 128

/-- Whether a core holds a credit for a broadcast's next chunk. -/
def State.hasCredit (s : State) (b : Broadcast) (c : Nat) : Bool :=
  let h := s.href c b.ahdl
  decide (h.slots.length < h.ringSlots (vectorSlot b.fmt b.ringLanes))

/-- One chunk of a broadcast as it stands in a ring slot, with the non-finite elements and clamped blocks of its
conversion (R85, R86, R48): positions past the vector travel as zero with scale 0xFF. -/
def State.bcastSlot (s : State) (b : Broadcast) (emax : List Nat) : Bytes × Nat × Nat :=
  let w := elemBits b.fmt
  let c := b.next
  let nb := cdiv b.elems 32
  let live := min 160 (32 * nb - 160 * c)
  let elems (l : Nat) : Bytes := if l < b.lanes then
      slice (s.hallBytes (b.src + 256 + l * b.pitch + 160 * c * w / 8) (live * w / 8)) 0 (160 * w / 8)
    else List.replicate (160 * w / 8) 0
  if coreAct b.fmt then
    let lanes := (List.range (laneCount b.fmt)).map (fun l =>
      let sc := if l < b.lanes then s.hallBytes (b.src + 256 + b.lanes * b.pitch + l * nb + 5 * c) (live / 32) else []
      laneBlocks b.fmt (elems l ++ sc ++ List.replicate (5 - sc.length) 0xFF) 0 (160 * w / 8) 5)
    let x := buildSlot b.fmt lanes emax
    (x.1, ((lanes.flatten).map (fun k => k.nonfinite)).foldl (· + ·) 0, x.2)
  else (((List.range b.ringLanes).map elems).flatten, 0, 0)

/-- Put one chunk into a core's ring: the header first, with chunk 0. -/
def State.ringPut (s : State) (b : Broadcast) (c : Nat) (header : Bytes) (slot : Bytes × Nat × Nat) : State :=
  let k := s.core c
  let i := refIndex b.ahdl
  let h := k.handle i
  let size := vectorSlot b.fmt b.ringLanes
  let s1 := if b.next = 0 then (s.writeScratch c (64 * h.base) header).1 else s
  let s2 := (s1.writeScratch c (64 * h.base + 256 + h.prod % h.ringSlots size * size) slot.1).1
  let k2 := s2.core c
  ((s2.setCore c (k2.setHandle i { h with prod := h.prod + 1, slots := h.slots ++ [b.next] })).count .nonfiniteIn c
    slot.2.1).count .scaleClamp 0 slot.2.2

/-- Whether every core a broadcast addresses, on whichever plinth, holds a credit for its next chunk or has that chunk (R87). -/
def State.allCredit (s : State) (b : Broadcast) : Bool :=
  ((List.range 8).filter (fun p => bit (HubF.pmask b.op) p)).all (fun p =>
    match (s.plinth p).broadcasts.find? (fun y => y.op.id == b.op.id) with
    | none => true
    | some y => decide (b.next < y.next) || (plinthCores p).all (s.hasCredit y))

/-- BROADCAST_CHUNK_SEND: the plinth's broadcast unit sends the next chunk once every core addressed holds a credit (R87); what holds
it back, the bridge's rate among it, counts as BCAST_STALL (R24, R460). The converter takes E_max ahead of the first chunk (R48). -/
def execBroadcastChunkSend (plinth : PlinthNo) (s : State) : Host.Outcome State Fault Refusal :=
  match (s.plinth plinth.val).broadcasts with
  | [] => .next s
  | b :: rest =>
    let cores := plinthCores plinth.val
    if !s.running || decide (b.total ≤ b.next) then .next s
    else if !s.allCredit b then .next (s.waitBegin (srcPlinth plinth.val) 4 b.op.identity)
    else
      let header := s.hallBytes b.src 256
      let emax := if b.next = 0 then headerEmax header else b.emax
      let slot := s.bcastSlot b emax
      let s0 := (s.waitEnd (srcPlinth plinth.val) 4 b.op.identity (some (.bcastStall, plinth.val))).waitFree
        (srcPlinth plinth.val) 13 b.op.identity (some (.bcastStall, plinth.val))
      let s1 := if b.next = 0 then (s0.noteHallUse b.src 256).1 else s0
      let s2 := cores.foldl (fun s c => s.ringPut b c header slot) s1
      let x := s2.plinth plinth.val
      let done := decide (b.total ≤ b.next + 1)
      let s3 := s2.setPlinth plinth.val { x with broadcasts :=
        if done then rest else { b with next := b.next + 1, emax := emax } :: rest }
      .next (if done then cores.foldl (fun s c => s.useHandle c b.ahdl false) s3 else s3)

/-! ### Acceptance and completion -/

def State.acceptAddnorm (s : State) (o : Origin) (d : Line64) : State :=
  s.accept (srcHub hubReduction) o d opHub (hubChecks 0) State.hubStart
def State.acceptConvert (s : State) (o : Origin) (d : Line64) : State :=
  s.accept (srcHub hubReduction) o d opHub (hubChecks 1) State.hubStart
def State.acceptBcast (s : State) (o : Origin) (d : Line64) : State :=
  s.accept (srcHub hubReduction) o d opHub (hubChecks 2) State.bcastStart
def State.acceptMerge (s : State) (o : Origin) (d : Line64) : State :=
  s.accept (srcHub hubReduction) o d opHub (hubChecks 3) State.hubStart
def State.acceptPsum (s : State) (o : Origin) (d : Line64) : State :=
  s.accept (srcHub hubReduction) o d opHub (hubChecks 4) State.hubStart
def State.acceptSample (s : State) (o : Origin) (d : Line64) : State :=
  s.accept (srcHub hubDocent) o d opHub (hubChecks 5) State.hubStart

/-- ADDNORM, CONVERT, BCAST, MERGE, PSUM and SAMPLE (R389). -/
def execAddnorm (o : Origin) (d : Line64) (s : State) : Host.Outcome State Fault Refusal := .next (s.acceptAddnorm o d)
def execConvert (o : Origin) (d : Line64) (s : State) : Host.Outcome State Fault Refusal := .next (s.acceptConvert o d)
def execBcast (o : Origin) (d : Line64) (s : State) : Host.Outcome State Fault Refusal := .next (s.acceptBcast o d)
def execMerge (o : Origin) (d : Line64) (s : State) : Host.Outcome State Fault Refusal := .next (s.acceptMerge o d)
def execPsum (o : Origin) (d : Line64) (s : State) : Host.Outcome State Fault Refusal := .next (s.acceptPsum o d)
def execSample (o : Origin) (d : Line64) (s : State) : Host.Outcome State Fault Refusal := .next (s.acceptSample o d)

/-- What a hub operation does by its end, with the statuses it met. -/
def State.hubWork (s : State) (o : Op) : State × List Status :=
  match HubF.func o with
  | 0 => s.hubAddnorm o
  | 1 => s.hubConvert o
  | 3 => s.hubMerge o
  | 4 => s.hubPsum o
  | 5 => s.hubSample o
  | _ => (s, [])

/-- Whether a broadcast still runs on some plinth. -/
def State.bcastRuns (s : State) (o : Op) : Bool := s.plinths.any (fun p => p.2.broadcasts.any (fun b => b.op.id == o.id && decide (b.next < b.total)))

/-- Whether an operation is the one its unit serves: the first in line; a broadcast has its plinths' units. -/
def State.hubServes (s : State) (o : Op) : Bool := HubF.func o == 2 || hubHead s.hubOps o == some o

/-- HUB_OPERATION_COMPLETE: the operation that the reduction engine or the sampler serves, or a broadcast, ends, and the unit starts
the next in line (R218, R389). -/
def execHubOperationComplete (op : Nat) (s : State) : Host.Outcome State Fault Refusal :=
  match s.hubOps.find? (fun o => o.id == op) with
  | none => .next s
  | some o =>
    if !s.running || s.bcastRuns o || !s.hubServes o then .next s
    else
      let r := s.hubWork o
      let left := r.1.hubOps.filter (fun p => p.id != op)
      let s1 := State.complete { r.1 with hubOps := left } (srcHub (hubUnit o)) o { st := worst r.2 }
      .next (match (if HubF.func o = 2 then none else hubHead left o) with
        | none => s1
        | some p => s1.opEvent (srcHub hubReduction) 2 p .ok)

end Sys2Proof.Machine
end

