-- ==== Sys2Proof/Machine/Fabric.lean ====
section
/-! DEFINITION. The Breosh fabric as every family of its commands uses it (chapter 13): packet headers, wiring, routing,
the link layer's sending side, notices and quiesces (R342 to R363, R373 to R377). -/

namespace Sys2Proof.Machine

/-! ### Notices (R373 to R375) -/

/-- A notice in the fields of R373. -/
structure Notice where
  kind   : Nat
  serial : Nat
  origin : Nat
  effect : Nat := 0
  port   : Nat := 0
  planes : Nat := 0
  mapGen : Nat := 0
  deriving DecidableEq, Repr

/-- KIND values. -/
def noteDown : Nat := 0
def noteReturn : Nat := 1
def notePlanes : Nat := 2
def noteQuiesce : Nat := 3
def noteKey : Nat := 4

/-- SCOPE: the LINK kinds stay in the cabinet. -/
def Notice.machine (n : Notice) : Bool := decide (2 ≤ n.kind)

/-- A notice and its payload (R373). -/
def Notice.line (n : Notice) : Line32 :=
  BitVec.ofNat 256 (putF 0 0 (n.kind % 16) + putF 0 4 (if n.machine then 1 else 0) + putF 2 0 (n.serial % 65536) +
    putF 4 0 (n.origin % 2 ^ 17) + putF 8 0 (n.effect % 2 ^ 64) + putF 16 0 (n.port % 32) + putF 17 0 (n.planes % 256) +
    putF 18 0 (n.mapGen % 65536))
def Notice.of (l : Line32) : Notice :=
  { kind := fld l 0 3 0, serial := fld l 2 15 0, origin := fld l 4 16 0, effect := fld l 8 63 0, port := fld l 16 4 0
    planes := fld l 17 7 0, mapGen := fld l 18 15 0 }

/-- Whether uplink peer k is configured, its device and its port (R398). -/
def State.peerValid (s : State) (k : Nat) : Bool := s.flag .beatUpPeer [k] 31
def State.peerDev (s : State) (k : Nat) : Nat := s.field .beatUpPeer [k] 16 0
def State.peerPort (s : State) (k : Nat) : Nat := 24 + s.field .beatUpPeer [k] 19 17

/-- Whether a port carries VL0 traffic (R349). -/
def PortSt.live (x : PortSt) : Bool := x == .standby || x == .up

/-- Send a one-unit control packet on a port (R346, R354). -/
def State.sendControl (s : State) (p type dst : Nat) (line : Line32) : State :=
  s.portSend p (pktHdr type 0 1 s.beat 0 dst s.devId 0 []) (lineBytes line)

/-- Device ID at the far end of a cabinet port. -/
def State.wiredId (s : State) (p : Nat) : Nat := cabOf s.devId * 64 + (wired (slotOf s.devId) p).1

/-- Send a notice on everything but where it came from (R374). -/
def State.forwardNotice (s : State) (n : Notice) (came : Option Neighbour) : State :=
  let ps := (List.range 24).filter (fun p => (s.port p).st.live && came != some (.port (Fin.ofNat 24 p)))
  let ks := if n.machine then (List.range 2).filter (fun k => s.peerValid k && came != some (.uplink (Fin.ofNat 2 k))) else []
  let s1 := ps.foldl (fun s p => s.sendControl p tyNotice (s.wiredId p) n.line) s
  ks.foldl (fun s k => s.sendControl (s.peerPort k) tyNotice (s.peerDev k) n.line) s1

/-- Remember a pair; a full table lets its oldest go (R374). -/
def State.rememberPair (s : State) (origin serial : Nat) : State :=
  let live := s.fab.seen.filter (fun e => e.2.2 != 0)
  let full := decide (4096 ≤ live.length)
  let old := if full then live.drop 1 else s.fab.seen
  State.countIf { s with fab := { s.fab with seen := old ++ [(origin, serial, 64)] } } full .noteEvict 0

/-- The later of two map generations, as serial numbers modulo 65,536 (R376). -/
def laterGen (a b : Nat) : Nat := if (b + 65536 - a) % 65536 < 32768 then b else a

/-- Take in a pending quiesce: the same Q merges, a ninth distinct one is dropped (R376). -/
def State.addQuiesce (s : State) (q mapGen : Nat) : State :=
  let l := s.fab.quiesces
  if l.any (fun x => x.q == q) then
    { s with fab := { s.fab with quiesces := l.map (fun x => if x.q = q then { x with mapGen := laterGen x.mapGen mapGen } else x) } }
  else if 8 ≤ l.length then s.count .quiesceDrop 0 1
  else { s with fab := { s.fab with quiesces := insertBy (fun x => x.q) { q := q, mapGen := mapGen, ops := [] } l } }

/-- A quiesce learnt of: too late for a LOCKED device, it costs the lock (R369, R376). -/
def State.learnQuiesce (s : State) (q mapGen : Nat) : State :=
  if q ≤ s.beat + 2 ∧ s.fab.beat.st = .locked then
    { s with fab := { s.fab with beat := { s.fab.beat with lossDue := some .lateQuiesce } } }
  else s.addQuiesce q mapGen

/-- The UP planes of a device in the plane table. -/
def State.setPlanes (s : State) (dev : Nat) (m : BitVec 8) : State :=
  { s with fab := { s.fab with planes := Tbl.put s.fab.planes dev m 0 } }

/-- What a notice brings at its EFFECT (R375). -/
def State.noticeEffect (s : State) (n : PendNotice) : State :=
  if n.kind = noteReturn then { s with fab := { s.fab with links := Tbl.insert s.fab.links (linkKey (slotOf n.origin) n.port) true } }
  else if n.kind = notePlanes then s.setPlanes n.origin (Tbl.look s.fab.planes n.origin 0 ||| n.planes)
  else if n.kind = noteKey then
    { s with fab := { s.fab with macSend := Tbl.put s.fab.macSend (n.port % 8) (bit n.port 3) false } }
  else s

/-- A notice's effect now, or at boundary EFFECT + 1 (R375). -/
def State.noticeLater (s : State) (n : Notice) : State :=
  let x : PendNotice := { kind := n.kind, origin := n.origin, effect := n.effect, port := n.port, planes := BitVec.ofNat 8 n.planes }
  if n.effect = 0 then s.noticeEffect x else { s with fab := { s.fab with pendNotices := s.fab.pendNotices ++ [x] } }

/-- Act on a notice (R375). A LINK notice of another cabinet names no link of this one. -/
def State.actNotice (s : State) (n : Notice) : State :=
  let near := cabOf n.origin == cabOf s.devId && decide (n.port < 24)
  if n.kind = noteDown then
    if near then { s with fab := { s.fab with links := s.fab.links.erase (linkKey (slotOf n.origin) n.port) } } else s
  else if n.kind = noteReturn then if near then s.noticeLater n else s
  else if n.kind = notePlanes then
    (s.setPlanes n.origin (Tbl.look s.fab.planes n.origin 0 &&& BitVec.ofNat 8 n.planes)).noticeLater n
  else if n.kind = noteQuiesce then s.learnQuiesce n.effect n.mapGen
  else if n.kind = noteKey then s.noticeLater n
  else s

/-- Raise a notice of this device's own: numbered, remembered, acted on and sent (R374, R375). -/
def State.raiseNotice (s : State) (kind effect port planes mapGen : Nat) : State :=
  let n : Notice := { kind := kind, serial := s.fab.serial, origin := s.devId, effect := effect, port := port
                      planes := planes, mapGen := mapGen }
  let s1 : State := { s with fab := { s.fab with serial := (s.fab.serial + 1) % 65536 } }
  ((s1.rememberPair n.origin n.serial).actNotice n).forwardNotice n none

/-! ### Ports that leave UP, and ports that return (R349, R351, R352) -/

/-- Route a packet of this device again: a DATA packet whose way is gone is lost, and counted (R351). -/
def State.reroute (s : State) (p : Nat) (h : Line16) (payload : Bytes) : State :=
  if Pkt.type h != tyData then s
  else if Pkt.src h = s.devId then
    match s.wayTo (Pkt.dst h) (Pkt.flow h) with
    | none => s.rerouted .brlDropLink p 1
    | some (q, vias, detour) =>
      (s.rerouted .brlDetour 0 (if detour then 1 else 0)).portSend q
        (pktHdr tyData 0 (payload.length / 32) (Pkt.ibeat h) (Pkt.proto h) (Pkt.dst h) s.devId (Pkt.flow h) vias) payload
  else s.rerouted .brlDropLink p 1

/-- Own planes that are ACTIVE and UP. -/
def State.ownPlanes (s : State) : Nat :=
  ((List.range 8).map (fun p => if bit (s.inEffect .brlUpCfg [] 7 0) p && (s.port (24 + p)).st == .up then 2 ^ p else 0)).foldl
    (· + ·) 0

/-- Take a port out of UP: its unacknowledged packets are dropped, those it held are routed again, and the change is
announced (R351, R375). -/
def State.leaveUp (s : State) (p : Nat) (dest : PortSt) : State :=
  let x := s.port p
  let s1 := ((s.setPort p { x with retry := [], queue := [], returning := none, downFor := 0 }).setPortSt p dest).rerouted
    .brlDropLink p x.retry.length
  let s2 := x.queue.foldl (fun s q => s.reroute p q.1 q.2) s1
  if p < 24 then s2.raiseNotice noteDown 0 p 0 0
  else
    let m := s2.ownPlanes
    let back := ((List.range 8).filter (fun k => (s2.port (24 + k)).returning.isSome && s2.fab.announced.getLsbD k)).map (fun k => 2 ^ k)
    State.raiseNotice { s2 with fab := { s2.fab with announced := BitVec.ofNat 8 (back.foldl (· + ·) m) } } notePlanes 0 0 m 0

/-- An UP port fails: it goes DOWN with a LINK_DOWN incident of the cause in the order of R349 (R406). -/
def State.portDown (s : State) (p cause : Nat) : State :=
  if (s.port p).st = .up then
    (s.incident clsLink 0x30 .ok (srcPort p) (s.port p).peerId cause).leaveUp p .down
  else s

/-- Take a port to another state from any: out of UP as R351 says. -/
def State.portTo (s : State) (p : Nat) (dest : PortSt) : State :=
  if (s.port p).st = .up then s.leaveUp p dest
  else
    let x := s.port p
    State.setPortSt (s.setPort p { x with retry := [], queue := [], returning := none, downFor := 0 }) p dest

/-- A port out of DISABLED begins training (R349). -/
def State.portStart (s : State) (p : Nat) : State :=
  if (s.port p).st = .disabled ∧ s.running ∧ s.flag .brlCtrl [] 0 ∧ ¬ s.flag .brlPortCtrl [p] 0 then s.setPortSt p .training
  else s

/-- Every port that may leave DISABLED does (R349, R489). -/
def State.portsStart (s : State) : State := (List.range 32).foldl State.portStart s

/-- Every port goes to DISABLED. -/
def State.portsStop (s : State) : State := (List.range 32).foldl (fun s p => s.portTo p .disabled) s

/-- EFFECT of a return: a pending quiesce beat at least 16 beats ahead, else the next quiesce beat R376 allows (R352,
R491). -/
def State.returnBeat (s : State) : Nat :=
  match s.fab.quiesces.find? (fun q => decide (s.beat + 16 ≤ q.q)) with
  | some q => q.q
  | none => alignUp (s.beat + 16) 32

/-- Announce the ports that stand in STANDBY, and the own planes where they have changed, at a locked boundary (R352,
R375, R491). -/
def State.announce (s : State) : State :=
  if !s.locked then s
  else
    let e := s.returnBeat
    let s1 := (List.range 24).foldl (fun s p =>
      let x := s.port p
      if x.st = .standby ∧ x.returning.isNone then
        (s.setPort p { x with returning := some e }).raiseNotice noteReturn e p 0 0 else s) s
    let s2 := (List.range 8).foldl (fun s k =>
      let x := s.port (24 + k)
      if x.st = .standby ∧ x.returning.isNone then s.setPort (24 + k) { x with returning := some e } else s) s1
    let m := ((List.range 8).map (fun k => if bit (s2.inEffect .brlUpCfg [] 7 0) k &&
      ((s2.port (24 + k)).st == .up || (s2.port (24 + k)).returning.isSome) then 2 ^ k else 0)).foldl (· + ·) 0
    if s2.fab.announced = BitVec.ofNat 8 m then s2
    else State.raiseNotice { s2 with fab := { s2.fab with announced := BitVec.ofNat 8 m } } notePlanes e 0 m 0

/-- Ports whose return beat has passed enter routing (R352, R377). -/
def State.returnPorts (s : State) : State :=
  (List.range 32).foldl (fun s p =>
    let x := s.port p
    match x.returning with
    | none => s
    | some e => if e < s.beat then
        (s.setPort p { x with returning := none }).setPortSt p (if x.st = .standby then .up else x.st) else s) s

/-- Notices whose EFFECT + 1 has come (R375). -/
def State.dueNotices (s : State) : State :=
  let due := s.fab.pendNotices.filter (fun n => decide (n.effect < s.beat))
  due.foldl State.noticeEffect { s with fab := { s.fab with pendNotices := s.fab.pendNotices.filter (fun n => !decide (n.effect < s.beat)) } }

end Sys2Proof.Machine
end

