-- ==== Sys2Proof/Machine/Links.lean ====
section
/-! DEFINITION. What arrives on the Breosh ports and what becomes of them: the link layer's receiving side, control packets,
forwarding, sync words and lock, notices, port training and failure, and the loss of the beat (R345 to R372, R374). -/

namespace Sys2Proof.Machine

/-! ### The receiving side (R345, R347, R348) -/

/-- Whether a port takes packets of a type (R349). -/
def PortSt.takes (x : PortSt) (ty : Nat) : Bool :=
  if ty = tyLinkCtrl then x == .check || x.live else if ty = tyData then x == .up else x.live

/-- Ask for a replay with the next packet sent (R347). -/
def State.askReplay (s : State) (p : Nat) : State := if p < 24 then s.setPort p { s.port p with nak := true } else s

/-- Take the acknowledgement a packet carries, and its NAK (R347). -/
def State.takeAck (s : State) (p : Nat) (h : Line16) : State :=
  let x := s.port p
  let rest := if x.retry.any (fun r => r.seq == Pkt.ackSeq h) then
      (x.retry.dropWhile (fun r => r.seq != Pkt.ackSeq h)).drop 1 else x.retry
  let s1 := s.setPort p { x with retry := rest }
  (if Pkt.nak h then s1.replay p else s1).portPump p (x.queue.length)

/-- A DATA packet that has passed the link: it counts only while the device is locked and the packet is young (R348). -/
def State.dataFresh (s : State) (p : Nat) (h : Line16) : State × Bool :=
  if Pkt.type h != tyData then (s, true)
  else if !s.locked then (s, false)
  else if 2 ≤ (s.beat % 256 + 256 - Pkt.ibeat h) % 256 then (s.count .brlAged p 1, false)
  else (s, true)

/-- A packet arrives on a port: the checks of R345, R347, R348 and R354, acknowledgements, and whether it is accepted. -/
def State.arrive (s : State) (p ty : Nat) (h : Line16) (payload : Bytes) : State × Bool :=
  let x := s.port p
  let up := decide (24 ≤ p)
  if !s.alive || Pkt.type h != ty || !x.st.takes ty then (s, false)
  else if hdrBad up h || !up && ty == tyData && cabOf (Pkt.dst h) != cabOf s.devId then
    ((s.count .brlBadHdr p 1).askReplay p, false)
  else if up && Pkt.dst h != s.devId then (s.count .brlCrcFail p 1, false)
  else
    let s1 := s.notePacket p 9 h payload
    if up then s1.dataFresh p h
    else
      let s2 := s1.takeAck p h
      let y := s2.port p
      if Pkt.seq h != (y.rxSeq + 1).toNat then (s2.askReplay p, false)
      else
        let v := Pkt.vl h
        (s2.setPort p { y with rxSeq := y.rxSeq + 1, owed := y.owed.set v (y.owed.getD v 0 + Pkt.len up h + 1) }).dataFresh p h

/-- A DATA packet of a protocol arrives at its destination; a packet that names another device is none of its. -/
def State.arriveData (s : State) (p proto : Nat) (h : Line16) (payload : Bytes) : State × Bool :=
  let r := s.arrive p tyData h payload
  (r.1, r.2 && Pkt.dst h == s.devId && Pkt.proto h == proto)

/-- PACKET_DISCARD: a packet or frame that fails a check is discarded and counted, and asks for a replay on ports 0 to 23
(R345, R354, R362, R365). -/
def execPacketDiscard (port : PortNo) (reason : DiscardReason) (s : State) : Host.Outcome State Fault Refusal :=
  let p := port.val
  .next (if !s.alive || !(s.port p).st.takes tyLinkCtrl then s
    else match reason with
      | .crc | .fcs | .etherType => (s.count .brlCrcFail p 1).askReplay p
      | .header => (s.count .brlBadHdr p 1).askReplay p
      | .macsec => s.count .brlSecDrop p 1
      | .proto => s.count .fabBadProto 0 1)

/-! ### LINK_CTRL (R347, R350) -/

/-- LINK_CTRL_SEND: credits to return, and the identity the wiring check reads (R347, R350). -/
def execLinkCtrlSend (port : PortNo) (s : State) : Host.Outcome State Fault Refusal :=
  let p := port.val
  let x := s.port p
  .next (if !s.alive || decide (24 ≤ p) || !x.st.takes tyLinkCtrl then s
    else
      let line : Line32 := BitVec.ofNat 256 (((List.range 4).map (fun v => putF (2 * v) 0 (x.owed.getD v 0 % 65536))).foldl
        (· + ·) (putF 8 0 s.devId + putF 8 17 p))
      (s.setPort p { x with owed := [0, 0, 0, 0] }).sendControl p tyLinkCtrl (s.wiredId p) line)

/-- The wiring check of a port in CHECK (R350). -/
def State.wiringCheck (s : State) (p id port : Nat) : State :=
  let s1 := s.setPort p { s.port p with peerId := id, peerPort := port }
  let w := wired (slotOf s.devId) p
  if cabOf id = cabOf s.devId ∧ slotOf id = w.1 ∧ port = w.2 then s1.setPortSt p .standby
  else ((s1.setPortSt p .miswired).count .brlMiswire p 1).incident clsLink 0x31 .ok (srcPort p) (id + port * 2 ^ 17) 0

/-- LINK_CTRL_RECEIVE (R347, R350). -/
def execLinkCtrlReceive (port : PortNo) (hdr : Line16) (payload : Line32) (s : State) : Host.Outcome State Fault Refusal :=
  let p := port.val
  let r := s.arrive p tyLinkCtrl hdr (lineBytes payload)
  .next (if p < 24 ∧ r.2 then
    let x := r.1.port p
    let y : Port := { x with credits := (List.range 4).map (fun v => x.credits.getD v 0 + fld payload (2 * v) 15 0) }
    let s1 := (r.1.setPort p y).portPump p y.queue.length
    if x.st = .check then s1.wiringCheck p (fld payload 8 16 0) (fld payload 8 21 17) else s1
  else r.1)

/-! ### Forwarding (R346, R351, R358) -/

/-- Where a packet on its way goes next: its other intermediate, or its destination; none where this device is not the
intermediate its hop count makes it. -/
def nextSlot (own : Nat) (h : Line16) : Option Nat :=
  let dst := slotOf (Pkt.dst h)
  if Pkt.hops h = 0 ∧ Pkt.via1 h = 64 + own then some (if bit (Pkt.via2 h) 6 then Pkt.via2 h % 64 else dst)
  else if Pkt.hops h = 1 ∧ Pkt.via2 h = 64 + own then some dst
  else none

/-- DATA_FORWARD: an intermediate sends a packet on with one hop more and on the next virtual lane; one whose next link has
gone is dropped and counted (R346, R351, R358). -/
def execDataForward (port : PortNo) (hdr : Line16) (payload : Bytes) (s : State) : Host.Outcome State Fault Refusal :=
  let p := port.val
  let r := s.arrive p tyData hdr payload
  let own := slotOf s.devId
  .next (if decide (p < 24) && r.2 && Pkt.dst hdr != s.devId then
    match nextSlot own hdr with
    | none => r.1
    | some b => match byFlow (r.1.hopPorts own b) (Pkt.flow hdr) with
      | none => r.1.rerouted .brlDropLink p 1
      | some q => r.1.portSend q (BitVec.ofNat 128 (setBits (setBits hdr.toNat 7 6 (Pkt.hops hdr + 1)) 5 4 (Pkt.hops hdr + 2)))
          payload
  else r.1)

/-! ### Sync words (R366 to R372) -/

/-- Codes of the beat unit's states (R398). -/
def BeatSt.code : BeatSt → Nat
  | .off => 0 | .root => 1 | .seek => 2 | .locked => 3

/-- Change the beat unit. -/
def State.setBeat (s : State) (b : BeatUnit) : State := { s with fab := { s.fab with beat := b } }

/-- The beat unit's new state, recorded with the counter as it then stands (R458). -/
def State.setBeatSt (s : State) (st : BeatSt) (cnt : Nat) : State :=
  let b := s.fab.beat
  if b.st = st then s
  else (s.setBeat { b with st := st }).event (srcHub hubBeat) 7 0 (st.code + 256 * b.st.code) cnt

/-- What the beat unit keeps of a neighbour: ports 0 to 23, then the uplink peers. -/
def neighbourIdx : Neighbour → Nat
  | .port p => p.val
  | .uplink k => 24 + k.val
def BeatUnit.peer (b : BeatUnit) (i : Nat) : Peer := Tbl.look b.peers i {}
def BeatUnit.setPeer (b : BeatUnit) (i : Nat) (x : Peer) : BeatUnit := { b with peers := Tbl.put b.peers i x {} }

/-- Map generation in force (R366). -/
def State.mapGen (s : State) : Nat := (s.fab.carMap.map (fun m => m.gen)).getD 0

/-- Stratum a device shows in its sync words (R366). -/
def State.shownStratum (s : State) : Nat :=
  match s.fab.beat.st with
  | .root => 0
  | .locked => s.fab.beat.stratum
  | _ => 15

/-- Device ID of the parent, its own for the root (R366). -/
def State.parentId (s : State) : Nat :=
  let p := s.fab.beat.parent
  if s.fab.beat.st != .locked then s.devId
  else if p < 24 then s.wiredId p else s.peerDev (p - 24)

/-- The sync word of the current beat to a neighbour (R366). `tx` is its time of transmission. RXOFS is that of a word that
arrived in the beat before. -/
def State.syncLine (s : State) (i tx : Nat) : Line32 :=
  let b := s.fab.beat
  let x := b.peer i
  let q := s.fab.quiesces.find? (fun q => decide (s.beat < q.q))
  let rx := match x.rx16 with | some r => if x.atBeat + 1 = s.beat then r else 2 ^ 32 - 1 | none => 2 ^ 32 - 1
  BitVec.ofNat 256 (putF 0 0 (s.beat % 2 ^ 64) + putF 8 0 (tx % 2 ^ 32) + putF 12 0 (rx % 2 ^ 32) +
    putF 16 0 (s.shownStratum % 16) + putF 17 0 (s.field .beatCfg [] 4 0) + putF 18 0 s.mapGen +
    putF 20 0 ((if b.st = .root then s.devId else b.rootId) % 2 ^ 17) +
    putF 24 0 (match q with | none => 0 | some q => (q.q - s.beat) % 65536) +
    putF 26 0 (match q with | none => 0 | some q => q.mapGen) + putF 28 0 (s.parentId % 2 ^ 17))

/-- Neighbours a sync word goes to: live cabinet ports and valid uplink peers, each with its port and device (R366). -/
def State.syncTargets (s : State) : List (Nat × Nat × Nat) :=
  ((List.range 24).filter (fun p => (s.port p).st.live)).map (fun p => (p, p, s.wiredId p)) ++
  ((List.range 2).filter (fun k => s.peerValid k && (s.port (s.peerPort k)).st.live)).map (fun k => (24 + k, s.peerPort k, s.peerDev k))

/-- Send the sync words that follow a boundary; when each leaves, within 1 µs, is a free value (R366). -/
def State.sendSyncs (s : State) : State :=
  s.syncTargets.foldl (fun s t =>
    let tx := Config.freeNat s.free % 16001
    let b := s.fab.beat
    let x := b.peer t.1
    let line := s.syncLine t.1 tx
    (((s.draw 1).setBeat (b.setPeer t.1 { x with txPrev := x.tx16, tx16 := tx })).sendControl t.2.1 tySync t.2.2 line)) s

/-- θ of a sync word (R367), truncated toward zero; none where the peer heard nothing of this device. -/
def syncTheta (x : Peer) (l : Line32) (rx16 : Nat) : Option Int :=
  if fld l 12 31 0 = 2 ^ 32 - 1 then none
  else
    let rxofs : Int := fld l 12 31 0
    let txofs : Int := fld l 8 31 0
    some (Int.tdiv ((rxofs - x.txPrev) - ((rx16 : Int) - txofs)) 2)

/-- Whether a neighbour is a parent candidate at a beat (R368). -/
def State.candidate (s : State) (x : Peer) : Bool :=
  x.seen && decide (s.beat ≤ x.atBeat + 2) && decide (x.stratum ≤ 13) && x.parent != s.devId &&
    (s.fab.beat.st != .locked || x.root == s.fab.beat.rootId)

/-- Rank of a candidate: stratum first, then cabinet ports before uplink peers in ascending order (R368). -/
def peerRank (i : Nat) (x : Peer) : Nat := x.stratum * 64 + i

/-- Take the map of a generation that a parent has in force, if it is loaded; else collectives wait for it (R372). -/
def State.takeMapGen (s : State) (gen : Nat) : State :=
  if s.mapGen = gen then { s with fab := { s.fab with carWait := none } }
  else match s.fab.carPend with
    | some m => if m.gen = gen then { s with fab := { s.fab with carMap := some m, carPend := none, carWait := none } }
        else { s with fab := { s.fab with carWait := some gen } }
    | none => { s with fab := { s.fab with carWait := some gen } }

/-- Lock to a neighbour: the next boundary carries its count plus 1 (R369, R372, R376). -/
def State.lockTo (s : State) (i : Nat) (x : Peer) (l : Line32) : State :=
  let s1 := s.setBeatSt .locked (x.beat + 1)
  let s2 := s1.setBeat { s1.fab.beat with
    stratum := x.stratum + 1, parent := i, theta := x.theta, rootId := x.root, next := some (x.beat + 1), silent := 0
    lossDue := none }
  let s3 := s2.takeMapGen x.mapGen
  if fld l 24 15 0 = 0 then s3 else s3.addQuiesce (x.beat + fld l 24 15 0) x.qMapGen

/-- Judge the parent's word while LOCKED: steer by θ / 4 within ±4 ns, or lose lock (R369, R370). -/
def State.followParent (s : State) (x : Peer) (theta : Option Int) : State :=
  let b := s.fab.beat
  let th := theta.getD b.theta
  let loss : Option BeatLossCause :=
    if 1600 < th.natAbs then some .theta
    else if b.next.isNone && x.beat != b.cnt then some .beatDiffers
    else if x.root != b.rootId then some .rootChanges
    else b.lossDue
  s.setBeat { b with theta := th, steer := max (-64) (min 64 (Int.tdiv th 4)), silent := 0, lossDue := loss }

/-- A sync word of a neighbour (R367 to R370). -/
def State.syncWord (s : State) (i : Nat) (l : Line32) (rx16 : Nat) : State :=
  let b := s.fab.beat
  if b.st = .off then s
  else if fld l 17 4 0 != s.field .beatCfg [] 4 0 then s.count .syncPeriod 0 1
  else
    let o := b.peer i
    let theta := syncTheta o l rx16
    let beat := fld l 0 63 0
    let x : Peer := { o with
      seen := true, beat := beat, atBeat := s.beat, stratum := fld l 16 3 0, parent := fld l 28 16 0, root := fld l 20 16 0
      mapGen := fld l 18 15 0, qDelta := fld l 24 15 0, qMapGen := fld l 26 15 0, rx16 := some rx16
      theta := theta.getD o.theta }
    let near := match theta with | none => false | some t => decide (t.natAbs ≤ 4000)
    let run := if !s.candidate x then 0
      else if o.seen && decide (0 < o.streak) && beat == o.beat + 1 && near then o.streak + 1 else 1
    let y := { x with streak := run }
    let s1 := s.setBeat (b.setPeer i y)
    if b.st = .seek && decide (4 ≤ run) then s1.lockTo i y l
    else if b.st = .locked && b.parent == i then s1.followParent y theta
    else s1

/-- Choose the parent anew at a boundary while LOCKED: a candidate that has been better for four beats, or the best one
where the parent is none; without any for two beats lock is lost (R368, R369). -/
def State.chooseParent (s : State) : State :=
  let b := s.fab.beat
  if b.st != .locked then s
  else
    let cands := b.peers.filter (fun e => s.candidate e.2)
    let par := b.peer b.parent
    let mine := peerRank b.parent par
    let run (i : Nat) (x : Peer) : Nat :=
      if i != b.parent && s.candidate x && decide (peerRank i x < mine) then x.better + 1 else 0
    let peers := b.peers.map (fun e => (e.1, { e.2 with better := run e.1 e.2 }))
    let b1 := { b with peers := peers }
    let best (l : List (Nat × Peer)) : Option (Nat × Peer) := minBy (fun e => peerRank e.1 e.2) l
    let adopt (e : Nat × Peer) : State :=
      s.setBeat { b1 with parent := e.1, stratum := e.2.stratum + 1, theta := e.2.theta, silent := 0 }
    if s.candidate par then
      match best (peers.filter (fun e => decide (4 ≤ e.2.better))) with
      | none => s.setBeat { b1 with stratum := par.stratum + 1, silent := 0 }
      | some e => adopt e
    else match best cands with
      | some e => adopt e
      | none => s.setBeat { b1 with silent := b.silent + 1
                                    lossDue := if 1 ≤ b.silent then some .noCandidate else b.lossDue }

/-! ### Notices (R374, R375) -/

/-- A notice seen for the first time is acted on and forwarded (R374). -/
def State.takeNotice (s : State) (came : Neighbour) (l : Line32) : State :=
  let n := Notice.of l
  let s1 := s.count .noteRx 0 1
  if s1.fab.seen.any (fun e => e.1 == n.origin && e.2.1 == n.serial && e.2.2 != 0) then s1
  else ((s1.rememberPair n.origin n.serial).actNotice n).forwardNotice n (some came)

/-- NOTICE_RECEIVE (R374). -/
def execNoticeReceive (from_ : Neighbour) (hdr : Line16) (payload : Line32) (s : State) : Host.Outcome State Fault Refusal :=
  let p := match from_ with | .port p => p.val | .uplink k => s.peerPort k.val
  let known : Bool := match from_ with
    | .port _ => true
    | .uplink k => s.peerValid k.val && Pkt.src hdr == s.peerDev k.val
  let r := s.arrive p tyNotice hdr (lineBytes payload)
  .next (if r.2 && known then r.1.takeNotice from_ payload else r.1)

/-- NOTICE_PAIR_EXPIRY: pairs held for 64 beats leave the table (R374). -/
def execNoticePairExpiry (s : State) : Host.Outcome State Fault Refusal :=
  .next { s with fab := { s.fab with seen := s.fab.seen.filter (fun e => e.2.2 != 0) } }

/-! ### Ports (R349) -/

/-- PORT_TRAINING_DONE: a trained port enters CHECK, an uplink STANDBY, its link layer as new (R349). -/
def execPortTrainingDone (port : PortNo) (s : State) : Host.Outcome State Fault Refusal :=
  let p := port.val
  .next (if s.alive && (s.port p).st == .training then
    (s.setPort p { st := .training }).setPortSt p (if p < 24 then .check else .standby) else s)

/-- PORT_TRAINING_TIMEOUT: 100 ms without success (R349). -/
def execPortTrainingTimeout (port : PortNo) (s : State) : Host.Outcome State Fault Refusal :=
  .next (if s.alive && (s.port port.val).st == .training then s.portTo port.val .down else s)

/-- PORT_FAILURE: one packet sent 8 times, too many uncorrectable codewords, or lost lock (R349, R351). -/
def execPortFailure (port : PortNo) (cause : PortFail) (s : State) : Host.Outcome State Fault Refusal :=
  let p := port.val
  let tried := (s.port p).retry.any (fun r => decide (8 ≤ r.tries))
  .next (if !s.alive || (s.port p).st != .up then s
    else match cause with
      | .replay => if tried then s.portDown p 1 else s
      | .fec => s.portDown p 2
      | .lock => s.portDown p 3)

/-- LINK_IDLE_TIMEOUT: no valid packet for 4 µs (R349). -/
def execLinkIdleTimeout (port : PortNo) (s : State) : Host.Outcome State Fault Refusal :=
  .next (if s.alive && (s.port port.val).st == .up then s.portDown port.val 0 else s)

/-- PORT_RETRAIN_TIMER: 1,024 beats after it went DOWN (R349). -/
def execPortRetrainTimer (port : PortNo) (s : State) : Host.Outcome State Fault Refusal :=
  let x := s.port port.val
  .next (if s.alive && x.st == .down && decide (1024 ≤ x.downFor) then
    State.setPortSt (s.setPort port.val { x with downFor := 0 }) port.val .training else s)

end Sys2Proof.Machine
end

