-- ==== Sys2Proof/Machine/Windows.lean ====
section
/-! DEFINITION. Remote windows (R390 to R397): opening and closing, puts and gets by this device, and packets from others to
the windows it owns. -/

namespace Sys2Proof.Machine

def opWinOpen : Nat := 0x70
def opWinClose : Nat := 0x71

/-! ### WIN_OPEN (R390, R391) -/

/-- A window's endpoint. -/
def Window.ep (w : Window) : Ep := Ep.of (BitVec.ofNat 512 w.endpoint.toNat : Line64) 0

/-- Windows a gallery holds. -/
def State.galWindows (s : State) (g : Nat) : Nat := (s.fab.windows.filter (fun e => e.2.st != .free && e.2.gal == g)).length

/-- The lowest FREE window number. -/
def State.freeWindow (s : State) : Option Nat := (List.range 1024).find? (fun w => (s.window w).st == .free)

/-- Objects a DEVICE range covers. -/
def State.objectsOf (s : State) (gal addr len : Nat) : List Nat :=
  distinct ((s.tiers.maps.filter (fun m => m.gal == gal && decide (m.daddr < addr + len) &&
    decide (addr < m.daddr + m.panels * 2 ^ 18))).map (fun m => m.obj))

/-- Checks of WIN_OPEN (R390, R391). -/
def winOpenChecks (s : State) (o : Op) : List Bad :=
  let d := o.d
  let size := fld d 24 31 0
  let peers := (List.range 4).map (fun i => 32 + 4 * i)
  o.flagsZero 0 ++ epForm o 8 size ++ needOk (!(Ep.of d 8).host) 8 ++
  needOk (decide (64 ≤ size) && decide (size % 64 = 0)) 24 ++ needOk (fld d 28 1 0 != 0) 28 ++ needBits d 28 7 2 ++
  needZero d [29, 30, 31] ++ peers.flatMap (fun a => needBits d a 30 23) ++
  needOk (peers.any (fun a => fbit d a 31)) 32 ++ needZero d (byteRange 48 59) ++ s.epUse o 8 size (fbit d 28 0) ++
  need (s.freeWindow.isNone || decide (s.field .beatGal [o.gal] 10 0 ≤ s.galWindows o.gal)) .quotaExceeded 0 ++
  need ((Ep.of d 8).device && (s.objectsOf o.gal (Ep.of d 8).addr size).any s.pinsFull) .quotaExceeded 8

/-- Acceptance: the lowest FREE number opens; a SCRATCH window counts on its handle, a DEVICE window pins its objects. -/
def State.winOpenStart (s : State) (o : Op) : State :=
  match s.freeWindow with
  | none => s
  | some w =>
    let x := s.window w
    let e := Ep.of o.d 8
    let size := fld o.d 24 31 0
    let y : Window := { st := .opened, gen := x.gen, gal := o.gal, endpoint := BitVec.ofNat 128 (fld o.d 8 127 0)
                        size := size, perm := fld o.d 28 1 0
                        peers := (List.range 4).map (fun i => BitVec.ofNat 32 (fld o.d (32 + 4 * i) 31 0)) }
    let s1 := s.setWindow w y
    let s2 := if e.scratch then s1.useHandle e.core e.href true
      else if e.device then (s.objectsOf o.gal e.addr size).foldl (fun s n => s.pinObj n true) s1 else s1
    s2.complete (srcHub hubDma) o { st := .ok, result := w + x.gen.toNat * 2 ^ 16 }

def State.acceptWinOpen (s : State) (o : Origin) (d : Line64) : State :=
  s.accept (srcHub hubDma) o d opWinOpen winOpenChecks State.winOpenStart

/-- WIN_OPEN (R390). -/
def execWinOpen (o : Origin) (d : Line64) (s : State) : Host.Outcome State Fault Refusal := .next (s.acceptWinOpen o d)

/-! ### WIN_CLOSE (R396) -/

/-- Checks of WIN_CLOSE (R396). -/
def winCloseChecks (s : State) (o : Op) : List Bad :=
  let w := s.window (fld o.d 8 9 0)
  o.flagsZero 0 ++ needBits o.d 8 15 10 ++ needZero o.d (byteRange 12 59) ++
  need (w.st != .opened || w.gen.toNat != fld o.d 10 15 0 || w.gal != o.gal) .badHandle 8

/-- A window becomes CLOSING: its generation moves on (R396). -/
def State.closeWindow (s : State) (w : Nat) (op : Option Op) : State :=
  let x := s.window w
  s.setWindow w { x with st := .closing, gen := x.gen + 1, closeOp := op, closeBeat := s.beat }

def State.acceptWinClose (s : State) (o : Origin) (d : Line64) : State :=
  s.accept (srcHub hubDma) o d opWinClose winCloseChecks (fun s op => s.closeWindow (fld op.d 8 9 0) (some op))

/-- WIN_CLOSE (R396). -/
def execWinClose (o : Origin) (d : Line64) (s : State) : Host.Outcome State Fault Refusal := .next (s.acceptWinClose o d)

/-! ### Packets this device owns the window of (R391, R393, R394) -/

/-- Whether a window's range stands behind the arrival converter (R86). -/
def State.windowConverts (s : State) (x : Window) : Bool := x.ep.scratch && (s.href x.ep.core x.ep.href).converts

/-- Bytes of a window's range a packet's write takes: operand form behind the converter (R86). -/
def State.windowNeeds (s : State) (x : Window) (n : Nat) : Nat :=
  if s.windowConverts x then (s.href x.ep.core x.ep.href).needs n else n

/-- Write a packet's bytes into a window, as a DMA write unit (R336, R391); a TYPED activation range takes them through the arrival
converter, packet by packet (R86, log 71). The status a write over lost data gives (R84, R298). -/
def State.windowWrite (s : State) (w ofs : Nat) (b : Bytes) : State × Status :=
  let x := s.window w
  let r := if s.windowConverts x then s.putVector x.gal x.ep ofs b else s.putLong x.gal x.ep (partFuel b.length) ofs b
  let s1 := r.1.leaveQueue (2 * w + 1)
  (s1.setWindow w { s1.window w with written := x.written + b.length }, r.2)

/-- Whether a packet's write waits: for lines an issued operation of its core uses, or for a moving panel (R289, R336,
R391). -/
def State.windowWaits (s : State) (w ofs n : Nat) : Bool :=
  let x := s.window w
  let e := x.ep
  if e.scratch then
    !(s.core e.core).sbFree (s.sbRange e.core e.href (e.addr + ofs) (s.windowNeeds x n) true 0)
  else s.dstWaits x.gal e ofs n (2 * w + 1)

/-- Send an ACK (R394). -/
def State.sendAck (s : State) (dst flow opid : Nat) (st : Status) (acked noff : Nat) : State :=
  (s.sendData dst prAck flow (toLE 2 opid ++ toLE 1 st.code ++ toLE 1 0 ++ toLE 4 acked ++ toLE 4 noff ++ toLE 20 0)).1

/-- Acknowledge what stands of one remote operation (R394). -/
def State.ackNow (s : State) (w src opid flow : Nat) (st : Status) (noff : Nat) : State :=
  let x := s.window w
  let n := ((x.acks.find? (fun a => a.src == src && a.opid == opid)).map (fun a => a.bytes)).getD 0
  (s.setWindow w { x with acks := x.acks.filter (fun a => !(a.src == src && a.opid == opid)) }).sendAck src flow opid st n noff

/-- A written packet stands unacknowledged; the sixteenth is acknowledged at once (R394). -/
def State.noteWritten (s : State) (w src opid flow n : Nat) : State :=
  let x := s.window w
  let a := (x.acks.find? (fun a => a.src == src && a.opid == opid)).getD { src := src, opid := opid, packets := 0, bytes := 0, flow := flow }
  let a' := { a with packets := a.packets + 1, bytes := a.bytes + n, flow := flow }
  let s1 := s.setWindow w { x with acks := x.acks.filter (fun a => !(a.src == src && a.opid == opid)) ++ [a'] }
  if 16 ≤ a'.packets then s1.ackNow w src opid flow .ok 0 else s1

/-- Write the packets of a window that waited, in order, as far as they may; one that waits for a moving panel keeps its place in the
panel's line (R337, R391). DEDUCED: a packet that met lost data is answered with ARRAY_UE, the one way its operation can end with
that status (R84, R394, log 71). -/
def State.windowFlush (s : State) (w : Nat) : Nat → State
  | 0 => s
  | fuel + 1 =>
    let x := s.window w
    match x.held with
    | [] => s
    | h :: t =>
      if s.windowWaits w h.ofs h.data.length then s.queueWrite x.gal x.ep h.ofs h.data.length (2 * w + 1)
      else
        let r := (s.setWindow w { x with held := t }).windowWrite w h.ofs h.data
        (if r.2 = .ok then r.1.noteWritten w h.src h.opid h.flow h.data.length
          else r.1.ackNow w h.src h.opid h.flow r.2 h.ofs).windowFlush w fuel

/-- Write what waits in every window. -/
def State.windowsFlush (s : State) : State :=
  s.fab.windows.foldl (fun s e => s.windowFlush e.1 e.2.held.length) s

/-! A window packet's sub-header (R392). -/
namespace Sub
def win (h : Line16) : Nat := fld h 0 9 0
def gen (h : Line16) : Nat := fld h 2 15 0
def opid (h : Line16) : Nat := fld h 4 15 0
def bytes (h : Line16) : Nat := fld h 6 12 0
def ofs (h : Line16) : Nat := fld h 8 31 0
def gal (h : Line16) : Nat := fld h 12 5 0
def bad (h : Line16) : Bool := fld h 0 15 10 != 0 || fld h 6 15 13 != 0 || fld h 12 31 6 != 0
end Sub
/-- Steps 1 to 3 of R393 for a packet from a device: the refusal and its counter, or none. -/
def State.windowRefuses (s : State) (h : Line16) (src len need : Nat) : Option (Status × Option Ctr) :=
  let x := s.window (Sub.win h)
  let peer (p : Word) : Bool := p.getLsbD 31 && bits p.toNat 16 0 == src && bits p.toNat 22 17 == Sub.gal h
  if x.st != .opened || x.gen.toNat != Sub.gen h then some (.remoteWindowClosed, some .winStale)
  else if !x.peers.any peer || !bit x.perm need then some (.remoteWindowClosed, some .winDeny)
  else if x.size < Sub.ofs h + len then some (.operandBound, none)
  else none

/-- Refuse a packet: its counter, and an ACK at once (R393, R394). -/
def State.refusePacket (s : State) (hdr h : Line16) (st : Status) (c : Option Ctr) (noff : Nat) : State :=
  let w := Sub.win h
  let s1 := match c with | none => s | some c => s.count c (s.window w).gal 1
  s1.ackNow w (Pkt.src hdr) (Sub.opid h) (Pkt.flow hdr) st noff

/-- PUT: the owner writes a packet that passes R393 and acknowledges it, or refuses it. -/
def execPut (port : PortNo) (hdr : Line16) (sub : Line16) (data : Bytes) (s : State) : Host.Outcome State Fault Refusal :=
  let r := s.arriveData port.val prPut hdr (lineBytes sub ++ data)
  let n := Sub.bytes sub
  let src := Pkt.src hdr
  let w := Sub.win sub
  .next (if !r.2 then r.1
    else if Sub.bad sub then r.1.count .fabBadProto 0 1
    else match r.1.windowRefuses sub src (r.1.windowNeeds (r.1.window w) n) 0 with
      | some x => r.1.refusePacket hdr sub x.1 x.2 (Sub.ofs sub)
      | none =>
        let b := slice data 0 n
        let x := r.1.window w
        let s1 := r.1.setWindow w { x with held := x.held ++ [{ src := src, opid := Sub.opid sub, flow := Pkt.flow hdr, ofs := Sub.ofs sub, data := b }] }
        s1.windowFlush w (x.held.length + 1))

/-- Offset within a window's range of the first byte whose panel is quarantined (R339, R393). -/
def State.quarantinedAt (s : State) (x : Window) (ofs len : Nat) : Option Nat :=
  let e := x.ep
  if !e.device then none
  else
    let a := e.addr + ofs
    (((List.range (cdiv (a % 262144 + len) 262144)).map (fun i => if i = 0 then a else (a / 262144 + i) * 262144)).find? (fun b =>
      match s.panelAt x.gal b with
      | none => false
      | some p => (s.panel p.1 p.2).quar)).map (fun b => b - e.addr)

/-- Send a request's answer in offset order (R393). -/
def State.answerGet (s : State) (hdr h : Line16) : Nat → Nat → Bytes → State
  | 0, _, _ => s
  | fuel + 1, ofs, b =>
    let n := min b.length (s.dataRoom (Pkt.src hdr))
    if b.isEmpty then s
    else (s.sendData (Pkt.src hdr) prGetData (Pkt.flow hdr)
      (winSub (Sub.win h) (Sub.gen h) (Sub.opid h) n ofs (Sub.gal h) ++ b.take n)).1.answerGet hdr h fuel (ofs + n) (b.drop n)

/-- GETREQ: the owner answers a request that passes R393 with GETDATA, or refuses it. `outside` holds bytes of panels whose
reference copies lie outside the device. -/
def execGetReq (port : PortNo) (hdr : Line16) (sub : Line16) (len : Word) (outside : Bytes) (ups : List Upset) (s : State) :
    Host.Outcome State Fault Refusal :=
  let n := len.toNat
  let r := (s.upsets ups).arriveData port.val prGetReq hdr (lineBytes sub ++ toLE 16 n)
  .next (if !r.2 then r.1
    else if Sub.bad sub then r.1.count .fabBadProto 0 1
    else match r.1.windowRefuses sub (Pkt.src hdr) n 1 with
      | some x => r.1.refusePacket hdr sub x.1 x.2 (Sub.ofs sub)
      | none =>
        let x := r.1.window (Sub.win sub)
        match r.1.quarantinedAt x (Sub.ofs sub) n with
        | some q => r.1.refusePacket hdr sub .weightUeRetry none q
        | none =>
          let g := r.1.takeLong x.gal x.ep 256 rdWindow (partFuel n) (Sub.ofs sub) n outside
          if worst g.2.sts = .ok then g.1.answerGet hdr sub (n / 496 + 1) (Sub.ofs sub) g.2.data
          else g.1.refusePacket hdr sub .arrayUe none (Sub.ofs sub + (g.2.zero.head?).getD 0))

/-- ACK_TIMER: 1 µs after the oldest unacknowledged packet of an operation (R394). -/
def execAckTimer (win : Fin 1024) (src : BitVec 17) (opid : BitVec 16) (s : State) : Host.Outcome State Fault Refusal :=
  let s1 := if s.running then s.windowFlush win.val (s.window win.val).held.length else s
  match (s1.window win.val).acks.find? (fun a => a.src == src.toNat && a.opid == opid.toNat) with
  | none => .next s1
  | some a => .next (if s1.alive then s1.ackNow win.val a.src a.opid a.flow .ok 0 else s1)

/-- WIN_CLOSE_COMPLETE: from beat c + 4 on, with no write of the old generation left, the window is FREE (R391, R396). -/
def execWinCloseComplete (win : Fin 1024) (s : State) : Host.Outcome State Fault Refusal :=
  let s1 := if s.running then s.windowFlush win.val (s.window win.val).held.length else s
  let x := s1.window win.val
  .next (if s1.running && x.st == .closing && decide (x.closeBeat + 4 ≤ s1.beat) && x.held.isEmpty then
    let e := x.ep
    let s2 := s1.setWindow win.val { gen := x.gen, gal := x.gal }
    let s3 := if e.scratch then s2.useHandle e.core e.href false
      else if e.device then (s2.objectsOf x.gal e.addr x.size).foldl (fun s n => s.pinObj n false) s2 else s2
    match x.closeOp with
    | none => s3
    | some o => s3.complete (srcHub hubDma) o { st := .ok, result := x.written }
  else s1)

/-! ### WIN_PUT and WIN_GET (R392, R395) -/

/-! Fields of WIN_PUT and WIN_GET. -/
namespace WinF
def dev (o : Op) : Nat := fld o.d 24 16 0
def win (o : Op) : Nat := fld o.d 28 9 0
def gen (o : Op) : Nat := fld o.d 30 15 0
def ofs (o : Op) : Nat := fld o.d 32 31 0
def flow (o : Op) : Nat := fld o.d 36 7 0
def len (o : Op) : Nat := fld o.d 40 31 0
end WinF

/-- Checks of WIN_PUT and WIN_GET (R392). -/
def winMoveChecks (s : State) (o : Op) : List Bad :=
  let d := o.d
  o.flagsZero 0 ++ needBits d 24 31 17 ++ needBits d 28 15 10 ++ needZero d [37, 38, 39] ++ needOk (WinF.len o != 0) 40 ++
  needZero d (byteRange 44 59) ++ s.dmaEndpoints o

/-- Sub-header of an operation's packet or request. -/
def DmaOp.sub (x : DmaOp) (bytes pos : Nat) : Bytes :=
  winSub (WinF.win x.op) (WinF.gen x.op) x.opid bytes (WinF.ofs x.op + pos) x.op.gal

/-- An operation finds no route, or is told of a refusal: nothing further goes out (R361, R395). -/
def DmaOp.windowStop (x : DmaOp) (st : Status) : DmaOp := { x with begun := true, noMore := true, status := x.status.max st }

/-- Inject the requests of a WIN_GET, each up to 1 MiB, at most 16 unanswered (R392). -/
def State.sendRequests (s : State) (id : Nat) : Nat → State
  | 0 => s
  | fuel + 1 =>
    match s.dma.ops.find? (fun x => x.op.id == id) with
    | none => s
    | some x =>
      let n := min (2 ^ 20) (WinF.len x.op - x.rd)
      if x.op.opcode != opWinGet || !x.issued || x.noMore || !s.locked || n == 0 || decide (16 ≤ x.flight.length) then s
      else
        let r := s.sendData (WinF.dev x.op) prGetReq (WinF.flow x.op) (x.sub 0 x.rd ++ toLE 16 n)
        let beat := s.beat
        if r.2 then (r.1.updDma id (fun y => { y with begun := true, rd := y.rd + n, flight := y.flight ++ [(x.rd, n, beat)] })).sendRequests
            id fuel
        else r.1.updDma id (fun y => y.windowStop .linkDown)

/-- Inject what every WIN_GET may. -/
def State.winPump (s : State) : State := s.dma.ops.foldl (fun s x => s.sendRequests x.op.id 16) s

/-- Acceptance: a DMA operation with a number of its own (R267, R392). -/
def State.winMoveStart (s : State) (o : Op) : State :=
  let n := s.newOpid
  let s1 := (s.dmaStart o).updDma o.id (fun x => { x with opid := n })
  State.sendRequests { s1 with dma := { s1.dma with nextOpid := (n + 1) % 65536 } } o.id 16

def State.acceptWinPut (s : State) (o : Origin) (d : Line64) : State :=
  s.accept (srcHub hubDma) o d opWinPut winMoveChecks State.winMoveStart
def State.acceptWinGet (s : State) (o : Origin) (d : Line64) : State :=
  s.accept (srcHub hubDma) o d opWinGet winMoveChecks State.winMoveStart

/-- WIN_PUT and WIN_GET (R392). -/
def execWinPut (o : Origin) (d : Line64) (s : State) : Host.Outcome State Fault Refusal := .next (s.acceptWinPut o d)
def execWinGet (o : Origin) (d : Line64) (s : State) : Host.Outcome State Fault Refusal := .next (s.acceptWinGet o d)

/-- Length of the packet a WIN_PUT sends next, 0 when it may send none: at most 512 stand unacknowledged (R382, R392). -/
def State.packetLen (s : State) (x : DmaOp) : Nat :=
  if x.op.opcode != opWinPut || !x.issued || x.noMore || !s.locked || decide (512 ≤ x.flight.length) then 0
  else min (s.dataRoom (WinF.dev x.op)) (WinF.len x.op - x.rd)

/-- Whether that packet's source waits for a quarantined panel (R286, R339). -/
def State.packetShut (s : State) (x : DmaOp) : Bool := s.srcWaits x.op.gal (Ep.of x.op.d 8) x.rd (s.packetLen x)

/-- Read the next packet of a WIN_PUT and inject it (R382, R392). -/
def State.putPacket (s : State) (x : DmaOp) (chan : Nat) (data : Bytes) : State :=
  let o := x.op
  let n := s.packetLen x
  if n = 0 then s
  else
    let s := s.enterRuns o.charged false (s.epRuns o.gal (Ep.of o.d 8) x.rd n)
    let g := s.takeLong o.gal (Ep.of o.d 8) chan rdDma (partFuel n) x.rd n data
    let r := (g.1.count .dmaBytesRd o.gal n).sendData (WinF.dev o) prPut (WinF.flow o) (x.sub n x.rd ++ g.2.data)
    let beat := s.beat
    let st := worst g.2.sts
    if r.2 then
      r.1.updDma o.id (fun y => { y with begun := true, rd := y.rd + n, flight := y.flight ++ [(x.rd, n, beat)], status := y.status.max st })
    else r.1.updDma o.id (fun y => y.windowStop .linkDown)

/-- Whether a channel's operation has a unit for a read engine, whether it waits for a quarantined panel, and the channel runs it is
read from. -/
def State.unitWanted (s : State) (x : DmaOp) : Bool := s.wantsRead x || s.packetLen x != 0
def State.unitShut (s : State) (x : DmaOp) : Bool := if x.op.opcode = opWinPut then s.packetShut x else s.readShut x
def State.unitRuns (s : State) (x : DmaOp) : List (Nat × Nat × Nat) :=
  if x.op.opcode = opWinPut then s.epRuns x.op.gal (Ep.of x.op.d 8) x.rd (s.packetLen x) else s.readRuns x
def State.unitReady (s : State) (x : DmaOp) : Bool :=
  s.unitWanted x && !s.unitShut x && !s.runsShut x.op.charged (s.unitRuns x)

/-- DMA_UNIT_READ_DONE: the unit that the channel's operation reads next has been read (R268), if a read engine took it up (R270);
a WIN_PUT sends it, a WIN_GET asks for what it may (R392). -/
def execDmaUnitReadDone (channel : Fin 256) (data : Bytes) (ups : List Upset) (s : State) :
    Host.Outcome State Fault Refusal :=
  let s := s.upsets ups
  match s.dma.ops.find? (fun x => x.chan == some channel.val) with
  | none => .next s
  | some x =>
    if !s.running then .next s
    else if x.op.opcode = opWinGet then .next (s.sendRequests x.op.id 16)
    else if !s.unitWanted x then .next s
    else if s.unitShut x then .next (s.waitBegin (srcHub hubDma) 11 x.op.identity)
    else
      let s0 := s.runsHold (srcHub hubDma) x.op.identity x.op.charged (s.unitRuns x)
      let s1 := s0.readEngines State.unitReady 4
      if !s1.dma.rdEng.contains channel.val then .next s1
      else .next ((if x.op.opcode = opWinPut then (s1.putPacket x channel.val data).waitEnd (srcHub hubDma) 11 x.op.identity none
        else s1.dmaUnitRead x channel.val data).readFree channel.val)

/-- First byte from `start` on that no run covers. -/
def runFrom (l : List (Nat × Nat)) : Nat → Nat → Nat
  | 0, pos => pos
  | fuel + 1, pos => match l.find? (fun r => decide (r.1 ≤ pos) && decide (pos < r.1 + r.2)) with
    | none => pos
    | some r => runFrom l fuel (r.1 + r.2)

/-- Whether what has come in covers a request or packet. -/
def DmaOp.answered (x : DmaOp) (f : Nat × Nat × Nat) : Bool := decide (f.1 + f.2.1 ≤ runFrom x.got (x.got.length + 1) f.1)

/-- The packets at the front of those unanswered that a number of acknowledged bytes covers. -/
def ackedRuns : Nat → List (Nat × Nat × Nat) → List (Nat × Nat)
  | _, [] => []
  | n, f :: t => if f.2.1 ≤ n then (f.1, f.2.1) :: ackedRuns (n - f.2.1) t else []

/-- The status of a code (R11). -/
def statusOf (c : Nat) : Status := (statusList.find? (fun s => Status.code s == c)).getD .internal

/-- An ACK for a running operation: bytes acknowledged, or a refusal that answers the packet or request it names (R394,
R395). -/
def DmaOp.takeAck (x : DmaOp) (st : Status) (acked noff : Nat) : DmaOp :=
  let runs := ackedRuns acked x.flight
  let left := x.flight.drop runs.length
  let y := { x with acked := x.acked + acked, got := x.got ++ runs, flight := left }
  if st = .ok then y
  else
    let hit (f : Nat × Nat × Nat) : Bool := decide (WinF.ofs x.op + f.1 ≤ noff) && decide (noff < WinF.ofs x.op + f.1 + f.2.1)
    let gone := match left.find? hit with | some f => left.erase f | none => left.drop 1
    DmaOp.windowStop { y with flight := gone } st

/-- ACK (R394, R395). -/
def execAck (port : PortNo) (hdr : Line16) (payload : Line32) (s : State) : Host.Outcome State Fault Refusal :=
  let r := s.arriveData port.val prAck hdr (lineBytes payload)
  let opid := fld payload 0 15 0
  .next (if !r.2 then r.1
    else if fld payload 3 7 0 != 0 || fld payload 12 159 0 != 0 then r.1.count .fabBadProto 0 1
    else match r.1.dma.ops.find? (fun x => (x.op.opcode == opWinPut || x.op.opcode == opWinGet) && x.opid == opid &&
        WinF.dev x.op == Pkt.src hdr) with
      | none => r.1
      | some x => (r.1.updDma x.op.id (fun y =>
          y.takeAck (statusOf (fld payload 2 7 0)) (fld payload 4 31 0) (fld payload 8 31 0))).winPump)

/-- GETDATA: bytes of a request reach the WIN_GET's channel, whose write engine puts them at its destination (R268, R392, R395). -/
def execGetData (port : PortNo) (hdr : Line16) (sub : Line16) (data : Bytes) (s : State) : Host.Outcome State Fault Refusal :=
  let r := s.arriveData port.val prGetData hdr (lineBytes sub ++ data)
  let n := Sub.bytes sub
  .next (if !r.2 then r.1
    else if Sub.bad sub then r.1.count .fabBadProto 0 1
    else match r.1.dma.ops.find? (fun x => x.op.opcode == opWinGet && x.opid == Sub.opid sub && WinF.dev x.op == Pkt.src hdr) with
      | none => r.1
      | some x =>
        let pos := Sub.ofs sub - WinF.ofs x.op
        let asked := x.flight.any (fun f => decide (WinF.ofs x.op + f.1 ≤ Sub.ofs sub) && decide (pos + n ≤ f.1 + f.2.1))
        if !asked then r.1
        else
          (r.1.updDma x.op.id (fun y =>
            let z : DmaOp := { y with begun := true, staged := y.staged ++ [{ ofs := pos, data := slice data 0 n }], got := y.got ++ [(pos, n)], acked := y.acked + n }
            { z with flight := z.flight.filter (fun f => !z.answered f) })).winPump)

/-- End the injecting of an operation and let its unanswered packets go. -/
def DmaOp.windowEnd (x : DmaOp) (st : Status) : DmaOp := { x.windowStop st with flight := [] }

/-- WINDOW_OP_TIMEOUT: 4 beats after its injection an unanswered packet or request ends its operation (R395). -/
def execWindowOpTimeout (opid : BitVec 16) (s : State) : Host.Outcome State Fault Refusal :=
  match s.dma.ops.find? (fun x => (x.op.opcode == opWinPut || x.op.opcode == opWinGet) && x.opid == opid.toNat) with
  | none => .next s
  | some x => .next (if s.alive && x.flight.any (fun f => decide (f.2.2 + 4 ≤ s.beat)) then
      s.updDma x.op.id (fun y => y.windowEnd .linkDown) else s)

/-- RESULT of a window operation: bytes acknowledged or received, and the longest run from the first byte (R395). -/
def DmaOp.windowResult (x : DmaOp) : Nat := x.acked % 2 ^ 32 + runFrom x.got (x.got.length + 1) 0 % 2 ^ 32 * 2 ^ 32

/-- End a window operation: it leaves its channel and its record is written. -/
def State.windowDone (s : State) (x : DmaOp) : State :=
  ((s.dmaLeave x.op).complete (srcHub hubDma) x.op { st := x.status, result := x.windowResult }).settleStops x.op.id

/-- WINDOW_OP_COMPLETE: every packet or request injected has been answered, and none is left to inject (R395). -/
def execWindowOpComplete (opid : BitVec 16) (s : State) : Host.Outcome State Fault Refusal :=
  match s.dma.ops.find? (fun x => (x.op.opcode == opWinPut || x.op.opcode == opWinGet) && x.opid == opid.toNat) with
  | none => .next s
  | some x => .next (if s.alive && x.begun && x.flight.isEmpty && x.staged.isEmpty && (x.noMore || decide (WinF.len x.op ≤ x.rd)) then s.windowDone x else s)

/-- Running window operations complete with BEAT_LOST (R371, R395). -/
def State.windowsLost (s : State) : State :=
  (s.dma.ops.filter (fun x => (x.op.opcode == opWinPut || x.op.opcode == opWinGet))).foldl (fun s x =>
    s.windowDone (x.windowEnd .beatLost)) s

/-- Every window of a gallery closes at once (R396). -/
def State.closeGallery (s : State) (g : Nat) : State :=
  (s.fab.windows.filter (fun e => e.2.st == .opened && e.2.gal == g)).foldl (fun s e => s.closeWindow e.1 none) s

end Sys2Proof.Machine
end

