-- ==== Sys2Proof/Machine/Carousel.lean ====
section
/-! DEFINITION. The carousel (R376 to R388): quiesces, carousel maps, collectives with their slots, packets, holes and
results, and what beat loss does to them (R371). -/

namespace Sys2Proof.Machine

def opColl : Nat := 0x74
def opQuiesce : Nat := 0x75
def opCarLoad : Nat := 0x76

/-! ### QUIESCE (R376 to R378) -/

/-- The next quiesce beat R376 allows. -/
def State.nextQuiesce (s : State) : Nat := alignUp (s.beat + 16) 32

/-- Checks of QUIESCE (R378). -/
def quiesceChecks (s : State) (o : Op) : List Bad :=
  let q := s.nextQuiesce
  o.flagsZero 0 ++ needZero o.d (byteRange 10 59) ++
  need (decide (8 ≤ s.fab.quiesces.length) && !s.fab.quiesces.any (fun x => x.q == q)) .quotaExceeded 0

/-- Acceptance: the notice is raised, and the command waits for boundary Q + 1. -/
def State.quiesceStart (s : State) (o : Op) : State :=
  let q := s.nextQuiesce
  let s1 := s.raiseNotice noteQuiesce q 0 0 (fld o.d 8 15 0)
  { s1 with fab := { s1.fab with quiesces := s1.fab.quiesces.map (fun x => if x.q = q then { x with ops := x.ops ++ [o] } else x) } }

def State.acceptQuiesce (s : State) (o : Origin) (d : Line64) : State :=
  s.accept (srcHub hubCarousel) o d opQuiesce quiesceChecks State.quiesceStart

/-- QUIESCE (R378). -/
def execQuiesce (o : Origin) (d : Line64) (s : State) : Host.Outcome State Fault Refusal := .next (s.acceptQuiesce o d)

/-- The map a quiesce brings in, if it is the pending one (R377, R379). -/
def State.bringMap (s : State) (gen : Nat) : State :=
  match s.fab.carPend with
  | some m => if m.gen = gen then { s with fab := { s.fab with carMap := some m, carPend := none, carWait := none } } else s
  | none => s

/-- Carry out the quiesces whose boundary Q + 1 has come, in order of Q: map, returns, sparing, and their commands' ends
(R376 to R378, R352). -/
def State.quiesceTake (s : State) : State :=
  let due := s.fab.quiesces.filter (fun x => decide (x.q < s.beat))
  let s1 : State := { s with fab := { s.fab with quiesces := s.fab.quiesces.filter (fun x => !decide (x.q < s.beat)) } }
  let s2 := due.foldl (fun s x => s.bringMap x.mapGen) s1
  let s3 := s2.dueNotices.returnPorts
  let s4 := if due.isEmpty then s3 else s3.beginSwitches
  due.foldl (fun s x => x.ops.foldl (fun s o => s.complete (srcHub hubCarousel) o { st := .ok, result := x.q }) s) s4

/-- Whether the current beat is a still beat (R377). -/
def State.stillBeat (s : State) : Bool := s.fab.quiesces.any (fun x => x.q == s.beat)

/-! ### CAR_LOAD (R379, R380) -/

/-- Checks of CAR_LOAD (R379). -/
def carLoadChecks (_ : State) (o : Op) : List Bad :=
  let e := Ep.of o.d 8
  o.flagsZero 0 ++ epForm o 8 (fld o.d 24 31 0) ++ needOk (e.host || e.hall) 8 ++ needZero o.d (byteRange 28 59)

/-- Acceptance: the image is read, from host memory by a read of its own. -/
def State.carLoadStart (s : State) (o : Op) : State :=
  let s1 := State.opEvent { s with fab := { s.fab with carLoads := s.fab.carLoads ++ [o] } } (srcHub hubCarousel) 2 o .ok
  match o.org with
  | .ring r i => if (Ep.of o.d 8).host then s1.hostRead o.gal (.mapImage r i) (Ep.of o.d 8).addr (fld o.d 24 31 0) else s1
  | .step _ => s1

def State.acceptCarLoad (s : State) (o : Origin) (d : Line64) : State :=
  s.accept (srcHub hubCarousel) o d opCarLoad carLoadChecks State.carLoadStart

/-- CAR_LOAD (R379). -/
def execCarLoad (o : Origin) (d : Line64) (s : State) : Host.Outcome State Fault Refusal := .next (s.acceptCarLoad o d)

/-- A field of an image. -/
def imgF (b : Bytes) (o n : Nat) : Nat := ofLE (slice b o n)

/-- Slot entry k and group entry k of an image (R379). -/
def carSlot (b : Bytes) (k : Nat) : CarSlot :=
  let v := imgF b (16 + 8 * k) 8
  { start := bits v 8 0, len := bits v 17 9, gidx := bits v 25 18, cap := bits v 63 32 }
def carGroup (b : Bytes) (nslot k : Nat) : CarGroup :=
  let a := 16 + 8 * nslot + 272 * k
  let g := bits (imgF b (a + 2) 1) 6 0
  { group := imgF b a 2, g := g, rank := bits (imgF b (a + 3) 1) 5 0, rarea := imgF b (a + 4) 4, rcap := imgF b (a + 8) 4
    members := (List.range g).map (fun r => bits (imgF b (a + 16 + 4 * r) 4) 16 0) }

/-- Whether a reserved field of an image is set (R380). -/
def carReserved (b : Bytes) (nslot ngrp : Nat) : Bool :=
  bit (imgF b 2 1) 7 || imgF b 3 1 != 0 || bit (imgF b 4 1) 7 || imgF b 5 7 != 0 ||
  (List.range nslot).any (fun k => bits (imgF b (16 + 8 * k) 8) 31 26 != 0) ||
  (List.range ngrp).any (fun k =>
    let a := 16 + 8 * nslot + 272 * k
    bit (imgF b (a + 2) 1) 7 || bits (imgF b (a + 3) 1) 7 6 != 0 || imgF b (a + 12) 4 != 0 ||
      (List.range 64).any (fun r => bits (imgF b (a + 16 + 4 * r) 4) 31 17 != 0))

/-- Whether numbers repeat. -/
def repeats : List Nat → Bool
  | [] => false
  | a :: t => t.contains a || repeats t

/-- Whether two slots overlap in time. -/
def slotsOverlap : List CarSlot → Bool
  | [] => false
  | a :: t => t.any (fun b => decide (a.start < b.start + b.len) && decide (b.start < a.start + a.len)) || slotsOverlap t

/-- The map of an image, unless R380 refuses it: `dev` is this device, `beat` its beat in units of 125 ns. -/
def parseMap (dev beat : Nat) (b : Bytes) : Option CarMap :=
  let nslot := bits (imgF b 2 1) 6 0
  let ngrp := bits (imgF b 4 1) 6 0
  let slots := (List.range nslot).map (carSlot b)
  let groups := (List.range ngrp).map (carGroup b nslot)
  let groupOk (x : CarGroup) : Bool :=
    decide (2 ≤ x.g) && decide (x.g ≤ 64) && decide (x.rank < x.g) && x.members[x.rank]? == some dev &&
      decide (x.rarea % 64 = 0) && decide (x.rcap % 64 = 0) && decide (x.rarea + 4 * x.g * x.rcap ≤ 2 ^ 28)
  let slotOk (x : CarSlot) : Bool :=
    decide (1 ≤ x.len) && decide (x.len ≤ 256) && decide (x.start + x.len ≤ beat) && decide (x.gidx < ngrp) &&
      (match groups[x.gidx]? with | none => false | some g => decide (x.cap ≤ g.rcap))
  let ok := decide (b.length = 16 + 8 * nslot + 272 * ngrp) && crc32c (b.take 12 ++ b.drop 16) == imgF b 12 4 &&
    !carReserved b nslot ngrp && imgF b 0 2 != 0 && decide (nslot ≤ 64) && nslot == ngrp && slots.all slotOk &&
    !slotsOverlap slots && !repeats (slots.map (fun x => x.gidx)) && groups.all groupOk && !repeats (groups.map (fun x => x.group))
  if ok then some { gen := imgF b 0 2, slots := slots, groups := groups, image := b } else none

/-- MAP_IMAGE_READ_DONE: the image is checked and becomes the pending map, or the command is refused with BAD_DESCRIPTOR,
cause 5 (R379, R380). A device that waits for a map of that generation takes it at once (R372). -/
def execMapImageReadDone (ring : RingNo) (index : Word) (image : Bytes) (s : State) : Host.Outcome State Fault Refusal :=
  match s.fab.carLoads.find? (fun o => o.org == .ring ring index) with
  | none => .next s
  | some o =>
    let e := Ep.of o.d 8
    let n := fld o.d 24 31 0
    let s1 : State := { s with fab := { s.fab with carLoads := s.fab.carLoads.filter (fun p => p.id != o.id) } }
    let r : State × Bytes × List Status := if e.hall then s1.hallTake e.addr n else (s1, slice image 0 n, [])
    .next (if !s.alive then s
      else match parseMap s.devId (8 * s.beatUs) r.2.1 with
        | none => r.1.complete (srcHub hubCarousel) o { st := .badDescriptor, cause := 5 }
        | some m =>
          let s2 : State := { r.1 with fab := { r.1.fab with carPend := some m } }
          let s3 := if s2.fab.carWait = some m.gen then s2.takeMapGen m.gen else s2
          s3.complete (srcHub hubCarousel) o { st := worst r.2.2 })

/-! ### COLL (R381, R382) -/

namespace CollF
def group (o : Op) : Nat := fld o.d 8 15 0
def kind (o : Op) : Nat := fld o.d 10 1 0
def bsel (o : Op) : Bool := fbit o.d 10 2
def efmt (o : Op) : Nat := fld o.d 11 4 0
def rfmt (o : Op) : Nat := fld o.d 12 4 0
def ofmt (o : Op) : Nat := fld o.d 13 4 0
def uniform (o : Op) : Bool := fbit o.d 13 5
def beat (o : Op) : Nat := fld o.d 16 63 0
def elems (o : Op) : Nat := fld o.d 24 31 0
def src (o : Op) : Nat := fld o.d 28 31 0
def dest (o : Op) : Nat := fld o.d 32 31 0
def dlen (o : Op) : Nat := fld o.d 36 31 0
end CollF

/-- Bytes of n elements with their scales (R381). -/
def collBytes (fmt n : Nat) : Nat := n * elemBits fmt / 8 + if scaledFmt fmt then n / 32 else 0

/-- Elements one contribution carries to a member. -/
def partElems (o : Op) (g : Nat) : Nat := if CollF.kind o = 2 then CollF.elems o / g else CollF.elems o

/-- Bytes of a collective's result (R385). -/
def resultBytes (o : Op) (g : Nat) : Nat :=
  if CollF.kind o = 0 then g * collBytes (CollF.efmt o) (CollF.elems o) else collBytes (CollF.ofmt o) (partElems o g)

/-- A group entry of the map in force, and the capacity of its slot. -/
def State.carGroupOf (s : State) (group : Nat) : Option (CarGroup × Nat) :=
  match s.fab.carMap with
  | none => none
  | some m => (m.groups.find? (fun x => x.group == group)).map (fun x =>
      (x, ((m.slots.find? (fun t => m.groups[t.gidx]? == some x)).map (fun t => t.cap)).getD 0))

/-- Checks of COLL that its bytes alone decide (R381). -/
def collForm (o : Op) : List Bad :=
  let d := o.d
  let k := CollF.kind o
  let link (f : Nat) : Bool := [0x04, 0x05, 0x07, 0x08, 0x09, 0x0C, 0x0D].contains f
  let red := k == 1 || k == 2
  o.flagsZero 0 ++ needOk (k != 3) 10 ++ need (CollF.bsel o && o.ringed) .badDescriptor 10 ++ needBits d 10 7 3 ++
  needBits d 11 7 5 ++ needOk (link (CollF.efmt o)) 11 ++ needBits d 12 7 5 ++
  needOk (if red then CollF.rfmt o == 0x0C || CollF.rfmt o == 0x0D else CollF.rfmt o == 0) 12 ++ needBits d 13 7 6 ++
  needOk (if red then scaledFmt (CollF.ofmt o) || decide (0x0B ≤ CollF.ofmt o) && decide (CollF.ofmt o ≤ 0x0D)
    else CollF.ofmt o == CollF.efmt o) 13 ++ needZero d [14, 15] ++ needOk (decide (CollF.elems o % 32 = 0)) 24 ++
  needOk (decide (CollF.src o % 64 = 0) && decide (CollF.src o + collBytes (CollF.efmt o) (CollF.elems o) ≤ 2 ^ 28)) 28 ++
  needOk (decide (CollF.dest o % 64 = 0)) 32 ++ needZero d (byteRange 40 59)

/-- Checks of COLL: its bytes, and its group in the map in force (R381). -/
def collChecks (s : State) (o : Op) : List Bad :=
  let k := CollF.kind o
  let n := CollF.elems o
  collForm o ++
  (match s.carGroupOf (CollF.group o) with
    | none => need true .badDescriptor 8
    | some (x, cap) =>
      needOk (k != 2 || decide (n % (32 * x.g) = 0)) 24 ++
      needOk (decide (collBytes (CollF.efmt o) (partElems o x.g) ≤ cap)) 24 ++
      needOk (decide (CollF.dest o + resultBytes o x.g ≤ 2 ^ 28)) 32 ++ needOk (decide (resultBytes o x.g ≤ CollF.dlen o)) 36)

/-- Instance beat of a collective: absolute, or counted from its lane group's start (R381). -/
def State.instanceBeat (s : State) (o : Op) : Nat :=
  if CollF.bsel o then
    match o.org with
    | .ring _ _ => CollF.beat o
    | .step g => ((s.doc.groups.find? (fun l => l.id == g)).map (fun l => l.beat)).getD 0 + CollF.beat o % 65536
  else CollF.beat o

/-- Place of a group's entry in the map in force, by which its counters are kept (R454). -/
def State.groupIdx (s : State) (group : Nat) : Nat :=
  match s.fab.carMap with
  | none => group % 256
  | some m => if m.groups.any (fun x => x.group == group) then m.groups.findIdx (fun x => x.group == group) else group % 256

/-! ### Arrivals (R383, R384) -/

/-- What has arrived of a rank's contribution. -/
def State.arrival (s : State) (group beat rank : Nat) : Arrival :=
  (s.fab.arrivals.find? (fun a => a.group == group && a.beat == beat && a.rank == rank)).getD { group := group, beat := beat, rank := rank }
def State.setArrival (s : State) (a : Arrival) : State :=
  { s with fab := { s.fab with arrivals := s.fab.arrivals.filter (fun x => !(x.group == a.group && x.beat == a.beat && x.rank == a.rank)) ++ [a] } }

/-- Whether a contribution of `n` bytes has arrived whole. -/
def Arrival.whole (a : Arrival) (n : Nat) : Bool :=
  decide (n ≤ runFrom (a.runs.map (fun r => (r.1, r.2.1))) (a.runs.length + 1) 0) && (n != 0 || !a.runs.isEmpty)

/-- Place of a landed byte among the packets of an instance. -/
def Arrival.landed (a : Arrival) (ofs : Nat) : Nat :=
  ((a.runs.find? (fun r => decide (r.1 ≤ ofs) && decide (ofs < r.1 + r.2.1))).map (fun r => r.2.2)).getD 0

/-- A collective packet's sub-header (R382). -/
def collSub (group rank beat ofs bytes gen : Nat) : Bytes :=
  toLE 16 (putF 0 0 (group % 65536) + putF 2 0 (rank % 64) + putF 4 0 (beat % 2 ^ 32) + putF 8 0 (ofs % 2 ^ 32) +
    putF 12 0 (bytes % 8192) + putF 14 0 (gen % 65536))
def collSubBad (h : Line16) : Bool := fld h 2 7 6 != 0 || fld h 3 7 0 != 0 || fld h 12 15 13 != 0

/-- The instance beat a sub-header's low 32 bits name, nearest the current one. -/
def State.nearBeat (s : State) (b : Nat) : Nat :=
  let back := (s.beat % 2 ^ 32 + 2 ^ 32 - b) % 2 ^ 32
  if back < 2 ^ 31 then s.beat - back else s.beat + (2 ^ 32 - back)

/-- The group a collective packet belongs to, unless it is discarded and counted (R365, R383). -/
def State.collGroup (s : State) (h : Line16) : State × Option CarGroup :=
  if collSubBad h then (s.count .fabBadProto 0 1, none)
  else match s.carGroupOf (fld h 0 15 0) with
    | none => (s.count .carMapgen (s.groupIdx (fld h 0 15 0)) 1, none)
    | some (x, _) => if fld h 14 15 0 != s.mapGen then (s.count .carMapgen (s.groupIdx (fld h 0 15 0)) 1, none) else (s, some x)

/-- COLL_DATA_RECEIVE: a packet is written into its slice (R383). Bytes outside its rank's part of the area are not
written. -/
def execCollDataReceive (port : PortNo) (hdr : Line16) (sub : Line16) (data : Bytes) (s : State) :
    Host.Outcome State Fault Refusal :=
  let r := s.arriveData port.val prColl hdr (lineBytes sub ++ data)
  .next (if !r.2 then r.1
    else match r.1.collGroup sub with
      | (s1, none) => s1
      | (s1, some x) =>
        let rank := fld sub 2 5 0
        let ofs := fld sub 8 31 0
        let n := fld sub 12 12 0
        let beat := s1.nearBeat (fld sub 4 31 0)
        if x.g ≤ rank ∨ x.rcap < ofs + n then s1
        else
          let s2 := (s1.hallPut [(x.rarea + beat % 4 * x.g * x.rcap + rank * x.rcap + ofs, slice data 0 n)]).1
          let a := s2.arrival x.group beat rank
          let s3 := s2.setArrival { a with runs := a.runs ++ [(ofs, n, s2.fab.arrOrder)] }
          { s3 with fab := { s3.fab with arrOrder := s3.fab.arrOrder + 1 } })

/-- HOLE: the sending rank is missing for its instance (R384). -/
def execHole (port : PortNo) (hdr : Line16) (sub : Line16) (s : State) : Host.Outcome State Fault Refusal :=
  let r := s.arriveData port.val prHole hdr (lineBytes sub ++ toLE 16 0)
  .next (if !r.2 then r.1
    else match r.1.collGroup sub with
      | (s1, none) => s1
      | (s1, some x) => s1.setArrival { s1.arrival x.group (s1.nearBeat (fld sub 4 31 0)) (fld sub 2 5 0) with hole := true })

/-- COLL_INSTANCE_DEADLINE: once boundary n + 2 has passed, what has not arrived is missing (R384). -/
def execCollDeadline (group : Nat) (beat : Nat) (s : State) : Host.Outcome State Fault Refusal :=
  match s.carGroupOf group with
  | none => .next s
  | some (x, _) => .next (if s.alive && decide (beat + 2 ≤ s.beat) then
      ((List.range x.g).filter (fun r => r != x.rank)).foldl (fun s r => s.setArrival { s.arrival group beat r with late := true }) s
    else s)

/-! ### Slots (R382) -/

/-- The bytes a collective sends a member: the contribution, or its part of a REDUCE_SCATTER with the part's scales. -/
def State.collPart (s : State) (o : Op) (g m : Nat) : Bytes :=
  let f := CollF.efmt o
  let n := CollF.elems o
  let k := partElems o g
  let first := if CollF.kind o = 2 then m * k else 0
  s.hallBytes (CollF.src o + first * elemBits f / 8) (k * elemBits f / 8) ++
    (if scaledFmt f then s.hallBytes (CollF.src o + n * elemBits f / 8 + first / 32) (k / 32) else [])

/-- Send a contribution to a device in offset order (R382); whether every packet found a way. -/
def State.sendColl (s : State) (dev : Nat) (hd : Nat → Nat → Bytes) (flow : Nat) : Nat → Nat → Bytes → State × Bool
  | 0, _, _ => (s, true)
  | fuel + 1, ofs, b =>
    let n := min b.length (s.dataRoom dev)
    if b.isEmpty then (s, true)
    else
      let r := s.sendData dev prColl flow (hd ofs n ++ b.take n)
      let t := State.sendColl r.1 dev hd flow fuel (ofs + n) (b.drop n)
      (t.1, r.2 && t.2)

/-- Ranks of a group other than this device's. -/
def CarGroup.others (x : CarGroup) : List Nat := (List.range x.g).filter (fun r => r != x.rank)

/-- A slot of the map in force opens: a ready contribution goes to every other member, else one HOLE each; a group sends once
a beat (R382). -/
def State.openSlot (s : State) (slot : Nat) : State :=
  match s.fab.carMap with
  | none => s
  | some m => match m.slots[slot]?.bind (fun t => m.groups[t.gidx]?) with
    | none => s
    | some x =>
      let n := s.beat
      let done := s.fab.sentSlots.any (fun e => e.1 == x.group && e.2.1 == n)
      if !s.running || !s.locked || s.fab.carWait.isSome || s.stillBeat || done then s
      else
        let mine := s.fab.colls.find? (fun c => c.group.group == x.group && c.beat == n)
        let r := match mine with
          | some c =>
            let size := collBytes (CollF.efmt c.op) (partElems c.op x.g)
            let s1 := (s.noteHallUse (CollF.src c.op) (collBytes (CollF.efmt c.op) (CollF.elems c.op))).1
            x.others.foldl (fun (acc : State × Bool) r =>
              let b := s1.collPart c.op x.g r
              let t := acc.1.sendColl (x.members.getD r 0) (fun o k => collSub x.group x.rank n o k m.gen) x.group (size / 496 + 1) 0 b
              (t.1, acc.2 && t.2)) (s1, true)
          | none => (x.others.foldl (fun s r =>
              (s.sendData (x.members.getD r 0) prHole x.group (collSub x.group x.rank n 0 0 m.gen ++ toLE 16 0)).1) s, true)
        let keep := r.1.fab.sentSlots.filter (fun e => decide (n ≤ e.2.1 + 8))
        let colls := r.1.fab.colls.map (fun c => if c.group.group = x.group ∧ c.beat = n then
          { c with own := some true, noRoute := c.noRoute || !r.2 } else c)
        { r.1 with fab := { r.1.fab with sentSlots := keep ++ [(x.group, n, mine.isSome)], colls := colls } }

/-- CAROUSEL_SLOT_START (R382). -/
def execCarouselSlotStart (slot : Fin 64) (s : State) : Host.Outcome State Fault Refusal := .next (s.openSlot slot.val)

/-- Slots that start at the boundary itself (R379, R382). -/
def State.firstSlots (s : State) : List Nat :=
  match s.fab.carMap with
  | none => []
  | some m => (List.range m.slots.length).filter (fun k => (m.slots[k]?.map (fun t => t.start)) == some 0)

/-! ### Results (R384 to R387) -/

/-- Whether a rank's contribution is present, and whether it is missing; `force` takes whatever is not whole as missing. -/
def State.rankState (s : State) (c : CollRec) (r : Nat) (force : Bool) : Bool × Bool :=
  let a := s.arrival c.group.group c.beat r
  let gone := decide (c.beat + 4 ≤ s.beat)
  let whole := a.whole (collBytes (CollF.efmt c.op) (partElems c.op c.group.g)) && !gone && !a.hole
  (whole, !whole && (force || a.hole || a.late || gone))

/-- Where rank r's contribution stands in the receive area (R383). -/
def CollRec.slice (c : CollRec) (r : Nat) : Nat := c.group.rarea + c.beat % 4 * c.group.g * c.group.rcap + r * c.group.rcap

/-- Value of element k of a contribution's bytes, in RFMT as FP32 bits (R52, R385). -/
def collElem (efmt rfmt n : Nat) (b : Bytes) (k : Nat) : Word :=
  let v := if scaledFmt efmt then scaledVal efmt b k (b.getD (n * elemBits efmt / 8 + k / 32) 0).toNat else elemVal efmt (elemAt efmt b k)
  if rfmt = 0x0C then f32 (ofBF16 (bf16 v)) else f32 v

/-- One addition in RFMT (R36, R385). -/
def collAdd (rfmt : Nat) (a b : Word) : Word :=
  if rfmt = 0x0C then f32 (ofBF16 (bf16 (FVal.add (ofF32 a) (ofF32 b)))) else f32add a b

/-- Element k of a reduction: the own contribution first, then the others in the order their packets landed. -/
def reduceElem (efmt rfmt n : Nat) (own : Bytes) (others : List (Arrival × Bytes)) (k : Nat) : Word :=
  ((sortBy (fun (x : Arrival × Bytes) => x.1.landed (k * elemBits efmt / 8)) others).map (fun x =>
    collElem efmt rfmt n x.2 k)).foldl (collAdd rfmt) (collElem efmt rfmt n own k)

/-- Form a collective's result at DEST (R385); the statuses its reads met. -/
def State.formResult (s : State) (c : CollRec) (missing : List Nat) : State × List Status :=
  let o := c.op
  let x := c.group
  let f := CollF.efmt o
  let n := partElems o x.g
  let size := collBytes f n
  let take (acc : State × List (Nat × Bytes) × List Status) (r : Nat) : State × List (Nat × Bytes) × List Status :=
    let t := acc.1.hallTake (c.slice r) size
    (t.1, acc.2.1 ++ [(r, t.2.1)], acc.2.2 ++ t.2.2)
  let rd := (x.others.filter (fun r => !missing.contains r)).foldl take (s, [], [])
  let own := rd.1.hallTake (CollF.src o) (collBytes f (CollF.elems o))
  let sts := rd.2.2 ++ own.2.2
  if CollF.kind o = 0 then
    let zero := List.replicate (n * elemBits f / 8) 0 ++ List.replicate (if scaledFmt f then n / 32 else 0) 0xFF
    let parts := (List.range x.g).map (fun r =>
      if r = x.rank then own.2.1 else ((rd.2.1.find? (fun e => e.1 == r)).map Prod.snd).getD zero)
    let p := own.1.hallPut [(CollF.dest o, parts.flatten)]
    (p.1, sts ++ p.2)
  else
    let mine := own.1.collPart o x.g x.rank
    let others := rd.2.1.map (fun e => (s.arrival x.group c.beat e.1, e.2))
    let ys := (List.range n).map (reduceElem f (CollF.rfmt o) n mine others)
    let z := laneOut (CollF.ofmt o) (CollF.uniform o) ys own.1.free
    let p := (own.1.draw (n + 32)).hallPut [(CollF.dest o, z.elems ++ z.scales)]
    (p.1.countLane z, sts ++ p.2)

/-- Heads in one rank's contribution to a step program's GATHER: its elements are FINAL rows of 16 × HDIM elements, one for each head
(R168, R161; DEDUCED, log 75). -/
def State.headsOf (s : State) (c : CollRec) : Nat :=
  match c.op.org with
  | .ring _ _ => 0
  | .step g =>
    let hdim := ((s.doc.groups.find? (fun l => l.id == g)).map (fun l => (s.prog l.prog).hdim)).getD 0
    if CollF.kind c.op = 0 then CollF.elems c.op / (16 * hdim) else 0

/-- End a collective: its result, its counters, and its status (R384 to R387). `lost` ends it with BEAT_LOST. -/
def State.collEnd (s : State) (c : CollRec) (lost : Bool) : State :=
  let x := c.group
  let missing := x.others.filter (fun r => (s.rankState c r true).2)
  let part := missing.filter (fun r => !(s.arrival x.group c.beat r).runs.isEmpty)
  let idx := s.groupIdx x.group
  let s1 : State := { s with fab := { s.fab with colls := s.fab.colls.filter (fun y => y.op.id != c.op.id) } }
  let r := s1.formResult c missing
  let ownHole := c.own == some false
  let st := worst ([statusIf c.noRoute .linkDown, statusIf (!missing.isEmpty || ownHole) .slotMissed,
    statusIf (lost || c.unlocked) .beatLost] ++ r.2)
  let bitsOf := (missing ++ if ownHole then [x.rank] else []).map (fun r => 2 ^ r)
  let result := bitsOf.foldl (· + ·) 0
  let s2 := (r.1.count .carMissed idx missing.length).count .carPartial idx part.length
  let s3 := s2.count .attHeadMissing 0 (missing.length * s.headsOf c)
  let s4 := if st != .ok && !c.op.ringed then
    s3.incident clsLink 0x33 .ok (srcHub hubCarousel) result (x.group + st.code * 2 ^ 16) else s3
  s4.complete (srcHub hubCarousel) c.op { st := st, result := result }

/-- Whether a collective may complete: its own slot's send has ended or its beat has passed, and every other rank is present
or missing (R384). -/
def State.collReady (s : State) (c : CollRec) : Bool :=
  (c.own.isSome || decide (c.beat < s.beat)) &&
    c.group.others.all (fun r => let t := s.rankState c r false; t.1 || t.2)

/-- COLL_COMPLETE (R384, R385). -/
def execCollComplete (group : Nat) (beat : Nat) (s : State) : Host.Outcome State Fault Refusal :=
  match s.fab.colls.find? (fun c => c.group.group == group && c.beat == beat) with
  | none => .next s
  | some c => .next (if s.running && s.collReady c then s.collEnd c false else s)

/-- Acceptance of a COLL: it is registered; one issued after its slot's START was represented by a hole (R382). Without the
map of the parent's generation it ends with BEAT_LOST (R372), and one issued after boundary n + 4 at once (R384). -/
def State.collStart (s : State) (o : Op) : State :=
  match s.carGroupOf (CollF.group o) with
  | none => s
  | some (x, _) =>
    let n := s.instanceBeat o
    let holed := s.fab.sentSlots.any (fun e => e.1 == x.group && e.2.1 == n && !e.2.2)
    let c : CollRec := { op := o, group := x, beat := n, own := if holed then some false else none }
    let s1 := s.countIf holed .carLate (s.groupIdx x.group)
    let s2 := State.opEvent { s1 with fab := { s1.fab with colls := s1.fab.colls ++ [c] } } (srcHub hubCarousel) 2 o .ok
    if s2.fab.carWait.isSome then s2.collEnd c true
    else if n + 4 ≤ s2.beat then s2.collEnd c false else s2

def State.acceptColl (s : State) (o : Origin) (d : Line64) : State :=
  s.accept (srcHub hubCarousel) o d opColl collChecks State.collStart

/-- COLL (R381). -/
def execColl (o : Origin) (d : Line64) (s : State) : Host.Outcome State Fault Refusal := .next (s.acceptColl o d)

/-- Every collective ends with BEAT_LOST (R371, R372). -/
def State.collsLost (s : State) : State := s.fab.colls.foldl (fun s c => s.collEnd c true) s

/-- A boundary the device passes without lock marks the collectives whose instance has begun (R386). -/
def State.markUnlocked (s : State) : State :=
  if s.locked then s
  else { s with fab := { s.fab with colls := s.fab.colls.map (fun c => if c.beat ≤ s.beat then { c with unlocked := true } else c) } }

/-- Slices cleared for reuse at boundary n + 4 (R383). -/
def State.clearSlices (s : State) : State :=
  { s with fab := { s.fab with arrivals := s.fab.arrivals.filter (fun a => decide (s.beat < a.beat + 4)) } }

/-! ### Sync words (R366, R372) -/

/-- A sync word; a device that finds no loaded map of its new parent's generation ends its collectives (R372). -/
def State.hearSync (s : State) (i : Nat) (l : Line32) (rx16 : Nat) : State :=
  let s1 := s.syncWord i l rx16
  if s1.fab.carWait.isSome then s1.collsLost else s1

/-- SYNC_RECEIVE (R366, R367). `rx16` is the time since the device's own boundary in 1/16 ns. -/
def execSyncReceive (from_ : Neighbour) (hdr : Line16) (payload : Line32) (rx16 : Nat) (s : State) :
    Host.Outcome State Fault Refusal :=
  match from_ with
  | .port p =>
    let r := s.arrive p.val tySync hdr (lineBytes payload)
    .next (if r.2 then r.1.hearSync p.val payload rx16 else r.1)
  | .uplink k =>
    let r := s.arrive (s.peerPort k.val) tySync hdr (lineBytes payload)
    .next (if r.2 && s.peerValid k.val && Pkt.src hdr == s.peerDev k.val then r.1.hearSync (24 + k.val) payload rx16 else r.1)

/-! ### Beat loss (R371) -/

/-- Causes of beat loss in the order of R369 (R406). -/
def lossCode : BeatLossCause → Nat
  | .noCandidate => 0 | .theta => 1 | .beatDiffers => 2 | .rootChanges => 3 | .lateQuiesce => 4

/-- BEAT_LOSS: a LOCKED device that has lost lock runs freely in SEEK; its window operations and collectives end with
BEAT_LOST (R369, R371). -/
def execBeatLoss (cause : BeatLossCause) (s : State) : Host.Outcome State Fault Refusal :=
  let b := s.fab.beat
  .next (if s.alive && b.st == .locked && b.lossDue == some cause then
    let s1 := s.setBeatSt .seek s.beat
    let s2 := s1.setBeat { s1.fab.beat with
      stratum := 15, parent := 63, next := none, lossDue := none, silent := 0
      peers := b.peers.map (fun e => (e.1, { e.2 with streak := 0, better := 0 })) }
    let s3 := (s2.count .beatLoss 0 1).incident clsLink 0x32 .ok (srcHub hubBeat) (s.beat % 2 ^ 64) (lossCode cause)
    ((s3.windowsLost).collsLost).voidSteps [voidBeat]
  else s)

end Sys2Proof.Machine
end

