-- ==== Sys2Proof/Machine/Steps.lean ====
section
/-! DEFINITION. Step programs: loading one, issuing its operations, and the end of a lane group's step with its answer
records (R186, R187, R203, R208 to R213, R223, R224, R403). -/

namespace Sys2Proof.Machine

def opProgLoad : Nat := 0x46

/-! ### The image (R212, R213) -/

/-- Replace bits [hi:lo] of the field at byte `o` of a line. -/
def setF (d : Line64) (o hi lo v : Nat) : Line64 := BitVec.ofNat 512 (setBits d.toNat (8 * o + hi) (8 * o + lo) v)

/-- Whether a template is a core operation's: one that FAN spreads over cores. -/
def coreOp (opcode : Nat) : Bool := opcode == opTile || opcode == opTileBs || opcode == opAttn

def barrier (d : Line64) : Bool := fbit d 1 0
def perStream (d : Line64) : Bool := fbit d 1 1
def fan (d : Line64) : Nat := fld d 2 11 0

/-- The checks an opcode makes on a ring descriptor, for the opcodes a step program may hold; none for another. -/
def templateChecks (opcode func : Nat) : Option (State → Op → List Bad) :=
  match opcode with
  | 0x20 => some copyChecks
  | 0x21 => some fillChecks
  | 0x22 => some compareChecks
  | 0x23 => some gatherChecks
  | 0x24 => some stridedChecks
  | 0x25 => some transposeChecks
  | 0x26 => some t24Checks
  | 0x27 => some dmaStopChecks
  | 0x62 => some tileChecks
  | 0x63 => some tileBsChecks
  | 0x64 => some attnChecks
  | 0x74 => some (fun _ o => collForm o)
  | 0x78 => if func ≤ 5 then some (hubChecks func) else none
  | _ => none

/-- A template as the operation its checks see: bytes 1 to 7, which R213 gives other meanings, stand as zero, and the
fields the Docent fills in hold values that pass. -/
def templateOp (d : Line64) : Op :=
  let opcode := fld d 0 7 0
  let bare := setF d 1 55 0 0
  let d' := if opcode = opAttn ∧ perStream d then setF bare 22 12 0 1 else bare
  { id := 0, org := if opcode = 0x74 ∨ opcode = opHub then .step 0 else .ring 0 0, opcode := opcode, d := d', gal := 0, cls := 3
    beat := 0 }

/-- Whether an operation of an image passes R213. -/
def State.templateOk (s : State) (d : Line64) : Bool :=
  let opcode := fld d 0 7 0
  let form := fld d 1 7 2 == 0 && fld d 2 15 12 == 0 && fld d 7 7 0 == 0 && fld d 60 31 0 == 0
  let fanOk := perStream d || decide (1 ≤ fan d) && decide (fan d ≤ 2048)
  let filled := !(opcode == opAttn && perStream d) || fld d 18 15 0 == 0 && fld d 22 15 0 == 0 && fld d 24 31 0 == 0
  match templateChecks opcode (fld d 8 2 0) with
  | none => false
  | some f => form && fanOk && filled && !(f s (templateOp d)).any (fun b => b.st == .badDescriptor)

/-- Operation i of an image. -/
def imageOp (img : Bytes) (i : Nat) : Line64 := bytesLine 512 (slice img (64 + 64 * i) 64)

/-- Operations an image's header declares. -/
def imageOps (img : Bytes) : Nat := ofLE (slice img 20 4) + ofLE (slice img 24 4)

/-- The checks an image's header passes by itself (R212). -/
def headerOk (img : Bytes) : Bool :=
  let f (o n : Nat) : Nat := ofLE (slice img o n)
  let zero := bits (f 2 1) 7 4 == 0 && bits (f 3 1) 7 7 == 0 && f 7 1 == 0 && bits (f 8 2) 15 13 == 0 &&
    bits (f 10 1) 7 5 == 0 && bits (f 11 1) 7 5 == 0 && bits (f 12 2) 15 4 == 0 && f 14 2 == 0 && f 44 16 == 0
  f 0 2 == 1 && (bits (f 2 1) 3 0 == 4 || bits (f 2 1) 3 0 == 8) && decide (1 ≤ bits (f 3 1) 6 0) && decide (bits (f 3 1) 6 0 ≤ 64) &&
    decide (1 ≤ bits (f 8 2) 12 0) && decide (bits (f 8 2) 12 0 ≤ 4096) &&
    layoutOk (bits (f 10 1) 4 0) (bits (f 11 1) 4 0) (bits (f 12 2) 3 0) && zero

/-- The program of an image, unless a check fails (R212, R213). -/
def State.parseProg (s : State) (img : Bytes) (obj : Nat) : Option Prog :=
  let f (o n : Nat) : Nat := ofLE (slice img o n)
  let ndec := f 20 4
  let n := imageOps img
  if img.length ≠ 64 + 64 * n then none
  else
    let ops := (List.range n).map (imageOp img)
    let p : Prog :=
      { awidth := bits (f 2 1) 3 0, topkMax := bits (f 3 1) 6 0, vocab := f 4 3, slots := bits (f 8 2) 12 0
        kfmt := bits (f 10 1) 4 0, vfmt := bits (f 11 1) 4 0, hdim := bits (f 12 2) 3 0, place := f 16 4, wstep := f 28 4
        wsb := f 32 4, wpre := f 36 4, tlong := f 40 4, dec := ops.take ndec, pre := ops.drop ndec, obj := obj, image := img }
    let ok := headerOk img && crc32c (img.take 60 ++ img.drop 64) == f 60 4 && ops.all s.templateOk
    if ok then some p else none

/-! ### PROG_LOAD (R211) -/

/-- What a PROG_LOAD read of its image: the object it lies in, the bytes, whether host memory gave too few, and whether the image leaves its
mapping. -/
structure ImageRead where
  obj   : Nat
  img   : Bytes
  short : Bool
  cut   : Bool
  deriving DecidableEq, Repr

/-- Bytes of a device range that come from a reference copy (R321). -/
def State.outsideBytes (s : State) (e : Ep) : Nat → Nat → Nat → Nat
  | 0, _, _ => 0
  | fuel + 1, pos, n =>
    let step := min n (nextMul (e.addr + pos) 262144 - (e.addr + pos))
    let here := if s.srcOutside 0 e pos then step else 0
    if n ≤ step then here else here + s.outsideBytes e fuel (pos + step) (n - step)

/-- Read the image at an address of the physical function: its header tells its length. None where the address lies in
no mapped accessioned object, or the object ends before the header does. -/
def State.readImage (s : State) (addr : Nat) (outside : Bytes) : State × Option ImageRead :=
  match s.mappingAt 0 addr true with
  | none => (s, none)
  | some m =>
    let room := m.daddr + m.panels * 2 ^ 18 - addr
    let e : Ep := { space := 1, core := 0, href := 0, addr := addr }
    if room < 64 || !((s.obj? m.obj).map (fun x => x.accessioned)).getD false then (s, none)
    else
      let head := (s.takeLong 0 e 256 rdDma 3 0 64 outside).2.data
      let n := min room (64 + 64 * imageOps head)
      let r := s.takeLong 0 e 256 rdDma (n / 262144 + 3) 0 n outside
      (r.1, some { obj := m.obj, img := r.2.data, short := decide (outside.length < s.outsideBytes e (n / 262144 + 3) 0 n),
                    cut := decide (room < 64 + 64 * imageOps head) })

def progSlot (o : Op) : Nat := fld o.d 8 7 0
def progAddr (o : Op) : Nat := fld o.d 16 47 0

/-- Whether a stream names a program slot, or a command accepted for it does (R201, R211). -/
def State.slotNamed (s : State) (slot : Nat) : Bool :=
  s.doc.ctxs.any (fun e => e.2.st != .free && (e.2.prog == slot || (s.effPolicy e.1).1 == slot))

/-- Whether a program's TLONG would break R221 for the admitted groups. -/
def State.longBreaks (s : State) (p : Prog) : Bool :=
  decide (s.tlongMax < p.tlong) && !s.carmineFits (p.tlong + s.beatClk / 4) s.groups

/-- Checks of PROG_LOAD on what it read of its image. -/
def progChecks (rd : Option ImageRead) (s : State) (o : Op) : List Bad :=
  let d := o.d
  o.flagsZero 0 ++ needZero d (byteRange 9 15) ++ needBits d 16 63 48 ++ needZero d (byteRange 24 59) ++
  (if progAddr o = 0 then need (s.slotNamed (progSlot o)) .badHandle 8
   else need (s.prog? (progSlot o)).isSome .badHandle 8 ++
    (match rd with
      | none => need true .badHandle 16
      | some r =>
        if r.short then []
        else if r.cut then needOk (headerOk r.img) 16 ++ need true .badHandle 16
        else need (s.pinsFull r.obj) .quotaExceeded 16 ++ match s.parseProg r.img r.obj with
          | none => need true .badDescriptor 16
          | some p => need (s.longBreaks p) .budgetExceeded 16))

/-- Its effect: the slot is loaded and its object pinned, or unloaded and unpinned (R332). -/
def State.progStart (rd : Option ImageRead) (s : State) (o : Op) : State :=
  let k := progSlot o
  if progAddr o = 0 then
    let s1 := match s.prog? k with | none => s | some p => s.pinObj p.obj false
    State.complete { s1 with doc := { s1.doc with progs := s1.doc.progs.erase k } } (srcHub hubDocent) o { st := .ok }
  else match rd with
    | none => s.complete (srcHub hubDocent) o { st := .badHandle }
    | some r =>
      match r.short, s.parseProg r.img r.obj with
      | false, some p =>
        let s1 := s.pinObj r.obj true
        State.complete { s1 with doc := { s1.doc with progs := Tbl.insert s1.doc.progs k p } } (srcHub hubDocent) o { st := .ok }
      | _, _ => s.complete (srcHub hubDocent) o { st := .internal }

/-- Whether a PROG_LOAD reads an image before it is judged. -/
def State.readsImage (s : State) (o : Origin) (d : Line64) : Bool :=
  s.running && fld d 16 47 0 != 0 && s.flag .docCtrl [] 0 && s.flag .glbMemCtrl [] 0 &&
    (match o with | .ring r _ => decide (r.val < 64) | .step _ => false)

def State.acceptProgLoad (s : State) (o : Origin) (d : Line64) (image : Bytes) : State :=
  let r := if s.readsImage o d then s.readImage (fld d 16 47 0) image else (s, none)
  r.1.accept (srcHub hubDocent) o d opProgLoad (progChecks r.2) (State.progStart r.2)

/-- PROG_LOAD (R211): `image` is what host memory gives of an image that lies in a reference copy. -/
def execProgLoad (o : Origin) (d : Line64) (image : Bytes) (s : State) : Host.Outcome State Fault Refusal :=
  .next (s.acceptProgLoad o d image)

/-! ### Issuing operations (R213) -/

/-- The operations of a group's body. -/
def State.body (s : State) (g : LaneGroup) : List Line64 := if g.prefill then (s.prog g.prog).pre else (s.prog g.prog).dec

/-- Hand one operation of a step to the unit that runs it. -/
def State.issueLine (s : State) (gid : Nat) (d : Line64) : State :=
  let o : Origin := .step gid
  match fld d 0 7 0 with
  | 0x20 => s.acceptCopy o d
  | 0x21 => s.acceptFill o d
  | 0x22 => s.acceptCompare o d
  | 0x23 => s.acceptGather o d
  | 0x24 => s.acceptStrided o d
  | 0x25 => s.acceptTranspose o d
  | 0x26 => s.acceptT24 o d
  | 0x27 => s.acceptDmaStop o d
  | 0x62 => s.acceptTile o d
  | 0x63 => s.acceptTileBs o d
  | 0x64 => s.acceptAttn o d
  | 0x74 => s.acceptColl o d
  | 0x78 => match fld d 8 2 0 with
    | 0 => s.acceptAddnorm o d
    | 1 => s.acceptConvert o d
    | 2 => s.acceptBcast o d
    | 3 => s.acceptMerge o d
    | 4 => s.acceptPsum o d
    | 5 => s.acceptSample o d
    | _ => s
  | _ => s

/-- Instance i of a fanned-out core operation: CORE + i, and ROWID + i × ROWS of a tile (R213). -/
def fanLine (d : Line64) (i : Nat) : Line64 :=
  let d1 := setF d 8 10 0 (fld d 8 10 0 + i)
  match fld d 0 7 0 with
  | 0x62 => setF d1 32 31 0 (fld d 32 31 0 + i * fld d 18 8 0)
  | 0x63 => setF d1 32 31 0 (fld d 32 31 0 + i * (64 * fld d 18 2 0))
  | _ => d1

/-- The page a stream's map resolves to, core and frame: copy m mod (k + 1) of a FULL page, and of a page being copied
on write the one it replaces (R186, R187). -/
def State.resolvePage (s : State) (k n : Nat) : Nat × Nat :=
  match s.cur.cows.find? (fun c => c.dst == n && c.stream == k) with
  | some c => (c.srcCore, c.srcFrame)
  | none =>
    let p := s.page n
    let q := if p.full then (n :: p.copies).getD (k % (p.copies.length + 1)) n else n
    ((s.page q).core, (s.page q).frame)

/-- Page entries of one slot of a stream by core: PADDR, SADDR, TPOS, TCOUNT (R186). -/
def State.slotEntries (s : State) (k slot : Nat) : List (Nat × Nat × Nat × Nat × Nat) :=
  let m := s.kvMap k
  ((m.rows.zip (List.range m.rows.length)).filter (fun r => decide (0 < r.1.fill))).map (fun r =>
    let cf := s.resolvePage k (r.1.pages.getD slot 0)
    (cf.1, s.kvAddr cf.2, s.scAddr cf.2, r.2 * m.ptok, r.1.fill))

/-- The ATTN of one member and slot: one for each core its pages lie on, or one on the home core (R183, R213). -/
def State.issueSlot (s : State) (gid : Nat) (d : Line64) (k slot : Nat) : State :=
  let es := s.slotEntries k slot
  let line (core n : Nat) : Line64 :=
    setF (setF (setF d 8 10 0 core) 22 12 0 n) 24 31 0 (s.kvMap k).tokens
  match distinct (es.map Prod.fst) with
  | [] =>
    let h := s.homeCore (s.kvMap k) slot ((s.kvMap k).rows.length - 1)
    h.1.acceptAttnPages (.step gid) (line h.2 0) []
  | cores => cores.foldl (fun s c =>
      let mine := (es.filter (fun e => e.1 == c)).map Prod.snd
      s.acceptAttnPages (.step gid) (line c mine.length) mine) s

/-- Expand an operation for one member stream (R213, R186); a stream whose tables are lost gets no ATTN (R402). -/
def State.issueMember (s : State) (gid : Nat) (d : Line64) (k : Nat) : State :=
  if fld d 0 7 0 = opAttn then
    let c := s.checkTables k (s.kvMap k).rows
    if c.2 then c.1 else (List.range (s.kvMap k).slots).foldl (fun s slot => s.issueSlot gid d k slot) c.1
  else s.issueLine gid d

/-- Issue an operation of a step in full: once, once for each core of its FAN, or once for each member stream (R213). -/
def State.issueOp (s : State) (g : LaneGroup) (d : Line64) : State :=
  if perStream d then g.members.foldl (fun s m => s.issueMember g.id d m.stream) s
  else if coreOp (fld d 0 7 0) then (List.range (fan d)).foldl (fun s i => s.issueLine g.id (fanLine d i)) s
  else s.issueLine g.id d

/-- A running lane group by number. -/
def State.laneGroup? (s : State) (id : Nat) : Option LaneGroup := s.doc.groups.find? (fun g => g.id == id)

/-- One token write of a step: the next token of a slot of a member (R187). -/
def State.stepWrite (s : State) (gid : Nat) (w : TokenWrite) : State :=
  match (s.laneGroup? gid).bind (fun g => g.members.find? (fun m => m.stream == w.stream.val)) with
  | none => s
  | some m =>
    let map := s.kvMap m.stream
    let done := Tbl.look m.wrote w.slot 0
    let c := s.checkTables m.stream ((map.rows[(map.tokens + done) / map.ptok]?).toList)
    if c.2 then c.1
    else if decide (m.tokens ≤ done) || decide (map.slots ≤ w.slot) then s
    else
      let r := c.1.tokenWrite gid (map.tokens + done) m.frames w
      let m' : Member := { m with frames := r.2, wrote := Tbl.insert m.wrote w.slot (done + 1) }
      r.1.updGroup gid (fun g => { g with members := g.members.map (fun x => if x.stream = m.stream then m' else x) })

/-- STEP_OP_ISSUE: the next operation of a lane group issues, unless its BARRIER holds it, and the token writes of the
step's earlier operations take place (R213, R187). -/
def execStepOpIssue (group : Nat) (writes : List TokenWrite) (s : State) : Host.Outcome State Fault Refusal :=
  match s.laneGroup? group with
  | none => .next s
  | some g =>
    if !s.running then .next s
    else
      let s1 := match (s.body g)[g.next]? with
        | none => s
        | some d =>
          if barrier d && !g.outstanding.isEmpty then s
          else (s.issueOp g d).updGroup group (fun l => { l with next := l.next + 1 })
      .next (writes.foldl (fun s w => s.stepWrite group w) s1)

/-! ### The end of a step -/

/-- The stream's map after a step of n tokens: TOKENS and each row's FILL (R181, R182). -/
def KvMap.advance (m : KvMap) (n : Nat) : KvMap :=
  let t := m.tokens + n
  { m with tokens := t, rows := (m.rows.zip (List.range m.rows.length)).map (fun r =>
      { r.1 with fill := min m.ptok (t - r.2 * m.ptok) }) }

/-- Tokens stepped come off the APPENDs in order: what is left of each, and those whose last token has been stepped
(R203). -/
def stepAppends : Nat → List AppendRec → List AppendRec × List AppendRec
  | _, [] => ([], [])
  | n, a :: t =>
    match a.left with
    | none => let r := stepAppends n t; (a :: r.1, r.2)
    | some l =>
      let r := stepAppends (n - l) t
      if l ≤ n then (r.1, a :: r.2) else ({ a with left := some (l - n) } :: r.1, r.2)

/-- Take the stepped tokens of a prefill off the prompt; the APPENDs that end are answered (R203, R216). -/
def State.stepPrompt (s : State) (k n : Nat) : State × List AppendRec :=
  let x := s.ctx k
  let r := stepAppends n (s.appendsOf k)
  let keep (a : AppendRec) : Option AppendRec :=
    if a.stream ≠ k then some a else r.1.find? (fun b => b.op.id == a.op.id)
  let s1 := s.setCtx k { x with pending := x.pending - n, prompt := x.prompt.drop n
                                pqHead := BitVec.ofNat 32 ((x.pqHead.toNat + n) % 4194304) }
  ({ s1 with doc := { s1.doc with appends := s1.doc.appends.filterMap keep } }, r.2)

/-- Whether a generation ends with a token: a stop token or MAXTOK first, then the limit of R184 (R208, R209). -/
def State.endOf (s : State) (k generated : Nat) (token : BitVec 24) : Option Status :=
  let x := s.ctx k
  if (x.stops.take x.nStop).contains token || x.maxTok != 0 && decide (x.maxTok ≤ generated) then some .ok
  else if (s.kvMap k).limit ≤ (s.kvMap k).tokens then some .quotaExceeded
  else none

/-- Write a member's records and leave the step: NOTICE, TOKEN, END, the answers owed after them, then what waited for the
step's end (R206, R208 to R210, R403). -/
def State.stepRecords (s : State) (r : HeldRecord) (prefill : Bool) (first last : List Op) : State :=
  let k := r.stream
  let settled := (s.appendsOf k).isEmpty
  let s1 := (match r.notice with | none => s | some st => s.notice k st).completeAll first
  let s2 := match r.token with
    | none =>
      let x := s1.ctx k
      let ended := prefill && decide (x.pending = 0)
      s1.setCtx k { x with st := if ended && x.st == StreamSt.prefill then .idle else x.st, relEnd := x.relEnd && !(ended && settled) }
    | some (v, pos) =>
      let s2 := s1.writeAnswer k 0 v.token.toNat pos .ok v.prob.toNat v.rank
      let x := s2.ctx k
      s2.setCtx k { x with lastTok := v.token, generated := if prefill then 1 else (x.generated + 1) % 2 ^ 32
                           st := if x.st == StreamSt.releasing then .releasing else if r.endSt.isSome then .idle else .decode
                           relEnd := x.relEnd && !(r.endSt.isSome && settled) }
  let s3 := s2.completeAll last
  let s4 := match r.endSt with
    | none => s3
    | some st => s3.endRecord k st []
  let s5 := s4.setCtx k { s4.ctx k with inStep := false, issuedAt := s4.issueBeat }
  let s6 := s5.takeCancels k (s5.doc.cancels.length + 1)
  s6.flushAppends k (s6.doc.appends.length + 1)

/-- A member's share of a completed step: its map and prompt advance, unused frames return (R185), and what its records
will say. The lists are the commands answered before and after its TOKEN record. -/
def State.memberEnd (s : State) (g : LaneGroup) (m : Member) : State × HeldRecord × List Op × List Op :=
  let k := m.stream
  let gives := s.givesToken g m
  let s1 := m.frames.foldl (fun s cf => s.returnFrame cf.1 cf.2) (s.setKvMap k ((s.kvMap k).advance m.tokens))
  let p := if g.prefill then s1.stepPrompt k m.tokens else (s1, [])
  let s2 := p.1
  let free : Sampled := { token := BitVec.ofNat 24 (Config.freeNat s2.free), prob := BitVec.ofNat 16 (Config.freeNat (s2.free + 1))
                          rank := Config.freeNat (s2.free + 2) % 64 }
  let v := m.sampled.getD free
  let s3 := if gives && m.sampled.isNone then s2.draw 3 else s2
  let pos := (s3.kvMap k).tokens
  let gen := if g.prefill then 1 else (s3.ctx k).generated + 1
  let go (a : AppendRec) : Bool := a.go && gives
  (s3, { stream := k, notice := if m.status == .ok then none else some m.status
         token := if gives then some (v, pos) else none
         endSt := if gives then s3.endOf k gen v.token else none },
    (p.2.filter (fun a => !go a)).map (fun a => a.op), (p.2.filter go).map (fun a => a.op))

/-- The Carmine group whose records wait, with the beat they wait for: d_k + P − 4 (R223). -/
def State.holdsRecords (s : State) (g : LaneGroup) : Option (Nat × CGroup × Nat) :=
  match g.cgroup.bind (fun c => (Tbl.find s.doc.cgroups c).map (fun x => (c, x))) with
  | none => none
  | some (c, x) => if s.beat < g.beat + x.period - 4 then some (c, x, g.beat + x.period - 4) else none

/-- Count a Carmine step that broke conditions of R224, once for each condition. -/
def State.countVoid (s : State) (g : LaneGroup) : State :=
  if g.cgroup.isNone then s
  else (distinct (g.broke ++ s.voidNow)).foldl (fun s c => s.countSub .promiseVoid 0 c 1) s

/-- Whether a lane group's step is over: every operation issued and completed, every copy it began complete (R187,
R213). -/
def State.stepOver (s : State) (g : LaneGroup) : Bool :=
  decide ((s.body g).length ≤ g.next) && g.outstanding.isEmpty && !s.cur.cows.any (fun c => c.group == g.id && !c.done)

/-- STEP_COMPLETE: the step's streams advance and their records are written, or held for a Carmine group (R210, R223). -/
def execStepComplete (group : Nat) (s : State) : Host.Outcome State Fault Refusal :=
  match s.laneGroup? group with
  | none => .next s
  | some g =>
    if !s.running || !s.stepOver g then .next s
    else
      let s0 := s.countVoid g
      let s1 : State := { s0 with doc := { s0.doc with groups := s0.doc.groups.filter (fun l => l.id != group) } }
      let s1 := s1.dropCows group
      let ends := g.members.foldl (fun (acc : State × List (HeldRecord × List Op × List Op)) m =>
        let r := acc.1.memberEnd g m
        (r.1, acc.2 ++ [r.2])) (s1, [])
      match s.holdsRecords g with
      | none => .next (ends.2.foldl (fun s r => s.stepRecords r.1 g.prefill r.2.1 r.2.2) ends.1)
      | some (c, x, due) =>
        let x' : CGroup := { x with held := x.held ++ ends.2.map Prod.fst, heldDue := due }
        .next { ends.1 with doc := { ends.1.doc with cgroups := Tbl.insert ends.1.doc.cgroups c x' } }

/-- CARMINE_RECORD_RELEASE: the records a Carmine group holds are written once their beat has come (R223). -/
def execCarmineRecordRelease (cgroup : Fin 256) (s : State) : Host.Outcome State Fault Refusal :=
  match Tbl.find s.doc.cgroups cgroup.val with
  | none => .next s
  | some x =>
    if !s.running || x.held.isEmpty || decide (s.beat < x.heldDue) then .next s
    else
      let s1 : State := { s with doc := { s.doc with cgroups := Tbl.insert s.doc.cgroups cgroup.val { x with held := [] } } }
      let s2 := x.held.foldl (fun s r => s.stepRecords r false [] []) s1
      .next { s2 with doc := { s2.doc with cgroups := leaveGroups 32768 (fun _ => true) s2.doc.cgroups } }

end Sys2Proof.Machine
end

