-- ==== Sys2Proof/Machine/Fetch.lean ====
section
/-! DEFINITION. Fetched descriptors: their checks and their acceptance (R201, R238 to R243, R250, R251), and device reads of host
memory that fail (R262). -/

namespace Sys2Proof.Machine

/-! ### Fetched descriptors -/

/-- PHASE of descriptor `i` as R240 expects it. -/
def State.phaseOf (s : State) (r : Nat) (i : Word) : Bool := (i.toNat / s.ringSize r + 1) % 2 == 1

/-- The control check of a descriptor: over bytes 0 to 59, 62 and 63 (R239). -/
def descCrc (d : Line64) : Nat := let b := lineBytes d; crc16 (b.take 60 ++ b.drop 62)

/-- Hand a descriptor to the unit of its opcode; none for an opcode that is not assigned (R241). A PROG_LOAD comes with its
image. -/
def State.acceptLine (s : State) (o : Origin) (f : Fetched) : Option State :=
  let d := f.d
  match fld d 0 7 0 with
  | 0x01 => some (s.acceptNop o d)
  | 0x02 => some (s.acceptFence o d)
  | 0x20 => some (s.acceptCopy o d)
  | 0x21 => some (s.acceptFill o d)
  | 0x22 => some (s.acceptCompare o d)
  | 0x23 => some (s.acceptGather o d)
  | 0x24 => some (s.acceptStrided o d)
  | 0x25 => some (s.acceptTranspose o d)
  | 0x26 => some (s.acceptT24 o d)
  | 0x27 => some (s.acceptDmaStop o d)
  | 0x40 => some (s.acceptAdmit o d)
  | 0x41 => some (s.acceptAppend o d)
  | 0x42 => some (s.acceptPolicy o d)
  | 0x43 => some (s.acceptFork o d)
  | 0x44 => some (s.acceptCancel o d)
  | 0x45 => some (s.acceptRelease o d)
  | 0x46 => some (s.acceptProgLoad o d f.aux)
  | 0x60 => some (s.acceptBind o d)
  | 0x61 => some (s.acceptUnbind o d)
  | 0x62 => some (s.acceptTile o d)
  | 0x63 => some (s.acceptTileBs o d)
  | 0x64 => some (s.acceptAttn o d)
  | 0x68 => some (s.acceptPageMove o d)
  | 0x69 => some (s.acceptObjCreate o d)
  | 0x6A => some (s.acceptAccession o d)
  | 0x6B => some (s.acceptObjMap o d)
  | 0x6C => some (s.acceptObjRelease o d)
  | 0x6D => some (s.acceptMigrate o d)
  | 0x6E => some (s.acceptObjPin o d)
  | 0x6F => some (s.acceptObjQuery o d)
  | 0x70 => some (s.acceptWinOpen o d)
  | 0x71 => some (s.acceptWinClose o d)
  | 0x72 => some (s.acceptWinPut o d)
  | 0x73 => some (s.acceptWinGet o d)
  | 0x74 => some (s.acceptColl o d)
  | 0x75 => some (s.acceptQuiesce o d)
  | 0x76 => some (s.acceptCarLoad o d)
  | 0x78 => some (s.acceptAddnorm o d)
  | _ => none

/-- A fetched descriptor that fails a step of R242 before its unit sees it. -/
def State.refuseLine (s : State) (o : Origin) (d : Line64) (cause off : Nat) : State :=
  let t := s.take o d (fld d 0 7 0)
  t.1.complete (srcHub hubHost) t.2 { st := .badDescriptor, cause := cause, off := off }

/-- FIDX advances past a descriptor (R250). -/
def State.advance (s : State) (r : Nat) : State :=
  let x := s.ring r
  s.setRing r { x with fidx := x.fidx + 1, phaseBad := 0 }

/-- Keep an entry until every descriptor of the poll has been fetched. -/
def State.stash (s : State) (e : PollEntry) : State :=
  match s.hif.poll with
  | none => s
  | some p => s.setPoll { p with fetched := p.fetched ++ [e] }

/-- Step 4 of R246 for one entry: it is fetched if its phase is right, or at the fourth poll that finds it wrong (R249 to R251).
Answers whether fetching goes on beyond it: not past a FENCE (R253), nor past P₀, whatever stood in the ring when the read began. -/
def State.fetchEntry (s : State) (r : RingNo) (f : Fetched) : State × Bool :=
  let x := s.ring r.val
  if x.fidx == x.p0 || x.halt then (s, false)
  else if fbit f.d 62 0 == s.phaseOf r.val x.fidx then
    ((s.advance r.val).stash { ring := r, index := x.fidx, entry := f, late := false }, fld f.d 0 7 0 != 0x02)
  else if x.phaseBad < 3 then
    ((s.setRing r.val { x with phaseBad := x.phaseBad + 1 }).count .hifPhaseWait (r.val / 64) 1, false)
  else ((s.advance r.val).stash { ring := r, index := x.fidx, entry := f, late := true }, true)

/-- The entries read of a ring, in ring order, as far as fetching goes on. -/
def State.fetchEntries (s : State) (r : RingNo) : List Fetched → State
  | [] => s
  | f :: t =>
    let a := s.fetchEntry r f
    if a.2 then State.fetchEntries a.1 r t else a.1

/-- Step 5 of R246 for one fetched descriptor: step 1 of R242 with R251, step 2, step 3, then the unit's own checks. -/
def State.acceptEntry (s : State) (e : PollEntry) : State :=
  let o : Origin := .ring e.ring e.index
  let d := e.entry.d
  if e.late then s.refuseLine o d 2 0
  else if fld d 60 15 0 != descCrc d then (s.count .hifCrcFail (e.ring.val / 64) 1).refuseLine o d 1 0
  else match s.acceptLine o e.entry with
    | some t => t
    | none => s.refuseLine o d 3 0

/-- Step 5 of R246: what the poll has fetched is checked and accepted, in ascending ring number and in ring order (R201, R242). -/
def State.acceptFetched (s : State) : State :=
  match s.hif.poll with
  | none => s
  | some p => (sortBy (fun (e : PollEntry) => e.ring.val) p.fetched).foldl State.acceptEntry (s.setPoll { p with fetched := [] })

/-- The poll no longer awaits the descriptors of a ring; after the last of them it accepts what it has fetched. -/
def State.entriesGone (s : State) (r : Nat) : State :=
  match s.hif.poll with
  | none => s
  | some p =>
    let left := p.descriptors.filter (fun d => d.1 != r)
    let s1 := s.setPoll { p with descriptors := left }
    if left.isEmpty then s1.acceptFetched.pollSettle else s1

/-- DESCRIPTOR_READ_DONE: the entries read of a ring are fetched in order, and after the last ring's every one is accepted
(R246, R249). -/
def execDescriptorReadDone (ring : RingNo) (ds : List Fetched) (s : State) : Host.Outcome State Fault Refusal :=
  match s.hif.poll with
  | none => .next s
  | some p => match p.descriptors.find? (fun d => d.1 == ring.val) with
    | none => .next s
    | some d => .next (if s.running then (s.fetchEntries ring (ds.take d.2)).entriesGone ring.val else s)

/-! ### Failed reads of host memory (R262) -/

/-- HCAUSE values (R235). -/
def causeUr : Nat := 1
def causeCa : Nat := 2
def causeTimeout : Nat := 3

/-- Count and record one failed read: its gallery, the status an operation is given for it, its source, host address and cause
(R262, R265, R404, R406). -/
def State.hostFault (s : State) (gal : Nat) (st : Status) (src addr cause : Nat) : State :=
  (s.count .hifHostFault gal 1).incident clsControl 0x21 st src addr cause

/-- A ring halts: fetching from it stops (R262). -/
def State.haltRing (s : State) (r addr cause : Nat) : State :=
  (s.setRing r { s.ring r with halt := true, hcause := cause, torn := false }).hostFault (r / 64) .ok (srcRing r) addr cause

/-- A failed summary read: no ring it covers is flagged this poll. -/
def State.summaryGone (s : State) (p : Poll) : State :=
  if !p.summary && p.sep.isEmpty then (s.setPoll p).readDoorbells p [] else s.setPoll p

/-- Source a command's failed read is reported under: its ring, or the host interface. -/
def Op.hostSrc (o : Op) : Nat := match o.org with | .ring r _ => srcRing r.val | .step _ => srcHub hubHost

/-- Where within a source range the first byte stands that comes from outside the device (R321, R336). -/
def State.outsideAt (s : State) (gal : Nat) (e : Ep) (pos n : Nat) : Option Nat :=
  let a := e.addr + pos
  let starts := if e.device then (List.range (cdiv (a % 262144 + n) 262144)).map (fun i =>
      if i = 0 then pos else (a / 262144 + i) * 262144 - e.addr) else [pos]
  starts.find? (fun p => s.srcOutside gal e p)

/-- Offset from its source and length of what a DMA or window operation reads next. -/
def State.nextSource (s : State) (x : DmaOp) : Nat × Nat :=
  if x.op.opcode = opWinPut then (x.rd, s.packetLen x) else s.unitSource x

/-- The endpoint and place of the first byte from outside the device in the unit an operation reads next. -/
def State.outsideSource (s : State) (x : DmaOp) : Option (Ep × Nat) :=
  let u := s.nextSource x
  (x.op.dmaEps.filter (fun e => !e.2)).findSome? (fun e =>
    (s.outsideAt x.op.gal (Ep.of x.op.d e.1) u.1 u.2).map (fun p => (Ep.of x.op.d e.1, p)))

/-- Host address of the unit a DMA or window operation reads next. -/
def State.unitAddr (s : State) (x : DmaOp) : Nat :=
  match s.outsideSource x with
  | none => 0
  | some (e, p) => if e.host then e.addr + p else match s.panelAt x.op.gal (e.addr + p) with
    | none => 0
    | some q => match s.locate q.1 q.2 with
      | .t2 _ a => a + (e.addr + p) % 262144
      | _ => 0

/-- A read of a summary or separate summary word fails: counted, and read again at the next poll. -/
def State.summaryFault (s : State) (g : Option Nat) (cause : Nat) : State :=
  match s.hif.poll with
  | none => s
  | some p => match g with
    | none =>
      if p.summary then
        (s.hostFault 0 .ok (srcHub hubHost) (s.written .hifSumLo [] + s.written .hifSumHi [] * 2 ^ 32) cause).summaryGone
          { p with summary := false }
      else s
    | some n =>
      if p.sep.contains n then
        (s.hostFault n .ok (srcHub hubHost) (s.gsum n) cause).summaryGone { p with sep := p.sep.filter (fun k => k != n) }
      else s

/-- A read of a doorbell or of descriptors fails: the ring halts. -/
def State.ringFault (s : State) (r : Nat) (descriptor : Bool) (cause : Nat) : State :=
  match s.hif.poll with
  | none => s
  | some p =>
    if descriptor then
      if p.descriptors.any (fun d => d.1 == r) then
        (s.haltRing r (s.ringAddr .hifSqLo .hifSqHi r + 64 * ((s.ring r).fidx.toNat % s.ringSize r)) cause).entriesGone r
      else s
    else if p.doorbells.contains r then
      (s.haltRing r (s.ringAddr .hifDbLo .hifDbHi r) cause).doorbellGone r
    else s

/-- A read of a consumer line fails: the stream counts as having no room. -/
def State.lineFault (s : State) (c : ConsLine) (cause : Nat) : State :=
  match s.hif.poll with
  | none => s
  | some p =>
    if !p.awaits c then s
    else match c with
      | .stream k =>
        let x := s.ctx k.val
        (s.hostFault x.gal .ok (srcHub hubHost) x.lineAddr cause).lineGone c
      | .incident =>
        (s.hostFault 0 .ok (srcHub hubHost)
          (s.written .rasIringLo [] + s.written .rasIringHi [] * 2 ^ 32 + 32 * s.incidentSize) cause).lineGone c

/-- A read of an APPEND's token array fails: the command completes with INTERNAL, and later arrays of its stream that are back
take their place. -/
def State.tokensFault (s : State) (r : RingNo) (index : Word) (cause : Nat) : State :=
  match s.doc.appends.find? (fun a => decide (a.op.org = .ring r index) && a.data.isNone) with
  | none => s
  | some a =>
    let s1 := ((s.hostFault a.op.gal .internal a.op.hostSrc (fld a.op.d 8 63 0) cause).dropAppend a.op.id).complete (srcHub hubDocent) a.op
      { st := .internal }
    s1.flushAppends a.stream (s.doc.appends.length + 1)

/-- A read of a carousel image fails. -/
def State.imageFault (s : State) (r : RingNo) (index : Word) (cause : Nat) : State :=
  match s.fab.carLoads.find? (fun o => o.org == .ring r index) with
  | none => s
  | some o =>
    let e := Ep.of o.d 8
    if !e.host then s
    else
      let s1 := s.hostFault o.gal .internal o.hostSrc e.addr cause
      State.complete { s1 with fab := { s1.fab with carLoads := s1.fab.carLoads.filter (fun p => p.id != o.id) } }
        (srcHub hubCarousel) o { st := .internal }

/-- A read of a DMA unit fails (R286). -/
def State.unitFault (s : State) (chan cause : Nat) : State :=
  match s.dma.ops.find? (fun x => x.chan == some chan) with
  | none => s
  | some x =>
    if x.noMore || !x.issued || (s.outsideSource x).isNone then s
    else (s.hostFault x.op.gal .internal x.op.hostSrc (s.unitAddr x) cause).dmaHostFail chan

/-- A mover's read of a panel in host memory fails: the panel stays where it is, its frame goes back, and its migration completes
with INTERNAL. -/
def State.panelFault (s : State) (obj panel cause : Nat) : State :=
  match (s.panel obj panel).busy, s.tiers.moving.find? (fun m => m.1 == obj && m.2.1 == panel), s.obj? obj with
  | some t, some m, some x =>
    match s.locate obj panel with
    | .t2 false a =>
      let s1 := s.hostFault x.gal .internal (srcHub hubHost) a cause
      let s2 := (if t.1 = 0 then s1.giveT0 [t.2] else s1).setPanel obj panel { s1.panel obj panel with busy := none }
      let s3 : State := { s2 with tiers := { s2.tiers with
        moving := s2.tiers.moving.filter (fun q => !(q.1 == obj && q.2.1 == panel)) } }
      (s3.updMig m.2.2 (fun g => { g with status := g.status.max .internal })).migSettle m.2.2
    | _ => s
  | _, _, _ => s

/-- A Conservator's read of a reference copy fails: it is tried again, or the repair fails (R423). -/
def State.referenceFault (s : State) (obj panel cause : Nat) : State :=
  match s.repairAt obj panel .reading, s.obj? obj with
  | some _, some x =>
    if x.pkind = 1 then s
    else (s.hostFault x.gal .ok (srcHub hubHost) (x.paddr + 262144 * panel) cause).referenceRetry obj panel false
  | _, _ => s

/-- What a failed read of host memory leads to, by what was read (R262, R286, R423). A read that nothing awaits any more leads to
nothing. -/
def State.readFault (s : State) (what : HostRead) (cause : Nat) : State :=
  if !s.running then s
  else match what with
  | .summary => s.summaryFault none cause
  | .sepSummary g => s.summaryFault (some g.val) cause
  | .doorbell r => s.ringFault r.val false cause
  | .descriptor r => s.ringFault r.val true cause
  | .consumer c => s.lineFault c cause
  | .appendTokens r i => s.tokensFault r i cause
  | .dmaUnit c => s.unitFault c cause
  | .mapImage r i => s.imageFault r i cause
  | .moverPanel o p => s.panelFault o p cause
  | .reference o p => s.referenceFault o p cause

/-- HOST_READ_FAULT: Unsupported Request or Completer Abort. -/
def execHostReadFault (what : HostRead) (completerAbort : Bool) (s : State) : Host.Outcome State Fault Refusal :=
  .next (s.readFault what (if completerAbort then causeCa else causeUr))

/-- HOST_READ_TIMEOUT: no completion within HIF_CTO.MS. -/
def execHostReadTimeout (what : HostRead) (s : State) : Host.Outcome State Fault Refusal := .next (s.readFault what causeTimeout)

end Sys2Proof.Machine
end

