-- ==== Sys2Proof/Machine/Beat.lean ====
section
/-! DEFINITION. Beat boundaries and local ticks: what each does and in which order (R20 to R22, R369, R372, R489, R492, R531).
How long a beat lasts, and how far its boundary moves (R370), are times the model leaves out. -/

namespace Sys2Proof.Machine

/-! ### The count (R369, R372, R489) -/

/-- Distance between two numbers. -/
def gap (a b : Nat) : Nat := (a - b) + (b - a)

/-- The count of the next boundary: one more, or the count a lock has found, with the size of the jump (R369, R372). What the
unit keeps of its neighbours is in its own count, and follows a jump. -/
def State.nextCount (s : State) : State :=
  let b := s.fab.beat
  let due := b.cnt + 1
  match b.next with
  | none => s.setBeat { b with cnt := due % 2 ^ 64, steer := 0 }
  | some n =>
    let peers := b.peers.map (fun e => (e.1, { e.2 with atBeat := e.2.atBeat + n - due }))
    (s.setBeat { b with cnt := n, next := none, steer := 0, peers := peers }).count .beatJump 0 (gap n due)

/-! ### The boundary (R21) -/

/-- RWS_TAKE_EFFECT: every RWS field is in force as last written (R9, R492). -/
def State.takeShadowed (s : State) : State := { s with inForce := [] }

/-- A hold asked for begins: the poll stops, what it has fetched is accepted, and from now on no lane group forms (R495). -/
def State.beginHold (s : State) (cause : Nat) : State :=
  let s := s.acceptFetched
  State.dropPoll { s with ctl := { s.ctl with holdReq := none, holding := some (s.ctl.holding.getD cause) } }

/-- The hold that was asked for begins at this boundary. -/
def State.takeHold (s : State) : State :=
  match s.ctl.holdReq with
  | none => s
  | some c => s.beginHold c

/-- One beat off the pairs of R374, and one beat more for each port that is DOWN (R349). -/
def State.ageLinks (s : State) : State :=
  { s with fab := { s.fab with
      seen := s.fab.seen.map (fun e => (e.1, e.2.1, e.2.2 - 1))
      ports := s.fab.ports.map (fun e => if e.2.st = .down then (e.1, { e.2 with downFor := e.2.downFor + 1 }) else e) } }

/-- Records owed since a thermal hold are written at the first poll (R474), and OBJ_RELEASEs that waited for the work it
abandoned go on (R331). -/
def State.settleOwed (s : State) : State :=
  if s.hif.owed.isEmpty then s
  else
    let s1 : State := { s with hif := { s.hif with owed := [] } }
    (s.hif.owed.foldl (fun s o => s.complete (srcHub hubHost) o { st := .internal }) s1).settleObjects

/-- DOORBELL_POLL: the poll of this boundary (R246), unless a hold has stopped it (R495). -/
def State.boundaryPoll (s : State) : State :=
  if s.ctl.holding.isSome || !s.flag .hifCtrl [] 0 then s else s.settleOwed.startPoll

/-- What takes effect before anything else is decided: the records of the ended beat, snapshots, shadowed fields, a hold that
was asked for, quiesces, the parent, link states, and the receive area (R453, R492, R495, R377, R368, R491, R386, R383). -/
def State.boundaryOpens (s : State) : State :=
  (s.latchSnaps.sendOwed.ringMessages.incidentBeat.tickInterrupts.takeShadowed.takeHold.quiesceTake.chooseParent.announce.markUnlocked.clearSlices).ageLinks

/-- Windows, temperatures, refresh, frames in limbo and Carmine credit (R303, R308, R314, R306, R179, R220). -/
def State.boundaryAccrues (s : State) : State :=
  ((s.openWindows.evalThermal true).accrueDebt).limboReturn.accrueCredit

/-- Lane groups: conditions of the promise, commands that take effect, then the groups of this beat (R224, R204, R206, R215). -/
def State.boundaryForms (s : State) : State :=
  let s1 := s.resumePromise
  let s2 := s1.voidSteps s1.voidNow
  s2.takeCommands.formGroups

/-- What comes last: the dump's freeze, the poll, waiting window writes and requests, and the sync words (R463, R246, R391,
R392, R366). -/
def State.boundaryCloses (s : State) : State :=
  let s1 := s.freezeForDump.boundaryPoll.windowsFlush.winPump
  if s1.locked then s1.sendSyncs else s1

/-- Carousel slot 0 opens: the slot that starts at the boundary, after the lane groups have formed and before the poll (R21). -/
def State.openFirst (s : State) : State := s.firstSlots.foldl State.openSlot s

/-- A boundary, its count taken: the order of R21. -/
def State.boundary (s : State) : State :=
  let s1 : State := { s with cat := { s.cat with wbeat := s.beat } }
  s1.boundaryOpens.boundaryAccrues.boundaryForms.openFirst.boundaryCloses

/-- BEAT_BOUNDARY: while the beat unit runs. -/
def execBeatBoundary (s : State) : Host.Outcome State Fault Refusal :=
  .next (if s.running && !s.beatOff && s.fab.beat.started then s.nextCount.boundary else s)

/-- LOCAL_TICK: while the beat unit is OFF, in every state of a device that is powered and clocked (R531). -/
def execLocalTick (s : State) : Host.Outcome State Fault Refusal :=
  if !s.alive || !s.beatOff then .next s
  else
    let s1 := s.sendOwed.ringMessages.incidentBeat.tickInterrupts
    let s2 : State := { s1 with cat := { s1.cat with wbeat := s1.cat.wbeat + 1 } }
    .next ((s2.evalThermal false).accrueDebt)

/-! ### Start and stop (R369, R489) -/

/-- Start the beat unit: ROOT or SEEK, and its first boundary at once, with the number BEAT_CNT holds (R489). -/
def State.startBeat (s : State) : State :=
  if !s.running || !s.beatOff || !s.flag .beatCtrl [] 0 then s
  else
    let root := s.flag .beatCtrl [] 1
    let s1 := s.setBeatSt (if root then .root else .seek) s.beat
    (s1.setBeat { s1.fab.beat with
      started := true, stratum := if root then 0 else 15, parent := 63, rootId := if root then s.devId else 0
      theta := 0, steer := 0, silent := 0, next := none, lossDue := none, peers := [] }).boundary

/-- Stop the beat unit: BEAT_CNT takes the number of the last boundary plus 1. What waited for the next boundary and is none
of R20's business happens now: snapshots, the freeze of a dump and a hold asked for (R489, R495); RWS writes made while it ran
wait for its next boundary (R20, R492). DESIGN CHOICE: in RUN the poll under way is not recalled, and takes the reads the host
has still to answer; no further poll starts (R531; log 91). -/
def State.stopBeat (s : State) : State :=
  if s.beatOff then s
  else
    let b := s.fab.beat
    let cnt := if b.started then (b.cnt + 1) % 2 ^ 64 else b.cnt
    let s1 := s.setBeatSt .off cnt
    (s1.setBeat { s1.fab.beat with
      cnt := cnt, stratum := 15, parent := 63, next := none, lossDue := none, started := false, silent := 0, steer := 0
      peers := [] }).latchSnaps.freezeForDump.takeHold

end Sys2Proof.Machine
end

