-- ==== Sys2Proof/Machine/Control.lean ====
section
/-! DEFINITION. Device states: the configuration commit and its checks, entry to RUN and to HOLD, what a hold does with the work
it finds, and the start and stop of the beat unit (R472 to R475, R483 to R495). -/

namespace Sys2Proof.Machine

/-! ### Entry to RUN (R488, R489) -/

/-- NOTICEs owed to the streams whose step a thermal hold abandoned (R474). -/
def State.payNotices (s : State) : State :=
  s.doc.owedNotices.foldl (fun s k => s.notice k .internal) { s with doc := { s.doc with owedNotices := [] } }

/-- HOLD to RUN: ports leave DISABLED, and the beat unit starts if it is enabled (R489). -/
def State.enterRun (s : State) : State :=
  State.startBeat (State.payNotices (State.portsStart { s with ctl := { s.ctl with st := .run } }))

/-! ### Entry to HOLD (R473, R474) -/

/-- The device enters HOLD for a cause: ports DISABLED, the beat unit OFF, no poll, and every event ring frozen (R461, R473). -/
def State.enterHold (s : State) (cause : Nat) : State :=
  let s1 := (s.portsStop.stopBeat.freezeRings 3).dropPoll
  { s1 with ctl := { s1.ctl with st := .hold, hcause := cause, holdReq := none, holding := none } }

/-- Operations that run on, or wait for, a unit whose work a thermal hold abandons: DMA and windows, binds that zero-fill,
tiles, ATTNs, page moves, migrations, collectives and map loads. Commands that only wait for a beat, a step, a drain or other
descriptors keep their place (R474). -/
def Op.abandoned (o : Op) : Bool :=
  (decide (0x20 ≤ o.opcode) && decide (o.opcode ≤ 0x27)) ||
    [0x60, 0x62, 0x63, 0x64, 0x68, 0x6A, 0x6D, 0x72, 0x73, 0x74, 0x76].contains o.opcode

/-- A bank a running tile or a drain holds is FREE again, and so is one a step's chain holds. -/
def stepChain (l : List Op) : Bool := l.any (fun o => !o.ringed)
def Bank.abandon (b : Bank) : Bank := if b.st == .held && !stepChain b.chain then b else {}
def AnnexBank.abandon (b : AnnexBank) : AnnexBank := if b.st == .held && !stepChain b.chain then b else {}

/-- A handle none of whose operations is left but the windows on it; one still being zero-filled is FREE. -/
def Handle.abandon (h : Handle) (windows : Nat) : Handle :=
  if h.bindOp.isSome then { gen := h.gen } else { h with count := windows }

/-- Windows that stand on a handle entry of a core (R391). -/
def State.windowsOn (s : State) (c e : Nat) : Nat :=
  (s.fab.windows.filter (fun w => w.2.st != .free && w.2.ep.scratch && w.2.ep.core == c && refIndex w.2.ep.href == e)).length

/-- A core whose work is abandoned. -/
def State.abandonCore (s : State) (c : Nat) (k : Core) : Core :=
  { k with
      waiting := [], tiles := [], attns := [], scoreboard := [], codebooks := []
      bank0 := k.bank0.abandon, bank1 := k.bank1.abandon
      handles := k.handles.map (fun e => (e.1, e.2.abandon (s.windowsOn c e.1))) }

/-- The members of the running lane groups: their steps end here, their streams are held, and the frames reserved for them go
back (R474). -/
def State.abandonSteps (s : State) : State :=
  let ms := s.doc.groups.flatMap (fun g => g.members)
  let s1 := ms.foldl (fun s m =>
    let s' := m.frames.foldl (fun s cf => s.returnFrame cf.1 cf.2) s
    s'.setCtx m.stream { s'.ctx m.stream with inStep := false, held := true }) s
  { s1 with doc := { s1.doc with groups := [], owedNotices := s1.doc.owedNotices ++ ms.map (fun m => m.stream) } }

/-- The mover's and the Curator's work: panels stay where they are, and frames taken for them go back. -/
def State.abandonMoves (s : State) : State :=
  let t0 := (s.tiers.migs.flatMap (fun g => g.frames)) ++ (s.tiers.panels.filterMap (fun p => match p.2.busy with
    | some (0, f) => some f
    | _ => none))
  let s1 := s.giveT0 t0
  let s2 := s1.cur.moves.foldl (fun s m => s.returnFrame m.core m.frame) s1
  { s2 with
      tiers := { s2.tiers with
        migs := [], moving := [], objRun := s2.tiers.objRun.filter (fun n => !s2.tiers.migs.any (fun g => g.op.id == n))
        objWait := s2.tiers.objWait.filter (fun j => j.kind != .mig), panels := s2.tiers.panels.map (fun p => (p.1, { p.2 with busy := none }))
        repairs := s2.tiers.repairs.map (fun r => { r with retry := [] }) }
      cur := { s2.cur with moves := [], cows := [], staged := [] } }

/-- Work that runs is dropped without effect beyond the writes already made; each fetched descriptor of it completes with
INTERNAL at the first poll after the return to RUN (R474). -/
def State.abandon (s : State) : State :=
  let s := s.acceptFetched
  let unread := (s.doc.appends.filter (fun a => a.data.isNone)).map (fun a => a.op)
  let owed := s.hif.inflight.filter (fun o => o.abandoned || unread.any (fun a => a.id == o.id))
  let s1 := s.abandonSteps.abandonMoves
  { s1 with
      hif := { s1.hif with owed := s1.hif.owed ++ owed.filter (fun o => !s1.hif.owed.any (fun p => p.id == o.id)) }
      doc := { s1.doc with appends := s1.doc.appends.filter (fun a => a.data.isSome) }
      cores := s1.cores.map (fun e => (e.1, s1.abandonCore e.1 e.2))
      plinths := s1.plinths.map (fun e => (e.1, { e.2 with broadcasts := [] }))
      chans := s1.chans.map (fun e => (e.1, { e.2 with queue := [], held := [], calling := [] }))
      fins := [], outBases := [], hubOps := []
      annex := { s1.annex with queue := [], running := none, bank0 := s1.annex.bank0.abandon, bank1 := s1.annex.bank1.abandon }
      dma := { s1.dma with ops := [], stops := [], rdEng := [], wrEng := [] }
      tiers := { s1.tiers with writeQ := [] }
      cat := { s1.cat with waits := [], started := [] }
      fab := { s1.fab with colls := [], carLoads := [] } }

/-- Whether everything an orderly hold waits for has ended: lane groups and the operations started, their records, and with
RAS_CTRL.EN set the incident queue (R495). -/
def State.holdReady (s : State) : Bool :=
  s.doc.groups.isEmpty && s.doc.cgroups.all (fun g => g.2.held.isEmpty) && s.doc.appends.all (fun a => a.data.isSome) &&
  s.cores.all (fun e => e.2.tiles.isEmpty && e.2.attns.isEmpty && e.2.bank0.st != .draining && e.2.bank1.st != .draining &&
    e.2.handles.all (fun h => h.2.bindOp.isNone)) &&
  s.annex.queue.isEmpty && s.annex.running.isNone && s.annex.bank0.st != .draining && s.annex.bank1.st != .draining &&
  s.dma.ops.all (fun x => !x.begun) && s.hubOps.isEmpty && s.fab.colls.isEmpty && s.fab.carLoads.isEmpty &&
  s.plinths.all (fun p => p.2.broadcasts.isEmpty) && s.tiers.objRun.isEmpty && s.cur.moves.isEmpty && s.cur.cows.isEmpty &&
  (!s.flag .rasCtrl [] 0 || s.ras.queue.isEmpty)

/-- HOLD_ENTRY: the last work of an orderly hold has ended (R495). -/
def execHoldEntry (s : State) : Host.Outcome State Fault Refusal :=
  .next (match s.ctl.holding with
    | some cause => if s.running && s.holdReady then s.enterHold cause else s
    | none => s)

/-- Ask for an orderly hold: at the next boundary, or at once while the beat unit is OFF (R495). The first cause stands. -/
def State.askHold (s : State) (cause : Nat) : State :=
  if !s.running || s.ctl.holding.isSome then s
  else if s.beatOff then s.beginHold cause
  else { s with ctl := { s.ctl with holdReq := some (s.ctl.holdReq.getD cause) } }

/-- A write of GLB_CMD (R495): OP = 1 asks for an orderly hold in RUN, and does nothing in HOLD. -/
def State.writeGlbCmd (s : State) (word : Word) : State := if bits word.toNat 1 0 = 1 then s.askHold 2 else s

/-- ORDERLY_HOLD (R495). -/
def execOrderlyHold (func : GalNo) (word : Word) (s : State) : Host.Outcome State Fault Refusal :=
  .next (if s.pfWrite func then s.writeGlbCmd word else s)

/-! ### The commit checks (R475, R486, R487) -/

/-- Whether two ranges of bytes meet; an empty one meets none. -/
def rangesMeet (a n b m : Nat) : Bool := decide (0 < n) && decide (0 < m) && decide (a < b + m) && decide (b < a + n)

/-- The offsets of a failing condition. -/
def failAt (bad : Bool) (r : Reg) (idx : List Nat) : List Nat := if bad then [regOff r idx] else []

/-- The Curator's regions of a channel: data frames, scale pages, tables, each with its place, length and lowest field. -/
def State.curRegions (s : State) : List (Nat × Nat × Reg) :=
  let f := s.field .curKvFrames [] 14 0
  [(s.field .curKvBase [] 27 14 * 2 ^ 14, f * 2 ^ 14, .curKvBase), (s.field .curScBase [] 27 10 * 2 ^ 10, f * 2 ^ 10, .curKvFrames),
   (s.field .curTblBase [] 27 16 * 2 ^ 16, s.field .curTblLines [] 21 0 * 64, .curTblBase)]

/-- Check 0x03: fields of the commit set outside their ranges (R530). -/
def State.failRange (s : State) : List Nat :=
  (commitSet.filter (fun e => e.1.fields.any (fun f => f.commit && (match f.range with
    | none => false
    | some (a, b) => let v := bits (s.written e.1.reg e.2) f.hi f.lo; decide (v < a) || decide (b < v))))).map
    (fun e => regOff e.1.reg e.2)

/-- Check 0x04: the Curator's layout (R175). -/
def State.failCurator (s : State) : List Nat :=
  let f := s.field .curKvFrames [] 14 0
  let rs := s.curRegions
  let meets (i j : Nat) : Bool := match rs[i]?, rs[j]? with
    | some a, some b => rangesMeet a.1 a.2.1 b.1 b.2.1
    | _, _ => false
  (rs.flatMap (fun r => failAt (decide (2 ^ 28 < r.1 + r.2.1)) r.2.2 [])) ++
  failAt (meets 0 1 || meets 0 2) .curKvBase [] ++ failAt (meets 1 2) .curKvFrames [] ++
  failAt (decide (s.field .curTblLines [] 21 0 < cdiv f 4 + cdiv f 64 + 16)) .curKvFrames []

/-- Check 0x05: the galleries' stream ranges (R197). -/
def State.failStreams (s : State) : List Nat :=
  let lo (n : Nat) : Nat := s.field .docGal [n] 14 0
  let len (n : Nat) : Nat := s.field .docGalC [n] 15 0
  (List.range 64).flatMap (fun n => failAt (decide (0 < len n) && (decide (32768 < lo n + len n) ||
    (List.range 64).any (fun m => m != n && rangesMeet (lo n) (len n) (lo m) (len m)))) .docGal [n])

/-- Check 0x06: refresh settings (R307). -/
def State.failRefresh (s : State) : List Nat :=
  (List.range 8).flatMap (fun p =>
    let hi := s.field .rfCfg [p] 10 0
    let lo := s.field .rfCfg [p] 26 16
    failAt (decide (hi ≤ lo)) .rfCfg [p] ++
    failAt (decide (1024000 < 1000 * hi + 2048 * s.beatUs) || decide (s.beatUs ≤ s.inEffect .rfSlot [p] 4 0)) .beatCfg [])

/-- The T0 frames as a range of the hall buffer. -/
def State.t0Range (s : State) : Nat × Nat := (s.field .glbT0Base [] 27 18 * 2 ^ 18, s.field .glbT0Count [] 10 0 * 2 ^ 18)

/-- Check 0x07: memory tiers (R323). -/
def State.failTiers (s : State) : List Nat :=
  let a := s.field .glbT1Base [] 27 18 * 2 ^ 18
  let n := s.field .glbT1Limit [] 28 18 * 2 ^ 18 - a
  let t0 := s.t0Range
  let sum := ((List.range 64).map (fun g => s.field .glbT0Q [g] 10 0)).foldl (· + ·) 0
  failAt (s.curRegions.any (fun r => rangesMeet a n r.1 r.2.1)) .glbT1Base [] ++
  failAt (decide (2 ^ 28 < t0.1 + t0.2)) .glbT0Base [] ++
  failAt (decide (s.field .glbT0Count [] 10 0 < sum)) .glbT0Count []

/-- Check 0x08: the trace buffer (R464). -/
def State.failTrace (s : State) : List Nat :=
  let a := s.field .catTrBase [] 27 16 * 2 ^ 16
  let n := s.field .catTrSize [] 10 0 * 2 ^ 16
  failAt (decide (2 ^ 28 < a + n)) .catTrBase [] ++ failAt (rangesMeet a n s.t0Range.1 s.t0Range.2) .glbT0Base []

/-- Whether a register of the commit set is one that R487 keeps from changing now. -/
def State.keptLive (s : State) (r : Reg) (idx : List Nat) : Bool :=
  match r with
  | .curKvBase | .curKvFrames | .curScBase | .curTblBase | .curTblLines => s.cur.pages.any (fun p => p.2.st != .free)
  | .glbT1Base | .glbT1Limit | .glbT0Base | .glbT0Count => !s.tiers.objs.isEmpty
  | .docGal | .docGalC => idx.any (fun g => !(s.streamsOf g).isEmpty)
  | .brlId | .beatCfg => s.fab.windows.any (fun w => w.2.st != .free)
  | _ => false

/-- Check 0x09: LIVE_LAYOUT (R487). -/
def State.failLive (s : State) : List Nat :=
  match s.ctl.committed with
  | none => []
  | some ws => ((commitSet.zip (ws.zip s.commitWords)).filter (fun e => e.2.1 != e.2.2 && s.keptLive e.1.1.reg e.1.2)).map
      (fun e => regOff e.1.1.reg e.1.2)

/-- Check 0x0A: a sensor above the limits of R475 at the moment. -/
def State.tooHot (s : State) : Bool := s.plinths.any (fun p => decide (364 < p.2.junction) || decide (344 < p.2.dram))

/-- The SEQ that follows one (R486). -/
def nextSeq (n : Nat) : Nat := n % 0xFFFF + 1

/-- CRC-32C of the commit string (R483, R485). -/
def State.commitCrc (s : State) : Nat := crc32c ((s.commitWords.map (fun w => toLE 4 w.toNat)).flatten)

/-- The checks in the order of R486: the code of each, and the offsets it names where it fails. Codes 0x01, 0x0A and 0x0B
name none: their CERR is 0. -/
def State.commitChecks (s : State) : List (Nat × List Nat) :=
  let plain (bad : Bool) : List Nat := if bad then [0] else []
  [(0x0B, plain (s.ctl.short != 0)), (0x0A, plain s.tooHot),
   (0x01, plain (s.ctl.cSeq.toNat != nextSeq s.ctl.cLast.toNat)),
   (0x02, failAt (s.field .glbCommitCrc [] 31 0 != s.commitCrc) .glbCommitCrc []), (0x03, s.failRange), (0x04, s.failCurator),
   (0x05, s.failStreams), (0x06, s.failRefresh), (0x07, s.failTiers), (0x08, s.failTrace), (0x09, s.failLive)]

/-- The first check that fails: its code and the lowest offset it names. -/
def State.commitFailure (s : State) : Option (Nat × Nat) :=
  (s.commitChecks.find? (fun c => !c.2.isEmpty)).map (fun c => (c.1, c.2.foldl min (c.2.headD 0)))

/-- A commit that passes (R488). -/
def State.commitPass (s : State) : State :=
  let ws := s.commitWords
  let s1 : State := { s with
    ctl := { s.ctl with cBusy := false, committed := some ws, cLast := s.ctl.cSeq }
    sec := { s.sec with measured := ws } }
  if s1.inHold then s1.enterRun else s1

/-- A commit that fails: no field and no committed value changes; in HOLD the device stays there with HCAUSE 1, in RUN an
orderly hold begins (R488). -/
def State.commitFail (s : State) (code cerr : Nat) : State :=
  let s1 : State := { s with ctl := { s.ctl with cBusy := false, cCause := code, cErr := cerr } }
  if s1.inHold then { s1 with ctl := { s1.ctl with hcause := 1 } } else s1.askHold 1

/-- COMMIT_CHECK_DONE (R486 to R488). -/
def execCommitCheckDone (s : State) : Host.Outcome State Fault Refusal :=
  .next (if s.alive && s.ctl.cBusy then
    match s.commitFailure with
    | none => s.commitPass
    | some f => s.commitFail f.1 f.2
  else s)

/-- A write of GLB_COMMIT: refused while a check runs, else the check starts (R485). -/
def State.writeCommit (s : State) (func : Nat) (word : Word) : State :=
  if s.ctl.cBusy then s.refuseWrite func (regOff .glbCommit []) .lockedField
  else { s with ctl := { s.ctl with cBusy := true, cSeq := BitVec.ofNat 16 (bits word.toNat 15 0) } }

/-- CONFIGURATION_COMMIT (R485). -/
def execConfigurationCommit (func : GalNo) (word : Word) (s : State) : Host.Outcome State Fault Refusal :=
  .next (if s.pfWrite func then s.writeCommit func.val word else s)

/-! ### BEAT_CTRL (R369, R398, R484, R489) -/

/-- The registers of a block of the commit set. -/
def beatFields (r : Reg) : Bool := r == .beatCtrl || r == .beatCfg || r == .beatUpPeer

/-- A write of BEAT_CTRL: ROOT is locked while EN is set; EN = 1 asks for committed BEAT fields (R8, R484). In RUN a rising EN
starts the unit and a falling one stops it. While a commit check runs, a write that would change ROOT is refused (R485). -/
def State.writeBeatCtrl (s : State) (func : Nat) (word : Word) : State :=
  let off := regOff .beatCtrl []
  let en := s.flag .beatCtrl [] 0
  let root := s.flag .beatCtrl [] 1
  let wantEn := bit word.toNat 0
  let change := bit word.toNat 1 != root
  if change && s.ctl.cBusy then s.refuseWrite func off .lockedField
  else
    let rootBad := change && en && !s.inHold
    let s1 := if rootBad then s else s.setField .beatCtrl [] 1 1 (if bit word.toNat 1 then 1 else 0)
    let enBad := wantEn && s1.uncommitted (fun r _ => beatFields r)
    let s2 := if enBad then s1 else s1.setField .beatCtrl [] 0 0 (if wantEn then 1 else 0)
    let s3 := s2.refuseAll func off (check (rootBad || enBad) .lockedField)
    if !s3.running || enBad then s3 else if wantEn then s3.startBeat else s3.stopBeat

/-- BEAT_UNIT_START: a write of BEAT_CTRL with EN = 1 (R489). -/
def execBeatUnitStart (func : GalNo) (word : Word) (s : State) : Host.Outcome State Fault Refusal :=
  .next (if s.pfWrite func && bit word.toNat 0 then s.writeBeatCtrl func.val word else s)

/-- BEAT_UNIT_STOP: a write of BEAT_CTRL with EN = 0 (R369, R489). -/
def execBeatUnitStop (func : GalNo) (word : Word) (s : State) : Host.Outcome State Fault Refusal :=
  .next (if s.pfWrite func && !bit word.toNat 0 then s.writeBeatCtrl func.val word else s)

end Sys2Proof.Machine
end

