-- ==== Sys2Proof/Machine/Boot.lean ====
section
/-! DEFINITION. Resets, start-up and what comes from outside the part's logic: function resets (R263, R264), device reset and
the start-up steps (R430 to R435, R472, R476 to R482, R501, R519), sensor samples (R315, R522) and lost clocks (R524). -/

namespace Sys2Proof.Machine

/-! ### Function resets (R263, R264) -/

/-- Gallery an operation's ring belongs to. -/
def Op.ringGal (o : Op) : Option Nat := match o.org with | .ring r _ => some (r.val / 64) | .step _ => none

/-- Ring registers of a gallery at their reset values, its descriptors in flight discarded, and nothing of it fetched. The
device's copies of A stay with the acknowledge words (R246). -/
def State.resetRings (s : State) (g : Nat) : State :=
  let mine (o : Op) : Bool := o.ringGal == some g
  let lo := 0x110000 + 2048 * g
  { s with
      regs := s.regs.filter (fun e => !(decide (lo ≤ e.1) && decide (e.1 < lo + 2048)))
      hif := { s.hif with
        rings := (s.hif.rings.filter (fun e => e.1 / 64 != g || e.2.copyA)).map (fun e =>
          (e.1, if e.1 / 64 = g then { copyA := true } else e.2))
        inflight := s.hif.inflight.filter (fun o => !mine o)
        fences := s.hif.fences.filter (fun o => !mine o)
        owed := s.hif.owed.filter (fun o => !mine o)
        owedVecs := s.hif.owedVecs.filter (fun v => v / 65536 != g)
        poll := s.hif.poll.map (fun p => { p with fetched := p.fetched.filter (fun e => e.ring.val / 64 != g) })
        inReset := if s.hif.inReset.contains g then s.hif.inReset else s.hif.inReset ++ [g] } }

/-- Take what it awaits of a gallery out of the running poll. -/
def State.cutPoll (s : State) (g : Nat) : State :=
  match s.hif.poll with
  | none => s
  | some p =>
    let cons := p.consumers.filter (fun k => (s.ctx k).gal != g)
    let p1 : Poll := { p with
      sep := p.sep.filter (fun n => n != g), consumers := cons }
    let bells := p.doorbells.filter (fun r => r / 64 == g)
    let reads := (p.descriptors.filter (fun d => d.1 / 64 == g)).map Prod.fst
    let s1 := reads.foldl State.entriesGone (bells.foldl State.doorbellGone (s.setPoll p1))
    if !p.sep.isEmpty && p1.sep.isEmpty && !p1.summary then s1.readDoorbells p1 [] else s1.pollSettle

/-- A stream of a gallery that is reset: RELEASING without a record, its lease freed. -/
def Ctx.cut (x : Ctx) : Ctx :=
  { x with
      st := .releasing, cancelPend := false, relEnd := false, endWait := none, afterEnd := [], prompt := [], pending := 0
      gkey := 0 }

/-- Every stream of a gallery becomes RELEASING, and its waiting commands are forgotten. -/
def State.cutStreams (s : State) (g : Nat) : State :=
  let ks := (s.streamsOf g).map Prod.fst
  let s1 := ks.foldl (fun s k => s.setCtx k (s.ctx k).cut) s
  { s1 with doc := { s1.doc with
      appends := s1.doc.appends.filter (fun a => !ks.contains a.stream)
      cancels := s1.doc.cancels.filter (fun c => !ks.contains c.stream)
      policies := s1.doc.policies.filter (fun c => !ks.contains c.stream)
      releases := s1.doc.releases.filter (fun c => !ks.contains c.stream)
      owedNotices := s1.doc.owedNotices.filter (fun k => !ks.contains k) } }

/-- A handle of a gallery that is reset drains with its generation incremented; one that drains already keeps its own. -/
def Handle.cut (g : Nat) (h : Handle) : Handle :=
  if h.gal != g || h.st == .free then h
  else if h.st == .draining then { h with unbindOp := none }
  else { h with st := .draining, gen := h.gen + 1, bindOp := none }

/-- Every handle of a gallery drains, and its operations that have not begun on a core are discarded. -/
def State.cutCores (s : State) (g : Nat) : State :=
  { s with cores := s.cores.map (fun e => (e.1, { e.2 with
      handles := e.2.handles.map (fun h => (h.1, h.2.cut g))
      waiting := e.2.waiting.filter (fun o => !(o.ringGal == some g && o.tileLike)) })) }

/-- DMA operations of a gallery: those that have not begun are discarded, and those that read the function's memory read no
more of it. -/
def State.cutDma (s : State) (g : Nat) : State :=
  let mine := s.dma.ops.filter (fun x => x.op.ringGal == some g)
  let s1 := (mine.filter (fun x => !x.begun)).foldl (fun s x => (s.dmaLeave x.op).settleStops x.op.id) s
  (mine.filter (fun x => x.begun && x.op.dmaEps.any (fun e => !e.2 && (Ep.of x.op.d e.1).host))).foldl
    (fun s x => s.updDma x.op.id (fun y => { y with noMore := true })) s1

/-- What the reset of functions does to their galleries at its start: no ring of any of them is read from then on (R263, R264). -/
def State.galleriesReset (s : State) (gs : List Nat) : State :=
  gs.foldl (fun s g => ((((s.cutPoll g).cutStreams g).cutCores g).cutDma g).closeGallery g) (gs.foldl State.resetRings s)

/-- What a Function Level Reset does to a gallery at its start (R263). -/
def State.galleryReset (s : State) (g : Nat) : State := s.galleriesReset [g]

/-- Whether a TDI is CONFIG_LOCKED or RUN. -/
def TdiSt.isLocked (x : TdiSt) : Bool := x == .locked || x == .run

/-- A TDI that is CONFIG_LOCKED or RUN enters ERROR (R444). -/
def State.tdiFails (s : State) (n : Nat) : State := if (s.tdi n).isLocked then s.setTdi n .error else s

/-- The TDIs among these that are CONFIG_LOCKED or RUN enter ERROR, and their galleries are reset (R444). -/
def State.tdisError (s : State) (l : List Nat) : State :=
  let gs := (distinct l).filter (fun n => (s.tdi n).isLocked)
  (gs.foldl State.tdiFails s).galleriesReset gs

/-- VF_FUNCTION_LEVEL_RESET (R263, R444). -/
def execVfFunctionLevelReset (vf : GalNo) (s : State) : Host.Outcome State Fault Refusal :=
  .next (if s.barUp && vf.val != 0 then (s.tdiFails vf.val).galleryReset vf.val else s)

/-- Whether every stream, handle and window of a gallery is FREE. -/
def State.galleryFree (s : State) (g : Nat) : Bool :=
  (s.streamsOf g).isEmpty && s.cores.all (fun e => e.2.handles.all (fun h => h.2.st == .free || h.2.gal != g)) &&
    s.fab.windows.all (fun w => w.2.st == .free || w.2.gal != g)

/-- VF_RESET_COMPLETE: the gallery-scoped counters clear (R263, R452). A reset that acts on the PF's gallery ends in the same
way. -/
def execVfResetComplete (vf : GalNo) (s : State) : Host.Outcome State Fault Refusal :=
  let g := vf.val
  .next (if s.alive && s.hif.inReset.contains g && s.galleryFree g then
    let s1 : State := { s with hif := { s.hif with inReset := s.hif.inReset.filter (fun n => n != g) } }
    s1.clearGalleryCounters g
  else s)

/-- PF_RESET_OR_LINK_LOSS: R263 on every function, then HOLD with cause 3; in HOLD the cause stays (R264, R474). -/
def execPfResetOrLinkLoss (s : State) : Host.Outcome State Fault Refusal :=
  if !s.barUp then .next s
  else
    let s1 := ((List.range 64).foldl State.tdiFails s).galleriesReset (List.range 64)
    .next (if s1.running then
      let s2 := s1.abandon
      State.enterHold { s2 with hif := { s2.hif with owed := [] }, doc := { s2.doc with owedNotices := [] } } 3
    else s1)

/-! ### Device reset and the seed (R434, R435, R501, R519) -/

/-- What outlives a device reset: the flash, the straps, the commands waiting, what has been sent, the free values drawn, and
THERMTRIP#, which only a fall of PWRGD ends (R522). -/
def State.resetDevice (s : State) : State :=
  { State.reset with
      pending := s.pending, out := s.out, free := s.free
      ctl := { strapPos := s.ctl.strapPos, strapSmba := s.ctl.strapSmba, thermTrip := s.ctl.thermTrip }
      sec := { flash := s.sec.flash } }

/-- How the helper data and the RPMC root key end the seed's reconstruction (R435): boot continues, enrols first, or ends in
SEC_FAIL with a cause. -/
inductive SeedEnd where
  | boots | enrols
  | fails (cause : Nat)
  deriving DecidableEq, Repr

/-- The table of R435. -/
def seedEnd (helper : HelperState) (programmed tagsOk : Bool) : SeedEnd :=
  match helper with
  | .validMatch => if programmed && tagsOk then .boots else .fails 3
  | .validMismatch => .fails 2
  | .blank => if programmed then .fails 3 else .enrols
  | .other => .fails 2

/-- SEC_FAIL with a cause (R433, R435). -/
def State.secFail (s : State) (cause : Nat) : State := { s with sec := { s.sec with st := .fail, cause := cause } }

/-- Step 2 of start-up has ended (R476): the generators' key is derived, a free value (R114). Enrolment programs the root key over counters that begin again from zero (R435). -/
def State.seedStep (s : State) (helper : HelperState) (tagsOk : Bool) : State :=
  let up (s : State) : State := { s with ctl := { s.ctl with bootStep := 2 }, sec := { s.sec with seeded := true, genKey := Config.freeNat s.free }, free := s.free + 1 }
  match seedEnd helper s.sec.flash.rpmcKey tagsOk with
  | .boots => up s
  | .enrols => up { s with sec := { s.sec with flash := { s.sec.flash with rpmcKey := true, rpmc := [0, 0, 0, 0, 0] } } }
  | .fails c => s.secFail c

/-- DEVICE_RESET: power-up, which samples the straps, or PERST#, which acts only while PWRGD is high (R501, R516, R519). -/
def execDeviceReset (perst : Bool) (helper : HelperState) (rpmcTagsOk : Bool) (strapPos : BitVec 7)
    (strapSmba : BitVec 3) (s : State) : Host.Outcome State Fault Refusal :=
  if perst && s.ctl.power == .held then .next s
  else
    let s1 := s.resetDevice
    let s2 : State := if perst then s1 else
      { s1 with ctl := { s1.ctl with strapPos := strapPos, strapSmba := strapSmba, thermTrip := false } }
    .next (s2.seedStep helper rpmcTagsOk)

/-- PWRGD_FALL: held in device reset (R519); THERMTRIP# ends (R522). -/
def execPwrgdFall (s : State) : Host.Outcome State Fault Refusal :=
  let s1 := s.resetDevice
  .next { s1 with ctl := { s1.ctl with power := .held, thermTrip := false } }

/-! ### The boot image (R430 to R433) -/

/-- The directory copy in use: the valid one with the higher sequence number; `false` names copy 0 (R430). -/
def Flash.dirInUse (f : Flash) : Bool :=
  if !f.dir1.valid then false else if !f.dir0.valid then true else decide (f.dir0.seq.toNat < f.dir1.seq.toNat)
def Flash.dir (f : Flash) : DirCopy := if f.dirInUse then f.dir1 else f.dir0

/-- A change to the directory writes the other copy with the sequence number incremented (R430). -/
def Flash.setDir (f : Flash) (active trial tries : Bool) : Flash :=
  let d : DirCopy := { valid := true, seq := f.dir.seq + 1, active := active, trial := trial, tries := tries }
  if f.dirInUse then { f with dir0 := d } else { f with dir1 := d }

/-- Change the directory of the state's flash. -/
def State.setDir (s : State) (active trial tries : Bool) : State :=
  let f := s.sec.flash.setDir active trial tries
  { s with sec := { s.sec with flash := { s.sec.flash with dir0 := f.dir0, dir1 := f.dir1 } } }

/-- RPMC counter k (R429). -/
def State.rpmc (s : State) (k : Nat) : Nat := s.sec.flash.rpmc.getD k 0

/-- Whether root key k is revoked. -/
def State.revoked (s : State) (k : Nat) : Bool := s.rpmc (1 + k) != 0

/-- The checks of R432: steps 2 and 4 are judged against the counters, the others are the image's own. -/
def State.imageOk (s : State) (i : ImageInfo) : Bool :=
  i.layoutOk && !s.revoked i.kidx.val && i.keyOk && decide (s.rpmc 0 ≤ i.svn.toNat) && i.sigOk && i.bodyOk

/-- The slot the boot ROM chooses, with what it writes to the directory first (R433). -/
def State.chooseSlot (s : State) : State × Bool :=
  let d := s.sec.flash.dir
  if !d.trial then (s, d.active)
  else if !d.tries then (s.setDir d.active true true, d.active)
  else (s.setDir (!d.active) false false, !d.active)

/-- Start an image: the firmware of a slot runs, and the device trains its channels (R472). A slot started because the chosen
one failed is not on trial. -/
def State.startImage (s : State) (slot : Bool) (i : ImageInfo) : State :=
  let d := s.sec.flash.dir
  { s with
      ctl := { s.ctl with bootStep := 3, st := .train }
      sec := { s.sec with st := .run, cause := 0, slot := slot, trial := d.trial && slot == d.active, image := some i } }

/-- BOOT_IMAGE_VERIFIED: the chosen slot, else the other one, else SEC_FAIL with cause 1 (R433). -/
def execBootImageVerified (slotA slotB : ImageInfo) (s : State) : Host.Outcome State Fault Refusal :=
  if s.ctl.power != .on || s.sec.st != .boot || !s.sec.seeded then .next s
  else
    let c := s.chooseSlot
    let image (b : Bool) : ImageInfo := if b then slotB else slotA
    .next (if c.1.imageOk (image c.2) then c.1.startImage c.2 (image c.2)
      else if c.1.imageOk (image (!c.2)) then c.1.startImage (!c.2) (image (!c.2))
      else c.1.secFail 1)

/-! ### Channel training (R478 to R481) -/

/-- Pair logical core `c` with a physical channel of its plinth (R18). -/
def State.pairChan (s : State) (c i : Nat) : State := s.setCore c { s.core c with chan := c / 256 * 264 + i }

/-- Whether the spare a repair entry names is in use, or it names none (R480). -/
def State.repairTaken (s : State) (e : RepEntry) : Bool :=
  let p := s.plinth e.plinth
  match e.kind with
  | 1 => !(p.freeRows e.phys (2 * e.die + e.bank)).contains e.spare
  | 2 => !(p.freeCols e.phys (2 * e.die + e.bank)).contains e.spare
  | 3 => !(s.spareChans e.plinth).contains e.spare
  | _ => true

/-- Apply one entry of the repair record, or skip and count it (R480). -/
def State.applyRepair (s : State) (e : RepEntry) : State :=
  if s.repairTaken e then { s with ctl := { s.ctl with repSkip := s.ctl.repSkip + 1 } }
  else
    let s1 := s.addRepair e
    if e.kind != 3 then s1
    else
      let x := s1.plinth e.plinth
      let s2 := s1.setPlinth e.plinth { x with deadChans := x.deadChans ++ [e.phys] }
      match s2.coreOfChan e.plinth e.phys with
      | none => s2
      | some c => s2.pairChan c e.spare

/-- Apply the repair record of flash; without a valid copy none is applied (R479). -/
def State.applyRecord (s : State) : State :=
  match s.sec.flash.recordInUse with
  | none => s
  | some b => (if b then s.sec.flash.rep1 else s.sec.flash.rep0).entries.foldl State.applyRepair s

/-- A channel that did not train, or that sparing cannot clear: its core is paired with a spare channel that did train, or its
plinth is short (R18, R478). Which spare is a free value. -/
def State.replaceChan (s : State) (p : Nat) (bad : List Nat) (i : Nat) : State :=
  let x := s.plinth p
  let s0 := s.setPlinth p { x with deadChans := if x.deadChans.contains i then x.deadChans else x.deadChans ++ [i] }
  match s0.coreOfChan p i with
  | none => s0
  | some c => match s0.pick ((s0.spareChans p).filter (fun k => !bad.contains k)) with
    | (s1, none) => { s1 with ctl := { s1.ctl with short := s1.ctl.short ||| BitVec.ofNat 8 (2 ^ p) } }
    | (s1, some k) =>
      let s2 := (s1.pairChan c k).addRepair { kind := 3, plinth := p, phys := i, die := 0, bank := 0, row := 0, spare := k }
      { s2 with ctl := { s2.ctl with channels := s2.ctl.channels + 1 } }

/-- Spare a row that needed correction; a row no spare row is left for has its columns spared (R478). -/
def State.bringRow (s : State) (p : Nat) (r : Fin 264 × Fin 32 × Nat) : State :=
  let t := s.rowSpare p r.1.val (r.2.1.val * 2 ^ 10 + r.2.2 % 8192 * 2 ^ 15)
  if t.2 = .quotaExceeded then t.1 else { t.1 with ctl := { t.1.ctl with repRows := t.1.ctl.repRows + 1 } }

/-- Spare a failing column slice; a channel whose bank has no spare column group left is replaced. -/
def State.bringCol (s : State) (p : Nat) (bad : List Nat) (r : Fin 264 × Fin 32 × Nat) : State :=
  let t := s.colSpare p r.1.val (r.2.1.val * 2 ^ 10 + r.2.2 % 128 * 2 ^ 3)
  if t.2 = .quotaExceeded then t.1.replaceChan p bad r.1.val
  else { t.1 with ctl := { t.1.ctl with repCols := t.1.ctl.repCols + 1 } }

/-- The bring-up of one plinth's channels. -/
def State.trainPlinth (s : State) (p : Nat) (x : PlinthTraining) : State :=
  let bad := x.badChannels.map (fun i => i.val)
  let s1 := bad.foldl (fun s i => s.replaceChan p bad i) s
  let s2 := x.rows.foldl (fun s r => s.bringRow p r) s1
  x.cols.foldl (fun s r => s.bringCol p bad r) s2

/-- CHANNEL_TRAINING_DONE: the repair record is applied, channels are trained and spared, and every channel reads as zero; a
device short of pairs enters HOLD with cause 5, another goes to self-test (R472, R478). -/
def execChannelTrainingDone (plinths : List PlinthTraining) (s : State) : Host.Outcome State Fault Refusal :=
  if !s.alive || s.ctl.st != .train then .next s
  else
    let s1 := ((plinths.take 8).zipIdx).foldl (fun s x => s.trainPlinth x.2 x.1) s.applyRecord
    let s2 : State := { s1 with
      ctl := { s1.ctl with bootStep := 4, repDirty := true }
      mem := s1.mem.filter (fun c => decide (chanBase 2112 ≤ c.1)), chk := [] }
    .next (if s2.ctl.short = 0 then { s2 with ctl := { s2.ctl with st := .test } }
      else s2.enterHold (if s2.ctl.hcause = 4 then 4 else 5))

/-! ### Self-test (R482) -/

/-- Number of a unit among a core's fences. -/
def unitNo (u : CoreUnit) : Nat :=
  match u with
  | .pop => unitPop
  | .score g => unitScore g.val
  | .valcol k => unitVal k.val

/-- A unit that failed twice: its core is replaced by a spare core with the same channel, or, with none left, the unit is
fenced with NOSPARE set. `old` is the physical core that was tested. Which spare is a free value. -/
def State.selfTestFail (s : State) (old : Nat) (f : SelfTestFail) : State :=
  let c := f.core.val
  let k := s.core c
  if k.phys != old then s
  else match s.pick (s.spareCores (c / 256)) with
    | (s1, none) => s1.setCore c { k.fence (unitNo f.unit) with noSpare := true }
    | (s1, some x) =>
      let s2 := s1.setCore c { k with phys := x }
      let y := s2.plinth (c / 256)
      let s3 := (s2.setPlinth (c / 256) { y with deadCores := y.deadCores ++ [old % 264] }).addRepair
        { kind := 4, plinth := c / 256, phys := old % 264, die := 0, bank := 0, row := 0, spare := x % 264 }
      { s3 with ctl := { s3.ctl with cores := s3.ctl.cores + 1 } }

/-- SELF_TEST_DONE: HOLD for cause 0, unless a thermal limit was reached on the way (R472, R474, R482, R508). -/
def execSelfTestDone (fails : List SelfTestFail) (annexFailed : Bool) (s : State) : Host.Outcome State Fault Refusal :=
  if !s.alive || s.ctl.st != .test then .next s
  else
    let olds := fails.map (fun f => (f, (s.core f.core.val).phys))
    let s1 := olds.foldl (fun s f => s.selfTestFail f.2 f.1) s
    let s2 := if annexFailed then
        State.setField { s1 with annex := { s1.annex with fail := true } } .anxCtrl [] 0 0 0 else s1
    .next (State.enterHold { s2 with ctl := { s2.ctl with bootStep := 5 } } s2.ctl.hcause)

/-! ### Sensors and clocks (R313, R315, R522, R524) -/

/-- The limits of R315, 105 °C and 100 °C, and of R522, 110 °C and 105 °C, in units of 0.25 °C. -/
def atStop (x : ThermSample) : Bool := decide (420 ≤ x.junction) || decide (400 ≤ x.dram)
def atTrip (x : ThermSample) : Bool := decide (440 ≤ x.junction) || decide (420 ≤ x.dram)

/-- Take a plinth's sample; a limit of R315 is reached when a sample rises from below both. -/
def State.takeSample (s : State) (p : Nat) (x : ThermSample) : State :=
  let y := s.plinth p
  let s1 := s.setPlinth p { y with
    junction := x.junction, dram := x.dram, jMax := max y.jMax x.junction, dMax := max y.dMax x.dram, atLimit := atStop x }
  if atStop x && !y.atLimit && s.alive then
    State.emit (State.incident { s1 with sec := { s1.sec with events := s1.sec.events + 1 } } clsThermal 0x41 .ok
      (srcPlinth p) (y.level + x.junction % 1024 * 2 ^ 16 + x.dram % 1024 * 2 ^ 32) 0) (.pldmThermalHold p)
  else s1

/-- The device stops at a limit of R315: work is abandoned and HOLD entered with cause 4; in every other state HCAUSE becomes
4 (R315, R474). -/
def State.thermalStop (s : State) : State :=
  if s.running then s.abandon.enterHold 4 else { s with ctl := { s.ctl with hcause := 4 } }

/-- THERMAL_SAMPLE: one sample of every plinth; the limits act on every sample in every state (R313, R315, R522). -/
def execThermalSample (samples : List ThermSample) (s : State) : Host.Outcome State Fault Refusal :=
  let xs := (samples.take 8).zipIdx
  let reached := s.alive && xs.any (fun x => atStop x.1 && !(s.plinth x.2).atLimit)
  let s1 := xs.foldl (fun s x => s.takeSample x.2 x.1) s
  let s2 : State := if s1.ctl.power != .held && xs.any (fun x => atTrip x.1) then
      { s1 with ctl := { s1.ctl with thermTrip := true } } else s1
  .next (if reached then s2.thermalStop else s2)

/-- THERM_ALERT#: a plinth is throttled, or the device stands in HOLD with HCAUSE 4 (R522). -/
def State.thermAlert (s : State) : Bool :=
  s.plinths.any (fun p => decide (0 < p.2.level)) || (s.inHold && s.ctl.hcause == 4)

/-- SYSCLK_LOSS: every block but the management controller stops, until PERST# (R524). -/
def execSysclkLoss (s : State) : Host.Outcome State Fault Refusal :=
  .next (if s.ctl.power != .on then s
    else State.emit { s with ctl := { s.ctl with power := .stopped }, sec := { s.sec with events := s.sec.events + 1 } }
      (.pldmClock false))

/-- BRLCLK_LOSS: every port that is not DISABLED goes DOWN for lost lock (R349, R524). -/
def execBrlclkLoss (s : State) : Host.Outcome State Fault Refusal :=
  if !s.alive then .next s
  else
    let s1 := (List.range 32).foldl (fun s p => match (s.port p).st with
      | .disabled | .down => s
      | .up => s.portDown p 3
      | _ => s.portTo p .down) s
    .next (State.emit { s1 with sec := { s1.sec with events := s1.sec.events + 1 } } (.pldmClock true))

/-- Whether the endpoint supports a link: x4, x8 or x16, one of the seven rates, and FLIT mode only at the two highest (R229). -/
def linkSupported (width rate : Nat) (flit : Bool) : Bool :=
  [4, 8, 16].contains width && decide (1 ≤ rate) && decide (rate ≤ 7) && (!flit || decide (6 ≤ rate))

/-- PCIE_LINK_TRAINED: HIF_LINK takes the trained width, rate and mode (R229, R233). A link the endpoint does not support never
trains. -/
def execPcieLinkTrained (width : Nat) (rate : Nat) (flit : Bool) (s : State) : Host.Outcome State Fault Refusal :=
  .next (if s.ctl.power == .on && linkSupported width rate flit then
    { s with hif := { s.hif with linkWidth := width, linkRate := rate, linkFlit := flit } } else s)

end Sys2Proof.Machine
end

