-- ==== Sys2Proof/Machine/Mgmt.lean ====
section
/-! DEFINITION. Management and security: firmware commands and updates (R436 to R438), the management controller (R526), the SPDM
responder (R439, R440), IDE and TDISP (R441 to R444), debug unlock and uplink keys (R448, R449), and the debug aperture (R505,
R506). Answers carry the code of the published request (PRESUMED, DSP0274 and DSP0267) and the content the manual fixes; what
the published standards add is Config.spdmContent. -/

namespace Sys2Proof.Machine

/-! ### Firmware commands (R437) -/

/-- Whether a function's write reaches the SEC block, which SEC_FAIL serves too (R501). -/
def State.secWrite (s : State) (func : GalNo) : Bool :=
  func.val == 0 && (s.barUp || (s.ctl.power == .on && s.sec.st == .fail))

/-- COMMIT on trial: the floor rises to the running SVN, each key REVOKE names other than the image's own is revoked, and TRIAL
clears (R437, R438). -/
def State.commitImage (s : State) (i : ImageInfo) : State :=
  let raise (k v : Nat) : Nat :=
    if k = 0 then max v i.svn.toNat
    else if i.revoke.getLsbD (k - 1) && i.kidx.val != k - 1 then v + 1 else v
  let d := s.sec.flash.dir
  let s1 : State := { s with sec := { s.sec with
    trial := false, flash := { s.sec.flash with rpmc := (List.range 5).map (fun k => raise k (s.rpmc k)) } } }
  s1.setDir d.active false d.tries

/-- A write of SEC_FWCMD (R437): OP = 1 COMMIT, refused unless the running image is on trial; OP = 2 REVERT. -/
def State.writeFwCmd (s : State) (func : Nat) (word : Word) : State :=
  match bits word.toNat 1 0 with
  | 1 => match s.sec.trial, s.sec.image with
    | true, some i => s.commitImage i
    | _, _ => s.refuseWrite func (regOff .secFwCmd []) .lockedField
  | 2 => State.setDir { s with sec := { s.sec with trial := false } } (!s.sec.flash.dir.active) false s.sec.flash.dir.tries
  | _ => s

/-- COMMIT (R437). -/
def execCommit (func : GalNo) (word : Word) (s : State) : Host.Outcome State Fault Refusal :=
  .next (if s.secWrite func && bits word.toNat 1 0 == 1 then s.writeFwCmd func.val word else s)

/-- REVERT (R437). -/
def execRevert (func : GalNo) (word : Word) (s : State) : Host.Outcome State Fault Refusal :=
  .next (if s.secWrite func && bits word.toNat 1 0 == 2 then s.writeFwCmd func.val word else s)

/-! ### The debug aperture (R232, R504 to R506) -/

/-- What a BAR2 offset reaches (R505). -/
inductive DbgPlace where
  | chan (core addr : Nat)
  | hall (addr : Nat)
  | scratch (core addr : Nat)
  | nothing
  deriving DecidableEq, Repr

/-- The mapping of R505 under GLB_DBGSEL.TARGET. -/
def dbgPlace (target o : Nat) : DbgPlace :=
  if target < 8 then if o < 2 ^ 36 then .chan (256 * target + o / 2 ^ 28) (o % 2 ^ 28) else .nothing
  else if target = 8 then if o < 2 ^ 28 then .hall o else .nothing
  else if target = 9 then if o < 2 ^ 29 then .scratch (o / 2 ^ 18) (o % 2 ^ 18) else .nothing
  else .nothing

/-- A debug read: corrected, with the errors of channel bursts counted and no incident recorded (R506). Answers the bytes and
the EP bit. -/
def State.debugRead (s : State) (p : DbgPlace) (n : Nat) : State × Bytes × Bool :=
  match p with
  | .chan c a =>
    let phys := (s.core c).chan
    let errs := s.chanErrors phys a n
    (errs.foldl (fun s e => if e.2 then s.count .stkUe c 1 else s.count .stkCe c 1) s, s.chanView c a n, errs.any Prod.snd)
  | .hall a => (s, s.readHall a n, (s.badWords (hallBase + a) n).any Prod.snd)
  | .scratch c a => (s, s.readScratch c a n, (s.badWords (s.scratch c + a) n).any Prod.snd)
  | .nothing => (s, List.replicate n 0, false)

/-- A debug write (R506): it drops the stream-cache lines it overlaps and bypasses handles and scoreboard. -/
def State.debugWrite (s : State) (p : DbgPlace) (b : Bytes) : State :=
  match p with
  | .chan c a => (s.writeChan c a b).1
  | .hall a => s.writeHall a b
  | .scratch c a => (s.writeScratch c a b).1
  | .nothing => s

/-- Whether BAR2 is open: debug was unlocked, and the device is in HOLD or RUN (R448, R506). -/
def State.debugOpen (s : State) : Bool := s.sec.debug && (s.inHold || s.running)

/-- DEBUG_APERTURE_ACCESS: a read or a write of BAR2, denied and counted while debug access is closed (R232). -/
def execDebugApertureAccess (offset : Nat) (len : Nat) (write : Option Bytes) (s : State) :
    Host.Outcome State Fault Refusal :=
  .next (if !s.barUp then s
    else
      let place := dbgPlace (s.field .glbDbgSel [] 3 0) offset
      match s.debugOpen, write with
      | true, some b => s.debugWrite place (b.take len)
      | true, none =>
        let r := s.debugRead place len
        r.1.emit (.readData 0 r.2.1 r.2.2)
      | false, some _ => s.count .hifDbgDeny 0 1
      | false, none => (s.count .hifDbgDeny 0 1).emit (.readData 0 (List.replicate len 0) false))

/-! ### Transports and answers (R433, R436, R439, R509, R526) -/

/-- Whether a transport carries messages: SMBus while MGT_CTRL.EN is set, PCIe messages while MGT_CTRL.VDM is set and the
endpoint is up, DOE with the PF's configuration space. The management controller outlives SYSCLK (R524). -/
def State.transportUp (s : State) (t : Transport) : Bool :=
  let pcie := s.barUp || (s.ctl.power == .on && s.sec.st == .fail)
  match t with
  | .smbus => s.ctl.power != .held && s.flag .mgtCtrl [] 0
  | .vdm => pcie && s.flag .mgtCtrl [] 1
  | .doe => pcie

/-- Whether the SPDM responder serves requests of a transport: in SEC_FAIL it serves GET_VERSION alone (R433). -/
def State.spdmUp (s : State) (t : Transport) : Bool := s.alive && s.sec.st == .run && s.transportUp t

/-- Codes of the published requests. -/
def rqDigests : Nat := 0x81
def rqCertificate : Nat := 0x82
def rqChallenge : Nat := 0x83
def rqVersion : Nat := 0x84
def rqMeasurements : Nat := 0xE0
def rqCapabilities : Nat := 0xE1
def rqAlgorithms : Nat := 0xE3
def rqKeyExchange : Nat := 0xE4
def rqFinish : Nat := 0xE5
def rqHeartbeat : Nat := 0xE8
def rqKeyUpdate : Nat := 0xE9
def rqEndSession : Nat := 0xEC
def rqSetCertificate : Nat := 0xEE
def rqVendor : Nat := 0xFE
def rqError : Nat := 0x7F
/-- PLDM commands, with the PLDM type in [15:8]: GetSensorReading, a platform event, RequestUpdate, a write of firmware data and
ActivateFirmware; and the completion codes for success and ALREADY_IN_UPDATE_MODE. -/
def pldmReading : Nat := 0x0211
def pldmEvent : Nat := 0x020A
def pldmRequest : Nat := 0x0510
def pldmData : Nat := 0x0515
def pldmActivate : Nat := 0x051A
def pldmOk : Byte := 0x00
def pldmBusy : Byte := 0x81
def pldmError : Byte := 0x01

/-- Answer a request: the content the manual fixes, then what the published standard adds for this input. -/
def State.answer (s : State) (t : Transport) (code : Nat) (fixed input : Bytes) : State :=
  s.emit (.answer t code (fixed ++ Config.spdmContent code (fixed ++ input)))

/-- Turn a request away. -/
def State.answerError (s : State) (t : Transport) (code : Nat) : State := s.emit (.answer t rqError [BitVec.ofNat 8 code])

/-! ### The management controller (R436, R526) -/

/-- A sensor's reading (R526). -/
def State.sensor (s : State) (n : Nat) : Nat :=
  if 1 ≤ n ∧ n ≤ 8 then (s.plinth (n - 1)).tPmax
  else if 9 ≤ n ∧ n ≤ 16 then (s.plinth (n - 9)).tDmax
  else Config.sensorReading n s.free

/-- MCTP_MESSAGE: a sensor is read, or with sensor number 0 a waiting PLDM event is taken, which ends SMB_ALERT# once none waits
(R526). -/
def execMctpMessage (transport : Transport) (sensor : Nat) (s : State) : Host.Outcome State Fault Refusal :=
  .next (if transport == .doe || !s.transportUp transport then s
    else if sensor = 0 then
      State.emit { s with sec := { s.sec with events := s.sec.events - 1 } }
        (.answer transport pldmEvent (toLE 4 s.sec.events))
    else if sensor ≤ 33 then
      State.emit (s.draw 1) (.answer transport pldmReading (pldmOk :: toLE 4 (s.sensor sensor)))
    else s.emit (.answer transport pldmReading [pldmError]))

/-- First flash byte of a firmware slot (R429). -/
def slotBase (b : Bool) : Nat := if b then 0x02000000 else 0x01000000

/-- Firmware data into the slot that is not ACTIVE (R436). -/
def State.writeSlot (s : State) (ofs : Nat) (b : Bytes) : State :=
  { s with sec := { s.sec with flash := { s.sec.flash with
      slots := Memory.store s.sec.flash.slots (slotBase (!s.sec.flash.dir.active) + ofs) b } } }

/-- PLDM_FIRMWARE_UPDATE: without data it asks for a session, one at a time and none while TRIAL is set; with data it writes the
inactive slot (R436). -/
def execPldmFirmwareUpdate (transport : Transport) (session : Nat) (chunk : Option (Nat × Bytes)) (s : State) :
    Host.Outcome State Fault Refusal :=
  .next (if transport == .doe || !s.transportUp transport || s.ctl.power != .on then s
    else match chunk with
      | none =>
        if s.sec.update.isSome || s.sec.flash.dir.trial then s.emit (.answer transport pldmRequest [pldmBusy])
        else State.emit { s with sec := { s.sec with update := some (session, transport) } }
          (.answer transport pldmRequest [pldmOk])
      | some x =>
        if s.sec.update == some (session, transport) && decide (x.1 + x.2.length ≤ 2 ^ 24) then
          (s.writeSlot x.1 x.2).emit (.answer transport pldmData [pldmOk])
        else s.emit (.answer transport pldmData [pldmError]))

/-- ACTIVATE_FIRMWARE: the written slot, verified under R432, becomes ACTIVE on trial for the next reset; the session ends
(R436). -/
def execActivateFirmware (session : Nat) (image : ImageInfo) (s : State) : Host.Outcome State Fault Refusal :=
  .next (match s.sec.update with
    | none => s
    | some u =>
      if u.1 != session || !s.transportUp u.2 || s.ctl.power != .on then s
      else if s.imageOk image then
        State.emit (State.setDir { s with sec := { s.sec with update := none } } (!s.sec.flash.dir.active) true false)
          (.answer u.2 pldmActivate [pldmOk])
      else s.emit (.answer u.2 pldmActivate [pldmError]))

/-! ### SPDM requests (R439, R440) -/

/-- Number of a transport. -/
def transportNo (t : Transport) : Nat := match t with | .doe => 0 | .smbus => 1 | .vdm => 2

/-- How far a transport's connection has come: 1 version, 2 capabilities, 3 algorithms. -/
def State.spdm (s : State) (t : Transport) : Nat := Tbl.look s.sec.spdm (transportNo t) 0
def State.setSpdm (s : State) (t : Transport) (n : Nat) : State :=
  { s with sec := { s.sec with spdm := Tbl.put s.sec.spdm (transportNo t) n 0 } }

/-- Serve a request that needs the connection to have reached `level`, else turn it away (DSP0274's order, PRESUMED). -/
def State.spdmServe (s : State) (t : Transport) (level : Nat) (effect : State → State) : State :=
  if !s.spdmUp t then s
  else if s.spdm t < level then s.answerError t 4
  else effect s

/-- GET_VERSION: it restarts the connection; SEC_FAIL serves it too (R433, R439). -/
def execGetVersion (transport : Transport) (s : State) : Host.Outcome State Fault Refusal :=
  .next (if (s.spdmUp transport || (s.sec.st == .fail && s.ctl.power == .on)) && s.transportUp transport then
    (s.setSpdm transport 1).answer transport rqVersion [0x12, 0x13] []
  else s)

/-- GET_CAPABILITIES. -/
def execGetCapabilities (transport : Transport) (s : State) : Host.Outcome State Fault Refusal :=
  .next (s.spdmServe transport 1 (fun s => (s.setSpdm transport 2).answer transport rqCapabilities [] []))

/-- NEGOTIATE_ALGORITHMS. -/
def execNegotiateAlgorithms (transport : Transport) (s : State) : Host.Outcome State Fault Refusal :=
  .next (s.spdmServe transport 2 (fun s => (s.setSpdm transport 3).answer transport rqAlgorithms [] []))

/-- A digest's bytes. -/
def digestBytes (d : BitVec 256) : Bytes := toLE 32 d.toNat

/-- The certificate chain of a slot: 0 the vendor's, 1 the owner's once one is set (R439). -/
def State.chain (s : State) (slot : Nat) : Option Bytes :=
  if slot = 0 then some Config.vendorChain
  else if slot = 1 && !s.sec.flash.cert1.isEmpty then some s.sec.flash.cert1 else none

/-- GET_DIGESTS: the digests of the chains that are set. -/
def execGetDigests (transport : Transport) (s : State) : Host.Outcome State Fault Refusal :=
  .next (s.spdmServe transport 3 (fun s =>
    s.answer transport rqDigests (([0, 1].filterMap s.chain).flatMap (fun c => digestBytes (Config.sha3 c))) []))

/-- GET_CERTIFICATE: a part of a slot's chain. -/
def execGetCertificate (transport : Transport) (slot : Fin 8) (offset length : Nat) (s : State) :
    Host.Outcome State Fault Refusal :=
  .next (s.spdmServe transport 3 (fun s => match s.chain slot.val with
    | none => s.answerError transport 1
    | some c => s.answer transport rqCertificate ((c.drop offset).take length) []))

/-- CHALLENGE: a signature by the identity key over the nonce. -/
def execChallenge (transport : Transport) (slot : Fin 8) (nonce : Bytes) (s : State) : Host.Outcome State Fault Refusal :=
  .next (s.spdmServe transport 3 (fun s => match s.chain slot.val with
    | none => s.answerError transport 1
    | some c => s.answer transport rqChallenge (digestBytes (Config.sha3 c)) nonce))

/-- Measurement 3, raw: SVN, floor, KIDX, the four revocation counters, slot, TRIAL and DEBUG (R440). Its layout is a DESIGN
CHOICE. -/
def State.rawMeasurement (s : State) : Bytes :=
  let i := s.sec.image
  let flag (b : Bool) : Bytes := toLE 1 (if b then 1 else 0)
  toLE 4 ((i.map (fun x => x.svn.toNat)).getD 0) ++ toLE 4 (s.rpmc 0) ++ toLE 1 ((i.map (fun x => x.kidx.val)).getD 0) ++
    (List.range 4).flatMap (fun k => toLE 4 (s.rpmc (1 + k))) ++ flag s.sec.slot ++ flag s.sec.trial ++ flag s.sec.debug

/-- 32 zero bytes. -/
def zero32 : Bytes := List.replicate 32 0

/-- Measurement block `n` (R440). -/
def State.measurement (s : State) (n : Nat) : Bytes :=
  match n with
  | 1 => digestBytes Config.romDigest
  | 2 => match s.sec.image with
    | none => zero32
    | some i => digestBytes i.digest
  | 3 => s.rawMeasurement
  | 4 => digestBytes (Config.sha3 (s.sec.measured.flatMap (fun w => toLE 4 w.toNat)))
  | 5 => digestBytes (Config.sha3 ((List.range 256).flatMap (fun k => match Tbl.find s.doc.progs k with
    | none => zero32
    | some p => p.image)))
  | 6 => match s.fab.carMap with
    | none => zero32
    | some m => digestBytes (Config.sha3 m.image)
  | _ => []

/-- GET_MEASUREMENTS: one block, or with index 255 all of them from one snapshot; index 0 asks for their number (R440). -/
def execGetMeasurements (transport : Transport) (index : Nat) (s : State) : Host.Outcome State Fault Refusal :=
  .next (s.spdmServe transport 3 (fun s =>
    if index = 0 then s.answer transport rqMeasurements [6] []
    else if index ≤ 6 then s.answer transport rqMeasurements (s.measurement index) []
    else if index = 255 then
      s.answer transport rqMeasurements (([1, 2, 3, 4, 5, 6] : List Nat).flatMap s.measurement) []
    else s.answerError transport 1))

/-! ### Secure sessions (R439) -/

/-- A session's record. -/
def State.session (s : State) (n : Nat) : Session := Tbl.look s.sec.sessions n {}
def State.setSession (s : State) (n : Nat) (x : Session) : State :=
  { s with sec := { s.sec with sessions := Tbl.put s.sec.sessions n x {} } }

/-- KEY_EXCHANGE: the lowest session that is closed opens; a fifth is turned away. -/
def execKeyExchange (transport : Transport) (exchange : Bytes) (s : State) : Host.Outcome State Fault Refusal :=
  .next (s.spdmServe transport 3 (fun s => match (List.range 4).find? (fun n => !(s.session n).open_) with
    | none => s.answerError transport 5
    | some n => (s.setSession n { open_ := true, transport := transport }).answer transport rqKeyExchange (toLE 1 n) exchange))

/-- Whether a session can carry a request: it is open, and its transport carries messages. -/
def State.sessionUp (s : State) (n : Nat) : Bool := (s.session n).open_ && s.spdmUp (s.session n).transport

/-- Whether a session is secure: its handshake is complete. -/
def State.sessionSecure (s : State) (n : Nat) : Bool := s.sessionUp n && (s.session n).secure

/-- FINISH: a verified handshake makes the session secure, and the device issues the session's nonce, a free value (R448); any
other closes it. -/
def execFinish (session : Fin 4) (verified : Bool) (s : State) : Host.Outcome State Fault Refusal :=
  let n := session.val
  let x := s.session n
  .next (if !s.sessionUp n || x.secure then s
    else if verified then
      let nonce := toLE 32 (Config.freeNat s.free % 2 ^ 256)
      ((s.draw 1).setSession n { x with secure := true, nonce := some nonce }).answer x.transport rqFinish nonce []
    else (s.setSession n {}).answerError x.transport 6)

/-- KEY_UPDATE. -/
def execKeyUpdate (session : Fin 4) (s : State) : Host.Outcome State Fault Refusal :=
  let n := session.val
  let x := s.session n
  .next (if s.sessionSecure n then
    (s.setSession n { x with updates := x.updates + 1 }).answer x.transport rqKeyUpdate [] []
  else s)

/-- HEARTBEAT: the session stays open. -/
def execHeartbeat (session : Fin 4) (s : State) : Host.Outcome State Fault Refusal :=
  let n := session.val
  .next (if s.sessionSecure n then s.answer (s.session n).transport rqHeartbeat [] [] else s)

/-- END_SESSION: the session closes. -/
def execEndSession (session : Fin 4) (s : State) : Host.Outcome State Fault Refusal :=
  let n := session.val
  let x := s.session n
  .next (if s.sessionSecure n then (s.setSession n {}).answer x.transport rqEndSession [] [] else s)

/-- SET_CERTIFICATE: the owner chain of slot 1, over a secure session alone (R439). -/
def execSetCertificate (session : Fin 4) (slot : Fin 8) (chain : Bytes) (s : State) : Host.Outcome State Fault Refusal :=
  let n := session.val
  let x := s.session n
  .next (if !s.sessionSecure n then s
    else if slot.val = 1 then
      State.answer { s with sec := { s.sec with flash := { s.sec.flash with cert1 := chain } } } x.transport rqSetCertificate [1] []
    else s.answerError x.transport 1)

/-! ### Debug unlock and uplink keys (R448, R449) -/

/-- DEBUG_UNLOCK: a token that passes every check sets DEBUG, moves every locked TDI to ERROR and opens BAR2; the nonce is spent
either way (R448). -/
def execDebugUnlock (session : Fin 4) (nonce : Bytes) (kidx : Fin 4) (identityOk sigOk : Bool) (s : State) :
    Host.Outcome State Fault Refusal :=
  let n := session.val
  let x := s.session n
  .next (if !s.sessionSecure n then s
    else
      let s1 := s.setSession n { x with nonce := none }
      if x.nonce == some nonce && identityOk && sigOk && !s.revoked kidx.val then
        let s2 : State := { s1 with sec := { s1.sec with debug := true } }
        (s2.tdisError (List.range 64)).answer x.transport rqVendor [1] []
      else s1.answerError x.transport 1)

/-- MACSEC_KEY_INSTALL: the key serves receipt at once; with EFFECT, at least 16 beats ahead, a KEY notice is raised for it
(R449). -/
def execMacsecKeyInstall (session : Fin 4) (plane : Fin 8) (assoc : Bool) (key : BitVec 256)
    (effect : Option (BitVec 64)) (s : State) : Host.Outcome State Fault Refusal :=
  let n := session.val
  let t := (s.session n).transport
  let a := if assoc then 1 else 0
  .next (if !s.sessionSecure n then s
    else if effect.any (fun e => decide (e.toNat < s.beat + 16)) then s.answerError t 1
    else
      let s1 : State := { s with fab := { s.fab with macsec := Tbl.insert s.fab.macsec (plane.val * 2 + a) key } }
      let s2 := match effect with
        | none => s1
        | some e => s1.raiseNotice noteKey e.toNat (plane.val + 8 * a) 0 0
      s2.answer t rqVendor [2] [])

/-! ### IDE and TDISP (R441 to R444) -/

/-- IDE_KM: a stream's key is installed over a secure session, with the TDIs bound to it (R441). -/
def execIdeKm (session : Fin 4) (stream : Fin 5) (key : BitVec 256) (vfs : List GalNo) (s : State) :
    Host.Outcome State Fault Refusal :=
  .next (if s.sessionSecure session.val then
    State.answer { s with sec := { s.sec with
      ides := Tbl.put s.sec.ides stream.val { keyed := true, key := key, vfs := vfs.map (fun v => v.val) } {} } }
      (s.session session.val).transport rqVendor [3] []
  else s)

/-- IDE_INTEGRITY_FAILURE: the stream becomes insecure, and every TDI bound to it enters ERROR (R441, R444). -/
def execIdeIntegrityFailure (stream : Fin 5) (s : State) : Host.Outcome State Fault Refusal :=
  let x := Tbl.look s.sec.ides stream.val {}
  .next (if s.barUp && x.keyed && !x.insecure then
    State.tdisError { s with sec := { s.sec with ides := Tbl.put s.sec.ides stream.val { x with insecure := true } {} } } x.vfs
  else s)

/-- Whether a TDISP message can arrive: a secure session on the PF's DOE (R442). -/
def State.tdispUp (s : State) : Bool :=
  (List.range 4).any (fun n => s.sessionSecure n && (s.session n).transport == .doe)

/-- Serve a TDISP request for a VF in one of the states it is allowed in, else turn it away. -/
def State.tdisp (s : State) (vf : Nat) (from_ : List TdiSt) (to_ : TdiSt) (code : Byte) : State :=
  if !s.tdispUp then s
  else if vf != 0 && from_.contains (s.tdi vf) then (s.setTdi vf to_).answer .doe rqVendor [code] []
  else s.answerError .doe 1

/-- LOCK_INTERFACE: every PF write accepted before it has taken effect, as commands run in order; what R443 lists is locked from
here (R442, R443). -/
def execLockInterface (vf : GalNo) (s : State) : Host.Outcome State Fault Refusal :=
  .next (s.tdisp vf.val [.unlocked] .locked 0x03)

/-- START_INTERFACE (R442). -/
def execStartInterface (vf : GalNo) (s : State) : Host.Outcome State Fault Refusal :=
  .next (s.tdisp vf.val [.locked] .run 0x06)

/-- STOP_INTERFACE (R442). -/
def execStopInterface (vf : GalNo) (s : State) : Host.Outcome State Fault Refusal :=
  .next (s.tdisp vf.val [.unlocked, .locked, .run, .error] .unlocked 0x07)

end Sys2Proof.Machine
end

