-- ==== Sys2Proof/Machine/Regs.lean ====
section
/-! DEFINITION. Register reads and writes: what every field of BAR0 reads as, how a write is checked and applied, the VF windows and
the MSI-X tables (R6 to R10, R199, R307, R443, R484, R492, R494, R498 to R503, R508, R509, R530, R533). -/

namespace Sys2Proof.Machine

/-! ### What a register reads as -/

/-- A number as bits [hi:lo] of a word. -/
def atBits (hi lo v : Nat) : Nat := v % 2 ^ (hi + 1 - lo) * 2 ^ lo

/-- One bit of a word. -/
def atBit (i : Nat) (b : Bool) : Nat := if b then 2 ^ i else 0

/-- GLB_STATE.STATE (R472). -/
def DevSt.code : DevSt → Nat
  | .boot => 0 | .train => 1 | .test => 2 | .hold => 3 | .run => 4

/-- CAT_TRSTAT.STATE (R471). -/
def TraceSt.code : TraceSt → Nat
  | .idle => 0 | .armed => 1 | .triggered => 2 | .stopped => 3

/-- SEC_STAT.STATE and SEC_TDIn.STATE (R450). -/
def SecSt.code : SecSt → Nat
  | .boot => 0 | .run => 1 | .fail => 2
def TdiSt.code : TdiSt → Nat
  | .unlocked => 0 | .locked => 1 | .run => 2 | .error => 3

/-- A function's record of a refused write, its status word (R496, R502). -/
def State.werrWord (s : State) (func : Nat) : Nat :=
  let w := Tbl.look s.ctl.werr func {}
  atBits 7 0 w.status.code + atBit 8 w.valid + atBit 9 w.ovf + atBits 21 16 w.func

/-- GLB_STATE (R472, R474, R484, R488, R490). -/
def State.stateWord (s : State) : Nat :=
  atBits 2 0 s.ctl.st.code + atBits 6 4 s.ctl.hcause + atBit 8 (s.running && s.locked) + atBit 9 s.ctl.committed.isSome +
    atBit 10 (s.uncommitted (fun _ _ => true))

/-- Revoked root keys (R450). -/
def State.revokeMask (s : State) : Nat := (List.range 4).foldl (fun n k => n + atBit k (s.revoked k)) 0

/-- A word of one of the records RAS_SRCDATA shows (R410): its last word ends in the CRC and PHASE of a ring the record does not
stand in, and reads as a free value. -/
def State.srcWord (s : State) (r : Option Incident) (k : Nat) : Nat :=
  match r with
  | none => 0
  | some x => if k = 7 then Config.freeNat s.free % 2 ^ 32 else ofLE ((x.bytes.drop (4 * k)).take 4)

/-- The pending quiesce the BEAT block shows: the earliest (R398). -/
def State.quiesceShown (s : State) : Nat := ((minBy (fun (q : PendQuiesce) => q.q) s.fab.quiesces).map (fun q => q.q)).getD 0

/-- What the fields that the device computes read as; WO fields read zero (R8). -/
def State.statusWord (s : State) (func : Nat) (r : Reg) (idx : List Nat) : Nat :=
  let n := idx.headD 0
  match r with
  | .glbId => 0x00070100
  | .glbWerr => s.werrWord 0
  | .glbWerrAddr => (Tbl.look s.ctl.werr 0 {}).addr
  | .glbState => s.stateWord
  | .glbCstat => atBits 15 0 s.ctl.cLast.toNat + atBits 23 16 s.ctl.cCause + atBit 24 s.ctl.cBusy
  | .glbCerr => s.ctl.cErr
  | .glbBoot => atBits 3 0 s.ctl.bootStep + atBits 15 8 s.ctl.short.toNat + atBits 23 16 s.ctl.cores + atBits 31 24 s.ctl.channels
  | .glbBootRep => atBits 15 0 s.ctl.repRows + atBits 23 16 s.ctl.repCols + atBits 31 24 s.ctl.repSkip
  | .hifLink => atBits 4 0 s.hif.linkWidth + atBits 10 8 s.hif.linkRate + atBit 11 s.hif.linkFlit
  | .hifRstat => atBit 0 (s.ringActive n) + atBit 1 (s.ring n).halt + atBits 3 2 (s.ring n).hcause
  | .hifFidx => (s.ring n).fidx.toNat
  | .dmaActive => (s.dma.ops.filter (fun x => x.chan.isSome)).length
  | .docStatus => atBit 0 s.doc.overcommit + atBit 1 s.doc.suspended + atBits 25 16 s.cload
  | .brlPos => s.ctl.strapPos.toNat
  | .brlPortStat => atBits 2 0 (s.port n).st.code + atBits 7 3 (s.port n).peerPort + atBits 24 8 (s.port n).peerId
  | .beatCntLo => s.fab.beat.cnt % 2 ^ 32
  | .beatCntHi => s.fab.beat.cnt / 2 ^ 32 % 2 ^ 32
  | .beatStat => atBits 2 0 s.fab.beat.st.code + atBits 7 4 s.fab.beat.stratum + atBits 13 8 s.fab.beat.parent
  | .beatOfs => (BitVec.ofInt 32 s.fab.beat.theta).toNat
  | .beatMap => atBits 15 0 s.mapGen + atBits 31 16 ((s.fab.carPend.map (fun m => m.gen)).getD 0)
  | .beatQLo => s.quiesceShown % 2 ^ 32
  | .beatQHi => s.quiesceShown / 2 ^ 32 % 2 ^ 32
  | .rfStat => atBits 10 0 (s.plinth n).rfDmax + atBit 16 (s.plinth n).hot
  | .tStat => atBits 9 0 (s.plinth n).tPmax + atBits 25 16 (s.plinth n).tDmax + atBits 29 28 (s.plinth n).level
  | .rprStat => atBit 0 (s.plinth n).rprRun.isSome + atBits 15 8 (s.plinth n).rprStatus.code
  | .rprSpares =>
    let x := s.plinth n
    let bank := s.field .rprAddr [n] 14 10
    atBits 7 0 (x.freeRows x.rprPch bank).length + atBits 10 8 (x.freeCols x.rprPch bank).length +
      atBits 19 16 (s.spareChans n).length
  | .secStat => atBits 1 0 s.sec.st.code + atBits 7 4 s.sec.cause + atBit 8 s.sec.slot + atBit 9 s.sec.trial +
      atBit 10 s.sec.debug + atBits 13 12 ((s.sec.image.map (fun i => i.kidx.val)).getD 0)
  | .secSvn => (s.sec.image.map (fun i => i.svn.toNat)).getD 0
  | .secFloor => s.rpmc 0 % 2 ^ 32
  | .secRevoke => s.revokeMask
  | .secTdi => if n = 0 then 0 else (s.tdi n).code
  | .catSnapStat => (s.snap func).seq.toNat + atBit 16 (s.snap func).busy
  | .catSnapLen => snapLen func
  | .catRdStat => atBit 0 s.cat.dumpBusy + atBit 1 s.cat.frozen + atBits 3 2 s.cat.fcause
  | .catTrStat => atBits 1 0 s.cat.trace.st.code + atBit 2 s.cat.trace.wrap + atBit 3 s.cat.trace.fullstop
  | .catTrWptr => s.cat.trace.wptr
  | .catTrTrig => s.cat.trace.trigIdx
  | .catTrDrop => s.cat.trace.drop
  | .catTrRetrig => s.cat.trace.retrig
  | .rasQstat => atBits 10 0 s.ras.queue.length + atBit 16 s.incidentFull
  | .rasOvf => s.ras.ovf
  | .rasConsStat => atBits 6 0 s.repairsActive + atBits 24 16 s.repairsWaiting
  | .rasSrcData =>
    let x := s.source (s.field .rasSrcSel [] 15 0)
    if n < 8 then s.srcWord x.first n else s.srcWord x.last (n - 8)
  | .rasFenceA =>
    let k := s.core n
    atBits 15 0 k.fenceScore.toNat + atBit 16 k.fencePop + atBit 17 k.sparePend + atBit 18 k.noSpare
  | .rasFenceB => (s.core n).fenceVal.toNat
  | .anxStat => min 1023 s.annex.queue.length + atBit 16 s.annex.running.isSome + atBit 17 s.annex.fail
  | .mgtSmb => 0x60 + s.ctl.strapSmba.toNat
  | .mgtEid => s.sec.eid
  | .mgtPwr => Config.sensorReading 17 s.free % 2 ^ 11
  | _ => 0

/-- Registers whose whole value is live rather than what was written: the beat count, though its access is RWL (R398), and the
identity and state words (R2, R472). -/
def liveReg (r : Reg) : Bool := r == .beatCntLo || r == .beatCntHi || r == .glbId || r == .glbState

/-- A register as a function reads it (R8). -/
def State.regWord (s : State) (func : Nat) (x : RegSpec) (idx : List Nat) : Nat :=
  (if liveReg x.reg then 0 else s.written x.reg idx) + s.statusWord func x.reg idx

/-! ### The VF window (R502) -/

/-- The PF register a VF offset mirrors, with its elements. -/
def vfReg (n off : Nat) : Option (Reg × List Nat) :=
  match off with
  | 0x00 => some (.glbId, [])
  | 0x10 => some (.glbState, [])
  | 0x14 => some (.secTdi, [n])
  | 0x100 => some (.hifGal, [n])
  | 0x104 => some (.hifGsumLo, [n])
  | 0x108 => some (.hifGsumHi, [n])
  | 0x200 => some (.docGalQ, [n])
  | 0x204 => some (.docGalS, [n])
  | 0x208 => some (.curGal, [n])
  | 0x20C => some (.dmaGal, [n])
  | 0x210 => some (.glbT0Q, [n])
  | 0x214 => some (.beatGal, [n])
  | 0x218 => some (.glbBw, [n])
  | 0x4000C => some (.catSnapStat, [])
  | 0x40010 => some (.catSnapLen, [])
  | o =>
    if 0x10000 ≤ o ∧ o < 0x10000 + 32 * 64 then
      let r := 64 * n + (o - 0x10000) / 32
      (regAt (0x110000 + 32 * r + (o - 0x10000) % 32)).map (fun x => (x.1.reg, x.2))
    else if 0x30000 ≤ o ∧ o < 0x30000 + 4 * 64 ∧ o % 4 = 0 then some (.hifFidx, [64 * n + (o - 0x30000) / 4])
    else none

/-- Bits of a mirrored register that its window shows (R502). -/
def vfMask (r : Reg) : Nat := if r = .glbState then 0x107 else 0xFFFFFFFF

/-! ### MSI-X tables (R231) -/

/-- Offset within a function's MSI-X structures: the table is 32 KiB, the pending bits 256 B after it. -/
def msixOff (func off : Nat) : Option Nat :=
  let base := if func = 0 then 0x180000 else 0x80000
  if base ≤ off ∧ off < base + 0x8100 then some (off - base) else none

/-- A word of a function's MSI-X table or pending bits. -/
def State.msixRead (s : State) (func o : Nat) : Nat :=
  if o < 0x8000 then (s.msixWord func (o / 16) (o % 16 / 4)).toNat
  else (List.range 32).foldl (fun v i =>
    v + atBit i (Tbl.look s.hif.msixPend (func * 2048 + (o - 0x8000) * 8 + i) false)) 0

/-- A write of a function's MSI-X table: a vector that is unmasked with its pending bit set sends its message (R261). The pending
bits are read-only. -/
def State.msixWrite (s : State) (func o : Nat) (word : Word) : State :=
  if 0x8000 ≤ o then s
  else
    let v := o / 16
    let k := o % 16 / 4
    let w : Word := if k = 3 then word &&& 1 else if k = 0 then word &&& 0xFFFFFFFC else word
    let s1 : State := { s with hif := { s.hif with
      msixTable := Tbl.put s.hif.msixTable (func * 2 ^ 20 + 16 * v + 4 * k) w (if k = 3 then 1 else 0) } }
    if k = 3 && w == 0 && Tbl.look s1.hif.msixPend (func * 2048 + v) false then
      State.msix { s1 with hif := { s1.hif with msixPend := Tbl.put s1.hif.msixPend (func * 2048 + v) false false } } func v
    else s1

/-! ### Reads (R498, R500, R501) -/

/-- Whether a PF offset is served in SEC_FAIL: the SEC block and GLB_ID (R501). -/
def secServed (off : Nat) : Bool := (decide (0x2000000 ≤ off) && decide (off < 0x2100000)) || off == 0

/-- SEC_FAIL, powered and clocked (R433, R501). -/
def State.secFailed (s : State) : Bool := s.ctl.power == .on && s.sec.st == .fail

/-- A register word of a function at an aligned offset (R7, R497, R502). -/
def State.readWord (s : State) (func off : Nat) : Nat :=
  if s.secFailed && !(func == 0 && secServed off) then 0
  else match msixOff func off with
  | some o => s.msixRead func o
  | none =>
    if func = 0 then
      match regAt off with
      | none => 0
      | some x =>
        if x.1.reg = .secTdi ∧ x.2 = [0] then 0
        else s.regWord 0 x.1 x.2
    else match off with
      | 0x04 => s.werrWord func - atBits 21 16 (Tbl.look s.ctl.werr func {}).func + atBits 21 16 func
      | 0x08 => (Tbl.look s.ctl.werr func {}).addr
      | 0x40000 | 0x40004 => (Tbl.look s.vfRegs (func * 2 ^ 20 + off) 0).toNat
      | _ => match vfReg func off with
        | none => 0
        | some x => s.regWord func (regSpec x.1) x.2 &&& vfMask x.1

/-- Low words of the running pairs in PF BAR0 (R500). -/
def runningPairs : List Nat := [0xA00008, 0xA0002C]

/-- Whether a read of `n` bytes at `off` covers all of the word at `w`, or any of it. -/
def covers (off n w : Nat) : Bool := decide (off ≤ w) && decide (w + 4 ≤ off + n)
def touches (off n w : Nat) : Bool := decide (off < w + 4) && decide (w < off + n)

/-- The running pairs a read meets: a read that covers a low word latches the high one; a read of the high word without the low
one returns and consumes a latch (R500). Answers the state and the words that latches stand in for. -/
def State.pairRead (s : State) (func off n : Nat) : State × List (Nat × Nat) :=
  if func != 0 then (s, [])
  else (runningPairs.zipIdx).foldl (fun (acc : State × List (Nat × Nat)) p =>
    let key := func * 4 + p.2
    let old := Tbl.look acc.1.ctl.latches key none
    let hi := p.1 + 4
    if covers off n p.1 then
      ({ acc.1 with ctl := { acc.1.ctl with
          latches := Tbl.put acc.1.ctl.latches key (some (BitVec.ofNat 32 (s.readWord 0 hi))) none } }, acc.2)
    else if touches off n hi && !touches off n p.1 then
      match old with
      | none => acc
      | some w => ({ acc.1 with ctl := { acc.1.ctl with latches := Tbl.put acc.1.ctl.latches key none none } }, acc.2 ++ [(hi, w.toNat)])
    else acc) (s, [])

/-- Whether a read has a shape that is served: 1 to 8 bytes within one aligned 8-byte unit (R498). -/
def readShape (off n : Nat) : Bool := decide (0 < n) && decide (off % 8 + n ≤ 8)

/-- Whether a function's BAR0 answers: in full after step 3 of start-up, and in SEC_FAIL in part (R477, R501). -/
def State.barServed (s : State) (func : Nat) : Bool := s.barUp || (s.secFailed && func == 0)

/-- COUNTER_PAIR_READ: a read of BAR0, with the latches of the running pairs (R498 to R500). -/
def execCounterPairRead (func : GalNo) (offset : Nat) (len : Nat) (s : State) : Host.Outcome State Fault Refusal :=
  .next (if !s.barServed func.val then s
    else if !readShape offset len then s.emit (.unsupported func.val)
    else
      let r := s.pairRead func.val offset len
      let base := offset / 8 * 8
      let word (w : Nat) : Nat := match r.2.find? (fun p => p.1 == w) with
        | some p => p.2
        | none => s.readWord func.val w
      let unit := toLE 4 (word base) ++ toLE 4 (word (base + 4))
      (r.1.draw 1).emit (.readData func.val ((unit.drop (offset - base)).take len) false))

/-! ### Writes: locks and checks -/

/-- Whether the unit that owns a register's RWL fields is enabled: in HOLD none is (R10, R473). -/
def State.unitLocks (s : State) (l : Lock) (idx : List Nat) : Bool :=
  let n := idx.headD 0
  !s.inHold && (match l with
    | .none | .tdi => false
    | .memctrl => s.flag .glbMemCtrl [] 0
    | .hif => s.flag .hifCtrl [] 0
    | .galRings => (galleryRings n).any s.ringActive
    | .ring => s.ringActive n
    | .dma => s.flag .dmaCtrl [] 0
    | .doc => s.flag .docCtrl [] 0
    | .cur => s.flag .curCtrl [] 0
    | .brl => s.flag .brlCtrl [] 0
    | .beat => s.flag .beatCtrl [] 0
    | .stk => s.flag .stkCtrl [n] 0
    | .trace => s.cat.trace.st == .armed || s.cat.trace.st == .triggered
    | .ras => s.flag .rasCtrl [] 0
    | .mgt => s.flag .mgtCtrl [] 0)

/-- Gallery whose TDI locks a register's RWL fields against the PF, in every device state (R443). -/
def tdiGallery (r : Reg) (idx : List Nat) : Option Nat :=
  let n := idx.headD 0
  match r with
  | .hifGal | .hifGsumLo | .hifGsumHi | .docGal | .docGalC | .secHallB | .secHallS => some n
  | .hifSqLo | .hifSqHi | .hifCqLo | .hifCqHi | .hifDbLo | .hifDbHi => some (n / 64)
  | _ => none

/-- Whether the RWL fields of a register are locked against a function's write. -/
def State.rwlLocked (s : State) (func : Nat) (x : RegSpec) (idx : List Nat) : Bool :=
  s.unitLocks x.lock idx || (func == 0 && (match tdiGallery x.reg idx with
    | some g => s.tdiLocked g
    | none => false))

/-- The commit-set registers whose fields a unit's EN waits for (R484). -/
def enableNeeds (r : Reg) (idx : List Nat) (q : Reg) (qidx : List Nat) : Bool :=
  match r with
  | .glbMemCtrl => [Reg.glbT1Base, .glbT1Limit, .glbT0Base, .glbT0Count].contains q
  | .hifCtrl => [Reg.hifSumLo, .hifSumHi, .hifAckLo, .hifAckHi].contains q
  | .dmaCtrl => q == .dmaCresv
  | .docCtrl => [Reg.docGal, .docGalC].contains q
  | .curCtrl => [Reg.curKvBase, .curKvFrames, .curScBase, .curTblBase, .curTblLines].contains q
  | .brlCtrl => [Reg.brlId, .brlMachine, .brlEtype, .brlUpCfg, .brlMacsec].contains q
  | .stkCtrl => q == .rfCfg && qidx == idx
  | _ => false

/-- Registers whose bit 0 is an EN field of R484. -/
def isEnable (r : Reg) : Bool := [Reg.glbMemCtrl, .hifCtrl, .dmaCtrl, .docCtrl, .curCtrl, .brlCtrl, .stkCtrl].contains r

/-- What one field's new value is refused with, if anything, beyond its lock: its stated range (R530), or the rule of its own
chapter (R199, R307, R484, R508, R509). `w` is the word written. -/
def State.fieldBad (s : State) (x : RegSpec) (idx : List Nat) (w : Nat) (f : Field) : List Status :=
  let v := bits w f.hi f.lo
  let n := idx.headD 0
  check (!f.commit && (match f.range with
    | some (a, b) => decide (v < a) || decide (b < v)
    | none => false)) .badDescriptor ++
  check (isEnable x.reg && f.lo == 0 && v == 1 && s.uncommitted (enableNeeds x.reg idx)) .lockedField ++
  (match x.reg with
    | .docCres => check (decide (60 < v) || !(s.loadOf s.hClk s.groups).within v) .budgetExceeded
    | .docGalS =>
      let others := ((List.range 64).filter (fun g => g != n)).foldl (fun t g => t + s.field .docGalS [g] 6 0) 0
      check (decide (s.field .docCres [] 6 0 < others + v)) .budgetExceeded
    | .rfSlot => check (decide (s.beatUs ≤ v)) .badDescriptor
    | .mgtPthr | .mgtDthr => check (decide (bits w 25 16 < bits w 9 0)) .badDescriptor
    | .anxCtrl => check (v == 1 && s.annex.fail) .lockedField
    | _ => [])

/-- Fields a function may write in a register: in a VF window RW quotas are shown read-only (R234, R502). -/
def mayWrite (func : Nat) (f : Field) : Bool :=
  match f.acc with
  | .rw | .rws => func == 0
  | .rwl => true
  | _ => false

/-- Write the fields of a register that carry no action of their own: each under its lock, its range and its chapter's rule, with at
most one refusal recorded (R8, R10, R530, R533). -/
def State.writeFields (s : State) (func off : Nat) (x : RegSpec) (idx : List Nat) (word : Word) : State :=
  let w := word.toNat
  let old := s.written x.reg idx
  let fs := x.fields.filter (mayWrite func)
  let changed (f : Field) : Bool := bits w f.hi f.lo != bits old f.hi f.lo
  if s.ctl.cBusy && fs.any (fun f => f.commit && changed f) then s.refuseWrite func off .lockedField
  else
    let locked := s.rwlLocked func x idx
    let bad (f : Field) : List Status :=
      check (f.acc == .rwl && locked && changed f) .lockedField ++ s.fieldBad x idx w f
    let good := fs.filter (fun f => (bad f).isEmpty)
    let new := good.foldl (fun n f => setBits n f.hi f.lo (bits w f.hi f.lo)) old
    let o := regOff x.reg idx
    let shadowed := !s.beatOff && x.fields.any (fun f => f.acc == .rws)
    let force := (Tbl.find s.inForce o).getD (BitVec.ofNat 32 old)
    let s1 : State := { s with
      regs := Tbl.put s.regs o (BitVec.ofNat 32 new) x.resetWord
      inForce := if shadowed then Tbl.put s.inForce o force (BitVec.ofNat 32 new) else Tbl.erase s.inForce o }
    s1.refuseAll func off (fs.flatMap bad)

/-- A write of BEAT_CNT while the unit is OFF replaces the number the next boundary will carry; while it is locked the value it
has is accepted and any other refused (R10, R398, R489). -/
def State.writeCount (s : State) (func off : Nat) (r : Reg) (word : Word) : State :=
  let c := s.fab.beat.cnt
  if s.statusWord func r [] = word.toNat then s
  else if s.unitLocks .beat [] then s.refuseWrite func off .lockedField
  else
    let v := if r = .beatCntLo then c / 2 ^ 32 * 2 ^ 32 + word.toNat else c % 2 ^ 32 + word.toNat * 2 ^ 32
    s.setBeat { s.fab.beat with cnt := v }

/-- What a changed EN or DIS field of the fabric does at once in RUN: ports leave DISABLED, or go there (R349, R363). -/
def State.portsFollow (s : State) (r : Reg) (idx : List Nat) : State :=
  let n := idx.headD 0
  if !s.running then s
  else match r with
    | .brlCtrl => if s.flag .brlCtrl [] 0 then s.portsStart
        else (List.range 32).foldl (fun s p => if (s.port p).st = .disabled then s else s.portTo p .disabled) s
    | .brlPortCtrl => if !s.flag .brlPortCtrl [n] 0 then s.portStart n
        else if (s.port n).st = .disabled then s else s.portTo n .disabled
    | _ => s

/-- A write of a GLB_WERR or VF_WERR: VALID clears the whole record, OVF its own bit (R8, R496, R503). -/
def State.clearWerr (s : State) (key : Nat) (word : Word) : State :=
  let w := Tbl.look s.ctl.werr key {}
  let w' : Werr := if word.getLsbD 8 then {} else if word.getLsbD 9 then { w with ovf := false } else w
  { s with ctl := { s.ctl with werr := Tbl.put s.ctl.werr key w' {} } }

/-- RAS_FENCECMD: OP 1 fences the POP path of a core, OP 2 clears its fences (R410). -/
def State.fenceCommand (s : State) (word : Word) : State :=
  let c := bits word.toNat 10 0
  match bits word.toNat 13 12 with
  | 1 => s.fenceUnit c unitPop
  | 2 => s.setCore c (s.core c).clearFences
  | _ => s

/-- A write of one register of PF BAR0 (R8, R497). -/
def State.writePf (s : State) (off : Nat) (word : Word) : State :=
  match regAt off with
  | none => s
  | some x =>
    let n := x.2.headD 0
    match x.1.reg with
    | .glbWerr => s.clearWerr 0 word
    | .glbCommit => s.writeCommit 0 word
    | .glbCmd => s.writeGlbCmd word
    | .hifRcfg => s.writeRcfg 0 n off word
    | .beatCtrl => s.writeBeatCtrl 0 word
    | .beatCntLo => s.writeCount 0 off .beatCntLo word
    | .beatCntHi => s.writeCount 0 off .beatCntHi word
    | .rprCmd => if bits word.toNat 3 0 = 0 ∨ 7 ≤ bits word.toNat 3 0 then s
        else s.repairCommand 0 n (bits word.toNat 3 0) word
    | .secFwCmd => s.writeFwCmd 0 word
    | .catSnapCmd => if word.getLsbD 0 then s.takeSnapshot 0 else s
    | .catRdCmd => s.readCommand 0 (bits word.toNat 2 0)
    | .catMark => s.mark word
    | .catTrCmd => s.traceCommand 0 (bits word.toNat 1 0)
    | .rasCtrl => s.incidentEnable word
    | .rasFenceCmd => s.fenceCommand word
    | .rasSrcClr => if word.getLsbD 0 then s.clearSource else s
    | _ => (s.writeFields 0 off x.1 x.2 word).portsFollow x.1.reg x.2

/-- A write of one register of a VF window (R502, R503). -/
def State.writeVf (s : State) (n off : Nat) (word : Word) : State :=
  match off with
  | 0x04 => s.clearWerr n word
  | 0x40000 => { s with vfRegs := Tbl.put s.vfRegs (n * 2 ^ 20 + off) (word &&& 0xFFFFF000) 0 }
  | 0x40004 => { s with vfRegs := Tbl.put s.vfRegs (n * 2 ^ 20 + off) word 0 }
  | 0x40008 => if word.getLsbD 0 then s.takeSnapshot n else s
  | _ => match vfReg n off with
    | none => s
    | some (.hifRcfg, idx) => s.writeRcfg n (idx.headD 0) off word
    | some (r, idx) => s.writeFields n off (regSpec r) idx word

/-- A write of one aligned word by a function. -/
def State.writeWord (s : State) (func off : Nat) (word : Word) : State :=
  if s.secFailed then (if func = 0 ∧ secServed off then s.writePf off word else s)
  else match msixOff func off with
    | some o => s.msixWrite func o word
    | none => if func = 0 then s.writePf off word else s.writeVf func off word

/-- Whether a write has a shape that is served: 4 or 8 aligned bytes with every byte enable set (R498). -/
def writeShape (off : Nat) (data : Bytes) (allEnabled : Bool) : Bool :=
  allEnabled && ((data.length == 4 && off % 4 == 0) || (data.length == 8 && off % 8 == 0))

/-- REGISTER_WRITE: a write of 4 or 8 bytes is one or two register writes, lower address first; any other shape changes nothing and
is recorded (R498). -/
def execRegisterWrite (func : GalNo) (offset : Nat) (data : Bytes) (allEnabled : Bool) (s : State) :
    Host.Outcome State Fault Refusal :=
  .next (if !s.barServed func.val then s
    else if !writeShape offset data allEnabled then (if s.secFailed then s else s.refuseWrite func.val offset .badDescriptor)
    else
      let w (k : Nat) : Word := BitVec.ofNat 32 (ofLE ((data.drop (4 * k)).take 4))
      let s1 := s.writeWord func.val offset (w 0)
      if data.length = 8 then s1.writeWord func.val (offset + 4) (w 1) else s1)

end Sys2Proof.Machine
end

