-- ==== Sys2Proof/Machine/Dispatch.lean ====
section
/-! DEFINITION. One arm for each command: a direct call of its meaning. -/

namespace Sys2Proof.Machine

def exec (i : Instr) (s : State) : Host.Outcome State Fault Refusal :=
  match i with
  | .beatBoundary => Sys2Proof.Machine.execBeatBoundary s
  | .collDeadline group beat => Sys2Proof.Machine.execCollDeadline group beat s
  | .traceBeatTrigger => Sys2Proof.Machine.execTraceBeatTrigger s
  | .watchdogExpiry source identity => Sys2Proof.Machine.execWatchdogExpiry source identity s
  | .localTick => Sys2Proof.Machine.execLocalTick s
  | .refreshSlot => Sys2Proof.Machine.execRefreshSlot s
  | .refreshOpportunistic core => Sys2Proof.Machine.execRefreshOpportunistic core s
  | .scrubRead core ups => Sys2Proof.Machine.execScrubRead core ups s
  | .incidentRateWindowEnd => Sys2Proof.Machine.execIncidentRateWindowEnd s
  | .fenceWindowEnd => Sys2Proof.Machine.execFenceWindowEnd s
  | .ringInterruptIntervalEnd ring => Sys2Proof.Machine.execRingInterruptIntervalEnd ring s
  | .incidentInterruptIntervalEnd => Sys2Proof.Machine.execIncidentInterruptIntervalEnd s
  | .carmineRecordRelease cgroup => Sys2Proof.Machine.execCarmineRecordRelease cgroup s
  | .summaryReadDone lines sep => Sys2Proof.Machine.execSummaryReadDone lines sep s
  | .doorbellReadDone ring record => Sys2Proof.Machine.execDoorbellReadDone ring record s
  | .descriptorReadDone ring ds => Sys2Proof.Machine.execDescriptorReadDone ring ds s
  | .consumerLineReadDone which line => Sys2Proof.Machine.execConsumerLineReadDone which line s
  | .hostReadFault what completerAbort => Sys2Proof.Machine.execHostReadFault what completerAbort s
  | .hostReadTimeout what => Sys2Proof.Machine.execHostReadTimeout what s
  | .ringEnable func ring word => Sys2Proof.Machine.execRingEnable func ring word s
  | .ringDisable func ring word => Sys2Proof.Machine.execRingDisable func ring word s
  | .nop o d => Sys2Proof.Machine.execNop o d s
  | .fence o d => Sys2Proof.Machine.execFence o d s
  | .copy o d => Sys2Proof.Machine.execCopy o d s
  | .fill o d => Sys2Proof.Machine.execFill o d s
  | .compare o d => Sys2Proof.Machine.execCompare o d s
  | .gather o d => Sys2Proof.Machine.execGather o d s
  | .spStrided o d => Sys2Proof.Machine.execSpStrided o d s
  | .spTranspose o d => Sys2Proof.Machine.execSpTranspose o d s
  | .t24Convert o d => Sys2Proof.Machine.execT24Convert o d s
  | .dmaStop o d => Sys2Proof.Machine.execDmaStop o d s
  | .streamAdmit o d => Sys2Proof.Machine.execStreamAdmit o d s
  | .append o d => Sys2Proof.Machine.execAppend o d s
  | .policy o d => Sys2Proof.Machine.execPolicy o d s
  | .fork o d => Sys2Proof.Machine.execFork o d s
  | .cancel o d => Sys2Proof.Machine.execCancel o d s
  | .release o d => Sys2Proof.Machine.execRelease o d s
  | .progLoad o d image => Sys2Proof.Machine.execProgLoad o d image s
  | .coreBind o d => Sys2Proof.Machine.execCoreBind o d s
  | .coreUnbind o d => Sys2Proof.Machine.execCoreUnbind o d s
  | .tile o d => Sys2Proof.Machine.execTile o d s
  | .tileBs o d => Sys2Proof.Machine.execTileBs o d s
  | .attn o d => Sys2Proof.Machine.execAttn o d s
  | .pageMove o d => Sys2Proof.Machine.execPageMove o d s
  | .objCreate o d => Sys2Proof.Machine.execObjCreate o d s
  | .accession o d => Sys2Proof.Machine.execAccession o d s
  | .objMap o d => Sys2Proof.Machine.execObjMap o d s
  | .objRelease o d => Sys2Proof.Machine.execObjRelease o d s
  | .migrate o d => Sys2Proof.Machine.execMigrate o d s
  | .objPin o d => Sys2Proof.Machine.execObjPin o d s
  | .objQuery o d => Sys2Proof.Machine.execObjQuery o d s
  | .winOpen o d => Sys2Proof.Machine.execWinOpen o d s
  | .winClose o d => Sys2Proof.Machine.execWinClose o d s
  | .winPut o d => Sys2Proof.Machine.execWinPut o d s
  | .winGet o d => Sys2Proof.Machine.execWinGet o d s
  | .coll o d => Sys2Proof.Machine.execColl o d s
  | .quiesce o d => Sys2Proof.Machine.execQuiesce o d s
  | .carLoad o d => Sys2Proof.Machine.execCarLoad o d s
  | .addnorm o d => Sys2Proof.Machine.execAddnorm o d s
  | .convert o d => Sys2Proof.Machine.execConvert o d s
  | .bcast o d => Sys2Proof.Machine.execBcast o d s
  | .merge o d => Sys2Proof.Machine.execMerge o d s
  | .psum o d => Sys2Proof.Machine.execPsum o d s
  | .sample o d => Sys2Proof.Machine.execSample o d s
  | .coreIssue core => Sys2Proof.Machine.execCoreIssue core s
  | .chunkLoadDone core ups => Sys2Proof.Machine.execChunkLoadDone core ups s
  | .broadcastChunkSend plinth => Sys2Proof.Machine.execBroadcastChunkSend plinth s
  | .tileComplete core ups => Sys2Proof.Machine.execTileComplete core ups s
  | .accumulatorDrainDone core bank ups => Sys2Proof.Machine.execAccumulatorDrainDone core bank ups s
  | .annexTileStart => Sys2Proof.Machine.execAnnexTileStart s
  | .annexTileComplete ups => Sys2Proof.Machine.execAnnexTileComplete ups s
  | .attnComplete core ups faults => Sys2Proof.Machine.execAttnComplete core ups faults s
  | .handleDrained core entry => Sys2Proof.Machine.execHandleDrained core entry s
  | .stepOpIssue group writes => Sys2Proof.Machine.execStepOpIssue group writes s
  | .cowCopyComplete stream slot => Sys2Proof.Machine.execCowCopyComplete stream slot s
  | .stepComplete group => Sys2Proof.Machine.execStepComplete group s
  | .endRecordWrite stream => Sys2Proof.Machine.execEndRecordWrite stream s
  | .appendTokensReadDone ring index tokens => Sys2Proof.Machine.execAppendTokensReadDone ring index tokens s
  | .forkComplete child => Sys2Proof.Machine.execForkComplete child s
  | .releaseExecute stream => Sys2Proof.Machine.execReleaseExecute stream s
  | .pageCopyMake page => Sys2Proof.Machine.execPageCopyMake page s
  | .pageMoveComplete page => Sys2Proof.Machine.execPageMoveComplete page s
  | .dmaChannelAcquire => Sys2Proof.Machine.execDmaChannelAcquire s
  | .dmaUnitReadDone channel data ups => Sys2Proof.Machine.execDmaUnitReadDone channel data ups s
  | .dmaUnitWriteDone channel ups => Sys2Proof.Machine.execDmaUnitWriteDone channel ups s
  | .dmaOpComplete channel => Sys2Proof.Machine.execDmaOpComplete channel s
  | .channelRequestServe core arrivals ups => Sys2Proof.Machine.execChannelRequestServe core arrivals ups s
  | .readRaw func plinth word => Sys2Proof.Machine.execReadRaw func plinth word s
  | .writeRaw func plinth word => Sys2Proof.Machine.execWriteRaw func plinth word s
  | .rowSpare func plinth word => Sys2Proof.Machine.execRowSpare func plinth word s
  | .colSpare func plinth word => Sys2Proof.Machine.execColSpare func plinth word s
  | .chSpare func plinth word => Sys2Proof.Machine.execChSpare func plinth word s
  | .mapRead func plinth word => Sys2Proof.Machine.execMapRead func plinth word s
  | .repairCommandDone plinth => Sys2Proof.Machine.execRepairCommandDone plinth s
  | .channelSpareCopy plinth bursts ups => Sys2Proof.Machine.execChannelSpareCopy plinth bursts ups s
  | .coreSpareSwitch core => Sys2Proof.Machine.execCoreSpareSwitch core s
  | .repairRecordWrite => Sys2Proof.Machine.execRepairRecordWrite s
  | .moverPanelStart ups => Sys2Proof.Machine.execMoverPanelStart ups s
  | .panelSwitch obj panel data => Sys2Proof.Machine.execPanelSwitch obj panel data s
  | .repairStart obj panel => Sys2Proof.Machine.execRepairStart obj panel s
  | .referenceReadDone obj panel data => Sys2Proof.Machine.execReferenceReadDone obj panel data s
  | .referenceReadRetry obj panel linkDown => Sys2Proof.Machine.execReferenceReadRetry obj panel linkDown s
  | .panelRewriteDone obj panel => Sys2Proof.Machine.execPanelRewriteDone obj panel s
  | .readbackDone obj panel ups => Sys2Proof.Machine.execReadbackDone obj panel ups s
  | .incidentRecordWrite => Sys2Proof.Machine.execIncidentRecordWrite s
  | .incidentRingEnable func word => Sys2Proof.Machine.execIncidentRingEnable func word s
  | .fencePop func word => Sys2Proof.Machine.execFencePop func word s
  | .fenceClear func word => Sys2Proof.Machine.execFenceClear func word s
  | .sourceClear func word => Sys2Proof.Machine.execSourceClear func word s
  | .registerWrite func offset data allEnabled => Sys2Proof.Machine.execRegisterWrite func offset data allEnabled s
  | .counterPairRead func offset len => Sys2Proof.Machine.execCounterPairRead func offset len s
  | .configurationCommit func word => Sys2Proof.Machine.execConfigurationCommit func word s
  | .commitCheckDone => Sys2Proof.Machine.execCommitCheckDone s
  | .orderlyHold func word => Sys2Proof.Machine.execOrderlyHold func word s
  | .holdEntry => Sys2Proof.Machine.execHoldEntry s
  | .beatUnitStart func word => Sys2Proof.Machine.execBeatUnitStart func word s
  | .beatUnitStop func word => Sys2Proof.Machine.execBeatUnitStop func word s
  | .snapshot func word => Sys2Proof.Machine.execSnapshot func word s
  | .snapshotDone func => Sys2Proof.Machine.execSnapshotDone func s
  | .dump func word => Sys2Proof.Machine.execDump func word s
  | .dumpDone => Sys2Proof.Machine.execDumpDone s
  | .freeze func word => Sys2Proof.Machine.execFreeze func word s
  | .thaw func word => Sys2Proof.Machine.execThaw func word s
  | .mark func word => Sys2Proof.Machine.execMark func word s
  | .arm func word => Sys2Proof.Machine.execArm func word s
  | .traceStop func word => Sys2Proof.Machine.execTraceStop func word s
  | .trigger func word => Sys2Proof.Machine.execTrigger func word s
  | .traceRecordWrite => Sys2Proof.Machine.execTraceRecordWrite s
  | .traceRecordDrop fifo => Sys2Proof.Machine.execTraceRecordDrop fifo s
  | .traceCaptureEnd => Sys2Proof.Machine.execTraceCaptureEnd s
  | .commit func word => Sys2Proof.Machine.execCommit func word s
  | .revert func word => Sys2Proof.Machine.execRevert func word s
  | .debugApertureAccess offset len write => Sys2Proof.Machine.execDebugApertureAccess offset len write s
  | .linkCtrlReceive port hdr payload => Sys2Proof.Machine.execLinkCtrlReceive port hdr payload s
  | .linkCtrlSend port => Sys2Proof.Machine.execLinkCtrlSend port s
  | .dataForward port hdr payload => Sys2Proof.Machine.execDataForward port hdr payload s
  | .syncReceive from_ hdr payload rx16 => Sys2Proof.Machine.execSyncReceive from_ hdr payload rx16 s
  | .noticeReceive from_ hdr payload => Sys2Proof.Machine.execNoticeReceive from_ hdr payload s
  | .noticePairExpiry => Sys2Proof.Machine.execNoticePairExpiry s
  | .put port hdr sub data => Sys2Proof.Machine.execPut port hdr sub data s
  | .getReq port hdr sub len outside ups => Sys2Proof.Machine.execGetReq port hdr sub len outside ups s
  | .getData port hdr sub data => Sys2Proof.Machine.execGetData port hdr sub data s
  | .ack port hdr payload => Sys2Proof.Machine.execAck port hdr payload s
  | .ackTimer win src opid => Sys2Proof.Machine.execAckTimer win src opid s
  | .windowOpTimeout opid => Sys2Proof.Machine.execWindowOpTimeout opid s
  | .windowOpComplete opid => Sys2Proof.Machine.execWindowOpComplete opid s
  | .winCloseComplete win => Sys2Proof.Machine.execWinCloseComplete win s
  | .collDataReceive port hdr sub data => Sys2Proof.Machine.execCollDataReceive port hdr sub data s
  | .hole port hdr sub => Sys2Proof.Machine.execHole port hdr sub s
  | .collComplete group beat => Sys2Proof.Machine.execCollComplete group beat s
  | .carouselSlotStart slot => Sys2Proof.Machine.execCarouselSlotStart slot s
  | .portTrainingDone port => Sys2Proof.Machine.execPortTrainingDone port s
  | .portTrainingTimeout port => Sys2Proof.Machine.execPortTrainingTimeout port s
  | .portFailure port cause => Sys2Proof.Machine.execPortFailure port cause s
  | .linkIdleTimeout port => Sys2Proof.Machine.execLinkIdleTimeout port s
  | .portRetrainTimer port => Sys2Proof.Machine.execPortRetrainTimer port s
  | .beatLoss cause => Sys2Proof.Machine.execBeatLoss cause s
  | .deviceReset perst helper rpmcTagsOk strapPos strapSmba => Sys2Proof.Machine.execDeviceReset perst helper rpmcTagsOk strapPos strapSmba s
  | .bootImageVerified slotA slotB => Sys2Proof.Machine.execBootImageVerified slotA slotB s
  | .channelTrainingDone plinths => Sys2Proof.Machine.execChannelTrainingDone plinths s
  | .selfTestDone fails annexFailed => Sys2Proof.Machine.execSelfTestDone fails annexFailed s
  | .pwrgdFall => Sys2Proof.Machine.execPwrgdFall s
  | .vfFunctionLevelReset vf => Sys2Proof.Machine.execVfFunctionLevelReset vf s
  | .vfResetComplete vf => Sys2Proof.Machine.execVfResetComplete vf s
  | .pfResetOrLinkLoss => Sys2Proof.Machine.execPfResetOrLinkLoss s
  | .thermalSample samples => Sys2Proof.Machine.execThermalSample samples s
  | .sysclkLoss => Sys2Proof.Machine.execSysclkLoss s
  | .brlclkLoss => Sys2Proof.Machine.execBrlclkLoss s
  | .mctpMessage transport sensor => Sys2Proof.Machine.execMctpMessage transport sensor s
  | .pldmFirmwareUpdate transport session chunk => Sys2Proof.Machine.execPldmFirmwareUpdate transport session chunk s
  | .activateFirmware session image => Sys2Proof.Machine.execActivateFirmware session image s
  | .getVersion transport => Sys2Proof.Machine.execGetVersion transport s
  | .getCapabilities transport => Sys2Proof.Machine.execGetCapabilities transport s
  | .negotiateAlgorithms transport => Sys2Proof.Machine.execNegotiateAlgorithms transport s
  | .getDigests transport => Sys2Proof.Machine.execGetDigests transport s
  | .getCertificate transport slot offset length => Sys2Proof.Machine.execGetCertificate transport slot offset length s
  | .challenge transport slot nonce => Sys2Proof.Machine.execChallenge transport slot nonce s
  | .getMeasurements transport index => Sys2Proof.Machine.execGetMeasurements transport index s
  | .keyExchange transport exchange => Sys2Proof.Machine.execKeyExchange transport exchange s
  | .finish session verified => Sys2Proof.Machine.execFinish session verified s
  | .keyUpdate session => Sys2Proof.Machine.execKeyUpdate session s
  | .heartbeat session => Sys2Proof.Machine.execHeartbeat session s
  | .endSession session => Sys2Proof.Machine.execEndSession session s
  | .setCertificate session slot chain => Sys2Proof.Machine.execSetCertificate session slot chain s
  | .debugUnlock session nonce kidx identityOk sigOk => Sys2Proof.Machine.execDebugUnlock session nonce kidx identityOk sigOk s
  | .macsecKeyInstall session plane assoc key effect => Sys2Proof.Machine.execMacsecKeyInstall session plane assoc key effect s
  | .ideKm session stream key vfs => Sys2Proof.Machine.execIdeKm session stream key vfs s
  | .ideIntegrityFailure stream => Sys2Proof.Machine.execIdeIntegrityFailure stream s
  | .lockInterface vf => Sys2Proof.Machine.execLockInterface vf s
  | .startInterface vf => Sys2Proof.Machine.execStartInterface vf s
  | .stopInterface vf => Sys2Proof.Machine.execStopInterface vf s
  | .packetDiscard port reason => Sys2Proof.Machine.execPacketDiscard port reason s
  | .bindZeroFillDone core entry => Sys2Proof.Machine.execBindZeroFillDone core entry s
  | .hubOperationComplete op => Sys2Proof.Machine.execHubOperationComplete op s
  | .mapImageReadDone ring index image => Sys2Proof.Machine.execMapImageReadDone ring index image s
  | .pcieLinkTrained width rate flit => Sys2Proof.Machine.execPcieLinkTrained width rate flit s

end Sys2Proof.Machine
end

