-- ==== Sys2Proof/Safety.lean ====
section
/-! DEFINITION. What counts as a safe run, and the words the claims are stated in: runs that no fault and no refusal ends,
the pieces of the state and what each command may write of it, acceptance of a descriptor and the record that answers it,
and the invariants. -/

namespace Sys2Proof.Machine

/-- A run from one state to another by the commands of a list, none of which ends in a fault or a refusal. -/
inductive SafeRun : State → List Instr → State → Prop where
  | none (s : State) : SafeRun s [] s
  | more {s t u : State} {c : Instr} {l : List Instr} (h : exec c s = .next t) (r : SafeRun t l u) : SafeRun s (c :: l) u

/-! ### The pieces of the state, and what a command may write -/

/-- The pieces of the state, one for every field: what a command may write is said as a list of them. -/
inductive Leaf where
  | pending | regs | inForce | vfRegs | mem | chk | bad | ctlSt | ctlPower | ctlHcause | ctlCommitted | ctlCLast
  | ctlCCause | ctlCBusy | ctlCSeq | ctlCErr | ctlWerr | ctlBootStep | ctlShort | ctlCores | ctlChannels | ctlRepRows
  | ctlRepCols | ctlRepSkip | ctlHoldReq | ctlHolding | ctlLatches | ctlStrapPos | ctlStrapSmba | ctlThermTrip
  | ctlRepDirty | hifRings | hifInflight | hifFences | hifPoll | hifConsNext | hifLinkWidth | hifLinkRate
  | hifLinkFlit | hifMsixTable | hifMsixPend | hifOwedVecs | hifInReset | hifOwed | dmaOps | dmaStops | dmaNextOpid
  | dmaLastRd | dmaLastWr | dmaRdEng | dmaWrEng | docCtxs | docAppends | docPolicies | docCancels | docReleases
  | docProgs | docGroups | docCgroups | docNextGroup | docOvercommit | docSuspended | docOwedNotices | curPages
  | curFrames | curMaps | curLimbo | curCows | curForks | curMoves | curLost | curLostCtx | curRetired | curStaged
  | curFreed | curFresh | tiersObjs | tiersPanels | tiersMaps | tiersMigs | tiersMoving | tiersT0used | tiersRepairs
  | tiersWriteQ | tiersObjRun | tiersObjWait | cores | chans | plinths | fins | outBases | annexQueue | annexRunning
  | annexBank0 | annexBank1 | annexFail | fabPorts | fabBeat | fabLinks | fabPlanes | fabSeen | fabSerial
  | fabPendNotices | fabQuiesces | fabMacsec | fabMacSend | fabAnnounced | fabCarMap | fabCarPend | fabCarLoads
  | fabCarWait | fabColls | fabArrivals | fabArrOrder | fabSentSlots | fabWindows | rasSources | rasQueue | rasW
  | rasCons | rasOvf | rasIntLeft | rasIntPend | rasIntEnd | catCounters | catRings | catWaits | catStarted
  | catFrozen | catFcause | catDumpBusy | catDumpFroze | catWdQuiet | catWbeat | catFenceWin | catSnaps | catTrace
  | secSt | secCause | secSlot | secTrial | secDebug | secImage | secSeeded | secGenKey | secTdis | secSessions
  | secSpdm | secIdes | secMeasured | secUpdate | secEvents | secEid | flashDir0 | flashDir1 | flashRep0 | flashRep1
  | flashRpmc | flashRpmcKey | flashCert1 | flashSlots | hubOps | nextOp | free | out
  deriving DecidableEq, Repr

/-- The piece is the same in both states. -/
def Leaf.Same (s t : State) : Leaf → Prop
  | .pending => t.pending = s.pending
  | .regs => t.regs = s.regs
  | .inForce => t.inForce = s.inForce
  | .vfRegs => t.vfRegs = s.vfRegs
  | .mem => t.mem = s.mem
  | .chk => t.chk = s.chk
  | .bad => t.bad = s.bad
  | .ctlSt => t.ctl.st = s.ctl.st
  | .ctlPower => t.ctl.power = s.ctl.power
  | .ctlHcause => t.ctl.hcause = s.ctl.hcause
  | .ctlCommitted => t.ctl.committed = s.ctl.committed
  | .ctlCLast => t.ctl.cLast = s.ctl.cLast
  | .ctlCCause => t.ctl.cCause = s.ctl.cCause
  | .ctlCBusy => t.ctl.cBusy = s.ctl.cBusy
  | .ctlCSeq => t.ctl.cSeq = s.ctl.cSeq
  | .ctlCErr => t.ctl.cErr = s.ctl.cErr
  | .ctlWerr => t.ctl.werr = s.ctl.werr
  | .ctlBootStep => t.ctl.bootStep = s.ctl.bootStep
  | .ctlShort => t.ctl.short = s.ctl.short
  | .ctlCores => t.ctl.cores = s.ctl.cores
  | .ctlChannels => t.ctl.channels = s.ctl.channels
  | .ctlRepRows => t.ctl.repRows = s.ctl.repRows
  | .ctlRepCols => t.ctl.repCols = s.ctl.repCols
  | .ctlRepSkip => t.ctl.repSkip = s.ctl.repSkip
  | .ctlHoldReq => t.ctl.holdReq = s.ctl.holdReq
  | .ctlHolding => t.ctl.holding = s.ctl.holding
  | .ctlLatches => t.ctl.latches = s.ctl.latches
  | .ctlStrapPos => t.ctl.strapPos = s.ctl.strapPos
  | .ctlStrapSmba => t.ctl.strapSmba = s.ctl.strapSmba
  | .ctlThermTrip => t.ctl.thermTrip = s.ctl.thermTrip
  | .ctlRepDirty => t.ctl.repDirty = s.ctl.repDirty
  | .hifRings => t.hif.rings = s.hif.rings
  | .hifInflight => t.hif.inflight = s.hif.inflight
  | .hifFences => t.hif.fences = s.hif.fences
  | .hifPoll => t.hif.poll = s.hif.poll
  | .hifConsNext => t.hif.consNext = s.hif.consNext
  | .hifLinkWidth => t.hif.linkWidth = s.hif.linkWidth
  | .hifLinkRate => t.hif.linkRate = s.hif.linkRate
  | .hifLinkFlit => t.hif.linkFlit = s.hif.linkFlit
  | .hifMsixTable => t.hif.msixTable = s.hif.msixTable
  | .hifMsixPend => t.hif.msixPend = s.hif.msixPend
  | .hifOwedVecs => t.hif.owedVecs = s.hif.owedVecs
  | .hifInReset => t.hif.inReset = s.hif.inReset
  | .hifOwed => t.hif.owed = s.hif.owed
  | .dmaOps => t.dma.ops = s.dma.ops
  | .dmaStops => t.dma.stops = s.dma.stops
  | .dmaNextOpid => t.dma.nextOpid = s.dma.nextOpid
  | .dmaLastRd => t.dma.lastRd = s.dma.lastRd
  | .dmaLastWr => t.dma.lastWr = s.dma.lastWr
  | .dmaRdEng => t.dma.rdEng = s.dma.rdEng
  | .dmaWrEng => t.dma.wrEng = s.dma.wrEng
  | .docCtxs => t.doc.ctxs = s.doc.ctxs
  | .docAppends => t.doc.appends = s.doc.appends
  | .docPolicies => t.doc.policies = s.doc.policies
  | .docCancels => t.doc.cancels = s.doc.cancels
  | .docReleases => t.doc.releases = s.doc.releases
  | .docProgs => t.doc.progs = s.doc.progs
  | .docGroups => t.doc.groups = s.doc.groups
  | .docCgroups => t.doc.cgroups = s.doc.cgroups
  | .docNextGroup => t.doc.nextGroup = s.doc.nextGroup
  | .docOvercommit => t.doc.overcommit = s.doc.overcommit
  | .docSuspended => t.doc.suspended = s.doc.suspended
  | .docOwedNotices => t.doc.owedNotices = s.doc.owedNotices
  | .curPages => t.cur.pages = s.cur.pages
  | .curFrames => t.cur.frames = s.cur.frames
  | .curMaps => t.cur.maps = s.cur.maps
  | .curLimbo => t.cur.limbo = s.cur.limbo
  | .curCows => t.cur.cows = s.cur.cows
  | .curForks => t.cur.forks = s.cur.forks
  | .curMoves => t.cur.moves = s.cur.moves
  | .curLost => t.cur.lost = s.cur.lost
  | .curLostCtx => t.cur.lostCtx = s.cur.lostCtx
  | .curRetired => t.cur.retired = s.cur.retired
  | .curStaged => t.cur.staged = s.cur.staged
  | .curFreed => t.cur.freed = s.cur.freed
  | .curFresh => t.cur.fresh = s.cur.fresh
  | .tiersObjs => t.tiers.objs = s.tiers.objs
  | .tiersPanels => t.tiers.panels = s.tiers.panels
  | .tiersMaps => t.tiers.maps = s.tiers.maps
  | .tiersMigs => t.tiers.migs = s.tiers.migs
  | .tiersMoving => t.tiers.moving = s.tiers.moving
  | .tiersT0used => t.tiers.t0used = s.tiers.t0used
  | .tiersRepairs => t.tiers.repairs = s.tiers.repairs
  | .tiersWriteQ => t.tiers.writeQ = s.tiers.writeQ
  | .tiersObjRun => t.tiers.objRun = s.tiers.objRun
  | .tiersObjWait => t.tiers.objWait = s.tiers.objWait
  | .cores => t.cores = s.cores
  | .chans => t.chans = s.chans
  | .plinths => t.plinths = s.plinths
  | .fins => t.fins = s.fins
  | .outBases => t.outBases = s.outBases
  | .annexQueue => t.annex.queue = s.annex.queue
  | .annexRunning => t.annex.running = s.annex.running
  | .annexBank0 => t.annex.bank0 = s.annex.bank0
  | .annexBank1 => t.annex.bank1 = s.annex.bank1
  | .annexFail => t.annex.fail = s.annex.fail
  | .fabPorts => t.fab.ports = s.fab.ports
  | .fabBeat => t.fab.beat = s.fab.beat
  | .fabLinks => t.fab.links = s.fab.links
  | .fabPlanes => t.fab.planes = s.fab.planes
  | .fabSeen => t.fab.seen = s.fab.seen
  | .fabSerial => t.fab.serial = s.fab.serial
  | .fabPendNotices => t.fab.pendNotices = s.fab.pendNotices
  | .fabQuiesces => t.fab.quiesces = s.fab.quiesces
  | .fabMacsec => t.fab.macsec = s.fab.macsec
  | .fabMacSend => t.fab.macSend = s.fab.macSend
  | .fabAnnounced => t.fab.announced = s.fab.announced
  | .fabCarMap => t.fab.carMap = s.fab.carMap
  | .fabCarPend => t.fab.carPend = s.fab.carPend
  | .fabCarLoads => t.fab.carLoads = s.fab.carLoads
  | .fabCarWait => t.fab.carWait = s.fab.carWait
  | .fabColls => t.fab.colls = s.fab.colls
  | .fabArrivals => t.fab.arrivals = s.fab.arrivals
  | .fabArrOrder => t.fab.arrOrder = s.fab.arrOrder
  | .fabSentSlots => t.fab.sentSlots = s.fab.sentSlots
  | .fabWindows => t.fab.windows = s.fab.windows
  | .rasSources => t.ras.sources = s.ras.sources
  | .rasQueue => t.ras.queue = s.ras.queue
  | .rasW => t.ras.w = s.ras.w
  | .rasCons => t.ras.cons = s.ras.cons
  | .rasOvf => t.ras.ovf = s.ras.ovf
  | .rasIntLeft => t.ras.intLeft = s.ras.intLeft
  | .rasIntPend => t.ras.intPend = s.ras.intPend
  | .rasIntEnd => t.ras.intEnd = s.ras.intEnd
  | .catCounters => t.cat.counters = s.cat.counters
  | .catRings => t.cat.rings = s.cat.rings
  | .catWaits => t.cat.waits = s.cat.waits
  | .catStarted => t.cat.started = s.cat.started
  | .catFrozen => t.cat.frozen = s.cat.frozen
  | .catFcause => t.cat.fcause = s.cat.fcause
  | .catDumpBusy => t.cat.dumpBusy = s.cat.dumpBusy
  | .catDumpFroze => t.cat.dumpFroze = s.cat.dumpFroze
  | .catWdQuiet => t.cat.wdQuiet = s.cat.wdQuiet
  | .catWbeat => t.cat.wbeat = s.cat.wbeat
  | .catFenceWin => t.cat.fenceWin = s.cat.fenceWin
  | .catSnaps => t.cat.snaps = s.cat.snaps
  | .catTrace => t.cat.trace = s.cat.trace
  | .secSt => t.sec.st = s.sec.st
  | .secCause => t.sec.cause = s.sec.cause
  | .secSlot => t.sec.slot = s.sec.slot
  | .secTrial => t.sec.trial = s.sec.trial
  | .secDebug => t.sec.debug = s.sec.debug
  | .secImage => t.sec.image = s.sec.image
  | .secSeeded => t.sec.seeded = s.sec.seeded
  | .secGenKey => t.sec.genKey = s.sec.genKey
  | .secTdis => t.sec.tdis = s.sec.tdis
  | .secSessions => t.sec.sessions = s.sec.sessions
  | .secSpdm => t.sec.spdm = s.sec.spdm
  | .secIdes => t.sec.ides = s.sec.ides
  | .secMeasured => t.sec.measured = s.sec.measured
  | .secUpdate => t.sec.update = s.sec.update
  | .secEvents => t.sec.events = s.sec.events
  | .secEid => t.sec.eid = s.sec.eid
  | .flashDir0 => t.sec.flash.dir0 = s.sec.flash.dir0
  | .flashDir1 => t.sec.flash.dir1 = s.sec.flash.dir1
  | .flashRep0 => t.sec.flash.rep0 = s.sec.flash.rep0
  | .flashRep1 => t.sec.flash.rep1 = s.sec.flash.rep1
  | .flashRpmc => t.sec.flash.rpmc = s.sec.flash.rpmc
  | .flashRpmcKey => t.sec.flash.rpmcKey = s.sec.flash.rpmcKey
  | .flashCert1 => t.sec.flash.cert1 = s.sec.flash.cert1
  | .flashSlots => t.sec.flash.slots = s.sec.flash.slots
  | .hubOps => t.hubOps = s.hubOps
  | .nextOp => t.nextOp = s.nextOp
  | .free => t.free = s.free
  | .out => t.out = s.out

/-- The second state differs from the first in no piece but those of the list. -/
def State.Only (l : List Leaf) (s t : State) : Prop := ∀ p, p ∉ l → Leaf.Same s t p

/-- An event record, offered to the trace (R456, R465). -/
def wEvent : List Leaf := [.catRings, .catTrace, .free]

/-- An incident of a source (R408). -/
def wIncident : List Leaf := [.rasSources, .rasQueue, .rasOvf] ++ wEvent

/-- The completion of an operation: its record, its FENCE, its place in its step (R253, R254, R403). -/
def wRecord : List Leaf := [.hifRings, .hifInflight, .hifFences, .docGroups, .catCounters, .catStarted, .out] ++ wEvent

/-- A descriptor taken in, refused or with an effect that ends at once (R242, R249). -/
def wAccept : List Leaf := [.nextOp] ++ wRecord

/-- A wait that begins or ends (R460). -/
def wWait : List Leaf := [.catCounters, .catWaits] ++ wEvent

/-- Channel bursts read or written, with their errors accounted (R297, R298, R411). -/
def wBurst : List Leaf := [.mem, .chk, .cores, .catCounters] ++ wIncident

/-- Scratchpad or hall words read or written, with their errors accounted (R84, R400). -/
def wSram : List Leaf := [.mem, .bad, .catCounters] ++ wIncident

/-- Bursts and words of any memory. -/
def wMemory : List Leaf := wBurst ++ wSram

/-- A table line or a context found lost (R402). -/
def wLost : List Leaf := [.curLost, .curLostCtx]

/-- A panel that a repair watches (R286). -/
def wPanel : List Leaf := [.tiersPanels, .tiersRepairs]

/-- A packet queued at a port (R326). -/
def wSend : List Leaf := [.fabPorts, .catCounters, .docGroups, .out] ++ wEvent

/-- A port that leaves or enters UP, with the notices and beats that follow (R340, R352). -/
def wLink : List Leaf := [.fabBeat, .fabLinks, .fabPlanes, .fabSeen, .fabSerial, .fabPendNotices, .fabQuiesces,
  .fabMacSend, .fabAnnounced] ++ wSend

/-- Object operations that go on or end (R325, R331). -/
def wObjects : List Leaf := [.tiersObjs, .tiersPanels, .tiersMaps, .tiersMigs, .tiersT0used, .tiersRepairs, .tiersObjRun,
  .tiersObjWait] ++ wRecord

/-- A DMA operation that leaves, with the stop and the mapping it held up (R281, R288). -/
def wMoverDone : List Leaf := [.dmaOps, .dmaStops, .cores, .tiersWriteQ] ++ wObjects ++ wWait

/-- Every piece but those of a list. -/
def allBut (l : List Leaf) : List Leaf := ((List.range 165).map Leaf.ofNat).filter (fun p => !l.contains p)

/-- Pieces that most commands of wide effect leave as they are. -/
def kept : List Leaf := [.pending, .vfRegs, .ctlPower, .ctlCommitted, .ctlCLast, .ctlCCause, .ctlCSeq, .ctlCErr,
  .ctlShort, .ctlCores, .ctlChannels, .ctlRepRows, .ctlRepCols, .ctlRepSkip, .ctlLatches, .ctlStrapPos, .ctlStrapSmba,
  .ctlThermTrip, .hifLinkWidth, .hifLinkRate, .hifLinkFlit, .hifMsixTable, .curLost, .curLostCtx, .annexFail, .fabMacsec,
  .fabArrOrder, .rasW, .rasCons, .catDumpBusy, .catWdQuiet, .catFenceWin, .secSt, .secCause, .secSlot, .secTrial,
  .secDebug, .secImage, .secSeeded, .secGenKey, .secSessions, .secSpdm, .secIdes, .secMeasured, .secUpdate, .secEid,
  .flashDir0, .flashDir1, .flashRep0, .flashRep1, .flashRpmc, .flashRpmcKey, .flashCert1, .flashSlots]

/-- What each command may write; a command that does nothing in a state writes none of it. -/
def writes (c : Instr) : List Leaf :=
  match c with
  | .beatBoundary => allBut (kept ++ [.regs, .ctlSt, .ctlHcause, .ctlCBusy, .ctlWerr, .ctlBootStep, .ctlRepDirty,
      .hifInReset, .docOwedNotices, .curCows, .curStaged, .tiersMoving, .fins, .outBases, .annexQueue, .annexRunning,
      .annexBank0, .annexBank1, .secTdis])
  | .collDeadline _ _ => [.fabArrivals]
  | .traceBeatTrigger => wIncident ++ [.mem, .bad, .catFrozen, .catFcause]
  | .watchdogExpiry _ _ => wIncident ++ [.catFrozen, .catFcause, .catWdQuiet]
  | .localTick => wIncident ++ [.hifRings, .hifMsixPend, .hifOwedVecs, .plinths, .rasIntLeft, .rasIntPend, .rasIntEnd,
      .catCounters, .catWbeat, .secEvents, .out]
  | .refreshSlot => wEvent ++ [.chans, .catCounters]
  | .refreshOpportunistic _ => [.chans, .catCounters]
  | .scrubRead _ _ => wMemory ++ wLost ++ wPanel ++ [.chans]
  | .incidentRateWindowEnd => [.rasSources, .rasQueue]
  | .fenceWindowEnd => [.cores, .catFenceWin]
  | .ringInterruptIntervalEnd _ => [.hifRings, .hifMsixPend, .out]
  | .incidentInterruptIntervalEnd => [.hifMsixPend, .rasIntLeft, .rasIntPend, .rasIntEnd, .out]
  | .carmineRecordRelease _ => wRecord ++ [.hifOwedVecs, .docCtxs, .docAppends, .docCancels, .docCgroups]
  | .summaryReadDone _ _ => [.hifRings, .hifPoll, .catCounters, .out]
  | .doorbellReadDone _ _ => [.hifRings, .hifPoll, .catCounters, .out]
  | .descriptorReadDone _ _ => allBut (kept ++ [.regs, .inForce, .ctlSt, .ctlHcause, .ctlCBusy, .ctlWerr, .ctlBootStep,
      .ctlHoldReq, .ctlHolding, .ctlRepDirty, .hifConsNext, .hifMsixPend, .hifOwedVecs, .hifInReset, .hifOwed,
      .docNextGroup, .docOwedNotices, .curPages, .curLimbo, .curCows, .curRetired, .curStaged, .curFreed, .curFresh,
      .tiersMoving, .chans, .plinths, .fins, .outBases, .annexQueue, .annexRunning, .annexBank0, .annexBank1,
      .fabAnnounced, .fabCarMap, .fabCarPend, .fabCarWait, .fabArrivals, .fabSentSlots, .rasIntLeft, .rasIntPend,
      .rasIntEnd, .catFrozen, .catFcause, .catDumpFroze, .catWbeat, .catSnaps, .secTdis, .secEvents])
  | .consumerLineReadDone _ _ => [.hifPoll, .docCtxs, .rasCons, .catCounters]
  | .hostReadFault _ _ => allBut (kept ++ [.regs, .inForce, .ctlSt, .ctlHcause, .ctlCBusy, .ctlWerr, .ctlBootStep,
      .ctlHoldReq, .ctlHolding, .ctlRepDirty, .hifConsNext, .hifMsixPend, .hifOwedVecs, .hifInReset, .hifOwed,
      .docNextGroup, .docOwedNotices, .curPages, .curLimbo, .curCows, .curRetired, .curStaged, .curFreed, .curFresh,
      .chans, .plinths, .fins, .outBases, .annexQueue, .annexRunning, .annexBank0, .annexBank1, .fabAnnounced,
      .fabCarMap, .fabCarPend, .fabCarWait, .fabArrivals, .fabSentSlots, .rasIntLeft, .rasIntPend, .rasIntEnd,
      .catFrozen, .catFcause, .catDumpFroze, .catWbeat, .catSnaps, .secTdis, .secEvents])
  | .hostReadTimeout _ => allBut (kept ++ [.regs, .inForce, .ctlSt, .ctlHcause, .ctlCBusy, .ctlWerr, .ctlBootStep,
      .ctlHoldReq, .ctlHolding, .ctlRepDirty, .hifConsNext, .hifMsixPend, .hifOwedVecs, .hifInReset, .hifOwed,
      .docNextGroup, .docOwedNotices, .curPages, .curLimbo, .curCows, .curRetired, .curStaged, .curFreed, .curFresh,
      .chans, .plinths, .fins, .outBases, .annexQueue, .annexRunning, .annexBank0, .annexBank1, .fabAnnounced,
      .fabCarMap, .fabCarPend, .fabCarWait, .fabArrivals, .fabSentSlots, .rasIntLeft, .rasIntPend, .rasIntEnd,
      .catFrozen, .catFcause, .catDumpFroze, .catWbeat, .catSnaps, .secTdis, .secEvents])
  | .ringEnable _ _ _ => [.regs, .ctlWerr, .hifRings]
  | .ringDisable _ _ _ => [.regs, .ctlWerr, .hifRings]
  | .nop _ _ => wAccept
  | .fence _ _ => wAccept
  | .copy _ _ => wMoverDone ++ [.nextOp]
  | .fill _ _ => wMoverDone ++ [.nextOp]
  | .compare _ _ => wMoverDone ++ [.nextOp]
  | .gather _ _ => wMoverDone ++ [.nextOp]
  | .spStrided _ _ => wMoverDone ++ [.nextOp]
  | .spTranspose _ _ => wMoverDone ++ [.nextOp]
  | .t24Convert _ _ => wMoverDone ++ [.nextOp]
  | .dmaStop _ _ => wMoverDone ++ [.nextOp]
  | .streamAdmit _ _ => wAccept ++ [.docCtxs, .docCgroups, .curMaps]
  | .append _ _ => wAccept ++ [.docAppends]
  | .policy _ _ => wAccept ++ [.docPolicies, .docCgroups, .docOvercommit, .docSuspended]
  | .fork _ _ => wAccept ++ [.docCtxs, .curMaps, .curForks]
  | .cancel _ _ => wAccept ++ [.docCtxs, .docCancels]
  | .release _ _ => wAccept ++ [.docCtxs, .docReleases]
  | .progLoad _ _ _ => wIncident ++ wAccept ++ wPanel ++ [.dmaOps, .dmaStops, .dmaNextOpid, .dmaLastRd, .dmaLastWr,
      .dmaRdEng, .dmaWrEng, .docProgs, .tiersObjs, .fabPorts]
  | .coreBind _ _ => wAccept ++ [.cores]
  | .coreUnbind _ _ => wAccept ++ [.cores]
  | .tile _ _ => wAccept ++ [.cores]
  | .tileBs _ _ => wAccept ++ [.cores]
  | .attn _ _ => wAccept ++ [.cores]
  | .pageMove _ _ => wAccept ++ [.curFrames, .curMoves]
  | .objCreate _ _ => wMemory ++ wObjects ++ [.nextOp]
  | .accession _ _ => wObjects ++ [.nextOp]
  | .objMap _ _ => wObjects ++ [.nextOp]
  | .objRelease _ _ => wObjects ++ [.nextOp]
  | .migrate _ _ => wObjects ++ [.nextOp]
  | .objPin _ _ => wObjects ++ [.nextOp]
  | .objQuery _ _ => wObjects ++ [.nextOp]
  | .winOpen _ _ => wAccept ++ [.tiersObjs, .cores, .fabWindows]
  | .winClose _ _ => wAccept ++ [.fabWindows]
  | .winPut _ _ => wMoverDone ++ [.dmaNextOpid, .fabPorts, .nextOp]
  | .winGet _ _ => wMoverDone ++ [.dmaNextOpid, .fabPorts, .nextOp]
  | .coll _ _ => wAccept ++ wSram ++ wPanel ++ [.fabColls]
  | .quiesce _ _ => wAccept ++ [.fabPorts, .fabBeat, .fabLinks, .fabPlanes, .fabSeen, .fabSerial, .fabPendNotices,
      .fabQuiesces, .fabMacSend]
  | .carLoad _ _ => wAccept ++ [.fabCarLoads]
  | .addnorm _ _ => wAccept ++ [.hubOps]
  | .convert _ _ => wAccept ++ [.hubOps]
  | .bcast _ _ => wAccept ++ [.cores, .plinths, .hubOps]
  | .merge _ _ => wAccept ++ [.hubOps]
  | .psum _ _ => wAccept ++ [.hubOps]
  | .sample _ _ => wAccept ++ [.hubOps]
  | .coreIssue _ => wIncident ++ wMoverDone ++ [.chans, .outBases, .annexQueue]
  | .chunkLoadDone _ _ => wMemory ++ wLost ++ [.annexRunning, .catWaits]
  | .broadcastChunkSend _ => wSram ++ wPanel ++ [.cores, .plinths, .catWaits]
  | .tileComplete _ _ => wRecord ++ wMemory ++ wLost ++ wPanel ++ [.chans, .annexQueue, .catWaits]
  | .accumulatorDrainDone _ _ _ => wRecord ++ wMemory ++ wLost ++ [.fins, .catWaits, .catFenceWin]
  | .annexTileStart => wEvent ++ [.annexQueue, .annexRunning, .annexBank0, .annexBank1, .catStarted]
  | .annexTileComplete _ => wRecord ++ wMemory ++ wLost ++ wPanel ++ [.chans, .fins, .annexQueue, .annexRunning,
      .annexBank0, .annexBank1, .annexFail, .catWaits]
  | .attnComplete _ _ _ => wRecord ++ wMemory ++ wLost ++ wPanel ++ [.chans, .catWaits, .catFenceWin]
  | .handleDrained _ _ => wRecord ++ [.cores]
  | .stepOpIssue _ _ => wMemory ++ wLost ++ wMoverDone ++ [.hifOwedVecs, .docCtxs, .curPages, .curFrames, .curMaps,
      .curLimbo, .curCows, .curForks, .curMoves, .curRetired, .curStaged, .curFreed, .curFresh, .chans, .plinths,
      .fabColls, .hubOps, .nextOp]
  | .cowCopyComplete _ _ => wBurst ++ wPanel ++ [.docGroups, .curPages, .curCows, .curStaged, .chans]
  | .stepComplete _ => wRecord ++ [.hifOwedVecs, .docCtxs, .docAppends, .docCancels, .docCgroups, .curFrames, .curMaps,
      .curCows, .curStaged]
  | .endRecordWrite _ => wRecord ++ [.hifOwedVecs, .docCtxs]
  | .appendTokensReadDone _ _ _ => wRecord ++ [.docCtxs, .docAppends]
  | .forkComplete _ => wRecord ++ [.docCtxs, .curPages, .curMaps, .curForks]
  | .releaseExecute _ => wIncident ++ wRecord ++ wLost ++ [.hifOwedVecs, .docCtxs, .docReleases, .docCgroups, .curPages,
      .curFrames, .curMaps, .curLimbo, .curCows, .curForks, .curMoves, .curRetired, .curStaged, .curFreed, .curFresh]
  | .pageCopyMake _ => wBurst ++ wPanel ++ [.curPages, .curFrames, .curFreed, .curFresh, .chans]
  | .pageMoveComplete _ => wRecord ++ wBurst ++ wPanel ++ [.curPages, .curFrames, .curLimbo, .curMoves, .chans]
  | .dmaChannelAcquire => wMoverDone
  | .dmaUnitReadDone _ _ _ => wMemory ++ wLost ++ wPanel ++ wSend ++ [.dmaOps, .dmaStops, .dmaNextOpid, .dmaLastRd,
      .dmaLastWr, .dmaRdEng, .dmaWrEng, .chans, .catWaits, .catStarted]
  | .dmaUnitWriteDone _ _ => wMemory ++ wLost ++ wPanel ++ [.dmaOps, .dmaLastWr, .dmaWrEng, .tiersWriteQ, .chans,
      .catWaits, .catStarted, .out]
  | .dmaOpComplete _ => wMoverDone
  | .channelRequestServe _ _ _ => wMemory ++ wLost ++ wPanel ++ [.chans]
  | .readRaw _ _ _ => wBurst ++ wPanel ++ [.regs, .ctlWerr, .ctlRepDirty, .plinths]
  | .writeRaw _ _ _ => wBurst ++ wPanel ++ [.regs, .ctlWerr, .ctlRepDirty, .plinths]
  | .rowSpare _ _ _ => wBurst ++ wPanel ++ [.regs, .ctlWerr, .ctlRepDirty, .plinths]
  | .colSpare _ _ _ => wBurst ++ wPanel ++ [.regs, .ctlWerr, .ctlRepDirty, .plinths]
  | .chSpare _ _ _ => wBurst ++ wPanel ++ [.regs, .ctlWerr, .ctlRepDirty, .plinths]
  | .mapRead _ _ _ => wBurst ++ wPanel ++ [.regs, .ctlWerr, .ctlRepDirty, .plinths]
  | .repairCommandDone _ => [.plinths]
  | .channelSpareCopy _ _ _ => wMemory ++ wLost ++ wPanel ++ [.plinths]
  | .coreSpareSwitch _ => wSram ++ [.ctlRepDirty, .cores, .plinths]
  | .repairRecordWrite => [.ctlRepDirty, .flashRep0, .flashRep1, .free]
  | .moverPanelStart _ => wMemory ++ wLost ++ wObjects ++ [.dmaOps, .dmaStops, .dmaNextOpid, .dmaLastRd, .dmaLastWr,
      .dmaRdEng, .dmaWrEng, .tiersMoving, .fabPorts]
  | .panelSwitch _ _ _ => wMemory ++ wObjects ++ [.tiersMoving]
  | .repairStart _ _ => wSend ++ [.dmaOps, .dmaStops, .dmaNextOpid, .dmaLastRd, .dmaLastWr, .dmaRdEng, .dmaWrEng,
      .tiersRepairs]
  | .referenceReadDone _ _ _ => wMemory ++ [.tiersRepairs]
  | .referenceReadRetry _ _ _ => wIncident ++ wObjects ++ [.dmaOps, .dmaStops, .dmaNextOpid, .dmaLastRd, .dmaLastWr,
      .dmaRdEng, .dmaWrEng, .cores, .fabPorts]
  | .panelRewriteDone _ _ => [.tiersRepairs]
  | .readbackDone _ _ _ => wMemory ++ wLost ++ wObjects ++ [.ctlRepDirty, .plinths]
  | .incidentRecordWrite => [.rasSources, .rasQueue, .rasW, .rasIntPend, .out]
  | .incidentRingEnable _ _ => [.regs, .rasW, .rasCons]
  | .fencePop _ _ => wIncident ++ [.cores, .catFenceWin]
  | .fenceClear _ _ => [.cores]
  | .sourceClear _ _ => [.rasSources]
  | .registerWrite _ _ _ _ => allBut [.pending, .ctlSt, .ctlPower, .ctlHcause, .ctlCommitted, .ctlCLast, .ctlCCause,
      .ctlCErr, .ctlBootStep, .ctlShort, .ctlCores, .ctlChannels, .ctlRepRows, .ctlRepCols, .ctlRepSkip, .ctlLatches,
      .ctlStrapPos, .ctlStrapSmba, .ctlThermTrip, .hifLinkWidth, .hifLinkRate, .hifLinkFlit, .hifInReset,
      .docOwedNotices, .curCows, .curLost, .curLostCtx, .curStaged, .tiersMoving, .fins, .outBases, .annexQueue,
      .annexRunning, .annexBank0, .annexBank1, .annexFail, .fabMacsec, .fabArrOrder, .secSt, .secCause, .secSlot,
      .secDebug, .secImage, .secSeeded, .secGenKey, .secTdis, .secSessions, .secSpdm, .secIdes, .secMeasured, .secUpdate,
      .secEid, .flashRep0, .flashRep1, .flashRpmcKey, .flashCert1, .flashSlots]
  | .counterPairRead _ _ _ => [.ctlLatches, .free, .out]
  | .configurationCommit _ _ => [.ctlCBusy, .ctlCSeq, .ctlWerr]
  | .commitCheckDone => allBut [.pending, .regs, .vfRegs, .ctlPower, .ctlCSeq, .ctlWerr, .ctlBootStep, .ctlShort,
      .ctlCores, .ctlChannels, .ctlRepRows, .ctlRepCols, .ctlRepSkip, .ctlLatches, .ctlStrapPos, .ctlStrapSmba,
      .ctlThermTrip, .ctlRepDirty, .hifLinkWidth, .hifLinkRate, .hifLinkFlit, .hifMsixTable, .hifInReset, .curCows,
      .curLost, .curLostCtx, .curStaged, .tiersMoving, .fins, .outBases, .annexQueue, .annexRunning, .annexBank0,
      .annexBank1, .annexFail, .fabMacsec, .fabArrOrder, .rasW, .rasCons, .catDumpBusy, .catWdQuiet, .catFenceWin,
      .secSt, .secCause, .secSlot, .secTrial, .secDebug, .secImage, .secSeeded, .secGenKey, .secTdis, .secSessions,
      .secSpdm, .secIdes, .secUpdate, .secEid, .flashDir0, .flashDir1, .flashRep0, .flashRep1, .flashRpmc, .flashRpmcKey,
      .flashCert1, .flashSlots]
  | .orderlyHold _ _ => allBut (kept ++ [.regs, .inForce, .ctlSt, .ctlHcause, .ctlCBusy, .ctlWerr, .ctlBootStep,
      .ctlRepDirty, .hifConsNext, .hifMsixPend, .hifOwedVecs, .hifInReset, .hifOwed, .docNextGroup, .docOwedNotices,
      .curPages, .curLimbo, .curCows, .curRetired, .curStaged, .curFreed, .curFresh, .tiersMoving, .chans, .plinths,
      .fins, .outBases, .annexQueue, .annexRunning, .annexBank0, .annexBank1, .fabAnnounced, .fabCarMap, .fabCarPend,
      .fabCarWait, .fabArrivals, .fabSentSlots, .rasIntLeft, .rasIntPend, .rasIntEnd, .catFrozen, .catFcause,
      .catDumpFroze, .catWbeat, .catSnaps, .secTdis, .secEvents])
  | .holdEntry => allBut (kept ++ [.regs, .inForce, .ctlCBusy, .ctlWerr, .ctlBootStep, .ctlRepDirty, .hifConsNext,
      .hifMsixPend, .hifOwedVecs, .hifInReset, .hifOwed, .docNextGroup, .docOwedNotices, .curPages, .curLimbo, .curCows,
      .curRetired, .curStaged, .curFreed, .curFresh, .tiersMoving, .chans, .plinths, .fins, .outBases, .annexQueue,
      .annexRunning, .annexBank0, .annexBank1, .fabCarMap, .fabCarPend, .fabCarWait, .fabArrivals, .fabSentSlots,
      .rasIntLeft, .rasIntPend, .rasIntEnd, .catWbeat, .secTdis, .secEvents])
  | .beatUnitStart _ _ => allBut (kept ++ [.ctlSt, .ctlHcause, .ctlCBusy, .ctlBootStep, .ctlRepDirty, .hifInReset,
      .docOwedNotices, .curCows, .curStaged, .tiersMoving, .fins, .outBases, .annexQueue, .annexRunning, .annexBank0,
      .annexBank1, .secTdis])
  | .beatUnitStop _ _ => allBut (kept ++ [.ctlSt, .ctlHcause, .ctlCBusy, .ctlBootStep, .ctlRepDirty, .hifInReset,
      .docOwedNotices, .curCows, .curStaged, .tiersMoving, .fins, .outBases, .annexQueue, .annexRunning, .annexBank0,
      .annexBank1, .secTdis])
  | .snapshot _ _ => [.ctlWerr, .catSnaps]
  | .snapshotDone _ => [.catSnaps, .out]
  | .dump _ _ => [.ctlWerr, .catFrozen, .catFcause, .catDumpBusy, .catDumpFroze, .catWdQuiet]
  | .dumpDone => [.catFrozen, .catDumpBusy, .catDumpFroze, .catWdQuiet, .out]
  | .freeze _ _ => [.ctlWerr, .catFrozen, .catFcause, .catDumpBusy, .catDumpFroze, .catWdQuiet]
  | .thaw _ _ => [.ctlWerr, .catFrozen, .catFcause, .catDumpBusy, .catDumpFroze, .catWdQuiet]
  | .mark _ _ => wEvent
  | .arm _ _ => wIncident ++ [.mem, .bad, .ctlWerr, .catFrozen, .catFcause]
  | .traceStop _ _ => wIncident ++ [.mem, .bad, .ctlWerr, .catFrozen, .catFcause]
  | .trigger _ _ => wIncident ++ [.mem, .bad, .ctlWerr, .catFrozen, .catFcause]
  | .traceRecordWrite => wIncident ++ [.mem, .bad, .catFrozen, .catFcause]
  | .traceRecordDrop _ => [.catTrace]
  | .traceCaptureEnd => [.catTrace]
  | .commit _ _ => [.ctlWerr, .secTrial, .flashDir0, .flashDir1, .flashRpmc]
  | .revert _ _ => [.ctlWerr, .secTrial, .flashDir0, .flashDir1, .flashRpmc]
  | .debugApertureAccess _ _ _ => wMemory ++ [.out]
  | .linkCtrlReceive _ _ _ => wIncident ++ [.fabPorts, .catCounters, .out]
  | .linkCtrlSend _ => wEvent ++ [.fabPorts, .catCounters, .out]
  | .dataForward _ _ _ => wSend
  | .syncReceive _ _ _ _ => wRecord ++ wSram ++ wPanel ++ [.fabPorts, .fabBeat, .fabQuiesces, .fabCarMap, .fabCarPend,
      .fabCarWait, .fabColls]
  | .noticeReceive _ _ _ => wEvent ++ [.fabPorts, .fabBeat, .fabLinks, .fabPlanes, .fabSeen, .fabPendNotices,
      .fabQuiesces, .fabMacSend, .catCounters, .out]
  | .noticePairExpiry => [.fabSeen]
  | .put _ _ _ _ => wMemory ++ wSend ++ [.tiersWriteQ, .fabWindows]
  | .getReq _ _ _ _ _ _ => wMemory ++ wLost ++ wPanel ++ wSend ++ [.dmaOps, .dmaStops, .dmaNextOpid, .dmaLastRd,
      .dmaLastWr, .dmaRdEng, .dmaWrEng, .fabWindows]
  | .getData _ _ _ _ => wSend ++ [.dmaOps]
  | .ack _ _ _ => wSend ++ [.dmaOps]
  | .ackTimer _ _ _ => wMemory ++ wSend ++ [.tiersWriteQ, .fabWindows]
  | .windowOpTimeout _ => [.dmaOps]
  | .windowOpComplete _ => wMoverDone
  | .winCloseComplete _ => wRecord ++ wMemory ++ [.tiersObjs, .tiersWriteQ, .fabPorts, .fabWindows]
  | .collDataReceive _ _ _ _ => wSram ++ [.fabPorts, .fabArrivals, .fabArrOrder, .out]
  | .hole _ _ _ => wEvent ++ [.fabPorts, .fabArrivals, .catCounters, .out]
  | .collComplete _ _ => wRecord ++ wSram ++ wPanel ++ [.fabColls]
  | .carouselSlotStart _ => wIncident ++ wPanel ++ wSend ++ [.fabColls, .fabSentSlots]
  | .portTrainingDone _ => wEvent ++ [.fabPorts]
  | .portTrainingTimeout _ => wLink
  | .portFailure _ _ => wIncident ++ wLink
  | .linkIdleTimeout _ => wIncident ++ wLink
  | .portRetrainTimer _ => wEvent ++ [.fabPorts]
  | .beatLoss _ => wSram ++ wMoverDone ++ [.fabBeat, .fabColls]
  | .deviceReset _ _ _ _ _ => allBut [.pending, .flashDir0, .flashDir1, .flashRep0, .flashRep1, .flashCert1, .flashSlots,
      .out]
  | .bootImageVerified _ _ => [.ctlSt, .ctlBootStep, .secSt, .secCause, .secSlot, .secTrial, .secImage, .flashDir0,
      .flashDir1]
  | .channelTrainingDone _ => allBut [.pending, .regs, .inForce, .vfRegs, .ctlPower, .ctlCommitted, .ctlCLast,
      .ctlCCause, .ctlCBusy, .ctlCSeq, .ctlCErr, .ctlWerr, .ctlCores, .ctlLatches, .ctlStrapPos, .ctlStrapSmba,
      .ctlThermTrip, .hifConsNext, .hifLinkWidth, .hifLinkRate, .hifLinkFlit, .hifMsixTable, .hifMsixPend, .hifOwedVecs,
      .hifInReset, .hifOwed, .docNextGroup, .docOwedNotices, .curPages, .curLimbo, .curCows, .curLost, .curLostCtx,
      .curRetired, .curStaged, .curFreed, .curFresh, .tiersMoving, .chans, .fins, .outBases, .annexQueue, .annexRunning,
      .annexBank0, .annexBank1, .annexFail, .fabMacsec, .fabCarMap, .fabCarPend, .fabCarWait, .fabArrivals, .fabArrOrder,
      .fabSentSlots, .rasW, .rasCons, .rasIntLeft, .rasIntPend, .rasIntEnd, .catDumpBusy, .catWdQuiet, .catWbeat,
      .catFenceWin, .secSt, .secCause, .secSlot, .secTrial, .secDebug, .secImage, .secSeeded, .secGenKey, .secTdis,
      .secSessions, .secSpdm, .secIdes, .secMeasured, .secUpdate, .secEvents, .secEid, .flashDir0, .flashDir1,
      .flashRep0, .flashRep1, .flashRpmc, .flashRpmcKey, .flashCert1, .flashSlots]
  | .selfTestDone _ _ => allBut [.pending, .inForce, .vfRegs, .ctlPower, .ctlCommitted, .ctlCLast, .ctlCCause, .ctlCBusy,
      .ctlCSeq, .ctlCErr, .ctlWerr, .ctlShort, .ctlChannels, .ctlRepRows, .ctlRepCols, .ctlRepSkip, .ctlLatches,
      .ctlStrapPos, .ctlStrapSmba, .ctlThermTrip, .hifConsNext, .hifLinkWidth, .hifLinkRate, .hifLinkFlit, .hifMsixTable,
      .hifMsixPend, .hifOwedVecs, .hifInReset, .hifOwed, .docNextGroup, .docOwedNotices, .curPages, .curLimbo, .curCows,
      .curLost, .curLostCtx, .curRetired, .curStaged, .curFreed, .curFresh, .tiersMoving, .chans, .fins, .outBases,
      .annexQueue, .annexRunning, .annexBank0, .annexBank1, .fabMacsec, .fabCarMap, .fabCarPend, .fabCarWait,
      .fabArrivals, .fabArrOrder, .fabSentSlots, .rasW, .rasCons, .rasIntLeft, .rasIntPend, .rasIntEnd, .catDumpBusy,
      .catWdQuiet, .catWbeat, .catFenceWin, .secSt, .secCause, .secSlot, .secTrial, .secDebug, .secImage, .secSeeded,
      .secGenKey, .secTdis, .secSessions, .secSpdm, .secIdes, .secMeasured, .secUpdate, .secEvents, .secEid, .flashDir0,
      .flashDir1, .flashRep0, .flashRep1, .flashRpmc, .flashRpmcKey, .flashCert1, .flashSlots]
  | .pwrgdFall => allBut [.pending, .ctlStrapPos, .ctlStrapSmba, .flashDir0, .flashDir1, .flashRep0, .flashRep1,
      .flashRpmc, .flashRpmcKey, .flashCert1, .flashSlots, .free, .out]
  | .vfFunctionLevelReset _ => allBut (kept ++ [.inForce, .ctlSt, .ctlHcause, .ctlCBusy, .ctlWerr, .ctlBootStep,
      .ctlHoldReq, .ctlHolding, .ctlRepDirty, .hifConsNext, .hifMsixPend, .docNextGroup, .curPages, .curLimbo, .curCows,
      .curRetired, .curStaged, .curFreed, .curFresh, .tiersMoving, .chans, .plinths, .fins, .outBases, .annexQueue,
      .annexRunning, .annexBank0, .annexBank1, .fabAnnounced, .fabCarMap, .fabCarPend, .fabCarWait, .fabArrivals,
      .fabSentSlots, .rasIntLeft, .rasIntPend, .rasIntEnd, .catFrozen, .catFcause, .catDumpFroze, .catWbeat, .catSnaps,
      .secEvents])
  | .vfResetComplete _ => [.hifInReset, .catCounters]
  | .pfResetOrLinkLoss => allBut (kept ++ [.inForce, .ctlCBusy, .ctlWerr, .ctlBootStep, .ctlRepDirty, .hifConsNext,
      .hifMsixPend, .docNextGroup, .curPages, .curLimbo, .curRetired, .curFreed, .curFresh, .fabCarMap, .fabCarPend,
      .fabCarWait, .fabArrivals, .fabSentSlots, .rasIntLeft, .rasIntPend, .rasIntEnd, .catWbeat, .secEvents])
  | .thermalSample _ => allBut [.pending, .regs, .inForce, .vfRegs, .ctlPower, .ctlCommitted, .ctlCLast, .ctlCCause,
      .ctlCBusy, .ctlCSeq, .ctlCErr, .ctlWerr, .ctlBootStep, .ctlShort, .ctlCores, .ctlChannels, .ctlRepRows,
      .ctlRepCols, .ctlRepSkip, .ctlLatches, .ctlStrapPos, .ctlStrapSmba, .ctlRepDirty, .hifConsNext, .hifLinkWidth,
      .hifLinkRate, .hifLinkFlit, .hifMsixTable, .hifMsixPend, .hifOwedVecs, .hifInReset, .docNextGroup, .curPages,
      .curLimbo, .curLost, .curLostCtx, .curRetired, .curFreed, .curFresh, .annexFail, .fabMacsec, .fabCarMap,
      .fabCarPend, .fabCarWait, .fabArrivals, .fabArrOrder, .fabSentSlots, .rasW, .rasCons, .rasIntLeft, .rasIntPend,
      .rasIntEnd, .catDumpBusy, .catWdQuiet, .catWbeat, .catFenceWin, .secSt, .secCause, .secSlot, .secTrial, .secDebug,
      .secImage, .secSeeded, .secGenKey, .secTdis, .secSessions, .secSpdm, .secIdes, .secMeasured, .secUpdate, .secEid,
      .flashDir0, .flashDir1, .flashRep0, .flashRep1, .flashRpmc, .flashRpmcKey, .flashCert1, .flashSlots]
  | .sysclkLoss => [.ctlPower, .secEvents, .out]
  | .brlclkLoss => wIncident ++ wLink ++ [.secEvents]
  | .mctpMessage _ _ => [.secEvents, .free, .out]
  | .pldmFirmwareUpdate _ _ _ => [.secUpdate, .flashSlots, .out]
  | .activateFirmware _ _ => [.secUpdate, .flashDir0, .flashDir1, .out]
  | .getVersion _ => [.secSpdm, .out]
  | .getCapabilities _ => [.secSpdm, .out]
  | .negotiateAlgorithms _ => [.secSpdm, .out]
  | .getDigests _ => [.out]
  | .getCertificate _ _ _ _ => [.out]
  | .challenge _ _ _ => [.out]
  | .getMeasurements _ _ => [.out]
  | .keyExchange _ _ => [.secSessions, .out]
  | .finish _ _ => [.secSessions, .free, .out]
  | .keyUpdate _ => [.secSessions, .out]
  | .heartbeat _ => [.out]
  | .endSession _ => [.secSessions, .out]
  | .setCertificate _ _ _ => [.flashCert1, .out]
  | .debugUnlock _ _ _ _ _ => allBut [.pending, .inForce, .vfRegs, .ctlSt, .ctlPower, .ctlHcause, .ctlCommitted,
      .ctlCLast, .ctlCCause, .ctlCBusy, .ctlCSeq, .ctlCErr, .ctlWerr, .ctlBootStep, .ctlShort, .ctlCores, .ctlChannels,
      .ctlRepRows, .ctlRepCols, .ctlRepSkip, .ctlHoldReq, .ctlHolding, .ctlLatches, .ctlStrapPos, .ctlStrapSmba,
      .ctlThermTrip, .ctlRepDirty, .hifConsNext, .hifLinkWidth, .hifLinkRate, .hifLinkFlit, .hifMsixTable, .hifMsixPend,
      .docNextGroup, .curPages, .curLimbo, .curCows, .curLost, .curLostCtx, .curRetired, .curStaged, .curFreed,
      .curFresh, .tiersMoving, .chans, .plinths, .fins, .outBases, .annexQueue, .annexRunning, .annexBank0, .annexBank1,
      .annexFail, .fabMacsec, .fabAnnounced, .fabCarMap, .fabCarPend, .fabCarWait, .fabArrivals, .fabArrOrder,
      .fabSentSlots, .rasW, .rasCons, .rasIntLeft, .rasIntPend, .rasIntEnd, .catFrozen, .catFcause, .catDumpBusy,
      .catDumpFroze, .catWdQuiet, .catWbeat, .catFenceWin, .catSnaps, .secSt, .secCause, .secSlot, .secTrial, .secImage,
      .secSeeded, .secGenKey, .secSpdm, .secIdes, .secMeasured, .secUpdate, .secEvents, .secEid, .flashDir0, .flashDir1,
      .flashRep0, .flashRep1, .flashRpmc, .flashRpmcKey, .flashCert1, .flashSlots]
  | .macsecKeyInstall _ _ _ _ _ => wEvent ++ [.fabPorts, .fabBeat, .fabLinks, .fabPlanes, .fabSeen, .fabSerial,
      .fabPendNotices, .fabQuiesces, .fabMacsec, .fabMacSend, .catCounters, .out]
  | .ideKm _ _ _ _ => [.secIdes, .out]
  | .ideIntegrityFailure _ => allBut [.pending, .inForce, .vfRegs, .ctlSt, .ctlPower, .ctlHcause, .ctlCommitted,
      .ctlCLast, .ctlCCause, .ctlCBusy, .ctlCSeq, .ctlCErr, .ctlWerr, .ctlBootStep, .ctlShort, .ctlCores, .ctlChannels,
      .ctlRepRows, .ctlRepCols, .ctlRepSkip, .ctlHoldReq, .ctlHolding, .ctlLatches, .ctlStrapPos, .ctlStrapSmba,
      .ctlThermTrip, .ctlRepDirty, .hifConsNext, .hifLinkWidth, .hifLinkRate, .hifLinkFlit, .hifMsixTable, .hifMsixPend,
      .docNextGroup, .curPages, .curLimbo, .curCows, .curLost, .curLostCtx, .curRetired, .curStaged, .curFreed,
      .curFresh, .tiersMoving, .chans, .plinths, .fins, .outBases, .annexQueue, .annexRunning, .annexBank0, .annexBank1,
      .annexFail, .fabMacsec, .fabAnnounced, .fabCarMap, .fabCarPend, .fabCarWait, .fabArrivals, .fabArrOrder,
      .fabSentSlots, .rasW, .rasCons, .rasIntLeft, .rasIntPend, .rasIntEnd, .catFrozen, .catFcause, .catDumpBusy,
      .catDumpFroze, .catWdQuiet, .catWbeat, .catFenceWin, .catSnaps, .secSt, .secCause, .secSlot, .secTrial, .secDebug,
      .secImage, .secSeeded, .secGenKey, .secSessions, .secSpdm, .secMeasured, .secUpdate, .secEvents, .secEid,
      .flashDir0, .flashDir1, .flashRep0, .flashRep1, .flashRpmc, .flashRpmcKey, .flashCert1, .flashSlots]
  | .lockInterface _ => [.secTdis, .out]
  | .startInterface _ => [.secTdis, .out]
  | .stopInterface _ => [.secTdis, .out]
  | .packetDiscard _ _ => [.fabPorts, .catCounters]
  | .bindZeroFillDone _ _ => wRecord ++ wSram ++ [.cores]
  | .hubOperationComplete _ => wRecord ++ wSram ++ wPanel ++ [.docCtxs, .hubOps]
  | .mapImageReadDone _ _ _ => wIncident ++ wRecord ++ wPanel ++ [.fabCarMap, .fabCarPend, .fabCarLoads, .fabCarWait]
  | .pcieLinkTrained _ _ _ => [.hifLinkWidth, .hifLinkRate, .hifLinkFlit]

/-! ### Descriptors -/

/-- What the checks of R242, R532 and R533 say to a descriptor or template: none, or what its refusal completes with. -/
def State.judged (s : State) (o : Origin) (d : Line64) (opcode : Nat) (checks : State → Op → List Bad) : Option Done :=
  firstVerdict ((s.take o d opcode).1.commonChecks (s.take o d opcode).2 ++
    [(checks (s.take o d opcode).1 (s.take o d opcode).2, 5)])

/-- The device is in RUN and every check passes: the operation is accepted. -/
def State.Accepts (s : State) (o : Origin) (d : Line64) (opcode : Nat) (checks : State → Op → List Bad) : Prop :=
  s.running = true ∧ s.judged o d opcode checks = none

/-- The operation that taking a descriptor in makes. -/
def State.asOp (s : State) (o : Origin) (d : Line64) (opcode : Nat) : Op := (s.take o d opcode).2

/-- The state with the operation taken in: numbered, and in flight (R249) or outstanding in its lane group (R213). -/
def State.taken (s : State) (o : Origin) (d : Line64) (opcode : Nat) : State := (s.take o d opcode).1

/-- Byte address of completion record `n` of a ring (R254). -/
def State.recordAddr (s : State) (r : Nat) (n : Word) : Nat :=
  s.ringAddr .hifCqLo .hifCqHi r + 32 * (n.toNat % s.ringSize r)

/-- The 32 bytes of the next completion record of a ring (R254): tag, ring, opcode, status, cause, offending byte, result,
index, FIDX, beat, CRC and phase. -/
def State.record (s : State) (r tag opcode status cause off result index : Nat) : Bytes :=
  sealRecord (toLE 2 tag ++ toLE 2 r ++ toLE 1 opcode ++ toLE 1 status ++ toLE 1 cause ++ toLE 1 off ++ toLE 8 result ++
    toLE 4 index ++ toLE 4 (s.ring r).fidx.toNat ++ toLE 4 s.beat) (((s.ring r).cw.toNat / s.ringSize r + 1) % 2)

/-- From one state to another a ring got one record, and nothing else left the device: it is written at its C_w, which rose by one,
and with interrupts enabled a message is owed for it (R254, R255, R260). -/
def State.Answered (s t : State) (r : Nat) (bytes : Bytes) : Prop :=
  (t.ring r).cw = (s.ring r).cw + 1 ∧
  t.out = s.out ++ [.hostWrite (r / 64) (s.recordAddr r (s.ring r).cw) bytes] ∧
  (s.flag .hifRcfg [r] 19 = true → (t.ring r).intPend = true)

/-- A channel kept for object operations is free, none waits for one, and no release is under way: an object operation that needs no
mover ends at once (R325, R331). -/
def State.ObjReady (s : State) : Prop :=
  s.tiers.objWait = [] ∧ s.tiers.objRun.length < 4 ∧ ∀ m ∈ s.tiers.maps, m.release = none

/-- An object operation taken in now finds a channel or waits, and none before it ends (R325, R331). -/
def State.ObjQueued (s : State) : Prop :=
  (s.tiers.objWait = [] ∨ 4 ≤ s.tiers.objRun.length) ∧ ∀ m ∈ s.tiers.maps, m.release = none

/-- A row of the opcode table that a descriptor brings: its command, its opcode and the checks of its own. -/
structure DescRow where
  make   : Origin → Line64 → Instr
  opcode : Nat
  checks : State → Op → List Bad

/-- DMA operations (R273). -/
def dmaRows : List DescRow :=
  [⟨.copy, opCopy, copyChecks⟩, ⟨.fill, opFill, fillChecks⟩, ⟨.compare, opCompare, compareChecks⟩,
   ⟨.gather, opGather, gatherChecks⟩, ⟨.spStrided, opStrided, stridedChecks⟩, ⟨.spTranspose, opTranspose, transposeChecks⟩,
   ⟨.t24Convert, opT24, t24Checks⟩]

/-- Operations of the cores (R112, R129, R144). -/
def coreRows : List DescRow := [⟨.tile, opTile, tileChecks⟩, ⟨.tileBs, opTileBs, tileBsChecks⟩, ⟨.attn, opAttn, attnChecks⟩]

/-- Operations of the hub units (R389) but BCAST. -/
def hubRows : List DescRow :=
  [⟨.addnorm, opHub, hubChecks 0⟩, ⟨.convert, opHub, hubChecks 1⟩, ⟨.merge, opHub, hubChecks 3⟩, ⟨.psum, opHub, hubChecks 4⟩,
   ⟨.sample, opHub, hubChecks 5⟩]

/-- Every command that takes a descriptor or template in, but PROG_LOAD, which reads its image first. -/
def descRows : List DescRow :=
  [⟨.nop, 0x01, emptyChecks⟩, ⟨.fence, 0x02, emptyChecks⟩] ++ dmaRows ++ [⟨.dmaStop, 0x27, dmaStopChecks⟩,
   ⟨.streamAdmit, 0x40, admitChecks⟩, ⟨.append, 0x41, appendChecks⟩, ⟨.policy, 0x42, policyChecks⟩,
   ⟨.fork, 0x43, forkChecks⟩, ⟨.cancel, 0x44, cancelChecks⟩, ⟨.release, 0x45, releaseChecks⟩,
   ⟨.coreBind, 0x60, bindChecks⟩, ⟨.coreUnbind, 0x61, unbindChecks⟩, ⟨.pageMove, 0x68, pageMoveChecks⟩,
   ⟨.objCreate, 0x69, objCreateChecks⟩, ⟨.accession, 0x6A, accessionChecks⟩, ⟨.objMap, 0x6B, objMapChecks⟩,
   ⟨.objRelease, 0x6C, objReleaseChecks⟩, ⟨.migrate, 0x6D, migrateChecks⟩, ⟨.objPin, 0x6E, objPinChecks⟩,
   ⟨.objQuery, 0x6F, objQueryChecks⟩, ⟨.winOpen, opWinOpen, winOpenChecks⟩, ⟨.winClose, opWinClose, winCloseChecks⟩,
   ⟨.winPut, opWinPut, winMoveChecks⟩, ⟨.winGet, opWinGet, winMoveChecks⟩, ⟨.coll, opColl, collChecks⟩,
   ⟨.quiesce, opQuiesce, quiesceChecks⟩, ⟨.carLoad, opCarLoad, carLoadChecks⟩, ⟨.bcast, opHub, hubChecks 2⟩] ++
  coreRows ++ hubRows

/-- A control packet of a neighbour arrives: on a cabinet port, or from a valid uplink peer that the packet names as its source
(R366, R374). -/
def State.heardFrom (s : State) (x : Neighbour) (ty : Nat) (h : Line16) (l : Line32) : State × Bool :=
  match x with
  | .port p => s.arrive p.val ty h (lineBytes l)
  | .uplink k =>
    let r := s.arrive (s.peerPort k.val) ty h (lineBytes l)
    (r.1, r.2 && s.peerValid k.val && Pkt.src h == s.peerDev k.val)

/-! ### Invariants -/

/-- The device memory keeps its canonical form. -/
def State.MemOk (s : State) : Prop := Memory.wf s.mem

/-- Once the RPMC root key is programmed, counter `k` stands at `n` or above (R438). -/
def State.Rollback (n k : Nat) (s : State) : Prop := s.sec.flash.rpmcKey = true ∧ n ≤ s.rpmc k

end Sys2Proof.Machine
end

