-- ==== Sys2Proof/Certificates/Slice0/Obligations.lean ====
section
/-! DEFINITION. The statements for the provers. -/

open Sys2Proof Sys2Proof.Machine

/-! ### The step -/

/-- With a command at the front of the queue, step is exec of that command on the state with the queue's rest; with an empty
queue the device idles (log 1). -/
def Obligations.StepRunsFront : Prop :=
  (∀ (c : Instr) (rest : List Instr) (s : State),
    step { s with pending := c :: rest } = exec c { s with pending := rest }) ∧
  (∀ s : State, s.pending = [] → step s = .next s)

/-- No command stops the device: every one answers a next state, in every state and for every operand. -/
def Obligations.EveryCommandGoesOn : Prop :=
  ∀ (c : Instr) (s : State), ∃ t, exec c s = .next t

/-- The frame of every command: of all the pieces of the state a command changes at most those the table writes names for
it. -/
def Obligations.CommandWrites : Prop :=
  ∀ (c : Instr) (s t : State), exec c s = .next t → s.Only (writes c) t

/-- What the state after reset holds, from the values the manual states: device state BOOT, no commit, no ring enabled, the beat
unit OFF, every handle entry FREE, every line untagged, every stream FREE, every page FREE, every window FREE, no spare
taken, every fence clear, no incident, every counter 0, every TDI unlocked (R88, R180, R196, R390, R446, R472, R484); and
the device memory in its canonical form, with every byte 0 (the model's choice, log 7). -/
def Obligations.ResetValues : Prop :=
  State.reset.ctl.st = .boot ∧ State.reset.ctl.committed = none ∧ State.reset.beatOff = true ∧
  (∀ r, r < 4096 → State.reset.flag .hifRcfg [r] 0 = false) ∧
  (∀ c e, ((State.reset.core c).handle e).st = .free ∧ ((State.reset.core c).handle e).gen = 0) ∧
  (∀ c l, Tbl.look (State.reset.core c).tags l 0 = 0) ∧
  (∀ k, (State.reset.ctx k).st = .free) ∧ (∀ n, (State.reset.page n).st = .free) ∧
  (∀ w, (State.reset.window w).st = .free) ∧
  (∀ c, c < 2048 → (State.reset.core c).phys = c / 256 * 264 + c % 256 ∧ (State.reset.core c).anyFence = false) ∧
  (∀ n, (State.reset.source n).count = 0) ∧ (∀ x i k, State.reset.counter x i k = 0) ∧ (∀ n, State.reset.tdi n = .unlocked) ∧ State.reset.MemOk

/-! ### Invariants -/

/-- R438 as an invariant: once the root key of the RPMC is programmed, no counter of it ever falls. That the reset which enrols
programs the key is the model's reading (log 38). -/
def Obligations.RpmcNeverFalls : Prop :=
  ∀ (n k : Nat) (s t : State), k < 5 → s.Rollback n k → step s = .next t → t.Rollback n k

/-- The invariant of RpmcNeverFalls holds from the first enrolment on: after the reset that programs the root key, every
counter stands at 0 or above. That the key is programmed then is the model's choice (log 38). -/
def Obligations.RpmcEnrolled : Prop :=
  ∃ t, exec (.deviceReset false .blank true 0 0) State.reset = .next t ∧ ∀ k, k < 5 → t.Rollback 0 k

/-- Every step keeps the device memory in its canonical form. -/
def Obligations.StepsKeepMemory : Prop :=
  ∀ s t : State, s.MemOk → step s = .next t → t.MemOk

/-! ### Intervals, windows, refresh -/

/-- R260 and R409: at the end of a coalescing interval with records written in it, one message goes out, or its pending bit is set
where the vector is masked, and the next interval begins. How many beats an interval counts is the model's reading (log 56). -/
def Obligations.IntervalEnds : Prop :=
  (∀ (r : RingNo) (s : State), s.alive = true → (s.ring r.val).intEnd = true → s.cutOff (r.val / 64) = false →
    ∃ t, exec (.ringInterruptIntervalEnd r) s = .next t ∧
      t.ring r.val = { s.ring r.val with
        intLeft := s.field .hifRcfg [r.val] 23 20 + 1, intPend := false, intEnd := false } ∧
      (∀ q, q ≠ r.val → t.ring q = s.ring q) ∧
      (if (s.msixWord (r.val / 64) (s.field .hifRcfg [r.val] 18 8) 3).toNat % 2 = 1 then
        t.out = s.out ∧ Tbl.look t.hif.msixPend (r.val / 64 * 2048 + s.field .hifRcfg [r.val] 18 8) false = true
       else t.out = s.out ++ [.msix (r.val / 64) (s.field .hifRcfg [r.val] 18 8)] ∧ t.hif.msixPend = s.hif.msixPend)) ∧
  (∀ s : State, s.alive = true → s.ras.intEnd = true → s.cutOff 0 = false →
    ∃ t, exec .incidentInterruptIntervalEnd s = .next t ∧
      t.ras = { s.ras with intLeft := s.field .rasIcfg [] 20 17, intPend := false, intEnd := false } ∧
      (if (s.msixWord 0 (s.field .rasIcfg [] 15 5) 3).toNat % 2 = 1 then
        t.out = s.out ∧ Tbl.look t.hif.msixPend (s.field .rasIcfg [] 15 5) false = true
       else t.out = s.out ++ [.msix 0 (s.field .rasIcfg [] 15 5)] ∧ t.hif.msixPend = s.hif.msixPend))

/-- R412 and R416: FENCE_POP fences the POP path of the core it names, and a core that holds no claim claims a spare of its
plinth or is marked as having none; FENCE_CLEAR clears every fence of a core with its claim; at the end of a fence window
every unit's count restarts. -/
def Obligations.FencesSetAndClear : Prop :=
  (∀ (w : Word) (s : State), s.pfWrite 0 = true → bits w.toNat 13 12 = 1 → Tbl.sorted s.cores = true →
    ∃ t, exec (.fencePop 0 w) s = .next t ∧ (t.core (bits w.toNat 10 0)).fencePop = true ∧
      ((s.core (bits w.toNat 10 0)).fencePop = false → (s.core (bits w.toNat 10 0)).claim = none →
        if s.spareCores (bits w.toNat 10 0 / 256) = [] then (t.core (bits w.toNat 10 0)).noSpare = true
        else (t.core (bits w.toNat 10 0)).sparePend = true ∧
          ∃ x ∈ s.spareCores (bits w.toNat 10 0 / 256), (t.core (bits w.toNat 10 0)).claim = some x) ∧
      (∀ d, d ≠ bits w.toNat 10 0 → t.core d = { s.core d with faults := (t.core d).faults })) ∧
  (∀ (w : Word) (s : State), s.pfWrite 0 = true → bits w.toNat 13 12 = 2 →
    ∃ t, exec (.fenceClear 0 w) s = .next t ∧
      t.core (bits w.toNat 10 0) = { s.core (bits w.toNat 10 0) with
        fencePop := false, fenceScore := 0, fenceVal := 0, sparePend := false, noSpare := false, claim := none } ∧
      (∀ d, d ≠ bits w.toNat 10 0 → t.core d = s.core d)) ∧
  (∀ s : State, s.alive = true → Tbl.sorted s.cores = true →
    ∃ t, exec .fenceWindowEnd s = .next t ∧ t.cat.fenceWin = s.windowNo (s.field .rasFenceCfg [] 12 8) ∧
      (∀ c, t.core c = { s.core c with faults := if s.cat.fenceWin = t.cat.fenceWin then (s.core c).faults else [] }))

/-! ### The incident queue -/

/-- R407 to R409: the oldest incident record goes to the incident ring as its 32 bytes with the pass's phase, W rises by
one, and with interrupts enabled a message is owed for it; at the end of a rate window the queue keeps what it held, in order; SOURCE_CLEAR clears COUNT and FIRST of the selected
source; RAS_CTRL.EN rising puts the next record at index 0. -/
def Obligations.IncidentQueue : Prop :=
  (∀ (s : State) (r : Incident) (l : List Incident), s.alive = true → s.ras.queue = r :: l → s.flag .rasCtrl [] 0 = true →
    s.incidentFull = false → s.cutOff 0 = false →
    ∃ t, exec .incidentRecordWrite s = .next t ∧ t.ras.w = s.ras.w + 1 ∧ t.ras.cons = s.ras.cons ∧
      (∃ more, t.ras.queue = l ++ more) ∧
      t.out = s.out ++ [.hostWrite 0 (s.written .rasIringLo [] + s.written .rasIringHi [] * 2 ^ 32 +
        32 * (s.ras.w.toNat % s.incidentSize))
        (sealRecord r.bytes ((s.ras.w.toNat / s.incidentSize + 1) % 2))] ∧
      t.ras.intPend = (s.flag .rasIcfg [] 16 || s.ras.intPend)) ∧
  (∀ s : State, s.alive = true → Tbl.sorted s.ras.sources = true →
    ∃ t, exec .incidentRateWindowEnd s = .next t ∧ (∃ more, t.ras.queue = s.ras.queue ++ more) ∧
      (t.ras.queue.length < 1024 → ∀ n, (t.source n).firstWaits = false ∨ (t.source n).first = none)) ∧
  (∀ (w : Word) (s : State), s.pfWrite 0 = true → w.getLsbD 0 = true →
    ∃ t, exec (.sourceClear 0 w) s = .next t ∧
      t.source (s.field .rasSrcSel [] 15 0) =
        { s.source (s.field .rasSrcSel [] 15 0) with count := 0, first := none, firstWaits := false } ∧
      (∀ n, n ≠ s.field .rasSrcSel [] 15 0 → t.source n = s.source n)) ∧
  (∀ (w : Word) (s : State), s.pfWrite 0 = true →
    ∃ t, exec (.incidentRingEnable 0 w) s = .next t ∧ t.flag .rasCtrl [] 0 = w.getLsbD 0 ∧
      (if w.getLsbD 0 = true ∧ s.flag .rasCtrl [] 0 = false then t.ras = { s.ras with w := 0, cons := 0 }
       else t.ras = s.ras))
/-! ### Rings and the poll -/

/-- R236: a write that sets EN of a ring which is not active, with a legal size, a class other than 0 and within its gallery's
RINGS, enables the ring: its fields are as written and its counts restart at 0 with the device's copy of A kept. A write that
clears EN disables the ring and leaves its counts and what is in flight; its other fields are as written, unless they are
locked while the ring is active (R235). -/
def Obligations.RingEnableDisable : Prop :=
  (∀ (f : GalNo) (r : RingNo) (w : Word) (s : State), s.barUp = true → reachesRing f.val r.val = true →
    w.getLsbD 0 = true → s.flag .hifRcfg [r.val] 0 = false → s.ringActive r.val = false →
    ¬ (f.val = 0 ∧ s.tdiLocked (r.val / 64) = true) →
    6 ≤ bits w.toNat 5 1 → bits w.toNat 5 1 ≤ 16 → bits w.toNat 7 6 ≠ 0 →
    (s.enabledRings (r.val / 64)).length < s.field .hifGal [r.val / 64] 6 0 →
    ∃ t, exec (.ringEnable f r w) s = .next t ∧ t.flag .hifRcfg [r.val] 0 = true ∧
      t.field .hifRcfg [r.val] 23 1 = bits w.toNat 23 1 ∧
      t.ring r.val = { copyA := (s.ring r.val).copyA, first := true,
                       intLeft := (s.ring r.val).intLeft, intPend := (s.ring r.val).intPend
                       intEnd := (s.ring r.val).intEnd } ∧
      (∀ q, q ≠ r.val → t.ring q = s.ring q)) ∧
  (∀ (f : GalNo) (r : RingNo) (w : Word) (s : State), s.barUp = true → reachesRing f.val r.val = true →
    w.getLsbD 0 = false → ¬ (f.val = 0 ∧ s.tdiLocked (r.val / 64) = true) →
    ∃ t, exec (.ringDisable f r w) s = .next t ∧ t.flag .hifRcfg [r.val] 0 = false ∧
      t.field .hifRcfg [r.val] 23 1 =
        (if s.ringActive r.val = true ∧ s.inHold = false then s.field .hifRcfg [r.val] 23 1 else bits w.toNat 23 1) ∧
      t.hif = s.hif)

/-- R237, R246 to R248 and R258: once the summary words are back, the device's copy of A of every enabled ring that has not
halted equals the ring's S bit, and no other ring changes; a whole doorbell with legal counts gives a ring its P₀ and C₀, a
torn one is read a second time and then flagged for the next poll; a whole consumer line with a legal count gives a stream
or the incident ring its CONS. That a ring read torn twice is flagged for the next poll is R247's; how a cut poll keeps a
flag is the model's (log 17). -/
def Obligations.PollTaken : Prop :=
  (∀ (lines : List (BitVec 64)) (sep : List SepSummary) (s : State) (p : Poll), s.hif.poll = some p → s.running = true →
    p.summary = true → p.sep = [] →
    ∃ t, exec (.summaryReadDone lines sep) s = .next t ∧
      (∀ r, (t.ring r) = if r < 4096 ∧ s.flag .hifRcfg [r] 0 = true ∧ (s.ring r).halt = false ∧ s.sumSep (r / 64) = false
        then { s.ring r with copyA := (lines.getD (r / 64) 0).getLsbD (r % 64), first := false, reflag := false }
        else s.ring r)) ∧
  (∀ (r : RingNo) (d : Line64) (s : State) (p : Poll), s.hif.poll = some p → s.running = true → p.doorbells.contains r.val = true →
    fld d 0 31 0 = fld d 60 31 0 → fld d 4 31 0 = fld d 56 31 0 →
    cdiff (s.ring r.val).p0 (s.ring r.val).fidx ≤ cdiff (BitVec.ofNat 32 (fld d 0 31 0)) (s.ring r.val).fidx →
    cdiff (BitVec.ofNat 32 (fld d 0 31 0)) (s.ring r.val).fidx ≤ s.ringSize r.val →
    cdiff (BitVec.ofNat 32 (fld d 4 31 0)) (s.ring r.val).c0 ≤ cdiff (s.ring r.val).cw (s.ring r.val).c0 →
    ∃ t, exec (.doorbellReadDone r d) s = .next t ∧
      t.ring r.val = { s.ring r.val with
        p0 := BitVec.ofNat 32 (fld d 0 31 0), c0 := BitVec.ofNat 32 (fld d 4 31 0), torn := false } ∧
      (∀ q, q ≠ r.val → t.ring q = s.ring q)) ∧
  (∀ (r : RingNo) (d : Line64) (s : State) (p : Poll), s.hif.poll = some p → s.running = true → p.doorbells.contains r.val = true →
    ¬ (fld d 0 31 0 = fld d 60 31 0 ∧ fld d 4 31 0 = fld d 56 31 0) →
    ∃ t, exec (.doorbellReadDone r d) s = .next t ∧
      t.ring r.val = (if (s.ring r.val).torn = true then { s.ring r.val with torn := false, reflag := true }
        else { s.ring r.val with torn := true }) ∧
      (∀ q, q ≠ r.val → t.ring q = s.ring q)) ∧
  (∀ (k : StreamNo) (d : Line64) (v : Word) (s : State) (p : Poll), s.hif.poll = some p → s.running = true →
    p.consumers.contains k.val = true → lineCons d = some v →
    cdiff v (s.ctx k.val).cons ≤ cdiff (s.ctx k.val).prod (s.ctx k.val).cons →
    ∃ t, exec (.consumerLineReadDone (.stream k) d) s = .next t ∧ t.ctx k.val = { s.ctx k.val with cons := v } ∧
      (∀ j, j ≠ k.val → t.ctx j = s.ctx j)) ∧
  (∀ (d : Line64) (v : Word) (s : State) (p : Poll), s.hif.poll = some p → s.running = true →
    p.incident = true → lineCons d = some v → cdiff v s.ras.cons ≤ cdiff s.ras.w s.ras.cons →
    ∃ t, exec (.consumerLineReadDone .incident d) s = .next t ∧ t.ras.cons = v)

/-- R240, R242, R246, R249 to R251: an entry read of a ring that has descriptors to fetch and has not halted. With the right phase
it is fetched and FIDX moves on by one; while the poll awaits other rings it is kept, and once it awaits none it has the effect
of the command of its opcode; with a wrong control check it completes as BAD_DESCRIPTOR with cause 1, and of an opcode that is
not assigned with cause 3; with a wrong phase at one of the first three polls it stays where it is. -/
def Obligations.DescriptorTaken : Prop :=
  (∀ (r : RingNo) (f : Fetched) (s : State) (p : Poll) (n : Nat), s.hif.poll = some p → s.running = true →
    p.descriptors.find? (fun d => d.1 == r.val) = some (r.val, n + 1) → p.descriptors.any (fun d => d.1 != r.val) = true →
    (s.ring r.val).fidx ≠ (s.ring r.val).p0 → (s.ring r.val).halt = false →
    fbit f.d 62 0 = s.phaseOf r.val (s.ring r.val).fidx →
    exec (.descriptorReadDone r [f]) s = .next ((s.setRing r.val { s.ring r.val with
      fidx := (s.ring r.val).fidx + 1, phaseBad := 0 }).setPoll { p with
        descriptors := p.descriptors.filter (fun d => d.1 != r.val)
        fetched := p.fetched ++ [{ ring := r, index := (s.ring r.val).fidx, entry := f, late := false }] })) ∧
  (∀ (r : RingNo) (f : Fetched) (s u : State) (p : Poll) (n : Nat), s.hif.poll = some p →
    p.descriptors = [(r.val, n + 1)] → p.fetched = [] → s.running = true →
    (s.ring r.val).fidx ≠ (s.ring r.val).p0 → (s.ring r.val).halt = false →
    u = (s.setRing r.val { s.ring r.val with fidx := (s.ring r.val).fidx + 1, phaseBad := 0 }).setPoll
      { p with descriptors := [], fetched := [] } →
    (∀ x ∈ descRows, x.opcode ≠ 0x78 → fld f.d 0 7 0 = x.opcode → fbit f.d 62 0 = s.phaseOf r.val (s.ring r.val).fidx →
      fld f.d 60 15 0 = descCrc f.d →
      ∃ v, exec (x.make (.ring r (s.ring r.val).fidx) f.d) u = .next v ∧
        exec (.descriptorReadDone r [f]) s = .next v.pollSettle) ∧
    (fbit f.d 62 0 = s.phaseOf r.val (s.ring r.val).fidx → fld f.d 60 15 0 ≠ descCrc f.d → u.fenced r.val = false →
      u.cutOff (r.val / 64) = false →
      ∃ t, exec (.descriptorReadDone r [f]) s = .next t ∧ (t.ring r.val).fidx = (s.ring r.val).fidx + 1 ∧
        (t.ring r.val).cw = (s.ring r.val).cw + 1 ∧
        .hostWrite (r.val / 64) (u.recordAddr r.val (s.ring r.val).cw)
          (u.record r.val (fld f.d 2 15 0) (fld f.d 0 7 0) Status.badDescriptor.code 1 0 0 (s.ring r.val).fidx.toNat) ∈ t.out ∧
        t.counter .hifCrcFail (r.val / 64) 0 = min (s.counter .hifCrcFail (r.val / 64) 0 + 1) (2 ^ 64 - 1)) ∧
    (fbit f.d 62 0 = s.phaseOf r.val (s.ring r.val).fidx → fld f.d 60 15 0 = descCrc f.d →
      fld f.d 0 7 0 ∈ [0x00, 0x03, 0x1F, 0x28, 0x3F, 0x47, 0x5F, 0x65, 0x67, 0x77, 0x79, 0xFF] → u.fenced r.val = false →
      u.cutOff (r.val / 64) = false →
      ∃ t, exec (.descriptorReadDone r [f]) s = .next t ∧ (t.ring r.val).fidx = (s.ring r.val).fidx + 1 ∧
        .hostWrite (r.val / 64) (u.recordAddr r.val (s.ring r.val).cw)
          (u.record r.val (fld f.d 2 15 0) (fld f.d 0 7 0) Status.badDescriptor.code 3 0 0 (s.ring r.val).fidx.toNat) ∈ t.out) ∧
    (fbit f.d 62 0 ≠ s.phaseOf r.val (s.ring r.val).fidx → (s.ring r.val).phaseBad < 3 →
      ∃ t, exec (.descriptorReadDone r [f]) s = .next t ∧
        t.ring r.val = { s.ring r.val with phaseBad := (s.ring r.val).phaseBad + 1 } ∧ t.hif.inflight = s.hif.inflight ∧
        t.out = s.out ∧ (∀ q, q ≠ r.val → t.ring q = s.ring q)))

/-- R262: a failed read of a doorbell or of descriptors halts its ring with the cause of the failure, Unsupported Request 1,
Completer Abort 2, timeout 3, and no other ring changes; a doorbell read that is answered as failed counts an incident of
its ring. Which ring such an incident names is the model's reading (log 16). -/
def Obligations.FailedReadHaltsRing : Prop :=
  ∀ (r : RingNo) (s : State) (p : Poll), s.hif.poll = some p → s.running = true →
    (∀ (ca : Bool), p.doorbells.contains r.val = true →
      ∃ t, exec (.hostReadFault (.doorbell r) ca) s = .next t ∧
        t.ring r.val = { s.ring r.val with halt := true, hcause := if ca then 2 else 1, torn := false } ∧
        (∀ q, q ≠ r.val → t.ring q = s.ring q) ∧
        (t.source (0x5000 + r.val)).count = min ((s.source (0x5000 + r.val)).count + 1) (2 ^ 32 - 1)) ∧
    (∀ (ca : Bool), p.descriptors.any (fun d => d.1 == r.val) = true →
      (p.fetched = [] ∨ p.descriptors.any (fun d => d.1 != r.val) = true) →
      ∃ t, exec (.hostReadFault (.descriptor r) ca) s = .next t ∧
        t.ring r.val = { s.ring r.val with halt := true, hcause := if ca then 2 else 1, torn := false } ∧
        (∀ q, q ≠ r.val → t.ring q = s.ring q)) ∧
    (p.doorbells.contains r.val = true →
      ∃ t, exec (.hostReadTimeout (.doorbell r)) s = .next t ∧
        t.ring r.val = { s.ring r.val with halt := true, hcause := 3, torn := false } ∧
        (∀ q, q ≠ r.val → t.ring q = s.ring q)) ∧
    (p.descriptors.any (fun d => d.1 == r.val) = true →
      (p.fetched = [] ∨ p.descriptors.any (fun d => d.1 != r.val) = true) →
      ∃ t, exec (.hostReadTimeout (.descriptor r)) s = .next t ∧
        t.ring r.val = { s.ring r.val with halt := true, hcause := 3, torn := false } ∧
        (∀ q, q ≠ r.val → t.ring q = s.ring q))
/-! ### Descriptors: completion and refusal -/

/-- R253, R254: an accepted NOP completes with OK and RESULT 0 at once; a FENCE does so when no earlier descriptor of its
ring is in flight, and else waits; the record has the layout of R254. -/
def Obligations.NopAndFence : Prop :=
  (∀ (r : RingNo) (i : Word) (d : Line64) (s : State), s.Accepts (.ring r i) d 0x01 emptyChecks → s.fenced r.val = false →
    s.cutOff (r.val / 64) = false →
    ∃ t, exec (.nop (.ring r i) d) s = .next t ∧ s.Answered t r.val (s.record r.val (fld d 2 15 0) 1 Status.ok.code 0 0 0 i.toNat) ∧
      t.hif.inflight = s.hif.inflight.filter (fun p => p.id != s.nextOp) ∧ t.nextOp = s.nextOp + 1) ∧
  (∀ (r : RingNo) (i : Word) (d : Line64) (s : State), s.Accepts (.ring r i) d 0x02 emptyChecks → s.fenced r.val = false →
    s.cutOff (r.val / 64) = false → s.inflightOf r.val = [] →
    ∃ t, exec (.fence (.ring r i) d) s = .next t ∧ s.Answered t r.val (s.record r.val (fld d 2 15 0) 2 Status.ok.code 0 0 0 i.toNat) ∧
      t.hif.inflight = s.hif.inflight.filter (fun p => p.id != s.nextOp) ∧ t.nextOp = s.nextOp + 1) ∧
  (∀ (r : RingNo) (i : Word) (d : Line64) (s : State), s.Accepts (.ring r i) d 0x02 emptyChecks → s.fenced r.val = false →
    (∃ p ∈ s.inflightOf r.val, p.id < s.nextOp) →
    exec (.fence (.ring r i) d) s = .next { s with
      nextOp := s.nextOp + 1
      hif := { s.hif with inflight := s.hif.inflight ++ [s.asOp (.ring r i) d 0x02]
                          fences := s.hif.fences ++ [s.asOp (.ring r i) d 0x02] } })

/-- R12, R242, R254: a ring's descriptor that its checks refuse changes nothing but its
number, its record, its message and its event; the record carries the refusal's status, cause and offending byte. R473: outside RUN no descriptor of a ring is accepted, and nothing changes. -/
def Obligations.DescriptorsTurnedAway : Prop :=
  (∀ x ∈ descRows, ∀ (r : RingNo) (i : Word) (d : Line64) (s : State) (v : Done), s.running = true →
    s.judged (.ring r i) d x.opcode x.checks = some v → s.fenced r.val = false → s.cutOff (r.val / 64) = false →
    ∃ t, exec (x.make (.ring r i) d) s = .next t ∧
      s.Answered t r.val (s.record r.val (fld d 2 15 0) x.opcode v.st.code v.cause v.off 0 i.toNat) ∧
      t.hif.inflight = s.hif.inflight.filter (fun p => p.id != s.nextOp) ∧ t.nextOp = s.nextOp + 1 ∧ s.Only wAccept t) ∧
  (∀ x ∈ descRows, ∀ (r : RingNo) (i : Word) (d : Line64) (s : State), s.running = false →
    exec (x.make (.ring r i) d) s = .next s)

/-! ### DMA -/

/-- R267, R289: an accepted DMA operation joins the DMA unit's list behind every earlier one, with no unit read or written; it
holds the lowest-numbered channel that is free and that it may use, unless there is none or an operation of its class that could
take one waits already. No record is written yet and no byte of memory changes. R267, R218: of the operations that wait and may take
a channel, one of the first class that has any goes first, and the oldest of its class; it takes the lowest-numbered channel.
R268, R270, R275: once an engine has taken them up, FILL's next unit, 4 KiB at most, is written; COPY's next unit stands in the
staging buffer after its read. Here for CHANNEL ends: the read leaves memory as it is, and the write changes no byte outside its
bursts. Between Ochre and Umber the choice is the model's (log 108). -/
def Obligations.DmaRuns : Prop :=
  (∀ x ∈ dmaRows, ∀ (o : Origin) (d : Line64) (s : State), s.Accepts o d x.opcode x.checks →
    ∃ t, exec (x.make o d) s = .next t ∧
      t.dma.ops.map (fun y => y.op) = s.dma.ops.map (fun y => y.op) ++ [s.asOp o d x.opcode] ∧
      (∃ y ∈ t.dma.ops, y.op = s.asOp o d x.opcode ∧ y.rd = 0 ∧ y.wr = 0 ∧ y.staged = [] ∧ y.begun = false ∧
        y.chan = (if s.channelReady.any (fun z => z.op.cls == (s.asOp o d x.opcode).cls) then none
          else s.freeChannel (s.asOp o d x.opcode))) ∧
      t.nextOp = s.nextOp + 1 ∧ t.out = s.out ∧ t.mem = s.mem) ∧
  (∀ (s : State) (x : DmaOp), s.running = true → x ∈ s.dma.ops → x.chan = none → (s.freeChannel x.op).isSome = true →
    x.op.cls < 4 →
    ∃ t y c, exec .dmaChannelAcquire s = .next t ∧ s.channelReady.find? (fun z => z.op.cls == y.op.cls) = some y ∧
      s.freeChannel y.op = some c ∧ c ∉ s.dmaHeld ∧
      ((∃ z ∈ s.channelReady, z.op.cls = 0) → y.op.cls = 0) ∧ (y.op.cls = 3 → ∀ z ∈ s.channelReady, 3 ≤ z.op.cls) ∧
      (∀ z ∈ t.dma.ops, z.op.id = y.op.id → z.chan = some c) ∧
      (∀ z ∈ s.dma.ops, z.op.id ≠ y.op.id → z ∈ t.dma.ops)) ∧
  (∀ (c : Fin 256) (data : Bytes) (ups : List Upset) (s u : State) (x : DmaOp), u = s.upsets ups →
    u.dma.ops.find? (fun y => y.chan == some c.val) = some x → u.running = true → x.op.opcode = opCopy → u.unitReady x = true →
    c.val ∈ u.dma.rdEng → (∀ z ∈ u.dma.ops, z.op.id = x.op.id → z = x) → (Ep.of x.op.d 8).channel = true →
    (Ep.of x.op.d 8).host = false → (u.chan (Ep.of x.op.d 8).core).queue = [] →
    u.chanErrors (u.core (Ep.of x.op.d 8).core).chan ((Ep.of x.op.d 8).addr + x.rd) (u.unitEnd x.op x.rd - x.rd) = [] →
    ∃ t, exec (.dmaUnitReadDone c data ups) s = .next t ∧
      (∀ y ∈ t.dma.ops, y.op.id = x.op.id → y.rd = u.unitEnd x.op x.rd ∧ y.begun = true ∧
        y.staged = x.staged ++ [⟨x.rd, u.chanRead (u.core (Ep.of x.op.d 8).core).chan ((Ep.of x.op.d 8).addr + x.rd)
          (u.unitEnd x.op x.rd - x.rd)⟩]) ∧
      (∀ y ∈ u.dma.ops, y.op.id ≠ x.op.id → y ∈ t.dma.ops) ∧ t.mem = u.mem) ∧
  (∀ (c : Fin 256) (ups : List Upset) (s u : State) (x : DmaOp), u = s.upsets ups →
    u.dma.ops.find? (fun y => y.chan == some c.val) = some x → u.running = true → x.op.opcode = opFill →
    u.unitWritable x = true → c.val ∈ u.dma.wrEng → (∀ z ∈ u.dma.ops, z.op.id = x.op.id → z = x) →
    (Ep.of x.op.d 24).channel = true → (Ep.of x.op.d 24).host = false → (Ep.of x.op.d 24).device = false →
    (Ep.of x.op.d 24).scratch = false → (u.chan (Ep.of x.op.d 24).core).queue = [] →
    (u.plinth ((Ep.of x.op.d 24).core / 256)).chSpares = [] →
    ∃ t, exec (.dmaUnitWriteDone c ups) s = .next t ∧
      (∀ y ∈ t.dma.ops, y.op.id = x.op.id → y.wr = u.unitEnd x.op x.wr) ∧
      (∀ y ∈ u.dma.ops, y.op.id ≠ x.op.id → y ∈ t.dma.ops) ∧
      (∀ a, (a < (chanBase (u.core (Ep.of x.op.d 24).core).chan + (Ep.of x.op.d 24).addr + x.wr) / 64 * 64 ∨
          (chanBase (u.core (Ep.of x.op.d 24).core).chan + (Ep.of x.op.d 24).addr + u.unitEnd x.op x.wr + 63) / 64 * 64 ≤ a) →
        Memory.get t.mem a = Memory.get u.mem a) ∧
      t.out = u.out ∧ t.hif = u.hif)

/-- R288: a DMA_STOP whose scope holds no operation that has begun ends at once: every operation of its scope leaves the DMA
unit, one outside it stays, nothing is added to the descriptors in flight and no byte of memory changes; with an empty scope
it completes with OK and RESULT 0. -/
def Obligations.DmaStops : Prop :=
  (∀ (r : RingNo) (i : Word) (d : Line64) (s : State), s.Accepts (.ring r i) d 0x27 dmaStopChecks →
    (∀ y ∈ s.dma.ops, y.inScope (s.asOp (.ring r i) d 0x27) = true → y.begun = false) → s.dma.stops = [] →
    (∀ m ∈ s.tiers.maps, m.release = none) → s.tiers.objWait = [] →
    ∃ t, exec (.dmaStop (.ring r i) d) s = .next t ∧
      (∀ y ∈ t.dma.ops, y ∈ s.dma.ops ∧ y.inScope (s.asOp (.ring r i) d 0x27) = false) ∧
      (∀ y ∈ s.dma.ops, y.inScope (s.asOp (.ring r i) d 0x27) = false →
        (∀ z ∈ s.dma.ops, z.inScope (s.asOp (.ring r i) d 0x27) = true → z.op.id ≠ y.op.id) → y ∈ t.dma.ops) ∧
      (∀ p ∈ t.hif.inflight, p ∈ s.hif.inflight) ∧ t.mem = s.mem) ∧
  (∀ (r : RingNo) (i : Word) (d : Line64) (s : State), s.Accepts (.ring r i) d 0x27 dmaStopChecks →
    (∀ y ∈ s.dma.ops, y.inScope (s.asOp (.ring r i) d 0x27) = false) → s.fenced r.val = false → s.cutOff (r.val / 64) = false →
    ∃ t, exec (.dmaStop (.ring r i) d) s = .next t ∧ t.dma = s.dma ∧
      s.Answered t r.val (s.record r.val (fld d 2 15 0) 0x27 Status.ok.code 0 0 0 i.toNat))

/-- R290: when the last unit of an operation is done its record is written with its status and RESULT, and the channel is
free. -/
def Obligations.DmaCompletes : Prop :=
  ∀ (c : Fin 256) (s : State) (x : DmaOp) (r : RingNo) (i : Word),
    s.dma.ops.find? (fun y => y.chan == some c.val) = some x → s.running = true → s.dmaEnded x = true →
    x.op.org = .ring r i → s.hif.inflight.any (fun p => p.id == x.op.id) = true → s.fenced r.val = false →
    s.cutOff (r.val / 64) = false → s.dma.stops = [] → (∀ m ∈ s.tiers.maps, m.release = none) → s.tiers.objWait = [] →
    ∃ t, exec (.dmaOpComplete c) s = .next t ∧
      s.Answered t r.val (s.record r.val (fld x.op.d 2 15 0) x.op.opcode x.status.code 0 0 x.answer i.toNat) ∧
      t.dma.ops = s.dma.ops.filter (fun y => y.op.id != x.op.id) ∧
      t.hif.inflight = s.hif.inflight.filter (fun p => p.id != x.op.id)
/-! ### Streams -/

/-- R202, R228: an accepted STREAM_ADMIT completes with OK and leaves its stream IDLE with the class, program, period, ring and
sampling values it gives or that R202 sets, an empty map in the layout of its program, and the key it names, or one of the
upper half where it names none. No other stream changes. The key of a stream that names none is a free value (log 5). -/
def Obligations.StreamAdmitted : Prop :=
  ∀ (r : RingNo) (i : Word) (d : Line64) (s : State), s.Accepts (.ring r i) d 0x40 admitChecks → s.fenced r.val = false →
    s.cutOff (r.val / 64) = false →
    ∃ t, exec (.streamAdmit (.ring r i) d) s = .next t ∧
      s.Answered t r.val (s.record r.val (fld d 2 15 0) 0x40 Status.ok.code 0 0 0 i.toNat) ∧
      t.ctx (fld d 5 14 0) = { st := .idle, cls := fld d 4 1 0, gal := r.val / 64, prog := fld d 8 7 0, period := fld d 10 15 0
                               cgroup := (t.ctx (fld d 5 14 0)).cgroup, root := BitVec.ofNat 32 (s.headerLine (fld d 5 14 0))
                               maxTok := fld d 32 31 0, topP := 0x3F800000, topK := (s.prog (fld d 8 7 0)).topkMax
                               gkey := (t.ctx (fld d 5 14 0)).gkey, ring := fld d 16 63 0, rlog2 := fld d 9 4 0
                               msix := fld d 36 15 0 } ∧
      (fld d 24 63 0 ≠ 0 → (t.ctx (fld d 5 14 0)).gkey = BitVec.ofNat 64 (fld d 24 63 0)) ∧
      (fld d 24 63 0 = 0 → (t.ctx (fld d 5 14 0)).gkey.getLsbD 63 = true) ∧
      t.kvMap (fld d 5 14 0) = (s.prog (fld d 8 7 0)).mapOf (fld d 12 10 0) (fld d 14 10 0) ∧
      (∀ k, k ≠ fld d 5 14 0 → t.ctx k = s.ctx k ∧ t.kvMap k = s.kvMap k)

/-- R203: an accepted APPEND asks for its token array and stands at the end of the APPENDs, with the VOCAB of the program in force
for it; when the array is back, every
token below VOCAB and no earlier array of the stream awaited, the tokens join the stream's prompt and it is in PREFILL; an
array with a token at or above VOCAB is refused whole with BAD_DESCRIPTOR, cause 5 and byte 8. -/
def Obligations.AppendTaken : Prop :=
  (∀ (r : RingNo) (i : Word) (d : Line64) (s : State), s.Accepts (.ring r i) d 0x41 appendChecks →
    s.cutOff (r.val / 64) = false →
    ∃ t, exec (.append (.ring r i) d) s = .next t ∧
      t.doc.appends = s.doc.appends ++ [{ op := s.asOp (.ring r i) d 0x41, stream := fld d 5 14 0, go := fbit d 1 0
                                          count := fld d 16 14 0, vocab := (s.prog (s.effPolicy (fld d 5 14 0)).1).vocab }] ∧
      t.out = s.out ++ [.hostRead (r.val / 64) (.appendTokens r i) (fld d 8 63 0) (4 * fld d 16 14 0)]) ∧
  (∀ (r : RingNo) (i : Word) (ts : List Word) (a : AppendRec) (s : State), s.running = true →
    s.doc.appends.find? (fun b => decide (b.op.org = .ring r i) && b.data.isNone) = some a →
    (s.appendsOf a.stream).find? (fun b => b.left.isNone) = some a → a.count ≤ ts.length →
    (∀ x ∈ ts.take a.count, x.toNat < a.vocab) → s.lastCancel a.stream = none →
    (s.ctx a.stream).st = .idle ∨ (s.ctx a.stream).st = .prefill →
    ∃ t more, exec (.appendTokensReadDone r i ts) s = .next t ∧ (t.ctx a.stream).st = .prefill ∧
      (t.ctx a.stream).prompt = (s.ctx a.stream).prompt ++ (ts.take a.count).map (fun x => x.setWidth 24) ++ more ∧
      (t.ctx a.stream).pending = (s.ctx a.stream).pending + a.count + more.length ∧
      (∀ k, k ≠ a.stream → t.ctx k = s.ctx k)) ∧
  (∀ (r : RingNo) (i : Word) (ts : List Word) (a : AppendRec) (s : State), s.running = true →
    s.doc.appends.find? (fun b => decide (b.op.org = .ring r i) && b.data.isNone) = some a →
    s.appendsOf a.stream = [a] → a.count ≤ ts.length →
    (∃ x ∈ ts.take a.count, a.vocab ≤ x.toNat) →
    s.hif.inflight.any (fun p => p.id == a.op.id) = true → s.fenced r.val = false → s.cutOff (r.val / 64) = false →
    ∃ t, exec (.appendTokensReadDone r i ts) s = .next t ∧ t.doc.ctxs = s.doc.ctxs ∧
      s.Answered t r.val (s.record r.val (fld a.op.d 2 15 0) a.op.opcode Status.badDescriptor.code 5 8 0 i.toNat))

/-- R206, R207, R204: an accepted CANCEL of a stream that is IDLE completes with OK at once, of any other it waits, and the
stream is marked as having one; a RELEASE makes its stream RELEASING and waits; a POLICY waits and changes no
context; it has leased a key exactly where it asks for one other than the stream's, and the key it names where it names one (R228). -/
def Obligations.CommandsPend : Prop :=
  (∀ (r : RingNo) (i : Word) (d : Line64) (s : State), s.Accepts (.ring r i) d 0x44 cancelChecks →
    s.fenced r.val = false → s.cutOff (r.val / 64) = false → s.effState (fld d 5 14 0) = .idle →
    s.forkBefore (fld d 5 14 0) s.nextOp = false →
    ∃ t, exec (.cancel (.ring r i) d) s = .next t ∧
      s.Answered t r.val (s.record r.val (fld d 2 15 0) 0x44 Status.ok.code 0 0 0 i.toNat)) ∧
  (∀ (o : Origin) (d : Line64) (s : State), s.Accepts o d 0x44 cancelChecks →
    (s.taken o d 0x44).effState (fld d 5 14 0) ≠ .idle →
    ∃ t, exec (.cancel o d) s = .next t ∧
      t.doc.cancels = s.doc.cancels ++ [{ op := s.asOp o d 0x44, stream := fld d 5 14 0 }] ∧
      t.ctx (fld d 5 14 0) = { s.ctx (fld d 5 14 0) with cancelPend := true } ∧
      (∀ k, k ≠ fld d 5 14 0 → t.ctx k = s.ctx k)) ∧
  (∀ (o : Origin) (d : Line64) (s : State), s.Accepts o d 0x45 releaseChecks →
    ∃ t, exec (.release o d) s = .next t ∧
      t.doc.releases = s.doc.releases ++ [{ op := s.asOp o d 0x45, stream := fld d 5 14 0 }] ∧
      (t.ctx (fld d 5 14 0)).st = .releasing ∧
      (∀ k, k ≠ fld d 5 14 0 → t.ctx k = s.ctx k)) ∧
  (∀ (o : Origin) (d : Line64) (s : State), s.Accepts o d 0x42 policyChecks →
    ∃ t key, exec (.policy o d) s = .next t ∧
      t.doc.policies = s.doc.policies ++ [{ op := s.asOp o d 0x42, stream := fld d 5 14 0, key := key }] ∧
      (key.isSome = true ↔ fbit d 1 4 = true ∧ BitVec.ofNat 64 (fld d 24 63 0) ≠ s.effKey (fld d 5 14 0)) ∧
      (∀ v, key = some v → fld d 24 63 0 ≠ 0 → v = BitVec.ofNat 64 (fld d 24 63 0)) ∧ (∀ k, t.ctx k = s.ctx k))

/-- R189, R190, R205, R228: an accepted FORK takes T as the parent's TOKENS, those that earlier FORKs still owe it among them, gives
the child the parent's layout and last token, leases the key it names if that is a new one, and both maps are FORKING until it
completes; once no earlier command must take effect first the child holds T tokens and, row by row, the parent's pages, draws under
its new key from 0 on, and the FORK is over. -/
def Obligations.Forks : Prop :=
  (∀ (o : Origin) (d : Line64) (s : State), s.Accepts o d 0x43 forkChecks → fld d 5 14 0 ≠ fld d 8 14 0 →
    ∃ t, exec (.fork o d) s = .next t ∧
      t.cur.forks = s.cur.forks ++ [{ op := s.asOp o d 0x43, child := fld d 5 14 0, parent := fld d 8 14 0
                                      t := s.mapTokens (fld d 8 14 0)
                                      key := if fld d 24 63 0 ≠ 0 ∧ BitVec.ofNat 64 (fld d 24 63 0) ≠ s.effKey (fld d 5 14 0)
                                        then some (BitVec.ofNat 64 (fld d 24 63 0)) else none }] ∧
      (t.ctx (fld d 5 14 0)).lastTok = (s.ctx (fld d 8 14 0)).lastTok ∧
      t.kvMap (fld d 5 14 0) = { s.kvMap (fld d 5 14 0) with
        slots := (s.kvMap (fld d 8 14 0)).slots, kfmt := (s.kvMap (fld d 8 14 0)).kfmt, vfmt := (s.kvMap (fld d 8 14 0)).vfmt
        hdim := (s.kvMap (fld d 8 14 0)).hdim, ptok := (s.kvMap (fld d 8 14 0)).ptok, place := (s.kvMap (fld d 8 14 0)).place
        forking := (s.kvMap (fld d 5 14 0)).forking + 1, rows := (t.kvMap (fld d 5 14 0)).rows } ∧
      t.kvMap (fld d 8 14 0) = { s.kvMap (fld d 8 14 0) with forking := (s.kvMap (fld d 8 14 0)).forking + 1 } ∧
      (∀ k, k ≠ fld d 5 14 0 → t.ctx k = s.ctx k) ∧
      (∀ k, k ≠ fld d 5 14 0 → k ≠ fld d 8 14 0 → t.kvMap k = s.kvMap k)) ∧
  (∀ (k : StreamNo) (f : ForkRec) (s : State), s.running = true → s.cur.forks.find? (fun x => x.child == k.val) = some f →
    s.forkWaits f = false → f.child ≠ f.parent →
    ∃ t, exec (.forkComplete k) s = .next t ∧ (t.kvMap f.child).tokens = f.t ∧
      (t.kvMap f.child).forking = (s.kvMap f.child).forking - 1 ∧ (t.kvMap f.parent).forking = (s.kvMap f.parent).forking - 1 ∧
      (∀ n p c, n < cdiv f.t (s.kvMap f.child).ptok → (s.kvMap f.parent).rows[n]? = some p → (s.kvMap f.child).rows[n]? = some c →
        (t.kvMap f.child).rows[n]? = some { c with
          pages := p.pages, fill := min (s.kvMap f.child).ptok (f.t - n * (s.kvMap f.child).ptok) }) ∧
      (∀ key, f.key = some key → t.ctx f.child = { s.ctx f.child with gkey := key, gctr := 0 }) ∧
      (f.key = none → t.ctx f.child = s.ctx f.child) ∧ (∀ j, j ≠ f.child → t.ctx j = s.ctx j) ∧
      (∀ j, j ≠ f.child → j ≠ f.parent → t.kvMap j = s.kvMap j) ∧ t.cur.forks = s.cur.forks.erase f)

/-- R191, R207, R259: RELEASE_EXECUTE of a stream that is ready gives up its map, clears its context and ends its RELEASE; a
waiting END record is written at the stream's PROD, with its status, as soon as the ring has room. -/
def Obligations.StreamEnds : Prop :=
  (∀ (k : StreamNo) (s : State), s.running = true → s.releaseReady k.val = true → s.cur.lost = [] →
    Tbl.find s.cur.lostCtx k.val = none →
    ∃ t, exec (.releaseExecute k) s = .next t ∧ t.ctx k.val = {} ∧ t.kvMap k.val = {} ∧
      (∀ j, j ≠ k.val → t.ctx j = s.ctx j ∧ t.kvMap j = s.kvMap j) ∧
      (∀ c ∈ t.doc.releases, c ∈ s.doc.releases ∧ c.stream ≠ k.val)) ∧
  (∀ (k : StreamNo) (st : Status) (s : State), s.running = true → (s.ctx k.val).endWait = some st → (s.ctx k.val).room ≠ 0 →
    (s.ctx k.val).afterEnd = [] → s.cutOff (s.ctx k.val).gal = false →
    ∃ t, exec (.endRecordWrite k) s = .next t ∧
      t.ctx k.val = { s.ctx k.val with endWait := none, prod := (s.ctx k.val).prod + 1 } ∧
      t.out = s.out ++ [.hostWrite (s.ctx k.val).gal
        ((s.ctx k.val).ring + 16 * ((s.ctx k.val).prod.toNat % 2 ^ (s.ctx k.val).rlog2))
        (toLE 4 (2 ^ 24) ++ toLE 4 (s.kvMap k.val).tokens ++ toLE 4 (st.code + s.beat % 2 ^ 24 * 256) ++ toLE 2 0 ++
          toLE 2 (((s.ctx k.val).prod.toNat / 2 ^ (s.ctx k.val).rlog2 + 1) % 2 * 2 ^ 15))] ∧
      (∀ j, j ≠ k.val → t.ctx j = s.ctx j))

/-! ### Steps -/

/-- R213: STEP_OP_ISSUE gives an operation of a lane group's body the effect of its own command, a core operation fanned over one
core the effect of that instance's, and moves the group on to the next operation; then the token writes it brings take place, also
where the body has no operation left. An operation with BARRIER waits while one of the step is outstanding. R181, R208, R210, R223: at the end of
a step of one stream outside Carmine the group is gone, the stream's map has gained its tokens, and the stream is out of its
step; once the beat of a Carmine group's held records has come the group holds none, and their streams leave their step. -/
def Obligations.StepsRun : Prop :=
  (∀ x ∈ ([(0, .addnorm), (1, .convert), (2, .bcast), (3, .merge), (4, .psum), (5, .sample)] :
      List (Nat × (Origin → Line64 → Instr))),
    ∀ (gid : Nat) (g : LaneGroup) (d : Line64) (ws : List TokenWrite) (s : State), s.running = true → s.laneGroup? gid = some g →
    (s.body g)[g.next]? = some d → perStream d = false → fld d 0 7 0 = 0x78 → fld d 8 2 0 = x.1 →
    (barrier d = false ∨ g.outstanding = []) → ∃ u, exec (x.2 (.step gid) d) s = .next u ∧
    exec (.stepOpIssue gid ws) s = .next (ws.foldl (fun v w => v.stepWrite gid w)
      (u.updGroup gid (fun l => { l with next := l.next + 1 })))) ∧
  (∀ x ∈ ([(0x20, .copy), (0x21, .fill), (0x22, .compare), (0x23, .gather), (0x24, .spStrided), (0x25, .spTranspose),
      (0x26, .t24Convert), (0x27, .dmaStop), (0x74, .coll)] : List (Nat × (Origin → Line64 → Instr))),
    ∀ (gid : Nat) (g : LaneGroup) (d : Line64) (ws : List TokenWrite) (s : State), s.running = true → s.laneGroup? gid = some g →
    (s.body g)[g.next]? = some d → perStream d = false → fld d 0 7 0 = x.1 → (barrier d = false ∨ g.outstanding = []) →
    ∃ u, exec (x.2 (.step gid) d) s = .next u ∧
    exec (.stepOpIssue gid ws) s = .next (ws.foldl (fun v w => v.stepWrite gid w)
      (u.updGroup gid (fun l => { l with next := l.next + 1 })))) ∧
  (∀ x ∈ ([(0x62, .tile), (0x63, .tileBs), (0x64, .attn)] : List (Nat × (Origin → Line64 → Instr))),
    ∀ (gid : Nat) (g : LaneGroup) (d : Line64) (ws : List TokenWrite) (s : State), s.running = true → s.laneGroup? gid = some g →
    (s.body g)[g.next]? = some d → perStream d = false → fan d = 1 → fld d 0 7 0 = x.1 →
    (barrier d = false ∨ g.outstanding = []) → ∃ u, exec (x.2 (.step gid) (fanLine d 0)) s = .next u ∧
    exec (.stepOpIssue gid ws) s = .next (ws.foldl (fun v w => v.stepWrite gid w)
      (u.updGroup gid (fun l => { l with next := l.next + 1 })))) ∧
  (∀ (gid : Nat) (g : LaneGroup) (ws : List TokenWrite) (s : State), s.running = true → s.laneGroup? gid = some g →
    (s.body g).length ≤ g.next →
    exec (.stepOpIssue gid ws) s = .next (ws.foldl (fun v w => v.stepWrite gid w) s)) ∧
  (∀ (gid : Nat) (g : LaneGroup) (d : Line64) (s : State), s.running = true → s.laneGroup? gid = some g →
    (s.body g)[g.next]? = some d → barrier d = true → g.outstanding ≠ [] → exec (.stepOpIssue gid []) s = .next s) ∧
  (∀ (gid : Nat) (g : LaneGroup) (m : Member) (s : State), s.running = true → s.laneGroup? gid = some g → s.stepOver g = true →
    g.cgroup = none → g.members = [m] →
    ∃ t, exec (.stepComplete gid) s = .next t ∧ t.laneGroup? gid = none ∧
      (t.kvMap m.stream).tokens = (s.kvMap m.stream).tokens + m.tokens ∧
      (t.ctx m.stream).inStep = false ∧ (t.ctx m.stream).issuedAt = s.issueBeat ∧
      (∀ k, k ≠ m.stream → t.ctx k = s.ctx k ∧ t.kvMap k = s.kvMap k)) ∧
  (∀ (c : Fin 256) (x : CGroup) (s : State), s.running = true → Tbl.find s.doc.cgroups c.val = some x → x.held ≠ [] →
    x.heldDue ≤ s.beat → Tbl.sorted s.doc.cgroups = true →
    ∃ t, exec (.carmineRecordRelease c) s = .next t ∧
      (∀ g, Tbl.find t.doc.cgroups c.val = some g → g.held = []) ∧
      (∀ r ∈ x.held, (t.ctx r.stream).inStep = false) ∧
      (∀ k, (∀ r ∈ x.held, r.stream ≠ k) → t.ctx k = s.ctx k))




/-! ### Pages -/

/-- R187, R188, R193, R194: a copy on write whose source page is in the Curator's part of the staging buffer, or finds room there, is
done when it completes, with its page FULL if it wrote the last token; a page copy joins its page's LINK chain as a COPY page; an accepted PAGE_MOVE waits with a frame taken for it, and at
its completion the page lies in that frame. -/
def Obligations.PagesCopyAndMove : Prop :=
  (∀ (k : StreamNo) (slot : Nat) (c : Cow) (s : State),
    s.cur.cows.find? (fun x => x.stream == k.val && x.slot == slot && !x.done) = some c →
    (s.stagePage c).2.isSome = true →
    ∃ t, exec (.cowCopyComplete k slot) s = .next t ∧
      t.cur.cows = s.cur.cows.map (fun y => if y = c then { y with done := true } else y) ∧
      t.page c.dst = { s.page c.dst with full := (s.page c.dst).full || decide (c.pos + 1 = (s.kvMap c.stream).ptok) } ∧
      (∀ n, n ≠ c.dst → t.page n = s.page n)) ∧
  (∀ (n : Word) (q : Nat) (cf : Nat × Nat) (s : State), s.running = true → s.flag .curCtrl [] 0 = true →
    (s.page n.toNat).st = .live → (s.page n.toNat).full = true →
    (s.page n.toNat).copies.length + 1 ≤ s.copiesDue (s.page n.toNat) →
    s.pageUse (s.page n.toNat).gal + 1 ≤ s.pageQuota (s.page n.toNat).gal →
    (s.chooseFrame (((s.page n.toNat).core + 128 * ((s.page n.toNat).copies.length + 1)) % 2048) (s.page n.toNat).gal).2 = some cf →
    ((s.chooseFrame (((s.page n.toNat).core + 128 * ((s.page n.toNat).copies.length + 1)) % 2048)
      (s.page n.toNat).gal).1.freePage).2 = some q →
    ∃ t, exec (.pageCopyMake n) s = .next t ∧
      t.page q = { st := .copy, frame := cf.2, core := cf.1, refs := 0, full := true, gal := (s.page n.toNat).gal, copies := [] } ∧
      t.page n.toNat = { s.page n.toNat with copies := (s.page n.toNat).copies ++ [q] } ∧
      (∀ j, j ≠ n.toNat → j ≠ q → t.page j = s.page j)) ∧
  (∀ (o : Origin) (d : Line64) (cf : Nat × Nat) (s : State), s.Accepts o d 0x68 pageMoveChecks →
    ((s.taken o d 0x68).chooseFrame (fld d 12 10 0) (s.asOp o d 0x68).gal).2 = some cf →
    ∃ t, exec (.pageMove o d) s = .next t ∧
      t.cur.moves = s.cur.moves ++ [{ op := s.asOp o d 0x68, page := fld d 8 31 0, core := cf.1, frame := cf.2 }]) ∧
  (∀ (n : Word) (m : MoveRec) (s : State), s.running = true → s.cur.moves.find? (fun x => x.page == n.toNat) = some m →
    (s.page m.page).st ≠ .free → (s.page m.page).full = true → (s.page m.page).gal = m.op.gal →
    ∃ t, exec (.pageMoveComplete n) s = .next t ∧ t.page m.page = { s.page m.page with core := m.core, frame := m.frame } ∧
      (∀ j, j ≠ m.page → t.page j = s.page j) ∧ t.cur.moves = s.cur.moves.erase m)
/-! ### Cores -/

/-- R88 to R91, R446: an accepted CORE_BIND fills the entry it names and completes at once with the entry's reference where no
line of its range is stale, else waits; when the zero-fill is done the stale lines read as zero, every line of the range
carries the gallery's tag, and no bind stands on the entry; CORE_UNBIND puts the entry into DRAINING under its next
generation; a drained entry is FREE with its generation kept. When such an entry becomes BOUND to its users is the model's
reading (log 12). -/
def Obligations.HandlesBindAndDrain : Prop :=
  (∀ (r : RingNo) (i : Word) (d : Line64) (s : State), s.Accepts (.ring r i) d 0x60 bindChecks → s.fenced r.val = false →
    s.cutOff (r.val / 64) = false →
    ∃ t, exec (.coreBind (.ring r i) d) s = .next t ∧
      (t.core (fld d 8 10 0)).handle (fld d 10 5 0) = { (s.core (fld d 8 10 0)).handle (fld d 10 5 0) with
        st := .bound, base := fld d 12 11 0, lines := fld d 14 12 0, fmt := fld d 16 4 0, typed := fbit d 16 5
        order := fbit d 16 6, ring := fbit d 16 7, gal := r.val / 64, count := 0, prod := 0, cons := 0, slots := []
        bindOp := if (s.core (fld d 8 10 0)).staleLines (fld d 12 11 0) (fld d 14 12 0) (r.val / 64) = [] then none
          else some (s.asOp (.ring r i) d 0x60) } ∧
      ((s.core (fld d 8 10 0)).staleLines (fld d 12 11 0) (fld d 14 12 0) (r.val / 64) = [] →
        s.Answered t r.val (s.record r.val (fld d 2 15 0) 0x60 Status.ok.code 0 0
          (fld d 10 5 0 + ((s.core (fld d 8 10 0)).handle (fld d 10 5 0)).gen.toNat * 256) i.toNat)) ∧
      ((s.core (fld d 8 10 0)).staleLines (fld d 12 11 0) (fld d 14 12 0) (r.val / 64) ≠ [] → t.out = s.out) ∧
      (∀ c, c ≠ fld d 8 10 0 → t.core c = s.core c)) ∧
  (∀ (c : CoreNo) (e : Fin 64) (o : Op) (s : State), s.running = true → ((s.core c.val).handle e.val).bindOp = some o →
    ∃ t, exec (.bindZeroFillDone c e) s = .next t ∧
      (t.core c.val).handle e.val = { (s.core c.val).handle e.val with bindOp := none } ∧
      (∀ l, ((s.core c.val).handle e.val).base ≤ l →
        l < ((s.core c.val).handle e.val).base + ((s.core c.val).handle e.val).lines →
        Tbl.look (t.core c.val).tags l 0 = ((s.core c.val).handle e.val).gal + 1) ∧
      (∀ l b, l ∈ (s.core c.val).staleLines ((s.core c.val).handle e.val).base ((s.core c.val).handle e.val).lines
          ((s.core c.val).handle e.val).gal → b < 64 → Memory.get t.mem (s.scratch c.val + 64 * l + b) = 0) ∧
      (∀ a, (∀ l, l ∈ (s.core c.val).staleLines ((s.core c.val).handle e.val).base ((s.core c.val).handle e.val).lines
          ((s.core c.val).handle e.val).gal → a < s.scratch c.val + 64 * l ∨ s.scratch c.val + 64 * l + 64 ≤ a) →
        Memory.get t.mem a = Memory.get s.mem a)) ∧
  (∀ (o : Origin) (d : Line64) (s : State), s.Accepts o d 0x61 unbindChecks →
    ∃ t, exec (.coreUnbind o d) s = .next t ∧
      (t.core (fld d 8 10 0)).handle (refIndex (fld d 10 15 0)) =
        { (s.core (fld d 8 10 0)).handle (refIndex (fld d 10 15 0)) with
            st := .draining, gen := ((s.core (fld d 8 10 0)).handle (refIndex (fld d 10 15 0))).gen + 1
            unbindOp := some (s.asOp o d 0x61) } ∧
      (∀ c, c ≠ fld d 8 10 0 → t.core c = s.core c)) ∧
  (∀ (c : CoreNo) (e : Fin 64) (o : Op) (s : State), s.running = true → ((s.core c.val).handle e.val).st = .draining →
    ((s.core c.val).handle e.val).count = 0 → ((s.core c.val).handle e.val).unbindOp = some o →
    ∃ t, exec (.handleDrained c e) s = .next t ∧
      (t.core c.val).handle e.val = { gen := ((s.core c.val).handle e.val).gen } ∧
      (∀ x, x ≠ c.val → t.core x = s.core x))

/-- R96: an accepted TILE, TILE_BS or ATTN waits at the issue point of the core it names, behind what waits there. R94, R115,
R289: of one waiting operation that may go, the issue point makes it issued: a DMA operation may begin with its entries in
the scoreboard, an ATTN stands behind the core's issued ATTNs, a tile of the core's own array behind its issued tiles; it
waits there no longer. What is checked at acceptance and what at issue is the model's reading (log 46). -/
def Obligations.CoreOpsIssue : Prop :=
  (∀ x ∈ coreRows, ∀ (o : Origin) (d : Line64) (s : State), s.Accepts o d x.opcode x.checks →
    ∃ t, exec (x.make o d) s = .next t ∧
      t.core (fld d 8 10 0) = { s.core (fld d 8 10 0) with waiting := (s.core (fld d 8 10 0)).waiting ++ [s.asOp o d x.opcode] } ∧
      (∀ c, c ≠ fld d 8 10 0 → t.core c = s.core c) ∧ t.mem = s.mem) ∧
  (∀ (c : CoreNo) (o : Op) (s : State), s.running = true → (s.core c.val).waiting = [o] → o.tileLike = false →
    s.dmaMayIssue c.val o = true → (∀ e ∈ o.scratchEps, s.hrefBad e.core e.href o.gal = false) →
    ∃ t, exec (.coreIssue c) s = .next t ∧ (t.core c.val).waiting = [] ∧
      (t.core c.val).scoreboard = (s.core c.val).scoreboard ++ (s.dmaEntries o).map Prod.snd ∧
      (∀ y ∈ t.dma.ops, y.op.id = o.id → y.issued = true)) ∧
  (∀ (c : CoreNo) (o : Op) (s : State), s.running = true → (s.core c.val).waiting = [o] → o.tileLike = true →
    o.opcode = opAttn → o.core = c.val → (s.nextTile c.val) = (s, some o) → s.attnVerdict o = .go → s.mayQueue o = true →
    ∃ t, exec (.coreIssue c) s = .next t ∧ (t.core c.val).waiting = [] ∧
      (t.core c.val).attns.map (fun a => a.op) = (s.core c.val).attns.map (fun a => a.op) ++ [o]) ∧
  (∀ (c : CoreNo) (o : Op) (s : State), s.running = true → (s.core c.val).waiting = [o] → o.tileLike = true →
    o.opcode ≠ opAttn → o.core = c.val → (s.nextTile c.val) = (s, some o) → s.tileVerdict o = .go → s.mayQueue o = true →
    s.toAnnex o = false →
    ∃ t, exec (.coreIssue c) s = .next t ∧ (t.core c.val).waiting = [] ∧
      (t.core c.val).tiles.map (fun x => x.op) = (s.core c.val).tiles.map (fun x => x.op) ++ [o] ∧ t.mem = s.mem)

/-- R48, R87, R103: a load of a core's running tile, or of its tile that runs in the annex, adds its chunk slots to those copied, as
they stand in the vector's range (a chunk past k1 reads as zero), and the first load brings the header's E_max. From a ring a chunk
comes from the slot it stands in, and when the tile copies it for the last time the slots up to it give their credits back. A tile
whose ring does not hold its chunk yet waits. -/
def Obligations.ChunksLoad : Prop :=
  (∀ (c : CoreNo) (ups : List Upset) (s u : State) (x : TileRun) (l : List TileRun), u = s.upsets ups → u.running = true →
    (u.core c.val).tiles = x :: l → x.started = true → x.loaded.length < x.op.loads → x.op.core = c.val →
    (u.href c.val x.op.ahdl).ring = false →
    ∃ t st, exec (.chunkLoadDone c ups) s = .next t ∧ (st = x.status ∨ st = x.status.max .arrayUe) ∧
      (t.core c.val).tiles = { x with
        loaded := x.loaded ++ [((List.range x.op.slotsPerLoad).map (fun j =>
          if cdiv x.op.k1 160 ≤ x.op.loadChunk x.loaded.length + j then List.replicate (vectorSlot x.op.afmt x.lanes) 0
          else u.handleBytes c.val x.op.ahdl (256 + (x.op.loadChunk x.loaded.length + j) * vectorSlot x.op.afmt x.lanes)
            (vectorSlot x.op.afmt x.lanes))).flatten]
        erefs := if x.loaded = [] then headerEmax (u.handleBytes c.val x.op.ahdl 0 256) else x.erefs
        status := st } :: l) ∧
  (∀ (c : CoreNo) (ups : List Upset) (s u : State) (x : TileRun) (l : List TileRun) (i at_ : Nat), u = s.upsets ups →
    u.running = true → (u.core c.val).tiles = x :: l → x.started = true → x.loaded.length < x.op.loads → x.op.core = c.val →
    x.op.sparse = false → (u.href c.val x.op.ahdl).ring = true → x.op.loadChunk x.loaded.length < cdiv x.op.k1 160 →
    (u.href c.val x.op.ahdl).ringFind ((u.href c.val x.op.ahdl).ringSlots (vectorSlot x.op.afmt x.lanes))
      (x.op.loadChunk x.loaded.length) = some (i, at_) → x.op.sharesLast (x.op.loadChunk x.loaded.length) = false →
    ∃ t st, exec (.chunkLoadDone c ups) s = .next t ∧ (st = x.status ∨ st = x.status.max .arrayUe) ∧
      (t.core c.val).tiles = { x with
        loaded := x.loaded ++ [u.handleBytes c.val x.op.ahdl (256 + at_ * vectorSlot x.op.afmt x.lanes)
          (vectorSlot x.op.afmt x.lanes)]
        erefs := if x.loaded = [] then headerEmax (u.handleBytes c.val x.op.ahdl 0 256) else x.erefs
        status := st } :: l ∧
      t.href c.val x.op.ahdl = (if x.op.lastPass x.loaded.length = true then { u.href c.val x.op.ahdl with
        cons := (u.href c.val x.op.ahdl).cons + i + 1, slots := (u.href c.val x.op.ahdl).slots.drop (i + 1) }
        else u.href c.val x.op.ahdl)) ∧
  (∀ (c : CoreNo) (ups : List Upset) (s u : State) (x : TileRun), u = s.upsets ups → u.running = true →
    (u.core c.val).tiles = [] → u.annex.running = some x → x.loaded.length < x.op.loads → x.op.core = c.val →
    (u.href c.val x.op.ahdl).ring = false →
    ∃ t b er st, exec (.chunkLoadDone c ups) s = .next t ∧
      t.annex.running = some { x with loaded := x.loaded ++ [b], erefs := er, status := st } ∧ t.annex.queue = u.annex.queue) ∧
  (∀ (c : CoreNo) (ups : List Upset) (s u : State) (x : TileRun) (l : List TileRun), u = s.upsets ups → u.running = true →
    (u.core c.val).tiles = x :: l → x.started = true → x.loaded.length < x.op.loads → x.op.core = c.val →
    (u.href c.val x.op.ahdl).ring = true → x.op.loadChunk x.loaded.length < cdiv x.op.k1 160 →
    x.op.loadChunk x.loaded.length ∉ (u.href c.val x.op.ahdl).slots →
    ∃ t, exec (.chunkLoadDone c ups) s = .next t ∧ t.cores = u.cores ∧ t.mem = u.mem ∧ t.annex = u.annex)

/-- R106, R107, R127, R137, R140: at the end of a core's only tile, its weights at hand, the tile is gone and its bank holds the sums
of its masks with the chunks loaded over what the chain held, HELD or, where the tile closes its chain, DRAINING; a block-sparse
tile whose lists are out of bounds adds nothing. R107, R110, R142: when the last entry of a draining bank has left, the bank is
FREE and nothing but the hall buffer of memory has changed. -/
def Obligations.TilesComplete : Prop :=
  (∀ (c : CoreNo) (ups : List Upset) (s u v : State) (x : TileRun), u = s.upsets ups → u.running = true →
    (u.core c.val).tiles = [x] → x.ready = true → x.op.core = c.val → x.op.bs = false → u.weightsShut x.op = false →
    (u.chan c.val).queue = [] → v = u.waitEnd (srcCore c.val) 8 x.op.identity none → (v.tileTrits x).2.1.cut = none →
    ∃ t, exec (.tileComplete c ups) s = .next t ∧ (t.core c.val).tiles = [] ∧
      ((t.core c.val).bank x.bank).st = (if x.op.closes then .draining else .held) ∧
      ((t.core c.val).bank x.bank).ents = tileSums x.op.afmt x.op.rows x.op.k0 x.op.k1 x.op.sparse
        ((v.expanderDone x (v.tileTrits x).2.1 (v.tileTrits x).2.2).1.tileMasks x ups (v.tileTrits x).1).2.1 x.slotLists x.erefs
        (if x.op.joins then ((u.core c.val).bank x.bank).ents else []) ∧
      (t.core c.val).bank (!x.bank) = (u.core c.val).bank (!x.bank) ∧
      (∀ a, a < 2 ^ 40 → Memory.get t.mem a = Memory.get u.mem a)) ∧
  (∀ (c : CoreNo) (ups : List Upset) (s u : State) (x : TileRun), u = s.upsets ups → u.running = true →
    (u.core c.val).tiles = [x] → x.ready = true → x.op.core = c.val → x.op.bs = true → u.weightsShut x.op = false →
    (u.chan c.val).queue = [] → x.bsBound = true → x.status = .ok →
    (∀ i ∈ x.slices.head?, i.quar = none ∧ i.bad = false ∧ i.lost = false) →
    ∃ t, exec (.tileComplete c ups) s = .next t ∧ (t.core c.val).tiles = [] ∧
      ((t.core c.val).bank x.bank).st = (if x.op.closes then .draining else .held) ∧
      ((t.core c.val).bank x.bank).status = .operandBound ∧
      ((t.core c.val).bank x.bank).ents = (if x.op.joins then ((u.core c.val).bank x.bank).ents else [])) ∧
  (∀ (c : CoreNo) (b : Bool) (ups : List Upset) (s : State) (o : Op), (s.upsets ups).running = true →
    (((s.upsets ups).core c.val).bank b).op = some o → (((s.upsets ups).core c.val).bank b).st = .draining →
    ((s.upsets ups).core c.val).tiles = [] → o.core = c.val →
    ∃ t, exec (.accumulatorDrainDone c b ups) s = .next t ∧ (t.core c.val).bank b = {} ∧
      (t.core c.val).bank (!b) = ((s.upsets ups).core c.val).bank (!b) ∧
      (∀ a, a < 2 ^ 41 → Memory.get t.mem a = Memory.get (s.upsets ups).mem a))

/-- R122, R125: the annex starts its oldest waiting tile in a bank it may use; when that tile ends the annex is idle, and the
bank of a tile that leaves its chain open is HELD with the FP32 sums of its weights and activations over what the chain
held. R157, R164, R413: when a core's running ATTN ends it leaves the core, and no channel byte has changed; an ATTN whose
every score group is fenced changes no memory at all. -/
def Obligations.AnnexAndAttn : Prop :=
  (∀ (s : State) (x : TileRun) (l : List TileRun) (b : Bool), s.running = true → s.annex.running = none → s.annex.queue = x :: l →
    s.annex.bankFor x.op = some b →
    ∃ t, exec .annexTileStart s = .next t ∧ t.annex.running = some { x with started := true, bank := b } ∧
      t.annex.queue = l ∧ (t.annex.bank b).st = .filling ∧ t.annex.bank (!b) = s.annex.bank (!b)) ∧
  (∀ (ups : List Upset) (s u v w : State) (x : TileRun), u = s.upsets ups → u.running = true → u.annex.running = some x →
    x.ready = true → x.op.closes = false → u.weightsShut x.op = false → (u.chan x.op.core).queue = [] →
    v = u.waitEnd (srcHub hubAnnex) 8 x.op.identity none → (v.tileTrits x).2.1.cut = none →
    w = ((((v.expanderDone x (v.tileTrits x).2.1 (v.tileTrits x).2.2).1.tileLeave x).annexIdle).chargeTile x.op).count .anxTile 0 1 →
    ∃ t, exec (.annexTileComplete ups) s = .next t ∧ t.annex.running = none ∧ t.annex.queue = u.annex.queue ∧
      (t.annex.bank x.bank).st = .held ∧
      (t.annex.bank x.bank).ents = annexSums x.op.rows x.lanes
        (rowWeights x.op.rows (x.op.k1 - x.op.k0) (w.annexPlanes x ups (v.tileTrits x).1).2.1) ((List.range x.lanes).map x.laneF32)
        (if x.op.joins then (u.annex.bank x.bank).ents else [])) ∧
  (∀ (c : CoreNo) (ups : List Upset) (fs : List AttnFault) (s u : State) (x : AttnRun) (l : List AttnRun), u = s.upsets ups →
    u.running = true → (u.core c.val).attns = x :: l → x.op.core = c.val →
    (x.pages = [] ∨ u.chanShut c.val x.op.charged = false) → (u.chan c.val).queue = [] →
    ∃ t, exec (.attnComplete c ups fs) s = .next t ∧ (t.core c.val).attns = l ∧
      (∀ a, a < 2 ^ 40 → Memory.get t.mem a = Memory.get u.mem a) ∧ (x.noScore = true → t.mem = u.mem))

/-! ### The hub -/

/-- R389: an accepted ADDNORM, CONVERT, MERGE, PSUM or SAMPLE is with its hub unit; an accepted BCAST to cores whose entries are
rings of its gallery waits its turn on every plinth it addresses, and on no other. R87, R389: once every
core it addresses has room, a broadcast's chunk goes to every core of the plinth together: each ring has one chunk more sent, and after the last chunk the broadcast is gone from
the plinth; a hub operation that its unit serves leaves the hub at its end, and no memory but the hall buffer has changed. -/
def Obligations.HubRuns : Prop :=
  (∀ x ∈ hubRows, ∀ (o : Origin) (d : Line64) (s : State), s.Accepts o d 0x78 x.checks →
    ∃ t, exec (x.make o d) s = .next t ∧ t.hubOps = s.hubOps ++ [s.asOp o d 0x78]) ∧
  (∀ (o : Origin) (d : Line64) (s : State), s.Accepts o d 0x78 (hubChecks 2) → 0 < HubF.elems (s.asOp o d 0x78) →
    (∀ c ∈ maskCores (HubF.pmask (s.asOp o d 0x78)),
      s.hrefBad c (HubF.ahdl (s.asOp o d 0x78)) (s.asOp o d 0x78).gal = false ∧
      (s.href c (HubF.ahdl (s.asOp o d 0x78))).ring = true) →
    ∃ t, exec (.bcast o d) s = .next t ∧ t.hubOps = s.hubOps ++ [s.asOp o d 0x78] ∧
      (∀ p, p < 8 → bit (HubF.pmask (s.asOp o d 0x78)) p = true →
        ∃ b ∈ (t.plinth p).broadcasts, b.op = s.asOp o d 0x78 ∧ b.next = 0 ∧
          b.total = cdiv (HubF.elems (s.asOp o d 0x78)) 160) ∧
      (∀ p, p < 8 → bit (HubF.pmask (s.asOp o d 0x78)) p = false → t.plinth p = s.plinth p)) ∧
  (∀ (p : PlinthNo) (s : State) (b : Broadcast) (l : List Broadcast), s.running = true → (s.plinth p.val).broadcasts = b :: l →
    b.next < b.total → s.allCredit b = true →
    ∃ t, exec (.broadcastChunkSend p) s = .next t ∧
      (∀ c ∈ plinthCores p.val, ((t.core c).handle (refIndex b.ahdl)).prod = ((s.core c).handle (refIndex b.ahdl)).prod + 1 ∧
        ((t.core c).handle (refIndex b.ahdl)).slots = ((s.core c).handle (refIndex b.ahdl)).slots ++ [b.next]) ∧
      (t.plinth p.val).broadcasts = (if b.total ≤ b.next + 1 then l else { b with
        next := b.next + 1, emax := if b.next = 0 then headerEmax (s.hallBytes b.src 256) else b.emax } :: l) ∧
      (∀ c, c ∉ plinthCores p.val → t.core c = s.core c) ∧
      (∀ a, a < 2 ^ 40 → Memory.get t.mem a = Memory.get s.mem a)) ∧
  (∀ (n : Nat) (o : Op) (s : State), s.running = true → s.hubOps.find? (fun p => p.id == n) = some o → s.bcastRuns o = false →
    s.hubServes o = true →
    ∃ t, exec (.hubOperationComplete n) s = .next t ∧ t.hubOps = s.hubOps.filter (fun p => p.id != n) ∧
      (∀ a, a < 2 ^ 41 → Memory.get t.mem a = Memory.get s.mem a) ∧
      (HubF.func o = 2 → t.mem = s.mem))

/-! ### Programs and objects -/

/-- R211, R332: an accepted PROG_LOAD of an image that is in order puts its program into the slot and pins the object it lies
in; one with address 0 empties the slot and unpins the object. -/
def Obligations.ProgramsLoad : Prop :=
  (∀ (r : RingNo) (i : Word) (d : Line64) (img : Bytes) (s u : State) (im : ImageRead) (p : Prog),
    s.readsImage (.ring r i) d = true → s.readImage (fld d 16 47 0) img = (u, some im) → im.short = false →
    u.Accepts (.ring r i) d 0x46 (progChecks (some im)) → (u.taken (.ring r i) d 0x46).parseProg im.img im.obj = some p →
    u.fenced r.val = false → u.cutOff (r.val / 64) = false →
    ∃ t, exec (.progLoad (.ring r i) d img) s = .next t ∧ Tbl.find t.doc.progs (fld d 8 7 0) = some p ∧
      (∀ k, k ≠ fld d 8 7 0 → Tbl.find t.doc.progs k = Tbl.find s.doc.progs k) ∧
      (∀ x, s.obj? im.obj = some x → t.obj? im.obj = some { x with pins := x.pins + 1 }) ∧
      u.Answered t r.val (u.record r.val (fld d 2 15 0) 0x46 Status.ok.code 0 0 0 i.toNat)) ∧
  (∀ (r : RingNo) (i : Word) (d : Line64) (img : Bytes) (s : State), s.Accepts (.ring r i) d 0x46 (progChecks none) →
    fld d 16 47 0 = 0 → s.fenced r.val = false → s.cutOff (r.val / 64) = false →
    ∃ t, exec (.progLoad (.ring r i) d img) s = .next t ∧ Tbl.find t.doc.progs (fld d 8 7 0) = none ∧
      (∀ k, k ≠ fld d 8 7 0 → Tbl.find t.doc.progs k = Tbl.find s.doc.progs k) ∧
      (∀ p x, s.prog? (fld d 8 7 0) = some p → s.obj? p.obj = some x → t.obj? p.obj = some { x with pins := x.pins - 1 }) ∧
      s.Answered t r.val (s.record r.val (fld d 2 15 0) 0x46 Status.ok.code 0 0 0 i.toNat))

/-- R325, R326, R328, R330, R332, R334: with a channel kept for object operations free, an accepted OBJ_CREATE makes the object it describes under the lowest number no object
holds, with every panel in T1 where it asks for that, maps it and answers with its number; an ACCESSION without FETCH
registers its object, maps it into gallery 0 and answers with its number, and with FETCH a migration of all its panels to T1
waits; an OBJ_MAP adds the mapping; an OBJ_PIN adds to or takes from the pins; an OBJ_QUERY changes no object and answers
with the panel's tier, marks and pins and the object's number. While the four channels are taken it waits, and no record goes out. -/
def Obligations.ObjectsKept : Prop :=
  (∀ (r : RingNo) (i : Word) (d : Line64) (s : State) (n : Nat), s.Accepts (.ring r i) d 0x69 objCreateChecks →
    s.ObjReady → s.freeObj = some n → s.fenced r.val = false → s.cutOff (r.val / 64) = false →
    ∃ t, exec (.objCreate (.ring r i) d) s = .next t ∧
      t.obj? n = some { accessioned := false, gal := r.val / 64, panels := fld d 16 19 0, placed := true
                        cbase := fld d 24 10 0, ppc := fld d 26 10 0, t1ofs := fld d 28 27 0 } ∧
      (∀ m, m ≠ n → t.obj? m = s.obj? m) ∧
      t.tiers.maps = s.tiers.maps ++
        [{ gal := r.val / 64, daddr := fld d 8 47 0, panels := fld d 16 19 0, obj := n }] ∧
      (fld d 20 1 0 ≠ 0 → (∀ p, p < fld d 16 19 0 → t.panel n p = { tier := 1 }) ∧ t.tiers.t0used = s.tiers.t0used) ∧
      s.Answered t r.val (s.record r.val (fld d 2 15 0) 0x69 Status.ok.code 0 0 n i.toNat)) ∧
  (∀ (r : RingNo) (i : Word) (d : Line64) (s : State) (n : Nat), s.Accepts (.ring r i) d 0x6A accessionChecks →
    s.ObjReady → s.freeObj = some n → s.fenced r.val = false → s.cutOff (r.val / 64) = false → fbit d 20 1 = false →
    ∃ t, exec (.accession (.ring r i) d) s = .next t ∧ t.obj? n = some (accessionedObj (s.asOp (.ring r i) d 0x6A)) ∧
      (∀ m, m ≠ n → t.obj? m = s.obj? m) ∧
      t.tiers.maps = s.tiers.maps ++ [{ gal := 0, daddr := fld d 8 47 0, panels := fld d 16 19 0, obj := n }] ∧
      t.tiers.panels = s.tiers.panels ∧
      s.Answered t r.val (s.record r.val (fld d 2 15 0) 0x6A Status.ok.code 0 0 n i.toNat)) ∧
  (∀ (o : Origin) (d : Line64) (s : State) (n : Nat), s.Accepts o d 0x6A accessionChecks → s.freeObj = some n →
    fbit d 20 1 = true → 0 < fld d 16 19 0 → (∀ g ∈ s.tiers.migs, g.op.id ≠ s.nextOp) → s.ObjQueued →
    ∃ t, exec (.accession o d) s = .next t ∧ t.obj? n = some (accessionedObj (s.asOp o d 0x6A)) ∧
      t.tiers.migs = s.tiers.migs ++ [{ op := s.asOp o d 0x6A, obj := n, first := 0, count := fld d 16 19 0, target := 1
                                        frames := [], left := List.range (fld d 16 19 0) }] ∧ t.out = s.out) ∧
  (∀ (r : RingNo) (i : Word) (d : Line64) (s : State) (x : Obj), s.Accepts (.ring r i) d 0x6B objMapChecks →
    s.ObjReady → s.obj? (fld d 8 13 0) = some x → s.fenced r.val = false → s.cutOff (r.val / 64) = false →
    ∃ t, exec (.objMap (.ring r i) d) s = .next t ∧
      t.tiers.maps = s.tiers.maps ++
        [{ gal := r.val / 64, daddr := fld d 16 47 0, panels := x.panels, obj := fld d 8 13 0 }] ∧
      t.tiers.objs = s.tiers.objs ∧
      s.Answered t r.val (s.record r.val (fld d 2 15 0) 0x6B Status.ok.code 0 0 0 i.toNat)) ∧
  (∀ (r : RingNo) (i : Word) (d : Line64) (s : State) (m : Mapping) (x : Obj), s.Accepts (.ring r i) d 0x6E objPinChecks →
    s.mappingAt (r.val / 64) (fld d 8 47 0) false = some m → s.obj? m.obj = some x →
    s.ObjReady → s.fenced r.val = false → s.cutOff (r.val / 64) = false →
    ∃ t, exec (.objPin (.ring r i) d) s = .next t ∧
      t.obj? m.obj = some { x with pins := if bit (s.asOp (.ring r i) d 0x6E).flags 0 then x.pins - 1 else x.pins + 1 } ∧
      (∀ n, n ≠ m.obj → t.obj? n = s.obj? n) ∧
      s.Answered t r.val (s.record r.val (fld d 2 15 0) 0x6E Status.ok.code 0 0 0 i.toNat)) ∧
  (∀ (r : RingNo) (i : Word) (d : Line64) (s : State) (n p : Nat) (x : Obj), s.Accepts (.ring r i) d 0x6F objQueryChecks →
    s.panelAt (r.val / 64) (fld d 8 47 0) = some (n, p) → s.obj? n = some x →
    s.ObjReady → s.fenced r.val = false → s.cutOff (r.val / 64) = false →
    ∃ t, exec (.objQuery (.ring r i) d) s = .next t ∧ t.tiers = s.tiers ∧
      s.Answered t r.val (s.record r.val (fld d 2 15 0) 0x6F Status.ok.code 0 0
        ((s.panel n p).tier + (if (s.panel n p).busy.isSome then 4 else 0) + (if (s.panel n p).quar then 8 else 0) +
          (if x.accessioned then 16 else 0) + x.pins * 2 ^ 16 + n * 2 ^ 32) i.toNat)) ∧
  (∀ (o : Origin) (d : Line64) (s : State), s.Accepts o d 0x6F objQueryChecks → (∀ m ∈ s.tiers.maps, m.release = none) →
    4 ≤ s.tiers.objRun.length →
    ∃ t k, exec (.objQuery o d) s = .next t ∧ t.tiers = { s.tiers with
      objWait := s.tiers.objWait ++ [{ op := s.asOp o d 0x6F, kind := .done k }] } ∧ t.out = s.out)

/-- R331, R333, R337, R338: after an OBJ_RELEASE its mapping is gone or holds the release; an accepted MIGRATE of panels waits
with them, its T0 frames reserved; the mover takes the oldest migration that runs and has panels left, and its start of a panel's copy marks it in flight to its target; at the switch the
panel is in its target tier, in flight no more, and no other panel has changed; a panel dropped to T2 has no resident copy. -/
def Obligations.PanelsMigrate : Prop :=
  (∀ (o : Origin) (d : Line64) (s : State), s.Accepts o d 0x6C objReleaseChecks →
    ∃ t, exec (.objRelease o d) s = .next t ∧
      (∀ m ∈ t.tiers.maps, m.gal = (s.asOp o d 0x6C).gal → m.daddr = fld d 8 47 0 → m.release = some (s.asOp o d 0x6C)) ∧
      (∀ m ∈ t.tiers.maps, ∃ n ∈ s.tiers.maps, m = n ∨ m = { n with release := some (s.asOp o d 0x6C) })) ∧
  (∀ (o : Origin) (d : Line64) (s : State) (m : Mapping), s.Accepts o d 0x6D migrateChecks →
    s.mappingAt (s.asOp o d 0x6D).gal (fld d 8 47 0) true = some m → 0 < fld d 16 19 0 →
    (∀ g ∈ s.tiers.migs, g.op.id ≠ s.nextOp) → s.ObjQueued →
    ∃ t fs, exec (.migrate o d) s = .next t ∧ t.out = s.out ∧ t.tiers.panels = s.tiers.panels ∧
      t.tiers.migs = s.tiers.migs ++ [{ op := s.asOp o d 0x6D, obj := m.obj, first := (fld d 8 47 0 - m.daddr) / 2 ^ 18
                                        count := fld d 16 19 0, target := fld d 20 1 0, frames := fs
                                        left := (List.range (fld d 16 19 0)).map (fun i => (fld d 8 47 0 - m.daddr) / 2 ^ 18 + i) }] ∧
      (fld d 20 1 0 ≠ 0 → fs = []) ∧
      (∀ f ∈ fs, f ∈ s.t0Free ∧ (f, (s.asOp o d 0x6D).gal) ∈ t.tiers.t0used)) ∧
  (∀ (ups : List Upset) (s u : State) (g : Mig) (p : Nat), u = s.upsets ups → u.running = true →
    u.tiers.migs.find? (fun x => !x.left.isEmpty && u.tiers.objRun.contains x.op.id) = some g →
    u.moverNext g g.left = some (p, .start) → ((u.moverReads g.obj p).1.panel g.obj p).quar = false →
    (g.target = 0 → g.frames ≠ []) →
    ∃ t, exec (.moverPanelStart ups) s = .next t ∧ (t.panel g.obj p).busy = some (g.target, g.frames.headD 0) ∧
      (t.panel g.obj p).tier = (u.panel g.obj p).tier ∧
      t.tiers.moving = u.tiers.moving ++ [(g.obj, p, g.op.id)] ∧ t.mem = u.mem) ∧
  (∀ (ups : List Upset) (s u : State) (g : Mig) (p : Nat), u = s.upsets ups → u.running = true →
    u.tiers.migs.find? (fun x => !x.left.isEmpty && u.tiers.objRun.contains x.op.id) = some g →
    u.moverNext g g.left = some (p, .drop) → (∀ m ∈ u.tiers.maps, m.release = none) →
    ∃ t, exec (.moverPanelStart ups) s = .next t ∧ t.panel g.obj p = {} ∧ t.mem = u.mem) ∧
  (∀ (n : Fin 16384) (p : Nat) (data : Bytes) (s : State) (x : Nat × Nat) (m : Nat × Nat × Nat), s.running = true →
    (s.panel n.val p).busy = some x → s.tiers.moving.find? (fun m => m.1 == n.val && m.2.1 == p) = some m →
    (∀ y ∈ s.tiers.maps, y.release = none) → p < 2 ^ 20 →
    ∃ t, exec (.panelSwitch n p data) s = .next t ∧
      t.panel n.val p = { s.panel n.val p with tier := x.1, frame := x.2, busy := none } ∧
      (∀ k q, q < 2 ^ 20 → (k, q) ≠ (n.val, p) → t.panel k q = s.panel k q) ∧
      t.tiers.moving = s.tiers.moving.filter (fun m => !(m.1 == n.val && m.2.1 == p)))
/-! ### Repair and spares -/

/-- R317, R318 and R480: a repair command given while none runs takes effect and leaves its plinth BUSY with the status it ends
with; READ_RAW puts the burst's 72 symbols into DATA0 to DATA17; WRITE_RAW of a channel no core uses stores the 72 symbols
of DATA0 to DATA17, so that READ_RAW reads the same ones, and is refused with LOCKED_FIELD on any other; ROW_SPARE and
COL_SPARE take a spare no entry uses, add the entry to the repair map and touch no byte outside the row or the column slice,
and with no spare left they end with QUOTA_EXCEEDED; CH_SPARE marks the channel and its copy begins at address 0; MAP_READ
puts the entry's 64 bits into DATA0 and DATA1. At the end BUSY clears and STATUS is set. A command given while one runs is
refused with LOCKED_FIELD. That a command acts in the step that writes it, and what data registers keep, are the model's
choices (log 61, log 88). -/
def Obligations.RepairCommands : Prop :=
  (∀ (p : PlinthNo) (w : Word) (s : State), s.pfWrite 0 = true → (s.plinth p.val).rprRun = none →
    bits w.toNat 12 4 ≤ 263 → bits w.toNat 3 0 = 1 →
    ∃ t, exec (.readRaw 0 p w) s = .next t ∧ t.mem = s.mem ∧ t.chk = s.chk ∧
      t.plinth p.val = { s.plinth p.val with rprRun := some .ok, rprPch := bits w.toNat 12 4 } ∧
      (∀ i, i < 18 → t.written .rprData [p.val, i] = bits (ofLE ((s.burstSymbols (p.val * 264 + bits w.toNat 12 4)
        (s.written .rprAddr [p.val])).map (BitVec.ofNat 8))) (32 * i + 31) (32 * i))) ∧
  (∀ (p : PlinthNo) (w : Word) (s : State), s.pfWrite 0 = true → (s.plinth p.val).rprRun = none →
    bits w.toNat 12 4 ≤ 263 → bits w.toNat 3 0 = 2 →
    ∃ t, exec (.writeRaw 0 p w) s = .next t ∧
      if bits w.toNat 12 4 ∈ s.spareChans p.val ∨ s.flag .stkCtrl [p.val] 0 = false
      then t.burstSymbols (p.val * 264 + bits w.toNat 12 4) (s.written .rprAddr [p.val]) =
          (toLE 72 (s.rprData p.val)).map BitVec.toNat ∧
        (∀ x, x / 64 ≠ (chanBase (p.val * 264 + bits w.toNat 12 4) + s.written .rprAddr [p.val]) / 64 →
          Memory.get t.mem x = Memory.get s.mem x) ∧
        t.plinth p.val = { s.plinth p.val with rprRun := some .ok, rprPch := bits w.toNat 12 4 }
      else t = s.setPlinth p.val { s.plinth p.val with rprRun := some .lockedField, rprPch := bits w.toNat 12 4 }) ∧
  (∀ (p : PlinthNo) (w : Word) (s : State) (a pch : Nat), a = s.written .rprAddr [p.val] → pch = bits w.toNat 12 4 →
    s.pfWrite 0 = true → (s.plinth p.val).rprRun = none → pch ≤ 263 → bits w.toNat 3 0 = 3 →
    ∃ t, exec (.rowSpare 0 p w) s = .next t ∧
      if (s.plinth p.val).freeRows pch (dramBank a) = []
      then t = s.setPlinth p.val { s.plinth p.val with rprRun := some .quotaExceeded, rprPch := pch }
      else (∃ k st, k ∈ (s.plinth p.val).freeRows pch (dramBank a) ∧ (st = .ok ∨ st = .arrayUe) ∧
          ((∀ e ∈ s.chk, (burstError e.2).isSome = true) → st = .ok) ∧
          t.plinth p.val = { s.plinth p.val with
            rprRun := some st
            rprPch := pch
            repairMap := (s.plinth p.val).repairMap ++ [⟨1, p.val, pch, dramBank a / 2, dramBank a % 2, dramRow a, k⟩] }) ∧
        (∀ x, ¬ (chanBase (p.val * 264 + pch) ≤ x ∧ x < chanBase (p.val * 264 + pch) + 2 ^ 28 ∧
            dramBank (x - chanBase (p.val * 264 + pch)) = dramBank a ∧
            dramRow (x - chanBase (p.val * 264 + pch)) = dramRow a) →
          Memory.get t.mem x = Memory.get s.mem x)) ∧
  (∀ (p : PlinthNo) (w : Word) (s : State) (a pch : Nat), a = s.written .rprAddr [p.val] → pch = bits w.toNat 12 4 →
    s.pfWrite 0 = true → (s.plinth p.val).rprRun = none → pch ≤ 263 → bits w.toNat 3 0 = 4 →
    ∃ t, exec (.colSpare 0 p w) s = .next t ∧
      if (s.plinth p.val).freeCols pch (dramBank a) = []
      then t = s.setPlinth p.val { s.plinth p.val with rprRun := some .quotaExceeded, rprPch := pch }
      else (∃ k st, k ∈ (s.plinth p.val).freeCols pch (dramBank a) ∧ (st = .ok ∨ st = .arrayUe) ∧
          ((∀ e ∈ s.chk, (burstError e.2).isSome = true) → st = .ok) ∧
          t.plinth p.val = { s.plinth p.val with
            rprRun := some st
            rprPch := pch
            repairMap := (s.plinth p.val).repairMap ++ [⟨2, p.val, pch, dramBank a / 2, dramBank a % 2, bits a 9 3, k⟩] }) ∧
        (∀ x, ¬ (chanBase (p.val * 264 + pch) ≤ x ∧ x < chanBase (p.val * 264 + pch) + 2 ^ 28 ∧
            dramBank (x - chanBase (p.val * 264 + pch)) = dramBank a ∧
            bits (x - chanBase (p.val * 264 + pch)) 9 6 = bits a 9 6) →
          Memory.get t.mem x = Memory.get s.mem x)) ∧
  (∀ (p : PlinthNo) (w : Word) (s : State) (pch : Nat), pch = bits w.toNat 12 4 →
    s.pfWrite 0 = true → (s.plinth p.val).rprRun = none → pch ≤ 263 → bits w.toNat 3 0 = 5 →
    (∀ y ∈ (s.plinth p.val).chSpares, y.pch ≠ pch) →
    ∃ t, exec (.chSpare 0 p w) s = .next t ∧ t.mem = s.mem ∧
      if (s.spareChans p.val).filter (fun i => i != pch) = []
      then t.plinth p.val = { s.plinth p.val with rprRun := some .quotaExceeded, rprPch := pch }
      else ∃ k, k ∈ s.spareChans p.val ∧ k ≠ pch ∧ t.plinth p.val = { s.plinth p.val with
        rprRun := some .ok
        rprPch := pch
        chSpares := (s.plinth p.val).chSpares ++ [⟨pch, k, 0⟩]
        repairMap := (s.plinth p.val).repairMap ++ [⟨3, p.val, pch, 0, 0, 0, k⟩] }) ∧
  (∀ (p : PlinthNo) (w : Word) (s : State) (e : RepEntry), s.pfWrite 0 = true → (s.plinth p.val).rprRun = none →
    bits w.toNat 12 4 ≤ 263 → bits w.toNat 3 0 = 6 → (s.plinth p.val).repairMap[s.written .rprAddr [p.val]]? = some e →
    ∃ t, exec (.mapRead 0 p w) s = .next t ∧
      t.plinth p.val = { s.plinth p.val with rprRun := some .ok, rprPch := bits w.toNat 12 4 } ∧
      t.written .rprData [p.val, 0] = bits e.word 31 0 ∧ t.written .rprData [p.val, 1] = bits e.word 63 32) ∧
  (∀ (p : PlinthNo) (w : Word) (s : State) (c : Instr) (op : Nat), s.pfWrite 0 = true →
    (s.plinth p.val).rprRun.isSome = true → bits w.toNat 3 0 = op →
    (c, op) ∈ [(Instr.readRaw 0 p w, 1), (.writeRaw 0 p w, 2), (.rowSpare 0 p w, 3), (.colSpare 0 p w, 4),
      (.chSpare 0 p w, 5), (.mapRead 0 p w, 6)] →
    exec c s = .next (s.refuseWrite 0 (regOff .rprCmd [p.val]) .lockedField)) ∧
  (∀ (p : PlinthNo) (s : State) (st : Status), s.alive = true → (s.plinth p.val).rprRun = some st →
    exec (.repairCommandDone p) s =
      .next (s.setPlinth p.val { s.plinth p.val with rprRun := none, rprStatus := st }))

/-- R415, R417 and R481: the copy of a failing channel goes on by the bursts it is given while its queue is empty and its debt
below 1, to the spare channel alone, and what read without an error stands there unchanged; an emptied core that had a
claim at boundary Q + 1 moves to its spare with its scratchpad and its fences clear, and its channel to the copy that was complete
then; the repair record
goes to the copy not in use with the next SEQ, and the one in use stays. -/
def Obligations.SparesSwitch : Prop :=
  (∀ (p : PlinthNo) (n : Nat) (ups : List Upset) (s u : State) (y : ChSpare) (c : Nat), u = s.upsets ups → u.alive = true →
    (u.plinth p.val).chSpares.find? (fun y => decide (y.copied < 2 ^ 28)) = some y →
    u.coreOfChan p.val y.pch = some c → (u.chan c).queue = [] → u.debt c < 1024 →
    ∃ t, exec (.channelSpareCopy p n ups) s = .next t ∧
      t.plinth p.val = { u.plinth p.val with chSpares := (u.plinth p.val).chSpares.map (fun z =>
        if z.pch = y.pch then { z with copied := z.copied + min (64 * n) (2 ^ 28 - y.copied) } else z) } ∧
      (∀ q, q ≠ p.val → t.plinth q = u.plinth q) ∧
      (∀ x, ¬ (chanBase (p.val * 264 + y.spare) ≤ x ∧ x < chanBase (p.val * 264 + y.spare) + 2 ^ 28) →
        Memory.get t.mem x = Memory.get u.mem x) ∧
      (u.chanErrors (p.val * 264 + y.pch) y.copied (min (64 * n) (2 ^ 28 - y.copied)) = [] →
        ∀ i, i < min (64 * n) (2 ^ 28 - y.copied) →
          Memory.get t.mem (chanBase (p.val * 264 + y.spare) + y.copied + i) =
            (Memory.read u.mem (chanBase (p.val * 264 + y.pch) + y.copied) (min (64 * n) (2 ^ 28 - y.copied))).getD i 0)) ∧
  (∀ (c : CoreNo) (s : State), s.running = true → (s.core c.val).switching = true → s.coreInUse c.val = false →
    s.repairTouches c.val = false →
    ∃ t, exec (.coreSpareSwitch c) s = .next t ∧ (t.core c.val).switching = false ∧
      (∀ d, d ≠ c.val → t.core d = s.core d) ∧
      (match (s.core c.val).switchTo with
       | none => (t.core c.val).phys = (s.core c.val).phys ∧ t.mem = s.mem
       | some n => (t.core c.val).phys = n ∧ (t.core c.val).anyFence = false ∧ (t.core c.val).claim = none ∧
          (s.core c.val).phys % 264 ∈ (t.plinth (c.val / 256)).deadCores ∧
          (s.badWords (s.scratch c.val) 262144 = [] → ∀ i, i < 262144 → Memory.get t.mem (scratchBase n + i) =
            (Memory.read s.mem (s.scratch c.val) 262144).getD i 0) ∧
          (∀ x, ¬ (scratchBase n ≤ x ∧ x < scratchBase n + 262144) → Memory.get t.mem x = Memory.get s.mem x)) ∧
      (t.core c.val).chan = (match (s.copyDone c.val).filter (fun y => (s.core c.val).switchCh == some y.spare) with
        | none => (s.core c.val).chan
        | some y => c.val / 256 * 264 + y.spare)) ∧
  (∀ s : State, s.alive = true → s.ctl.repDirty = true →
    ∃ t, exec .repairRecordWrite s = .next t ∧ t.ctl.repDirty = false ∧
      (match s.sec.flash.recordInUse with
       | some false => t.sec.flash.rep0 = s.sec.flash.rep0 ∧
          t.sec.flash.rep1 = { valid := true, seq := s.sec.flash.rep0.seq + 1, entries := s.recordEntries }
       | some true => t.sec.flash.rep1 = s.sec.flash.rep1 ∧
          t.sec.flash.rep0 = { valid := true, seq := s.sec.flash.rep1.seq + 1, entries := s.recordEntries }
       | none => (t.sec.flash.rep0 = s.sec.flash.rep0 ∧
            t.sec.flash.rep1 = { valid := true, seq := 1, entries := s.recordEntries }) ∨
          (t.sec.flash.rep1 = s.sec.flash.rep1 ∧
            t.sec.flash.rep0 = { valid := true, seq := 1, entries := s.recordEntries })))

/-- R74, R421 to R423: a queued panel that is not in flight and that no issued tile reads begins its repair and, with its reference copy in host memory, that
copy is asked for in 64 reads of 4 KiB; the copy read is kept and the panel's T0 frame rewritten with it, no other byte
changed; a rewritten panel is read back; a failed reference read is made again while attempts are left, else the panel's
repair fails and it stays as it is; a panel read back clean is quarantined no longer, its repair is over and the chains that
waited for it stand at their cores' issue points again. -/
def Obligations.PanelsRepaired : Prop :=
  (∀ (n : Fin 16384) (p : Nat) (s : State) (r : Repair) (x : Obj), s.repairAt n.val p .queued = some r →
    s.running = true → (s.panel n.val p).busy = none → s.panelRead n.val p = false → s.regionsUsed < 8 → s.obj? n.val = some x →
    ∃ t, exec (.repairStart n p) s = .next t ∧
      t.tiers.repairs = s.tiers.repairs.map (fun r =>
        if r.obj = n.val ∧ r.panel = p then { r with stage := .reading, tries := 1 } else r) ∧
      (x.pkind ≠ 1 → t.out = s.out ++ (if s.cutOff 0 = true then [] else (List.range 64).map (fun i =>
        Out.hostRead 0 (.reference n.val p) (x.paddr + 262144 * p + 4096 * i) 4096)))) ∧
  (∀ (n : Fin 16384) (p : Nat) (data : Bytes) (s : State) (r : Repair), s.repairAt n.val p .reading = some r →
    s.running = true → (s.panel n.val p).tier = 0 → data.length = 262144 →
    ∃ t, exec (.referenceReadDone n p data) s = .next t ∧
      t.tiers.repairs = s.tiers.repairs.map (fun r =>
        if r.obj = n.val ∧ r.panel = p then { r with stage := .rewriting, data := data } else r) ∧
      (∀ i, i < 262144 → Memory.get t.mem (hallBase + s.t0Addr (s.panel n.val p).frame + i) = data.getD i 0) ∧
      (∀ a, ¬ (hallBase + s.t0Addr (s.panel n.val p).frame ≤ a ∧
          a < hallBase + s.t0Addr (s.panel n.val p).frame + 262144) → Memory.get t.mem a = Memory.get s.mem a)) ∧
  (∀ (n : Fin 16384) (p : Nat) (s : State) (r : Repair), s.repairAt n.val p .rewriting = some r → s.running = true →
    ∃ t, exec (.panelRewriteDone n p) s = .next t ∧
      t.tiers.repairs = s.tiers.repairs.map (fun r =>
        if r.obj = n.val ∧ r.panel = p then { r with stage := .readback } else r)) ∧
  (∀ (n : Fin 16384) (p : Nat) (down : Bool) (s : State) (r : Repair), s.repairAt n.val p .reading = some r →
    s.running = true → (∀ m ∈ s.tiers.maps, m.release = none) →
    ∃ t, exec (.referenceReadRetry n p down) s = .next t ∧
      if r.tries < s.field .rasConsCfg [] 3 0
      then t.tiers.repairs = s.tiers.repairs.map (fun r =>
          if r.obj = n.val ∧ r.panel = p then { r with tries := r.tries + 1 } else r) ∧ t.tiers.panels = s.tiers.panels
      else t.panel n.val p = { s.panel n.val p with failed := true } ∧
        (∀ x ∈ t.tiers.repairs, x.obj = n.val → x.panel = p → x.stage = .failed)) ∧
  (∀ (n : Fin 16384) (p : Nat) (ups : List Upset) (s u : State) (r : Repair), u = s.upsets ups →
    u.repairAt n.val p .readback = some r → u.running = true → (∀ m ∈ u.tiers.maps, m.release = none) →
    (match u.locate n.val p with
     | .t0 h => u.badWords (hallBase + h) 262144 = []
     | .t1 c a => u.chanErrors (u.core c).chan a 262144 = [] ∧ (u.plinth (c / 256)).rprRun = none
     | .t2 _ _ => True) →
    ∃ t, exec (.readbackDone n p ups) s = .next t ∧
      t.panel n.val p = { u.panel n.val p with quar := false, failed := false } ∧
      (∀ x ∈ t.tiers.repairs, ¬ (x.obj = n.val ∧ x.panel = p)) ∧ (∀ o ∈ r.retry, o ∈ (t.core o.core).waiting) ∧
      t.mem = u.mem)

/-! ### Beats, ticks, requests -/

/-- R20, R306, R313, R314, R372, R384, R462, R466, R489, R492, R531: a boundary of the running beat unit takes the next count,
every RWS field is in force from it on, and the windows of R408 and R412 count from it; a local tick moves those windows on
and re-evaluates every plinth's level and hot state from its hottest samples since the last evaluation, which begin anew; a deadline two boundaries after its instance
marks every other rank's contribution late and no other instance's; an armed circular trace is triggered at its beat, and a
triggered one counts the trigger; a unit's oldest started operation that has run for BEATS boundaries freezes every ring, and the watchdog then
stays quiet. How the windows stand at a start of the unit is the model's reading (log 11). -/
def Obligations.BeatsAndTicks : Prop :=
  (∀ s : State, s.running = true → s.beatOff = false → s.fab.beat.started = true →
    ∃ t, exec .beatBoundary s = .next t ∧ t.beat = (s.fab.beat.next.getD ((s.beat + 1) % 2 ^ 64)) ∧
      t.fab.beat.next = none ∧ t.inForce = [] ∧ t.cat.wbeat = t.beat) ∧
  (∀ s : State, s.alive = true → s.beatOff = true →
    ∃ t, exec .localTick s = .next t ∧ t.cat.wbeat = s.cat.wbeat + 1 ∧ t.fab = s.fab ∧
      (∀ p, p < 8 → (t.plinth p).level =
          levelNext (s.plinth p).level (s.plinth p).hottest.jMax (s.plinth p).hottest.dMax ∧
        (t.plinth p).hot = hotNext (s.plinth p).hot (s.plinth p).hottest.dMax ∧
        (t.plinth p).jMax = 0 ∧ (t.plinth p).dMax = 0)) ∧
  (∀ (g n : Nat) (s : State) (x : CarGroup) (cap : Nat), s.carGroupOf g = some (x, cap) → s.alive = true →
    n + 2 ≤ s.beat →
    ∃ t, exec (.collDeadline g n) s = .next t ∧
      (∀ r, r < x.g → r ≠ x.rank → t.arrival g n r = { s.arrival g n r with late := true }) ∧
      (∀ g' n' r, ¬ (g' = g ∧ n' = n) → t.arrival g' n' r = s.arrival g' n' r) ∧
      t.arrival g n x.rank = s.arrival g n x.rank) ∧
  (∀ s : State, s.alive = true → s.beatOff = false → 0 < s.beat →
    s.written .catTrBeatLo [] + s.written .catTrBeatHi [] * 2 ^ 32 = s.beat →
    (s.cat.trace.st = .armed → s.circular = true → s.cat.trace.gap = 0 →
      ∃ t, exec .traceBeatTrigger s = .next t ∧ t.cat.trace.st = .triggered ∧ t.cat.trace.trigIdx = s.cat.trace.wptr ∧
        t.cat.trace.after = 0) ∧
    (s.cat.trace.st = .triggered →
      ∃ t, exec .traceBeatTrigger s = .next t ∧
        t.cat.trace = { s.cat.trace with retrig := (s.cat.trace.retrig + 1) % 2 ^ 32 })) ∧
  (∀ (u : BitVec 16) (i : BitVec 64) (s : State), s.running = true → s.watchdogDue u.toNat i.toNat = true →
    ∃ t, exec (.watchdogExpiry u i) s = .next t ∧ t.cat.frozen = true ∧ t.cat.wdQuiet = true ∧
      t.cat.fcause = (if s.cat.frozen then s.cat.fcause else 2) ∧
      (t.source u.toNat).count = min ((s.source u.toNat).count + 1) (2 ^ 32 - 1) ∧
      (∀ n, n ≠ u.toNat → t.source n = s.source n))

/-- R296 to R299, R303, R305: a request within one 1 KiB row that reaches an idle controller, of no gallery or of one whose budget
lets all its bursts through, is served at once: a read changes no byte, a write stores its bytes in the channel and no other byte
changes; one of a gallery whose budget is spent is held; while the controllers are off a request waits outside. R306, R307 and R312:
an opportunistic refresh takes one whole operation off a channel's debt; a forced one brings every channel above RFHI to RFLO or
below and leaves the others; a scrub read moves to the next burst, and where no symbol of the burst it reads is in error it changes
nothing else of the channels. -/
def Obligations.ChannelsServed : Prop :=
  (∀ (c : CoreNo) (r : ChanReq) (ups : List Upset) (s u : State), u = s.upsets ups → u.alive = true →
    u.flag .stkCtrl [c.val / 256] 0 = true → (u.chan c.val).queue = [] → (u.chan c.val).calling = [] →
    (u.chan c.val).held = [] → (u.chan c.val).group = 0 → 0 < r.len → r.addr + r.len ≤ (r.addr / 1024 + 1) * 1024 →
    (∀ b, r.kind = .write b → b.length = r.len) → r.addr + r.len ≤ 2 ^ 28 →
    (∀ g, r.gal = some g → (reqBursts r).length ≤
      (issueUpTo (u.bwBudget g.val) (Tbl.look (u.chan c.val).used g.val 0) ((reqBursts r).map (reqCost r))).1) →
    (u.plinth (c.val / 256)).chSpares = [] → u.chk = [] →
    ∃ t, exec (.channelRequestServe c [r] ups) s = .next t ∧ (t.chan c.val).queue = [] ∧ (t.chan c.val).calling = [] ∧
      (t.chan c.val).held = [] ∧ (t.chan c.val).last = some (reqWrites r, bits r.addr 14 10, bits r.addr 27 15) ∧
      (match r.kind with
       | .write b => (∀ i, i < b.length →
            Memory.get t.mem (chanBase (u.core c.val).chan + r.addr + i) = b.getD i 0) ∧
          (∀ a, ¬ (chanBase (u.core c.val).chan + r.addr ≤ a ∧
              a < chanBase (u.core c.val).chan + r.addr + r.len) → Memory.get t.mem a = Memory.get u.mem a)
       | _ => t.mem = u.mem)) ∧
  (∀ (c : CoreNo) (r : ChanReq) (ups : List Upset) (s u : State) (g : GalNo), u = s.upsets ups → u.alive = true →
    u.flag .stkCtrl [c.val / 256] 0 = true → (u.chan c.val).queue = [] → (u.chan c.val).calling = [] →
    (u.chan c.val).held = [] → (u.chan c.val).group = 0 → 0 < r.len → r.addr + r.len ≤ (r.addr / 1024 + 1) * 1024 →
    r.gal = some g → u.bwBudget g.val ≤ Tbl.look (u.chan c.val).used g.val 0 →
    ∃ t, exec (.channelRequestServe c [r] ups) s = .next t ∧ (t.chan c.val).queue = [] ∧
      (t.chan c.val).held = [r] ∧ t.mem = u.mem) ∧
  (∀ (c : CoreNo) (r : ChanReq) (ups : List Upset) (s u : State), u = s.upsets ups → u.alive = true →
    u.flag .stkCtrl [c.val / 256] 0 = false → (u.chan c.val).queue = [] → 0 < r.len →
    r.addr + r.len ≤ (r.addr / 1024 + 1) * 1024 →
    exec (.channelRequestServe c [r] ups) s =
      .next (u.setChan c.val { u.chan c.val with calling := (u.chan c.val).calling ++ [r] })) ∧
  (∀ (c : CoreNo) (s : State), s.alive = true → (s.chan c.val).queue = [] → 1024 ≤ s.debt c.val →
    ∃ t, exec (.refreshOpportunistic c) s = .next t ∧ t.debt c.val = s.debt c.val - 1024 ∧
      t.chan c.val = { s.chan c.val with rfDone := (s.chan c.val).rfDone + 1 } ∧
      (∀ d, d ≠ c.val → t.chan d = s.chan d) ∧
      t.counter .stkRfOpp c.val 0 = min (s.counter .stkRfOpp c.val 0 + 1) (2 ^ 64 - 1)) ∧
  (∀ s : State, s.alive = true →
    ∃ t, exec .refreshSlot s = .next t ∧
      (∀ c, c < 2048 → if 1024 * s.field .rfCfg [c / 256] 10 0 < s.debt c
        then t.debt c ≤ 1024 * s.field .rfCfg [c / 256] 26 16 else t.chan c = s.chan c) ∧
      (∀ c, t.chan c = { s.chan c with rfDone := (t.chan c).rfDone })) ∧
  (∀ (c : CoreNo) (ups : List Upset) (s : State), (s.upsets ups).running = true → ((s.upsets ups).chan c.val).queue = [] →
    (s.upsets ups).debt c.val < 1024 → ((s.upsets ups).chan c.val).scrubUsed < (s.upsets ups).field .scrubCfg [c.val / 256] 7 0 →
    (s.upsets ups).chanErrors ((s.upsets ups).core c.val).chan (64 * ((s.upsets ups).chan c.val).scrub) 64 = [] →
    ∃ t, exec (.scrubRead c ups) s = .next t ∧
      t.chan c.val = { (s.upsets ups).chan c.val with
        scrub := (((s.upsets ups).chan c.val).scrub + 1) % 2 ^ 22
        scrubUsed := ((s.upsets ups).chan c.val).scrubUsed + 1 } ∧
      (∀ d, d ≠ c.val → t.chan d = (s.upsets ups).chan d) ∧ t = { s.upsets ups with chans := t.chans })
/-! ### Device states -/

/-- R369, R473, R485 to R489, R495: a write of GLB_COMMIT starts a check of its SEQ, and while one runs it is refused; a check
that passes commits the set, records its SEQ and in HOLD brings the device to RUN; one that fails changes no committed
value, names its code, and in HOLD leaves the device there with HCAUSE 1, in RUN asks for an orderly hold; a write of
GLB_CMD asks for one in RUN; once all it waits for has ended the device is in HOLD with its cause, every port DISABLED, the
beat unit OFF and every ring frozen; the beat unit starts with the number its counter holds and stops with the number of the
last boundary plus one. HCAUSE and GLB_CERR where the manual leaves them open are the model's readings (log 31, log 32, log
33). -/
def Obligations.DeviceStates : Prop :=
  (∀ (w : Word) (s : State), s.pfWrite 0 = true →
    if s.ctl.cBusy = true then exec (.configurationCommit 0 w) s = .next (s.refuseWrite 0 (regOff .glbCommit []) .lockedField)
    else ∃ t, exec (.configurationCommit 0 w) s = .next t ∧ t.ctl.cBusy = true ∧
      t.ctl.cSeq.toNat = bits w.toNat 15 0 ∧ t.ctl.werr = s.ctl.werr) ∧
  (∀ s : State, s.alive = true → s.ctl.cBusy = true → s.commitFailure = none →
    ∃ t, exec .commitCheckDone s = .next t ∧ t.ctl.committed = some s.commitWords ∧ t.ctl.cBusy = false ∧
      t.ctl.cLast = s.ctl.cSeq ∧ t.sec.measured = s.commitWords ∧
      t.ctl.st = (if s.ctl.st = .hold then .run else s.ctl.st)) ∧
  (∀ (s : State) (code cerr : Nat), s.alive = true → s.ctl.cBusy = true → s.commitFailure = some (code, cerr) →
    ∃ t, exec .commitCheckDone s = .next t ∧ t.ctl.committed = s.ctl.committed ∧ t.ctl.cBusy = false ∧
      t.ctl.cLast = s.ctl.cLast ∧ t.ctl.cCause = code ∧ t.ctl.cErr = cerr ∧ t.ctl.st = s.ctl.st ∧
      (s.ctl.st = .hold ∨ s.beatOff = false → t.regs = s.regs) ∧ (s.ctl.st = .hold → t.ctl.hcause = 1) ∧
      (s.ctl.st = .run → s.ctl.holding = none →
        if s.beatOff = true then t.ctl.holding = some 1 else t.ctl.holdReq = some (s.ctl.holdReq.getD 1))) ∧
  (∀ (w : Word) (s : State), s.pfWrite 0 = true → bits w.toNat 1 0 = 1 → s.ctl.st = .run → s.ctl.holding = none →
    ∃ t, exec (.orderlyHold 0 w) s = .next t ∧ t.ctl.st = .run ∧
      if s.beatOff = true then t.ctl.holding = some 2 ∧ t.hif.poll = none
      else t.ctl.holdReq = some (s.ctl.holdReq.getD 2) ∧ t.hif = s.hif) ∧
  (∀ (s : State) (cause : Nat), s.running = true → s.ctl.holding = some cause → s.holdReady = true →
    ∃ t, exec .holdEntry s = .next t ∧ t.ctl.st = .hold ∧ t.ctl.hcause = cause ∧ t.ctl.holding = none ∧
      t.ctl.holdReq = none ∧ t.beatOff = true ∧ t.cat.frozen = true ∧ t.hif.poll = none ∧
      (∀ p, p < 32 → (t.port p).st = .disabled)) ∧
  (∀ (w : Word) (s : State), s.pfWrite 0 = true → s.ctl.st = .run → s.beatOff = true → w.getLsbD 0 = true →
    w.getLsbD 1 = s.flag .beatCtrl [] 1 → s.uncommitted (fun r _ => beatFields r) = false →
    ∃ t, exec (.beatUnitStart 0 w) s = .next t ∧ t.fab.beat.st = (if w.getLsbD 1 then .root else .seek) ∧
      t.beat = s.beat ∧ t.fab.beat.started = true ∧ t.cat.wbeat = s.beat ∧ t.flag .beatCtrl [] 0 = true) ∧
  (∀ (w : Word) (s : State), s.pfWrite 0 = true → s.ctl.st = .run → s.beatOff = false → w.getLsbD 0 = false →
    w.getLsbD 1 = s.flag .beatCtrl [] 1 →
    ∃ t, exec (.beatUnitStop 0 w) s = .next t ∧ t.fab.beat.st = .off ∧
      t.beat = (if s.fab.beat.started then (s.beat + 1) % 2 ^ 64 else s.beat) ∧ t.fab.beat.started = false ∧
      t.inForce = s.inForce ∧ t.flag .beatCtrl [] 0 = false)

/-! ### The Catalogue -/

/-- R453, R458, R461 and R463: a snapshot asked for waits for a boundary, or with the beat unit OFF takes the counters as they
stand, and another is refused while it is BUSY; at its end it has been written to the function's buffer under the next SEQ;
a dump asked for is BUSY, refused while one is, and at its end every ring has been written and the rings it froze run again;
FREEZE freezes every ring and THAW releases them; a MARK is recorded in the host unit's ring with its word, or counted there
as lost while the rings are frozen. What a snapshot of a VF holds is the model's reading (log 84). -/
def Obligations.SnapshotsAndRings : Prop :=
  (∀ (f : GalNo) (w : Word) (s : State), s.barUp = true → w.getLsbD 0 = true →
    if (s.snap f.val).busy = true
    then exec (.snapshot f w) s =
      .next (s.refuseWrite f.val (if f.val = 0 then regOff .catSnapCmd [] else 0x40008) .lockedField)
    else ∃ t, exec (.snapshot f w) s = .next t ∧
      t.snap f.val = (if s.beatOff = true
        then { s.snap f.val with busy := true, wanted := false, latched := some s.cat.counters, beat := s.beat }
        else { s.snap f.val with busy := true, wanted := true }) ∧
      t.cat.counters = s.cat.counters) ∧
  (∀ (f : GalNo) (s : State) (c : Tbl Nat), s.alive = true → (s.snap f.val).busy = true →
    (s.snap f.val).latched = some c → s.cutOff f.val = false →
    ∃ t, exec (.snapshotDone f) s = .next t ∧
      t.snap f.val = { s.snap f.val with busy := false, latched := none, seq := (s.snap f.val).seq + 1 } ∧
      (∀ g, g ≠ f.val → t.snap g = s.snap g) ∧
      t.out = s.out ++ [.hostWrite f.val (s.snapAddr f.val) (snapshotBytes f.val ((s.snap f.val).seq + 1).toNat
        (s.snap f.val).beat ((s.fab.carMap.map (fun m => m.groups.length)).getD 0) c)]) ∧
  (∀ (w : Word) (s : State), s.pfWrite 0 = true → bits w.toNat 2 0 = 1 →
    if s.cat.dumpBusy = true then exec (.dump 0 w) s = .next (s.refuseWrite 0 (regOff .catRdCmd []) .lockedField)
    else ∃ t, exec (.dump 0 w) s = .next t ∧ t.cat.dumpBusy = true ∧
      t.cat.frozen = (s.cat.frozen || s.beatOff) ∧ t.cat.dumpFroze = (!s.cat.frozen && s.beatOff)) ∧
  (∀ s : State, s.alive = true → s.cat.dumpBusy = true → s.cat.frozen = true → s.cutOff 0 = false →
    ∃ t, exec .dumpDone s = .next t ∧ t.cat.dumpBusy = false ∧ t.cat.frozen = !s.cat.dumpFroze ∧
      t.cat.rings = s.cat.rings ∧
      t.out = s.out ++ [.hostWrite 0 (s.written .catRdLo [] + s.written .catRdHi [] * 2 ^ 32)
        ((ringUnits.map (fun u => ringBytes u (Tbl.look s.cat.rings u {}))).flatten)]) ∧
  (∀ (w : Word) (s : State), s.pfWrite 0 = true → bits w.toNat 2 0 = 2 →
    ∃ t, exec (.freeze 0 w) s = .next t ∧ t.cat.frozen = true ∧ t.cat.rings = s.cat.rings) ∧
  (∀ (w : Word) (s : State), s.pfWrite 0 = true → bits w.toNat 2 0 = 4 →
    ∃ t, exec (.thaw 0 w) s = .next t ∧ t.cat.frozen = false ∧ t.cat.wdQuiet = false ∧ t.cat.rings = s.cat.rings) ∧
  (∀ (w : Word) (s : State) (r : EvRing), s.pfWrite 0 = true → r = Tbl.look s.cat.rings (srcHub hubHost) {} →
    ∃ t, exec (.mark 0 w) s = .next t ∧
      (∀ u, u ≠ srcHub hubHost → Tbl.look t.cat.rings u {} = Tbl.look s.cat.rings u {}) ∧
      if s.cat.frozen = true
      then Tbl.look t.cat.rings (srcHub hubHost) {} = { r with lost := (r.lost + 1) % 2 ^ 32 }
      else ∃ x : Line16, bits x.toNat 39 32 = 0x0A ∧ bits x.toNat 31 16 = s.beat % 2 ^ 16 ∧
        bits x.toNat 127 64 = w.toNat ∧
        Tbl.look t.cat.rings (srcHub hubHost) {} =
          { r with widx := (r.widx + 1) % 2 ^ 32, recs := (r.recs ++ [x]).drop (r.recs.length + 1 - 64) })

/-- R464 to R468: ARM of an idle or stopped trace whose layout is committed and whose buffer holds POST and 64 records starts it
empty at index 0, on any other layout it is refused with LOCKED_FIELD, and while a trace runs it does nothing; STOP ends it
and drops what waits; TRIGGER triggers an armed one at WPTR and is counted by a triggered one; a record of the one FIFO that
holds any is written at WPTR, which moves on by one record, and no other byte changes; a record dropped counts in
CAT_TRDROP, and a triggering one is never dropped before the trigger; once POST records have followed the trigger of a
circular trace it may end. That a stopped trace clears its FIFOs and a TRIGGER writes no record are the model's readings
(log 84). -/
def Obligations.TraceRuns : Prop :=
  (∀ (w : Word) (s : State), s.pfWrite 0 = true → bits w.toNat 1 0 = 1 →
    if s.cat.trace.st = .armed ∨ s.cat.trace.st = .triggered then exec (.arm 0 w) s = .next s
    else if s.uncommitted (fun r _ => r == .catTrBase || r == .catTrSize) = true ∨
        s.traceSize < s.field .catTrPost [] 21 0 + 64
      then exec (.arm 0 w) s = .next (s.refuseWrite 0 (regOff .catTrCmd []) .lockedField)
      else ∃ t, exec (.arm 0 w) s = .next t ∧ t.cat.trace = { s.cat.trace with
        st := .armed
        wptr := 0
        wrap := false
        fullstop := false
        after := 0
        gap := 0
        fifos := [] }) ∧
  (∀ (w : Word) (s : State), s.pfWrite 0 = true → bits w.toNat 1 0 = 2 →
    (s.cat.trace.st = .armed ∨ s.cat.trace.st = .triggered) →
    ∃ t, exec (.traceStop 0 w) s = .next t ∧ t.cat.trace = { s.cat.trace with st := .stopped, fifos := [], gap := 0 } ∧
      t.mem = s.mem) ∧
  (∀ (w : Word) (s : State), s.pfWrite 0 = true → bits w.toNat 1 0 = 3 →
    (s.cat.trace.st = .armed → (s.circular = true ∨ s.cat.trace.wrap = false) →
      ∃ t, exec (.trigger 0 w) s = .next t ∧
        t.cat.trace = { s.cat.trace with st := .triggered, trigIdx := s.cat.trace.wptr, after := 0 } ∧
        t.cat.frozen = (s.cat.frozen || s.flag .catTrCtrl [] 1)) ∧
    (s.cat.trace.st = .triggered →
      ∃ t, exec (.trigger 0 w) s = .next t ∧
        t.cat.trace = { s.cat.trace with retrig := (s.cat.trace.retrig + 1) % 2 ^ 32 })) ∧
  (∀ (s : State) (f : Nat) (r : TraceRec) (rest : List TraceRec), s.alive = true → s.cat.trace.fifos = [(f, r :: rest)] →
    s.cat.trace.st = .armed → s.circular = true → r.trig = false → s.cat.trace.gap = 0 →
    ∃ t, exec .traceRecordWrite s = .next t ∧
      t.cat.trace.wptr = (if s.traceSize ≤ s.cat.trace.wptr + 1 then 0 else s.cat.trace.wptr + 1) ∧
      t.cat.trace.wrap = (s.cat.trace.wrap || decide (s.traceSize ≤ s.cat.trace.wptr + 1)) ∧
      t.cat.trace.st = .armed ∧ Tbl.look t.cat.trace.fifos f [] = rest ∧
      t.mem = Memory.store s.mem (hallBase + (s.field .catTrBase [] 27 16 * 65536 + 32 * s.cat.trace.wptr)) (traceBytes r) ∧
      (traceBytes r).length = 32) ∧
  (∀ (f : Fin 9) (s : State) (r : TraceRec) (rest : List TraceRec), s.alive = true →
    Tbl.look s.cat.trace.fifos f.val [] = r :: rest →
    if r.trig = true ∧ s.cat.trace.st = .armed then exec (.traceRecordDrop f) s = .next s
    else ∃ t, exec (.traceRecordDrop f) s = .next t ∧ Tbl.look t.cat.trace.fifos f.val [] = rest ∧
      (∀ g, g ≠ f.val → Tbl.look t.cat.trace.fifos g [] = Tbl.look s.cat.trace.fifos g []) ∧
      t.cat.trace.drop = min (s.cat.trace.drop + 1) (2 ^ 32 - 1)) ∧
  (∀ s : State, s.alive = true → s.cat.trace.st = .triggered → s.circular = true →
    s.field .catTrPost [] 21 0 ≤ s.cat.trace.after →
    ∃ t, exec .traceCaptureEnd s = .next t ∧ t.cat.trace = { s.cat.trace with st := .stopped, fifos := [], gap := 0 })

/-! ### Registers, firmware, the debug aperture -/

/-- R7, R8, R10, R498 and R500: a write of any shape but 4 or 8 aligned bytes, all enabled, changes no register and is recorded
as BAD_DESCRIPTOR; a write of 8 bytes is two register writes, the lower address first; a write of a plain RW field reads
back, and no other register changes; a change to a locked RWL field is refused with LOCKED_FIELD and leaves it; a read of
another shape than 1 to 8 bytes in an aligned unit answers Unsupported Request, and one that meets no running pair answers
the bytes of its unit; a read of the low word of a running pair latches the high one, which the next read of the high word
returns and consumes. That an 8-byte read latches the high word, and how a partly locked word is settled, are the model's
readings (log 27, log 28). -/
def Obligations.RegistersReadAndWrite : Prop :=
  (∀ (f : GalNo) (off : Nat) (d : Bytes) (en : Bool) (s : State), s.barUp = true → writeShape off d en = false →
    exec (.registerWrite f off d en) s = .next (s.refuseWrite f.val off .badDescriptor)) ∧
  (∀ (f : GalNo) (off : Nat) (a b : Bytes) (s : State), s.barUp = true → off % 8 = 0 → a.length = 4 → b.length = 4 →
    ∃ u t, exec (.registerWrite f off a true) s = .next u ∧ exec (.registerWrite f (off + 4) b true) u = .next t ∧
      exec (.registerWrite f off (a ++ b) true) s = .next t) ∧
  (∀ (r : Reg) (hi lo : Nat) (w : Word) (s : State), s.barUp = true →
    (r, hi, lo) ∈ [(Reg.glbDbgSel, 3, 0), (.glbCommitCrc, 31, 0), (.catSnapLo, 31, 12), (.catSnapHi, 31, 0),
      (.catRdLo, 31, 12), (.catRdHi, 31, 0), (.catWdog, 15, 0), (.rasSrcSel, 15, 0)] →
    ∃ t, exec (.registerWrite 0 (regOff r []) (toLE 4 w.toNat) true) s = .next t ∧
      t.field r [] hi lo = bits w.toNat hi lo ∧ t.ctl = s.ctl ∧
      (∀ q idx, regOff q idx ≠ regOff r [] → t.written q idx = s.written q idx)) ∧
  (∀ (r : Reg) (w : Word) (s : State), s.barUp = true → s.ctl.st = .run → s.flag .hifCtrl [] 0 = true →
    (r = .hifSumLo ∨ r = .hifAckLo) → bits w.toNat 31 9 ≠ s.field r [] 31 9 →
    ∃ t, exec (.registerWrite 0 (regOff r []) (toLE 4 w.toNat) true) s = .next t ∧
      t.field r [] 31 9 = s.field r [] 31 9 ∧ t.ctl = (s.refuseWrite 0 (regOff r []) .lockedField).ctl) ∧
  (∀ (f : GalNo) (off n : Nat) (s : State), s.barServed f.val = true →
    if readShape off n = false
    then exec (.counterPairRead f off n) s = .next { s with out := s.out ++ [.unsupported f.val] }
    else ((∀ p ∈ runningPairs, touches off n p = false ∧ touches off n (p + 4) = false) →
      ∃ t, exec (.counterPairRead f off n) s = .next t ∧ t.ctl = s.ctl ∧
        t.out = s.out ++ [.readData f.val (((toLE 4 (s.readWord f.val (off / 8 * 8)) ++
          toLE 4 (s.readWord f.val (off / 8 * 8 + 4))).drop (off % 8)).take n) false])) ∧
  (∀ (p i : Nat) (s : State), s.barServed 0 = true → (p = 0xA00008 ∧ i = 0 ∨ p = 0xA0002C ∧ i = 1) →
    (∃ t, exec (.counterPairRead 0 p 4) s = .next t ∧ t.out = s.out ++ [.readData 0 (toLE 4 (s.readWord 0 p)) false] ∧
      Tbl.look t.ctl.latches i none = some (BitVec.ofNat 32 (s.readWord 0 (p + 4)))) ∧
    (∀ w, Tbl.look s.ctl.latches i none = some w →
      ∃ t, exec (.counterPairRead 0 (p + 4) 4) s = .next t ∧ t.out = s.out ++ [.readData 0 (toLE 4 w.toNat) false] ∧
        Tbl.look t.ctl.latches i none = none))

/-- R437, R438 and R448, R505, R506: COMMIT of an image on trial ends the trial, raises the floor to its SVN and revokes each
key it names but its own, and it is refused while none is on trial; REVERT makes the other slot ACTIVE; once debug access is
open a write of the aperture stores its bytes in the hall buffer and a read of a channel answers its corrected bytes. That
REVERT is taken in every security state is the model's reading (log 23), and what a debug read counts (log 25). -/
def Obligations.FirmwareAndDebug : Prop :=
  (∀ (w : Word) (s : State) (i : ImageInfo), s.secWrite 0 = true → bits w.toNat 1 0 = 1 → s.sec.trial = true →
    s.sec.image = some i → s.sec.flash.dir.seq.toNat + 1 < 2 ^ 32 →
    ∃ t, exec (.commit 0 w) s = .next t ∧ t.sec.trial = false ∧ t.rpmc 0 = max (s.rpmc 0) i.svn.toNat ∧
      (∀ k, k < 4 → t.rpmc (k + 1) =
        if i.revoke.getLsbD k = true ∧ i.kidx.val ≠ k then s.rpmc (k + 1) + 1 else s.rpmc (k + 1)) ∧
      t.sec.flash.dir = { s.sec.flash.dir with valid := true, seq := s.sec.flash.dir.seq + 1, trial := false }) ∧
  (∀ (w : Word) (s : State), s.secWrite 0 = true → bits w.toNat 1 0 = 1 → s.sec.trial = false →
    exec (.commit 0 w) s = .next (s.refuseWrite 0 (regOff .secFwCmd []) .lockedField)) ∧
  (∀ (w : Word) (s : State), s.secWrite 0 = true → bits w.toNat 1 0 = 2 → s.sec.flash.dir.seq.toNat + 1 < 2 ^ 32 →
    ∃ t, exec (.revert 0 w) s = .next t ∧ t.sec.trial = false ∧ t.sec.flash.rpmc = s.sec.flash.rpmc ∧
      t.sec.flash.dir = { s.sec.flash.dir with
        valid := true, seq := s.sec.flash.dir.seq + 1, active := !s.sec.flash.dir.active, trial := false }) ∧
  (∀ (o n a : Nat) (b : Bytes) (s : State), s.barUp = true → s.debugOpen = true →
    dbgPlace (s.field .glbDbgSel [] 3 0) o = .hall a →
    ∃ t, exec (.debugApertureAccess o n (some b)) s = .next t ∧ t.out = s.out ∧
      t.mem = Memory.store s.mem (hallBase + a) (b.take n)) ∧
  (∀ (o n c a : Nat) (s : State), s.barUp = true → s.debugOpen = true →
    dbgPlace (s.field .glbDbgSel [] 3 0) o = .chan c a →
    ∃ t, exec (.debugApertureAccess o n none) s = .next t ∧ t.mem = s.mem ∧ t.ras = s.ras ∧
      t.out = s.out ++ [.readData 0 (s.chanView c a n) ((s.chanErrors (s.core c).chan a n).any Prod.snd)])

/-! ### Remote windows -/

/-- R390 to R396: an accepted WIN_OPEN opens the lowest FREE window with its range, permissions and peers, counts it on the
handle of a SCRATCH range and pins the objects of a DEVICE range, and answers with its number and generation; a WIN_CLOSE
makes its window CLOSING under the next generation, and from four beats on, with no write of the old generation left, it is
FREE and the command answers with the bytes written; an accepted WIN_PUT or WIN_GET waits under an operation number no
running one has; a packet that passes the owner's checks is written, or kept while its place may not be written, and one that
fails them writes nothing; a request is answered on an uplink, in a frame, with the bytes asked for; bytes that answer a request
reach the operation's channel, for its write engine, and count as received;
an ACK counts the bytes it acknowledges, and one that refuses ends the injecting; the acknowledgement timer leaves nothing
of its operation unacknowledged; an unanswered packet or request four beats old ends its operation with LINK_DOWN; an
operation with everything answered completes with its status and the bytes acknowledged or received. What the manual leaves
open of counters, order and malformed answers is the model's reading (log 70, log 71, log 72). -/
def Obligations.WindowsWork : Prop :=
  (∀ (r : RingNo) (i : Word) (d : Line64) (s : State) (w : Nat), s.Accepts (.ring r i) d opWinOpen winOpenChecks →
    s.freeWindow = some w → s.fenced r.val = false → s.cutOff (r.val / 64) = false →
    ∃ t, exec (.winOpen (.ring r i) d) s = .next t ∧
      t.window w = { st := .opened, gen := (s.window w).gen, gal := r.val / 64
                     endpoint := BitVec.ofNat 128 (fld d 8 127 0), size := fld d 24 31 0, perm := fld d 28 1 0
                     peers := (List.range 4).map (fun j => BitVec.ofNat 32 (fld d (32 + 4 * j) 31 0)) } ∧
      (∀ v, v ≠ w → t.window v = s.window v) ∧
      ((Ep.of d 8).scratch = true → ((t.core (Ep.of d 8).core).handle (refIndex (Ep.of d 8).href)).count =
        ((s.core (Ep.of d 8).core).handle (refIndex (Ep.of d 8).href)).count + 1) ∧
      ((Ep.of d 8).device = true → ∀ n x, n ∈ s.objectsOf (r.val / 64) (Ep.of d 8).addr (fld d 24 31 0) →
        s.obj? n = some x → t.obj? n = some { x with pins := x.pins + 1 }) ∧
      s.Answered t r.val (s.record r.val (fld d 2 15 0) 0x70 Status.ok.code 0 0 (w + (s.window w).gen.toNat * 2 ^ 16)
        i.toNat)) ∧
  (∀ (o : Origin) (d : Line64) (s : State), s.Accepts o d opWinClose winCloseChecks →
    ∃ t, exec (.winClose o d) s = .next t ∧ t.out = s.out ∧
      t.window (fld d 8 9 0) = { s.window (fld d 8 9 0) with
        st := .closing
        gen := (s.window (fld d 8 9 0)).gen + 1
        closeOp := some (s.asOp o d opWinClose)
        closeBeat := s.beat } ∧
      (∀ v, v ≠ fld d 8 9 0 → t.window v = s.window v)) ∧
  (∀ (w : Fin 1024) (s : State) (o : Op) (r : RingNo) (i : Word), s.running = true → (s.window w.val).st = .closing →
    (s.window w.val).closeBeat + 4 ≤ s.beat → (s.window w.val).held = [] → (s.window w.val).closeOp = some o →
    o.org = .ring r i → s.hif.inflight.any (fun p => p.id == o.id) = true → s.fenced r.val = false →
    s.cutOff (r.val / 64) = false →
    ∃ t, exec (.winCloseComplete w) s = .next t ∧
      t.window w.val = { gen := (s.window w.val).gen, gal := (s.window w.val).gal } ∧
      (∀ v, v ≠ w.val → t.window v = s.window v) ∧
      s.Answered t r.val (s.record r.val (fld o.d 2 15 0) o.opcode Status.ok.code 0 0 (s.window w.val).written i.toNat)) ∧
  (∀ (o : Origin) (d : Line64) (s : State) (c : Origin → Line64 → Instr) (op : Nat),
    (c = .winPut ∧ op = opWinPut) ∨ (c = .winGet ∧ op = opWinGet) → s.Accepts o d op winMoveChecks →
    ∃ t, exec (c o d) s = .next t ∧ (op = opWinPut ∨ s.locked = false → t.out = s.out) ∧
      t.dma.ops.map (fun y => y.op) = s.dma.ops.map (fun y => y.op) ++ [s.asOp o d op] ∧
      (∃ y ∈ t.dma.ops, y.op = s.asOp o d op ∧ y.opid = s.newOpid) ∧ t.dma.nextOpid = (s.newOpid + 1) % 65536) ∧
  (∀ (p : PortNo) (h b : Line16) (data : Bytes) (s u : State),
    s.arriveData p.val prPut h (lineBytes b ++ data) = (u, true) → Sub.bad b = false →
    (u.window (Sub.win b)).held = [] →
    ∃ t z k, exec (.put p h b data) s = .next t ∧
      k = { src := Pkt.src h, opid := Sub.opid b, flow := Pkt.flow h, ofs := Sub.ofs b, data := slice data 0 (Sub.bytes b) } ∧
      z = (u.setWindow (Sub.win b) { u.window (Sub.win b) with held := [k] }).setWindow (Sub.win b) (u.window (Sub.win b)) ∧
      (∀ v, v ≠ Sub.win b → t.window v = u.window v) ∧
      (u.windowRefuses b (Pkt.src h) (u.windowNeeds (u.window (Sub.win b)) (Sub.bytes b)) 0 = none →
        if u.windowWaits (Sub.win b) (Sub.ofs b) (Sub.bytes b) = true
        then t.mem = u.mem ∧ t.window (Sub.win b) = { u.window (Sub.win b) with held := [k] }
        else t.mem = (z.windowWrite (Sub.win b) (Sub.ofs b) (slice data 0 (Sub.bytes b))).1.mem ∧
          (t.window (Sub.win b)).held = [] ∧
          (t.window (Sub.win b)).written = (u.window (Sub.win b)).written + Sub.bytes b) ∧
      (u.windowRefuses b (Pkt.src h) (u.windowNeeds (u.window (Sub.win b)) (Sub.bytes b)) 0 ≠ none →
        t.mem = u.mem ∧ (t.window (Sub.win b)).written = (u.window (Sub.win b)).written)) ∧
  (∀ (p : PortNo) (h b : Line16) (len : Word) (outside : Bytes) (ups : List Upset) (s u : State) (q : Nat) (vias : List Nat),
    (s.upsets ups).arriveData p.val prGetReq h (lineBytes b ++ toLE 16 len.toNat) = (u, true) → Sub.bad b = false →
    u.windowRefuses b (Pkt.src h) len.toNat 1 = none → (u.window (Sub.win b)).ep.hall = true →
    u.badWords (hallBase + (u.window (Sub.win b)).ep.addr + Sub.ofs b) len.toNat = [] →
    0 < len.toNat → len.toNat ≤ u.dataRoom (Pkt.src h) → u.wayTo (Pkt.src h) (Pkt.flow h) = some (q, vias, false) → 24 ≤ q →
    ∃ t, exec (.getReq p h b len outside ups) s = .next t ∧ t.mem = u.mem ∧ t.fab.windows = u.fab.windows ∧
      t.out = u.out ++ [.frame q (u.frameHead (q - 24) tyData (Pkt.src h))
        (if bit (u.field .brlMacsec [] 7 0) (q - 24) then some (Tbl.look u.fab.macSend (q - 24) false) else none)
        (pktHdr tyData 0 (alignUp (16 + len.toNat) 32 / 32) u.beat prGetData (Pkt.src h) u.devId
          (Pkt.flow h) vias)
        (slice (winSub (Sub.win b) (Sub.gen b) (Sub.opid b) len.toNat (Sub.ofs b) (Sub.gal b) ++
          u.readHall ((u.window (Sub.win b)).ep.addr + Sub.ofs b) len.toNat) 0 (alignUp (16 + len.toNat) 32))]) ∧
  (∀ (p : PortNo) (h b : Line16) (data : Bytes) (s u : State) (x : DmaOp),
    s.arriveData p.val prGetData h (lineBytes b ++ data) = (u, true) → Sub.bad b = false →
    u.dma.ops.find? (fun x => x.op.opcode == opWinGet && x.opid == Sub.opid b && WinF.dev x.op == Pkt.src h) = some x →
    x.flight.any (fun f => decide (WinF.ofs x.op + f.1 ≤ Sub.ofs b) &&
      decide (Sub.ofs b - WinF.ofs x.op + Sub.bytes b ≤ f.1 + f.2.1)) = true →
    ∃ t, exec (.getData p h b data) s = .next t ∧
      t.mem = u.mem ∧
      (∃ y ∈ t.dma.ops, y.op = x.op ∧ y.acked = x.acked + Sub.bytes b ∧ y.begun = true ∧
        y.staged = x.staged ++ [{ ofs := Sub.ofs b - WinF.ofs x.op, data := slice data 0 (Sub.bytes b) }])) ∧
  (∀ (p : PortNo) (h : Line16) (l : Line32) (s u : State) (x : DmaOp),
    s.arriveData p.val prAck h (lineBytes l) = (u, true) → fld l 3 7 0 = 0 → fld l 12 159 0 = 0 →
    u.dma.ops.find? (fun x => (x.op.opcode == opWinPut || x.op.opcode == opWinGet) && x.opid == fld l 0 15 0 &&
      WinF.dev x.op == Pkt.src h) = some x → (∀ z ∈ u.dma.ops, z.op.id = x.op.id → z = x) →
    ∃ t, exec (.ack p h l) s = .next t ∧ t.mem = u.mem ∧
      (∃ y ∈ t.dma.ops, y.op = x.op ∧ y.acked = x.acked + fld l 4 31 0 ∧
        (fld l 2 7 0 ≠ 0 → y.noMore = true ∧ y.status = x.status.max (statusOf (fld l 2 7 0))))) ∧
  (∀ (w : Fin 1024) (src : BitVec 17) (n : BitVec 16) (s : State) (a : WinPeerOp), s.alive = true →
    (s.window w.val).held = [] →
    (s.window w.val).acks.find? (fun a => a.src == src.toNat && a.opid == n.toNat) = some a →
    ∃ t, exec (.ackTimer w src n) s = .next t ∧ t.mem = s.mem ∧
      t.window w.val = { s.window w.val with
        acks := (s.window w.val).acks.filter (fun a => !(a.src == src.toNat && a.opid == n.toNat)) } ∧
      (∀ v, v ≠ w.val → t.window v = s.window v)) ∧
  (∀ (n : BitVec 16) (s : State) (x : DmaOp) (f : Nat × Nat × Nat), s.alive = true →
    s.dma.ops.find? (fun x => (x.op.opcode == opWinPut || x.op.opcode == opWinGet) && x.opid == n.toNat) = some x →
    f ∈ x.flight → f.2.2 + 4 ≤ s.beat →
    ∃ t, exec (.windowOpTimeout n) s = .next t ∧ t.dma.ops = s.dma.ops.map (fun y => if y.op.id = x.op.id
      then { y with begun := true, noMore := true, status := y.status.max .linkDown, flight := [] } else y)) ∧
  (∀ (n : BitVec 16) (s : State) (x : DmaOp) (r : RingNo) (i : Word), s.alive = true →
    s.dma.ops.find? (fun x => (x.op.opcode == opWinPut || x.op.opcode == opWinGet) && x.opid == n.toNat) = some x →
    x.begun = true → x.flight = [] → x.staged = [] → (x.noMore = true ∨ WinF.len x.op ≤ x.rd) → x.op.org = .ring r i →
    s.hif.inflight.any (fun p => p.id == x.op.id) = true → s.fenced r.val = false → s.cutOff (r.val / 64) = false →
    s.dma.stops = [] → (∀ m ∈ s.tiers.maps, m.release = none) → s.tiers.objWait = [] →
    ∃ t, exec (.windowOpComplete n) s = .next t ∧ t.dma.ops = s.dma.ops.filter (fun y => y.op.id != x.op.id) ∧
      s.Answered t r.val (s.record r.val (fld x.op.d 2 15 0) x.op.opcode x.status.code 0 0 x.windowResult i.toNat))

/-! ### The carousel -/

/-- R371, R376, R378, R379, R381 to R385: an accepted COLL of a map in force is registered for its instance's beat; a QUIESCE
joins the pending quiesce of the next multiple of 32 at least 16 beats ahead; a CAR_LOAD waits for its image, asked for
where it stands in host memory, and the image read becomes the pending map, or is refused with BAD_DESCRIPTOR, cause 5; a
packet of a rank's contribution is written into its slice and counts as landed, a HOLE marks its rank; at its slot's START a
contribution that is registered has gone out, else a hole; a collective whose other ranks are all present or missing ends
with the ranks missing in RESULT, and an ALL_GATHER in which none is missing leaves every rank's contribution at DEST in
rank order; a device that loses the beat runs freely in SEEK with no collective and no window operation left. The quiesce
beat, the image's length and FLOW are the model's readings (log 73, log 74, log 76). -/
def Obligations.CarouselTurns : Prop :=
  (∀ (o : Origin) (d : Line64) (s : State) (x : CarGroup) (cap n : Nat), s.Accepts o d opColl collChecks →
    s.carGroupOf (fld d 8 15 0) = some (x, cap) → s.fab.carWait = none → n = s.instanceBeat (s.asOp o d opColl) →
    s.beat < n + 4 →
    ∃ t, exec (.coll o d) s = .next t ∧ t.out = s.out ∧ t.mem = s.mem ∧
      t.fab.colls = s.fab.colls ++ [{ op := s.asOp o d opColl, group := x, beat := n,
                                      own := if s.fab.sentSlots.any (fun e => e.1 == x.group && e.2.1 == n && !e.2.2)
                                        then some false else none }]) ∧
  (∀ (o : Origin) (d : Line64) (s : State), s.Accepts o d opQuiesce quiesceChecks →
    ∃ t, exec (.quiesce o d) s = .next t ∧
      ∃ x ∈ t.fab.quiesces, x.q = alignUp (s.beat + 16) 32 ∧ s.asOp o d opQuiesce ∈ x.ops) ∧
  (∀ (r : RingNo) (i : Word) (d : Line64) (s : State), s.Accepts (.ring r i) d opCarLoad carLoadChecks →
    s.cutOff (r.val / 64) = false →
    ∃ t, exec (.carLoad (.ring r i) d) s = .next t ∧ t.fab.carLoads = s.fab.carLoads ++ [s.asOp (.ring r i) d opCarLoad] ∧
      t.out = s.out ++ (if (Ep.of d 8).host = true
        then [.hostRead (r.val / 64) (.mapImage r i) (Ep.of d 8).addr (fld d 24 31 0)] else [])) ∧
  (∀ (r : RingNo) (i : Word) (img : Bytes) (s : State) (o : Op), s.alive = true →
    s.fab.carLoads.find? (fun o => o.org == .ring r i) = some o → (Ep.of o.d 8).hall = false →
    s.hif.inflight.any (fun p => p.id == o.id) = true → s.fenced r.val = false → s.cutOff (r.val / 64) = false →
    ∃ t, exec (.mapImageReadDone r i img) s = .next t ∧
      t.fab.carLoads = s.fab.carLoads.filter (fun p => p.id != o.id) ∧
      match parseMap s.devId (8 * s.beatUs) (slice img 0 (fld o.d 24 31 0)) with
      | none => t.fab.carPend = s.fab.carPend ∧ t.fab.carMap = s.fab.carMap ∧
          s.Answered t r.val (s.record r.val (fld o.d 2 15 0) o.opcode Status.badDescriptor.code 5 0 0 i.toNat)
      | some m => (s.fab.carWait ≠ some m.gen → t.fab.carPend = some m ∧ t.fab.carMap = s.fab.carMap) ∧
          s.Answered t r.val (s.record r.val (fld o.d 2 15 0) o.opcode Status.ok.code 0 0 0 i.toNat)) ∧
  (∀ (p : PortNo) (h b : Line16) (data : Bytes) (s u : State) (x : CarGroup) (n : Nat),
    s.arriveData p.val prColl h (lineBytes b ++ data) = (u, true) → u.collGroup b = (u, some x) → n = u.nearBeat (fld b 4 31 0) →
    fld b 2 5 0 < x.g → fld b 8 31 0 + fld b 12 12 0 ≤ x.rcap →
    ∃ t, exec (.collDataReceive p h b data) s = .next t ∧
      t.arrival x.group n (fld b 2 5 0) = { u.arrival x.group n (fld b 2 5 0) with
        runs := (u.arrival x.group n (fld b 2 5 0)).runs ++ [(fld b 8 31 0, fld b 12 12 0, u.fab.arrOrder)] } ∧
      t.fab.arrOrder = u.fab.arrOrder + 1 ∧
      t.mem = (u.hallPut [(x.rarea + n % 4 * x.g * x.rcap + fld b 2 5 0 * x.rcap + fld b 8 31 0,
        slice data 0 (fld b 12 12 0))]).1.mem ∧
      (∀ g m r, (g, m, r) ≠ (x.group, n, fld b 2 5 0) → t.arrival g m r = u.arrival g m r)) ∧
  (∀ (p : PortNo) (h b : Line16) (s u : State) (x : CarGroup) (n : Nat),
    s.arriveData p.val prHole h (lineBytes b ++ toLE 16 0) = (u, true) → u.collGroup b = (u, some x) →
    n = u.nearBeat (fld b 4 31 0) →
    ∃ t, exec (.hole p h b) s = .next t ∧ t.mem = u.mem ∧
      t.arrival x.group n (fld b 2 5 0) = { u.arrival x.group n (fld b 2 5 0) with hole := true } ∧
      (∀ g m r, (g, m, r) ≠ (x.group, n, fld b 2 5 0) → t.arrival g m r = u.arrival g m r)) ∧
  (∀ (k : Fin 64) (s : State) (m : CarMap) (x : CarGroup), s.fab.carMap = some m →
    (m.slots[k.val]?.bind (fun t => m.groups[t.gidx]?)) = some x → s.running = true → s.locked = true →
    s.fab.carWait = none → s.stillBeat = false → s.fab.sentSlots.any (fun e => e.1 == x.group && e.2.1 == s.beat) = false →
    ∃ t, exec (.carouselSlotStart k) s = .next t ∧ t.mem = s.mem ∧
      (x.group, s.beat, s.fab.colls.any (fun c => c.group.group == x.group && c.beat == s.beat)) ∈ t.fab.sentSlots ∧
      (∀ c ∈ t.fab.colls, c.group.group = x.group → c.beat = s.beat → c.own = some true) ∧
      t.fab.colls.map (fun c => c.op) = s.fab.colls.map (fun c => c.op)) ∧
  (∀ (g n : Nat) (s : State) (c : CollRec) (r : RingNo) (i : Word) (missing : List Nat), s.running = true →
    s.fab.colls.find? (fun c => c.group.group == g && c.beat == n) = some c → s.collReady c = true →
    c.op.org = .ring r i → s.hif.inflight.any (fun p => p.id == c.op.id) = true → s.fenced r.val = false →
    s.cutOff (r.val / 64) = false → s.bad = [] → missing = c.group.others.filter (fun k => (s.rankState c k true).2) →
    ∃ t, exec (.collComplete g n) s = .next t ∧ t.fab.colls = s.fab.colls.filter (fun y => y.op.id != c.op.id) ∧
      s.Answered t r.val (s.record r.val (fld c.op.d 2 15 0) c.op.opcode
        (worst [statusIf c.noRoute .linkDown, statusIf (!missing.isEmpty || c.own == some false) .slotMissed,
          statusIf c.unlocked .beatLost]).code 0 0
        (((missing ++ if c.own == some false then [c.group.rank] else []).map (fun k => 2 ^ k)).foldl (· + ·) 0) i.toNat) ∧
      (CollF.kind c.op = 0 → missing = [] → CollF.dest c.op + resultBytes c.op c.group.g ≤ 2 ^ 28 →
        CollF.src c.op + collBytes (CollF.efmt c.op) (CollF.elems c.op) ≤ 2 ^ 28 →
        (∀ k, k < c.group.g → c.slice k + collBytes (CollF.efmt c.op) (CollF.elems c.op) ≤ 2 ^ 28) →
        ∀ k j, k < c.group.g → j < collBytes (CollF.efmt c.op) (CollF.elems c.op) →
          Memory.get t.mem (hallBase + CollF.dest c.op + k * collBytes (CollF.efmt c.op) (CollF.elems c.op) + j) =
            Memory.get s.mem (hallBase + (if k = c.group.rank then CollF.src c.op else c.slice k) + j))) ∧
  (∀ (cause : BeatLossCause) (s : State), s.alive = true → s.fab.beat.st = .locked → s.fab.beat.lossDue = some cause →
    ∃ t, exec (.beatLoss cause) s = .next t ∧ t.fab.beat.st = .seek ∧ t.fab.beat.stratum = 15 ∧ t.fab.beat.parent = 63 ∧
      t.fab.beat.lossDue = none ∧ t.beat = s.beat ∧ t.fab.colls = [] ∧
      (∀ y ∈ t.dma.ops, y.op.opcode ≠ opWinPut ∧ y.op.opcode ≠ opWinGet) ∧
      t.counter .beatLoss 0 0 = min (s.counter .beatLoss 0 0 + 1) (2 ^ 64 - 1))


/-! ### Links and ports -/

/-- R347, R350, R351, R358: a LINK_CTRL that arrives in CHECK gives its credits and settles the wiring: the port is in STANDBY
where the identity is that of the wired port, else MISWIRED with an incident; one is sent with the credits owed and the own
identity; a packet on its way leaves on the next hop's port with one hop more, or is dropped and counted where its next link
has gone; a packet that fails a check is counted, and asks for a replay where its own content is what fails. NAK carried
once, the wired peer's ID in DST and where a lost next hop counts are the model's readings (log 64, log 65, log 66). -/
def Obligations.PacketsPass : Prop :=
  (∀ (p : PortNo) (h : Line16) (l : Line32) (s u : State), p.val < 24 → s.arrive p.val tyLinkCtrl h (lineBytes l) = (u, true) →
    (u.port p.val).queue = [] → (u.port p.val).st = .check →
    ∃ t, exec (.linkCtrlReceive p h l) s = .next t ∧
      t.port p.val = { u.port p.val with
        credits := (List.range 4).map (fun v => (u.port p.val).credits.getD v 0 + fld l (2 * v) 15 0)
        peerId := fld l 8 16 0, peerPort := fld l 8 21 17
        st := if cabOf (fld l 8 16 0) = cabOf s.devId ∧ slotOf (fld l 8 16 0) = (wired (slotOf s.devId) p.val).1 ∧
          fld l 8 21 17 = (wired (slotOf s.devId) p.val).2 then .standby else .miswired } ∧
      (∀ q, q ≠ p.val → t.port q = u.port q) ∧
      ((t.port p.val).st = .miswired →
        t.counter .brlMiswire p.val 0 = min (u.counter .brlMiswire p.val 0 + 1) (2 ^ 64 - 1) ∧
        (t.source (0x4000 + p.val)).count = min ((u.source (0x4000 + p.val)).count + 1) (2 ^ 32 - 1))) ∧
  (∀ (p : PortNo) (h : Line16) (l : Line32) (s u : State), p.val < 24 → s.arrive p.val tyLinkCtrl h (lineBytes l) = (u, true) →
    (u.port p.val).queue = [] → (u.port p.val).st ≠ .check →
    exec (.linkCtrlReceive p h l) s = .next (u.setPort p.val { u.port p.val with
      credits := (List.range 4).map (fun v => (u.port p.val).credits.getD v 0 + fld l (2 * v) 15 0) })) ∧
  (∀ (p : PortNo) (s : State), s.alive = true → p.val < 24 →
    ((s.port p.val).st = .check ∨ (s.port p.val).st = .standby ∨ (s.port p.val).st = .up) →
    (s.port p.val).queue = [] → 2 ≤ (s.port p.val).credits.getD 0 0 → (s.port p.val).retry.length < 2048 →
    (s.port p.val).heldBytes + 52 ≤ 131072 →
    ∃ t h, ∃ l : Line32, exec (.linkCtrlSend p) s = .next t ∧ t.out = s.out ++ [.packet p.val h (lineBytes l)] ∧ Pkt.type h = tyLinkCtrl ∧
      fld l 8 16 0 = s.devId ∧ fld l 8 21 17 = p.val ∧ (∀ v, v < 4 → fld l (2 * v) 15 0 = (s.port p.val).owed.getD v 0 % 65536) ∧
      (t.port p.val).owed = [0, 0, 0, 0] ∧ (t.port p.val).txSeq = (s.port p.val).txSeq + 1 ∧
      (t.port p.val).st = (s.port p.val).st ∧ (∀ q, q ≠ p.val → t.port q = s.port q)) ∧
  (∀ (p : PortNo) (h x : Line16) (b : Bytes) (s u : State) (n q : Nat), p.val < 24 → s.arrive p.val tyData h b = (u, true) →
    Pkt.dst h ≠ s.devId → nextSlot (slotOf s.devId) h = some n → byFlow (u.hopPorts (slotOf s.devId) n) (Pkt.flow h) = some q →
    x = BitVec.ofNat 128 (setBits (setBits h.toNat 7 6 (Pkt.hops h + 1)) 5 4 (Pkt.hops h + 2)) →
    (u.port q).queue = [] → (u.port q).maySend x b = true → q < 24 →
    ∃ t y, exec (.dataForward p h b) s = .next t ∧ t.out = u.out ++ [.packet q y b] ∧ Pkt.hops y = Pkt.hops h + 1 ∧
      Pkt.vl y = Pkt.hops h + 2 ∧ Pkt.dst y = Pkt.dst h ∧ Pkt.src y = Pkt.src h ∧ Pkt.flow y = Pkt.flow h ∧
      (∀ z, z ≠ q → t.port z = u.port z)) ∧
  (∀ (p : PortNo) (h : Line16) (b : Bytes) (s u : State) (n : Nat), p.val < 24 → s.arrive p.val tyData h b = (u, true) →
    Pkt.dst h ≠ s.devId → nextSlot (slotOf s.devId) h = some n → byFlow (u.hopPorts (slotOf s.devId) n) (Pkt.flow h) = none →
    ∃ t, exec (.dataForward p h b) s = .next t ∧ t.out = u.out ∧ t.fab = u.fab ∧
      t.counter .brlDropLink p.val 0 = min (u.counter .brlDropLink p.val 0 + 1) (2 ^ 64 - 1)) ∧
  (∀ (p : PortNo) (why : DiscardReason) (s : State), s.alive = true →
    ((s.port p.val).st = .check ∨ (s.port p.val).st = .standby ∨ (s.port p.val).st = .up) →
    ∃ t, exec (.packetDiscard p why) s = .next t ∧
      (match why with
       | .crc | .fcs | .etherType =>
         t.counter .brlCrcFail p.val 0 = min (s.counter .brlCrcFail p.val 0 + 1) (2 ^ 64 - 1)
       | .header => t.counter .brlBadHdr p.val 0 = min (s.counter .brlBadHdr p.val 0 + 1) (2 ^ 64 - 1)
       | .macsec => t.counter .brlSecDrop p.val 0 = min (s.counter .brlSecDrop p.val 0 + 1) (2 ^ 64 - 1)
       | .proto => t.counter .fabBadProto 0 0 = min (s.counter .fabBadProto 0 0 + 1) (2 ^ 64 - 1)) ∧
      t.port p.val = (if p.val < 24 ∧ why ≠ .macsec ∧ why ≠ .proto then { s.port p.val with nak := true } else s.port p.val) ∧
      (∀ q, q ≠ p.val → t.port q = s.port q) ∧ t.out = s.out)

/-- R367 to R370: a sync word of another beat length is counted and changes nothing of the beat unit; the fourth good word in a
row of one candidate locks a seeking unit to it, one stratum below and with the next count; a word of the parent within 100
ns steers a locked unit by a quarter of θ, 4 ns at most. R374, R375: a notice whose pair is known is counted and goes no
further; a new one is remembered for 64 beats and sent on every live cabinet port but its own; LINK_DOWN takes its link out
of the table at once, and a PLANES notice takes the planes it does not name from its origin; pairs whose 64 beats are over
leave the table. The truncation of θ is the model's reading (log 69). -/
def Obligations.SyncAndNotices : Prop :=
  (∀ (x : Neighbour) (h : Line16) (l : Line32) (rx : Nat) (s u : State), s.heardFrom x tySync h l = (u, true) →
    u.fab.beat.st ≠ .off → fld l 17 4 0 ≠ u.field .beatCfg [] 4 0 → u.fab.carWait = none →
    ∃ t, exec (.syncReceive x h l rx) s = .next t ∧ t.fab = u.fab ∧
      t.counter .syncPeriod 0 0 = min (u.counter .syncPeriod 0 0 + 1) (2 ^ 64 - 1)) ∧
  (∀ (x : Neighbour) (h : Line16) (l : Line32) (rx : Nat) (s u : State) (th : Int), s.heardFrom x tySync h l = (u, true) →
    u.fab.beat.st = .seek → fld l 17 4 0 = u.field .beatCfg [] 4 0 →
    (u.fab.beat.peer (neighbourIdx x)).seen = true → 3 ≤ (u.fab.beat.peer (neighbourIdx x)).streak →
    fld l 0 63 0 = (u.fab.beat.peer (neighbourIdx x)).beat + 1 →
    syncTheta (u.fab.beat.peer (neighbourIdx x)) l rx = some th → th.natAbs ≤ 4000 → fld l 16 3 0 ≤ 13 → fld l 28 16 0 ≠ u.devId →
    fld l 18 15 0 = u.mapGen → fld l 24 15 0 = 0 →
    ∃ t, exec (.syncReceive x h l rx) s = .next t ∧ t.fab.beat.st = .locked ∧ t.fab.beat.stratum = fld l 16 3 0 + 1 ∧
      t.fab.beat.parent = neighbourIdx x ∧ t.fab.beat.rootId = fld l 20 16 0 ∧ t.fab.beat.next = some (fld l 0 63 0 + 1) ∧
      t.fab.beat.cnt = u.fab.beat.cnt ∧ t.fab.ports = u.fab.ports) ∧
  (∀ (x : Neighbour) (h : Line16) (l : Line32) (rx : Nat) (s u : State) (th : Int), s.heardFrom x tySync h l = (u, true) →
    u.fab.beat.st = .locked → u.fab.beat.parent = neighbourIdx x → fld l 17 4 0 = u.field .beatCfg [] 4 0 →
    syncTheta (u.fab.beat.peer (neighbourIdx x)) l rx = some th → u.fab.beat.next = none → fld l 0 63 0 = u.fab.beat.cnt →
    fld l 20 16 0 = u.fab.beat.rootId → u.fab.carWait = none →
    ∃ t, exec (.syncReceive x h l rx) s = .next t ∧ t.fab.beat.st = .locked ∧ t.fab.beat.theta = th ∧
      t.fab.beat.steer = max (-64) (min 64 (Int.tdiv th 4)) ∧ t.fab.beat.silent = 0 ∧
      t.fab.beat.lossDue = (if 1600 < th.natAbs then some .theta else u.fab.beat.lossDue) ∧
      t.fab.beat.cnt = u.fab.beat.cnt) ∧
  (∀ (x : Neighbour) (h : Line16) (l : Line32) (s u : State), s.heardFrom x tyNotice h l = (u, true) →
    u.fab.seen.any (fun e => e.1 == fld l 4 16 0 && e.2.1 == fld l 2 15 0 && e.2.2 != 0) = true →
    ∃ t, exec (.noticeReceive x h l) s = .next t ∧ t.fab = u.fab ∧ t.out = u.out ∧
      t.counter .noteRx 0 0 = min (u.counter .noteRx 0 0 + 1) (2 ^ 64 - 1)) ∧
  (∀ (x : Neighbour) (h : Line16) (l : Line32) (s u : State), s.heardFrom x tyNotice h l = (u, true) →
    u.fab.seen.any (fun e => e.1 == fld l 4 16 0 && e.2.1 == fld l 2 15 0 && e.2.2 != 0) = false →
    ∃ t, exec (.noticeReceive x h l) s = .next t ∧ (fld l 4 16 0, fld l 2 15 0, 64) ∈ t.fab.seen ∧
      (∀ p, p < 24 → x ≠ .port (Fin.ofNat 24 p) → ((u.port p).st = .standby ∨ (u.port p).st = .up) → (u.port p).queue = [] →
        2 ≤ (u.port p).credits.getD 0 0 → (u.port p).retry.length < 2048 → (u.port p).heldBytes + 52 ≤ 131072 →
        ∃ y, .packet p y (lineBytes (Notice.of l).line) ∈ t.out) ∧
      (fld l 0 3 0 = noteDown → cabOf (fld l 4 16 0) = cabOf u.devId → fld l 16 4 0 < 24 →
        Tbl.look t.fab.links (linkKey (slotOf (fld l 4 16 0)) (fld l 16 4 0)) false = false ∧ t.fab.planes = u.fab.planes) ∧
      (fld l 0 3 0 = notePlanes → fld l 8 63 0 ≠ 0 →
        Tbl.look t.fab.planes (fld l 4 16 0) 0 = Tbl.look u.fab.planes (fld l 4 16 0) 0 &&& BitVec.ofNat 8 (fld l 17 7 0) ∧
        t.fab.links = u.fab.links) ∧
      (fld l 0 3 0 = notePlanes → fld l 8 63 0 = 0 →
        Tbl.look t.fab.planes (fld l 4 16 0) 0 = BitVec.ofNat 8 (fld l 17 7 0))) ∧
  (∀ s : State, ∃ t, exec .noticePairExpiry s = .next t ∧ (∀ e, e ∈ t.fab.seen ↔ e ∈ s.fab.seen ∧ e.2.2 ≠ 0) ∧
    t = { s with fab := { s.fab with seen := t.fab.seen } })




/-- R349, R351: a port whose training ends stands in CHECK, an uplink in STANDBY, with its link layer as new; one whose training
takes too long is DOWN; an UP port that fails or falls idle is DOWN with nothing held, an incident of its number, and its
link gone from the own table; 1,024 beats later it trains again. Sequence numbers after training are the model's reading
(log 65). -/
def Obligations.PortsComeAndGo : Prop :=
  (∀ (p : PortNo) (s : State), s.alive = true → (s.port p.val).st = .training →
    (∃ t, exec (.portTrainingDone p) s = .next t ∧ t.port p.val = { st := if p.val < 24 then .check else .standby } ∧
      (∀ q, q ≠ p.val → t.port q = s.port q) ∧ t.out = s.out) ∧
    (∃ t, exec (.portTrainingTimeout p) s = .next t ∧
      t.port p.val = { s.port p.val with st := .down, retry := [], queue := [], returning := none, downFor := 0 } ∧
      (∀ q, q ≠ p.val → t.port q = s.port q) ∧ t.out = s.out)) ∧
  (∀ (p : PortNo) (c : Instr) (s : State), s.alive = true → (s.port p.val).st = .up →
    (c = .linkIdleTimeout p ∨ c = .portFailure p .fec ∨ c = .portFailure p .lock ∨
      (c = .portFailure p .replay ∧ ∃ r ∈ (s.port p.val).retry, 8 ≤ r.tries)) →
    ∃ t, exec c s = .next t ∧ (t.port p.val).st = .down ∧ (t.port p.val).retry = [] ∧ (t.port p.val).queue = [] ∧
      (t.port p.val).downFor = 0 ∧
      (t.source (0x4000 + p.val)).count = min ((s.source (0x4000 + p.val)).count + 1) (2 ^ 32 - 1) ∧
      (p.val < 24 → Tbl.look t.fab.links (linkKey (slotOf s.devId) p.val) false = false)) ∧
  (∀ (p : PortNo) (s : State), s.alive = true → (s.port p.val).st = .down → 1024 ≤ (s.port p.val).downFor →
    ∃ t, exec (.portRetrainTimer p) s = .next t ∧ t.port p.val = { s.port p.val with st := .training, downFor := 0 } ∧
      (∀ q, q ≠ p.val → t.port q = s.port q) ∧ t.out = s.out)

/-! ### Resets, start-up, the part's surroundings -/

/-- R435, R501, R516, R519, R522, R524: a device reset leaves memory, registers, rings, cores, streams and the fabric at their
reset values, keeps the flash's directory and slots and samples the straps at power-up; the helper data and the root key
decide between a boot that goes on and SEC_FAIL; PERST# does nothing while PWRGD is low; a fall of PWRGD holds the device; a
lost system clock stops it; a lost link clock takes every port that is not DISABLED down; a trained PCIe link shows its
width, rate and mode, and one the endpoint does not support never trains. That the thermal trip outlives PERST# and which ports a lost link clock takes down are the model's
readings (log 40), and so is the enrolment (log 38). -/
def Obligations.DeviceResets : Prop :=
  (∀ (perst : Bool) (x : HelperState) (tags : Bool) (pos : BitVec 7) (smba : BitVec 3) (s : State),
    ¬ (perst = true ∧ s.ctl.power = .held) →
    ∃ t, exec (.deviceReset perst x tags pos smba) s = .next t ∧ t.mem = State.reset.mem ∧ t.regs = State.reset.regs ∧
      t.hif = State.reset.hif ∧ t.cores = State.reset.cores ∧ t.doc = State.reset.doc ∧ t.fab = State.reset.fab ∧
      t.out = s.out ∧ t.pending = s.pending ∧ t.ctl.st = .boot ∧ t.ctl.power = .on ∧
      t.sec.flash.dir0 = s.sec.flash.dir0 ∧ t.sec.flash.dir1 = s.sec.flash.dir1 ∧ t.sec.flash.slots = s.sec.flash.slots ∧
      (if perst = true then t.ctl.strapPos = s.ctl.strapPos ∧ t.ctl.strapSmba = s.ctl.strapSmba ∧
          t.ctl.thermTrip = s.ctl.thermTrip
       else t.ctl.strapPos = pos ∧ t.ctl.strapSmba = smba ∧ t.ctl.thermTrip = false) ∧
      (if x = .validMatch ∧ s.sec.flash.rpmcKey = true ∧ tags = true then
          t.sec.st = .boot ∧ t.sec.seeded = true ∧ t.ctl.bootStep = 2 ∧ t.sec.flash = s.sec.flash
       else if x = .blank ∧ s.sec.flash.rpmcKey = false then
          t.sec.st = .boot ∧ t.sec.seeded = true ∧ t.ctl.bootStep = 2 ∧ t.sec.flash.rpmcKey = true
       else t.sec.st = .fail ∧ t.sec.seeded = false ∧ t.sec.flash = s.sec.flash ∧
          t.sec.cause = (if x = .validMatch ∨ x = .blank then 3 else 2))) ∧
  (∀ (x : HelperState) (tags : Bool) (pos : BitVec 7) (smba : BitVec 3) (s : State), s.ctl.power = .held →
    exec (.deviceReset true x tags pos smba) s = .next s) ∧
  (∀ s : State, ∃ t, exec .pwrgdFall s = .next t ∧ t.ctl.power = .held ∧ t.ctl.thermTrip = false ∧ t.sec.flash = s.sec.flash ∧
    t.mem = State.reset.mem ∧ t.out = s.out ∧ t.alive = false) ∧
  (∀ s : State, s.ctl.power = .on →
    ∃ t, exec .sysclkLoss s = .next t ∧ t.alive = false ∧ t.ctl.power = .stopped ∧ t.out = s.out ++ [.pldmClock false] ∧
      t.mem = s.mem ∧ t.sec.events = s.sec.events + 1) ∧
  (∀ s : State, s.alive = true →
    ∃ t, exec .brlclkLoss s = .next t ∧ .pldmClock true ∈ t.out ∧ t.sec.events = s.sec.events + 1 ∧
      (∀ p, p < 32 → (t.port p).st = (if (s.port p).st = .disabled then .disabled else .down))) ∧
  (∀ (w r : Nat) (f : Bool) (s : State), s.ctl.power = .on →
    exec (.pcieLinkTrained w r f) s = .next (if (w = 4 ∨ w = 8 ∨ w = 16) ∧ 1 ≤ r ∧ r ≤ 7 ∧ (f = true → 6 ≤ r)
      then { s with hif := { s.hif with linkWidth := w, linkRate := r, linkFlit := f } } else s))

/-- R432, R433, R472, R478, R482: the image of the ACTIVE slot starts where its checks pass and no trial stands; a slot on its
first trial starts with TRIES set in the other directory copy; a slot whose trial was spent is left for the other one, which
becomes ACTIVE; the other slot starts where the chosen one fails, and with neither the device is in SEC_FAIL with cause 1;
training leaves every channel at zero and the device in self-test, or in HOLD with cause 5 where a plinth is short;
self-test ends in HOLD. With no valid directory copy copy 0 is in use, and a slot started for another's failure is not on
trial, by the model's choice (log 37); HCAUSE 4 stands (log 32). -/
def Obligations.StartUp : Prop :=
  (∀ (a b : ImageInfo) (s : State), s.ctl.power = .on → s.sec.st = .boot → s.sec.seeded = true →
    s.sec.flash.dir.trial = false → s.imageOk (if s.sec.flash.dir.active then b else a) = true →
    ∃ t, exec (.bootImageVerified a b) s = .next t ∧ t.sec.st = .run ∧ t.ctl.st = .train ∧ t.ctl.bootStep = 3 ∧
      t.sec.slot = s.sec.flash.dir.active ∧ t.sec.trial = false ∧
      t.sec.image = some (if s.sec.flash.dir.active then b else a) ∧ t.sec.flash = s.sec.flash) ∧
  (∀ (a b : ImageInfo) (s : State), s.ctl.power = .on → s.sec.st = .boot → s.sec.seeded = true →
    s.sec.flash.dir.trial = true → s.sec.flash.dir.tries = false → s.sec.flash.dir.seq.toNat + 1 < 2 ^ 32 →
    s.imageOk (if s.sec.flash.dir.active then b else a) = true →
    ∃ t, exec (.bootImageVerified a b) s = .next t ∧ t.sec.st = .run ∧ t.sec.slot = s.sec.flash.dir.active ∧ t.sec.trial = true ∧
      t.sec.flash.dir = { s.sec.flash.dir with valid := true, seq := s.sec.flash.dir.seq + 1, tries := true }) ∧
  (∀ (a b : ImageInfo) (s : State), s.ctl.power = .on → s.sec.st = .boot → s.sec.seeded = true →
    s.sec.flash.dir.trial = true → s.sec.flash.dir.tries = true → s.sec.flash.dir.seq.toNat + 1 < 2 ^ 32 →
    s.imageOk (if s.sec.flash.dir.active then a else b) = true →
    ∃ t, exec (.bootImageVerified a b) s = .next t ∧ t.sec.st = .run ∧ t.sec.slot = !s.sec.flash.dir.active ∧ t.sec.trial = false ∧
      t.sec.flash.dir = { s.sec.flash.dir with
        valid := true, seq := s.sec.flash.dir.seq + 1, active := !s.sec.flash.dir.active, trial := false, tries := false }) ∧
  (∀ (a b : ImageInfo) (s : State), s.ctl.power = .on → s.sec.st = .boot → s.sec.seeded = true →
    s.sec.flash.dir.trial = false → s.imageOk (if s.sec.flash.dir.active then b else a) = false →
    ∃ t, exec (.bootImageVerified a b) s = .next t ∧ t.sec.flash = s.sec.flash ∧
      (if s.imageOk (if s.sec.flash.dir.active then a else b) = true then
        t.sec.st = .run ∧ t.sec.slot = !s.sec.flash.dir.active ∧ t.sec.trial = false
       else t.sec.st = .fail ∧ t.sec.cause = 1 ∧ t.ctl = s.ctl)) ∧
  (∀ (l : List PlinthTraining) (s : State), s.alive = true → s.ctl.st = .train →
    ∃ t, exec (.channelTrainingDone l) s = .next t ∧ t.ctl.bootStep = 4 ∧
      (∀ a, a < chanBase 2112 → Memory.get t.mem a = 0) ∧
      (if t.ctl.short = 0 then t.ctl.st = .test
       else t.ctl.st = .hold ∧ t.ctl.hcause = if s.ctl.hcause = 4 then 4 else 5)) ∧
  (∀ (l : List SelfTestFail) (ax : Bool) (s : State), s.alive = true → s.ctl.st = .test →
    ∃ t, exec (.selfTestDone l ax) s = .next t ∧ t.ctl.st = .hold ∧ t.ctl.bootStep = 5 ∧ t.ctl.hcause = s.ctl.hcause ∧
      t.annex.fail = (ax || s.annex.fail) ∧
      (∀ f, l = [f] → s.spareCores (f.core.val / 256) = [] → (t.core f.core.val).noSpare = true)) ∧
  (∀ (f : SelfTestFail) (s : State), s.alive = true → s.ctl.st = .test → s.spareCores (f.core.val / 256) ≠ [] →
    ∃ t, exec (.selfTestDone [f] false) s = .next t ∧ t.ctl.cores = s.ctl.cores + 1 ∧
      ∃ x ∈ s.spareCores (f.core.val / 256),
        t.core f.core.val = { s.core f.core.val with phys := x })

/-- R263, R264, R444, R452: a Function Level Reset of a VF moves a locked TDI to ERROR, discards the VF's descriptors in flight and
makes its streams RELEASING and its handles DRAINING under a new generation (said here where no descriptor of another function
stands fetched and not accepted); it ends, with the gallery's counters cleared,
once every stream, handle and window of the gallery is FREE; a reset of the PF or a lost link does so for every gallery and
holds a running device with cause 3. That the PF's reset enters HOLD in the same step is the model's reading (log 36). -/
def Obligations.FunctionResets : Prop :=
  (∀ (g : GalNo) (s : State), s.barUp = true → g.val ≠ 0 →
    ∃ t, exec (.vfFunctionLevelReset g) s = .next t ∧ g.val ∈ t.hif.inReset ∧
      t.tdi g.val = (if s.tdi g.val = .locked ∨ s.tdi g.val = .run then .error else s.tdi g.val) ∧
      (∀ n, n ≠ g.val → t.tdi n = s.tdi n) ∧
      ((∀ p, s.hif.poll = some p → ∀ e ∈ p.fetched, e.ring.val / 64 = g.val) →
        (∀ o ∈ t.hif.inflight, o.ringGal ≠ some g.val) ∧ (∀ o ∈ t.hif.inflight, o ∈ s.hif.inflight) ∧
        (∀ k, (s.ctx k).gal = g.val → (s.ctx k).st ≠ .free → (t.ctx k).st = .releasing) ∧
        (Tbl.sorted s.doc.ctxs = true → ∀ k, (s.ctx k).gal ≠ g.val → t.ctx k = s.ctx k) ∧
        (∀ c e, ((s.core c).handle e).gal = g.val → ((s.core c).handle e).st = .bound →
          ((t.core c).handle e).st = .draining ∧ ((t.core c).handle e).gen = ((s.core c).handle e).gen + 1))) ∧
  (∀ (g : GalNo) (s : State), s.alive = true → g.val ∈ s.hif.inReset → s.galleryFree g.val = true →
    ∃ t, exec (.vfResetComplete g) s = .next t ∧ g.val ∉ t.hif.inReset ∧
      (∀ n, n ≠ g.val → (n ∈ t.hif.inReset ↔ n ∈ s.hif.inReset)) ∧
      (∀ c, c.scope = 4 → t.counter c g.val 0 = 0) ∧ t.mem = s.mem ∧ t.regs = s.regs) ∧
  (∀ s : State, s.barUp = true → s.running = true →
    ∃ t, exec .pfResetOrLinkLoss s = .next t ∧ t.ctl.st = .hold ∧ t.ctl.hcause = 3 ∧ t.hif.poll = none ∧ t.mem = s.mem ∧
      (∀ g, g < 64 → g ∈ t.hif.inReset) ∧ (∀ k, (s.ctx k).gal < 64 → (s.ctx k).st ≠ .free → (t.ctx k).st = .releasing))

/-- R313, R315, R522: a plinth's sample is its temperature now and counts for its hottest; a limit of R315 that is reached is
announced and, in RUN, holds the device with cause 4; a limit of R522 sets the thermal trip. A limit is reached from below
(log 34), and outside RUN it sets HCAUSE alone (log 32), by the model's reading. -/
def Obligations.SamplesTaken : Prop :=
  ∀ (l : List ThermSample) (s : State), s.alive = true →
    ∃ t, exec (.thermalSample l) s = .next t ∧
      (∀ p x, p < 8 → l[p]? = some x → (t.plinth p).junction = x.junction ∧ (t.plinth p).dram = x.dram ∧
        (t.plinth p).jMax = max (s.plinth p).jMax x.junction ∧ (t.plinth p).dMax = max (s.plinth p).dMax x.dram) ∧
      (∀ p x, p < 8 → l[p]? = some x → (420 ≤ x.junction ∨ 400 ≤ x.dram) → (s.plinth p).atLimit = false →
        .pldmThermalHold p ∈ t.out ∧ t.ctl.hcause = 4 ∧ (s.running = true → t.ctl.st = .hold)) ∧
      (∀ p x, p < 8 → l[p]? = some x → (440 ≤ x.junction ∨ 420 ≤ x.dram) → t.ctl.thermTrip = true) ∧
      ((∀ x ∈ l, x.junction < 420 ∧ x.dram < 400) → t.ctl = s.ctl ∧ t.mem = s.mem ∧ t.out = s.out)

/-! ### Management and attestation -/

/-- R436, R526: sensors 1 to 8 read the plinths' junction temperature and 9 to 16 their stack temperature; sensor 0 takes one
waiting event; a firmware update starts one session at a time and none on trial; its data goes into the slot that is not
ACTIVE; an image that passes R432 becomes ACTIVE on trial, another changes nothing. The codes of the answers are the model's
(log 18). Sensor 0 and the session's end are the model's choices (log 21). -/
def Obligations.ManagementServes : Prop :=
  (∀ (tr : Transport) (n : Nat) (s : State), tr ≠ .doe → s.transportUp tr = true →
    ∃ t, exec (.mctpMessage tr n) s = .next t ∧
      (n = 0 → t.sec.events = s.sec.events - 1 ∧ t.out = s.out ++ [.answer tr pldmEvent (toLE 4 s.sec.events)]) ∧
      (∀ p, p < 8 → n = p + 1 → t.out = s.out ++ [.answer tr pldmReading (pldmOk :: toLE 4 (s.plinth p).tPmax)]) ∧
      (∀ p, p < 8 → n = p + 9 → t.out = s.out ++ [.answer tr pldmReading (pldmOk :: toLE 4 (s.plinth p).tDmax)]) ∧
      (17 ≤ n → n ≤ 33 → ∃ v, t.out = s.out ++ [.answer tr pldmReading (pldmOk :: toLE 4 v)]) ∧
      (33 < n → t = { s with out := s.out ++ [.answer tr pldmReading [pldmError]] }) ∧
      (n ≠ 0 → t.sec = s.sec)) ∧
  (∀ (tr : Transport) (n : Nat) (s : State), tr ≠ .doe → s.transportUp tr = true → s.ctl.power = .on →
    ∃ t, exec (.pldmFirmwareUpdate tr n none) s = .next t ∧
      (if s.sec.update = none ∧ s.sec.flash.dir.trial = false then
        t = { s with sec := { s.sec with update := some (n, tr) }, out := s.out ++ [.answer tr pldmRequest [pldmOk]] }
       else t = { s with out := s.out ++ [.answer tr pldmRequest [pldmBusy]] })) ∧
  (∀ (tr : Transport) (n o : Nat) (b : Bytes) (s : State), tr ≠ .doe → s.transportUp tr = true → s.ctl.power = .on →
    s.sec.update = some (n, tr) → o + b.length ≤ 2 ^ 24 →
    ∃ t, exec (.pldmFirmwareUpdate tr n (some (o, b))) s = .next t ∧ t.sec.update = s.sec.update ∧
      t.sec.flash.dir = s.sec.flash.dir ∧ t.out = s.out ++ [.answer tr pldmData [pldmOk]] ∧
      (∀ i, i < b.length → Memory.get t.sec.flash.slots (slotBase (!s.sec.flash.dir.active) + o + i) = b.getD i 0) ∧
      (∀ a, (a < slotBase (!s.sec.flash.dir.active) + o ∨ slotBase (!s.sec.flash.dir.active) + o + b.length ≤ a) →
        Memory.get t.sec.flash.slots a = Memory.get s.sec.flash.slots a)) ∧
  (∀ (tr : Transport) (n : Nat) (i : ImageInfo) (s : State), s.sec.update = some (n, tr) → s.transportUp tr = true →
    s.ctl.power = .on → s.sec.flash.dir.seq.toNat + 1 < 2 ^ 32 →
    ∃ t, exec (.activateFirmware n i) s = .next t ∧
      (if s.imageOk i = true then
        t.sec.update = none ∧ t.out = s.out ++ [.answer tr pldmActivate [pldmOk]] ∧
        t.sec.flash.dir = { s.sec.flash.dir with
          valid := true, seq := s.sec.flash.dir.seq + 1, active := !s.sec.flash.dir.active, trial := true, tries := false }
       else t = { s with out := s.out ++ [.answer tr pldmActivate [pldmError]] }))

/-- R433, R439, R440: GET_VERSION answers versions 1.2 and 1.3 and begins the connection, in SEC_FAIL as well; capabilities and
algorithms follow in that order, and a request that comes too early is turned away; digests, a part of a chain, a challenge
and the measurements answer what the manual fixes of them, each measurement block what R440 says it holds. The codes of the
answers and the order of the connection are the model's (log 18). So are the layouts of measurements 3 and 5 (log 19, log
20). -/
def Obligations.AttestationServes : Prop :=
  (∀ (tr : Transport) (s : State), s.ctl.power = .on → s.transportUp tr = true → (s.spdmUp tr = true ∨ s.sec.st = .fail) →
    ∃ t more, exec (.getVersion tr) s = .next t ∧ t.out = s.out ++ [.answer tr rqVersion (0x12 :: 0x13 :: more)] ∧
      t.spdm tr = 1 ∧ (∀ x, x ≠ tr → t.spdm x = s.spdm x)) ∧
  (∀ (tr : Transport) (s : State), s.spdmUp tr = true →
    (1 ≤ s.spdm tr → ∃ t more, exec (.getCapabilities tr) s = .next t ∧ t.spdm tr = 2 ∧
      t.out = s.out ++ [.answer tr rqCapabilities more] ∧ (∀ x, x ≠ tr → t.spdm x = s.spdm x)) ∧
    (2 ≤ s.spdm tr → ∃ t more, exec (.negotiateAlgorithms tr) s = .next t ∧ t.spdm tr = 3 ∧
      t.out = s.out ++ [.answer tr rqAlgorithms more] ∧ (∀ x, x ≠ tr → t.spdm x = s.spdm x))) ∧
  (∀ (tr : Transport) (c : Instr) (n : Nat) (k : Fin 8) (o l i : Nat) (b : Bytes) (s : State), s.spdmUp tr = true → s.spdm tr < n →
    (c, n) ∈ [(Instr.getCapabilities tr, 1), (.negotiateAlgorithms tr, 2), (.getDigests tr, 3), (.getCertificate tr k o l, 3),
      (.challenge tr k b, 3), (.getMeasurements tr i, 3), (.keyExchange tr b, 3)] →
    exec c s = .next { s with out := s.out ++ [.answer tr rqError [4]] }) ∧
  (∀ (tr : Transport) (s : State), s.spdmUp tr = true → 3 ≤ s.spdm tr →
    ∃ more, exec (.getDigests tr) s = .next { s with out := s.out ++ [.answer tr rqDigests
      (digestBytes (Config.sha3 Config.vendorChain) ++
        (if s.sec.flash.cert1 = [] then [] else digestBytes (Config.sha3 s.sec.flash.cert1)) ++ more)] }) ∧
  (∀ (tr : Transport) (k : Fin 8) (o l : Nat) (b : Bytes) (s : State), s.spdmUp tr = true → 3 ≤ s.spdm tr →
    match s.chain k.val with
    | none => exec (.getCertificate tr k o l) s = .next { s with out := s.out ++ [.answer tr rqError [1]] } ∧
        exec (.challenge tr k b) s = .next { s with out := s.out ++ [.answer tr rqError [1]] }
    | some c => (∃ more, exec (.getCertificate tr k o l) s =
          .next { s with out := s.out ++ [.answer tr rqCertificate ((c.drop o).take l ++ more)] }) ∧
        (∃ more, exec (.challenge tr k b) s =
          .next { s with out := s.out ++ [.answer tr rqChallenge (digestBytes (Config.sha3 c) ++ more)] })) ∧
  (∀ (tr : Transport) (n : Nat) (s : State), s.spdmUp tr = true → 3 ≤ s.spdm tr →
    (n = 0 → ∃ more, exec (.getMeasurements tr n) s = .next { s with out := s.out ++ [.answer tr rqMeasurements (6 :: more)] }) ∧
    (1 ≤ n → n ≤ 6 → ∃ more, exec (.getMeasurements tr n) s =
      .next { s with out := s.out ++ [.answer tr rqMeasurements (s.measurement n ++ more)] }) ∧
    (n = 255 → ∃ more, exec (.getMeasurements tr n) s = .next { s with out := s.out ++ [.answer tr rqMeasurements
      (s.measurement 1 ++ s.measurement 2 ++ s.measurement 3 ++ s.measurement 4 ++ s.measurement 5 ++ s.measurement 6 ++ more)] }) ∧
    (6 < n → n ≠ 255 → exec (.getMeasurements tr n) s = .next { s with out := s.out ++ [.answer tr rqError [1]] })) ∧
  (∀ (s : State) (i : ImageInfo), s.sec.image = some i →
    s.measurement 1 = digestBytes Config.romDigest ∧ s.measurement 2 = digestBytes i.digest ∧
    s.measurement 4 = digestBytes (Config.sha3 (s.sec.measured.flatMap (fun w => toLE 4 w.toNat))) ∧
    (s.fab.carMap = none → s.measurement 6 = List.replicate 32 0) ∧
    (∀ m, s.fab.carMap = some m → s.measurement 6 = digestBytes (Config.sha3 m.image)))

/-! ### Sessions, locks and keys -/

/-- R439, R448, R449: a key exchange opens the lowest closed session, and none where all four are open; a verified FINISH secures
its session and issues its nonce, another closes it; over a session that is not secure nothing is done; a secure one counts its
key updates, stays open on a heartbeat and closes at its end; the owner chain of slot 1 is set over it alone; a debug token that
passes every check opens debug access and takes every locked TDI to ERROR, one that fails opens nothing, and the nonce is spent
either way; an uplink key serves receipt at once, and sending from its EFFECT beat, at least 16 beats ahead. The codes of the answers are the
model's (log 18), and so is the refusal of an EFFECT too near (log 24). -/
def Obligations.SessionsServe : Prop :=
  (∀ (tr : Transport) (b : Bytes) (s : State), s.spdmUp tr = true → 3 ≤ s.spdm tr →
    (∀ n, n < 4 → (s.session n).open_ = false → (∀ m, m < n → (s.session m).open_ = true) →
      ∃ t more, exec (.keyExchange tr b) s = .next t ∧ t.session n = { open_ := true, transport := tr } ∧
        (∀ m, m ≠ n → t.session m = s.session m) ∧ t.out = s.out ++ [.answer tr rqKeyExchange (toLE 1 n ++ more)]) ∧
    ((∀ n, n < 4 → (s.session n).open_ = true) →
      exec (.keyExchange tr b) s = .next { s with out := s.out ++ [.answer tr rqError [5]] })) ∧
  (∀ (n : Fin 4) (s : State), s.sessionUp n.val = true → (s.session n.val).secure = false →
    (∃ t x more, exec (.finish n true) s = .next t ∧
      t.session n.val = { s.session n.val with secure := true, nonce := some x } ∧ x.length = 32 ∧
      (∀ m, m ≠ n.val → t.session m = s.session m) ∧
      t.out = s.out ++ [.answer (s.session n.val).transport rqFinish (x ++ more)]) ∧
    (∃ t, exec (.finish n false) s = .next t ∧ t.session n.val = {} ∧ (∀ m, m ≠ n.val → t.session m = s.session m) ∧
      t.out = s.out ++ [.answer (s.session n.val).transport rqError [6]])) ∧
  (∀ (n : Fin 4) (k : Fin 8) (r : Fin 4) (x y : Bool) (p : Fin 8) (key : BitVec 256) (e : Option (BitVec 64)) (b : Bytes)
      (i : Fin 5) (vs : List GalNo) (c : Instr) (s : State), s.sessionSecure n.val = false →
    c ∈ [Instr.keyUpdate n, .heartbeat n, .endSession n, .setCertificate n k b, .debugUnlock n b r x y,
      .macsecKeyInstall n p x key e, .ideKm n i key vs] → exec c s = .next s) ∧
  (∀ (n : Fin 4) (s : State), s.sessionSecure n.val = true →
    (∃ t more, exec (.keyUpdate n) s = .next t ∧
      t.session n.val = { s.session n.val with updates := (s.session n.val).updates + 1 } ∧
      (∀ m, m ≠ n.val → t.session m = s.session m) ∧
      t.out = s.out ++ [.answer (s.session n.val).transport rqKeyUpdate more]) ∧
    (∃ more, exec (.heartbeat n) s = .next { s with
      out := s.out ++ [.answer (s.session n.val).transport rqHeartbeat more] }) ∧
    (∃ t more, exec (.endSession n) s = .next t ∧ t.session n.val = {} ∧ (∀ m, m ≠ n.val → t.session m = s.session m) ∧
      t.out = s.out ++ [.answer (s.session n.val).transport rqEndSession more])) ∧
  (∀ (n : Fin 4) (k : Fin 8) (b : Bytes) (s : State), s.sessionSecure n.val = true →
    ∃ t, exec (.setCertificate n k b) s = .next t ∧
      t.sec.flash.cert1 = (if k.val = 1 then b else s.sec.flash.cert1) ∧ t.sec.sessions = s.sec.sessions) ∧
  (∀ (n : Fin 4) (x : Bytes) (r : Fin 4) (a b : Bool) (s : State), s.sessionSecure n.val = true →
    ∃ t, exec (.debugUnlock n x r a b) s = .next t ∧ t.session n.val = { s.session n.val with nonce := none } ∧
      (if (s.session n.val).nonce = some x ∧ a = true ∧ b = true ∧ s.rpmc (1 + r.val) = 0 then
        t.sec.debug = true ∧ ∀ g, g < 64 → t.tdi g = (if s.tdi g = .locked ∨ s.tdi g = .run then .error else s.tdi g)
       else t.sec.debug = s.sec.debug ∧ (∀ g, t.tdi g = s.tdi g) ∧ t.hif = s.hif)) ∧
  (∀ (n : Fin 4) (p : Fin 8) (x : Bool) (key : BitVec 256) (s : State), s.sessionSecure n.val = true →
    (∃ t, exec (.macsecKeyInstall n p x key none) s = .next t ∧
      Tbl.find t.fab.macsec (p.val * 2 + if x then 1 else 0) = some key ∧ t.fab.macSend = s.fab.macSend ∧
      (∀ k, k ≠ p.val * 2 + (if x then 1 else 0) → Tbl.find t.fab.macsec k = Tbl.find s.fab.macsec k)) ∧
    (∀ e : BitVec 64, e.toNat < s.beat + 16 →
      ∃ t, exec (.macsecKeyInstall n p x key (some e)) s = .next t ∧ t.fab = s.fab) ∧
    (∀ e : BitVec 64, s.beat + 16 ≤ e.toNat →
      ∃ t, exec (.macsecKeyInstall n p x key (some e)) s = .next t ∧
        Tbl.find t.fab.macsec (p.val * 2 + if x then 1 else 0) = some key ∧ t.fab.macSend = s.fab.macSend ∧
        t.fab.serial = (s.fab.serial + 1) % 65536 ∧
        t.fab.pendNotices = s.fab.pendNotices ++
          [{ kind := noteKey, origin := s.devId, effect := e.toNat, port := p.val + 8 * (if x then 1 else 0), planes := 0 }]))

/-- R441, R442, R444: a stream key is installed with the VFs bound to it; a stream that fails its integrity is insecure, and
every locked VF bound to it is in ERROR; an interface goes from CONFIG_UNLOCKED to CONFIG_LOCKED, from there to RUN, and
from any state back, each for a VF over a secure session of the PF's DOE, and a request for the PF or from another state
changes no TDI. The codes of the answers are the model's (log 18). That STOP is taken from every state is the model's
reading (log 23). -/
def Obligations.InterfacesLock : Prop :=
  (∀ (n : Fin 4) (i : Fin 5) (key : BitVec 256) (vs : List GalNo) (s : State), s.sessionSecure n.val = true →
    ∃ t, exec (.ideKm n i key vs) s = .next t ∧
      Tbl.look t.sec.ides i.val {} = { keyed := true, key := key, vfs := vs.map (fun v => v.val) } ∧
      (∀ k, k ≠ i.val → Tbl.look t.sec.ides k {} = Tbl.look s.sec.ides k {}) ∧ t.sec.tdis = s.sec.tdis) ∧
  (∀ (i : Fin 5) (s : State), s.barUp = true → (Tbl.look s.sec.ides i.val {}).keyed = true →
    (Tbl.look s.sec.ides i.val {}).insecure = false →
    ∃ t, exec (.ideIntegrityFailure i) s = .next t ∧
      Tbl.look t.sec.ides i.val {} = { Tbl.look s.sec.ides i.val {} with insecure := true } ∧
      (∀ g, t.tdi g = (if g ∈ (Tbl.look s.sec.ides i.val {}).vfs ∧ (s.tdi g = .locked ∨ s.tdi g = .run) then .error
        else s.tdi g)) ∧
      (∀ g ∈ (Tbl.look s.sec.ides i.val {}).vfs, (s.tdi g = .locked ∨ s.tdi g = .run) → g ∈ t.hif.inReset)) ∧
  (∀ (g : GalNo) (s : State), s.tdispUp = true → g.val ≠ 0 →
    ∃ t u v, exec (.lockInterface g) s = .next t ∧ exec (.startInterface g) s = .next u ∧ exec (.stopInterface g) s = .next v ∧
      t.tdi g.val = (if s.tdi g.val = .unlocked then .locked else s.tdi g.val) ∧
      u.tdi g.val = (if s.tdi g.val = .locked then .run else s.tdi g.val) ∧ v.tdi g.val = .unlocked ∧
      (∀ k, k ≠ g.val → t.tdi k = s.tdi k ∧ u.tdi k = s.tdi k ∧ v.tdi k = s.tdi k)) ∧
  (∀ (c : Instr) (s : State), s.tdispUp = true → c ∈ [Instr.lockInterface 0, .startInterface 0, .stopInterface 0] →
    exec c s = .next { s with out := s.out ++ [.answer .doe rqError [1]] }) ∧
  (∀ (g : GalNo) (c : Instr) (s : State), s.tdispUp = false →
    c ∈ [Instr.lockInterface g, .startInterface g, .stopInterface g] → exec c s = .next s)

/-! ### Reads of registers and of the closed aperture -/

/-- R2, R7 and R490: GLB_ID at offset 0 reads 0x0007_0100; an offset that no register occupies reads zero and a write of it has no
effect, in PF BAR0 and in a VF window; GLB_STATE.READY reads 1 exactly while the state is RUN and the beat unit is ROOT or
LOCKED. -/
def Obligations.RegisterReads : Prop :=
  (∀ s : State, s.barServed 0 = true →
    ∃ t, exec (.counterPairRead 0 0 4) s = .next t ∧ t.out = s.out ++ [.readData 0 (toLE 4 0x00070100) false]) ∧
  (∀ (off : Nat) (w : Word) (s : State), s.barUp = true → off % 4 = 0 → regAt off = none → msixOff 0 off = none →
    (∃ t, exec (.counterPairRead 0 off 4) s = .next t ∧ t.out = s.out ++ [.readData 0 [0, 0, 0, 0] false] ∧ t.ctl = s.ctl) ∧
    exec (.registerWrite 0 off (toLE 4 w.toNat) true) s = .next s) ∧
  (∀ (g : GalNo) (off : Nat) (w : Word) (s : State), s.barUp = true → g.val ≠ 0 → off % 4 = 0 → vfReg g.val off = none →
    off ∉ [0x04, 0x08, 0x40000, 0x40004, 0x40008] → msixOff g.val off = none →
    (∃ t, exec (.counterPairRead g off 4) s = .next t ∧ t.out = s.out ++ [.readData g.val [0, 0, 0, 0] false] ∧ t.ctl = s.ctl) ∧
    exec (.registerWrite g off (toLE 4 w.toNat) true) s = .next s) ∧
  (∀ s : State, s.barUp = true →
    ∃ t v, exec (.counterPairRead 0 (regOff .glbState []) 4) s = .next t ∧ t.out = s.out ++ [.readData 0 (toLE 4 v) false] ∧
      (bit v 8 = true ↔ s.ctl.st = .run ∧ (s.fab.beat.st = .root ∨ s.fab.beat.st = .locked)))

/-- R232: while debug access is not enabled a read of BAR2 answers zeros, a write has no effect, and each access counts as
HIF_DBG_DENY of a gallery. -/
def Obligations.DebugClosed : Prop :=
  ∀ (o n : Nat) (b : Option Bytes) (s : State), s.barUp = true → s.debugOpen = false →
    ∃ t g, exec (.debugApertureAccess o n b) s = .next t ∧
      t.counter .hifDbgDeny g 0 = min (s.counter .hifDbgDeny g 0 + 1) (2 ^ 64 - 1) ∧
      t = { s with
        cat := { s.cat with counters := t.cat.counters }
        out := s.out ++ (match b with | none => [.readData 0 (List.replicate n 0) false] | some _ => []) }
end

