-- ==== Sys2Proof/Laws/Tbl.lean ====
section
/-! SUPPORT. Reading a table after a write, and the canonical form a write keeps. -/

namespace Sys2Proof.Machine

variable {α : Type}

/-! ### Reading after a write -/

theorem Tbl.find_insert_self (t : Tbl α) (k : Nat) (v : α) : (t.insert k v).find k = some v := by
  induction t with
  | nil => simp [Tbl.insert, Tbl.find]
  | cons e t ih =>
    obtain ⟨k', v'⟩ := e
    simp only [Tbl.insert]
    split
    · simp [Tbl.find]
    · split
      · simp [Tbl.find]
      · rename_i _ h
        simp [Tbl.find, Ne.symm h, ih]

theorem Tbl.find_insert_ne (t : Tbl α) {k j : Nat} (v : α) (h : j ≠ k) : (t.insert k v).find j = t.find j := by
  induction t with
  | nil => simp [Tbl.insert, Tbl.find, Ne.symm h]
  | cons e t ih =>
    obtain ⟨k', v'⟩ := e
    simp only [Tbl.insert]
    split
    · simp [Tbl.find, Ne.symm h]
    · split
      · rename_i _ e; subst e; simp [Tbl.find, Ne.symm h]
      · simp [Tbl.find, ih]

theorem Tbl.find_erase_self (t : Tbl α) (k : Nat) : (t.erase k).find k = none := by
  induction t with
  | nil => rfl
  | cons e t ih =>
    obtain ⟨k', v'⟩ := e
    simp only [Tbl.erase, List.filter, ne_eq, decide_not] at ih ⊢
    by_cases h : k' = k <;> simp [h, Tbl.find, ih]

theorem Tbl.find_erase_ne (t : Tbl α) {k j : Nat} (h : j ≠ k) : (t.erase k).find j = t.find j := by
  induction t with
  | nil => rfl
  | cons e t ih =>
    obtain ⟨k', v'⟩ := e
    simp only [Tbl.erase, List.filter, ne_eq, decide_not] at ih ⊢
    by_cases h' : k' = k
    · subst h'; simp [Tbl.find, Ne.symm h, ih]
    · simp [h', Tbl.find, ih]

@[simp] theorem Tbl.look_insert_self (t : Tbl α) (k : Nat) (v d : α) : (t.insert k v).look k d = v := by
  simp [Tbl.look, Tbl.find_insert_self]

theorem Tbl.look_insert_ne (t : Tbl α) {k j : Nat} (v d : α) (h : j ≠ k) : (t.insert k v).look j d = t.look j d := by
  simp [Tbl.look, Tbl.find_insert_ne t v h]

/-- A key that was put reads back as written, in any table. -/
@[simp] theorem Tbl.look_put_self [DecidableEq α] (t : Tbl α) (k : Nat) (v d : α) : (t.put k v d).look k d = v := by
  unfold Tbl.put
  split
  · rename_i h; simp [Tbl.look, Tbl.find_erase_self, h]
  · simp

/-- Every other key reads as before. -/
theorem Tbl.look_put_ne [DecidableEq α] (t : Tbl α) {k j : Nat} (v d e : α) (h : j ≠ k) :
    (t.put k v d).look j e = t.look j e := by
  unfold Tbl.put
  split
  · simp [Tbl.look, Tbl.find_erase_ne t h]
  · exact Tbl.look_insert_ne t v e h

/-! ### The canonical form -/

theorem Tbl.above_mono (t : Tbl α) {m n : Nat} (h : m ≤ n) (ha : t.above n = true) : t.above m = true := by
  cases t with
  | nil => rfl
  | cons e t => simp only [Tbl.above, Bool.and_eq_true, decide_eq_true_eq] at ha ⊢; exact ⟨by omega, ha.2⟩

theorem Tbl.above_of_mem (t : Tbl α) {n : Nat} (ha : t.above n = true) : ∀ e ∈ t, n < e.1 := by
  induction t generalizing n with
  | nil => simp
  | cons e t ih =>
    obtain ⟨k, v⟩ := e
    simp only [Tbl.above, Bool.and_eq_true, decide_eq_true_eq] at ha
    intro e he
    rcases List.mem_cons.mp he with rfl | h
    · exact ha.1
    · have := ih ha.2 e h; omega

theorem Tbl.above_filter (t : Tbl α) (p : Nat × α → Bool) {n : Nat} (ha : t.above n = true) :
    Tbl.above (t.filter p) n = true := by
  induction t generalizing n with
  | nil => rfl
  | cons e t ih =>
    obtain ⟨k, v⟩ := e
    simp only [Tbl.above, Bool.and_eq_true, decide_eq_true_eq] at ha
    simp only [List.filter]
    split
    · simp only [Tbl.above, Bool.and_eq_true, decide_eq_true_eq]; exact ⟨ha.1, ih ha.2⟩
    · exact Tbl.above_mono _ (Nat.le_of_lt ha.1) (ih ha.2)

theorem Tbl.sorted_of_above (t : Tbl α) {n : Nat} (ha : t.above n = true) : t.sorted = true := by
  cases t with
  | nil => rfl
  | cons e t => simp only [Tbl.above, Bool.and_eq_true] at ha; exact ha.2

/-- Dropping entries keeps a table sorted. -/
theorem Tbl.sorted_filter (t : Tbl α) (p : Nat × α → Bool) (h : t.sorted = true) : Tbl.sorted (t.filter p) = true := by
  induction t with
  | nil => rfl
  | cons e t ih =>
    obtain ⟨k, v⟩ := e
    simp only [Tbl.sorted] at h
    simp only [List.filter]
    split
    · exact Tbl.above_filter t p h
    · exact ih (Tbl.sorted_of_above t h)

theorem Tbl.above_insert (t : Tbl α) (k : Nat) (v : α) {n : Nat} (hn : n < k) (ha : t.above n = true) :
    (t.insert k v).above n = true := by
  induction t generalizing n with
  | nil => simp [Tbl.insert, Tbl.above, hn]
  | cons e t ih =>
    obtain ⟨k', v'⟩ := e
    simp only [Tbl.above, Bool.and_eq_true, decide_eq_true_eq] at ha
    simp only [Tbl.insert]
    split
    · rename_i h; simp [Tbl.above, hn, h, ha.2]
    · split
      · rename_i e; subst e; simp [Tbl.above, hn, ha.2]
      · rename_i h1 h2
        simp only [Tbl.above, Bool.and_eq_true, decide_eq_true_eq]
        exact ⟨ha.1, ih (by omega) ha.2⟩

/-- Writing a key keeps a table sorted. -/
theorem Tbl.sorted_insert (t : Tbl α) (k : Nat) (v : α) (h : t.sorted = true) : (t.insert k v).sorted = true := by
  cases t with
  | nil => simp [Tbl.insert, Tbl.sorted, Tbl.above]
  | cons e t =>
    obtain ⟨k', v'⟩ := e
    simp only [Tbl.sorted] at h
    simp only [Tbl.insert]
    split
    · rename_i hk; simp [Tbl.sorted, Tbl.above, hk, h]
    · split
      · rename_i e; subst e; simpa [Tbl.sorted] using h
      · rename_i h1 h2; exact Tbl.above_insert t k v (by omega) h

theorem Tbl.mem_insert (t : Tbl α) (k : Nat) (v : α) : ∀ e ∈ t.insert k v, e = (k, v) ∨ e ∈ t := by
  induction t with
  | nil => intro e he; simp [Tbl.insert] at he; exact .inl he
  | cons x t ih =>
    obtain ⟨k', v'⟩ := x
    intro e he
    simp only [Tbl.insert] at he
    split at he
    · rcases List.mem_cons.mp he with h | h
      · exact .inl h
      · exact .inr h
    · split at he
      · rcases List.mem_cons.mp he with h | h
        · exact .inl h
        · exact .inr (List.mem_cons_of_mem _ h)
      · rcases List.mem_cons.mp he with h | h
        · exact .inr (h ▸ List.mem_cons_self ..)
        · rcases ih e h with h | h
          · exact .inl h
          · exact .inr (List.mem_cons_of_mem _ h)

/-- A write that names the unlisted value keeps the canonical form. -/
theorem Tbl.wf_put [DecidableEq α] (t : Tbl α) (k : Nat) (v : α) (d : Nat → α) (h : t.wf d = true) :
    (t.put k v (d k)).wf d = true := by
  simp only [Tbl.wf, Bool.and_eq_true, List.all_eq_true, decide_eq_true_eq] at h ⊢
  unfold Tbl.put
  split
  · exact ⟨Tbl.sorted_filter t _ h.1, fun e he => h.2 e (List.mem_filter.mp he).1⟩
  · rename_i hv
    refine ⟨Tbl.sorted_insert t k v h.1, fun e he => ?_⟩
    rcases Tbl.mem_insert t k v e he with rfl | he
    · exact hv
    · exact h.2 e he

/-- Dropping entries keeps the canonical form. -/
theorem Tbl.wf_filter [DecidableEq α] (t : Tbl α) (p : Nat × α → Bool) (d : Nat → α) (h : t.wf d = true) :
    Tbl.wf d (t.filter p) = true := by
  simp only [Tbl.wf, Bool.and_eq_true, List.all_eq_true, decide_eq_true_eq] at h ⊢
  exact ⟨Tbl.sorted_filter t p h.1, fun e he => h.2 e (List.mem_filter.mp he).1⟩

end Sys2Proof.Machine
end

