-- ==== Sys2Proof/Laws/Memory.lean ====
section
/-! SUPPORT. The laws of the byte memory: every operation keeps its canonical form, a write is read back, and no other byte
changes. -/

namespace Sys2Proof.Machine

/-! ### The canonical form -/

/-- A table rises strictly iff its keys do pairwise. -/
theorem Tbl.above_iff {α : Type} (t : Tbl α) (n : Nat) :
    Tbl.above t n = true ↔ (∀ e ∈ t, n < e.1) ∧ t.Pairwise (fun a b => a.1 < b.1) := by
  induction t generalizing n with
  | nil => simp [Tbl.above]
  | cons e t ih =>
    obtain ⟨k, v⟩ := e
    simp only [Tbl.above, Bool.and_eq_true, decide_eq_true_eq, ih, List.mem_cons, forall_eq_or_imp, List.pairwise_cons]
    constructor
    · rintro ⟨h1, h2, h3⟩
      exact ⟨⟨h1, fun e he => by have := h2 e he; omega⟩, h2, h3⟩
    · rintro ⟨⟨h1, h2⟩, h3, h4⟩; exact ⟨h1, h3, h4⟩

theorem Tbl.sorted_iff {α : Type} (t : Tbl α) : Tbl.sorted t = true ↔ t.Pairwise (fun a b => a.1 < b.1) := by
  cases t with
  | nil => simp [Tbl.sorted]
  | cons e t => obtain ⟨k, v⟩ := e; simp only [Tbl.sorted, Tbl.above_iff, List.pairwise_cons]

theorem Memory.wf_iff (m : Memory) :
    Memory.wf m = true ↔ m.Pairwise (fun a b => a.1 < b.1) ∧ ∀ e ∈ m, e.2 ≠ Memory.unlisted := by
  unfold Memory.wf Tbl.wf
  rw [Bool.and_eq_true, Tbl.sorted_iff, List.all_eq_true]
  simp only [decide_eq_true_eq]

theorem Memory.cells_mem (a : Nat) (b : Bytes) :
    ∀ e ∈ Memory.cells a b, a ≤ e.1 ∧ e.1 < a + b.length ∧ e.2 ≠ Memory.unlisted := by
  induction b generalizing a with
  | nil => intro e h; simp [Memory.cells] at h
  | cons x t ih =>
    intro e h
    unfold Memory.cells at h
    simp only [List.length_cons]
    split at h
    · obtain ⟨k1, k2, k3⟩ := ih (a + 1) e h
      exact ⟨by omega, by omega, k3⟩
    · rcases List.mem_cons.mp h with rfl | h
      · exact ⟨Nat.le_refl a, by omega, ‹_›⟩
      · obtain ⟨k1, k2, k3⟩ := ih (a + 1) e h
        exact ⟨by omega, by omega, k3⟩

theorem Memory.cells_pairwise (a : Nat) (b : Bytes) : (Memory.cells a b).Pairwise (fun a b => a.1 < b.1) := by
  induction b generalizing a with
  | nil => exact List.Pairwise.nil
  | cons x t ih =>
    unfold Memory.cells
    split
    · exact ih (a + 1)
    · refine List.pairwise_cons.mpr ⟨fun e h => ?_, ih (a + 1)⟩
      have := (Memory.cells_mem (a + 1) t e h).1
      show a < e.1; omega

/-- A write keeps the canonical form. -/
theorem Memory.store_wf {m : Memory} {a : Nat} {b : Bytes} (h : Memory.wf m = true) : Memory.wf (Memory.store m a b) = true := by
  rw [Memory.wf_iff] at h ⊢
  unfold Memory.store
  constructor
  · rw [List.pairwise_append, List.pairwise_append]
    refine ⟨⟨h.1.filter _, Memory.cells_pairwise a b, ?_⟩, h.1.filter _, ?_⟩
    · intro e he f hf
      have := (Memory.cells_mem a b f hf).1
      simp only [List.mem_filter, decide_eq_true_eq] at he
      omega
    · intro e he f hf
      simp only [List.mem_append, List.mem_filter, decide_eq_true_eq] at he hf
      rcases he with he | he
      · omega
      · have := (Memory.cells_mem a b e he).2.1; omega
  · intro e he
    simp only [List.mem_append, List.mem_filter] at he
    rcases he with (he | he) | he
    · exact h.2 e he.1
    · exact (Memory.cells_mem a b e he).2.2
    · exact h.2 e he.1

/-- Forgetting cells keeps the canonical form. -/
theorem Memory.filter_wf {m : Memory} {p : Host.Cell → Bool} (h : Memory.wf m = true) : Memory.wf (m.filter p) = true := by
  rw [Memory.wf_iff] at h ⊢
  exact ⟨h.1.filter _, fun e he => h.2 e (List.mem_filter.mp he).1⟩

/-- Merging a correction keeps the canonical form. -/
theorem mergeBurst_wf {m : Memory} {g : Nat} {e : List Nat} (h : Memory.wf m = true) : Memory.wf (mergeBurst m g e) = true :=
  Memory.store_wf h

/-- Writes that corrections bring keep the canonical form. -/
theorem Memory.fold_wf {β : Type} {l : List β} {f : Memory → β → Memory} {m : Memory} (h : Memory.wf m = true)
    (k : ∀ m x, Memory.wf m = true → Memory.wf (f m x) = true) : Memory.wf (l.foldl f m) = true := by
  induction l generalizing m with
  | nil => exact h
  | cons x t ih => exact ih (k m x h)

/-- A channel write keeps the canonical form. -/
theorem State.chanWrite_wf {s : State} {p a : Nat} {b : Bytes} (h : Memory.wf s.mem = true) :
    Memory.wf (s.chanWrite p a b).1.mem = true := by
  unfold State.chanWrite
  extract_lets g n
  split
  · exact h
  · refine Memory.store_wf (Memory.fold_wf h fun m k hm => ?_)
    split
    · exact hm
    · split
      · exact hm
      · exact Memory.store_wf hm

/-- A raw burst keeps the canonical form. -/
theorem State.burstRaw_wf {s : State} {p a : Nat} {l : List Nat} (h : Memory.wf s.mem = true) :
    Memory.wf (s.burstRaw p a l).mem = true := Memory.store_wf h

/-- An SRAM write keeps the canonical form. -/
theorem State.sramWrite_wf {s : State} {g : Nat} {b : Bytes} (h : Memory.wf s.mem = true) :
    Memory.wf (s.sramWrite g b).mem = true := Memory.store_wf h

/-! ### Reading back -/

theorem Tbl.find_append {α : Type} (t u : Tbl α) (k : Nat) : Tbl.find (t ++ u) k = (Tbl.find t k).or (Tbl.find u k) := by
  induction t with
  | nil => rfl
  | cons e t ih =>
    obtain ⟨j, v⟩ := e
    simp only [List.cons_append, Tbl.find]
    split
    · rfl
    · exact ih

theorem Tbl.find_none {α : Type} (t : Tbl α) (k : Nat) (h : ∀ e ∈ t, e.1 ≠ k) : Tbl.find t k = none := by
  induction t with
  | nil => rfl
  | cons e t ih =>
    obtain ⟨j, v⟩ := e
    simp only [Tbl.find]
    split
    · rename_i hk; exact absurd hk (by simpa using h (j, v) (List.mem_cons_self ..))
    · exact ih fun x hx => h x (List.mem_cons_of_mem _ hx)

theorem Tbl.find_filter {α : Type} (t : Tbl α) (p : Nat → Bool) (k : Nat) :
    Tbl.find (t.filter (fun e => p e.1)) k = if p k then Tbl.find t k else none := by
  induction t with
  | nil => simp [Tbl.find]
  | cons e t ih =>
    obtain ⟨j, v⟩ := e
    simp only [List.filter_cons]
    by_cases hj : p j = true
    · simp only [hj, if_true, Tbl.find, ih]
      split
      · rename_i h; subst h; simp [hj]
      · rfl
    · simp only [hj, Tbl.find]
      rw [if_neg (by simp), ih]
      by_cases hk : j = k
      · subst hk; simp [hj]
      · simp [hk]

theorem Memory.find_cells (a : Nat) (b : Bytes) (k : Nat) :
    Tbl.find (Memory.cells a b) k = if h : a ≤ k ∧ k < a + b.length then
      (if b[k - a]'(by omega) = Memory.unlisted then none else some (b[k - a]'(by omega))) else none := by
  induction b generalizing a with
  | nil => rw [dif_neg (by simp)]; rfl
  | cons x t ih =>
    unfold Memory.cells
    by_cases hk : k = a
    · subst hk
      rw [dif_pos (by simp)]
      simp only [Nat.sub_self, List.getElem_cons_zero]
      split
      · exact Tbl.find_none _ _ fun e he => by have := (Memory.cells_mem _ _ e he).1; omega
      · simp [Tbl.find]
    · have e1 : Tbl.find (if x = Memory.unlisted then Memory.cells (a + 1) t else (a, x) :: Memory.cells (a + 1) t) k =
          Tbl.find (Memory.cells (a + 1) t) k := by
        split
        · rfl
        · simp [Tbl.find, Ne.symm hk]
      rw [e1, ih]
      by_cases h : a ≤ k ∧ k < a + (x :: t).length
      · have h2 : a + 1 ≤ k ∧ k < a + 1 + t.length := by simp only [List.length_cons] at h; omega
        have e2 : k - a = (k - (a + 1)) + 1 := by omega
        rw [dif_pos h, dif_pos h2]
        simp only [e2, List.getElem_cons_succ]
      · rw [dif_neg h, dif_neg (by simp only [List.length_cons] at h; omega)]

/-- A byte after a write: what was written where the run covers it, else as before. -/
theorem Memory.get_store (m : Memory) (a : Nat) (b : Bytes) (k : Nat) :
    Memory.get (Memory.store m a b) k = if h : a ≤ k ∧ k < a + b.length then b[k - a]'(by omega) else Memory.get m k := by
  unfold Memory.get Tbl.look Memory.store
  rw [Tbl.find_append, Tbl.find_append, Tbl.find_filter m (fun j => decide (j < a)),
    Tbl.find_filter m (fun j => decide (a + b.length ≤ j)), Memory.find_cells]
  by_cases h1 : k < a
  · simp only [h1, decide_true, if_true]
    rw [dif_neg (by omega), dif_neg (by omega), if_neg (by simp; omega)]
    cases Tbl.find m k <;> rfl
  · by_cases h2 : k < a + b.length
    · rw [dif_pos ⟨by omega, h2⟩, dif_pos ⟨by omega, h2⟩]
      have e1 : decide (k < a) = false := by simpa using h1
      have e2 : decide (a + b.length ≤ k) = false := by simpa using h2
      rw [e1, e2]
      by_cases e : b[k - a]'(by omega) = Memory.unlisted
      · rw [if_pos e, e]; rfl
      · rw [if_neg e]; rfl
    · rw [dif_neg (by omega), dif_neg (by omega), if_neg (by simpa using h1), if_pos (by simpa using h2)]
      cases Tbl.find m k <;> rfl

/-- A byte the run covers reads as written. -/
theorem Memory.get_store_in {m : Memory} {a : Nat} {b : Bytes} {k : Nat} (h : k < b.length) :
    Memory.get (Memory.store m a b) (a + k) = b[k] := by
  rw [Memory.get_store, dif_pos (by omega)]
  simp

/-- A byte outside the run reads as before. -/
theorem Memory.get_store_out {m : Memory} {a : Nat} {b : Bytes} {k : Nat} (h : k < a ∨ a + b.length ≤ k) :
    Memory.get (Memory.store m a b) k = Memory.get m k := by
  rw [Memory.get_store, dif_neg (by omega)]

theorem Memory.walk_length (m : Memory) (a n : Nat) : (Memory.walk m a n).length = n := by
  induction n generalizing m a with
  | zero => unfold Memory.walk; rfl
  | succ n ih =>
    cases m with
    | nil => simp [Memory.walk, ih]
    | cons e t =>
      obtain ⟨k, v⟩ := e
      unfold Memory.walk; split <;> simp [ih]

@[simp] theorem Memory.read_length (m : Memory) (a n : Nat) : (Memory.read m a n).length = n := Memory.walk_length _ _ _

end Sys2Proof.Machine
end

