-- ==== Sys2Proof/Laws/Only.lean ====
section
/-! SUPPORT. What an operation writes, said once: OnlyM m s t says that t differs from s in no piece but those of the mask m.
One lemma for every shape of record update the model uses, the rules by which the predicate passes through branches and
folds, and its reading as State.Only. -/

namespace Sys2Proof.Machine

/-- A list of pieces as bits. -/
def mask (l : List Leaf) : Nat := l.foldr (fun p m => 1 <<< p.ctorIdx ||| m) 0

theorem Leaf.ctorIdx_inj {a b : Leaf} (h : a.ctorIdx = b.ctorIdx) : a = b := by
  rw [← Leaf.ofNat_ctorIdx a, h, Leaf.ofNat_ctorIdx b]

theorem orStep {α : Type} {m n i : Nat} {x y z : α} (h : m.testBit i = true ∨ y = x) (k : n.testBit i = true ∨ z = y)
    (e : n ||| m = m) : m.testBit i = true ∨ z = x := by
  rcases k with k | rfl
  · left; rw [← e, Nat.testBit_or, k, Bool.true_or]
  · exact h

/-- The fields of Flash a mask does not name are the same. -/
structure OnlyFlash (m : Nat) (x y : Flash) : Prop where
  dir0 : m.testBit 153 = true ∨ y.dir0 = x.dir0
  dir1 : m.testBit 154 = true ∨ y.dir1 = x.dir1
  rep0 : m.testBit 155 = true ∨ y.rep0 = x.rep0
  rep1 : m.testBit 156 = true ∨ y.rep1 = x.rep1
  rpmc : m.testBit 157 = true ∨ y.rpmc = x.rpmc
  rpmcKey : m.testBit 158 = true ∨ y.rpmcKey = x.rpmcKey
  cert1 : m.testBit 159 = true ∨ y.cert1 = x.cert1
  slots : m.testBit 160 = true ∨ y.slots = x.slots

/-- The fields of Control a mask does not name are the same. -/
structure OnlyCtl (m : Nat) (x y : Control) : Prop where
  st : m.testBit 7 = true ∨ y.st = x.st
  power : m.testBit 8 = true ∨ y.power = x.power
  hcause : m.testBit 9 = true ∨ y.hcause = x.hcause
  committed : m.testBit 10 = true ∨ y.committed = x.committed
  cLast : m.testBit 11 = true ∨ y.cLast = x.cLast
  cCause : m.testBit 12 = true ∨ y.cCause = x.cCause
  cBusy : m.testBit 13 = true ∨ y.cBusy = x.cBusy
  cSeq : m.testBit 14 = true ∨ y.cSeq = x.cSeq
  cErr : m.testBit 15 = true ∨ y.cErr = x.cErr
  werr : m.testBit 16 = true ∨ y.werr = x.werr
  bootStep : m.testBit 17 = true ∨ y.bootStep = x.bootStep
  short : m.testBit 18 = true ∨ y.short = x.short
  cores : m.testBit 19 = true ∨ y.cores = x.cores
  channels : m.testBit 20 = true ∨ y.channels = x.channels
  repRows : m.testBit 21 = true ∨ y.repRows = x.repRows
  repCols : m.testBit 22 = true ∨ y.repCols = x.repCols
  repSkip : m.testBit 23 = true ∨ y.repSkip = x.repSkip
  holdReq : m.testBit 24 = true ∨ y.holdReq = x.holdReq
  holding : m.testBit 25 = true ∨ y.holding = x.holding
  latches : m.testBit 26 = true ∨ y.latches = x.latches
  strapPos : m.testBit 27 = true ∨ y.strapPos = x.strapPos
  strapSmba : m.testBit 28 = true ∨ y.strapSmba = x.strapSmba
  thermTrip : m.testBit 29 = true ∨ y.thermTrip = x.thermTrip
  repDirty : m.testBit 30 = true ∨ y.repDirty = x.repDirty

/-- The fields of HostIf a mask does not name are the same. -/
structure OnlyHif (m : Nat) (x y : HostIf) : Prop where
  rings : m.testBit 31 = true ∨ y.rings = x.rings
  inflight : m.testBit 32 = true ∨ y.inflight = x.inflight
  fences : m.testBit 33 = true ∨ y.fences = x.fences
  poll : m.testBit 34 = true ∨ y.poll = x.poll
  consNext : m.testBit 35 = true ∨ y.consNext = x.consNext
  linkWidth : m.testBit 36 = true ∨ y.linkWidth = x.linkWidth
  linkRate : m.testBit 37 = true ∨ y.linkRate = x.linkRate
  linkFlit : m.testBit 38 = true ∨ y.linkFlit = x.linkFlit
  msixTable : m.testBit 39 = true ∨ y.msixTable = x.msixTable
  msixPend : m.testBit 40 = true ∨ y.msixPend = x.msixPend
  owedVecs : m.testBit 41 = true ∨ y.owedVecs = x.owedVecs
  inReset : m.testBit 42 = true ∨ y.inReset = x.inReset
  owed : m.testBit 43 = true ∨ y.owed = x.owed

/-- The fields of Dma a mask does not name are the same. -/
structure OnlyDma (m : Nat) (x y : Dma) : Prop where
  ops : m.testBit 44 = true ∨ y.ops = x.ops
  stops : m.testBit 45 = true ∨ y.stops = x.stops
  nextOpid : m.testBit 46 = true ∨ y.nextOpid = x.nextOpid
  lastRd : m.testBit 47 = true ∨ y.lastRd = x.lastRd
  lastWr : m.testBit 48 = true ∨ y.lastWr = x.lastWr
  rdEng : m.testBit 49 = true ∨ y.rdEng = x.rdEng
  wrEng : m.testBit 50 = true ∨ y.wrEng = x.wrEng

/-- The fields of Docent a mask does not name are the same. -/
structure OnlyDoc (m : Nat) (x y : Docent) : Prop where
  ctxs : m.testBit 51 = true ∨ y.ctxs = x.ctxs
  appends : m.testBit 52 = true ∨ y.appends = x.appends
  policies : m.testBit 53 = true ∨ y.policies = x.policies
  cancels : m.testBit 54 = true ∨ y.cancels = x.cancels
  releases : m.testBit 55 = true ∨ y.releases = x.releases
  progs : m.testBit 56 = true ∨ y.progs = x.progs
  groups : m.testBit 57 = true ∨ y.groups = x.groups
  cgroups : m.testBit 58 = true ∨ y.cgroups = x.cgroups
  nextGroup : m.testBit 59 = true ∨ y.nextGroup = x.nextGroup
  overcommit : m.testBit 60 = true ∨ y.overcommit = x.overcommit
  suspended : m.testBit 61 = true ∨ y.suspended = x.suspended
  owedNotices : m.testBit 62 = true ∨ y.owedNotices = x.owedNotices

/-- The fields of Curator a mask does not name are the same. -/
structure OnlyCur (m : Nat) (x y : Curator) : Prop where
  pages : m.testBit 63 = true ∨ y.pages = x.pages
  frames : m.testBit 64 = true ∨ y.frames = x.frames
  maps : m.testBit 65 = true ∨ y.maps = x.maps
  limbo : m.testBit 66 = true ∨ y.limbo = x.limbo
  cows : m.testBit 67 = true ∨ y.cows = x.cows
  forks : m.testBit 68 = true ∨ y.forks = x.forks
  moves : m.testBit 69 = true ∨ y.moves = x.moves
  lost : m.testBit 70 = true ∨ y.lost = x.lost
  lostCtx : m.testBit 71 = true ∨ y.lostCtx = x.lostCtx
  retired : m.testBit 72 = true ∨ y.retired = x.retired
  staged : m.testBit 73 = true ∨ y.staged = x.staged
  freed : m.testBit 74 = true ∨ y.freed = x.freed
  fresh : m.testBit 75 = true ∨ y.fresh = x.fresh

/-- The fields of Tiers a mask does not name are the same. -/
structure OnlyTiers (m : Nat) (x y : Tiers) : Prop where
  objs : m.testBit 76 = true ∨ y.objs = x.objs
  panels : m.testBit 77 = true ∨ y.panels = x.panels
  maps : m.testBit 78 = true ∨ y.maps = x.maps
  migs : m.testBit 79 = true ∨ y.migs = x.migs
  moving : m.testBit 80 = true ∨ y.moving = x.moving
  t0used : m.testBit 81 = true ∨ y.t0used = x.t0used
  repairs : m.testBit 82 = true ∨ y.repairs = x.repairs
  writeQ : m.testBit 83 = true ∨ y.writeQ = x.writeQ
  objRun : m.testBit 84 = true ∨ y.objRun = x.objRun
  objWait : m.testBit 85 = true ∨ y.objWait = x.objWait

/-- The fields of Annex a mask does not name are the same. -/
structure OnlyAnnex (m : Nat) (x y : Annex) : Prop where
  queue : m.testBit 91 = true ∨ y.queue = x.queue
  running : m.testBit 92 = true ∨ y.running = x.running
  bank0 : m.testBit 93 = true ∨ y.bank0 = x.bank0
  bank1 : m.testBit 94 = true ∨ y.bank1 = x.bank1
  fail : m.testBit 95 = true ∨ y.fail = x.fail

/-- The fields of Fabric a mask does not name are the same. -/
structure OnlyFab (m : Nat) (x y : Fabric) : Prop where
  ports : m.testBit 96 = true ∨ y.ports = x.ports
  beat : m.testBit 97 = true ∨ y.beat = x.beat
  links : m.testBit 98 = true ∨ y.links = x.links
  planes : m.testBit 99 = true ∨ y.planes = x.planes
  seen : m.testBit 100 = true ∨ y.seen = x.seen
  serial : m.testBit 101 = true ∨ y.serial = x.serial
  pendNotices : m.testBit 102 = true ∨ y.pendNotices = x.pendNotices
  quiesces : m.testBit 103 = true ∨ y.quiesces = x.quiesces
  macsec : m.testBit 104 = true ∨ y.macsec = x.macsec
  macSend : m.testBit 105 = true ∨ y.macSend = x.macSend
  announced : m.testBit 106 = true ∨ y.announced = x.announced
  carMap : m.testBit 107 = true ∨ y.carMap = x.carMap
  carPend : m.testBit 108 = true ∨ y.carPend = x.carPend
  carLoads : m.testBit 109 = true ∨ y.carLoads = x.carLoads
  carWait : m.testBit 110 = true ∨ y.carWait = x.carWait
  colls : m.testBit 111 = true ∨ y.colls = x.colls
  arrivals : m.testBit 112 = true ∨ y.arrivals = x.arrivals
  arrOrder : m.testBit 113 = true ∨ y.arrOrder = x.arrOrder
  sentSlots : m.testBit 114 = true ∨ y.sentSlots = x.sentSlots
  windows : m.testBit 115 = true ∨ y.windows = x.windows

/-- The fields of Ras a mask does not name are the same. -/
structure OnlyRas (m : Nat) (x y : Ras) : Prop where
  sources : m.testBit 116 = true ∨ y.sources = x.sources
  queue : m.testBit 117 = true ∨ y.queue = x.queue
  w : m.testBit 118 = true ∨ y.w = x.w
  cons : m.testBit 119 = true ∨ y.cons = x.cons
  ovf : m.testBit 120 = true ∨ y.ovf = x.ovf
  intLeft : m.testBit 121 = true ∨ y.intLeft = x.intLeft
  intPend : m.testBit 122 = true ∨ y.intPend = x.intPend
  intEnd : m.testBit 123 = true ∨ y.intEnd = x.intEnd

/-- The fields of Catalogue a mask does not name are the same. -/
structure OnlyCat (m : Nat) (x y : Catalogue) : Prop where
  counters : m.testBit 124 = true ∨ y.counters = x.counters
  rings : m.testBit 125 = true ∨ y.rings = x.rings
  waits : m.testBit 126 = true ∨ y.waits = x.waits
  started : m.testBit 127 = true ∨ y.started = x.started
  frozen : m.testBit 128 = true ∨ y.frozen = x.frozen
  fcause : m.testBit 129 = true ∨ y.fcause = x.fcause
  dumpBusy : m.testBit 130 = true ∨ y.dumpBusy = x.dumpBusy
  dumpFroze : m.testBit 131 = true ∨ y.dumpFroze = x.dumpFroze
  wdQuiet : m.testBit 132 = true ∨ y.wdQuiet = x.wdQuiet
  wbeat : m.testBit 133 = true ∨ y.wbeat = x.wbeat
  fenceWin : m.testBit 134 = true ∨ y.fenceWin = x.fenceWin
  snaps : m.testBit 135 = true ∨ y.snaps = x.snaps
  trace : m.testBit 136 = true ∨ y.trace = x.trace

/-- The fields of Security a mask does not name are the same. -/
structure OnlySec (m : Nat) (x y : Security) : Prop where
  st : m.testBit 137 = true ∨ y.st = x.st
  cause : m.testBit 138 = true ∨ y.cause = x.cause
  slot : m.testBit 139 = true ∨ y.slot = x.slot
  trial : m.testBit 140 = true ∨ y.trial = x.trial
  debug : m.testBit 141 = true ∨ y.debug = x.debug
  image : m.testBit 142 = true ∨ y.image = x.image
  seeded : m.testBit 143 = true ∨ y.seeded = x.seeded
  genKey : m.testBit 144 = true ∨ y.genKey = x.genKey
  tdis : m.testBit 145 = true ∨ y.tdis = x.tdis
  sessions : m.testBit 146 = true ∨ y.sessions = x.sessions
  spdm : m.testBit 147 = true ∨ y.spdm = x.spdm
  ides : m.testBit 148 = true ∨ y.ides = x.ides
  measured : m.testBit 149 = true ∨ y.measured = x.measured
  update : m.testBit 150 = true ∨ y.update = x.update
  events : m.testBit 151 = true ∨ y.events = x.events
  eid : m.testBit 152 = true ∨ y.eid = x.eid
  flash : OnlyFlash m x.flash y.flash

/-- The pieces of the state a mask does not name are the same. -/
structure OnlyM (m : Nat) (s t : State) : Prop where
  pending : m.testBit 0 = true ∨ t.pending = s.pending
  regs : m.testBit 1 = true ∨ t.regs = s.regs
  inForce : m.testBit 2 = true ∨ t.inForce = s.inForce
  vfRegs : m.testBit 3 = true ∨ t.vfRegs = s.vfRegs
  mem : m.testBit 4 = true ∨ t.mem = s.mem
  chk : m.testBit 5 = true ∨ t.chk = s.chk
  bad : m.testBit 6 = true ∨ t.bad = s.bad
  cores : m.testBit 86 = true ∨ t.cores = s.cores
  chans : m.testBit 87 = true ∨ t.chans = s.chans
  plinths : m.testBit 88 = true ∨ t.plinths = s.plinths
  fins : m.testBit 89 = true ∨ t.fins = s.fins
  outBases : m.testBit 90 = true ∨ t.outBases = s.outBases
  hubOps : m.testBit 161 = true ∨ t.hubOps = s.hubOps
  nextOp : m.testBit 162 = true ∨ t.nextOp = s.nextOp
  free : m.testBit 163 = true ∨ t.free = s.free
  out : m.testBit 164 = true ∨ t.out = s.out
  ctl : OnlyCtl m s.ctl t.ctl
  hif : OnlyHif m s.hif t.hif
  dma : OnlyDma m s.dma t.dma
  doc : OnlyDoc m s.doc t.doc
  cur : OnlyCur m s.cur t.cur
  tiers : OnlyTiers m s.tiers t.tiers
  annex : OnlyAnnex m s.annex t.annex
  fab : OnlyFab m s.fab t.fab
  ras : OnlyRas m s.ras t.ras
  cat : OnlyCat m s.cat t.cat
  sec : OnlySec m s.sec t.sec
  memOk : Memory.wf s.mem = true → Memory.wf t.mem = true

theorem OnlyFlash.refl (m : Nat) (x : Flash) : OnlyFlash m x x :=
  ⟨.inr rfl, .inr rfl, .inr rfl, .inr rfl, .inr rfl, .inr rfl, .inr rfl, .inr rfl⟩

theorem OnlyFlash.step {m n : Nat} {x y z : Flash} (h : OnlyFlash m x y) (k : OnlyFlash n y z) (i : n ||| m = m) :
      OnlyFlash m x z :=
  ⟨orStep h.dir0 k.dir0 i, orStep h.dir1 k.dir1 i, orStep h.rep0 k.rep0 i, orStep h.rep1 k.rep1 i, orStep h.rpmc k.rpmc i,
      orStep h.rpmcKey k.rpmcKey i, orStep h.cert1 k.cert1 i, orStep h.slots k.slots i⟩

theorem OnlyCtl.refl (m : Nat) (x : Control) : OnlyCtl m x x :=
  ⟨.inr rfl, .inr rfl, .inr rfl, .inr rfl, .inr rfl, .inr rfl, .inr rfl, .inr rfl, .inr rfl, .inr rfl, .inr rfl, .inr rfl,
      .inr rfl, .inr rfl, .inr rfl, .inr rfl, .inr rfl, .inr rfl, .inr rfl, .inr rfl, .inr rfl, .inr rfl, .inr rfl, .inr rfl⟩

theorem OnlyCtl.step {m n : Nat} {x y z : Control} (h : OnlyCtl m x y) (k : OnlyCtl n y z) (i : n ||| m = m) : OnlyCtl m x
      z :=
  ⟨orStep h.st k.st i, orStep h.power k.power i, orStep h.hcause k.hcause i, orStep h.committed k.committed i,
      orStep h.cLast k.cLast i, orStep h.cCause k.cCause i, orStep h.cBusy k.cBusy i, orStep h.cSeq k.cSeq i,
      orStep h.cErr k.cErr i, orStep h.werr k.werr i, orStep h.bootStep k.bootStep i, orStep h.short k.short i,
      orStep h.cores k.cores i, orStep h.channels k.channels i, orStep h.repRows k.repRows i, orStep h.repCols k.repCols i,
      orStep h.repSkip k.repSkip i, orStep h.holdReq k.holdReq i, orStep h.holding k.holding i,
      orStep h.latches k.latches i, orStep h.strapPos k.strapPos i, orStep h.strapSmba k.strapSmba i,
      orStep h.thermTrip k.thermTrip i, orStep h.repDirty k.repDirty i⟩

theorem OnlyHif.refl (m : Nat) (x : HostIf) : OnlyHif m x x :=
  ⟨.inr rfl, .inr rfl, .inr rfl, .inr rfl, .inr rfl, .inr rfl, .inr rfl, .inr rfl, .inr rfl, .inr rfl, .inr rfl, .inr rfl,
      .inr rfl⟩

theorem OnlyHif.step {m n : Nat} {x y z : HostIf} (h : OnlyHif m x y) (k : OnlyHif n y z) (i : n ||| m = m) : OnlyHif m x z :=
  ⟨orStep h.rings k.rings i, orStep h.inflight k.inflight i, orStep h.fences k.fences i, orStep h.poll k.poll i,
      orStep h.consNext k.consNext i, orStep h.linkWidth k.linkWidth i, orStep h.linkRate k.linkRate i,
      orStep h.linkFlit k.linkFlit i, orStep h.msixTable k.msixTable i, orStep h.msixPend k.msixPend i,
      orStep h.owedVecs k.owedVecs i, orStep h.inReset k.inReset i, orStep h.owed k.owed i⟩

theorem OnlyDma.refl (m : Nat) (x : Dma) : OnlyDma m x x :=
  ⟨.inr rfl, .inr rfl, .inr rfl, .inr rfl, .inr rfl, .inr rfl, .inr rfl⟩

theorem OnlyDma.step {m n : Nat} {x y z : Dma} (h : OnlyDma m x y) (k : OnlyDma n y z) (i : n ||| m = m) : OnlyDma m x z :=
  ⟨orStep h.ops k.ops i, orStep h.stops k.stops i, orStep h.nextOpid k.nextOpid i, orStep h.lastRd k.lastRd i,
      orStep h.lastWr k.lastWr i, orStep h.rdEng k.rdEng i, orStep h.wrEng k.wrEng i⟩

theorem OnlyDoc.refl (m : Nat) (x : Docent) : OnlyDoc m x x :=
  ⟨.inr rfl, .inr rfl, .inr rfl, .inr rfl, .inr rfl, .inr rfl, .inr rfl, .inr rfl, .inr rfl, .inr rfl, .inr rfl, .inr rfl⟩

theorem OnlyDoc.step {m n : Nat} {x y z : Docent} (h : OnlyDoc m x y) (k : OnlyDoc n y z) (i : n ||| m = m) : OnlyDoc m x z :=
  ⟨orStep h.ctxs k.ctxs i, orStep h.appends k.appends i, orStep h.policies k.policies i, orStep h.cancels k.cancels i,
      orStep h.releases k.releases i, orStep h.progs k.progs i, orStep h.groups k.groups i, orStep h.cgroups k.cgroups i,
      orStep h.nextGroup k.nextGroup i, orStep h.overcommit k.overcommit i, orStep h.suspended k.suspended i,
      orStep h.owedNotices k.owedNotices i⟩

theorem OnlyCur.refl (m : Nat) (x : Curator) : OnlyCur m x x :=
  ⟨.inr rfl, .inr rfl, .inr rfl, .inr rfl, .inr rfl, .inr rfl, .inr rfl, .inr rfl, .inr rfl, .inr rfl, .inr rfl, .inr rfl,
      .inr rfl⟩

theorem OnlyCur.step {m n : Nat} {x y z : Curator} (h : OnlyCur m x y) (k : OnlyCur n y z) (i : n ||| m = m) : OnlyCur m x
      z :=
  ⟨orStep h.pages k.pages i, orStep h.frames k.frames i, orStep h.maps k.maps i, orStep h.limbo k.limbo i,
      orStep h.cows k.cows i, orStep h.forks k.forks i, orStep h.moves k.moves i, orStep h.lost k.lost i,
      orStep h.lostCtx k.lostCtx i, orStep h.retired k.retired i, orStep h.staged k.staged i, orStep h.freed k.freed i,
      orStep h.fresh k.fresh i⟩

theorem OnlyTiers.refl (m : Nat) (x : Tiers) : OnlyTiers m x x :=
  ⟨.inr rfl, .inr rfl, .inr rfl, .inr rfl, .inr rfl, .inr rfl, .inr rfl, .inr rfl, .inr rfl, .inr rfl⟩

theorem OnlyTiers.step {m n : Nat} {x y z : Tiers} (h : OnlyTiers m x y) (k : OnlyTiers n y z) (i : n ||| m = m) :
      OnlyTiers m x z :=
  ⟨orStep h.objs k.objs i, orStep h.panels k.panels i, orStep h.maps k.maps i, orStep h.migs k.migs i,
      orStep h.moving k.moving i, orStep h.t0used k.t0used i, orStep h.repairs k.repairs i, orStep h.writeQ k.writeQ i,
      orStep h.objRun k.objRun i, orStep h.objWait k.objWait i⟩

theorem OnlyAnnex.refl (m : Nat) (x : Annex) : OnlyAnnex m x x :=
  ⟨.inr rfl, .inr rfl, .inr rfl, .inr rfl, .inr rfl⟩

theorem OnlyAnnex.step {m n : Nat} {x y z : Annex} (h : OnlyAnnex m x y) (k : OnlyAnnex n y z) (i : n ||| m = m) :
      OnlyAnnex m x z :=
  ⟨orStep h.queue k.queue i, orStep h.running k.running i, orStep h.bank0 k.bank0 i, orStep h.bank1 k.bank1 i,
      orStep h.fail k.fail i⟩

theorem OnlyFab.refl (m : Nat) (x : Fabric) : OnlyFab m x x :=
  ⟨.inr rfl, .inr rfl, .inr rfl, .inr rfl, .inr rfl, .inr rfl, .inr rfl, .inr rfl, .inr rfl, .inr rfl, .inr rfl, .inr rfl,
      .inr rfl, .inr rfl, .inr rfl, .inr rfl, .inr rfl, .inr rfl, .inr rfl, .inr rfl⟩

theorem OnlyFab.step {m n : Nat} {x y z : Fabric} (h : OnlyFab m x y) (k : OnlyFab n y z) (i : n ||| m = m) : OnlyFab m x z :=
  ⟨orStep h.ports k.ports i, orStep h.beat k.beat i, orStep h.links k.links i, orStep h.planes k.planes i,
      orStep h.seen k.seen i, orStep h.serial k.serial i, orStep h.pendNotices k.pendNotices i,
      orStep h.quiesces k.quiesces i, orStep h.macsec k.macsec i, orStep h.macSend k.macSend i,
      orStep h.announced k.announced i, orStep h.carMap k.carMap i, orStep h.carPend k.carPend i,
      orStep h.carLoads k.carLoads i, orStep h.carWait k.carWait i, orStep h.colls k.colls i,
      orStep h.arrivals k.arrivals i, orStep h.arrOrder k.arrOrder i, orStep h.sentSlots k.sentSlots i,
      orStep h.windows k.windows i⟩

theorem OnlyRas.refl (m : Nat) (x : Ras) : OnlyRas m x x :=
  ⟨.inr rfl, .inr rfl, .inr rfl, .inr rfl, .inr rfl, .inr rfl, .inr rfl, .inr rfl⟩

theorem OnlyRas.step {m n : Nat} {x y z : Ras} (h : OnlyRas m x y) (k : OnlyRas n y z) (i : n ||| m = m) : OnlyRas m x z :=
  ⟨orStep h.sources k.sources i, orStep h.queue k.queue i, orStep h.w k.w i, orStep h.cons k.cons i, orStep h.ovf k.ovf i,
      orStep h.intLeft k.intLeft i, orStep h.intPend k.intPend i, orStep h.intEnd k.intEnd i⟩

theorem OnlyCat.refl (m : Nat) (x : Catalogue) : OnlyCat m x x :=
  ⟨.inr rfl, .inr rfl, .inr rfl, .inr rfl, .inr rfl, .inr rfl, .inr rfl, .inr rfl, .inr rfl, .inr rfl, .inr rfl, .inr rfl,
      .inr rfl⟩

theorem OnlyCat.step {m n : Nat} {x y z : Catalogue} (h : OnlyCat m x y) (k : OnlyCat n y z) (i : n ||| m = m) : OnlyCat m
      x z :=
  ⟨orStep h.counters k.counters i, orStep h.rings k.rings i, orStep h.waits k.waits i, orStep h.started k.started i,
      orStep h.frozen k.frozen i, orStep h.fcause k.fcause i, orStep h.dumpBusy k.dumpBusy i,
      orStep h.dumpFroze k.dumpFroze i, orStep h.wdQuiet k.wdQuiet i, orStep h.wbeat k.wbeat i,
      orStep h.fenceWin k.fenceWin i, orStep h.snaps k.snaps i, orStep h.trace k.trace i⟩

theorem OnlySec.refl (m : Nat) (x : Security) : OnlySec m x x :=
  ⟨.inr rfl, .inr rfl, .inr rfl, .inr rfl, .inr rfl, .inr rfl, .inr rfl, .inr rfl, .inr rfl, .inr rfl, .inr rfl, .inr rfl,
      .inr rfl, .inr rfl, .inr rfl, .inr rfl, .refl m _⟩

theorem OnlySec.step {m n : Nat} {x y z : Security} (h : OnlySec m x y) (k : OnlySec n y z) (i : n ||| m = m) : OnlySec m x
      z :=
  ⟨orStep h.st k.st i, orStep h.cause k.cause i, orStep h.slot k.slot i, orStep h.trial k.trial i,
      orStep h.debug k.debug i, orStep h.image k.image i, orStep h.seeded k.seeded i, orStep h.genKey k.genKey i,
      orStep h.tdis k.tdis i, orStep h.sessions k.sessions i, orStep h.spdm k.spdm i, orStep h.ides k.ides i,
      orStep h.measured k.measured i, orStep h.update k.update i, orStep h.events k.events i, orStep h.eid k.eid i,
      h.flash.step k.flash i⟩

theorem OnlyM.refl (m : Nat) (x : State) : OnlyM m x x :=
  ⟨.inr rfl, .inr rfl, .inr rfl, .inr rfl, .inr rfl, .inr rfl, .inr rfl, .inr rfl, .inr rfl, .inr rfl, .inr rfl, .inr rfl,
      .inr rfl, .inr rfl, .inr rfl, .inr rfl, .refl m _, .refl m _, .refl m _, .refl m _, .refl m _, .refl m _, .refl m _,
      .refl m _, .refl m _, .refl m _, .refl m _, id⟩

theorem OnlyM.step {m n : Nat} {x y z : State} (h : OnlyM m x y) (k : OnlyM n y z) (i : n ||| m = m) : OnlyM m x z :=
  ⟨orStep h.pending k.pending i, orStep h.regs k.regs i, orStep h.inForce k.inForce i, orStep h.vfRegs k.vfRegs i,
      orStep h.mem k.mem i, orStep h.chk k.chk i, orStep h.bad k.bad i, orStep h.cores k.cores i, orStep h.chans k.chans i,
      orStep h.plinths k.plinths i, orStep h.fins k.fins i, orStep h.outBases k.outBases i, orStep h.hubOps k.hubOps i,
      orStep h.nextOp k.nextOp i, orStep h.free k.free i, orStep h.out k.out i, h.ctl.step k.ctl i, h.hif.step k.hif i,
      h.dma.step k.dma i, h.doc.step k.doc i, h.cur.step k.cur i, h.tiers.step k.tiers i, h.annex.step k.annex i,
      h.fab.step k.fab i, h.ras.step k.ras i, h.cat.step k.cat i, h.sec.step k.sec i, fun e => k.memOk (h.memOk e)⟩

theorem mask_testBit {l : List Leaf} {p : Leaf} : (mask l).testBit p.ctorIdx = true ↔ p ∈ l := by
  induction l with
  | nil => simp [mask]
  | cons a l ih =>
    have h : mask (a :: l) = 1 <<< a.ctorIdx ||| mask l := rfl
    rw [h, Nat.testBit_or, Bool.or_eq_true, ih, Nat.one_shiftLeft, Nat.testBit_two_pow, decide_eq_true_eq, List.mem_cons]
    constructor
    · rintro (h | h)
      · exact .inl (Leaf.ctorIdx_inj h.symm)
      · exact .inr h
    · rintro (rfl | h)
      · exact .inl rfl
      · exact .inr h

theorem OnlyM.only {l : List Leaf} {s t : State} (h : OnlyM (mask l) s t) : s.Only l t := by
  intro p hp
  have hb (x : Prop) (k : (mask l).testBit p.ctorIdx = true ∨ x) : x := k.resolve_left (fun e => hp (mask_testBit.mp e))
  cases p
  all_goals refine hb _ ?_
  · exact h.pending
  · exact h.regs
  · exact h.inForce
  · exact h.vfRegs
  · exact h.mem
  · exact h.chk
  · exact h.bad
  · exact h.ctl.st
  · exact h.ctl.power
  · exact h.ctl.hcause
  · exact h.ctl.committed
  · exact h.ctl.cLast
  · exact h.ctl.cCause
  · exact h.ctl.cBusy
  · exact h.ctl.cSeq
  · exact h.ctl.cErr
  · exact h.ctl.werr
  · exact h.ctl.bootStep
  · exact h.ctl.short
  · exact h.ctl.cores
  · exact h.ctl.channels
  · exact h.ctl.repRows
  · exact h.ctl.repCols
  · exact h.ctl.repSkip
  · exact h.ctl.holdReq
  · exact h.ctl.holding
  · exact h.ctl.latches
  · exact h.ctl.strapPos
  · exact h.ctl.strapSmba
  · exact h.ctl.thermTrip
  · exact h.ctl.repDirty
  · exact h.hif.rings
  · exact h.hif.inflight
  · exact h.hif.fences
  · exact h.hif.poll
  · exact h.hif.consNext
  · exact h.hif.linkWidth
  · exact h.hif.linkRate
  · exact h.hif.linkFlit
  · exact h.hif.msixTable
  · exact h.hif.msixPend
  · exact h.hif.owedVecs
  · exact h.hif.inReset
  · exact h.hif.owed
  · exact h.dma.ops
  · exact h.dma.stops
  · exact h.dma.nextOpid
  · exact h.dma.lastRd
  · exact h.dma.lastWr
  · exact h.dma.rdEng
  · exact h.dma.wrEng
  · exact h.doc.ctxs
  · exact h.doc.appends
  · exact h.doc.policies
  · exact h.doc.cancels
  · exact h.doc.releases
  · exact h.doc.progs
  · exact h.doc.groups
  · exact h.doc.cgroups
  · exact h.doc.nextGroup
  · exact h.doc.overcommit
  · exact h.doc.suspended
  · exact h.doc.owedNotices
  · exact h.cur.pages
  · exact h.cur.frames
  · exact h.cur.maps
  · exact h.cur.limbo
  · exact h.cur.cows
  · exact h.cur.forks
  · exact h.cur.moves
  · exact h.cur.lost
  · exact h.cur.lostCtx
  · exact h.cur.retired
  · exact h.cur.staged
  · exact h.cur.freed
  · exact h.cur.fresh
  · exact h.tiers.objs
  · exact h.tiers.panels
  · exact h.tiers.maps
  · exact h.tiers.migs
  · exact h.tiers.moving
  · exact h.tiers.t0used
  · exact h.tiers.repairs
  · exact h.tiers.writeQ
  · exact h.tiers.objRun
  · exact h.tiers.objWait
  · exact h.cores
  · exact h.chans
  · exact h.plinths
  · exact h.fins
  · exact h.outBases
  · exact h.annex.queue
  · exact h.annex.running
  · exact h.annex.bank0
  · exact h.annex.bank1
  · exact h.annex.fail
  · exact h.fab.ports
  · exact h.fab.beat
  · exact h.fab.links
  · exact h.fab.planes
  · exact h.fab.seen
  · exact h.fab.serial
  · exact h.fab.pendNotices
  · exact h.fab.quiesces
  · exact h.fab.macsec
  · exact h.fab.macSend
  · exact h.fab.announced
  · exact h.fab.carMap
  · exact h.fab.carPend
  · exact h.fab.carLoads
  · exact h.fab.carWait
  · exact h.fab.colls
  · exact h.fab.arrivals
  · exact h.fab.arrOrder
  · exact h.fab.sentSlots
  · exact h.fab.windows
  · exact h.ras.sources
  · exact h.ras.queue
  · exact h.ras.w
  · exact h.ras.cons
  · exact h.ras.ovf
  · exact h.ras.intLeft
  · exact h.ras.intPend
  · exact h.ras.intEnd
  · exact h.cat.counters
  · exact h.cat.rings
  · exact h.cat.waits
  · exact h.cat.started
  · exact h.cat.frozen
  · exact h.cat.fcause
  · exact h.cat.dumpBusy
  · exact h.cat.dumpFroze
  · exact h.cat.wdQuiet
  · exact h.cat.wbeat
  · exact h.cat.fenceWin
  · exact h.cat.snaps
  · exact h.cat.trace
  · exact h.sec.st
  · exact h.sec.cause
  · exact h.sec.slot
  · exact h.sec.trial
  · exact h.sec.debug
  · exact h.sec.image
  · exact h.sec.seeded
  · exact h.sec.genKey
  · exact h.sec.tdis
  · exact h.sec.sessions
  · exact h.sec.spdm
  · exact h.sec.ides
  · exact h.sec.measured
  · exact h.sec.update
  · exact h.sec.events
  · exact h.sec.eid
  · exact h.sec.flash.dir0
  · exact h.sec.flash.dir1
  · exact h.sec.flash.rep0
  · exact h.sec.flash.rep1
  · exact h.sec.flash.rpmc
  · exact h.sec.flash.rpmcKey
  · exact h.sec.flash.cert1
  · exact h.sec.flash.slots
  · exact h.hubOps
  · exact h.nextOp
  · exact h.free
  · exact h.out

theorem bitOf {a m k : Nat} (i : a ||| m = m) (h : a.testBit k = true) : m.testBit k = true := by
  rw [← i, Nat.testBit_or, h, Bool.true_or]

theorem OnlyM.mono {m n : Nat} {s t : State} (h : OnlyM n s t) (i : n ||| m = m) : OnlyM m s t := (OnlyM.refl m s).step h i

/-- The state of a pair differs from the first in nothing but what the mask names. -/
structure OnlyP {β : Type} (m : Nat) (s : State) (p : State × β) : Prop where
  fst : OnlyM m s p.1

/-- The state of a next outcome differs from the first in nothing but what the mask names. -/
structure OnlyX (m : Nat) (s : State) (x : Host.Outcome State Fault Refusal) : Prop where
  next : ∀ t, x = .next t → OnlyM m s t

theorem OnlyM.foldl {m : Nat} {s t : State} {α : Type} {l : List α} {f : State → α → State} (h : OnlyM m s t)
    (k : ∀ u x, OnlyM m u (f u x)) : OnlyM m s (l.foldl f t) := by
  induction l generalizing t with
  | nil => exact h
  | cons a l ih => exact ih (h.step (k t a) (Nat.or_self m))

theorem OnlyM.foldr {m : Nat} {s t : State} {α : Type} {l : List α} {f : α → State → State} (h : OnlyM m s t)
    (k : ∀ x u, OnlyM m u (f x u)) : OnlyM m s (l.foldr f t) := by
  induction l with
  | nil => exact h
  | cons a l ih => exact ih.step (k a _) (Nat.or_self m)

theorem OnlyP.foldl {m : Nat} {s : State} {α β : Type} {l : List α} {f : State × β → α → State × β} {p : State × β}
    (h : OnlyP m s p) (k : ∀ u x, OnlyP m u.1 (f u x)) : OnlyP m s (l.foldl f p) := by
  induction l generalizing p with
  | nil => exact h
  | cons a l ih => exact ih ⟨h.fst.step (k p a).fst (Nat.or_self m)⟩

theorem OnlyP.mk' {m : Nat} {s t : State} {β : Type} {b : β} (h : OnlyM m s t) : OnlyP m s (t, b) := ⟨h⟩

theorem OnlyM.ofPair {m : Nat} {s t : State} {β : Type} {b : β} {p : State × β} (h : p = (t, b)) (k : OnlyP m s p) :
    OnlyM m s t := by rw [h] at k; exact k.fst

theorem OnlyP.step {m n : Nat} {s t : State} {β : Type} {p : State × β} (h : OnlyM m s t) (k : OnlyP n t p)
    (i : n ||| m = m) : OnlyP m s p := ⟨h.step k.fst i⟩

theorem OnlyX.ofNext {m : Nat} {s t : State} (h : OnlyM m s t) : OnlyX m s (.next t) := ⟨fun u hu => by cases hu; exact h⟩

theorem OnlyX.mono {m n : Nat} {s : State} {x : Host.Outcome State Fault Refusal} (h : OnlyX n s x) (i : n ||| m = m) :
    OnlyX m s x := ⟨fun t ht => (h.next t ht).mono i⟩

theorem OnlyM.ite {m : Nat} {s a b : State} {c : Prop} [Decidable c] (h : OnlyM m s a) (k : OnlyM m s b) :
    OnlyM m s (if c then a else b) := by split <;> assumption

theorem OnlyP.ite {m : Nat} {s : State} {β : Type} {a b : State × β} {c : Prop} [Decidable c] (h : OnlyP m s a)
    (k : OnlyP m s b) : OnlyP m s (if c then a else b) := by split <;> assumption

theorem OnlyX.ite {m : Nat} {s : State} {a b : Host.Outcome State Fault Refusal} {c : Prop} [Decidable c]
    (h : OnlyX m s a) (k : OnlyX m s b) : OnlyX m s (if c then a else b) := by split <;> assumption

theorem OnlyM.ofStep {m n : Nat} {s t u : State} (h : OnlyM m s t) (k : OnlyM n t u) (i : n ||| m = m) : OnlyM m s u :=
      h.step k i
theorem OnlyP.ofStep {m n : Nat} {s t : State} {β : Type} {p : State × β} (h : OnlyM m s t) (k : OnlyP n t p) (i : n ||| m
      = m) :
    OnlyP m s p := OnlyP.step h k i
theorem OnlyX.ofStep {m n : Nat} {s t : State} {x : Host.Outcome State Fault Refusal} (h : OnlyM m s t) (k : OnlyX n t x)
    (i : n ||| m = m) : OnlyX m s x := ⟨fun u hu => h.step (k.next u hu) i⟩

/-- The state of an answer, where there is one, differs from the first in nothing but what the mask names. -/
structure OnlyO {β : Type} (m : Nat) (s : State) (p : Option (State × β)) : Prop where
  some : ∀ q, p = some q → OnlyM m s q.1

/-- The same for an optional state. -/
structure OnlyS (m : Nat) (s : State) (p : Option State) : Prop where
  some : ∀ q, p = Option.some q → OnlyM m s q

theorem OnlyO.none {β : Type} {m : Nat} {s : State} : OnlyO (β := β) m s none := ⟨fun _ h => nomatch h⟩
theorem OnlyO.of {β : Type} {m : Nat} {s : State} {p : State × β} (h : OnlyP m s p) : OnlyO m s (Option.some p) :=
  ⟨fun _ e => by cases e; exact h.fst⟩
theorem OnlyO.ite {β : Type} {m : Nat} {s : State} {a b : Option (State × β)} {c : Prop} [Decidable c] (h : OnlyO m s a)
    (k : OnlyO m s b) : OnlyO m s (if c then a else b) := by split <;> assumption
theorem OnlyO.ofStep {m n : Nat} {s t : State} {β : Type} {p : Option (State × β)} (h : OnlyM m s t) (k : OnlyO n t p)
    (i : n ||| m = m) : OnlyO m s p := ⟨fun q e => h.step (k.some q e) i⟩
theorem OnlyO.map {β γ : Type} {m : Nat} {s : State} {p : Option (State × β)} {f : State × β → State × γ} (h : OnlyO m s p)
    (k : ∀ q, (f q).1 = q.1) : OnlyO m s (p.map f) := by
  refine ⟨fun q e => ?_⟩
  obtain ⟨r, hr, rfl⟩ := Option.map_eq_some_iff.mp e
  rw [k]; exact h.some r hr
theorem OnlyS.none {m : Nat} {s : State} : OnlyS m s none := ⟨fun _ h => nomatch h⟩
theorem OnlyS.of {m : Nat} {s t : State} (h : OnlyM m s t) : OnlyS m s (Option.some t) := ⟨fun _ e => by cases e; exact h⟩
theorem OnlyS.ite {m : Nat} {s : State} {a b : Option State} {c : Prop} [Decidable c] (h : OnlyS m s a) (k : OnlyS m s b) :
    OnlyS m s (if c then a else b) := by split <;> assumption
theorem OnlyS.ofStep {m n : Nat} {s t : State} {p : Option State} (h : OnlyM m s t) (k : OnlyS n t p) (i : n ||| m = m) :
    OnlyS m s p := ⟨fun q e => h.step (k.some q e) i⟩
theorem OnlyM.ofSome {m : Nat} {s t : State} {p : Option State} (h : p = Option.some t) (k : OnlyS m s p) : OnlyM m s t :=
  k.some t h
theorem OnlyP.ofSome {m : Nat} {s : State} {β : Type} {q : State × β} {p : Option (State × β)} (h : p = Option.some q)
    (k : OnlyO m s p) : OnlyP m s q := ⟨k.some q h⟩
theorem OnlyM.ofSomePair {m : Nat} {s t : State} {β : Type} {b : β} {p : Option (State × β)} (h : p = Option.some (t, b))
    (k : OnlyO m s p) : OnlyM m s t := k.some _ h

theorem OnlyM.sub {a b m : Nat} (h : a ||| b = b) (k : b ||| m = m) : a ||| m = m := by rw [← k, ← Nat.or_assoc, h]
theorem OnlyFlash.eq {m : Nat} {x y : Flash} (h : OnlyFlash m x y)
    (e : ([.flashDir0, .flashDir1, .flashRep0, .flashRep1, .flashRpmc, .flashRpmcKey, .flashCert1,
      .flashSlots] : List Leaf).all (fun p => !m.testBit p.ctorIdx) = true) : y = x := by
  simp only [List.all_cons, List.all_nil, Bool.and_true, Bool.and_eq_true, Bool.not_eq_true'] at e
  obtain ⟨e153, e154, e155, e156, e157, e158, e159, e160⟩ := e
  obtain ⟨h153, h154, h155, h156, h157, h158, h159, h160⟩ := h
  cases x; cases y
  have h153 := h153.resolve_left (fun e => Bool.false_ne_true (e153.symm.trans e))
  have h154 := h154.resolve_left (fun e => Bool.false_ne_true (e154.symm.trans e))
  have h155 := h155.resolve_left (fun e => Bool.false_ne_true (e155.symm.trans e))
  have h156 := h156.resolve_left (fun e => Bool.false_ne_true (e156.symm.trans e))
  have h157 := h157.resolve_left (fun e => Bool.false_ne_true (e157.symm.trans e))
  have h158 := h158.resolve_left (fun e => Bool.false_ne_true (e158.symm.trans e))
  have h159 := h159.resolve_left (fun e => Bool.false_ne_true (e159.symm.trans e))
  have h160 := h160.resolve_left (fun e => Bool.false_ne_true (e160.symm.trans e))
  exact Flash.mk.injEq .. ▸ ⟨h153, h154, h155, h156, h157, h158, h159, h160⟩

theorem OnlyCtl.eq {m : Nat} {x y : Control} (h : OnlyCtl m x y)
    (e : ([.ctlSt, .ctlPower, .ctlHcause, .ctlCommitted, .ctlCLast, .ctlCCause, .ctlCBusy, .ctlCSeq, .ctlCErr, .ctlWerr,
      .ctlBootStep, .ctlShort, .ctlCores, .ctlChannels, .ctlRepRows, .ctlRepCols, .ctlRepSkip, .ctlHoldReq, .ctlHolding,
      .ctlLatches, .ctlStrapPos, .ctlStrapSmba, .ctlThermTrip,
      .ctlRepDirty] : List Leaf).all (fun p => !m.testBit p.ctorIdx) = true) : y = x := by
  simp only [List.all_cons, List.all_nil, Bool.and_true, Bool.and_eq_true, Bool.not_eq_true'] at e
  obtain ⟨e7, e8, e9, e10, e11, e12, e13, e14, e15, e16, e17, e18, e19, e20, e21, e22, e23, e24, e25, e26, e27, e28, e29,
      e30⟩ := e
  obtain ⟨h7, h8, h9, h10, h11, h12, h13, h14, h15, h16, h17, h18, h19, h20, h21, h22, h23, h24, h25, h26, h27, h28, h29,
      h30⟩ := h
  cases x; cases y
  have h7 := h7.resolve_left (fun e => Bool.false_ne_true (e7.symm.trans e))
  have h8 := h8.resolve_left (fun e => Bool.false_ne_true (e8.symm.trans e))
  have h9 := h9.resolve_left (fun e => Bool.false_ne_true (e9.symm.trans e))
  have h10 := h10.resolve_left (fun e => Bool.false_ne_true (e10.symm.trans e))
  have h11 := h11.resolve_left (fun e => Bool.false_ne_true (e11.symm.trans e))
  have h12 := h12.resolve_left (fun e => Bool.false_ne_true (e12.symm.trans e))
  have h13 := h13.resolve_left (fun e => Bool.false_ne_true (e13.symm.trans e))
  have h14 := h14.resolve_left (fun e => Bool.false_ne_true (e14.symm.trans e))
  have h15 := h15.resolve_left (fun e => Bool.false_ne_true (e15.symm.trans e))
  have h16 := h16.resolve_left (fun e => Bool.false_ne_true (e16.symm.trans e))
  have h17 := h17.resolve_left (fun e => Bool.false_ne_true (e17.symm.trans e))
  have h18 := h18.resolve_left (fun e => Bool.false_ne_true (e18.symm.trans e))
  have h19 := h19.resolve_left (fun e => Bool.false_ne_true (e19.symm.trans e))
  have h20 := h20.resolve_left (fun e => Bool.false_ne_true (e20.symm.trans e))
  have h21 := h21.resolve_left (fun e => Bool.false_ne_true (e21.symm.trans e))
  have h22 := h22.resolve_left (fun e => Bool.false_ne_true (e22.symm.trans e))
  have h23 := h23.resolve_left (fun e => Bool.false_ne_true (e23.symm.trans e))
  have h24 := h24.resolve_left (fun e => Bool.false_ne_true (e24.symm.trans e))
  have h25 := h25.resolve_left (fun e => Bool.false_ne_true (e25.symm.trans e))
  have h26 := h26.resolve_left (fun e => Bool.false_ne_true (e26.symm.trans e))
  have h27 := h27.resolve_left (fun e => Bool.false_ne_true (e27.symm.trans e))
  have h28 := h28.resolve_left (fun e => Bool.false_ne_true (e28.symm.trans e))
  have h29 := h29.resolve_left (fun e => Bool.false_ne_true (e29.symm.trans e))
  have h30 := h30.resolve_left (fun e => Bool.false_ne_true (e30.symm.trans e))
  exact Control.mk.injEq .. ▸ ⟨h7, h8, h9, h10, h11, h12, h13, h14, h15, h16, h17, h18, h19, h20, h21, h22, h23, h24, h25,
      h26, h27, h28, h29, h30⟩

theorem OnlyHif.eq {m : Nat} {x y : HostIf} (h : OnlyHif m x y)
    (e : ([.hifRings, .hifInflight, .hifFences, .hifPoll, .hifConsNext, .hifLinkWidth, .hifLinkRate, .hifLinkFlit,
      .hifMsixTable, .hifMsixPend, .hifOwedVecs, .hifInReset,
      .hifOwed] : List Leaf).all (fun p => !m.testBit p.ctorIdx) = true) : y = x := by
  simp only [List.all_cons, List.all_nil, Bool.and_true, Bool.and_eq_true, Bool.not_eq_true'] at e
  obtain ⟨e31, e32, e33, e34, e35, e36, e37, e38, e39, e40, e41, e42, e43⟩ := e
  obtain ⟨h31, h32, h33, h34, h35, h36, h37, h38, h39, h40, h41, h42, h43⟩ := h
  cases x; cases y
  have h31 := h31.resolve_left (fun e => Bool.false_ne_true (e31.symm.trans e))
  have h32 := h32.resolve_left (fun e => Bool.false_ne_true (e32.symm.trans e))
  have h33 := h33.resolve_left (fun e => Bool.false_ne_true (e33.symm.trans e))
  have h34 := h34.resolve_left (fun e => Bool.false_ne_true (e34.symm.trans e))
  have h35 := h35.resolve_left (fun e => Bool.false_ne_true (e35.symm.trans e))
  have h36 := h36.resolve_left (fun e => Bool.false_ne_true (e36.symm.trans e))
  have h37 := h37.resolve_left (fun e => Bool.false_ne_true (e37.symm.trans e))
  have h38 := h38.resolve_left (fun e => Bool.false_ne_true (e38.symm.trans e))
  have h39 := h39.resolve_left (fun e => Bool.false_ne_true (e39.symm.trans e))
  have h40 := h40.resolve_left (fun e => Bool.false_ne_true (e40.symm.trans e))
  have h41 := h41.resolve_left (fun e => Bool.false_ne_true (e41.symm.trans e))
  have h42 := h42.resolve_left (fun e => Bool.false_ne_true (e42.symm.trans e))
  have h43 := h43.resolve_left (fun e => Bool.false_ne_true (e43.symm.trans e))
  exact HostIf.mk.injEq .. ▸ ⟨h31, h32, h33, h34, h35, h36, h37, h38, h39, h40, h41, h42, h43⟩

theorem OnlyDma.eq {m : Nat} {x y : Dma} (h : OnlyDma m x y)
    (e : ([.dmaOps, .dmaStops, .dmaNextOpid, .dmaLastRd, .dmaLastWr, .dmaRdEng,
      .dmaWrEng] : List Leaf).all (fun p => !m.testBit p.ctorIdx) = true) : y = x := by
  simp only [List.all_cons, List.all_nil, Bool.and_true, Bool.and_eq_true, Bool.not_eq_true'] at e
  obtain ⟨e44, e45, e46, e47, e48, e49, e50⟩ := e
  obtain ⟨h44, h45, h46, h47, h48, h49, h50⟩ := h
  cases x; cases y
  have h44 := h44.resolve_left (fun e => Bool.false_ne_true (e44.symm.trans e))
  have h45 := h45.resolve_left (fun e => Bool.false_ne_true (e45.symm.trans e))
  have h46 := h46.resolve_left (fun e => Bool.false_ne_true (e46.symm.trans e))
  have h47 := h47.resolve_left (fun e => Bool.false_ne_true (e47.symm.trans e))
  have h48 := h48.resolve_left (fun e => Bool.false_ne_true (e48.symm.trans e))
  have h49 := h49.resolve_left (fun e => Bool.false_ne_true (e49.symm.trans e))
  have h50 := h50.resolve_left (fun e => Bool.false_ne_true (e50.symm.trans e))
  exact Dma.mk.injEq .. ▸ ⟨h44, h45, h46, h47, h48, h49, h50⟩

theorem OnlyDoc.eq {m : Nat} {x y : Docent} (h : OnlyDoc m x y)
    (e : ([.docCtxs, .docAppends, .docPolicies, .docCancels, .docReleases, .docProgs, .docGroups, .docCgroups,
      .docNextGroup, .docOvercommit, .docSuspended,
      .docOwedNotices] : List Leaf).all (fun p => !m.testBit p.ctorIdx) = true) : y = x := by
  simp only [List.all_cons, List.all_nil, Bool.and_true, Bool.and_eq_true, Bool.not_eq_true'] at e
  obtain ⟨e51, e52, e53, e54, e55, e56, e57, e58, e59, e60, e61, e62⟩ := e
  obtain ⟨h51, h52, h53, h54, h55, h56, h57, h58, h59, h60, h61, h62⟩ := h
  cases x; cases y
  have h51 := h51.resolve_left (fun e => Bool.false_ne_true (e51.symm.trans e))
  have h52 := h52.resolve_left (fun e => Bool.false_ne_true (e52.symm.trans e))
  have h53 := h53.resolve_left (fun e => Bool.false_ne_true (e53.symm.trans e))
  have h54 := h54.resolve_left (fun e => Bool.false_ne_true (e54.symm.trans e))
  have h55 := h55.resolve_left (fun e => Bool.false_ne_true (e55.symm.trans e))
  have h56 := h56.resolve_left (fun e => Bool.false_ne_true (e56.symm.trans e))
  have h57 := h57.resolve_left (fun e => Bool.false_ne_true (e57.symm.trans e))
  have h58 := h58.resolve_left (fun e => Bool.false_ne_true (e58.symm.trans e))
  have h59 := h59.resolve_left (fun e => Bool.false_ne_true (e59.symm.trans e))
  have h60 := h60.resolve_left (fun e => Bool.false_ne_true (e60.symm.trans e))
  have h61 := h61.resolve_left (fun e => Bool.false_ne_true (e61.symm.trans e))
  have h62 := h62.resolve_left (fun e => Bool.false_ne_true (e62.symm.trans e))
  exact Docent.mk.injEq .. ▸ ⟨h51, h52, h53, h54, h55, h56, h57, h58, h59, h60, h61, h62⟩

theorem OnlyCur.eq {m : Nat} {x y : Curator} (h : OnlyCur m x y)
    (e : ([.curPages, .curFrames, .curMaps, .curLimbo, .curCows, .curForks, .curMoves, .curLost, .curLostCtx, .curRetired,
      .curStaged, .curFreed, .curFresh] : List Leaf).all (fun p => !m.testBit p.ctorIdx) = true) : y = x := by
  simp only [List.all_cons, List.all_nil, Bool.and_true, Bool.and_eq_true, Bool.not_eq_true'] at e
  obtain ⟨e63, e64, e65, e66, e67, e68, e69, e70, e71, e72, e73, e74, e75⟩ := e
  obtain ⟨h63, h64, h65, h66, h67, h68, h69, h70, h71, h72, h73, h74, h75⟩ := h
  cases x; cases y
  have h63 := h63.resolve_left (fun e => Bool.false_ne_true (e63.symm.trans e))
  have h64 := h64.resolve_left (fun e => Bool.false_ne_true (e64.symm.trans e))
  have h65 := h65.resolve_left (fun e => Bool.false_ne_true (e65.symm.trans e))
  have h66 := h66.resolve_left (fun e => Bool.false_ne_true (e66.symm.trans e))
  have h67 := h67.resolve_left (fun e => Bool.false_ne_true (e67.symm.trans e))
  have h68 := h68.resolve_left (fun e => Bool.false_ne_true (e68.symm.trans e))
  have h69 := h69.resolve_left (fun e => Bool.false_ne_true (e69.symm.trans e))
  have h70 := h70.resolve_left (fun e => Bool.false_ne_true (e70.symm.trans e))
  have h71 := h71.resolve_left (fun e => Bool.false_ne_true (e71.symm.trans e))
  have h72 := h72.resolve_left (fun e => Bool.false_ne_true (e72.symm.trans e))
  have h73 := h73.resolve_left (fun e => Bool.false_ne_true (e73.symm.trans e))
  have h74 := h74.resolve_left (fun e => Bool.false_ne_true (e74.symm.trans e))
  have h75 := h75.resolve_left (fun e => Bool.false_ne_true (e75.symm.trans e))
  exact Curator.mk.injEq .. ▸ ⟨h63, h64, h65, h66, h67, h68, h69, h70, h71, h72, h73, h74, h75⟩

theorem OnlyTiers.eq {m : Nat} {x y : Tiers} (h : OnlyTiers m x y)
    (e : ([.tiersObjs, .tiersPanels, .tiersMaps, .tiersMigs, .tiersMoving, .tiersT0used, .tiersRepairs, .tiersWriteQ,
      .tiersObjRun, .tiersObjWait] : List Leaf).all (fun p => !m.testBit p.ctorIdx) = true) : y = x := by
  simp only [List.all_cons, List.all_nil, Bool.and_true, Bool.and_eq_true, Bool.not_eq_true'] at e
  obtain ⟨e76, e77, e78, e79, e80, e81, e82, e83, e84, e85⟩ := e
  obtain ⟨h76, h77, h78, h79, h80, h81, h82, h83, h84, h85⟩ := h
  cases x; cases y
  have h76 := h76.resolve_left (fun e => Bool.false_ne_true (e76.symm.trans e))
  have h77 := h77.resolve_left (fun e => Bool.false_ne_true (e77.symm.trans e))
  have h78 := h78.resolve_left (fun e => Bool.false_ne_true (e78.symm.trans e))
  have h79 := h79.resolve_left (fun e => Bool.false_ne_true (e79.symm.trans e))
  have h80 := h80.resolve_left (fun e => Bool.false_ne_true (e80.symm.trans e))
  have h81 := h81.resolve_left (fun e => Bool.false_ne_true (e81.symm.trans e))
  have h82 := h82.resolve_left (fun e => Bool.false_ne_true (e82.symm.trans e))
  have h83 := h83.resolve_left (fun e => Bool.false_ne_true (e83.symm.trans e))
  have h84 := h84.resolve_left (fun e => Bool.false_ne_true (e84.symm.trans e))
  have h85 := h85.resolve_left (fun e => Bool.false_ne_true (e85.symm.trans e))
  exact Tiers.mk.injEq .. ▸ ⟨h76, h77, h78, h79, h80, h81, h82, h83, h84, h85⟩

theorem OnlyAnnex.eq {m : Nat} {x y : Annex} (h : OnlyAnnex m x y)
    (e : ([.annexQueue, .annexRunning, .annexBank0, .annexBank1,
      .annexFail] : List Leaf).all (fun p => !m.testBit p.ctorIdx) = true) : y = x := by
  simp only [List.all_cons, List.all_nil, Bool.and_true, Bool.and_eq_true, Bool.not_eq_true'] at e
  obtain ⟨e91, e92, e93, e94, e95⟩ := e
  obtain ⟨h91, h92, h93, h94, h95⟩ := h
  cases x; cases y
  have h91 := h91.resolve_left (fun e => Bool.false_ne_true (e91.symm.trans e))
  have h92 := h92.resolve_left (fun e => Bool.false_ne_true (e92.symm.trans e))
  have h93 := h93.resolve_left (fun e => Bool.false_ne_true (e93.symm.trans e))
  have h94 := h94.resolve_left (fun e => Bool.false_ne_true (e94.symm.trans e))
  have h95 := h95.resolve_left (fun e => Bool.false_ne_true (e95.symm.trans e))
  exact Annex.mk.injEq .. ▸ ⟨h91, h92, h93, h94, h95⟩

theorem OnlyFab.eq {m : Nat} {x y : Fabric} (h : OnlyFab m x y)
    (e : ([.fabPorts, .fabBeat, .fabLinks, .fabPlanes, .fabSeen, .fabSerial, .fabPendNotices, .fabQuiesces, .fabMacsec,
      .fabMacSend, .fabAnnounced, .fabCarMap, .fabCarPend, .fabCarLoads, .fabCarWait, .fabColls, .fabArrivals,
      .fabArrOrder, .fabSentSlots, .fabWindows] : List Leaf).all (fun p => !m.testBit p.ctorIdx) = true) : y = x := by
  simp only [List.all_cons, List.all_nil, Bool.and_true, Bool.and_eq_true, Bool.not_eq_true'] at e
  obtain ⟨e96, e97, e98, e99, e100, e101, e102, e103, e104, e105, e106, e107, e108, e109, e110, e111, e112, e113, e114,
      e115⟩ := e
  obtain ⟨h96, h97, h98, h99, h100, h101, h102, h103, h104, h105, h106, h107, h108, h109, h110, h111, h112, h113, h114,
      h115⟩ := h
  cases x; cases y
  have h96 := h96.resolve_left (fun e => Bool.false_ne_true (e96.symm.trans e))
  have h97 := h97.resolve_left (fun e => Bool.false_ne_true (e97.symm.trans e))
  have h98 := h98.resolve_left (fun e => Bool.false_ne_true (e98.symm.trans e))
  have h99 := h99.resolve_left (fun e => Bool.false_ne_true (e99.symm.trans e))
  have h100 := h100.resolve_left (fun e => Bool.false_ne_true (e100.symm.trans e))
  have h101 := h101.resolve_left (fun e => Bool.false_ne_true (e101.symm.trans e))
  have h102 := h102.resolve_left (fun e => Bool.false_ne_true (e102.symm.trans e))
  have h103 := h103.resolve_left (fun e => Bool.false_ne_true (e103.symm.trans e))
  have h104 := h104.resolve_left (fun e => Bool.false_ne_true (e104.symm.trans e))
  have h105 := h105.resolve_left (fun e => Bool.false_ne_true (e105.symm.trans e))
  have h106 := h106.resolve_left (fun e => Bool.false_ne_true (e106.symm.trans e))
  have h107 := h107.resolve_left (fun e => Bool.false_ne_true (e107.symm.trans e))
  have h108 := h108.resolve_left (fun e => Bool.false_ne_true (e108.symm.trans e))
  have h109 := h109.resolve_left (fun e => Bool.false_ne_true (e109.symm.trans e))
  have h110 := h110.resolve_left (fun e => Bool.false_ne_true (e110.symm.trans e))
  have h111 := h111.resolve_left (fun e => Bool.false_ne_true (e111.symm.trans e))
  have h112 := h112.resolve_left (fun e => Bool.false_ne_true (e112.symm.trans e))
  have h113 := h113.resolve_left (fun e => Bool.false_ne_true (e113.symm.trans e))
  have h114 := h114.resolve_left (fun e => Bool.false_ne_true (e114.symm.trans e))
  have h115 := h115.resolve_left (fun e => Bool.false_ne_true (e115.symm.trans e))
  exact Fabric.mk.injEq .. ▸ ⟨h96, h97, h98, h99, h100, h101, h102, h103, h104, h105, h106, h107, h108, h109, h110, h111,
      h112, h113, h114, h115⟩

theorem OnlyRas.eq {m : Nat} {x y : Ras} (h : OnlyRas m x y)
    (e : ([.rasSources, .rasQueue, .rasW, .rasCons, .rasOvf, .rasIntLeft, .rasIntPend,
      .rasIntEnd] : List Leaf).all (fun p => !m.testBit p.ctorIdx) = true) : y = x := by
  simp only [List.all_cons, List.all_nil, Bool.and_true, Bool.and_eq_true, Bool.not_eq_true'] at e
  obtain ⟨e116, e117, e118, e119, e120, e121, e122, e123⟩ := e
  obtain ⟨h116, h117, h118, h119, h120, h121, h122, h123⟩ := h
  cases x; cases y
  have h116 := h116.resolve_left (fun e => Bool.false_ne_true (e116.symm.trans e))
  have h117 := h117.resolve_left (fun e => Bool.false_ne_true (e117.symm.trans e))
  have h118 := h118.resolve_left (fun e => Bool.false_ne_true (e118.symm.trans e))
  have h119 := h119.resolve_left (fun e => Bool.false_ne_true (e119.symm.trans e))
  have h120 := h120.resolve_left (fun e => Bool.false_ne_true (e120.symm.trans e))
  have h121 := h121.resolve_left (fun e => Bool.false_ne_true (e121.symm.trans e))
  have h122 := h122.resolve_left (fun e => Bool.false_ne_true (e122.symm.trans e))
  have h123 := h123.resolve_left (fun e => Bool.false_ne_true (e123.symm.trans e))
  exact Ras.mk.injEq .. ▸ ⟨h116, h117, h118, h119, h120, h121, h122, h123⟩

theorem OnlyCat.eq {m : Nat} {x y : Catalogue} (h : OnlyCat m x y)
    (e : ([.catCounters, .catRings, .catWaits, .catStarted, .catFrozen, .catFcause, .catDumpBusy, .catDumpFroze,
      .catWdQuiet, .catWbeat, .catFenceWin, .catSnaps,
      .catTrace] : List Leaf).all (fun p => !m.testBit p.ctorIdx) = true) : y = x := by
  simp only [List.all_cons, List.all_nil, Bool.and_true, Bool.and_eq_true, Bool.not_eq_true'] at e
  obtain ⟨e124, e125, e126, e127, e128, e129, e130, e131, e132, e133, e134, e135, e136⟩ := e
  obtain ⟨h124, h125, h126, h127, h128, h129, h130, h131, h132, h133, h134, h135, h136⟩ := h
  cases x; cases y
  have h124 := h124.resolve_left (fun e => Bool.false_ne_true (e124.symm.trans e))
  have h125 := h125.resolve_left (fun e => Bool.false_ne_true (e125.symm.trans e))
  have h126 := h126.resolve_left (fun e => Bool.false_ne_true (e126.symm.trans e))
  have h127 := h127.resolve_left (fun e => Bool.false_ne_true (e127.symm.trans e))
  have h128 := h128.resolve_left (fun e => Bool.false_ne_true (e128.symm.trans e))
  have h129 := h129.resolve_left (fun e => Bool.false_ne_true (e129.symm.trans e))
  have h130 := h130.resolve_left (fun e => Bool.false_ne_true (e130.symm.trans e))
  have h131 := h131.resolve_left (fun e => Bool.false_ne_true (e131.symm.trans e))
  have h132 := h132.resolve_left (fun e => Bool.false_ne_true (e132.symm.trans e))
  have h133 := h133.resolve_left (fun e => Bool.false_ne_true (e133.symm.trans e))
  have h134 := h134.resolve_left (fun e => Bool.false_ne_true (e134.symm.trans e))
  have h135 := h135.resolve_left (fun e => Bool.false_ne_true (e135.symm.trans e))
  have h136 := h136.resolve_left (fun e => Bool.false_ne_true (e136.symm.trans e))
  exact Catalogue.mk.injEq .. ▸ ⟨h124, h125, h126, h127, h128, h129, h130, h131, h132, h133, h134, h135, h136⟩

theorem OnlySec.eq {m : Nat} {x y : Security} (h : OnlySec m x y)
    (e : ([.secSt, .secCause, .secSlot, .secTrial, .secDebug, .secImage, .secSeeded, .secGenKey, .secTdis, .secSessions,
      .secSpdm, .secIdes, .secMeasured, .secUpdate, .secEvents, .secEid, .flashDir0, .flashDir1, .flashRep0, .flashRep1,
      .flashRpmc, .flashRpmcKey, .flashCert1,
      .flashSlots] : List Leaf).all (fun p => !m.testBit p.ctorIdx) = true) : y = x := by
  simp only [List.all_cons, List.all_nil, Bool.and_true, Bool.and_eq_true, Bool.not_eq_true'] at e
  obtain ⟨e137, e138, e139, e140, e141, e142, e143, e144, e145, e146, e147, e148, e149, e150, e151, e152, e153, e154, e155,
      e156, e157, e158, e159, e160⟩ := e
  obtain ⟨h137, h138, h139, h140, h141, h142, h143, h144, h145, h146, h147, h148, h149, h150, h151, h152, hs⟩ := h
  have hs := hs.eq (by simp only [List.all_cons, List.all_nil, Bool.and_true, Bool.and_eq_true,
      Bool.not_eq_true']; exact ⟨e153, e154, e155, e156, e157, e158, e159, e160⟩)
  cases x; cases y
  have h137 := h137.resolve_left (fun e => Bool.false_ne_true (e137.symm.trans e))
  have h138 := h138.resolve_left (fun e => Bool.false_ne_true (e138.symm.trans e))
  have h139 := h139.resolve_left (fun e => Bool.false_ne_true (e139.symm.trans e))
  have h140 := h140.resolve_left (fun e => Bool.false_ne_true (e140.symm.trans e))
  have h141 := h141.resolve_left (fun e => Bool.false_ne_true (e141.symm.trans e))
  have h142 := h142.resolve_left (fun e => Bool.false_ne_true (e142.symm.trans e))
  have h143 := h143.resolve_left (fun e => Bool.false_ne_true (e143.symm.trans e))
  have h144 := h144.resolve_left (fun e => Bool.false_ne_true (e144.symm.trans e))
  have h145 := h145.resolve_left (fun e => Bool.false_ne_true (e145.symm.trans e))
  have h146 := h146.resolve_left (fun e => Bool.false_ne_true (e146.symm.trans e))
  have h147 := h147.resolve_left (fun e => Bool.false_ne_true (e147.symm.trans e))
  have h148 := h148.resolve_left (fun e => Bool.false_ne_true (e148.symm.trans e))
  have h149 := h149.resolve_left (fun e => Bool.false_ne_true (e149.symm.trans e))
  have h150 := h150.resolve_left (fun e => Bool.false_ne_true (e150.symm.trans e))
  have h151 := h151.resolve_left (fun e => Bool.false_ne_true (e151.symm.trans e))
  have h152 := h152.resolve_left (fun e => Bool.false_ne_true (e152.symm.trans e))
  exact Security.mk.injEq .. ▸ ⟨h137, h138, h139, h140, h141, h142, h143, h144, h145, h146, h147, h148, h149, h150, h151,
      h152, hs⟩

theorem OnlyM.lit_dmaWrEng {m : Nat} {s t : State} {x0} (h : OnlyM m s t) (i : mask [.dmaWrEng] ||| m = m) :
    OnlyM m s { t with dma := { t.dma with wrEng := x0 } } :=
  { h with dma := { h.dma with wrEng := .inl (bitOf i (by decide)) } }

theorem OnlyM.lit_dmaStops {m : Nat} {s t : State} {x0} (h : OnlyM m s t) (i : mask [.dmaStops] ||| m = m) :
    OnlyM m s { t with dma := { t.dma with stops := x0 } } :=
  { h with dma := { h.dma with stops := .inl (bitOf i (by decide)) } }

theorem OnlyM.lit_tiersMigs {m : Nat} {s t : State} {x0} (h : OnlyM m s t) (i : mask [.tiersMigs] ||| m = m) :
    OnlyM m s { t with tiers := { t.tiers with migs := x0 } } :=
  { h with tiers := { h.tiers with migs := .inl (bitOf i (by decide)) } }

theorem OnlyM.lit_docPolicies {m : Nat} {s t : State} {x0} (h : OnlyM m s t) (i : mask [.docPolicies] ||| m = m) :
    OnlyM m s { t with doc := { t.doc with policies := x0 } } :=
  { h with doc := { h.doc with policies := .inl (bitOf i (by decide)) } }

theorem OnlyM.lit_docCgroups {m : Nat} {s t : State} {x0} (h : OnlyM m s t) (i : mask [.docCgroups] ||| m = m) :
    OnlyM m s { t with doc := { t.doc with cgroups := x0 } } :=
  { h with doc := { h.doc with cgroups := .inl (bitOf i (by decide)) } }

theorem OnlyM.lit_curForks {m : Nat} {s t : State} {x0} (h : OnlyM m s t) (i : mask [.curForks] ||| m = m) :
    OnlyM m s { t with cur := { t.cur with forks := x0 } } :=
  { h with cur := { h.cur with forks := .inl (bitOf i (by decide)) } }

theorem OnlyM.lit_tiersMaps {m : Nat} {s t : State} {x0} (h : OnlyM m s t) (i : mask [.tiersMaps] ||| m = m) :
    OnlyM m s { t with tiers := { t.tiers with maps := x0 } } :=
  { h with tiers := { h.tiers with maps := .inl (bitOf i (by decide)) } }

theorem OnlyM.lit_all7 {m : Nat} {s t : State} {x0 x1 x2 x3 x4 x5 x6 x7 x8 x9 x10 x11 x12 x13 x14 x15 x16 x17 x18 x19 x20}
      (h : OnlyM m s t) (i : mask [.hifOwed, .dmaOps, .dmaStops, .dmaRdEng, .dmaWrEng, .docAppends, .tiersWriteQ, .cores,
      .chans, .plinths, .fins, .outBases, .annexQueue, .annexRunning, .annexBank0, .annexBank1, .fabCarLoads, .fabColls,
      .catWaits, .catStarted, .hubOps] ||| m = m) :
    OnlyM m s { t with hif := { t.hif with owed := x0 }, dma := { t.dma with ops := x1, stops := x2, rdEng := x3, wrEng := x4 }, doc := { t.doc with appends := x5 }, tiers := { t.tiers with writeQ := x6 }, cores := x7, chans := x8, plinths := x9, fins := x10, outBases := x11, annex := { t.annex with queue := x12, running := x13, bank0 := x14, bank1 := x15 }, fab := { t.fab with carLoads := x16, colls := x17 }, cat := { t.cat with waits := x18, started := x19 }, hubOps := x20 } :=
  { h with hif := { h.hif with owed := .inl (bitOf i (by decide)) }, dma := { h.dma with ops := .inl (bitOf i (by decide)), stops := .inl (bitOf i (by decide)), rdEng := .inl (bitOf i (by decide)), wrEng := .inl (bitOf i (by decide)) }, doc := { h.doc with appends := .inl (bitOf i (by decide)) }, tiers := { h.tiers with writeQ := .inl (bitOf i (by decide)) }, cores := .inl (bitOf i (by decide)), chans := .inl (bitOf i (by decide)), plinths := .inl (bitOf i (by decide)), fins := .inl (bitOf i (by decide)), outBases := .inl (bitOf i (by decide)), annex := { h.annex with queue := .inl (bitOf i (by decide)), running := .inl (bitOf i (by decide)), bank0 := .inl (bitOf i (by decide)), bank1 := .inl (bitOf i (by decide)) }, fab := { h.fab with carLoads := .inl (bitOf i (by decide)), colls := .inl (bitOf i (by decide)) }, cat := { h.cat with waits := .inl (bitOf i (by decide)), started := .inl (bitOf i (by decide)) }, hubOps := .inl (bitOf i (by decide)) }

theorem OnlyM.lit_fabSerial {m : Nat} {s t : State} {x0} (h : OnlyM m s t) (i : mask [.fabSerial] ||| m = m) :
    OnlyM m s { t with fab := { t.fab with serial := x0 } } :=
  { h with fab := { h.fab with serial := .inl (bitOf i (by decide)) } }

theorem OnlyM.lit_catCounters {m : Nat} {s t : State} {x0} (h : OnlyM m s t) (i : mask [.catCounters] ||| m = m) :
    OnlyM m s { t with cat := { t.cat with counters := x0 } } :=
  { h with cat := { h.cat with counters := .inl (bitOf i (by decide)) } }

theorem OnlyM.lit_rasW_rasCons {m : Nat} {s t : State} {x0 x1} (h : OnlyM m s t) (i : mask [.rasW, .rasCons] ||| m = m) :
    OnlyM m s { t with ras := { t.ras with w := x0, cons := x1 } } :=
  { h with ras := { h.ras with w := .inl (bitOf i (by decide)), cons := .inl (bitOf i (by decide)) } }

theorem OnlyM.lit_fabBeat {m : Nat} {s t : State} {x0} (h : OnlyM m s t) (i : mask [.fabBeat] ||| m = m) :
    OnlyM m s { t with fab := { t.fab with beat := x0 } } :=
  { h with fab := { h.fab with beat := .inl (bitOf i (by decide)) } }

theorem OnlyM.lit_curMoves {m : Nat} {s t : State} {x0} (h : OnlyM m s t) (i : mask [.curMoves] ||| m = m) :
    OnlyM m s { t with cur := { t.cur with moves := x0 } } :=
  { h with cur := { h.cur with moves := .inl (bitOf i (by decide)) } }

theorem OnlyM.lit_hifOwed_docOwedNotices {m : Nat} {s t : State} {x0 x1} (h : OnlyM m s t) (i : mask [.hifOwed,
      .docOwedNotices] ||| m = m) :
    OnlyM m s { t with hif := { t.hif with owed := x0 }, doc := { t.doc with owedNotices := x1 } } :=
  { h with hif := { h.hif with owed := .inl (bitOf i (by decide)) }, doc := { h.doc with owedNotices := .inl (bitOf i (by decide)) } }

theorem OnlyM.lit_curPages {m : Nat} {s t : State} {x0} (h : OnlyM m s t) (i : mask [.curPages] ||| m = m) :
    OnlyM m s { t with cur := { t.cur with pages := x0 } } :=
  { h with cur := { h.cur with pages := .inl (bitOf i (by decide)) } }

theorem OnlyM.lit_ctlRepDirty {m : Nat} {s t : State} {x0} (h : OnlyM m s t) (i : mask [.ctlRepDirty] ||| m = m) :
    OnlyM m s { t with ctl := { t.ctl with repDirty := x0 } } :=
  { h with ctl := { h.ctl with repDirty := .inl (bitOf i (by decide)) } }

theorem OnlyM.lit_all16 {m : Nat} {s t : State} {x0 x1 x2 x3 x4 x5 x6} (h : OnlyM m s t) (i : mask [.ctlSt, .ctlBootStep,
      .secSt, .secCause, .secSlot, .secTrial, .secImage] ||| m = m) :
    OnlyM m s { t with ctl := { t.ctl with st := x0, bootStep := x1 }, sec := { t.sec with st := x2, cause := x3, slot := x4, trial := x5, image := x6 } } :=
  { h with ctl := { h.ctl with st := .inl (bitOf i (by decide)), bootStep := .inl (bitOf i (by decide)) }, sec := { h.sec with st := .inl (bitOf i (by decide)), cause := .inl (bitOf i (by decide)), slot := .inl (bitOf i (by decide)), trial := .inl (bitOf i (by decide)), image := .inl (bitOf i (by decide)) } }

theorem OnlyM.lit_catTrace {m : Nat} {s t : State} {x0} (h : OnlyM m s t) (i : mask [.catTrace] ||| m = m) :
    OnlyM m s { t with cat := { t.cat with trace := x0 } } :=
  { h with cat := { h.cat with trace := .inl (bitOf i (by decide)) } }

theorem OnlyM.lit_hifFences {m : Nat} {s t : State} {x0} (h : OnlyM m s t) (i : mask [.hifFences] ||| m = m) :
    OnlyM m s { t with hif := { t.hif with fences := x0 } } :=
  { h with hif := { h.hif with fences := .inl (bitOf i (by decide)) } }

theorem OnlyM.lit_curStaged {m : Nat} {s t : State} {x0} (h : OnlyM m s t) (i : mask [.curStaged] ||| m = m) :
    OnlyM m s { t with cur := { t.cur with staged := x0 } } :=
  { h with cur := { h.cur with staged := .inl (bitOf i (by decide)) } }

theorem OnlyM.lit_rasQueue {m : Nat} {s t : State} {x0} (h : OnlyM m s t) (i : mask [.rasQueue] ||| m = m) :
    OnlyM m s { t with ras := { t.ras with queue := x0 } } :=
  { h with ras := { h.ras with queue := .inl (bitOf i (by decide)) } }

theorem OnlyM.lit_cores_catFenceWin {m : Nat} {s t : State} {x0 x1} (h : OnlyM m s t) (i : mask [.cores,
      .catFenceWin] ||| m = m) :
    OnlyM m s { t with cores := x0, cat := { t.cat with fenceWin := x1 } } :=
  { h with cores := .inl (bitOf i (by decide)), cat := { h.cat with fenceWin := .inl (bitOf i (by decide)) } }

theorem OnlyM.lit_annexFail {m : Nat} {s t : State} {x0} (h : OnlyM m s t) (i : mask [.annexFail] ||| m = m) :
    OnlyM m s { t with annex := { t.annex with fail := x0 } } :=
  { h with annex := { h.annex with fail := .inl (bitOf i (by decide)) } }

theorem OnlyM.lit_ctlBootStep {m : Nat} {s t : State} {x0} (h : OnlyM m s t) (i : mask [.ctlBootStep] ||| m = m) :
    OnlyM m s { t with ctl := { t.ctl with bootStep := x0 } } :=
  { h with ctl := { h.ctl with bootStep := .inl (bitOf i (by decide)) } }

theorem OnlyM.lit_regs_inForce {m : Nat} {s t : State} {x0 x1} (h : OnlyM m s t) (i : mask [.regs, .inForce] ||| m = m) :
    OnlyM m s { t with regs := x0, inForce := x1 } :=
  { h with regs := .inl (bitOf i (by decide)), inForce := .inl (bitOf i (by decide)) }

theorem OnlyM.lit_docGroups {m : Nat} {s t : State} {x0} (h : OnlyM m s t) (i : mask [.docGroups] ||| m = m) :
    OnlyM m s { t with doc := { t.doc with groups := x0 } } :=
  { h with doc := { h.doc with groups := .inl (bitOf i (by decide)) } }

theorem OnlyM.lit_fabCarLoads {m : Nat} {s t : State} {x0} (h : OnlyM m s t) (i : mask [.fabCarLoads] ||| m = m) :
    OnlyM m s { t with fab := { t.fab with carLoads := x0 } } :=
  { h with fab := { h.fab with carLoads := .inl (bitOf i (by decide)) } }

theorem OnlyM.lit_fabCarPend {m : Nat} {s t : State} {x0} (h : OnlyM m s t) (i : mask [.fabCarPend] ||| m = m) :
    OnlyM m s { t with fab := { t.fab with carPend := x0 } } :=
  { h with fab := { h.fab with carPend := .inl (bitOf i (by decide)) } }

theorem OnlyM.lit_hifConsNext {m : Nat} {s t : State} {x0} (h : OnlyM m s t) (i : mask [.hifConsNext] ||| m = m) :
    OnlyM m s { t with hif := { t.hif with consNext := x0 } } :=
  { h with hif := { h.hif with consNext := .inl (bitOf i (by decide)) } }

theorem OnlyM.lit_docPolicies_docOvercommit_docSuspended {m : Nat} {s t : State} {x0 x1 x2} (h : OnlyM m s t) (i : mask
      [.docPolicies, .docOvercommit, .docSuspended] ||| m = m) :
    OnlyM m s { t with doc := { t.doc with policies := x0, overcommit := x1, suspended := x2 } } :=
  { h with doc := { h.doc with policies := .inl (bitOf i (by decide)), overcommit := .inl (bitOf i (by decide)), suspended := .inl (bitOf i (by decide)) } }

theorem OnlyM.lit_fabMacsec {m : Nat} {s t : State} {x0} (h : OnlyM m s t) (i : mask [.fabMacsec] ||| m = m) :
    OnlyM m s { t with fab := { t.fab with macsec := x0 } } :=
  { h with fab := { h.fab with macsec := .inl (bitOf i (by decide)) } }

theorem OnlyM.lit_ctlCores {m : Nat} {s t : State} {x0} (h : OnlyM m s t) (i : mask [.ctlCores] ||| m = m) :
    OnlyM m s { t with ctl := { t.ctl with cores := x0 } } :=
  { h with ctl := { h.ctl with cores := .inl (bitOf i (by decide)) } }

theorem OnlyM.lit_flashSlots {m : Nat} {s t : State} {x0} (h : OnlyM m s t) (i : mask [.flashSlots] ||| m = m) :
    OnlyM m s { t with sec := { t.sec with flash := { t.sec.flash with slots := x0 } } } :=
  { h with sec := { h.sec with flash := { h.sec.flash with slots := .inl (bitOf i (by decide)) } } }

theorem OnlyM.lit_ctlPower_ctlThermTrip {m : Nat} {s t : State} {x0 x1} (h : OnlyM m s t) (i : mask [.ctlPower,
      .ctlThermTrip] ||| m = m) :
    OnlyM m s { t with ctl := { t.ctl with power := x0, thermTrip := x1 } } :=
  { h with ctl := { h.ctl with power := .inl (bitOf i (by decide)), thermTrip := .inl (bitOf i (by decide)) } }

theorem OnlyM.lit_all34 {m : Nat} {s t : State} {x0 x1 x2 x3 x4 x5 x6 x7} (h : OnlyM m s t) (i : mask [.regs, .hifRings,
      .hifInflight, .hifFences, .hifPoll, .hifOwedVecs, .hifInReset, .hifOwed] ||| m = m) :
    OnlyM m s { t with regs := x0, hif := { t.hif with rings := x1, inflight := x2, fences := x3, poll := x4, owedVecs := x5, inReset := x6, owed := x7 } } :=
  { h with regs := .inl (bitOf i (by decide)), hif := { h.hif with rings := .inl (bitOf i (by decide)), inflight := .inl (bitOf i (by decide)), fences := .inl (bitOf i (by decide)), poll := .inl (bitOf i (by decide)), owedVecs := .inl (bitOf i (by decide)), inReset := .inl (bitOf i (by decide)), owed := .inl (bitOf i (by decide)) } }

theorem OnlyM.lit_cores {m : Nat} {s t : State} {x0} (h : OnlyM m s t) (i : mask [.cores] ||| m = m) :
    OnlyM m s { t with cores := x0 } :=
  { h with cores := .inl (bitOf i (by decide)) }

theorem OnlyM.lit_fabWindows {m : Nat} {s t : State} {x0} (h : OnlyM m s t) (i : mask [.fabWindows] ||| m = m) :
    OnlyM m s { t with fab := { t.fab with windows := x0 } } :=
  { h with fab := { h.fab with windows := .inl (bitOf i (by decide)) } }

theorem OnlyM.lit_fabArrOrder {m : Nat} {s t : State} {x0} (h : OnlyM m s t) (i : mask [.fabArrOrder] ||| m = m) :
    OnlyM m s { t with fab := { t.fab with arrOrder := x0 } } :=
  { h with fab := { h.fab with arrOrder := .inl (bitOf i (by decide)) } }

theorem OnlyM.lit_annexRunning {m : Nat} {s t : State} {x0} (h : OnlyM m s t) (i : mask [.annexRunning] ||| m = m) :
    OnlyM m s { t with annex := { t.annex with running := x0 } } :=
  { h with annex := { h.annex with running := .inl (bitOf i (by decide)) } }

theorem OnlyM.lit_curCows {m : Nat} {s t : State} {x0} (h : OnlyM m s t) (i : mask [.curCows] ||| m = m) :
    OnlyM m s { t with cur := { t.cur with cows := x0 } } :=
  { h with cur := { h.cur with cows := .inl (bitOf i (by decide)) } }

theorem OnlyM.lit_docOvercommit_docSuspended {m : Nat} {s t : State} {x0 x1} (h : OnlyM m s t) (i : mask [.docOvercommit,
      .docSuspended] ||| m = m) :
    OnlyM m s { t with doc := { t.doc with overcommit := x0, suspended := x1 } } :=
  { h with doc := { h.doc with overcommit := .inl (bitOf i (by decide)), suspended := .inl (bitOf i (by decide)) } }

theorem OnlyM.lit_rasSources {m : Nat} {s t : State} {x0} (h : OnlyM m s t) (i : mask [.rasSources] ||| m = m) :
    OnlyM m s { t with ras := { t.ras with sources := x0 } } :=
  { h with ras := { h.ras with sources := .inl (bitOf i (by decide)) } }

theorem OnlyM.lit_inForce {m : Nat} {s t : State} {x0} (h : OnlyM m s t) (i : mask [.inForce] ||| m = m) :
    OnlyM m s { t with inForce := x0 } :=
  { h with inForce := .inl (bitOf i (by decide)) }

theorem OnlyM.lit_tiersObjs_tiersPanels_tiersRepairs {m : Nat} {s t : State} {x0 x1 x2} (h : OnlyM m s t) (i : mask
      [.tiersObjs, .tiersPanels, .tiersRepairs] ||| m = m) :
    OnlyM m s { t with tiers := { t.tiers with objs := x0, panels := x1, repairs := x2 } } :=
  { h with tiers := { h.tiers with objs := .inl (bitOf i (by decide)), panels := .inl (bitOf i (by decide)), repairs := .inl (bitOf i (by decide)) } }

theorem OnlyM.lit_hubOps {m : Nat} {s t : State} {x0} (h : OnlyM m s t) (i : mask [.hubOps] ||| m = m) :
    OnlyM m s { t with hubOps := x0 } :=
  { h with hubOps := .inl (bitOf i (by decide)) }

theorem OnlyM.lit_secTdis {m : Nat} {s t : State} {x0} (h : OnlyM m s t) (i : mask [.secTdis] ||| m = m) :
    OnlyM m s { t with sec := { t.sec with tdis := x0 } } :=
  { h with sec := { h.sec with tdis := .inl (bitOf i (by decide)) } }

theorem OnlyM.lit_docAppends {m : Nat} {s t : State} {x0} (h : OnlyM m s t) (i : mask [.docAppends] ||| m = m) :
    OnlyM m s { t with doc := { t.doc with appends := x0 } } :=
  { h with doc := { h.doc with appends := .inl (bitOf i (by decide)) } }

theorem OnlyM.lit_regs {m : Nat} {s t : State} {x0} (h : OnlyM m s t) (i : mask [.regs] ||| m = m) :
    OnlyM m s { t with regs := x0 } :=
  { h with regs := .inl (bitOf i (by decide)) }

theorem OnlyM.lit_docReleases {m : Nat} {s t : State} {x0} (h : OnlyM m s t) (i : mask [.docReleases] ||| m = m) :
    OnlyM m s { t with doc := { t.doc with releases := x0 } } :=
  { h with doc := { h.doc with releases := .inl (bitOf i (by decide)) } }

theorem OnlyM.lit_fabPendNotices {m : Nat} {s t : State} {x0} (h : OnlyM m s t) (i : mask [.fabPendNotices] ||| m = m) :
    OnlyM m s { t with fab := { t.fab with pendNotices := x0 } } :=
  { h with fab := { h.fab with pendNotices := .inl (bitOf i (by decide)) } }

theorem OnlyM.lit_hifPoll {m : Nat} {s t : State} {x0} (h : OnlyM m s t) (i : mask [.hifPoll] ||| m = m) :
    OnlyM m s { t with hif := { t.hif with poll := x0 } } :=
  { h with hif := { h.hif with poll := .inl (bitOf i (by decide)) } }

theorem OnlyM.lit_tiersRepairs {m : Nat} {s t : State} {x0} (h : OnlyM m s t) (i : mask [.tiersRepairs] ||| m = m) :
    OnlyM m s { t with tiers := { t.tiers with repairs := x0 } } :=
  { h with tiers := { h.tiers with repairs := .inl (bitOf i (by decide)) } }

theorem OnlyM.lit_ctlCBusy_ctlCSeq {m : Nat} {s t : State} {x0 x1} (h : OnlyM m s t) (i : mask [.ctlCBusy,
      .ctlCSeq] ||| m = m) :
    OnlyM m s { t with ctl := { t.ctl with cBusy := x0, cSeq := x1 } } :=
  { h with ctl := { h.ctl with cBusy := .inl (bitOf i (by decide)), cSeq := .inl (bitOf i (by decide)) } }

theorem OnlyM.lit_tiersMoving {m : Nat} {s t : State} {x0} (h : OnlyM m s t) (i : mask [.tiersMoving] ||| m = m) :
    OnlyM m s { t with tiers := { t.tiers with moving := x0 } } :=
  { h with tiers := { h.tiers with moving := .inl (bitOf i (by decide)) } }

theorem OnlyM.lit_nextOp {m : Nat} {s t : State} {x0} (h : OnlyM m s t) (i : mask [.nextOp] ||| m = m) :
    OnlyM m s { t with nextOp := x0 } :=
  { h with nextOp := .inl (bitOf i (by decide)) }

theorem OnlyM.lit_hifInflight {m : Nat} {s t : State} {x0} (h : OnlyM m s t) (i : mask [.hifInflight] ||| m = m) :
    OnlyM m s { t with hif := { t.hif with inflight := x0 } } :=
  { h with hif := { h.hif with inflight := .inl (bitOf i (by decide)) } }

theorem OnlyM.lit_fabQuiesces {m : Nat} {s t : State} {x0} (h : OnlyM m s t) (i : mask [.fabQuiesces] ||| m = m) :
    OnlyM m s { t with fab := { t.fab with quiesces := x0 } } :=
  { h with fab := { h.fab with quiesces := .inl (bitOf i (by decide)) } }

theorem OnlyM.lit_all57 {m : Nat} {s t : State} {x0 x1 x2 x3 x4 x5 x6} (h : OnlyM m s t) (i : mask [.dmaOps, .dmaStops,
      .dmaNextOpid, .dmaLastRd, .dmaLastWr, .dmaRdEng, .dmaWrEng] ||| m = m) :
    OnlyM m s { t with dma := { t.dma with ops := x0, stops := x1, nextOpid := x2, lastRd := x3, lastWr := x4, rdEng := x5, wrEng := x6 } } :=
  { h with dma := { h.dma with ops := .inl (bitOf i (by decide)), stops := .inl (bitOf i (by decide)), nextOpid := .inl (bitOf i (by decide)), lastRd := .inl (bitOf i (by decide)), lastWr := .inl (bitOf i (by decide)), rdEng := .inl (bitOf i (by decide)), wrEng := .inl (bitOf i (by decide)) } }

theorem OnlyM.lit_catDumpBusy_catDumpFroze {m : Nat} {s t : State} {x0 x1} (h : OnlyM m s t) (i : mask [.catDumpBusy,
      .catDumpFroze] ||| m = m) :
    OnlyM m s { t with cat := { t.cat with dumpBusy := x0, dumpFroze := x1 } } :=
  { h with cat := { h.cat with dumpBusy := .inl (bitOf i (by decide)), dumpFroze := .inl (bitOf i (by decide)) } }

theorem OnlyM.lit_all59 {m : Nat} {s t : State} {x0 x1 x2 x3 x4 x5 x6 x7 x8 x9 x10 x11 x12} (h : OnlyM m s t) (i : mask
      [.curPages, .curFrames, .curMaps, .curLimbo, .curCows, .curForks, .curMoves, .curLost, .curLostCtx, .curRetired,
      .curStaged, .curFreed, .curFresh] ||| m = m) :
    OnlyM m s { t with cur := { t.cur with pages := x0, frames := x1, maps := x2, limbo := x3, cows := x4, forks := x5, moves := x6, lost := x7, lostCtx := x8, retired := x9, staged := x10, freed := x11, fresh := x12 } } :=
  { h with cur := { h.cur with pages := .inl (bitOf i (by decide)), frames := .inl (bitOf i (by decide)), maps := .inl (bitOf i (by decide)), limbo := .inl (bitOf i (by decide)), cows := .inl (bitOf i (by decide)), forks := .inl (bitOf i (by decide)), moves := .inl (bitOf i (by decide)), lost := .inl (bitOf i (by decide)), lostCtx := .inl (bitOf i (by decide)), retired := .inl (bitOf i (by decide)), staged := .inl (bitOf i (by decide)), freed := .inl (bitOf i (by decide)), fresh := .inl (bitOf i (by decide)) } }

theorem OnlyM.lit_dmaRdEng {m : Nat} {s t : State} {x0} (h : OnlyM m s t) (i : mask [.dmaRdEng] ||| m = m) :
    OnlyM m s { t with dma := { t.dma with rdEng := x0 } } :=
  { h with dma := { h.dma with rdEng := .inl (bitOf i (by decide)) } }

theorem OnlyM.lit_dmaLastRd_dmaRdEng {m : Nat} {s t : State} {x0 x1} (h : OnlyM m s t) (i : mask [.dmaLastRd,
      .dmaRdEng] ||| m = m) :
    OnlyM m s { t with dma := { t.dma with lastRd := x0, rdEng := x1 } } :=
  { h with dma := { h.dma with lastRd := .inl (bitOf i (by decide)), rdEng := .inl (bitOf i (by decide)) } }

theorem OnlyM.lit_mem_chk {m : Nat} {s t : State} {x0 x1} (h : OnlyM m s t) (i : mask [.mem,
      .chk] ||| m = m) (e : Memory.wf t.mem = true → Memory.wf x0 = true) :
    OnlyM m s { t with mem := x0, chk := x1 } :=
  { h with mem := .inl (bitOf i (by decide)), chk := .inl (bitOf i (by decide)), memOk := fun q => e (h.memOk q) }

theorem OnlyM.lit_tiersT0used {m : Nat} {s t : State} {x0} (h : OnlyM m s t) (i : mask [.tiersT0used] ||| m = m) :
    OnlyM m s { t with tiers := { t.tiers with t0used := x0 } } :=
  { h with tiers := { h.tiers with t0used := .inl (bitOf i (by decide)) } }

theorem OnlyM.lit_chk {m : Nat} {s t : State} {x0} (h : OnlyM m s t) (i : mask [.chk] ||| m = m) :
    OnlyM m s { t with chk := x0 } :=
  { h with chk := .inl (bitOf i (by decide)) }

theorem OnlyM.lit_tiersWriteQ {m : Nat} {s t : State} {x0} (h : OnlyM m s t) (i : mask [.tiersWriteQ] ||| m = m) :
    OnlyM m s { t with tiers := { t.tiers with writeQ := x0 } } :=
  { h with tiers := { h.tiers with writeQ := .inl (bitOf i (by decide)) } }

theorem OnlyM.lit_fins {m : Nat} {s t : State} {x0} (h : OnlyM m s t) (i : mask [.fins] ||| m = m) :
    OnlyM m s { t with fins := x0 } :=
  { h with fins := .inl (bitOf i (by decide)) }

theorem OnlyM.lit_catStarted {m : Nat} {s t : State} {x0} (h : OnlyM m s t) (i : mask [.catStarted] ||| m = m) :
    OnlyM m s { t with cat := { t.cat with started := x0 } } :=
  { h with cat := { h.cat with started := .inl (bitOf i (by decide)) } }

theorem OnlyM.lit_catSnaps {m : Nat} {s t : State} {x0} (h : OnlyM m s t) (i : mask [.catSnaps] ||| m = m) :
    OnlyM m s { t with cat := { t.cat with snaps := x0 } } :=
  { h with cat := { h.cat with snaps := .inl (bitOf i (by decide)) } }

theorem OnlyM.lit_secTrial_flashRpmc {m : Nat} {s t : State} {x0 x1} (h : OnlyM m s t) (i : mask [.secTrial,
      .flashRpmc] ||| m = m) :
    OnlyM m s { t with sec := { t.sec with trial := x0, flash := { t.sec.flash with rpmc := x1 } } } :=
  { h with sec := { h.sec with trial := .inl (bitOf i (by decide)), flash := { h.sec.flash with rpmc := .inl (bitOf i (by decide)) } } }

theorem OnlyM.lit_rasIntPend {m : Nat} {s t : State} {x0} (h : OnlyM m s t) (i : mask [.rasIntPend] ||| m = m) :
    OnlyM m s { t with ras := { t.ras with intPend := x0 } } :=
  { h with ras := { h.ras with intPend := .inl (bitOf i (by decide)) } }

theorem OnlyM.lit_dmaOps_tiersWriteQ {m : Nat} {s t : State} {x0 x1} (h : OnlyM m s t) (i : mask [.dmaOps,
      .tiersWriteQ] ||| m = m) :
    OnlyM m s { t with dma := { t.dma with ops := x0 }, tiers := { t.tiers with writeQ := x1 } } :=
  { h with dma := { h.dma with ops := .inl (bitOf i (by decide)) }, tiers := { h.tiers with writeQ := .inl (bitOf i (by decide)) } }

theorem OnlyM.lit_ctlRepCols {m : Nat} {s t : State} {x0} (h : OnlyM m s t) (i : mask [.ctlRepCols] ||| m = m) :
    OnlyM m s { t with ctl := { t.ctl with repCols := x0 } } :=
  { h with ctl := { h.ctl with repCols := .inl (bitOf i (by decide)) } }

theorem OnlyM.lit_bad {m : Nat} {s t : State} {x0} (h : OnlyM m s t) (i : mask [.bad] ||| m = m) :
    OnlyM m s { t with bad := x0 } :=
  { h with bad := .inl (bitOf i (by decide)) }

theorem OnlyM.lit_curLost {m : Nat} {s t : State} {x0} (h : OnlyM m s t) (i : mask [.curLost] ||| m = m) :
    OnlyM m s { t with cur := { t.cur with lost := x0 } } :=
  { h with cur := { h.cur with lost := .inl (bitOf i (by decide)) } }

theorem OnlyM.lit_curLostCtx {m : Nat} {s t : State} {x0} (h : OnlyM m s t) (i : mask [.curLostCtx] ||| m = m) :
    OnlyM m s { t with cur := { t.cur with lostCtx := x0 } } :=
  { h with cur := { h.cur with lostCtx := .inl (bitOf i (by decide)) } }

theorem OnlyM.lit_hifOwed {m : Nat} {s t : State} {x0} (h : OnlyM m s t) (i : mask [.hifOwed] ||| m = m) :
    OnlyM m s { t with hif := { t.hif with owed := x0 } } :=
  { h with hif := { h.hif with owed := .inl (bitOf i (by decide)) } }

theorem OnlyM.lit_catWdQuiet {m : Nat} {s t : State} {x0} (h : OnlyM m s t) (i : mask [.catWdQuiet] ||| m = m) :
    OnlyM m s { t with cat := { t.cat with wdQuiet := x0 } } :=
  { h with cat := { h.cat with wdQuiet := .inl (bitOf i (by decide)) } }

theorem OnlyM.lit_dmaOps {m : Nat} {s t : State} {x0} (h : OnlyM m s t) (i : mask [.dmaOps] ||| m = m) :
    OnlyM m s { t with dma := { t.dma with ops := x0 } } :=
  { h with dma := { h.dma with ops := .inl (bitOf i (by decide)) } }

theorem OnlyM.lit_catWbeat {m : Nat} {s t : State} {x0} (h : OnlyM m s t) (i : mask [.catWbeat] ||| m = m) :
    OnlyM m s { t with cat := { t.cat with wbeat := x0 } } :=
  { h with cat := { h.cat with wbeat := .inl (bitOf i (by decide)) } }

theorem OnlyM.lit_annexQueue_annexRunning_annexBank0_annexBank1 {m : Nat} {s t : State} {x0 x1 x2 x3} (h : OnlyM m s t) (i
      : mask [.annexQueue, .annexRunning, .annexBank0, .annexBank1] ||| m = m) :
    OnlyM m s { t with annex := { t.annex with queue := x0, running := x1, bank0 := x2, bank1 := x3 } } :=
  { h with annex := { h.annex with queue := .inl (bitOf i (by decide)), running := .inl (bitOf i (by decide)), bank0 := .inl (bitOf i (by decide)), bank1 := .inl (bitOf i (by decide)) } }

theorem OnlyM.lit_hifInReset {m : Nat} {s t : State} {x0} (h : OnlyM m s t) (i : mask [.hifInReset] ||| m = m) :
    OnlyM m s { t with hif := { t.hif with inReset := x0 } } :=
  { h with hif := { h.hif with inReset := .inl (bitOf i (by decide)) } }

theorem OnlyM.lit_docAppends_docPolicies_docCancels_docReleases_docOwedNotices {m : Nat} {s t : State} {x0 x1 x2 x3 x4} (h
      : OnlyM m s t) (i : mask [.docAppends, .docPolicies, .docCancels, .docReleases, .docOwedNotices] ||| m = m) :
    OnlyM m s { t with doc := { t.doc with appends := x0, policies := x1, cancels := x2, releases := x3, owedNotices := x4 } } :=
  { h with doc := { h.doc with appends := .inl (bitOf i (by decide)), policies := .inl (bitOf i (by decide)), cancels := .inl (bitOf i (by decide)), releases := .inl (bitOf i (by decide)), owedNotices := .inl (bitOf i (by decide)) } }

theorem OnlyM.lit_ctlHcause {m : Nat} {s t : State} {x0} (h : OnlyM m s t) (i : mask [.ctlHcause] ||| m = m) :
    OnlyM m s { t with ctl := { t.ctl with hcause := x0 } } :=
  { h with ctl := { h.ctl with hcause := .inl (bitOf i (by decide)) } }

theorem OnlyM.lit_catFrozen_catFcause {m : Nat} {s t : State} {x0 x1} (h : OnlyM m s t) (i : mask [.catFrozen,
      .catFcause] ||| m = m) :
    OnlyM m s { t with cat := { t.cat with frozen := x0, fcause := x1 } } :=
  { h with cat := { h.cat with frozen := .inl (bitOf i (by decide)), fcause := .inl (bitOf i (by decide)) } }

theorem OnlyM.lit_secEvents {m : Nat} {s t : State} {x0} (h : OnlyM m s t) (i : mask [.secEvents] ||| m = m) :
    OnlyM m s { t with sec := { t.sec with events := x0 } } :=
  { h with sec := { h.sec with events := .inl (bitOf i (by decide)) } }

theorem OnlyM.lit_ctlHoldReq_ctlHolding {m : Nat} {s t : State} {x0 x1} (h : OnlyM m s t) (i : mask [.ctlHoldReq,
      .ctlHolding] ||| m = m) :
    OnlyM m s { t with ctl := { t.ctl with holdReq := x0, holding := x1 } } :=
  { h with ctl := { h.ctl with holdReq := .inl (bitOf i (by decide)), holding := .inl (bitOf i (by decide)) } }

theorem OnlyM.lit_tiersObjWait {m : Nat} {s t : State} {x0} (h : OnlyM m s t) (i : mask [.tiersObjWait] ||| m = m) :
    OnlyM m s { t with tiers := { t.tiers with objWait := x0 } } :=
  { h with tiers := { h.tiers with objWait := .inl (bitOf i (by decide)) } }

theorem OnlyM.lit_fabCarWait {m : Nat} {s t : State} {x0} (h : OnlyM m s t) (i : mask [.fabCarWait] ||| m = m) :
    OnlyM m s { t with fab := { t.fab with carWait := x0 } } :=
  { h with fab := { h.fab with carWait := .inl (bitOf i (by decide)) } }

theorem OnlyM.lit_fabCarMap_fabCarPend_fabCarWait {m : Nat} {s t : State} {x0 x1 x2} (h : OnlyM m s t) (i : mask
      [.fabCarMap, .fabCarPend, .fabCarWait] ||| m = m) :
    OnlyM m s { t with fab := { t.fab with carMap := x0, carPend := x1, carWait := x2 } } :=
  { h with fab := { h.fab with carMap := .inl (bitOf i (by decide)), carPend := .inl (bitOf i (by decide)), carWait := .inl (bitOf i (by decide)) } }

theorem OnlyM.lit_secUpdate {m : Nat} {s t : State} {x0} (h : OnlyM m s t) (i : mask [.secUpdate] ||| m = m) :
    OnlyM m s { t with sec := { t.sec with update := x0 } } :=
  { h with sec := { h.sec with update := .inl (bitOf i (by decide)) } }

theorem OnlyM.lit_ctlBootStep_secSeeded_secGenKey_free {m : Nat} {s t : State} {x0 x1 x2 x3} (h : OnlyM m s t) (i : mask
      [.ctlBootStep, .secSeeded, .secGenKey, .free] ||| m = m) :
    OnlyM m s { t with ctl := { t.ctl with bootStep := x0 }, sec := { t.sec with seeded := x1, genKey := x2 }, free := x3 } :=
  { h with ctl := { h.ctl with bootStep := .inl (bitOf i (by decide)) }, sec := { h.sec with seeded := .inl (bitOf i (by decide)), genKey := .inl (bitOf i (by decide)) }, free := .inl (bitOf i (by decide)) }

theorem OnlyM.lit_flashRpmc_flashRpmcKey {m : Nat} {s t : State} {x0 x1} (h : OnlyM m s t) (i : mask [.flashRpmc,
      .flashRpmcKey] ||| m = m) :
    OnlyM m s { t with sec := { t.sec with flash := { t.sec.flash with rpmc := x0, rpmcKey := x1 } } } :=
  { h with sec := { h.sec with flash := { h.sec.flash with rpmc := .inl (bitOf i (by decide)), rpmcKey := .inl (bitOf i (by decide)) } } }

theorem OnlyM.lit_fabLinks {m : Nat} {s t : State} {x0} (h : OnlyM m s t) (i : mask [.fabLinks] ||| m = m) :
    OnlyM m s { t with fab := { t.fab with links := x0 } } :=
  { h with fab := { h.fab with links := .inl (bitOf i (by decide)) } }

theorem OnlyM.lit_fabMacSend {m : Nat} {s t : State} {x0} (h : OnlyM m s t) (i : mask [.fabMacSend] ||| m = m) :
    OnlyM m s { t with fab := { t.fab with macSend := x0 } } :=
  { h with fab := { h.fab with macSend := .inl (bitOf i (by decide)) } }

theorem OnlyM.lit_ctlHoldReq {m : Nat} {s t : State} {x0} (h : OnlyM m s t) (i : mask [.ctlHoldReq] ||| m = m) :
    OnlyM m s { t with ctl := { t.ctl with holdReq := x0 } } :=
  { h with ctl := { h.ctl with holdReq := .inl (bitOf i (by decide)) } }

theorem OnlyM.lit_curLimbo {m : Nat} {s t : State} {x0} (h : OnlyM m s t) (i : mask [.curLimbo] ||| m = m) :
    OnlyM m s { t with cur := { t.cur with limbo := x0 } } :=
  { h with cur := { h.cur with limbo := .inl (bitOf i (by decide)) } }

theorem OnlyM.lit_docGroups_docOwedNotices {m : Nat} {s t : State} {x0 x1} (h : OnlyM m s t) (i : mask [.docGroups,
      .docOwedNotices] ||| m = m) :
    OnlyM m s { t with doc := { t.doc with groups := x0, owedNotices := x1 } } :=
  { h with doc := { h.doc with groups := .inl (bitOf i (by decide)), owedNotices := .inl (bitOf i (by decide)) } }

theorem OnlyM.lit_fabSeen {m : Nat} {s t : State} {x0} (h : OnlyM m s t) (i : mask [.fabSeen] ||| m = m) :
    OnlyM m s { t with fab := { t.fab with seen := x0 } } :=
  { h with fab := { h.fab with seen := .inl (bitOf i (by decide)) } }

theorem OnlyM.lit_fabColls_fabSentSlots {m : Nat} {s t : State} {x0 x1} (h : OnlyM m s t) (i : mask [.fabColls,
      .fabSentSlots] ||| m = m) :
    OnlyM m s { t with fab := { t.fab with colls := x0, sentSlots := x1 } } :=
  { h with fab := { h.fab with colls := .inl (bitOf i (by decide)), sentSlots := .inl (bitOf i (by decide)) } }

theorem OnlyM.lit_vfRegs {m : Nat} {s t : State} {x0} (h : OnlyM m s t) (i : mask [.vfRegs] ||| m = m) :
    OnlyM m s { t with vfRegs := x0 } :=
  { h with vfRegs := .inl (bitOf i (by decide)) }

theorem OnlyM.lit_mem_bad {m : Nat} {s t : State} {x0 x1} (h : OnlyM m s t) (i : mask [.mem,
      .bad] ||| m = m) (e : Memory.wf t.mem = true → Memory.wf x0 = true) :
    OnlyM m s { t with mem := x0, bad := x1 } :=
  { h with mem := .inl (bitOf i (by decide)), bad := .inl (bitOf i (by decide)), memOk := fun q => e (h.memOk q) }

theorem OnlyM.lit_rasOvf {m : Nat} {s t : State} {x0} (h : OnlyM m s t) (i : mask [.rasOvf] ||| m = m) :
    OnlyM m s { t with ras := { t.ras with ovf := x0 } } :=
  { h with ras := { h.ras with ovf := .inl (bitOf i (by decide)) } }

theorem OnlyM.lit_all103 {m : Nat} {s t : State} {x0 x1 x2 x3 x4 x5 x6 x7 x8} (h : OnlyM m s t) (i : mask [.curCows,
      .curMoves, .curStaged, .tiersPanels, .tiersMigs, .tiersMoving, .tiersRepairs, .tiersObjRun, .tiersObjWait] ||| m = m) :
    OnlyM m s { t with cur := { t.cur with cows := x0, moves := x1, staged := x2 }, tiers := { t.tiers with panels := x3, migs := x4, moving := x5, repairs := x6, objRun := x7, objWait := x8 } } :=
  { h with cur := { h.cur with cows := .inl (bitOf i (by decide)), moves := .inl (bitOf i (by decide)), staged := .inl (bitOf i (by decide)) }, tiers := { h.tiers with panels := .inl (bitOf i (by decide)), migs := .inl (bitOf i (by decide)), moving := .inl (bitOf i (by decide)), repairs := .inl (bitOf i (by decide)), objRun := .inl (bitOf i (by decide)), objWait := .inl (bitOf i (by decide)) } }

theorem OnlyM.lit_annexQueue {m : Nat} {s t : State} {x0} (h : OnlyM m s t) (i : mask [.annexQueue] ||| m = m) :
    OnlyM m s { t with annex := { t.annex with queue := x0 } } :=
  { h with annex := { h.annex with queue := .inl (bitOf i (by decide)) } }

theorem OnlyM.lit_ctlRepRows {m : Nat} {s t : State} {x0} (h : OnlyM m s t) (i : mask [.ctlRepRows] ||| m = m) :
    OnlyM m s { t with ctl := { t.ctl with repRows := x0 } } :=
  { h with ctl := { h.ctl with repRows := .inl (bitOf i (by decide)) } }

theorem OnlyM.lit_curFreed {m : Nat} {s t : State} {x0} (h : OnlyM m s t) (i : mask [.curFreed] ||| m = m) :
    OnlyM m s { t with cur := { t.cur with freed := x0 } } :=
  { h with cur := { h.cur with freed := .inl (bitOf i (by decide)) } }

theorem OnlyM.lit_curFresh {m : Nat} {s t : State} {x0} (h : OnlyM m s t) (i : mask [.curFresh] ||| m = m) :
    OnlyM m s { t with cur := { t.cur with fresh := x0 } } :=
  { h with cur := { h.cur with fresh := .inl (bitOf i (by decide)) } }

theorem OnlyM.lit_ctlWerr {m : Nat} {s t : State} {x0} (h : OnlyM m s t) (i : mask [.ctlWerr] ||| m = m) :
    OnlyM m s { t with ctl := { t.ctl with werr := x0 } } :=
  { h with ctl := { h.ctl with werr := .inl (bitOf i (by decide)) } }

theorem OnlyM.lit_curFrames {m : Nat} {s t : State} {x0} (h : OnlyM m s t) (i : mask [.curFrames] ||| m = m) :
    OnlyM m s { t with cur := { t.cur with frames := x0 } } :=
  { h with cur := { h.cur with frames := .inl (bitOf i (by decide)) } }

theorem OnlyM.lit_ctlCCause_ctlCBusy_ctlCErr {m : Nat} {s t : State} {x0 x1 x2} (h : OnlyM m s t) (i : mask [.ctlCCause,
      .ctlCBusy, .ctlCErr] ||| m = m) :
    OnlyM m s { t with ctl := { t.ctl with cCause := x0, cBusy := x1, cErr := x2 } } :=
  { h with ctl := { h.ctl with cCause := .inl (bitOf i (by decide)), cBusy := .inl (bitOf i (by decide)), cErr := .inl (bitOf i (by decide)) } }

theorem OnlyM.lit_secSt_secCause {m : Nat} {s t : State} {x0 x1} (h : OnlyM m s t) (i : mask [.secSt, .secCause] ||| m = m) :
    OnlyM m s { t with sec := { t.sec with st := x0, cause := x1 } } :=
  { h with sec := { h.sec with st := .inl (bitOf i (by decide)), cause := .inl (bitOf i (by decide)) } }

theorem OnlyM.lit_free {m : Nat} {s t : State} {x0} (h : OnlyM m s t) (i : mask [.free] ||| m = m) :
    OnlyM m s { t with free := x0 } :=
  { h with free := .inl (bitOf i (by decide)) }

theorem OnlyM.lit_ctlRepSkip {m : Nat} {s t : State} {x0} (h : OnlyM m s t) (i : mask [.ctlRepSkip] ||| m = m) :
    OnlyM m s { t with ctl := { t.ctl with repSkip := x0 } } :=
  { h with ctl := { h.ctl with repSkip := .inl (bitOf i (by decide)) } }

theorem OnlyM.lit_mem_chk_ctlBootStep_ctlRepDirty {m : Nat} {s t : State} {x0 x1 x2 x3} (h : OnlyM m s t) (i : mask [.mem,
      .chk, .ctlBootStep, .ctlRepDirty] ||| m = m) (e : Memory.wf t.mem = true → Memory.wf x0 = true) :
    OnlyM m s { t with mem := x0, chk := x1, ctl := { t.ctl with bootStep := x2, repDirty := x3 } } :=
  { h with mem := .inl (bitOf i (by decide)), chk := .inl (bitOf i (by decide)), ctl := { h.ctl with bootStep := .inl (bitOf i (by decide)), repDirty := .inl (bitOf i (by decide)) }, memOk := fun q => e (h.memOk q) }

theorem OnlyM.lit_ctlSt {m : Nat} {s t : State} {x0} (h : OnlyM m s t) (i : mask [.ctlSt] ||| m = m) :
    OnlyM m s { t with ctl := { t.ctl with st := x0 } } :=
  { h with ctl := { h.ctl with st := .inl (bitOf i (by decide)) } }

theorem OnlyM.lit_dmaLastWr_dmaWrEng {m : Nat} {s t : State} {x0 x1} (h : OnlyM m s t) (i : mask [.dmaLastWr,
      .dmaWrEng] ||| m = m) :
    OnlyM m s { t with dma := { t.dma with lastWr := x0, wrEng := x1 } } :=
  { h with dma := { h.dma with lastWr := .inl (bitOf i (by decide)), wrEng := .inl (bitOf i (by decide)) } }

theorem OnlyM.lit_chans {m : Nat} {s t : State} {x0} (h : OnlyM m s t) (i : mask [.chans] ||| m = m) :
    OnlyM m s { t with chans := x0 } :=
  { h with chans := .inl (bitOf i (by decide)) }

theorem OnlyM.lit_curMaps {m : Nat} {s t : State} {x0} (h : OnlyM m s t) (i : mask [.curMaps] ||| m = m) :
    OnlyM m s { t with cur := { t.cur with maps := x0 } } :=
  { h with cur := { h.cur with maps := .inl (bitOf i (by decide)) } }

theorem OnlyM.lit_flashCert1 {m : Nat} {s t : State} {x0} (h : OnlyM m s t) (i : mask [.flashCert1] ||| m = m) :
    OnlyM m s { t with sec := { t.sec with flash := { t.sec.flash with cert1 := x0 } } } :=
  { h with sec := { h.sec with flash := { h.sec.flash with cert1 := .inl (bitOf i (by decide)) } } }

theorem OnlyM.lit_ctlShort {m : Nat} {s t : State} {x0} (h : OnlyM m s t) (i : mask [.ctlShort] ||| m = m) :
    OnlyM m s { t with ctl := { t.ctl with short := x0 } } :=
  { h with ctl := { h.ctl with short := .inl (bitOf i (by decide)) } }

theorem OnlyM.lit_ctlChannels {m : Nat} {s t : State} {x0} (h : OnlyM m s t) (i : mask [.ctlChannels] ||| m = m) :
    OnlyM m s { t with ctl := { t.ctl with channels := x0 } } :=
  { h with ctl := { h.ctl with channels := .inl (bitOf i (by decide)) } }

theorem OnlyM.lit_fabArrivals {m : Nat} {s t : State} {x0} (h : OnlyM m s t) (i : mask [.fabArrivals] ||| m = m) :
    OnlyM m s { t with fab := { t.fab with arrivals := x0 } } :=
  { h with fab := { h.fab with arrivals := .inl (bitOf i (by decide)) } }

theorem OnlyM.lit_ctlCommitted_ctlCLast_ctlCBusy_secMeasured {m : Nat} {s t : State} {x0 x1 x2 x3} (h : OnlyM m s t) (i :
      mask [.ctlCommitted, .ctlCLast, .ctlCBusy, .secMeasured] ||| m = m) :
    OnlyM m s { t with ctl := { t.ctl with committed := x0, cLast := x1, cBusy := x2 }, sec := { t.sec with measured := x3 } } :=
  { h with ctl := { h.ctl with committed := .inl (bitOf i (by decide)), cLast := .inl (bitOf i (by decide)), cBusy := .inl (bitOf i (by decide)) }, sec := { h.sec with measured := .inl (bitOf i (by decide)) } }

theorem OnlyM.lit_docGroups_docNextGroup {m : Nat} {s t : State} {x0 x1} (h : OnlyM m s t) (i : mask [.docGroups,
      .docNextGroup] ||| m = m) :
    OnlyM m s { t with doc := { t.doc with groups := x0, nextGroup := x1 } } :=
  { h with doc := { h.doc with groups := .inl (bitOf i (by decide)), nextGroup := .inl (bitOf i (by decide)) } }

theorem OnlyM.lit_tiersObjs {m : Nat} {s t : State} {x0} (h : OnlyM m s t) (i : mask [.tiersObjs] ||| m = m) :
    OnlyM m s { t with tiers := { t.tiers with objs := x0 } } :=
  { h with tiers := { h.tiers with objs := .inl (bitOf i (by decide)) } }

theorem OnlyM.lit_fabColls {m : Nat} {s t : State} {x0} (h : OnlyM m s t) (i : mask [.fabColls] ||| m = m) :
    OnlyM m s { t with fab := { t.fab with colls := x0 } } :=
  { h with fab := { h.fab with colls := .inl (bitOf i (by decide)) } }

theorem OnlyM.lit_plinths {m : Nat} {s t : State} {x0} (h : OnlyM m s t) (i : mask [.plinths] ||| m = m) :
    OnlyM m s { t with plinths := x0 } :=
  { h with plinths := .inl (bitOf i (by decide)) }

theorem OnlyM.lit_outBases {m : Nat} {s t : State} {x0} (h : OnlyM m s t) (i : mask [.outBases] ||| m = m) :
    OnlyM m s { t with outBases := x0 } :=
  { h with outBases := .inl (bitOf i (by decide)) }

theorem OnlyM.lit_annexAll {m : Nat} {s t : State} {x0} (h : OnlyM m s t) (i : mask [.annexQueue, .annexRunning,
      .annexBank0, .annexBank1, .annexFail] ||| m = m) :
    OnlyM m s { t with annex := x0 } :=
  { h with annex := ⟨.inl (bitOf i (by decide)), .inl (bitOf i (by decide)), .inl (bitOf i (by decide)), .inl (bitOf i (by decide)), .inl (bitOf i (by decide))⟩ }

theorem OnlyM.lit_hifMsixTable {m : Nat} {s t : State} {x0} (h : OnlyM m s t) (i : mask [.hifMsixTable] ||| m = m) :
    OnlyM m s { t with hif := { t.hif with msixTable := x0 } } :=
  { h with hif := { h.hif with msixTable := .inl (bitOf i (by decide)) } }

theorem OnlyM.lit_hifMsixPend {m : Nat} {s t : State} {x0} (h : OnlyM m s t) (i : mask [.hifMsixPend] ||| m = m) :
    OnlyM m s { t with hif := { t.hif with msixPend := x0 } } :=
  { h with hif := { h.hif with msixPend := .inl (bitOf i (by decide)) } }

theorem OnlyM.lit_rasCons {m : Nat} {s t : State} {x0} (h : OnlyM m s t) (i : mask [.rasCons] ||| m = m) :
    OnlyM m s { t with ras := { t.ras with cons := x0 } } :=
  { h with ras := { h.ras with cons := .inl (bitOf i (by decide)) } }

theorem OnlyM.lit_docCtxs {m : Nat} {s t : State} {x0} (h : OnlyM m s t) (i : mask [.docCtxs] ||| m = m) :
    OnlyM m s { t with doc := { t.doc with ctxs := x0 } } :=
  { h with doc := { h.doc with ctxs := .inl (bitOf i (by decide)) } }

theorem OnlyM.lit_catWaits {m : Nat} {s t : State} {x0} (h : OnlyM m s t) (i : mask [.catWaits] ||| m = m) :
    OnlyM m s { t with cat := { t.cat with waits := x0 } } :=
  { h with cat := { h.cat with waits := .inl (bitOf i (by decide)) } }

theorem OnlyM.lit_catDumpFroze {m : Nat} {s t : State} {x0} (h : OnlyM m s t) (i : mask [.catDumpFroze] ||| m = m) :
    OnlyM m s { t with cat := { t.cat with dumpFroze := x0 } } :=
  { h with cat := { h.cat with dumpFroze := .inl (bitOf i (by decide)) } }

theorem OnlyM.lit_ctlStrapPos_ctlStrapSmba_ctlThermTrip {m : Nat} {s t : State} {x0 x1 x2} (h : OnlyM m s t) (i : mask
      [.ctlStrapPos, .ctlStrapSmba, .ctlThermTrip] ||| m = m) :
    OnlyM m s { t with ctl := { t.ctl with strapPos := x0, strapSmba := x1, thermTrip := x2 } } :=
  { h with ctl := { h.ctl with strapPos := .inl (bitOf i (by decide)), strapSmba := .inl (bitOf i (by decide)), thermTrip := .inl (bitOf i (by decide)) } }

theorem OnlyM.lit_ctlRepDirty_flashRep0_flashRep1 {m : Nat} {s t : State} {x0 x1 x2} (h : OnlyM m s t) (i : mask
      [.ctlRepDirty, .flashRep0, .flashRep1] ||| m = m) :
    OnlyM m s { t with ctl := { t.ctl with repDirty := x0 }, sec := { t.sec with flash := { t.sec.flash with rep0 := x1, rep1 := x2 } } } :=
  { h with ctl := { h.ctl with repDirty := .inl (bitOf i (by decide)) }, sec := { h.sec with flash := { h.sec.flash with rep0 := .inl (bitOf i (by decide)), rep1 := .inl (bitOf i (by decide)) } } }

theorem OnlyM.lit_secSessions {m : Nat} {s t : State} {x0} (h : OnlyM m s t) (i : mask [.secSessions] ||| m = m) :
    OnlyM m s { t with sec := { t.sec with sessions := x0 } } :=
  { h with sec := { h.sec with sessions := .inl (bitOf i (by decide)) } }

theorem OnlyM.lit_ctlLatches {m : Nat} {s t : State} {x0} (h : OnlyM m s t) (i : mask [.ctlLatches] ||| m = m) :
    OnlyM m s { t with ctl := { t.ctl with latches := x0 } } :=
  { h with ctl := { h.ctl with latches := .inl (bitOf i (by decide)) } }

theorem OnlyM.lit_hifLinkWidth_hifLinkRate_hifLinkFlit {m : Nat} {s t : State} {x0 x1 x2} (h : OnlyM m s t) (i : mask
      [.hifLinkWidth, .hifLinkRate, .hifLinkFlit] ||| m = m) :
    OnlyM m s { t with hif := { t.hif with linkWidth := x0, linkRate := x1, linkFlit := x2 } } :=
  { h with hif := { h.hif with linkWidth := .inl (bitOf i (by decide)), linkRate := .inl (bitOf i (by decide)), linkFlit := .inl (bitOf i (by decide)) } }

theorem OnlyM.lit_secIdes {m : Nat} {s t : State} {x0} (h : OnlyM m s t) (i : mask [.secIdes] ||| m = m) :
    OnlyM m s { t with sec := { t.sec with ides := x0 } } :=
  { h with sec := { h.sec with ides := .inl (bitOf i (by decide)) } }

theorem OnlyM.lit_ctlThermTrip {m : Nat} {s t : State} {x0} (h : OnlyM m s t) (i : mask [.ctlThermTrip] ||| m = m) :
    OnlyM m s { t with ctl := { t.ctl with thermTrip := x0 } } :=
  { h with ctl := { h.ctl with thermTrip := .inl (bitOf i (by decide)) } }

theorem OnlyM.lit_catRings {m : Nat} {s t : State} {x0} (h : OnlyM m s t) (i : mask [.catRings] ||| m = m) :
    OnlyM m s { t with cat := { t.cat with rings := x0 } } :=
  { h with cat := { h.cat with rings := .inl (bitOf i (by decide)) } }

theorem OnlyM.lit_ctlSt_ctlHcause_ctlHoldReq_ctlHolding {m : Nat} {s t : State} {x0 x1 x2 x3} (h : OnlyM m s t) (i : mask
      [.ctlSt, .ctlHcause, .ctlHoldReq, .ctlHolding] ||| m = m) :
    OnlyM m s { t with ctl := { t.ctl with st := x0, hcause := x1, holdReq := x2, holding := x3 } } :=
  { h with ctl := { h.ctl with st := .inl (bitOf i (by decide)), hcause := .inl (bitOf i (by decide)), holdReq := .inl (bitOf i (by decide)), holding := .inl (bitOf i (by decide)) } }

theorem OnlyM.lit_secSpdm {m : Nat} {s t : State} {x0} (h : OnlyM m s t) (i : mask [.secSpdm] ||| m = m) :
    OnlyM m s { t with sec := { t.sec with spdm := x0 } } :=
  { h with sec := { h.sec with spdm := .inl (bitOf i (by decide)) } }

theorem OnlyM.lit_tiersObjRun {m : Nat} {s t : State} {x0} (h : OnlyM m s t) (i : mask [.tiersObjRun] ||| m = m) :
    OnlyM m s { t with tiers := { t.tiers with objRun := x0 } } :=
  { h with tiers := { h.tiers with objRun := .inl (bitOf i (by decide)) } }

theorem OnlyM.lit_out {m : Nat} {s t : State} {x0} (h : OnlyM m s t) (i : mask [.out] ||| m = m) :
    OnlyM m s { t with out := x0 } :=
  { h with out := .inl (bitOf i (by decide)) }

theorem OnlyM.lit_docProgs {m : Nat} {s t : State} {x0} (h : OnlyM m s t) (i : mask [.docProgs] ||| m = m) :
    OnlyM m s { t with doc := { t.doc with progs := x0 } } :=
  { h with doc := { h.doc with progs := .inl (bitOf i (by decide)) } }

theorem OnlyM.lit_dmaNextOpid {m : Nat} {s t : State} {x0} (h : OnlyM m s t) (i : mask [.dmaNextOpid] ||| m = m) :
    OnlyM m s { t with dma := { t.dma with nextOpid := x0 } } :=
  { h with dma := { h.dma with nextOpid := .inl (bitOf i (by decide)) } }

theorem OnlyM.lit_fabAnnounced {m : Nat} {s t : State} {x0} (h : OnlyM m s t) (i : mask [.fabAnnounced] ||| m = m) :
    OnlyM m s { t with fab := { t.fab with announced := x0 } } :=
  { h with fab := { h.fab with announced := .inl (bitOf i (by decide)) } }

theorem OnlyM.lit_docOwedNotices {m : Nat} {s t : State} {x0} (h : OnlyM m s t) (i : mask [.docOwedNotices] ||| m = m) :
    OnlyM m s { t with doc := { t.doc with owedNotices := x0 } } :=
  { h with doc := { h.doc with owedNotices := .inl (bitOf i (by decide)) } }

theorem OnlyM.lit_catFrozen_catWdQuiet {m : Nat} {s t : State} {x0 x1} (h : OnlyM m s t) (i : mask [.catFrozen,
      .catWdQuiet] ||| m = m) :
    OnlyM m s { t with cat := { t.cat with frozen := x0, wdQuiet := x1 } } :=
  { h with cat := { h.cat with frozen := .inl (bitOf i (by decide)), wdQuiet := .inl (bitOf i (by decide)) } }

theorem OnlyM.lit_fabPorts_fabSeen {m : Nat} {s t : State} {x0 x1} (h : OnlyM m s t) (i : mask [.fabPorts,
      .fabSeen] ||| m = m) :
    OnlyM m s { t with fab := { t.fab with ports := x0, seen := x1 } } :=
  { h with fab := { h.fab with ports := .inl (bitOf i (by decide)), seen := .inl (bitOf i (by decide)) } }

theorem OnlyM.lit_rasIntLeft_rasIntPend_rasIntEnd {m : Nat} {s t : State} {x0 x1 x2} (h : OnlyM m s t) (i : mask
      [.rasIntLeft, .rasIntPend, .rasIntEnd] ||| m = m) :
    OnlyM m s { t with ras := { t.ras with intLeft := x0, intPend := x1, intEnd := x2 } } :=
  { h with ras := { h.ras with intLeft := .inl (bitOf i (by decide)), intPend := .inl (bitOf i (by decide)), intEnd := .inl (bitOf i (by decide)) } }

theorem OnlyM.lit_hifOwedVecs {m : Nat} {s t : State} {x0} (h : OnlyM m s t) (i : mask [.hifOwedVecs] ||| m = m) :
    OnlyM m s { t with hif := { t.hif with owedVecs := x0 } } :=
  { h with hif := { h.hif with owedVecs := .inl (bitOf i (by decide)) } }

theorem OnlyM.lit_hifRings {m : Nat} {s t : State} {x0} (h : OnlyM m s t) (i : mask [.hifRings] ||| m = m) :
    OnlyM m s { t with hif := { t.hif with rings := x0 } } :=
  { h with hif := { h.hif with rings := .inl (bitOf i (by decide)) } }

theorem OnlyM.lit_secTrial {m : Nat} {s t : State} {x0} (h : OnlyM m s t) (i : mask [.secTrial] ||| m = m) :
    OnlyM m s { t with sec := { t.sec with trial := x0 } } :=
  { h with sec := { h.sec with trial := .inl (bitOf i (by decide)) } }

theorem OnlyM.lit_fabPlanes {m : Nat} {s t : State} {x0} (h : OnlyM m s t) (i : mask [.fabPlanes] ||| m = m) :
    OnlyM m s { t with fab := { t.fab with planes := x0 } } :=
  { h with fab := { h.fab with planes := .inl (bitOf i (by decide)) } }

theorem OnlyM.lit_docCancels {m : Nat} {s t : State} {x0} (h : OnlyM m s t) (i : mask [.docCancels] ||| m = m) :
    OnlyM m s { t with doc := { t.doc with cancels := x0 } } :=
  { h with doc := { h.doc with cancels := .inl (bitOf i (by decide)) } }

set_option maxRecDepth 4000 in
theorem OnlyM.lit_all160 {m : Nat} {s t : State} {x0 x1 x2 x3 x4 x5 x6 x7 x8 x9 x10 x11 x12 x13 x14 x15 x16 x17 x18 x19 x20
      x21 x22 x23 x24 x25 x26 x27 x28 x29 x30 x31 x32 x33 x34 x35 x36 x37 x38 x39 x40 x41 x42 x43 x44 x45 x46 x47 x48 x49
      x50 x51 x52 x53 x54 x55 x56 x57 x58} (h : OnlyM m s t) (i : mask [.regs, .inForce, .vfRegs, .mem, .chk, .bad, .ctlSt,
      .ctlPower, .ctlHcause, .ctlCommitted, .ctlCLast, .ctlCCause, .ctlCBusy, .ctlCSeq, .ctlCErr, .ctlWerr, .ctlBootStep,
      .ctlShort, .ctlCores, .ctlChannels, .ctlRepRows, .ctlRepCols, .ctlRepSkip, .ctlHoldReq, .ctlHolding, .ctlLatches,
      .ctlRepDirty, .hifRings, .hifInflight, .hifFences, .hifPoll, .hifConsNext, .hifLinkWidth, .hifLinkRate, .hifLinkFlit,
      .hifMsixTable, .hifMsixPend, .hifOwedVecs, .hifInReset, .hifOwed, .dmaOps, .dmaStops, .dmaNextOpid, .dmaLastRd,
      .dmaLastWr, .dmaRdEng, .dmaWrEng, .docCtxs, .docAppends, .docPolicies, .docCancels, .docReleases, .docProgs,
      .docGroups, .docCgroups, .docNextGroup, .docOvercommit, .docSuspended, .docOwedNotices, .curPages, .curFrames,
      .curMaps, .curLimbo, .curCows, .curForks, .curMoves, .curLost, .curLostCtx, .curRetired, .curStaged, .curFreed,
      .curFresh, .tiersObjs, .tiersPanels, .tiersMaps, .tiersMigs, .tiersMoving, .tiersT0used, .tiersRepairs, .tiersWriteQ,
      .tiersObjRun, .tiersObjWait, .cores, .chans, .plinths, .fins, .outBases, .annexQueue, .annexRunning, .annexBank0,
      .annexBank1, .annexFail, .fabPorts, .fabBeat, .fabLinks, .fabPlanes, .fabSeen, .fabSerial, .fabPendNotices,
      .fabQuiesces, .fabMacsec, .fabMacSend, .fabAnnounced, .fabCarMap, .fabCarPend, .fabCarLoads, .fabCarWait, .fabColls,
      .fabArrivals, .fabArrOrder, .fabSentSlots, .fabWindows, .rasSources, .rasQueue, .rasW, .rasCons, .rasOvf,
      .rasIntLeft, .rasIntPend, .rasIntEnd, .catCounters, .catRings, .catWaits, .catStarted, .catFrozen, .catFcause,
      .catDumpBusy, .catDumpFroze, .catWdQuiet, .catWbeat, .catFenceWin, .catSnaps, .catTrace, .secSt, .secCause, .secSlot,
      .secTrial, .secDebug, .secImage, .secSeeded, .secGenKey, .secTdis, .secSessions, .secSpdm, .secIdes, .secMeasured,
      .secUpdate, .secEvents, .secEid, .hubOps, .nextOp] ||| m = m) (e : Memory.wf t.mem = true → Memory.wf x3 = true) :
    OnlyM m s { t with regs := x0, inForce := x1, vfRegs := x2, mem := x3, chk := x4, bad := x5, ctl := { t.ctl with st := x6, power := x7, hcause := x8, committed := x9, cLast := x10, cCause := x11, cBusy := x12, cSeq := x13, cErr := x14, werr := x15, bootStep := x16, short := x17, cores := x18, channels := x19, repRows := x20, repCols := x21, repSkip := x22, holdReq := x23, holding := x24, latches := x25, repDirty := x26 }, hif := x27, dma := x28, doc := x29, cur := x30, tiers := x31, cores := x32, chans := x33, plinths := x34, fins := x35, outBases := x36, annex := x37, fab := x38, ras := x39, cat := x40, sec := { t.sec with st := x41, cause := x42, slot := x43, trial := x44, debug := x45, image := x46, seeded := x47, genKey := x48, tdis := x49, sessions := x50, spdm := x51, ides := x52, measured := x53, update := x54, events := x55, eid := x56 }, hubOps := x57, nextOp := x58 } :=
  { h with regs := .inl (bitOf i (by decide)), inForce := .inl (bitOf i (by decide)), vfRegs := .inl (bitOf i (by decide)), mem := .inl (bitOf i (by decide)), chk := .inl (bitOf i (by decide)), bad := .inl (bitOf i (by decide)), ctl := { h.ctl with st := .inl (bitOf i (by decide)), power := .inl (bitOf i (by decide)), hcause := .inl (bitOf i (by decide)), committed := .inl (bitOf i (by decide)), cLast := .inl (bitOf i (by decide)), cCause := .inl (bitOf i (by decide)), cBusy := .inl (bitOf i (by decide)), cSeq := .inl (bitOf i (by decide)), cErr := .inl (bitOf i (by decide)), werr := .inl (bitOf i (by decide)), bootStep := .inl (bitOf i (by decide)), short := .inl (bitOf i (by decide)), cores := .inl (bitOf i (by decide)), channels := .inl (bitOf i (by decide)), repRows := .inl (bitOf i (by decide)), repCols := .inl (bitOf i (by decide)), repSkip := .inl (bitOf i (by decide)), holdReq := .inl (bitOf i (by decide)), holding := .inl (bitOf i (by decide)), latches := .inl (bitOf i (by decide)), repDirty := .inl (bitOf i (by decide)) }, hif := ⟨.inl (bitOf i (by decide)), .inl (bitOf i (by decide)), .inl (bitOf i (by decide)), .inl (bitOf i (by decide)), .inl (bitOf i (by decide)), .inl (bitOf i (by decide)), .inl (bitOf i (by decide)), .inl (bitOf i (by decide)), .inl (bitOf i (by decide)), .inl (bitOf i (by decide)), .inl (bitOf i (by decide)), .inl (bitOf i (by decide)), .inl (bitOf i (by decide))⟩, dma := ⟨.inl (bitOf i (by decide)), .inl (bitOf i (by decide)), .inl (bitOf i (by decide)), .inl (bitOf i (by decide)), .inl (bitOf i (by decide)), .inl (bitOf i (by decide)), .inl (bitOf i (by decide))⟩, doc := ⟨.inl (bitOf i (by decide)), .inl (bitOf i (by decide)), .inl (bitOf i (by decide)), .inl (bitOf i (by decide)), .inl (bitOf i (by decide)), .inl (bitOf i (by decide)), .inl (bitOf i (by decide)), .inl (bitOf i (by decide)), .inl (bitOf i (by decide)), .inl (bitOf i (by decide)), .inl (bitOf i (by decide)), .inl (bitOf i (by decide))⟩, cur := ⟨.inl (bitOf i (by decide)), .inl (bitOf i (by decide)), .inl (bitOf i (by decide)), .inl (bitOf i (by decide)), .inl (bitOf i (by decide)), .inl (bitOf i (by decide)), .inl (bitOf i (by decide)), .inl (bitOf i (by decide)), .inl (bitOf i (by decide)), .inl (bitOf i (by decide)), .inl (bitOf i (by decide)), .inl (bitOf i (by decide)), .inl (bitOf i (by decide))⟩, tiers := ⟨.inl (bitOf i (by decide)), .inl (bitOf i (by decide)), .inl (bitOf i (by decide)), .inl (bitOf i (by decide)), .inl (bitOf i (by decide)), .inl (bitOf i (by decide)), .inl (bitOf i (by decide)), .inl (bitOf i (by decide)), .inl (bitOf i (by decide)), .inl (bitOf i (by decide))⟩, cores := .inl (bitOf i (by decide)), chans := .inl (bitOf i (by decide)), plinths := .inl (bitOf i (by decide)), fins := .inl (bitOf i (by decide)), outBases := .inl (bitOf i (by decide)), annex := ⟨.inl (bitOf i (by decide)), .inl (bitOf i (by decide)), .inl (bitOf i (by decide)), .inl (bitOf i (by decide)), .inl (bitOf i (by decide))⟩, fab := ⟨.inl (bitOf i (by decide)), .inl (bitOf i (by decide)), .inl (bitOf i (by decide)), .inl (bitOf i (by decide)), .inl (bitOf i (by decide)), .inl (bitOf i (by decide)), .inl (bitOf i (by decide)), .inl (bitOf i (by decide)), .inl (bitOf i (by decide)), .inl (bitOf i (by decide)), .inl (bitOf i (by decide)), .inl (bitOf i (by decide)), .inl (bitOf i (by decide)), .inl (bitOf i (by decide)), .inl (bitOf i (by decide)), .inl (bitOf i (by decide)), .inl (bitOf i (by decide)), .inl (bitOf i (by decide)), .inl (bitOf i (by decide)), .inl (bitOf i (by decide))⟩, ras := ⟨.inl (bitOf i (by decide)), .inl (bitOf i (by decide)), .inl (bitOf i (by decide)), .inl (bitOf i (by decide)), .inl (bitOf i (by decide)), .inl (bitOf i (by decide)), .inl (bitOf i (by decide)), .inl (bitOf i (by decide))⟩, cat := ⟨.inl (bitOf i (by decide)), .inl (bitOf i (by decide)), .inl (bitOf i (by decide)), .inl (bitOf i (by decide)), .inl (bitOf i (by decide)), .inl (bitOf i (by decide)), .inl (bitOf i (by decide)), .inl (bitOf i (by decide)), .inl (bitOf i (by decide)), .inl (bitOf i (by decide)), .inl (bitOf i (by decide)), .inl (bitOf i (by decide)), .inl (bitOf i (by decide))⟩, sec := { h.sec with st := .inl (bitOf i (by decide)), cause := .inl (bitOf i (by decide)), slot := .inl (bitOf i (by decide)), trial := .inl (bitOf i (by decide)), debug := .inl (bitOf i (by decide)), image := .inl (bitOf i (by decide)), seeded := .inl (bitOf i (by decide)), genKey := .inl (bitOf i (by decide)), tdis := .inl (bitOf i (by decide)), sessions := .inl (bitOf i (by decide)), spdm := .inl (bitOf i (by decide)), ides := .inl (bitOf i (by decide)), measured := .inl (bitOf i (by decide)), update := .inl (bitOf i (by decide)), events := .inl (bitOf i (by decide)), eid := .inl (bitOf i (by decide)) }, hubOps := .inl (bitOf i (by decide)), nextOp := .inl (bitOf i (by decide)), memOk := fun q => e (h.memOk q) }

theorem OnlyM.lit_flashDir0_flashDir1 {m : Nat} {s t : State} {x0 x1} (h : OnlyM m s t) (i : mask [.flashDir0,
      .flashDir1] ||| m = m) :
    OnlyM m s { t with sec := { t.sec with flash := { t.sec.flash with dir0 := x0, dir1 := x1 } } } :=
  { h with sec := { h.sec with flash := { h.sec.flash with dir0 := .inl (bitOf i (by decide)), dir1 := .inl (bitOf i (by decide)) } } }

theorem OnlyM.lit_rasQueue_rasW {m : Nat} {s t : State} {x0 x1} (h : OnlyM m s t) (i : mask [.rasQueue, .rasW] ||| m = m) :
    OnlyM m s { t with ras := { t.ras with queue := x0, w := x1 } } :=
  { h with ras := { h.ras with queue := .inl (bitOf i (by decide)), w := .inl (bitOf i (by decide)) } }

theorem OnlyM.lit_fabPorts {m : Nat} {s t : State} {x0} (h : OnlyM m s t) (i : mask [.fabPorts] ||| m = m) :
    OnlyM m s { t with fab := { t.fab with ports := x0 } } :=
  { h with fab := { h.fab with ports := .inl (bitOf i (by decide)) } }

theorem OnlyM.lit_curRetired {m : Nat} {s t : State} {x0} (h : OnlyM m s t) (i : mask [.curRetired] ||| m = m) :
    OnlyM m s { t with cur := { t.cur with retired := x0 } } :=
  { h with cur := { h.cur with retired := .inl (bitOf i (by decide)) } }

theorem OnlyM.lit_tiersPanels {m : Nat} {s t : State} {x0} (h : OnlyM m s t) (i : mask [.tiersPanels] ||| m = m) :
    OnlyM m s { t with tiers := { t.tiers with panels := x0 } } :=
  { h with tiers := { h.tiers with panels := .inl (bitOf i (by decide)) } }

theorem OnlyM.lit_hifRings_rasIntLeft_rasIntEnd {m : Nat} {s t : State} {x0 x1 x2} (h : OnlyM m s t) (i : mask [.hifRings,
      .rasIntLeft, .rasIntEnd] ||| m = m) :
    OnlyM m s { t with hif := { t.hif with rings := x0 }, ras := { t.ras with intLeft := x1, intEnd := x2 } } :=
  { h with hif := { h.hif with rings := .inl (bitOf i (by decide)) }, ras := { h.ras with intLeft := .inl (bitOf i (by decide)), intEnd := .inl (bitOf i (by decide)) } }

theorem OnlyM.lit_ctlPower_secEvents {m : Nat} {s t : State} {x0 x1} (h : OnlyM m s t) (i : mask [.ctlPower,
      .secEvents] ||| m = m) :
    OnlyM m s { t with ctl := { t.ctl with power := x0 }, sec := { t.sec with events := x1 } } :=
  { h with ctl := { h.ctl with power := .inl (bitOf i (by decide)) }, sec := { h.sec with events := .inl (bitOf i (by decide)) } }

theorem OnlyM.lit_secDebug {m : Nat} {s t : State} {x0} (h : OnlyM m s t) (i : mask [.secDebug] ||| m = m) :
    OnlyM m s { t with sec := { t.sec with debug := x0 } } :=
  { h with sec := { h.sec with debug := .inl (bitOf i (by decide)) } }

end Sys2Proof.Machine
end

