-- ==== Sys2Proof/Laws/OnlyBase.lean ====
section
/-! SUPPORT. What each operation over the memory, the named operations, errors and objects may write. -/

set_option linter.tactic.unusedName false

namespace Sys2Proof.Machine

theorem State.chanWrite_only {m : Nat} {s t : State} {a1 a2 a3} (h : OnlyM m s t) (i : mask [.mem, .chk] ||| m = m) :
    OnlyP m s (State.chanWrite t a1 a2 a3) := by
  refine OnlyP.ofStep h ?_ i; clear h i; unfold State.chanWrite
  have hw (q : Memory.wf t.mem = true) : Memory.wf (t.chanWrite a1 a2 a3).1.mem = true := State.chanWrite_wf q
  unfold State.chanWrite at hw
  extract_lets l1 l2 at hw ⊢
  split
  · exact ⟨.refl _ _⟩
  · rename_i hn
    rw [if_neg hn] at hw
    exact ⟨OnlyM.lit_mem_chk (.refl _ _) (by decide) hw⟩

theorem State.burstRaw_only {m : Nat} {s t : State} {a1 a2 a3} (h : OnlyM m s t) (i : mask [.mem, .chk] ||| m = m) :
    OnlyM m s (State.burstRaw t a1 a2 a3) := by
  refine OnlyM.ofStep h ?_ i; clear h i; unfold State.burstRaw
  repeat' first
    | with_reducible exact fun q => Memory.store_wf q
    | with_reducible exact .refl _ _
    | extract_lets l1 l2
    | intro _
    | fail_if_no_progress (with_reducible apply OnlyM.lit_mem_chk; on_goal 2 => decide)

theorem State.burstUpset_only {m : Nat} {s t : State} {a1 a2 a3} (h : OnlyM m s t) (i : mask [.mem, .chk] ||| m = m) :
    OnlyM m s (State.burstUpset t a1 a2 a3) := by
  refine OnlyM.ofStep h ?_ i; clear h i; unfold State.burstUpset
  repeat' first
    | with_reducible exact .refl _ _
    | extract_lets
    | (with_reducible apply State.burstRaw_only; on_goal 2 => decide)

theorem State.sramWrite_only {m : Nat} {s t : State} {a1 a2} (h : OnlyM m s t) (i : mask [.mem, .bad] ||| m = m) :
    OnlyM m s (State.sramWrite t a1 a2) := by
  refine OnlyM.ofStep h ?_ i; clear h i; unfold State.sramWrite
  repeat' first
    | with_reducible exact fun q => Memory.store_wf q
    | with_reducible exact .refl _ _
    | extract_lets
    | intro _
    | fail_if_no_progress (with_reducible apply OnlyM.lit_mem_bad; on_goal 2 => decide)

theorem State.setField_only {m : Nat} {s t : State} {a1 a2 a3 a4 a5} (h : OnlyM m s t) (i : mask [.regs] ||| m = m) :
    OnlyM m s (State.setField t a1 a2 a3 a4 a5) := by
  refine OnlyM.ofStep h ?_ i; clear h i; unfold State.setField
  repeat' first
    | with_reducible exact .refl _ _
    | extract_lets
    | fail_if_no_progress (with_reducible apply OnlyM.lit_regs; on_goal 2 => decide)

theorem State.clearGalleryCounters_only {m : Nat} {s t : State} {a1} (h : OnlyM m s t) (i : mask [.catCounters] ||| m = m) :
    OnlyM m s (State.clearGalleryCounters t a1) := by
  refine OnlyM.ofStep h ?_ i; clear h i; unfold State.clearGalleryCounters
  repeat' first
    | with_reducible exact .refl _ _
    | extract_lets
    | fail_if_no_progress (with_reducible apply OnlyM.lit_catCounters; on_goal 2 => decide)

theorem State.countSub_only {m : Nat} {s t : State} {a1 a2 a3 a4} (h : OnlyM m s t) (i : mask [.catCounters] ||| m = m) :
    OnlyM m s (State.countSub t a1 a2 a3 a4) := by
  refine OnlyM.ofStep h ?_ i; clear h i; unfold State.countSub
  repeat' first
    | with_reducible exact .refl _ _
    | extract_lets
    | fail_if_no_progress (with_reducible apply OnlyM.lit_catCounters; on_goal 2 => decide)

theorem State.count_only {m : Nat} {s t : State} {a1 a2 a3} (h : OnlyM m s t) (i : mask [.catCounters] ||| m = m) :
    OnlyM m s (State.count t a1 a2 a3) := by
  refine OnlyM.ofStep h ?_ i; clear h i; unfold State.count
  repeat' first
    | with_reducible exact .refl _ _
    | (with_reducible apply State.countSub_only; on_goal 2 => decide)

theorem State.countIf_only {m : Nat} {s t : State} {a1 a2 a3} (h : OnlyM m s t) (i : mask [.catCounters] ||| m = m) :
    OnlyM m s (State.countIf t a1 a2 a3) := by
  refine OnlyM.ofStep h ?_ i; clear h i; unfold State.countIf
  repeat' first
    | with_reducible exact .refl _ _
    | extract_lets
    | with_reducible apply OnlyM.ite
    | (with_reducible apply State.count_only; on_goal 2 => decide)

theorem State.setLevel_only {m : Nat} {s t : State} {a1 a2} (h : OnlyM m s t) (i : mask [.catCounters] ||| m = m) :
    OnlyM m s (State.setLevel t a1 a2) := by
  refine OnlyM.ofStep h ?_ i; clear h i; unfold State.setLevel
  repeat' first
    | with_reducible exact .refl _ _
    | extract_lets
    | fail_if_no_progress (with_reducible apply OnlyM.lit_catCounters; on_goal 2 => decide)

theorem State.draw_only {m : Nat} {s t : State} {a1} (h : OnlyM m s t) (i : mask [.free] ||| m = m) :
    OnlyM m s (State.draw t a1) := by
  refine OnlyM.ofStep h ?_ i; clear h i; unfold State.draw
  repeat' first
    | with_reducible exact .refl _ _
    | fail_if_no_progress (with_reducible apply OnlyM.lit_free; on_goal 2 => decide)

theorem State.setChan_only {m : Nat} {s t : State} {a1 a2} (h : OnlyM m s t) (i : mask [.chans] ||| m = m) :
    OnlyM m s (State.setChan t a1 a2) := by
  refine OnlyM.ofStep h ?_ i; clear h i; unfold State.setChan
  repeat' first
    | with_reducible exact .refl _ _
    | fail_if_no_progress (with_reducible apply OnlyM.lit_chans; on_goal 2 => decide)

theorem State.traffic_only {m : Nat} {s t : State} {a1 a2 a3 a4 a5} (h : OnlyM m s t) (i : mask [.chans, .catCounters,
      .free] ||| m = m) :
    OnlyM m s (State.traffic t a1 a2 a3 a4 a5) := by
  refine OnlyM.ofStep h ?_ i; clear h i; unfold State.traffic
  repeat' first
    | with_reducible exact .refl _ _
    | extract_lets
    | with_reducible apply OnlyM.ite
    | (with_reducible apply State.count_only; on_goal 2 => decide)
    | (with_reducible apply State.countIf_only; on_goal 2 => decide)
    | (with_reducible apply State.draw_only; on_goal 2 => decide)
    | (with_reducible apply State.setChan_only; on_goal 2 => decide)

theorem State.setPage_only {m : Nat} {s t : State} {a1 a2} (h : OnlyM m s t) (i : mask [.curPages] ||| m = m) :
    OnlyM m s (State.setPage t a1 a2) := by
  refine OnlyM.ofStep h ?_ i; clear h i; unfold State.setPage
  repeat' first
    | with_reducible exact .refl _ _
    | extract_lets
    | fail_if_no_progress (with_reducible apply OnlyM.lit_curPages; on_goal 2 => decide)

theorem State.setRing_only {m : Nat} {s t : State} {a1 a2} (h : OnlyM m s t) (i : mask [.hifRings] ||| m = m) :
    OnlyM m s (State.setRing t a1 a2) := by
  refine OnlyM.ofStep h ?_ i; clear h i; unfold State.setRing
  repeat' first
    | with_reducible exact .refl _ _
    | extract_lets
    | fail_if_no_progress (with_reducible apply OnlyM.lit_hifRings; on_goal 2 => decide)

theorem State.ringInterrupt_only {m : Nat} {s t : State} {a1} (h : OnlyM m s t) (i : mask [.hifRings] ||| m = m) :
    OnlyM m s (State.ringInterrupt t a1) := by
  refine OnlyM.ofStep h ?_ i; clear h i; unfold State.ringInterrupt
  repeat' first
    | with_reducible exact .refl _ _
    | extract_lets
    | with_reducible apply OnlyM.ite
    | (with_reducible apply State.setRing_only; on_goal 2 => decide)

theorem State.emit_only {m : Nat} {s t : State} {a1} (h : OnlyM m s t) (i : mask [.out] ||| m = m) :
    OnlyM m s (State.emit t a1) := by
  refine OnlyM.ofStep h ?_ i; clear h i; unfold State.emit
  repeat' first
    | with_reducible exact .refl _ _
    | fail_if_no_progress (with_reducible apply OnlyM.lit_out; on_goal 2 => decide)

theorem State.hostWrite_only {m : Nat} {s t : State} {a1 a2 a3} (h : OnlyM m s t) (i : mask [.out] ||| m = m) :
    OnlyM m s (State.hostWrite t a1 a2 a3) := by
  refine OnlyM.ofStep h ?_ i; clear h i; unfold State.hostWrite
  repeat' first
    | with_reducible exact .refl _ _
    | extract_lets
    | with_reducible apply OnlyM.ite
    | (with_reducible apply State.emit_only; on_goal 2 => decide)

theorem State.ringRecord_only {m : Nat} {s t : State} {a1 a2 a3 a4 a5 a6 a7 a8} (h : OnlyM m s t) (i : mask [.hifRings,
      .out] ||| m = m) :
    OnlyM m s (State.ringRecord t a1 a2 a3 a4 a5 a6 a7 a8) := by
  refine OnlyM.ofStep h ?_ i; clear h i; unfold State.ringRecord
  repeat' first
    | with_reducible exact .refl _ _
    | extract_lets
    | (with_reducible apply State.ringInterrupt_only; on_goal 2 => decide)
    | (with_reducible apply State.setRing_only; on_goal 2 => decide)
    | (with_reducible apply State.hostWrite_only; on_goal 2 => decide)

theorem State.recordOp_only {m : Nat} {s t : State} {a1 a2 a3 a4} (h : OnlyM m s t) (i : mask [.hifRings, .hifInflight,
      .out] ||| m = m) :
    OnlyM m s (State.recordOp t a1 a2 a3 a4) := by
  refine OnlyM.ofStep h ?_ i; clear h i; unfold State.recordOp
  repeat' first
    | with_reducible exact .refl _ _
    | extract_lets
    | with_reducible apply OnlyM.ite
    | (with_reducible apply State.ringRecord_only; on_goal 2 => decide)
    | fail_if_no_progress (with_reducible apply OnlyM.lit_hifInflight; on_goal 2 => decide)

theorem State.noteStart_only {m : Nat} {s t : State} {a1 a2 a3} (h : OnlyM m s t) (i : mask [.catStarted] ||| m = m) :
    OnlyM m s (State.noteStart t a1 a2 a3) := by
  refine OnlyM.ofStep h ?_ i; clear h i; unfold State.noteStart
  repeat' first
    | with_reducible exact .refl _ _
    | extract_lets
    | fail_if_no_progress (with_reducible apply OnlyM.lit_catStarted; on_goal 2 => decide)

theorem State.eventRec_only {m : Nat} {s t : State} {a1 a2 a3 a4 a5} (h : OnlyM m s t) (i : mask [.catRings,
      .free] ||| m = m) :
    OnlyP m s (State.eventRec t a1 a2 a3 a4 a5) := by
  refine OnlyP.ofStep h ?_ i; clear h i; unfold State.eventRec
  repeat' first
    | with_reducible exact .refl _ _
    | extract_lets l1 l2 l3 l4 l5 l6 l7 l8
    | (with_reducible apply State.draw_only; on_goal 2 => decide)
    | fail_if_no_progress (with_reducible apply OnlyM.lit_catRings; on_goal 2 => decide)
    | split
    | unfold l8
    | unfold l7
    | unfold l6
    | unfold l5
    | unfold l4
    | unfold l3
    | unfold l2
    | unfold l1
    | with_reducible apply OnlyP.mk'

theorem State.traceOffer_only {m : Nat} {s t : State} {a1 a2 a3 a4 a5} (h : OnlyM m s t) (i : mask [.catTrace] ||| m = m) :
    OnlyM m s (State.traceOffer t a1 a2 a3 a4 a5) := by
  refine OnlyM.ofStep h ?_ i; clear h i; unfold State.traceOffer
  repeat' first
    | with_reducible exact .refl _ _
    | extract_lets
    | with_reducible apply OnlyM.ite
    | fail_if_no_progress (with_reducible apply OnlyM.lit_catTrace; on_goal 2 => decide)

theorem State.event_only {m : Nat} {s t : State} {a1 a2 a3 a4 a5} (h : OnlyM m s t) (i : mask [.catRings, .catTrace,
      .free] ||| m = m) :
    OnlyM m s (State.event t a1 a2 a3 a4 a5) := by
  refine OnlyM.ofStep h ?_ i; clear h i; unfold State.event
  repeat' first
    | with_reducible exact .refl _ _
    | extract_lets
    | (with_reducible apply State.eventRec_only; on_goal 2 => decide)
    | (with_reducible apply State.traceOffer_only; on_goal 2 => decide)
    | with_reducible apply OnlyP.fst

theorem State.opEvent_only {m : Nat} {s t : State} {a1 a2 a3 a4} (h : OnlyM m s t) (i : mask [.catRings, .catStarted,
      .catTrace, .free] ||| m = m) :
    OnlyM m s (State.opEvent t a1 a2 a3 a4) := by
  refine OnlyM.ofStep h ?_ i; clear h i; unfold State.opEvent
  repeat' first
    | with_reducible exact .refl _ _
    | extract_lets
    | (with_reducible apply State.noteStart_only; on_goal 2 => decide)
    | (with_reducible apply State.event_only; on_goal 2 => decide)

theorem State.settleFence_only {m : Nat} {s t : State} {a1} (h : OnlyM m s t) (i : mask [.hifRings, .hifInflight,
      .hifFences, .catRings, .catStarted, .catTrace, .free, .out] ||| m = m) :
    OnlyM m s (State.settleFence t a1) := by
  refine OnlyM.ofStep h ?_ i; clear h i; unfold State.settleFence
  repeat' first
    | with_reducible exact .refl _ _
    | extract_lets
    | (with_reducible apply State.recordOp_only; on_goal 2 => decide)
    | (with_reducible apply State.opEvent_only; on_goal 2 => decide)
    | fail_if_no_progress (with_reducible apply OnlyM.lit_hifFences; on_goal 2 => decide)
    | split

theorem State.queueIncident_only {m : Nat} {s t : State} {a1} (h : OnlyM m s t) (i : mask [.rasQueue] ||| m = m) :
    OnlyM m s (State.queueIncident t a1) := by
  refine OnlyM.ofStep h ?_ i; clear h i; unfold State.queueIncident
  repeat' first
    | with_reducible exact .refl _ _
    | extract_lets
    | fail_if_no_progress (with_reducible apply OnlyM.lit_rasQueue; on_goal 2 => decide)

theorem State.setSource_only {m : Nat} {s t : State} {a1 a2} (h : OnlyM m s t) (i : mask [.rasSources] ||| m = m) :
    OnlyM m s (State.setSource t a1 a2) := by
  refine OnlyM.ofStep h ?_ i; clear h i; unfold State.setSource
  repeat' first
    | with_reducible exact .refl _ _
    | extract_lets
    | fail_if_no_progress (with_reducible apply OnlyM.lit_rasSources; on_goal 2 => decide)

theorem State.incident_only {m : Nat} {s t : State} {a1 a2 a3 a4 a5 a6} (h : OnlyM m s t) (i : mask [.rasSources,
      .rasQueue, .rasOvf, .catRings, .catTrace, .free] ||| m = m) :
    OnlyM m s (State.incident t a1 a2 a3 a4 a5 a6) := by
  refine OnlyM.ofStep h ?_ i; clear h i; unfold State.incident
  repeat' first
    | with_reducible exact .refl _ _
    | extract_lets
    | with_reducible apply OnlyM.ite
    | (with_reducible apply State.queueIncident_only; on_goal 2 => decide)
    | (with_reducible apply State.setSource_only; on_goal 2 => decide)
    | (with_reducible apply State.event_only; on_goal 2 => decide)
    | fail_if_no_progress (with_reducible apply OnlyM.lit_rasOvf; on_goal 2 => decide)

theorem State.noteScratchWords_only {m : Nat} {s t : State} {a1 a2} (h : OnlyM m s t) (i : mask [.rasSources, .rasQueue,
      .rasOvf, .catCounters, .catRings, .catTrace, .free] ||| m = m) :
    OnlyP m s (State.noteScratchWords t a1 a2) := by
  refine OnlyP.ofStep h ?_ i; clear h i; unfold State.noteScratchWords
  repeat' first
    | with_reducible exact .refl _ _
    | extract_lets
    | intro _
    | with_reducible apply OnlyM.ite
    | (with_reducible apply State.incident_only; on_goal 2 => decide)
    | (with_reducible apply State.count_only; on_goal 2 => decide)
    | with_reducible apply OnlyM.foldl
    | with_reducible apply OnlyP.mk'

theorem State.setWindow_only {m : Nat} {s t : State} {a1 a2} (h : OnlyM m s t) (i : mask [.fabWindows] ||| m = m) :
    OnlyM m s (State.setWindow t a1 a2) := by
  refine OnlyM.ofStep h ?_ i; clear h i; unfold State.setWindow
  repeat' first
    | with_reducible exact .refl _ _
    | extract_lets
    | fail_if_no_progress (with_reducible apply OnlyM.lit_fabWindows; on_goal 2 => decide)

theorem State.noteHallWords_only {m : Nat} {s t : State} {a1} (h : OnlyM m s t) (i : mask [.rasSources, .rasQueue, .rasOvf,
      .catRings, .catTrace, .free] ||| m = m) :
    OnlyP m s (State.noteHallWords t a1) := by
  refine OnlyP.ofStep h ?_ i; clear h i; unfold State.noteHallWords
  repeat' first
    | with_reducible exact .refl _ _
    | extract_lets
    | intro _
    | with_reducible apply OnlyM.ite
    | (with_reducible apply State.incident_only; on_goal 2 => decide)
    | with_reducible apply OnlyM.foldl
    | with_reducible apply OnlyP.mk'

theorem State.putHall_only {m : Nat} {s t : State} {a1 a2} (h : OnlyM m s t) (i : mask [.mem, .bad, .rasSources, .rasQueue,
      .rasOvf, .catRings, .catTrace, .free] ||| m = m) :
    OnlyP m s (State.putHall t a1 a2) := by
  refine OnlyP.ofStep h ?_ i; clear h i; unfold State.putHall
  repeat' first
    | with_reducible exact .refl _ _
    | extract_lets l1 l2
    | (with_reducible apply State.noteHallWords_only; on_goal 2 => decide)
    | (with_reducible apply State.sramWrite_only; on_goal 2 => decide)
    | with_reducible apply OnlyP.fst
    | unfold l2
    | unfold l1
    | with_reducible apply OnlyP.mk'

theorem State.writeHall_only {m : Nat} {s t : State} {a1 a2} (h : OnlyM m s t) (i : mask [.mem, .bad, .rasSources,
      .rasQueue, .rasOvf, .catRings, .catTrace, .free] ||| m = m) :
    OnlyM m s (State.writeHall t a1 a2) := by
  refine OnlyM.ofStep h ?_ i; clear h i; unfold State.writeHall
  repeat' first
    | with_reducible exact .refl _ _
    | extract_lets
    | (with_reducible apply State.putHall_only; on_goal 2 => decide)
    | with_reducible apply OnlyP.fst

theorem State.setTdi_only {m : Nat} {s t : State} {a1 a2} (h : OnlyM m s t) (i : mask [.secTdis] ||| m = m) :
    OnlyM m s (State.setTdi t a1 a2) := by
  refine OnlyM.ofStep h ?_ i; clear h i; unfold State.setTdi
  repeat' first
    | with_reducible exact .refl _ _
    | extract_lets
    | fail_if_no_progress (with_reducible apply OnlyM.lit_secTdis; on_goal 2 => decide)

theorem State.take_only {m : Nat} {s t : State} {a1 a2 a3} (h : OnlyM m s t) (i : mask [.hifInflight, .docGroups,
      .nextOp] ||| m = m) :
    OnlyP m s (State.take t a1 a2 a3) := by
  refine OnlyP.ofStep h ?_ i; clear h i; unfold State.take
  repeat' first
    | with_reducible exact .refl _ _
    | extract_lets l1 l2 l3 l4
    | fail_if_no_progress (with_reducible apply OnlyM.lit_nextOp; on_goal 2 => decide)
    | fail_if_no_progress (with_reducible apply OnlyM.lit_hifInflight; on_goal 2 => decide)
    | fail_if_no_progress (with_reducible apply OnlyM.lit_docGroups; on_goal 2 => decide)
    | split
    | unfold l4
    | unfold l3
    | unfold l2
    | unfold l1
    | with_reducible apply OnlyP.mk'

theorem State.noteScratch_only {m : Nat} {s t : State} {a1 a2 a3} (h : OnlyM m s t) (i : mask [.rasSources, .rasQueue,
      .rasOvf, .catCounters, .catRings, .catTrace, .free] ||| m = m) :
    OnlyP m s (State.noteScratch t a1 a2 a3) := by
  refine OnlyP.ofStep h ?_ i; clear h i; unfold State.noteScratch
  repeat' first
    | with_reducible exact .refl _ _
    | (with_reducible apply State.noteScratchWords_only; on_goal 2 => decide)

theorem State.countOverrun_only {m : Nat} {s t : State} {a1} (h : OnlyM m s t) (i : mask [.catCounters, .free] ||| m = m) :
    OnlyM m s (State.countOverrun t a1) := by
  refine OnlyM.ofStep h ?_ i; clear h i; unfold State.countOverrun
  repeat' first
    | with_reducible exact .refl _ _
    | extract_lets
    | with_reducible apply OnlyM.ite
    | (with_reducible apply State.countIf_only; on_goal 2 => decide)
    | (with_reducible apply State.draw_only; on_goal 2 => decide)
    | split

theorem State.setFin_only {m : Nat} {s t : State} {a1 a2} (h : OnlyM m s t) (i : mask [.fins] ||| m = m) :
    OnlyM m s (State.setFin t a1 a2) := by
  refine OnlyM.ofStep h ?_ i; clear h i; unfold State.setFin
  repeat' first
    | with_reducible exact .refl _ _
    | fail_if_no_progress (with_reducible apply OnlyM.lit_fins; on_goal 2 => decide)

theorem State.waitBegin_only {m : Nat} {s t : State} {a1 a2 a3} (h : OnlyM m s t) (i : mask [.catRings, .catWaits,
      .catTrace, .free] ||| m = m) :
    OnlyM m s (State.waitBegin t a1 a2 a3) := by
  refine OnlyM.ofStep h ?_ i; clear h i; unfold State.waitBegin
  repeat' first
    | with_reducible exact .refl _ _
    | extract_lets
    | with_reducible apply OnlyM.ite
    | (with_reducible apply State.draw_only; on_goal 2 => decide)
    | (with_reducible apply State.event_only; on_goal 2 => decide)
    | fail_if_no_progress (with_reducible apply OnlyM.lit_catWaits; on_goal 2 => decide)

theorem State.bwHold_only {m : Nat} {s t : State} {a1 a2 a3 a4} (h : OnlyM m s t) (i : mask [.catCounters, .catRings,
      .catWaits, .catTrace, .free] ||| m = m) :
    OnlyM m s (State.bwHold t a1 a2 a3 a4) := by
  refine OnlyM.ofStep h ?_ i; clear h i; unfold State.bwHold
  repeat' first
    | with_reducible exact .refl _ _
    | extract_lets
    | with_reducible apply OnlyM.ite
    | (with_reducible apply State.count_only; on_goal 2 => decide)
    | (with_reducible apply State.waitBegin_only; on_goal 2 => decide)
    | split

theorem State.waitFree_only {m : Nat} {s t : State} {a1 a2 a3 a4} (h : OnlyM m s t) (i : mask [.catCounters, .catRings,
      .catTrace, .free] ||| m = m) :
    OnlyM m s (State.waitFree t a1 a2 a3 a4) := by
  refine OnlyM.ofStep h ?_ i; clear h i; unfold State.waitFree
  repeat' first
    | with_reducible exact .refl _ _
    | extract_lets _ _ l3
    | with_reducible apply OnlyM.ite
    | (with_reducible apply State.draw_only; on_goal 2 => decide)
    | (with_reducible apply State.count_only; on_goal 2 => decide)
    | (with_reducible apply State.event_only; on_goal 2 => decide)
    | split
    | unfold l3

theorem State.setCore_only {m : Nat} {s t : State} {a1 a2} (h : OnlyM m s t) (i : mask [.cores] ||| m = m) :
    OnlyM m s (State.setCore t a1 a2) := by
  refine OnlyM.ofStep h ?_ i; clear h i; unfold State.setCore
  repeat' first
    | with_reducible exact .refl _ _
    | fail_if_no_progress (with_reducible apply OnlyM.lit_cores; on_goal 2 => decide)

theorem State.upset_only {m : Nat} {s t : State} {a1} (h : OnlyM m s t) (i : mask [.mem, .chk, .bad, .curLost, .curLostCtx,
      .cores] ||| m = m) :
    OnlyM m s (State.upset t a1) := by
  refine OnlyM.ofStep h ?_ i; clear h i; unfold State.upset
  repeat' first
    | with_reducible exact .refl _ _
    | extract_lets
    | (with_reducible apply State.burstUpset_only; on_goal 2 => decide)
    | (with_reducible apply State.setCore_only; on_goal 2 => decide)
    | fail_if_no_progress (with_reducible apply OnlyM.lit_bad; on_goal 2 => decide)
    | fail_if_no_progress (with_reducible apply OnlyM.lit_curLost; on_goal 2 => decide)
    | fail_if_no_progress (with_reducible apply OnlyM.lit_curLostCtx; on_goal 2 => decide)
    | split

theorem State.dropLines_only {m : Nat} {s t : State} {a1 a2 a3} (h : OnlyM m s t) (i : mask [.cores] ||| m = m) :
    OnlyM m s (State.dropLines t a1 a2 a3) := by
  refine OnlyM.ofStep h ?_ i; clear h i; unfold State.dropLines
  repeat' first
    | with_reducible exact .refl _ _
    | extract_lets
    | with_reducible apply OnlyM.ite
    | (with_reducible apply State.setCore_only; on_goal 2 => decide)

theorem State.writeChan_only {m : Nat} {s t : State} {a1 a2 a3} (h : OnlyM m s t) (i : mask [.mem, .chk, .cores,
      .rasSources, .rasQueue, .rasOvf, .catCounters, .catRings, .catTrace, .free] ||| m = m) :
    OnlyP m s (State.writeChan t a1 a2 a3) := by
  refine OnlyP.ofStep h ?_ i; clear h i; unfold State.writeChan
  repeat' first
    | with_reducible exact .refl _ _
    | extract_lets l1 l2 l3 l4 l5 _ l7
    | intro _
    | (with_reducible apply State.chanWrite_only; on_goal 2 => decide)
    | (with_reducible apply State.dropLines_only; on_goal 2 => decide)
    | (with_reducible apply State.count_only; on_goal 2 => decide)
    | (with_reducible apply State.incident_only; on_goal 2 => decide)
    | with_reducible apply OnlyM.foldl
    | with_reducible apply OnlyP.fst
    | split
    | unfold l7
    | unfold l5
    | unfold l4
    | unfold l3
    | unfold l2
    | unfold l1
    | with_reducible apply OnlyP.mk'

theorem State.freezeRings_only {m : Nat} {s t : State} {a1} (h : OnlyM m s t) (i : mask [.catFrozen, .catFcause] ||| m = m) :
    OnlyM m s (State.freezeRings t a1) := by
  refine OnlyM.ofStep h ?_ i; clear h i; unfold State.freezeRings
  repeat' first
    | with_reducible exact .refl _ _
    | extract_lets
    | with_reducible apply OnlyM.ite
    | fail_if_no_progress (with_reducible apply OnlyM.lit_catFrozen_catFcause; on_goal 2 => decide)

theorem State.msix_only {m : Nat} {s t : State} {a1 a2} (h : OnlyM m s t) (i : mask [.hifMsixPend, .out] ||| m = m) :
    OnlyM m s (State.msix t a1 a2) := by
  refine OnlyM.ofStep h ?_ i; clear h i; unfold State.msix
  repeat' first
    | with_reducible exact .refl _ _
    | extract_lets
    | with_reducible apply OnlyM.ite
    | (with_reducible apply State.emit_only; on_goal 2 => decide)
    | fail_if_no_progress (with_reducible apply OnlyM.lit_hifMsixPend; on_goal 2 => decide)

theorem State.ringMessage_only {m : Nat} {s t : State} {a1} (h : OnlyM m s t) (i : mask [.hifRings, .hifMsixPend,
      .out] ||| m = m) :
    OnlyM m s (State.ringMessage t a1) := by
  refine OnlyM.ofStep h ?_ i; clear h i; unfold State.ringMessage
  repeat' first
    | with_reducible exact .refl _ _
    | extract_lets
    | (with_reducible apply State.msix_only; on_goal 2 => decide)
    | (with_reducible apply State.setRing_only; on_goal 2 => decide)

theorem State.ringMessages_only {m : Nat} {s t : State} (h : OnlyM m s t) (i : mask [.hifRings, .hifMsixPend,
      .out] ||| m = m) :
    OnlyM m s (State.ringMessages t) := by
  refine OnlyM.ofStep h ?_ i; clear h i; unfold State.ringMessages
  repeat' first
    | with_reducible exact .refl _ _
    | extract_lets
    | intro _
    | (with_reducible apply State.ringMessage_only; on_goal 2 => decide)
    | with_reducible apply OnlyM.foldl

theorem State.setFrame_only {m : Nat} {s t : State} {a1 a2 a3} (h : OnlyM m s t) (i : mask [.curFrames] ||| m = m) :
    OnlyM m s (State.setFrame t a1 a2 a3) := by
  refine OnlyM.ofStep h ?_ i; clear h i; unfold State.setFrame
  repeat' first
    | with_reducible exact .refl _ _
    | extract_lets
    | fail_if_no_progress (with_reducible apply OnlyM.lit_curFrames; on_goal 2 => decide)

theorem State.fillLates_only {m : Nat} {s t : State} {l} (h : OnlyM m s t) (i : mask [.rasSources, .rasQueue] ||| m = m) :
    OnlyM m s (State.fillLates l t) := by
  refine OnlyM.ofStep h (?_ : OnlyM (mask [.rasSources, .rasQueue]) t (State.fillLates l t)) i; clear h i
  suffices k : ∀ s, OnlyM (mask [.rasSources, .rasQueue]) s t → OnlyM (mask [.rasSources,
      .rasQueue]) s (State.fillLates l t) from k t (.refl _ _)
  induction l generalizing t with
  | nil => intro s h; unfold State.fillLates; exact h
  | cons a l ih =>
    intro s h; unfold State.fillLates
    repeat' first
    | with_reducible apply ih
    | with_reducible assumption
    | extract_lets _ _ l3
    | with_reducible apply OnlyM.ite
    | (with_reducible apply State.queueIncident_only; on_goal 2 => decide)
    | (with_reducible apply State.setSource_only; on_goal 2 => decide)
    | split
    | unfold l3

theorem State.setKvMap_only {m : Nat} {s t : State} {a1 a2} (h : OnlyM m s t) (i : mask [.curMaps] ||| m = m) :
    OnlyM m s (State.setKvMap t a1 a2) := by
  refine OnlyM.ofStep h ?_ i; clear h i; unfold State.setKvMap
  repeat' first
    | with_reducible exact .refl _ _
    | extract_lets
    | fail_if_no_progress (with_reducible apply OnlyM.lit_curMaps; on_goal 2 => decide)

theorem State.fillFirsts_only {m : Nat} {s t : State} {l} (h : OnlyM m s t) (i : mask [.rasSources, .rasQueue] ||| m = m) :
    OnlyM m s (State.fillFirsts l t) := by
  refine OnlyM.ofStep h (?_ : OnlyM (mask [.rasSources, .rasQueue]) t (State.fillFirsts l t)) i; clear h i
  suffices k : ∀ s, OnlyM (mask [.rasSources, .rasQueue]) s t → OnlyM (mask [.rasSources,
      .rasQueue]) s (State.fillFirsts l t) from k t (.refl _ _)
  induction l generalizing t with
  | nil => intro s h; unfold State.fillFirsts; exact h
  | cons a l ih =>
    intro s h; unfold State.fillFirsts
    repeat' first
    | with_reducible apply ih
    | with_reducible assumption
    | extract_lets
    | with_reducible apply OnlyM.ite
    | (with_reducible apply State.queueIncident_only; on_goal 2 => decide)
    | (with_reducible apply State.setSource_only; on_goal 2 => decide)
    | split

theorem State.fillQueue_only {m : Nat} {s t : State} (h : OnlyM m s t) (i : mask [.rasSources, .rasQueue] ||| m = m) :
    OnlyM m s (State.fillQueue t) := by
  refine OnlyM.ofStep h ?_ i; clear h i; unfold State.fillQueue
  repeat' first
    | with_reducible exact .refl _ _
    | extract_lets
    | (with_reducible apply State.fillLates_only; on_goal 2 => decide)
    | (with_reducible apply State.fillFirsts_only; on_goal 2 => decide)

theorem State.complete_only {m : Nat} {s t : State} {a1 a2 a3} (h : OnlyM m s t) (i : mask [.hifRings, .hifInflight,
      .hifFences, .docGroups, .catCounters, .catRings, .catStarted, .catTrace, .free, .out] ||| m = m) :
    OnlyM m s (State.complete t a1 a2 a3) := by
  refine OnlyM.ofStep h ?_ i; clear h i; unfold State.complete
  repeat' first
    | with_reducible exact .refl _ _
    | extract_lets
    | with_reducible apply OnlyM.ite
    | (with_reducible apply State.opEvent_only; on_goal 2 => decide)
    | (with_reducible apply State.countOverrun_only; on_goal 2 => decide)
    | (with_reducible apply State.settleFence_only; on_goal 2 => decide)
    | (with_reducible apply State.recordOp_only; on_goal 2 => decide)
    | fail_if_no_progress (with_reducible apply OnlyM.lit_docGroups; on_goal 2 => decide)
    | split

theorem State.accept_only {m : Nat} {s t : State} {a1 a2 a3 a4 a5 a6} (h : OnlyM m s t) (i : mask [.hifRings, .hifInflight,
      .hifFences, .docGroups, .catCounters, .catRings, .catStarted, .catTrace, .nextOp, .free, .out] ||| m = m)
    (e : ∀ u o, OnlyM m u (a6 u o)) : OnlyM m s (State.accept t a1 a2 a3 a4 a5 a6) := by
  unfold State.accept
  have ht : OnlyM m s (t.take a2 a3 a4).1 := (State.take_only h (OnlyM.sub (by decide) i)).fst
  split
  · exact h
  · dsimp only
    split
    · exact State.complete_only ht (OnlyM.sub (by decide) i)
    · exact ht.step (e _ _) (Nat.or_self m)

theorem State.upsets_only {m : Nat} {s t : State} {a1} (h : OnlyM m s t) (i : mask [.mem, .chk, .bad, .curLost,
      .curLostCtx, .cores] ||| m = m) :
    OnlyM m s (State.upsets t a1) := by
  refine OnlyM.ofStep h ?_ i; clear h i; unfold State.upsets
  repeat' first
    | with_reducible exact .refl _ _
    | extract_lets
    | intro _
    | (with_reducible apply State.upset_only; on_goal 2 => decide)
    | with_reducible apply OnlyM.foldl

theorem State.setPlinth_only {m : Nat} {s t : State} {a1 a2} (h : OnlyM m s t) (i : mask [.plinths] ||| m = m) :
    OnlyM m s (State.setPlinth t a1 a2) := by
  refine OnlyM.ofStep h ?_ i; clear h i; unfold State.setPlinth
  repeat' first
    | with_reducible exact .refl _ _
    | fail_if_no_progress (with_reducible apply OnlyM.lit_plinths; on_goal 2 => decide)

theorem State.setCtx_only {m : Nat} {s t : State} {a1 a2} (h : OnlyM m s t) (i : mask [.docCtxs] ||| m = m) :
    OnlyM m s (State.setCtx t a1 a2) := by
  refine OnlyM.ofStep h ?_ i; clear h i; unfold State.setCtx
  repeat' first
    | with_reducible exact .refl _ _
    | extract_lets
    | fail_if_no_progress (with_reducible apply OnlyM.lit_docCtxs; on_goal 2 => decide)

theorem State.waitsDrop_only {m : Nat} {s t : State} {a1} (h : OnlyM m s t) (i : mask [.catWaits] ||| m = m) :
    OnlyM m s (State.waitsDrop t a1) := by
  refine OnlyM.ofStep h ?_ i; clear h i; unfold State.waitsDrop
  repeat' first
    | with_reducible exact .refl _ _
    | extract_lets
    | fail_if_no_progress (with_reducible apply OnlyM.lit_catWaits; on_goal 2 => decide)

theorem State.hostRead_only {m : Nat} {s t : State} {a1 a2 a3 a4} (h : OnlyM m s t) (i : mask [.out] ||| m = m) :
    OnlyM m s (State.hostRead t a1 a2 a3 a4) := by
  refine OnlyM.ofStep h ?_ i; clear h i; unfold State.hostRead
  repeat' first
    | with_reducible exact .refl _ _
    | extract_lets
    | with_reducible apply OnlyM.ite
    | (with_reducible apply State.emit_only; on_goal 2 => decide)

theorem State.waitEnd_only {m : Nat} {s t : State} {a1 a2 a3 a4} (h : OnlyM m s t) (i : mask [.catCounters, .catRings,
      .catWaits, .catTrace, .free] ||| m = m) :
    OnlyM m s (State.waitEnd t a1 a2 a3 a4) := by
  refine OnlyM.ofStep h ?_ i; clear h i; unfold State.waitEnd
  repeat' first
    | with_reducible exact .refl _ _
    | extract_lets l1
    | with_reducible apply OnlyM.ite
    | (with_reducible apply State.count_only; on_goal 2 => decide)
    | (with_reducible apply State.event_only; on_goal 2 => decide)
    | fail_if_no_progress (with_reducible apply OnlyM.lit_catWaits; on_goal 2 => decide)
    | split
    | unfold l1

theorem State.setPort_only {m : Nat} {s t : State} {a1 a2} (h : OnlyM m s t) (i : mask [.fabPorts] ||| m = m) :
    OnlyM m s (State.setPort t a1 a2) := by
  refine OnlyM.ofStep h ?_ i; clear h i; unfold State.setPort
  repeat' first
    | with_reducible exact .refl _ _
    | extract_lets
    | fail_if_no_progress (with_reducible apply OnlyM.lit_fabPorts; on_goal 2 => decide)

theorem State.noteHall_only {m : Nat} {s t : State} {a1 a2} (h : OnlyM m s t) (i : mask [.rasSources, .rasQueue, .rasOvf,
      .catRings, .catTrace, .free] ||| m = m) :
    OnlyP m s (State.noteHall t a1 a2) := by
  refine OnlyP.ofStep h ?_ i; clear h i; unfold State.noteHall
  repeat' first
    | with_reducible exact .refl _ _
    | (with_reducible apply State.noteHallWords_only; on_goal 2 => decide)

theorem State.writeScratch_only {m : Nat} {s t : State} {a1 a2 a3} (h : OnlyM m s t) (i : mask [.mem, .bad, .rasSources,
      .rasQueue, .rasOvf, .catCounters, .catRings, .catTrace, .free] ||| m = m) :
    OnlyP m s (State.writeScratch t a1 a2 a3) := by
  refine OnlyP.ofStep h ?_ i; clear h i; unfold State.writeScratch
  repeat' first
    | with_reducible exact .refl _ _
    | extract_lets l1 l2
    | (with_reducible apply State.noteScratchWords_only; on_goal 2 => decide)
    | (with_reducible apply State.sramWrite_only; on_goal 2 => decide)
    | with_reducible apply OnlyP.fst
    | unfold l2
    | unfold l1
    | with_reducible apply OnlyP.mk'

theorem State.sbLeave_only {m : Nat} {s t : State} {a1 a2} (h : OnlyM m s t) (i : mask [.cores] ||| m = m) :
    OnlyM m s (State.sbLeave t a1 a2) := by
  refine OnlyM.ofStep h ?_ i; clear h i; unfold State.sbLeave
  repeat' first
    | with_reducible exact .refl _ _
    | extract_lets
    | (with_reducible apply State.setCore_only; on_goal 2 => decide)

theorem State.useHandle_only {m : Nat} {s t : State} {a1 a2 a3} (h : OnlyM m s t) (i : mask [.cores] ||| m = m) :
    OnlyM m s (State.useHandle t a1 a2 a3) := by
  refine OnlyM.ofStep h ?_ i; clear h i; unfold State.useHandle
  repeat' first
    | with_reducible exact .refl _ _
    | extract_lets
    | (with_reducible apply State.setCore_only; on_goal 2 => decide)

theorem State.setPanel_only {m : Nat} {s t : State} {a1 a2 a3} (h : OnlyM m s t) (i : mask [.tiersPanels] ||| m = m) :
    OnlyM m s (State.setPanel t a1 a2 a3) := by
  refine OnlyM.ofStep h ?_ i; clear h i; unfold State.setPanel
  repeat' first
    | with_reducible exact .refl _ _
    | extract_lets
    | fail_if_no_progress (with_reducible apply OnlyM.lit_tiersPanels; on_goal 2 => decide)

theorem State.incidentEnable_only {m : Nat} {s t : State} {a1} (h : OnlyM m s t) (i : mask [.regs, .rasW,
      .rasCons] ||| m = m) :
    OnlyM m s (State.incidentEnable t a1) := by
  refine OnlyM.ofStep h ?_ i; clear h i; unfold State.incidentEnable
  repeat' first
    | with_reducible exact .refl _ _
    | extract_lets
    | with_reducible apply OnlyM.ite
    | (with_reducible apply State.setField_only; on_goal 2 => decide)
    | fail_if_no_progress (with_reducible apply OnlyM.lit_rasW_rasCons; on_goal 2 => decide)

theorem State.pick_only {m : Nat} {s t : State} {α : Type} {l : List α} (h : OnlyM m s t) (i : mask [.free] ||| m = m) :
    OnlyP m s (State.pick t l) := by
  refine OnlyP.ofStep h ?_ i; clear h i; unfold State.pick
  repeat' first
    | with_reducible exact .refl _ _
    | extract_lets
    | (with_reducible apply State.draw_only; on_goal 2 => decide)
    | split
    | with_reducible apply OnlyP.mk'

theorem State.claimSpare_only {m : Nat} {s t : State} {a1} (h : OnlyM m s t) (i : mask [.cores, .rasSources, .rasQueue,
      .rasOvf, .catRings, .catTrace, .free] ||| m = m) :
    OnlyM m s (State.claimSpare t a1) := by
  refine OnlyM.ofStep h ?_ i; clear h i; unfold State.claimSpare
  repeat' first
    | with_reducible exact .refl _ _
    | extract_lets
    | with_reducible apply OnlyM.ite
    | (with_reducible apply State.pick_only; on_goal 2 => decide)
    | (with_reducible apply State.setCore_only; on_goal 2 => decide)
    | (with_reducible apply State.incident_only; on_goal 2 => decide)
    | with_reducible refine OnlyM.ofPair (by assumption) ?_
    | split

theorem State.rollFences_only {m : Nat} {s t : State} (h : OnlyM m s t) (i : mask [.cores, .catFenceWin] ||| m = m) :
    OnlyM m s (State.rollFences t) := by
  refine OnlyM.ofStep h ?_ i; clear h i; unfold State.rollFences
  repeat' first
    | with_reducible exact .refl _ _
    | extract_lets
    | with_reducible apply OnlyM.ite
    | fail_if_no_progress (with_reducible apply OnlyM.lit_cores_catFenceWin; on_goal 2 => decide)

theorem State.fenceUnit_only {m : Nat} {s t : State} {a1 a2} (h : OnlyM m s t) (i : mask [.cores, .rasSources, .rasQueue,
      .rasOvf, .catRings, .catFenceWin, .catTrace, .free] ||| m = m) :
    OnlyM m s (State.fenceUnit t a1 a2) := by
  refine OnlyM.ofStep h ?_ i; clear h i; unfold State.fenceUnit
  repeat' first
    | with_reducible exact .refl _ _
    | extract_lets
    | with_reducible apply OnlyM.ite
    | (with_reducible apply State.rollFences_only; on_goal 2 => decide)
    | (with_reducible apply State.claimSpare_only; on_goal 2 => decide)
    | (with_reducible apply State.incident_only; on_goal 2 => decide)
    | (with_reducible apply State.setCore_only; on_goal 2 => decide)

theorem State.clearSource_only {m : Nat} {s t : State} (h : OnlyM m s t) (i : mask [.rasSources] ||| m = m) :
    OnlyM m s (State.clearSource t) := by
  refine OnlyM.ofStep h ?_ i; clear h i; unfold State.clearSource
  repeat' first
    | with_reducible exact .refl _ _
    | extract_lets
    | (with_reducible apply State.setSource_only; on_goal 2 => decide)

theorem State.residueFault_only {m : Nat} {s t : State} {a1 a2 a3 a4 a5 a6} (h : OnlyM m s t) (i : mask [.cores,
      .rasSources, .rasQueue, .rasOvf, .catRings, .catFenceWin, .catTrace, .free] ||| m = m) :
    OnlyM m s (State.residueFault t a1 a2 a3 a4 a5 a6) := by
  refine OnlyM.ofStep h ?_ i; clear h i; unfold State.residueFault
  repeat' first
    | with_reducible exact .refl _ _
    | extract_lets
    | with_reducible apply OnlyM.ite
    | (with_reducible apply State.rollFences_only; on_goal 2 => decide)
    | (with_reducible apply State.incident_only; on_goal 2 => decide)
    | (with_reducible apply State.setCore_only; on_goal 2 => decide)
    | (with_reducible apply State.fenceUnit_only; on_goal 2 => decide)

theorem State.quarantine_only {m : Nat} {s t : State} {a1 a2} (h : OnlyM m s t) (i : mask [.tiersPanels, .tiersRepairs,
      .rasSources, .rasQueue, .rasOvf, .catRings, .catTrace, .free] ||| m = m) :
    OnlyM m s (State.quarantine t a1 a2) := by
  refine OnlyM.ofStep h ?_ i; clear h i; unfold State.quarantine
  repeat' first
    | with_reducible exact .refl _ _
    | extract_lets
    | with_reducible apply OnlyM.ite
    | (with_reducible apply State.incident_only; on_goal 2 => decide)
    | (with_reducible apply State.setPanel_only; on_goal 2 => decide)
    | fail_if_no_progress (with_reducible apply OnlyM.lit_tiersRepairs; on_goal 2 => decide)

theorem State.noteBurst_only {m : Nat} {s t : State} {a1 a2 a3 a4 a5} (h : OnlyM m s t) (i : mask [.tiersPanels,
      .tiersRepairs, .rasSources, .rasQueue, .rasOvf, .catCounters, .catRings, .catTrace, .free] ||| m = m) :
    OnlyM m s (State.noteBurst t a1 a2 a3 a4 a5) := by
  refine OnlyM.ofStep h ?_ i; clear h i; unfold State.noteBurst
  repeat' first
    | with_reducible exact .refl _ _
    | extract_lets l1 l2 l3 l4
    | with_reducible apply OnlyM.ite
    | (with_reducible apply State.incident_only; on_goal 2 => decide)
    | (with_reducible apply State.count_only; on_goal 2 => decide)
    | (with_reducible apply State.quarantine_only; on_goal 2 => decide)
    | split
    | unfold l4
    | unfold l3
    | unfold l2
    | unfold l1

theorem State.noteChan_only {m : Nat} {s t : State} {a1 a2 a3 a4} (h : OnlyM m s t) (i : mask [.tiersPanels, .tiersRepairs,
      .rasSources, .rasQueue, .rasOvf, .catCounters, .catRings, .catTrace, .free] ||| m = m) :
    OnlyM m s (State.noteChan t a1 a2 a3 a4) := by
  refine OnlyM.ofStep h ?_ i; clear h i; unfold State.noteChan
  repeat' first
    | with_reducible exact .refl _ _
    | extract_lets
    | intro _
    | (with_reducible apply State.noteBurst_only; on_goal 2 => decide)
    | with_reducible apply OnlyM.foldl

theorem State.noteHallUse_only {m : Nat} {s t : State} {a1 a2} (h : OnlyM m s t) (i : mask [.tiersPanels, .tiersRepairs,
      .rasSources, .rasQueue, .rasOvf, .catRings, .catTrace, .free] ||| m = m) :
    OnlyP m s (State.noteHallUse t a1 a2) := by
  refine OnlyP.ofStep h ?_ i; clear h i; unfold State.noteHallUse
  repeat' first
    | with_reducible exact .refl _ _
    | extract_lets l1 l2 l3
    | intro _
    | (with_reducible apply State.noteHall_only; on_goal 2 => decide)
    | (with_reducible apply State.quarantine_only; on_goal 2 => decide)
    | with_reducible apply OnlyM.foldl
    | with_reducible apply OnlyP.fst
    | split
    | unfold l3
    | unfold l2
    | unfold l1
    | with_reducible apply OnlyP.mk'

theorem State.incidentInterrupt_only {m : Nat} {s t : State} (h : OnlyM m s t) (i : mask [.rasIntPend] ||| m = m) :
    OnlyM m s (State.incidentInterrupt t) := by
  refine OnlyM.ofStep h ?_ i; clear h i; unfold State.incidentInterrupt
  repeat' first
    | with_reducible exact .refl _ _
    | extract_lets
    | with_reducible apply OnlyM.ite
    | fail_if_no_progress (with_reducible apply OnlyM.lit_rasIntPend; on_goal 2 => decide)

theorem State.classPick_only {m : Nat} {s t : State} {α : Type} {cls : α → Nat} {l : List α} (h : OnlyM m s t)
    (i : mask [.free] ||| m = m) : OnlyP m s (State.classPick t cls l) := by
  refine OnlyP.ofStep h ?_ i; clear h i; unfold State.classPick
  repeat' first
    | with_reducible exact .refl _ _
    | extract_lets l1
    | with_reducible apply OnlyP.ite
    | (with_reducible apply State.pick_only; on_goal 2 => decide)
    | split
    | unfold l1
    | with_reducible apply OnlyP.mk'

theorem State.incidentMessage_only {m : Nat} {s t : State} (h : OnlyM m s t) (i : mask [.hifMsixPend, .rasIntLeft,
      .rasIntPend, .rasIntEnd, .out] ||| m = m) :
    OnlyM m s (State.incidentMessage t) := by
  refine OnlyM.ofStep h ?_ i; clear h i; unfold State.incidentMessage
  repeat' first
    | with_reducible exact .refl _ _
    | extract_lets
    | (with_reducible apply State.msix_only; on_goal 2 => decide)
    | fail_if_no_progress (with_reducible apply OnlyM.lit_rasIntLeft_rasIntPend_rasIntEnd; on_goal 2 => decide)

theorem State.readChan_only {m : Nat} {s t : State} {a1 a2 a3 a4} (h : OnlyM m s t) (i : mask [.tiersPanels, .tiersRepairs,
      .rasSources, .rasQueue, .rasOvf, .catCounters, .catRings, .catTrace, .free] ||| m = m) :
    OnlyP m s (State.readChan t a1 a2 a3 a4) := by
  refine OnlyP.ofStep h ?_ i; clear h i; unfold State.readChan
  repeat' first
    | with_reducible exact .refl _ _
    | extract_lets l1 l2 l3
    | (with_reducible apply State.noteChan_only; on_goal 2 => decide)
    | unfold l3
    | unfold l2
    | unfold l1
    | with_reducible apply OnlyP.mk'

theorem State.incidentBeat_only {m : Nat} {s t : State} (h : OnlyM m s t) (i : mask [.hifMsixPend, .rasIntLeft,
      .rasIntPend, .rasIntEnd, .out] ||| m = m) :
    OnlyM m s (State.incidentBeat t) := by
  refine OnlyM.ofStep h ?_ i; clear h i; unfold State.incidentBeat
  repeat' first
    | with_reducible exact .refl _ _
    | extract_lets
    | with_reducible apply OnlyM.ite
    | (with_reducible apply State.incidentMessage_only; on_goal 2 => decide)

theorem State.refresh_only {m : Nat} {s t : State} {a1 a2} (h : OnlyM m s t) (i : mask [.chans] ||| m = m) :
    OnlyM m s (State.refresh t a1 a2) := by
  refine OnlyM.ofStep h ?_ i; clear h i; unfold State.refresh
  repeat' first
    | with_reducible exact .refl _ _
    | extract_lets
    | (with_reducible apply State.setChan_only; on_goal 2 => decide)

theorem State.reportThreshold_only {m : Nat} {s t : State} {a1 a2 a3} (h : OnlyM m s t) (i : mask [.secEvents,
      .out] ||| m = m) :
    OnlyM m s (State.reportThreshold t a1 a2 a3) := by
  refine OnlyM.ofStep h ?_ i; clear h i; unfold State.reportThreshold
  repeat' first
    | with_reducible exact .refl _ _
    | extract_lets
    | with_reducible apply OnlyM.ite
    | (with_reducible apply State.emit_only; on_goal 2 => decide)
    | fail_if_no_progress (with_reducible apply OnlyM.lit_secEvents; on_goal 2 => decide)

theorem State.evalPlinth_only {m : Nat} {s t : State} {a1 a2} (h : OnlyM m s t) (i : mask [.plinths, .rasSources,
      .rasQueue, .rasOvf, .catCounters, .catRings, .catTrace, .secEvents, .free, .out] ||| m = m) :
    OnlyM m s (State.evalPlinth t a1 a2) := by
  refine OnlyM.ofStep h ?_ i; clear h i; unfold State.evalPlinth
  repeat' first
    | with_reducible exact .refl _ _
    | extract_lets
    | with_reducible apply OnlyM.ite
    | (with_reducible apply State.setPlinth_only; on_goal 2 => decide)
    | (with_reducible apply State.reportThreshold_only; on_goal 2 => decide)
    | (with_reducible apply State.countIf_only; on_goal 2 => decide)
    | (with_reducible apply State.incident_only; on_goal 2 => decide)

theorem State.evalThermal_only {m : Nat} {s t : State} {a1} (h : OnlyM m s t) (i : mask [.plinths, .rasSources, .rasQueue,
      .rasOvf, .catCounters, .catRings, .catTrace, .secEvents, .free, .out] ||| m = m) :
    OnlyM m s (State.evalThermal t a1) := by
  refine OnlyM.ofStep h ?_ i; clear h i; unfold State.evalThermal
  repeat' first
    | with_reducible exact .refl _ _
    | extract_lets
    | intro _
    | (with_reducible apply State.evalPlinth_only; on_goal 2 => decide)
    | with_reducible apply OnlyM.foldl

theorem State.serveReq_only {m : Nat} {s t : State} {a1 a2} (h : OnlyM m s t) (i : mask [.mem, .chk, .tiersPanels,
      .tiersRepairs, .cores, .chans, .rasSources, .rasQueue, .rasOvf, .catCounters, .catRings, .catTrace, .free] ||| m = m) :
    OnlyM m s (State.serveReq t a1 a2) := by
  refine OnlyM.ofStep h ?_ i; clear h i; unfold State.serveReq
  repeat' first
    | with_reducible exact .refl _ _
    | extract_lets
    | with_reducible apply OnlyM.ite
    | (with_reducible apply State.traffic_only; on_goal 2 => decide)
    | (with_reducible apply State.draw_only; on_goal 2 => decide)
    | (with_reducible apply State.event_only; on_goal 2 => decide)
    | (with_reducible apply State.writeChan_only; on_goal 2 => decide)
    | (with_reducible apply State.noteChan_only; on_goal 2 => decide)
    | with_reducible apply OnlyP.fst
    | split

theorem State.holdReq_only {m : Nat} {s t : State} {a1 a2 a3} (h : OnlyM m s t) (i : mask [.chans, .catCounters] ||| m = m) :
    OnlyM m s (State.holdReq t a1 a2 a3) := by
  refine OnlyM.ofStep h ?_ i; clear h i; unfold State.holdReq
  repeat' first
    | with_reducible exact .refl _ _
    | extract_lets
    | (with_reducible apply State.count_only; on_goal 2 => decide)
    | (with_reducible apply State.setChan_only; on_goal 2 => decide)

theorem State.serveNext_only {m : Nat} {s t : State} {a n} (h : OnlyM m s t) (i : mask [.mem, .chk, .tiersPanels,
      .tiersRepairs, .cores, .chans, .rasSources, .rasQueue, .rasOvf, .catCounters, .catRings, .catTrace, .free] ||| m = m) :
    OnlyM m s (State.serveNext t a n) := by
  refine OnlyM.ofStep h (?_ : OnlyM (mask [.mem, .chk, .tiersPanels, .tiersRepairs, .cores, .chans, .rasSources, .rasQueue,
      .rasOvf, .catCounters, .catRings, .catTrace, .free]) t (State.serveNext t a n)) i; clear h i
  suffices k : ∀ s, OnlyM (mask [.mem, .chk, .tiersPanels, .tiersRepairs, .cores, .chans, .rasSources, .rasQueue, .rasOvf,
      .catCounters, .catRings, .catTrace, .free]) s t → OnlyM (mask [.mem, .chk, .tiersPanels, .tiersRepairs, .cores,
      .chans, .rasSources, .rasQueue, .rasOvf, .catCounters, .catRings, .catTrace,
      .free]) s (State.serveNext t a n) from k t (.refl _ _)
  induction n generalizing t with
  | zero => intro s h; unfold State.serveNext; exact h
  | succ n ih =>
    intro s h; unfold State.serveNext
    repeat' first
    | with_reducible apply ih
    | with_reducible assumption
    | extract_lets
    | with_reducible apply OnlyM.ite
    | (with_reducible apply State.serveReq_only; on_goal 2 => decide)
    | (with_reducible apply State.setChan_only; on_goal 2 => decide)
    | (with_reducible apply State.holdReq_only; on_goal 2 => decide)
    | split

theorem State.drain_only {m : Nat} {s t : State} {a1} (h : OnlyM m s t) (i : mask [.mem, .chk, .tiersPanels, .tiersRepairs,
      .cores, .chans, .rasSources, .rasQueue, .rasOvf, .catCounters, .catRings, .catTrace, .free] ||| m = m) :
    OnlyM m s (State.drain t a1) := by
  refine OnlyM.ofStep h ?_ i; clear h i; unfold State.drain
  repeat' first
    | with_reducible exact .refl _ _
    | extract_lets
    | intro _
    | (with_reducible apply State.serveNext_only; on_goal 2 => decide)
    | with_reducible apply OnlyM.foldl

theorem State.enterRuns_only {m : Nat} {s t : State} {a1 a2 a3} (h : OnlyM m s t) (i : mask [.mem, .chk, .tiersPanels,
      .tiersRepairs, .cores, .chans, .rasSources, .rasQueue, .rasOvf, .catCounters, .catRings, .catTrace, .free] ||| m = m) :
    OnlyM m s (State.enterRuns t a1 a2 a3) := by
  refine OnlyM.ofStep h ?_ i; clear h i; unfold State.enterRuns
  repeat' first
    | with_reducible exact .refl _ _
    | extract_lets
    | intro _
    | (with_reducible apply State.traffic_only; on_goal 2 => decide)
    | (with_reducible apply State.drain_only; on_goal 2 => decide)
    | with_reducible apply OnlyM.foldl

theorem State.arriveReq_only {m : Nat} {s t : State} {a1 a2} (h : OnlyM m s t) (i : mask [.cores, .chans] ||| m = m) :
    OnlyM m s (State.arriveReq t a1 a2) := by
  refine OnlyM.ofStep h ?_ i; clear h i; unfold State.arriveReq
  repeat' first
    | with_reducible exact .refl _ _
    | extract_lets
    | with_reducible apply OnlyM.ite
    | (with_reducible apply State.setChan_only; on_goal 2 => decide)
    | (with_reducible apply State.dropLines_only; on_goal 2 => decide)

theorem State.acceptReqs_only {m : Nat} {s t : State} {a1 n} (h : OnlyM m s t) (i : mask [.cores, .chans] ||| m = m) :
    OnlyM m s (State.acceptReqs t a1 n) := by
  refine OnlyM.ofStep h (?_ : OnlyM (mask [.cores, .chans]) t (State.acceptReqs t a1 n)) i; clear h i
  suffices k : ∀ s, OnlyM (mask [.cores, .chans]) s t → OnlyM (mask [.cores,
      .chans]) s (State.acceptReqs t a1 n) from k t (.refl _ _)
  induction n generalizing t with
  | zero => intro s h; unfold State.acceptReqs; exact h
  | succ n ih =>
    intro s h; unfold State.acceptReqs
    repeat' first
    | with_reducible apply ih
    | with_reducible assumption
    | extract_lets
    | with_reducible apply OnlyM.ite
    | (with_reducible apply State.arriveReq_only; on_goal 2 => decide)
    | (with_reducible apply State.setChan_only; on_goal 2 => decide)
    | split

theorem State.openWindows_only {m : Nat} {s t : State} (h : OnlyM m s t) (i : mask [.chans] ||| m = m) :
    OnlyM m s (State.openWindows t) := by
  refine OnlyM.ofStep h ?_ i; clear h i; unfold State.openWindows
  repeat' first
    | with_reducible exact .refl _ _
    | extract_lets
    | intro _
    | (with_reducible apply State.setChan_only; on_goal 2 => decide)
    | with_reducible apply OnlyM.foldl

theorem State.accrueDebt_only {m : Nat} {s t : State} (h : OnlyM m s t) (i : mask [.plinths, .free] ||| m = m) :
    OnlyM m s (State.accrueDebt t) := by
  refine OnlyM.ofStep h ?_ i; clear h i; unfold State.accrueDebt
  repeat' first
    | with_reducible exact .refl _ _
    | extract_lets
    | intro _
    | (with_reducible apply State.setPlinth_only; on_goal 2 => decide)
    | (with_reducible apply State.draw_only; on_goal 2 => decide)
    | with_reducible apply OnlyM.foldl

theorem State.runsHold_only {m : Nat} {s t : State} {a1 a2 a3 a4} (h : OnlyM m s t) (i : mask [.catCounters, .catRings,
      .catWaits, .catTrace, .free] ||| m = m) :
    OnlyM m s (State.runsHold t a1 a2 a3 a4) := by
  refine OnlyM.ofStep h ?_ i; clear h i; unfold State.runsHold
  repeat' first
    | with_reducible exact .refl _ _
    | extract_lets
    | intro _
    | (with_reducible apply State.bwHold_only; on_goal 2 => decide)
    | with_reducible apply OnlyM.foldl

theorem State.giveT0_only {m : Nat} {s t : State} {a1} (h : OnlyM m s t) (i : mask [.tiersT0used] ||| m = m) :
    OnlyM m s (State.giveT0 t a1) := by
  refine OnlyM.ofStep h ?_ i; clear h i; unfold State.giveT0
  repeat' first
    | with_reducible exact .refl _ _
    | extract_lets
    | fail_if_no_progress (with_reducible apply OnlyM.lit_tiersT0used; on_goal 2 => decide)

theorem State.endObject_only {m : Nat} {s t : State} {a1} (h : OnlyM m s t) (i : mask [.tiersObjs, .tiersPanels,
      .tiersT0used, .tiersRepairs] ||| m = m) :
    OnlyM m s (State.endObject t a1) := by
  refine OnlyM.ofStep h ?_ i; clear h i; unfold State.endObject
  repeat' first
    | with_reducible exact .refl _ _
    | extract_lets
    | (with_reducible apply State.giveT0_only; on_goal 2 => decide)
    | fail_if_no_progress (with_reducible apply OnlyM.lit_tiersObjs_tiersPanels_tiersRepairs; on_goal 2 => decide)

theorem State.endMapping_only {m : Nat} {s t : State} {a1} (h : OnlyM m s t) (i : mask [.tiersObjs, .tiersPanels,
      .tiersMaps, .tiersT0used, .tiersRepairs] ||| m = m) :
    OnlyM m s (State.endMapping t a1) := by
  refine OnlyM.ofStep h ?_ i; clear h i; unfold State.endMapping
  repeat' first
    | with_reducible exact .refl _ _
    | extract_lets
    | with_reducible apply OnlyM.ite
    | (with_reducible apply State.endObject_only; on_goal 2 => decide)
    | fail_if_no_progress (with_reducible apply OnlyM.lit_tiersMaps; on_goal 2 => decide)

theorem State.putObj_only {m : Nat} {s t : State} {a1 a2} (h : OnlyM m s t) (i : mask [.tiersObjs] ||| m = m) :
    OnlyM m s (State.putObj t a1 a2) := by
  refine OnlyM.ofStep h ?_ i; clear h i; unfold State.putObj
  repeat' first
    | with_reducible exact .refl _ _
    | extract_lets
    | fail_if_no_progress (with_reducible apply OnlyM.lit_tiersObjs; on_goal 2 => decide)

theorem State.pinObj_only {m : Nat} {s t : State} {a1 a2} (h : OnlyM m s t) (i : mask [.tiersObjs] ||| m = m) :
    OnlyM m s (State.pinObj t a1 a2) := by
  refine OnlyM.ofStep h ?_ i; clear h i; unfold State.pinObj
  repeat' first
    | with_reducible exact .refl _ _
    | (with_reducible apply State.putObj_only; on_goal 2 => decide)
    | split

theorem State.takeT0_only {m : Nat} {s t : State} {g n} (h : OnlyM m s t) (i : mask [.tiersT0used, .free] ||| m = m) :
    OnlyP m s (State.takeT0 t g n) := by
  refine OnlyP.ofStep h (?_ : OnlyP (mask [.tiersT0used, .free]) t (State.takeT0 t g n)) i; clear h i
  suffices k : ∀ s, OnlyM (mask [.tiersT0used, .free]) s t → OnlyP (mask [.tiersT0used,
      .free]) s (State.takeT0 t g n) from k t (.refl _ _)
  induction n generalizing t with
  | zero => intro s h; unfold State.takeT0; exact ⟨h⟩
  | succ n ih =>
    intro s h; unfold State.takeT0
    repeat' first
    | with_reducible apply ih
    | with_reducible assumption
    | extract_lets l1 l2
    | (with_reducible apply State.pick_only; on_goal 2 => decide)
    | with_reducible refine OnlyM.ofPair (by assumption) ?_
    | with_reducible apply OnlyP.fst
    | fail_if_no_progress (with_reducible apply OnlyM.lit_tiersT0used; on_goal 2 => decide)
    | split
    | unfold l2
    | unfold l1
    | with_reducible apply OnlyP.mk'

end Sys2Proof.Machine
end

