-- ==== Sys2Proof/Laws/OnlyHost.lean ====
section
/-! SUPPORT. What each operation over the rings, the Curator, the streams and the packets may write. -/

set_option linter.tactic.unusedName false

namespace Sys2Proof.Machine

theorem State.flagRing_only {m : Nat} {s t : State} {a1 a2} (h : OnlyM m s t) (i : mask [.hifRings] ||| m = m) :
    OnlyP m s (State.flagRing t a1 a2) := by
  refine OnlyP.ofStep h ?_ i; clear h i; unfold State.flagRing
  repeat' first
    | with_reducible exact .refl _ _
    | extract_lets l1
    | with_reducible apply OnlyP.ite
    | (with_reducible apply State.setRing_only; on_goal 2 => decide)
    | unfold l1
    | with_reducible apply OnlyP.mk'

theorem State.postAck_only {m : Nat} {s t : State} {a1} (h : OnlyM m s t) (i : mask [.out] ||| m = m) :
    OnlyM m s (State.postAck t a1) := by
  refine OnlyM.ofStep h ?_ i; clear h i; unfold State.postAck
  repeat' first
    | with_reducible exact .refl _ _
    | extract_lets
    | with_reducible apply OnlyM.ite
    | (with_reducible apply State.hostWrite_only; on_goal 2 => decide)

theorem State.flagGallery_only {m : Nat} {s t : State} {a1 a2} (h : OnlyM m s t) (i : mask [.hifRings, .out] ||| m = m) :
    OnlyP m s (State.flagGallery t a1 a2) := by
  refine OnlyP.ofStep h ?_ i; clear h i; unfold State.flagGallery
  repeat' first
    | with_reducible exact .refl _ _
    | extract_lets l1 _ l3
    | intro _
    | (with_reducible apply State.flagRing_only; on_goal 2 => decide)
    | (with_reducible apply State.postAck_only; on_goal 2 => decide)
    | with_reducible apply OnlyP.foldl
    | with_reducible apply OnlyP.fst
    | split
    | unfold l3
    | unfold l1
    | with_reducible apply OnlyP.mk'

theorem State.setPoll_only {m : Nat} {s t : State} {a1} (h : OnlyM m s t) (i : mask [.hifPoll] ||| m = m) :
    OnlyM m s (State.setPoll t a1) := by
  refine OnlyM.ofStep h ?_ i; clear h i; unfold State.setPoll
  repeat' first
    | with_reducible exact .refl _ _
    | extract_lets
    | fail_if_no_progress (with_reducible apply OnlyM.lit_hifPoll; on_goal 2 => decide)

theorem State.readEntries_only {m : Nat} {s t : State} {a1 a2 a3} (h : OnlyM m s t) (i : mask [.out] ||| m = m) :
    OnlyM m s (State.readEntries t a1 a2 a3) := by
  refine OnlyM.ofStep h ?_ i; clear h i; unfold State.readEntries
  repeat' first
    | with_reducible exact .refl _ _
    | extract_lets
    | with_reducible apply OnlyM.ite
    | (with_reducible apply State.hostRead_only; on_goal 2 => decide)

theorem State.pollSettle_only {m : Nat} {s t : State} (h : OnlyM m s t) (i : mask [.hifPoll] ||| m = m) :
    OnlyM m s (State.pollSettle t) := by
  refine OnlyM.ofStep h ?_ i; clear h i; unfold State.pollSettle
  repeat' first
    | with_reducible exact .refl _ _
    | extract_lets
    | with_reducible apply OnlyM.ite
    | fail_if_no_progress (with_reducible apply OnlyM.lit_hifPoll; on_goal 2 => decide)
    | split

theorem State.planFetch_only {m : Nat} {s t : State} (h : OnlyM m s t) (i : mask [.hifPoll, .catCounters, .out] ||| m = m) :
    OnlyM m s (State.planFetch t) := by
  refine OnlyM.ofStep h ?_ i; clear h i; unfold State.planFetch
  repeat' first
    | with_reducible exact .refl _ _
    | extract_lets
    | intro _
    | (with_reducible apply State.count_only; on_goal 2 => decide)
    | (with_reducible apply State.readEntries_only; on_goal 2 => decide)
    | (with_reducible apply State.pollSettle_only; on_goal 2 => decide)
    | (with_reducible apply State.setPoll_only; on_goal 2 => decide)
    | with_reducible apply OnlyM.foldl
    | split

theorem State.readDoorbells_only {m : Nat} {s t : State} {a1 a2} (h : OnlyM m s t) (i : mask [.hifPoll, .catCounters,
      .out] ||| m = m) :
    OnlyM m s (State.readDoorbells t a1 a2) := by
  refine OnlyM.ofStep h ?_ i; clear h i; unfold State.readDoorbells
  repeat' first
    | with_reducible exact .refl _ _
    | extract_lets
    | intro _
    | with_reducible apply OnlyM.ite
    | (with_reducible apply State.setPoll_only; on_goal 2 => decide)
    | (with_reducible apply State.planFetch_only; on_goal 2 => decide)
    | (with_reducible apply State.hostRead_only; on_goal 2 => decide)
    | with_reducible apply OnlyM.foldl

theorem State.startPoll_only {m : Nat} {s t : State} (h : OnlyM m s t) (i : mask [.hifPoll, .hifConsNext, .catCounters,
      .out] ||| m = m) :
    OnlyM m s (State.startPoll t) := by
  refine OnlyM.ofStep h ?_ i; clear h i; unfold State.startPoll
  repeat' first
    | with_reducible exact .refl _ _
    | extract_lets
    | intro _
    | with_reducible apply OnlyM.ite
    | (with_reducible apply State.count_only; on_goal 2 => decide)
    | (with_reducible apply State.hostRead_only; on_goal 2 => decide)
    | (with_reducible apply State.setPoll_only; on_goal 2 => decide)
    | (with_reducible apply State.readDoorbells_only; on_goal 2 => decide)
    | with_reducible apply OnlyM.foldl
    | fail_if_no_progress (with_reducible apply OnlyM.lit_hifConsNext; on_goal 2 => decide)
    | split

theorem State.enableRing_only {m : Nat} {s t : State} {a1} (h : OnlyM m s t) (i : mask [.regs, .hifRings] ||| m = m) :
    OnlyM m s (State.enableRing t a1) := by
  refine OnlyM.ofStep h ?_ i; clear h i; unfold State.enableRing
  repeat' first
    | with_reducible exact .refl _ _
    | extract_lets
    | (with_reducible apply State.setRing_only; on_goal 2 => decide)
    | (with_reducible apply State.setField_only; on_goal 2 => decide)

theorem State.holdRefusal_only {m : Nat} {s t : State} {a1 a2 a3 a4} (h : OnlyM m s t) (i : mask [.ctlWerr] ||| m = m) :
    OnlyM m s (State.holdRefusal t a1 a2 a3 a4) := by
  refine OnlyM.ofStep h ?_ i; clear h i; unfold State.holdRefusal
  repeat' first
    | with_reducible exact .refl _ _
    | extract_lets
    | fail_if_no_progress (with_reducible apply OnlyM.lit_ctlWerr; on_goal 2 => decide)

theorem State.refuseWrite_only {m : Nat} {s t : State} {a1 a2 a3} (h : OnlyM m s t) (i : mask [.ctlWerr] ||| m = m) :
    OnlyM m s (State.refuseWrite t a1 a2 a3) := by
  refine OnlyM.ofStep h ?_ i; clear h i; unfold State.refuseWrite
  repeat' first
    | with_reducible exact .refl _ _
    | extract_lets
    | with_reducible apply OnlyM.ite
    | (with_reducible apply State.holdRefusal_only; on_goal 2 => decide)

theorem State.refuseAll_only {m : Nat} {s t : State} {a1 a2 a3} (h : OnlyM m s t) (i : mask [.ctlWerr] ||| m = m) :
    OnlyM m s (State.refuseAll t a1 a2 a3) := by
  refine OnlyM.ofStep h ?_ i; clear h i; unfold State.refuseAll
  repeat' first
    | with_reducible exact .refl _ _
    | (with_reducible apply State.refuseWrite_only; on_goal 2 => decide)
    | split

theorem State.writeRcfg_only {m : Nat} {s t : State} {a1 a2 a3 a4} (h : OnlyM m s t) (i : mask [.regs, .ctlWerr,
      .hifRings] ||| m = m) :
    OnlyM m s (State.writeRcfg t a1 a2 a3 a4) := by
  refine OnlyM.ofStep h ?_ i; clear h i; unfold State.writeRcfg
  repeat' first
    | with_reducible exact .refl _ _
    | extract_lets
    | with_reducible apply OnlyM.ite
    | (with_reducible apply State.refuseAll_only; on_goal 2 => decide)
    | (with_reducible apply State.setField_only; on_goal 2 => decide)
    | (with_reducible apply State.enableRing_only; on_goal 2 => decide)

theorem State.lineGone_only {m : Nat} {s t : State} {a1} (h : OnlyM m s t) (i : mask [.hifPoll] ||| m = m) :
    OnlyM m s (State.lineGone t a1) := by
  refine OnlyM.ofStep h ?_ i; clear h i; unfold State.lineGone
  repeat' first
    | with_reducible exact .refl _ _
    | extract_lets
    | (with_reducible apply State.pollSettle_only; on_goal 2 => decide)
    | (with_reducible apply State.setPoll_only; on_goal 2 => decide)
    | split

theorem State.doorbellGone_only {m : Nat} {s t : State} {a1} (h : OnlyM m s t) (i : mask [.hifPoll, .catCounters,
      .out] ||| m = m) :
    OnlyM m s (State.doorbellGone t a1) := by
  refine OnlyM.ofStep h ?_ i; clear h i; unfold State.doorbellGone
  repeat' first
    | with_reducible exact .refl _ _
    | extract_lets
    | with_reducible apply OnlyM.ite
    | (with_reducible apply State.setPoll_only; on_goal 2 => decide)
    | (with_reducible apply State.planFetch_only; on_goal 2 => decide)
    | split

theorem State.ringNotice_only {m : Nat} {s t : State} {a1 a2 a3} (h : OnlyM m s t) (i : mask [.hifRings, .catCounters,
      .out] ||| m = m) :
    OnlyP m s (State.ringNotice t a1 a2 a3) := by
  refine OnlyP.ofStep h ?_ i; clear h i; unfold State.ringNotice
  repeat' first
    | with_reducible exact .refl _ _
    | extract_lets l1
    | with_reducible apply OnlyP.ite
    | (with_reducible apply State.ringRecord_only; on_goal 2 => decide)
    | (with_reducible apply State.count_only; on_goal 2 => decide)
    | unfold l1
    | with_reducible apply OnlyP.mk'

theorem State.reportCount_only {m : Nat} {s t : State} {a1 a2 a3 a4 a5 a6} (h : OnlyM m s t) (i : mask [.hifRings,
      .catCounters, .out] ||| m = m) :
    OnlyM m s (State.reportCount t a1 a2 a3 a4 a5 a6) := by
  refine OnlyM.ofStep h ?_ i; clear h i; unfold State.reportCount
  repeat' first
    | with_reducible exact .refl _ _
    | extract_lets
    | with_reducible apply OnlyM.ite
    | (with_reducible apply State.ringNotice_only; on_goal 2 => decide)
    | (with_reducible apply State.setRing_only; on_goal 2 => decide)
    | with_reducible apply OnlyP.fst

theorem State.takeDoorbell_only {m : Nat} {s t : State} {a1 a2 a3} (h : OnlyM m s t) (i : mask [.hifRings, .catCounters,
      .out] ||| m = m) :
    OnlyM m s (State.takeDoorbell t a1 a2 a3) := by
  refine OnlyM.ofStep h ?_ i; clear h i; unfold State.takeDoorbell
  repeat' first
    | with_reducible exact .refl _ _
    | extract_lets
    | with_reducible apply OnlyM.ite
    | (with_reducible apply State.setRing_only; on_goal 2 => decide)
    | (with_reducible apply State.count_only; on_goal 2 => decide)
    | (with_reducible apply State.reportCount_only; on_goal 2 => decide)

theorem State.dropPoll_only {m : Nat} {s t : State} (h : OnlyM m s t) (i : mask [.hifRings, .hifPoll] ||| m = m) :
    OnlyM m s (State.dropPoll t) := by
  refine OnlyM.ofStep h ?_ i; clear h i; unfold State.dropPoll
  repeat' first
    | with_reducible exact .refl _ _
    | extract_lets
    | intro _
    | (with_reducible apply State.setRing_only; on_goal 2 => decide)
    | with_reducible apply OnlyM.foldl
    | fail_if_no_progress (with_reducible apply OnlyM.lit_hifPoll; on_goal 2 => decide)
    | split

theorem State.takeCons_only {m : Nat} {s t : State} {a1 a2} (h : OnlyM m s t) (i : mask [.docCtxs, .rasCons,
      .catCounters] ||| m = m) :
    OnlyM m s (State.takeCons t a1 a2) := by
  refine OnlyM.ofStep h ?_ i; clear h i; unfold State.takeCons
  repeat' first
    | with_reducible exact .refl _ _
    | extract_lets
    | with_reducible apply OnlyM.ite
    | (with_reducible apply State.setCtx_only; on_goal 2 => decide)
    | (with_reducible apply State.count_only; on_goal 2 => decide)
    | fail_if_no_progress (with_reducible apply OnlyM.lit_rasCons; on_goal 2 => decide)
    | split

theorem State.tickInterrupts_only {m : Nat} {s t : State} (h : OnlyM m s t) (i : mask [.hifRings, .rasIntLeft,
      .rasIntEnd] ||| m = m) :
    OnlyM m s (State.tickInterrupts t) := by
  refine OnlyM.ofStep h ?_ i; clear h i; unfold State.tickInterrupts
  repeat' first
    | with_reducible exact .refl _ _
    | extract_lets
    | fail_if_no_progress (with_reducible apply OnlyM.lit_hifRings_rasIntLeft_rasIntEnd; on_goal 2 => decide)

theorem State.forkRow_only {m : Nat} {s t : State} {a1 a2} (h : OnlyM m s t) (i : mask [.curPages, .curMaps,
      .catCounters] ||| m = m) :
    OnlyM m s (State.forkRow t a1 a2) := by
  refine OnlyM.ofStep h ?_ i; clear h i; unfold State.forkRow
  repeat' first
    | with_reducible exact .refl _ _
    | extract_lets
    | intro _
    | (with_reducible apply State.setPage_only; on_goal 2 => decide)
    | (with_reducible apply State.count_only; on_goal 2 => decide)
    | (with_reducible apply State.setKvMap_only; on_goal 2 => decide)
    | with_reducible apply OnlyM.foldl

theorem State.curTraffic_only {m : Nat} {s t : State} {a1 a2 a3 a4} (h : OnlyM m s t) (i : mask [.mem, .chk, .tiersPanels,
      .tiersRepairs, .cores, .chans, .rasSources, .rasQueue, .rasOvf, .catCounters, .catRings, .catTrace, .free] ||| m = m) :
    OnlyM m s (State.curTraffic t a1 a2 a3 a4) := by
  refine OnlyM.ofStep h ?_ i; clear h i; unfold State.curTraffic
  repeat' first
    | with_reducible exact .refl _ _
    | (with_reducible apply State.enterRuns_only; on_goal 2 => decide)

theorem State.curatorCopy_only {m : Nat} {s t : State} {a1 a2 a3 a4 a5} (h : OnlyM m s t) (i : mask [.mem, .chk,
      .tiersPanels, .tiersRepairs, .cores, .chans, .rasSources, .rasQueue, .rasOvf, .catCounters, .catRings, .catTrace,
      .free] ||| m = m) :
    OnlyM m s (State.curatorCopy t a1 a2 a3 a4 a5) := by
  refine OnlyM.ofStep h ?_ i; clear h i; unfold State.curatorCopy
  repeat' first
    | with_reducible exact .refl _ _
    | extract_lets
    | (with_reducible apply State.readChan_only; on_goal 2 => decide)
    | (with_reducible apply State.curTraffic_only; on_goal 2 => decide)
    | (with_reducible apply State.writeChan_only; on_goal 2 => decide)
    | with_reducible apply OnlyP.fst

theorem State.copyFrame_only {m : Nat} {s t : State} {a1 a2 a3 a4} (h : OnlyM m s t) (i : mask [.mem, .chk, .tiersPanels,
      .tiersRepairs, .cores, .chans, .rasSources, .rasQueue, .rasOvf, .catCounters, .catRings, .catTrace, .free] ||| m = m) :
    OnlyM m s (State.copyFrame t a1 a2 a3 a4) := by
  refine OnlyM.ofStep h ?_ i; clear h i; unfold State.copyFrame
  repeat' first
    | with_reducible exact .refl _ _
    | extract_lets
    | (with_reducible apply State.curatorCopy_only; on_goal 2 => decide)

theorem State.returnFrame_only {m : Nat} {s t : State} {a1 a2} (h : OnlyM m s t) (i : mask [.curFrames] ||| m = m) :
    OnlyM m s (State.returnFrame t a1 a2) := by
  refine OnlyM.ofStep h ?_ i; clear h i; unfold State.returnFrame
  repeat' first
    | with_reducible exact .refl _ _
    | extract_lets
    | (with_reducible apply State.setFrame_only; on_goal 2 => decide)

theorem State.useFrame_only {m : Nat} {s t : State} {a1 a2 a3} (h : OnlyM m s t) (i : mask [.mem, .chk, .curFrames, .cores,
      .rasSources, .rasQueue, .rasOvf, .catCounters, .catRings, .catTrace, .free] ||| m = m) :
    OnlyM m s (State.useFrame t a1 a2 a3) := by
  refine OnlyM.ofStep h ?_ i; clear h i; unfold State.useFrame
  repeat' first
    | with_reducible exact .refl _ _
    | extract_lets
    | with_reducible apply OnlyM.ite
    | (with_reducible apply State.setFrame_only; on_goal 2 => decide)
    | (with_reducible apply State.writeChan_only; on_goal 2 => decide)
    | (with_reducible apply State.count_only; on_goal 2 => decide)
    | with_reducible apply OnlyP.fst

theorem State.showLimbo_only {m : Nat} {s t : State} (h : OnlyM m s t) (i : mask [.catCounters] ||| m = m) :
    OnlyM m s (State.showLimbo t) := by
  refine OnlyM.ofStep h ?_ i; clear h i; unfold State.showLimbo
  repeat' first
    | with_reducible exact .refl _ _
    | (with_reducible apply State.setLevel_only; on_goal 2 => decide)

theorem State.vacate_only {m : Nat} {s t : State} {a1 a2} (h : OnlyM m s t) (i : mask [.curLimbo, .catCounters] ||| m = m) :
    OnlyM m s (State.vacate t a1 a2) := by
  refine OnlyM.ofStep h ?_ i; clear h i; unfold State.vacate
  repeat' first
    | with_reducible exact .refl _ _
    | extract_lets
    | (with_reducible apply State.showLimbo_only; on_goal 2 => decide)
    | fail_if_no_progress (with_reducible apply OnlyM.lit_curLimbo; on_goal 2 => decide)

theorem State.writeToken_only {m : Nat} {s t : State} {a1 a2 a3 a4 a5} (h : OnlyM m s t) (i : mask [.mem, .chk,
      .tiersPanels, .tiersRepairs, .cores, .chans, .rasSources, .rasQueue, .rasOvf, .catCounters, .catRings, .catTrace,
      .free] ||| m = m) :
    OnlyP m s (State.writeToken t a1 a2 a3 a4 a5) := by
  refine OnlyP.ofStep h ?_ i; clear h i; unfold State.writeToken
  repeat' first
    | with_reducible exact .refl _ _
    | extract_lets l1 l2 l3
    | (with_reducible apply State.writeChan_only; on_goal 2 => decide)
    | (with_reducible apply State.curTraffic_only; on_goal 2 => decide)
    | with_reducible apply OnlyP.fst
    | unfold l3
    | unfold l2
    | unfold l1
    | with_reducible apply OnlyP.mk'

theorem State.stagePage_only {m : Nat} {s t : State} {a1} (h : OnlyM m s t) (i : mask [.mem, .chk, .curStaged,
      .tiersPanels, .tiersRepairs, .cores, .chans, .rasSources, .rasQueue, .rasOvf, .catCounters, .catRings, .catTrace,
      .free] ||| m = m) :
    OnlyP m s (State.stagePage t a1) := by
  refine OnlyP.ofStep h ?_ i; clear h i; unfold State.stagePage
  repeat' first
    | with_reducible exact .refl _ _
    | extract_lets _ l2 l3 l4 l5 l6
    | with_reducible apply OnlyP.ite
    | (with_reducible apply State.readChan_only; on_goal 2 => decide)
    | (with_reducible apply State.curTraffic_only; on_goal 2 => decide)
    | with_reducible apply OnlyP.fst
    | fail_if_no_progress (with_reducible apply OnlyM.lit_curStaged; on_goal 2 => decide)
    | split
    | unfold l6
    | unfold l5
    | unfold l4
    | unfold l3
    | unfold l2
    | with_reducible apply OnlyP.mk'

theorem State.chooseFrame_only {m : Nat} {s t : State} {a1 a2} (h : OnlyM m s t) (i : mask [.curFrames, .catCounters,
      .free] ||| m = m) :
    OnlyP m s (State.chooseFrame t a1 a2) := by
  refine OnlyP.ofStep h ?_ i; clear h i; unfold State.chooseFrame
  repeat' first
    | with_reducible exact .refl _ _
    | extract_lets l1 l2 l3
    | with_reducible apply OnlyP.ite
    | (with_reducible apply State.pick_only; on_goal 2 => decide)
    | (with_reducible apply State.setFrame_only; on_goal 2 => decide)
    | (with_reducible apply State.count_only; on_goal 2 => decide)
    | with_reducible apply OnlyP.fst
    | split
    | unfold l3
    | unfold l2
    | unfold l1
    | with_reducible apply OnlyP.mk'

theorem State.pageMoveStart_only {m : Nat} {s t : State} {a1} (h : OnlyM m s t) (i : mask [.hifRings, .hifInflight,
      .hifFences, .docGroups, .curFrames, .curMoves, .catCounters, .catRings, .catStarted, .catTrace, .free,
      .out] ||| m = m) :
    OnlyM m s (State.pageMoveStart t a1) := by
  refine OnlyM.ofStep h ?_ i; clear h i; unfold State.pageMoveStart
  repeat' first
    | with_reducible exact .refl _ _
    | extract_lets
    | (with_reducible apply State.chooseFrame_only; on_goal 2 => decide)
    | (with_reducible apply State.complete_only; on_goal 2 => decide)
    | (with_reducible apply State.opEvent_only; on_goal 2 => decide)
    | with_reducible refine OnlyM.ofPair (by assumption) ?_
    | fail_if_no_progress (with_reducible apply OnlyM.lit_curMoves; on_goal 2 => decide)
    | split

theorem State.placeEntry_only {m : Nat} {s t : State} {a1 a2} (h : OnlyM m s t) (i : mask [.tiersPanels, .tiersRepairs,
      .rasSources, .rasQueue, .rasOvf, .catCounters, .catRings, .catTrace, .free] ||| m = m) :
    OnlyP m s (State.placeEntry t a1 a2) := by
  refine OnlyP.ofStep h ?_ i; clear h i; unfold State.placeEntry
  repeat' first
    | with_reducible exact .refl _ _
    | extract_lets l1 l2
    | (with_reducible apply State.readChan_only; on_goal 2 => decide)
    | with_reducible apply OnlyP.fst
    | unfold l2
    | unfold l1
    | with_reducible apply OnlyP.mk'

theorem State.listFree_only {m : Nat} {s t : State} {a1} (h : OnlyM m s t) (i : mask [.curPages, .curFrames, .curMaps,
      .curLimbo, .curCows, .curForks, .curMoves, .curLost, .curLostCtx, .curRetired, .curStaged, .curFreed, .curFresh,
      .free] ||| m = m) :
    OnlyM m s (State.listFree t a1) := by
  refine OnlyM.ofStep h ?_ i; clear h i; unfold State.listFree
  repeat' first
    | with_reducible exact .refl _ _
    | extract_lets
    | (with_reducible apply State.draw_only; on_goal 2 => decide)
    | fail_if_no_progress (with_reducible apply OnlyM.lit_all59; on_goal 2 => decide)

theorem State.freePageNo_only {m : Nat} {s t : State} {a1} (h : OnlyM m s t) (i : mask [.curPages, .curFrames, .curMaps,
      .curLimbo, .curCows, .curForks, .curMoves, .curLost, .curLostCtx, .curRetired, .curStaged, .curFreed, .curFresh,
      .catCounters, .free] ||| m = m) :
    OnlyM m s (State.freePageNo t a1) := by
  refine OnlyM.ofStep h ?_ i; clear h i; unfold State.freePageNo
  repeat' first
    | with_reducible exact .refl _ _
    | extract_lets
    | intro _
    | (with_reducible apply State.listFree_only; on_goal 2 => decide)
    | (with_reducible apply State.setPage_only; on_goal 2 => decide)
    | (with_reducible apply State.vacate_only; on_goal 2 => decide)
    | with_reducible apply OnlyM.foldl

theorem State.acceptPageMove_only {m : Nat} {s t : State} {a1 a2} (h : OnlyM m s t) (i : mask [.hifRings, .hifInflight,
      .hifFences, .docGroups, .curFrames, .curMoves, .catCounters, .catRings, .catStarted, .catTrace, .nextOp, .free,
      .out] ||| m = m) :
    OnlyM m s (State.acceptPageMove t a1 a2) := by
  refine OnlyM.ofStep h ?_ i; clear h i; unfold State.acceptPageMove
  repeat' first
    | with_reducible exact .refl _ _
    | extract_lets
    | intro _
    | (with_reducible apply State.accept_only; on_goal 2 => decide)
    | (with_reducible apply State.pageMoveStart_only; on_goal 2 => decide)

theorem State.markFull_only {m : Nat} {s t : State} {a1 a2 a3} (h : OnlyM m s t) (i : mask [.curPages] ||| m = m) :
    OnlyM m s (State.markFull t a1 a2 a3) := by
  refine OnlyM.ofStep h ?_ i; clear h i; unfold State.markFull
  repeat' first
    | with_reducible exact .refl _ _
    | extract_lets
    | with_reducible apply OnlyM.ite
    | (with_reducible apply State.setPage_only; on_goal 2 => decide)

theorem State.stepUe_only {m : Nat} {s t : State} {a1 a2} (h : OnlyM m s t) (i : mask [.docGroups] ||| m = m) :
    OnlyM m s (State.stepUe t a1 a2) := by
  refine OnlyM.ofStep h ?_ i; clear h i; unfold State.stepUe
  repeat' first
    | with_reducible exact .refl _ _
    | extract_lets
    | with_reducible apply OnlyM.ite
    | fail_if_no_progress (with_reducible apply OnlyM.lit_docGroups; on_goal 2 => decide)

theorem State.unstage_only {m : Nat} {s t : State} (h : OnlyM m s t) (i : mask [.curStaged] ||| m = m) :
    OnlyM m s (State.unstage t) := by
  refine OnlyM.ofStep h ?_ i; clear h i; unfold State.unstage
  repeat' first
    | with_reducible exact .refl _ _
    | extract_lets
    | fail_if_no_progress (with_reducible apply OnlyM.lit_curStaged; on_goal 2 => decide)

theorem State.homeCore_only {m : Nat} {s t : State} {a1 a2 a3} (h : OnlyM m s t) (i : mask [.tiersPanels, .tiersRepairs,
      .rasSources, .rasQueue, .rasOvf, .catCounters, .catRings, .catTrace, .free] ||| m = m) :
    OnlyP m s (State.homeCore t a1 a2 a3) := by
  refine OnlyP.ofStep h ?_ i; clear h i; unfold State.homeCore
  repeat' first
    | with_reducible exact .refl _ _
    | extract_lets l1
    | (with_reducible apply State.placeEntry_only; on_goal 2 => decide)
    | with_reducible apply OnlyP.fst
    | unfold l1
    | with_reducible apply OnlyP.mk'

theorem State.cowFrame_only {m : Nat} {s t : State} {a1 a2 a3} (h : OnlyM m s t) (i : mask [.curFrames, .catCounters,
      .free] ||| m = m) :
    OnlyP m s (State.cowFrame t a1 a2 a3) := by
  refine OnlyP.ofStep h ?_ i; clear h i; unfold State.cowFrame
  repeat' first
    | with_reducible exact .refl _ _
    | extract_lets l1
    | (with_reducible apply State.chooseFrame_only; on_goal 2 => decide)
    | with_reducible apply OnlyP.fst
    | split
    | unfold l1
    | with_reducible apply OnlyP.mk'

theorem State.freePage_only {m : Nat} {s t : State} (h : OnlyM m s t) (i : mask [.curFreed, .curFresh] ||| m = m) :
    OnlyP m s (State.freePage t) := by
  refine OnlyP.ofStep h ?_ i; clear h i; unfold State.freePage
  repeat' first
    | with_reducible exact .refl _ _
    | extract_lets
    | with_reducible apply OnlyP.ite
    | fail_if_no_progress (with_reducible apply OnlyM.lit_curFreed; on_goal 2 => decide)
    | fail_if_no_progress (with_reducible apply OnlyM.lit_curFresh; on_goal 2 => decide)
    | split
    | with_reducible apply OnlyP.mk'

theorem State.trimCopies_only {m : Nat} {s t : State} {a n} (h : OnlyM m s t) (i : mask [.curPages, .curFrames, .curMaps,
      .curLimbo, .curCows, .curForks, .curMoves, .curLost, .curLostCtx, .curRetired, .curStaged, .curFreed, .curFresh,
      .catCounters, .free] ||| m = m) :
    OnlyM m s (State.trimCopies t a n) := by
  refine OnlyM.ofStep h (?_ : OnlyM (mask [.curPages, .curFrames, .curMaps, .curLimbo, .curCows, .curForks, .curMoves,
      .curLost, .curLostCtx, .curRetired, .curStaged, .curFreed, .curFresh, .catCounters,
      .free]) t (State.trimCopies t a n)) i; clear h i
  suffices k : ∀ s, OnlyM (mask [.curPages, .curFrames, .curMaps, .curLimbo, .curCows, .curForks, .curMoves, .curLost,
      .curLostCtx, .curRetired, .curStaged, .curFreed, .curFresh, .catCounters, .free]) s t → OnlyM (mask [.curPages,
      .curFrames, .curMaps, .curLimbo, .curCows, .curForks, .curMoves, .curLost, .curLostCtx, .curRetired, .curStaged,
      .curFreed, .curFresh, .catCounters, .free]) s (State.trimCopies t a n) from k t (.refl _ _)
  induction n generalizing t with
  | zero => intro s h; unfold State.trimCopies; exact h
  | succ n ih =>
    intro s h; unfold State.trimCopies
    repeat' first
    | with_reducible apply ih
    | with_reducible assumption
    | extract_lets
    | with_reducible apply OnlyM.ite
    | (with_reducible apply State.setPage_only; on_goal 2 => decide)
    | (with_reducible apply State.listFree_only; on_goal 2 => decide)
    | (with_reducible apply State.vacate_only; on_goal 2 => decide)
    | split

theorem State.dropRef_only {m : Nat} {s t : State} {a1} (h : OnlyM m s t) (i : mask [.curPages, .curFrames, .curMaps,
      .curLimbo, .curCows, .curForks, .curMoves, .curLost, .curLostCtx, .curRetired, .curStaged, .curFreed, .curFresh,
      .catCounters, .free] ||| m = m) :
    OnlyM m s (State.dropRef t a1) := by
  refine OnlyM.ofStep h ?_ i; clear h i; unfold State.dropRef
  repeat' first
    | with_reducible exact .refl _ _
    | extract_lets
    | with_reducible apply OnlyM.ite
    | (with_reducible apply State.freePageNo_only; on_goal 2 => decide)
    | (with_reducible apply State.trimCopies_only; on_goal 2 => decide)
    | (with_reducible apply State.setPage_only; on_goal 2 => decide)

theorem State.tokenWrite_only {m : Nat} {s t : State} {a1 a2 a3 a4} (h : OnlyM m s t) (i : mask [.mem, .chk, .docGroups,
      .curPages, .curFrames, .curMaps, .curLimbo, .curCows, .curForks, .curMoves, .curLost, .curLostCtx, .curRetired,
      .curStaged, .curFreed, .curFresh, .tiersPanels, .tiersRepairs, .cores, .chans, .rasSources, .rasQueue, .rasOvf,
      .catCounters, .catRings, .catTrace, .free] ||| m = m) :
    OnlyP m s (State.tokenWrite t a1 a2 a3 a4) := by
  refine OnlyP.ofStep h ?_ i; clear h i; unfold State.tokenWrite
  repeat' first
    | with_reducible exact .refl _ _
    | extract_lets l1 l2 l3 l4 l5 _ l7
    | with_reducible apply OnlyP.ite
    | (with_reducible apply State.writeToken_only; on_goal 2 => decide)
    | (with_reducible apply State.markFull_only; on_goal 2 => decide)
    | (with_reducible apply State.stepUe_only; on_goal 2 => decide)
    | (with_reducible apply State.homeCore_only; on_goal 2 => decide)
    | (with_reducible apply State.cowFrame_only; on_goal 2 => decide)
    | (with_reducible apply State.freePage_only; on_goal 2 => decide)
    | (with_reducible apply State.setPage_only; on_goal 2 => decide)
    | (with_reducible apply State.count_only; on_goal 2 => decide)
    | (with_reducible apply State.useFrame_only; on_goal 2 => decide)
    | (with_reducible apply State.dropRef_only; on_goal 2 => decide)
    | (with_reducible apply State.setKvMap_only; on_goal 2 => decide)
    | with_reducible refine OnlyM.ofPair (by assumption) ?_
    | with_reducible apply OnlyP.fst
    | fail_if_no_progress (with_reducible apply OnlyM.lit_curCows; on_goal 2 => decide)
    | split
    | unfold l7
    | unfold l5
    | unfold l4
    | unfold l3
    | unfold l2
    | unfold l1
    | with_reducible apply OnlyP.mk'

theorem State.rowLines_only {m : Nat} {s t : State} {a1} (h : OnlyM m s t) (i : mask [.free] ||| m = m) :
    OnlyP m s (State.rowLines t a1) := by
  refine OnlyP.ofStep h ?_ i; clear h i; unfold State.rowLines
  repeat' first
    | with_reducible exact .refl _ _
    | extract_lets
    | (with_reducible apply State.pick_only; on_goal 2 => decide)

theorem State.newPage_only {m : Nat} {s t : State} {a1 a2} (h : OnlyM m s t) (i : mask [.mem, .chk, .curPages, .curFrames,
      .curFreed, .curFresh, .cores, .rasSources, .rasQueue, .rasOvf, .catCounters, .catRings, .catTrace, .free] ||| m = m) :
    OnlyP m s (State.newPage t a1 a2) := by
  refine OnlyP.ofStep h ?_ i; clear h i; unfold State.newPage
  repeat' first
    | with_reducible exact .refl _ _
    | extract_lets
    | (with_reducible apply State.chooseFrame_only; on_goal 2 => decide)
    | (with_reducible apply State.freePage_only; on_goal 2 => decide)
    | (with_reducible apply State.returnFrame_only; on_goal 2 => decide)
    | (with_reducible apply State.setPage_only; on_goal 2 => decide)
    | (with_reducible apply State.useFrame_only; on_goal 2 => decide)
    | with_reducible refine OnlyM.ofPair (by assumption) ?_
    | split
    | with_reducible apply OnlyP.mk'

theorem State.newRow_only {m : Nat} {s t : State} {a1} (h : OnlyM m s t) (i : mask [.mem, .chk, .curPages, .curFrames,
      .curMaps, .curFreed, .curFresh, .tiersPanels, .tiersRepairs, .cores, .rasSources, .rasQueue, .rasOvf, .catCounters,
      .catRings, .catTrace, .free] ||| m = m) :
    OnlyP m s (State.newRow t a1) := by
  refine OnlyP.ofStep h ?_ i; clear h i; unfold State.newRow
  repeat' first
    | with_reducible exact .refl _ _
    | extract_lets l1 l2
    | intro _
    | (with_reducible apply State.rowLines_only; on_goal 2 => decide)
    | (with_reducible apply State.homeCore_only; on_goal 2 => decide)
    | (with_reducible apply State.newPage_only; on_goal 2 => decide)
    | (with_reducible apply State.setKvMap_only; on_goal 2 => decide)
    | with_reducible apply OnlyP.foldl
    | with_reducible refine OnlyM.ofPair (by assumption) ?_
    | with_reducible apply OnlyP.fst
    | split
    | unfold l2
    | unfold l1
    | with_reducible apply OnlyP.mk'

theorem State.forkRows_only {m : Nat} {s t : State} {a1 a2 a3} (h : OnlyM m s t) (i : mask [.curMaps, .free] ||| m = m) :
    OnlyM m s (State.forkRows t a1 a2 a3) := by
  refine OnlyM.ofStep h ?_ i; clear h i; unfold State.forkRows
  repeat' first
    | with_reducible exact .refl _ _
    | extract_lets
    | intro _
    | (with_reducible apply State.rowLines_only; on_goal 2 => decide)
    | (with_reducible apply State.setKvMap_only; on_goal 2 => decide)
    | with_reducible apply OnlyM.foldl
    | with_reducible refine OnlyM.ofPair (by assumption) ?_
    | split

theorem State.forkStart_only {m : Nat} {s t : State} {a1 a2 a3 a4 a5} (h : OnlyM m s t) (i : mask [.curMaps, .curForks,
      .free] ||| m = m) :
    OnlyM m s (State.forkStart t a1 a2 a3 a4 a5) := by
  refine OnlyM.ofStep h ?_ i; clear h i; unfold State.forkStart
  repeat' first
    | with_reducible exact .refl _ _
    | extract_lets
    | (with_reducible apply State.setKvMap_only; on_goal 2 => decide)
    | (with_reducible apply State.forkRows_only; on_goal 2 => decide)
    | fail_if_no_progress (with_reducible apply OnlyM.lit_curForks; on_goal 2 => decide)

theorem State.reserve_only {m : Nat} {s t : State} {a1 a2} (h : OnlyM m s t) (i : mask [.mem, .chk, .curPages, .curFrames,
      .curMaps, .curFreed, .curFresh, .tiersPanels, .tiersRepairs, .cores, .rasSources, .rasQueue, .rasOvf, .catCounters,
      .catRings, .catTrace, .free] ||| m = m) :
    OnlyP m s (State.reserve t a1 a2) := by
  refine OnlyP.ofStep h ?_ i; clear h i; unfold State.reserve
  repeat' first
    | with_reducible exact .refl _ _
    | extract_lets l1 l2 l3 l4 l5 l6 l7 l8 l9 l10 l11 l12
    | intro _
    | with_reducible apply OnlyP.ite
    | (with_reducible apply State.countIf_only; on_goal 2 => decide)
    | (with_reducible apply State.newRow_only; on_goal 2 => decide)
    | (with_reducible apply State.homeCore_only; on_goal 2 => decide)
    | (with_reducible apply State.chooseFrame_only; on_goal 2 => decide)
    | with_reducible apply OnlyM.foldl
    | with_reducible apply OnlyP.foldl
    | with_reducible refine OnlyM.ofPair (by assumption) ?_
    | with_reducible apply OnlyP.fst
    | split
    | unfold l12
    | unfold l11
    | unfold l10
    | unfold l9
    | unfold l8
    | unfold l7
    | unfold l6
    | unfold l5
    | unfold l4
    | unfold l3
    | unfold l2
    | unfold l1
    | with_reducible apply OnlyP.mk'

theorem State.releaseMap_only {m : Nat} {s t : State} {a1} (h : OnlyM m s t) (i : mask [.curPages, .curFrames, .curMaps,
      .curLimbo, .curCows, .curForks, .curMoves, .curLost, .curLostCtx, .curRetired, .curStaged, .curFreed, .curFresh,
      .catCounters, .free] ||| m = m) :
    OnlyM m s (State.releaseMap t a1) := by
  refine OnlyM.ofStep h ?_ i; clear h i; unfold State.releaseMap
  repeat' first
    | with_reducible exact .refl _ _
    | extract_lets
    | intro _
    | (with_reducible apply State.dropRef_only; on_goal 2 => decide)
    | (with_reducible apply State.setKvMap_only; on_goal 2 => decide)
    | with_reducible apply OnlyM.foldl
    | fail_if_no_progress (with_reducible apply OnlyM.lit_curLimbo; on_goal 2 => decide)

theorem State.writeAnswer_only {m : Nat} {s t : State} {a1 a2 a3 a4 a5 a6 a7} (h : OnlyM m s t) (i : mask [.hifOwedVecs,
      .docCtxs, .out] ||| m = m) :
    OnlyM m s (State.writeAnswer t a1 a2 a3 a4 a5 a6 a7) := by
  refine OnlyM.ofStep h ?_ i; clear h i; unfold State.writeAnswer
  repeat' first
    | with_reducible exact .refl _ _
    | extract_lets
    | with_reducible apply OnlyM.ite
    | (with_reducible apply State.setCtx_only; on_goal 2 => decide)
    | (with_reducible apply State.hostWrite_only; on_goal 2 => decide)
    | fail_if_no_progress (with_reducible apply OnlyM.lit_hifOwedVecs; on_goal 2 => decide)

theorem State.notice_only {m : Nat} {s t : State} {a1 a2} (h : OnlyM m s t) (i : mask [.hifOwedVecs, .docCtxs,
      .catCounters, .out] ||| m = m) :
    OnlyM m s (State.notice t a1 a2) := by
  refine OnlyM.ofStep h ?_ i; clear h i; unfold State.notice
  repeat' first
    | with_reducible exact .refl _ _
    | extract_lets
    | with_reducible apply OnlyM.ite
    | (with_reducible apply State.writeAnswer_only; on_goal 2 => decide)
    | (with_reducible apply State.count_only; on_goal 2 => decide)

theorem State.holdStream_only {m : Nat} {s t : State} {a1 a2 a3} (h : OnlyM m s t) (i : mask [.hifOwedVecs, .docCtxs,
      .rasSources, .rasQueue, .rasOvf, .catCounters, .catRings, .catTrace, .free, .out] ||| m = m) :
    OnlyM m s (State.holdStream t a1 a2 a3) := by
  refine OnlyM.ofStep h ?_ i; clear h i; unfold State.holdStream
  repeat' first
    | with_reducible exact .refl _ _
    | extract_lets
    | with_reducible apply OnlyM.ite
    | (with_reducible apply State.incident_only; on_goal 2 => decide)
    | (with_reducible apply State.notice_only; on_goal 2 => decide)
    | (with_reducible apply State.setCtx_only; on_goal 2 => decide)

theorem State.retireLine_only {m : Nat} {s t : State} {a1} (h : OnlyM m s t) (i : mask [.curFrames, .curRetired] ||| m = m) :
    OnlyM m s (State.retireLine t a1) := by
  refine OnlyM.ofStep h ?_ i; clear h i; unfold State.retireLine
  repeat' first
    | with_reducible exact .refl _ _
    | extract_lets
    | intro _
    | with_reducible apply OnlyM.ite
    | (with_reducible apply State.setFrame_only; on_goal 2 => decide)
    | with_reducible apply OnlyM.foldl
    | fail_if_no_progress (with_reducible apply OnlyM.lit_curRetired; on_goal 2 => decide)

theorem State.checkTables_only {m : Nat} {s t : State} {a1 a2} (h : OnlyM m s t) (i : mask [.hifOwedVecs, .docCtxs,
      .curFrames, .curRetired, .rasSources, .rasQueue, .rasOvf, .catCounters, .catRings, .catTrace, .free, .out] ||| m = m) :
    OnlyP m s (State.checkTables t a1 a2) := by
  refine OnlyP.ofStep h ?_ i; clear h i; unfold State.checkTables
  repeat' first
    | with_reducible exact .refl _ _
    | extract_lets
    | with_reducible apply OnlyP.ite
    | (with_reducible apply State.holdStream_only; on_goal 2 => decide)
    | (with_reducible apply State.retireLine_only; on_goal 2 => decide)
    | split
    | with_reducible apply OnlyP.mk'

theorem State.limboReturn_only {m : Nat} {s t : State} (h : OnlyM m s t) (i : mask [.curFrames, .curLimbo,
      .catCounters] ||| m = m) :
    OnlyM m s (State.limboReturn t) := by
  refine OnlyM.ofStep h ?_ i; clear h i; unfold State.limboReturn
  repeat' first
    | with_reducible exact .refl _ _
    | extract_lets
    | intro _
    | with_reducible apply OnlyM.ite
    | (with_reducible apply State.setFrame_only; on_goal 2 => decide)
    | (with_reducible apply State.showLimbo_only; on_goal 2 => decide)
    | with_reducible apply OnlyM.foldl
    | fail_if_no_progress (with_reducible apply OnlyM.lit_curLimbo; on_goal 2 => decide)

theorem State.dropCows_only {m : Nat} {s t : State} {a1} (h : OnlyM m s t) (i : mask [.curCows, .curStaged] ||| m = m) :
    OnlyM m s (State.dropCows t a1) := by
  refine OnlyM.ofStep h ?_ i; clear h i; unfold State.dropCows
  repeat' first
    | with_reducible exact .refl _ _
    | extract_lets
    | (with_reducible apply State.unstage_only; on_goal 2 => decide)
    | fail_if_no_progress (with_reducible apply OnlyM.lit_curCows; on_goal 2 => decide)

theorem State.sendOwed_only {m : Nat} {s t : State} (h : OnlyM m s t) (i : mask [.hifMsixPend, .hifOwedVecs,
      .out] ||| m = m) :
    OnlyM m s (State.sendOwed t) := by
  refine OnlyM.ofStep h ?_ i; clear h i; unfold State.sendOwed
  repeat' first
    | with_reducible exact .refl _ _
    | extract_lets
    | intro _
    | (with_reducible apply State.msix_only; on_goal 2 => decide)
    | with_reducible apply OnlyM.foldl
    | fail_if_no_progress (with_reducible apply OnlyM.lit_hifOwedVecs; on_goal 2 => decide)

theorem State.dropAppend_only {m : Nat} {s t : State} {a1} (h : OnlyM m s t) (i : mask [.docAppends] ||| m = m) :
    OnlyM m s (State.dropAppend t a1) := by
  refine OnlyM.ofStep h ?_ i; clear h i; unfold State.dropAppend
  repeat' first
    | with_reducible exact .refl _ _
    | extract_lets
    | fail_if_no_progress (with_reducible apply OnlyM.lit_docAppends; on_goal 2 => decide)

theorem State.discardAppends_only {m : Nat} {s t : State} {a1 a2} (h : OnlyM m s t) (i : mask [.hifRings, .hifInflight,
      .hifFences, .docCtxs, .docAppends, .docGroups, .catCounters, .catRings, .catStarted, .catTrace, .free,
      .out] ||| m = m) :
    OnlyM m s (State.discardAppends t a1 a2) := by
  refine OnlyM.ofStep h ?_ i; clear h i; unfold State.discardAppends
  repeat' first
    | with_reducible exact .refl _ _
    | extract_lets
    | intro _
    | (with_reducible apply State.setCtx_only; on_goal 2 => decide)
    | (with_reducible apply State.complete_only; on_goal 2 => decide)
    | (with_reducible apply State.dropAppend_only; on_goal 2 => decide)
    | with_reducible apply OnlyM.foldl

theorem State.completeAll_only {m : Nat} {s t : State} {a1} (h : OnlyM m s t) (i : mask [.hifRings, .hifInflight,
      .hifFences, .docGroups, .catCounters, .catRings, .catStarted, .catTrace, .free, .out] ||| m = m) :
    OnlyM m s (State.completeAll t a1) := by
  refine OnlyM.ofStep h ?_ i; clear h i; unfold State.completeAll
  repeat' first
    | with_reducible exact .refl _ _
    | extract_lets
    | intro _
    | (with_reducible apply State.complete_only; on_goal 2 => decide)
    | with_reducible apply OnlyM.foldl

theorem State.endRecord_only {m : Nat} {s t : State} {a1 a2 a3} (h : OnlyM m s t) (i : mask [.hifRings, .hifInflight,
      .hifFences, .hifOwedVecs, .docCtxs, .docGroups, .catCounters, .catRings, .catStarted, .catTrace, .free,
      .out] ||| m = m) :
    OnlyM m s (State.endRecord t a1 a2 a3) := by
  refine OnlyM.ofStep h ?_ i; clear h i; unfold State.endRecord
  repeat' first
    | with_reducible exact .refl _ _
    | extract_lets
    | with_reducible apply OnlyM.ite
    | (with_reducible apply State.completeAll_only; on_goal 2 => decide)
    | (with_reducible apply State.writeAnswer_only; on_goal 2 => decide)
    | (with_reducible apply State.setCtx_only; on_goal 2 => decide)

theorem State.releaseCancel_only {m : Nat} {s t : State} {a1} (h : OnlyM m s t) (i : mask [.hifRings, .hifInflight,
      .hifFences, .hifOwedVecs, .docCtxs, .docAppends, .docGroups, .catCounters, .catRings, .catStarted, .catTrace, .free,
      .out] ||| m = m) :
    OnlyM m s (State.releaseCancel t a1) := by
  refine OnlyM.ofStep h ?_ i; clear h i; unfold State.releaseCancel
  repeat' first
    | with_reducible exact .refl _ _
    | extract_lets
    | (with_reducible apply State.discardAppends_only; on_goal 2 => decide)
    | (with_reducible apply State.endRecord_only; on_goal 2 => decide)
    | (with_reducible apply State.setCtx_only; on_goal 2 => decide)

theorem State.policyEffect_only {m : Nat} {s t : State} {a1} (h : OnlyM m s t) (i : mask [.hifRings, .hifInflight,
      .hifFences, .docCtxs, .docPolicies, .docGroups, .docCgroups, .curMaps, .catCounters, .catRings, .catStarted,
      .catTrace, .free, .out] ||| m = m) :
    OnlyM m s (State.policyEffect t a1) := by
  refine OnlyM.ofStep h ?_ i; clear h i; unfold State.policyEffect
  repeat' first
    | with_reducible exact .refl _ _
    | extract_lets
    | with_reducible apply OnlyM.ite
    | (with_reducible apply State.setCtx_only; on_goal 2 => decide)
    | (with_reducible apply State.setKvMap_only; on_goal 2 => decide)
    | (with_reducible apply State.complete_only; on_goal 2 => decide)
    | fail_if_no_progress (with_reducible apply OnlyM.lit_docPolicies; on_goal 2 => decide)
    | fail_if_no_progress (with_reducible apply OnlyM.lit_docCgroups; on_goal 2 => decide)

theorem State.dropEmpty_only {m : Nat} {s t : State} (h : OnlyM m s t) (i : mask [.docGroups] ||| m = m) :
    OnlyM m s (State.dropEmpty t) := by
  refine OnlyM.ofStep h ?_ i; clear h i; unfold State.dropEmpty
  repeat' first
    | with_reducible exact .refl _ _
    | extract_lets
    | fail_if_no_progress (with_reducible apply OnlyM.lit_docGroups; on_goal 2 => decide)

theorem State.updGroup_only {m : Nat} {s t : State} {a1 a2} (h : OnlyM m s t) (i : mask [.docGroups] ||| m = m) :
    OnlyM m s (State.updGroup t a1 a2) := by
  refine OnlyM.ofStep h ?_ i; clear h i; unfold State.updGroup
  repeat' first
    | with_reducible exact .refl _ _
    | extract_lets
    | fail_if_no_progress (with_reducible apply OnlyM.lit_docGroups; on_goal 2 => decide)

theorem State.joinStream_only {m : Nat} {s t : State} {a1 a2 a3} (h : OnlyM m s t) (i : mask [.mem, .chk, .hifOwedVecs,
      .docCtxs, .docGroups, .curPages, .curFrames, .curMaps, .curRetired, .curFreed, .curFresh, .tiersPanels,
      .tiersRepairs, .cores, .rasSources, .rasQueue, .rasOvf, .catCounters, .catRings, .catTrace, .free, .out] ||| m = m) :
    OnlyM m s (State.joinStream t a1 a2 a3) := by
  refine OnlyM.ofStep h ?_ i; clear h i; unfold State.joinStream
  repeat' first
    | with_reducible exact .refl _ _
    | extract_lets
    | with_reducible apply OnlyM.ite
    | (with_reducible apply State.checkTables_only; on_goal 2 => decide)
    | (with_reducible apply State.count_only; on_goal 2 => decide)
    | (with_reducible apply State.reserve_only; on_goal 2 => decide)
    | (with_reducible apply State.setCtx_only; on_goal 2 => decide)
    | (with_reducible apply State.notice_only; on_goal 2 => decide)
    | (with_reducible apply State.updGroup_only; on_goal 2 => decide)
    | with_reducible refine OnlyM.ofPair (by assumption) ?_
    | with_reducible apply OnlyP.fst
    | split

theorem State.openGroup_only {m : Nat} {s t : State} {a1 a2 a3 a4} (h : OnlyM m s t) (i : mask [.docGroups,
      .docNextGroup] ||| m = m) :
    OnlyM m s (State.openGroup t a1 a2 a3 a4) := by
  refine OnlyM.ofStep h ?_ i; clear h i; unfold State.openGroup
  repeat' first
    | with_reducible exact .refl _ _
    | extract_lets
    | fail_if_no_progress (with_reducible apply OnlyM.lit_docGroups_docNextGroup; on_goal 2 => decide)

theorem State.startCarmine_only {m : Nat} {s t : State} (h : OnlyM m s t) (i : mask [.mem, .chk, .hifOwedVecs, .docCtxs,
      .docGroups, .docNextGroup, .curPages, .curFrames, .curMaps, .curRetired, .curFreed, .curFresh, .tiersPanels,
      .tiersRepairs, .cores, .rasSources, .rasQueue, .rasOvf, .catCounters, .catRings, .catTrace, .free, .out] ||| m = m) :
    OnlyM m s (State.startCarmine t) := by
  refine OnlyM.ofStep h ?_ i; clear h i; unfold State.startCarmine
  repeat' first
    | with_reducible exact .refl _ _
    | extract_lets
    | intro _
    | with_reducible apply OnlyM.ite
    | (with_reducible apply State.dropEmpty_only; on_goal 2 => decide)
    | (with_reducible apply State.joinStream_only; on_goal 2 => decide)
    | (with_reducible apply State.openGroup_only; on_goal 2 => decide)
    | (with_reducible apply State.updGroup_only; on_goal 2 => decide)
    | (with_reducible apply State.countSub_only; on_goal 2 => decide)
    | with_reducible apply OnlyM.foldl

theorem State.startRelease_only {m : Nat} {s t : State} {a1} (h : OnlyM m s t) (i : mask [.docCtxs] ||| m = m) :
    OnlyM m s (State.startRelease t a1) := by
  refine OnlyM.ofStep h ?_ i; clear h i; unfold State.startRelease
  repeat' first
    | with_reducible exact .refl _ _
    | extract_lets
    | (with_reducible apply State.setCtx_only; on_goal 2 => decide)

theorem State.releaseStart_only {m : Nat} {s t : State} {a1} (h : OnlyM m s t) (i : mask [.docCtxs, .docReleases] ||| m = m) :
    OnlyM m s (State.releaseStart t a1) := by
  refine OnlyM.ofStep h ?_ i; clear h i; unfold State.releaseStart
  repeat' first
    | with_reducible exact .refl _ _
    | extract_lets
    | (with_reducible apply State.startRelease_only; on_goal 2 => decide)
    | fail_if_no_progress (with_reducible apply OnlyM.lit_docReleases; on_goal 2 => decide)

theorem State.acceptRelease_only {m : Nat} {s t : State} {a1 a2} (h : OnlyM m s t) (i : mask [.hifRings, .hifInflight,
      .hifFences, .docCtxs, .docReleases, .docGroups, .catCounters, .catRings, .catStarted, .catTrace, .nextOp, .free,
      .out] ||| m = m) :
    OnlyM m s (State.acceptRelease t a1 a2) := by
  refine OnlyM.ofStep h ?_ i; clear h i; unfold State.acceptRelease
  repeat' first
    | with_reducible exact .refl _ _
    | extract_lets
    | intro _
    | (with_reducible apply State.accept_only; on_goal 2 => decide)
    | (with_reducible apply State.releaseStart_only; on_goal 2 => decide)

theorem State.leaseKey_only {m : Nat} {s t : State} {a1 a2 a3} (h : OnlyM m s t) (i : mask [.free] ||| m = m) :
    OnlyP m s (State.leaseKey t a1 a2 a3) := by
  refine OnlyP.ofStep h ?_ i; clear h i; unfold State.leaseKey
  repeat' first
    | with_reducible exact .refl _ _
    | extract_lets l1
    | with_reducible apply OnlyP.ite
    | (with_reducible apply State.draw_only; on_goal 2 => decide)
    | unfold l1
    | with_reducible apply OnlyP.mk'

theorem State.joinGroup_only {m : Nat} {s t : State} {a1 a2 a3 a4} (h : OnlyM m s t) (i : mask [.docCgroups,
      .free] ||| m = m) :
    OnlyM m s (State.joinGroup t a1 a2 a3 a4) := by
  refine OnlyM.ofStep h ?_ i; clear h i; unfold State.joinGroup
  repeat' first
    | with_reducible exact .refl _ _
    | extract_lets
    | with_reducible apply OnlyM.ite
    | (with_reducible apply State.pick_only; on_goal 2 => decide)
    | with_reducible apply OnlyP.fst
    | fail_if_no_progress (with_reducible apply OnlyM.lit_docCgroups; on_goal 2 => decide)
    | split

theorem State.admitStart_only {m : Nat} {s t : State} {a1} (h : OnlyM m s t) (i : mask [.hifRings, .hifInflight,
      .hifFences, .docCtxs, .docGroups, .docCgroups, .curMaps, .catCounters, .catRings, .catStarted, .catTrace, .free,
      .out] ||| m = m) :
    OnlyM m s (State.admitStart t a1) := by
  refine OnlyM.ofStep h ?_ i; clear h i; unfold State.admitStart
  repeat' first
    | with_reducible exact .refl _ _
    | extract_lets
    | with_reducible apply OnlyM.ite
    | (with_reducible apply State.leaseKey_only; on_goal 2 => decide)
    | (with_reducible apply State.setKvMap_only; on_goal 2 => decide)
    | (with_reducible apply State.setCtx_only; on_goal 2 => decide)
    | (with_reducible apply State.joinGroup_only; on_goal 2 => decide)
    | (with_reducible apply State.complete_only; on_goal 2 => decide)
    | with_reducible apply OnlyP.fst

theorem State.acceptAdmit_only {m : Nat} {s t : State} {a1 a2} (h : OnlyM m s t) (i : mask [.hifRings, .hifInflight,
      .hifFences, .docCtxs, .docGroups, .docCgroups, .curMaps, .catCounters, .catRings, .catStarted, .catTrace, .nextOp,
      .free, .out] ||| m = m) :
    OnlyM m s (State.acceptAdmit t a1 a2) := by
  refine OnlyM.ofStep h ?_ i; clear h i; unfold State.acceptAdmit
  repeat' first
    | with_reducible exact .refl _ _
    | extract_lets
    | intro _
    | (with_reducible apply State.accept_only; on_goal 2 => decide)
    | (with_reducible apply State.admitStart_only; on_goal 2 => decide)

theorem State.policyStart_only {m : Nat} {s t : State} {a1} (h : OnlyM m s t) (i : mask [.docPolicies, .docCgroups,
      .docOvercommit, .docSuspended, .free] ||| m = m) :
    OnlyM m s (State.policyStart t a1) := by
  refine OnlyM.ofStep h ?_ i; clear h i; unfold State.policyStart
  repeat' first
    | with_reducible exact .refl _ _
    | extract_lets l1 l2 _ l4 l5
    | with_reducible apply OnlyM.ite
    | with_reducible apply OnlyP.ite
    | (with_reducible apply State.leaseKey_only; on_goal 2 => decide)
    | (with_reducible apply State.joinGroup_only; on_goal 2 => decide)
    | with_reducible apply OnlyP.fst
    | fail_if_no_progress (with_reducible apply OnlyM.lit_docPolicies_docOvercommit_docSuspended; on_goal 2 => decide)
    | unfold l5
    | unfold l4
    | unfold l2
    | unfold l1
    | with_reducible apply OnlyP.mk'

theorem State.forkAccepted_only {m : Nat} {s t : State} {a1} (h : OnlyM m s t) (i : mask [.docCtxs, .curMaps, .curForks,
      .free] ||| m = m) :
    OnlyM m s (State.forkAccepted t a1) := by
  refine OnlyM.ofStep h ?_ i; clear h i; unfold State.forkAccepted
  repeat' first
    | with_reducible exact .refl _ _
    | extract_lets
    | (with_reducible apply State.forkStart_only; on_goal 2 => decide)
    | (with_reducible apply State.setCtx_only; on_goal 2 => decide)

theorem State.resumePromise_only {m : Nat} {s t : State} (h : OnlyM m s t) (i : mask [.docOvercommit,
      .docSuspended] ||| m = m) :
    OnlyM m s (State.resumePromise t) := by
  refine OnlyM.ofStep h ?_ i; clear h i; unfold State.resumePromise
  repeat' first
    | with_reducible exact .refl _ _
    | extract_lets
    | with_reducible apply OnlyM.ite
    | fail_if_no_progress (with_reducible apply OnlyM.lit_docOvercommit_docSuspended; on_goal 2 => decide)

theorem State.flushAppends_only {m : Nat} {s t : State} {a n} (h : OnlyM m s t) (i : mask [.docCtxs, .docAppends,
      .free] ||| m = m) :
    OnlyM m s (State.flushAppends t a n) := by
  refine OnlyM.ofStep h (?_ : OnlyM (mask [.docCtxs, .docAppends, .free]) t (State.flushAppends t a n)) i; clear h i
  suffices k : ∀ s, OnlyM (mask [.docCtxs, .docAppends, .free]) s t → OnlyM (mask [.docCtxs, .docAppends,
      .free]) s (State.flushAppends t a n) from k t (.refl _ _)
  induction n generalizing t with
  | zero => intro s h; unfold State.flushAppends; exact h
  | succ n ih =>
    intro s h; unfold State.flushAppends
    repeat' first
    | with_reducible apply ih
    | with_reducible assumption
    | extract_lets
    | with_reducible apply OnlyM.ite
    | (with_reducible apply State.draw_only; on_goal 2 => decide)
    | (with_reducible apply State.setCtx_only; on_goal 2 => decide)
    | fail_if_no_progress (with_reducible apply OnlyM.lit_docAppends; on_goal 2 => decide)
    | split

theorem State.accrueCredit_only {m : Nat} {s t : State} (h : OnlyM m s t) (i : mask [.cores] ||| m = m) :
    OnlyM m s (State.accrueCredit t) := by
  refine OnlyM.ofStep h ?_ i; clear h i; unfold State.accrueCredit
  repeat' first
    | with_reducible exact .refl _ _
    | extract_lets
    | intro _
    | with_reducible apply OnlyM.ite
    | (with_reducible apply State.setCore_only; on_goal 2 => decide)
    | with_reducible apply OnlyM.foldl

theorem State.acceptFork_only {m : Nat} {s t : State} {a1 a2} (h : OnlyM m s t) (i : mask [.hifRings, .hifInflight,
      .hifFences, .docCtxs, .docGroups, .curMaps, .curForks, .catCounters, .catRings, .catStarted, .catTrace, .nextOp,
      .free, .out] ||| m = m) :
    OnlyM m s (State.acceptFork t a1 a2) := by
  refine OnlyM.ofStep h ?_ i; clear h i; unfold State.acceptFork
  repeat' first
    | with_reducible exact .refl _ _
    | extract_lets
    | intro _
    | (with_reducible apply State.accept_only; on_goal 2 => decide)
    | (with_reducible apply State.forkAccepted_only; on_goal 2 => decide)

theorem State.appendStart_only {m : Nat} {s t : State} {a1} (h : OnlyM m s t) (i : mask [.docAppends, .out] ||| m = m) :
    OnlyM m s (State.appendStart t a1) := by
  refine OnlyM.ofStep h ?_ i; clear h i; unfold State.appendStart
  repeat' first
    | with_reducible exact .refl _ _
    | extract_lets
    | (with_reducible apply State.hostRead_only; on_goal 2 => decide)
    | fail_if_no_progress (with_reducible apply OnlyM.lit_docAppends; on_goal 2 => decide)

theorem State.takePolicies_only {m : Nat} {s t : State} (h : OnlyM m s t) (i : mask [.hifRings, .hifInflight, .hifFences,
      .docCtxs, .docPolicies, .docGroups, .docCgroups, .curMaps, .catCounters, .catRings, .catStarted, .catTrace, .free,
      .out] ||| m = m) :
    OnlyM m s (State.takePolicies t) := by
  refine OnlyM.ofStep h ?_ i; clear h i; unfold State.takePolicies
  repeat' first
    | with_reducible exact .refl _ _
    | extract_lets
    | intro _
    | with_reducible apply OnlyM.ite
    | (with_reducible apply State.policyEffect_only; on_goal 2 => decide)
    | with_reducible apply OnlyM.foldl

theorem State.placeStream_only {m : Nat} {s t : State} {a1 a2 a3} (h : OnlyM m s t) (i : mask [.mem, .chk, .hifOwedVecs,
      .docCtxs, .docGroups, .docNextGroup, .curPages, .curFrames, .curMaps, .curRetired, .curFreed, .curFresh,
      .tiersPanels, .tiersRepairs, .cores, .rasSources, .rasQueue, .rasOvf, .catCounters, .catRings, .catTrace, .free,
      .out] ||| m = m) :
    OnlyM m s (State.placeStream t a1 a2 a3) := by
  refine OnlyM.ofStep h ?_ i; clear h i; unfold State.placeStream
  repeat' first
    | with_reducible exact .refl _ _
    | extract_lets
    | with_reducible apply OnlyM.ite
    | (with_reducible apply State.openGroup_only; on_goal 2 => decide)
    | (with_reducible apply State.dropEmpty_only; on_goal 2 => decide)
    | (with_reducible apply State.joinStream_only; on_goal 2 => decide)
    | split

theorem State.acceptAppend_only {m : Nat} {s t : State} {a1 a2} (h : OnlyM m s t) (i : mask [.hifRings, .hifInflight,
      .hifFences, .docAppends, .docGroups, .catCounters, .catRings, .catStarted, .catTrace, .nextOp, .free, .out] ||| m = m) :
    OnlyM m s (State.acceptAppend t a1 a2) := by
  refine OnlyM.ofStep h ?_ i; clear h i; unfold State.acceptAppend
  repeat' first
    | with_reducible exact .refl _ _
    | extract_lets
    | intro _
    | (with_reducible apply State.accept_only; on_goal 2 => decide)
    | (with_reducible apply State.appendStart_only; on_goal 2 => decide)

theorem State.cancelEffect_only {m : Nat} {s t : State} {a1} (h : OnlyM m s t) (i : mask [.hifRings, .hifInflight,
      .hifFences, .hifOwedVecs, .docCtxs, .docAppends, .docCancels, .docGroups, .catCounters, .catRings, .catStarted,
      .catTrace, .free, .out] ||| m = m) :
    OnlyM m s (State.cancelEffect t a1) := by
  refine OnlyM.ofStep h ?_ i; clear h i; unfold State.cancelEffect
  repeat' first
    | with_reducible exact .refl _ _
    | extract_lets
    | with_reducible apply OnlyM.ite
    | (with_reducible apply State.discardAppends_only; on_goal 2 => decide)
    | (with_reducible apply State.setCtx_only; on_goal 2 => decide)
    | (with_reducible apply State.completeAll_only; on_goal 2 => decide)
    | (with_reducible apply State.endRecord_only; on_goal 2 => decide)
    | (with_reducible apply State.flushAppends_only; on_goal 2 => decide)
    | fail_if_no_progress (with_reducible apply OnlyM.lit_docCancels; on_goal 2 => decide)

theorem State.takeCancels_only {m : Nat} {s t : State} {a n} (h : OnlyM m s t) (i : mask [.hifRings, .hifInflight,
      .hifFences, .hifOwedVecs, .docCtxs, .docAppends, .docCancels, .docGroups, .catCounters, .catRings, .catStarted,
      .catTrace, .free, .out] ||| m = m) :
    OnlyM m s (State.takeCancels t a n) := by
  refine OnlyM.ofStep h (?_ : OnlyM (mask [.hifRings, .hifInflight, .hifFences, .hifOwedVecs, .docCtxs, .docAppends,
      .docCancels, .docGroups, .catCounters, .catRings, .catStarted, .catTrace, .free,
      .out]) t (State.takeCancels t a n)) i; clear h i
  suffices k : ∀ s, OnlyM (mask [.hifRings, .hifInflight, .hifFences, .hifOwedVecs, .docCtxs, .docAppends, .docCancels,
      .docGroups, .catCounters, .catRings, .catStarted, .catTrace, .free, .out]) s t → OnlyM (mask [.hifRings,
      .hifInflight, .hifFences, .hifOwedVecs, .docCtxs, .docAppends, .docCancels, .docGroups, .catCounters, .catRings,
      .catStarted, .catTrace, .free, .out]) s (State.takeCancels t a n) from k t (.refl _ _)
  induction n generalizing t with
  | zero => intro s h; unfold State.takeCancels; exact h
  | succ n ih =>
    intro s h; unfold State.takeCancels
    repeat' first
    | with_reducible apply ih
    | with_reducible assumption
    | extract_lets
    | with_reducible apply OnlyM.ite
    | (with_reducible apply State.cancelEffect_only; on_goal 2 => decide)
    | (with_reducible apply State.releaseCancel_only; on_goal 2 => decide)
    | split

theorem State.takeCommands_only {m : Nat} {s t : State} (h : OnlyM m s t) (i : mask [.hifRings, .hifInflight, .hifFences,
      .hifOwedVecs, .docCtxs, .docAppends, .docPolicies, .docCancels, .docGroups, .docCgroups, .curMaps, .catCounters,
      .catRings, .catStarted, .catTrace, .free, .out] ||| m = m) :
    OnlyM m s (State.takeCommands t) := by
  refine OnlyM.ofStep h ?_ i; clear h i; unfold State.takeCommands
  repeat' first
    | with_reducible exact .refl _ _
    | extract_lets
    | intro _
    | (with_reducible apply State.takePolicies_only; on_goal 2 => decide)
    | (with_reducible apply State.takeCancels_only; on_goal 2 => decide)
    | with_reducible apply OnlyM.foldl

theorem State.acceptPolicy_only {m : Nat} {s t : State} {a1 a2} (h : OnlyM m s t) (i : mask [.hifRings, .hifInflight,
      .hifFences, .docPolicies, .docGroups, .docCgroups, .docOvercommit, .docSuspended, .catCounters, .catRings,
      .catStarted, .catTrace, .nextOp, .free, .out] ||| m = m) :
    OnlyM m s (State.acceptPolicy t a1 a2) := by
  refine OnlyM.ofStep h ?_ i; clear h i; unfold State.acceptPolicy
  repeat' first
    | with_reducible exact .refl _ _
    | extract_lets
    | intro _
    | (with_reducible apply State.accept_only; on_goal 2 => decide)
    | (with_reducible apply State.policyStart_only; on_goal 2 => decide)

theorem State.cancelStart_only {m : Nat} {s t : State} {a1} (h : OnlyM m s t) (i : mask [.hifRings, .hifInflight,
      .hifFences, .docCtxs, .docCancels, .docGroups, .catCounters, .catRings, .catStarted, .catTrace, .free,
      .out] ||| m = m) :
    OnlyM m s (State.cancelStart t a1) := by
  refine OnlyM.ofStep h ?_ i; clear h i; unfold State.cancelStart
  repeat' first
    | with_reducible exact .refl _ _
    | extract_lets
    | with_reducible apply OnlyM.ite
    | (with_reducible apply State.complete_only; on_goal 2 => decide)
    | (with_reducible apply State.setCtx_only; on_goal 2 => decide)
    | fail_if_no_progress (with_reducible apply OnlyM.lit_docCancels; on_goal 2 => decide)

theorem State.acceptCancel_only {m : Nat} {s t : State} {a1 a2} (h : OnlyM m s t) (i : mask [.hifRings, .hifInflight,
      .hifFences, .docCtxs, .docCancels, .docGroups, .catCounters, .catRings, .catStarted, .catTrace, .nextOp, .free,
      .out] ||| m = m) :
    OnlyM m s (State.acceptCancel t a1 a2) := by
  refine OnlyM.ofStep h ?_ i; clear h i; unfold State.acceptCancel
  repeat' first
    | with_reducible exact .refl _ _
    | extract_lets
    | intro _
    | (with_reducible apply State.accept_only; on_goal 2 => decide)
    | (with_reducible apply State.cancelStart_only; on_goal 2 => decide)

theorem State.voidSteps_only {m : Nat} {s t : State} {a1} (h : OnlyM m s t) (i : mask [.docGroups] ||| m = m) :
    OnlyM m s (State.voidSteps t a1) := by
  refine OnlyM.ofStep h ?_ i; clear h i; unfold State.voidSteps
  repeat' first
    | with_reducible exact .refl _ _
    | extract_lets
    | fail_if_no_progress (with_reducible apply OnlyM.lit_docGroups; on_goal 2 => decide)

theorem State.formGroups_only {m : Nat} {s t : State} (h : OnlyM m s t) (i : mask [.mem, .chk, .hifOwedVecs, .docCtxs,
      .docGroups, .docNextGroup, .curPages, .curFrames, .curMaps, .curRetired, .curFreed, .curFresh, .tiersPanels,
      .tiersRepairs, .cores, .rasSources, .rasQueue, .rasOvf, .catCounters, .catRings, .catTrace, .free, .out] ||| m = m) :
    OnlyM m s (State.formGroups t) := by
  refine OnlyM.ofStep h ?_ i; clear h i; unfold State.formGroups
  repeat' first
    | with_reducible exact .refl _ _
    | extract_lets
    | intro _
    | with_reducible apply OnlyM.ite
    | (with_reducible apply State.startCarmine_only; on_goal 2 => decide)
    | (with_reducible apply State.placeStream_only; on_goal 2 => decide)
    | with_reducible apply OnlyM.foldl

theorem State.replay_only {m : Nat} {s t : State} {a1} (h : OnlyM m s t) (i : mask [.fabPorts, .catCounters,
      .out] ||| m = m) :
    OnlyM m s (State.replay t a1) := by
  refine OnlyM.ofStep h ?_ i; clear h i; unfold State.replay
  repeat' first
    | with_reducible exact .refl _ _
    | extract_lets
    | intro _
    | with_reducible apply OnlyM.ite
    | (with_reducible apply State.emit_only; on_goal 2 => decide)
    | (with_reducible apply State.count_only; on_goal 2 => decide)
    | (with_reducible apply State.setPort_only; on_goal 2 => decide)
    | with_reducible apply OnlyM.foldl

theorem State.notePacket_only {m : Nat} {s t : State} {a1 a2 a3 a4} (h : OnlyM m s t) (i : mask [.catRings, .catTrace,
      .free] ||| m = m) :
    OnlyM m s (State.notePacket t a1 a2 a3 a4) := by
  refine OnlyM.ofStep h ?_ i; clear h i; unfold State.notePacket
  repeat' first
    | with_reducible exact .refl _ _
    | extract_lets
    | with_reducible apply OnlyM.ite
    | (with_reducible apply State.event_only; on_goal 2 => decide)

theorem State.portEmit_only {m : Nat} {s t : State} {a1 a2 a3} (h : OnlyM m s t) (i : mask [.fabPorts, .catRings,
      .catTrace, .free, .out] ||| m = m) :
    OnlyM m s (State.portEmit t a1 a2 a3) := by
  refine OnlyM.ofStep h ?_ i; clear h i; unfold State.portEmit
  repeat' first
    | with_reducible exact .refl _ _
    | extract_lets
    | (with_reducible apply State.emit_only; on_goal 2 => decide)
    | (with_reducible apply State.notePacket_only; on_goal 2 => decide)
    | (with_reducible apply State.setPort_only; on_goal 2 => decide)

theorem State.portPump_only {m : Nat} {s t : State} {a n} (h : OnlyM m s t) (i : mask [.fabPorts, .catRings, .catTrace,
      .free, .out] ||| m = m) :
    OnlyM m s (State.portPump t a n) := by
  refine OnlyM.ofStep h (?_ : OnlyM (mask [.fabPorts, .catRings, .catTrace, .free,
      .out]) t (State.portPump t a n)) i; clear h i
  suffices k : ∀ s, OnlyM (mask [.fabPorts, .catRings, .catTrace, .free, .out]) s t → OnlyM (mask [.fabPorts, .catRings,
      .catTrace, .free, .out]) s (State.portPump t a n) from k t (.refl _ _)
  induction n generalizing t with
  | zero => intro s h; unfold State.portPump; exact h
  | succ n ih =>
    intro s h; unfold State.portPump
    repeat' first
    | with_reducible apply ih
    | with_reducible assumption
    | extract_lets
    | (with_reducible apply State.portEmit_only; on_goal 2 => decide)
    | (with_reducible apply State.setPort_only; on_goal 2 => decide)
    | split

theorem State.frameSend_only {m : Nat} {s t : State} {a1 a2 a3} (h : OnlyM m s t) (i : mask [.catRings, .catTrace, .free,
      .out] ||| m = m) :
    OnlyM m s (State.frameSend t a1 a2 a3) := by
  refine OnlyM.ofStep h ?_ i; clear h i; unfold State.frameSend
  repeat' first
    | with_reducible exact .refl _ _
    | extract_lets
    | (with_reducible apply State.emit_only; on_goal 2 => decide)
    | (with_reducible apply State.notePacket_only; on_goal 2 => decide)

theorem State.portSend_only {m : Nat} {s t : State} {a1 a2 a3} (h : OnlyM m s t) (i : mask [.fabPorts, .catCounters,
      .catRings, .catTrace, .free, .out] ||| m = m) :
    OnlyM m s (State.portSend t a1 a2 a3) := by
  refine OnlyM.ofStep h ?_ i; clear h i; unfold State.portSend
  repeat' first
    | with_reducible exact .refl _ _
    | extract_lets
    | with_reducible apply OnlyM.ite
    | (with_reducible apply State.frameSend_only; on_goal 2 => decide)
    | (with_reducible apply State.portEmit_only; on_goal 2 => decide)
    | (with_reducible apply State.countIf_only; on_goal 2 => decide)
    | (with_reducible apply State.setPort_only; on_goal 2 => decide)

theorem State.rerouted_only {m : Nat} {s t : State} {a1 a2 a3} (h : OnlyM m s t) (i : mask [.docGroups,
      .catCounters] ||| m = m) :
    OnlyM m s (State.rerouted t a1 a2 a3) := by
  refine OnlyM.ofStep h ?_ i; clear h i; unfold State.rerouted
  repeat' first
    | with_reducible exact .refl _ _
    | extract_lets
    | with_reducible apply OnlyM.ite
    | (with_reducible apply State.voidSteps_only; on_goal 2 => decide)
    | (with_reducible apply State.count_only; on_goal 2 => decide)

theorem State.sendData_only {m : Nat} {s t : State} {a1 a2 a3 a4} (h : OnlyM m s t) (i : mask [.docGroups, .fabPorts,
      .catCounters, .catRings, .catTrace, .free, .out] ||| m = m) :
    OnlyP m s (State.sendData t a1 a2 a3 a4) := by
  refine OnlyP.ofStep h ?_ i; clear h i; unfold State.sendData
  repeat' first
    | with_reducible exact .refl _ _
    | extract_lets l1
    | with_reducible apply OnlyP.ite
    | (with_reducible apply State.portSend_only; on_goal 2 => decide)
    | (with_reducible apply State.rerouted_only; on_goal 2 => decide)
    | split
    | unfold l1
    | with_reducible apply OnlyP.mk'

theorem State.peerRead_only {m : Nat} {s t : State} {a1 a2 a3} (h : OnlyM m s t) (i : mask [.dmaOps, .dmaStops,
      .dmaNextOpid, .dmaLastRd, .dmaLastWr, .dmaRdEng, .dmaWrEng, .docGroups, .fabPorts, .catCounters, .catRings,
      .catTrace, .free, .out] ||| m = m) :
    OnlyM m s (State.peerRead t a1 a2 a3) := by
  refine OnlyM.ofStep h ?_ i; clear h i; unfold State.peerRead
  repeat' first
    | with_reducible exact .refl _ _
    | extract_lets
    | with_reducible apply OnlyM.ite
    | (with_reducible apply State.draw_only; on_goal 2 => decide)
    | (with_reducible apply State.sendData_only; on_goal 2 => decide)
    | with_reducible apply OnlyP.fst
    | fail_if_no_progress (with_reducible apply OnlyM.lit_all57; on_goal 2 => decide)

theorem State.setPortSt_only {m : Nat} {s t : State} {a1 a2} (h : OnlyM m s t) (i : mask [.fabPorts, .catRings, .catTrace,
      .free] ||| m = m) :
    OnlyM m s (State.setPortSt t a1 a2) := by
  refine OnlyM.ofStep h ?_ i; clear h i; unfold State.setPortSt
  repeat' first
    | with_reducible exact .refl _ _
    | extract_lets
    | with_reducible apply OnlyM.ite
    | (with_reducible apply State.event_only; on_goal 2 => decide)
    | (with_reducible apply State.setPort_only; on_goal 2 => decide)

end Sys2Proof.Machine
end

