-- ==== Sys2Proof/Laws/OnlyWork.lean ====
section
/-! SUPPORT. What each operation over the DMA unit, the tiers, the cores, repair, the annex, attention and the hub may write. -/

set_option linter.tactic.unusedName false

namespace Sys2Proof.Machine

theorem State.writeFree_only {m : Nat} {s t : State} {a1} (h : OnlyM m s t) (i : mask [.dmaWrEng] ||| m = m) :
    OnlyM m s (State.writeFree t a1) := by
  refine OnlyM.ofStep h ?_ i; clear h i; unfold State.writeFree
  repeat' first
    | with_reducible exact .refl _ _
    | extract_lets
    | fail_if_no_progress (with_reducible apply OnlyM.lit_dmaWrEng; on_goal 2 => decide)

theorem State.objFree_only {m : Nat} {s t : State} {a1} (h : OnlyM m s t) (i : mask [.tiersObjRun] ||| m = m) :
    OnlyM m s (State.objFree t a1) := by
  refine OnlyM.ofStep h ?_ i; clear h i; unfold State.objFree
  repeat' first
    | with_reducible exact .refl _ _
    | extract_lets
    | fail_if_no_progress (with_reducible apply OnlyM.lit_tiersObjRun; on_goal 2 => decide)

theorem State.endReleases_only {m : Nat} {s t : State} (h : OnlyM m s t) (i : mask [.hifRings, .hifInflight, .hifFences,
      .docGroups, .tiersObjs, .tiersPanels, .tiersMaps, .tiersT0used, .tiersRepairs, .tiersObjRun, .catCounters, .catRings,
      .catStarted, .catTrace, .free, .out] ||| m = m) :
    OnlyM m s (State.endReleases t) := by
  refine OnlyM.ofStep h ?_ i; clear h i; unfold State.endReleases
  repeat' first
    | with_reducible exact .refl _ _
    | extract_lets
    | intro _
    | with_reducible apply OnlyM.ite
    | (with_reducible apply State.complete_only; on_goal 2 => decide)
    | (with_reducible apply State.objFree_only; on_goal 2 => decide)
    | (with_reducible apply State.endMapping_only; on_goal 2 => decide)
    | with_reducible apply OnlyM.foldl
    | split

theorem State.migEnd_only {m : Nat} {s t : State} {a1} (h : OnlyM m s t) (i : mask [.hifRings, .hifInflight, .hifFences,
      .docGroups, .tiersMigs, .tiersT0used, .tiersObjRun, .catCounters, .catRings, .catStarted, .catTrace, .free,
      .out] ||| m = m) :
    OnlyM m s (State.migEnd t a1) := by
  refine OnlyM.ofStep h ?_ i; clear h i; unfold State.migEnd
  repeat' first
    | with_reducible exact .refl _ _
    | extract_lets
    | with_reducible apply OnlyM.ite
    | (with_reducible apply State.complete_only; on_goal 2 => decide)
    | (with_reducible apply State.objFree_only; on_goal 2 => decide)
    | (with_reducible apply State.giveT0_only; on_goal 2 => decide)
    | fail_if_no_progress (with_reducible apply OnlyM.lit_tiersMigs; on_goal 2 => decide)
    | split

theorem State.objStart_only {m : Nat} {s t : State} {a1} (h : OnlyM m s t) (i : mask [.hifRings, .hifInflight, .hifFences,
      .docGroups, .tiersMigs, .tiersT0used, .tiersObjRun, .catCounters, .catRings, .catStarted, .catTrace, .free,
      .out] ||| m = m) :
    OnlyM m s (State.objStart t a1) := by
  refine OnlyM.ofStep h ?_ i; clear h i; unfold State.objStart
  repeat' first
    | with_reducible exact .refl _ _
    | extract_lets
    | (with_reducible apply State.opEvent_only; on_goal 2 => decide)
    | (with_reducible apply State.complete_only; on_goal 2 => decide)
    | (with_reducible apply State.migEnd_only; on_goal 2 => decide)
    | fail_if_no_progress (with_reducible apply OnlyM.lit_tiersObjRun; on_goal 2 => decide)
    | split

theorem State.objSettle_only {m : Nat} {s t : State} {n} (h : OnlyM m s t) (i : mask [.hifRings, .hifInflight, .hifFences,
      .docGroups, .tiersObjs, .tiersPanels, .tiersMaps, .tiersMigs, .tiersT0used, .tiersRepairs, .tiersObjRun,
      .tiersObjWait, .catCounters, .catRings, .catStarted, .catTrace, .free, .out] ||| m = m) :
    OnlyM m s (State.objSettle t n) := by
  refine OnlyM.ofStep h (?_ : OnlyM (mask [.hifRings, .hifInflight, .hifFences, .docGroups, .tiersObjs, .tiersPanels,
      .tiersMaps, .tiersMigs, .tiersT0used, .tiersRepairs, .tiersObjRun, .tiersObjWait, .catCounters, .catRings,
      .catStarted, .catTrace, .free, .out]) t (State.objSettle t n)) i; clear h i
  suffices k : ∀ s, OnlyM (mask [.hifRings, .hifInflight, .hifFences, .docGroups, .tiersObjs, .tiersPanels, .tiersMaps,
      .tiersMigs, .tiersT0used, .tiersRepairs, .tiersObjRun, .tiersObjWait, .catCounters, .catRings, .catStarted,
      .catTrace, .free, .out]) s t → OnlyM (mask [.hifRings, .hifInflight, .hifFences, .docGroups, .tiersObjs,
      .tiersPanels, .tiersMaps, .tiersMigs, .tiersT0used, .tiersRepairs, .tiersObjRun, .tiersObjWait, .catCounters,
      .catRings, .catStarted, .catTrace, .free, .out]) s (State.objSettle t n) from k t (.refl _ _)
  induction n generalizing t with
  | zero => intro s h; unfold State.objSettle; exact State.endReleases_only h (by decide)
  | succ n ih =>
    intro s h; unfold State.objSettle
    repeat' first
    | with_reducible apply ih
    | with_reducible assumption
    | extract_lets
    | with_reducible apply OnlyM.ite
    | (with_reducible apply State.endReleases_only; on_goal 2 => decide)
    | (with_reducible apply State.objStart_only; on_goal 2 => decide)
    | fail_if_no_progress (with_reducible apply OnlyM.lit_tiersObjWait; on_goal 2 => decide)
    | split

theorem State.settleObjects_only {m : Nat} {s t : State} (h : OnlyM m s t) (i : mask [.hifRings, .hifInflight, .hifFences,
      .docGroups, .tiersObjs, .tiersPanels, .tiersMaps, .tiersMigs, .tiersT0used, .tiersRepairs, .tiersObjRun,
      .tiersObjWait, .catCounters, .catRings, .catStarted, .catTrace, .free, .out] ||| m = m) :
    OnlyM m s (State.settleObjects t) := by
  refine OnlyM.ofStep h ?_ i; clear h i; unfold State.settleObjects
  repeat' first
    | with_reducible exact .refl _ _
    | (with_reducible apply State.objSettle_only; on_goal 2 => decide)

theorem State.settleStops_only {m : Nat} {s t : State} {a1} (h : OnlyM m s t) (i : mask [.hifRings, .hifInflight,
      .hifFences, .dmaStops, .docGroups, .tiersObjs, .tiersPanels, .tiersMaps, .tiersMigs, .tiersT0used, .tiersRepairs,
      .tiersObjRun, .tiersObjWait, .catCounters, .catRings, .catStarted, .catTrace, .free, .out] ||| m = m) :
    OnlyM m s (State.settleStops t a1) := by
  refine OnlyM.ofStep h ?_ i; clear h i; unfold State.settleStops
  repeat' first
    | with_reducible exact .refl _ _
    | extract_lets
    | intro _
    | (with_reducible apply State.settleObjects_only; on_goal 2 => decide)
    | (with_reducible apply State.complete_only; on_goal 2 => decide)
    | with_reducible apply OnlyM.foldl
    | fail_if_no_progress (with_reducible apply OnlyM.lit_dmaStops; on_goal 2 => decide)

theorem State.dmaHandles_only {m : Nat} {s t : State} {a1 a2} (h : OnlyM m s t) (i : mask [.cores] ||| m = m) :
    OnlyM m s (State.dmaHandles t a1 a2) := by
  refine OnlyM.ofStep h ?_ i; clear h i; unfold State.dmaHandles
  repeat' first
    | with_reducible exact .refl _ _
    | extract_lets
    | intro _
    | (with_reducible apply State.useHandle_only; on_goal 2 => decide)
    | with_reducible apply OnlyM.foldl

theorem State.dmaLeave_only {m : Nat} {s t : State} {a1} (h : OnlyM m s t) (i : mask [.dmaOps, .tiersWriteQ, .cores,
      .catWaits] ||| m = m) :
    OnlyM m s (State.dmaLeave t a1) := by
  refine OnlyM.ofStep h ?_ i; clear h i; unfold State.dmaLeave
  repeat' first
    | with_reducible exact .refl _ _
    | extract_lets
    | intro _
    | with_reducible apply OnlyM.ite
    | (with_reducible apply State.dmaHandles_only; on_goal 2 => decide)
    | (with_reducible apply State.sbLeave_only; on_goal 2 => decide)
    | (with_reducible apply State.setCore_only; on_goal 2 => decide)
    | (with_reducible apply State.waitsDrop_only; on_goal 2 => decide)
    | with_reducible apply OnlyM.foldl
    | fail_if_no_progress (with_reducible apply OnlyM.lit_dmaOps_tiersWriteQ; on_goal 2 => decide)

theorem State.dmaStopStart_only {m : Nat} {s t : State} {a1} (h : OnlyM m s t) (i : mask [.hifRings, .hifInflight,
      .hifFences, .dmaOps, .dmaStops, .docGroups, .tiersObjs, .tiersPanels, .tiersMaps, .tiersMigs, .tiersT0used,
      .tiersRepairs, .tiersWriteQ, .tiersObjRun, .tiersObjWait, .cores, .catCounters, .catRings, .catWaits, .catStarted,
      .catTrace, .free, .out] ||| m = m) :
    OnlyM m s (State.dmaStopStart t a1) := by
  refine OnlyM.ofStep h ?_ i; clear h i; unfold State.dmaStopStart
  repeat' first
    | with_reducible exact .refl _ _
    | extract_lets
    | intro _
    | with_reducible apply OnlyM.ite
    | (with_reducible apply State.settleStops_only; on_goal 2 => decide)
    | (with_reducible apply State.complete_only; on_goal 2 => decide)
    | (with_reducible apply State.count_only; on_goal 2 => decide)
    | (with_reducible apply State.dmaLeave_only; on_goal 2 => decide)
    | with_reducible apply OnlyM.foldl
    | fail_if_no_progress (with_reducible apply OnlyM.lit_dmaStops; on_goal 2 => decide)

theorem State.leaveQueue_only {m : Nat} {s t : State} {a1} (h : OnlyM m s t) (i : mask [.tiersWriteQ] ||| m = m) :
    OnlyM m s (State.leaveQueue t a1) := by
  refine OnlyM.ofStep h ?_ i; clear h i; unfold State.leaveQueue
  repeat' first
    | with_reducible exact .refl _ _
    | extract_lets
    | fail_if_no_progress (with_reducible apply OnlyM.lit_tiersWriteQ; on_goal 2 => decide)

theorem State.updDma_only {m : Nat} {s t : State} {a1 a2} (h : OnlyM m s t) (i : mask [.dmaOps] ||| m = m) :
    OnlyM m s (State.updDma t a1 a2) := by
  refine OnlyM.ofStep h ?_ i; clear h i; unfold State.updDma
  repeat' first
    | with_reducible exact .refl _ _
    | extract_lets
    | fail_if_no_progress (with_reducible apply OnlyM.lit_dmaOps; on_goal 2 => decide)

theorem State.noteBegun_only {m : Nat} {s t : State} {a1} (h : OnlyM m s t) (i : mask [.dmaOps, .catRings, .catStarted,
      .catTrace, .free] ||| m = m) :
    OnlyM m s (State.noteBegun t a1) := by
  refine OnlyM.ofStep h ?_ i; clear h i; unfold State.noteBegun
  repeat' first
    | with_reducible exact .refl _ _
    | extract_lets
    | (with_reducible apply State.opEvent_only; on_goal 2 => decide)
    | (with_reducible apply State.updDma_only; on_goal 2 => decide)
    | split

theorem State.putEp_only {m : Nat} {s t : State} {a1 a2 a3 a4} (h : OnlyM m s t) (i : mask [.mem, .chk, .bad, .cores,
      .rasSources, .rasQueue, .rasOvf, .catCounters, .catRings, .catTrace, .free, .out] ||| m = m) :
    OnlyP m s (State.putEp t a1 a2 a3 a4) := by
  refine OnlyP.ofStep h ?_ i; clear h i; unfold State.putEp
  repeat' first
    | with_reducible exact .refl _ _
    | extract_lets l1 l2 l3 l4
    | with_reducible apply OnlyP.ite
    | (with_reducible apply State.hostWrite_only; on_goal 2 => decide)
    | (with_reducible apply State.writeChan_only; on_goal 2 => decide)
    | (with_reducible apply State.writeScratch_only; on_goal 2 => decide)
    | (with_reducible apply State.putHall_only; on_goal 2 => decide)
    | with_reducible apply OnlyP.fst
    | split
    | unfold l4
    | unfold l3
    | unfold l2
    | unfold l1
    | with_reducible apply OnlyP.mk'

theorem State.freeBytes_only {m : Nat} {s t : State} {a1} (h : OnlyM m s t) (i : mask [.free] ||| m = m) :
    OnlyP m s (State.freeBytes t a1) := by
  refine OnlyP.ofStep h ?_ i; clear h i; unfold State.freeBytes
  repeat' first
    | with_reducible exact .refl _ _
    | extract_lets
    | (with_reducible apply State.draw_only; on_goal 2 => decide)
    | with_reducible apply OnlyP.mk'

theorem State.putVector_only {m : Nat} {s t : State} {a1 a2 a3 a4} (h : OnlyM m s t) (i : mask [.mem, .chk, .bad, .cores,
      .rasSources, .rasQueue, .rasOvf, .catCounters, .catRings, .catTrace, .free, .out] ||| m = m) :
    OnlyP m s (State.putVector t a1 a2 a3 a4) := by
  refine OnlyP.ofStep h ?_ i; clear h i; unfold State.putVector
  repeat' first
    | with_reducible exact .refl _ _
    | extract_lets
    | with_reducible apply OnlyP.ite
    | (with_reducible apply State.count_only; on_goal 2 => decide)
    | (with_reducible apply State.putEp_only; on_goal 2 => decide)
    | (with_reducible apply State.freeBytes_only; on_goal 2 => decide)
    | with_reducible apply OnlyP.fst

theorem State.putLong_only {m : Nat} {s t : State} {a1 a2 n a3 a4} (h : OnlyM m s t) (i : mask [.mem, .chk, .bad, .cores,
      .rasSources, .rasQueue, .rasOvf, .catCounters, .catRings, .catTrace, .free, .out] ||| m = m) :
    OnlyP m s (State.putLong t a1 a2 n a3 a4) := by
  refine OnlyP.ofStep h (?_ : OnlyP (mask [.mem, .chk, .bad, .cores, .rasSources, .rasQueue, .rasOvf, .catCounters,
      .catRings, .catTrace, .free, .out]) t (State.putLong t a1 a2 n a3 a4)) i; clear h i
  suffices k : ∀ s, OnlyM (mask [.mem, .chk, .bad, .cores, .rasSources, .rasQueue, .rasOvf, .catCounters, .catRings,
      .catTrace, .free, .out]) s t → OnlyP (mask [.mem, .chk, .bad, .cores, .rasSources, .rasQueue, .rasOvf, .catCounters,
      .catRings, .catTrace, .free, .out]) s (State.putLong t a1 a2 n a3 a4) from k t (.refl _ _)
  induction n generalizing t a3 a4 with
  | zero => intro s h; unfold State.putLong; exact ⟨h⟩
  | succ n ih =>
    intro s h; unfold State.putLong
    repeat' first
    | with_reducible apply ih
    | with_reducible assumption
    | extract_lets l1 l2 l3
    | with_reducible apply OnlyP.ite
    | (with_reducible apply State.putEp_only; on_goal 2 => decide)
    | with_reducible apply OnlyP.fst
    | unfold l3
    | unfold l2
    | unfold l1
    | with_reducible apply OnlyP.mk'

theorem State.dmaPut_only {m : Nat} {s t : State} {a1 a2 a3} (h : OnlyM m s t) (i : mask [.mem, .chk, .bad, .dmaOps,
      .cores, .rasSources, .rasQueue, .rasOvf, .catCounters, .catRings, .catTrace, .free, .out] ||| m = m) :
    OnlyM m s (State.dmaPut t a1 a2 a3) := by
  refine OnlyM.ofStep h ?_ i; clear h i; unfold State.dmaPut
  repeat' first
    | with_reducible exact .refl _ _
    | extract_lets
    | with_reducible apply OnlyP.ite
    | (with_reducible apply State.putVector_only; on_goal 2 => decide)
    | (with_reducible apply State.putLong_only; on_goal 2 => decide)
    | (with_reducible apply State.count_only; on_goal 2 => decide)
    | (with_reducible apply State.updDma_only; on_goal 2 => decide)
    | with_reducible apply OnlyP.fst
    | with_reducible apply OnlyP.mk'

theorem State.dmaUnitWrite_only {m : Nat} {s t : State} {a1} (h : OnlyM m s t) (i : mask [.mem, .chk, .bad, .dmaOps,
      .tiersPanels, .tiersRepairs, .tiersWriteQ, .cores, .chans, .rasSources, .rasQueue, .rasOvf, .catCounters, .catRings,
      .catWaits, .catStarted, .catTrace, .free, .out] ||| m = m) :
    OnlyM m s (State.dmaUnitWrite t a1) := by
  refine OnlyM.ofStep h ?_ i; clear h i; unfold State.dmaUnitWrite
  repeat' first
    | with_reducible exact .refl _ _
    | extract_lets
    | (with_reducible apply State.enterRuns_only; on_goal 2 => decide)
    | (with_reducible apply State.waitEnd_only; on_goal 2 => decide)
    | (with_reducible apply State.leaveQueue_only; on_goal 2 => decide)
    | (with_reducible apply State.noteBegun_only; on_goal 2 => decide)
    | (with_reducible apply State.dmaPut_only; on_goal 2 => decide)
    | split

theorem State.dmaHostFail_only {m : Nat} {s t : State} {a1} (h : OnlyM m s t) (i : mask [.dmaOps] ||| m = m) :
    OnlyM m s (State.dmaHostFail t a1) := by
  refine OnlyM.ofStep h ?_ i; clear h i; unfold State.dmaHostFail
  repeat' first
    | with_reducible exact .refl _ _
    | (with_reducible apply State.updDma_only; on_goal 2 => decide)
    | split

theorem State.dmaIssue_only {m : Nat} {s t : State} {a1} (h : OnlyM m s t) (i : mask [.hifRings, .hifInflight, .hifFences,
      .dmaOps, .dmaStops, .docGroups, .tiersObjs, .tiersPanels, .tiersMaps, .tiersMigs, .tiersT0used, .tiersRepairs,
      .tiersWriteQ, .tiersObjRun, .tiersObjWait, .cores, .catCounters, .catRings, .catWaits, .catStarted, .catTrace, .free,
      .out] ||| m = m) :
    OnlyM m s (State.dmaIssue t a1) := by
  refine OnlyM.ofStep h ?_ i; clear h i; unfold State.dmaIssue
  repeat' first
    | with_reducible exact .refl _ _
    | extract_lets
    | with_reducible apply OnlyM.ite
    | (with_reducible apply State.settleStops_only; on_goal 2 => decide)
    | (with_reducible apply State.complete_only; on_goal 2 => decide)
    | (with_reducible apply State.dmaLeave_only; on_goal 2 => decide)
    | (with_reducible apply State.updDma_only; on_goal 2 => decide)
    | (with_reducible apply State.dmaHandles_only; on_goal 2 => decide)

theorem State.giveChannel_only {m : Nat} {s t : State} {a1 a2} (h : OnlyM m s t) (i : mask [.hifRings, .hifInflight,
      .hifFences, .dmaOps, .dmaStops, .docGroups, .tiersObjs, .tiersPanels, .tiersMaps, .tiersMigs, .tiersT0used,
      .tiersRepairs, .tiersWriteQ, .tiersObjRun, .tiersObjWait, .cores, .catCounters, .catRings, .catWaits, .catStarted,
      .catTrace, .free, .out] ||| m = m) :
    OnlyM m s (State.giveChannel t a1 a2) := by
  refine OnlyM.ofStep h ?_ i; clear h i; unfold State.giveChannel
  repeat' first
    | with_reducible exact .refl _ _
    | extract_lets
    | (with_reducible apply State.waitEnd_only; on_goal 2 => decide)
    | (with_reducible apply State.updDma_only; on_goal 2 => decide)
    | (with_reducible apply State.dmaIssue_only; on_goal 2 => decide)
    | (with_reducible apply State.setCore_only; on_goal 2 => decide)
    | split

theorem State.dmaStart_only {m : Nat} {s t : State} {a1} (h : OnlyM m s t) (i : mask [.hifRings, .hifInflight, .hifFences,
      .dmaOps, .dmaStops, .docGroups, .tiersObjs, .tiersPanels, .tiersMaps, .tiersMigs, .tiersT0used, .tiersRepairs,
      .tiersWriteQ, .tiersObjRun, .tiersObjWait, .cores, .catCounters, .catRings, .catWaits, .catStarted, .catTrace, .free,
      .out] ||| m = m) :
    OnlyM m s (State.dmaStart t a1) := by
  refine OnlyM.ofStep h ?_ i; clear h i; unfold State.dmaStart
  repeat' first
    | with_reducible exact .refl _ _
    | extract_lets
    | with_reducible apply OnlyM.ite
    | (with_reducible apply State.opEvent_only; on_goal 2 => decide)
    | (with_reducible apply State.waitBegin_only; on_goal 2 => decide)
    | (with_reducible apply State.giveChannel_only; on_goal 2 => decide)
    | fail_if_no_progress (with_reducible apply OnlyM.lit_dmaOps; on_goal 2 => decide)
    | split

theorem State.acceptStrided_only {m : Nat} {s t : State} {a1 a2} (h : OnlyM m s t) (i : mask [.hifRings, .hifInflight,
      .hifFences, .dmaOps, .dmaStops, .docGroups, .tiersObjs, .tiersPanels, .tiersMaps, .tiersMigs, .tiersT0used,
      .tiersRepairs, .tiersWriteQ, .tiersObjRun, .tiersObjWait, .cores, .catCounters, .catRings, .catWaits, .catStarted,
      .catTrace, .nextOp, .free, .out] ||| m = m) :
    OnlyM m s (State.acceptStrided t a1 a2) := by
  refine OnlyM.ofStep h ?_ i; clear h i; unfold State.acceptStrided
  repeat' first
    | with_reducible exact .refl _ _
    | extract_lets
    | intro _
    | (with_reducible apply State.accept_only; on_goal 2 => decide)
    | (with_reducible apply State.dmaStart_only; on_goal 2 => decide)

theorem State.takeChan_only {m : Nat} {s t : State} {a1 a2 a3 a4 a5} (h : OnlyM m s t) (i : mask [.tiersPanels,
      .tiersRepairs, .rasSources, .rasQueue, .rasOvf, .catCounters, .catRings, .catTrace, .free] ||| m = m) :
    OnlyP m s (State.takeChan t a1 a2 a3 a4 a5) := by
  refine OnlyP.ofStep h ?_ i; clear h i; unfold State.takeChan
  repeat' first
    | with_reducible exact .refl _ _
    | extract_lets l1
    | (with_reducible apply State.readChan_only; on_goal 2 => decide)
    | (with_reducible apply State.count_only; on_goal 2 => decide)
    | with_reducible apply OnlyP.fst
    | split
    | unfold l1
    | with_reducible apply OnlyP.mk'

theorem State.takePart_only {m : Nat} {s t : State} {a1 a2 a3 a4 a5 a6 a7} (h : OnlyM m s t) (i : mask [.tiersPanels,
      .tiersRepairs, .rasSources, .rasQueue, .rasOvf, .catCounters, .catRings, .catTrace, .free] ||| m = m) :
    OnlyP m s (State.takePart t a1 a2 a3 a4 a5 a6 a7) := by
  refine OnlyP.ofStep h ?_ i; clear h i; unfold State.takePart
  repeat' first
    | with_reducible exact .refl _ _
    | extract_lets
    | with_reducible apply OnlyP.ite
    | (with_reducible apply State.takeChan_only; on_goal 2 => decide)
    | with_reducible apply OnlyP.mk'

theorem State.takeGather_only {m : Nat} {s t : State} {a1 a2 a3 a4 a5} (h : OnlyM m s t) (i : mask [.tiersPanels,
      .tiersRepairs, .rasSources, .rasQueue, .rasOvf, .catCounters, .catRings, .catTrace, .free] ||| m = m) :
    OnlyP m s (State.takeGather t a1 a2 a3 a4 a5) := by
  refine OnlyP.ofStep h ?_ i; clear h i; unfold State.takeGather
  repeat' first
    | with_reducible exact .refl _ _
    | extract_lets l1 l2 l3
    | (with_reducible apply State.freeBytes_only; on_goal 2 => decide)
    | (with_reducible apply State.takePart_only; on_goal 2 => decide)
    | with_reducible apply OnlyP.fst
    | split
    | unfold l3
    | unfold l2
    | unfold l1
    | with_reducible apply OnlyP.mk'

theorem State.acceptCompare_only {m : Nat} {s t : State} {a1 a2} (h : OnlyM m s t) (i : mask [.hifRings, .hifInflight,
      .hifFences, .dmaOps, .dmaStops, .docGroups, .tiersObjs, .tiersPanels, .tiersMaps, .tiersMigs, .tiersT0used,
      .tiersRepairs, .tiersWriteQ, .tiersObjRun, .tiersObjWait, .cores, .catCounters, .catRings, .catWaits, .catStarted,
      .catTrace, .nextOp, .free, .out] ||| m = m) :
    OnlyM m s (State.acceptCompare t a1 a2) := by
  refine OnlyM.ofStep h ?_ i; clear h i; unfold State.acceptCompare
  repeat' first
    | with_reducible exact .refl _ _
    | extract_lets
    | intro _
    | (with_reducible apply State.accept_only; on_goal 2 => decide)
    | (with_reducible apply State.dmaStart_only; on_goal 2 => decide)

theorem State.queueWrite_only {m : Nat} {s t : State} {a1 a2 a3 a4 a5} (h : OnlyM m s t) (i : mask [.tiersWriteQ] ||| m = m) :
    OnlyM m s (State.queueWrite t a1 a2 a3 a4 a5) := by
  refine OnlyM.ofStep h ?_ i; clear h i; unfold State.queueWrite
  repeat' first
    | with_reducible exact .refl _ _
    | extract_lets
    | fail_if_no_progress (with_reducible apply OnlyM.lit_tiersWriteQ; on_goal 2 => decide)

theorem State.writeWaits_only {m : Nat} {s t : State} {a1} (h : OnlyM m s t) (i : mask [.tiersWriteQ, .catRings, .catWaits,
      .catTrace, .free] ||| m = m) :
    OnlyM m s (State.writeWaits t a1) := by
  refine OnlyM.ofStep h ?_ i; clear h i; unfold State.writeWaits
  repeat' first
    | with_reducible exact .refl _ _
    | extract_lets
    | (with_reducible apply State.waitBegin_only; on_goal 2 => decide)
    | (with_reducible apply State.queueWrite_only; on_goal 2 => decide)

theorem State.engineNext_only {m : Nat} {s t : State} {a1 a2} (h : OnlyM m s t) (i : mask [.free] ||| m = m) :
    OnlyP m s (State.engineNext t a1 a2) := by
  refine OnlyP.ofStep h ?_ i; clear h i; unfold State.engineNext
  exact State.classPick_only (.refl _ _) (by decide)

theorem State.writeEngines_only {m : Nat} {s t : State} {a1 n} (h : OnlyM m s t) (i : mask [.dmaLastWr, .dmaWrEng,
      .free] ||| m = m) :
    OnlyM m s (State.writeEngines t a1 n) := by
  refine OnlyM.ofStep h (?_ : OnlyM (mask [.dmaLastWr, .dmaWrEng, .free]) t (State.writeEngines t a1 n)) i; clear h i
  suffices k : ∀ s, OnlyM (mask [.dmaLastWr, .dmaWrEng, .free]) s t → OnlyM (mask [.dmaLastWr, .dmaWrEng,
      .free]) s (State.writeEngines t a1 n) from k t (.refl _ _)
  induction n generalizing t with
  | zero => intro s h; unfold State.writeEngines; exact h
  | succ n ih =>
    intro s h; unfold State.writeEngines
    repeat' first
    | with_reducible apply ih
    | with_reducible assumption
    | extract_lets
    | with_reducible apply OnlyM.ite
    | (with_reducible apply State.engineNext_only; on_goal 2 => decide)
    | with_reducible refine OnlyM.ofPair (by assumption) ?_
    | fail_if_no_progress (with_reducible apply OnlyM.lit_dmaWrEng; on_goal 2 => decide)
    | fail_if_no_progress (with_reducible apply OnlyM.lit_dmaLastWr_dmaWrEng; on_goal 2 => decide)
    | split

theorem State.acceptDmaStop_only {m : Nat} {s t : State} {a1 a2} (h : OnlyM m s t) (i : mask [.hifRings, .hifInflight,
      .hifFences, .dmaOps, .dmaStops, .docGroups, .tiersObjs, .tiersPanels, .tiersMaps, .tiersMigs, .tiersT0used,
      .tiersRepairs, .tiersWriteQ, .tiersObjRun, .tiersObjWait, .cores, .catCounters, .catRings, .catWaits, .catStarted,
      .catTrace, .nextOp, .free, .out] ||| m = m) :
    OnlyM m s (State.acceptDmaStop t a1 a2) := by
  refine OnlyM.ofStep h ?_ i; clear h i; unfold State.acceptDmaStop
  repeat' first
    | with_reducible exact .refl _ _
    | extract_lets
    | intro _
    | (with_reducible apply State.accept_only; on_goal 2 => decide)
    | (with_reducible apply State.dmaStopStart_only; on_goal 2 => decide)

theorem State.gatherUnit_only {m : Nat} {s t : State} {a1} (h : OnlyM m s t) (i : mask [.mem, .chk, .dmaOps, .tiersPanels,
      .tiersRepairs, .cores, .chans, .rasSources, .rasQueue, .rasOvf, .catCounters, .catRings, .catTrace, .free] ||| m = m) :
    OnlyM m s (State.gatherUnit t a1) := by
  refine OnlyM.ofStep h ?_ i; clear h i; unfold State.gatherUnit
  repeat' first
    | with_reducible exact .refl _ _
    | extract_lets _ _ l3
    | (with_reducible apply State.pick_only; on_goal 2 => decide)
    | (with_reducible apply State.enterRuns_only; on_goal 2 => decide)
    | (with_reducible apply State.takeGather_only; on_goal 2 => decide)
    | (with_reducible apply State.updDma_only; on_goal 2 => decide)
    | (with_reducible apply State.count_only; on_goal 2 => decide)
    | with_reducible refine OnlyM.ofPair (by assumption) ?_
    | with_reducible apply OnlyP.fst
    | split
    | unfold l3

theorem State.takeScratch_only {m : Nat} {s t : State} {a1 a2 a3} (h : OnlyM m s t) (i : mask [.rasSources, .rasQueue,
      .rasOvf, .catCounters, .catRings, .catTrace, .free] ||| m = m) :
    OnlyP m s (State.takeScratch t a1 a2 a3) := by
  refine OnlyP.ofStep h ?_ i; clear h i; unfold State.takeScratch
  repeat' first
    | with_reducible exact .refl _ _
    | extract_lets l1 l2
    | (with_reducible apply State.noteScratch_only; on_goal 2 => decide)
    | with_reducible apply OnlyP.fst
    | unfold l2
    | unfold l1
    | with_reducible apply OnlyP.mk'

theorem State.takeHall_only {m : Nat} {s t : State} {a1 a2} (h : OnlyM m s t) (i : mask [.tiersPanels, .tiersRepairs,
      .rasSources, .rasQueue, .rasOvf, .catRings, .catTrace, .free] ||| m = m) :
    OnlyP m s (State.takeHall t a1 a2) := by
  refine OnlyP.ofStep h ?_ i; clear h i; unfold State.takeHall
  repeat' first
    | with_reducible exact .refl _ _
    | extract_lets l1
    | (with_reducible apply State.noteHallUse_only; on_goal 2 => decide)
    | with_reducible apply OnlyP.fst
    | unfold l1
    | with_reducible apply OnlyP.mk'

theorem State.takeEp_only {m : Nat} {s t : State} {a1 a2 a3 a4 a5 a6 a7} (h : OnlyM m s t) (i : mask [.dmaOps, .dmaStops,
      .dmaNextOpid, .dmaLastRd, .dmaLastWr, .dmaRdEng, .dmaWrEng, .docGroups, .tiersPanels, .tiersRepairs, .fabPorts,
      .rasSources, .rasQueue, .rasOvf, .catCounters, .catRings, .catTrace, .free, .out] ||| m = m) :
    OnlyP m s (State.takeEp t a1 a2 a3 a4 a5 a6 a7) := by
  refine OnlyP.ofStep h ?_ i; clear h i; unfold State.takeEp
  repeat' first
    | with_reducible exact .refl _ _
    | extract_lets l1 l2
    | with_reducible apply OnlyP.ite
    | (with_reducible apply State.hostRead_only; on_goal 2 => decide)
    | (with_reducible apply State.takeChan_only; on_goal 2 => decide)
    | (with_reducible apply State.takeScratch_only; on_goal 2 => decide)
    | (with_reducible apply State.takeHall_only; on_goal 2 => decide)
    | (with_reducible apply State.countIf_only; on_goal 2 => decide)
    | (with_reducible apply State.peerRead_only; on_goal 2 => decide)
    | split
    | unfold l2
    | unfold l1
    | with_reducible apply OnlyP.mk'

theorem State.takeLong_only {m : Nat} {s t : State} {a1 a2 a3 a4 n a5 a6 a7} (h : OnlyM m s t) (i : mask [.dmaOps,
      .dmaStops, .dmaNextOpid, .dmaLastRd, .dmaLastWr, .dmaRdEng, .dmaWrEng, .docGroups, .tiersPanels, .tiersRepairs,
      .fabPorts, .rasSources, .rasQueue, .rasOvf, .catCounters, .catRings, .catTrace, .free, .out] ||| m = m) :
    OnlyP m s (State.takeLong t a1 a2 a3 a4 n a5 a6 a7) := by
  refine OnlyP.ofStep h (?_ : OnlyP (mask [.dmaOps, .dmaStops, .dmaNextOpid, .dmaLastRd, .dmaLastWr, .dmaRdEng, .dmaWrEng,
      .docGroups, .tiersPanels, .tiersRepairs, .fabPorts, .rasSources, .rasQueue, .rasOvf, .catCounters, .catRings,
      .catTrace, .free, .out]) t (State.takeLong t a1 a2 a3 a4 n a5 a6 a7)) i; clear h i
  suffices k : ∀ s, OnlyM (mask [.dmaOps, .dmaStops, .dmaNextOpid, .dmaLastRd, .dmaLastWr, .dmaRdEng, .dmaWrEng,
      .docGroups, .tiersPanels, .tiersRepairs, .fabPorts, .rasSources, .rasQueue, .rasOvf, .catCounters, .catRings,
      .catTrace, .free, .out]) s t → OnlyP (mask [.dmaOps, .dmaStops, .dmaNextOpid, .dmaLastRd, .dmaLastWr, .dmaRdEng,
      .dmaWrEng, .docGroups, .tiersPanels, .tiersRepairs, .fabPorts, .rasSources, .rasQueue, .rasOvf, .catCounters,
      .catRings, .catTrace, .free, .out]) s (State.takeLong t a1 a2 a3 a4 n a5 a6 a7) from k t (.refl _ _)
  induction n generalizing t a5 a6 a7 with
  | zero => intro s h; unfold State.takeLong; exact ⟨h⟩
  | succ n ih =>
    intro s h; unfold State.takeLong
    repeat' first
    | with_reducible apply ih
    | with_reducible assumption
    | extract_lets l1 l2 l3 l4
    | with_reducible apply OnlyP.ite
    | (with_reducible apply State.takeEp_only; on_goal 2 => decide)
    | with_reducible apply OnlyP.fst
    | split
    | unfold l4
    | unfold l3
    | unfold l2
    | unfold l1
    | with_reducible apply OnlyP.mk'

theorem State.takeScattered_only {m : Nat} {s t : State} {a1 a2} (h : OnlyM m s t) (i : mask [.rasSources, .rasQueue,
      .rasOvf, .catCounters, .catRings, .catTrace, .free] ||| m = m) :
    OnlyP m s (State.takeScattered t a1 a2) := by
  refine OnlyP.ofStep h ?_ i; clear h i; unfold State.takeScattered
  repeat' first
    | with_reducible exact .refl _ _
    | extract_lets l1 l2 l3
    | intro _
    | (with_reducible apply State.noteScratch_only; on_goal 2 => decide)
    | with_reducible apply OnlyP.foldl
    | with_reducible apply OnlyP.fst
    | unfold l3
    | unfold l2
    | unfold l1
    | with_reducible apply OnlyP.mk'

theorem State.takeSpread_only {m : Nat} {s t : State} {a1 a2 a3} (h : OnlyM m s t) (i : mask [.rasSources, .rasQueue,
      .rasOvf, .catCounters, .catRings, .catTrace, .free] ||| m = m) :
    OnlyP m s (State.takeSpread t a1 a2 a3) := by
  refine OnlyP.ofStep h ?_ i; clear h i; unfold State.takeSpread
  repeat' first
    | with_reducible exact .refl _ _
    | extract_lets l1 l2 l3 l4 l5 l6 l7
    | with_reducible apply OnlyP.ite
    | (with_reducible apply State.takeScattered_only; on_goal 2 => decide)
    | with_reducible apply OnlyP.fst
    | split
    | unfold l7
    | unfold l6
    | unfold l5
    | unfold l4
    | unfold l3
    | unfold l2
    | unfold l1
    | with_reducible apply OnlyP.mk'

theorem State.dmaRead_only {m : Nat} {s t : State} {a1 a2 a3} (h : OnlyM m s t) (i : mask [.mem, .chk, .dmaOps, .dmaStops,
      .dmaNextOpid, .dmaLastRd, .dmaLastWr, .dmaRdEng, .dmaWrEng, .docGroups, .tiersPanels, .tiersRepairs, .cores, .chans,
      .fabPorts, .rasSources, .rasQueue, .rasOvf, .catCounters, .catRings, .catTrace, .free, .out] ||| m = m) :
    OnlyM m s (State.dmaRead t a1 a2 a3) := by
  refine OnlyM.ofStep h ?_ i; clear h i; unfold State.dmaRead
  repeat' first
    | with_reducible exact .refl _ _
    | extract_lets
    | with_reducible apply OnlyM.ite
    | with_reducible apply OnlyP.ite
    | (with_reducible apply State.gatherUnit_only; on_goal 2 => decide)
    | (with_reducible apply State.takeEp_only; on_goal 2 => decide)
    | (with_reducible apply State.updDma_only; on_goal 2 => decide)
    | (with_reducible apply State.count_only; on_goal 2 => decide)
    | (with_reducible apply State.takeLong_only; on_goal 2 => decide)
    | (with_reducible apply State.takeSpread_only; on_goal 2 => decide)
    | with_reducible apply OnlyP.fst

theorem State.readEngines_only {m : Nat} {s t : State} {a1 n} (h : OnlyM m s t) (i : mask [.dmaLastRd, .dmaRdEng,
      .free] ||| m = m) :
    OnlyM m s (State.readEngines t a1 n) := by
  refine OnlyM.ofStep h (?_ : OnlyM (mask [.dmaLastRd, .dmaRdEng, .free]) t (State.readEngines t a1 n)) i; clear h i
  suffices k : ∀ s, OnlyM (mask [.dmaLastRd, .dmaRdEng, .free]) s t → OnlyM (mask [.dmaLastRd, .dmaRdEng,
      .free]) s (State.readEngines t a1 n) from k t (.refl _ _)
  induction n generalizing t with
  | zero => intro s h; unfold State.readEngines; exact h
  | succ n ih =>
    intro s h; unfold State.readEngines
    repeat' first
    | with_reducible apply ih
    | with_reducible assumption
    | extract_lets
    | with_reducible apply OnlyM.ite
    | (with_reducible apply State.engineNext_only; on_goal 2 => decide)
    | with_reducible refine OnlyM.ofPair (by assumption) ?_
    | fail_if_no_progress (with_reducible apply OnlyM.lit_dmaRdEng; on_goal 2 => decide)
    | fail_if_no_progress (with_reducible apply OnlyM.lit_dmaLastRd_dmaRdEng; on_goal 2 => decide)
    | split

theorem State.dmaEnd_only {m : Nat} {s t : State} {a1} (h : OnlyM m s t) (i : mask [.hifRings, .hifInflight, .hifFences,
      .dmaOps, .dmaStops, .docGroups, .tiersObjs, .tiersPanels, .tiersMaps, .tiersMigs, .tiersT0used, .tiersRepairs,
      .tiersWriteQ, .tiersObjRun, .tiersObjWait, .cores, .catCounters, .catRings, .catWaits, .catStarted, .catTrace, .free,
      .out] ||| m = m) :
    OnlyM m s (State.dmaEnd t a1) := by
  refine OnlyM.ofStep h ?_ i; clear h i; unfold State.dmaEnd
  repeat' first
    | with_reducible exact .refl _ _
    | extract_lets
    | (with_reducible apply State.settleStops_only; on_goal 2 => decide)
    | (with_reducible apply State.complete_only; on_goal 2 => decide)
    | (with_reducible apply State.dmaLeave_only; on_goal 2 => decide)

theorem State.acceptGather_only {m : Nat} {s t : State} {a1 a2} (h : OnlyM m s t) (i : mask [.hifRings, .hifInflight,
      .hifFences, .dmaOps, .dmaStops, .docGroups, .tiersObjs, .tiersPanels, .tiersMaps, .tiersMigs, .tiersT0used,
      .tiersRepairs, .tiersWriteQ, .tiersObjRun, .tiersObjWait, .cores, .catCounters, .catRings, .catWaits, .catStarted,
      .catTrace, .nextOp, .free, .out] ||| m = m) :
    OnlyM m s (State.acceptGather t a1 a2) := by
  refine OnlyM.ofStep h ?_ i; clear h i; unfold State.acceptGather
  repeat' first
    | with_reducible exact .refl _ _
    | extract_lets
    | intro _
    | (with_reducible apply State.accept_only; on_goal 2 => decide)
    | (with_reducible apply State.dmaStart_only; on_goal 2 => decide)

theorem State.acceptFence_only {m : Nat} {s t : State} {a1 a2} (h : OnlyM m s t) (i : mask [.hifRings, .hifInflight,
      .hifFences, .docGroups, .catCounters, .catRings, .catStarted, .catTrace, .nextOp, .free, .out] ||| m = m) :
    OnlyM m s (State.acceptFence t a1 a2) := by
  refine OnlyM.ofStep h ?_ i; clear h i; unfold State.acceptFence
  repeat' first
    | with_reducible exact .refl _ _
    | extract_lets
    | intro _
    | (with_reducible apply State.accept_only; on_goal 2 => decide)
    | (with_reducible apply State.settleFence_only; on_goal 2 => decide)
    | fail_if_no_progress (with_reducible apply OnlyM.lit_hifFences; on_goal 2 => decide)
    | split

theorem State.acceptT24_only {m : Nat} {s t : State} {a1 a2} (h : OnlyM m s t) (i : mask [.hifRings, .hifInflight,
      .hifFences, .dmaOps, .dmaStops, .docGroups, .tiersObjs, .tiersPanels, .tiersMaps, .tiersMigs, .tiersT0used,
      .tiersRepairs, .tiersWriteQ, .tiersObjRun, .tiersObjWait, .cores, .catCounters, .catRings, .catWaits, .catStarted,
      .catTrace, .nextOp, .free, .out] ||| m = m) :
    OnlyM m s (State.acceptT24 t a1 a2) := by
  refine OnlyM.ofStep h ?_ i; clear h i; unfold State.acceptT24
  repeat' first
    | with_reducible exact .refl _ _
    | extract_lets
    | intro _
    | (with_reducible apply State.accept_only; on_goal 2 => decide)
    | (with_reducible apply State.dmaStart_only; on_goal 2 => decide)

theorem State.objSubmit_only {m : Nat} {s t : State} {a1 a2} (h : OnlyM m s t) (i : mask [.hifRings, .hifInflight,
      .hifFences, .docGroups, .tiersObjs, .tiersPanels, .tiersMaps, .tiersMigs, .tiersT0used, .tiersRepairs, .tiersObjRun,
      .tiersObjWait, .catCounters, .catRings, .catStarted, .catTrace, .free, .out] ||| m = m) :
    OnlyM m s (State.objSubmit t a1 a2) := by
  refine OnlyM.ofStep h ?_ i; clear h i; unfold State.objSubmit
  repeat' first
    | with_reducible exact .refl _ _
    | extract_lets
    | (with_reducible apply State.settleObjects_only; on_goal 2 => decide)
    | (with_reducible apply State.opEvent_only; on_goal 2 => decide)
    | fail_if_no_progress (with_reducible apply OnlyM.lit_tiersObjWait; on_goal 2 => decide)

theorem State.acceptTranspose_only {m : Nat} {s t : State} {a1 a2} (h : OnlyM m s t) (i : mask [.hifRings, .hifInflight,
      .hifFences, .dmaOps, .dmaStops, .docGroups, .tiersObjs, .tiersPanels, .tiersMaps, .tiersMigs, .tiersT0used,
      .tiersRepairs, .tiersWriteQ, .tiersObjRun, .tiersObjWait, .cores, .catCounters, .catRings, .catWaits, .catStarted,
      .catTrace, .nextOp, .free, .out] ||| m = m) :
    OnlyM m s (State.acceptTranspose t a1 a2) := by
  refine OnlyM.ofStep h ?_ i; clear h i; unfold State.acceptTranspose
  repeat' first
    | with_reducible exact .refl _ _
    | extract_lets
    | intro _
    | (with_reducible apply State.accept_only; on_goal 2 => decide)
    | (with_reducible apply State.dmaStart_only; on_goal 2 => decide)

theorem State.readFree_only {m : Nat} {s t : State} {a1} (h : OnlyM m s t) (i : mask [.dmaRdEng] ||| m = m) :
    OnlyM m s (State.readFree t a1) := by
  refine OnlyM.ofStep h ?_ i; clear h i; unfold State.readFree
  repeat' first
    | with_reducible exact .refl _ _
    | extract_lets
    | fail_if_no_progress (with_reducible apply OnlyM.lit_dmaRdEng; on_goal 2 => decide)

theorem State.acceptCopy_only {m : Nat} {s t : State} {a1 a2} (h : OnlyM m s t) (i : mask [.hifRings, .hifInflight,
      .hifFences, .dmaOps, .dmaStops, .docGroups, .tiersObjs, .tiersPanels, .tiersMaps, .tiersMigs, .tiersT0used,
      .tiersRepairs, .tiersWriteQ, .tiersObjRun, .tiersObjWait, .cores, .catCounters, .catRings, .catWaits, .catStarted,
      .catTrace, .nextOp, .free, .out] ||| m = m) :
    OnlyM m s (State.acceptCopy t a1 a2) := by
  refine OnlyM.ofStep h ?_ i; clear h i; unfold State.acceptCopy
  repeat' first
    | with_reducible exact .refl _ _
    | extract_lets
    | intro _
    | (with_reducible apply State.accept_only; on_goal 2 => decide)
    | (with_reducible apply State.dmaStart_only; on_goal 2 => decide)

theorem State.acceptNop_only {m : Nat} {s t : State} {a1 a2} (h : OnlyM m s t) (i : mask [.hifRings, .hifInflight,
      .hifFences, .docGroups, .catCounters, .catRings, .catStarted, .catTrace, .nextOp, .free, .out] ||| m = m) :
    OnlyM m s (State.acceptNop t a1 a2) := by
  refine OnlyM.ofStep h ?_ i; clear h i; unfold State.acceptNop
  repeat' first
    | with_reducible exact .refl _ _
    | extract_lets
    | intro _
    | (with_reducible apply State.accept_only; on_goal 2 => decide)
    | (with_reducible apply State.complete_only; on_goal 2 => decide)

theorem State.acceptFill_only {m : Nat} {s t : State} {a1 a2} (h : OnlyM m s t) (i : mask [.hifRings, .hifInflight,
      .hifFences, .dmaOps, .dmaStops, .docGroups, .tiersObjs, .tiersPanels, .tiersMaps, .tiersMigs, .tiersT0used,
      .tiersRepairs, .tiersWriteQ, .tiersObjRun, .tiersObjWait, .cores, .catCounters, .catRings, .catWaits, .catStarted,
      .catTrace, .nextOp, .free, .out] ||| m = m) :
    OnlyM m s (State.acceptFill t a1 a2) := by
  refine OnlyM.ofStep h ?_ i; clear h i; unfold State.acceptFill
  repeat' first
    | with_reducible exact .refl _ _
    | extract_lets
    | intro _
    | (with_reducible apply State.accept_only; on_goal 2 => decide)
    | (with_reducible apply State.dmaStart_only; on_goal 2 => decide)

theorem State.dmaUnitRead_only {m : Nat} {s t : State} {a1 a2 a3} (h : OnlyM m s t) (i : mask [.mem, .chk, .dmaOps,
      .dmaStops, .dmaNextOpid, .dmaLastRd, .dmaLastWr, .dmaRdEng, .dmaWrEng, .docGroups, .tiersPanels, .tiersRepairs,
      .cores, .chans, .fabPorts, .rasSources, .rasQueue, .rasOvf, .catCounters, .catRings, .catWaits, .catStarted,
      .catTrace, .free, .out] ||| m = m) :
    OnlyM m s (State.dmaUnitRead t a1 a2 a3) := by
  refine OnlyM.ofStep h ?_ i; clear h i; unfold State.dmaUnitRead
  repeat' first
    | with_reducible exact .refl _ _
    | extract_lets
    | with_reducible apply OnlyM.ite
    | (with_reducible apply State.enterRuns_only; on_goal 2 => decide)
    | (with_reducible apply State.waitFree_only; on_goal 2 => decide)
    | (with_reducible apply State.waitEnd_only; on_goal 2 => decide)
    | (with_reducible apply State.noteBegun_only; on_goal 2 => decide)
    | (with_reducible apply State.dmaRead_only; on_goal 2 => decide)

theorem State.updMig_only {m : Nat} {s t : State} {a1 a2} (h : OnlyM m s t) (i : mask [.tiersMigs] ||| m = m) :
    OnlyM m s (State.updMig t a1 a2) := by
  refine OnlyM.ofStep h ?_ i; clear h i; unfold State.updMig
  repeat' first
    | with_reducible exact .refl _ _
    | extract_lets
    | fail_if_no_progress (with_reducible apply OnlyM.lit_tiersMigs; on_goal 2 => decide)

theorem State.acceptObjRelease_only {m : Nat} {s t : State} {a1 a2} (h : OnlyM m s t) (i : mask [.hifRings, .hifInflight,
      .hifFences, .docGroups, .tiersObjs, .tiersPanels, .tiersMaps, .tiersMigs, .tiersT0used, .tiersRepairs, .tiersObjRun,
      .tiersObjWait, .catCounters, .catRings, .catStarted, .catTrace, .nextOp, .free, .out] ||| m = m) :
    OnlyM m s (State.acceptObjRelease t a1 a2) := by
  refine OnlyM.ofStep h ?_ i; clear h i; unfold State.acceptObjRelease
  repeat' first
    | with_reducible exact .refl _ _
    | extract_lets
    | intro _
    | (with_reducible apply State.accept_only; on_goal 2 => decide)
    | (with_reducible apply State.objSubmit_only; on_goal 2 => decide)
    | fail_if_no_progress (with_reducible apply OnlyM.lit_tiersMaps; on_goal 2 => decide)

theorem State.homePanel_only {m : Nat} {s t : State} {a1 a2 a3} (h : OnlyM m s t) (i : mask [.mem, .chk, .bad,
      .tiersPanels, .cores, .rasSources, .rasQueue, .rasOvf, .catCounters, .catRings, .catTrace, .free] ||| m = m) :
    OnlyM m s (State.homePanel t a1 a2 a3) := by
  refine OnlyM.ofStep h ?_ i; clear h i; unfold State.homePanel
  repeat' first
    | with_reducible exact .refl _ _
    | extract_lets
    | (with_reducible apply State.setPanel_only; on_goal 2 => decide)
    | (with_reducible apply State.writeHall_only; on_goal 2 => decide)
    | (with_reducible apply State.writeChan_only; on_goal 2 => decide)
    | with_reducible apply OnlyP.fst
    | split

theorem State.addMapping_only {m : Nat} {s t : State} {a1 a2 a3 a4} (h : OnlyM m s t) (i : mask [.tiersMaps] ||| m = m) :
    OnlyM m s (State.addMapping t a1 a2 a3 a4) := by
  refine OnlyM.ofStep h ?_ i; clear h i; unfold State.addMapping
  repeat' first
    | with_reducible exact .refl _ _
    | extract_lets
    | fail_if_no_progress (with_reducible apply OnlyM.lit_tiersMaps; on_goal 2 => decide)

theorem State.acceptObjCreate_only {m : Nat} {s t : State} {a1 a2} (h : OnlyM m s t) (i : mask [.mem, .chk, .bad,
      .hifRings, .hifInflight, .hifFences, .docGroups, .tiersObjs, .tiersPanels, .tiersMaps, .tiersMigs, .tiersT0used,
      .tiersRepairs, .tiersObjRun, .tiersObjWait, .cores, .rasSources, .rasQueue, .rasOvf, .catCounters, .catRings,
      .catStarted, .catTrace, .nextOp, .free, .out] ||| m = m) :
    OnlyM m s (State.acceptObjCreate t a1 a2) := by
  refine OnlyM.ofStep h ?_ i; clear h i; unfold State.acceptObjCreate
  repeat' first
    | with_reducible exact .refl _ _
    | extract_lets _ l2
    | intro _
    | with_reducible apply OnlyP.ite
    | (with_reducible apply State.accept_only; on_goal 2 => decide)
    | (with_reducible apply State.putObj_only; on_goal 2 => decide)
    | (with_reducible apply State.takeT0_only; on_goal 2 => decide)
    | (with_reducible apply State.homePanel_only; on_goal 2 => decide)
    | (with_reducible apply State.objSubmit_only; on_goal 2 => decide)
    | (with_reducible apply State.addMapping_only; on_goal 2 => decide)
    | with_reducible apply OnlyM.foldl
    | with_reducible apply OnlyP.fst
    | unfold l2
    | with_reducible apply OnlyP.mk'

theorem State.moverReads_only {m : Nat} {s t : State} {a1 a2} (h : OnlyM m s t) (i : mask [.tiersPanels, .tiersRepairs,
      .rasSources, .rasQueue, .rasOvf, .catCounters, .catRings, .catTrace, .free] ||| m = m) :
    OnlyP m s (State.moverReads t a1 a2) := by
  refine OnlyP.ofStep h ?_ i; clear h i; unfold State.moverReads
  repeat' first
    | with_reducible exact .refl _ _
    | extract_lets l1
    | (with_reducible apply State.noteHallUse_only; on_goal 2 => decide)
    | (with_reducible apply State.noteChan_only; on_goal 2 => decide)
    | with_reducible apply OnlyP.fst
    | split
    | unfold l1
    | with_reducible apply OnlyP.mk'

theorem State.migStart_only {m : Nat} {s t : State} {a1} (h : OnlyM m s t) (i : mask [.hifRings, .hifInflight, .hifFences,
      .docGroups, .tiersObjs, .tiersPanels, .tiersMaps, .tiersMigs, .tiersT0used, .tiersRepairs, .tiersObjRun,
      .tiersObjWait, .catCounters, .catRings, .catStarted, .catTrace, .free, .out] ||| m = m) :
    OnlyM m s (State.migStart t a1) := by
  refine OnlyM.ofStep h ?_ i; clear h i; unfold State.migStart
  repeat' first
    | with_reducible exact .refl _ _
    | extract_lets
    | (with_reducible apply State.objSubmit_only; on_goal 2 => decide)
    | fail_if_no_progress (with_reducible apply OnlyM.lit_tiersMigs; on_goal 2 => decide)

theorem State.acceptAccession_only {m : Nat} {s t : State} {a1 a2} (h : OnlyM m s t) (i : mask [.hifRings, .hifInflight,
      .hifFences, .docGroups, .tiersObjs, .tiersPanels, .tiersMaps, .tiersMigs, .tiersT0used, .tiersRepairs, .tiersObjRun,
      .tiersObjWait, .catCounters, .catRings, .catStarted, .catTrace, .nextOp, .free, .out] ||| m = m) :
    OnlyM m s (State.acceptAccession t a1 a2) := by
  refine OnlyM.ofStep h ?_ i; clear h i; unfold State.acceptAccession
  repeat' first
    | with_reducible exact .refl _ _
    | extract_lets
    | intro _
    | with_reducible apply OnlyM.ite
    | (with_reducible apply State.accept_only; on_goal 2 => decide)
    | (with_reducible apply State.addMapping_only; on_goal 2 => decide)
    | (with_reducible apply State.putObj_only; on_goal 2 => decide)
    | (with_reducible apply State.migStart_only; on_goal 2 => decide)
    | (with_reducible apply State.objSubmit_only; on_goal 2 => decide)

theorem State.migSettle_only {m : Nat} {s t : State} {a1} (h : OnlyM m s t) (i : mask [.hifRings, .hifInflight, .hifFences,
      .docGroups, .tiersObjs, .tiersPanels, .tiersMaps, .tiersMigs, .tiersT0used, .tiersRepairs, .tiersObjRun,
      .tiersObjWait, .catCounters, .catRings, .catStarted, .catTrace, .free, .out] ||| m = m) :
    OnlyM m s (State.migSettle t a1) := by
  refine OnlyM.ofStep h ?_ i; clear h i; unfold State.migSettle
  repeat' first
    | with_reducible exact .refl _ _
    | extract_lets
    | (with_reducible apply State.settleObjects_only; on_goal 2 => decide)
    | (with_reducible apply State.migEnd_only; on_goal 2 => decide)

theorem State.leaveTier_only {m : Nat} {s t : State} {a1} (h : OnlyM m s t) (i : mask [.tiersT0used] ||| m = m) :
    OnlyM m s (State.leaveTier t a1) := by
  refine OnlyM.ofStep h ?_ i; clear h i; unfold State.leaveTier
  repeat' first
    | with_reducible exact .refl _ _
    | extract_lets
    | with_reducible apply OnlyM.ite
    | (with_reducible apply State.giveT0_only; on_goal 2 => decide)

theorem State.dropPanel_only {m : Nat} {s t : State} {a1 a2} (h : OnlyM m s t) (i : mask [.tiersPanels, .tiersT0used,
      .tiersRepairs] ||| m = m) :
    OnlyM m s (State.dropPanel t a1 a2) := by
  refine OnlyM.ofStep h ?_ i; clear h i; unfold State.dropPanel
  repeat' first
    | with_reducible exact .refl _ _
    | extract_lets
    | (with_reducible apply State.setPanel_only; on_goal 2 => decide)
    | (with_reducible apply State.leaveTier_only; on_goal 2 => decide)
    | fail_if_no_progress (with_reducible apply OnlyM.lit_tiersRepairs; on_goal 2 => decide)

theorem State.frameFor_only {m : Nat} {s t : State} {a1} (h : OnlyM m s t) (i : mask [.tiersT0used, .free] ||| m = m) :
    OnlyP m s (State.frameFor t a1) := by
  refine OnlyP.ofStep h ?_ i; clear h i; unfold State.frameFor
  repeat' first
    | with_reducible exact .refl _ _
    | extract_lets
    | with_reducible apply OnlyP.ite
    | (with_reducible apply State.takeT0_only; on_goal 2 => decide)
    | with_reducible apply OnlyP.mk'

theorem State.moverStart_only {m : Nat} {s t : State} {a1 a2} (h : OnlyM m s t) (i : mask [.dmaOps, .dmaStops,
      .dmaNextOpid, .dmaLastRd, .dmaLastWr, .dmaRdEng, .dmaWrEng, .docGroups, .tiersPanels, .tiersMigs, .tiersMoving,
      .tiersT0used, .tiersRepairs, .fabPorts, .rasSources, .rasQueue, .rasOvf, .catCounters, .catRings, .catTrace, .free,
      .out] ||| m = m) :
    OnlyM m s (State.moverStart t a1 a2) := by
  refine OnlyM.ofStep h ?_ i; clear h i; unfold State.moverStart
  repeat' first
    | with_reducible exact .refl _ _
    | extract_lets
    | with_reducible apply OnlyM.ite
    | (with_reducible apply State.moverReads_only; on_goal 2 => decide)
    | (with_reducible apply State.frameFor_only; on_goal 2 => decide)
    | (with_reducible apply State.updMig_only; on_goal 2 => decide)
    | (with_reducible apply State.setPanel_only; on_goal 2 => decide)
    | (with_reducible apply State.hostRead_only; on_goal 2 => decide)
    | (with_reducible apply State.peerRead_only; on_goal 2 => decide)
    | with_reducible apply OnlyP.fst
    | fail_if_no_progress (with_reducible apply OnlyM.lit_tiersMoving; on_goal 2 => decide)
    | split

theorem State.moverAct_only {m : Nat} {s t : State} {a1 a2 a3} (h : OnlyM m s t) (i : mask [.hifRings, .hifInflight,
      .hifFences, .dmaOps, .dmaStops, .dmaNextOpid, .dmaLastRd, .dmaLastWr, .dmaRdEng, .dmaWrEng, .docGroups, .tiersObjs,
      .tiersPanels, .tiersMaps, .tiersMigs, .tiersMoving, .tiersT0used, .tiersRepairs, .tiersObjRun, .tiersObjWait,
      .fabPorts, .rasSources, .rasQueue, .rasOvf, .catCounters, .catRings, .catStarted, .catTrace, .free, .out] ||| m = m) :
    OnlyM m s (State.moverAct t a1 a2 a3) := by
  refine OnlyM.ofStep h ?_ i; clear h i; unfold State.moverAct
  repeat' first
    | with_reducible exact .refl _ _
    | extract_lets
    | (with_reducible apply State.migSettle_only; on_goal 2 => decide)
    | (with_reducible apply State.updMig_only; on_goal 2 => decide)
    | (with_reducible apply State.count_only; on_goal 2 => decide)
    | (with_reducible apply State.dropPanel_only; on_goal 2 => decide)
    | (with_reducible apply State.moverStart_only; on_goal 2 => decide)
    | split

theorem State.writePanel_only {m : Nat} {s t : State} {a1 a2 a3 a4 a5} (h : OnlyM m s t) (i : mask [.mem, .chk, .bad,
      .cores, .rasSources, .rasQueue, .rasOvf, .catCounters, .catRings, .catTrace, .free] ||| m = m) :
    OnlyM m s (State.writePanel t a1 a2 a3 a4 a5) := by
  refine OnlyM.ofStep h ?_ i; clear h i; unfold State.writePanel
  repeat' first
    | with_reducible exact .refl _ _
    | extract_lets
    | with_reducible apply OnlyM.ite
    | (with_reducible apply State.writeHall_only; on_goal 2 => decide)
    | (with_reducible apply State.writeChan_only; on_goal 2 => decide)
    | with_reducible apply OnlyP.fst
    | split

theorem State.panelSwitch_only {m : Nat} {s t : State} {a1 a2 a3 a4 a5} (h : OnlyM m s t) (i : mask [.mem, .chk, .bad,
      .hifRings, .hifInflight, .hifFences, .docGroups, .tiersObjs, .tiersPanels, .tiersMaps, .tiersMigs, .tiersMoving,
      .tiersT0used, .tiersRepairs, .tiersObjRun, .tiersObjWait, .cores, .rasSources, .rasQueue, .rasOvf, .catCounters,
      .catRings, .catStarted, .catTrace, .free, .out] ||| m = m) :
    OnlyM m s (State.panelSwitch t a1 a2 a3 a4 a5) := by
  refine OnlyM.ofStep h ?_ i; clear h i; unfold State.panelSwitch
  repeat' first
    | with_reducible exact .refl _ _
    | extract_lets
    | (with_reducible apply State.writePanel_only; on_goal 2 => decide)
    | (with_reducible apply State.setPanel_only; on_goal 2 => decide)
    | (with_reducible apply State.leaveTier_only; on_goal 2 => decide)
    | (with_reducible apply State.migSettle_only; on_goal 2 => decide)
    | (with_reducible apply State.updMig_only; on_goal 2 => decide)
    | (with_reducible apply State.count_only; on_goal 2 => decide)
    | fail_if_no_progress (with_reducible apply OnlyM.lit_tiersMoving; on_goal 2 => decide)

theorem State.acceptObjQuery_only {m : Nat} {s t : State} {a1 a2} (h : OnlyM m s t) (i : mask [.hifRings, .hifInflight,
      .hifFences, .docGroups, .tiersObjs, .tiersPanels, .tiersMaps, .tiersMigs, .tiersT0used, .tiersRepairs, .tiersObjRun,
      .tiersObjWait, .catCounters, .catRings, .catStarted, .catTrace, .nextOp, .free, .out] ||| m = m) :
    OnlyM m s (State.acceptObjQuery t a1 a2) := by
  refine OnlyM.ofStep h ?_ i; clear h i; unfold State.acceptObjQuery
  repeat' first
    | with_reducible exact .refl _ _
    | extract_lets
    | intro _
    | (with_reducible apply State.accept_only; on_goal 2 => decide)
    | (with_reducible apply State.objSubmit_only; on_goal 2 => decide)

theorem State.acceptMigrate_only {m : Nat} {s t : State} {a1 a2} (h : OnlyM m s t) (i : mask [.hifRings, .hifInflight,
      .hifFences, .docGroups, .tiersObjs, .tiersPanels, .tiersMaps, .tiersMigs, .tiersT0used, .tiersRepairs, .tiersObjRun,
      .tiersObjWait, .catCounters, .catRings, .catStarted, .catTrace, .nextOp, .free, .out] ||| m = m) :
    OnlyM m s (State.acceptMigrate t a1 a2) := by
  refine OnlyM.ofStep h ?_ i; clear h i; unfold State.acceptMigrate
  repeat' first
    | with_reducible exact .refl _ _
    | extract_lets
    | intro _
    | with_reducible apply OnlyP.ite
    | (with_reducible apply State.accept_only; on_goal 2 => decide)
    | (with_reducible apply State.takeT0_only; on_goal 2 => decide)
    | (with_reducible apply State.migStart_only; on_goal 2 => decide)
    | with_reducible apply OnlyP.fst
    | split
    | with_reducible apply OnlyP.mk'

theorem State.acceptObjPin_only {m : Nat} {s t : State} {a1 a2} (h : OnlyM m s t) (i : mask [.hifRings, .hifInflight,
      .hifFences, .docGroups, .tiersObjs, .tiersPanels, .tiersMaps, .tiersMigs, .tiersT0used, .tiersRepairs, .tiersObjRun,
      .tiersObjWait, .catCounters, .catRings, .catStarted, .catTrace, .nextOp, .free, .out] ||| m = m) :
    OnlyM m s (State.acceptObjPin t a1 a2) := by
  refine OnlyM.ofStep h ?_ i; clear h i; unfold State.acceptObjPin
  repeat' first
    | with_reducible exact .refl _ _
    | extract_lets l1
    | intro _
    | (with_reducible apply State.accept_only; on_goal 2 => decide)
    | (with_reducible apply State.pinObj_only; on_goal 2 => decide)
    | (with_reducible apply State.objSubmit_only; on_goal 2 => decide)
    | split
    | unfold l1

theorem State.acceptObjMap_only {m : Nat} {s t : State} {a1 a2} (h : OnlyM m s t) (i : mask [.hifRings, .hifInflight,
      .hifFences, .docGroups, .tiersObjs, .tiersPanels, .tiersMaps, .tiersMigs, .tiersT0used, .tiersRepairs, .tiersObjRun,
      .tiersObjWait, .catCounters, .catRings, .catStarted, .catTrace, .nextOp, .free, .out] ||| m = m) :
    OnlyM m s (State.acceptObjMap t a1 a2) := by
  refine OnlyM.ofStep h ?_ i; clear h i; unfold State.acceptObjMap
  repeat' first
    | with_reducible exact .refl _ _
    | extract_lets
    | intro _
    | (with_reducible apply State.accept_only; on_goal 2 => decide)
    | (with_reducible apply State.objSubmit_only; on_goal 2 => decide)
    | (with_reducible apply State.addMapping_only; on_goal 2 => decide)

theorem State.bindDone_only {m : Nat} {s t : State} {a1 a2 a3} (h : OnlyM m s t) (i : mask [.hifRings, .hifInflight,
      .hifFences, .docGroups, .cores, .catCounters, .catRings, .catStarted, .catTrace, .free, .out] ||| m = m) :
    OnlyM m s (State.bindDone t a1 a2 a3) := by
  refine OnlyM.ofStep h ?_ i; clear h i; unfold State.bindDone
  repeat' first
    | with_reducible exact .refl _ _
    | extract_lets
    | (with_reducible apply State.complete_only; on_goal 2 => decide)
    | (with_reducible apply State.setCore_only; on_goal 2 => decide)

theorem State.noteCacheWords_only {m : Nat} {s t : State} {a1 a2} (h : OnlyM m s t) (i : mask [.rasSources, .rasQueue,
      .rasOvf, .catCounters, .catRings, .catTrace, .free] ||| m = m) :
    OnlyM m s (State.noteCacheWords t a1 a2) := by
  refine OnlyM.ofStep h ?_ i; clear h i; unfold State.noteCacheWords
  repeat' first
    | with_reducible exact .refl _ _
    | extract_lets
    | intro _
    | with_reducible apply OnlyM.ite
    | (with_reducible apply State.incident_only; on_goal 2 => decide)
    | (with_reducible apply State.count_only; on_goal 2 => decide)
    | (with_reducible apply State.draw_only; on_goal 2 => decide)
    | with_reducible apply OnlyM.foldl

theorem State.readLine_only {m : Nat} {s t : State} {a1 a2 a3 a4} (h : OnlyM m s t) (i : mask [.tiersPanels, .tiersRepairs,
      .cores, .rasSources, .rasQueue, .rasOvf, .catCounters, .catRings, .catTrace, .free] ||| m = m) :
    OnlyM m s (State.readLine t a1 a2 a3 a4) := by
  refine OnlyM.ofStep h ?_ i; clear h i; unfold State.readLine
  repeat' first
    | with_reducible exact .refl _ _
    | extract_lets
    | with_reducible apply OnlyM.ite
    | (with_reducible apply State.noteCacheWords_only; on_goal 2 => decide)
    | (with_reducible apply State.setCore_only; on_goal 2 => decide)
    | (with_reducible apply State.noteChan_only; on_goal 2 => decide)
    | split

theorem State.readLines_only {m : Nat} {s t : State} {a1 a2 a3 a4 a5} (h : OnlyM m s t) (i : mask [.tiersPanels,
      .tiersRepairs, .cores, .rasSources, .rasQueue, .rasOvf, .catCounters, .catRings, .catTrace, .free] ||| m = m) :
    OnlyM m s (State.readLines t a1 a2 a3 a4 a5) := by
  refine OnlyM.ofStep h ?_ i; clear h i; unfold State.readLines
  repeat' first
    | with_reducible exact .refl _ _
    | extract_lets
    | intro _
    | with_reducible apply OnlyM.ite
    | (with_reducible apply State.readLine_only; on_goal 2 => decide)
    | with_reducible apply OnlyM.foldl

theorem State.missTraffic_only {m : Nat} {s t : State} {a1 a2 a3 a4} (h : OnlyM m s t) (i : mask [.chans, .catCounters,
      .free] ||| m = m) :
    OnlyM m s (State.missTraffic t a1 a2 a3 a4) := by
  refine OnlyM.ofStep h ?_ i; clear h i; unfold State.missTraffic
  repeat' first
    | with_reducible exact .refl _ _
    | extract_lets
    | with_reducible apply OnlyM.ite
    | (with_reducible apply State.traffic_only; on_goal 2 => decide)

theorem State.unbindStart_only {m : Nat} {s t : State} {a1} (h : OnlyM m s t) (i : mask [.cores] ||| m = m) :
    OnlyM m s (State.unbindStart t a1) := by
  refine OnlyM.ofStep h ?_ i; clear h i; unfold State.unbindStart
  repeat' first
    | with_reducible exact .refl _ _
    | extract_lets
    | (with_reducible apply State.setCore_only; on_goal 2 => decide)

theorem State.acceptUnbind_only {m : Nat} {s t : State} {a1 a2} (h : OnlyM m s t) (i : mask [.hifRings, .hifInflight,
      .hifFences, .docGroups, .cores, .catCounters, .catRings, .catStarted, .catTrace, .nextOp, .free, .out] ||| m = m) :
    OnlyM m s (State.acceptUnbind t a1 a2) := by
  refine OnlyM.ofStep h ?_ i; clear h i; unfold State.acceptUnbind
  repeat' first
    | with_reducible exact .refl _ _
    | extract_lets
    | intro _
    | (with_reducible apply State.accept_only; on_goal 2 => decide)
    | (with_reducible apply State.unbindStart_only; on_goal 2 => decide)

theorem State.bindStart_only {m : Nat} {s t : State} {a1} (h : OnlyM m s t) (i : mask [.hifRings, .hifInflight, .hifFences,
      .docGroups, .cores, .catCounters, .catRings, .catStarted, .catTrace, .free, .out] ||| m = m) :
    OnlyM m s (State.bindStart t a1) := by
  refine OnlyM.ofStep h ?_ i; clear h i; unfold State.bindStart
  repeat' first
    | with_reducible exact .refl _ _
    | extract_lets
    | with_reducible apply OnlyM.ite
    | (with_reducible apply State.setCore_only; on_goal 2 => decide)
    | (with_reducible apply State.bindDone_only; on_goal 2 => decide)

theorem State.acceptBind_only {m : Nat} {s t : State} {a1 a2} (h : OnlyM m s t) (i : mask [.hifRings, .hifInflight,
      .hifFences, .docGroups, .cores, .catCounters, .catRings, .catStarted, .catTrace, .nextOp, .free, .out] ||| m = m) :
    OnlyM m s (State.acceptBind t a1 a2) := by
  refine OnlyM.ofStep h ?_ i; clear h i; unfold State.acceptBind
  repeat' first
    | with_reducible exact .refl _ _
    | extract_lets
    | intro _
    | (with_reducible apply State.accept_only; on_goal 2 => decide)
    | (with_reducible apply State.bindStart_only; on_goal 2 => decide)

theorem State.chargeTile_only {m : Nat} {s t : State} {a1} (h : OnlyM m s t) (i : mask [.cores, .free] ||| m = m) :
    OnlyM m s (State.chargeTile t a1) := by
  refine OnlyM.ofStep h ?_ i; clear h i; unfold State.chargeTile
  repeat' first
    | with_reducible exact .refl _ _
    | extract_lets
    | with_reducible apply OnlyM.ite
    | (with_reducible apply State.setCore_only; on_goal 2 => decide)
    | (with_reducible apply State.draw_only; on_goal 2 => decide)

theorem State.freeCodebooks_only {m : Nat} {s t : State} {a1 a2} (h : OnlyM m s t) (i : mask [.cores] ||| m = m) :
    OnlyM m s (State.freeCodebooks t a1 a2) := by
  refine OnlyM.ofStep h ?_ i; clear h i; unfold State.freeCodebooks
  repeat' first
    | with_reducible exact .refl _ _
    | extract_lets
    | (with_reducible apply State.setCore_only; on_goal 2 => decide)

theorem State.tileLeave_only {m : Nat} {s t : State} {a1} (h : OnlyM m s t) (i : mask [.cores] ||| m = m) :
    OnlyM m s (State.tileLeave t a1) := by
  refine OnlyM.ofStep h ?_ i; clear h i; unfold State.tileLeave
  repeat' first
    | with_reducible exact .refl _ _
    | extract_lets
    | intro _
    | (with_reducible apply State.useHandle_only; on_goal 2 => decide)
    | (with_reducible apply State.freeCodebooks_only; on_goal 2 => decide)
    | (with_reducible apply State.sbLeave_only; on_goal 2 => decide)
    | with_reducible apply OnlyM.foldl

theorem State.startTile_only {m : Nat} {s t : State} {a1} (h : OnlyM m s t) (i : mask [.cores, .catCounters, .catRings,
      .catWaits, .catStarted, .catTrace, .free] ||| m = m) :
    OnlyM m s (State.startTile t a1) := by
  refine OnlyM.ofStep h ?_ i; clear h i; unfold State.startTile
  repeat' first
    | with_reducible exact .refl _ _
    | extract_lets l1
    | with_reducible apply OnlyM.ite
    | (with_reducible apply State.waitBegin_only; on_goal 2 => decide)
    | (with_reducible apply State.opEvent_only; on_goal 2 => decide)
    | (with_reducible apply State.waitEnd_only; on_goal 2 => decide)
    | (with_reducible apply State.setCore_only; on_goal 2 => decide)
    | split
    | unfold l1

theorem State.tileEndAt_only {m : Nat} {s t : State} {a1 a2 a3 a4} (h : OnlyM m s t) (i : mask [.hifRings, .hifInflight,
      .hifFences, .docGroups, .cores, .catCounters, .catRings, .catWaits, .catStarted, .catTrace, .free, .out] ||| m = m) :
    OnlyM m s (State.tileEndAt t a1 a2 a3 a4) := by
  refine OnlyM.ofStep h ?_ i; clear h i; unfold State.tileEndAt
  repeat' first
    | with_reducible exact .refl _ _
    | extract_lets
    | with_reducible apply OnlyM.ite
    | (with_reducible apply State.chargeTile_only; on_goal 2 => decide)
    | (with_reducible apply State.tileLeave_only; on_goal 2 => decide)
    | (with_reducible apply State.count_only; on_goal 2 => decide)
    | (with_reducible apply State.setCore_only; on_goal 2 => decide)
    | (with_reducible apply State.complete_only; on_goal 2 => decide)
    | (with_reducible apply State.startTile_only; on_goal 2 => decide)

theorem State.putRuns_only {m : Nat} {s t : State} {a1} (h : OnlyM m s t) (i : mask [.mem, .bad, .rasSources, .rasQueue,
      .rasOvf, .catRings, .catTrace, .free] ||| m = m) :
    OnlyP m s (State.putRuns t a1) := by
  refine OnlyP.ofStep h ?_ i; clear h i; unfold State.putRuns
  repeat' first
    | with_reducible exact .refl _ _
    | extract_lets l1
    | intro _
    | (with_reducible apply State.putHall_only; on_goal 2 => decide)
    | with_reducible apply OnlyP.foldl
    | with_reducible apply OnlyP.fst
    | unfold l1
    | with_reducible apply OnlyP.mk'

theorem State.writeBlock_only {m : Nat} {s t : State} {a1 a2 a3} (h : OnlyM m s t) (i : mask [.mem, .bad, .rasSources,
      .rasQueue, .rasOvf, .catCounters, .catRings, .catTrace, .free] ||| m = m) :
    OnlyP m s (State.writeBlock t a1 a2 a3) := by
  refine OnlyP.ofStep h ?_ i; clear h i; unfold State.writeBlock
  repeat' first
    | with_reducible exact .refl _ _
    | extract_lets l1 l2 l3 l4
    | (with_reducible apply State.putRuns_only; on_goal 2 => decide)
    | (with_reducible apply State.draw_only; on_goal 2 => decide)
    | (with_reducible apply State.count_only; on_goal 2 => decide)
    | with_reducible apply OnlyP.fst
    | unfold l4
    | unfold l3
    | unfold l2
    | unfold l1
    | with_reducible apply OnlyP.mk'

theorem State.finishLane_only {m : Nat} {s t : State} {a1 a2 a3 a4 a5 a6 a7} (h : OnlyM m s t) (i : mask [.mem, .bad,
      .fins, .rasSources, .rasQueue, .rasOvf, .catCounters, .catRings, .catTrace, .free] ||| m = m) :
    OnlyP m s (State.finishLane t a1 a2 a3 a4 a5 a6 a7) := by
  refine OnlyP.ofStep h ?_ i; clear h i; unfold State.finishLane
  repeat' first
    | with_reducible exact .refl _ _
    | extract_lets l1 l2 l3 l4 l5 l6 l7 l8 l9 l10 l11 l12 l13 l14
    | intro _
    | with_reducible apply OnlyP.ite
    | (with_reducible apply State.putHall_only; on_goal 2 => decide)
    | (with_reducible apply State.draw_only; on_goal 2 => decide)
    | (with_reducible apply State.setFin_only; on_goal 2 => decide)
    | (with_reducible apply State.writeBlock_only; on_goal 2 => decide)
    | with_reducible apply OnlyP.foldl
    | with_reducible apply OnlyP.fst
    | split
    | unfold l14
    | unfold l13
    | unfold l12
    | unfold l11
    | unfold l10
    | unfold l9
    | unfold l8
    | unfold l7
    | unfold l6
    | unfold l5
    | unfold l4
    | unfold l3
    | unfold l2
    | unfold l1
    | with_reducible apply OnlyP.mk'

theorem State.finish_only {m : Nat} {s t : State} {a1 a2 a3 a4} (h : OnlyM m s t) (i : mask [.mem, .bad, .fins,
      .rasSources, .rasQueue, .rasOvf, .catCounters, .catRings, .catTrace, .free] ||| m = m) :
    OnlyP m s (State.finish t a1 a2 a3 a4) := by
  refine OnlyP.ofStep h ?_ i; clear h i; unfold State.finish
  repeat' first
    | with_reducible exact .refl _ _
    | extract_lets l1
    | intro _
    | (with_reducible apply State.finishLane_only; on_goal 2 => decide)
    | with_reducible apply OnlyP.foldl
    | with_reducible apply OnlyP.fst
    | unfold l1
    | with_reducible apply OnlyP.mk'

theorem State.maskPass_only {m : Nat} {s t : State} {a1 a2 a3 a4} (h : OnlyM m s t) (i : mask [.mem, .chk, .bad, .curLost,
      .curLostCtx, .cores, .rasSources, .rasQueue, .rasOvf, .catCounters, .catRings, .catTrace, .free] ||| m = m) :
    OnlyP m s (State.maskPass t a1 a2 a3 a4) := by
  refine OnlyP.ofStep h ?_ i; clear h i; unfold State.maskPass
  repeat' first
    | with_reducible exact .refl _ _
    | extract_lets l1 l2 l3 l4 l5 l6 l7 l8
    | (with_reducible apply State.writeScratch_only; on_goal 2 => decide)
    | (with_reducible apply State.upsets_only; on_goal 2 => decide)
    | (with_reducible apply State.noteScratch_only; on_goal 2 => decide)
    | with_reducible apply OnlyP.fst
    | unfold l8
    | unfold l7
    | unfold l6
    | unfold l5
    | unfold l4
    | unfold l3
    | unfold l2
    | unfold l1
    | with_reducible apply OnlyP.mk'

theorem State.tileStart_only {m : Nat} {s t : State} {a1} (h : OnlyM m s t) (i : mask [.cores] ||| m = m) :
    OnlyM m s (State.tileStart t a1) := by
  refine OnlyM.ofStep h ?_ i; clear h i; unfold State.tileStart
  repeat' first
    | with_reducible exact .refl _ _
    | extract_lets
    | (with_reducible apply State.setCore_only; on_goal 2 => decide)

theorem State.acceptTile_only {m : Nat} {s t : State} {a1 a2} (h : OnlyM m s t) (i : mask [.hifRings, .hifInflight,
      .hifFences, .docGroups, .cores, .catCounters, .catRings, .catStarted, .catTrace, .nextOp, .free, .out] ||| m = m) :
    OnlyM m s (State.acceptTile t a1 a2) := by
  refine OnlyM.ofStep h ?_ i; clear h i; unfold State.acceptTile
  repeat' first
    | with_reducible exact .refl _ _
    | extract_lets
    | intro _
    | (with_reducible apply State.accept_only; on_goal 2 => decide)
    | (with_reducible apply State.tileStart_only; on_goal 2 => decide)

theorem State.acceptTileBs_only {m : Nat} {s t : State} {a1 a2} (h : OnlyM m s t) (i : mask [.hifRings, .hifInflight,
      .hifFences, .docGroups, .cores, .catCounters, .catRings, .catStarted, .catTrace, .nextOp, .free, .out] ||| m = m) :
    OnlyM m s (State.acceptTileBs t a1 a2) := by
  refine OnlyM.ofStep h ?_ i; clear h i; unfold State.acceptTileBs
  repeat' first
    | with_reducible exact .refl _ _
    | extract_lets
    | intro _
    | (with_reducible apply State.accept_only; on_goal 2 => decide)
    | (with_reducible apply State.tileStart_only; on_goal 2 => decide)

theorem State.readSlot_only {m : Nat} {s t : State} {a1 a2 a3 a4} (h : OnlyM m s t) (i : mask [.rasSources, .rasQueue,
      .rasOvf, .catCounters, .catRings, .catTrace, .free] ||| m = m) :
    OnlyP m s (State.readSlot t a1 a2 a3 a4) := by
  refine OnlyP.ofStep h ?_ i; clear h i; unfold State.readSlot
  repeat' first
    | with_reducible exact .refl _ _
    | extract_lets l1 l2 l3
    | (with_reducible apply State.noteScratch_only; on_goal 2 => decide)
    | with_reducible apply OnlyP.fst
    | unfold l3
    | unfold l2
    | unfold l1
    | with_reducible apply OnlyP.mk'

theorem State.creditRing_only {m : Nat} {s t : State} {a1 a2 a3 a4} (h : OnlyM m s t) (i : mask [.cores] ||| m = m) :
    OnlyM m s (State.creditRing t a1 a2 a3 a4) := by
  refine OnlyM.ofStep h ?_ i; clear h i; unfold State.creditRing
  repeat' first
    | with_reducible exact .refl _ _
    | extract_lets
    | (with_reducible apply State.setCore_only; on_goal 2 => decide)

theorem State.loadChunk_only {m : Nat} {s t : State} {a1 a2} (h : OnlyM m s t) (i : mask [.cores, .rasSources, .rasQueue,
      .rasOvf, .catCounters, .catRings, .catTrace, .free] ||| m = m) :
    OnlyO m s (State.loadChunk t a1 a2) := by
  refine OnlyO.ofStep h ?_ i; clear h i; unfold State.loadChunk
  repeat' first
    | with_reducible exact OnlyO.none
    | with_reducible apply OnlyO.of
    | with_reducible apply OnlyO.ite
    | with_reducible exact .refl _ _
    | extract_lets
    | (with_reducible apply State.readSlot_only; on_goal 2 => decide)
    | (with_reducible apply State.creditRing_only; on_goal 2 => decide)
    | with_reducible apply OnlyP.fst
    | split
    | with_reducible apply OnlyP.mk'

theorem State.loadChunks_only {m : Nat} {s t : State} {a1 l} (h : OnlyM m s t) (i : mask [.cores, .rasSources, .rasQueue,
      .rasOvf, .catCounters, .catRings, .catTrace, .free] ||| m = m) :
    OnlyO m s (State.loadChunks t a1 l) := by
  refine OnlyO.ofStep h (?_ : OnlyO (mask [.cores, .rasSources, .rasQueue, .rasOvf, .catCounters, .catRings, .catTrace,
      .free]) t (State.loadChunks t a1 l)) i; clear h i
  suffices k : ∀ s, OnlyM (mask [.cores, .rasSources, .rasQueue, .rasOvf, .catCounters, .catRings, .catTrace,
      .free]) s t → OnlyO (mask [.cores, .rasSources, .rasQueue, .rasOvf, .catCounters, .catRings, .catTrace,
      .free]) s (State.loadChunks t a1 l) from k t (.refl _ _)
  induction l generalizing t with
  | nil => intro s h; unfold State.loadChunks; exact .of ⟨h⟩
  | cons a l ih =>
    intro s h; unfold State.loadChunks
    split
    · exact .none
    · rename_i r hr
      exact OnlyO.map (ih s ((State.loadChunk_only h (by decide)).some r hr)) (fun _ => rfl)

theorem State.noteWeights_only {m : Nat} {s t : State} {a1 a2} (h : OnlyM m s t) (i : mask [.tiersPanels, .tiersRepairs,
      .cores, .chans, .rasSources, .rasQueue, .rasOvf, .catCounters, .catRings, .catTrace, .free] ||| m = m) :
    OnlyP m s (State.noteWeights t a1 a2) := by
  refine OnlyP.ofStep h ?_ i; clear h i; unfold State.noteWeights
  repeat' first
    | with_reducible exact .refl _ _
    | extract_lets l1
    | intro _
    | with_reducible apply OnlyP.ite
    | (with_reducible apply State.noteScratch_only; on_goal 2 => decide)
    | (with_reducible apply State.readLines_only; on_goal 2 => decide)
    | (with_reducible apply State.missTraffic_only; on_goal 2 => decide)
    | with_reducible apply OnlyP.foldl
    | with_reducible apply OnlyP.fst
    | unfold l1
    | with_reducible apply OnlyP.mk'

theorem State.blockCheck_only {m : Nat} {s t : State} {a1 a2} (h : OnlyM m s t) (i : mask [.rasSources, .rasQueue, .rasOvf,
      .catRings, .catTrace, .free] ||| m = m) :
    OnlyM m s (State.blockCheck t a1 a2) := by
  refine OnlyM.ofStep h ?_ i; clear h i; unfold State.blockCheck
  repeat' first
    | with_reducible exact .refl _ _
    | extract_lets
    | (with_reducible apply State.incident_only; on_goal 2 => decide)
    | split

theorem State.countExpander_only {m : Nat} {s t : State} {a1 a2} (h : OnlyM m s t) (i : mask [.catCounters] ||| m = m) :
    OnlyM m s (State.countExpander t a1 a2) := by
  refine OnlyM.ofStep h ?_ i; clear h i; unfold State.countExpander
  repeat' first
    | with_reducible exact .refl _ _
    | extract_lets
    | (with_reducible apply State.count_only; on_goal 2 => decide)

theorem State.expanderDone_only {m : Nat} {s t : State} {a1 a2 a3} (h : OnlyM m s t) (i : mask [.tiersPanels,
      .tiersRepairs, .cores, .chans, .rasSources, .rasQueue, .rasOvf, .catCounters, .catRings, .catTrace, .free] ||| m = m) :
    OnlyP m s (State.expanderDone t a1 a2 a3) := by
  refine OnlyP.ofStep h ?_ i; clear h i; unfold State.expanderDone
  repeat' first
    | with_reducible exact .refl _ _
    | extract_lets l1
    | (with_reducible apply State.noteWeights_only; on_goal 2 => decide)
    | (with_reducible apply State.blockCheck_only; on_goal 2 => decide)
    | (with_reducible apply State.countExpander_only; on_goal 2 => decide)
    | with_reducible apply OnlyP.fst
    | unfold l1
    | with_reducible apply OnlyP.mk'

theorem State.retryTile_only {m : Nat} {s t : State} {a1 a2 a3} (h : OnlyM m s t) (i : mask [.hifRings, .hifInflight,
      .hifFences, .docGroups, .tiersRepairs, .catCounters, .catRings, .catStarted, .catTrace, .free, .out] ||| m = m) :
    OnlyM m s (State.retryTile t a1 a2 a3) := by
  refine OnlyM.ofStep h ?_ i; clear h i; unfold State.retryTile
  repeat' first
    | with_reducible exact .refl _ _
    | extract_lets
    | with_reducible apply OnlyM.ite
    | (with_reducible apply State.complete_only; on_goal 2 => decide)
    | fail_if_no_progress (with_reducible apply OnlyM.lit_tiersRepairs; on_goal 2 => decide)
    | fail_if_no_progress (with_reducible apply OnlyM.lit_docGroups; on_goal 2 => decide)
    | split

theorem State.unissue_only {m : Nat} {s t : State} {a1 a2} (h : OnlyM m s t) (i : mask [.cores, .annexQueue] ||| m = m) :
    OnlyM m s (State.unissue t a1 a2) := by
  refine OnlyM.ofStep h ?_ i; clear h i; unfold State.unissue
  repeat' first
    | with_reducible exact .refl _ _
    | extract_lets
    | intro _
    | (with_reducible apply State.tileLeave_only; on_goal 2 => decide)
    | (with_reducible apply State.setCore_only; on_goal 2 => decide)
    | with_reducible apply OnlyM.foldl
    | fail_if_no_progress (with_reducible apply OnlyM.lit_annexQueue; on_goal 2 => decide)

theorem State.tileBreak_only {m : Nat} {s t : State} {a1 a2} (h : OnlyM m s t) (i : mask [.hifRings, .hifInflight,
      .hifFences, .docGroups, .tiersRepairs, .cores, .annexQueue, .catCounters, .catRings, .catWaits, .catStarted,
      .catTrace, .free, .out] ||| m = m) :
    OnlyM m s (State.tileBreak t a1 a2) := by
  refine OnlyM.ofStep h ?_ i; clear h i; unfold State.tileBreak
  repeat' first
    | with_reducible exact .refl _ _
    | extract_lets
    | (with_reducible apply State.chargeTile_only; on_goal 2 => decide)
    | (with_reducible apply State.tileLeave_only; on_goal 2 => decide)
    | (with_reducible apply State.startTile_only; on_goal 2 => decide)
    | (with_reducible apply State.retryTile_only; on_goal 2 => decide)
    | (with_reducible apply State.unissue_only; on_goal 2 => decide)
    | (with_reducible apply State.setCore_only; on_goal 2 => decide)

theorem State.bsMasks_only {m : Nat} {s t : State} {a1 a2 a3} (h : OnlyM m s t) (i : mask [.mem, .chk, .bad, .curLost,
      .curLostCtx, .cores, .rasSources, .rasQueue, .rasOvf, .catCounters, .catRings, .catTrace, .free] ||| m = m) :
    OnlyP m s (State.bsMasks t a1 a2 a3) := by
  refine OnlyP.ofStep h ?_ i; clear h i; unfold State.bsMasks
  repeat' first
    | with_reducible exact .refl _ _
    | extract_lets l1
    | intro _
    | (with_reducible apply State.maskPass_only; on_goal 2 => decide)
    | (with_reducible apply State.draw_only; on_goal 2 => decide)
    | with_reducible apply OnlyP.foldl
    | with_reducible apply OnlyP.fst
    | unfold l1
    | with_reducible apply OnlyP.mk'

theorem State.endBs_only {m : Nat} {s t : State} {a1 a2} (h : OnlyM m s t) (i : mask [.mem, .chk, .bad, .hifRings,
      .hifInflight, .hifFences, .docGroups, .curLost, .curLostCtx, .tiersPanels, .tiersRepairs, .cores, .chans,
      .annexQueue, .rasSources, .rasQueue, .rasOvf, .catCounters, .catRings, .catWaits, .catStarted, .catTrace, .free,
      .out] ||| m = m) :
    OnlyM m s (State.endBs t a1 a2) := by
  refine OnlyM.ofStep h ?_ i; clear h i; unfold State.endBs
  repeat' first
    | with_reducible exact .refl _ _
    | extract_lets
    | with_reducible apply OnlyM.ite
    | (with_reducible apply State.expanderDone_only; on_goal 2 => decide)
    | (with_reducible apply State.tileBreak_only; on_goal 2 => decide)
    | (with_reducible apply State.tileEndAt_only; on_goal 2 => decide)
    | (with_reducible apply State.noteScratch_only; on_goal 2 => decide)
    | (with_reducible apply State.bsMasks_only; on_goal 2 => decide)
    | (with_reducible apply State.count_only; on_goal 2 => decide)
    | with_reducible apply OnlyP.fst
    | split

theorem State.tileMasks_only {m : Nat} {s t : State} {a1 a2 a3} (h : OnlyM m s t) (i : mask [.mem, .chk, .bad, .curLost,
      .curLostCtx, .cores, .rasSources, .rasQueue, .rasOvf, .catCounters, .catRings, .catTrace, .free] ||| m = m) :
    OnlyP m s (State.tileMasks t a1 a2 a3) := by
  refine OnlyP.ofStep h ?_ i; clear h i; unfold State.tileMasks
  repeat' first
    | with_reducible exact .refl _ _
    | extract_lets l1 l2 l3
    | intro _
    | with_reducible apply OnlyP.ite
    | (with_reducible apply State.maskPass_only; on_goal 2 => decide)
    | (with_reducible apply State.draw_only; on_goal 2 => decide)
    | with_reducible apply OnlyP.foldl
    | with_reducible apply OnlyP.fst
    | unfold l3
    | unfold l2
    | unfold l1
    | with_reducible apply OnlyP.mk'

theorem State.issueWaits_only {m : Nat} {s t : State} {a1} (h : OnlyM m s t) (i : mask [.catCounters, .catRings, .catWaits,
      .catTrace, .free] ||| m = m) :
    OnlyM m s (State.issueWaits t a1) := by
  refine OnlyM.ofStep h ?_ i; clear h i; unfold State.issueWaits
  repeat' first
    | with_reducible exact .refl _ _
    | extract_lets
    | (with_reducible apply State.waitEnd_only; on_goal 2 => decide)

theorem State.noteBase_only {m : Nat} {s t : State} {a1} (h : OnlyM m s t) (i : mask [.outBases] ||| m = m) :
    OnlyM m s (State.noteBase t a1) := by
  refine OnlyM.ofStep h ?_ i; clear h i; unfold State.noteBase
  repeat' first
    | with_reducible exact .refl _ _
    | extract_lets
    | with_reducible apply OnlyM.ite
    | fail_if_no_progress (with_reducible apply OnlyM.lit_outBases; on_goal 2 => decide)

theorem State.loadCodebooks_only {m : Nat} {s t : State} {o} (h : OnlyM m s t) (i : mask [.tiersPanels, .tiersRepairs,
      .cores, .chans, .rasSources, .rasQueue, .rasOvf, .catCounters, .catRings, .catTrace, .free] ||| m = m) :
    OnlyP m s (State.loadCodebooks t o) := by
  refine OnlyP.ofStep h ?_ i; clear h i; unfold State.loadCodebooks
  split
  · exact ⟨.refl _ _⟩
  · extract_lets base refs table fresh a shut s0 dbl n k regs
    have h0 : OnlyM (mask [.tiersPanels, .tiersRepairs, .cores, .chans, .rasSources, .rasQueue, .rasOvf, .catCounters,
      .catRings, .catTrace, .free]) t s0 := OnlyM.ite (State.readLines_only (.refl _ _) (by decide)) (.refl _ _)
    clear_value s0
    have hn : OnlyP (mask [.tiersPanels, .tiersRepairs, .cores, .chans, .rasSources, .rasQueue, .rasOvf, .catCounters,
      .catRings, .catTrace, .free]) t n := State.noteWeights_only h0 (by decide)
    clear_value n
    exact ⟨State.count_only (State.setCore_only hn.fst (by decide)) (by decide)⟩

theorem State.noteLists_only {m : Nat} {s t : State} {a1} (h : OnlyM m s t) (i : mask [.rasSources, .rasQueue, .rasOvf,
      .catCounters, .catRings, .catTrace, .free] ||| m = m) :
    OnlyP m s (State.noteLists t a1) := by
  refine OnlyP.ofStep h ?_ i; clear h i; unfold State.noteLists
  repeat' first
    | with_reducible exact .refl _ _
    | extract_lets l1 l2
    | with_reducible apply OnlyP.ite
    | (with_reducible apply State.noteScratch_only; on_goal 2 => decide)
    | with_reducible apply OnlyP.fst
    | unfold l2
    | unfold l1
    | with_reducible apply OnlyP.mk'

theorem State.issueTile_only {m : Nat} {s t : State} {a1} (h : OnlyM m s t) (i : mask [.hifRings, .hifInflight, .hifFences,
      .docGroups, .tiersPanels, .tiersRepairs, .cores, .chans, .outBases, .annexQueue, .rasSources, .rasQueue, .rasOvf,
      .catCounters, .catRings, .catWaits, .catStarted, .catTrace, .free, .out] ||| m = m) :
    OnlyM m s (State.issueTile t a1) := by
  refine OnlyM.ofStep h ?_ i; clear h i; unfold State.issueTile
  repeat' first
    | with_reducible exact .refl _ _
    | extract_lets
    | intro _
    | with_reducible apply OnlyM.ite
    | (with_reducible apply State.opEvent_only; on_goal 2 => decide)
    | (with_reducible apply State.issueWaits_only; on_goal 2 => decide)
    | (with_reducible apply State.setCore_only; on_goal 2 => decide)
    | (with_reducible apply State.complete_only; on_goal 2 => decide)
    | (with_reducible apply State.incident_only; on_goal 2 => decide)
    | (with_reducible apply State.useHandle_only; on_goal 2 => decide)
    | (with_reducible apply State.noteBase_only; on_goal 2 => decide)
    | (with_reducible apply State.loadCodebooks_only; on_goal 2 => decide)
    | (with_reducible apply State.noteLists_only; on_goal 2 => decide)
    | (with_reducible apply State.startTile_only; on_goal 2 => decide)
    | with_reducible apply OnlyM.foldl
    | with_reducible apply OnlyP.fst
    | fail_if_no_progress (with_reducible apply OnlyM.lit_annexQueue; on_goal 2 => decide)

theorem State.endDense_only {m : Nat} {s t : State} {a1 a2} (h : OnlyM m s t) (i : mask [.mem, .chk, .bad, .hifRings,
      .hifInflight, .hifFences, .docGroups, .curLost, .curLostCtx, .tiersPanels, .tiersRepairs, .cores, .chans,
      .annexQueue, .rasSources, .rasQueue, .rasOvf, .catCounters, .catRings, .catWaits, .catStarted, .catTrace, .free,
      .out] ||| m = m) :
    OnlyM m s (State.endDense t a1 a2) := by
  refine OnlyM.ofStep h ?_ i; clear h i; unfold State.endDense
  repeat' first
    | with_reducible exact .refl _ _
    | extract_lets
    | (with_reducible apply State.expanderDone_only; on_goal 2 => decide)
    | (with_reducible apply State.tileBreak_only; on_goal 2 => decide)
    | (with_reducible apply State.tileMasks_only; on_goal 2 => decide)
    | (with_reducible apply State.tileEndAt_only; on_goal 2 => decide)
    | with_reducible apply OnlyP.fst
    | split

theorem State.nextLoad_only {m : Nat} {s t : State} {a1} (h : OnlyM m s t) (i : mask [.cores, .rasSources, .rasQueue,
      .rasOvf, .catCounters, .catRings, .catTrace, .free] ||| m = m) :
    OnlyO m s (State.nextLoad t a1) := by
  refine OnlyO.ofStep h ?_ i; clear h i; unfold State.nextLoad
  repeat' first
    | with_reducible exact OnlyO.none
    | with_reducible apply OnlyO.of
    | with_reducible apply OnlyO.ite
    | with_reducible exact .refl _ _
    | extract_lets
    | (with_reducible apply State.loadChunks_only; on_goal 2 => decide)
    | (with_reducible apply State.readSlot_only; on_goal 2 => decide)
    | with_reducible refine OnlyM.ofSomePair (by assumption) ?_
    | with_reducible apply OnlyP.fst
    | split
    | with_reducible apply OnlyP.mk'

theorem State.issueDma_only {m : Nat} {s t : State} {a1 a2} (h : OnlyM m s t) (i : mask [.hifRings, .hifInflight,
      .hifFences, .dmaOps, .dmaStops, .docGroups, .tiersObjs, .tiersPanels, .tiersMaps, .tiersMigs, .tiersT0used,
      .tiersRepairs, .tiersWriteQ, .tiersObjRun, .tiersObjWait, .cores, .catCounters, .catRings, .catWaits, .catStarted,
      .catTrace, .free, .out] ||| m = m) :
    OnlyM m s (State.issueDma t a1 a2) := by
  refine OnlyM.ofStep h ?_ i; clear h i; unfold State.issueDma
  repeat' first
    | with_reducible exact .refl _ _
    | extract_lets
    | (with_reducible apply State.dmaIssue_only; on_goal 2 => decide)
    | (with_reducible apply State.opEvent_only; on_goal 2 => decide)
    | (with_reducible apply State.waitEnd_only; on_goal 2 => decide)
    | (with_reducible apply State.setCore_only; on_goal 2 => decide)

theorem State.setRprData_only {m : Nat} {s t : State} {a1 a2 a3} (h : OnlyM m s t) (i : mask [.regs] ||| m = m) :
    OnlyM m s (State.setRprData t a1 a2 a3) := by
  refine OnlyM.ofStep h ?_ i; clear h i; unfold State.setRprData
  repeat' first
    | with_reducible exact .refl _ _
    | extract_lets
    | intro _
    | (with_reducible apply State.setField_only; on_goal 2 => decide)
    | with_reducible apply OnlyM.foldl

theorem State.moveBursts_only {m : Nat} {s t : State} {a1 a2 a3} (h : OnlyM m s t) (i : mask [.mem, .chk, .tiersPanels,
      .tiersRepairs, .rasSources, .rasQueue, .rasOvf, .catCounters, .catRings, .catTrace, .free] ||| m = m) :
    OnlyP m s (State.moveBursts t a1 a2 a3) := by
  refine OnlyP.ofStep h ?_ i; clear h i; unfold State.moveBursts
  refine OnlyP.mk' (OnlyM.foldl (.refl _ _) fun u x => ?_)
  dsimp only
  split
  · exact OnlyM.lit_chk (.refl _ _) (by decide)
  · exact State.incident_only (State.count_only (OnlyM.lit_chk (.refl _ _) (by decide)) (by decide)) (by decide)
  · exact OnlyM.lit_mem_chk (.refl _ _) (by decide) fun q => mergeBurst_wf q
  · exact OnlyM.lit_mem_chk (State.noteBurst_only (.refl _ _) (by decide)) (by decide) fun q => mergeBurst_wf q

theorem State.addRepair_only {m : Nat} {s t : State} {a1} (h : OnlyM m s t) (i : mask [.ctlRepDirty, .plinths] ||| m = m) :
    OnlyM m s (State.addRepair t a1) := by
  refine OnlyM.ofStep h ?_ i; clear h i; unfold State.addRepair
  repeat' first
    | with_reducible exact .refl _ _
    | extract_lets
    | (with_reducible apply State.setPlinth_only; on_goal 2 => decide)
    | fail_if_no_progress (with_reducible apply OnlyM.lit_ctlRepDirty; on_goal 2 => decide)

theorem State.rowSpare_only {m : Nat} {s t : State} {a1 a2 a3} (h : OnlyM m s t) (i : mask [.mem, .chk, .ctlRepDirty,
      .tiersPanels, .tiersRepairs, .plinths, .rasSources, .rasQueue, .rasOvf, .catCounters, .catRings, .catTrace,
      .free] ||| m = m) :
    OnlyP m s (State.rowSpare t a1 a2 a3) := by
  refine OnlyP.ofStep h ?_ i; clear h i; unfold State.rowSpare
  repeat' first
    | with_reducible exact .refl _ _
    | extract_lets l1
    | (with_reducible apply State.pick_only; on_goal 2 => decide)
    | (with_reducible apply State.moveBursts_only; on_goal 2 => decide)
    | (with_reducible apply State.addRepair_only; on_goal 2 => decide)
    | with_reducible refine OnlyM.ofPair (by assumption) ?_
    | with_reducible apply OnlyP.fst
    | split
    | unfold l1
    | with_reducible apply OnlyP.mk'

theorem State.colSpare_only {m : Nat} {s t : State} {a1 a2 a3} (h : OnlyM m s t) (i : mask [.mem, .chk, .ctlRepDirty,
      .tiersPanels, .tiersRepairs, .plinths, .rasSources, .rasQueue, .rasOvf, .catCounters, .catRings, .catTrace,
      .free] ||| m = m) :
    OnlyP m s (State.colSpare t a1 a2 a3) := by
  refine OnlyP.ofStep h ?_ i; clear h i; unfold State.colSpare
  repeat' first
    | with_reducible exact .refl _ _
    | extract_lets l1
    | (with_reducible apply State.pick_only; on_goal 2 => decide)
    | (with_reducible apply State.moveBursts_only; on_goal 2 => decide)
    | (with_reducible apply State.addRepair_only; on_goal 2 => decide)
    | with_reducible refine OnlyM.ofPair (by assumption) ?_
    | with_reducible apply OnlyP.fst
    | split
    | unfold l1
    | with_reducible apply OnlyP.mk'

theorem State.chSpare_only {m : Nat} {s t : State} {a1 a2} (h : OnlyM m s t) (i : mask [.ctlRepDirty, .plinths,
      .free] ||| m = m) :
    OnlyP m s (State.chSpare t a1 a2) := by
  refine OnlyP.ofStep h ?_ i; clear h i; unfold State.chSpare
  repeat' first
    | with_reducible exact .refl _ _
    | extract_lets l1
    | with_reducible apply OnlyP.ite
    | (with_reducible apply State.pick_only; on_goal 2 => decide)
    | (with_reducible apply State.addRepair_only; on_goal 2 => decide)
    | (with_reducible apply State.setPlinth_only; on_goal 2 => decide)
    | with_reducible refine OnlyM.ofPair (by assumption) ?_
    | split
    | unfold l1
    | with_reducible apply OnlyP.mk'

theorem State.repairAction_only {m : Nat} {s t : State} {a1 a2 a3} (h : OnlyM m s t) (i : mask [.regs, .mem, .chk,
      .ctlRepDirty, .tiersPanels, .tiersRepairs, .cores, .plinths, .rasSources, .rasQueue, .rasOvf, .catCounters,
      .catRings, .catTrace, .free] ||| m = m) :
    OnlyP m s (State.repairAction t a1 a2 a3) := by
  refine OnlyP.ofStep h ?_ i; clear h i; unfold State.repairAction
  repeat' first
    | with_reducible exact .refl _ _
    | extract_lets l1 l2 _ l4
    | with_reducible apply OnlyP.ite
    | (with_reducible apply State.setRprData_only; on_goal 2 => decide)
    | (with_reducible apply State.burstRaw_only; on_goal 2 => decide)
    | (with_reducible apply State.dropLines_only; on_goal 2 => decide)
    | (with_reducible apply State.rowSpare_only; on_goal 2 => decide)
    | (with_reducible apply State.colSpare_only; on_goal 2 => decide)
    | (with_reducible apply State.chSpare_only; on_goal 2 => decide)
    | split
    | unfold l4
    | unfold l2
    | unfold l1
    | with_reducible apply OnlyP.mk'

theorem State.repairCommand_only {m : Nat} {s t : State} {a1 a2 a3 a4} (h : OnlyM m s t) (i : mask [.regs, .mem, .chk,
      .ctlWerr, .ctlRepDirty, .tiersPanels, .tiersRepairs, .cores, .plinths, .rasSources, .rasQueue, .rasOvf, .catCounters,
      .catRings, .catTrace, .free] ||| m = m) :
    OnlyM m s (State.repairCommand t a1 a2 a3 a4) := by
  refine OnlyM.ofStep h ?_ i; clear h i; unfold State.repairCommand
  repeat' first
    | with_reducible exact .refl _ _
    | extract_lets
    | with_reducible apply OnlyM.ite
    | (with_reducible apply State.refuseWrite_only; on_goal 2 => decide)
    | (with_reducible apply State.repairAction_only; on_goal 2 => decide)
    | (with_reducible apply State.setPlinth_only; on_goal 2 => decide)
    | with_reducible apply OnlyP.fst

theorem State.switchCore_only {m : Nat} {s t : State} {a1 a2} (h : OnlyM m s t) (i : mask [.mem, .bad, .ctlRepDirty,
      .cores, .plinths, .rasSources, .rasQueue, .rasOvf, .catCounters, .catRings, .catTrace, .free] ||| m = m) :
    OnlyM m s (State.switchCore t a1 a2) := by
  refine OnlyM.ofStep h ?_ i; clear h i; unfold State.switchCore
  repeat' first
    | with_reducible exact .refl _ _
    | extract_lets
    | (with_reducible apply State.noteScratch_only; on_goal 2 => decide)
    | (with_reducible apply State.sramWrite_only; on_goal 2 => decide)
    | (with_reducible apply State.setCore_only; on_goal 2 => decide)
    | (with_reducible apply State.setPlinth_only; on_goal 2 => decide)
    | (with_reducible apply State.incident_only; on_goal 2 => decide)
    | (with_reducible apply State.addRepair_only; on_goal 2 => decide)
    | with_reducible apply OnlyP.fst

theorem State.askReference_only {m : Nat} {s t : State} {a1 a2} (h : OnlyM m s t) (i : mask [.dmaOps, .dmaStops,
      .dmaNextOpid, .dmaLastRd, .dmaLastWr, .dmaRdEng, .dmaWrEng, .docGroups, .fabPorts, .catCounters, .catRings,
      .catTrace, .free, .out] ||| m = m) :
    OnlyM m s (State.askReference t a1 a2) := by
  refine OnlyM.ofStep h ?_ i; clear h i; unfold State.askReference
  repeat' first
    | with_reducible exact .refl _ _
    | extract_lets
    | intro _
    | with_reducible apply OnlyM.ite
    | (with_reducible apply State.peerRead_only; on_goal 2 => decide)
    | (with_reducible apply State.hostRead_only; on_goal 2 => decide)
    | with_reducible apply OnlyM.foldl
    | split

theorem State.updRepair_only {m : Nat} {s t : State} {a1 a2 a3} (h : OnlyM m s t) (i : mask [.tiersRepairs] ||| m = m) :
    OnlyM m s (State.updRepair t a1 a2 a3) := by
  refine OnlyM.ofStep h ?_ i; clear h i; unfold State.updRepair
  repeat' first
    | with_reducible exact .refl _ _
    | extract_lets
    | fail_if_no_progress (with_reducible apply OnlyM.lit_tiersRepairs; on_goal 2 => decide)

theorem State.spareRow_only {m : Nat} {s t : State} {a1 a2 a3 a4} (h : OnlyM m s t) (i : mask [.mem, .chk, .ctlRepDirty,
      .tiersPanels, .tiersRepairs, .cores, .plinths, .rasSources, .rasQueue, .rasOvf, .catCounters, .catRings, .catTrace,
      .free] ||| m = m) :
    OnlyP m s (State.spareRow t a1 a2 a3 a4) := by
  refine OnlyP.ofStep h ?_ i; clear h i; unfold State.spareRow
  repeat' first
    | with_reducible exact .refl _ _
    | extract_lets l1 l2 l3 l4 l5 l6 l7 l8
    | intro _
    | with_reducible apply OnlyP.ite
    | (with_reducible apply State.writeChan_only; on_goal 2 => decide)
    | (with_reducible apply State.setPlinth_only; on_goal 2 => decide)
    | (with_reducible apply State.rowSpare_only; on_goal 2 => decide)
    | (with_reducible apply State.updRepair_only; on_goal 2 => decide)
    | (with_reducible apply State.colSpare_only; on_goal 2 => decide)
    | with_reducible apply OnlyP.foldl
    | with_reducible apply OnlyP.fst
    | split
    | unfold l8
    | unfold l7
    | unfold l6
    | unfold l5
    | unfold l4
    | unfold l3
    | unfold l2
    | unfold l1
    | with_reducible apply OnlyP.mk'

theorem State.spareRows_only {m : Nat} {s t : State} {a1 a2 a3 a4 l} (h : OnlyM m s t) (i : mask [.mem, .chk, .ctlRepDirty,
      .tiersPanels, .tiersRepairs, .cores, .plinths, .rasSources, .rasQueue, .rasOvf, .catCounters, .catRings, .catTrace,
      .free] ||| m = m) :
    OnlyP m s (State.spareRows t a1 a2 a3 a4 l) := by
  refine OnlyP.ofStep h (?_ : OnlyP (mask [.mem, .chk, .ctlRepDirty, .tiersPanels, .tiersRepairs, .cores, .plinths,
      .rasSources, .rasQueue, .rasOvf, .catCounters, .catRings, .catTrace,
      .free]) t (State.spareRows t a1 a2 a3 a4 l)) i; clear h i
  suffices k : ∀ s, OnlyM (mask [.mem, .chk, .ctlRepDirty, .tiersPanels, .tiersRepairs, .cores, .plinths, .rasSources,
      .rasQueue, .rasOvf, .catCounters, .catRings, .catTrace, .free]) s t → OnlyP (mask [.mem, .chk, .ctlRepDirty,
      .tiersPanels, .tiersRepairs, .cores, .plinths, .rasSources, .rasQueue, .rasOvf, .catCounters, .catRings, .catTrace,
      .free]) s (State.spareRows t a1 a2 a3 a4 l) from k t (.refl _ _)
  induction l generalizing t with
  | nil => intro s h; unfold State.spareRows; exact ⟨h⟩
  | cons a l ih =>
    intro s h; unfold State.spareRows
    repeat' first
    | with_reducible apply ih
    | with_reducible assumption
    | extract_lets
    | (with_reducible apply State.spareRow_only; on_goal 2 => decide)
    | with_reducible refine OnlyM.ofPair (by assumption) ?_
    | split
    | with_reducible apply OnlyP.mk'

theorem State.dropCodebooks_only {m : Nat} {s t : State} {a1 a2 a3} (h : OnlyM m s t) (i : mask [.cores] ||| m = m) :
    OnlyM m s (State.dropCodebooks t a1 a2 a3) := by
  refine OnlyM.ofStep h ?_ i; clear h i; unfold State.dropCodebooks
  repeat' first
    | with_reducible exact .refl _ _
    | extract_lets
    | (with_reducible apply State.setCore_only; on_goal 2 => decide)

theorem State.dropPanelBooks_only {m : Nat} {s t : State} {a1 a2} (h : OnlyM m s t) (i : mask [.cores] ||| m = m) :
    OnlyM m s (State.dropPanelBooks t a1 a2) := by
  refine OnlyM.ofStep h ?_ i; clear h i; unfold State.dropPanelBooks
  repeat' first
    | with_reducible exact .refl _ _
    | (with_reducible apply State.dropCodebooks_only; on_goal 2 => decide)
    | split

theorem State.nextRepair_only {m : Nat} {s t : State} (h : OnlyM m s t) (i : mask [.tiersRepairs] ||| m = m) :
    OnlyM m s (State.nextRepair t) := by
  refine OnlyM.ofStep h ?_ i; clear h i; unfold State.nextRepair
  repeat' first
    | with_reducible exact .refl _ _
    | extract_lets
    | with_reducible apply OnlyM.ite
    | (with_reducible apply State.updRepair_only; on_goal 2 => decide)
    | split

theorem State.reissue_only {m : Nat} {s t : State} {a1} (h : OnlyM m s t) (i : mask [.cores, .catCounters] ||| m = m) :
    OnlyM m s (State.reissue t a1) := by
  refine OnlyM.ofStep h ?_ i; clear h i; unfold State.reissue
  repeat' first
    | with_reducible exact .refl _ _
    | extract_lets
    | intro _
    | (with_reducible apply State.setCore_only; on_goal 2 => decide)
    | (with_reducible apply State.count_only; on_goal 2 => decide)
    | with_reducible apply OnlyM.foldr

theorem State.repairDone_only {m : Nat} {s t : State} {a1 a2} (h : OnlyM m s t) (i : mask [.hifRings, .hifInflight,
      .hifFences, .docGroups, .tiersObjs, .tiersPanels, .tiersMaps, .tiersMigs, .tiersT0used, .tiersRepairs, .tiersObjRun,
      .tiersObjWait, .cores, .rasSources, .rasQueue, .rasOvf, .catCounters, .catRings, .catStarted, .catTrace, .free,
      .out] ||| m = m) :
    OnlyM m s (State.repairDone t a1 a2) := by
  refine OnlyM.ofStep h ?_ i; clear h i; unfold State.repairDone
  repeat' first
    | with_reducible exact .refl _ _
    | extract_lets
    | (with_reducible apply State.dropPanelBooks_only; on_goal 2 => decide)
    | (with_reducible apply State.setPanel_only; on_goal 2 => decide)
    | (with_reducible apply State.settleObjects_only; on_goal 2 => decide)
    | (with_reducible apply State.nextRepair_only; on_goal 2 => decide)
    | (with_reducible apply State.incident_only; on_goal 2 => decide)
    | (with_reducible apply State.reissue_only; on_goal 2 => decide)
    | fail_if_no_progress (with_reducible apply OnlyM.lit_tiersRepairs; on_goal 2 => decide)

theorem State.failChains_only {m : Nat} {s t : State} {a1} (h : OnlyM m s t) (i : mask [.hifRings, .hifInflight,
      .hifFences, .docGroups, .catCounters, .catRings, .catStarted, .catTrace, .free, .out] ||| m = m) :
    OnlyM m s (State.failChains t a1) := by
  refine OnlyM.ofStep h ?_ i; clear h i; unfold State.failChains
  repeat' first
    | with_reducible exact .refl _ _
    | extract_lets
    | intro _
    | with_reducible apply OnlyM.ite
    | (with_reducible apply State.complete_only; on_goal 2 => decide)
    | with_reducible apply OnlyM.foldl
    | split

theorem State.repairFails_only {m : Nat} {s t : State} {a1 a2} (h : OnlyM m s t) (i : mask [.hifRings, .hifInflight,
      .hifFences, .docGroups, .tiersObjs, .tiersPanels, .tiersMaps, .tiersMigs, .tiersT0used, .tiersRepairs, .tiersObjRun,
      .tiersObjWait, .cores, .rasSources, .rasQueue, .rasOvf, .catCounters, .catRings, .catStarted, .catTrace, .free,
      .out] ||| m = m) :
    OnlyM m s (State.repairFails t a1 a2) := by
  refine OnlyM.ofStep h ?_ i; clear h i; unfold State.repairFails
  repeat' first
    | with_reducible exact .refl _ _
    | extract_lets
    | with_reducible apply OnlyM.ite
    | (with_reducible apply State.dropPanelBooks_only; on_goal 2 => decide)
    | (with_reducible apply State.setPanel_only; on_goal 2 => decide)
    | (with_reducible apply State.updRepair_only; on_goal 2 => decide)
    | (with_reducible apply State.settleObjects_only; on_goal 2 => decide)
    | (with_reducible apply State.nextRepair_only; on_goal 2 => decide)
    | (with_reducible apply State.failChains_only; on_goal 2 => decide)
    | (with_reducible apply State.incident_only; on_goal 2 => decide)

theorem State.readback_only {m : Nat} {s t : State} {a1} (h : OnlyM m s t) (i : mask [.mem, .chk, .ctlRepDirty, .hifRings,
      .hifInflight, .hifFences, .docGroups, .tiersObjs, .tiersPanels, .tiersMaps, .tiersMigs, .tiersT0used, .tiersRepairs,
      .tiersObjRun, .tiersObjWait, .cores, .plinths, .rasSources, .rasQueue, .rasOvf, .catCounters, .catRings, .catStarted,
      .catTrace, .free, .out] ||| m = m) :
    OnlyM m s (State.readback t a1) := by
  refine OnlyM.ofStep h ?_ i; clear h i; unfold State.readback
  repeat' first
    | with_reducible exact .refl _ _
    | extract_lets
    | with_reducible apply OnlyM.ite
    | (with_reducible apply State.repairDone_only; on_goal 2 => decide)
    | (with_reducible apply State.noteHall_only; on_goal 2 => decide)
    | (with_reducible apply State.setPanel_only; on_goal 2 => decide)
    | (with_reducible apply State.leaveTier_only; on_goal 2 => decide)
    | (with_reducible apply State.noteChan_only; on_goal 2 => decide)
    | (with_reducible apply State.spareRows_only; on_goal 2 => decide)
    | (with_reducible apply State.pick_only; on_goal 2 => decide)
    | (with_reducible apply State.repairFails_only; on_goal 2 => decide)
    | with_reducible refine OnlyM.ofPair (by assumption) ?_
    | with_reducible apply OnlyP.fst
    | split

theorem State.switchChan_only {m : Nat} {s t : State} {a1 a2} (h : OnlyM m s t) (i : mask [.cores, .plinths, .rasSources,
      .rasQueue, .rasOvf, .catRings, .catTrace, .free] ||| m = m) :
    OnlyM m s (State.switchChan t a1 a2) := by
  refine OnlyM.ofStep h ?_ i; clear h i; unfold State.switchChan
  repeat' first
    | with_reducible exact .refl _ _
    | extract_lets
    | (with_reducible apply State.setCore_only; on_goal 2 => decide)
    | (with_reducible apply State.incident_only; on_goal 2 => decide)
    | (with_reducible apply State.setPlinth_only; on_goal 2 => decide)

theorem State.referenceRetry_only {m : Nat} {s t : State} {a1 a2 a3} (h : OnlyM m s t) (i : mask [.hifRings, .hifInflight,
      .hifFences, .dmaOps, .dmaStops, .dmaNextOpid, .dmaLastRd, .dmaLastWr, .dmaRdEng, .dmaWrEng, .docGroups, .tiersObjs,
      .tiersPanels, .tiersMaps, .tiersMigs, .tiersT0used, .tiersRepairs, .tiersObjRun, .tiersObjWait, .cores, .fabPorts,
      .rasSources, .rasQueue, .rasOvf, .catCounters, .catRings, .catStarted, .catTrace, .free, .out] ||| m = m) :
    OnlyM m s (State.referenceRetry t a1 a2 a3) := by
  refine OnlyM.ofStep h ?_ i; clear h i; unfold State.referenceRetry
  repeat' first
    | with_reducible exact .refl _ _
    | extract_lets
    | with_reducible apply OnlyM.ite
    | (with_reducible apply State.askReference_only; on_goal 2 => decide)
    | (with_reducible apply State.updRepair_only; on_goal 2 => decide)
    | (with_reducible apply State.repairFails_only; on_goal 2 => decide)
    | split

theorem State.beginSwitches_only {m : Nat} {s t : State} (h : OnlyM m s t) (i : mask [.cores, .plinths] ||| m = m) :
    OnlyM m s (State.beginSwitches t) := by
  refine OnlyM.ofStep h ?_ i; clear h i; unfold State.beginSwitches
  repeat' first
    | with_reducible exact .refl _ _
    | extract_lets
    | intro _
    | with_reducible apply OnlyM.ite
    | (with_reducible apply State.setCore_only; on_goal 2 => decide)
    | (with_reducible apply State.setPlinth_only; on_goal 2 => decide)
    | with_reducible apply OnlyM.foldl

theorem State.copyChan_only {m : Nat} {s t : State} {a1 a2 a3} (h : OnlyM m s t) (i : mask [.mem, .chk, .tiersPanels,
      .tiersRepairs, .rasSources, .rasQueue, .rasOvf, .catCounters, .catRings, .catTrace, .free] ||| m = m) :
    OnlyM m s (State.copyChan t a1 a2 a3) := by
  refine OnlyM.ofStep h ?_ i; clear h i; unfold State.copyChan
  repeat' first
    | with_reducible exact .refl _ _
    | extract_lets _ _ l3
    | intro _
    | with_reducible apply OnlyM.ite
    | (with_reducible apply State.chanWrite_only; on_goal 2 => decide)
    | (with_reducible apply State.incident_only; on_goal 2 => decide)
    | (with_reducible apply State.count_only; on_goal 2 => decide)
    | (with_reducible apply State.noteBurst_only; on_goal 2 => decide)
    | with_reducible apply OnlyM.foldl
    | with_reducible apply OnlyP.fst
    | fail_if_no_progress (with_reducible apply OnlyM.lit_chk; on_goal 2 => decide)
    | split
    | unfold l3

theorem State.annexIdle_only {m : Nat} {s t : State} (h : OnlyM m s t) (i : mask [.annexRunning] ||| m = m) :
    OnlyM m s (State.annexIdle t) := by
  refine OnlyM.ofStep h ?_ i; clear h i; unfold State.annexIdle
  repeat' first
    | with_reducible exact .refl _ _
    | extract_lets
    | fail_if_no_progress (with_reducible apply OnlyM.lit_annexRunning; on_goal 2 => decide)

theorem State.setAnnexBank_only {m : Nat} {s t : State} {a1 a2} (h : OnlyM m s t) (i : mask [.annexQueue, .annexRunning,
      .annexBank0, .annexBank1, .annexFail] ||| m = m) :
    OnlyM m s (State.setAnnexBank t a1 a2) := by
  refine OnlyM.ofStep h ?_ i; clear h i; unfold State.setAnnexBank
  repeat' first
    | with_reducible exact .refl _ _
    | fail_if_no_progress (with_reducible apply OnlyM.lit_annexAll; on_goal 2 => decide)

theorem State.annexPlanes_only {m : Nat} {s t : State} {a1 a2 a3} (h : OnlyM m s t) (i : mask [.mem, .chk, .bad, .curLost,
      .curLostCtx, .cores, .rasSources, .rasQueue, .rasOvf, .catCounters, .catRings, .catTrace, .free] ||| m = m) :
    OnlyP m s (State.annexPlanes t a1 a2 a3) := by
  refine OnlyP.ofStep h ?_ i; clear h i; unfold State.annexPlanes
  repeat' first
    | with_reducible exact .refl _ _
    | extract_lets l1 l2
    | (with_reducible apply State.tileMasks_only; on_goal 2 => decide)
    | with_reducible apply OnlyP.fst
    | split
    | unfold l2
    | unfold l1
    | with_reducible apply OnlyP.mk'

theorem State.endAnnex_only {m : Nat} {s t : State} {a1 a2} (h : OnlyM m s t) (i : mask [.mem, .chk, .bad, .hifRings,
      .hifInflight, .hifFences, .docGroups, .curLost, .curLostCtx, .tiersPanels, .tiersRepairs, .cores, .chans, .fins,
      .annexQueue, .annexRunning, .annexBank0, .annexBank1, .annexFail, .rasSources, .rasQueue, .rasOvf, .catCounters,
      .catRings, .catStarted, .catTrace, .free, .out] ||| m = m) :
    OnlyM m s (State.endAnnex t a1 a2) := by
  refine OnlyM.ofStep h ?_ i; clear h i; unfold State.endAnnex
  repeat' first
    | with_reducible exact .refl _ _
    | extract_lets
    | with_reducible apply OnlyM.ite
    | (with_reducible apply State.expanderDone_only; on_goal 2 => decide)
    | (with_reducible apply State.count_only; on_goal 2 => decide)
    | (with_reducible apply State.chargeTile_only; on_goal 2 => decide)
    | (with_reducible apply State.annexIdle_only; on_goal 2 => decide)
    | (with_reducible apply State.tileLeave_only; on_goal 2 => decide)
    | (with_reducible apply State.retryTile_only; on_goal 2 => decide)
    | (with_reducible apply State.unissue_only; on_goal 2 => decide)
    | (with_reducible apply State.setAnnexBank_only; on_goal 2 => decide)
    | (with_reducible apply State.annexPlanes_only; on_goal 2 => decide)
    | (with_reducible apply State.complete_only; on_goal 2 => decide)
    | (with_reducible apply State.finish_only; on_goal 2 => decide)
    | with_reducible apply OnlyP.fst
    | split

theorem State.beginWaits_only {m : Nat} {s t : State} {a1 a2} (h : OnlyM m s t) (i : mask [.catRings, .catWaits, .catTrace,
      .free] ||| m = m) :
    OnlyM m s (State.beginWaits t a1 a2) := by
  refine OnlyM.ofStep h ?_ i; clear h i; unfold State.beginWaits
  repeat' first
    | with_reducible exact .refl _ _
    | extract_lets
    | intro _
    | with_reducible apply OnlyM.ite
    | (with_reducible apply State.waitBegin_only; on_goal 2 => decide)
    | with_reducible apply OnlyM.foldl
    | split

theorem State.writeRows_only {m : Nat} {s t : State} {a1 a2 a3} (h : OnlyM m s t) (i : mask [.mem, .bad, .rasSources,
      .rasQueue, .rasOvf, .catRings, .catTrace, .free] ||| m = m) :
    OnlyP m s (State.writeRows t a1 a2 a3) := by
  refine OnlyP.ofStep h ?_ i; clear h i; unfold State.writeRows
  repeat' first
    | with_reducible exact .refl _ _
    | (with_reducible apply State.putRuns_only; on_goal 2 => decide)

theorem State.attnStart_only {m : Nat} {s t : State} {a0 a2} (h : OnlyM m s t) (i : mask [.cores] ||| m = m) :
    OnlyM m s (State.attnStart a0 t a2) := by
  refine OnlyM.ofStep h ?_ i; clear h i; unfold State.attnStart
  repeat' first
    | with_reducible exact .refl _ _
    | extract_lets
    | (with_reducible apply State.setCore_only; on_goal 2 => decide)

theorem State.acceptAttn_only {m : Nat} {s t : State} {a1 a2} (h : OnlyM m s t) (i : mask [.hifRings, .hifInflight,
      .hifFences, .docGroups, .cores, .catCounters, .catRings, .catStarted, .catTrace, .nextOp, .free, .out] ||| m = m) :
    OnlyM m s (State.acceptAttn t a1 a2) := by
  refine OnlyM.ofStep h ?_ i; clear h i; unfold State.acceptAttn
  repeat' first
    | with_reducible exact .refl _ _
    | extract_lets
    | intro _
    | (with_reducible apply State.accept_only; on_goal 2 => decide)
    | (with_reducible apply State.attnStart_only; on_goal 2 => decide)

theorem State.attnLeave_only {m : Nat} {s t : State} {a1} (h : OnlyM m s t) (i : mask [.cores, .catRings, .catStarted,
      .catTrace, .free] ||| m = m) :
    OnlyM m s (State.attnLeave t a1) := by
  refine OnlyM.ofStep h ?_ i; clear h i; unfold State.attnLeave
  repeat' first
    | with_reducible exact .refl _ _
    | extract_lets
    | intro _
    | with_reducible apply OnlyM.ite
    | (with_reducible apply State.useHandle_only; on_goal 2 => decide)
    | (with_reducible apply State.sbLeave_only; on_goal 2 => decide)
    | (with_reducible apply State.chargeTile_only; on_goal 2 => decide)
    | (with_reducible apply State.setCore_only; on_goal 2 => decide)
    | (with_reducible apply State.opEvent_only; on_goal 2 => decide)
    | with_reducible apply OnlyM.foldl
    | split

theorem State.readPages_only {m : Nat} {s t : State} {a1 a2 a3} (h : OnlyM m s t) (i : mask [.tiersPanels, .tiersRepairs,
      .cores, .chans, .rasSources, .rasQueue, .rasOvf, .catCounters, .catRings, .catTrace, .free] ||| m = m) :
    OnlyP m s (State.readPages t a1 a2 a3) := by
  refine OnlyP.ofStep h ?_ i; clear h i; unfold State.readPages
  repeat' first
    | with_reducible exact .refl _ _
    | extract_lets
    | intro _
    | (with_reducible apply State.readLines_only; on_goal 2 => decide)
    | (with_reducible apply State.missTraffic_only; on_goal 2 => decide)
    | with_reducible apply OnlyP.foldl
    | with_reducible apply OnlyP.mk'

theorem State.attnRecompute_only {m : Nat} {s t : State} {a1 a2 a3 a4} (h : OnlyM m s t) (i : mask [.mem, .bad,
      .rasSources, .rasQueue, .rasOvf, .catCounters, .catRings, .catTrace, .free] ||| m = m) :
    OnlyP m s (State.attnRecompute t a1 a2 a3 a4) := by
  refine OnlyP.ofStep h ?_ i; clear h i; unfold State.attnRecompute
  repeat' first
    | with_reducible exact .refl _ _
    | extract_lets l1 l2 l3 l4 l5 l6
    | (with_reducible apply State.noteHall_only; on_goal 2 => decide)
    | (with_reducible apply State.writeRows_only; on_goal 2 => decide)
    | (with_reducible apply State.count_only; on_goal 2 => decide)
    | (with_reducible apply State.draw_only; on_goal 2 => decide)
    | with_reducible apply OnlyP.fst
    | unfold l6
    | unfold l5
    | unfold l4
    | unfold l3
    | unfold l2
    | unfold l1
    | with_reducible apply OnlyP.mk'

theorem State.genTaken_only {m : Nat} {s t : State} {a1 a2} (h : OnlyM m s t) (i : mask [.cores] ||| m = m) :
    OnlyM m s (State.genTaken t a1 a2) := by
  refine OnlyM.ofStep h ?_ i; clear h i; unfold State.genTaken
  repeat' first
    | with_reducible exact .refl _ _
    | extract_lets
    | (with_reducible apply State.setCore_only; on_goal 2 => decide)

theorem State.attnForward_only {m : Nat} {s t : State} {o p qs units} (h : OnlyM m s t) (i : mask [.mem, .bad, .cores,
      .rasSources, .rasQueue, .rasOvf, .catCounters, .catRings, .catTrace, .free] ||| m = m) :
    OnlyP m s (State.attnForward t o p qs units) := by
  refine OnlyP.ofStep h ?_ i; clear h i; unfold State.attnForward
  extract_lets r s1 s2 groups s3 s4
  have h2 : OnlyM (mask [.mem, .bad, .cores, .rasSources, .rasQueue, .rasOvf, .catCounters, .catRings, .catTrace,
      .free]) t s2 := State.count_only (State.count_only (State.count_only (State.count_only (State.genTaken_only
    (State.draw_only (.refl _ _) (by decide)) (by decide)) (by decide)) (by decide)) (by decide)) (by decide)
  clear_value s2
  have h3 : OnlyM (mask [.mem, .bad, .cores, .rasSources, .rasQueue, .rasOvf, .catCounters, .catRings, .catTrace,
      .free]) t s3 := OnlyM.ite (State.count_only h2 (by decide)) h2
  clear_value s3
  have h4 : OnlyP (mask [.mem, .bad, .cores, .rasSources, .rasQueue, .rasOvf, .catCounters, .catRings, .catTrace,
      .free]) t s4 := State.writeRows_only h3 (by decide)
  clear_value s4
  split
  · exact ⟨(State.putHall_only h4.fst (by decide)).fst⟩
  · exact h4

theorem State.attnFault_only {m : Nat} {s t : State} {a1 a2} (h : OnlyM m s t) (i : mask [.cores, .rasSources, .rasQueue,
      .rasOvf, .catRings, .catFenceWin, .catTrace, .free] ||| m = m) :
    OnlyM m s (State.attnFault t a1 a2) := by
  refine OnlyM.ofStep h ?_ i; clear h i; unfold State.attnFault
  repeat' first
    | with_reducible exact .refl _ _
    | (with_reducible apply State.residueFault_only; on_goal 2 => decide)
    | split

theorem State.endAttn_only {m : Nat} {s t : State} {a1 a2} (h : OnlyM m s t) (i : mask [.mem, .bad, .hifRings,
      .hifInflight, .hifFences, .docGroups, .tiersPanels, .tiersRepairs, .cores, .chans, .rasSources, .rasQueue, .rasOvf,
      .catCounters, .catRings, .catStarted, .catFenceWin, .catTrace, .free, .out] ||| m = m) :
    OnlyM m s (State.endAttn t a1 a2) := by
  refine OnlyM.ofStep h ?_ i; clear h i; unfold State.endAttn
  repeat' first
    | with_reducible exact .refl _ _
    | extract_lets l1 l2 l3 l4 l5
    | intro _
    | with_reducible apply OnlyM.ite
    | with_reducible apply OnlyP.ite
    | (with_reducible apply State.complete_only; on_goal 2 => decide)
    | (with_reducible apply State.attnLeave_only; on_goal 2 => decide)
    | (with_reducible apply State.noteScratch_only; on_goal 2 => decide)
    | (with_reducible apply State.readPages_only; on_goal 2 => decide)
    | (with_reducible apply State.count_only; on_goal 2 => decide)
    | (with_reducible apply State.attnRecompute_only; on_goal 2 => decide)
    | (with_reducible apply State.attnForward_only; on_goal 2 => decide)
    | (with_reducible apply State.freeBytes_only; on_goal 2 => decide)
    | (with_reducible apply State.writeScratch_only; on_goal 2 => decide)
    | (with_reducible apply State.attnFault_only; on_goal 2 => decide)
    | with_reducible apply OnlyM.foldl
    | with_reducible apply OnlyP.fst
    | unfold l5
    | unfold l4
    | unfold l3
    | unfold l2
    | unfold l1
    | with_reducible apply OnlyP.mk'

theorem State.nextTile_only {m : Nat} {s t : State} {a1} (h : OnlyM m s t) (i : mask [.free] ||| m = m) :
    OnlyP m s (State.nextTile t a1) := by
  refine OnlyP.ofStep h ?_ i; clear h i; unfold State.nextTile
  split
  · exact ⟨.refl _ _⟩
  · split
    · exact ⟨.refl _ _⟩
    · exact ⟨(State.classPick_only (.refl _ _) (by decide)).fst⟩

theorem State.scanPages_only {m : Nat} {s t : State} {a1} (h : OnlyM m s t) (i : mask [.rasSources, .rasQueue, .rasOvf,
      .catCounters, .catRings, .catTrace, .free] ||| m = m) :
    OnlyP m s (State.scanPages t a1) := by
  refine OnlyP.ofStep h ?_ i; clear h i; unfold State.scanPages
  repeat' first
    | with_reducible exact .refl _ _
    | extract_lets
    | with_reducible apply OnlyP.ite
    | (with_reducible apply State.noteScratch_only; on_goal 2 => decide)
    | with_reducible apply OnlyP.mk'

theorem State.refuseAtIssue_only {m : Nat} {s t : State} {a1 a2} (h : OnlyM m s t) (i : mask [.hifRings, .hifInflight,
      .hifFences, .docGroups, .cores, .rasSources, .rasQueue, .rasOvf, .catCounters, .catRings, .catWaits, .catStarted,
      .catTrace, .free, .out] ||| m = m) :
    OnlyM m s (State.refuseAtIssue t a1 a2) := by
  refine OnlyM.ofStep h ?_ i; clear h i; unfold State.refuseAtIssue
  repeat' first
    | with_reducible exact .refl _ _
    | extract_lets
    | with_reducible apply OnlyM.ite
    | (with_reducible apply State.issueWaits_only; on_goal 2 => decide)
    | (with_reducible apply State.setCore_only; on_goal 2 => decide)
    | (with_reducible apply State.scanPages_only; on_goal 2 => decide)
    | (with_reducible apply State.complete_only; on_goal 2 => decide)
    | with_reducible apply OnlyP.fst

theorem State.issueAttn_only {m : Nat} {s t : State} {a1} (h : OnlyM m s t) (i : mask [.cores, .rasSources, .rasQueue,
      .rasOvf, .catCounters, .catRings, .catWaits, .catStarted, .catTrace, .free] ||| m = m) :
    OnlyM m s (State.issueAttn t a1) := by
  refine OnlyM.ofStep h ?_ i; clear h i; unfold State.issueAttn
  repeat' first
    | with_reducible exact .refl _ _
    | extract_lets
    | intro _
    | with_reducible apply OnlyM.ite
    | (with_reducible apply State.scanPages_only; on_goal 2 => decide)
    | (with_reducible apply State.useHandle_only; on_goal 2 => decide)
    | (with_reducible apply State.opEvent_only; on_goal 2 => decide)
    | (with_reducible apply State.issueWaits_only; on_goal 2 => decide)
    | (with_reducible apply State.setCore_only; on_goal 2 => decide)
    | with_reducible apply OnlyM.foldl
    | with_reducible apply OnlyP.fst

theorem State.issueTileLike_only {m : Nat} {s t : State} {a1} (h : OnlyM m s t) (i : mask [.hifRings, .hifInflight,
      .hifFences, .docGroups, .tiersPanels, .tiersRepairs, .cores, .chans, .outBases, .annexQueue, .rasSources, .rasQueue,
      .rasOvf, .catCounters, .catRings, .catWaits, .catStarted, .catTrace, .free, .out] ||| m = m) :
    OnlyM m s (State.issueTileLike t a1) := by
  refine OnlyM.ofStep h ?_ i; clear h i; unfold State.issueTileLike
  repeat' first
    | with_reducible exact .refl _ _
    | extract_lets
    | with_reducible apply OnlyM.ite
    | (with_reducible apply State.issueAttn_only; on_goal 2 => decide)
    | (with_reducible apply State.issueTile_only; on_goal 2 => decide)

theorem State.acceptAttnPages_only {m : Nat} {s t : State} {a1 a2 a3} (h : OnlyM m s t) (i : mask [.hifRings, .hifInflight,
      .hifFences, .docGroups, .cores, .catCounters, .catRings, .catStarted, .catTrace, .nextOp, .free, .out] ||| m = m) :
    OnlyM m s (State.acceptAttnPages t a1 a2 a3) := by
  refine OnlyM.ofStep h ?_ i; clear h i; unfold State.acceptAttnPages
  repeat' first
    | with_reducible exact .refl _ _
    | extract_lets
    | intro _
    | (with_reducible apply State.accept_only; on_goal 2 => decide)
    | (with_reducible apply State.attnStart_only; on_goal 2 => decide)

theorem State.ringPut_only {m : Nat} {s t : State} {a1 a2 a3 a4} (h : OnlyM m s t) (i : mask [.mem, .bad, .cores,
      .rasSources, .rasQueue, .rasOvf, .catCounters, .catRings, .catTrace, .free] ||| m = m) :
    OnlyM m s (State.ringPut t a1 a2 a3 a4) := by
  refine OnlyM.ofStep h ?_ i; clear h i; unfold State.ringPut
  repeat' first
    | with_reducible exact .refl _ _
    | extract_lets
    | with_reducible apply OnlyM.ite
    | (with_reducible apply State.writeScratch_only; on_goal 2 => decide)
    | (with_reducible apply State.count_only; on_goal 2 => decide)
    | (with_reducible apply State.setCore_only; on_goal 2 => decide)
    | with_reducible apply OnlyP.fst

theorem State.hubStart_only {m : Nat} {s t : State} {a1} (h : OnlyM m s t) (i : mask [.catRings, .catStarted, .catTrace,
      .hubOps, .free] ||| m = m) :
    OnlyM m s (State.hubStart t a1) := by
  refine OnlyM.ofStep h ?_ i; clear h i; unfold State.hubStart
  repeat' first
    | with_reducible exact .refl _ _
    | extract_lets
    | with_reducible apply OnlyM.ite
    | (with_reducible apply State.opEvent_only; on_goal 2 => decide)
    | fail_if_no_progress (with_reducible apply OnlyM.lit_hubOps; on_goal 2 => decide)

theorem State.bcastStart_only {m : Nat} {s t : State} {a1} (h : OnlyM m s t) (i : mask [.hifRings, .hifInflight,
      .hifFences, .docGroups, .cores, .plinths, .catCounters, .catRings, .catStarted, .catTrace, .hubOps, .free,
      .out] ||| m = m) :
    OnlyM m s (State.bcastStart t a1) := by
  refine OnlyM.ofStep h ?_ i; clear h i; unfold State.bcastStart
  repeat' first
    | with_reducible exact .refl _ _
    | extract_lets
    | intro _
    | with_reducible apply OnlyM.ite
    | (with_reducible apply State.complete_only; on_goal 2 => decide)
    | (with_reducible apply State.useHandle_only; on_goal 2 => decide)
    | (with_reducible apply State.setPlinth_only; on_goal 2 => decide)
    | (with_reducible apply State.hubStart_only; on_goal 2 => decide)
    | with_reducible apply OnlyM.foldl

theorem State.acceptBcast_only {m : Nat} {s t : State} {a1 a2} (h : OnlyM m s t) (i : mask [.hifRings, .hifInflight,
      .hifFences, .docGroups, .cores, .plinths, .catCounters, .catRings, .catStarted, .catTrace, .hubOps, .nextOp, .free,
      .out] ||| m = m) :
    OnlyM m s (State.acceptBcast t a1 a2) := by
  refine OnlyM.ofStep h ?_ i; clear h i; unfold State.acceptBcast
  repeat' first
    | with_reducible exact .refl _ _
    | extract_lets
    | intro _
    | (with_reducible apply State.accept_only; on_goal 2 => decide)
    | (with_reducible apply State.bcastStart_only; on_goal 2 => decide)

theorem State.hallTake_only {m : Nat} {s t : State} {a1 a2} (h : OnlyM m s t) (i : mask [.tiersPanels, .tiersRepairs,
      .rasSources, .rasQueue, .rasOvf, .catRings, .catTrace, .free] ||| m = m) :
    OnlyP m s (State.hallTake t a1 a2) := by
  refine OnlyP.ofStep h ?_ i; clear h i; unfold State.hallTake
  repeat' first
    | with_reducible exact .refl _ _
    | extract_lets l1
    | (with_reducible apply State.noteHallUse_only; on_goal 2 => decide)
    | with_reducible apply OnlyP.fst
    | unfold l1
    | with_reducible apply OnlyP.mk'

theorem State.hallPut_only {m : Nat} {s t : State} {a1} (h : OnlyM m s t) (i : mask [.mem, .bad, .rasSources, .rasQueue,
      .rasOvf, .catRings, .catTrace, .free] ||| m = m) :
    OnlyP m s (State.hallPut t a1) := by
  refine OnlyP.ofStep h ?_ i; clear h i; unfold State.hallPut
  repeat' first
    | with_reducible exact .refl _ _
    | extract_lets l1
    | (with_reducible apply State.putRuns_only; on_goal 2 => decide)
    | with_reducible apply OnlyP.fst
    | unfold l1
    | with_reducible apply OnlyP.mk'

theorem State.countLane_only {m : Nat} {s t : State} {a1} (h : OnlyM m s t) (i : mask [.catCounters] ||| m = m) :
    OnlyM m s (State.countLane t a1) := by
  refine OnlyM.ofStep h ?_ i; clear h i; unfold State.countLane
  repeat' first
    | with_reducible exact .refl _ _
    | extract_lets
    | (with_reducible apply State.count_only; on_goal 2 => decide)

theorem State.putRow_only {m : Nat} {s t : State} {a1 a2 a3 a4} (h : OnlyM m s t) (i : mask [.mem, .bad, .rasSources,
      .rasQueue, .rasOvf, .catCounters, .catRings, .catTrace, .free] ||| m = m) :
    OnlyP m s (State.putRow t a1 a2 a3 a4) := by
  refine OnlyP.ofStep h ?_ i; clear h i; unfold State.putRow
  repeat' first
    | with_reducible exact .refl _ _
    | extract_lets l1
    | (with_reducible apply State.hallPut_only; on_goal 2 => decide)
    | (with_reducible apply State.countLane_only; on_goal 2 => decide)
    | with_reducible apply OnlyP.fst
    | unfold l1
    | with_reducible apply OnlyP.mk'

theorem State.mergeRow_only {m : Nat} {s t : State} {a1 a2} (h : OnlyM m s t) (i : mask [.mem, .bad, .tiersPanels,
      .tiersRepairs, .rasSources, .rasQueue, .rasOvf, .catCounters, .catRings, .catTrace, .free] ||| m = m) :
    OnlyP m s (State.mergeRow t a1 a2) := by
  refine OnlyP.ofStep h ?_ i; clear h i; unfold State.mergeRow
  repeat' first
    | with_reducible exact .refl _ _
    | extract_lets l1 l2 l3 l4 l5 l6 l7 l8 l9 l10 l11 l12
    | intro _
    | (with_reducible apply State.hallTake_only; on_goal 2 => decide)
    | (with_reducible apply State.putRow_only; on_goal 2 => decide)
    | (with_reducible apply State.draw_only; on_goal 2 => decide)
    | with_reducible apply OnlyP.foldl
    | with_reducible apply OnlyP.fst
    | split
    | unfold l12
    | unfold l11
    | unfold l10
    | unfold l9
    | unfold l8
    | unfold l7
    | unfold l6
    | unfold l5
    | unfold l4
    | unfold l3
    | unfold l2
    | unfold l1
    | with_reducible apply OnlyP.mk'

theorem State.hubMerge_only {m : Nat} {s t : State} {a1} (h : OnlyM m s t) (i : mask [.mem, .bad, .tiersPanels,
      .tiersRepairs, .rasSources, .rasQueue, .rasOvf, .catCounters, .catRings, .catTrace, .free] ||| m = m) :
    OnlyP m s (State.hubMerge t a1) := by
  refine OnlyP.ofStep h ?_ i; clear h i; unfold State.hubMerge
  repeat' first
    | with_reducible exact .refl _ _
    | extract_lets l1
    | intro _
    | (with_reducible apply State.mergeRow_only; on_goal 2 => decide)
    | with_reducible apply OnlyP.foldl
    | with_reducible apply OnlyP.fst
    | unfold l1
    | with_reducible apply OnlyP.mk'

theorem State.eachLane_only {m : Nat} {s t : State} {o f} (h : OnlyM m s t) (k : ∀ u l, OnlyP m u (f u l)) :
    OnlyP m s (State.eachLane t o f) := by
  unfold State.eachLane
  exact OnlyP.foldl ⟨h⟩ (fun u x => ⟨(k u.1 x).fst⟩)

theorem State.laneValues_only {m : Nat} {s t : State} {a1 a2 a3 a4 a5 a6} (h : OnlyM m s t) (i : mask [.tiersPanels,
      .tiersRepairs, .rasSources, .rasQueue, .rasOvf, .catRings, .catTrace, .free] ||| m = m) :
    OnlyP m s (State.laneValues t a1 a2 a3 a4 a5 a6) := by
  refine OnlyP.ofStep h ?_ i; clear h i; unfold State.laneValues
  repeat' first
    | with_reducible exact .refl _ _
    | extract_lets l1 l2
    | with_reducible apply OnlyP.ite
    | (with_reducible apply State.hallTake_only; on_goal 2 => decide)
    | (with_reducible apply State.draw_only; on_goal 2 => decide)
    | with_reducible apply OnlyP.fst
    | unfold l2
    | unfold l1
    | with_reducible apply OnlyP.mk'

theorem State.putVectorLane_only {m : Nat} {s t : State} {a1 a2 a3} (h : OnlyM m s t) (i : mask [.mem, .bad, .rasSources,
      .rasQueue, .rasOvf, .catCounters, .catRings, .catTrace, .free] ||| m = m) :
    OnlyP m s (State.putVectorLane t a1 a2 a3) := by
  refine OnlyP.ofStep h ?_ i; clear h i; unfold State.putVectorLane
  repeat' first
    | with_reducible exact .refl _ _
    | extract_lets l1 l2 l3
    | (with_reducible apply State.hallPut_only; on_goal 2 => decide)
    | (with_reducible apply State.countLane_only; on_goal 2 => decide)
    | with_reducible apply OnlyP.fst
    | unfold l3
    | unfold l2
    | unfold l1
    | with_reducible apply OnlyP.mk'

theorem State.putHeaderRest_only {m : Nat} {s t : State} {a1} (h : OnlyM m s t) (i : mask [.mem, .bad, .rasSources,
      .rasQueue, .rasOvf, .catRings, .catTrace, .free] ||| m = m) :
    OnlyP m s (State.putHeaderRest t a1) := by
  refine OnlyP.ofStep h ?_ i; clear h i; unfold State.putHeaderRest
  repeat' first
    | with_reducible exact .refl _ _
    | (with_reducible apply State.hallPut_only; on_goal 2 => decide)

theorem State.hubConvert_only {m : Nat} {s t : State} {a1} (h : OnlyM m s t) (i : mask [.mem, .bad, .tiersPanels,
      .tiersRepairs, .rasSources, .rasQueue, .rasOvf, .catCounters, .catRings, .catTrace, .free] ||| m = m) :
    OnlyP m s (State.hubConvert t a1) := by
  refine OnlyP.ofStep h ?_ i; clear h i; unfold State.hubConvert
  repeat' first
    | with_reducible exact .refl _ _
    | extract_lets l1 l2
    | intro _
    | with_reducible apply State.eachLane_only
    | (with_reducible apply State.laneValues_only; on_goal 2 => decide)
    | (with_reducible apply State.putVectorLane_only; on_goal 2 => decide)
    | (with_reducible apply State.draw_only; on_goal 2 => decide)
    | (with_reducible apply State.putHeaderRest_only; on_goal 2 => decide)
    | with_reducible apply OnlyP.fst
    | unfold l2
    | unfold l1
    | with_reducible apply OnlyP.mk'

theorem State.addnormLane_only {m : Nat} {s t : State} {a1 a2 a3} (h : OnlyM m s t) (i : mask [.mem, .bad, .tiersPanels,
      .tiersRepairs, .rasSources, .rasQueue, .rasOvf, .catCounters, .catRings, .catTrace, .free] ||| m = m) :
    OnlyP m s (State.addnormLane t a1 a2 a3) := by
  refine OnlyP.ofStep h ?_ i; clear h i; unfold State.addnormLane
  repeat' first
    | with_reducible exact .refl _ _
    | extract_lets l1 l2 l3 l4 l5 l6 l7 l8
    | (with_reducible apply State.laneValues_only; on_goal 2 => decide)
    | (with_reducible apply State.hallPut_only; on_goal 2 => decide)
    | (with_reducible apply State.draw_only; on_goal 2 => decide)
    | (with_reducible apply State.putVectorLane_only; on_goal 2 => decide)
    | with_reducible apply OnlyP.fst
    | unfold l8
    | unfold l7
    | unfold l6
    | unfold l5
    | unfold l4
    | unfold l3
    | unfold l2
    | unfold l1
    | with_reducible apply OnlyP.mk'

theorem State.hubAddnorm_only {m : Nat} {s t : State} {a1} (h : OnlyM m s t) (i : mask [.mem, .bad, .tiersPanels,
      .tiersRepairs, .rasSources, .rasQueue, .rasOvf, .catCounters, .catRings, .catTrace, .free] ||| m = m) :
    OnlyP m s (State.hubAddnorm t a1) := by
  refine OnlyP.ofStep h ?_ i; clear h i; unfold State.hubAddnorm
  repeat' first
    | with_reducible exact .refl _ _
    | extract_lets l1 l2 l3 l4
    | intro _
    | (with_reducible apply State.laneValues_only; on_goal 2 => decide)
    | with_reducible apply State.eachLane_only
    | (with_reducible apply State.addnormLane_only; on_goal 2 => decide)
    | (with_reducible apply State.putHeaderRest_only; on_goal 2 => decide)
    | with_reducible apply OnlyP.fst
    | split
    | unfold l4
    | unfold l3
    | unfold l2
    | unfold l1
    | with_reducible apply OnlyP.mk'

theorem State.hubPsum_only {m : Nat} {s t : State} {a1} (h : OnlyM m s t) (i : mask [.mem, .bad, .tiersPanels,
      .tiersRepairs, .rasSources, .rasQueue, .rasOvf, .catCounters, .catRings, .catTrace, .free] ||| m = m) :
    OnlyP m s (State.hubPsum t a1) := by
  refine OnlyP.ofStep h ?_ i; clear h i; unfold State.hubPsum
  repeat' first
    | with_reducible exact .refl _ _
    | extract_lets l1 l2 l3
    | intro _
    | with_reducible apply State.eachLane_only
    | (with_reducible apply State.laneValues_only; on_goal 2 => decide)
    | (with_reducible apply State.putRow_only; on_goal 2 => decide)
    | (with_reducible apply State.draw_only; on_goal 2 => decide)
    | with_reducible apply OnlyP.foldl
    | with_reducible apply OnlyP.fst
    | unfold l3
    | unfold l2
    | unfold l1
    | with_reducible apply OnlyP.mk'

theorem State.laneCandidates_only {m : Nat} {s t : State} {a1 a2} (h : OnlyM m s t) (i : mask [.tiersPanels, .tiersRepairs,
      .rasSources, .rasQueue, .rasOvf, .catRings, .catTrace, .free] ||| m = m) :
    OnlyP m s (State.laneCandidates t a1 a2) := by
  refine OnlyP.ofStep h ?_ i; clear h i; unfold State.laneCandidates
  repeat' first
    | with_reducible exact .refl _ _
    | extract_lets l1
    | intro _
    | (with_reducible apply State.hallTake_only; on_goal 2 => decide)
    | with_reducible apply OnlyP.foldl
    | with_reducible apply OnlyP.fst
    | unfold l1
    | with_reducible apply OnlyP.mk'

theorem State.sampleMember_only {m : Nat} {s t : State} {a1 a2 a3 a4} (h : OnlyM m s t) (i : mask [.docCtxs, .docGroups,
      .tiersPanels, .tiersRepairs, .rasSources, .rasQueue, .rasOvf, .catRings, .catTrace, .free] ||| m = m) :
    OnlyP m s (State.sampleMember t a1 a2 a3 a4) := by
  refine OnlyP.ofStep h ?_ i; clear h i; unfold State.sampleMember
  repeat' first
    | with_reducible exact .refl _ _
    | extract_lets l1 l2
    | (with_reducible apply State.laneCandidates_only; on_goal 2 => decide)
    | (with_reducible apply State.setCtx_only; on_goal 2 => decide)
    | (with_reducible apply State.draw_only; on_goal 2 => decide)
    | (with_reducible apply State.updGroup_only; on_goal 2 => decide)
    | with_reducible apply OnlyP.fst
    | split
    | unfold l2
    | unfold l1
    | with_reducible apply OnlyP.mk'

theorem State.hubSample_only {m : Nat} {s t : State} {a1} (h : OnlyM m s t) (i : mask [.docCtxs, .docGroups, .tiersPanels,
      .tiersRepairs, .rasSources, .rasQueue, .rasOvf, .catRings, .catTrace, .free] ||| m = m) :
    OnlyP m s (State.hubSample t a1) := by
  refine OnlyP.ofStep h ?_ i; clear h i; unfold State.hubSample
  repeat' first
    | with_reducible exact .refl _ _
    | extract_lets l1 l2
    | intro _
    | with_reducible apply OnlyP.ite
    | (with_reducible apply State.sampleMember_only; on_goal 2 => decide)
    | with_reducible apply OnlyP.foldl
    | with_reducible apply OnlyP.fst
    | split
    | unfold l2
    | unfold l1
    | with_reducible apply OnlyP.mk'

theorem State.hubWork_only {m : Nat} {s t : State} {a1} (h : OnlyM m s t) (i : mask [.mem, .bad, .docCtxs, .docGroups,
      .tiersPanels, .tiersRepairs, .rasSources, .rasQueue, .rasOvf, .catCounters, .catRings, .catTrace, .free] ||| m = m) :
    OnlyP m s (State.hubWork t a1) := by
  refine OnlyP.ofStep h ?_ i; clear h i; unfold State.hubWork
  repeat' first
    | with_reducible exact .refl _ _
    | (with_reducible apply State.hubAddnorm_only; on_goal 2 => decide)
    | (with_reducible apply State.hubConvert_only; on_goal 2 => decide)
    | (with_reducible apply State.hubMerge_only; on_goal 2 => decide)
    | (with_reducible apply State.hubPsum_only; on_goal 2 => decide)
    | (with_reducible apply State.hubSample_only; on_goal 2 => decide)
    | split
    | with_reducible apply OnlyP.mk'

theorem State.acceptSample_only {m : Nat} {s t : State} {a1 a2} (h : OnlyM m s t) (i : mask [.hifRings, .hifInflight,
      .hifFences, .docGroups, .catCounters, .catRings, .catStarted, .catTrace, .hubOps, .nextOp, .free, .out] ||| m = m) :
    OnlyM m s (State.acceptSample t a1 a2) := by
  refine OnlyM.ofStep h ?_ i; clear h i; unfold State.acceptSample
  repeat' first
    | with_reducible exact .refl _ _
    | extract_lets
    | intro _
    | (with_reducible apply State.accept_only; on_goal 2 => decide)
    | (with_reducible apply State.hubStart_only; on_goal 2 => decide)

theorem State.acceptAddnorm_only {m : Nat} {s t : State} {a1 a2} (h : OnlyM m s t) (i : mask [.hifRings, .hifInflight,
      .hifFences, .docGroups, .catCounters, .catRings, .catStarted, .catTrace, .hubOps, .nextOp, .free, .out] ||| m = m) :
    OnlyM m s (State.acceptAddnorm t a1 a2) := by
  refine OnlyM.ofStep h ?_ i; clear h i; unfold State.acceptAddnorm
  repeat' first
    | with_reducible exact .refl _ _
    | extract_lets
    | intro _
    | (with_reducible apply State.accept_only; on_goal 2 => decide)
    | (with_reducible apply State.hubStart_only; on_goal 2 => decide)

theorem State.acceptMerge_only {m : Nat} {s t : State} {a1 a2} (h : OnlyM m s t) (i : mask [.hifRings, .hifInflight,
      .hifFences, .docGroups, .catCounters, .catRings, .catStarted, .catTrace, .hubOps, .nextOp, .free, .out] ||| m = m) :
    OnlyM m s (State.acceptMerge t a1 a2) := by
  refine OnlyM.ofStep h ?_ i; clear h i; unfold State.acceptMerge
  repeat' first
    | with_reducible exact .refl _ _
    | extract_lets
    | intro _
    | (with_reducible apply State.accept_only; on_goal 2 => decide)
    | (with_reducible apply State.hubStart_only; on_goal 2 => decide)

theorem State.acceptConvert_only {m : Nat} {s t : State} {a1 a2} (h : OnlyM m s t) (i : mask [.hifRings, .hifInflight,
      .hifFences, .docGroups, .catCounters, .catRings, .catStarted, .catTrace, .hubOps, .nextOp, .free, .out] ||| m = m) :
    OnlyM m s (State.acceptConvert t a1 a2) := by
  refine OnlyM.ofStep h ?_ i; clear h i; unfold State.acceptConvert
  repeat' first
    | with_reducible exact .refl _ _
    | extract_lets
    | intro _
    | (with_reducible apply State.accept_only; on_goal 2 => decide)
    | (with_reducible apply State.hubStart_only; on_goal 2 => decide)

theorem State.acceptPsum_only {m : Nat} {s t : State} {a1 a2} (h : OnlyM m s t) (i : mask [.hifRings, .hifInflight,
      .hifFences, .docGroups, .catCounters, .catRings, .catStarted, .catTrace, .hubOps, .nextOp, .free, .out] ||| m = m) :
    OnlyM m s (State.acceptPsum t a1 a2) := by
  refine OnlyM.ofStep h ?_ i; clear h i; unfold State.acceptPsum
  repeat' first
    | with_reducible exact .refl _ _
    | extract_lets
    | intro _
    | (with_reducible apply State.accept_only; on_goal 2 => decide)
    | (with_reducible apply State.hubStart_only; on_goal 2 => decide)

end Sys2Proof.Machine
end

