-- ==== Sys2Proof/Laws/OnlyFabric.lean ====
section
/-! SUPPORT. What each operation over the fabric, its links, the windows and the Carousel may write. -/

set_option linter.tactic.unusedName false

namespace Sys2Proof.Machine

theorem State.sendControl_only {m : Nat} {s t : State} {a1 a2 a3 a4} (h : OnlyM m s t) (i : mask [.fabPorts, .catCounters,
      .catRings, .catTrace, .free, .out] ||| m = m) :
    OnlyM m s (State.sendControl t a1 a2 a3 a4) := by
  refine OnlyM.ofStep h ?_ i; clear h i; unfold State.sendControl
  repeat' first
    | with_reducible exact .refl _ _
    | (with_reducible apply State.portSend_only; on_goal 2 => decide)

theorem State.forwardNotice_only {m : Nat} {s t : State} {a1 a2} (h : OnlyM m s t) (i : mask [.fabPorts, .catCounters,
      .catRings, .catTrace, .free, .out] ||| m = m) :
    OnlyM m s (State.forwardNotice t a1 a2) := by
  refine OnlyM.ofStep h ?_ i; clear h i; unfold State.forwardNotice
  repeat' first
    | with_reducible exact .refl _ _
    | extract_lets
    | intro _
    | (with_reducible apply State.sendControl_only; on_goal 2 => decide)
    | with_reducible apply OnlyM.foldl

theorem State.setPlanes_only {m : Nat} {s t : State} {a1 a2} (h : OnlyM m s t) (i : mask [.fabPlanes] ||| m = m) :
    OnlyM m s (State.setPlanes t a1 a2) := by
  refine OnlyM.ofStep h ?_ i; clear h i; unfold State.setPlanes
  repeat' first
    | with_reducible exact .refl _ _
    | extract_lets
    | fail_if_no_progress (with_reducible apply OnlyM.lit_fabPlanes; on_goal 2 => decide)

theorem State.noticeEffect_only {m : Nat} {s t : State} {a1} (h : OnlyM m s t) (i : mask [.fabLinks, .fabPlanes,
      .fabMacSend] ||| m = m) :
    OnlyM m s (State.noticeEffect t a1) := by
  refine OnlyM.ofStep h ?_ i; clear h i; unfold State.noticeEffect
  repeat' first
    | with_reducible exact .refl _ _
    | extract_lets
    | with_reducible apply OnlyM.ite
    | (with_reducible apply State.setPlanes_only; on_goal 2 => decide)
    | fail_if_no_progress (with_reducible apply OnlyM.lit_fabLinks; on_goal 2 => decide)
    | fail_if_no_progress (with_reducible apply OnlyM.lit_fabMacSend; on_goal 2 => decide)

theorem State.noticeLater_only {m : Nat} {s t : State} {a1} (h : OnlyM m s t) (i : mask [.fabLinks, .fabPlanes,
      .fabPendNotices, .fabMacSend] ||| m = m) :
    OnlyM m s (State.noticeLater t a1) := by
  refine OnlyM.ofStep h ?_ i; clear h i; unfold State.noticeLater
  repeat' first
    | with_reducible exact .refl _ _
    | extract_lets
    | with_reducible apply OnlyM.ite
    | (with_reducible apply State.noticeEffect_only; on_goal 2 => decide)
    | fail_if_no_progress (with_reducible apply OnlyM.lit_fabPendNotices; on_goal 2 => decide)

theorem State.addQuiesce_only {m : Nat} {s t : State} {a1 a2} (h : OnlyM m s t) (i : mask [.fabQuiesces,
      .catCounters] ||| m = m) :
    OnlyM m s (State.addQuiesce t a1 a2) := by
  refine OnlyM.ofStep h ?_ i; clear h i; unfold State.addQuiesce
  repeat' first
    | with_reducible exact .refl _ _
    | extract_lets
    | with_reducible apply OnlyM.ite
    | (with_reducible apply State.count_only; on_goal 2 => decide)
    | fail_if_no_progress (with_reducible apply OnlyM.lit_fabQuiesces; on_goal 2 => decide)

theorem State.learnQuiesce_only {m : Nat} {s t : State} {a1 a2} (h : OnlyM m s t) (i : mask [.fabBeat, .fabQuiesces,
      .catCounters] ||| m = m) :
    OnlyM m s (State.learnQuiesce t a1 a2) := by
  refine OnlyM.ofStep h ?_ i; clear h i; unfold State.learnQuiesce
  repeat' first
    | with_reducible exact .refl _ _
    | extract_lets
    | with_reducible apply OnlyM.ite
    | (with_reducible apply State.addQuiesce_only; on_goal 2 => decide)
    | fail_if_no_progress (with_reducible apply OnlyM.lit_fabBeat; on_goal 2 => decide)

theorem State.actNotice_only {m : Nat} {s t : State} {a1} (h : OnlyM m s t) (i : mask [.fabBeat, .fabLinks, .fabPlanes,
      .fabPendNotices, .fabQuiesces, .fabMacSend, .catCounters] ||| m = m) :
    OnlyM m s (State.actNotice t a1) := by
  refine OnlyM.ofStep h ?_ i; clear h i; unfold State.actNotice
  repeat' first
    | with_reducible exact .refl _ _
    | extract_lets
    | with_reducible apply OnlyM.ite
    | (with_reducible apply State.noticeLater_only; on_goal 2 => decide)
    | (with_reducible apply State.setPlanes_only; on_goal 2 => decide)
    | (with_reducible apply State.learnQuiesce_only; on_goal 2 => decide)
    | fail_if_no_progress (with_reducible apply OnlyM.lit_fabLinks; on_goal 2 => decide)

theorem State.rememberPair_only {m : Nat} {s t : State} {a1 a2} (h : OnlyM m s t) (i : mask [.fabSeen,
      .catCounters] ||| m = m) :
    OnlyM m s (State.rememberPair t a1 a2) := by
  refine OnlyM.ofStep h ?_ i; clear h i; unfold State.rememberPair
  repeat' first
    | with_reducible exact .refl _ _
    | extract_lets
    | (with_reducible apply State.countIf_only; on_goal 2 => decide)
    | fail_if_no_progress (with_reducible apply OnlyM.lit_fabSeen; on_goal 2 => decide)

theorem State.raiseNotice_only {m : Nat} {s t : State} {a1 a2 a3 a4 a5} (h : OnlyM m s t) (i : mask [.fabPorts, .fabBeat,
      .fabLinks, .fabPlanes, .fabSeen, .fabSerial, .fabPendNotices, .fabQuiesces, .fabMacSend, .catCounters, .catRings,
      .catTrace, .free, .out] ||| m = m) :
    OnlyM m s (State.raiseNotice t a1 a2 a3 a4 a5) := by
  refine OnlyM.ofStep h ?_ i; clear h i; unfold State.raiseNotice
  repeat' first
    | with_reducible exact .refl _ _
    | extract_lets
    | (with_reducible apply State.forwardNotice_only; on_goal 2 => decide)
    | (with_reducible apply State.actNotice_only; on_goal 2 => decide)
    | (with_reducible apply State.rememberPair_only; on_goal 2 => decide)
    | fail_if_no_progress (with_reducible apply OnlyM.lit_fabSerial; on_goal 2 => decide)

theorem State.dueNotices_only {m : Nat} {s t : State} (h : OnlyM m s t) (i : mask [.fabLinks, .fabPlanes, .fabPendNotices,
      .fabMacSend] ||| m = m) :
    OnlyM m s (State.dueNotices t) := by
  refine OnlyM.ofStep h ?_ i; clear h i; unfold State.dueNotices
  repeat' first
    | with_reducible exact .refl _ _
    | extract_lets
    | intro _
    | (with_reducible apply State.noticeEffect_only; on_goal 2 => decide)
    | with_reducible apply OnlyM.foldl
    | fail_if_no_progress (with_reducible apply OnlyM.lit_fabPendNotices; on_goal 2 => decide)

theorem State.returnPorts_only {m : Nat} {s t : State} (h : OnlyM m s t) (i : mask [.fabPorts, .catRings, .catTrace,
      .free] ||| m = m) :
    OnlyM m s (State.returnPorts t) := by
  refine OnlyM.ofStep h ?_ i; clear h i; unfold State.returnPorts
  repeat' first
    | with_reducible exact .refl _ _
    | extract_lets
    | intro _
    | with_reducible apply OnlyM.ite
    | (with_reducible apply State.setPortSt_only; on_goal 2 => decide)
    | (with_reducible apply State.setPort_only; on_goal 2 => decide)
    | with_reducible apply OnlyM.foldl
    | split

theorem State.reroute_only {m : Nat} {s t : State} {a1 a2 a3} (h : OnlyM m s t) (i : mask [.docGroups, .fabPorts,
      .catCounters, .catRings, .catTrace, .free, .out] ||| m = m) :
    OnlyM m s (State.reroute t a1 a2 a3) := by
  refine OnlyM.ofStep h ?_ i; clear h i; unfold State.reroute
  repeat' first
    | with_reducible exact .refl _ _
    | extract_lets
    | with_reducible apply OnlyM.ite
    | (with_reducible apply State.rerouted_only; on_goal 2 => decide)
    | (with_reducible apply State.portSend_only; on_goal 2 => decide)
    | split

theorem State.leaveUp_only {m : Nat} {s t : State} {a1 a2} (h : OnlyM m s t) (i : mask [.docGroups, .fabPorts, .fabBeat,
      .fabLinks, .fabPlanes, .fabSeen, .fabSerial, .fabPendNotices, .fabQuiesces, .fabMacSend, .fabAnnounced, .catCounters,
      .catRings, .catTrace, .free, .out] ||| m = m) :
    OnlyM m s (State.leaveUp t a1 a2) := by
  refine OnlyM.ofStep h ?_ i; clear h i; unfold State.leaveUp
  repeat' first
    | with_reducible exact .refl _ _
    | extract_lets
    | intro _
    | with_reducible apply OnlyM.ite
    | (with_reducible apply State.rerouted_only; on_goal 2 => decide)
    | (with_reducible apply State.setPortSt_only; on_goal 2 => decide)
    | (with_reducible apply State.setPort_only; on_goal 2 => decide)
    | (with_reducible apply State.reroute_only; on_goal 2 => decide)
    | (with_reducible apply State.raiseNotice_only; on_goal 2 => decide)
    | with_reducible apply OnlyM.foldl
    | fail_if_no_progress (with_reducible apply OnlyM.lit_fabAnnounced; on_goal 2 => decide)

theorem State.portTo_only {m : Nat} {s t : State} {a1 a2} (h : OnlyM m s t) (i : mask [.docGroups, .fabPorts, .fabBeat,
      .fabLinks, .fabPlanes, .fabSeen, .fabSerial, .fabPendNotices, .fabQuiesces, .fabMacSend, .fabAnnounced, .catCounters,
      .catRings, .catTrace, .free, .out] ||| m = m) :
    OnlyM m s (State.portTo t a1 a2) := by
  refine OnlyM.ofStep h ?_ i; clear h i; unfold State.portTo
  repeat' first
    | with_reducible exact .refl _ _
    | extract_lets
    | with_reducible apply OnlyM.ite
    | (with_reducible apply State.leaveUp_only; on_goal 2 => decide)
    | (with_reducible apply State.setPortSt_only; on_goal 2 => decide)
    | (with_reducible apply State.setPort_only; on_goal 2 => decide)

theorem State.portStart_only {m : Nat} {s t : State} {a1} (h : OnlyM m s t) (i : mask [.fabPorts, .catRings, .catTrace,
      .free] ||| m = m) :
    OnlyM m s (State.portStart t a1) := by
  refine OnlyM.ofStep h ?_ i; clear h i; unfold State.portStart
  repeat' first
    | with_reducible exact .refl _ _
    | extract_lets
    | with_reducible apply OnlyM.ite
    | (with_reducible apply State.setPortSt_only; on_goal 2 => decide)

theorem State.portsStop_only {m : Nat} {s t : State} (h : OnlyM m s t) (i : mask [.docGroups, .fabPorts, .fabBeat,
      .fabLinks, .fabPlanes, .fabSeen, .fabSerial, .fabPendNotices, .fabQuiesces, .fabMacSend, .fabAnnounced, .catCounters,
      .catRings, .catTrace, .free, .out] ||| m = m) :
    OnlyM m s (State.portsStop t) := by
  refine OnlyM.ofStep h ?_ i; clear h i; unfold State.portsStop
  repeat' first
    | with_reducible exact .refl _ _
    | extract_lets
    | intro _
    | (with_reducible apply State.portTo_only; on_goal 2 => decide)
    | with_reducible apply OnlyM.foldl

theorem State.portsStart_only {m : Nat} {s t : State} (h : OnlyM m s t) (i : mask [.fabPorts, .catRings, .catTrace,
      .free] ||| m = m) :
    OnlyM m s (State.portsStart t) := by
  refine OnlyM.ofStep h ?_ i; clear h i; unfold State.portsStart
  repeat' first
    | with_reducible exact .refl _ _
    | extract_lets
    | intro _
    | (with_reducible apply State.portStart_only; on_goal 2 => decide)
    | with_reducible apply OnlyM.foldl

theorem State.portDown_only {m : Nat} {s t : State} {a1 a2} (h : OnlyM m s t) (i : mask [.docGroups, .fabPorts, .fabBeat,
      .fabLinks, .fabPlanes, .fabSeen, .fabSerial, .fabPendNotices, .fabQuiesces, .fabMacSend, .fabAnnounced, .rasSources,
      .rasQueue, .rasOvf, .catCounters, .catRings, .catTrace, .free, .out] ||| m = m) :
    OnlyM m s (State.portDown t a1 a2) := by
  refine OnlyM.ofStep h ?_ i; clear h i; unfold State.portDown
  repeat' first
    | with_reducible exact .refl _ _
    | extract_lets
    | with_reducible apply OnlyM.ite
    | (with_reducible apply State.leaveUp_only; on_goal 2 => decide)
    | (with_reducible apply State.incident_only; on_goal 2 => decide)

theorem State.announce_only {m : Nat} {s t : State} (h : OnlyM m s t) (i : mask [.fabPorts, .fabBeat, .fabLinks,
      .fabPlanes, .fabSeen, .fabSerial, .fabPendNotices, .fabQuiesces, .fabMacSend, .fabAnnounced, .catCounters, .catRings,
      .catTrace, .free, .out] ||| m = m) :
    OnlyM m s (State.announce t) := by
  refine OnlyM.ofStep h ?_ i; clear h i; unfold State.announce
  repeat' first
    | with_reducible exact .refl _ _
    | extract_lets
    | intro _
    | with_reducible apply OnlyM.ite
    | (with_reducible apply State.raiseNotice_only; on_goal 2 => decide)
    | (with_reducible apply State.setPort_only; on_goal 2 => decide)
    | with_reducible apply OnlyM.foldl
    | fail_if_no_progress (with_reducible apply OnlyM.lit_fabAnnounced; on_goal 2 => decide)

theorem State.askReplay_only {m : Nat} {s t : State} {a1} (h : OnlyM m s t) (i : mask [.fabPorts] ||| m = m) :
    OnlyM m s (State.askReplay t a1) := by
  refine OnlyM.ofStep h ?_ i; clear h i; unfold State.askReplay
  repeat' first
    | with_reducible exact .refl _ _
    | extract_lets
    | with_reducible apply OnlyM.ite
    | (with_reducible apply State.setPort_only; on_goal 2 => decide)

theorem State.setBeat_only {m : Nat} {s t : State} {a1} (h : OnlyM m s t) (i : mask [.fabBeat] ||| m = m) :
    OnlyM m s (State.setBeat t a1) := by
  refine OnlyM.ofStep h ?_ i; clear h i; unfold State.setBeat
  repeat' first
    | with_reducible exact .refl _ _
    | extract_lets
    | fail_if_no_progress (with_reducible apply OnlyM.lit_fabBeat; on_goal 2 => decide)

theorem State.setBeatSt_only {m : Nat} {s t : State} {a1 a2} (h : OnlyM m s t) (i : mask [.fabBeat, .catRings, .catTrace,
      .free] ||| m = m) :
    OnlyM m s (State.setBeatSt t a1 a2) := by
  refine OnlyM.ofStep h ?_ i; clear h i; unfold State.setBeatSt
  repeat' first
    | with_reducible exact .refl _ _
    | extract_lets
    | with_reducible apply OnlyM.ite
    | (with_reducible apply State.event_only; on_goal 2 => decide)
    | (with_reducible apply State.setBeat_only; on_goal 2 => decide)

theorem State.dataFresh_only {m : Nat} {s t : State} {a1 a2} (h : OnlyM m s t) (i : mask [.catCounters] ||| m = m) :
    OnlyP m s (State.dataFresh t a1 a2) := by
  refine OnlyP.ofStep h ?_ i; clear h i; unfold State.dataFresh
  repeat' first
    | with_reducible exact .refl _ _
    | extract_lets
    | with_reducible apply OnlyP.ite
    | (with_reducible apply State.count_only; on_goal 2 => decide)
    | with_reducible apply OnlyP.mk'

theorem State.takeAck_only {m : Nat} {s t : State} {a1 a2} (h : OnlyM m s t) (i : mask [.fabPorts, .catCounters, .catRings,
      .catTrace, .free, .out] ||| m = m) :
    OnlyM m s (State.takeAck t a1 a2) := by
  refine OnlyM.ofStep h ?_ i; clear h i; unfold State.takeAck
  repeat' first
    | with_reducible exact .refl _ _
    | extract_lets
    | with_reducible apply OnlyM.ite
    | (with_reducible apply State.setPort_only; on_goal 2 => decide)
    | (with_reducible apply State.portPump_only; on_goal 2 => decide)
    | (with_reducible apply State.replay_only; on_goal 2 => decide)

theorem State.arrive_only {m : Nat} {s t : State} {a1 a2 a3 a4} (h : OnlyM m s t) (i : mask [.fabPorts, .catCounters,
      .catRings, .catTrace, .free, .out] ||| m = m) :
    OnlyP m s (State.arrive t a1 a2 a3 a4) := by
  refine OnlyP.ofStep h ?_ i; clear h i; unfold State.arrive
  repeat' first
    | with_reducible exact .refl _ _
    | extract_lets _ _ l3 l4
    | with_reducible apply OnlyP.ite
    | (with_reducible apply State.askReplay_only; on_goal 2 => decide)
    | (with_reducible apply State.count_only; on_goal 2 => decide)
    | (with_reducible apply State.notePacket_only; on_goal 2 => decide)
    | (with_reducible apply State.dataFresh_only; on_goal 2 => decide)
    | (with_reducible apply State.takeAck_only; on_goal 2 => decide)
    | (with_reducible apply State.setPort_only; on_goal 2 => decide)
    | unfold l4
    | unfold l3
    | with_reducible apply OnlyP.mk'

theorem State.chooseParent_only {m : Nat} {s t : State} (h : OnlyM m s t) (i : mask [.fabBeat] ||| m = m) :
    OnlyM m s (State.chooseParent t) := by
  refine OnlyM.ofStep h ?_ i; clear h i; unfold State.chooseParent
  repeat' first
    | with_reducible exact .refl _ _
    | extract_lets
    | with_reducible apply OnlyM.ite
    | (with_reducible apply State.setBeat_only; on_goal 2 => decide)
    | split

theorem State.takeMapGen_only {m : Nat} {s t : State} {a1} (h : OnlyM m s t) (i : mask [.fabCarMap, .fabCarPend,
      .fabCarWait] ||| m = m) :
    OnlyM m s (State.takeMapGen t a1) := by
  refine OnlyM.ofStep h ?_ i; clear h i; unfold State.takeMapGen
  repeat' first
    | with_reducible exact .refl _ _
    | extract_lets
    | with_reducible apply OnlyM.ite
    | fail_if_no_progress (with_reducible apply OnlyM.lit_fabCarWait; on_goal 2 => decide)
    | fail_if_no_progress (with_reducible apply OnlyM.lit_fabCarMap_fabCarPend_fabCarWait; on_goal 2 => decide)
    | split

theorem State.lockTo_only {m : Nat} {s t : State} {a1 a2 a3} (h : OnlyM m s t) (i : mask [.fabBeat, .fabQuiesces,
      .fabCarMap, .fabCarPend, .fabCarWait, .catCounters, .catRings, .catTrace, .free] ||| m = m) :
    OnlyM m s (State.lockTo t a1 a2 a3) := by
  refine OnlyM.ofStep h ?_ i; clear h i; unfold State.lockTo
  repeat' first
    | with_reducible exact .refl _ _
    | extract_lets
    | with_reducible apply OnlyM.ite
    | (with_reducible apply State.setBeatSt_only; on_goal 2 => decide)
    | (with_reducible apply State.setBeat_only; on_goal 2 => decide)
    | (with_reducible apply State.takeMapGen_only; on_goal 2 => decide)
    | (with_reducible apply State.addQuiesce_only; on_goal 2 => decide)

theorem State.followParent_only {m : Nat} {s t : State} {a1 a2} (h : OnlyM m s t) (i : mask [.fabBeat] ||| m = m) :
    OnlyM m s (State.followParent t a1 a2) := by
  refine OnlyM.ofStep h ?_ i; clear h i; unfold State.followParent
  repeat' first
    | with_reducible exact .refl _ _
    | extract_lets
    | (with_reducible apply State.setBeat_only; on_goal 2 => decide)

theorem State.syncWord_only {m : Nat} {s t : State} {a1 a2 a3} (h : OnlyM m s t) (i : mask [.fabBeat, .fabQuiesces,
      .fabCarMap, .fabCarPend, .fabCarWait, .catCounters, .catRings, .catTrace, .free] ||| m = m) :
    OnlyM m s (State.syncWord t a1 a2 a3) := by
  refine OnlyM.ofStep h ?_ i; clear h i; unfold State.syncWord
  repeat' first
    | with_reducible exact .refl _ _
    | extract_lets
    | with_reducible apply OnlyM.ite
    | (with_reducible apply State.count_only; on_goal 2 => decide)
    | (with_reducible apply State.setBeat_only; on_goal 2 => decide)
    | (with_reducible apply State.lockTo_only; on_goal 2 => decide)
    | (with_reducible apply State.followParent_only; on_goal 2 => decide)

theorem State.wiringCheck_only {m : Nat} {s t : State} {a1 a2 a3} (h : OnlyM m s t) (i : mask [.fabPorts, .rasSources,
      .rasQueue, .rasOvf, .catCounters, .catRings, .catTrace, .free] ||| m = m) :
    OnlyM m s (State.wiringCheck t a1 a2 a3) := by
  refine OnlyM.ofStep h ?_ i; clear h i; unfold State.wiringCheck
  repeat' first
    | with_reducible exact .refl _ _
    | extract_lets
    | with_reducible apply OnlyM.ite
    | (with_reducible apply State.setPort_only; on_goal 2 => decide)
    | (with_reducible apply State.setPortSt_only; on_goal 2 => decide)
    | (with_reducible apply State.incident_only; on_goal 2 => decide)
    | (with_reducible apply State.count_only; on_goal 2 => decide)

theorem State.arriveData_only {m : Nat} {s t : State} {a1 a2 a3 a4} (h : OnlyM m s t) (i : mask [.fabPorts, .catCounters,
      .catRings, .catTrace, .free, .out] ||| m = m) :
    OnlyP m s (State.arriveData t a1 a2 a3 a4) := by
  refine OnlyP.ofStep h ?_ i; clear h i; unfold State.arriveData
  repeat' first
    | with_reducible exact .refl _ _
    | extract_lets l1
    | (with_reducible apply State.arrive_only; on_goal 2 => decide)
    | with_reducible apply OnlyP.fst
    | unfold l1
    | with_reducible apply OnlyP.mk'

theorem State.takeNotice_only {m : Nat} {s t : State} {a1 a2} (h : OnlyM m s t) (i : mask [.fabPorts, .fabBeat, .fabLinks,
      .fabPlanes, .fabSeen, .fabPendNotices, .fabQuiesces, .fabMacSend, .catCounters, .catRings, .catTrace, .free,
      .out] ||| m = m) :
    OnlyM m s (State.takeNotice t a1 a2) := by
  refine OnlyM.ofStep h ?_ i; clear h i; unfold State.takeNotice
  repeat' first
    | with_reducible exact .refl _ _
    | extract_lets
    | with_reducible apply OnlyM.ite
    | (with_reducible apply State.count_only; on_goal 2 => decide)
    | (with_reducible apply State.forwardNotice_only; on_goal 2 => decide)
    | (with_reducible apply State.actNotice_only; on_goal 2 => decide)
    | (with_reducible apply State.rememberPair_only; on_goal 2 => decide)

theorem State.sendSyncs_only {m : Nat} {s t : State} (h : OnlyM m s t) (i : mask [.fabPorts, .fabBeat, .catCounters,
      .catRings, .catTrace, .free, .out] ||| m = m) :
    OnlyM m s (State.sendSyncs t) := by
  refine OnlyM.ofStep h ?_ i; clear h i; unfold State.sendSyncs
  repeat' first
    | with_reducible exact .refl _ _
    | extract_lets
    | intro _
    | (with_reducible apply State.sendControl_only; on_goal 2 => decide)
    | (with_reducible apply State.setBeat_only; on_goal 2 => decide)
    | (with_reducible apply State.draw_only; on_goal 2 => decide)
    | with_reducible apply OnlyM.foldl

theorem State.windowDone_only {m : Nat} {s t : State} {a1} (h : OnlyM m s t) (i : mask [.hifRings, .hifInflight,
      .hifFences, .dmaOps, .dmaStops, .docGroups, .tiersObjs, .tiersPanels, .tiersMaps, .tiersMigs, .tiersT0used,
      .tiersRepairs, .tiersWriteQ, .tiersObjRun, .tiersObjWait, .cores, .catCounters, .catRings, .catWaits, .catStarted,
      .catTrace, .free, .out] ||| m = m) :
    OnlyM m s (State.windowDone t a1) := by
  refine OnlyM.ofStep h ?_ i; clear h i; unfold State.windowDone
  repeat' first
    | with_reducible exact .refl _ _
    | extract_lets
    | (with_reducible apply State.settleStops_only; on_goal 2 => decide)
    | (with_reducible apply State.complete_only; on_goal 2 => decide)
    | (with_reducible apply State.dmaLeave_only; on_goal 2 => decide)

theorem State.closeWindow_only {m : Nat} {s t : State} {a1 a2} (h : OnlyM m s t) (i : mask [.fabWindows] ||| m = m) :
    OnlyM m s (State.closeWindow t a1 a2) := by
  refine OnlyM.ofStep h ?_ i; clear h i; unfold State.closeWindow
  repeat' first
    | with_reducible exact .refl _ _
    | extract_lets
    | (with_reducible apply State.setWindow_only; on_goal 2 => decide)

theorem State.acceptWinClose_only {m : Nat} {s t : State} {a1 a2} (h : OnlyM m s t) (i : mask [.hifRings, .hifInflight,
      .hifFences, .docGroups, .fabWindows, .catCounters, .catRings, .catStarted, .catTrace, .nextOp, .free, .out] ||| m = m) :
    OnlyM m s (State.acceptWinClose t a1 a2) := by
  refine OnlyM.ofStep h ?_ i; clear h i; unfold State.acceptWinClose
  repeat' first
    | with_reducible exact .refl _ _
    | extract_lets
    | intro _
    | (with_reducible apply State.accept_only; on_goal 2 => decide)
    | (with_reducible apply State.closeWindow_only; on_goal 2 => decide)

theorem State.winOpenStart_only {m : Nat} {s t : State} {a1} (h : OnlyM m s t) (i : mask [.hifRings, .hifInflight,
      .hifFences, .docGroups, .tiersObjs, .cores, .fabWindows, .catCounters, .catRings, .catStarted, .catTrace, .free,
      .out] ||| m = m) :
    OnlyM m s (State.winOpenStart t a1) := by
  refine OnlyM.ofStep h ?_ i; clear h i; unfold State.winOpenStart
  repeat' first
    | with_reducible exact .refl _ _
    | extract_lets
    | intro _
    | with_reducible apply OnlyM.ite
    | (with_reducible apply State.setWindow_only; on_goal 2 => decide)
    | (with_reducible apply State.useHandle_only; on_goal 2 => decide)
    | (with_reducible apply State.pinObj_only; on_goal 2 => decide)
    | (with_reducible apply State.complete_only; on_goal 2 => decide)
    | with_reducible apply OnlyM.foldl
    | split

theorem State.acceptWinOpen_only {m : Nat} {s t : State} {a1 a2} (h : OnlyM m s t) (i : mask [.hifRings, .hifInflight,
      .hifFences, .docGroups, .tiersObjs, .cores, .fabWindows, .catCounters, .catRings, .catStarted, .catTrace, .nextOp,
      .free, .out] ||| m = m) :
    OnlyM m s (State.acceptWinOpen t a1 a2) := by
  refine OnlyM.ofStep h ?_ i; clear h i; unfold State.acceptWinOpen
  repeat' first
    | with_reducible exact .refl _ _
    | extract_lets
    | intro _
    | (with_reducible apply State.accept_only; on_goal 2 => decide)
    | (with_reducible apply State.winOpenStart_only; on_goal 2 => decide)

theorem State.windowWrite_only {m : Nat} {s t : State} {a1 a2 a3} (h : OnlyM m s t) (i : mask [.mem, .chk, .bad,
      .tiersWriteQ, .cores, .fabWindows, .rasSources, .rasQueue, .rasOvf, .catCounters, .catRings, .catTrace, .free,
      .out] ||| m = m) :
    OnlyP m s (State.windowWrite t a1 a2 a3) := by
  refine OnlyP.ofStep h ?_ i; clear h i; unfold State.windowWrite
  repeat' first
    | with_reducible exact .refl _ _
    | extract_lets l1 l2 l3 l4
    | (with_reducible apply State.putVector_only; on_goal 2 => decide)
    | (with_reducible apply State.putLong_only; on_goal 2 => decide)
    | (with_reducible apply State.leaveQueue_only; on_goal 2 => decide)
    | (with_reducible apply State.setWindow_only; on_goal 2 => decide)
    | with_reducible apply OnlyP.fst
    | split
    | unfold l4
    | unfold l3
    | unfold l2
    | unfold l1
    | with_reducible apply OnlyP.mk'

theorem State.sendAck_only {m : Nat} {s t : State} {a1 a2 a3 a4 a5 a6} (h : OnlyM m s t) (i : mask [.docGroups, .fabPorts,
      .catCounters, .catRings, .catTrace, .free, .out] ||| m = m) :
    OnlyM m s (State.sendAck t a1 a2 a3 a4 a5 a6) := by
  refine OnlyM.ofStep h ?_ i; clear h i; unfold State.sendAck
  repeat' first
    | with_reducible exact .refl _ _
    | extract_lets
    | (with_reducible apply State.sendData_only; on_goal 2 => decide)
    | with_reducible apply OnlyP.fst

theorem State.ackNow_only {m : Nat} {s t : State} {a1 a2 a3 a4 a5 a6} (h : OnlyM m s t) (i : mask [.docGroups, .fabPorts,
      .fabWindows, .catCounters, .catRings, .catTrace, .free, .out] ||| m = m) :
    OnlyM m s (State.ackNow t a1 a2 a3 a4 a5 a6) := by
  refine OnlyM.ofStep h ?_ i; clear h i; unfold State.ackNow
  repeat' first
    | with_reducible exact .refl _ _
    | extract_lets
    | (with_reducible apply State.sendAck_only; on_goal 2 => decide)
    | (with_reducible apply State.setWindow_only; on_goal 2 => decide)

theorem State.noteWritten_only {m : Nat} {s t : State} {a1 a2 a3 a4 a5} (h : OnlyM m s t) (i : mask [.docGroups, .fabPorts,
      .fabWindows, .catCounters, .catRings, .catTrace, .free, .out] ||| m = m) :
    OnlyM m s (State.noteWritten t a1 a2 a3 a4 a5) := by
  refine OnlyM.ofStep h ?_ i; clear h i; unfold State.noteWritten
  repeat' first
    | with_reducible exact .refl _ _
    | extract_lets
    | with_reducible apply OnlyM.ite
    | (with_reducible apply State.setWindow_only; on_goal 2 => decide)
    | (with_reducible apply State.ackNow_only; on_goal 2 => decide)

theorem State.windowFlush_only {m : Nat} {s t : State} {a n} (h : OnlyM m s t) (i : mask [.mem, .chk, .bad, .docGroups,
      .tiersWriteQ, .cores, .fabPorts, .fabWindows, .rasSources, .rasQueue, .rasOvf, .catCounters, .catRings, .catTrace,
      .free, .out] ||| m = m) :
    OnlyM m s (State.windowFlush t a n) := by
  refine OnlyM.ofStep h (?_ : OnlyM (mask [.mem, .chk, .bad, .docGroups, .tiersWriteQ, .cores, .fabPorts, .fabWindows,
      .rasSources, .rasQueue, .rasOvf, .catCounters, .catRings, .catTrace, .free,
      .out]) t (State.windowFlush t a n)) i; clear h i
  suffices k : ∀ s, OnlyM (mask [.mem, .chk, .bad, .docGroups, .tiersWriteQ, .cores, .fabPorts, .fabWindows, .rasSources,
      .rasQueue, .rasOvf, .catCounters, .catRings, .catTrace, .free, .out]) s t → OnlyM (mask [.mem, .chk, .bad,
      .docGroups, .tiersWriteQ, .cores, .fabPorts, .fabWindows, .rasSources, .rasQueue, .rasOvf, .catCounters, .catRings,
      .catTrace, .free, .out]) s (State.windowFlush t a n) from k t (.refl _ _)
  induction n generalizing t with
  | zero => intro s h; unfold State.windowFlush; exact h
  | succ n ih =>
    intro s h; unfold State.windowFlush
    repeat' first
    | with_reducible apply ih
    | with_reducible assumption
    | extract_lets
    | with_reducible apply OnlyM.ite
    | (with_reducible apply State.queueWrite_only; on_goal 2 => decide)
    | (with_reducible apply State.windowWrite_only; on_goal 2 => decide)
    | (with_reducible apply State.setWindow_only; on_goal 2 => decide)
    | (with_reducible apply State.noteWritten_only; on_goal 2 => decide)
    | (with_reducible apply State.ackNow_only; on_goal 2 => decide)
    | with_reducible apply OnlyP.fst
    | split

theorem State.windowsFlush_only {m : Nat} {s t : State} (h : OnlyM m s t) (i : mask [.mem, .chk, .bad, .docGroups,
      .tiersWriteQ, .cores, .fabPorts, .fabWindows, .rasSources, .rasQueue, .rasOvf, .catCounters, .catRings, .catTrace,
      .free, .out] ||| m = m) :
    OnlyM m s (State.windowsFlush t) := by
  refine OnlyM.ofStep h ?_ i; clear h i; unfold State.windowsFlush
  repeat' first
    | with_reducible exact .refl _ _
    | extract_lets
    | intro _
    | (with_reducible apply State.windowFlush_only; on_goal 2 => decide)
    | with_reducible apply OnlyM.foldl

theorem State.refusePacket_only {m : Nat} {s t : State} {a1 a2 a3 a4 a5} (h : OnlyM m s t) (i : mask [.docGroups,
      .fabPorts, .fabWindows, .catCounters, .catRings, .catTrace, .free, .out] ||| m = m) :
    OnlyM m s (State.refusePacket t a1 a2 a3 a4 a5) := by
  refine OnlyM.ofStep h ?_ i; clear h i; unfold State.refusePacket
  repeat' first
    | with_reducible exact .refl _ _
    | extract_lets _ l2
    | (with_reducible apply State.count_only; on_goal 2 => decide)
    | (with_reducible apply State.ackNow_only; on_goal 2 => decide)
    | split
    | unfold l2

theorem State.answerGet_only {m : Nat} {s t : State} {a1 a2 n a3 a4} (h : OnlyM m s t) (i : mask [.docGroups, .fabPorts,
      .catCounters, .catRings, .catTrace, .free, .out] ||| m = m) :
    OnlyM m s (State.answerGet t a1 a2 n a3 a4) := by
  refine OnlyM.ofStep h (?_ : OnlyM (mask [.docGroups, .fabPorts, .catCounters, .catRings, .catTrace, .free,
      .out]) t (State.answerGet t a1 a2 n a3 a4)) i; clear h i
  suffices k : ∀ s, OnlyM (mask [.docGroups, .fabPorts, .catCounters, .catRings, .catTrace, .free,
      .out]) s t → OnlyM (mask [.docGroups, .fabPorts, .catCounters, .catRings, .catTrace, .free,
      .out]) s (State.answerGet t a1 a2 n a3 a4) from k t (.refl _ _)
  induction n generalizing t a3 a4 with
  | zero => intro s h; unfold State.answerGet; exact h
  | succ n ih =>
    intro s h; unfold State.answerGet
    repeat' first
    | with_reducible apply ih
    | with_reducible assumption
    | extract_lets
    | with_reducible apply OnlyM.ite
    | (with_reducible apply State.sendData_only; on_goal 2 => decide)
    | with_reducible apply OnlyP.fst

theorem State.sendRequests_only {m : Nat} {s t : State} {a n} (h : OnlyM m s t) (i : mask [.dmaOps, .docGroups, .fabPorts,
      .catCounters, .catRings, .catTrace, .free, .out] ||| m = m) :
    OnlyM m s (State.sendRequests t a n) := by
  refine OnlyM.ofStep h (?_ : OnlyM (mask [.dmaOps, .docGroups, .fabPorts, .catCounters, .catRings, .catTrace, .free,
      .out]) t (State.sendRequests t a n)) i; clear h i
  suffices k : ∀ s, OnlyM (mask [.dmaOps, .docGroups, .fabPorts, .catCounters, .catRings, .catTrace, .free,
      .out]) s t → OnlyM (mask [.dmaOps, .docGroups, .fabPorts, .catCounters, .catRings, .catTrace, .free,
      .out]) s (State.sendRequests t a n) from k t (.refl _ _)
  induction n generalizing t with
  | zero => intro s h; unfold State.sendRequests; exact h
  | succ n ih =>
    intro s h; unfold State.sendRequests
    repeat' first
    | with_reducible apply ih
    | with_reducible assumption
    | extract_lets
    | with_reducible apply OnlyM.ite
    | (with_reducible apply State.sendData_only; on_goal 2 => decide)
    | (with_reducible apply State.updDma_only; on_goal 2 => decide)
    | with_reducible apply OnlyP.fst
    | split

theorem State.winPump_only {m : Nat} {s t : State} (h : OnlyM m s t) (i : mask [.dmaOps, .docGroups, .fabPorts,
      .catCounters, .catRings, .catTrace, .free, .out] ||| m = m) :
    OnlyM m s (State.winPump t) := by
  refine OnlyM.ofStep h ?_ i; clear h i; unfold State.winPump
  repeat' first
    | with_reducible exact .refl _ _
    | extract_lets
    | intro _
    | (with_reducible apply State.sendRequests_only; on_goal 2 => decide)
    | with_reducible apply OnlyM.foldl

theorem State.winMoveStart_only {m : Nat} {s t : State} {a1} (h : OnlyM m s t) (i : mask [.hifRings, .hifInflight,
      .hifFences, .dmaOps, .dmaStops, .dmaNextOpid, .docGroups, .tiersObjs, .tiersPanels, .tiersMaps, .tiersMigs,
      .tiersT0used, .tiersRepairs, .tiersWriteQ, .tiersObjRun, .tiersObjWait, .cores, .fabPorts, .catCounters, .catRings,
      .catWaits, .catStarted, .catTrace, .free, .out] ||| m = m) :
    OnlyM m s (State.winMoveStart t a1) := by
  refine OnlyM.ofStep h ?_ i; clear h i; unfold State.winMoveStart
  repeat' first
    | with_reducible exact .refl _ _
    | extract_lets
    | (with_reducible apply State.updDma_only; on_goal 2 => decide)
    | (with_reducible apply State.dmaStart_only; on_goal 2 => decide)
    | (with_reducible apply State.sendRequests_only; on_goal 2 => decide)
    | fail_if_no_progress (with_reducible apply OnlyM.lit_dmaNextOpid; on_goal 2 => decide)

theorem State.acceptWinGet_only {m : Nat} {s t : State} {a1 a2} (h : OnlyM m s t) (i : mask [.hifRings, .hifInflight,
      .hifFences, .dmaOps, .dmaStops, .dmaNextOpid, .docGroups, .tiersObjs, .tiersPanels, .tiersMaps, .tiersMigs,
      .tiersT0used, .tiersRepairs, .tiersWriteQ, .tiersObjRun, .tiersObjWait, .cores, .fabPorts, .catCounters, .catRings,
      .catWaits, .catStarted, .catTrace, .nextOp, .free, .out] ||| m = m) :
    OnlyM m s (State.acceptWinGet t a1 a2) := by
  refine OnlyM.ofStep h ?_ i; clear h i; unfold State.acceptWinGet
  repeat' first
    | with_reducible exact .refl _ _
    | extract_lets
    | intro _
    | (with_reducible apply State.accept_only; on_goal 2 => decide)
    | (with_reducible apply State.winMoveStart_only; on_goal 2 => decide)

theorem State.acceptWinPut_only {m : Nat} {s t : State} {a1 a2} (h : OnlyM m s t) (i : mask [.hifRings, .hifInflight,
      .hifFences, .dmaOps, .dmaStops, .dmaNextOpid, .docGroups, .tiersObjs, .tiersPanels, .tiersMaps, .tiersMigs,
      .tiersT0used, .tiersRepairs, .tiersWriteQ, .tiersObjRun, .tiersObjWait, .cores, .fabPorts, .catCounters, .catRings,
      .catWaits, .catStarted, .catTrace, .nextOp, .free, .out] ||| m = m) :
    OnlyM m s (State.acceptWinPut t a1 a2) := by
  refine OnlyM.ofStep h ?_ i; clear h i; unfold State.acceptWinPut
  repeat' first
    | with_reducible exact .refl _ _
    | extract_lets
    | intro _
    | (with_reducible apply State.accept_only; on_goal 2 => decide)
    | (with_reducible apply State.winMoveStart_only; on_goal 2 => decide)

theorem State.windowsLost_only {m : Nat} {s t : State} (h : OnlyM m s t) (i : mask [.hifRings, .hifInflight, .hifFences,
      .dmaOps, .dmaStops, .docGroups, .tiersObjs, .tiersPanels, .tiersMaps, .tiersMigs, .tiersT0used, .tiersRepairs,
      .tiersWriteQ, .tiersObjRun, .tiersObjWait, .cores, .catCounters, .catRings, .catWaits, .catStarted, .catTrace, .free,
      .out] ||| m = m) :
    OnlyM m s (State.windowsLost t) := by
  refine OnlyM.ofStep h ?_ i; clear h i; unfold State.windowsLost
  repeat' first
    | with_reducible exact .refl _ _
    | extract_lets
    | intro _
    | (with_reducible apply State.windowDone_only; on_goal 2 => decide)
    | with_reducible apply OnlyM.foldl

theorem State.putPacket_only {m : Nat} {s t : State} {a1 a2 a3} (h : OnlyM m s t) (i : mask [.mem, .chk, .dmaOps,
      .dmaStops, .dmaNextOpid, .dmaLastRd, .dmaLastWr, .dmaRdEng, .dmaWrEng, .docGroups, .tiersPanels, .tiersRepairs,
      .cores, .chans, .fabPorts, .rasSources, .rasQueue, .rasOvf, .catCounters, .catRings, .catTrace, .free,
      .out] ||| m = m) :
    OnlyM m s (State.putPacket t a1 a2 a3) := by
  refine OnlyM.ofStep h ?_ i; clear h i; unfold State.putPacket
  repeat' first
    | with_reducible exact .refl _ _
    | extract_lets
    | with_reducible apply OnlyM.ite
    | (with_reducible apply State.enterRuns_only; on_goal 2 => decide)
    | (with_reducible apply State.takeLong_only; on_goal 2 => decide)
    | (with_reducible apply State.sendData_only; on_goal 2 => decide)
    | (with_reducible apply State.count_only; on_goal 2 => decide)
    | (with_reducible apply State.updDma_only; on_goal 2 => decide)
    | with_reducible apply OnlyP.fst

theorem State.closeGallery_only {m : Nat} {s t : State} {a1} (h : OnlyM m s t) (i : mask [.fabWindows] ||| m = m) :
    OnlyM m s (State.closeGallery t a1) := by
  refine OnlyM.ofStep h ?_ i; clear h i; unfold State.closeGallery
  repeat' first
    | with_reducible exact .refl _ _
    | extract_lets
    | intro _
    | (with_reducible apply State.closeWindow_only; on_goal 2 => decide)
    | with_reducible apply OnlyM.foldl

theorem State.collGroup_only {m : Nat} {s t : State} {a1} (h : OnlyM m s t) (i : mask [.catCounters] ||| m = m) :
    OnlyP m s (State.collGroup t a1) := by
  refine OnlyP.ofStep h ?_ i; clear h i; unfold State.collGroup
  repeat' first
    | with_reducible exact .refl _ _
    | extract_lets
    | with_reducible apply OnlyP.ite
    | (with_reducible apply State.count_only; on_goal 2 => decide)
    | split
    | with_reducible apply OnlyP.mk'

theorem State.setArrival_only {m : Nat} {s t : State} {a1} (h : OnlyM m s t) (i : mask [.fabArrivals] ||| m = m) :
    OnlyM m s (State.setArrival t a1) := by
  refine OnlyM.ofStep h ?_ i; clear h i; unfold State.setArrival
  repeat' first
    | with_reducible exact .refl _ _
    | extract_lets
    | fail_if_no_progress (with_reducible apply OnlyM.lit_fabArrivals; on_goal 2 => decide)

theorem State.sendColl_only {m : Nat} {s t : State} {a1 a2 a3 n a4 a5} (h : OnlyM m s t) (i : mask [.docGroups, .fabPorts,
      .catCounters, .catRings, .catTrace, .free, .out] ||| m = m) :
    OnlyP m s (State.sendColl t a1 a2 a3 n a4 a5) := by
  refine OnlyP.ofStep h (?_ : OnlyP (mask [.docGroups, .fabPorts, .catCounters, .catRings, .catTrace, .free,
      .out]) t (State.sendColl t a1 a2 a3 n a4 a5)) i; clear h i
  suffices k : ∀ s, OnlyM (mask [.docGroups, .fabPorts, .catCounters, .catRings, .catTrace, .free,
      .out]) s t → OnlyP (mask [.docGroups, .fabPorts, .catCounters, .catRings, .catTrace, .free,
      .out]) s (State.sendColl t a1 a2 a3 n a4 a5) from k t (.refl _ _)
  induction n generalizing t a4 a5 with
  | zero => intro s h; unfold State.sendColl; exact ⟨h⟩
  | succ n ih =>
    intro s h; unfold State.sendColl
    repeat' first
    | with_reducible apply ih
    | with_reducible assumption
    | extract_lets l1 l2 l3
    | with_reducible apply OnlyP.ite
    | (with_reducible apply State.sendData_only; on_goal 2 => decide)
    | with_reducible apply OnlyP.fst
    | unfold l3
    | unfold l2
    | unfold l1
    | with_reducible apply OnlyP.mk'

theorem State.openSlot_only {m : Nat} {s t : State} {a1} (h : OnlyM m s t) (i : mask [.docGroups, .tiersPanels,
      .tiersRepairs, .fabPorts, .fabColls, .fabSentSlots, .rasSources, .rasQueue, .rasOvf, .catCounters, .catRings,
      .catTrace, .free, .out] ||| m = m) :
    OnlyM m s (State.openSlot t a1) := by
  refine OnlyM.ofStep h ?_ i; clear h i; unfold State.openSlot
  repeat' first
    | with_reducible exact .refl _ _
    | extract_lets l1 l2 l3
    | intro _
    | with_reducible apply OnlyM.ite
    | (with_reducible apply State.noteHallUse_only; on_goal 2 => decide)
    | (with_reducible apply State.sendColl_only; on_goal 2 => decide)
    | (with_reducible apply State.sendData_only; on_goal 2 => decide)
    | with_reducible apply OnlyM.foldl
    | with_reducible apply OnlyP.foldl
    | with_reducible apply OnlyP.fst
    | fail_if_no_progress (with_reducible apply OnlyM.lit_fabColls_fabSentSlots; on_goal 2 => decide)
    | split
    | unfold l3
    | unfold l2
    | unfold l1
    | with_reducible apply OnlyP.mk'

theorem State.formResult_only {m : Nat} {s t : State} {a1 a2} (h : OnlyM m s t) (i : mask [.mem, .bad, .tiersPanels,
      .tiersRepairs, .rasSources, .rasQueue, .rasOvf, .catCounters, .catRings, .catTrace, .free] ||| m = m) :
    OnlyP m s (State.formResult t a1 a2) := by
  refine OnlyP.ofStep h ?_ i; clear h i; unfold State.formResult
  repeat' first
    | with_reducible exact .refl _ _
    | extract_lets l1 l2 l3 l4 l5 l6 l7 l8 l9 l10 l11 l12 l13 l14 l15 l16 l17
    | intro _
    | with_reducible apply OnlyP.ite
    | (with_reducible apply State.hallTake_only; on_goal 2 => decide)
    | (with_reducible apply State.hallPut_only; on_goal 2 => decide)
    | (with_reducible apply State.draw_only; on_goal 2 => decide)
    | (with_reducible apply State.countLane_only; on_goal 2 => decide)
    | with_reducible apply OnlyP.foldl
    | with_reducible apply OnlyP.fst
    | split
    | unfold l17
    | unfold l16
    | unfold l15
    | unfold l14
    | unfold l13
    | unfold l12
    | unfold l11
    | unfold l10
    | unfold l9
    | unfold l8
    | unfold l7
    | unfold l6
    | unfold l5
    | unfold l4
    | unfold l3
    | unfold l2
    | unfold l1
    | with_reducible apply OnlyP.mk'

theorem State.collEnd_only {m : Nat} {s t : State} {a1 a2} (h : OnlyM m s t) (i : mask [.mem, .bad, .hifRings,
      .hifInflight, .hifFences, .docGroups, .tiersPanels, .tiersRepairs, .fabColls, .rasSources, .rasQueue, .rasOvf,
      .catCounters, .catRings, .catStarted, .catTrace, .free, .out] ||| m = m) :
    OnlyM m s (State.collEnd t a1 a2) := by
  refine OnlyM.ofStep h ?_ i; clear h i; unfold State.collEnd
  repeat' first
    | with_reducible exact .refl _ _
    | extract_lets
    | with_reducible apply OnlyM.ite
    | (with_reducible apply State.formResult_only; on_goal 2 => decide)
    | (with_reducible apply State.count_only; on_goal 2 => decide)
    | (with_reducible apply State.incident_only; on_goal 2 => decide)
    | (with_reducible apply State.complete_only; on_goal 2 => decide)
    | with_reducible apply OnlyP.fst
    | fail_if_no_progress (with_reducible apply OnlyM.lit_fabColls; on_goal 2 => decide)

theorem State.collsLost_only {m : Nat} {s t : State} (h : OnlyM m s t) (i : mask [.mem, .bad, .hifRings, .hifInflight,
      .hifFences, .docGroups, .tiersPanels, .tiersRepairs, .fabColls, .rasSources, .rasQueue, .rasOvf, .catCounters,
      .catRings, .catStarted, .catTrace, .free, .out] ||| m = m) :
    OnlyM m s (State.collsLost t) := by
  refine OnlyM.ofStep h ?_ i; clear h i; unfold State.collsLost
  repeat' first
    | with_reducible exact .refl _ _
    | extract_lets
    | intro _
    | (with_reducible apply State.collEnd_only; on_goal 2 => decide)
    | with_reducible apply OnlyM.foldl

theorem State.carLoadStart_only {m : Nat} {s t : State} {a1} (h : OnlyM m s t) (i : mask [.fabCarLoads, .catRings,
      .catStarted, .catTrace, .free, .out] ||| m = m) :
    OnlyM m s (State.carLoadStart t a1) := by
  refine OnlyM.ofStep h ?_ i; clear h i; unfold State.carLoadStart
  repeat' first
    | with_reducible exact .refl _ _
    | extract_lets
    | with_reducible apply OnlyM.ite
    | (with_reducible apply State.opEvent_only; on_goal 2 => decide)
    | (with_reducible apply State.hostRead_only; on_goal 2 => decide)
    | fail_if_no_progress (with_reducible apply OnlyM.lit_fabCarLoads; on_goal 2 => decide)
    | split

theorem State.acceptCarLoad_only {m : Nat} {s t : State} {a1 a2} (h : OnlyM m s t) (i : mask [.hifRings, .hifInflight,
      .hifFences, .docGroups, .fabCarLoads, .catCounters, .catRings, .catStarted, .catTrace, .nextOp, .free,
      .out] ||| m = m) :
    OnlyM m s (State.acceptCarLoad t a1 a2) := by
  refine OnlyM.ofStep h ?_ i; clear h i; unfold State.acceptCarLoad
  repeat' first
    | with_reducible exact .refl _ _
    | extract_lets
    | intro _
    | (with_reducible apply State.accept_only; on_goal 2 => decide)
    | (with_reducible apply State.carLoadStart_only; on_goal 2 => decide)

theorem State.collStart_only {m : Nat} {s t : State} {a1} (h : OnlyM m s t) (i : mask [.mem, .bad, .hifRings, .hifInflight,
      .hifFences, .docGroups, .tiersPanels, .tiersRepairs, .fabColls, .rasSources, .rasQueue, .rasOvf, .catCounters,
      .catRings, .catStarted, .catTrace, .free, .out] ||| m = m) :
    OnlyM m s (State.collStart t a1) := by
  refine OnlyM.ofStep h ?_ i; clear h i; unfold State.collStart
  repeat' first
    | with_reducible exact .refl _ _
    | extract_lets
    | with_reducible apply OnlyM.ite
    | (with_reducible apply State.countIf_only; on_goal 2 => decide)
    | (with_reducible apply State.opEvent_only; on_goal 2 => decide)
    | (with_reducible apply State.collEnd_only; on_goal 2 => decide)
    | fail_if_no_progress (with_reducible apply OnlyM.lit_fabColls; on_goal 2 => decide)
    | split

theorem State.acceptColl_only {m : Nat} {s t : State} {a1 a2} (h : OnlyM m s t) (i : mask [.mem, .bad, .hifRings,
      .hifInflight, .hifFences, .docGroups, .tiersPanels, .tiersRepairs, .fabColls, .rasSources, .rasQueue, .rasOvf,
      .catCounters, .catRings, .catStarted, .catTrace, .nextOp, .free, .out] ||| m = m) :
    OnlyM m s (State.acceptColl t a1 a2) := by
  refine OnlyM.ofStep h ?_ i; clear h i; unfold State.acceptColl
  repeat' first
    | with_reducible exact .refl _ _
    | extract_lets
    | intro _
    | (with_reducible apply State.accept_only; on_goal 2 => decide)
    | (with_reducible apply State.collStart_only; on_goal 2 => decide)

theorem State.hearSync_only {m : Nat} {s t : State} {a1 a2 a3} (h : OnlyM m s t) (i : mask [.mem, .bad, .hifRings,
      .hifInflight, .hifFences, .docGroups, .tiersPanels, .tiersRepairs, .fabBeat, .fabQuiesces, .fabCarMap, .fabCarPend,
      .fabCarWait, .fabColls, .rasSources, .rasQueue, .rasOvf, .catCounters, .catRings, .catStarted, .catTrace, .free,
      .out] ||| m = m) :
    OnlyM m s (State.hearSync t a1 a2 a3) := by
  refine OnlyM.ofStep h ?_ i; clear h i; unfold State.hearSync
  repeat' first
    | with_reducible exact .refl _ _
    | extract_lets
    | with_reducible apply OnlyM.ite
    | (with_reducible apply State.syncWord_only; on_goal 2 => decide)
    | (with_reducible apply State.collsLost_only; on_goal 2 => decide)

theorem State.quiesceStart_only {m : Nat} {s t : State} {a1} (h : OnlyM m s t) (i : mask [.fabPorts, .fabBeat, .fabLinks,
      .fabPlanes, .fabSeen, .fabSerial, .fabPendNotices, .fabQuiesces, .fabMacSend, .catCounters, .catRings, .catTrace,
      .free, .out] ||| m = m) :
    OnlyM m s (State.quiesceStart t a1) := by
  refine OnlyM.ofStep h ?_ i; clear h i; unfold State.quiesceStart
  repeat' first
    | with_reducible exact .refl _ _
    | extract_lets
    | (with_reducible apply State.raiseNotice_only; on_goal 2 => decide)
    | fail_if_no_progress (with_reducible apply OnlyM.lit_fabQuiesces; on_goal 2 => decide)

theorem State.acceptQuiesce_only {m : Nat} {s t : State} {a1 a2} (h : OnlyM m s t) (i : mask [.hifRings, .hifInflight,
      .hifFences, .docGroups, .fabPorts, .fabBeat, .fabLinks, .fabPlanes, .fabSeen, .fabSerial, .fabPendNotices,
      .fabQuiesces, .fabMacSend, .catCounters, .catRings, .catStarted, .catTrace, .nextOp, .free, .out] ||| m = m) :
    OnlyM m s (State.acceptQuiesce t a1 a2) := by
  refine OnlyM.ofStep h ?_ i; clear h i; unfold State.acceptQuiesce
  repeat' first
    | with_reducible exact .refl _ _
    | extract_lets
    | intro _
    | (with_reducible apply State.accept_only; on_goal 2 => decide)
    | (with_reducible apply State.quiesceStart_only; on_goal 2 => decide)

theorem State.bringMap_only {m : Nat} {s t : State} {a1} (h : OnlyM m s t) (i : mask [.fabCarMap, .fabCarPend,
      .fabCarWait] ||| m = m) :
    OnlyM m s (State.bringMap t a1) := by
  refine OnlyM.ofStep h ?_ i; clear h i; unfold State.bringMap
  repeat' first
    | with_reducible exact .refl _ _
    | extract_lets
    | with_reducible apply OnlyM.ite
    | fail_if_no_progress (with_reducible apply OnlyM.lit_fabCarMap_fabCarPend_fabCarWait; on_goal 2 => decide)
    | split

theorem State.quiesceTake_only {m : Nat} {s t : State} (h : OnlyM m s t) (i : mask [.hifRings, .hifInflight, .hifFences,
      .docGroups, .cores, .plinths, .fabPorts, .fabLinks, .fabPlanes, .fabPendNotices, .fabQuiesces, .fabMacSend,
      .fabCarMap, .fabCarPend, .fabCarWait, .catCounters, .catRings, .catStarted, .catTrace, .free, .out] ||| m = m) :
    OnlyM m s (State.quiesceTake t) := by
  refine OnlyM.ofStep h ?_ i; clear h i; unfold State.quiesceTake
  repeat' first
    | with_reducible exact .refl _ _
    | extract_lets
    | intro _
    | with_reducible apply OnlyM.ite
    | (with_reducible apply State.bringMap_only; on_goal 2 => decide)
    | (with_reducible apply State.returnPorts_only; on_goal 2 => decide)
    | (with_reducible apply State.dueNotices_only; on_goal 2 => decide)
    | (with_reducible apply State.beginSwitches_only; on_goal 2 => decide)
    | (with_reducible apply State.complete_only; on_goal 2 => decide)
    | with_reducible apply OnlyM.foldl
    | fail_if_no_progress (with_reducible apply OnlyM.lit_fabQuiesces; on_goal 2 => decide)

theorem State.markUnlocked_only {m : Nat} {s t : State} (h : OnlyM m s t) (i : mask [.fabColls] ||| m = m) :
    OnlyM m s (State.markUnlocked t) := by
  refine OnlyM.ofStep h ?_ i; clear h i; unfold State.markUnlocked
  repeat' first
    | with_reducible exact .refl _ _
    | extract_lets
    | with_reducible apply OnlyM.ite
    | fail_if_no_progress (with_reducible apply OnlyM.lit_fabColls; on_goal 2 => decide)

theorem State.clearSlices_only {m : Nat} {s t : State} (h : OnlyM m s t) (i : mask [.fabArrivals] ||| m = m) :
    OnlyM m s (State.clearSlices t) := by
  refine OnlyM.ofStep h ?_ i; clear h i; unfold State.clearSlices
  repeat' first
    | with_reducible exact .refl _ _
    | extract_lets
    | fail_if_no_progress (with_reducible apply OnlyM.lit_fabArrivals; on_goal 2 => decide)

end Sys2Proof.Machine
end

