-- ==== Sys2Proof/Laws/OnlyControl.lean ====
section
/-! SUPPORT. What each operation over steps, the Catalogue, the beat, start-up, management and the registers may write. -/

set_option linter.tactic.unusedName false
set_option maxRecDepth 4000

namespace Sys2Proof.Machine

theorem State.issueSlot_only {m : Nat} {s t : State} {a1 a2 a3 a4} (h : OnlyM m s t) (i : mask [.hifRings, .hifInflight,
      .hifFences, .docGroups, .tiersPanels, .tiersRepairs, .cores, .rasSources, .rasQueue, .rasOvf, .catCounters,
      .catRings, .catStarted, .catTrace, .nextOp, .free, .out] ||| m = m) :
    OnlyM m s (State.issueSlot t a1 a2 a3 a4) := by
  refine OnlyM.ofStep h ?_ i; clear h i; unfold State.issueSlot
  repeat' first
    | with_reducible exact .refl _ _
    | extract_lets
    | intro _
    | (with_reducible apply State.homeCore_only; on_goal 2 => decide)
    | (with_reducible apply State.acceptAttnPages_only; on_goal 2 => decide)
    | with_reducible apply OnlyM.foldl
    | with_reducible apply OnlyP.fst
    | split

theorem State.countVoid_only {m : Nat} {s t : State} {a1} (h : OnlyM m s t) (i : mask [.catCounters] ||| m = m) :
    OnlyM m s (State.countVoid t a1) := by
  refine OnlyM.ofStep h ?_ i; clear h i; unfold State.countVoid
  repeat' first
    | with_reducible exact .refl _ _
    | extract_lets
    | intro _
    | with_reducible apply OnlyM.ite
    | (with_reducible apply State.countSub_only; on_goal 2 => decide)
    | with_reducible apply OnlyM.foldl

theorem State.issueLine_only {m : Nat} {s t : State} {a1 a2} (h : OnlyM m s t) (i : mask [.mem, .bad, .hifRings,
      .hifInflight, .hifFences, .dmaOps, .dmaStops, .docGroups, .tiersObjs, .tiersPanels, .tiersMaps, .tiersMigs,
      .tiersT0used, .tiersRepairs, .tiersWriteQ, .tiersObjRun, .tiersObjWait, .cores, .plinths, .fabColls, .rasSources,
      .rasQueue, .rasOvf, .catCounters, .catRings, .catWaits, .catStarted, .catTrace, .hubOps, .nextOp, .free,
      .out] ||| m = m) :
    OnlyM m s (State.issueLine t a1 a2) := by
  refine OnlyM.ofStep h ?_ i; clear h i; unfold State.issueLine
  repeat' first
    | with_reducible exact .refl _ _
    | extract_lets
    | (with_reducible apply State.acceptCopy_only; on_goal 2 => decide)
    | (with_reducible apply State.acceptFill_only; on_goal 2 => decide)
    | (with_reducible apply State.acceptCompare_only; on_goal 2 => decide)
    | (with_reducible apply State.acceptGather_only; on_goal 2 => decide)
    | (with_reducible apply State.acceptStrided_only; on_goal 2 => decide)
    | (with_reducible apply State.acceptTranspose_only; on_goal 2 => decide)
    | (with_reducible apply State.acceptT24_only; on_goal 2 => decide)
    | (with_reducible apply State.acceptDmaStop_only; on_goal 2 => decide)
    | (with_reducible apply State.acceptTile_only; on_goal 2 => decide)
    | (with_reducible apply State.acceptTileBs_only; on_goal 2 => decide)
    | (with_reducible apply State.acceptAttn_only; on_goal 2 => decide)
    | (with_reducible apply State.acceptColl_only; on_goal 2 => decide)
    | (with_reducible apply State.acceptAddnorm_only; on_goal 2 => decide)
    | (with_reducible apply State.acceptConvert_only; on_goal 2 => decide)
    | (with_reducible apply State.acceptBcast_only; on_goal 2 => decide)
    | (with_reducible apply State.acceptMerge_only; on_goal 2 => decide)
    | (with_reducible apply State.acceptPsum_only; on_goal 2 => decide)
    | (with_reducible apply State.acceptSample_only; on_goal 2 => decide)
    | split

theorem State.issueMember_only {m : Nat} {s t : State} {a1 a2 a3} (h : OnlyM m s t) (i : mask [.mem, .bad, .hifRings,
      .hifInflight, .hifFences, .hifOwedVecs, .dmaOps, .dmaStops, .docCtxs, .docGroups, .curFrames, .curRetired,
      .tiersObjs, .tiersPanels, .tiersMaps, .tiersMigs, .tiersT0used, .tiersRepairs, .tiersWriteQ, .tiersObjRun,
      .tiersObjWait, .cores, .plinths, .fabColls, .rasSources, .rasQueue, .rasOvf, .catCounters, .catRings, .catWaits,
      .catStarted, .catTrace, .hubOps, .nextOp, .free, .out] ||| m = m) :
    OnlyM m s (State.issueMember t a1 a2 a3) := by
  refine OnlyM.ofStep h ?_ i; clear h i; unfold State.issueMember
  repeat' first
    | with_reducible exact .refl _ _
    | extract_lets
    | intro _
    | with_reducible apply OnlyM.ite
    | (with_reducible apply State.checkTables_only; on_goal 2 => decide)
    | (with_reducible apply State.issueSlot_only; on_goal 2 => decide)
    | (with_reducible apply State.issueLine_only; on_goal 2 => decide)
    | with_reducible apply OnlyM.foldl
    | with_reducible apply OnlyP.fst

theorem State.issueOp_only {m : Nat} {s t : State} {a1 a2} (h : OnlyM m s t) (i : mask [.mem, .bad, .hifRings,
      .hifInflight, .hifFences, .hifOwedVecs, .dmaOps, .dmaStops, .docCtxs, .docGroups, .curFrames, .curRetired,
      .tiersObjs, .tiersPanels, .tiersMaps, .tiersMigs, .tiersT0used, .tiersRepairs, .tiersWriteQ, .tiersObjRun,
      .tiersObjWait, .cores, .plinths, .fabColls, .rasSources, .rasQueue, .rasOvf, .catCounters, .catRings, .catWaits,
      .catStarted, .catTrace, .hubOps, .nextOp, .free, .out] ||| m = m) :
    OnlyM m s (State.issueOp t a1 a2) := by
  refine OnlyM.ofStep h ?_ i; clear h i; unfold State.issueOp
  repeat' first
    | with_reducible exact .refl _ _
    | extract_lets
    | intro _
    | with_reducible apply OnlyM.ite
    | (with_reducible apply State.issueMember_only; on_goal 2 => decide)
    | (with_reducible apply State.issueLine_only; on_goal 2 => decide)
    | with_reducible apply OnlyM.foldl

theorem State.stepWrite_only {m : Nat} {s t : State} {a1 a2} (h : OnlyM m s t) (i : mask [.mem, .chk, .hifOwedVecs,
      .docCtxs, .docGroups, .curPages, .curFrames, .curMaps, .curLimbo, .curCows, .curForks, .curMoves, .curLost,
      .curLostCtx, .curRetired, .curStaged, .curFreed, .curFresh, .tiersPanels, .tiersRepairs, .cores, .chans, .rasSources,
      .rasQueue, .rasOvf, .catCounters, .catRings, .catTrace, .free, .out] ||| m = m) :
    OnlyM m s (State.stepWrite t a1 a2) := by
  refine OnlyM.ofStep h ?_ i; clear h i; unfold State.stepWrite
  repeat' first
    | with_reducible exact .refl _ _
    | extract_lets
    | with_reducible apply OnlyM.ite
    | (with_reducible apply State.checkTables_only; on_goal 2 => decide)
    | (with_reducible apply State.tokenWrite_only; on_goal 2 => decide)
    | (with_reducible apply State.updGroup_only; on_goal 2 => decide)
    | with_reducible apply OnlyP.fst
    | split

theorem State.stepPrompt_only {m : Nat} {s t : State} {a1 a2} (h : OnlyM m s t) (i : mask [.docCtxs, .docAppends] ||| m = m) :
    OnlyP m s (State.stepPrompt t a1 a2) := by
  refine OnlyP.ofStep h ?_ i; clear h i; unfold State.stepPrompt
  repeat' first
    | with_reducible exact .refl _ _
    | extract_lets l1 l2 l3 l4 l5
    | (with_reducible apply State.setCtx_only; on_goal 2 => decide)
    | fail_if_no_progress (with_reducible apply OnlyM.lit_docAppends; on_goal 2 => decide)
    | unfold l5
    | unfold l4
    | unfold l3
    | unfold l2
    | unfold l1
    | with_reducible apply OnlyP.mk'

theorem State.memberEnd_only {m : Nat} {s t : State} {g a} (h : OnlyM m s t) (i : mask [.docCtxs, .docAppends, .curFrames,
      .curMaps, .free] ||| m = m) :
    OnlyP m s (State.memberEnd t g a) := by
  refine OnlyP.ofStep h ?_ i; clear h i; unfold State.memberEnd
  extract_lets k gives s1 p s2
  have h1 : OnlyM (mask [.docCtxs, .docAppends, .curFrames, .curMaps,
      .free]) t s1 := OnlyM.foldl (State.setKvMap_only (.refl _ _) (by decide))
    (fun u x => State.returnFrame_only (.refl _ _) (by decide))
  clear_value s1
  have hp : OnlyP (mask [.docCtxs, .docAppends, .curFrames, .curMaps,
      .free]) t p := OnlyP.ite (State.stepPrompt_only h1 (by decide)) ⟨h1⟩
  clear_value p
  have h2 : OnlyM (mask [.docCtxs, .docAppends, .curFrames, .curMaps, .free]) t s2 := hp.fst
  clear_value s2
  constructor
  exact OnlyM.ite (State.draw_only h2 (by decide)) h2

theorem State.stepRecords_only {m : Nat} {s t : State} {a1 a2 a3 a4} (h : OnlyM m s t) (i : mask [.hifRings, .hifInflight,
      .hifFences, .hifOwedVecs, .docCtxs, .docAppends, .docCancels, .docGroups, .catCounters, .catRings, .catStarted,
      .catTrace, .free, .out] ||| m = m) :
    OnlyM m s (State.stepRecords t a1 a2 a3 a4) := by
  refine OnlyM.ofStep h ?_ i; clear h i; unfold State.stepRecords
  repeat' first
    | with_reducible exact .refl _ _
    | extract_lets _ _ _ _ _ l6 _ l8
    | (with_reducible apply State.completeAll_only; on_goal 2 => decide)
    | (with_reducible apply State.notice_only; on_goal 2 => decide)
    | (with_reducible apply State.setCtx_only; on_goal 2 => decide)
    | (with_reducible apply State.writeAnswer_only; on_goal 2 => decide)
    | (with_reducible apply State.endRecord_only; on_goal 2 => decide)
    | (with_reducible apply State.takeCancels_only; on_goal 2 => decide)
    | (with_reducible apply State.flushAppends_only; on_goal 2 => decide)
    | split
    | unfold l8
    | unfold l6

theorem State.readImage_only {m : Nat} {s t : State} {a1 a2} (h : OnlyM m s t) (i : mask [.dmaOps, .dmaStops, .dmaNextOpid,
      .dmaLastRd, .dmaLastWr, .dmaRdEng, .dmaWrEng, .docGroups, .tiersPanels, .tiersRepairs, .fabPorts, .rasSources,
      .rasQueue, .rasOvf, .catCounters, .catRings, .catTrace, .free, .out] ||| m = m) :
    OnlyP m s (State.readImage t a1 a2) := by
  refine OnlyP.ofStep h ?_ i; clear h i; unfold State.readImage
  repeat' first
    | with_reducible exact .refl _ _
    | extract_lets l1 l2 l3
    | with_reducible apply OnlyP.ite
    | (with_reducible apply State.takeLong_only; on_goal 2 => decide)
    | with_reducible apply OnlyP.fst
    | split
    | unfold l3
    | unfold l2
    | unfold l1
    | with_reducible apply OnlyP.mk'

theorem State.progStart_only {m : Nat} {s t : State} {a0 a2} (h : OnlyM m s t) (i : mask [.hifRings, .hifInflight,
      .hifFences, .docProgs, .docGroups, .tiersObjs, .catCounters, .catRings, .catStarted, .catTrace, .free,
      .out] ||| m = m) :
    OnlyM m s (State.progStart a0 t a2) := by
  refine OnlyM.ofStep h ?_ i; clear h i; unfold State.progStart
  repeat' first
    | with_reducible exact .refl _ _
    | extract_lets _ l2
    | with_reducible apply OnlyM.ite
    | (with_reducible apply State.pinObj_only; on_goal 2 => decide)
    | (with_reducible apply State.complete_only; on_goal 2 => decide)
    | fail_if_no_progress (with_reducible apply OnlyM.lit_docProgs; on_goal 2 => decide)
    | split
    | unfold l2

theorem State.acceptProgLoad_only {m : Nat} {s t : State} {a1 a2 a3} (h : OnlyM m s t) (i : mask [.hifRings, .hifInflight,
      .hifFences, .dmaOps, .dmaStops, .dmaNextOpid, .dmaLastRd, .dmaLastWr, .dmaRdEng, .dmaWrEng, .docProgs, .docGroups,
      .tiersObjs, .tiersPanels, .tiersRepairs, .fabPorts, .rasSources, .rasQueue, .rasOvf, .catCounters, .catRings,
      .catStarted, .catTrace, .nextOp, .free, .out] ||| m = m) :
    OnlyM m s (State.acceptProgLoad t a1 a2 a3) := by
  refine OnlyM.ofStep h ?_ i; clear h i; unfold State.acceptProgLoad
  repeat' first
    | with_reducible exact .refl _ _
    | extract_lets
    | intro _
    | with_reducible apply OnlyP.ite
    | (with_reducible apply State.readImage_only; on_goal 2 => decide)
    | (with_reducible apply State.accept_only; on_goal 2 => decide)
    | (with_reducible apply State.progStart_only; on_goal 2 => decide)
    | with_reducible apply OnlyP.fst
    | with_reducible apply OnlyP.mk'

theorem State.stopTrace_only {m : Nat} {s t : State} {a1} (h : OnlyM m s t) (i : mask [.catTrace] ||| m = m) :
    OnlyM m s (State.stopTrace t a1) := by
  refine OnlyM.ofStep h ?_ i; clear h i; unfold State.stopTrace
  repeat' first
    | with_reducible exact .refl _ _
    | extract_lets
    | fail_if_no_progress (with_reducible apply OnlyM.lit_catTrace; on_goal 2 => decide)

theorem State.putTrace_only {m : Nat} {s t : State} {a1} (h : OnlyM m s t) (i : mask [.mem, .bad, .rasSources, .rasQueue,
      .rasOvf, .catRings, .catTrace, .free] ||| m = m) :
    OnlyM m s (State.putTrace t a1) := by
  refine OnlyM.ofStep h ?_ i; clear h i; unfold State.putTrace
  repeat' first
    | with_reducible exact .refl _ _
    | extract_lets
    | (with_reducible apply State.writeHall_only; on_goal 2 => decide)
    | fail_if_no_progress (with_reducible apply OnlyM.lit_catTrace; on_goal 2 => decide)

theorem State.settleTrace_only {m : Nat} {s t : State} (h : OnlyM m s t) (i : mask [.catTrace] ||| m = m) :
    OnlyM m s (State.settleTrace t) := by
  refine OnlyM.ofStep h ?_ i; clear h i; unfold State.settleTrace
  repeat' first
    | with_reducible exact .refl _ _
    | extract_lets
    | with_reducible apply OnlyM.ite
    | (with_reducible apply State.stopTrace_only; on_goal 2 => decide)

theorem State.fireTrigger_only {m : Nat} {s t : State} {a1} (h : OnlyM m s t) (i : mask [.mem, .bad, .rasSources,
      .rasQueue, .rasOvf, .catRings, .catFrozen, .catFcause, .catTrace, .free] ||| m = m) :
    OnlyM m s (State.fireTrigger t a1) := by
  refine OnlyM.ofStep h ?_ i; clear h i; unfold State.fireTrigger
  repeat' first
    | with_reducible exact .refl _ _
    | extract_lets _ _ _ l4
    | with_reducible apply OnlyM.ite
    | (with_reducible apply State.putTrace_only; on_goal 2 => decide)
    | (with_reducible apply State.settleTrace_only; on_goal 2 => decide)
    | (with_reducible apply State.freezeRings_only; on_goal 2 => decide)
    | fail_if_no_progress (with_reducible apply OnlyM.lit_catTrace; on_goal 2 => decide)
    | split
    | unfold l4

theorem State.setSnap_only {m : Nat} {s t : State} {a1 a2} (h : OnlyM m s t) (i : mask [.catSnaps] ||| m = m) :
    OnlyM m s (State.setSnap t a1 a2) := by
  refine OnlyM.ofStep h ?_ i; clear h i; unfold State.setSnap
  repeat' first
    | with_reducible exact .refl _ _
    | extract_lets
    | fail_if_no_progress (with_reducible apply OnlyM.lit_catSnaps; on_goal 2 => decide)

theorem State.retrigger_only {m : Nat} {s t : State} (h : OnlyM m s t) (i : mask [.catTrace] ||| m = m) :
    OnlyM m s (State.retrigger t) := by
  refine OnlyM.ofStep h ?_ i; clear h i; unfold State.retrigger
  repeat' first
    | with_reducible exact .refl _ _
    | extract_lets
    | fail_if_no_progress (with_reducible apply OnlyM.lit_catTrace; on_goal 2 => decide)

theorem State.followTrace_only {m : Nat} {s t : State} {a1} (h : OnlyM m s t) (i : mask [.mem, .bad, .rasSources,
      .rasQueue, .rasOvf, .catRings, .catTrace, .free] ||| m = m) :
    OnlyM m s (State.followTrace t a1) := by
  refine OnlyM.ofStep h ?_ i; clear h i; unfold State.followTrace
  repeat' first
    | with_reducible exact .refl _ _
    | extract_lets
    | with_reducible apply OnlyM.ite
    | (with_reducible apply State.stopTrace_only; on_goal 2 => decide)
    | (with_reducible apply State.settleTrace_only; on_goal 2 => decide)
    | (with_reducible apply State.putTrace_only; on_goal 2 => decide)

theorem State.writeGap_only {m : Nat} {s t : State} {a1} (h : OnlyM m s t) (i : mask [.mem, .bad, .rasSources, .rasQueue,
      .rasOvf, .catRings, .catTrace, .free] ||| m = m) :
    OnlyM m s (State.writeGap t a1) := by
  refine OnlyM.ofStep h ?_ i; clear h i; unfold State.writeGap
  repeat' first
    | with_reducible exact .refl _ _
    | extract_lets
    | with_reducible apply OnlyM.ite
    | (with_reducible apply State.followTrace_only; on_goal 2 => decide)
    | fail_if_no_progress (with_reducible apply OnlyM.lit_catTrace; on_goal 2 => decide)

theorem State.takeTrace_only {m : Nat} {s t : State} {a1} (h : OnlyM m s t) (i : mask [.mem, .bad, .rasSources, .rasQueue,
      .rasOvf, .catRings, .catFrozen, .catFcause, .catTrace, .free] ||| m = m) :
    OnlyM m s (State.takeTrace t a1) := by
  refine OnlyM.ofStep h ?_ i; clear h i; unfold State.takeTrace
  repeat' first
    | with_reducible exact .refl _ _
    | extract_lets
    | with_reducible apply OnlyM.ite
    | (with_reducible apply State.writeGap_only; on_goal 2 => decide)
    | (with_reducible apply State.fireTrigger_only; on_goal 2 => decide)
    | (with_reducible apply State.followTrace_only; on_goal 2 => decide)
    | (with_reducible apply State.retrigger_only; on_goal 2 => decide)
    | split

theorem State.traceCommand_only {m : Nat} {s t : State} {a1 a2} (h : OnlyM m s t) (i : mask [.mem, .bad, .ctlWerr,
      .rasSources, .rasQueue, .rasOvf, .catRings, .catFrozen, .catFcause, .catTrace, .free] ||| m = m) :
    OnlyM m s (State.traceCommand t a1 a2) := by
  refine OnlyM.ofStep h ?_ i; clear h i; unfold State.traceCommand
  repeat' first
    | with_reducible exact .refl _ _
    | extract_lets
    | with_reducible apply OnlyM.ite
    | (with_reducible apply State.refuseWrite_only; on_goal 2 => decide)
    | (with_reducible apply State.stopTrace_only; on_goal 2 => decide)
    | (with_reducible apply State.fireTrigger_only; on_goal 2 => decide)
    | (with_reducible apply State.retrigger_only; on_goal 2 => decide)
    | fail_if_no_progress (with_reducible apply OnlyM.lit_catTrace; on_goal 2 => decide)
    | split

theorem State.traceCommandIs_only {m : Nat} {s t : State} {a1 a2 a3} (h : OnlyM m s t) (i : mask [.mem, .bad, .ctlWerr,
      .rasSources, .rasQueue, .rasOvf, .catRings, .catFrozen, .catFcause, .catTrace, .free] ||| m = m) :
    OnlyM m s (State.traceCommandIs t a1 a2 a3) := by
  refine OnlyM.ofStep h ?_ i; clear h i; unfold State.traceCommandIs
  repeat' first
    | with_reducible exact .refl _ _
    | extract_lets
    | with_reducible apply OnlyM.ite
    | (with_reducible apply State.traceCommand_only; on_goal 2 => decide)

theorem State.mark_only {m : Nat} {s t : State} {a1} (h : OnlyM m s t) (i : mask [.catRings, .catTrace, .free] ||| m = m) :
    OnlyM m s (State.mark t a1) := by
  refine OnlyM.ofStep h ?_ i; clear h i; unfold State.mark
  repeat' first
    | with_reducible exact .refl _ _
    | (with_reducible apply State.event_only; on_goal 2 => decide)

theorem State.freezeForDump_only {m : Nat} {s t : State} (h : OnlyM m s t) (i : mask [.catFrozen, .catFcause,
      .catDumpFroze] ||| m = m) :
    OnlyM m s (State.freezeForDump t) := by
  refine OnlyM.ofStep h ?_ i; clear h i; unfold State.freezeForDump
  repeat' first
    | with_reducible exact .refl _ _
    | extract_lets
    | with_reducible apply OnlyM.ite
    | (with_reducible apply State.freezeRings_only; on_goal 2 => decide)
    | fail_if_no_progress (with_reducible apply OnlyM.lit_catDumpFroze; on_goal 2 => decide)

theorem State.thawRings_only {m : Nat} {s t : State} (h : OnlyM m s t) (i : mask [.catFrozen, .catWdQuiet] ||| m = m) :
    OnlyM m s (State.thawRings t) := by
  refine OnlyM.ofStep h ?_ i; clear h i; unfold State.thawRings
  repeat' first
    | with_reducible exact .refl _ _
    | extract_lets
    | fail_if_no_progress (with_reducible apply OnlyM.lit_catFrozen_catWdQuiet; on_goal 2 => decide)

theorem State.readCommand_only {m : Nat} {s t : State} {a1 a2} (h : OnlyM m s t) (i : mask [.ctlWerr, .catFrozen,
      .catFcause, .catDumpBusy, .catDumpFroze, .catWdQuiet] ||| m = m) :
    OnlyM m s (State.readCommand t a1 a2) := by
  refine OnlyM.ofStep h ?_ i; clear h i; unfold State.readCommand
  repeat' first
    | with_reducible exact .refl _ _
    | extract_lets
    | with_reducible apply OnlyM.ite
    | (with_reducible apply State.refuseWrite_only; on_goal 2 => decide)
    | (with_reducible apply State.freezeForDump_only; on_goal 2 => decide)
    | (with_reducible apply State.freezeRings_only; on_goal 2 => decide)
    | (with_reducible apply State.thawRings_only; on_goal 2 => decide)
    | fail_if_no_progress (with_reducible apply OnlyM.lit_catDumpBusy_catDumpFroze; on_goal 2 => decide)
    | split

theorem State.readCommandIs_only {m : Nat} {s t : State} {a1 a2 a3} (h : OnlyM m s t) (i : mask [.ctlWerr, .catFrozen,
      .catFcause, .catDumpBusy, .catDumpFroze, .catWdQuiet] ||| m = m) :
    OnlyM m s (State.readCommandIs t a1 a2 a3) := by
  refine OnlyM.ofStep h ?_ i; clear h i; unfold State.readCommandIs
  repeat' first
    | with_reducible exact .refl _ _
    | extract_lets
    | with_reducible apply OnlyM.ite
    | (with_reducible apply State.readCommand_only; on_goal 2 => decide)

theorem State.latchSnaps_only {m : Nat} {s t : State} (h : OnlyM m s t) (i : mask [.catSnaps] ||| m = m) :
    OnlyM m s (State.latchSnaps t) := by
  refine OnlyM.ofStep h ?_ i; clear h i; unfold State.latchSnaps
  repeat' first
    | with_reducible exact .refl _ _
    | extract_lets
    | fail_if_no_progress (with_reducible apply OnlyM.lit_catSnaps; on_goal 2 => decide)

theorem State.takeSnapshot_only {m : Nat} {s t : State} {a1} (h : OnlyM m s t) (i : mask [.ctlWerr, .catSnaps] ||| m = m) :
    OnlyM m s (State.takeSnapshot t a1) := by
  refine OnlyM.ofStep h ?_ i; clear h i; unfold State.takeSnapshot
  repeat' first
    | with_reducible exact .refl _ _
    | extract_lets
    | with_reducible apply OnlyM.ite
    | (with_reducible apply State.refuseWrite_only; on_goal 2 => decide)
    | (with_reducible apply State.setSnap_only; on_goal 2 => decide)
    | (with_reducible apply State.latchSnaps_only; on_goal 2 => decide)

theorem State.hostFault_only {m : Nat} {s t : State} {a1 a2 a3 a4 a5} (h : OnlyM m s t) (i : mask [.rasSources, .rasQueue,
      .rasOvf, .catCounters, .catRings, .catTrace, .free] ||| m = m) :
    OnlyM m s (State.hostFault t a1 a2 a3 a4 a5) := by
  refine OnlyM.ofStep h ?_ i; clear h i; unfold State.hostFault
  repeat' first
    | with_reducible exact .refl _ _
    | extract_lets
    | (with_reducible apply State.incident_only; on_goal 2 => decide)
    | (with_reducible apply State.count_only; on_goal 2 => decide)

theorem State.tokensFault_only {m : Nat} {s t : State} {a1 a2 a3} (h : OnlyM m s t) (i : mask [.hifRings, .hifInflight,
      .hifFences, .docCtxs, .docAppends, .docGroups, .rasSources, .rasQueue, .rasOvf, .catCounters, .catRings, .catStarted,
      .catTrace, .free, .out] ||| m = m) :
    OnlyM m s (State.tokensFault t a1 a2 a3) := by
  refine OnlyM.ofStep h ?_ i; clear h i; unfold State.tokensFault
  repeat' first
    | with_reducible exact .refl _ _
    | extract_lets
    | (with_reducible apply State.complete_only; on_goal 2 => decide)
    | (with_reducible apply State.dropAppend_only; on_goal 2 => decide)
    | (with_reducible apply State.hostFault_only; on_goal 2 => decide)
    | (with_reducible apply State.flushAppends_only; on_goal 2 => decide)
    | split

theorem State.refuseLine_only {m : Nat} {s t : State} {a1 a2 a3 a4} (h : OnlyM m s t) (i : mask [.hifRings, .hifInflight,
      .hifFences, .docGroups, .catCounters, .catRings, .catStarted, .catTrace, .nextOp, .free, .out] ||| m = m) :
    OnlyM m s (State.refuseLine t a1 a2 a3 a4) := by
  refine OnlyM.ofStep h ?_ i; clear h i; unfold State.refuseLine
  repeat' first
    | with_reducible exact .refl _ _
    | extract_lets
    | (with_reducible apply State.take_only; on_goal 2 => decide)
    | (with_reducible apply State.complete_only; on_goal 2 => decide)
    | with_reducible apply OnlyP.fst

theorem State.acceptLine_only {m : Nat} {s t : State} {a1 a2} (h : OnlyM m s t) (i : mask [.mem, .chk, .bad, .hifRings,
      .hifInflight, .hifFences, .dmaOps, .dmaStops, .dmaNextOpid, .dmaLastRd, .dmaLastWr, .dmaRdEng, .dmaWrEng, .docCtxs,
      .docAppends, .docPolicies, .docCancels, .docReleases, .docProgs, .docGroups, .docCgroups, .docOvercommit,
      .docSuspended, .curFrames, .curMaps, .curForks, .curMoves, .tiersObjs, .tiersPanels, .tiersMaps, .tiersMigs,
      .tiersT0used, .tiersRepairs, .tiersWriteQ, .tiersObjRun, .tiersObjWait, .cores, .fabPorts, .fabBeat, .fabLinks,
      .fabPlanes, .fabSeen, .fabSerial, .fabPendNotices, .fabQuiesces, .fabMacSend, .fabCarLoads, .fabColls, .fabWindows,
      .rasSources, .rasQueue, .rasOvf, .catCounters, .catRings, .catWaits, .catStarted, .catTrace, .hubOps, .nextOp, .free,
      .out] ||| m = m) :
    OnlyS m s (State.acceptLine t a1 a2) := by
  refine OnlyS.ofStep h ?_ i; clear h i; unfold State.acceptLine
  repeat' first
    | with_reducible exact OnlyS.none
    | with_reducible apply OnlyS.of
    | with_reducible exact .refl _ _
    | extract_lets
    | (with_reducible apply State.acceptNop_only; on_goal 2 => decide)
    | (with_reducible apply State.acceptFence_only; on_goal 2 => decide)
    | (with_reducible apply State.acceptCopy_only; on_goal 2 => decide)
    | (with_reducible apply State.acceptFill_only; on_goal 2 => decide)
    | (with_reducible apply State.acceptCompare_only; on_goal 2 => decide)
    | (with_reducible apply State.acceptGather_only; on_goal 2 => decide)
    | (with_reducible apply State.acceptStrided_only; on_goal 2 => decide)
    | (with_reducible apply State.acceptTranspose_only; on_goal 2 => decide)
    | (with_reducible apply State.acceptT24_only; on_goal 2 => decide)
    | (with_reducible apply State.acceptDmaStop_only; on_goal 2 => decide)
    | (with_reducible apply State.acceptAdmit_only; on_goal 2 => decide)
    | (with_reducible apply State.acceptAppend_only; on_goal 2 => decide)
    | (with_reducible apply State.acceptPolicy_only; on_goal 2 => decide)
    | (with_reducible apply State.acceptFork_only; on_goal 2 => decide)
    | (with_reducible apply State.acceptCancel_only; on_goal 2 => decide)
    | (with_reducible apply State.acceptRelease_only; on_goal 2 => decide)
    | (with_reducible apply State.acceptProgLoad_only; on_goal 2 => decide)
    | (with_reducible apply State.acceptBind_only; on_goal 2 => decide)
    | (with_reducible apply State.acceptUnbind_only; on_goal 2 => decide)
    | (with_reducible apply State.acceptTile_only; on_goal 2 => decide)
    | (with_reducible apply State.acceptTileBs_only; on_goal 2 => decide)
    | (with_reducible apply State.acceptAttn_only; on_goal 2 => decide)
    | (with_reducible apply State.acceptPageMove_only; on_goal 2 => decide)
    | (with_reducible apply State.acceptObjCreate_only; on_goal 2 => decide)
    | (with_reducible apply State.acceptAccession_only; on_goal 2 => decide)
    | (with_reducible apply State.acceptObjMap_only; on_goal 2 => decide)
    | (with_reducible apply State.acceptObjRelease_only; on_goal 2 => decide)
    | (with_reducible apply State.acceptMigrate_only; on_goal 2 => decide)
    | (with_reducible apply State.acceptObjPin_only; on_goal 2 => decide)
    | (with_reducible apply State.acceptObjQuery_only; on_goal 2 => decide)
    | (with_reducible apply State.acceptWinOpen_only; on_goal 2 => decide)
    | (with_reducible apply State.acceptWinClose_only; on_goal 2 => decide)
    | (with_reducible apply State.acceptWinPut_only; on_goal 2 => decide)
    | (with_reducible apply State.acceptWinGet_only; on_goal 2 => decide)
    | (with_reducible apply State.acceptColl_only; on_goal 2 => decide)
    | (with_reducible apply State.acceptQuiesce_only; on_goal 2 => decide)
    | (with_reducible apply State.acceptCarLoad_only; on_goal 2 => decide)
    | (with_reducible apply State.acceptAddnorm_only; on_goal 2 => decide)
    | split

theorem State.acceptEntry_only {m : Nat} {s t : State} {a1} (h : OnlyM m s t) (i : mask [.mem, .chk, .bad, .hifRings,
      .hifInflight, .hifFences, .dmaOps, .dmaStops, .dmaNextOpid, .dmaLastRd, .dmaLastWr, .dmaRdEng, .dmaWrEng, .docCtxs,
      .docAppends, .docPolicies, .docCancels, .docReleases, .docProgs, .docGroups, .docCgroups, .docOvercommit,
      .docSuspended, .curFrames, .curMaps, .curForks, .curMoves, .tiersObjs, .tiersPanels, .tiersMaps, .tiersMigs,
      .tiersT0used, .tiersRepairs, .tiersWriteQ, .tiersObjRun, .tiersObjWait, .cores, .fabPorts, .fabBeat, .fabLinks,
      .fabPlanes, .fabSeen, .fabSerial, .fabPendNotices, .fabQuiesces, .fabMacSend, .fabCarLoads, .fabColls, .fabWindows,
      .rasSources, .rasQueue, .rasOvf, .catCounters, .catRings, .catWaits, .catStarted, .catTrace, .hubOps, .nextOp, .free,
      .out] ||| m = m) :
    OnlyM m s (State.acceptEntry t a1) := by
  refine OnlyM.ofStep h ?_ i; clear h i; unfold State.acceptEntry
  repeat' first
    | with_reducible exact .refl _ _
    | extract_lets
    | with_reducible apply OnlyM.ite
    | (with_reducible apply State.refuseLine_only; on_goal 2 => decide)
    | (with_reducible apply State.count_only; on_goal 2 => decide)
    | (with_reducible apply State.acceptLine_only; on_goal 2 => decide)
    | with_reducible refine OnlyM.ofSome (by assumption) ?_
    | split

theorem State.acceptFetched_only {m : Nat} {s t : State} (h : OnlyM m s t) (i : mask [.mem, .chk, .bad, .hifRings,
      .hifInflight, .hifFences, .hifPoll, .dmaOps, .dmaStops, .dmaNextOpid, .dmaLastRd, .dmaLastWr, .dmaRdEng, .dmaWrEng,
      .docCtxs, .docAppends, .docPolicies, .docCancels, .docReleases, .docProgs, .docGroups, .docCgroups, .docOvercommit,
      .docSuspended, .curFrames, .curMaps, .curForks, .curMoves, .tiersObjs, .tiersPanels, .tiersMaps, .tiersMigs,
      .tiersT0used, .tiersRepairs, .tiersWriteQ, .tiersObjRun, .tiersObjWait, .cores, .fabPorts, .fabBeat, .fabLinks,
      .fabPlanes, .fabSeen, .fabSerial, .fabPendNotices, .fabQuiesces, .fabMacSend, .fabCarLoads, .fabColls, .fabWindows,
      .rasSources, .rasQueue, .rasOvf, .catCounters, .catRings, .catWaits, .catStarted, .catTrace, .hubOps, .nextOp, .free,
      .out] ||| m = m) :
    OnlyM m s (State.acceptFetched t) := by
  refine OnlyM.ofStep h ?_ i; clear h i; unfold State.acceptFetched
  repeat' first
    | with_reducible exact .refl _ _
    | extract_lets
    | intro _
    | (with_reducible apply State.acceptEntry_only; on_goal 2 => decide)
    | (with_reducible apply State.setPoll_only; on_goal 2 => decide)
    | with_reducible apply OnlyM.foldl
    | split

theorem State.entriesGone_only {m : Nat} {s t : State} {a1} (h : OnlyM m s t) (i : mask [.mem, .chk, .bad, .hifRings,
      .hifInflight, .hifFences, .hifPoll, .dmaOps, .dmaStops, .dmaNextOpid, .dmaLastRd, .dmaLastWr, .dmaRdEng, .dmaWrEng,
      .docCtxs, .docAppends, .docPolicies, .docCancels, .docReleases, .docProgs, .docGroups, .docCgroups, .docOvercommit,
      .docSuspended, .curFrames, .curMaps, .curForks, .curMoves, .tiersObjs, .tiersPanels, .tiersMaps, .tiersMigs,
      .tiersT0used, .tiersRepairs, .tiersWriteQ, .tiersObjRun, .tiersObjWait, .cores, .fabPorts, .fabBeat, .fabLinks,
      .fabPlanes, .fabSeen, .fabSerial, .fabPendNotices, .fabQuiesces, .fabMacSend, .fabCarLoads, .fabColls, .fabWindows,
      .rasSources, .rasQueue, .rasOvf, .catCounters, .catRings, .catWaits, .catStarted, .catTrace, .hubOps, .nextOp, .free,
      .out] ||| m = m) :
    OnlyM m s (State.entriesGone t a1) := by
  refine OnlyM.ofStep h ?_ i; clear h i; unfold State.entriesGone
  repeat' first
    | with_reducible exact .refl _ _
    | extract_lets
    | with_reducible apply OnlyM.ite
    | (with_reducible apply State.setPoll_only; on_goal 2 => decide)
    | (with_reducible apply State.pollSettle_only; on_goal 2 => decide)
    | (with_reducible apply State.acceptFetched_only; on_goal 2 => decide)
    | split

theorem State.stash_only {m : Nat} {s t : State} {a1} (h : OnlyM m s t) (i : mask [.hifPoll] ||| m = m) :
    OnlyM m s (State.stash t a1) := by
  refine OnlyM.ofStep h ?_ i; clear h i; unfold State.stash
  repeat' first
    | with_reducible exact .refl _ _
    | (with_reducible apply State.setPoll_only; on_goal 2 => decide)
    | split

theorem State.advance_only {m : Nat} {s t : State} {a1} (h : OnlyM m s t) (i : mask [.hifRings] ||| m = m) :
    OnlyM m s (State.advance t a1) := by
  refine OnlyM.ofStep h ?_ i; clear h i; unfold State.advance
  repeat' first
    | with_reducible exact .refl _ _
    | extract_lets
    | (with_reducible apply State.setRing_only; on_goal 2 => decide)

theorem State.fetchEntry_only {m : Nat} {s t : State} {a1 a2} (h : OnlyM m s t) (i : mask [.hifRings, .hifPoll,
      .catCounters] ||| m = m) :
    OnlyP m s (State.fetchEntry t a1 a2) := by
  refine OnlyP.ofStep h ?_ i; clear h i; unfold State.fetchEntry
  repeat' first
    | with_reducible exact .refl _ _
    | extract_lets l1
    | with_reducible apply OnlyP.ite
    | (with_reducible apply State.stash_only; on_goal 2 => decide)
    | (with_reducible apply State.advance_only; on_goal 2 => decide)
    | (with_reducible apply State.count_only; on_goal 2 => decide)
    | (with_reducible apply State.setRing_only; on_goal 2 => decide)
    | unfold l1
    | with_reducible apply OnlyP.mk'

theorem State.fetchEntries_only {m : Nat} {s t : State} {a l} (h : OnlyM m s t) (i : mask [.hifRings, .hifPoll,
      .catCounters] ||| m = m) :
    OnlyM m s (State.fetchEntries t a l) := by
  refine OnlyM.ofStep h (?_ : OnlyM (mask [.hifRings, .hifPoll, .catCounters]) t (State.fetchEntries t a l)) i; clear h i
  suffices k : ∀ s, OnlyM (mask [.hifRings, .hifPoll, .catCounters]) s t → OnlyM (mask [.hifRings, .hifPoll,
      .catCounters]) s (State.fetchEntries t a l) from k t (.refl _ _)
  induction l generalizing t with
  | nil => intro s h; unfold State.fetchEntries; exact h
  | cons b l ih =>
    intro s h; unfold State.fetchEntries
    repeat' first
    | with_reducible apply ih
    | with_reducible assumption
    | extract_lets
    | with_reducible apply OnlyM.ite
    | (with_reducible apply State.fetchEntry_only; on_goal 2 => decide)
    | with_reducible apply OnlyP.fst

theorem State.unitFault_only {m : Nat} {s t : State} {a1 a2} (h : OnlyM m s t) (i : mask [.dmaOps, .rasSources, .rasQueue,
      .rasOvf, .catCounters, .catRings, .catTrace, .free] ||| m = m) :
    OnlyM m s (State.unitFault t a1 a2) := by
  refine OnlyM.ofStep h ?_ i; clear h i; unfold State.unitFault
  repeat' first
    | with_reducible exact .refl _ _
    | extract_lets
    | with_reducible apply OnlyM.ite
    | (with_reducible apply State.dmaHostFail_only; on_goal 2 => decide)
    | (with_reducible apply State.hostFault_only; on_goal 2 => decide)
    | split

theorem State.summaryGone_only {m : Nat} {s t : State} {a1} (h : OnlyM m s t) (i : mask [.hifPoll, .catCounters,
      .out] ||| m = m) :
    OnlyM m s (State.summaryGone t a1) := by
  refine OnlyM.ofStep h ?_ i; clear h i; unfold State.summaryGone
  repeat' first
    | with_reducible exact .refl _ _
    | extract_lets
    | with_reducible apply OnlyM.ite
    | (with_reducible apply State.readDoorbells_only; on_goal 2 => decide)
    | (with_reducible apply State.setPoll_only; on_goal 2 => decide)

theorem State.summaryFault_only {m : Nat} {s t : State} {a1 a2} (h : OnlyM m s t) (i : mask [.hifPoll, .rasSources,
      .rasQueue, .rasOvf, .catCounters, .catRings, .catTrace, .free, .out] ||| m = m) :
    OnlyM m s (State.summaryFault t a1 a2) := by
  refine OnlyM.ofStep h ?_ i; clear h i; unfold State.summaryFault
  repeat' first
    | with_reducible exact .refl _ _
    | extract_lets
    | with_reducible apply OnlyM.ite
    | (with_reducible apply State.summaryGone_only; on_goal 2 => decide)
    | (with_reducible apply State.hostFault_only; on_goal 2 => decide)
    | split

theorem State.haltRing_only {m : Nat} {s t : State} {a1 a2 a3} (h : OnlyM m s t) (i : mask [.hifRings, .rasSources,
      .rasQueue, .rasOvf, .catCounters, .catRings, .catTrace, .free] ||| m = m) :
    OnlyM m s (State.haltRing t a1 a2 a3) := by
  refine OnlyM.ofStep h ?_ i; clear h i; unfold State.haltRing
  repeat' first
    | with_reducible exact .refl _ _
    | extract_lets
    | (with_reducible apply State.hostFault_only; on_goal 2 => decide)
    | (with_reducible apply State.setRing_only; on_goal 2 => decide)

theorem State.ringFault_only {m : Nat} {s t : State} {a1 a2 a3} (h : OnlyM m s t) (i : mask [.mem, .chk, .bad, .hifRings,
      .hifInflight, .hifFences, .hifPoll, .dmaOps, .dmaStops, .dmaNextOpid, .dmaLastRd, .dmaLastWr, .dmaRdEng, .dmaWrEng,
      .docCtxs, .docAppends, .docPolicies, .docCancels, .docReleases, .docProgs, .docGroups, .docCgroups, .docOvercommit,
      .docSuspended, .curFrames, .curMaps, .curForks, .curMoves, .tiersObjs, .tiersPanels, .tiersMaps, .tiersMigs,
      .tiersT0used, .tiersRepairs, .tiersWriteQ, .tiersObjRun, .tiersObjWait, .cores, .fabPorts, .fabBeat, .fabLinks,
      .fabPlanes, .fabSeen, .fabSerial, .fabPendNotices, .fabQuiesces, .fabMacSend, .fabCarLoads, .fabColls, .fabWindows,
      .rasSources, .rasQueue, .rasOvf, .catCounters, .catRings, .catWaits, .catStarted, .catTrace, .hubOps, .nextOp, .free,
      .out] ||| m = m) :
    OnlyM m s (State.ringFault t a1 a2 a3) := by
  refine OnlyM.ofStep h ?_ i; clear h i; unfold State.ringFault
  repeat' first
    | with_reducible exact .refl _ _
    | extract_lets
    | with_reducible apply OnlyM.ite
    | (with_reducible apply State.entriesGone_only; on_goal 2 => decide)
    | (with_reducible apply State.haltRing_only; on_goal 2 => decide)
    | (with_reducible apply State.doorbellGone_only; on_goal 2 => decide)
    | split

theorem State.lineFault_only {m : Nat} {s t : State} {a1 a2} (h : OnlyM m s t) (i : mask [.hifPoll, .rasSources, .rasQueue,
      .rasOvf, .catCounters, .catRings, .catTrace, .free] ||| m = m) :
    OnlyM m s (State.lineFault t a1 a2) := by
  refine OnlyM.ofStep h ?_ i; clear h i; unfold State.lineFault
  repeat' first
    | with_reducible exact .refl _ _
    | extract_lets
    | with_reducible apply OnlyM.ite
    | (with_reducible apply State.lineGone_only; on_goal 2 => decide)
    | (with_reducible apply State.hostFault_only; on_goal 2 => decide)
    | split

theorem State.imageFault_only {m : Nat} {s t : State} {a1 a2 a3} (h : OnlyM m s t) (i : mask [.hifRings, .hifInflight,
      .hifFences, .docGroups, .fabCarLoads, .rasSources, .rasQueue, .rasOvf, .catCounters, .catRings, .catStarted,
      .catTrace, .free, .out] ||| m = m) :
    OnlyM m s (State.imageFault t a1 a2 a3) := by
  refine OnlyM.ofStep h ?_ i; clear h i; unfold State.imageFault
  repeat' first
    | with_reducible exact .refl _ _
    | extract_lets
    | with_reducible apply OnlyM.ite
    | (with_reducible apply State.hostFault_only; on_goal 2 => decide)
    | (with_reducible apply State.complete_only; on_goal 2 => decide)
    | fail_if_no_progress (with_reducible apply OnlyM.lit_fabCarLoads; on_goal 2 => decide)
    | split

theorem State.panelFault_only {m : Nat} {s t : State} {a1 a2 a3} (h : OnlyM m s t) (i : mask [.hifRings, .hifInflight,
      .hifFences, .docGroups, .tiersObjs, .tiersPanels, .tiersMaps, .tiersMigs, .tiersMoving, .tiersT0used, .tiersRepairs,
      .tiersObjRun, .tiersObjWait, .rasSources, .rasQueue, .rasOvf, .catCounters, .catRings, .catStarted, .catTrace, .free,
      .out] ||| m = m) :
    OnlyM m s (State.panelFault t a1 a2 a3) := by
  refine OnlyM.ofStep h ?_ i; clear h i; unfold State.panelFault
  repeat' first
    | with_reducible exact .refl _ _
    | extract_lets
    | with_reducible apply OnlyM.ite
    | (with_reducible apply State.hostFault_only; on_goal 2 => decide)
    | (with_reducible apply State.setPanel_only; on_goal 2 => decide)
    | (with_reducible apply State.giveT0_only; on_goal 2 => decide)
    | (with_reducible apply State.migSettle_only; on_goal 2 => decide)
    | (with_reducible apply State.updMig_only; on_goal 2 => decide)
    | fail_if_no_progress (with_reducible apply OnlyM.lit_tiersMoving; on_goal 2 => decide)
    | split

theorem State.referenceFault_only {m : Nat} {s t : State} {a1 a2 a3} (h : OnlyM m s t) (i : mask [.hifRings, .hifInflight,
      .hifFences, .dmaOps, .dmaStops, .dmaNextOpid, .dmaLastRd, .dmaLastWr, .dmaRdEng, .dmaWrEng, .docGroups, .tiersObjs,
      .tiersPanels, .tiersMaps, .tiersMigs, .tiersT0used, .tiersRepairs, .tiersObjRun, .tiersObjWait, .cores, .fabPorts,
      .rasSources, .rasQueue, .rasOvf, .catCounters, .catRings, .catStarted, .catTrace, .free, .out] ||| m = m) :
    OnlyM m s (State.referenceFault t a1 a2 a3) := by
  refine OnlyM.ofStep h ?_ i; clear h i; unfold State.referenceFault
  repeat' first
    | with_reducible exact .refl _ _
    | extract_lets
    | with_reducible apply OnlyM.ite
    | (with_reducible apply State.referenceRetry_only; on_goal 2 => decide)
    | (with_reducible apply State.hostFault_only; on_goal 2 => decide)
    | split

theorem State.readFault_only {m : Nat} {s t : State} {a1 a2} (h : OnlyM m s t) (i : mask [.mem, .chk, .bad, .hifRings,
      .hifInflight, .hifFences, .hifPoll, .dmaOps, .dmaStops, .dmaNextOpid, .dmaLastRd, .dmaLastWr, .dmaRdEng, .dmaWrEng,
      .docCtxs, .docAppends, .docPolicies, .docCancels, .docReleases, .docProgs, .docGroups, .docCgroups, .docOvercommit,
      .docSuspended, .curFrames, .curMaps, .curForks, .curMoves, .tiersObjs, .tiersPanels, .tiersMaps, .tiersMigs,
      .tiersMoving, .tiersT0used, .tiersRepairs, .tiersWriteQ, .tiersObjRun, .tiersObjWait, .cores, .fabPorts, .fabBeat,
      .fabLinks, .fabPlanes, .fabSeen, .fabSerial, .fabPendNotices, .fabQuiesces, .fabMacSend, .fabCarLoads, .fabColls,
      .fabWindows, .rasSources, .rasQueue, .rasOvf, .catCounters, .catRings, .catWaits, .catStarted, .catTrace, .hubOps,
      .nextOp, .free, .out] ||| m = m) :
    OnlyM m s (State.readFault t a1 a2) := by
  refine OnlyM.ofStep h ?_ i; clear h i; unfold State.readFault
  repeat' first
    | with_reducible exact .refl _ _
    | extract_lets
    | with_reducible apply OnlyM.ite
    | (with_reducible apply State.summaryFault_only; on_goal 2 => decide)
    | (with_reducible apply State.ringFault_only; on_goal 2 => decide)
    | (with_reducible apply State.lineFault_only; on_goal 2 => decide)
    | (with_reducible apply State.tokensFault_only; on_goal 2 => decide)
    | (with_reducible apply State.unitFault_only; on_goal 2 => decide)
    | (with_reducible apply State.imageFault_only; on_goal 2 => decide)
    | (with_reducible apply State.panelFault_only; on_goal 2 => decide)
    | (with_reducible apply State.referenceFault_only; on_goal 2 => decide)
    | split

theorem State.settleOwed_only {m : Nat} {s t : State} (h : OnlyM m s t) (i : mask [.hifRings, .hifInflight, .hifFences,
      .hifOwed, .docGroups, .tiersObjs, .tiersPanels, .tiersMaps, .tiersMigs, .tiersT0used, .tiersRepairs, .tiersObjRun,
      .tiersObjWait, .catCounters, .catRings, .catStarted, .catTrace, .free, .out] ||| m = m) :
    OnlyM m s (State.settleOwed t) := by
  refine OnlyM.ofStep h ?_ i; clear h i; unfold State.settleOwed
  repeat' first
    | with_reducible exact .refl _ _
    | extract_lets
    | intro _
    | with_reducible apply OnlyM.ite
    | (with_reducible apply State.settleObjects_only; on_goal 2 => decide)
    | (with_reducible apply State.complete_only; on_goal 2 => decide)
    | with_reducible apply OnlyM.foldl
    | fail_if_no_progress (with_reducible apply OnlyM.lit_hifOwed; on_goal 2 => decide)

theorem State.boundaryPoll_only {m : Nat} {s t : State} (h : OnlyM m s t) (i : mask [.hifRings, .hifInflight, .hifFences,
      .hifPoll, .hifConsNext, .hifOwed, .docGroups, .tiersObjs, .tiersPanels, .tiersMaps, .tiersMigs, .tiersT0used,
      .tiersRepairs, .tiersObjRun, .tiersObjWait, .catCounters, .catRings, .catStarted, .catTrace, .free, .out] ||| m = m) :
    OnlyM m s (State.boundaryPoll t) := by
  refine OnlyM.ofStep h ?_ i; clear h i; unfold State.boundaryPoll
  repeat' first
    | with_reducible exact .refl _ _
    | extract_lets
    | with_reducible apply OnlyM.ite
    | (with_reducible apply State.startPoll_only; on_goal 2 => decide)
    | (with_reducible apply State.settleOwed_only; on_goal 2 => decide)

theorem State.boundaryCloses_only {m : Nat} {s t : State} (h : OnlyM m s t) (i : mask [.mem, .chk, .bad, .hifRings,
      .hifInflight, .hifFences, .hifPoll, .hifConsNext, .hifOwed, .dmaOps, .docGroups, .tiersObjs, .tiersPanels,
      .tiersMaps, .tiersMigs, .tiersT0used, .tiersRepairs, .tiersWriteQ, .tiersObjRun, .tiersObjWait, .cores, .fabPorts,
      .fabBeat, .fabWindows, .rasSources, .rasQueue, .rasOvf, .catCounters, .catRings, .catStarted, .catFrozen, .catFcause,
      .catDumpFroze, .catTrace, .free, .out] ||| m = m) :
    OnlyM m s (State.boundaryCloses t) := by
  refine OnlyM.ofStep h ?_ i; clear h i; unfold State.boundaryCloses
  repeat' first
    | with_reducible exact .refl _ _
    | extract_lets
    | with_reducible apply OnlyM.ite
    | (with_reducible apply State.winPump_only; on_goal 2 => decide)
    | (with_reducible apply State.windowsFlush_only; on_goal 2 => decide)
    | (with_reducible apply State.boundaryPoll_only; on_goal 2 => decide)
    | (with_reducible apply State.freezeForDump_only; on_goal 2 => decide)
    | (with_reducible apply State.sendSyncs_only; on_goal 2 => decide)

theorem State.openFirst_only {m : Nat} {s t : State} (h : OnlyM m s t) (i : mask [.docGroups, .tiersPanels, .tiersRepairs,
      .fabPorts, .fabColls, .fabSentSlots, .rasSources, .rasQueue, .rasOvf, .catCounters, .catRings, .catTrace, .free,
      .out] ||| m = m) :
    OnlyM m s (State.openFirst t) := by
  refine OnlyM.ofStep h ?_ i; clear h i; unfold State.openFirst
  repeat' first
    | with_reducible exact .refl _ _
    | extract_lets
    | intro _
    | (with_reducible apply State.openSlot_only; on_goal 2 => decide)
    | with_reducible apply OnlyM.foldl

theorem State.boundaryForms_only {m : Nat} {s t : State} (h : OnlyM m s t) (i : mask [.mem, .chk, .hifRings, .hifInflight,
      .hifFences, .hifOwedVecs, .docCtxs, .docAppends, .docPolicies, .docCancels, .docGroups, .docCgroups, .docNextGroup,
      .docOvercommit, .docSuspended, .curPages, .curFrames, .curMaps, .curRetired, .curFreed, .curFresh, .tiersPanels,
      .tiersRepairs, .cores, .rasSources, .rasQueue, .rasOvf, .catCounters, .catRings, .catStarted, .catTrace, .free,
      .out] ||| m = m) :
    OnlyM m s (State.boundaryForms t) := by
  refine OnlyM.ofStep h ?_ i; clear h i; unfold State.boundaryForms
  repeat' first
    | with_reducible exact .refl _ _
    | extract_lets
    | (with_reducible apply State.resumePromise_only; on_goal 2 => decide)
    | (with_reducible apply State.voidSteps_only; on_goal 2 => decide)
    | (with_reducible apply State.formGroups_only; on_goal 2 => decide)
    | (with_reducible apply State.takeCommands_only; on_goal 2 => decide)

theorem State.boundaryAccrues_only {m : Nat} {s t : State} (h : OnlyM m s t) (i : mask [.curFrames, .curLimbo, .cores,
      .chans, .plinths, .rasSources, .rasQueue, .rasOvf, .catCounters, .catRings, .catTrace, .secEvents, .free,
      .out] ||| m = m) :
    OnlyM m s (State.boundaryAccrues t) := by
  refine OnlyM.ofStep h ?_ i; clear h i; unfold State.boundaryAccrues
  repeat' first
    | with_reducible exact .refl _ _
    | extract_lets
    | (with_reducible apply State.accrueCredit_only; on_goal 2 => decide)
    | (with_reducible apply State.limboReturn_only; on_goal 2 => decide)
    | (with_reducible apply State.accrueDebt_only; on_goal 2 => decide)
    | (with_reducible apply State.evalThermal_only; on_goal 2 => decide)
    | (with_reducible apply State.openWindows_only; on_goal 2 => decide)

theorem State.ageLinks_only {m : Nat} {s t : State} (h : OnlyM m s t) (i : mask [.fabPorts, .fabSeen] ||| m = m) :
    OnlyM m s (State.ageLinks t) := by
  refine OnlyM.ofStep h ?_ i; clear h i; unfold State.ageLinks
  repeat' first
    | with_reducible exact .refl _ _
    | extract_lets
    | fail_if_no_progress (with_reducible apply OnlyM.lit_fabPorts_fabSeen; on_goal 2 => decide)

theorem State.beginHold_only {m : Nat} {s t : State} {a1} (h : OnlyM m s t) (i : mask [.mem, .chk, .bad, .ctlHoldReq,
      .ctlHolding, .hifRings, .hifInflight, .hifFences, .hifPoll, .dmaOps, .dmaStops, .dmaNextOpid, .dmaLastRd, .dmaLastWr,
      .dmaRdEng, .dmaWrEng, .docCtxs, .docAppends, .docPolicies, .docCancels, .docReleases, .docProgs, .docGroups,
      .docCgroups, .docOvercommit, .docSuspended, .curFrames, .curMaps, .curForks, .curMoves, .tiersObjs, .tiersPanels,
      .tiersMaps, .tiersMigs, .tiersT0used, .tiersRepairs, .tiersWriteQ, .tiersObjRun, .tiersObjWait, .cores, .fabPorts,
      .fabBeat, .fabLinks, .fabPlanes, .fabSeen, .fabSerial, .fabPendNotices, .fabQuiesces, .fabMacSend, .fabCarLoads,
      .fabColls, .fabWindows, .rasSources, .rasQueue, .rasOvf, .catCounters, .catRings, .catWaits, .catStarted, .catTrace,
      .hubOps, .nextOp, .free, .out] ||| m = m) :
    OnlyM m s (State.beginHold t a1) := by
  refine OnlyM.ofStep h ?_ i; clear h i; unfold State.beginHold
  repeat' first
    | with_reducible exact .refl _ _
    | extract_lets
    | (with_reducible apply State.acceptFetched_only; on_goal 2 => decide)
    | (with_reducible apply State.dropPoll_only; on_goal 2 => decide)
    | fail_if_no_progress (with_reducible apply OnlyM.lit_ctlHoldReq_ctlHolding; on_goal 2 => decide)

theorem State.takeHold_only {m : Nat} {s t : State} (h : OnlyM m s t) (i : mask [.mem, .chk, .bad, .ctlHoldReq,
      .ctlHolding, .hifRings, .hifInflight, .hifFences, .hifPoll, .dmaOps, .dmaStops, .dmaNextOpid, .dmaLastRd, .dmaLastWr,
      .dmaRdEng, .dmaWrEng, .docCtxs, .docAppends, .docPolicies, .docCancels, .docReleases, .docProgs, .docGroups,
      .docCgroups, .docOvercommit, .docSuspended, .curFrames, .curMaps, .curForks, .curMoves, .tiersObjs, .tiersPanels,
      .tiersMaps, .tiersMigs, .tiersT0used, .tiersRepairs, .tiersWriteQ, .tiersObjRun, .tiersObjWait, .cores, .fabPorts,
      .fabBeat, .fabLinks, .fabPlanes, .fabSeen, .fabSerial, .fabPendNotices, .fabQuiesces, .fabMacSend, .fabCarLoads,
      .fabColls, .fabWindows, .rasSources, .rasQueue, .rasOvf, .catCounters, .catRings, .catWaits, .catStarted, .catTrace,
      .hubOps, .nextOp, .free, .out] ||| m = m) :
    OnlyM m s (State.takeHold t) := by
  refine OnlyM.ofStep h ?_ i; clear h i; unfold State.takeHold
  repeat' first
    | with_reducible exact .refl _ _
    | extract_lets
    | (with_reducible apply State.beginHold_only; on_goal 2 => decide)
    | split

theorem State.takeShadowed_only {m : Nat} {s t : State} (h : OnlyM m s t) (i : mask [.inForce] ||| m = m) :
    OnlyM m s (State.takeShadowed t) := by
  refine OnlyM.ofStep h ?_ i; clear h i; unfold State.takeShadowed
  repeat' first
    | with_reducible exact .refl _ _
    | fail_if_no_progress (with_reducible apply OnlyM.lit_inForce; on_goal 2 => decide)

theorem State.boundaryOpens_only {m : Nat} {s t : State} (h : OnlyM m s t) (i : mask [.inForce, .mem, .chk, .bad,
      .ctlHoldReq, .ctlHolding, .hifRings, .hifInflight, .hifFences, .hifPoll, .hifMsixPend, .hifOwedVecs, .dmaOps,
      .dmaStops, .dmaNextOpid, .dmaLastRd, .dmaLastWr, .dmaRdEng, .dmaWrEng, .docCtxs, .docAppends, .docPolicies,
      .docCancels, .docReleases, .docProgs, .docGroups, .docCgroups, .docOvercommit, .docSuspended, .curFrames, .curMaps,
      .curForks, .curMoves, .tiersObjs, .tiersPanels, .tiersMaps, .tiersMigs, .tiersT0used, .tiersRepairs, .tiersWriteQ,
      .tiersObjRun, .tiersObjWait, .cores, .plinths, .fabPorts, .fabBeat, .fabLinks, .fabPlanes, .fabSeen, .fabSerial,
      .fabPendNotices, .fabQuiesces, .fabMacSend, .fabAnnounced, .fabCarMap, .fabCarPend, .fabCarLoads, .fabCarWait,
      .fabColls, .fabArrivals, .fabWindows, .rasSources, .rasQueue, .rasOvf, .rasIntLeft, .rasIntPend, .rasIntEnd,
      .catCounters, .catRings, .catWaits, .catStarted, .catSnaps, .catTrace, .hubOps, .nextOp, .free, .out] ||| m = m) :
    OnlyM m s (State.boundaryOpens t) := by
  refine OnlyM.ofStep h ?_ i; clear h i; unfold State.boundaryOpens
  repeat' first
    | with_reducible exact .refl _ _
    | extract_lets
    | (with_reducible apply State.ageLinks_only; on_goal 2 => decide)
    | (with_reducible apply State.clearSlices_only; on_goal 2 => decide)
    | (with_reducible apply State.markUnlocked_only; on_goal 2 => decide)
    | (with_reducible apply State.announce_only; on_goal 2 => decide)
    | (with_reducible apply State.chooseParent_only; on_goal 2 => decide)
    | (with_reducible apply State.quiesceTake_only; on_goal 2 => decide)
    | (with_reducible apply State.takeHold_only; on_goal 2 => decide)
    | (with_reducible apply State.takeShadowed_only; on_goal 2 => decide)
    | (with_reducible apply State.tickInterrupts_only; on_goal 2 => decide)
    | (with_reducible apply State.incidentBeat_only; on_goal 2 => decide)
    | (with_reducible apply State.ringMessages_only; on_goal 2 => decide)
    | (with_reducible apply State.sendOwed_only; on_goal 2 => decide)
    | (with_reducible apply State.latchSnaps_only; on_goal 2 => decide)

theorem State.boundary_only {m : Nat} {s t : State} (h : OnlyM m s t) (i : mask [.inForce, .mem, .chk, .bad, .ctlHoldReq,
      .ctlHolding, .hifRings, .hifInflight, .hifFences, .hifPoll, .hifConsNext, .hifMsixPend, .hifOwedVecs, .hifOwed,
      .dmaOps, .dmaStops, .dmaNextOpid, .dmaLastRd, .dmaLastWr, .dmaRdEng, .dmaWrEng, .docCtxs, .docAppends, .docPolicies,
      .docCancels, .docReleases, .docProgs, .docGroups, .docCgroups, .docNextGroup, .docOvercommit, .docSuspended,
      .curPages, .curFrames, .curMaps, .curLimbo, .curForks, .curMoves, .curRetired, .curFreed, .curFresh, .tiersObjs,
      .tiersPanels, .tiersMaps, .tiersMigs, .tiersT0used, .tiersRepairs, .tiersWriteQ, .tiersObjRun, .tiersObjWait, .cores,
      .chans, .plinths, .fabPorts, .fabBeat, .fabLinks, .fabPlanes, .fabSeen, .fabSerial, .fabPendNotices, .fabQuiesces,
      .fabMacSend, .fabAnnounced, .fabCarMap, .fabCarPend, .fabCarLoads, .fabCarWait, .fabColls, .fabArrivals,
      .fabSentSlots, .fabWindows, .rasSources, .rasQueue, .rasOvf, .rasIntLeft, .rasIntPend, .rasIntEnd, .catCounters,
      .catRings, .catWaits, .catStarted, .catFrozen, .catFcause, .catDumpFroze, .catWbeat, .catSnaps, .catTrace,
      .secEvents, .hubOps, .nextOp, .free, .out] ||| m = m) :
    OnlyM m s (State.boundary t) := by
  refine OnlyM.ofStep h ?_ i; clear h i; unfold State.boundary
  repeat' first
    | with_reducible exact .refl _ _
    | extract_lets
    | (with_reducible apply State.boundaryCloses_only; on_goal 2 => decide)
    | (with_reducible apply State.openFirst_only; on_goal 2 => decide)
    | (with_reducible apply State.boundaryForms_only; on_goal 2 => decide)
    | (with_reducible apply State.boundaryAccrues_only; on_goal 2 => decide)
    | (with_reducible apply State.boundaryOpens_only; on_goal 2 => decide)
    | fail_if_no_progress (with_reducible apply OnlyM.lit_catWbeat; on_goal 2 => decide)

theorem State.startBeat_only {m : Nat} {s t : State} (h : OnlyM m s t) (i : mask [.inForce, .mem, .chk, .bad, .ctlHoldReq,
      .ctlHolding, .hifRings, .hifInflight, .hifFences, .hifPoll, .hifConsNext, .hifMsixPend, .hifOwedVecs, .hifOwed,
      .dmaOps, .dmaStops, .dmaNextOpid, .dmaLastRd, .dmaLastWr, .dmaRdEng, .dmaWrEng, .docCtxs, .docAppends, .docPolicies,
      .docCancels, .docReleases, .docProgs, .docGroups, .docCgroups, .docNextGroup, .docOvercommit, .docSuspended,
      .curPages, .curFrames, .curMaps, .curLimbo, .curForks, .curMoves, .curRetired, .curFreed, .curFresh, .tiersObjs,
      .tiersPanels, .tiersMaps, .tiersMigs, .tiersT0used, .tiersRepairs, .tiersWriteQ, .tiersObjRun, .tiersObjWait, .cores,
      .chans, .plinths, .fabPorts, .fabBeat, .fabLinks, .fabPlanes, .fabSeen, .fabSerial, .fabPendNotices, .fabQuiesces,
      .fabMacSend, .fabAnnounced, .fabCarMap, .fabCarPend, .fabCarLoads, .fabCarWait, .fabColls, .fabArrivals,
      .fabSentSlots, .fabWindows, .rasSources, .rasQueue, .rasOvf, .rasIntLeft, .rasIntPend, .rasIntEnd, .catCounters,
      .catRings, .catWaits, .catStarted, .catFrozen, .catFcause, .catDumpFroze, .catWbeat, .catSnaps, .catTrace,
      .secEvents, .hubOps, .nextOp, .free, .out] ||| m = m) :
    OnlyM m s (State.startBeat t) := by
  refine OnlyM.ofStep h ?_ i; clear h i; unfold State.startBeat
  repeat' first
    | with_reducible exact .refl _ _
    | extract_lets
    | with_reducible apply OnlyM.ite
    | (with_reducible apply State.setBeatSt_only; on_goal 2 => decide)
    | (with_reducible apply State.boundary_only; on_goal 2 => decide)
    | (with_reducible apply State.setBeat_only; on_goal 2 => decide)

theorem State.nextCount_only {m : Nat} {s t : State} (h : OnlyM m s t) (i : mask [.fabBeat, .catCounters] ||| m = m) :
    OnlyM m s (State.nextCount t) := by
  refine OnlyM.ofStep h ?_ i; clear h i; unfold State.nextCount
  repeat' first
    | with_reducible exact .refl _ _
    | extract_lets
    | (with_reducible apply State.setBeat_only; on_goal 2 => decide)
    | (with_reducible apply State.count_only; on_goal 2 => decide)
    | split

theorem State.stopBeat_only {m : Nat} {s t : State} (h : OnlyM m s t) (i : mask [.mem, .chk, .bad, .ctlHoldReq,
      .ctlHolding, .hifRings, .hifInflight, .hifFences, .hifPoll, .dmaOps, .dmaStops, .dmaNextOpid, .dmaLastRd, .dmaLastWr,
      .dmaRdEng, .dmaWrEng, .docCtxs, .docAppends, .docPolicies, .docCancels, .docReleases, .docProgs, .docGroups,
      .docCgroups, .docOvercommit, .docSuspended, .curFrames, .curMaps, .curForks, .curMoves, .tiersObjs, .tiersPanels,
      .tiersMaps, .tiersMigs, .tiersT0used, .tiersRepairs, .tiersWriteQ, .tiersObjRun, .tiersObjWait, .cores, .fabPorts,
      .fabBeat, .fabLinks, .fabPlanes, .fabSeen, .fabSerial, .fabPendNotices, .fabQuiesces, .fabMacSend, .fabCarLoads,
      .fabColls, .fabWindows, .rasSources, .rasQueue, .rasOvf, .catCounters, .catRings, .catWaits, .catStarted, .catFrozen,
      .catFcause, .catDumpFroze, .catSnaps, .catTrace, .hubOps, .nextOp, .free, .out] ||| m = m) :
    OnlyM m s (State.stopBeat t) := by
  refine OnlyM.ofStep h ?_ i; clear h i; unfold State.stopBeat
  repeat' first
    | with_reducible exact .refl _ _
    | extract_lets
    | with_reducible apply OnlyM.ite
    | (with_reducible apply State.setBeatSt_only; on_goal 2 => decide)
    | (with_reducible apply State.takeHold_only; on_goal 2 => decide)
    | (with_reducible apply State.freezeForDump_only; on_goal 2 => decide)
    | (with_reducible apply State.latchSnaps_only; on_goal 2 => decide)
    | (with_reducible apply State.setBeat_only; on_goal 2 => decide)

theorem State.abandonMoves_only {m : Nat} {s t : State} (h : OnlyM m s t) (i : mask [.curFrames, .curCows, .curMoves,
      .curStaged, .tiersPanels, .tiersMigs, .tiersMoving, .tiersT0used, .tiersRepairs, .tiersObjRun,
      .tiersObjWait] ||| m = m) :
    OnlyM m s (State.abandonMoves t) := by
  refine OnlyM.ofStep h ?_ i; clear h i; unfold State.abandonMoves
  repeat' first
    | with_reducible exact .refl _ _
    | extract_lets
    | intro _
    | (with_reducible apply State.giveT0_only; on_goal 2 => decide)
    | (with_reducible apply State.returnFrame_only; on_goal 2 => decide)
    | with_reducible apply OnlyM.foldl
    | fail_if_no_progress (with_reducible apply OnlyM.lit_all103; on_goal 2 => decide)

theorem State.abandonSteps_only {m : Nat} {s t : State} (h : OnlyM m s t) (i : mask [.docCtxs, .docGroups, .docOwedNotices,
      .curFrames] ||| m = m) :
    OnlyM m s (State.abandonSteps t) := by
  refine OnlyM.ofStep h ?_ i; clear h i; unfold State.abandonSteps
  repeat' first
    | with_reducible exact .refl _ _
    | extract_lets
    | intro _
    | (with_reducible apply State.returnFrame_only; on_goal 2 => decide)
    | (with_reducible apply State.setCtx_only; on_goal 2 => decide)
    | with_reducible apply OnlyM.foldl
    | fail_if_no_progress (with_reducible apply OnlyM.lit_docGroups_docOwedNotices; on_goal 2 => decide)

theorem State.abandon_only {m : Nat} {s t : State} (h : OnlyM m s t) (i : mask [.mem, .chk, .bad, .hifRings, .hifInflight,
      .hifFences, .hifPoll, .hifOwed, .dmaOps, .dmaStops, .dmaNextOpid, .dmaLastRd, .dmaLastWr, .dmaRdEng, .dmaWrEng,
      .docCtxs, .docAppends, .docPolicies, .docCancels, .docReleases, .docProgs, .docGroups, .docCgroups, .docOvercommit,
      .docSuspended, .docOwedNotices, .curFrames, .curMaps, .curCows, .curForks, .curMoves, .curStaged, .tiersObjs,
      .tiersPanels, .tiersMaps, .tiersMigs, .tiersMoving, .tiersT0used, .tiersRepairs, .tiersWriteQ, .tiersObjRun,
      .tiersObjWait, .cores, .chans, .plinths, .fins, .outBases, .annexQueue, .annexRunning, .annexBank0, .annexBank1,
      .fabPorts, .fabBeat, .fabLinks, .fabPlanes, .fabSeen, .fabSerial, .fabPendNotices, .fabQuiesces, .fabMacSend,
      .fabCarLoads, .fabColls, .fabWindows, .rasSources, .rasQueue, .rasOvf, .catCounters, .catRings, .catWaits,
      .catStarted, .catTrace, .hubOps, .nextOp, .free, .out] ||| m = m) :
    OnlyM m s (State.abandon t) := by
  refine OnlyM.ofStep h ?_ i; clear h i; unfold State.abandon
  repeat' first
    | with_reducible exact .refl _ _
    | extract_lets
    | (with_reducible apply State.acceptFetched_only; on_goal 2 => decide)
    | (with_reducible apply State.abandonMoves_only; on_goal 2 => decide)
    | (with_reducible apply State.abandonSteps_only; on_goal 2 => decide)
    | fail_if_no_progress (with_reducible apply OnlyM.lit_all7; on_goal 2 => decide)

theorem State.askHold_only {m : Nat} {s t : State} {a1} (h : OnlyM m s t) (i : mask [.mem, .chk, .bad, .ctlHoldReq,
      .ctlHolding, .hifRings, .hifInflight, .hifFences, .hifPoll, .dmaOps, .dmaStops, .dmaNextOpid, .dmaLastRd, .dmaLastWr,
      .dmaRdEng, .dmaWrEng, .docCtxs, .docAppends, .docPolicies, .docCancels, .docReleases, .docProgs, .docGroups,
      .docCgroups, .docOvercommit, .docSuspended, .curFrames, .curMaps, .curForks, .curMoves, .tiersObjs, .tiersPanels,
      .tiersMaps, .tiersMigs, .tiersT0used, .tiersRepairs, .tiersWriteQ, .tiersObjRun, .tiersObjWait, .cores, .fabPorts,
      .fabBeat, .fabLinks, .fabPlanes, .fabSeen, .fabSerial, .fabPendNotices, .fabQuiesces, .fabMacSend, .fabCarLoads,
      .fabColls, .fabWindows, .rasSources, .rasQueue, .rasOvf, .catCounters, .catRings, .catWaits, .catStarted, .catTrace,
      .hubOps, .nextOp, .free, .out] ||| m = m) :
    OnlyM m s (State.askHold t a1) := by
  refine OnlyM.ofStep h ?_ i; clear h i; unfold State.askHold
  repeat' first
    | with_reducible exact .refl _ _
    | extract_lets
    | with_reducible apply OnlyM.ite
    | (with_reducible apply State.beginHold_only; on_goal 2 => decide)
    | fail_if_no_progress (with_reducible apply OnlyM.lit_ctlHoldReq; on_goal 2 => decide)

theorem State.writeGlbCmd_only {m : Nat} {s t : State} {a1} (h : OnlyM m s t) (i : mask [.mem, .chk, .bad, .ctlHoldReq,
      .ctlHolding, .hifRings, .hifInflight, .hifFences, .hifPoll, .dmaOps, .dmaStops, .dmaNextOpid, .dmaLastRd, .dmaLastWr,
      .dmaRdEng, .dmaWrEng, .docCtxs, .docAppends, .docPolicies, .docCancels, .docReleases, .docProgs, .docGroups,
      .docCgroups, .docOvercommit, .docSuspended, .curFrames, .curMaps, .curForks, .curMoves, .tiersObjs, .tiersPanels,
      .tiersMaps, .tiersMigs, .tiersT0used, .tiersRepairs, .tiersWriteQ, .tiersObjRun, .tiersObjWait, .cores, .fabPorts,
      .fabBeat, .fabLinks, .fabPlanes, .fabSeen, .fabSerial, .fabPendNotices, .fabQuiesces, .fabMacSend, .fabCarLoads,
      .fabColls, .fabWindows, .rasSources, .rasQueue, .rasOvf, .catCounters, .catRings, .catWaits, .catStarted, .catTrace,
      .hubOps, .nextOp, .free, .out] ||| m = m) :
    OnlyM m s (State.writeGlbCmd t a1) := by
  refine OnlyM.ofStep h ?_ i; clear h i; unfold State.writeGlbCmd
  repeat' first
    | with_reducible exact .refl _ _
    | extract_lets
    | with_reducible apply OnlyM.ite
    | (with_reducible apply State.askHold_only; on_goal 2 => decide)

theorem State.writeCommit_only {m : Nat} {s t : State} {a1 a2} (h : OnlyM m s t) (i : mask [.ctlCBusy, .ctlCSeq,
      .ctlWerr] ||| m = m) :
    OnlyM m s (State.writeCommit t a1 a2) := by
  refine OnlyM.ofStep h ?_ i; clear h i; unfold State.writeCommit
  repeat' first
    | with_reducible exact .refl _ _
    | extract_lets
    | with_reducible apply OnlyM.ite
    | (with_reducible apply State.refuseWrite_only; on_goal 2 => decide)
    | fail_if_no_progress (with_reducible apply OnlyM.lit_ctlCBusy_ctlCSeq; on_goal 2 => decide)

theorem State.enterHold_only {m : Nat} {s t : State} {a1} (h : OnlyM m s t) (i : mask [.mem, .chk, .bad, .ctlSt,
      .ctlHcause, .ctlHoldReq, .ctlHolding, .hifRings, .hifInflight, .hifFences, .hifPoll, .dmaOps, .dmaStops,
      .dmaNextOpid, .dmaLastRd, .dmaLastWr, .dmaRdEng, .dmaWrEng, .docCtxs, .docAppends, .docPolicies, .docCancels,
      .docReleases, .docProgs, .docGroups, .docCgroups, .docOvercommit, .docSuspended, .curFrames, .curMaps, .curForks,
      .curMoves, .tiersObjs, .tiersPanels, .tiersMaps, .tiersMigs, .tiersT0used, .tiersRepairs, .tiersWriteQ, .tiersObjRun,
      .tiersObjWait, .cores, .fabPorts, .fabBeat, .fabLinks, .fabPlanes, .fabSeen, .fabSerial, .fabPendNotices,
      .fabQuiesces, .fabMacSend, .fabAnnounced, .fabCarLoads, .fabColls, .fabWindows, .rasSources, .rasQueue, .rasOvf,
      .catCounters, .catRings, .catWaits, .catStarted, .catFrozen, .catFcause, .catDumpFroze, .catSnaps, .catTrace,
      .hubOps, .nextOp, .free, .out] ||| m = m) :
    OnlyM m s (State.enterHold t a1) := by
  refine OnlyM.ofStep h ?_ i; clear h i; unfold State.enterHold
  repeat' first
    | with_reducible exact .refl _ _
    | extract_lets
    | (with_reducible apply State.dropPoll_only; on_goal 2 => decide)
    | (with_reducible apply State.freezeRings_only; on_goal 2 => decide)
    | (with_reducible apply State.stopBeat_only; on_goal 2 => decide)
    | (with_reducible apply State.portsStop_only; on_goal 2 => decide)
    | fail_if_no_progress (with_reducible apply OnlyM.lit_ctlSt_ctlHcause_ctlHoldReq_ctlHolding; on_goal 2 => decide)

theorem State.payNotices_only {m : Nat} {s t : State} (h : OnlyM m s t) (i : mask [.hifOwedVecs, .docCtxs, .docOwedNotices,
      .catCounters, .out] ||| m = m) :
    OnlyM m s (State.payNotices t) := by
  refine OnlyM.ofStep h ?_ i; clear h i; unfold State.payNotices
  repeat' first
    | with_reducible exact .refl _ _
    | extract_lets
    | intro _
    | (with_reducible apply State.notice_only; on_goal 2 => decide)
    | with_reducible apply OnlyM.foldl
    | fail_if_no_progress (with_reducible apply OnlyM.lit_docOwedNotices; on_goal 2 => decide)

theorem State.enterRun_only {m : Nat} {s t : State} (h : OnlyM m s t) (i : mask [.inForce, .mem, .chk, .bad, .ctlSt,
      .ctlHoldReq, .ctlHolding, .hifRings, .hifInflight, .hifFences, .hifPoll, .hifConsNext, .hifMsixPend, .hifOwedVecs,
      .hifOwed, .dmaOps, .dmaStops, .dmaNextOpid, .dmaLastRd, .dmaLastWr, .dmaRdEng, .dmaWrEng, .docCtxs, .docAppends,
      .docPolicies, .docCancels, .docReleases, .docProgs, .docGroups, .docCgroups, .docNextGroup, .docOvercommit,
      .docSuspended, .docOwedNotices, .curPages, .curFrames, .curMaps, .curLimbo, .curForks, .curMoves, .curRetired,
      .curFreed, .curFresh, .tiersObjs, .tiersPanels, .tiersMaps, .tiersMigs, .tiersT0used, .tiersRepairs, .tiersWriteQ,
      .tiersObjRun, .tiersObjWait, .cores, .chans, .plinths, .fabPorts, .fabBeat, .fabLinks, .fabPlanes, .fabSeen,
      .fabSerial, .fabPendNotices, .fabQuiesces, .fabMacSend, .fabAnnounced, .fabCarMap, .fabCarPend, .fabCarLoads,
      .fabCarWait, .fabColls, .fabArrivals, .fabSentSlots, .fabWindows, .rasSources, .rasQueue, .rasOvf, .rasIntLeft,
      .rasIntPend, .rasIntEnd, .catCounters, .catRings, .catWaits, .catStarted, .catFrozen, .catFcause, .catDumpFroze,
      .catWbeat, .catSnaps, .catTrace, .secEvents, .hubOps, .nextOp, .free, .out] ||| m = m) :
    OnlyM m s (State.enterRun t) := by
  refine OnlyM.ofStep h ?_ i; clear h i; unfold State.enterRun
  repeat' first
    | with_reducible exact .refl _ _
    | extract_lets
    | (with_reducible apply State.startBeat_only; on_goal 2 => decide)
    | (with_reducible apply State.payNotices_only; on_goal 2 => decide)
    | (with_reducible apply State.portsStart_only; on_goal 2 => decide)
    | fail_if_no_progress (with_reducible apply OnlyM.lit_ctlSt; on_goal 2 => decide)

theorem State.commitPass_only {m : Nat} {s t : State} (h : OnlyM m s t) (i : mask [.inForce, .mem, .chk, .bad, .ctlSt,
      .ctlCommitted, .ctlCLast, .ctlCBusy, .ctlHoldReq, .ctlHolding, .hifRings, .hifInflight, .hifFences, .hifPoll,
      .hifConsNext, .hifMsixPend, .hifOwedVecs, .hifOwed, .dmaOps, .dmaStops, .dmaNextOpid, .dmaLastRd, .dmaLastWr,
      .dmaRdEng, .dmaWrEng, .docCtxs, .docAppends, .docPolicies, .docCancels, .docReleases, .docProgs, .docGroups,
      .docCgroups, .docNextGroup, .docOvercommit, .docSuspended, .docOwedNotices, .curPages, .curFrames, .curMaps,
      .curLimbo, .curForks, .curMoves, .curRetired, .curFreed, .curFresh, .tiersObjs, .tiersPanels, .tiersMaps, .tiersMigs,
      .tiersT0used, .tiersRepairs, .tiersWriteQ, .tiersObjRun, .tiersObjWait, .cores, .chans, .plinths, .fabPorts,
      .fabBeat, .fabLinks, .fabPlanes, .fabSeen, .fabSerial, .fabPendNotices, .fabQuiesces, .fabMacSend, .fabAnnounced,
      .fabCarMap, .fabCarPend, .fabCarLoads, .fabCarWait, .fabColls, .fabArrivals, .fabSentSlots, .fabWindows, .rasSources,
      .rasQueue, .rasOvf, .rasIntLeft, .rasIntPend, .rasIntEnd, .catCounters, .catRings, .catWaits, .catStarted,
      .catFrozen, .catFcause, .catDumpFroze, .catWbeat, .catSnaps, .catTrace, .secMeasured, .secEvents, .hubOps, .nextOp,
      .free, .out] ||| m = m) :
    OnlyM m s (State.commitPass t) := by
  refine OnlyM.ofStep h ?_ i; clear h i; unfold State.commitPass
  repeat' first
    | with_reducible exact .refl _ _
    | extract_lets
    | with_reducible apply OnlyM.ite
    | (with_reducible apply State.enterRun_only; on_goal 2 => decide)
    | fail_if_no_progress (with_reducible apply OnlyM.lit_ctlCommitted_ctlCLast_ctlCBusy_secMeasured; on_goal 2 => decide)

theorem State.commitFail_only {m : Nat} {s t : State} {a1 a2} (h : OnlyM m s t) (i : mask [.mem, .chk, .bad, .ctlHcause,
      .ctlCCause, .ctlCBusy, .ctlCErr, .ctlHoldReq, .ctlHolding, .hifRings, .hifInflight, .hifFences, .hifPoll, .dmaOps,
      .dmaStops, .dmaNextOpid, .dmaLastRd, .dmaLastWr, .dmaRdEng, .dmaWrEng, .docCtxs, .docAppends, .docPolicies,
      .docCancels, .docReleases, .docProgs, .docGroups, .docCgroups, .docOvercommit, .docSuspended, .curFrames, .curMaps,
      .curForks, .curMoves, .tiersObjs, .tiersPanels, .tiersMaps, .tiersMigs, .tiersT0used, .tiersRepairs, .tiersWriteQ,
      .tiersObjRun, .tiersObjWait, .cores, .fabPorts, .fabBeat, .fabLinks, .fabPlanes, .fabSeen, .fabSerial,
      .fabPendNotices, .fabQuiesces, .fabMacSend, .fabCarLoads, .fabColls, .fabWindows, .rasSources, .rasQueue, .rasOvf,
      .catCounters, .catRings, .catWaits, .catStarted, .catTrace, .hubOps, .nextOp, .free, .out] ||| m = m) :
    OnlyM m s (State.commitFail t a1 a2) := by
  refine OnlyM.ofStep h ?_ i; clear h i; unfold State.commitFail
  repeat' first
    | with_reducible exact .refl _ _
    | extract_lets
    | with_reducible apply OnlyM.ite
    | (with_reducible apply State.askHold_only; on_goal 2 => decide)
    | fail_if_no_progress (with_reducible apply OnlyM.lit_ctlCCause_ctlCBusy_ctlCErr; on_goal 2 => decide)
    | fail_if_no_progress (with_reducible apply OnlyM.lit_ctlHcause; on_goal 2 => decide)

theorem State.writeBeatCtrl_only {m : Nat} {s t : State} {a1 a2} (h : OnlyM m s t) (i : mask [.regs, .inForce, .mem, .chk,
      .bad, .ctlWerr, .ctlHoldReq, .ctlHolding, .hifRings, .hifInflight, .hifFences, .hifPoll, .hifConsNext, .hifMsixPend,
      .hifOwedVecs, .hifOwed, .dmaOps, .dmaStops, .dmaNextOpid, .dmaLastRd, .dmaLastWr, .dmaRdEng, .dmaWrEng, .docCtxs,
      .docAppends, .docPolicies, .docCancels, .docReleases, .docProgs, .docGroups, .docCgroups, .docNextGroup,
      .docOvercommit, .docSuspended, .curPages, .curFrames, .curMaps, .curLimbo, .curForks, .curMoves, .curRetired,
      .curFreed, .curFresh, .tiersObjs, .tiersPanels, .tiersMaps, .tiersMigs, .tiersT0used, .tiersRepairs, .tiersWriteQ,
      .tiersObjRun, .tiersObjWait, .cores, .chans, .plinths, .fabPorts, .fabBeat, .fabLinks, .fabPlanes, .fabSeen,
      .fabSerial, .fabPendNotices, .fabQuiesces, .fabMacSend, .fabAnnounced, .fabCarMap, .fabCarPend, .fabCarLoads,
      .fabCarWait, .fabColls, .fabArrivals, .fabSentSlots, .fabWindows, .rasSources, .rasQueue, .rasOvf, .rasIntLeft,
      .rasIntPend, .rasIntEnd, .catCounters, .catRings, .catWaits, .catStarted, .catFrozen, .catFcause, .catDumpFroze,
      .catWbeat, .catSnaps, .catTrace, .secEvents, .hubOps, .nextOp, .free, .out] ||| m = m) :
    OnlyM m s (State.writeBeatCtrl t a1 a2) := by
  refine OnlyM.ofStep h ?_ i; clear h i; unfold State.writeBeatCtrl
  repeat' first
    | with_reducible exact .refl _ _
    | extract_lets
    | with_reducible apply OnlyM.ite
    | (with_reducible apply State.refuseWrite_only; on_goal 2 => decide)
    | (with_reducible apply State.setField_only; on_goal 2 => decide)
    | (with_reducible apply State.refuseAll_only; on_goal 2 => decide)
    | (with_reducible apply State.startBeat_only; on_goal 2 => decide)
    | (with_reducible apply State.stopBeat_only; on_goal 2 => decide)

theorem State.cutDma_only {m : Nat} {s t : State} {a1} (h : OnlyM m s t) (i : mask [.hifRings, .hifInflight, .hifFences,
      .dmaOps, .dmaStops, .docGroups, .tiersObjs, .tiersPanels, .tiersMaps, .tiersMigs, .tiersT0used, .tiersRepairs,
      .tiersWriteQ, .tiersObjRun, .tiersObjWait, .cores, .catCounters, .catRings, .catWaits, .catStarted, .catTrace, .free,
      .out] ||| m = m) :
    OnlyM m s (State.cutDma t a1) := by
  refine OnlyM.ofStep h ?_ i; clear h i; unfold State.cutDma
  repeat' first
    | with_reducible exact .refl _ _
    | extract_lets
    | intro _
    | (with_reducible apply State.settleStops_only; on_goal 2 => decide)
    | (with_reducible apply State.dmaLeave_only; on_goal 2 => decide)
    | (with_reducible apply State.updDma_only; on_goal 2 => decide)
    | with_reducible apply OnlyM.foldl

theorem State.cutCores_only {m : Nat} {s t : State} {a1} (h : OnlyM m s t) (i : mask [.cores] ||| m = m) :
    OnlyM m s (State.cutCores t a1) := by
  refine OnlyM.ofStep h ?_ i; clear h i; unfold State.cutCores
  repeat' first
    | with_reducible exact .refl _ _
    | fail_if_no_progress (with_reducible apply OnlyM.lit_cores; on_goal 2 => decide)

theorem State.cutStreams_only {m : Nat} {s t : State} {a1} (h : OnlyM m s t) (i : mask [.docCtxs, .docAppends,
      .docPolicies, .docCancels, .docReleases, .docOwedNotices] ||| m = m) :
    OnlyM m s (State.cutStreams t a1) := by
  refine OnlyM.ofStep h ?_ i; clear h i; unfold State.cutStreams
  repeat' first
    | with_reducible exact .refl _ _
    | extract_lets
    | intro _
    | (with_reducible apply State.setCtx_only; on_goal 2 => decide)
    | with_reducible apply OnlyM.foldl
    | fail_if_no_progress (with_reducible apply OnlyM.lit_docAppends_docPolicies_docCancels_docReleases_docOwedNotices; on_goal 2 => decide)

theorem State.cutPoll_only {m : Nat} {s t : State} {a1} (h : OnlyM m s t) (i : mask [.mem, .chk, .bad, .hifRings,
      .hifInflight, .hifFences, .hifPoll, .dmaOps, .dmaStops, .dmaNextOpid, .dmaLastRd, .dmaLastWr, .dmaRdEng, .dmaWrEng,
      .docCtxs, .docAppends, .docPolicies, .docCancels, .docReleases, .docProgs, .docGroups, .docCgroups, .docOvercommit,
      .docSuspended, .curFrames, .curMaps, .curForks, .curMoves, .tiersObjs, .tiersPanels, .tiersMaps, .tiersMigs,
      .tiersT0used, .tiersRepairs, .tiersWriteQ, .tiersObjRun, .tiersObjWait, .cores, .fabPorts, .fabBeat, .fabLinks,
      .fabPlanes, .fabSeen, .fabSerial, .fabPendNotices, .fabQuiesces, .fabMacSend, .fabCarLoads, .fabColls, .fabWindows,
      .rasSources, .rasQueue, .rasOvf, .catCounters, .catRings, .catWaits, .catStarted, .catTrace, .hubOps, .nextOp, .free,
      .out] ||| m = m) :
    OnlyM m s (State.cutPoll t a1) := by
  refine OnlyM.ofStep h ?_ i; clear h i; unfold State.cutPoll
  repeat' first
    | with_reducible exact .refl _ _
    | extract_lets
    | intro _
    | with_reducible apply OnlyM.ite
    | (with_reducible apply State.entriesGone_only; on_goal 2 => decide)
    | (with_reducible apply State.doorbellGone_only; on_goal 2 => decide)
    | (with_reducible apply State.setPoll_only; on_goal 2 => decide)
    | (with_reducible apply State.readDoorbells_only; on_goal 2 => decide)
    | (with_reducible apply State.pollSettle_only; on_goal 2 => decide)
    | with_reducible apply OnlyM.foldl
    | split

theorem State.resetRings_only {m : Nat} {s t : State} {a1} (h : OnlyM m s t) (i : mask [.regs, .hifRings, .hifInflight,
      .hifFences, .hifPoll, .hifOwedVecs, .hifInReset, .hifOwed] ||| m = m) :
    OnlyM m s (State.resetRings t a1) := by
  refine OnlyM.ofStep h ?_ i; clear h i; unfold State.resetRings
  repeat' first
    | with_reducible exact .refl _ _
    | extract_lets
    | fail_if_no_progress (with_reducible apply OnlyM.lit_all34; on_goal 2 => decide)

theorem State.galleriesReset_only {m : Nat} {s t : State} {a1} (h : OnlyM m s t) (i : mask [.regs, .mem, .chk, .bad,
      .hifRings, .hifInflight, .hifFences, .hifPoll, .hifOwedVecs, .hifInReset, .hifOwed, .dmaOps, .dmaStops, .dmaNextOpid,
      .dmaLastRd, .dmaLastWr, .dmaRdEng, .dmaWrEng, .docCtxs, .docAppends, .docPolicies, .docCancels, .docReleases,
      .docProgs, .docGroups, .docCgroups, .docOvercommit, .docSuspended, .docOwedNotices, .curFrames, .curMaps, .curForks,
      .curMoves, .tiersObjs, .tiersPanels, .tiersMaps, .tiersMigs, .tiersT0used, .tiersRepairs, .tiersWriteQ, .tiersObjRun,
      .tiersObjWait, .cores, .fabPorts, .fabBeat, .fabLinks, .fabPlanes, .fabSeen, .fabSerial, .fabPendNotices,
      .fabQuiesces, .fabMacSend, .fabCarLoads, .fabColls, .fabWindows, .rasSources, .rasQueue, .rasOvf, .catCounters,
      .catRings, .catWaits, .catStarted, .catTrace, .hubOps, .nextOp, .free, .out] ||| m = m) :
    OnlyM m s (State.galleriesReset t a1) := by
  refine OnlyM.ofStep h ?_ i; clear h i; unfold State.galleriesReset
  repeat' first
    | with_reducible exact .refl _ _
    | extract_lets
    | intro _
    | (with_reducible apply State.closeGallery_only; on_goal 2 => decide)
    | (with_reducible apply State.cutDma_only; on_goal 2 => decide)
    | (with_reducible apply State.cutCores_only; on_goal 2 => decide)
    | (with_reducible apply State.cutStreams_only; on_goal 2 => decide)
    | (with_reducible apply State.cutPoll_only; on_goal 2 => decide)
    | (with_reducible apply State.resetRings_only; on_goal 2 => decide)
    | with_reducible apply OnlyM.foldl

theorem State.tdiFails_only {m : Nat} {s t : State} {a1} (h : OnlyM m s t) (i : mask [.secTdis] ||| m = m) :
    OnlyM m s (State.tdiFails t a1) := by
  refine OnlyM.ofStep h ?_ i; clear h i; unfold State.tdiFails
  repeat' first
    | with_reducible exact .refl _ _
    | extract_lets
    | with_reducible apply OnlyM.ite
    | (with_reducible apply State.setTdi_only; on_goal 2 => decide)

theorem State.tdisError_only {m : Nat} {s t : State} {a1} (h : OnlyM m s t) (i : mask [.regs, .mem, .chk, .bad, .hifRings,
      .hifInflight, .hifFences, .hifPoll, .hifOwedVecs, .hifInReset, .hifOwed, .dmaOps, .dmaStops, .dmaNextOpid,
      .dmaLastRd, .dmaLastWr, .dmaRdEng, .dmaWrEng, .docCtxs, .docAppends, .docPolicies, .docCancels, .docReleases,
      .docProgs, .docGroups, .docCgroups, .docOvercommit, .docSuspended, .docOwedNotices, .curFrames, .curMaps, .curForks,
      .curMoves, .tiersObjs, .tiersPanels, .tiersMaps, .tiersMigs, .tiersT0used, .tiersRepairs, .tiersWriteQ, .tiersObjRun,
      .tiersObjWait, .cores, .fabPorts, .fabBeat, .fabLinks, .fabPlanes, .fabSeen, .fabSerial, .fabPendNotices,
      .fabQuiesces, .fabMacSend, .fabCarLoads, .fabColls, .fabWindows, .rasSources, .rasQueue, .rasOvf, .catCounters,
      .catRings, .catWaits, .catStarted, .catTrace, .secTdis, .hubOps, .nextOp, .free, .out] ||| m = m) :
    OnlyM m s (State.tdisError t a1) := by
  refine OnlyM.ofStep h ?_ i; clear h i; unfold State.tdisError
  repeat' first
    | with_reducible exact .refl _ _
    | extract_lets
    | intro _
    | (with_reducible apply State.galleriesReset_only; on_goal 2 => decide)
    | (with_reducible apply State.tdiFails_only; on_goal 2 => decide)
    | with_reducible apply OnlyM.foldl

theorem State.galleryReset_only {m : Nat} {s t : State} {a1} (h : OnlyM m s t) (i : mask [.regs, .mem, .chk, .bad,
      .hifRings, .hifInflight, .hifFences, .hifPoll, .hifOwedVecs, .hifInReset, .hifOwed, .dmaOps, .dmaStops, .dmaNextOpid,
      .dmaLastRd, .dmaLastWr, .dmaRdEng, .dmaWrEng, .docCtxs, .docAppends, .docPolicies, .docCancels, .docReleases,
      .docProgs, .docGroups, .docCgroups, .docOvercommit, .docSuspended, .docOwedNotices, .curFrames, .curMaps, .curForks,
      .curMoves, .tiersObjs, .tiersPanels, .tiersMaps, .tiersMigs, .tiersT0used, .tiersRepairs, .tiersWriteQ, .tiersObjRun,
      .tiersObjWait, .cores, .fabPorts, .fabBeat, .fabLinks, .fabPlanes, .fabSeen, .fabSerial, .fabPendNotices,
      .fabQuiesces, .fabMacSend, .fabCarLoads, .fabColls, .fabWindows, .rasSources, .rasQueue, .rasOvf, .catCounters,
      .catRings, .catWaits, .catStarted, .catTrace, .hubOps, .nextOp, .free, .out] ||| m = m) :
    OnlyM m s (State.galleryReset t a1) := by
  refine OnlyM.ofStep h ?_ i; clear h i; unfold State.galleryReset
  repeat' first
    | with_reducible exact .refl _ _
    | extract_lets
    | (with_reducible apply State.galleriesReset_only; on_goal 2 => decide)

theorem State.startImage_only {m : Nat} {s t : State} {a1 a2} (h : OnlyM m s t) (i : mask [.ctlSt, .ctlBootStep, .secSt,
      .secCause, .secSlot, .secTrial, .secImage] ||| m = m) :
    OnlyM m s (State.startImage t a1 a2) := by
  refine OnlyM.ofStep h ?_ i; clear h i; unfold State.startImage
  repeat' first
    | with_reducible exact .refl _ _
    | extract_lets
    | fail_if_no_progress (with_reducible apply OnlyM.lit_all16; on_goal 2 => decide)

theorem State.selfTestFail_only {m : Nat} {s t : State} {a1 a2} (h : OnlyM m s t) (i : mask [.ctlCores, .ctlRepDirty,
      .cores, .plinths, .free] ||| m = m) :
    OnlyM m s (State.selfTestFail t a1 a2) := by
  refine OnlyM.ofStep h ?_ i; clear h i; unfold State.selfTestFail
  repeat' first
    | with_reducible exact .refl _ _
    | extract_lets
    | with_reducible apply OnlyM.ite
    | (with_reducible apply State.pick_only; on_goal 2 => decide)
    | (with_reducible apply State.setCore_only; on_goal 2 => decide)
    | (with_reducible apply State.addRepair_only; on_goal 2 => decide)
    | (with_reducible apply State.setPlinth_only; on_goal 2 => decide)
    | with_reducible refine OnlyM.ofPair (by assumption) ?_
    | fail_if_no_progress (with_reducible apply OnlyM.lit_ctlCores; on_goal 2 => decide)
    | split

theorem State.resetDevice_only {m : Nat} {s t : State} (h : OnlyM m s t) (i : mask [.regs, .inForce, .vfRegs, .mem, .chk,
      .bad, .ctlSt, .ctlPower, .ctlHcause, .ctlCommitted, .ctlCLast, .ctlCCause, .ctlCBusy, .ctlCSeq, .ctlCErr, .ctlWerr,
      .ctlBootStep, .ctlShort, .ctlCores, .ctlChannels, .ctlRepRows, .ctlRepCols, .ctlRepSkip, .ctlHoldReq, .ctlHolding,
      .ctlLatches, .ctlRepDirty, .hifRings, .hifInflight, .hifFences, .hifPoll, .hifConsNext, .hifLinkWidth, .hifLinkRate,
      .hifLinkFlit, .hifMsixTable, .hifMsixPend, .hifOwedVecs, .hifInReset, .hifOwed, .dmaOps, .dmaStops, .dmaNextOpid,
      .dmaLastRd, .dmaLastWr, .dmaRdEng, .dmaWrEng, .docCtxs, .docAppends, .docPolicies, .docCancels, .docReleases,
      .docProgs, .docGroups, .docCgroups, .docNextGroup, .docOvercommit, .docSuspended, .docOwedNotices, .curPages,
      .curFrames, .curMaps, .curLimbo, .curCows, .curForks, .curMoves, .curLost, .curLostCtx, .curRetired, .curStaged,
      .curFreed, .curFresh, .tiersObjs, .tiersPanels, .tiersMaps, .tiersMigs, .tiersMoving, .tiersT0used, .tiersRepairs,
      .tiersWriteQ, .tiersObjRun, .tiersObjWait, .cores, .chans, .plinths, .fins, .outBases, .annexQueue, .annexRunning,
      .annexBank0, .annexBank1, .annexFail, .fabPorts, .fabBeat, .fabLinks, .fabPlanes, .fabSeen, .fabSerial,
      .fabPendNotices, .fabQuiesces, .fabMacsec, .fabMacSend, .fabAnnounced, .fabCarMap, .fabCarPend, .fabCarLoads,
      .fabCarWait, .fabColls, .fabArrivals, .fabArrOrder, .fabSentSlots, .fabWindows, .rasSources, .rasQueue, .rasW,
      .rasCons, .rasOvf, .rasIntLeft, .rasIntPend, .rasIntEnd, .catCounters, .catRings, .catWaits, .catStarted, .catFrozen,
      .catFcause, .catDumpBusy, .catDumpFroze, .catWdQuiet, .catWbeat, .catFenceWin, .catSnaps, .catTrace, .secSt,
      .secCause, .secSlot, .secTrial, .secDebug, .secImage, .secSeeded, .secGenKey, .secTdis, .secSessions, .secSpdm,
      .secIdes, .secMeasured, .secUpdate, .secEvents, .secEid, .hubOps, .nextOp] ||| m = m) :
    OnlyM m s (State.resetDevice t) := by
  refine OnlyM.ofStep h ?_ i; clear h i; unfold State.resetDevice
  repeat' first
    | exact fun _ => rfl
    | with_reducible exact .refl _ _
    | extract_lets
    | intro _
    | fail_if_no_progress (with_reducible apply OnlyM.lit_all160; on_goal 2 => decide)

theorem State.pairChan_only {m : Nat} {s t : State} {a1 a2} (h : OnlyM m s t) (i : mask [.cores] ||| m = m) :
    OnlyM m s (State.pairChan t a1 a2) := by
  refine OnlyM.ofStep h ?_ i; clear h i; unfold State.pairChan
  repeat' first
    | with_reducible exact .refl _ _
    | extract_lets
    | (with_reducible apply State.setCore_only; on_goal 2 => decide)

theorem State.replaceChan_only {m : Nat} {s t : State} {a1 a2 a3} (h : OnlyM m s t) (i : mask [.ctlShort, .ctlChannels,
      .ctlRepDirty, .cores, .plinths, .free] ||| m = m) :
    OnlyM m s (State.replaceChan t a1 a2 a3) := by
  refine OnlyM.ofStep h ?_ i; clear h i; unfold State.replaceChan
  repeat' first
    | with_reducible exact .refl _ _
    | extract_lets
    | (with_reducible apply State.setPlinth_only; on_goal 2 => decide)
    | (with_reducible apply State.pick_only; on_goal 2 => decide)
    | (with_reducible apply State.addRepair_only; on_goal 2 => decide)
    | (with_reducible apply State.pairChan_only; on_goal 2 => decide)
    | with_reducible refine OnlyM.ofPair (by assumption) ?_
    | fail_if_no_progress (with_reducible apply OnlyM.lit_ctlShort; on_goal 2 => decide)
    | fail_if_no_progress (with_reducible apply OnlyM.lit_ctlChannels; on_goal 2 => decide)
    | split

theorem State.bringRow_only {m : Nat} {s t : State} {a1 a2} (h : OnlyM m s t) (i : mask [.mem, .chk, .ctlRepRows,
      .ctlRepDirty, .tiersPanels, .tiersRepairs, .plinths, .rasSources, .rasQueue, .rasOvf, .catCounters, .catRings,
      .catTrace, .free] ||| m = m) :
    OnlyM m s (State.bringRow t a1 a2) := by
  refine OnlyM.ofStep h ?_ i; clear h i; unfold State.bringRow
  repeat' first
    | with_reducible exact .refl _ _
    | extract_lets
    | with_reducible apply OnlyM.ite
    | (with_reducible apply State.rowSpare_only; on_goal 2 => decide)
    | with_reducible apply OnlyP.fst
    | fail_if_no_progress (with_reducible apply OnlyM.lit_ctlRepRows; on_goal 2 => decide)

theorem State.bringCol_only {m : Nat} {s t : State} {a1 a2 a3} (h : OnlyM m s t) (i : mask [.mem, .chk, .ctlShort,
      .ctlChannels, .ctlRepCols, .ctlRepDirty, .tiersPanels, .tiersRepairs, .cores, .plinths, .rasSources, .rasQueue,
      .rasOvf, .catCounters, .catRings, .catTrace, .free] ||| m = m) :
    OnlyM m s (State.bringCol t a1 a2 a3) := by
  refine OnlyM.ofStep h ?_ i; clear h i; unfold State.bringCol
  repeat' first
    | with_reducible exact .refl _ _
    | extract_lets
    | with_reducible apply OnlyM.ite
    | (with_reducible apply State.colSpare_only; on_goal 2 => decide)
    | (with_reducible apply State.replaceChan_only; on_goal 2 => decide)
    | with_reducible apply OnlyP.fst
    | fail_if_no_progress (with_reducible apply OnlyM.lit_ctlRepCols; on_goal 2 => decide)

theorem State.trainPlinth_only {m : Nat} {s t : State} {a1 a2} (h : OnlyM m s t) (i : mask [.mem, .chk, .ctlShort,
      .ctlChannels, .ctlRepRows, .ctlRepCols, .ctlRepDirty, .tiersPanels, .tiersRepairs, .cores, .plinths, .rasSources,
      .rasQueue, .rasOvf, .catCounters, .catRings, .catTrace, .free] ||| m = m) :
    OnlyM m s (State.trainPlinth t a1 a2) := by
  refine OnlyM.ofStep h ?_ i; clear h i; unfold State.trainPlinth
  repeat' first
    | with_reducible exact .refl _ _
    | extract_lets
    | intro _
    | (with_reducible apply State.replaceChan_only; on_goal 2 => decide)
    | (with_reducible apply State.bringRow_only; on_goal 2 => decide)
    | (with_reducible apply State.bringCol_only; on_goal 2 => decide)
    | with_reducible apply OnlyM.foldl

theorem State.applyRepair_only {m : Nat} {s t : State} {a1} (h : OnlyM m s t) (i : mask [.ctlRepSkip, .ctlRepDirty, .cores,
      .plinths] ||| m = m) :
    OnlyM m s (State.applyRepair t a1) := by
  refine OnlyM.ofStep h ?_ i; clear h i; unfold State.applyRepair
  repeat' first
    | with_reducible exact .refl _ _
    | extract_lets
    | with_reducible apply OnlyM.ite
    | (with_reducible apply State.addRepair_only; on_goal 2 => decide)
    | (with_reducible apply State.setPlinth_only; on_goal 2 => decide)
    | (with_reducible apply State.pairChan_only; on_goal 2 => decide)
    | fail_if_no_progress (with_reducible apply OnlyM.lit_ctlRepSkip; on_goal 2 => decide)
    | split

theorem State.applyRecord_only {m : Nat} {s t : State} (h : OnlyM m s t) (i : mask [.ctlRepSkip, .ctlRepDirty, .cores,
      .plinths] ||| m = m) :
    OnlyM m s (State.applyRecord t) := by
  refine OnlyM.ofStep h ?_ i; clear h i; unfold State.applyRecord
  repeat' first
    | with_reducible exact .refl _ _
    | extract_lets
    | intro _
    | (with_reducible apply State.applyRepair_only; on_goal 2 => decide)
    | with_reducible apply OnlyM.foldl
    | split

theorem State.thermalStop_only {m : Nat} {s t : State} (h : OnlyM m s t) (i : mask [.mem, .chk, .bad, .ctlSt, .ctlHcause,
      .ctlHoldReq, .ctlHolding, .hifRings, .hifInflight, .hifFences, .hifPoll, .hifOwed, .dmaOps, .dmaStops, .dmaNextOpid,
      .dmaLastRd, .dmaLastWr, .dmaRdEng, .dmaWrEng, .docCtxs, .docAppends, .docPolicies, .docCancels, .docReleases,
      .docProgs, .docGroups, .docCgroups, .docOvercommit, .docSuspended, .docOwedNotices, .curFrames, .curMaps, .curCows,
      .curForks, .curMoves, .curStaged, .tiersObjs, .tiersPanels, .tiersMaps, .tiersMigs, .tiersMoving, .tiersT0used,
      .tiersRepairs, .tiersWriteQ, .tiersObjRun, .tiersObjWait, .cores, .chans, .plinths, .fins, .outBases, .annexQueue,
      .annexRunning, .annexBank0, .annexBank1, .fabPorts, .fabBeat, .fabLinks, .fabPlanes, .fabSeen, .fabSerial,
      .fabPendNotices, .fabQuiesces, .fabMacSend, .fabAnnounced, .fabCarLoads, .fabColls, .fabWindows, .rasSources,
      .rasQueue, .rasOvf, .catCounters, .catRings, .catWaits, .catStarted, .catFrozen, .catFcause, .catDumpFroze,
      .catSnaps, .catTrace, .hubOps, .nextOp, .free, .out] ||| m = m) :
    OnlyM m s (State.thermalStop t) := by
  refine OnlyM.ofStep h ?_ i; clear h i; unfold State.thermalStop
  repeat' first
    | with_reducible exact .refl _ _
    | extract_lets
    | with_reducible apply OnlyM.ite
    | (with_reducible apply State.enterHold_only; on_goal 2 => decide)
    | (with_reducible apply State.abandon_only; on_goal 2 => decide)
    | fail_if_no_progress (with_reducible apply OnlyM.lit_ctlHcause; on_goal 2 => decide)

theorem State.takeSample_only {m : Nat} {s t : State} {a1 a2} (h : OnlyM m s t) (i : mask [.plinths, .rasSources,
      .rasQueue, .rasOvf, .catRings, .catTrace, .secEvents, .free, .out] ||| m = m) :
    OnlyM m s (State.takeSample t a1 a2) := by
  refine OnlyM.ofStep h ?_ i; clear h i; unfold State.takeSample
  repeat' first
    | with_reducible exact .refl _ _
    | extract_lets
    | with_reducible apply OnlyM.ite
    | (with_reducible apply State.setPlinth_only; on_goal 2 => decide)
    | (with_reducible apply State.emit_only; on_goal 2 => decide)
    | (with_reducible apply State.incident_only; on_goal 2 => decide)
    | fail_if_no_progress (with_reducible apply OnlyM.lit_secEvents; on_goal 2 => decide)

theorem State.secFail_only {m : Nat} {s t : State} {a1} (h : OnlyM m s t) (i : mask [.secSt, .secCause] ||| m = m) :
    OnlyM m s (State.secFail t a1) := by
  refine OnlyM.ofStep h ?_ i; clear h i; unfold State.secFail
  repeat' first
    | with_reducible exact .refl _ _
    | extract_lets
    | fail_if_no_progress (with_reducible apply OnlyM.lit_secSt_secCause; on_goal 2 => decide)

theorem State.seedStep_only {m : Nat} {s t : State} {a1 a2} (h : OnlyM m s t) (i : mask [.ctlBootStep, .secSt, .secCause,
      .secSeeded, .secGenKey, .flashRpmc, .flashRpmcKey, .free] ||| m = m) :
    OnlyM m s (State.seedStep t a1 a2) := by
  refine OnlyM.ofStep h ?_ i; clear h i; unfold State.seedStep
  repeat' first
    | with_reducible exact .refl _ _
    | extract_lets
    | (with_reducible apply State.secFail_only; on_goal 2 => decide)
    | fail_if_no_progress (with_reducible apply OnlyM.lit_ctlBootStep_secSeeded_secGenKey_free; on_goal 2 => decide)
    | fail_if_no_progress (with_reducible apply OnlyM.lit_flashRpmc_flashRpmcKey; on_goal 2 => decide)
    | split

theorem State.setDir_only {m : Nat} {s t : State} {a1 a2 a3} (h : OnlyM m s t) (i : mask [.flashDir0, .flashDir1] ||| m = m) :
    OnlyM m s (State.setDir t a1 a2 a3) := by
  refine OnlyM.ofStep h ?_ i; clear h i; unfold State.setDir
  repeat' first
    | with_reducible exact .refl _ _
    | extract_lets
    | fail_if_no_progress (with_reducible apply OnlyM.lit_flashDir0_flashDir1; on_goal 2 => decide)

theorem State.chooseSlot_only {m : Nat} {s t : State} (h : OnlyM m s t) (i : mask [.flashDir0, .flashDir1] ||| m = m) :
    OnlyP m s (State.chooseSlot t) := by
  refine OnlyP.ofStep h ?_ i; clear h i; unfold State.chooseSlot
  repeat' first
    | with_reducible exact .refl _ _
    | extract_lets l1
    | with_reducible apply OnlyP.ite
    | (with_reducible apply State.setDir_only; on_goal 2 => decide)
    | unfold l1
    | with_reducible apply OnlyP.mk'

theorem State.answer_only {m : Nat} {s t : State} {a1 a2 a3 a4} (h : OnlyM m s t) (i : mask [.out] ||| m = m) :
    OnlyM m s (State.answer t a1 a2 a3 a4) := by
  refine OnlyM.ofStep h ?_ i; clear h i; unfold State.answer
  repeat' first
    | with_reducible exact .refl _ _
    | (with_reducible apply State.emit_only; on_goal 2 => decide)

theorem State.answerError_only {m : Nat} {s t : State} {a1 a2} (h : OnlyM m s t) (i : mask [.out] ||| m = m) :
    OnlyM m s (State.answerError t a1 a2) := by
  refine OnlyM.ofStep h ?_ i; clear h i; unfold State.answerError
  repeat' first
    | with_reducible exact .refl _ _
    | (with_reducible apply State.emit_only; on_goal 2 => decide)

theorem State.tdisp_only {m : Nat} {s t : State} {a1 a2 a3 a4} (h : OnlyM m s t) (i : mask [.secTdis, .out] ||| m = m) :
    OnlyM m s (State.tdisp t a1 a2 a3 a4) := by
  refine OnlyM.ofStep h ?_ i; clear h i; unfold State.tdisp
  repeat' first
    | with_reducible exact .refl _ _
    | extract_lets
    | with_reducible apply OnlyM.ite
    | (with_reducible apply State.answer_only; on_goal 2 => decide)
    | (with_reducible apply State.setTdi_only; on_goal 2 => decide)
    | (with_reducible apply State.answerError_only; on_goal 2 => decide)

theorem State.debugRead_only {m : Nat} {s t : State} {a1 a2} (h : OnlyM m s t) (i : mask [.catCounters] ||| m = m) :
    OnlyP m s (State.debugRead t a1 a2) := by
  refine OnlyP.ofStep h ?_ i; clear h i; unfold State.debugRead
  repeat' first
    | with_reducible exact .refl _ _
    | extract_lets l1 l2
    | intro _
    | with_reducible apply OnlyM.ite
    | (with_reducible apply State.count_only; on_goal 2 => decide)
    | with_reducible apply OnlyM.foldl
    | split
    | unfold l2
    | unfold l1
    | with_reducible apply OnlyP.mk'

theorem State.writeSlot_only {m : Nat} {s t : State} {a1 a2} (h : OnlyM m s t) (i : mask [.flashSlots] ||| m = m) :
    OnlyM m s (State.writeSlot t a1 a2) := by
  refine OnlyM.ofStep h ?_ i; clear h i; unfold State.writeSlot
  repeat' first
    | with_reducible exact .refl _ _
    | extract_lets
    | fail_if_no_progress (with_reducible apply OnlyM.lit_flashSlots; on_goal 2 => decide)

theorem State.spdmServe_only {m : Nat} {s t : State} {a1 a2 a3} (h : OnlyM m s t) (i : mask [.out] ||| m = m)
    (e : ∀ u, OnlyM m u (a3 u)) : OnlyM m s (State.spdmServe t a1 a2 a3) := by
  unfold State.spdmServe
  split
  · exact h
  · split
    · exact State.answerError_only h i
    · exact h.step (e _) (Nat.or_self m)

theorem State.setSession_only {m : Nat} {s t : State} {a1 a2} (h : OnlyM m s t) (i : mask [.secSessions] ||| m = m) :
    OnlyM m s (State.setSession t a1 a2) := by
  refine OnlyM.ofStep h ?_ i; clear h i; unfold State.setSession
  repeat' first
    | with_reducible exact .refl _ _
    | extract_lets
    | fail_if_no_progress (with_reducible apply OnlyM.lit_secSessions; on_goal 2 => decide)

theorem State.commitImage_only {m : Nat} {s t : State} {a1} (h : OnlyM m s t) (i : mask [.secTrial, .flashDir0, .flashDir1,
      .flashRpmc] ||| m = m) :
    OnlyM m s (State.commitImage t a1) := by
  refine OnlyM.ofStep h ?_ i; clear h i; unfold State.commitImage
  repeat' first
    | with_reducible exact .refl _ _
    | extract_lets
    | (with_reducible apply State.setDir_only; on_goal 2 => decide)
    | fail_if_no_progress (with_reducible apply OnlyM.lit_secTrial_flashRpmc; on_goal 2 => decide)

theorem State.debugWrite_only {m : Nat} {s t : State} {a1 a2} (h : OnlyM m s t) (i : mask [.mem, .chk, .bad, .cores,
      .rasSources, .rasQueue, .rasOvf, .catCounters, .catRings, .catTrace, .free] ||| m = m) :
    OnlyM m s (State.debugWrite t a1 a2) := by
  refine OnlyM.ofStep h ?_ i; clear h i; unfold State.debugWrite
  repeat' first
    | with_reducible exact .refl _ _
    | extract_lets
    | (with_reducible apply State.writeChan_only; on_goal 2 => decide)
    | (with_reducible apply State.writeHall_only; on_goal 2 => decide)
    | (with_reducible apply State.writeScratch_only; on_goal 2 => decide)
    | with_reducible apply OnlyP.fst
    | split

theorem State.writeFwCmd_only {m : Nat} {s t : State} {a1 a2} (h : OnlyM m s t) (i : mask [.ctlWerr, .secTrial, .flashDir0,
      .flashDir1, .flashRpmc] ||| m = m) :
    OnlyM m s (State.writeFwCmd t a1 a2) := by
  refine OnlyM.ofStep h ?_ i; clear h i; unfold State.writeFwCmd
  repeat' first
    | with_reducible exact .refl _ _
    | extract_lets
    | (with_reducible apply State.commitImage_only; on_goal 2 => decide)
    | (with_reducible apply State.refuseWrite_only; on_goal 2 => decide)
    | (with_reducible apply State.setDir_only; on_goal 2 => decide)
    | fail_if_no_progress (with_reducible apply OnlyM.lit_secTrial; on_goal 2 => decide)
    | split

theorem State.setSpdm_only {m : Nat} {s t : State} {a1 a2} (h : OnlyM m s t) (i : mask [.secSpdm] ||| m = m) :
    OnlyM m s (State.setSpdm t a1 a2) := by
  refine OnlyM.ofStep h ?_ i; clear h i; unfold State.setSpdm
  repeat' first
    | with_reducible exact .refl _ _
    | extract_lets
    | fail_if_no_progress (with_reducible apply OnlyM.lit_secSpdm; on_goal 2 => decide)

theorem State.writeCount_only {m : Nat} {s t : State} {a1 a2 a3 a4} (h : OnlyM m s t) (i : mask [.ctlWerr,
      .fabBeat] ||| m = m) :
    OnlyM m s (State.writeCount t a1 a2 a3 a4) := by
  refine OnlyM.ofStep h ?_ i; clear h i; unfold State.writeCount
  repeat' first
    | with_reducible exact .refl _ _
    | extract_lets
    | with_reducible apply OnlyM.ite
    | (with_reducible apply State.refuseWrite_only; on_goal 2 => decide)
    | (with_reducible apply State.setBeat_only; on_goal 2 => decide)

theorem State.writeFields_only {m : Nat} {s t : State} {a1 a2 a3 a4 a5} (h : OnlyM m s t) (i : mask [.regs, .inForce,
      .ctlWerr] ||| m = m) :
    OnlyM m s (State.writeFields t a1 a2 a3 a4 a5) := by
  refine OnlyM.ofStep h ?_ i; clear h i; unfold State.writeFields
  repeat' first
    | with_reducible exact .refl _ _
    | extract_lets
    | with_reducible apply OnlyM.ite
    | (with_reducible apply State.refuseWrite_only; on_goal 2 => decide)
    | (with_reducible apply State.refuseAll_only; on_goal 2 => decide)
    | fail_if_no_progress (with_reducible apply OnlyM.lit_regs_inForce; on_goal 2 => decide)

theorem State.clearWerr_only {m : Nat} {s t : State} {a1 a2} (h : OnlyM m s t) (i : mask [.ctlWerr] ||| m = m) :
    OnlyM m s (State.clearWerr t a1 a2) := by
  refine OnlyM.ofStep h ?_ i; clear h i; unfold State.clearWerr
  repeat' first
    | with_reducible exact .refl _ _
    | extract_lets
    | fail_if_no_progress (with_reducible apply OnlyM.lit_ctlWerr; on_goal 2 => decide)

theorem State.fenceCommand_only {m : Nat} {s t : State} {a1} (h : OnlyM m s t) (i : mask [.cores, .rasSources, .rasQueue,
      .rasOvf, .catRings, .catFenceWin, .catTrace, .free] ||| m = m) :
    OnlyM m s (State.fenceCommand t a1) := by
  refine OnlyM.ofStep h ?_ i; clear h i; unfold State.fenceCommand
  repeat' first
    | with_reducible exact .refl _ _
    | extract_lets
    | (with_reducible apply State.fenceUnit_only; on_goal 2 => decide)
    | (with_reducible apply State.setCore_only; on_goal 2 => decide)
    | split

theorem State.portsFollow_only {m : Nat} {s t : State} {a1 a2} (h : OnlyM m s t) (i : mask [.docGroups, .fabPorts,
      .fabBeat, .fabLinks, .fabPlanes, .fabSeen, .fabSerial, .fabPendNotices, .fabQuiesces, .fabMacSend, .fabAnnounced,
      .catCounters, .catRings, .catTrace, .free, .out] ||| m = m) :
    OnlyM m s (State.portsFollow t a1 a2) := by
  refine OnlyM.ofStep h ?_ i; clear h i; unfold State.portsFollow
  repeat' first
    | with_reducible exact .refl _ _
    | extract_lets
    | intro _
    | with_reducible apply OnlyM.ite
    | (with_reducible apply State.portsStart_only; on_goal 2 => decide)
    | (with_reducible apply State.portTo_only; on_goal 2 => decide)
    | (with_reducible apply State.portStart_only; on_goal 2 => decide)
    | with_reducible apply OnlyM.foldl
    | split

theorem State.writePf_only {m : Nat} {s t : State} {a1 a2} (h : OnlyM m s t) (i : mask [.regs, .inForce, .mem, .chk, .bad,
      .ctlCBusy, .ctlCSeq, .ctlWerr, .ctlHoldReq, .ctlHolding, .ctlRepDirty, .hifRings, .hifInflight, .hifFences, .hifPoll,
      .hifConsNext, .hifMsixPend, .hifOwedVecs, .hifOwed, .dmaOps, .dmaStops, .dmaNextOpid, .dmaLastRd, .dmaLastWr,
      .dmaRdEng, .dmaWrEng, .docCtxs, .docAppends, .docPolicies, .docCancels, .docReleases, .docProgs, .docGroups,
      .docCgroups, .docNextGroup, .docOvercommit, .docSuspended, .curPages, .curFrames, .curMaps, .curLimbo, .curForks,
      .curMoves, .curRetired, .curFreed, .curFresh, .tiersObjs, .tiersPanels, .tiersMaps, .tiersMigs, .tiersT0used,
      .tiersRepairs, .tiersWriteQ, .tiersObjRun, .tiersObjWait, .cores, .chans, .plinths, .fabPorts, .fabBeat, .fabLinks,
      .fabPlanes, .fabSeen, .fabSerial, .fabPendNotices, .fabQuiesces, .fabMacSend, .fabAnnounced, .fabCarMap, .fabCarPend,
      .fabCarLoads, .fabCarWait, .fabColls, .fabArrivals, .fabSentSlots, .fabWindows, .rasSources, .rasQueue, .rasW,
      .rasCons, .rasOvf, .rasIntLeft, .rasIntPend, .rasIntEnd, .catCounters, .catRings, .catWaits, .catStarted, .catFrozen,
      .catFcause, .catDumpBusy, .catDumpFroze, .catWdQuiet, .catWbeat, .catFenceWin, .catSnaps, .catTrace, .secTrial,
      .secEvents, .flashDir0, .flashDir1, .flashRpmc, .hubOps, .nextOp, .free, .out] ||| m = m) :
    OnlyM m s (State.writePf t a1 a2) := by
  refine OnlyM.ofStep h ?_ i; clear h i; unfold State.writePf
  repeat' first
    | with_reducible exact .refl _ _
    | extract_lets
    | with_reducible apply OnlyM.ite
    | (with_reducible apply State.clearWerr_only; on_goal 2 => decide)
    | (with_reducible apply State.writeCommit_only; on_goal 2 => decide)
    | (with_reducible apply State.writeGlbCmd_only; on_goal 2 => decide)
    | (with_reducible apply State.writeRcfg_only; on_goal 2 => decide)
    | (with_reducible apply State.writeBeatCtrl_only; on_goal 2 => decide)
    | (with_reducible apply State.writeCount_only; on_goal 2 => decide)
    | (with_reducible apply State.repairCommand_only; on_goal 2 => decide)
    | (with_reducible apply State.writeFwCmd_only; on_goal 2 => decide)
    | (with_reducible apply State.takeSnapshot_only; on_goal 2 => decide)
    | (with_reducible apply State.readCommand_only; on_goal 2 => decide)
    | (with_reducible apply State.mark_only; on_goal 2 => decide)
    | (with_reducible apply State.traceCommand_only; on_goal 2 => decide)
    | (with_reducible apply State.incidentEnable_only; on_goal 2 => decide)
    | (with_reducible apply State.fenceCommand_only; on_goal 2 => decide)
    | (with_reducible apply State.clearSource_only; on_goal 2 => decide)
    | (with_reducible apply State.portsFollow_only; on_goal 2 => decide)
    | (with_reducible apply State.writeFields_only; on_goal 2 => decide)
    | split

theorem State.msixWrite_only {m : Nat} {s t : State} {a1 a2 a3} (h : OnlyM m s t) (i : mask [.hifMsixTable, .hifMsixPend,
      .out] ||| m = m) :
    OnlyM m s (State.msixWrite t a1 a2 a3) := by
  refine OnlyM.ofStep h ?_ i; clear h i; unfold State.msixWrite
  repeat' first
    | with_reducible exact .refl _ _
    | extract_lets
    | with_reducible apply OnlyM.ite
    | (with_reducible apply State.msix_only; on_goal 2 => decide)
    | fail_if_no_progress (with_reducible apply OnlyM.lit_hifMsixTable; on_goal 2 => decide)
    | fail_if_no_progress (with_reducible apply OnlyM.lit_hifMsixPend; on_goal 2 => decide)

theorem State.writeVf_only {m : Nat} {s t : State} {a1 a2 a3} (h : OnlyM m s t) (i : mask [.regs, .inForce, .vfRegs,
      .ctlWerr, .hifRings, .catSnaps] ||| m = m) :
    OnlyM m s (State.writeVf t a1 a2 a3) := by
  refine OnlyM.ofStep h ?_ i; clear h i; unfold State.writeVf
  repeat' first
    | with_reducible exact .refl _ _
    | extract_lets
    | with_reducible apply OnlyM.ite
    | (with_reducible apply State.clearWerr_only; on_goal 2 => decide)
    | (with_reducible apply State.takeSnapshot_only; on_goal 2 => decide)
    | (with_reducible apply State.writeRcfg_only; on_goal 2 => decide)
    | (with_reducible apply State.writeFields_only; on_goal 2 => decide)
    | fail_if_no_progress (with_reducible apply OnlyM.lit_vfRegs; on_goal 2 => decide)
    | split

theorem State.writeWord_only {m : Nat} {s t : State} {a1 a2 a3} (h : OnlyM m s t) (i : mask [.regs, .inForce, .vfRegs,
      .mem, .chk, .bad, .ctlCBusy, .ctlCSeq, .ctlWerr, .ctlHoldReq, .ctlHolding, .ctlRepDirty, .hifRings, .hifInflight,
      .hifFences, .hifPoll, .hifConsNext, .hifMsixTable, .hifMsixPend, .hifOwedVecs, .hifOwed, .dmaOps, .dmaStops,
      .dmaNextOpid, .dmaLastRd, .dmaLastWr, .dmaRdEng, .dmaWrEng, .docCtxs, .docAppends, .docPolicies, .docCancels,
      .docReleases, .docProgs, .docGroups, .docCgroups, .docNextGroup, .docOvercommit, .docSuspended, .curPages,
      .curFrames, .curMaps, .curLimbo, .curForks, .curMoves, .curRetired, .curFreed, .curFresh, .tiersObjs, .tiersPanels,
      .tiersMaps, .tiersMigs, .tiersT0used, .tiersRepairs, .tiersWriteQ, .tiersObjRun, .tiersObjWait, .cores, .chans,
      .plinths, .fabPorts, .fabBeat, .fabLinks, .fabPlanes, .fabSeen, .fabSerial, .fabPendNotices, .fabQuiesces,
      .fabMacSend, .fabAnnounced, .fabCarMap, .fabCarPend, .fabCarLoads, .fabCarWait, .fabColls, .fabArrivals,
      .fabSentSlots, .fabWindows, .rasSources, .rasQueue, .rasW, .rasCons, .rasOvf, .rasIntLeft, .rasIntPend, .rasIntEnd,
      .catCounters, .catRings, .catWaits, .catStarted, .catFrozen, .catFcause, .catDumpBusy, .catDumpFroze, .catWdQuiet,
      .catWbeat, .catFenceWin, .catSnaps, .catTrace, .secTrial, .secEvents, .flashDir0, .flashDir1, .flashRpmc, .hubOps,
      .nextOp, .free, .out] ||| m = m) :
    OnlyM m s (State.writeWord t a1 a2 a3) := by
  refine OnlyM.ofStep h ?_ i; clear h i; unfold State.writeWord
  repeat' first
    | with_reducible exact .refl _ _
    | extract_lets
    | with_reducible apply OnlyM.ite
    | (with_reducible apply State.writePf_only; on_goal 2 => decide)
    | (with_reducible apply State.msixWrite_only; on_goal 2 => decide)
    | (with_reducible apply State.writeVf_only; on_goal 2 => decide)
    | split

theorem State.pairRead_only {m : Nat} {s t : State} {a1 a2 a3} (h : OnlyM m s t) (i : mask [.ctlLatches] ||| m = m) :
    OnlyP m s (State.pairRead t a1 a2 a3) := by
  refine OnlyP.ofStep h ?_ i; clear h i; unfold State.pairRead
  repeat' first
    | with_reducible exact .refl _ _
    | extract_lets l1 l2 l3
    | intro _
    | with_reducible apply OnlyP.ite
    | with_reducible apply OnlyP.foldl
    | fail_if_no_progress (with_reducible apply OnlyM.lit_ctlLatches; on_goal 2 => decide)
    | split
    | unfold l3
    | unfold l2
    | unfold l1
    | with_reducible apply OnlyP.mk'

end Sys2Proof.Machine
end

