-- ==== Sys2Proof/Laws/State.lean ====
section
/-! SUPPORT. The parts of the state by number: what was put reads back, another number's part and every other field stay. -/

namespace Sys2Proof.Machine

@[simp] theorem State.setCore_core (s : State) {c} {k} : (s.setCore c k).core c = k := Tbl.look_put_self _ _ _ _
theorem State.setCore_core_ne (s : State) {c j} {k} (h : j ≠ c) : (s.setCore c k).core j = s.core j := Tbl.look_put_ne _ _ _ _ h
@[simp] theorem State.setCore_pending (s : State) {c} {k} : (s.setCore c k).pending = s.pending := rfl
@[simp] theorem State.setCore_regs (s : State) {c} {k} : (s.setCore c k).regs = s.regs := rfl
@[simp] theorem State.setCore_inForce (s : State) {c} {k} : (s.setCore c k).inForce = s.inForce := rfl
@[simp] theorem State.setCore_vfRegs (s : State) {c} {k} : (s.setCore c k).vfRegs = s.vfRegs := rfl
@[simp] theorem State.setCore_mem (s : State) {c} {k} : (s.setCore c k).mem = s.mem := rfl
@[simp] theorem State.setCore_chk (s : State) {c} {k} : (s.setCore c k).chk = s.chk := rfl
@[simp] theorem State.setCore_bad (s : State) {c} {k} : (s.setCore c k).bad = s.bad := rfl
@[simp] theorem State.setCore_chans (s : State) {c} {k} : (s.setCore c k).chans = s.chans := rfl
@[simp] theorem State.setCore_plinths (s : State) {c} {k} : (s.setCore c k).plinths = s.plinths := rfl
@[simp] theorem State.setCore_fins (s : State) {c} {k} : (s.setCore c k).fins = s.fins := rfl
@[simp] theorem State.setCore_outBases (s : State) {c} {k} : (s.setCore c k).outBases = s.outBases := rfl
@[simp] theorem State.setCore_hubOps (s : State) {c} {k} : (s.setCore c k).hubOps = s.hubOps := rfl
@[simp] theorem State.setCore_nextOp (s : State) {c} {k} : (s.setCore c k).nextOp = s.nextOp := rfl
@[simp] theorem State.setCore_free (s : State) {c} {k} : (s.setCore c k).free = s.free := rfl
@[simp] theorem State.setCore_out (s : State) {c} {k} : (s.setCore c k).out = s.out := rfl
@[simp] theorem State.setCore_ctl (s : State) {c} {k} : (s.setCore c k).ctl = s.ctl := rfl
@[simp] theorem State.setCore_hif (s : State) {c} {k} : (s.setCore c k).hif = s.hif := rfl
@[simp] theorem State.setCore_dma (s : State) {c} {k} : (s.setCore c k).dma = s.dma := rfl
@[simp] theorem State.setCore_doc (s : State) {c} {k} : (s.setCore c k).doc = s.doc := rfl
@[simp] theorem State.setCore_cur (s : State) {c} {k} : (s.setCore c k).cur = s.cur := rfl
@[simp] theorem State.setCore_tiers (s : State) {c} {k} : (s.setCore c k).tiers = s.tiers := rfl
@[simp] theorem State.setCore_annex (s : State) {c} {k} : (s.setCore c k).annex = s.annex := rfl
@[simp] theorem State.setCore_fab (s : State) {c} {k} : (s.setCore c k).fab = s.fab := rfl
@[simp] theorem State.setCore_ras (s : State) {c} {k} : (s.setCore c k).ras = s.ras := rfl
@[simp] theorem State.setCore_cat (s : State) {c} {k} : (s.setCore c k).cat = s.cat := rfl
@[simp] theorem State.setCore_sec (s : State) {c} {k} : (s.setCore c k).sec = s.sec := rfl
@[simp] theorem State.setCore_chan (s : State) {c} {k} (j : Nat) : (s.setCore c k).chan j = s.chan j := rfl
@[simp] theorem State.setCore_plinth (s : State) {c} {k} (j : Nat) : (s.setCore c k).plinth j = s.plinth j := rfl
@[simp] theorem State.setCore_fin (s : State) {c} {k} (j : Nat) : (s.setCore c k).fin j = s.fin j := rfl
@[simp] theorem State.setCore_ctx (s : State) {c} {k} (j : Nat) : (s.setCore c k).ctx j = s.ctx j := rfl
@[simp] theorem State.setCore_ring (s : State) {c} {k} (j : Nat) : (s.setCore c k).ring j = s.ring j := rfl
@[simp] theorem State.setCore_page (s : State) {c} {k} (j : Nat) : (s.setCore c k).page j = s.page j := rfl
@[simp] theorem State.setCore_kvMap (s : State) {c} {k} (j : Nat) : (s.setCore c k).kvMap j = s.kvMap j := rfl
@[simp] theorem State.setCore_port (s : State) {c} {k} (j : Nat) : (s.setCore c k).port j = s.port j := rfl
@[simp] theorem State.setCore_window (s : State) {c} {k} (j : Nat) : (s.setCore c k).window j = s.window j := rfl
@[simp] theorem State.setCore_tdi (s : State) {c} {k} (j : Nat) : (s.setCore c k).tdi j = s.tdi j := rfl
@[simp] theorem State.setCore_source (s : State) {c} {k} (j : Nat) : (s.setCore c k).source j = s.source j := rfl

@[simp] theorem State.setChan_chan (s : State) {c} {x} : (s.setChan c x).chan c = x := Tbl.look_put_self _ _ _ _
theorem State.setChan_chan_ne (s : State) {c j} {x} (h : j ≠ c) : (s.setChan c x).chan j = s.chan j := Tbl.look_put_ne _ _ _ _ h
@[simp] theorem State.setChan_pending (s : State) {c} {x} : (s.setChan c x).pending = s.pending := rfl
@[simp] theorem State.setChan_regs (s : State) {c} {x} : (s.setChan c x).regs = s.regs := rfl
@[simp] theorem State.setChan_inForce (s : State) {c} {x} : (s.setChan c x).inForce = s.inForce := rfl
@[simp] theorem State.setChan_vfRegs (s : State) {c} {x} : (s.setChan c x).vfRegs = s.vfRegs := rfl
@[simp] theorem State.setChan_mem (s : State) {c} {x} : (s.setChan c x).mem = s.mem := rfl
@[simp] theorem State.setChan_chk (s : State) {c} {x} : (s.setChan c x).chk = s.chk := rfl
@[simp] theorem State.setChan_bad (s : State) {c} {x} : (s.setChan c x).bad = s.bad := rfl
@[simp] theorem State.setChan_cores (s : State) {c} {x} : (s.setChan c x).cores = s.cores := rfl
@[simp] theorem State.setChan_plinths (s : State) {c} {x} : (s.setChan c x).plinths = s.plinths := rfl
@[simp] theorem State.setChan_fins (s : State) {c} {x} : (s.setChan c x).fins = s.fins := rfl
@[simp] theorem State.setChan_outBases (s : State) {c} {x} : (s.setChan c x).outBases = s.outBases := rfl
@[simp] theorem State.setChan_hubOps (s : State) {c} {x} : (s.setChan c x).hubOps = s.hubOps := rfl
@[simp] theorem State.setChan_nextOp (s : State) {c} {x} : (s.setChan c x).nextOp = s.nextOp := rfl
@[simp] theorem State.setChan_free (s : State) {c} {x} : (s.setChan c x).free = s.free := rfl
@[simp] theorem State.setChan_out (s : State) {c} {x} : (s.setChan c x).out = s.out := rfl
@[simp] theorem State.setChan_ctl (s : State) {c} {x} : (s.setChan c x).ctl = s.ctl := rfl
@[simp] theorem State.setChan_hif (s : State) {c} {x} : (s.setChan c x).hif = s.hif := rfl
@[simp] theorem State.setChan_dma (s : State) {c} {x} : (s.setChan c x).dma = s.dma := rfl
@[simp] theorem State.setChan_doc (s : State) {c} {x} : (s.setChan c x).doc = s.doc := rfl
@[simp] theorem State.setChan_cur (s : State) {c} {x} : (s.setChan c x).cur = s.cur := rfl
@[simp] theorem State.setChan_tiers (s : State) {c} {x} : (s.setChan c x).tiers = s.tiers := rfl
@[simp] theorem State.setChan_annex (s : State) {c} {x} : (s.setChan c x).annex = s.annex := rfl
@[simp] theorem State.setChan_fab (s : State) {c} {x} : (s.setChan c x).fab = s.fab := rfl
@[simp] theorem State.setChan_ras (s : State) {c} {x} : (s.setChan c x).ras = s.ras := rfl
@[simp] theorem State.setChan_cat (s : State) {c} {x} : (s.setChan c x).cat = s.cat := rfl
@[simp] theorem State.setChan_sec (s : State) {c} {x} : (s.setChan c x).sec = s.sec := rfl
@[simp] theorem State.setChan_core (s : State) {c} {x} (j : Nat) : (s.setChan c x).core j = s.core j := rfl
@[simp] theorem State.setChan_plinth (s : State) {c} {x} (j : Nat) : (s.setChan c x).plinth j = s.plinth j := rfl
@[simp] theorem State.setChan_fin (s : State) {c} {x} (j : Nat) : (s.setChan c x).fin j = s.fin j := rfl
@[simp] theorem State.setChan_ctx (s : State) {c} {x} (j : Nat) : (s.setChan c x).ctx j = s.ctx j := rfl
@[simp] theorem State.setChan_ring (s : State) {c} {x} (j : Nat) : (s.setChan c x).ring j = s.ring j := rfl
@[simp] theorem State.setChan_page (s : State) {c} {x} (j : Nat) : (s.setChan c x).page j = s.page j := rfl
@[simp] theorem State.setChan_kvMap (s : State) {c} {x} (j : Nat) : (s.setChan c x).kvMap j = s.kvMap j := rfl
@[simp] theorem State.setChan_port (s : State) {c} {x} (j : Nat) : (s.setChan c x).port j = s.port j := rfl
@[simp] theorem State.setChan_window (s : State) {c} {x} (j : Nat) : (s.setChan c x).window j = s.window j := rfl
@[simp] theorem State.setChan_tdi (s : State) {c} {x} (j : Nat) : (s.setChan c x).tdi j = s.tdi j := rfl
@[simp] theorem State.setChan_source (s : State) {c} {x} (j : Nat) : (s.setChan c x).source j = s.source j := rfl

@[simp] theorem State.setPlinth_plinth (s : State) {p} {x} : (s.setPlinth p x).plinth p = x := Tbl.look_put_self _ _ _ _
theorem State.setPlinth_plinth_ne (s : State) {p j} {x} (h : j ≠ p) : (s.setPlinth p x).plinth j = s.plinth j := Tbl.look_put_ne _ _ _ _ h
@[simp] theorem State.setPlinth_pending (s : State) {p} {x} : (s.setPlinth p x).pending = s.pending := rfl
@[simp] theorem State.setPlinth_regs (s : State) {p} {x} : (s.setPlinth p x).regs = s.regs := rfl
@[simp] theorem State.setPlinth_inForce (s : State) {p} {x} : (s.setPlinth p x).inForce = s.inForce := rfl
@[simp] theorem State.setPlinth_vfRegs (s : State) {p} {x} : (s.setPlinth p x).vfRegs = s.vfRegs := rfl
@[simp] theorem State.setPlinth_mem (s : State) {p} {x} : (s.setPlinth p x).mem = s.mem := rfl
@[simp] theorem State.setPlinth_chk (s : State) {p} {x} : (s.setPlinth p x).chk = s.chk := rfl
@[simp] theorem State.setPlinth_bad (s : State) {p} {x} : (s.setPlinth p x).bad = s.bad := rfl
@[simp] theorem State.setPlinth_cores (s : State) {p} {x} : (s.setPlinth p x).cores = s.cores := rfl
@[simp] theorem State.setPlinth_chans (s : State) {p} {x} : (s.setPlinth p x).chans = s.chans := rfl
@[simp] theorem State.setPlinth_fins (s : State) {p} {x} : (s.setPlinth p x).fins = s.fins := rfl
@[simp] theorem State.setPlinth_outBases (s : State) {p} {x} : (s.setPlinth p x).outBases = s.outBases := rfl
@[simp] theorem State.setPlinth_hubOps (s : State) {p} {x} : (s.setPlinth p x).hubOps = s.hubOps := rfl
@[simp] theorem State.setPlinth_nextOp (s : State) {p} {x} : (s.setPlinth p x).nextOp = s.nextOp := rfl
@[simp] theorem State.setPlinth_free (s : State) {p} {x} : (s.setPlinth p x).free = s.free := rfl
@[simp] theorem State.setPlinth_out (s : State) {p} {x} : (s.setPlinth p x).out = s.out := rfl
@[simp] theorem State.setPlinth_ctl (s : State) {p} {x} : (s.setPlinth p x).ctl = s.ctl := rfl
@[simp] theorem State.setPlinth_hif (s : State) {p} {x} : (s.setPlinth p x).hif = s.hif := rfl
@[simp] theorem State.setPlinth_dma (s : State) {p} {x} : (s.setPlinth p x).dma = s.dma := rfl
@[simp] theorem State.setPlinth_doc (s : State) {p} {x} : (s.setPlinth p x).doc = s.doc := rfl
@[simp] theorem State.setPlinth_cur (s : State) {p} {x} : (s.setPlinth p x).cur = s.cur := rfl
@[simp] theorem State.setPlinth_tiers (s : State) {p} {x} : (s.setPlinth p x).tiers = s.tiers := rfl
@[simp] theorem State.setPlinth_annex (s : State) {p} {x} : (s.setPlinth p x).annex = s.annex := rfl
@[simp] theorem State.setPlinth_fab (s : State) {p} {x} : (s.setPlinth p x).fab = s.fab := rfl
@[simp] theorem State.setPlinth_ras (s : State) {p} {x} : (s.setPlinth p x).ras = s.ras := rfl
@[simp] theorem State.setPlinth_cat (s : State) {p} {x} : (s.setPlinth p x).cat = s.cat := rfl
@[simp] theorem State.setPlinth_sec (s : State) {p} {x} : (s.setPlinth p x).sec = s.sec := rfl
@[simp] theorem State.setPlinth_core (s : State) {p} {x} (j : Nat) : (s.setPlinth p x).core j = s.core j := rfl
@[simp] theorem State.setPlinth_chan (s : State) {p} {x} (j : Nat) : (s.setPlinth p x).chan j = s.chan j := rfl
@[simp] theorem State.setPlinth_fin (s : State) {p} {x} (j : Nat) : (s.setPlinth p x).fin j = s.fin j := rfl
@[simp] theorem State.setPlinth_ctx (s : State) {p} {x} (j : Nat) : (s.setPlinth p x).ctx j = s.ctx j := rfl
@[simp] theorem State.setPlinth_ring (s : State) {p} {x} (j : Nat) : (s.setPlinth p x).ring j = s.ring j := rfl
@[simp] theorem State.setPlinth_page (s : State) {p} {x} (j : Nat) : (s.setPlinth p x).page j = s.page j := rfl
@[simp] theorem State.setPlinth_kvMap (s : State) {p} {x} (j : Nat) : (s.setPlinth p x).kvMap j = s.kvMap j := rfl
@[simp] theorem State.setPlinth_port (s : State) {p} {x} (j : Nat) : (s.setPlinth p x).port j = s.port j := rfl
@[simp] theorem State.setPlinth_window (s : State) {p} {x} (j : Nat) : (s.setPlinth p x).window j = s.window j := rfl
@[simp] theorem State.setPlinth_tdi (s : State) {p} {x} (j : Nat) : (s.setPlinth p x).tdi j = s.tdi j := rfl
@[simp] theorem State.setPlinth_source (s : State) {p} {x} (j : Nat) : (s.setPlinth p x).source j = s.source j := rfl

@[simp] theorem State.setFin_fin (s : State) {f} {x} : (s.setFin f x).fin f = x := Tbl.look_put_self _ _ _ _
theorem State.setFin_fin_ne (s : State) {f j} {x} (h : j ≠ f) : (s.setFin f x).fin j = s.fin j := Tbl.look_put_ne _ _ _ _ h
@[simp] theorem State.setFin_pending (s : State) {f} {x} : (s.setFin f x).pending = s.pending := rfl
@[simp] theorem State.setFin_regs (s : State) {f} {x} : (s.setFin f x).regs = s.regs := rfl
@[simp] theorem State.setFin_inForce (s : State) {f} {x} : (s.setFin f x).inForce = s.inForce := rfl
@[simp] theorem State.setFin_vfRegs (s : State) {f} {x} : (s.setFin f x).vfRegs = s.vfRegs := rfl
@[simp] theorem State.setFin_mem (s : State) {f} {x} : (s.setFin f x).mem = s.mem := rfl
@[simp] theorem State.setFin_chk (s : State) {f} {x} : (s.setFin f x).chk = s.chk := rfl
@[simp] theorem State.setFin_bad (s : State) {f} {x} : (s.setFin f x).bad = s.bad := rfl
@[simp] theorem State.setFin_cores (s : State) {f} {x} : (s.setFin f x).cores = s.cores := rfl
@[simp] theorem State.setFin_chans (s : State) {f} {x} : (s.setFin f x).chans = s.chans := rfl
@[simp] theorem State.setFin_plinths (s : State) {f} {x} : (s.setFin f x).plinths = s.plinths := rfl
@[simp] theorem State.setFin_outBases (s : State) {f} {x} : (s.setFin f x).outBases = s.outBases := rfl
@[simp] theorem State.setFin_hubOps (s : State) {f} {x} : (s.setFin f x).hubOps = s.hubOps := rfl
@[simp] theorem State.setFin_nextOp (s : State) {f} {x} : (s.setFin f x).nextOp = s.nextOp := rfl
@[simp] theorem State.setFin_free (s : State) {f} {x} : (s.setFin f x).free = s.free := rfl
@[simp] theorem State.setFin_out (s : State) {f} {x} : (s.setFin f x).out = s.out := rfl
@[simp] theorem State.setFin_ctl (s : State) {f} {x} : (s.setFin f x).ctl = s.ctl := rfl
@[simp] theorem State.setFin_hif (s : State) {f} {x} : (s.setFin f x).hif = s.hif := rfl
@[simp] theorem State.setFin_dma (s : State) {f} {x} : (s.setFin f x).dma = s.dma := rfl
@[simp] theorem State.setFin_doc (s : State) {f} {x} : (s.setFin f x).doc = s.doc := rfl
@[simp] theorem State.setFin_cur (s : State) {f} {x} : (s.setFin f x).cur = s.cur := rfl
@[simp] theorem State.setFin_tiers (s : State) {f} {x} : (s.setFin f x).tiers = s.tiers := rfl
@[simp] theorem State.setFin_annex (s : State) {f} {x} : (s.setFin f x).annex = s.annex := rfl
@[simp] theorem State.setFin_fab (s : State) {f} {x} : (s.setFin f x).fab = s.fab := rfl
@[simp] theorem State.setFin_ras (s : State) {f} {x} : (s.setFin f x).ras = s.ras := rfl
@[simp] theorem State.setFin_cat (s : State) {f} {x} : (s.setFin f x).cat = s.cat := rfl
@[simp] theorem State.setFin_sec (s : State) {f} {x} : (s.setFin f x).sec = s.sec := rfl
@[simp] theorem State.setFin_core (s : State) {f} {x} (j : Nat) : (s.setFin f x).core j = s.core j := rfl
@[simp] theorem State.setFin_chan (s : State) {f} {x} (j : Nat) : (s.setFin f x).chan j = s.chan j := rfl
@[simp] theorem State.setFin_plinth (s : State) {f} {x} (j : Nat) : (s.setFin f x).plinth j = s.plinth j := rfl
@[simp] theorem State.setFin_ctx (s : State) {f} {x} (j : Nat) : (s.setFin f x).ctx j = s.ctx j := rfl
@[simp] theorem State.setFin_ring (s : State) {f} {x} (j : Nat) : (s.setFin f x).ring j = s.ring j := rfl
@[simp] theorem State.setFin_page (s : State) {f} {x} (j : Nat) : (s.setFin f x).page j = s.page j := rfl
@[simp] theorem State.setFin_kvMap (s : State) {f} {x} (j : Nat) : (s.setFin f x).kvMap j = s.kvMap j := rfl
@[simp] theorem State.setFin_port (s : State) {f} {x} (j : Nat) : (s.setFin f x).port j = s.port j := rfl
@[simp] theorem State.setFin_window (s : State) {f} {x} (j : Nat) : (s.setFin f x).window j = s.window j := rfl
@[simp] theorem State.setFin_tdi (s : State) {f} {x} (j : Nat) : (s.setFin f x).tdi j = s.tdi j := rfl
@[simp] theorem State.setFin_source (s : State) {f} {x} (j : Nat) : (s.setFin f x).source j = s.source j := rfl

@[simp] theorem State.setCtx_ctx (s : State) {k} {x} : (s.setCtx k x).ctx k = x := Tbl.look_put_self _ _ _ _
theorem State.setCtx_ctx_ne (s : State) {k j} {x} (h : j ≠ k) : (s.setCtx k x).ctx j = s.ctx j := Tbl.look_put_ne _ _ _ _ h
@[simp] theorem State.setCtx_pending (s : State) {k} {x} : (s.setCtx k x).pending = s.pending := rfl
@[simp] theorem State.setCtx_regs (s : State) {k} {x} : (s.setCtx k x).regs = s.regs := rfl
@[simp] theorem State.setCtx_inForce (s : State) {k} {x} : (s.setCtx k x).inForce = s.inForce := rfl
@[simp] theorem State.setCtx_vfRegs (s : State) {k} {x} : (s.setCtx k x).vfRegs = s.vfRegs := rfl
@[simp] theorem State.setCtx_mem (s : State) {k} {x} : (s.setCtx k x).mem = s.mem := rfl
@[simp] theorem State.setCtx_chk (s : State) {k} {x} : (s.setCtx k x).chk = s.chk := rfl
@[simp] theorem State.setCtx_bad (s : State) {k} {x} : (s.setCtx k x).bad = s.bad := rfl
@[simp] theorem State.setCtx_cores (s : State) {k} {x} : (s.setCtx k x).cores = s.cores := rfl
@[simp] theorem State.setCtx_chans (s : State) {k} {x} : (s.setCtx k x).chans = s.chans := rfl
@[simp] theorem State.setCtx_plinths (s : State) {k} {x} : (s.setCtx k x).plinths = s.plinths := rfl
@[simp] theorem State.setCtx_fins (s : State) {k} {x} : (s.setCtx k x).fins = s.fins := rfl
@[simp] theorem State.setCtx_outBases (s : State) {k} {x} : (s.setCtx k x).outBases = s.outBases := rfl
@[simp] theorem State.setCtx_hubOps (s : State) {k} {x} : (s.setCtx k x).hubOps = s.hubOps := rfl
@[simp] theorem State.setCtx_nextOp (s : State) {k} {x} : (s.setCtx k x).nextOp = s.nextOp := rfl
@[simp] theorem State.setCtx_free (s : State) {k} {x} : (s.setCtx k x).free = s.free := rfl
@[simp] theorem State.setCtx_out (s : State) {k} {x} : (s.setCtx k x).out = s.out := rfl
@[simp] theorem State.setCtx_ctl (s : State) {k} {x} : (s.setCtx k x).ctl = s.ctl := rfl
@[simp] theorem State.setCtx_hif (s : State) {k} {x} : (s.setCtx k x).hif = s.hif := rfl
@[simp] theorem State.setCtx_dma (s : State) {k} {x} : (s.setCtx k x).dma = s.dma := rfl
@[simp] theorem State.setCtx_cur (s : State) {k} {x} : (s.setCtx k x).cur = s.cur := rfl
@[simp] theorem State.setCtx_tiers (s : State) {k} {x} : (s.setCtx k x).tiers = s.tiers := rfl
@[simp] theorem State.setCtx_annex (s : State) {k} {x} : (s.setCtx k x).annex = s.annex := rfl
@[simp] theorem State.setCtx_fab (s : State) {k} {x} : (s.setCtx k x).fab = s.fab := rfl
@[simp] theorem State.setCtx_ras (s : State) {k} {x} : (s.setCtx k x).ras = s.ras := rfl
@[simp] theorem State.setCtx_cat (s : State) {k} {x} : (s.setCtx k x).cat = s.cat := rfl
@[simp] theorem State.setCtx_sec (s : State) {k} {x} : (s.setCtx k x).sec = s.sec := rfl
@[simp] theorem State.setCtx_doc_appends (s : State) {k} {x} : (s.setCtx k x).doc.appends = s.doc.appends := rfl
@[simp] theorem State.setCtx_doc_policies (s : State) {k} {x} : (s.setCtx k x).doc.policies = s.doc.policies := rfl
@[simp] theorem State.setCtx_doc_cancels (s : State) {k} {x} : (s.setCtx k x).doc.cancels = s.doc.cancels := rfl
@[simp] theorem State.setCtx_doc_releases (s : State) {k} {x} : (s.setCtx k x).doc.releases = s.doc.releases := rfl
@[simp] theorem State.setCtx_doc_progs (s : State) {k} {x} : (s.setCtx k x).doc.progs = s.doc.progs := rfl
@[simp] theorem State.setCtx_doc_groups (s : State) {k} {x} : (s.setCtx k x).doc.groups = s.doc.groups := rfl
@[simp] theorem State.setCtx_doc_cgroups (s : State) {k} {x} : (s.setCtx k x).doc.cgroups = s.doc.cgroups := rfl
@[simp] theorem State.setCtx_doc_nextGroup (s : State) {k} {x} : (s.setCtx k x).doc.nextGroup = s.doc.nextGroup := rfl
@[simp] theorem State.setCtx_doc_overcommit (s : State) {k} {x} : (s.setCtx k x).doc.overcommit = s.doc.overcommit := rfl
@[simp] theorem State.setCtx_doc_suspended (s : State) {k} {x} : (s.setCtx k x).doc.suspended = s.doc.suspended := rfl
@[simp] theorem State.setCtx_doc_owedNotices (s : State) {k} {x} : (s.setCtx k x).doc.owedNotices = s.doc.owedNotices := rfl
@[simp] theorem State.setCtx_core (s : State) {k} {x} (j : Nat) : (s.setCtx k x).core j = s.core j := rfl
@[simp] theorem State.setCtx_chan (s : State) {k} {x} (j : Nat) : (s.setCtx k x).chan j = s.chan j := rfl
@[simp] theorem State.setCtx_plinth (s : State) {k} {x} (j : Nat) : (s.setCtx k x).plinth j = s.plinth j := rfl
@[simp] theorem State.setCtx_fin (s : State) {k} {x} (j : Nat) : (s.setCtx k x).fin j = s.fin j := rfl
@[simp] theorem State.setCtx_ring (s : State) {k} {x} (j : Nat) : (s.setCtx k x).ring j = s.ring j := rfl
@[simp] theorem State.setCtx_page (s : State) {k} {x} (j : Nat) : (s.setCtx k x).page j = s.page j := rfl
@[simp] theorem State.setCtx_kvMap (s : State) {k} {x} (j : Nat) : (s.setCtx k x).kvMap j = s.kvMap j := rfl
@[simp] theorem State.setCtx_port (s : State) {k} {x} (j : Nat) : (s.setCtx k x).port j = s.port j := rfl
@[simp] theorem State.setCtx_window (s : State) {k} {x} (j : Nat) : (s.setCtx k x).window j = s.window j := rfl
@[simp] theorem State.setCtx_tdi (s : State) {k} {x} (j : Nat) : (s.setCtx k x).tdi j = s.tdi j := rfl
@[simp] theorem State.setCtx_source (s : State) {k} {x} (j : Nat) : (s.setCtx k x).source j = s.source j := rfl

@[simp] theorem State.setRing_ring (s : State) {r} {x} : (s.setRing r x).ring r = x := Tbl.look_put_self _ _ _ _
theorem State.setRing_ring_ne (s : State) {r j} {x} (h : j ≠ r) : (s.setRing r x).ring j = s.ring j := Tbl.look_put_ne _ _ _ _ h
@[simp] theorem State.setRing_pending (s : State) {r} {x} : (s.setRing r x).pending = s.pending := rfl
@[simp] theorem State.setRing_regs (s : State) {r} {x} : (s.setRing r x).regs = s.regs := rfl
@[simp] theorem State.setRing_inForce (s : State) {r} {x} : (s.setRing r x).inForce = s.inForce := rfl
@[simp] theorem State.setRing_vfRegs (s : State) {r} {x} : (s.setRing r x).vfRegs = s.vfRegs := rfl
@[simp] theorem State.setRing_mem (s : State) {r} {x} : (s.setRing r x).mem = s.mem := rfl
@[simp] theorem State.setRing_chk (s : State) {r} {x} : (s.setRing r x).chk = s.chk := rfl
@[simp] theorem State.setRing_bad (s : State) {r} {x} : (s.setRing r x).bad = s.bad := rfl
@[simp] theorem State.setRing_cores (s : State) {r} {x} : (s.setRing r x).cores = s.cores := rfl
@[simp] theorem State.setRing_chans (s : State) {r} {x} : (s.setRing r x).chans = s.chans := rfl
@[simp] theorem State.setRing_plinths (s : State) {r} {x} : (s.setRing r x).plinths = s.plinths := rfl
@[simp] theorem State.setRing_fins (s : State) {r} {x} : (s.setRing r x).fins = s.fins := rfl
@[simp] theorem State.setRing_outBases (s : State) {r} {x} : (s.setRing r x).outBases = s.outBases := rfl
@[simp] theorem State.setRing_hubOps (s : State) {r} {x} : (s.setRing r x).hubOps = s.hubOps := rfl
@[simp] theorem State.setRing_nextOp (s : State) {r} {x} : (s.setRing r x).nextOp = s.nextOp := rfl
@[simp] theorem State.setRing_free (s : State) {r} {x} : (s.setRing r x).free = s.free := rfl
@[simp] theorem State.setRing_out (s : State) {r} {x} : (s.setRing r x).out = s.out := rfl
@[simp] theorem State.setRing_ctl (s : State) {r} {x} : (s.setRing r x).ctl = s.ctl := rfl
@[simp] theorem State.setRing_dma (s : State) {r} {x} : (s.setRing r x).dma = s.dma := rfl
@[simp] theorem State.setRing_doc (s : State) {r} {x} : (s.setRing r x).doc = s.doc := rfl
@[simp] theorem State.setRing_cur (s : State) {r} {x} : (s.setRing r x).cur = s.cur := rfl
@[simp] theorem State.setRing_tiers (s : State) {r} {x} : (s.setRing r x).tiers = s.tiers := rfl
@[simp] theorem State.setRing_annex (s : State) {r} {x} : (s.setRing r x).annex = s.annex := rfl
@[simp] theorem State.setRing_fab (s : State) {r} {x} : (s.setRing r x).fab = s.fab := rfl
@[simp] theorem State.setRing_ras (s : State) {r} {x} : (s.setRing r x).ras = s.ras := rfl
@[simp] theorem State.setRing_cat (s : State) {r} {x} : (s.setRing r x).cat = s.cat := rfl
@[simp] theorem State.setRing_sec (s : State) {r} {x} : (s.setRing r x).sec = s.sec := rfl
@[simp] theorem State.setRing_hif_inflight (s : State) {r} {x} : (s.setRing r x).hif.inflight = s.hif.inflight := rfl
@[simp] theorem State.setRing_hif_fences (s : State) {r} {x} : (s.setRing r x).hif.fences = s.hif.fences := rfl
@[simp] theorem State.setRing_hif_poll (s : State) {r} {x} : (s.setRing r x).hif.poll = s.hif.poll := rfl
@[simp] theorem State.setRing_hif_consNext (s : State) {r} {x} : (s.setRing r x).hif.consNext = s.hif.consNext := rfl
@[simp] theorem State.setRing_hif_linkWidth (s : State) {r} {x} : (s.setRing r x).hif.linkWidth = s.hif.linkWidth := rfl
@[simp] theorem State.setRing_hif_linkRate (s : State) {r} {x} : (s.setRing r x).hif.linkRate = s.hif.linkRate := rfl
@[simp] theorem State.setRing_hif_linkFlit (s : State) {r} {x} : (s.setRing r x).hif.linkFlit = s.hif.linkFlit := rfl
@[simp] theorem State.setRing_hif_msixTable (s : State) {r} {x} : (s.setRing r x).hif.msixTable = s.hif.msixTable := rfl
@[simp] theorem State.setRing_hif_msixPend (s : State) {r} {x} : (s.setRing r x).hif.msixPend = s.hif.msixPend := rfl
@[simp] theorem State.setRing_hif_owedVecs (s : State) {r} {x} : (s.setRing r x).hif.owedVecs = s.hif.owedVecs := rfl
@[simp] theorem State.setRing_hif_inReset (s : State) {r} {x} : (s.setRing r x).hif.inReset = s.hif.inReset := rfl
@[simp] theorem State.setRing_hif_owed (s : State) {r} {x} : (s.setRing r x).hif.owed = s.hif.owed := rfl
@[simp] theorem State.setRing_core (s : State) {r} {x} (j : Nat) : (s.setRing r x).core j = s.core j := rfl
@[simp] theorem State.setRing_chan (s : State) {r} {x} (j : Nat) : (s.setRing r x).chan j = s.chan j := rfl
@[simp] theorem State.setRing_plinth (s : State) {r} {x} (j : Nat) : (s.setRing r x).plinth j = s.plinth j := rfl
@[simp] theorem State.setRing_fin (s : State) {r} {x} (j : Nat) : (s.setRing r x).fin j = s.fin j := rfl
@[simp] theorem State.setRing_ctx (s : State) {r} {x} (j : Nat) : (s.setRing r x).ctx j = s.ctx j := rfl
@[simp] theorem State.setRing_page (s : State) {r} {x} (j : Nat) : (s.setRing r x).page j = s.page j := rfl
@[simp] theorem State.setRing_kvMap (s : State) {r} {x} (j : Nat) : (s.setRing r x).kvMap j = s.kvMap j := rfl
@[simp] theorem State.setRing_port (s : State) {r} {x} (j : Nat) : (s.setRing r x).port j = s.port j := rfl
@[simp] theorem State.setRing_window (s : State) {r} {x} (j : Nat) : (s.setRing r x).window j = s.window j := rfl
@[simp] theorem State.setRing_tdi (s : State) {r} {x} (j : Nat) : (s.setRing r x).tdi j = s.tdi j := rfl
@[simp] theorem State.setRing_source (s : State) {r} {x} (j : Nat) : (s.setRing r x).source j = s.source j := rfl

@[simp] theorem State.setPage_page (s : State) {n} {x} : (s.setPage n x).page n = x := Tbl.look_put_self _ _ _ _
theorem State.setPage_page_ne (s : State) {n j} {x} (h : j ≠ n) : (s.setPage n x).page j = s.page j := Tbl.look_put_ne _ _ _ _ h
@[simp] theorem State.setPage_pending (s : State) {n} {x} : (s.setPage n x).pending = s.pending := rfl
@[simp] theorem State.setPage_regs (s : State) {n} {x} : (s.setPage n x).regs = s.regs := rfl
@[simp] theorem State.setPage_inForce (s : State) {n} {x} : (s.setPage n x).inForce = s.inForce := rfl
@[simp] theorem State.setPage_vfRegs (s : State) {n} {x} : (s.setPage n x).vfRegs = s.vfRegs := rfl
@[simp] theorem State.setPage_mem (s : State) {n} {x} : (s.setPage n x).mem = s.mem := rfl
@[simp] theorem State.setPage_chk (s : State) {n} {x} : (s.setPage n x).chk = s.chk := rfl
@[simp] theorem State.setPage_bad (s : State) {n} {x} : (s.setPage n x).bad = s.bad := rfl
@[simp] theorem State.setPage_cores (s : State) {n} {x} : (s.setPage n x).cores = s.cores := rfl
@[simp] theorem State.setPage_chans (s : State) {n} {x} : (s.setPage n x).chans = s.chans := rfl
@[simp] theorem State.setPage_plinths (s : State) {n} {x} : (s.setPage n x).plinths = s.plinths := rfl
@[simp] theorem State.setPage_fins (s : State) {n} {x} : (s.setPage n x).fins = s.fins := rfl
@[simp] theorem State.setPage_outBases (s : State) {n} {x} : (s.setPage n x).outBases = s.outBases := rfl
@[simp] theorem State.setPage_hubOps (s : State) {n} {x} : (s.setPage n x).hubOps = s.hubOps := rfl
@[simp] theorem State.setPage_nextOp (s : State) {n} {x} : (s.setPage n x).nextOp = s.nextOp := rfl
@[simp] theorem State.setPage_free (s : State) {n} {x} : (s.setPage n x).free = s.free := rfl
@[simp] theorem State.setPage_out (s : State) {n} {x} : (s.setPage n x).out = s.out := rfl
@[simp] theorem State.setPage_ctl (s : State) {n} {x} : (s.setPage n x).ctl = s.ctl := rfl
@[simp] theorem State.setPage_hif (s : State) {n} {x} : (s.setPage n x).hif = s.hif := rfl
@[simp] theorem State.setPage_dma (s : State) {n} {x} : (s.setPage n x).dma = s.dma := rfl
@[simp] theorem State.setPage_doc (s : State) {n} {x} : (s.setPage n x).doc = s.doc := rfl
@[simp] theorem State.setPage_tiers (s : State) {n} {x} : (s.setPage n x).tiers = s.tiers := rfl
@[simp] theorem State.setPage_annex (s : State) {n} {x} : (s.setPage n x).annex = s.annex := rfl
@[simp] theorem State.setPage_fab (s : State) {n} {x} : (s.setPage n x).fab = s.fab := rfl
@[simp] theorem State.setPage_ras (s : State) {n} {x} : (s.setPage n x).ras = s.ras := rfl
@[simp] theorem State.setPage_cat (s : State) {n} {x} : (s.setPage n x).cat = s.cat := rfl
@[simp] theorem State.setPage_sec (s : State) {n} {x} : (s.setPage n x).sec = s.sec := rfl
@[simp] theorem State.setPage_cur_frames (s : State) {n} {x} : (s.setPage n x).cur.frames = s.cur.frames := rfl
@[simp] theorem State.setPage_cur_maps (s : State) {n} {x} : (s.setPage n x).cur.maps = s.cur.maps := rfl
@[simp] theorem State.setPage_cur_limbo (s : State) {n} {x} : (s.setPage n x).cur.limbo = s.cur.limbo := rfl
@[simp] theorem State.setPage_cur_cows (s : State) {n} {x} : (s.setPage n x).cur.cows = s.cur.cows := rfl
@[simp] theorem State.setPage_cur_forks (s : State) {n} {x} : (s.setPage n x).cur.forks = s.cur.forks := rfl
@[simp] theorem State.setPage_cur_moves (s : State) {n} {x} : (s.setPage n x).cur.moves = s.cur.moves := rfl
@[simp] theorem State.setPage_cur_lost (s : State) {n} {x} : (s.setPage n x).cur.lost = s.cur.lost := rfl
@[simp] theorem State.setPage_cur_lostCtx (s : State) {n} {x} : (s.setPage n x).cur.lostCtx = s.cur.lostCtx := rfl
@[simp] theorem State.setPage_cur_retired (s : State) {n} {x} : (s.setPage n x).cur.retired = s.cur.retired := rfl
@[simp] theorem State.setPage_cur_staged (s : State) {n} {x} : (s.setPage n x).cur.staged = s.cur.staged := rfl
@[simp] theorem State.setPage_cur_freed (s : State) {n} {x} : (s.setPage n x).cur.freed = s.cur.freed := rfl
@[simp] theorem State.setPage_cur_fresh (s : State) {n} {x} : (s.setPage n x).cur.fresh = s.cur.fresh := rfl
@[simp] theorem State.setPage_core (s : State) {n} {x} (j : Nat) : (s.setPage n x).core j = s.core j := rfl
@[simp] theorem State.setPage_chan (s : State) {n} {x} (j : Nat) : (s.setPage n x).chan j = s.chan j := rfl
@[simp] theorem State.setPage_plinth (s : State) {n} {x} (j : Nat) : (s.setPage n x).plinth j = s.plinth j := rfl
@[simp] theorem State.setPage_fin (s : State) {n} {x} (j : Nat) : (s.setPage n x).fin j = s.fin j := rfl
@[simp] theorem State.setPage_ctx (s : State) {n} {x} (j : Nat) : (s.setPage n x).ctx j = s.ctx j := rfl
@[simp] theorem State.setPage_ring (s : State) {n} {x} (j : Nat) : (s.setPage n x).ring j = s.ring j := rfl
@[simp] theorem State.setPage_kvMap (s : State) {n} {x} (j : Nat) : (s.setPage n x).kvMap j = s.kvMap j := rfl
@[simp] theorem State.setPage_port (s : State) {n} {x} (j : Nat) : (s.setPage n x).port j = s.port j := rfl
@[simp] theorem State.setPage_window (s : State) {n} {x} (j : Nat) : (s.setPage n x).window j = s.window j := rfl
@[simp] theorem State.setPage_tdi (s : State) {n} {x} (j : Nat) : (s.setPage n x).tdi j = s.tdi j := rfl
@[simp] theorem State.setPage_source (s : State) {n} {x} (j : Nat) : (s.setPage n x).source j = s.source j := rfl

@[simp] theorem State.setKvMap_kvMap (s : State) {k} {x} : (s.setKvMap k x).kvMap k = x := Tbl.look_put_self _ _ _ _
theorem State.setKvMap_kvMap_ne (s : State) {k j} {x} (h : j ≠ k) : (s.setKvMap k x).kvMap j = s.kvMap j := Tbl.look_put_ne _ _ _ _ h
@[simp] theorem State.setKvMap_pending (s : State) {k} {x} : (s.setKvMap k x).pending = s.pending := rfl
@[simp] theorem State.setKvMap_regs (s : State) {k} {x} : (s.setKvMap k x).regs = s.regs := rfl
@[simp] theorem State.setKvMap_inForce (s : State) {k} {x} : (s.setKvMap k x).inForce = s.inForce := rfl
@[simp] theorem State.setKvMap_vfRegs (s : State) {k} {x} : (s.setKvMap k x).vfRegs = s.vfRegs := rfl
@[simp] theorem State.setKvMap_mem (s : State) {k} {x} : (s.setKvMap k x).mem = s.mem := rfl
@[simp] theorem State.setKvMap_chk (s : State) {k} {x} : (s.setKvMap k x).chk = s.chk := rfl
@[simp] theorem State.setKvMap_bad (s : State) {k} {x} : (s.setKvMap k x).bad = s.bad := rfl
@[simp] theorem State.setKvMap_cores (s : State) {k} {x} : (s.setKvMap k x).cores = s.cores := rfl
@[simp] theorem State.setKvMap_chans (s : State) {k} {x} : (s.setKvMap k x).chans = s.chans := rfl
@[simp] theorem State.setKvMap_plinths (s : State) {k} {x} : (s.setKvMap k x).plinths = s.plinths := rfl
@[simp] theorem State.setKvMap_fins (s : State) {k} {x} : (s.setKvMap k x).fins = s.fins := rfl
@[simp] theorem State.setKvMap_outBases (s : State) {k} {x} : (s.setKvMap k x).outBases = s.outBases := rfl
@[simp] theorem State.setKvMap_hubOps (s : State) {k} {x} : (s.setKvMap k x).hubOps = s.hubOps := rfl
@[simp] theorem State.setKvMap_nextOp (s : State) {k} {x} : (s.setKvMap k x).nextOp = s.nextOp := rfl
@[simp] theorem State.setKvMap_free (s : State) {k} {x} : (s.setKvMap k x).free = s.free := rfl
@[simp] theorem State.setKvMap_out (s : State) {k} {x} : (s.setKvMap k x).out = s.out := rfl
@[simp] theorem State.setKvMap_ctl (s : State) {k} {x} : (s.setKvMap k x).ctl = s.ctl := rfl
@[simp] theorem State.setKvMap_hif (s : State) {k} {x} : (s.setKvMap k x).hif = s.hif := rfl
@[simp] theorem State.setKvMap_dma (s : State) {k} {x} : (s.setKvMap k x).dma = s.dma := rfl
@[simp] theorem State.setKvMap_doc (s : State) {k} {x} : (s.setKvMap k x).doc = s.doc := rfl
@[simp] theorem State.setKvMap_tiers (s : State) {k} {x} : (s.setKvMap k x).tiers = s.tiers := rfl
@[simp] theorem State.setKvMap_annex (s : State) {k} {x} : (s.setKvMap k x).annex = s.annex := rfl
@[simp] theorem State.setKvMap_fab (s : State) {k} {x} : (s.setKvMap k x).fab = s.fab := rfl
@[simp] theorem State.setKvMap_ras (s : State) {k} {x} : (s.setKvMap k x).ras = s.ras := rfl
@[simp] theorem State.setKvMap_cat (s : State) {k} {x} : (s.setKvMap k x).cat = s.cat := rfl
@[simp] theorem State.setKvMap_sec (s : State) {k} {x} : (s.setKvMap k x).sec = s.sec := rfl
@[simp] theorem State.setKvMap_cur_pages (s : State) {k} {x} : (s.setKvMap k x).cur.pages = s.cur.pages := rfl
@[simp] theorem State.setKvMap_cur_frames (s : State) {k} {x} : (s.setKvMap k x).cur.frames = s.cur.frames := rfl
@[simp] theorem State.setKvMap_cur_limbo (s : State) {k} {x} : (s.setKvMap k x).cur.limbo = s.cur.limbo := rfl
@[simp] theorem State.setKvMap_cur_cows (s : State) {k} {x} : (s.setKvMap k x).cur.cows = s.cur.cows := rfl
@[simp] theorem State.setKvMap_cur_forks (s : State) {k} {x} : (s.setKvMap k x).cur.forks = s.cur.forks := rfl
@[simp] theorem State.setKvMap_cur_moves (s : State) {k} {x} : (s.setKvMap k x).cur.moves = s.cur.moves := rfl
@[simp] theorem State.setKvMap_cur_lost (s : State) {k} {x} : (s.setKvMap k x).cur.lost = s.cur.lost := rfl
@[simp] theorem State.setKvMap_cur_lostCtx (s : State) {k} {x} : (s.setKvMap k x).cur.lostCtx = s.cur.lostCtx := rfl
@[simp] theorem State.setKvMap_cur_retired (s : State) {k} {x} : (s.setKvMap k x).cur.retired = s.cur.retired := rfl
@[simp] theorem State.setKvMap_cur_staged (s : State) {k} {x} : (s.setKvMap k x).cur.staged = s.cur.staged := rfl
@[simp] theorem State.setKvMap_cur_freed (s : State) {k} {x} : (s.setKvMap k x).cur.freed = s.cur.freed := rfl
@[simp] theorem State.setKvMap_cur_fresh (s : State) {k} {x} : (s.setKvMap k x).cur.fresh = s.cur.fresh := rfl
@[simp] theorem State.setKvMap_core (s : State) {k} {x} (j : Nat) : (s.setKvMap k x).core j = s.core j := rfl
@[simp] theorem State.setKvMap_chan (s : State) {k} {x} (j : Nat) : (s.setKvMap k x).chan j = s.chan j := rfl
@[simp] theorem State.setKvMap_plinth (s : State) {k} {x} (j : Nat) : (s.setKvMap k x).plinth j = s.plinth j := rfl
@[simp] theorem State.setKvMap_fin (s : State) {k} {x} (j : Nat) : (s.setKvMap k x).fin j = s.fin j := rfl
@[simp] theorem State.setKvMap_ctx (s : State) {k} {x} (j : Nat) : (s.setKvMap k x).ctx j = s.ctx j := rfl
@[simp] theorem State.setKvMap_ring (s : State) {k} {x} (j : Nat) : (s.setKvMap k x).ring j = s.ring j := rfl
@[simp] theorem State.setKvMap_page (s : State) {k} {x} (j : Nat) : (s.setKvMap k x).page j = s.page j := rfl
@[simp] theorem State.setKvMap_port (s : State) {k} {x} (j : Nat) : (s.setKvMap k x).port j = s.port j := rfl
@[simp] theorem State.setKvMap_window (s : State) {k} {x} (j : Nat) : (s.setKvMap k x).window j = s.window j := rfl
@[simp] theorem State.setKvMap_tdi (s : State) {k} {x} (j : Nat) : (s.setKvMap k x).tdi j = s.tdi j := rfl
@[simp] theorem State.setKvMap_source (s : State) {k} {x} (j : Nat) : (s.setKvMap k x).source j = s.source j := rfl

@[simp] theorem State.setPort_port (s : State) {p} {x} : (s.setPort p x).port p = x := Tbl.look_put_self _ _ _ _
theorem State.setPort_port_ne (s : State) {p j} {x} (h : j ≠ p) : (s.setPort p x).port j = s.port j := Tbl.look_put_ne _ _ _ _ h
@[simp] theorem State.setPort_pending (s : State) {p} {x} : (s.setPort p x).pending = s.pending := rfl
@[simp] theorem State.setPort_regs (s : State) {p} {x} : (s.setPort p x).regs = s.regs := rfl
@[simp] theorem State.setPort_inForce (s : State) {p} {x} : (s.setPort p x).inForce = s.inForce := rfl
@[simp] theorem State.setPort_vfRegs (s : State) {p} {x} : (s.setPort p x).vfRegs = s.vfRegs := rfl
@[simp] theorem State.setPort_mem (s : State) {p} {x} : (s.setPort p x).mem = s.mem := rfl
@[simp] theorem State.setPort_chk (s : State) {p} {x} : (s.setPort p x).chk = s.chk := rfl
@[simp] theorem State.setPort_bad (s : State) {p} {x} : (s.setPort p x).bad = s.bad := rfl
@[simp] theorem State.setPort_cores (s : State) {p} {x} : (s.setPort p x).cores = s.cores := rfl
@[simp] theorem State.setPort_chans (s : State) {p} {x} : (s.setPort p x).chans = s.chans := rfl
@[simp] theorem State.setPort_plinths (s : State) {p} {x} : (s.setPort p x).plinths = s.plinths := rfl
@[simp] theorem State.setPort_fins (s : State) {p} {x} : (s.setPort p x).fins = s.fins := rfl
@[simp] theorem State.setPort_outBases (s : State) {p} {x} : (s.setPort p x).outBases = s.outBases := rfl
@[simp] theorem State.setPort_hubOps (s : State) {p} {x} : (s.setPort p x).hubOps = s.hubOps := rfl
@[simp] theorem State.setPort_nextOp (s : State) {p} {x} : (s.setPort p x).nextOp = s.nextOp := rfl
@[simp] theorem State.setPort_free (s : State) {p} {x} : (s.setPort p x).free = s.free := rfl
@[simp] theorem State.setPort_out (s : State) {p} {x} : (s.setPort p x).out = s.out := rfl
@[simp] theorem State.setPort_ctl (s : State) {p} {x} : (s.setPort p x).ctl = s.ctl := rfl
@[simp] theorem State.setPort_hif (s : State) {p} {x} : (s.setPort p x).hif = s.hif := rfl
@[simp] theorem State.setPort_dma (s : State) {p} {x} : (s.setPort p x).dma = s.dma := rfl
@[simp] theorem State.setPort_doc (s : State) {p} {x} : (s.setPort p x).doc = s.doc := rfl
@[simp] theorem State.setPort_cur (s : State) {p} {x} : (s.setPort p x).cur = s.cur := rfl
@[simp] theorem State.setPort_tiers (s : State) {p} {x} : (s.setPort p x).tiers = s.tiers := rfl
@[simp] theorem State.setPort_annex (s : State) {p} {x} : (s.setPort p x).annex = s.annex := rfl
@[simp] theorem State.setPort_ras (s : State) {p} {x} : (s.setPort p x).ras = s.ras := rfl
@[simp] theorem State.setPort_cat (s : State) {p} {x} : (s.setPort p x).cat = s.cat := rfl
@[simp] theorem State.setPort_sec (s : State) {p} {x} : (s.setPort p x).sec = s.sec := rfl
@[simp] theorem State.setPort_fab_beat (s : State) {p} {x} : (s.setPort p x).fab.beat = s.fab.beat := rfl
@[simp] theorem State.setPort_fab_links (s : State) {p} {x} : (s.setPort p x).fab.links = s.fab.links := rfl
@[simp] theorem State.setPort_fab_planes (s : State) {p} {x} : (s.setPort p x).fab.planes = s.fab.planes := rfl
@[simp] theorem State.setPort_fab_seen (s : State) {p} {x} : (s.setPort p x).fab.seen = s.fab.seen := rfl
@[simp] theorem State.setPort_fab_serial (s : State) {p} {x} : (s.setPort p x).fab.serial = s.fab.serial := rfl
@[simp] theorem State.setPort_fab_pendNotices (s : State) {p} {x} : (s.setPort p x).fab.pendNotices = s.fab.pendNotices := rfl
@[simp] theorem State.setPort_fab_quiesces (s : State) {p} {x} : (s.setPort p x).fab.quiesces = s.fab.quiesces := rfl
@[simp] theorem State.setPort_fab_macsec (s : State) {p} {x} : (s.setPort p x).fab.macsec = s.fab.macsec := rfl
@[simp] theorem State.setPort_fab_macSend (s : State) {p} {x} : (s.setPort p x).fab.macSend = s.fab.macSend := rfl
@[simp] theorem State.setPort_fab_announced (s : State) {p} {x} : (s.setPort p x).fab.announced = s.fab.announced := rfl
@[simp] theorem State.setPort_fab_carMap (s : State) {p} {x} : (s.setPort p x).fab.carMap = s.fab.carMap := rfl
@[simp] theorem State.setPort_fab_carPend (s : State) {p} {x} : (s.setPort p x).fab.carPend = s.fab.carPend := rfl
@[simp] theorem State.setPort_fab_carLoads (s : State) {p} {x} : (s.setPort p x).fab.carLoads = s.fab.carLoads := rfl
@[simp] theorem State.setPort_fab_carWait (s : State) {p} {x} : (s.setPort p x).fab.carWait = s.fab.carWait := rfl
@[simp] theorem State.setPort_fab_colls (s : State) {p} {x} : (s.setPort p x).fab.colls = s.fab.colls := rfl
@[simp] theorem State.setPort_fab_arrivals (s : State) {p} {x} : (s.setPort p x).fab.arrivals = s.fab.arrivals := rfl
@[simp] theorem State.setPort_fab_arrOrder (s : State) {p} {x} : (s.setPort p x).fab.arrOrder = s.fab.arrOrder := rfl
@[simp] theorem State.setPort_fab_sentSlots (s : State) {p} {x} : (s.setPort p x).fab.sentSlots = s.fab.sentSlots := rfl
@[simp] theorem State.setPort_fab_windows (s : State) {p} {x} : (s.setPort p x).fab.windows = s.fab.windows := rfl
@[simp] theorem State.setPort_core (s : State) {p} {x} (j : Nat) : (s.setPort p x).core j = s.core j := rfl
@[simp] theorem State.setPort_chan (s : State) {p} {x} (j : Nat) : (s.setPort p x).chan j = s.chan j := rfl
@[simp] theorem State.setPort_plinth (s : State) {p} {x} (j : Nat) : (s.setPort p x).plinth j = s.plinth j := rfl
@[simp] theorem State.setPort_fin (s : State) {p} {x} (j : Nat) : (s.setPort p x).fin j = s.fin j := rfl
@[simp] theorem State.setPort_ctx (s : State) {p} {x} (j : Nat) : (s.setPort p x).ctx j = s.ctx j := rfl
@[simp] theorem State.setPort_ring (s : State) {p} {x} (j : Nat) : (s.setPort p x).ring j = s.ring j := rfl
@[simp] theorem State.setPort_page (s : State) {p} {x} (j : Nat) : (s.setPort p x).page j = s.page j := rfl
@[simp] theorem State.setPort_kvMap (s : State) {p} {x} (j : Nat) : (s.setPort p x).kvMap j = s.kvMap j := rfl
@[simp] theorem State.setPort_window (s : State) {p} {x} (j : Nat) : (s.setPort p x).window j = s.window j := rfl
@[simp] theorem State.setPort_tdi (s : State) {p} {x} (j : Nat) : (s.setPort p x).tdi j = s.tdi j := rfl
@[simp] theorem State.setPort_source (s : State) {p} {x} (j : Nat) : (s.setPort p x).source j = s.source j := rfl

@[simp] theorem State.setWindow_window (s : State) {w} {x} : (s.setWindow w x).window w = x := Tbl.look_put_self _ _ _ _
theorem State.setWindow_window_ne (s : State) {w j} {x} (h : j ≠ w) : (s.setWindow w x).window j = s.window j := Tbl.look_put_ne _ _ _ _ h
@[simp] theorem State.setWindow_pending (s : State) {w} {x} : (s.setWindow w x).pending = s.pending := rfl
@[simp] theorem State.setWindow_regs (s : State) {w} {x} : (s.setWindow w x).regs = s.regs := rfl
@[simp] theorem State.setWindow_inForce (s : State) {w} {x} : (s.setWindow w x).inForce = s.inForce := rfl
@[simp] theorem State.setWindow_vfRegs (s : State) {w} {x} : (s.setWindow w x).vfRegs = s.vfRegs := rfl
@[simp] theorem State.setWindow_mem (s : State) {w} {x} : (s.setWindow w x).mem = s.mem := rfl
@[simp] theorem State.setWindow_chk (s : State) {w} {x} : (s.setWindow w x).chk = s.chk := rfl
@[simp] theorem State.setWindow_bad (s : State) {w} {x} : (s.setWindow w x).bad = s.bad := rfl
@[simp] theorem State.setWindow_cores (s : State) {w} {x} : (s.setWindow w x).cores = s.cores := rfl
@[simp] theorem State.setWindow_chans (s : State) {w} {x} : (s.setWindow w x).chans = s.chans := rfl
@[simp] theorem State.setWindow_plinths (s : State) {w} {x} : (s.setWindow w x).plinths = s.plinths := rfl
@[simp] theorem State.setWindow_fins (s : State) {w} {x} : (s.setWindow w x).fins = s.fins := rfl
@[simp] theorem State.setWindow_outBases (s : State) {w} {x} : (s.setWindow w x).outBases = s.outBases := rfl
@[simp] theorem State.setWindow_hubOps (s : State) {w} {x} : (s.setWindow w x).hubOps = s.hubOps := rfl
@[simp] theorem State.setWindow_nextOp (s : State) {w} {x} : (s.setWindow w x).nextOp = s.nextOp := rfl
@[simp] theorem State.setWindow_free (s : State) {w} {x} : (s.setWindow w x).free = s.free := rfl
@[simp] theorem State.setWindow_out (s : State) {w} {x} : (s.setWindow w x).out = s.out := rfl
@[simp] theorem State.setWindow_ctl (s : State) {w} {x} : (s.setWindow w x).ctl = s.ctl := rfl
@[simp] theorem State.setWindow_hif (s : State) {w} {x} : (s.setWindow w x).hif = s.hif := rfl
@[simp] theorem State.setWindow_dma (s : State) {w} {x} : (s.setWindow w x).dma = s.dma := rfl
@[simp] theorem State.setWindow_doc (s : State) {w} {x} : (s.setWindow w x).doc = s.doc := rfl
@[simp] theorem State.setWindow_cur (s : State) {w} {x} : (s.setWindow w x).cur = s.cur := rfl
@[simp] theorem State.setWindow_tiers (s : State) {w} {x} : (s.setWindow w x).tiers = s.tiers := rfl
@[simp] theorem State.setWindow_annex (s : State) {w} {x} : (s.setWindow w x).annex = s.annex := rfl
@[simp] theorem State.setWindow_ras (s : State) {w} {x} : (s.setWindow w x).ras = s.ras := rfl
@[simp] theorem State.setWindow_cat (s : State) {w} {x} : (s.setWindow w x).cat = s.cat := rfl
@[simp] theorem State.setWindow_sec (s : State) {w} {x} : (s.setWindow w x).sec = s.sec := rfl
@[simp] theorem State.setWindow_fab_ports (s : State) {w} {x} : (s.setWindow w x).fab.ports = s.fab.ports := rfl
@[simp] theorem State.setWindow_fab_beat (s : State) {w} {x} : (s.setWindow w x).fab.beat = s.fab.beat := rfl
@[simp] theorem State.setWindow_fab_links (s : State) {w} {x} : (s.setWindow w x).fab.links = s.fab.links := rfl
@[simp] theorem State.setWindow_fab_planes (s : State) {w} {x} : (s.setWindow w x).fab.planes = s.fab.planes := rfl
@[simp] theorem State.setWindow_fab_seen (s : State) {w} {x} : (s.setWindow w x).fab.seen = s.fab.seen := rfl
@[simp] theorem State.setWindow_fab_serial (s : State) {w} {x} : (s.setWindow w x).fab.serial = s.fab.serial := rfl
@[simp] theorem State.setWindow_fab_pendNotices (s : State) {w} {x} : (s.setWindow w x).fab.pendNotices = s.fab.pendNotices := rfl
@[simp] theorem State.setWindow_fab_quiesces (s : State) {w} {x} : (s.setWindow w x).fab.quiesces = s.fab.quiesces := rfl
@[simp] theorem State.setWindow_fab_macsec (s : State) {w} {x} : (s.setWindow w x).fab.macsec = s.fab.macsec := rfl
@[simp] theorem State.setWindow_fab_macSend (s : State) {w} {x} : (s.setWindow w x).fab.macSend = s.fab.macSend := rfl
@[simp] theorem State.setWindow_fab_announced (s : State) {w} {x} : (s.setWindow w x).fab.announced = s.fab.announced := rfl
@[simp] theorem State.setWindow_fab_carMap (s : State) {w} {x} : (s.setWindow w x).fab.carMap = s.fab.carMap := rfl
@[simp] theorem State.setWindow_fab_carPend (s : State) {w} {x} : (s.setWindow w x).fab.carPend = s.fab.carPend := rfl
@[simp] theorem State.setWindow_fab_carLoads (s : State) {w} {x} : (s.setWindow w x).fab.carLoads = s.fab.carLoads := rfl
@[simp] theorem State.setWindow_fab_carWait (s : State) {w} {x} : (s.setWindow w x).fab.carWait = s.fab.carWait := rfl
@[simp] theorem State.setWindow_fab_colls (s : State) {w} {x} : (s.setWindow w x).fab.colls = s.fab.colls := rfl
@[simp] theorem State.setWindow_fab_arrivals (s : State) {w} {x} : (s.setWindow w x).fab.arrivals = s.fab.arrivals := rfl
@[simp] theorem State.setWindow_fab_arrOrder (s : State) {w} {x} : (s.setWindow w x).fab.arrOrder = s.fab.arrOrder := rfl
@[simp] theorem State.setWindow_fab_sentSlots (s : State) {w} {x} : (s.setWindow w x).fab.sentSlots = s.fab.sentSlots := rfl
@[simp] theorem State.setWindow_core (s : State) {w} {x} (j : Nat) : (s.setWindow w x).core j = s.core j := rfl
@[simp] theorem State.setWindow_chan (s : State) {w} {x} (j : Nat) : (s.setWindow w x).chan j = s.chan j := rfl
@[simp] theorem State.setWindow_plinth (s : State) {w} {x} (j : Nat) : (s.setWindow w x).plinth j = s.plinth j := rfl
@[simp] theorem State.setWindow_fin (s : State) {w} {x} (j : Nat) : (s.setWindow w x).fin j = s.fin j := rfl
@[simp] theorem State.setWindow_ctx (s : State) {w} {x} (j : Nat) : (s.setWindow w x).ctx j = s.ctx j := rfl
@[simp] theorem State.setWindow_ring (s : State) {w} {x} (j : Nat) : (s.setWindow w x).ring j = s.ring j := rfl
@[simp] theorem State.setWindow_page (s : State) {w} {x} (j : Nat) : (s.setWindow w x).page j = s.page j := rfl
@[simp] theorem State.setWindow_kvMap (s : State) {w} {x} (j : Nat) : (s.setWindow w x).kvMap j = s.kvMap j := rfl
@[simp] theorem State.setWindow_port (s : State) {w} {x} (j : Nat) : (s.setWindow w x).port j = s.port j := rfl
@[simp] theorem State.setWindow_tdi (s : State) {w} {x} (j : Nat) : (s.setWindow w x).tdi j = s.tdi j := rfl
@[simp] theorem State.setWindow_source (s : State) {w} {x} (j : Nat) : (s.setWindow w x).source j = s.source j := rfl

@[simp] theorem State.setTdi_tdi (s : State) {n} {x} : (s.setTdi n x).tdi n = x := Tbl.look_put_self _ _ _ _
theorem State.setTdi_tdi_ne (s : State) {n j} {x} (h : j ≠ n) : (s.setTdi n x).tdi j = s.tdi j := Tbl.look_put_ne _ _ _ _ h
@[simp] theorem State.setTdi_pending (s : State) {n} {x} : (s.setTdi n x).pending = s.pending := rfl
@[simp] theorem State.setTdi_regs (s : State) {n} {x} : (s.setTdi n x).regs = s.regs := rfl
@[simp] theorem State.setTdi_inForce (s : State) {n} {x} : (s.setTdi n x).inForce = s.inForce := rfl
@[simp] theorem State.setTdi_vfRegs (s : State) {n} {x} : (s.setTdi n x).vfRegs = s.vfRegs := rfl
@[simp] theorem State.setTdi_mem (s : State) {n} {x} : (s.setTdi n x).mem = s.mem := rfl
@[simp] theorem State.setTdi_chk (s : State) {n} {x} : (s.setTdi n x).chk = s.chk := rfl
@[simp] theorem State.setTdi_bad (s : State) {n} {x} : (s.setTdi n x).bad = s.bad := rfl
@[simp] theorem State.setTdi_cores (s : State) {n} {x} : (s.setTdi n x).cores = s.cores := rfl
@[simp] theorem State.setTdi_chans (s : State) {n} {x} : (s.setTdi n x).chans = s.chans := rfl
@[simp] theorem State.setTdi_plinths (s : State) {n} {x} : (s.setTdi n x).plinths = s.plinths := rfl
@[simp] theorem State.setTdi_fins (s : State) {n} {x} : (s.setTdi n x).fins = s.fins := rfl
@[simp] theorem State.setTdi_outBases (s : State) {n} {x} : (s.setTdi n x).outBases = s.outBases := rfl
@[simp] theorem State.setTdi_hubOps (s : State) {n} {x} : (s.setTdi n x).hubOps = s.hubOps := rfl
@[simp] theorem State.setTdi_nextOp (s : State) {n} {x} : (s.setTdi n x).nextOp = s.nextOp := rfl
@[simp] theorem State.setTdi_free (s : State) {n} {x} : (s.setTdi n x).free = s.free := rfl
@[simp] theorem State.setTdi_out (s : State) {n} {x} : (s.setTdi n x).out = s.out := rfl
@[simp] theorem State.setTdi_ctl (s : State) {n} {x} : (s.setTdi n x).ctl = s.ctl := rfl
@[simp] theorem State.setTdi_hif (s : State) {n} {x} : (s.setTdi n x).hif = s.hif := rfl
@[simp] theorem State.setTdi_dma (s : State) {n} {x} : (s.setTdi n x).dma = s.dma := rfl
@[simp] theorem State.setTdi_doc (s : State) {n} {x} : (s.setTdi n x).doc = s.doc := rfl
@[simp] theorem State.setTdi_cur (s : State) {n} {x} : (s.setTdi n x).cur = s.cur := rfl
@[simp] theorem State.setTdi_tiers (s : State) {n} {x} : (s.setTdi n x).tiers = s.tiers := rfl
@[simp] theorem State.setTdi_annex (s : State) {n} {x} : (s.setTdi n x).annex = s.annex := rfl
@[simp] theorem State.setTdi_fab (s : State) {n} {x} : (s.setTdi n x).fab = s.fab := rfl
@[simp] theorem State.setTdi_ras (s : State) {n} {x} : (s.setTdi n x).ras = s.ras := rfl
@[simp] theorem State.setTdi_cat (s : State) {n} {x} : (s.setTdi n x).cat = s.cat := rfl
@[simp] theorem State.setTdi_sec_st (s : State) {n} {x} : (s.setTdi n x).sec.st = s.sec.st := rfl
@[simp] theorem State.setTdi_sec_cause (s : State) {n} {x} : (s.setTdi n x).sec.cause = s.sec.cause := rfl
@[simp] theorem State.setTdi_sec_slot (s : State) {n} {x} : (s.setTdi n x).sec.slot = s.sec.slot := rfl
@[simp] theorem State.setTdi_sec_trial (s : State) {n} {x} : (s.setTdi n x).sec.trial = s.sec.trial := rfl
@[simp] theorem State.setTdi_sec_debug (s : State) {n} {x} : (s.setTdi n x).sec.debug = s.sec.debug := rfl
@[simp] theorem State.setTdi_sec_image (s : State) {n} {x} : (s.setTdi n x).sec.image = s.sec.image := rfl
@[simp] theorem State.setTdi_sec_seeded (s : State) {n} {x} : (s.setTdi n x).sec.seeded = s.sec.seeded := rfl
@[simp] theorem State.setTdi_sec_genKey (s : State) {n} {x} : (s.setTdi n x).sec.genKey = s.sec.genKey := rfl
@[simp] theorem State.setTdi_sec_sessions (s : State) {n} {x} : (s.setTdi n x).sec.sessions = s.sec.sessions := rfl
@[simp] theorem State.setTdi_sec_spdm (s : State) {n} {x} : (s.setTdi n x).sec.spdm = s.sec.spdm := rfl
@[simp] theorem State.setTdi_sec_ides (s : State) {n} {x} : (s.setTdi n x).sec.ides = s.sec.ides := rfl
@[simp] theorem State.setTdi_sec_measured (s : State) {n} {x} : (s.setTdi n x).sec.measured = s.sec.measured := rfl
@[simp] theorem State.setTdi_sec_update (s : State) {n} {x} : (s.setTdi n x).sec.update = s.sec.update := rfl
@[simp] theorem State.setTdi_sec_events (s : State) {n} {x} : (s.setTdi n x).sec.events = s.sec.events := rfl
@[simp] theorem State.setTdi_sec_eid (s : State) {n} {x} : (s.setTdi n x).sec.eid = s.sec.eid := rfl
@[simp] theorem State.setTdi_sec_flash_dir0 (s : State) {n} {x} : (s.setTdi n x).sec.flash.dir0 = s.sec.flash.dir0 := rfl
@[simp] theorem State.setTdi_sec_flash_dir1 (s : State) {n} {x} : (s.setTdi n x).sec.flash.dir1 = s.sec.flash.dir1 := rfl
@[simp] theorem State.setTdi_sec_flash_rep0 (s : State) {n} {x} : (s.setTdi n x).sec.flash.rep0 = s.sec.flash.rep0 := rfl
@[simp] theorem State.setTdi_sec_flash_rep1 (s : State) {n} {x} : (s.setTdi n x).sec.flash.rep1 = s.sec.flash.rep1 := rfl
@[simp] theorem State.setTdi_sec_flash_rpmc (s : State) {n} {x} : (s.setTdi n x).sec.flash.rpmc = s.sec.flash.rpmc := rfl
@[simp] theorem State.setTdi_sec_flash_rpmcKey (s : State) {n} {x} : (s.setTdi n x).sec.flash.rpmcKey = s.sec.flash.rpmcKey := rfl
@[simp] theorem State.setTdi_sec_flash_cert1 (s : State) {n} {x} : (s.setTdi n x).sec.flash.cert1 = s.sec.flash.cert1 := rfl
@[simp] theorem State.setTdi_sec_flash_slots (s : State) {n} {x} : (s.setTdi n x).sec.flash.slots = s.sec.flash.slots := rfl
@[simp] theorem State.setTdi_core (s : State) {n} {x} (j : Nat) : (s.setTdi n x).core j = s.core j := rfl
@[simp] theorem State.setTdi_chan (s : State) {n} {x} (j : Nat) : (s.setTdi n x).chan j = s.chan j := rfl
@[simp] theorem State.setTdi_plinth (s : State) {n} {x} (j : Nat) : (s.setTdi n x).plinth j = s.plinth j := rfl
@[simp] theorem State.setTdi_fin (s : State) {n} {x} (j : Nat) : (s.setTdi n x).fin j = s.fin j := rfl
@[simp] theorem State.setTdi_ctx (s : State) {n} {x} (j : Nat) : (s.setTdi n x).ctx j = s.ctx j := rfl
@[simp] theorem State.setTdi_ring (s : State) {n} {x} (j : Nat) : (s.setTdi n x).ring j = s.ring j := rfl
@[simp] theorem State.setTdi_page (s : State) {n} {x} (j : Nat) : (s.setTdi n x).page j = s.page j := rfl
@[simp] theorem State.setTdi_kvMap (s : State) {n} {x} (j : Nat) : (s.setTdi n x).kvMap j = s.kvMap j := rfl
@[simp] theorem State.setTdi_port (s : State) {n} {x} (j : Nat) : (s.setTdi n x).port j = s.port j := rfl
@[simp] theorem State.setTdi_window (s : State) {n} {x} (j : Nat) : (s.setTdi n x).window j = s.window j := rfl
@[simp] theorem State.setTdi_source (s : State) {n} {x} (j : Nat) : (s.setTdi n x).source j = s.source j := rfl

@[simp] theorem State.setSource_source (s : State) {n} {x} : (s.setSource n x).source n = x := Tbl.look_put_self _ _ _ _
theorem State.setSource_source_ne (s : State) {n j} {x} (h : j ≠ n) : (s.setSource n x).source j = s.source j := Tbl.look_put_ne _ _ _ _ h
@[simp] theorem State.setSource_pending (s : State) {n} {x} : (s.setSource n x).pending = s.pending := rfl
@[simp] theorem State.setSource_regs (s : State) {n} {x} : (s.setSource n x).regs = s.regs := rfl
@[simp] theorem State.setSource_inForce (s : State) {n} {x} : (s.setSource n x).inForce = s.inForce := rfl
@[simp] theorem State.setSource_vfRegs (s : State) {n} {x} : (s.setSource n x).vfRegs = s.vfRegs := rfl
@[simp] theorem State.setSource_mem (s : State) {n} {x} : (s.setSource n x).mem = s.mem := rfl
@[simp] theorem State.setSource_chk (s : State) {n} {x} : (s.setSource n x).chk = s.chk := rfl
@[simp] theorem State.setSource_bad (s : State) {n} {x} : (s.setSource n x).bad = s.bad := rfl
@[simp] theorem State.setSource_cores (s : State) {n} {x} : (s.setSource n x).cores = s.cores := rfl
@[simp] theorem State.setSource_chans (s : State) {n} {x} : (s.setSource n x).chans = s.chans := rfl
@[simp] theorem State.setSource_plinths (s : State) {n} {x} : (s.setSource n x).plinths = s.plinths := rfl
@[simp] theorem State.setSource_fins (s : State) {n} {x} : (s.setSource n x).fins = s.fins := rfl
@[simp] theorem State.setSource_outBases (s : State) {n} {x} : (s.setSource n x).outBases = s.outBases := rfl
@[simp] theorem State.setSource_hubOps (s : State) {n} {x} : (s.setSource n x).hubOps = s.hubOps := rfl
@[simp] theorem State.setSource_nextOp (s : State) {n} {x} : (s.setSource n x).nextOp = s.nextOp := rfl
@[simp] theorem State.setSource_free (s : State) {n} {x} : (s.setSource n x).free = s.free := rfl
@[simp] theorem State.setSource_out (s : State) {n} {x} : (s.setSource n x).out = s.out := rfl
@[simp] theorem State.setSource_ctl (s : State) {n} {x} : (s.setSource n x).ctl = s.ctl := rfl
@[simp] theorem State.setSource_hif (s : State) {n} {x} : (s.setSource n x).hif = s.hif := rfl
@[simp] theorem State.setSource_dma (s : State) {n} {x} : (s.setSource n x).dma = s.dma := rfl
@[simp] theorem State.setSource_doc (s : State) {n} {x} : (s.setSource n x).doc = s.doc := rfl
@[simp] theorem State.setSource_cur (s : State) {n} {x} : (s.setSource n x).cur = s.cur := rfl
@[simp] theorem State.setSource_tiers (s : State) {n} {x} : (s.setSource n x).tiers = s.tiers := rfl
@[simp] theorem State.setSource_annex (s : State) {n} {x} : (s.setSource n x).annex = s.annex := rfl
@[simp] theorem State.setSource_fab (s : State) {n} {x} : (s.setSource n x).fab = s.fab := rfl
@[simp] theorem State.setSource_cat (s : State) {n} {x} : (s.setSource n x).cat = s.cat := rfl
@[simp] theorem State.setSource_sec (s : State) {n} {x} : (s.setSource n x).sec = s.sec := rfl
@[simp] theorem State.setSource_ras_queue (s : State) {n} {x} : (s.setSource n x).ras.queue = s.ras.queue := rfl
@[simp] theorem State.setSource_ras_w (s : State) {n} {x} : (s.setSource n x).ras.w = s.ras.w := rfl
@[simp] theorem State.setSource_ras_cons (s : State) {n} {x} : (s.setSource n x).ras.cons = s.ras.cons := rfl
@[simp] theorem State.setSource_ras_ovf (s : State) {n} {x} : (s.setSource n x).ras.ovf = s.ras.ovf := rfl
@[simp] theorem State.setSource_ras_intLeft (s : State) {n} {x} : (s.setSource n x).ras.intLeft = s.ras.intLeft := rfl
@[simp] theorem State.setSource_ras_intPend (s : State) {n} {x} : (s.setSource n x).ras.intPend = s.ras.intPend := rfl
@[simp] theorem State.setSource_ras_intEnd (s : State) {n} {x} : (s.setSource n x).ras.intEnd = s.ras.intEnd := rfl
@[simp] theorem State.setSource_core (s : State) {n} {x} (j : Nat) : (s.setSource n x).core j = s.core j := rfl
@[simp] theorem State.setSource_chan (s : State) {n} {x} (j : Nat) : (s.setSource n x).chan j = s.chan j := rfl
@[simp] theorem State.setSource_plinth (s : State) {n} {x} (j : Nat) : (s.setSource n x).plinth j = s.plinth j := rfl
@[simp] theorem State.setSource_fin (s : State) {n} {x} (j : Nat) : (s.setSource n x).fin j = s.fin j := rfl
@[simp] theorem State.setSource_ctx (s : State) {n} {x} (j : Nat) : (s.setSource n x).ctx j = s.ctx j := rfl
@[simp] theorem State.setSource_ring (s : State) {n} {x} (j : Nat) : (s.setSource n x).ring j = s.ring j := rfl
@[simp] theorem State.setSource_page (s : State) {n} {x} (j : Nat) : (s.setSource n x).page j = s.page j := rfl
@[simp] theorem State.setSource_kvMap (s : State) {n} {x} (j : Nat) : (s.setSource n x).kvMap j = s.kvMap j := rfl
@[simp] theorem State.setSource_port (s : State) {n} {x} (j : Nat) : (s.setSource n x).port j = s.port j := rfl
@[simp] theorem State.setSource_window (s : State) {n} {x} (j : Nat) : (s.setSource n x).window j = s.window j := rfl
@[simp] theorem State.setSource_tdi (s : State) {n} {x} (j : Nat) : (s.setSource n x).tdi j = s.tdi j := rfl

@[simp] theorem State.draw_core (s : State) {n} (j : Nat) : (s.draw n).core j = s.core j := rfl
@[simp] theorem State.draw_chan (s : State) {n} (j : Nat) : (s.draw n).chan j = s.chan j := rfl
@[simp] theorem State.draw_plinth (s : State) {n} (j : Nat) : (s.draw n).plinth j = s.plinth j := rfl
@[simp] theorem State.draw_fin (s : State) {n} (j : Nat) : (s.draw n).fin j = s.fin j := rfl
@[simp] theorem State.draw_ctx (s : State) {n} (j : Nat) : (s.draw n).ctx j = s.ctx j := rfl
@[simp] theorem State.draw_ring (s : State) {n} (j : Nat) : (s.draw n).ring j = s.ring j := rfl
@[simp] theorem State.draw_page (s : State) {n} (j : Nat) : (s.draw n).page j = s.page j := rfl
@[simp] theorem State.draw_kvMap (s : State) {n} (j : Nat) : (s.draw n).kvMap j = s.kvMap j := rfl
@[simp] theorem State.draw_port (s : State) {n} (j : Nat) : (s.draw n).port j = s.port j := rfl
@[simp] theorem State.draw_window (s : State) {n} (j : Nat) : (s.draw n).window j = s.window j := rfl
@[simp] theorem State.draw_tdi (s : State) {n} (j : Nat) : (s.draw n).tdi j = s.tdi j := rfl
@[simp] theorem State.draw_source (s : State) {n} (j : Nat) : (s.draw n).source j = s.source j := rfl
@[simp] theorem State.draw_pending (s : State) {n} : (s.draw n).pending = s.pending := rfl
@[simp] theorem State.draw_regs (s : State) {n} : (s.draw n).regs = s.regs := rfl
@[simp] theorem State.draw_inForce (s : State) {n} : (s.draw n).inForce = s.inForce := rfl
@[simp] theorem State.draw_vfRegs (s : State) {n} : (s.draw n).vfRegs = s.vfRegs := rfl
@[simp] theorem State.draw_mem (s : State) {n} : (s.draw n).mem = s.mem := rfl
@[simp] theorem State.draw_chk (s : State) {n} : (s.draw n).chk = s.chk := rfl
@[simp] theorem State.draw_bad (s : State) {n} : (s.draw n).bad = s.bad := rfl
@[simp] theorem State.draw_cores (s : State) {n} : (s.draw n).cores = s.cores := rfl
@[simp] theorem State.draw_chans (s : State) {n} : (s.draw n).chans = s.chans := rfl
@[simp] theorem State.draw_plinths (s : State) {n} : (s.draw n).plinths = s.plinths := rfl
@[simp] theorem State.draw_fins (s : State) {n} : (s.draw n).fins = s.fins := rfl
@[simp] theorem State.draw_outBases (s : State) {n} : (s.draw n).outBases = s.outBases := rfl
@[simp] theorem State.draw_hubOps (s : State) {n} : (s.draw n).hubOps = s.hubOps := rfl
@[simp] theorem State.draw_nextOp (s : State) {n} : (s.draw n).nextOp = s.nextOp := rfl
@[simp] theorem State.draw_out (s : State) {n} : (s.draw n).out = s.out := rfl
@[simp] theorem State.draw_ctl (s : State) {n} : (s.draw n).ctl = s.ctl := rfl
@[simp] theorem State.draw_hif (s : State) {n} : (s.draw n).hif = s.hif := rfl
@[simp] theorem State.draw_dma (s : State) {n} : (s.draw n).dma = s.dma := rfl
@[simp] theorem State.draw_doc (s : State) {n} : (s.draw n).doc = s.doc := rfl
@[simp] theorem State.draw_cur (s : State) {n} : (s.draw n).cur = s.cur := rfl
@[simp] theorem State.draw_tiers (s : State) {n} : (s.draw n).tiers = s.tiers := rfl
@[simp] theorem State.draw_annex (s : State) {n} : (s.draw n).annex = s.annex := rfl
@[simp] theorem State.draw_fab (s : State) {n} : (s.draw n).fab = s.fab := rfl
@[simp] theorem State.draw_ras (s : State) {n} : (s.draw n).ras = s.ras := rfl
@[simp] theorem State.draw_cat (s : State) {n} : (s.draw n).cat = s.cat := rfl
@[simp] theorem State.draw_sec (s : State) {n} : (s.draw n).sec = s.sec := rfl

@[simp] theorem State.emit_core (s : State) {x} (j : Nat) : (s.emit x).core j = s.core j := rfl
@[simp] theorem State.emit_chan (s : State) {x} (j : Nat) : (s.emit x).chan j = s.chan j := rfl
@[simp] theorem State.emit_plinth (s : State) {x} (j : Nat) : (s.emit x).plinth j = s.plinth j := rfl
@[simp] theorem State.emit_fin (s : State) {x} (j : Nat) : (s.emit x).fin j = s.fin j := rfl
@[simp] theorem State.emit_ctx (s : State) {x} (j : Nat) : (s.emit x).ctx j = s.ctx j := rfl
@[simp] theorem State.emit_ring (s : State) {x} (j : Nat) : (s.emit x).ring j = s.ring j := rfl
@[simp] theorem State.emit_page (s : State) {x} (j : Nat) : (s.emit x).page j = s.page j := rfl
@[simp] theorem State.emit_kvMap (s : State) {x} (j : Nat) : (s.emit x).kvMap j = s.kvMap j := rfl
@[simp] theorem State.emit_port (s : State) {x} (j : Nat) : (s.emit x).port j = s.port j := rfl
@[simp] theorem State.emit_window (s : State) {x} (j : Nat) : (s.emit x).window j = s.window j := rfl
@[simp] theorem State.emit_tdi (s : State) {x} (j : Nat) : (s.emit x).tdi j = s.tdi j := rfl
@[simp] theorem State.emit_source (s : State) {x} (j : Nat) : (s.emit x).source j = s.source j := rfl
@[simp] theorem State.emit_pending (s : State) {x} : (s.emit x).pending = s.pending := rfl
@[simp] theorem State.emit_regs (s : State) {x} : (s.emit x).regs = s.regs := rfl
@[simp] theorem State.emit_inForce (s : State) {x} : (s.emit x).inForce = s.inForce := rfl
@[simp] theorem State.emit_vfRegs (s : State) {x} : (s.emit x).vfRegs = s.vfRegs := rfl
@[simp] theorem State.emit_mem (s : State) {x} : (s.emit x).mem = s.mem := rfl
@[simp] theorem State.emit_chk (s : State) {x} : (s.emit x).chk = s.chk := rfl
@[simp] theorem State.emit_bad (s : State) {x} : (s.emit x).bad = s.bad := rfl
@[simp] theorem State.emit_cores (s : State) {x} : (s.emit x).cores = s.cores := rfl
@[simp] theorem State.emit_chans (s : State) {x} : (s.emit x).chans = s.chans := rfl
@[simp] theorem State.emit_plinths (s : State) {x} : (s.emit x).plinths = s.plinths := rfl
@[simp] theorem State.emit_fins (s : State) {x} : (s.emit x).fins = s.fins := rfl
@[simp] theorem State.emit_outBases (s : State) {x} : (s.emit x).outBases = s.outBases := rfl
@[simp] theorem State.emit_hubOps (s : State) {x} : (s.emit x).hubOps = s.hubOps := rfl
@[simp] theorem State.emit_nextOp (s : State) {x} : (s.emit x).nextOp = s.nextOp := rfl
@[simp] theorem State.emit_free (s : State) {x} : (s.emit x).free = s.free := rfl
@[simp] theorem State.emit_ctl (s : State) {x} : (s.emit x).ctl = s.ctl := rfl
@[simp] theorem State.emit_hif (s : State) {x} : (s.emit x).hif = s.hif := rfl
@[simp] theorem State.emit_dma (s : State) {x} : (s.emit x).dma = s.dma := rfl
@[simp] theorem State.emit_doc (s : State) {x} : (s.emit x).doc = s.doc := rfl
@[simp] theorem State.emit_cur (s : State) {x} : (s.emit x).cur = s.cur := rfl
@[simp] theorem State.emit_tiers (s : State) {x} : (s.emit x).tiers = s.tiers := rfl
@[simp] theorem State.emit_annex (s : State) {x} : (s.emit x).annex = s.annex := rfl
@[simp] theorem State.emit_fab (s : State) {x} : (s.emit x).fab = s.fab := rfl
@[simp] theorem State.emit_ras (s : State) {x} : (s.emit x).ras = s.ras := rfl
@[simp] theorem State.emit_cat (s : State) {x} : (s.emit x).cat = s.cat := rfl
@[simp] theorem State.emit_sec (s : State) {x} : (s.emit x).sec = s.sec := rfl

@[simp] theorem State.emit_out (s : State) {x} : (s.emit x).out = s.out ++ [x] := rfl

end Sys2Proof.Machine
end

