-- ==== Sys2Proof/Laws/Reads.lean ====
section
/-! SUPPORT. What the shared operations leave as it was: events, counts, incidents, records and messages change no part of
the state but those that hold them. -/

namespace Sys2Proof.Machine

theorem State.core_congr {s t : State} (h : t.cores = s.cores) (j : Nat) : t.core j = s.core j := by simp only [State.core, h]
theorem State.chan_congr {s t : State} (h : t.chans = s.chans) (j : Nat) : t.chan j = s.chan j := by simp only [State.chan, h]
theorem State.plinth_congr {s t : State} (h : t.plinths = s.plinths) (j : Nat) : t.plinth j = s.plinth j := by simp only [State.plinth, h]
theorem State.fin_congr {s t : State} (h : t.fins = s.fins) (j : Nat) : t.fin j = s.fin j := by simp only [State.fin, h]
theorem State.ctx_congr {s t : State} (h : t.doc.ctxs = s.doc.ctxs) (j : Nat) : t.ctx j = s.ctx j := by simp only [State.ctx, h]
theorem State.ring_congr {s t : State} (h : t.hif.rings = s.hif.rings) (j : Nat) : t.ring j = s.ring j := by simp only [State.ring, h]
theorem State.page_congr {s t : State} (h : t.cur.pages = s.cur.pages) (j : Nat) : t.page j = s.page j := by simp only [State.page, h]
theorem State.kvMap_congr {s t : State} (h : t.cur.maps = s.cur.maps) (j : Nat) : t.kvMap j = s.kvMap j := by simp only [State.kvMap, h]
theorem State.port_congr {s t : State} (h : t.fab.ports = s.fab.ports) (j : Nat) : t.port j = s.port j := by simp only [State.port, h]
theorem State.window_congr {s t : State} (h : t.fab.windows = s.fab.windows) (j : Nat) : t.window j = s.window j := by simp only [State.window, h]
theorem State.tdi_congr {s t : State} (h : t.sec.tdis = s.sec.tdis) (j : Nat) : t.tdi j = s.tdi j := by simp only [State.tdi, h]
theorem State.source_congr {s t : State} (h : t.ras.sources = s.ras.sources) (j : Nat) : t.source j = s.source j := by simp only [State.source, h]

@[simp] theorem State.eventRec_core (s : State) {a1 a2 a3 a4 a5} (j : Nat) : (s.eventRec a1 a2 a3 a4 a5).1.core j = s.core j :=
  State.core_congr ((State.eventRec_only (.refl _ s) (Nat.or_self _)).fst.cores.resolve_left (by decide)) j
@[simp] theorem State.eventRec_chan (s : State) {a1 a2 a3 a4 a5} (j : Nat) : (s.eventRec a1 a2 a3 a4 a5).1.chan j = s.chan j :=
  State.chan_congr ((State.eventRec_only (.refl _ s) (Nat.or_self _)).fst.chans.resolve_left (by decide)) j
@[simp] theorem State.eventRec_plinth (s : State) {a1 a2 a3 a4 a5} (j : Nat) : (s.eventRec a1 a2 a3 a4 a5).1.plinth j = s.plinth j :=
  State.plinth_congr ((State.eventRec_only (.refl _ s) (Nat.or_self _)).fst.plinths.resolve_left (by decide)) j
@[simp] theorem State.eventRec_fin (s : State) {a1 a2 a3 a4 a5} (j : Nat) : (s.eventRec a1 a2 a3 a4 a5).1.fin j = s.fin j :=
  State.fin_congr ((State.eventRec_only (.refl _ s) (Nat.or_self _)).fst.fins.resolve_left (by decide)) j
@[simp] theorem State.eventRec_ctx (s : State) {a1 a2 a3 a4 a5} (j : Nat) : (s.eventRec a1 a2 a3 a4 a5).1.ctx j = s.ctx j :=
  State.ctx_congr ((State.eventRec_only (.refl _ s) (Nat.or_self _)).fst.doc.ctxs.resolve_left (by decide)) j
@[simp] theorem State.eventRec_ring (s : State) {a1 a2 a3 a4 a5} (j : Nat) : (s.eventRec a1 a2 a3 a4 a5).1.ring j = s.ring j :=
  State.ring_congr ((State.eventRec_only (.refl _ s) (Nat.or_self _)).fst.hif.rings.resolve_left (by decide)) j
@[simp] theorem State.eventRec_page (s : State) {a1 a2 a3 a4 a5} (j : Nat) : (s.eventRec a1 a2 a3 a4 a5).1.page j = s.page j :=
  State.page_congr ((State.eventRec_only (.refl _ s) (Nat.or_self _)).fst.cur.pages.resolve_left (by decide)) j
@[simp] theorem State.eventRec_kvMap (s : State) {a1 a2 a3 a4 a5} (j : Nat) : (s.eventRec a1 a2 a3 a4 a5).1.kvMap j = s.kvMap j :=
  State.kvMap_congr ((State.eventRec_only (.refl _ s) (Nat.or_self _)).fst.cur.maps.resolve_left (by decide)) j
@[simp] theorem State.eventRec_port (s : State) {a1 a2 a3 a4 a5} (j : Nat) : (s.eventRec a1 a2 a3 a4 a5).1.port j = s.port j :=
  State.port_congr ((State.eventRec_only (.refl _ s) (Nat.or_self _)).fst.fab.ports.resolve_left (by decide)) j
@[simp] theorem State.eventRec_window (s : State) {a1 a2 a3 a4 a5} (j : Nat) : (s.eventRec a1 a2 a3 a4 a5).1.window j = s.window j :=
  State.window_congr ((State.eventRec_only (.refl _ s) (Nat.or_self _)).fst.fab.windows.resolve_left (by decide)) j
@[simp] theorem State.eventRec_tdi (s : State) {a1 a2 a3 a4 a5} (j : Nat) : (s.eventRec a1 a2 a3 a4 a5).1.tdi j = s.tdi j :=
  State.tdi_congr ((State.eventRec_only (.refl _ s) (Nat.or_self _)).fst.sec.tdis.resolve_left (by decide)) j
@[simp] theorem State.eventRec_source (s : State) {a1 a2 a3 a4 a5} (j : Nat) : (s.eventRec a1 a2 a3 a4 a5).1.source j = s.source j :=
  State.source_congr ((State.eventRec_only (.refl _ s) (Nat.or_self _)).fst.ras.sources.resolve_left (by decide)) j
@[simp] theorem State.eventRec_mem (s : State) {a1 a2 a3 a4 a5} : (s.eventRec a1 a2 a3 a4 a5).1.mem = s.mem :=
  (State.eventRec_only (.refl _ s) (Nat.or_self _)).fst.mem.resolve_left (by decide)
@[simp] theorem State.eventRec_out (s : State) {a1 a2 a3 a4 a5} : (s.eventRec a1 a2 a3 a4 a5).1.out = s.out :=
  (State.eventRec_only (.refl _ s) (Nat.or_self _)).fst.out.resolve_left (by decide)
@[simp] theorem State.eventRec_regs (s : State) {a1 a2 a3 a4 a5} : (s.eventRec a1 a2 a3 a4 a5).1.regs = s.regs :=
  (State.eventRec_only (.refl _ s) (Nat.or_self _)).fst.regs.resolve_left (by decide)
@[simp] theorem State.eventRec_inForce (s : State) {a1 a2 a3 a4 a5} : (s.eventRec a1 a2 a3 a4 a5).1.inForce = s.inForce :=
  (State.eventRec_only (.refl _ s) (Nat.or_self _)).fst.inForce.resolve_left (by decide)
@[simp] theorem State.eventRec_hif_inReset (s : State) {a1 a2 a3 a4 a5} : (s.eventRec a1 a2 a3 a4 a5).1.hif.inReset = s.hif.inReset :=
  (State.eventRec_only (.refl _ s) (Nat.or_self _)).fst.hif.inReset.resolve_left (by decide)
@[simp] theorem State.eventRec_hif_inflight (s : State) {a1 a2 a3 a4 a5} : (s.eventRec a1 a2 a3 a4 a5).1.hif.inflight = s.hif.inflight :=
  (State.eventRec_only (.refl _ s) (Nat.or_self _)).fst.hif.inflight.resolve_left (by decide)
@[simp] theorem State.eventRec_hif_poll (s : State) {a1 a2 a3 a4 a5} : (s.eventRec a1 a2 a3 a4 a5).1.hif.poll = s.hif.poll :=
  (State.eventRec_only (.refl _ s) (Nat.or_self _)).fst.hif.poll.resolve_left (by decide)
@[simp] theorem State.eventRec_nextOp (s : State) {a1 a2 a3 a4 a5} : (s.eventRec a1 a2 a3 a4 a5).1.nextOp = s.nextOp :=
  (State.eventRec_only (.refl _ s) (Nat.or_self _)).fst.nextOp.resolve_left (by decide)
@[simp] theorem State.eventRec_fab_beat (s : State) {a1 a2 a3 a4 a5} : (s.eventRec a1 a2 a3 a4 a5).1.fab.beat = s.fab.beat :=
  (State.eventRec_only (.refl _ s) (Nat.or_self _)).fst.fab.beat.resolve_left (by decide)
@[simp] theorem State.eventRec_dma (s : State) {a1 a2 a3 a4 a5} : (s.eventRec a1 a2 a3 a4 a5).1.dma = s.dma :=
  OnlyDma.eq (State.eventRec_only (.refl _ s) (Nat.or_self _)).fst.dma (by decide)
@[simp] theorem State.eventRec_tiers (s : State) {a1 a2 a3 a4 a5} : (s.eventRec a1 a2 a3 a4 a5).1.tiers = s.tiers :=
  OnlyTiers.eq (State.eventRec_only (.refl _ s) (Nat.or_self _)).fst.tiers (by decide)
@[simp] theorem State.eventRec_hubOps (s : State) {a1 a2 a3 a4 a5} : (s.eventRec a1 a2 a3 a4 a5).1.hubOps = s.hubOps :=
  (State.eventRec_only (.refl _ s) (Nat.or_self _)).fst.hubOps.resolve_left (by decide)
@[simp] theorem State.eventRec_annex (s : State) {a1 a2 a3 a4 a5} : (s.eventRec a1 a2 a3 a4 a5).1.annex = s.annex :=
  OnlyAnnex.eq (State.eventRec_only (.refl _ s) (Nat.or_self _)).fst.annex (by decide)
@[simp] theorem State.eventRec_ctl (s : State) {a1 a2 a3 a4 a5} : (s.eventRec a1 a2 a3 a4 a5).1.ctl = s.ctl :=
  OnlyCtl.eq (State.eventRec_only (.refl _ s) (Nat.or_self _)).fst.ctl (by decide)
@[simp] theorem State.eventRec_sec (s : State) {a1 a2 a3 a4 a5} : (s.eventRec a1 a2 a3 a4 a5).1.sec = s.sec :=
  OnlySec.eq (State.eventRec_only (.refl _ s) (Nat.or_self _)).fst.sec (by decide)
@[simp] theorem State.eventRec_doc_groups (s : State) {a1 a2 a3 a4 a5} : (s.eventRec a1 a2 a3 a4 a5).1.doc.groups = s.doc.groups :=
  (State.eventRec_only (.refl _ s) (Nat.or_self _)).fst.doc.groups.resolve_left (by decide)
@[simp] theorem State.eventRec_doc_appends (s : State) {a1 a2 a3 a4 a5} : (s.eventRec a1 a2 a3 a4 a5).1.doc.appends = s.doc.appends :=
  (State.eventRec_only (.refl _ s) (Nat.or_self _)).fst.doc.appends.resolve_left (by decide)
@[simp] theorem State.eventRec_cur_forks (s : State) {a1 a2 a3 a4 a5} : (s.eventRec a1 a2 a3 a4 a5).1.cur.forks = s.cur.forks :=
  (State.eventRec_only (.refl _ s) (Nat.or_self _)).fst.cur.forks.resolve_left (by decide)
@[simp] theorem State.eventRec_cur_moves (s : State) {a1 a2 a3 a4 a5} : (s.eventRec a1 a2 a3 a4 a5).1.cur.moves = s.cur.moves :=
  (State.eventRec_only (.refl _ s) (Nat.or_self _)).fst.cur.moves.resolve_left (by decide)
@[simp] theorem State.eventRec_field (s : State) {a1 a2 a3 a4 a5} (r : Reg) (i : List Nat) (hi lo : Nat) : (s.eventRec a1 a2 a3 a4 a5).1.field r i hi lo = s.field r i hi lo := by
  simp only [State.field, State.written, State.eventRec_regs]
@[simp] theorem State.eventRec_flag (s : State) {a1 a2 a3 a4 a5} (r : Reg) (i : List Nat) (k : Nat) : (s.eventRec a1 a2 a3 a4 a5).1.flag r i k = s.flag r i k := by
  simp only [State.flag, State.eventRec_field]

@[simp] theorem State.traceOffer_core (s : State) {a1 a2 a3 a4 a5} (j : Nat) : (s.traceOffer a1 a2 a3 a4 a5).core j = s.core j :=
  State.core_congr ((State.traceOffer_only (.refl _ s) (Nat.or_self _)).cores.resolve_left (by decide)) j
@[simp] theorem State.traceOffer_chan (s : State) {a1 a2 a3 a4 a5} (j : Nat) : (s.traceOffer a1 a2 a3 a4 a5).chan j = s.chan j :=
  State.chan_congr ((State.traceOffer_only (.refl _ s) (Nat.or_self _)).chans.resolve_left (by decide)) j
@[simp] theorem State.traceOffer_plinth (s : State) {a1 a2 a3 a4 a5} (j : Nat) : (s.traceOffer a1 a2 a3 a4 a5).plinth j = s.plinth j :=
  State.plinth_congr ((State.traceOffer_only (.refl _ s) (Nat.or_self _)).plinths.resolve_left (by decide)) j
@[simp] theorem State.traceOffer_fin (s : State) {a1 a2 a3 a4 a5} (j : Nat) : (s.traceOffer a1 a2 a3 a4 a5).fin j = s.fin j :=
  State.fin_congr ((State.traceOffer_only (.refl _ s) (Nat.or_self _)).fins.resolve_left (by decide)) j
@[simp] theorem State.traceOffer_ctx (s : State) {a1 a2 a3 a4 a5} (j : Nat) : (s.traceOffer a1 a2 a3 a4 a5).ctx j = s.ctx j :=
  State.ctx_congr ((State.traceOffer_only (.refl _ s) (Nat.or_self _)).doc.ctxs.resolve_left (by decide)) j
@[simp] theorem State.traceOffer_ring (s : State) {a1 a2 a3 a4 a5} (j : Nat) : (s.traceOffer a1 a2 a3 a4 a5).ring j = s.ring j :=
  State.ring_congr ((State.traceOffer_only (.refl _ s) (Nat.or_self _)).hif.rings.resolve_left (by decide)) j
@[simp] theorem State.traceOffer_page (s : State) {a1 a2 a3 a4 a5} (j : Nat) : (s.traceOffer a1 a2 a3 a4 a5).page j = s.page j :=
  State.page_congr ((State.traceOffer_only (.refl _ s) (Nat.or_self _)).cur.pages.resolve_left (by decide)) j
@[simp] theorem State.traceOffer_kvMap (s : State) {a1 a2 a3 a4 a5} (j : Nat) : (s.traceOffer a1 a2 a3 a4 a5).kvMap j = s.kvMap j :=
  State.kvMap_congr ((State.traceOffer_only (.refl _ s) (Nat.or_self _)).cur.maps.resolve_left (by decide)) j
@[simp] theorem State.traceOffer_port (s : State) {a1 a2 a3 a4 a5} (j : Nat) : (s.traceOffer a1 a2 a3 a4 a5).port j = s.port j :=
  State.port_congr ((State.traceOffer_only (.refl _ s) (Nat.or_self _)).fab.ports.resolve_left (by decide)) j
@[simp] theorem State.traceOffer_window (s : State) {a1 a2 a3 a4 a5} (j : Nat) : (s.traceOffer a1 a2 a3 a4 a5).window j = s.window j :=
  State.window_congr ((State.traceOffer_only (.refl _ s) (Nat.or_self _)).fab.windows.resolve_left (by decide)) j
@[simp] theorem State.traceOffer_tdi (s : State) {a1 a2 a3 a4 a5} (j : Nat) : (s.traceOffer a1 a2 a3 a4 a5).tdi j = s.tdi j :=
  State.tdi_congr ((State.traceOffer_only (.refl _ s) (Nat.or_self _)).sec.tdis.resolve_left (by decide)) j
@[simp] theorem State.traceOffer_source (s : State) {a1 a2 a3 a4 a5} (j : Nat) : (s.traceOffer a1 a2 a3 a4 a5).source j = s.source j :=
  State.source_congr ((State.traceOffer_only (.refl _ s) (Nat.or_self _)).ras.sources.resolve_left (by decide)) j
@[simp] theorem State.traceOffer_mem (s : State) {a1 a2 a3 a4 a5} : (s.traceOffer a1 a2 a3 a4 a5).mem = s.mem :=
  (State.traceOffer_only (.refl _ s) (Nat.or_self _)).mem.resolve_left (by decide)
@[simp] theorem State.traceOffer_out (s : State) {a1 a2 a3 a4 a5} : (s.traceOffer a1 a2 a3 a4 a5).out = s.out :=
  (State.traceOffer_only (.refl _ s) (Nat.or_self _)).out.resolve_left (by decide)
@[simp] theorem State.traceOffer_regs (s : State) {a1 a2 a3 a4 a5} : (s.traceOffer a1 a2 a3 a4 a5).regs = s.regs :=
  (State.traceOffer_only (.refl _ s) (Nat.or_self _)).regs.resolve_left (by decide)
@[simp] theorem State.traceOffer_inForce (s : State) {a1 a2 a3 a4 a5} : (s.traceOffer a1 a2 a3 a4 a5).inForce = s.inForce :=
  (State.traceOffer_only (.refl _ s) (Nat.or_self _)).inForce.resolve_left (by decide)
@[simp] theorem State.traceOffer_hif_inReset (s : State) {a1 a2 a3 a4 a5} : (s.traceOffer a1 a2 a3 a4 a5).hif.inReset = s.hif.inReset :=
  (State.traceOffer_only (.refl _ s) (Nat.or_self _)).hif.inReset.resolve_left (by decide)
@[simp] theorem State.traceOffer_hif_inflight (s : State) {a1 a2 a3 a4 a5} : (s.traceOffer a1 a2 a3 a4 a5).hif.inflight = s.hif.inflight :=
  (State.traceOffer_only (.refl _ s) (Nat.or_self _)).hif.inflight.resolve_left (by decide)
@[simp] theorem State.traceOffer_hif_poll (s : State) {a1 a2 a3 a4 a5} : (s.traceOffer a1 a2 a3 a4 a5).hif.poll = s.hif.poll :=
  (State.traceOffer_only (.refl _ s) (Nat.or_self _)).hif.poll.resolve_left (by decide)
@[simp] theorem State.traceOffer_nextOp (s : State) {a1 a2 a3 a4 a5} : (s.traceOffer a1 a2 a3 a4 a5).nextOp = s.nextOp :=
  (State.traceOffer_only (.refl _ s) (Nat.or_self _)).nextOp.resolve_left (by decide)
@[simp] theorem State.traceOffer_fab_beat (s : State) {a1 a2 a3 a4 a5} : (s.traceOffer a1 a2 a3 a4 a5).fab.beat = s.fab.beat :=
  (State.traceOffer_only (.refl _ s) (Nat.or_self _)).fab.beat.resolve_left (by decide)
@[simp] theorem State.traceOffer_dma (s : State) {a1 a2 a3 a4 a5} : (s.traceOffer a1 a2 a3 a4 a5).dma = s.dma :=
  OnlyDma.eq (State.traceOffer_only (.refl _ s) (Nat.or_self _)).dma (by decide)
@[simp] theorem State.traceOffer_tiers (s : State) {a1 a2 a3 a4 a5} : (s.traceOffer a1 a2 a3 a4 a5).tiers = s.tiers :=
  OnlyTiers.eq (State.traceOffer_only (.refl _ s) (Nat.or_self _)).tiers (by decide)
@[simp] theorem State.traceOffer_hubOps (s : State) {a1 a2 a3 a4 a5} : (s.traceOffer a1 a2 a3 a4 a5).hubOps = s.hubOps :=
  (State.traceOffer_only (.refl _ s) (Nat.or_self _)).hubOps.resolve_left (by decide)
@[simp] theorem State.traceOffer_annex (s : State) {a1 a2 a3 a4 a5} : (s.traceOffer a1 a2 a3 a4 a5).annex = s.annex :=
  OnlyAnnex.eq (State.traceOffer_only (.refl _ s) (Nat.or_self _)).annex (by decide)
@[simp] theorem State.traceOffer_ctl (s : State) {a1 a2 a3 a4 a5} : (s.traceOffer a1 a2 a3 a4 a5).ctl = s.ctl :=
  OnlyCtl.eq (State.traceOffer_only (.refl _ s) (Nat.or_self _)).ctl (by decide)
@[simp] theorem State.traceOffer_sec (s : State) {a1 a2 a3 a4 a5} : (s.traceOffer a1 a2 a3 a4 a5).sec = s.sec :=
  OnlySec.eq (State.traceOffer_only (.refl _ s) (Nat.or_self _)).sec (by decide)
@[simp] theorem State.traceOffer_doc_groups (s : State) {a1 a2 a3 a4 a5} : (s.traceOffer a1 a2 a3 a4 a5).doc.groups = s.doc.groups :=
  (State.traceOffer_only (.refl _ s) (Nat.or_self _)).doc.groups.resolve_left (by decide)
@[simp] theorem State.traceOffer_doc_appends (s : State) {a1 a2 a3 a4 a5} : (s.traceOffer a1 a2 a3 a4 a5).doc.appends = s.doc.appends :=
  (State.traceOffer_only (.refl _ s) (Nat.or_self _)).doc.appends.resolve_left (by decide)
@[simp] theorem State.traceOffer_cur_forks (s : State) {a1 a2 a3 a4 a5} : (s.traceOffer a1 a2 a3 a4 a5).cur.forks = s.cur.forks :=
  (State.traceOffer_only (.refl _ s) (Nat.or_self _)).cur.forks.resolve_left (by decide)
@[simp] theorem State.traceOffer_cur_moves (s : State) {a1 a2 a3 a4 a5} : (s.traceOffer a1 a2 a3 a4 a5).cur.moves = s.cur.moves :=
  (State.traceOffer_only (.refl _ s) (Nat.or_self _)).cur.moves.resolve_left (by decide)
@[simp] theorem State.traceOffer_field (s : State) {a1 a2 a3 a4 a5} (r : Reg) (i : List Nat) (hi lo : Nat) : (s.traceOffer a1 a2 a3 a4 a5).field r i hi lo = s.field r i hi lo := by
  simp only [State.field, State.written, State.traceOffer_regs]
@[simp] theorem State.traceOffer_flag (s : State) {a1 a2 a3 a4 a5} (r : Reg) (i : List Nat) (k : Nat) : (s.traceOffer a1 a2 a3 a4 a5).flag r i k = s.flag r i k := by
  simp only [State.flag, State.traceOffer_field]

@[simp] theorem State.event_core (s : State) {a1 a2 a3 a4 a5} (j : Nat) : (s.event a1 a2 a3 a4 a5).core j = s.core j :=
  State.core_congr ((State.event_only (.refl _ s) (Nat.or_self _)).cores.resolve_left (by decide)) j
@[simp] theorem State.event_chan (s : State) {a1 a2 a3 a4 a5} (j : Nat) : (s.event a1 a2 a3 a4 a5).chan j = s.chan j :=
  State.chan_congr ((State.event_only (.refl _ s) (Nat.or_self _)).chans.resolve_left (by decide)) j
@[simp] theorem State.event_plinth (s : State) {a1 a2 a3 a4 a5} (j : Nat) : (s.event a1 a2 a3 a4 a5).plinth j = s.plinth j :=
  State.plinth_congr ((State.event_only (.refl _ s) (Nat.or_self _)).plinths.resolve_left (by decide)) j
@[simp] theorem State.event_fin (s : State) {a1 a2 a3 a4 a5} (j : Nat) : (s.event a1 a2 a3 a4 a5).fin j = s.fin j :=
  State.fin_congr ((State.event_only (.refl _ s) (Nat.or_self _)).fins.resolve_left (by decide)) j
@[simp] theorem State.event_ctx (s : State) {a1 a2 a3 a4 a5} (j : Nat) : (s.event a1 a2 a3 a4 a5).ctx j = s.ctx j :=
  State.ctx_congr ((State.event_only (.refl _ s) (Nat.or_self _)).doc.ctxs.resolve_left (by decide)) j
@[simp] theorem State.event_ring (s : State) {a1 a2 a3 a4 a5} (j : Nat) : (s.event a1 a2 a3 a4 a5).ring j = s.ring j :=
  State.ring_congr ((State.event_only (.refl _ s) (Nat.or_self _)).hif.rings.resolve_left (by decide)) j
@[simp] theorem State.event_page (s : State) {a1 a2 a3 a4 a5} (j : Nat) : (s.event a1 a2 a3 a4 a5).page j = s.page j :=
  State.page_congr ((State.event_only (.refl _ s) (Nat.or_self _)).cur.pages.resolve_left (by decide)) j
@[simp] theorem State.event_kvMap (s : State) {a1 a2 a3 a4 a5} (j : Nat) : (s.event a1 a2 a3 a4 a5).kvMap j = s.kvMap j :=
  State.kvMap_congr ((State.event_only (.refl _ s) (Nat.or_self _)).cur.maps.resolve_left (by decide)) j
@[simp] theorem State.event_port (s : State) {a1 a2 a3 a4 a5} (j : Nat) : (s.event a1 a2 a3 a4 a5).port j = s.port j :=
  State.port_congr ((State.event_only (.refl _ s) (Nat.or_self _)).fab.ports.resolve_left (by decide)) j
@[simp] theorem State.event_window (s : State) {a1 a2 a3 a4 a5} (j : Nat) : (s.event a1 a2 a3 a4 a5).window j = s.window j :=
  State.window_congr ((State.event_only (.refl _ s) (Nat.or_self _)).fab.windows.resolve_left (by decide)) j
@[simp] theorem State.event_tdi (s : State) {a1 a2 a3 a4 a5} (j : Nat) : (s.event a1 a2 a3 a4 a5).tdi j = s.tdi j :=
  State.tdi_congr ((State.event_only (.refl _ s) (Nat.or_self _)).sec.tdis.resolve_left (by decide)) j
@[simp] theorem State.event_source (s : State) {a1 a2 a3 a4 a5} (j : Nat) : (s.event a1 a2 a3 a4 a5).source j = s.source j :=
  State.source_congr ((State.event_only (.refl _ s) (Nat.or_self _)).ras.sources.resolve_left (by decide)) j
@[simp] theorem State.event_mem (s : State) {a1 a2 a3 a4 a5} : (s.event a1 a2 a3 a4 a5).mem = s.mem :=
  (State.event_only (.refl _ s) (Nat.or_self _)).mem.resolve_left (by decide)
@[simp] theorem State.event_out (s : State) {a1 a2 a3 a4 a5} : (s.event a1 a2 a3 a4 a5).out = s.out :=
  (State.event_only (.refl _ s) (Nat.or_self _)).out.resolve_left (by decide)
@[simp] theorem State.event_regs (s : State) {a1 a2 a3 a4 a5} : (s.event a1 a2 a3 a4 a5).regs = s.regs :=
  (State.event_only (.refl _ s) (Nat.or_self _)).regs.resolve_left (by decide)
@[simp] theorem State.event_inForce (s : State) {a1 a2 a3 a4 a5} : (s.event a1 a2 a3 a4 a5).inForce = s.inForce :=
  (State.event_only (.refl _ s) (Nat.or_self _)).inForce.resolve_left (by decide)
@[simp] theorem State.event_hif_inReset (s : State) {a1 a2 a3 a4 a5} : (s.event a1 a2 a3 a4 a5).hif.inReset = s.hif.inReset :=
  (State.event_only (.refl _ s) (Nat.or_self _)).hif.inReset.resolve_left (by decide)
@[simp] theorem State.event_hif_inflight (s : State) {a1 a2 a3 a4 a5} : (s.event a1 a2 a3 a4 a5).hif.inflight = s.hif.inflight :=
  (State.event_only (.refl _ s) (Nat.or_self _)).hif.inflight.resolve_left (by decide)
@[simp] theorem State.event_hif_poll (s : State) {a1 a2 a3 a4 a5} : (s.event a1 a2 a3 a4 a5).hif.poll = s.hif.poll :=
  (State.event_only (.refl _ s) (Nat.or_self _)).hif.poll.resolve_left (by decide)
@[simp] theorem State.event_nextOp (s : State) {a1 a2 a3 a4 a5} : (s.event a1 a2 a3 a4 a5).nextOp = s.nextOp :=
  (State.event_only (.refl _ s) (Nat.or_self _)).nextOp.resolve_left (by decide)
@[simp] theorem State.event_fab_beat (s : State) {a1 a2 a3 a4 a5} : (s.event a1 a2 a3 a4 a5).fab.beat = s.fab.beat :=
  (State.event_only (.refl _ s) (Nat.or_self _)).fab.beat.resolve_left (by decide)
@[simp] theorem State.event_dma (s : State) {a1 a2 a3 a4 a5} : (s.event a1 a2 a3 a4 a5).dma = s.dma :=
  OnlyDma.eq (State.event_only (.refl _ s) (Nat.or_self _)).dma (by decide)
@[simp] theorem State.event_tiers (s : State) {a1 a2 a3 a4 a5} : (s.event a1 a2 a3 a4 a5).tiers = s.tiers :=
  OnlyTiers.eq (State.event_only (.refl _ s) (Nat.or_self _)).tiers (by decide)
@[simp] theorem State.event_hubOps (s : State) {a1 a2 a3 a4 a5} : (s.event a1 a2 a3 a4 a5).hubOps = s.hubOps :=
  (State.event_only (.refl _ s) (Nat.or_self _)).hubOps.resolve_left (by decide)
@[simp] theorem State.event_annex (s : State) {a1 a2 a3 a4 a5} : (s.event a1 a2 a3 a4 a5).annex = s.annex :=
  OnlyAnnex.eq (State.event_only (.refl _ s) (Nat.or_self _)).annex (by decide)
@[simp] theorem State.event_ctl (s : State) {a1 a2 a3 a4 a5} : (s.event a1 a2 a3 a4 a5).ctl = s.ctl :=
  OnlyCtl.eq (State.event_only (.refl _ s) (Nat.or_self _)).ctl (by decide)
@[simp] theorem State.event_sec (s : State) {a1 a2 a3 a4 a5} : (s.event a1 a2 a3 a4 a5).sec = s.sec :=
  OnlySec.eq (State.event_only (.refl _ s) (Nat.or_self _)).sec (by decide)
@[simp] theorem State.event_doc_groups (s : State) {a1 a2 a3 a4 a5} : (s.event a1 a2 a3 a4 a5).doc.groups = s.doc.groups :=
  (State.event_only (.refl _ s) (Nat.or_self _)).doc.groups.resolve_left (by decide)
@[simp] theorem State.event_doc_appends (s : State) {a1 a2 a3 a4 a5} : (s.event a1 a2 a3 a4 a5).doc.appends = s.doc.appends :=
  (State.event_only (.refl _ s) (Nat.or_self _)).doc.appends.resolve_left (by decide)
@[simp] theorem State.event_cur_forks (s : State) {a1 a2 a3 a4 a5} : (s.event a1 a2 a3 a4 a5).cur.forks = s.cur.forks :=
  (State.event_only (.refl _ s) (Nat.or_self _)).cur.forks.resolve_left (by decide)
@[simp] theorem State.event_cur_moves (s : State) {a1 a2 a3 a4 a5} : (s.event a1 a2 a3 a4 a5).cur.moves = s.cur.moves :=
  (State.event_only (.refl _ s) (Nat.or_self _)).cur.moves.resolve_left (by decide)
@[simp] theorem State.event_field (s : State) {a1 a2 a3 a4 a5} (r : Reg) (i : List Nat) (hi lo : Nat) : (s.event a1 a2 a3 a4 a5).field r i hi lo = s.field r i hi lo := by
  simp only [State.field, State.written, State.event_regs]
@[simp] theorem State.event_flag (s : State) {a1 a2 a3 a4 a5} (r : Reg) (i : List Nat) (k : Nat) : (s.event a1 a2 a3 a4 a5).flag r i k = s.flag r i k := by
  simp only [State.flag, State.event_field]

@[simp] theorem State.opEvent_core (s : State) {a1 a2 a3 a4} (j : Nat) : (s.opEvent a1 a2 a3 a4).core j = s.core j :=
  State.core_congr ((State.opEvent_only (.refl _ s) (Nat.or_self _)).cores.resolve_left (by decide)) j
@[simp] theorem State.opEvent_chan (s : State) {a1 a2 a3 a4} (j : Nat) : (s.opEvent a1 a2 a3 a4).chan j = s.chan j :=
  State.chan_congr ((State.opEvent_only (.refl _ s) (Nat.or_self _)).chans.resolve_left (by decide)) j
@[simp] theorem State.opEvent_plinth (s : State) {a1 a2 a3 a4} (j : Nat) : (s.opEvent a1 a2 a3 a4).plinth j = s.plinth j :=
  State.plinth_congr ((State.opEvent_only (.refl _ s) (Nat.or_self _)).plinths.resolve_left (by decide)) j
@[simp] theorem State.opEvent_fin (s : State) {a1 a2 a3 a4} (j : Nat) : (s.opEvent a1 a2 a3 a4).fin j = s.fin j :=
  State.fin_congr ((State.opEvent_only (.refl _ s) (Nat.or_self _)).fins.resolve_left (by decide)) j
@[simp] theorem State.opEvent_ctx (s : State) {a1 a2 a3 a4} (j : Nat) : (s.opEvent a1 a2 a3 a4).ctx j = s.ctx j :=
  State.ctx_congr ((State.opEvent_only (.refl _ s) (Nat.or_self _)).doc.ctxs.resolve_left (by decide)) j
@[simp] theorem State.opEvent_ring (s : State) {a1 a2 a3 a4} (j : Nat) : (s.opEvent a1 a2 a3 a4).ring j = s.ring j :=
  State.ring_congr ((State.opEvent_only (.refl _ s) (Nat.or_self _)).hif.rings.resolve_left (by decide)) j
@[simp] theorem State.opEvent_page (s : State) {a1 a2 a3 a4} (j : Nat) : (s.opEvent a1 a2 a3 a4).page j = s.page j :=
  State.page_congr ((State.opEvent_only (.refl _ s) (Nat.or_self _)).cur.pages.resolve_left (by decide)) j
@[simp] theorem State.opEvent_kvMap (s : State) {a1 a2 a3 a4} (j : Nat) : (s.opEvent a1 a2 a3 a4).kvMap j = s.kvMap j :=
  State.kvMap_congr ((State.opEvent_only (.refl _ s) (Nat.or_self _)).cur.maps.resolve_left (by decide)) j
@[simp] theorem State.opEvent_port (s : State) {a1 a2 a3 a4} (j : Nat) : (s.opEvent a1 a2 a3 a4).port j = s.port j :=
  State.port_congr ((State.opEvent_only (.refl _ s) (Nat.or_self _)).fab.ports.resolve_left (by decide)) j
@[simp] theorem State.opEvent_window (s : State) {a1 a2 a3 a4} (j : Nat) : (s.opEvent a1 a2 a3 a4).window j = s.window j :=
  State.window_congr ((State.opEvent_only (.refl _ s) (Nat.or_self _)).fab.windows.resolve_left (by decide)) j
@[simp] theorem State.opEvent_tdi (s : State) {a1 a2 a3 a4} (j : Nat) : (s.opEvent a1 a2 a3 a4).tdi j = s.tdi j :=
  State.tdi_congr ((State.opEvent_only (.refl _ s) (Nat.or_self _)).sec.tdis.resolve_left (by decide)) j
@[simp] theorem State.opEvent_source (s : State) {a1 a2 a3 a4} (j : Nat) : (s.opEvent a1 a2 a3 a4).source j = s.source j :=
  State.source_congr ((State.opEvent_only (.refl _ s) (Nat.or_self _)).ras.sources.resolve_left (by decide)) j
@[simp] theorem State.opEvent_mem (s : State) {a1 a2 a3 a4} : (s.opEvent a1 a2 a3 a4).mem = s.mem :=
  (State.opEvent_only (.refl _ s) (Nat.or_self _)).mem.resolve_left (by decide)
@[simp] theorem State.opEvent_out (s : State) {a1 a2 a3 a4} : (s.opEvent a1 a2 a3 a4).out = s.out :=
  (State.opEvent_only (.refl _ s) (Nat.or_self _)).out.resolve_left (by decide)
@[simp] theorem State.opEvent_regs (s : State) {a1 a2 a3 a4} : (s.opEvent a1 a2 a3 a4).regs = s.regs :=
  (State.opEvent_only (.refl _ s) (Nat.or_self _)).regs.resolve_left (by decide)
@[simp] theorem State.opEvent_inForce (s : State) {a1 a2 a3 a4} : (s.opEvent a1 a2 a3 a4).inForce = s.inForce :=
  (State.opEvent_only (.refl _ s) (Nat.or_self _)).inForce.resolve_left (by decide)
@[simp] theorem State.opEvent_hif_inReset (s : State) {a1 a2 a3 a4} : (s.opEvent a1 a2 a3 a4).hif.inReset = s.hif.inReset :=
  (State.opEvent_only (.refl _ s) (Nat.or_self _)).hif.inReset.resolve_left (by decide)
@[simp] theorem State.opEvent_hif_inflight (s : State) {a1 a2 a3 a4} : (s.opEvent a1 a2 a3 a4).hif.inflight = s.hif.inflight :=
  (State.opEvent_only (.refl _ s) (Nat.or_self _)).hif.inflight.resolve_left (by decide)
@[simp] theorem State.opEvent_hif_poll (s : State) {a1 a2 a3 a4} : (s.opEvent a1 a2 a3 a4).hif.poll = s.hif.poll :=
  (State.opEvent_only (.refl _ s) (Nat.or_self _)).hif.poll.resolve_left (by decide)
@[simp] theorem State.opEvent_nextOp (s : State) {a1 a2 a3 a4} : (s.opEvent a1 a2 a3 a4).nextOp = s.nextOp :=
  (State.opEvent_only (.refl _ s) (Nat.or_self _)).nextOp.resolve_left (by decide)
@[simp] theorem State.opEvent_fab_beat (s : State) {a1 a2 a3 a4} : (s.opEvent a1 a2 a3 a4).fab.beat = s.fab.beat :=
  (State.opEvent_only (.refl _ s) (Nat.or_self _)).fab.beat.resolve_left (by decide)
@[simp] theorem State.opEvent_dma (s : State) {a1 a2 a3 a4} : (s.opEvent a1 a2 a3 a4).dma = s.dma :=
  OnlyDma.eq (State.opEvent_only (.refl _ s) (Nat.or_self _)).dma (by decide)
@[simp] theorem State.opEvent_tiers (s : State) {a1 a2 a3 a4} : (s.opEvent a1 a2 a3 a4).tiers = s.tiers :=
  OnlyTiers.eq (State.opEvent_only (.refl _ s) (Nat.or_self _)).tiers (by decide)
@[simp] theorem State.opEvent_hubOps (s : State) {a1 a2 a3 a4} : (s.opEvent a1 a2 a3 a4).hubOps = s.hubOps :=
  (State.opEvent_only (.refl _ s) (Nat.or_self _)).hubOps.resolve_left (by decide)
@[simp] theorem State.opEvent_annex (s : State) {a1 a2 a3 a4} : (s.opEvent a1 a2 a3 a4).annex = s.annex :=
  OnlyAnnex.eq (State.opEvent_only (.refl _ s) (Nat.or_self _)).annex (by decide)
@[simp] theorem State.opEvent_ctl (s : State) {a1 a2 a3 a4} : (s.opEvent a1 a2 a3 a4).ctl = s.ctl :=
  OnlyCtl.eq (State.opEvent_only (.refl _ s) (Nat.or_self _)).ctl (by decide)
@[simp] theorem State.opEvent_sec (s : State) {a1 a2 a3 a4} : (s.opEvent a1 a2 a3 a4).sec = s.sec :=
  OnlySec.eq (State.opEvent_only (.refl _ s) (Nat.or_self _)).sec (by decide)
@[simp] theorem State.opEvent_doc_groups (s : State) {a1 a2 a3 a4} : (s.opEvent a1 a2 a3 a4).doc.groups = s.doc.groups :=
  (State.opEvent_only (.refl _ s) (Nat.or_self _)).doc.groups.resolve_left (by decide)
@[simp] theorem State.opEvent_doc_appends (s : State) {a1 a2 a3 a4} : (s.opEvent a1 a2 a3 a4).doc.appends = s.doc.appends :=
  (State.opEvent_only (.refl _ s) (Nat.or_self _)).doc.appends.resolve_left (by decide)
@[simp] theorem State.opEvent_cur_forks (s : State) {a1 a2 a3 a4} : (s.opEvent a1 a2 a3 a4).cur.forks = s.cur.forks :=
  (State.opEvent_only (.refl _ s) (Nat.or_self _)).cur.forks.resolve_left (by decide)
@[simp] theorem State.opEvent_cur_moves (s : State) {a1 a2 a3 a4} : (s.opEvent a1 a2 a3 a4).cur.moves = s.cur.moves :=
  (State.opEvent_only (.refl _ s) (Nat.or_self _)).cur.moves.resolve_left (by decide)
@[simp] theorem State.opEvent_field (s : State) {a1 a2 a3 a4} (r : Reg) (i : List Nat) (hi lo : Nat) : (s.opEvent a1 a2 a3 a4).field r i hi lo = s.field r i hi lo := by
  simp only [State.field, State.written, State.opEvent_regs]
@[simp] theorem State.opEvent_flag (s : State) {a1 a2 a3 a4} (r : Reg) (i : List Nat) (k : Nat) : (s.opEvent a1 a2 a3 a4).flag r i k = s.flag r i k := by
  simp only [State.flag, State.opEvent_field]

@[simp] theorem State.countSub_core (s : State) {a1 a2 a3 a4} (j : Nat) : (s.countSub a1 a2 a3 a4).core j = s.core j :=
  State.core_congr ((State.countSub_only (.refl _ s) (Nat.or_self _)).cores.resolve_left (by decide)) j
@[simp] theorem State.countSub_chan (s : State) {a1 a2 a3 a4} (j : Nat) : (s.countSub a1 a2 a3 a4).chan j = s.chan j :=
  State.chan_congr ((State.countSub_only (.refl _ s) (Nat.or_self _)).chans.resolve_left (by decide)) j
@[simp] theorem State.countSub_plinth (s : State) {a1 a2 a3 a4} (j : Nat) : (s.countSub a1 a2 a3 a4).plinth j = s.plinth j :=
  State.plinth_congr ((State.countSub_only (.refl _ s) (Nat.or_self _)).plinths.resolve_left (by decide)) j
@[simp] theorem State.countSub_fin (s : State) {a1 a2 a3 a4} (j : Nat) : (s.countSub a1 a2 a3 a4).fin j = s.fin j :=
  State.fin_congr ((State.countSub_only (.refl _ s) (Nat.or_self _)).fins.resolve_left (by decide)) j
@[simp] theorem State.countSub_ctx (s : State) {a1 a2 a3 a4} (j : Nat) : (s.countSub a1 a2 a3 a4).ctx j = s.ctx j :=
  State.ctx_congr ((State.countSub_only (.refl _ s) (Nat.or_self _)).doc.ctxs.resolve_left (by decide)) j
@[simp] theorem State.countSub_ring (s : State) {a1 a2 a3 a4} (j : Nat) : (s.countSub a1 a2 a3 a4).ring j = s.ring j :=
  State.ring_congr ((State.countSub_only (.refl _ s) (Nat.or_self _)).hif.rings.resolve_left (by decide)) j
@[simp] theorem State.countSub_page (s : State) {a1 a2 a3 a4} (j : Nat) : (s.countSub a1 a2 a3 a4).page j = s.page j :=
  State.page_congr ((State.countSub_only (.refl _ s) (Nat.or_self _)).cur.pages.resolve_left (by decide)) j
@[simp] theorem State.countSub_kvMap (s : State) {a1 a2 a3 a4} (j : Nat) : (s.countSub a1 a2 a3 a4).kvMap j = s.kvMap j :=
  State.kvMap_congr ((State.countSub_only (.refl _ s) (Nat.or_self _)).cur.maps.resolve_left (by decide)) j
@[simp] theorem State.countSub_port (s : State) {a1 a2 a3 a4} (j : Nat) : (s.countSub a1 a2 a3 a4).port j = s.port j :=
  State.port_congr ((State.countSub_only (.refl _ s) (Nat.or_self _)).fab.ports.resolve_left (by decide)) j
@[simp] theorem State.countSub_window (s : State) {a1 a2 a3 a4} (j : Nat) : (s.countSub a1 a2 a3 a4).window j = s.window j :=
  State.window_congr ((State.countSub_only (.refl _ s) (Nat.or_self _)).fab.windows.resolve_left (by decide)) j
@[simp] theorem State.countSub_tdi (s : State) {a1 a2 a3 a4} (j : Nat) : (s.countSub a1 a2 a3 a4).tdi j = s.tdi j :=
  State.tdi_congr ((State.countSub_only (.refl _ s) (Nat.or_self _)).sec.tdis.resolve_left (by decide)) j
@[simp] theorem State.countSub_source (s : State) {a1 a2 a3 a4} (j : Nat) : (s.countSub a1 a2 a3 a4).source j = s.source j :=
  State.source_congr ((State.countSub_only (.refl _ s) (Nat.or_self _)).ras.sources.resolve_left (by decide)) j
@[simp] theorem State.countSub_mem (s : State) {a1 a2 a3 a4} : (s.countSub a1 a2 a3 a4).mem = s.mem :=
  (State.countSub_only (.refl _ s) (Nat.or_self _)).mem.resolve_left (by decide)
@[simp] theorem State.countSub_out (s : State) {a1 a2 a3 a4} : (s.countSub a1 a2 a3 a4).out = s.out :=
  (State.countSub_only (.refl _ s) (Nat.or_self _)).out.resolve_left (by decide)
@[simp] theorem State.countSub_regs (s : State) {a1 a2 a3 a4} : (s.countSub a1 a2 a3 a4).regs = s.regs :=
  (State.countSub_only (.refl _ s) (Nat.or_self _)).regs.resolve_left (by decide)
@[simp] theorem State.countSub_inForce (s : State) {a1 a2 a3 a4} : (s.countSub a1 a2 a3 a4).inForce = s.inForce :=
  (State.countSub_only (.refl _ s) (Nat.or_self _)).inForce.resolve_left (by decide)
@[simp] theorem State.countSub_hif_inReset (s : State) {a1 a2 a3 a4} : (s.countSub a1 a2 a3 a4).hif.inReset = s.hif.inReset :=
  (State.countSub_only (.refl _ s) (Nat.or_self _)).hif.inReset.resolve_left (by decide)
@[simp] theorem State.countSub_hif_inflight (s : State) {a1 a2 a3 a4} : (s.countSub a1 a2 a3 a4).hif.inflight = s.hif.inflight :=
  (State.countSub_only (.refl _ s) (Nat.or_self _)).hif.inflight.resolve_left (by decide)
@[simp] theorem State.countSub_hif_poll (s : State) {a1 a2 a3 a4} : (s.countSub a1 a2 a3 a4).hif.poll = s.hif.poll :=
  (State.countSub_only (.refl _ s) (Nat.or_self _)).hif.poll.resolve_left (by decide)
@[simp] theorem State.countSub_nextOp (s : State) {a1 a2 a3 a4} : (s.countSub a1 a2 a3 a4).nextOp = s.nextOp :=
  (State.countSub_only (.refl _ s) (Nat.or_self _)).nextOp.resolve_left (by decide)
@[simp] theorem State.countSub_fab_beat (s : State) {a1 a2 a3 a4} : (s.countSub a1 a2 a3 a4).fab.beat = s.fab.beat :=
  (State.countSub_only (.refl _ s) (Nat.or_self _)).fab.beat.resolve_left (by decide)
@[simp] theorem State.countSub_dma (s : State) {a1 a2 a3 a4} : (s.countSub a1 a2 a3 a4).dma = s.dma :=
  OnlyDma.eq (State.countSub_only (.refl _ s) (Nat.or_self _)).dma (by decide)
@[simp] theorem State.countSub_tiers (s : State) {a1 a2 a3 a4} : (s.countSub a1 a2 a3 a4).tiers = s.tiers :=
  OnlyTiers.eq (State.countSub_only (.refl _ s) (Nat.or_self _)).tiers (by decide)
@[simp] theorem State.countSub_hubOps (s : State) {a1 a2 a3 a4} : (s.countSub a1 a2 a3 a4).hubOps = s.hubOps :=
  (State.countSub_only (.refl _ s) (Nat.or_self _)).hubOps.resolve_left (by decide)
@[simp] theorem State.countSub_annex (s : State) {a1 a2 a3 a4} : (s.countSub a1 a2 a3 a4).annex = s.annex :=
  OnlyAnnex.eq (State.countSub_only (.refl _ s) (Nat.or_self _)).annex (by decide)
@[simp] theorem State.countSub_ctl (s : State) {a1 a2 a3 a4} : (s.countSub a1 a2 a3 a4).ctl = s.ctl :=
  OnlyCtl.eq (State.countSub_only (.refl _ s) (Nat.or_self _)).ctl (by decide)
@[simp] theorem State.countSub_sec (s : State) {a1 a2 a3 a4} : (s.countSub a1 a2 a3 a4).sec = s.sec :=
  OnlySec.eq (State.countSub_only (.refl _ s) (Nat.or_self _)).sec (by decide)
@[simp] theorem State.countSub_doc_groups (s : State) {a1 a2 a3 a4} : (s.countSub a1 a2 a3 a4).doc.groups = s.doc.groups :=
  (State.countSub_only (.refl _ s) (Nat.or_self _)).doc.groups.resolve_left (by decide)
@[simp] theorem State.countSub_doc_appends (s : State) {a1 a2 a3 a4} : (s.countSub a1 a2 a3 a4).doc.appends = s.doc.appends :=
  (State.countSub_only (.refl _ s) (Nat.or_self _)).doc.appends.resolve_left (by decide)
@[simp] theorem State.countSub_cur_forks (s : State) {a1 a2 a3 a4} : (s.countSub a1 a2 a3 a4).cur.forks = s.cur.forks :=
  (State.countSub_only (.refl _ s) (Nat.or_self _)).cur.forks.resolve_left (by decide)
@[simp] theorem State.countSub_cur_moves (s : State) {a1 a2 a3 a4} : (s.countSub a1 a2 a3 a4).cur.moves = s.cur.moves :=
  (State.countSub_only (.refl _ s) (Nat.or_self _)).cur.moves.resolve_left (by decide)
@[simp] theorem State.countSub_field (s : State) {a1 a2 a3 a4} (r : Reg) (i : List Nat) (hi lo : Nat) : (s.countSub a1 a2 a3 a4).field r i hi lo = s.field r i hi lo := by
  simp only [State.field, State.written, State.countSub_regs]
@[simp] theorem State.countSub_flag (s : State) {a1 a2 a3 a4} (r : Reg) (i : List Nat) (k : Nat) : (s.countSub a1 a2 a3 a4).flag r i k = s.flag r i k := by
  simp only [State.flag, State.countSub_field]

@[simp] theorem State.count_core (s : State) {a1 a2 a3} (j : Nat) : (s.count a1 a2 a3).core j = s.core j :=
  State.core_congr ((State.count_only (.refl _ s) (Nat.or_self _)).cores.resolve_left (by decide)) j
@[simp] theorem State.count_chan (s : State) {a1 a2 a3} (j : Nat) : (s.count a1 a2 a3).chan j = s.chan j :=
  State.chan_congr ((State.count_only (.refl _ s) (Nat.or_self _)).chans.resolve_left (by decide)) j
@[simp] theorem State.count_plinth (s : State) {a1 a2 a3} (j : Nat) : (s.count a1 a2 a3).plinth j = s.plinth j :=
  State.plinth_congr ((State.count_only (.refl _ s) (Nat.or_self _)).plinths.resolve_left (by decide)) j
@[simp] theorem State.count_fin (s : State) {a1 a2 a3} (j : Nat) : (s.count a1 a2 a3).fin j = s.fin j :=
  State.fin_congr ((State.count_only (.refl _ s) (Nat.or_self _)).fins.resolve_left (by decide)) j
@[simp] theorem State.count_ctx (s : State) {a1 a2 a3} (j : Nat) : (s.count a1 a2 a3).ctx j = s.ctx j :=
  State.ctx_congr ((State.count_only (.refl _ s) (Nat.or_self _)).doc.ctxs.resolve_left (by decide)) j
@[simp] theorem State.count_ring (s : State) {a1 a2 a3} (j : Nat) : (s.count a1 a2 a3).ring j = s.ring j :=
  State.ring_congr ((State.count_only (.refl _ s) (Nat.or_self _)).hif.rings.resolve_left (by decide)) j
@[simp] theorem State.count_page (s : State) {a1 a2 a3} (j : Nat) : (s.count a1 a2 a3).page j = s.page j :=
  State.page_congr ((State.count_only (.refl _ s) (Nat.or_self _)).cur.pages.resolve_left (by decide)) j
@[simp] theorem State.count_kvMap (s : State) {a1 a2 a3} (j : Nat) : (s.count a1 a2 a3).kvMap j = s.kvMap j :=
  State.kvMap_congr ((State.count_only (.refl _ s) (Nat.or_self _)).cur.maps.resolve_left (by decide)) j
@[simp] theorem State.count_port (s : State) {a1 a2 a3} (j : Nat) : (s.count a1 a2 a3).port j = s.port j :=
  State.port_congr ((State.count_only (.refl _ s) (Nat.or_self _)).fab.ports.resolve_left (by decide)) j
@[simp] theorem State.count_window (s : State) {a1 a2 a3} (j : Nat) : (s.count a1 a2 a3).window j = s.window j :=
  State.window_congr ((State.count_only (.refl _ s) (Nat.or_self _)).fab.windows.resolve_left (by decide)) j
@[simp] theorem State.count_tdi (s : State) {a1 a2 a3} (j : Nat) : (s.count a1 a2 a3).tdi j = s.tdi j :=
  State.tdi_congr ((State.count_only (.refl _ s) (Nat.or_self _)).sec.tdis.resolve_left (by decide)) j
@[simp] theorem State.count_source (s : State) {a1 a2 a3} (j : Nat) : (s.count a1 a2 a3).source j = s.source j :=
  State.source_congr ((State.count_only (.refl _ s) (Nat.or_self _)).ras.sources.resolve_left (by decide)) j
@[simp] theorem State.count_mem (s : State) {a1 a2 a3} : (s.count a1 a2 a3).mem = s.mem :=
  (State.count_only (.refl _ s) (Nat.or_self _)).mem.resolve_left (by decide)
@[simp] theorem State.count_out (s : State) {a1 a2 a3} : (s.count a1 a2 a3).out = s.out :=
  (State.count_only (.refl _ s) (Nat.or_self _)).out.resolve_left (by decide)
@[simp] theorem State.count_regs (s : State) {a1 a2 a3} : (s.count a1 a2 a3).regs = s.regs :=
  (State.count_only (.refl _ s) (Nat.or_self _)).regs.resolve_left (by decide)
@[simp] theorem State.count_inForce (s : State) {a1 a2 a3} : (s.count a1 a2 a3).inForce = s.inForce :=
  (State.count_only (.refl _ s) (Nat.or_self _)).inForce.resolve_left (by decide)
@[simp] theorem State.count_hif_inReset (s : State) {a1 a2 a3} : (s.count a1 a2 a3).hif.inReset = s.hif.inReset :=
  (State.count_only (.refl _ s) (Nat.or_self _)).hif.inReset.resolve_left (by decide)
@[simp] theorem State.count_hif_inflight (s : State) {a1 a2 a3} : (s.count a1 a2 a3).hif.inflight = s.hif.inflight :=
  (State.count_only (.refl _ s) (Nat.or_self _)).hif.inflight.resolve_left (by decide)
@[simp] theorem State.count_hif_poll (s : State) {a1 a2 a3} : (s.count a1 a2 a3).hif.poll = s.hif.poll :=
  (State.count_only (.refl _ s) (Nat.or_self _)).hif.poll.resolve_left (by decide)
@[simp] theorem State.count_nextOp (s : State) {a1 a2 a3} : (s.count a1 a2 a3).nextOp = s.nextOp :=
  (State.count_only (.refl _ s) (Nat.or_self _)).nextOp.resolve_left (by decide)
@[simp] theorem State.count_fab_beat (s : State) {a1 a2 a3} : (s.count a1 a2 a3).fab.beat = s.fab.beat :=
  (State.count_only (.refl _ s) (Nat.or_self _)).fab.beat.resolve_left (by decide)
@[simp] theorem State.count_dma (s : State) {a1 a2 a3} : (s.count a1 a2 a3).dma = s.dma :=
  OnlyDma.eq (State.count_only (.refl _ s) (Nat.or_self _)).dma (by decide)
@[simp] theorem State.count_tiers (s : State) {a1 a2 a3} : (s.count a1 a2 a3).tiers = s.tiers :=
  OnlyTiers.eq (State.count_only (.refl _ s) (Nat.or_self _)).tiers (by decide)
@[simp] theorem State.count_hubOps (s : State) {a1 a2 a3} : (s.count a1 a2 a3).hubOps = s.hubOps :=
  (State.count_only (.refl _ s) (Nat.or_self _)).hubOps.resolve_left (by decide)
@[simp] theorem State.count_annex (s : State) {a1 a2 a3} : (s.count a1 a2 a3).annex = s.annex :=
  OnlyAnnex.eq (State.count_only (.refl _ s) (Nat.or_self _)).annex (by decide)
@[simp] theorem State.count_ctl (s : State) {a1 a2 a3} : (s.count a1 a2 a3).ctl = s.ctl :=
  OnlyCtl.eq (State.count_only (.refl _ s) (Nat.or_self _)).ctl (by decide)
@[simp] theorem State.count_sec (s : State) {a1 a2 a3} : (s.count a1 a2 a3).sec = s.sec :=
  OnlySec.eq (State.count_only (.refl _ s) (Nat.or_self _)).sec (by decide)
@[simp] theorem State.count_doc_groups (s : State) {a1 a2 a3} : (s.count a1 a2 a3).doc.groups = s.doc.groups :=
  (State.count_only (.refl _ s) (Nat.or_self _)).doc.groups.resolve_left (by decide)
@[simp] theorem State.count_doc_appends (s : State) {a1 a2 a3} : (s.count a1 a2 a3).doc.appends = s.doc.appends :=
  (State.count_only (.refl _ s) (Nat.or_self _)).doc.appends.resolve_left (by decide)
@[simp] theorem State.count_cur_forks (s : State) {a1 a2 a3} : (s.count a1 a2 a3).cur.forks = s.cur.forks :=
  (State.count_only (.refl _ s) (Nat.or_self _)).cur.forks.resolve_left (by decide)
@[simp] theorem State.count_cur_moves (s : State) {a1 a2 a3} : (s.count a1 a2 a3).cur.moves = s.cur.moves :=
  (State.count_only (.refl _ s) (Nat.or_self _)).cur.moves.resolve_left (by decide)
@[simp] theorem State.count_field (s : State) {a1 a2 a3} (r : Reg) (i : List Nat) (hi lo : Nat) : (s.count a1 a2 a3).field r i hi lo = s.field r i hi lo := by
  simp only [State.field, State.written, State.count_regs]
@[simp] theorem State.count_flag (s : State) {a1 a2 a3} (r : Reg) (i : List Nat) (k : Nat) : (s.count a1 a2 a3).flag r i k = s.flag r i k := by
  simp only [State.flag, State.count_field]

@[simp] theorem State.queueIncident_core (s : State) {a1} (j : Nat) : (s.queueIncident a1).core j = s.core j :=
  State.core_congr ((State.queueIncident_only (.refl _ s) (Nat.or_self _)).cores.resolve_left (by decide)) j
@[simp] theorem State.queueIncident_chan (s : State) {a1} (j : Nat) : (s.queueIncident a1).chan j = s.chan j :=
  State.chan_congr ((State.queueIncident_only (.refl _ s) (Nat.or_self _)).chans.resolve_left (by decide)) j
@[simp] theorem State.queueIncident_plinth (s : State) {a1} (j : Nat) : (s.queueIncident a1).plinth j = s.plinth j :=
  State.plinth_congr ((State.queueIncident_only (.refl _ s) (Nat.or_self _)).plinths.resolve_left (by decide)) j
@[simp] theorem State.queueIncident_fin (s : State) {a1} (j : Nat) : (s.queueIncident a1).fin j = s.fin j :=
  State.fin_congr ((State.queueIncident_only (.refl _ s) (Nat.or_self _)).fins.resolve_left (by decide)) j
@[simp] theorem State.queueIncident_ctx (s : State) {a1} (j : Nat) : (s.queueIncident a1).ctx j = s.ctx j :=
  State.ctx_congr ((State.queueIncident_only (.refl _ s) (Nat.or_self _)).doc.ctxs.resolve_left (by decide)) j
@[simp] theorem State.queueIncident_ring (s : State) {a1} (j : Nat) : (s.queueIncident a1).ring j = s.ring j :=
  State.ring_congr ((State.queueIncident_only (.refl _ s) (Nat.or_self _)).hif.rings.resolve_left (by decide)) j
@[simp] theorem State.queueIncident_page (s : State) {a1} (j : Nat) : (s.queueIncident a1).page j = s.page j :=
  State.page_congr ((State.queueIncident_only (.refl _ s) (Nat.or_self _)).cur.pages.resolve_left (by decide)) j
@[simp] theorem State.queueIncident_kvMap (s : State) {a1} (j : Nat) : (s.queueIncident a1).kvMap j = s.kvMap j :=
  State.kvMap_congr ((State.queueIncident_only (.refl _ s) (Nat.or_self _)).cur.maps.resolve_left (by decide)) j
@[simp] theorem State.queueIncident_port (s : State) {a1} (j : Nat) : (s.queueIncident a1).port j = s.port j :=
  State.port_congr ((State.queueIncident_only (.refl _ s) (Nat.or_self _)).fab.ports.resolve_left (by decide)) j
@[simp] theorem State.queueIncident_window (s : State) {a1} (j : Nat) : (s.queueIncident a1).window j = s.window j :=
  State.window_congr ((State.queueIncident_only (.refl _ s) (Nat.or_self _)).fab.windows.resolve_left (by decide)) j
@[simp] theorem State.queueIncident_tdi (s : State) {a1} (j : Nat) : (s.queueIncident a1).tdi j = s.tdi j :=
  State.tdi_congr ((State.queueIncident_only (.refl _ s) (Nat.or_self _)).sec.tdis.resolve_left (by decide)) j
@[simp] theorem State.queueIncident_source (s : State) {a1} (j : Nat) : (s.queueIncident a1).source j = s.source j :=
  State.source_congr ((State.queueIncident_only (.refl _ s) (Nat.or_self _)).ras.sources.resolve_left (by decide)) j
@[simp] theorem State.queueIncident_mem (s : State) {a1} : (s.queueIncident a1).mem = s.mem :=
  (State.queueIncident_only (.refl _ s) (Nat.or_self _)).mem.resolve_left (by decide)
@[simp] theorem State.queueIncident_out (s : State) {a1} : (s.queueIncident a1).out = s.out :=
  (State.queueIncident_only (.refl _ s) (Nat.or_self _)).out.resolve_left (by decide)
@[simp] theorem State.queueIncident_regs (s : State) {a1} : (s.queueIncident a1).regs = s.regs :=
  (State.queueIncident_only (.refl _ s) (Nat.or_self _)).regs.resolve_left (by decide)
@[simp] theorem State.queueIncident_inForce (s : State) {a1} : (s.queueIncident a1).inForce = s.inForce :=
  (State.queueIncident_only (.refl _ s) (Nat.or_self _)).inForce.resolve_left (by decide)
@[simp] theorem State.queueIncident_hif_inReset (s : State) {a1} : (s.queueIncident a1).hif.inReset = s.hif.inReset :=
  (State.queueIncident_only (.refl _ s) (Nat.or_self _)).hif.inReset.resolve_left (by decide)
@[simp] theorem State.queueIncident_hif_inflight (s : State) {a1} : (s.queueIncident a1).hif.inflight = s.hif.inflight :=
  (State.queueIncident_only (.refl _ s) (Nat.or_self _)).hif.inflight.resolve_left (by decide)
@[simp] theorem State.queueIncident_hif_poll (s : State) {a1} : (s.queueIncident a1).hif.poll = s.hif.poll :=
  (State.queueIncident_only (.refl _ s) (Nat.or_self _)).hif.poll.resolve_left (by decide)
@[simp] theorem State.queueIncident_nextOp (s : State) {a1} : (s.queueIncident a1).nextOp = s.nextOp :=
  (State.queueIncident_only (.refl _ s) (Nat.or_self _)).nextOp.resolve_left (by decide)
@[simp] theorem State.queueIncident_fab_beat (s : State) {a1} : (s.queueIncident a1).fab.beat = s.fab.beat :=
  (State.queueIncident_only (.refl _ s) (Nat.or_self _)).fab.beat.resolve_left (by decide)
@[simp] theorem State.queueIncident_dma (s : State) {a1} : (s.queueIncident a1).dma = s.dma :=
  OnlyDma.eq (State.queueIncident_only (.refl _ s) (Nat.or_self _)).dma (by decide)
@[simp] theorem State.queueIncident_tiers (s : State) {a1} : (s.queueIncident a1).tiers = s.tiers :=
  OnlyTiers.eq (State.queueIncident_only (.refl _ s) (Nat.or_self _)).tiers (by decide)
@[simp] theorem State.queueIncident_hubOps (s : State) {a1} : (s.queueIncident a1).hubOps = s.hubOps :=
  (State.queueIncident_only (.refl _ s) (Nat.or_self _)).hubOps.resolve_left (by decide)
@[simp] theorem State.queueIncident_annex (s : State) {a1} : (s.queueIncident a1).annex = s.annex :=
  OnlyAnnex.eq (State.queueIncident_only (.refl _ s) (Nat.or_self _)).annex (by decide)
@[simp] theorem State.queueIncident_ctl (s : State) {a1} : (s.queueIncident a1).ctl = s.ctl :=
  OnlyCtl.eq (State.queueIncident_only (.refl _ s) (Nat.or_self _)).ctl (by decide)
@[simp] theorem State.queueIncident_sec (s : State) {a1} : (s.queueIncident a1).sec = s.sec :=
  OnlySec.eq (State.queueIncident_only (.refl _ s) (Nat.or_self _)).sec (by decide)
@[simp] theorem State.queueIncident_doc_groups (s : State) {a1} : (s.queueIncident a1).doc.groups = s.doc.groups :=
  (State.queueIncident_only (.refl _ s) (Nat.or_self _)).doc.groups.resolve_left (by decide)
@[simp] theorem State.queueIncident_doc_appends (s : State) {a1} : (s.queueIncident a1).doc.appends = s.doc.appends :=
  (State.queueIncident_only (.refl _ s) (Nat.or_self _)).doc.appends.resolve_left (by decide)
@[simp] theorem State.queueIncident_cur_forks (s : State) {a1} : (s.queueIncident a1).cur.forks = s.cur.forks :=
  (State.queueIncident_only (.refl _ s) (Nat.or_self _)).cur.forks.resolve_left (by decide)
@[simp] theorem State.queueIncident_cur_moves (s : State) {a1} : (s.queueIncident a1).cur.moves = s.cur.moves :=
  (State.queueIncident_only (.refl _ s) (Nat.or_self _)).cur.moves.resolve_left (by decide)
@[simp] theorem State.queueIncident_field (s : State) {a1} (r : Reg) (i : List Nat) (hi lo : Nat) : (s.queueIncident a1).field r i hi lo = s.field r i hi lo := by
  simp only [State.field, State.written, State.queueIncident_regs]
@[simp] theorem State.queueIncident_flag (s : State) {a1} (r : Reg) (i : List Nat) (k : Nat) : (s.queueIncident a1).flag r i k = s.flag r i k := by
  simp only [State.flag, State.queueIncident_field]

@[simp] theorem State.incident_core (s : State) {a1 a2 a3 a4 a5 a6} (j : Nat) : (s.incident a1 a2 a3 a4 a5 a6).core j = s.core j :=
  State.core_congr ((State.incident_only (.refl _ s) (Nat.or_self _)).cores.resolve_left (by decide)) j
@[simp] theorem State.incident_chan (s : State) {a1 a2 a3 a4 a5 a6} (j : Nat) : (s.incident a1 a2 a3 a4 a5 a6).chan j = s.chan j :=
  State.chan_congr ((State.incident_only (.refl _ s) (Nat.or_self _)).chans.resolve_left (by decide)) j
@[simp] theorem State.incident_plinth (s : State) {a1 a2 a3 a4 a5 a6} (j : Nat) : (s.incident a1 a2 a3 a4 a5 a6).plinth j = s.plinth j :=
  State.plinth_congr ((State.incident_only (.refl _ s) (Nat.or_self _)).plinths.resolve_left (by decide)) j
@[simp] theorem State.incident_fin (s : State) {a1 a2 a3 a4 a5 a6} (j : Nat) : (s.incident a1 a2 a3 a4 a5 a6).fin j = s.fin j :=
  State.fin_congr ((State.incident_only (.refl _ s) (Nat.or_self _)).fins.resolve_left (by decide)) j
@[simp] theorem State.incident_ctx (s : State) {a1 a2 a3 a4 a5 a6} (j : Nat) : (s.incident a1 a2 a3 a4 a5 a6).ctx j = s.ctx j :=
  State.ctx_congr ((State.incident_only (.refl _ s) (Nat.or_self _)).doc.ctxs.resolve_left (by decide)) j
@[simp] theorem State.incident_ring (s : State) {a1 a2 a3 a4 a5 a6} (j : Nat) : (s.incident a1 a2 a3 a4 a5 a6).ring j = s.ring j :=
  State.ring_congr ((State.incident_only (.refl _ s) (Nat.or_self _)).hif.rings.resolve_left (by decide)) j
@[simp] theorem State.incident_page (s : State) {a1 a2 a3 a4 a5 a6} (j : Nat) : (s.incident a1 a2 a3 a4 a5 a6).page j = s.page j :=
  State.page_congr ((State.incident_only (.refl _ s) (Nat.or_self _)).cur.pages.resolve_left (by decide)) j
@[simp] theorem State.incident_kvMap (s : State) {a1 a2 a3 a4 a5 a6} (j : Nat) : (s.incident a1 a2 a3 a4 a5 a6).kvMap j = s.kvMap j :=
  State.kvMap_congr ((State.incident_only (.refl _ s) (Nat.or_self _)).cur.maps.resolve_left (by decide)) j
@[simp] theorem State.incident_port (s : State) {a1 a2 a3 a4 a5 a6} (j : Nat) : (s.incident a1 a2 a3 a4 a5 a6).port j = s.port j :=
  State.port_congr ((State.incident_only (.refl _ s) (Nat.or_self _)).fab.ports.resolve_left (by decide)) j
@[simp] theorem State.incident_window (s : State) {a1 a2 a3 a4 a5 a6} (j : Nat) : (s.incident a1 a2 a3 a4 a5 a6).window j = s.window j :=
  State.window_congr ((State.incident_only (.refl _ s) (Nat.or_self _)).fab.windows.resolve_left (by decide)) j
@[simp] theorem State.incident_tdi (s : State) {a1 a2 a3 a4 a5 a6} (j : Nat) : (s.incident a1 a2 a3 a4 a5 a6).tdi j = s.tdi j :=
  State.tdi_congr ((State.incident_only (.refl _ s) (Nat.or_self _)).sec.tdis.resolve_left (by decide)) j
@[simp] theorem State.incident_mem (s : State) {a1 a2 a3 a4 a5 a6} : (s.incident a1 a2 a3 a4 a5 a6).mem = s.mem :=
  (State.incident_only (.refl _ s) (Nat.or_self _)).mem.resolve_left (by decide)
@[simp] theorem State.incident_out (s : State) {a1 a2 a3 a4 a5 a6} : (s.incident a1 a2 a3 a4 a5 a6).out = s.out :=
  (State.incident_only (.refl _ s) (Nat.or_self _)).out.resolve_left (by decide)
@[simp] theorem State.incident_regs (s : State) {a1 a2 a3 a4 a5 a6} : (s.incident a1 a2 a3 a4 a5 a6).regs = s.regs :=
  (State.incident_only (.refl _ s) (Nat.or_self _)).regs.resolve_left (by decide)
@[simp] theorem State.incident_inForce (s : State) {a1 a2 a3 a4 a5 a6} : (s.incident a1 a2 a3 a4 a5 a6).inForce = s.inForce :=
  (State.incident_only (.refl _ s) (Nat.or_self _)).inForce.resolve_left (by decide)
@[simp] theorem State.incident_hif_inReset (s : State) {a1 a2 a3 a4 a5 a6} : (s.incident a1 a2 a3 a4 a5 a6).hif.inReset = s.hif.inReset :=
  (State.incident_only (.refl _ s) (Nat.or_self _)).hif.inReset.resolve_left (by decide)
@[simp] theorem State.incident_hif_inflight (s : State) {a1 a2 a3 a4 a5 a6} : (s.incident a1 a2 a3 a4 a5 a6).hif.inflight = s.hif.inflight :=
  (State.incident_only (.refl _ s) (Nat.or_self _)).hif.inflight.resolve_left (by decide)
@[simp] theorem State.incident_hif_poll (s : State) {a1 a2 a3 a4 a5 a6} : (s.incident a1 a2 a3 a4 a5 a6).hif.poll = s.hif.poll :=
  (State.incident_only (.refl _ s) (Nat.or_self _)).hif.poll.resolve_left (by decide)
@[simp] theorem State.incident_nextOp (s : State) {a1 a2 a3 a4 a5 a6} : (s.incident a1 a2 a3 a4 a5 a6).nextOp = s.nextOp :=
  (State.incident_only (.refl _ s) (Nat.or_self _)).nextOp.resolve_left (by decide)
@[simp] theorem State.incident_fab_beat (s : State) {a1 a2 a3 a4 a5 a6} : (s.incident a1 a2 a3 a4 a5 a6).fab.beat = s.fab.beat :=
  (State.incident_only (.refl _ s) (Nat.or_self _)).fab.beat.resolve_left (by decide)
@[simp] theorem State.incident_dma (s : State) {a1 a2 a3 a4 a5 a6} : (s.incident a1 a2 a3 a4 a5 a6).dma = s.dma :=
  OnlyDma.eq (State.incident_only (.refl _ s) (Nat.or_self _)).dma (by decide)
@[simp] theorem State.incident_tiers (s : State) {a1 a2 a3 a4 a5 a6} : (s.incident a1 a2 a3 a4 a5 a6).tiers = s.tiers :=
  OnlyTiers.eq (State.incident_only (.refl _ s) (Nat.or_self _)).tiers (by decide)
@[simp] theorem State.incident_hubOps (s : State) {a1 a2 a3 a4 a5 a6} : (s.incident a1 a2 a3 a4 a5 a6).hubOps = s.hubOps :=
  (State.incident_only (.refl _ s) (Nat.or_self _)).hubOps.resolve_left (by decide)
@[simp] theorem State.incident_annex (s : State) {a1 a2 a3 a4 a5 a6} : (s.incident a1 a2 a3 a4 a5 a6).annex = s.annex :=
  OnlyAnnex.eq (State.incident_only (.refl _ s) (Nat.or_self _)).annex (by decide)
@[simp] theorem State.incident_ctl (s : State) {a1 a2 a3 a4 a5 a6} : (s.incident a1 a2 a3 a4 a5 a6).ctl = s.ctl :=
  OnlyCtl.eq (State.incident_only (.refl _ s) (Nat.or_self _)).ctl (by decide)
@[simp] theorem State.incident_sec (s : State) {a1 a2 a3 a4 a5 a6} : (s.incident a1 a2 a3 a4 a5 a6).sec = s.sec :=
  OnlySec.eq (State.incident_only (.refl _ s) (Nat.or_self _)).sec (by decide)
@[simp] theorem State.incident_doc_groups (s : State) {a1 a2 a3 a4 a5 a6} : (s.incident a1 a2 a3 a4 a5 a6).doc.groups = s.doc.groups :=
  (State.incident_only (.refl _ s) (Nat.or_self _)).doc.groups.resolve_left (by decide)
@[simp] theorem State.incident_doc_appends (s : State) {a1 a2 a3 a4 a5 a6} : (s.incident a1 a2 a3 a4 a5 a6).doc.appends = s.doc.appends :=
  (State.incident_only (.refl _ s) (Nat.or_self _)).doc.appends.resolve_left (by decide)
@[simp] theorem State.incident_cur_forks (s : State) {a1 a2 a3 a4 a5 a6} : (s.incident a1 a2 a3 a4 a5 a6).cur.forks = s.cur.forks :=
  (State.incident_only (.refl _ s) (Nat.or_self _)).cur.forks.resolve_left (by decide)
@[simp] theorem State.incident_cur_moves (s : State) {a1 a2 a3 a4 a5 a6} : (s.incident a1 a2 a3 a4 a5 a6).cur.moves = s.cur.moves :=
  (State.incident_only (.refl _ s) (Nat.or_self _)).cur.moves.resolve_left (by decide)
@[simp] theorem State.incident_field (s : State) {a1 a2 a3 a4 a5 a6} (r : Reg) (i : List Nat) (hi lo : Nat) : (s.incident a1 a2 a3 a4 a5 a6).field r i hi lo = s.field r i hi lo := by
  simp only [State.field, State.written, State.incident_regs]
@[simp] theorem State.incident_flag (s : State) {a1 a2 a3 a4 a5 a6} (r : Reg) (i : List Nat) (k : Nat) : (s.incident a1 a2 a3 a4 a5 a6).flag r i k = s.flag r i k := by
  simp only [State.flag, State.incident_field]

@[simp] theorem State.hostWrite_core (s : State) {a1 a2 a3} (j : Nat) : (s.hostWrite a1 a2 a3).core j = s.core j :=
  State.core_congr ((State.hostWrite_only (.refl _ s) (Nat.or_self _)).cores.resolve_left (by decide)) j
@[simp] theorem State.hostWrite_chan (s : State) {a1 a2 a3} (j : Nat) : (s.hostWrite a1 a2 a3).chan j = s.chan j :=
  State.chan_congr ((State.hostWrite_only (.refl _ s) (Nat.or_self _)).chans.resolve_left (by decide)) j
@[simp] theorem State.hostWrite_plinth (s : State) {a1 a2 a3} (j : Nat) : (s.hostWrite a1 a2 a3).plinth j = s.plinth j :=
  State.plinth_congr ((State.hostWrite_only (.refl _ s) (Nat.or_self _)).plinths.resolve_left (by decide)) j
@[simp] theorem State.hostWrite_fin (s : State) {a1 a2 a3} (j : Nat) : (s.hostWrite a1 a2 a3).fin j = s.fin j :=
  State.fin_congr ((State.hostWrite_only (.refl _ s) (Nat.or_self _)).fins.resolve_left (by decide)) j
@[simp] theorem State.hostWrite_ctx (s : State) {a1 a2 a3} (j : Nat) : (s.hostWrite a1 a2 a3).ctx j = s.ctx j :=
  State.ctx_congr ((State.hostWrite_only (.refl _ s) (Nat.or_self _)).doc.ctxs.resolve_left (by decide)) j
@[simp] theorem State.hostWrite_ring (s : State) {a1 a2 a3} (j : Nat) : (s.hostWrite a1 a2 a3).ring j = s.ring j :=
  State.ring_congr ((State.hostWrite_only (.refl _ s) (Nat.or_self _)).hif.rings.resolve_left (by decide)) j
@[simp] theorem State.hostWrite_page (s : State) {a1 a2 a3} (j : Nat) : (s.hostWrite a1 a2 a3).page j = s.page j :=
  State.page_congr ((State.hostWrite_only (.refl _ s) (Nat.or_self _)).cur.pages.resolve_left (by decide)) j
@[simp] theorem State.hostWrite_kvMap (s : State) {a1 a2 a3} (j : Nat) : (s.hostWrite a1 a2 a3).kvMap j = s.kvMap j :=
  State.kvMap_congr ((State.hostWrite_only (.refl _ s) (Nat.or_self _)).cur.maps.resolve_left (by decide)) j
@[simp] theorem State.hostWrite_port (s : State) {a1 a2 a3} (j : Nat) : (s.hostWrite a1 a2 a3).port j = s.port j :=
  State.port_congr ((State.hostWrite_only (.refl _ s) (Nat.or_self _)).fab.ports.resolve_left (by decide)) j
@[simp] theorem State.hostWrite_window (s : State) {a1 a2 a3} (j : Nat) : (s.hostWrite a1 a2 a3).window j = s.window j :=
  State.window_congr ((State.hostWrite_only (.refl _ s) (Nat.or_self _)).fab.windows.resolve_left (by decide)) j
@[simp] theorem State.hostWrite_tdi (s : State) {a1 a2 a3} (j : Nat) : (s.hostWrite a1 a2 a3).tdi j = s.tdi j :=
  State.tdi_congr ((State.hostWrite_only (.refl _ s) (Nat.or_self _)).sec.tdis.resolve_left (by decide)) j
@[simp] theorem State.hostWrite_source (s : State) {a1 a2 a3} (j : Nat) : (s.hostWrite a1 a2 a3).source j = s.source j :=
  State.source_congr ((State.hostWrite_only (.refl _ s) (Nat.or_self _)).ras.sources.resolve_left (by decide)) j
@[simp] theorem State.hostWrite_mem (s : State) {a1 a2 a3} : (s.hostWrite a1 a2 a3).mem = s.mem :=
  (State.hostWrite_only (.refl _ s) (Nat.or_self _)).mem.resolve_left (by decide)
@[simp] theorem State.hostWrite_regs (s : State) {a1 a2 a3} : (s.hostWrite a1 a2 a3).regs = s.regs :=
  (State.hostWrite_only (.refl _ s) (Nat.or_self _)).regs.resolve_left (by decide)
@[simp] theorem State.hostWrite_inForce (s : State) {a1 a2 a3} : (s.hostWrite a1 a2 a3).inForce = s.inForce :=
  (State.hostWrite_only (.refl _ s) (Nat.or_self _)).inForce.resolve_left (by decide)
@[simp] theorem State.hostWrite_hif_inReset (s : State) {a1 a2 a3} : (s.hostWrite a1 a2 a3).hif.inReset = s.hif.inReset :=
  (State.hostWrite_only (.refl _ s) (Nat.or_self _)).hif.inReset.resolve_left (by decide)
@[simp] theorem State.hostWrite_hif_inflight (s : State) {a1 a2 a3} : (s.hostWrite a1 a2 a3).hif.inflight = s.hif.inflight :=
  (State.hostWrite_only (.refl _ s) (Nat.or_self _)).hif.inflight.resolve_left (by decide)
@[simp] theorem State.hostWrite_hif_poll (s : State) {a1 a2 a3} : (s.hostWrite a1 a2 a3).hif.poll = s.hif.poll :=
  (State.hostWrite_only (.refl _ s) (Nat.or_self _)).hif.poll.resolve_left (by decide)
@[simp] theorem State.hostWrite_nextOp (s : State) {a1 a2 a3} : (s.hostWrite a1 a2 a3).nextOp = s.nextOp :=
  (State.hostWrite_only (.refl _ s) (Nat.or_self _)).nextOp.resolve_left (by decide)
@[simp] theorem State.hostWrite_fab_beat (s : State) {a1 a2 a3} : (s.hostWrite a1 a2 a3).fab.beat = s.fab.beat :=
  (State.hostWrite_only (.refl _ s) (Nat.or_self _)).fab.beat.resolve_left (by decide)
@[simp] theorem State.hostWrite_dma (s : State) {a1 a2 a3} : (s.hostWrite a1 a2 a3).dma = s.dma :=
  OnlyDma.eq (State.hostWrite_only (.refl _ s) (Nat.or_self _)).dma (by decide)
@[simp] theorem State.hostWrite_tiers (s : State) {a1 a2 a3} : (s.hostWrite a1 a2 a3).tiers = s.tiers :=
  OnlyTiers.eq (State.hostWrite_only (.refl _ s) (Nat.or_self _)).tiers (by decide)
@[simp] theorem State.hostWrite_hubOps (s : State) {a1 a2 a3} : (s.hostWrite a1 a2 a3).hubOps = s.hubOps :=
  (State.hostWrite_only (.refl _ s) (Nat.or_self _)).hubOps.resolve_left (by decide)
@[simp] theorem State.hostWrite_annex (s : State) {a1 a2 a3} : (s.hostWrite a1 a2 a3).annex = s.annex :=
  OnlyAnnex.eq (State.hostWrite_only (.refl _ s) (Nat.or_self _)).annex (by decide)
@[simp] theorem State.hostWrite_ctl (s : State) {a1 a2 a3} : (s.hostWrite a1 a2 a3).ctl = s.ctl :=
  OnlyCtl.eq (State.hostWrite_only (.refl _ s) (Nat.or_self _)).ctl (by decide)
@[simp] theorem State.hostWrite_sec (s : State) {a1 a2 a3} : (s.hostWrite a1 a2 a3).sec = s.sec :=
  OnlySec.eq (State.hostWrite_only (.refl _ s) (Nat.or_self _)).sec (by decide)
@[simp] theorem State.hostWrite_doc_groups (s : State) {a1 a2 a3} : (s.hostWrite a1 a2 a3).doc.groups = s.doc.groups :=
  (State.hostWrite_only (.refl _ s) (Nat.or_self _)).doc.groups.resolve_left (by decide)
@[simp] theorem State.hostWrite_doc_appends (s : State) {a1 a2 a3} : (s.hostWrite a1 a2 a3).doc.appends = s.doc.appends :=
  (State.hostWrite_only (.refl _ s) (Nat.or_self _)).doc.appends.resolve_left (by decide)
@[simp] theorem State.hostWrite_cur_forks (s : State) {a1 a2 a3} : (s.hostWrite a1 a2 a3).cur.forks = s.cur.forks :=
  (State.hostWrite_only (.refl _ s) (Nat.or_self _)).cur.forks.resolve_left (by decide)
@[simp] theorem State.hostWrite_cur_moves (s : State) {a1 a2 a3} : (s.hostWrite a1 a2 a3).cur.moves = s.cur.moves :=
  (State.hostWrite_only (.refl _ s) (Nat.or_self _)).cur.moves.resolve_left (by decide)
@[simp] theorem State.hostWrite_field (s : State) {a1 a2 a3} (r : Reg) (i : List Nat) (hi lo : Nat) : (s.hostWrite a1 a2 a3).field r i hi lo = s.field r i hi lo := by
  simp only [State.field, State.written, State.hostWrite_regs]
@[simp] theorem State.hostWrite_flag (s : State) {a1 a2 a3} (r : Reg) (i : List Nat) (k : Nat) : (s.hostWrite a1 a2 a3).flag r i k = s.flag r i k := by
  simp only [State.flag, State.hostWrite_field]

@[simp] theorem State.hostRead_core (s : State) {a1 a2 a3 a4} (j : Nat) : (s.hostRead a1 a2 a3 a4).core j = s.core j :=
  State.core_congr ((State.hostRead_only (.refl _ s) (Nat.or_self _)).cores.resolve_left (by decide)) j
@[simp] theorem State.hostRead_chan (s : State) {a1 a2 a3 a4} (j : Nat) : (s.hostRead a1 a2 a3 a4).chan j = s.chan j :=
  State.chan_congr ((State.hostRead_only (.refl _ s) (Nat.or_self _)).chans.resolve_left (by decide)) j
@[simp] theorem State.hostRead_plinth (s : State) {a1 a2 a3 a4} (j : Nat) : (s.hostRead a1 a2 a3 a4).plinth j = s.plinth j :=
  State.plinth_congr ((State.hostRead_only (.refl _ s) (Nat.or_self _)).plinths.resolve_left (by decide)) j
@[simp] theorem State.hostRead_fin (s : State) {a1 a2 a3 a4} (j : Nat) : (s.hostRead a1 a2 a3 a4).fin j = s.fin j :=
  State.fin_congr ((State.hostRead_only (.refl _ s) (Nat.or_self _)).fins.resolve_left (by decide)) j
@[simp] theorem State.hostRead_ctx (s : State) {a1 a2 a3 a4} (j : Nat) : (s.hostRead a1 a2 a3 a4).ctx j = s.ctx j :=
  State.ctx_congr ((State.hostRead_only (.refl _ s) (Nat.or_self _)).doc.ctxs.resolve_left (by decide)) j
@[simp] theorem State.hostRead_ring (s : State) {a1 a2 a3 a4} (j : Nat) : (s.hostRead a1 a2 a3 a4).ring j = s.ring j :=
  State.ring_congr ((State.hostRead_only (.refl _ s) (Nat.or_self _)).hif.rings.resolve_left (by decide)) j
@[simp] theorem State.hostRead_page (s : State) {a1 a2 a3 a4} (j : Nat) : (s.hostRead a1 a2 a3 a4).page j = s.page j :=
  State.page_congr ((State.hostRead_only (.refl _ s) (Nat.or_self _)).cur.pages.resolve_left (by decide)) j
@[simp] theorem State.hostRead_kvMap (s : State) {a1 a2 a3 a4} (j : Nat) : (s.hostRead a1 a2 a3 a4).kvMap j = s.kvMap j :=
  State.kvMap_congr ((State.hostRead_only (.refl _ s) (Nat.or_self _)).cur.maps.resolve_left (by decide)) j
@[simp] theorem State.hostRead_port (s : State) {a1 a2 a3 a4} (j : Nat) : (s.hostRead a1 a2 a3 a4).port j = s.port j :=
  State.port_congr ((State.hostRead_only (.refl _ s) (Nat.or_self _)).fab.ports.resolve_left (by decide)) j
@[simp] theorem State.hostRead_window (s : State) {a1 a2 a3 a4} (j : Nat) : (s.hostRead a1 a2 a3 a4).window j = s.window j :=
  State.window_congr ((State.hostRead_only (.refl _ s) (Nat.or_self _)).fab.windows.resolve_left (by decide)) j
@[simp] theorem State.hostRead_tdi (s : State) {a1 a2 a3 a4} (j : Nat) : (s.hostRead a1 a2 a3 a4).tdi j = s.tdi j :=
  State.tdi_congr ((State.hostRead_only (.refl _ s) (Nat.or_self _)).sec.tdis.resolve_left (by decide)) j
@[simp] theorem State.hostRead_source (s : State) {a1 a2 a3 a4} (j : Nat) : (s.hostRead a1 a2 a3 a4).source j = s.source j :=
  State.source_congr ((State.hostRead_only (.refl _ s) (Nat.or_self _)).ras.sources.resolve_left (by decide)) j
@[simp] theorem State.hostRead_mem (s : State) {a1 a2 a3 a4} : (s.hostRead a1 a2 a3 a4).mem = s.mem :=
  (State.hostRead_only (.refl _ s) (Nat.or_self _)).mem.resolve_left (by decide)
@[simp] theorem State.hostRead_regs (s : State) {a1 a2 a3 a4} : (s.hostRead a1 a2 a3 a4).regs = s.regs :=
  (State.hostRead_only (.refl _ s) (Nat.or_self _)).regs.resolve_left (by decide)
@[simp] theorem State.hostRead_inForce (s : State) {a1 a2 a3 a4} : (s.hostRead a1 a2 a3 a4).inForce = s.inForce :=
  (State.hostRead_only (.refl _ s) (Nat.or_self _)).inForce.resolve_left (by decide)
@[simp] theorem State.hostRead_hif_inReset (s : State) {a1 a2 a3 a4} : (s.hostRead a1 a2 a3 a4).hif.inReset = s.hif.inReset :=
  (State.hostRead_only (.refl _ s) (Nat.or_self _)).hif.inReset.resolve_left (by decide)
@[simp] theorem State.hostRead_hif_inflight (s : State) {a1 a2 a3 a4} : (s.hostRead a1 a2 a3 a4).hif.inflight = s.hif.inflight :=
  (State.hostRead_only (.refl _ s) (Nat.or_self _)).hif.inflight.resolve_left (by decide)
@[simp] theorem State.hostRead_hif_poll (s : State) {a1 a2 a3 a4} : (s.hostRead a1 a2 a3 a4).hif.poll = s.hif.poll :=
  (State.hostRead_only (.refl _ s) (Nat.or_self _)).hif.poll.resolve_left (by decide)
@[simp] theorem State.hostRead_nextOp (s : State) {a1 a2 a3 a4} : (s.hostRead a1 a2 a3 a4).nextOp = s.nextOp :=
  (State.hostRead_only (.refl _ s) (Nat.or_self _)).nextOp.resolve_left (by decide)
@[simp] theorem State.hostRead_fab_beat (s : State) {a1 a2 a3 a4} : (s.hostRead a1 a2 a3 a4).fab.beat = s.fab.beat :=
  (State.hostRead_only (.refl _ s) (Nat.or_self _)).fab.beat.resolve_left (by decide)
@[simp] theorem State.hostRead_dma (s : State) {a1 a2 a3 a4} : (s.hostRead a1 a2 a3 a4).dma = s.dma :=
  OnlyDma.eq (State.hostRead_only (.refl _ s) (Nat.or_self _)).dma (by decide)
@[simp] theorem State.hostRead_tiers (s : State) {a1 a2 a3 a4} : (s.hostRead a1 a2 a3 a4).tiers = s.tiers :=
  OnlyTiers.eq (State.hostRead_only (.refl _ s) (Nat.or_self _)).tiers (by decide)
@[simp] theorem State.hostRead_hubOps (s : State) {a1 a2 a3 a4} : (s.hostRead a1 a2 a3 a4).hubOps = s.hubOps :=
  (State.hostRead_only (.refl _ s) (Nat.or_self _)).hubOps.resolve_left (by decide)
@[simp] theorem State.hostRead_annex (s : State) {a1 a2 a3 a4} : (s.hostRead a1 a2 a3 a4).annex = s.annex :=
  OnlyAnnex.eq (State.hostRead_only (.refl _ s) (Nat.or_self _)).annex (by decide)
@[simp] theorem State.hostRead_ctl (s : State) {a1 a2 a3 a4} : (s.hostRead a1 a2 a3 a4).ctl = s.ctl :=
  OnlyCtl.eq (State.hostRead_only (.refl _ s) (Nat.or_self _)).ctl (by decide)
@[simp] theorem State.hostRead_sec (s : State) {a1 a2 a3 a4} : (s.hostRead a1 a2 a3 a4).sec = s.sec :=
  OnlySec.eq (State.hostRead_only (.refl _ s) (Nat.or_self _)).sec (by decide)
@[simp] theorem State.hostRead_doc_groups (s : State) {a1 a2 a3 a4} : (s.hostRead a1 a2 a3 a4).doc.groups = s.doc.groups :=
  (State.hostRead_only (.refl _ s) (Nat.or_self _)).doc.groups.resolve_left (by decide)
@[simp] theorem State.hostRead_doc_appends (s : State) {a1 a2 a3 a4} : (s.hostRead a1 a2 a3 a4).doc.appends = s.doc.appends :=
  (State.hostRead_only (.refl _ s) (Nat.or_self _)).doc.appends.resolve_left (by decide)
@[simp] theorem State.hostRead_cur_forks (s : State) {a1 a2 a3 a4} : (s.hostRead a1 a2 a3 a4).cur.forks = s.cur.forks :=
  (State.hostRead_only (.refl _ s) (Nat.or_self _)).cur.forks.resolve_left (by decide)
@[simp] theorem State.hostRead_cur_moves (s : State) {a1 a2 a3 a4} : (s.hostRead a1 a2 a3 a4).cur.moves = s.cur.moves :=
  (State.hostRead_only (.refl _ s) (Nat.or_self _)).cur.moves.resolve_left (by decide)
@[simp] theorem State.hostRead_field (s : State) {a1 a2 a3 a4} (r : Reg) (i : List Nat) (hi lo : Nat) : (s.hostRead a1 a2 a3 a4).field r i hi lo = s.field r i hi lo := by
  simp only [State.field, State.written, State.hostRead_regs]
@[simp] theorem State.hostRead_flag (s : State) {a1 a2 a3 a4} (r : Reg) (i : List Nat) (k : Nat) : (s.hostRead a1 a2 a3 a4).flag r i k = s.flag r i k := by
  simp only [State.flag, State.hostRead_field]

@[simp] theorem State.msix_core (s : State) {a1 a2} (j : Nat) : (s.msix a1 a2).core j = s.core j :=
  State.core_congr ((State.msix_only (.refl _ s) (Nat.or_self _)).cores.resolve_left (by decide)) j
@[simp] theorem State.msix_chan (s : State) {a1 a2} (j : Nat) : (s.msix a1 a2).chan j = s.chan j :=
  State.chan_congr ((State.msix_only (.refl _ s) (Nat.or_self _)).chans.resolve_left (by decide)) j
@[simp] theorem State.msix_plinth (s : State) {a1 a2} (j : Nat) : (s.msix a1 a2).plinth j = s.plinth j :=
  State.plinth_congr ((State.msix_only (.refl _ s) (Nat.or_self _)).plinths.resolve_left (by decide)) j
@[simp] theorem State.msix_fin (s : State) {a1 a2} (j : Nat) : (s.msix a1 a2).fin j = s.fin j :=
  State.fin_congr ((State.msix_only (.refl _ s) (Nat.or_self _)).fins.resolve_left (by decide)) j
@[simp] theorem State.msix_ctx (s : State) {a1 a2} (j : Nat) : (s.msix a1 a2).ctx j = s.ctx j :=
  State.ctx_congr ((State.msix_only (.refl _ s) (Nat.or_self _)).doc.ctxs.resolve_left (by decide)) j
@[simp] theorem State.msix_ring (s : State) {a1 a2} (j : Nat) : (s.msix a1 a2).ring j = s.ring j :=
  State.ring_congr ((State.msix_only (.refl _ s) (Nat.or_self _)).hif.rings.resolve_left (by decide)) j
@[simp] theorem State.msix_page (s : State) {a1 a2} (j : Nat) : (s.msix a1 a2).page j = s.page j :=
  State.page_congr ((State.msix_only (.refl _ s) (Nat.or_self _)).cur.pages.resolve_left (by decide)) j
@[simp] theorem State.msix_kvMap (s : State) {a1 a2} (j : Nat) : (s.msix a1 a2).kvMap j = s.kvMap j :=
  State.kvMap_congr ((State.msix_only (.refl _ s) (Nat.or_self _)).cur.maps.resolve_left (by decide)) j
@[simp] theorem State.msix_port (s : State) {a1 a2} (j : Nat) : (s.msix a1 a2).port j = s.port j :=
  State.port_congr ((State.msix_only (.refl _ s) (Nat.or_self _)).fab.ports.resolve_left (by decide)) j
@[simp] theorem State.msix_window (s : State) {a1 a2} (j : Nat) : (s.msix a1 a2).window j = s.window j :=
  State.window_congr ((State.msix_only (.refl _ s) (Nat.or_self _)).fab.windows.resolve_left (by decide)) j
@[simp] theorem State.msix_tdi (s : State) {a1 a2} (j : Nat) : (s.msix a1 a2).tdi j = s.tdi j :=
  State.tdi_congr ((State.msix_only (.refl _ s) (Nat.or_self _)).sec.tdis.resolve_left (by decide)) j
@[simp] theorem State.msix_source (s : State) {a1 a2} (j : Nat) : (s.msix a1 a2).source j = s.source j :=
  State.source_congr ((State.msix_only (.refl _ s) (Nat.or_self _)).ras.sources.resolve_left (by decide)) j
@[simp] theorem State.msix_mem (s : State) {a1 a2} : (s.msix a1 a2).mem = s.mem :=
  (State.msix_only (.refl _ s) (Nat.or_self _)).mem.resolve_left (by decide)
@[simp] theorem State.msix_regs (s : State) {a1 a2} : (s.msix a1 a2).regs = s.regs :=
  (State.msix_only (.refl _ s) (Nat.or_self _)).regs.resolve_left (by decide)
@[simp] theorem State.msix_inForce (s : State) {a1 a2} : (s.msix a1 a2).inForce = s.inForce :=
  (State.msix_only (.refl _ s) (Nat.or_self _)).inForce.resolve_left (by decide)
@[simp] theorem State.msix_hif_inReset (s : State) {a1 a2} : (s.msix a1 a2).hif.inReset = s.hif.inReset :=
  (State.msix_only (.refl _ s) (Nat.or_self _)).hif.inReset.resolve_left (by decide)
@[simp] theorem State.msix_hif_inflight (s : State) {a1 a2} : (s.msix a1 a2).hif.inflight = s.hif.inflight :=
  (State.msix_only (.refl _ s) (Nat.or_self _)).hif.inflight.resolve_left (by decide)
@[simp] theorem State.msix_hif_poll (s : State) {a1 a2} : (s.msix a1 a2).hif.poll = s.hif.poll :=
  (State.msix_only (.refl _ s) (Nat.or_self _)).hif.poll.resolve_left (by decide)
@[simp] theorem State.msix_nextOp (s : State) {a1 a2} : (s.msix a1 a2).nextOp = s.nextOp :=
  (State.msix_only (.refl _ s) (Nat.or_self _)).nextOp.resolve_left (by decide)
@[simp] theorem State.msix_fab_beat (s : State) {a1 a2} : (s.msix a1 a2).fab.beat = s.fab.beat :=
  (State.msix_only (.refl _ s) (Nat.or_self _)).fab.beat.resolve_left (by decide)
@[simp] theorem State.msix_dma (s : State) {a1 a2} : (s.msix a1 a2).dma = s.dma :=
  OnlyDma.eq (State.msix_only (.refl _ s) (Nat.or_self _)).dma (by decide)
@[simp] theorem State.msix_tiers (s : State) {a1 a2} : (s.msix a1 a2).tiers = s.tiers :=
  OnlyTiers.eq (State.msix_only (.refl _ s) (Nat.or_self _)).tiers (by decide)
@[simp] theorem State.msix_hubOps (s : State) {a1 a2} : (s.msix a1 a2).hubOps = s.hubOps :=
  (State.msix_only (.refl _ s) (Nat.or_self _)).hubOps.resolve_left (by decide)
@[simp] theorem State.msix_annex (s : State) {a1 a2} : (s.msix a1 a2).annex = s.annex :=
  OnlyAnnex.eq (State.msix_only (.refl _ s) (Nat.or_self _)).annex (by decide)
@[simp] theorem State.msix_ctl (s : State) {a1 a2} : (s.msix a1 a2).ctl = s.ctl :=
  OnlyCtl.eq (State.msix_only (.refl _ s) (Nat.or_self _)).ctl (by decide)
@[simp] theorem State.msix_sec (s : State) {a1 a2} : (s.msix a1 a2).sec = s.sec :=
  OnlySec.eq (State.msix_only (.refl _ s) (Nat.or_self _)).sec (by decide)
@[simp] theorem State.msix_doc_groups (s : State) {a1 a2} : (s.msix a1 a2).doc.groups = s.doc.groups :=
  (State.msix_only (.refl _ s) (Nat.or_self _)).doc.groups.resolve_left (by decide)
@[simp] theorem State.msix_doc_appends (s : State) {a1 a2} : (s.msix a1 a2).doc.appends = s.doc.appends :=
  (State.msix_only (.refl _ s) (Nat.or_self _)).doc.appends.resolve_left (by decide)
@[simp] theorem State.msix_cur_forks (s : State) {a1 a2} : (s.msix a1 a2).cur.forks = s.cur.forks :=
  (State.msix_only (.refl _ s) (Nat.or_self _)).cur.forks.resolve_left (by decide)
@[simp] theorem State.msix_cur_moves (s : State) {a1 a2} : (s.msix a1 a2).cur.moves = s.cur.moves :=
  (State.msix_only (.refl _ s) (Nat.or_self _)).cur.moves.resolve_left (by decide)
@[simp] theorem State.msix_field (s : State) {a1 a2} (r : Reg) (i : List Nat) (hi lo : Nat) : (s.msix a1 a2).field r i hi lo = s.field r i hi lo := by
  simp only [State.field, State.written, State.msix_regs]
@[simp] theorem State.msix_flag (s : State) {a1 a2} (r : Reg) (i : List Nat) (k : Nat) : (s.msix a1 a2).flag r i k = s.flag r i k := by
  simp only [State.flag, State.msix_field]

@[simp] theorem State.ringInterrupt_core (s : State) {a1} (j : Nat) : (s.ringInterrupt a1).core j = s.core j :=
  State.core_congr ((State.ringInterrupt_only (.refl _ s) (Nat.or_self _)).cores.resolve_left (by decide)) j
@[simp] theorem State.ringInterrupt_chan (s : State) {a1} (j : Nat) : (s.ringInterrupt a1).chan j = s.chan j :=
  State.chan_congr ((State.ringInterrupt_only (.refl _ s) (Nat.or_self _)).chans.resolve_left (by decide)) j
@[simp] theorem State.ringInterrupt_plinth (s : State) {a1} (j : Nat) : (s.ringInterrupt a1).plinth j = s.plinth j :=
  State.plinth_congr ((State.ringInterrupt_only (.refl _ s) (Nat.or_self _)).plinths.resolve_left (by decide)) j
@[simp] theorem State.ringInterrupt_fin (s : State) {a1} (j : Nat) : (s.ringInterrupt a1).fin j = s.fin j :=
  State.fin_congr ((State.ringInterrupt_only (.refl _ s) (Nat.or_self _)).fins.resolve_left (by decide)) j
@[simp] theorem State.ringInterrupt_ctx (s : State) {a1} (j : Nat) : (s.ringInterrupt a1).ctx j = s.ctx j :=
  State.ctx_congr ((State.ringInterrupt_only (.refl _ s) (Nat.or_self _)).doc.ctxs.resolve_left (by decide)) j
@[simp] theorem State.ringInterrupt_page (s : State) {a1} (j : Nat) : (s.ringInterrupt a1).page j = s.page j :=
  State.page_congr ((State.ringInterrupt_only (.refl _ s) (Nat.or_self _)).cur.pages.resolve_left (by decide)) j
@[simp] theorem State.ringInterrupt_kvMap (s : State) {a1} (j : Nat) : (s.ringInterrupt a1).kvMap j = s.kvMap j :=
  State.kvMap_congr ((State.ringInterrupt_only (.refl _ s) (Nat.or_self _)).cur.maps.resolve_left (by decide)) j
@[simp] theorem State.ringInterrupt_port (s : State) {a1} (j : Nat) : (s.ringInterrupt a1).port j = s.port j :=
  State.port_congr ((State.ringInterrupt_only (.refl _ s) (Nat.or_self _)).fab.ports.resolve_left (by decide)) j
@[simp] theorem State.ringInterrupt_window (s : State) {a1} (j : Nat) : (s.ringInterrupt a1).window j = s.window j :=
  State.window_congr ((State.ringInterrupt_only (.refl _ s) (Nat.or_self _)).fab.windows.resolve_left (by decide)) j
@[simp] theorem State.ringInterrupt_tdi (s : State) {a1} (j : Nat) : (s.ringInterrupt a1).tdi j = s.tdi j :=
  State.tdi_congr ((State.ringInterrupt_only (.refl _ s) (Nat.or_self _)).sec.tdis.resolve_left (by decide)) j
@[simp] theorem State.ringInterrupt_source (s : State) {a1} (j : Nat) : (s.ringInterrupt a1).source j = s.source j :=
  State.source_congr ((State.ringInterrupt_only (.refl _ s) (Nat.or_self _)).ras.sources.resolve_left (by decide)) j
@[simp] theorem State.ringInterrupt_mem (s : State) {a1} : (s.ringInterrupt a1).mem = s.mem :=
  (State.ringInterrupt_only (.refl _ s) (Nat.or_self _)).mem.resolve_left (by decide)
@[simp] theorem State.ringInterrupt_out (s : State) {a1} : (s.ringInterrupt a1).out = s.out :=
  (State.ringInterrupt_only (.refl _ s) (Nat.or_self _)).out.resolve_left (by decide)
@[simp] theorem State.ringInterrupt_regs (s : State) {a1} : (s.ringInterrupt a1).regs = s.regs :=
  (State.ringInterrupt_only (.refl _ s) (Nat.or_self _)).regs.resolve_left (by decide)
@[simp] theorem State.ringInterrupt_inForce (s : State) {a1} : (s.ringInterrupt a1).inForce = s.inForce :=
  (State.ringInterrupt_only (.refl _ s) (Nat.or_self _)).inForce.resolve_left (by decide)
@[simp] theorem State.ringInterrupt_hif_inReset (s : State) {a1} : (s.ringInterrupt a1).hif.inReset = s.hif.inReset :=
  (State.ringInterrupt_only (.refl _ s) (Nat.or_self _)).hif.inReset.resolve_left (by decide)
@[simp] theorem State.ringInterrupt_hif_inflight (s : State) {a1} : (s.ringInterrupt a1).hif.inflight = s.hif.inflight :=
  (State.ringInterrupt_only (.refl _ s) (Nat.or_self _)).hif.inflight.resolve_left (by decide)
@[simp] theorem State.ringInterrupt_hif_poll (s : State) {a1} : (s.ringInterrupt a1).hif.poll = s.hif.poll :=
  (State.ringInterrupt_only (.refl _ s) (Nat.or_self _)).hif.poll.resolve_left (by decide)
@[simp] theorem State.ringInterrupt_nextOp (s : State) {a1} : (s.ringInterrupt a1).nextOp = s.nextOp :=
  (State.ringInterrupt_only (.refl _ s) (Nat.or_self _)).nextOp.resolve_left (by decide)
@[simp] theorem State.ringInterrupt_fab_beat (s : State) {a1} : (s.ringInterrupt a1).fab.beat = s.fab.beat :=
  (State.ringInterrupt_only (.refl _ s) (Nat.or_self _)).fab.beat.resolve_left (by decide)
@[simp] theorem State.ringInterrupt_dma (s : State) {a1} : (s.ringInterrupt a1).dma = s.dma :=
  OnlyDma.eq (State.ringInterrupt_only (.refl _ s) (Nat.or_self _)).dma (by decide)
@[simp] theorem State.ringInterrupt_tiers (s : State) {a1} : (s.ringInterrupt a1).tiers = s.tiers :=
  OnlyTiers.eq (State.ringInterrupt_only (.refl _ s) (Nat.or_self _)).tiers (by decide)
@[simp] theorem State.ringInterrupt_hubOps (s : State) {a1} : (s.ringInterrupt a1).hubOps = s.hubOps :=
  (State.ringInterrupt_only (.refl _ s) (Nat.or_self _)).hubOps.resolve_left (by decide)
@[simp] theorem State.ringInterrupt_annex (s : State) {a1} : (s.ringInterrupt a1).annex = s.annex :=
  OnlyAnnex.eq (State.ringInterrupt_only (.refl _ s) (Nat.or_self _)).annex (by decide)
@[simp] theorem State.ringInterrupt_ctl (s : State) {a1} : (s.ringInterrupt a1).ctl = s.ctl :=
  OnlyCtl.eq (State.ringInterrupt_only (.refl _ s) (Nat.or_self _)).ctl (by decide)
@[simp] theorem State.ringInterrupt_sec (s : State) {a1} : (s.ringInterrupt a1).sec = s.sec :=
  OnlySec.eq (State.ringInterrupt_only (.refl _ s) (Nat.or_self _)).sec (by decide)
@[simp] theorem State.ringInterrupt_doc_groups (s : State) {a1} : (s.ringInterrupt a1).doc.groups = s.doc.groups :=
  (State.ringInterrupt_only (.refl _ s) (Nat.or_self _)).doc.groups.resolve_left (by decide)
@[simp] theorem State.ringInterrupt_doc_appends (s : State) {a1} : (s.ringInterrupt a1).doc.appends = s.doc.appends :=
  (State.ringInterrupt_only (.refl _ s) (Nat.or_self _)).doc.appends.resolve_left (by decide)
@[simp] theorem State.ringInterrupt_cur_forks (s : State) {a1} : (s.ringInterrupt a1).cur.forks = s.cur.forks :=
  (State.ringInterrupt_only (.refl _ s) (Nat.or_self _)).cur.forks.resolve_left (by decide)
@[simp] theorem State.ringInterrupt_cur_moves (s : State) {a1} : (s.ringInterrupt a1).cur.moves = s.cur.moves :=
  (State.ringInterrupt_only (.refl _ s) (Nat.or_self _)).cur.moves.resolve_left (by decide)
@[simp] theorem State.ringInterrupt_field (s : State) {a1} (r : Reg) (i : List Nat) (hi lo : Nat) : (s.ringInterrupt a1).field r i hi lo = s.field r i hi lo := by
  simp only [State.field, State.written, State.ringInterrupt_regs]
@[simp] theorem State.ringInterrupt_flag (s : State) {a1} (r : Reg) (i : List Nat) (k : Nat) : (s.ringInterrupt a1).flag r i k = s.flag r i k := by
  simp only [State.flag, State.ringInterrupt_field]

@[simp] theorem State.ringRecord_core (s : State) {a1 a2 a3 a4 a5 a6 a7 a8} (j : Nat) : (s.ringRecord a1 a2 a3 a4 a5 a6 a7 a8).core j = s.core j :=
  State.core_congr ((State.ringRecord_only (.refl _ s) (Nat.or_self _)).cores.resolve_left (by decide)) j
@[simp] theorem State.ringRecord_chan (s : State) {a1 a2 a3 a4 a5 a6 a7 a8} (j : Nat) : (s.ringRecord a1 a2 a3 a4 a5 a6 a7 a8).chan j = s.chan j :=
  State.chan_congr ((State.ringRecord_only (.refl _ s) (Nat.or_self _)).chans.resolve_left (by decide)) j
@[simp] theorem State.ringRecord_plinth (s : State) {a1 a2 a3 a4 a5 a6 a7 a8} (j : Nat) : (s.ringRecord a1 a2 a3 a4 a5 a6 a7 a8).plinth j = s.plinth j :=
  State.plinth_congr ((State.ringRecord_only (.refl _ s) (Nat.or_self _)).plinths.resolve_left (by decide)) j
@[simp] theorem State.ringRecord_fin (s : State) {a1 a2 a3 a4 a5 a6 a7 a8} (j : Nat) : (s.ringRecord a1 a2 a3 a4 a5 a6 a7 a8).fin j = s.fin j :=
  State.fin_congr ((State.ringRecord_only (.refl _ s) (Nat.or_self _)).fins.resolve_left (by decide)) j
@[simp] theorem State.ringRecord_ctx (s : State) {a1 a2 a3 a4 a5 a6 a7 a8} (j : Nat) : (s.ringRecord a1 a2 a3 a4 a5 a6 a7 a8).ctx j = s.ctx j :=
  State.ctx_congr ((State.ringRecord_only (.refl _ s) (Nat.or_self _)).doc.ctxs.resolve_left (by decide)) j
@[simp] theorem State.ringRecord_page (s : State) {a1 a2 a3 a4 a5 a6 a7 a8} (j : Nat) : (s.ringRecord a1 a2 a3 a4 a5 a6 a7 a8).page j = s.page j :=
  State.page_congr ((State.ringRecord_only (.refl _ s) (Nat.or_self _)).cur.pages.resolve_left (by decide)) j
@[simp] theorem State.ringRecord_kvMap (s : State) {a1 a2 a3 a4 a5 a6 a7 a8} (j : Nat) : (s.ringRecord a1 a2 a3 a4 a5 a6 a7 a8).kvMap j = s.kvMap j :=
  State.kvMap_congr ((State.ringRecord_only (.refl _ s) (Nat.or_self _)).cur.maps.resolve_left (by decide)) j
@[simp] theorem State.ringRecord_port (s : State) {a1 a2 a3 a4 a5 a6 a7 a8} (j : Nat) : (s.ringRecord a1 a2 a3 a4 a5 a6 a7 a8).port j = s.port j :=
  State.port_congr ((State.ringRecord_only (.refl _ s) (Nat.or_self _)).fab.ports.resolve_left (by decide)) j
@[simp] theorem State.ringRecord_window (s : State) {a1 a2 a3 a4 a5 a6 a7 a8} (j : Nat) : (s.ringRecord a1 a2 a3 a4 a5 a6 a7 a8).window j = s.window j :=
  State.window_congr ((State.ringRecord_only (.refl _ s) (Nat.or_self _)).fab.windows.resolve_left (by decide)) j
@[simp] theorem State.ringRecord_tdi (s : State) {a1 a2 a3 a4 a5 a6 a7 a8} (j : Nat) : (s.ringRecord a1 a2 a3 a4 a5 a6 a7 a8).tdi j = s.tdi j :=
  State.tdi_congr ((State.ringRecord_only (.refl _ s) (Nat.or_self _)).sec.tdis.resolve_left (by decide)) j
@[simp] theorem State.ringRecord_source (s : State) {a1 a2 a3 a4 a5 a6 a7 a8} (j : Nat) : (s.ringRecord a1 a2 a3 a4 a5 a6 a7 a8).source j = s.source j :=
  State.source_congr ((State.ringRecord_only (.refl _ s) (Nat.or_self _)).ras.sources.resolve_left (by decide)) j
@[simp] theorem State.ringRecord_mem (s : State) {a1 a2 a3 a4 a5 a6 a7 a8} : (s.ringRecord a1 a2 a3 a4 a5 a6 a7 a8).mem = s.mem :=
  (State.ringRecord_only (.refl _ s) (Nat.or_self _)).mem.resolve_left (by decide)
@[simp] theorem State.ringRecord_regs (s : State) {a1 a2 a3 a4 a5 a6 a7 a8} : (s.ringRecord a1 a2 a3 a4 a5 a6 a7 a8).regs = s.regs :=
  (State.ringRecord_only (.refl _ s) (Nat.or_self _)).regs.resolve_left (by decide)
@[simp] theorem State.ringRecord_inForce (s : State) {a1 a2 a3 a4 a5 a6 a7 a8} : (s.ringRecord a1 a2 a3 a4 a5 a6 a7 a8).inForce = s.inForce :=
  (State.ringRecord_only (.refl _ s) (Nat.or_self _)).inForce.resolve_left (by decide)
@[simp] theorem State.ringRecord_hif_inReset (s : State) {a1 a2 a3 a4 a5 a6 a7 a8} : (s.ringRecord a1 a2 a3 a4 a5 a6 a7 a8).hif.inReset = s.hif.inReset :=
  (State.ringRecord_only (.refl _ s) (Nat.or_self _)).hif.inReset.resolve_left (by decide)
@[simp] theorem State.ringRecord_hif_inflight (s : State) {a1 a2 a3 a4 a5 a6 a7 a8} : (s.ringRecord a1 a2 a3 a4 a5 a6 a7 a8).hif.inflight = s.hif.inflight :=
  (State.ringRecord_only (.refl _ s) (Nat.or_self _)).hif.inflight.resolve_left (by decide)
@[simp] theorem State.ringRecord_hif_poll (s : State) {a1 a2 a3 a4 a5 a6 a7 a8} : (s.ringRecord a1 a2 a3 a4 a5 a6 a7 a8).hif.poll = s.hif.poll :=
  (State.ringRecord_only (.refl _ s) (Nat.or_self _)).hif.poll.resolve_left (by decide)
@[simp] theorem State.ringRecord_nextOp (s : State) {a1 a2 a3 a4 a5 a6 a7 a8} : (s.ringRecord a1 a2 a3 a4 a5 a6 a7 a8).nextOp = s.nextOp :=
  (State.ringRecord_only (.refl _ s) (Nat.or_self _)).nextOp.resolve_left (by decide)
@[simp] theorem State.ringRecord_fab_beat (s : State) {a1 a2 a3 a4 a5 a6 a7 a8} : (s.ringRecord a1 a2 a3 a4 a5 a6 a7 a8).fab.beat = s.fab.beat :=
  (State.ringRecord_only (.refl _ s) (Nat.or_self _)).fab.beat.resolve_left (by decide)
@[simp] theorem State.ringRecord_dma (s : State) {a1 a2 a3 a4 a5 a6 a7 a8} : (s.ringRecord a1 a2 a3 a4 a5 a6 a7 a8).dma = s.dma :=
  OnlyDma.eq (State.ringRecord_only (.refl _ s) (Nat.or_self _)).dma (by decide)
@[simp] theorem State.ringRecord_tiers (s : State) {a1 a2 a3 a4 a5 a6 a7 a8} : (s.ringRecord a1 a2 a3 a4 a5 a6 a7 a8).tiers = s.tiers :=
  OnlyTiers.eq (State.ringRecord_only (.refl _ s) (Nat.or_self _)).tiers (by decide)
@[simp] theorem State.ringRecord_hubOps (s : State) {a1 a2 a3 a4 a5 a6 a7 a8} : (s.ringRecord a1 a2 a3 a4 a5 a6 a7 a8).hubOps = s.hubOps :=
  (State.ringRecord_only (.refl _ s) (Nat.or_self _)).hubOps.resolve_left (by decide)
@[simp] theorem State.ringRecord_annex (s : State) {a1 a2 a3 a4 a5 a6 a7 a8} : (s.ringRecord a1 a2 a3 a4 a5 a6 a7 a8).annex = s.annex :=
  OnlyAnnex.eq (State.ringRecord_only (.refl _ s) (Nat.or_self _)).annex (by decide)
@[simp] theorem State.ringRecord_ctl (s : State) {a1 a2 a3 a4 a5 a6 a7 a8} : (s.ringRecord a1 a2 a3 a4 a5 a6 a7 a8).ctl = s.ctl :=
  OnlyCtl.eq (State.ringRecord_only (.refl _ s) (Nat.or_self _)).ctl (by decide)
@[simp] theorem State.ringRecord_sec (s : State) {a1 a2 a3 a4 a5 a6 a7 a8} : (s.ringRecord a1 a2 a3 a4 a5 a6 a7 a8).sec = s.sec :=
  OnlySec.eq (State.ringRecord_only (.refl _ s) (Nat.or_self _)).sec (by decide)
@[simp] theorem State.ringRecord_doc_groups (s : State) {a1 a2 a3 a4 a5 a6 a7 a8} : (s.ringRecord a1 a2 a3 a4 a5 a6 a7 a8).doc.groups = s.doc.groups :=
  (State.ringRecord_only (.refl _ s) (Nat.or_self _)).doc.groups.resolve_left (by decide)
@[simp] theorem State.ringRecord_doc_appends (s : State) {a1 a2 a3 a4 a5 a6 a7 a8} : (s.ringRecord a1 a2 a3 a4 a5 a6 a7 a8).doc.appends = s.doc.appends :=
  (State.ringRecord_only (.refl _ s) (Nat.or_self _)).doc.appends.resolve_left (by decide)
@[simp] theorem State.ringRecord_cur_forks (s : State) {a1 a2 a3 a4 a5 a6 a7 a8} : (s.ringRecord a1 a2 a3 a4 a5 a6 a7 a8).cur.forks = s.cur.forks :=
  (State.ringRecord_only (.refl _ s) (Nat.or_self _)).cur.forks.resolve_left (by decide)
@[simp] theorem State.ringRecord_cur_moves (s : State) {a1 a2 a3 a4 a5 a6 a7 a8} : (s.ringRecord a1 a2 a3 a4 a5 a6 a7 a8).cur.moves = s.cur.moves :=
  (State.ringRecord_only (.refl _ s) (Nat.or_self _)).cur.moves.resolve_left (by decide)
@[simp] theorem State.ringRecord_field (s : State) {a1 a2 a3 a4 a5 a6 a7 a8} (r : Reg) (i : List Nat) (hi lo : Nat) : (s.ringRecord a1 a2 a3 a4 a5 a6 a7 a8).field r i hi lo = s.field r i hi lo := by
  simp only [State.field, State.written, State.ringRecord_regs]
@[simp] theorem State.ringRecord_flag (s : State) {a1 a2 a3 a4 a5 a6 a7 a8} (r : Reg) (i : List Nat) (k : Nat) : (s.ringRecord a1 a2 a3 a4 a5 a6 a7 a8).flag r i k = s.flag r i k := by
  simp only [State.flag, State.ringRecord_field]

@[simp] theorem State.recordOp_core (s : State) {a1 a2 a3 a4} (j : Nat) : (s.recordOp a1 a2 a3 a4).core j = s.core j :=
  State.core_congr ((State.recordOp_only (.refl _ s) (Nat.or_self _)).cores.resolve_left (by decide)) j
@[simp] theorem State.recordOp_chan (s : State) {a1 a2 a3 a4} (j : Nat) : (s.recordOp a1 a2 a3 a4).chan j = s.chan j :=
  State.chan_congr ((State.recordOp_only (.refl _ s) (Nat.or_self _)).chans.resolve_left (by decide)) j
@[simp] theorem State.recordOp_plinth (s : State) {a1 a2 a3 a4} (j : Nat) : (s.recordOp a1 a2 a3 a4).plinth j = s.plinth j :=
  State.plinth_congr ((State.recordOp_only (.refl _ s) (Nat.or_self _)).plinths.resolve_left (by decide)) j
@[simp] theorem State.recordOp_fin (s : State) {a1 a2 a3 a4} (j : Nat) : (s.recordOp a1 a2 a3 a4).fin j = s.fin j :=
  State.fin_congr ((State.recordOp_only (.refl _ s) (Nat.or_self _)).fins.resolve_left (by decide)) j
@[simp] theorem State.recordOp_ctx (s : State) {a1 a2 a3 a4} (j : Nat) : (s.recordOp a1 a2 a3 a4).ctx j = s.ctx j :=
  State.ctx_congr ((State.recordOp_only (.refl _ s) (Nat.or_self _)).doc.ctxs.resolve_left (by decide)) j
@[simp] theorem State.recordOp_page (s : State) {a1 a2 a3 a4} (j : Nat) : (s.recordOp a1 a2 a3 a4).page j = s.page j :=
  State.page_congr ((State.recordOp_only (.refl _ s) (Nat.or_self _)).cur.pages.resolve_left (by decide)) j
@[simp] theorem State.recordOp_kvMap (s : State) {a1 a2 a3 a4} (j : Nat) : (s.recordOp a1 a2 a3 a4).kvMap j = s.kvMap j :=
  State.kvMap_congr ((State.recordOp_only (.refl _ s) (Nat.or_self _)).cur.maps.resolve_left (by decide)) j
@[simp] theorem State.recordOp_port (s : State) {a1 a2 a3 a4} (j : Nat) : (s.recordOp a1 a2 a3 a4).port j = s.port j :=
  State.port_congr ((State.recordOp_only (.refl _ s) (Nat.or_self _)).fab.ports.resolve_left (by decide)) j
@[simp] theorem State.recordOp_window (s : State) {a1 a2 a3 a4} (j : Nat) : (s.recordOp a1 a2 a3 a4).window j = s.window j :=
  State.window_congr ((State.recordOp_only (.refl _ s) (Nat.or_self _)).fab.windows.resolve_left (by decide)) j
@[simp] theorem State.recordOp_tdi (s : State) {a1 a2 a3 a4} (j : Nat) : (s.recordOp a1 a2 a3 a4).tdi j = s.tdi j :=
  State.tdi_congr ((State.recordOp_only (.refl _ s) (Nat.or_self _)).sec.tdis.resolve_left (by decide)) j
@[simp] theorem State.recordOp_source (s : State) {a1 a2 a3 a4} (j : Nat) : (s.recordOp a1 a2 a3 a4).source j = s.source j :=
  State.source_congr ((State.recordOp_only (.refl _ s) (Nat.or_self _)).ras.sources.resolve_left (by decide)) j
@[simp] theorem State.recordOp_mem (s : State) {a1 a2 a3 a4} : (s.recordOp a1 a2 a3 a4).mem = s.mem :=
  (State.recordOp_only (.refl _ s) (Nat.or_self _)).mem.resolve_left (by decide)
@[simp] theorem State.recordOp_regs (s : State) {a1 a2 a3 a4} : (s.recordOp a1 a2 a3 a4).regs = s.regs :=
  (State.recordOp_only (.refl _ s) (Nat.or_self _)).regs.resolve_left (by decide)
@[simp] theorem State.recordOp_inForce (s : State) {a1 a2 a3 a4} : (s.recordOp a1 a2 a3 a4).inForce = s.inForce :=
  (State.recordOp_only (.refl _ s) (Nat.or_self _)).inForce.resolve_left (by decide)
@[simp] theorem State.recordOp_hif_inReset (s : State) {a1 a2 a3 a4} : (s.recordOp a1 a2 a3 a4).hif.inReset = s.hif.inReset :=
  (State.recordOp_only (.refl _ s) (Nat.or_self _)).hif.inReset.resolve_left (by decide)
@[simp] theorem State.recordOp_hif_poll (s : State) {a1 a2 a3 a4} : (s.recordOp a1 a2 a3 a4).hif.poll = s.hif.poll :=
  (State.recordOp_only (.refl _ s) (Nat.or_self _)).hif.poll.resolve_left (by decide)
@[simp] theorem State.recordOp_nextOp (s : State) {a1 a2 a3 a4} : (s.recordOp a1 a2 a3 a4).nextOp = s.nextOp :=
  (State.recordOp_only (.refl _ s) (Nat.or_self _)).nextOp.resolve_left (by decide)
@[simp] theorem State.recordOp_fab_beat (s : State) {a1 a2 a3 a4} : (s.recordOp a1 a2 a3 a4).fab.beat = s.fab.beat :=
  (State.recordOp_only (.refl _ s) (Nat.or_self _)).fab.beat.resolve_left (by decide)
@[simp] theorem State.recordOp_dma (s : State) {a1 a2 a3 a4} : (s.recordOp a1 a2 a3 a4).dma = s.dma :=
  OnlyDma.eq (State.recordOp_only (.refl _ s) (Nat.or_self _)).dma (by decide)
@[simp] theorem State.recordOp_tiers (s : State) {a1 a2 a3 a4} : (s.recordOp a1 a2 a3 a4).tiers = s.tiers :=
  OnlyTiers.eq (State.recordOp_only (.refl _ s) (Nat.or_self _)).tiers (by decide)
@[simp] theorem State.recordOp_hubOps (s : State) {a1 a2 a3 a4} : (s.recordOp a1 a2 a3 a4).hubOps = s.hubOps :=
  (State.recordOp_only (.refl _ s) (Nat.or_self _)).hubOps.resolve_left (by decide)
@[simp] theorem State.recordOp_annex (s : State) {a1 a2 a3 a4} : (s.recordOp a1 a2 a3 a4).annex = s.annex :=
  OnlyAnnex.eq (State.recordOp_only (.refl _ s) (Nat.or_self _)).annex (by decide)
@[simp] theorem State.recordOp_ctl (s : State) {a1 a2 a3 a4} : (s.recordOp a1 a2 a3 a4).ctl = s.ctl :=
  OnlyCtl.eq (State.recordOp_only (.refl _ s) (Nat.or_self _)).ctl (by decide)
@[simp] theorem State.recordOp_sec (s : State) {a1 a2 a3 a4} : (s.recordOp a1 a2 a3 a4).sec = s.sec :=
  OnlySec.eq (State.recordOp_only (.refl _ s) (Nat.or_self _)).sec (by decide)
@[simp] theorem State.recordOp_doc_groups (s : State) {a1 a2 a3 a4} : (s.recordOp a1 a2 a3 a4).doc.groups = s.doc.groups :=
  (State.recordOp_only (.refl _ s) (Nat.or_self _)).doc.groups.resolve_left (by decide)
@[simp] theorem State.recordOp_doc_appends (s : State) {a1 a2 a3 a4} : (s.recordOp a1 a2 a3 a4).doc.appends = s.doc.appends :=
  (State.recordOp_only (.refl _ s) (Nat.or_self _)).doc.appends.resolve_left (by decide)
@[simp] theorem State.recordOp_cur_forks (s : State) {a1 a2 a3 a4} : (s.recordOp a1 a2 a3 a4).cur.forks = s.cur.forks :=
  (State.recordOp_only (.refl _ s) (Nat.or_self _)).cur.forks.resolve_left (by decide)
@[simp] theorem State.recordOp_cur_moves (s : State) {a1 a2 a3 a4} : (s.recordOp a1 a2 a3 a4).cur.moves = s.cur.moves :=
  (State.recordOp_only (.refl _ s) (Nat.or_self _)).cur.moves.resolve_left (by decide)
@[simp] theorem State.recordOp_field (s : State) {a1 a2 a3 a4} (r : Reg) (i : List Nat) (hi lo : Nat) : (s.recordOp a1 a2 a3 a4).field r i hi lo = s.field r i hi lo := by
  simp only [State.field, State.written, State.recordOp_regs]
@[simp] theorem State.recordOp_flag (s : State) {a1 a2 a3 a4} (r : Reg) (i : List Nat) (k : Nat) : (s.recordOp a1 a2 a3 a4).flag r i k = s.flag r i k := by
  simp only [State.flag, State.recordOp_field]

@[simp] theorem State.settleFence_core (s : State) {a1} (j : Nat) : (s.settleFence a1).core j = s.core j :=
  State.core_congr ((State.settleFence_only (.refl _ s) (Nat.or_self _)).cores.resolve_left (by decide)) j
@[simp] theorem State.settleFence_chan (s : State) {a1} (j : Nat) : (s.settleFence a1).chan j = s.chan j :=
  State.chan_congr ((State.settleFence_only (.refl _ s) (Nat.or_self _)).chans.resolve_left (by decide)) j
@[simp] theorem State.settleFence_plinth (s : State) {a1} (j : Nat) : (s.settleFence a1).plinth j = s.plinth j :=
  State.plinth_congr ((State.settleFence_only (.refl _ s) (Nat.or_self _)).plinths.resolve_left (by decide)) j
@[simp] theorem State.settleFence_fin (s : State) {a1} (j : Nat) : (s.settleFence a1).fin j = s.fin j :=
  State.fin_congr ((State.settleFence_only (.refl _ s) (Nat.or_self _)).fins.resolve_left (by decide)) j
@[simp] theorem State.settleFence_ctx (s : State) {a1} (j : Nat) : (s.settleFence a1).ctx j = s.ctx j :=
  State.ctx_congr ((State.settleFence_only (.refl _ s) (Nat.or_self _)).doc.ctxs.resolve_left (by decide)) j
@[simp] theorem State.settleFence_page (s : State) {a1} (j : Nat) : (s.settleFence a1).page j = s.page j :=
  State.page_congr ((State.settleFence_only (.refl _ s) (Nat.or_self _)).cur.pages.resolve_left (by decide)) j
@[simp] theorem State.settleFence_kvMap (s : State) {a1} (j : Nat) : (s.settleFence a1).kvMap j = s.kvMap j :=
  State.kvMap_congr ((State.settleFence_only (.refl _ s) (Nat.or_self _)).cur.maps.resolve_left (by decide)) j
@[simp] theorem State.settleFence_port (s : State) {a1} (j : Nat) : (s.settleFence a1).port j = s.port j :=
  State.port_congr ((State.settleFence_only (.refl _ s) (Nat.or_self _)).fab.ports.resolve_left (by decide)) j
@[simp] theorem State.settleFence_window (s : State) {a1} (j : Nat) : (s.settleFence a1).window j = s.window j :=
  State.window_congr ((State.settleFence_only (.refl _ s) (Nat.or_self _)).fab.windows.resolve_left (by decide)) j
@[simp] theorem State.settleFence_tdi (s : State) {a1} (j : Nat) : (s.settleFence a1).tdi j = s.tdi j :=
  State.tdi_congr ((State.settleFence_only (.refl _ s) (Nat.or_self _)).sec.tdis.resolve_left (by decide)) j
@[simp] theorem State.settleFence_source (s : State) {a1} (j : Nat) : (s.settleFence a1).source j = s.source j :=
  State.source_congr ((State.settleFence_only (.refl _ s) (Nat.or_self _)).ras.sources.resolve_left (by decide)) j
@[simp] theorem State.settleFence_mem (s : State) {a1} : (s.settleFence a1).mem = s.mem :=
  (State.settleFence_only (.refl _ s) (Nat.or_self _)).mem.resolve_left (by decide)
@[simp] theorem State.settleFence_regs (s : State) {a1} : (s.settleFence a1).regs = s.regs :=
  (State.settleFence_only (.refl _ s) (Nat.or_self _)).regs.resolve_left (by decide)
@[simp] theorem State.settleFence_inForce (s : State) {a1} : (s.settleFence a1).inForce = s.inForce :=
  (State.settleFence_only (.refl _ s) (Nat.or_self _)).inForce.resolve_left (by decide)
@[simp] theorem State.settleFence_hif_inReset (s : State) {a1} : (s.settleFence a1).hif.inReset = s.hif.inReset :=
  (State.settleFence_only (.refl _ s) (Nat.or_self _)).hif.inReset.resolve_left (by decide)
@[simp] theorem State.settleFence_hif_poll (s : State) {a1} : (s.settleFence a1).hif.poll = s.hif.poll :=
  (State.settleFence_only (.refl _ s) (Nat.or_self _)).hif.poll.resolve_left (by decide)
@[simp] theorem State.settleFence_nextOp (s : State) {a1} : (s.settleFence a1).nextOp = s.nextOp :=
  (State.settleFence_only (.refl _ s) (Nat.or_self _)).nextOp.resolve_left (by decide)
@[simp] theorem State.settleFence_fab_beat (s : State) {a1} : (s.settleFence a1).fab.beat = s.fab.beat :=
  (State.settleFence_only (.refl _ s) (Nat.or_self _)).fab.beat.resolve_left (by decide)
@[simp] theorem State.settleFence_dma (s : State) {a1} : (s.settleFence a1).dma = s.dma :=
  OnlyDma.eq (State.settleFence_only (.refl _ s) (Nat.or_self _)).dma (by decide)
@[simp] theorem State.settleFence_tiers (s : State) {a1} : (s.settleFence a1).tiers = s.tiers :=
  OnlyTiers.eq (State.settleFence_only (.refl _ s) (Nat.or_self _)).tiers (by decide)
@[simp] theorem State.settleFence_hubOps (s : State) {a1} : (s.settleFence a1).hubOps = s.hubOps :=
  (State.settleFence_only (.refl _ s) (Nat.or_self _)).hubOps.resolve_left (by decide)
@[simp] theorem State.settleFence_annex (s : State) {a1} : (s.settleFence a1).annex = s.annex :=
  OnlyAnnex.eq (State.settleFence_only (.refl _ s) (Nat.or_self _)).annex (by decide)
@[simp] theorem State.settleFence_ctl (s : State) {a1} : (s.settleFence a1).ctl = s.ctl :=
  OnlyCtl.eq (State.settleFence_only (.refl _ s) (Nat.or_self _)).ctl (by decide)
@[simp] theorem State.settleFence_sec (s : State) {a1} : (s.settleFence a1).sec = s.sec :=
  OnlySec.eq (State.settleFence_only (.refl _ s) (Nat.or_self _)).sec (by decide)
@[simp] theorem State.settleFence_doc_groups (s : State) {a1} : (s.settleFence a1).doc.groups = s.doc.groups :=
  (State.settleFence_only (.refl _ s) (Nat.or_self _)).doc.groups.resolve_left (by decide)
@[simp] theorem State.settleFence_doc_appends (s : State) {a1} : (s.settleFence a1).doc.appends = s.doc.appends :=
  (State.settleFence_only (.refl _ s) (Nat.or_self _)).doc.appends.resolve_left (by decide)
@[simp] theorem State.settleFence_cur_forks (s : State) {a1} : (s.settleFence a1).cur.forks = s.cur.forks :=
  (State.settleFence_only (.refl _ s) (Nat.or_self _)).cur.forks.resolve_left (by decide)
@[simp] theorem State.settleFence_cur_moves (s : State) {a1} : (s.settleFence a1).cur.moves = s.cur.moves :=
  (State.settleFence_only (.refl _ s) (Nat.or_self _)).cur.moves.resolve_left (by decide)
@[simp] theorem State.settleFence_field (s : State) {a1} (r : Reg) (i : List Nat) (hi lo : Nat) : (s.settleFence a1).field r i hi lo = s.field r i hi lo := by
  simp only [State.field, State.written, State.settleFence_regs]
@[simp] theorem State.settleFence_flag (s : State) {a1} (r : Reg) (i : List Nat) (k : Nat) : (s.settleFence a1).flag r i k = s.flag r i k := by
  simp only [State.flag, State.settleFence_field]

@[simp] theorem State.complete_core (s : State) {a1 a2 a3} (j : Nat) : (s.complete a1 a2 a3).core j = s.core j :=
  State.core_congr ((State.complete_only (.refl _ s) (Nat.or_self _)).cores.resolve_left (by decide)) j
@[simp] theorem State.complete_chan (s : State) {a1 a2 a3} (j : Nat) : (s.complete a1 a2 a3).chan j = s.chan j :=
  State.chan_congr ((State.complete_only (.refl _ s) (Nat.or_self _)).chans.resolve_left (by decide)) j
@[simp] theorem State.complete_plinth (s : State) {a1 a2 a3} (j : Nat) : (s.complete a1 a2 a3).plinth j = s.plinth j :=
  State.plinth_congr ((State.complete_only (.refl _ s) (Nat.or_self _)).plinths.resolve_left (by decide)) j
@[simp] theorem State.complete_fin (s : State) {a1 a2 a3} (j : Nat) : (s.complete a1 a2 a3).fin j = s.fin j :=
  State.fin_congr ((State.complete_only (.refl _ s) (Nat.or_self _)).fins.resolve_left (by decide)) j
@[simp] theorem State.complete_ctx (s : State) {a1 a2 a3} (j : Nat) : (s.complete a1 a2 a3).ctx j = s.ctx j :=
  State.ctx_congr ((State.complete_only (.refl _ s) (Nat.or_self _)).doc.ctxs.resolve_left (by decide)) j
@[simp] theorem State.complete_page (s : State) {a1 a2 a3} (j : Nat) : (s.complete a1 a2 a3).page j = s.page j :=
  State.page_congr ((State.complete_only (.refl _ s) (Nat.or_self _)).cur.pages.resolve_left (by decide)) j
@[simp] theorem State.complete_kvMap (s : State) {a1 a2 a3} (j : Nat) : (s.complete a1 a2 a3).kvMap j = s.kvMap j :=
  State.kvMap_congr ((State.complete_only (.refl _ s) (Nat.or_self _)).cur.maps.resolve_left (by decide)) j
@[simp] theorem State.complete_port (s : State) {a1 a2 a3} (j : Nat) : (s.complete a1 a2 a3).port j = s.port j :=
  State.port_congr ((State.complete_only (.refl _ s) (Nat.or_self _)).fab.ports.resolve_left (by decide)) j
@[simp] theorem State.complete_window (s : State) {a1 a2 a3} (j : Nat) : (s.complete a1 a2 a3).window j = s.window j :=
  State.window_congr ((State.complete_only (.refl _ s) (Nat.or_self _)).fab.windows.resolve_left (by decide)) j
@[simp] theorem State.complete_tdi (s : State) {a1 a2 a3} (j : Nat) : (s.complete a1 a2 a3).tdi j = s.tdi j :=
  State.tdi_congr ((State.complete_only (.refl _ s) (Nat.or_self _)).sec.tdis.resolve_left (by decide)) j
@[simp] theorem State.complete_source (s : State) {a1 a2 a3} (j : Nat) : (s.complete a1 a2 a3).source j = s.source j :=
  State.source_congr ((State.complete_only (.refl _ s) (Nat.or_self _)).ras.sources.resolve_left (by decide)) j
@[simp] theorem State.complete_mem (s : State) {a1 a2 a3} : (s.complete a1 a2 a3).mem = s.mem :=
  (State.complete_only (.refl _ s) (Nat.or_self _)).mem.resolve_left (by decide)
@[simp] theorem State.complete_regs (s : State) {a1 a2 a3} : (s.complete a1 a2 a3).regs = s.regs :=
  (State.complete_only (.refl _ s) (Nat.or_self _)).regs.resolve_left (by decide)
@[simp] theorem State.complete_inForce (s : State) {a1 a2 a3} : (s.complete a1 a2 a3).inForce = s.inForce :=
  (State.complete_only (.refl _ s) (Nat.or_self _)).inForce.resolve_left (by decide)
@[simp] theorem State.complete_hif_inReset (s : State) {a1 a2 a3} : (s.complete a1 a2 a3).hif.inReset = s.hif.inReset :=
  (State.complete_only (.refl _ s) (Nat.or_self _)).hif.inReset.resolve_left (by decide)
@[simp] theorem State.complete_hif_poll (s : State) {a1 a2 a3} : (s.complete a1 a2 a3).hif.poll = s.hif.poll :=
  (State.complete_only (.refl _ s) (Nat.or_self _)).hif.poll.resolve_left (by decide)
@[simp] theorem State.complete_nextOp (s : State) {a1 a2 a3} : (s.complete a1 a2 a3).nextOp = s.nextOp :=
  (State.complete_only (.refl _ s) (Nat.or_self _)).nextOp.resolve_left (by decide)
@[simp] theorem State.complete_fab_beat (s : State) {a1 a2 a3} : (s.complete a1 a2 a3).fab.beat = s.fab.beat :=
  (State.complete_only (.refl _ s) (Nat.or_self _)).fab.beat.resolve_left (by decide)
@[simp] theorem State.complete_dma (s : State) {a1 a2 a3} : (s.complete a1 a2 a3).dma = s.dma :=
  OnlyDma.eq (State.complete_only (.refl _ s) (Nat.or_self _)).dma (by decide)
@[simp] theorem State.complete_tiers (s : State) {a1 a2 a3} : (s.complete a1 a2 a3).tiers = s.tiers :=
  OnlyTiers.eq (State.complete_only (.refl _ s) (Nat.or_self _)).tiers (by decide)
@[simp] theorem State.complete_hubOps (s : State) {a1 a2 a3} : (s.complete a1 a2 a3).hubOps = s.hubOps :=
  (State.complete_only (.refl _ s) (Nat.or_self _)).hubOps.resolve_left (by decide)
@[simp] theorem State.complete_annex (s : State) {a1 a2 a3} : (s.complete a1 a2 a3).annex = s.annex :=
  OnlyAnnex.eq (State.complete_only (.refl _ s) (Nat.or_self _)).annex (by decide)
@[simp] theorem State.complete_ctl (s : State) {a1 a2 a3} : (s.complete a1 a2 a3).ctl = s.ctl :=
  OnlyCtl.eq (State.complete_only (.refl _ s) (Nat.or_self _)).ctl (by decide)
@[simp] theorem State.complete_sec (s : State) {a1 a2 a3} : (s.complete a1 a2 a3).sec = s.sec :=
  OnlySec.eq (State.complete_only (.refl _ s) (Nat.or_self _)).sec (by decide)
@[simp] theorem State.complete_doc_appends (s : State) {a1 a2 a3} : (s.complete a1 a2 a3).doc.appends = s.doc.appends :=
  (State.complete_only (.refl _ s) (Nat.or_self _)).doc.appends.resolve_left (by decide)
@[simp] theorem State.complete_cur_forks (s : State) {a1 a2 a3} : (s.complete a1 a2 a3).cur.forks = s.cur.forks :=
  (State.complete_only (.refl _ s) (Nat.or_self _)).cur.forks.resolve_left (by decide)
@[simp] theorem State.complete_cur_moves (s : State) {a1 a2 a3} : (s.complete a1 a2 a3).cur.moves = s.cur.moves :=
  (State.complete_only (.refl _ s) (Nat.or_self _)).cur.moves.resolve_left (by decide)
@[simp] theorem State.complete_field (s : State) {a1 a2 a3} (r : Reg) (i : List Nat) (hi lo : Nat) : (s.complete a1 a2 a3).field r i hi lo = s.field r i hi lo := by
  simp only [State.field, State.written, State.complete_regs]
@[simp] theorem State.complete_flag (s : State) {a1 a2 a3} (r : Reg) (i : List Nat) (k : Nat) : (s.complete a1 a2 a3).flag r i k = s.flag r i k := by
  simp only [State.flag, State.complete_field]

@[simp] theorem State.take_core (s : State) {a1 a2 a3} (j : Nat) : (s.take a1 a2 a3).1.core j = s.core j :=
  State.core_congr ((State.take_only (.refl _ s) (Nat.or_self _)).fst.cores.resolve_left (by decide)) j
@[simp] theorem State.take_chan (s : State) {a1 a2 a3} (j : Nat) : (s.take a1 a2 a3).1.chan j = s.chan j :=
  State.chan_congr ((State.take_only (.refl _ s) (Nat.or_self _)).fst.chans.resolve_left (by decide)) j
@[simp] theorem State.take_plinth (s : State) {a1 a2 a3} (j : Nat) : (s.take a1 a2 a3).1.plinth j = s.plinth j :=
  State.plinth_congr ((State.take_only (.refl _ s) (Nat.or_self _)).fst.plinths.resolve_left (by decide)) j
@[simp] theorem State.take_fin (s : State) {a1 a2 a3} (j : Nat) : (s.take a1 a2 a3).1.fin j = s.fin j :=
  State.fin_congr ((State.take_only (.refl _ s) (Nat.or_self _)).fst.fins.resolve_left (by decide)) j
@[simp] theorem State.take_ctx (s : State) {a1 a2 a3} (j : Nat) : (s.take a1 a2 a3).1.ctx j = s.ctx j :=
  State.ctx_congr ((State.take_only (.refl _ s) (Nat.or_self _)).fst.doc.ctxs.resolve_left (by decide)) j
@[simp] theorem State.take_ring (s : State) {a1 a2 a3} (j : Nat) : (s.take a1 a2 a3).1.ring j = s.ring j :=
  State.ring_congr ((State.take_only (.refl _ s) (Nat.or_self _)).fst.hif.rings.resolve_left (by decide)) j
@[simp] theorem State.take_page (s : State) {a1 a2 a3} (j : Nat) : (s.take a1 a2 a3).1.page j = s.page j :=
  State.page_congr ((State.take_only (.refl _ s) (Nat.or_self _)).fst.cur.pages.resolve_left (by decide)) j
@[simp] theorem State.take_kvMap (s : State) {a1 a2 a3} (j : Nat) : (s.take a1 a2 a3).1.kvMap j = s.kvMap j :=
  State.kvMap_congr ((State.take_only (.refl _ s) (Nat.or_self _)).fst.cur.maps.resolve_left (by decide)) j
@[simp] theorem State.take_port (s : State) {a1 a2 a3} (j : Nat) : (s.take a1 a2 a3).1.port j = s.port j :=
  State.port_congr ((State.take_only (.refl _ s) (Nat.or_self _)).fst.fab.ports.resolve_left (by decide)) j
@[simp] theorem State.take_window (s : State) {a1 a2 a3} (j : Nat) : (s.take a1 a2 a3).1.window j = s.window j :=
  State.window_congr ((State.take_only (.refl _ s) (Nat.or_self _)).fst.fab.windows.resolve_left (by decide)) j
@[simp] theorem State.take_tdi (s : State) {a1 a2 a3} (j : Nat) : (s.take a1 a2 a3).1.tdi j = s.tdi j :=
  State.tdi_congr ((State.take_only (.refl _ s) (Nat.or_self _)).fst.sec.tdis.resolve_left (by decide)) j
@[simp] theorem State.take_source (s : State) {a1 a2 a3} (j : Nat) : (s.take a1 a2 a3).1.source j = s.source j :=
  State.source_congr ((State.take_only (.refl _ s) (Nat.or_self _)).fst.ras.sources.resolve_left (by decide)) j
@[simp] theorem State.take_mem (s : State) {a1 a2 a3} : (s.take a1 a2 a3).1.mem = s.mem :=
  (State.take_only (.refl _ s) (Nat.or_self _)).fst.mem.resolve_left (by decide)
@[simp] theorem State.take_out (s : State) {a1 a2 a3} : (s.take a1 a2 a3).1.out = s.out :=
  (State.take_only (.refl _ s) (Nat.or_self _)).fst.out.resolve_left (by decide)
@[simp] theorem State.take_regs (s : State) {a1 a2 a3} : (s.take a1 a2 a3).1.regs = s.regs :=
  (State.take_only (.refl _ s) (Nat.or_self _)).fst.regs.resolve_left (by decide)
@[simp] theorem State.take_inForce (s : State) {a1 a2 a3} : (s.take a1 a2 a3).1.inForce = s.inForce :=
  (State.take_only (.refl _ s) (Nat.or_self _)).fst.inForce.resolve_left (by decide)
@[simp] theorem State.take_hif_inReset (s : State) {a1 a2 a3} : (s.take a1 a2 a3).1.hif.inReset = s.hif.inReset :=
  (State.take_only (.refl _ s) (Nat.or_self _)).fst.hif.inReset.resolve_left (by decide)
@[simp] theorem State.take_hif_poll (s : State) {a1 a2 a3} : (s.take a1 a2 a3).1.hif.poll = s.hif.poll :=
  (State.take_only (.refl _ s) (Nat.or_self _)).fst.hif.poll.resolve_left (by decide)
@[simp] theorem State.take_fab_beat (s : State) {a1 a2 a3} : (s.take a1 a2 a3).1.fab.beat = s.fab.beat :=
  (State.take_only (.refl _ s) (Nat.or_self _)).fst.fab.beat.resolve_left (by decide)
@[simp] theorem State.take_dma (s : State) {a1 a2 a3} : (s.take a1 a2 a3).1.dma = s.dma :=
  OnlyDma.eq (State.take_only (.refl _ s) (Nat.or_self _)).fst.dma (by decide)
@[simp] theorem State.take_tiers (s : State) {a1 a2 a3} : (s.take a1 a2 a3).1.tiers = s.tiers :=
  OnlyTiers.eq (State.take_only (.refl _ s) (Nat.or_self _)).fst.tiers (by decide)
@[simp] theorem State.take_hubOps (s : State) {a1 a2 a3} : (s.take a1 a2 a3).1.hubOps = s.hubOps :=
  (State.take_only (.refl _ s) (Nat.or_self _)).fst.hubOps.resolve_left (by decide)
@[simp] theorem State.take_annex (s : State) {a1 a2 a3} : (s.take a1 a2 a3).1.annex = s.annex :=
  OnlyAnnex.eq (State.take_only (.refl _ s) (Nat.or_self _)).fst.annex (by decide)
@[simp] theorem State.take_ctl (s : State) {a1 a2 a3} : (s.take a1 a2 a3).1.ctl = s.ctl :=
  OnlyCtl.eq (State.take_only (.refl _ s) (Nat.or_self _)).fst.ctl (by decide)
@[simp] theorem State.take_sec (s : State) {a1 a2 a3} : (s.take a1 a2 a3).1.sec = s.sec :=
  OnlySec.eq (State.take_only (.refl _ s) (Nat.or_self _)).fst.sec (by decide)
@[simp] theorem State.take_doc_appends (s : State) {a1 a2 a3} : (s.take a1 a2 a3).1.doc.appends = s.doc.appends :=
  (State.take_only (.refl _ s) (Nat.or_self _)).fst.doc.appends.resolve_left (by decide)
@[simp] theorem State.take_cur_forks (s : State) {a1 a2 a3} : (s.take a1 a2 a3).1.cur.forks = s.cur.forks :=
  (State.take_only (.refl _ s) (Nat.or_self _)).fst.cur.forks.resolve_left (by decide)
@[simp] theorem State.take_cur_moves (s : State) {a1 a2 a3} : (s.take a1 a2 a3).1.cur.moves = s.cur.moves :=
  (State.take_only (.refl _ s) (Nat.or_self _)).fst.cur.moves.resolve_left (by decide)
@[simp] theorem State.take_field (s : State) {a1 a2 a3} (r : Reg) (i : List Nat) (hi lo : Nat) : (s.take a1 a2 a3).1.field r i hi lo = s.field r i hi lo := by
  simp only [State.field, State.written, State.take_regs]
@[simp] theorem State.take_flag (s : State) {a1 a2 a3} (r : Reg) (i : List Nat) (k : Nat) : (s.take a1 a2 a3).1.flag r i k = s.flag r i k := by
  simp only [State.flag, State.take_field]

end Sys2Proof.Machine
end

