-- ==== Sys2Proof/Laws/Records.lean ====
section
/-! SUPPORT. Acceptance, refusal and completion: what the shared operations answer, said once. -/

namespace Sys2Proof.Machine

/-- A descriptor whose checks pass in RUN gets its effect. -/
theorem State.accept_of_accepts {s : State} {unit : Nat} {o : Origin} {d : Line64} {opcode : Nat}
    {checks : State → Op → List Bad} {effect : State → Op → State} (h : s.Accepts o d opcode checks) :
    s.accept unit o d opcode checks effect = effect (s.taken o d opcode) (s.asOp o d opcode) := by
  unfold State.accept
  have h2 := h.2
  unfold State.judged at h2
  simp [h.1, h2, State.taken, State.asOp]

/-- A descriptor that a check refuses in RUN completes at once with what the check says. -/
theorem State.accept_of_refused {s : State} {unit : Nat} {o : Origin} {d : Line64} {opcode : Nat}
    {checks : State → Op → List Bad} {effect : State → Op → State} {v : Done} (hr : s.running = true)
    (h : s.judged o d opcode checks = some v) :
    s.accept unit o d opcode checks effect = (s.taken o d opcode).complete unit (s.asOp o d opcode) v := by
  unfold State.accept
  unfold State.judged at h
  simp [hr, h, State.taken, State.asOp]

/-- Outside RUN nothing is accepted. -/
theorem State.accept_of_not_running {s : State} {unit : Nat} {o : Origin} {d : Line64} {opcode : Nat}
    {checks : State → Op → List Bad} {effect : State → Op → State} (hr : s.running = false) :
    s.accept unit o d opcode checks effect = s := by
  simp [State.accept, hr]

/-- Taking in a ring's descriptor numbers it and puts it in flight. -/
theorem State.taken_ring (s : State) (r : RingNo) (i : Word) (d : Line64) (opcode : Nat) :
    s.taken (.ring r i) d opcode = { s with
      nextOp := s.nextOp + 1, hif := { s.hif with inflight := s.hif.inflight ++ [s.asOp (.ring r i) d opcode] } } := rfl

@[simp] theorem State.asOp_org (s : State) (o : Origin) (d : Line64) (opcode : Nat) : (s.asOp o d opcode).org = o := by
  cases o <;> rfl
@[simp] theorem State.asOp_d (s : State) (o : Origin) (d : Line64) (opcode : Nat) : (s.asOp o d opcode).d = d := by
  cases o <;> rfl
@[simp] theorem State.asOp_id (s : State) (o : Origin) (d : Line64) (opcode : Nat) : (s.asOp o d opcode).id = s.nextOp := by
  cases o <;> rfl
@[simp] theorem State.asOp_opcode (s : State) (o : Origin) (d : Line64) (opcode : Nat) : (s.asOp o d opcode).opcode = opcode := by
  cases o <;> rfl

/-! ### Messages and records -/

theorem State.hostWrite_out {s : State} {func addr : Nat} {b : Bytes} (h : s.cutOff func = false) :
    (s.hostWrite func addr b).out = s.out ++ [.hostWrite func addr b] := by
  simp [State.hostWrite, h]

/-- A message is at most one thing sent out. -/
theorem State.msix_out (s : State) (func v : Nat) :
    ∃ more, (s.msix func v).out = s.out ++ more ∧ (more = [] ∨ more = [.msix func v]) := by
  unfold State.msix
  split
  · exact ⟨[], by simp, .inl rfl⟩
  · split
    · exact ⟨[], by simp, .inl rfl⟩
    · exact ⟨[.msix func v], by simp, .inr rfl⟩

/-- Where the vector is not masked and no reset of the function runs, the message goes out. -/
theorem State.msix_sent {s : State} {func v : Nat} (h : s.cutOff func = false) (k : (s.msixWord func v 3).toNat % 2 ≠ 1) :
    s.msix func v = s.emit (.msix func v) := by
  simp [State.msix, h, k]

/-- Where the vector is masked its pending bit is set. -/
theorem State.msix_masked {s : State} {func v : Nat} (h : s.cutOff func = false) (k : (s.msixWord func v 3).toNat % 2 = 1) :
    s.msix func v = { s with hif := { s.hif with msixPend := Tbl.put s.hif.msixPend (func * 2048 + v) true false } } := by
  simp [State.msix, h, k]

/-- What a record leaves owed: a message of its ring where interrupts are enabled, and nothing else changes. -/
theorem State.ringInterrupt_spec (s : State) (r : Nat) :
    (s.ringInterrupt r).out = s.out ∧
    ((s.ringInterrupt r).ring r) = { s.ring r with intPend := s.flag .hifRcfg [r] 19 || (s.ring r).intPend } ∧
    (∀ q, q ≠ r → (s.ringInterrupt r).ring q = s.ring q) := by
  unfold State.ringInterrupt
  split
  · rename_i h
    exact ⟨rfl, by simp [h], fun q hq => State.setRing_ring_ne _ hq⟩
  · rename_i h
    exact ⟨rfl, by simp [h], fun _ _ => rfl⟩

/-- One record of a ring: its bytes at C_w, which rises by one, and the message it leaves owed; the other counts of the ring and
every other ring stay. -/
theorem State.ringRecord_spec {s : State} {r tag opcode status cause off result index : Nat} (h : s.cutOff (r / 64) = false) :
    s.Answered (s.ringRecord r tag opcode status cause off result index) r
      (s.record r tag opcode status cause off result index) ∧
    (s.ringRecord r tag opcode status cause off result index).ring r = { s.ring r with
      cw := (s.ring r).cw + 1, intPend := s.flag .hifRcfg [r] 19 || (s.ring r).intPend } ∧
    (∀ q, q ≠ r → (s.ringRecord r tag opcode status cause off result index).ring q = s.ring q) := by
  have k := State.ringInterrupt_spec ((s.hostWrite (r / 64) (s.recordAddr r (s.ring r).cw)
    (s.record r tag opcode status cause off result index)).setRing r { s.ring r with cw := (s.ring r).cw + 1 }) r
  obtain ⟨ho, hr, hq⟩ := k
  have e : s.ringRecord r tag opcode status cause off result index = ((s.hostWrite (r / 64) (s.recordAddr r (s.ring r).cw)
    (s.record r tag opcode status cause off result index)).setRing r { s.ring r with cw := (s.ring r).cw + 1 }).ringInterrupt
      r := rfl
  rw [e]
  have hr' := hr
  simp only [State.setRing_ring, State.flag, State.field, State.written, State.setRing_regs, State.hostWrite_regs] at hr'
  refine ⟨⟨by rw [hr]; simp, ?_, fun f => ?_⟩, ?_, ?_⟩
  · rw [ho, State.setRing_out, State.hostWrite_out h]
  · rw [hr']; simp only [State.flag, State.field, State.written] at f; rw [f]; rfl
  · rw [hr']; rfl
  · intro q hne; rw [hq q hne]; simp [State.setRing_ring_ne _ hne]

/-- No FENCE of a ring waits: none of it completes. -/
theorem State.settleFence_none {s : State} {r : Nat} (h : s.fenced r = false) : s.settleFence r = s := by
  unfold State.settleFence
  split
  · rfl
  · rename_i f hf
    unfold State.fenced at h
    rw [List.any_eq_false] at h
    have hp := List.find?_some hf
    rw [Bool.and_eq_true] at hp
    exact absurd hp.1 (h f (List.mem_of_find?_eq_some hf))

@[simp] theorem State.opEvent_hif (s : State) {a1 a2 a3 a4} : (s.opEvent a1 a2 a3 a4).hif = s.hif :=
  ((State.opEvent_only (.refl _ s) (Nat.or_self _)).hif).eq (by decide)
@[simp] theorem State.opEvent_doc (s : State) {a1 a2 a3 a4} : (s.opEvent a1 a2 a3 a4).doc = s.doc :=
  ((State.opEvent_only (.refl _ s) (Nat.or_self _)).doc).eq (by decide)
@[simp] theorem State.opEvent_fab (s : State) {a1 a2 a3 a4} : (s.opEvent a1 a2 a3 a4).fab = s.fab :=
  ((State.opEvent_only (.refl _ s) (Nat.or_self _)).fab).eq (by decide)

/-- A record is made of the ring's counts, its registers and the beat. -/
theorem State.record_congr {s u : State} {r : Nat} (h : u.ring r = s.ring r) (hr : u.regs = s.regs) (hb : u.fab = s.fab)
    (a1 a2 a3 a4 a5 a6 a7 : Nat) : u.record r a1 a2 a3 a4 a5 a6 a7 = s.record r a1 a2 a3 a4 a5 a6 a7 := by
  unfold State.record State.beat State.ringSize State.field State.written
  rw [h, hr, hb]

/-- The completion of a descriptor in flight on a ring with no FENCE waiting: one record, and it is in flight no more. -/
theorem State.complete_ring {s : State} {unit : Nat} {o : Op} {x : Done} {r : RingNo} {i : Word} (ho : o.org = .ring r i)
    (hi : s.hif.inflight.any (fun p => p.id == o.id) = true) (hf : s.fenced r.val = false)
    (hc : s.cutOff (r.val / 64) = false) :
    s.Answered (s.complete unit o x) r.val
      (s.record r.val (fld o.d 2 15 0) o.opcode x.st.code x.cause x.off x.result i.toNat) ∧
    (s.complete unit o x).ring r.val = { s.ring r.val with
      cw := (s.ring r.val).cw + 1, intPend := s.flag .hifRcfg [r.val] 19 || (s.ring r.val).intPend } ∧
    (∀ q, q ≠ r.val → (s.complete unit o x).ring q = s.ring q) ∧
    (s.complete unit o x).hif.inflight = s.hif.inflight.filter (fun p => p.id != o.id) ∧
    (s.complete unit o x).hif.fences = s.hif.fences ∧ (s.complete unit o x).doc = s.doc := by
  have hn : s.countOverrun o = s := by unfold State.countOverrun; rw [ho]
  have e : s.complete unit o x = ((s.opEvent unit (if decide (0x10 ≤ x.st.code) && decide (x.st.code < 0x20) then 6 else 3)
      o x.st).recordOp r.val i.toNat o x).settleFence r.val := by
    simp only [State.complete, ho, hn, ite_self]
  generalize (if decide (0x10 ≤ x.st.code) && decide (x.st.code < 0x20) then 6 else 3) = c at e
  let u : State := { s.opEvent unit c o x.st with
    hif := { (s.opEvent unit c o x.st).hif with inflight := s.hif.inflight.filter (fun p => p.id != o.id) } }
  have er : (s.opEvent unit c o x.st).recordOp r.val i.toNat o x =
      u.ringRecord r.val (fld o.d 2 15 0) o.opcode x.st.code x.cause x.off x.result i.toNat := by
    simp [State.recordOp, hi, u]
  have hu : u.cutOff (r.val / 64) = false := by simpa [State.cutOff, u] using hc
  obtain ⟨⟨hcw, hout, hp⟩, hr, hq⟩ := State.ringRecord_spec (s := u) (r := r.val) (tag := fld o.d 2 15 0)
    (opcode := o.opcode) (status := x.st.code) (cause := x.cause) (off := x.off) (result := x.result) (index := i.toNat) hu
  have hw := State.ringRecord_only (a1 := r.val) (a2 := fld o.d 2 15 0) (a3 := o.opcode) (a4 := x.st.code) (a5 := x.cause)
    (a6 := x.off) (a7 := x.result) (a8 := i.toNat) (.refl _ u) (Nat.or_self _)
  have hring (q : Nat) : u.ring q = s.ring q := (State.ring_congr (by rfl) q).trans (State.opEvent_ring s (a1 := unit) (a2 := c) (a3 := o)
    (a4 := x.st) q)
  have hif : u.hif = { s.hif with inflight := s.hif.inflight.filter (fun p => p.id != o.id) } := by simp [u]
  have hfen : (u.ringRecord r.val (fld o.d 2 15 0) o.opcode x.st.code x.cause x.off x.result i.toNat).hif.fences =
      s.hif.fences := by
    rw [hw.hif.fences.resolve_left (by decide), hif]
  have hset : (u.ringRecord r.val (fld o.d 2 15 0) o.opcode x.st.code x.cause x.off x.result i.toNat).settleFence r.val =
      u.ringRecord r.val (fld o.d 2 15 0) o.opcode x.st.code x.cause x.off x.result i.toNat :=
    State.settleFence_none (by unfold State.fenced; rw [hfen]; exact hf)
  rw [er, hset] at e
  rw [e]
  have hrec : u.record r.val (fld o.d 2 15 0) o.opcode x.st.code x.cause x.off x.result i.toNat =
      s.record r.val (fld o.d 2 15 0) o.opcode x.st.code x.cause x.off x.result i.toNat :=
    State.record_congr (hring _) (by simp [u]) (by simp [u]) ..
  have haddr (n : Word) : u.recordAddr r.val n = s.recordAddr r.val n := by
    simp [State.recordAddr, State.ringAddr, State.ringSize, State.field, State.written, u]
  have hflg : u.flag .hifRcfg [r.val] 19 = s.flag .hifRcfg [r.val] 19 := by simp [State.flag, State.field, State.written, u]
  have hou : u.out = s.out := by simp [u]
  rw [hring] at hcw hr hout
  rw [hrec, haddr, hou] at hout
  rw [hflg] at hp hr
  refine ⟨⟨hcw, hout, hp⟩, hr, fun q h => (hq q h).trans (hring q), ?_, hfen, ?_⟩
  · rw [hw.hif.inflight.resolve_left (by decide), hif]
  · have h1 := hw.doc.eq (by decide)
    rw [h1]; simp [u]

/-- A ring's descriptor that completes as soon as it is taken in: one record, and nothing of it is left in flight. -/
theorem State.taken_complete {s : State} {unit : Nat} {r : RingNo} {i : Word} {d : Line64} {opcode : Nat} {x : Done}
    (hf : s.fenced r.val = false) (hc : s.cutOff (r.val / 64) = false) :
    s.Answered ((s.taken (.ring r i) d opcode).complete unit (s.asOp (.ring r i) d opcode) x) r.val
      (s.record r.val (fld d 2 15 0) opcode x.st.code x.cause x.off x.result i.toNat) ∧
    ((s.taken (.ring r i) d opcode).complete unit (s.asOp (.ring r i) d opcode) x).ring r.val = { s.ring r.val with
      cw := (s.ring r.val).cw + 1, intPend := s.flag .hifRcfg [r.val] 19 || (s.ring r.val).intPend } ∧
    (∀ q, q ≠ r.val → ((s.taken (.ring r i) d opcode).complete unit (s.asOp (.ring r i) d opcode) x).ring q = s.ring q) ∧
    ((s.taken (.ring r i) d opcode).complete unit (s.asOp (.ring r i) d opcode) x).hif.inflight =
      s.hif.inflight.filter (fun p => p.id != s.nextOp) ∧
    ((s.taken (.ring r i) d opcode).complete unit (s.asOp (.ring r i) d opcode) x).hif.fences = s.hif.fences ∧
    ((s.taken (.ring r i) d opcode).complete unit (s.asOp (.ring r i) d opcode) x).doc = s.doc := by
  have h := State.complete_ring (s := s.taken (.ring r i) d opcode) (unit := unit) (o := s.asOp (.ring r i) d opcode) (x := x)
    (r := r) (i := i) (by simp) (by rw [State.taken_ring]; simp) hf hc
  simp only [State.asOp_d, State.asOp_opcode, State.asOp_id] at h
  obtain ⟨h1, h2, h3, h4, h5, h6⟩ := h
  refine ⟨h1, h2, h3, ?_, h5, h6⟩
  rw [h4, State.taken_ring]
  simp [List.filter_append]

/-- A ring's descriptor that a check refuses: one record with what the check says. -/
theorem State.accept_refused {s : State} {unit : Nat} {r : RingNo} {i : Word} {d : Line64} {opcode : Nat}
    {checks : State → Op → List Bad} {effect : State → Op → State} {v : Done} (hr : s.running = true)
    (h : s.judged (.ring r i) d opcode checks = some v) (hf : s.fenced r.val = false) (hc : s.cutOff (r.val / 64) = false) :
    s.Answered (s.accept unit (.ring r i) d opcode checks effect) r.val
      (s.record r.val (fld d 2 15 0) opcode v.st.code v.cause v.off v.result i.toNat) ∧
    (∀ q, q ≠ r.val → (s.accept unit (.ring r i) d opcode checks effect).ring q = s.ring q) ∧
    (s.accept unit (.ring r i) d opcode checks effect).hif.inflight = s.hif.inflight.filter (fun p => p.id != s.nextOp) ∧
    (s.accept unit (.ring r i) d opcode checks effect).doc = s.doc := by
  rw [State.accept_of_refused hr h]
  have k := State.taken_complete (unit := unit) (i := i) (d := d) (opcode := opcode) (x := v) hf hc
  exact ⟨k.1, k.2.2.1, k.2.2.2.1, k.2.2.2.2.2⟩

/-- A refusal gives no RESULT. -/
theorem verdict_result {l : List Bad} {c : Nat} {v : Done} (h : verdict l c = some v) : v.result = 0 := by
  unfold verdict at h
  split at h
  · cases h; rfl
  · split at h
    · cases h
    · cases h; rfl

theorem firstVerdict_result {l : List (List Bad × Nat)} {v : Done} (h : firstVerdict l = some v) : v.result = 0 := by
  unfold firstVerdict at h
  split at h
  · rename_i x hx
    cases h
    obtain ⟨a, ha, hb⟩ := List.exists_of_findSome?_eq_some hx
    split at hb
    · split at hb
      · cases hb; exact verdict_result ‹_›
      · cases hb
    · cases hb
  · exact verdict_result h

/-- Every descriptor of the table goes through the one acceptance, with its own checks. -/
theorem descRows_accept : ∀ x ∈ descRows, ∀ (o : Origin) (d : Line64) (s : State),
    ∃ unit effect, exec (x.make o d) s = .next (s.accept unit o d x.opcode x.checks effect) := by
  intro x hx o d s
  simp only [descRows, dmaRows, coreRows, hubRows, List.mem_append, List.mem_cons, List.not_mem_nil, or_false] at hx
  rcases hx with ((((rfl | rfl) | (rfl | rfl | rfl | rfl | rfl | rfl | rfl)) | hx) | (rfl | rfl | rfl)) |
    (rfl | rfl | rfl | rfl | rfl)
  rotate_left 9
  · rcases hx with rfl | rfl | rfl | rfl | rfl | rfl | rfl | rfl | rfl | rfl | rfl | rfl | rfl | rfl | rfl | rfl | rfl | rfl |
      rfl | rfl | rfl | rfl | rfl | rfl | rfl | rfl
    all_goals exact ⟨_, _, rfl⟩
  all_goals exact ⟨_, _, rfl⟩

end Sys2Proof.Machine
end

