-- ==== Sys2Proof/WellFormed.lean ====
section
/-! DEFINITION. Well-formed commands: operands that the outside world can give at all. A descriptor command carries the opcode of
its row, a packet the type and protocol of its row, and a list or run of bytes the length its structure has. -/

namespace Sys2Proof

open Sys2Proof.Machine (fld)

/-- A descriptor or template that carries the opcode of its row (R241). -/
def opcodeIs (d : Line64) (op : Nat) : Bool := fld d 0 7 0 == op

/-- A hub operation's template: opcode 0x78 with the row's FUNC, from a step program alone (R389). -/
def hubIs (o : Origin) (d : Line64) (func : Nat) : Bool :=
  opcodeIs d 0x78 && fld d 8 2 0 == func && (match o with | .step _ => true | .ring _ _ => false)

/-- A packet header's TYPE, and for DATA packets its PROTO (R344, R365). -/
def typeIs (h : Line16) (type : Nat) : Bool := fld h 0 3 0 == type
def dataIs (h : Line16) (proto : Nat) : Bool := typeIs h 0 && fld h 7 7 0 == proto

/-- The payload of a link packet is whole 32 B units, at most 4,096 B (R344, R354). -/
def payloadOk (b : Bytes) : Bool := decide (b.length ≤ 4096)

/-- A sample as PLNn_TSTAT can show it (R305). -/
def ThermSample.wf (x : ThermSample) : Bool := decide (x.junction < 1024) && decide (x.dram < 1024)

/-- A plinth's training result: rows and column slices that exist (R293, R316). -/
def PlinthTraining.wf (x : PlinthTraining) : Bool :=
  x.rows.all (fun r => decide (r.2.2 < 8192)) && x.cols.all (fun c => decide (c.2.2 < 128))

/-- A disturbance of a burst, a word, an entry or a line that exists (R3, R84, R106, R310). -/
def Upset.wf (u : Upset) : Bool :=
  match u with
  | .burst _ a _ => decide (a < 2 ^ 28) && a % 64 == 0
  | .scratch _ w _ => decide (w < 32768)
  | .cache _ l _ _ => decide (l < 2 ^ 22)
  | .hall w _ => decide (w < 2 ^ 25)
  | .acc _ _ e _ => decide (e < 32768)
  | .tableLine _ _ | .context _ _ => true

/-- A channel request within its channel (R293, R296). -/
def ChanReq.wf (r : ChanReq) : Bool :=
  decide (0 < r.len) && decide (r.addr + r.len ≤ 2 ^ 28) && (match r.kind with
    | .write b => b.length == r.len
    | .read | .debugRead => true)

/-- A register or aperture access of 1 to 8 bytes that lies within its window (R231, R498). -/
def accessOk (size off len : Nat) : Bool := decide (0 < len) && decide (len ≤ 8) && decide (off + len ≤ size)

/-- Bytes of a function's BAR0 (R231). -/
def barSize (func : GalNo) : Nat := if func.val = 0 then 2 ^ 26 else 2 ^ 20

/-- An image of R379 or R211, or a certificate chain: at most 12 KiB for a chain slot of R429. -/
def chainOk (b : Bytes) : Bool := decide (b.length ≤ 12288)

/-- The well-formed commands. -/
def Instr.wf (i : Instr) : Bool :=
  match i with
  | .beatBoundary | .collDeadline _ _ | .traceBeatTrigger | .watchdogExpiry _ _ | .localTick | .refreshSlot
  | .refreshOpportunistic _ => true
  | .scrubRead _ ups => ups.all Upset.wf
  | .incidentRateWindowEnd | .fenceWindowEnd | .ringInterruptIntervalEnd _ | .incidentInterruptIntervalEnd
  | .carmineRecordRelease _ => true
  | .summaryReadDone lines _ => lines.length == 64 || lines.isEmpty
  | .doorbellReadDone _ _ => true
  | .descriptorReadDone _ ds => decide (ds.length ≤ 64)
  | .consumerLineReadDone _ _ | .hostReadFault _ _ | .hostReadTimeout _ => true
  | .ringEnable _ _ w => w.getLsbD 0
  | .ringDisable _ _ w => !w.getLsbD 0
  | .nop _ d => opcodeIs d 0x01
  | .fence _ d => opcodeIs d 0x02
  | .copy _ d => opcodeIs d 0x20
  | .fill _ d => opcodeIs d 0x21
  | .compare _ d => opcodeIs d 0x22
  | .gather _ d => opcodeIs d 0x23
  | .spStrided _ d => opcodeIs d 0x24
  | .spTranspose _ d => opcodeIs d 0x25
  | .t24Convert _ d => opcodeIs d 0x26
  | .dmaStop _ d => opcodeIs d 0x27
  | .streamAdmit _ d => opcodeIs d 0x40
  | .append _ d => opcodeIs d 0x41
  | .policy _ d => opcodeIs d 0x42
  | .fork _ d => opcodeIs d 0x43
  | .cancel _ d => opcodeIs d 0x44
  | .release _ d => opcodeIs d 0x45
  | .progLoad _ d image => opcodeIs d 0x46 && decide (image.length < 2 ^ 24)
  | .coreBind _ d => opcodeIs d 0x60
  | .coreUnbind _ d => opcodeIs d 0x61
  | .tile _ d => opcodeIs d 0x62
  | .tileBs _ d => opcodeIs d 0x63
  | .attn _ d => opcodeIs d 0x64
  | .pageMove _ d => opcodeIs d 0x68
  | .objCreate _ d => opcodeIs d 0x69
  | .accession _ d => opcodeIs d 0x6A
  | .objMap _ d => opcodeIs d 0x6B
  | .objRelease _ d => opcodeIs d 0x6C
  | .migrate _ d => opcodeIs d 0x6D
  | .objPin _ d => opcodeIs d 0x6E
  | .objQuery _ d => opcodeIs d 0x6F
  | .winOpen _ d => opcodeIs d 0x70
  | .winClose _ d => opcodeIs d 0x71
  | .winPut _ d => opcodeIs d 0x72
  | .winGet _ d => opcodeIs d 0x73
  | .coll _ d => opcodeIs d 0x74
  | .quiesce _ d => opcodeIs d 0x75
  | .carLoad _ d => opcodeIs d 0x76
  | .addnorm o d => hubIs o d 0
  | .convert o d => hubIs o d 1
  | .bcast o d => hubIs o d 2
  | .merge o d => hubIs o d 3
  | .psum o d => hubIs o d 4
  | .sample o d => hubIs o d 5
  | .coreIssue _ => true
  | .chunkLoadDone _ ups => ups.all Upset.wf
  | .broadcastChunkSend _ => true
  | .tileComplete _ ups => ups.all Upset.wf
  | .accumulatorDrainDone _ _ ups => ups.all Upset.wf
  | .annexTileStart => true
  | .annexTileComplete ups => ups.all Upset.wf
  | .attnComplete _ ups _ => ups.all Upset.wf
  | .handleDrained _ _ => true
  | .stepOpIssue _ _ | .cowCopyComplete _ _ | .stepComplete _ | .endRecordWrite _ => true
  | .appendTokensReadDone _ _ tokens => decide (tokens.length < 32768)
  | .forkComplete _ | .releaseExecute _ | .pageCopyMake _ | .pageMoveComplete _ | .dmaChannelAcquire => true
  | .dmaUnitReadDone _ data ups => decide (data.length ≤ 65536) && ups.all Upset.wf
  | .dmaUnitWriteDone _ ups => ups.all Upset.wf
  | .dmaOpComplete _ => true
  | .channelRequestServe _ arrivals ups => arrivals.all ChanReq.wf && ups.all Upset.wf
  | .readRaw _ _ w => w.toNat % 16 == 1
  | .writeRaw _ _ w => w.toNat % 16 == 2
  | .rowSpare _ _ w => w.toNat % 16 == 3
  | .colSpare _ _ w => w.toNat % 16 == 4
  | .chSpare _ _ w => w.toNat % 16 == 5
  | .mapRead _ _ w => w.toNat % 16 == 6
  | .repairCommandDone _ => true
  | .channelSpareCopy _ _ ups => ups.all Upset.wf
  | .coreSpareSwitch _ | .repairRecordWrite => true
  | .moverPanelStart ups => ups.all Upset.wf
  | .panelSwitch _ _ data => data.isEmpty || data.length == 262144
  | .repairStart _ _ => true
  | .referenceReadDone _ _ data => data.length == 262144
  | .referenceReadRetry _ _ _ | .panelRewriteDone _ _ => true
  | .readbackDone _ _ ups => ups.all Upset.wf
  | .incidentRecordWrite | .incidentRingEnable _ _ => true
  | .fencePop _ w => w.toNat / 4096 % 4 == 1
  | .fenceClear _ w => w.toNat / 4096 % 4 == 2
  | .sourceClear _ w => w.getLsbD 0
  | .registerWrite func off data _ => accessOk (barSize func) off data.length
  | .counterPairRead func off len => accessOk (barSize func) off len
  | .configurationCommit _ _ | .commitCheckDone => true
  | .orderlyHold _ w => w.toNat % 4 == 1
  | .holdEntry => true
  | .beatUnitStart _ w => w.getLsbD 0
  | .beatUnitStop _ w => !w.getLsbD 0
  | .snapshot _ w => w.getLsbD 0
  | .snapshotDone _ => true
  | .dump _ w => w.toNat % 8 == 1
  | .dumpDone => true
  | .freeze _ w => w.toNat % 8 == 2
  | .thaw _ w => w.toNat % 8 == 4
  | .mark _ _ => true
  | .arm _ w => w.toNat % 4 == 1
  | .traceStop _ w => w.toNat % 4 == 2
  | .trigger _ w => w.toNat % 4 == 3
  | .traceRecordWrite | .traceRecordDrop _ | .traceCaptureEnd => true
  | .commit _ w => w.toNat % 4 == 1
  | .revert _ w => w.toNat % 4 == 2
  | .debugApertureAccess off len write =>
    decide (0 < len) && decide (off % 4096 + len ≤ 4096) && decide (off + len ≤ 2 ^ 36) && (match write with
      | some b => b.length == len
      | none => true)
  | .linkCtrlReceive _ hdr _ => typeIs hdr 1
  | .linkCtrlSend _ => true
  | .dataForward _ hdr payload => typeIs hdr 0 && payloadOk payload
  | .syncReceive _ hdr _ _ => typeIs hdr 2
  | .noticeReceive _ hdr _ => typeIs hdr 3
  | .noticePairExpiry => true
  | .put _ hdr _ data => dataIs hdr 1 && payloadOk data
  | .getReq _ hdr _ _ _ ups => dataIs hdr 3 && ups.all Upset.wf
  | .getData _ hdr _ data => dataIs hdr 4 && payloadOk data
  | .ack _ hdr _ => dataIs hdr 2
  | .ackTimer _ _ _ | .windowOpTimeout _ | .windowOpComplete _ | .winCloseComplete _ => true
  | .collDataReceive _ hdr _ data => dataIs hdr 5 && payloadOk data
  | .hole _ hdr _ => dataIs hdr 6
  | .collComplete _ _ | .carouselSlotStart _ | .portTrainingDone _ | .portTrainingTimeout _ | .portFailure _ _
  | .linkIdleTimeout _ | .portRetrainTimer _ | .beatLoss _ => true
  | .deviceReset _ _ _ _ _ | .bootImageVerified _ _ => true
  | .channelTrainingDone plinths => plinths.length == 8 && plinths.all PlinthTraining.wf
  | .selfTestDone _ _ | .pwrgdFall => true
  | .vfFunctionLevelReset vf => vf.val != 0
  | .vfResetComplete _ => true
  | .pfResetOrLinkLoss => true
  | .thermalSample samples => samples.length == 8 && samples.all ThermSample.wf
  | .sysclkLoss | .brlclkLoss => true
  | .mctpMessage t _ => t != .doe
  | .pldmFirmwareUpdate t _ _ => t != .doe
  | .activateFirmware _ _ | .getVersion _ | .getCapabilities _ | .negotiateAlgorithms _ | .getDigests _ => true
  | .getCertificate _ _ off len => decide (off < 65536) && decide (len < 65536)
  | .challenge _ _ nonce => nonce.length == 32
  | .getMeasurements _ index => decide (index < 256)
  | .keyExchange _ _ | .finish _ _ | .keyUpdate _ | .heartbeat _ | .endSession _ => true
  | .setCertificate _ _ chain => chainOk chain
  | .debugUnlock _ nonce _ _ _ => nonce.length == 32
  | .macsecKeyInstall _ _ _ _ _ | .ideKm _ _ _ _ | .ideIntegrityFailure _ => true
  | .lockInterface vf | .startInterface vf | .stopInterface vf => vf.val != 0
  | .packetDiscard _ _ | .bindZeroFillDone _ _ | .hubOperationComplete _ => true
  | .mapImageReadDone _ _ image => decide (image.length < 2 ^ 20)
  | .pcieLinkTrained width rate _ => [4, 8, 16].contains width && decide (1 ≤ rate) && decide (rate ≤ 7)

end Sys2Proof
end

