-- ==== Sys2Proof/Tests/Slice0.lean ====
section
/-! SUPPORT. Tests of the model: what WellFormed refuses, a few steps against the manual, and for every clause of every
statement with hypotheses a state and operands that meet them all. -/

section

open Sys2Proof Sys2Proof.Machine

set_option Elab.async false

/-! ### Small states and descriptors -/

/-- A number from its fields: byte, lowest bit within it, value. -/
def test_bits (l : List (Nat × Nat × Nat)) : Nat := (l.map (fun p => p.2.2 * 2 ^ (8 * p.1 + p.2.1))).foldl (· + ·) 0

def test_desc (l : List (Nat × Nat × Nat)) : Line64 := BitVec.ofNat 512 (test_bits l)
def test_line32 (l : List (Nat × Nat × Nat)) : Line32 := BitVec.ofNat 256 (test_bits l)
def test_line16 (l : List (Nat × Nat × Nat)) : Line16 := BitVec.ofNat 128 (test_bits l)

/-- The device started up, in HOLD after its self-test, with every register at its reset value. -/
def test_up : State := { ctl := { st := .hold, bootStep := 5 }, sec := { st := .run, seeded := true } }

/-- The device in RUN with its units enabled. -/
def test_run : State :=
  { test_up with
    ctl := { st := .run, bootStep := 5 }
    regs := [(0x2000, 1), (0x100000, 1), (0x200000, 1), (0x400000, 1), (0x600014, 1), (0x1000000, 1)] }

/-- An operation of ring 0. -/
def test_op (n opcode : Nat) (d : Line64) : Op :=
  { id := n, org := .ring 0 0, opcode := opcode, d := d, gal := 0, cls := 1, beat := 0 }

/-- The device with some registers at other values. -/
def test_with (s : State) (l : List (Reg × List Nat × Nat)) : State :=
  l.foldl (fun s x => { s with regs := Tbl.put s.regs (regOff x.1 x.2.1) (BitVec.ofNat 32 x.2.2) (regSpec x.1).resetWord }) s

/-! ### Operations in progress -/

def test_copy : DmaOp :=
  { op := test_op 0 0x20 (test_desc [(0, 0, 0x20), (8, 0, 2), (24, 0, 0), (40, 0, 64)]), chan := some 255, issued := true }

def test_fillDesc : Line64 := test_desc [(0, 0, 0x21), (24, 0, 2), (32, 0, 4096), (40, 0, 4096)]
def test_fill : DmaOp := { op := test_op 0 0x21 test_fillDesc, chan := some 32, issued := true }

/-- Streams 3 (IDLE) and 4 (DECODE) of gallery 0, running the program of slot 0. -/
def test_streams : State :=
  { test_with test_run [(.docGalC, [0], 16), (.docGalQ, [0], 16)] with
    doc := { progs := [(0, { vocab := 100 })], ctxs := [(3, { st := .idle }), (4, { st := .decode })] }
    cur := { maps := [(3, { ptok := 32 }), (4, { ptok := 32, slots := 1, tokens := 2 })] } }

/-- An APPEND of two tokens to stream 3 whose tokens are still being read. -/
def test_append : AppendRec := { op := { test_op 0 0x41 0 with org := .ring 0 7 }, stream := 3, go := false, count := 2, vocab := 100 }

/-- A lane group of stream 3 with an operation outstanding. -/
def test_group : LaneGroup :=
  { id := 0, cls := 1, prog := 0, prefill := false, beat := 0, members := [{ stream := 3 }], outstanding := [0] }

/-- Core 0 with entry 0 BOUND to the lines 0 to 4095, and entry 1 a ring of 128 lines. -/
def test_bound : State :=
  { test_run with cores := [(0, { phys := 0, chan := 0, handles := [(0, { st := .bound, lines := 4096 }), (1, { st := .bound, lines := 512, fmt := 4, typed := true, ring := true, slots := [0] })] })] }

/-- A TILE of core 0: one row over 32 positions of an INT4 vector. -/
def test_tileDesc (ahdl chain : Nat) : Line64 :=
  test_desc [(0, 0, 0x62), (11, 0, 4), (11, 6, chain), (12, 0, ahdl), (18, 0, 1), (22, 0, 1)]
def test_tile : Op := test_op 0 0x62 (test_tileDesc 0 1)
def test_vecTile : Op := test_op 0 0x62 (test_tileDesc 0 0)

/-- A running tile that reads its vector from the ring of entry 1. -/
def test_pass : TileRun := { op := test_op 0 0x62 (test_tileDesc 1 0), lanes := 128, started := true }

/-- An ATTN of core 0: one row against one token. -/
def test_attnDesc : Line64 :=
  test_desc [(0, 0, 0x64), (10, 0, 4), (11, 0, 4), (12, 0, 4), (13, 0, 4), (14, 0, 1), (15, 0, 1), (22, 0, 1), (29, 0, 4),
    (32, 0, 0x80), (38, 0, 16)]
def test_attn : Op := { test_op 0 0x64 test_attnDesc with pages := some [(0, 0, 0, 1)] }

/-- Core 0 of `test_bound` with operations at its issue point, and with tiles running. -/
def test_waits (o : Op) : Tbl Core := [(0, { test_bound.core 0 with waiting := [o] })]
def test_runs (l : List TileRun) : Tbl Core := [(0, { test_bound.core 0 with tiles := l })]

/-- A FULL page that two streams share, on core 2,040, with one frame a core. -/
def test_shared : State :=
  { test_with test_run [(.curGalR, [0], 0x101), (.curKvFrames, [], 1), (.curGal, [0], 4)] with
    cur := { pages := [(1, { st := .live, full := true, refs := 2, core := 2040, frame := 0 })] } }

/-- Plinth 0's cores, each with a chunk ring of two slots in entry 1. -/
def test_rings : State :=
  { test_run with cores := (List.range 256).map (fun c => (c, { phys := c, chan := c, handles := [(1, { st := .bound, lines := 512, fmt := 4, typed := true, ring := true })] })) }

def test_bcast : Broadcast :=
  { op := test_op 0 0x78 0, src := 0, fmt := 4, lanes := 128, elems := 160, pitch := 128, ahdl := 1, next := 0, total := 1 }

/-- An image of a program with no operations (R211). -/
def test_image : Bytes :=
  let h := toLE 60 (test_bits [(0, 0, 1), (2, 0, 4), (3, 0, 1), (4, 0, 100), (8, 0, 1), (10, 0, 4), (11, 0, 4), (12, 0, 4)])
  h ++ toLE 4 (crc32c h)

/-- Object 0, accessioned, of two panels on cores 5 and 6, mapped into gallery 0 from address 0x40000. -/
def test_obj : Obj := { accessioned := true, gal := 0, panels := 2, placed := true, cbase := 5, ppc := 1, t1ofs := 0, gmask := 1 }
def test_map : Mapping := { gal := 0, daddr := 0x40000, panels := 2, obj := 0 }
def test_objs : State :=
  { test_with test_run [(.glbT1Limit, [], 0x100000)] with tiers := { objs := [(0, test_obj)], maps := [test_map] } }
def test_tiers (x : Tiers) : State := { test_objs with tiers := x }

/-- A migration of panel 1 of object 0. -/
def test_mig (target : Nat) : Mig :=
  { op := test_op 9 0x6D 0, obj := 0, first := 1, count := 1, target := target, frames := [], left := [1] }

def test_rep : RepEntry := { kind := 1, plinth := 0, phys := 5, die := 0, bank := 0, row := 0, spare := 0 }

/-- Panel 1 of object 0 on core 6, its repair at the readback. -/
def test_readback : State :=
  test_tiers { test_objs.tiers with repairs := [{ obj := 0, panel := 1, stage := .readback }], panels := [(1, { tier := 1 })] }

/-- A step whose next operation is a hub operation of function `f`. -/
def test_hubDesc (f : Nat) : Line64 := test_desc [(0, 0, 0x78), (8, 0, f)]
def test_idle : LaneGroup := { test_group with outstanding := [] }
def test_body (d : Line64) : State :=
  { test_streams with doc := { test_streams.doc with progs := [(0, { dec := [d] })], groups := [test_idle] } }
def test_hub (f : Nat) : State := test_body (test_hubDesc f)

/-- The device the root of the beat, at beat 10. -/
def test_beat : State :=
  { test_with test_run [(.beatCtrl, [], 3)] with fab := { beat := { st := .root, cnt := 10, stratum := 0, started := true } } }

/-- A Carousel map of one group of two ranks. -/
def test_carGroup : CarGroup := { group := 5, g := 2, rank := 0, rarea := 0, rcap := 1024, members := [0, 1] }
def test_carMap : CarMap := { gen := 1, slots := [{ start := 0, len := 1, gidx := 0, cap := 1024 }], groups := [test_carGroup], image := [] }

def test_rec : TraceRec := { rec16 := 0, unit := 0x3000, beatHi := 0, fine := 0, keep := true, trig := false }

/-- A firmware image that passes every check. -/
def test_image0 : ImageInfo :=
  { kidx := 0, revoke := 0, svn := 1, digest := 0, layoutOk := true, keyOk := true, sigOk := true, bodyOk := true }

/-- A commit of the reset values with the least tables, under its own SEQ and CRC. -/
def test_commit : State :=
  { test_with test_up [(.glbCommitCrc, [], 1652905689), (.curTblLines, [], 16)] with ctl := { test_up.ctl with cBusy := true, cSeq := 1 } }

/-- Its commit string. -/
def test_commitWords : List Word :=
  List.replicate 8 0 ++ 32 :: List.replicate 132 0 ++ [16, 0, 0, 34997, 479232, 0, 0, 7, 0, 0] ++ List.replicate 8 54526848 ++ [0, 0]

/-- A left fold that evaluates each accumulator before the next step. -/
def test_fold {α : Type} (f : Nat → α → Nat) : Nat → List α → Nat
  | c, [] => c
  | c, x :: l => match f c x with
    | 0 => test_fold f 0 l
    | n + 1 => test_fold f (n + 1) l

theorem test_fold_eq {α : Type} (f : Nat → α → Nat) (l : List α) (c : Nat) : l.foldl f c = test_fold f c l := by
  induction l generalizing c with
  | nil => rfl
  | cons x l ih => rw [List.foldl_cons, ih, test_fold]; cases f c x <;> rfl

theorem test_commit_crc : test_commit.commitCrc = 1652905689 := by
  have h (s : State) (l : List Word) (hw : s.commitWords = l) :
      s.commitCrc = test_fold (fun c x => crc32cBit (c ^^^ x.toNat) 8) 0xFFFFFFFF ((l.map (fun w => toLE 4 w.toNat)).flatten) ^^^
        0xFFFFFFFF := by
    unfold State.commitCrc crc32c
    rw [hw, test_fold_eq]
  rw [h test_commit test_commitWords (by decide +kernel)]
  decide +kernel

/-- The device in RUN with its commit set as committed. -/
def test_committed : State := { test_run with ctl := { test_run.ctl with committed := some test_run.commitWords } }


/-! ### Links, windows and the carousel -/

/-- A header of a control packet, and of a DATA packet of a protocol sent in the current beat, from device 1 to this one. -/
def test_ctlHdr (ty : Nat) : Line16 := test_line16 [(0, 0, ty), (1, 0, 1), (12, 0, 1)]
def test_dataHdr (proto : Nat) : Line16 := test_line16 [(6, 0, 10), (7, 0, proto), (12, 0, 1)]

/-- The device the root of the beat at beat 10, with port 0 in a state. -/
def test_port (st : PortSt) : State := { test_beat with fab := { test_beat.fab with ports := [(0, { st := st })] } }
def test_net : State := test_port .up

/-- Window 3, open for device 1 to read and write. -/
def test_win : Window :=
  { st := .opened, endpoint := test_line16 [(0, 0, 4)], size := 64, perm := 3, peers := [BitVec.ofNat 32 (2 ^ 31 + 1)] }
def test_wins (w : Window) : State := { test_net with fab := { test_net.fab with windows := [(3, w)] } }
def test_sub : Line16 := test_line16 [(0, 0, 3), (6, 0, 64)]

/-- A running WIN_GET of 64 bytes from device 1, and a WIN_PUT. -/
def test_winMove (opcode : Nat) : DmaOp :=
  { op := test_op 5 opcode (test_desc [(8, 0, 4), (24, 0, 1), (40, 0, 64)]), chan := some 1, issued := true, begun := true,
    rd := 64, opid := 7, flight := [(0, 64, 6)] }
def test_winOps (x : DmaOp) : State :=
  { test_net with dma := { test_net.dma with ops := [x] }, hif := { test_net.hif with inflight := [x.op] } }

/-- The device with a carousel map, and a COLL of its group. -/
def test_car (cs : List CollRec) : State := { test_net with fab := { test_net.fab with carMap := some test_carMap, colls := cs } }
def test_coll : Line64 := test_desc [(8, 0, 5), (11, 0, 4), (13, 0, 4), (16, 0, 11), (24, 0, 32), (36, 0, 1024)]
def test_collRec : CollRec := { op := test_op 5 0x74 test_coll, group := test_carGroup, beat := 5 }
def test_collSub : Line16 := test_line16 [(0, 0, 5), (2, 0, 1), (4, 0, 11), (12, 0, 32), (14, 0, 1)]

/-- The beat unit in a state, with what it keeps of the neighbour on port 0. -/
def test_sync (b : BeatUnit) : State := { test_net with fab := { test_net.fab with beat := b } }
def test_peer : Peer := { seen := true, beat := 9, atBeat := 9, stratum := 3, streak := 3 }
/-- A sync word of beat `n` from the neighbour on port 0, whose stratum is 3 and whose parent is device 2. -/
def test_syncWord (n : Nat) : Line32 := test_line32 [(0, 0, n), (16, 0, 3), (17, 0, 7), (28, 0, 2)]

/-- Window 3 open for device 64, of another cabinet, which plane 0 leads to. -/
def test_far : State :=
  let w := { test_win with peers := [BitVec.ofNat 32 (2 ^ 31 + 64)] }
  { test_with test_beat [(.brlUpCfg, [], 1)] with
    fab := { test_beat.fab with ports := [(24, { st := .up })], windows := [(3, w)], planes := [(64, 1)] } }

/-- A DATA packet from port 0 that this device, slot 0, passes on to slot 2, and the device with ports 0 and 1 UP. -/
def test_viaHdr : Line16 := test_line16 [(6, 0, 10), (7, 0, 1), (8, 0, 2 + 64 * 2 ^ 17), (12, 0, 1)]
def test_via : State := { test_net with fab := { test_net.fab with ports := [(0, { st := .up }), (1, { st := .up })] } }

/-- Ring 0 whose one descriptor is being read, and the same after it was taken. -/
def test_polling : Poll := { doorbells := [0], descriptors := [(0, 1)] }
def test_poll (p : Poll) : State := { test_run with hif := { rings := [(0, { p0 := 1 })], poll := some p } }
def test_polled : State :=
  ((test_poll test_polling).setRing 0 { (test_poll test_polling).ring 0 with
    fidx := ((test_poll test_polling).ring 0).fidx + 1, phaseBad := 0 }).setPoll { test_polling with descriptors := [], fetched := [] }
def test_fetched (opcode phase crc : Nat) : Fetched := { d := test_desc [(0, 0, opcode), (60, 0, crc), (62, 0, phase)], aux := [] }

/-- The device with its SPDM connections at their last level, and with a session. -/
def test_spdm : State :=
  { test_with test_run [(.mgtCtrl, [], 3)] with sec := { test_run.sec with spdm := [(0, 3), (1, 3), (2, 3)] } }
def test_session (x : Session) : State := { test_spdm with sec := { test_spdm.sec with sessions := [(3, x)] } }

/-! ### Commands that are not well formed -/

def test_ring : Origin := .ring 0 0
def test_refusesAll (l : List Instr) : Bool := l.all (fun i => !i.wf)

/-- A descriptor whose opcode is none of its row. -/
theorem test_wf_opcodes : test_refusesAll (([.nop, .fence, .copy, .fill, .compare, .gather, .spStrided, .spTranspose, .t24Convert,
      .dmaStop, .streamAdmit, .append, .policy, .fork, .cancel, .release, .coreBind, .coreUnbind, .tile, .tileBs, .attn, .pageMove,
      .objCreate, .accession, .objMap, .objRelease, .migrate, .objPin, .objQuery, .winOpen, .winClose, .winPut, .winGet, .coll,
      .quiesce, .carLoad] : List (Origin → Line64 → Instr)).map (fun f => f test_ring 0)) = true := by decide +kernel

theorem test_wf_progLoad_opcode : Instr.wf (.progLoad test_ring 0 []) = false := by decide +kernel
/-- A hub operation without its opcode, with another function, and from a ring. -/
theorem test_wf_hub : test_refusesAll [.addnorm (.step 0) 0, .convert (.step 0) 0, .bcast (.step 0) 0, .merge (.step 0) 0,
      .psum (.step 0) 0, .sample (.step 0) 0, .addnorm (.step 0) (test_hubDesc 1), .convert (.step 0) (test_hubDesc 0),
      .bcast (.step 0) (test_hubDesc 3), .merge (.step 0) (test_hubDesc 2), .psum (.step 0) (test_hubDesc 5),
      .sample (.step 0) (test_hubDesc 4), .addnorm test_ring (test_hubDesc 0), .convert test_ring (test_hubDesc 1),
      .bcast test_ring (test_hubDesc 2), .merge test_ring (test_hubDesc 3), .psum test_ring (test_hubDesc 4),
      .sample test_ring (test_hubDesc 5)] = true := by decide +kernel

/-- A disturbance of a burst, a word or an entry that does not exist, under every command that takes one. -/
theorem test_wf_upsets : ([.burst 0 (2 ^ 28) 0, .burst 0 32 0, .scratch 0 32768 false, .hall (2 ^ 25) true,
      .acc 0 false 32768 0] : List Upset).all (fun u => test_refusesAll [.scrubRead 0 [u], .chunkLoadDone 0 [u],
        .tileComplete 0 [u], .accumulatorDrainDone 0 false [u], .annexTileComplete [u], .attnComplete 0 [u] [],
        .dmaUnitReadDone 0 [] [u], .dmaUnitWriteDone 0 [u], .channelRequestServe 0 [] [u], .channelSpareCopy 0 0 [u],
        .moverPanelStart [u], .readbackDone 0 0 [u], .getReq 0 (test_dataHdr 3) 0 0 [] [u]]) = true := by decide +kernel

/-- A channel request of no bytes, past its channel, and a write whose data are not as long as it. -/
theorem test_wf_requests : ([⟨.dma, 0, none, 0, 0, .read, 0⟩, ⟨.dma, 0, none, 2 ^ 28 - 1, 2, .read, 0⟩,
      ⟨.dma, 0, none, 0, 2, .write [1], 0⟩] : List ChanReq).all (fun r => test_refusesAll [.channelRequestServe 0 [r] []]) = true := by
  decide +kernel

/-- Lists and runs of bytes of another length than their structure has. -/
theorem test_wf_lengths : test_refusesAll [.summaryReadDone [0] [], .descriptorReadDone 0 (List.replicate 65 ⟨0, []⟩),
      .panelSwitch 0 0 [0], .referenceReadDone 0 0 [], .channelTrainingDone [], .thermalSample [], .challenge .doe 0 [],
      .debugUnlock 0 [] 0 true true] = true := by decide +kernel

/-- Runs of bytes longer than their command can carry, whatever they hold. -/
theorem test_wf_long_lengths (b : Bytes) (l : List Word) :
    (4096 < b.length → ∀ h x : Line16,
      Instr.wf (.dataForward 0 h b) = false ∧ Instr.wf (.put 0 h x b) = false ∧ Instr.wf (.getData 0 h x b) = false ∧
      Instr.wf (.collDataReceive 0 h x b) = false) ∧
    (12288 < b.length → Instr.wf (.setCertificate 0 0 b) = false) ∧
    (65536 < b.length → Instr.wf (.dmaUnitReadDone 0 b []) = false) ∧
    (2 ^ 20 ≤ b.length → Instr.wf (.mapImageReadDone 0 0 b) = false) ∧
    (2 ^ 24 ≤ b.length → ∀ d, Instr.wf (.progLoad test_ring d b) = false) ∧
    (32768 ≤ l.length → Instr.wf (.appendTokensReadDone 0 0 l) = false) := by
  simp +contextual [Instr.wf, payloadOk, chainOk, Nat.not_le, Nat.not_lt]

/-- A sample and a training result that no plinth gives. -/
theorem test_wf_plinths : test_refusesAll [.thermalSample (List.replicate 8 ⟨1024, 0⟩), .thermalSample (List.replicate 8 ⟨0, 1024⟩),
      .channelTrainingDone (List.replicate 8 ⟨[], [(0, 0, 8192)], []⟩),
      .channelTrainingDone (List.replicate 8 ⟨[], [], [(0, 0, 128)]⟩)] = true := by decide +kernel

/-- A register write whose word is not its row's. -/
theorem test_wf_words : test_refusesAll [.ringEnable 0 0 0, .ringDisable 0 0 1, .readRaw 0 0 0, .writeRaw 0 0 0, .rowSpare 0 0 0,
      .colSpare 0 0 0, .chSpare 0 0 0, .mapRead 0 0 0, .fencePop 0 0, .fenceClear 0 0, .sourceClear 0 0, .orderlyHold 0 0,
      .beatUnitStart 0 0, .beatUnitStop 0 1, .snapshot 0 0, .dump 0 0, .freeze 0 0, .thaw 0 0, .arm 0 0, .traceStop 0 0,
      .trigger 0 0, .commit 0 0, .revert 0 0] = true := by decide +kernel

/-- Accesses outside their window, of no bytes, of more than 8, and across a page or with data of another length. -/
theorem test_wf_accesses : test_refusesAll [.registerWrite 0 0 [] true, .registerWrite 0 (2 ^ 26) [0] true,
      .registerWrite 1 (2 ^ 20) [0] true, .counterPairRead 0 0 9, .counterPairRead 1 (2 ^ 20 - 4) 8, .debugApertureAccess 0 0 none,
      .debugApertureAccess 4095 2 none, .debugApertureAccess (2 ^ 36) 1 none, .debugApertureAccess 0 2 (some [0])] = true := by
  decide +kernel

/-- A packet of another type or protocol. -/
theorem test_wf_packets : test_refusesAll [.linkCtrlReceive 0 0 0, .dataForward 0 (test_ctlHdr 1) [], .syncReceive (.port 0) 0 0 0,
      .noticeReceive (.port 0) 0 0, .put 0 (test_dataHdr 2) 0 [], .put 0 (test_ctlHdr 1) 0 [], .getReq 0 0 0 0 [] [],
      .getData 0 0 0 [], .ack 0 0 0, .collDataReceive 0 0 0 [], .hole 0 0 0] = true := by decide +kernel

/-- The PF where a VF is meant, DOE where it carries no message of the kind, numbers out of range, and links that do not train. -/
theorem test_wf_others : test_refusesAll [.vfFunctionLevelReset 0, .lockInterface 0, .startInterface 0, .stopInterface 0,
      .mctpMessage .doe 0, .pldmFirmwareUpdate .doe 0 none, .getCertificate .doe 0 65536 0, .getCertificate .doe 0 0 65536,
      .getMeasurements .doe 256, .pcieLinkTrained 1 5 true, .pcieLinkTrained 16 0 true, .pcieLinkTrained 16 8 true] = true := by
  decide +kernel

/-- Well-formed commands of each kind. -/
theorem test_wf_accepts : ([.nop test_ring (test_desc [(0, 0, 1)]), .convert (.step 0) (test_hubDesc 1), .put 0 (test_dataHdr 1) 0 [],
      .ringEnable 0 0 1, .scrubRead 0 [.burst 0 64 0], .counterPairRead 1 (2 ^ 20 - 8) 8, .pcieLinkTrained 16 5 true,
      .vfFunctionLevelReset 63] : List Instr).all Instr.wf = true := by decide +kernel

/-- No row of the table of commands gives bits, so no word spells a command. -/
theorem test_decode_none (n w : Nat) : decodeTableWord n w = none ∧ State.reset.withFetchWord n w = State.reset := ⟨rfl, rfl⟩

/-! ### Values the manual works out -/

/-- R239 and R485: both checks over the nine ASCII bytes "123456789". -/
theorem test_checks : crc16 [0x31, 0x32, 0x33, 0x34, 0x35, 0x36, 0x37, 0x38, 0x39] = 0x29B1 ∧
    crc32c [0x31, 0x32, 0x33, 0x34, 0x35, 0x36, 0x37, 0x38, 0x39] = 0xE3069283 := by decide +kernel

/-- Chapter 2's example of R26 and R27: 0x9A packs (+1, 0, −1, −1, +1). -/
theorem test_t16 : t16Byte 0x9A = ([1, 0, -1, -1, 1], true) := by decide +kernel

/-- Chapter 2's key written to its page: the scale byte is 122, and 2,900 and −700 round up where the draw is below 340 and 324. -/
theorem test_key_write :
    narrowShift 4 (-14) [.ofInt 2900 (-14), .ofInt (-700) (-14), .ofInt 3 (-14)] + 127 = 122 ∧
    narrowElem 4 (.ofInt 2900 (-9)) 339 = 6 ∧ narrowElem 4 (.ofInt 2900 (-9)) 340 = 5 ∧
    narrowElem 4 (.ofInt (-700) (-9)) 323 = 15 ∧ narrowElem 4 (.ofInt (-700) (-9)) 324 = 14 := by decide +kernel

/-- Chapter 6's three tokens: the log weights of R150 for dimension 128, and token 1's and 3's codes and thresholds. -/
theorem test_log_weights :
    let p : AParams := { qfmt := 4, kfmt := 4, vfmt := 4, hdim := 4, rows := 1, mask := true, gqa := 1, qpos := 0, cexp := 0,
                         cterms := [0x83, 0x89, 0x8B, 0x8E, 0x90], sepia := false }
    logWeight p 1500 (-6) = (12239, false) ∧ logWeight p 1200 (-6) = (9792, false) ∧ logWeight p 300 (-6) = (2447, false) := by
  decide +kernel
theorem test_lns4 : theta 499 = 63576 ∧ theta 400 = 49200 ∧ theta 99 = 10966 ∧ lns4Code (-13) 63575 = 15 ∧
    lns4Code (-13) 63576 = 14 ∧ lns4Code (-2461) 10966 = 10 := by decide +kernel

/-- Chapter 19's local ring 3 of gallery 5. -/
theorem test_ring_registers : regOff .hifSqLo [323] = 0x112860 ∧ regOff .hifFidx [323] = 0x13050C ∧
    vfReg 5 0x10060 = some (.hifSqLo, [323]) ∧ vfReg 5 0x3000C = some (.hifFidx, [323]) := by decide +kernel

/-- Chapter 13's device A with every link to device B's shelf and position UP, and without the links (0, 5) to (0, 9) and (2, 5) to
(2, 9). -/
def test_routes (first second : Bool) : State :=
  { test_with test_beat [(.brlId, [], 7269)] with
    fab := { test_beat.fab with
      ports := [(3, { st := if second then .up else .down }), (4, { st := .up }), (18, { st := .up }), (19, { st := .up }), (20, { st := .up })]
      links := [(linkKey 5 3, first), (linkKey 41 18, true), (linkKey 41 19, true), (linkKey 41 20, true), (linkKey 42 18, true),
        (linkKey 42 19, true), (linkKey 42 20, true), (linkKey 10 14, true)] } }
theorem test_route_1 : (test_routes true true).wayTo 7241 43 = some (19, [5], false) := by decide +kernel
theorem test_route_2 : (test_routes false true).wayTo 7241 43 = some (3, [41], true) := by decide +kernel
theorem test_route_3 : (test_routes false false).wayTo 7241 43 = some (4, [42, 10], true) := by decide +kernel

/-! ### One step -/

/-- The state after one command, for a command that goes on. -/
def test_after (c : Instr) (s : State) : State := match step { s with pending := [c] } with | .next t => t | _ => s

/-- R498 and chapter 19: GLB_ID reads 0x0007_0100. -/
theorem test_glb_id : (test_after (.counterPairRead 0 0 4) test_up).out = [.readData 0 [0x00, 0x01, 0x07, 0x00] false] := by decide +kernel

/-- R238, chapter 9's torn doorbell: PIDX 1,284 beside PIDX2 1,283 counts HIF_DB_TORN and reads the record again. -/
theorem test_torn : (test_after (.doorbellReadDone 0 (test_desc [(0, 0, 1284), (60, 0, 1283)])) (test_poll test_polling)).counter .hifDbTorn 0 0 = 1 := by
  decide +kernel

/-- R473: outside RUN a descriptor changes nothing. -/
theorem test_hold_nop : test_after (.nop test_ring (test_desc [(0, 0, 1)])) test_up = test_up := by decide +kernel

/-- R376: a quiesce asked for in beat 10 takes Q = 32. -/
theorem test_quiesce : (test_after (.quiesce test_ring (test_desc [(0, 0, 0x75)])) test_beat).fab.quiesces.map (fun x => x.q) = [32] := by
  decide +kernel

/-- R396: a closing window's generation moves on, and its gallery keeps it. -/
theorem test_win_close : ((test_after (.winClose test_ring (test_desc [(0, 0, 0x71), (8, 0, 3)])) (test_wins test_win)).window 3).gen = 1 := by
  decide +kernel

/-! ### Hypotheses that can be met: one theorem for each clause of a statement -/

theorem test_meets_DmaRuns_1 : ∀ x ∈ dmaRows, ∃ (o : Origin) (d : Line64) (s : State), s.Accepts o d x.opcode x.checks := by
  unfold dmaRows State.Accepts
  simp only [List.forall_mem_cons]
  exact ⟨⟨.ring 63 0, test_desc [(8, 0, 2), (40, 0, 64)], test_run, by decide +kernel⟩,
    ⟨.ring 0 0, test_fillDesc, test_run, by decide +kernel⟩,
    ⟨.ring 0 0, test_desc [(8, 0, 2), (24, 0, 4), (40, 0, 0xFFFFFFF)], test_run, by decide +kernel⟩,
    ⟨.ring 0 0, test_desc [(8, 0, 4), (12, 0, 1), (20, 0, 2), (40, 0, 4096)], test_streams, by decide +kernel⟩,
    ⟨.ring 0 0, test_desc [(8, 0, 3), (40, 0, 6), (44, 0, 1), (48, 0, 64)], test_bound, by decide +kernel⟩,
    ⟨.ring 0 0, test_desc [(8, 0, 3), (42, 0, 1), (44, 0, 1), (46, 0, 64)], test_bound, by decide +kernel⟩,
    ⟨.ring 0 0, test_desc [(40, 0, 1), (42, 0, 1), (44, 0, 7), (48, 0, 1)], test_run, by decide +kernel⟩, by simp⟩

theorem test_meets_CoreOpsIssue_1 : ∀ x ∈ coreRows, ∃ (o : Origin) (d : Line64) (s : State), s.Accepts o d x.opcode x.checks := by
  unfold coreRows State.Accepts
  simp only [List.forall_mem_cons]
  exact ⟨⟨.ring 0 0, test_tileDesc 0 1, test_bound, by decide +kernel⟩,
    ⟨.ring 0 0, test_desc [(11, 0, 0x44), (18, 0, 1), (19, 0, 1), (20, 0, 1), (22, 0, 4096)], test_bound, by decide +kernel⟩,
    ⟨.ring 0 0, test_attnDesc, test_bound, by decide +kernel⟩, by simp⟩

theorem test_meets_HubRuns_1 : ∀ x ∈ hubRows, ∃ (o : Origin) (d : Line64) (s : State), s.Accepts o d 0x78 x.checks := by
  unfold hubRows State.Accepts
  simp only [List.forall_mem_cons]
  exact ⟨⟨.step 0, test_desc [(11, 0, 1)], test_run, by decide +kernel⟩,
    ⟨.step 0, test_desc [(8, 0, 1), (9, 0, 0x11), (11, 0, 128)], test_run, by decide +kernel⟩,
    ⟨.step 0, test_desc [(8, 0, 3), (11, 0, 1), (43, 0, 2)], test_run, by decide +kernel⟩,
    ⟨.step 0, test_desc [(8, 0, 4), (11, 0, 1), (43, 0, 64)], test_run, by decide +kernel⟩,
    ⟨.step 0, test_desc [(8, 0, 5), (11, 0, 1)], test_run, by decide +kernel⟩, by simp⟩

theorem test_meets_StepsRun_1 : ∀ x ∈ ([(0, .addnorm), (1, .convert), (2, .bcast), (3, .merge), (4, .psum), (5, .sample)] :
      List (Nat × (Origin → Line64 → Instr))), ∃ (gid : Nat) (g : LaneGroup) (d : Line64) (s : State), s.running = true ∧
    s.laneGroup? gid = some g ∧ (s.body g)[g.next]? = some d ∧ perStream d = false ∧ fld d 0 7 0 = 0x78 ∧ fld d 8 2 0 = x.1 ∧
    (barrier d = false ∨ g.outstanding = []) := by
  have h : ∀ f ∈ [0, 1, 2, 3, 4, 5], (test_hub f).running = true ∧ (test_hub f).laneGroup? 0 = some test_idle ∧
      ((test_hub f).body test_idle)[0]? = some (test_hubDesc f) ∧ perStream (test_hubDesc f) = false ∧
      fld (test_hubDesc f) 0 7 0 = 0x78 ∧ fld (test_hubDesc f) 8 2 0 = f ∧
      (barrier (test_hubDesc f) = false ∨ test_idle.outstanding = []) := by decide +kernel
  intro x hx
  exact ⟨0, test_idle, test_hubDesc x.1, test_hub x.1, h x.1 (by simp at hx ⊢; rcases hx with h | h | h | h | h | h <;> simp [h])⟩

theorem test_meets_StepsRun_2 : ∀ x ∈ ([(0x20, .copy), (0x21, .fill), (0x22, .compare), (0x23, .gather), (0x24, .spStrided),
      (0x25, .spTranspose), (0x26, .t24Convert), (0x27, .dmaStop), (0x74, .coll)] : List (Nat × (Origin → Line64 → Instr))),
    ∃ (gid : Nat) (g : LaneGroup) (d : Line64) (s : State), s.running = true ∧ s.laneGroup? gid = some g ∧
    (s.body g)[g.next]? = some d ∧ perStream d = false ∧ fld d 0 7 0 = x.1 ∧ (barrier d = false ∨ g.outstanding = []) := by
  have h : ∀ f ∈ [0x20, 0x21, 0x22, 0x23, 0x24, 0x25, 0x26, 0x27, 0x74], (test_body (test_desc [(0, 0, f)])).running = true ∧
      (test_body (test_desc [(0, 0, f)])).laneGroup? 0 = some test_idle ∧
      ((test_body (test_desc [(0, 0, f)])).body test_idle)[0]? = some (test_desc [(0, 0, f)]) ∧
      perStream (test_desc [(0, 0, f)]) = false ∧ fld (test_desc [(0, 0, f)]) 0 7 0 = f ∧
      (barrier (test_desc [(0, 0, f)]) = false ∨ test_idle.outstanding = []) := by decide +kernel
  intro x hx
  exact ⟨0, test_idle, test_desc [(0, 0, x.1)], test_body (test_desc [(0, 0, x.1)]), h x.1 (by
    simp at hx ⊢; rcases hx with h | h | h | h | h | h | h | h | h <;> simp [h])⟩

theorem test_meets_StepsRun_3 : ∀ x ∈ ([(0x62, .tile), (0x63, .tileBs), (0x64, .attn)] : List (Nat × (Origin → Line64 → Instr))),
    ∃ (gid : Nat) (g : LaneGroup) (d : Line64) (s : State), s.running = true ∧ s.laneGroup? gid = some g ∧
    (s.body g)[g.next]? = some d ∧ perStream d = false ∧ fan d = 1 ∧ fld d 0 7 0 = x.1 ∧
    (barrier d = false ∨ g.outstanding = []) := by
  have h : ∀ f ∈ [0x62, 0x63, 0x64], (test_body (test_desc [(0, 0, f), (2, 0, 1)])).running = true ∧
      (test_body (test_desc [(0, 0, f), (2, 0, 1)])).laneGroup? 0 = some test_idle ∧
      ((test_body (test_desc [(0, 0, f), (2, 0, 1)])).body test_idle)[0]? = some (test_desc [(0, 0, f), (2, 0, 1)]) ∧
      perStream (test_desc [(0, 0, f), (2, 0, 1)]) = false ∧ fan (test_desc [(0, 0, f), (2, 0, 1)]) = 1 ∧ fld (test_desc [(0, 0, f), (2, 0, 1)]) 0 7 0 = f ∧
      (barrier (test_desc [(0, 0, f), (2, 0, 1)]) = false ∨ test_idle.outstanding = []) := by decide +kernel
  intro x hx
  exact ⟨0, test_idle, test_desc [(0, 0, x.1), (2, 0, 1)], test_body (test_desc [(0, 0, x.1), (2, 0, 1)]), h x.1 (by
    simp at hx ⊢; rcases hx with h | h | h <;> simp [h])⟩

theorem test_meets_DeviceStates_2 : ∃ s : State, s.alive = true ∧ s.ctl.cBusy = true ∧ s.commitFailure = none := by
  have h (s : State) (hc : s.field .glbCommitCrc [] 31 0 = s.commitCrc) (h1 : s.ctl.short = 0) (h2 : s.tooHot = false)
      (h3 : s.ctl.cSeq.toNat = nextSeq s.ctl.cLast.toNat)
      (hr : s.failRange ++ s.failCurator ++ s.failStreams ++ s.failRefresh ++ s.failTiers ++ s.failTrace ++ s.failLive = []) :
      s.commitFailure = none := by
    simp only [List.append_eq_nil_iff] at hr
    obtain ⟨⟨⟨⟨⟨⟨a, b⟩, c⟩, d⟩, e⟩, f⟩, g⟩ := hr
    simp [State.commitFailure, State.commitChecks, failAt, hc, h1, h2, h3, a, b, c, d, e, f, g]
  exact ⟨test_commit, by decide +kernel, by decide +kernel,
    h _ (by rw [test_commit_crc]; decide +kernel) (by decide +kernel) (by decide +kernel) (by decide +kernel) (by decide +kernel)⟩


theorem test_meets_DescriptorTaken_2 : ∃ (r : RingNo) (s u : State) (p : Poll) (n : Nat), s.hif.poll = some p ∧
    p.descriptors = [(r.val, n + 1)] ∧ p.fetched = [] ∧ s.running = true ∧ (s.ring r.val).fidx ≠ (s.ring r.val).p0 ∧
    (s.ring r.val).halt = false ∧
    u = (s.setRing r.val { s.ring r.val with fidx := (s.ring r.val).fidx + 1, phaseBad := 0 }).setPoll
      { p with descriptors := [], fetched := [] } ∧
    (∃ f : Fetched, ∃ x ∈ descRows, ∃ v, x.opcode ≠ 0x78 ∧ fld f.d 0 7 0 = x.opcode ∧
      fbit f.d 62 0 = s.phaseOf r.val (s.ring r.val).fidx ∧ fld f.d 60 15 0 = descCrc f.d ∧
      exec (x.make (.ring r (s.ring r.val).fidx) f.d) u = .next v) ∧
    (∃ f : Fetched, fbit f.d 62 0 = s.phaseOf r.val (s.ring r.val).fidx ∧ fld f.d 60 15 0 ≠ descCrc f.d) ∧
    (∃ f : Fetched, fbit f.d 62 0 = s.phaseOf r.val (s.ring r.val).fidx ∧ fld f.d 60 15 0 = descCrc f.d ∧
      fld f.d 0 7 0 ∈ [0x00, 0x03, 0x1F, 0x28, 0x3F, 0x47, 0x5F, 0x65, 0x67, 0x77, 0x79, 0xFF]) ∧
    u.fenced r.val = false ∧ u.cutOff (r.val / 64) = false ∧
    (∃ f : Fetched, fbit f.d 62 0 ≠ s.phaseOf r.val (s.ring r.val).fidx ∧ (s.ring r.val).phaseBad < 3) :=
  ⟨0, test_poll test_polling, test_polled, test_polling, 0, by decide +kernel, by decide +kernel, by decide +kernel, by decide +kernel,
    by decide +kernel, by decide +kernel, rfl,
    ⟨test_fetched 1 1 33078, ⟨.nop, 0x01, emptyChecks⟩, by simp [descRows], _, by decide +kernel, by decide +kernel,
      by decide +kernel, by decide +kernel, rfl⟩,
    ⟨test_fetched 1 1 0, by decide +kernel⟩, ⟨test_fetched 0xFF 1 11541, by decide +kernel⟩, by decide +kernel, by decide +kernel,
    ⟨test_fetched 1 0 0, by decide +kernel⟩⟩

theorem test_meets_FailedReadHaltsRing_1 : ∃ (r : RingNo) (s : State) (p : Poll), s.hif.poll = some p ∧ s.running = true ∧
    p.doorbells.contains r.val = true ∧ p.descriptors.any (fun d => d.1 == r.val) = true ∧
    (p.fetched = [] ∨ p.descriptors.any (fun d => d.1 != r.val) = true) :=
  ⟨0, test_poll test_polling, test_polling, by decide +kernel⟩

theorem test_meets_DescriptorsTurnedAway_1 : ∀ x ∈ descRows, ∃ (r : RingNo) (i : Word) (d : Line64) (s : State) (v : Done),
    s.running = true ∧ s.judged (.ring r i) d x.opcode x.checks = some v ∧ s.fenced r.val = false ∧ s.cutOff (r.val / 64) = false := by
  have h : ∀ x ∈ descRows, (test_run.judged (.ring 0 0) (test_desc [(63, 0, 1)]) x.opcode x.checks).isSome = true :=
    @of_decide_eq_true _ (List.decidableBAll _ _) (by decide +kernel)
  intro x hx
  obtain ⟨v, hv⟩ := Option.isSome_iff_exists.mp (h x hx)
  exact ⟨0, 0, test_desc [(63, 0, 1)], test_run, v, by decide +kernel, hv, by decide +kernel, by decide +kernel⟩

theorem test_meets_DescriptorsTurnedAway_2 : (∃ x, x ∈ descRows) ∧ ∃ s : State, s.running = false :=
  ⟨⟨⟨.nop, 0x01, emptyChecks⟩, by simp [descRows]⟩, test_up, by decide +kernel⟩

theorem test_meets_BeatsAndTicks_4_cases :
    let s (st : TraceSt) : State := { test_with test_beat [(.catTrBeatLo, [], 10)] with cat := { trace := { st := st } } }
    (∀ st, (s st).alive = true ∧ (s st).beatOff = false ∧ 0 < (s st).beat ∧
      (s st).written .catTrBeatLo [] + (s st).written .catTrBeatHi [] * 2 ^ 32 = (s st).beat) ∧
    (s .armed).cat.trace.st = .armed ∧ (s .armed).circular = true ∧ (s .armed).cat.trace.gap = 0 ∧
    (s .triggered).cat.trace.st = .triggered := by
  refine ⟨fun st => by cases st <;> decide +kernel, by decide +kernel⟩

theorem test_meets_TraceRuns_3_cases :
    let s : State := { test_run with cat := { trace := { st := .triggered } } }
    s.pfWrite 0 = true ∧ bits (3 : Word).toNat 1 0 = 3 ∧ s.cat.trace.st = .triggered := by decide +kernel

theorem test_meets_AttestationServes_5_cases : test_spdm.spdmUp .smbus = true ∧ 3 ≤ test_spdm.spdm .smbus ∧
    test_spdm.chain 1 = none := by decide +kernel

theorem test_meets_SessionsServe_1_cases :
    let s : State := { test_spdm with sec := { test_spdm.sec with sessions := (List.range 4).map (fun n => (n, { open_ := true })) } }
    s.spdmUp .smbus = true ∧ 3 ≤ s.spdm .smbus ∧ ∀ n, n < 4 → (s.session n).open_ = true := by decide +kernel

theorem test_meets_IncidentQueue_4 : ∃ (w : Word) (s : State), s.pfWrite 0 = true ∧ w.getLsbD 0 = true ∧ s.flag .rasCtrl [] 0 = false :=
  ⟨1, test_run, by decide +kernel⟩

theorem test_meets_StepRunsFront_2 : ∃ (s : State), s.pending = [] :=
  ⟨test_run,
   by decide +kernel⟩

theorem test_meets_RpmcNeverFalls_1 : ∃ (n k : Nat) (s t : State), k < 5 ∧ s.Rollback n k ∧ step s = .next t :=
  ⟨0, 0, { State.reset with sec := { flash := { rpmcKey := true } } }, { State.reset with sec := { flash := { rpmcKey := true } } },
   by unfold State.Rollback; exact ⟨by decide, by decide, rfl⟩⟩

theorem test_meets_StepsKeepMemory_1 : ∃ (s t : State), s.MemOk ∧ step s = .next t :=
  ⟨State.reset, State.reset,
   by unfold State.MemOk; exact ⟨by decide, rfl⟩⟩

theorem test_meets_IntervalEnds_1 : ∃ (r : RingNo) (s : State), s.alive = true ∧ (s.ring r.val).intEnd = true ∧ s.cutOff (r.val
    / 64) = false :=
  ⟨4095,
   { test_with test_run [(.hifRcfg, [4095], 0x8004D)] with hif := { rings := [(4095, { intEnd := true })] } },
   by decide +kernel⟩

theorem test_meets_IntervalEnds_2 : ∃ (s : State), s.alive = true ∧ s.ras.intEnd = true ∧ s.cutOff 0 = false :=
  ⟨{ test_with test_run [(.rasIcfg, [], 0x30006)] with ras := { intEnd := true } },
   by decide +kernel⟩

theorem test_meets_FencesSetAndClear_1 : ∃ (w : Word) (s : State), s.pfWrite 0 = true ∧ bits w.toNat 13 12 = 1 ∧ Tbl.sorted
    s.cores = true :=
  ⟨0x17FF, test_run,
   by decide +kernel⟩

theorem test_meets_FencesSetAndClear_2 : ∃ (w : Word) (s : State), s.pfWrite 0 = true ∧ bits w.toNat 13 12 = 2 :=
  ⟨0x2000, test_run,
   by decide +kernel⟩

theorem test_meets_FencesSetAndClear_3 : ∃ (s : State), s.alive = true ∧ Tbl.sorted s.cores = true :=
  ⟨test_run,
   by decide +kernel⟩

theorem test_meets_IncidentQueue_1 : ∃ (s : State) (r : Incident) (l : List Incident), s.alive = true ∧ s.ras.queue = r :: l ∧
    s.flag .rasCtrl [] 0 = true ∧ s.incidentFull = false ∧ s.cutOff 0 = false :=
  ⟨{ test_with test_run [(.rasCtrl, [], 1)] with ras := { queue := [{ source := 0x3000, count := 1 }] } },
   { source := 0x3000, count := 1 }, [],
   by decide +kernel⟩

theorem test_meets_IncidentQueue_2 : ∃ (s : State), s.alive = true ∧ Tbl.sorted s.ras.sources = true :=
  ⟨test_run,
   by decide +kernel⟩

theorem test_meets_IncidentQueue_3 : ∃ (w : Word) (s : State), s.pfWrite 0 = true ∧ w.getLsbD 0 = true :=
  ⟨1, test_run,
   by decide +kernel⟩

theorem test_meets_RingEnableDisable_1 : ∃ (f : GalNo) (r : RingNo) (w : Word) (s : State), s.barUp = true ∧ reachesRing f.val
    r.val = true ∧ w.getLsbD 0 = true ∧ s.flag .hifRcfg [r.val] 0 = false ∧ s.ringActive r.val = false ∧ (¬ (f.val = 0 ∧
    s.tdiLocked (r.val / 64) = true)) ∧ 6 ≤ bits w.toNat 5 1 ∧ bits w.toNat 5 1 ≤ 16 ∧ bits w.toNat 7 6 ≠ 0 ∧ (s.enabledRings
    (r.val / 64)).length < s.field .hifGal [r.val / 64] 6 0 :=
  ⟨0, 4095, 0x61, test_with test_run [(.hifGal, [63], 0x4001)],
   by decide +kernel⟩

theorem test_meets_RingEnableDisable_2 : ∃ (f : GalNo) (r : RingNo) (w : Word) (s : State), s.barUp = true ∧ reachesRing f.val
    r.val = true ∧ w.getLsbD 0 = false ∧ (¬ (f.val = 0 ∧ s.tdiLocked (r.val / 64) = true)) :=
  ⟨63, 4095, 0x4C, test_with test_run [(.hifRcfg, [4095], 0x4D)],
   by decide +kernel⟩

theorem test_meets_PollTaken_1 : ∃ (_lines : List (BitVec 64)) (_sep : List SepSummary) (s : State) (p : Poll), s.hif.poll =
    some p ∧ s.running = true ∧ p.summary = true ∧ p.sep = [] :=
  ⟨List.replicate 64 0, [], { test_run with hif := { poll := some { summary := true } } }, { summary := true },
   by decide +kernel⟩

theorem test_meets_PollTaken_2 : ∃ (r : RingNo) (d : Line64) (s : State) (p : Poll), s.hif.poll = some p ∧ s.running = true ∧
    p.doorbells.contains r.val = true ∧ fld d 0 31 0 = fld d 60 31 0 ∧ fld d 4 31 0 = fld d 56 31 0 ∧ cdiff (s.ring r.val).p0
    (s.ring r.val).fidx ≤ cdiff (BitVec.ofNat 32 (fld d 0 31 0)) (s.ring r.val).fidx ∧ cdiff (BitVec.ofNat 32 (fld d 0 31 0))
    (s.ring r.val).fidx ≤ s.ringSize r.val ∧ cdiff (BitVec.ofNat 32 (fld d 4 31 0)) (s.ring r.val).c0 ≤ cdiff (s.ring r.val).cw
    (s.ring r.val).c0 :=
  ⟨4095, test_desc [(0, 0, 64), (60, 0, 64)],
   { test_run with hif := { poll := some { doorbells := [4095] } } }, { doorbells := [4095] },
   by decide +kernel⟩

theorem test_meets_PollTaken_3 : ∃ (r : RingNo) (d : Line64) (s : State) (p : Poll), s.hif.poll = some p ∧ s.running = true ∧
    p.doorbells.contains r.val = true ∧ (¬ (fld d 0 31 0 = fld d 60 31 0 ∧ fld d 4 31 0 = fld d 56 31 0)) :=
  ⟨0, test_desc [(0, 0, 1)], { test_run with hif := { poll := some { doorbells := [0] } } }, { doorbells := [0] },
   by decide +kernel⟩

theorem test_meets_PollTaken_4 : ∃ (k : StreamNo) (d : Line64) (v : Word) (s : State) (p : Poll), s.hif.poll = some p ∧
    s.running = true ∧ p.consumers.contains k.val = true ∧ lineCons d = some v ∧ cdiff v (s.ctx k.val).cons ≤ cdiff (s.ctx
    k.val).prod (s.ctx k.val).cons :=
  ⟨32767, 0, 0, { test_run with hif := { poll := some { consumers := [32767] } } }, { consumers := [32767] },
   by decide +kernel⟩

theorem test_meets_PollTaken_5 : ∃ (d : Line64) (v : Word) (s : State) (p : Poll), s.hif.poll = some p ∧ s.running = true ∧
    p.incident = true ∧ lineCons d = some v ∧ cdiff v s.ras.cons ≤ cdiff s.ras.w s.ras.cons :=
  ⟨test_desc [(0, 0, 1), (60, 0, 1)], 1,
   { test_run with hif := { poll := some { incident := true } }, ras := { w := 1 } }, { incident := true },
   by decide +kernel⟩

theorem test_meets_DescriptorTaken_1 : ∃ (r : RingNo) (f : Fetched) (s : State) (p : Poll) (n : Nat), s.hif.poll = some p ∧
    s.running = true ∧ p.descriptors.find? (fun d => d.1 == r.val) = some (r.val, n + 1) ∧ p.descriptors.any (fun d => d.1 !=
    r.val) = true ∧ (s.ring r.val).fidx ≠ (s.ring r.val).p0 ∧ (s.ring r.val).halt = false ∧ fbit f.d 62 0 = s.phaseOf r.val
    (s.ring r.val).fidx :=
  ⟨0, test_fetched 1 1 33078, test_poll { test_polling with descriptors := [(0, 1), (64, 1)] }, { test_polling with descriptors := [(0, 1), (64, 1)] }, 0,
   by decide +kernel⟩

theorem test_meets_NopAndFence_1 : ∃ (r : RingNo) (i : Word) (d : Line64) (s : State), s.Accepts (.ring r i) d 0x01 emptyChecks
    ∧ s.fenced r.val = false ∧ s.cutOff (r.val / 64) = false :=
  ⟨4095, 0xFFFFFFFF, test_desc [(0, 0, 1)], test_run,
   by unfold State.Accepts; decide +kernel⟩

theorem test_meets_NopAndFence_2 : ∃ (r : RingNo) (i : Word) (d : Line64) (s : State), s.Accepts (.ring r i) d 0x02 emptyChecks
    ∧ s.fenced r.val = false ∧ s.cutOff (r.val / 64) = false ∧ s.inflightOf r.val = [] :=
  ⟨0, 0, test_desc [(0, 0, 2)], test_run,
   by unfold State.Accepts; decide +kernel⟩

theorem test_meets_NopAndFence_3 : ∃ (r : RingNo) (i : Word) (d : Line64) (s : State), s.Accepts (.ring r i) d 0x02 emptyChecks
    ∧ s.fenced r.val = false ∧ (∃ p ∈ s.inflightOf r.val, p.id < s.nextOp) :=
  ⟨0, 0, test_desc [(0, 0, 2)], { test_run with nextOp := 1, hif := { inflight := [test_op 0 1 0] } },
   by unfold State.Accepts; decide +kernel⟩

theorem test_meets_DmaRuns_2 : ∃ (s : State) (x : DmaOp), s.running = true ∧ x ∈ s.dma.ops ∧ x.chan = none ∧ (s.freeChannel
    x.op).isSome = true ∧ x.op.cls < 4 :=
  ⟨{ test_run with dma := { ops := [{ op := test_op 0 0x21 (test_desc [(0, 0, 0x21)]) }] } }, { op := test_op 0 0x21 (test_desc [(0, 0, 0x21)]) },
   by decide +kernel⟩

theorem test_meets_DmaRuns_3 : ∃ (c : Fin 256) (_data : Bytes) (ups : List Upset) (s u : State) (x : DmaOp), u = s.upsets ups ∧
    u.dma.ops.find? (fun y => y.chan == some c.val) = some x ∧ u.running = true ∧ x.op.opcode = opCopy ∧ u.unitReady x = true ∧
    c.val ∈ u.dma.rdEng ∧ (∀ z ∈ u.dma.ops, z.op.id = x.op.id → z = x) ∧ (Ep.of x.op.d 8).channel = true ∧ (Ep.of x.op.d
    8).host = false ∧ (u.chan (Ep.of x.op.d 8).core).queue = [] ∧ u.chanErrors (u.core (Ep.of x.op.d 8).core).chan ((Ep.of
    x.op.d 8).addr + x.rd) (u.unitEnd x.op x.rd - x.rd) = [] :=
  ⟨255, [], [], { test_run with dma := { ops := [test_copy], rdEng := [255] } }, { test_run with dma := { ops := [test_copy], rdEng := [255] } }, test_copy,
   ⟨rfl, by decide +kernel, by decide +kernel, by decide +kernel, by decide +kernel, by decide +kernel, by decide +kernel,
by decide +kernel, by decide +kernel, by decide +kernel, by decide +kernel⟩⟩

theorem test_meets_DmaRuns_4 : ∃ (c : Fin 256) (ups : List Upset) (s u : State) (x : DmaOp), u = s.upsets ups ∧ u.dma.ops.find?
    (fun y => y.chan == some c.val) = some x ∧ u.running = true ∧ x.op.opcode = opFill ∧ u.unitWritable x = true ∧ c.val ∈
    u.dma.wrEng ∧ (∀ z ∈ u.dma.ops, z.op.id = x.op.id → z = x) ∧ (Ep.of x.op.d 24).channel = true ∧ (Ep.of x.op.d 24).host =
    false ∧ (Ep.of x.op.d 24).device = false ∧ (Ep.of x.op.d 24).scratch = false ∧ (u.chan (Ep.of x.op.d 24).core).queue = [] ∧
    (u.plinth ((Ep.of x.op.d 24).core / 256)).chSpares = [] :=
  ⟨32, [], { test_run with dma := { ops := [test_fill], wrEng := [32] } }, { test_run with dma := { ops := [test_fill], wrEng := [32] } }, test_fill,
   ⟨rfl, by decide +kernel⟩⟩

theorem test_meets_DmaStops_1 : ∃ (r : RingNo) (i : Word) (d : Line64) (s : State), s.Accepts (.ring r i) d 0x27 dmaStopChecks
    ∧ (∀ y ∈ s.dma.ops, y.inScope (s.asOp (.ring r i) d 0x27) = true → y.begun = false) ∧ s.dma.stops = [] ∧ (∀ m ∈
    s.tiers.maps, m.release = none) ∧ s.tiers.objWait = [] :=
  ⟨0, 0, test_desc [(0, 0, 0x27)], test_run,
   by unfold State.Accepts; decide +kernel⟩

theorem test_meets_DmaStops_2 : ∃ (r : RingNo) (i : Word) (d : Line64) (s : State), s.Accepts (.ring r i) d 0x27 dmaStopChecks
    ∧ (∀ y ∈ s.dma.ops, y.inScope (s.asOp (.ring r i) d 0x27) = false) ∧ s.fenced r.val = false ∧ s.cutOff (r.val / 64) = false
    :=
  ⟨0, 1, test_desc [(0, 0, 0x27)], test_run,
   by unfold State.Accepts; decide +kernel⟩

theorem test_meets_DmaCompletes_1 : ∃ (c : Fin 256) (s : State) (x : DmaOp) (r : RingNo) (i : Word), s.dma.ops.find? (fun y =>
    y.chan == some c.val) = some x ∧ s.running = true ∧ s.dmaEnded x = true ∧ x.op.org = .ring r i ∧ s.hif.inflight.any (fun p
    => p.id == x.op.id) = true ∧ s.fenced r.val = false ∧ s.cutOff (r.val / 64) = false ∧ s.dma.stops = [] ∧ (∀ m ∈
    s.tiers.maps, m.release = none) ∧ s.tiers.objWait = [] :=
  ⟨32, { test_run with hif := { inflight := [test_op 0 0x21 test_fillDesc] }, dma := { ops := [{ test_fill with wr := 4096 }] } },
   { test_fill with wr := 4096 }, 0, 0,
   by decide +kernel⟩

theorem test_meets_StreamAdmitted_1 : ∃ (r : RingNo) (i : Word) (d : Line64) (s : State), s.Accepts (.ring r i) d 0x40
    admitChecks ∧ s.fenced r.val = false ∧ s.cutOff (r.val / 64) = false :=
  ⟨0, 0, test_desc [(0, 0, 0x40), (4, 0, 1), (5, 0, 15), (9, 0, 16), (10, 0, 1), (36, 0, 0xFFFF)], test_streams,
   by unfold State.Accepts; decide +kernel⟩

theorem test_meets_AppendTaken_1 : ∃ (r : RingNo) (i : Word) (d : Line64) (s : State), s.Accepts (.ring r i) d 0x41
    appendChecks ∧ s.cutOff (r.val / 64) = false :=
  ⟨0, 0, test_desc [(0, 0, 0x41), (5, 0, 3), (16, 0, 16384)], test_streams,
   by unfold State.Accepts; decide +kernel⟩

theorem test_meets_AppendTaken_2 : ∃ (r : RingNo) (i : Word) (ts : List Word) (a : AppendRec) (s : State), s.running = true ∧
    s.doc.appends.find? (fun b => decide (b.op.org = .ring r i) && b.data.isNone) = some a ∧ (s.appendsOf a.stream).find? (fun
    b => b.left.isNone) = some a ∧ a.count ≤ ts.length ∧ (∀ x ∈ ts.take a.count, x.toNat < a.vocab) ∧ s.lastCancel a.stream =
    none ∧ ((s.ctx a.stream).st = .idle ∨ (s.ctx a.stream).st = .prefill) :=
  ⟨0, 7, [99, 5], test_append, { test_streams with doc := { test_streams.doc with appends := [test_append] } },
   ⟨by decide +kernel, by decide +kernel, by decide +kernel, by decide +kernel,
@of_decide_eq_true _ (List.decidableBAll _ _) (by decide +kernel), by decide +kernel, by decide +kernel⟩⟩

theorem test_meets_AppendTaken_3 : ∃ (r : RingNo) (i : Word) (ts : List Word) (a : AppendRec) (s : State), s.running = true ∧
    s.doc.appends.find? (fun b => decide (b.op.org = .ring r i) && b.data.isNone) = some a ∧ s.appendsOf a.stream = [a] ∧
    a.count ≤ ts.length ∧ (∃ x ∈ ts.take a.count, a.vocab ≤ x.toNat) ∧ s.hif.inflight.any (fun p => p.id == a.op.id) = true ∧
    s.fenced r.val = false ∧ s.cutOff (r.val / 64) = false :=
  ⟨0, 7, [100], { test_append with count := 1 }, { test_streams with doc := { test_streams.doc with appends := [{ test_append with count := 1 }] }, hif := { inflight := [test_append.op] } },
   ⟨by decide +kernel, by decide +kernel, by decide +kernel, by decide +kernel,
@of_decide_eq_true _ (List.decidableBEx _ _) (by decide +kernel), by decide +kernel, by decide +kernel, by decide +kernel⟩⟩

theorem test_meets_CommandsPend_1 : ∃ (r : RingNo) (i : Word) (d : Line64) (s : State), s.Accepts (.ring r i) d 0x44
    cancelChecks ∧ s.fenced r.val = false ∧ s.cutOff (r.val / 64) = false ∧ s.effState (fld d 5 14 0) = .idle ∧ s.forkBefore
    (fld d 5 14 0) s.nextOp = false :=
  ⟨0, 0, test_desc [(0, 0, 0x44), (5, 0, 3)], test_streams,
   by unfold State.Accepts; decide +kernel⟩

theorem test_meets_CommandsPend_2 : ∃ (o : Origin) (d : Line64) (s : State), s.Accepts o d 0x44 cancelChecks ∧ (s.taken o d
    0x44).effState (fld d 5 14 0) ≠ .idle :=
  ⟨.ring 0 0, test_desc [(0, 0, 0x44), (5, 0, 4)], test_streams,
   by unfold State.Accepts; decide +kernel⟩

theorem test_meets_CommandsPend_3 : ∃ (o : Origin) (d : Line64) (s : State), s.Accepts o d 0x45 releaseChecks :=
  ⟨.ring 0 0, test_desc [(0, 0, 0x45), (5, 0, 4)], test_streams,
   by unfold State.Accepts; decide +kernel⟩

theorem test_meets_CommandsPend_4 : ∃ (o : Origin) (d : Line64) (s : State), s.Accepts o d 0x42 policyChecks :=
  ⟨.ring 0 0, test_desc [(0, 0, 0x42), (5, 0, 3), (1, 5, 1), (32, 0, 100)], test_streams,
   by unfold State.Accepts; decide +kernel⟩

theorem test_meets_Forks_1 : ∃ (o : Origin) (d : Line64) (s : State), s.Accepts o d 0x43 forkChecks ∧ fld d 5 14 0 ≠ fld d 8 14
    0 :=
  ⟨.ring 0 0, test_desc [(0, 0, 0x43), (5, 0, 3), (8, 0, 4)], { test_streams with cur := {} },
   by unfold State.Accepts; decide +kernel⟩

theorem test_meets_Forks_2 : ∃ (k : StreamNo) (f : ForkRec) (s : State), s.running = true ∧ s.cur.forks.find? (fun x => x.child
    == k.val) = some f ∧ s.forkWaits f = false ∧ f.child ≠ f.parent :=
  ⟨3, { op := test_op 0 0x43 0, child := 3, parent := 4, t := 2 }, { test_streams with cur := { test_streams.cur with forks := [{ op := test_op 0 0x43 0, child := 3, parent := 4, t := 2 }] } },
   by decide +kernel⟩

theorem test_meets_StreamEnds_1 : ∃ (k : StreamNo) (s : State), s.running = true ∧ s.releaseReady k.val = true ∧ s.cur.lost =
    [] ∧ Tbl.find s.cur.lostCtx k.val = none :=
  ⟨32767, { test_streams with doc := { ctxs := [(32767, { st := .releasing })] } },
   by decide +kernel⟩

theorem test_meets_StreamEnds_2 : ∃ (k : StreamNo) (st : Status) (s : State), s.running = true ∧ (s.ctx k.val).endWait = some
    st ∧ (s.ctx k.val).room ≠ 0 ∧ (s.ctx k.val).afterEnd = [] ∧ s.cutOff (s.ctx k.val).gal = false :=
  ⟨3, .ok, { test_streams with doc := { ctxs := [(3, { st := .idle, endWait := some .ok, rlog2 := 6 })] } },
   by decide +kernel⟩

theorem test_meets_StepsRun_4 : ∃ (gid : Nat) (g : LaneGroup) (_ws : List TokenWrite) (s : State), s.running = true ∧
    s.laneGroup? gid = some g ∧ (s.body g).length ≤ g.next :=
  ⟨0, { test_group with next := 1 }, [], { test_streams with doc := { test_streams.doc with progs := [(0, { dec := [0] })], groups := [{ test_group with next := 1 }] } },
   by decide +kernel⟩

theorem test_meets_StepsRun_5 : ∃ (gid : Nat) (g : LaneGroup) (d : Line64) (s : State), s.running = true ∧ s.laneGroup? gid =
    some g ∧ (s.body g)[g.next]? = some d ∧ barrier d = true ∧ g.outstanding ≠ [] :=
  ⟨0, test_group, 0x100, { test_streams with doc := { test_streams.doc with progs := [(0, { dec := [0x100] })], groups := [test_group] } },
   by decide +kernel⟩

theorem test_meets_StepsRun_6 : ∃ (gid : Nat) (g : LaneGroup) (m : Member) (s : State), s.running = true ∧ s.laneGroup? gid =
    some g ∧ s.stepOver g = true ∧ g.cgroup = none ∧ g.members = [m] :=
  ⟨0, { test_group with next := 1, outstanding := [] }, { stream := 3 },
   { test_streams with doc := { test_streams.doc with progs := [(0, { dec := [0] })], groups := [{ test_group with next := 1, outstanding := [] }] } },
   by decide +kernel⟩

theorem test_meets_StepsRun_7 : ∃ (c : Fin 256) (x : CGroup) (s : State), s.running = true ∧ Tbl.find s.doc.cgroups c.val =
    some x ∧ x.held ≠ [] ∧ x.heldDue ≤ s.beat ∧ Tbl.sorted s.doc.cgroups = true :=
  ⟨255, { gal := 0, prog := 0, period := 1, d0 := 0, members := [3], held := [{ stream := 3, notice := none, token := none, endSt := some .ok }] },
   { test_streams with doc := { test_streams.doc with cgroups := [(255, { gal := 0, prog := 0, period := 1, d0 := 0, members := [3], held := [{ stream := 3, notice := none, token := none, endSt := some .ok }] })] } },
   by decide +kernel⟩

theorem test_meets_PagesCopyAndMove_1 : ∃ (k : StreamNo) (slot : Nat) (c : Cow) (s : State), s.cur.cows.find? (fun x =>
    x.stream == k.val && x.slot == slot && !x.done) = some c ∧ (s.stagePage c).2.isSome = true :=
  ⟨3, 5, { group := 0, stream := 3, slot := 5, pos := 0, srcCore := 0, srcFrame := 0, dst := 1, write := { stream := 3, slot := 5, keys := [], values := [], scales := [] } },
   { test_run with cur := { cows := [{ group := 0, stream := 3, slot := 5, pos := 0, srcCore := 0, srcFrame := 0, dst := 1, write := { stream := 3, slot := 5, keys := [], values := [], scales := [] } }] } },
   by decide +kernel⟩

theorem test_meets_PagesCopyAndMove_2 : ∃ (n : Word) (q : Nat) (cf : Nat × Nat) (s : State), s.running = true ∧ s.flag .curCtrl
    [] 0 = true ∧ (s.page n.toNat).st = .live ∧ (s.page n.toNat).full = true ∧ (s.page n.toNat).copies.length + 1 ≤ s.copiesDue
    (s.page n.toNat) ∧ s.pageUse (s.page n.toNat).gal + 1 ≤ s.pageQuota (s.page n.toNat).gal ∧ (s.chooseFrame (((s.page
    n.toNat).core + 128 * ((s.page n.toNat).copies.length + 1)) % 2048) (s.page n.toNat).gal).2 = some cf ∧ ((s.chooseFrame
    (((s.page n.toNat).core + 128 * ((s.page n.toNat).copies.length + 1)) % 2048) (s.page n.toNat).gal).1.freePage).2 = some q
    :=
  ⟨1, 0, (120, 0), test_shared,
   by decide +kernel⟩

theorem test_meets_PagesCopyAndMove_3 : ∃ (o : Origin) (d : Line64) (cf : Nat × Nat) (s : State), s.Accepts o d 0x68
    pageMoveChecks ∧ ((s.taken o d 0x68).chooseFrame (fld d 12 10 0) (s.asOp o d 0x68).gal).2 = some cf :=
  ⟨.ring 0 0, test_desc [(0, 0, 0x68), (8, 0, 1), (12, 0, 2047)], (2047, 0), { test_with test_run [(.curKvFrames, [], 1), (.curTblLines, [], 64)] with cur := { pages := [(1, { st := .live, full := true })] } },
   by unfold State.Accepts; decide +kernel⟩

theorem test_meets_PagesCopyAndMove_4 : ∃ (n : Word) (m : MoveRec) (s : State), s.running = true ∧ s.cur.moves.find? (fun x =>
    x.page == n.toNat) = some m ∧ (s.page m.page).st ≠ .free ∧ (s.page m.page).full = true ∧ (s.page m.page).gal = m.op.gal :=
  ⟨1, { op := test_op 0 0x68 0, page := 1, core := 5, frame := 6 }, { test_run with cur := { pages := [(1, { st := .live, full := true })], moves := [{ op := test_op 0 0x68 0, page := 1, core := 5, frame := 6 }] } },
   by decide +kernel⟩

theorem test_meets_HandlesBindAndDrain_1 : ∃ (r : RingNo) (i : Word) (d : Line64) (s : State), s.Accepts (.ring r i) d 0x60
    bindChecks ∧ s.fenced r.val = false ∧ s.cutOff (r.val / 64) = false :=
  ⟨0, 0, test_desc [(0, 0, 0x60), (8, 0, 2047), (10, 0, 63), (12, 0, 4095), (14, 0, 1)], test_run,
   by unfold State.Accepts; decide +kernel⟩

theorem test_meets_HandlesBindAndDrain_2 : ∃ (c : CoreNo) (e : Fin 64) (o : Op) (s : State), s.running = true ∧ ((s.core
    c.val).handle e.val).bindOp = some o :=
  ⟨2047, 63, test_op 0 0x60 0, { test_run with cores := [(2047, { phys := 0, chan := 0, handles := [(63, { st := .bound, bindOp := some (test_op 0 0x60 0) })] })] },
   by decide +kernel⟩

theorem test_meets_HandlesBindAndDrain_3 : ∃ (o : Origin) (d : Line64) (s : State), s.Accepts o d 0x61 unbindChecks :=
  ⟨.ring 0 0, test_desc [(0, 0, 0x61), (10, 0, 1)], test_bound,
   by unfold State.Accepts; decide +kernel⟩

theorem test_meets_HandlesBindAndDrain_4 : ∃ (c : CoreNo) (e : Fin 64) (o : Op) (s : State), s.running = true ∧ ((s.core
    c.val).handle e.val).st = .draining ∧ ((s.core c.val).handle e.val).count = 0 ∧ ((s.core c.val).handle e.val).unbindOp =
    some o :=
  ⟨0, 63, test_op 0 0x61 0, { test_run with cores := [(0, { phys := 0, chan := 0, handles := [(63, { st := .draining, unbindOp := some (test_op 0 0x61 0) })] })] },
   by decide +kernel⟩

theorem test_meets_CoreOpsIssue_2 : ∃ (c : CoreNo) (o : Op) (s : State), s.running = true ∧ (s.core c.val).waiting = [o] ∧
    o.tileLike = false ∧ s.dmaMayIssue c.val o = true ∧ (∀ e ∈ o.scratchEps, s.hrefBad e.core e.href o.gal = false) :=
  ⟨0, test_copy.op, { test_run with cores := [(0, { phys := 0, chan := 0, waiting := [test_copy.op] })] },
   by decide +kernel⟩

theorem test_meets_CoreOpsIssue_3 : ∃ (c : CoreNo) (o : Op) (s : State), s.running = true ∧ (s.core c.val).waiting = [o] ∧
    o.tileLike = true ∧ o.opcode = opAttn ∧ o.core = c.val ∧ (s.nextTile c.val) = (s, some o) ∧ s.attnVerdict o = .go ∧
    s.mayQueue o = true :=
  ⟨0, test_attn, { test_bound with cores := test_waits test_attn },
   by decide +kernel⟩

theorem test_meets_CoreOpsIssue_4 : ∃ (c : CoreNo) (o : Op) (s : State), s.running = true ∧ (s.core c.val).waiting = [o] ∧
    o.tileLike = true ∧ o.opcode ≠ opAttn ∧ o.core = c.val ∧ (s.nextTile c.val) = (s, some o) ∧ s.tileVerdict o = .go ∧
    s.mayQueue o = true ∧ s.toAnnex o = false :=
  ⟨0, test_tile, { test_bound with cores := test_waits test_tile },
   by decide +kernel⟩

theorem test_meets_ChunksLoad_1 : ∃ (c : CoreNo) (ups : List Upset) (s u : State) (x : TileRun) (l : List TileRun), u =
    s.upsets ups ∧ u.running = true ∧ (u.core c.val).tiles = x :: l ∧ x.started = true ∧ x.loaded.length < x.op.loads ∧
    x.op.core = c.val ∧ (u.href c.val x.op.ahdl).ring = false :=
  ⟨0, [], { test_bound with cores := test_runs [{ test_pass with op := test_vecTile }] }, { test_bound with cores := test_runs [{ test_pass with op := test_vecTile }] }, { test_pass with op := test_vecTile }, [],
   ⟨rfl, by decide +kernel⟩⟩

theorem test_meets_ChunksLoad_2 : ∃ (c : CoreNo) (ups : List Upset) (s u : State) (x : TileRun) (l : List TileRun) (i at_ :
    Nat), u = s.upsets ups ∧ u.running = true ∧ (u.core c.val).tiles = x :: l ∧ x.started = true ∧ x.loaded.length < x.op.loads
    ∧ x.op.core = c.val ∧ x.op.sparse = false ∧ (u.href c.val x.op.ahdl).ring = true ∧ x.op.loadChunk x.loaded.length < cdiv
    x.op.k1 160 ∧ (u.href c.val x.op.ahdl).ringFind ((u.href c.val x.op.ahdl).ringSlots (vectorSlot x.op.afmt x.lanes))
    (x.op.loadChunk x.loaded.length) = some (i, at_) ∧ x.op.sharesLast (x.op.loadChunk x.loaded.length) = false :=
  ⟨0, [], { test_bound with cores := test_runs [test_pass] }, { test_bound with cores := test_runs [test_pass] }, test_pass, [], 0, 0,
   ⟨rfl, by decide +kernel⟩⟩

theorem test_meets_ChunksLoad_3 : ∃ (c : CoreNo) (ups : List Upset) (s u : State) (x : TileRun), u = s.upsets ups ∧ u.running =
    true ∧ (u.core c.val).tiles = [] ∧ u.annex.running = some x ∧ x.loaded.length < x.op.loads ∧ x.op.core = c.val ∧ (u.href
    c.val x.op.ahdl).ring = false :=
  ⟨0, [], { test_bound with annex := { running := some { test_pass with op := test_vecTile } } }, { test_bound with annex := { running := some { test_pass with op := test_vecTile } } }, { test_pass with op := test_vecTile },
   ⟨rfl, by decide +kernel⟩⟩

theorem test_meets_ChunksLoad_4 : ∃ (c : CoreNo) (ups : List Upset) (s u : State) (x : TileRun) (l : List TileRun), u =
    s.upsets ups ∧ u.running = true ∧ (u.core c.val).tiles = x :: l ∧ x.started = true ∧ x.loaded.length < x.op.loads ∧
    x.op.core = c.val ∧ (u.href c.val x.op.ahdl).ring = true ∧ x.op.loadChunk x.loaded.length < cdiv x.op.k1 160 ∧
    x.op.loadChunk x.loaded.length ∉ (u.href c.val x.op.ahdl).slots :=
  ⟨0, [], { test_bound with cores := [(0, { test_bound.core 0 with tiles := [test_pass], handles := [(1, { (test_bound.core 0).handle 1 with slots := [] })] })] }, { test_bound with cores := [(0, { test_bound.core 0 with tiles := [test_pass], handles := [(1, { (test_bound.core 0).handle 1 with slots := [] })] })] }, test_pass, [],
   ⟨rfl, by decide +kernel⟩⟩

theorem test_meets_TilesComplete_1 : ∃ (c : CoreNo) (ups : List Upset) (s u v : State) (x : TileRun), u = s.upsets ups ∧
    u.running = true ∧ (u.core c.val).tiles = [x] ∧ x.ready = true ∧ x.op.core = c.val ∧ x.op.bs = false ∧ u.weightsShut x.op =
    false ∧ (u.chan c.val).queue = [] ∧ v = u.waitEnd (srcCore c.val) 8 x.op.identity none ∧ (v.tileTrits x).2.1.cut = none :=
  ⟨0, [], { test_bound with cores := test_runs [{ test_pass with loaded := [[]] }] }, { test_bound with cores := test_runs [{ test_pass with loaded := [[]] }] }, ({ test_bound with cores := test_runs [{ test_pass with loaded := [[]] }] }).waitEnd (srcCore 0) 8 (test_pass.op).identity none, { test_pass with loaded := [[]] },
   ⟨rfl, by decide +kernel, by decide +kernel, by decide +kernel, by decide +kernel, by decide +kernel, by decide +kernel,
by decide +kernel, rfl, by decide +kernel⟩⟩

theorem test_meets_TilesComplete_2 : ∃ (c : CoreNo) (ups : List Upset) (s u : State) (x : TileRun), u = s.upsets ups ∧
    u.running = true ∧ (u.core c.val).tiles = [x] ∧ x.ready = true ∧ x.op.core = c.val ∧ x.op.bs = true ∧ u.weightsShut x.op =
    false ∧ (u.chan c.val).queue = [] ∧ x.bsBound = true ∧ x.status = .ok ∧ (∀ i ∈ x.slices.head?, i.quar = none ∧ i.bad =
    false ∧ i.lost = false) :=
  ⟨0, [], { test_bound with cores := test_runs [{ test_pass with op := { test_tile with opcode := 0x63 }, bsIdx := [5] }] }, { test_bound with cores := test_runs [{ test_pass with op := { test_tile with opcode := 0x63 }, bsIdx := [5] }] }, { test_pass with op := { test_tile with opcode := 0x63 }, bsIdx := [5] },
   ⟨rfl, by decide +kernel⟩⟩

theorem test_meets_TilesComplete_3 : ∃ (c : CoreNo) (b : Bool) (ups : List Upset) (s : State) (o : Op), (s.upsets ups).running
    = true ∧ (((s.upsets ups).core c.val).bank b).op = some o ∧ (((s.upsets ups).core c.val).bank b).st = .draining ∧
    ((s.upsets ups).core c.val).tiles = [] ∧ o.core = c.val :=
  ⟨0, true, [], { test_run with cores := [(0, { phys := 0, chan := 0, bank1 := { st := .draining, op := some test_tile } })] }, test_tile,
   by decide +kernel⟩

theorem test_meets_AnnexAndAttn_1 : ∃ (s : State) (x : TileRun) (l : List TileRun) (b : Bool), s.running = true ∧
    s.annex.running = none ∧ s.annex.queue = x :: l ∧ s.annex.bankFor x.op = some b :=
  ⟨{ test_run with annex := { queue := [{ op := test_tile }] } }, { op := test_tile }, [], false,
   by decide +kernel⟩

theorem test_meets_AnnexAndAttn_2 : ∃ (ups : List Upset) (s u v w : State) (x : TileRun), u = s.upsets ups ∧ u.running = true ∧
    u.annex.running = some x ∧ x.ready = true ∧ x.op.closes = false ∧ u.weightsShut x.op = false ∧ (u.chan x.op.core).queue =
    [] ∧ v = u.waitEnd (srcHub hubAnnex) 8 x.op.identity none ∧ (v.tileTrits x).2.1.cut = none ∧ w = ((((v.expanderDone x
    (v.tileTrits x).2.1 (v.tileTrits x).2.2).1.tileLeave x).annexIdle).chargeTile x.op).count .anxTile 0 1 :=
  ⟨[], { test_bound with annex := { running := some { test_pass with op := test_tile, loaded := [[]] } } }, { test_bound with annex := { running := some { test_pass with op := test_tile, loaded := [[]] } } }, ({ test_bound with annex := { running := some { test_pass with op := test_tile, loaded := [[]] } } }).waitEnd (srcHub hubAnnex) 8 test_tile.identity none,
   _, { test_pass with op := test_tile, loaded := [[]] },
   ⟨rfl, by decide +kernel, by decide +kernel, by decide +kernel, by decide +kernel, by decide +kernel, by decide +kernel,
rfl, by decide +kernel, rfl⟩⟩

theorem test_meets_AnnexAndAttn_3 : ∃ (c : CoreNo) (ups : List Upset) (_fs : List AttnFault) (s u : State) (x : AttnRun) (l :
    List AttnRun), u = s.upsets ups ∧ u.running = true ∧ (u.core c.val).attns = x :: l ∧ x.op.core = c.val ∧ (x.pages = [] ∨
    u.chanShut c.val x.op.charged = false) ∧ (u.chan c.val).queue = [] :=
  ⟨0, [], [], { test_run with cores := [(0, { phys := 0, chan := 0, attns := [{ op := test_attn, sepia := false, noScore := false }] })] }, { test_run with cores := [(0, { phys := 0, chan := 0, attns := [{ op := test_attn, sepia := false, noScore := false }] })] }, { op := test_attn, sepia := false, noScore := false }, [],
   ⟨rfl, by decide +kernel⟩⟩

theorem test_meets_HubRuns_2 : ∃ (o : Origin) (d : Line64) (s : State), s.Accepts o d 0x78 (hubChecks 2) ∧ 0 < HubF.elems
    (s.asOp o d 0x78) ∧ (∀ c ∈ maskCores (HubF.pmask (s.asOp o d 0x78)), s.hrefBad c (HubF.ahdl (s.asOp o d 0x78)) (s.asOp o d
    0x78).gal = false ∧ (s.href c (HubF.ahdl (s.asOp o d 0x78))).ring = true) :=
  ⟨.step 0, test_desc [(0, 0, 0x78), (8, 0, 2), (9, 0, 4), (11, 0, 1), (12, 0, 32), (40, 0, 1), (42, 0, 1)], test_rings,
   by unfold State.Accepts; decide +kernel⟩

theorem test_meets_HubRuns_3 : ∃ (p : PlinthNo) (s : State) (b : Broadcast) (l : List Broadcast), s.running = true ∧ (s.plinth
    p.val).broadcasts = b :: l ∧ b.next < b.total ∧ s.allCredit b = true :=
  ⟨0, { test_rings with plinths := [(0, { broadcasts := [test_bcast] })] }, test_bcast, [],
   by decide +kernel⟩

theorem test_meets_HubRuns_4 : ∃ (n : Nat) (o : Op) (s : State), s.running = true ∧ s.hubOps.find? (fun p => p.id == n) = some
    o ∧ s.bcastRuns o = false ∧ s.hubServes o = true :=
  ⟨7, test_op 7 0x78 0, { test_run with hubOps := [test_op 7 0x78 0] },
   by decide +kernel⟩

theorem test_meets_ProgramsLoad_1 : ∃ (r : RingNo) (i : Word) (d : Line64) (img : Bytes) (s u : State) (im : ImageRead) (p :
    Prog), s.readsImage (.ring r i) d = true ∧ s.readImage (fld d 16 47 0) img = (u, some im) ∧ im.short = false ∧ u.Accepts
    (.ring r i) d 0x46 (progChecks (some im)) ∧ (u.taken (.ring r i) d 0x46).parseProg im.img im.obj = some p ∧ u.fenced r.val
    = false ∧ u.cutOff (r.val / 64) = false :=
  ⟨0, 0, test_desc [(0, 0, 0x46), (16, 0, 0x40000)], test_image, test_objs, (test_objs.readImage 0x40000 test_image).1,
   { obj := 0, img := test_image, short := false, cut := false }, (test_objs.parseProg test_image 0).getD {},
   by unfold State.Accepts; decide +kernel⟩

theorem test_meets_ProgramsLoad_2 : ∃ (r : RingNo) (i : Word) (d : Line64) (_img : Bytes) (s : State), s.Accepts (.ring r i) d
    0x46 (progChecks none) ∧ fld d 16 47 0 = 0 ∧ s.fenced r.val = false ∧ s.cutOff (r.val / 64) = false :=
  ⟨0, 0, test_desc [(0, 0, 0x46), (8, 0, 255)], [], test_objs,
   by unfold State.Accepts; decide +kernel⟩

theorem test_meets_ObjectsKept_1 : ∃ (r : RingNo) (i : Word) (d : Line64) (s : State) (n : Nat), s.Accepts (.ring r i) d 0x69
    objCreateChecks ∧ s.ObjReady ∧ s.freeObj = some n ∧ s.fenced r.val = false ∧ s.cutOff (r.val / 64) = false :=
  ⟨0, 0, test_desc [(0, 0, 0x69), (8, 0, 0x100000), (16, 0, 1), (20, 0, 1), (24, 0, 7), (26, 0, 1)], test_objs, 1,
   by unfold State.Accepts State.ObjReady; decide +kernel⟩

theorem test_meets_ObjectsKept_2 : ∃ (r : RingNo) (i : Word) (d : Line64) (s : State) (n : Nat), s.Accepts (.ring r i) d 0x6A
    accessionChecks ∧ s.ObjReady ∧ s.freeObj = some n ∧ s.fenced r.val = false ∧ s.cutOff (r.val / 64) = false ∧ fbit d 20 1 =
    false :=
  ⟨0, 0, test_desc [(0, 0, 0x6A), (8, 0, 0x100000), (16, 0, 0xFFFFF)], test_objs, 1,
   by unfold State.Accepts State.ObjReady; decide +kernel⟩

theorem test_meets_ObjectsKept_3 : ∃ (o : Origin) (d : Line64) (s : State) (n : Nat), s.Accepts o d 0x6A accessionChecks ∧
    s.freeObj = some n ∧ fbit d 20 1 = true ∧ 0 < fld d 16 19 0 ∧ (∀ g ∈ s.tiers.migs, g.op.id ≠ s.nextOp) ∧ s.ObjQueued :=
  ⟨.ring 0 0, test_desc [(0, 0, 0x6A), (8, 0, 0x100000), (16, 0, 1), (20, 0, 3), (24, 0, 7), (26, 0, 1)], test_objs, 1,
   by unfold State.Accepts State.ObjQueued; decide +kernel⟩

theorem test_meets_ObjectsKept_4 : ∃ (r : RingNo) (i : Word) (d : Line64) (s : State) (x : Obj), s.Accepts (.ring r i) d 0x6B
    objMapChecks ∧ s.ObjReady ∧ s.obj? (fld d 8 13 0) = some x ∧ s.fenced r.val = false ∧ s.cutOff (r.val / 64) = false :=
  ⟨0, 0, test_desc [(0, 0, 0x6B), (16, 0, 0x100000)], test_objs, test_obj,
   by unfold State.Accepts State.ObjReady; decide +kernel⟩

theorem test_meets_ObjectsKept_5 : ∃ (r : RingNo) (i : Word) (d : Line64) (s : State) (m : Mapping) (x : Obj), s.Accepts (.ring
    r i) d 0x6E objPinChecks ∧ s.mappingAt (r.val / 64) (fld d 8 47 0) false = some m ∧ s.obj? m.obj = some x ∧ s.ObjReady ∧
    s.fenced r.val = false ∧ s.cutOff (r.val / 64) = false :=
  ⟨0, 0, test_desc [(0, 0, 0x6E), (8, 0, 0xBFFFF)], test_objs, test_map, test_obj,
   by unfold State.Accepts State.ObjReady; decide +kernel⟩

theorem test_meets_ObjectsKept_6 : ∃ (r : RingNo) (i : Word) (d : Line64) (s : State) (n p : Nat) (x : Obj), s.Accepts (.ring r
    i) d 0x6F objQueryChecks ∧ s.panelAt (r.val / 64) (fld d 8 47 0) = some (n, p) ∧ s.obj? n = some x ∧ s.ObjReady ∧ s.fenced
    r.val = false ∧ s.cutOff (r.val / 64) = false :=
  ⟨0, 0, test_desc [(0, 0, 0x6F), (8, 0, 0xBFFFF)], test_objs, 0, 1, test_obj,
   by unfold State.Accepts State.ObjReady; decide +kernel⟩

theorem test_meets_ObjectsKept_7 : ∃ (o : Origin) (d : Line64) (s : State), s.Accepts o d 0x6F objQueryChecks ∧ (∀ m ∈
    s.tiers.maps, m.release = none) ∧ 4 ≤ s.tiers.objRun.length :=
  ⟨.ring 0 0, test_desc [(0, 0, 0x6F), (8, 0, 0xBFFFF)], test_tiers { test_objs.tiers with objRun := [1, 2, 3, 4] },
   by unfold State.Accepts; decide +kernel⟩

theorem test_meets_PanelsMigrate_1 : ∃ (o : Origin) (d : Line64) (s : State), s.Accepts o d 0x6C objReleaseChecks :=
  ⟨.ring 0 0, test_desc [(0, 0, 0x6C), (8, 0, 0x40000)], test_objs,
   by unfold State.Accepts; decide +kernel⟩

theorem test_meets_PanelsMigrate_2 : ∃ (o : Origin) (d : Line64) (s : State) (m : Mapping), s.Accepts o d 0x6D migrateChecks ∧
    s.mappingAt (s.asOp o d 0x6D).gal (fld d 8 47 0) true = some m ∧ 0 < fld d 16 19 0 ∧ (∀ g ∈ s.tiers.migs, g.op.id ≠
    s.nextOp) ∧ s.ObjQueued :=
  ⟨.ring 0 0, test_desc [(0, 0, 0x6D), (8, 0, 0x80000), (16, 0, 1), (20, 0, 1)], test_objs, test_map,
   by unfold State.Accepts State.ObjQueued; decide +kernel⟩

theorem test_meets_PanelsMigrate_3 : ∃ (ups : List Upset) (s u : State) (g : Mig) (p : Nat), u = s.upsets ups ∧ u.running =
    true ∧ u.tiers.migs.find? (fun x => !x.left.isEmpty && u.tiers.objRun.contains x.op.id) = some g ∧ u.moverNext g g.left =
    some (p, .start) ∧ ((u.moverReads g.obj p).1.panel g.obj p).quar = false ∧ (g.target = 0 → g.frames ≠ []) :=
  ⟨[], test_tiers { test_objs.tiers with migs := [test_mig 1], objRun := [9] }, test_tiers { test_objs.tiers with migs := [test_mig 1], objRun := [9] }, test_mig 1, 1,
   ⟨rfl, by decide +kernel⟩⟩

theorem test_meets_PanelsMigrate_4 : ∃ (ups : List Upset) (s u : State) (g : Mig) (p : Nat), u = s.upsets ups ∧ u.running =
    true ∧ u.tiers.migs.find? (fun x => !x.left.isEmpty && u.tiers.objRun.contains x.op.id) = some g ∧ u.moverNext g g.left =
    some (p, .drop) ∧ (∀ m ∈ u.tiers.maps, m.release = none) :=
  ⟨[], test_tiers { test_objs.tiers with migs := [test_mig 2], objRun := [9], panels := [(1, { tier := 1 })] }, test_tiers { test_objs.tiers with migs := [test_mig 2], objRun := [9], panels := [(1, { tier := 1 })] }, test_mig 2, 1,
   ⟨rfl, by decide +kernel⟩⟩

theorem test_meets_PanelsMigrate_5 : ∃ (n : Fin 16384) (p : Nat) (_data : Bytes) (s : State) (x : Nat × Nat) (m : Nat × Nat ×
    Nat), s.running = true ∧ (s.panel n.val p).busy = some x ∧ s.tiers.moving.find? (fun m => m.1 == n.val && m.2.1 == p) =
    some m ∧ (∀ y ∈ s.tiers.maps, y.release = none) ∧ p < 2 ^ 20 :=
  ⟨0, 1, [], test_tiers { test_objs.tiers with panels := [(1, { busy := some (1, 0) })], moving := [(0, 1, 9)] }, (1, 0), (0, 1, 9),
   by decide +kernel⟩

theorem test_meets_RepairCommands_1 : ∃ (p : PlinthNo) (w : Word) (s : State), s.pfWrite 0 = true ∧ (s.plinth p.val).rprRun =
    none ∧ bits w.toNat 12 4 ≤ 263 ∧ bits w.toNat 3 0 = 1 :=
  ⟨7, 0x1071, test_run,
   by decide +kernel⟩

theorem test_meets_RepairCommands_2 : ∃ (p : PlinthNo) (w : Word) (s : State), s.pfWrite 0 = true ∧ (s.plinth p.val).rprRun =
    none ∧ bits w.toNat 12 4 ≤ 263 ∧ bits w.toNat 3 0 = 2 :=
  ⟨0, 2, test_run,
   by decide +kernel⟩

theorem test_meets_RepairCommands_3 : ∃ (p : PlinthNo) (w : Word) (s : State) (a pch : Nat), a = s.written .rprAddr [p.val] ∧
    pch = bits w.toNat 12 4 ∧ s.pfWrite 0 = true ∧ (s.plinth p.val).rprRun = none ∧ pch ≤ 263 ∧ bits w.toNat 3 0 = 3 :=
  ⟨0, 0x53, test_run, 0, 5,
   by decide +kernel⟩

theorem test_meets_RepairCommands_4 : ∃ (p : PlinthNo) (w : Word) (s : State) (a pch : Nat), a = s.written .rprAddr [p.val] ∧
    pch = bits w.toNat 12 4 ∧ s.pfWrite 0 = true ∧ (s.plinth p.val).rprRun = none ∧ pch ≤ 263 ∧ bits w.toNat 3 0 = 4 :=
  ⟨0, 0x1074, test_run, 0, 263,
   by decide +kernel⟩

theorem test_meets_RepairCommands_5 : ∃ (p : PlinthNo) (w : Word) (s : State) (pch : Nat), pch = bits w.toNat 12 4 ∧ s.pfWrite
    0 = true ∧ (s.plinth p.val).rprRun = none ∧ pch ≤ 263 ∧ bits w.toNat 3 0 = 5 ∧ (∀ y ∈ (s.plinth p.val).chSpares, y.pch ≠
    pch) :=
  ⟨0, 0x55, test_run, 5,
   by decide +kernel⟩

theorem test_meets_RepairCommands_6 : ∃ (p : PlinthNo) (w : Word) (s : State) (e : RepEntry), s.pfWrite 0 = true ∧ (s.plinth
    p.val).rprRun = none ∧ bits w.toNat 12 4 ≤ 263 ∧ bits w.toNat 3 0 = 6 ∧ (s.plinth p.val).repairMap[s.written .rprAddr
    [p.val]]? = some e :=
  ⟨0, 6, { test_run with plinths := [(0, { repairMap := [test_rep] })] }, test_rep,
   by decide +kernel⟩

theorem test_meets_RepairCommands_7 : ∃ (p : PlinthNo) (w : Word) (s : State) (c : Instr) (op : Nat), s.pfWrite 0 = true ∧
    (s.plinth p.val).rprRun.isSome = true ∧ bits w.toNat 3 0 = op ∧ (c, op) ∈ [(Instr.readRaw 0 p w, 1), (.writeRaw 0 p w, 2),
    (.rowSpare 0 p w, 3), (.colSpare 0 p w, 4), (.chSpare 0 p w, 5), (.mapRead 0 p w, 6)] :=
  ⟨0, 1, { test_run with plinths := [(0, { rprRun := some .ok })] }, .readRaw 0 0 1, 1,
   by decide +kernel⟩

theorem test_meets_RepairCommands_8 : ∃ (p : PlinthNo) (s : State) (st : Status), s.alive = true ∧ (s.plinth p.val).rprRun =
    some st :=
  ⟨7, { test_run with plinths := [(7, { rprRun := some .ok })] }, .ok,
   by decide +kernel⟩

theorem test_meets_SparesSwitch_1 : ∃ (p : PlinthNo) (_n : Nat) (ups : List Upset) (s u : State) (y : ChSpare) (c : Nat), u =
    s.upsets ups ∧ u.alive = true ∧ (u.plinth p.val).chSpares.find? (fun y => decide (y.copied < 2 ^ 28)) = some y ∧
    u.coreOfChan p.val y.pch = some c ∧ (u.chan c).queue = [] ∧ u.debt c < 1024 :=
  ⟨0, 1, [], { test_run with plinths := [(0, { chSpares := [{ pch := 5, spare := 256, copied := 0 }] })] },
   { test_run with plinths := [(0, { chSpares := [{ pch := 5, spare := 256, copied := 0 }] })] }, { pch := 5, spare := 256, copied := 0 }, 5,
   by decide +kernel⟩

theorem test_meets_SparesSwitch_2 : ∃ (c : CoreNo) (s : State), s.running = true ∧ (s.core c.val).switching = true ∧
    s.coreInUse c.val = false ∧ s.repairTouches c.val = false :=
  ⟨0, { test_run with cores := [(0, { phys := 0, chan := 0, switching := true })] },
   by decide +kernel⟩

theorem test_meets_SparesSwitch_3 : ∃ (s : State), s.alive = true ∧ s.ctl.repDirty = true :=
  ⟨{ test_run with ctl := { test_run.ctl with repDirty := true } },
   by decide +kernel⟩

theorem test_meets_PanelsRepaired_1 : ∃ (n : Fin 16384) (p : Nat) (s : State) (r : Repair) (x : Obj), s.repairAt n.val p
    .queued = some r ∧ s.running = true ∧ (s.panel n.val p).busy = none ∧ s.panelRead n.val p = false ∧ s.regionsUsed < 8 ∧
    s.obj? n.val = some x :=
  ⟨0, 1, test_tiers { test_objs.tiers with repairs := [{ obj := 0, panel := 1, stage := .queued }] }, { obj := 0, panel := 1, stage := .queued }, test_obj,
   by decide +kernel⟩

theorem test_meets_PanelsRepaired_2 : ∃ (n : Fin 16384) (p : Nat) (data : Bytes) (s : State) (r : Repair), s.repairAt n.val p
    .reading = some r ∧ s.running = true ∧ (s.panel n.val p).tier = 0 ∧ data.length = 262144 :=
  ⟨0, 1, List.replicate 262144 0,
   test_tiers { test_objs.tiers with repairs := [{ obj := 0, panel := 1, stage := .reading }], panels := [(1, { tier := 0 })] },
   { obj := 0, panel := 1, stage := .reading },
   ⟨by decide +kernel, by decide +kernel, by decide +kernel, List.length_replicate⟩⟩

theorem test_meets_PanelsRepaired_3 : ∃ (n : Fin 16384) (p : Nat) (s : State) (r : Repair), s.repairAt n.val p .rewriting =
    some r ∧ s.running = true :=
  ⟨0, 1, test_tiers { test_objs.tiers with repairs := [{ obj := 0, panel := 1, stage := .rewriting }] }, { obj := 0, panel := 1, stage := .rewriting },
   by decide +kernel⟩

theorem test_meets_PanelsRepaired_4 : ∃ (n : Fin 16384) (p : Nat) (_down : Bool) (s : State) (r : Repair), s.repairAt n.val p
    .reading = some r ∧ s.running = true ∧ (∀ m ∈ s.tiers.maps, m.release = none) :=
  ⟨0, 1, false, test_tiers { test_objs.tiers with repairs := [{ obj := 0, panel := 1, stage := .reading }] }, { obj := 0, panel := 1, stage := .reading },
   by decide +kernel⟩

theorem test_meets_PanelsRepaired_5 : ∃ (n : Fin 16384) (p : Nat) (ups : List Upset) (s u : State) (r : Repair), u = s.upsets
    ups ∧ u.repairAt n.val p .readback = some r ∧ u.running = true ∧ (∀ m ∈ u.tiers.maps, m.release = none) ∧ (match u.locate
    n.val p with | .t0 h => u.badWords (hallBase + h) 262144 = [] | .t1 c a => u.chanErrors (u.core c).chan a 262144 = [] ∧
    (u.plinth (c / 256)).rprRun = none | .t2 _ _ => True) :=
  ⟨0, 1, [], test_readback, test_readback, { obj := 0, panel := 1, stage := .readback },
   ⟨rfl, by decide +kernel, by decide +kernel, by decide +kernel,
by rw [show test_readback.locate ((0 : Fin 16384) : Nat) 1 = .t1 6 0 by decide +kernel]; decide +kernel⟩⟩

theorem test_meets_BeatsAndTicks_1 : ∃ (s : State), s.running = true ∧ s.beatOff = false ∧ s.fab.beat.started = true :=
  ⟨test_beat,
   by decide +kernel⟩

theorem test_meets_BeatsAndTicks_2 : ∃ (s : State), s.alive = true ∧ s.beatOff = true :=
  ⟨test_run,
   by decide +kernel⟩

theorem test_meets_BeatsAndTicks_3 : ∃ (g n : Nat) (s : State) (x : CarGroup) (cap : Nat), s.carGroupOf g = some (x, cap) ∧
    s.alive = true ∧ n + 2 ≤ s.beat :=
  ⟨5, 8, { test_beat with fab := { test_beat.fab with carMap := some test_carMap } }, test_carGroup, 1024,
   by decide +kernel⟩

theorem test_meets_BeatsAndTicks_4 : ∃ (s : State), s.alive = true ∧ s.beatOff = false ∧ 0 < s.beat ∧ s.written .catTrBeatLo []
    + s.written .catTrBeatHi [] * 2 ^ 32 = s.beat :=
  ⟨test_with test_beat [(.catTrBeatLo, [], 10)],
   by decide +kernel⟩

theorem test_meets_BeatsAndTicks_5 : ∃ (u : BitVec 16) (i : BitVec 64) (s : State), s.running = true ∧ s.watchdogDue u.toNat
    i.toNat = true :=
  ⟨3, 0x101, { test_with test_beat [(.catWdog, [], 10)] with cat := { started := [{ op := 0, unit := 3, identity := 0x101, beat := 0 }] } },
   by decide +kernel⟩

theorem test_meets_ChannelsServed_1 : ∃ (c : CoreNo) (r : ChanReq) (ups : List Upset) (s u : State), u = s.upsets ups ∧ u.alive
    = true ∧ u.flag .stkCtrl [c.val / 256] 0 = true ∧ (u.chan c.val).queue = [] ∧ (u.chan c.val).calling = [] ∧ (u.chan
    c.val).held = [] ∧ (u.chan c.val).group = 0 ∧ 0 < r.len ∧ r.addr + r.len ≤ (r.addr / 1024 + 1) * 1024 ∧ (∀ b, r.kind =
    .write b → b.length = r.len) ∧ r.addr + r.len ≤ 2 ^ 28 ∧ (∀ g, r.gal = some g → (reqBursts r).length ≤ (issueUpTo
    (u.bwBudget g.val) (Tbl.look (u.chan c.val).used g.val 0) ((reqBursts r).map (reqCost r))).1) ∧ (u.plinth (c.val /
    256)).chSpares = [] ∧ u.chk = [] :=
  ⟨0, { client := .dma, cls := 1, gal := some 63, addr := 0xFFFFFC0, len := 64, kind := .read, group := 0 }, [], test_with test_run [(.stkCtrl, [0], 1)], test_with test_run [(.stkCtrl, [0], 1)],
   ⟨rfl, by decide +kernel, by decide +kernel, by decide +kernel, by decide +kernel, by decide +kernel, by decide +kernel,
by decide +kernel, by decide +kernel, fun _ h => by simp at h, by decide +kernel, fun g h => by cases h; decide +kernel,
by decide +kernel, by decide +kernel⟩⟩

theorem test_meets_ChannelsServed_2 : ∃ (c : CoreNo) (r : ChanReq) (ups : List Upset) (s u : State) (g : GalNo), u = s.upsets
    ups ∧ u.alive = true ∧ u.flag .stkCtrl [c.val / 256] 0 = true ∧ (u.chan c.val).queue = [] ∧ (u.chan c.val).calling = [] ∧
    (u.chan c.val).held = [] ∧ (u.chan c.val).group = 0 ∧ 0 < r.len ∧ r.addr + r.len ≤ (r.addr / 1024 + 1) * 1024 ∧ r.gal =
    some g ∧ u.bwBudget g.val ≤ Tbl.look (u.chan c.val).used g.val 0 :=
  ⟨0, { client := .dma, cls := 1, gal := some 63, addr := 0, len := 64, kind := .read, group := 0 }, [], { test_with test_run [(.stkCtrl, [0], 1)] with chans := [(0, { used := [(63, 1000000)] })] }, { test_with test_run [(.stkCtrl, [0], 1)] with chans := [(0, { used := [(63, 1000000)] })] }, 63,
   ⟨rfl, by decide +kernel⟩⟩

theorem test_meets_ChannelsServed_3 : ∃ (c : CoreNo) (r : ChanReq) (ups : List Upset) (s u : State), u = s.upsets ups ∧ u.alive
    = true ∧ u.flag .stkCtrl [c.val / 256] 0 = false ∧ (u.chan c.val).queue = [] ∧ 0 < r.len ∧ r.addr + r.len ≤ (r.addr / 1024
    + 1) * 1024 :=
  ⟨0, { client := .dma, cls := 1, gal := none, addr := 0, len := 64, kind := .read, group := 0 }, [], test_with test_run [(.stkCtrl, [0], 0)], test_with test_run [(.stkCtrl, [0], 0)],
   ⟨rfl, by decide +kernel⟩⟩

theorem test_meets_ChannelsServed_4 : ∃ (c : CoreNo) (s : State), s.alive = true ∧ (s.chan c.val).queue = [] ∧ 1024 ≤ s.debt
    c.val :=
  ⟨0, { test_run with plinths := [(0, { accrued := 1024 })] },
   by decide +kernel⟩

theorem test_meets_ChannelsServed_5 : ∃ (s : State), s.alive = true :=
  ⟨test_run,
   by decide +kernel⟩

theorem test_meets_ChannelsServed_6 : ∃ (c : CoreNo) (ups : List Upset) (s : State), (s.upsets ups).running = true ∧ ((s.upsets
    ups).chan c.val).queue = [] ∧ (s.upsets ups).debt c.val < 1024 ∧ ((s.upsets ups).chan c.val).scrubUsed < (s.upsets
    ups).field .scrubCfg [c.val / 256] 7 0 ∧ (s.upsets ups).chanErrors ((s.upsets ups).core c.val).chan (64 * ((s.upsets
    ups).chan c.val).scrub) 64 = [] :=
  ⟨2047, [], test_run,
   by decide +kernel⟩

theorem test_meets_DeviceStates_1 : ∃ (_w : Word) (s : State), s.pfWrite 0 = true :=
  ⟨0xFFFF, test_run,
   by decide +kernel⟩

theorem test_meets_DeviceStates_3 : ∃ (s : State) (code cerr : Nat), s.alive = true ∧ s.ctl.cBusy = true ∧ s.commitFailure =
    some (code, cerr) :=
  ⟨{ test_up with ctl := { test_up.ctl with cBusy := true } }, 1, 0,
   by decide +kernel⟩

theorem test_meets_DeviceStates_4 : ∃ (w : Word) (s : State), s.pfWrite 0 = true ∧ bits w.toNat 1 0 = 1 ∧ s.ctl.st = .run ∧
    s.ctl.holding = none :=
  ⟨1, test_run,
   by decide +kernel⟩

theorem test_meets_DeviceStates_5 : ∃ (s : State) (cause : Nat), s.running = true ∧ s.ctl.holding = some cause ∧ s.holdReady =
    true :=
  ⟨{ test_run with ctl := { test_run.ctl with holding := some 2 } }, 2,
   by decide +kernel⟩

theorem test_meets_DeviceStates_6 : ∃ (w : Word) (s : State), s.pfWrite 0 = true ∧ s.ctl.st = .run ∧ s.beatOff = true ∧
    w.getLsbD 0 = true ∧ w.getLsbD 1 = s.flag .beatCtrl [] 1 ∧ s.uncommitted (fun r _ => beatFields r) = false :=
  ⟨1, test_committed,
   by decide +kernel⟩

theorem test_meets_DeviceStates_7 : ∃ (w : Word) (s : State), s.pfWrite 0 = true ∧ s.ctl.st = .run ∧ s.beatOff = false ∧
    w.getLsbD 0 = false ∧ w.getLsbD 1 = s.flag .beatCtrl [] 1 :=
  ⟨2, test_beat,
   by decide +kernel⟩

theorem test_meets_SnapshotsAndRings_1 : ∃ (_f : GalNo) (w : Word) (s : State), s.barUp = true ∧ w.getLsbD 0 = true :=
  ⟨63, 1, test_run,
   by decide +kernel⟩

theorem test_meets_SnapshotsAndRings_2 : ∃ (f : GalNo) (s : State) (c : Tbl Nat), s.alive = true ∧ (s.snap f.val).busy = true ∧
    (s.snap f.val).latched = some c ∧ s.cutOff f.val = false :=
  ⟨63, { test_run with cat := { snaps := [(63, { busy := true, latched := some [] })] } }, [],
   by decide +kernel⟩

theorem test_meets_SnapshotsAndRings_3 : ∃ (w : Word) (s : State), s.pfWrite 0 = true ∧ bits w.toNat 2 0 = 1 :=
  ⟨1, test_run,
   by decide +kernel⟩

theorem test_meets_SnapshotsAndRings_4 : ∃ (s : State), s.alive = true ∧ s.cat.dumpBusy = true ∧ s.cat.frozen = true ∧ s.cutOff
    0 = false :=
  ⟨{ test_run with cat := { dumpBusy := true, frozen := true } },
   by decide +kernel⟩

theorem test_meets_SnapshotsAndRings_5 : ∃ (w : Word) (s : State), s.pfWrite 0 = true ∧ bits w.toNat 2 0 = 2 :=
  ⟨2, test_run,
   by decide +kernel⟩

theorem test_meets_SnapshotsAndRings_6 : ∃ (w : Word) (s : State), s.pfWrite 0 = true ∧ bits w.toNat 2 0 = 4 :=
  ⟨4, test_run,
   by decide +kernel⟩

theorem test_meets_SnapshotsAndRings_7 : ∃ (_w : Word) (s : State) (r : EvRing), s.pfWrite 0 = true ∧ r = Tbl.look s.cat.rings
    (srcHub hubHost) {} :=
  ⟨0, test_run, {},
   by decide +kernel⟩

theorem test_meets_TraceRuns_1 : ∃ (w : Word) (s : State), s.pfWrite 0 = true ∧ bits w.toNat 1 0 = 1 :=
  ⟨1, test_run,
   by decide +kernel⟩

theorem test_meets_TraceRuns_2 : ∃ (w : Word) (s : State), s.pfWrite 0 = true ∧ bits w.toNat 1 0 = 2 ∧ (s.cat.trace.st = .armed
    ∨ s.cat.trace.st = .triggered) :=
  ⟨2, { test_run with cat := { trace := { st := .armed } } },
   by decide +kernel⟩

theorem test_meets_TraceRuns_3 : ∃ (w : Word) (s : State), s.pfWrite 0 = true ∧ bits w.toNat 1 0 = 3 :=
  ⟨3, { test_run with cat := { trace := { st := .armed } } },
   by decide +kernel⟩

theorem test_meets_TraceRuns_4 : ∃ (s : State) (f : Nat) (r : TraceRec) (rest : List TraceRec), s.alive = true ∧
    s.cat.trace.fifos = [(f, r :: rest)] ∧ s.cat.trace.st = .armed ∧ s.circular = true ∧ r.trig = false ∧ s.cat.trace.gap = 0 :=
  ⟨{ test_run with cat := { trace := { st := .armed, fifos := [(8, [test_rec])] } } }, 8, test_rec, [],
   by decide +kernel⟩

theorem test_meets_TraceRuns_5 : ∃ (f : Fin 9) (s : State) (r : TraceRec) (rest : List TraceRec), s.alive = true ∧ Tbl.look
    s.cat.trace.fifos f.val [] = r :: rest :=
  ⟨8, { test_run with cat := { trace := { st := .armed, fifos := [(8, [test_rec])] } } }, test_rec, [],
   by decide +kernel⟩

theorem test_meets_TraceRuns_6 : ∃ (s : State), s.alive = true ∧ s.cat.trace.st = .triggered ∧ s.circular = true ∧ s.field
    .catTrPost [] 21 0 ≤ s.cat.trace.after :=
  ⟨{ test_run with cat := { trace := { st := .triggered } } },
   by decide +kernel⟩

theorem test_meets_RegistersReadAndWrite_1 : ∃ (_f : GalNo) (off : Nat) (d : Bytes) (en : Bool) (s : State), s.barUp = true ∧
    writeShape off d en = false :=
  ⟨0, 2, [0, 0, 0, 0], true, test_run,
   by decide +kernel⟩

theorem test_meets_RegistersReadAndWrite_2 : ∃ (_f : GalNo) (off : Nat) (a b : Bytes) (s : State), s.barUp = true ∧ off % 8 = 0
    ∧ a.length = 4 ∧ b.length = 4 :=
  ⟨63, 0, [0, 0, 0, 0], [0, 0, 0, 0], test_run,
   by decide +kernel⟩

theorem test_meets_RegistersReadAndWrite_3 : ∃ (r : Reg) (hi lo : Nat) (_w : Word) (s : State), s.barUp = true ∧ (r, hi, lo) ∈
    [(Reg.glbDbgSel, 3, 0), (.glbCommitCrc, 31, 0), (.catSnapLo, 31, 12), (.catSnapHi, 31, 0), (.catRdLo, 31, 12), (.catRdHi,
    31, 0), (.catWdog, 15, 0), (.rasSrcSel, 15, 0)] :=
  ⟨.rasSrcSel, 15, 0, 0xFFFFFFFF, test_run,
   by decide +kernel⟩

theorem test_meets_RegistersReadAndWrite_4 : ∃ (r : Reg) (w : Word) (s : State), s.barUp = true ∧ s.ctl.st = .run ∧ s.flag
    .hifCtrl [] 0 = true ∧ (r = .hifSumLo ∨ r = .hifAckLo) ∧ bits w.toNat 31 9 ≠ s.field r [] 31 9 :=
  ⟨.hifAckLo, 0x200, test_run,
   by decide +kernel⟩

theorem test_meets_RegistersReadAndWrite_5 : ∃ (f : GalNo) (_off _n : Nat) (s : State), s.barServed f.val = true :=
  ⟨63, 0, 9, test_run,
   by decide +kernel⟩

theorem test_meets_RegistersReadAndWrite_6 : ∃ (p i : Nat) (s : State), s.barServed 0 = true ∧ (p = 0xA00008 ∧ i = 0 ∨ p =
    0xA0002C ∧ i = 1) :=
  ⟨0xA0002C, 1, test_run,
   by decide +kernel⟩

theorem test_meets_FirmwareAndDebug_1 : ∃ (w : Word) (s : State) (i : ImageInfo), s.secWrite 0 = true ∧ bits w.toNat 1 0 = 1 ∧
    s.sec.trial = true ∧ s.sec.image = some i ∧ s.sec.flash.dir.seq.toNat + 1 < 2 ^ 32 :=
  ⟨1, { test_run with sec := { test_run.sec with trial := true, image := some test_image0 } }, test_image0,
   by decide +kernel⟩

theorem test_meets_FirmwareAndDebug_2 : ∃ (w : Word) (s : State), s.secWrite 0 = true ∧ bits w.toNat 1 0 = 1 ∧ s.sec.trial =
    false :=
  ⟨1, test_run,
   by decide +kernel⟩

theorem test_meets_FirmwareAndDebug_3 : ∃ (w : Word) (s : State), s.secWrite 0 = true ∧ bits w.toNat 1 0 = 2 ∧
    s.sec.flash.dir.seq.toNat + 1 < 2 ^ 32 :=
  ⟨2, test_run,
   by decide +kernel⟩

theorem test_meets_FirmwareAndDebug_4 : ∃ (o _n a : Nat) (_b : Bytes) (s : State), s.barUp = true ∧ s.debugOpen = true ∧
    dbgPlace (s.field .glbDbgSel [] 3 0) o = .hall a :=
  ⟨0xFFFFFFF, 1, 0xFFFFFFF, [1], { test_with test_run [(.glbDbgSel, [], 8)] with sec := { test_run.sec with debug := true } },
   by decide +kernel⟩

theorem test_meets_FirmwareAndDebug_5 : ∃ (o _n c a : Nat) (s : State), s.barUp = true ∧ s.debugOpen = true ∧ dbgPlace (s.field
    .glbDbgSel [] 3 0) o = .chan c a :=
  ⟨0, 8, 0, 0, { test_run with sec := { test_run.sec with debug := true } },
   by decide +kernel⟩

theorem test_meets_WindowsWork_1 : ∃ (r : RingNo) (i : Word) (d : Line64) (s : State) (w : Nat), s.Accepts (.ring r i) d
    opWinOpen winOpenChecks ∧ s.freeWindow = some w ∧ s.fenced r.val = false ∧ s.cutOff (r.val / 64) = false :=
  ⟨63, 1, test_desc [(8, 0, 4), (24, 0, 64), (28, 0, 3), (35, 7, 1)], test_run, 0,
   by unfold State.Accepts; decide +kernel⟩

theorem test_meets_WindowsWork_2 : ∃ (o : Origin) (d : Line64) (s : State), s.Accepts o d opWinClose winCloseChecks :=
  ⟨.ring 0 0, test_desc [(8, 0, 3)], test_wins test_win,
   by unfold State.Accepts; decide +kernel⟩

theorem test_meets_WindowsWork_3 : ∃ (w : Fin 1024) (s : State) (o : Op) (r : RingNo) (i : Word), s.running = true ∧ (s.window
    w.val).st = .closing ∧ (s.window w.val).closeBeat + 4 ≤ s.beat ∧ (s.window w.val).held = [] ∧ (s.window w.val).closeOp =
    some o ∧ o.org = .ring r i ∧ s.hif.inflight.any (fun p => p.id == o.id) = true ∧ s.fenced r.val = false ∧ s.cutOff (r.val /
    64) = false :=
  ⟨3, test_wins { test_win with st := .closing, closeBeat := 6, closeOp := some (test_op 5 0x71 0) } |> fun s =>
     { s with hif := { s.hif with inflight := [test_op 5 0x71 0] } }, test_op 5 0x71 0, 0, 0,
   by decide +kernel⟩

theorem test_meets_WindowsWork_4 : ∃ (o : Origin) (d : Line64) (s : State) (c : Origin → Line64 → Instr) (op : Nat), ((c =
    .winPut ∧ op = opWinPut) ∨ (c = .winGet ∧ op = opWinGet)) ∧ s.Accepts o d op winMoveChecks :=
  ⟨.ring 63 0, test_desc [(8, 0, 4), (24, 0, 1), (40, 0, 64)], test_run, .winGet, opWinGet, .inr ⟨rfl, rfl⟩,
   by unfold State.Accepts; decide +kernel⟩

theorem test_meets_WindowsWork_5 : ∃ (p : PortNo) (h b : Line16) (data : Bytes) (s u : State), s.arriveData p.val prPut h
    (lineBytes b ++ data) = (u, true) ∧ Sub.bad b = false ∧ (u.window (Sub.win b)).held = [] :=
  ⟨0, test_dataHdr 1, test_sub, [], test_wins test_win, ((test_wins test_win).arriveData 0 1 (test_dataHdr 1) (lineBytes test_sub ++ [])).1,
   by decide +kernel⟩

theorem test_meets_WindowsWork_6 : ∃ (p : PortNo) (h b : Line16) (len : Word) (_outside : Bytes) (ups : List Upset) (s u :
    State) (q : Nat) (vias : List Nat), (s.upsets ups).arriveData p.val prGetReq h (lineBytes b ++ toLE 16 len.toNat) = (u,
    true) ∧ Sub.bad b = false ∧ u.windowRefuses b (Pkt.src h) len.toNat 1 = none ∧ (u.window (Sub.win b)).ep.hall = true ∧
    u.badWords (hallBase + (u.window (Sub.win b)).ep.addr + Sub.ofs b) len.toNat = [] ∧ 0 < len.toNat ∧ len.toNat ≤ u.dataRoom
    (Pkt.src h) ∧ u.wayTo (Pkt.src h) (Pkt.flow h) = some (q, vias, false) ∧ 24 ≤ q :=
  ⟨24, test_line16 [(6, 0, 10), (7, 0, 3), (12, 0, 64)], test_line16 [(0, 0, 3)], 64, [], [], test_far,
   (test_far.arriveData 24 3 (test_line16 [(6, 0, 10), (7, 0, 3), (12, 0, 64)]) (lineBytes (test_line16 [(0, 0, 3)] : Line16) ++ toLE 16 64)).1, 24, [],
   by decide +kernel⟩

theorem test_meets_WindowsWork_7 : ∃ (p : PortNo) (h b : Line16) (data : Bytes) (s u : State) (x : DmaOp), s.arriveData p.val
    prGetData h (lineBytes b ++ data) = (u, true) ∧ Sub.bad b = false ∧ u.dma.ops.find? (fun x => x.op.opcode == opWinGet &&
    x.opid == Sub.opid b && WinF.dev x.op == Pkt.src h) = some x ∧ x.flight.any (fun f => decide (WinF.ofs x.op + f.1 ≤ Sub.ofs
    b) && decide (Sub.ofs b - WinF.ofs x.op + Sub.bytes b ≤ f.1 + f.2.1)) = true :=
  ⟨0, test_dataHdr 4, test_line16 [(4, 0, 7), (6, 0, 64)], [], test_winOps (test_winMove 0x73),
   ((test_winOps (test_winMove 0x73)).arriveData 0 4 (test_dataHdr 4) (lineBytes (test_line16 [(4, 0, 7), (6, 0, 64)] : Line16) ++ [])).1, test_winMove 0x73,
   by decide +kernel⟩

theorem test_meets_WindowsWork_8 : ∃ (p : PortNo) (h : Line16) (l : Line32) (s u : State) (x : DmaOp), s.arriveData p.val prAck
    h (lineBytes l) = (u, true) ∧ fld l 3 7 0 = 0 ∧ fld l 12 159 0 = 0 ∧ u.dma.ops.find? (fun x => (x.op.opcode == opWinPut ||
    x.op.opcode == opWinGet) && x.opid == fld l 0 15 0 && WinF.dev x.op == Pkt.src h) = some x ∧ (∀ z ∈ u.dma.ops, z.op.id =
    x.op.id → z = x) :=
  ⟨0, test_dataHdr 2, test_line32 [(0, 0, 7)], test_winOps (test_winMove 0x72),
   ((test_winOps (test_winMove 0x72)).arriveData 0 2 (test_dataHdr 2) (lineBytes (test_line32 [(0, 0, 7)]))).1, test_winMove 0x72,
   by decide +kernel⟩

theorem test_meets_WindowsWork_9 : ∃ (w : Fin 1024) (src : BitVec 17) (n : BitVec 16) (s : State) (a : WinPeerOp), s.alive =
    true ∧ (s.window w.val).held = [] ∧ (s.window w.val).acks.find? (fun a => a.src == src.toNat && a.opid == n.toNat) = some a
    :=
  ⟨3, 1, 7, test_wins { test_win with acks := [⟨1, 7, 1, 64, 0⟩] }, ⟨1, 7, 1, 64, 0⟩,
   by decide +kernel⟩

theorem test_meets_WindowsWork_10 : ∃ (n : BitVec 16) (s : State) (x : DmaOp) (f : Nat × Nat × Nat), s.alive = true ∧
    s.dma.ops.find? (fun x => (x.op.opcode == opWinPut || x.op.opcode == opWinGet) && x.opid == n.toNat) = some x ∧ f ∈
    x.flight ∧ f.2.2 + 4 ≤ s.beat :=
  ⟨7, test_winOps (test_winMove 0x72), test_winMove 0x72, (0, 64, 6),
   by decide +kernel⟩

theorem test_meets_WindowsWork_11 : ∃ (n : BitVec 16) (s : State) (x : DmaOp) (r : RingNo) (i : Word), s.alive = true ∧
    s.dma.ops.find? (fun x => (x.op.opcode == opWinPut || x.op.opcode == opWinGet) && x.opid == n.toNat) = some x ∧ x.begun =
    true ∧ x.flight = [] ∧ x.staged = [] ∧ (x.noMore = true ∨ WinF.len x.op ≤ x.rd) ∧ x.op.org = .ring r i ∧ s.hif.inflight.any
    (fun p => p.id == x.op.id) = true ∧ s.fenced r.val = false ∧ s.cutOff (r.val / 64) = false ∧ s.dma.stops = [] ∧ (∀ m ∈
    s.tiers.maps, m.release = none) ∧ s.tiers.objWait = [] :=
  ⟨7, test_winOps { test_winMove 0x72 with flight := [] }, { test_winMove 0x72 with flight := [] }, 0, 0,
   by decide +kernel⟩

theorem test_meets_CarouselTurns_1 : ∃ (o : Origin) (d : Line64) (s : State) (x : CarGroup) (cap n : Nat), s.Accepts o d opColl
    collChecks ∧ s.carGroupOf (fld d 8 15 0) = some (x, cap) ∧ s.fab.carWait = none ∧ n = s.instanceBeat (s.asOp o d opColl) ∧
    s.beat < n + 4 :=
  ⟨.ring 0 0, test_coll, test_car [], test_carGroup, 1024, 11,
   by unfold State.Accepts; decide +kernel⟩

theorem test_meets_CarouselTurns_2 : ∃ (o : Origin) (d : Line64) (s : State), s.Accepts o d opQuiesce quiesceChecks :=
  ⟨.ring 0 0, 0, test_beat,
   by unfold State.Accepts; decide +kernel⟩

theorem test_meets_CarouselTurns_3 : ∃ (r : RingNo) (i : Word) (d : Line64) (s : State), s.Accepts (.ring r i) d opCarLoad
    carLoadChecks ∧ s.cutOff (r.val / 64) = false :=
  ⟨63, 1, test_desc [(24, 0, 64)], test_run,
   by unfold State.Accepts; decide +kernel⟩

theorem test_meets_CarouselTurns_4 : ∃ (r : RingNo) (i : Word) (_img : Bytes) (s : State) (o : Op), s.alive = true ∧
    s.fab.carLoads.find? (fun o => o.org == .ring r i) = some o ∧ (Ep.of o.d 8).hall = false ∧ s.hif.inflight.any (fun p =>
    p.id == o.id) = true ∧ s.fenced r.val = false ∧ s.cutOff (r.val / 64) = false :=
  ⟨0, 0, [], { test_run with fab := { carLoads := [test_op 5 0x76 (test_desc [(24, 0, 64)])] }, hif := { inflight := [test_op 5 0x76 (test_desc [(24, 0, 64)])] } },
   test_op 5 0x76 (test_desc [(24, 0, 64)]),
   by decide +kernel⟩

theorem test_meets_CarouselTurns_5 : ∃ (p : PortNo) (h b : Line16) (data : Bytes) (s u : State) (x : CarGroup) (n : Nat),
    s.arriveData p.val prColl h (lineBytes b ++ data) = (u, true) ∧ u.collGroup b = (u, some x) ∧ n = u.nearBeat (fld b 4 31 0)
    ∧ fld b 2 5 0 < x.g ∧ fld b 8 31 0 + fld b 12 12 0 ≤ x.rcap :=
  ⟨0, test_dataHdr 5, test_collSub, [], test_car [], ((test_car []).arriveData 0 5 (test_dataHdr 5) (lineBytes test_collSub ++ [])).1, test_carGroup, 11,
   by decide +kernel⟩

theorem test_meets_CarouselTurns_6 : ∃ (p : PortNo) (h b : Line16) (s u : State) (x : CarGroup) (n : Nat), s.arriveData p.val
    prHole h (lineBytes b ++ toLE 16 0) = (u, true) ∧ u.collGroup b = (u, some x) ∧ n = u.nearBeat (fld b 4 31 0) :=
  ⟨0, test_dataHdr 6, test_collSub, test_car [], ((test_car []).arriveData 0 6 (test_dataHdr 6) (lineBytes test_collSub ++ toLE 16 0)).1, test_carGroup, 11,
   by decide +kernel⟩

theorem test_meets_CarouselTurns_7 : ∃ (k : Fin 64) (s : State) (m : CarMap) (x : CarGroup), s.fab.carMap = some m ∧
    (m.slots[k.val]?.bind (fun t => m.groups[t.gidx]?)) = some x ∧ s.running = true ∧ s.locked = true ∧ s.fab.carWait = none ∧
    s.stillBeat = false ∧ s.fab.sentSlots.any (fun e => e.1 == x.group && e.2.1 == s.beat) = false :=
  ⟨0, test_car [], test_carMap, test_carGroup,
   by decide +kernel⟩

theorem test_meets_CarouselTurns_8 : ∃ (g n : Nat) (s : State) (c : CollRec) (r : RingNo) (i : Word) (missing : List Nat),
    s.running = true ∧ s.fab.colls.find? (fun c => c.group.group == g && c.beat == n) = some c ∧ s.collReady c = true ∧
    c.op.org = .ring r i ∧ s.hif.inflight.any (fun p => p.id == c.op.id) = true ∧ s.fenced r.val = false ∧ s.cutOff (r.val /
    64) = false ∧ s.bad = [] ∧ missing = c.group.others.filter (fun k => (s.rankState c k true).2) :=
  ⟨5, 5, { test_car [test_collRec] with hif := { inflight := [test_collRec.op] } }, test_collRec, 0, 0, [1],
   by decide +kernel⟩

theorem test_meets_CarouselTurns_9 : ∃ (cause : BeatLossCause) (s : State), s.alive = true ∧ s.fab.beat.st = .locked ∧
    s.fab.beat.lossDue = some cause :=
  ⟨.noCandidate, test_sync { st := .locked, cnt := 10, lossDue := some .noCandidate },
   by decide +kernel⟩

theorem test_meets_PacketsPass_1 : ∃ (p : PortNo) (h : Line16) (l : Line32) (s u : State), p.val < 24 ∧ s.arrive p.val
    tyLinkCtrl h (lineBytes l) = (u, true) ∧ (u.port p.val).queue = [] ∧ (u.port p.val).st = .check :=
  ⟨23, test_ctlHdr 1, 0, { test_beat with fab := { test_beat.fab with ports := [(23, { st := .check })] } },
   ({ test_beat with fab := { test_beat.fab with ports := [(23, { st := .check })] } } : State).arrive 23 1 (test_ctlHdr 1) (lineBytes (0 : Line32)) |>.1,
   by decide +kernel⟩

theorem test_meets_PacketsPass_2 : ∃ (p : PortNo) (h : Line16) (l : Line32) (s u : State), p.val < 24 ∧ s.arrive p.val
    tyLinkCtrl h (lineBytes l) = (u, true) ∧ (u.port p.val).queue = [] ∧ (u.port p.val).st ≠ .check :=
  ⟨0, test_ctlHdr 1, 0, test_net, (test_net.arrive 0 1 (test_ctlHdr 1) (lineBytes (0 : Line32))).1,
   by decide +kernel⟩

theorem test_meets_PacketsPass_3 : ∃ (p : PortNo) (s : State), s.alive = true ∧ p.val < 24 ∧ ((s.port p.val).st = .check ∨
    (s.port p.val).st = .standby ∨ (s.port p.val).st = .up) ∧ (s.port p.val).queue = [] ∧ 2 ≤ (s.port p.val).credits.getD 0 0 ∧
    (s.port p.val).retry.length < 2048 ∧ (s.port p.val).heldBytes + 52 ≤ 131072 :=
  ⟨0, test_port .check,
   by decide +kernel⟩

theorem test_meets_PacketsPass_4 : ∃ (p : PortNo) (h x : Line16) (b : Bytes) (s u : State) (n q : Nat), p.val < 24 ∧ s.arrive
    p.val tyData h b = (u, true) ∧ Pkt.dst h ≠ s.devId ∧ nextSlot (slotOf s.devId) h = some n ∧ byFlow (u.hopPorts (slotOf
    s.devId) n) (Pkt.flow h) = some q ∧ x = BitVec.ofNat 128 (setBits (setBits h.toNat 7 6 (Pkt.hops h + 1)) 5 4 (Pkt.hops h +
    2)) ∧ (u.port q).queue = [] ∧ (u.port q).maySend x b = true ∧ q < 24 :=
  ⟨0, test_viaHdr, BitVec.ofNat 128 (setBits (setBits test_viaHdr.toNat 7 6 (Pkt.hops test_viaHdr + 1)) 5 4 (Pkt.hops test_viaHdr + 2)), [], test_via, (test_via.arrive 0 0 test_viaHdr []).1, 2, 1,
   by decide +kernel⟩

theorem test_meets_PacketsPass_5 : ∃ (p : PortNo) (h : Line16) (b : Bytes) (s u : State) (n : Nat), p.val < 24 ∧ s.arrive p.val
    tyData h b = (u, true) ∧ Pkt.dst h ≠ s.devId ∧ nextSlot (slotOf s.devId) h = some n ∧ byFlow (u.hopPorts (slotOf s.devId)
    n) (Pkt.flow h) = none :=
  ⟨0, test_viaHdr, [], test_net, (test_net.arrive 0 0 test_viaHdr []).1, 2,
   by decide +kernel⟩

theorem test_meets_PacketsPass_6 : ∃ (p : PortNo) (_why : DiscardReason) (s : State), s.alive = true ∧ ((s.port p.val).st =
    .check ∨ (s.port p.val).st = .standby ∨ (s.port p.val).st = .up) :=
  ⟨31, .crc, { test_beat with fab := { test_beat.fab with ports := [(31, { st := .standby })] } },
   by decide +kernel⟩

theorem test_meets_SyncAndNotices_1 : ∃ (x : Neighbour) (h : Line16) (l : Line32) (_rx : Nat) (s u : State), s.heardFrom x
    tySync h l = (u, true) ∧ u.fab.beat.st ≠ .off ∧ fld l 17 4 0 ≠ u.field .beatCfg [] 4 0 ∧ u.fab.carWait = none :=
  ⟨.port 0, test_ctlHdr 2, 0, 0, test_net, (test_net.heardFrom (.port 0) tySync (test_ctlHdr 2) 0).1,
   by decide +kernel⟩

theorem test_meets_SyncAndNotices_2 : ∃ (x : Neighbour) (h : Line16) (l : Line32) (rx : Nat) (s u : State) (th : Int),
    s.heardFrom x tySync h l = (u, true) ∧ u.fab.beat.st = .seek ∧ fld l 17 4 0 = u.field .beatCfg [] 4 0 ∧ (u.fab.beat.peer
    (neighbourIdx x)).seen = true ∧ 3 ≤ (u.fab.beat.peer (neighbourIdx x)).streak ∧ fld l 0 63 0 = (u.fab.beat.peer
    (neighbourIdx x)).beat + 1 ∧ syncTheta (u.fab.beat.peer (neighbourIdx x)) l rx = some th ∧ th.natAbs ≤ 4000 ∧ fld l 16 3 0
    ≤ 13 ∧ fld l 28 16 0 ≠ u.devId ∧ fld l 18 15 0 = u.mapGen ∧ fld l 24 15 0 = 0 :=
  ⟨.port 0, test_ctlHdr 2, test_syncWord 10, 0, test_sync { st := .seek, cnt := 9, peers := [(0, test_peer)] },
   ((test_sync { st := .seek, cnt := 9, peers := [(0, test_peer)] }).heardFrom (.port 0) tySync (test_ctlHdr 2) (test_syncWord 10)).1, 0,
   by decide +kernel⟩

theorem test_meets_SyncAndNotices_3 : ∃ (x : Neighbour) (h : Line16) (l : Line32) (rx : Nat) (s u : State) (th : Int),
    s.heardFrom x tySync h l = (u, true) ∧ u.fab.beat.st = .locked ∧ u.fab.beat.parent = neighbourIdx x ∧ fld l 17 4 0 =
    u.field .beatCfg [] 4 0 ∧ syncTheta (u.fab.beat.peer (neighbourIdx x)) l rx = some th ∧ u.fab.beat.next = none ∧ fld l 0 63
    0 = u.fab.beat.cnt ∧ fld l 20 16 0 = u.fab.beat.rootId ∧ u.fab.carWait = none :=
  ⟨.port 0, test_ctlHdr 2, test_syncWord 10, 0, test_sync { st := .locked, cnt := 10, parent := 0, stratum := 4, peers := [(0, test_peer)] },
   ((test_sync { st := .locked, cnt := 10, parent := 0, stratum := 4, peers := [(0, test_peer)] }).heardFrom (.port 0) tySync (test_ctlHdr 2) (test_syncWord 10)).1, 0,
   by decide +kernel⟩

theorem test_meets_SyncAndNotices_4 : ∃ (x : Neighbour) (h : Line16) (l : Line32) (s u : State), s.heardFrom x tyNotice h l =
    (u, true) ∧ u.fab.seen.any (fun e => e.1 == fld l 4 16 0 && e.2.1 == fld l 2 15 0 && e.2.2 != 0) = true :=
  ⟨.port 0, test_ctlHdr 3, 0, { test_net with fab := { test_net.fab with seen := [(0, 0, 64)] } },
   (({ test_net with fab := { test_net.fab with seen := [(0, 0, 64)] } } : State).heardFrom (.port 0) tyNotice (test_ctlHdr 3) 0).1,
   by decide +kernel⟩

theorem test_meets_SyncAndNotices_5 : ∃ (x : Neighbour) (h : Line16) (l : Line32) (s u : State), s.heardFrom x tyNotice h l =
    (u, true) ∧ u.fab.seen.any (fun e => e.1 == fld l 4 16 0 && e.2.1 == fld l 2 15 0 && e.2.2 != 0) = false :=
  ⟨.port 0, test_ctlHdr 3, 0, test_net, (test_net.heardFrom (.port 0) tyNotice (test_ctlHdr 3) 0).1,
   by decide +kernel⟩

theorem test_meets_PortsComeAndGo_1 : ∃ (p : PortNo) (s : State), s.alive = true ∧ (s.port p.val).st = .training :=
  ⟨0, test_port .training,
   by decide +kernel⟩

theorem test_meets_PortsComeAndGo_2 : ∃ (p : PortNo) (c : Instr) (s : State), s.alive = true ∧ (s.port p.val).st = .up ∧ (c =
    .linkIdleTimeout p ∨ c = .portFailure p .fec ∨ c = .portFailure p .lock ∨ (c = .portFailure p .replay ∧ ∃ r ∈ (s.port
    p.val).retry, 8 ≤ r.tries)) :=
  ⟨0, .linkIdleTimeout 0, test_net,
   ⟨by decide +kernel, by decide +kernel, .inl rfl⟩⟩

theorem test_meets_PortsComeAndGo_3 : ∃ (p : PortNo) (s : State), s.alive = true ∧ (s.port p.val).st = .down ∧ 1024 ≤ (s.port
    p.val).downFor :=
  ⟨0, { test_beat with fab := { test_beat.fab with ports := [(0, { st := .down, downFor := 1024 })] } },
   by decide +kernel⟩

theorem test_meets_DeviceResets_1 : ∃ (perst : Bool) (_x : HelperState) (_tags : Bool) (_pos : BitVec 7) (_smba : BitVec 3) (s
    : State), (¬ (perst = true ∧ s.ctl.power = .held)) :=
  ⟨true, .blank, true, 0, 0, test_run,
   by decide +kernel⟩

theorem test_meets_DeviceResets_2 : ∃ (_x : HelperState) (_tags : Bool) (_pos : BitVec 7) (_smba : BitVec 3) (s : State),
    s.ctl.power = .held :=
  ⟨.blank, true, 0, 0, { test_run with ctl := { power := .held } },
   by decide +kernel⟩

theorem test_meets_DeviceResets_4 : ∃ (s : State), s.ctl.power = .on :=
  ⟨test_run,
   by decide +kernel⟩

theorem test_meets_DeviceResets_5 : ∃ (s : State), s.alive = true :=
  ⟨test_run,
   by decide +kernel⟩

theorem test_meets_DeviceResets_6 : ∃ (_w _r : Nat) (_f : Bool) (s : State), s.ctl.power = .on :=
  ⟨16, 5, true, test_run,
   by decide +kernel⟩

theorem test_meets_StartUp_1 : ∃ (a b : ImageInfo) (s : State), s.ctl.power = .on ∧ s.sec.st = .boot ∧ s.sec.seeded = true ∧
    s.sec.flash.dir.trial = false ∧ s.imageOk (if s.sec.flash.dir.active then b else a) = true :=
  ⟨test_image0, test_image0, { sec := { seeded := true } },
   by decide +kernel⟩

theorem test_meets_StartUp_2 : ∃ (a b : ImageInfo) (s : State), s.ctl.power = .on ∧ s.sec.st = .boot ∧ s.sec.seeded = true ∧
    s.sec.flash.dir.trial = true ∧ s.sec.flash.dir.tries = false ∧ s.sec.flash.dir.seq.toNat + 1 < 2 ^ 32 ∧ s.imageOk (if
    s.sec.flash.dir.active then b else a) = true :=
  ⟨test_image0, test_image0, { sec := { seeded := true, flash := { dir0 := { trial := true } } } },
   by decide +kernel⟩

theorem test_meets_StartUp_3 : ∃ (a b : ImageInfo) (s : State), s.ctl.power = .on ∧ s.sec.st = .boot ∧ s.sec.seeded = true ∧
    s.sec.flash.dir.trial = true ∧ s.sec.flash.dir.tries = true ∧ s.sec.flash.dir.seq.toNat + 1 < 2 ^ 32 ∧ s.imageOk (if
    s.sec.flash.dir.active then a else b) = true :=
  ⟨test_image0, test_image0, { sec := { seeded := true, flash := { dir0 := { trial := true, tries := true } } } },
   by decide +kernel⟩

theorem test_meets_StartUp_4 : ∃ (a b : ImageInfo) (s : State), s.ctl.power = .on ∧ s.sec.st = .boot ∧ s.sec.seeded = true ∧
    s.sec.flash.dir.trial = false ∧ s.imageOk (if s.sec.flash.dir.active then b else a) = false :=
  ⟨{ test_image0 with keyOk := false }, test_image0, { sec := { seeded := true } },
   by decide +kernel⟩

theorem test_meets_StartUp_5 : ∃ (_l : List PlinthTraining) (s : State), s.alive = true ∧ s.ctl.st = .train :=
  ⟨[], { test_up with ctl := { st := .train, bootStep := 3 } },
   by decide +kernel⟩

theorem test_meets_StartUp_6 : ∃ (_l : List SelfTestFail) (_ax : Bool) (s : State), s.alive = true ∧ s.ctl.st = .test :=
  ⟨[], false, { test_up with ctl := { st := .test, bootStep := 4 } },
   by decide +kernel⟩

theorem test_meets_StartUp_7 : ∃ (f : SelfTestFail) (s : State), s.alive = true ∧ s.ctl.st = .test ∧ s.spareCores (f.core.val /
    256) ≠ [] :=
  ⟨⟨2047, .pop⟩, { test_up with ctl := { st := .test, bootStep := 4 } },
   by decide +kernel⟩

theorem test_meets_FunctionResets_1 : ∃ (g : GalNo) (s : State), s.barUp = true ∧ g.val ≠ 0 :=
  ⟨63, test_run,
   by decide +kernel⟩

theorem test_meets_FunctionResets_2 : ∃ (g : GalNo) (s : State), s.alive = true ∧ g.val ∈ s.hif.inReset ∧ s.galleryFree g.val =
    true :=
  ⟨63, { test_run with hif := { inReset := [63] } },
   by decide +kernel⟩

theorem test_meets_FunctionResets_3 : ∃ (s : State), s.barUp = true ∧ s.running = true :=
  ⟨test_run,
   by decide +kernel⟩

theorem test_meets_SamplesTaken_1 : ∃ (_l : List ThermSample) (s : State), s.alive = true :=
  ⟨[], test_run,
   by decide +kernel⟩

theorem test_meets_ManagementServes_1 : ∃ (tr : Transport) (_n : Nat) (s : State), tr ≠ .doe ∧ s.transportUp tr = true :=
  ⟨.smbus, 0, test_spdm,
   by decide +kernel⟩

theorem test_meets_ManagementServes_2 : ∃ (tr : Transport) (_n : Nat) (s : State), tr ≠ .doe ∧ s.transportUp tr = true ∧
    s.ctl.power = .on :=
  ⟨.vdm, 1, test_spdm,
   by decide +kernel⟩

theorem test_meets_ManagementServes_3 : ∃ (tr : Transport) (n o : Nat) (b : Bytes) (s : State), tr ≠ .doe ∧ s.transportUp tr =
    true ∧ s.ctl.power = .on ∧ s.sec.update = some (n, tr) ∧ o + b.length ≤ 2 ^ 24 :=
  ⟨.smbus, 1, 0, [], { test_spdm with sec := { test_spdm.sec with update := some (1, .smbus) } },
   by decide +kernel⟩

theorem test_meets_ManagementServes_4 : ∃ (tr : Transport) (n : Nat) (_i : ImageInfo) (s : State), s.sec.update = some (n, tr)
    ∧ s.transportUp tr = true ∧ s.ctl.power = .on ∧ s.sec.flash.dir.seq.toNat + 1 < 2 ^ 32 :=
  ⟨.smbus, 1, test_image0, { test_spdm with sec := { test_spdm.sec with update := some (1, .smbus) } },
   by decide +kernel⟩

theorem test_meets_AttestationServes_1 : ∃ (tr : Transport) (s : State), s.ctl.power = .on ∧ s.transportUp tr = true ∧
    (s.spdmUp tr = true ∨ s.sec.st = .fail) :=
  ⟨.smbus, test_spdm,
   by decide +kernel⟩

theorem test_meets_AttestationServes_2 : ∃ (tr : Transport) (s : State), s.spdmUp tr = true :=
  ⟨.smbus, test_spdm,
   by decide +kernel⟩

theorem test_meets_AttestationServes_3 : ∃ (tr : Transport) (c : Instr) (n : Nat) (k : Fin 8) (o l i : Nat) (b : Bytes) (s :
    State), s.spdmUp tr = true ∧ s.spdm tr < n ∧ (c, n) ∈ [(Instr.getCapabilities tr, 1), (.negotiateAlgorithms tr, 2),
    (.getDigests tr, 3), (.getCertificate tr k o l, 3), (.challenge tr k b, 3), (.getMeasurements tr i, 3), (.keyExchange tr b,
    3)] :=
  ⟨.doe, .getCapabilities .doe, 1, 0, 0, 0, 0, [], test_run,
   ⟨by decide +kernel, by decide +kernel, .head _⟩⟩

theorem test_meets_AttestationServes_4 : ∃ (tr : Transport) (s : State), s.spdmUp tr = true ∧ 3 ≤ s.spdm tr :=
  ⟨.smbus, test_spdm,
   by decide +kernel⟩

theorem test_meets_AttestationServes_5 : ∃ (tr : Transport) (_k : Fin 8) (_o _l : Nat) (_b : Bytes) (s : State), s.spdmUp tr =
    true ∧ 3 ≤ s.spdm tr :=
  ⟨.smbus, 0, 0, 0, [], test_spdm,
   by decide +kernel⟩

theorem test_meets_AttestationServes_6 : ∃ (tr : Transport) (_n : Nat) (s : State), s.spdmUp tr = true ∧ 3 ≤ s.spdm tr :=
  ⟨.smbus, 255, test_spdm,
   by decide +kernel⟩

theorem test_meets_AttestationServes_7 : ∃ (s : State) (i : ImageInfo), s.sec.image = some i :=
  ⟨{ test_run with sec := { test_run.sec with image := some test_image0 } }, test_image0,
   by decide +kernel⟩

theorem test_meets_SessionsServe_1 : ∃ (tr : Transport) (_b : Bytes) (s : State), s.spdmUp tr = true ∧ 3 ≤ s.spdm tr :=
  ⟨.smbus, [], test_spdm,
   by decide +kernel⟩

theorem test_meets_SessionsServe_2 : ∃ (n : Fin 4) (s : State), s.sessionUp n.val = true ∧ (s.session n.val).secure = false :=
  ⟨3, test_session { open_ := true, transport := .doe },
   by decide +kernel⟩

theorem test_meets_SessionsServe_3 : ∃ (n : Fin 4) (k : Fin 8) (r : Fin 4) (x y : Bool) (p : Fin 8) (key : BitVec 256) (e :
    Option (BitVec 64)) (b : Bytes) (i : Fin 5) (vs : List GalNo) (c : Instr) (s : State), s.sessionSecure n.val = false ∧ c ∈
    [Instr.keyUpdate n, .heartbeat n, .endSession n, .setCertificate n k b, .debugUnlock n b r x y, .macsecKeyInstall n p x key
    e, .ideKm n i key vs] :=
  ⟨0, 0, 0, true, true, 0, 0, none, [], 0, [], .keyUpdate 0, test_run,
   ⟨by decide +kernel, .head _⟩⟩

theorem test_meets_SessionsServe_4 : ∃ (n : Fin 4) (s : State), s.sessionSecure n.val = true :=
  ⟨3, test_session { open_ := true, secure := true, transport := .doe },
   by decide +kernel⟩

theorem test_meets_SessionsServe_5 : ∃ (n : Fin 4) (_k : Fin 8) (_b : Bytes) (s : State), s.sessionSecure n.val = true :=
  ⟨3, 1, [1], test_session { open_ := true, secure := true, transport := .doe },
   by decide +kernel⟩

theorem test_meets_SessionsServe_6 : ∃ (n : Fin 4) (_x : Bytes) (_r : Fin 4) (_a _b : Bool) (s : State), s.sessionSecure n.val
    = true :=
  ⟨3, [1], 0, true, true, test_session { open_ := true, secure := true, transport := .doe, nonce := some [1] },
   by decide +kernel⟩

theorem test_meets_SessionsServe_7 : ∃ (n : Fin 4) (_p : Fin 8) (_x : Bool) (_key : BitVec 256) (s : State), s.sessionSecure
    n.val = true :=
  ⟨3, 7, true, 5, test_session { open_ := true, secure := true, transport := .doe },
   by decide +kernel⟩

theorem test_meets_InterfacesLock_1 : ∃ (n : Fin 4) (_i : Fin 5) (_key : BitVec 256) (_vs : List GalNo) (s : State),
    s.sessionSecure n.val = true :=
  ⟨3, 4, 5, [1], test_session { open_ := true, secure := true, transport := .doe },
   by decide +kernel⟩

theorem test_meets_InterfacesLock_2 : ∃ (i : Fin 5) (s : State), s.barUp = true ∧ (Tbl.look s.sec.ides i.val {}).keyed = true ∧
    (Tbl.look s.sec.ides i.val {}).insecure = false :=
  ⟨4, { test_run with sec := { test_run.sec with ides := [(4, { keyed := true })] } },
   by decide +kernel⟩

theorem test_meets_InterfacesLock_3 : ∃ (g : GalNo) (s : State), s.tdispUp = true ∧ g.val ≠ 0 :=
  ⟨63, test_session { open_ := true, secure := true, transport := .doe },
   by decide +kernel⟩

theorem test_meets_InterfacesLock_4 : ∃ (c : Instr) (s : State), s.tdispUp = true ∧ c ∈ [Instr.lockInterface 0, .startInterface
    0, .stopInterface 0] :=
  ⟨.stopInterface 0, test_session { open_ := true, secure := true, transport := .doe },
   ⟨by decide +kernel, by simp⟩⟩

theorem test_meets_InterfacesLock_5 : ∃ (g : GalNo) (c : Instr) (s : State), s.tdispUp = false ∧ c ∈ [Instr.lockInterface g,
    .startInterface g, .stopInterface g] :=
  ⟨0, .lockInterface 0, test_run,
   ⟨by decide +kernel, .head _⟩⟩

theorem test_meets_RegisterReads_1 : ∃ (s : State), s.barServed 0 = true :=
  ⟨test_up,
   by decide +kernel⟩

theorem test_meets_RegisterReads_2 : ∃ (off : Nat) (_w : Word) (s : State), s.barUp = true ∧ off % 4 = 0 ∧ regAt off = none ∧
    msixOff 0 off = none :=
  ⟨0xFFC, 5, test_up,
   by decide +kernel⟩

theorem test_meets_RegisterReads_3 : ∃ (g : GalNo) (off : Nat) (_w : Word) (s : State), s.barUp = true ∧ g.val ≠ 0 ∧ off % 4 =
    0 ∧ vfReg g.val off = none ∧ off ∉ [0x04, 0x08, 0x40000, 0x40004, 0x40008] ∧ msixOff g.val off = none :=
  ⟨63, 0xC, 5, test_up,
   by decide +kernel⟩

theorem test_meets_RegisterReads_4 : ∃ (s : State), s.barUp = true :=
  ⟨test_run,
   by decide +kernel⟩

theorem test_meets_DebugClosed_1 : ∃ (_o _n : Nat) (_b : Option Bytes) (s : State), s.barUp = true ∧ s.debugOpen = false :=
  ⟨0, 4, none, test_run,
   by decide +kernel⟩

end
end

section
/-! The statements on scope: descriptors turned away (R12, R242, R473), and the registers of BAR0 as they read and write
(R2, R7 to R10, R490, R498, R500). -/

namespace Sys2Proof.Machine

/-! ### Descriptors turned away -/

/-- A judgement gives no RESULT. -/
theorem State.judged_result {s : State} {o : Origin} {d : Line64} {opcode : Nat} {checks : State → Op → List Bad} {v : Done}
    (h : s.judged o d opcode checks = some v) : v.result = 0 :=
  firstVerdict_result h

/-- A refused descriptor of a ring writes what its number and its record take, and nothing else (R12). -/
theorem State.accept_refused_only {s : State} {unit : Nat} {r : RingNo} {i : Word} {d : Line64} {opcode : Nat}
    {checks : State → Op → List Bad} {effect : State → Op → State} {v : Done} (hr : s.running = true)
    (h : s.judged (.ring r i) d opcode checks = some v) :
    s.Only wAccept (s.accept unit (.ring r i) d opcode checks effect) := by
  rw [State.accept_of_refused hr h]
  have htaken : OnlyM (mask wAccept) s (s.taken (.ring r i) d opcode) :=
    ((OnlyM.refl _ s).lit_nextOp (by decide)).lit_hifInflight (by decide)
  exact (State.complete_only htaken (by decide)).only

/-- A refused descriptor of a ring takes one number (R249). -/
theorem State.accept_refused_nextOp {s : State} {unit : Nat} {r : RingNo} {i : Word} {d : Line64} {opcode : Nat}
    {checks : State → Op → List Bad} {effect : State → Op → State} {v : Done} (hr : s.running = true)
    (h : s.judged (.ring r i) d opcode checks = some v) :
    (s.accept unit (.ring r i) d opcode checks effect).nextOp = s.nextOp + 1 := by
  rw [State.accept_of_refused hr h]
  exact (State.complete_only (.refl _ (s.taken (.ring r i) d opcode)) (Nat.or_self _)).nextOp.resolve_left (by decide)

/-! ### Bits and bytes -/

@[simp] theorem toLE_length (n v : Nat) : (toLE n v).length = n := by
  induction n generalizing v with
  | zero => rfl
  | succ n ih => simp [toLE, ih]

theorem ofLE_toLE (n v : Nat) : ofLE (toLE n v) = v % 256 ^ n := by
  induction n generalizing v with
  | zero => simp [toLE, ofLE, Nat.mod_one]
  | succ n ih => rw [toLE, ofLE, ih, BitVec.toNat_ofNat, pow_succ' 256 n, Nat.mod_mul]

/-- A word survives its way through four bytes. -/
@[simp] theorem ofNat_ofLE_toLE_word (w : Word) : BitVec.ofNat 32 (ofLE (toLE 4 w.toNat)) = w :=
  BitVec.eq_of_toNat_eq (by rw [BitVec.toNat_ofNat, ofLE_toLE]; omega)

/-- A field that was set reads back, cut to its width. -/
theorem bits_setBits (n v : Nat) {hi lo : Nat} : bits (setBits n hi lo v) hi lo = v % 2 ^ (hi + 1 - lo) := by
  unfold setBits bits
  have hA : 0 < 2 ^ lo := Nat.two_pow_pos lo
  have hb : n / 2 ^ lo % 2 ^ (hi + 1 - lo) ≤ n / 2 ^ lo := Nat.mod_le ..
  have hq : n / 2 ^ lo - n / 2 ^ lo % 2 ^ (hi + 1 - lo) = 2 ^ (hi + 1 - lo) * (n / 2 ^ lo / 2 ^ (hi + 1 - lo)) := by
    have := Nat.div_add_mod (n / 2 ^ lo) (2 ^ (hi + 1 - lo)); omega
  rw [Nat.add_mul_div_right _ _ hA, Nat.mul_comm _ (2 ^ lo), Nat.sub_mul_div, hq, Nat.mul_add_mod, Nat.mod_mod]

/-- A field below bit `m` does not see what lies from bit `m` up. -/
theorem bits_mod_two_pow (n : Nat) {hi lo m : Nat} (h : hi < m) (hlo : lo ≤ hi) : bits (n % 2 ^ m) hi lo = bits n hi lo := by
  unfold bits
  have hm : 2 ^ m = 2 ^ lo * 2 ^ (m - lo) := by rw [← pow_add]; congr 1; omega
  rw [hm, Nat.mod_mul_right_div_self, Nat.mod_mod_of_dvd _ (Nat.pow_dvd_pow 2 (by omega))]

/-! ### Which functions BAR0 answers -/

theorem State.secFailed_of_barUp {s : State} (h : s.barUp = true) : s.secFailed = false := by
  unfold State.barUp State.alive at h
  unfold State.secFailed
  cases hs : s.sec.st <;> simp_all

theorem State.barServed_of_barUp {s : State} (h : s.barUp = true) (func : Nat) : s.barServed func = true := by
  simp [State.barServed, h]

theorem State.alive_of_barUp {s : State} (h : s.barUp = true) : s.alive = true := by
  simp only [State.barUp, Bool.and_eq_true] at h
  exact h.1

/-- A register write takes BAR0 neither down nor up. -/
theorem State.writeWord_barUp (s : State) (func off : Nat) (w : Word) : (s.writeWord func off w).barUp = s.barUp := by
  have h := State.writeWord_only (a1 := func) (a2 := off) (a3 := w) (.refl _ s) (Nat.or_self _)
  unfold State.barUp State.alive
  rw [h.ctl.power.resolve_left (by decide), h.ctl.bootStep.resolve_left (by decide), h.sec.st.resolve_left (by decide)]

/-! ### REGISTER_WRITE by the shape of its access -/

theorem exec_registerWrite (f : GalNo) (off : Nat) (d : Bytes) (en : Bool) (s : State) :
    exec (.registerWrite f off d en) s = execRegisterWrite f off d en s := rfl

/-- A write of a shape that is not served is recorded (R498). -/
theorem exec_registerWrite_badShape {f : GalNo} {off : Nat} {d : Bytes} {en : Bool} {s : State} (hup : s.barUp = true)
    (h : writeShape off d en = false) :
    exec (.registerWrite f off d en) s = .next (s.refuseWrite f.val off .badDescriptor) := by
  simp [exec_registerWrite, execRegisterWrite, State.barServed_of_barUp hup, h, State.secFailed_of_barUp hup]

/-- Four aligned bytes are one register write (R498). -/
theorem exec_registerWrite_word {f : GalNo} {off : Nat} {d : Bytes} {s : State} (hup : s.barUp = true) (ho : off % 4 = 0)
    (hd : d.length = 4) :
    exec (.registerWrite f off d true) s = .next (s.writeWord f.val off (BitVec.ofNat 32 (ofLE d))) := by
  have hshape : writeShape off d true = true := by simp [writeShape, hd, ho]
  simp [exec_registerWrite, execRegisterWrite, State.barServed_of_barUp hup, hshape, hd, List.take_of_length_le]

/-- Eight aligned bytes are two register writes, the lower address first (R498). -/
theorem exec_registerWrite_pair {f : GalNo} {off : Nat} {a b : Bytes} {s : State} (hup : s.barUp = true) (ho : off % 8 = 0)
    (ha : a.length = 4) (hb : b.length = 4) :
    exec (.registerWrite f off (a ++ b) true) s = .next ((s.writeWord f.val off (BitVec.ofNat 32 (ofLE a))).writeWord f.val
      (off + 4) (BitVec.ofNat 32 (ofLE b))) := by
  have hshape : writeShape off (a ++ b) true = true := by simp [writeShape, ha, hb, ho]
  have hlow : (a ++ b).take 4 = a := by rw [← ha, List.take_left]
  have hhigh : b.take 4 = b := by rw [← hb, List.take_length]
  simp [exec_registerWrite, execRegisterWrite, State.barServed_of_barUp hup, hshape, hlow, hhigh, ha, hb]

/-! ### Reading a word -/

/-- Latch number `i` set to a word, or cleared (R500). -/
def State.setLatch (s : State) (i : Nat) (x : Option Word) : State :=
  { s with ctl := { s.ctl with latches := Tbl.put s.ctl.latches i x none } }

@[simp] theorem State.setLatch_look (s : State) (i : Nat) (x : Option Word) :
    Tbl.look (s.setLatch i x).ctl.latches i none = x := Tbl.look_put_self _ _ _ _

theorem State.pairRead_vf (s : State) {func : Nat} (off n : Nat) (h : func ≠ 0) : s.pairRead func off n = (s, []) := by
  simp [State.pairRead, h]

/-- A read that covers a word touches it. -/
theorem touches_of_covers {off n w : Nat} (h : covers off n w = true) : touches off n w = true := by
  simp only [covers, touches, Bool.and_eq_true, decide_eq_true_eq] at h ⊢
  omega

/-- A read that meets no running pair takes no latch and leaves none. -/
theorem State.pairRead_untouched (s : State) (func : Nat) {off n : Nat}
    (h : ∀ p ∈ runningPairs, touches off n p = false ∧ touches off n (p + 4) = false) :
    s.pairRead func off n = (s, []) := by
  have hcov : ∀ p ∈ runningPairs, covers off n p = false := fun p hp =>
    Bool.eq_false_iff.mpr fun hc => absurd (touches_of_covers hc) (by simp [(h p hp).1])
  simp only [runningPairs, List.forall_mem_cons, List.not_mem_nil, false_implies, implies_true, and_true] at h hcov
  simp [State.pairRead, runningPairs, h, hcov]

/-- An aligned read of a running pair's low word latches the high one (R500). -/
theorem State.pairRead_low (s : State) {p i : Nat} (h : p = 0xA00008 ∧ i = 0 ∨ p = 0xA0002C ∧ i = 1) :
    s.pairRead 0 p 4 = (s.setLatch i (some (BitVec.ofNat 32 (s.readWord 0 (p + 4)))), []) := by
  obtain ⟨rfl, rfl⟩ | ⟨rfl, rfl⟩ := h
  all_goals simp [State.pairRead, runningPairs, covers, touches, State.setLatch]

/-- An aligned read of a running pair's high word takes the latched one, and the latch is gone (R500). -/
theorem State.pairRead_high {s : State} {p i : Nat} {w : Word} (h : p = 0xA00008 ∧ i = 0 ∨ p = 0xA0002C ∧ i = 1)
    (hw : Tbl.look s.ctl.latches i none = some w) :
    s.pairRead 0 (p + 4) 4 = (s.setLatch i none, [(p + 4, w.toNat)]) := by
  obtain ⟨rfl, rfl⟩ | ⟨rfl, rfl⟩ := h
  all_goals simp [State.pairRead, runningPairs, covers, touches, State.setLatch, hw]

/-- The word at `w` as a read of `n` bytes at `off` returns it: what a latch of a running pair holds for it, or the register. -/
def State.seenWord (s : State) (func off n w : Nat) : Nat :=
  match (s.pairRead func off n).2.find? (fun p => p.1 == w) with
  | some p => p.2
  | none => s.readWord func w

theorem State.seenWord_of_noLatch {s : State} {func off n : Nat} (h : (s.pairRead func off n).2 = []) (w : Nat) :
    s.seenWord func off n w = s.readWord func w := by
  simp [State.seenWord, h]

/-- Of an aligned unit, the four bytes at an aligned offset are the word there. -/
theorem unit_word (g : Nat → Nat) {off : Nat} (h : off % 4 = 0) :
    ((toLE 4 (g (off / 8 * 8)) ++ toLE 4 (g (off / 8 * 8 + 4))).drop (off % 8)).take 4 = toLE 4 (g off) := by
  have h8 : off % 8 = 0 ∨ off % 8 = 4 := by omega
  rcases h8 with h0 | h4
  · have e : off / 8 * 8 = off := by omega
    rw [h0, e, List.drop_zero, List.take_append_of_le_length (by simp), List.take_of_length_le (by simp)]
  · have e : off / 8 * 8 + 4 = off := by omega
    rw [h4, e, List.drop_append_of_le_length (by simp), List.drop_of_length_le (by simp), List.nil_append,
      List.take_of_length_le (by simp)]

/-! ### COUNTER_PAIR_READ by the shape of its access -/

theorem exec_counterPairRead (f : GalNo) (off n : Nat) (s : State) :
    exec (.counterPairRead f off n) s = execCounterPairRead f off n s := rfl

/-- A read of a shape that is not served answers Unsupported Request (R498). -/
theorem exec_counterPairRead_badShape {f : GalNo} {off n : Nat} {s : State} (hs : s.barServed f.val = true)
    (h : readShape off n = false) :
    exec (.counterPairRead f off n) s = .next { s with out := s.out ++ [.unsupported f.val] } := by
  simp [exec_counterPairRead, execCounterPairRead, hs, h, State.emit]

/-- A served read answers the bytes of its unit, as the latches have them (R498, R500). -/
theorem exec_counterPairRead_served {f : GalNo} {off n : Nat} {s : State} (hs : s.barServed f.val = true)
    (h : readShape off n = true) :
    exec (.counterPairRead f off n) s = .next (((s.pairRead f.val off n).1.draw 1).emit (.readData f.val
      (((toLE 4 (s.seenWord f.val off n (off / 8 * 8)) ++ toLE 4 (s.seenWord f.val off n (off / 8 * 8 + 4))).drop
        (off % 8)).take n) false)) := by
  have hmod : off - off / 8 * 8 = off % 8 := by omega
  rw [exec_counterPairRead, execCounterPairRead, ← hmod]
  simp only [hs, h, Bool.not_true, Bool.false_eq_true, if_false]
  rfl

/-- A served read of an aligned word answers that word. -/
theorem exec_counterPairRead_word {f : GalNo} {off : Nat} {s : State} (hs : s.barServed f.val = true) (ho : off % 4 = 0) :
    exec (.counterPairRead f off 4) s = .next (((s.pairRead f.val off 4).1.draw 1).emit
      (.readData f.val (toLE 4 (s.seenWord f.val off 4 off)) false)) := by
  have hshape : readShape off 4 = true := by simp [readShape]; omega
  rw [exec_counterPairRead_served hs hshape, unit_word (s.seenWord f.val off 4) ho]

/-- A served read that meets no running pair answers the bytes of its registers and leaves the latches. -/
theorem exec_counterPairRead_untouched {f : GalNo} {off n : Nat} {s : State} (hs : s.barServed f.val = true)
    (h : readShape off n = true) (hp : s.pairRead f.val off n = (s, [])) :
    exec (.counterPairRead f off n) s = .next ((s.draw 1).emit (.readData f.val
      (((toLE 4 (s.readWord f.val (off / 8 * 8)) ++ toLE 4 (s.readWord f.val (off / 8 * 8 + 4))).drop (off % 8)).take n)
        false)) := by
  have hno : (s.pairRead f.val off n).2 = [] := by rw [hp]
  rw [exec_counterPairRead_served hs h, hp, State.seenWord_of_noLatch hno, State.seenWord_of_noLatch hno]

/-- A served read of an aligned word outside the running pairs answers that register and leaves the latches. -/
theorem exec_counterPairRead_register {f : GalNo} {off v : Nat} {s : State} (hs : s.barServed f.val = true)
    (ho : off % 4 = 0) (hp : s.pairRead f.val off 4 = (s, [])) (hv : s.readWord f.val off = v) :
    ∃ t, exec (.counterPairRead f off 4) s = .next t ∧ t.out = s.out ++ [.readData f.val (toLE 4 v) false] ∧
      t.ctl = s.ctl := by
  have hread := exec_counterPairRead_word hs ho
  rw [hp, State.seenWord_of_noLatch (by rw [hp]), hv] at hread
  exact ⟨_, hread, rfl, rfl⟩

/-! ### What a word of BAR0 reads as -/

/-- A served word of PF BAR0 reads as its register. -/
theorem State.readWord_pf {s : State} {off : Nat} {x : RegSpec} {idx : List Nat} (hf : s.secFailed = false ∨ secServed off = true)
    (hm : msixOff 0 off = none) (hr : regAt off = some (x, idx)) (ht : x.reg ≠ .secTdi) :
    s.readWord 0 off = s.regWord 0 x idx := by
  have hserved : (s.secFailed && !((0 : Nat) == 0 && secServed off)) = false := by rcases hf with hf | hf <;> simp [hf]
  unfold State.readWord
  simp only [hserved, hm, hr, ht, false_and, if_true, if_false, Bool.false_eq_true]

/-- A live register reads as the device computes it (R2, R472). -/
theorem State.regWord_live {s : State} {func : Nat} {x : RegSpec} {idx : List Nat} (h : liveReg x.reg = true) :
    s.regWord func x idx = s.statusWord func x.reg idx := by
  simp [State.regWord, h]

/-- Where no register stands PF BAR0 reads zero (R7). -/
theorem State.readWord_pf_empty (s : State) {off : Nat} (hm : msixOff 0 off = none) (hr : regAt off = none) :
    s.readWord 0 off = 0 := by
  simp [State.readWord, hm, hr]

/-- Where no register stands a VF window reads zero (R7). -/
theorem State.readWord_vf_empty (s : State) {func off : Nat} (hf : func ≠ 0) (hm : msixOff func off = none)
    (hr : vfReg func off = none) (ho : off ∉ [0x04, 0x08, 0x40000, 0x40004, 0x40008]) : s.readWord func off = 0 := by
  simp only [List.mem_cons, List.not_mem_nil, or_false, not_or] at ho
  simp [State.readWord, hm, hr, hf, ho]

theorem atBit_eq (i : Nat) (b : Bool) : atBit i b = b.toNat * 2 ^ i := by
  cases b <;> simp [atBit]

/-- GLB_STATE.READY: RUN, with the beat unit ROOT or LOCKED (R490). -/
theorem State.stateWord_ready (s : State) : bit s.stateWord 8 = (s.running && s.locked) := by
  unfold State.stateWord
  generalize (s.running && s.locked) = ready
  simp only [atBit_eq, atBits, bit]
  cases ready
  · simp only [Bool.toNat_false, beq_eq_false_iff_ne]
    omega
  · simp only [Bool.toNat_true, beq_iff_eq]
    omega

theorem State.stateWord_ready_iff {s : State} (h : s.alive = true) :
    bit s.stateWord 8 = true ↔ s.ctl.st = .run ∧ (s.fab.beat.st = .root ∨ s.fab.beat.st = .locked) := by
  simp [State.stateWord_ready, State.running, State.locked, h]

theorem regSpec_reg (r : Reg) : (regSpec r).reg = r := by
  unfold regSpec
  cases h : regTable.find? (fun x => x.reg == r) with
  | none => rfl
  | some x => simpa using List.find?_some h

theorem regAt_glbId : regAt 0 = some (regSpec .glbId, []) := by decide +kernel

theorem regAt_glbState : regAt (regOff .glbState []) = some (regSpec .glbState, []) := by decide +kernel

/-- GLB_ID at offset 0 (R2). -/
theorem State.readWord_glbId (s : State) : s.readWord 0 0 = 0x00070100 := by
  rw [State.readWord_pf (.inr rfl) rfl regAt_glbId (by rw [regSpec_reg]; decide),
    State.regWord_live (by rw [regSpec_reg]; decide), regSpec_reg]
  rfl

/-- GLB_STATE once BAR0 is up (R472). -/
theorem State.readWord_glbState {s : State} (hup : s.barUp = true) : s.readWord 0 (regOff .glbState []) = s.stateWord := by
  rw [State.readWord_pf (.inl (State.secFailed_of_barUp hup)) rfl regAt_glbState (by rw [regSpec_reg]; decide),
    State.regWord_live (by rw [regSpec_reg]; decide), regSpec_reg]
  rfl

/-! ### Writing the fields of a register -/

/-- Registers of one field whose write does nothing but write that field. -/
def loneRegs : List Reg :=
  [.glbDbgSel, .glbCommitCrc, .catSnapLo, .catSnapHi, .catRdLo, .catRdHi, .catWdog, .rasSrcSel, .hifSumLo, .hifAckLo]

theorem regAt_regOff : ∀ r ∈ loneRegs, regAt (regOff r []) = some (regSpec r, []) := by decide +kernel

theorem regOff_aligned : ∀ r ∈ loneRegs, regOff r [] % 4 = 0 ∧ msixOff 0 (regOff r []) = none := by decide +kernel

/-- A write of a register of one field changes its fields alone. -/
theorem State.writePf_lone (s : State) (w : Word) {r : Reg} (hr : r ∈ loneRegs) :
    s.writePf (regOff r []) w = s.writeFields 0 (regOff r []) (regSpec r) [] w := by
  have hat := regAt_regOff r hr
  unfold State.writePf
  simp only [hat, regSpec_reg]
  simp only [loneRegs, List.mem_cons, List.not_mem_nil, or_false] at hr
  rcases hr with rfl | rfl | rfl | rfl | rfl | rfl | rfl | rfl | rfl | rfl
  all_goals simp [State.portsFollow]

/-- A write of four bytes at a register of one field writes that field. -/
theorem exec_registerWrite_lone {s : State} (hup : s.barUp = true) {r : Reg} (hr : r ∈ loneRegs) (w : Word) :
    exec (.registerWrite 0 (regOff r []) (toLE 4 w.toNat) true) s =
      .next (s.writeFields 0 (regOff r []) (regSpec r) [] w) := by
  obtain ⟨haligned, hmsix⟩ := regOff_aligned r hr
  rw [exec_registerWrite_word hup haligned (toLE_length ..), ofNat_ofLE_toLE_word, ← s.writePf_lone w hr]
  simp [State.writeWord, State.secFailed_of_barUp hup, hmsix]

/-- A field with no stated range of such a register takes every value: no chapter has a rule for it (R530). -/
theorem State.fieldBad_lone (s : State) {r : Reg} (hr : r ∈ loneRegs) (idx : List Nat) (w : Nat) {f : Field}
    (hf : f.range = none) : s.fieldBad (regSpec r) idx w f = [] := by
  unfold State.fieldBad
  simp only [regSpec_reg, hf]
  simp only [loneRegs, List.mem_cons, List.not_mem_nil, or_false] at hr
  rcases hr with rfl | rfl | rfl | rfl | rfl | rfl | rfl | rfl | rfl | rfl
  all_goals simp [check, isEnable]

/-- The state with a register holding a word, in force at once (R8). -/
def State.storeReg (s : State) (r : Reg) (v : Nat) : State :=
  { s with regs := Tbl.put s.regs (regOff r []) (BitVec.ofNat 32 v) (regSpec r).resetWord
           inForce := Tbl.erase s.inForce (regOff r []) }

/-- A write of a register of one RW or RWL field: refused during a commit, refused under its lock, or stored (R8, R10). -/
theorem State.writeFields_lone (s : State) {r : Reg} (hr : r ∈ loneRegs) {f : Field} (off : Nat) (w : Word)
    (hf : (regSpec r).fields = [f]) (hrange : f.range = none) (hacc : f.acc = .rw ∨ f.acc = .rwl) :
    s.writeFields 0 off (regSpec r) [] w =
      if s.ctl.cBusy = true ∧ f.commit = true ∧ bits w.toNat f.hi f.lo ≠ s.field r [] f.hi f.lo then
        s.refuseWrite 0 off .lockedField
      else if f.acc = .rwl ∧ s.rwlLocked 0 (regSpec r) [] = true ∧ bits w.toNat f.hi f.lo ≠ s.field r [] f.hi f.lo then
        (s.storeReg r (s.written r [])).refuseWrite 0 off .lockedField
      else s.storeReg r (setBits (s.written r []) f.hi f.lo (bits w.toNat f.hi f.lo)) := by
  have hbad := s.fieldBad_lone hr [] w.toNat hrange
  have hmay : mayWrite 0 f = true := by rcases hacc with h | h <;> simp [mayWrite, h]
  have hnow : (f.acc == .rws) = false := by rcases hacc with h | h <;> simp [h]
  have hfs : [f].filter (mayWrite 0) = [f] := by simp [hmay]
  unfold State.writeFields State.field
  simp only [hf, hfs, regSpec_reg, List.any_cons, List.any_nil, Bool.or_false, hnow, Bool.and_false, Bool.false_eq_true,
    if_false, List.flatMap_cons, List.flatMap_nil, List.append_nil, List.filter_cons, List.filter_nil, hbad, check,
    Bool.and_eq_true, beq_iff_eq, bne_iff_ne, and_assoc]
  split
  · rfl
  · split <;> rfl

/-- A plain RW field takes the value written; nothing is refused (R8). -/
theorem State.writeFields_rw (s : State) {r : Reg} (hr : r ∈ loneRegs) {hi lo rst : Nat} (off : Nat) (w : Word)
    (hf : (regSpec r).fields = [⟨hi, lo, .rw, rst, none, false⟩]) :
    s.writeFields 0 off (regSpec r) [] w = s.storeReg r (setBits (s.written r []) hi lo (bits w.toNat hi lo)) := by
  rw [s.writeFields_lone hr off w hf rfl (.inl rfl), if_neg (fun ⟨_, hcommit, _⟩ => nomatch hcommit),
    if_neg (fun ⟨hrwl, _⟩ => nomatch hrwl)]

theorem State.storeReg_written (s : State) (r : Reg) (v : Nat) : (s.storeReg r v).written r [] = v % 2 ^ 32 := by
  rw [State.written, State.storeReg, Tbl.look_put_self, BitVec.toNat_ofNat]

theorem State.storeReg_written_ne (s : State) {r q : Reg} (v : Nat) {idx : List Nat} (h : regOff q idx ≠ regOff r []) :
    (s.storeReg r v).written q idx = s.written q idx := by
  rw [State.written, State.storeReg, Tbl.look_put_ne _ _ _ _ h, State.written]

/-- A changed RWL field of the commit set is refused under its lock, and keeps its value, a commit under way or not (R10). -/
theorem State.writeFields_locked {s : State} {r : Reg} (hr : r ∈ loneRegs) {hi lo rst : Nat} {off : Nat} {w : Word}
    (hf : (regSpec r).fields = [⟨hi, lo, .rwl, rst, none, true⟩]) (hl : s.rwlLocked 0 (regSpec r) [] = true)
    (hne : bits w.toNat hi lo ≠ s.field r [] hi lo) :
    (s.writeFields 0 off (regSpec r) [] w).written r [] = s.written r [] ∧
    (s.writeFields 0 off (regSpec r) [] w).ctl = (s.refuseWrite 0 off .lockedField).ctl := by
  rw [s.writeFields_lone hr off w hf rfl (.inr rfl)]
  split
  · exact ⟨rfl, rfl⟩
  · rw [if_pos ⟨rfl, hl, hne⟩]
    exact ⟨(s.storeReg_written r _).trans (Nat.mod_eq_of_lt (BitVec.isLt _)), rfl⟩

/-- A summary or acknowledgement base is locked while the host interface is enabled in RUN (R10). -/
theorem State.rwlLocked_hif {s : State} {r : Reg} (hr : (regSpec r).lock = .hif) (hst : s.ctl.st = .run)
    (hen : s.flag .hifCtrl [] 0 = true) (func : Nat) : s.rwlLocked func (regSpec r) [] = true := by
  simp [State.rwlLocked, State.unitLocks, State.inHold, hr, hst, hen]

/-! ### Writes where nothing stands -/

/-- A write of an offset that no register occupies changes nothing (R7). -/
theorem State.writeWord_pf_empty {s : State} (hup : s.barUp = true) {off : Nat} (w : Word) (hm : msixOff 0 off = none)
    (hr : regAt off = none) : s.writeWord 0 off w = s := by
  simp [State.writeWord, State.secFailed_of_barUp hup, hm, State.writePf, hr]

/-- A write of an offset of a VF window that no register occupies changes nothing (R7). -/
theorem State.writeWord_vf_empty {s : State} (hup : s.barUp = true) {func off : Nat} (w : Word) (hf : func ≠ 0)
    (hm : msixOff func off = none) (hr : vfReg func off = none) (ho : off ∉ [0x04, 0x08, 0x40000, 0x40004, 0x40008]) :
    s.writeWord func off w = s := by
  simp only [List.mem_cons, List.not_mem_nil, or_false, not_or] at ho
  simp [State.writeWord, State.secFailed_of_barUp hup, hm, hf, State.writeVf, hr, ho]

/-! ### The clauses of RegistersReadAndWrite -/

/-- The registers RegistersReadAndWrite writes, with the bits of their field. -/
def rwFields : List (Reg × Nat × Nat) :=
  [(.glbDbgSel, 3, 0), (.glbCommitCrc, 31, 0), (.catSnapLo, 31, 12), (.catSnapHi, 31, 0), (.catRdLo, 31, 12),
    (.catRdHi, 31, 0), (.catWdog, 15, 0), (.rasSrcSel, 15, 0)]

theorem rwFields_spec : ∀ x ∈ rwFields, x.1 ∈ loneRegs ∧ x.2.1 < 32 ∧ x.2.2 ≤ x.2.1 ∧
    (regSpec x.1).fields = [⟨x.2.1, x.2.2, .rw, 0, none, false⟩] := by decide +kernel

/-- A plain RW field reads back as written, and no other register changes (R8). -/
theorem exec_registerWrite_rw {r : Reg} {hi lo : Nat} {s : State} (hup : s.barUp = true) (hr : (r, hi, lo) ∈ rwFields)
    (w : Word) :
    ∃ t, exec (.registerWrite 0 (regOff r []) (toLE 4 w.toNat) true) s = .next t ∧
      t.field r [] hi lo = bits w.toNat hi lo ∧ t.ctl = s.ctl ∧
      (∀ q idx, regOff q idx ≠ regOff r [] → t.written q idx = s.written q idx) := by
  obtain ⟨hlone, hhi, hlo, hfields⟩ := rwFields_spec _ hr
  have hwrite := s.writeFields_rw hlone (regOff r []) w hfields
  refine ⟨_, (exec_registerWrite_lone hup hlone w).trans (congrArg _ hwrite), ?_, rfl, fun q idx hne =>
    s.storeReg_written_ne _ hne⟩
  rw [State.field, State.storeReg_written, bits_mod_two_pow _ hhi hlo, bits_setBits]
  exact Nat.mod_eq_of_lt (Nat.mod_lt _ (Nat.two_pow_pos _))

theorem baseRegs_spec : ∀ r ∈ [Reg.hifSumLo, .hifAckLo], r ∈ loneRegs ∧ (regSpec r).lock = .hif ∧
    (regSpec r).fields = [⟨31, 9, .rwl, 0, none, true⟩] := by decide +kernel

/-- A change of a locked base address is refused with LOCKED_FIELD and leaves it (R10). -/
theorem exec_registerWrite_locked {r : Reg} {s : State} (hup : s.barUp = true) (hst : s.ctl.st = .run)
    (hen : s.flag .hifCtrl [] 0 = true) (hr : r = .hifSumLo ∨ r = .hifAckLo) {w : Word}
    (hne : bits w.toNat 31 9 ≠ s.field r [] 31 9) :
    ∃ t, exec (.registerWrite 0 (regOff r []) (toLE 4 w.toNat) true) s = .next t ∧
      t.field r [] 31 9 = s.field r [] 31 9 ∧ t.ctl = (s.refuseWrite 0 (regOff r []) .lockedField).ctl := by
  obtain ⟨hlone, hlock, hfields⟩ := baseRegs_spec r (by simpa using hr)
  obtain ⟨hkept, hctl⟩ := State.writeFields_locked hlone (off := regOff r []) hfields (State.rwlLocked_hif hlock hst hen 0) hne
  exact ⟨_, exec_registerWrite_lone hup hlone w, by rw [State.field, hkept, State.field], hctl⟩

/-- The low word of a running pair reads as it stands and latches the high one (R500). -/
theorem exec_counterPairRead_low {p i : Nat} {s : State} (hs : s.barServed 0 = true)
    (hp : p = 0xA00008 ∧ i = 0 ∨ p = 0xA0002C ∧ i = 1) :
    ∃ t, exec (.counterPairRead 0 p 4) s = .next t ∧ t.out = s.out ++ [.readData 0 (toLE 4 (s.readWord 0 p)) false] ∧
      Tbl.look t.ctl.latches i none = some (BitVec.ofNat 32 (s.readWord 0 (p + 4))) := by
  have hpair := s.pairRead_low hp
  have hread := exec_counterPairRead_word (f := 0) (off := p) hs (by omega)
  have hseen : s.seenWord 0 p 4 p = s.readWord 0 p := State.seenWord_of_noLatch (by rw [hpair]) p
  refine ⟨_, hread, ?_, ?_⟩
  · show (s.pairRead 0 p 4).1.out ++ [Out.readData 0 (toLE 4 (s.seenWord 0 p 4 p)) false] = _
    rw [hpair, hseen]
    rfl
  · show Tbl.look (s.pairRead 0 p 4).1.ctl.latches i none = _
    rw [hpair, State.setLatch_look]

/-- The high word of a running pair reads as it was latched, and the latch is gone (R500). -/
theorem exec_counterPairRead_high {p i : Nat} {s : State} {w : Word} (hs : s.barServed 0 = true)
    (hp : p = 0xA00008 ∧ i = 0 ∨ p = 0xA0002C ∧ i = 1) (hw : Tbl.look s.ctl.latches i none = some w) :
    ∃ t, exec (.counterPairRead 0 (p + 4) 4) s = .next t ∧ t.out = s.out ++ [.readData 0 (toLE 4 w.toNat) false] ∧
      Tbl.look t.ctl.latches i none = none := by
  have hpair := State.pairRead_high hp hw
  have hread := exec_counterPairRead_word (f := 0) (off := p + 4) hs (by omega)
  have hseen : s.seenWord 0 (p + 4) 4 (p + 4) = w.toNat := by simp [State.seenWord, hpair]
  refine ⟨_, hread, ?_, ?_⟩
  · show (s.pairRead 0 (p + 4) 4).1.out ++ [Out.readData 0 (toLE 4 (s.seenWord 0 (p + 4) 4 (p + 4))) false] = _
    rw [hpair, hseen]
    rfl
  · show Tbl.look (s.pairRead 0 (p + 4) 4).1.ctl.latches i none = _
    rw [hpair, State.setLatch_look]

/-- An aligned word that is no register of PF BAR0 meets no running pair. -/
theorem State.pairRead_empty (s : State) {off : Nat} (ho : off % 4 = 0) (hr : regAt off = none) :
    s.pairRead 0 off 4 = (s, []) := by
  have hocc : ∀ p ∈ runningPairs, (regAt p).isSome ∧ (regAt (p + 4)).isSome ∧ p % 4 = 0 := by decide +kernel
  refine s.pairRead_untouched 0 fun p hp => ?_
  obtain ⟨hlow, hhigh, hp4⟩ := hocc p hp
  have hne : off ≠ p := fun e => by simp [← e, hr] at hlow
  have hne4 : off ≠ p + 4 := fun e => by simp [← e, hr] at hhigh
  simp only [touches, Bool.and_eq_false_iff, decide_eq_false_iff_not]
  omega

end Sys2Proof.Machine

open Sys2Proof Sys2Proof.Machine

/-- Settles O16: every descriptor command goes through the one acceptance. -/
theorem descriptorsTurnedAway : Obligations.DescriptorsTurnedAway := by
  unfold Obligations.DescriptorsTurnedAway
  refine ⟨fun x hx r i d s v hrun hv hfence hcut => ?_, fun x hx r i d s hrun => ?_⟩
  all_goals obtain ⟨unit, effect, he⟩ := descRows_accept x hx (.ring r i) d s
  · obtain ⟨hanswered, -, hinflight, -⟩ := State.accept_refused (unit := unit) (effect := effect) hrun hv hfence hcut
    rw [State.judged_result hv] at hanswered
    exact ⟨_, he, hanswered, hinflight, State.accept_refused_nextOp hrun hv, State.accept_refused_only hrun hv⟩
  · rw [he, State.accept_of_not_running hrun]

/-- Settles O44: one lemma for each shape of access, then for each kind of register. -/
theorem registersReadAndWrite : Obligations.RegistersReadAndWrite := by
  unfold Obligations.RegistersReadAndWrite
  refine ⟨fun f off d en s hup hshape => exec_registerWrite_badShape hup hshape, ?_,
    fun r hi lo w s hup hr => exec_registerWrite_rw hup hr w,
    fun r w s hup hst hen hr hne => exec_registerWrite_locked hup hst hen hr hne, ?_,
    fun p i s hs hp => ⟨exec_counterPairRead_low hs hp, fun w hw => exec_counterPairRead_high hs hp hw⟩⟩
  · intro f off a b s hup ho ha hb
    have hup' := (s.writeWord_barUp f.val off (BitVec.ofNat 32 (ofLE a))).trans hup
    exact ⟨_, _, exec_registerWrite_word hup (by omega) ha, exec_registerWrite_word hup' (by omega) hb,
      exec_registerWrite_pair hup ho ha hb⟩
  · intro f off n s hs
    split
    · next hshape => exact exec_counterPairRead_badShape hs hshape
    · next hshape =>
      intro hmiss
      exact ⟨_, exec_counterPairRead_untouched hs (by simpa using hshape) (s.pairRead_untouched f.val hmiss), rfl, rfl⟩

/-- Settles O59: each clause is a served read of one word, or a write where nothing stands. -/
theorem registerReads : Obligations.RegisterReads := by
  unfold Obligations.RegisterReads
  refine ⟨fun s hs => ?_, fun off w s hup ho hr hm => ⟨?_, ?_⟩, fun g off w s hup hg ho hr hno hm => ⟨?_, ?_⟩,
    fun s hup => ?_⟩
  · obtain ⟨t, hread, hout, -⟩ := exec_counterPairRead_register (f := 0) hs rfl (s.pairRead_untouched 0 (by decide))
      s.readWord_glbId
    exact ⟨t, hread, hout⟩
  · exact exec_counterPairRead_register (State.barServed_of_barUp hup 0) ho (s.pairRead_empty ho hr)
      (s.readWord_pf_empty hm hr)
  · rw [exec_registerWrite_word hup ho (toLE_length ..)]
    exact congrArg _ (State.writeWord_pf_empty hup _ hm hr)
  · exact exec_counterPairRead_register (State.barServed_of_barUp hup _) ho (s.pairRead_vf off 4 hg)
      (s.readWord_vf_empty hg hm hr hno)
  · rw [exec_registerWrite_word hup ho (toLE_length ..), State.writeWord_vf_empty hup _ hg hm hr hno]
  · obtain ⟨t, hread, hout, -⟩ := exec_counterPairRead_register (f := 0) (State.barServed_of_barUp hup 0) rfl
      (s.pairRead_untouched 0 (by decide)) (State.readWord_glbState hup)
    exact ⟨t, s.stateWord, hread, hout, State.stateWord_ready_iff (State.alive_of_barUp hup)⟩
end

section
/-! The statements on the architecture: beat boundaries, local ticks, deadlines of collectives, the trace's beat and the watchdog
(R20, R308, R313, R314, R372, R384, R408, R412, R462, R466, R489, R492, R531). -/

namespace Sys2Proof.Machine

/-! ### The count of the beat unit -/

/-- What a boundary settles and the rest of it leaves: the count, the count a lock has found, the RWS fields that are not in
force, and the beat of the windows. -/
def State.settled (s : State) : Nat × Option Nat × Tbl Word × Nat := (s.beat, s.fab.beat.next, s.inForce, s.cat.wbeat)

/-- Both states have settled on the same. -/
def State.SameBeat (s t : State) : Prop := t.settled = s.settled

theorem State.SameBeat.refl (s : State) : s.SameBeat s := Eq.refl _

theorem State.SameBeat.trans {s t u : State} (h : s.SameBeat t) (k : t.SameBeat u) : s.SameBeat u :=
  Eq.trans k h

theorem State.SameBeat.foldl {α : Type} {f : State → α → State} (h : ∀ (u : State) x, u.SameBeat (f u x)) (l : List α)
    (s : State) : s.SameBeat (l.foldl f s) := by
  induction l generalizing s with
  | nil => exact .refl s
  | cons x l ih => exact (h s x).trans (ih _)

/-- What writes none of the pieces that hold them leaves them. -/
theorem OnlyM.sameBeat {m : Nat} {s t : State} (h : OnlyM m s t)
    (e : [Leaf.fabBeat, .inForce, .catWbeat].all (fun p => !m.testBit p.ctorIdx) = true) : s.SameBeat t := by
  simp only [List.all_cons, List.all_nil, Bool.and_true, Bool.and_eq_true, Bool.not_eq_true'] at e
  obtain ⟨hbeat, hforce, hwbeat⟩ := e
  have hsame := h.fab.beat.resolve_left (fun k => Bool.false_ne_true (hbeat.symm.trans k))
  have hshadow := h.inForce.resolve_left (fun k => Bool.false_ne_true (hforce.symm.trans k))
  have hwindow := h.cat.wbeat.resolve_left (fun k => Bool.false_ne_true (hwbeat.symm.trans k))
  simp only [State.SameBeat, State.settled, State.beat, hsame, hshadow, hwindow]

/-- A quiesce learnt of may cost the lock, never the count (R376). -/
theorem State.learnQuiesce_sameBeat (s : State) (q g : Nat) : s.SameBeat (s.learnQuiesce q g) := by
  unfold State.learnQuiesce
  split
  · exact rfl
  · exact (State.addQuiesce_only (.refl _ s) (Nat.or_self _)).sameBeat (by decide)

theorem State.actNotice_sameBeat (s : State) (n : Notice) : s.SameBeat (s.actNotice n) := by
  have hlater (u : State) : u.SameBeat (u.noticeLater n) :=
    (State.noticeLater_only (.refl _ u) (Nat.or_self _)).sameBeat (by decide)
  unfold State.actNotice
  extract_lets near
  split
  · split <;> exact .refl s
  split
  · split
    · exact hlater s
    · exact .refl s
  split
  · exact ((State.setPlanes_only (.refl _ s) (Nat.or_self _)).sameBeat (by decide)).trans (hlater _)
  split
  · exact s.learnQuiesce_sameBeat ..
  split
  · exact hlater s
  · exact .refl s

theorem State.raiseNotice_sameBeat (s : State) (kind effect port planes gen : Nat) :
    s.SameBeat (s.raiseNotice kind effect port planes gen) := by
  unfold State.raiseNotice
  extract_lets n _ s1
  have hseen : s.SameBeat (s1.rememberPair n.origin n.serial) :=
    State.SameBeat.trans rfl ((State.rememberPair_only (.refl _ s1) (Nat.or_self _)).sameBeat (by decide))
  exact (hseen.trans (State.actNotice_sameBeat ..)).trans
    ((State.forwardNotice_only (.refl _ _) (Nat.or_self _)).sameBeat (by decide))

theorem State.announce_sameBeat (s : State) : s.SameBeat s.announce := by
  have hport (u : State) (p : Nat) (x : Port) : u.SameBeat (u.setPort p x) := rfl
  have hown (u : State) (m : BitVec 8) : u.SameBeat { u with fab := { u.fab with announced := m } } := rfl
  unfold State.announce
  split
  · exact .refl s
  · extract_lets e s1 s2 m
    have h1 : s.SameBeat s1 := .foldl (fun u p => by
      dsimp only
      split
      · exact (hport u ..).trans (State.raiseNotice_sameBeat ..)
      · exact .refl u) _ s
    have h2 : s1.SameBeat s2 := .foldl (fun u k => by
      dsimp only
      split
      · exact hport u ..
      · exact .refl u) _ s1
    split
    · exact h1.trans h2
    · exact ((h1.trans h2).trans (hown s2 _)).trans (State.raiseNotice_sameBeat ..)

/-- A new parent changes where the unit steers, not its count (R368). -/
theorem State.chooseParent_sameBeat (s : State) : s.SameBeat s.chooseParent := by
  unfold State.chooseParent
  extract_lets
  split
  · exact .refl s
  split
  all_goals split <;> exact rfl

theorem State.sendSyncs_sameBeat (s : State) : s.SameBeat s.sendSyncs := by
  have hsent (u : State) (i : Nat) (y : Peer) : u.SameBeat ((u.draw 1).setBeat (u.fab.beat.setPeer i y)) := rfl
  unfold State.sendSyncs
  exact .foldl (fun u x => (hsent u _ _).trans ((State.sendControl_only (.refl _ _) (Nat.or_self _)).sameBeat (by decide))) _ s

/-! ### Descriptors accepted as a hold begins -/

/-- An operation whose effect leaves the count leaves it as its descriptor is taken in, refused or not. -/
theorem State.accept_sameBeat {effect : State → Op → State} (he : ∀ u o, State.SameBeat u (effect u o)) (s : State)
    (unit : Nat) (o : Origin) (d : Line64) (opcode : Nat) (checks : State → Op → List Bad) :
    s.SameBeat (s.accept unit o d opcode checks effect) := by
  have htaken : s.SameBeat (s.taken o d opcode) := (State.take_only (.refl _ s) (Nat.or_self _)).fst.sameBeat (by decide)
  cases hrun : s.running with
  | false => rw [State.accept_of_not_running hrun]; exact .refl s
  | true =>
    cases hjudged : s.judged o d opcode checks with
    | none => rw [State.accept_of_accepts ⟨hrun, hjudged⟩]; exact htaken.trans (he _ _)
    | some v =>
      rw [State.accept_of_refused hrun hjudged]
      exact htaken.trans ((State.complete_only (.refl _ _) (Nat.or_self _)).sameBeat (by decide))

theorem State.quiesceStart_sameBeat (s : State) (o : Op) : s.SameBeat (s.quiesceStart o) :=
  s.raiseNotice_sameBeat noteQuiesce s.nextQuiesce 0 0 (fld o.d 8 15 0)

theorem State.acceptQuiesce_sameBeat (s : State) (o : Origin) (d : Line64) : s.SameBeat (s.acceptQuiesce o d) :=
  State.accept_sameBeat State.quiesceStart_sameBeat s _ o d _ _

/-- Of the operations a descriptor brings, QUIESCE alone touches the beat unit, and it leaves the count. -/
theorem State.acceptLine_sameBeat (s : State) (o : Origin) (f : Fetched) : ∀ t ∈ s.acceptLine o f, s.SameBeat t := by
  unfold State.acceptLine
  extract_lets d
  split
  rotate_right
  · exact fun _ h => nomatch h
  all_goals rintro _ ⟨⟩
  · exact (State.acceptNop_only (.refl _ s) (Nat.or_self _)).sameBeat (by decide)
  · exact (State.acceptFence_only (.refl _ s) (Nat.or_self _)).sameBeat (by decide)
  · exact (State.acceptCopy_only (.refl _ s) (Nat.or_self _)).sameBeat (by decide)
  · exact (State.acceptFill_only (.refl _ s) (Nat.or_self _)).sameBeat (by decide)
  · exact (State.acceptCompare_only (.refl _ s) (Nat.or_self _)).sameBeat (by decide)
  · exact (State.acceptGather_only (.refl _ s) (Nat.or_self _)).sameBeat (by decide)
  · exact (State.acceptStrided_only (.refl _ s) (Nat.or_self _)).sameBeat (by decide)
  · exact (State.acceptTranspose_only (.refl _ s) (Nat.or_self _)).sameBeat (by decide)
  · exact (State.acceptT24_only (.refl _ s) (Nat.or_self _)).sameBeat (by decide)
  · exact (State.acceptDmaStop_only (.refl _ s) (Nat.or_self _)).sameBeat (by decide)
  · exact (State.acceptAdmit_only (.refl _ s) (Nat.or_self _)).sameBeat (by decide)
  · exact (State.acceptAppend_only (.refl _ s) (Nat.or_self _)).sameBeat (by decide)
  · exact (State.acceptPolicy_only (.refl _ s) (Nat.or_self _)).sameBeat (by decide)
  · exact (State.acceptFork_only (.refl _ s) (Nat.or_self _)).sameBeat (by decide)
  · exact (State.acceptCancel_only (.refl _ s) (Nat.or_self _)).sameBeat (by decide)
  · exact (State.acceptRelease_only (.refl _ s) (Nat.or_self _)).sameBeat (by decide)
  · exact (State.acceptProgLoad_only (.refl _ s) (Nat.or_self _)).sameBeat (by decide)
  · exact (State.acceptBind_only (.refl _ s) (Nat.or_self _)).sameBeat (by decide)
  · exact (State.acceptUnbind_only (.refl _ s) (Nat.or_self _)).sameBeat (by decide)
  · exact (State.acceptTile_only (.refl _ s) (Nat.or_self _)).sameBeat (by decide)
  · exact (State.acceptTileBs_only (.refl _ s) (Nat.or_self _)).sameBeat (by decide)
  · exact (State.acceptAttn_only (.refl _ s) (Nat.or_self _)).sameBeat (by decide)
  · exact (State.acceptPageMove_only (.refl _ s) (Nat.or_self _)).sameBeat (by decide)
  · exact (State.acceptObjCreate_only (.refl _ s) (Nat.or_self _)).sameBeat (by decide)
  · exact (State.acceptAccession_only (.refl _ s) (Nat.or_self _)).sameBeat (by decide)
  · exact (State.acceptObjMap_only (.refl _ s) (Nat.or_self _)).sameBeat (by decide)
  · exact (State.acceptObjRelease_only (.refl _ s) (Nat.or_self _)).sameBeat (by decide)
  · exact (State.acceptMigrate_only (.refl _ s) (Nat.or_self _)).sameBeat (by decide)
  · exact (State.acceptObjPin_only (.refl _ s) (Nat.or_self _)).sameBeat (by decide)
  · exact (State.acceptObjQuery_only (.refl _ s) (Nat.or_self _)).sameBeat (by decide)
  · exact (State.acceptWinOpen_only (.refl _ s) (Nat.or_self _)).sameBeat (by decide)
  · exact (State.acceptWinClose_only (.refl _ s) (Nat.or_self _)).sameBeat (by decide)
  · exact (State.acceptWinPut_only (.refl _ s) (Nat.or_self _)).sameBeat (by decide)
  · exact (State.acceptWinGet_only (.refl _ s) (Nat.or_self _)).sameBeat (by decide)
  · exact (State.acceptColl_only (.refl _ s) (Nat.or_self _)).sameBeat (by decide)
  · exact s.acceptQuiesce_sameBeat o d
  · exact (State.acceptCarLoad_only (.refl _ s) (Nat.or_self _)).sameBeat (by decide)
  · exact (State.acceptAddnorm_only (.refl _ s) (Nat.or_self _)).sameBeat (by decide)

theorem State.acceptEntry_sameBeat (s : State) (e : PollEntry) : s.SameBeat (s.acceptEntry e) := by
  have hrefuse (u : State) (o : Origin) (d : Line64) (c off : Nat) : u.SameBeat (u.refuseLine o d c off) :=
    (State.refuseLine_only (.refl _ u) (Nat.or_self _)).sameBeat (by decide)
  unfold State.acceptEntry
  extract_lets o d
  split
  · exact hrefuse s ..
  split
  · exact State.SameBeat.trans ((State.count_only (.refl _ s) (Nat.or_self _)).sameBeat (by decide)) (hrefuse _ ..)
  split
  · next t ht => exact s.acceptLine_sameBeat o e.entry t ht
  · exact hrefuse s ..

theorem State.acceptFetched_sameBeat (s : State) : s.SameBeat s.acceptFetched := by
  unfold State.acceptFetched
  split
  · exact .refl s
  · exact State.SameBeat.trans ((State.setPoll_only (.refl _ s) (Nat.or_self _)).sameBeat (by decide))
      (.foldl State.acceptEntry_sameBeat _ _)

theorem State.beginHold_sameBeat (s : State) (cause : Nat) : s.SameBeat (s.beginHold cause) :=
  have hhold (u : State) : u.SameBeat
      { u with ctl := { u.ctl with holdReq := none, holding := some (u.ctl.holding.getD cause) } } := rfl
  (s.acceptFetched_sameBeat.trans (hhold _)).trans
    ((State.dropPoll_only (.refl _ _) (Nat.or_self _)).sameBeat (by decide))

theorem State.takeHold_sameBeat (s : State) : s.SameBeat s.takeHold := by
  unfold State.takeHold
  split
  · exact .refl s
  · exact s.beginHold_sameBeat _

/-! ### A boundary -/

/-- The messages and interrupts with which a boundary and a local tick begin. -/
def State.beatMessages (s : State) : State := s.sendOwed.ringMessages.incidentBeat.tickInterrupts

theorem State.beatMessages_only (s : State) : OnlyM (mask [.hifRings, .hifMsixPend, .hifOwedVecs, .rasIntLeft, .rasIntPend,
    .rasIntEnd, .out]) s s.beatMessages :=
  State.tickInterrupts_only (State.incidentBeat_only (State.ringMessages_only (State.sendOwed_only (.refl _ s)
    (by decide)) (by decide)) (by decide)) (by decide)

/-- What opens a boundary once the shadowed fields have taken effect. -/
def State.boundaryOpensRest (s : State) : State :=
  s.takeHold.quiesceTake.chooseParent.announce.markUnlocked.clearSlices.ageLinks

theorem State.boundaryOpens_eq (s : State) :
    s.boundaryOpens = s.latchSnaps.beatMessages.takeShadowed.boundaryOpensRest := rfl

theorem State.boundaryOpensRest_sameBeat (s : State) : s.SameBeat s.boundaryOpensRest := by
  have hquiesce := (State.quiesceTake_only (.refl _ s.takeHold) (Nat.or_self _)).sameBeat (by decide)
  have hparent := ((s.takeHold_sameBeat.trans hquiesce).trans (State.chooseParent_sameBeat _)).trans
    (State.announce_sameBeat _)
  exact hparent.trans (OnlyM.sameBeat (m := mask [.fabColls, .fabArrivals, .fabPorts, .fabSeen])
    (State.ageLinks_only (State.clearSlices_only (State.markUnlocked_only (.refl _ _) (by decide)) (by decide)) (by decide))
    (by decide))

theorem State.boundaryCloses_sameBeat (s : State) : s.SameBeat s.boundaryCloses := by
  have hfreeze := (State.freezeForDump_only (.refl _ s) (Nat.or_self _)).sameBeat (by decide)
  have hpoll := (State.boundaryPoll_only (.refl _ s.freezeForDump) (Nat.or_self _)).sameBeat (by decide)
  have hflush := (State.windowsFlush_only (.refl _ s.freezeForDump.boundaryPoll) (Nat.or_self _)).sameBeat (by decide)
  have hpump := (State.winPump_only (.refl _ s.freezeForDump.boundaryPoll.windowsFlush) (Nat.or_self _)).sameBeat (by decide)
  have hclose := ((hfreeze.trans hpoll).trans hflush).trans hpump
  unfold State.boundaryCloses
  extract_lets s1
  split
  · exact hclose.trans s1.sendSyncs_sameBeat
  · exact hclose

/-- A boundary keeps the count it is given, puts every RWS field in force and counts the windows from it (R20, R408, R412). -/
theorem State.boundary_spec (s : State) :
    s.boundary.beat = s.beat ∧ s.boundary.fab.beat.next = s.fab.beat.next ∧ s.boundary.inForce = [] ∧
      s.boundary.cat.wbeat = s.beat := by
  let s1 : State := { s with cat := { s.cat with wbeat := s.beat } }
  let u := s1.latchSnaps.beatMessages
  have hlatch := (State.latchSnaps_only (.refl _ s1) (Nat.or_self _)).sameBeat (by decide)
  have hopen : s1.SameBeat u := hlatch.trans (s1.latchSnaps.beatMessages_only.sameBeat (by decide))
  have hrest := u.takeShadowed.boundaryOpensRest_sameBeat
  rw [← State.boundaryOpens_eq] at hrest
  have haccrue := (State.boundaryAccrues_only (.refl _ s1.boundaryOpens) (Nat.or_self _)).sameBeat (by decide)
  have hform := (State.boundaryForms_only (.refl _ s1.boundaryOpens.boundaryAccrues) (Nat.or_self _)).sameBeat (by decide)
  have hslot := (State.openFirst_only (.refl _ s1.boundaryOpens.boundaryAccrues.boundaryForms) (Nat.or_self _)).sameBeat
    (by decide)
  have hall : u.takeShadowed.SameBeat s.boundary :=
    (((hrest.trans haccrue).trans hform).trans hslot).trans (State.boundaryCloses_sameBeat _)
  simp only [State.SameBeat, State.settled, Prod.mk.injEq] at hall hopen
  obtain ⟨hbeat, hnext, hforce, hwindow⟩ := hall
  obtain ⟨hbeat', hnext', -, hwindow'⟩ := hopen
  exact ⟨hbeat.trans hbeat', hnext.trans hnext', hforce, hwindow.trans hwindow'⟩

/-- The next count is one more, or the one a lock has found, which is then taken (R369, R372). -/
theorem State.nextCount_spec (s : State) :
    s.nextCount.beat = s.fab.beat.next.getD ((s.beat + 1) % 2 ^ 64) ∧ s.nextCount.fab.beat.next = none := by
  unfold State.nextCount
  extract_lets b due
  split
  · next hnext => exact ⟨by rw [hnext]; rfl, hnext⟩
  · next n hnext => simp [State.beat, State.setBeat, show s.fab.beat.next = some n from hnext]

theorem exec_beatBoundary {s : State} (hrun : s.running = true) (hon : s.beatOff = false)
    (hstarted : s.fab.beat.started = true) : exec .beatBoundary s = .next s.nextCount.boundary := by
  show execBeatBoundary s = _
  simp [execBeatBoundary, hrun, hon, hstarted]

/-! ### Folds whose steps each write one part -/

/-- A fold leaves what none of its steps writes. -/
theorem foldl_get_of_ne {σ ι κ β : Type} {get : σ → κ → β} {key : ι → κ} {f : σ → ι → σ}
    (hne : ∀ u i k, k ≠ key i → get (f u i) k = get u k) {k : κ} (l : List ι) (s : σ) (hk : ∀ i ∈ l, k ≠ key i) :
    get (l.foldl f s) k = get s k := by
  induction l generalizing s with
  | nil => rfl
  | cons i l ih =>
    rw [List.foldl_cons, ih _ (fun j hj => hk j (.tail _ hj)), hne _ _ _ (hk i (.head _))]

/-- What one step of a fold writes stands as that step left it. -/
theorem foldl_get_of_mem {σ ι κ β : Type} {get : σ → κ → β} {key : ι → κ} {f : σ → ι → σ} {R : β → β → Prop}
    (hne : ∀ u i k, k ≠ key i → get (f u i) k = get u k) (hkey : Function.Injective key)
    (hself : ∀ u i, R (get u (key i)) (get (f u i) (key i))) {l : List ι} (hl : l.Nodup) (s : σ) {i : ι} (hi : i ∈ l) :
    R (get s (key i)) (get (l.foldl f s) (key i)) := by
  induction l generalizing s with
  | nil => nomatch hi
  | cons j l ih =>
    obtain ⟨hj, hl⟩ := List.nodup_cons.mp hl
    rw [List.foldl_cons]
    rcases List.mem_cons.mp hi with rfl | hi
    · rw [foldl_get_of_ne hne l _ (fun k hk e => hj (by rwa [hkey e]))]
      exact hself s i
    · have hij : key i ≠ key j := fun e => hj (hkey e ▸ hi)
      rw [← hne s j _ hij]
      exact ih hl _ hi

/-! ### A local tick -/

/-- A plinth re-evaluated: its new level and hot state come of its hottest samples, which begin anew (R308, R313, R314). -/
def Plinth.Evaluated (x y : Plinth) : Prop :=
  y.level = levelNext x.level x.hottest.jMax x.hottest.dMax ∧ y.hot = hotNext x.hot x.hottest.dMax ∧ y.jMax = 0 ∧ y.dMax = 0

@[simp] theorem Plinth.hottest_level (x : Plinth) : x.hottest.level = x.level := by unfold Plinth.hottest; split <;> rfl
@[simp] theorem Plinth.hottest_hot (x : Plinth) : x.hottest.hot = x.hot := by unfold Plinth.hottest; split <;> rfl

@[simp] theorem State.reportThreshold_plinth (s : State) (crossed : Bool) (sensor : Nat) (critical : Bool) (j : Nat) :
    (s.reportThreshold crossed sensor critical).plinth j = s.plinth j :=
  State.plinth_congr ((State.reportThreshold_only (.refl _ s) (Nat.or_self _)).plinths.resolve_left (by decide)) j

/-- Evaluating a plinth writes that plinth alone. -/
theorem State.evalPlinth_spec (s : State) (boundary : Bool) (p : Nat) :
    (s.plinth p).Evaluated ((s.evalPlinth boundary p).plinth p) ∧
      ∀ j, j ≠ p → (s.evalPlinth boundary p).plinth j = s.plinth j := by
  unfold State.evalPlinth
  extract_lets x lv pw pc dw dc s1 s2 s3
  have hcount (j : Nat) : s3.plinth j = s1.plinth j :=
    (State.plinth_congr ((State.countIf_only (.refl _ s2) (Nat.or_self _)).plinths.resolve_left (by decide)) j).trans
      (by simp [s2])
  have hread (j : Nat) : (if lv = x.level then s3 else s3.incident clsThermal 0x40 .ok (srcPlinth p)
      (lv + x.jMax % 1024 * 2 ^ 16 + x.dMax % 1024 * 2 ^ 32) 0).plinth j = s1.plinth j := by
    split
    · exact hcount j
    · exact (State.incident_plinth ..).trans (hcount j)
  refine ⟨?_, fun j hj => (hread j).trans (State.setPlinth_plinth_ne _ hj)⟩
  rw [hread, State.setPlinth_plinth]
  exact ⟨by simp [lv, x], by simp [x], rfl, rfl⟩

theorem State.evalThermal_plinth (s : State) (boundary : Bool) {p : Nat} (hp : p < 8) :
    (s.plinth p).Evaluated ((s.evalThermal boundary).plinth p) :=
  foldl_get_of_mem (get := State.plinth) (key := id) (fun u p => (u.evalPlinth_spec boundary p).2)
    Function.injective_id (fun u p => (u.evalPlinth_spec boundary p).1) List.nodup_range s (List.mem_range.mpr hp)

/-- Refresh debt leaves a plinth's level, its hot state and its samples. -/
theorem State.accrueDebt_plinth (s : State) {x : Plinth} {p : Nat} (hp : p < 8) (h : x.Evaluated (s.plinth p)) :
    x.Evaluated (s.accrueDebt.plinth p) := by
  unfold State.accrueDebt
  exact foldl_get_of_mem (get := State.plinth) (key := id) (R := fun y z => x.Evaluated y → x.Evaluated z)
    (fun u p j hj => by simp only [id] at hj; simp [State.setPlinth_plinth_ne _ hj]) Function.injective_id
    (fun u p hu => by simpa [Plinth.Evaluated] using hu) List.nodup_range (s.draw 1) (List.mem_range.mpr hp) h

/-- The windows move on by one (R531). -/
def State.nextWindow (s : State) : State := { s with cat := { s.cat with wbeat := s.cat.wbeat + 1 } }

theorem exec_localTick {s : State} (halive : s.alive = true) (hoff : s.beatOff = true) :
    exec .localTick s = .next ((s.beatMessages.nextWindow.evalThermal false).accrueDebt) := by
  show execLocalTick s = _
  simp [execLocalTick, halive, hoff, State.beatMessages, State.nextWindow]

/-! ### A deadline -/

/-- What an arrival is kept under. -/
def Arrival.isFor (a : Arrival) (k : Nat × Nat × Nat) : Bool := a.group == k.1 && a.beat == k.2.1 && a.rank == k.2.2

theorem Arrival.isFor_iff (a : Arrival) (k : Nat × Nat × Nat) : a.isFor k = true ↔ (a.group, a.beat, a.rank) = k := by
  simp [Arrival.isFor, Prod.ext_iff, and_assoc]

/-- What has arrived, by group, beat and rank. -/
def State.arrivalAt (s : State) (k : Nat × Nat × Nat) : Arrival := s.arrival k.1 k.2.1 k.2.2

theorem State.arrivalAt_isFor (s : State) (k : Nat × Nat × Nat) : (s.arrivalAt k).isFor k = true := by
  show ((s.fab.arrivals.find? (fun a => a.isFor k)).getD { group := k.1, beat := k.2.1, rank := k.2.2 }).isFor k = true
  cases hfind : s.fab.arrivals.find? (fun a => a.isFor k) with
  | none => simp [Arrival.isFor]
  | some a => simpa using List.find?_some hfind

/-- An arrival that is put reads back under its own key, and every other stays. -/
theorem State.setArrival_arrivalAt (s : State) (a : Arrival) (k : Nat × Nat × Nat) :
    (s.setArrival a).arrivalAt k = if a.isFor k then a else s.arrivalAt k := by
  have hkept : (fun x : Arrival => !(x.group == a.group && x.beat == a.beat && x.rank == a.rank) && x.isFor k) =
      fun x => x.isFor k && !a.isFor k := by
    funext x
    rw [Bool.eq_iff_iff]
    simp only [Arrival.isFor, Bool.and_eq_true, Bool.not_eq_true', Bool.and_eq_false_iff, beq_iff_eq, beq_eq_false_iff_ne]
    grind
  have hread (u : State) : u.arrivalAt k = (u.fab.arrivals.find? (fun x => x.isFor k)).getD
      { group := k.1, beat := k.2.1, rank := k.2.2 } := rfl
  have hput : (s.setArrival a).fab.arrivals.find? (fun x => x.isFor k) =
      (s.fab.arrivals.find? (fun x => x.isFor k && !a.isFor k)).or ([a].find? (fun x => x.isFor k)) := by
    simp only [← hkept, State.setArrival, List.find?_append, List.find?_filter, Bool.decide_and, Bool.decide_eq_true]
  rw [hread, hread, hput]
  cases hk : a.isFor k with
  | false => simp [hk]
  | true =>
    have hnone : s.fab.arrivals.find? (fun x => x.isFor k && !true) = none := by simp
    rw [hnone]
    simp [hk]

/-- A deadline's step: a rank's contribution is late (R384). -/
def State.markLate (g n : Nat) (s : State) (r : Nat) : State := s.setArrival { s.arrival g n r with late := true }

theorem State.markLate_arrivalAt_ne (g n : Nat) (s : State) (r : Nat) (k : Nat × Nat × Nat) (h : k ≠ (g, n, r)) :
    (s.markLate g n r).arrivalAt k = s.arrivalAt k := by
  have hkey := s.arrivalAt_isFor (g, n, r)
  rw [Arrival.isFor_iff] at hkey
  have hother : Arrival.isFor { s.arrival g n r with late := true } k = false :=
    Bool.eq_false_iff.mpr fun hk => h (((Arrival.isFor_iff ..).mp hk).symm.trans hkey)
  rw [State.markLate, State.setArrival_arrivalAt, hother]
  rfl

theorem State.markLate_arrivalAt (g n : Nat) (s : State) (r : Nat) :
    (s.markLate g n r).arrivalAt (g, n, r) = { s.arrivalAt (g, n, r) with late := true } := by
  have hkey := s.arrivalAt_isFor (g, n, r)
  have hsame : Arrival.isFor { s.arrival g n r with late := true } (g, n, r) = true := hkey
  rw [State.markLate, State.setArrival_arrivalAt, hsame]
  rfl

theorem CarGroup.mem_others {x : CarGroup} {r : Nat} : r ∈ x.others ↔ r < x.g ∧ r ≠ x.rank := by simp [CarGroup.others]

theorem exec_collDeadline {g n cap : Nat} {s : State} {x : CarGroup} (hg : s.carGroupOf g = some (x, cap))
    (halive : s.alive = true) (hn : n + 2 ≤ s.beat) :
    exec (.collDeadline g n) s = .next (x.others.foldl (State.markLate g n) s) := by
  show execCollDeadline g n s = _
  simp only [execCollDeadline, hg, halive, hn, decide_true, Bool.and_self, if_true]
  rfl

/-! ### The trace's beat -/

theorem State.circular_congr {s t : State} (h : t.regs = s.regs) : t.circular = s.circular := by
  simp only [State.circular, State.flag, State.field, State.written, h]

theorem State.settleTrace_circular {s : State} (h : s.circular = true) : s.settleTrace = s := by
  simp [State.settleTrace, h]

/-- The end of a trigger's effect leaves a circular trace as it stands. -/
theorem State.settleTrace_afterTrigger {s : State} (h : s.circular = true) :
    (if s.flag .catTrCtrl [] 1 then s.freezeRings 1 else s).settleTrace.cat.trace = s.cat.trace := by
  have hfreeze := State.freezeRings_only (a1 := 1) (.refl _ s) (Nat.or_self _)
  split
  · rw [State.settleTrace_circular ((State.circular_congr (hfreeze.regs.resolve_left (by decide))).trans h)]
    exact hfreeze.cat.trace.resolve_left (by decide)
  · rw [State.settleTrace_circular h]

/-- The state with another trace. -/
def State.withTrace (s : State) (t : Trace) : State := { s with cat := { s.cat with trace := t } }

/-- The triggering record written, and the trace TRIGGERED by it (R466). -/
def State.triggeredBy (s : State) (r : TraceRec) : State :=
  let u := (s.withTrace { s.cat.trace with trigIdx := s.cat.trace.wptr }).putTrace r
  u.withTrace { u.cat.trace with st := .triggered, after := 0 }

theorem State.fireTrigger_some (s : State) (r : TraceRec) : s.fireTrigger (some r) =
    (if (s.triggeredBy r).flag .catTrCtrl [] 1 then (s.triggeredBy r).freezeRings 1 else s.triggeredBy r).settleTrace := rfl

theorem State.triggeredBy_regs (s : State) (r : TraceRec) : (s.triggeredBy r).regs = s.regs :=
  have hput (u : State) : (u.putTrace r).regs = u.regs :=
    (State.putTrace_only (.refl _ u) (Nat.or_self _)).regs.resolve_left (by decide)
  hput (s.withTrace { s.cat.trace with trigIdx := s.cat.trace.wptr })

/-- A trigger of a circular trace stands where the next record goes (R466, R468). -/
theorem State.fireTrigger_circular {s : State} (h : s.circular = true) (r : TraceRec) :
    (s.fireTrigger (some r)).cat.trace.st = .triggered ∧ (s.fireTrigger (some r)).cat.trace.trigIdx = s.cat.trace.wptr ∧
      (s.fireTrigger (some r)).cat.trace.after = 0 := by
  rw [State.fireTrigger_some, State.settleTrace_afterTrigger ((State.circular_congr (s.triggeredBy_regs r)).trans h)]
  exact ⟨rfl, rfl, rfl⟩

/-- An armed circular trace with no drop to tell of fires at a triggering record. -/
theorem State.takeTrace_armed {s : State} {r : TraceRec} (hst : s.cat.trace.st = .armed) (hc : s.circular = true)
    (hgap : s.cat.trace.gap = 0) (hr : r.trig = true) : s.takeTrace r = s.fireTrigger (some r) := by
  simp [State.takeTrace, State.writeGap, hst, hc, hgap, hr]

/-! ### The watchdog -/

theorem State.freezeRings_frozen (s : State) (cause : Nat) : (s.freezeRings cause).cat.frozen = true ∧
    (s.freezeRings cause).cat.fcause = if s.cat.frozen then s.cat.fcause else cause := by
  unfold State.freezeRings
  split
  · next h => exact ⟨h, rfl⟩
  · exact ⟨rfl, rfl⟩

/-- An incident counts one occurrence of its source, and of no other (R408). -/
theorem State.incident_source (s : State) (cls event : Nat) (st : Status) (src detail detail2 : Nat) :
    ((s.incident cls event st src detail detail2).source src).count = min ((s.source src).count + 1) (2 ^ 32 - 1) ∧
      ∀ n, n ≠ src → (s.incident cls event st src detail detail2).source n = s.source n := by
  unfold State.incident
  dsimp only
  simp only [State.event_source]
  split
  · exact ⟨by simp [State.markQueued], fun n hn => State.setSource_source_ne _ hn⟩
  split
  all_goals exact ⟨by simp, fun n hn => State.setSource_source_ne _ hn⟩

theorem exec_watchdogExpiry {u : BitVec 16} {i : BitVec 64} {s : State} (hrun : s.running = true)
    (hdue : s.watchdogDue u.toNat i.toNat = true) :
    exec (.watchdogExpiry u i) s = .next { (s.freezeRings 2).incident clsControl 0x7F .ok u.toNat i.toNat 0 with
      cat := { ((s.freezeRings 2).incident clsControl 0x7F .ok u.toNat i.toNat 0).cat with wdQuiet := true } } := by
  show execWatchdogExpiry u i s = _
  simp [execWatchdogExpiry, hrun, hdue]

/-! ### The clauses of BeatsAndTicks -/

/-- Nothing a local tick does but moving the windows on and evaluating the plinths touches either. -/
theorem exec_localTick_spec {s : State} (halive : s.alive = true) (hoff : s.beatOff = true) :
    ∃ t, exec .localTick s = .next t ∧ t.cat.wbeat = s.cat.wbeat + 1 ∧ t.fab = s.fab ∧
      ∀ p, p < 8 → (s.plinth p).Evaluated (t.plinth p) := by
  let u := s.beatMessages.nextWindow
  have hsend := s.beatMessages_only
  have heval := State.accrueDebt_only (State.evalThermal_only (a1 := false) (.refl (mask [.plinths, .rasSources, .rasQueue,
    .rasOvf, .catCounters, .catRings, .catTrace, .secEvents, .free, .out]) u) (by decide)) (by decide)
  have hplinth (p : Nat) : u.plinth p = s.plinth p := State.plinth_congr (hsend.plinths.resolve_left (by decide)) p
  refine ⟨_, exec_localTick halive hoff, ?_, (heval.fab.eq (by decide)).trans (hsend.fab.eq (by decide)), fun p hp => ?_⟩
  · rw [heval.cat.wbeat.resolve_left (by decide)]
    exact congrArg (· + 1) (hsend.cat.wbeat.resolve_left (by decide))
  · rw [← hplinth]
    exact State.accrueDebt_plinth _ hp (u.evalThermal_plinth false hp)

/-- A deadline marks the contribution of every other rank late, and nothing else that has arrived (R384). -/
theorem exec_collDeadline_spec {g n cap : Nat} {s : State} {x : CarGroup} (hg : s.carGroupOf g = some (x, cap))
    (halive : s.alive = true) (hn : n + 2 ≤ s.beat) :
    ∃ t, exec (.collDeadline g n) s = .next t ∧
      (∀ r, r < x.g → r ≠ x.rank → t.arrivalAt (g, n, r) = { s.arrivalAt (g, n, r) with late := true }) ∧
      (∀ k, (∀ r ∈ x.others, k ≠ (g, n, r)) → t.arrivalAt k = s.arrivalAt k) := by
  refine ⟨_, exec_collDeadline hg halive hn, fun r hr hne => ?_, fun k hk => ?_⟩
  · exact foldl_get_of_mem (get := State.arrivalAt) (key := fun r => (g, n, r)) (R := fun a b => b = { a with late := true })
      (fun u r => u.markLate_arrivalAt_ne g n r) (fun _ _ h => by simpa using h) (fun u r => u.markLate_arrivalAt g n r)
      (List.nodup_range.filter _) s (CarGroup.mem_others.mpr ⟨hr, hne⟩)
  · exact foldl_get_of_ne (get := State.arrivalAt) (key := fun r => (g, n, r)) (fun u r => u.markLate_arrivalAt_ne g n r) _ s hk

/-- The MARK record of the beat unit with which its boundary triggers the trace (R466). -/
def State.beatMark (s : State) : TraceRec :=
  { rec16 := (s.eventRec (srcHub hubBeat) 0x0A 0 0 0).2.1, unit := srcHub hubBeat, beatHi := bits s.beat 47 16, fine := 0
    keep := true, trig := true }

/-- At its beat an armed circular trace fires, once the record stands in the beat unit's ring (R466). -/
theorem exec_traceBeatTrigger_armed {s : State} (halive : s.alive = true) (hon : s.beatOff = false) (hpos : 0 < s.beat)
    (hbeat : s.written .catTrBeatLo [] + s.written .catTrBeatHi [] * 2 ^ 32 = s.beat) (hst : s.cat.trace.st = .armed)
    (hc : s.circular = true) (hgap : s.cat.trace.gap = 0) :
    ∃ u, exec .traceBeatTrigger s = .next (State.fireTrigger u (some s.beatMark)) ∧ u.circular = true ∧
      u.cat.trace = s.cat.trace := by
  have hevent := (State.eventRec_only (a1 := srcHub hubBeat) (a2 := 0x0A) (a3 := 0) (a4 := 0) (a5 := 0) (.refl _ s)
    (Nat.or_self _)).fst
  have htrace := hevent.cat.trace.resolve_left (by decide)
  have hcirc := (State.circular_congr (hevent.regs.resolve_left (by decide))).trans hc
  refine ⟨_, ?_, hcirc, htrace⟩
  rw [← State.takeTrace_armed (htrace ▸ hst) hcirc (htrace ▸ hgap) rfl]
  show execTraceBeatTrigger s = _
  unfold execTraceBeatTrigger
  dsimp only
  rw [hbeat]
  simp [halive, hon, hpos.ne', hst, State.beatMark]

/-- A triggered trace counts the trigger its beat brings (R467). -/
theorem exec_traceBeatTrigger_triggered {s : State} (halive : s.alive = true) (hon : s.beatOff = false) (hpos : 0 < s.beat)
    (hbeat : s.written .catTrBeatLo [] + s.written .catTrBeatHi [] * 2 ^ 32 = s.beat) (hst : s.cat.trace.st = .triggered) :
    exec .traceBeatTrigger s = .next s.retrigger := by
  show execTraceBeatTrigger s = _
  unfold execTraceBeatTrigger
  dsimp only
  rw [hbeat]
  simp [halive, hon, hpos.ne', hst]

/-- The watchdog freezes every ring, counts an incident of the unit, and stays quiet (R462). -/
theorem exec_watchdogExpiry_spec {u : BitVec 16} {i : BitVec 64} {s : State} (hrun : s.running = true)
    (hdue : s.watchdogDue u.toNat i.toNat = true) :
    ∃ t, exec (.watchdogExpiry u i) s = .next t ∧ t.cat.frozen = true ∧ t.cat.wdQuiet = true ∧
      t.cat.fcause = (if s.cat.frozen then s.cat.fcause else 2) ∧
      (t.source u.toNat).count = min ((s.source u.toNat).count + 1) (2 ^ 32 - 1) ∧
      (∀ n, n ≠ u.toNat → t.source n = s.source n) := by
  have hincident := State.incident_only (a1 := clsControl) (a2 := 0x7F) (a3 := .ok) (a4 := u.toNat) (a5 := i.toNat) (a6 := 0)
    (.refl _ (s.freezeRings 2)) (Nat.or_self _)
  have hsource (n : Nat) : (s.freezeRings 2).source n = s.source n :=
    State.source_congr ((State.freezeRings_only (.refl _ s) (Nat.or_self _)).ras.sources.resolve_left (by decide)) n
  obtain ⟨hfrozen, hcause⟩ := s.freezeRings_frozen 2
  obtain ⟨hcount, hother⟩ := (s.freezeRings 2).incident_source clsControl 0x7F .ok u.toNat i.toNat 0
  refine ⟨_, exec_watchdogExpiry hrun hdue, (hincident.cat.frozen.resolve_left (by decide)).trans hfrozen, rfl,
    (hincident.cat.fcause.resolve_left (by decide)).trans hcause, ?_, fun n hn => (hother n hn).trans (hsource n)⟩
  rw [← hsource]
  exact hcount

end Sys2Proof.Machine

open Sys2Proof Sys2Proof.Machine

/-- Settles O39: what each of the five commands does, one after the other. -/
theorem beatsAndTicks : Obligations.BeatsAndTicks := by
  unfold Obligations.BeatsAndTicks
  refine ⟨fun s hrun hon hstarted => ?_, fun s halive hoff => exec_localTick_spec halive hoff,
    fun g n s x cap hg halive hn => ?_, fun s halive hon hpos hbeat => ⟨fun hst hc hgap => ?_, fun hst => ?_⟩,
    fun u i s hrun hdue => exec_watchdogExpiry_spec hrun hdue⟩
  · obtain ⟨hcount, hnext⟩ := s.nextCount_spec
    obtain ⟨hbeat, hkept, hforce, hwindow⟩ := s.nextCount.boundary_spec
    exact ⟨_, exec_beatBoundary hrun hon hstarted, hbeat.trans hcount, hkept.trans hnext, hforce, hwindow.trans hbeat.symm⟩
  · obtain ⟨t, hexec, hlate, hsame⟩ := exec_collDeadline_spec hg halive hn
    exact ⟨t, hexec, hlate,
      fun g' n' r hne => hsame (g', n', r) fun _ _ e => hne ⟨congrArg (·.1) e, congrArg (·.2.1) e⟩,
      hsame (g, n, x.rank) fun _ hq e => (CarGroup.mem_others.mp hq).2 (congrArg (·.2.2) e).symm⟩
  · obtain ⟨u, hexec, hcirc, htrace⟩ := exec_traceBeatTrigger_armed halive hon hpos hbeat hst hc hgap
    obtain ⟨hfired, hindex, hafter⟩ := State.fireTrigger_circular hcirc s.beatMark
    exact ⟨_, hexec, hfired, hindex.trans (congrArg Trace.wptr htrace), hafter⟩
  · exact ⟨_, exec_traceBeatTrigger_triggered halive hon hpos hbeat hst, rfl⟩
end

section
/-! The statements on the number formats: the chunk loads of a tile (R48, R84, R87, R103). -/

namespace Sys2Proof.Machine

/-! ### Status and handles -/

theorem Status.max_ok (a : Status) : a.max .ok = a := by cases a <;> rfl

/-- What a load makes of a status: as it was, or the worse of it and ARRAY_UE (R84). -/
theorem Status.max_statusIf (a b : Status) (c : Bool) : a.max (statusIf c b) = a ∨ a.max (statusIf c b) = a.max b := by
  cases c with
  | false => exact .inl a.max_ok
  | true => exact .inr rfl

@[simp] theorem Core.setHandle_handle (k : Core) (e : Nat) (h : Handle) : (k.setHandle e h).handle e = h :=
  Tbl.look_put_self _ _ _ _
@[simp] theorem Core.setHandle_tiles (k : Core) (e : Nat) (h : Handle) : (k.setHandle e h).tiles = k.tiles := rfl
@[simp] theorem Core.setHandle_phys (k : Core) (e : Nat) (h : Handle) : (k.setHandle e h).phys = k.phys := rfl

/-- A chunk that is among no slot of a ring is not found there. -/
theorem Handle.ringFind_of_not_mem {h : Handle} {chunk : Nat} (hmiss : chunk ∉ h.slots) (slots : Nat) :
    h.ringFind slots chunk = none := by
  have hfind : (List.range h.slots.length).find? (fun i => h.slots.getD i 0 == chunk) = none := by
    refine List.find?_eq_none.mpr fun i hi heq => hmiss ?_
    have hlt := List.mem_range.mp hi
    rw [List.getD_eq_getElem _ _ hlt, beq_iff_eq] at heq
    exact heq ▸ List.getElem_mem hlt
  simp only [Handle.ringFind, hfind, ite_self]

/-! ### What a load reads, and what it leaves -/

/-- The cores, the stored bytes with their errors, and the annex are the same. -/
structure State.SameStore (s t : State) : Prop where
  cores : t.cores = s.cores
  mem : t.mem = s.mem
  bad : t.bad = s.bad
  annex : t.annex = s.annex

theorem State.SameStore.refl (s : State) : s.SameStore s := ⟨rfl, rfl, rfl, rfl⟩

theorem State.SameStore.trans {s t u : State} (h : s.SameStore t) (k : t.SameStore u) : s.SameStore u :=
  ⟨k.cores.trans h.cores, k.mem.trans h.mem, k.bad.trans h.bad, k.annex.trans h.annex⟩

/-- What notes errors, counts, and begins or ends waits writes none of them. -/
theorem OnlyM.sameStore {s t : State} (h : OnlyM (mask [.rasSources, .rasQueue, .rasOvf, .catCounters, .catRings, .catWaits,
    .catTrace, .free]) s t) : s.SameStore t :=
  ⟨h.cores.resolve_left (by decide), h.mem.resolve_left (by decide), h.bad.resolve_left (by decide), h.annex.eq (by decide)⟩

theorem State.readSlot_sameStore (s : State) (c ref off n : Nat) : s.SameStore (s.readSlot c ref off n).1 :=
  (State.readSlot_only (.refl _ s) (by decide)).fst.sameStore

theorem State.waitBegin_sameStore (s : State) (unit cause ident : Nat) : s.SameStore (s.waitBegin unit cause ident) :=
  (State.waitBegin_only (.refl _ s) (by decide)).sameStore

theorem State.waitEnd_sameStore (s : State) (unit cause ident : Nat) (k : Option (Ctr × Nat)) :
    s.SameStore (s.waitEnd unit cause ident k) :=
  (State.waitEnd_only (.refl _ s) (by decide)).sameStore

theorem State.sramRead_congr {s t : State} (hmem : t.mem = s.mem) (hbad : t.bad = s.bad) (g n : Nat) :
    t.sramRead g n = s.sramRead g n := by
  have hwords : t.badWords g n = s.badWords g n := by rw [State.badWords, hbad, State.badWords]
  rw [State.sramRead, hwords, hmem, State.sramRead]

/-- Bytes behind a handle follow from where the core and the handle lie and from what is stored there. -/
theorem State.handleBytes_congr {s t : State} {c ref : Nat} (hphys : (t.core c).phys = (s.core c).phys)
    (hbase : (t.href c ref).base = (s.href c ref).base) (hlines : (t.href c ref).lines = (s.href c ref).lines)
    (hmem : t.mem = s.mem) (hbad : t.bad = s.bad) (off n : Nat) : t.handleBytes c ref off n = s.handleBytes c ref off n := by
  simp only [State.handleBytes, State.readScratch, State.scratch, Handle.size, hphys, hbase, hlines,
    State.sramRead_congr hmem hbad]

theorem State.SameStore.core {s t : State} (h : s.SameStore t) (c : Nat) : t.core c = s.core c := State.core_congr h.cores c

theorem State.SameStore.href {s t : State} (h : s.SameStore t) (c ref : Nat) : t.href c ref = s.href c ref := by
  rw [State.href, h.core, State.href]

theorem State.SameStore.handleBytes {s t : State} (h : s.SameStore t) (c ref off n : Nat) :
    t.handleBytes c ref off n = s.handleBytes c ref off n :=
  State.handleBytes_congr (congrArg _ (h.core c)) (congrArg _ (h.href c ref)) (congrArg _ (h.href c ref)) h.mem h.bad off n

/-! ### Credits of a ring -/

theorem State.creditRing_tiles (s : State) (c ref i : Nat) (last : Bool) :
    ((s.creditRing c ref i last).core c).tiles = (s.core c).tiles := by simp [State.creditRing]

/-- A credit moves the ring's consumer on and drops the slots it gives back, that one among them where `last` says so (R87). -/
theorem State.creditRing_href (s : State) (c ref i : Nat) (last : Bool) :
    (s.creditRing c ref i last).href c ref = { s.href c ref with
      cons := (s.href c ref).cons + (if last then i + 1 else i)
      slots := (s.href c ref).slots.drop (if last then i + 1 else i) } := by
  simp [State.creditRing, State.href]

theorem State.creditRing_handleBytes (s : State) (c ref i : Nat) (last : Bool) (off n : Nat) :
    (s.creditRing c ref i last).handleBytes c ref off n = s.handleBytes c ref off n := by
  have hhref := s.creditRing_href c ref i last
  have hphys : ((s.creditRing c ref i last).core c).phys = (s.core c).phys := by simp [State.creditRing]
  exact State.handleBytes_congr hphys (by rw [hhref]) (by rw [hhref]) rfl rfl off n

/-! ### The chunks of one load -/

/-- What the chunk slot of a vector that stands whole in its range holds for a tile (R48, R85). -/
def State.chunkSlot (s : State) (x : TileRun) (chunk : Nat) : Bytes :=
  if cdiv x.op.k1 160 ≤ chunk then List.replicate (vectorSlot x.op.afmt x.lanes) 0
  else s.handleBytes x.op.core x.op.ahdl (256 + chunk * vectorSlot x.op.afmt x.lanes) (vectorSlot x.op.afmt x.lanes)

theorem State.SameStore.chunkSlot {s t : State} (h : s.SameStore t) (x : TileRun) : t.chunkSlot x = s.chunkSlot x := by
  funext chunk
  rw [State.chunkSlot, h.handleBytes, State.chunkSlot]

/-- The chunks the next load of a tile copies (R103). -/
def TileRun.nextChunks (x : TileRun) : List Nat :=
  (List.range x.op.slotsPerLoad).map (fun j => x.op.loadChunk x.loaded.length + j)

/-- A load takes one chunk, and in T24 sparse mode the next one too (R103). -/
theorem TileRun.nextChunks_eq (x : TileRun) : x.nextChunks =
    x.op.loadChunk x.loaded.length :: if x.op.sparse then [x.op.loadChunk x.loaded.length + 1] else [] := by
  unfold TileRun.nextChunks Op.slotsPerLoad
  split <;> rfl

theorem State.loadChunk_plain {s : State} {x : TileRun} (hring : (s.href x.op.core x.op.ahdl).ring = false) (chunk : Nat) :
    ∃ t dbl, s.loadChunk x chunk = some (t, s.chunkSlot x chunk, dbl) ∧ s.SameStore t := by
  unfold State.loadChunk State.chunkSlot
  dsimp only
  split
  · exact ⟨s, false, rfl, .refl s⟩
  · rw [hring]
    exact ⟨_, _, rfl, s.readSlot_sameStore ..⟩

/-- From a plain vector the chunks of a load come one after the other, whatever they are. -/
theorem State.loadChunks_plain {s : State} {x : TileRun} (hring : (s.href x.op.core x.op.ahdl).ring = false) (l : List Nat) :
    ∃ t dbl, s.loadChunks x l = some (t, (l.map (s.chunkSlot x)).flatten, dbl) ∧ s.SameStore t := by
  induction l generalizing s with
  | nil => exact ⟨s, false, rfl, .refl s⟩
  | cons chunk l ih =>
    obtain ⟨t, dbl, hload, hst⟩ := State.loadChunk_plain hring chunk
    obtain ⟨u, dbl', hloads, htu⟩ := ih (s := t) (by rw [hst.href, hring])
    rw [hst.chunkSlot] at hloads
    exact ⟨u, dbl || dbl', by simp [State.loadChunks, hload, hloads], hst.trans htu⟩

/-- Of a ring a chunk comes from the slot it stands in, which the last pass gives back (R87). -/
theorem State.loadChunk_ring {s : State} {x : TileRun} {chunk i at_ : Nat} (hring : (s.href x.op.core x.op.ahdl).ring = true)
    (hchunk : chunk < cdiv x.op.k1 160) (hfind : (s.href x.op.core x.op.ahdl).ringFind
      ((s.href x.op.core x.op.ahdl).ringSlots (vectorSlot x.op.afmt x.lanes)) chunk = some (i, at_)) :
    ∃ t dbl, s.loadChunk x chunk = some
      (if x.op.lastPass x.loaded.length then t.creditRing x.op.core x.op.ahdl i (!x.op.sharesLast chunk) else t,
        s.handleBytes x.op.core x.op.ahdl (256 + at_ * vectorSlot x.op.afmt x.lanes) (vectorSlot x.op.afmt x.lanes), dbl) ∧
      s.SameStore t := by
  simp only [State.loadChunk, if_neg (Nat.not_le.mpr hchunk), hring, if_true, hfind]
  exact ⟨_, _, rfl, s.readSlot_sameStore ..⟩

theorem State.loadChunks_one {s : State} {x : TileRun} {chunk : Nat} {q : State × Bytes × Bool}
    (h : s.loadChunk x chunk = some q) : s.loadChunks x [chunk] = some q := by
  simp [State.loadChunks, h]

theorem State.loadChunk_missing {s : State} {x : TileRun} {chunk : Nat} (hring : (s.href x.op.core x.op.ahdl).ring = true)
    (hchunk : chunk < cdiv x.op.k1 160) (hmiss : chunk ∉ (s.href x.op.core x.op.ahdl).slots) :
    s.loadChunk x chunk = none := by
  simp [State.loadChunk, Nat.not_le.mpr hchunk, hring, Handle.ringFind_of_not_mem hmiss]

/-! ### The next load of a tile -/

/-- A tile with one load more, under the header it found and the status it came to. -/
def TileRun.load (x : TileRun) (b header : Bytes) (st : Status) : TileRun :=
  { x with loaded := x.loaded ++ [b], erefs := if x.loaded = [] then headerEmax header else x.erefs, status := st }

/-- A load copies its chunks, then reads the header as the chunks have left the handle (R48, R103). -/
theorem State.nextLoad_loads {s s1 : State} {x : TileRun} {b : Bytes} {dbl : Bool} (hleft : x.loaded.length < x.op.loads)
    (hchunks : s.loadChunks x x.nextChunks = some (s1, b, dbl)) :
    ∃ t st, s.nextLoad x = some (t, x.load b (s1.handleBytes x.op.core x.op.ahdl 0 256) st) ∧ s1.SameStore t ∧
      (st = x.status ∨ st = x.status.max .arrayUe) := by
  unfold TileRun.nextChunks at hchunks
  simp only [State.nextLoad, if_neg (Nat.not_le.mpr hleft), hchunks, TileRun.load, List.length_eq_zero_iff]
  split
  · exact ⟨_, _, rfl, s1.readSlot_sameStore .., Status.max_statusIf ..⟩
  · exact ⟨_, _, rfl, .refl s1, Status.max_statusIf ..⟩

theorem State.nextLoad_plain {s : State} {x : TileRun} (hleft : x.loaded.length < x.op.loads)
    (hring : (s.href x.op.core x.op.ahdl).ring = false) :
    ∃ t st, s.nextLoad x = some (t, x.load ((x.nextChunks.map (s.chunkSlot x)).flatten)
        (s.handleBytes x.op.core x.op.ahdl 0 256) st) ∧ s.SameStore t ∧ (st = x.status ∨ st = x.status.max .arrayUe) := by
  obtain ⟨s1, dbl, hchunks, hs1⟩ := State.loadChunks_plain hring x.nextChunks
  obtain ⟨t, st, hload, ht, hst⟩ := State.nextLoad_loads hleft hchunks
  rw [hs1.handleBytes] at hload
  exact ⟨t, st, hload, hs1.trans ht, hst⟩

/-- Outside sparse mode a load from a ring is that of the one slot its chunk stands in; in the last pass over a chunk that no
later tile needs, the slots up to it give their credits back (R87). -/
theorem State.nextLoad_ring {s : State} {x : TileRun} {i at_ : Nat} (hleft : x.loaded.length < x.op.loads)
    (hsparse : x.op.sparse = false) (hring : (s.href x.op.core x.op.ahdl).ring = true)
    (hchunk : x.op.loadChunk x.loaded.length < cdiv x.op.k1 160)
    (hfind : (s.href x.op.core x.op.ahdl).ringFind ((s.href x.op.core x.op.ahdl).ringSlots (vectorSlot x.op.afmt x.lanes))
      (x.op.loadChunk x.loaded.length) = some (i, at_)) (hshare : x.op.sharesLast (x.op.loadChunk x.loaded.length) = false) :
    ∃ t st, s.nextLoad x = some (t, x.load (s.handleBytes x.op.core x.op.ahdl (256 + at_ * vectorSlot x.op.afmt x.lanes)
        (vectorSlot x.op.afmt x.lanes)) (s.handleBytes x.op.core x.op.ahdl 0 256) st) ∧
      (st = x.status ∨ st = x.status.max .arrayUe) ∧ (t.core x.op.core).tiles = (s.core x.op.core).tiles ∧
      t.href x.op.core x.op.ahdl = if x.op.lastPass x.loaded.length = true then { s.href x.op.core x.op.ahdl with
        cons := (s.href x.op.core x.op.ahdl).cons + i + 1, slots := (s.href x.op.core x.op.ahdl).slots.drop (i + 1) }
        else s.href x.op.core x.op.ahdl := by
  obtain ⟨r, dbl, hone, hr⟩ := State.loadChunk_ring hring hchunk hfind
  have hchunks : x.nextChunks = [x.op.loadChunk x.loaded.length] := by simp [TileRun.nextChunks_eq, hsparse]
  obtain ⟨t, st, hload, ht, hst⟩ := State.nextLoad_loads hleft (hchunks ▸ State.loadChunks_one hone)
  refine ⟨t, st, ?_, hst, ?_, ?_⟩
  · rw [hload]
    split <;> simp only [State.creditRing_handleBytes, hr.handleBytes]
  · rw [ht.core]
    split <;> simp only [State.creditRing_tiles, hr.core]
  · rw [ht.href]
    split <;> simp [State.creditRing_href, hr.href, hshare, Nat.add_assoc]

theorem State.nextLoad_missing {s : State} {x : TileRun} (hring : (s.href x.op.core x.op.ahdl).ring = true)
    (hchunk : x.op.loadChunk x.loaded.length < cdiv x.op.k1 160)
    (hmiss : x.op.loadChunk x.loaded.length ∉ (s.href x.op.core x.op.ahdl).slots) : s.nextLoad x = none := by
  have hchunks : s.loadChunks x x.nextChunks = none := by
    rw [TileRun.nextChunks_eq, State.loadChunks, State.loadChunk_missing hring hchunk hmiss]
  unfold TileRun.nextChunks at hchunks
  simp [State.nextLoad, hchunks]

/-! ### CHUNK_LOAD_DONE -/

section
variable {c : CoreNo} {ups : List Upset} {s : State} {x : TileRun}

/-- A load of the core's running tile leaves that tile in front, and nothing but a wait's end follows (R103). -/
theorem exec_chunkLoadDone_loads {t : State} {y : TileRun} {l : List TileRun} (hrun : (s.upsets ups).running = true)
    (htiles : ((s.upsets ups).core c.val).tiles = x :: l) (hstarted : x.started = true)
    (hleft : x.loaded.length < x.op.loads) (hload : (s.upsets ups).nextLoad x = some (t, y)) :
    ∃ v, exec (.chunkLoadDone c ups) s = .next v ∧
      v.core c.val = { t.core c.val with tiles := y :: (t.core c.val).tiles.drop 1 } := by
  refine ⟨State.waitEnd (t.setCore c.val { t.core c.val with tiles := y :: (t.core c.val).tiles.drop 1 }) (srcCore c.val) 6
    x.op.identity (some (.chunkWait, c.val)), ?_, ?_⟩
  · show execChunkLoadDone c ups s = _
    simp [execChunkLoadDone, hrun, htiles, hstarted, hleft, hload]
  · rw [(State.waitEnd_sameStore ..).core, State.setCore_core]

/-- A running tile whose next load has nothing to copy yet waits (R87). -/
theorem exec_chunkLoadDone_waits {l : List TileRun} (hrun : (s.upsets ups).running = true)
    (htiles : ((s.upsets ups).core c.val).tiles = x :: l) (hstarted : x.started = true)
    (hleft : x.loaded.length < x.op.loads) (hload : (s.upsets ups).nextLoad x = none) :
    exec (.chunkLoadDone c ups) s = .next ((s.upsets ups).waitBegin (srcCore c.val) 6 x.op.identity) := by
  show execChunkLoadDone c ups s = _
  simp [execChunkLoadDone, hrun, htiles, hstarted, hleft, hload]

/-- Where the core has no tile of its own, its tile that runs in the annex loads (R103, R122). -/
theorem exec_chunkLoadDone_annex {t : State} {y : TileRun} (hrun : (s.upsets ups).running = true)
    (htiles : ((s.upsets ups).core c.val).tiles = []) (hannex : (s.upsets ups).annex.running = some x)
    (hcore : x.op.core = c.val) (hload : (s.upsets ups).nextLoad x = some (t, y)) :
    ∃ v, exec (.chunkLoadDone c ups) s = .next v ∧ v.annex = { t.annex with running := some y } := by
  refine ⟨State.waitEnd { t with annex := { t.annex with running := some y } } (srcCore c.val) 6 x.op.identity
    (some (.chunkWait, c.val)), ?_, (State.waitEnd_sameStore ..).annex⟩
  show execChunkLoadDone c ups s = _
  simp [execChunkLoadDone, hrun, htiles, hannex, hcore, hload]

end

end Sys2Proof.Machine

open Sys2Proof Sys2Proof.Machine

/-- Settles O29: each clause is what the next load of the tile comes to, put where the tile stands. -/
theorem chunksLoad : Obligations.ChunksLoad := by
  unfold Obligations.ChunksLoad
  refine ⟨?_, ?_, ?_, ?_⟩
  · rintro c ups s _ x l rfl hrun htiles hstarted hleft hcore hring
    rw [← hcore] at hring
    obtain ⟨t, st, hload, hsame, hst⟩ := State.nextLoad_plain hleft hring
    obtain ⟨v, hexec, hv⟩ := exec_chunkLoadDone_loads hrun htiles hstarted hleft hload
    refine ⟨v, st, hexec, hst, ?_⟩
    rw [hv, hsame.core, htiles, ← hcore, TileRun.nextChunks, List.map_map]
    rfl
  · rintro c ups s _ x l i at_ rfl hrun htiles hstarted hleft hcore hsparse hring hchunk hfind hshare
    rw [← hcore] at hring hfind
    obtain ⟨t, st, hload, hst, hkept, hhref⟩ := State.nextLoad_ring hleft hsparse hring hchunk hfind hshare
    obtain ⟨v, hexec, hv⟩ := exec_chunkLoadDone_loads hrun htiles hstarted hleft hload
    refine ⟨v, st, hexec, hst, ?_, ?_⟩
    · rw [hv, ← hcore, hkept, hcore, htiles, ← hcore]
      rfl
    · rw [State.href, hv, ← hcore]
      exact hhref
  · rintro c ups s _ x rfl hrun htiles hannex hleft hcore hring
    rw [← hcore] at hring
    obtain ⟨t, st, hload, hsame, -⟩ := State.nextLoad_plain hleft hring
    obtain ⟨v, hexec, hv⟩ := exec_chunkLoadDone_annex hrun htiles hannex hcore hload
    exact ⟨v, _, _, st, hexec, congrArg _ hv, by rw [hv, hsame.annex]⟩
  · rintro c ups s _ x l rfl hrun htiles hstarted hleft hcore hring hchunk hmiss
    rw [← hcore] at hring hmiss
    have hexec := exec_chunkLoadDone_waits hrun htiles hstarted hleft (State.nextLoad_missing hring hchunk hmiss)
    have hsame := (s.upsets ups).waitBegin_sameStore (srcCore c.val) 6 x.op.identity
    exact ⟨_, hexec, hsame.cores, hsame.mem, hsame.annex⟩
end

section
/-! The statements on the weight streams: the repair of a panel from its reference copy (R74, R421 to R423). -/

namespace Sys2Proof.Machine

/-! ### Panels and repairs by number -/

@[simp] theorem State.setPanel_panel (s : State) (obj panel : Nat) (x : Panel) :
    (s.setPanel obj panel x).panel obj panel = x := Tbl.look_put_self _ _ _ _

theorem State.panel_congr {s t : State} (h : t.tiers.panels = s.tiers.panels) (obj panel : Nat) :
    t.panel obj panel = s.panel obj panel := by rw [State.panel, h, State.panel]

theorem State.repairAt_eq_some {s : State} {obj panel : Nat} {stage : RepairStage} {r : Repair}
    (h : s.repairAt obj panel stage = some r) : r.obj = obj ∧ r.panel = panel := by
  have hfound := List.find?_some h
  simp only [Bool.and_eq_true, beq_iff_eq] at hfound
  exact hfound.1

theorem State.updRepair_repairs (s : State) (obj panel : Nat) (f : Repair → Repair) :
    (s.updRepair obj panel f).tiers.repairs =
      s.tiers.repairs.map (fun r => if r.obj = obj ∧ r.panel = panel then f r else r) := rfl

theorem State.updRepair_panels (s : State) (obj panel : Nat) (f : Repair → Repair) :
    (s.updRepair obj panel f).tiers.panels = s.tiers.panels := rfl

theorem State.updRepair_mem (s : State) (obj panel : Nat) (f : Repair → Repair) : (s.updRepair obj panel f).mem = s.mem := rfl

theorem State.mem_updRepair {s : State} {obj panel : Nat} {f : Repair → Repair} {x : Repair}
    (h : x ∈ (s.updRepair obj panel f).tiers.repairs) :
    ∃ y ∈ s.tiers.repairs, (x = y ∧ ¬ (y.obj = obj ∧ y.panel = panel)) ∨ (x = f y ∧ y.obj = obj ∧ y.panel = panel) := by
  obtain ⟨y, hy, hx⟩ := List.mem_map.mp h
  refine ⟨y, hy, ?_⟩
  split at hx
  · next hat => exact .inr ⟨hx.symm, hat⟩
  · next hat => exact .inl ⟨hx.symm, hat⟩

/-- The panel's repair is listed, at the same stage unless the panel was waiting. -/
def Repair.ListedIn (x : Repair) (l : List Repair) : Prop :=
  ∃ y ∈ l, y.obj = x.obj ∧ y.panel = x.panel ∧
    (y.stage = x.stage ∨ ∃ w ∈ l, w.stage = .waiting ∧ w.obj = x.obj ∧ w.panel = x.panel)

/-- A freed place changes the stage of one waiting panel alone (R424). -/
theorem State.listed_of_mem_nextRepair {s : State} {x : Repair} (h : x ∈ s.nextRepair.tiers.repairs) :
    x.ListedIn s.tiers.repairs := by
  unfold State.nextRepair at h
  split at h
  · exact ⟨x, h, rfl, rfl, .inl rfl⟩
  split at h
  · exact ⟨x, h, rfl, rfl, .inl rfl⟩
  next w hw =>
    have hwaits : w.stage = .waiting := by simpa [Repair.waits] using List.find?_some hw
    obtain ⟨y, hy, ⟨rfl, -⟩ | ⟨rfl, hobj, hpanel⟩⟩ := State.mem_updRepair h
    · exact ⟨x, hy, rfl, rfl, .inl rfl⟩
    · exact ⟨y, hy, rfl, rfl, .inr ⟨w, List.mem_of_find?_eq_some hw, hwaits, hobj.symm, hpanel.symm⟩⟩

/-! ### The object operations that the end of a repair lets on -/

/-- No OBJ_RELEASE is pending (R331). -/
def State.NoRelease (s : State) : Prop := ∀ m ∈ s.tiers.maps, m.release = none

theorem State.NoRelease.congr {s t : State} (h : s.NoRelease) (hmaps : t.tiers.maps = s.tiers.maps) : t.NoRelease := by
  rw [State.NoRelease, hmaps]
  exact h

/-- The panels' records, the repairs and the mappings are the same. -/
structure State.SamePanels (s t : State) : Prop where
  panels : t.tiers.panels = s.tiers.panels
  repairs : t.tiers.repairs = s.tiers.repairs
  maps : t.tiers.maps = s.tiers.maps

theorem State.SamePanels.refl (s : State) : s.SamePanels s := ⟨rfl, rfl, rfl⟩

theorem State.SamePanels.trans {s t u : State} (h : s.SamePanels t) (k : t.SamePanels u) : s.SamePanels u :=
  ⟨k.panels.trans h.panels, k.repairs.trans h.repairs, k.maps.trans h.maps⟩

theorem State.endReleases_of_noRelease {s : State} (h : s.NoRelease) : s.endReleases = s := by
  unfold State.endReleases
  refine List.foldlRecOn (motive := fun t => t = s) s.tiers.maps _ rfl ?_
  rintro _ rfl m hm
  rw [h m hm]

/-- The object operations that wait for a channel are these. -/
def State.queueObjects (s : State) (jobs : List ObjJob) : State := { s with tiers := { s.tiers with objWait := jobs } }

/-- An object operation that takes its channel touches no panel's record, no repair and no mapping. -/
theorem State.objStart_samePanels (s : State) (j : ObjJob) : s.SamePanels (s.objStart j) :=
  have h := (State.objStart_only (a1 := j) (.refl _ s) (Nat.or_self _)).tiers
  ⟨h.panels.resolve_left (by decide), h.repairs.resolve_left (by decide), h.maps.resolve_left (by decide)⟩

theorem State.objSettle_samePanels {s : State} (h : s.NoRelease) (fuel : Nat) : s.SamePanels (s.objSettle fuel) := by
  induction fuel generalizing s with
  | zero => rw [State.objSettle, State.endReleases_of_noRelease h]; exact .refl s
  | succ fuel ih =>
    rw [State.objSettle, State.endReleases_of_noRelease h]
    split
    · exact .refl s
    next j rest _ =>
      split
      · exact .refl s
      · have hqueue : s.SamePanels (s.queueObjects rest) := ⟨rfl, rfl, rfl⟩
        have hstart := hqueue.trans (State.objStart_samePanels _ j)
        exact hstart.trans (ih (h.congr hstart.maps))

/-- A place freed while no release is pending: no panel's record changes, and at most a waiting panel's repair does. -/
theorem State.nextRepair_settle_spec {s t : State} (htiers : t.tiers = s.tiers) (h : s.NoRelease) :
    (∀ obj panel, t.nextRepair.settleObjects.panel obj panel = s.panel obj panel) ∧
    (∀ x ∈ t.nextRepair.settleObjects.tiers.repairs, x.ListedIn s.tiers.repairs) := by
  have hnext := (State.nextRepair_only (.refl _ t) (Nat.or_self _)).tiers
  rw [htiers] at hnext
  have hsettle : t.nextRepair.SamePanels t.nextRepair.settleObjects :=
    State.objSettle_samePanels (h.congr (hnext.maps.resolve_left (by decide))) _
  exact ⟨State.panel_congr (hsettle.panels.trans (hnext.panels.resolve_left (by decide))),
    fun x hx => htiers ▸ State.listed_of_mem_nextRepair (hsettle.repairs ▸ hx)⟩

/-- A place freed leaves every core as it is. -/
theorem State.nextRepair_settle_core (s : State) (c : Nat) : s.nextRepair.settleObjects.core c = s.core c :=
  State.core_congr ((State.settleObjects_only (State.nextRepair_only (.refl _ s) (by decide)) (Nat.or_self _)).cores.resolve_left
    (by decide)) c

/-! ### Asking for the reference copy (R329, R421) -/

@[simp] theorem State.askReference_tiers (s : State) (obj panel : Nat) : (s.askReference obj panel).tiers = s.tiers :=
  (State.askReference_only (.refl _ s) (Nat.or_self _)).tiers.eq (by decide)

/-- Reads of host memory go out one after the other, unless a reset of the function runs (R263). -/
theorem State.hostReads_out (s : State) (func : Nat) (what : HostRead) (addr : Nat → Nat) (len : Nat) (l : List Nat) :
    (l.foldl (fun s i => s.hostRead func what (addr i) len) s).out =
      s.out ++ if s.cutOff func = true then [] else l.map (fun i => Out.hostRead func what (addr i) len) := by
  induction l generalizing s with
  | nil => simp
  | cons i l ih =>
    rw [List.foldl_cons, ih]
    cases hcut : s.cutOff func with
    | true => simp [State.hostRead, hcut]
    | false =>
      have hsent : s.hostRead func what (addr i) len = s.emit (.hostRead func what (addr i) len) := by
        simp [State.hostRead, hcut]
      have hcut' : (s.emit (.hostRead func what (addr i) len)).cutOff func = false := hcut
      rw [hsent, hcut']
      simp [State.emit]

/-- A copy in host memory is asked for in 64 reads of 4 KiB. -/
theorem State.askReference_out {s : State} {obj : Nat} {x : Obj} (hobj : s.obj? obj = some x) (hhost : x.pkind ≠ 1)
    (panel : Nat) : (s.askReference obj panel).out = s.out ++ (if s.cutOff 0 = true then [] else
      (List.range 64).map (fun i => Out.hostRead 0 (.reference obj panel) (x.paddr + 262144 * panel + 4096 * i) 4096)) := by
  simp only [State.askReference, hobj, if_neg hhost]
  exact State.hostReads_out ..

/-! ### Rewriting a T0 frame -/

theorem slice_whole (b : Bytes) : slice b 0 b.length = b := by simp [slice]

theorem State.noteHallWords_mem (s : State) (ws : List (Nat × Bool)) : (s.noteHallWords ws).1.mem = s.mem :=
  (State.noteHallWords_only (.refl _ s) (Nat.or_self _)).fst.mem.resolve_left (by decide)

theorem State.writeHall_mem (s : State) (a : Nat) (b : Bytes) :
    (s.writeHall a b).mem = Memory.store s.mem (hallBase + a) b := by
  simp [State.writeHall, State.putHall, State.sramWrite, State.noteHallWords_mem]

theorem State.writePanel_t0 (s : State) (obj panel frame : Nat) (b : Bytes) :
    s.writePanel obj panel 0 frame b = s.writeHall (s.t0Addr frame) b := rfl

theorem State.writeHall_tiers (s : State) (a : Nat) (b : Bytes) : (s.writeHall a b).tiers = s.tiers :=
  (State.writeHall_only (.refl _ s) (Nat.or_self _)).tiers.eq (by decide)

/-! ### The end of a repair -/

@[simp] theorem State.dropPanelBooks_tiers (s : State) (obj panel : Nat) : (s.dropPanelBooks obj panel).tiers = s.tiers :=
  (State.dropPanelBooks_only (.refl _ s) (Nat.or_self _)).tiers.eq (by decide)

@[simp] theorem State.failChains_tiers (s : State) (l : List Op) : (s.failChains l).tiers = s.tiers :=
  (State.failChains_only (.refl _ s) (Nat.or_self _)).tiers.eq (by decide)

@[simp] theorem State.reissue_tiers (s : State) (l : List Op) : (s.reissue l).tiers = s.tiers :=
  (State.reissue_only (.refl _ s) (Nat.or_self _)).tiers.eq (by decide)

/-- Chains issued again stand at their cores' issue points (R420). -/
theorem State.mem_reissue_waiting (s : State) {l : List Op} {o : Op} (h : o ∈ l) :
    o ∈ ((s.reissue l).core o.core).waiting := by
  unfold State.reissue
  rw [State.count_core]
  induction l with
  | nil => nomatch h
  | cons a l ih =>
    rw [List.foldr_cons]
    rcases List.mem_cons.mp h with rfl | hl
    · simp
    · by_cases hcore : o.core = a.core
      · rw [hcore, State.setCore_core, ← hcore]
        exact .tail _ (ih hl)
      · rw [State.setCore_core_ne _ hcore]
        exact ih hl

/-- What stands once a repair has failed, before its chains end: the panel marked, its repair over (R423). -/
def State.markFailed (s : State) (r : Repair) : State :=
  (s.updRepair r.obj r.panel (fun x => { x with stage := .failed, data := [], retry := [] })).setPanel r.obj r.panel
    { s.panel r.obj r.panel with failed := true }

@[simp] theorem State.markFailed_panel (s : State) (r : Repair) :
    (s.markFailed r).panel r.obj r.panel = { s.panel r.obj r.panel with failed := true } := State.setPanel_panel ..

@[simp] theorem State.markFailed_maps (s : State) (r : Repair) : (s.markFailed r).tiers.maps = s.tiers.maps := rfl

theorem State.mem_markFailed {s : State} {r y : Repair} (hy : y ∈ (s.markFailed r).tiers.repairs) (hobj : y.obj = r.obj)
    (hpanel : y.panel = r.panel) : y.stage = .failed := by
  obtain ⟨z, -, ⟨rfl, hne⟩ | ⟨rfl, -⟩⟩ := State.mem_updRepair hy
  · exact absurd ⟨hobj, hpanel⟩ hne
  · rfl

/-- What stands once a panel has read back clean, before its chains are issued again: the quarantine lifted, the repair gone
(R421). -/
def State.liftQuarantine (s : State) (r : Repair) : State :=
  let t := s.setPanel r.obj r.panel { s.panel r.obj r.panel with quar := false, failed := false }
  { t with tiers := { t.tiers with repairs := t.tiers.repairs.filter (fun x => !(x.obj == r.obj && x.panel == r.panel)) } }

@[simp] theorem State.liftQuarantine_panel (s : State) (r : Repair) : (s.liftQuarantine r).panel r.obj r.panel =
    { s.panel r.obj r.panel with quar := false, failed := false } := State.setPanel_panel ..

@[simp] theorem State.liftQuarantine_maps (s : State) (r : Repair) : (s.liftQuarantine r).tiers.maps = s.tiers.maps := rfl

theorem State.mem_liftQuarantine {s : State} {r y : Repair} (hy : y ∈ (s.liftQuarantine r).tiers.repairs) :
    ¬ (y.obj = r.obj ∧ y.panel = r.panel) := by
  rintro ⟨hobj, hpanel⟩
  obtain ⟨-, hother⟩ := List.mem_filter.mp (show y ∈ s.tiers.repairs.filter _ from hy)
  simp [hobj, hpanel] at hother

/-- A repair that fails marks its panel, which stays as it is (R423). -/
theorem State.repairFails_spec {s : State} (h : s.NoRelease) (r : Repair) (code : Nat) :
    (s.repairFails r code).panel r.obj r.panel = { s.panel r.obj r.panel with failed := true } ∧
    (∀ x ∈ (s.repairFails r code).tiers.repairs, x.obj = r.obj → x.panel = r.panel → x.stage = .failed) := by
  obtain ⟨u, hbooks, hfails⟩ : ∃ u : State, u.tiers = s.tiers ∧ s.repairFails r code =
      (((u.markFailed r).incident clsUe 0x1A .ok (srcHub hubConservator) (panelDetail r.obj r.panel) code).failChains
        r.retry).nextRepair.settleObjects := by
    refine ⟨if r.data.isEmpty then s else s.dropPanelBooks r.obj r.panel, ?_, rfl⟩
    split
    · rfl
    · exact State.dropPanelBooks_tiers ..
  have hmaps : (u.markFailed r).NoRelease := h.congr (by rw [State.markFailed_maps, hbooks])
  obtain ⟨hpanels, hrepairs⟩ := State.nextRepair_settle_spec (t := State.failChains _ r.retry)
    ((State.failChains_tiers ..).trans (State.incident_tiers ..)) hmaps
  rw [hfails]
  refine ⟨?_, fun x hx hobj hpanel => ?_⟩
  · rw [hpanels, State.markFailed_panel, State.panel_congr (congrArg Tiers.panels hbooks)]
  · obtain ⟨y, hy, hyobj, hypanel, hstage | ⟨w, hw, hwaits, hwobj, hwpanel⟩⟩ := hrepairs x hx
    · exact hstage ▸ State.mem_markFailed hy (hyobj.trans hobj) (hypanel.trans hpanel)
    · have hfailed := State.mem_markFailed hw (hwobj.trans hobj) (hwpanel.trans hpanel)
      exact absurd (hwaits.symm.trans hfailed) (by decide)

/-- A repair that ends lifts its panel's quarantine, is no longer listed, and issues its chains again; no byte changes (R421). -/
theorem State.repairDone_spec {s : State} (h : s.NoRelease) (r : Repair) (detail2 : Nat) :
    (s.repairDone r detail2).panel r.obj r.panel = { s.panel r.obj r.panel with quar := false, failed := false } ∧
    (∀ x ∈ (s.repairDone r detail2).tiers.repairs, ¬ (x.obj = r.obj ∧ x.panel = r.panel)) ∧
    (∀ o ∈ r.retry, o ∈ ((s.repairDone r detail2).core o.core).waiting) ∧
    (s.repairDone r detail2).mem = s.mem := by
  have hdone : s.repairDone r detail2 = ((((s.dropPanelBooks r.obj r.panel).liftQuarantine r).reissue r.retry).incident clsUe
    0x19 .ok (srcHub hubConservator) (panelDetail r.obj r.panel) detail2).nextRepair.settleObjects := rfl
  have hbooks := s.dropPanelBooks_tiers r.obj r.panel
  have hmaps : ((s.dropPanelBooks r.obj r.panel).liftQuarantine r).NoRelease :=
    h.congr (by rw [State.liftQuarantine_maps, hbooks])
  obtain ⟨hpanels, hrepairs⟩ := State.nextRepair_settle_spec (t := State.incident _ clsUe 0x19 .ok (srcHub hubConservator)
    (panelDetail r.obj r.panel) detail2) ((State.incident_tiers ..).trans (State.reissue_tiers _ r.retry)) hmaps
  have hmem := (State.repairDone_only (a1 := r) (a2 := detail2) (.refl _ s) (Nat.or_self _)).mem.resolve_left (by decide)
  refine ⟨?_, fun x hx ⟨hobj, hpanel⟩ => ?_, fun o ho => ?_, hmem⟩
  · rw [hdone, hpanels, State.liftQuarantine_panel, State.panel_congr (congrArg Tiers.panels hbooks)]
  · obtain ⟨y, hy, hyobj, hypanel, -⟩ := hrepairs x (hdone ▸ hx)
    exact State.mem_liftQuarantine hy ⟨hyobj.trans hobj, hypanel.trans hpanel⟩
  · rw [hdone, State.nextRepair_settle_core, State.incident_core]
    exact State.mem_reissue_waiting _ ho

/-! ### The commands -/

section
variable {n : Fin 16384} {p : Nat} {s : State} {r : Repair}

theorem exec_repairStart (hat : s.repairAt n.val p .queued = some r) (hrun : s.running = true)
    (hbusy : (s.panel n.val p).busy = none) (hread : s.panelRead n.val p = false) (hroom : s.regionsUsed < 8) :
    exec (.repairStart n p) s = .next
      ((s.updRepair n.val p (fun r => { r with stage := .reading, tries := 1 })).askReference n.val p) := by
  show execRepairStart n p s = _
  simp [execRepairStart, hat, hrun, hbusy, hread, hroom]

/-- The copy of a T0 panel that has been read is written to its frame (R421). -/
theorem exec_referenceReadDone_t0 {data : Bytes} (hat : s.repairAt n.val p .reading = some r) (hrun : s.running = true)
    (htier : (s.panel n.val p).tier = 0) (hlen : data.length = 262144) :
    exec (.referenceReadDone n p data) s = .next ((s.writeHall (s.t0Addr (s.panel n.val p).frame) data).updRepair n.val p
      (fun r => { r with stage := .rewriting, data := data })) := by
  have hslice : slice data 0 262144 = data := by rw [← hlen, slice_whole]
  show execReferenceReadDone n p data s = _
  simp [execReferenceReadDone, hat, hrun, htier, hslice, State.writePanel_t0]

theorem exec_panelRewriteDone (hat : s.repairAt n.val p .rewriting = some r) (hrun : s.running = true) :
    exec (.panelRewriteDone n p) s = .next (s.updRepair n.val p (fun r => { r with stage := .readback })) := by
  show execPanelRewriteDone n p s = _
  simp [execPanelRewriteDone, hat, hrun]

theorem exec_referenceReadRetry_again (down : Bool) (hat : s.repairAt n.val p .reading = some r) (hrun : s.running = true)
    (hleft : r.tries < s.field .rasConsCfg [] 3 0) : exec (.referenceReadRetry n p down) s = .next
      ((s.updRepair n.val p (fun r => { r with tries := r.tries + 1 })).askReference n.val p) := by
  show execReferenceReadRetry n p down s = _
  simp [execReferenceReadRetry, State.referenceRetry, hat, hrun, hleft]

theorem exec_referenceReadRetry_fails (down : Bool) (hat : s.repairAt n.val p .reading = some r) (hrun : s.running = true)
    (hspent : ¬ r.tries < s.field .rasConsCfg [] 3 0) :
    ∃ code, exec (.referenceReadRetry n p down) s = .next (s.repairFails r code) := by
  refine ⟨(if !down then Status.internal else if s.locked then .linkDown else .beatLost).code, ?_⟩
  show execReferenceReadRetry n p down s = _
  simp [execReferenceReadRetry, State.referenceRetry, hat, hrun, hspent]

/-- What a panel's bytes read back as decides, once no repair command runs on its plinth (R317, R421). -/
theorem exec_readbackDone {ups : List Upset} (hat : (s.upsets ups).repairAt n.val p .readback = some r)
    (hrun : (s.upsets ups).running = true) (hfree : ∀ c a, (s.upsets ups).locate n.val p = .t1 c a →
      ((s.upsets ups).plinth (c / 256)).rprRun = none) :
    exec (.readbackDone n p ups) s = .next ((s.upsets ups).readback r) := by
  show execReadbackDone n p ups s = _
  simp only [execReadbackDone, hat, hrun]
  split
  · next c a hloc => simp [hfree c a hloc]
  · rfl

end

/-- A panel that reads back clean, wherever it lies, ends its repair (R421). -/
theorem State.readback_clean {s : State} {r : Repair}
    (hhall : ∀ h, s.locate r.obj r.panel = .t0 h → s.badWords (hallBase + h) 262144 = [])
    (hchan : ∀ c a, s.locate r.obj r.panel = .t1 c a → s.chanErrors (s.core c).chan a 262144 = []) :
    ∃ detail2, s.readback r = s.repairDone r detail2 := by
  unfold State.readback
  split
  · next h hloc => exact ⟨_, by rw [hhall h hloc]; rfl⟩
  · next c a hloc => exact ⟨_, by rw [hchan c a hloc]; rfl⟩
  · exact ⟨_, rfl⟩

end Sys2Proof.Machine

open Sys2Proof Sys2Proof.Machine

/-- Settles O38: the five commands of a repair, one after the other. -/
theorem panelsRepaired : Obligations.PanelsRepaired := by
  unfold Obligations.PanelsRepaired
  refine ⟨?_, ?_, fun n p s r hat hrun => ⟨_, exec_panelRewriteDone hat hrun, rfl⟩, ?_, ?_⟩
  · intro n p s r x hat hrun hbusy hread hroom hobj
    exact ⟨_, exec_repairStart hat hrun hbusy hread hroom, congrArg Tiers.repairs (State.askReference_tiers ..),
      fun hhost => State.askReference_out (s := s.updRepair ..) hobj hhost p⟩
  · intro n p data s r hat hrun htier hlen
    refine ⟨_, exec_referenceReadDone_t0 hat hrun htier hlen, ?_, fun i hi => ?_, fun a ha => ?_⟩
    · rw [State.updRepair_repairs, State.writeHall_tiers]
    · have hin : i < data.length := by omega
      rw [State.updRepair_mem, State.writeHall_mem, Memory.get_store_in hin, List.getD_eq_getElem _ _ hin]
    · rw [State.updRepair_mem, State.writeHall_mem, Memory.get_store_out (by omega)]
  · intro n p down s r hat hrun hmaps
    split
    · next hleft =>
      have htiers := State.askReference_tiers (s.updRepair n.val p (fun r => { r with tries := r.tries + 1 })) n.val p
      exact ⟨_, exec_referenceReadRetry_again down hat hrun hleft, congrArg Tiers.repairs htiers,
        (congrArg Tiers.panels htiers).trans (State.updRepair_panels ..)⟩
    · next hspent =>
      obtain ⟨code, hexec⟩ := exec_referenceReadRetry_fails down hat hrun hspent
      obtain ⟨hobj, hpanel⟩ := State.repairAt_eq_some hat
      have hfails := State.repairFails_spec hmaps r code
      rw [hobj, hpanel] at hfails
      exact ⟨_, hexec, hfails⟩
  · rintro n p ups s _ r rfl hat hrun hmaps hclean
    obtain ⟨hobj, hpanel⟩ := State.repairAt_eq_some hat
    rw [← hobj, ← hpanel] at hclean
    obtain ⟨detail2, hdone⟩ := State.readback_clean (r := r)
      (fun h hloc => by rw [hloc] at hclean; exact hclean) (fun c a hloc => by rw [hloc] at hclean; exact hclean.1)
    have hfree : ∀ c a, (s.upsets ups).locate n.val p = .t1 c a → ((s.upsets ups).plinth (c / 256)).rprRun = none := by
      intro c a hloc
      rw [hobj, hpanel, hloc] at hclean
      exact hclean.2
    have hends := State.repairDone_spec hmaps r detail2
    rw [hobj, hpanel] at hends
    exact ⟨_, hdone ▸ exec_readbackDone hat hrun hfree, hends⟩
end

section
/-! The statements on the sliver core: handles bound, zero-filled, unbound and drained (R88 to R91, R446). -/

namespace Sys2Proof.Machine

/-! ### An operation taken in -/

@[simp] theorem State.taken_core (s : State) (o : Origin) (d : Line64) (opcode c : Nat) :
    (s.taken o d opcode).core c = s.core c := State.take_core s c
@[simp] theorem State.taken_mem (s : State) (o : Origin) (d : Line64) (opcode : Nat) : (s.taken o d opcode).mem = s.mem :=
  State.take_mem s
@[simp] theorem State.taken_out (s : State) (o : Origin) (d : Line64) (opcode : Nat) : (s.taken o d opcode).out = s.out :=
  State.take_out s

/-- A ring's descriptor that completes as it is taken in, with nothing but cores changed before: one record. -/
theorem State.taken_answered {s u : State} {unit : Nat} {r : RingNo} {i : Word} {d : Line64} {opcode : Nat} {x : Done}
    (hu : u = { s.taken (.ring r i) d opcode with cores := u.cores }) (hf : s.fenced r.val = false)
    (hc : s.cutOff (r.val / 64) = false) :
    s.Answered (u.complete unit (s.asOp (.ring r i) d opcode) x) r.val
      (s.record r.val (fld d 2 15 0) opcode x.st.code x.cause x.off x.result i.toNat) := by
  rw [hu]
  exact (State.complete_ring (s := { s.taken (.ring r i) d opcode with cores := u.cores }) (State.asOp_org ..)
    (by simp [State.taken_ring]) hf hc).1

/-! ### CORE_BIND -/

/-- The entry that an accepted CORE_BIND makes of one, with the bind that stands on it (R88, R90). -/
def Op.bindEntry (o : Op) (h : Handle) (bind : Option Op) : Handle :=
  { h with
    st := .bound, base := fld o.d 12 11 0, lines := fld o.d 14 12 0, fmt := fld o.d 16 4 0, typed := fbit o.d 16 5
    order := fbit o.d 16 6, ring := fbit o.d 16 7, gal := o.gal, count := 0, bindOp := bind, prod := 0, cons := 0, slots := [] }

/-- Lines that a CORE_BIND finds stale in the range it names (R446). -/
def State.bindStale (s : State) (o : Op) : List Nat :=
  (s.core o.core).staleLines (fld o.d 12 11 0) (fld o.d 14 12 0) o.gal

/-- The state with the entry of a CORE_BIND filled. -/
def State.bindSet (s : State) (o : Op) (bind : Option Op) : State :=
  s.setCore o.core ((s.core o.core).setHandle (fld o.d 10 5 0)
    (o.bindEntry ((s.core o.core).handle (fld o.d 10 5 0)) bind))

theorem State.bindSet_handle (s : State) (o : Op) (bind : Option Op) :
    ((s.bindSet o bind).core o.core).handle (fld o.d 10 5 0) =
      o.bindEntry ((s.core o.core).handle (fld o.d 10 5 0)) bind := by simp [State.bindSet]

theorem State.bindSet_core_ne (s : State) (o : Op) (bind : Option Op) {c : Nat} (h : c ≠ o.core) :
    (s.bindSet o bind).core c = s.core c := State.setCore_core_ne _ h

/-- With a line of its range stale a CORE_BIND stands on its entry, and nothing has gone out (R446). -/
theorem State.bindStart_stale {s : State} {o : Op} (h : s.bindStale o ≠ []) : s.bindStart o = s.bindSet o (some o) :=
  if_neg (by rwa [List.isEmpty_iff])

/-- With none stale the entry is filled and the CORE_BIND completes with the entry's reference (R89, R90). -/
theorem State.bindStart_fresh {s : State} {o : Op} (h : s.bindStale o = []) :
    s.bindStart o = ((s.bindSet o (some o)).setCore o.core (((s.bindSet o (some o)).core o.core).setHandle (fld o.d 10 5 0)
      (o.bindEntry ((s.core o.core).handle (fld o.d 10 5 0)) none))).complete (srcCore o.core) o
      { st := .ok, result := fld o.d 10 5 0 + ((s.core o.core).handle (fld o.d 10 5 0)).gen.toNat * 256 } := by
  have hentry := s.bindSet_handle o (some o)
  have hdone : s.bindStart o = (s.bindSet o (some o)).bindDone o.core (fld o.d 10 5 0) o :=
    if_pos (List.isEmpty_iff.mpr h)
  rw [hdone, State.bindDone, hentry]
  rfl

/-- Acceptance fills the entry, on which the bind stands only while lines of its range are stale; no other core changes. -/
theorem State.bindStart_core (s : State) (o : Op) :
    ((s.bindStart o).core o.core).handle (fld o.d 10 5 0) =
      o.bindEntry ((s.core o.core).handle (fld o.d 10 5 0)) (if s.bindStale o = [] then none else some o) ∧
    ∀ c, c ≠ o.core → (s.bindStart o).core c = s.core c := by
  by_cases h : s.bindStale o = []
  · rw [State.bindStart_fresh h, if_pos h]
    refine ⟨by simp, fun c hc => ?_⟩
    rw [State.complete_core, State.setCore_core_ne _ hc, s.bindSet_core_ne o _ hc]
  · rw [State.bindStart_stale h, if_neg h]
    exact ⟨s.bindSet_handle o _, fun c hc => s.bindSet_core_ne o _ hc⟩

/-! ### The zero-fill -/

/-- A write of the scratchpad stores its bytes from the core's scratchpad on. -/
theorem State.writeScratch_mem (s : State) (c a : Nat) (b : Bytes) :
    (s.writeScratch c a b).1.mem = Memory.store s.mem (s.scratch c + a) b :=
  congrArg (Memory.store · _ b) ((State.noteScratchWords_only (.refl _ s) (Nat.or_self _)).fst.mem.resolve_left (by decide))

theorem State.writeScratch_cores (s : State) (c a : Nat) (b : Bytes) : (s.writeScratch c a b).1.cores = s.cores :=
  (State.writeScratch_only (.refl _ s) (Nat.or_self _)).fst.cores.resolve_left (by decide)

theorem State.scratch_congr {s t : State} (h : t.cores = s.cores) (c : Nat) : t.scratch c = s.scratch c := by
  rw [State.scratch, State.core_congr h, State.scratch]

/-- Lines of a core's scratchpad written with zeros, one after the other (R446). -/
def State.zeroLines (s : State) (c : Nat) (ls : List Nat) : State :=
  ls.foldl (fun s l => (s.writeScratch c (64 * l) (List.replicate 64 0)).1) s

theorem State.zeroLines_cores (s : State) (c : Nat) (ls : List Nat) : (s.zeroLines c ls).cores = s.cores := by
  induction ls generalizing s with
  | nil => rfl
  | cons l ls ih => exact (ih _).trans (s.writeScratch_cores ..)

/-- A byte of the zeroed lines reads as zero, every other byte as before. -/
theorem State.get_zeroLines (s : State) (c : Nat) (ls : List Nat) (a : Nat) :
    Memory.get (s.zeroLines c ls).mem a =
      if ∃ l ∈ ls, s.scratch c + 64 * l ≤ a ∧ a < s.scratch c + 64 * l + 64 then 0 else Memory.get s.mem a := by
  induction ls generalizing s with
  | nil => simp [State.zeroLines]
  | cons l ls ih =>
    have hhead : Memory.get (s.writeScratch c (64 * l) (List.replicate 64 0)).1.mem a =
        if s.scratch c + 64 * l ≤ a ∧ a < s.scratch c + 64 * l + 64 then 0 else Memory.get s.mem a := by
      simp only [State.writeScratch_mem, Memory.get_store, List.length_replicate, List.getElem_replicate, dite_eq_ite]
    have htail := ih (s.writeScratch c (64 * l) (List.replicate 64 0)).1
    rw [hhead, State.scratch_congr (s.writeScratch_cores ..), ← ite_or] at htail
    exact htail.trans (if_congr (by simp [or_comm]) rfl rfl)

/-- Lines tagged with a gallery, one after the other (R446). -/
def retag (g : Nat) (ls : List Nat) (t : Tbl Nat) : Tbl Nat := ls.foldl (fun t l => Tbl.put t l (g + 1) 0) t

theorem look_retag (g : Nat) (ls : List Nat) (t : Tbl Nat) (l : Nat) :
    Tbl.look (retag g ls t) l 0 = if l ∈ ls then g + 1 else Tbl.look t l 0 := by
  induction ls generalizing t with
  | nil => rfl
  | cons j ls ih =>
    rw [retag, List.foldl_cons]
    refine (ih _).trans ?_
    by_cases hj : l = j
    · subst hj; simp
    · simp [hj, Tbl.look_put_ne _ _ _ _ hj]

/-- Once the stale lines of a range are retagged, every line of the range carries the gallery's tag. -/
theorem Core.look_retag_range (k : Core) {base n g l : Nat} (hlo : base ≤ l) (hhi : l < base + n) :
    Tbl.look (retag g (k.staleLines base n g) k.tags) l 0 = g + 1 := by
  rw [look_retag]
  split
  · rfl
  · next hfresh =>
    by_contra hne
    refine hfresh (List.mem_filter.mpr ⟨List.mem_map.mpr ⟨l - base, List.mem_range.mpr (by omega), by omega⟩, ?_⟩)
    simpa using hne

/-- The core after the zero-fill of an entry. -/
def Core.filled (k : Core) (e : Nat) : Core :=
  { k with tags := retag (k.handle e).gal (k.staleLines (k.handle e).base (k.handle e).lines (k.handle e).gal) k.tags }

theorem exec_bindZeroFillDone {c : CoreNo} {e : Fin 64} {o : Op} {s : State} (hrun : s.running = true)
    (hbind : ((s.core c.val).handle e.val).bindOp = some o) :
    exec (.bindZeroFillDone c e) s = .next (((s.zeroLines c.val ((s.core c.val).staleLines ((s.core c.val).handle e.val).base
      ((s.core c.val).handle e.val).lines ((s.core c.val).handle e.val).gal)).setCore c.val
        ((s.core c.val).filled e.val)).bindDone c.val e.val o) := by
  have hcore := State.core_congr (s.zeroLines_cores c.val ((s.core c.val).staleLines ((s.core c.val).handle e.val).base
      ((s.core c.val).handle e.val).lines ((s.core c.val).handle e.val).gal)) c.val
  show execBindZeroFillDone c e s = _
  unfold State.zeroLines at hcore ⊢
  simp only [execBindZeroFillDone, hbind, hrun, Bool.not_true, Bool.false_eq_true, if_false, hcore, Core.filled, retag]

/-! ### The end of a bind, CORE_UNBIND and the drained entry -/

theorem State.bindDone_handle (s : State) (c e : Nat) (o : Op) :
    ((s.bindDone c e o).core c).handle e = { (s.core c).handle e with bindOp := none } := by simp [State.bindDone]

theorem State.bindDone_tags (s : State) (c e : Nat) (o : Op) : ((s.bindDone c e o).core c).tags = (s.core c).tags := by
  simp [State.bindDone, Core.setHandle]

theorem State.bindDone_mem (s : State) (c e : Nat) (o : Op) : (s.bindDone c e o).mem = s.mem := by simp [State.bindDone]

theorem exec_coreBind {o : Origin} {d : Line64} {s : State} (h : s.Accepts o d 0x60 bindChecks) :
    exec (.coreBind o d) s = .next ((s.taken o d 0x60).bindStart (s.asOp o d 0x60)) :=
  congrArg Host.Outcome.next (State.accept_of_accepts h)

theorem exec_coreUnbind {o : Origin} {d : Line64} {s : State} (h : s.Accepts o d 0x61 unbindChecks) :
    exec (.coreUnbind o d) s = .next ((s.taken o d 0x61).unbindStart (s.asOp o d 0x61)) :=
  congrArg Host.Outcome.next (State.accept_of_accepts h)

theorem State.alive_of_running {s : State} (h : s.running = true) : s.alive = true := by
  rw [State.running, Bool.and_eq_true] at h
  exact h.1

theorem exec_handleDrained {c : CoreNo} {e : Fin 64} {o : Op} {s : State} (hrun : s.running = true)
    (hst : ((s.core c.val).handle e.val).st = .draining) (hcount : ((s.core c.val).handle e.val).count = 0)
    (hop : ((s.core c.val).handle e.val).unbindOp = some o) :
    exec (.handleDrained c e) s = .next ((s.setCore c.val ((s.core c.val).setHandle e.val
      { gen := ((s.core c.val).handle e.val).gen })).complete (srcCore c.val) o { st := .ok }) := by
  show execHandleDrained c e s = _
  simp [execHandleDrained, State.alive_of_running hrun, hrun, hst, hcount, hop]

end Sys2Proof.Machine

open Sys2Proof Sys2Proof.Machine

/-- Settles O27: the acceptance of a bind, its zero-fill, the acceptance of an unbind and the drained entry, one after the other. -/
theorem handlesBindAndDrain : Obligations.HandlesBindAndDrain := by
  unfold Obligations.HandlesBindAndDrain
  refine ⟨?_, ?_, ?_, ?_⟩
  · intro r i d s hacc hfence hcut
    obtain ⟨hentry, hother⟩ := (s.taken (.ring r i) d 0x60).bindStart_core (s.asOp (.ring r i) d 0x60)
    have hstale : (s.taken (.ring r i) d 0x60).bindStale (s.asOp (.ring r i) d 0x60) =
      (s.core (fld d 8 10 0)).staleLines (fld d 12 11 0) (fld d 14 12 0) (r.val / 64) := rfl
    refine ⟨_, exec_coreBind hacc, ?_, fun hfresh => ?_, fun hne => ?_, fun c hc => ?_⟩
    · exact hentry
    · rw [State.bindStart_fresh (hstale.trans hfresh)]
      exact State.taken_answered rfl hfence hcut
    · rw [State.bindStart_stale (hstale ▸ hne)]
      rfl
    · exact hother c hc
  · intro c e o s hrun hbind
    refine ⟨_, exec_bindZeroFillDone hrun hbind, ?_, fun l hlo hhi => ?_, fun l b hl hb => ?_, fun a ha => ?_⟩
    · rw [State.bindDone_handle, State.setCore_core]
      rfl
    · rw [State.bindDone_tags, State.setCore_core]
      exact Core.look_retag_range _ hlo hhi
    · rw [State.bindDone_mem, State.setCore_mem, State.get_zeroLines, if_pos ⟨l, hl, by omega, by omega⟩]
    · rw [State.bindDone_mem, State.setCore_mem, State.get_zeroLines, if_neg]
      rintro ⟨l, hl, hlo, hhi⟩
      have := ha l hl
      omega
  · intro o d s hacc
    refine ⟨_, exec_coreUnbind hacc, ?_, fun c hc => ?_⟩
    · simp [State.unbindStart]
    · refine (State.setCore_core_ne _ ?_).trans (State.taken_core ..)
      simpa using hc
  · intro c e o s hrun hst hcount hop
    refine ⟨_, exec_handleDrained hrun hst hcount hop, by simp, fun x hx => ?_⟩
    rw [State.complete_core, State.setCore_core_ne _ hx]
end

section
/-! The statements on the sliver core: what waits at a core's issue point, and what issues there (R94, R96, R115, R289). -/

namespace Sys2Proof.Machine

/-! ### What a core works on -/

/-- What a core works on is the same: what waits at its issue point, its tiles and ATTNs, and its banks. -/
structure Core.SameWork (k k' : Core) : Prop where
  waiting : k'.waiting = k.waiting
  tiles : k'.tiles = k.tiles
  attns : k'.attns = k.attns
  bank0 : k'.bank0 = k.bank0
  bank1 : k'.bank1 = k.bank1

theorem Core.cache_sameWork (k : Core) (x : Tbl (List CacheLine)) : k.SameWork { k with cache := x } :=
  ⟨rfl, rfl, rfl, rfl, rfl⟩
theorem Core.codebooks_sameWork (k : Core) (x : List CodebookReg) : k.SameWork { k with codebooks := x } :=
  ⟨rfl, rfl, rfl, rfl, rfl⟩
theorem Core.scoreboard_sameWork (k : Core) (x : List SbEntry) : k.SameWork { k with scoreboard := x } :=
  ⟨rfl, rfl, rfl, rfl, rfl⟩
theorem Core.setHandle_sameWork (k : Core) (e : Nat) (h : Handle) : k.SameWork (k.setHandle e h) :=
  ⟨rfl, rfl, rfl, rfl, rfl⟩

/-- A core of two states works on the same. -/
def State.SameWork (s : State) (c : Nat) (t : State) : Prop := (s.core c).SameWork (t.core c)

theorem State.SameWork.refl (s : State) (c : Nat) : s.SameWork c s := ⟨rfl, rfl, rfl, rfl, rfl⟩

theorem State.SameWork.trans {s t u : State} {c : Nat} (h : s.SameWork c t) (k : t.SameWork c u) : s.SameWork c u :=
  ⟨k.waiting.trans h.waiting, k.tiles.trans h.tiles, k.attns.trans h.attns, k.bank0.trans h.bank0, k.bank1.trans h.bank1⟩

theorem State.SameWork.foldl {α : Type} {c : Nat} {f : State → α → State} (h : ∀ (u : State) x, u.SameWork c (f u x))
    (l : List α) (s : State) : s.SameWork c (l.foldl f s) :=
  List.foldlRecOn l f (.refl s c) (fun u hu x _ => hu.trans (h u x))

theorem State.SameWork.foldlFst {α β : Type} {c : Nat} {f : State × β → α → State × β}
    (h : ∀ (p : State × β) x, p.1.SameWork c (f p x).1) (l : List α) (p : State × β) :
    p.1.SameWork c (l.foldl f p).1 :=
  List.foldlRecOn (motive := fun q => p.1.SameWork c q.1) l f (.refl p.1 c) (fun q hq x _ => hq.trans (h q x))

/-- What writes no core leaves what every core works on. -/
theorem OnlyM.sameWork {m : Nat} {s t : State} (h : OnlyM m s t) (e : m.testBit Leaf.cores.ctorIdx = false) (c : Nat) :
    s.SameWork c t := by
  have hcores := h.cores.resolve_left (fun k => Bool.false_ne_true (e.symm.trans k))
  rw [State.SameWork, State.core_congr hcores]
  exact State.SameWork.refl s c

/-- A write of one core that keeps what it works on keeps it for every core. -/
theorem State.setCore_sameWork {s : State} {j : Nat} {k : Core} (h : (s.core j).SameWork k) (c : Nat) :
    s.SameWork c (s.setCore j k) := by
  by_cases hc : c = j
  · subst hc
    rwa [State.SameWork, State.setCore_core]
  · rw [State.SameWork, State.setCore_core_ne _ hc]
    exact State.SameWork.refl s c

theorem State.useHandle_sameWork (s : State) (j ref : Nat) (up : Bool) (c : Nat) : s.SameWork c (s.useHandle j ref up) :=
  State.setCore_sameWork (Core.setHandle_sameWork ..) c

/-- A read of a line through a core's slice changes the slice at most. -/
theorem State.readLine_sameWork (s : State) (j : Nat) (client : Client) (reader line c : Nat) :
    s.SameWork c (s.readLine j client reader line) := by
  unfold State.readLine
  extract_lets k h set s1 k' errs s2 k2 x
  split
  · have hnote : s.SameWork c s1 := (State.noteCacheWords_only (.refl _ s) (Nat.or_self _)).sameWork (by decide) c
    exact hnote.trans (State.setCore_sameWork (Core.cache_sameWork ..) c)
  · have hnote : s.SameWork c s2 := (State.noteChan_only (.refl _ s) (Nat.or_self _)).sameWork (by decide) c
    split
    · exact hnote
    · exact hnote.trans (State.setCore_sameWork (Core.cache_sameWork ..) c)

theorem State.readLines_sameWork (s : State) (j : Nat) (client : Client) (reader a n c : Nat) :
    s.SameWork c (s.readLines j client reader a n) := by
  unfold State.readLines
  split
  · exact .refl s c
  · exact .foldl (fun u l => u.readLine_sameWork j client reader l c) _ s

theorem State.noteWeights_sameWork (s : State) (o : Op) (ranges : List (Nat × Nat)) (c : Nat) :
    s.SameWork c (s.noteWeights o ranges).1 := by
  refine State.SameWork.foldlFst (fun p r => ?_) ranges (s, false)
  dsimp only
  split
  · exact (State.noteScratch_only (.refl _ p.1) (Nat.or_self _)).fst.sameWork (by decide) c
  · exact ((State.missTraffic_only (.refl _ p.1) (Nat.or_self _)).sameWork (by decide) c).trans
      (State.readLines_sameWork ..)

theorem State.loadCodebooks_sameWork (s : State) (o : Op) (c : Nat) : s.SameWork c (s.loadCodebooks o).1 := by
  unfold State.loadCodebooks
  split
  · exact .refl s c
  · extract_lets base refs table fresh t shut s0 dbl n k regs mine regs' infos
    have htable : s.SameWork c s0 := by
      unfold s0
      split
      · exact s.readLines_sameWork ..
      · exact .refl s c
    have hregs : n.1.SameWork c (n.1.setCore o.core { k with codebooks := regs' }) :=
      State.setCore_sameWork (Core.codebooks_sameWork ..) c
    exact ((htable.trans (s0.noteWeights_sameWork ..)).trans hregs).trans
      ((State.count_only (.refl _ _) (Nat.or_self _)).sameWork (by decide) c)

/-! ### Acceptance -/

/-- An operation accepted for a core waits behind what waits at its issue point (R96). -/
theorem State.tileStart_spec (s : State) (o : Op) :
    (s.tileStart o).core o.core = { s.core o.core with waiting := (s.core o.core).waiting ++ [o] } ∧
      (∀ c, c ≠ o.core → (s.tileStart o).core c = s.core c) ∧ (s.tileStart o).mem = s.mem :=
  ⟨State.setCore_core _, fun _ hc => State.setCore_core_ne _ hc, rfl⟩

theorem State.asOp_pages (s : State) (o : Origin) (d : Line64) (opcode : Nat) : (s.asOp o d opcode).pages = none := by
  cases o <;> rfl

/-- An ATTN whose page list no program built waits as a tile does. -/
theorem State.attnStart_none (s : State) {o : Op} (h : o.pages = none) : s.attnStart none o = s.tileStart o := by
  rw [State.attnStart, State.tileStart, ← h]

/-- TILE, TILE_BS and ATTN are accepted alike. -/
theorem exec_coreRow {x : DescRow} (hx : x ∈ coreRows) {o : Origin} {d : Line64} {s : State}
    (h : s.Accepts o d x.opcode x.checks) :
    exec (x.make o d) s = .next ((s.taken o d x.opcode).tileStart (s.asOp o d x.opcode)) := by
  simp only [coreRows, List.mem_cons, List.not_mem_nil, or_false] at hx
  obtain rfl | rfl | rfl := hx
  · exact congrArg Host.Outcome.next (State.accept_of_accepts h)
  · exact congrArg Host.Outcome.next (State.accept_of_accepts h)
  · exact congrArg Host.Outcome.next
      ((State.accept_of_accepts h).trans (State.attnStart_none _ (State.asOp_pages ..)))

/-! ### The issue of a DMA operation -/

theorem State.useHandle_scoreboard (s : State) (j ref : Nat) (up : Bool) (c : Nat) :
    ((s.useHandle j ref up).core c).scoreboard = (s.core c).scoreboard := by
  by_cases hc : c = j
  · subst hc
    rw [State.useHandle, State.setCore_core]
    rfl
  · rw [State.useHandle, State.setCore_core_ne _ hc]

theorem State.dmaHandles_spec (s : State) (o : Op) (up : Bool) (c : Nat) :
    s.SameWork c (s.dmaHandles o up) ∧ ((s.dmaHandles o up).core c).scoreboard = (s.core c).scoreboard := by
  refine ⟨.foldl (fun u e => u.useHandle_sameWork ..) _ s, ?_⟩
  unfold State.dmaHandles
  induction o.scratchEps generalizing s with
  | nil => rfl
  | cons e es ih => exact (ih _).trans (s.useHandle_scoreboard ..)

theorem State.hrefBad_congr {s t : State} {core ref : Nat} (h : t.href core ref = s.href core ref) (gal : Nat) :
    t.hrefBad core ref gal = s.hrefBad core ref gal := by rw [State.hrefBad, h, State.hrefBad]

/-- A DMA operation whose references still hold is marked as issued (R88, R289). -/
theorem State.dmaIssue_spec {s : State} {o : Op}
    (h : ∀ e ∈ o.scratchEps, s.hrefBad e.core e.href o.gal = false) (c : Nat) :
    s.SameWork c (s.dmaIssue o) ∧ ((s.dmaIssue o).core c).scoreboard = (s.core c).scoreboard ∧
      ∀ y ∈ (s.dmaIssue o).dma.ops, y.op.id = o.id → y.issued = true := by
  have hgood : ¬ (o.scratchEps.any (fun e => s.hrefBad e.core e.href o.gal) = true) := by simpa using h
  obtain ⟨hwork, hboard⟩ := s.dmaHandles_spec o true c
  rw [State.dmaIssue, if_neg hgood]
  refine ⟨hwork, hboard, fun y hy hid => ?_⟩
  obtain ⟨x, -, rfl⟩ := List.mem_map.mp hy
  split at hid
  · next hx => rw [if_pos hx]
  · next hx => exact absurd hid hx

/-- The issue point with the entries of a DMA operation in the scoreboard, and no longer waiting for it. -/
theorem State.issueDma_spec {s : State} {c : Nat} {o : Op} (hwait : (s.core c).waiting = [o])
    (h : ∀ e ∈ o.scratchEps, s.hrefBad e.core e.href o.gal = false) :
    ((s.issueDma c o).core c).waiting = [] ∧
      ((s.issueDma c o).core c).scoreboard = (s.core c).scoreboard ++ (s.dmaEntries o).map Prod.snd ∧
      ∀ y ∈ (s.issueDma c o).dma.ops, y.op.id = o.id → y.issued = true := by
  unfold State.issueDma
  extract_lets k
  generalize hu : ((s.setCore c { k with waiting := k.waiting.filter (fun p => p.id != o.id)
                                         scoreboard := k.scoreboard ++ (s.dmaEntries o).map Prod.snd }).waitEnd (srcCore c) 1
    o.identity (some (.sbWait, c))).opEvent (srcCore c) 1 o .ok = u
  have hcore (j : Nat) : u.core j = (s.setCore c { k with
      waiting := k.waiting.filter (fun p => p.id != o.id)
      scoreboard := k.scoreboard ++ (s.dmaEntries o).map Prod.snd }).core j := by
    rw [← hu, State.opEvent_core, (State.waitEnd_sameStore ..).core]
  have hself := (hcore c).trans (State.setCore_core _)
  have hhref (j ref : Nat) : u.href j ref = s.href j ref := by
    by_cases hj : j = c
    · subst hj
      rw [State.href, hself]
      rfl
    · rw [State.href, hcore, State.setCore_core_ne _ hj, State.href]
  obtain ⟨hwork, hboard, hissued⟩ := State.dmaIssue_spec (s := u) (o := o)
    (fun e he => (State.hrefBad_congr (hhref ..) _).trans (h e he)) c
  refine ⟨?_, ?_, hissued⟩
  · rw [hwork.waiting, hself]
    simp [k, hwait]
  · rw [hboard, hself]

/-! ### The issue of an ATTN -/

/-- An ATTN that issues stands behind the core's issued ATTNs, and waits no longer (R115). -/
theorem State.issueAttn_spec (s : State) (o : Op) :
    ((s.issueAttn o).core o.core).waiting = (s.core o.core).waiting.filter (fun p => p.id != o.id) ∧
      ((s.issueAttn o).core o.core).attns.map (fun a => a.op) = (s.core o.core).attns.map (fun a => a.op) ++ [o] := by
  unfold State.issueAttn
  extract_lets es sc s1 k run s2
  have hscan : s.SameWork o.core sc.1 := (State.scanPages_only (.refl _ s) (Nat.or_self _)).fst.sameWork (by decide) _
  have hwork : s.SameWork o.core s1 := hscan.trans (.foldl (fun u r => u.useHandle_sameWork ..) _ _)
  have hissued : s2.core o.core = { k with
      waiting := k.waiting.filter (fun p => p.id != o.id), scoreboard := k.scoreboard ++ es, attns := k.attns ++ [run] } := by
    rw [State.opEvent_core, State.core_congr ((State.issueWaits_only (.refl _ _) (Nat.or_self _)).cores.resolve_left
      (by decide)), State.setCore_core]
  have hkept : (if k.attns.isEmpty then s2.opEvent (srcCore o.core) 2 o .ok else s2).core o.core = s2.core o.core := by
    split
    · exact State.opEvent_core ..
    · rfl
  rw [hkept, hissued]
  exact ⟨congrArg _ hwork.waiting, by rw [List.map_append, ← hwork.attns]; rfl⟩

/-! ### The issue of a tile -/

@[simp] theorem Core.setBank_bank (k : Core) (b : Bool) (x : Bank) : (k.setBank b x).bank b = x := by cases b <;> rfl
@[simp] theorem Core.setBank_bank_not (k : Core) (b : Bool) (x : Bank) : (k.setBank b x).bank (!b) = k.bank (!b) := by
  cases b <;> rfl
@[simp] theorem Core.setBank_waiting (k : Core) (b : Bool) (x : Bank) : (k.setBank b x).waiting = k.waiting := by
  cases b <;> rfl
@[simp] theorem Core.setBank_tiles (k : Core) (b : Bool) (x : Bank) : (k.setBank b x).tiles = k.tiles := by cases b <;> rfl

/-- Whether or not the first issued tile finds a bank, the core has the same tiles and the same operations wait. -/
theorem State.startTile_spec (s : State) (c : Nat) : ((s.startTile c).core c).waiting = (s.core c).waiting ∧
    ((s.startTile c).core c).tiles.map (fun x => x.op) = (s.core c).tiles.map (fun x => x.op) := by
  unfold State.startTile
  extract_lets k
  split
  · exact ⟨rfl, rfl⟩
  · next t rest htiles =>
    split
    · exact ⟨rfl, rfl⟩
    · extract_lets bank
      clear_value bank
      cases bank with
      | none =>
        rw [(State.waitBegin_sameStore ..).core]
        exact ⟨rfl, rfl⟩
      | some b =>
        rw [State.opEvent_core, (State.waitEnd_sameStore ..).core, State.setCore_core]
        exact ⟨Core.setBank_waiting .., congrArg (List.map (fun x => x.op)) htiles.symm⟩

/-- A tile that issues to its core's own array stands behind the core's issued tiles, and waits no longer (R115). -/
theorem State.issueTile_spec {s : State} {o : Op} (hown : s.toAnnex o = false) :
    ((s.issueTile o).core o.core).waiting = (s.core o.core).waiting.filter (fun p => p.id != o.id) ∧
      ((s.issueTile o).core o.core).tiles.map (fun x => x.op) = (s.core o.core).tiles.map (fun x => x.op) ++ [o] := by
  unfold State.issueTile
  extract_lets lanes tag annex k s0 s1 k1 s2 cb ls refs run t anx k2
  have hleft : s0.core o.core = { k with waiting := k.waiting.filter (fun p => p.id != o.id) } := by
    rw [State.opEvent_core, State.core_congr ((State.issueWaits_only (.refl _ _) (Nat.or_self _)).cores.resolve_left
      (by decide)), State.setCore_core]
  have hused : s0.SameWork o.core s1 := ((State.noteBase_only (.refl _ s0) (Nat.or_self _)).sameWork (by decide) _).trans
    (.foldl (fun u r => u.useHandle_sameWork ..) _ _)
  have hentered : s1.SameWork o.core s2 := State.setCore_sameWork (Core.scoreboard_sameWork ..) _
  clear_value s0 s1 s2
  have hlists : cb.1.SameWork o.core ls.1 := (State.noteLists_only (.refl _ _) (Nat.or_self _)).fst.sameWork (by decide) _
  have hwork : s0.SameWork o.core ls.1 := ((hused.trans hentered).trans (s2.loadCodebooks_sameWork ..)).trans hlists
  obtain ⟨hwaiting, htiles⟩ := (ls.1.setCore o.core { k2 with tiles := k2.tiles ++ [run] }).startTile_spec o.core
  have hannex : annex = false := hown
  rw [if_neg (by simp [hannex]), if_neg (by simp [hannex]), hwaiting, htiles, State.setCore_core]
  constructor
  · exact hwork.waiting.trans (by rw [hleft])
  · rw [List.map_append, show k2.tiles = _ from hwork.tiles, hleft]
    rfl

theorem State.issueTile_mem (s : State) (o : Op) : (s.issueTile o).mem = s.mem :=
  (State.issueTile_only (.refl _ s) (Nat.or_self _)).mem.resolve_left (by decide)

/-! ### CORE_ISSUE -/

theorem minBy_mem {α : Type} {f : α → Nat} {l : List α} {a : α} (h : minBy f l = some a) : a ∈ l := by
  induction l generalizing a with
  | nil => cases h
  | cons b l ih =>
    rw [minBy] at h
    split at h
    · cases h; exact List.mem_cons_self
    · next x hx =>
      split at h
      · cases h; exact List.mem_cons_self
      · cases h; exact List.mem_cons_of_mem _ (ih hx)

/-- The head of a class is a tile or ATTN that waits (R217). -/
theorem State.mem_issueHeads {s : State} {c : Nat} {p : Op} (h : p ∈ (s.issueHeads c).map Prod.fst) :
    p ∈ (s.core c).waiting.filter Op.tileLike := by
  simp only [State.issueHeads, List.map_map, List.mem_map, List.mem_filterMap, List.mem_cons, id, Function.comp] at h
  obtain ⟨_, ⟨_, hsome | ⟨n, -, hsome⟩, rfl⟩, rfl⟩ := h
  · split at hsome
    · exact (List.mem_filter.mp (minBy_mem hsome.symm)).1
    · cases hsome
  · exact List.mem_of_find?_eq_some hsome

theorem State.mem_joining {s : State} {c : Nat} {p : Op} (h : p ∈ s.joining c) :
    p ∈ (s.core c).waiting.filter Op.tileLike := by
  obtain ⟨hp, hjoins⟩ := List.mem_filter.mp h
  simp only [Bool.and_eq_true] at hjoins
  exact List.mem_filter.mpr ⟨hp, hjoins.1.1.1⟩

/-- An attempt begins no wait where every tile it looks at may go and every DMA operation finds room in the scoreboard (R460). -/
theorem State.beginWaits_none {s : State} {c : Nat} {tiles : List Op} (hgo : ∀ p ∈ tiles, s.tileLikeVerdict p = .go)
    (hdma : ∀ p ∈ (s.core c).waiting, p.tileLike = false → (s.core c).sbFree ((s.dmaEntries p).map Prod.snd) = true) :
    s.beginWaits c tiles = s := by
  have hnone : (s.core c).waiting.filter (fun o => !o.tileLike && !(s.core c).sbFree ((s.dmaEntries o).map Prod.snd)) = [] := by
    refine List.filter_eq_nil_iff.mpr fun p hp hwaits => ?_
    simp only [Bool.and_eq_true, Bool.not_eq_true'] at hwaits
    rw [hdma p hp hwaits.1] at hwaits
    exact Bool.noConfusion hwaits.2
  unfold State.beginWaits
  rw [hnone, List.foldl_nil]
  induction tiles with
  | nil => rfl
  | cons p tiles ih =>
    rw [List.foldl_cons, hgo p (.head _)]
    exact ih (fun q hq => hgo q (.tail _ hq))

/-- The only operation at the issue point, a tile or ATTN that R217 names and that may go, issues. -/
theorem exec_coreIssue_tile {c : CoreNo} {o : Op} {s : State} (hrun : s.running = true)
    (hwait : (s.core c.val).waiting = [o]) (htile : o.tileLike = true) (hnext : s.nextTile c.val = (s, some o))
    (hgo : s.tileLikeVerdict o = .go) : exec (.coreIssue c) s = .next (s.issueTileLike o) := by
  have hbegin : s.beginWaits c.val (s.joining c.val ++ (s.issueHeads c.val).map Prod.fst) = s := by
    refine State.beginWaits_none (fun p hp => ?_) (fun p hp hdma => ?_)
    · have hmem : p ∈ (s.core c.val).waiting.filter Op.tileLike :=
        (List.mem_append.mp hp).elim State.mem_joining State.mem_issueHeads
      rw [hwait, List.filter_cons_of_pos htile] at hmem
      rw [List.mem_singleton.mp hmem]
      exact hgo
    · rw [hwait, List.mem_singleton] at hp
      rw [hp, htile] at hdma
      exact Bool.noConfusion hdma
  show execCoreIssue c s = _
  simp [execCoreIssue, hrun, hbegin, hnext, hwait, htile, hgo]

/-- The only operation at the issue point, a DMA operation that may pass it, issues (R289). -/
theorem exec_coreIssue_dma {c : CoreNo} {o : Op} {s : State} (hrun : s.running = true)
    (hwait : (s.core c.val).waiting = [o]) (hdma : o.tileLike = false) (hmay : s.dmaMayIssue c.val o = true) :
    exec (.coreIssue c) s = .next (s.issueDma c.val o) := by
  obtain ⟨hswitch, hfree⟩ : (s.core c.val).switching = false ∧
      (s.core c.val).sbFree ((s.dmaEntries o).map Prod.snd) = true := by
    simpa [State.dmaMayIssue] using hmay
  have hjoining : s.joining c.val = [] := by simp [State.joining, hwait, hdma]
  have hheads : s.issueHeads c.val = [] := by simp [State.issueHeads, hwait, hdma, minBy]
  have hbegin : s.beginWaits c.val [] = s := State.beginWaits_none (fun _ h => nomatch h)
    (fun p hp _ => by rw [hwait, List.mem_singleton] at hp; rw [hp]; exact hfree)
  have hnext : s.nextTile c.val = (s, none) := by
    simp [State.nextTile, hjoining, hswitch, hheads, State.classPick]
  show execCoreIssue c s = _
  simp [execCoreIssue, hrun, hjoining, hheads, hbegin, hnext, hwait, hdma, hmay]

end Sys2Proof.Machine

open Sys2Proof Sys2Proof.Machine

/-- Settles O28: acceptance, and the issue of a DMA operation, of an ATTN and of a tile of the core's own array. -/
theorem coreOpsIssue : Obligations.CoreOpsIssue := by
  unfold Obligations.CoreOpsIssue
  refine ⟨fun x hx o d s hacc => ?_, ?_, ?_, ?_⟩
  · obtain ⟨hcore, hother, hmem⟩ := (s.taken o d x.opcode).tileStart_spec (s.asOp o d x.opcode)
    simp only [Op.core, State.asOp_d, State.taken_core, State.taken_mem] at hcore hother hmem
    exact ⟨_, exec_coreRow hx hacc, hcore, hother, hmem⟩
  · intro c o s hrun hwait hdma hmay hgood
    exact ⟨_, exec_coreIssue_dma hrun hwait hdma hmay, State.issueDma_spec hwait hgood⟩
  · intro c o s hrun hwait htile hop hcore hnext hgo _
    have hverdict : s.tileLikeVerdict o = .go := by simp [State.tileLikeVerdict, hop, hgo]
    obtain ⟨hleft, hattns⟩ := s.issueAttn_spec o
    refine ⟨_, exec_coreIssue_tile hrun hwait htile hnext hverdict, ?_⟩
    rw [State.issueTileLike, if_pos (by simp [hop]), ← hcore, hleft, hcore, hwait, ← hcore]
    exact ⟨by simp, hattns⟩
  · intro c o s hrun hwait htile hop hcore hnext hgo _ hown
    have hverdict : s.tileLikeVerdict o = .go := by simp [State.tileLikeVerdict, hop, hgo]
    obtain ⟨hleft, htiles⟩ := State.issueTile_spec hown
    refine ⟨_, exec_coreIssue_tile hrun hwait htile hnext hverdict, ?_⟩
    rw [State.issueTileLike, if_neg (by simpa using hop), ← hcore, hleft, hcore, hwait, ← hcore]
    exact ⟨by simp, htiles, s.issueTile_mem o⟩
end

section
/-! The statements on the sliver core: hub operations in line for their unit (R218, R389). -/

namespace Sys2Proof.Machine

/-- An accepted hub operation stands in line where its class puts it (R218). -/
theorem State.hubStart_hubOps (s : State) (o : Op) : (s.hubStart o).hubOps = hubQueue o s.hubOps := by
  unfold State.hubStart
  extract_lets s1
  split
  · exact (State.opEvent_only (.refl _ s1) (Nat.or_self _)).hubOps.resolve_left (by decide)
  · rfl

/-- What accepting an ADDNORM leaves in line at the hub units: the queue of R218, not the end of the line. -/
theorem exec_addnorm_hubOps {o : Origin} {d : Line64} {s t : State} (h : s.Accepts o d 0x78 (hubChecks 0))
    (hexec : exec (.addnorm o d) s = .next t) : t.hubOps = hubQueue (s.asOp o d 0x78) (s.taken o d 0x78).hubOps := by
  have heq : exec (.addnorm o d) s = .next ((s.taken o d 0x78).hubStart (s.asOp o d 0x78)) :=
    congrArg Host.Outcome.next (State.accept_of_accepts h)
  obtain rfl := Host.Outcome.next.inj (heq.symm.trans hexec)
  exact State.hubStart_hubOps ..

/-- An ADDNORM of one lane, every other operand 0. -/
def oneLaneAddnorm : Line64 := BitVec.ofNat 512 (1 <<< (8 * 11))

/-- An Ochre ADDNORM of lane group 1, as the reduction engine holds it. -/
def ochreAddnorm (id : Nat) : Op :=
  { id := id, org := .step 1, opcode := 0x78, d := oneLaneAddnorm, gal := 0, cls := 1, beat := 0 }

/-- The device in RUN with its units enabled: a Carmine step runs, and two Ochre ADDNORMs stand at the reduction engine, the
first of them started. -/
def hubWithOchreInLine : State where
  ctl := { st := .run, bootStep := 5 }
  sec := { st := .run, seeded := true }
  regs := [(0x2000, 1), (0x100000, 1), (0x200000, 1), (0x400000, 1), (0x600014, 1), (0x1000000, 1)]
  doc := { groups := [{ id := 0, cls := 0, prog := 0, prefill := false, beat := 0, members := [] }] }
  hubOps := [ochreAddnorm 0, ochreAddnorm 1]
  nextOp := 2

/-- The Carmine step's ADDNORM passes every check. -/
theorem hubWithOchreInLine_accepts : hubWithOchreInLine.Accepts (.step 0) oneLaneAddnorm 0x78 (hubChecks 0) := by
  unfold State.Accepts
  decide +kernel

/-- R218 puts the Carmine ADDNORM between the one that has started and the one that waits. -/
theorem hubQueue_carmine : (hubQueue (hubWithOchreInLine.asOp (.step 0) oneLaneAddnorm 0x78)
    (hubWithOchreInLine.taken (.step 0) oneLaneAddnorm 0x78).hubOps).map (fun p => p.id) = [0, 2, 1] := by
  decide +kernel

/-- The end of the line is behind the one that waits. -/
theorem hubOps_append_carmine : (hubWithOchreInLine.hubOps ++ [hubWithOchreInLine.asOp (.step 0) oneLaneAddnorm 0x78]).map
    (fun p => p.id) = [0, 1, 2] := rfl

end Sys2Proof.Machine

open Sys2Proof Sys2Proof.Machine

/-- Refutes O32: an accepted hub operation does not always go to the end of the line. A Carmine ADDNORM passes the Ochre one that
waits for the reduction engine and has not started (R218). -/
theorem not_hubRuns : ¬ Obligations.HubRuns := by
  unfold Obligations.HubRuns
  rintro ⟨haccept, -⟩
  obtain ⟨t, hexec, hops⟩ := haccept ⟨.addnorm, opHub, hubChecks 0⟩ (.head _) _ _ _ hubWithOchreInLine_accepts
  have hqueue := (exec_addnorm_hubOps hubWithOchreInLine_accepts hexec).symm.trans hops
  have hids := hubQueue_carmine
  rw [hqueue, hubOps_append_carmine] at hids
  exact absurd hids (by decide)
end

section
/-! The statements on the sliver core: the end of a tile, and the drain of a bank (R106, R107, R110, R127, R137, R140, R142). -/

namespace Sys2Proof.Machine

/-! ### Memory below an address -/

/-- Every byte below an address is as it was. -/
structure Memory.SameBelow (n : Nat) (m m' : Memory) : Prop where
  get : ∀ a, a < n → Memory.get m' a = Memory.get m a

theorem Memory.SameBelow.refl (n : Nat) (m : Memory) : m.SameBelow n m := ⟨fun _ _ => rfl⟩

theorem Memory.SameBelow.of_eq {n : Nat} {m m' : Memory} (h : m' = m) : m.SameBelow n m' := h ▸ .refl n m

theorem Memory.SameBelow.trans {n : Nat} {m m' m'' : Memory} (h : m.SameBelow n m') (k : m'.SameBelow n m'') :
    m.SameBelow n m'' :=
  ⟨fun a ha => (k.get a ha).trans (h.get a ha)⟩

theorem Memory.store_sameBelow {n g : Nat} (hg : n ≤ g) (m : Memory) (b : Bytes) : m.SameBelow n (m.store g b) :=
  ⟨fun _ ha => Memory.get_store_out (.inl (ha.trans_le hg))⟩

theorem Memory.SameBelow.foldlFst {n : Nat} {α β : Type} {f : State × β → α → State × β}
    (h : ∀ (p : State × β) x, Memory.SameBelow n p.1.mem (f p x).1.mem) (l : List α) (p : State × β) :
    Memory.SameBelow n p.1.mem (l.foldl f p).1.mem :=
  List.foldlRecOn (motive := fun q => Memory.SameBelow n p.1.mem q.1.mem) l f (.refl n p.1.mem)
    (fun q hq x _ => hq.trans (h q x))

/-- A write through the scratchpad leaves the device memory of the cores' channels (R3). -/
theorem State.writeScratch_sameBelow (s : State) (c a : Nat) (b : Bytes) :
    Memory.SameBelow (2 ^ 40) s.mem (s.writeScratch c a b).1.mem := by
  rw [State.writeScratch_mem]
  exact Memory.store_sameBelow (by unfold State.scratch scratchBase; omega) ..

/-- A write of the hall buffer leaves everything below it (R3). -/
theorem State.putHall_sameBelow (s : State) (a : Nat) (b : Bytes) : Memory.SameBelow (2 ^ 41) s.mem (s.putHall a b).1.mem := by
  rw [show (s.putHall a b).1.mem = Memory.store s.mem (hallBase + a) b from
    congrArg (Memory.store · (hallBase + a) b) (s.noteHallWords_mem _)]
  exact Memory.store_sameBelow (Nat.le_add_right ..) ..

/-! ### The masks of a tile -/

/-- Upsets of scratchpad words reach no core and no byte of memory. -/
theorem State.upsets_of_scratch {l : List Upset} (h : ∀ u ∈ l, ∃ c w dbl, u = .scratch c w dbl) (s : State) :
    (s.upsets l).cores = s.cores ∧ (s.upsets l).mem = s.mem := by
  refine List.foldlRecOn (motive := fun t => t.cores = s.cores ∧ t.mem = s.mem) l State.upset ⟨rfl, rfl⟩
    (fun t ht u hu => ?_)
  obtain ⟨c, w, dbl, rfl⟩ := h u hu
  exact ht

/-- One pass of masks is written to a core's mask buffer and read back: the core works on the same. -/
theorem State.maskPass_spec (s : State) (o : Op) (buf : Nat) (ups : List Upset) (recs : List (Nat × Nat)) (c : Nat) :
    s.SameWork c (s.maskPass o buf ups recs).1 ∧ Memory.SameBelow (2 ^ 40) s.mem (s.maskPass o buf ups recs).1.mem := by
  unfold State.maskPass
  extract_lets h off a fit s1 s2 n b
  have hwrite : Memory.SameBelow (2 ^ 40) s.mem s1.mem := State.writeScratch_sameBelow _ _ _ _
  obtain ⟨hcores, hmem⟩ : s2.cores = s1.cores ∧ s2.mem = s1.mem := by
    refine State.upsets_of_scratch (fun u hu => ?_) s1
    have hscratch := (List.mem_filter.mp hu).2
    cases u with
    | scratch c w dbl => exact ⟨c, w, dbl, rfl⟩
    | _ => cases hscratch
  have hnote : OnlyP _ s2 n := State.noteScratch_only (.refl _ s2) (Nat.or_self _)
  refine ⟨?_, (hwrite.trans (.of_eq hmem)).trans (.of_eq (hnote.fst.mem.resolve_left (by decide)))⟩
  have hsame : s2.cores = s.cores := hcores.trans (State.writeScratch_cores ..)
  refine State.SameWork.trans ?_ (hnote.fst.sameWork (by decide) c)
  rw [State.SameWork, State.core_congr hsame]
  exact State.SameWork.refl s c

theorem State.tileMasks_spec (s : State) (t : TileRun) (ups : List Upset) (planes : List (List (List Int))) (c : Nat) :
    s.SameWork c (s.tileMasks t ups planes).1 ∧ Memory.SameBelow (2 ^ 40) s.mem (s.tileMasks t ups planes).1.mem := by
  unfold State.tileMasks
  extract_lets o buf
  split
  · exact ⟨.refl s c, .refl ..⟩
  · constructor
    · refine State.SameWork.foldlFst (fun p x => ?_) _ (s.draw 1, _)
      exact (State.maskPass_spec ..).1
    · refine Memory.SameBelow.foldlFst (fun p x => ?_) _ (s.draw 1, _)
      exact (State.maskPass_spec p.1 o _ ups _ c).2

/-- What the expander counts and reports changes no tile, no bank and no memory. -/
theorem State.expanderDone_spec (s : State) (t : TileRun) (x : ExpCount) (ranges : List (Nat × Nat)) (c : Nat) :
    s.SameWork c (s.expanderDone t x ranges).1 ∧ (s.expanderDone t x ranges).1.mem = s.mem := by
  refine ⟨?_, (State.expanderDone_only (.refl _ s) (Nat.or_self _)).fst.mem.resolve_left (by decide)⟩
  exact ((s.noteWeights_sameWork t.op ranges c).trans
    ((State.countExpander_only (.refl _ _) (Nat.or_self _)).sameWork (by decide) c)).trans
    ((State.blockCheck_only (.refl _ _) (Nat.or_self _)).sameWork (by decide) c)

/-! ### The end of a tile -/

theorem Core.SameWork.bank {k k' : Core} (h : k.SameWork k') (b : Bool) : k'.bank b = k.bank b := by
  cases b
  · exact h.bank0
  · exact h.bank1

theorem Core.withTiles_bank (k : Core) (l : List TileRun) (b : Bool) : ({ k with tiles := l } : Core).bank b = k.bank b := by
  cases b <;> rfl

/-- A core with no tile has none to start. -/
theorem State.startTile_of_nil {s : State} {c : Nat} (h : (s.core c).tiles = []) : s.startTile c = s := by
  rw [State.startTile, h]

theorem State.tileLeave_sameWork (s : State) (t : TileRun) (c : Nat) : s.SameWork c (s.tileLeave t) := by
  unfold State.tileLeave
  extract_lets o s1
  have hhandles : s.SameWork c s1 := .foldl (fun u r => u.useHandle_sameWork ..) _ s
  have hboard : s1.SameWork c (s1.sbLeave o.core o.id) := State.setCore_sameWork (Core.scoreboard_sameWork ..) c
  exact (hhandles.trans hboard).trans (State.setCore_sameWork (Core.codebooks_sameWork ..) c)

theorem Core.credit_sameWork (k : Core) (x : Int) : k.SameWork { k with credit := x } := ⟨rfl, rfl, rfl, rfl, rfl⟩

theorem State.chargeTile_sameWork (s : State) (o : Op) (c : Nat) : s.SameWork c (s.chargeTile o) := by
  unfold State.chargeTile
  split
  · exact .refl s c
  · exact State.setCore_sameWork (s := s.draw 1) (Core.credit_sameWork ..) c

/-- The end of a core's only tile: the tile is gone, its bank holds what the tile leaves, and the other bank is as it was. -/
theorem State.tileEndAt_spec {s : State} {t : TileRun} (h : (s.core t.op.core).tiles = [t]) (ents : Tbl AccEntry)
    (erefs : List Nat) (st : Status) :
    ((s.tileEndAt t ents erefs st).core t.op.core).tiles = [] ∧
      ((s.tileEndAt t ents erefs st).core t.op.core).bank t.bank = ((s.core t.op.core).bank t.bank).after t.op ents st erefs ∧
      ((s.tileEndAt t ents erefs st).core t.op.core).bank (!t.bank) = (s.core t.op.core).bank (!t.bank) := by
  unfold State.tileEndAt
  extract_lets o s1 k b k' s2 s3
  have hwork : s.SameWork o.core s1 := (s.tileLeave_sameWork t _).trans (State.chargeTile_sameWork ..)
  have hend : s3.core o.core = { k' with tiles := k.tiles.drop 1 } := by
    have hcount : s2.core o.core = { k' with tiles := k.tiles.drop 1 } :=
      (State.count_core ..).trans (State.setCore_core _)
    unfold s3
    split
    · exact hcount
    · exact (State.complete_core ..).trans hcount
  have htiles : (s3.core o.core).tiles = [] := by
    rw [hend, show k.tiles = [t] from hwork.tiles.trans h, List.drop_one, List.tail_cons]
  rw [State.startTile_of_nil htiles, ← hwork.bank, ← hwork.bank]
  refine ⟨htiles, ?_, ?_⟩
  · rw [hend, Core.withTiles_bank, Core.setBank_bank]
  · rw [hend, Core.withTiles_bank, Core.setBank_bank_not]

theorem State.tileEndAt_mem (s : State) (t : TileRun) (ents : Tbl AccEntry) (erefs : List Nat) (st : Status) :
    (s.tileEndAt t ents erefs st).mem = s.mem :=
  (State.tileEndAt_only (.refl _ s) (Nat.or_self _)).mem.resolve_left (by decide)

theorem State.drain_of_empty {s : State} {c : Nat} (h : (s.chan c).queue = []) : s.drain c = s := by
  simp [State.drain, h]

/-- The end of the first tile of a core that has loaded its chunks, its weights at hand (R106). -/
theorem exec_tileComplete {c : CoreNo} {ups : List Upset} {s u : State} {x : TileRun} (hu : u = s.upsets ups)
    (hrun : u.running = true) (htiles : (u.core c.val).tiles = [x]) (hready : x.ready = true)
    (hshut : u.weightsShut x.op = false) (hqueue : (u.chan c.val).queue = []) :
    exec (.tileComplete c ups) s = .next (if x.op.bs then (u.waitEnd (srcCore c.val) 8 x.op.identity none).endBs x ups
      else (u.waitEnd (srcCore c.val) 8 x.op.identity none).endDense x ups) := by
  subst hu
  show execTileComplete c ups s = _
  simp [execTileComplete, htiles, hrun, hready, hshut, State.drain_of_empty hqueue]

/-- The masks of a dense or sparse tile, formed once the expander is done with its weights (R127). -/
def State.denseMasks (s : State) (t : TileRun) (ups : List Upset) : State × List (List (List (Nat × Nat))) × Bool :=
  (s.expanderDone t (s.tileTrits t).2.1 (s.tileTrits t).2.2).1.tileMasks t ups (s.tileTrits t).1

theorem State.denseMasks_spec (s : State) (t : TileRun) (ups : List Upset) (c : Nat) :
    s.SameWork c (s.denseMasks t ups).1 ∧ Memory.SameBelow (2 ^ 40) s.mem (s.denseMasks t ups).1.mem := by
  obtain ⟨hdone, hmem⟩ := s.expanderDone_spec t (s.tileTrits t).2.1 (s.tileTrits t).2.2 c
  obtain ⟨hmasks, hbelow⟩ := State.tileMasks_spec (s.expanderDone t (s.tileTrits t).2.1 (s.tileTrits t).2.2).1 t ups
    (s.tileTrits t).1 c
  exact ⟨hdone.trans hmasks, (Memory.SameBelow.of_eq hmem).trans hbelow⟩

/-- A tile none of whose weight blocks is cut off ends with the sums of its masks over what the chain held (R127, R137). -/
theorem State.endDense_eq {s : State} {t : TileRun} {ups : List Upset} (hcut : (s.tileTrits t).2.1.cut = none) :
    ∃ st, s.endDense t ups = (s.denseMasks t ups).1.tileEndAt t
      (tileSums t.op.afmt t.op.rows t.op.k0 t.op.k1 t.op.sparse (s.denseMasks t ups).2.1 t.slotLists t.erefs
        (if t.op.joins then ((s.core t.op.core).bank t.bank).ents else [])) t.erefs st := by
  rw [← (s.denseMasks_spec t ups t.op.core).1.bank]
  unfold State.endDense
  extract_lets o w n
  split
  · next p hp => exact absurd (hcut.symm.trans hp) (by simp)
  · exact ⟨_, rfl⟩

/-- The walk over the hits of an empty list, the slice in order: nothing is counted. -/
theorem State.bsHits_nil {s : State} {t : TileRun} (hlist : t.bsList = [])
    (h : ∀ i ∈ t.slices.head?, i.quar = none ∧ i.bad = false ∧ i.lost = false) : s.bsHits t = {} := by
  have hgood (a n : Nat) : (t.slices.headD {}).instead a n = none := by
    rw [List.headD_eq_head?_getD]
    cases hhead : t.slices.head? with
    | none => rfl
    | some i =>
      obtain ⟨hquar, hbad, hlost⟩ := h i hhead
      simp [SliceInfo.instead, hquar, hbad, hlost]
  rw [State.bsHits, hlist, List.zip_nil_left, List.foldl_nil, hgood]

/-- A block-sparse tile whose lists are out of bounds adds nothing to what the chain held (R140). -/
theorem State.endBs_outOfBounds {s : State} {t : TileRun} {ups : List Upset} (hbound : t.bsBound = true) (hst : t.status = .ok)
    (hslice : ∀ i ∈ t.slices.head?, i.quar = none ∧ i.bad = false ∧ i.lost = false) :
    ∃ ranges erefs, s.endBs t ups = (s.expanderDone t {} ranges).1.tileEndAt t
      (if t.op.joins then ((s.core t.op.core).bank t.bank).ents else []) erefs .operandBound := by
  have hhits : s.bsHits { t with bsList := [] } = {} := State.bsHits_nil rfl hslice
  refine ⟨[], ((s.core t.op.core).bank t.bank).erefs, ?_⟩
  unfold State.endBs
  rw [if_pos hbound, hhits, hst]
  exact if_pos hbound

/-! ### The residue faults of a drain -/

/-- A bank of the core is in use. -/
def Core.BankInUse (k : Core) : Prop := ∃ b, (k.bank b).st ≠ .free

theorem Core.SameWork.bankInUse {k k' : Core} (h : k.SameWork k') (hk : k.BankInUse) : k'.BankInUse :=
  hk.imp fun b hb => by rwa [h.bank]

theorem Core.faults_sameWork (k : Core) (x : Tbl Nat) : k.SameWork { k with faults := x } := ⟨rfl, rfl, rfl, rfl, rfl⟩

/-- A core with a bank in use is listed. -/
theorem Core.BankInUse.ne_resetCore {k : Core} (h : k.BankInUse) (c : Nat) : k ≠ resetCore c := by
  rintro rfl
  obtain ⟨b, hb⟩ := h
  exact hb (by cases b <;> rfl)

/-- Clearing the fault counts of the cores listed, and listing no core that is then at reset, keeps a core with a bank in use. -/
theorem Tbl.find_clearFaults {l : Tbl Core} {c : Nat} {k : Core} (h : Tbl.find l c = some k) (hk : k.BankInUse) :
    Tbl.find ((l.map (fun e => (e.1, { e.2 with faults := [] }))).filter (fun e => e.2 != resetCore e.1)) c =
      some { k with faults := [] } := by
  induction l with
  | nil => cases h
  | cons e l ih =>
    by_cases he : e.1 = c
    · obtain rfl : e.2 = k := by simpa [Tbl.find, he] using h
      have hlisted : ({ e.2 with faults := [] } : Core) ≠ resetCore e.1 :=
        ((Core.faults_sameWork ..).bankInUse hk).ne_resetCore _
      rw [List.map_cons, List.filter_cons_of_pos (by simpa using hlisted), Tbl.find, if_pos he]
    · have hrest := ih (by simpa [Tbl.find, he] using h)
      rw [List.map_cons, List.filter_cons]
      split
      · simpa [Tbl.find, he] using hrest
      · exact hrest

/-- A new window for the fence counts leaves what a core with a bank in use works on (R412). -/
theorem State.rollFences_sameWork {s : State} {c : Nat} (h : (s.core c).BankInUse) : s.SameWork c s.rollFences := by
  have hfind : Tbl.find s.cores c = some (s.core c) := by
    cases hlook : Tbl.find s.cores c with
    | none => exact absurd (by simp [State.core, Tbl.look, hlook]) (h.ne_resetCore c)
    | some k => simp [State.core, Tbl.look, hlook]
  unfold State.rollFences
  extract_lets w
  split
  · exact .refl s c
  · have hcleared := Tbl.find_clearFaults hfind h
    rw [State.SameWork, State.core, State.core, Tbl.look, Tbl.look, hcleared, hfind]
    exact Core.faults_sameWork ..

theorem Core.fence_sameWork (k : Core) (u : Nat) : k.SameWork (k.fence u) := by
  unfold Core.fence
  split
  · exact ⟨rfl, rfl, rfl, rfl, rfl⟩
  · split <;> exact ⟨rfl, rfl, rfl, rfl, rfl⟩

theorem State.incident_sameWork (s : State) (cls event : Nat) (st : Status) (src detail detail2 c : Nat) :
    s.SameWork c (s.incident cls event st src detail detail2) :=
  (State.incident_only (.refl _ s) (Nat.or_self _)).sameWork (by decide) c

/-- A claim of a spare core, or the note that none is left, leaves what every core works on (R415). -/
theorem State.claimSpare_sameWork (s : State) (j c : Nat) : s.SameWork c (s.claimSpare j) := by
  unfold State.claimSpare
  extract_lets k
  split
  · exact .refl s c
  · generalize hp : s.pick (s.spareCores (j / 256)) = p
    have hpick : p.1.cores = s.cores := hp ▸ (State.pick_only (.refl _ s) (Nat.or_self _)).fst.cores.resolve_left (by decide)
    have hsame {k' : Core} (hk : k.SameWork k') : s.SameWork c (p.1.setCore j k') := by
      have hset : p.1.SameWork c (p.1.setCore j k') := State.setCore_sameWork (by rwa [State.core_congr hpick]) c
      rwa [State.SameWork, State.core_congr hpick] at hset
    split
    · exact hsame ⟨rfl, rfl, rfl, rfl, rfl⟩
    · refine State.SameWork.trans ?_ (State.incident_sameWork ..)
      exact hsame ⟨rfl, rfl, rfl, rfl, rfl⟩

theorem State.fenceUnit_sameWork {s : State} {c : Nat} (h : (s.core c).BankInUse) (u : Nat) : s.SameWork c (s.fenceUnit c u) := by
  unfold State.fenceUnit
  extract_lets s1 k
  have hroll : s.SameWork c s1 := State.rollFences_sameWork h
  split
  · exact hroll
  · have hfence : s1.SameWork c (s1.setCore c (k.fence u)) := State.setCore_sameWork (Core.fence_sameWork ..) c
    exact ((hroll.trans hfence).trans (State.incident_sameWork ..)).trans (State.claimSpare_sameWork ..)

/-- A residue fault leaves what a core with a bank in use works on (R412). -/
theorem State.residueFault_sameWork {s : State} {c : Nat} (h : (s.core c).BankInUse) (u : Nat) (bank : Bool)
    (row lane opcode : Nat) : s.SameWork c (s.residueFault c u bank row lane opcode) := by
  unfold State.residueFault
  extract_lets s1 k n s2
  have hroll : s.SameWork c s1 := State.rollFences_sameWork h
  have hcount : s1.SameWork c (s1.setCore c { k with faults := Tbl.put k.faults u n 0 }) :=
    State.setCore_sameWork (Core.faults_sameWork ..) c
  have hfault : s.SameWork c s2 := (hroll.trans hcount).trans (State.incident_sameWork ..)
  split
  · exact hfault.trans (State.fenceUnit_sameWork (hfault.bankInUse h) u)
  · exact hfault

/-- The residue faults of a bank's entries change no tile and no bank of its core, and no memory. -/
theorem State.residueFaults_spec {s : State} {c : Nat} (h : (s.core c).BankInUse) (u : Nat) (bank : Bool) (lanes opcode : Nat)
    (l : Tbl AccEntry) :
    s.SameWork c (l.foldl (fun s e => s.residueFault c u bank (e.1 / lanes) (e.1 % lanes) opcode) s) ∧
      (l.foldl (fun s e => s.residueFault c u bank (e.1 / lanes) (e.1 % lanes) opcode) s).mem = s.mem := by
  refine List.foldlRecOn (motive := fun t => s.SameWork c t ∧ t.mem = s.mem) l _ ⟨.refl s c, rfl⟩ (fun t ht e _ => ?_)
  obtain ⟨hwork, hmem⟩ := ht
  have hfault := State.residueFault_sameWork (hwork.bankInUse h) u bank (e.1 / lanes) (e.1 % lanes) opcode
  exact ⟨hwork.trans hfault,
    ((State.residueFault_only (.refl _ t) (Nat.or_self _)).mem.resolve_left (by decide)).trans hmem⟩

/-! ### What a drain writes -/

theorem State.putRuns_sameBelow (s : State) (l : List (Nat × Bytes)) : Memory.SameBelow (2 ^ 41) s.mem (s.putRuns l).1.mem := by
  unfold State.putRuns
  refine Memory.SameBelow.foldlFst (fun p x => ?_) l (s, false)
  exact State.putHall_sameBelow ..

theorem State.writeBlock_sameBelow (s : State) (o : Op) (lanes : Nat) (b : FinBlock) :
    Memory.SameBelow (2 ^ 41) s.mem (s.writeBlock o lanes b).1.mem := by
  unfold State.writeBlock
  extract_lets xs nb w r
  have hruns : Memory.SameBelow (2 ^ 41) s.mem r.1.mem := State.putRuns_sameBelow (s.draw 32) _
  exact hruns.trans (.of_eq ((State.count_mem ..).trans (State.count_mem ..)))

/-- What a lane of a drained bank becomes goes to the hall buffer (R142). -/
theorem State.finishLane_sameBelow (s : State) (f : Nat) (o : Op) (lanes : Nat) (rel : Int) (lane : Nat) (eref : Option Int)
    (rows : List Drained) : Memory.SameBelow (2 ^ 41) s.mem (s.finishLane f o lanes rel lane eref rows).1.mem := by
  unfold State.finishLane
  extract_lets first vals at_ x halves k cs list r sq r' bs full s1
  have hcands : Memory.SameBelow (2 ^ 41) s.mem r.1.mem := State.putHall_sameBelow (s.draw _) ..
  have hsquares : Memory.SameBelow (2 ^ 41) s.mem r'.1.mem := State.putHall_sameBelow ..
  have hblocks : Memory.SameBelow (2 ^ 41) s.mem s1.mem := .refl ..
  clear_value r r' s1
  split
  · split
    · exact hcands
    · exact .refl ..
  split
  · exact State.putHall_sameBelow ..
  split
  · exact State.putHall_sameBelow ..
  split
  · exact hsquares
  split
  · exact State.putHall_sameBelow ..
  · refine hblocks.trans (.foldlFst (fun p b => ?_) full (s1, false))
    exact p.1.writeBlock_sameBelow o lanes b

theorem State.finish_sameBelow (s : State) (o : Op) (lanes : Nat) (eref : Nat → Option Int) (entry : Nat → Nat → Drained) :
    Memory.SameBelow (2 ^ 41) s.mem (s.finish o lanes eref entry).1.mem := by
  unfold State.finish
  refine Memory.SameBelow.foldlFst (fun p x => ?_) _ (s, false)
  exact State.finishLane_sameBelow ..

theorem State.waitFree_sameStore (s : State) (unit cause ident : Nat) (x : Option (Ctr × Nat)) :
    s.SameStore (s.waitFree unit cause ident x) :=
  (State.waitFree_only (.refl _ s) (by decide)).sameStore

/-- The end of a drain (R110): the bank is FREE, the wait for the plinth's finisher is counted (R460), and the operation
completes. -/
def State.drainEnd (s : State) (c : Nat) (b : Bool) (o : Op) (x : Done) : State :=
  ((s.setCore c ((s.core c).setBank b {})).waitFree (srcPlinth (c / 256)) 14 o.identity
    (some (.finWait, c / 256))).complete (srcCore c) o x

theorem State.drainEnd_core (s : State) (c : Nat) (b : Bool) (o : Op) (x : Done) :
    (s.drainEnd c b o x).core c = (s.core c).setBank b {} := by
  rw [State.drainEnd, State.complete_core, (State.waitFree_sameStore ..).core, State.setCore_core]

theorem State.drainEnd_mem (s : State) (c : Nat) (b : Bool) (o : Op) (x : Done) : (s.drainEnd c b o x).mem = s.mem := by
  rw [State.drainEnd, State.complete_mem, (State.waitFree_sameStore ..).mem]
  rfl

/-- The last entry of a draining bank has left: after the residue faults and the writes of the hall buffer the drain ends, and
the core's next tile may start (R107, R110). -/
theorem exec_accumulatorDrainDone {c : CoreNo} {b : Bool} {ups : List Upset} {s u : State} {o : Op} (hu : u = s.upsets ups)
    (hrun : u.running = true) (hop : ((u.core c.val).bank b).op = some o) (hst : ((u.core c.val).bank b).st = .draining) :
    ∃ w x, u.SameWork c.val w ∧ Memory.SameBelow (2 ^ 41) u.mem w.mem ∧
      exec (.accumulatorDrainDone c b ups) s = .next ((w.drainEnd c.val b o x).startTile c.val) := by
  subst hu
  have hexec : exec (.accumulatorDrainDone c b ups) s = execAccumulatorDrainDone c b ups s := rfl
  rw [hexec, execAccumulatorDrainDone]
  extract_lets lanes bad
  split
  · next hnone => exact absurd (hop.symm.trans hnone) (by simp)
  · next p hp =>
    obtain rfl : p = o := Option.some.inj (hp.symm.trans hop)
    rw [if_neg (by simp [hrun, hst])]
    extract_lets s1 eref s2 k2 st
    obtain ⟨hfaults, hmem⟩ := State.residueFaults_spec (s := s.upsets ups) (c := c.val) ⟨b, by simp [hst]⟩ unitPop b lanes
      p.opcode bad
    have hfinish : s1.SameWork c.val s2.1 := (State.finish_only (.refl _ s1) (Nat.or_self _)).fst.sameWork (by decide) _
    exact ⟨s2.1, _, hfaults.trans hfinish, (Memory.SameBelow.of_eq hmem).trans (State.finish_sameBelow ..), rfl⟩

end Sys2Proof.Machine

open Sys2Proof Sys2Proof.Machine

/-- Settles O30: the end of a dense or sparse tile, of a block-sparse tile out of bounds, and of a bank's drain. -/
theorem tilesComplete : Obligations.TilesComplete := by
  unfold Obligations.TilesComplete
  refine ⟨?_, ?_, ?_⟩
  · rintro ⟨c, hc⟩ ups s u v x hu hrun htiles hready rfl hbs hshut hqueue hv hcut
    have hexec := exec_tileComplete hu hrun htiles hready hshut hqueue
    rw [if_neg (by simp [hbs]), ← hv] at hexec
    have hstore : u.SameStore v := hv ▸ State.waitEnd_sameStore ..
    obtain ⟨st, hend⟩ := State.endDense_eq (ups := ups) hcut
    obtain ⟨hmasks, hbelow⟩ := v.denseMasks_spec x ups x.op.core
    rw [State.SameWork, hstore.core] at hmasks
    obtain ⟨hgone, hbank, hother⟩ := State.tileEndAt_spec (hmasks.tiles.trans htiles) _ x.erefs st
    rw [← hend] at hgone hbank hother
    refine ⟨_, hexec, hgone, congrArg Bank.st hbank, ?_, hother.trans (hmasks.bank _), fun a ha => ?_⟩
    · rw [hbank, hstore.core]
      rfl
    · rw [hend, State.tileEndAt_mem, hbelow.get a ha, hstore.mem]
  · rintro ⟨c, hc⟩ ups s u x hu hrun htiles hready rfl hbs hshut hqueue hbound hst hslice
    have hexec := exec_tileComplete hu hrun htiles hready hshut hqueue
    rw [if_pos hbs] at hexec
    have hstore := u.waitEnd_sameStore (srcCore x.op.core) 8 x.op.identity none
    obtain ⟨ranges, erefs, hend⟩ := State.endBs_outOfBounds (ups := ups) hbound hst hslice
    obtain ⟨hdone, -⟩ := State.expanderDone_spec _ x {} ranges x.op.core
    rw [State.SameWork, hstore.core] at hdone
    obtain ⟨hgone, hbank, -⟩ := State.tileEndAt_spec (hdone.tiles.trans htiles) _ erefs .operandBound
    rw [← hend] at hgone hbank
    refine ⟨_, hexec, hgone, congrArg Bank.st hbank, congrArg Bank.status hbank, ?_⟩
    rw [hbank, hstore.core]
    rfl
  · intro c b ups s o hrun hop hst htiles _
    obtain ⟨w, x, hwork, hbelow, hexec⟩ := exec_accumulatorDrainDone rfl hrun hop hst
    have hfree := w.drainEnd_core c.val b o x
    rw [State.startTile_of_nil (by rw [hfree, Core.setBank_tiles, hwork.tiles, htiles])] at hexec
    refine ⟨_, hexec, ?_, ?_, fun a ha => ?_⟩
    · rw [hfree, Core.setBank_bank]
    · rw [hfree, Core.setBank_bank_not, hwork.bank]
    · rw [State.drainEnd_mem, hbelow.get a ha]
end

section
/-! The statements on the matrix tiles: the annex's tiles, and the end of an ATTN (R122, R125, R157, R164, R413). -/

namespace Sys2Proof.Machine

/-! ### The banks of the annex -/

@[simp] theorem Annex.setBank_bank (x : Annex) (b : Bool) (v : AnnexBank) : (x.setBank b v).bank b = v := by cases b <;> rfl
@[simp] theorem Annex.setBank_bank_not (x : Annex) (b : Bool) (v : AnnexBank) : (x.setBank b v).bank (!b) = x.bank (!b) := by
  cases b <;> rfl
@[simp] theorem Annex.setBank_running (x : Annex) (b : Bool) (v : AnnexBank) : (x.setBank b v).running = x.running := by
  cases b <;> rfl
@[simp] theorem Annex.setBank_queue (x : Annex) (b : Bool) (v : AnnexBank) : (x.setBank b v).queue = x.queue := by
  cases b <;> rfl

/-- The banks do not depend on what waits and what runs. -/
theorem Annex.bank_congr {x y : Annex} (h0 : y.bank0 = x.bank0) (h1 : y.bank1 = x.bank1) (b : Bool) : y.bank b = x.bank b := by
  cases b
  · exact h0
  · exact h1

/-! ### The start of a tile in the annex -/

/-- The bank of a tile that starts in the annex: its chain's own, filled further, or a free one under the tile's tag (R108,
R122). -/
def AnnexBank.fill (v : AnnexBank) (t : TileRun) : AnnexBank :=
  if t.op.joins then { v with st := .filling, chain := v.chain ++ [t.op] }
  else { st := .filling, core := t.op.core, tag := t.tag, chain := [t.op] }

theorem AnnexBank.fill_st (v : AnnexBank) (t : TileRun) : (v.fill t).st = .filling := by
  unfold AnnexBank.fill
  split <;> rfl

/-- The idle annex starts its oldest waiting tile in the bank it may use (R122). -/
theorem exec_annexTileStart {s : State} {x : TileRun} {l : List TileRun} {b : Bool} (hrun : s.running = true)
    (hidle : s.annex.running = none) (hqueue : s.annex.queue = x :: l) (hbank : s.annex.bankFor x.op = some b) :
    ∃ t, exec .annexTileStart s = .next t ∧
      t.annex = { s.annex.setBank b ((s.annex.bank b).fill x) with
        queue := l, running := some { x with started := true, bank := b } } := by
  have hexec : exec .annexTileStart s = execAnnexTileStart s := rfl
  rw [hexec, execAnnexTileStart, hidle, hqueue]
  dsimp only
  rw [if_neg (by simp [hrun]), hbank]
  refine ⟨_, rfl, (State.opEvent_annex _).trans ?_⟩
  cases b <;> rfl

/-! ### The end of a tile in the annex -/

/-- The annex idle again once its tile has left, the tile charged and counted. -/
def State.annexFreed (s : State) (t : TileRun) : State :=
  ((((s.expanderDone t (s.tileTrits t).2.1 (s.tileTrits t).2.2).1.tileLeave t).annexIdle).chargeTile t.op).count .anxTile 0 1

theorem State.annexFreed_annex (s : State) (t : TileRun) : (s.annexFreed t).annex = { s.annex with running := none } := by
  have hdone : ∀ x ranges, (s.expanderDone t x ranges).1.annex = s.annex :=
    fun x ranges => (State.expanderDone_only (.refl _ s) (Nat.or_self _)).fst.annex.eq (by decide)
  have hleave : ∀ u : State, (u.tileLeave t).annex = u.annex :=
    fun u => (State.tileLeave_only (.refl _ u) (Nat.or_self _)).annex.eq (by decide)
  have hcharge : ∀ u : State, (u.chargeTile t.op).annex = u.annex :=
    fun u => (State.chargeTile_only (.refl _ u) (Nat.or_self _)).annex.eq (by decide)
  rw [State.annexFreed, State.count_annex, hcharge, State.annexIdle, hleave, hdone]

theorem State.annexPlanes_annex (s : State) (t : TileRun) (ups : List Upset) (planes : List (List (List Int))) :
    (s.annexPlanes t ups planes).1.annex = s.annex :=
  (State.annexPlanes_only (.refl _ s) (Nat.or_self _)).fst.annex.eq (by decide)

/-- The annex's running tile ends, its chunks loaded and its weights at hand (R122). -/
theorem exec_annexTileComplete {ups : List Upset} {s u : State} {x : TileRun} (hu : u = s.upsets ups)
    (hrun : u.running = true) (hannex : u.annex.running = some x) (hready : x.ready = true)
    (hshut : u.weightsShut x.op = false) (hqueue : (u.chan x.op.core).queue = []) :
    exec (.annexTileComplete ups) s = .next ((u.waitEnd (srcHub hubAnnex) 8 x.op.identity none).endAnnex x ups) := by
  subst hu
  show execAnnexTileComplete ups s = _
  simp [execAnnexTileComplete, hannex, hrun, hready, hshut, State.drain_of_empty hqueue]

/-- A tile that leaves its chain open, none of its weight blocks cut off, leaves its bank HELD with the FP32 sums over what the
chain held, and the annex idle (R125). -/
theorem State.endAnnex_held {s : State} {t : TileRun} (ups : List Upset) (hopen : t.op.closes = false)
    (hcut : (s.tileTrits t).2.1.cut = none) :
    (s.endAnnex t ups).annex = { s.annex with running := none }.setBank t.bank { s.annex.bank t.bank with
      st := .held
      ents := annexSums t.op.rows t.lanes
        (rowWeights t.op.rows (t.op.k1 - t.op.k0) ((s.annexFreed t).annexPlanes t ups (s.tileTrits t).1).2.1)
        ((List.range t.lanes).map t.laneF32) (if t.op.joins then (s.annex.bank t.bank).ents else []) } := by
  have hfreed := s.annexFreed_annex t
  have hbank : (s.annexFreed t).annex.bank t.bank = s.annex.bank t.bank :=
    Annex.bank_congr (congrArg _ hfreed) (congrArg _ hfreed) _
  rw [← hbank, ← hfreed]
  unfold State.endAnnex
  extract_lets o w n s1 b
  split
  · next p hp => exact absurd (hcut.symm.trans hp) (by simp)
  · rw [if_pos (by simp [o, hopen]), State.complete_annex, State.setAnnexBank, State.annexPlanes_annex]
    rfl

/-! ### A core at work, and its fences -/

/-- The core works on something that a core at reset does not. -/
def Core.AtWork (k : Core) : Prop := ¬ (resetCore 0).SameWork k

theorem Core.atWork_of_attns {k : Core} {x : AttnRun} {l : List AttnRun} (h : k.attns = x :: l) : k.AtWork :=
  fun hreset => List.cons_ne_nil x l (h.symm.trans hreset.attns)

theorem State.SameWork.atWork {s t : State} {c : Nat} (h : s.SameWork c t) (hs : (s.core c).AtWork) : (t.core c).AtWork :=
  fun hreset => hs ⟨h.waiting.symm.trans hreset.waiting, h.tiles.symm.trans hreset.tiles, h.attns.symm.trans hreset.attns,
    h.bank0.symm.trans hreset.bank0, h.bank1.symm.trans hreset.bank1⟩

/-- A core at work is listed, whatever faults are counted against it. -/
theorem Core.AtWork.faults_ne_resetCore {k : Core} (h : k.AtWork) (x : Tbl Nat) (c : Nat) :
    ({ k with faults := x } : Core) ≠ resetCore c := by
  intro heq
  obtain ⟨hwaiting, htiles, hattns, hbank0, hbank1⟩ := heq ▸ Core.faults_sameWork k x
  exact h ⟨hwaiting.symm, htiles.symm, hattns.symm, hbank0.symm, hbank1.symm⟩

/-- A new value under every key, those that fail a test dropped: an entry whose new value passes is found under its key. -/
theorem Tbl.find_map_filter {α : Type} {f : α → α} {p : Nat × α → Bool} {l : Tbl α} {c : Nat} {k : α}
    (h : Tbl.find l c = some k) (hp : p (c, f k) = true) :
    Tbl.find ((l.map (fun e => (e.1, f e.2))).filter p) c = some (f k) := by
  induction l with
  | nil => cases h
  | cons e l ih =>
    by_cases he : e.1 = c
    · obtain rfl : e.2 = k := by simpa [Tbl.find, he] using h
      rw [List.map_cons, List.filter_cons_of_pos (by rwa [he]), Tbl.find, if_pos he]
    · have hrest := ih (by simpa [Tbl.find, he] using h)
      rw [List.map_cons, List.filter_cons]
      split
      · simpa [Tbl.find, he] using hrest
      · exact hrest

/-- A core at work is listed under its number. -/
theorem State.find_core_of_atWork {s : State} {c : Nat} (h : (s.core c).AtWork) : Tbl.find s.cores c = some (s.core c) := by
  cases hlook : Tbl.find s.cores c with
  | none => exact absurd (by simp [State.core, Tbl.look, hlook]) (h.faults_ne_resetCore (s.core c).faults c)
  | some k => simp [State.core, Tbl.look, hlook]

/-- A new window for the fence counts leaves what a core at work works on (R412). -/
theorem State.rollFences_sameWork_of_atWork {s : State} {c : Nat} (h : (s.core c).AtWork) : s.SameWork c s.rollFences := by
  unfold State.rollFences
  extract_lets w
  split
  · exact .refl s c
  · have hcleared := Tbl.find_map_filter (f := fun k : Core => { k with faults := [] }) (p := fun e => e.2 != resetCore e.1)
      (State.find_core_of_atWork h) (by simpa using h.faults_ne_resetCore [] c)
    have hcore := congrArg (Option.getD · (resetCore c)) hcleared
    exact (congrArg (s.core c).SameWork hcore).mpr (Core.faults_sameWork ..)

/-- A fence leaves what a core at work works on (R412, R415). -/
theorem State.fenceUnit_sameWork_of_atWork {s : State} {c : Nat} (h : (s.core c).AtWork) (u : Nat) :
    s.SameWork c (s.fenceUnit c u) := by
  unfold State.fenceUnit
  extract_lets s1 k
  have hroll : s.SameWork c s1 := State.rollFences_sameWork_of_atWork h
  split
  · exact hroll
  · have hfence : s1.SameWork c (s1.setCore c (k.fence u)) := State.setCore_sameWork (Core.fence_sameWork ..) c
    exact ((hroll.trans hfence).trans (State.incident_sameWork ..)).trans (State.claimSpare_sameWork ..)

/-- A residue fault leaves what a core at work works on, whatever unit it is charged to (R412). -/
theorem State.residueFault_sameWork_of_atWork {s : State} {c : Nat} (h : (s.core c).AtWork) (u : Nat) (bank : Bool)
    (row lane opcode : Nat) : s.SameWork c (s.residueFault c u bank row lane opcode) := by
  unfold State.residueFault
  extract_lets s1 k n s2
  have hcount : s1.SameWork c (s1.setCore c { k with faults := Tbl.put k.faults u n 0 }) :=
    State.setCore_sameWork (Core.faults_sameWork ..) c
  have hfault : s.SameWork c s2 := ((State.rollFences_sameWork_of_atWork h).trans hcount).trans (State.incident_sameWork ..)
  split
  · exact hfault.trans (State.fenceUnit_sameWork_of_atWork (hfault.atWork h) u)
  · exact hfault

/-! ### What the end of an ATTN reads and writes -/

/-- A core works on the same, and no byte of a channel has changed (R3). -/
structure State.KeepsWork (s : State) (c : Nat) (t : State) : Prop where
  work : s.SameWork c t
  below : Memory.SameBelow (2 ^ 40) s.mem t.mem

theorem State.KeepsWork.refl (s : State) (c : Nat) : s.KeepsWork c s := ⟨.refl s c, .refl ..⟩

theorem State.KeepsWork.trans {s t u : State} {c : Nat} (h : s.KeepsWork c t) (k : t.KeepsWork c u) : s.KeepsWork c u :=
  ⟨h.work.trans k.work, h.below.trans k.below⟩

/-- What writes no core and no memory keeps both. -/
theorem OnlyM.keepsWork {m : Nat} {s t : State} (h : OnlyM m s t) (hcores : m.testBit Leaf.cores.ctorIdx = false)
    (hmem : m.testBit Leaf.mem.ctorIdx = false) (c : Nat) : s.KeepsWork c t :=
  ⟨h.sameWork hcores c, .of_eq (h.mem.resolve_left (fun k => Bool.false_ne_true (hmem.symm.trans k)))⟩

/-- A write of the hall buffer writes no channel and reaches no core. -/
theorem Memory.SameBelow.keepsWork {s t : State} (h : Memory.SameBelow (2 ^ 41) s.mem t.mem) (hcores : t.cores = s.cores)
    (c : Nat) : s.KeepsWork c t := by
  refine ⟨?_, ⟨fun a ha => h.get a (ha.trans_le (by decide))⟩⟩
  rw [State.SameWork, State.core_congr hcores]
  exact State.SameWork.refl s c

theorem State.draw_keepsWork (s : State) (n c : Nat) : s.KeepsWork c (s.draw n) := ⟨.refl s c, .refl ..⟩

theorem State.noteScratch_keepsWork (s : State) (j a n c : Nat) : s.KeepsWork c (s.noteScratch j a n).1 :=
  (State.noteScratch_only (.refl _ s) (Nat.or_self _)).fst.keepsWork (by decide) (by decide) c

theorem State.count_keepsWork (s : State) (k : Ctr) (i n c : Nat) : s.KeepsWork c (s.count k i n) :=
  (State.count_only (.refl _ s) (Nat.or_self _)).keepsWork (by decide) (by decide) c

theorem State.putHall_keepsWork (s : State) (a : Nat) (b : Bytes) (c : Nat) : s.KeepsWork c (s.putHall a b).1 :=
  (s.putHall_sameBelow a b).keepsWork ((State.putHall_only (.refl _ s) (Nat.or_self _)).fst.cores.resolve_left (by decide)) c

theorem State.writeRows_keepsWork (s : State) (dest pitch : Nat) (rows : List Bytes) (c : Nat) :
    s.KeepsWork c (s.writeRows dest pitch rows).1 :=
  (s.putRuns_sameBelow _).keepsWork ((State.writeRows_only (.refl _ s) (Nat.or_self _)).fst.cores.resolve_left (by decide)) c

theorem State.writeScratch_keepsWork (s : State) (j a : Nat) (b : Bytes) (c : Nat) :
    s.KeepsWork c (s.writeScratch j a b).1 := by
  refine ⟨?_, s.writeScratch_sameBelow j a b⟩
  rw [State.SameWork, State.core_congr (s.writeScratch_cores j a b)]
  exact State.SameWork.refl s c

/-- The pages of an ATTN are read through the slice: nothing is written but what the slice holds (R171). -/
theorem State.readPages_keepsWork (s : State) (j : Nat) (gal : Option Nat) (ranges : List (Nat × Nat)) (c : Nat) :
    s.KeepsWork c (s.readPages j gal ranges).1 := by
  refine ⟨?_, .of_eq ((State.readPages_only (.refl _ s) (Nat.or_self _)).fst.mem.resolve_left (by decide))⟩
  refine State.SameWork.foldlFst (fun p x => ?_) ranges (s, false)
  exact ((State.missTraffic_only (.refl _ p.1) (Nat.or_self _)).sameWork (by decide) c).trans (State.readLines_sameWork ..)

theorem Core.generators_sameWork (k : Core) (b : Nat) (x : List Nat) : k.SameWork { k with genBeat := b, genSeq := x } :=
  ⟨rfl, rfl, rfl, rfl, rfl⟩

theorem State.genTaken_keepsWork (s : State) (j n c : Nat) : s.KeepsWork c (s.genTaken j n) := by
  unfold State.genTaken
  extract_lets w
  exact ⟨State.setCore_sameWork (Core.generators_sameWork ..) c, .refl ..⟩

/-- The rows and statistics of a forward ATTN go to the hall buffer (R159). -/
theorem State.attnForward_keepsWork (s : State) (o : Op) (p : AParams) (qs : List AQuery) (units : List (List AToken))
    (c : Nat) : s.KeepsWork c (s.attnForward o p qs units).1 := by
  unfold State.attnForward
  extract_lets r s1 s2 groups s3 s4
  have hgen : s.KeepsWork c ((s.draw r.drawn).genTaken o.core r.probs) :=
    (s.draw_keepsWork ..).trans (State.genTaken_keepsWork ..)
  have hcounts : s.KeepsWork c s2 :=
    (((hgen.trans (State.count_keepsWork ..)).trans (State.count_keepsWork ..)).trans (State.count_keepsWork ..)).trans
      (State.count_keepsWork ..)
  have hsepia : s.KeepsWork c s3 := by
    unfold s3
    split
    · exact hcounts.trans (State.count_keepsWork ..)
    · exact hcounts
  have hrows : s.KeepsWork c s4.1 := hsepia.trans (State.writeRows_keepsWork ..)
  split
  · exact hrows.trans (State.putHall_keepsWork ..)
  · exact hrows

/-- The rows of a RECOMPUTE go to the hall buffer (R162). -/
theorem State.attnRecompute_keepsWork (s : State) (o : Op) (p : AParams) (qs : List AQuery) (units : List (List AToken))
    (c : Nat) : s.KeepsWork c (s.attnRecompute o p qs units).1 := by
  unfold State.attnRecompute
  extract_lets toks n b rows sat w
  have hstats : s.KeepsWork c n.1 :=
    (State.noteHall_only (.refl _ s) (Nat.or_self _)).fst.keepsWork (by decide) (by decide) c
  have hcount : n.1.KeepsWork c ((n.1.draw (8 * p.rows)).count .attSat o.core sat) :=
    (n.1.draw_keepsWork ..).trans (State.count_keepsWork ..)
  exact (hstats.trans hcount).trans (State.writeRows_keepsWork ..)

/-- The residue mismatches of an ATTN are charged to its core's units (R164, R411). -/
theorem State.attnFault_keepsWork {s : State} {o : Op} (h : (s.core o.core).AtWork) (f : AttnFault) :
    s.KeepsWork o.core (s.attnFault o f) := by
  refine ⟨?_, .of_eq ((State.attnFault_only (.refl _ s) (Nat.or_self _)).mem.resolve_left (by decide))⟩
  cases f with
  | score g row col => exact State.residueFault_sameWork_of_atWork h ..
  | value col row => exact State.residueFault_sameWork_of_atWork h ..

theorem State.attnFaults_keepsWork {s : State} {o : Op} (h : (s.core o.core).AtWork) (l : List AttnFault) :
    s.KeepsWork o.core (l.foldl (fun s f => s.attnFault o f) s) :=
  List.foldlRecOn (motive := fun t => s.KeepsWork o.core t) l _ (.refl s _)
    (fun _ ht f _ => ht.trans (State.attnFault_keepsWork (ht.work.atWork h) f))

/-! ### An ATTN leaves its core -/

/-- The core's first ATTN leaves it; the next one starts (R115). -/
theorem State.attnLeave_attns (s : State) (o : Op) : ((s.attnLeave o).core o.core).attns = (s.core o.core).attns.drop 1 := by
  unfold State.attnLeave
  extract_lets s1 s2 s2' k s3
  have hhandles : s.SameWork o.core s1 := .foldl (fun u r => u.useHandle_sameWork ..) _ s
  have hboard : s.SameWork o.core s2 := hhandles.trans (State.setCore_sameWork (Core.scoreboard_sameWork ..) _)
  have hcharge : s.SameWork o.core s2' := by
    unfold s2'
    split
    · exact hboard
    · exact hboard.trans (State.chargeTile_sameWork ..)
  have hgone : (s3.core o.core).attns = (s.core o.core).attns.drop 1 := by
    rw [State.setCore_core, ← hcharge.attns]
  split
  · exact hgone
  · rw [State.opEvent_core, hgone]

theorem State.attnLeave_mem (s : State) (o : Op) : (s.attnLeave o).mem = s.mem :=
  (State.attnLeave_only (.refl _ s) (Nat.or_self _)).mem.resolve_left (by decide)

/-- An ATTN ends by leaving its core, after what it reads and writes: nothing at all where every score group was fenced as it
issued (R157, R164, R413). -/
theorem State.endAttn_eq {s : State} {a : AttnRun} (h : (s.core a.op.core).AtWork) (fs : List AttnFault) :
    ∃ w x, s.KeepsWork a.op.core w ∧ (a.noScore = true → w = s) ∧
      s.endAttn a fs = (w.attnLeave a.op).complete (srcCore a.op.core) a.op x := by
  unfold State.endAttn
  extract_lets o p note nq r1 r2 qs cur es pages units lost r3 s4 r5 w s6 mism s7 st
  by_cases hscore : a.noScore = true
  · exact ⟨s, _, .refl .., fun _ => rfl, if_pos hscore⟩
  · rw [if_neg hscore]
    have hqueries : s.KeepsWork o.core r1.1 := State.noteScratch_keepsWork ..
    have htoken : r1.1.KeepsWork o.core r2.1 := by
      unfold r2
      split
      · exact State.noteScratch_keepsWork ..
      · exact .refl ..
    have hpages : r2.1.KeepsWork o.core s4 := (State.readPages_keepsWork ..).trans (State.count_keepsWork ..)
    have hout : s4.KeepsWork o.core r5.1 := by
      unfold r5
      split
      · exact State.attnRecompute_keepsWork ..
      · exact State.attnForward_keepsWork ..
    have harea : r5.1.KeepsWork o.core s6 := (r5.1.draw_keepsWork ..).trans (State.writeScratch_keepsWork ..)
    have hwritten : s.KeepsWork o.core s6 := (((hqueries.trans htoken).trans hpages).trans hout).trans harea
    have hfaults : s6.KeepsWork o.core s7 := State.attnFaults_keepsWork (hwritten.work.atWork h) mism
    exact ⟨s7, _, hwritten.trans hfaults, fun hfenced => absurd hfenced hscore, rfl⟩

/-- The core's running ATTN ends, its channel open where it has pages to read (R157, R164). -/
theorem exec_attnComplete {c : CoreNo} {ups : List Upset} {s u : State} {x : AttnRun} {l : List AttnRun}
    (fs : List AttnFault) (hu : u = s.upsets ups) (hrun : u.running = true) (hattns : (u.core c.val).attns = x :: l)
    (hopen : x.pages = [] ∨ u.chanShut c.val x.op.charged = false) (hqueue : (u.chan c.val).queue = []) :
    exec (.attnComplete c ups fs) s = .next ((u.waitEnd (srcCore c.val) 8 x.op.identity none).endAttn x fs) := by
  subst hu
  have hreads : ¬ (!x.pages.isEmpty && (s.upsets ups).chanShut c.val x.op.charged) = true := by
    rcases hopen with hnone | hshut
    · simp [hnone]
    · simp [hshut]
  show execAttnComplete c ups fs s = _
  rw [execAttnComplete]
  simp only [hattns, List.head?_cons]
  rw [if_neg (by simp [hrun]), if_neg hreads, State.drain_of_empty hqueue]

end Sys2Proof.Machine

open Sys2Proof Sys2Proof.Machine

/-- Settles O31: a tile's start and its open end in the annex, and the end of a core's running ATTN. -/
theorem annexAndAttn : Obligations.AnnexAndAttn := by
  unfold Obligations.AnnexAndAttn
  refine ⟨?_, ?_, ?_⟩
  · intro s x l b hrun hidle hqueue hbank
    obtain ⟨t, hexec, hannex⟩ := exec_annexTileStart hrun hidle hqueue hbank
    have hbanks (j : Bool) : t.annex.bank j = (s.annex.setBank b ((s.annex.bank b).fill x)).bank j :=
      Annex.bank_congr (congrArg _ hannex) (congrArg _ hannex) j
    refine ⟨t, hexec, congrArg _ hannex, congrArg _ hannex, ?_, ?_⟩
    · rw [hbanks, Annex.setBank_bank, AnnexBank.fill_st]
    · rw [hbanks, Annex.setBank_bank_not]
  · intro ups s u v w x hu hrun hannex hready hopen hshut hqueue hv hcut hw
    have hexec := exec_annexTileComplete hu hrun hannex hready hshut hqueue
    rw [← hv] at hexec
    have hend := State.endAnnex_held ups hopen hcut
    rw [show v.annex = u.annex from hv ▸ (State.waitEnd_sameStore ..).annex, ← show w = v.annexFreed x from hw] at hend
    refine ⟨_, hexec, ?_, ?_, ?_, ?_⟩
    · rw [hend, Annex.setBank_running]
    · rw [hend, Annex.setBank_queue]
    · rw [hend, Annex.setBank_bank]
    · rw [hend, Annex.setBank_bank]
  · rintro ⟨c, hc⟩ ups fs s u x l hu hrun hattns rfl hopen hqueue
    have hexec := exec_attnComplete fs hu hrun hattns hopen hqueue
    have hstore := u.waitEnd_sameStore (srcCore x.op.core) 8 x.op.identity none
    rw [← hstore.core] at hattns
    obtain ⟨w, y, hkeeps, hfenced, hend⟩ := State.endAttn_eq (Core.atWork_of_attns hattns) fs
    rw [hend] at hexec
    refine ⟨_, hexec, ?_, fun a ha => ?_, fun hnone => ?_⟩
    · rw [State.complete_core, State.attnLeave_attns, hkeeps.work.attns, hattns, List.drop_one, List.tail_cons]
    · rw [State.complete_mem, State.attnLeave_mem, hkeeps.below.get a ha, hstore.mem]
    · rw [State.complete_mem, State.attnLeave_mem, hfenced hnone, hstore.mem]
end

section
/-! The statements on pages: copies on write, page copies and page moves (R187, R188, R193, R194). -/

namespace Sys2Proof.Machine

/-! ### Pages and page numbers -/

/-- What does not write the page table leaves every page. -/
theorem OnlyM.page {m : Nat} {s t : State} (h : OnlyM m s t) (e : m.testBit Leaf.curPages.ctorIdx = false) (n : Nat) :
    t.page n = s.page n :=
  State.page_congr (h.cur.pages.resolve_left (fun k => Bool.false_ne_true (e.symm.trans k))) n

@[simp] theorem State.taken_cur (s : State) (o : Origin) (d : Line64) (opcode : Nat) : (s.taken o d opcode).cur = s.cur := by
  cases o <;> rfl

theorem State.chooseFrame_page (s : State) (core gal j : Nat) : (s.chooseFrame core gal).1.page j = s.page j :=
  (State.chooseFrame_only (.refl _ s) (Nat.or_self _)).fst.page (by decide) j

theorem State.freePageFrom_st (s : State) (fuel n : Nat) {q : Nat} (h : s.freePageFrom fuel n = some q) :
    (s.page q).st = .free := by
  induction fuel generalizing n with
  | zero => cases h
  | succ fuel ih =>
    rw [State.freePageFrom] at h
    split at h
    · next hfree =>
      cases h
      rw [Bool.and_eq_true, beq_iff_eq] at hfree
      exact hfree.1
    · exact ih _ h

/-- A page number taken from the free list is that of a FREE page (R177). -/
theorem State.freePage_st {s : State} {q : Nat} (h : s.freePage.2 = some q) : (s.page q).st = .free := by
  unfold State.freePage at h
  split at h
  · next n hfreed =>
    cases h
    have hfree := List.find?_some hfreed
    rw [Bool.and_eq_true, beq_iff_eq] at hfree
    exact hfree.1
  · split at h
    · cases h
    · split at h
      · cases h
      · next n hfresh => cases h; exact s.freePageFrom_st _ _ hfresh

/-- The last token of a page makes it FULL, and no other page changes (R187). -/
theorem State.markFull_page (s : State) (n f ptok : Nat) :
    (s.markFull n f ptok).page n = { s.page n with full := (s.page n).full || decide (f + 1 = ptok) } ∧
    ∀ j, j ≠ n → (s.markFull n f ptok).page j = s.page j := by
  unfold State.markFull
  split
  · next hlast => exact ⟨by simp [hlast], fun j hj => State.setPage_page_ne _ hj⟩
  · next hmore => exact ⟨by simp [hmore], fun _ _ => rfl⟩

/-! ### The commands -/

/-- Bytes written to a page's channel for the Curator. -/
def State.curWrite (s : State) (c a : Nat) (b : Bytes) : State := ((s.curTraffic c true a b.length).writeChan c a b).1

/-- The state in which a copy on write has its source page staged and its bytes written, its page not yet marked (R187, R188). -/
def State.cowWritten (s : State) (c : Cow) (x : StagedPage) : State :=
  let m := s.kvMap c.stream
  let p := s.page c.dst
  let kr := keyBytes m.kfmt m.hdim
  let r := ((((s.stagePage c).1.curWrite p.core (s.kvAddr p.frame) (slice x.data 0 (kr * c.pos))).curWrite p.core
    (s.kvAddr p.frame + 8192) (slice x.data 8192 (kr * c.pos))).curWrite p.core (s.scAddr p.frame)
      (slice x.scales 0 (2 * m.hdim * c.pos))).writeToken p kr m.hdim c.pos c.write
  r.1.stepUe c.group r.2

/-- Of the Curator's pieces writing a copy's bytes changes the staging buffer alone. -/
theorem State.cowWritten_only (s : State) (c : Cow) (x : StagedPage) :
    OnlyM (mask [.mem, .chk, .curStaged, .tiersPanels, .tiersRepairs, .cores, .chans, .docGroups, .rasSources, .rasQueue,
      .rasOvf, .catCounters, .catRings, .catTrace, .free]) s (s.cowWritten c x) := by
  have hwrite {m : Nat} {t u : State} {core a : Nat} {b : Bytes} (h : OnlyM m t u) (i : mask [.mem, .chk, .tiersPanels,
      .tiersRepairs, .cores, .chans, .rasSources, .rasQueue, .rasOvf, .catCounters, .catRings, .catTrace, .free] ||| m = m) :
      OnlyM m t (u.curWrite core a b) :=
    (State.writeChan_only (State.curTraffic_only h i) (OnlyM.sub (by decide) i)).fst
  refine State.stepUe_only (State.writeToken_only ?_ (by decide)).fst (by decide)
  exact hwrite (hwrite (hwrite (State.stagePage_only (.refl _ s) (by decide)).fst (by decide)) (by decide)) (by decide)

/-- The copy is done, and its source page leaves the staging buffer if no other copy of the step reads it (R188). -/
def State.cowEnd (s : State) (c : Cow) : State :=
  State.unstage { s with cur := { s.cur with cows := s.cur.cows.map (fun y => if y = c then { y with done := true } else y) } }

theorem exec_cowCopyComplete {k : StreamNo} {slot : Nat} {c : Cow} {x : StagedPage} {s : State}
    (hcow : s.cur.cows.find? (fun x => x.stream == k.val && x.slot == slot && !x.done) = some c)
    (hstaged : (s.stagePage c).2 = some x) :
    exec (.cowCopyComplete k slot) s =
      .next (((s.cowWritten c x).markFull c.dst c.pos (s.kvMap c.stream).ptok).cowEnd c) := by
  have hstage : s.stagePage c = ((s.stagePage c).1, some x) := Prod.ext rfl hstaged
  show execCowCopyComplete k slot s = _
  simp only [execCowCopyComplete, hcow]
  rw [hstage]
  rfl

/-- The frame chosen for the next copy of a page (R193). -/
def State.copyTarget (s : State) (p : Page) : State × Option (Nat × Nat) :=
  s.chooseFrame ((p.core + 128 * (p.copies.length + 1)) % 2048) p.gal

/-- The state with a page's bytes in the frame of its next copy, and a page number taken for it. -/
def State.copyFilled (s : State) (p : Page) (cf : Nat × Nat) : State :=
  ((s.copyTarget p).1.freePage.1.useFrame cf.1 cf.2 p.gal).copyFrame p.core p.frame cf.1 cf.2

theorem State.copyFilled_page (s : State) (p : Page) (cf : Nat × Nat) (j : Nat) : (s.copyFilled p cf).page j = s.page j := by
  have hnumber := (State.freePage_only (.refl _ (s.copyTarget p).1) (Nat.or_self _)).fst.page (by decide) j
  have huse := (State.useFrame_only (a1 := cf.1) (a2 := cf.2) (a3 := p.gal) (.refl _ (s.copyTarget p).1.freePage.1)
    (Nat.or_self _)).page (by decide) j
  exact ((State.copyFrame_only (.refl _ _) (Nat.or_self _)).page (by decide) j).trans
    (huse.trans (hnumber.trans (State.chooseFrame_page ..)))

/-- A page that its sharers call a copy for, with a frame and a page number for it: the copy joins its LINK chain (R193). -/
theorem exec_pageCopyMake {n : Word} {p : Page} {q : Nat} {cf : Nat × Nat} {s : State} (hrun : s.running = true)
    (hcur : s.flag .curCtrl [] 0 = true) (hp : s.page n.toNat = p) (hlive : p.st = .live) (hfull : p.full = true)
    (hdue : p.copies.length + 1 ≤ s.copiesDue p) (hquota : s.pageUse p.gal + 1 ≤ s.pageQuota p.gal)
    (hframe : (s.copyTarget p).2 = some cf) (hnumber : (s.copyTarget p).1.freePage.2 = some q) :
    exec (.pageCopyMake n) s = .next ((((s.copyFilled p cf).setPage q
      { st := .copy, frame := cf.2, core := cf.1, refs := 0, full := true, gal := p.gal, copies := [] }).setPage n.toNat
        { p with copies := p.copies ++ [q] }).count .curCopy 0 1) := by
  have hchosen : s.chooseFrame ((p.core + 128 * (p.copies.length + 1)) % 2048) p.gal = ((s.copyTarget p).1, some cf) :=
    Prod.ext rfl hframe
  have htaken : (s.copyTarget p).1.freePage = ((s.copyTarget p).1.freePage.1, some q) := Prod.ext rfl hnumber
  have hgo : ¬ (!s.running || !s.flag .curCtrl [] 0 || p.st != .live || !p.full ||
      decide (s.copiesDue p < p.copies.length + 1)) = true := by
    simp [hrun, hcur, hlive, hfull, Nat.lt_of_succ_le hdue]
  show execPageCopyMake n s = _
  simp only [execPageCopyMake, hp]
  rw [if_neg hgo, if_neg (Nat.not_lt.mpr hquota), hchosen]
  simp only
  rw [htaken]
  rfl

/-- An accepted PAGE_MOVE waits with the frame taken for it (R194). -/
theorem exec_pageMove {o : Origin} {d : Line64} {cf : Nat × Nat} {s : State} (hacc : s.Accepts o d 0x68 pageMoveChecks)
    (hframe : ((s.taken o d 0x68).chooseFrame (fld d 12 10 0) (s.asOp o d 0x68).gal).2 = some cf) :
    ∃ u : State, u.cur.moves = s.cur.moves ∧ exec (.pageMove o d) s = .next (State.opEvent { u with cur := { u.cur with
      moves := u.cur.moves ++ [{ op := s.asOp o d 0x68, page := fld d 8 31 0, core := cf.1, frame := cf.2 }] } }
        (srcHub hubCurator) 2 (s.asOp o d 0x68) .ok) := by
  have honly := (State.chooseFrame_only (a1 := fld d 12 10 0) (a2 := (s.asOp o d 0x68).gal) (.refl _ (s.taken o d 0x68))
    (Nat.or_self _)).fst
  have hchosen : (s.taken o d 0x68).chooseFrame (fld d 12 10 0) (s.asOp o d 0x68).gal = (_, some cf) := Prod.ext rfl hframe
  refine ⟨_, (honly.cur.moves.resolve_left (by decide)).trans (by rw [State.taken_cur]), ?_⟩
  have haccept : exec (.pageMove o d) s = .next ((s.taken o d 0x68).pageMoveStart (s.asOp o d 0x68)) :=
    congrArg Host.Outcome.next (State.accept_of_accepts hacc)
  rw [haccept, State.pageMoveStart, State.asOp_d, hchosen]

/-- A page that is still its gallery's and FULL is switched to the new frame and the old one enters limbo (R194). -/
theorem exec_pageMoveComplete {n : Word} {m : MoveRec} {s : State} (hrun : s.running = true)
    (hmove : s.cur.moves.find? (fun x => x.page == n.toNat) = some m) (hst : (s.page m.page).st ≠ .free)
    (hfull : (s.page m.page).full = true) (hgal : (s.page m.page).gal = m.op.gal) :
    ∃ u : State, (∀ j, u.page j = s.page j) ∧ u.cur.moves = s.cur.moves.erase m ∧ exec (.pageMoveComplete n) s = .next
      ((((u.setPage m.page { s.page m.page with core := m.core, frame := m.frame }).vacate (s.page m.page).core
        (s.page m.page).frame).count .curMove 0 1).complete (srcHub hubCurator) m.op { st := .ok }) := by
  have hu := State.copyFrame_only (a1 := (s.page m.page).core) (a2 := (s.page m.page).frame) (a3 := m.core) (a4 := m.frame)
    (State.useFrame_only (m := mask [.mem, .chk, .curFrames, .tiersPanels, .tiersRepairs, .cores, .chans, .rasSources,
      .rasQueue, .rasOvf, .catCounters, .catRings, .catTrace, .free]) (a1 := m.core) (a2 := m.frame)
      (a3 := (s.page m.page).gal) (.refl _ { s with cur := { s.cur with moves := s.cur.moves.erase m } }) (by decide))
    (by decide)
  refine ⟨_, hu.page (by decide), hu.cur.moves.resolve_left (by decide), ?_⟩
  show execPageMoveComplete n s = _
  simp [execPageMoveComplete, hmove, hrun, hst, hfull, hgal]

end Sys2Proof.Machine

open Sys2Proof Sys2Proof.Machine

/-- Settles O26: a copy on write done, a page copy made, a page move accepted and ended, one after the other. -/
theorem pagesCopyAndMove : Obligations.PagesCopyAndMove := by
  unfold Obligations.PagesCopyAndMove
  refine ⟨?_, ?_, ?_, ?_⟩
  · intro k slot c s hcow hstaged
    obtain ⟨x, hx⟩ := Option.isSome_iff_exists.mp hstaged
    have honly := s.cowWritten_only c x
    obtain ⟨hself, hother⟩ := (s.cowWritten c x).markFull_page c.dst c.pos (s.kvMap c.stream).ptok
    have hpage := honly.page (by decide)
    have hcows := ((State.markFull_only (a1 := c.dst) (a2 := c.pos) (a3 := (s.kvMap c.stream).ptok) (.refl _ (s.cowWritten c x))
      (Nat.or_self _)).cur.cows.resolve_left (by decide)).trans (honly.cur.cows.resolve_left (by decide))
    refine ⟨_, exec_cowCopyComplete hcow hx, congrArg (List.map _) hcows, ?_, fun n hn => ?_⟩
    · rw [← hpage]
      exact hself
    · rw [← hpage]
      exact hother n hn
  · intro n q cf s hrun hcur hlive hfull hdue hquota hframe hpage
    have hne : q ≠ n.toNat := by
      rintro rfl
      have hfree := State.freePage_st hpage
      rw [State.chooseFrame_page, hlive] at hfree
      cases hfree
    refine ⟨_, exec_pageCopyMake hrun hcur rfl hlive hfull hdue hquota hframe hpage, ?_, ?_, fun j hjn hjq => ?_⟩
    · rw [State.count_page, State.setPage_page_ne _ hne, State.setPage_page]
    · rw [State.count_page, State.setPage_page]
    · rw [State.count_page, State.setPage_page_ne _ hjn, State.setPage_page_ne _ hjq, State.copyFilled_page]
  · intro o d cf s hacc hframe
    obtain ⟨u, hu, hexec⟩ := exec_pageMove hacc hframe
    exact ⟨_, hexec, by rw [State.opEvent_cur_moves, hu]⟩
  · intro n m s hrun hmove hst hfull hgal
    obtain ⟨u, hu, hmoves, hexec⟩ := exec_pageMoveComplete hrun hmove hst hfull hgal
    have hvacate (v : State) (c f : Nat) := State.vacate_only (a1 := c) (a2 := f) (.refl _ v) (Nat.or_self _)
    refine ⟨_, hexec, ?_, fun j hj => ?_, ?_⟩
    · rw [State.complete_page, State.count_page, (hvacate ..).page (by decide), State.setPage_page]
    · rw [State.complete_page, State.count_page, (hvacate ..).page (by decide), State.setPage_page_ne _ hj, hu]
    · rw [State.complete_cur_moves, State.count_cur_moves, (hvacate ..).cur.moves.resolve_left (by decide),
        State.setPage_cur_moves, hmoves]
end

section
/-! The statements on forks: a FORK as it is accepted and as it completes (R189, R190, R205, R228). -/

namespace Sys2Proof.Machine

/-! ### Maps and contexts -/

/-- What does not write the maps leaves every map. -/
theorem OnlyM.kvMap {m : Nat} {s t : State} (h : OnlyM m s t) (e : m.testBit Leaf.curMaps.ctorIdx = false) (k : Nat) :
    t.kvMap k = s.kvMap k :=
  State.kvMap_congr (h.cur.maps.resolve_left (fun b => Bool.false_ne_true (e.symm.trans b))) k

/-- What does not write the contexts leaves every context. -/
theorem OnlyM.ctx {m : Nat} {s t : State} (h : OnlyM m s t) (e : m.testBit Leaf.docCtxs.ctorIdx = false) (k : Nat) :
    t.ctx k = s.ctx k :=
  State.ctx_congr (h.doc.ctxs.resolve_left (fun b => Bool.false_ne_true (e.symm.trans b))) k

@[simp] theorem State.taken_ctx (s : State) (o : Origin) (d : Line64) (opcode k : Nat) :
    (s.taken o d opcode).ctx k = s.ctx k := by
  cases o <;> rfl

theorem State.taken_kvMap (s : State) (o : Origin) (d : Line64) (opcode k : Nat) :
    (s.taken o d opcode).kvMap k = s.kvMap k :=
  State.kvMap_congr (by rw [State.taken_cur]) k

theorem State.taken_effKey (s : State) (o : Origin) (d : Line64) (opcode k : Nat) :
    (s.taken o d opcode).effKey k = s.effKey k := by
  cases o <;> rfl

theorem State.taken_mapTokens (s : State) (o : Origin) (d : Line64) (opcode k : Nat) :
    (s.taken o d opcode).mapTokens k = s.mapTokens k := by
  cases o <;> rfl

/-! ### Acceptance -/

/-- From one state to the other a stream's map has gained rows at most, and no other map has changed. -/
structure State.GainsRows (s : State) (k : Nat) (t : State) : Prop where
  self : t.kvMap k = { s.kvMap k with rows := (t.kvMap k).rows }
  other : ∀ j, j ≠ k → t.kvMap j = s.kvMap j

theorem State.GainsRows.refl (s : State) (k : Nat) : s.GainsRows k s := ⟨Eq.refl _, fun _ _ => Eq.refl _⟩

theorem State.GainsRows.trans {s t u : State} {k : Nat} (h : s.GainsRows k t) (h' : t.GainsRows k u) : s.GainsRows k u :=
  ⟨h'.self.trans (congrArg (fun m : KvMap => { m with rows := (u.kvMap k).rows }) h.self),
    fun j hj => (h'.other j hj).trans (h.other j hj)⟩

theorem State.GainsRows.foldl {α : Type} {k : Nat} {f : State → α → State} (h : ∀ (u : State) x, u.GainsRows k (f u x))
    (l : List α) (s : State) : s.GainsRows k (l.foldl f s) := by
  induction l generalizing s with
  | nil => exact .refl s k
  | cons x l ih => exact (h s x).trans (ih _)

theorem OnlyM.gainsRows {m : Nat} {s t : State} (h : OnlyM m s t) (e : m.testBit Leaf.curMaps.ctorIdx = false) (k : Nat) :
    s.GainsRows k t :=
  ⟨by rw [h.kvMap e], fun j _ => h.kvMap e j⟩

theorem State.setKvMap_gainsRows (s : State) (k : Nat) (rows : List Row) :
    s.GainsRows k (s.setKvMap k { s.kvMap k with rows := rows }) :=
  ⟨by rw [State.setKvMap_kvMap], fun _ hj => State.setKvMap_kvMap_ne _ hj⟩

/-- A FORK's child gains the row blocks for the parent's tokens (R189). -/
theorem State.forkRows_gainsRows (s : State) (child parent t : Nat) : s.GainsRows child (s.forkRows child parent t) := by
  refine State.GainsRows.foldl (fun u _ => ?_) _ s
  have hlines := (State.rowLines_only (a1 := rowBlockLines (s.kvMap parent).slots) (.refl _ u)
    (Nat.or_self _)).fst.gainsRows (by decide) child
  split
  · next heq => rwa [heq] at hlines
  · next heq =>
    rw [heq] at hlines
    exact hlines.trans (State.setKvMap_gainsRows ..)

/-- The map a FORK's child has from its acceptance on, its rows aside: the parent's layout, and FORKING (R189, R190). -/
def KvMap.forkedFrom (cm pm : KvMap) : KvMap :=
  { cm with slots := pm.slots, kfmt := pm.kfmt, vfmt := pm.vfmt, hdim := pm.hdim, ptok := pm.ptok, place := pm.place
            forking := cm.forking + 1 }

/-- The state with a FORK's child in the parent's layout and the row blocks for its tokens (R189). -/
def State.forkBegun (s : State) (child parent t : Nat) : State :=
  (s.setKvMap child ((s.kvMap child).forkedFrom (s.kvMap parent))).forkRows child parent t

theorem State.forkBegun_only (s : State) (child parent t : Nat) :
    OnlyM (mask [.curMaps, .free]) s (s.forkBegun child parent t) :=
  State.forkRows_only (State.setKvMap_only (.refl _ s) (by decide)) (by decide)

/-- Both maps are FORKING, and the FORK joins those that are not complete (R190). -/
theorem State.forkStart_eq (s : State) (o : Op) (child parent t : Nat) (key : Option (BitVec 64)) :
    s.forkStart o child parent t key =
      let u := (s.forkBegun child parent t).setKvMap parent { (s.forkBegun child parent t).kvMap parent with
        forking := ((s.forkBegun child parent t).kvMap parent).forking + 1 }
      { u with cur := { u.cur with
          forks := u.cur.forks ++ [{ op := o, child := child, parent := parent, t := t, key := key }] } } := by
  unfold State.forkStart State.forkBegun
  rfl

theorem State.forkStart_forks (s : State) (o : Op) (child parent t : Nat) (key : Option (BitVec 64)) :
    (s.forkStart o child parent t key).cur.forks =
      s.cur.forks ++ [{ op := o, child := child, parent := parent, t := t, key := key }] := by
  rw [State.forkStart_eq]
  exact congrArg (· ++ [_]) ((s.forkBegun_only child parent t).cur.forks.resolve_left (by decide))

/-- An accepted FORK gives the child the parent's layout and rows for its tokens, makes both maps FORKING and changes no other
(R189, R190). -/
theorem State.forkStart_kvMap (s : State) (o : Op) {child parent : Nat} (hne : child ≠ parent) (t : Nat)
    (key : Option (BitVec 64)) :
    (s.forkStart o child parent t key).kvMap child = { (s.kvMap child).forkedFrom (s.kvMap parent) with
      rows := ((s.forkStart o child parent t key).kvMap child).rows } ∧
    (s.forkStart o child parent t key).kvMap parent = { s.kvMap parent with forking := (s.kvMap parent).forking + 1 } ∧
    ∀ k, k ≠ child → k ≠ parent → (s.forkStart o child parent t key).kvMap k = s.kvMap k := by
  have hrows : (s.setKvMap child ((s.kvMap child).forkedFrom (s.kvMap parent))).GainsRows child (s.forkBegun child parent t) :=
    State.forkRows_gainsRows ..
  have hparent := (hrows.other parent hne.symm).trans (State.setKvMap_kvMap_ne _ hne.symm)
  have hstart (k : Nat) : (s.forkStart o child parent t key).kvMap k = ((s.forkBegun child parent t).setKvMap parent
      { s.kvMap parent with forking := (s.kvMap parent).forking + 1 }).kvMap k := by
    rw [State.forkStart_eq, ← hparent]
    rfl
  refine ⟨?_, ?_, fun k hk hk' => ?_⟩
  · rw [hstart, State.setKvMap_kvMap_ne _ hne]
    exact hrows.self.trans (by rw [State.setKvMap_kvMap])
  · rw [hstart, State.setKvMap_kvMap]
  · rw [hstart, State.setKvMap_kvMap_ne _ hk', hrows.other k hk, State.setKvMap_kvMap_ne _ hk]

theorem ofNat_fld_eq_zero (d : Line64) (o : Nat) : BitVec.ofNat 64 (fld d o 63 0) = 0 ↔ fld d o 63 0 = 0 := by
  have hlt : fld d o 63 0 < 2 ^ 64 := by
    unfold fld bits
    exact Nat.lt_of_lt_of_le (Nat.mod_lt _ (Nat.two_pow_pos _)) (Nat.pow_le_pow_right (by decide) (by omega))
  rw [← BitVec.toNat_inj, BitVec.toNat_ofNat, Nat.mod_eq_of_lt hlt]
  rfl

/-- The key an accepted FORK leases for its child: the one it names, if that is a new one (R205, R228). -/
theorem State.taken_forkKey (s : State) (o : Origin) (d : Line64) :
    (if BitVec.ofNat 64 (fld d 24 63 0) != 0 && BitVec.ofNat 64 (fld d 24 63 0) != (s.taken o d 0x43).effKey (fld d 5 14 0)
      then some (BitVec.ofNat 64 (fld d 24 63 0)) else none) =
    if fld d 24 63 0 ≠ 0 ∧ BitVec.ofNat 64 (fld d 24 63 0) ≠ s.effKey (fld d 5 14 0)
      then some (BitVec.ofNat 64 (fld d 24 63 0)) else none := by
  rw [State.taken_effKey]
  exact if_congr (by rw [Bool.and_eq_true, bne_iff_ne, bne_iff_ne, Ne, ofNat_fld_eq_zero]) rfl rfl

/-- Acceptance passes the parent's last token to the child, takes its TOKENS as T, and starts the FORK (R189, R205). -/
theorem exec_fork {o : Origin} {d : Line64} {s : State} (h : s.Accepts o d 0x43 forkChecks) :
    exec (.fork o d) s = .next (((s.taken o d 0x43).setCtx (fld d 5 14 0)
      { s.ctx (fld d 5 14 0) with lastTok := (s.ctx (fld d 8 14 0)).lastTok }).forkStart (s.asOp o d 0x43) (fld d 5 14 0)
        (fld d 8 14 0) (s.mapTokens (fld d 8 14 0))
        (if fld d 24 63 0 ≠ 0 ∧ BitVec.ofNat 64 (fld d 24 63 0) ≠ s.effKey (fld d 5 14 0)
          then some (BitVec.ofNat 64 (fld d 24 63 0)) else none)) := by
  have haccept : exec (.fork o d) s = .next ((s.taken o d 0x43).forkAccepted (s.asOp o d 0x43)) :=
    congrArg Host.Outcome.next (State.accept_of_accepts h)
  rw [haccept, State.forkAccepted, State.asOp_d]
  simp only [State.taken_forkKey, State.taken_mapTokens, State.taken_ctx]

/-! ### Completion -/

/-- What the completion of a FORK makes of row n of the child's map: the parent's pages, filled as far as its tokens go (R190). -/
def ForkRec.rowFrom (f : ForkRec) (ptok : Nat) (pm : KvMap) (n : Nat) (r : Row) : Row :=
  { r with fill := min ptok (f.t - n * ptok), pages := ((pm.rows[n]?).map (fun p => p.pages)).getD [] }

/-- One row more of the child's map takes the parent's pages, and no other map changes (R190). -/
theorem State.forkRow_kvMap (s : State) (f : ForkRec) (n : Nat) :
    (s.forkRow f n).kvMap f.child = { s.kvMap f.child with
      rows := (s.kvMap f.child).rows.modify n (f.rowFrom (s.kvMap f.child).ptok (s.kvMap f.parent) n) } ∧
    ∀ k, k ≠ f.child → (s.forkRow f n).kvMap k = s.kvMap k := by
  let pages := (((s.kvMap f.parent).rows[n]?).map (fun r => r.pages)).getD []
  have hrefs (k : Nat) :
      (pages.foldl (fun s n => s.setPage n { s.page n with refs := (s.page n).refs + 1 }) s).kvMap k = s.kvMap k :=
    (OnlyM.foldl (m := mask [.curPages]) (.refl _ s) (fun u x => State.setPage_only (.refl _ u) (Nat.or_self _))).kvMap
      (by decide) k
  refine ⟨?_, fun k hk => ?_⟩
  · unfold State.forkRow
    rw [State.count_kvMap, State.setKvMap_kvMap, hrefs]
    rfl
  · unfold State.forkRow
    rw [State.count_kvMap, State.setKvMap_kvMap_ne _ hk, hrefs]

/-- The state with the first m rows of the parent's map taken by the child. -/
def State.forkTaken (s : State) (f : ForkRec) (m : Nat) : State := (List.range m).foldl (fun s r => s.forkRow f r) s

theorem State.forkTaken_succ (s : State) (f : ForkRec) (m : Nat) : s.forkTaken f (m + 1) = (s.forkTaken f m).forkRow f m := by
  simp [State.forkTaken, List.range_succ]

theorem State.forkTaken_only (s : State) (f : ForkRec) (m : Nat) :
    OnlyM (mask [.curPages, .curMaps, .catCounters]) s (s.forkTaken f m) :=
  OnlyM.foldl (.refl _ s) (fun u _ => State.forkRow_only (.refl _ u) (Nat.or_self _))

/-- The rows below m are those the parent's pages have come to, and the rest of the maps stands (R190). -/
theorem State.forkTaken_kvMap (s : State) {f : ForkRec} (hne : f.child ≠ f.parent) (m : Nat) :
    s.GainsRows f.child (s.forkTaken f m) ∧ ∀ n, ((s.forkTaken f m).kvMap f.child).rows[n]? =
      if n < m then ((s.kvMap f.child).rows[n]?).map (f.rowFrom (s.kvMap f.child).ptok (s.kvMap f.parent) n)
      else (s.kvMap f.child).rows[n]? := by
  induction m with
  | zero => exact ⟨.refl .., fun n => by rw [if_neg (Nat.not_lt_zero n)]; rfl⟩
  | succ m ih =>
    obtain ⟨hgains, hrows⟩ := ih
    obtain ⟨hself, hother⟩ := (s.forkTaken f m).forkRow_kvMap f m
    rw [State.forkTaken_succ]
    refine ⟨hgains.trans ⟨by rw [hself], hother⟩, fun n => ?_⟩
    rw [hself, List.getElem?_modify, hrows, hgains.other _ hne.symm, congrArg KvMap.ptok hgains.self]
    rcases Nat.lt_trichotomy n m with hlt | rfl | hgt
    · simp [hlt, Nat.lt_succ_of_lt hlt, Nat.ne_of_gt hlt]
    · simp
    · simp [Nat.not_lt_of_gt hgt, Nat.ne_of_lt hgt, Nat.not_lt.mpr (Nat.succ_le_of_lt hgt)]

/-- The state with both maps of a completing FORK as it leaves them (R190). -/
def State.forkMaps (s : State) (f : ForkRec) : State :=
  let s1 := s.forkTaken f (cdiv f.t (s.kvMap f.child).ptok)
  let s2 := s1.setKvMap f.child { s1.kvMap f.child with tokens := f.t, forking := (s1.kvMap f.child).forking - 1 }
  s2.setKvMap f.parent { s2.kvMap f.parent with forking := (s2.kvMap f.parent).forking - 1 }

/-- The child draws under the key its FORK names, from 0 on (R228). -/
def State.forkKey (s : State) (f : ForkRec) : State :=
  match f.key with
  | some key => s.setCtx f.child { s.ctx f.child with gkey := key, gctr := 0 }
  | none => s

theorem State.forkKey_cur (s : State) (f : ForkRec) : (s.forkKey f).cur = s.cur := by
  unfold State.forkKey
  split <;> rfl

theorem State.forkKey_ctx (s : State) (f : ForkRec) :
    (∀ key, f.key = some key → (s.forkKey f).ctx f.child = { s.ctx f.child with gkey := key, gctr := 0 }) ∧
    (f.key = none → (s.forkKey f).ctx f.child = s.ctx f.child) ∧ ∀ j, j ≠ f.child → (s.forkKey f).ctx j = s.ctx j := by
  unfold State.forkKey
  split
  · next key hkey =>
    rw [hkey]
    exact ⟨fun _ h => by rw [State.setCtx_ctx, Option.some.inj h], nofun, fun j hj => State.setCtx_ctx_ne _ hj⟩
  · next hnone =>
    rw [hnone]
    exact ⟨nofun, fun _ => rfl, fun _ _ => rfl⟩

/-- The FORK is over. -/
def State.forkOver (s : State) (f : ForkRec) : State := { s with cur := { s.cur with forks := s.cur.forks.erase f } }

theorem exec_forkComplete {k : StreamNo} {f : ForkRec} {s : State} (hrun : s.running = true)
    (hfork : s.cur.forks.find? (fun x => x.child == k.val) = some f) (hgo : s.forkWaits f = false) :
    exec (.forkComplete k) s =
      .next ((((s.forkMaps f).forkKey f).forkOver f).complete (srcHub hubCurator) f.op { st := .ok }) := by
  show execForkComplete k s = _
  simp only [execForkComplete, hfork, hrun, hgo]
  rfl

theorem State.forkMaps_ctx (s : State) (f : ForkRec) (j : Nat) : (s.forkMaps f).ctx j = s.ctx j :=
  (s.forkTaken_only f _).ctx (by decide) j

theorem State.forkMaps_forks (s : State) (f : ForkRec) : (s.forkMaps f).cur.forks = s.cur.forks :=
  (s.forkTaken_only f _).cur.forks.resolve_left (by decide)

/-- Both maps are out of the FORK, the child's holds T tokens and the rows it has taken, and no other map has changed (R190). -/
theorem State.forkMaps_kvMap (s : State) {f : ForkRec} (hne : f.child ≠ f.parent) :
    (s.forkMaps f).kvMap f.child = { s.kvMap f.child with
      tokens := f.t, forking := (s.kvMap f.child).forking - 1
      rows := ((s.forkTaken f (cdiv f.t (s.kvMap f.child).ptok)).kvMap f.child).rows } ∧
    (s.forkMaps f).kvMap f.parent = { s.kvMap f.parent with forking := (s.kvMap f.parent).forking - 1 } ∧
    ∀ j, j ≠ f.child → j ≠ f.parent → (s.forkMaps f).kvMap j = s.kvMap j := by
  obtain ⟨hself, hother⟩ := (s.forkTaken_kvMap hne (cdiv f.t (s.kvMap f.child).ptok)).1
  unfold State.forkMaps
  refine ⟨?_, ?_, fun j hj hj' => ?_⟩
  · rw [State.setKvMap_kvMap_ne _ hne, State.setKvMap_kvMap]
    exact congrArg (fun m : KvMap => { m with tokens := f.t, forking := m.forking - 1 }) hself
  · rw [State.setKvMap_kvMap, State.setKvMap_kvMap_ne _ hne.symm, hother _ hne.symm]
  · rw [State.setKvMap_kvMap_ne _ hj', State.setKvMap_kvMap_ne _ hj, hother j hj]

end Sys2Proof.Machine

open Sys2Proof Sys2Proof.Machine

/-- Settles O23: the maps and the context an accepted FORK leaves, then those its completion leaves. -/
theorem forks : Obligations.Forks := by
  unfold Obligations.Forks
  refine ⟨?_, ?_⟩
  · intro o d s hacc hne
    let u := (s.taken o d 0x43).setCtx (fld d 5 14 0)
      { s.ctx (fld d 5 14 0) with lastTok := (s.ctx (fld d 8 14 0)).lastTok }
    have hmap (k : Nat) : u.kvMap k = s.kvMap k := State.taken_kvMap ..
    have hctx (key : Option (BitVec 64)) (k : Nat) : (u.forkStart (s.asOp o d 0x43) (fld d 5 14 0) (fld d 8 14 0)
        (s.mapTokens (fld d 8 14 0)) key).ctx k = u.ctx k :=
      (State.forkStart_only (.refl _ u) (Nat.or_self _)).ctx (by decide) k
    obtain ⟨hchild, hparent, hother⟩ := u.forkStart_kvMap (s.asOp o d 0x43) hne (s.mapTokens (fld d 8 14 0)) _
    rw [hmap, hmap] at hchild
    rw [hmap] at hparent
    refine ⟨_, exec_fork hacc, ?_, ?_, hchild, hparent, fun k hk => ?_, fun k hk hk' => (hother k hk hk').trans (hmap k)⟩
    · rw [State.forkStart_forks, State.setCtx_cur, State.taken_cur]
    · rw [hctx, State.setCtx_ctx]
    · rw [hctx, State.setCtx_ctx_ne _ hk, State.taken_ctx]
  · intro k f s hrun hfork hgo hne
    obtain ⟨hchild, hparent, hother⟩ := s.forkMaps_kvMap hne
    obtain ⟨hnamed, hkept, hothers⟩ := (s.forkMaps f).forkKey_ctx f
    simp only [s.forkMaps_ctx f] at hnamed hkept hothers
    have hmap (j : Nat) : ((((s.forkMaps f).forkKey f).forkOver f).complete (srcHub hubCurator) f.op { st := .ok }).kvMap j =
        (s.forkMaps f).kvMap j :=
      (State.complete_kvMap ..).trans (State.kvMap_congr (congrArg Curator.maps (State.forkKey_cur ..)) j)
    have hctx (j : Nat) : ((((s.forkMaps f).forkKey f).forkOver f).complete (srcHub hubCurator) f.op { st := .ok }).ctx j =
        ((s.forkMaps f).forkKey f).ctx j := State.complete_ctx ..
    refine ⟨_, exec_forkComplete hrun hfork hgo, ?_, ?_, ?_, fun n p c hn hp hc => ?_, ?_, ?_, ?_, fun j hj hj' => ?_, ?_⟩
    · rw [hmap, hchild]
    · rw [hmap, hchild]
    · rw [hmap, hparent]
    · rw [hmap, hchild, (s.forkTaken_kvMap hne _).2, if_pos hn, hc]
      simp [ForkRec.rowFrom, hp]
    · simpa only [hctx] using hnamed
    · simpa only [hctx] using hkept
    · simpa only [hctx] using hothers
    · rw [hmap, hother j hj hj']
    · rw [State.complete_cur_forks]
      exact congrArg (List.erase · f) ((congrArg Curator.forks (State.forkKey_cur ..)).trans (s.forkMaps_forks f))
end

section
/-! The statements on the end of a stream: RELEASE_EXECUTE and the END record (R191, R207, R259). -/

namespace Sys2Proof.Machine

/-! ### Pages given up leave the maps -/

@[simp] theorem State.vacate_maps (s : State) (c f : Nat) : (s.vacate c f).cur.maps = s.cur.maps :=
  (State.vacate_only (a1 := c) (a2 := f) (.refl _ s) (Nat.or_self _)).cur.maps.resolve_left (by decide)

@[simp] theorem State.listFree_maps (s : State) (n : Nat) : (s.listFree n).cur.maps = s.cur.maps := rfl

theorem State.freePageNo_maps (s : State) (n : Nat) : (s.freePageNo n).cur.maps = s.cur.maps := by
  unfold State.freePageNo
  generalize n :: (s.page n).copies = l
  induction l generalizing s with
  | nil => rfl
  | cons q l ih => rw [List.foldl_cons, ih, State.listFree_maps, State.setPage_cur_maps, State.vacate_maps]

theorem State.trimCopies_maps (s : State) (n fuel : Nat) : (s.trimCopies n fuel).cur.maps = s.cur.maps := by
  induction fuel generalizing s with
  | zero => rfl
  | succ fuel ih =>
    rw [State.trimCopies]
    split
    · rfl
    · split
      · rw [ih, State.setPage_cur_maps, State.listFree_maps, State.setPage_cur_maps, State.vacate_maps]
      · rfl

/-- One map fewer that names a page: the maps themselves stand (R178, R193). -/
theorem State.dropRef_maps (s : State) (n : Nat) : (s.dropRef n).cur.maps = s.cur.maps := by
  unfold State.dropRef
  extract_lets p
  split
  · rfl
  · split
    · exact s.freePageNo_maps n
    · exact (State.trimCopies_maps ..).trans (State.setPage_cur_maps _)

theorem State.dropRefs_maps (s : State) (pages : List Nat) :
    (pages.foldl (fun s n => s.dropRef n) s).cur.maps = s.cur.maps := by
  induction pages generalizing s with
  | nil => rfl
  | cons n pages ih => exact (ih _).trans (s.dropRef_maps n)

/-- A stream's map given up is empty, and no other map changes (R191). -/
theorem State.releaseMap_kvMap (s : State) (k : Nat) :
    (s.releaseMap k).kvMap k = {} ∧ ∀ j, j ≠ k → (s.releaseMap k).kvMap j = s.kvMap j := by
  unfold State.releaseMap
  extract_lets m lost blockLost pages s1 s2
  have hmaps : ∀ j, State.kvMap _ j = s2.kvMap j := State.kvMap_congr (Eq.refl s2.cur.maps)
  refine ⟨(hmaps k).trans (State.setKvMap_kvMap s1), fun j hj => (hmaps j).trans ?_⟩
  exact (State.setKvMap_kvMap_ne s1 hj).trans (State.kvMap_congr (s.dropRefs_maps pages) j)

/-! ### The commands -/

/-- With no line of its tables lost a stream's tables are read as they stand (R402). -/
theorem State.checkTables_sound {s : State} {k : Nat} (rows : List Row) (hlost : s.cur.lost = [])
    (hctx : Tbl.find s.cur.lostCtx k = none) : (s.checkTables k rows).1 = s := by
  simp [State.checkTables, hctx, hlost]

/-- The state with a stream's map given up, its groups left and its context cleared (R191, R207). -/
def State.released (s : State) (k : Nat) : State :=
  State.setCtx { s.releaseMap k with doc := { (s.releaseMap k).doc with
    cgroups := leaveGroups k (fun _ => false) (s.releaseMap k).doc.cgroups } } k {}

theorem State.released_kvMap (s : State) (k j : Nat) : (s.released k).kvMap j = (s.releaseMap k).kvMap j :=
  State.kvMap_congr (by rw [State.released, State.setCtx_cur]) j

theorem State.released_ctx (s : State) (k : Nat) :
    (s.released k).ctx k = {} ∧ ∀ j, j ≠ k → (s.released k).ctx j = s.ctx j :=
  ⟨State.setCtx_ctx _, fun j hj => (State.setCtx_ctx_ne _ hj).trans
    ((State.releaseMap_only (a1 := k) (.refl _ s) (Nat.or_self _)).ctx (by decide) j)⟩

theorem State.released_releases (s : State) (k : Nat) : (s.released k).doc.releases = s.doc.releases :=
  (State.releaseMap_only (a1 := k) (.refl _ s) (Nat.or_self _)).doc.releases.resolve_left (by decide)

/-- The RELEASE of a stream is over, and completes (R207). -/
def State.releaseOver (s : State) (k : Nat) : State :=
  match s.doc.releases.find? (fun c => c.stream == k) with
  | none => s
  | some c => State.complete { s with doc := { s.doc with
      releases := s.doc.releases.filter (fun e => e.stream != k) } } (srcHub hubDocent) c.op { st := .ok }

theorem State.releaseOver_ctx (s : State) (k j : Nat) : (s.releaseOver k).ctx j = s.ctx j := by
  unfold State.releaseOver
  split
  · rfl
  · exact State.complete_ctx ..

theorem State.releaseOver_kvMap (s : State) (k j : Nat) : (s.releaseOver k).kvMap j = s.kvMap j := by
  unfold State.releaseOver
  split
  · rfl
  · exact State.complete_kvMap ..

theorem State.mem_releaseOver {s : State} {k : Nat} {c : StreamCmd} (h : c ∈ (s.releaseOver k).doc.releases) :
    c ∈ s.doc.releases ∧ c.stream ≠ k := by
  unfold State.releaseOver at h
  split at h
  · next hnone => exact ⟨h, by simpa using List.find?_eq_none.mp hnone c h⟩
  · rw [(State.complete_only (.refl _ _) (Nat.or_self _)).doc.releases.resolve_left (by decide)] at h
    simpa using h

theorem exec_releaseExecute {k : StreamNo} {s : State} (hrun : s.running = true) (hready : s.releaseReady k.val = true)
    (hlost : s.cur.lost = []) (hctx : Tbl.find s.cur.lostCtx k.val = none) :
    exec (.releaseExecute k) s = .next ((s.released k.val).releaseOver k.val) := by
  show execReleaseExecute k s = _
  have hgo : ¬ (!(s.running || s.alive && s.hif.inReset.contains (s.ctx k.val).gal) || !s.releaseReady k.val) = true := by
    simp [hrun, hready]
  rw [execReleaseExecute]
  simp only
  rw [if_neg hgo, State.checkTables_sound _ hlost hctx]
  split
  · next hnone =>
    rw [State.releaseOver, show (s.released k.val).doc.releases.find? (fun c => c.stream == k.val) = none from hnone]
    rfl
  · next c hsome =>
    rw [State.releaseOver, show (s.released k.val).doc.releases.find? (fun c => c.stream == k.val) = some c from hsome]
    rfl

/-- A record for a stream's answers: PROD rises, and where no reset of its gallery runs it is written at the PROD it had (R209,
R259). -/
theorem State.writeAnswer_spec (s : State) (k kind token pos : Nat) (st : Status) (prob rank : Nat) :
    (s.writeAnswer k kind token pos st prob rank).ctx k = { s.ctx k with prod := (s.ctx k).prod + 1 } ∧
    (∀ j, j ≠ k → (s.writeAnswer k kind token pos st prob rank).ctx j = s.ctx j) ∧
    (s.cutOff (s.ctx k).gal = false → (s.writeAnswer k kind token pos st prob rank).out = s.out ++ [.hostWrite (s.ctx k).gal
      ((s.ctx k).ring + 16 * ((s.ctx k).prod.toNat % 2 ^ (s.ctx k).rlog2))
      (toLE 4 (token % 2 ^ 24 + kind * 2 ^ 24) ++ toLE 4 pos ++ toLE 4 (st.code + s.beat % 2 ^ 24 * 256) ++ toLE 2 prob ++
        toLE 2 (rank % 64 + ((s.ctx k).prod.toNat / 2 ^ (s.ctx k).rlog2 + 1) % 2 * 2 ^ 15))]) := by
  unfold State.writeAnswer
  extract_lets x w phase rec16 s1 v
  have hs1 : s1.ctx k = { s.ctx k with prod := (s.ctx k).prod + 1 } ∧ (∀ j, j ≠ k → s1.ctx j = s.ctx j) ∧
      (s.cutOff (s.ctx k).gal = false → s1.out = s.out ++ [.hostWrite x.gal (x.ring + 16 * (w % 2 ^ x.rlog2)) rec16]) :=
    ⟨State.setCtx_ctx _, fun j hj => (State.setCtx_ctx_ne _ hj).trans (State.hostWrite_ctx ..), State.hostWrite_out⟩
  split
  · exact hs1
  · exact hs1

/-- A waiting END record that finds room is written, with nothing else to answer (R259). -/
theorem exec_endRecordWrite {k : StreamNo} {st : Status} {s : State} (hrun : s.running = true)
    (hend : (s.ctx k.val).endWait = some st) (hroom : (s.ctx k.val).room ≠ 0) (hafter : (s.ctx k.val).afterEnd = []) :
    exec (.endRecordWrite k) s = .next ((s.setCtx k.val { s.ctx k.val with endWait := none }).writeAnswer k.val 1 0
      (s.kvMap k.val).tokens st 0 0) := by
  show execEndRecordWrite k s = _
  have hgo : ¬ (!s.running || decide ((s.ctx k.val).room = 0)) = true := by simp [hrun, hroom]
  rw [execEndRecordWrite]
  simp only [hend]
  rw [if_neg hgo, hafter]
  rfl

end Sys2Proof.Machine

open Sys2Proof Sys2Proof.Machine

/-- Settles O24: a RELEASE executed, and a waiting END record written. -/
theorem streamEnds : Obligations.StreamEnds := by
  unfold Obligations.StreamEnds
  refine ⟨?_, ?_⟩
  · intro k s hrun hready hlost hctx
    obtain ⟨hclear, hctxs⟩ := s.released_ctx k.val
    obtain ⟨hempty, hmaps⟩ := s.releaseMap_kvMap k.val
    refine ⟨_, exec_releaseExecute hrun hready hlost hctx, ?_, ?_, fun j hj => ⟨?_, ?_⟩, fun c hc => ?_⟩
    · rw [State.releaseOver_ctx, hclear]
    · rw [State.releaseOver_kvMap, State.released_kvMap, hempty]
    · rw [State.releaseOver_ctx, hctxs j hj]
    · rw [State.releaseOver_kvMap, State.released_kvMap, hmaps j hj]
    · rw [← s.released_releases k.val]
      exact State.mem_releaseOver hc
  · intro k st s hrun hend hroom hafter hcut
    obtain ⟨hself, hother, hout⟩ := (s.setCtx k.val { s.ctx k.val with endWait := none }).writeAnswer_spec k.val 1 0
      (s.kvMap k.val).tokens st 0 0
    rw [State.setCtx_ctx] at hself hout
    refine ⟨_, exec_endRecordWrite hrun hend hroom hafter, hself, ?_, fun j hj => ?_⟩
    · simpa [State.beat] using hout hcut
    · rw [hother j hj, State.setCtx_ctx_ne _ hj]
end

section
/-! The statements on steps: the issue of a step's operations, the end of a step, and records held for a Carmine group (R181, R208,
R210, R213, R223). -/

namespace Sys2Proof.Machine

/-! ### Issue -/

theorem State.laneGroup?_id {s : State} {gid : Nat} {g : LaneGroup} (h : s.laneGroup? gid = some g) : g.id = gid :=
  beq_iff_eq.mp (List.find?_some (p := fun g : LaneGroup => g.id == gid) h)

/-- The next operation issues and the group moves on; then the token writes take place (R187, R213). -/
theorem exec_stepOpIssue {gid : Nat} {g : LaneGroup} {d : Line64} {s : State} (ws : List TokenWrite) (hrun : s.running = true)
    (hgroup : s.laneGroup? gid = some g) (hop : (s.body g)[g.next]? = some d)
    (hgo : barrier d = false ∨ g.outstanding = []) :
    exec (.stepOpIssue gid ws) s = .next (ws.foldl (fun v w => v.stepWrite gid w)
      ((s.issueOp g d).updGroup gid (fun l => { l with next := l.next + 1 }))) := by
  have hfree : ¬ (barrier d && !g.outstanding.isEmpty) = true := by
    rcases hgo with h | h
    · simp [h]
    · simp [h]
  show execStepOpIssue gid ws s = _
  simp only [execStepOpIssue, hgroup, hop]
  rw [if_neg (by simp [hrun]), if_neg hfree]

/-- Past the end of the body, or while a BARRIER holds, nothing issues: the token writes alone take place (R213). -/
theorem exec_stepOpIssue_writes {gid : Nat} {g : LaneGroup} {s : State} (ws : List TokenWrite) (hrun : s.running = true)
    (hgroup : s.laneGroup? gid = some g)
    (hstop : (s.body g)[g.next]? = none ∨ ∃ d, (s.body g)[g.next]? = some d ∧ barrier d = true ∧ g.outstanding ≠ []) :
    exec (.stepOpIssue gid ws) s = .next (ws.foldl (fun v w => v.stepWrite gid w) s) := by
  show execStepOpIssue gid ws s = _
  rcases hstop with hend | ⟨d, hop, hbarrier, hout⟩
  · simp only [execStepOpIssue, hgroup, hend]
    rw [if_neg (by simp [hrun])]
  · simp only [execStepOpIssue, hgroup, hop]
    rw [if_neg (by simp [hrun]), if_pos (by simp [hbarrier, hout])]

/-- An operation that is neither a core's nor one for each member issues once (R213). -/
theorem State.issueOp_single {g : LaneGroup} {d : Line64} (s : State) (hper : perStream d = false)
    (hcore : coreOp (fld d 0 7 0) = false) : s.issueOp g d = s.issueLine g.id d := by
  simp [State.issueOp, hper, hcore]

/-- A core operation with a FAN of one issues on one core alone (R213). -/
theorem State.issueOp_fan_one {g : LaneGroup} {d : Line64} (s : State) (hper : perStream d = false) (hfan : fan d = 1)
    (hcore : coreOp (fld d 0 7 0) = true) : s.issueOp g d = s.issueLine g.id (fanLine d 0) := by
  simp [State.issueOp, hper, hcore, hfan]

/-- Operations of the hub's units, by their number (R389). -/
theorem exec_issueLine_hub {x : Nat × (Origin → Line64 → Instr)}
    (hx : x ∈ ([(0, .addnorm), (1, .convert), (2, .bcast), (3, .merge), (4, .psum), (5, .sample)] :
      List (Nat × (Origin → Line64 → Instr)))) (gid : Nat) {d : Line64} (s : State) (hop : fld d 0 7 0 = 0x78)
    (hunit : fld d 8 2 0 = x.1) : exec (x.2 (.step gid) d) s = .next (s.issueLine gid d) := by
  simp only [List.mem_cons, List.not_mem_nil, or_false] at hx
  rcases hx with rfl | rfl | rfl | rfl | rfl | rfl
  all_goals
    simp only [State.issueLine, hop, hunit]
    rfl

/-- Operations of the DMA engines and the carousel, by opcode (R273, R381). -/
theorem exec_issueLine_dma {x : Nat × (Origin → Line64 → Instr)}
    (hx : x ∈ ([(0x20, .copy), (0x21, .fill), (0x22, .compare), (0x23, .gather), (0x24, .spStrided), (0x25, .spTranspose),
      (0x26, .t24Convert), (0x27, .dmaStop), (0x74, .coll)] : List (Nat × (Origin → Line64 → Instr)))) (gid : Nat)
    {d : Line64} (s : State) (hop : fld d 0 7 0 = x.1) :
    exec (x.2 (.step gid) d) s = .next (s.issueLine gid d) ∧ coreOp (fld d 0 7 0) = false := by
  simp only [List.mem_cons, List.not_mem_nil, or_false] at hx
  rcases hx with rfl | rfl | rfl | rfl | rfl | rfl | rfl | rfl | rfl
  all_goals
    simp only [State.issueLine, hop]
    exact ⟨rfl, rfl⟩

/-- Operations of the cores, by opcode (R112, R129, R144). -/
theorem exec_issueLine_core {x : Nat × (Origin → Line64 → Instr)}
    (hx : x ∈ ([(0x62, .tile), (0x63, .tileBs), (0x64, .attn)] : List (Nat × (Origin → Line64 → Instr)))) (gid : Nat)
    {d : Line64} (s : State) (hop : fld d 0 7 0 = x.1) :
    exec (x.2 (.step gid) d) s = .next (s.issueLine gid d) ∧ coreOp (fld d 0 7 0) = true := by
  simp only [List.mem_cons, List.not_mem_nil, or_false] at hx
  rcases hx with rfl | rfl | rfl
  all_goals
    simp only [State.issueLine, hop]
    exact ⟨rfl, rfl⟩

theorem bits_toNat_ofNat {w hi lo : Nat} (n : Nat) (hw : hi < w) (hlo : lo ≤ hi) :
    bits (BitVec.ofNat w n).toNat hi lo = bits n hi lo := by
  rw [BitVec.toNat_ofNat, bits_mod_two_pow n hw hlo]

/-- A field from byte 1 on leaves the opcode. -/
theorem fld_setF_opcode (d : Line64) (o hi lo v : Nat) (h : 1 ≤ o) : fld (setF d o hi lo v) 0 7 0 = fld d 0 7 0 := by
  have hdvd : 2 ^ 8 ∣ 2 ^ (8 * o + lo) := pow_dvd_pow 2 (by omega)
  obtain ⟨old, hold⟩ := hdvd.mul_left (bits d.toNat (8 * o + hi) (8 * o + lo))
  obtain ⟨new, hnew⟩ := hdvd.mul_left (v % 2 ^ (8 * o + hi + 1 - (8 * o + lo)))
  have hle : bits d.toNat (8 * o + hi) (8 * o + lo) * 2 ^ (8 * o + lo) ≤ d.toNat :=
    (Nat.mul_le_mul_right _ (Nat.mod_le _ _)).trans (Nat.div_mul_le_self ..)
  have hbits : bits (setBits d.toNat (8 * o + hi) (8 * o + lo) v) 7 0 = bits d.toNat 7 0 := by
    unfold setBits
    rw [hold] at hle ⊢
    rw [hnew]
    simp only [bits, Nat.pow_zero, Nat.div_one]
    omega
  exact (bits_toNat_ofNat _ (by decide) (by decide)).trans hbits

/-- On every core of its FAN an operation keeps its opcode (R213). -/
theorem fld_fanLine_opcode (d : Line64) (i : Nat) : fld (fanLine d i) 0 7 0 = fld d 0 7 0 := by
  unfold fanLine
  extract_lets d1
  have hd1 : fld d1 0 7 0 = fld d 0 7 0 := fld_setF_opcode _ _ _ _ _ (by decide)
  split
  · rw [fld_setF_opcode _ _ _ _ _ (by decide), hd1]
  · rw [fld_setF_opcode _ _ _ _ _ (by decide), hd1]
  · exact hd1

/-! ### Work on one stream -/

/-- What work on stream k leaves: every other context, whether k is in a step and when its last records were issued, the running
lane groups by number, and the beat. -/
structure State.StreamWork (s : State) (k : Nat) (t : State) : Prop where
  other : ∀ j, j ≠ k → t.ctx j = s.ctx j
  inStep : (t.ctx k).inStep = (s.ctx k).inStep
  issuedAt : (t.ctx k).issuedAt = (s.ctx k).issuedAt
  groups : t.doc.groups.map (·.id) = s.doc.groups.map (·.id)
  beat : t.fab.beat = s.fab.beat

theorem State.StreamWork.refl (s : State) (k : Nat) : s.StreamWork k s :=
  ⟨fun _ _ => Eq.refl _, Eq.refl _, Eq.refl _, Eq.refl _, Eq.refl _⟩

theorem State.StreamWork.trans {s t u : State} {k : Nat} (h : s.StreamWork k t) (h' : t.StreamWork k u) : s.StreamWork k u :=
  ⟨fun j hj => (h'.other j hj).trans (h.other j hj), h'.inStep.trans h.inStep, h'.issuedAt.trans h.issuedAt,
    h'.groups.trans h.groups, h'.beat.trans h.beat⟩

theorem State.StreamWork.foldl {α : Type} {k : Nat} {f : State → α → State} (h : ∀ (u : State) x, u.StreamWork k (f u x))
    (l : List α) (s : State) : s.StreamWork k (l.foldl f s) := by
  induction l generalizing s with
  | nil => exact .refl s k
  | cons x l ih => exact (h s x).trans (ih _)

theorem OnlyM.streamWork {m : Nat} {s t : State} (h : OnlyM m s t)
    (e : [Leaf.docCtxs, .docGroups, .fabBeat].all (fun p => !m.testBit p.ctorIdx) = true) (k : Nat) : s.StreamWork k t := by
  simp only [List.all_cons, List.all_nil, Bool.and_true, Bool.and_eq_true, Bool.not_eq_true'] at e
  obtain ⟨hctxs, hgroups, hbeat⟩ := e
  exact ⟨fun j _ => h.ctx hctxs j, by rw [h.ctx hctxs], by rw [h.ctx hctxs],
    by rw [h.doc.groups.resolve_left (fun b => Bool.false_ne_true (hgroups.symm.trans b))],
    h.fab.beat.resolve_left (fun b => Bool.false_ne_true (hbeat.symm.trans b))⟩

theorem State.setCtx_streamWork (s : State) (k : Nat) {x : Ctx} (hin : x.inStep = (s.ctx k).inStep)
    (hat : x.issuedAt = (s.ctx k).issuedAt) : s.StreamWork k (s.setCtx k x) :=
  ⟨fun _ hj => State.setCtx_ctx_ne _ hj, by rwa [State.setCtx_ctx], by rwa [State.setCtx_ctx], rfl, rfl⟩

/-- The end of an operation changes lane groups but not their numbers (R213, R403). -/
theorem State.complete_groupIds (s : State) (unit : Nat) (o : Op) (x : Done) :
    (s.complete unit o x).doc.groups.map (·.id) = s.doc.groups.map (·.id) := by
  have hstart (c : Nat) (b : Bool) : ((if b then s else s.countOverrun o).opEvent unit c o x.st).doc.groups = s.doc.groups := by
    rw [State.opEvent_doc_groups]
    split
    · rfl
    · exact (State.countOverrun_only (a1 := o) (.refl _ s) (Nat.or_self _)).doc.groups.resolve_left (by decide)
  unfold State.complete
  extract_lets refused u
  split
  · rw [State.settleFence_doc_groups, State.recordOp_doc_groups, hstart]
  · rw [← hstart _ _]
    simp only [List.map_map]
    exact List.map_congr_left (fun l _ => by rw [Function.comp_apply]; split <;> rfl)

theorem State.complete_streamWork (s : State) (unit : Nat) (o : Op) (x : Done) (k : Nat) : s.StreamWork k (s.complete unit o x) :=
  ⟨fun _ _ => State.complete_ctx .., by rw [State.complete_ctx], by rw [State.complete_ctx], s.complete_groupIds unit o x,
    State.complete_fab_beat ..⟩

theorem State.completeAll_streamWork (s : State) (ops : List Op) (k : Nat) : s.StreamWork k (s.completeAll ops) :=
  .foldl (fun u o => u.complete_streamWork _ o _ k) ops s

theorem State.writeAnswer_streamWork (s : State) (k kind token pos : Nat) (st : Status) (prob rank : Nat) :
    s.StreamWork k (s.writeAnswer k kind token pos st prob rank) := by
  obtain ⟨hself, hother, -⟩ := s.writeAnswer_spec k kind token pos st prob rank
  have honly := State.writeAnswer_only (a1 := k) (a2 := kind) (a3 := token) (a4 := pos) (a5 := st) (a6 := prob) (a7 := rank)
    (.refl _ s) (Nat.or_self _)
  exact ⟨hother, by rw [hself], by rw [hself], congrArg _ (honly.doc.groups.resolve_left (by decide)),
    honly.fab.beat.resolve_left (by decide)⟩

theorem State.notice_streamWork (s : State) (k : Nat) (st : Status) : s.StreamWork k (s.notice k st) := by
  unfold State.notice
  split
  · exact s.writeAnswer_streamWork ..
  · exact (State.count_only (.refl _ s) (Nat.or_self _)).streamWork (by decide) k

theorem State.endRecord_streamWork (s : State) (k : Nat) (st : Status) (ops : List Op) :
    s.StreamWork k (s.endRecord k st ops) := by
  unfold State.endRecord
  split
  · exact (s.writeAnswer_streamWork ..).trans (State.completeAll_streamWork ..)
  · exact s.setCtx_streamWork k rfl rfl

theorem State.discardAppends_streamWork (s : State) (k before : Nat) : s.StreamWork k (s.discardAppends k before) := by
  unfold State.discardAppends
  extract_lets gone n x s1
  have hs1 : s.StreamWork k s1 := s.setCtx_streamWork k rfl rfl
  refine hs1.trans (.foldl (fun u a => ?_) gone s1)
  exact ((State.dropAppend_only (.refl _ u) (Nat.or_self _)).streamWork (by decide) k).trans (State.complete_streamWork ..)

theorem State.flushAppends_streamWork (s : State) (k fuel : Nat) : s.StreamWork k (s.flushAppends k fuel) := by
  induction fuel generalizing s with
  | zero => exact .refl s k
  | succ fuel ih =>
    rw [State.flushAppends]
    split
    · exact .refl s k
    · extract_lets x held src first
      split
      · exact .refl s k
      · split
        · exact .refl s k
        · extract_lets upd s1 s2
          have hs2 : s.StreamWork k s2 := by
            have hs1 : s.StreamWork k s1 := ⟨fun _ _ => rfl, rfl, rfl, rfl, rfl⟩
            unfold s2
            split
            · exact hs1.trans ((State.draw_only (.refl _ s1) (Nat.or_self _)).streamWork (by decide) k)
            · exact hs1
          refine State.StreamWork.trans (hs2.trans ?_) (ih _)
          exact s2.setCtx_streamWork k hs2.inStep.symm hs2.issuedAt.symm

theorem State.cancelEffect_streamWork (s : State) (c : StreamCmd) : s.StreamWork c.stream (s.cancelEffect c) := by
  unfold State.cancelEffect
  extract_lets k idle s1 src s2 x s3 s4
  have hs2 : s.StreamWork k s2 := (s.discardAppends_streamWork k c.op.id).trans ⟨fun _ _ => rfl, rfl, rfl, rfl, rfl⟩
  have hs3 : s.StreamWork k s3 := hs2.trans (s2.setCtx_streamWork k rfl rfl)
  have hs4 : s.StreamWork k s4 := by
    unfold s4
    split
    · exact hs3.trans (State.completeAll_streamWork ..)
    · exact hs3.trans (State.endRecord_streamWork ..)
  exact hs4.trans (State.flushAppends_streamWork ..)

theorem State.releaseCancel_streamWork (s : State) (k : Nat) : s.StreamWork k (s.releaseCancel k) := by
  unfold State.releaseCancel
  extract_lets s1
  have hs1 : s.StreamWork k s1 := s.discardAppends_streamWork k s.nextOp
  refine State.StreamWork.trans (hs1.trans ?_) (State.endRecord_streamWork ..)
  exact s1.setCtx_streamWork k rfl rfl

theorem State.takeCancels_streamWork (s : State) (k fuel : Nat) : s.StreamWork k (s.takeCancels k fuel) := by
  induction fuel generalizing s with
  | zero => exact .refl s k
  | succ fuel ih =>
    rw [State.takeCancels]
    split
    · exact .refl s k
    · split
      · next c hc =>
        split
        · exact .refl s k
        · have hstream : c.stream = k := beq_iff_eq.mp (List.find?_some (p := fun c : StreamCmd => c.stream == k) hc)
          exact (hstream ▸ s.cancelEffect_streamWork c).trans (ih _)
      · split
        · exact s.releaseCancel_streamWork k
        · exact .refl s k

theorem State.issueBeat_congr {s t : State} (h : t.fab.beat = s.fab.beat) : t.issueBeat = s.issueBeat := by
  unfold State.issueBeat State.beatOff State.beat
  rw [h]

/-- A member's records written: its stream is out of its step, with the beat in which they were issued, no other context has changed
and no lane group is new (R206, R208 to R210). -/
theorem State.stepRecords_spec (s : State) (r : HeldRecord) (prefill : Bool) (first last : List Op) :
    ((s.stepRecords r prefill first last).ctx r.stream).inStep = false ∧
    ((s.stepRecords r prefill first last).ctx r.stream).issuedAt = s.issueBeat ∧
    (∀ j, j ≠ r.stream → (s.stepRecords r prefill first last).ctx j = s.ctx j) ∧
    (s.stepRecords r prefill first last).doc.groups.map (·.id) = s.doc.groups.map (·.id) := by
  unfold State.stepRecords
  extract_lets k settled s1 x ended s2 s3 s4 src s5 s6
  have hs1 : s.StreamWork k s1 := by
    refine State.StreamWork.trans ?_ (State.completeAll_streamWork ..)
    split
    · exact .refl s k
    · exact s.notice_streamWork ..
  have hs2 : s.StreamWork k s2 := by
    unfold s2
    split
    · exact hs1.trans (s1.setCtx_streamWork k rfl rfl)
    · exact (hs1.trans (s1.writeAnswer_streamWork ..)).trans (State.setCtx_streamWork _ k rfl rfl)
  have hs4 : s.StreamWork k s4 := by
    have hs3 : s.StreamWork k s3 := hs2.trans (s2.completeAll_streamWork ..)
    unfold s4
    split
    · exact hs3
    · exact hs3.trans (s3.endRecord_streamWork ..)
  have hafter : s5.StreamWork k (s6.flushAppends k (s6.doc.appends.length + 1)) :=
    (s5.takeCancels_streamWork ..).trans (s6.flushAppends_streamWork ..)
  have hleft : s5.ctx k = { s4.ctx k with inStep := false, issuedAt := s4.issueBeat } := State.setCtx_ctx _
  refine ⟨hafter.inStep.trans ?_, hafter.issuedAt.trans ?_, fun j hj => ?_, hafter.groups.trans hs4.groups⟩
  · rw [hleft]
  · rw [hleft, State.issueBeat_congr hs4.beat]
  · rw [hafter.other j hj, ← hs4.other j hj]
    exact State.setCtx_ctx_ne s4 hj

/-! ### The end of a step -/

theorem State.stepPrompt_streamWork (s : State) (k n : Nat) : s.StreamWork k (s.stepPrompt k n).1 := by
  unfold State.stepPrompt
  extract_lets x r keep s1
  have hs1 : s.StreamWork k s1 := s.setCtx_streamWork k rfl rfl
  exact hs1.trans ⟨fun _ _ => rfl, rfl, rfl, rfl, rfl⟩

/-- A member's share of a step: its stream's map and prompt advance (R181, R216). -/
theorem State.memberEnd_spec (s : State) (g : LaneGroup) (m : Member) :
    s.StreamWork m.stream (s.memberEnd g m).1 ∧
    (s.memberEnd g m).1.kvMap m.stream = (s.kvMap m.stream).advance m.tokens ∧
    ∀ k, k ≠ m.stream → (s.memberEnd g m).1.kvMap k = s.kvMap k := by
  unfold State.memberEnd
  extract_lets k gives s1 p s2 free v s3 pos gen go
  let u := s.setKvMap k ((s.kvMap k).advance m.tokens)
  have hs1 : OnlyM (mask [.curFrames]) u s1 := OnlyM.foldl (.refl _ u) (fun w _ => State.returnFrame_only (.refl _ w) (by decide))
  have hs2 : OnlyM (mask [.curFrames, .docCtxs, .docAppends]) u s2 ∧ s.StreamWork k s2 := by
    have hwork : s.StreamWork k s1 :=
      ((State.setKvMap_only (.refl _ s) (Nat.or_self _)).streamWork (by decide) k).trans (hs1.streamWork (by decide) k)
    have honly := OnlyM.step (.refl (mask [.curFrames, .docCtxs, .docAppends]) u) hs1 (by decide)
    unfold s2 p
    split
    · exact ⟨(State.stepPrompt_only honly (by decide)).fst, hwork.trans (s1.stepPrompt_streamWork k m.tokens)⟩
    · exact ⟨honly, hwork⟩
  have hs3 : OnlyM (mask [.curFrames, .docCtxs, .docAppends, .free]) u s3 ∧ s.StreamWork k s3 := by
    have honly := OnlyM.step (.refl (mask [.curFrames, .docCtxs, .docAppends, .free]) u) hs2.1 (by decide)
    unfold s3
    split
    · exact ⟨State.draw_only honly (by decide),
        hs2.2.trans ((State.draw_only (.refl _ s2) (Nat.or_self _)).streamWork (by decide) k)⟩
    · exact ⟨honly, hs2.2⟩
  refine ⟨hs3.2, (hs3.1.kvMap (by decide) k).trans (State.setKvMap_kvMap s), fun j hj => ?_⟩
  exact (hs3.1.kvMap (by decide) j).trans (State.setKvMap_kvMap_ne s hj)

/-- The state with a member's share of its step ended and its records written (R210). -/
def State.memberOver (s : State) (g : LaneGroup) (m : Member) : State :=
  (s.memberEnd g m).1.stepRecords (s.memberEnd g m).2.1 g.prefill (s.memberEnd g m).2.2.1 (s.memberEnd g m).2.2.2

/-- The stream of a member whose step is over is out of it with the beat of its records, and no other stream's context nor any lane
group's number has changed (R208, R210). -/
theorem State.memberOver_ctx (s : State) (g : LaneGroup) (m : Member) :
    ((s.memberOver g m).ctx m.stream).inStep = false ∧ ((s.memberOver g m).ctx m.stream).issuedAt = s.issueBeat ∧
    (∀ k, k ≠ m.stream → (s.memberOver g m).ctx k = s.ctx k) ∧
    (s.memberOver g m).doc.groups.map (·.id) = s.doc.groups.map (·.id) := by
  obtain ⟨hwork, -, -⟩ := s.memberEnd_spec g m
  obtain ⟨hin, hat, hother, hids⟩ := (s.memberEnd g m).1.stepRecords_spec (s.memberEnd g m).2.1 g.prefill
    (s.memberEnd g m).2.2.1 (s.memberEnd g m).2.2.2
  exact ⟨hin, hat.trans (State.issueBeat_congr hwork.beat), fun k hk => (hother k hk).trans (hwork.other k hk),
    hids.trans hwork.groups⟩

/-- Its map has gained the step's tokens, and no other map has changed (R181). -/
theorem State.memberOver_kvMap (s : State) (g : LaneGroup) (m : Member) :
    (s.memberOver g m).kvMap m.stream = (s.kvMap m.stream).advance m.tokens ∧
    ∀ k, k ≠ m.stream → (s.memberOver g m).kvMap k = s.kvMap k := by
  obtain ⟨-, hself, hother⟩ := s.memberEnd_spec g m
  have hrecords := (State.stepRecords_only (a1 := (s.memberEnd g m).2.1) (a2 := g.prefill) (a3 := (s.memberEnd g m).2.2.1)
    (a4 := (s.memberEnd g m).2.2.2) (.refl _ (s.memberEnd g m).1) (Nat.or_self _)).kvMap (by decide)
  exact ⟨(hrecords _).trans hself, fun k hk => (hrecords k).trans (hother k hk)⟩

/-- The state with a lane group and the copies of its step gone. -/
def State.groupGone (s : State) (gid : Nat) : State :=
  State.dropCows { s with doc := { s.doc with groups := s.doc.groups.filter (fun l => l.id != gid) } } gid

theorem State.laneGroup?_none_iff (s : State) (gid : Nat) : s.laneGroup? gid = none ↔ gid ∉ s.doc.groups.map (·.id) := by
  simp [State.laneGroup?]

theorem State.groupGone_only (s : State) (gid : Nat) : OnlyM (mask [.docGroups, .curCows, .curStaged]) s (s.groupGone gid) :=
  State.dropCows_only (OnlyM.lit_docGroups (.refl _ s) (by decide)) (by decide)

theorem State.groupGone_groups (s : State) (gid : Nat) :
    (s.groupGone gid).doc.groups = s.doc.groups.filter (fun l => l.id != gid) := rfl

/-- A step of one stream outside Carmine: its records are written as it ends (R208, R210). -/
theorem exec_stepComplete_single {gid : Nat} {g : LaneGroup} {m : Member} {s : State} (hrun : s.running = true)
    (hgroup : s.laneGroup? gid = some g) (hover : s.stepOver g = true) (hochre : g.cgroup = none) (hmember : g.members = [m]) :
    exec (.stepComplete gid) s = .next ((s.groupGone gid).memberOver g m) := by
  have hvoid : s.countVoid g = s := by simp [State.countVoid, hochre]
  have hholds : s.holdsRecords g = none := by simp [State.holdsRecords, hochre]
  show execStepComplete gid s = _
  simp only [execStepComplete, hgroup, hvoid, hholds, hmember, List.foldl_cons, List.foldl_nil, List.nil_append]
  rw [if_neg (by simp [hrun, hover])]
  rfl

/-! ### Held records -/

/-- What a table with entries dropped lists under a key, the sorted table lists. -/
theorem Tbl.find_of_find_filter {α : Type} {t : Tbl α} (hsorted : t.sorted = true) {p : Nat × α → Bool} {k : Nat} {v : α}
    (h : Tbl.find (t.filter p) k = some v) : t.find k = some v := by
  induction t with
  | nil => exact h
  | cons e t ih =>
    have habove : Tbl.above t e.1 = true := hsorted
    have hrest := ih (Tbl.sorted_of_above t habove)
    rw [List.filter_cons] at h
    by_cases hk : e.1 = k
    · split at h
      · simpa [Tbl.find, hk] using h
      · have hnone : Tbl.find (t.filter p) k = none := Tbl.find_none _ k (fun x hx => by
          have := Tbl.above_of_mem t habove x (List.mem_filter.mp hx).1
          omega)
        rw [hnone] at h
        cases h
    · have hfind : Tbl.find (t.filter p) k = some v := by
        split at h
        · simpa [Tbl.find, hk] using h
        · exact h
      simpa [Tbl.find, hk] using hrest hfind

/-- With no stream to take out, groups only leave the list (R219). -/
theorem leaveGroups_all (k : Nat) (t : Tbl CGroup) :
    leaveGroups k (fun _ => true) t = t.filter (fun e => !e.2.members.isEmpty || !e.2.held.isEmpty) := by
  simp [leaveGroups]

/-- The state with a Carmine group's held records written (R223). -/
def State.heldWritten (s : State) (l : List HeldRecord) : State := l.foldl (fun s r => s.stepRecords r false [] []) s

/-- Every stream with a record among those written is out of its step, and no other context has changed (R223). -/
theorem State.heldWritten_ctx (s : State) (l : List HeldRecord) :
    (∀ r ∈ l, ((s.heldWritten l).ctx r.stream).inStep = false) ∧
    ∀ k, (∀ r ∈ l, r.stream ≠ k) → (s.heldWritten l).ctx k = s.ctx k := by
  induction l using List.reverseRecOn with
  | nil => exact ⟨fun _ hr => absurd hr List.not_mem_nil, fun _ _ => rfl⟩
  | append_singleton l x ih =>
    obtain ⟨hleft, hsame⟩ := ih
    obtain ⟨hin, -, hother, -⟩ := (s.heldWritten l).stepRecords_spec x false [] []
    have hlast : s.heldWritten (l ++ [x]) = (s.heldWritten l).stepRecords x false [] [] := by simp [State.heldWritten]
    rw [hlast]
    refine ⟨fun r hr => ?_, fun k hk => ?_⟩
    · by_cases hstream : r.stream = x.stream
      · rw [hstream]
        exact hin
      · rw [hother _ hstream]
        refine hleft r ((List.mem_append.mp hr).resolve_right fun h => hstream ?_)
        rw [List.mem_singleton.mp h]
    · rw [hother k (hk x (by simp)).symm]
      exact hsame k (fun r hr => hk r (List.mem_append_left _ hr))

theorem State.heldWritten_cgroups (s : State) (l : List HeldRecord) : (s.heldWritten l).doc.cgroups = s.doc.cgroups :=
  (OnlyM.foldl (.refl _ s) (fun u _ => State.stepRecords_only (.refl _ u) (Nat.or_self _))).doc.cgroups.resolve_left (by decide)

/-- The state with a Carmine group holding no records. -/
def State.heldNone (s : State) (c : Nat) (x : CGroup) : State :=
  { s with doc := { s.doc with cgroups := Tbl.insert s.doc.cgroups c { x with held := [] } } }

/-- The list of Carmine groups without those left empty (R219). -/
def State.groupsKept (s : State) : State :=
  { s with doc := { s.doc with cgroups := leaveGroups 32768 (fun _ => true) s.doc.cgroups } }

theorem exec_carmineRecordRelease {c : Fin 256} {x : CGroup} {s : State} (hrun : s.running = true)
    (hgroup : Tbl.find s.doc.cgroups c.val = some x) (hheld : x.held ≠ []) (hdue : x.heldDue ≤ s.beat) :
    exec (.carmineRecordRelease c) s = .next ((s.heldNone c.val x).heldWritten x.held).groupsKept := by
  show execCarmineRecordRelease c s = _
  simp only [execCarmineRecordRelease, hgroup]
  rw [if_neg (by simp [hrun, hheld, hdue])]
  rfl

end Sys2Proof.Machine

open Sys2Proof Sys2Proof.Machine

/-- Settles O25: the issue of hub, DMA and core operations, the two ways nothing issues, the end of a step, and held records. -/
theorem stepsRun : Obligations.StepsRun := by
  unfold Obligations.StepsRun
  refine ⟨?_, ?_, ?_, ?_, ?_, ?_, ?_⟩
  · intro x hx gid g d ws s hrun hgroup hnext hper hop hunit hgo
    refine ⟨_, exec_issueLine_hub hx gid s hop hunit, ?_⟩
    rw [exec_stepOpIssue ws hrun hgroup hnext hgo, s.issueOp_single hper (by rw [hop]; rfl), State.laneGroup?_id hgroup]
  · intro x hx gid g d ws s hrun hgroup hnext hper hop hgo
    obtain ⟨hexec, hcore⟩ := exec_issueLine_dma hx gid s hop
    refine ⟨_, hexec, ?_⟩
    rw [exec_stepOpIssue ws hrun hgroup hnext hgo, s.issueOp_single hper hcore, State.laneGroup?_id hgroup]
  · intro x hx gid g d ws s hrun hgroup hnext hper hfan hop hgo
    obtain ⟨hexec, hcore⟩ := exec_issueLine_core hx gid s ((fld_fanLine_opcode d 0).trans hop)
    rw [fld_fanLine_opcode] at hcore
    refine ⟨_, hexec, ?_⟩
    rw [exec_stepOpIssue ws hrun hgroup hnext hgo, s.issueOp_fan_one hper hfan hcore, State.laneGroup?_id hgroup]
  · intro gid g ws s hrun hgroup hend
    exact exec_stepOpIssue_writes ws hrun hgroup (.inl (List.getElem?_eq_none hend))
  · intro gid g d s hrun hgroup hnext hbarrier hout
    exact exec_stepOpIssue_writes [] hrun hgroup (.inr ⟨d, hnext, hbarrier, hout⟩)
  · intro gid g m s hrun hgroup hover hochre hmember
    have hgone := s.groupGone_only gid
    obtain ⟨hin, hat, hother, hids⟩ := (s.groupGone gid).memberOver_ctx g m
    obtain ⟨hself, hmaps⟩ := (s.groupGone gid).memberOver_kvMap g m
    refine ⟨_, exec_stepComplete_single hrun hgroup hover hochre hmember, ?_, ?_, hin, ?_, fun k hk => ⟨?_, ?_⟩⟩
    · rw [State.laneGroup?_none_iff, hids, State.groupGone_groups]
      simp
    · rw [hself, hgone.kvMap (by decide)]
      rfl
    · rw [hat, State.issueBeat_congr (hgone.fab.beat.resolve_left (by decide))]
    · rw [hother k hk, hgone.ctx (by decide)]
    · rw [hmaps k hk, hgone.kvMap (by decide)]
  · intro c x s hrun hgroup hheld hdue hsorted
    obtain ⟨hleft, hsame⟩ := (s.heldNone c.val x).heldWritten_ctx x.held
    refine ⟨_, exec_carmineRecordRelease hrun hgroup hheld hdue, fun g hg => ?_, hleft, hsame⟩
    have hlist : ((s.heldNone c.val x).heldWritten x.held).groupsKept.doc.cgroups =
        leaveGroups 32768 (fun _ => true) (Tbl.insert s.doc.cgroups c.val { x with held := [] }) :=
      congrArg (leaveGroups 32768 (fun _ => true)) ((s.heldNone c.val x).heldWritten_cgroups x.held)
    rw [hlist, leaveGroups_all] at hg
    have hfind := Tbl.find_of_find_filter (Tbl.sorted_insert _ _ _ hsorted) hg
    rw [Tbl.find_insert_self] at hfind
    cases hfind
    rfl
end

section
/-! The statements on stream commands: CANCEL, RELEASE and POLICY as they are accepted (R204, R206, R207, R228). -/

namespace Sys2Proof.Machine

/-! ### Records and the Docent's lists -/

/-- A ring's operation in flight that completes after changes its record does not tell of: one record of the ring. -/
theorem State.complete_answered {s u : State} {unit : Nat} {o : Op} {x : Done} {r : RingNo} {i : Word} (horg : o.org = .ring r i)
    (hflight : u.hif.inflight.any (fun p => p.id == o.id) = true) (hhif : u.hif = { s.hif with inflight := u.hif.inflight })
    (hregs : u.regs = s.regs) (hfab : u.fab = s.fab) (hout : u.out = s.out) (hfence : s.fenced r.val = false)
    (hcut : s.cutOff (r.val / 64) = false) :
    s.Answered (u.complete unit o x) r.val
      (s.record r.val (fld o.d 2 15 0) o.opcode x.st.code x.cause x.off x.result i.toNat) := by
  have hfences : u.hif.fences = s.hif.fences := (congrArg HostIf.fences hhif :)
  have hreset : u.hif.inReset = s.hif.inReset := (congrArg HostIf.inReset hhif :)
  have hring : u.ring r.val = s.ring r.val := State.ring_congr (congrArg HostIf.rings hhif :) _
  obtain ⟨⟨hcw, hsent, hint⟩, -⟩ := State.complete_ring (s := u) (unit := unit) (x := x) horg hflight
    ((congrArg (fun l : List Op => l.any _) hfences).trans hfence) ((congrArg (fun l : List Nat => l.contains _) hreset).trans hcut)
  have haddr (n : Word) : u.recordAddr r.val n = s.recordAddr r.val n := by
    simp only [State.recordAddr, State.ringAddr, State.ringSize, State.field, State.written, hregs]
  have hflag : u.flag .hifRcfg [r.val] 19 = s.flag .hifRcfg [r.val] 19 := by
    simp only [State.flag, State.field, State.written, hregs]
  rw [hring] at hcw
  rw [hout, hring, haddr, State.record_congr hring hregs hfab] at hsent
  rw [hflag] at hint
  exact ⟨hcw, hsent, hint⟩

/-- A ring's descriptor that completes as it is accepted, its effect being none its record tells of: one record of the ring. -/
theorem State.accepted_answered {s u : State} {unit : Nat} {r : RingNo} {i : Word} {d : Line64} {opcode : Nat} {x : Done}
    (hhif : u.hif = (s.taken (.ring r i) d opcode).hif) (hregs : u.regs = s.regs) (hfab : u.fab = s.fab)
    (hout : u.out = s.out) (hfence : s.fenced r.val = false) (hcut : s.cutOff (r.val / 64) = false) :
    s.Answered (u.complete unit (s.asOp (.ring r i) d opcode) x) r.val
      (s.record r.val (fld d 2 15 0) opcode x.st.code x.cause x.off x.result i.toNat) := by
  have hanswered := State.complete_answered (unit := unit) (x := x) (State.asOp_org s (.ring r i) d opcode)
    (by rw [hhif, State.taken_ring]; simp) (by rw [hhif]; rfl) hregs hfab hout hfence hcut
  simpa only [State.asOp_d, State.asOp_opcode] using hanswered

/-- Taking an operation in changes nothing of the Docent but what is outstanding in its lane groups (R213). -/
theorem State.taken_doc (s : State) (o : Origin) (d : Line64) (opcode : Nat) :
    (s.taken o d opcode).doc = { s.doc with groups := (s.taken o d opcode).doc.groups } := by
  cases o <;> rfl

/-! ### CANCEL -/

theorem exec_cancel {o : Origin} {d : Line64} {s : State} (h : s.Accepts o d 0x44 cancelChecks) :
    exec (.cancel o d) s = .next ((s.taken o d 0x44).cancelStart (s.asOp o d 0x44)) :=
  congrArg Host.Outcome.next (State.accept_of_accepts h)

/-- A CANCEL of a stream that is IDLE and no FORK names is over as it is accepted (R206). -/
theorem State.cancelStart_idle {s : State} {o : Op} (hidle : s.effState (fld o.d 5 14 0) = .idle)
    (hfork : s.forkBefore (fld o.d 5 14 0) o.id = false) : s.cancelStart o = s.complete (srcHub hubDocent) o { st := .ok } := by
  simp [State.cancelStart, hidle, hfork]

/-- A CANCEL of any other stream joins those that wait, and marks its stream (R206). -/
theorem State.cancelStart_waits {s : State} {o : Op} (hbusy : s.effState (fld o.d 5 14 0) ≠ .idle) :
    s.cancelStart o = State.setCtx { s with doc := { s.doc with
      cancels := s.doc.cancels ++ [{ op := o, stream := fld o.d 5 14 0 }] } } (fld o.d 5 14 0)
        { s.ctx (fld o.d 5 14 0) with cancelPend := true } := by
  have hcond : ¬ ((s.effState (fld o.d 5 14 0) == .idle && !s.forkBefore (fld o.d 5 14 0) o.id) = true) := by simp [hbusy]
  unfold State.cancelStart
  exact if_neg hcond

/-! ### RELEASE -/

theorem exec_release {o : Origin} {d : Line64} {s : State} (h : s.Accepts o d 0x45 releaseChecks) :
    exec (.release o d) s = .next ((s.taken o d 0x45).releaseStart (s.asOp o d 0x45)) :=
  congrArg Host.Outcome.next (State.accept_of_accepts h)

/-- A RELEASE joins those that wait, and its stream alone is RELEASING (R207). -/
theorem State.releaseStart_spec (s : State) (o : Op) :
    (s.releaseStart o).doc.releases = s.doc.releases ++ [{ op := o, stream := fld o.d 5 14 0 }] ∧
    ((s.releaseStart o).ctx (fld o.d 5 14 0)).st = .releasing ∧
    ∀ k, k ≠ fld o.d 5 14 0 → (s.releaseStart o).ctx k = s.ctx k := by
  have hctx (k : Nat) : (s.releaseStart o).ctx k = (s.startRelease (fld o.d 5 14 0)).ctx k := rfl
  refine ⟨rfl, ?_, fun k hk => ?_⟩
  · rw [hctx, State.startRelease, State.setCtx_ctx]
  · rw [hctx, State.startRelease, State.setCtx_ctx_ne _ hk]

/-! ### Generator leases (R228) -/

/-- A key the device chooses has bit [63] set. -/
theorem freshFrom_getLsbD (leased : List (BitVec 64)) (fuel n : Nat) : (freshFrom leased fuel n).getLsbD 63 = true := by
  have hupper (n : Nat) : (BitVec.ofNat 64 (n % 2 ^ 63 + 2 ^ 63)).getLsbD 63 = true := by
    have hlt : n % 2 ^ 63 < 2 ^ 63 := Nat.mod_lt _ (by decide)
    rw [BitVec.getLsbD_ofNat, Nat.add_comm, Nat.testBit_two_pow_add_eq, Nat.testBit_lt_two_pow hlt]
    rfl
  induction fuel generalizing n with
  | zero => exact hupper n
  | succ fuel ih =>
    rw [freshFrom]
    split
    · exact ih _
    · exact hupper n

/-- A request leases the key it names, or one of the upper half where it names none. -/
theorem State.leaseKey_key (s : State) (g k : Nat) (key : BitVec 64) :
    (key ≠ 0 → (s.leaseKey g k key).2 = key) ∧ (key = 0 → (s.leaseKey g k key).2.getLsbD 63 = true) := by
  unfold State.leaseKey
  refine ⟨fun hne => by rw [if_neg hne], fun he => ?_⟩
  rw [if_pos he]
  exact freshFrom_getLsbD ..

/-! ### POLICY -/

theorem exec_policy {o : Origin} {d : Line64} {s : State} (h : s.Accepts o d 0x42 policyChecks) :
    exec (.policy o d) s = .next ((s.taken o d 0x42).policyStart (s.asOp o d 0x42)) :=
  congrArg Host.Outcome.next (State.accept_of_accepts h)

/-- The state in which an accepted POLICY has leased the key it asks for, if that is a new one, and the key (R228). -/
def State.policyKey (s : State) (o : Op) : State × Option (BitVec 64) :=
  if fbit o.d 1 4 && BitVec.ofNat 64 (fld o.d 24 63 0) != s.effKey (fld o.d 5 14 0) then
    let r := s.leaseKey o.gal (fld o.d 5 14 0) (BitVec.ofNat 64 (fld o.d 24 63 0))
    (r.1, some r.2)
  else (s, none)

/-- A POLICY has leased a key exactly where it asks for one other than its stream's, and the one it names (R228). -/
theorem State.policyKey_key (s : State) (o : Op) :
    ((s.policyKey o).2.isSome = true ↔
      fbit o.d 1 4 = true ∧ BitVec.ofNat 64 (fld o.d 24 63 0) ≠ s.effKey (fld o.d 5 14 0)) ∧
    ∀ v, (s.policyKey o).2 = some v → fld o.d 24 63 0 ≠ 0 → v = BitVec.ofNat 64 (fld o.d 24 63 0) := by
  unfold State.policyKey
  split
  · next hasks =>
    rw [Bool.and_eq_true, bne_iff_ne] at hasks
    refine ⟨⟨fun _ => hasks, fun _ => rfl⟩, fun v hv hnamed => ?_⟩
    rw [← Option.some.inj hv]
    exact (s.leaseKey_key ..).1 (fun he => hnamed ((ofNat_fld_eq_zero ..).mp he))
  · next hkeeps =>
    rw [Bool.and_eq_true, bne_iff_ne] at hkeeps
    exact ⟨⟨nofun, fun h => absurd h hkeeps⟩, nofun⟩

/-- A POLICY joins those that wait, with the key it has leased (R204, R228). -/
theorem State.policyStart_policies (s : State) (o : Op) :
    (s.policyStart o).doc.policies = s.doc.policies ++
      [{ op := o, stream := fld o.d 5 14 0, key := (s.policyKey o).2 }] := by
  have hlease : OnlyM (mask [.free]) s (s.policyKey o).1 := by
    unfold State.policyKey
    split
    · exact (State.leaseKey_only (.refl _ s) (by decide)).fst
    · exact .refl _ s
  refine congrArg (· ++ [_]) (OnlyDoc.policies (m := mask [.docCgroups, .free]) ?_ |>.resolve_left (by decide))
  refine OnlyM.doc (OnlyM.ite (State.joinGroup_only ?_ (by decide)) ?_) <;> exact hlease.mono (by decide)

end Sys2Proof.Machine

open Sys2Proof Sys2Proof.Machine

/-- Settles O22: CANCEL of an IDLE stream, CANCEL of any other, RELEASE and POLICY, one after the other. -/
theorem commandsPend : Obligations.CommandsPend := by
  unfold Obligations.CommandsPend
  refine ⟨?_, ?_, ?_, ?_⟩
  · intro r i d s hacc hfence hcut hidle hfork
    refine ⟨_, exec_cancel hacc, ?_⟩
    rw [State.cancelStart_idle (by rwa [State.asOp_d]) (by rwa [State.asOp_d, State.asOp_id])]
    exact (State.taken_complete hfence hcut).1
  · intro o d s hacc hbusy
    refine ⟨_, exec_cancel hacc, ?_⟩
    rw [State.cancelStart_waits (by rwa [State.asOp_d]), State.asOp_d]
    refine ⟨?_, ?_, fun k hk => ?_⟩
    · exact congrArg (· ++ [_]) (congrArg Docent.cancels (s.taken_doc o d 0x44) :)
    · rw [State.setCtx_ctx, State.taken_ctx]
    · exact (State.setCtx_ctx_ne _ hk).trans (s.taken_ctx ..)
  · intro o d s hacc
    obtain ⟨hlist, hst, hothers⟩ := (s.taken o d 0x45).releaseStart_spec (s.asOp o d 0x45)
    simp only [State.asOp_d, State.taken_ctx] at hlist hst hothers
    exact ⟨_, exec_release hacc, hlist.trans (congrArg (· ++ [_]) (congrArg Docent.releases (s.taken_doc o d 0x45) :)), hst, hothers⟩
  · intro o d s hacc
    obtain ⟨hasks, hnamed⟩ := (s.taken o d 0x42).policyKey_key (s.asOp o d 0x42)
    simp only [State.asOp_d, State.taken_effKey] at hasks hnamed
    refine ⟨_, ((s.taken o d 0x42).policyKey (s.asOp o d 0x42)).2, exec_policy hacc, ?_, hasks, hnamed, fun k => ?_⟩
    · rw [State.policyStart_policies, State.asOp_d, s.taken_doc]
    · exact ((State.policyStart_only (.refl _ _) (Nat.or_self _)).ctx (by decide) k).trans (s.taken_ctx ..)
end

section
/-! The statements on streams: STREAM_ADMIT as it is accepted (R202, R228). -/

namespace Sys2Proof.Machine

/-! ### Acceptance of a STREAM_ADMIT -/

/-- The state in which a STREAM_ADMIT has leased its key, and the key (R228). -/
def State.admitLease (s : State) (o : Op) : State × BitVec 64 :=
  s.leaseKey o.gal (fld o.d 5 14 0) (BitVec.ofNat 64 (fld o.d 24 63 0))

/-- The context R202 gives an admitted stream, before a Carmine one has its group. -/
def State.admitCtx (s : State) (o : Op) : Ctx :=
  { st := .idle, cls := fld o.d 4 1 0, gal := o.gal, prog := fld o.d 8 7 0, period := fld o.d 10 15 0
    root := BitVec.ofNat 32 (s.headerLine (fld o.d 5 14 0)), maxTok := fld o.d 32 31 0, topP := 0x3F800000
    topK := (s.prog (fld o.d 8 7 0)).topkMax, gkey := (s.admitLease o).2, ring := fld o.d 16 63 0, rlog2 := fld o.d 9 4 0
    msix := fld o.d 36 15 0 }

/-- The state with an admitted stream's context and empty map (R202). -/
def State.admitMapped (s : State) (o : Op) : State :=
  ((s.admitLease o).1.setCtx (fld o.d 5 14 0) (s.admitCtx o)).setKvMap (fld o.d 5 14 0)
    ((s.prog (fld o.d 8 7 0)).mapOf (fld o.d 12 10 0) (fld o.d 14 10 0))

/-- The state with an admitted stream, in its group where it is a Carmine one (R219). -/
def State.admitted (s : State) (o : Op) : State :=
  if fld o.d 4 1 0 = 0 then
    let u := (s.admitMapped o).joinGroup (fld o.d 5 14 0) o.gal (fld o.d 8 7 0) (fld o.d 10 15 0)
    u.setCtx (fld o.d 5 14 0)
      { s.admitCtx o with cgroup := (u.groupOf (fld o.d 5 14 0) (fld o.d 8 7 0) (fld o.d 10 15 0)).getD 0 }
  else s.admitMapped o

theorem exec_streamAdmit {o : Origin} {d : Line64} {s : State} (h : s.Accepts o d 0x40 admitChecks) :
    exec (.streamAdmit o d) s =
      .next (((s.taken o d 0x40).admitted (s.asOp o d 0x40)).complete (srcHub hubDocent) (s.asOp o d 0x40) { st := .ok }) :=
  congrArg Host.Outcome.next (State.accept_of_accepts h)

theorem State.admitLease_only (s : State) (o : Op) : OnlyM (mask [.free]) s (s.admitLease o).1 :=
  (State.leaseKey_only (.refl _ s) (Nat.or_self _)).fst

theorem State.admitMapped_only (s : State) (o : Op) : OnlyM (mask [.docCtxs, .curMaps, .free]) s (s.admitMapped o) :=
  State.setKvMap_only (State.setCtx_only ((s.admitLease_only o).mono (by decide)) (by decide)) (by decide)

theorem State.admitted_only (s : State) (o : Op) :
    OnlyM (mask [.docCtxs, .docCgroups, .curMaps, .free]) s (s.admitted o) := by
  have hmapped := (s.admitMapped_only o).mono (m := mask [.docCtxs, .docCgroups, .curMaps, .free]) (by decide)
  exact OnlyM.ite (State.setCtx_only (State.joinGroup_only hmapped (by decide)) (by decide)) hmapped

/-- The admitted stream has its context, a Carmine one with the number of its group, and no other context changes. -/
theorem State.admitted_ctx (s : State) (o : Op) :
    (∃ g, (s.admitted o).ctx (fld o.d 5 14 0) = { s.admitCtx o with cgroup := g }) ∧
    ∀ k, k ≠ fld o.d 5 14 0 → (s.admitted o).ctx k = s.ctx k := by
  have hmapped (k : Nat) : (s.admitMapped o).ctx k = ((s.admitLease o).1.setCtx (fld o.d 5 14 0) (s.admitCtx o)).ctx k :=
    State.setKvMap_ctx ..
  have hothers (k : Nat) (hk : k ≠ fld o.d 5 14 0) : (s.admitMapped o).ctx k = s.ctx k :=
    (hmapped k).trans ((State.setCtx_ctx_ne _ hk).trans ((s.admitLease_only o).ctx (by decide) k))
  unfold State.admitted
  split
  · refine ⟨⟨_, State.setCtx_ctx ..⟩, fun k hk => ?_⟩
    rw [State.setCtx_ctx_ne _ hk, (State.joinGroup_only (.refl _ _) (Nat.or_self _)).ctx (by decide), hothers k hk]
  · exact ⟨⟨0, (hmapped _).trans (State.setCtx_ctx ..)⟩, hothers⟩

/-- The admitted stream has an empty map in its program's layout, and no other map changes. -/
theorem State.admitted_kvMap (s : State) (o : Op) :
    (s.admitted o).kvMap (fld o.d 5 14 0) = (s.prog (fld o.d 8 7 0)).mapOf (fld o.d 12 10 0) (fld o.d 14 10 0) ∧
    ∀ k, k ≠ fld o.d 5 14 0 → (s.admitted o).kvMap k = s.kvMap k := by
  have hjoin : OnlyM (mask [.docCtxs, .docCgroups, .free]) (s.admitMapped o) (s.admitted o) :=
    OnlyM.ite (State.setCtx_only (State.joinGroup_only (.refl _ _) (by decide)) (by decide)) (.refl _ _)
  refine ⟨(hjoin.kvMap (by decide) _).trans (State.setKvMap_kvMap ..), fun k hk => ?_⟩
  rw [hjoin.kvMap (by decide), State.admitMapped, State.setKvMap_kvMap_ne _ hk, State.setCtx_kvMap,
    (s.admitLease_only o).kvMap (by decide)]

end Sys2Proof.Machine

open Sys2Proof Sys2Proof.Machine

/-- Settles O20: the record of the STREAM_ADMIT, then the context and the map its stream is left with. -/
theorem streamAdmitted : Obligations.StreamAdmitted := by
  unfold Obligations.StreamAdmitted
  intro r i d s hacc hfence hcut
  let o := s.asOp (.ring r i) d 0x40
  let u := s.taken (.ring r i) d 0x40
  have honly := u.admitted_only o
  obtain ⟨⟨g, hself⟩, hothers⟩ := u.admitted_ctx o
  obtain ⟨hmap, hmaps⟩ := u.admitted_kvMap o
  obtain ⟨hnamed, hfresh⟩ := u.leaseKey_key (r.val / 64) (fld d 5 14 0) (BitVec.ofNat 64 (fld d 24 63 0))
  refine ⟨_, exec_streamAdmit hacc, State.accepted_answered (honly.hif.eq (by decide)) (honly.regs.resolve_left (by decide))
    (honly.fab.eq (by decide)) (honly.out.resolve_left (by decide)) hfence hcut, ?_⟩
  simp only [State.complete_ctx, State.complete_kvMap]
  change (u.admitted o).ctx (fld d 5 14 0) = _ at hself
  refine ⟨?_, fun hk => ?_, fun hk => ?_, hmap, fun k hk => ⟨hothers k hk, hmaps k hk⟩⟩
  · rw [hself]
    rfl
  · rw [hself]
    exact hnamed (fun he => hk ((ofNat_fld_eq_zero ..).mp he))
  · rw [hself]
    exact hfresh ((ofNat_fld_eq_zero ..).mpr hk)
end

section
/-! The statements on streams: APPEND and the tokens it brings (R203). -/

namespace Sys2Proof.Machine

/-! ### Acceptance of an APPEND -/

theorem exec_append {o : Origin} {d : Line64} {s : State} (h : s.Accepts o d 0x41 appendChecks) :
    exec (.append o d) s = .next ((s.taken o d 0x41).appendStart (s.asOp o d 0x41)) :=
  congrArg Host.Outcome.next (State.accept_of_accepts h)

theorem State.hostRead_out {s : State} {func : Nat} (what : HostRead) (addr len : Nat) (h : s.cutOff func = false) :
    (s.hostRead func what addr len).out = s.out ++ [.hostRead func what addr len] := by
  simp [State.hostRead, h]

/-- A ring's APPEND stands at the end of the APPENDs, and its token array is asked for (R203). -/
theorem State.appendStart_ring {s : State} {o : Op} {r : RingNo} {i : Word} (horg : o.org = .ring r i)
    (hcut : s.cutOff o.gal = false) :
    (s.appendStart o).doc.appends = s.doc.appends ++ [
      { op := o, stream := fld o.d 5 14 0, go := fbit o.d 1 0, count := fld o.d 16 14 0
        vocab := (s.prog (s.effPolicy (fld o.d 5 14 0)).1).vocab }] ∧
    (s.appendStart o).out = s.out ++ [.hostRead o.gal (.appendTokens r i) (fld o.d 8 63 0) (4 * fld o.d 16 14 0)] := by
  unfold State.appendStart
  simp only [horg]
  exact ⟨(State.hostRead_only (.refl _ _) (Nat.or_self _)).doc.appends.resolve_left (by decide), State.hostRead_out _ _ _ hcut⟩

/-! ### Tokens that join a prompt -/

/-- The state in which the tokens of a stream's APPEND have joined its prompt, and the stream is in PREFILL (R201, R203). -/
def State.joinTokens (s : State) (k : Nat) (a : AppendRec) (ts : List (BitVec 24)) : State :=
  let x := s.ctx k
  let u : State := { s with doc := { s.doc with
    appends := s.doc.appends.map (fun b => if b.op.id = a.op.id then { b with left := some ts.length } else b) } }
  (if x.pending = 0 then u.draw 1 else u).setCtx k { x with
    st := .prefill, prompt := x.prompt ++ ts, pending := x.pending + ts.length
    pqHead := if x.pending = 0 then BitVec.ofNat 32 (Config.freeNat s.free % 4194304) else x.pqHead }

/-- From one state to the other a stream has come into PREFILL with some tokens more in its prompt, and no other stream has
changed. -/
structure State.GainsTokens (s : State) (k : Nat) (ts : List (BitVec 24)) (t : State) : Prop where
  st : (t.ctx k).st = .prefill
  prompt : (t.ctx k).prompt = (s.ctx k).prompt ++ ts
  pending : (t.ctx k).pending = (s.ctx k).pending + ts.length
  other : ∀ j, j ≠ k → t.ctx j = s.ctx j

theorem State.GainsTokens.refl {s : State} {k : Nat} (h : (s.ctx k).st = .prefill) : s.GainsTokens k [] s :=
  ⟨h, (List.append_nil _).symm, rfl, fun _ _ => rfl⟩

theorem State.GainsTokens.trans {s t u : State} {k : Nat} {ts more : List (BitVec 24)} (h : s.GainsTokens k ts t)
    (h' : t.GainsTokens k more u) : s.GainsTokens k (ts ++ more) u :=
  ⟨h'.st, by rw [h'.prompt, h.prompt, List.append_assoc], by rw [h'.pending, h.pending, List.length_append, Nat.add_assoc],
    fun j hj => (h'.other j hj).trans (h.other j hj)⟩

theorem State.joinTokens_gains (s : State) (k : Nat) (a : AppendRec) (ts : List (BitVec 24)) :
    s.GainsTokens k ts (s.joinTokens k a ts) := by
  have hself : (s.joinTokens k a ts).ctx k = { s.ctx k with
      st := .prefill, prompt := (s.ctx k).prompt ++ ts, pending := (s.ctx k).pending + ts.length
      pqHead := if (s.ctx k).pending = 0 then BitVec.ofNat 32 (Config.freeNat s.free % 4194304) else (s.ctx k).pqHead } :=
    State.setCtx_ctx ..
  refine ⟨by rw [hself], by rw [hself], by rw [hself], fun j hj => ?_⟩
  refine (State.setCtx_ctx_ne _ hj).trans ?_
  split <;> rfl

/-- Arrays that are back join the prompt of a stream that takes them, in order, and what else it has taken follows (R201). -/
theorem State.flushAppends_gains (k fuel : Nat) {s : State} (h : (s.ctx k).st = .prefill) :
    ∃ more, s.GainsTokens k more (s.flushAppends k fuel) := by
  induction fuel generalizing s with
  | zero => exact ⟨[], .refl h⟩
  | succ fuel ih =>
    rw [State.flushAppends]
    split
    · exact ⟨[], .refl h⟩
    · next a _ =>
      extract_lets x held
      split
      · exact ⟨[], .refl h⟩
      · next ts _ =>
        split
        · exact ⟨[], .refl h⟩
        · have hjoin := s.joinTokens_gains k a ts
          obtain ⟨more, hmore⟩ := ih hjoin.st
          exact ⟨ts ++ more, hjoin.trans hmore⟩

/-- The first array of a stream that takes its tokens joins the prompt where it is back (R201, R203). -/
theorem State.flushAppends_first {s : State} {k : Nat} {a : AppendRec} {ts : List (BitVec 24)} (fuel : Nat)
    (hfirst : (s.appendsOf k).find? (fun b => b.left.isNone) = some a) (hdata : a.data = some ts)
    (hcancel : s.lastCancel k = none) (hst : (s.ctx k).st = .idle ∨ (s.ctx k).st = .prefill) :
    s.flushAppends k (fuel + 1) = (s.joinTokens k a ts).flushAppends k fuel := by
  have htakes : ((s.ctx k).st == .idle || (s.ctx k).st == .prefill) = true := by rcases hst with h | h <;> rw [h] <;> rfl
  rw [State.flushAppends]
  simp only [hfirst, hdata, hcancel, htakes]
  rfl

/-- With no APPEND of a stream left none of its arrays joins. -/
theorem State.flushAppends_none {s : State} {k : Nat} (fuel : Nat) (h : s.appendsOf k = []) : s.flushAppends k fuel = s := by
  cases fuel with
  | zero => rfl
  | succ fuel => rw [State.flushAppends, h]; rfl

/-! ### APPEND_TOKENS_READ_DONE -/

/-- The record of an APPEND with the tokens that are back, where it is the one asked for. -/
def AppendRec.withTokens (a : AppendRec) (ts : List (BitVec 24)) (b : AppendRec) : AppendRec :=
  if b.op.id = a.op.id then { b with data := some ts } else b

/-- The state with the token array of an APPEND back (R203). -/
def State.tokensBack (s : State) (a : AppendRec) (ts : List (BitVec 24)) : State :=
  { s with doc := { s.doc with appends := s.doc.appends.map (a.withTokens ts) } }

/-- What is back of an array changes neither its stream nor how much of it has joined the prompt. -/
theorem State.tokensBack_find (s : State) (a : AppendRec) (ts : List (BitVec 24)) (k : Nat) :
    ((s.tokensBack a ts).appendsOf k).find? (fun b => b.left.isNone) =
      ((s.appendsOf k).find? (fun b => b.left.isNone)).map (a.withTokens ts) := by
  have hstream (b : AppendRec) : (a.withTokens ts b).stream = b.stream := by unfold AppendRec.withTokens; split <;> rfl
  have hleft (b : AppendRec) : (a.withTokens ts b).left = b.left := by unfold AppendRec.withTokens; split <;> rfl
  unfold State.appendsOf State.tokensBack
  simp only [List.filter_map, List.find?_map, Function.comp_def, hstream, hleft]

/-- An array with every token below VOCAB is back (R203). -/
theorem exec_appendTokensReadDone_good {r : RingNo} {i : Word} {ts : List Word} {a : AppendRec} {s : State}
    (hrun : s.running = true) (hask : s.doc.appends.find? (fun b => decide (b.op.org = .ring r i) && b.data.isNone) = some a)
    (hlen : a.count ≤ ts.length) (hgood : ∀ x ∈ ts.take a.count, x.toNat < a.vocab) :
    exec (.appendTokensReadDone r i ts) s = .next ((s.tokensBack a ((ts.take a.count).map (fun x => x.setWidth 24))).flushAppends
      a.stream (s.doc.appends.length + 1)) := by
  have hwhole : ¬ ((ts.take a.count).length < a.count) := by rw [List.length_take, Nat.min_eq_left hlen]; exact Nat.lt_irrefl _
  have hbelow : (ts.take a.count).any (fun t => decide (a.vocab ≤ t.toNat)) = false :=
    List.any_eq_false.mpr (fun x hx => by simpa using hgood x hx)
  show execAppendTokensReadDone r i ts s = _
  simp only [execAppendTokensReadDone, hask, hrun, hwhole, hbelow]
  rfl

/-- An array with a token at or above VOCAB is back: its APPEND is refused whole (R203). -/
theorem exec_appendTokensReadDone_bad {r : RingNo} {i : Word} {ts : List Word} {a : AppendRec} {s : State}
    (hrun : s.running = true) (hask : s.doc.appends.find? (fun b => decide (b.op.org = .ring r i) && b.data.isNone) = some a)
    (hlen : a.count ≤ ts.length) (hbad : ∃ x ∈ ts.take a.count, a.vocab ≤ x.toNat) :
    exec (.appendTokensReadDone r i ts) s = .next (((s.dropAppend a.op.id).complete (srcHub hubDocent) a.op
      { st := .badDescriptor, cause := 5, off := 8 }).flushAppends a.stream (s.doc.appends.length + 1)) := by
  have hwhole : ¬ ((ts.take a.count).length < a.count) := by rw [List.length_take, Nat.min_eq_left hlen]; exact Nat.lt_irrefl _
  have habove : (ts.take a.count).any (fun t => decide (a.vocab ≤ t.toNat)) = true := by simpa using hbad
  show execAppendTokensReadDone r i ts s = _
  simp only [execAppendTokensReadDone, hask, hrun, hwhole, habove]
  rfl

/-- Without its one APPEND a stream has none. -/
theorem State.dropAppend_appendsOf {s : State} {k : Nat} {a : AppendRec} (h : s.appendsOf k = [a]) :
    (s.dropAppend a.op.id).appendsOf k = [] := by
  have hcomm : (s.dropAppend a.op.id).appendsOf k = (s.appendsOf k).filter (fun b => b.op.id != a.op.id) := by
    simp only [State.appendsOf, State.dropAppend, List.filter_filter, Bool.and_comm]
  rw [hcomm, h]
  simp

end Sys2Proof.Machine

open Sys2Proof Sys2Proof.Machine

/-- Settles O21: an APPEND accepted, its array back with good tokens, and its array back with a bad one. -/
theorem appendTaken : Obligations.AppendTaken := by
  unfold Obligations.AppendTaken
  refine ⟨?_, ?_, ?_⟩
  · intro r i d s hacc hcut
    obtain ⟨hlist, hout⟩ := State.appendStart_ring (s := s.taken (.ring r i) d 0x41) (State.asOp_org s (.ring r i) d 0x41) hcut
    simp only [State.asOp_d] at hlist hout
    exact ⟨_, exec_append hacc, hlist, hout⟩
  · intro r i ts a s hrun hask hfirst hlen hgood hcancel hst
    let w := (ts.take a.count).map (fun x => x.setWidth 24)
    have hcount : w.length = a.count := by simp [w, Nat.min_eq_left hlen]
    have hback : ((s.tokensBack a w).appendsOf a.stream).find? (fun b => b.left.isNone) = some { a with data := some w } := by
      rw [s.tokensBack_find, hfirst, Option.map_some, AppendRec.withTokens, if_pos rfl]
    have hjoin := (s.tokensBack a w).joinTokens_gains a.stream { a with data := some w } w
    obtain ⟨more, hmore⟩ := State.flushAppends_gains a.stream s.doc.appends.length hjoin.st
    obtain ⟨hprefill, hprompt, hpending, hother⟩ := hjoin.trans hmore
    refine ⟨_, more, exec_appendTokensReadDone_good hrun hask hlen hgood, ?_⟩
    rw [State.flushAppends_first _ hback rfl hcancel hst]
    refine ⟨hprefill, hprompt.trans (List.append_assoc ..).symm, ?_, hother⟩
    rw [hpending, List.length_append, hcount, Nat.add_assoc]
    rfl
  · intro r i ts a s hrun hask honly hlen hbad hflight hfence hcut
    have horg : a.op.org = .ring r i := by
      have := List.find?_some hask
      simp only [Bool.and_eq_true, decide_eq_true_eq] at this
      exact this.1
    refine ⟨_, exec_appendTokensReadDone_bad hrun hask hlen hbad, ?_⟩
    rw [State.flushAppends_none]
    · exact ⟨(State.complete_only (.refl _ _) (Nat.or_self _)).doc.ctxs.resolve_left (by decide),
        State.complete_answered (s := s) (u := s.dropAppend a.op.id) horg hflight rfl rfl rfl rfl hfence hcut⟩
    · rw [State.appendsOf, State.complete_doc_appends]
      exact State.dropAppend_appendsOf honly
end

section
/-! The statements on step programs: PROG_LOAD of an image and of address 0 (R211, R332). -/

namespace Sys2Proof.Machine

/-! ### Pins and program slots -/

/-- An object that gains or loses a pin (R332). -/
def Obj.pinned (x : Obj) (up : Bool) : Obj := { x with pins := if up then x.pins + 1 else x.pins - 1 }

theorem State.pinObj_obj? {s : State} {n : Nat} {x : Obj} (h : s.obj? n = some x) (up : Bool) :
    (s.pinObj n up).obj? n = some (x.pinned up) := by
  unfold State.pinObj
  rw [h]
  exact Tbl.find_insert_self ..

/-- The state with a table of programs. -/
def State.withProgs (s : State) (t : Tbl Prog) : State := { s with doc := { s.doc with progs := t } }

/-- The completion of a PROG_LOAD leaves the programs and the objects. -/
theorem State.complete_withProgs (s : State) (t : Tbl Prog) (unit : Nat) (o : Op) (x : Done) (n : Nat) :
    ((s.withProgs t).complete unit o x).doc.progs = t ∧ ((s.withProgs t).complete unit o x).obj? n = s.obj? n := by
  refine ⟨(State.complete_only (.refl _ (s.withProgs t)) (Nat.or_self _)).doc.progs.resolve_left (by decide), ?_⟩
  rw [State.obj?, State.complete_tiers]
  rfl

/-- A PROG_LOAD whose effect changes nothing but programs and pins: one record with OK. -/
theorem State.withProgs_answered {s u : State} {r : RingNo} {i : Word} {d : Line64} (t : Tbl Prog)
    (h : OnlyM (mask [.tiersObjs]) (s.taken (.ring r i) d 0x46) u) (hfence : s.fenced r.val = false)
    (hcut : s.cutOff (r.val / 64) = false) :
    s.Answered ((u.withProgs t).complete (srcHub hubDocent) (s.asOp (.ring r i) d 0x46) { st := .ok }) r.val
      (s.record r.val (fld d 2 15 0) 0x46 Status.ok.code 0 0 0 i.toNat) :=
  State.accepted_answered (h.hif.eq (by decide)) (h.regs.resolve_left (by decide)) (h.fab.eq (by decide))
    (h.out.resolve_left (by decide)) hfence hcut

/-! ### PROG_LOAD -/

theorem exec_progLoad {o : Origin} {d : Line64} {img : Bytes} {s u : State} {rd : Option ImageRead}
    (hread : (if s.readsImage o d then s.readImage (fld d 16 47 0) img else (s, none)) = (u, rd))
    (h : u.Accepts o d 0x46 (progChecks rd)) :
    exec (.progLoad o d img) s = .next (State.progStart rd (u.taken o d 0x46) (u.asOp o d 0x46)) := by
  show Host.Outcome.next (s.acceptProgLoad o d img) = _
  unfold State.acceptProgLoad
  rw [hread]
  exact congrArg Host.Outcome.next (State.accept_of_accepts h)

/-- An image in order goes into its slot, and its object is pinned (R211, R332). -/
theorem State.progStart_loads {s : State} {o : Op} {im : ImageRead} {p : Prog} (haddr : progAddr o ≠ 0) (hwhole : im.short = false)
    (hparse : s.parseProg im.img im.obj = some p) :
    State.progStart (some im) s o = ((s.pinObj im.obj true).withProgs
      (Tbl.insert (s.pinObj im.obj true).doc.progs (progSlot o) p)).complete (srcHub hubDocent) o { st := .ok } := by
  simp only [State.progStart, if_neg haddr, hwhole, hparse]
  rfl

/-- The state in which the object of a slot's program, if it holds one, has lost the pin of it (R332). -/
def State.unpinSlot (s : State) (slot : Nat) : State :=
  match s.prog? slot with
  | none => s
  | some p => s.pinObj p.obj false

theorem State.unpinSlot_only (s : State) (slot : Nat) : OnlyM (mask [.tiersObjs]) s (s.unpinSlot slot) := by
  unfold State.unpinSlot
  split
  · exact .refl _ s
  · exact State.pinObj_only (.refl _ s) (Nat.or_self _)

/-- Address 0 empties the slot, and the object its program lay in loses a pin (R211, R332). -/
theorem State.progStart_unloads {s : State} {o : Op} (rd : Option ImageRead) (haddr : progAddr o = 0) :
    State.progStart rd s o = ((s.unpinSlot (progSlot o)).withProgs
      (Tbl.erase (s.unpinSlot (progSlot o)).doc.progs (progSlot o))).complete (srcHub hubDocent) o { st := .ok } := by
  unfold State.progStart
  exact if_pos haddr

end Sys2Proof.Machine

open Sys2Proof Sys2Proof.Machine

/-- Settles O33: the slot, the object and the record of a load, then those of an unload. -/
theorem programsLoad : Obligations.ProgramsLoad := by
  unfold Obligations.ProgramsLoad
  refine ⟨?_, ?_⟩
  · intro r i d img s u im p hreads himage hwhole hacc hparse hfence hcut
    let v := u.taken (.ring r i) d 0x46
    have hread := (State.readImage_only (a1 := fld d 16 47 0) (a2 := img) (.refl _ s) (Nat.or_self _)).fst
    rw [himage] at hread
    have hobj (n : Nat) : v.obj? n = s.obj? n :=
      congrArg (Tbl.find · n) (hread.tiers.objs.resolve_left (by decide))
    have hprogs : (v.pinObj im.obj true).doc.progs = s.doc.progs :=
      ((State.pinObj_only (.refl _ v) (Nat.or_self _)).doc.progs.resolve_left (by decide)).trans
        (hread.doc.progs.resolve_left (by decide))
    have haddr : progAddr (u.asOp (.ring r i) d 0x46) ≠ 0 := by
      unfold State.readsImage at hreads
      simp only [Bool.and_eq_true, bne_iff_ne] at hreads
      obtain ⟨⟨⟨⟨-, haddr⟩, -⟩, -⟩, -⟩ := hreads
      exact haddr
    have hdone (n : Nat) := (v.pinObj im.obj true).complete_withProgs (Tbl.insert s.doc.progs (fld d 8 7 0) p)
      (srcHub hubDocent) (u.asOp (.ring r i) d 0x46) { st := .ok } n
    refine ⟨_, exec_progLoad (by rw [if_pos hreads]; exact himage) hacc, ?_⟩
    rw [State.progStart_loads haddr hwhole hparse, hprogs]
    refine ⟨?_, fun k hk => ?_, fun x hx => ?_, State.withProgs_answered _ (State.pinObj_only (.refl _ v) (Nat.or_self _))
      hfence hcut⟩
    · exact (congrArg (Tbl.find · _) (hdone 0).1).trans (Tbl.find_insert_self ..)
    · exact (congrArg (Tbl.find · _) (hdone 0).1).trans (Tbl.find_insert_ne _ _ hk)
    · exact (hdone _).2.trans (State.pinObj_obj? ((hobj _).trans hx) true)
  · intro r i d img s hacc haddr hfence hcut
    let v := s.taken (.ring r i) d 0x46
    have hnoRead : s.readsImage (.ring r i) d = false := by simp [State.readsImage, haddr]
    have hslot : progSlot (s.asOp (.ring r i) d 0x46) = fld d 8 7 0 := rfl
    have hprogs : (v.unpinSlot (fld d 8 7 0)).doc.progs = s.doc.progs :=
      (v.unpinSlot_only _).doc.progs.resolve_left (by decide)
    have hdone (n : Nat) := (v.unpinSlot (fld d 8 7 0)).complete_withProgs (Tbl.erase s.doc.progs (fld d 8 7 0))
      (srcHub hubDocent) (s.asOp (.ring r i) d 0x46) { st := .ok } n
    refine ⟨_, exec_progLoad (by rw [hnoRead]; rfl) hacc, ?_⟩
    rw [State.progStart_unloads none (o := s.asOp (.ring r i) d 0x46) haddr, hslot, hprogs]
    refine ⟨?_, fun k hk => ?_, fun p x hp hx => ?_, State.withProgs_answered _ (v.unpinSlot_only _) hfence hcut⟩
    · exact (congrArg (Tbl.find · _) (hdone 0).1).trans (Tbl.find_erase_self ..)
    · exact (congrArg (Tbl.find · _) (hdone 0).1).trans (Tbl.find_erase_ne _ hk)
    · refine (hdone _).2.trans ?_
      rw [State.unpinSlot, show v.prog? (fld d 8 7 0) = some p from hp]
      exact State.pinObj_obj? (s := v) hx false
end

section
/-! The statements on DMA operations: what a COPY reads from the Curator's table region (R176, R177, R275). -/

namespace Sys2Proof.Machine

/-- A COPY of 64 bytes from byte 0x10000 of the channel of core 0 to host memory. -/
def copyOfTableLine : Line64 := BitVec.ofNat 512 (0x20 + (2 <<< (8 * 8)) + (0x10000 <<< (8 * 16)) + (64 <<< (8 * 40)))

/-- That COPY as a descriptor of ring 0, issued and on channel 255. -/
def tableCopy : DmaOp where
  op := { id := 0, org := .ring 0 0, opcode := opCopy, d := copyOfTableLine, gal := 0, cls := 1, beat := 0 }
  chan := some 255
  issued := true

/-- The device in RUN with its units enabled: the Curator keeps its tables from byte 0x10000 of each channel on, for one frame a
channel, and a read engine has the COPY of the first table line taken up. -/
def tableLineRead : State where
  ctl := { st := .run, bootStep := 5 }
  sec := { st := .run, seeded := true }
  regs := [(0x2000, 1), (0x100000, 1), (0x200000, 1), (0x400000, 1), (0x600004, 1), (0x600008, 0x4000), (0x60000C, 0x10000),
    (0x600010, 17), (0x600014, 1), (0x1000000, 1)]
  dma := { ops := [tableCopy], rdEng := [255] }
  nextOp := 1

/-- The operations a step leaves in the DMA unit, each with byte `i` of every unit it has staged. -/
def stagedBytes (i : Nat) : Host.Outcome State Fault Refusal → List (Nat × List Byte)
  | .next t => t.dma.ops.map (fun y => (y.op.id, y.staged.map (fun u => u.data.getD i 0)))
  | _ => []

/-- The COPY stages the entry of page number 0, whose LINK at byte 12 names page number 1 (R177). -/
theorem stagedBytes_tableCopy : stagedBytes 12 (exec (.dmaUnitReadDone 255 [] []) tableLineRead) = [(0, [1])] := by
  decide +kernel

/-- Nothing is stored in the bytes of that table line. -/
theorem chanRead_tableLine : (tableLineRead.chanRead (tableLineRead.core (Ep.of tableCopy.op.d 8).core).chan
    ((Ep.of tableCopy.op.d 8).addr + tableCopy.rd) (tableLineRead.unitEnd tableCopy.op tableCopy.rd - tableCopy.rd)).getD 12 0 =
      0 := by
  decide +kernel

end Sys2Proof.Machine

open Sys2Proof Sys2Proof.Machine

/-- Refutes O17: a COPY does not always stage what is stored in its source range. From the Curator's table region it reads the
tables as the Curator keeps them (R176, R177), here the LINK of the first free page number where no byte was ever stored. -/
theorem not_dmaRuns : ¬ Obligations.DmaRuns := by
  unfold Obligations.DmaRuns
  rintro ⟨-, -, hcopy, -⟩
  obtain ⟨t, hexec, hread, -⟩ := hcopy 255 [] [] tableLineRead tableLineRead tableCopy rfl (by decide +kernel) (by decide +kernel) rfl
    (by decide +kernel) (by decide +kernel) (by decide +kernel) (by decide +kernel) (by decide +kernel) (by decide +kernel)
    (by decide +kernel)
  have hstaged : t.dma.ops.map (fun y => (y.op.id, y.staged.map (fun u => u.data.getD 12 0))) = [(0, [1])] := by
    rw [← stagedBytes_tableCopy, hexec, stagedBytes]
  obtain ⟨y, hy, hbyte⟩ : ∃ y ∈ t.dma.ops, (y.op.id, y.staged.map (fun u => u.data.getD 12 0)) = (0, [1]) :=
    List.mem_map.mp (by rw [hstaged]; exact List.mem_singleton_self _)
  obtain ⟨hid, hone⟩ := Prod.mk.inj hbyte
  obtain ⟨-, -, hstored⟩ := hread y hy hid
  have hzero : y.staged.map (fun u => u.data.getD 12 0) = [0] := by
    rw [hstored, show tableCopy.staged = [] from rfl, List.nil_append, List.map_singleton, chanRead_tableLine]
  exact absurd (hone.symm.trans hzero) (by decide)
end

section
/-! The statements on the host interface: rings enabled and disabled by a write of HIF_RCFG (R235, R236, R443). -/

namespace Sys2Proof.Machine

/-! ### Bits of a register -/

/-- A field by the bits of its word. -/
theorem testBit_bits (n hi lo i : Nat) : (bits n hi lo).testBit i = (decide (i < hi + 1 - lo) && n.testBit (lo + i)) := by
  rw [bits, Nat.testBit_mod_two_pow, Nat.testBit_div_two_pow, Nat.add_comm i]

/-- A word with one field set, by its bits. -/
theorem testBit_setBits (n v i : Nat) {hi lo : Nat} (h : lo ≤ hi) :
    (setBits n hi lo v).testBit i = if lo ≤ i ∧ i ≤ hi then v.testBit (i - lo) else n.testBit i := by
  obtain ⟨k, rfl⟩ := Nat.exists_eq_add_of_le h
  have hk : lo + k + 1 - lo = k + 1 := by omega
  have hwhole : setBits n (lo + k) lo v =
      2 ^ lo * (2 ^ (k + 1) * (n / 2 ^ lo / 2 ^ (k + 1)) + v % 2 ^ (k + 1)) + n % 2 ^ lo := by
    have hlow := Nat.div_add_mod n (2 ^ lo)
    rw [← Nat.div_add_mod (n / 2 ^ lo) (2 ^ (k + 1)), Nat.mul_add] at hlow
    rw [setBits, bits, hk, Nat.mul_add, Nat.mul_comm _ (2 ^ lo), Nat.mul_comm _ (2 ^ lo)]
    omega
  rw [hwhole, Nat.testBit_two_pow_mul_add _ (Nat.mod_lt _ (Nat.two_pow_pos _)), Nat.testBit_mod_two_pow]
  by_cases hl : i < lo
  · rw [if_pos hl, if_neg (by omega)]
    simp [hl]
  · rw [if_neg hl, Nat.testBit_two_pow_mul_add _ (Nat.mod_lt _ (Nat.two_pow_pos _)), Nat.testBit_mod_two_pow]
    by_cases hm : i - lo < k + 1
    · rw [if_pos hm, if_pos (by omega)]
      simp [hm]
    · rw [if_neg hm, if_neg (by omega), Nat.testBit_div_two_pow, Nat.testBit_div_two_pow]
      congr 1
      omega

/-! ### Fields after a write -/

/-- A field that lies within the field just set. -/
theorem bits_setBits_within (n v : Nat) {hi lo a b : Nat} (hb : lo ≤ b) (hba : b ≤ a) (ha : a ≤ hi) :
    bits (setBits n hi lo v) a b = bits v (a - lo) (b - lo) := by
  refine Nat.eq_of_testBit_eq fun i => ?_
  rw [testBit_bits, testBit_bits, testBit_setBits _ _ _ (by omega), show a - lo + 1 - (b - lo) = a + 1 - b by omega]
  by_cases hin : i < a + 1 - b
  · rw [if_pos (by omega), show b + i - lo = b - lo + i by omega]
  · simp [hin]

/-- A field that lies beside the field just set. -/
theorem bits_setBits_beside (n v : Nat) {hi lo a b : Nat} (h : lo ≤ hi) (hba : b ≤ a) (hd : a < lo ∨ hi < b) :
    bits (setBits n hi lo v) a b = bits n a b := by
  refine Nat.eq_of_testBit_eq fun i => ?_
  rw [testBit_bits, testBit_bits, testBit_setBits _ _ _ h]
  by_cases hin : i < a + 1 - b
  · rw [if_neg (by omega)]
  · simp [hin]

/-- A field of a field. -/
theorem bits_bits (n : Nat) {hi lo a b : Nat} (hba : b ≤ a) (ha : a + lo ≤ hi) :
    bits (bits n hi lo) a b = bits n (a + lo) (b + lo) := by
  refine Nat.eq_of_testBit_eq fun i => ?_
  rw [testBit_bits, testBit_bits, testBit_bits, show a + lo + 1 - (b + lo) = a + 1 - b by omega,
    show lo + (b + i) = b + lo + i by omega]
  by_cases hin : i < a + 1 - b
  · simp [show b + i < hi + 1 - lo by omega]
  · simp [hin]

theorem State.setField_written (s : State) (r : Reg) (idx : List Nat) (hi lo v : Nat) :
    (s.setField r idx hi lo v).written r idx = setBits (s.written r idx) hi lo v % 2 ^ 32 := by
  simp [State.setField, State.written]

theorem State.setField_written_ne (s : State) {r q : Reg} {idx jdx : List Nat} (hi lo v : Nat)
    (h : regOff q jdx ≠ regOff r idx) : (s.setField r idx hi lo v).written q jdx = s.written q jdx :=
  congrArg BitVec.toNat (Tbl.look_put_ne _ _ _ _ h)

/-- A field of a register in which a field around it was set. -/
theorem State.setField_field_within (s : State) (r : Reg) (idx : List Nat) (v : Nat) {hi lo a b : Nat} (hb : lo ≤ b)
    (hba : b ≤ a) (ha : a ≤ hi) (hw : a < 32) :
    (s.setField r idx hi lo v).field r idx a b = bits v (a - lo) (b - lo) := by
  rw [State.field, State.setField_written, bits_mod_two_pow _ hw hba, bits_setBits_within _ _ hb hba ha]

/-- A field of a register in which a field beside it was set. -/
theorem State.setField_field_beside (s : State) (r : Reg) (idx : List Nat) (v : Nat) {hi lo a b : Nat} (h : lo ≤ hi)
    (hba : b ≤ a) (hd : a < lo ∨ hi < b) (hw : a < 32) :
    (s.setField r idx hi lo v).field r idx a b = s.field r idx a b := by
  rw [State.field, State.setField_written, bits_mod_two_pow _ hw hba, bits_setBits_beside _ _ h hba hd]
  rfl

theorem State.setField_field_ne (s : State) {r q : Reg} {idx jdx : List Nat} (hi lo v a b : Nat)
    (h : regOff q jdx ≠ regOff r idx) : (s.setField r idx hi lo v).field q jdx a b = s.field q jdx a b :=
  congrArg (bits · a b) (s.setField_written_ne hi lo v h)

/-! ### HIF_RCFG of a ring -/

theorem regOff_hifRcfg (r : Nat) : regOff .hifRcfg [r] = 0x110018 + 32 * r := by
  simp only [regOff, show (regSpec .hifRcfg).base = 0x110018 by decide +kernel,
    show (regSpec .hifRcfg).dims = [(4096, 32)] by decide +kernel]
  simp

theorem regOff_hifGal (g : Nat) : regOff .hifGal [g] = 0x100100 + 16 * g := by
  simp only [regOff, show (regSpec .hifGal).base = 0x100100 by decide +kernel,
    show (regSpec .hifGal).dims = [(64, 16)] by decide +kernel]
  simp

theorem bit_eq_getLsbD (w : Word) (i : Nat) : bit w.toNat i = w.getLsbD i := by
  rw [bit, BitVec.getLsbD, Nat.testBit_eq_decide_div_mod_eq]
  rfl

theorem State.flag_eq_bit (s : State) (r : Reg) (idx : List Nat) (i : Nat) : s.flag r idx i = bit (s.written r idx) i := by
  rw [State.flag, State.field, bits, bit, Nat.add_sub_cancel_left, pow_one]

/-- The state with the fields of HIF_RCFG of a ring but its EN as a word has them (R235). -/
def State.rcfgFields (s : State) (r : Nat) (word : Word) : State := s.setField .hifRcfg [r] 23 1 (bits word.toNat 23 1)

theorem State.rcfgFields_field (s : State) (r : Nat) (word : Word) {a b : Nat} (hb : 1 ≤ b) (hba : b ≤ a) (ha : a ≤ 23) :
    (s.rcfgFields r word).field .hifRcfg [r] a b = bits word.toNat a b := by
  rw [State.rcfgFields, State.setField_field_within _ _ _ _ hb hba ha (by omega), bits_bits _ (by omega) (by omega)]
  congr 1 <;> omega

/-- Those fields are not EN of any ring. -/
theorem State.rcfgFields_enabled (s : State) (r : Nat) (word : Word) (q : Nat) :
    (s.rcfgFields r word).flag .hifRcfg [q] 0 = s.flag .hifRcfg [q] 0 := by
  refine congrArg (· == 1) ?_
  by_cases hq : q = r
  · subst hq
    exact s.setField_field_beside _ _ _ (by omega) (by omega) (by omega) (by omega)
  · exact s.setField_field_ne _ _ _ _ _ (by rw [regOff_hifRcfg, regOff_hifRcfg]; omega)

theorem State.rcfgFields_active (s : State) (r : Nat) (word : Word) : (s.rcfgFields r word).ringActive r = s.ringActive r := by
  rw [State.ringActive, s.rcfgFields_enabled]
  rfl

theorem State.rcfgFields_enabledRings (s : State) (r : Nat) (word : Word) (g : Nat) :
    (s.rcfgFields r word).enabledRings g = s.enabledRings g :=
  List.filter_congr fun q _ => s.rcfgFields_enabled r word q

/-- An enable that R236 allows is not refused. -/
theorem State.enableBad_rcfgFields {s : State} {r : Nat} {word : Word} (hidle : s.ringActive r = false)
    (hlow : 6 ≤ bits word.toNat 5 1) (hhigh : bits word.toNat 5 1 ≤ 16) (hclass : bits word.toNat 7 6 ≠ 0)
    (hroom : (s.enabledRings (r / 64)).length < s.field .hifGal [r / 64] 6 0) :
    (s.rcfgFields r word).enableBad r ((s.rcfgFields r word).written .hifRcfg [r]) = [] := by
  have hsize : bits ((s.rcfgFields r word).written .hifRcfg [r]) 5 1 = bits word.toNat 5 1 :=
    s.rcfgFields_field r word (by omega) (by omega) (by omega)
  have hcls : bits ((s.rcfgFields r word).written .hifRcfg [r]) 7 6 = bits word.toNat 7 6 :=
    s.rcfgFields_field r word (by omega) (by omega) (by omega)
  have hrings : (s.rcfgFields r word).field .hifGal [r / 64] 6 0 = s.field .hifGal [r / 64] 6 0 :=
    s.setField_field_ne _ _ _ _ _ (by rw [regOff_hifRcfg, regOff_hifGal]; omega)
  rw [State.enableBad, hsize, hcls, hrings, s.rcfgFields_enabledRings, s.rcfgFields_active, hidle]
  simp [check, hclass, Nat.not_lt.mpr hlow, Nat.not_lt.mpr hhigh, Nat.not_le.mpr hroom]

/-- A write of HIF_RCFG that enables a ring as R236 allows. -/
theorem State.writeRcfg_enables {s : State} {func r off : Nat} {word : Word}
    (htdi : ¬ (func = 0 ∧ s.tdiLocked (r / 64) = true)) (hen : word.getLsbD 0 = true) (hoff : s.flag .hifRcfg [r] 0 = false)
    (hidle : s.ringActive r = false)
    (hbad : (s.rcfgFields r word).enableBad r ((s.rcfgFields r word).written .hifRcfg [r]) = []) :
    s.writeRcfg func r off word = (s.rcfgFields r word).enableRing r := by
  have hunlocked : (func == 0 && s.tdiLocked (r / 64)) = false := by simpa using htdi
  rw [State.flag_eq_bit] at hoff
  unfold State.writeRcfg
  simp only [hunlocked, Bool.false_and, Bool.false_eq_true, if_false, bit_eq_getLsbD, hen, hoff, hidle, Bool.not_false,
    Bool.and_true, if_true]
  exact if_pos (List.isEmpty_iff.mpr hbad)

/-- The fields and the counts of an enabled ring (R235, R236). -/
theorem State.enableRing_spec (s : State) (r : Nat) :
    (s.enableRing r).flag .hifRcfg [r] 0 = true ∧
    (s.enableRing r).field .hifRcfg [r] 23 1 = s.field .hifRcfg [r] 23 1 ∧
    (s.enableRing r).ring r = { copyA := (s.ring r).copyA, first := true, intLeft := (s.ring r).intLeft,
                                intPend := (s.ring r).intPend, intEnd := (s.ring r).intEnd } ∧
    ∀ q, q ≠ r → (s.enableRing r).ring q = s.ring q := by
  refine ⟨congrArg (· == 1) (s.setField_field_within .hifRcfg [r] 1 (by omega) (by omega) (by omega) (by omega)),
    s.setField_field_beside .hifRcfg [r] 1 (by omega) (by omega) (by omega) (by omega), State.setRing_ring .., fun q hq => ?_⟩
  exact State.setRing_ring_ne _ hq

/-- A write of HIF_RCFG with EN = 0 leaves EN clear and the host interface as it is; the other fields are as written, unless the
ring is active (R235, R236). -/
theorem State.writeRcfg_disables {s : State} {func r off : Nat} {word : Word}
    (htdi : ¬ (func = 0 ∧ s.tdiLocked (r / 64) = true)) (hen : word.getLsbD 0 = false) :
    (s.writeRcfg func r off word).flag .hifRcfg [r] 0 = false ∧
    (s.writeRcfg func r off word).field .hifRcfg [r] 23 1 =
      (if s.ringActive r = true ∧ s.inHold = false then s.field .hifRcfg [r] 23 1 else bits word.toNat 23 1) ∧
    (s.writeRcfg func r off word).hif = s.hif := by
  have hunlocked : (func == 0 && s.tdiLocked (r / 64)) = false := by simpa using htdi
  let locked := s.ringActive r && !s.inHold && bits word.toNat 23 1 != bits (s.written .hifRcfg [r]) 23 1
  let u := if locked then s else s.rcfgFields r word
  have hwrite : s.writeRcfg func r off word =
      (u.setField .hifRcfg [r] 0 0 0).refuseAll func off (check locked .lockedField) := by
    unfold State.writeRcfg
    simp only [hunlocked, Bool.false_and, Bool.false_eq_true, if_false, bit_eq_getLsbD, hen]
    rfl
  have hrefuse := State.refuseAll_only (a1 := func) (a2 := off) (a3 := check locked .lockedField)
    (.refl _ (u.setField .hifRcfg [r] 0 0 0)) (Nat.or_self _)
  have hregs := hrefuse.regs.resolve_left (by decide)
  have hfield (a b : Nat) : (s.writeRcfg func r off word).field .hifRcfg [r] a b =
      (u.setField .hifRcfg [r] 0 0 0).field .hifRcfg [r] a b := by
    rw [hwrite, State.field, State.written, hregs]
    rfl
  have hu : u.field .hifRcfg [r] 23 1 =
      if s.ringActive r = true ∧ s.inHold = false then s.field .hifRcfg [r] 23 1 else bits word.toNat 23 1 := by
    have hfields := s.rcfgFields_field r word (a := 23) (b := 1) (by omega) (by omega) (by omega)
    by_cases heq : bits word.toNat 23 1 = s.field .hifRcfg [r] 23 1
    · have hsame : locked = false := by simp [locked, heq, State.field]
      simp only [u, hsame, Bool.false_eq_true, if_false, hfields, heq, ite_self]
    · have hlocked : locked = (s.ringActive r && !s.inHold) := by
        have hfields : bits word.toNat 23 1 ≠ bits (s.written .hifRcfg [r]) 23 1 := heq
        simp only [locked, bne_iff_ne.mpr hfields, Bool.and_true]
      simp only [u, hlocked, Bool.and_eq_true, Bool.not_eq_true']
      split <;> [rfl; exact hfields]
  refine ⟨?_, ?_, ?_⟩
  · rw [State.flag, hfield, State.setField_field_within _ _ _ _ (by omega) (by omega) (by omega) (by omega)]
    rfl
  · rw [hfield, State.setField_field_beside _ _ _ _ (by omega) (by omega) (by omega) (by omega), hu]
  · rw [hwrite, hrefuse.hif.eq (by decide)]
    simp only [u]
    split <;> rfl

end Sys2Proof.Machine

open Sys2Proof Sys2Proof.Machine

/-- Settles O11: the write that enables a ring, then the one that disables it. -/
theorem ringEnableDisable : Obligations.RingEnableDisable := by
  unfold Obligations.RingEnableDisable
  refine ⟨?_, ?_⟩
  · intro f r w s hup hreach hen hoff hidle htdi hlow hhigh hclass hroom
    have hexec : exec (.ringEnable f r w) s = .next ((s.rcfgFields r.val w).enableRing r.val) := by
      show execRingEnable f r w s = _
      rw [execRingEnable, hup, hreach, hen,
        State.writeRcfg_enables htdi hen hoff hidle (State.enableBad_rcfgFields hidle hlow hhigh hclass hroom)]
      rfl
    obtain ⟨hflag, hfields, hring, hothers⟩ := (s.rcfgFields r.val w).enableRing_spec r.val
    exact ⟨_, hexec, hflag, hfields.trans (s.rcfgFields_field r.val w (by omega) (by omega) (by omega)), hring, hothers⟩
  · intro f r w s hup hreach hen htdi
    have hexec : exec (.ringDisable f r w) s = .next (s.writeRcfg f.val r.val (rcfgOffset f.val r.val) w) := by
      show execRingDisable f r w s = _
      rw [execRingDisable, hup, hreach, hen]
      rfl
    exact ⟨_, hexec, State.writeRcfg_disables htdi hen⟩
end

section
/-! The statements on the host interface: the ends of coalescing intervals, and the closed debug aperture (R232, R260, R261, R409). -/

namespace Sys2Proof.Machine

/-! ### Messages at the end of an interval -/

/-- A message goes out, or its pending bit is set where its vector is masked (R261). -/
theorem State.msix_sends {s : State} {func v : Nat} (hcut : s.cutOff func = false) :
    if (s.msixWord func v 3).toNat % 2 = 1 then
      (s.msix func v).out = s.out ∧ Tbl.look (s.msix func v).hif.msixPend (func * 2048 + v) false = true
    else (s.msix func v).out = s.out ++ [.msix func v] ∧ (s.msix func v).hif.msixPend = s.hif.msixPend := by
  split
  · next hmasked =>
    rw [State.msix_masked hcut hmasked]
    exact ⟨rfl, by simp⟩
  · next hopen =>
    rw [State.msix_sent hcut hopen]
    exact ⟨rfl, rfl⟩

end Sys2Proof.Machine

open Sys2Proof Sys2Proof.Machine

/-- Settles O8: the message of a ring, then that of the incident ring. -/
theorem intervalEnds : Obligations.IntervalEnds := by
  unfold Obligations.IntervalEnds
  refine ⟨fun r s halive hend hcut => ?_, fun s halive hend hcut => ?_⟩
  · let u := s.setRing r.val
      { s.ring r.val with intLeft := s.field .hifRcfg [r.val] 23 20 + 1, intPend := false, intEnd := false }
    have hexec : exec (.ringInterruptIntervalEnd r) s = .next (u.msix (r.val / 64) (s.field .hifRcfg [r.val] 18 8)) := by
      show execRingInterruptIntervalEnd r s = _
      rw [execRingInterruptIntervalEnd, halive, hend]
      rfl
    have hring (q : Nat) : (u.msix (r.val / 64) (s.field .hifRcfg [r.val] 18 8)).ring q = u.ring q :=
      State.ring_congr ((State.msix_only (.refl _ u) (Nat.or_self _)).hif.rings.resolve_left (by decide)) q
    exact ⟨_, hexec, (hring _).trans (State.setRing_ring ..), fun q hq => (hring q).trans (State.setRing_ring_ne _ hq),
      State.msix_sends (s := u) hcut⟩
  · let u : State := { s with ras := { s.ras with intLeft := s.field .rasIcfg [] 20 17, intPend := false, intEnd := false } }
    have hexec : exec .incidentInterruptIntervalEnd s = .next (u.msix 0 (s.field .rasIcfg [] 15 5)) := by
      show execIncidentInterruptIntervalEnd s = _
      rw [execIncidentInterruptIntervalEnd, halive, hend]
      rfl
    have hsends := State.msix_sends (s := u) (v := s.field .rasIcfg [] 15 5) hcut
    rw [Nat.zero_mul, Nat.zero_add] at hsends
    exact ⟨_, hexec, (State.msix_only (.refl _ u) (Nat.or_self _)).ras.eq (by decide), hsends⟩

/-- Settles O60: a refused read, then a refused write, each with its count. -/
theorem debugClosed : Obligations.DebugClosed := by
  unfold Obligations.DebugClosed
  intro o n b s hup hclosed
  have hcount : (s.count .hifDbgDeny 0 1).counter .hifDbgDeny 0 0 = min (s.counter .hifDbgDeny 0 0 + 1) (2 ^ 64 - 1) :=
    Tbl.look_put_self ..
  cases b with
  | none =>
    refine ⟨(s.count .hifDbgDeny 0 1).emit (.readData 0 (List.replicate n 0) false), 0, ?_, hcount, rfl⟩
    show execDebugApertureAccess o n none s = _
    rw [execDebugApertureAccess, hup, hclosed]
    rfl
  | some b =>
    refine ⟨s.count .hifDbgDeny 0 1, 0, ?_, hcount, ?_⟩
    · show execDebugApertureAccess o n (some b) s = _
      rw [execDebugApertureAccess, hup, hclosed]
      rfl
    · rw [List.append_nil]
      rfl
end

section
/-! The statements on the host interface: NOP and FENCE (R253, R254). -/

namespace Sys2Proof.Machine

/-! ### NOP and FENCE -/

theorem exec_nop {o : Origin} {d : Line64} {s : State} (h : s.Accepts o d 0x01 emptyChecks) :
    exec (.nop o d) s = .next ((s.taken o d 0x01).complete (srcHub hubHost) (s.asOp o d 0x01) { st := .ok }) :=
  congrArg Host.Outcome.next (State.accept_of_accepts h)

/-- The state with a FENCE taken in among the FENCEs that wait (R253). -/
def State.fenceTaken (s : State) (r : RingNo) (i : Word) (d : Line64) : State := { s with
  nextOp := s.nextOp + 1
  hif := { s.hif with inflight := s.hif.inflight ++ [s.asOp (.ring r i) d 0x02]
                      fences := s.hif.fences ++ [s.asOp (.ring r i) d 0x02] } }

theorem exec_fence {r : RingNo} {i : Word} {d : Line64} {s : State} (h : s.Accepts (.ring r i) d 0x02 emptyChecks) :
    exec (.fence (.ring r i) d) s = .next ((s.fenceTaken r i d).settleFence r.val) :=
  congrArg Host.Outcome.next (State.accept_of_accepts h)

/-- Whether an operation came from a ring. -/
def Op.onRing (o : Op) (r : Nat) : Bool := match o.org with | .ring q _ => q.val == r | .step _ => false

theorem State.fenced_eq (s : State) (r : Nat) : s.fenced r = s.hif.fences.any (fun f => f.onRing r) := rfl

theorem State.inflightOf_eq (s : State) (r : Nat) : s.inflightOf r = s.hif.inflight.filter (fun o => o.onRing r) := rfl

/-- Whether a FENCE of a ring has no earlier descriptor of the ring in flight (R253). -/
def State.fenceReady (s : State) (r : Nat) (f : Op) : Bool :=
  f.onRing r && (s.inflightOf r).all (fun p => decide (f.id ≤ p.id))

/-- The state without a FENCE among those that wait. -/
def State.fenceGone (s : State) (f : Op) : State :=
  { s with hif := { s.hif with fences := s.hif.fences.filter (fun p => p.id != f.id) } }

theorem State.settleFence_waits {s : State} {r : Nat} (h : s.hif.fences.find? (s.fenceReady r) = none) :
    s.settleFence r = s := by
  unfold State.settleFence
  split
  · rfl
  · next hsome => exact nomatch h.symm.trans hsome

/-- The last FENCE of a ring completes like any descriptor (R253). -/
theorem State.settleFence_completes {s : State} {r : RingNo} {i : Word} {f : Op}
    (hfind : s.hif.fences.find? (s.fenceReady r.val) = some f) (horg : f.org = .ring r i)
    (hlast : (s.fenceGone f).fenced r.val = false) :
    s.settleFence r.val = (s.fenceGone f).complete (srcHub hubHost) f { st := .ok } := by
  let v := ((s.fenceGone f).opEvent (srcHub hubHost) 3 f .ok).recordOp r.val i.toNat f { st := .ok }
  have hsettle : s.settleFence r.val = v := by
    unfold State.settleFence
    split
    · next hnone => exact nomatch hfind.symm.trans hnone
    · next g hg =>
      cases Option.some.inj (hfind.symm.trans hg)
      simp only [horg]
      rfl
  have hcomplete : (s.fenceGone f).complete (srcHub hubHost) f { st := .ok } = v.settleFence r.val := by
    simp only [State.complete, State.countOverrun, horg]
    rfl
  have hfences : v.hif.fences = (s.fenceGone f).hif.fences := by
    rw [(State.recordOp_only (.refl _ _) (Nat.or_self _)).hif.fences.resolve_left (by decide), State.opEvent_hif]
  rw [hsettle, hcomplete, State.settleFence_none (by rw [State.fenced_eq, hfences]; exact hlast)]

/-- On a ring with no FENCE the one just taken in is the only one. -/
theorem State.fenceTaken_find {s : State} {r : RingNo} (i : Word) (d : Line64) (hfence : s.fenced r.val = false) :
    (s.fenceTaken r i d).hif.fences.find? ((s.fenceTaken r i d).fenceReady r.val) =
      if ((s.fenceTaken r i d).inflightOf r.val).all (fun p => decide (s.nextOp ≤ p.id)) then some (s.asOp (.ring r i) d 0x02)
      else none := by
  have hothers : s.hif.fences.find? ((s.fenceTaken r i d).fenceReady r.val) = none := by
    rw [List.find?_eq_none]
    intro f hf hready
    rw [State.fenceReady, Bool.and_eq_true] at hready
    exact List.any_eq_false.mp hfence f hf hready.1
  have hself : (s.asOp (.ring r i) d 0x02).onRing r.val = true := beq_self_eq_true r.val
  show (s.hif.fences ++ [_]).find? _ = _
  rw [List.find?_append, hothers, Option.none_or, List.find?_singleton, State.fenceReady, hself, State.asOp_id, Bool.true_and]

/-- What a ring has in flight once a FENCE of it is taken in. -/
theorem State.fenceTaken_inflightOf (s : State) (r : RingNo) (i : Word) (d : Line64) :
    (s.fenceTaken r i d).inflightOf r.val = s.inflightOf r.val ++ [s.asOp (.ring r i) d 0x02] := by
  have hself : (s.asOp (.ring r i) d 0x02).onRing r.val = true := beq_self_eq_true r.val
  show (s.hif.inflight ++ [_]).filter (fun o : Op => o.onRing r.val) = _
  rw [List.filter_append, List.filter_singleton, hself]
  rfl

/-- Without the one just taken in a ring with no FENCE has none again. -/
theorem State.fenceTaken_last {s : State} {r : RingNo} (i : Word) (d : Line64) (hfence : s.fenced r.val = false) :
    ((s.fenceTaken r i d).fenceGone (s.asOp (.ring r i) d 0x02)).fenced r.val = false := by
  rw [State.fenced_eq, List.any_eq_false]
  intro f hf
  obtain ⟨hmem, hid⟩ := List.mem_filter.mp hf
  rcases List.mem_append.mp hmem with hold | hnew
  · exact List.any_eq_false.mp hfence f hold
  · rw [List.mem_singleton.mp hnew] at hid
    simp at hid

/-- A FENCE with no earlier descriptor of its ring in flight completes at once (R253). -/
theorem State.fenceTaken_completes {s : State} {r : RingNo} (i : Word) (d : Line64) (hfence : s.fenced r.val = false)
    (hidle : s.inflightOf r.val = []) :
    (s.fenceTaken r i d).settleFence r.val = ((s.fenceTaken r i d).fenceGone (s.asOp (.ring r i) d 0x02)).complete
      (srcHub hubHost) (s.asOp (.ring r i) d 0x02) { st := .ok } := by
  refine State.settleFence_completes ?_ (State.asOp_org ..) (State.fenceTaken_last i d hfence)
  rw [State.fenceTaken_find i d hfence, State.fenceTaken_inflightOf, hidle, if_pos]
  simp

/-- A FENCE with an earlier descriptor of its ring in flight waits (R253). -/
theorem State.fenceTaken_waits {s : State} {r : RingNo} (i : Word) (d : Line64) (hfence : s.fenced r.val = false)
    (hbusy : ∃ p ∈ s.inflightOf r.val, p.id < s.nextOp) : (s.fenceTaken r i d).settleFence r.val = s.fenceTaken r i d := by
  obtain ⟨p, hp, hid⟩ := hbusy
  refine State.settleFence_waits ?_
  rw [State.fenceTaken_find i d hfence, State.fenceTaken_inflightOf, if_neg]
  rw [List.all_eq_true]
  intro hall
  exact absurd (of_decide_eq_true (hall p (List.mem_append_left _ hp))) (by omega)

end Sys2Proof.Machine

open Sys2Proof Sys2Proof.Machine

/-- Settles O15: a NOP, a FENCE that completes at once, and a FENCE that waits. -/
theorem nopAndFence : Obligations.NopAndFence := by
  unfold Obligations.NopAndFence
  refine ⟨?_, ?_, ?_⟩
  · intro r i d s hacc hfence hcut
    obtain ⟨hanswered, -, -, hinflight, -⟩ := State.taken_complete (unit := srcHub hubHost) (i := i) (d := d)
      (opcode := 0x01) (x := { st := .ok }) hfence hcut
    exact ⟨_, exec_nop hacc, hanswered, hinflight, State.complete_nextOp ..⟩
  · intro r i d s hacc hfence hcut hidle
    let u := (s.fenceTaken r i d).fenceGone (s.asOp (.ring r i) d 0x02)
    have hflight : u.hif.inflight.any (fun p => p.id == (s.asOp (.ring r i) d 0x02).id) = true := by
      simp [u, State.fenceTaken, State.fenceGone]
    obtain ⟨hanswered, -, -, hinflight, -⟩ := State.complete_ring (unit := srcHub hubHost) (x := { st := .ok })
      (State.asOp_org s (.ring r i) d 0x02) hflight (State.fenceTaken_last i d hfence) hcut
    refine ⟨_, exec_fence hacc, ?_⟩
    rw [State.fenceTaken_completes i d hfence hidle]
    refine ⟨hanswered, hinflight.trans ?_, State.complete_nextOp ..⟩
    show (s.hif.inflight ++ [_]).filter _ = _
    simp
  · intro r i d s hacc hfence hbusy
    rw [exec_fence hacc, State.fenceTaken_waits i d hfence hbusy]
    rfl
end

section
/-! The statements on the host interface: failed reads of doorbells and descriptors (R246, R262). -/

namespace Sys2Proof.Machine

/-! ### A poll with nothing fetched -/

/-- No descriptor stands fetched and not accepted (R246). -/
def State.NoneFetched (s : State) : Prop := ∀ p, s.hif.poll = some p → p.fetched = []

theorem State.setPoll_self {s : State} {p : Poll} (h : s.hif.poll = some p) : s.setPoll p = s := by
  rw [State.setPoll, ← h]

/-- With nothing fetched nothing is accepted. -/
theorem State.acceptFetched_none {s : State} (h : s.NoneFetched) : s.acceptFetched = s := by
  unfold State.acceptFetched
  split
  · rfl
  · next p hp =>
    have hnone := h p hp
    rw [hnone, show ({ p with fetched := [] } : Poll) = p by rw [← hnone]]
    exact State.setPoll_self hp

/-- Where nothing is fetched, or the poll awaits other rings, it is only the poll that changes once a ring's entries are
there. -/
theorem State.entriesGone_only_poll {s : State} {r : Nat}
    (h : ∀ p, s.hif.poll = some p → p.fetched = [] ∨ p.descriptors.any (fun d => d.1 != r) = true) :
    OnlyM (mask [.hifPoll]) s (s.entriesGone r) := by
  unfold State.entriesGone
  split
  · exact .refl _ s
  · next p hp =>
    extract_lets left u
    have hset : OnlyM (mask [.hifPoll]) s u := State.setPoll_only (.refl _ s) (Nat.or_self _)
    split
    · next hempty =>
      have hfetched : p.fetched = [] := (h p hp).resolve_right (by
        rw [List.any_eq_true]
        rintro ⟨d, hd, hne⟩
        exact List.filter_eq_nil_iff.mp (List.isEmpty_iff.mp hempty) d hd hne)
      rw [State.acceptFetched_none (fun q hq => by cases hq; exact hfetched)]
      exact State.pollSettle_only hset (Nat.or_self _)
    · exact hset

/-! ### A read that fails -/

theorem State.haltRing_spec (s : State) (r addr cause : Nat) :
    (s.haltRing r addr cause).ring r = { s.ring r with halt := true, hcause := cause, torn := false } ∧
    (∀ q, q ≠ r → (s.haltRing r addr cause).ring q = s.ring q) ∧
    ((s.haltRing r addr cause).source (srcRing r)).count = min ((s.source (srcRing r)).count + 1) (2 ^ 32 - 1) := by
  let u := s.setRing r { s.ring r with halt := true, hcause := cause, torn := false }
  have hring (q : Nat) : (s.haltRing r addr cause).ring q = u.ring q :=
    State.ring_congr ((State.hostFault_only (.refl _ u) (Nat.or_self _)).hif.rings.resolve_left (by decide)) q
  refine ⟨(hring r).trans (State.setRing_ring ..), fun q hq => (hring q).trans (State.setRing_ring_ne _ hq), ?_⟩
  exact ((u.count .hifHostFault (r / 64) 1).incident_source ..).1

theorem State.haltRing_poll (s : State) (r addr cause : Nat) : (s.haltRing r addr cause).hif.poll = s.hif.poll :=
  (State.haltRing_only (.refl _ s) (Nat.or_self _)).hif.poll.resolve_left (by decide)

/-- From one state to the other a ring has halted for a cause, and no other ring has changed (R262). -/
def State.Halts (s : State) (r cause : Nat) (t : State) : Prop :=
  t.ring r = { s.ring r with halt := true, hcause := cause, torn := false } ∧ ∀ q, q ≠ r → t.ring q = s.ring q

theorem State.haltRing_halts {s t : State} {r addr cause : Nat} (h : t.hif.rings = (s.haltRing r addr cause).hif.rings) :
    s.Halts r cause t := by
  obtain ⟨hself, hothers, -⟩ := s.haltRing_spec r addr cause
  exact ⟨(State.ring_congr h r).trans hself, fun q hq => (State.ring_congr h q).trans (hothers q hq)⟩

/-- A failed read of a doorbell that the poll awaits (R262). -/
theorem State.readFault_doorbell {s : State} {p : Poll} {r : RingNo} (cause : Nat) (hpoll : s.hif.poll = some p)
    (hrun : s.running = true) (hawaits : p.doorbells.contains r.val = true) :
    s.Halts r.val cause (s.readFault (.doorbell r) cause) ∧
    ((s.readFault (.doorbell r) cause).source (srcRing r.val)).count =
      min ((s.source (srcRing r.val)).count + 1) (2 ^ 32 - 1) := by
  let u := s.haltRing r.val (s.ringAddr .hifDbLo .hifDbHi r.val) cause
  have hfault : s.readFault (.doorbell r) cause = u.doorbellGone r.val := by
    simp only [State.readFault, hrun, State.ringFault, hpoll, hawaits]
    rfl
  have honly := State.doorbellGone_only (a1 := r.val) (.refl _ u) (Nat.or_self _)
  rw [hfault]
  refine ⟨State.haltRing_halts (honly.hif.rings.resolve_left (by decide)), ?_⟩
  rw [State.source_congr (honly.ras.sources.resolve_left (by decide))]
  exact (s.haltRing_spec ..).2.2

/-- A failed read of descriptors that the poll awaits, where it has fetched none or awaits another ring's (R262). -/
theorem State.readFault_descriptor {s : State} {p : Poll} {r : RingNo} (cause : Nat) (hpoll : s.hif.poll = some p)
    (hrun : s.running = true) (hawaits : p.descriptors.any (fun d => d.1 == r.val) = true)
    (hquiet : p.fetched = [] ∨ p.descriptors.any (fun d => d.1 != r.val) = true) :
    s.Halts r.val cause (s.readFault (.descriptor r) cause) := by
  let addr := s.ringAddr .hifSqLo .hifSqHi r.val + 64 * ((s.ring r.val).fidx.toNat % s.ringSize r.val)
  let u := s.haltRing r.val addr cause
  have hfault : s.readFault (.descriptor r) cause = u.entriesGone r.val := by
    simp only [State.readFault, hrun, State.ringFault, hpoll, hawaits]
    rfl
  have honly : OnlyM (mask [.hifPoll]) u (u.entriesGone r.val) := State.entriesGone_only_poll fun q hq => by
    cases Option.some.inj (hpoll.symm.trans ((s.haltRing_poll ..).symm.trans hq))
    exact hquiet
  rw [hfault]
  exact State.haltRing_halts (honly.hif.rings.resolve_left (by decide))

end Sys2Proof.Machine

open Sys2Proof Sys2Proof.Machine

/-- Settles O14: each of the two reads, answered as failed and timed out. -/
theorem failedReadHaltsRing : Obligations.FailedReadHaltsRing := by
  unfold Obligations.FailedReadHaltsRing
  intro r s p hpoll hrun
  refine ⟨fun ca hawaits => ?_, fun ca hawaits hquiet => ?_, fun hawaits => ?_, fun hawaits hquiet => ?_⟩
  · obtain ⟨⟨hself, hothers⟩, hsource⟩ := State.readFault_doorbell (if ca then causeCa else causeUr) hpoll hrun hawaits
    exact ⟨_, rfl, hself, hothers, hsource⟩
  · obtain ⟨hself, hothers⟩ := State.readFault_descriptor (if ca then causeCa else causeUr) hpoll hrun hawaits hquiet
    exact ⟨_, rfl, hself, hothers⟩
  · obtain ⟨⟨hself, hothers⟩, -⟩ := State.readFault_doorbell causeTimeout hpoll hrun hawaits
    exact ⟨_, rfl, hself, hothers⟩
  · obtain ⟨hself, hothers⟩ := State.readFault_descriptor causeTimeout hpoll hrun hawaits hquiet
    exact ⟨_, rfl, hself, hothers⟩
end

section
/-! The statements on the host interface: what a poll takes (R237, R246 to R248, R258). -/

namespace Sys2Proof.Machine

/-! ### Flagging the rings of a gallery -/

/-- A ring once its summary bit is taken: the device's copy of A is the bit (R246). -/
def Ring.summed (x : Ring) (bitS : Bool) : Ring := { x with copyA := bitS, first := false, reflag := false }

/-- A ring that is not flagged has its summary bit taken already. -/
theorem Ring.summed_of_taken {x : Ring} {b : Bool} (hfirst : x.first = false) (hreflag : x.reflag = false)
    (hsame : b = x.copyA) :
    x.summed b = x := by
  cases x
  cases hfirst
  cases hreflag
  cases hsame
  rfl

/-- Flagged or not, a ring has its summary bit taken. -/
theorem State.flagRing_ring (s : State) (r : Nat) (b : Bool) (q : Nat) :
    (s.flagRing r b).1.ring q = if q = r then (s.ring r).summed b else s.ring q := by
  unfold State.flagRing
  dsimp only
  split
  · by_cases hq : q = r
    · rw [if_pos hq, hq]
      exact State.setRing_ring ..
    · rw [if_neg hq]
      exact State.setRing_ring_ne _ hq
  · next hnot =>
    split
    · next hq =>
      obtain ⟨⟨hfirst, hreflag⟩, hsame⟩ := by simpa using hnot
      rw [hq, Ring.summed_of_taken hfirst hreflag hsame]
    · rfl

/-- What the summary word of a gallery does to a list of its rings. -/
def State.flagRings (s : State) (rings : List Nat) (word : BitVec 64) : State :=
  rings.foldl (fun s r => (s.flagRing r (word.getLsbD (r % 64))).1) s

theorem State.flagRings_ring (s : State) (rings : List Nat) (word : BitVec 64) (q : Nat) :
    (s.flagRings rings word).ring q = if q ∈ rings then (s.ring q).summed (word.getLsbD (q % 64)) else s.ring q := by
  induction rings generalizing s with
  | nil => rfl
  | cons r rings ih =>
    rw [State.flagRings, List.foldl_cons]
    refine (ih _).trans ?_
    rw [State.flagRing_ring]
    by_cases hq : q = r
    · subst hq
      simp only [if_true, List.mem_cons_self, Ring.summed, ite_self]
    · simp only [hq, if_false, List.mem_cons, false_or]

/-- The rings of a gallery that its summary word flags: those enabled and not halted (R246). -/
def State.summedRings (s : State) (g : Nat) : List Nat := (s.enabledRings g).filter (fun r => !(s.ring r).halt)

theorem State.flagGallery_ring (s : State) (g : Nat) (word : BitVec 64) (q : Nat) :
    (s.flagGallery g word).1.ring q =
      if q ∈ s.summedRings g then (s.ring q).summed (word.getLsbD (q % 64)) else s.ring q := by
  rw [← s.flagRings_ring]
  have hfold (f : State × List Nat → Nat → State × List Nat)
      (hf : ∀ a r, (a.1.flagRing r (word.getLsbD (r % 64))).1 = (f a r).1) :
      ((s.summedRings g).foldl f (s, [])).1.ring q = (s.flagRings (s.summedRings g) word).ring q :=
    congrArg (State.ring · q) (List.foldl_hom Prod.fst hf).symm
  unfold State.flagGallery
  dsimp only
  split
  · exact hfold _ fun _ _ => rfl
  · exact (State.ring_congr ((State.postAck_only (.refl _ _) (Nat.or_self _)).hif.rings.resolve_left (by decide)) q).trans
      (hfold _ fun _ _ => rfl)

theorem mem_galleryRings {q g : Nat} : q ∈ galleryRings g ↔ q / 64 = g := by
  simp only [galleryRings, List.mem_map, List.mem_range]
  constructor
  · rintro ⟨j, hj, rfl⟩; omega
  · rintro rfl; exact ⟨q % 64, by omega, by omega⟩

/-- Whether a ring is one of those a summary bit is taken for. -/
theorem State.mem_summedRings (s : State) {q g : Nat} :
    q ∈ s.summedRings g ↔ q / 64 = g ∧ s.flag .hifRcfg [q] 0 = true ∧ (s.ring q).halt = false := by
  simp only [State.summedRings, State.enabledRings, List.mem_filter, mem_galleryRings, Bool.not_eq_true', and_assoc]

/-! ### The summary words -/

/-- What a list of summary words, each with its gallery, does to the rings. -/
def State.flagGalleries (s : State) (words : List (Nat × BitVec 64)) : State :=
  words.foldl (fun s gw => (s.flagGallery gw.1 gw.2).1) s

theorem State.flagGallery_flag (s : State) (g : Nat) (word : BitVec 64) (q i : Nat) :
    (s.flagGallery g word).1.flag .hifRcfg [q] i = s.flag .hifRcfg [q] i := by
  have hregs := (State.flagGallery_only (a1 := g) (a2 := word) (.refl _ s) (Nat.or_self _)).fst.regs.resolve_left (by decide)
  simp only [State.flag, State.field, State.written, hregs]

theorem State.flagGallery_summedRings (s : State) (g : Nat) (word : BitVec 64) (j : Nat) {q : Nat} :
    q ∈ (s.flagGallery g word).1.summedRings j ↔ q ∈ s.summedRings j := by
  have hhalt : ((s.flagGallery g word).1.ring q).halt = (s.ring q).halt := by
    rw [s.flagGallery_ring]
    split <;> rfl
  rw [State.mem_summedRings, State.mem_summedRings, s.flagGallery_flag, hhalt]

/-- Of words for galleries each of which comes once, a ring's is its own gallery's. -/
theorem State.flagGalleries_ring (s : State) {words : List (Nat × BitVec 64)} (w : Nat → BitVec 64)
    (hw : ∀ x ∈ words, x.2 = w x.1) (q : Nat) :
    (s.flagGalleries words).ring q =
      if q / 64 ∈ words.map Prod.fst ∧ q ∈ s.summedRings (q / 64) then (s.ring q).summed ((w (q / 64)).getLsbD (q % 64))
      else s.ring q := by
  induction words generalizing s with
  | nil => simp [State.flagGalleries]
  | cons x words ih =>
    rw [State.flagGalleries, List.foldl_cons]
    refine (ih _ (fun y hy => hw y (.tail _ hy))).trans ?_
    simp only [s.flagGallery_summedRings, s.flagGallery_ring, hw x (.head _), List.map_cons, List.mem_cons]
    by_cases hq : q ∈ s.summedRings (q / 64)
    · by_cases hx : q / 64 = x.1
      · rw [hx] at hq ⊢
        simp only [hq, true_or, and_self, if_true, Ring.summed, ite_self]
      · have hother : q ∉ s.summedRings x.1 := fun h => hx (s.mem_summedRings.mp h).1
        simp only [hx, hother, if_false, false_or]
    · have hother : q ∉ s.summedRings x.1 := fun h => hq ((s.mem_summedRings.mp h).1 ▸ h)
      simp only [hq, hother, and_false, if_false]

/-- The summary words that a poll without separate ones takes: those of the galleries that have none (R246). -/
def State.lineWords (s : State) (lines : List (BitVec 64)) : List (Nat × BitVec 64) :=
  (List.range 64).filterMap (fun g => if s.sumSep g then none else some (g, lines.getD g 0))

theorem State.mem_lineWords {s : State} {lines : List (BitVec 64)} {x : Nat × BitVec 64} :
    x ∈ s.lineWords lines ↔ x.1 < 64 ∧ s.sumSep x.1 = false ∧ x.2 = lines.getD x.1 0 := by
  obtain ⟨g, w⟩ := x
  simp only [State.lineWords, List.mem_filterMap, List.mem_range]
  constructor
  · rintro ⟨j, hj, hx⟩
    split at hx
    · cases hx
    · next hsep =>
      cases hx
      exact ⟨hj, by simpa using hsep, rfl⟩
  · rintro ⟨hg, hsep, rfl⟩
    exact ⟨g, hg, by simp [hsep]⟩

theorem exec_summaryReadDone {lines : List (BitVec 64)} {sep : List SepSummary} {s : State} {p : Poll}
    (hpoll : s.hif.poll = some p) (hrun : s.running = true) (hsum : p.summary = true) (hsep : p.sep = []) :
    ∃ flagged, exec (.summaryReadDone lines sep) s =
      .next ((s.flagGalleries (s.lineWords lines)).readDoorbells p flagged) := by
  have hfold (f : State × List Nat → Nat × BitVec 64 → State × List Nat)
      (hf : ∀ a x, (a.1.flagGallery x.1 x.2).1 = (f a x).1) :
      ((s.lineWords lines).foldl f (s, [])).1 = s.flagGalleries (s.lineWords lines) := (List.foldl_hom Prod.fst hf).symm
  show ∃ flagged, execSummaryReadDone lines sep s = _
  simp only [execSummaryReadDone, hpoll, hrun, hsum, hsep, List.contains_nil, List.isEmpty_nil, Bool.not_true, Bool.true_or,
    Bool.or_self, Bool.false_eq_true, if_false, if_true]
  rw [← State.lineWords]
  exact ⟨_, congrArg (fun u : State => Host.Outcome.next (u.readDoorbells p _)) (hfold _ fun _ _ => rfl)⟩

/-- What taking the summary words leaves of a ring (R237, R246). -/
theorem State.flagGalleries_lineWords (s : State) (lines : List (BitVec 64)) (r : Nat) :
    (s.flagGalleries (s.lineWords lines)).ring r =
      if r < 4096 ∧ s.flag .hifRcfg [r] 0 = true ∧ (s.ring r).halt = false ∧ s.sumSep (r / 64) = false then
        (s.ring r).summed ((lines.getD (r / 64) 0).getLsbD (r % 64))
      else s.ring r := by
  rw [s.flagGalleries_ring (fun g => lines.getD g 0) (fun x hx => (State.mem_lineWords.mp hx).2.2)]
  refine if_congr ?_ rfl rfl
  have hword : r / 64 ∈ (s.lineWords lines).map Prod.fst ↔ r / 64 < 64 ∧ s.sumSep (r / 64) = false := by
    simp only [List.mem_map, State.mem_lineWords]
    exact ⟨fun ⟨x, ⟨hlt, hsep, _⟩, hx⟩ => hx ▸ ⟨hlt, hsep⟩,
      fun ⟨hlt, hsep⟩ => ⟨(r / 64, lines.getD (r / 64) 0), ⟨hlt, hsep, rfl⟩, rfl⟩⟩
  rw [hword, s.mem_summedRings, show r / 64 < 64 ↔ r < 4096 by omega]
  tauto

/-! ### Doorbells -/

/-- A field of a descriptor or line that is read as a word. -/
theorem ofNat_fld_toNat {w : Nat} (d : BitVec w) (o : Nat) : (BitVec.ofNat 32 (fld d o 31 0)).toNat = fld d o 31 0 := by
  rw [BitVec.toNat_ofNat]
  refine Nat.mod_eq_of_lt ((Nat.mod_lt _ (Nat.two_pow_pos _)).trans_le (Nat.pow_le_pow_right (by omega) (by omega)))

/-- A doorbell that is not torn: both its counts stand in it twice (R247). -/
def wholeBell (d : Line64) : Bool := fld d 0 31 0 == fld d 60 31 0 && fld d 4 31 0 == fld d 56 31 0

theorem exec_doorbellReadDone_whole {r : RingNo} {d : Line64} {s : State} {p : Poll} (hpoll : s.hif.poll = some p)
    (hrun : s.running = true) (hawaits : p.doorbells.contains r.val = true) (hwhole : wholeBell d = true) :
    exec (.doorbellReadDone r d) s = .next ((s.takeDoorbell r.val (BitVec.ofNat 32 (fld d 0 31 0))
      (BitVec.ofNat 32 (fld d 4 31 0))).doorbellGone r.val) := by
  unfold wholeBell at hwhole
  show execDoorbellReadDone r d s = _
  simp only [execDoorbellReadDone, hpoll, hrun, hawaits, ofNat_fld_toNat, hwhole]
  rfl

/-- A torn doorbell is counted, and read again or left to the next poll (R247). -/
theorem exec_doorbellReadDone_torn {r : RingNo} {d : Line64} {s : State} {p : Poll} (hpoll : s.hif.poll = some p)
    (hrun : s.running = true) (hawaits : p.doorbells.contains r.val = true) (hwhole : wholeBell d = false) :
    exec (.doorbellReadDone r d) s = .next (
      if (s.ring r.val).torn then ((s.count .hifDbTorn (r.val / 64) 1).setRing r.val
        { s.ring r.val with torn := false, reflag := true }).doorbellGone r.val
      else ((s.count .hifDbTorn (r.val / 64) 1).setRing r.val { s.ring r.val with torn := true }).hostRead (r.val / 64)
        (.doorbell r) (s.ringAddr .hifDbLo .hifDbHi r.val) 64) := by
  unfold wholeBell at hwhole
  show execDoorbellReadDone r d s = _
  simp only [execDoorbellReadDone, hpoll, hrun, hawaits, ofNat_fld_toNat, hwhole, Bool.not_true, Bool.or_self,
    Bool.false_eq_true, if_false]
  split <;> rfl

theorem State.doorbellGone_ring (s : State) (r q : Nat) : (s.doorbellGone r).ring q = s.ring q :=
  State.ring_congr ((State.doorbellGone_only (.refl _ s) (Nat.or_self _)).hif.rings.resolve_left (by decide)) q

/-! ### Consumer lines -/

theorem exec_consumerLineReadDone {c : ConsLine} {d : Line64} {v : Word} {s : State} {p : Poll} (hpoll : s.hif.poll = some p)
    (hrun : s.running = true) (hawaits : p.awaits c = true) (hline : lineCons d = some v) :
    exec (.consumerLineReadDone c d) s = .next ((s.takeCons c v).lineGone c) := by
  show execConsumerLineReadDone c d s = _
  simp only [execConsumerLineReadDone, hpoll, hrun, hawaits, hline]
  rfl

end Sys2Proof.Machine

open Sys2Proof Sys2Proof.Machine

/-- Settles O12: the summary words, a whole doorbell, a torn one, and the two kinds of consumer line. -/
theorem pollTaken : Obligations.PollTaken := by
  unfold Obligations.PollTaken
  refine ⟨?_, ?_, ?_, ?_, ?_⟩
  · intro lines sep s p hpoll hrun hsum hsep
    obtain ⟨flagged, hexec⟩ := exec_summaryReadDone (lines := lines) (sep := sep) hpoll hrun hsum hsep
    refine ⟨_, hexec, fun r => ?_⟩
    rw [State.ring_congr ((State.readDoorbells_only (.refl _ _) (Nat.or_self _)).hif.rings.resolve_left (by decide))]
    exact s.flagGalleries_lineWords lines r
  · intro r d s p hpoll hrun hawaits hprod hcons hforward hsize hconsumed
    have htake : s.takeDoorbell r.val (BitVec.ofNat 32 (fld d 0 31 0)) (BitVec.ofNat 32 (fld d 4 31 0)) = s.setRing r.val
        { s.ring r.val with p0 := BitVec.ofNat 32 (fld d 0 31 0), c0 := BitVec.ofNat 32 (fld d 4 31 0), torn := false } := by
      simp only [State.takeDoorbell, hforward, hsize, hconsumed]
      rfl
    refine ⟨_, exec_doorbellReadDone_whole hpoll hrun hawaits (by simp [wholeBell, hprod, hcons]), ?_⟩
    simp only [State.doorbellGone_ring, htake]
    exact ⟨State.setRing_ring .., fun q hq => State.setRing_ring_ne _ hq⟩
  · intro r d s p hpoll hrun hawaits htorn
    refine ⟨_, exec_doorbellReadDone_torn hpoll hrun hawaits (by simpa [wholeBell] using htorn), ?_⟩
    split
    · simp only [State.doorbellGone_ring]
      exact ⟨State.setRing_ring .., fun q hq => State.setRing_ring_ne _ hq⟩
    · simp only [State.hostRead_ring]
      exact ⟨State.setRing_ring .., fun q hq => State.setRing_ring_ne _ hq⟩
  · intro k d v s p hpoll hrun hawaits hline hlegal
    refine ⟨_, exec_consumerLineReadDone (c := .stream k) hpoll hrun hawaits hline, ?_⟩
    have hctx (j : Nat) : ((s.takeCons (.stream k) v).lineGone (.stream k)).ctx j =
        (s.setCtx k.val { s.ctx k.val with cons := v }).ctx j := by
      rw [State.ctx_congr ((State.lineGone_only (.refl _ _) (Nat.or_self _)).doc.ctxs.resolve_left (by decide)), State.takeCons]
      exact congrArg (State.ctx · j) (if_pos hlegal)
    exact ⟨(hctx _).trans (State.setCtx_ctx ..), fun j hj => (hctx j).trans (State.setCtx_ctx_ne _ hj)⟩
  · intro d v s p hpoll hrun hawaits hline hlegal
    refine ⟨_, exec_consumerLineReadDone (c := .incident) hpoll hrun hawaits hline, ?_⟩
    rw [(State.lineGone_only (.refl _ _) (Nat.or_self _)).ras.cons.resolve_left (by decide), State.takeCons, if_pos hlegal]
end

section
/-! The statements on the host interface: fetched descriptors (R240, R242, R246, R249 to R251). -/

namespace Sys2Proof.Machine

/-! ### An entry that is fetched -/

theorem exec_descriptorReadDone {r : RingNo} {f : Fetched} {s : State} {p : Poll} {n : Nat} (hpoll : s.hif.poll = some p)
    (hrun : s.running = true) (hasked : p.descriptors.find? (fun d => d.1 == r.val) = some (r.val, n + 1)) :
    exec (.descriptorReadDone r [f]) s = .next ((s.fetchEntry r f).1.entriesGone r.val) := by
  show execDescriptorReadDone r [f] s = _
  simp only [execDescriptorReadDone, hpoll, hasked, hrun, List.take_succ_cons, List.take_nil, State.fetchEntries, if_true,
    ite_self]

/-- The entry as the poll keeps it. -/
def State.entryOf (s : State) (r : RingNo) (f : Fetched) : PollEntry :=
  { ring := r, index := (s.ring r.val).fidx, entry := f, late := false }

/-- An entry with the right phase of a ring that has descriptors to fetch is fetched, and FIDX moves on (R249, R250). -/
theorem State.fetchEntry_right {s : State} {p : Poll} {r : RingNo} {f : Fetched} (hpoll : s.hif.poll = some p)
    (hmore : (s.ring r.val).fidx ≠ (s.ring r.val).p0) (hhalt : (s.ring r.val).halt = false)
    (hphase : fbit f.d 62 0 = s.phaseOf r.val (s.ring r.val).fidx) :
    (s.fetchEntry r f).1 = (s.advance r.val).setPoll { p with fetched := p.fetched ++ [s.entryOf r f] } := by
  have hstash : (s.advance r.val).stash (s.entryOf r f) =
      (s.advance r.val).setPoll { p with fetched := p.fetched ++ [s.entryOf r f] } := by
    have hadvance : (s.advance r.val).hif.poll = some p := hpoll
    rw [State.stash, hadvance]
  rw [← hstash]
  unfold State.fetchEntry
  simp only [beq_false_of_ne hmore, hhalt, hphase, beq_self_eq_true, Bool.or_self, Bool.false_eq_true, if_false, if_true]
  rfl

/-- An entry with the wrong phase stays where it is at its first three polls (R251). -/
theorem State.fetchEntry_wrong {s : State} {r : RingNo} {f : Fetched} (hmore : (s.ring r.val).fidx ≠ (s.ring r.val).p0)
    (hhalt : (s.ring r.val).halt = false) (hphase : fbit f.d 62 0 ≠ s.phaseOf r.val (s.ring r.val).fidx)
    (hbad : (s.ring r.val).phaseBad < 3) :
    (s.fetchEntry r f).1 = (s.setRing r.val { s.ring r.val with phaseBad := (s.ring r.val).phaseBad + 1 }).count .hifPhaseWait
      (r.val / 64) 1 := by
  unfold State.fetchEntry
  simp only [beq_false_of_ne hmore, hhalt, beq_false_of_ne hphase, hbad, Bool.or_self, Bool.false_eq_true, if_false, if_true]

/-- While the poll awaits other rings it keeps what is fetched. -/
theorem State.entriesGone_others {s : State} {p : Poll} {r : Nat} (hpoll : s.hif.poll = some p)
    (hothers : p.descriptors.any (fun d => d.1 != r) = true) :
    s.entriesGone r = s.setPoll { p with descriptors := p.descriptors.filter (fun d => d.1 != r) } := by
  rw [State.entriesGone, hpoll]
  refine if_neg fun hempty => ?_
  obtain ⟨d, hd, hne⟩ := List.any_eq_true.mp hothers
  exact List.filter_eq_nil_iff.mp (List.isEmpty_iff.mp hempty) d hd hne

/-- Once the poll awaits no ring the one entry fetched is accepted (R246). -/
theorem State.entriesGone_last {s : State} {p : Poll} {r n : Nat} {e : PollEntry}
    (hpoll : s.hif.poll = some { p with fetched := [e] }) (hlast : p.descriptors = [(r, n)]) :
    s.entriesGone r = ((s.setPoll { p with descriptors := [], fetched := [] }).acceptEntry e).pollSettle := by
  have hleft : p.descriptors.filter (fun d => d.1 != r) = [] := by
    rw [hlast, List.filter_singleton, bne_self_eq_false]
    rfl
  rw [State.entriesGone, hpoll]
  dsimp only
  rw [hleft]
  rfl

/-- The state in which an entry of the last ring awaited is accepted. -/
def State.fetchedLast (s : State) (r : Nat) (p : Poll) : State :=
  (s.advance r).setPoll { p with descriptors := [], fetched := [] }

theorem exec_descriptorReadDone_last {r : RingNo} {f : Fetched} {s : State} {p : Poll} {n : Nat} (hpoll : s.hif.poll = some p)
    (hlast : p.descriptors = [(r.val, n + 1)]) (hnone : p.fetched = []) (hrun : s.running = true)
    (hmore : (s.ring r.val).fidx ≠ (s.ring r.val).p0) (hhalt : (s.ring r.val).halt = false)
    (hphase : fbit f.d 62 0 = s.phaseOf r.val (s.ring r.val).fidx) :
    exec (.descriptorReadDone r [f]) s = .next ((s.fetchedLast r.val p).acceptEntry (s.entryOf r f)).pollSettle := by
  have hasked : p.descriptors.find? (fun d => d.1 == r.val) = some (r.val, n + 1) := by
    rw [hlast, List.find?_singleton, beq_self_eq_true]
    rfl
  rw [exec_descriptorReadDone hpoll hrun hasked, State.fetchEntry_right hpoll hmore hhalt hphase, hnone]
  exact congrArg Host.Outcome.next (State.entriesGone_last (s := (s.advance r.val).setPoll _) rfl hlast)

/-! ### An entry that is accepted -/

/-- A descriptor whose opcode is a row's has the effect of the row's command (R241). -/
theorem State.acceptLine_row : ∀ x ∈ descRows, x.opcode ≠ 0x78 → ∀ (o : Origin) (f : Fetched) (s : State),
    fld f.d 0 7 0 = x.opcode → ∃ v, exec (x.make o f.d) s = .next v ∧ s.acceptLine o f = some v := by
  intro x hx hhub o f s hop
  simp only [descRows, dmaRows, coreRows, hubRows, List.mem_append, List.mem_cons, List.not_mem_nil, or_false] at hx
  unfold State.acceptLine
  dsimp only
  rw [hop]
  rcases hx with ((((rfl | rfl) | (rfl | rfl | rfl | rfl | rfl | rfl | rfl)) | (rfl | rfl | rfl | rfl | rfl | rfl | rfl |
    rfl | rfl | rfl | rfl | rfl | rfl | rfl | rfl | rfl | rfl | rfl | rfl | rfl | rfl | rfl | rfl | rfl | rfl | rfl)) |
    (rfl | rfl | rfl)) | (rfl | rfl | rfl | rfl | rfl)
  any_goals exact absurd rfl hhub
  all_goals exact ⟨_, rfl, rfl⟩

/-- Opcodes that are not assigned (R241). -/
def spareOpcodes : List Nat := [0x00, 0x03, 0x1F, 0x28, 0x3F, 0x47, 0x5F, 0x65, 0x67, 0x77, 0x79, 0xFF]

/-- No unit takes a descriptor of an opcode that is not assigned (R241). -/
theorem State.acceptLine_spare (s : State) (o : Origin) {f : Fetched} (hop : fld f.d 0 7 0 ∈ spareOpcodes) :
    s.acceptLine o f = none := by
  unfold State.acceptLine
  dsimp only
  generalize fld f.d 0 7 0 = n at hop
  simp only [spareOpcodes, List.mem_cons, List.not_mem_nil, or_false] at hop
  rcases hop with rfl | rfl | rfl | rfl | rfl | rfl | rfl | rfl | rfl | rfl | rfl | rfl
  all_goals rfl

/-! ### An entry that fails a check of its own -/

/-- The completion of a ring's descriptor counts nothing. -/
theorem State.complete_ring_counters {s : State} {unit : Nat} {o : Op} {x : Done} {r : RingNo} {i : Word}
    (horg : o.org = .ring r i) :
    (s.complete unit o x).cat.counters = s.cat.counters := by
  simp only [State.complete, State.countOverrun, horg, ite_self]
  have hstart := OnlyM.refl (mask [.hifRings, .hifInflight, .hifFences, .catRings, .catStarted, .catTrace, .free, .out]) s
  exact (State.settleFence_only (State.recordOp_only (State.opEvent_only hstart (by decide)) (by decide))
    (Nat.or_self _)).cat.counters.resolve_left (by decide)

/-- From one state to the other a ring got a BAD_DESCRIPTOR record of a cause, and what it has fetched stays (R242, R254). -/
structure State.RefusesLine (s : State) (r : RingNo) (i : Word) (d : Line64) (cause : Nat) (t : State) : Prop where
  fidx : (t.ring r.val).fidx = (s.ring r.val).fidx
  cw : (t.ring r.val).cw = (s.ring r.val).cw + 1
  sent : .hostWrite (r.val / 64) (s.recordAddr r.val (s.ring r.val).cw)
    (s.record r.val (fld d 2 15 0) (fld d 0 7 0) Status.badDescriptor.code cause 0 0 i.toNat) ∈ t.out
  counters : t.cat.counters = s.cat.counters

theorem State.refuseLine_refuses {s : State} {r : RingNo} (i : Word) (d : Line64) (cause : Nat)
    (hfence : s.fenced r.val = false) (hcut : s.cutOff (r.val / 64) = false) :
    s.RefusesLine r i d cause (s.refuseLine (.ring r i) d cause 0) := by
  obtain ⟨⟨hcw, hout, -⟩, hring, -⟩ := State.taken_complete (unit := srcHub hubHost) (i := i) (d := d)
    (opcode := fld d 0 7 0) (x := { st := .badDescriptor, cause := cause, off := 0 }) hfence hcut
  exact {
    fidx := (congrArg Ring.fidx hring :)
    cw := hcw
    sent := hout ▸ List.mem_append_right _ (List.mem_singleton_self _)
    counters := State.complete_ring_counters (State.asOp_org s (.ring r i) d _) }

theorem State.pollSettle_only_poll (s : State) : OnlyM (mask [.hifPoll]) s s.pollSettle :=
  State.pollSettle_only (.refl _ s) (Nat.or_self _)

/-- The end of the poll takes nothing of it back. -/
theorem State.RefusesLine.settled {s t : State} {r : RingNo} {i : Word} {d : Line64} {cause : Nat}
    (h : s.RefusesLine r i d cause t) :
    s.RefusesLine r i d cause t.pollSettle := by
  have honly := t.pollSettle_only_poll
  have hring := State.ring_congr (honly.hif.rings.resolve_left (by decide)) r.val
  exact {
    fidx := (congrArg Ring.fidx hring).trans h.fidx
    cw := (congrArg Ring.cw hring).trans h.cw
    sent := (honly.out.resolve_left (by decide)).symm ▸ h.sent
    counters := (honly.cat.counters.resolve_left (by decide)).trans h.counters }

/-- A fetched entry whose control check fails is counted and refused with cause 1 (R239, R242). -/
theorem State.acceptEntry_badCheck (s : State) {e : PollEntry} (hlate : e.late = false)
    (hcheck : fld e.entry.d 60 15 0 ≠ descCrc e.entry.d) :
    s.acceptEntry e = (s.count .hifCrcFail (e.ring.val / 64) 1).refuseLine (.ring e.ring e.index) e.entry.d 1 0 := by
  unfold State.acceptEntry
  simp only [hlate, bne_iff_ne.mpr hcheck, Bool.false_eq_true, if_false, if_true]

/-- A fetched entry in order of an opcode that is not assigned is refused with cause 3 (R241, R242). -/
theorem State.acceptEntry_spare (s : State) {e : PollEntry} (hlate : e.late = false)
    (hcheck : fld e.entry.d 60 15 0 = descCrc e.entry.d) (hop : fld e.entry.d 0 7 0 ∈ spareOpcodes) :
    s.acceptEntry e = s.refuseLine (.ring e.ring e.index) e.entry.d 3 0 := by
  unfold State.acceptEntry
  simp only [hlate, hcheck, bne_self_eq_false, Bool.false_eq_true, if_false, s.acceptLine_spare _ hop]

/-- A fetched entry in order of an assigned opcode has the effect of its command (R241, R242). -/
theorem State.acceptEntry_row (s : State) {e : PollEntry} {v : State} (hlate : e.late = false)
    (hcheck : fld e.entry.d 60 15 0 = descCrc e.entry.d) (haccept : s.acceptLine (.ring e.ring e.index) e.entry = some v) :
    s.acceptEntry e = v := by
  unfold State.acceptEntry
  simp only [hlate, hcheck, bne_self_eq_false, Bool.false_eq_true, if_false, haccept]

theorem State.fetchedLast_ring (s : State) (r : Nat) (p : Poll) :
    (s.fetchedLast r p).ring r = { s.ring r with fidx := (s.ring r).fidx + 1, phaseBad := 0 } := State.setRing_ring ..

end Sys2Proof.Machine

open Sys2Proof Sys2Proof.Machine

/-- Settles O13: an entry that is kept, then an entry of the last ring awaited that is run, fails its check, is of no opcode
assigned, or has the wrong phase. -/
theorem descriptorTaken : Obligations.DescriptorTaken := by
  unfold Obligations.DescriptorTaken
  refine ⟨?_, ?_⟩
  · intro r f s p n hpoll hrun hasked hothers hmore hhalt hphase
    rw [exec_descriptorReadDone hpoll hrun hasked, State.fetchEntry_right hpoll hmore hhalt hphase]
    exact congrArg Host.Outcome.next (State.entriesGone_others (s := (s.advance r.val).setPoll _) rfl hothers)
  · intro r f s _ p n hpoll hlast hnone hrun hmore hhalt hu
    subst hu
    have hring := s.fetchedLast_ring r.val p
    have hlastRead := exec_descriptorReadDone_last (f := f) hpoll hlast hnone hrun hmore hhalt
    refine ⟨fun x hx hhub hop hphase hcheck => ?_, fun hphase hcheck hfence hcut => ?_,
      fun hphase hcheck hop hfence hcut => ?_, fun hphase hbad => ?_⟩
    · obtain ⟨v, hexec, haccept⟩ :=
        State.acceptLine_row x hx hhub (.ring r (s.ring r.val).fidx) f (s.fetchedLast r.val p) hop
      refine ⟨v, hexec, ?_⟩
      rw [hlastRead hphase, State.acceptEntry_row (e := s.entryOf r f) _ rfl hcheck haccept]
    · let u := (s.fetchedLast r.val p).count .hifCrcFail (r.val / 64) 1
      have hrefused := (State.refuseLine_refuses (s := u) (s.ring r.val).fidx f.d 1 hfence hcut).settled
      have hu : u.ring r.val = { s.ring r.val with fidx := (s.ring r.val).fidx + 1, phaseBad := 0 } := hring
      refine ⟨_, (hlastRead hphase).trans (congrArg (fun t : State => Host.Outcome.next t.pollSettle)
        (State.acceptEntry_badCheck (e := s.entryOf r f) _ rfl hcheck)), ?_, ?_, ?_, ?_⟩
      · exact hrefused.fidx.trans (congrArg Ring.fidx hu)
      · exact hrefused.cw.trans (congrArg (fun x : Ring => x.cw + 1) hu :)
      · have hsent := hrefused.sent
        rw [show (u.ring r.val).cw = (s.ring r.val).cw from (congrArg Ring.cw hu :)] at hsent
        exact hsent
      · exact (congrArg (Tbl.look · _ 0) hrefused.counters).trans (Tbl.look_put_self ..)
    · have hrefused := (State.refuseLine_refuses (s := s.fetchedLast r.val p) (s.ring r.val).fidx f.d 3 hfence hcut).settled
      refine ⟨_, (hlastRead hphase).trans (congrArg (fun t : State => Host.Outcome.next t.pollSettle)
        (State.acceptEntry_spare (e := s.entryOf r f) _ rfl hcheck hop)), hrefused.fidx.trans (congrArg Ring.fidx hring), ?_⟩
      have hsent := hrefused.sent
      rw [hring] at hsent
      exact hsent
    · have hasked : p.descriptors.find? (fun d => d.1 == r.val) = some (r.val, n + 1) := by
        rw [hlast, List.find?_singleton, beq_self_eq_true]
        rfl
      have hfetch := State.fetchEntry_wrong (f := f) hmore hhalt hphase hbad
      have honly : OnlyM (mask [.hifPoll]) (s.fetchEntry r f).1 ((s.fetchEntry r f).1.entriesGone r.val) :=
        State.entriesGone_only_poll fun q hq => by
          rw [hfetch] at hq
          cases Option.some.inj (hpoll.symm.trans hq)
          exact .inl hnone
      have hrings (q : Nat) := State.ring_congr (honly.hif.rings.resolve_left (by decide)) q
      refine ⟨_, exec_descriptorReadDone hpoll hrun hasked, ?_⟩
      rw [hfetch] at honly hrings ⊢
      exact ⟨(hrings _).trans (State.setRing_ring ..), honly.hif.inflight.resolve_left (by decide),
        honly.out.resolve_left (by decide), fun q hq => (hrings q).trans (State.setRing_ring_ne _ hq)⟩
end

section
/-! The statements on function resets (R263, R264, R444, R452). -/

namespace Sys2Proof.Machine

/-! ### A poll that has fetched nothing -/

/-- What the poll writes while it has fetched nothing (R246). -/
def pollLeaves : Nat := mask [.hifPoll, .catCounters, .out]

/-- From one state to the other the poll has gone on with nothing fetched, and all else it has written are messages and
counts. -/
def State.QuietPoll (s t : State) : Prop := OnlyM pollLeaves s t ∧ t.NoneFetched

theorem State.QuietPoll.trans {s t u : State} (h : s.QuietPoll t) (k : t.QuietPoll u) : s.QuietPoll u :=
  ⟨h.1.step k.1 (Nat.or_self _), k.2⟩

theorem State.QuietPoll.foldl {α : Type} {f : State → α → State}
    (h : ∀ (u : State) x, u.NoneFetched → u.QuietPoll (f u x)) (l : List α) {s : State}
    (hs : s.NoneFetched) : s.QuietPoll (l.foldl f s) := by
  induction l generalizing s with
  | nil => exact ⟨.refl _ s, hs⟩
  | cons x l ih => exact (h s x hs).trans (ih (h s x hs).2)

/-- What leaves the poll alone leaves nothing fetched where nothing was. -/
theorem OnlyM.noneFetched {m : Nat} {s t : State} (h : OnlyM m s t) (e : m.testBit Leaf.hifPoll.ctorIdx = false)
    (hs : s.NoneFetched) : t.NoneFetched := by
  have hpoll : t.hif.poll = s.hif.poll := h.hif.poll.resolve_left (fun b => Bool.false_ne_true (e.symm.trans b))
  rwa [State.NoneFetched, hpoll]

theorem State.setPoll_quietPoll (s : State) {p : Poll} (hp : p.fetched = []) : s.QuietPoll (s.setPoll p) :=
  ⟨State.setPoll_only (.refl _ s) (by decide), fun _ h => Option.some.inj h ▸ hp⟩

theorem State.pollSettle_quietPoll {s : State} (hs : s.NoneFetched) : s.QuietPoll s.pollSettle := by
  refine ⟨State.pollSettle_only (.refl _ s) (by decide), ?_⟩
  unfold State.pollSettle
  split
  · exact hs
  · split
    · exact fun _ h => nomatch h
    · exact hs

theorem State.planFetch_quietPoll {s : State} (hs : s.NoneFetched) : s.QuietPoll s.planFetch := by
  refine ⟨State.planFetch_only (.refl _ s) (by decide), ?_⟩
  unfold State.planFetch
  split
  · exact hs
  · exact (State.pollSettle_quietPoll (State.setPoll_quietPoll _ rfl).2).2

theorem State.doorbellGone_quietPoll {s : State} (r : Nat) (hs : s.NoneFetched) : s.QuietPoll (s.doorbellGone r) := by
  unfold State.doorbellGone
  split
  · exact ⟨.refl _ s, hs⟩
  · next p hp =>
    extract_lets rest u
    have hset : s.QuietPoll u := s.setPoll_quietPoll (hs p hp)
    split
    · exact hset.trans (State.planFetch_quietPoll hset.2)
    · exact hset

theorem State.entriesGone_quietPoll {s : State} (r : Nat) (hs : s.NoneFetched) : s.QuietPoll (s.entriesGone r) := by
  unfold State.entriesGone
  split
  · exact ⟨.refl _ s, hs⟩
  · next p hp =>
    extract_lets left u
    have hset : s.QuietPoll u := s.setPoll_quietPoll (hs p hp)
    split
    · rw [State.acceptFetched_none hset.2]
      exact hset.trans (State.pollSettle_quietPoll hset.2)
    · exact hset

/-- Once the separate summary words are back and no doorbell is to be read, the poll plans what it fetches. -/
theorem State.readDoorbells_quietPoll (s : State) {p : Poll} (hp : p.fetched = []) : s.QuietPoll (s.readDoorbells p []) :=
  have hset := s.setPoll_quietPoll (p := { p with summary := false, sep := [], doorbells := [] }) hp
  hset.trans (State.planFetch_quietPoll hset.2)

/-- A gallery taken out of a poll that has fetched nothing starts no operation (R263). -/
theorem State.cutPoll_quietPoll {s : State} (g : Nat) (hs : s.NoneFetched) : s.QuietPoll (s.cutPoll g) := by
  unfold State.cutPoll
  split
  · exact ⟨.refl _ s, hs⟩
  · next p hp =>
    extract_lets cons p' bells reads u
    have hcut : s.QuietPoll u :=
      have hset := s.setPoll_quietPoll (p := p') (hs p hp)
      have hbells := hset.trans (.foldl (fun _ r => State.doorbellGone_quietPoll r) bells hset.2)
      hbells.trans (.foldl (fun _ r => State.entriesGone_quietPoll r) reads hbells.2)
    split
    · exact hcut.trans (u.readDoorbells_quietPoll (hs p hp))
    · exact hcut.trans (State.pollSettle_quietPoll hcut.2)

/-! ### The parts of a gallery's reset -/

/-- What a reset does to one gallery once the rings of all galleries reset are at their reset values (R263). -/
def State.cutGallery (s : State) (g : Nat) : State := ((((s.cutPoll g).cutStreams g).cutCores g).cutDma g).closeGallery g

theorem State.galleriesReset_eq (s : State) (gs : List Nat) :
    s.galleriesReset gs = gs.foldl State.cutGallery (gs.foldl State.resetRings s) := rfl

/-- Every leaf of the state but one. -/
def leavesBut (p : Leaf) : Nat := (2 ^ 165 - 1) ^^^ 1 <<< p.ctorIdx

theorem State.cutGallery_only (s : State) (g : Nat) : OnlyM (leavesBut .hifInReset) s (s.cutGallery g) :=
  State.closeGallery_only (State.cutDma_only (State.cutCores_only (State.cutStreams_only
    (State.cutPoll_only (.refl _ s) (by decide)) (by decide)) (by decide)) (by decide)) (by decide)

/-- What the cutting of a gallery writes beside its poll. -/
def cutLeaves : Nat := mask [.hifRings, .hifInflight, .hifFences, .hifPoll, .dmaOps, .dmaStops, .docCtxs, .docAppends,
  .docPolicies, .docCancels, .docReleases, .docOwedNotices, .docGroups, .tiersObjs, .tiersPanels, .tiersMaps, .tiersMigs,
  .tiersT0used, .tiersRepairs, .tiersWriteQ, .tiersObjRun, .tiersObjWait, .cores, .fabWindows, .catCounters, .catRings, .catWaits,
  .catStarted, .catTrace, .free, .out]

/-- With nothing fetched a gallery is cut without a write to memory, and nothing is fetched after it. -/
theorem State.cutGallery_quiet {s : State} (g : Nat) (hs : s.NoneFetched) :
    OnlyM cutLeaves s (s.cutGallery g) ∧ (s.cutGallery g).NoneFetched := by
  obtain ⟨hpoll, hnone⟩ := State.cutPoll_quietPoll g hs
  have hrest : OnlyM (leavesBut .hifPoll) (s.cutPoll g) (s.cutGallery g) :=
    State.closeGallery_only (State.cutDma_only (State.cutCores_only (State.cutStreams_only (.refl _ _)
      (by decide)) (by decide)) (by decide)) (by decide)
  refine ⟨?_, hrest.noneFetched (by decide) hnone⟩
  exact State.closeGallery_only (State.cutDma_only (State.cutCores_only (State.cutStreams_only
    ((OnlyM.refl _ s).step hpoll (by decide)) (by decide)) (by decide)) (by decide)) (by decide)

/-! ### The rings of the galleries reset -/

/-- Every descriptor that stands fetched and not accepted is of one of these galleries. -/
def State.FetchedWithin (s : State) (gs : List Nat) : Prop :=
  ∀ p, s.hif.poll = some p → ∀ e ∈ p.fetched, e.ring.val / 64 ∈ gs

/-- Where only the galleries reset have descriptors fetched, none stands fetched once their rings are reset. -/
theorem State.foldl_resetRings_noneFetched {gs : List Nat} {s : State}
    (h : s.FetchedWithin gs) : (gs.foldl State.resetRings s).NoneFetched := by
  induction gs generalizing s with
  | nil => exact fun p hp => List.eq_nil_iff_forall_not_mem.mpr (fun e he => List.not_mem_nil (h p hp e he))
  | cons g gs ih =>
    refine ih fun p hp e he => ?_
    obtain ⟨q, hq, rfl⟩ := Option.map_eq_some_iff.mp (show s.hif.poll.map _ = some p from hp)
    obtain ⟨hfetched, hother⟩ := List.mem_filter.mp he
    exact (List.mem_cons.mp (h q hq e hfetched)).resolve_left (by simpa using hother)

theorem State.mem_resetRings_inReset (s : State) (g n : Nat) :
    n ∈ (s.resetRings g).hif.inReset ↔ n = g ∨ n ∈ s.hif.inReset := by
  show n ∈ (if s.hif.inReset.contains g then s.hif.inReset else s.hif.inReset ++ [g]) ↔ _
  split
  · next hin => exact ⟨.inr, fun h => h.elim (fun he => he ▸ List.contains_iff_mem.mp hin) id⟩
  · rw [List.mem_append, List.mem_singleton, or_comm]

theorem State.mem_foldl_resetRings_inReset (gs : List Nat) (s : State) (n : Nat) :
    n ∈ (gs.foldl State.resetRings s).hif.inReset ↔ n ∈ gs ∨ n ∈ s.hif.inReset := by
  induction gs generalizing s with
  | nil => simp
  | cons g gs ih => rw [List.foldl_cons, ih, State.mem_resetRings_inReset, List.mem_cons, or_assoc, or_left_comm]

/-- The galleries that are in reset after a function reset (R263, R264). -/
theorem State.mem_galleriesReset_inReset (s : State) (gs : List Nat) (n : Nat) :
    n ∈ (s.galleriesReset gs).hif.inReset ↔ n ∈ gs ∨ n ∈ s.hif.inReset := by
  have honly := OnlyM.foldl (l := gs) (.refl (leavesBut .hifInReset) (gs.foldl State.resetRings s)) State.cutGallery_only
  rw [State.galleriesReset_eq, honly.hif.inReset.resolve_left (by decide), State.mem_foldl_resetRings_inReset]

/-! ### TDIs (R444) -/

theorem State.tdiFails_tdi (s : State) (n : Nat) :
    (s.tdiFails n).tdi n = if s.tdi n = .locked ∨ s.tdi n = .run then .error else s.tdi n := by
  have hlocked : (s.tdi n).isLocked = true ↔ s.tdi n = .locked ∨ s.tdi n = .run := by simp [TdiSt.isLocked]
  rw [State.tdiFails]
  split
  · next h => rw [State.setTdi_tdi, if_pos (hlocked.mp h)]
  · next h => rw [if_neg (mt hlocked.mpr h)]

theorem State.tdiFails_tdi_ne (s : State) {n j : Nat} (h : j ≠ n) : (s.tdiFails n).tdi j = s.tdi j := by
  rw [State.tdiFails]
  split
  · exact State.setTdi_tdi_ne s h
  · rfl

/-! ### The streams of a gallery -/

theorem Tbl.mem_of_find {α : Type} {t : Tbl α} {k : Nat} {v : α} (h : t.find k = some v) : (k, v) ∈ t := by
  induction t with
  | nil => nomatch h
  | cons e t ih =>
    rw [Tbl.find] at h
    split at h
    · next hk => exact hk ▸ Option.some.inj h ▸ .head _
    · exact .tail _ (ih h)

theorem Tbl.find_of_mem {α : Type} {t : Tbl α} (hsorted : t.sorted = true) {e : Nat × α} (he : e ∈ t) :
    t.find e.1 = some e.2 := by
  induction t with
  | nil => nomatch he
  | cons x t ih =>
    have habove : Tbl.above t x.1 = true := hsorted
    rw [Tbl.find]
    rcases List.mem_cons.mp he with rfl | he
    · rw [if_pos rfl]
    · rw [if_neg (Nat.ne_of_lt (Tbl.above_of_mem t habove e he)), ih (Tbl.sorted_of_above t habove) he]

/-- The streams a reset of a gallery takes. -/
def State.streamNos (s : State) (g : Nat) : List Nat := (s.streamsOf g).map Prod.fst

theorem State.streamNos_congr {s t : State} (h : t.doc.ctxs = s.doc.ctxs) (g : Nat) : t.streamNos g = s.streamNos g := by
  simp only [State.streamNos, State.streamsOf, h]

theorem State.mem_streamNos {s : State} {g k : Nat} (hgal : (s.ctx k).gal = g) (hst : (s.ctx k).st ≠ .free) :
    k ∈ s.streamNos g := by
  cases hfind : Tbl.find s.doc.ctxs k with
  | none =>
    rw [State.ctx, Tbl.look, hfind] at hst
    exact absurd rfl hst
  | some x =>
    have hctx : s.ctx k = x := by rw [State.ctx, Tbl.look, hfind]; rfl
    rw [hctx] at hgal hst
    exact List.mem_map.mpr ⟨(k, x), List.mem_filter.mpr ⟨Tbl.mem_of_find hfind, by simp [hgal, hst]⟩, rfl⟩

theorem State.gal_of_mem_streamNos {s : State} {g k : Nat} (hsorted : Tbl.sorted s.doc.ctxs = true) (h : k ∈ s.streamNos g) :
    (s.ctx k).gal = g := by
  obtain ⟨e, he, rfl⟩ := List.mem_map.mp h
  obtain ⟨hmem, hof⟩ := List.mem_filter.mp he
  have hctx : s.ctx e.1 = e.2 := by rw [State.ctx, Tbl.look, Tbl.find_of_mem hsorted hmem]; rfl
  rw [hctx]
  simp only [Bool.and_eq_true, beq_iff_eq] at hof
  exact hof.1

theorem State.foldl_cut_ctx (ks : List Nat) (s : State) (k : Nat) :
    (ks.foldl (fun s k => s.setCtx k (s.ctx k).cut) s).ctx k = if k ∈ ks then (s.ctx k).cut else s.ctx k := by
  induction ks generalizing s with
  | nil => rfl
  | cons j ks ih =>
    rw [List.foldl_cons, ih]
    by_cases hk : k = j
    · subst hk
      simp only [State.setCtx_ctx, List.mem_cons_self, if_true]
      exact ite_self _
    · simp only [State.setCtx_ctx_ne s hk, List.mem_cons, hk, false_or]

/-- The stream contexts once a gallery is cut, where nothing was fetched: the gallery's streams are cut, the others as they
were. -/
theorem State.cutGallery_ctx {s : State} (g k : Nat) (hs : s.NoneFetched) :
    (s.cutGallery g).ctx k = if k ∈ s.streamNos g then (s.ctx k).cut else s.ctx k := by
  have hpoll : (s.cutPoll g).doc.ctxs = s.doc.ctxs := (State.cutPoll_quietPoll g hs).1.doc.ctxs.resolve_left (by decide)
  have hafter : OnlyM (leavesBut .docCtxs) ((s.cutPoll g).cutStreams g) (s.cutGallery g) :=
    State.closeGallery_only (State.cutDma_only (State.cutCores_only (.refl _ _) (by decide)) (by decide)) (by decide)
  calc (s.cutGallery g).ctx k
      = ((s.cutPoll g).cutStreams g).ctx k := hafter.ctx (by decide) k
    _ = if k ∈ (s.cutPoll g).streamNos g then ((s.cutPoll g).ctx k).cut else (s.cutPoll g).ctx k :=
        State.foldl_cut_ctx ((s.cutPoll g).streamNos g) (s.cutPoll g) k
    _ = _ := by rw [State.ctx_congr hpoll, State.streamNos_congr hpoll]

/-- Every stream of the galleries cut becomes RELEASING, and stays so (R263). -/
theorem State.foldl_cutGallery_releasing {gs : List Nat} {s : State} {k : Nat} (hs : s.NoneFetched)
    (hst : (s.ctx k).st ≠ .free) (h : (s.ctx k).gal ∈ gs ∨ (s.ctx k).st = .releasing) :
    ((gs.foldl State.cutGallery s).ctx k).st = .releasing := by
  induction gs generalizing s with
  | nil => exact h.resolve_left List.not_mem_nil
  | cons g gs ih =>
    have hctx := State.cutGallery_ctx g k hs
    have hnone := (State.cutGallery_quiet g hs).2
    by_cases hk : k ∈ s.streamNos g
    · rw [if_pos hk] at hctx
      exact ih hnone (by simp [hctx, Ctx.cut]) (.inr (by rw [hctx]; rfl))
    · rw [if_neg hk] at hctx
      have hgal : (s.ctx k).gal ≠ g := fun he => hk (State.mem_streamNos he hst)
      exact ih hnone (hctx ▸ hst) (hctx ▸ h.imp_left (fun hmem => (List.mem_cons.mp hmem).resolve_left hgal))

/-! ### The handles of a gallery -/

theorem Tbl.look_map {α : Type} (t : Tbl α) {f : α → α} (k : Nat) {d : α} (hd : f d = d) :
    Tbl.look (t.map (fun e => (e.1, f e.2))) k d = f (Tbl.look t k d) := by
  have hfind : Tbl.find (t.map (fun e => (e.1, f e.2))) k = (Tbl.find t k).map f := by
    induction t with
    | nil => rfl
    | cons e t ih =>
      rw [List.map_cons, Tbl.find, Tbl.find, ih]
      split <;> rfl
  rw [Tbl.look, Tbl.look, hfind]
  cases Tbl.find t k with
  | none => exact hd.symm
  | some v => rfl

/-- A core once a gallery is reset (R263). -/
def Core.cut (g : Nat) (k : Core) : Core :=
  { k with
      handles := k.handles.map (fun h => (h.1, h.2.cut g))
      waiting := k.waiting.filter (fun o => !(o.ringGal == some g && o.tileLike)) }

theorem Core.cut_handle (g : Nat) (k : Core) (e : Nat) : (k.cut g).handle e = (k.handle e).cut g :=
  Tbl.look_map k.handles e (by simp [Handle.cut])

theorem State.cutCores_core (s : State) (g c : Nat) : (s.cutCores g).core c = (s.core c).cut g :=
  Tbl.look_map (f := Core.cut g) s.cores c rfl

/-- A BOUND handle of a gallery that is reset drains under a new generation (R263). -/
theorem Handle.cut_of_bound {g : Nat} {h : Handle} (hgal : h.gal = g) (hst : h.st = .bound) :
    h.cut g = { h with st := .draining, gen := h.gen + 1, bindOp := none } := by
  simp [Handle.cut, hgal, hst]

/-- The state and the generation of a handle. -/
def Handle.phase (h : Handle) : HandleSt × BitVec 8 := (h.st, h.gen)

theorem Handle.phase_eq_iff {h k : Handle} : h.phase = k.phase ↔ h.st = k.st ∧ h.gen = k.gen := Prod.ext_iff

/-- Every handle keeps its state and its generation. -/
def State.KeepsPhases (s t : State) : Prop := ∀ c e, ((t.core c).handle e).phase = ((s.core c).handle e).phase

theorem State.KeepsPhases.trans {s t u : State} (h : s.KeepsPhases t) (k : t.KeepsPhases u) : s.KeepsPhases u :=
  fun c e => (k c e).trans (h c e)

theorem State.KeepsPhases.foldl {α : Type} {f : State → α → State}
    (h : ∀ (u : State) x, u.KeepsPhases (f u x)) (l : List α) (s : State) : s.KeepsPhases (l.foldl f s) := by
  induction l generalizing s with
  | nil => exact fun _ _ => rfl
  | cons x l ih => exact (h s x).trans (ih (f s x))

theorem OnlyM.keepsPhases {m : Nat} {s t : State} (h : OnlyM m s t) (e : m.testBit Leaf.cores.ctorIdx = false) :
    s.KeepsPhases t :=
  fun c i => by rw [State.core_congr (h.cores.resolve_left (fun b => Bool.false_ne_true (e.symm.trans b)))]

theorem State.setCore_keepsPhases {s : State} {j : Nat} {k : Core}
    (h : ∀ e, (k.handle e).phase = ((s.core j).handle e).phase) :
    s.KeepsPhases (s.setCore j k) := fun c e => by
  by_cases hc : c = j
  · rw [hc, State.setCore_core, h e]
  · rw [State.setCore_core_ne s hc]

theorem State.useHandle_keepsPhases (s : State) (core ref : Nat) (up : Bool) : s.KeepsPhases (s.useHandle core ref up) := by
  refine State.setCore_keepsPhases fun e => ?_
  by_cases he : e = refIndex ref
  · rw [he, Core.setHandle_handle]
    rfl
  · rw [Core.handle, Core.setHandle, Tbl.look_put_ne _ _ _ _ he]
    rfl

theorem State.dmaHandles_keepsPhases (s : State) (o : Op) (up : Bool) : s.KeepsPhases (s.dmaHandles o up) :=
  .foldl (fun u (e : Ep) => u.useHandle_keepsPhases e.core e.href up) o.scratchEps s

theorem State.dmaLeave_keepsPhases (s : State) (o : Op) : s.KeepsPhases (s.dmaLeave o) := by
  unfold State.dmaLeave
  extract_lets counted u v
  have hcount : s.KeepsPhases u := by
    unfold u
    split
    · exact s.dmaHandles_keepsPhases o false
    · exact fun _ _ => rfl
  have hleave : u.KeepsPhases v := by
    refine .foldl (fun w e => ?_) o.scratchEps u
    have hboard : w.KeepsPhases (w.sbLeave e.core o.id) := State.setCore_keepsPhases fun _ => rfl
    exact hboard.trans (State.setCore_keepsPhases fun _ => rfl)
  exact hcount.trans hleave

theorem State.cutDma_keepsPhases (s : State) (g : Nat) : s.KeepsPhases (s.cutDma g) := by
  unfold State.cutDma
  extract_lets mine u
  have hleave : s.KeepsPhases u := by
    refine .foldl (fun w x => (w.dmaLeave_keepsPhases x.op).trans ?_) _ s
    exact (State.settleStops_only (.refl _ _) (Nat.or_self _)).keepsPhases (by decide)
  refine hleave.trans (.foldl (fun w x => ?_) _ u)
  exact (State.updDma_only (.refl _ w) (Nat.or_self _)).keepsPhases (by decide)

/-- The handles once a gallery is cut, where nothing was fetched. -/
theorem State.cutGallery_phase {s : State} (g c e : Nat) (hs : s.NoneFetched) :
    (((s.cutGallery g).core c).handle e).phase = (((s.core c).handle e).cut g).phase := by
  have hbefore : OnlyM (leavesBut .cores) s ((s.cutPoll g).cutStreams g) :=
    State.cutStreams_only ((OnlyM.refl _ s).step (State.cutPoll_quietPoll g hs).1 (by decide)) (by decide)
  have hafter := (State.cutDma_keepsPhases (((s.cutPoll g).cutStreams g).cutCores g) g).trans
    ((State.closeGallery_only (a1 := g) (.refl _ _) (Nat.or_self _)).keepsPhases (by decide))
  rw [State.cutGallery, hafter c e, State.cutCores_core, Core.cut_handle,
    State.core_congr (hbefore.cores.resolve_left (by decide))]

/-! ### Descriptors in flight -/

theorem OnlyM.inflight {m : Nat} {s t : State} (h : OnlyM m s t) (e : m.testBit Leaf.hifInflight.ctorIdx = false) :
    t.hif.inflight = s.hif.inflight :=
  h.hif.inflight.resolve_left (fun b => Bool.false_ne_true (e.symm.trans b))

/-- From one state to the other no descriptor has come into flight. -/
def State.NoneAccepted (s t : State) : Prop := t.hif.inflight ⊆ s.hif.inflight

theorem State.NoneAccepted.trans {s t u : State} (h : s.NoneAccepted t) (k : t.NoneAccepted u) : s.NoneAccepted u :=
  List.Subset.trans k h

theorem State.NoneAccepted.foldl {α : Type} {f : State → α → State}
    (h : ∀ (u : State) x, u.NoneAccepted (f u x)) (l : List α) (s : State) : s.NoneAccepted (l.foldl f s) := by
  induction l generalizing s with
  | nil => exact List.Subset.refl _
  | cons x l ih => exact (h s x).trans (ih (f s x))

theorem OnlyM.noneAccepted {m : Nat} {s t : State} (h : OnlyM m s t) (e : m.testBit Leaf.hifInflight.ctorIdx = false) :
    s.NoneAccepted t := by
  rw [State.NoneAccepted, h.inflight e]
  exact List.Subset.refl _

theorem State.recordOp_noneAccepted (s : State) (r i : Nat) (o : Op) (x : Done) : s.NoneAccepted (s.recordOp r i o x) := by
  rw [State.NoneAccepted, State.recordOp]
  split
  · rw [State.ringRecord_hif_inflight]
    exact List.filter_subset_self _
  · exact List.Subset.refl _

theorem State.settleFence_noneAccepted (s : State) (r : Nat) : s.NoneAccepted (s.settleFence r) := by
  unfold State.settleFence
  split
  · exact List.Subset.refl _
  · next f _ =>
    extract_lets src u i
    have hevent : s.NoneAccepted (u.opEvent (srcHub hubHost) 3 f .ok) := by
      rw [State.NoneAccepted, State.opEvent_hif_inflight]
      exact List.Subset.refl _
    exact hevent.trans (State.recordOp_noneAccepted ..)

/-- A completion takes its descriptor out of flight and brings none into it (R254). -/
theorem State.complete_noneAccepted (s : State) (unit : Nat) (o : Op) (x : Done) : s.NoneAccepted (s.complete unit o x) := by
  unfold State.complete
  extract_lets refused u
  have hevent : s.NoneAccepted u := by
    rw [State.NoneAccepted, State.opEvent_hif_inflight]
    split
    · exact List.Subset.refl _
    · exact (State.countOverrun_only (.refl _ s) (Nat.or_self _)).noneAccepted (by decide)
  split
  · exact hevent.trans ((State.recordOp_noneAccepted ..).trans (State.settleFence_noneAccepted ..))
  · exact hevent

theorem State.endReleases_noneAccepted (s : State) : s.NoneAccepted s.endReleases := by
  refine .foldl (fun u m => ?_) s.tiers.maps s
  split
  · exact List.Subset.refl _
  · next o _ =>
    split
    · exact List.Subset.refl _
    · have hend : OnlyM (leavesBut .hifInflight) u ((u.endMapping m).objFree o.id) :=
        State.objFree_only (State.endMapping_only (.refl _ u) (by decide)) (by decide)
      exact (hend.noneAccepted (by decide)).trans (State.complete_noneAccepted ..)

theorem State.migEnd_noneAccepted (s : State) (id : Nat) : s.NoneAccepted (s.migEnd id) := by
  unfold State.migEnd
  split
  · exact List.Subset.refl _
  · next g _ =>
    split
    · exact List.Subset.refl _
    · extract_lets src u
      have hend : OnlyM (leavesBut .hifInflight) u ((u.giveT0 g.frames).objFree id) :=
        State.objFree_only (State.giveT0_only (.refl _ u) (by decide)) (by decide)
      have htaken : s.NoneAccepted u := List.Subset.refl _
      exact htaken.trans ((hend.noneAccepted (by decide)).trans (State.complete_noneAccepted ..))

theorem State.objStart_noneAccepted (s : State) (j : ObjJob) : s.NoneAccepted (s.objStart j) := by
  unfold State.objStart
  extract_lets runs
  have hruns : s.NoneAccepted (runs s) := by
    rw [State.NoneAccepted, State.opEvent_hif_inflight]
    exact List.Subset.refl _
  split
  · exact State.complete_noneAccepted ..
  · exact hruns.trans (State.migEnd_noneAccepted ..)
  · exact hruns

theorem State.objSettle_noneAccepted (n : Nat) (s : State) : s.NoneAccepted (s.objSettle n) := by
  induction n generalizing s with
  | zero => exact s.endReleases_noneAccepted
  | succ n ih =>
    unfold State.objSettle
    extract_lets u
    have hend : s.NoneAccepted u := s.endReleases_noneAccepted
    split
    · exact hend
    · next j l _ =>
      split
      · exact hend
      · exact hend.trans ((State.objStart_noneAccepted { u with tiers := { u.tiers with objWait := l } } j).trans (ih _))

theorem State.settleStops_noneAccepted (s : State) (id : Nat) : s.NoneAccepted (s.settleStops id) := by
  unfold State.settleStops
  extract_lets recs src u
  have hstops : u.NoneAccepted _ := .foldl
    (fun w r => w.complete_noneAccepted (srcHub hubDma) r.op { st := .ok, result := r.count })
    (recs.filter (fun r => r.scope.isEmpty)) u
  exact hstops.trans (State.objSettle_noneAccepted ..)

theorem State.cutDma_noneAccepted (s : State) (g : Nat) : s.NoneAccepted (s.cutDma g) := by
  unfold State.cutDma
  extract_lets mine u
  have hleave : s.NoneAccepted u := .foldl (fun w x =>
    ((State.dmaLeave_only (.refl _ w) (Nat.or_self _)).noneAccepted (by decide)).trans (State.settleStops_noneAccepted ..)) _ s
  exact hleave.trans (.foldl (fun w x => (State.updDma_only (.refl _ w) (Nat.or_self _)).noneAccepted (by decide)) _ u)

/-- The cutting of a gallery brings no descriptor into flight where none stands fetched. -/
theorem State.cutGallery_noneAccepted {s : State} (g : Nat) (hs : s.NoneFetched) : s.NoneAccepted (s.cutGallery g) := by
  have hbefore : OnlyM (leavesBut .hifInflight) s (((s.cutPoll g).cutStreams g).cutCores g) :=
    State.cutCores_only (State.cutStreams_only ((OnlyM.refl _ s).step (State.cutPoll_quietPoll g hs).1 (by decide)) (by decide))
      (by decide)
  exact (hbefore.noneAccepted (by decide)).trans ((State.cutDma_noneAccepted _ g).trans
    ((State.closeGallery_only (.refl _ _) (Nat.or_self _)).noneAccepted (by decide)))

/-! ### HOLD entered with nothing fetched -/

theorem State.dropPoll_poll (s : State) : s.dropPoll.hif.poll = none := by
  unfold State.dropPoll
  split
  · assumption
  · rfl

/-- A hold that begins with nothing fetched takes no descriptor. -/
theorem State.takeHold_quiet {s : State} (hs : s.NoneFetched) :
    OnlyM (mask [.ctlHoldReq, .ctlHolding, .hifRings, .hifPoll]) s s.takeHold := by
  unfold State.takeHold
  split
  · exact .refl _ s
  · rw [State.beginHold, State.acceptFetched_none hs]
    exact State.dropPoll_only (OnlyM.lit_ctlHoldReq_ctlHolding (.refl _ s) (by decide)) (by decide)

/-- What the entry of HOLD with nothing fetched may write. -/
def holdLeaves : Nat := mask [.ctlSt, .ctlHcause, .ctlHoldReq, .ctlHolding, .hifRings, .hifPoll, .docGroups, .fabPorts,
  .fabBeat, .fabLinks, .fabPlanes, .fabSeen, .fabSerial, .fabPendNotices, .fabQuiesces, .fabMacSend, .fabAnnounced,
  .catCounters, .catRings, .catTrace, .catSnaps, .catFrozen, .catFcause, .catDumpFroze, .free, .out]

/-- A hold that follows the stop of the beat unit takes no descriptor where nothing is fetched. -/
theorem State.stopBeat_quiet {s : State} (hs : s.NoneFetched) : OnlyM holdLeaves s s.stopBeat := by
  have htake {u : State}
      (h : OnlyM (mask [.fabBeat, .catRings, .catTrace, .catSnaps, .catFrozen, .catFcause, .catDumpFroze, .free]) s u) :
      OnlyM holdLeaves s u.takeHold :=
    ((OnlyM.refl _ s).step h (by decide)).step (State.takeHold_quiet (h.noneFetched (by decide) hs)) (by decide)
  unfold State.stopBeat
  split
  · exact .refl _ s
  · exact htake (State.freezeForDump_only (State.latchSnaps_only (State.setBeat_only (State.setBeatSt_only (.refl _ s)
      (by decide)) (by decide)) (by decide)) (by decide))

/-- HOLD entered with nothing fetched (R473). -/
theorem State.enterHold_quiet {s : State} (cause : Nat) (hs : s.NoneFetched) : OnlyM holdLeaves s (s.enterHold cause) := by
  have hports : OnlyM holdLeaves s s.portsStop := State.portsStop_only (.refl _ s) (by decide)
  have hnone : s.portsStop.NoneFetched := (State.portsStop_only (.refl _ s) (Nat.or_self _)).noneFetched (by decide) hs
  exact OnlyM.lit_ctlSt_ctlHcause_ctlHoldReq_ctlHolding (State.dropPoll_only (State.freezeRings_only
    (hports.step (State.stopBeat_quiet hnone) (Nat.or_self _)) (by decide)) (by decide)) (by decide)

theorem State.enterHold_st (s : State) (cause : Nat) : (s.enterHold cause).ctl.st = .hold := rfl

theorem State.enterHold_hcause (s : State) (cause : Nat) : (s.enterHold cause).ctl.hcause = cause := rfl

theorem State.enterHold_poll (s : State) (cause : Nat) : (s.enterHold cause).hif.poll = none := by
  rw [State.enterHold]
  generalize s.portsStop.stopBeat.freezeRings 3 = u
  exact u.dropPoll_poll

/-! ### Work abandoned with nothing fetched -/

theorem State.abandonSteps_st (s : State) (k : Nat) : (s.abandonSteps.ctx k).st = (s.ctx k).st := by
  refine List.foldlRecOn (motive := fun u : State => (u.ctx k).st = (s.ctx k).st) (s.doc.groups.flatMap (fun g => g.members)) _
    rfl fun u hu m _ => ?_
  have hframes : OnlyM (mask [.curFrames]) u (m.frames.foldl (fun s cf => s.returnFrame cf.1 cf.2) u) :=
    OnlyM.foldl (.refl _ u) fun w cf => State.returnFrame_only (.refl _ w) (Nat.or_self _)
  rw [← hu, ← hframes.ctx (by decide) k]
  by_cases hk : k = m.stream
  · subst hk
    rw [State.setCtx_ctx]
  · rw [State.setCtx_ctx_ne _ hk]

/-- Work abandoned where nothing is fetched leaves memory and the poll as they are (R474). -/
theorem State.abandon_quiet {s : State} (hs : s.NoneFetched) : s.abandon.mem = s.mem ∧ s.abandon.hif.poll = s.hif.poll := by
  have hwork : OnlyM (mask [.docCtxs, .docGroups, .docOwedNotices, .curFrames, .curCows, .curMoves, .curStaged, .tiersPanels,
      .tiersMigs, .tiersMoving, .tiersT0used, .tiersRepairs, .tiersObjRun, .tiersObjWait]) s s.abandonSteps.abandonMoves :=
    State.abandonMoves_only (State.abandonSteps_only (.refl _ s) (by decide)) (by decide)
  have hmem : s.abandon.mem = s.acceptFetched.abandonSteps.abandonMoves.mem := rfl
  have hpoll : s.abandon.hif.poll = s.acceptFetched.abandonSteps.abandonMoves.hif.poll := rfl
  rw [hmem, hpoll, State.acceptFetched_none hs]
  exact ⟨hwork.mem.resolve_left (by decide), hwork.hif.poll.resolve_left (by decide)⟩

theorem State.abandon_st {s : State} (hs : s.NoneFetched) (k : Nat) : (s.abandon.ctx k).st = (s.ctx k).st := by
  have hctx : s.abandon.ctx k = s.acceptFetched.abandonSteps.abandonMoves.ctx k := rfl
  rw [hctx, State.acceptFetched_none hs, (State.abandonMoves_only (.refl _ _) (Nat.or_self _)).ctx (by decide) k,
    s.abandonSteps_st k]

/-! ### The functions of some galleries reset (R263, R444) -/

/-- The state once the functions of these galleries are reset. -/
def State.functionsReset (s : State) (gs : List Nat) : State := (gs.foldl State.tdiFails s).galleriesReset gs

theorem State.foldl_tdiFails_only (s : State) (l : List Nat) : OnlyM (mask [.secTdis]) s (l.foldl State.tdiFails s) :=
  OnlyM.foldl (.refl _ s) fun u _ => State.tdiFails_only (.refl _ u) (Nat.or_self _)

theorem State.mem_functionsReset_inReset (s : State) (gs : List Nat) (n : Nat) :
    n ∈ (s.functionsReset gs).hif.inReset ↔ n ∈ gs ∨ n ∈ s.hif.inReset := by
  rw [State.functionsReset, State.mem_galleriesReset_inReset, (s.foldl_tdiFails_only gs).hif.inReset.resolve_left (by decide)]

theorem State.functionsReset_running (s : State) (gs : List Nat) : (s.functionsReset gs).running = s.running := by
  have hreset : OnlyM (leavesBut .secSt ^^^ mask [.ctlSt, .ctlPower]) s (s.functionsReset gs) :=
    State.galleriesReset_only ((OnlyM.refl _ s).step (s.foldl_tdiFails_only gs) (by decide)) (by decide)
  rw [State.running, State.running, State.alive, State.alive, hreset.ctl.st.resolve_left (by decide),
    hreset.ctl.power.resolve_left (by decide), hreset.sec.st.resolve_left (by decide)]

/-- Where only functions reset have descriptors fetched, their rings' reset leaves none fetched. -/
theorem State.functionRings_noneFetched {s : State} {gs : List Nat}
    (h : s.FetchedWithin gs) :
    (gs.foldl State.resetRings (gs.foldl State.tdiFails s)).NoneFetched :=
  State.foldl_resetRings_noneFetched (by
    rwa [State.FetchedWithin, (s.foldl_tdiFails_only gs).hif.poll.resolve_left (by decide)])

/-- Functions reset where nothing of another function is fetched: memory is as it was, and nothing is fetched after it. -/
theorem State.functionsReset_quiet {s : State} {gs : List Nat}
    (h : s.FetchedWithin gs) :
    (s.functionsReset gs).NoneFetched ∧ (s.functionsReset gs).mem = s.mem := by
  let u := gs.foldl State.tdiFails s
  let w := gs.foldl State.resetRings u
  obtain ⟨hcut, hnone⟩ : OnlyM cutLeaves w (s.functionsReset gs) ∧ (s.functionsReset gs).NoneFetched :=
    List.foldlRecOn (motive := fun v : State => OnlyM cutLeaves w v ∧ v.NoneFetched) gs State.cutGallery
      ⟨.refl _ w, State.functionRings_noneFetched h⟩ fun v hv g _ =>
        have hg := State.cutGallery_quiet g hv.2
        ⟨hv.1.step hg.1 (Nat.or_self _), hg.2⟩
  have hrings : OnlyM (leavesBut .mem) u w := OnlyM.foldl (.refl _ u) fun v _ => State.resetRings_only (.refl _ v) (by decide)
  refine ⟨hnone, ?_⟩
  rw [hcut.mem.resolve_left (by decide), hrings.mem.resolve_left (by decide),
    (s.foldl_tdiFails_only gs).mem.resolve_left (by decide)]

theorem State.functionsReset_releasing {s : State} {gs : List Nat}
    (h : s.FetchedWithin gs) {k : Nat} (hgal : (s.ctx k).gal ∈ gs)
    (hst : (s.ctx k).st ≠ .free) : ((s.functionsReset gs).ctx k).st = .releasing := by
  let u := gs.foldl State.tdiFails s
  have hrings : OnlyM (leavesBut .docCtxs) u (gs.foldl State.resetRings u) :=
    OnlyM.foldl (.refl _ u) fun v _ => State.resetRings_only (.refl _ v) (by decide)
  have hctx : (gs.foldl State.resetRings u).ctx k = s.ctx k :=
    (hrings.ctx (by decide) k).trans ((s.foldl_tdiFails_only gs).ctx (by decide) k)
  exact State.foldl_cutGallery_releasing (State.functionRings_noneFetched h) (hctx ▸ hst) (.inl (hctx ▸ hgal))

/-! ### A Function Level Reset (R263, R444) -/

theorem State.exec_vfFunctionLevelReset {g : GalNo} {s : State} (hbar : s.barUp = true) (hvf : g.val ≠ 0) :
    exec (.vfFunctionLevelReset g) s = .next (s.functionsReset [g.val]) := by
  show execVfFunctionLevelReset g s = _
  rw [execVfFunctionLevelReset, hbar, bne_iff_ne.mpr hvf]
  rfl

/-- The state once a function's TDI has failed and its rings are reset. -/
def State.ringsReset (s : State) (g : Nat) : State := (s.tdiFails g).resetRings g

theorem State.functionsReset_one (s : State) (g : Nat) : s.functionsReset [g] = (s.ringsReset g).cutGallery g := rfl

theorem State.ringsReset_only (s : State) (g : Nat) : OnlyM (mask [.regs, .hifRings, .hifInflight, .hifFences, .hifPoll,
    .hifOwedVecs, .hifInReset, .hifOwed, .secTdis]) s (s.ringsReset g) :=
  State.resetRings_only (State.tdiFails_only (.refl _ s) (by decide)) (by decide)

theorem State.ringsReset_inflight (s : State) (g : Nat) :
    (s.ringsReset g).hif.inflight = s.hif.inflight.filter (fun o => !(o.ringGal == some g)) := by
  have htdi : OnlyM (mask [.secTdis]) s (s.tdiFails g) := State.tdiFails_only (.refl _ s) (Nat.or_self _)
  rw [← htdi.inflight (by decide)]
  rfl

theorem State.ringsReset_noneFetched {s : State} {g : Nat} (h : s.FetchedWithin [g]) : (s.ringsReset g).NoneFetched :=
  State.functionRings_noneFetched h

theorem State.functionsReset_one_tdi (s : State) (g n : Nat) : (s.functionsReset [g]).tdi n = (s.tdiFails g).tdi n :=
  State.tdi_congr ((State.galleriesReset_only (a1 := [g]) (.refl _ (s.tdiFails g)) (Nat.or_self _)).sec.tdis.resolve_left
    (by decide)) n

/-- What is in flight once a function is reset was so before, and is of another function (R263). -/
theorem State.mem_functionsReset_one_inflight {s : State} {g : Nat} (h : s.FetchedWithin [g]) {o : Op}
    (ho : o ∈ (s.functionsReset [g]).hif.inflight) : o ∈ s.hif.inflight ∧ o.ringGal ≠ some g := by
  rw [State.functionsReset_one] at ho
  have hleft := State.cutGallery_noneAccepted g (State.ringsReset_noneFetched h) ho
  rw [State.ringsReset_inflight, List.mem_filter] at hleft
  exact ⟨hleft.1, by simpa using hleft.2⟩

theorem State.functionsReset_one_ctx {s : State} {g : Nat} (h : s.FetchedWithin [g]) (k : Nat) :
    (s.functionsReset [g]).ctx k = if k ∈ s.streamNos g then (s.ctx k).cut else s.ctx k := by
  have hctxs := (s.ringsReset_only g).doc.ctxs.resolve_left (by decide)
  rw [State.functionsReset_one, State.cutGallery_ctx g k (State.ringsReset_noneFetched h), State.ctx_congr hctxs,
    State.streamNos_congr hctxs]

theorem State.functionsReset_one_phase {s : State} {g : Nat} (h : s.FetchedWithin [g]) (c e : Nat) :
    (((s.functionsReset [g]).core c).handle e).phase = (((s.core c).handle e).cut g).phase := by
  rw [State.functionsReset_one, State.cutGallery_phase g c e (State.ringsReset_noneFetched h),
    State.core_congr ((s.ringsReset_only g).cores.resolve_left (by decide))]

/-! ### The end of a function reset (R263, R452) -/

theorem State.exec_vfResetComplete {g : GalNo} {s : State} (halive : s.alive = true) (hin : g.val ∈ s.hif.inReset)
    (hfree : s.galleryFree g.val = true) :
    exec (.vfResetComplete g) s = .next (State.clearGalleryCounters
      { s with hif := { s.hif with inReset := s.hif.inReset.filter (fun n => n != g.val) } } g.val) := by
  show execVfResetComplete g s = _
  rw [execVfResetComplete, halive, List.contains_iff_mem.mpr hin, hfree]
  rfl

/-- A counter of galleries stands in the table of counters as one (R454). -/
theorem Ctr.mem_ctrTable_of_scope {c : Ctr} (h : c.scope = 4) : ∃ x ∈ ctrTable, x.1 = c ∧ x.2.2 = 4 := by
  rw [Ctr.scope] at h
  cases hfind : ctrTable.find? (fun x => x.1 == c) with
  | none =>
    rw [hfind] at h
    exact absurd h (by decide)
  | some x =>
    rw [hfind] at h
    have hctr := List.find?_some (p := fun y : Ctr × String × Nat => y.1 == c) hfind
    exact ⟨x, List.mem_of_find?_eq_some hfind, beq_iff_eq.mp hctr, h⟩

theorem State.clearGalleryCounters_counter (s : State) (g : Nat) {c : Ctr} (h : c.scope = 4) :
    (s.clearGalleryCounters g).counter c g 0 = 0 := by
  let gone := (ctrTable.filter (fun x => x.2.2 == 4)).map (fun x => x.1.key g 0)
  obtain ⟨x, hx, rfl, hscope⟩ := Ctr.mem_ctrTable_of_scope h
  have hgone : gone.contains (x.1.key g 0) = true :=
    List.contains_iff_mem.mpr (List.mem_map.mpr ⟨x, List.mem_filter.mpr ⟨hx, beq_iff_eq.mpr hscope⟩, rfl⟩)
  have hfind : Tbl.find (s.clearGalleryCounters g).cat.counters (x.1.key g 0) = none := by
    refine (Tbl.find_filter s.cat.counters (fun k => !gone.contains k) _).trans ?_
    rw [hgone]
    rfl
  rw [State.counter, Tbl.look, hfind]
  rfl

/-! ### A reset of the PF or a lost link (R263, R264) -/

/-- The state once what a reset owes no function is forgotten. -/
def State.forgetOwed (s : State) : State := { s with hif := { s.hif with owed := [] }, doc := { s.doc with owedNotices := [] } }

/-- HOLD entered once the work is abandoned and nothing is owed, where nothing is fetched. -/
theorem State.enterHold_forgetOwed_quiet {s : State} (cause : Nat) (hs : s.NoneFetched) :
    OnlyM holdLeaves s.abandon.forgetOwed (s.abandon.forgetOwed.enterHold cause) :=
  State.enterHold_quiet cause fun p hp => hs p ((State.abandon_quiet hs).2 ▸ hp)

theorem State.abandon_enterHold_mem {s : State} {cause : Nat} (hs : s.NoneFetched) :
    (s.abandon.forgetOwed.enterHold cause).mem = s.mem :=
  ((State.enterHold_forgetOwed_quiet cause hs).mem.resolve_left (by decide)).trans (State.abandon_quiet hs).1

theorem State.abandon_enterHold_st {s : State} {cause : Nat} (hs : s.NoneFetched) (k : Nat) :
    ((s.abandon.forgetOwed.enterHold cause).ctx k).st = (s.ctx k).st := by
  rw [(State.enterHold_forgetOwed_quiet cause hs).ctx (by decide) k]
  exact State.abandon_st hs k

theorem State.abandon_enterHold_inReset {s : State} {cause : Nat} (hs : s.NoneFetched) :
    (s.abandon.forgetOwed.enterHold cause).hif.inReset = s.hif.inReset := by
  have habandon : OnlyM (leavesBut .hifInReset) s s.abandon := State.abandon_only (.refl _ _) (by decide)
  exact ((State.enterHold_forgetOwed_quiet cause hs).hif.inReset.resolve_left (by decide)).trans
    (habandon.hif.inReset.resolve_left (by decide))

theorem State.exec_pfResetOrLinkLoss {s : State} (hbar : s.barUp = true) (hrun : s.running = true) :
    exec .pfResetOrLinkLoss s = .next ((s.functionsReset (List.range 64)).abandon.forgetOwed.enterHold 3) := by
  show execPfResetOrLinkLoss s = _
  rw [execPfResetOrLinkLoss, hbar, if_neg (by decide)]
  generalize List.range 64 = gs
  exact congrArg Host.Outcome.next (if_pos ((s.functionsReset_running _).trans hrun))

theorem State.fetchedWithin_all (s : State) : s.FetchedWithin (List.range 64) :=
  fun _ _ e _ => List.mem_range.mpr (Nat.div_lt_of_lt_mul e.ring.isLt)

end Sys2Proof.Machine

open Sys2Proof Sys2Proof.Machine

/-- Settles O53: the start of a VF's reset, its end, and a reset of the PF. -/
theorem functionResets : Obligations.FunctionResets := by
  unfold Obligations.FunctionResets
  refine ⟨fun g s hbar hvf => ?_, fun g s halive hin hfree => ?_, fun s hbar hrun => ?_⟩
  · refine ⟨_, State.exec_vfFunctionLevelReset hbar hvf, (s.mem_functionsReset_inReset _ _).mpr (.inl (.head _)),
      (s.functionsReset_one_tdi g.val g.val).trans (s.tdiFails_tdi g.val),
      fun n hn => (s.functionsReset_one_tdi g.val n).trans (s.tdiFails_tdi_ne hn), fun hof => ?_⟩
    have hwithin : s.FetchedWithin [g.val] := fun p hp e he => List.mem_singleton.mpr (hof p hp e he)
    refine ⟨fun o ho => (State.mem_functionsReset_one_inflight hwithin ho).2,
      fun o ho => (State.mem_functionsReset_one_inflight hwithin ho).1, fun k hgal hst => ?_, fun hsorted k hgal => ?_,
      fun c e hgal hst => ?_⟩
    · rw [State.functionsReset_one_ctx hwithin, if_pos (State.mem_streamNos hgal hst)]
      rfl
    · rw [State.functionsReset_one_ctx hwithin, if_neg (fun hk => hgal (State.gal_of_mem_streamNos hsorted hk))]
    · have hphase := State.functionsReset_one_phase hwithin c e
      rw [Handle.cut_of_bound hgal hst] at hphase
      exact Handle.phase_eq_iff.mp hphase
  · refine ⟨_, State.exec_vfResetComplete halive hin hfree, ?_, fun n hn => ?_,
      fun c hc => State.clearGalleryCounters_counter _ g.val hc, rfl, rfl⟩
    · exact fun h => absurd rfl (bne_iff_ne.mp (List.mem_filter.mp h).2)
    · exact ⟨fun h => (List.mem_filter.mp h).1, fun h => List.mem_filter.mpr ⟨h, bne_iff_ne.mpr hn⟩⟩
  · obtain ⟨hnone, hmem⟩ := State.functionsReset_quiet s.fetchedWithin_all
    refine ⟨_, State.exec_pfResetOrLinkLoss hbar hrun, State.enterHold_st .., State.enterHold_hcause ..,
      State.enterHold_poll .., ?_, fun g hg => ?_, fun k hgal hst => ?_⟩
    · exact (State.abandon_enterHold_mem hnone).trans hmem
    · rw [State.abandon_enterHold_inReset hnone]
      exact (s.mem_functionsReset_inReset _ g).mpr (.inl (List.mem_range.mpr hg))
    · rw [State.abandon_enterHold_st hnone]
      exact State.functionsReset_releasing s.fetchedWithin_all (List.mem_range.mpr hgal) hst
end

section
/-! The statements on DMA: the completion of an operation (R290), and DMA_STOP of operations that have not begun (R288). -/

namespace Sys2Proof.Machine

/-! ### An operation leaves the DMA unit -/

/-- What an operation that leaves takes with it in the DMA unit: its own record, and its channel with that (R267). -/
theorem State.dmaLeave_dma (s : State) (o : Op) :
    (s.dmaLeave o).dma = { s.dma with ops := s.dma.ops.filter (fun y => y.op.id != o.id) } := by
  unfold State.dmaLeave
  extract_lets counted u v
  have hcount : OnlyM (mask [.cores, .catWaits]) s u := .ite (State.dmaHandles_only (.refl _ s) (by decide)) (.refl _ s)
  have hleave : OnlyM (mask [.cores, .catWaits]) s v :=
    .foldl hcount fun w _ => State.setCore_only (State.sbLeave_only (.refl _ w) (by decide)) (by decide)
  rw [(State.waitsDrop_only (.refl _ _) (Nat.or_self _)).dma.eq (by decide)]
  exact congrArg (fun x : Dma => { x with ops := x.ops.filter (fun y => y.op.id != o.id) }) (hleave.dma.eq (by decide))

/-- With no DMA_STOP and no object operation waiting, and no release pending, an end brings nothing more about (R288, R325, R331). -/
theorem State.settleStops_of_none {s : State} (hstops : s.dma.stops = []) (hrelease : s.NoRelease)
    (hwait : s.tiers.objWait = []) (id : Nat) : s.settleStops id = s := by
  have hsame : { s with dma := { s.dma with stops := [] } } = s := by rw [← hstops]
  rw [State.settleStops, hstops]
  show State.settleObjects { s with dma := { s.dma with stops := [] } } = s
  rw [hsame, State.settleObjects, hwait]
  exact State.endReleases_of_noRelease hrelease

/-! ### Completion (R290) -/

theorem exec_dmaOpComplete {c : Fin 256} {s : State} {x : DmaOp}
    (hfind : s.dma.ops.find? (fun y => y.chan == some c.val) = some x) (hrun : s.running = true) (hend : s.dmaEnded x = true) :
    exec (.dmaOpComplete c) s = .next (s.dmaEnd x) := by
  show execDmaOpComplete c s = _
  simp only [execDmaOpComplete, hfind, hrun, hend, Bool.and_self, if_true]

/-- The end of an operation that nothing waits for is its leaving and its record. -/
theorem State.dmaEnd_of_none {s : State} (hstops : s.dma.stops = []) (hrelease : s.NoRelease) (hwait : s.tiers.objWait = [])
    (x : DmaOp) :
    s.dmaEnd x = (s.dmaLeave x.op).complete (srcHub hubDma) x.op { st := x.status, result := x.answer } := by
  have hleave := State.dmaLeave_only (a1 := x.op) (.refl _ s) (Nat.or_self _)
  refine State.settleStops_of_none ?_ (hrelease.congr ?_) ?_ _
  · rw [State.complete_dma, State.dmaLeave_dma, hstops]
  · rw [State.complete_tiers, hleave.tiers.maps.resolve_left (by decide)]
  · rw [State.complete_tiers, hleave.tiers.objWait.resolve_left (by decide), hwait]

/-! ### DMA_STOP (R288) -/

theorem exec_dmaStop {o : Origin} {d : Line64} {s : State} (h : s.Accepts o d 0x27 dmaStopChecks) :
    exec (.dmaStop o d) s = .next ((s.taken o d 0x27).dmaStopStart (s.asOp o d 0x27)) :=
  congrArg Host.Outcome.next (State.accept_of_accepts h)

/-- The operations in the scope of a DMA_STOP. -/
def State.stopScope (s : State) (o : Op) : List DmaOp := s.dma.ops.filter (fun y => y.inScope o)

/-- The state in which an operation that had not begun is stopped: it has left, with STOPPED for its record. -/
def State.stopFresh (s : State) (x : DmaOp) : State :=
  (((s.dmaLeave x.op).count .dmaStopped x.op.gal 1).complete (srcHub hubDma) x.op { st := .stopped }).settleStops x.op.id

/-- A DMA_STOP whose scope holds no operation that has begun stops the scope and completes at once. -/
theorem State.dmaStopStart_fresh {s : State} {o : Op} (h : ∀ y ∈ s.dma.ops, y.inScope o = true → y.begun = false) :
    s.dmaStopStart o = ((s.stopScope o).foldl State.stopFresh s).complete (srcHub hubDma) o
      { st := .ok, result := (s.stopScope o).length } := by
  have hbegun : ∀ y ∈ s.stopScope o, y.begun = false := fun y hy => by
    obtain ⟨hmem, hscope⟩ := List.mem_filter.mp hy
    exact h y hmem hscope
  unfold State.dmaStopStart
  extract_lets scope fresh run u
  have hfresh : fresh = s.stopScope o := List.filter_eq_self.mpr fun y hy => by rw [hbegun y hy]; rfl
  have hrun : run = [] := List.map_eq_nil_iff.mpr
    (List.filter_eq_nil_iff.mpr fun y hy => Bool.eq_false_iff.mp (hbegun y hy))
  have hstopped : u = (s.stopScope o).foldl State.stopFresh s := congrArg (List.foldl State.stopFresh s) hfresh
  rw [if_pos (List.isEmpty_iff.mpr hrun), hstopped, hfresh]

theorem State.stopFresh_ops (s : State) (x : DmaOp) :
    (s.stopFresh x).dma.ops = s.dma.ops.filter (fun y => y.op.id != x.op.id) := by
  rw [State.stopFresh, (State.settleStops_only (.refl _ _) (Nat.or_self _)).dma.ops.resolve_left (by decide),
    State.complete_dma, State.count_dma, State.dmaLeave_dma]

/-- What stands in the DMA unit after operations were stopped: those of other numbers. -/
theorem State.mem_foldl_stopFresh_ops (l : List DmaOp) (s : State) (y : DmaOp) :
    y ∈ (l.foldl State.stopFresh s).dma.ops ↔ y ∈ s.dma.ops ∧ ∀ x ∈ l, x.op.id ≠ y.op.id := by
  induction l generalizing s with
  | nil => simp
  | cons x l ih =>
    rw [List.foldl_cons, ih, State.stopFresh_ops, List.mem_filter, bne_iff_ne, List.forall_mem_cons, and_assoc, ne_comm]

theorem State.stopFresh_noneAccepted (s : State) (x : DmaOp) : s.NoneAccepted (s.stopFresh x) := by
  have hleave : OnlyM (leavesBut .hifInflight) s ((s.dmaLeave x.op).count .dmaStopped x.op.gal 1) :=
    State.count_only (State.dmaLeave_only (.refl _ s) (by decide)) (by decide)
  exact (hleave.noneAccepted (by decide)).trans ((State.complete_noneAccepted ..).trans (State.settleStops_noneAccepted ..))

/-! ### A completed descriptor is in flight no more -/

theorem State.recordOp_gone (s : State) (r i : Nat) (o : Op) (x : Done) :
    ∀ p ∈ (s.recordOp r i o x).hif.inflight, p.id ≠ o.id := by
  intro p hp
  unfold State.recordOp at hp
  split at hp
  · rw [State.ringRecord_hif_inflight] at hp
    exact bne_iff_ne.mp (List.mem_filter.mp hp).2
  · next hnone =>
    rw [Bool.not_eq_true, List.any_eq_false] at hnone
    exact fun hid => hnone p hp (beq_iff_eq.mpr hid)

/-- Whatever FENCEs its completion lets on, a ring's descriptor is out of flight (R254). -/
theorem State.complete_gone {s : State} {unit : Nat} {o : Op} {x : Done} {r : RingNo} {i : Word} (horg : o.org = .ring r i) :
    ∀ p ∈ (s.complete unit o x).hif.inflight, p.id ≠ o.id := by
  intro p hp
  simp only [State.complete, horg] at hp
  exact State.recordOp_gone _ _ _ _ _ p (State.settleFence_noneAccepted _ _ hp)

/-- A ring's descriptor that completes as it is accepted leaves none in flight that was not. -/
theorem State.taken_complete_noneAccepted {s u : State} {unit : Nat} {r : RingNo} {i : Word} {d : Line64} {opcode : Nat} {x : Done}
    (h : (s.taken (.ring r i) d opcode).NoneAccepted u) :
    s.NoneAccepted (u.complete unit (s.asOp (.ring r i) d opcode) x) := by
  intro p hp
  have hgone := State.complete_gone (State.asOp_org ..) p hp
  rcases List.mem_append.mp (h (State.complete_noneAccepted _ _ _ _ hp)) with hold | hnew
  · exact hold
  · exact absurd (congrArg Op.id (List.mem_singleton.mp hnew)) hgone

end Sys2Proof.Machine

open Sys2Proof Sys2Proof.Machine

/-- Settles O18: a DMA_STOP of operations that have not begun, and one of an empty scope. -/
theorem dmaStops : Obligations.DmaStops := by
  unfold Obligations.DmaStops
  refine ⟨?_, ?_⟩
  · intro r i d s hacc hbegun _ _ _
    let o := s.asOp (.ring r i) d 0x27
    let u := s.taken (.ring r i) d 0x27
    refine ⟨_, exec_dmaStop hacc, ?_⟩
    have hmem : (u.dmaStopStart o).mem = s.mem :=
      (State.dmaStopStart_only (.refl _ u) (Nat.or_self _)).mem.resolve_left (by decide)
    have hstart : u.dmaStopStart o = _ := State.dmaStopStart_fresh hbegun
    have hstay (y : DmaOp) : y ∈ (u.dmaStopStart o).dma.ops ↔
        y ∈ s.dma.ops ∧ ∀ x ∈ u.stopScope o, x.op.id ≠ y.op.id := by
      rw [hstart, State.complete_dma]
      exact State.mem_foldl_stopFresh_ops ..
    refine ⟨fun y hy => ?_, fun y hy _ hother => (hstay y).mpr ⟨hy, fun x hx => ?_⟩, fun p hp => ?_, hmem⟩
    · obtain ⟨hold, hother⟩ := (hstay y).mp hy
      exact ⟨hold, Bool.eq_false_iff.mpr fun hscope => hother y (List.mem_filter.mpr ⟨hold, hscope⟩) rfl⟩
    · obtain ⟨hold, hscope⟩ := List.mem_filter.mp hx
      exact hother x hold hscope
    · rw [hstart] at hp
      exact State.taken_complete_noneAccepted (.foldl State.stopFresh_noneAccepted _ u) hp
  · intro r i d s hacc hnone hfence hcut
    let o := s.asOp (.ring r i) d 0x27
    let u := s.taken (.ring r i) d 0x27
    have hscope : u.stopScope o = [] := List.filter_eq_nil_iff.mpr fun y hy => Bool.eq_false_iff.mp (hnone y hy)
    have hstart : u.dmaStopStart o = u.complete (srcHub hubDma) o { st := .ok } := by
      rw [State.dmaStopStart_fresh (s := u) (o := o) fun y hy h => absurd h (Bool.eq_false_iff.mp (hnone y hy)), hscope]
      rfl
    refine ⟨_, exec_dmaStop hacc, ?_⟩
    rw [hstart]
    exact ⟨State.complete_dma .., (State.taken_complete hfence hcut).1⟩

/-- Settles O19: the operation leaves, and its record is written. -/
theorem dmaCompletes : Obligations.DmaCompletes := by
  unfold Obligations.DmaCompletes
  intro c s x r i hfind hrun hend horg hflight hfence hcut hstops hrelease hwait
  have hleave := State.dmaLeave_only (a1 := x.op) (.refl _ s) (Nat.or_self _)
  have hhif : (s.dmaLeave x.op).hif = s.hif := hleave.hif.eq (by decide)
  have hflight' : (s.dmaLeave x.op).hif.inflight.any (fun p => p.id == x.op.id) = true := by rwa [hhif]
  refine ⟨_, exec_dmaOpComplete hfind hrun hend, ?_⟩
  rw [State.dmaEnd_of_none hstops hrelease hwait]
  refine ⟨State.complete_answered horg hflight' (by rw [hhif]) (hleave.regs.resolve_left (by decide)) (hleave.fab.eq (by decide))
    (hleave.out.resolve_left (by decide)) hfence hcut, ?_, ?_⟩
  · rw [State.complete_dma, State.dmaLeave_dma]
  · obtain ⟨-, -, -, hinflight, -⟩ := State.complete_ring (s := s.dmaLeave x.op) (unit := srcHub hubDma)
      (x := { st := x.status, result := x.answer }) horg hflight' (by rwa [State.fenced, hhif]) (by rwa [State.cutOff, hhif])
    rw [hinflight, hhif]
end

section
/-! The statements on the stack memory: the channels' requests, refreshes and scrub (R296 to R299, R303, R305 to
R307, R312). -/

namespace Sys2Proof.Machine

/-! ### A request on its way to the controller -/

/-- A request within one row is presented whole (R296). -/
theorem reqSplit_row {r : ChanReq} (hlen : 0 < r.len) (hrow : r.addr + r.len ≤ (r.addr / 1024 + 1) * 1024) (fuel : Nat) :
    reqSplit (fuel + 1) r = [r] := by
  simp [reqSplit, hlen.ne', hrow]

/-- A request that finds the queue empty joins the group it is marked for (R296). -/
theorem groupOf_nil (r : ChanReq) : groupOf [] r = r.group := by
  by_cases h : r.group = 0 <;> simp [groupOf, h]

@[simp] theorem State.dropLines_mem (s : State) (c a n : Nat) : (s.dropLines c a n).mem = s.mem :=
  (State.dropLines_only (.refl _ s) (Nat.or_self _)).mem.resolve_left (by decide)
@[simp] theorem State.dropLines_chan (s : State) (c a n j : Nat) : (s.dropLines c a n).chan j = s.chan j :=
  State.chan_congr ((State.dropLines_only (.refl _ s) (Nat.or_self _)).chans.resolve_left (by decide)) j
@[simp] theorem State.dropLines_plinth (s : State) (c a n j : Nat) : (s.dropLines c a n).plinth j = s.plinth j :=
  State.plinth_congr ((State.dropLines_only (.refl _ s) (Nat.or_self _)).plinths.resolve_left (by decide)) j
@[simp] theorem State.dropLines_core_chan (s : State) (c a n j : Nat) :
    ((s.dropLines c a n).core j).chan = (s.core j).chan := by
  unfold State.dropLines
  split
  · rfl
  · by_cases hj : j = c
    · subst hj; simp
    · simp [State.setCore_core_ne _ hj]

/-- A request stands at the end of the queue, in its group (R297). -/
theorem State.arriveReq_chan (s : State) (c : Nat) (r : ChanReq) : (s.arriveReq c r).chan c =
    { s.chan c with queue := (s.chan c).queue ++ [{ r with group := Machine.groupOf (s.chan c).queue r }] } := by
  unfold State.arriveReq
  split <;> simp

theorem State.arriveReq_core_chan (s : State) (c : Nat) (r : ChanReq) (j : Nat) :
    ((s.arriveReq c r).core j).chan = (s.core j).chan := by
  unfold State.arriveReq
  split <;> simp

/-- Requests presented to a channel's controller, after what it has not accepted yet (R296, R297). -/
def State.callReqs (s : State) (c : Nat) (l : List ChanReq) : State :=
  s.setChan c { s.chan c with calling := (s.chan c).calling ++ l }

/-- The only request that calls is taken into the empty queue of a controller that is enabled (R297). -/
theorem State.acceptReqs_one {s : State} {c : Nat} {r : ChanReq} (hon : s.chanOff c = false) (hqueue : (s.chan c).queue = [])
    (hcalling : (s.chan c).calling = [r]) :
    s.acceptReqs c 1 = (s.setChan c { s.chan c with calling := [] }).arriveReq c r := by
  simp [State.acceptReqs, hcalling, hon, hqueue]

/-- While its controller is off nothing that calls is accepted (R305). -/
theorem State.acceptReqs_off {s : State} {c : Nat} (hoff : s.chanOff c = true) (n : Nat) : s.acceptReqs c n = s := by
  cases n with
  | zero => rfl
  | succ n =>
    unfold State.acceptReqs
    extract_lets x
    split
    · rfl
    · simp [hoff]

/-! ### The request started next -/

theorem Chan.nextReq_of_empty {x : Chan} (hqueue : x.queue = []) : x.nextReq = none := by
  simp [Chan.nextReq, hqueue, firstFree]

/-- The only request of an idle controller is the next one (R297). -/
theorem Chan.nextReq_of_single {x : Chan} {r : ChanReq} (hqueue : x.queue = [r]) (hheld : x.held = []) (hgroup : x.group = 0) :
    x.nextReq = some r := by
  by_cases hcls : r.cls = 0 <;> simp [Chan.nextReq, hqueue, hheld, hgroup, firstFree, hcls]

theorem State.serveNext_of_empty {s : State} {c : Nat} (hqueue : (s.chan c).queue = []) (n : Nat) :
    s.serveNext c n = s := by
  cases n with
  | zero => rfl
  | succ n => simp [State.serveNext, Chan.nextReq_of_empty hqueue]

/-- A request is served whole and leaves the queue (R295, R297). -/
def State.finishReq (s : State) (c : Nat) (r : ChanReq) : State :=
  let s1 := s.serveReq c r
  let left := (s1.chan c).queue.erase r
  s1.setChan c { s1.chan c with
    queue := left, group := if left.any (fun z => r.group != 0 && z.group == r.group) then r.group else 0 }

theorem reqBursts_length_pos (r : ChanReq) (hlen : 0 < r.len) : 0 < (reqBursts r).length := by
  simp only [reqBursts, List.length_map, List.length_range]
  omega

/-- The only request of an idle controller is served whole where no budget stops it; one charged to a gallery changes
what that gallery has used (R303). -/
theorem State.serveNext_serves {s : State} {c : Nat} {r : ChanReq} (hqueue : (s.chan c).queue = [r]) (hheld : (s.chan c).held = [])
    (hgroup : (s.chan c).group = 0) (hlen : 0 < r.len)
    (hbudget : ∀ g, r.gal = some g → (reqBursts r).length ≤
      (issueUpTo (s.bwBudget g.val) (Tbl.look (s.chan c).used g.val 0) ((reqBursts r).map (reqCost r))).1) (n : Nat) :
    ∃ v, s.serveNext c (n + 1) = v.finishReq c r ∧ OnlyM (mask [.chans]) s v ∧
      v.chan c = { s.chan c with used := (v.chan c).used } := by
  have hnext := Chan.nextReq_of_single hqueue hheld hgroup
  cases hgal : r.gal with
  | none => exact ⟨s, by simp [State.serveNext, hnext, hgal, State.finishReq], .refl _ s, rfl⟩
  | some g =>
    have hall := hbudget g hgal
    have hsome := (reqBursts_length_pos r hlen).trans_le hall
    exact ⟨_, by simp only [State.serveNext, hnext, hgal, hsome.ne', hall, if_true, if_false]; rfl,
      State.setChan_only (.refl _ s) (Nat.or_self _), by simp⟩

/-- The only request of an idle controller is held until the next window where its gallery's budget is spent (R303). -/
theorem State.serveNext_holds {s : State} {c : Nat} {r : ChanReq} {g : GalNo} (hqueue : (s.chan c).queue = [r])
    (hheld : (s.chan c).held = []) (hgroup : (s.chan c).group = 0) (hgal : r.gal = some g)
    (hspent : s.bwBudget g.val ≤ Tbl.look (s.chan c).used g.val 0) (n : Nat) :
    s.serveNext c (n + 1) = s.holdReq c r r := by
  have hnone : (issueUpTo (s.bwBudget g.val) (Tbl.look (s.chan c).used g.val 0) ((reqBursts r).map (reqCost r))).1 = 0 :=
    by
    cases hbursts : reqBursts r with
    | nil => rfl
    | cons b l => simp [issueUpTo, hspent]
  have hempty : ((s.holdReq c r r).chan c).queue = [] := by simp [State.holdReq, hqueue]
  simp only [State.serveNext, Chan.nextReq_of_single hqueue hheld hgroup, hgal, hnone, if_true]
  exact State.serveNext_of_empty hempty n

/-! ### Serving a request -/

/-- The traffic of a run of no gallery's is all its channel keeps of it (R295). -/
theorem State.traffic_chan (s : State) (c a : Nat) (write : Bool) {bursts : Nat} (h : bursts ≠ 0) :
    (s.traffic c none write a bursts).chan c = { s.chan c with last := some (write, bits a 14 10, bits a 27 15) } := by
  simp [State.traffic, h]

theorem burstSpan_ne_zero {n : Nat} (a : Nat) (h : 0 < n) : burstSpan a n ≠ 0 := by
  unfold burstSpan
  rw [if_neg h.ne']
  omega

/-- A request as it begins: its traffic, and the event of its group's first one (R295, R456). -/
def State.beginReq (s : State) (c : Nat) (r : ChanReq) : State :=
  let s1 := s.traffic c none (reqWrites r) r.addr (burstSpan r.addr r.len)
  if r.group = 0 || (s.chan c).group != r.group then (s1.event (srcChan c) 2 0 0 (Config.freeNat s1.free)).draw 1 else s1

theorem State.beginReq_chan (s : State) (c : Nat) {r : ChanReq} (hlen : 0 < r.len) : (s.beginReq c r).chan c =
    { s.chan c with last := some (reqWrites r, bits r.addr 14 10, bits r.addr 27 15) } := by
  unfold State.beginReq
  extract_lets s1
  have hs1 : s1.chan c = _ := s.traffic_chan c r.addr (reqWrites r) (burstSpan_ne_zero _ hlen)
  split
  · simpa using hs1
  · exact hs1

theorem State.beginReq_only (s : State) (c : Nat) (r : ChanReq) :
    OnlyM (mask [.chans, .catCounters, .catRings, .catTrace, .free]) s (s.beginReq c r) := by
  have htraffic :=
    State.traffic_only (a1 := c) (a2 := none) (a3 := reqWrites r) (a4 := r.addr) (a5 := burstSpan r.addr r.len)
    (.refl (mask [.chans, .catCounters, .catRings, .catTrace, .free]) s) (by decide)
  unfold State.beginReq
  extract_lets s1
  split
  · exact State.draw_only (State.event_only htraffic (by decide)) (by decide)
  · exact htraffic

@[simp] theorem State.chanWrite_plinth (s : State) (p a : Nat) (b : Bytes) (j : Nat) :
    (s.chanWrite p a b).1.plinth j = s.plinth j :=
  State.plinth_congr ((State.chanWrite_only (.refl _ s) (Nat.or_self _)).fst.plinths.resolve_left (by decide)) j

/-- Where no burst is in error a channel write stores its bytes and poisons nothing (R298). -/
theorem State.chanWrite_clean {s : State} {b : Bytes} (hb : 0 < b.length) (hchk : s.chk = []) (p a : Nat) :
    (s.chanWrite p a b).1.mem = Memory.store s.mem (chanBase p + a) b ∧ (s.chanWrite p a b).2.2 = [] := by
  have hn : b.length ≠ 0 := hb.ne'
  unfold State.chanWrite
  simp [hn, hchk, Tbl.find]

/-- Where moreover nothing of the plinth is being copied, a core's write stores its bytes alone (R298, R417). -/
theorem State.writeChan_mem {s : State} {c : Nat} {b : Bytes} (hb : 0 < b.length) (hchk : s.chk = [])
    (hspares : (s.plinth (c / 256)).chSpares = []) (a : Nat) :
    (s.writeChan c a b).1.mem = Memory.store s.mem (chanBase (s.core c).chan + a) b := by
  obtain ⟨hmem, hbad⟩ := State.chanWrite_clean hb hchk (s.core c).chan a
  unfold State.writeChan
  simp [hbad, hspares, hmem]

@[simp] theorem State.writeChan_chan (s : State) (c a : Nat) (b : Bytes) (j : Nat) :
    (s.writeChan c a b).1.chan j = s.chan j :=
  State.chan_congr ((State.writeChan_only (.refl _ s) (Nat.or_self _)).fst.chans.resolve_left (by decide)) j

@[simp] theorem State.noteChan_chan (s : State) (c reader : Nat) (told : Bool) (errs : List (Nat × Bool)) (j : Nat) :
    (s.noteChan c reader told errs).chan j = s.chan j :=
  State.chan_congr ((State.noteChan_only (.refl _ s) (Nat.or_self _)).chans.resolve_left (by decide)) j

/-- What serving a request does to the bytes stored: a write stores its own at their place, and nothing else changes
any. -/
def reqStored (r : ChanReq) (base : Nat) (m : Memory) : Memory :=
  match r.kind with
  | .write b => Memory.store m (base + r.addr) b
  | _ => m

/-- A request as it is served: it begins, and then writes its bytes or has the errors of what it reads noted (R298,
R311). -/
theorem State.serveReq_eq (s : State) (c : Nat) (r : ChanReq) : s.serveReq c r =
    match r.kind with
    | .write b => ((s.beginReq c r).writeChan c r.addr b).1
    | _ => (s.beginReq c r).noteChan c (readerOf r.client) true
        ((s.beginReq c r).chanErrors ((s.beginReq c r).core c).chan r.addr r.len) := rfl

theorem State.serveReq_chan (s : State) (c : Nat) {r : ChanReq} (hlen : 0 < r.len) : (s.serveReq c r).chan c =
    { s.chan c with last := some (reqWrites r, bits r.addr 14 10, bits r.addr 27 15) } := by
  rw [← s.beginReq_chan c hlen, State.serveReq_eq]
  split <;> simp

theorem State.serveReq_mem {s : State} {c : Nat} {r : ChanReq} (hwrite : ∀ b, r.kind = .write b → 0 < b.length)
    (hchk : s.chk = []) (hspares : (s.plinth (c / 256)).chSpares = []) :
    (s.serveReq c r).mem = reqStored r (chanBase (s.core c).chan) s.mem := by
  have hbegin := s.beginReq_only c r
  have hcore : (s.beginReq c r).core c = s.core c := State.core_congr (hbegin.cores.resolve_left (by decide)) c
  have hplinth : (s.beginReq c r).plinth (c / 256) = s.plinth (c / 256) :=
    State.plinth_congr (hbegin.plinths.resolve_left (by decide)) _
  have hclean : (s.beginReq c r).chk = [] := (hbegin.chk.resolve_left (by decide)).trans hchk
  have hmem : (s.beginReq c r).mem = s.mem := hbegin.mem.resolve_left (by decide)
  rw [State.serveReq_eq]
  unfold reqStored
  split
  · next b hkind => rw [State.writeChan_mem (hwrite b hkind) hclean (by rw [hplinth, hspares]), hcore, hmem]
  · exact ((State.noteChan_only (.refl _ _) (Nat.or_self _)).mem.resolve_left (by decide)).trans hmem

/-! ### A request that reaches an idle controller -/

theorem exec_channelRequestServe {c : CoreNo} {r : ChanReq} {ups : List Upset} {s u : State} (hu : u = s.upsets ups)
    (halive : u.alive = true) (hlen : 0 < r.len) (hrow : r.addr + r.len ≤ (r.addr / 1024 + 1) * 1024) :
    exec (.channelRequestServe c [r] ups) s =
      .next (((u.callReqs c.val [r]).acceptReqs c.val ((u.chan c.val).calling.length + 1)).serveNext c.val
        ((((u.callReqs c.val [r]).acceptReqs c.val ((u.chan c.val).calling.length + 1)).chan c.val).queue.length + 1)) := by
  subst hu
  show execChannelRequestServe c [r] ups s = _
  simp [execChannelRequestServe, halive, reqSplit_row hlen hrow, State.callReqs]

/-- A controller as a request taken into its empty queue leaves it. -/
structure State.Takes (s : State) (c : Nat) (r : ChanReq) (t : State) : Prop where
  only : OnlyM (mask [.cores, .chans]) s t
  chan : t.chan c = { s.chan c with queue := [r], calling := [] }
  core : (t.core c).chan = (s.core c).chan

/-- A request that calls alone at an idle controller is taken into the queue (R297). -/
theorem State.callReqs_taken {s : State} {c : Nat} {r : ChanReq} (hon : s.flag .stkCtrl [c / 256] 0 = true)
    (hqueue : (s.chan c).queue = []) (hcalling : (s.chan c).calling = []) :
    s.Takes c r ((s.callReqs c [r]).acceptReqs c 1) := by
  have hcall : (s.callReqs c [r]).chan c = { s.chan c with calling := [r] } := by simp [State.callReqs, hcalling]
  have htake := State.acceptReqs_one (s := s.callReqs c [r]) (c := c) (r := r)
    (by simpa [State.chanOff, State.flag, State.field, State.written, State.callReqs] using hon)
    (by rw [hcall]; exact hqueue) (by rw [hcall])
  refine ⟨State.acceptReqs_only (State.setChan_only (.refl _ s) (by decide)) (by decide), ?_, ?_⟩
  · rw [htake, State.arriveReq_chan]
    simp [hcall, hqueue, groupOf_nil]
  · rw [htake, State.arriveReq_core_chan]
    rfl

theorem State.bwBudget_congr {s t : State} (hregs : t.regs = s.regs) (hforce : t.inForce = s.inForce) (g : Nat) :
    t.bwBudget g = s.bwBudget g := by
  simp only [State.bwBudget, State.inEffect, State.beatUs, State.field, State.written, hregs, hforce]

/-- A request served from an idle controller leaves it idle, its bytes stored. -/
theorem State.finishReq_chan {s : State} {c : Nat} {r : ChanReq} (hlen : 0 < r.len) (hqueue : (s.chan c).queue = [r]) :
    (s.finishReq c r).chan c = { s.chan c with
      queue := [], group := 0, last := some (reqWrites r, bits r.addr 14 10, bits r.addr 27 15) } := by
  simp [State.finishReq, s.serveReq_chan c hlen, hqueue]

/-- A request within its gallery's budget is served at once from an idle controller (R296 to R299, R303). -/
theorem exec_channelRequestServe_serves {c : CoreNo} {r : ChanReq} {ups : List Upset} {s u : State} (hu : u = s.upsets ups)
    (halive : u.alive = true) (hon : u.flag .stkCtrl [c.val / 256] 0 = true) (hqueue : (u.chan c.val).queue = [])
    (hcalling : (u.chan c.val).calling = []) (hheld : (u.chan c.val).held = []) (hgroup : (u.chan c.val).group = 0)
    (hlen : 0 < r.len) (hrow : r.addr + r.len ≤ (r.addr / 1024 + 1) * 1024) (hwrite : ∀ b, r.kind = .write b → b.length = r.len)
    (hbudget : ∀ g, r.gal = some g → (reqBursts r).length ≤
      (issueUpTo (u.bwBudget g.val) (Tbl.look (u.chan c.val).used g.val 0) ((reqBursts r).map (reqCost r))).1)
    (hspares : (u.plinth (c.val / 256)).chSpares = []) (hchk : u.chk = []) :
    ∃ t, exec (.channelRequestServe c [r] ups) s = .next t ∧ (t.chan c.val).queue = [] ∧ (t.chan c.val).calling = [] ∧
      (t.chan c.val).held = [] ∧ (t.chan c.val).last = some (reqWrites r, bits r.addr 14 10, bits r.addr 27 15) ∧
      t.mem = reqStored r (chanBase (u.core c.val).chan) u.mem := by
  obtain ⟨honly, hchan, hcore⟩ := u.callReqs_taken (c := c.val) (r := r) hon hqueue hcalling
  have hexec := exec_channelRequestServe (c := c) hu halive hlen hrow
  rw [hcalling, List.length_nil, Nat.zero_add] at hexec
  generalize (u.callReqs c.val [r]).acceptReqs c.val 1 = v at *
  have hregs := honly.regs.resolve_left (by decide)
  have hforce := honly.inForce.resolve_left (by decide)
  obtain ⟨w, hserve, hused, hw⟩ :=
    State.serveNext_serves (s := v) (c := c.val) (r := r) (by rw [hchan]) (by rw [hchan]; exact hheld)
    (by rw [hchan]; exact hgroup) hlen (by rw [hchan]; simpa only [State.bwBudget_congr hregs hforce] using hbudget)
    (v.chan c.val).queue.length
  have hdone := State.finishReq_chan (s := w) (c := c.val) hlen (by rw [hw, hchan])
  have hmem : (w.finishReq c.val r).mem = reqStored r (chanBase (w.core c.val).chan) w.mem :=
    State.serveReq_mem (fun b hb => by rw [hwrite b hb]; exact hlen)
      ((hused.chk.resolve_left (by decide)).trans ((honly.chk.resolve_left (by decide)).trans hchk))
      (by rw [State.plinth_congr (hused.plinths.resolve_left (by decide)),
        State.plinth_congr (honly.plinths.resolve_left (by decide)), hspares])
  rw [State.core_congr (hused.cores.resolve_left (by decide)), hcore, hused.mem.resolve_left (by decide),
    honly.mem.resolve_left (by decide)] at hmem
  refine ⟨_, hexec.trans (congrArg _ hserve), ?_, ?_, ?_, ?_, hmem⟩ <;> rw [hdone]
  · rw [hw, hchan]
  · rw [hw, hchan]; exact hheld

/-- A request of a gallery whose budget is spent is held (R303). -/
theorem exec_channelRequestServe_holds {c : CoreNo} {r : ChanReq} {ups : List Upset} {s u : State} {g : GalNo}
    (hu : u = s.upsets ups) (halive : u.alive = true) (hon : u.flag .stkCtrl [c.val / 256] 0 = true)
    (hqueue : (u.chan c.val).queue = []) (hcalling : (u.chan c.val).calling = []) (hheld : (u.chan c.val).held = [])
    (hgroup : (u.chan c.val).group = 0) (hlen : 0 < r.len) (hrow : r.addr + r.len ≤ (r.addr / 1024 + 1) * 1024)
    (hgal : r.gal = some g) (hspent : u.bwBudget g.val ≤ Tbl.look (u.chan c.val).used g.val 0) :
    ∃ t, exec (.channelRequestServe c [r] ups) s = .next t ∧ (t.chan c.val).queue = [] ∧ (t.chan c.val).held = [r] ∧
      t.mem = u.mem := by
  obtain ⟨honly, hchan, -⟩ := u.callReqs_taken (c := c.val) (r := r) hon hqueue hcalling
  have hexec := exec_channelRequestServe (c := c) hu halive hlen hrow
  rw [hcalling, List.length_nil, Nat.zero_add] at hexec
  generalize (u.callReqs c.val [r]).acceptReqs c.val 1 = v at *
  have hqueue' : (v.chan c.val).queue = [r] := by rw [hchan]
  have hheld' : (v.chan c.val).held = [] := by rw [hchan]; exact hheld
  have hhold := State.serveNext_holds (s := v) (c := c.val) hqueue' hheld' (by rw [hchan]; exact hgroup) hgal
    (by rw [hchan, State.bwBudget_congr (honly.regs.resolve_left (by decide)) (honly.inForce.resolve_left (by decide))]
        exact hspent) (v.chan c.val).queue.length
  refine ⟨_, hexec.trans (congrArg _ hhold), by simp [State.holdReq, hqueue'], by simp [State.holdReq, hqueue', hheld'], ?_⟩
  exact ((State.holdReq_only (.refl _ v) (Nat.or_self _)).mem.resolve_left (by decide)).trans
    (honly.mem.resolve_left (by decide))

/-- While the controllers are off a request waits outside (R305). -/
theorem exec_channelRequestServe_waits {c : CoreNo} {r : ChanReq} {ups : List Upset} {s u : State} (hu : u = s.upsets ups)
    (halive : u.alive = true) (hoff : u.flag .stkCtrl [c.val / 256] 0 = false) (hqueue : (u.chan c.val).queue = [])
    (hlen : 0 < r.len) (hrow : r.addr + r.len ≤ (r.addr / 1024 + 1) * 1024) :
    exec (.channelRequestServe c [r] ups) s = .next (u.callReqs c.val [r]) := by
  have hshut : (u.callReqs c.val [r]).chanOff c.val = true := by
    simpa [State.chanOff, State.flag, State.field, State.written, State.callReqs] using hoff
  rw [exec_channelRequestServe hu halive hlen hrow, State.acceptReqs_off hshut,
    State.serveNext_of_empty (by simpa [State.callReqs] using hqueue)]

/-! ### Refresh -/

/-- Refresh operations bring a channel's debt down, one whole operation each (R306). -/
theorem State.debt_of_rfDone {s t : State} {c n : Nat} (hplinth : t.plinth (c / 256) = s.plinth (c / 256))
    (hdone : (t.chan c).rfDone = (s.chan c).rfDone + n) : t.debt c = s.debt c - 1024 * n := by
  rw [State.debt, State.debt, hplinth, hdone]
  omega

theorem exec_refreshOpportunistic {c : CoreNo} {s : State} (halive : s.alive = true) (hqueue : (s.chan c.val).queue = [])
    (hdebt : 1024 ≤ s.debt c.val) :
    exec (.refreshOpportunistic c) s = .next ((s.refresh c.val 1).count .stkRfOpp c.val 1) := by
  show execRefreshOpportunistic c s = _
  simp [execRefreshOpportunistic, halive, hqueue, hdebt]

theorem State.count_counter (s : State) (k : Ctr) (i n : Nat) :
    (s.count k i n).counter k i 0 = min (s.counter k i 0 + n) (2 ^ 64 - 1) :=
  Tbl.look_put_self ..

/-- One channel's turn in a refresh slot: above RFHI it refreshes until it is at or below RFLO (R307). -/
def State.slotRefresh (s : State) (c : Nat) : State :=
  let hi := 1024 * s.field .rfCfg [c / 256] 10 0
  let lo := 1024 * s.field .rfCfg [c / 256] 26 16
  if s.debt c ≤ hi then s
  else
    let n := cdiv (s.debt c - lo) 1024
    let s1 := ((s.refresh c n).count .stkRfForced c n).event (srcChan c) 2 0 0 (Config.freeNat s.free)
    if (s.chan c).queue.isEmpty then s1 else (s1.draw 1).waitFree (srcChan c) 12 0 none

theorem exec_refreshSlot {s : State} (halive : s.alive = true) :
    exec .refreshSlot s = .next ((List.range 2048).foldl State.slotRefresh s) := by
  show execRefreshSlot s = _
  simp only [execRefreshSlot, halive, Bool.not_true, if_neg Bool.false_ne_true]
  rfl

theorem State.slotRefresh_only (s : State) (c : Nat) :
    OnlyM (mask [.chans, .catCounters, .catRings, .catTrace, .free]) s (s.slotRefresh c) := by
  unfold State.slotRefresh
  extract_lets hi lo n s1
  have hevent : OnlyM (mask [.chans, .catCounters, .catRings, .catTrace, .free]) s s1 :=
    State.event_only (State.count_only (State.refresh_only (.refl _ s) (by decide)) (by decide)) (by decide)
  split
  · exact .refl _ s
  split
  · exact hevent
  · exact State.waitFree_only (State.draw_only hevent (by decide)) (by decide)

@[simp] theorem State.waitFree_chan (s : State) (unit cause ident : Nat) (k : Option (Ctr × Nat)) (j : Nat) :
    (s.waitFree unit cause ident k).chan j = s.chan j :=
  State.chan_congr ((State.waitFree_only (.refl _ s) (Nat.or_self _)).chans.resolve_left (by decide)) j

/-- A channel's turn writes that channel alone. -/
theorem State.slotRefresh_chan (s : State) (c j : Nat) : (s.slotRefresh c).chan j =
    if s.debt c ≤ 1024 * s.field .rfCfg [c / 256] 10 0 then s.chan j
    else (s.refresh c (cdiv (s.debt c - 1024 * s.field .rfCfg [c / 256] 26 16) 1024)).chan j := by
  unfold State.slotRefresh
  extract_lets hi lo n s1
  split
  · rfl
  split <;> simp [s1, n, lo]

/-- A channel with what its refresh turns on: what has fallen due on its plinth, and the plinth's RFHI and RFLO
(R306, R307). -/
structure RefreshView where
  chan : Chan
  accrued : Nat
  hi : Nat
  lo : Nat

def State.refreshView (s : State) (c : Nat) : RefreshView :=
  ⟨s.chan c, (s.plinth (c / 256)).accrued, s.field .rfCfg [c / 256] 10 0, s.field .rfCfg [c / 256] 26 16⟩

def RefreshView.debt (x : RefreshView) : Nat := x.accrued - 1024 * x.chan.rfDone

/-- The channel after its turn in a refresh slot (R307). -/
def RefreshView.slot (x : RefreshView) : RefreshView :=
  if x.debt ≤ 1024 * x.hi then x
  else { x with chan := { x.chan with rfDone := x.chan.rfDone + cdiv (x.debt - 1024 * x.lo) 1024 } }

theorem RefreshView.slot_debt_le {x : RefreshView} (h : 1024 * x.hi < x.debt) : x.slot.debt ≤ 1024 * x.lo := by
  rw [RefreshView.slot, if_neg (by omega)]
  simp only [RefreshView.debt, cdiv] at *
  omega

theorem RefreshView.slot_chan (x : RefreshView) : x.slot.chan = { x.chan with rfDone := x.slot.chan.rfDone } := by
  unfold RefreshView.slot
  split <;> rfl

theorem State.slotRefresh_view (s : State) (c j : Nat) :
    (s.slotRefresh c).refreshView j = { s.refreshView j with chan := (s.slotRefresh c).chan j } := by
  have honly := s.slotRefresh_only c
  simp only [State.refreshView, State.field, State.written, honly.regs.resolve_left (by decide),
    State.plinth_congr (honly.plinths.resolve_left (by decide))]

theorem State.slotRefresh_view_self (s : State) (c : Nat) : (s.slotRefresh c).refreshView c = (s.refreshView c).slot := by
  rw [State.slotRefresh_view, State.slotRefresh_chan]
  unfold RefreshView.slot
  show _ = if s.debt c ≤ 1024 * s.field .rfCfg [c / 256] 10 0 then _ else _
  split
  · rfl
  · exact congrArg (fun x => { s.refreshView c with chan := x }) (State.setChan_chan _)

theorem State.slotRefresh_view_ne (s : State) {c j : Nat} (h : j ≠ c) :
    (s.slotRefresh c).refreshView j = s.refreshView j := by
  rw [State.slotRefresh_view, State.slotRefresh_chan]
  have hother (n : Nat) : (s.refresh c n).chan j = s.chan j := State.setChan_chan_ne _ h
  rw [hother, ite_self]
  rfl

/-- After a refresh slot every channel has had its turn (R307). -/
theorem State.refreshSlot_view (s : State) (c : Nat) : ((List.range 2048).foldl State.slotRefresh s).refreshView c =
    if c < 2048 then (s.refreshView c).slot else s.refreshView c := by
  split
  · next hc =>
    exact foldl_get_of_mem (get := State.refreshView) (key := id) (R := fun x y => y = x.slot)
      (fun u _ _ h => u.slotRefresh_view_ne h) Function.injective_id (fun u c => u.slotRefresh_view_self c) List.nodup_range s
      (List.mem_range.mpr hc)
  · next hc =>
    exact foldl_get_of_ne (get := State.refreshView) (key := id) (fun u _ _ h => u.slotRefresh_view_ne h) _ s
      fun _ hi e => hc (e ▸ List.mem_range.mp hi)

/-- What every channel's turn comes to: those above RFHI stand at RFLO or below, and only refreshes are done (R307). -/
theorem State.refreshed_spec {s t : State}
    (hview : ∀ c, t.refreshView c = if c < 2048 then (s.refreshView c).slot else s.refreshView c) :
    (∀ c, c < 2048 → if 1024 * s.field .rfCfg [c / 256] 10 0 < s.debt c
      then t.debt c ≤ 1024 * s.field .rfCfg [c / 256] 26 16 else t.chan c = s.chan c) ∧
    (∀ c, t.chan c = { s.chan c with rfDone := (t.chan c).rfDone }) := by
  refine ⟨fun c hc => ?_, fun c => ?_⟩
  · have hslot := hview c
    rw [if_pos hc] at hslot
    split
    · next habove =>
      have hle : ((s.refreshView c).slot).debt ≤ 1024 * s.field .rfCfg [c / 256] 26 16 := RefreshView.slot_debt_le habove
      rwa [← hslot] at hle
    · next hbelow => exact congrArg RefreshView.chan (hslot.trans (if_pos (Nat.le_of_not_lt hbelow)))
  · show (t.refreshView c).chan = { (s.refreshView c).chan with rfDone := (t.refreshView c).chan.rfDone }
    rw [hview]
    split
    · exact (s.refreshView c).slot_chan
    · rfl

/-! ### The scrub -/

/-- The scrub of a channel moves to its next burst (R312). -/
def State.scrubStep (s : State) (c : Nat) : State :=
  s.setChan c { s.chan c with scrub := ((s.chan c).scrub + 1) % 2 ^ 22, scrubUsed := (s.chan c).scrubUsed + 1 }

theorem exec_scrubRead_clean {c : CoreNo} {ups : List Upset} {s u : State} (hu : u = s.upsets ups) (hrun : u.running = true)
    (hqueue : (u.chan c.val).queue = []) (hdebt : u.debt c.val < 1024)
    (hleft : (u.chan c.val).scrubUsed < u.field .scrubCfg [c.val / 256] 7 0)
    (hclean : u.chanErrors (u.core c.val).chan (64 * (u.chan c.val).scrub) 64 = []) :
    exec (.scrubRead c ups) s = .next (u.scrubStep c.val) := by
  subst hu
  show execScrubRead c ups s = _
  simp [execScrubRead, hrun, hqueue, Nat.not_le.mpr hdebt, Nat.not_le.mpr hleft, hclean, State.noteChan, State.scrubStep]

end Sys2Proof.Machine

open Sys2Proof Sys2Proof.Machine

/-- Settles O40: what the controller does with a request, then the refreshes, then the scrub. -/
theorem channelsServed : Obligations.ChannelsServed := by
  unfold Obligations.ChannelsServed
  refine ⟨fun c r ups s u hu halive hon hqueue hcalling hheld hgroup hlen hrow hwrite _ hbudget hspares hchk => ?_,
    fun c r ups s u g hu halive hon hqueue hcalling hheld hgroup hlen hrow hgal hspent =>
      exec_channelRequestServe_holds hu halive hon hqueue hcalling hheld hgroup hlen hrow hgal hspent,
    fun c r ups s u hu halive hoff hqueue hlen hrow => exec_channelRequestServe_waits hu halive hoff hqueue hlen hrow,
    fun c s halive hqueue hdebt => ?_, fun s halive => ⟨_, exec_refreshSlot halive, State.refreshed_spec s.refreshSlot_view⟩,
    fun c ups s hrun hqueue hdebt hleft hclean => ?_⟩
  · obtain ⟨t, hexec, hq, hcall, hheld', hlast, hmem⟩ :=
      exec_channelRequestServe_serves hu halive hon hqueue hcalling hheld
      hgroup hlen hrow hwrite hbudget hspares hchk
    refine ⟨t, hexec, hq, hcall, hheld', hlast, ?_⟩
    split
    · next b hkind =>
      have hbytes : t.mem = Memory.store u.mem (chanBase (u.core c.val).chan + r.addr) b := by rw [hmem, reqStored, hkind]
      rw [hbytes]
      refine ⟨fun i hi => ?_, fun a ha => Memory.get_store_out (by rw [hwrite b hkind]; omega)⟩
      rw [Memory.get_store_in hi]
      simp [hi]
    · next hread =>
      rw [hmem, reqStored]
      split
      · next b hkind => exact absurd hkind (hread b)
      · rfl
  · refine ⟨_, exec_refreshOpportunistic halive hqueue hdebt, ?_, ?_, ?_, ?_⟩
    · exact State.debt_of_rfDone (n := 1) (by simp [State.refresh]) (by simp [State.refresh])
    · simp [State.refresh]
    · intro d hd
      simp [State.refresh, State.setChan_chan_ne _ hd]
    · exact State.count_counter ..
  · exact ⟨_, exec_scrubRead_clean rfl hrun hqueue hdebt hleft hclean, State.setChan_chan _,
      fun d hd => State.setChan_chan_ne _ hd, rfl⟩
end

section
/-! The statements on the stack memory: the repair commands of a plinth (R317, R318, R480). -/

namespace Sys2Proof.Machine

/-! ### Check symbols are bytes (R309) -/

/-- Symbols of eight bits. -/
def Symbols (l : List Nat) : Prop := ∀ x ∈ l, x < 256

theorem Symbols.xorRow {a b : List Nat} (ha : Symbols a) (hb : Symbols b) : Symbols (xorRow a b) := by
  intro x hx
  obtain ⟨y, hy, rfl⟩ := List.mem_map.mp hx
  obtain ⟨h1, h2⟩ := List.of_mem_zip hy
  exact Nat.xor_lt_two_pow (n := 8) (ha _ h1) (hb _ h2)

theorem Symbols.headD {l : List Nat} (h : Symbols l) : l.headD 0 < 256 := by
  cases l with
  | nil => decide
  | cons x l => exact h x (.head _)

theorem symbols_map_toNat (b : Bytes) : Symbols (b.map BitVec.toNat) := by
  intro x hx
  obtain ⟨y, -, rfl⟩ := List.mem_map.mp hx
  exact y.isLt

/-- Symbols stored as bytes read back. -/
theorem Symbols.bytes {l : List Nat} (h : Symbols l) : (l.map (BitVec.ofNat 8)).map BitVec.toNat = l := by
  rw [List.map_map]
  exact (List.map_congr_left fun x hx => Nat.mod_eq_of_lt (h x hx)).trans (List.map_id l)

theorem gfDouble_lt : ∀ a < 256, gfDouble a < 256 := by decide +kernel

theorem gfMulBits_lt (n : Nat) {a : Nat} (ha : a < 256) (b : Nat) : gfMulBits n a b < 256 := by
  induction n generalizing a b with
  | zero => exact Nat.zero_lt_succ _
  | succ n ih =>
    refine Nat.xor_lt_two_pow (n := 8) ?_ (ih (gfDouble_lt a ha) _)
    split
    · exact ha
    · decide

theorem xorRow_length (a b : List Nat) : (xorRow a b).length = min a.length b.length := by simp [xorRow]

/-- Adding the same symbols again takes them away. -/
theorem xorRow_xorRow {a b : List Nat} (h : a.length = b.length) : xorRow a (xorRow a b) = b := by
  induction a generalizing b with
  | nil => cases b with
    | nil => rfl
    | cons y b => cases h
  | cons x a ih => cases b with
    | nil => cases h
    | cons y b => 
      have := ih (Nat.succ.inj h)
      simp [xorRow] at this ⊢
      exact this

/-- Eight check symbols, each a byte (R309). -/
def CheckRow (l : List Nat) : Prop := l.length = 8 ∧ Symbols l

theorem rsChecks_row {data : List Nat} (h : Symbols data) : CheckRow (rsChecks data) := by
  have hlen : ((rsGenerator.take 8).reverse).length = 8 := by decide +kernel
  refine List.foldlRecOn (motive := CheckRow) data _
    ⟨rfl, fun x hx => by rw [List.eq_of_mem_replicate hx]; decide⟩ fun r hr d hd => ?_
  obtain ⟨hr, hsym⟩ := hr
  have hf : d ^^^ r.headD 0 < 256 := Nat.xor_lt_two_pow (n := 8) (h d hd) hsym.headD
  refine ⟨by rw [xorRow_length, List.length_map, hlen]; simp [hr], Symbols.xorRow (fun x hx => ?_) fun x hx => ?_⟩
  · rcases List.mem_append.mp hx with hx | hx
    · exact hsym x (List.mem_of_mem_drop hx)
    · rw [List.mem_singleton.mp hx]; decide
  · obtain ⟨y, -, rfl⟩ := List.mem_map.mp hx
    exact gfMulBits_lt 8 hf y

/-! ### A burst stored and read back (R317) -/

theorem ofLE_lt (b : Bytes) : ofLE b < 256 ^ b.length := by
  induction b with
  | nil => exact Nat.one_pos
  | cons x b ih =>
    simp only [ofLE, List.length_cons, pow_succ]
    have := x.isLt
    omega

theorem toLE_ofLE (b : Bytes) : toLE b.length (ofLE b) = b := by
  induction b with
  | nil => rfl
  | cons x b ih =>
    have hx := x.isLt
    rw [List.length_cons, ofLE, toLE, Nat.add_mul_div_left _ _ (by decide), Nat.div_eq_of_lt hx, Nat.zero_add, ih]
    congr 1
    exact BitVec.eq_of_toNat_eq (by rw [BitVec.toNat_ofNat]; omega)

/-- Eight bytes survive their way through a word. -/
theorem toLE_ofNat_ofLE {b : Bytes} (h : b.length = 8) : toLE 8 (BitVec.ofNat 64 (ofLE b)).toNat = b := by
  have hlt := ofLE_lt b
  have hback := toLE_ofLE b
  rw [h] at hlt hback
  rw [BitVec.toNat_ofNat, Nat.mod_eq_of_lt (show ofLE b < 2 ^ 64 from hlt), hback]

/-- A walk over cells that all lie further on reads nothing first. -/
theorem Memory.walk_of_above {m : Memory} {a : Nat} (h : ∀ e ∈ m, a < e.1) (n : Nat) :
    Memory.walk m a (n + 1) = Memory.unlisted :: Memory.walk m (a + 1) n := by
  cases m with
  | nil => rfl
  | cons e m =>
    obtain ⟨k, v⟩ := e
    have := h (k, v) (.head _)
    rw [Memory.walk, if_neg (by simp at this; omega)]

theorem Memory.walk_cells (b : Bytes) {a : Nat} {m : Memory} (h : ∀ e ∈ m, a + b.length ≤ e.1) :
    Memory.walk (Memory.cells a b ++ m) a b.length = b := by
  induction b generalizing a with
  | nil => unfold Memory.walk; rfl
  | cons x b ih =>
    have hrest := ih (a := a + 1) fun e he => by have := h e he; simp only [List.length_cons] at this; omega
    rw [Memory.cells]
    split
    · next hx =>
      rw [List.length_cons, Memory.walk_of_above, hrest, hx]
      intro e he
      rcases List.mem_append.mp he with he | he
      · exact (Memory.cells_mem _ _ e he).1
      · have := h e he; simp only [List.length_cons] at this; omega
    · rw [List.cons_append, List.length_cons, Memory.walk, if_pos rfl, hrest]

/-- A run of bytes that was stored reads back. -/
theorem Memory.read_store (m : Memory) (a : Nat) (b : Bytes) : Memory.read (Memory.store m a b) a b.length = b := by
  have hcells : (Memory.cells a b).filter (fun c => decide (a ≤ c.1)) = Memory.cells a b :=
    List.filter_eq_self.mpr fun e he => decide_eq_true (Memory.cells_mem a b e he).1
  have hbelow : (m.filter (fun c => decide (c.1 < a))).filter (fun c => decide (a ≤ c.1)) = [] := by
    simp [List.filter_eq_nil_iff]
  have habove : (m.filter (fun c => decide (a + b.length ≤ c.1))).filter (fun c => decide (a ≤ c.1)) =
      m.filter (fun c => decide (a + b.length ≤ c.1)) :=
    List.filter_eq_self.mpr fun e he => by
      have := (List.mem_filter.mp he).2
      simp only [decide_eq_true_eq] at this ⊢
      omega
  rw [Memory.read, Memory.store, List.filter_append, List.filter_append, hcells, hbelow, habove]
  exact Memory.walk_cells b fun e he => by simpa using (List.mem_filter.mp he).2

theorem State.burstSymbols_congr {s t : State} (hmem : t.mem = s.mem) (hchk : t.chk = s.chk) (phys a : Nat) :
    t.burstSymbols phys a = s.burstSymbols phys a := by
  rw [State.burstSymbols, hmem, hchk]
  rfl

/-- WRITE_RAW's 72 symbols are those READ_RAW reads (R317). -/
theorem State.burstSymbols_burstRaw (s : State) (phys a : Nat) {sym : List Nat} (hlen : sym.length = 72) (hsym : Symbols sym) :
    (s.burstRaw phys a sym).burstSymbols phys a = sym := by
  have hdata : Symbols (sym.take 64) := fun x hx => hsym x (List.mem_of_mem_take hx)
  have hchecks : Symbols (sym.drop 64) := fun x hx => hsym x (List.mem_of_mem_drop hx)
  obtain ⟨hrow, hrowSym⟩ := rsChecks_row hdata
  have hread : (Memory.read (s.burstRaw phys a sym).mem (64 * ((chanBase phys + a) / 64)) 64).map BitVec.toNat =
      sym.take 64 := by
    have hstore := Memory.read_store s.mem (64 * ((chanBase phys + a) / 64)) ((sym.take 64).map (BitVec.ofNat 8))
    rw [List.length_map, List.length_take, hlen] at hstore
    exact (congrArg _ hstore).trans hdata.bytes
  have hchk : (toLE 8 (Tbl.look (s.burstRaw phys a sym).chk ((chanBase phys + a) / 64) 0).toNat).map BitVec.toNat =
      xorRow (rsChecks (sym.take 64)) (sym.drop 64) := by
    rw [show Tbl.look (s.burstRaw phys a sym).chk ((chanBase phys + a) / 64) 0 = _ from Tbl.look_put_self ..,
      toLE_ofNat_ofLE (by simp [xorRow_length, hrow, hlen]), (hrowSym.xorRow hchecks).bytes]
  rw [State.burstSymbols, hread, hchk, xorRow_xorRow (by simp [hrow, hlen])]
  exact List.take_append_drop 64 sym

@[simp] theorem rprData_toLE_length (v : Nat) : ((toLE 72 v).map BitVec.toNat).length = 72 := by simp

/-- A raw burst changes no byte outside it. -/
theorem State.burstRaw_outside (s : State) (phys a : Nat) (sym : List Nat) {x : Nat} (h : x / 64 ≠ (chanBase phys + a) / 64) :
    Memory.get (s.burstRaw phys a sym).mem x = Memory.get s.mem x := by
  refine Memory.get_store_out ?_
  rw [List.length_map, List.length_take]
  omega

/-! ### The data registers (R317) -/

theorem regOff_rprData (p i : Nat) : regOff .rprData [p, i] = 0x1000120 + (0x100000 * p + 4 * i) := by
  simp only [regOff, show (regSpec .rprData).base = 0x1000120 by decide +kernel,
    show (regSpec .rprData).dims = [(8, 0x100000), (18, 0x4)] by decide +kernel]
  simp

/-- The words written to the data registers of a plinth read back. -/
theorem State.setRprData_written (s : State) (p v : Nat) {words i : Nat} (h : i < words) :
    (s.setRprData p words v).written .rprData [p, i] = bits v (32 * i + 31) (32 * i) := by
  have hall := foldl_get_of_mem (get := fun u j => (j, State.written u .rprData [p, j])) (key := id)
    (f := fun u i => u.setField .rprData [p, i] 31 0 (bits v (32 * i + 31) (32 * i)))
    (R := fun _ y => y.2 = bits v (32 * y.1 + 31) (32 * y.1))
    (fun u i j hj => by
      rw [State.setField_written_ne _ _ _ _ (by rw [regOff_rprData, regOff_rprData]; simp only [id] at hj; omega)])
    Function.injective_id (fun u i => ?_) List.nodup_range s (List.mem_range.mpr h)
  · exact hall
  · have hset := bits_setBits (u.written .rprData [p, i]) (bits v (32 * i + 31) (32 * i)) (hi := 31) (lo := 0)
    have hword (n : Nat) : bits n 31 0 = n % 2 ^ 32 := by simp [bits]
    have hlt : bits v (32 * i + 31) (32 * i) < 2 ^ 32 := by
      unfold bits
      rw [show 32 * i + 31 + 1 - 32 * i = 32 by omega]
      exact Nat.mod_lt _ (by decide)
    rw [hword, Nat.mod_eq_of_lt hlt] at hset
    exact (State.setField_written ..).trans hset

/-! ### The commands, once they run (R317) -/

/-- A plinth that runs a command is BUSY with the status the command ends with (R317). -/
def State.repairBusy (r : State × Status) (p pch : Nat) : State :=
  r.1.setPlinth p { r.1.plinth p with rprRun := some r.2, rprPch := pch }

theorem State.repairCommand_runs {s : State} {p op : Nat} {w : Word} (hpf : s.pfWrite 0 = true) (hop : bits w.toNat 3 0 = op)
    (hidle : (s.plinth p).rprRun = none) :
    s.repairCommand 0 p op w = State.repairBusy (s.repairAction p op (bits w.toNat 12 4)) p (bits w.toNat 12 4) := by
  simp [State.repairCommand, hpf, hop, hidle, State.repairBusy]

/-- A command given while one runs is refused (R317). -/
theorem State.repairCommand_refused {s : State} {p op : Nat} {w : Word} (hpf : s.pfWrite 0 = true) (hop : bits w.toNat 3 0 = op)
    (hbusy : (s.plinth p).rprRun.isSome = true) :
    s.repairCommand 0 p op w = s.refuseWrite 0 (regOff .rprCmd [p]) .lockedField := by
  simp [State.repairCommand, hpf, hop, hbusy]

theorem State.repairBusy_plinth {t : State} {st : Status} {p pch : Nat} {x : Plinth} (h : t.plinth p = x) :
    (State.repairBusy (t, st) p pch).plinth p = { x with rprRun := some st, rprPch := pch } := by
  rw [State.repairBusy, State.setPlinth_plinth, h]

/-- A command that ends with words in the data registers changes them, and leaves its plinth BUSY (R317). -/
theorem State.setRprData_ends (s : State) (p words v pch : Nat) :
    ∃ t, State.repairBusy (s.setRprData p words v, .ok) p pch = t ∧ t.mem = s.mem ∧ t.chk = s.chk ∧
      t.plinth p = { s.plinth p with rprRun := some .ok, rprPch := pch } ∧
      ∀ i, i < words → t.written .rprData [p, i] = bits v (32 * i + 31) (32 * i) := by
  have honly := State.setRprData_only (a1 := p) (a2 := words) (a3 := v) (.refl _ s) (Nat.or_self _)
  have hwritten (i : Nat) (hi : i < words) := s.setRprData_written p v hi
  generalize s.setRprData p words v = u at *
  exact ⟨_, rfl, honly.mem.resolve_left (by decide), honly.chk.resolve_left (by decide),
    State.repairBusy_plinth (State.plinth_congr (honly.plinths.resolve_left (by decide)) p), hwritten⟩

/-! ### A free choice -/

theorem State.pick_nil {α : Type} (s : State) : s.pick ([] : List α) = (s, none) := rfl

/-- Of several one is picked, by a free value at most. -/
theorem State.pick_spec {α : Type} (s : State) {l : List α} (h : l ≠ []) :
    ∃ k ∈ l, ∃ n, s.pick l = (s.draw n, some k) := by
  match l with
  | [a] => exact ⟨a, .head _, 0, rfl⟩
  | a :: b :: t =>
    refine ⟨_, ?_, 1, rfl⟩
    have hlt : Config.freeNat s.free % (a :: b :: t).length < (a :: b :: t).length := Nat.mod_lt _ (Nat.succ_pos _)
    rw [List.getElem?_eq_getElem hlt, Option.getD_some]
    exact List.getElem_mem hlt

/-! ### Moving the bursts of a slice (R318) -/

/-- One burst in error is moved to its fresh cells: corrected, or poisoned where that cannot be (R298). -/
def State.moveBurst (p pch : Nat) (s : State) (e : Nat × BitVec 64) : State :=
  let a := 64 * e.1 - chanBase (p * 264 + pch)
  match burstError e.2, s.coreOfChan p pch with
  | none, none => { s with chk := Tbl.put s.chk e.1 poisonChk 0 }
  | none, some c =>
    let s1 : State := { s with chk := Tbl.put s.chk e.1 poisonChk 0 }
    (s1.count .stkUe c 1).incident clsUe 0x05 .arrayUe (srcChan c) a 0
  | some x, none => { s with mem := mergeBurst s.mem e.1 x, chk := s.chk.erase e.1 }
  | some x, some c =>
    let s1 := s.noteBurst c rdConservator false a false
    { s1 with mem := mergeBurst s1.mem e.1 x, chk := s1.chk.erase e.1 }

/-- The bursts in error a slice of a channel holds. -/
def State.sliceErrors (s : State) (p pch : Nat) (inSlice : Nat → Bool) : List (Nat × BitVec 64) :=
  let base := chanBase (p * 264 + pch)
  s.chk.filter (fun e => decide (base ≤ 64 * e.1) && decide (64 * e.1 < base + 2 ^ 28) && inSlice (64 * e.1 - base))

theorem State.moveBursts_eq (s : State) (p pch : Nat) (inSlice : Nat → Bool) : s.moveBursts p pch inSlice =
    ((s.sliceErrors p pch inSlice).foldl (State.moveBurst p pch) s,
      statusIf ((s.sliceErrors p pch inSlice).any (fun e => (burstError e.2).isNone)) .arrayUe) := rfl

theorem mergeBurst_outside (m : Memory) {g x : Nat} (e : List Nat) (h : x / 64 ≠ g) :
    Memory.get (mergeBurst m g e) x = Memory.get m x := by
  refine Memory.get_store_out ?_
  rw [List.length_map, xorRow_length, List.length_map, Memory.read_length]
  omega

theorem State.moveBurst_outside (p pch : Nat) (s : State) (e : Nat × BitVec 64) {x : Nat} (h : x / 64 ≠ e.1) :
    Memory.get (s.moveBurst p pch e).mem x = Memory.get s.mem x := by
  unfold State.moveBurst
  dsimp only
  split
  · rfl
  · simp
  · exact mergeBurst_outside _ _ h
  · rw [mergeBurst_outside _ _ h]
    simp [State.noteBurst]

/-- Moving a slice's bursts changes no byte outside the bursts of the slice that are in error. -/
theorem State.moveBursts_outside (s : State) (p pch : Nat) (inSlice : Nat → Bool) {x : Nat}
    (h : ∀ e ∈ s.sliceErrors p pch inSlice, x / 64 ≠ e.1) :
    Memory.get (s.moveBursts p pch inSlice).1.mem x = Memory.get s.mem x := by
  rw [State.moveBursts_eq]
  exact List.foldlRecOn (motive := fun t => Memory.get t.mem x = Memory.get s.mem x) _ _ rfl
    fun t ht e he => (State.moveBurst_outside p pch t e (h e he)).trans ht

/-- The status of a move is OK or ARRAY_UE, and OK where every burst can be corrected (R318). -/
theorem State.moveBursts_status (s : State) (p pch : Nat) (inSlice : Nat → Bool) :
    ((s.moveBursts p pch inSlice).2 = .ok ∨ (s.moveBursts p pch inSlice).2 = .arrayUe) ∧
      ((∀ e ∈ s.chk, (burstError e.2).isSome = true) → (s.moveBursts p pch inSlice).2 = .ok) := by
  rw [State.moveBursts_eq]
  unfold statusIf
  split
  · next hlost =>
    obtain ⟨e, he, hnone⟩ := List.any_eq_true.mp hlost
    refine ⟨.inr rfl, fun hall => ?_⟩
    have hsome := hall e (List.mem_filter.mp he).1
    rw [Option.isNone_iff_eq_none.mp hnone] at hsome
    cases hsome
  · exact ⟨.inl rfl, fun _ => rfl⟩

theorem State.moveBursts_plinth (s : State) (p pch : Nat) (inSlice : Nat → Bool) (j : Nat) :
    (s.moveBursts p pch inSlice).1.plinth j = s.plinth j :=
  State.plinth_congr ((State.moveBursts_only (.refl _ s) (Nat.or_self _)).fst.plinths.resolve_left (by decide)) j

theorem State.addRepair_plinth (s : State) (e : RepEntry) :
    (s.addRepair e).plinth e.plinth = { s.plinth e.plinth with repairMap := (s.plinth e.plinth).repairMap ++ [e] } :=
  State.setPlinth_plinth _

/-! ### Sparing a row or a column slice (R317, R318) -/

/-- A slice goes to one of the spares that are free: its bursts move, and the repair map has one entry more (R318,
R480). -/
def State.spareSlice (s : State) (p pch : Nat) (spares : List Nat) (inSlice : Nat → Bool) (entry : Nat → RepEntry) :
    State × Status :=
  match s.pick spares with
  | (s1, none) => (s1, .quotaExceeded)
  | (s1, some k) =>
    let r := s1.moveBursts p pch inSlice
    (r.1.addRepair (entry k), r.2)

/-- The row of an address, and the entry that spares it (R318, R480). -/
def rowSlice (a x : Nat) : Bool := dramBank x == dramBank a && dramRow x == dramRow a
def rowEntry (p pch a k : Nat) : RepEntry := ⟨1, p, pch, dramBank a / 2, dramBank a % 2, dramRow a, k⟩

/-- The column slice of an address, and the entry that spares it (R317, R480). -/
def colSlice (a x : Nat) : Bool := dramBank x == dramBank a && bits x 9 6 == bits a 9 6
def colEntry (p pch a k : Nat) : RepEntry := ⟨2, p, pch, dramBank a / 2, dramBank a % 2, bits a 9 3, k⟩

theorem State.rowSpare_eq (s : State) (p pch a : Nat) : s.rowSpare p pch a =
    s.spareSlice p pch ((s.plinth p).freeRows pch (dramBank a)) (rowSlice a) (rowEntry p pch a) := rfl

theorem State.colSpare_eq (s : State) (p pch a : Nat) : s.colSpare p pch a =
    s.spareSlice p pch ((s.plinth p).freeCols pch (dramBank a)) (colSlice a) (colEntry p pch a) := rfl

/-- With no spare left nothing is done, and the command ends with QUOTA_EXCEEDED (R317). -/
theorem State.spareSlice_nil (s : State) (p pch : Nat) (inSlice : Nat → Bool) (entry : Nat → RepEntry) :
    s.spareSlice p pch [] inSlice entry = (s, .quotaExceeded) := rfl

/-- Whether a byte lies in a channel, in a burst of a slice of it. -/
def InSlice (p pch : Nat) (inSlice : Nat → Bool) (x : Nat) : Prop :=
  chanBase (p * 264 + pch) ≤ x ∧ x < chanBase (p * 264 + pch) + 2 ^ 28 ∧
    inSlice ((x - chanBase (p * 264 + pch)) / 64 * 64) = true

/-- A burst of a slice lies in its channel, and each byte of it in the slice, which is one of whole bursts. -/
theorem State.sliceErrors_covers {s : State} {p pch : Nat} {inSlice : Nat → Bool} {e : Nat × BitVec 64}
    (he : e ∈ s.sliceErrors p pch inSlice) {x : Nat} (hx : x / 64 = e.1) :
    InSlice p pch inSlice x := by
  have hin := (List.mem_filter.mp he).2
  simp only [Bool.and_eq_true, decide_eq_true_eq] at hin
  obtain ⟨⟨hlow, hhigh⟩, hslice⟩ := hin
  simp only [InSlice, chanBase] at *
  refine ⟨by omega, by omega, ?_⟩
  rwa [show (x - (p * 264 + pch) * 2 ^ 28) / 64 * 64 = 64 * e.1 - (p * 264 + pch) * 2 ^ 28 by omega]

/-- What sparing a slice leaves: the entry of a spare that was free, and every byte outside the slice as it was
(R318, R480). -/
theorem State.spareSlice_spec (s : State) {p pch : Nat} {spares : List Nat} {inSlice : Nat → Bool} {entry : Nat → RepEntry}
    (hentry : ∀ k, (entry k).plinth = p) (hspares : spares ≠ []) :
    ∃ k t st, s.spareSlice p pch spares inSlice entry = (t, st) ∧ k ∈ spares ∧ (st = .ok ∨ st = .arrayUe) ∧
      ((∀ e ∈ s.chk, (burstError e.2).isSome = true) → st = .ok) ∧
      t.plinth p = { s.plinth p with repairMap := (s.plinth p).repairMap ++ [entry k] } ∧
      ∀ x, ¬ InSlice p pch inSlice x → Memory.get t.mem x = Memory.get s.mem x := by
  obtain ⟨k, hk, n, hpick⟩ := s.pick_spec hspares
  obtain ⟨hstatus, hclean⟩ := (s.draw n).moveBursts_status p pch inSlice
  have hspare : s.spareSlice p pch spares inSlice entry = (((s.draw n).moveBursts p pch inSlice).1.addRepair (entry k),
      ((s.draw n).moveBursts p pch inSlice).2) := by rw [State.spareSlice, hpick]
  refine ⟨k, _, _, hspare, hk, hstatus, hclean, ?_,
    fun x hx => (s.draw n).moveBursts_outside p pch inSlice
      fun e he hburst => hx (State.sliceErrors_covers (s := s) he hburst)⟩
  have hadd := State.addRepair_plinth ((s.draw n).moveBursts p pch inSlice).1 (entry k)
  rw [hentry, State.moveBursts_plinth] at hadd
  exact hadd

/-- The command's end: a plinth BUSY with the status the sparing of a slice ends with (R317, R318). -/
theorem State.spareSlice_ends (s : State) {p pch : Nat} {spares : List Nat} {inSlice : Nat → Bool} {entry : Nat → RepEntry}
    (hentry : ∀ k, (entry k).plinth = p) :
    ∃ t, State.repairBusy (s.spareSlice p pch spares inSlice entry) p pch = t ∧
      if spares = [] then t = s.setPlinth p { s.plinth p with rprRun := some .quotaExceeded, rprPch := pch }
      else (∃ k st, k ∈ spares ∧ (st = .ok ∨ st = .arrayUe) ∧ ((∀ e ∈ s.chk, (burstError e.2).isSome = true) → st = .ok) ∧
          t.plinth p = { s.plinth p with
            rprRun := some st, rprPch := pch, repairMap := (s.plinth p).repairMap ++ [entry k] }) ∧
        ∀ x, ¬ InSlice p pch inSlice x → Memory.get t.mem x = Memory.get s.mem x := by
  refine ⟨_, rfl, ?_⟩
  split
  · next hnone => rw [hnone, State.spareSlice_nil]; rfl
  · next hsome =>
    obtain ⟨k, t, st, hspare, hk, hstatus, hclean, hplinth, hmem⟩ :=
      s.spareSlice_spec (pch := pch) (inSlice := inSlice) hentry hsome
    rw [hspare]
    exact ⟨⟨k, st, hk, hstatus, hclean, State.repairBusy_plinth hplinth⟩, hmem⟩

/-- A field above a burst's 64 bytes is the same at each of them. -/
theorem bits_burst (n : Nat) {hi lo : Nat} (h : 6 ≤ lo) : bits (n / 64 * 64) hi lo = bits n hi lo := by
  unfold bits
  rw [show 2 ^ lo = 64 * 2 ^ (lo - 6) by rw [show (64 : Nat) = 2 ^ 6 by rfl, ← pow_add]; congr 1; omega,
    ← Nat.div_div_eq_div_mul, ← Nat.div_div_eq_div_mul, Nat.mul_div_cancel _ (by decide)]

theorem inSlice_row (p pch a x : Nat) : InSlice p pch (rowSlice a) x ↔
    chanBase (p * 264 + pch) ≤ x ∧ x < chanBase (p * 264 + pch) + 2 ^ 28 ∧
      dramBank (x - chanBase (p * 264 + pch)) = dramBank a ∧ dramRow (x - chanBase (p * 264 + pch)) = dramRow a := by
  simp [InSlice, rowSlice, dramBank, dramRow, bits_burst]

theorem inSlice_col (p pch a x : Nat) : InSlice p pch (colSlice a) x ↔
    chanBase (p * 264 + pch) ≤ x ∧ x < chanBase (p * 264 + pch) + 2 ^ 28 ∧
      dramBank (x - chanBase (p * 264 + pch)) = dramBank a ∧ bits (x - chanBase (p * 264 + pch)) 9 6 = bits a 9 6 := by
  simp [InSlice, colSlice, dramBank, bits_burst]

/-! ### Sparing a channel (R317, R417) -/

/-- CH_SPARE of a channel not yet marked: with no spare channel left QUOTA_EXCEEDED, else it is marked for one, with
its entry. -/
theorem State.chSpare_ends (s : State) {p pch : Nat} (hnew : ∀ y ∈ (s.plinth p).chSpares, y.pch ≠ pch) :
    if (s.spareChans p).filter (fun i => i != pch) = []
    then s.chSpare p pch = (s, .quotaExceeded)
    else ∃ k t, k ∈ s.spareChans p ∧ k ≠ pch ∧ s.chSpare p pch = (t, .ok) ∧ t.mem = s.mem ∧ t.plinth p = { s.plinth p with
      chSpares := (s.plinth p).chSpares ++ [⟨pch, k, 0⟩]
      repairMap := (s.plinth p).repairMap ++ [⟨3, p, pch, 0, 0, 0, k⟩] } := by
  have hmark : (s.plinth p).chSpares.any (fun y => y.pch == pch) = false := by simpa using hnew
  split
  · next hnone => simp [State.chSpare, hmark, hnone, State.pick_nil]
  · next hsome =>
    obtain ⟨k, hk, n, hpick⟩ := s.pick_spec hsome
    obtain ⟨hspare, hne⟩ := List.mem_filter.mp hk
    have hmarked : s.chSpare p pch = (((s.draw n).setPlinth p { s.plinth p with
        chSpares := (s.plinth p).chSpares ++ [⟨pch, k, 0⟩] }).addRepair ⟨3, p, pch, 0, 0, 0, k⟩, .ok) := by
      simp [State.chSpare, hmark, hpick]
    exact ⟨k, _, hspare, by simpa using hne, hmarked, rfl,
      (State.addRepair_plinth _ ⟨3, p, pch, 0, 0, 0, k⟩).trans (by simp)⟩

/-! ### What each command does (R317) -/

section
variable {s : State} {p pch : Nat} (hpch : pch ≤ 263)
include hpch

theorem State.repairAction_readRaw : s.repairAction p 1 pch =
    (s.setRprData p 18 (ofLE ((s.burstSymbols (p * 264 + pch) (s.written .rprAddr [p])).map (BitVec.ofNat 8))), .ok) := by
  simp [State.repairAction, Nat.not_lt.mpr hpch]

theorem State.repairAction_rowSpare : s.repairAction p 3 pch = s.rowSpare p pch (s.written .rprAddr [p]) := by
  simp [State.repairAction, Nat.not_lt.mpr hpch]

theorem State.repairAction_colSpare : s.repairAction p 4 pch = s.colSpare p pch (s.written .rprAddr [p]) := by
  simp [State.repairAction, Nat.not_lt.mpr hpch]

theorem State.repairAction_chSpare : s.repairAction p 5 pch = s.chSpare p pch := by
  simp [State.repairAction, Nat.not_lt.mpr hpch]

theorem State.repairAction_mapRead {e : RepEntry} (h : (s.plinth p).repairMap[s.written .rprAddr [p]]? = some e) :
    s.repairAction p 6 pch = (s.setRprData p 2 e.word, .ok) := by
  simp [State.repairAction, Nat.not_lt.mpr hpch, h]

/-- A channel a core uses, its controllers on, is not written (R317). -/
theorem State.repairAction_writeRaw_locked (h : ¬ (pch ∈ s.spareChans p ∨ s.flag .stkCtrl [p] 0 = false)) :
    s.repairAction p 2 pch = (s, .lockedField) := by
  have hlocked : (!((s.spareChans p).contains pch || !s.flag .stkCtrl [p] 0)) = true := by simpa using h
  simp only [State.repairAction, Nat.not_lt.mpr hpch, hlocked, if_true, if_false]

/-- A channel no core uses is written: its burst has the symbols of the data registers, and no byte outside it
changes (R317). -/
theorem State.repairAction_writeRaw (h : pch ∈ s.spareChans p ∨ s.flag .stkCtrl [p] 0 = false) :
    ∃ t, s.repairAction p 2 pch = (t, .ok) ∧
      t.burstSymbols (p * 264 + pch) (s.written .rprAddr [p]) = (toLE 72 (s.rprData p)).map BitVec.toNat ∧
      (∀ x, x / 64 ≠ (chanBase (p * 264 + pch) + s.written .rprAddr [p]) / 64 → Memory.get t.mem x = Memory.get s.mem x) ∧
      t.plinth p = s.plinth p := by
  let sym := (toLE 72 (s.rprData p)).map BitVec.toNat
  let u := s.burstRaw (p * 264 + pch) (s.written .rprAddr [p]) sym
  have hfree : (!((s.spareChans p).contains pch || !s.flag .stkCtrl [p] 0)) = false :=
    by simpa [or_iff_not_imp_left] using h
  have hact : ∃ t, s.repairAction p 2 pch = (t, .ok) ∧ OnlyM (mask [.cores]) u t := by
    refine ⟨_, by simp only [State.repairAction, Nat.not_lt.mpr hpch, hfree, if_false]; rfl, ?_⟩
    split
    · exact .refl _ _
    · exact State.dropLines_only (.refl _ _) (Nat.or_self _)
  obtain ⟨t, hact, honly⟩ := hact
  have hmem : t.mem = u.mem := honly.mem.resolve_left (by decide)
  refine ⟨t, hact, ?_, fun x hx => ?_, State.plinth_congr (s := u) (honly.plinths.resolve_left (by decide)) p⟩
  · rw [State.burstSymbols_congr hmem (honly.chk.resolve_left (by decide))]
    exact s.burstSymbols_burstRaw _ _ (rprData_toLE_length _) (symbols_map_toNat _)
  · rw [hmem]
    exact s.burstRaw_outside _ _ _ hx

end

end Sys2Proof.Machine

open Sys2Proof Sys2Proof.Machine

/-- Settles O36: a command that runs leaves its plinth BUSY, and what each of the six does;
then the refusal and how a command ends. -/
theorem repairCommands : Obligations.RepairCommands := by
  unfold Obligations.RepairCommands
  refine ⟨fun p w s hpf hidle hpch hop => ?_, fun p w s hpf hidle hpch hop => ?_,
    fun p w s a pch ha hpch hpf hidle hle hop => ?_, fun p w s a pch ha hpch hpf hidle hle hop => ?_,
    fun p w s pch hpch hpf hidle hle hop hnew => ?_, fun p w s e hpf hidle hpch hop hentry => ?_,
    fun p w s c op hpf hbusy hop hc => ?_, fun p s st halive hrun => ?_⟩
  · refine ⟨_, congrArg Host.Outcome.next (State.repairCommand_runs hpf hop hidle), ?_⟩
    rw [State.repairAction_readRaw hpch]
    obtain ⟨t, ht, hends⟩ := s.setRprData_ends p.val 18 (ofLE ((s.burstSymbols (p.val * 264 + bits w.toNat 12 4)
      (s.written .rprAddr [p.val])).map (BitVec.ofNat 8))) (bits w.toNat 12 4)
    rw [ht]
    exact hends
  · refine ⟨_, congrArg Host.Outcome.next (State.repairCommand_runs hpf hop hidle), ?_⟩
    split
    · next hfree =>
      obtain ⟨t, hact, hsym, hmem, hplinth⟩ := State.repairAction_writeRaw hpch hfree
      rw [hact]
      exact ⟨(State.burstSymbols_congr rfl rfl ..).trans hsym, hmem, State.repairBusy_plinth hplinth⟩
    · next hused =>
      rw [State.repairAction_writeRaw_locked hpch hused]
      rfl
  · subst ha hpch
    refine ⟨_, congrArg Host.Outcome.next (State.repairCommand_runs hpf hop hidle), ?_⟩
    obtain ⟨t, ht, hends⟩ := s.spareSlice_ends (p := p.val) (pch := bits w.toNat 12 4)
      (spares := (s.plinth p.val).freeRows (bits w.toNat 12 4) (dramBank (s.written .rprAddr [p.val])))
      (inSlice := rowSlice (s.written .rprAddr [p.val]))
      (entry := rowEntry p.val (bits w.toNat 12 4) (s.written .rprAddr [p.val])) (fun _ => rfl)
    rw [State.repairAction_rowSpare hle, State.rowSpare_eq, ht]
    simp only [inSlice_row] at hends
    exact hends
  · subst ha hpch
    refine ⟨_, congrArg Host.Outcome.next (State.repairCommand_runs hpf hop hidle), ?_⟩
    obtain ⟨t, ht, hends⟩ := s.spareSlice_ends (p := p.val) (pch := bits w.toNat 12 4)
      (spares := (s.plinth p.val).freeCols (bits w.toNat 12 4) (dramBank (s.written .rprAddr [p.val])))
      (inSlice := colSlice (s.written .rprAddr [p.val]))
      (entry := colEntry p.val (bits w.toNat 12 4) (s.written .rprAddr [p.val])) (fun _ => rfl)
    rw [State.repairAction_colSpare hle, State.colSpare_eq, ht]
    simp only [inSlice_col] at hends
    exact hends
  · subst hpch
    have hends := s.chSpare_ends hnew
    refine ⟨_, congrArg Host.Outcome.next (State.repairCommand_runs hpf hop hidle), ?_⟩
    rw [State.repairAction_chSpare hle]
    split at hends
    · next hnone =>
      rw [hends, if_pos hnone]
      exact ⟨rfl, State.repairBusy_plinth rfl⟩
    · next hsome =>
      obtain ⟨k, t, hk, hne, hmark, hmem, hplinth⟩ := hends
      rw [hmark, if_neg hsome]
      exact ⟨hmem, k, hk, hne, State.repairBusy_plinth hplinth⟩
  · refine ⟨_, congrArg Host.Outcome.next (State.repairCommand_runs hpf hop hidle), ?_⟩
    rw [State.repairAction_mapRead hpch hentry]
    obtain ⟨t, ht, -, -, hplinth, hwritten⟩ := s.setRprData_ends p.val 2 e.word (bits w.toNat 12 4)
    rw [ht]
    exact ⟨hplinth, hwritten 0 (by decide), hwritten 1 (by decide)⟩
  · simp only [List.mem_cons, Prod.mk.injEq, List.not_mem_nil, or_false] at hc
    rcases hc with ⟨rfl, rfl⟩ | ⟨rfl, rfl⟩ | ⟨rfl, rfl⟩ | ⟨rfl, rfl⟩ | ⟨rfl, rfl⟩ | ⟨rfl, rfl⟩ <;>
      exact congrArg Host.Outcome.next (State.repairCommand_refused hpf hop hbusy)
  · show execRepairCommandDone p s = _
    simp [execRepairCommandDone, hrun, halive]
end

section
/-! The statements on the stack memory: thermal samples and the limits they reach (R313, R315, R474, R522). -/

namespace Sys2Proof.Machine

/-! ### What has been sent stays sent -/

/-- What the device has put on its interfaces in `s` stands first among what it has put there in `t`. -/
def State.KeepsOut (s t : State) : Prop := s.out <+: t.out

theorem State.KeepsOut.refl (s : State) : s.KeepsOut s := List.prefix_rfl

theorem State.KeepsOut.trans {s t u : State} (h : s.KeepsOut t) (k : t.KeepsOut u) : s.KeepsOut u :=
  List.IsPrefix.trans h k

theorem State.KeepsOut.foldl {α : Type} {f : State → α → State} (h : ∀ (u : State) x, u.KeepsOut (f u x)) (l : List α)
    (s : State) : s.KeepsOut (l.foldl f s) := by
  induction l generalizing s with
  | nil => exact .refl s
  | cons x l ih => exact (h s x).trans (ih _)

/-- What puts nothing on an interface keeps what stands there. -/
theorem State.KeepsOut.of_only {s t : State} (h : OnlyM (leavesBut .out) s t) : s.KeepsOut t := by
  rw [State.KeepsOut, h.out.resolve_left (by decide)]

theorem State.emit_keepsOut (s : State) (x : Out) : s.KeepsOut (s.emit x) := List.prefix_append ..

theorem State.hostWrite_keepsOut (s : State) (func addr : Nat) (b : Bytes) : s.KeepsOut (s.hostWrite func addr b) := by
  unfold State.hostWrite
  split
  · exact .refl s
  · exact s.emit_keepsOut _

theorem State.hostRead_keepsOut (s : State) (func : Nat) (what : HostRead) (addr len : Nat) :
    s.KeepsOut (s.hostRead func what addr len) := by
  unfold State.hostRead
  split
  · exact .refl s
  · exact s.emit_keepsOut _

/-! ### The records of operations -/

theorem State.ringRecord_keepsOut (s : State) (r tag opcode status cause off result index : Nat) :
    s.KeepsOut (s.ringRecord r tag opcode status cause off result index) :=
  (s.hostWrite_keepsOut ..).trans
    (.of_only (State.ringInterrupt_only (State.setRing_only (.refl _ _) (by decide)) (by decide)))

theorem State.recordOp_keepsOut (s : State) (r i : Nat) (o : Op) (x : Done) : s.KeepsOut (s.recordOp r i o x) := by
  unfold State.recordOp
  split
  · extract_lets src u
    exact State.ringRecord_keepsOut u ..
  · exact .refl s

theorem State.settleFence_keepsOut (s : State) (r : Nat) : s.KeepsOut (s.settleFence r) := by
  unfold State.settleFence
  split
  · exact .refl s
  · next f _ =>
    extract_lets src u i
    exact State.KeepsOut.trans (t := u.opEvent (srcHub hubHost) 3 f .ok)
      (State.KeepsOut.of_only (s := u) (State.opEvent_only (.refl _ _) (by decide))) (State.recordOp_keepsOut ..)

theorem State.complete_keepsOut (s : State) (unit : Nat) (o : Op) (x : Done) : s.KeepsOut (s.complete unit o x) := by
  unfold State.complete
  extract_lets refused u
  have hevent : s.KeepsOut u := by
    unfold u
    split
    · exact .of_only (State.opEvent_only (.refl _ _) (by decide))
    · exact .of_only (State.opEvent_only (State.countOverrun_only (.refl _ _) (by decide)) (by decide))
  split
  · exact (hevent.trans (State.recordOp_keepsOut ..)).trans (State.settleFence_keepsOut ..)
  · exact hevent

/-- An operation whose effect keeps what has been sent keeps it as its descriptor is taken in, refused or not. -/
theorem State.accept_keepsOut {effect : State → Op → State} (he : ∀ u o, State.KeepsOut u (effect u o)) (s : State)
    (unit : Nat) (o : Origin) (d : Line64) (opcode : Nat) (checks : State → Op → List Bad) :
    s.KeepsOut (s.accept unit o d opcode checks effect) := by
  have htaken : s.KeepsOut (s.taken o d opcode) := .of_only (State.take_only (.refl _ s) (by decide)).fst
  cases hrun : s.running with
  | false => rw [State.accept_of_not_running hrun]; exact .refl s
  | true =>
    cases hjudged : s.judged o d opcode checks with
    | none => rw [State.accept_of_accepts ⟨hrun, hjudged⟩]; exact htaken.trans (he _ _)
    | some v => rw [State.accept_of_refused hrun hjudged]; exact htaken.trans (State.complete_keepsOut ..)

/-! ### Object operations, DMA operations and page moves as they start -/

theorem State.endReleases_keepsOut (s : State) : s.KeepsOut s.endReleases := by
  refine .foldl (fun u m => ?_) s.tiers.maps s
  split
  · exact .refl u
  split
  · exact .refl u
  · exact State.KeepsOut.trans
      (.of_only (State.objFree_only (State.endMapping_only (.refl _ u) (by decide)) (by decide))) (State.complete_keepsOut ..)

theorem State.migEnd_keepsOut (s : State) (id : Nat) : s.KeepsOut (s.migEnd id) := by
  unfold State.migEnd
  split
  · exact .refl s
  split
  · exact .refl s
  · next g _ _ =>
    extract_lets src u
    exact State.KeepsOut.trans (t := (u.giveT0 g.frames).objFree id)
      (State.KeepsOut.of_only (s := u) (State.objFree_only (State.giveT0_only (.refl _ _) (by decide)) (by decide)))
      (State.complete_keepsOut ..)

theorem State.objStart_keepsOut (s : State) (j : ObjJob) : s.KeepsOut (s.objStart j) := by
  unfold State.objStart
  extract_lets runs
  have hruns : s.KeepsOut (runs s) :=
    .of_only (State.opEvent_only (OnlyM.lit_tiersObjRun (.refl _ s) (by decide)) (by decide))
  split
  · exact State.complete_keepsOut ..
  · exact hruns.trans (State.migEnd_keepsOut ..)
  · exact hruns

theorem State.objSettle_keepsOut (n : Nat) (s : State) : s.KeepsOut (s.objSettle n) := by
  induction n generalizing s with
  | zero => exact s.endReleases_keepsOut
  | succ n ih =>
    unfold State.objSettle
    extract_lets u
    have hend : s.KeepsOut u := s.endReleases_keepsOut
    split
    · exact hend
    · next j l _ =>
      split
      · exact hend
      · exact hend.trans ((State.objStart_keepsOut { u with tiers := { u.tiers with objWait := l } } j).trans (ih _))

theorem State.objSubmit_keepsOut (s : State) (o : Op) (k : ObjKind) : s.KeepsOut (s.objSubmit o k) :=
  State.KeepsOut.trans (.of_only (State.opEvent_only (OnlyM.lit_tiersObjWait (.refl _ s) (by decide)) (by decide)))
    (State.objSettle_keepsOut ..)

theorem State.settleStops_keepsOut (s : State) (id : Nat) : s.KeepsOut (s.settleStops id) := by
  unfold State.settleStops
  extract_lets recs src u
  have hstops : u.KeepsOut _ := .foldl
    (fun w r => w.complete_keepsOut (srcHub hubDma) r.op { st := .ok, result := r.count })
    (recs.filter (fun r => r.scope.isEmpty)) u
  exact hstops.trans (State.objSettle_keepsOut ..)

theorem State.dmaIssue_keepsOut (s : State) (o : Op) : s.KeepsOut (s.dmaIssue o) := by
  unfold State.dmaIssue
  split
  · exact (State.KeepsOut.of_only (State.dmaLeave_only (.refl _ s) (by decide))).trans
      ((State.complete_keepsOut ..).trans (State.settleStops_keepsOut ..))
  · exact .of_only (State.updDma_only (State.dmaHandles_only (.refl _ s) (by decide)) (by decide))

theorem State.giveChannel_keepsOut (s : State) (o : Op) (c : Nat) : s.KeepsOut (s.giveChannel o c) := by
  unfold State.giveChannel
  extract_lets u
  have hgiven : s.KeepsOut u := .of_only (State.waitEnd_only (State.updDma_only (.refl _ s) (by decide)) (by decide))
  split
  · exact hgiven.trans (u.dmaIssue_keepsOut o)
  · exact hgiven.trans (.of_only (State.setCore_only (.refl _ u) (by decide)))

theorem State.dmaStart_keepsOut (s : State) (o : Op) : s.KeepsOut (s.dmaStart o) := by
  unfold State.dmaStart
  extract_lets src u v
  have hbegun : s.KeepsOut v := .of_only (State.opEvent_only (OnlyM.lit_dmaOps (.refl _ s) (by decide)) (by decide))
  have hwaits : v.KeepsOut (v.waitBegin (srcHub hubDma) 9 o.identity) :=
    .of_only (State.waitBegin_only (.refl _ v) (by decide))
  split
  · split
    · exact hbegun.trans hwaits
    · exact hbegun.trans (State.giveChannel_keepsOut ..)
  · exact hbegun.trans hwaits

theorem State.dmaStopStart_keepsOut (s : State) (o : Op) : s.KeepsOut (s.dmaStopStart o) := by
  unfold State.dmaStopStart
  extract_lets scope fresh run u
  have hstopped : s.KeepsOut u := .foldl (fun w x => State.KeepsOut.trans
    (.of_only (State.count_only (State.dmaLeave_only (.refl _ w) (by decide)) (by decide)))
    ((State.complete_keepsOut ..).trans (State.settleStops_keepsOut ..))) fresh s
  split
  · exact hstopped.trans (State.complete_keepsOut ..)
  · exact hstopped

theorem State.pageMoveStart_keepsOut (s : State) (o : Op) : s.KeepsOut (s.pageMoveStart o) := by
  unfold State.pageMoveStart
  have hchosen :=
    State.KeepsOut.of_only (State.chooseFrame_only (a1 := fld o.d 12 10 0) (a2 := o.gal) (.refl _ s) (by decide)).fst
  split
  · next h => exact (h ▸ hchosen).trans (State.complete_keepsOut ..)
  · next h =>
    exact (h ▸ hchosen).trans (.of_only (State.opEvent_only (OnlyM.lit_curMoves (.refl _ _) (by decide)) (by decide)))

theorem State.migStart_keepsOut (s : State) (g : Mig) : s.KeepsOut (s.migStart g) :=
  State.KeepsOut.trans (.of_only (OnlyM.lit_tiersMigs (.refl _ s) (by decide))) (State.objSubmit_keepsOut ..)

/-! ### Streams, binds, collectives and images as they start -/

theorem State.admitStart_keepsOut (s : State) (o : Op) : s.KeepsOut (s.admitStart o) := by
  unfold State.admitStart
  extract_lets d k p r x u joined v
  have hkept : s.KeepsOut u := .of_only (State.setKvMap_only (State.setCtx_only
    (State.leaseKey_only (.refl _ s) (by decide)).fst (by decide)) (by decide))
  have hjoined : u.KeepsOut v := by
    unfold v
    split
    · exact .of_only (State.setCtx_only (State.joinGroup_only (.refl _ u) (by decide)) (by decide))
    · exact .refl u
  exact (hkept.trans hjoined).trans (State.complete_keepsOut ..)

theorem State.appendStart_keepsOut (s : State) (o : Op) : s.KeepsOut (s.appendStart o) :=
  State.KeepsOut.trans (.of_only (OnlyM.lit_docAppends (.refl _ s) (by decide))) (State.hostRead_keepsOut ..)

theorem State.cancelStart_keepsOut (s : State) (o : Op) : s.KeepsOut (s.cancelStart o) := by
  unfold State.cancelStart
  extract_lets k src u
  split
  · exact State.complete_keepsOut ..
  · exact .of_only (State.setCtx_only (OnlyM.lit_docCancels (.refl _ s) (by decide)) (by decide))

theorem State.bindStart_keepsOut (s : State) (o : Op) : s.KeepsOut (s.bindStart o) := by
  unfold State.bindStart
  extract_lets d c e k src h u
  have htaken : s.KeepsOut u := .of_only (State.setCore_only (.refl _ s) (by decide))
  split
  · exact htaken.trans ((State.KeepsOut.of_only (State.setCore_only (.refl _ u) (by decide))).trans (State.complete_keepsOut ..))
  · exact htaken

theorem State.carLoadStart_keepsOut (s : State) (o : Op) : s.KeepsOut (s.carLoadStart o) := by
  unfold State.carLoadStart
  extract_lets src u
  have hbegun : s.KeepsOut u := .of_only (State.opEvent_only (OnlyM.lit_fabCarLoads (.refl _ s) (by decide)) (by decide))
  split
  · split
    · exact hbegun.trans (State.hostRead_keepsOut ..)
    · exact hbegun
  · exact hbegun

theorem State.collEnd_keepsOut (s : State) (c : CollRec) (lost : Bool) : s.KeepsOut (s.collEnd c lost) := by
  unfold State.collEnd
  extract_lets x missing part idx src u r ownHole st bits result v w y
  have hformed : s.KeepsOut w := .of_only (State.count_only (State.count_only (State.count_only (State.formResult_only
    (OnlyM.lit_fabColls (.refl _ s) (by decide)) (by decide)).fst (by decide)) (by decide)) (by decide))
  have hraised : w.KeepsOut y := by
    unfold y
    split
    · exact .of_only (State.incident_only (.refl _ w) (by decide))
    · exact .refl w
  exact (hformed.trans hraised).trans (State.complete_keepsOut ..)

theorem State.collStart_keepsOut (s : State) (o : Op) : s.KeepsOut (s.collStart o) := by
  unfold State.collStart
  split
  · exact .refl s
  · extract_lets n holed c u src v
    have hbegun : s.KeepsOut v := .of_only (State.opEvent_only (OnlyM.lit_fabColls
      (State.countIf_only (.refl _ s) (by decide)) (by decide)) (by decide))
    split
    · exact hbegun.trans (State.collEnd_keepsOut ..)
    split
    · exact hbegun.trans (State.collEnd_keepsOut ..)
    · exact hbegun

theorem State.winOpenStart_keepsOut (s : State) (o : Op) : s.KeepsOut (s.winOpenStart o) := by
  unfold State.winOpenStart
  split
  · exact .refl s
  · extract_lets x e size y u v
    have hopened : s.KeepsOut u := .of_only (State.setWindow_only (.refl _ s) (by decide))
    have hheld : u.KeepsOut v := by
      unfold v
      split
      · exact .of_only (State.useHandle_only (.refl _ u) (by decide))
      split
      · exact .foldl (fun w n => .of_only (State.pinObj_only (.refl _ w) (by decide))) _ u
      · exact .refl u
    exact (hopened.trans hheld).trans (State.complete_keepsOut ..)

theorem State.progStart_keepsOut (rd : Option ImageRead) (s : State) (o : Op) : s.KeepsOut (s.progStart rd o) := by
  unfold State.progStart
  extract_lets k u
  split
  · have hunpinned : s.KeepsOut u := by
      unfold u
      split
      · exact .refl s
      · exact .of_only (State.pinObj_only (.refl _ s) (by decide))
    exact (hunpinned.trans (.of_only (OnlyM.lit_docProgs (.refl _ u) (by decide)))).trans (State.complete_keepsOut ..)
  split
  · exact State.complete_keepsOut ..
  split
  · exact State.KeepsOut.trans (.of_only (OnlyM.lit_docProgs (State.pinObj_only (.refl _ s) (by decide)) (by decide)))
      (State.complete_keepsOut ..)
  · exact State.complete_keepsOut ..

/-! ### Packets -/

theorem State.frameSend_keepsOut (s : State) (p : Nat) (h : Line16) (payload : Bytes) :
    s.KeepsOut (s.frameSend p h payload) :=
  State.KeepsOut.trans (.of_only (State.notePacket_only (.refl _ s) (by decide))) (State.emit_keepsOut ..)

theorem State.portEmit_keepsOut (s : State) (p : Nat) (h : Line16) (payload : Bytes) :
    s.KeepsOut (s.portEmit p h payload) :=
  State.KeepsOut.trans (.of_only (State.notePacket_only (State.setPort_only (.refl _ s) (by decide)) (by decide)))
    (State.emit_keepsOut ..)

theorem State.portSend_keepsOut (s : State) (p : Nat) (h : Line16) (payload : Bytes) :
    s.KeepsOut (s.portSend p h payload) := by
  unfold State.portSend
  split
  · exact State.frameSend_keepsOut ..
  · extract_lets x
    split
    · exact State.portEmit_keepsOut ..
    · exact .of_only (State.countIf_only (State.setPort_only (.refl _ s) (by decide)) (by decide))

theorem State.sendControl_keepsOut (s : State) (p type dst : Nat) (line : Line32) :
    s.KeepsOut (s.sendControl p type dst line) :=
  State.portSend_keepsOut ..

theorem State.sendData_keepsOut (s : State) (dst proto flow : Nat) (payload : Bytes) :
    s.KeepsOut (s.sendData dst proto flow payload).1 := by
  unfold State.sendData
  split
  · exact .refl s
  split
  · exact .refl s
  · exact State.KeepsOut.trans (.of_only (State.rerouted_only (.refl _ s) (by decide))) (State.portSend_keepsOut ..)

theorem State.forwardNotice_keepsOut (s : State) (n : Notice) (came : Option Neighbour) :
    s.KeepsOut (s.forwardNotice n came) :=
  State.KeepsOut.trans (.foldl (fun _ _ => State.sendControl_keepsOut ..) _ s)
    (.foldl (fun _ _ => State.sendControl_keepsOut ..) _ _)

theorem State.raiseNotice_keepsOut (s : State) (kind effect port planes gen : Nat) :
    s.KeepsOut (s.raiseNotice kind effect port planes gen) :=
  State.KeepsOut.trans (.of_only (State.actNotice_only (State.rememberPair_only (OnlyM.lit_fabSerial (.refl _ s) (by decide))
    (by decide)) (by decide))) (State.forwardNotice_keepsOut ..)

theorem State.quiesceStart_keepsOut (s : State) (o : Op) : s.KeepsOut (s.quiesceStart o) :=
  (s.raiseNotice_keepsOut noteQuiesce s.nextQuiesce 0 0 (fld o.d 8 15 0)).trans
    (.of_only (OnlyM.lit_fabQuiesces (.refl _ _) (by decide)))

theorem State.sendRequests_keepsOut (n id : Nat) (s : State) : s.KeepsOut (s.sendRequests id n) := by
  induction n generalizing s with
  | zero => exact .refl s
  | succ n ih =>
    unfold State.sendRequests
    split
    · exact .refl s
    · extract_lets len r beat
      split
      · exact .refl s
      have hsent : s.KeepsOut r.1 := State.sendData_keepsOut ..
      split
      · exact (hsent.trans (.of_only (State.updDma_only (.refl _ r.1) (by decide)))).trans (ih _)
      · exact hsent.trans (.of_only (State.updDma_only (.refl _ r.1) (by decide)))

theorem State.winMoveStart_keepsOut (s : State) (o : Op) : s.KeepsOut (s.winMoveStart o) :=
  ((s.dmaStart_keepsOut o).trans (.of_only (OnlyM.lit_dmaNextOpid (State.updDma_only (.refl _ _) (by decide)) (by decide)))).trans
    (State.sendRequests_keepsOut ..)

/-! ### An image read from a reference copy -/

theorem State.peerRead_keepsOut (s : State) (x : Obj) (ofs n : Nat) : s.KeepsOut (s.peerRead x ofs n) := by
  unfold State.peerRead
  split
  · exact .refl s
  · exact State.KeepsOut.trans (.of_only (OnlyM.lit_dmaNextOpid (State.draw_only (.refl _ s) (by decide)) (by decide)))
      (State.sendData_keepsOut ..)

theorem State.takeEp_keepsOut (s : State) (gal : Nat) (e : Ep) (chan pos n reader : Nat) (data : Bytes) :
    s.KeepsOut (s.takeEp gal e chan pos n reader data).1 := by
  have hchan (c a : Nat) : s.KeepsOut (s.takeChan gal c a n reader).1 :=
    .of_only (State.takeChan_only (.refl _ s) (by decide)).fst
  have hhall (a : Nat) : s.KeepsOut (s.takeHall a n).1 := .of_only (State.takeHall_only (.refl _ s) (by decide)).fst
  unfold State.takeEp
  extract_lets a
  split
  · exact State.hostRead_keepsOut ..
  split
  · exact hchan ..
  split
  · exact .of_only (State.takeScratch_only (.refl _ s) (by decide)).fst
  split
  · exact hhall a
  split
  · exact .refl s
  extract_lets u
  split
  · exact hhall _
  · exact hchan ..
  · have hcounted : s.KeepsOut u := .of_only (State.countIf_only (.refl _ s) (by decide))
    refine hcounted.trans ?_
    dsimp only
    split
    · exact State.peerRead_keepsOut ..
    · exact .refl u
    · exact State.hostRead_keepsOut ..

theorem State.takeLong_keepsOut (gal : Nat) (e : Ep) (chan reader fuel : Nat) (s : State) (pos n : Nat) (data : Bytes) :
    s.KeepsOut (s.takeLong gal e chan reader fuel pos n data).1 := by
  induction fuel generalizing s pos n data with
  | zero => exact .refl s
  | succ fuel ih =>
    unfold State.takeLong
    extract_lets step r rest t
    have htaken : s.KeepsOut r.1 := State.takeEp_keepsOut ..
    split
    · exact htaken
    · exact htaken.trans (ih ..)

theorem State.readImage_keepsOut (s : State) (addr : Nat) (outside : Bytes) :
    s.KeepsOut (s.readImage addr outside).1 := by
  unfold State.readImage
  split
  · exact .refl s
  · extract_lets room e head n r
    split
    · exact .refl s
    · exact State.takeLong_keepsOut ..

/-! ### Descriptors accepted -/

theorem State.acceptFence_keepsOut (s : State) (o : Origin) (d : Line64) : s.KeepsOut (s.acceptFence o d) := by
  refine State.accept_keepsOut (fun u op => ?_) s _ o d _ _
  have hwaits : u.KeepsOut { u with hif := { u.hif with fences := u.hif.fences ++ [op] } } := .refl u
  dsimp only
  split
  · exact hwaits.trans (State.settleFence_keepsOut ..)
  · exact hwaits

theorem State.acceptProgLoad_keepsOut (s : State) (o : Origin) (d : Line64) (image : Bytes) :
    s.KeepsOut (s.acceptProgLoad o d image) := by
  unfold State.acceptProgLoad
  extract_lets r
  have hread : s.KeepsOut r.1 := by
    unfold r
    split
    · exact State.readImage_keepsOut ..
    · exact .refl s
  exact hread.trans (State.accept_keepsOut (State.progStart_keepsOut r.2) r.1 _ o d _ _)

theorem State.acceptObjCreate_keepsOut (s : State) (o : Origin) (d : Line64) : s.KeepsOut (s.acceptObjCreate o d) := by
  refine State.accept_keepsOut (fun u op => ?_) s _ o d _ _
  extract_lets n panels v t w
  have hnew : u.KeepsOut v := .of_only (State.putObj_only (.refl _ u) (by decide))
  have htaken : v.KeepsOut t.1 := by
    unfold t
    split
    · exact .of_only (State.takeT0_only (.refl _ v) (by decide)).fst
    · exact .refl v
  have hplaced : t.1.KeepsOut w := .foldl (fun x i => .of_only (State.homePanel_only (.refl _ x) (by decide))) _ t.1
  have hmapped := State.KeepsOut.of_only (State.addMapping_only (a1 := op.gal) (a2 := fld op.d 8 47 0) (a3 := panels) (a4 := n)
    (.refl _ w) (by decide))
  exact (((hnew.trans htaken).trans hplaced).trans hmapped).trans (State.objSubmit_keepsOut ..)

theorem State.acceptAccession_keepsOut (s : State) (o : Origin) (d : Line64) : s.KeepsOut (s.acceptAccession o d) := by
  refine State.accept_keepsOut (fun u op => ?_) s _ o d _ _
  extract_lets n panels v
  have hnew : u.KeepsOut v := .of_only (State.addMapping_only (State.putObj_only (.refl _ u) (by decide)) (by decide))
  split
  · exact hnew.trans (State.migStart_keepsOut ..)
  · exact hnew.trans (State.objSubmit_keepsOut ..)

theorem State.acceptObjMap_keepsOut (s : State) (o : Origin) (d : Line64) : s.KeepsOut (s.acceptObjMap o d) :=
  State.accept_keepsOut (fun u _ => State.KeepsOut.trans (.of_only (State.addMapping_only (.refl _ u) (by decide)))
    (State.objSubmit_keepsOut ..)) s _ o d _ _

theorem State.acceptObjRelease_keepsOut (s : State) (o : Origin) (d : Line64) : s.KeepsOut (s.acceptObjRelease o d) :=
  State.accept_keepsOut (fun u _ => State.KeepsOut.trans (.of_only (OnlyM.lit_tiersMaps (.refl _ u) (by decide)))
    (State.objSubmit_keepsOut ..)) s _ o d _ _

theorem State.acceptMigrate_keepsOut (s : State) (o : Origin) (d : Line64) : s.KeepsOut (s.acceptMigrate o d) := by
  refine State.accept_keepsOut (fun u op => ?_) s _ o d _ _
  dsimp only
  split
  · exact .refl u
  · refine State.KeepsOut.trans ?_ (State.migStart_keepsOut ..)
    split
    · exact .of_only (State.takeT0_only (.refl _ u) (by decide)).fst
    · exact .refl u

theorem State.acceptObjPin_keepsOut (s : State) (o : Origin) (d : Line64) : s.KeepsOut (s.acceptObjPin o d) := by
  refine State.accept_keepsOut (fun u op => ?_) s _ o d _ _
  refine State.KeepsOut.trans ?_ (State.objSubmit_keepsOut ..)
  split
  · exact .refl u
  · exact .of_only (State.pinObj_only (.refl _ u) (by decide))

theorem State.acceptLine_keepsOut (s : State) (o : Origin) (f : Fetched) : ∀ t ∈ s.acceptLine o f, s.KeepsOut t := by
  unfold State.acceptLine
  extract_lets d
  split
  rotate_right
  · exact fun _ h => nomatch h
  all_goals rintro _ ⟨⟩
  · exact State.accept_keepsOut (fun _ _ => State.complete_keepsOut ..) s _ o d _ _
  · exact s.acceptFence_keepsOut o d
  · exact State.accept_keepsOut State.dmaStart_keepsOut s _ o d _ _
  · exact State.accept_keepsOut State.dmaStart_keepsOut s _ o d _ _
  · exact State.accept_keepsOut State.dmaStart_keepsOut s _ o d _ _
  · exact State.accept_keepsOut State.dmaStart_keepsOut s _ o d _ _
  · exact State.accept_keepsOut State.dmaStart_keepsOut s _ o d _ _
  · exact State.accept_keepsOut State.dmaStart_keepsOut s _ o d _ _
  · exact State.accept_keepsOut State.dmaStart_keepsOut s _ o d _ _
  · exact State.accept_keepsOut State.dmaStopStart_keepsOut s _ o d _ _
  · exact State.accept_keepsOut State.admitStart_keepsOut s _ o d _ _
  · exact State.accept_keepsOut State.appendStart_keepsOut s _ o d _ _
  · exact State.accept_keepsOut (fun u _ => .of_only (State.policyStart_only (.refl _ u) (by decide))) s _ o d _ _
  · exact State.accept_keepsOut (fun u _ => .of_only (State.forkAccepted_only (.refl _ u) (by decide))) s _ o d _ _
  · exact State.accept_keepsOut State.cancelStart_keepsOut s _ o d _ _
  · exact State.accept_keepsOut (fun u _ => .of_only (State.releaseStart_only (.refl _ u) (by decide))) s _ o d _ _
  · exact s.acceptProgLoad_keepsOut o d f.aux
  · exact State.accept_keepsOut State.bindStart_keepsOut s _ o d _ _
  · exact State.accept_keepsOut (fun u _ => .of_only (State.unbindStart_only (.refl _ u) (by decide))) s _ o d _ _
  · exact State.accept_keepsOut (fun u _ => .of_only (State.tileStart_only (.refl _ u) (by decide))) s _ o d _ _
  · exact State.accept_keepsOut (fun u _ => .of_only (State.tileStart_only (.refl _ u) (by decide))) s _ o d _ _
  · exact State.accept_keepsOut (fun u _ => .of_only (State.attnStart_only (.refl _ u) (by decide))) s _ o d _ _
  · exact State.accept_keepsOut State.pageMoveStart_keepsOut s _ o d _ _
  · exact s.acceptObjCreate_keepsOut o d
  · exact s.acceptAccession_keepsOut o d
  · exact s.acceptObjMap_keepsOut o d
  · exact s.acceptObjRelease_keepsOut o d
  · exact s.acceptMigrate_keepsOut o d
  · exact s.acceptObjPin_keepsOut o d
  · exact State.accept_keepsOut (fun _ _ => State.objSubmit_keepsOut ..) s _ o d _ _
  · exact State.accept_keepsOut State.winOpenStart_keepsOut s _ o d _ _
  · exact State.accept_keepsOut (fun u _ => .of_only (State.closeWindow_only (.refl _ u) (by decide))) s _ o d _ _
  · exact State.accept_keepsOut State.winMoveStart_keepsOut s _ o d _ _
  · exact State.accept_keepsOut State.winMoveStart_keepsOut s _ o d _ _
  · exact State.accept_keepsOut State.collStart_keepsOut s _ o d _ _
  · exact State.accept_keepsOut State.quiesceStart_keepsOut s _ o d _ _
  · exact State.accept_keepsOut State.carLoadStart_keepsOut s _ o d _ _
  · exact State.accept_keepsOut (fun u _ => .of_only (State.hubStart_only (.refl _ u) (by decide))) s _ o d _ _

theorem State.acceptEntry_keepsOut (s : State) (e : PollEntry) : s.KeepsOut (s.acceptEntry e) := by
  have hrefuse (u : State) (o : Origin) (d : Line64) (c off : Nat) : u.KeepsOut (u.refuseLine o d c off) :=
    State.KeepsOut.trans (.of_only (State.take_only (.refl _ u) (by decide)).fst) (State.complete_keepsOut ..)
  unfold State.acceptEntry
  extract_lets o d
  split
  · exact hrefuse s ..
  split
  · exact State.KeepsOut.trans (.of_only (State.count_only (.refl _ s) (by decide))) (hrefuse _ ..)
  split
  · next t ht => exact s.acceptLine_keepsOut o e.entry t ht
  · exact hrefuse s ..

theorem State.acceptFetched_keepsOut (s : State) : s.KeepsOut s.acceptFetched := by
  unfold State.acceptFetched
  split
  · exact .refl s
  · exact State.KeepsOut.trans (.of_only (State.setPoll_only (.refl _ s) (by decide))) (.foldl State.acceptEntry_keepsOut _ _)

/-! ### Work abandoned and HOLD entered -/

theorem State.abandon_keepsOut (s : State) : s.KeepsOut s.abandon :=
  s.acceptFetched_keepsOut.trans (State.KeepsOut.of_only (t := s.acceptFetched.abandonSteps.abandonMoves)
    (State.abandonMoves_only (State.abandonSteps_only (.refl _ _) (by decide)) (by decide)))

theorem State.reroute_keepsOut (s : State) (p : Nat) (h : Line16) (payload : Bytes) :
    s.KeepsOut (s.reroute p h payload) := by
  have hlost (ctr : Ctr) (i n : Nat) : s.KeepsOut (s.rerouted ctr i n) :=
    .of_only (State.rerouted_only (.refl _ s) (by decide))
  unfold State.reroute
  split
  · exact .refl s
  split
  · split
    · exact hlost ..
    · exact (hlost ..).trans (State.portSend_keepsOut ..)
  · exact hlost ..

theorem State.leaveUp_keepsOut (s : State) (p : Nat) (dest : PortSt) : s.KeepsOut (s.leaveUp p dest) := by
  unfold State.leaveUp
  extract_lets x u v m back
  have hleft : s.KeepsOut u := .of_only (State.rerouted_only (State.setPortSt_only (State.setPort_only (.refl _ s) (by decide))
    (by decide)) (by decide))
  have hsent : u.KeepsOut v := .foldl (fun w q => w.reroute_keepsOut p q.1 q.2) x.queue u
  refine (hleft.trans hsent).trans ?_
  split
  · exact State.raiseNotice_keepsOut ..
  · exact State.KeepsOut.trans (.of_only (OnlyM.lit_fabAnnounced (.refl _ v) (by decide))) (State.raiseNotice_keepsOut ..)

theorem State.portTo_keepsOut (s : State) (p : Nat) (dest : PortSt) : s.KeepsOut (s.portTo p dest) := by
  unfold State.portTo
  split
  · exact State.leaveUp_keepsOut ..
  · exact .of_only (State.setPortSt_only (State.setPort_only (.refl _ s) (by decide)) (by decide))

theorem State.takeHold_keepsOut (s : State) : s.KeepsOut s.takeHold := by
  unfold State.takeHold
  split
  · exact .refl s
  · exact s.acceptFetched_keepsOut.trans (.of_only (State.dropPoll_only (OnlyM.lit_ctlHoldReq_ctlHolding (.refl _ _)
      (by decide)) (by decide)))

theorem State.stopBeat_keepsOut (s : State) : s.KeepsOut s.stopBeat := by
  unfold State.stopBeat
  split
  · exact .refl s
  · exact State.KeepsOut.trans (.of_only (State.freezeForDump_only (State.latchSnaps_only (State.setBeat_only
      (State.setBeatSt_only (.refl _ s) (by decide)) (by decide)) (by decide)) (by decide))) (State.takeHold_keepsOut _)

theorem State.enterHold_keepsOut (s : State) (cause : Nat) : s.KeepsOut (s.enterHold cause) := by
  have hports : s.KeepsOut s.portsStop := .foldl (fun u p => u.portTo_keepsOut p .disabled) _ s
  exact (hports.trans (State.stopBeat_keepsOut _)).trans (.of_only (OnlyM.lit_ctlSt_ctlHcause_ctlHoldReq_ctlHolding
    (State.dropPoll_only (State.freezeRings_only (.refl _ _) (by decide)) (by decide)) (by decide)))

theorem State.thermalStop_keepsOut (s : State) : s.KeepsOut s.thermalStop := by
  unfold State.thermalStop
  split
  · exact s.abandon_keepsOut.trans (State.enterHold_keepsOut ..)
  · exact .refl s

/-! ### What the stop leaves of a plinth -/

/-- The temperatures a plinth stands at, and the hottest it has seen. -/
def Plinth.heat (y : Plinth) : Nat × Nat × Nat × Nat := (y.junction, y.dram, y.jMax, y.dMax)

theorem State.abandon_heat (s : State) (p : Nat) : (s.abandon.plinth p).heat = (s.plinth p).heat := by
  let u := s.acceptFetched.abandonSteps.abandonMoves
  have hwork : OnlyM (leavesBut .plinths) s u := State.abandonMoves_only (State.abandonSteps_only
    (State.acceptFetched_only (.refl _ s) (by decide)) (by decide)) (by decide)
  have hmap : s.abandon.plinth p = { u.plinth p with broadcasts := [] } :=
    Tbl.look_map (f := fun y : Plinth => { y with broadcasts := [] }) u.plinths p rfl
  rw [hmap, State.plinth_congr (hwork.plinths.resolve_left (by decide))]
  rfl

theorem State.thermalStop_heat (s : State) (p : Nat) : (s.thermalStop.plinth p).heat = (s.plinth p).heat := by
  unfold State.thermalStop
  split
  · have hhold : OnlyM (leavesBut .plinths) s.abandon (s.abandon.enterHold 4) :=
      State.enterHold_only (.refl _ _) (by decide)
    rw [State.plinth_congr (hhold.plinths.resolve_left (by decide)), s.abandon_heat]
  · rfl

theorem State.thermalStop_hcause (s : State) : s.thermalStop.ctl.hcause = 4 := by
  unfold State.thermalStop
  split <;> rfl

theorem State.thermalStop_st {s : State} (h : s.running = true) : s.thermalStop.ctl.st = .hold := by
  rw [State.thermalStop, if_pos h]
  rfl

theorem State.thermalStop_thermTrip (s : State) : s.thermalStop.ctl.thermTrip = s.ctl.thermTrip :=
  (State.thermalStop_only (.refl _ s) (Nat.or_self _)).ctl.thermTrip.resolve_left (by decide)

/-! ### One sample -/

/-- A plinth that has taken a sample (R313, R315). -/
def Plinth.sampled (y : Plinth) (x : ThermSample) : Plinth :=
  { y with
    junction := x.junction, dram := x.dram, jMax := max y.jMax x.junction, dMax := max y.dMax x.dram, atLimit := atStop x }

theorem State.takeSample_plinths (s : State) (p : Nat) (x : ThermSample) :
    (s.takeSample p x).plinths = (s.setPlinth p ((s.plinth p).sampled x)).plinths := by
  unfold State.takeSample
  extract_lets y u
  split
  · have hraised (v : State) (cls event : Nat) (st : Status) (src d e : Nat) (m : Out) :
        (State.emit (v.incident cls event st src d e) m).plinths = v.plinths :=
      (State.emit_only (State.incident_only (.refl (leavesBut .plinths) v) (by decide)) (by decide)).plinths.resolve_left
        (by decide)
    exact hraised ..
  · rfl

theorem State.takeSample_plinth (s : State) (p : Nat) (x : ThermSample) :
    (s.takeSample p x).plinth p = (s.plinth p).sampled x := by
  rw [State.plinth_congr (s.takeSample_plinths p x), State.setPlinth_plinth]

theorem State.takeSample_plinth_ne (s : State) {p q : Nat} (x : ThermSample) (h : q ≠ p) :
    (s.takeSample p x).plinth q = s.plinth q := by
  rw [State.plinth_congr (s.takeSample_plinths p x), State.setPlinth_plinth_ne _ h]

theorem State.takeSample_keepsOut (s : State) (p : Nat) (x : ThermSample) : s.KeepsOut (s.takeSample p x) := by
  unfold State.takeSample
  extract_lets y u
  have htaken : s.KeepsOut u := .refl s
  split
  · refine htaken.trans (State.KeepsOut.trans ?_ (State.emit_keepsOut ..))
    exact .of_only (State.incident_only (OnlyM.lit_secEvents (.refl _ u) (by decide)) (by decide))
  · exact htaken

/-- A limit of R315 that is reached is announced. -/
theorem State.takeSample_announces {s : State} {p : Nat} {x : ThermSample} (hx : atStop x = true)
    (hp : (s.plinth p).atLimit = false) (hs : s.alive = true) : .pldmThermalHold p ∈ (s.takeSample p x).out := by
  simp only [State.takeSample, hx, hp, hs, Bool.not_false, Bool.and_self, if_true, State.emit]
  exact List.mem_append_right _ (List.mem_singleton_self _)

/-- A sample below the limits of R315 writes its plinth alone. -/
theorem State.takeSample_quiet (s : State) (p : Nat) {x : ThermSample} (hx : atStop x = false) :
    OnlyM (mask [.plinths]) s (s.takeSample p x) := by
  simp only [State.takeSample, hx, Bool.false_and, Bool.false_eq_true, if_false]
  exact State.setPlinth_only (.refl _ s) (by decide)

/-! ### The samples of all plinths -/

/-- The samples that are taken, each with its plinth's number. -/
def plinthSamples (l : List ThermSample) : List (ThermSample × Nat) := (l.take 8).zipIdx

def State.takeSamples (s : State) (xs : List (ThermSample × Nat)) : State := xs.foldl (fun s x => s.takeSample x.2 x.1) s

theorem mem_plinthSamples_iff {l : List ThermSample} {x : ThermSample} {p : Nat} :
    (x, p) ∈ plinthSamples l ↔ p < 8 ∧ l[p]? = some x := by
  rw [plinthSamples, List.mem_zipIdx_iff_getElem?, List.getElem?_take]
  split <;> simp_all

theorem plinthSamples_nodup (l : List ThermSample) : ((plinthSamples l).map Prod.snd).Nodup := by
  rw [plinthSamples, List.zipIdx_map_snd]
  exact List.nodup_range'

theorem State.takeSamples_only (s : State) (xs : List (ThermSample × Nat)) :
    OnlyM (mask [.plinths, .rasSources, .rasQueue, .rasOvf, .catRings, .catTrace, .secEvents, .free, .out]) s (s.takeSamples xs) :=
  OnlyM.foldl (.refl _ s) fun u _ => State.takeSample_only (.refl _ u) (Nat.or_self _)

theorem State.takeSamples_ctl (s : State) (xs : List (ThermSample × Nat)) : (s.takeSamples xs).ctl = s.ctl :=
  OnlyCtl.eq (s.takeSamples_only xs).ctl (by decide)

theorem State.takeSamples_alive (s : State) (xs : List (ThermSample × Nat)) : (s.takeSamples xs).alive = s.alive := by
  rw [State.alive, State.alive, s.takeSamples_ctl, (s.takeSamples_only xs).sec.st.resolve_left (by decide)]

/-- Samples of other plinths leave a plinth as it is. -/
theorem State.takeSamples_plinth_of_ne (s : State) {xs : List (ThermSample × Nat)} {p : Nat} (h : p ∉ xs.map Prod.snd) :
    (s.takeSamples xs).plinth p = s.plinth p :=
  foldl_get_of_ne (get := State.plinth) (key := Prod.snd) (fun u x _ hk => u.takeSample_plinth_ne x.1 hk) xs s
    fun _ hx hp => h (hp ▸ List.mem_map_of_mem hx)

/-- A plinth is as it was until its own sample is taken, keeps what that leaves, and what that announces stays sent. -/
theorem State.takeSamples_split {s : State} {xs : List (ThermSample × Nat)} {x : ThermSample} {p : Nat}
    (hxs : (xs.map Prod.snd).Nodup) (h : (x, p) ∈ xs) :
    ∃ u : State, u.plinth p = s.plinth p ∧ u.alive = s.alive ∧ (s.takeSamples xs).plinth p = (u.takeSample p x).plinth p ∧
      (u.takeSample p x).KeepsOut (s.takeSamples xs) := by
  obtain ⟨as, bs, rfl⟩ := List.append_of_mem h
  rw [List.map_append, List.map_cons, List.nodup_middle, List.nodup_cons, List.mem_append, not_or] at hxs
  obtain ⟨⟨hbefore, hafter⟩, -⟩ := hxs
  have hsplit : s.takeSamples (as ++ (x, p) :: bs) = ((s.takeSamples as).takeSample p x).takeSamples bs := by
    rw [State.takeSamples, List.foldl_append, List.foldl_cons]
    rfl
  rw [hsplit]
  exact ⟨s.takeSamples as, s.takeSamples_plinth_of_ne hbefore, s.takeSamples_alive as, State.takeSamples_plinth_of_ne _ hafter,
    .foldl (fun u y => u.takeSample_keepsOut y.2 y.1) bs _⟩

/-- Samples below the limits of R315 write plinths alone. -/
theorem State.takeSamples_quiet (s : State) {xs : List (ThermSample × Nat)} (h : ∀ x ∈ xs, atStop x.1 = false) :
    OnlyM (mask [.plinths]) s (s.takeSamples xs) :=
  List.foldlRecOn (motive := OnlyM (mask [.plinths]) s) xs _ (.refl _ s)
    fun u hu x hx => hu.step (u.takeSample_quiet x.2 (h x hx)) (Nat.or_self _)

/-! ### What the samples bring about -/

/-- Whether a sample rises to a limit of R315. -/
def State.reachesStop (s : State) (xs : List (ThermSample × Nat)) : Bool :=
  s.alive && xs.any (fun x => atStop x.1 && !(s.plinth x.2).atLimit)

/-- The thermal trip, where a sample stands at a limit of R522. -/
def State.tripAt (s : State) (xs : List (ThermSample × Nat)) : State :=
  if s.ctl.power != .held && xs.any (fun x => atTrip x.1) then { s with ctl := { s.ctl with thermTrip := true } } else s

def State.sampled (s : State) (xs : List (ThermSample × Nat)) : State :=
  if s.reachesStop xs then ((s.takeSamples xs).tripAt xs).thermalStop else (s.takeSamples xs).tripAt xs

theorem exec_thermalSample (l : List ThermSample) (s : State) :
    exec (.thermalSample l) s = .next (s.sampled (plinthSamples l)) := rfl

theorem State.tripAt_only (s : State) (xs : List (ThermSample × Nat)) : OnlyM (mask [.ctlThermTrip]) s (s.tripAt xs) := by
  unfold State.tripAt
  split
  · exact OnlyM.lit_ctlThermTrip (.refl _ s) (by decide)
  · exact .refl _ s

theorem State.tripAt_running (s : State) (xs : List (ThermSample × Nat)) : (s.tripAt xs).running = s.running := by
  unfold State.tripAt
  split <;> rfl

theorem State.sampled_heat (s : State) (xs : List (ThermSample × Nat)) (p : Nat) :
    ((s.sampled xs).plinth p).heat = ((s.takeSamples xs).plinth p).heat := by
  have htrip : ((s.takeSamples xs).tripAt xs).plinth p = (s.takeSamples xs).plinth p :=
    State.plinth_congr ((State.tripAt_only _ xs).plinths.resolve_left (by decide)) p
  unfold State.sampled
  split
  · rw [State.thermalStop_heat, htrip]
  · rw [htrip]

theorem State.sampled_keepsOut (s : State) (xs : List (ThermSample × Nat)) :
    (s.takeSamples xs).KeepsOut (s.sampled xs) := by
  have htrip : (s.takeSamples xs).KeepsOut ((s.takeSamples xs).tripAt xs) :=
    .of_only ((OnlyM.refl _ _).step (State.tripAt_only _ xs) (by decide))
  unfold State.sampled
  split
  · exact htrip.trans (State.thermalStop_keepsOut _)
  · exact htrip

theorem State.sampled_thermTrip (s : State) (xs : List (ThermSample × Nat)) :
    (s.sampled xs).ctl.thermTrip = ((s.takeSamples xs).tripAt xs).ctl.thermTrip := by
  unfold State.sampled
  split
  · exact State.thermalStop_thermTrip _
  · rfl

/-- A sample at a limit of R522 sets the trip. -/
theorem State.sampled_trips {s : State} {xs : List (ThermSample × Nat)} {x : ThermSample × Nat} (hs : s.alive = true)
    (hx : x ∈ xs) (ht : atTrip x.1 = true) : (s.sampled xs).ctl.thermTrip = true := by
  have hpower : s.ctl.power = .on := by simp_all [State.alive]
  have hany : xs.any (fun x => atTrip x.1) = true := List.any_eq_true.mpr ⟨x, hx, ht⟩
  rw [s.sampled_thermTrip, State.tripAt, s.takeSamples_ctl, hpower, hany]
  rfl

/-- A sample that rises to a limit of R315 stops the device. -/
theorem State.sampled_stops {s : State} {xs : List (ThermSample × Nat)} {x : ThermSample × Nat} (hs : s.alive = true)
    (hx : x ∈ xs) (hstop : atStop x.1 = true) (hp : (s.plinth x.2).atLimit = false) :
    (s.sampled xs).ctl.hcause = 4 ∧ (s.running = true → (s.sampled xs).ctl.st = .hold) := by
  have hreach : s.reachesStop xs = true := by
    rw [State.reachesStop, hs, Bool.true_and, List.any_eq_true]
    exact ⟨x, hx, by simp [hstop, hp]⟩
  rw [State.sampled, if_pos hreach]
  refine ⟨State.thermalStop_hcause _, fun hrun => State.thermalStop_st ?_⟩
  rw [State.tripAt_running, State.running, s.takeSamples_alive, s.takeSamples_ctl]
  exact hrun

/-- Samples below every limit write plinths alone. -/
theorem State.sampled_quiet (s : State) {xs : List (ThermSample × Nat)} (hstop : ∀ x ∈ xs, atStop x.1 = false)
    (htrip : ∀ x ∈ xs, atTrip x.1 = false) : OnlyM (mask [.plinths]) s (s.sampled xs) := by
  have hreach : s.reachesStop xs = false := by
    rw [State.reachesStop, List.any_eq_false.mpr (fun x hx => by simp [hstop x hx]), Bool.and_false]
  have hnone : xs.any (fun x => atTrip x.1) = false := List.any_eq_false.mpr (fun x hx => by simp [htrip x hx])
  simp only [State.sampled, hreach, State.tripAt, hnone, Bool.and_false, Bool.false_eq_true, if_false]
  exact s.takeSamples_quiet hstop

theorem atStop_iff {x : ThermSample} : atStop x = true ↔ 420 ≤ x.junction ∨ 400 ≤ x.dram := by
  simp [atStop]

theorem atTrip_iff {x : ThermSample} : atTrip x = true ↔ 440 ≤ x.junction ∨ 420 ≤ x.dram := by
  simp [atTrip]

end Sys2Proof.Machine

open Sys2Proof Sys2Proof.Machine

/-- Settles O54: a plinth's own sample decides what stands of it, and neither the samples of the others nor the stop
takes back what it announced. -/
theorem samplesTaken : Obligations.SamplesTaken := by
  unfold Obligations.SamplesTaken
  intro l s hs
  refine ⟨_, exec_thermalSample l s, fun p x hp hx => ?_, fun p x hp hx hlimit hbelow => ?_, fun p x hp hx hlimit => ?_,
    fun hcool => ?_⟩
  · obtain ⟨u, hu, -, htaken, -⟩ :=
      State.takeSamples_split (s := s) (plinthSamples_nodup l) (mem_plinthSamples_iff.mpr ⟨hp, hx⟩)
    have hheat := s.sampled_heat (plinthSamples l) p
    rw [htaken, State.takeSample_plinth, hu] at hheat
    simpa only [Plinth.heat, Plinth.sampled, Prod.mk.injEq] using hheat
  · have hmem := mem_plinthSamples_iff.mpr ⟨hp, hx⟩
    obtain ⟨u, hu, halive, -, hkept⟩ := State.takeSamples_split (s := s) (plinthSamples_nodup l) hmem
    have hsent := State.takeSample_announces (atStop_iff.mpr hlimit) (hu ▸ hbelow) (halive.trans hs)
    exact ⟨(hkept.trans (s.sampled_keepsOut _)).subset hsent, State.sampled_stops hs hmem (atStop_iff.mpr hlimit) hbelow⟩
  · exact State.sampled_trips hs (mem_plinthSamples_iff.mpr ⟨hp, hx⟩) (atTrip_iff.mpr hlimit)
  · have hcool' (x : ThermSample × Nat) (h : x ∈ plinthSamples l) : x.1.junction < 420 ∧ x.1.dram < 400 :=
      hcool _ (List.mem_of_getElem? (mem_plinthSamples_iff.mp h).2)
    have hquiet := s.sampled_quiet
      (fun x h => Bool.eq_false_iff.mpr fun k => by have := hcool' x h; have := atStop_iff.mp k; omega)
      (fun x h => Bool.eq_false_iff.mpr fun k => by have := hcool' x h; have := atTrip_iff.mp k; omega)
    exact ⟨OnlyCtl.eq hquiet.ctl (by decide), hquiet.mem.resolve_left (by decide), hquiet.out.resolve_left (by decide)⟩
end

section
namespace Sys2Proof.Machine

/-! ### The frame of every command -/

/-- An outcome is a next state that differs from the first in nothing but what the mask names. -/
def GoesOn (m : Nat) (s : State) (x : Host.Outcome State Fault Refusal) : Prop := ∃ t, x = .next t ∧ OnlyM m s t

theorem GoesOn.next {m : Nat} {s t : State} (h : OnlyM m s t) : GoesOn m s (.next t) := ⟨t, rfl, h⟩

/-- A command goes on from every state, and of the pieces of the state it changes at most those of its table. -/
def Frames (c : Instr) : Prop := ∀ s : State, GoesOn (mask (writes c)) s (exec c s)

@[simp] theorem frames_fencePop (func : GalNo) (word : Word) : Frames (.fencePop func word) := by
  intro s
  delta exec writes execFencePop
  dsimp only
  exact .next (.ite (State.fenceUnit_only (.refl _ s) (by decide)) (.refl _ s))

@[simp] theorem frames_fenceClear (func : GalNo) (word : Word) : Frames (.fenceClear func word) := by
  intro s
  delta exec writes execFenceClear
  dsimp only
  exact .next (.ite (State.setCore_only (.refl _ s) (by decide)) (.refl _ s))

@[simp] theorem frames_fenceWindowEnd : Frames .fenceWindowEnd := by
  intro s
  delta exec writes execFenceWindowEnd
  dsimp only
  exact .next (.ite (State.rollFences_only (.refl _ s) (by decide)) (.refl _ s))

@[simp] theorem frames_incidentRateWindowEnd : Frames .incidentRateWindowEnd := by
  intro s
  delta exec writes execIncidentRateWindowEnd
  dsimp only
  exact .next (.ite (State.fillQueue_only (.refl _ s) (by decide)) (.refl _ s))

@[simp] theorem frames_incidentRecordWrite : Frames .incidentRecordWrite := by
  intro s
  delta exec writes execIncidentRecordWrite
  dsimp only
  repeat' first
    | with_reducible exact .refl _ _
    | with_reducible apply GoesOn.next
    | with_reducible refine State.hostWrite_only ?_ (by decide)
    | with_reducible refine State.fillQueue_only ?_ (by decide)
    | with_reducible refine State.incidentInterrupt_only ?_ (by decide)
    | fail_if_no_progress with_reducible refine OnlyM.lit_rasQueue_rasW ?_ (by decide)
    | split

@[simp] theorem frames_incidentRingEnable (func : GalNo) (word : Word) : Frames (.incidentRingEnable func word) := by
  intro s
  delta exec writes execIncidentRingEnable
  dsimp only
  exact .next (.ite (State.incidentEnable_only (.refl _ s) (by decide)) (.refl _ s))

@[simp] theorem frames_incidentInterruptIntervalEnd : Frames .incidentInterruptIntervalEnd := by
  intro s
  delta exec writes execIncidentInterruptIntervalEnd
  dsimp only
  exact .next (.ite (State.incidentMessage_only (.refl _ s) (by decide)) (.refl _ s))

@[simp] theorem frames_sourceClear (func : GalNo) (word : Word) : Frames (.sourceClear func word) := by
  intro s
  delta exec writes execSourceClear
  dsimp only
  exact .next (.ite (State.clearSource_only (.refl _ s) (by decide)) (.refl _ s))

@[simp] theorem frames_coreBind (o : Origin) (d : Line64) : Frames (.coreBind o d) := by
  intro s
  delta exec writes execCoreBind
  dsimp only
  exact .next (State.acceptBind_only (.refl _ s) (by decide))

@[simp] theorem frames_bindZeroFillDone (core : CoreNo) (entry : Fin 64) : Frames (.bindZeroFillDone core entry) := by
  intro s
  delta exec writes execBindZeroFillDone
  dsimp only
  repeat' first
    | with_reducible exact .refl _ _
    | with_reducible apply GoesOn.next
    | with_reducible refine State.writeScratch_only ?_ (by decide)
    | with_reducible refine State.setCore_only ?_ (by decide)
    | with_reducible refine State.bindDone_only ?_ (by decide)
    | intro _
    | with_reducible apply OnlyM.foldl
    | with_reducible apply OnlyP.fst
    | split

@[simp] theorem frames_coreUnbind (o : Origin) (d : Line64) : Frames (.coreUnbind o d) := by
  intro s
  delta exec writes execCoreUnbind
  dsimp only
  exact .next (State.acceptUnbind_only (.refl _ s) (by decide))

@[simp] theorem frames_handleDrained (core : CoreNo) (entry : Fin 64) : Frames (.handleDrained core entry) := by
  intro s
  delta exec writes execHandleDrained
  dsimp only
  repeat' first
    | with_reducible exact .refl _ _
    | with_reducible apply GoesOn.next
    | with_reducible refine State.setCore_only ?_ (by decide)
    | with_reducible refine State.complete_only ?_ (by decide)
    | split

@[simp] theorem frames_channelRequestServe (core : CoreNo) (arrivals : List ChanReq) (ups : List Upset) : Frames
    (.channelRequestServe core arrivals ups) := by
  intro s
  delta exec writes execChannelRequestServe
  dsimp only
  repeat' first
    | with_reducible exact .refl _ _
    | with_reducible apply GoesOn.next
    | with_reducible refine State.upsets_only ?_ (by decide)
    | with_reducible refine State.setChan_only ?_ (by decide)
    | with_reducible refine State.acceptReqs_only ?_ (by decide)
    | with_reducible refine State.serveNext_only ?_ (by decide)
    | split

@[simp] theorem frames_refreshSlot : Frames .refreshSlot := by
  intro s
  delta exec writes execRefreshSlot
  dsimp only
  repeat' first
    | with_reducible exact .refl _ _
    | with_reducible apply GoesOn.next
    | with_reducible refine State.refresh_only ?_ (by decide)
    | with_reducible refine State.count_only ?_ (by decide)
    | with_reducible refine State.event_only ?_ (by decide)
    | with_reducible refine State.draw_only ?_ (by decide)
    | with_reducible refine State.waitFree_only ?_ (by decide)
    | intro _
    | with_reducible apply OnlyM.foldl
    | split

@[simp] theorem frames_refreshOpportunistic (core : CoreNo) : Frames (.refreshOpportunistic core) := by
  intro s
  delta exec writes execRefreshOpportunistic
  dsimp only
  repeat' first
    | with_reducible exact .refl _ _
    | with_reducible apply GoesOn.next
    | with_reducible refine State.refresh_only ?_ (by decide)
    | with_reducible refine State.count_only ?_ (by decide)
    | split

@[simp] theorem frames_scrubRead (core : CoreNo) (ups : List Upset) : Frames (.scrubRead core ups) := by
  intro s
  delta exec writes execScrubRead
  dsimp only
  repeat' first
    | with_reducible exact .refl _ _
    | with_reducible apply GoesOn.next
    | with_reducible refine State.upsets_only ?_ (by decide)
    | with_reducible refine State.setChan_only ?_ (by decide)
    | with_reducible refine State.noteChan_only ?_ (by decide)
    | with_reducible refine State.writeChan_only ?_ (by decide)
    | with_reducible refine State.count_only ?_ (by decide)
    | with_reducible apply OnlyP.fst
    | split

@[simp] theorem frames_ringEnable (func : GalNo) (ring : RingNo) (word : Word) : Frames (.ringEnable func ring word) := by
  intro s
  delta exec writes execRingEnable
  dsimp only
  exact .next (.ite (State.writeRcfg_only (.refl _ s) (by decide)) (.refl _ s))

@[simp] theorem frames_ringDisable (func : GalNo) (ring : RingNo) (word : Word) : Frames (.ringDisable func ring word)
    := by
  intro s
  delta exec writes execRingDisable
  dsimp only
  exact .next (.ite (State.writeRcfg_only (.refl _ s) (by decide)) (.refl _ s))

@[simp] theorem frames_ringInterruptIntervalEnd (ring : RingNo) : Frames (.ringInterruptIntervalEnd ring) := by
  intro s
  delta exec writes execRingInterruptIntervalEnd
  dsimp only
  exact .next (.ite (State.ringMessage_only (.refl _ s) (by decide)) (.refl _ s))

@[simp] theorem frames_summaryReadDone (lines : List (BitVec 64)) (sep : List SepSummary) : Frames (.summaryReadDone
    lines sep) := by
  intro s
  delta exec writes execSummaryReadDone
  dsimp only
  repeat' first
    | with_reducible exact .refl _ _
    | with_reducible apply GoesOn.next
    | with_reducible refine State.flagGallery_only ?_ (by decide)
    | with_reducible refine State.readDoorbells_only ?_ (by decide)
    | intro _
    | with_reducible apply OnlyP.foldl
    | with_reducible apply OnlyP.fst
    | with_reducible apply OnlyP.mk'
    | split

@[simp] theorem frames_doorbellReadDone (ring : RingNo) (record : Line64) : Frames (.doorbellReadDone ring record) := by
  intro s
  delta exec writes execDoorbellReadDone
  dsimp only
  repeat' first
    | with_reducible exact .refl _ _
    | with_reducible apply GoesOn.next
    | with_reducible refine State.takeDoorbell_only ?_ (by decide)
    | with_reducible refine State.doorbellGone_only ?_ (by decide)
    | with_reducible refine State.count_only ?_ (by decide)
    | with_reducible refine State.setRing_only ?_ (by decide)
    | with_reducible refine State.hostRead_only ?_ (by decide)
    | split

@[simp] theorem frames_consumerLineReadDone (which : ConsLine) (line : Line64) : Frames (.consumerLineReadDone which
    line) := by
  intro s
  delta exec writes execConsumerLineReadDone
  dsimp only
  repeat' first
    | with_reducible exact .refl _ _
    | with_reducible apply GoesOn.next
    | with_reducible refine State.takeCons_only ?_ (by decide)
    | with_reducible refine State.lineGone_only ?_ (by decide)
    | split

@[simp] theorem frames_cowCopyComplete (stream : StreamNo) (slot : Nat) : Frames (.cowCopyComplete stream slot) := by
  intro s
  delta exec writes execCowCopyComplete
  dsimp only
  repeat' first
    | with_reducible exact .refl _ _
    | with_reducible apply GoesOn.next
    | with_reducible refine State.stagePage_only ?_ (by decide)
    | with_reducible refine State.curTraffic_only ?_ (by decide)
    | with_reducible refine State.writeChan_only ?_ (by decide)
    | with_reducible refine State.writeToken_only ?_ (by decide)
    | with_reducible refine State.stepUe_only ?_ (by decide)
    | with_reducible refine State.markFull_only ?_ (by decide)
    | with_reducible refine State.unstage_only ?_ (by decide)
    | fail_if_no_progress with_reducible refine OnlyM.lit_curCows ?_ (by decide)
    | with_reducible refine OnlyM.ofPair (by assumption) ?_
    | with_reducible apply OnlyP.fst
    | split

@[simp] theorem frames_pageCopyMake (page : Word) : Frames (.pageCopyMake page) := by
  intro s
  delta exec writes execPageCopyMake
  dsimp only
  repeat' first
    | with_reducible exact .refl _ _
    | with_reducible apply GoesOn.next
    | with_reducible refine State.count_only ?_ (by decide)
    | with_reducible refine State.chooseFrame_only ?_ (by decide)
    | with_reducible refine State.freePage_only ?_ (by decide)
    | with_reducible refine State.returnFrame_only ?_ (by decide)
    | with_reducible refine State.useFrame_only ?_ (by decide)
    | with_reducible refine State.copyFrame_only ?_ (by decide)
    | with_reducible refine State.setPage_only ?_ (by decide)
    | with_reducible refine OnlyM.ofPair (by assumption) ?_
    | split

@[simp] theorem frames_pageMove (o : Origin) (d : Line64) : Frames (.pageMove o d) := by
  intro s
  delta exec writes execPageMove
  dsimp only
  exact .next (State.acceptPageMove_only (.refl _ s) (by decide))

@[simp] theorem frames_pageMoveComplete (page : Word) : Frames (.pageMoveComplete page) := by
  intro s
  delta exec writes execPageMoveComplete
  dsimp only
  repeat' first
    | with_reducible exact .refl _ _
    | with_reducible apply GoesOn.next
    | with_reducible refine State.returnFrame_only ?_ (by decide)
    | with_reducible refine State.complete_only ?_ (by decide)
    | with_reducible refine State.useFrame_only ?_ (by decide)
    | with_reducible refine State.copyFrame_only ?_ (by decide)
    | with_reducible refine State.setPage_only ?_ (by decide)
    | with_reducible refine State.vacate_only ?_ (by decide)
    | with_reducible refine State.count_only ?_ (by decide)
    | fail_if_no_progress with_reducible refine OnlyM.lit_curMoves ?_ (by decide)
    | split

@[simp] theorem frames_forkComplete (child : StreamNo) : Frames (.forkComplete child) := by
  intro s
  delta exec writes execForkComplete
  dsimp only
  repeat' first
    | with_reducible exact .refl _ _
    | with_reducible apply GoesOn.next
    | with_reducible refine State.forkRow_only ?_ (by decide)
    | with_reducible refine State.setKvMap_only ?_ (by decide)
    | with_reducible refine State.setCtx_only ?_ (by decide)
    | with_reducible refine State.complete_only ?_ (by decide)
    | fail_if_no_progress with_reducible refine OnlyM.lit_curForks ?_ (by decide)
    | intro _
    | with_reducible apply OnlyM.foldl
    | split

@[simp] theorem frames_streamAdmit (o : Origin) (d : Line64) : Frames (.streamAdmit o d) := by
  intro s
  delta exec writes execStreamAdmit
  dsimp only
  exact .next (State.acceptAdmit_only (.refl _ s) (by decide))

@[simp] theorem frames_endRecordWrite (stream : StreamNo) : Frames (.endRecordWrite stream) := by
  intro s
  delta exec writes execEndRecordWrite
  dsimp only
  repeat' first
    | with_reducible exact .refl _ _
    | with_reducible apply GoesOn.next
    | with_reducible refine State.setCtx_only ?_ (by decide)
    | with_reducible refine State.writeAnswer_only ?_ (by decide)
    | with_reducible refine State.completeAll_only ?_ (by decide)
    | split

@[simp] theorem frames_append (o : Origin) (d : Line64) : Frames (.append o d) := by
  intro s
  delta exec writes execAppend
  dsimp only
  exact .next (State.acceptAppend_only (.refl _ s) (by decide))

@[simp] theorem frames_appendTokensReadDone (ring : RingNo) (index : Word) (tokens : List Word) : Frames
    (.appendTokensReadDone ring index tokens) := by
  intro s
  delta exec writes execAppendTokensReadDone
  dsimp only
  repeat' first
    | with_reducible exact .refl _ _
    | with_reducible apply GoesOn.next
    | with_reducible refine State.dropAppend_only ?_ (by decide)
    | with_reducible refine State.complete_only ?_ (by decide)
    | with_reducible refine State.flushAppends_only ?_ (by decide)
    | fail_if_no_progress with_reducible refine OnlyM.lit_docAppends ?_ (by decide)
    | split

@[simp] theorem frames_cancel (o : Origin) (d : Line64) : Frames (.cancel o d) := by
  intro s
  delta exec writes execCancel
  dsimp only
  exact .next (State.acceptCancel_only (.refl _ s) (by decide))

@[simp] theorem frames_release (o : Origin) (d : Line64) : Frames (.release o d) := by
  intro s
  delta exec writes execRelease
  dsimp only
  exact .next (State.acceptRelease_only (.refl _ s) (by decide))

@[simp] theorem frames_releaseExecute (stream : StreamNo) : Frames (.releaseExecute stream) := by
  intro s
  delta exec writes execReleaseExecute
  dsimp only
  repeat' first
    | with_reducible exact .refl _ _
    | with_reducible apply GoesOn.next
    | with_reducible refine State.checkTables_only ?_ (by decide)
    | with_reducible refine State.releaseMap_only ?_ (by decide)
    | with_reducible refine State.setCtx_only ?_ (by decide)
    | with_reducible refine State.complete_only ?_ (by decide)
    | fail_if_no_progress with_reducible refine OnlyM.lit_docCgroups ?_ (by decide)
    | fail_if_no_progress with_reducible refine OnlyM.lit_docReleases ?_ (by decide)
    | with_reducible apply OnlyP.fst
    | split

@[simp] theorem frames_policy (o : Origin) (d : Line64) : Frames (.policy o d) := by
  intro s
  delta exec writes execPolicy
  dsimp only
  exact .next (State.acceptPolicy_only (.refl _ s) (by decide))

@[simp] theorem frames_fork (o : Origin) (d : Line64) : Frames (.fork o d) := by
  intro s
  delta exec writes execFork
  dsimp only
  exact .next (State.acceptFork_only (.refl _ s) (by decide))

@[simp] theorem frames_nop (o : Origin) (d : Line64) : Frames (.nop o d) := by
  intro s
  delta exec writes execNop
  dsimp only
  exact .next (State.acceptNop_only (.refl _ s) (by decide))

@[simp] theorem frames_fence (o : Origin) (d : Line64) : Frames (.fence o d) := by
  intro s
  delta exec writes execFence
  dsimp only
  exact .next (State.acceptFence_only (.refl _ s) (by decide))

@[simp] theorem frames_copy (o : Origin) (d : Line64) : Frames (.copy o d) := by
  intro s
  delta exec writes execCopy
  dsimp only
  exact .next (State.acceptCopy_only (.refl _ s) (by decide))

@[simp] theorem frames_fill (o : Origin) (d : Line64) : Frames (.fill o d) := by
  intro s
  delta exec writes execFill
  dsimp only
  exact .next (State.acceptFill_only (.refl _ s) (by decide))

@[simp] theorem frames_compare (o : Origin) (d : Line64) : Frames (.compare o d) := by
  intro s
  delta exec writes execCompare
  dsimp only
  exact .next (State.acceptCompare_only (.refl _ s) (by decide))

@[simp] theorem frames_gather (o : Origin) (d : Line64) : Frames (.gather o d) := by
  intro s
  delta exec writes execGather
  dsimp only
  exact .next (State.acceptGather_only (.refl _ s) (by decide))

@[simp] theorem frames_spStrided (o : Origin) (d : Line64) : Frames (.spStrided o d) := by
  intro s
  delta exec writes execSpStrided
  dsimp only
  exact .next (State.acceptStrided_only (.refl _ s) (by decide))

@[simp] theorem frames_spTranspose (o : Origin) (d : Line64) : Frames (.spTranspose o d) := by
  intro s
  delta exec writes execSpTranspose
  dsimp only
  exact .next (State.acceptTranspose_only (.refl _ s) (by decide))

@[simp] theorem frames_t24Convert (o : Origin) (d : Line64) : Frames (.t24Convert o d) := by
  intro s
  delta exec writes execT24Convert
  dsimp only
  exact .next (State.acceptT24_only (.refl _ s) (by decide))

@[simp] theorem frames_dmaChannelAcquire : Frames .dmaChannelAcquire := by
  intro s
  delta exec writes execDmaChannelAcquire
  dsimp only
  repeat' first
    | with_reducible exact .refl _ _
    | with_reducible apply GoesOn.next
    | with_reducible refine State.classPick_only ?_ (by decide)
    | with_reducible refine State.giveChannel_only ?_ (by decide)
    | with_reducible refine OnlyM.ofPair (by assumption) ?_
    | split

@[simp] theorem frames_dmaUnitWriteDone (channel : Fin 256) (ups : List Upset) : Frames (.dmaUnitWriteDone channel
    ups) := by
  intro s
  delta exec writes execDmaUnitWriteDone
  dsimp only
  repeat' first
    | with_reducible exact .refl _ _
    | with_reducible apply GoesOn.next
    | with_reducible refine State.upsets_only ?_ (by decide)
    | with_reducible refine State.writeWaits_only ?_ (by decide)
    | with_reducible refine State.runsHold_only ?_ (by decide)
    | with_reducible refine State.writeEngines_only ?_ (by decide)
    | with_reducible refine State.dmaUnitWrite_only ?_ (by decide)
    | with_reducible refine State.writeFree_only ?_ (by decide)
    | split

@[simp] theorem frames_dmaOpComplete (channel : Fin 256) : Frames (.dmaOpComplete channel) := by
  intro s
  delta exec writes execDmaOpComplete
  dsimp only
  repeat' first
    | with_reducible exact .refl _ _
    | with_reducible apply GoesOn.next
    | with_reducible refine State.dmaEnd_only ?_ (by decide)
    | split

@[simp] theorem frames_dmaStop (o : Origin) (d : Line64) : Frames (.dmaStop o d) := by
  intro s
  delta exec writes execDmaStop
  dsimp only
  exact .next (State.acceptDmaStop_only (.refl _ s) (by decide))

@[simp] theorem frames_tile (o : Origin) (d : Line64) : Frames (.tile o d) := by
  intro s
  delta exec writes execTile
  dsimp only
  exact .next (State.acceptTile_only (.refl _ s) (by decide))

@[simp] theorem frames_tileBs (o : Origin) (d : Line64) : Frames (.tileBs o d) := by
  intro s
  delta exec writes execTileBs
  dsimp only
  exact .next (State.acceptTileBs_only (.refl _ s) (by decide))

@[simp] theorem frames_chunkLoadDone (core : CoreNo) (ups : List Upset) : Frames (.chunkLoadDone core ups) := by
  intro s
  delta exec writes execChunkLoadDone
  dsimp only
  repeat' first
    | with_reducible exact .refl _ _
    | with_reducible apply GoesOn.next
    | with_reducible refine State.upsets_only ?_ (by decide)
    | with_reducible refine State.nextLoad_only ?_ (by decide)
    | with_reducible refine State.waitBegin_only ?_ (by decide)
    | with_reducible refine State.setCore_only ?_ (by decide)
    | with_reducible refine State.waitEnd_only ?_ (by decide)
    | fail_if_no_progress with_reducible refine OnlyM.lit_annexRunning ?_ (by decide)
    | with_reducible refine OnlyM.ofSomePair (by assumption) ?_
    | split

@[simp] theorem frames_tileComplete (core : CoreNo) (ups : List Upset) : Frames (.tileComplete core ups) := by
  intro s
  delta exec writes execTileComplete
  dsimp only
  repeat' first
    | with_reducible exact .refl _ _
    | with_reducible apply GoesOn.next
    | with_reducible refine State.upsets_only ?_ (by decide)
    | with_reducible refine State.bwHold_only ?_ (by decide)
    | with_reducible refine State.drain_only ?_ (by decide)
    | with_reducible refine State.waitEnd_only ?_ (by decide)
    | with_reducible refine State.endBs_only ?_ (by decide)
    | with_reducible refine State.endDense_only ?_ (by decide)
    | split

@[simp] theorem frames_accumulatorDrainDone (core : CoreNo) (bank : Bool) (ups : List Upset) : Frames
    (.accumulatorDrainDone core bank ups) := by
  intro s
  delta exec writes execAccumulatorDrainDone
  dsimp only
  repeat' first
    | with_reducible exact .refl _ _
    | with_reducible apply GoesOn.next
    | with_reducible refine State.upsets_only ?_ (by decide)
    | with_reducible refine State.residueFault_only ?_ (by decide)
    | with_reducible refine State.finish_only ?_ (by decide)
    | with_reducible refine State.setCore_only ?_ (by decide)
    | with_reducible refine State.waitFree_only ?_ (by decide)
    | with_reducible refine State.complete_only ?_ (by decide)
    | with_reducible refine State.startTile_only ?_ (by decide)
    | intro _
    | with_reducible apply OnlyM.foldl
    | with_reducible apply OnlyP.fst
    | split

@[simp] theorem frames_annexTileStart : Frames .annexTileStart := by
  intro s
  delta exec writes execAnnexTileStart
  dsimp only
  repeat' first
    | with_reducible exact .refl _ _
    | with_reducible apply GoesOn.next
    | with_reducible refine State.opEvent_only ?_ (by decide)
    | fail_if_no_progress with_reducible refine OnlyM.lit_annexQueue_annexRunning_annexBank0_annexBank1 ?_ (by decide)
    | split

@[simp] theorem frames_annexTileComplete (ups : List Upset) : Frames (.annexTileComplete ups) := by
  intro s
  delta exec writes execAnnexTileComplete
  dsimp only
  repeat' first
    | with_reducible exact .refl _ _
    | with_reducible apply GoesOn.next
    | with_reducible refine State.upsets_only ?_ (by decide)
    | with_reducible refine State.bwHold_only ?_ (by decide)
    | with_reducible refine State.drain_only ?_ (by decide)
    | with_reducible refine State.waitEnd_only ?_ (by decide)
    | with_reducible refine State.endAnnex_only ?_ (by decide)
    | split

@[simp] theorem frames_attn (o : Origin) (d : Line64) : Frames (.attn o d) := by
  intro s
  delta exec writes execAttn
  dsimp only
  exact .next (State.acceptAttn_only (.refl _ s) (by decide))

@[simp] theorem frames_attnComplete (core : CoreNo) (ups : List Upset) (faults : List AttnFault) : Frames
    (.attnComplete core ups faults) := by
  intro s
  delta exec writes execAttnComplete
  dsimp only
  repeat' first
    | with_reducible exact .refl _ _
    | with_reducible apply GoesOn.next
    | with_reducible refine State.upsets_only ?_ (by decide)
    | with_reducible refine State.bwHold_only ?_ (by decide)
    | with_reducible refine State.drain_only ?_ (by decide)
    | with_reducible refine State.waitEnd_only ?_ (by decide)
    | with_reducible refine State.endAttn_only ?_ (by decide)
    | split

@[simp] theorem frames_coreIssue (core : CoreNo) : Frames (.coreIssue core) := by
  intro s
  delta exec writes execCoreIssue
  dsimp only
  repeat' first
    | with_reducible exact .refl _ _
    | with_reducible apply GoesOn.next
    | with_reducible refine State.beginWaits_only ?_ (by decide)
    | with_reducible refine State.nextTile_only ?_ (by decide)
    | with_reducible refine State.refuseAtIssue_only ?_ (by decide)
    | with_reducible refine State.issueTileLike_only ?_ (by decide)
    | with_reducible refine State.issueDma_only ?_ (by decide)
    | with_reducible apply OnlyP.fst
    | split

@[simp] theorem frames_snapshot (func : GalNo) (word : Word) : Frames (.snapshot func word) := by
  intro s
  delta exec writes execSnapshot
  dsimp only
  exact .next (.ite (State.takeSnapshot_only (.refl _ s) (by decide)) (.refl _ s))

@[simp] theorem frames_snapshotDone (func : GalNo) : Frames (.snapshotDone func) := by
  intro s
  delta exec writes execSnapshotDone
  dsimp only
  repeat' first
    | with_reducible exact .refl _ _
    | with_reducible apply GoesOn.next
    | with_reducible refine State.hostWrite_only ?_ (by decide)
    | with_reducible refine State.setSnap_only ?_ (by decide)
    | split

@[simp] theorem frames_dump (func : GalNo) (word : Word) : Frames (.dump func word) := by
  intro s
  delta exec writes execDump
  dsimp only
  exact .next (State.readCommandIs_only (.refl _ s) (by decide))

@[simp] theorem frames_freeze (func : GalNo) (word : Word) : Frames (.freeze func word) := by
  intro s
  delta exec writes execFreeze
  dsimp only
  exact .next (State.readCommandIs_only (.refl _ s) (by decide))

@[simp] theorem frames_thaw (func : GalNo) (word : Word) : Frames (.thaw func word) := by
  intro s
  delta exec writes execThaw
  dsimp only
  exact .next (State.readCommandIs_only (.refl _ s) (by decide))

@[simp] theorem frames_dumpDone : Frames .dumpDone := by
  intro s
  delta exec writes execDumpDone
  dsimp only
  repeat' first
    | with_reducible exact .refl _ _
    | with_reducible apply GoesOn.next
    | with_reducible refine State.hostWrite_only ?_ (by decide)
    | with_reducible refine State.thawRings_only ?_ (by decide)
    | fail_if_no_progress with_reducible refine OnlyM.lit_catDumpBusy_catDumpFroze ?_ (by decide)
    | split

@[simp] theorem frames_mark (func : GalNo) (word : Word) : Frames (.mark func word) := by
  intro s
  delta exec writes execMark
  dsimp only
  exact .next (.ite (State.mark_only (.refl _ s) (by decide)) (.refl _ s))

@[simp] theorem frames_watchdogExpiry (source : BitVec 16) (identity : BitVec 64) : Frames (.watchdogExpiry source
    identity) := by
  intro s
  delta exec writes execWatchdogExpiry
  dsimp only
  repeat' first
    | with_reducible exact .refl _ _
    | with_reducible apply GoesOn.next
    | with_reducible refine State.freezeRings_only ?_ (by decide)
    | with_reducible refine State.incident_only ?_ (by decide)
    | fail_if_no_progress with_reducible refine OnlyM.lit_catWdQuiet ?_ (by decide)
    | split

@[simp] theorem frames_traceRecordWrite : Frames .traceRecordWrite := by
  intro s
  delta exec writes execTraceRecordWrite
  dsimp only
  repeat' first
    | with_reducible exact .refl _ _
    | with_reducible apply GoesOn.next
    | with_reducible refine State.pick_only ?_ (by decide)
    | with_reducible refine State.takeTrace_only ?_ (by decide)
    | fail_if_no_progress with_reducible refine OnlyM.lit_catTrace ?_ (by decide)
    | with_reducible apply OnlyP.fst
    | split

@[simp] theorem frames_traceRecordDrop (fifo : Fin 9) : Frames (.traceRecordDrop fifo) := by
  intro s
  delta exec writes execTraceRecordDrop
  dsimp only
  repeat' first
    | with_reducible exact .refl _ _
    | with_reducible apply GoesOn.next
    | fail_if_no_progress with_reducible refine OnlyM.lit_catTrace ?_ (by decide)
    | split

@[simp] theorem frames_traceCaptureEnd : Frames .traceCaptureEnd := by
  intro s
  delta exec writes execTraceCaptureEnd
  dsimp only
  repeat' first
    | with_reducible exact .refl _ _
    | with_reducible apply GoesOn.next
    | with_reducible refine State.stopTrace_only ?_ (by decide)
    | split

@[simp] theorem frames_arm (func : GalNo) (word : Word) : Frames (.arm func word) := by
  intro s
  delta exec writes execArm
  dsimp only
  exact .next (State.traceCommandIs_only (.refl _ s) (by decide))

@[simp] theorem frames_traceStop (func : GalNo) (word : Word) : Frames (.traceStop func word) := by
  intro s
  delta exec writes execTraceStop
  dsimp only
  exact .next (State.traceCommandIs_only (.refl _ s) (by decide))

@[simp] theorem frames_trigger (func : GalNo) (word : Word) : Frames (.trigger func word) := by
  intro s
  delta exec writes execTrigger
  dsimp only
  exact .next (State.traceCommandIs_only (.refl _ s) (by decide))

@[simp] theorem frames_traceBeatTrigger : Frames .traceBeatTrigger := by
  intro s
  delta exec writes execTraceBeatTrigger
  dsimp only
  repeat' first
    | with_reducible exact .refl _ _
    | with_reducible apply GoesOn.next
    | with_reducible refine State.eventRec_only ?_ (by decide)
    | with_reducible refine State.takeTrace_only ?_ (by decide)
    | with_reducible refine State.retrigger_only ?_ (by decide)
    | with_reducible apply OnlyP.fst
    | split

@[simp] theorem frames_objCreate (o : Origin) (d : Line64) : Frames (.objCreate o d) := by
  intro s
  delta exec writes execObjCreate
  dsimp only
  exact .next (State.acceptObjCreate_only (.refl _ s) (by decide))

@[simp] theorem frames_accession (o : Origin) (d : Line64) : Frames (.accession o d) := by
  intro s
  delta exec writes execAccession
  dsimp only
  exact .next (State.acceptAccession_only (.refl _ s) (by decide))

@[simp] theorem frames_objMap (o : Origin) (d : Line64) : Frames (.objMap o d) := by
  intro s
  delta exec writes execObjMap
  dsimp only
  exact .next (State.acceptObjMap_only (.refl _ s) (by decide))

@[simp] theorem frames_objRelease (o : Origin) (d : Line64) : Frames (.objRelease o d) := by
  intro s
  delta exec writes execObjRelease
  dsimp only
  exact .next (State.acceptObjRelease_only (.refl _ s) (by decide))

@[simp] theorem frames_objPin (o : Origin) (d : Line64) : Frames (.objPin o d) := by
  intro s
  delta exec writes execObjPin
  dsimp only
  exact .next (State.acceptObjPin_only (.refl _ s) (by decide))

@[simp] theorem frames_objQuery (o : Origin) (d : Line64) : Frames (.objQuery o d) := by
  intro s
  delta exec writes execObjQuery
  dsimp only
  exact .next (State.acceptObjQuery_only (.refl _ s) (by decide))

@[simp] theorem frames_migrate (o : Origin) (d : Line64) : Frames (.migrate o d) := by
  intro s
  delta exec writes execMigrate
  dsimp only
  exact .next (State.acceptMigrate_only (.refl _ s) (by decide))

@[simp] theorem frames_moverPanelStart (ups : List Upset) : Frames (.moverPanelStart ups) := by
  intro s
  delta exec writes execMoverPanelStart
  dsimp only
  repeat' first
    | with_reducible exact .refl _ _
    | with_reducible apply GoesOn.next
    | with_reducible refine State.upsets_only ?_ (by decide)
    | with_reducible refine State.moverAct_only ?_ (by decide)
    | split

@[simp] theorem frames_panelSwitch (obj : Fin 16384) (panel : Nat) (data : Bytes) : Frames (.panelSwitch obj panel
    data) := by
  intro s
  delta exec writes execPanelSwitch
  dsimp only
  repeat' first
    | with_reducible exact .refl _ _
    | with_reducible apply GoesOn.next
    | with_reducible refine State.panelSwitch_only ?_ (by decide)
    | split

@[simp] theorem frames_readRaw (func : GalNo) (plinth : PlinthNo) (word : Word) : Frames (.readRaw func plinth word) := by
  intro s
  delta exec writes execReadRaw
  dsimp only
  exact .next (State.repairCommand_only (.refl _ s) (by decide))

@[simp] theorem frames_writeRaw (func : GalNo) (plinth : PlinthNo) (word : Word) : Frames (.writeRaw func plinth word)
    := by
  intro s
  delta exec writes execWriteRaw
  dsimp only
  exact .next (State.repairCommand_only (.refl _ s) (by decide))

@[simp] theorem frames_rowSpare (func : GalNo) (plinth : PlinthNo) (word : Word) : Frames (.rowSpare func plinth word)
    := by
  intro s
  delta exec writes execRowSpare
  dsimp only
  exact .next (State.repairCommand_only (.refl _ s) (by decide))

@[simp] theorem frames_colSpare (func : GalNo) (plinth : PlinthNo) (word : Word) : Frames (.colSpare func plinth word)
    := by
  intro s
  delta exec writes execColSpare
  dsimp only
  exact .next (State.repairCommand_only (.refl _ s) (by decide))

@[simp] theorem frames_chSpare (func : GalNo) (plinth : PlinthNo) (word : Word) : Frames (.chSpare func plinth word) := by
  intro s
  delta exec writes execChSpare
  dsimp only
  exact .next (State.repairCommand_only (.refl _ s) (by decide))

@[simp] theorem frames_mapRead (func : GalNo) (plinth : PlinthNo) (word : Word) : Frames (.mapRead func plinth word) := by
  intro s
  delta exec writes execMapRead
  dsimp only
  exact .next (State.repairCommand_only (.refl _ s) (by decide))

@[simp] theorem frames_repairCommandDone (plinth : PlinthNo) : Frames (.repairCommandDone plinth) := by
  intro s
  delta exec writes execRepairCommandDone
  dsimp only
  repeat' first
    | with_reducible exact .refl _ _
    | with_reducible apply GoesOn.next
    | with_reducible refine State.setPlinth_only ?_ (by decide)
    | split

@[simp] theorem frames_repairRecordWrite : Frames .repairRecordWrite := by
  intro s
  delta exec writes
  dsimp only
  unfold execRepairRecordWrite
  split
  · exact .next (.refl _ s)
  · extract_lets f old t _ s1
    have ht : OnlyM (mask [.free]) s t.1 := by
      unfold t
      split
      · exact .refl _ s
      · exact State.draw_only (.refl _ s) (by decide)
    exact .next (OnlyM.lit_ctlRepDirty_flashRep0_flashRep1 (t := s1) (ht.mono (by decide)) (by decide))

@[simp] theorem frames_coreSpareSwitch (core : CoreNo) : Frames (.coreSpareSwitch core) := by
  intro s
  delta exec writes execCoreSpareSwitch
  dsimp only
  repeat' first
    | with_reducible exact .refl _ _
    | with_reducible apply GoesOn.next
    | with_reducible refine State.switchCore_only ?_ (by decide)
    | with_reducible refine State.switchChan_only ?_ (by decide)
    | with_reducible refine State.setCore_only ?_ (by decide)
    | split

@[simp] theorem frames_channelSpareCopy (plinth : PlinthNo) (bursts : Nat) (ups : List Upset) : Frames
    (.channelSpareCopy plinth bursts ups) := by
  intro s
  delta exec writes execChannelSpareCopy
  dsimp only
  repeat' first
    | with_reducible exact .refl _ _
    | with_reducible apply GoesOn.next
    | with_reducible refine State.upsets_only ?_ (by decide)
    | with_reducible refine State.copyChan_only ?_ (by decide)
    | with_reducible refine State.setPlinth_only ?_ (by decide)
    | split

@[simp] theorem frames_repairStart (obj : Fin 16384) (panel : Nat) : Frames (.repairStart obj panel) := by
  intro s
  delta exec writes execRepairStart
  dsimp only
  repeat' first
    | with_reducible exact .refl _ _
    | with_reducible apply GoesOn.next
    | with_reducible refine State.updRepair_only ?_ (by decide)
    | with_reducible refine State.askReference_only ?_ (by decide)
    | split

@[simp] theorem frames_referenceReadDone (obj : Fin 16384) (panel : Nat) (data : Bytes) : Frames (.referenceReadDone
    obj panel data) := by
  intro s
  delta exec writes execReferenceReadDone
  dsimp only
  repeat' first
    | with_reducible exact .refl _ _
    | with_reducible apply GoesOn.next
    | with_reducible refine State.writePanel_only ?_ (by decide)
    | with_reducible refine State.updRepair_only ?_ (by decide)
    | split

@[simp] theorem frames_referenceReadRetry (obj : Fin 16384) (panel : Nat) (linkDown : Bool) : Frames
    (.referenceReadRetry obj panel linkDown) := by
  intro s
  delta exec writes execReferenceReadRetry
  dsimp only
  exact .next (State.referenceRetry_only (.refl _ s) (by decide))

@[simp] theorem frames_panelRewriteDone (obj : Fin 16384) (panel : Nat) : Frames (.panelRewriteDone obj panel) := by
  intro s
  delta exec writes execPanelRewriteDone
  dsimp only
  repeat' first
    | with_reducible exact .refl _ _
    | with_reducible apply GoesOn.next
    | with_reducible refine State.updRepair_only ?_ (by decide)
    | split

@[simp] theorem frames_readbackDone (obj : Fin 16384) (panel : Nat) (ups : List Upset) : Frames (.readbackDone obj
    panel ups) := by
  intro s
  delta exec writes execReadbackDone
  dsimp only
  repeat' first
    | with_reducible exact .refl _ _
    | with_reducible apply GoesOn.next
    | with_reducible refine State.upsets_only ?_ (by decide)
    | with_reducible refine State.readback_only ?_ (by decide)
    | split

@[simp] theorem frames_broadcastChunkSend (plinth : PlinthNo) : Frames (.broadcastChunkSend plinth) := by
  intro s
  delta exec writes execBroadcastChunkSend
  dsimp only
  repeat' first
    | with_reducible exact .refl _ _
    | with_reducible apply GoesOn.next
    | with_reducible refine State.waitBegin_only ?_ (by decide)
    | with_reducible refine State.waitEnd_only ?_ (by decide)
    | with_reducible refine State.waitFree_only ?_ (by decide)
    | with_reducible refine State.noteHallUse_only ?_ (by decide)
    | with_reducible refine State.ringPut_only ?_ (by decide)
    | with_reducible refine State.setPlinth_only ?_ (by decide)
    | with_reducible refine State.useHandle_only ?_ (by decide)
    | intro _
    | with_reducible apply OnlyM.foldl
    | with_reducible apply OnlyP.fst
    | split

@[simp] theorem frames_addnorm (o : Origin) (d : Line64) : Frames (.addnorm o d) := by
  intro s
  delta exec writes execAddnorm
  dsimp only
  exact .next (State.acceptAddnorm_only (.refl _ s) (by decide))

@[simp] theorem frames_convert (o : Origin) (d : Line64) : Frames (.convert o d) := by
  intro s
  delta exec writes execConvert
  dsimp only
  exact .next (State.acceptConvert_only (.refl _ s) (by decide))

@[simp] theorem frames_bcast (o : Origin) (d : Line64) : Frames (.bcast o d) := by
  intro s
  delta exec writes execBcast
  dsimp only
  exact .next (State.acceptBcast_only (.refl _ s) (by decide))

@[simp] theorem frames_merge (o : Origin) (d : Line64) : Frames (.merge o d) := by
  intro s
  delta exec writes execMerge
  dsimp only
  exact .next (State.acceptMerge_only (.refl _ s) (by decide))

@[simp] theorem frames_psum (o : Origin) (d : Line64) : Frames (.psum o d) := by
  intro s
  delta exec writes execPsum
  dsimp only
  exact .next (State.acceptPsum_only (.refl _ s) (by decide))

@[simp] theorem frames_sample (o : Origin) (d : Line64) : Frames (.sample o d) := by
  intro s
  delta exec writes execSample
  dsimp only
  exact .next (State.acceptSample_only (.refl _ s) (by decide))

@[simp] theorem frames_hubOperationComplete (op : Nat) : Frames (.hubOperationComplete op) := by
  intro s
  delta exec writes execHubOperationComplete
  dsimp only
  repeat' first
    | with_reducible exact .refl _ _
    | with_reducible apply GoesOn.next
    | with_reducible refine State.hubWork_only ?_ (by decide)
    | with_reducible refine State.complete_only ?_ (by decide)
    | with_reducible refine State.opEvent_only ?_ (by decide)
    | fail_if_no_progress with_reducible refine OnlyM.lit_hubOps ?_ (by decide)
    | with_reducible apply OnlyP.fst
    | split

@[simp] theorem frames_packetDiscard (port : PortNo) (reason : DiscardReason) : Frames (.packetDiscard port reason) := by
  intro s
  delta exec writes execPacketDiscard
  dsimp only
  repeat' first
    | with_reducible exact .refl _ _
    | with_reducible apply GoesOn.next
    | with_reducible refine State.count_only ?_ (by decide)
    | with_reducible refine State.askReplay_only ?_ (by decide)
    | split

@[simp] theorem frames_linkCtrlSend (port : PortNo) : Frames (.linkCtrlSend port) := by
  intro s
  delta exec writes execLinkCtrlSend
  dsimp only
  exact .next (.ite (.refl _ s) (State.sendControl_only (State.setPort_only (.refl _ s) (by decide)) (by decide)))

@[simp] theorem frames_linkCtrlReceive (port : PortNo) (hdr : Line16) (payload : Line32) : Frames (.linkCtrlReceive
    port hdr payload) := by
  intro s
  delta exec writes execLinkCtrlReceive
  dsimp only
  repeat' first
    | with_reducible exact .refl _ _
    | with_reducible apply GoesOn.next
    | with_reducible apply OnlyM.ite
    | with_reducible refine State.arrive_only ?_ (by decide)
    | with_reducible refine State.setPort_only ?_ (by decide)
    | with_reducible refine State.portPump_only ?_ (by decide)
    | with_reducible refine State.wiringCheck_only ?_ (by decide)
    | with_reducible apply OnlyP.fst

@[simp] theorem frames_dataForward (port : PortNo) (hdr : Line16) (payload : Bytes) : Frames (.dataForward port hdr
    payload) := by
  intro s
  delta exec writes execDataForward
  dsimp only
  repeat' first
    | with_reducible exact .refl _ _
    | with_reducible apply GoesOn.next
    | with_reducible refine State.arrive_only ?_ (by decide)
    | with_reducible refine State.rerouted_only ?_ (by decide)
    | with_reducible refine State.portSend_only ?_ (by decide)
    | with_reducible apply OnlyP.fst
    | split

@[simp] theorem frames_noticeReceive (from_ : Neighbour) (hdr : Line16) (payload : Line32) : Frames (.noticeReceive
    from_ hdr payload) := by
  intro s
  delta exec writes execNoticeReceive
  dsimp only
  repeat' first
    | with_reducible exact .refl _ _
    | with_reducible apply GoesOn.next
    | with_reducible apply OnlyM.ite
    | with_reducible refine State.arrive_only ?_ (by decide)
    | with_reducible refine State.takeNotice_only ?_ (by decide)
    | with_reducible apply OnlyP.fst

@[simp] theorem frames_noticePairExpiry : Frames .noticePairExpiry := by
  intro s
  delta exec writes execNoticePairExpiry
  dsimp only
  repeat' first
    | with_reducible exact .refl _ _
    | with_reducible apply GoesOn.next
    | fail_if_no_progress with_reducible refine OnlyM.lit_fabSeen ?_ (by decide)

@[simp] theorem frames_portTrainingDone (port : PortNo) : Frames (.portTrainingDone port) := by
  intro s
  delta exec writes execPortTrainingDone
  dsimp only
  exact .next (.ite (State.setPortSt_only (State.setPort_only (.refl _ s) (by decide)) (by decide)) (.refl _ s))

@[simp] theorem frames_portTrainingTimeout (port : PortNo) : Frames (.portTrainingTimeout port) := by
  intro s
  delta exec writes execPortTrainingTimeout
  dsimp only
  exact .next (.ite (State.portTo_only (.refl _ s) (by decide)) (.refl _ s))

@[simp] theorem frames_portFailure (port : PortNo) (cause : PortFail) : Frames (.portFailure port cause) := by
  intro s
  delta exec writes execPortFailure
  dsimp only
  repeat' first
    | with_reducible exact .refl _ _
    | with_reducible apply GoesOn.next
    | with_reducible refine State.portDown_only ?_ (by decide)
    | split

@[simp] theorem frames_linkIdleTimeout (port : PortNo) : Frames (.linkIdleTimeout port) := by
  intro s
  delta exec writes execLinkIdleTimeout
  dsimp only
  exact .next (.ite (State.portDown_only (.refl _ s) (by decide)) (.refl _ s))

@[simp] theorem frames_portRetrainTimer (port : PortNo) : Frames (.portRetrainTimer port) := by
  intro s
  delta exec writes execPortRetrainTimer
  dsimp only
  exact .next (.ite (State.setPortSt_only (State.setPort_only (.refl _ s) (by decide)) (by decide)) (.refl _ s))

@[simp] theorem frames_winOpen (o : Origin) (d : Line64) : Frames (.winOpen o d) := by
  intro s
  delta exec writes execWinOpen
  dsimp only
  exact .next (State.acceptWinOpen_only (.refl _ s) (by decide))

@[simp] theorem frames_winClose (o : Origin) (d : Line64) : Frames (.winClose o d) := by
  intro s
  delta exec writes execWinClose
  dsimp only
  exact .next (State.acceptWinClose_only (.refl _ s) (by decide))

@[simp] theorem frames_put (port : PortNo) (hdr : Line16) (sub : Line16) (data : Bytes) : Frames (.put port hdr sub
    data) := by
  intro s
  delta exec writes execPut
  dsimp only
  repeat' first
    | with_reducible exact .refl _ _
    | with_reducible apply GoesOn.next
    | with_reducible refine State.arriveData_only ?_ (by decide)
    | with_reducible refine State.count_only ?_ (by decide)
    | with_reducible refine State.refusePacket_only ?_ (by decide)
    | with_reducible refine State.setWindow_only ?_ (by decide)
    | with_reducible refine State.windowFlush_only ?_ (by decide)
    | with_reducible apply OnlyP.fst
    | split

@[simp] theorem frames_getReq (port : PortNo) (hdr : Line16) (sub : Line16) (len : Word) (outside : Bytes) (ups : List
    Upset) : Frames (.getReq port hdr sub len outside ups) := by
  intro s
  delta exec writes execGetReq
  dsimp only
  repeat' first
    | with_reducible exact .refl _ _
    | with_reducible apply GoesOn.next
    | with_reducible refine State.upsets_only ?_ (by decide)
    | with_reducible refine State.arriveData_only ?_ (by decide)
    | with_reducible refine State.count_only ?_ (by decide)
    | with_reducible refine State.refusePacket_only ?_ (by decide)
    | with_reducible refine State.takeLong_only ?_ (by decide)
    | with_reducible refine State.answerGet_only ?_ (by decide)
    | with_reducible apply OnlyP.fst
    | split

@[simp] theorem frames_ackTimer (win : Fin 1024) (src : BitVec 17) (opid : BitVec 16) : Frames (.ackTimer win src
    opid) := by
  intro s
  delta exec writes execAckTimer
  dsimp only
  repeat' first
    | with_reducible exact .refl _ _
    | with_reducible apply GoesOn.next
    | with_reducible refine State.windowFlush_only ?_ (by decide)
    | with_reducible refine State.ackNow_only ?_ (by decide)
    | split

@[simp] theorem frames_winCloseComplete (win : Fin 1024) : Frames (.winCloseComplete win) := by
  intro s
  delta exec writes execWinCloseComplete
  dsimp only
  repeat' first
    | with_reducible exact .refl _ _
    | with_reducible apply GoesOn.next
    | with_reducible refine State.windowFlush_only ?_ (by decide)
    | with_reducible refine State.setWindow_only ?_ (by decide)
    | with_reducible refine State.useHandle_only ?_ (by decide)
    | with_reducible refine State.pinObj_only ?_ (by decide)
    | with_reducible refine State.complete_only ?_ (by decide)
    | intro _
    | with_reducible apply OnlyM.foldl
    | split

@[simp] theorem frames_winPut (o : Origin) (d : Line64) : Frames (.winPut o d) := by
  intro s
  delta exec writes execWinPut
  dsimp only
  exact .next (State.acceptWinPut_only (.refl _ s) (by decide))

@[simp] theorem frames_winGet (o : Origin) (d : Line64) : Frames (.winGet o d) := by
  intro s
  delta exec writes execWinGet
  dsimp only
  exact .next (State.acceptWinGet_only (.refl _ s) (by decide))

@[simp] theorem frames_dmaUnitReadDone (channel : Fin 256) (data : Bytes) (ups : List Upset) : Frames
    (.dmaUnitReadDone channel data ups) := by
  intro s
  delta exec writes execDmaUnitReadDone
  dsimp only
  repeat' first
    | with_reducible exact .refl _ _
    | with_reducible apply GoesOn.next
    | with_reducible refine State.upsets_only ?_ (by decide)
    | with_reducible refine State.sendRequests_only ?_ (by decide)
    | with_reducible refine State.waitBegin_only ?_ (by decide)
    | with_reducible refine State.runsHold_only ?_ (by decide)
    | with_reducible refine State.readEngines_only ?_ (by decide)
    | with_reducible refine State.putPacket_only ?_ (by decide)
    | with_reducible refine State.waitEnd_only ?_ (by decide)
    | with_reducible refine State.dmaUnitRead_only ?_ (by decide)
    | with_reducible refine State.readFree_only ?_ (by decide)
    | split

@[simp] theorem frames_ack (port : PortNo) (hdr : Line16) (payload : Line32) : Frames (.ack port hdr payload) := by
  intro s
  delta exec writes execAck
  dsimp only
  repeat' first
    | with_reducible exact .refl _ _
    | with_reducible apply GoesOn.next
    | with_reducible refine State.arriveData_only ?_ (by decide)
    | with_reducible refine State.count_only ?_ (by decide)
    | with_reducible refine State.updDma_only ?_ (by decide)
    | with_reducible refine State.winPump_only ?_ (by decide)
    | with_reducible apply OnlyP.fst
    | split

@[simp] theorem frames_getData (port : PortNo) (hdr : Line16) (sub : Line16) (data : Bytes) : Frames (.getData port
    hdr sub data) := by
  intro s
  delta exec writes execGetData
  dsimp only
  repeat' first
    | with_reducible exact .refl _ _
    | with_reducible apply GoesOn.next
    | with_reducible refine State.arriveData_only ?_ (by decide)
    | with_reducible refine State.count_only ?_ (by decide)
    | with_reducible refine State.updDma_only ?_ (by decide)
    | with_reducible refine State.winPump_only ?_ (by decide)
    | with_reducible apply OnlyP.fst
    | split

@[simp] theorem frames_windowOpTimeout (opid : BitVec 16) : Frames (.windowOpTimeout opid) := by
  intro s
  delta exec writes execWindowOpTimeout
  dsimp only
  repeat' first
    | with_reducible exact .refl _ _
    | with_reducible apply GoesOn.next
    | with_reducible refine State.updDma_only ?_ (by decide)
    | split

@[simp] theorem frames_windowOpComplete (opid : BitVec 16) : Frames (.windowOpComplete opid) := by
  intro s
  delta exec writes execWindowOpComplete
  dsimp only
  repeat' first
    | with_reducible exact .refl _ _
    | with_reducible apply GoesOn.next
    | with_reducible refine State.windowDone_only ?_ (by decide)
    | split

@[simp] theorem frames_quiesce (o : Origin) (d : Line64) : Frames (.quiesce o d) := by
  intro s
  delta exec writes execQuiesce
  dsimp only
  exact .next (State.acceptQuiesce_only (.refl _ s) (by decide))

@[simp] theorem frames_carLoad (o : Origin) (d : Line64) : Frames (.carLoad o d) := by
  intro s
  delta exec writes execCarLoad
  dsimp only
  exact .next (State.acceptCarLoad_only (.refl _ s) (by decide))

@[simp] theorem frames_mapImageReadDone (ring : RingNo) (index : Word) (image : Bytes) : Frames (.mapImageReadDone ring index image) := by
  intro s
  delta exec writes
  dsimp only
  unfold execMapImageReadDone
  split
  · exact .next (.refl _ s)
  · extract_lets e n loads s1 r
    have hr : OnlyM (mask (wIncident ++ wRecord ++ wPanel ++ [.fabCarMap, .fabCarPend, .fabCarLoads, .fabCarWait])) s r.1 := by
      have h1 : OnlyM (mask [.fabCarLoads]) s s1 := OnlyM.lit_fabCarLoads (.refl _ s) (by decide)
      unfold r
      split
      · exact (State.hallTake_only (h1.mono (by decide)) (by decide)).fst
      · exact h1.mono (by decide)
    refine .next (.ite (.refl _ s) ?_)
    split
    · exact State.complete_only hr (by decide)
    · extract_lets s2
      have h2 : OnlyM _ s s2 := OnlyM.lit_fabCarPend hr (by decide)
      refine State.complete_only (.ite (State.takeMapGen_only h2 (by decide)) h2) (by decide)

@[simp] theorem frames_collDataReceive (port : PortNo) (hdr : Line16) (sub : Line16) (data : Bytes) : Frames
    (.collDataReceive port hdr sub data) := by
  intro s
  delta exec writes execCollDataReceive
  dsimp only
  repeat' first
    | with_reducible exact .refl _ _
    | with_reducible apply GoesOn.next
    | with_reducible refine State.arriveData_only ?_ (by decide)
    | with_reducible refine State.collGroup_only ?_ (by decide)
    | with_reducible refine State.hallPut_only ?_ (by decide)
    | with_reducible refine State.setArrival_only ?_ (by decide)
    | fail_if_no_progress with_reducible refine OnlyM.lit_fabArrOrder ?_ (by decide)
    | with_reducible refine OnlyM.ofPair (by assumption) ?_
    | with_reducible apply OnlyP.fst
    | split

@[simp] theorem frames_hole (port : PortNo) (hdr : Line16) (sub : Line16) : Frames (.hole port hdr sub) := by
  intro s
  delta exec writes execHole
  dsimp only
  repeat' first
    | with_reducible exact .refl _ _
    | with_reducible apply GoesOn.next
    | with_reducible refine State.arriveData_only ?_ (by decide)
    | with_reducible refine State.collGroup_only ?_ (by decide)
    | with_reducible refine State.setArrival_only ?_ (by decide)
    | with_reducible refine OnlyM.ofPair (by assumption) ?_
    | with_reducible apply OnlyP.fst
    | split

@[simp] theorem frames_collDeadline (group : Nat) (beat : Nat) : Frames (.collDeadline group beat) := by
  intro s
  delta exec writes execCollDeadline
  dsimp only
  repeat' first
    | with_reducible exact .refl _ _
    | with_reducible apply GoesOn.next
    | with_reducible refine State.setArrival_only ?_ (by decide)
    | intro _
    | with_reducible apply OnlyM.foldl
    | split

@[simp] theorem frames_carouselSlotStart (slot : Fin 64) : Frames (.carouselSlotStart slot) := by
  intro s
  delta exec writes execCarouselSlotStart
  dsimp only
  exact .next (State.openSlot_only (.refl _ s) (by decide))

@[simp] theorem frames_collComplete (group : Nat) (beat : Nat) : Frames (.collComplete group beat) := by
  intro s
  delta exec writes execCollComplete
  dsimp only
  repeat' first
    | with_reducible exact .refl _ _
    | with_reducible apply GoesOn.next
    | with_reducible refine State.collEnd_only ?_ (by decide)
    | split

@[simp] theorem frames_coll (o : Origin) (d : Line64) : Frames (.coll o d) := by
  intro s
  delta exec writes execColl
  dsimp only
  exact .next (State.acceptColl_only (.refl _ s) (by decide))

@[simp] theorem frames_syncReceive (from_ : Neighbour) (hdr : Line16) (payload : Line32) (rx16 : Nat) : Frames
    (.syncReceive from_ hdr payload rx16) := by
  intro s
  delta exec writes execSyncReceive
  dsimp only
  repeat' first
    | with_reducible exact .refl _ _
    | with_reducible apply GoesOn.next
    | with_reducible refine State.arrive_only ?_ (by decide)
    | with_reducible refine State.hearSync_only ?_ (by decide)
    | with_reducible apply OnlyP.fst
    | split

@[simp] theorem frames_beatLoss (cause : BeatLossCause) : Frames (.beatLoss cause) := by
  intro s
  delta exec writes execBeatLoss
  dsimp only
  repeat' first
    | with_reducible exact .refl _ _
    | with_reducible apply GoesOn.next
    | with_reducible apply OnlyM.ite
    | with_reducible refine State.setBeatSt_only ?_ (by decide)
    | with_reducible refine State.setBeat_only ?_ (by decide)
    | with_reducible refine State.count_only ?_ (by decide)
    | with_reducible refine State.incident_only ?_ (by decide)
    | with_reducible refine State.windowsLost_only ?_ (by decide)
    | with_reducible refine State.collsLost_only ?_ (by decide)
    | with_reducible refine State.voidSteps_only ?_ (by decide)

@[simp] theorem frames_progLoad (o : Origin) (d : Line64) (image : Bytes) : Frames (.progLoad o d image) := by
  intro s
  delta exec writes execProgLoad
  dsimp only
  exact .next (State.acceptProgLoad_only (.refl _ s) (by decide))

@[simp] theorem frames_stepOpIssue (group : Nat) (l : List TokenWrite) : Frames (.stepOpIssue group l) := by
  intro s
  delta exec writes execStepOpIssue
  dsimp only
  repeat' first
    | with_reducible exact .refl _ _
    | with_reducible apply GoesOn.next
    | with_reducible apply OnlyM.ite
    | (with_reducible apply State.issueOp_only; on_goal 2 => decide)
    | (with_reducible apply State.updGroup_only; on_goal 2 => decide)
    | (with_reducible apply State.stepWrite_only; on_goal 2 => decide)
    | intro _
    | with_reducible apply OnlyM.foldl
    | split

@[simp] theorem frames_stepComplete (group : Nat) : Frames (.stepComplete group) := by
  intro s
  delta exec writes execStepComplete
  dsimp only
  repeat' first
    | with_reducible exact .refl _ _
    | with_reducible apply GoesOn.next
    | with_reducible refine State.countVoid_only ?_ (by decide)
    | with_reducible refine State.dropCows_only ?_ (by decide)
    | with_reducible refine State.memberEnd_only ?_ (by decide)
    | with_reducible refine State.stepRecords_only ?_ (by decide)
    | fail_if_no_progress with_reducible refine OnlyM.lit_docCgroups ?_ (by decide)
    | fail_if_no_progress with_reducible refine OnlyM.lit_docGroups ?_ (by decide)
    | intro _
    | with_reducible apply OnlyM.foldl
    | with_reducible apply OnlyP.foldl
    | with_reducible apply OnlyP.fst
    | with_reducible apply OnlyP.mk'
    | split

@[simp] theorem frames_carmineRecordRelease (cgroup : Fin 256) : Frames (.carmineRecordRelease cgroup) := by
  intro s
  delta exec writes execCarmineRecordRelease
  dsimp only
  repeat' first
    | with_reducible exact .refl _ _
    | with_reducible apply GoesOn.next
    | with_reducible refine State.stepRecords_only ?_ (by decide)
    | fail_if_no_progress with_reducible refine OnlyM.lit_docCgroups ?_ (by decide)
    | intro _
    | with_reducible apply OnlyM.foldl
    | split

@[simp] theorem frames_descriptorReadDone (ring : RingNo) (ds : List Fetched) : Frames (.descriptorReadDone ring ds) := by
  intro s
  delta exec writes execDescriptorReadDone
  dsimp only
  repeat' first
    | with_reducible exact .refl _ _
    | with_reducible apply GoesOn.next
    | with_reducible refine State.fetchEntries_only ?_ (by decide)
    | with_reducible refine State.entriesGone_only ?_ (by decide)
    | split

@[simp] theorem frames_hostReadFault (what : HostRead) (completerAbort : Bool) : Frames (.hostReadFault what
    completerAbort) := by
  intro s
  delta exec writes execHostReadFault
  dsimp only
  exact .next (State.readFault_only (.refl _ s) (by decide))

@[simp] theorem frames_hostReadTimeout (what : HostRead) : Frames (.hostReadTimeout what) := by
  intro s
  delta exec writes execHostReadTimeout
  dsimp only
  exact .next (State.readFault_only (.refl _ s) (by decide))

@[simp] theorem frames_beatBoundary : Frames .beatBoundary := by
  intro s
  delta exec writes execBeatBoundary
  dsimp only
  exact .next (.ite (State.boundary_only (State.nextCount_only (.refl _ s) (by decide)) (by decide)) (.refl _ s))

@[simp] theorem frames_localTick : Frames .localTick := by
  intro s
  delta exec writes execLocalTick
  dsimp only
  repeat' first
    | with_reducible exact .refl _ _
    | with_reducible apply GoesOn.next
    | with_reducible refine State.sendOwed_only ?_ (by decide)
    | with_reducible refine State.ringMessages_only ?_ (by decide)
    | with_reducible refine State.incidentBeat_only ?_ (by decide)
    | with_reducible refine State.tickInterrupts_only ?_ (by decide)
    | with_reducible refine State.evalThermal_only ?_ (by decide)
    | with_reducible refine State.accrueDebt_only ?_ (by decide)
    | fail_if_no_progress with_reducible refine OnlyM.lit_catWbeat ?_ (by decide)
    | split

@[simp] theorem frames_holdEntry : Frames .holdEntry := by
  intro s
  delta exec writes execHoldEntry
  dsimp only
  repeat' first
    | with_reducible exact .refl _ _
    | with_reducible apply GoesOn.next
    | with_reducible refine State.enterHold_only ?_ (by decide)
    | split

@[simp] theorem frames_orderlyHold (func : GalNo) (word : Word) : Frames (.orderlyHold func word) := by
  intro s
  delta exec writes execOrderlyHold
  dsimp only
  exact .next (.ite (State.writeGlbCmd_only (.refl _ s) (by decide)) (.refl _ s))

@[simp] theorem frames_commitCheckDone : Frames .commitCheckDone := by
  intro s
  delta exec writes execCommitCheckDone
  dsimp only
  repeat' first
    | with_reducible exact .refl _ _
    | with_reducible apply GoesOn.next
    | with_reducible refine State.commitPass_only ?_ (by decide +kernel)
    | with_reducible refine State.commitFail_only ?_ (by decide +kernel)
    | split

@[simp] theorem frames_configurationCommit (func : GalNo) (word : Word) : Frames (.configurationCommit func word) := by
  intro s
  delta exec writes execConfigurationCommit
  dsimp only
  exact .next (.ite (State.writeCommit_only (.refl _ s) (by decide)) (.refl _ s))

@[simp] theorem frames_beatUnitStart (func : GalNo) (word : Word) : Frames (.beatUnitStart func word) := by
  intro s
  delta exec writes execBeatUnitStart
  dsimp only
  exact .next (.ite (State.writeBeatCtrl_only (.refl _ s) (by decide)) (.refl _ s))

@[simp] theorem frames_beatUnitStop (func : GalNo) (word : Word) : Frames (.beatUnitStop func word) := by
  intro s
  delta exec writes execBeatUnitStop
  dsimp only
  exact .next (.ite (State.writeBeatCtrl_only (.refl _ s) (by decide)) (.refl _ s))

@[simp] theorem frames_vfFunctionLevelReset (vf : GalNo) : Frames (.vfFunctionLevelReset vf) := by
  intro s
  delta exec writes execVfFunctionLevelReset
  dsimp only
  exact .next (.ite (State.galleryReset_only (State.tdiFails_only (.refl _ s) (by decide +kernel)) (by decide +kernel)) (.refl _ s))

@[simp] theorem frames_vfResetComplete (vf : GalNo) : Frames (.vfResetComplete vf) := by
  intro s
  delta exec writes execVfResetComplete
  dsimp only
  repeat' first
    | with_reducible exact .refl _ _
    | with_reducible apply GoesOn.next
    | with_reducible apply OnlyM.ite
    | with_reducible refine State.clearGalleryCounters_only ?_ (by decide)
    | fail_if_no_progress with_reducible refine OnlyM.lit_hifInReset ?_ (by decide)

@[simp] theorem frames_pfResetOrLinkLoss : Frames .pfResetOrLinkLoss := by
  intro s
  delta exec writes execPfResetOrLinkLoss
  dsimp only
  repeat' first
    | with_reducible exact .refl _ _
    | with_reducible apply GoesOn.next
    | with_reducible refine State.tdiFails_only ?_ (by decide)
    | with_reducible refine State.galleriesReset_only ?_ (by decide)
    | with_reducible refine State.abandon_only ?_ (by decide)
    | with_reducible refine State.enterHold_only ?_ (by decide)
    | fail_if_no_progress with_reducible refine OnlyM.lit_hifOwed_docOwedNotices ?_ (by decide)
    | intro _
    | with_reducible apply OnlyM.foldl
    | split

@[simp] theorem frames_deviceReset (perst : Bool) (helper : HelperState) (rpmcTagsOk : Bool) (strapPos : BitVec 7)
    (strapSmba : BitVec 3) : Frames (.deviceReset perst helper rpmcTagsOk strapPos strapSmba) := by
  intro s
  delta exec writes execDeviceReset
  dsimp only
  repeat' first
    | with_reducible exact .refl _ _
    | with_reducible apply GoesOn.next
    | with_reducible refine State.resetDevice_only ?_ (by decide +kernel)
    | with_reducible refine State.seedStep_only ?_ (by decide +kernel)
    | fail_if_no_progress with_reducible refine OnlyM.lit_ctlStrapPos_ctlStrapSmba_ctlThermTrip ?_ (by decide +kernel)
    | split

@[simp] theorem frames_pwrgdFall : Frames .pwrgdFall := by
  intro s
  delta exec writes execPwrgdFall
  dsimp only
  repeat' first
    | with_reducible exact .refl _ _
    | with_reducible apply GoesOn.next
    | with_reducible refine State.resetDevice_only ?_ (by decide +kernel)
    | fail_if_no_progress with_reducible refine OnlyM.lit_ctlPower_ctlThermTrip ?_ (by decide +kernel)

@[simp] theorem frames_bootImageVerified (slotA slotB : ImageInfo) : Frames (.bootImageVerified slotA slotB) := by
  intro s
  delta exec writes execBootImageVerified
  dsimp only
  repeat' first
    | with_reducible exact .refl _ _
    | with_reducible apply GoesOn.next
    | with_reducible refine State.chooseSlot_only ?_ (by decide)
    | with_reducible refine State.startImage_only ?_ (by decide)
    | with_reducible refine State.secFail_only ?_ (by decide)
    | with_reducible apply OnlyP.fst
    | split

@[simp] theorem frames_channelTrainingDone (plinths : List PlinthTraining) : Frames (.channelTrainingDone plinths) := by
  intro s
  delta exec writes
  dsimp only
  unfold execChannelTrainingDone
  split
  · exact .next (.refl _ s)
  · extract_lets s1 ctl s2
    have h1 : OnlyM (mask (writes (.channelTrainingDone plinths))) s s1 := by
      simp only [writes]
      exact .foldl (State.applyRecord_only (.refl _ s) (by decide +kernel)) fun u x =>
        State.trainPlinth_only (.refl _ u) (by decide +kernel)
    simp only [writes] at h1
    have h2 := OnlyM.lit_mem_chk_ctlBootStep_ctlRepDirty (x2 := 4) (x3 := true) (x1 := []) h1 (by decide +kernel) (Memory.filter_wf (p := fun c => decide (chanBase 2112 ≤ c.1)))
    exact .next (.ite (OnlyM.lit_ctlSt (t := s2) h2 (by decide +kernel)) (State.enterHold_only (t := s2) h2 (by decide +kernel)))

@[simp] theorem frames_selfTestDone (fails : List SelfTestFail) (annexFailed : Bool) : Frames (.selfTestDone fails
    annexFailed) := by
  intro s
  delta exec writes execSelfTestDone
  dsimp only
  repeat' first
    | with_reducible exact .refl _ _
    | with_reducible apply GoesOn.next
    | with_reducible refine State.selfTestFail_only ?_ (by decide)
    | with_reducible refine State.setField_only ?_ (by decide)
    | with_reducible refine State.enterHold_only ?_ (by decide)
    | fail_if_no_progress with_reducible refine OnlyM.lit_annexFail ?_ (by decide)
    | fail_if_no_progress with_reducible refine OnlyM.lit_ctlBootStep ?_ (by decide)
    | intro _
    | with_reducible apply OnlyM.foldl
    | split

@[simp] theorem frames_thermalSample (samples : List ThermSample) : Frames (.thermalSample samples) := by
  intro s
  delta exec writes execThermalSample
  dsimp only
  repeat' first
    | with_reducible exact .refl _ _
    | with_reducible apply GoesOn.next
    | with_reducible apply OnlyM.ite
    | with_reducible refine State.takeSample_only ?_ (by decide)
    | with_reducible refine State.thermalStop_only ?_ (by decide)
    | fail_if_no_progress with_reducible refine OnlyM.lit_ctlThermTrip ?_ (by decide)
    | intro _
    | with_reducible apply OnlyM.foldl

@[simp] theorem frames_sysclkLoss : Frames .sysclkLoss := by
  intro s
  delta exec writes execSysclkLoss
  dsimp only
  repeat' first
    | with_reducible exact .refl _ _
    | with_reducible apply GoesOn.next
    | with_reducible apply OnlyM.ite
    | with_reducible refine State.emit_only ?_ (by decide)
    | fail_if_no_progress with_reducible refine OnlyM.lit_ctlPower_secEvents ?_ (by decide)

@[simp] theorem frames_brlclkLoss : Frames .brlclkLoss := by
  intro s
  delta exec writes execBrlclkLoss
  dsimp only
  repeat' first
    | with_reducible exact .refl _ _
    | with_reducible apply GoesOn.next
    | with_reducible refine State.portDown_only ?_ (by decide)
    | with_reducible refine State.portTo_only ?_ (by decide)
    | with_reducible refine State.emit_only ?_ (by decide)
    | fail_if_no_progress with_reducible refine OnlyM.lit_secEvents ?_ (by decide)
    | intro _
    | with_reducible apply OnlyM.foldl
    | split

@[simp] theorem frames_pcieLinkTrained (width : Nat) (rate : Nat) (flit : Bool) : Frames (.pcieLinkTrained width rate
    flit) := by
  intro s
  delta exec writes execPcieLinkTrained
  dsimp only
  repeat' first
    | with_reducible exact .refl _ _
    | with_reducible apply GoesOn.next
    | with_reducible apply OnlyM.ite
    | fail_if_no_progress with_reducible refine OnlyM.lit_hifLinkWidth_hifLinkRate_hifLinkFlit ?_ (by decide)

@[simp] theorem frames_commit (func : GalNo) (word : Word) : Frames (.commit func word) := by
  intro s
  delta exec writes execCommit
  dsimp only
  exact .next (.ite (State.writeFwCmd_only (.refl _ s) (by decide)) (.refl _ s))

@[simp] theorem frames_revert (func : GalNo) (word : Word) : Frames (.revert func word) := by
  intro s
  delta exec writes execRevert
  dsimp only
  exact .next (.ite (State.writeFwCmd_only (.refl _ s) (by decide)) (.refl _ s))

@[simp] theorem frames_debugApertureAccess (offset : Nat) (len : Nat) (write : Option Bytes) : Frames
    (.debugApertureAccess offset len write) := by
  intro s
  delta exec writes execDebugApertureAccess
  dsimp only
  repeat' first
    | with_reducible exact .refl _ _
    | with_reducible apply GoesOn.next
    | with_reducible refine State.debugWrite_only ?_ (by decide)
    | with_reducible refine State.debugRead_only ?_ (by decide)
    | with_reducible refine State.emit_only ?_ (by decide)
    | with_reducible refine State.count_only ?_ (by decide)
    | with_reducible apply OnlyP.fst
    | split

@[simp] theorem frames_mctpMessage (transport : Transport) (sensor : Nat) : Frames (.mctpMessage transport sensor) := by
  intro s
  delta exec writes execMctpMessage
  dsimp only
  repeat' first
    | with_reducible exact .refl _ _
    | with_reducible apply GoesOn.next
    | with_reducible apply OnlyM.ite
    | with_reducible refine State.emit_only ?_ (by decide)
    | with_reducible refine State.draw_only ?_ (by decide)
    | fail_if_no_progress with_reducible refine OnlyM.lit_secEvents ?_ (by decide)

@[simp] theorem frames_pldmFirmwareUpdate (transport : Transport) (session : Nat) (chunk : Option (Nat × Bytes)) :
    Frames (.pldmFirmwareUpdate transport session chunk) := by
  intro s
  delta exec writes execPldmFirmwareUpdate
  dsimp only
  repeat' first
    | with_reducible exact .refl _ _
    | with_reducible apply GoesOn.next
    | with_reducible refine State.emit_only ?_ (by decide)
    | with_reducible refine State.writeSlot_only ?_ (by decide)
    | fail_if_no_progress with_reducible refine OnlyM.lit_secUpdate ?_ (by decide)
    | split

@[simp] theorem frames_activateFirmware (session : Nat) (image : ImageInfo) : Frames (.activateFirmware session image)
    := by
  intro s
  delta exec writes execActivateFirmware
  dsimp only
  repeat' first
    | with_reducible exact .refl _ _
    | with_reducible apply GoesOn.next
    | with_reducible refine State.emit_only ?_ (by decide)
    | with_reducible refine State.setDir_only ?_ (by decide)
    | fail_if_no_progress with_reducible refine OnlyM.lit_secUpdate ?_ (by decide)
    | split

@[simp] theorem frames_getVersion (transport : Transport) : Frames (.getVersion transport) := by
  intro s
  delta exec writes execGetVersion
  dsimp only
  exact .next (.ite (State.setSpdm_only (State.answer_only (.refl _ s) (by decide)) (by decide)) (.refl _ s))

@[simp] theorem frames_getCapabilities (transport : Transport) : Frames (.getCapabilities transport) := by
  intro s
  delta exec writes execGetCapabilities
  dsimp only
  refine .next (State.spdmServe_only (.refl _ s) (by decide) fun u => ?_)
  repeat' first
    | with_reducible exact .refl _ _
    | with_reducible refine State.setSpdm_only ?_ (by decide)
    | with_reducible refine State.answer_only ?_ (by decide)

@[simp] theorem frames_negotiateAlgorithms (transport : Transport) : Frames (.negotiateAlgorithms transport) := by
  intro s
  delta exec writes execNegotiateAlgorithms
  dsimp only
  refine .next (State.spdmServe_only (.refl _ s) (by decide) fun u => ?_)
  repeat' first
    | with_reducible exact .refl _ _
    | with_reducible refine State.setSpdm_only ?_ (by decide)
    | with_reducible refine State.answer_only ?_ (by decide)

@[simp] theorem frames_getDigests (transport : Transport) : Frames (.getDigests transport) := by
  intro s
  delta exec writes execGetDigests
  dsimp only
  refine .next (State.spdmServe_only (.refl _ s) (by decide) fun u => ?_)
  repeat' first
    | with_reducible exact .refl _ _
    | with_reducible refine State.answer_only ?_ (by decide)

@[simp] theorem frames_getCertificate (transport : Transport) (slot : Fin 8) (offset length : Nat) : Frames
    (.getCertificate transport slot offset length) := by
  intro s
  delta exec writes execGetCertificate
  dsimp only
  refine .next (State.spdmServe_only (.refl _ s) (by decide) fun u => ?_)
  repeat' first
    | with_reducible exact .refl _ _
    | with_reducible refine State.answerError_only ?_ (by decide)
    | with_reducible refine State.answer_only ?_ (by decide)
    | with_reducible refine State.take_only ?_ (by decide)
    | split

@[simp] theorem frames_challenge (transport : Transport) (slot : Fin 8) (nonce : Bytes) : Frames (.challenge transport
    slot nonce) := by
  intro s
  delta exec writes execChallenge
  dsimp only
  refine .next (State.spdmServe_only (.refl _ s) (by decide) fun u => ?_)
  repeat' first
    | with_reducible exact .refl _ _
    | with_reducible refine State.answerError_only ?_ (by decide)
    | with_reducible refine State.answer_only ?_ (by decide)
    | split

@[simp] theorem frames_getMeasurements (transport : Transport) (index : Nat) : Frames (.getMeasurements transport
    index) := by
  intro s
  delta exec writes execGetMeasurements
  dsimp only
  refine .next (State.spdmServe_only (.refl _ s) (by decide) fun u => ?_)
  repeat' first
    | with_reducible exact .refl _ _
    | with_reducible apply OnlyM.ite
    | with_reducible refine State.answer_only ?_ (by decide)
    | with_reducible refine State.answerError_only ?_ (by decide)

@[simp] theorem frames_keyExchange (transport : Transport) (exchange : Bytes) : Frames (.keyExchange transport
    exchange) := by
  intro s
  delta exec writes execKeyExchange
  dsimp only
  refine .next (State.spdmServe_only (.refl _ s) (by decide) fun u => ?_)
  repeat' first
    | with_reducible exact .refl _ _
    | with_reducible refine State.answerError_only ?_ (by decide)
    | with_reducible refine State.setSession_only ?_ (by decide)
    | with_reducible refine State.answer_only ?_ (by decide)
    | split

@[simp] theorem frames_finish (session : Fin 4) (verified : Bool) : Frames (.finish session verified) := by
  intro s
  delta exec writes execFinish
  dsimp only
  repeat' first
    | with_reducible exact .refl _ _
    | with_reducible apply GoesOn.next
    | with_reducible apply OnlyM.ite
    | with_reducible refine State.draw_only ?_ (by decide)
    | with_reducible refine State.setSession_only ?_ (by decide)
    | with_reducible refine State.answer_only ?_ (by decide)
    | with_reducible refine State.answerError_only ?_ (by decide)

@[simp] theorem frames_keyUpdate (session : Fin 4) : Frames (.keyUpdate session) := by
  intro s
  delta exec writes execKeyUpdate
  dsimp only
  exact .next (.ite (State.setSession_only (State.answer_only (.refl _ s) (by decide)) (by decide)) (.refl _ s))

@[simp] theorem frames_heartbeat (session : Fin 4) : Frames (.heartbeat session) := by
  intro s
  delta exec writes execHeartbeat
  dsimp only
  exact .next (.ite (State.answer_only (.refl _ s) (by decide)) (.refl _ s))

@[simp] theorem frames_endSession (session : Fin 4) : Frames (.endSession session) := by
  intro s
  delta exec writes execEndSession
  dsimp only
  exact .next (.ite (State.setSession_only (State.answer_only (.refl _ s) (by decide)) (by decide)) (.refl _ s))

@[simp] theorem frames_setCertificate (session : Fin 4) (slot : Fin 8) (chain : Bytes) : Frames (.setCertificate
    session slot chain) := by
  intro s
  delta exec writes execSetCertificate
  dsimp only
  repeat' first
    | with_reducible exact .refl _ _
    | with_reducible apply GoesOn.next
    | with_reducible apply OnlyM.ite
    | with_reducible refine State.answer_only ?_ (by decide)
    | with_reducible refine State.answerError_only ?_ (by decide)
    | fail_if_no_progress with_reducible refine OnlyM.lit_flashCert1 ?_ (by decide)

@[simp] theorem frames_debugUnlock (session : Fin 4) (nonce : Bytes) (kidx : Fin 4) (identityOk sigOk : Bool) : Frames
    (.debugUnlock session nonce kidx identityOk sigOk) := by
  intro s
  delta exec writes execDebugUnlock
  dsimp only
  repeat' first
    | with_reducible exact .refl _ _
    | with_reducible apply GoesOn.next
    | with_reducible apply OnlyM.ite
    | with_reducible refine State.setSession_only ?_ (by decide)
    | with_reducible refine State.tdisError_only ?_ (by decide)
    | with_reducible refine State.answer_only ?_ (by decide)
    | with_reducible refine State.answerError_only ?_ (by decide)
    | fail_if_no_progress with_reducible refine OnlyM.lit_secDebug ?_ (by decide)

@[simp] theorem frames_macsecKeyInstall (session : Fin 4) (plane : Fin 8) (assoc : Bool) (key : BitVec 256)   (effect
    : Option (BitVec 64)) : Frames (.macsecKeyInstall session plane assoc key effect) := by
  intro s
  delta exec writes execMacsecKeyInstall
  dsimp only
  repeat' first
    | with_reducible exact .refl _ _
    | with_reducible apply GoesOn.next
    | with_reducible refine State.answerError_only ?_ (by decide)
    | with_reducible refine State.raiseNotice_only ?_ (by decide)
    | with_reducible refine State.answer_only ?_ (by decide)
    | fail_if_no_progress with_reducible refine OnlyM.lit_fabMacsec ?_ (by decide)
    | split

@[simp] theorem frames_ideKm (session : Fin 4) (stream : Fin 5) (key : BitVec 256) (vfs : List GalNo) : Frames (.ideKm
    session stream key vfs) := by
  intro s
  delta exec writes execIdeKm
  dsimp only
  repeat' first
    | with_reducible exact .refl _ _
    | with_reducible apply GoesOn.next
    | with_reducible apply OnlyM.ite
    | with_reducible refine State.answer_only ?_ (by decide)
    | fail_if_no_progress with_reducible refine OnlyM.lit_secIdes ?_ (by decide)

@[simp] theorem frames_ideIntegrityFailure (stream : Fin 5) : Frames (.ideIntegrityFailure stream) := by
  intro s
  delta exec writes execIdeIntegrityFailure
  dsimp only
  repeat' first
    | with_reducible exact .refl _ _
    | with_reducible apply GoesOn.next
    | with_reducible apply OnlyM.ite
    | with_reducible refine State.tdisError_only ?_ (by decide)
    | fail_if_no_progress with_reducible refine OnlyM.lit_secIdes ?_ (by decide)

@[simp] theorem frames_lockInterface (vf : GalNo) : Frames (.lockInterface vf) := by
  intro s
  delta exec writes execLockInterface
  dsimp only
  exact .next (State.tdisp_only (.refl _ s) (by decide))

@[simp] theorem frames_startInterface (vf : GalNo) : Frames (.startInterface vf) := by
  intro s
  delta exec writes execStartInterface
  dsimp only
  exact .next (State.tdisp_only (.refl _ s) (by decide))

@[simp] theorem frames_stopInterface (vf : GalNo) : Frames (.stopInterface vf) := by
  intro s
  delta exec writes execStopInterface
  dsimp only
  exact .next (State.tdisp_only (.refl _ s) (by decide))

@[simp] theorem frames_counterPairRead (func : GalNo) (offset : Nat) (len : Nat) : Frames (.counterPairRead func
    offset len) := by
  intro s
  delta exec writes execCounterPairRead
  dsimp only
  repeat' first
    | with_reducible exact .refl _ _
    | with_reducible apply GoesOn.next
    | with_reducible apply OnlyM.ite
    | with_reducible refine State.emit_only ?_ (by decide)
    | with_reducible refine State.pairRead_only ?_ (by decide)
    | with_reducible refine State.draw_only ?_ (by decide)
    | with_reducible apply OnlyP.fst

@[simp] theorem frames_registerWrite (func : GalNo) (offset : Nat) (data : Bytes) (allEnabled : Bool) : Frames
    (.registerWrite func offset data allEnabled) := by
  intro s
  delta exec writes execRegisterWrite
  dsimp only
  repeat' first
    | with_reducible exact .refl _ _
    | with_reducible apply GoesOn.next
    | with_reducible apply OnlyM.ite
    | with_reducible refine State.refuseWrite_only ?_ (by decide +kernel)
    | with_reducible refine State.writeWord_only ?_ (by decide +kernel)

/-- Every command goes on within its frame. -/
theorem frames (c : Instr) : Frames c := by cases c <;> simp

end Sys2Proof.Machine

end

section
namespace Sys2Proof.Machine

/-! ### The programmed RPMC (R438) -/

/-- The root key of the RPMC is as it was and none of its counters has fallen. -/
structure State.RpmcRises (s t : State) : Prop where
  key : t.sec.flash.rpmcKey = s.sec.flash.rpmcKey
  counter : ∀ k, k < 5 → s.rpmc k ≤ t.rpmc k

theorem State.RpmcRises.of_eq {s t : State} (hkey : t.sec.flash.rpmcKey = s.sec.flash.rpmcKey)
    (hrpmc : t.sec.flash.rpmc = s.sec.flash.rpmc) : s.RpmcRises t :=
  ⟨hkey, fun k _ => by rw [State.rpmc, State.rpmc, hrpmc]⟩

theorem State.RpmcRises.refl (s : State) : s.RpmcRises s := .of_eq rfl rfl

theorem State.RpmcRises.trans {s t u : State} (h : s.RpmcRises t) (k : t.RpmcRises u) : s.RpmcRises u :=
  ⟨k.key.trans h.key, fun i hi => (h.counter i hi).trans (k.counter i hi)⟩

theorem State.RpmcRises.rollback {n k : Nat} {s t : State} (h : s.RpmcRises t) (hk : k < 5) (hs : s.Rollback n k) :
    t.Rollback n k :=
  ⟨h.key.trans hs.1, hs.2.trans (h.counter k hk)⟩

theorem OnlyM.rpmcRises {m : Nat} {s t : State} (h : OnlyM m s t)
    (e : [Leaf.flashRpmc, .flashRpmcKey].all (fun p => !m.testBit p.ctorIdx) = true) : s.RpmcRises t := by
  simp only [List.all_cons, List.all_nil, Bool.and_true, Bool.and_eq_true, Bool.not_eq_true'] at e
  exact .of_eq (h.sec.flash.rpmcKey.resolve_left fun k => Bool.false_ne_true (e.2.symm.trans k))
    (h.sec.flash.rpmc.resolve_left fun k => Bool.false_ne_true (e.1.symm.trans k))

@[simp] theorem State.setDir_rpmcKey (s : State) (a b c : Bool) :
    (s.setDir a b c).sec.flash.rpmcKey = s.sec.flash.rpmcKey := rfl
@[simp] theorem State.setDir_rpmc (s : State) (a b c : Bool) : (s.setDir a b c).sec.flash.rpmc = s.sec.flash.rpmc := rfl

/-- What a COMMIT makes of one counter. -/
theorem State.commitImage_rpmc (s : State) (i : ImageInfo) {k : Nat} (hk : k < 5) :
    (s.commitImage i).rpmc k = if k = 0 then max (s.rpmc k) i.svn.toNat
      else if i.revoke.getLsbD (k - 1) && i.kidx.val != k - 1 then s.rpmc k + 1 else s.rpmc k := by
  simp [State.rpmc, State.commitImage, hk]

theorem State.commitImage_rpmcRises (s : State) (i : ImageInfo) : s.RpmcRises (s.commitImage i) := by
  refine ⟨rfl, fun k hk => ?_⟩
  rw [State.commitImage_rpmc s i hk]
  split
  · exact Nat.le_max_left _ _
  · split <;> omega

theorem State.writeFwCmd_rpmcRises (s : State) (func : Nat) (w : Word) : s.RpmcRises (s.writeFwCmd func w) := by
  unfold State.writeFwCmd
  split
  · split
    · exact s.commitImage_rpmcRises _
    · exact (State.refuseWrite_only (.refl _ s) (Nat.or_self _)).rpmcRises (by decide)
  · exact .of_eq rfl rfl
  · exact .refl s

theorem State.writePf_rpmcRises (s : State) (off : Nat) (w : Word) : s.RpmcRises (s.writePf off w) := by
  by_cases hfw : ∃ x, regAt off = some x ∧ x.1.reg = .secFwCmd
  · obtain ⟨x, hx, hreg⟩ := hfw
    have e : s.writePf off w = s.writeFwCmd 0 w := by simp only [State.writePf, hx, hreg]
    exact e ▸ s.writeFwCmd_rpmcRises 0 w
  · refine OnlyM.rpmcRises (m := leavesBut .flashRpmc &&& leavesBut .flashRpmcKey) ?_ (by decide)
    unfold State.writePf
    repeat' first
      | with_reducible exact .refl _ _
      | extract_lets
      | with_reducible apply OnlyM.ite
      | with_reducible refine State.clearWerr_only ?_ (by decide)
      | with_reducible refine State.writeCommit_only ?_ (by decide)
      | with_reducible refine State.writeGlbCmd_only ?_ (by decide)
      | with_reducible refine State.writeRcfg_only ?_ (by decide)
      | with_reducible refine State.writeBeatCtrl_only ?_ (by decide)
      | with_reducible refine State.writeCount_only ?_ (by decide)
      | with_reducible refine State.repairCommand_only ?_ (by decide)
      | with_reducible refine State.takeSnapshot_only ?_ (by decide)
      | with_reducible refine State.readCommand_only ?_ (by decide)
      | with_reducible refine State.mark_only ?_ (by decide)
      | with_reducible refine State.traceCommand_only ?_ (by decide)
      | with_reducible refine State.incidentEnable_only ?_ (by decide)
      | with_reducible refine State.fenceCommand_only ?_ (by decide)
      | with_reducible refine State.clearSource_only ?_ (by decide)
      | with_reducible refine State.portsFollow_only ?_ (by decide)
      | with_reducible refine State.writeFields_only ?_ (by decide)
      | split
    exact absurd ⟨_, ‹regAt off = some _›, ‹_ = Reg.secFwCmd›⟩ hfw

theorem State.writeWord_rpmcRises (s : State) (func off : Nat) (w : Word) : s.RpmcRises (s.writeWord func off w) := by
  unfold State.writeWord
  repeat' first
    | exact s.writePf_rpmcRises off w
    | exact .refl s
    | exact (State.msixWrite_only (.refl _ s) (Nat.or_self _)).rpmcRises (by decide)
    | exact (State.writeVf_only (.refl _ s) (Nat.or_self _)).rpmcRises (by decide)
    | split

theorem exec_commit_rpmcRises (f : GalNo) (w : Word) (s t : State) (h : exec (.commit f w) s = .next t) : s.RpmcRises t := by
  obtain rfl : _ = t := Host.Outcome.next.inj h
  split
  · exact s.writeFwCmd_rpmcRises _ _
  · exact .refl s

theorem exec_revert_rpmcRises (f : GalNo) (w : Word) (s t : State) (h : exec (.revert f w) s = .next t) : s.RpmcRises t := by
  obtain rfl : _ = t := Host.Outcome.next.inj h
  split
  · exact s.writeFwCmd_rpmcRises _ _
  · exact .refl s

theorem exec_registerWrite_rpmcRises (f : GalNo) (off : Nat) (d : Bytes) (en : Bool) (s t : State)
    (h : exec (.registerWrite f off d en) s = .next t) : s.RpmcRises t := by
  obtain rfl : _ = t := Host.Outcome.next.inj h
  split
  · exact .refl s
  · split
    · split
      · exact .refl s
      · exact (State.refuseWrite_only (.refl _ s) (Nat.or_self _)).rpmcRises (by decide)
    · dsimp only
      split
      · exact (s.writeWord_rpmcRises _ _ _).trans (State.writeWord_rpmcRises _ _ _ _)
      · exact s.writeWord_rpmcRises _ _ _

/-- A reset programs the root key only where it is blank (R435). -/
theorem State.seedStep_flash (s : State) (x : HelperState) (tags : Bool) (h : s.sec.flash.rpmcKey = true) :
    (s.seedStep x tags).sec.flash = s.sec.flash := by
  unfold State.seedStep
  rw [h]
  cases x <;> cases tags <;> rfl

/-- The reset of a device whose helper data and key are blank programs the key (R435). -/
theorem State.seedStep_rpmcKey (s : State) (h : s.sec.flash.rpmcKey = false) (tags : Bool) :
    (s.seedStep .blank tags).sec.flash.rpmcKey = true := by
  rw [State.seedStep, h]
  rfl

/-- The device as a reset leaves it, before its seed is made out: the straps are sampled at power-up alone (R519). -/
def State.restarted (s : State) (perst : Bool) (pos : BitVec 7) (smba : BitVec 3) : State :=
  if perst then s.resetDevice
  else { s.resetDevice with ctl := { s.resetDevice.ctl with strapPos := pos, strapSmba := smba, thermTrip := false } }

theorem State.restarted_flash (s : State) (perst : Bool) (pos : BitVec 7) (smba : BitVec 3) :
    (s.restarted perst pos smba).sec.flash = s.sec.flash := by
  cases perst <;> rfl

theorem State.restarted_blank : (State.reset.restarted false 0 0).sec.flash.rpmcKey = false := by
  rw [State.restarted_flash]
  rfl

theorem exec_deviceReset {perst : Bool} {x : HelperState} {tags : Bool} {pos : BitVec 7} {smba : BitVec 3} {s : State}
    (h : ¬ (perst = true ∧ s.ctl.power = .held)) :
    exec (.deviceReset perst x tags pos smba) s = .next ((s.restarted perst pos smba).seedStep x tags) :=
  if_neg (by simpa using h)

theorem exec_deviceReset_enrols : exec (.deviceReset false .blank true 0 0) State.reset =
    .next ((State.reset.restarted false 0 0).seedStep .blank true) :=
  exec_deviceReset (by decide)

theorem exec_deviceReset_held {x : HelperState} {tags : Bool} {pos : BitVec 7} {smba : BitVec 3} {s : State}
    (h : s.ctl.power = .held) : exec (.deviceReset true x tags pos smba) s = .next s :=
  if_pos (by simp [h])

theorem exec_deviceReset_rpmcRises (p : Bool) (x : HelperState) (tags : Bool) (a : BitVec 7) (b : BitVec 3) (s t : State)
    (hkey : s.sec.flash.rpmcKey = true) (h : exec (.deviceReset p x tags a b) s = .next t) : s.RpmcRises t := by
  by_cases hheld : p = true ∧ s.ctl.power = .held
  · obtain ⟨rfl, hpower⟩ := hheld
    obtain rfl := Host.Outcome.next.inj ((exec_deviceReset_held hpower).symm.trans h)
    exact .refl s
  · obtain rfl := Host.Outcome.next.inj ((exec_deviceReset hheld).symm.trans h)
    have e := (State.seedStep_flash _ x tags ((s.restarted_flash p a b).symm ▸ hkey)).trans (s.restarted_flash p a b)
    exact .of_eq (congrArg Flash.rpmcKey e) (congrArg Flash.rpmc e)

/-- The commands whose frame holds a counter or the key of the RPMC. -/
theorem writes_rpmc {c : Instr} (h : .flashRpmc ∈ writes c ∨ .flashRpmcKey ∈ writes c) :
    (∃ f w, c = .commit f w) ∨ (∃ f w, c = .revert f w) ∨ (∃ f off d en, c = .registerWrite f off d en) ∨
      ∃ p x tags a b, c = .deviceReset p x tags a b := by
  cases c
  case commit f w => exact .inl ⟨f, w, rfl⟩
  case revert f w => exact .inr (.inl ⟨f, w, rfl⟩)
  case registerWrite f off d en => exact .inr (.inr (.inl ⟨f, off, d, en, rfl⟩))
  case deviceReset p x tags a b => exact .inr (.inr (.inr ⟨p, x, tags, a, b, rfl⟩))
  all_goals
    simp only [writes] at h
    exact absurd h (by decide +kernel)

/-- What a command leaves of the state, read off the frame. -/
theorem exec_only {c : Instr} {s t : State} (h : exec c s = .next t) : OnlyM (mask (writes c)) s t := by
  obtain ⟨u, hu, honly⟩ := frames c s
  obtain rfl := Host.Outcome.next.inj (hu.symm.trans h)
  exact honly

theorem exec_rpmcRises {c : Instr} {s t : State} (hkey : s.sec.flash.rpmcKey = true) (h : exec c s = .next t) :
    s.RpmcRises t := by
  by_cases hc : .flashRpmc ∈ writes c ∨ .flashRpmcKey ∈ writes c
  · obtain ⟨f, w, rfl⟩ | ⟨f, w, rfl⟩ | ⟨f, off, d, en, rfl⟩ | ⟨p, x, tags, a, b, rfl⟩ := writes_rpmc hc
    · exact exec_commit_rpmcRises f w s t h
    · exact exec_revert_rpmcRises f w s t h
    · exact exec_registerWrite_rpmcRises f off d en s t h
    · exact exec_deviceReset_rpmcRises p x tags a b s t hkey h
  · rw [not_or] at hc
    have hframe := (exec_only h).only
    exact .of_eq (hframe _ hc.2) (hframe _ hc.1)

/-- A step is idle, or exec of the command at the front of the queue. -/
theorem step_cases {s t : State} (h : step s = .next t) :
    t = s ∨ ∃ c rest, s.pending = c :: rest ∧ exec c { s with pending := rest } = .next t := by
  unfold step at h
  split at h
  · exact .inl (Host.Outcome.next.inj h).symm
  · exact .inr ⟨_, _, ‹_›, h⟩

end Sys2Proof.Machine

open Sys2Proof Sys2Proof.Machine

/-- Settles O5: the frame says it of every command but the four that write the RPMC, and of those each raises counters alone. -/
theorem rpmcNeverFalls : Obligations.RpmcNeverFalls := by
  unfold Obligations.RpmcNeverFalls
  intro n k s t hk hs hstep
  rcases step_cases hstep with rfl | ⟨c, rest, -, h⟩
  · exact hs
  · have hrest : State.Rollback n k { s with pending := rest } := hs
    exact (exec_rpmcRises hrest.1 h).rollback hk hrest

/-- Settles O6: the reset of a blank device programs the key. -/
theorem rpmcEnrolled : Obligations.RpmcEnrolled := by
  unfold Obligations.RpmcEnrolled
  exact ⟨_, exec_deviceReset_enrols, fun k _ => ⟨State.seedStep_rpmcKey _ State.restarted_blank true, Nat.zero_le _⟩⟩

/-- Settles O7: the frame of every command carries the canonical form of the memory. -/
theorem stepsKeepMemory : Obligations.StepsKeepMemory := by
  unfold Obligations.StepsKeepMemory
  intro s t hs hstep
  rcases step_cases hstep with rfl | ⟨c, rest, -, h⟩
  · exact hs
  · exact (exec_only h).memOk hs

/-- Settles O3: OnlyM of every command, read as State.Only. -/
theorem commandWrites : Obligations.CommandWrites :=
  fun _ _ _ h => (exec_only h).only

/-- Settles O1: step looks at the front of the queue alone. -/
theorem stepRunsFront : Obligations.StepRunsFront := by
  unfold Obligations.StepRunsFront
  refine ⟨fun _ _ _ => rfl, fun s h => ?_⟩
  rw [step, h]

/-- Settles O2: each command's frame comes with the state the command goes on to. -/
theorem everyCommandGoesOn : Obligations.EveryCommandGoesOn := by
  unfold Obligations.EveryCommandGoesOn
  intro c s
  obtain ⟨t, ht, -⟩ := frames c s
  exact ⟨t, ht⟩

end

section
namespace Sys2Proof.Machine

/-! ### The flash directory (R430) -/

theorem Flash.dirInUse_iff (f : Flash) :
    f.dirInUse = true ↔ f.dir1.valid = true ∧ (f.dir0.valid = false ∨ f.dir0.seq.toNat < f.dir1.seq.toNat) := by
  unfold Flash.dirInUse
  cases f.dir1.valid <;> cases f.dir0.valid <;> simp

/-- A change of the directory is in use from the next look on. -/
theorem Flash.setDir_dir {f : Flash} (h : f.dir.seq.toNat + 1 < 2 ^ 32) (active trial tries : Bool) :
    (f.setDir active trial tries).dir =
      { valid := true, seq := f.dir.seq + 1, active := active, trial := trial, tries := tries } := by
  have hseq : (f.dir.seq + 1).toNat = f.dir.seq.toNat + 1 := by
    rw [BitVec.toNat_add]
    exact Nat.mod_eq_of_lt h
  by_cases hu : f.dirInUse = true
  · have hold : (f.setDir active trial tries).dirInUse = false := by
      rw [Bool.eq_false_iff, ne_eq, Flash.dirInUse_iff, Flash.setDir, if_pos hu]
      rintro ⟨-, hv | hlt⟩
      · exact Bool.true_eq_false.mp hv
      · have hlt : (f.dir.seq + 1).toNat < f.dir1.seq.toNat := hlt
        rw [hseq, Flash.dir, if_pos hu] at hlt
        omega
    rw [Flash.dir, hold, Flash.setDir, if_pos hu]
    rfl
  · have hnew : (f.setDir active trial tries).dirInUse = true := by
      rw [Flash.dirInUse_iff, Flash.setDir, if_neg hu]
      refine ⟨rfl, .inr ?_⟩
      show f.dir0.seq.toNat < (f.dir.seq + 1).toNat
      rw [hseq, Flash.dir, if_neg hu]
      omega
    rw [Flash.dir, hnew, Flash.setDir, if_neg hu]
    rfl

theorem Flash.dir_congr {f g : Flash} (h0 : g.dir0 = f.dir0) (h1 : g.dir1 = f.dir1) : g.dir = f.dir := by
  rw [Flash.dir, Flash.dir, Flash.dirInUse, Flash.dirInUse, h0, h1]

theorem State.setDir_dir {s : State} (h : s.sec.flash.dir.seq.toNat + 1 < 2 ^ 32) (active trial tries : Bool) :
    (s.setDir active trial tries).sec.flash.dir =
      { valid := true, seq := s.sec.flash.dir.seq + 1, active := active, trial := trial, tries := tries } :=
  (Flash.dir_congr rfl rfl).trans (Flash.setDir_dir h active trial tries)

@[simp] theorem State.setDir_out (s : State) (a b c : Bool) : (s.setDir a b c).out = s.out := rfl

/-! ### Sensors and firmware updates (R436, R526) -/

/-- A message of the management controller's transports is answered. -/
theorem exec_mctpMessage {tr : Transport} (n : Nat) {s : State} (htr : tr ≠ .doe) (hup : s.transportUp tr = true) :
    exec (.mctpMessage tr n) s = .next (
      if n = 0 then State.emit { s with sec := { s.sec with events := s.sec.events - 1 } }
        (.answer tr pldmEvent (toLE 4 s.sec.events))
      else if n ≤ 33 then State.emit (s.draw 1) (.answer tr pldmReading (pldmOk :: toLE 4 (s.sensor n)))
      else s.emit (.answer tr pldmReading [pldmError])) := by
  simp [exec, execMctpMessage, htr, hup]

theorem State.sensor_junction (s : State) {p : Nat} (hp : p < 8) : s.sensor (p + 1) = (s.plinth p).tPmax := by
  rw [State.sensor, if_pos (by omega)]
  rfl

theorem State.sensor_stack (s : State) {p : Nat} (hp : p < 8) : s.sensor (p + 9) = (s.plinth p).tDmax := by
  rw [State.sensor, if_neg (by omega), if_pos (by omega)]
  rfl

theorem exec_mctpMessage_reading {tr : Transport} {n : Nat} {s : State} (htr : tr ≠ .doe) (hup : s.transportUp tr = true)
    (h0 : n ≠ 0) (hn : n ≤ 33) : exec (.mctpMessage tr n) s =
      .next (State.emit (s.draw 1) (.answer tr pldmReading (pldmOk :: toLE 4 (s.sensor n)))) := by
  rw [exec_mctpMessage n htr hup, if_neg h0, if_pos hn]

theorem exec_pldmFirmwareUpdate_request {tr : Transport} (n : Nat) {s : State} (htr : tr ≠ .doe)
    (hup : s.transportUp tr = true) (hon : s.ctl.power = .on) :
    exec (.pldmFirmwareUpdate tr n none) s = .next (
      if s.sec.update.isSome || s.sec.flash.dir.trial then s.emit (.answer tr pldmRequest [pldmBusy])
      else State.emit { s with sec := { s.sec with update := some (n, tr) } } (.answer tr pldmRequest [pldmOk])) := by
  simp [exec, execPldmFirmwareUpdate, htr, hup, hon]

theorem exec_pldmFirmwareUpdate_data {tr : Transport} {n o : Nat} {b : Bytes} {s : State} (htr : tr ≠ .doe)
    (hup : s.transportUp tr = true) (hon : s.ctl.power = .on) (hsession : s.sec.update = some (n, tr))
    (hfits : o + b.length ≤ 2 ^ 24) :
    exec (.pldmFirmwareUpdate tr n (some (o, b))) s = .next ((s.writeSlot o b).emit (.answer tr pldmData [pldmOk])) := by
  simp [exec, execPldmFirmwareUpdate, htr, hup, hon, hsession]
  omega

theorem exec_activateFirmware {tr : Transport} {n : Nat} (i : ImageInfo) {s : State} (hsession : s.sec.update = some (n, tr))
    (hup : s.transportUp tr = true) (hon : s.ctl.power = .on) :
    exec (.activateFirmware n i) s = .next (
      if s.imageOk i then State.emit (State.setDir { s with sec := { s.sec with update := none } }
        (!s.sec.flash.dir.active) true false) (.answer tr pldmActivate [pldmOk])
      else s.emit (.answer tr pldmActivate [pldmError])) := by
  simp [exec, execActivateFirmware, hsession, hup, hon]

end Sys2Proof.Machine

open Sys2Proof Sys2Proof.Machine

/-- Settles O55: the messages, the request of a session, its data, and the activation, one after the other. -/
theorem managementServes : Obligations.ManagementServes := by
  unfold Obligations.ManagementServes
  refine ⟨fun tr n s htr hup => ?_, fun tr n s htr hup hon => ?_, fun tr n o b s htr hup hon hsession hfits => ?_,
    fun tr n i s hsession hup hon hseq => ?_⟩
  · refine ⟨_, exec_mctpMessage n htr hup, fun h => ?_, fun p hp h => ?_, fun p hp h => ?_, fun hlo hhi => ?_, fun h => ?_,
      fun h => ?_⟩
    · rw [if_pos h]; exact ⟨rfl, rfl⟩
    · rw [if_neg (by omega), if_pos (by omega), h, s.sensor_junction hp]; rfl
    · rw [if_neg (by omega), if_pos (by omega), h, s.sensor_stack hp]; rfl
    · rw [if_neg (by omega), if_pos hhi]; exact ⟨_, rfl⟩
    · rw [if_neg (by omega), if_neg (by omega)]; rfl
    · rw [if_neg h]; split <;> rfl
  · refine ⟨_, exec_pldmFirmwareUpdate_request n htr hup hon, ?_⟩
    cases s.sec.update <;> cases s.sec.flash.dir.trial <;> simp [State.emit]
  · refine ⟨_, exec_pldmFirmwareUpdate_data htr hup hon hsession hfits, rfl, rfl, rfl, fun i hi => ?_, fun a ha => ?_⟩
    · rw [List.getD_eq_getElem _ _ hi]; exact Memory.get_store_in hi
    · exact Memory.get_store_out ha
  · refine ⟨_, exec_activateFirmware i hsession hup hon, ?_⟩
    split
    · exact ⟨rfl, rfl, State.setDir_dir (s := { s with sec := { s.sec with update := none } }) hseq _ _ _⟩
    · rfl

end

section
namespace Sys2Proof.Machine

/-! ### The SPDM responder (R433, R439, R440) -/

theorem transportNo_inj {x y : Transport} (h : transportNo x = transportNo y) : x = y := by
  cases x <;> cases y <;> first | rfl | cases h

@[simp] theorem State.setSpdm_spdm (s : State) (tr : Transport) (n : Nat) : (s.setSpdm tr n).spdm tr = n :=
  Tbl.look_put_self _ _ _ _

theorem State.setSpdm_spdm_ne (s : State) {tr x : Transport} (n : Nat) (h : x ≠ tr) : (s.setSpdm tr n).spdm x = s.spdm x :=
  Tbl.look_put_ne _ _ _ _ fun k => h (transportNo_inj k)

@[simp] theorem State.answer_spdm (s : State) (t : Transport) (code : Nat) (fixed input : Bytes) (x : Transport) :
    (s.answer t code fixed input).spdm x = s.spdm x := rfl

theorem State.answer_out (s : State) (t : Transport) (code : Nat) (fixed input : Bytes) :
    ∃ more, (s.answer t code fixed input).out = s.out ++ [.answer t code (fixed ++ more)] := ⟨_, rfl⟩

theorem State.answer_eq (s : State) (t : Transport) (code : Nat) (fixed input : Bytes) :
    ∃ more, s.answer t code fixed input = { s with out := s.out ++ [.answer t code (fixed ++ more)] } := ⟨_, rfl⟩

theorem State.spdmServe_served {s : State} {t : Transport} {level : Nat} {effect : State → State} (hup : s.spdmUp t = true)
    (hl : level ≤ s.spdm t) : s.spdmServe t level effect = effect s := by
  simp [State.spdmServe, hup, hl]

/-- A request that comes before the connection has got so far is turned away. -/
theorem State.spdmServe_early {s : State} {t : Transport} {level : Nat} {effect : State → State} (hup : s.spdmUp t = true)
    (hl : s.spdm t < level) : s.spdmServe t level effect = { s with out := s.out ++ [.answer t rqError [4]] } := by
  simp [State.spdmServe, hup, hl]
  rfl

/-- A request of a connection that has got far enough has its effect. -/
theorem exec_getCapabilities {tr : Transport} {s : State} (hup : s.spdmUp tr = true) (hl : 1 ≤ s.spdm tr) :
    exec (.getCapabilities tr) s = .next ((s.setSpdm tr 2).answer tr rqCapabilities [] []) :=
  congrArg _ (State.spdmServe_served hup hl)

theorem exec_negotiateAlgorithms {tr : Transport} {s : State} (hup : s.spdmUp tr = true) (hl : 2 ≤ s.spdm tr) :
    exec (.negotiateAlgorithms tr) s = .next ((s.setSpdm tr 3).answer tr rqAlgorithms [] []) :=
  congrArg _ (State.spdmServe_served hup hl)

theorem exec_getVersion {tr : Transport} {s : State} (hon : s.ctl.power = .on) (hup : s.transportUp tr = true)
    (h : s.spdmUp tr = true ∨ s.sec.st = .fail) :
    exec (.getVersion tr) s = .next ((s.setSpdm tr 1).answer tr rqVersion [0x12, 0x13] []) := by
  have hc : (s.spdmUp tr || s.sec.st == .fail && s.ctl.power == .on) = true := by
    rcases h with h | h <;> simp [h, hon]
  simp [exec, execGetVersion, hc, hup]

theorem State.chains_eq (s : State) : [0, 1].filterMap s.chain =
    Config.vendorChain :: if s.sec.flash.cert1 = [] then [] else [s.sec.flash.cert1] := by
  cases h : s.sec.flash.cert1 <;> simp [State.chain, h]

theorem exec_getDigests {tr : Transport} {s : State} (hup : s.spdmUp tr = true) (hl : 3 ≤ s.spdm tr) :
    exec (.getDigests tr) s = .next (s.answer tr rqDigests (digestBytes (Config.sha3 Config.vendorChain) ++
      if s.sec.flash.cert1 = [] then [] else digestBytes (Config.sha3 s.sec.flash.cert1)) []) := by
  refine congrArg _ ((State.spdmServe_served hup hl).trans ?_)
  rw [s.chains_eq]
  split <;> simp

/-- A measurement asked for by number, all of them, or their number (R440). -/
theorem exec_getMeasurements {tr : Transport} {n : Nat} {s : State} (hup : s.spdmUp tr = true) (hl : 3 ≤ s.spdm tr) :
    exec (.getMeasurements tr n) s = .next (if n = 0 then s.answer tr rqMeasurements [6] []
      else if n ≤ 6 then s.answer tr rqMeasurements (s.measurement n) []
      else if n = 255 then s.answer tr rqMeasurements (([1, 2, 3, 4, 5, 6] : List Nat).flatMap s.measurement) []
      else s.answerError tr 1) :=
  congrArg _ (State.spdmServe_served hup hl)

/-- What a connection begins with: each takes it one step further and leaves the others. -/
theorem setSpdm_answered (s : State) (tr : Transport) (n code : Nat) (fixed : Bytes) :
    ∃ more, ((s.setSpdm tr n).answer tr code fixed []).spdm tr = n ∧
      ((s.setSpdm tr n).answer tr code fixed []).out = s.out ++ [.answer tr code (fixed ++ more)] ∧
      ∀ x, x ≠ tr → ((s.setSpdm tr n).answer tr code fixed []).spdm x = s.spdm x :=
  ⟨_, s.setSpdm_spdm tr n, rfl, fun _ h => s.setSpdm_spdm_ne n h⟩

end Sys2Proof.Machine

open Sys2Proof Sys2Proof.Machine

/-- Settles O56: each request of the responder, by how far its connection has come, and the contents of the measurements. -/
theorem attestationServes : Obligations.AttestationServes := by
  unfold Obligations.AttestationServes
  refine ⟨fun tr s hon hup h => ?_, fun tr s hup => ⟨fun hl => ?_, fun hl => ?_⟩, fun tr c n k o l i b s hup hl hc => ?_,
    fun tr s hup hl => ?_, fun tr k o l b s hup hl => ?_,
    fun tr n s hup hl => ⟨fun h => ?_, fun hlo hhi => ?_, fun h => ?_, fun hlo hne => ?_⟩, fun s i hi => ?_⟩
  · obtain ⟨more, hself, hout, hother⟩ := setSpdm_answered s tr 1 rqVersion [0x12, 0x13]
    exact ⟨_, more, exec_getVersion hon hup h, hout, hself, hother⟩
  · obtain ⟨more, hself, hout, hother⟩ := setSpdm_answered s tr 2 rqCapabilities []
    exact ⟨_, more, exec_getCapabilities hup hl, hself, hout, hother⟩
  · obtain ⟨more, hself, hout, hother⟩ := setSpdm_answered s tr 3 rqAlgorithms []
    exact ⟨_, more, exec_negotiateAlgorithms hup hl, hself, hout, hother⟩
  · simp only [List.mem_cons, Prod.mk.injEq, List.not_mem_nil, or_false] at hc
    rcases hc with ⟨rfl, rfl⟩ | ⟨rfl, rfl⟩ | ⟨rfl, rfl⟩ | ⟨rfl, rfl⟩ | ⟨rfl, rfl⟩ | ⟨rfl, rfl⟩ | ⟨rfl, rfl⟩
    all_goals exact congrArg _ (State.spdmServe_early hup hl)
  · obtain ⟨more, h⟩ := s.answer_eq tr rqDigests (digestBytes (Config.sha3 Config.vendorChain) ++
      if s.sec.flash.cert1 = [] then [] else digestBytes (Config.sha3 s.sec.flash.cert1)) []
    exact ⟨more, (exec_getDigests hup hl).trans (congrArg _ h)⟩
  · cases hc : s.chain k.val with
    | none =>
      exact ⟨congrArg _ ((State.spdmServe_served hup hl).trans (by rw [hc]; rfl)),
        congrArg _ ((State.spdmServe_served hup hl).trans (by rw [hc]; rfl))⟩
    | some c =>
      exact ⟨⟨_, congrArg _ ((State.spdmServe_served hup hl).trans (by rw [hc]; rfl))⟩,
        ⟨_, congrArg _ ((State.spdmServe_served hup hl).trans (by rw [hc]; rfl))⟩⟩
  · exact ⟨_, by rw [exec_getMeasurements hup hl, if_pos h]; rfl⟩
  · exact ⟨_, by rw [exec_getMeasurements hup hl, if_neg (by omega), if_pos hhi]; rfl⟩
  · refine ⟨Config.spdmContent rqMeasurements (([1, 2, 3, 4, 5, 6] : List Nat).flatMap s.measurement ++ []), ?_⟩
    rw [exec_getMeasurements hup hl, if_neg (by omega), if_neg (by omega), if_pos h]
    simp [State.answer, State.emit]
  · rw [exec_getMeasurements hup hl, if_neg (by omega), if_neg (by omega), if_neg hne]; rfl
  · refine ⟨rfl, ?_, rfl, fun h => ?_, fun m h => ?_⟩
    · simp only [State.measurement, hi]
    · simp only [State.measurement, h]; rfl
    · simp only [State.measurement, h]

end

section
namespace Sys2Proof.Machine

/-! ### TDIs that fail together (R444) -/

theorem mem_distinct {l : List Nat} {x : Nat} : x ∈ distinct l ↔ x ∈ l := by
  induction l with
  | nil => rfl
  | cons a l ih =>
    rw [distinct, List.mem_cons, List.mem_filter, ih, List.mem_cons, bne_iff_ne]
    by_cases h : x = a <;> simp [h]

theorem State.foldl_tdiFails_tdi (s : State) (l : List Nat) (n : Nat) :
    (l.foldl State.tdiFails s).tdi n = if n ∈ l ∧ (s.tdi n = .locked ∨ s.tdi n = .run) then .error else s.tdi n := by
  induction l generalizing s with
  | nil => simp
  | cons a l ih =>
    rw [List.foldl_cons, ih]
    by_cases h : n = a
    · subst h
      rw [State.tdiFails_tdi]
      by_cases hl : s.tdi n = .locked ∨ s.tdi n = .run <;> simp [hl]
    · rw [State.tdiFails_tdi_ne s h]
      simp [h]

/-- The functions of a list that were locked are in ERROR after it fails, and the others are as they were. -/
theorem State.tdisError_tdi (s : State) (l : List Nat) (n : Nat) :
    (s.tdisError l).tdi n = if n ∈ l ∧ (s.tdi n = .locked ∨ s.tdi n = .run) then .error else s.tdi n := by
  have hreset : ∀ (t : State) gs, (t.galleriesReset gs).tdi n = t.tdi n := fun t gs =>
    congrArg (Tbl.look · n TdiSt.unlocked) ((State.galleriesReset_only (.refl _ t) (Nat.or_self _)).sec.tdis.resolve_left (by decide +kernel))
  rw [State.tdisError, hreset, State.foldl_tdiFails_tdi]
  have hmem : n ∈ (distinct l).filter (fun n => (s.tdi n).isLocked) ∧ (s.tdi n = .locked ∨ s.tdi n = .run) ↔
      n ∈ l ∧ (s.tdi n = .locked ∨ s.tdi n = .run) := by
    rw [List.mem_filter, mem_distinct]
    constructor
    · exact fun h => ⟨h.1.1, h.2⟩
    · exact fun h => ⟨⟨h.1, by simpa [TdiSt.isLocked] using h.2⟩, h.2⟩
  simp only [hmem]

theorem State.tdisError_session (s : State) (l : List Nat) (n : Nat) : (s.tdisError l).session n = s.session n :=
  congrArg (Tbl.look · n ({} : Session)) ((State.tdisError_only (.refl _ s) (Nat.or_self _)).sec.sessions.resolve_left (by decide +kernel))

theorem State.tdisError_debug (s : State) (l : List Nat) : (s.tdisError l).sec.debug = s.sec.debug :=
  Or.resolve_left (State.tdisError_only (.refl _ s) (Nat.or_self _)).sec.debug (by decide +kernel)

/-! ### Secure sessions (R439) -/

@[simp] theorem State.setSession_session (s : State) (n : Nat) (x : Session) : (s.setSession n x).session n = x :=
  Tbl.look_put_self _ _ _ _

theorem State.setSession_session_ne (s : State) {n m : Nat} (x : Session) (h : m ≠ n) :
    (s.setSession n x).session m = s.session m :=
  Tbl.look_put_ne _ _ _ _ h

@[simp] theorem State.answer_session (s : State) (t : Transport) (code : Nat) (fixed input : Bytes) (n : Nat) :
    (s.answer t code fixed input).session n = s.session n := rfl

@[simp] theorem State.answerError_session (s : State) (t : Transport) (code n : Nat) :
    (s.answerError t code).session n = s.session n := rfl

/-- What an answered change of one session leaves of the others. -/
theorem State.setSession_answer (s : State) (n : Nat) (x : Session) (tr : Transport) (code : Nat) (fixed input : Bytes) :
    ∃ more, ((s.setSession n x).answer tr code fixed input).session n = x ∧
      (∀ m, m ≠ n → ((s.setSession n x).answer tr code fixed input).session m = s.session m) ∧
      ((s.setSession n x).answer tr code fixed input).out = s.out ++ [.answer tr code (fixed ++ more)] :=
  ⟨_, s.setSession_session n x, fun _ h => s.setSession_session_ne x h, rfl⟩

theorem exec_keyExchange {tr : Transport} {b : Bytes} {s : State} (hup : s.spdmUp tr = true) (hl : 3 ≤ s.spdm tr) :
    exec (.keyExchange tr b) s = .next (match (List.range 4).find? (fun n => !(s.session n).open_) with
      | none => s.answerError tr 5
      | some n => (s.setSession n { open_ := true, transport := tr }).answer tr rqKeyExchange (toLE 1 n) b) :=
  congrArg _ (State.spdmServe_served hup hl)

theorem State.lowestClosed {s : State} {n : Nat} (hn : n < 4) (hclosed : (s.session n).open_ = false)
    (hopen : ∀ m, m < n → (s.session m).open_ = true) : (List.range 4).find? (fun n => !(s.session n).open_) = some n := by
  rw [List.find?_range_eq_some]
  exact ⟨by simp [hclosed], List.mem_range.mpr hn, fun m hm => by simp [hopen m hm]⟩

theorem exec_finish {n : Fin 4} {b : Bool} {s : State} (hup : s.sessionUp n.val = true)
    (hsec : (s.session n.val).secure = false) :
    exec (.finish n b) s = .next (if b then
      ((s.draw 1).setSession n.val { s.session n.val with
        secure := true, nonce := some (toLE 32 (Config.freeNat s.free % 2 ^ 256)) }).answer (s.session n.val).transport
        rqFinish (toLE 32 (Config.freeNat s.free % 2 ^ 256)) []
      else (s.setSession n.val {}).answerError (s.session n.val).transport 6) := by
  simp [exec, execFinish, hup, hsec]

theorem exec_debugUnlock {n : Fin 4} {x : Bytes} {r : Fin 4} {a b : Bool} {s : State}
    (hsec : s.sessionSecure n.val = true) :
    exec (.debugUnlock n x r a b) s = .next
      (if (s.session n.val).nonce = some x ∧ a = true ∧ b = true ∧ s.rpmc (1 + r.val) = 0 then
        (State.tdisError { s.setSession n.val { s.session n.val with nonce := none } with
          sec := { (s.setSession n.val { s.session n.val with nonce := none }).sec with debug := true } }
          (List.range 64)).answer (s.session n.val).transport rqVendor [1] []
      else (s.setSession n.val { s.session n.val with nonce := none }).answerError (s.session n.val).transport 1) := by
  simp only [exec, execDebugUnlock, hsec, Bool.not_true, Bool.false_eq_true, if_false, State.revoked, Bool.and_eq_true,
    beq_iff_eq, bne_eq_false_iff_eq, Bool.not_eq_true', and_assoc]

/-! ### Uplink keys (R449) -/

/-- The notice of a key is kept until its beat, under the next serial number. -/
theorem State.raiseKeyNotice (s : State) {effect : Nat} (port : Nat) (heff : effect ≠ 0) :
    (s.raiseNotice noteKey effect port 0 0).fab.pendNotices = s.fab.pendNotices ++
        [{ kind := noteKey, origin := s.devId, effect := effect, port := port, planes := 0 }] ∧
      (s.raiseNotice noteKey effect port 0 0).fab.serial = (s.fab.serial + 1) % 65536 ∧
      (s.raiseNotice noteKey effect port 0 0).fab.macSend = s.fab.macSend ∧
      (s.raiseNotice noteKey effect port 0 0).fab.macsec = s.fab.macsec := by
  let s1 : State := { s with fab := { s.fab with serial := (s.fab.serial + 1) % 65536 } }
  let x : PendNotice := { kind := noteKey, origin := s.devId, effect := effect, port := port, planes := 0 }
  let note : Notice := { kind := noteKey, serial := s.fab.serial, origin := s.devId, effect := effect, port := port, planes := 0, mapGen := 0 }
  have hseen := State.rememberPair_only (.refl _ s1) (a1 := s.devId) (a2 := s.fab.serial) (Nat.or_self _)
  have hact : ∀ u : State, u.actNotice note = { u with fab := { u.fab with pendNotices := u.fab.pendNotices ++ [x] } } := by
    intro u
    simp [State.actNotice, State.noticeLater, note, x, noteKey, noteDown, noteReturn, notePlanes, noteQuiesce, heff]
  have hsent := State.forwardNotice_only (.refl _ ((s1.rememberPair s.devId s.fab.serial).actNotice note)) (a1 := note) (a2 := none) (Nat.or_self _)
  have hraise : s.raiseNotice noteKey effect port 0 0 =
    ((s1.rememberPair s.devId s.fab.serial).actNotice note).forwardNotice note none := rfl
  rw [hraise, hsent.fab.pendNotices.resolve_left (by decide), hsent.fab.serial.resolve_left (by decide),
    hsent.fab.macSend.resolve_left (by decide), hsent.fab.macsec.resolve_left (by decide), hact]
  refine ⟨?_, ?_, ?_, ?_⟩
  · exact congrArg (· ++ [x]) (hseen.fab.pendNotices.resolve_left (by decide))
  · exact hseen.fab.serial.resolve_left (by decide)
  · exact hseen.fab.macSend.resolve_left (by decide)
  · exact hseen.fab.macsec.resolve_left (by decide)

theorem exec_macsecKeyInstall {n : Fin 4} {p : Fin 8} {x : Bool} {key : BitVec 256} {e : Option (BitVec 64)} {s : State}
    (hsec : s.sessionSecure n.val = true) :
    exec (.macsecKeyInstall n p x key e) s = .next
      (if e.any (fun e => decide (e.toNat < s.beat + 16)) then s.answerError (s.session n.val).transport 1 else
        (match e with
          | none => { s with fab := { s.fab with macsec := Tbl.insert s.fab.macsec (p.val * 2 + if x then 1 else 0) key } }
          | some e => State.raiseNotice
              { s with fab := { s.fab with macsec := Tbl.insert s.fab.macsec (p.val * 2 + if x then 1 else 0) key } }
              noteKey e.toNat (p.val + 8 * if x then 1 else 0) 0 0).answer (s.session n.val).transport rqVendor [2] []) := by
  simp only [exec, execMacsecKeyInstall, hsec, Bool.not_true, Bool.false_eq_true, if_false] <;> rfl

end Sys2Proof.Machine

open Sys2Proof Sys2Proof.Machine

/-- Settles O57: each request over a session by what exec of it comes to; the notice of a key is the one that raiseNotice keeps. -/
theorem sessionsServe : Obligations.SessionsServe := by
  unfold Obligations.SessionsServe
  refine ⟨fun tr b s hup hl => ⟨fun n hn hclosed hopen => ?_, fun hall => ?_⟩, fun n s hup hsec => ⟨?_, ?_⟩,
    fun n k r x y p key e b i vs c s hsec hc => ?_, fun n s hsec => ⟨?_, ?_, ?_⟩, fun n k b s hsec => ?_,
    fun n x r a b s hsec => ?_, fun n p x key s hsec => ⟨?_, fun e he => ?_, fun e he => ?_⟩⟩
  · obtain ⟨more, hself, hother, hout⟩ := s.setSession_answer n { open_ := true, transport := tr } tr rqKeyExchange (toLE 1 n) b
    exact ⟨_, more, by rw [exec_keyExchange hup hl, State.lowestClosed hn hclosed hopen], hself, hother, hout⟩
  · have hnone : (List.range 4).find? (fun n => !(s.session n).open_) = none := by
      rw [List.find?_eq_none]
      exact fun n hn => by simp [hall n (List.mem_range.mp hn)]
    rw [exec_keyExchange hup hl, hnone]
    rfl
  · obtain ⟨more, hself, hother, hout⟩ := (s.draw 1).setSession_answer n.val { s.session n.val with
        secure := true, nonce := some (toLE 32 (Config.freeNat s.free % 2 ^ 256)) } (s.session n.val).transport
        rqFinish (toLE 32 (Config.freeNat s.free % 2 ^ 256)) []
    exact ⟨_, _, more, exec_finish hup hsec, hself, toLE_length _ _, hother, hout⟩
  · exact ⟨_, exec_finish hup hsec, s.setSession_session n.val {}, fun _ h => s.setSession_session_ne {} h, rfl⟩
  · simp only [List.mem_cons, List.not_mem_nil, or_false] at hc
    rcases hc with rfl | rfl | rfl | rfl | rfl | rfl | rfl
    all_goals simp only [exec, execKeyUpdate, execHeartbeat, execEndSession, execSetCertificate, execDebugUnlock,
      execMacsecKeyInstall, execIdeKm, hsec, Bool.not_false, if_true, Bool.false_eq_true, if_false]
  · obtain ⟨more, hself, hother, hout⟩ := s.setSession_answer n.val { s.session n.val with
        updates := (s.session n.val).updates + 1 } (s.session n.val).transport rqKeyUpdate [] []
    exact ⟨_, more, congrArg Host.Outcome.next (if_pos hsec), hself, hother, hout⟩
  · obtain ⟨more, h⟩ := s.answer_eq (s.session n.val).transport rqHeartbeat [] []
    exact ⟨more, congrArg Host.Outcome.next ((if_pos hsec).trans h)⟩
  · obtain ⟨more, hself, hother, hout⟩ := s.setSession_answer n.val {} (s.session n.val).transport rqEndSession [] []
    exact ⟨_, more, congrArg Host.Outcome.next (if_pos hsec), hself, hother, hout⟩
  · have hexec : exec (.setCertificate n k b) s = .next (if k.val = 1 then State.answer { s with
        sec := { s.sec with flash := { s.sec.flash with cert1 := b } } } (s.session n.val).transport rqSetCertificate [1] []
        else s.answerError (s.session n.val).transport 1) := congrArg Host.Outcome.next (if_neg (by simp [hsec]))
    by_cases hk : k.val = 1
    · exact ⟨_, hexec, by rw [if_pos hk, if_pos hk]; rfl, by rw [if_pos hk]; rfl⟩
    · exact ⟨_, hexec, by rw [if_neg hk, if_neg hk]; rfl, by rw [if_neg hk]; rfl⟩
  · refine ⟨_, exec_debugUnlock hsec, ?_⟩
    split
    · refine ⟨?_, ?_, fun g hg => ?_⟩
      · rw [State.answer_session, State.tdisError_session]
        exact s.setSession_session n.val _
      · exact State.tdisError_debug _ _
      · exact (State.tdisError_tdi _ _ _).trans (by simp [List.mem_range.mpr hg]; rfl)
    · exact ⟨s.setSession_session n.val _, rfl, fun _ => rfl, rfl⟩
  · exact ⟨_, exec_macsecKeyInstall hsec, Tbl.find_insert_self _ _ _, rfl, fun k hk => Tbl.find_insert_ne _ _ hk⟩
  · refine ⟨_, exec_macsecKeyInstall hsec, ?_⟩
    rw [if_pos (by simpa using he)]
    rfl
  · obtain ⟨hpend, hserial, hsend, hmacsec⟩ := State.raiseKeyNotice
      { s with fab := { s.fab with macsec := Tbl.insert s.fab.macsec (p.val * 2 + if x then 1 else 0) key } }
      (effect := e.toNat) (p.val + 8 * if x then 1 else 0) (by omega)
    refine ⟨_, exec_macsecKeyInstall hsec, ?_⟩
    rw [if_neg (by simpa using he)]
    exact ⟨(congrArg (Tbl.find · _) hmacsec).trans (Tbl.find_insert_self _ _ _), hsend, hserial, hpend⟩

end

section
namespace Sys2Proof.Machine

/-! ### IDE streams and interface states (R441, R442, R444) -/

@[simp] theorem State.answer_sec (s : State) (t : Transport) (code : Nat) (fixed input : Bytes) :
    (s.answer t code fixed input).sec = s.sec := rfl

theorem State.installStream_self (s : State) (i : Nat) (x : IdeStream) :
    Tbl.look (State.sec { s with sec := { s.sec with ides := Tbl.put s.sec.ides i x {} } }).ides i {} = x :=
  Tbl.look_put_self s.sec.ides i x {}

theorem State.installStream_ne (s : State) {i k : Nat} (x : IdeStream) (h : k ≠ i) :
    Tbl.look (State.sec { s with sec := { s.sec with ides := Tbl.put s.sec.ides i x {} } }).ides k {} =
      Tbl.look s.sec.ides k {} :=
  Tbl.look_put_ne s.sec.ides x {} {} h

theorem exec_ideIntegrityFailure {i : Fin 5} {s : State} (hup : s.barUp = true)
    (hkeyed : (Tbl.look s.sec.ides i.val {}).keyed = true) (hsecure : (Tbl.look s.sec.ides i.val {}).insecure = false) :
    exec (.ideIntegrityFailure i) s = .next (State.tdisError { s with sec := { s.sec with
      ides := Tbl.put s.sec.ides i.val { Tbl.look s.sec.ides i.val {} with insecure := true } {} } }
      (Tbl.look s.sec.ides i.val {}).vfs) := by
  exact congrArg Host.Outcome.next (if_pos (by rw [hup, hkeyed, hsecure]; rfl))

theorem State.tdisError_ides (s : State) (l : List Nat) : (s.tdisError l).sec.ides = s.sec.ides :=
  (State.tdisError_only (.refl _ s) (Nat.or_self _)).sec.ides.resolve_left (by decide +kernel)

/-- Each locked function that fails is reset. -/
theorem State.tdisError_inReset (s : State) {l : List Nat} {n : Nat} (hn : n ∈ l)
    (hlocked : s.tdi n = .locked ∨ s.tdi n = .run) : n ∈ (s.tdisError l).hif.inReset := by
  rw [State.tdisError, State.mem_galleriesReset_inReset]
  exact .inl (List.mem_filter.mpr ⟨mem_distinct.mpr hn, by simpa [TdiSt.isLocked] using hlocked⟩)

/-- A request for a VF takes its interface on from the states it may come in, and leaves it in the others (R444). -/
theorem State.tdisp_tdi {s : State} {vf : Nat} (sts : List TdiSt) (x : TdiSt) (code : Byte) (hup : s.tdispUp = true)
    (hvf : vf ≠ 0) : (s.tdisp vf sts x code).tdi vf = if s.tdi vf ∈ sts then x else s.tdi vf := by
  by_cases h : s.tdi vf ∈ sts
  · simp only [State.tdisp, hup, Bool.not_true, Bool.false_eq_true, if_false, bne_iff_ne, ne_eq, hvf, not_false_eq_true,
      List.contains_iff_mem, h, and_self, Bool.and_eq_true, if_true]
    exact s.setTdi_tdi
  · simp only [State.tdisp, hup, Bool.not_true, Bool.false_eq_true, if_false, List.contains_iff_mem, h, and_false,
      Bool.and_eq_true]
    rfl

/-- A request for a VF changes the interface of no other. -/
theorem State.tdisp_tdi_ne (s : State) {vf k : Nat} (sts : List TdiSt) (x : TdiSt) (code : Byte) (h : k ≠ vf) :
    (s.tdisp vf sts x code).tdi k = s.tdi k := by
  unfold State.tdisp
  split
  · rfl
  · split
    · exact s.setTdi_tdi_ne h
    · rfl

/-- No request is taken for the PF. -/
theorem State.tdisp_zero {s : State} (sts : List TdiSt) (x : TdiSt) (code : Byte) (hup : s.tdispUp = true) :
    s.tdisp 0 sts x code = s.answerError .doe 1 := by
  simp [State.tdisp, hup]

theorem State.tdisp_down {s : State} (vf : Nat) (sts : List TdiSt) (x : TdiSt) (code : Byte) (hdown : s.tdispUp = false) :
    s.tdisp vf sts x code = s := by
  simp [State.tdisp, hdown]

end Sys2Proof.Machine

open Sys2Proof Sys2Proof.Machine

/-- Settles O58: the stream's entry is put by the command itself, and tdisError and tdisp say what becomes of the interfaces. -/
theorem interfacesLock : Obligations.InterfacesLock := by
  unfold Obligations.InterfacesLock
  refine ⟨fun n i key vs s hsec => ?_, fun i s hup hkeyed hsecure => ?_, fun g s hup hg => ?_, fun c s hup hc => ?_,
    fun g c s hdown hc => ?_⟩
  · refine ⟨_, congrArg Host.Outcome.next (if_pos hsec), ?_, fun k hk => ?_, rfl⟩
    · exact State.installStream_self s i.val _
    · exact State.installStream_ne s _ hk
  · refine ⟨_, exec_ideIntegrityFailure hup hkeyed hsecure, ?_, fun g => State.tdisError_tdi _ _ g,
      fun g hg hl => State.tdisError_inReset _ hg hl⟩
    rw [State.tdisError_ides]
    exact Tbl.look_put_self s.sec.ides i.val _ {}
  · refine ⟨_, _, _, rfl, rfl, rfl, ?_, ?_, ?_, fun k hk =>
      ⟨s.tdisp_tdi_ne _ _ _ hk, s.tdisp_tdi_ne _ _ _ hk, s.tdisp_tdi_ne _ _ _ hk⟩⟩
    · simpa only [List.mem_singleton] using State.tdisp_tdi [.unlocked] .locked 0x03 hup hg
    · simpa only [List.mem_singleton] using State.tdisp_tdi [.locked] .run 0x06 hup hg
    · rw [State.tdisp_tdi _ _ _ hup hg, if_pos]
      cases s.tdi g.val <;> decide
  · simp only [List.mem_cons, List.not_mem_nil, or_false] at hc
    rcases hc with rfl | rfl | rfl
    all_goals exact congrArg Host.Outcome.next (State.tdisp_zero _ _ _ hup)
  · simp only [List.mem_cons, List.not_mem_nil, or_false] at hc
    rcases hc with rfl | rfl | rfl
    all_goals exact congrArg Host.Outcome.next (State.tdisp_down _ _ _ _ hdown)

end

section
namespace Sys2Proof.Machine

/-! ### COMMIT, REVERT and the debug aperture (R437, R438, R448, R505, R506) -/

theorem exec_commit {w : Word} {s : State} (hsec : s.secWrite 0 = true) (hw : bits w.toNat 1 0 = 1) :
    exec (.commit 0 w) s = .next (match s.sec.trial, s.sec.image with
      | true, some i => s.commitImage i
      | _, _ => s.refuseWrite 0 (regOff .secFwCmd []) .lockedField) := by
  simp only [exec, execCommit, hsec, hw, State.writeFwCmd] <;> rfl

theorem exec_revert {w : Word} {s : State} (hsec : s.secWrite 0 = true) (hw : bits w.toNat 1 0 = 2) :
    exec (.revert 0 w) s = .next (State.setDir { s with sec := { s.sec with trial := false } } (!s.sec.flash.dir.active)
      false s.sec.flash.dir.tries) := by
  simp only [exec, execRevert, hsec, hw, State.writeFwCmd] <;> rfl

theorem State.commitImage_dir {s : State} (i : ImageInfo) (h : s.sec.flash.dir.seq.toNat + 1 < 2 ^ 32) :
    (s.commitImage i).sec.flash.dir =
      { s.sec.flash.dir with valid := true, seq := s.sec.flash.dir.seq + 1, trial := false } :=
  State.setDir_dir (s := { s with sec := { s.sec with trial := false, flash := { s.sec.flash with
    rpmc := (List.range 5).map (fun k => if k = 0 then max (s.rpmc k) i.svn.toNat
      else if i.revoke.getLsbD (k - 1) && i.kidx.val != k - 1 then s.rpmc k + 1 else s.rpmc k) } } }) h _ _ _

theorem exec_debugApertureAccess_write {o n : Nat} {b : Bytes} {s : State} (hup : s.barUp = true)
    (hopen : s.debugOpen = true) :
    exec (.debugApertureAccess o n (some b)) s =
      .next (s.debugWrite (dbgPlace (s.field .glbDbgSel [] 3 0) o) (b.take n)) := by
  simp only [exec, execDebugApertureAccess, hup, hopen] <;> rfl

theorem exec_debugApertureAccess_read {o n : Nat} {s : State} (hup : s.barUp = true) (hopen : s.debugOpen = true) :
    exec (.debugApertureAccess o n none) s =
      .next ((s.debugRead (dbgPlace (s.field .glbDbgSel [] 3 0) o) n).1.emit
        (.readData 0 (s.debugRead (dbgPlace (s.field .glbDbgSel [] 3 0) o) n).2.1
          (s.debugRead (dbgPlace (s.field .glbDbgSel [] 3 0) o) n).2.2)) := by
  simp only [exec, execDebugApertureAccess, hup, hopen] <;> rfl

end Sys2Proof.Machine

open Sys2Proof Sys2Proof.Machine

/-- Settles O45: commitImage and setDir say what becomes of the directory and the RPMC, and a debug read writes counters alone. -/
theorem firmwareAndDebug : Obligations.FirmwareAndDebug := by
  unfold Obligations.FirmwareAndDebug
  refine ⟨fun w s i hsec hw htrial himage hseq => ?_, fun w s hsec hw htrial => ?_, fun w s hsec hw hseq => ?_,
    fun o n a b s hup hopen hplace => ?_, fun o n c a s hup hopen hplace => ?_⟩
  · refine ⟨s.commitImage i, by rw [exec_commit hsec hw, htrial, himage], rfl, ?_, fun k hk => ?_,
      State.commitImage_dir i hseq⟩
    · rw [State.commitImage_rpmc s i (by omega), if_pos rfl]
    · rw [State.commitImage_rpmc s i (by omega), if_neg (by omega)]
      simp
  · rw [exec_commit hsec hw, htrial]
  · exact ⟨_, exec_revert hsec hw, rfl, rfl,
      State.setDir_dir (s := { s with sec := { s.sec with trial := false } }) hseq _ _ _⟩
  · refine ⟨_, exec_debugApertureAccess_write hup hopen, ?_, ?_⟩ <;> rw [hplace]
    · exact (State.writeHall_only (.refl _ s) (Nat.or_self _)).out.resolve_left (by decide)
    · exact s.writeHall_mem a (b.take n)
  · have honly := (State.debugRead_only (.refl _ s) (a1 := .chan c a) (a2 := n) (Nat.or_self _)).fst
    refine ⟨_, exec_debugApertureAccess_read hup hopen, ?_, ?_, ?_⟩ <;> rw [hplace]
    · exact honly.mem.resolve_left (by decide)
    · exact OnlyRas.eq honly.ras (by decide)
    · exact congrArg (· ++ _) (honly.out.resolve_left (by decide))

end

section
namespace Sys2Proof.Machine

/-! ### Ports (R347, R349, R351) -/

/-- Every port stands in the state it stood in, and one over which nothing is sent is as it was. -/
structure State.KeepsPorts (s t : State) : Prop where
  st : ∀ q, (t.port q).st = (s.port q).st
  idle : ∀ q, (s.port q).st.live = false → t.port q = s.port q

theorem State.KeepsPorts.of_eq {s t : State} (h : t.fab.ports = s.fab.ports) : s.KeepsPorts t := by
  have hport (q : Nat) : t.port q = s.port q := by rw [State.port, State.port, h]
  exact ⟨fun q => congrArg Port.st (hport q), fun q _ => hport q⟩

theorem State.KeepsPorts.refl (s : State) : s.KeepsPorts s := .of_eq rfl

theorem State.KeepsPorts.trans {s t u : State} (h : s.KeepsPorts t) (k : t.KeepsPorts u) : s.KeepsPorts u :=
  ⟨fun q => (k.st q).trans (h.st q), fun q hq => (k.idle q (h.st q ▸ hq)).trans (h.idle q hq)⟩

theorem State.KeepsPorts.foldl {α : Type} {f : State → α → State} {l : List α} {P : State → Prop}
    (hf : ∀ u a, a ∈ l → P u → u.KeepsPorts (f u a)) (hP : ∀ u t, P u → u.KeepsPorts t → P t) (s : State) (hs : P s) :
    s.KeepsPorts (l.foldl f s) := by
  induction l generalizing s with
  | nil => exact .refl s
  | cons a l ih =>
    have ha := hf s a (.head _) hs
    exact ha.trans (ih (fun u b hb => hf u b (.tail _ hb)) _ (hP s _ hs ha))

/-- A frame without the ports keeps them. -/
theorem OnlyM.keepsPorts {m : Nat} {s t : State} (h : OnlyM m s t) (e : m.testBit Leaf.fabPorts.ctorIdx = false) :
    s.KeepsPorts t :=
  .of_eq (h.fab.ports.resolve_left fun k => Bool.false_ne_true (e.symm.trans k))

theorem State.KeepsPorts.setPort {s : State} {p : Nat} {x : Port} (hst : x.st = (s.port p).st)
    (hlive : (s.port p).st.live = true) : s.KeepsPorts (s.setPort p x) := by
  refine ⟨fun q => ?_, fun q hq => ?_⟩
  · by_cases h : q = p
    · rw [h, State.setPort_port, hst]
    · rw [State.setPort_port_ne s h]
  · exact State.setPort_port_ne s fun h => by rw [h, hlive] at hq; exact Bool.true_eq_false.mp hq

theorem State.portEmit_keepsPorts {s : State} {p : Nat} (h : Line16) (payload : Bytes) (hlive : (s.port p).st.live = true) :
    s.KeepsPorts (s.portEmit p h payload) := by
  unfold State.portEmit
  extract_lets x h' v y
  have hset : s.KeepsPorts (s.setPort p y) := .setPort rfl hlive
  have hnote := State.notePacket_only (.refl _ (s.setPort p y)) (a1 := p) (a2 := 8) (a3 := h') (a4 := payload) (Nat.or_self _)
  exact hset.trans ((hnote.keepsPorts (by decide)).trans (.of_eq rfl))

/-- A packet handed to a live port changes the state of none. -/
theorem State.portSend_keepsPorts {s : State} {p : Nat} (h : Line16) (payload : Bytes)
    (hlive : 24 ≤ p ∨ (s.port p).st.live = true) : s.KeepsPorts (s.portSend p h payload) := by
  unfold State.portSend
  split
  · exact (State.frameSend_only (.refl _ s) (Nat.or_self _)).keepsPorts (by decide)
  · next hp =>
    have hlive := hlive.resolve_left hp
    extract_lets x
    split
    · exact State.portEmit_keepsPorts h payload hlive
    · have hset : s.KeepsPorts (s.setPort p { x with queue := x.queue ++ [(h, payload)] }) := .setPort rfl hlive
      exact hset.trans ((State.countIf_only (.refl _ _) (Nat.or_self _)).keepsPorts (by decide))

theorem byFlow_mem {l : List Nat} {flow p : Nat} (h : byFlow l flow = some p) : p ∈ l := List.mem_of_getElem? h

/-- The port a DATA packet leaves on is UP (R358 to R360). -/
theorem State.wayTo_up {s : State} {dst flow p : Nat} {vias : List Nat} {detour : Bool}
    (h : s.wayTo dst flow = some (p, vias, detour)) : 24 ≤ p ∨ (s.port p).st = .up := by
  unfold State.wayTo at h
  split at h
  · split at h
    · cases h
    · split at h
      · cases h
      · obtain ⟨q, hq, he⟩ := Option.map_eq_some_iff.mp h
        cases he
        have hup := (List.mem_filter.mp (byFlow_mem hq)).2
        simp only [State.linkUp, if_pos] at hup
        exact .inr (eq_of_beq hup)
  · obtain ⟨q, -, he⟩ := Option.map_eq_some_iff.mp h
    cases he
    exact .inl (Nat.le_add_right 24 q)

theorem State.reroute_keepsPorts (s : State) (p : Nat) (h : Line16) (payload : Bytes) :
    s.KeepsPorts (s.reroute p h payload) := by
  have hcount (u : State) (c : Ctr) (p n : Nat) : u.KeepsPorts (u.rerouted c p n) :=
    (State.rerouted_only (.refl _ u) (Nat.or_self _)).keepsPorts (by decide)
  unfold State.reroute
  split
  · exact .refl s
  split
  · split
    · exact hcount ..
    · next q vias detour hway =>
      have hdetour := hcount s .brlDetour 0 (if detour then 1 else 0)
      refine hdetour.trans (State.portSend_keepsPorts _ _ ((State.wayTo_up hway).imp_right fun hup => ?_))
      rw [hdetour.st, hup]
      rfl
  · exact hcount ..

theorem State.sendControl_keepsPorts {s : State} {p : Nat} (type dst : Nat) (line : Line32)
    (hlive : 24 ≤ p ∨ (s.port p).st.live = true) : s.KeepsPorts (s.sendControl p type dst line) :=
  State.portSend_keepsPorts _ _ hlive

theorem State.forwardNotice_keepsPorts (s : State) (n : Notice) (came : Option Neighbour) :
    s.KeepsPorts (s.forwardNotice n came) := by
  unfold State.forwardNotice
  extract_lets ps ks s1
  have hports : s.KeepsPorts s1 := by
    refine .foldl (P := fun u => ∀ p ∈ ps, (u.port p).st.live = true)
      (fun u p hp hu => State.sendControl_keepsPorts _ _ _ (.inr (hu p hp))) (fun u t hu h p hp => h.st p ▸ hu p hp) s fun p hp => ?_
    exact (Bool.and_eq_true_iff.mp (List.mem_filter.mp hp).2).1
  exact hports.trans (.foldl (P := fun _ => True)
    (fun u k _ _ => State.sendControl_keepsPorts _ _ _ (.inl (Nat.le_add_right 24 _))) (fun _ _ _ _ => trivial) s1 trivial)

theorem State.raiseNotice_keepsPorts (s : State) (kind effect port planes gen : Nat) :
    s.KeepsPorts (s.raiseNotice kind effect port planes gen) :=
  State.KeepsPorts.trans (OnlyM.keepsPorts (m := leavesBut .fabPorts) (State.actNotice_only (State.rememberPair_only (OnlyM.lit_fabSerial (.refl _ s) (by decide))
    (by decide)) (by decide)) (by decide)) (State.forwardNotice_keepsPorts ..)

/-! ### A port that leaves a state -/

/-- A port that has gone to a state in which it holds nothing. -/
def Port.idleIn (x : Port) (st : PortSt) : Port := { x with st := st, retry := [], queue := [], returning := none, downFor := 0 }

theorem State.setPortSt_port {s : State} (p : Nat) (st : PortSt) (q : Nat) :
    (s.setPortSt p st).port q = if q = p then { s.port p with st := st } else s.port q := by
  unfold State.setPortSt
  extract_lets x
  split
  · next hst =>
    split
    · next hq => rw [hq, ← hst]
    · rfl
  · rw [State.event_port]
    split
    · next hq => rw [hq, State.setPort_port]
    · next hq => exact State.setPort_port_ne s hq

/-- A port empties itself and goes to a state. -/
theorem State.idle_port (s : State) (p : Nat) (st : PortSt) (q : Nat) :
    ((s.setPort p { s.port p with retry := [], queue := [], returning := none, downFor := 0 }).setPortSt p st).port q =
      if q = p then (s.port p).idleIn st else s.port q := by
  rw [State.setPortSt_port]
  split
  · rw [State.setPort_port]
    rfl
  · next hq => exact State.setPort_port_ne s hq

/-- What follows once a port that was UP has emptied itself changes the state of no port (R351). -/
theorem State.leaveUp_keepsPorts (s : State) (p : Nat) (st : PortSt) :
    State.KeepsPorts ((s.setPort p { s.port p with retry := [], queue := [], returning := none, downFor := 0 }).setPortSt p st)
      (s.leaveUp p st) := by
  unfold State.leaveUp
  extract_lets x s1 s2 m back
  have h1 : State.KeepsPorts _ s1 := (State.rerouted_only (.refl _ _) (Nat.or_self _)).keepsPorts (by decide)
  have h2 : s1.KeepsPorts s2 :=
    .foldl (P := fun _ => True) (fun u q _ _ => State.reroute_keepsPorts u p q.1 q.2) (fun _ _ _ _ => trivial) s1 trivial
  split
  · exact (h1.trans h2).trans (State.raiseNotice_keepsPorts ..)
  · have h3 := OnlyM.lit_fabAnnounced (x0 := BitVec.ofNat 8 (back.foldl (· + ·) m)) (.refl _ s2) (Nat.or_self _)
    exact (h1.trans h2).trans ((h3.keepsPorts (by decide)).trans (State.raiseNotice_keepsPorts ..))

/-- A port that leaves UP stands idle in its new state, and every other stands in the state it stood in (R351). -/
theorem State.leaveUp_port (s : State) (p : Nat) {st : PortSt} (hst : st.live = false) :
    (s.leaveUp p st).port p = (s.port p).idleIn st ∧ ∀ q, q ≠ p → ((s.leaveUp p st).port q).st = (s.port q).st := by
  have hkeep := s.leaveUp_keepsPorts p st
  have hself := s.idle_port p st p
  rw [if_pos rfl] at hself
  refine ⟨(hkeep.idle p (by rw [hself]; exact hst)).trans hself, fun q hq => ?_⟩
  rw [hkeep.st, s.idle_port p st q, if_neg hq]

/-- A port brought to a state in which it sends nothing stands idle in it, and every other stands in the state it stood in. -/
theorem State.portTo_port (s : State) (p : Nat) {st : PortSt} (hst : st.live = false) :
    (s.portTo p st).port p = (s.port p).idleIn st ∧ ∀ q, q ≠ p → ((s.portTo p st).port q).st = (s.port q).st := by
  unfold State.portTo
  split
  · exact s.leaveUp_port p hst
  · have hidle := s.idle_port p st
    exact ⟨(hidle p).trans (if_pos rfl), fun q hq => congrArg Port.st ((hidle q).trans (if_neg hq))⟩

end Sys2Proof.Machine

end

section
namespace Sys2Proof.Machine

/-! ### Ports that train, fail and fall idle (R349, R351) -/

theorem State.setPortSt_out (s : State) (p : Nat) (st : PortSt) : (s.setPortSt p st).out = s.out :=
  (State.setPortSt_only (.refl _ s) (Nat.or_self _)).out.resolve_left (by decide)

/-- A notice that a link of this device is down takes it out of the own table (R358, R374). -/
theorem State.raiseNotice_down_links (s : State) {p : Nat} (hp : p < 24) :
    Tbl.look (s.raiseNotice noteDown 0 p 0 0).fab.links (linkKey (slotOf s.devId) p) false = false := by
  let s1 : State := { s with fab := { s.fab with serial := (s.fab.serial + 1) % 65536 } }
  let n : Notice := { kind := noteDown, serial := s.fab.serial, origin := s.devId, effect := 0, port := p, planes := 0, mapGen := 0 }
  have hseen := State.rememberPair_only (.refl _ s1) (a1 := s.devId) (a2 := s.fab.serial) (Nat.or_self _)
  have hid : (s1.rememberPair s.devId s.fab.serial).devId = s.devId := by
    rw [State.devId, State.field, State.written, hseen.regs.resolve_left (by decide)]
    rfl
  have hact : (s1.rememberPair s.devId s.fab.serial).actNotice n = { s1.rememberPair s.devId s.fab.serial with
      fab := { (s1.rememberPair s.devId s.fab.serial).fab with
        links := (s1.rememberPair s.devId s.fab.serial).fab.links.erase (linkKey (slotOf s.devId) p) } } := by
    simp [State.actNotice, hid, n, hp]
  have hraise : s.raiseNotice noteDown 0 p 0 0 = ((s1.rememberPair s.devId s.fab.serial).actNotice n).forwardNotice n none := rfl
  rw [hraise, (State.forwardNotice_only (.refl _ _) (Nat.or_self _)).fab.links.resolve_left (by decide), hact]
  simp [Tbl.look, Tbl.find_erase_self]

/-- The link of a cabinet port that leaves UP is gone from the own table. -/
theorem State.leaveUp_links (s : State) {p : Nat} (st : PortSt) (hp : p < 24) :
    Tbl.look (s.leaveUp p st).fab.links (linkKey (slotOf s.devId) p) false = false := by
  unfold State.leaveUp
  extract_lets x s1 s2
  have hframe : OnlyM (mask [.docGroups, .fabPorts, .catCounters, .catRings, .catTrace, .free, .out]) s s2 :=
    .foldl (State.rerouted_only (State.setPortSt_only (State.setPort_only (.refl _ s) (by decide)) (by decide)) (by decide))
      fun u q => State.reroute_only (.refl _ u) (by decide)
  have hid : s2.devId = s.devId := by
    rw [State.devId, State.devId, State.field, State.field, State.written, State.written, hframe.regs.resolve_left (by decide)]
  rw [if_pos hp, ← hid]
  exact s2.raiseNotice_down_links hp

/-- A port that fails goes DOWN with an incident of its number (R351). -/
theorem State.portDown_of_up {s : State} {p : Nat} (cause : Nat) (hup : (s.port p).st = .up) :
    s.portDown p cause = (s.incident clsLink 0x30 .ok (srcPort p) (s.port p).peerId cause).leaveUp p .down := by
  rw [State.portDown, if_pos hup]

/-- A port that has failed is DOWN with nothing held, its incident recorded and its link gone from the own table (R351). -/
theorem State.portDown_spec {s : State} {p : Nat} (cause : Nat) (hup : (s.port p).st = .up) :
    (s.portDown p cause).port p = (s.port p).idleIn .down ∧
      ((s.portDown p cause).source (0x4000 + p)).count = min ((s.source (0x4000 + p)).count + 1) (2 ^ 32 - 1) ∧
      (p < 24 → Tbl.look (s.portDown p cause).fab.links (linkKey (slotOf s.devId) p) false = false) := by
  rw [State.portDown_of_up cause hup]
  generalize hu : s.incident clsLink 0x30 .ok (srcPort p) (s.port p).peerId cause = u
  have hincident : OnlyM _ s u := hu ▸ State.incident_only (.refl _ s) (Nat.or_self _)
  have hcount := hu ▸ (s.incident_source clsLink 0x30 .ok (srcPort p) (s.port p).peerId cause).1
  have hport : u.port p = s.port p := by
    rw [State.port, State.port, hincident.fab.ports.resolve_left (by decide)]
  have hid : u.devId = s.devId := by
    rw [State.devId, State.devId, State.field, State.field, State.written, State.written, hincident.regs.resolve_left (by decide)]
  refine ⟨(u.leaveUp_port p rfl).1.trans (by rw [hport]), ?_, fun hp => ?_⟩
  · have hleave := State.leaveUp_only (.refl _ u) (a1 := p) (a2 := .down) (Nat.or_self _)
    rw [State.source, hleave.ras.sources.resolve_left (by decide)]
    exact hcount
  · rw [← hid]
    exact u.leaveUp_links .down hp

end Sys2Proof.Machine

open Sys2Proof Sys2Proof.Machine

/-- Settles O50: portTo and portDown leave the port idle in its new state, and no packet goes to a port that is not live. -/
theorem portsComeAndGo : Obligations.PortsComeAndGo := by
  unfold Obligations.PortsComeAndGo
  refine ⟨fun p s halive htrain => ⟨?_, ?_⟩, fun p c s halive hup hc => ?_, fun p s halive hdown hlong => ?_⟩
  · refine ⟨(s.setPort p.val { st := .training }).setPortSt p.val (if p.val < 24 then .check else .standby), ?_, ?_,
      fun q hq => ?_, State.setPortSt_out ..⟩
    · exact congrArg Host.Outcome.next (if_pos (by simp [halive, htrain]))
    · rw [State.setPortSt_port, if_pos rfl, State.setPort_port]
    · rw [State.setPortSt_port, if_neg hq, State.setPort_port_ne s hq]
  · have hto : s.portTo p.val .down = (s.setPort p.val { s.port p.val with
        retry := [], queue := [], returning := none, downFor := 0 }).setPortSt p.val .down := if_neg (by simp [htrain])
    refine ⟨s.portTo p.val .down, congrArg Host.Outcome.next (if_pos (by simp [halive, htrain])),
      (s.portTo_port p.val rfl).1, fun q hq => ?_, ?_⟩
    · rw [hto, s.idle_port p.val .down q, if_neg hq]
    · rw [hto, State.setPortSt_out, State.setPort_out]
  · have hexec : ∃ cause, exec c s = .next (s.portDown p.val cause) := by
      rcases hc with rfl | rfl | rfl | ⟨rfl, r, hr, htries⟩
      · exact ⟨0, congrArg Host.Outcome.next (if_pos (by simp [halive, hup]))⟩
      · exact ⟨2, congrArg Host.Outcome.next (if_neg (by simp [halive, hup]))⟩
      · exact ⟨3, congrArg Host.Outcome.next (if_neg (by simp [halive, hup]))⟩
      · have htried : (s.port p.val).retry.any (fun r => decide (8 ≤ r.tries)) = true :=
          List.any_eq_true.mpr ⟨r, hr, by simpa using htries⟩
        exact ⟨1, congrArg Host.Outcome.next ((if_neg (by simp [halive, hup])).trans (if_pos htried))⟩
    obtain ⟨cause, hexec⟩ := hexec
    obtain ⟨hport, hcount, hlink⟩ := State.portDown_spec cause hup
    exact ⟨_, hexec, by rw [hport]; rfl, by rw [hport]; rfl, by rw [hport]; rfl, by rw [hport]; rfl, hcount, hlink⟩
  · refine ⟨_, congrArg Host.Outcome.next (if_pos (by simp [halive, hdown, hlong])), ?_, fun q hq => ?_, State.setPortSt_out ..⟩
    · rw [State.setPortSt_port, if_pos rfl, State.setPort_port]
    · rw [State.setPortSt_port, if_neg hq, State.setPort_port_ne s hq]

end

section
namespace Sys2Proof.Machine

/-! ### Resets and lost clocks (R435, R501, R516, R519, R522, R524) -/

/-- What a reset makes of the device, apart from its seed and its straps. -/
structure State.Restarted (s t : State) : Prop where
  mem : t.mem = State.reset.mem
  regs : t.regs = State.reset.regs
  hif : t.hif = State.reset.hif
  cores : t.cores = State.reset.cores
  doc : t.doc = State.reset.doc
  fab : t.fab = State.reset.fab
  out : t.out = s.out
  pending : t.pending = s.pending
  st : t.ctl.st = .boot
  power : t.ctl.power = .on
  dir0 : t.sec.flash.dir0 = s.sec.flash.dir0
  dir1 : t.sec.flash.dir1 = s.sec.flash.dir1
  slots : t.sec.flash.slots = s.sec.flash.slots

theorem State.restarted_spec (s : State) (perst : Bool) (pos : BitVec 7) (smba : BitVec 3) :
    s.Restarted (s.restarted perst pos smba) := by
  cases perst <;> exact ⟨rfl, rfl, rfl, rfl, rfl, rfl, rfl, rfl, rfl, rfl, rfl, rfl, rfl⟩

/-- The helper data and the root key decide how the seed ends, and nothing else of a reset device changes (R435). -/
theorem State.Restarted.seedStep {s t : State} (h : s.Restarted t) (x : HelperState) (tags : Bool) :
    s.Restarted (t.seedStep x tags) := by
  obtain ⟨h1, h2, h3, h4, h5, h6, h7, h8, h9, h10, h11, h12, h13⟩ := h
  unfold State.seedStep
  extract_lets up
  split <;> exact ⟨h1, h2, h3, h4, h5, h6, h7, h8, h9, h10, h11, h12, h13⟩

theorem State.seedStep_straps (s : State) (x : HelperState) (tags : Bool) :
    (s.seedStep x tags).ctl.strapPos = s.ctl.strapPos ∧ (s.seedStep x tags).ctl.strapSmba = s.ctl.strapSmba ∧
      (s.seedStep x tags).ctl.thermTrip = s.ctl.thermTrip := by
  unfold State.seedStep
  extract_lets up
  split <;> exact ⟨rfl, rfl, rfl⟩

/-- The three ends of the seed: a boot, an enrolment and a failure (R435). -/
theorem State.seedStep_ends {s : State} (x : HelperState) (tags : Bool) (hst : s.sec.st = .boot) (hseeded : s.sec.seeded = false) :
    if x = .validMatch ∧ s.sec.flash.rpmcKey = true ∧ tags = true then
      (s.seedStep x tags).sec.st = .boot ∧ (s.seedStep x tags).sec.seeded = true ∧ (s.seedStep x tags).ctl.bootStep = 2 ∧
        (s.seedStep x tags).sec.flash = s.sec.flash
    else if x = .blank ∧ s.sec.flash.rpmcKey = false then
      (s.seedStep x tags).sec.st = .boot ∧ (s.seedStep x tags).sec.seeded = true ∧ (s.seedStep x tags).ctl.bootStep = 2 ∧
        (s.seedStep x tags).sec.flash.rpmcKey = true
    else (s.seedStep x tags).sec.st = .fail ∧ (s.seedStep x tags).sec.seeded = false ∧
      (s.seedStep x tags).sec.flash = s.sec.flash ∧
      (s.seedStep x tags).sec.cause = (if x = .validMatch ∨ x = .blank then 3 else 2) := by
  unfold State.seedStep
  cases x <;> cases hkey : s.sec.flash.rpmcKey <;> cases tags <;> simp [seedEnd, State.secFail, hst, hseeded]

/-- The failure of a port changes the state of no other. -/
theorem State.portDown_st_ne {s : State} {p q : Nat} (cause : Nat) (hup : (s.port p).st = .up) (hq : q ≠ p) :
    ((s.portDown p cause).port q).st = (s.port q).st := by
  have hincident := State.incident_only (.refl _ s) (a1 := clsLink) (a2 := 0x30) (a3 := .ok) (a4 := srcPort p)
    (a5 := (s.port p).peerId) (a6 := cause) (Nat.or_self _)
  rw [State.portDown_of_up cause hup, (State.leaveUp_port _ p rfl).2 q hq]
  exact (hincident.keepsPorts (by decide)).st q

/-- The step of a lost link clock on one port (R501). -/
def State.unclock (s : State) (p : Nat) : State :=
  match (s.port p).st with
  | .disabled | .down => s
  | .up => s.portDown p 3
  | _ => s.portTo p .down

theorem State.unclock_st (s : State) (p : Nat) :
    ((s.unclock p).port p).st = (if (s.port p).st = .disabled then .disabled else .down) ∧
      ∀ q, q ≠ p → ((s.unclock p).port q).st = (s.port q).st := by
  unfold State.unclock
  split
  · next h => exact ⟨by rw [if_pos h, h], fun _ _ => rfl⟩
  · next h => exact ⟨by rw [h]; rfl, fun _ _ => rfl⟩
  · next h => exact ⟨by rw [(State.portDown_spec 3 h).1, h]; rfl, fun _ hq => State.portDown_st_ne 3 h hq⟩
  · next h _ _ =>
    obtain ⟨hself, hother⟩ := s.portTo_port p (st := .down) rfl
    exact ⟨by rw [hself, if_neg h]; rfl, hother⟩

theorem State.unclock_only (s : State) (p : Nat) : OnlyM (leavesBut .secEvents) s (s.unclock p) := by
  unfold State.unclock
  split
  · exact .refl _ s
  · exact .refl _ s
  · exact State.portDown_only (.refl _ s) (by decide)
  · exact State.portTo_only (.refl _ s) (by decide)

theorem exec_brlclkLoss {s u : State} (h : s.alive = true) (hu : (List.range 32).foldl State.unclock s = u) :
    exec .brlclkLoss s = .next (State.emit { u with sec := { u.sec with events := u.sec.events + 1 } } (.pldmClock true)) := by
  subst hu
  simp only [exec, execBrlclkLoss, h, Bool.not_true, Bool.false_eq_true, if_false]
  generalize List.range 32 = ports
  rfl

/-- Every port that is not DISABLED is DOWN once the link clock is lost. -/
theorem State.foldl_unclock_st (s : State) {p : Nat} (hp : p < 32) :
    (((List.range 32).foldl State.unclock s).port p).st = if (s.port p).st = .disabled then .disabled else .down :=
  foldl_get_of_mem (get := fun u q => (State.port u q).st) (key := id)
    (R := fun x y => y = if x = PortSt.disabled then PortSt.disabled else PortSt.down)
    (fun u i k hk => (u.unclock_st i).2 k hk) Function.injective_id (fun u i => (u.unclock_st i).1) List.nodup_range s
    (List.mem_range.mpr hp)

theorem linkSupported_iff (w r : Nat) (f : Bool) :
    linkSupported w r f = true ↔ (w = 4 ∨ w = 8 ∨ w = 16) ∧ 1 ≤ r ∧ r ≤ 7 ∧ (f = true → 6 ≤ r) := by
  cases f <;> simp [linkSupported, and_assoc]

end Sys2Proof.Machine

open Sys2Proof Sys2Proof.Machine

/-- Settles O51: a restarted device differs from another in its seed and straps alone, and each port goes DOWN by its own step. -/
theorem deviceResets : Obligations.DeviceResets := by
  unfold Obligations.DeviceResets
  refine ⟨fun perst x tags pos smba s h => ?_, fun x tags pos smba s h => exec_deviceReset_held h, fun s => ?_, fun s hon => ?_,
    fun s halive => ?_, fun w r f s hon => ?_⟩
  · obtain ⟨hmem, hregs, hhif, hcores, hdoc, hfab, hout, hpending, hst, hpower, hdir0, hdir1, hslots⟩ :=
      (s.restarted_spec perst pos smba).seedStep x tags
    obtain ⟨hpos, hsmba, htrip⟩ := (s.restarted perst pos smba).seedStep_straps x tags
    have hsec : (s.restarted perst pos smba).sec = { flash := s.sec.flash } := by cases perst <;> rfl
    have hends := State.seedStep_ends (s := s.restarted perst pos smba) x tags (by rw [hsec]) (by rw [hsec])
    rw [s.restarted_flash perst pos smba] at hends
    refine ⟨_, exec_deviceReset h, hmem, hregs, hhif, hcores, hdoc, hfab, hout, hpending, hst, hpower, hdir0, hdir1, hslots, ?_,
      hends⟩
    rw [hpos, hsmba, htrip]
    cases perst <;> exact ⟨rfl, rfl, rfl⟩
  · exact ⟨_, rfl, rfl, rfl, rfl, rfl, rfl, rfl⟩
  · exact ⟨_, congrArg Host.Outcome.next (if_neg (by simp [hon])), rfl, rfl, rfl, rfl, rfl⟩
  · generalize hu : (List.range 32).foldl State.unclock s = u
    have hframe : OnlyM (leavesBut .secEvents) s u := hu ▸ .foldl (.refl _ s) fun u p => u.unclock_only p
    refine ⟨_, exec_brlclkLoss halive hu, List.mem_append_right _ (.head _), ?_, fun p hp => ?_⟩
    · exact congrArg (· + 1) (hframe.sec.events.resolve_left (by decide))
    · have hst := s.foldl_unclock_st hp
      rw [hu] at hst
      exact hst
  · refine congrArg Host.Outcome.next ?_
    simp only [hon, beq_self_eq_true, Bool.true_and, linkSupported_iff]

end

section
namespace Sys2Proof.Machine

/-! ### HOLD entered outside RUN (R473) -/

/-- Outside RUN no unit accepts a descriptor. -/
theorem State.acceptLine_of_not_running {s : State} (hr : s.running = false) (o : Origin) (f : Fetched) :
    ∀ t ∈ s.acceptLine o f, t = s := by
  unfold State.acceptLine
  extract_lets d
  have hprog : s.acceptProgLoad o d f.aux = s := by
    simp [State.acceptProgLoad, State.readsImage, hr, State.accept_of_not_running hr]
  split
  case h_39 => exact fun _ h => nomatch h
  all_goals rintro _ ⟨⟩
  case h_17 => exact hprog
  all_goals exact State.accept_of_not_running hr

/-- What a descriptor turned away outside RUN may write. -/
def turnedAwayLeaves : Nat := mask [.hifRings, .hifInflight, .hifFences, .docGroups, .catCounters, .catRings, .catStarted,
  .catTrace, .nextOp, .free, .out]

theorem State.acceptEntry_of_not_running {s : State} (hr : s.running = false) (e : PollEntry) :
    OnlyM turnedAwayLeaves s (s.acceptEntry e) := by
  unfold State.acceptEntry
  extract_lets o d
  split
  · exact State.refuseLine_only (.refl _ s) (by decide)
  split
  · exact State.refuseLine_only (State.count_only (.refl _ s) (by decide)) (by decide)
  split
  · next t ht => rw [State.acceptLine_of_not_running hr o e.entry t ht]; exact .refl _ s
  · exact State.refuseLine_only (.refl _ s) (by decide)

theorem OnlyM.running {m : Nat} {s t : State} (h : OnlyM m s t)
    (e : [Leaf.ctlSt, .ctlPower, .secSt].all (fun p => !m.testBit p.ctorIdx) = true) : t.running = s.running := by
  simp only [List.all_cons, List.all_nil, Bool.and_true, Bool.and_eq_true, Bool.not_eq_true'] at e
  obtain ⟨hst, hpower, hsec⟩ := e
  have kst := h.ctl.st.resolve_left fun k => Bool.false_ne_true (hst.symm.trans k)
  have kpower := h.ctl.power.resolve_left fun k => Bool.false_ne_true (hpower.symm.trans k)
  have ksec := h.sec.st.resolve_left fun k => Bool.false_ne_true (hsec.symm.trans k)
  rw [State.running, State.running, State.alive, State.alive, kst, kpower, ksec]

theorem State.acceptFetched_of_not_running {s : State} (hr : s.running = false) :
    OnlyM (turnedAwayLeaves ||| mask [.hifPoll]) s s.acceptFetched := by
  unfold State.acceptFetched
  split
  · exact .refl _ s
  · next p _ =>
    have hfold (l : List PollEntry) (u : State) (hu : u.running = false) :
        OnlyM turnedAwayLeaves u (l.foldl State.acceptEntry u) := by
      induction l generalizing u with
      | nil => exact .refl _ u
      | cons e l ih =>
        have he := State.acceptEntry_of_not_running hu e
        exact he.step (ih _ ((he.running (by decide)).trans hu)) (Nat.or_self _)
    have hpoll : OnlyM (mask [.hifPoll]) s (s.setPoll { p with fetched := [] }) := State.setPoll_only (.refl _ s) (by decide)
    exact (hpoll.mono (by decide)).step (hfold _ _ ((hpoll.running (by decide)).trans hr)) (by decide)

/-- What the entry of HOLD outside RUN may write. -/
def idleHoldLeaves : Nat := turnedAwayLeaves ||| mask [.ctlSt, .ctlHcause, .ctlHoldReq, .ctlHolding, .hifPoll, .fabPorts,
  .fabBeat, .fabLinks, .fabPlanes, .fabSeen, .fabSerial, .fabPendNotices, .fabQuiesces, .fabMacSend, .fabAnnounced,
  .catSnaps, .catFrozen, .catFcause, .catDumpFroze]

theorem State.takeHold_of_not_running {s : State} (hr : s.running = false) : OnlyM idleHoldLeaves s s.takeHold := by
  unfold State.takeHold
  split
  · exact .refl _ s
  · exact State.dropPoll_only (OnlyM.lit_ctlHoldReq_ctlHolding ((State.acceptFetched_of_not_running hr).mono (by decide))
      (by decide)) (by decide)

theorem State.stopBeat_of_not_running {s : State} (hr : s.running = false) : OnlyM idleHoldLeaves s s.stopBeat := by
  have htake {u : State}
      (h : OnlyM (mask [.fabBeat, .catRings, .catTrace, .catSnaps, .catFrozen, .catFcause, .catDumpFroze, .free]) s u) :
      OnlyM idleHoldLeaves s u.takeHold :=
    (h.mono (by decide)).step (State.takeHold_of_not_running ((h.running (by decide)).trans hr)) (Nat.or_self _)
  unfold State.stopBeat
  split
  · exact .refl _ s
  · exact htake (State.freezeForDump_only (State.latchSnaps_only (State.setBeat_only (State.setBeatSt_only (.refl _ s)
      (by decide)) (by decide)) (by decide)) (by decide))

/-- HOLD entered outside RUN leaves memory, cores and the annex as they were. -/
theorem State.enterHold_of_not_running {s : State} (cause : Nat) (hr : s.running = false) :
    OnlyM idleHoldLeaves s (s.enterHold cause) := by
  have hports : OnlyM (mask [.docGroups, .fabPorts, .fabBeat, .fabLinks, .fabPlanes, .fabSeen, .fabSerial, .fabPendNotices,
      .fabQuiesces, .fabMacSend, .fabAnnounced, .catCounters, .catRings, .catTrace, .free, .out]) s s.portsStop :=
    State.portsStop_only (.refl _ s) (by decide)
  have hbeat := State.stopBeat_of_not_running ((hports.running (by decide)).trans hr)
  exact OnlyM.lit_ctlSt_ctlHcause_ctlHoldReq_ctlHolding (State.dropPoll_only (State.freezeRings_only
    ((hports.mono (by decide)).step hbeat (Nat.or_self _)) (by decide)) (by decide)) (by decide)

/-! ### The image that starts (R432, R437) -/

theorem exec_bootImageVerified {a b : ImageInfo} {s u : State} {slot : Bool} (hon : s.ctl.power = .on) (hboot : s.sec.st = .boot)
    (hseed : s.sec.seeded = true) (hchoose : s.chooseSlot = (u, slot)) :
    exec (.bootImageVerified a b) s = .next
      (if u.imageOk (if slot then b else a) then u.startImage slot (if slot then b else a)
      else if u.imageOk (if !slot then b else a) then u.startImage (!slot) (if !slot then b else a) else u.secFail 1) := by
  simp only [exec, execBootImageVerified, hon, hboot, hseed, hchoose] <;> rfl

theorem State.chooseSlot_steady {s : State} (h : s.sec.flash.dir.trial = false) : s.chooseSlot = (s, s.sec.flash.dir.active) := by
  simp [State.chooseSlot, h]

theorem State.chooseSlot_first {s : State} (h : s.sec.flash.dir.trial = true) (htries : s.sec.flash.dir.tries = false) :
    s.chooseSlot = (s.setDir s.sec.flash.dir.active true true, s.sec.flash.dir.active) := by
  simp [State.chooseSlot, h, htries]

theorem State.chooseSlot_spent {s : State} (h : s.sec.flash.dir.trial = true) (htries : s.sec.flash.dir.tries = true) :
    s.chooseSlot = (s.setDir (!s.sec.flash.dir.active) false false, !s.sec.flash.dir.active) := by
  simp [State.chooseSlot, h, htries]

/-- What an image must pass does not lie in the directory. -/
theorem State.setDir_imageOk (s : State) (x y z : Bool) (i : ImageInfo) : (s.setDir x y z).imageOk i = s.imageOk i := rfl

/-! ### Training and self-test (R478, R482) -/

theorem Memory.get_filter_zero {m : Memory} {n a : Nat} (h : a < n) :
    Memory.get (m.filter (fun c => decide (n ≤ c.1))) a = 0 := by
  have hfind := Tbl.find_filter m (fun k => decide (n ≤ k)) a
  rw [Memory.get, Tbl.look, hfind]
  simp [Nat.not_le.mpr h, Memory.unlisted]

/-- What training leaves of the channels, before its end is decided. -/
def State.trained (s : State) (l : List PlinthTraining) : State :=
  ((l.take 8).zipIdx).foldl (fun s x => s.trainPlinth x.2 x.1) s.applyRecord

/-- The device once every channel has been zeroed. -/
def State.zeroed (s : State) : State := { s with
  ctl := { s.ctl with bootStep := 4, repDirty := true }
  mem := s.mem.filter (fun c => decide (chanBase 2112 ≤ c.1)), chk := [] }

theorem exec_channelTrainingDone {l : List PlinthTraining} {s : State} (halive : s.alive = true) (htrain : s.ctl.st = .train) :
    exec (.channelTrainingDone l) s = .next (if (s.trained l).zeroed.ctl.short = 0
      then { (s.trained l).zeroed with ctl := { (s.trained l).zeroed.ctl with st := .test } }
      else (s.trained l).zeroed.enterHold (if (s.trained l).zeroed.ctl.hcause = 4 then 4 else 5)) := by
  simp only [exec, execChannelTrainingDone, halive, htrain] <;> rfl

theorem State.trained_only (s : State) (l : List PlinthTraining) :
    OnlyM (mask [.mem, .chk, .ctlShort, .ctlChannels, .ctlRepRows, .ctlRepCols, .ctlRepSkip, .ctlRepDirty, .tiersPanels,
      .tiersRepairs, .cores, .plinths, .rasSources, .rasQueue, .rasOvf, .catCounters, .catRings, .catTrace, .free]) s (s.trained l) :=
  .foldl (State.applyRecord_only (.refl _ s) (by decide)) fun u x => State.trainPlinth_only (.refl _ u) (by decide)

/-- The device once the cores that failed have been replaced and the annex's failure is noted. -/
def State.tested (s : State) (l : List SelfTestFail) (annex : Bool) : State :=
  let s1 := (l.map (fun f => (f, (s.core f.core.val).phys))).foldl (fun s f => s.selfTestFail f.2 f.1) s
  if annex then State.setField { s1 with annex := { s1.annex with fail := true } } .anxCtrl [] 0 0 0 else s1

theorem exec_selfTestDone {l : List SelfTestFail} {ax : Bool} {s : State} (halive : s.alive = true) (htest : s.ctl.st = .test) :
    exec (.selfTestDone l ax) s = .next (State.enterHold { s.tested l ax with
      ctl := { (s.tested l ax).ctl with bootStep := 5 } } (s.tested l ax).ctl.hcause) := by
  simp only [exec, execSelfTestDone, halive, htest] <;> rfl

theorem State.tested_only (s : State) (l : List SelfTestFail) (annex : Bool) :
    OnlyM (mask [.regs, .ctlCores, .ctlRepDirty, .cores, .plinths, .annexFail, .free]) s (s.tested l annex) := by
  have hfold : OnlyM (mask [.regs, .ctlCores, .ctlRepDirty, .cores, .plinths, .annexFail, .free]) s
      ((l.map (fun f => (f, (s.core f.core.val).phys))).foldl (fun s f => s.selfTestFail f.2 f.1) s) :=
    .foldl (.refl _ s) fun u f => State.selfTestFail_only (.refl _ u) (by decide)
  unfold State.tested
  extract_lets s1
  split
  · exact State.setField_only (OnlyM.lit_annexFail hfold (by decide)) (by decide)
  · exact hfold

/-- The annex's failure stands once it is found. -/
theorem State.tested_annex (s : State) (l : List SelfTestFail) (annex : Bool) :
    (s.tested l annex).annex.fail = (annex || s.annex.fail) := by
  have hfold : OnlyM (mask [.ctlCores, .ctlRepDirty, .cores, .plinths, .free]) s
      ((l.map (fun f => (f, (s.core f.core.val).phys))).foldl (fun s f => s.selfTestFail f.2 f.1) s) :=
    .foldl (.refl _ s) fun u f => State.selfTestFail_only (.refl _ u) (by decide)
  unfold State.tested
  cases annex
  · exact congrArg Annex.fail (OnlyAnnex.eq hfold.annex (by decide))
  · rfl

/-- A failed core for which its plinth has no spare (R482). -/
theorem State.selfTestFail_none {s : State} {f : SelfTestFail} (h : s.spareCores (f.core.val / 256) = []) :
    ((s.selfTestFail (s.core f.core.val).phys f).core f.core.val).noSpare = true := by
  simp [State.selfTestFail, h, State.pick_nil]

/-- A repair entered for a plinth changes no core. -/
theorem State.addRepair_core (s : State) (p : Nat) (y : Plinth) (e : RepEntry) (x : Control) (c : Nat) :
    State.core { (s.setPlinth p y).addRepair e with ctl := x } c = s.core c := by
  rw [State.core, State.core]
  rfl

/-- A failed core moves to a spare of its plinth (R482). -/
theorem State.selfTestFail_spare {s : State} {f : SelfTestFail} (h : s.spareCores (f.core.val / 256) ≠ []) :
    (s.selfTestFail (s.core f.core.val).phys f).ctl.cores = s.ctl.cores + 1 ∧ ∃ x ∈ s.spareCores (f.core.val / 256),
      (s.selfTestFail (s.core f.core.val).phys f).core f.core.val = { s.core f.core.val with phys := x } := by
  obtain ⟨x, hx, n, hpick⟩ := s.pick_spec h
  refine ⟨?_, x, hx, ?_⟩
  · simp [State.selfTestFail, hpick, State.addRepair]
  · simp only [State.selfTestFail, hpick, bne_self_eq_false, Bool.false_eq_true, if_false]
    rw [State.addRepair_core, State.setCore_core]

theorem State.tested_one_core (s : State) (f : SelfTestFail) (annex : Bool) (c : Nat) :
    (s.tested [f] annex).core c = (s.selfTestFail (s.core f.core.val).phys f).core c := by
  cases annex <;> rfl

theorem OnlyM.core {m : Nat} {s t : State} (h : OnlyM m s t) (e : m.testBit Leaf.cores.ctorIdx = false) (c : Nat) :
    t.core c = s.core c := by
  rw [State.core, State.core, h.cores.resolve_left fun k => Bool.false_ne_true (e.symm.trans k)]

/-- HOLD entered after self-test leaves what the test has made of the cores and the annex. -/
theorem State.enterTested_only {l : List SelfTestFail} {ax : Bool} {s : State} (htest : s.ctl.st = .test) :
    OnlyM idleHoldLeaves { s.tested l ax with ctl := { (s.tested l ax).ctl with bootStep := 5 } }
      (State.enterHold { s.tested l ax with ctl := { (s.tested l ax).ctl with bootStep := 5 } } (s.tested l ax).ctl.hcause) := by
  refine State.enterHold_of_not_running _ ?_
  have hst : (s.tested l ax).ctl.st = .test := ((s.tested_only l ax).ctl.st.resolve_left (by decide)).trans htest
  simp [State.running, hst]

end Sys2Proof.Machine

open Sys2Proof Sys2Proof.Machine

/-- Settles O52: the slot chosen decides which image starts, and HOLD entered outside RUN leaves what training and test made. -/
theorem startUp : Obligations.StartUp := by
  unfold Obligations.StartUp
  refine ⟨fun a b s hon hboot hseed htrial hok => ?_, fun a b s hon hboot hseed htrial htries hseq hok => ?_,
    fun a b s hon hboot hseed htrial htries hseq hok => ?_, fun a b s hon hboot hseed htrial hbad => ?_,
    fun l s halive htrain => ?_, fun l ax s halive htest => ?_, fun f s halive htest hspare => ?_⟩
  · refine ⟨_, (exec_bootImageVerified hon hboot hseed (State.chooseSlot_steady htrial)).trans
      (congrArg Host.Outcome.next (if_pos hok)), rfl, rfl, rfl, rfl, ?_, rfl, rfl⟩
    simp [State.startImage, htrial]
  · have hdir := State.setDir_dir hseq s.sec.flash.dir.active true true
    refine ⟨_, (exec_bootImageVerified hon hboot hseed (State.chooseSlot_first htrial htries)).trans
      (congrArg Host.Outcome.next (if_pos hok)), rfl, rfl, ?_, hdir.trans (by rw [← htrial])⟩
    simp [State.startImage, hdir]
  · have hdir := State.setDir_dir hseq (!s.sec.flash.dir.active) false false
    have hok' : s.imageOk (if !s.sec.flash.dir.active then b else a) = true := by
      cases hactive : s.sec.flash.dir.active <;> simpa [hactive] using hok
    refine ⟨_, (exec_bootImageVerified hon hboot hseed (State.chooseSlot_spent htrial htries)).trans
      (congrArg Host.Outcome.next (if_pos hok')), rfl, rfl, ?_, hdir⟩
    simp [State.startImage, hdir]
  · have hother : (if !s.sec.flash.dir.active then b else a) = if s.sec.flash.dir.active then a else b := by
      cases s.sec.flash.dir.active <;> rfl
    have hexec := (exec_bootImageVerified (a := a) (b := b) hon hboot hseed (State.chooseSlot_steady htrial)).trans
      (congrArg Host.Outcome.next (if_neg (by rw [hbad]; exact Bool.false_ne_true)))
    rw [hother] at hexec
    generalize (if s.sec.flash.dir.active then a else b) = i at hexec ⊢
    by_cases hok : s.imageOk i = true
    · rw [if_pos hok] at hexec
      refine ⟨_, hexec, rfl, ?_⟩
      rw [if_pos hok]
      exact ⟨rfl, rfl, by simp [State.startImage, htrial]⟩
    · rw [if_neg hok] at hexec
      refine ⟨_, hexec, rfl, ?_⟩
      rw [if_neg hok]
      exact ⟨rfl, rfl, rfl⟩
  · generalize hu : (s.trained l).zeroed = u
    have htrained := s.trained_only l
    have hst : u.ctl.st = .train := hu ▸ (htrained.ctl.st.resolve_left (by decide)).trans htrain
    have hcause : u.ctl.hcause = s.ctl.hcause := hu ▸ htrained.ctl.hcause.resolve_left (by decide)
    have hstep : u.ctl.bootStep = 4 := hu ▸ rfl
    have hzero : ∀ a, a < chanBase 2112 → Memory.get u.mem a = 0 := fun a ha => hu ▸ Memory.get_filter_zero ha
    have hexec := hu ▸ exec_channelTrainingDone (l := l) halive htrain
    refine ⟨_, hexec, ?_⟩
    split
    · exact ⟨hstep, hzero, rfl⟩
    · next hshort =>
      have hhold := State.enterHold_of_not_running (s := u) (if u.ctl.hcause = 4 then 4 else 5) (by simp [State.running, hst])
      refine ⟨(hhold.ctl.bootStep.resolve_left (by decide)).trans hstep, fun a ha => ?_, ?_⟩
      · rw [hhold.mem.resolve_left (by decide)]
        exact hzero a ha
      · rw [hhold.ctl.short.resolve_left (by decide), if_neg hshort, ← hcause]
        exact ⟨rfl, rfl⟩
  · have hhold := State.enterTested_only (l := l) (ax := ax) htest
    refine ⟨_, exec_selfTestDone halive htest, rfl, hhold.ctl.bootStep.resolve_left (by decide),
      (s.tested_only l ax).ctl.hcause.resolve_left (by decide), ?_, fun f hf hnone => ?_⟩
    · rw [OnlyAnnex.eq hhold.annex (by decide)]
      exact s.tested_annex l ax
    · subst hf
      rw [hhold.core (by decide)]
      exact (congrArg Core.noSpare (s.tested_one_core f ax _)).trans (State.selfTestFail_none hnone)
  · have hhold := State.enterTested_only (l := [f]) (ax := false) htest
    obtain ⟨hcores, x, hx, hcore⟩ := State.selfTestFail_spare hspare
    refine ⟨_, exec_selfTestDone halive htest, (hhold.ctl.cores.resolve_left (by decide)).trans hcores, x, hx, ?_⟩
    rw [hhold.core (by decide)]
    exact (s.tested_one_core f false _).trans hcore

end

section
namespace Sys2Proof.Machine

/-! ### Fences (R412, R416) -/

/-- A new value under every key, with no entry kept that is then the default, is what each key reads as. -/
theorem Tbl.look_map_filter {α : Type} [DecidableEq α] {l : Tbl α} (hsorted : l.sorted = true) {f : α → α} {d : Nat → α}
    (hd : ∀ k, f (d k) = d k) (k : Nat) :
    Tbl.look ((l.map (fun e => (e.1, f e.2))).filter (fun e => e.2 != d e.1)) k (d k) = f (Tbl.look l k (d k)) := by
  have hkeep : ∀ e ∈ (l.map (fun e => (e.1, f e.2))).filter (fun e => e.2 != d e.1), e.1 = k →
      ∃ v, Tbl.find l k = some v ∧ f v ≠ d k := by
    intro e he hk
    obtain ⟨hmem, hne⟩ := List.mem_filter.mp he
    obtain ⟨x, hx, rfl⟩ := List.mem_map.mp hmem
    obtain rfl : x.1 = k := hk
    exact ⟨x.2, Tbl.find_of_mem hsorted hx, by simpa using hne⟩
  cases hfind : Tbl.find l k with
  | none =>
    have hnone := Tbl.find_none _ k fun e he hk => by
      obtain ⟨v, hv, -⟩ := hkeep e he hk
      cases hfind.symm.trans hv
    simp [Tbl.look, hfind, hnone, hd]
  | some v =>
    by_cases hv : f v = d k
    · have hnone := Tbl.find_none _ k fun e he hk => by
        obtain ⟨w, hw, hne⟩ := hkeep e he hk
        cases hfind.symm.trans hw
        exact hne hv
      simp [Tbl.look, hfind, hnone, hv]
    · have hsome := Tbl.find_map_filter (f := f) (p := fun e => e.2 != d e.1) hfind (by simpa using hv)
      simp [Tbl.look, hfind, hsome]

/-- A new window for the fence counts starts every core's counts over and changes nothing else of a core. -/
theorem State.rollFences_core {s : State} (hsorted : Tbl.sorted s.cores = true) (c : Nat) :
    s.rollFences.core c = { s.core c with
      faults := if s.cat.fenceWin = s.windowNo (s.field .rasFenceCfg [] 12 8) then (s.core c).faults else [] } := by
  unfold State.rollFences
  extract_lets w
  split
  · next hw => rw [if_pos hw.symm]
  · next hw =>
    rw [if_neg (Ne.symm hw)]
    exact Tbl.look_map_filter (f := fun k : Core => { k with faults := [] }) (d := resetCore) hsorted (fun _ => rfl) c

theorem State.rollFences_fenceWin (s : State) :
    s.rollFences.cat.fenceWin = s.windowNo (s.field .rasFenceCfg [] 12 8) := by
  unfold State.rollFences
  extract_lets w
  split
  · next hw => exact hw.symm
  · rfl

/-- The spare cores of a plinth hang on what its cores have and claim, and on which are dead. -/
theorem State.spareCores_congr {s t : State} (hcore : ∀ c, (t.core c).phys = (s.core c).phys ∧ (t.core c).claim = (s.core c).claim)
    (hplinth : t.plinths = s.plinths) (p : Nat) : t.spareCores p = s.spareCores p := by
  have hused : (fun c => (t.core c).phys :: (t.core c).claim.toList) = fun c => (s.core c).phys :: (s.core c).claim.toList :=
    funext fun c => by rw [(hcore c).1, (hcore c).2]
  rw [State.spareCores, State.spareCores, State.plinth, State.plinth, hplinth, hused]

theorem State.claimSpare_core_ne (s : State) {c d : Nat} (h : d ≠ c) : (s.claimSpare c).core d = s.core d := by
  unfold State.claimSpare
  extract_lets k
  split
  · rfl
  split
  · next s1 x hpick =>
    have hdraw : OnlyM (mask [.free]) s s1 := by
      have hp := State.pick_only (.refl (mask [.free]) s) (l := s.spareCores (c / 256)) (by decide)
      rw [hpick] at hp
      exact hp.fst
    rw [State.setCore_core_ne s1 h, hdraw.core (by decide)]
  · next s1 hpick =>
    have hdraw : OnlyM (mask [.free]) s s1 := by
      have hp := State.pick_only (.refl (mask [.free]) s) (l := s.spareCores (c / 256)) (by decide)
      rw [hpick] at hp
      exact hp.fst
    rw [(State.incident_only (.refl _ _) (Nat.or_self _)).core (by decide), State.setCore_core_ne s1 h, hdraw.core (by decide)]

/-- A core that holds no claim claims a spare of its plinth, or is marked as having none (R415). -/
theorem State.claimSpare_core {s : State} {c : Nat} (h : (s.core c).claim = none) :
    if s.spareCores (c / 256) = [] then (s.claimSpare c).core c = { s.core c with noSpare := true }
    else ∃ x ∈ s.spareCores (c / 256), (s.claimSpare c).core c = { s.core c with claim := some x, sparePend := true } := by
  split
  · next hnone =>
    have hclaim : s.claimSpare c = (s.setCore c { s.core c with noSpare := true }).incident clsResidue 0x13 .ok (srcCore c)
        ((s.core c).phys % 264) 0 := by
      simp [State.claimSpare, h, hnone, State.pick_nil]
    rw [hclaim, (State.incident_only (.refl _ _) (Nat.or_self _)).core (by decide), State.setCore_core]
  · next hsome =>
    obtain ⟨x, hx, n, hpick⟩ := s.pick_spec hsome
    refine ⟨x, hx, ?_⟩
    have hclaim : s.claimSpare c = (s.draw n).setCore c { s.core c with claim := some x, sparePend := true } := by
      simp [State.claimSpare, h, hpick]
    rw [hclaim, State.setCore_core]

theorem State.claimSpare_fencePop (s : State) (c : Nat) : ((s.claimSpare c).core c).fencePop = (s.core c).fencePop := by
  cases h : (s.core c).claim with
  | none =>
    have hspec := State.claimSpare_core h
    split at hspec
    · rw [hspec]
    · obtain ⟨x, -, hcore⟩ := hspec
      rw [hcore]
  | some x => simp [State.claimSpare, h]

/-- The POP path of a core is fenced, once the counts of a new window have started over (R412). -/
theorem State.fencePop_eq (s : State) (c : Nat) (h : (s.rollFences.core c).fencePop = false) :
    s.fenceUnit c unitPop = ((s.rollFences.setCore c { s.rollFences.core c with fencePop := true }).incident clsResidue 0x11 .ok
      (srcCore c) (unitDetail unitPop) (Tbl.look (s.rollFences.core c).faults unitPop 0)).claimSpare c := by
  simp [State.fenceUnit, Core.fenced, Core.fence, unitPop, h]

theorem State.fencePop_fenced (s : State) (c : Nat) (h : (s.rollFences.core c).fencePop = true) :
    s.fenceUnit c unitPop = s.rollFences := by
  simp [State.fenceUnit, Core.fenced, unitPop, h]

end Sys2Proof.Machine

open Sys2Proof Sys2Proof.Machine

/-- Settles O9: a new window changes the counts alone, and a core's fence and claim are its own. -/
theorem fencesSetAndClear : Obligations.FencesSetAndClear := by
  unfold Obligations.FencesSetAndClear
  refine ⟨fun w s hpf hop hsorted => ?_, fun w s hpf hop => ?_, fun s halive hsorted => ?_⟩
  · generalize hc : bits w.toNat 10 0 = c
    have hexec : exec (.fencePop 0 w) s = .next (s.fenceUnit c unitPop) := by
      subst hc
      exact congrArg Host.Outcome.next (if_pos (by simp [hpf, hop]))
    have hroll := s.rollFences_core hsorted
    refine ⟨_, hexec, ?_⟩
    cases hfenced : (s.core c).fencePop with
    | true =>
      rw [State.fencePop_fenced s c (by rw [hroll]; exact hfenced)]
      exact ⟨by rw [hroll]; exact hfenced, fun h => (Bool.true_eq_false.mp h).elim, fun d _ => by rw [hroll]⟩
    | false =>
      rw [State.fencePop_eq s c (by rw [hroll]; exact hfenced)]
      generalize hu : (s.rollFences.setCore c { s.rollFences.core c with fencePop := true }).incident clsResidue 0x11 .ok
        (srcCore c) (unitDetail unitPop) (Tbl.look (s.rollFences.core c).faults unitPop 0) = u
      have hincident : OnlyM _ _ u := hu ▸ State.incident_only (.refl _ _) (Nat.or_self _)
      have hself : u.core c = { s.rollFences.core c with fencePop := true } :=
        (hincident.core (by decide) c).trans (State.setCore_core _)
      have hother : ∀ d, d ≠ c → u.core d = s.rollFences.core d := fun d hd =>
        (hincident.core (by decide) d).trans (State.setCore_core_ne _ hd)
      have hspare : u.spareCores (c / 256) = s.spareCores (c / 256) := by
        refine State.spareCores_congr (fun d => ?_) ?_ _
        · by_cases hd : d = c
          · rw [hd, hself, hroll]; exact ⟨rfl, rfl⟩
          · rw [hother d hd, hroll]; exact ⟨rfl, rfl⟩
        · rw [hincident.plinths.resolve_left (by decide)]
          exact (State.rollFences_only (.refl _ s) (Nat.or_self _)).plinths.resolve_left (by decide)
      refine ⟨by rw [State.claimSpare_fencePop, hself], fun _ hclaim => ?_, fun d hd => ?_⟩
      · have hspec := State.claimSpare_core (s := u) (c := c) (by rw [hself, hroll]; exact hclaim)
        rw [hspare] at hspec
        split
        · next hnone => rw [if_pos hnone] at hspec; rw [hspec]
        · next hsome =>
          rw [if_neg hsome] at hspec
          obtain ⟨x, hx, hcore⟩ := hspec
          rw [hcore]
          exact ⟨rfl, x, hx, rfl⟩
      · rw [State.claimSpare_core_ne u hd, hother d hd, hroll]
  · exact ⟨_, congrArg Host.Outcome.next (if_pos (by simp [hpf, hop])), State.setCore_core s, fun d hd => State.setCore_core_ne s hd⟩
  · refine ⟨s.rollFences, congrArg Host.Outcome.next (if_pos halive), s.rollFences_fenceWin, fun c => ?_⟩
    rw [s.rollFences_fenceWin, s.rollFences_core hsorted c]

end

section
namespace Sys2Proof.Machine

/-! ### Filling the incident queue (R408) -/

/-- Records are added at the end of the queue, and a source's FIRST record no longer waits or waits as it did. -/
structure State.Fills (s t : State) : Prop where
  queue : ∃ more, t.ras.queue = s.ras.queue ++ more
  first : ∀ n, (t.source n).first = (s.source n).first
  waits : ∀ n, (t.source n).firstWaits = (s.source n).firstWaits ∨ (t.source n).firstWaits = false

theorem State.Fills.refl (s : State) : s.Fills s :=
  ⟨⟨[], (List.append_nil _).symm⟩, fun _ => rfl, fun _ => .inl rfl⟩

theorem State.Fills.trans {s t u : State} (h : s.Fills t) (k : t.Fills u) : s.Fills u := by
  obtain ⟨x, hx⟩ := h.queue
  obtain ⟨y, hy⟩ := k.queue
  refine ⟨⟨x ++ y, by rw [hy, hx, List.append_assoc]⟩, fun n => (k.first n).trans (h.first n), fun n => ?_⟩
  rcases k.waits n with hk | hk
  · rw [hk]
    exact h.waits n
  · exact .inr hk

/-- One source's registers change, its FIRST kept, and a record may be queued for it. -/
theorem State.Fills.setSource (s : State) {n : Nat} {x : Source} (hfirst : x.first = (s.source n).first)
    (hwaits : x.firstWaits = (s.source n).firstWaits ∨ x.firstWaits = false) : s.Fills (s.setSource n x) := by
  refine ⟨⟨[], (List.append_nil _).symm⟩, fun m => ?_, fun m => ?_⟩ <;> by_cases h : m = n
  · rw [h, State.setSource_source, hfirst]
  · rw [State.setSource_source_ne s h]
  · rw [h, State.setSource_source]
    exact hwaits
  · exact .inl (by rw [State.setSource_source_ne s h])

theorem State.Fills.queueIncident (s : State) (r : Incident) : s.Fills (s.queueIncident r) :=
  ⟨⟨[r], rfl⟩, fun _ => rfl, fun _ => .inl rfl⟩

/-- What becomes of one source where a free entry is filled with its waiting FIRST record. -/
def State.fillFirst (s : State) (n : Nat) : State :=
  if (s.source n).firstWaits && decide (s.ras.queue.length < 1024) then
    match (s.source n).first with
    | none => s
    | some r => (s.setSource n { s.source n with firstWaits := false }).queueIncident r
  else s

theorem State.fillFirsts_cons (n : Nat) (l : List Nat) (s : State) :
    State.fillFirsts (n :: l) s = State.fillFirsts l (s.fillFirst n) := by
  rw [State.fillFirsts, State.fillFirst]
  split <;> rfl

theorem State.fillFirst_fills (s : State) (n : Nat) : s.Fills (s.fillFirst n) := by
  unfold State.fillFirst
  split
  · split
    · exact .refl s
    · have hset : s.Fills (s.setSource n { s.source n with firstWaits := false }) := .setSource s rfl (.inr rfl)
      exact hset.trans (.queueIncident _ _)
  · exact .refl s

/-- A source has no FIRST record that waits while an entry is free. -/
def State.FirstServed (n : Nat) (s : State) : Prop :=
  (s.source n).firstWaits = false ∨ (s.source n).first = none ∨ 1024 ≤ s.ras.queue.length

theorem State.Fills.firstServed {s t : State} (h : s.Fills t) {n : Nat} (hs : s.FirstServed n) : t.FirstServed n := by
  rcases hs with hs | hs | hs
  · exact .inl ((h.waits n).elim (fun k => k.trans hs) id)
  · exact .inr (.inl ((h.first n).trans hs))
  · obtain ⟨more, hmore⟩ := h.queue
    exact .inr (.inr (by rw [hmore, List.length_append]; omega))

theorem State.fillFirst_served (s : State) (n : Nat) : (s.fillFirst n).FirstServed n := by
  unfold State.fillFirst
  split
  · split
    · next hnone => exact .inr (.inl hnone)
    · refine .inl ?_
      show ((s.setSource n { s.source n with firstWaits := false }).source n).firstWaits = false
      rw [State.setSource_source]
  · next h =>
    cases hwaits : (s.source n).firstWaits with
    | false => exact .inl hwaits
    | true => exact .inr (.inr (by simpa [hwaits] using h))

theorem State.fillFirsts_fills (l : List Nat) (s : State) : s.Fills (State.fillFirsts l s) := by
  induction l generalizing s with
  | nil => exact .refl s
  | cons n l ih =>
    rw [State.fillFirsts_cons]
    exact (s.fillFirst_fills n).trans (ih _)

theorem State.fillFirsts_served {l : List Nat} {n : Nat} (hn : n ∈ l) (s : State) : (State.fillFirsts l s).FirstServed n := by
  induction l generalizing s with
  | nil => nomatch hn
  | cons m l ih =>
    rw [State.fillFirsts_cons]
    rcases List.mem_cons.mp hn with rfl | hn
    · exact (State.fillFirsts_fills l _).firstServed (s.fillFirst_served n)
    · exact ih hn _

/-- A pending LAST record queued leaves the source's FIRST as it was. -/
theorem State.fillLates_fills (l : List Nat) (s : State) : s.Fills (State.fillLates l s) := by
  induction l generalizing s with
  | nil => exact .refl s
  | cons n l ih =>
    rw [State.fillLates]
    extract_lets late
    have hlate (y : Source) (hfirst : y.first = (s.source n).first) (hwaits : y.firstWaits = (s.source n).firstWaits) : s.Fills (late y) := by
      unfold late
      split
      · exact .refl s
      · have hset : s.Fills (s.setSource n { y with mark := .none_ }) := .setSource s hfirst (.inl hwaits)
        exact hset.trans (.queueIncident _ _)
    split
    · exact .refl s
    refine State.Fills.trans ?_ (ih _)
    split
    · exact .refl s
    · split
      · exact hlate _ rfl rfl
      · exact .setSource s rfl (.inl rfl)
    · split
      · exact hlate _ rfl rfl
      · exact .refl s

theorem State.fillQueue_fills (s : State) : s.Fills s.fillQueue :=
  (State.fillFirsts_fills _ s).trans (State.fillLates_fills _ _)

/-- Once the queue has been filled, no FIRST record waits while an entry is free. -/
theorem State.fillQueue_served (s : State) (n : Nat) : s.fillQueue.FirstServed n := by
  refine (State.fillLates_fills _ _).firstServed ?_
  by_cases hn : n ∈ s.ras.sources.map Prod.fst
  · exact State.fillFirsts_served hn s
  · have hnone : Tbl.find s.ras.sources n = none :=
      Tbl.find_none _ n fun e he hk => hn (List.mem_map.mpr ⟨e, he, hk⟩)
    exact (State.fillFirsts_fills _ s).firstServed (.inl (by simp [State.source, Tbl.look, hnone]))

/-! ### The incident ring (R407, R409) -/

/-- The state in which the oldest record has gone to the ring and is off the queue. -/
def State.recordSent (s : State) (r : Incident) (l : List Incident) : State :=
  let s1 := s.hostWrite 0 (s.written .rasIringLo [] + s.written .rasIringHi [] * 2 ^ 32 +
    32 * (s.ras.w.toNat % s.incidentSize)) (sealRecord r.bytes ((s.ras.w.toNat / s.incidentSize + 1) % 2))
  { s1 with ras := { s1.ras with queue := l, w := s1.ras.w + 1 } }

theorem exec_incidentRecordWrite {s : State} {r : Incident} {l : List Incident} (halive : s.alive = true)
    (hqueue : s.ras.queue = r :: l) (hen : s.flag .rasCtrl [] 0 = true) (hroom : s.incidentFull = false) :
    exec .incidentRecordWrite s = .next ((s.recordSent r l).fillQueue.incidentInterrupt) := by
  simp only [exec, execIncidentRecordWrite, hqueue, halive, hen, hroom] <;> rfl

theorem State.incidentInterrupt_queue (s : State) : s.incidentInterrupt.ras.queue = s.ras.queue := by
  unfold State.incidentInterrupt
  split <;> rfl

theorem State.incidentInterrupt_intPend (s : State) :
    s.incidentInterrupt.ras.intPend = (s.flag .rasIcfg [] 16 || s.ras.intPend) := by
  unfold State.incidentInterrupt
  split
  · next h => simp [h]
  · next h => simp [h]

theorem OnlyM.flag {m : Nat} {s t : State} (h : OnlyM m s t) (e : m.testBit Leaf.regs.ctorIdx = false) (r : Reg)
    (idx : List Nat) (i : Nat) : t.flag r idx i = s.flag r idx i := by
  rw [State.flag, State.flag, State.field, State.field, State.written, State.written,
    h.regs.resolve_left fun k => Bool.false_ne_true (e.symm.trans k)]

theorem State.incidentEnable_ras (s : State) (w : Word) :
    (s.incidentEnable w).ras =
      if w.getLsbD 0 = true ∧ s.flag .rasCtrl [] 0 = false then { s.ras with w := 0, cons := 0 } else s.ras := by
  unfold State.incidentEnable
  extract_lets was now s1
  have hc : (now && !was) = true ↔ w.getLsbD 0 = true ∧ s.flag .rasCtrl [] 0 = false := by
    rw [Bool.and_eq_true, Bool.not_eq_true']
  by_cases h : (now && !was) = true
  · rw [if_pos h, if_pos (hc.mp h)]
    rfl
  · rw [if_neg h, if_neg (mt hc.mpr h)]
    rfl

theorem State.incidentEnable_flag (s : State) (w : Word) : (s.incidentEnable w).flag .rasCtrl [] 0 = w.getLsbD 0 := by
  have hset : (s.setField .rasCtrl [] 0 0 (if w.getLsbD 0 then 1 else 0)).flag .rasCtrl [] 0 = w.getLsbD 0 := by
    rw [State.flag, State.setField_field_within s _ _ _ (Nat.le_refl 0) (Nat.le_refl 0) (Nat.le_refl 0) (by decide)]
    cases w.getLsbD 0 <;> rfl
  unfold State.incidentEnable
  extract_lets was now s1
  split <;> exact hset

end Sys2Proof.Machine

open Sys2Proof Sys2Proof.Machine

/-- Settles O10: filling the queue adds to its end and leaves no FIRST record waiting while an entry is free. -/
theorem incidentQueue : Obligations.IncidentQueue := by
  unfold Obligations.IncidentQueue
  refine ⟨fun s r l halive hqueue hen hroom hopen => ?_, fun s halive hsorted => ?_, fun w s hpf hw => ?_, fun w s hpf => ?_⟩
  · have hsent : (s.recordSent r l).out = s.out ++ _ := State.hostWrite_out hopen
    have hframe := State.incidentInterrupt_only (State.fillQueue_only (.refl (mask [.rasSources, .rasQueue, .rasIntPend])
      (s.recordSent r l)) (by decide)) (by decide)
    have hras : (s.recordSent r l).ras = { s.ras with queue := l, w := s.ras.w + 1 } := by
      unfold State.recordSent State.hostWrite
      rw [hopen]
      rfl
    obtain ⟨more, hmore⟩ := (s.recordSent r l).fillQueue_fills.queue
    have hflag : (s.recordSent r l).fillQueue.flag .rasIcfg [] 16 = s.flag .rasIcfg [] 16 := by
      have hregs : OnlyM (mask [.rasSources, .rasQueue]) (s.recordSent r l) (s.recordSent r l).fillQueue :=
        State.fillQueue_only (.refl _ _) (by decide)
      rw [hregs.flag (by decide)]
      exact (State.hostWrite_only (.refl (mask [.out]) s) (by decide)).flag (by decide) _ _ _
    refine ⟨_, exec_incidentRecordWrite halive hqueue hen hroom, ?_, ?_, ⟨more, ?_⟩, ?_, ?_⟩
    · rw [hframe.ras.w.resolve_left (by decide), hras]
    · rw [hframe.ras.cons.resolve_left (by decide), hras]
    · rw [State.incidentInterrupt_queue, hmore, hras]
    · rw [hframe.out.resolve_left (by decide), hsent]
    · rw [State.incidentInterrupt_intPend, hflag,
        (State.fillQueue_only (.refl _ (s.recordSent r l)) (Nat.or_self _)).ras.intPend.resolve_left (by decide), hras]
  · refine ⟨s.fillQueue, congrArg Host.Outcome.next (if_pos halive), s.fillQueue_fills.queue, fun hroom n => ?_⟩
    rcases s.fillQueue_served n with h | h | h
    · exact .inl h
    · exact .inr h
    · omega
  · exact ⟨_, congrArg Host.Outcome.next (if_pos (by rw [hpf, hw]; rfl)), State.setSource_source s,
      fun n hn => State.setSource_source_ne s hn⟩
  · refine ⟨_, congrArg Host.Outcome.next (if_pos hpf), s.incidentEnable_flag w, ?_⟩
    rw [s.incidentEnable_ras w]
    split <;> rfl

end

section
namespace Sys2Proof.Machine

/-! ### Memory outside a run of addresses -/

/-- Every byte outside `lo` to `hi − 1` is as it was. -/
def Memory.SameOutside (lo hi : Nat) (m m' : Memory) : Prop := ∀ x, ¬ (lo ≤ x ∧ x < hi) → Memory.get m' x = Memory.get m x

theorem Memory.SameOutside.refl (lo hi : Nat) (m : Memory) : m.SameOutside lo hi m := fun _ _ => rfl

theorem Memory.SameOutside.of_eq {lo hi : Nat} {m m' : Memory} (h : m' = m) : m.SameOutside lo hi m' := h ▸ .refl lo hi m

theorem Memory.SameOutside.trans {lo hi : Nat} {m m' m'' : Memory} (h : m.SameOutside lo hi m') (k : m'.SameOutside lo hi m'') :
    m.SameOutside lo hi m'' := fun x hx => (k x hx).trans (h x hx)

theorem Memory.SameOutside.store {lo hi a : Nat} {b : Bytes} (m : Memory) (ha : lo ≤ a) (hb : a + b.length ≤ hi) :
    m.SameOutside lo hi (Memory.store m a b) := fun x hx => Memory.get_store_out (by omega)

theorem Memory.SameOutside.fold {lo hi : Nat} {α : Type} {f : Memory → α → Memory} {l : List α}
    (hf : ∀ u a, a ∈ l → Memory.SameOutside lo hi u (f u a)) (m : Memory) : Memory.SameOutside lo hi m (l.foldl f m) := by
  induction l generalizing m with
  | nil => exact .refl lo hi _
  | cons a l ih => exact (hf m a (.head _)).trans (ih (fun u b hb => hf u b (.tail _ hb)) _)

theorem Memory.SameOutside.foldl {lo hi : Nat} {α : Type} {f : State → α → State} {l : List α}
    (hf : ∀ u a, a ∈ l → Memory.SameOutside lo hi u.mem (f u a).mem) (s : State) :
    Memory.SameOutside lo hi s.mem (l.foldl f s).mem := by
  induction l generalizing s with
  | nil => exact .refl lo hi _
  | cons a l ih => exact (hf s a (.head _)).trans (ih (fun u b hb => hf u b (.tail _ hb)) _)

/-! ### The copy of a failing channel (R417) -/

theorem State.chanRead_length (s : State) (p a n : Nat) : (s.chanRead p a n).length = n := by
  unfold State.chanRead
  split <;> simp

theorem mergedBurst_length (m : Memory) (k : Nat) (e : List Nat) :
    ((xorRow ((Memory.read m (64 * k) 64).map BitVec.toNat) e).map (BitVec.ofNat 8)).length ≤ 64 := by
  simp [xorRow]

/-- A burst merged into its corrected data changes no byte of another. -/
theorem mergedBurst_sameOutside (chk : Tbl (BitVec 64)) (m : Memory) {k lo hi : Nat} (hlo : lo ≤ 64 * k)
    (hhi : 64 * k + 64 ≤ hi) : Memory.SameOutside lo hi m (match Tbl.find chk k with
      | none => m
      | some c => match burstError c with
        | none => m
        | some e => Memory.store m (64 * k) ((xorRow ((Memory.read m (64 * k) 64).map BitVec.toNat) e).map (BitVec.ofNat 8))) := by
  split
  · exact .refl _ _ _
  split
  · exact .refl _ _ _
  · exact .store m hlo (Nat.le_trans (Nat.add_le_add_left (mergedBurst_length ..) _) hhi)

/-- A write into a channel changes no byte of another, whatever bursts it merges into. -/
theorem State.chanWrite_sameOutside (s : State) {p a : Nat} {b : Bytes} (h : a + b.length ≤ 2 ^ 28) :
    Memory.SameOutside (chanBase p) (chanBase p + 2 ^ 28) s.mem (s.chanWrite p a b).1.mem := by
  unfold State.chanWrite
  extract_lets g n lo hi part edges bad fixed
  split
  · exact .refl _ _ _
  · next hn =>
    have hbase : chanBase p = p * 2 ^ 28 := by rw [chanBase]
    have hg : g = p * 2 ^ 28 + a := by rw [← hbase]
    have hedge : ∀ k ∈ edges, chanBase p ≤ 64 * k ∧ 64 * k + 64 ≤ chanBase p + 2 ^ 28 := by
      intro k hk
      have hk := (List.mem_filter.mp (mem_distinct.mp hk)).1
      simp only [List.mem_cons, List.not_mem_nil, or_false] at hk
      rw [hbase]
      rcases hk with rfl | rfl <;> omega
    have hfixed : Memory.SameOutside (chanBase p) (chanBase p + 2 ^ 28) s.mem fixed := by
      refine Memory.SameOutside.fold (fun m k hk => ?_) s.mem
      obtain ⟨hlo, hhi⟩ := hedge k (List.mem_filter.mp hk).1
      exact mergedBurst_sameOutside s.chk m hlo hhi
    exact hfixed.trans (.store fixed (by omega) (by rw [hbase]; omega))

/-- A write into a channel stores its bytes at their place. -/
theorem State.chanWrite_in {s : State} {p a i : Nat} {b : Bytes} (h : i < b.length) :
    Memory.get (s.chanWrite p a b).1.mem (chanBase p + a + i) = b[i] := by
  rw [State.chanWrite, if_neg (by omega)]
  exact Memory.get_store_in h

/-- The bursts of a channel that hold errors lie within it. -/
theorem State.chanErrors_within {s : State} {p a n : Nat} (h : a + n ≤ 2 ^ 28) :
    ∀ e ∈ s.chanErrors p a n, e.1 + 64 ≤ 2 ^ 28 := by
  unfold State.chanErrors
  extract_lets lo hi
  split
  · exact fun _ h => nomatch h
  · intro e he
    obtain ⟨c, hc, rfl⟩ := List.mem_map.mp he
    have hc := (List.mem_filter.mp hc).2
    simp only [Bool.and_eq_true, decide_eq_true_eq] at hc
    have hbase : chanBase p = p * 2 ^ 28 := rfl
    show 64 * c.1 - chanBase p + 64 ≤ 2 ^ 28
    rw [hbase]
    omega

/-- What the copy does for one burst in error: a poisoned one is written as it stands, the other is counted. -/
def State.copyError (s : State) (p : Nat) (y : ChSpare) (m : Memory) (t : State) (e : Nat × Bool) : State :=
  if e.2 then
    let s2 := (t.chanWrite (p * 264 + y.spare) e.1 (Memory.read m (chanBase (p * 264 + y.pch) + e.1) 64)).1
    let s3 : State := { s2 with chk := Tbl.put s2.chk ((chanBase (p * 264 + y.spare) + e.1) / 64) poisonChk 0 }
    match s.coreOfChan p y.pch with
    | none => s3
    | some c => (s3.count .stkUe c 1).incident clsUe 0x05 .arrayUe (srcChan c) e.1 0
  else match s.coreOfChan p y.pch with
    | none => t
    | some c => t.noteBurst c rdConservator false e.1 false

theorem State.copyChan_eq (s : State) (p : Nat) (y : ChSpare) (n : Nat) :
    s.copyChan p y n = (s.chanErrors (p * 264 + y.pch) y.copied n).foldl (s.copyError p y s.mem)
      (s.chanWrite (p * 264 + y.spare) y.copied (s.chanRead (p * 264 + y.pch) y.copied n)).1 := rfl

theorem State.copyError_sameOutside (s : State) (p : Nat) (y : ChSpare) (m : Memory) (t : State) {e : Nat × Bool}
    (h : e.1 + 64 ≤ 2 ^ 28) : Memory.SameOutside (chanBase (p * 264 + y.spare)) (chanBase (p * 264 + y.spare) + 2 ^ 28) t.mem
      (s.copyError p y m t e).mem := by
  unfold State.copyError
  split
  · extract_lets s2 s3
    have hwrite : Memory.SameOutside (chanBase (p * 264 + y.spare)) (chanBase (p * 264 + y.spare) + 2 ^ 28) t.mem s3.mem :=
      t.chanWrite_sameOutside (by rw [Memory.read_length]; exact h)
    split
    · exact hwrite
    · refine hwrite.trans (.of_eq (OnlyM.mem (m := leavesBut .mem) ?_ |>.resolve_left (by decide)))
      exact State.incident_only (State.count_only (.refl _ s3) (by decide)) (by decide)
  · split
    · exact .refl _ _ _
    · exact .of_eq ((State.noteBurst_only (.refl _ t) (Nat.or_self _)).mem.resolve_left (by decide))

/-- The copy changes no byte but of the spare channel. -/
theorem State.copyChan_sameOutside (s : State) (p : Nat) (y : ChSpare) {n : Nat} (h : y.copied + n ≤ 2 ^ 28) :
    Memory.SameOutside (chanBase (p * 264 + y.spare)) (chanBase (p * 264 + y.spare) + 2 ^ 28) s.mem (s.copyChan p y n).mem := by
  rw [State.copyChan_eq]
  have hwrite := s.chanWrite_sameOutside (p := p * 264 + y.spare) (a := y.copied)
    (b := s.chanRead (p * 264 + y.pch) y.copied n) (by rw [State.chanRead_length]; exact h)
  exact hwrite.trans (Memory.SameOutside.foldl
    (fun t e he => s.copyError_sameOutside p y s.mem t (State.chanErrors_within h e he)) _)

/-- What reads without an error is copied unchanged. -/
theorem State.copyChan_clean {s : State} {p : Nat} {y : ChSpare} {n i : Nat}
    (h : s.chanErrors (p * 264 + y.pch) y.copied n = []) (hi : i < n) :
    Memory.get (s.copyChan p y n).mem (chanBase (p * 264 + y.spare) + y.copied + i) =
      (Memory.read s.mem (chanBase (p * 264 + y.pch) + y.copied) n).getD i 0 := by
  have hread : s.chanRead (p * 264 + y.pch) y.copied n = Memory.read s.mem (chanBase (p * 264 + y.pch) + y.copied) n := by
    rw [State.chanRead, h]
    rfl
  have hi' : i < (Memory.read s.mem (chanBase (p * 264 + y.pch) + y.copied) n).length := by rwa [Memory.read_length]
  rw [State.copyChan_eq, h, List.foldl_nil, hread, State.chanWrite_in hi', List.getD_eq_getElem?_getD,
    List.getElem?_eq_getElem hi']
  rfl

theorem exec_channelSpareCopy {p : PlinthNo} {n : Nat} {ups : List Upset} {s u : State} {y : ChSpare} {c : Nat}
    (hu : u = s.upsets ups) (halive : u.alive = true)
    (hcopy : (u.plinth p.val).chSpares.find? (fun y => decide (y.copied < 2 ^ 28)) = some y)
    (hcore : u.coreOfChan p.val y.pch = some c) (hqueue : (u.chan c).queue = []) (hdebt : u.debt c < 1024) :
    exec (.channelSpareCopy p n ups) s = .next ((u.copyChan p.val y (min (64 * n) (2 ^ 28 - y.copied))).setPlinth p.val
      { u.plinth p.val with chSpares := (u.plinth p.val).chSpares.map (fun z =>
          if z.pch = y.pch then { z with copied := z.copied + min (64 * n) (2 ^ 28 - y.copied) } else z) }) := by
  have hplinth : ∀ k, (u.copyChan p.val y k).plinth p.val = u.plinth p.val := fun k =>
    State.plinth_congr ((State.copyChan_only (.refl _ u) (Nat.or_self _)).plinths.resolve_left (by decide)) _
  subst hu
  simp only [exec, execChannelSpareCopy, hcopy, hcore, hqueue, hdebt, halive, hplinth, List.isEmpty_nil, decide_true,
    Bool.and_self, Bool.not_true, Bool.or_self, Bool.false_eq_true, if_false]

/-! ### The switch to a spare core (R415) -/

/-- The scratchpad of a core copied to that of its spare. -/
def State.scratchMoved (s : State) (c n : Nat) : State :=
  (s.noteScratch c 0 262144).1.sramWrite (scratchBase n) ((s.noteScratch c 0 262144).1.readScratch c 0 262144)

/-- A core in its spare, with its fences clear. -/
def State.coreMoved (s : State) (c n : Nat) : State :=
  (s.scratchMoved c n).setCore c { ((s.scratchMoved c n).core c).clearFences with phys := n, faults := [] }

/-- A core's place marked dead in its plinth. -/
def State.coreBuried (s : State) (c old : Nat) : State :=
  s.setPlinth (c / 256) { s.plinth (c / 256) with deadCores := (s.plinth (c / 256)).deadCores ++ [old] }

/-- The repair entered for a core that has moved to its spare. -/
def coreRepair (c old new : Nat) : RepEntry :=
  { kind := 4, plinth := c / 256, phys := old, die := 0, bank := 0, row := 0, spare := new }

theorem State.switchCore_eq (s : State) (c n : Nat) : s.switchCore c n =
    (((s.coreMoved c n).coreBuried c ((s.core c).phys % 264)).addRepair (coreRepair c ((s.core c).phys % 264) (n % 264))).incident
      clsResidue 0x12 .ok (srcCore c) ((s.core c).phys % 264 + n % 264 * 2 ^ 16) (s.beat % 2 ^ 32) := rfl

/-- What follows once a core is in its spare changes neither memory nor a core. -/
theorem State.switchCore_only_coreMoved (s : State) (c n : Nat) :
    OnlyM (mask [.plinths, .ctlRepDirty, .rasSources, .rasQueue, .rasOvf, .catRings, .catTrace, .free]) (s.coreMoved c n)
      (s.switchCore c n) := by
  rw [State.switchCore_eq]
  exact State.incident_only (State.addRepair_only (State.setPlinth_only (.refl _ _) (by decide)) (by decide)) (by decide)

theorem State.switchCore_mem (s : State) (c n : Nat) :
    (s.switchCore c n).mem = Memory.store s.mem (scratchBase n) ((s.noteScratch c 0 262144).1.readScratch c 0 262144) := by
  have hnote := (State.noteScratch_only (.refl _ s) (a1 := c) (a2 := 0) (a3 := 262144) (Nat.or_self _)).fst
  rw [(s.switchCore_only_coreMoved c n).mem.resolve_left (by decide), ← hnote.mem.resolve_left (by decide)]
  rfl

theorem State.readScratch_length (s : State) (c a n : Nat) : (s.readScratch c a n).length = n := by
  unfold State.readScratch State.sramRead
  extract_lets dbl
  split <;> simp

/-- What reads of the scratchpad without an error reads so once its errors are noted. -/
theorem State.noteScratch_read {s : State} {c n : Nat} (h : s.badWords (s.scratch c) n = []) :
    (s.noteScratch c 0 n).1.readScratch c 0 n = Memory.read s.mem (s.scratch c) n := by
  have hnote : s.noteScratch c 0 n = (s, false) := by
    rw [State.noteScratch, Nat.add_zero, h]
    rfl
  rw [hnote]
  simp [State.readScratch, State.sramRead, h]

theorem State.scratchMoved_core (s : State) (c n d : Nat) : (s.scratchMoved c n).core d = s.core d :=
  (State.noteScratch_only (.refl _ s) (a1 := c) (a2 := 0) (a3 := 262144) (Nat.or_self _)).fst.core (by decide) d

theorem State.switchCore_core (s : State) (c n : Nat) :
    (s.switchCore c n).core c = { (s.core c).clearFences with phys := n, faults := [] } := by
  rw [(s.switchCore_only_coreMoved c n).core (by decide), State.coreMoved, State.setCore_core, State.scratchMoved_core]

theorem State.switchCore_core_ne (s : State) {c d : Nat} (n : Nat) (h : d ≠ c) : (s.switchCore c n).core d = s.core d := by
  rw [(s.switchCore_only_coreMoved c n).core (by decide), State.coreMoved, State.setCore_core_ne _ h, State.scratchMoved_core]

theorem State.switchCore_deadCores (s : State) (c n : Nat) :
    (s.core c).phys % 264 ∈ ((s.switchCore c n).plinth (c / 256)).deadCores := by
  have hincident : ∀ (u : State) a1 a2 a3 a4 a5 a6, (u.incident a1 a2 a3 a4 a5 a6).plinth (c / 256) = u.plinth (c / 256) :=
    fun u _ _ _ _ _ _ => State.plinth_congr ((State.incident_only (.refl _ u) (Nat.or_self _)).plinths.resolve_left (by decide)) _
  rw [State.switchCore_eq, hincident]
  show _ ∈ ((State.setPlinth _ (c / 256) _).plinth (c / 256)).deadCores
  rw [State.setPlinth_plinth]
  show _ ∈ (((s.coreMoved c n).coreBuried c _).plinth (c / 256)).deadCores
  rw [State.coreBuried, State.setPlinth_plinth]
  exact List.mem_append_right _ (.head _)

/-! ### The switch of a core and its channel -/

/-- The core's part of a switch. -/
def State.coreSwitched (s : State) (c : Nat) : State :=
  match (s.core c).switchTo with | none => s | some n => s.switchCore c n

/-- The channel's part of a switch, to the copy that was complete when the switch began. -/
def State.chanSwitched (s : State) (c : Nat) (copy : Option ChSpare) : State :=
  match copy with | none => s | some y => s.switchChan c y

theorem exec_coreSpareSwitch {c : CoreNo} {s : State} (hrun : s.running = true) (hswitch : (s.core c.val).switching = true)
    (hempty : s.coreInUse c.val = false) (hfree : s.repairTouches c.val = false) :
    exec (.coreSpareSwitch c) s = .next (((s.coreSwitched c.val).chanSwitched c.val
        ((s.copyDone c.val).filter (fun y => (s.core c.val).switchCh == some y.spare))).setCore c.val
      { ((s.coreSwitched c.val).chanSwitched c.val
        ((s.copyDone c.val).filter (fun y => (s.core c.val).switchCh == some y.spare))).core c.val with
          switching := false, switchTo := none, switchCh := none }) := by
  simp only [exec, execCoreSpareSwitch, hrun, hswitch, hempty, hfree] <;> rfl

theorem State.switchChan_core (s : State) (c : Nat) (y : ChSpare) :
    (s.switchChan c y).core c = { s.core c with chan := c / 256 * 264 + y.spare } ∧
      ∀ d, d ≠ c → (s.switchChan c y).core d = s.core d := by
  have hrest : ∀ d, (s.switchChan c y).core d = (s.setCore c { s.core c with chan := c / 256 * 264 + y.spare }).core d :=
    OnlyM.core (m := leavesBut .cores) (State.incident_only (State.setPlinth_only (.refl _ _) (by decide)) (by decide)) (by decide)
  exact ⟨(hrest c).trans (State.setCore_core s), fun d hd => (hrest d).trans (State.setCore_core_ne s hd)⟩

theorem State.switchChan_deadCores (s : State) (c : Nat) (y : ChSpare) :
    ((s.switchChan c y).plinth (c / 256)).deadCores = (s.plinth (c / 256)).deadCores := by
  have hincident : ∀ (u : State) a1 a2 a3 a4 a5 a6, (u.incident a1 a2 a3 a4 a5 a6).plinth (c / 256) = u.plinth (c / 256) :=
    fun u _ _ _ _ _ _ => State.plinth_congr ((State.incident_only (.refl _ u) (Nat.or_self _)).plinths.resolve_left (by decide)) _
  rw [State.switchChan, hincident, State.setPlinth_plinth]
  rfl

/-- The channel's part changes the channel of its core alone, and no byte. -/
theorem State.chanSwitched_spec (s : State) (c : Nat) (copy : Option ChSpare) :
    (s.chanSwitched c copy).core c = { s.core c with
      chan := match copy with | none => (s.core c).chan | some y => c / 256 * 264 + y.spare } ∧
      (∀ d, d ≠ c → (s.chanSwitched c copy).core d = s.core d) ∧ (s.chanSwitched c copy).mem = s.mem ∧
      ((s.chanSwitched c copy).plinth (c / 256)).deadCores = (s.plinth (c / 256)).deadCores := by
  cases copy with
  | none => exact ⟨rfl, fun _ _ => rfl, rfl, rfl⟩
  | some y =>
    obtain ⟨hself, hother⟩ := s.switchChan_core c y
    exact ⟨hself, hother, (State.switchChan_only (.refl _ s) (Nat.or_self _)).mem.resolve_left (by decide),
      s.switchChan_deadCores c y⟩

theorem State.coreSwitched_core_ne (s : State) {c d : Nat} (h : d ≠ c) : (s.coreSwitched c).core d = s.core d := by
  unfold State.coreSwitched
  split
  · rfl
  · exact s.switchCore_core_ne _ h

/-- A switch of the core leaves its channel, which is switched apart. -/
theorem State.coreSwitched_chan (s : State) (c : Nat) : ((s.coreSwitched c).core c).chan = (s.core c).chan := by
  unfold State.coreSwitched
  split
  · rfl
  · rw [State.switchCore_core]
    rfl

/-! ### The repair record (R481) -/

/-- The record written next, with the SEQ that follows that of the copy in use. -/
def State.nextRecord (s : State) (seq : Word) : RepairRec := { valid := true, seq := seq, entries := s.recordEntries }

theorem exec_repairRecordWrite {s : State} (halive : s.alive = true) (hdirty : s.ctl.repDirty = true) :
    ∃ t, exec .repairRecordWrite s = .next t ∧ t.ctl.repDirty = false ∧
      (match s.sec.flash.recordInUse with
       | some false => t.sec.flash.rep0 = s.sec.flash.rep0 ∧ t.sec.flash.rep1 = s.nextRecord (s.sec.flash.rep0.seq + 1)
       | some true => t.sec.flash.rep1 = s.sec.flash.rep1 ∧ t.sec.flash.rep0 = s.nextRecord (s.sec.flash.rep1.seq + 1)
       | none => (t.sec.flash.rep0 = s.sec.flash.rep0 ∧ t.sec.flash.rep1 = s.nextRecord 1) ∨
          (t.sec.flash.rep1 = s.sec.flash.rep1 ∧ t.sec.flash.rep0 = s.nextRecord 1)) := by
  have hgo : ¬ (!s.alive || !s.ctl.repDirty) = true := by simp [halive, hdirty]
  refine ⟨_, if_neg hgo, rfl, ?_⟩
  cases huse : s.sec.flash.recordInUse with
  | none =>
    cases hpick : Config.freeNat s.free % 2 == 1 with
    | true => exact .inl ⟨rfl, rfl⟩
    | false => exact .inr ⟨rfl, rfl⟩
  | some b => cases b <;> exact ⟨rfl, rfl⟩

end Sys2Proof.Machine

open Sys2Proof Sys2Proof.Machine

/-- Settles O37: the copy writes the spare channel alone, and a switch changes its own core, its plinth and the spare's scratchpad. -/
theorem sparesSwitch : Obligations.SparesSwitch := by
  unfold Obligations.SparesSwitch
  refine ⟨fun p n ups s u y c hu halive hcopy hcore hqueue hdebt => ?_, fun c s hrun hswitch hempty hfree => ?_,
    fun s halive hdirty => exec_repairRecordWrite halive hdirty⟩
  · generalize hk : min (64 * n) (2 ^ 28 - y.copied) = k
    have hroom : y.copied + k ≤ 2 ^ 28 := by
      have hlt : y.copied < 2 ^ 28 := by simpa using List.find?_some hcopy
      omega
    have hplinths := (State.copyChan_only (.refl _ u) (a1 := p.val) (a2 := y) (a3 := k) (Nat.or_self _)).plinths.resolve_left (by decide)
    have hexec := exec_channelSpareCopy hu halive hcopy hcore hqueue hdebt (n := n)
    rw [hk] at hexec
    exact ⟨_, hexec, State.setPlinth_plinth _, fun q hq => (State.setPlinth_plinth_ne _ hq).trans (State.plinth_congr hplinths q),
      u.copyChan_sameOutside p.val y hroom, fun hclean i hi => State.copyChan_clean hclean hi⟩
  · obtain ⟨hcore, hother, hmem, hdead⟩ := (s.coreSwitched c.val).chanSwitched_spec c.val
      ((s.copyDone c.val).filter (fun y => (s.core c.val).switchCh == some y.spare))
    refine ⟨_, exec_coreSpareSwitch hrun hswitch hempty hfree, ?_, fun d hd => ?_, ?_, ?_⟩
    · rw [State.setCore_core]
    · rw [State.setCore_core_ne _ hd, hother d hd, s.coreSwitched_core_ne hd]
    · rw [State.setCore_core, hcore]
      cases hto : (s.core c.val).switchTo with
      | none =>
        have hsame : s.coreSwitched c.val = s := by rw [State.coreSwitched, hto]
        rw [hsame] at hmem ⊢
        exact ⟨rfl, hmem⟩
      | some n =>
        have hmoved : s.coreSwitched c.val = s.switchCore c.val n := by rw [State.coreSwitched, hto]
        rw [hmoved] at hmem hdead ⊢
        rw [State.switchCore_mem] at hmem
        have hdead' := hdead ▸ s.switchCore_deadCores c.val n
        rw [State.switchCore_core]
        refine ⟨rfl, rfl, rfl, hdead', fun hclean i hi => ?_, fun x hx => ?_⟩
        · rw [State.noteScratch_read hclean] at hmem
          have hi' : i < (Memory.read s.mem (s.scratch c.val) 262144).length := by rwa [Memory.read_length]
          refine (congrArg (Memory.get · _) hmem).trans ?_
          rw [Memory.get_store_in hi', List.getD_eq_getElem?_getD, List.getElem?_eq_getElem hi']
          rfl
        · refine (congrArg (Memory.get · _) hmem).trans (Memory.get_store_out ?_)
          rw [State.readScratch_length]
          omega
    · rw [State.setCore_core, hcore, s.coreSwitched_chan] <;> rfl

end

section
namespace Sys2Proof.Machine

/-! ### Snapshots (R453) -/

/-- What the latch at a boundary makes of one function's snapshot. -/
def Snap.latch (counters : Tbl Nat) (beat : Nat) (x : Snap) : Snap :=
  if x.wanted then { x with wanted := false, latched := some counters, beat := beat } else x

theorem State.setSnap_snap (s : State) (n : Nat) (x : Snap) : (s.setSnap n x).snap n = x := Tbl.look_put_self ..

theorem State.setSnap_snap_ne (s : State) {n g : Nat} (x : Snap) (h : g ≠ n) : (s.setSnap n x).snap g = s.snap g :=
  Tbl.look_put_ne _ _ _ _ h

theorem State.latchSnaps_snap (s : State) (n : Nat) :
    s.latchSnaps.snap n = (s.snap n).latch s.cat.counters s.beat := by
  have hmap : s.latchSnaps.cat.snaps = s.cat.snaps.map fun e => (e.1, e.2.latch s.cat.counters s.beat) := by
    refine List.map_congr_left fun e _ => ?_
    rw [Snap.latch]
    split <;> rfl
  rw [State.snap, hmap]
  exact Tbl.look_map s.cat.snaps n rfl

/-- A snapshot asked for is BUSY until the boundary, and latches at once where no boundary comes. -/
theorem State.takeSnapshot_snap {s : State} {n : Nat} (h : (s.snap n).busy = false) :
    (s.takeSnapshot n).snap n = (if s.beatOff = true
      then { s.snap n with busy := true, wanted := false, latched := some s.cat.counters, beat := s.beat }
      else { s.snap n with busy := true, wanted := true }) ∧ (s.takeSnapshot n).cat.counters = s.cat.counters := by
  have hset : s.takeSnapshot n = if (s.setSnap n { s.snap n with busy := true, wanted := true }).beatOff
      then (s.setSnap n { s.snap n with busy := true, wanted := true }).latchSnaps
      else s.setSnap n { s.snap n with busy := true, wanted := true } := by
    simp [State.takeSnapshot, h]
  have hoff : (s.setSnap n { s.snap n with busy := true, wanted := true }).beatOff = s.beatOff := rfl
  rw [hset, hoff]
  split
  · refine ⟨?_, rfl⟩
    rw [State.latchSnaps_snap, State.setSnap_snap]
    rfl
  · exact ⟨State.setSnap_snap .., rfl⟩

theorem exec_snapshot {f : GalNo} {w : Word} {s : State} (hup : s.barUp = true) (hgo : w.getLsbD 0 = true) :
    exec (.snapshot f w) s = .next (s.takeSnapshot f.val) := by
  show execSnapshot f w s = _
  rw [execSnapshot, hup, hgo]
  rfl

theorem exec_snapshotDone {f : GalNo} {s : State} {c : Tbl Nat} (halive : s.alive = true)
    (hbusy : (s.snap f.val).busy = true) (hlatched : (s.snap f.val).latched = some c) :
    exec (.snapshotDone f) s = .next ((s.hostWrite f.val (s.snapAddr f.val) (snapshotBytes f.val
      ((s.snap f.val).seq + 1).toNat (s.snap f.val).beat ((s.fab.carMap.map (fun m => m.groups.length)).getD 0) c)).setSnap
        f.val { s.snap f.val with busy := false, latched := none, seq := (s.snap f.val).seq + 1 }) := by
  show execSnapshotDone f s = _
  simp only [execSnapshotDone, hlatched, halive, hbusy]
  rfl

/-! ### The event rings (R461, R463) -/

theorem State.readCommandIs_of {f : GalNo} {w : Word} {s : State} {op : Nat} (hpf : s.pfWrite f = true)
    (hop : bits w.toNat 2 0 = op) : s.readCommandIs f w op = s.readCommand f.val op := by
  simp [State.readCommandIs, hpf, hop]

/-- A dump asked for is BUSY, and freezes at once the rings that stand where no boundary comes. -/
theorem State.readCommand_dump (s : State) (n : Nat) : if s.cat.dumpBusy = true
    then s.readCommand n 1 = s.refuseWrite n (regOff .catRdCmd []) .lockedField
    else (s.readCommand n 1).cat.dumpBusy = true ∧ (s.readCommand n 1).cat.frozen = (s.cat.frozen || s.beatOff) ∧
      (s.readCommand n 1).cat.dumpFroze = (!s.cat.frozen && s.beatOff) := by
  split
  case isTrue h => simp only [State.readCommand, h, if_true]
  case isFalse h =>
    have hoff : ({ s with cat := { s.cat with dumpBusy := true, dumpFroze := false } } : State).beatOff = s.beatOff := rfl
    simp only [State.readCommand, h, hoff, Bool.false_eq_true, if_false]
    cases hb : s.beatOff <;> cases hf : s.cat.frozen <;>
      simp [State.freezeForDump, State.freezeRings]

theorem State.hostWrite_cat (s : State) (n a : Nat) (b : Bytes) : (s.hostWrite n a b).cat = s.cat := by
  unfold State.hostWrite
  split <;> rfl

/-- What a dump that has been written leaves of the rings: those frozen for it run again (R463). -/
def State.endDump (s : State) : State :=
  { (if s.cat.dumpFroze then s.thawRings else s) with
    cat := { (if s.cat.dumpFroze then s.thawRings else s).cat with dumpBusy := false, dumpFroze := false } }

theorem State.endDump_cat (s : State) (h : s.cat.frozen = true) : s.endDump.cat.dumpBusy = false ∧
    s.endDump.cat.frozen = !s.cat.dumpFroze ∧ s.endDump.cat.rings = s.cat.rings ∧ s.endDump.out = s.out := by
  rw [State.endDump]
  cases s.cat.dumpFroze
  · exact ⟨rfl, h, rfl, rfl⟩
  · exact ⟨rfl, rfl, rfl, rfl⟩

theorem exec_dumpDone {s : State} (halive : s.alive = true) (hbusy : s.cat.dumpBusy = true) (hfrozen : s.cat.frozen = true) :
    exec .dumpDone s = .next (s.hostWrite 0 (s.written .catRdLo [] + s.written .catRdHi [] * 2 ^ 32)
      ((ringUnits.map (fun u => ringBytes u (Tbl.look s.cat.rings u {}))).flatten)).endDump := by
  show execDumpDone s = _
  rw [execDumpDone, halive, hbusy, hfrozen]
  rfl

/-! ### Recording an event (R456, R457, R461) -/

/-- A ring after one more record. -/
def EvRing.push (r : EvRing) (x : Line16) : EvRing :=
  { r with widx := (r.widx + 1) % 2 ^ 32, recs := (r.recs ++ [x]).drop (r.recs.length + 1 - 64) }

/-- An event of a unit that has a ring of its own goes into that ring, or counts there as lost. -/
theorem State.event_rings (s : State) {u : Nat} (code status arg0 arg1 : Nat) (hu : u / 4096 < 5) :
    (s.event u code status arg0 arg1).cat.rings = Tbl.put s.cat.rings u (if s.cat.frozen
      then { Tbl.look s.cat.rings u {} with lost := ((Tbl.look s.cat.rings u {}).lost + 1) % 2 ^ 32 }
      else (Tbl.look s.cat.rings u {}).push (s.eventRec u code status arg0 arg1).2.1) {} := by
  have hoffer (t : State) (a1 a2 a3 a4 a5) : (t.traceOffer a1 a2 a3 a4 a5).cat.rings = t.cat.rings :=
    (State.traceOffer_only (.refl _ t) (Nat.or_self _)).cat.rings.resolve_left (by decide)
  rw [State.event, hoffer, State.eventRec]
  simp only [if_neg (Nat.not_le.mpr hu)]
  rfl

/-- Reading the beat, the event and the argument back from the bits of a record. -/
theorem recordBits {clk beat code status arg0 arg1 : Nat} (h : arg1 < 2 ^ 64) {n : Nat}
    (hn : n = clk % 32768 + beat % 2 ^ 16 * 2 ^ 16 + code % 256 * 2 ^ 32 + status % 256 * 2 ^ 40 + arg0 % 65536 * 2 ^ 48 +
      arg1 % 2 ^ 64 * 2 ^ 64) : n < 2 ^ 128 ∧ bits n 31 16 = beat % 2 ^ 16 ∧ bits n 39 32 = code % 2 ^ 8 ∧ bits n 127 64 = arg1 := by
  simp only [bits]
  omega

/-- The fields of an event's record, of which CLK alone is a free value. -/
theorem State.eventRec_rec (s : State) (u code status arg0 : Nat) {arg1 : Nat} (h : arg1 < 2 ^ 64) :
    bits (s.eventRec u code status arg0 arg1).2.1.toNat 31 16 = s.beat % 2 ^ 16 ∧
    bits (s.eventRec u code status arg0 arg1).2.1.toNat 39 32 = code % 2 ^ 8 ∧
    bits (s.eventRec u code status arg0 arg1).2.1.toNat 127 64 = arg1 := by
  have hbeat : bits (s.draw 2).beat 15 0 = s.beat % 2 ^ 16 := by simp [bits, State.beat, State.draw]
  obtain ⟨hlt, hfields⟩ := recordBits (clk := Config.freeNat s.free % (1000 * s.beatUs)) (beat := s.beat) (code := code)
    (status := status) (arg0 := arg0) h rfl
  rw [State.eventRec]
  simp only [hbeat, BitVec.toNat_ofNat]
  rw [Nat.mod_eq_of_lt hlt]
  exact hfields

theorem exec_mark {f : GalNo} {w : Word} {s : State} (hpf : s.pfWrite f = true) :
    exec (.mark f w) s = .next (s.event (srcHub hubHost) 0x0A 0 0 w.toNat) := by
  show execMark f w s = _
  rw [execMark, hpf]
  rfl

/-- Settles O42: each command by what exec of it comes to; a snapshot and a dump done write host memory and their own entry alone. -/
theorem snapshotsAndRings : Obligations.SnapshotsAndRings := by
  refine ⟨fun f w s hup hgo => ?_, fun f s c halive hbusy hlatched hcut => ⟨_, exec_snapshotDone halive hbusy hlatched, ?_⟩,
    fun w s hpf hop => ?_, fun s halive hbusy hfrozen hcut => ⟨_, exec_dumpDone halive hbusy hfrozen, ?_⟩,
    fun w s hpf hop => ?_, fun w s hpf hop => ?_, fun w s r hpf hr => ⟨_, exec_mark hpf, ?_⟩⟩
  · rw [exec_snapshot hup hgo]
    split
    case isTrue h => simp only [State.takeSnapshot, h, if_true]
    case isFalse h => exact ⟨_, rfl, State.takeSnapshot_snap (Bool.eq_false_iff.mpr h)⟩
  · refine ⟨State.setSnap_snap .., fun g hg => ?_, ?_⟩
    · rw [State.setSnap_snap_ne _ _ hg, State.snap, State.hostWrite_cat]
      rfl
    · exact State.hostWrite_out hcut
  · have hexec : exec (.dump 0 w) s = .next (s.readCommand 0 1) := congrArg Host.Outcome.next (State.readCommandIs_of hpf hop)
    have hdump := s.readCommand_dump 0
    rw [hexec]
    split
    case isTrue h => rw [if_pos h] at hdump; rw [hdump]
    case isFalse h => rw [if_neg h] at hdump; exact ⟨_, rfl, hdump⟩
  · have hcat := s.hostWrite_cat 0 (s.written .catRdLo [] + s.written .catRdHi [] * 2 ^ 32)
      ((ringUnits.map (fun u => ringBytes u (Tbl.look s.cat.rings u {}))).flatten)
    obtain ⟨hend, hthawed, hrings, hout⟩ := State.endDump_cat _ (hcat ▸ hfrozen)
    exact ⟨hend, hthawed.trans (by rw [hcat]), hrings.trans (by rw [hcat]), hout.trans (State.hostWrite_out hcut)⟩
  · refine ⟨_, congrArg Host.Outcome.next (State.readCommandIs_of hpf hop), (s.freezeRings_frozen 0).1, ?_⟩
    exact (State.freezeRings_only (a1 := 0) (.refl _ s) (Nat.or_self _)).cat.rings.resolve_left (by decide)
  · exact ⟨_, congrArg Host.Outcome.next (State.readCommandIs_of hpf hop), rfl, rfl, rfl⟩
  · have hrings := s.event_rings (u := srcHub hubHost) 0x0A 0 0 w.toNat (by decide)
    obtain ⟨hbeat, hcode, harg⟩ := s.eventRec_rec (srcHub hubHost) 0x0A 0 0
      (w.isLt.trans (by decide))
    refine ⟨fun u hu => by rw [hrings, Tbl.look_put_ne _ _ _ _ hu], ?_⟩
    rw [hrings, Tbl.look_put_self, hr]
    split
    · rfl
    · exact ⟨_, hcode, hbeat, harg, rfl⟩

end Sys2Proof.Machine

end

section
namespace Sys2Proof.Machine

/-! ### The trace's commands (R466, R467) -/

theorem State.traceCommandIs_of {f : GalNo} {w : Word} {s : State} {op : Nat} (hpf : s.pfWrite f = true)
    (hop : bits w.toNat 1 0 = op) : s.traceCommandIs f w op = s.traceCommand f.val op := by
  simp [State.traceCommandIs, hpf, hop]

theorem State.traceCommand_armRunning {s : State} (n : Nat) (h : s.cat.trace.st = .armed ∨ s.cat.trace.st = .triggered) :
    s.traceCommand n 1 = s := by
  rcases h with h | h <;> simp [State.traceCommand, h]

/-- What ARM does while no trace runs. -/
theorem State.traceCommand_arm {s : State} (n : Nat) (h : ¬ (s.cat.trace.st = .armed ∨ s.cat.trace.st = .triggered)) :
    s.traceCommand n 1 = if s.uncommitted (fun r _ => r == .catTrBase || r == .catTrSize) = true ∨
        s.traceSize < s.field .catTrPost [] 21 0 + 64
      then s.refuseWrite n (regOff .catTrCmd []) .lockedField
      else s.withTrace { s.cat.trace with
        st := .armed, wptr := 0, wrap := false, fullstop := false, after := 0, gap := 0, fifos := [] } := by
  simp only [State.traceCommand, Bool.or_eq_true, decide_eq_true_eq]
  cases hst : s.cat.trace.st
  case armed => exact absurd (.inl hst) h
  case triggered => exact absurd (.inr hst) h
  all_goals rfl

theorem State.traceCommand_stop {s : State} (n : Nat) (h : s.cat.trace.st = .armed ∨ s.cat.trace.st = .triggered) :
    s.traceCommand n 2 = s.stopTrace false := by
  rcases h with h | h <;> simp [State.traceCommand, h]

theorem State.stopTrace_trace (s : State) :
    (s.stopTrace false).cat.trace = { s.cat.trace with st := .stopped, fifos := [], gap := 0 } := by
  simp [State.stopTrace]

/-- The state with its trace TRIGGERED at WPTR by a command, which writes no record (R466). -/
def State.triggeredHere (s : State) : State :=
  s.withTrace { s.cat.trace with st := .triggered, trigIdx := s.cat.trace.wptr, after := 0 }

theorem State.settleTrace_fresh {s : State} (h : s.circular = true ∨ s.cat.trace.wrap = false) (hafter : s.cat.trace.after = 0) :
    s.settleTrace = s := by
  rcases h with h | h
  · exact State.settleTrace_circular h
  · simp only [State.settleTrace, h, hafter]
    by_cases hpost : s.field .catTrPost [] 21 0 = 0 <;> simp [hpost]

theorem State.fireTrigger_none {s : State} (h : s.circular = true ∨ s.cat.trace.wrap = false) :
    s.fireTrigger none = if s.flag .catTrCtrl [] 1 then s.triggeredHere.freezeRings 1 else s.triggeredHere := by
  show (if s.flag .catTrCtrl [] 1 then s.triggeredHere.freezeRings 1 else s.triggeredHere).settleTrace = _
  have hfreeze := State.freezeRings_only (a1 := 1) (.refl _ s.triggeredHere) (Nat.or_self _)
  have hregs : (s.triggeredHere.freezeRings 1).regs = s.regs := hfreeze.regs.resolve_left (by decide)
  have htrace : (s.triggeredHere.freezeRings 1).cat.trace = s.triggeredHere.cat.trace :=
    hfreeze.cat.trace.resolve_left (by decide)
  split
  · refine State.settleTrace_fresh ?_ (by rw [htrace]; rfl)
    rw [State.circular_congr hregs, htrace]
    exact h
  · exact State.settleTrace_fresh h rfl

theorem State.fireTrigger_none_cat {s : State} (h : s.circular = true ∨ s.cat.trace.wrap = false) :
    (s.fireTrigger none).cat.trace = { s.cat.trace with st := .triggered, trigIdx := s.cat.trace.wptr, after := 0 } ∧
    (s.fireTrigger none).cat.frozen = (s.cat.frozen || s.flag .catTrCtrl [] 1) := by
  rw [State.fireTrigger_none h]
  cases s.flag .catTrCtrl [] 1
  · exact ⟨rfl, (Bool.or_false _).symm⟩
  · refine ⟨?_, by rw [Bool.or_true]; exact (State.freezeRings_frozen _ 1).1⟩
    exact (State.freezeRings_only (a1 := 1) (.refl _ s.triggeredHere) (Nat.or_self _)).cat.trace.resolve_left (by decide)

/-! ### The trace's records (R464, R465) -/

theorem lineBytes_length (x : Line16) : (lineBytes x).length = 16 := by simp [lineBytes]

theorem traceBytes_length (r : TraceRec) : (traceBytes r).length = 32 := by simp [traceBytes, lineBytes_length]

/-- What the writing of one record makes of an armed trace: WPTR one record on, wrapped at the buffer's end. -/
theorem State.putTrace_armed {s : State} {r : TraceRec} (h : s.cat.trace.st = .armed) : (s.putTrace r).cat.trace =
    { s.cat.trace with
      wptr := if s.traceSize ≤ s.cat.trace.wptr + 1 then 0 else s.cat.trace.wptr + 1
      wrap := s.cat.trace.wrap || decide (s.traceSize ≤ s.cat.trace.wptr + 1) } := by
  simp [State.putTrace, h]

theorem State.putTrace_mem (s : State) (r : TraceRec) : (s.putTrace r).mem =
    Memory.store s.mem (hallBase + (s.field .catTrBase [] 27 16 * 65536 + 32 * s.cat.trace.wptr)) (traceBytes r) :=
  State.writeHall_mem ..

/-- An armed circular trace with no drop to tell of writes a record that triggers nothing. -/
theorem State.takeTrace_writes {s : State} {r : TraceRec} (hst : s.cat.trace.st = .armed) (hc : s.circular = true)
    (hgap : s.cat.trace.gap = 0) (hr : r.trig = false) : s.takeTrace r = s.putTrace r := by
  have hput := (s.putTrace_armed (r := r) hst)
  have hsettle : (s.putTrace r).settleTrace = s.putTrace r := by simp [State.settleTrace, hput, hst]
  simp [State.takeTrace, State.writeGap, State.followTrace, hst, hc, hgap, hr, hsettle]

/-- The state with other records waiting in one FIFO of the trace. -/
def State.setFifo (s : State) (f : Nat) (l : List TraceRec) : State :=
  s.withTrace { s.cat.trace with fifos := Tbl.put s.cat.trace.fifos f l [] }

/-- The one FIFO that holds any record is the one the hub takes from. -/
theorem exec_traceRecordWrite {s : State} {f : Nat} {r : TraceRec} {rest : List TraceRec} (halive : s.alive = true)
    (hfifos : s.cat.trace.fifos = [(f, r :: rest)]) :
    exec .traceRecordWrite s = .next ((s.setFifo f rest).takeTrace r) := by
  show execTraceRecordWrite s = _
  have hlook : Tbl.look s.cat.trace.fifos f [] = r :: rest := by simp [hfifos, Tbl.look, Tbl.find]
  have hpick : s.pick ((s.cat.trace.fifos.filter (fun e => !e.2.isEmpty)).map Prod.fst) = (s, some f) := by
    simp [hfifos, State.pick]
  simp only [execTraceRecordWrite, hpick, halive, hlook]
  rfl

theorem exec_traceRecordDrop {s : State} {f : Fin 9} {r : TraceRec} {rest : List TraceRec} (halive : s.alive = true)
    (hlook : Tbl.look s.cat.trace.fifos f.val [] = r :: rest) : exec (.traceRecordDrop f) s =
      if r.trig = true ∧ s.cat.trace.st = .armed then .next s
      else .next (s.withTrace { s.cat.trace with
        fifos := Tbl.put s.cat.trace.fifos f.val rest []
        drop := min (s.cat.trace.drop + 1) (2 ^ 32 - 1)
        gap := s.cat.trace.gap + 1 }) := by
  show execTraceRecordDrop f s = _
  simp only [execTraceRecordDrop, hlook, halive, Bool.not_true, Bool.false_or, Bool.and_eq_true, beq_iff_eq]
  rfl

/-- Settles O43: each trace command by the state it finds, and a record written by the one FIFO that holds any. -/
theorem traceRuns : Obligations.TraceRuns := by
  refine ⟨fun w s hpf hop => ?_, fun w s hpf hop hst => ?_, fun w s hpf hop => ⟨fun hst hc => ?_, fun hst => ?_⟩,
    fun s f r rest halive hfifos hst hc hr hgap => ⟨_, exec_traceRecordWrite halive hfifos, ?_⟩,
    fun f s r rest halive hlook => ?_, fun s halive hst hc hpost => ?_⟩
  · have hexec : exec (.arm 0 w) s = .next (s.traceCommand 0 1) :=
      congrArg Host.Outcome.next (State.traceCommandIs_of hpf hop)
    rw [hexec]
    by_cases hrun : s.cat.trace.st = .armed ∨ s.cat.trace.st = .triggered
    · rw [if_pos hrun, State.traceCommand_armRunning 0 hrun]
    · rw [if_neg hrun, State.traceCommand_arm 0 hrun]
      split
      · rfl
      · exact ⟨_, rfl, rfl⟩
  · refine ⟨_, congrArg Host.Outcome.next ((State.traceCommandIs_of hpf hop).trans (State.traceCommand_stop 0 hst)), ?_, rfl⟩
    exact s.stopTrace_trace
  · refine ⟨_, congrArg Host.Outcome.next ((State.traceCommandIs_of hpf hop).trans (?_ : _ = s.fireTrigger none)),
      State.fireTrigger_none_cat hc⟩
    simp [State.traceCommand, hst]
  · refine ⟨_, congrArg Host.Outcome.next ((State.traceCommandIs_of hpf hop).trans (?_ : _ = s.retrigger)), rfl⟩
    simp [State.traceCommand, hst]
  · rw [State.takeTrace_writes (s := s.setFifo f rest) hst hc hgap hr]
    have htrace := State.putTrace_armed (s := s.setFifo f rest) (r := r) hst
    rw [htrace]
    exact ⟨rfl, rfl, hst, Tbl.look_put_self .., State.putTrace_mem _ r, traceBytes_length r⟩
  · rw [exec_traceRecordDrop halive hlook]
    split
    · rfl
    · exact ⟨_, rfl, Tbl.look_put_self .., fun g hg => Tbl.look_put_ne _ _ _ _ hg, rfl⟩
  · refine ⟨s.stopTrace false, ?_, s.stopTrace_trace⟩
    show execTraceCaptureEnd s = _
    simp [execTraceCaptureEnd, halive, hst, hc, hpost]

end Sys2Proof.Machine

end

section
namespace Sys2Proof.Machine

/-! ### An object operation taken in, and the channel it finds (R325) -/

theorem State.taken_tiers (s : State) (o : Origin) (d : Line64) (opcode : Nat) : (s.taken o d opcode).tiers = s.tiers := by
  cases o <;> rfl

theorem State.taken_regs (s : State) (o : Origin) (d : Line64) (opcode : Nat) : (s.taken o d opcode).regs = s.regs := by
  cases o <;> rfl

theorem State.asOp_gal_ring (s : State) (r : RingNo) (i : Word) (d : Line64) (opcode : Nat) :
    (s.asOp (.ring r i) d opcode).gal = r.val / 64 := rfl

/-- The state with an object operation waiting for a channel. -/
def State.objQueued (s : State) (o : Op) (k : ObjKind) : State :=
  (s.queueObjects (s.tiers.objWait ++ [{ op := o, kind := k }])).opEvent (srcHub hubDma) 1 o .ok

theorem State.objQueued_tiers (s : State) (o : Op) (k : ObjKind) :
    (s.objQueued o k).tiers = { s.tiers with objWait := s.tiers.objWait ++ [{ op := o, kind := k }] } :=
  State.opEvent_tiers ..

theorem State.objQueued_out (s : State) (o : Op) (k : ObjKind) : (s.objQueued o k).out = s.out := State.opEvent_out ..

theorem State.objSubmit_eq (s : State) (o : Op) (k : ObjKind) :
    s.objSubmit o k = (s.objQueued o k).objSettle (s.objQueued o k).tiers.objWait.length := rfl

theorem State.NoRelease.objQueued {s : State} (h : s.NoRelease) (o : Op) (k : ObjKind) : (s.objQueued o k).NoRelease :=
  h.congr (by rw [State.objQueued_tiers])

/-- While the four channels are taken nothing starts. -/
theorem State.objSettle_full {s : State} (h : s.NoRelease) (hfull : 4 ≤ s.tiers.objRun.length) (fuel : Nat) :
    s.objSettle fuel = s := by
  cases fuel with
  | zero => exact State.endReleases_of_noRelease h
  | succ fuel =>
    rw [State.objSettle, State.endReleases_of_noRelease h]
    split
    · rfl
    · simp only [hfull, if_true]

/-- While the four channels are taken an object operation waits. -/
theorem State.objSubmit_full {s : State} (h : s.NoRelease) (hfull : 4 ≤ s.tiers.objRun.length) (o : Op) (k : ObjKind) :
    s.objSubmit o k = s.objQueued o k := by
  rw [State.objSubmit_eq]
  exact State.objSettle_full (h.objQueued o k) (by rwa [State.objQueued_tiers]) _

/-- The state in which an object operation takes the channel it found free: its ISSUE recorded, none waiting. -/
def State.objIssued (s : State) (o : Op) (k : ObjKind) : State := (s.objQueued o k).queueObjects []

/-- An object operation that alone waits for a free channel starts. -/
theorem State.objSubmit_alone {s : State} (h : s.NoRelease) (hwait : s.tiers.objWait = [])
    (hfree : s.tiers.objRun.length < 4) (o : Op) (k : ObjKind) :
    s.objSubmit o k = (s.objIssued o k).objStart { op := o, kind := k } := by
  have htiers := s.objQueued_tiers o k
  rw [hwait, List.nil_append] at htiers
  have hqueue : (s.objQueued o k).tiers.objWait = [{ op := o, kind := k }] := by rw [htiers]
  have hrun : ¬ 4 ≤ (s.objQueued o k).tiers.objRun.length := by rw [htiers]; exact Nat.not_le.mpr hfree
  have hstart : (s.objIssued o k).SamePanels ((s.objIssued o k).objStart { op := o, kind := k }) :=
    State.objStart_samePanels ..
  have hquiet : (s.objIssued o k).NoRelease := (h.objQueued o k).congr rfl
  rw [State.objSubmit_eq, hqueue, List.length_singleton, State.objSettle, State.endReleases_of_noRelease (h.objQueued o k)]
  simp only [hqueue, if_neg hrun]
  exact State.endReleases_of_noRelease (hquiet.congr hstart.maps)

/-! ### Object operations that end as they start -/

theorem State.objIssued_tiers {s : State} (h : s.tiers.objWait = []) (o : Op) (k : ObjKind) :
    (s.objIssued o k).tiers = s.tiers := by
  show { (s.objQueued o k).tiers with objWait := [] } = s.tiers
  rw [State.objQueued_tiers, ← h]

/-- An object operation of a ring that needs no mover: its effect on the tiers stays, and its one record goes out. -/
theorem State.objSubmit_answers {s u : State} {r : RingNo} {i : Word} {d : Line64} {opcode n : Nat}
    (h : u.ObjReady) (hhif : u.hif = (s.taken (.ring r i) d opcode).hif) (hregs : u.regs = s.regs) (hfab : u.fab = s.fab)
    (hout : u.out = s.out) (hfence : s.fenced r.val = false) (hcut : s.cutOff (r.val / 64) = false) :
    (u.objSubmit (s.asOp (.ring r i) d opcode) (.done n)).tiers = u.tiers ∧
    s.Answered (u.objSubmit (s.asOp (.ring r i) d opcode) (.done n)) r.val
      (s.record r.val (fld d 2 15 0) opcode Status.ok.code 0 0 n i.toNat) := by
  obtain ⟨hwait, hfree, hquiet⟩ := h
  have hstart : u.objSubmit (s.asOp (.ring r i) d opcode) (.done n) =
      (u.objIssued (s.asOp (.ring r i) d opcode) (.done n)).complete (srcHub hubDma) (s.asOp (.ring r i) d opcode)
        { st := .ok, result := n } := State.objSubmit_alone hquiet hwait hfree _ _
  rw [hstart, State.complete_tiers]
  exact ⟨State.objIssued_tiers hwait _ _, State.accepted_answered ((State.opEvent_hif _).trans hhif)
    ((State.opEvent_regs _).trans hregs) ((State.opEvent_fab _).trans hfab) ((State.opEvent_out _).trans hout) hfence hcut⟩

/-- The same where acceptance has changed nothing but the tiers, memory and what the memory's errors count. -/
theorem State.objSubmit_answers_of_only {s u : State} {r : RingNo} {i : Word} {d : Line64} {opcode n : Nat}
    (hu : OnlyM (mask [.mem, .chk, .bad, .tiersObjs, .tiersPanels, .tiersMaps, .tiersT0used, .cores, .rasSources, .rasQueue, .rasOvf,
      .catCounters, .catRings, .catTrace, .free]) (s.taken (.ring r i) d opcode) u)
    (hmaps : ∀ m ∈ u.tiers.maps, m.release = none) (h : s.ObjReady) (hfence : s.fenced r.val = false)
    (hcut : s.cutOff (r.val / 64) = false) :
    (u.objSubmit (s.asOp (.ring r i) d opcode) (.done n)).tiers = u.tiers ∧
    s.Answered (u.objSubmit (s.asOp (.ring r i) d opcode) (.done n)) r.val
      (s.record r.val (fld d 2 15 0) opcode Status.ok.code 0 0 n i.toNat) := by
  obtain ⟨hwait, hfree, -⟩ := h
  refine State.objSubmit_answers ⟨?_, ?_, hmaps⟩ (hu.hif.eq (by decide)) (hu.regs.resolve_left (by decide))
    (hu.fab.eq (by decide)) (hu.out.resolve_left (by decide)) hfence hcut
  · exact (hu.tiers.objWait.resolve_left (by decide)).trans hwait
  · rw [hu.tiers.objRun.resolve_left (by decide)]
    exact hfree

/-! ### Object operations that begin a migration -/

/-- The state with one more migration. -/
def State.addMig (s : State) (g : Mig) : State := { s with tiers := { s.tiers with migs := s.tiers.migs ++ [g] } }

/-- The state with an object operation on one of the channels. -/
def State.objRuns (s : State) (o : Op) : State :=
  State.opEvent { s with tiers := { s.tiers with objRun := s.tiers.objRun ++ [o.id] } } (srcHub hubDma) 2 o .ok

theorem State.objRuns_tiers (s : State) (o : Op) :
    (s.objRuns o).tiers = { s.tiers with objRun := s.tiers.objRun ++ [o.id] } := State.opEvent_tiers ..

theorem State.objStart_mig (s : State) (o : Op) : s.objStart { op := o, kind := .mig } = (s.objRuns o).migEnd o.id := rfl

/-- A migration that has panels left goes on. -/
theorem State.migEnd_of_left {s : State} {g : Mig} (h : s.tiers.migs.find? (fun x => x.op.id == g.op.id) = some g)
    (hleft : g.left ≠ []) : s.migEnd g.op.id = s := by
  have hmore : g.left.isEmpty = false := by simpa using hleft
  simp only [State.migEnd, h, hmore, Bool.not_false, Bool.true_or, if_true]

theorem State.addMig_find {s : State} {g : Mig} (hnew : ∀ x ∈ s.tiers.migs, x.op.id ≠ g.op.id) :
    (s.addMig g).tiers.migs.find? (fun x => x.op.id == g.op.id) = some g := by
  have hothers : s.tiers.migs.find? (fun x => x.op.id == g.op.id) = none := by simpa using hnew
  simp [State.addMig, List.find?_append, hothers]

/-- A migration taken in stands behind the others, whether it has a channel or waits for one, and no record goes out. -/
theorem State.migStart_waits {s : State} {g : Mig} (h : s.ObjQueued) (hleft : g.left ≠ [])
    (hnew : ∀ x ∈ s.tiers.migs, x.op.id ≠ g.op.id) :
    (s.migStart g).tiers.migs = s.tiers.migs ++ [g] ∧ (s.migStart g).out = s.out ∧
      (s.migStart g).tiers.objs = s.tiers.objs ∧ (s.migStart g).tiers.panels = s.tiers.panels ∧
      (s.migStart g).tiers.t0used = s.tiers.t0used := by
  obtain ⟨hroom, hquiet⟩ := h
  have hu : s.migStart g = (s.addMig g).objSubmit g.op .mig := rfl
  have hquiet' : (s.addMig g).NoRelease := hquiet
  by_cases hfull : 4 ≤ s.tiers.objRun.length
  · rw [hu, State.objSubmit_full hquiet' hfull, State.objQueued_out, State.objQueued_tiers]
    exact ⟨rfl, rfl, rfl, rfl, rfl⟩
  · have hwait : (s.addMig g).tiers.objWait = [] := hroom.resolve_right hfull
    have htiers : (((s.addMig g).objIssued g.op .mig).objRuns g.op).tiers =
        { (s.addMig g).tiers with objRun := (s.addMig g).tiers.objRun ++ [g.op.id] } := by
      rw [State.objRuns_tiers, State.objIssued_tiers hwait]
    have hstart : s.migStart g = ((s.addMig g).objIssued g.op .mig).objRuns g.op := by
      rw [hu, State.objSubmit_alone hquiet' hwait (Nat.lt_of_not_le hfull), State.objStart_mig]
      exact State.migEnd_of_left (by rw [htiers]; exact State.addMig_find hnew) hleft
    rw [hstart, htiers]
    exact ⟨rfl, (State.opEvent_out _).trans (State.objQueued_out (s.addMig g) g.op .mig), rfl, rfl, rfl⟩

/-! ### What each object operation does at acceptance (R326 to R334) -/

theorem State.putObj_obj? (s : State) (n : Nat) (x : Obj) : (s.putObj n x).obj? n = some x := Tbl.find_insert_self ..

theorem State.putObj_obj?_ne (s : State) {n m : Nat} (x : Obj) (h : m ≠ n) : (s.putObj n x).obj? m = s.obj? m :=
  Tbl.find_insert_ne _ _ h

theorem State.pinObj_obj?_ne (s : State) {n m : Nat} (up : Bool) (h : m ≠ n) : (s.pinObj n up).obj? m = s.obj? m := by
  unfold State.pinObj
  split
  · rfl
  · exact s.putObj_obj?_ne _ h

theorem State.obj?_congr {s t : State} (h : t.tiers.objs = s.tiers.objs) (n : Nat) : t.obj? n = s.obj? n := by
  rw [State.obj?, h, State.obj?]

theorem State.mappingAt_congr {s t : State} (h : t.tiers = s.tiers) (gal addr : Nat) (live : Bool) :
    t.mappingAt gal addr live = s.mappingAt gal addr live := by rw [State.mappingAt, h, State.mappingAt]

/-- Zero-filling a home changes of the tiers only panels' records. -/
theorem State.homePanel_objs (s : State) (n p : Nat) (f : Option Nat) (m : Nat) :
    (s.homePanel n p f).obj? m = s.obj? m :=
  State.obj?_congr ((State.homePanel_only (.refl _ s) (Nat.or_self _)).tiers.objs.resolve_left (by decide)) m

/-- An object made with its homes in T1 or T0, every one zero-filled (R326). -/
def State.homed (s : State) (o : Op) (n : Nat) : State :=
  let t := if fld o.d 20 1 0 = 0 then (s.putObj n (createdObj o)).takeT0 o.gal (objPanels o.d) else (s.putObj n (createdObj o), [])
  (List.range (objPanels o.d)).foldl (fun s i => s.homePanel n i t.2[i]?) t.1

/-- The pieces that making an object touches. -/
abbrev homedLeaves : Nat := mask [.mem, .chk, .bad, .tiersObjs, .tiersPanels, .tiersT0used, .cores, .rasSources, .rasQueue,
  .rasOvf, .catCounters, .catRings, .catTrace, .free]

theorem State.homed_only (s : State) (o : Op) (n : Nat) : OnlyM homedLeaves s (s.homed o n) := by
  have hput : OnlyM homedLeaves s (s.putObj n (createdObj o)) := State.putObj_only (.refl _ s) (by decide)
  unfold State.homed
  refine OnlyM.foldl ?_ fun u p => State.homePanel_only (.refl _ u) (by decide)
  split
  · exact (State.takeT0_only hput (by decide)).fst
  · exact hput

/-- The object made is the one described, and no other changes. -/
theorem State.homed_obj? (s : State) (o : Op) (n : Nat) : (s.homed o n).obj? n = some (createdObj o) ∧
    ∀ m, m ≠ n → (s.homed o n).obj? m = s.obj? m := by
  have hkeep (m : Nat) : (s.homed o n).obj? m = (s.putObj n (createdObj o)).obj? m := by
    unfold State.homed
    refine List.foldlRecOn (motive := fun t : State => t.obj? m = (s.putObj n (createdObj o)).obj? m) _ _ ?_
      fun u hu p _ => (u.homePanel_objs n p _ m).trans hu
    split
    · exact State.obj?_congr ((State.takeT0_only (.refl _ _) (Nat.or_self _)).fst.tiers.objs.resolve_left (by decide)) m
    · rfl
  exact ⟨(hkeep n).trans (State.putObj_obj? ..), fun m hm => (hkeep m).trans (s.putObj_obj?_ne _ hm)⟩

theorem panelKey_inj {n p q : Nat} (h : q ≠ p) : panelKey n q ≠ panelKey n p :=
  fun e => h (Nat.add_left_cancel e)

theorem State.setPanel_panel_ne (s : State) {n p q : Nat} (h : q ≠ p) (x : Panel) :
    (s.setPanel n p x).panel n q = s.panel n q := Tbl.look_put_ne _ _ _ _ (panelKey_inj h)

theorem State.writeChan_panel (s : State) (c a : Nat) (b : Bytes) (n q : Nat) : (s.writeChan c a b).1.panel n q = s.panel n q :=
  State.panel_congr ((State.writeChan_only (.refl _ s) (Nat.or_self _)).fst.tiers.panels.resolve_left (by decide)) ..

/-- A home in T1: the place written, and the panel's record. -/
theorem State.homePanel_placed {s : State} {n : Nat} {x : Obj} (h : s.obj? n = some x) (p : Nat) :
    ∃ b, s.homePanel n p none = (s.writeChan (x.place p).1 (x.place p).2 b).1.setPanel n p { tier := 1 } :=
  ⟨_, by simp only [State.homePanel, h]; rfl⟩

/-- A home in T1 touches no other panel's record. -/
theorem State.homePanel_t1 {s : State} {n : Nat} {x : Obj} (h : s.obj? n = some x) (p q : Nat) :
    (s.homePanel n p none).panel n q = if q = p then { tier := 1 } else s.panel n q := by
  obtain ⟨b, hhome⟩ := State.homePanel_placed h p
  rw [hhome]
  split
  case isTrue hq => rw [hq, State.setPanel_panel]
  case isFalse hq => exact (State.setPanel_panel_ne _ hq _).trans (s.writeChan_panel ..)

/-- With its homes in T1 an object has every panel there, and no frame of T0 (R326). -/
theorem State.homed_t1 {s : State} {o : Op} {n : Nat} (h : fld o.d 20 1 0 ≠ 0) :
    (∀ p, p < objPanels o.d → (s.homed o n).panel n p = { tier := 1 }) ∧ (s.homed o n).tiers.t0used = s.tiers.t0used := by
  have hfold : s.homed o n =
      (List.range (objPanels o.d)).foldl (fun s i => s.homePanel n i none) (s.putObj n (createdObj o)) := by
    simp only [State.homed, if_neg h, List.getElem?_nil]
  have hobj (l : List Nat) (u : State) (hu : u.obj? n = some (createdObj o)) :
      ∀ q, (q ∈ l ∨ u.panel n q = { tier := 1 }) → (l.foldl (fun s i => s.homePanel n i none) u).panel n q = { tier := 1 } := by
    induction l generalizing u with
    | nil => exact fun q hq => hq.resolve_left List.not_mem_nil
    | cons p l ih =>
      intro q hq
      refine ih _ ((u.homePanel_objs n p none n).trans hu) q ?_
      rw [State.homePanel_t1 hu, List.mem_cons] at *
      split
      · exact .inr rfl
      next hne => exact hq.imp (·.resolve_left hne) id
  rw [hfold]
  refine ⟨fun p hp => hobj _ _ (State.putObj_obj? ..) p (.inl (List.mem_range.mpr hp)), ?_⟩
  refine List.foldlRecOn (motive := fun t : State => t.tiers.t0used = s.tiers.t0used) _ _ rfl fun u hu p _ => ?_
  exact ((State.homePanel_only (.refl _ u) (Nat.or_self _)).tiers.t0used.resolve_left (by decide)).trans hu

/-! ### The operations as commands -/

theorem exec_objCreate {o : Origin} {d : Line64} {s : State} {n : Nat} (h : s.Accepts o d 0x69 objCreateChecks)
    (hn : s.freeObj = some n) : exec (.objCreate o d) s = .next
      ((((s.taken o d 0x69).homed (s.asOp o d 0x69) n).addMapping (s.asOp o d 0x69).gal (fld d 8 47 0) (objPanels d) n).objSubmit
        (s.asOp o d 0x69) (.done n)) := by
  have hfree : (s.taken o d 0x69).freeObj = some n := by
    simp only [State.freeObj, State.obj?, State.taken_tiers]
    exact hn
  have haccept := State.accept_of_accepts (unit := srcHub hubDma) (effect := fun (s : State) (op : Op) =>
    (((s.homed op (s.freeObj.getD 0)).addMapping op.gal (fld op.d 8 47 0) (objPanels op.d) (s.freeObj.getD 0)).objSubmit op
      (.done (s.freeObj.getD 0)))) h
  rw [hfree, State.asOp_d] at haccept
  exact congrArg Host.Outcome.next haccept

/-- The state with the object that an ACCESSION registers, mapped into gallery 0 (R328). -/
def State.accessioned (s : State) (o : Op) (n : Nat) : State :=
  (s.putObj n (accessionedObj o)).addMapping 0 (fld o.d 8 47 0) (objPanels o.d) n

theorem exec_accession {o : Origin} {d : Line64} {s : State} {n : Nat} (h : s.Accepts o d 0x6A accessionChecks)
    (hn : s.freeObj = some n) : exec (.accession o d) s = .next (if fbit d 20 1 = true
      then ((s.taken o d 0x6A).accessioned (s.asOp o d 0x6A) n).migStart
        { op := s.asOp o d 0x6A, obj := n, first := 0, count := objPanels d, target := 1, frames := []
          left := List.range (objPanels d) }
      else ((s.taken o d 0x6A).accessioned (s.asOp o d 0x6A) n).objSubmit (s.asOp o d 0x6A) (.done n)) := by
  have hfree : (s.taken o d 0x6A).freeObj = some n := by
    simp only [State.freeObj, State.obj?, State.taken_tiers]
    exact hn
  have haccept := State.accept_of_accepts (unit := srcHub hubDma) (effect := fun (s : State) (op : Op) =>
    if fbit op.d 20 1 then (s.accessioned op (s.freeObj.getD 0)).migStart
      { op := op, obj := s.freeObj.getD 0, first := 0, count := objPanels op.d, target := 1, frames := []
        left := List.range (objPanels op.d) }
    else (s.accessioned op (s.freeObj.getD 0)).objSubmit op (.done (s.freeObj.getD 0))) h
  rw [hfree, State.asOp_d] at haccept
  exact congrArg Host.Outcome.next haccept

theorem exec_objMap {o : Origin} {d : Line64} {s : State} {x : Obj} (h : s.Accepts o d 0x6B objMapChecks)
    (hx : s.obj? (fld d 8 13 0) = some x) : exec (.objMap o d) s = .next
      (((s.taken o d 0x6B).addMapping (s.asOp o d 0x6B).gal (fld d 16 47 0) x.panels (fld d 8 13 0)).objSubmit (s.asOp o d 0x6B)
        (.done 0)) := by
  have hobj : (s.taken o d 0x6B).obj? (fld d 8 13 0) = some x := by rw [State.obj?, State.taken_tiers]; exact hx
  have haccept := State.accept_of_accepts (unit := srcHub hubDma) (effect := fun (s : State) (op : Op) =>
    (s.addMapping op.gal (fld op.d 16 47 0) (((s.obj? (fld op.d 8 13 0)).map (fun y => y.panels)).getD 0)
      (fld op.d 8 13 0)).objSubmit op (.done 0)) h
  rw [State.asOp_d, hobj] at haccept
  exact congrArg Host.Outcome.next haccept

theorem exec_objPin {o : Origin} {d : Line64} {s : State} {m : Mapping} (h : s.Accepts o d 0x6E objPinChecks)
    (hm : s.mappingAt (s.asOp o d 0x6E).gal (fld d 8 47 0) false = some m) : exec (.objPin o d) s = .next
      (((s.taken o d 0x6E).pinObj m.obj (!bit (s.asOp o d 0x6E).flags 0)).objSubmit (s.asOp o d 0x6E) (.done 0)) := by
  have hmap : (s.taken o d 0x6E).objMapping (s.asOp o d 0x6E) = some m := by
    rw [State.objMapping, State.asOp_d, State.mappingAt_congr (s.taken_tiers ..), hm]
  show Host.Outcome.next (s.accept _ o d 0x6E objPinChecks _) = _
  rw [State.accept_of_accepts h, hmap]

theorem exec_objQuery {o : Origin} {d : Line64} {s : State} (h : s.Accepts o d 0x6F objQueryChecks) :
    exec (.objQuery o d) s = .next ((s.taken o d 0x6F).objSubmit (s.asOp o d 0x6F)
      (.done ((s.taken o d 0x6F).queryResult (s.asOp o d 0x6F)))) :=
  congrArg Host.Outcome.next (State.accept_of_accepts h)

theorem State.queryResult_eq {s : State} {o : Op} {n p : Nat} {x : Obj} (hp : s.panelAt o.gal (fld o.d 8 47 0) = some (n, p))
    (hx : s.obj? n = some x) : s.queryResult o = (s.panel n p).tier + (if (s.panel n p).busy.isSome then 4 else 0) +
      (if (s.panel n p).quar then 8 else 0) + (if x.accessioned then 16 else 0) + x.pins * 2 ^ 16 + n * 2 ^ 32 := by
  simp only [State.queryResult, hp, hx, Option.map_some, Option.getD_some]

theorem State.NoRelease.addMapping {s : State} (h : s.NoRelease) (gal a panels n : Nat) :
    ∀ m ∈ (s.addMapping gal a panels n).tiers.maps, m.release = none := by
  intro m hm
  rcases List.mem_append.mp hm with hm | hm
  · exact h m hm
  · rw [List.mem_singleton.mp hm]

theorem State.taken_obj? (s : State) (o : Origin) (d : Line64) (opcode n : Nat) : (s.taken o d opcode).obj? n = s.obj? n := by
  rw [State.obj?, State.taken_tiers, State.obj?]

theorem State.taken_panel (s : State) (o : Origin) (d : Line64) (opcode n p : Nat) :
    (s.taken o d opcode).panel n p = s.panel n p := State.panel_congr (by rw [State.taken_tiers]) ..

/-- An OBJ_CREATE with a channel free (R326). -/
theorem objCreate_kept {r : RingNo} {i : Word} {d : Line64} {s : State} {n : Nat}
    (hacc : s.Accepts (.ring r i) d 0x69 objCreateChecks) (hready : s.ObjReady) (hn : s.freeObj = some n)
    (hfence : s.fenced r.val = false) (hcut : s.cutOff (r.val / 64) = false) :
    ∃ t, exec (.objCreate (.ring r i) d) s = .next t ∧ t.obj? n = some (createdObj (s.asOp (.ring r i) d 0x69)) ∧
      (∀ m, m ≠ n → t.obj? m = s.obj? m) ∧
      t.tiers.maps = s.tiers.maps ++ [{ gal := r.val / 64, daddr := fld d 8 47 0, panels := fld d 16 19 0, obj := n }] ∧
      (fld d 20 1 0 ≠ 0 → (∀ p, p < fld d 16 19 0 → t.panel n p = { tier := 1 }) ∧ t.tiers.t0used = s.tiers.t0used) ∧
      s.Answered t r.val (s.record r.val (fld d 2 15 0) 0x69 Status.ok.code 0 0 n i.toNat) := by
  let u := (s.taken (.ring r i) d 0x69).homed (s.asOp (.ring r i) d 0x69) n
  have honly : OnlyM homedLeaves (s.taken (.ring r i) d 0x69) u := State.homed_only ..
  obtain ⟨hobj, hothers⟩ := (s.taken (.ring r i) d 0x69).homed_obj? (s.asOp (.ring r i) d 0x69) n
  have hmaps : u.tiers.maps = s.tiers.maps := honly.tiers.maps.resolve_left (by decide)
  have hquiet : u.NoRelease := State.NoRelease.congr hready.2.2 hmaps
  obtain ⟨hkept, hanswered⟩ := State.objSubmit_answers_of_only (OnlyM.lit_tiersMaps (honly.mono (by decide)) (by decide))
    (hquiet.addMapping (r.val / 64) (fld d 8 47 0) (objPanels d) n) hready (n := n) hfence hcut
  refine ⟨_, exec_objCreate hacc hn, ?_, fun m hm => ?_, ?_, fun hhome => ?_, hanswered⟩
  · exact (State.obj?_congr (congrArg Tiers.objs hkept) n).trans hobj
  · exact (State.obj?_congr (congrArg Tiers.objs hkept) m).trans ((hothers m hm).trans (s.taken_obj? ..))
  · refine (congrArg Tiers.maps hkept).trans ?_
    exact congrArg (· ++ [_]) hmaps
  · obtain ⟨hpanels, hframes⟩ := State.homed_t1 (s := s.taken (.ring r i) d 0x69) (n := n)
      (show fld (s.asOp (.ring r i) d 0x69).d 20 1 0 ≠ 0 from hhome)
    exact ⟨fun p hp => (State.panel_congr (congrArg Tiers.panels hkept) n p).trans (hpanels p hp),
      (congrArg Tiers.t0used hkept).trans hframes⟩

/-- An ACCESSION without FETCH and with a channel free (R328). -/
theorem accession_kept {r : RingNo} {i : Word} {d : Line64} {s : State} {n : Nat}
    (hacc : s.Accepts (.ring r i) d 0x6A accessionChecks) (hready : s.ObjReady) (hn : s.freeObj = some n)
    (hfence : s.fenced r.val = false) (hcut : s.cutOff (r.val / 64) = false) (hfetch : fbit d 20 1 = false) :
    ∃ t, exec (.accession (.ring r i) d) s = .next t ∧ t.obj? n = some (accessionedObj (s.asOp (.ring r i) d 0x6A)) ∧
      (∀ m, m ≠ n → t.obj? m = s.obj? m) ∧
      t.tiers.maps = s.tiers.maps ++ [{ gal := 0, daddr := fld d 8 47 0, panels := fld d 16 19 0, obj := n }] ∧
      t.tiers.panels = s.tiers.panels ∧
      s.Answered t r.val (s.record r.val (fld d 2 15 0) 0x6A Status.ok.code 0 0 n i.toNat) := by
  have honly : OnlyM (mask [.tiersObjs, .tiersMaps]) (s.taken (.ring r i) d 0x6A)
      ((s.taken (.ring r i) d 0x6A).accessioned (s.asOp (.ring r i) d 0x6A) n) :=
    OnlyM.lit_tiersMaps (State.putObj_only (.refl _ _) (by decide)) (by decide)
  have hquiet : (s.taken (.ring r i) d 0x6A).NoRelease := hready.2.2
  obtain ⟨hkept, hanswered⟩ := State.objSubmit_answers_of_only (honly.mono (by decide))
    (State.NoRelease.addMapping (s := (s.taken (.ring r i) d 0x6A).putObj n (accessionedObj (s.asOp (.ring r i) d 0x6A)))
      hquiet 0 (fld d 8 47 0) (objPanels d) n) hready (n := n) hfence hcut
  refine ⟨_, (exec_accession hacc hn).trans (by rw [hfetch]; rfl), ?_, fun m hm => ?_, ?_, ?_, hanswered⟩
  · exact (State.obj?_congr (congrArg Tiers.objs hkept) n).trans (State.putObj_obj? ..)
  · exact (State.obj?_congr (congrArg Tiers.objs hkept) m).trans ((State.putObj_obj?_ne _ _ hm).trans (s.taken_obj? ..))
  · exact (congrArg Tiers.maps hkept).trans rfl
  · exact (congrArg Tiers.panels hkept).trans rfl

/-- An ACCESSION with FETCH: its object is there at once, and the migration of its panels waits (R328). -/
theorem accession_fetches {o : Origin} {d : Line64} {s : State} {n : Nat} (hacc : s.Accepts o d 0x6A accessionChecks)
    (hn : s.freeObj = some n) (hfetch : fbit d 20 1 = true) (hpanels : 0 < fld d 16 19 0)
    (hnew : ∀ g ∈ s.tiers.migs, g.op.id ≠ s.nextOp) (hqueued : s.ObjQueued) :
    ∃ t, exec (.accession o d) s = .next t ∧ t.obj? n = some (accessionedObj (s.asOp o d 0x6A)) ∧
      t.tiers.migs = s.tiers.migs ++ [{ op := s.asOp o d 0x6A, obj := n, first := 0, count := fld d 16 19 0, target := 1
                                        frames := [], left := List.range (fld d 16 19 0) }] ∧ t.out = s.out := by
  have htiers := s.taken_tiers o d 0x6A
  have hquiet : (s.taken o d 0x6A).NoRelease := State.NoRelease.congr hqueued.2 (congrArg Tiers.maps htiers)
  have hroom : ((s.taken o d 0x6A).accessioned (s.asOp o d 0x6A) n).ObjQueued := by
    refine ⟨?_, State.NoRelease.addMapping (s := (s.taken o d 0x6A).putObj n (accessionedObj (s.asOp o d 0x6A)))
      hquiet 0 (fld (s.asOp o d 0x6A).d 8 47 0) (objPanels (s.asOp o d 0x6A).d) n⟩
    show (s.taken o d 0x6A).tiers.objWait = [] ∨ 4 ≤ (s.taken o d 0x6A).tiers.objRun.length
    rw [htiers]
    exact hqueued.1
  have hmigs : ((s.taken o d 0x6A).accessioned (s.asOp o d 0x6A) n).tiers.migs = s.tiers.migs :=
    (congrArg Tiers.migs htiers :)
  have hleft : List.range (objPanels d) ≠ [] := by
    rw [Ne, List.range_eq_nil]
    exact Nat.ne_of_gt hpanels
  obtain ⟨hmig, hout, hobjs, -, -⟩ := State.migStart_waits (g := { op := s.asOp o d 0x6A, obj := n, first := 0
                                                                   count := objPanels d, target := 1, frames := []
                                                                   left := List.range (objPanels d) }) hroom hleft
    (by rw [hmigs, State.asOp_id]; exact hnew)
  refine ⟨_, (exec_accession hacc hn).trans (by rw [hfetch, if_pos rfl]), ?_, ?_, ?_⟩
  · exact (State.obj?_congr hobjs n).trans (State.putObj_obj? ..)
  · exact hmig.trans (congrArg (· ++ [_]) hmigs)
  · exact hout.trans (s.taken_out ..)

/-- An OBJ_MAP with a channel free (R330). -/
theorem objMap_kept {r : RingNo} {i : Word} {d : Line64} {s : State} {x : Obj}
    (hacc : s.Accepts (.ring r i) d 0x6B objMapChecks) (hready : s.ObjReady) (hx : s.obj? (fld d 8 13 0) = some x)
    (hfence : s.fenced r.val = false) (hcut : s.cutOff (r.val / 64) = false) :
    ∃ t, exec (.objMap (.ring r i) d) s = .next t ∧
      t.tiers.maps = s.tiers.maps ++
        [{ gal := r.val / 64, daddr := fld d 16 47 0, panels := x.panels, obj := fld d 8 13 0 }] ∧
      t.tiers.objs = s.tiers.objs ∧
      s.Answered t r.val (s.record r.val (fld d 2 15 0) 0x6B Status.ok.code 0 0 0 i.toNat) := by
  have hquiet : (s.taken (.ring r i) d 0x6B).NoRelease := hready.2.2
  obtain ⟨hkept, hanswered⟩ := State.objSubmit_answers_of_only (OnlyM.lit_tiersMaps (.refl _ _) (by decide))
    (hquiet.addMapping (r.val / 64) (fld d 16 47 0) x.panels (fld d 8 13 0)) hready (n := 0) hfence hcut
  exact ⟨_, exec_objMap hacc hx, (congrArg Tiers.maps hkept).trans rfl, (congrArg Tiers.objs hkept).trans rfl,
    hanswered⟩

/-- An OBJ_PIN with a channel free (R332). -/
theorem objPin_kept {r : RingNo} {i : Word} {d : Line64} {s : State} {m : Mapping} {x : Obj}
    (hacc : s.Accepts (.ring r i) d 0x6E objPinChecks) (hm : s.mappingAt (r.val / 64) (fld d 8 47 0) false = some m)
    (hx : s.obj? m.obj = some x) (hready : s.ObjReady) (hfence : s.fenced r.val = false)
    (hcut : s.cutOff (r.val / 64) = false) :
    ∃ t, exec (.objPin (.ring r i) d) s = .next t ∧
      t.obj? m.obj = some (x.pinned (!bit (s.asOp (.ring r i) d 0x6E).flags 0)) ∧
      (∀ n, n ≠ m.obj → t.obj? n = s.obj? n) ∧
      s.Answered t r.val (s.record r.val (fld d 2 15 0) 0x6E Status.ok.code 0 0 0 i.toNat) := by
  let u := (s.taken (.ring r i) d 0x6E).pinObj m.obj (!bit (s.asOp (.ring r i) d 0x6E).flags 0)
  have honly : OnlyM (mask [.tiersObjs]) (s.taken (.ring r i) d 0x6E) u := State.pinObj_only (.refl _ _) (by decide)
  have hquiet : u.NoRelease := State.NoRelease.congr hready.2.2 (honly.tiers.maps.resolve_left (by decide))
  obtain ⟨hkept, hanswered⟩ := State.objSubmit_answers_of_only (honly.mono (by decide)) hquiet hready (n := 0) hfence hcut
  refine ⟨_, exec_objPin hacc hm, ?_, fun n hn => ?_, hanswered⟩
  · exact (State.obj?_congr (congrArg Tiers.objs hkept) m.obj).trans
      (State.pinObj_obj? (s := s.taken (.ring r i) d 0x6E) hx _)
  · exact (State.obj?_congr (congrArg Tiers.objs hkept) n).trans ((State.pinObj_obj?_ne _ _ hn).trans (s.taken_obj? ..))

/-- An OBJ_QUERY with a channel free (R334). -/
theorem objQuery_kept {r : RingNo} {i : Word} {d : Line64} {s : State} {n p : Nat} {x : Obj}
    (hacc : s.Accepts (.ring r i) d 0x6F objQueryChecks) (hp : s.panelAt (r.val / 64) (fld d 8 47 0) = some (n, p))
    (hx : s.obj? n = some x) (hready : s.ObjReady) (hfence : s.fenced r.val = false)
    (hcut : s.cutOff (r.val / 64) = false) :
    ∃ t, exec (.objQuery (.ring r i) d) s = .next t ∧ t.tiers = s.tiers ∧
      s.Answered t r.val (s.record r.val (fld d 2 15 0) 0x6F Status.ok.code 0 0
        ((s.panel n p).tier + (if (s.panel n p).busy.isSome then 4 else 0) + (if (s.panel n p).quar then 8 else 0) +
          (if x.accessioned then 16 else 0) + x.pins * 2 ^ 16 + n * 2 ^ 32) i.toNat) := by
  obtain ⟨hkept, hanswered⟩ := State.objSubmit_answers_of_only (.refl _ (s.taken (.ring r i) d 0x6F)) hready.2.2 hready
    (n := (s.taken (.ring r i) d 0x6F).queryResult (s.asOp (.ring r i) d 0x6F)) hfence hcut
  have hresult := State.queryResult_eq (s := s.taken (.ring r i) d 0x6F) (o := s.asOp (.ring r i) d 0x6F) hp hx
  rw [State.taken_panel] at hresult
  refine ⟨_, exec_objQuery hacc, hkept, ?_⟩
  rw [hresult] at hanswered ⊢
  exact hanswered

/-- Settles O34: what acceptance registers of an object is kept while the operation waits for, or takes, its channel. -/
theorem objectsKept : Obligations.ObjectsKept := by
  refine ⟨fun r i d s n => objCreate_kept, fun r i d s n => accession_kept, fun o d s n => accession_fetches,
    fun r i d s x => objMap_kept, fun r i d s m x hacc hm hx hready hfence hcut => ?_, fun r i d s n p x => objQuery_kept,
    fun o d s hacc hquiet hfull => ⟨_, (s.taken o d 0x6F).queryResult (s.asOp o d 0x6F), exec_objQuery hacc, ?_⟩⟩
  · obtain ⟨t, hexec, hobj, hrest⟩ := objPin_kept hacc hm hx hready hfence hcut
    refine ⟨t, hexec, hobj.trans ?_, hrest⟩
    rw [Obj.pinned]
    cases bit (s.asOp (.ring r i) d 0x6E).flags 0 <;> rfl
  · have htiers := s.taken_tiers o d 0x6F
    rw [State.objSubmit_full (State.NoRelease.congr hquiet (congrArg Tiers.maps htiers)) (by rwa [htiers]),
      State.objQueued_tiers, State.objQueued_out, htiers, State.taken_out]
    exact ⟨rfl, rfl⟩

end Sys2Proof.Machine

end

section
namespace Sys2Proof.Machine

/-! ### The end of releases (R331) -/

/-- No mapping is in the second state that the first does not hold. -/
def State.MapsWithin (s t : State) : Prop := t.tiers.maps ⊆ s.tiers.maps

theorem State.MapsWithin.of_eq {s t : State} (h : t.tiers.maps = s.tiers.maps) : s.MapsWithin t := by
  rw [State.MapsWithin, h]
  exact List.Subset.refl _

theorem State.MapsWithin.trans {s t u : State} (h : s.MapsWithin t) (k : t.MapsWithin u) : s.MapsWithin u :=
  List.Subset.trans k h

theorem State.endMapping_mapsWithin (s : State) (m : Mapping) : s.MapsWithin (s.endMapping m) := by
  have herase : (s.endMapping m).tiers.maps = s.tiers.maps.erase m := by
    unfold State.endMapping
    extract_lets u shared
    split <;> rfl
  rw [State.MapsWithin, herase]
  exact List.erase_subset

theorem State.endReleases_mapsWithin (s : State) : s.MapsWithin s.endReleases := by
  unfold State.endReleases
  refine List.foldlRecOn (motive := fun t : State => s.MapsWithin t) _ _ (.of_eq rfl) fun u hu m _ => hu.trans ?_
  split
  · exact .of_eq rfl
  split
  · exact .of_eq rfl
  · refine State.MapsWithin.trans (u.endMapping_mapsWithin m) (.of_eq ?_)
    rw [State.complete_tiers]
    rfl

theorem State.objSettle_mapsWithin (fuel : Nat) (s : State) : s.MapsWithin (s.objSettle fuel) := by
  induction fuel generalizing s with
  | zero => exact s.endReleases_mapsWithin
  | succ fuel ih =>
    unfold State.objSettle
    extract_lets u
    have hend : s.MapsWithin u := s.endReleases_mapsWithin
    split
    · exact hend
    next j rest _ =>
      split
      · exact hend
      · exact hend.trans (.trans (.of_eq (State.objStart_samePanels (u.queueObjects rest) j).maps) (ih _))

theorem State.objSubmit_mapsWithin (s : State) (o : Op) (k : ObjKind) : s.MapsWithin (s.objSubmit o k) :=
  .trans (.of_eq (by rw [State.objQueued_tiers])) (State.objSettle_mapsWithin _ (s.objQueued o k))

/-- A mapping as an OBJ_RELEASE of its first address leaves it. -/
def Mapping.releasedBy (op : Op) (m : Mapping) : Mapping :=
  if m.gal = op.gal ∧ m.daddr = fld op.d 8 47 0 then { m with release := some op } else m

theorem Mapping.releasedBy_release {op : Op} {m : Mapping} (hgal : (m.releasedBy op).gal = op.gal)
    (haddr : (m.releasedBy op).daddr = fld op.d 8 47 0) : (m.releasedBy op).release = some op := by
  unfold Mapping.releasedBy at *
  split
  · rfl
  next h =>
    rw [if_neg h] at hgal haddr
    exact absurd ⟨hgal, haddr⟩ h

/-- The state with the mappings that an OBJ_RELEASE of their first address leaves. -/
def State.releaseMaps (s : State) (op : Op) : State :=
  { s with tiers := { s.tiers with maps := s.tiers.maps.map (Mapping.releasedBy op) } }

theorem exec_objRelease {o : Origin} {d : Line64} {s : State} (h : s.Accepts o d 0x6C objReleaseChecks) :
    exec (.objRelease o d) s =
      .next (((s.taken o d 0x6C).releaseMaps (s.asOp o d 0x6C)).objSubmit (s.asOp o d 0x6C) .release) :=
  congrArg Host.Outcome.next (State.accept_of_accepts h)

/-- Every mapping an OBJ_RELEASE leaves is one there was, or one that holds the release. -/
theorem State.releaseMaps_mem {s : State} {op : Op} {m : Mapping} (h : m ∈ (s.releaseMaps op).tiers.maps) :
    (m.gal = op.gal → m.daddr = fld op.d 8 47 0 → m.release = some op) ∧
      ∃ n ∈ s.tiers.maps, m = n ∨ m = { n with release := some op } := by
  obtain ⟨n, hn, rfl⟩ := List.mem_map.mp h
  refine ⟨Mapping.releasedBy_release, n, hn, ?_⟩
  unfold Mapping.releasedBy
  split
  · exact .inr rfl
  · exact .inl rfl

/-! ### T0 frames taken (R321, R333) -/

/-- The state with one frame more taken for a gallery. -/
def State.markT0 (s : State) (f g : Nat) : State :=
  { s with tiers := { s.tiers with t0used := s.tiers.t0used ++ [(f, g)] } }

theorem State.markT0_t0Free {s : State} {f g x : Nat} (h : x ∈ (s.markT0 f g).t0Free) : x ∈ s.t0Free := by
  obtain ⟨hin, hfree⟩ := List.mem_filter.mp h
  refine List.mem_filter.mpr ⟨hin, ?_⟩
  have hany : (s.tiers.t0used ++ [(f, g)]).any (fun u => u.1 == x) = false :=
    (Bool.not_eq_true' _).mp hfree
  rw [List.any_append, Bool.or_eq_false_iff] at hany
  rw [hany.1]
  rfl

theorem State.takeT0_succ {s : State} {f k : Nat} (h : s.pick s.t0Free = (s.draw k, some f)) (g n : Nat) :
    s.takeT0 g (n + 1) = ((((s.draw k).markT0 f g).takeT0 g n).1, f :: (((s.draw k).markT0 f g).takeT0 g n).2) := by
  rw [State.takeT0, h]
  rfl

/-- The frames taken were free, and are the gallery's from now on. -/
theorem State.takeT0_frames (s : State) (g n : Nat) : (∀ u ∈ s.tiers.t0used, u ∈ (s.takeT0 g n).1.tiers.t0used) ∧
    ∀ f ∈ (s.takeT0 g n).2, f ∈ s.t0Free ∧ (f, g) ∈ (s.takeT0 g n).1.tiers.t0used := by
  induction n generalizing s with
  | zero => exact ⟨fun u hu => hu, fun f hf => nomatch hf⟩
  | succ n ih =>
    by_cases hnone : s.t0Free = []
    · have hend : s.takeT0 g (n + 1) = (s, []) := by rw [State.takeT0, hnone, State.pick_nil]
      rw [hend]
      exact ⟨fun u hu => hu, fun f hf => nomatch hf⟩
    · obtain ⟨f, hf, k, hpick⟩ := State.pick_spec s hnone
      obtain ⟨hkept, hmore⟩ := ih ((s.draw k).markT0 f g)
      rw [State.takeT0_succ hpick]
      refine ⟨fun u hu => hkept u (List.mem_append_left _ hu), fun x hx => ?_⟩
      rcases List.mem_cons.mp hx with rfl | hx
      · exact ⟨hf, hkept _ (List.mem_append_right _ List.mem_cons_self)⟩
      · obtain ⟨hfree, hused⟩ := hmore x hx
        exact ⟨State.markT0_t0Free (s := s.draw k) hfree, hused⟩

/-! ### MIGRATE (R333) -/

/-- The frames that an accepted MIGRATE reserves, and the state with them reserved. -/
def State.reserved (s : State) (o : Op) (m : Mapping) : State × List Nat :=
  if fld o.d 20 1 0 = 0 then s.takeT0 o.gal (s.migNeeds m.obj (s.migPanels o)) else (s, [])

theorem State.reserved_only (s : State) (o : Op) (m : Mapping) :
    OnlyM (mask [.tiersT0used, .free]) s (s.reserved o m).1 := by
  unfold State.reserved
  split
  · exact (State.takeT0_only (.refl _ s) (Nat.or_self _)).fst
  · exact .refl _ s

theorem State.reserved_frames (s : State) (o : Op) (m : Mapping) : (fld o.d 20 1 0 ≠ 0 → (s.reserved o m).2 = []) ∧
    ∀ f ∈ (s.reserved o m).2, f ∈ s.t0Free ∧ (f, o.gal) ∈ (s.reserved o m).1.tiers.t0used := by
  unfold State.reserved
  split
  next h => exact ⟨fun hne => absurd h hne, (State.takeT0_frames ..).2⟩
  · exact ⟨fun _ => rfl, fun f hf => nomatch hf⟩

/-- The migration that an accepted MIGRATE of panels asks for. -/
def State.migAsked (s : State) (o : Op) (m : Mapping) : Mig :=
  { op := o, obj := m.obj, first := (fld o.d 8 47 0 - m.daddr) / 2 ^ 18, count := objPanels o.d, target := fld o.d 20 1 0
    frames := (s.reserved o m).2, left := (List.range (objPanels o.d)).map (fun i => (fld o.d 8 47 0 - m.daddr) / 2 ^ 18 + i) }

theorem exec_migrate {o : Origin} {d : Line64} {s : State} {m : Mapping} (h : s.Accepts o d 0x6D migrateChecks)
    (hm : s.mappingAt (s.asOp o d 0x6D).gal (fld d 8 47 0) true = some m) (hpanels : 0 < fld d 16 19 0) :
    exec (.migrate o d) s = .next (((s.taken o d 0x6D).reserved (s.asOp o d 0x6D) m).1.migStart
      ((s.taken o d 0x6D).migAsked (s.asOp o d 0x6D) m)) := by
  have hmap : (s.taken o d 0x6D).mappingAt (s.asOp o d 0x6D).gal (fld (s.asOp o d 0x6D).d 8 47 0) true = some m := by
    rw [State.asOp_d, State.mappingAt_congr (s.taken_tiers ..), hm]
  have hl : (s.taken o d 0x6D).migPanels (s.asOp o d 0x6D) = (List.range (objPanels (s.asOp o d 0x6D).d)).map
      (fun i => (fld (s.asOp o d 0x6D).d 8 47 0 - m.daddr) / 2 ^ 18 + i) := by rw [State.migPanels, hmap]
  have hfirst : ((s.taken o d 0x6D).migPanels (s.asOp o d 0x6D)).headD 0 =
      (fld (s.asOp o d 0x6D).d 8 47 0 - m.daddr) / 2 ^ 18 := by
    obtain ⟨n, hn⟩ := Nat.exists_eq_succ_of_ne_zero (Nat.ne_of_gt hpanels)
    rw [hl, State.asOp_d, objPanels, hn, List.range_succ_eq_map]
    rfl
  show Host.Outcome.next (s.accept _ o d 0x6D migrateChecks _) = _
  rw [State.accept_of_accepts h]
  simp only [hmap]
  rw [hfirst, State.migAsked, State.reserved, hl]

/-! ### The mover's start of a panel (R337) -/

/-- No panel has another tier. -/
structure State.KeepsTier (s t : State) : Prop where
  tier : ∀ n p, (t.panel n p).tier = (s.panel n p).tier

theorem State.KeepsTier.refl (s : State) : s.KeepsTier s := ⟨fun _ _ => rfl⟩

theorem State.KeepsTier.trans {s t u : State} (h : s.KeepsTier t) (k : t.KeepsTier u) : s.KeepsTier u :=
  ⟨fun n p => (k.tier n p).trans (h.tier n p)⟩

theorem State.KeepsTier.of_eq {s t : State} (h : t.tiers.panels = s.tiers.panels) : s.KeepsTier t :=
  ⟨fun n p => by rw [State.panel_congr h]⟩

theorem State.KeepsTier.of_tiers {s t : State} (h : t.tiers = s.tiers) : s.KeepsTier t := .of_eq (by rw [h])

theorem State.KeepsTier.setPanel {s : State} {n p : Nat} {x : Panel} (h : x.tier = (s.panel n p).tier) :
    s.KeepsTier (s.setPanel n p x) := by
  refine ⟨fun k q => ?_⟩
  by_cases hk : panelKey k q = panelKey n p
  · rw [State.panel, hk, show Tbl.look (s.setPanel n p x).tiers.panels (panelKey n p) {} = x from Tbl.look_put_self .., h,
      State.panel, State.panel, hk]
  · exact congrArg Panel.tier (Tbl.look_put_ne _ _ _ _ hk)

theorem State.quarantine_keepsTier (s : State) (n p : Nat) : s.KeepsTier (s.quarantine n p) := by
  unfold State.quarantine
  extract_lets x stage u src v
  split
  · exact .refl s
  split
  · exact .of_tiers (State.incident_tiers _)
  · have hset : s.KeepsTier u := .setPanel rfl
    exact hset.trans (.of_eq ((congrArg Tiers.panels (State.incident_tiers v)).trans rfl))

theorem State.noteBurst_keepsTier (s : State) (c reader : Nat) (told : Bool) (a : Nat) (ue : Bool) :
    s.KeepsTier (s.noteBurst c reader told a ue) := by
  unfold State.noteBurst
  split
  · extract_lets acc st obj u
    have hu : s.KeepsTier u := .of_tiers ((State.incident_tiers _).trans (State.count_tiers _))
    clear_value u acc
    split
    · exact hu
    · exact hu.trans (u.quarantine_keepsTier ..)
  · exact .of_tiers ((State.incident_tiers _).trans (State.count_tiers _))

/-- What the mover reads a panel's copy for leaves every panel in its tier. -/
theorem State.moverReads_keepsTier (s : State) (n p : Nat) : s.KeepsTier (s.moverReads n p).1 := by
  unfold State.moverReads
  split
  · next a _ =>
    have hnote : s.KeepsTier (s.noteHall a 262144).1 :=
      .of_tiers ((State.noteHall_only (.refl _ s) (Nat.or_self _)).fst.tiers.eq (by decide))
    exact hnote.trans (List.foldlRecOn (motive := fun t : State => (s.noteHall a 262144).1.KeepsTier t) _ _ (.refl _)
      fun u hu w _ => hu.trans (by split <;> [exact .refl u; exact u.quarantine_keepsTier ..]))
  · exact List.foldlRecOn (motive := fun t : State => s.KeepsTier t) _ _ (.refl s)
      fun u hu e _ => hu.trans (u.noteBurst_keepsTier ..)
  · exact .refl s

/-- The state in which a panel's copy has begun, `lost` telling of bytes that could not be read: its record names the target, and
the mover has it in flight. -/
def State.beginMove (s : State) (g : Mig) (p : Nat) (lost : Bool) : State :=
  let t := (s.setPanel g.obj p { s.panel g.obj p with busy := some (g.target, g.frames.headD 0) }).updMig g.op.id (fun m =>
    { m with left := m.left.filter (fun q => q != p), frames := g.frames.drop 1
             status := m.status.max (statusIf lost .arrayUe) })
  { t with tiers := { t.tiers with moving := t.tiers.moving ++ [(g.obj, p, g.op.id)] } }

theorem State.beginMove_tiers (s : State) (g : Mig) (p : Nat) (lost : Bool) : (s.beginMove g p lost).panel g.obj p =
      { s.panel g.obj p with busy := some (g.target, g.frames.headD 0) } ∧
    (s.beginMove g p lost).tiers.moving = s.tiers.moving ++ [(g.obj, p, g.op.id)] ∧ (s.beginMove g p lost).mem = s.mem :=
  ⟨State.setPanel_panel .., rfl, rfl⟩

/-- The state in which a panel that the mover read has begun its copy. -/
def State.moverBegun (s : State) (g : Mig) (p : Nat) : State :=
  (s.moverReads g.obj p).1.beginMove g p (s.moverReads g.obj p).2

/-- A panel that the read leaves in use begins its copy: what follows asks for its bytes where they are in T2. -/
theorem State.moverStart_begins {s : State} {g : Mig} {p : Nat} (hquar : ((s.moverReads g.obj p).1.panel g.obj p).quar = false)
    (hframes : g.target = 0 → g.frames ≠ []) :
    OnlyM (mask [.dmaOps, .dmaStops, .dmaNextOpid, .dmaLastRd, .dmaLastWr, .dmaRdEng, .dmaWrEng, .docGroups, .fabPorts,
      .catCounters, .catRings, .catTrace, .free, .out]) (s.moverBegun g p) (s.moverStart g p) := by
  have hnone : (s.moverReads g.obj p).1.frameFor g = ((s.moverReads g.obj p).1, g.frames) :=
    if_neg fun h => hframes h.1 h.2.1
  have hhas : (g.target == 0 && g.frames.isEmpty) = false := by
    rw [Bool.and_eq_false_iff, beq_eq_false_iff_ne, List.isEmpty_eq_false_iff]
    exact Decidable.not_or_of_imp hframes
  have hstart : s.moverStart g p = match (s.moverBegun g p).locate g.obj p with
      | .t2 false a => (s.moverBegun g p).hostRead 0 (.moverPanel g.obj p) a 262144
      | .t2 true a => match (s.moverBegun g p).obj? g.obj with
        | none => s.moverBegun g p
        | some o => (s.moverBegun g p).peerRead o a 262144
      | _ => s.moverBegun g p := by
    have hgo : ¬ ((((s.moverReads g.obj p).1.panel g.obj p).quar || g.target == 0 && g.frames.isEmpty) = true) := by
      rw [hquar, hhas]
      decide
    simp only [State.moverStart, hnone, if_neg hgo]
    rfl
  rw [hstart]
  split
  · exact State.hostRead_only (.refl _ _) (by decide)
  · split
    · exact .refl _ _
    · exact State.peerRead_only (.refl _ _) (by decide)
  · exact .refl _ _

/-- A panel whose copy starts is in flight to its target, in its tier as before, and memory stays. -/
theorem State.moverStart_spec {s : State} {g : Mig} {p : Nat} (hquar : ((s.moverReads g.obj p).1.panel g.obj p).quar = false)
    (hframes : g.target = 0 → g.frames ≠ []) :
    ((s.moverStart g p).panel g.obj p).busy = some (g.target, g.frames.headD 0) ∧
    ((s.moverStart g p).panel g.obj p).tier = (s.panel g.obj p).tier ∧
    (s.moverStart g p).tiers.moving = s.tiers.moving ++ [(g.obj, p, g.op.id)] ∧ (s.moverStart g p).mem = s.mem := by
  have hbegun := State.moverStart_begins hquar hframes
  have hreads := (State.moverReads_only (a1 := g.obj) (a2 := p) (.refl _ s) (Nat.or_self _)).fst
  obtain ⟨hpanel, hmoving, hmem⟩ := (s.moverReads g.obj p).1.beginMove_tiers g p (s.moverReads g.obj p).2
  rw [State.moverBegun] at hbegun
  rw [State.panel_congr (hbegun.tiers.panels.resolve_left (by decide)), hpanel, hbegun.tiers.moving.resolve_left (by decide),
    hmoving, hreads.tiers.moving.resolve_left (by decide), hbegun.mem.resolve_left (by decide), hmem,
    hreads.mem.resolve_left (by decide)]
  exact ⟨rfl, (s.moverReads_keepsTier g.obj p).tier g.obj p, rfl, rfl⟩

theorem exec_moverPanelStart {ups : List Upset} {s : State} {g : Mig} {p : Nat} {a : MoverAct}
    (hrun : (s.upsets ups).running = true)
    (hg : (s.upsets ups).tiers.migs.find? (fun x => !x.left.isEmpty && (s.upsets ups).tiers.objRun.contains x.op.id) = some g)
    (hnext : (s.upsets ups).moverNext g g.left = some (p, a)) :
    exec (.moverPanelStart ups) s = .next ((s.upsets ups).moverAct g p a) := by
  show execMoverPanelStart ups s = _
  simp only [execMoverPanelStart, hg, Option.bind_some, hnext, Option.map_some, hrun, if_true]

/-! ### The end of a panel's move (R337, R338) -/

/-- A migration's end, and what it lets on, leaves panels and memory. -/
theorem State.migSettle_samePanels {s : State} (h : s.NoRelease) (id : Nat) : s.SamePanels (s.migSettle id) := by
  have hend := (State.migEnd_only (a1 := id) (.refl _ s) (Nat.or_self _)).tiers
  have hmaps := hend.maps.resolve_left (by decide)
  exact .trans ⟨hend.panels.resolve_left (by decide), hend.repairs.resolve_left (by decide), hmaps⟩
    (State.objSettle_samePanels (h.congr hmaps) _)

theorem panelKey_ne {n p k q : Nat} (hp : p < 2 ^ 20) (hq : q < 2 ^ 20) (h : (k, q) ≠ (n, p)) : panelKey k q ≠ panelKey n p := by
  intro e
  refine h (Prod.ext ?_ ?_) <;> simp only [panelKey] at * <;> omega

theorem State.setPanel_panel_of_key (s : State) {n p k q : Nat} (h : panelKey k q ≠ panelKey n p) (x : Panel) :
    (s.setPanel n p x).panel k q = s.panel k q := Tbl.look_put_ne _ _ _ _ h

/-- The state in which a panel has been dropped to T2, its migration with one panel fewer to take (R338). -/
def State.moverDropped (s : State) (g : Mig) (p : Nat) : State :=
  ((s.dropPanel g.obj p).count .migPanels g.op.gal 1).updMig g.op.id (fun m =>
    { m with left := m.left.filter (fun q => q != p), moved := m.moved + 1 })

theorem State.moverAct_drop (s : State) (g : Mig) (p : Nat) :
    s.moverAct g p .drop = (s.moverDropped g p).migSettle g.op.id := rfl

/-- A panel dropped to T2 has no resident copy, and memory stays. -/
theorem State.moverAct_drop_spec {s : State} (h : s.NoRelease) (g : Mig) (p : Nat) :
    (s.moverAct g p .drop).panel g.obj p = {} ∧ (s.moverAct g p .drop).mem = s.mem := by
  have hdrop : OnlyM (mask [.tiersPanels, .tiersT0used, .tiersRepairs, .catCounters, .tiersMigs]) s (s.moverDropped g p) :=
    State.updMig_only (State.count_only (State.dropPanel_only (.refl _ s) (by decide)) (by decide)) (by decide)
  have hquiet := h.congr (hdrop.tiers.maps.resolve_left (by decide))
  have hgone : (s.moverDropped g p).panel g.obj p = {} := by
    have hcount := (State.count_only (a1 := .migPanels) (a2 := g.op.gal) (a3 := 1) (.refl _ (s.dropPanel g.obj p))
      (Nat.or_self _)).tiers.panels.resolve_left (by decide)
    exact (State.panel_congr hcount ..).trans
      (State.setPanel_panel (s.leaveTier (s.panel g.obj p)) g.obj p {} :)
  rw [State.moverAct_drop]
  refine ⟨(State.panel_congr (State.migSettle_samePanels hquiet _).panels ..).trans hgone, ?_⟩
  exact ((State.migSettle_only (.refl _ _) (Nat.or_self _)).mem.resolve_left (by decide)).trans
    (hdrop.mem.resolve_left (by decide))

/-- The state in which a panel is in its target tier, in flight no more, its migration with one panel more moved. -/
def State.panelSwitched (s : State) (n p : Nat) (data : Bytes) (x : Nat × Nat) (id : Nat) : State :=
  let gal := ((s.tiers.migs.find? (fun g => g.op.id == id)).map (fun g => g.op.gal)).getD 0
  let t := ((s.writePanel n p x.1 x.2 (s.panelBytes n p data)).leaveTier (s.panel n p)).setPanel n p
    { s.panel n p with tier := x.1, frame := x.2, busy := none }
  let u : State := { t with tiers := { t.tiers with
    moving := t.tiers.moving.filter (fun m => !(m.1 == n && m.2.1 == p)) } }
  (u.count .migPanels gal 1).updMig id (fun m => { m with moved := m.moved + 1 })

theorem exec_panelSwitch {n : Fin 16384} {p : Nat} {data : Bytes} {s : State} {x : Nat × Nat} {m : Nat × Nat × Nat}
    (hrun : s.running = true) (hbusy : (s.panel n.val p).busy = some x)
    (hm : s.tiers.moving.find? (fun m => m.1 == n.val && m.2.1 == p) = some m) :
    exec (.panelSwitch n p data) s = .next ((s.panelSwitched n.val p data x m.2.2).migSettle m.2.2) := by
  show execPanelSwitch n p data s = _
  simp only [execPanelSwitch, hbusy, hm, hrun, if_true]
  rfl

/-- What the switch does to the panels: the one moved is in its target tier, and no other has changed. -/
theorem State.panelSwitched_tiers (s : State) (n p : Nat) (data : Bytes) (x : Nat × Nat) (id : Nat) :
    (s.panelSwitched n p data x id).panel n p = { s.panel n p with tier := x.1, frame := x.2, busy := none } ∧
    (∀ k q, panelKey k q ≠ panelKey n p → (s.panelSwitched n p data x id).panel k q = s.panel k q) ∧
    (s.panelSwitched n p data x id).tiers.moving = s.tiers.moving.filter (fun m => !(m.1 == n && m.2.1 == p)) ∧
    (s.panelSwitched n p data x id).tiers.maps = s.tiers.maps := by
  have hleave : OnlyM (mask [.mem, .chk, .bad, .cores, .rasSources, .rasQueue, .rasOvf, .catCounters, .catRings, .catTrace, .free,
      .tiersT0used]) s ((s.writePanel n p x.1 x.2 (s.panelBytes n p data)).leaveTier (s.panel n p)) :=
    State.leaveTier_only (State.writePanel_only (.refl _ s) (by decide)) (by decide)
  let t := ((s.writePanel n p x.1 x.2 (s.panelBytes n p data)).leaveTier (s.panel n p)).setPanel n p
    { s.panel n p with tier := x.1, frame := x.2, busy := none }
  have htiers : (s.panelSwitched n p data x id).tiers =
      { t.tiers with
        moving := t.tiers.moving.filter (fun m => !(m.1 == n && m.2.1 == p))
        migs := (s.panelSwitched n p data x id).tiers.migs } := by
    unfold State.panelSwitched State.updMig
    dsimp only
    rw [State.count_tiers]
  have hpanels : (s.panelSwitched n p data x id).tiers.panels = t.tiers.panels := (congrArg Tiers.panels htiers).trans rfl
  refine ⟨(State.panel_congr hpanels ..).trans (State.setPanel_panel ..), fun k q hk => ?_, ?_, ?_⟩
  · exact (State.panel_congr hpanels ..).trans ((State.setPanel_panel_of_key _ hk _).trans
      (State.panel_congr (hleave.tiers.panels.resolve_left (by decide)) ..))
  · exact (congrArg Tiers.moving htiers).trans (congrArg (List.filter _) (hleave.tiers.moving.resolve_left (by decide)))
  · exact (congrArg Tiers.maps htiers).trans (hleave.tiers.maps.resolve_left (by decide))

/-- Settles O35: the mover works on one panel, and the end of a migration keeps every panel where it is. -/
theorem panelsMigrate : Obligations.PanelsMigrate := by
  refine ⟨fun o d s hacc => ⟨_, exec_objRelease hacc, ?_⟩, fun o d s m hacc hm hpanels hnew hqueued => ?_,
    fun ups s u g p hu hrun hg hnext hquar hframes => ?_, fun ups s u g p hu hrun hg hnext hquiet => ?_,
    fun n p data s x m hrun hbusy hm hquiet hp => ⟨_, exec_panelSwitch hrun hbusy hm, ?_⟩⟩
  · have hwithin := State.objSubmit_mapsWithin ((s.taken o d 0x6C).releaseMaps (s.asOp o d 0x6C)) (s.asOp o d 0x6C) .release
    refine ⟨fun m hm => ?_, fun m hm => ?_⟩
    · have hrel := (State.releaseMaps_mem (hwithin hm)).1
      rwa [State.asOp_d] at hrel
    · have hold := (State.releaseMaps_mem (hwithin hm)).2
      rwa [State.taken_tiers] at hold
  · let u := ((s.taken o d 0x6D).reserved (s.asOp o d 0x6D) m).1
    have honly : OnlyM (mask [.tiersT0used, .free]) (s.taken o d 0x6D) u := State.reserved_only ..
    have htiers := s.taken_tiers o d 0x6D
    have hmigs : u.tiers.migs = s.tiers.migs := (honly.tiers.migs.resolve_left (by decide)).trans (congrArg Tiers.migs htiers)
    have hroom : u.ObjQueued := by
      rw [State.ObjQueued, honly.tiers.objWait.resolve_left (by decide), honly.tiers.objRun.resolve_left (by decide),
        honly.tiers.maps.resolve_left (by decide), htiers]
      exact hqueued
    have hleft : ((s.taken o d 0x6D).migAsked (s.asOp o d 0x6D) m).left ≠ [] := by
      rw [State.migAsked, State.asOp_d, Ne, List.map_eq_nil_iff, List.range_eq_nil]
      exact Nat.ne_of_gt hpanels
    obtain ⟨hmig, hout, -, hkept, hused⟩ := State.migStart_waits hroom hleft
      (by rw [hmigs]; exact fun x hx => (State.asOp_id s o d 0x6D) ▸ hnew x hx)
    obtain ⟨hnone, hframes⟩ := (s.taken o d 0x6D).reserved_frames (s.asOp o d 0x6D) m
    rw [State.asOp_d] at hnone
    refine ⟨_, ((s.taken o d 0x6D).reserved (s.asOp o d 0x6D) m).2, exec_migrate hacc hm hpanels, ?_, ?_, ?_, hnone,
      fun f hf => ?_⟩
    · exact hout.trans ((honly.out.resolve_left (by decide)).trans (s.taken_out ..))
    · exact hkept.trans ((honly.tiers.panels.resolve_left (by decide)).trans (congrArg Tiers.panels htiers))
    · rw [hmig, hmigs, State.migAsked, State.asOp_d]
      rfl
    · obtain ⟨hfree, hgal⟩ := hframes f hf
      rw [hused]
      refine ⟨?_, hgal⟩
      rwa [State.t0Free, State.t0Total, State.field, State.written, State.taken_regs, htiers] at hfree
  · subst hu
    exact ⟨_, exec_moverPanelStart hrun hg hnext, State.moverStart_spec hquar hframes⟩
  · subst hu
    exact ⟨_, exec_moverPanelStart hrun hg hnext, State.moverAct_drop_spec hquiet g p⟩
  · obtain ⟨hpanel, hothers, hmoving, hmaps⟩ := s.panelSwitched_tiers n.val p data x m.2.2
    have hsettle := State.migSettle_samePanels (State.NoRelease.congr hquiet hmaps) m.2.2
    refine ⟨(State.panel_congr hsettle.panels ..).trans hpanel, fun k q hq hne => ?_, ?_⟩
    · exact (State.panel_congr hsettle.panels ..).trans (hothers k q (panelKey_ne hp hq hne))
    · exact ((State.migSettle_only (.refl _ _) (Nat.or_self _)).tiers.moving.resolve_left (by decide)).trans hmoving

end Sys2Proof.Machine

end

section
namespace Sys2Proof.Machine

/-! ### Headers and lines (R344, R347) -/

/-- The link layer's fields leave the others of a header. -/
theorem bits_withSeq (h : Line16) (seq ack : Nat) (nak : Bool) {a b : Nat} (hba : b ≤ a) (ha : a < 128)
    (hd : a < 16 ∨ 47 < b) : bits (withSeq h seq ack nak).toNat a b = bits h.toNat a b := by
  rw [withSeq, bits_toNat_ofNat _ ha hba, bits_setBits_beside _ _ (by decide) hba (by omega),
    bits_setBits_beside _ _ (by decide) hba (by omega), bits_setBits_beside _ _ (by decide) hba (by omega)]

/-- The type and the virtual lane of a control packet. -/
theorem pktHdr_control (type len ibeat dst src : Nat) (h : type < 16) (hc : type ≠ tyData) :
    Pkt.type (pktHdr type 0 len ibeat 0 dst src 0 []) = type ∧ Pkt.vl (pktHdr type 0 len ibeat 0 dst src 0 []) = 0 := by
  have hbits (a b : Nat) (ha : a < 8) (hb : b ≤ a) : bits (pktHdr type 0 len ibeat 0 dst src 0 []).toNat a b = bits type a b := by
    rw [pktHdr, bits_toNat_ofNat _ (by omega) hb, if_neg hc, ← bits_mod_two_pow _ ha hb, ← bits_mod_two_pow type ha hb]
    refine congrArg (fun n => bits n a b) ?_
    simp only [putF, List.getElem?_nil]
    omega
  exact ⟨by rw [Pkt.type, fld, hbits _ _ (by decide) (by decide), bits]; omega,
    by rw [Pkt.vl, fld, hbits _ _ (by decide) (by decide), bits]; omega⟩

theorem lineBytes_length' {w : Nat} (x : BitVec w) : (lineBytes x).length = w / 8 := by simp [lineBytes]

/-! ### Sending on a cabinet port (R347) -/

theorem State.notePacket_port (s : State) (p code : Nat) (h : Line16) (b : Bytes) (q : Nat) :
    (s.notePacket p code h b).port q = s.port q :=
  State.port_congr ((State.notePacket_only (.refl _ s) (Nat.or_self _)).fab.ports.resolve_left (by decide)) q

theorem State.notePacket_out (s : State) (p code : Nat) (h : Line16) (b : Bytes) : (s.notePacket p code h b).out = s.out :=
  (State.notePacket_only (.refl _ s) (Nat.or_self _)).out.resolve_left (by decide)

/-- A cabinet port after it has sent one packet more. -/
def Port.sent (x : Port) (h : Line16) (b : Bytes) : Port :=
  { x with
    txSeq := x.txSeq + 1, nak := false
    retry := x.retry ++ [{ seq := x.txSeq.toNat, hdr := withSeq h x.txSeq.toNat x.rxSeq.toNat x.nak, payload := b, tries := 1 }]
    credits := x.credits.set (Pkt.vl h) (x.credits.getD (Pkt.vl h) 0 - pktUnits b) }

theorem State.portEmit_port (s : State) (p : Nat) (h : Line16) (b : Bytes) (q : Nat) :
    (s.portEmit p h b).port q = if q = p then (s.port p).sent h b else s.port q := by
  have hnote := (s.setPort p ((s.port p).sent h b)).notePacket_port p 8
    (withSeq h (s.port p).txSeq.toNat (s.port p).rxSeq.toNat (s.port p).nak) b q
  refine hnote.trans ?_
  split
  next hq => rw [hq, State.setPort_port]
  next hq => exact State.setPort_port_ne s hq

theorem State.portEmit_out (s : State) (p : Nat) (h : Line16) (b : Bytes) : (s.portEmit p h b).out =
    s.out ++ [.packet p (withSeq h (s.port p).txSeq.toNat (s.port p).rxSeq.toNat (s.port p).nak) b] :=
  congrArg (· ++ [_]) (State.notePacket_out ..)

/-- A cabinet port that holds nothing and may send does so. -/
theorem State.portSend_free {s : State} {p : Nat} {h : Line16} {b : Bytes} (hp : p < 24) (hqueue : (s.port p).queue = [])
    (hmay : (s.port p).maySend h b = true) : s.portSend p h b = s.portEmit p h b := by
  simp [State.portSend, Nat.not_le.mpr hp, hqueue, hmay]

/-- A packet handed to a port touches no other port. -/
theorem State.portSend_port_ne (s : State) {p q : Nat} (h : Line16) (b : Bytes) (hq : q ≠ p) :
    (s.portSend p h b).port q = s.port q := by
  unfold State.portSend
  split
  · exact State.port_congr ((State.frameSend_only (.refl _ s) (Nat.or_self _)).fab.ports.resolve_left (by decide)) q
  · extract_lets x
    split
    · rw [State.portEmit_port, if_neg hq]
    · exact (State.port_congr ((State.countIf_only (.refl _ _) (Nat.or_self _)).fab.ports.resolve_left (by decide)) q).trans
        (State.setPort_port_ne s hq)

/-- A cabinet port with two credits on VL0 and room for a packet sends a control packet at once. -/
theorem Port.maySend_control {x : Port} {h : Line16} {b : Bytes} (hvl : Pkt.vl h = 0) (hb : b.length = 32)
    (hcredit : 2 ≤ x.credits.getD 0 0) (hretry : x.retry.length < 2048) (hheld : x.heldBytes + 52 ≤ 131072) :
    x.maySend h b = true := by
  have hunits : pktUnits b = 2 := by rw [pktUnits, hb]; rfl
  simp only [Port.maySend, Port.hasCredit, hvl, hunits, hcredit, hretry, hb, Nat.add_assoc, decide_true, Bool.true_and,
    decide_eq_true_eq]
  exact hheld

end Sys2Proof.Machine

end

section
namespace Sys2Proof.Machine

/-! ### LINK_CTRL (R347, R350) -/

theorem State.devId_congr {s t : State} (h : t.regs = s.regs) : t.devId = s.devId := by
  rw [State.devId, State.field, State.written, h]
  rfl

theorem State.arrive_devId {s u : State} {p ty : Nat} {h : Line16} {b : Bytes} {ok : Bool}
    (harrive : s.arrive p ty h b = (u, ok)) : u.devId = s.devId := by
  have hframe := (State.arrive_only (a1 := p) (a2 := ty) (a3 := h) (a4 := b) (.refl _ s) (Nat.or_self _)).fst
  rw [harrive] at hframe
  exact State.devId_congr (hframe.regs.resolve_left (by decide))

/-- A port with the credits that a LINK_CTRL gives. -/
def Port.credited (x : Port) (l : Line32) : Port :=
  { x with credits := (List.range 4).map (fun v => x.credits.getD v 0 + fld l (2 * v) 15 0) }

theorem exec_linkCtrlReceive {p : PortNo} {h : Line16} {l : Line32} {s u : State} (hp : p.val < 24)
    (harrive : s.arrive p.val tyLinkCtrl h (lineBytes l) = (u, true)) (hqueue : (u.port p.val).queue = []) :
    exec (.linkCtrlReceive p h l) s = .next (if (u.port p.val).st = .check
      then (u.setPort p.val ((u.port p.val).credited l)).wiringCheck p.val (fld l 8 16 0) (fld l 8 21 17)
      else u.setPort p.val ((u.port p.val).credited l)) := by
  have hpump : (u.setPort p.val ((u.port p.val).credited l)).portPump p.val ((u.port p.val).credited l).queue.length =
      u.setPort p.val ((u.port p.val).credited l) := by
    rw [show ((u.port p.val).credited l).queue = [] from hqueue]
    rfl
  show execLinkCtrlReceive p h l s = _
  rw [execLinkCtrlReceive, harrive]
  refine congrArg Host.Outcome.next ((if_pos ⟨hp, rfl⟩).trans ?_)
  rw [← hpump]
  rfl

theorem State.counter_congr {s t : State} (h : t.cat.counters = s.cat.counters) (c : Ctr) (i j : Nat) :
    t.counter c i j = s.counter c i j := by rw [State.counter, h, State.counter]

/-- A port with the identity of the neighbour that its link showed. -/
def Port.heard (x : Port) (id port : Nat) : Port := { x with peerId := id, peerPort := port }

/-- The wiring check notes the identity, and takes the port to STANDBY or, where the wiring is not as it should be, to MISWIRED
with an incident (R350). -/
theorem State.wiringCheck_port (s : State) (p id port q : Nat) : (s.wiringCheck p id port).port q =
    if q = p then { (s.port p).heard id port with
      st := if cabOf id = cabOf s.devId ∧ slotOf id = (wired (slotOf s.devId) p).1 ∧ port = (wired (slotOf s.devId) p).2
        then .standby else .miswired } else s.port q := by
  have hto (st : PortSt) : ((s.setPort p ((s.port p).heard id port)).setPortSt p st).port q =
      if q = p then { (s.port p).heard id port with st := st } else s.port q := by
    rw [State.setPortSt_port, State.setPort_port]
    split
    · rfl
    next hq => exact State.setPort_port_ne s hq
  unfold State.wiringCheck
  extract_lets u w
  split
  · exact hto .standby
  · rw [State.incident_port, State.port_congr ((State.count_only (.refl _ _) (Nat.or_self _)).fab.ports.resolve_left (by decide))]
    exact hto .miswired

/-- A port found MISWIRED is counted, and raises an incident of its number. -/
theorem State.wiringCheck_miswired {s : State} {p id port : Nat} (h : ((s.wiringCheck p id port).port p).st = .miswired) :
    (s.wiringCheck p id port).counter .brlMiswire p 0 = min (s.counter .brlMiswire p 0 + 1) (2 ^ 64 - 1) ∧
    ((s.wiringCheck p id port).source (0x4000 + p)).count = min ((s.source (0x4000 + p)).count + 1) (2 ^ 32 - 1) := by
  have hbad : ¬ (cabOf id = cabOf s.devId ∧ slotOf id = (wired (slotOf s.devId) p).1 ∧ port = (wired (slotOf s.devId) p).2) := by
    intro hw
    rw [State.wiringCheck_port, if_pos rfl, if_pos hw] at h
    nomatch h
  let u := (s.setPort p ((s.port p).heard id port)).setPortSt p .miswired
  have hframe : OnlyM (mask [.fabPorts, .catRings, .catTrace, .free]) s u :=
    State.setPortSt_only (State.setPort_only (.refl _ s) (by decide)) (by decide)
  have hcheck : s.wiringCheck p id port =
      (u.count .brlMiswire p 1).incident clsLink 0x31 .ok (srcPort p) (id + port * 2 ^ 17) 0 := by
    unfold State.wiringCheck
    exact if_neg hbad
  rw [hcheck]
  refine ⟨?_, ?_⟩
  · rw [State.counter_congr ((State.incident_only (.refl _ _) (Nat.or_self _)).cat.counters.resolve_left (by decide)),
      State.count_counter, State.counter_congr (hframe.cat.counters.resolve_left (by decide))]
  · have hsource : (u.count .brlMiswire p 1).source (srcPort p) = s.source (srcPort p) :=
      (State.count_source _ _).trans (State.source_congr (hframe.ras.sources.resolve_left (by decide)) _)
    rw [← srcPort, (State.incident_source ..).1, hsource]

/-! ### LINK_CTRL as it is sent (R347, R350) -/

/-- The line of a LINK_CTRL: the credits owed and the own identity. -/
def linkLine (owed : List Nat) (id p : Nat) : Line32 :=
  BitVec.ofNat 256 (((List.range 4).map (fun v => putF (2 * v) 0 (owed.getD v 0 % 65536))).foldl (· + ·)
    (putF 8 0 id + putF 8 17 p))

/-- Reading identity, port and credits back from the sum that makes the line. -/
theorem linkBits {id p o0 o1 o2 o3 n : Nat} (hid : id < 2 ^ 17) (hp : p < 32) (h0 : o0 < 65536) (h1 : o1 < 65536)
    (h2 : o2 < 65536) (h3 : o3 < 65536)
    (hn : n = o0 + o1 * 2 ^ 16 + o2 * 2 ^ 32 + o3 * 2 ^ 48 + id * 2 ^ 64 + p * 2 ^ 81) :
    bits n 80 64 = id ∧ bits n 85 81 = p ∧ bits n 15 0 = o0 ∧ bits n 31 16 = o1 ∧ bits n 47 32 = o2 ∧ bits n 63 48 = o3 := by
  simp only [bits]
  omega

theorem foldl_range_four (a : Nat) (f : Nat → Nat) : ((List.range 4).map f).foldl (· + ·) a = a + f 0 + f 1 + f 2 + f 3 := rfl

theorem linkSum (o : Nat → Nat) (id p : Nat) :
    ((List.range 4).map (fun v => putF (2 * v) 0 (o v))).foldl (· + ·) (putF 8 0 id + putF 8 17 p) =
      o 0 + o 1 * 2 ^ 16 + o 2 * 2 ^ 32 + o 3 * 2 ^ 48 + id * 2 ^ 64 + p * 2 ^ 81 := by
  have hput (a b c : Nat) : putF a b c = c * 2 ^ (8 * a + b) := rfl
  rw [foldl_range_four]
  generalize o 0 = o0, o 1 = o1, o 2 = o2, o 3 = o3
  rw [hput, hput, hput, hput, hput, hput]
  omega

theorem linkLine_fields (owed : List Nat) {id p : Nat} (hid : id < 2 ^ 17) (hp : p < 32) :
    fld (linkLine owed id p) 8 16 0 = id ∧ fld (linkLine owed id p) 8 21 17 = p ∧
      ∀ v, v < 4 → fld (linkLine owed id p) (2 * v) 15 0 = owed.getD v 0 % 65536 := by
  have hsum := linkSum (fun v => owed.getD v 0 % 65536) id p
  have hodd (v : Nat) : owed.getD v 0 % 65536 < 65536 := Nat.mod_lt _ (by decide)
  obtain ⟨hidf, hpf, h0, h1, h2, h3⟩ := linkBits hid hp (hodd 0) (hodd 1) (hodd 2) (hodd 3) hsum
  have hbits (a b : Nat) (ha : a < 256) (hb : b ≤ a) := bits_toNat_ofNat (w := 256)
    (((List.range 4).map (fun v => putF (2 * v) 0 (owed.getD v 0 % 65536))).foldl (· + ·) (putF 8 0 id + putF 8 17 p)) ha hb
  refine ⟨(hbits _ _ (by decide) (by decide)).trans hidf, (hbits _ _ (by decide) (by decide)).trans hpf, fun v hv => ?_⟩
  match v, hv with
  | 0, _ => exact (hbits _ _ (by decide) (by decide)).trans h0
  | 1, _ => exact (hbits _ _ (by decide) (by decide)).trans h1
  | 2, _ => exact (hbits _ _ (by decide) (by decide)).trans h2
  | 3, _ => exact (hbits _ _ (by decide) (by decide)).trans h3

theorem State.devId_lt (s : State) : s.devId < 2 ^ 17 := Nat.mod_lt _ (by decide)

theorem PortSt.takes_linkCtrl {x : PortSt} (h : x = .check ∨ x = .standby ∨ x = .up) : x.takes tyLinkCtrl = true := by
  rcases h with rfl | rfl | rfl <;> rfl

theorem exec_linkCtrlSend {p : PortNo} {s : State} (halive : s.alive = true) (hp : p.val < 24)
    (hst : (s.port p.val).st = .check ∨ (s.port p.val).st = .standby ∨ (s.port p.val).st = .up) :
    exec (.linkCtrlSend p) s = .next ((s.setPort p.val { s.port p.val with owed := [0, 0, 0, 0] }).sendControl p.val tyLinkCtrl
      (s.wiredId p.val) (linkLine (s.port p.val).owed s.devId p.val)) := by
  show execLinkCtrlSend p s = _
  simp only [execLinkCtrlSend, halive, Nat.not_le.mpr hp, PortSt.takes_linkCtrl hst, Bool.not_true, decide_false, Bool.or_self,
    Bool.false_eq_true, if_false]
  rfl

/-- A control packet that a cabinet port may send goes out at once. -/
theorem State.sendControl_sent {s : State} {p type : Nat} (hp : p < 24) (htype : type < 16) (hc : type ≠ tyData)
    (hqueue : (s.port p).queue = []) (hcredit : 2 ≤ (s.port p).credits.getD 0 0) (hretry : (s.port p).retry.length < 2048)
    (hheld : (s.port p).heldBytes + 52 ≤ 131072) (dst : Nat) (line : Line32) :
    ∃ h, Pkt.type h = type ∧ (s.sendControl p type dst line).out = s.out ++ [.packet p h (lineBytes line)] ∧
      (∀ q, q ≠ p → (s.sendControl p type dst line).port q = s.port q) ∧
      ((s.sendControl p type dst line).port p).owed = (s.port p).owed ∧
      ((s.sendControl p type dst line).port p).txSeq = (s.port p).txSeq + 1 ∧
      ((s.sendControl p type dst line).port p).st = (s.port p).st := by
  obtain ⟨hty, hvl⟩ := pktHdr_control type 1 s.beat dst s.devId htype hc
  have hsend : s.sendControl p type dst line = s.portEmit p (pktHdr type 0 1 s.beat 0 dst s.devId 0 []) (lineBytes line) :=
    State.portSend_free hp hqueue (Port.maySend_control hvl (lineBytes_length' line) hcredit hretry hheld)
  rw [hsend]
  refine ⟨_, ?_, State.portEmit_out .., fun q hq => by rw [State.portEmit_port, if_neg hq], ?_⟩
  · rw [Pkt.type, fld, bits_withSeq _ _ _ _ (by decide) (by decide) (by decide)]
    exact hty
  · rw [State.portEmit_port, if_pos rfl]
    exact ⟨rfl, rfl, rfl⟩

/-! ### Forwarding (R346, R351, R358) -/

/-- The header of a packet on its way, with one hop more and on the next virtual lane. -/
def hopOn (h : Line16) : Line16 :=
  BitVec.ofNat 128 (setBits (setBits h.toNat 7 6 (Pkt.hops h + 1)) 5 4 (Pkt.hops h + 2))

theorem nextSlot_hops {own n : Nat} {h : Line16} (hn : nextSlot own h = some n) : Pkt.hops h ≤ 1 := by
  unfold nextSlot at hn
  extract_lets dst at hn
  split at hn
  next hh => rw [hh.1]; decide
  split at hn
  next hh => rw [hh.1]
  · nomatch hn

/-- Whatever the link layer adds, a packet sent on has one hop more and is on the next virtual lane, its other fields kept. -/
theorem hopOn_fields {h : Line16} (hhops : Pkt.hops h ≤ 1) (seq ack : Nat) (nak : Bool) :
    Pkt.hops (withSeq (hopOn h) seq ack nak) = Pkt.hops h + 1 ∧ Pkt.vl (withSeq (hopOn h) seq ack nak) = Pkt.hops h + 2 ∧
    Pkt.dst (withSeq (hopOn h) seq ack nak) = Pkt.dst h ∧ Pkt.src (withSeq (hopOn h) seq ack nak) = Pkt.src h ∧
    Pkt.flow (withSeq (hopOn h) seq ack nak) = Pkt.flow h := by
  have hhigh (a b : Nat) (hba : b ≤ a) (ha : a < 128) (hb : 47 < b) :
      bits (withSeq (hopOn h) seq ack nak).toNat a b = bits h.toNat a b := by
    rw [bits_withSeq _ _ _ _ hba ha (.inr hb), hopOn, bits_toNat_ofNat _ ha hba,
      bits_setBits_beside _ _ (by decide) hba (by omega), bits_setBits_beside _ _ (by decide) hba (by omega)]
  have hlow (a b : Nat) (hba : b ≤ a) (ha : a < 16) : bits (withSeq (hopOn h) seq ack nak).toNat a b =
      bits (setBits (setBits h.toNat 7 6 (Pkt.hops h + 1)) 5 4 (Pkt.hops h + 2)) a b := by
    rw [bits_withSeq _ _ _ _ hba (by omega) (.inl ha), hopOn, bits_toNat_ofNat _ (by omega) hba]
  refine ⟨?_, ?_, hhigh _ _ (by decide) (by decide) (by decide), hhigh _ _ (by decide) (by decide) (by decide),
    hhigh _ _ (by decide) (by decide) (by decide)⟩
  · refine (hlow 7 6 (by decide) (by decide)).trans ?_
    rw [bits_setBits_beside _ _ (by decide) (by decide) (by decide), bits_setBits]
    exact Nat.mod_eq_of_lt (by omega)
  · refine (hlow 5 4 (by decide) (by decide)).trans ?_
    rw [bits_setBits]
    exact Nat.mod_eq_of_lt (by omega)

theorem exec_dataForward {p : PortNo} {h : Line16} {b : Bytes} {s u : State} {n : Nat} (hp : p.val < 24)
    (harrive : s.arrive p.val tyData h b = (u, true)) (hdst : Pkt.dst h ≠ s.devId)
    (hn : nextSlot (slotOf s.devId) h = some n) :
    exec (.dataForward p h b) s = .next (match byFlow (u.hopPorts (slotOf s.devId) n) (Pkt.flow h) with
      | none => u.rerouted .brlDropLink p.val 1
      | some q => u.portSend q (hopOn h) b) := by
  have hgo : (Pkt.dst h != s.devId) = true := bne_iff_ne.mpr hdst
  show execDataForward p h b s = _
  simp only [execDataForward, harrive, hp, hgo, hn, decide_true, Bool.and_self, if_true]
  rfl

/-! ### Packets discarded (R345, R354, R362, R365) -/

theorem State.askReplay_port (s : State) (p q : Nat) : (s.askReplay p).port q =
    if q = p then (if p < 24 then { s.port p with nak := true } else s.port p) else s.port q := by
  unfold State.askReplay
  split
  · split
    next hq => rw [hq, State.setPort_port]
    next hq => exact State.setPort_port_ne s hq
  · split
    next hq => rw [hq]
    · rfl

/-- The counter that a discarded packet of a port is counted by. -/
def discardCtr (p : Nat) : DiscardReason → Ctr × Nat
  | .crc | .fcs | .etherType => (.brlCrcFail, p)
  | .header => (.brlBadHdr, p)
  | .macsec => (.brlSecDrop, p)
  | .proto => (.fabBadProto, 0)

/-- A discarded packet is counted, and asks for a replay where its own content is what fails. -/
theorem exec_packetDiscard {p : PortNo} {s : State} (why : DiscardReason) (halive : s.alive = true)
    (hst : (s.port p.val).st = .check ∨ (s.port p.val).st = .standby ∨ (s.port p.val).st = .up) :
    exec (.packetDiscard p why) s = .next (if why ≠ .macsec ∧ why ≠ .proto
      then (s.count (discardCtr p.val why).1 (discardCtr p.val why).2 1).askReplay p.val
      else s.count (discardCtr p.val why).1 (discardCtr p.val why).2 1) := by
  show execPacketDiscard p why s = _
  simp only [execPacketDiscard, halive, PortSt.takes_linkCtrl hst]
  cases why <;> rfl

theorem packetDiscard_spec {p : PortNo} {s : State} (why : DiscardReason) (halive : s.alive = true)
    (hst : (s.port p.val).st = .check ∨ (s.port p.val).st = .standby ∨ (s.port p.val).st = .up) :
    ∃ t, exec (.packetDiscard p why) s = .next t ∧
      t.counter (discardCtr p.val why).1 (discardCtr p.val why).2 0 =
        min (s.counter (discardCtr p.val why).1 (discardCtr p.val why).2 0 + 1) (2 ^ 64 - 1) ∧
      t.port p.val = (if p.val < 24 ∧ why ≠ .macsec ∧ why ≠ .proto then { s.port p.val with nak := true } else s.port p.val) ∧
      (∀ q, q ≠ p.val → t.port q = s.port q) ∧ t.out = s.out := by
  let u := s.count (discardCtr p.val why).1 (discardCtr p.val why).2 1
  have hports (q : Nat) : u.port q = s.port q := rfl
  refine ⟨_, exec_packetDiscard why halive hst, ?_⟩
  split
  case isTrue hwhy =>
    have hask := State.askReplay_only (a1 := p.val) (.refl _ u) (Nat.or_self _)
    refine ⟨?_, ?_, fun q hq => ?_, hask.out.resolve_left (by decide)⟩
    · exact (State.counter_congr (hask.cat.counters.resolve_left (by decide)) ..).trans (State.count_counter ..)
    · rw [State.askReplay_port, if_pos rfl]
      exact if_congr (and_iff_left hwhy).symm rfl rfl
    · rw [State.askReplay_port, if_neg hq]
      rfl
  case isFalse hwhy =>
    exact ⟨State.count_counter .., (if_neg fun h => hwhy h.2).symm, fun _ _ => rfl, rfl⟩

/-- Settles O48: a packet sent over a port changes that port alone, and what a check discards is counted before it is asked for again. -/
theorem packetsPass : Obligations.PacketsPass := by
  refine ⟨fun p h l s u hp harrive hqueue hst => ?_, fun p h l s u hp harrive hqueue hst => ?_,
    fun p s halive hp hst hqueue hcredit hretry hheld => ?_,
    fun p h x b s u n q hp harrive hdst hn hq hx hqueue hmay hq24 => ?_,
    fun p h b s u n hp harrive hdst hn hq => ?_, fun p why s halive hst => ?_⟩
  · have hport := (u.setPort p.val ((u.port p.val).credited l)).wiringCheck_port p.val (fld l 8 16 0) (fld l 8 21 17)
    have hid : (u.setPort p.val ((u.port p.val).credited l)).devId = s.devId :=
      State.arrive_devId (u := u) harrive
    refine ⟨_, (exec_linkCtrlReceive hp harrive hqueue).trans (by rw [if_pos hst]), ?_, fun q hq => ?_, fun hbad => ?_⟩
    · rw [hport, if_pos rfl, hid, State.setPort_port]
      rfl
    · rw [hport, if_neg hq]
      exact State.setPort_port_ne u hq
    · exact State.wiringCheck_miswired hbad
  · exact (exec_linkCtrlReceive hp harrive hqueue).trans (by rw [if_neg hst]; rfl)
  · have hport : (s.setPort p.val { s.port p.val with owed := [0, 0, 0, 0] }).port p.val =
        { s.port p.val with owed := [0, 0, 0, 0] } := State.setPort_port ..
    obtain ⟨h, htype, hout, hothers, howed, hseq, hkept⟩ := State.sendControl_sent
      (s := s.setPort p.val { s.port p.val with owed := [0, 0, 0, 0] }) (type := tyLinkCtrl) hp (by decide) (by decide)
      (by rw [hport]; exact hqueue) (by rw [hport]; exact hcredit) (by rw [hport]; exact hretry) (by rw [hport]; exact hheld)
      (s.wiredId p.val) (linkLine (s.port p.val).owed s.devId p.val)
    obtain ⟨hid, hnum, hcredits⟩ := linkLine_fields (s.port p.val).owed s.devId_lt (Nat.lt_trans hp (by decide))
    rw [hport] at howed hseq hkept
    exact ⟨_, h, _, exec_linkCtrlSend halive hp hst, hout, htype, hid, hnum, hcredits, howed, hseq, hkept,
      fun q hq => (hothers q hq).trans (State.setPort_port_ne s hq)⟩
  · subst hx
    have hexec := exec_dataForward hp harrive hdst hn
    rw [hq] at hexec
    refine ⟨_, _, hexec, ?_, (hopOn_fields (nextSlot_hops hn) (u.port q).txSeq.toNat (u.port q).rxSeq.toNat (u.port q).nak).1, ?_⟩
    · exact (congrArg State.out (State.portSend_free hq24 hqueue hmay)).trans (State.portEmit_out ..)
    · obtain ⟨-, hvl, hfdst, hsrc, hflow⟩ :=
        hopOn_fields (nextSlot_hops hn) (u.port q).txSeq.toNat (u.port q).rxSeq.toNat (u.port q).nak
      exact ⟨hvl, hfdst, hsrc, hflow, fun z hz => State.portSend_port_ne _ _ _ hz⟩
  · have hexec := exec_dataForward hp harrive hdst hn
    have hframe := State.rerouted_only (a1 := .brlDropLink) (a2 := p.val) (a3 := 1) (.refl _ u) (Nat.or_self _)
    rw [hq] at hexec
    refine ⟨_, hexec, hframe.out.resolve_left (by decide), hframe.fab.eq (by decide), ?_⟩
    exact u.count_counter .brlDropLink p.val 1
  · obtain ⟨t, hexec, hcount, hrest⟩ := packetDiscard_spec why halive hst
    refine ⟨t, hexec, ?_, hrest⟩
    cases why <;> exact hcount

end Sys2Proof.Machine

end

section
namespace Sys2Proof.Machine

/-! ### What a neighbour's control packet brings (R366, R374) -/

theorem exec_syncReceive {x : Neighbour} {h : Line16} {l : Line32} {rx : Nat} {s u : State}
    (hheard : s.heardFrom x tySync h l = (u, true)) :
    exec (.syncReceive x h l rx) s = .next (u.hearSync (neighbourIdx x) l rx) := by
  show execSyncReceive x h l rx s = _
  cases x with
  | port p =>
    rw [State.heardFrom] at hheard
    simp only [execSyncReceive, hheard, if_true]
    rfl
  | uplink k =>
    obtain ⟨hu, hok⟩ := Prod.mk.inj hheard
    simp only [execSyncReceive, hok, if_true, hu]
    rfl

theorem exec_noticeReceive {x : Neighbour} {h : Line16} {l : Line32} {s u : State}
    (hheard : s.heardFrom x tyNotice h l = (u, true)) : exec (.noticeReceive x h l) s = .next (u.takeNotice x l) := by
  show execNoticeReceive x h l s = _
  cases x with
  | port p =>
    rw [State.heardFrom] at hheard
    simp only [execNoticeReceive, hheard, Bool.and_self, if_true]
  | uplink k =>
    obtain ⟨hu, hok⟩ := Prod.mk.inj hheard
    rw [Bool.and_assoc] at hok
    simp only [execNoticeReceive, hok, if_true, hu]

/-! ### Sync words (R367 to R370) -/

/-- While no map is waited for, a sync word does what it does to the beat unit alone. -/
theorem State.hearSync_of_noWait {s : State} {i : Nat} {l : Line32} {rx : Nat} (h : (s.syncWord i l rx).fab.carWait = none) :
    s.hearSync i l rx = s.syncWord i l rx := by
  simp only [State.hearSync, h, Option.isSome_none, Bool.false_eq_true, if_false]

theorem State.syncWord_otherPeriod {s : State} {i : Nat} {l : Line32} {rx : Nat} (hst : s.fab.beat.st ≠ .off)
    (hcfg : fld l 17 4 0 ≠ s.field .beatCfg [] 4 0) : s.syncWord i l rx = s.count .syncPeriod 0 1 := by
  simp only [State.syncWord, hst, bne_iff_ne.mpr hcfg, if_false, if_true]

/-- The neighbour as a word of it leaves it, its streak not yet counted. -/
def Peer.heard (o : Peer) (l : Line32) (rx now : Nat) : Peer :=
  { o with
    seen := true, beat := fld l 0 63 0, atBeat := now, stratum := fld l 16 3 0, parent := fld l 28 16 0, root := fld l 20 16 0
    mapGen := fld l 18 15 0, qDelta := fld l 24 15 0, qMapGen := fld l 26 15 0, rx16 := some rx
    theta := (syncTheta o l rx).getD o.theta }

/-- The words in a row of one candidate, with this one (R369). -/
def State.streakOf (s : State) (o : Peer) (l : Line32) (rx : Nat) : Nat :=
  if !s.candidate (o.heard l rx s.beat) then 0
  else if o.seen && decide (0 < o.streak) && fld l 0 63 0 == o.beat + 1 &&
      (match syncTheta o l rx with | none => false | some t => decide (t.natAbs ≤ 4000)) then o.streak + 1 else 1

/-- The state with a neighbour's word noted. -/
def State.noteWord (s : State) (i : Nat) (l : Line32) (rx : Nat) : State :=
  s.setBeat (s.fab.beat.setPeer i
    { (s.fab.beat.peer i).heard l rx s.beat with streak := s.streakOf (s.fab.beat.peer i) l rx })

theorem State.syncWord_eq {s : State} {i : Nat} {l : Line32} {rx : Nat} (hst : s.fab.beat.st ≠ .off)
    (hcfg : fld l 17 4 0 = s.field .beatCfg [] 4 0) : s.syncWord i l rx =
      if (s.fab.beat.st = .seek && decide (4 ≤ s.streakOf (s.fab.beat.peer i) l rx)) = true
      then (s.noteWord i l rx).lockTo i
        { (s.fab.beat.peer i).heard l rx s.beat with streak := s.streakOf (s.fab.beat.peer i) l rx } l
      else if (s.fab.beat.st = .locked && s.fab.beat.parent == i) = true
      then (s.noteWord i l rx).followParent
        { (s.fab.beat.peer i).heard l rx s.beat with streak := s.streakOf (s.fab.beat.peer i) l rx }
        (syncTheta (s.fab.beat.peer i) l rx)
      else s.noteWord i l rx := by
  have hcfg' : (fld l 17 4 0 != s.field .beatCfg [] 4 0) = false := by simpa using hcfg
  unfold State.syncWord
  extract_lets b o theta beat x near run y s1
  rw [if_neg hst, hcfg']
  rfl

/-- The fourth good word in a row of one candidate (R369). -/
theorem State.streakOf_good {s : State} {o : Peer} {l : Line32} {rx : Nat} {th : Int} (hst : s.fab.beat.st ≠ .locked)
    (hseen : o.seen = true) (hstreak : 3 ≤ o.streak) (hbeat : fld l 0 63 0 = o.beat + 1) (hth : syncTheta o l rx = some th)
    (hnear : th.natAbs ≤ 4000) (hstratum : fld l 16 3 0 ≤ 13) (hparent : fld l 28 16 0 ≠ s.devId) :
    s.streakOf o l rx = o.streak + 1 := by
  have hcand : s.candidate (o.heard l rx s.beat) = true := by
    simp [State.candidate, Peer.heard, hstratum, hparent, hst]
  simp [State.streakOf, hcand, hseen, hbeat, hth, hnear, show 0 < o.streak by omega]

/-- The beat unit locked to a neighbour by a word of it. -/
theorem State.lockTo_spec {s : State} {i : Nat} {x : Peer} {l : Line32} (hmap : x.mapGen = s.mapGen)
    (hq : fld l 24 15 0 = 0) :
    (s.lockTo i x l).fab.beat = { s.fab.beat with
      st := .locked, stratum := x.stratum + 1, parent := i, theta := x.theta, rootId := x.root, next := some (x.beat + 1)
      silent := 0, lossDue := none } ∧
    (s.lockTo i x l).fab.ports = s.fab.ports ∧ (s.lockTo i x l).fab.carWait = none := by
  let u := s.setBeatSt .locked (x.beat + 1)
  have hu : u.fab = { s.fab with beat := { s.fab.beat with st := .locked } } := by
    show (s.setBeatSt .locked (x.beat + 1)).fab = _
    unfold State.setBeatSt
    extract_lets b
    split
    next h => rw [← h]
    · exact (State.event_only (.refl _ _) (Nat.or_self _)).fab.eq (by decide)
  let v := u.setBeat { u.fab.beat with
    stratum := x.stratum + 1, parent := i, theta := x.theta, rootId := x.root, next := some (x.beat + 1), silent := 0
    lossDue := none }
  have hgen : v.mapGen = x.mapGen := by
    rw [hmap]
    show (u.fab.carMap.map (fun m => m.gen)).getD 0 = _
    rw [hu]
    rfl
  have hlock : s.lockTo i x l = { v with fab := { v.fab with carWait := none } } := by
    show (if fld l 24 15 0 = 0 then v.takeMapGen x.mapGen else _) = _
    rw [if_pos hq, State.takeMapGen, if_pos hgen]
  rw [hlock]
  refine ⟨?_, ?_, rfl⟩
  · show { u.fab.beat with
      stratum := x.stratum + 1, parent := i, theta := x.theta, rootId := x.root, next := some (x.beat + 1), silent := 0
      lossDue := none } = _
    rw [hu]
  · show u.fab.ports = _
    rw [hu]

/-! ### Notices (R374, R375) -/

theorem State.takeNotice_known {s : State} {x : Neighbour} {l : Line32}
    (h : s.fab.seen.any (fun e => e.1 == fld l 4 16 0 && e.2.1 == fld l 2 15 0 && e.2.2 != 0) = true) :
    s.takeNotice x l = s.count .noteRx 0 1 := by
  show (if (s.fab.seen.any _) = true then _ else _) = _
  exact if_pos h

/-- The state with a new notice counted, remembered and acted on. -/
def State.noticed (s : State) (l : Line32) : State :=
  ((s.count .noteRx 0 1).rememberPair (fld l 4 16 0) (fld l 2 15 0)).actNotice (Notice.of l)

theorem State.takeNotice_new {s : State} {x : Neighbour} {l : Line32}
    (h : s.fab.seen.any (fun e => e.1 == fld l 4 16 0 && e.2.1 == fld l 2 15 0 && e.2.2 != 0) = false) :
    s.takeNotice x l = (s.noticed l).forwardNotice (Notice.of l) (some x) := by
  show (if (s.fab.seen.any _) = true then _ else _) = _
  exact if_neg fun hk => Bool.false_ne_true (h.symm.trans hk)

theorem State.noticed_only (s : State) (l : Line32) : OnlyM (mask [.fabSeen, .catCounters, .fabBeat, .fabLinks, .fabPlanes,
    .fabPendNotices, .fabQuiesces, .fabMacSend]) s (s.noticed l) :=
  State.actNotice_only (State.rememberPair_only (State.count_only (.refl _ s) (by decide)) (by decide)) (by decide)

/-- A control packet sent on each of several ports: the others stay, and what a port that may send sends is among what goes out. -/
theorem State.sendControls_sent {type : Nat} {line : Line32} (htype : type < 16) (hc : type ≠ tyData) {ps : List Nat}
    (hps : ps.Nodup) {dst : State → Nat → Nat} {s : State} {p : Nat} (hmem : p ∈ ps) (hp : p < 24) (hqueue : (s.port p).queue = [])
    (hcredit : 2 ≤ (s.port p).credits.getD 0 0) (hretry : (s.port p).retry.length < 2048)
    (hheld : (s.port p).heldBytes + 52 ≤ 131072) :
    ∃ y, .packet p y (lineBytes line) ∈ (ps.foldl (fun s q => s.sendControl q type (dst s q) line) s).out := by
  induction ps generalizing s with
  | nil => nomatch hmem
  | cons q ps ih =>
    obtain ⟨hq, hps⟩ := List.nodup_cons.mp hps
    rw [List.foldl_cons]
    rcases List.mem_cons.mp hmem with rfl | hmem
    · obtain ⟨y, -, hout, -⟩ := State.sendControl_sent hp htype hc hqueue hcredit hretry hheld (dst s p) line
      have hkept : (s.sendControl p type (dst s p) line).KeepsOut
          (ps.foldl (fun s q => s.sendControl q type (dst s q) line) (s.sendControl p type (dst s p) line)) :=
        .foldl (fun u z => u.sendControl_keepsOut ..) ps _
      refine ⟨y, hkept.subset ?_⟩
      rw [hout]
      exact List.mem_append_right _ List.mem_cons_self
    · have hport : (s.sendControl q type (dst s q) line).port p = s.port p :=
        State.portSend_port_ne _ _ _ fun h => hq (h ▸ hmem)
      exact ih hps hmem (by rwa [hport]) (by rwa [hport]) (by rwa [hport]) (by rwa [hport])

theorem State.noticed_seen (s : State) (l : Line32) : (fld l 4 16 0, fld l 2 15 0, 64) ∈ (s.noticed l).fab.seen := by
  let u := (s.count .noteRx 0 1).rememberPair (fld l 4 16 0) (fld l 2 15 0)
  have hact : (s.noticed l).fab.seen = u.fab.seen :=
    (State.actNotice_only (.refl _ u) (Nat.or_self _)).fab.seen.resolve_left (by decide)
  have hseen : ∃ old, u.fab.seen = old ++ [(fld l 4 16 0, fld l 2 15 0, 64)] := by
    unfold u State.rememberPair
    extract_lets live full old
    exact ⟨old, (State.countIf_only (.refl _ _) (Nat.or_self _)).fab.seen.resolve_left (by decide)⟩
  obtain ⟨old, hseen⟩ := hseen
  rw [hact, hseen]
  exact List.mem_append_right _ List.mem_cons_self

/-- What has been counted and remembered before a notice is acted on leaves links and planes. -/
theorem State.remembered_fab (s : State) (l : Line32) :
    ((s.count .noteRx 0 1).rememberPair (fld l 4 16 0) (fld l 2 15 0)).fab.planes = s.fab.planes ∧
    ((s.count .noteRx 0 1).rememberPair (fld l 4 16 0) (fld l 2 15 0)).fab.links = s.fab.links ∧
    ((s.count .noteRx 0 1).rememberPair (fld l 4 16 0) (fld l 2 15 0)).devId = s.devId := by
  have h : OnlyM (mask [.fabSeen, .catCounters]) s ((s.count .noteRx 0 1).rememberPair (fld l 4 16 0) (fld l 2 15 0)) :=
    State.rememberPair_only (State.count_only (.refl _ s) (by decide)) (by decide)
  exact ⟨h.fab.planes.resolve_left (by decide), h.fab.links.resolve_left (by decide),
    State.devId_congr (h.regs.resolve_left (by decide))⟩

/-- A LINK_DOWN of this cabinet takes its link out of the table (R375). -/
theorem State.noticed_down {s : State} {l : Line32} (hkind : fld l 0 3 0 = noteDown) (hcab : cabOf (fld l 4 16 0) = cabOf s.devId)
    (hport : fld l 16 4 0 < 24) :
    Tbl.look (s.noticed l).fab.links (linkKey (slotOf (fld l 4 16 0)) (fld l 16 4 0)) false = false ∧
    (s.noticed l).fab.planes = s.fab.planes := by
  let u := (s.count .noteRx 0 1).rememberPair (fld l 4 16 0) (fld l 2 15 0)
  obtain ⟨hplanes, -, hid⟩ := s.remembered_fab l
  have hact : s.noticed l = { u with fab := { u.fab with
      links := u.fab.links.erase (linkKey (slotOf (fld l 4 16 0)) (fld l 16 4 0)) } } := by
    show u.actNotice (Notice.of l) = _
    simp [State.actNotice, Notice.of, hkind, hid, hcab, hport, u]
  rw [hact]
  exact ⟨by simp [Tbl.look, Tbl.find_erase_self], hplanes⟩

/-- A PLANES notice takes the planes it does not name from its origin at once (R375). -/
theorem State.noticed_planes {s : State} {l : Line32} (hkind : fld l 0 3 0 = notePlanes) :
    s.noticed l = (State.setPlanes ((s.count .noteRx 0 1).rememberPair (fld l 4 16 0) (fld l 2 15 0)) (fld l 4 16 0)
      (Tbl.look s.fab.planes (fld l 4 16 0) 0 &&& BitVec.ofNat 8 (fld l 17 7 0))).noticeLater (Notice.of l) := by
  obtain ⟨hplanes, -, -⟩ := s.remembered_fab l
  rw [← hplanes]
  simp [State.noticed, State.actNotice, Notice.of, hkind, noteDown, noteReturn, notePlanes]

theorem State.setPlanes_planes (s : State) (dev : Nat) (m : BitVec 8) : Tbl.look (s.setPlanes dev m).fab.planes dev 0 = m :=
  Tbl.look_put_self ..

theorem State.noticed_planes_later {s : State} {l : Line32} (hkind : fld l 0 3 0 = notePlanes) (heffect : fld l 8 63 0 ≠ 0) :
    Tbl.look (s.noticed l).fab.planes (fld l 4 16 0) 0 =
      Tbl.look s.fab.planes (fld l 4 16 0) 0 &&& BitVec.ofNat 8 (fld l 17 7 0) ∧ (s.noticed l).fab.links = s.fab.links := by
  obtain ⟨-, hlinks, -⟩ := s.remembered_fab l
  rw [State.noticed_planes hkind, State.noticeLater]
  simp only [Notice.of, heffect, if_false]
  exact ⟨State.setPlanes_planes .., hlinks⟩

theorem State.noticed_planes_now {s : State} {l : Line32} (hkind : fld l 0 3 0 = notePlanes) (heffect : fld l 8 63 0 = 0) :
    Tbl.look (s.noticed l).fab.planes (fld l 4 16 0) 0 = BitVec.ofNat 8 (fld l 17 7 0) := by
  rw [State.noticed_planes hkind, State.noticeLater]
  simp only [Notice.of, heffect, hkind, if_true, State.noticeEffect, notePlanes, noteReturn]
  refine (State.setPlanes_planes ..).trans ?_
  rw [State.setPlanes_planes]
  ext i hi
  simp only [BitVec.getElem_or, BitVec.getElem_and]
  cases (BitVec.ofNat 8 (fld l 17 7 0))[i] <;> simp

/-- A new notice goes out on every live cabinet port but the one it came by. -/
theorem State.takeNotice_sends {s : State} {x : Neighbour} {l : Line32} {p : Nat}
    (hnew : s.fab.seen.any (fun e => e.1 == fld l 4 16 0 && e.2.1 == fld l 2 15 0 && e.2.2 != 0) = false) (hp : p < 24)
    (hx : x ≠ .port (Fin.ofNat 24 p)) (hst : (s.port p).st = .standby ∨ (s.port p).st = .up) (hqueue : (s.port p).queue = [])
    (hcredit : 2 ≤ (s.port p).credits.getD 0 0) (hretry : (s.port p).retry.length < 2048)
    (hheld : (s.port p).heldBytes + 52 ≤ 131072) :
    ∃ y, .packet p y (lineBytes (Notice.of l).line) ∈ (s.takeNotice x l).out := by
  have hport : (s.noticed l).port p = s.port p := State.port_congr ((s.noticed_only l).fab.ports.resolve_left (by decide)) p
  have hlive : ((s.noticed l).port p).st.live = true := by
    rw [hport]
    rcases hst with h | h <;> rw [h] <;> rfl
  have hmem : p ∈ (List.range 24).filter
      (fun p => ((s.noticed l).port p).st.live && some x != some (.port (Fin.ofNat 24 p))) := by
    rw [List.mem_filter, List.mem_range, hlive]
    exact ⟨hp, by simpa using hx⟩
  obtain ⟨y, hy⟩ := State.sendControls_sent (type := tyNotice) (line := (Notice.of l).line) (by decide) (by decide)
    (List.nodup_range.filter _) (dst := State.wiredId) hmem hp (by rwa [hport]) (by rwa [hport]) (by rwa [hport])
    (by rwa [hport])
  rw [State.takeNotice_new hnew]
  refine ⟨y, List.IsPrefix.subset (State.KeepsOut.foldl (fun u z => u.sendControl_keepsOut ..) _ _) hy⟩

/-- Settles O49: each sync word by the state of the unit it finds, and each notice by whether its pair is known. -/
theorem syncAndNotices : Obligations.SyncAndNotices := by
  refine ⟨fun x h l rx s u hheard hst hcfg hwait => ?_, fun x h l rx s u th hheard hst hcfg hseen hstreak hbeat hth hnear
      hstratum hparent hgen hq => ?_, fun x h l rx s u th hheard hst hpar hcfg hth hnext hbeat hroot hwait => ?_,
    fun x h l s u hheard hknown => ?_, fun x h l s u hheard hnew => ?_, fun s => ⟨_, rfl, fun e => ?_, rfl⟩⟩
  · have hword : u.syncWord (neighbourIdx x) l rx = u.count .syncPeriod 0 1 := State.syncWord_otherPeriod hst hcfg
    have hhear : u.hearSync (neighbourIdx x) l rx = u.count .syncPeriod 0 1 :=
      (State.hearSync_of_noWait (by rw [hword]; exact hwait)).trans hword
    refine ⟨_, (exec_syncReceive hheard).trans (congrArg _ hhear), rfl, State.count_counter ..⟩
  · have hrun := State.streakOf_good (s := u) (rx := rx) (by rw [hst]; decide) hseen hstreak hbeat hth hnear hstratum hparent
    have hword := State.syncWord_eq (i := neighbourIdx x) (rx := rx) (by rw [hst]; decide) hcfg
    rw [hrun, hst, if_pos (by simpa using hstreak)] at hword
    obtain ⟨hunit, hports, hwait⟩ := State.lockTo_spec (s := u.noteWord (neighbourIdx x) l rx) (i := neighbourIdx x)
      (x := { (u.fab.beat.peer (neighbourIdx x)).heard l rx u.beat with
        streak := (u.fab.beat.peer (neighbourIdx x)).streak + 1 }) hgen hq
    have hhear := State.hearSync_of_noWait (s := u) (i := neighbourIdx x) (l := l) (rx := rx) (by rw [hword]; exact hwait)
    rw [hword] at hhear
    refine ⟨_, (exec_syncReceive hheard).trans (congrArg _ hhear), ?_⟩
    rw [hunit, hports]
    exact ⟨rfl, rfl, rfl, rfl, rfl, rfl, rfl⟩
  · have hword := State.syncWord_eq (i := neighbourIdx x) (rx := rx) (by rw [hst]; decide) hcfg
    rw [hst, if_neg (by simp), hpar, if_pos (by simp), hth] at hword
    have hhear := State.hearSync_of_noWait (s := u) (i := neighbourIdx x) (l := l) (rx := rx) (by rw [hword]; exact hwait)
    rw [hword] at hhear
    refine ⟨_, (exec_syncReceive hheard).trans (congrArg _ hhear), hst, rfl, rfl, rfl, ?_, rfl⟩
    have hloss : (if 1600 < th.natAbs then some .theta
        else if (u.fab.beat.next.isNone && fld l 0 63 0 != u.fab.beat.cnt) = true then some .beatDiffers
        else if (fld l 20 16 0 != u.fab.beat.rootId) = true then some .rootChanges
        else u.fab.beat.lossDue) = if 1600 < th.natAbs then some BeatLossCause.theta else u.fab.beat.lossDue := by
      simp [hbeat, hroot]
    exact hloss
  · refine ⟨_, (exec_noticeReceive hheard).trans (congrArg _ (State.takeNotice_known hknown)), rfl, rfl, State.count_counter ..⟩
  · have hforward := State.forwardNotice_only (a1 := Notice.of l) (a2 := some x) (.refl _ (u.noticed l)) (Nat.or_self _)
    have hlinks : ((u.noticed l).forwardNotice (Notice.of l) (some x)).fab.links = (u.noticed l).fab.links :=
      hforward.fab.links.resolve_left (by decide)
    have hplanes : ((u.noticed l).forwardNotice (Notice.of l) (some x)).fab.planes = (u.noticed l).fab.planes :=
      hforward.fab.planes.resolve_left (by decide)
    have hseen : ((u.noticed l).forwardNotice (Notice.of l) (some x)).fab.seen = (u.noticed l).fab.seen :=
      hforward.fab.seen.resolve_left (by decide)
    have hexec := exec_noticeReceive hheard
    rw [State.takeNotice_new hnew] at hexec
    refine ⟨_, hexec, ?_, fun p hp hx hst hqueue hcredit hretry hheld => ?_, fun hkind hcab hport => ?_,
      fun hkind heffect => ?_, fun hkind heffect => ?_⟩
    · rw [hseen]
      exact u.noticed_seen l
    · rw [← State.takeNotice_new hnew]
      exact State.takeNotice_sends hnew hp hx hst hqueue hcredit hretry hheld
    · rw [hlinks, hplanes]
      exact State.noticed_down hkind hcab hport
    · rw [hlinks, hplanes]
      exact State.noticed_planes_later hkind heffect
    · rw [hplanes]
      exact State.noticed_planes_now hkind heffect
  · show e ∈ s.fab.seen.filter (fun e => e.2.2 != 0) ↔ _
    rw [List.mem_filter, bne_iff_ne]

end Sys2Proof.Machine

end

section
namespace Sys2Proof.Machine

/-! ### An operation number that a running operation still has (R394, R395) -/

/-- The descriptor of a move of 64 bytes between window 0 of device 1 and this device. -/
def getDesc : Line64 := BitVec.ofNat 512 (4 * 2 ^ 64 + 1 * 2 ^ 192 + 64 * 2 ^ 320)

/-- A WIN_GET running under operation number 5, which has sent no request yet. -/
def getUnderFive : DmaOp :=
  { op := { id := 5, org := .ring 0 0, opcode := opWinGet, d := getDesc, gal := 0, cls := 1, beat := 0 }
    chan := some 1, issued := true, begun := true, opid := 7 }

/-- The device in RUN and the root of its beat, port 0 UP, with the WIN_GET of number 5 running: and 5 is the number that
the next operation it takes in will bear. -/
def getUnderNextNumber : State :=
  { ctl := { st := .run, bootStep := 5 }
    sec := { st := .run, seeded := true }
    regs := [(0x2000, 1), (0x100000, 1), (0x200000, 1), (0x400000, 1), (0x600014, 1), (0x1000000, 1)]
    nextOp := 5
    dma := { ops := [getUnderFive] }
    fab := { ports := [(0, { st := .up })], beat := { st := .root, cnt := 10, stratum := 0, started := true } } }

theorem getUnderNextNumber_accepts_winPut : getUnderNextNumber.Accepts (.ring 63 0) getDesc opWinPut winMoveChecks := by
  refine ⟨?_, ?_⟩ <;> decide +kernel

/-- How many packets and frames have gone out in an outcome that goes on. -/
def framesOut : Host.Outcome State Fault Refusal → Option Nat
  | .next t => some t.out.length
  | _ => none

theorem framesOut_getUnderNextNumber : framesOut (exec (.winPut (.ring 63 0) getDesc) getUnderNextNumber) = some 1 := by
  decide +kernel

/-- Refutes O46: the number a new operation bears is `nextOp`, and where a running WIN_GET bears it already, taking in a
WIN_PUT under it lets that WIN_GET send its request: the frames out are not those of before. -/
theorem not_windowsWork : ¬ Obligations.WindowsWork := by
  unfold Obligations.WindowsWork
  rintro ⟨-, -, -, hmove, -⟩
  obtain ⟨t, ht, hout, -⟩ := hmove (.ring 63 0) getDesc getUnderNextNumber .winPut opWinPut (.inl ⟨rfl, rfl⟩)
    getUnderNextNumber_accepts_winPut
  have hsent := framesOut_getUnderNextNumber
  rw [ht, framesOut, hout (.inl rfl)] at hsent
  exact absurd hsent (by decide)

end Sys2Proof.Machine

end

section
namespace Sys2Proof.Machine

/-! ### Two counters at one place (R371, R384, R454) -/

/-- A group of two ranks, of which the device is rank 0. -/
def pairOf (group : Nat) : CarGroup := { group := group, g := 2, rank := 0, rarea := 0, rcap := 1024, members := [0, 1] }

/-- How far apart the places of CAR_MISSED and BEAT_LOSS lie in the table of counters, in numbers they are kept under. -/
def missedToLoss : Nat := (Ctr.beatLoss.index - Ctr.carMissed.index) * 65536

/-- A carousel map in which group 5 stands behind so many entries of group 0. -/
def crowdedMap : CarMap :=
  { gen := 1, slots := [], groups := List.replicate missedToLoss (pairOf 0) ++ [pairOf 5], image := [] }

/-- A COLL of group 5 and beat 5, with nothing of rank 1 landed. -/
def lonelyColl : CollRec :=
  { op := { id := 5, org := .ring 0 0, opcode := opColl, d := 0, gal := 0, cls := 1, beat := 0 }, group := pairOf 5, beat := 5 }

/-- A LOCKED device of that map that is due to lose the beat, with the COLL under way. -/
def lossBesideColl : State :=
  { ctl := { st := .run, bootStep := 5 }
    sec := { st := .run, seeded := true }
    fab := { beat := { st := .locked, cnt := 5, lossDue := some .noCandidate, started := true }
             carMap := some crowdedMap, colls := [lonelyColl] } }

/-- A device that has lost the beat, before its operations end (R371). -/
def State.adrift (s : State) (cause : BeatLossCause) : State :=
  let s1 := s.setBeatSt .seek s.beat
  let s2 := s1.setBeat { s1.fab.beat with
    stratum := 15, parent := 63, next := none, lossDue := none, silent := 0
    peers := s.fab.beat.peers.map (fun e => (e.1, { e.2 with streak := 0, better := 0 })) }
  (s2.count .beatLoss 0 1).incident clsLink 0x32 .ok (srcHub hubBeat) (s.beat % 2 ^ 64) (lossCode cause)

theorem exec_beatLoss {s : State} {cause : BeatLossCause} (halive : s.alive = true) (hst : s.fab.beat.st = .locked)
    (hdue : s.fab.beat.lossDue = some cause) :
    exec (.beatLoss cause) s = .next ((((s.adrift cause).windowsLost).collsLost).voidSteps [voidBeat]) := by
  show execBeatLoss cause s = _
  simp only [execBeatLoss, halive, hst, hdue, beq_self_eq_true, Bool.and_self, if_true]
  rfl

/-- In the crowded map, group 5 stands at the place that makes CAR_MISSED's counter the one of BEAT_LOSS. -/
theorem groupIdx_of_crowdedMap {s : State} (hmap : s.fab.carMap = some crowdedMap) : s.groupIdx 5 = missedToLoss := by
  have hfive (x : CarGroup) (hx : x ∈ List.replicate missedToLoss (pairOf 0)) : (x.group == 5) = false := by
    rw [List.eq_of_mem_replicate hx]
    rfl
  have hhere : crowdedMap.groups.findIdx (fun x => x.group == 5) = missedToLoss := by
    have hpast : (List.replicate missedToLoss (pairOf 0)).findIdx (fun x => x.group == 5) = missedToLoss :=
      (List.findIdx_eq_length_of_false hfive).trans List.length_replicate
    rw [crowdedMap, List.findIdx_append, hpast, List.length_replicate, if_neg (lt_irrefl _)]
    exact Nat.zero_add _
  have hany : crowdedMap.groups.any (fun x => x.group == 5) = true :=
    List.any_eq_true.mpr ⟨pairOf 5, List.mem_append_right _ (List.mem_singleton_self _), rfl⟩
  rw [State.groupIdx, hmap]
  exact (if_pos hany).trans hhere

theorem windowsLost_of_none {s : State} (hops : s.dma.ops = []) : s.windowsLost = s := by
  rw [State.windowsLost, hops]
  rfl

theorem collsLost_of_one {s : State} {c : CollRec} (hcolls : s.fab.colls = [c]) : s.collsLost = s.collEnd c true := by
  rw [State.collsLost, hcolls]
  rfl

theorem counter_voidSteps (s : State) (cs : List Nat) (c : Ctr) (i j : Nat) :
    (s.voidSteps cs).counter c i j = s.counter c i j := rfl

theorem counter_collEnd_adrift :
    ((lossBesideColl.adrift .noCandidate).collEnd lonelyColl true).counter .beatLoss 0 0 = 2 := by
  have hidx : (lossBesideColl.adrift .noCandidate).groupIdx lonelyColl.group.group = missedToLoss :=
    groupIdx_of_crowdedMap rfl
  rw [State.collEnd]
  simp only [hidx]
  decide +kernel

/-- Refutes O47: a counter's place in the table is that of its name plus the number it is kept under, and CAR_MISSED is kept
under the group's place in the map in force. In a map of that many groups, the missing rank of a COLL that the loss ends is
counted where BEAT_LOSS is, which comes to 2 where the statement says 1. -/
theorem not_carouselTurns : ¬ Obligations.CarouselTurns := by
  unfold Obligations.CarouselTurns
  rintro ⟨-, -, -, -, -, -, -, -, hloss⟩
  obtain ⟨t, ht, -, -, -, -, -, -, -, hcount⟩ := hloss .noCandidate lossBesideColl (by decide +kernel) rfl rfl
  have htwo : t.counter .beatLoss 0 0 = 2 := by
    rw [exec_beatLoss (by decide +kernel) rfl rfl, windowsLost_of_none rfl, collsLost_of_one (c := lonelyColl) rfl] at ht
    rw [← Host.Outcome.next.inj ht, counter_voidSteps]
    exact counter_collEnd_adrift
  have hnone : lossBesideColl.counter .beatLoss 0 0 = 0 := rfl
  rw [htwo, hnone] at hcount
  exact absurd hcount (by decide)

end Sys2Proof.Machine

end

section
namespace Sys2Proof.Machine

/-! ### What keeps the beat unit running as it runs (R369, R376) -/

/-- The beat unit is in the same state, started or not as before. -/
def State.SameUnit (s t : State) : Prop := t.fab.beat.st = s.fab.beat.st ∧ t.fab.beat.started = s.fab.beat.started

theorem State.SameUnit.refl (s : State) : s.SameUnit s := ⟨Eq.refl _, Eq.refl _⟩

theorem State.SameUnit.trans {s t u : State} (h : s.SameUnit t) (k : t.SameUnit u) : s.SameUnit u :=
  ⟨k.1.trans h.1, k.2.trans h.2⟩

theorem State.SameUnit.beatOff {s t : State} (h : s.SameUnit t) : t.beatOff = s.beatOff := by
  rw [State.beatOff, State.beatOff, h.1]

theorem State.SameUnit.foldl {α : Type} {f : State → α → State} (h : ∀ (u : State) x, u.SameUnit (f u x)) (l : List α)
    (s : State) : s.SameUnit (l.foldl f s) := by
  induction l generalizing s with
  | nil => exact .refl s
  | cons x l ih => exact (h s x).trans (ih _)

theorem OnlyM.sameUnit {m : Nat} {s t : State} (h : OnlyM m s t) (e : m.testBit Leaf.fabBeat.ctorIdx = false) :
    s.SameUnit t := by
  have hbeat := h.fab.beat.resolve_left fun k => Bool.false_ne_true (e.symm.trans k)
  exact ⟨congrArg BeatUnit.st hbeat, congrArg BeatUnit.started hbeat⟩

/-- A quiesce learnt of too late costs the lock at the next boundary, not at once (R376). -/
theorem State.learnQuiesce_sameUnit (s : State) (q g : Nat) : s.SameUnit (s.learnQuiesce q g) := by
  unfold State.learnQuiesce
  split
  · exact .refl s
  · exact (State.addQuiesce_only (.refl _ s) (Nat.or_self _)).sameUnit (by decide)

theorem State.actNotice_sameUnit (s : State) (n : Notice) : s.SameUnit (s.actNotice n) := by
  have hlater (u : State) : u.SameUnit (u.noticeLater n) :=
    (State.noticeLater_only (.refl _ u) (Nat.or_self _)).sameUnit (by decide)
  have hplanes := (State.setPlanes_only (.refl _ s) (Nat.or_self _) (a1 := n.origin)
    (a2 := Tbl.look s.fab.planes n.origin 0 &&& BitVec.ofNat 8 n.planes)).sameUnit (by decide)
  unfold State.actNotice
  extract_lets near
  split
  · split <;> exact .refl s
  split
  · split
    · exact hlater s
    · exact .refl s
  split
  · exact hplanes.trans (hlater _)
  split
  · exact s.learnQuiesce_sameUnit ..
  split
  · exact hlater s
  · exact .refl s

theorem State.raiseNotice_sameUnit (s : State) (kind effect port planes gen : Nat) :
    s.SameUnit (s.raiseNotice kind effect port planes gen) := by
  unfold State.raiseNotice
  extract_lets n _ s1
  have hseen : s.SameUnit (s1.rememberPair n.origin n.serial) :=
    State.SameUnit.trans ⟨rfl, rfl⟩ ((State.rememberPair_only (.refl _ s1) (Nat.or_self _)).sameUnit (by decide))
  exact (hseen.trans (State.actNotice_sameUnit ..)).trans
    ((State.forwardNotice_only (.refl _ _) (Nat.or_self _)).sameUnit (by decide))

/-! ### Ports that stop, and what a boundary does with the unit (R351, R366, R368, R375) -/

theorem State.leaveUp_sameUnit (s : State) (p : Nat) (dest : PortSt) : s.SameUnit (s.leaveUp p dest) := by
  unfold State.leaveUp
  extract_lets x s1 s2 m
  have hidle : s.SameUnit (s.setPort p { x with retry := [], queue := [], returning := none, downFor := 0 }) := ⟨rfl, rfl⟩
  have hleft : s.SameUnit s1 := (hidle.trans ((State.setPortSt_only (.refl _ _) (Nat.or_self _)).sameUnit (by decide))).trans
    ((State.rerouted_only (.refl _ _) (Nat.or_self _)).sameUnit (by decide))
  have hrouted : s1.SameUnit s2 :=
    .foldl (fun u q => (State.reroute_only (.refl _ u) (Nat.or_self _)).sameUnit (by decide)) _ s1
  have hown (m : BitVec 8) : s2.SameUnit { s2 with fab := { s2.fab with announced := m } } := ⟨rfl, rfl⟩
  split
  · exact (hleft.trans hrouted).trans (State.raiseNotice_sameUnit ..)
  · exact ((hleft.trans hrouted).trans (hown _)).trans (State.raiseNotice_sameUnit ..)

theorem State.portTo_sameUnit (s : State) (p : Nat) (dest : PortSt) : s.SameUnit (s.portTo p dest) := by
  unfold State.portTo
  split
  · exact s.leaveUp_sameUnit p dest
  · exact State.SameUnit.trans ⟨rfl, rfl⟩ ((State.setPortSt_only (.refl _ _) (Nat.or_self _)).sameUnit (by decide))

theorem State.portsStop_sameUnit (s : State) : s.SameUnit s.portsStop :=
  .foldl (fun u p => u.portTo_sameUnit p .disabled) _ s

theorem State.announce_sameUnit (s : State) : s.SameUnit s.announce := by
  have hport (u : State) (p : Nat) (x : Port) : u.SameUnit (u.setPort p x) := ⟨rfl, rfl⟩
  have hown (u : State) (m : BitVec 8) : u.SameUnit { u with fab := { u.fab with announced := m } } := ⟨rfl, rfl⟩
  unfold State.announce
  split
  · exact .refl s
  · extract_lets e s1 s2 m
    have h1 : s.SameUnit s1 := .foldl (fun u p => by
      dsimp only
      split
      · exact (hport u ..).trans (State.raiseNotice_sameUnit ..)
      · exact .refl u) _ s
    have h2 : s1.SameUnit s2 := .foldl (fun u k => by
      dsimp only
      split
      · exact hport u ..
      · exact .refl u) _ s1
    split
    · exact h1.trans h2
    · exact ((h1.trans h2).trans (hown s2 _)).trans (State.raiseNotice_sameUnit ..)

/-- A new parent changes where the unit steers; a lock it loses is lost only once the loss is due (R368, R369). -/
theorem State.chooseParent_sameUnit (s : State) : s.SameUnit s.chooseParent := by
  unfold State.chooseParent
  extract_lets
  split
  · exact .refl s
  split
  all_goals split <;> exact ⟨rfl, rfl⟩

theorem State.sendSyncs_sameUnit (s : State) : s.SameUnit s.sendSyncs := by
  have hsent (u : State) (i : Nat) (y : Peer) : u.SameUnit ((u.draw 1).setBeat (u.fab.beat.setPeer i y)) := ⟨rfl, rfl⟩
  unfold State.sendSyncs
  exact .foldl (fun u x => (hsent u _ _).trans ((State.sendControl_only (.refl _ _) (Nat.or_self _)).sameUnit (by decide))) _ s

/-! ### What accepting descriptors leaves of the fabric -/

/-- The beat unit runs as it did, and every port stands in the state it stood in. -/
structure State.Steady (s t : State) : Prop where
  unit : s.SameUnit t
  ports : s.KeepsPorts t

theorem State.Steady.refl (s : State) : s.Steady s := ⟨.refl s, .refl s⟩

theorem State.Steady.of_fab {s t : State} (h : t.fab = s.fab) : s.Steady t :=
  ⟨⟨congrArg (fun f => f.beat.st) h, congrArg (fun f => f.beat.started) h⟩, .of_eq (congrArg Fabric.ports h)⟩

theorem State.Steady.trans {s t u : State} (h : s.Steady t) (k : t.Steady u) : s.Steady u :=
  ⟨h.unit.trans k.unit, h.ports.trans k.ports⟩

theorem State.Steady.foldl {α : Type} {f : State → α → State} (h : ∀ (u : State) x, u.Steady (f u x)) (l : List α)
    (s : State) : s.Steady (l.foldl f s) := by
  induction l generalizing s with
  | nil => exact .refl s
  | cons x l ih => exact (h s x).trans (ih _)

/-- A frame with neither the beat unit nor the ports. -/
theorem OnlyM.steady {m : Nat} {s t : State} (h : OnlyM m s t)
    (e : [Leaf.fabBeat, .fabPorts].all (fun p => !m.testBit p.ctorIdx) = true) : s.Steady t := by
  simp only [List.all_cons, List.all_nil, Bool.and_true, Bool.and_eq_true, Bool.not_eq_true'] at e
  obtain ⟨hbeat, hports⟩ := e
  exact ⟨h.sameUnit hbeat, h.keepsPorts hports⟩

theorem State.sendData_steady (s : State) (dst proto flow : Nat) (payload : Bytes) :
    s.Steady (s.sendData dst proto flow payload).1 := by
  refine ⟨(State.sendData_only (.refl _ s) (Nat.or_self _)).fst.sameUnit (by decide), ?_⟩
  unfold State.sendData
  split
  · exact .refl s
  split
  · exact .refl s
  · next q vias detour hway =>
    have hdetour : s.KeepsPorts (s.rerouted .brlDetour 0 (if detour then 1 else 0)) :=
      (State.rerouted_only (.refl _ s) (Nat.or_self _)).keepsPorts (by decide)
    refine hdetour.trans (State.portSend_keepsPorts _ _ ((State.wayTo_up hway).imp_right fun hup => ?_))
    rw [hdetour.st, hup]
    rfl

theorem State.sendRequests_steady (n id : Nat) (s : State) : s.Steady (s.sendRequests id n) := by
  induction n generalizing s with
  | zero => exact .refl s
  | succ n ih =>
    unfold State.sendRequests
    split
    · exact .refl s
    · extract_lets len r beat
      split
      · exact .refl s
      have hsent : s.Steady r.1 := State.sendData_steady ..
      split
      · exact (hsent.trans ((State.updDma_only (.refl _ r.1) (Nat.or_self _)).steady (by decide))).trans (ih _)
      · exact hsent.trans ((State.updDma_only (.refl _ r.1) (Nat.or_self _)).steady (by decide))

theorem State.winMoveStart_steady (s : State) (o : Op) : s.Steady (s.winMoveStart o) := by
  unfold State.winMoveStart
  extract_lets n s1
  have hstarted : s.Steady s1 := ((State.dmaStart_only (.refl _ s) (Nat.or_self _)).steady (by decide)).trans
    ((State.updDma_only (.refl _ _) (Nat.or_self _)).steady (by decide))
  have hcounted : s1.Steady { s1 with dma := { s1.dma with nextOpid := (n + 1) % 65536 } } := .of_fab rfl
  exact (hstarted.trans hcounted).trans (State.sendRequests_steady ..)

theorem State.quiesceStart_steady (s : State) (o : Op) : s.Steady (s.quiesceStart o) := by
  unfold State.quiesceStart
  extract_lets q s1
  have hraised : s.Steady s1 := ⟨State.raiseNotice_sameUnit .., State.raiseNotice_keepsPorts ..⟩
  have hjoined (u : State) (l : List PendQuiesce) : u.Steady { u with fab := { u.fab with quiesces := l } } :=
    ⟨⟨rfl, rfl⟩, .of_eq rfl⟩
  exact hraised.trans (hjoined s1 _)

/-! An image read from a reference copy -/

theorem State.peerRead_steady (s : State) (x : Obj) (ofs n : Nat) : s.Steady (s.peerRead x ofs n) := by
  unfold State.peerRead
  split
  · exact .refl s
  · extract_lets id gen flow _ _ s1
    have hnumbered : s.Steady s1 := .of_fab rfl
    exact hnumbered.trans (State.sendData_steady ..)

theorem State.takeEp_steady (s : State) (gal : Nat) (e : Ep) (chan pos n reader : Nat) (data : Bytes) :
    s.Steady (s.takeEp gal e chan pos n reader data).1 := by
  have hchan (c a : Nat) : s.Steady (s.takeChan gal c a n reader).1 :=
    (State.takeChan_only (.refl _ s) (Nat.or_self _)).fst.steady (by decide)
  have hhall (a : Nat) : s.Steady (s.takeHall a n).1 := (State.takeHall_only (.refl _ s) (Nat.or_self _)).fst.steady (by decide)
  have hhost (u : State) (f : Nat) (what : HostRead) (a l : Nat) : u.Steady (u.hostRead f what a l) :=
    (State.hostRead_only (.refl _ u) (Nat.or_self _)).steady (by decide)
  unfold State.takeEp
  extract_lets a
  split
  · exact hhost ..
  split
  · exact hchan ..
  split
  · exact (State.takeScratch_only (.refl _ s) (Nat.or_self _)).fst.steady (by decide)
  split
  · exact hhall a
  split
  · exact .refl s
  extract_lets u
  split
  · exact hhall _
  · exact hchan ..
  · have hcounted : s.Steady u := (State.countIf_only (.refl _ s) (Nat.or_self _)).steady (by decide)
    refine hcounted.trans ?_
    dsimp only
    split
    · exact State.peerRead_steady ..
    · exact .refl u
    · exact hhost ..

theorem State.takeLong_steady (gal : Nat) (e : Ep) (chan reader fuel : Nat) (s : State) (pos n : Nat) (data : Bytes) :
    s.Steady (s.takeLong gal e chan reader fuel pos n data).1 := by
  induction fuel generalizing s pos n data with
  | zero => exact .refl s
  | succ fuel ih =>
    unfold State.takeLong
    extract_lets step r rest t
    have htaken : s.Steady r.1 := State.takeEp_steady ..
    split
    · exact htaken
    · exact htaken.trans (ih ..)

/-- A read that happens only where it may leaves what the read itself leaves. -/
theorem State.Steady.fst_ite {c : Prop} [Decidable c] {α β : Type} {s : State} {r : State × β} {a b : α}
    (h : s.Steady r.1) : s.Steady (if c then (s, a) else (r.1, b)).1 := by
  split
  · exact .refl s
  · exact h

theorem State.readImage_steady (s : State) (addr : Nat) (outside : Bytes) : s.Steady (s.readImage addr outside).1 := by
  unfold State.readImage
  split
  · exact .refl s
  · exact .fst_ite (State.takeLong_steady ..)

end Sys2Proof.Machine

end

section
namespace Sys2Proof.Machine

/-! ### Descriptors accepted as a hold begins -/

/-- An operation whose effect is steady leaves the fabric steady as its descriptor is taken in, refused or not. -/
theorem State.accept_steady {effect : State → Op → State} (he : ∀ u o, State.Steady u (effect u o)) (s : State) (unit : Nat)
    (o : Origin) (d : Line64) (opcode : Nat) (checks : State → Op → List Bad) :
    s.Steady (s.accept unit o d opcode checks effect) := by
  have htaken : s.Steady (s.taken o d opcode) := (State.take_only (.refl _ s) (Nat.or_self _)).fst.steady (by decide)
  cases hrun : s.running with
  | false => rw [State.accept_of_not_running hrun]; exact .refl s
  | true =>
    cases hjudged : s.judged o d opcode checks with
    | none => rw [State.accept_of_accepts ⟨hrun, hjudged⟩]; exact htaken.trans (he _ _)
    | some v =>
      rw [State.accept_of_refused hrun hjudged]
      exact htaken.trans ((State.complete_only (.refl _ _) (Nat.or_self _)).steady (by decide))

theorem State.acceptProgLoad_steady (s : State) (o : Origin) (d : Line64) (image : Bytes) :
    s.Steady (s.acceptProgLoad o d image) := by
  unfold State.acceptProgLoad
  extract_lets r
  have hread : s.Steady r.1 := by
    unfold r
    split
    · exact State.readImage_steady ..
    · exact .refl s
  exact hread.trans (State.accept_steady (fun u _ => (State.progStart_only (.refl _ u) (Nat.or_self _)).steady (by decide))
    r.1 _ o d _ _)

/-- Of the operations a descriptor brings, QUIESCE, WIN_PUT, WIN_GET and PROG_LOAD alone send packets, and packets sent leave
every port in its state. -/
theorem State.acceptLine_steady (s : State) (o : Origin) (f : Fetched) : ∀ t ∈ s.acceptLine o f, s.Steady t := by
  unfold State.acceptLine
  extract_lets d
  split
  rotate_right
  · exact fun _ h => nomatch h
  all_goals rintro _ ⟨⟩
  · exact (State.acceptNop_only (.refl _ s) (Nat.or_self _)).steady (by decide)
  · exact (State.acceptFence_only (.refl _ s) (Nat.or_self _)).steady (by decide)
  · exact (State.acceptCopy_only (.refl _ s) (Nat.or_self _)).steady (by decide)
  · exact (State.acceptFill_only (.refl _ s) (Nat.or_self _)).steady (by decide)
  · exact (State.acceptCompare_only (.refl _ s) (Nat.or_self _)).steady (by decide)
  · exact (State.acceptGather_only (.refl _ s) (Nat.or_self _)).steady (by decide)
  · exact (State.acceptStrided_only (.refl _ s) (Nat.or_self _)).steady (by decide)
  · exact (State.acceptTranspose_only (.refl _ s) (Nat.or_self _)).steady (by decide)
  · exact (State.acceptT24_only (.refl _ s) (Nat.or_self _)).steady (by decide)
  · exact (State.acceptDmaStop_only (.refl _ s) (Nat.or_self _)).steady (by decide)
  · exact (State.acceptAdmit_only (.refl _ s) (Nat.or_self _)).steady (by decide)
  · exact (State.acceptAppend_only (.refl _ s) (Nat.or_self _)).steady (by decide)
  · exact (State.acceptPolicy_only (.refl _ s) (Nat.or_self _)).steady (by decide)
  · exact (State.acceptFork_only (.refl _ s) (Nat.or_self _)).steady (by decide)
  · exact (State.acceptCancel_only (.refl _ s) (Nat.or_self _)).steady (by decide)
  · exact (State.acceptRelease_only (.refl _ s) (Nat.or_self _)).steady (by decide)
  · exact s.acceptProgLoad_steady o d f.aux
  · exact (State.acceptBind_only (.refl _ s) (Nat.or_self _)).steady (by decide)
  · exact (State.acceptUnbind_only (.refl _ s) (Nat.or_self _)).steady (by decide)
  · exact (State.acceptTile_only (.refl _ s) (Nat.or_self _)).steady (by decide)
  · exact (State.acceptTileBs_only (.refl _ s) (Nat.or_self _)).steady (by decide)
  · exact (State.acceptAttn_only (.refl _ s) (Nat.or_self _)).steady (by decide)
  · exact (State.acceptPageMove_only (.refl _ s) (Nat.or_self _)).steady (by decide)
  · exact (State.acceptObjCreate_only (.refl _ s) (Nat.or_self _)).steady (by decide)
  · exact (State.acceptAccession_only (.refl _ s) (Nat.or_self _)).steady (by decide)
  · exact (State.acceptObjMap_only (.refl _ s) (Nat.or_self _)).steady (by decide)
  · exact (State.acceptObjRelease_only (.refl _ s) (Nat.or_self _)).steady (by decide)
  · exact (State.acceptMigrate_only (.refl _ s) (Nat.or_self _)).steady (by decide)
  · exact (State.acceptObjPin_only (.refl _ s) (Nat.or_self _)).steady (by decide)
  · exact (State.acceptObjQuery_only (.refl _ s) (Nat.or_self _)).steady (by decide)
  · exact (State.acceptWinOpen_only (.refl _ s) (Nat.or_self _)).steady (by decide)
  · exact (State.acceptWinClose_only (.refl _ s) (Nat.or_self _)).steady (by decide)
  · exact State.accept_steady State.winMoveStart_steady s _ o d _ _
  · exact State.accept_steady State.winMoveStart_steady s _ o d _ _
  · exact (State.acceptColl_only (.refl _ s) (Nat.or_self _)).steady (by decide)
  · exact State.accept_steady State.quiesceStart_steady s _ o d _ _
  · exact (State.acceptCarLoad_only (.refl _ s) (Nat.or_self _)).steady (by decide)
  · exact (State.acceptAddnorm_only (.refl _ s) (Nat.or_self _)).steady (by decide)

theorem State.acceptEntry_steady (s : State) (e : PollEntry) : s.Steady (s.acceptEntry e) := by
  have hrefuse (u : State) (o : Origin) (d : Line64) (c off : Nat) : u.Steady (u.refuseLine o d c off) :=
    (State.refuseLine_only (.refl _ u) (Nat.or_self _)).steady (by decide)
  unfold State.acceptEntry
  extract_lets o d
  split
  · exact hrefuse s ..
  split
  · exact State.Steady.trans ((State.count_only (.refl _ s) (Nat.or_self _)).steady (by decide)) (hrefuse _ ..)
  split
  · next t ht => exact s.acceptLine_steady o e.entry t ht
  · exact hrefuse s ..

theorem State.acceptFetched_steady (s : State) : s.Steady s.acceptFetched := by
  unfold State.acceptFetched
  split
  · exact .refl s
  · exact State.Steady.trans ((State.setPoll_only (.refl _ s) (Nat.or_self _)).steady (by decide))
      (.foldl State.acceptEntry_steady _ _)

theorem State.beginHold_steady (s : State) (cause : Nat) : s.Steady (s.beginHold cause) :=
  have hhold (u : State) : u.Steady
      { u with ctl := { u.ctl with holdReq := none, holding := some (u.ctl.holding.getD cause) } } := .of_fab rfl
  (s.acceptFetched_steady.trans (hhold _)).trans ((State.dropPoll_only (.refl _ _) (Nat.or_self _)).steady (by decide))

theorem State.takeHold_steady (s : State) : s.Steady s.takeHold := by
  unfold State.takeHold
  split
  · exact .refl s
  · exact s.beginHold_steady _

/-! ### The unit at a boundary (R369, R489) -/

theorem State.boundaryOpens_sameUnit (s : State) : s.SameUnit s.boundaryOpens := by
  have hmessages : s.SameUnit s.latchSnaps.beatMessages.takeShadowed :=
    .trans ((State.latchSnaps_only (.refl _ s) (Nat.or_self _)).sameUnit (by decide))
      (.trans (s.latchSnaps.beatMessages_only.sameUnit (by decide)) ⟨rfl, rfl⟩)
  have hquiesce (u : State) : u.SameUnit u.takeHold.quiesceTake := u.takeHold_steady.unit.trans
    ((State.quiesceTake_only (.refl _ _) (Nat.or_self _)).sameUnit (by decide))
  have hlinks (u : State) : u.SameUnit u.markUnlocked.clearSlices.ageLinks :=
    OnlyM.sameUnit (m := mask [.fabColls, .fabArrivals, .fabPorts, .fabSeen])
      (State.ageLinks_only (State.clearSlices_only (State.markUnlocked_only (.refl _ _) (by decide)) (by decide)) (by decide))
      (by decide)
  rw [State.boundaryOpens_eq]
  exact ((((hmessages.trans (hquiesce _)).trans (State.chooseParent_sameUnit _)).trans (State.announce_sameUnit _))).trans
    (hlinks _)

theorem State.boundaryCloses_sameUnit (s : State) : s.SameUnit s.boundaryCloses := by
  have hfreeze := (State.freezeForDump_only (.refl _ s) (Nat.or_self _)).sameUnit (by decide)
  have hpoll := (State.boundaryPoll_only (.refl _ s.freezeForDump) (Nat.or_self _)).sameUnit (by decide)
  have hflush := (State.windowsFlush_only (.refl _ s.freezeForDump.boundaryPoll) (Nat.or_self _)).sameUnit (by decide)
  have hpump := (State.winPump_only (.refl _ s.freezeForDump.boundaryPoll.windowsFlush) (Nat.or_self _)).sameUnit (by decide)
  have hclose := ((hfreeze.trans hpoll).trans hflush).trans hpump
  unfold State.boundaryCloses
  extract_lets s1
  split
  · exact hclose.trans s1.sendSyncs_sameUnit
  · exact hclose

/-- A boundary leaves the unit in its state: what it finds out of the parent takes effect later (R369). -/
theorem State.boundary_sameUnit (s : State) : s.SameUnit s.boundary := by
  have hwindow : s.SameUnit { s with cat := { s.cat with wbeat := s.beat } } := ⟨rfl, rfl⟩
  have hmiddle (u : State) : u.SameUnit u.boundaryAccrues.boundaryForms.openFirst :=
    ((State.boundaryAccrues_only (.refl _ u) (Nat.or_self _)).sameUnit (by decide)).trans
      (((State.boundaryForms_only (.refl _ _) (Nat.or_self _)).sameUnit (by decide)).trans
        ((State.openFirst_only (.refl _ _) (Nat.or_self _)).sameUnit (by decide)))
  exact ((hwindow.trans (State.boundaryOpens_sameUnit _)).trans (hmiddle _)).trans (State.boundaryCloses_sameUnit _)

/-! ### The unit starts and stops (R369, R489) -/

theorem State.setBeatSt_beat (s : State) (st : BeatSt) (cnt : Nat) :
    (s.setBeatSt st cnt).fab.beat = { s.fab.beat with st := st } ∧ (s.setBeatSt st cnt).inForce = s.inForce := by
  unfold State.setBeatSt
  extract_lets b
  split
  · next h => exact ⟨h ▸ rfl, rfl⟩
  · have hevent := State.event_only (a1 := srcHub hubBeat) (a2 := 7) (a3 := 0) (a4 := st.code + 256 * b.st.code) (a5 := cnt)
      (.refl _ (s.setBeat { b with st := st })) (Nat.or_self _)
    exact ⟨hevent.fab.beat.resolve_left (by decide), hevent.inForce.resolve_left (by decide)⟩

/-- The unit started: ROOT or SEEK, before its first boundary. -/
def State.beatStarted (s : State) : State :=
  let root := s.flag .beatCtrl [] 1
  let s1 := s.setBeatSt (if root then .root else .seek) s.beat
  s1.setBeat { s1.fab.beat with
    started := true, stratum := if root then 0 else 15, parent := 63, rootId := if root then s.devId else 0
    theta := 0, steer := 0, silent := 0, next := none, lossDue := none, peers := [] }

theorem State.startBeat_of_off {s : State} (hrun : s.running = true) (hoff : s.beatOff = true)
    (hen : s.flag .beatCtrl [] 0 = true) : s.startBeat = s.beatStarted.boundary := by
  simp only [State.startBeat, hrun, hoff, hen, Bool.not_true, Bool.or_self, Bool.false_eq_true, if_false]
  rfl

theorem State.beatStarted_beat (s : State) :
    s.beatStarted.fab.beat.st = (if s.flag .beatCtrl [] 1 then .root else .seek) ∧ s.beatStarted.fab.beat.started = true ∧
      s.beatStarted.beat = s.beat := by
  obtain ⟨hbeat, -⟩ := s.setBeatSt_beat (if s.flag .beatCtrl [] 1 then .root else .seek) s.beat
  exact ⟨congrArg BeatUnit.st hbeat, rfl, (congrArg BeatUnit.cnt hbeat).trans rfl⟩

/-- The unit stopped: OFF, with the number of the last boundary plus one, before what waited for the next boundary. -/
def State.beatStopped (s : State) : State :=
  let b := s.fab.beat
  let cnt := if b.started then (b.cnt + 1) % 2 ^ 64 else b.cnt
  let s1 := s.setBeatSt .off cnt
  s1.setBeat { s1.fab.beat with
    cnt := cnt, stratum := 15, parent := 63, next := none, lossDue := none, started := false, silent := 0, steer := 0
    peers := [] }

theorem State.stopBeat_of_on {s : State} (hon : s.beatOff = false) :
    s.stopBeat = s.beatStopped.latchSnaps.freezeForDump.takeHold := by
  simp only [State.stopBeat, hon, Bool.false_eq_true, if_false]
  rfl

theorem State.beatStopped_beat (s : State) :
    s.beatStopped.fab.beat.st = .off ∧ s.beatStopped.fab.beat.started = false ∧
      s.beatStopped.beat = (if s.fab.beat.started then (s.beat + 1) % 2 ^ 64 else s.beat) ∧ s.beatStopped.inForce = s.inForce := by
  obtain ⟨hbeat, hforce⟩ := s.setBeatSt_beat .off (if s.fab.beat.started then (s.fab.beat.cnt + 1) % 2 ^ 64 else s.fab.beat.cnt)
  exact ⟨congrArg BeatUnit.st hbeat, rfl, rfl, hforce⟩

theorem State.beatStopped_ports (s : State) : s.beatStopped.fab.ports = s.fab.ports :=
  ((State.setBeatSt_only (.refl _ s) (Nat.or_self _)).fab.ports.resolve_left (by decide) :)

/-- What waited for the next boundary and happens as the unit stops leaves the unit and the ports. -/
theorem State.takeHold_latched_steady (s : State) : s.Steady s.latchSnaps.freezeForDump.takeHold :=
  (((State.latchSnaps_only (.refl _ s) (Nat.or_self _)).steady (by decide)).trans
    ((State.freezeForDump_only (.refl _ _) (Nat.or_self _)).steady (by decide))).trans (State.takeHold_steady _)

theorem State.takeHold_latched_sameBeat (s : State) : s.SameBeat s.latchSnaps.freezeForDump.takeHold :=
  (((State.latchSnaps_only (.refl _ s) (Nat.or_self _)).sameBeat (by decide)).trans
    ((State.freezeForDump_only (.refl _ _) (Nat.or_self _)).sameBeat (by decide))).trans (State.takeHold_sameBeat _)

theorem State.stopBeat_beatOff (s : State) : s.stopBeat.beatOff = true := by
  cases hon : s.beatOff with
  | true => rw [State.stopBeat, if_pos hon]; exact hon
  | false =>
    rw [State.stopBeat_of_on hon, s.beatStopped.takeHold_latched_steady.unit.beatOff, State.beatOff, s.beatStopped_beat.1]
    rfl

theorem State.stopBeat_keepsPorts (s : State) : s.KeepsPorts s.stopBeat := by
  cases hon : s.beatOff with
  | true => rw [State.stopBeat, if_pos hon]; exact .refl s
  | false =>
    rw [State.stopBeat_of_on hon]
    exact .trans (.of_eq s.beatStopped_ports) s.beatStopped.takeHold_latched_steady.ports
/-! ### Entry to HOLD (R473, R495) -/

theorem State.portsStop_disabled (s : State) {p : Nat} (hp : p < 32) : (s.portsStop.port p).st = .disabled :=
  foldl_get_of_mem (get := fun (u : State) q => (u.port q).st) (key := id) (f := fun u p => u.portTo p .disabled)
    (R := fun _ y => y = .disabled) (fun u p q hq => (u.portTo_port p rfl).2 q hq) Function.injective_id
    (fun u p => congrArg Port.st (u.portTo_port p rfl).1) List.nodup_range s (List.mem_range.mpr hp)

/-- What entry to HOLD does once the ports and the beat unit have stopped. -/
def State.held (s : State) (cause : Nat) : State :=
  let s1 := (s.freezeRings 3).dropPoll
  { s1 with ctl := { s1.ctl with st := .hold, hcause := cause, holdReq := none, holding := none } }

theorem State.enterHold_eq (s : State) (cause : Nat) : s.enterHold cause = s.portsStop.stopBeat.held cause := rfl

theorem State.held_steady (s : State) (cause : Nat) : s.Steady (s.held cause) :=
  (((State.freezeRings_only (.refl _ s) (Nat.or_self _)).steady (by decide)).trans
    ((State.dropPoll_only (.refl _ _) (Nat.or_self _)).steady (by decide))).trans (.of_fab rfl)

theorem State.held_frozen (s : State) (cause : Nat) : (s.held cause).cat.frozen = true :=
  ((State.dropPoll_only (.refl _ (s.freezeRings 3)) (Nat.or_self _)).cat.frozen.resolve_left (by decide)).trans
    (s.freezeRings_frozen 3).1

theorem State.held_ctl (s : State) (cause : Nat) : (s.held cause).ctl.st = .hold ∧ (s.held cause).ctl.hcause = cause ∧
    (s.held cause).ctl.holding = none ∧ (s.held cause).ctl.holdReq = none ∧ (s.held cause).hif.poll = none :=
  ⟨rfl, rfl, rfl, rfl, State.dropPoll_poll _⟩

/-- From the ports stopped on, entry to HOLD sends what a hold asked for still takes in, and changes the state of no port. -/
theorem State.enterHold_port (s : State) (cause : Nat) {p : Nat} (hp : p < 32) :
    ((s.enterHold cause).port p).st = .disabled := by
  rw [State.enterHold_eq, (State.held_steady _ cause).ports.st, s.portsStop.stopBeat_keepsPorts.st]
  exact s.portsStop_disabled hp

theorem State.enterHold_beatOff (s : State) (cause : Nat) : (s.enterHold cause).beatOff = true := by
  rw [State.enterHold_eq, (State.held_steady _ cause).unit.beatOff]
  exact s.portsStop.stopBeat_beatOff

theorem exec_holdEntry {s : State} {cause : Nat} (hrun : s.running = true) (hholding : s.ctl.holding = some cause)
    (hready : s.holdReady = true) : exec .holdEntry s = .next (s.enterHold cause) := by
  show execHoldEntry s = _
  simp only [execHoldEntry, hholding, hrun, hready, Bool.and_self, if_true]

/-! ### A hold asked for (R488, R495) -/

theorem State.running_of {s : State} (halive : s.alive = true) (hst : s.ctl.st = .run) : s.running = true := by
  rw [State.running, halive, hst]
  rfl

/-- A hold begins at once where no boundary comes. -/
theorem State.askHold_of_off {s : State} (cause : Nat) (hrun : s.running = true) (hnone : s.ctl.holding = none)
    (hoff : s.beatOff = true) : s.askHold cause = s.beginHold cause := by
  simp [State.askHold, hrun, hnone, hoff]

theorem State.askHold_of_on {s : State} (cause : Nat) (hrun : s.running = true) (hnone : s.ctl.holding = none)
    (hon : s.beatOff = false) :
    s.askHold cause = { s with ctl := { s.ctl with holdReq := some (s.ctl.holdReq.getD cause) } } := by
  simp [State.askHold, hrun, hnone, hon]

theorem State.beginHold_holding {s : State} (cause : Nat) (hnone : s.ctl.holding = none) :
    (s.beginHold cause).ctl.holding = some cause := by
  let u : State := { s.acceptFetched with ctl := { s.acceptFetched.ctl with
    holdReq := none, holding := some (s.acceptFetched.ctl.holding.getD cause) } }
  have hkept := (State.acceptFetched_only (.refl _ s) (Nat.or_self _)).ctl.holding.resolve_left (by decide)
  have hdropped := (State.dropPoll_only (.refl _ u) (Nat.or_self _)).ctl.holding.resolve_left (by decide)
  refine hdropped.trans ?_
  show some (s.acceptFetched.ctl.holding.getD cause) = some cause
  rw [hkept, hnone]
  rfl

theorem State.beginHold_poll (s : State) (cause : Nat) : (s.beginHold cause).hif.poll = none := State.dropPoll_poll _

theorem exec_orderlyHold {s : State} {w : Word} (hpf : s.pfWrite 0 = true) (hop : bits w.toNat 1 0 = 1) :
    exec (.orderlyHold 0 w) s = .next (s.askHold 2) := by
  show execOrderlyHold 0 w s = _
  simp only [execOrderlyHold, State.writeGlbCmd, hpf, hop, if_true]

theorem State.alive_of_pfWrite {s : State} {f : GalNo} (h : s.pfWrite f = true) : s.alive = true :=
  State.alive_of_barUp (Bool.and_eq_true_iff.mp h).1

/-! ### The configuration commit (R485 to R488) -/

theorem exec_configurationCommit {s : State} {w : Word} (hpf : s.pfWrite 0 = true) :
    exec (.configurationCommit 0 w) s = .next (s.writeCommit 0 w) := by
  show execConfigurationCommit 0 w s = _
  simp only [execConfigurationCommit, hpf, if_true]
  rfl

theorem exec_commitCheckDone_pass {s : State} (halive : s.alive = true) (hbusy : s.ctl.cBusy = true)
    (hpass : s.commitFailure = none) : exec .commitCheckDone s = .next s.commitPass := by
  show execCommitCheckDone s = _
  rw [execCommitCheckDone, halive, hbusy, Bool.and_self, if_pos rfl, hpass]

theorem exec_commitCheckDone_fail {s : State} {code cerr : Nat} (halive : s.alive = true) (hbusy : s.ctl.cBusy = true)
    (hfail : s.commitFailure = some (code, cerr)) : exec .commitCheckDone s = .next (s.commitFail code cerr) := by
  show execCommitCheckDone s = _
  rw [execCommitCheckDone, halive, hbusy, Bool.and_self, if_pos rfl, hfail]

/-- Whether a device that is up is in HOLD. -/
theorem State.inHold_of_alive {s : State} (halive : s.alive = true) : s.inHold = (s.ctl.st == .hold) := by
  rw [State.inHold, halive, Bool.true_and]

/-- The state with a commit set committed. -/
def State.committedAs (s : State) (ws : List Word) : State :=
  { s with
    ctl := { s.ctl with cBusy := false, committed := some ws, cLast := s.ctl.cSeq }
    sec := { s.sec with measured := ws } }

/-- A committed set brings a device in HOLD to RUN. -/
def State.afterCommit (s : State) : State := if s.inHold then s.enterRun else s

theorem State.commitPass_eq (s : State) : s.commitPass = (s.committedAs s.commitWords).afterCommit := by
  unfold State.commitPass
  generalize s.commitWords = ws
  rfl

theorem State.startBeat_st (s : State) : s.portsStart.payNotices.startBeat.ctl.st = s.ctl.st := by
  have hports := (State.portsStart_only (.refl _ s) (Nat.or_self _)).ctl.st.resolve_left (by decide)
  have hpaid := (State.payNotices_only (.refl _ s.portsStart) (Nat.or_self _)).ctl.st.resolve_left (by decide)
  have hbeat := (State.startBeat_only (.refl _ s.portsStart.payNotices) (Nat.or_self _)).ctl.st.resolve_left (by decide)
  rw [hbeat, hpaid, hports]

theorem State.enterRun_st (s : State) : s.enterRun.ctl.st = .run := by
  rw [State.enterRun, State.startBeat_st]

theorem State.afterCommit_spec {s : State} (halive : s.alive = true) :
    s.afterCommit.ctl.committed = s.ctl.committed ∧ s.afterCommit.ctl.cBusy = s.ctl.cBusy ∧
      s.afterCommit.ctl.cLast = s.ctl.cLast ∧ s.afterCommit.sec.measured = s.sec.measured ∧
      s.afterCommit.ctl.st = (if s.ctl.st = .hold then .run else s.ctl.st) := by
  have hrun := State.enterRun_only (.refl _ s) (Nat.or_self _)
  rw [State.afterCommit, State.inHold_of_alive halive]
  by_cases hst : s.ctl.st = .hold
  · rw [if_pos (beq_iff_eq.mpr hst), if_pos hst]
    exact ⟨hrun.ctl.committed.resolve_left (by decide), hrun.ctl.cBusy.resolve_left (by decide),
      hrun.ctl.cLast.resolve_left (by decide), hrun.sec.measured.resolve_left (by decide), State.enterRun_st s⟩
  · rw [if_neg (fun h => hst (beq_iff_eq.mp h)), if_neg hst]
    exact ⟨rfl, rfl, rfl, rfl, rfl⟩

theorem State.commitPass_spec {s : State} (halive : s.alive = true) :
    s.commitPass.ctl.committed = some s.commitWords ∧ s.commitPass.ctl.cBusy = false ∧
      s.commitPass.ctl.cLast = s.ctl.cSeq ∧ s.commitPass.sec.measured = s.commitWords ∧
      s.commitPass.ctl.st = (if s.ctl.st = .hold then .run else s.ctl.st) := by
  rw [State.commitPass_eq]
  generalize s.commitWords = ws
  obtain ⟨hset, hbusy, hlast, hmeasured, hst⟩ := (s.committedAs ws).afterCommit_spec halive
  exact ⟨hset, hbusy, hlast, hmeasured, hst⟩

/-- The state with a failed check's code and the offset it names. -/
def State.commitRefused (s : State) (code cerr : Nat) : State :=
  { s with ctl := { s.ctl with cBusy := false, cCause := code, cErr := cerr } }

theorem State.commitFail_eq (s : State) (code cerr : Nat) :
    s.commitFail code cerr = if s.inHold
      then { s.commitRefused code cerr with ctl := { (s.commitRefused code cerr).ctl with hcause := 1 } }
      else (s.commitRefused code cerr).askHold 1 := rfl

theorem State.askHold_kept (s : State) (cause : Nat) :
    (s.askHold cause).ctl.committed = s.ctl.committed ∧ (s.askHold cause).ctl.cBusy = s.ctl.cBusy ∧
      (s.askHold cause).ctl.cLast = s.ctl.cLast ∧ (s.askHold cause).ctl.cCause = s.ctl.cCause ∧
      (s.askHold cause).ctl.cErr = s.ctl.cErr ∧ (s.askHold cause).ctl.st = s.ctl.st ∧
      (s.askHold cause).regs = s.regs := by
  have hask := State.askHold_only (a1 := cause) (.refl _ s) (Nat.or_self _)
  exact ⟨hask.ctl.committed.resolve_left (by decide), hask.ctl.cBusy.resolve_left (by decide),
    hask.ctl.cLast.resolve_left (by decide), hask.ctl.cCause.resolve_left (by decide),
    hask.ctl.cErr.resolve_left (by decide), hask.ctl.st.resolve_left (by decide), hask.regs.resolve_left (by decide)⟩

theorem State.askHold_asked {s : State} (cause : Nat) (hrun : s.running = true) (hnone : s.ctl.holding = none) :
    if s.beatOff = true then (s.askHold cause).ctl.holding = some cause ∧ (s.askHold cause).hif.poll = none
    else (s.askHold cause).ctl.holdReq = some (s.ctl.holdReq.getD cause) ∧ (s.askHold cause).hif = s.hif := by
  cases hoff : s.beatOff with
  | true =>
    rw [if_pos rfl, State.askHold_of_off cause hrun hnone hoff]
    exact ⟨State.beginHold_holding cause hnone, s.beginHold_poll cause⟩
  | false =>
    rw [if_neg Bool.false_ne_true, State.askHold_of_on cause hrun hnone hoff]
    exact ⟨rfl, rfl⟩

theorem State.commitFail_spec {s : State} (code cerr : Nat) (halive : s.alive = true) :
    (s.commitFail code cerr).ctl.committed = s.ctl.committed ∧ (s.commitFail code cerr).ctl.cBusy = false ∧
      (s.commitFail code cerr).ctl.cLast = s.ctl.cLast ∧ (s.commitFail code cerr).ctl.cCause = code ∧
      (s.commitFail code cerr).ctl.cErr = cerr ∧ (s.commitFail code cerr).ctl.st = s.ctl.st ∧
      (s.commitFail code cerr).regs = s.regs ∧ (s.ctl.st = .hold → (s.commitFail code cerr).ctl.hcause = 1) ∧
      (s.ctl.st = .run → s.ctl.holding = none → if s.beatOff = true then (s.commitFail code cerr).ctl.holding = some 1
        else (s.commitFail code cerr).ctl.holdReq = some (s.ctl.holdReq.getD 1)) := by
  rw [State.commitFail_eq, State.inHold_of_alive halive]
  by_cases hst : s.ctl.st = .hold
  · rw [if_pos (beq_iff_eq.mpr hst)]
    exact ⟨rfl, rfl, rfl, rfl, rfl, rfl, rfl, fun _ => rfl, fun h => nomatch hst.symm.trans h⟩
  · rw [if_neg (fun h => hst (beq_iff_eq.mp h))]
    obtain ⟨hset, hbusy, hlast, hcode, hcerr, hkept, hregs⟩ := (s.commitRefused code cerr).askHold_kept 1
    refine ⟨hset, hbusy, hlast, hcode, hcerr, hkept, hregs, fun h => absurd h hst, fun hrun hnone => ?_⟩
    have hasked := State.askHold_asked (s := s.commitRefused code cerr) 1 (State.running_of halive hrun) hnone
    have hoff : (s.commitRefused code cerr).beatOff = s.beatOff := rfl
    rw [hoff] at hasked
    split at hasked
    · next h => rw [if_pos h]; exact hasked.1
    · next h => rw [if_neg h]; exact hasked.1

/-! ### BEAT_CTRL (R484, R489) -/

/-- Of the commit set, BEAT_CTRL alone stands at its place. -/
theorem commitSet_beatCtrl : ∀ e ∈ commitSet, regOff e.1.reg e.2 = regOff .beatCtrl [] → e.1.reg = .beatCtrl ∧ e.2 = [] := by
  decide +kernel

theorem setBits_self (n hi lo : Nat) : setBits n hi lo (bits n hi lo) = n := by
  have hle : bits n hi lo * 2 ^ lo ≤ n :=
    (Nat.mul_le_mul_right _ (Nat.mod_le _ _)).trans (Nat.div_mul_le_self n (2 ^ lo))
  rw [setBits, show bits n hi lo % 2 ^ (hi + 1 - lo) = bits n hi lo from Nat.mod_mod _ _, Nat.sub_add_cancel hle]

/-- Setting a field of BEAT_CTRL to the value it has leaves what a commit compares. -/
theorem State.setField_commitWords (s : State) (hi lo : Nat) :
    (s.setField .beatCtrl [] hi lo (s.field .beatCtrl [] hi lo)).commitWords = s.commitWords := by
  refine List.map_congr_left fun e he => ?_
  by_cases hat : regOff e.1.reg e.2 = regOff .beatCtrl []
  · obtain ⟨hreg, hidx⟩ := commitSet_beatCtrl e he hat
    rw [hreg, hidx, State.setField_written, State.field, setBits_self,
      Nat.mod_eq_of_lt (show s.written .beatCtrl [] < 2 ^ 32 from BitVec.isLt _)]
  · rw [State.setField_written_ne s hi lo _ hat]

/-- BEAT_CTRL with EN and ROOT as a word has them. -/
def State.beatCtrlSet (s : State) (word : Word) : State :=
  (s.setField .beatCtrl [] 1 1 (if bit word.toNat 1 then 1 else 0)).setField .beatCtrl [] 0 0 (if bit word.toNat 0 then 1 else 0)

theorem State.flag_one_field (s : State) (r : Reg) (idx : List Nat) (i : Nat) :
    (if s.flag r idx i then 1 else 0) = s.field r idx i i := by
  have hlt : s.field r idx i i < 2 := by
    rw [State.field, bits, Nat.add_sub_cancel_left]
    exact Nat.mod_lt _ (by decide)
  rw [State.flag]
  split
  · next h => exact (beq_iff_eq.mp h).symm
  · next h => have := mt beq_iff_eq.mpr h; omega

theorem State.beatCtrlSet_flag (s : State) (word : Word) : (s.beatCtrlSet word).flag .beatCtrl [] 0 = bit word.toNat 0 ∧
    (s.beatCtrlSet word).flag .beatCtrl [] 1 = bit word.toNat 1 := by
  have hbit (b : Bool) : (bits (if b then 1 else 0) 0 0 == 1) = b := by cases b <;> rfl
  constructor
  · rw [State.flag, State.beatCtrlSet, State.setField_field_within _ _ _ _ le_rfl le_rfl le_rfl (by decide)]
    exact hbit _
  · rw [State.flag, State.beatCtrlSet, State.setField_field_beside _ _ _ _ le_rfl le_rfl (.inr (by decide)) (by decide),
      State.setField_field_within _ _ _ _ le_rfl le_rfl le_rfl (by decide)]
    exact hbit _

theorem State.refuseAll_nil (s : State) (func off : Nat) : s.refuseAll func off [] = s := rfl

/-- A write that leaves ROOT, and asks for EN only with the fields of the beat committed, is taken whole. -/
theorem State.writeBeatCtrl_sameRoot {s : State} {word : Word} (func : Nat)
    (hroot : bit word.toNat 1 = s.flag .beatCtrl [] 1)
    (hset : bit word.toNat 0 = true → s.uncommitted (fun r _ => beatFields r) = false) (hrun : s.running = true) :
    s.writeBeatCtrl func word =
      if bit word.toNat 0 then (s.beatCtrlSet word).startBeat else (s.beatCtrlSet word).stopBeat := by
  have hrooted : (if bit word.toNat 1 then 1 else 0) = s.field .beatCtrl [] 1 1 := by rw [hroot, State.flag_one_field]
  have hbad : (bit word.toNat 0 && (s.setField .beatCtrl [] 1 1 (s.field .beatCtrl [] 1 1)).uncommitted
      (fun r _ => beatFields r)) = false := by
    cases hen : bit word.toNat 0 with
    | false => rfl
    | true =>
      rw [Bool.true_and, ← hset hen, State.uncommitted, State.uncommitted, State.setField_commitWords]
      rfl
  have hset : s.beatCtrlSet word = (s.setField .beatCtrl [] 1 1 (s.field .beatCtrl [] 1 1)).setField .beatCtrl [] 0 0
      (if bit word.toNat 0 then 1 else 0) := by rw [State.beatCtrlSet, hrooted]
  have hrun' : (s.beatCtrlSet word).running = true := hrun
  rw [hset] at hrun' ⊢
  simp only [State.writeBeatCtrl, hroot, bne_self_eq_false, Bool.false_and, Bool.false_eq_true, if_false]
  rw [← hroot, hrooted, hbad]
  simp only [Bool.or_self, check, Bool.false_eq_true, if_false, Bool.or_false, Bool.not_eq_true']
  rw [State.refuseAll_nil, hrun', if_neg (by decide : ¬ true = false)]

theorem exec_beatUnitStart {s : State} {w : Word} (hpf : s.pfWrite 0 = true) (hen : bit w.toNat 0 = true) :
    exec (.beatUnitStart 0 w) s = .next (s.writeBeatCtrl 0 w) := by
  show execBeatUnitStart 0 w s = _
  simp only [execBeatUnitStart, hpf, hen, Bool.and_self, if_true]
  rfl

theorem exec_beatUnitStop {s : State} {w : Word} (hpf : s.pfWrite 0 = true) (hen : bit w.toNat 0 = false) :
    exec (.beatUnitStop 0 w) s = .next (s.writeBeatCtrl 0 w) := by
  show execBeatUnitStop 0 w s = _
  simp only [execBeatUnitStop, hpf, hen, Bool.not_false, Bool.and_self, if_true]
  rfl

theorem State.flag_congr {s t : State} (h : t.regs = s.regs) (r : Reg) (idx : List Nat) (i : Nat) :
    t.flag r idx i = s.flag r idx i := by
  rw [State.flag, State.flag, State.field, State.field, State.written, State.written, h]

/-- The unit started and its first boundary passed: it is the root or it seeks, with the number its counter held. -/
theorem State.startBeat_spec {s : State} (hrun : s.running = true) (hoff : s.beatOff = true)
    (hen : s.flag .beatCtrl [] 0 = true) :
    s.startBeat.fab.beat.st = (if s.flag .beatCtrl [] 1 then .root else .seek) ∧ s.startBeat.beat = s.beat ∧
      s.startBeat.fab.beat.started = true ∧ s.startBeat.cat.wbeat = s.beat ∧ s.startBeat.regs = s.regs := by
  have hregs := (State.startBeat_only (.refl _ s) (Nat.or_self _)).regs.resolve_left (by decide)
  obtain ⟨hst, hstarted, hcount⟩ := s.beatStarted_beat
  obtain ⟨hkept, hgoes⟩ := s.beatStarted.boundary_sameUnit
  obtain ⟨hbeat, -, -, hwindow⟩ := s.beatStarted.boundary_spec
  rw [State.startBeat_of_off hrun hoff hen] at hregs ⊢
  exact ⟨hkept.trans hst, hbeat.trans hcount, hgoes.trans hstarted, hwindow.trans hcount, hregs⟩

/-- The unit stopped: OFF, with the number of the last boundary plus one, and the fields in force as they were. -/
theorem State.stopBeat_spec {s : State} (hon : s.beatOff = false) :
    s.stopBeat.fab.beat.st = .off ∧
      s.stopBeat.beat = (if s.fab.beat.started then (s.beat + 1) % 2 ^ 64 else s.beat) ∧
      s.stopBeat.fab.beat.started = false ∧ s.stopBeat.inForce = s.inForce ∧ s.stopBeat.regs = s.regs := by
  have hregs := (State.stopBeat_only (.refl _ s) (Nat.or_self _)).regs.resolve_left (by decide)
  obtain ⟨hst, hstarted, hcount, hforce⟩ := s.beatStopped_beat
  obtain ⟨hkept, hstays⟩ := s.beatStopped.takeHold_latched_steady.unit
  have hsettled := s.beatStopped.takeHold_latched_sameBeat
  simp only [State.SameBeat, State.settled, Prod.mk.injEq] at hsettled
  obtain ⟨hbeat, -, hforced, -⟩ := hsettled
  rw [State.stopBeat_of_on hon] at hregs ⊢
  exact ⟨hkept.trans hst, hbeat.trans hcount, hstays.trans hstarted, hforced.trans hforce, hregs⟩

/-- Settles O41: each transition of the device states is its own lemma above; what a hold asked for still takes in, and a
boundary, leave the beat unit in its state and every port in its. -/
theorem deviceStates : Obligations.DeviceStates := by
  unfold Obligations.DeviceStates
  refine ⟨fun w s hpf => ?_, fun s halive hbusy hpass => ?_, fun s code cerr halive hbusy hfail => ?_,
    fun w s hpf hop hst hnone => ?_, fun s cause hrun hholding hready => ?_, fun w s hpf hst hoff hen hroot hset => ?_,
    fun w s hpf hst hon hen hroot => ?_⟩
  · rw [exec_configurationCommit hpf, State.writeCommit]
    split
    · rfl
    · exact ⟨_, rfl, rfl, BitVec.toNat_ofNat _ _ |>.trans (Nat.mod_mod _ _), rfl⟩
  · exact ⟨s.commitPass, exec_commitCheckDone_pass halive hbusy hpass, State.commitPass_spec halive⟩
  · obtain ⟨hset, hidle, hlast, hcode, hcerr, hkept, hregs, hhold, hasked⟩ := State.commitFail_spec code cerr halive
    exact ⟨s.commitFail code cerr, exec_commitCheckDone_fail halive hbusy hfail, hset, hidle, hlast, hcode, hcerr, hkept,
      fun _ => hregs, hhold, hasked⟩
  · have hrun := State.running_of (State.alive_of_pfWrite hpf) hst
    obtain ⟨-, -, -, -, -, hkept, -⟩ := s.askHold_kept 2
    exact ⟨s.askHold 2, exec_orderlyHold hpf hop, hkept.trans hst, State.askHold_asked 2 hrun hnone⟩
  · obtain ⟨hhold, hcause, hnone, hreq, hpoll⟩ := State.held_ctl s.portsStop.stopBeat cause
    exact ⟨s.enterHold cause, exec_holdEntry hrun hholding hready, hhold, hcause, hnone, hreq, s.enterHold_beatOff cause,
      State.held_frozen _ cause, hpoll, fun p hp => s.enterHold_port cause hp⟩
  · have hrun := State.running_of (State.alive_of_pfWrite hpf) hst
    rw [← bit_eq_getLsbD] at hen hroot
    obtain ⟨hflagEn, hflagRoot⟩ := s.beatCtrlSet_flag w
    obtain ⟨hunit, hbeat, hstarted, hwindow, hregs⟩ :=
      State.startBeat_spec (s := s.beatCtrlSet w) hrun hoff (hflagEn.trans hen)
    refine ⟨(s.beatCtrlSet w).startBeat, ?_, ?_, hbeat, hstarted, hwindow, ?_⟩
    · rw [exec_beatUnitStart hpf hen, State.writeBeatCtrl_sameRoot 0 hroot (fun _ => hset) hrun, if_pos hen]
    · rw [hunit, hflagRoot, bit_eq_getLsbD]
    · rw [State.flag_congr hregs, hflagEn, hen]
  · have hrun := State.running_of (State.alive_of_pfWrite hpf) hst
    rw [← bit_eq_getLsbD] at hen hroot
    obtain ⟨hunit, hbeat, hstarted, hforce, hregs⟩ := State.stopBeat_spec (s := s.beatCtrlSet w) hon
    refine ⟨(s.beatCtrlSet w).stopBeat, ?_, hunit, hbeat, hstarted, hforce, ?_⟩
    · rw [exec_beatUnitStop hpf hen, State.writeBeatCtrl_sameRoot 0 hroot (fun h => nomatch hen.symm.trans h) hrun,
        if_neg (by rw [hen]; decide)]
    · rw [State.flag_congr hregs, (s.beatCtrlSet_flag w).1, hen]

end Sys2Proof.Machine

end
